-- ==== Sys2Proof/Word.lean ====
section
/-!
DEFINITION. Word.lean: the word types, and the one shape of a sparse memory.
-/

namespace Sys2Proof

/-- One byte. -/
abbrev Byte := BitVec 8

/-- A register word of four bytes, and a 32-bit lane element. -/
abbrev W32 := BitVec 32

/-- A register or counter of 64 bits. -/
abbrev W64 := BitVec 64

/-- A sparse memory: key and value pairs, keys strictly rising, no value zero. A key that is not listed reads zero
(R424: step 8 writes zero to all serviceable HBM and scratchpad before a tenant is ACTIVE). -/
abbrev NMap (w : Nat) := List (Nat × BitVec w)

end Sys2Proof
end

