-- ==== Sys2Proof/Machine/StBoard.lean ====
section
/-!
DEFINITION. StBoard.lean: the state of the board: pins, flash, fuses, Catalogue in use, PCIe functions, start, tick
and schedule.
-/

namespace Sys2Proof.Machine

/-! ## PCIe functions (R553 to R557) -/

/-- A PCIe function: the physical function, or the virtual function of tenant `n`. -/
inductive Fn where
  | pf
  | vf (n : Nat)
  deriving DecidableEq, Repr

/-- What each PCIe function holds for itself: its enables (R554), its MSI-X table and pending bits (R555), the read
latches and held low halves of 64-bit registers (R557, keyed by the PF offset of the register), and the session it
selects (R246). -/
structure FnState where
  ready     : Bool
  memEnable : Bool
  busMaster : Bool
  msix      : NMap 32
  pba       : Nat
  latch     : List (Nat × W32)
  held      : List (Nat × W32)
  session   : Nat
  deriving DecidableEq, Repr

/-- Every vector masked, nothing enabled, nothing pending. -/
def FnState.reset : FnState :=
  { ready := false, memEnable := false, busMaster := false, msix := (List.range 9).map fun v => (16 * v + 12, 1),
    pba := 0, latch := [], held := [], session := 0 }

/-! ## Catalogue (R33 to R37 and the sections' own rules) -/

/-- The tick record (R57). -/
structure TickRec where
  periodUs  : Nat
  master    : Nat
  alternate : Nat
  tickInUse : Nat
  align     : Nat
  deriving DecidableEq, Repr

/-- An entry of a schedule table (R73): START and DURATION in units of 0.1 µs, OWNER, TILE_MASK. -/
structure Entry where
  start : Nat
  dur   : Nat
  owner : Nat
  mask  : Nat
  deriving DecidableEq, Repr

/-- A partition record (R412). -/
structure Partition where
  enabled   : Bool
  sealed    : Bool
  twin      : Nat
  rings     : Nat
  spmFirst  : Nat
  spmBanks  : Nat
  xreq      : Nat
  sessFirst : Nat
  sessCount : Nat
  rcpFirst  : Nat
  rcpCount  : Nat
  tileset   : Nat
  chgroups  : Nat
  mscWays   : List Nat
  drcWays   : List Nat
  spMask    : Nat
  stageBase : Nat
  stageSize : Nat
  layers    : Nat
  heads     : Nat
  dsel      : Nat
  fmtKv     : Nat
  granules  : Nat
  poolBase  : Nat
  dirBase   : Nat
  mapBlocks : Nat
  raw       : List Byte
  deriving DecidableEq, Repr

/-- A common weight region's record (R418). -/
structure CommonRec where
  loader  : Nat
  readers : Nat
  groups  : Nat
  size    : Nat
  taWin   : Nat
  deriving DecidableEq, Repr

/-- The wear thresholds (R508), with defaults filled in. -/
structure Wear where
  bankCe    : Nat
  hbmCe     : Nat
  bistFails : Nat
  optMargin : Nat
  optFec    : Nat
  phaseDev  : Nat
  phaseTemp : Nat
  deriving DecidableEq, Repr

/-- An attachment record (R324); ring 0xFF means unused. -/
structure AttRec where
  ring     : Nat
  position : Nat
  deriving DecidableEq, Repr

/-- The Catalogue in use, as this module reads it: header, DOMAIN section, its own MODULE section, the schedule
tables that section lists in its order (R71), WEAR and COMMON. `enabledBy` and `sealedBy` are, for each module, the
masks of tenants whose records are enabled and sealed (R428, R430), `twinParts` the twin's partition records (R243). -/
structure Cat where
  sequence  : Nat
  domainId  : Nat
  modules   : Nat
  ncvAccept : List Nat
  digest    : List Byte
  keySlot   : Nat
  tick      : TickRec
  vcw       : List Nat
  ringsOf   : List (List Nat)
  wear      : Wear
  cways     : List Nat
  commons   : List CommonRec
  moduleId  : Nat
  atts      : List AttRec
  plimit    : Nat
  pceil     : Nat
  rlim      : List Nat
  traceGroup : Nat
  vitCtl    : Nat
  vitKinds  : Nat
  vitTenants : Nat
  tables    : List (List Entry)
  parts     : List Partition
  enabledBy : List Nat
  sealedBy  : List Nat
  twinParts : List (List Byte)
  deriving DecidableEq, Repr

/-! ## Flash and fuses (R27 to R32) -/

/-- A firmware image as its checks see it (R30, R39, R460): the layout of a firmware image is not in the manual, so
what the always-on controller finds out about one is held instead: `rootKey` is the root key that signed its
certificate, `certOk` that this signature verifies, `sigOk` that the image's own does. -/
structure Firmware where
  version : Nat
  svn     : BitVec 8
  ncv     : Nat
  wellFormed : Bool
  rootKey : List Byte
  certOk  : Bool
  sigOk   : Bool
  deriving DecidableEq, Repr

/-- A record of the accession log (R518), as its 64 bytes decode. -/
structure AccRec where
  seq   : Nat
  kind  : Nat
  cause : Nat
  unit  : Nat
  logical : Nat
  old   : Nat
  new   : Nat
  value : Nat
  tick  : Nat
  deriving DecidableEq, Repr

/-- A half of the accession log (R517): its 64-byte header, empty when erased, and the 64 bytes of each record slot in use. -/
structure AccHalf where
  header  : List Byte
  records : List (List Byte)
  deriving DecidableEq, Repr

/-- A region of the configuration flash (R27): its offset and size in bytes. -/
structure FlashRegion where
  offset : Nat
  size   : Nat
  deriving DecidableEq, Repr

/-- The regions of flash (R27): manufacturing header, firmware slots 0 and 1, Catalogue slots A and B, accession log (two halves),
and the unused rest, which nothing reads or writes. -/
def flashRegions : List FlashRegion :=
  [⟨0x0000000, 0x100000⟩, ⟨0x0100000, 0x2000000⟩, ⟨0x2100000, 0x2000000⟩, ⟨0x4100000, 0x1000000⟩, ⟨0x5100000, 0x1000000⟩,
   ⟨0x6100000, 0x800000⟩, ⟨0x6900000, 0x1700000⟩]

def flashSize (i : Nat) : Nat := ((flashRegions[i]?).map (·.size)).getD 0

/-- The configuration flash (R27): the manufacturing header's part number, serial number and layout version, then the regions that
hold something. An erased or incompletely written slot is `none`. -/
structure Flash where
  part   : List Byte
  serial : W64
  layout : Nat
  fw0    : Option Firmware
  fw1    : Option Firmware
  catA   : Option (List Byte)
  catB   : Option (List Byte)
  accA   : AccHalf
  accB   : AccHalf
  deriving DecidableEq, Repr

/-- A customer key slot (R29): the SHA-384 hash of the enrolled key, and the revocation fuse. -/
structure KeySlot where
  hash    : Option (List Byte)
  revoked : Bool
  deriving DecidableEq, Repr

/-- The one-time fuses (R29): the SHA-384 hash of the firmware root public key, the security version number, the customer key
slots, and the module identity key. Its private part is read by no register and no command. -/
structure Fuses where
  rootHash : List Byte
  svn    : BitVec 8
  keys   : Vector KeySlot 4
  idPub  : List Byte
  idPriv : List Byte
  deriving DecidableEq, Repr

/-! ## Pins and module start -/

/-- The pins the manual names (R23, R49, R62, R532, R547, R569 to R574), `true` for an asserted signal; `v48` says that
the 48 V input lies within 40 to 60 V, `conv` holds the converters' good outputs. SLOT_ID is an operand of the start that samples it (R41). -/
structure Pins where
  perst     : Bool
  mated     : Bool
  v48       : Bool
  throttle  : Bool
  conv      : Nat
  boardTest : Bool
  pwrgd     : Bool
  smbAlert  : Bool
  tickIn    : Bool
  tickOut   : Bool
  deriving DecidableEq, Repr

/-- The module states (R42, R48, R49, R66, R492). -/
inductive ModState where
  | off | standby | starting | serving | recovering | derated | halted
  deriving DecidableEq, Repr

/-- The mailbox command that runs (R52 to R54). -/
inductive MbxOp where
  | writeCat | writeFw | enrolKey | revokeKey
  deriving DecidableEq, Repr

/-- The start and the mailbox: what is not in a register. `inputOk` is power-good, `mbxCat` and `mbxFw` the slot and image that a running write programs when it ends, `railsUp` how far step 3 came,
`ready9` that step 8 is done and the next boundary enters SERVING, `joinRunning` that the domain was already serving
when this module locked to it, `keysAtStart` which keys were revoked when the start began. -/
structure Boot where
  state      : ModState
  inputOk    : Bool
  perstShort : Nat
  mbxRun     : Option MbxOp
  mbxCode    : Nat
  fwUse      : Option Firmware
  cat        : Option Cat
  keysAtStart : List Bool
  railsUp    : Nat
  mbxCat     : Option (Nat × List Byte)
  mbxFw      : Option (Nat × Firmware)
  bootRom    : Bool
  ready9     : Bool
  joinRunning : Bool
  deriving DecidableEq, Repr

def Boot.reset : Boot :=
  { state := .standby, inputOk := false, perstShort := 0, mbxRun := none, mbxCode := 0, fwUse := none, cat := none,
    keysAtStart := [], railsUp := 0, mbxCat := none, mbxFw := none, bootRom := false, ready9 := false, joinRunning := false }

def Pins.reset : Pins :=
  { perst := true, mated := true, v48 := false, throttle := false, conv := 0, boardTest := false, pwrgd := false, smbAlert := false,
    tickIn := false, tickOut := false }

def AccHalf.erased : AccHalf := { header := [], records := [] }

/-- Flash as delivered but for the manufacturing header, whose contents the manual does not give: nothing written (log entry 12). -/
def Flash.reset : Flash :=
  { part := [], serial := 0, layout := 0, fw0 := none, fw1 := none, catA := none, catB := none, accA := AccHalf.erased, accB := AccHalf.erased }

def Fuses.reset : Fuses :=
  { rootHash := [], svn := 0, keys := Vector.replicate 4 { hash := none, revoked := false }, idPub := [], idPriv := [] }

/-! ## Tick (R58 to R70) -/

/-- TICK_IN (R63 to R65): the accepted edge before, the intervals within the period in a row, whether it is locked, the last
good edge, and the edge whose phase the master moves onto while it slews. -/
structure TickIn where
  last     : Option Nat
  run      : Nat
  locked   : Bool
  lastGood : Option Nat
  phase    : Option Nat
  deriving DecidableEq, Repr

def TickIn.reset : TickIn := { last := none, run := 0, locked := false, lastGood := none, phase := none }

/-- A tick symbol (R59): tick number, master, its SRC, hop count and accumulated delay in ns. -/
structure TickSym where
  number : Nat
  master : Nat
  src    : Nat
  hops   : Nat
  delay  : Nat
  deriving DecidableEq, Repr

/-- The tick: the expected boundary in ns, the reference edge already placed for it as (moment, tick number), the last symbol and the run of consecutive ones, whether a symbol was heard
in this start, when holdover began and whether it reached its limit, and what waits for a boundary: a winner's symbol
to adopt, a role to yield, a role to take. `fresh` says that a
symbol has come since the last boundary, `boundaries` counts the boundaries since the reset. -/
structure Tick where
  tin        : TickIn
  expected   : Nat
  edge       : Option (Nat × Nat)
  lastSym    : Option TickSym
  symRun     : Nat
  heard      : Bool
  locked     : Bool
  holdStart  : Option Nat
  holdLimit  : Bool
  adopt      : Option TickSym
  yieldAt    : Bool
  takeAt     : Bool
  fresh      : Bool
  boundaries : Nat
  deriving DecidableEq, Repr

def Tick.reset : Tick :=
  { tin := TickIn.reset, expected := 0, edge := none, lastSym := none, symRun := 0,
    heard := false, locked := false, holdStart := none, holdLimit := false, adopt := none, yieldAt := false,
    takeAt := false, fresh := false, boundaries := 0 }

/-! ## Schedule (R71 to R84) -/

/-- A unit of a background class: the OWNER code, the unit's number within the class, and its deadline in ns. -/
structure BgUnit where
  cls      : Nat
  unit     : Nat
  deadline : Nat
  missed   : Bool
  deriving DecidableEq, Repr

/-- The schedule: a pending request with its tick and the time of its write, the entries open now (their index in the active
table), the open entries whose late start is counted, for each tile the OWNER code of the open entry that holds it and the tenant whose
work its units run, the margin,
the units of background classes that have been served or have missed a deadline, the time of the first boundary in SERVING or DERATED,
the class granted a catch-up atom, and the classes and tiles of the atoms that run. -/
structure Sched where
  request  : Option Nat
  reqAt    : Option Nat
  reqTime  : Nat
  open_    : List Nat
  late     : List Nat
  entry    : Vector (Option Nat) 128
  owner    : Vector (Option Nat) 128
  margin   : Bool
  units    : List BgUnit
  since    : Option Nat
  grant    : Option Nat
  atoms    : List (Nat × List Nat)
  deriving DecidableEq, Repr

def Sched.reset : Sched :=
  { request := none, reqAt := none, reqTime := 0, open_ := [], late := [], entry := Vector.replicate 128 none,
    owner := Vector.replicate 128 none, margin := false, units := [], since := none, grant := none, atoms := [] }

end Sys2Proof.Machine
end

