-- ==== Sys2Proof/Machine/StTile.lean ====
section
/-!
DEFINITION. StTile.lean: the state of a tile: scratchpad, sequencer, units, vector engine, region table and transfer
channels (R87 to R94, R101, R156 to R172, R191 to R213, R247 to R267).
-/

namespace Sys2Proof.Machine

/-- The vector engine (R156 to R159, R172, R188): V0 to V31 as 8,192-bit words, K0 to K7, the poison of each lane and
of each mask bit, and the sticky flag word. K0 is not stored apart: it always reads all ones. -/
structure Ve where
  v      : Vector (BitVec 8192) 32
  vp     : Vector (BitVec 64) 32
  k      : Vector (BitVec 1024) 8
  kp     : Vector (BitVec 1024) 8
  sticky : W32
  deriving DecidableEq, Repr

/-- The engine as every launch finds it (R159). -/
def Ve.launch : Ve :=
  { v := Vector.replicate 32 0, vp := Vector.replicate 32 0, k := Vector.replicate 8 0, kp := Vector.replicate 8 0,
    sticky := 0 }

/-- A command that work belongs to (R92, R385, R403, R444, R453): a command of a ring, by its CSN; the `i`-th stored
command of a launch, which is a RECIPE_LAUNCH of a ring (ring and CSN) or a Ladle launch (its tick); or a work item of a
ROUTE, its `i`-th template command or a chain of its own. The tenant stands beside it. -/
inductive CmdRef where
  | ring (ring csn : Nat)
  | stored (ring : Option Nat) (key i : Nat)
  | item (n i : Nat)
  deriving DecidableEq, Repr

/-- An open LOOP (R92): runs that remain, the body's length in words, and where it begins. -/
structure LoopSt where
  runs : Nat
  body : Nat
  pos  : Nat
  deriving DecidableEq, Repr

/-- A tile program in the sequencer (R90 to R94, R387, R388): the tenant and the command it belongs to, where its next
word lies, where the program ends, its words when the command itself carries them, its launch's seed and step counter
(R159), its counts (R139), its first error and poison codes (R396) and the codes not yet entered, with the session of their row
(R199), its LOOP nest, a BARRIER in force, END reached, and the XSTARTs issued. -/
structure Prog where
  tenant  : Nat
  by_     : CmdRef
  pos     : Nat
  top     : Nat
  words   : List (BitVec 256)
  seed    : W64
  step    : Nat
  sat     : W32
  flush   : W32
  nan     : W32
  err     : Nat
  pois    : Nat
  notes   : List (Nat × Option Nat)
  loops   : List LoopSt
  barrier : Bool
  ended   : Bool
  xord    : Nat
  deriving DecidableEq, Repr

/-- An issued instruction that has not completed (R94): its unit (0 sequencer, 1 matrix, 2 vector, 3 attention, 4
transfer, 5 codec), its word, the first slots of its circular sides, the ranges it holds in the range table (offset,
length, written), whether its unit has begun it, whether its work is done, and the error codes entered for it (R484). -/
structure InFlight where
  id     : Nat
  unit   : Nat
  word   : BitVec 256
  inS    : Nat
  outS   : Nat
  ranges : List (Nat × Nat × Bool)
  begun  : Bool
  done   : Bool
  noted  : List Nat
  deriving DecidableEq, Repr

/-- A copy of the stationary operand in the array (R101): the W_OFF, FMT_W, K, N, BS_W and WS_OFF it was loaded with, its PASSES
and column groups, the bytes of its rows and scales, their poison, and whether something since has disqualified it for KEEP_W. -/
structure HeldW where
  wOff  : Nat
  fmt   : Nat
  k     : Nat
  n     : Nat
  bs    : Bool
  wsOff : Nat
  p     : Nat
  groups : Nat
  w     : List Byte
  ws    : List Byte
  bad   : Bool
  stale : Bool
  deriving DecidableEq, Repr

/-- An instruction whose rows run slot by slot (R102, R258, R586): its word, the first slot it uses on its input and
output sides, and the next row; of a matrix instruction also the load that serves its later compute tiles (R103), the loads that
KEEP_W did not skip, and whether it has run in several groups (R113). -/
structure Cursor where
  id    : Nat
  word  : BitVec 256
  inS   : Nat
  outS  : Nat
  row   : Nat
  load  : Option HeldW
  reloads : Nat
  split : Bool
  deriving DecidableEq, Repr

/-- A side of a region (R256): class code, channel, and tile of a remote-tile side. -/
structure Side where
  cls  : Nat
  chan : Nat
  tile : Nat
  deriving DecidableEq, Repr

/-- An open circular region (R256 to R258): the entry of the region table, its tags (`true` full), head and tail, the
claim pointers of its sides, and the slots marked since open. -/
structure Region where
  desc   : Nat
  tenant : Nat
  base   : Nat
  slotBytes : Nat
  slots  : Nat
  prod   : Side
  cons   : Side
  tags   : List Bool
  head   : Nat
  tail   : Nat
  claimC : Nat
  claimP : Nat
  heads  : Nat
  tails  : Nat
  deriving DecidableEq, Repr

/-- A pending mark of SLOT_RELEASE (R260): applied once every instruction issued before it has completed. -/
structure PendMark where
  desc  : Nat
  slot  : Nat
  full  : Bool
  after : Nat
  deriving DecidableEq, Repr

/-- A descriptor that has begun (R263, R267): its bytes and ordinal in the chain, the slots of its circular sides, where its sides
begin, the number of its requests, the next one to issue, those that are outstanding, and whether XF_POISON is entered for it. -/
structure ActDesc where
  bytes : List Byte
  ord   : Nat
  inS   : Nat
  outS  : Nat
  a     : Nat
  b     : Nat
  total : Nat
  next  : Nat
  open_ : List Nat
  told  : Bool
  deriving DecidableEq, Repr

/-- A transfer channel's chain (R263 to R267): the XSTART it serves, where it lies, its limit and declared ranges, the
descriptors fetched (with their addresses) that have not begun, the address of the next one to fetch, the descriptors
that have begun and not completed in chain order, how many have begun, whether the LAST one has, whether a violation
stopped it, and the launch's seed and step counter (R268), the XFER it runs for (R389), and what
the ledger (R496) knows it by: the command that its work is, its number among that command's chains, and the remote requests
it has had accepted. -/
structure Chan where
  tenant  : Nat
  csp     : Bool
  maxOut  : Nat
  rd      : Nat × Nat
  wr      : Nat × Nat
  fetched : List (Nat × List Byte)
  next    : Nat
  active  : List ActDesc
  begun   : Nat
  last    : Bool
  stopped : Bool
  xstart  : Nat
  seed    : W64
  step    : Nat
  by_     : Option CmdRef
  owner   : CmdRef
  inst    : Nat
  remote  : Nat
  deriving DecidableEq, Repr

/-- The running state of a row-head (R203, R205, R208, R214): maximum, sum, output, poison, and what flushed: on the
whole row-head's path, and on each element's; `q` its query elements, and `np` that a position it needs has no page (R215). -/
structure RowHead where
  q   : List Nat
  m   : W32
  l   : W32
  o   : List W32
  bad : Bool
  np  : Bool
  fl  : Bool
  flo : List Bool
  deriving DecidableEq, Repr

/-- Where the walker has found the page of a range of positions (R193, R222, R223): the positions `[lo, hi)` it holds, its first
granule and size, and the address of the head's section. -/
structure PageAt where
  lo   : Nat
  hi   : Nat
  n    : Nat
  k    : Nat
  base : Nat
  deriving DecidableEq, Repr

/-- An ATTN in the attention pipeline (R201, R213): its word, the first slots of its circular sides, the first row of
the running row block and its rows, how many of these have been read and written out, how many of the block's groups the walker has
fetched and the compute path has taken, the row-heads' running states, and what the walker found: a poisoned directory entry, the
block's groups without a page, and the page it reads now. -/
structure Attn where
  id     : Nat
  word   : BitVec 256
  inS    : Nat
  outS   : Nat
  row    : Nat
  rows   : Nat
  got    : Nat
  wrote  : Nat
  fetched : Nat
  taken  : Nat
  heads  : List RowHead
  dirBad : Bool
  pages  : List Nat
  page   : Option PageAt
  deriving DecidableEq, Repr

/-- What a tile holds for the tenant that runs on it, and saves for one that has lost it (R82, R106, R161, R213, R254,
R488): its program, the instructions in flight, the waiting row cursors of the matrix and vector units, the attention
pipeline, what a gathering stream instruction has so far (R181), the vector engine, the pending marks, a wait at a slot
or a counter, and a launch that has not begun. -/
structure Ctx where
  prog    : Option Prog
  flight  : List InFlight
  mx      : Option Cursor
  vu      : Option Cursor
  at_     : Option Attn
  acc     : List W32
  accBad  : Bool
  ve      : Ve
  marks   : List PendMark
  slotWait : Option (Nat × Nat × Bool)
  cwait   : Option (Nat × Nat × Nat × Nat)
  heldPages : List Nat
  launch  : Option Prog
  deriving DecidableEq, Repr

/-- A logical tile. `phys` is the physical tile that serves it (R14, R15), `none` when vacant (R16, R512). `width` is
the presented width that a stationary load samples (R112, R114). `mem` and `poison` are the scratchpad's bytes and the numbers
of its poisoned 64-byte lines (R249), `flaws` its 32-byte words that hold an error which no read has met or which a read has
corrected (`true`: uncorrectable, R248), `ued` the lines for which SPM_UE is recorded. `chans` holds the chains, keyed by
8 × tenant + channel (R263), `turn` the channel that issued the last request (R263), `saved` the
contexts of tenants that have lost the tile, by tenant; the fields from `prog` to `launch` are the context of the tenant
that runs. -/
structure Tile where
  phys    : Option Nat
  width   : Nat
  mem     : NMap 8
  poison  : List Nat
  flaws   : List (Nat × Bool)
  ued     : List Nat
  held    : Option HeldW
  nextId  : Nat
  regions : List Region
  chans   : List (Nat × Chan)
  turn    : Nat
  prog    : Option Prog
  flight  : List InFlight
  mx      : Option Cursor
  vu      : Option Cursor
  at_     : Option Attn
  acc     : List W32
  accBad  : Bool
  ve      : Ve
  marks   : List PendMark
  slotWait : Option (Nat × Nat × Bool)
  cwait   : Option (Nat × Nat × Nat × Nat)
  heldPages : List Nat
  launch  : Option Prog
  saved   : List (Nat × Ctx)
  deriving DecidableEq, Repr

/-- A tile before start step 8: everything zero, nothing assigned, full width. -/
def Tile.reset : Tile :=
  { phys := none, width := 256, mem := [], poison := [], flaws := [], ued := [], held := none, nextId := 0, regions := [], chans := [],
    turn := 0, prog := none,
    flight := [], mx := none, vu := none, at_ := none, acc := [], accBad := false, ve := Ve.launch, marks := [],
    slotWait := none, cwait := none, heldPages := [], launch := none, saved := [] }

/-! ## Codecs (R277 to R296) -/

/-- A prefix-code table (R281): its generation and the lengths of its symbols and, last, of the escape. -/
structure CxTable where
  gen  : Nat
  lens : List Nat
  deriving DecidableEq, Repr

/-- A request or TLOAD that a codec has accepted (R287, R290): the tile and tenant, the instruction's id and word, the
table an encode codes under, the first slots of its circular sides, the next block to fetch, and a histogram's counts. -/
structure CxReq where
  tile   : Nat
  tenant : Nat
  id     : Nat
  word   : BitVec 256
  table  : Option CxTable
  inS    : Nat
  outS   : Nat
  block  : Nat
  hist   : List Nat
  deriving DecidableEq, Repr

/-- A block in a codec's queues (R292): the request it belongs to, its number there, its bytes (fetched, or made), whether they are
poisoned, the slot it counts on (R287), and the table which a decode took when it read the block's header. -/
structure CxBlk where
  codec  : Nat
  tile   : Nat
  tenant : Nat
  block  : Nat
  bytes  : List Byte
  bad    : Bool
  slot   : Option Nat
  table  : Option CxTable
  deriving DecidableEq, Repr

/-- The codecs: the accepted requests of each, the table slots that are not empty, keyed by 64 × codec + 4 × tenant + slot (R287), the
input and the output queues, oldest first, and whose turn was the last (R292): `turn` by codec the tenant, `within` by
16 × codec + tenant the tile. -/
structure Codecs where
  reqs   : List (Nat × CxReq)
  slots  : List (Nat × CxTable)
  inq    : List CxBlk
  outq   : List CxBlk
  turn   : List (Nat × Nat)
  within : List (Nat × Nat)
  deriving DecidableEq, Repr

def Codecs.reset : Codecs := { reqs := [], slots := [], inq := [], outq := [], turn := [], within := [] }

/-- What is left when the requests of the tenants that `p` names are discarded, with their blocks in the queues (R294). -/
def Codecs.discard (c : Codecs) (p : Nat → Bool) : Codecs :=
  { c with reqs := c.reqs.filter fun (_, r) => !p r.tenant, inq := c.inq.filter fun b => !p b.tenant,
           outq := c.outq.filter fun b => !p b.tenant }

end Sys2Proof.Machine
end

