-- ==== Sys2Proof/Machine/StRing.lean ====
section
/-!
DEFINITION. StRing.lean: the state of the front end: fetched commands, launches, recipes, routed work items, the overflow
log (R376 to R408, R449 to R456).
-/

namespace Sys2Proof.Machine

/-- Where a command stands: fetched and not dispatched, dispatched and not complete, complete and not reported. -/
inductive CmdSt where
  | held | running | done
  deriving DecidableEq, Repr

/-- A command of a ring, of a launch, or of a work item's template (R380, R381, R395, R396): its CSN (its index in a
launch), its 64 bytes, how far it is, its status, detail, counts and flags, its first error and poison codes, the tick
(the boundary of its fetch, then of its dispatch, by the count of boundaries: R68) and the tile of its dispatch, and a copy of the lanes' signal value that it sends. `tag` is what a unit that works for
it counts by: tokens of a feed that remain, or the sequence number of a collective. `replay` says that it runs again after a
rollback, `told` that the ledger holds what it reports or signals (R496), and `unit` is
the unit that released a ring's command under COMPARE (R475). -/
structure RCmd where
  csn    : Nat
  bytes  : List Byte
  st     : CmdSt
  status : Nat
  detail : Nat
  sat    : W32
  flush  : W32
  nan    : W32
  vflags : W32
  err    : Nat
  pois   : Nat
  tick   : Nat
  tile   : Option Nat
  fresh  : Bool
  tag    : Nat
  replay : Bool
  told   : Bool
  unit   : Nat
  deriving DecidableEq, Repr

def RCmd.new (csn : Nat) (bytes : List Byte) : RCmd :=
  { csn := csn, bytes := bytes, st := .held, status := 0, detail := 0, sat := 0, flush := 0, nan := 0, vflags := 0,
    err := 0, pois := 0, tick := 0, tile := none, fresh := true, tag := 0, replay := false, told := false, unit := 0 }

/-- A ring beside its registers (R376 to R380, R404): the commands in flight, oldest first, the CSN of the next command
fetched, the CSNs that a fetch repeated after a takeover skips because they were dispatched (R503), the timer with the
command it counts for, and whether EN was set anew while earlier commands had yet to report (R377). -/
structure RingSt where
  cmds    : List RCmd
  nextCsn : Nat
  skip    : List Nat
  timer   : Nat
  oldest  : Nat
  renew   : Bool
  deriving DecidableEq, Repr

def RingSt.reset : RingSt := { cmds := [], nextCsn := 0, skip := [], timer := 0, oldest := 0, renew := false }

/-- A launch of a recipe (R403, R444): the RECIPE_LAUNCH it runs for (ring and CSN) or the tick of a Ladle launch, the
recipe and the buffer it holds, its commands, how many have dispatched, and whether a timeout ended it (R404). -/
structure Launch where
  tenant  : Nat
  ring    : Option Nat
  key     : Nat
  recipe  : Nat
  buf     : Nat
  version : Nat
  cmds    : List RCmd
  next    : Nat
  stopped : Bool
  deriving DecidableEq, Repr

/-- A recipe's buffer (R399): its commands, version and the launches that hold it. -/
structure RcpBuf where
  cmds    : List (List Byte)
  version : Nat
  holds   : Nat
  deriving DecidableEq, Repr

/-- A recipe that has been loaded: both buffers and which one is current (R399, R400). -/
structure Recipe where
  a      : RcpBuf
  b      : RcpBuf
  curB   : Bool
  deriving DecidableEq, Repr

/-- A ROUTE that runs (R390, R449 to R453): the command, its bytes, the head of its dispatch plan, the half in force at
its dispatch, the items' ids that have not completed, and the numbers of its items, of experts with tokens and of the largest
expert. -/
structure Route where
  tenant : Nat
  ref    : CmdRef
  bytes  : List Byte
  plan   : List Byte
  half   : Nat
  open_  : List Nat
  counts : Nat × Nat × Nat
  deriving DecidableEq, Repr

/-- A work item (R451 to R453): its expert and slots, its tile once placed, whether it fetches weights, the commands of
its template and how many have dispatched; `phase` is 0 queued, 1 gathering, 2 in its template, 3 scattering. -/
structure Item where
  n      : Nat
  tenant : Nat
  ref    : CmdRef
  expert : Nat
  slots  : List Nat
  tile   : Option Nat
  fetch  : Bool
  phase  : Nat
  weights : Bool
  cmds   : List RCmd
  next   : Nat
  deriving DecidableEq, Repr

/-- A layer's replication map in the module (R456): its tenant, the plan's address, the copies that have completed (tile and
expert) and those still to be made. -/
structure PlanSt where
  tenant  : Nat
  layer   : Nat
  addr    : Nat
  done    : List (Nat × Nat)
  loading : List (Nat × Nat)
  deriving DecidableEq, Repr

/-- Work that has left the front end since the last checkpoint and would run again after a rollback (R495, R496): a ring's
command, or a launch of a recipe. -/
inductive Past where
  | cmd (tenant ring : Nat) (c : RCmd)
  | launch (l : Launch)
  deriving DecidableEq, Repr

/-- The front end: the rings (8 × tenant + ring), the launches, the recipes by ID, ROUTEs and their items in queue
order with the next item's number, each tenant's overflow log, oldest entry first (R407), the replication maps, the boundaries
since each tenant's last epoch boundary, and the work that a rollback would run again. -/
structure Front where
  rings    : Vector RingSt 128
  launches : List Launch
  recipes  : List (Nat × Recipe)
  routes   : List Route
  items    : List Item
  nextItem : Nat
  logs     : Vector (List (List Byte)) 16
  plans    : List PlanSt
  epochs   : Vector Nat 16
  past     : List Past
  deriving DecidableEq, Repr

def Front.reset : Front :=
  { rings := Vector.replicate 128 RingSt.reset, launches := [], recipes := [], routes := [], items := [], nextItem := 0,
    logs := Vector.replicate 16 [], plans := [], epochs := Vector.replicate 16 0,
    past := [] }

end Sys2Proof.Machine
end

