-- ==== Sys2Proof/Machine/StColl.lean ====
section
/-!
DEFINITION. StColl.lean: the state of the collective engines and their messages (R346 to R374).
-/

namespace Sys2Proof.Machine

/-- A collective's token (R352, R353): the fields that ranks compare, the sending rank, its segment and phase, its DST and
the landing place of the segment (a Stockpot slot below 96, or 96 + 1 MiB piece of the spill area), and its RECV_OFF and
RECV_CAP entries (R362). -/
structure CollTok where
  tenant  : Nat
  group   : Nat
  cseq    : Nat
  rank    : Nat
  digest  : Nat
  op      : Nat
  red     : Nat
  fin     : Nat
  fout    : Nat
  count   : Nat
  seg     : Nat
  phase   : Nat
  dst     : Nat
  dstSpm  : Bool
  landing : Nat
  off     : Nat
  cap     : Nat
  deriving DecidableEq, Repr

/-- What a VC1 packet of a collective says beside its payload (R356, R358, R363): where its elements belong, their flush
and poison bits, and the length that a piece header announces. -/
structure CollMsg where
  tenant : Nat
  group  : Nat
  cseq   : Nat
  rank   : Nat
  seg    : Nat
  phase  : Nat
  at_    : Nat
  flush  : Nat
  bad    : Nat
  head   : Option Nat
  deriving DecidableEq, Repr

/-- An element on its way through a collective: its code, flush bit and poison bit (R356). -/
structure CElem where
  v     : Nat
  flush : Bool
  bad   : Bool
  deriving DecidableEq, Repr

/-- Elements received and not yet used. -/
structure CPart where
  seg   : Nat
  phase : Nat
  rank  : Nat
  at_   : Nat
  elems : List CElem
  deriving DecidableEq, Repr

/-- A segment that runs (R357, R358, R365, R366): its number, its running position, its landing and accumulator slots, its
working vector, and its step with whether that step's data is sent. -/
structure CSeg where
  t     : Nat
  pos   : Nat
  slots : Option (Nat × Nat)
  work  : List CElem
  step  : Nat
  sent  : Bool
  deriving DecidableEq, Repr

/-- A collective in flight (R348 to R351, R366): its command, operands, in-flight index, the module of each rank, the group's
digest, the size table of ALLTOALLV, its running segments and the number of those that have started, the tokens and data it
has, the piece headers, and whether a piece exceeded its capacity or poison has been recorded. -/
structure Coll where
  tenant : Nat
  group  : Nat
  cseq   : Nat
  ref    : CmdRef
  op     : Nat
  red    : Nat
  prio   : Nat
  fin    : Nat
  fout   : Nat
  count  : Nat
  src    : Nat
  srcSpm : Bool
  dst    : Nat
  dstSpm : Bool
  tbl    : Nat
  idx    : Nat
  n      : Nat
  rank   : Nat
  mods   : List Nat
  digest : Nat
  table  : List (List Nat)
  segs   : List CSeg
  next   : Nat
  toks   : List CollTok
  parts  : List CPart
  heads  : List (Nat × Nat)
  excess   : Bool
  noted  : Bool
  deriving DecidableEq, Repr

/-- A bound group (R346): its ranks' entries, this module's rank, and the group digest. -/
structure Grp where
  n      : Nat
  rank   : Nat
  ents   : List Nat
  digest : Nat
  deriving DecidableEq, Repr

/-- The collective engines: the bound groups by 16 × tenant + group, the collectives in flight in the order of their starts,
the tokens held for collectives that have not started, and the Stockpot slots claimed. -/
structure Collectives where
  groups : List (Nat × Grp)
  runs   : List Coll
  toks   : List CollTok
  slots  : List Nat
  deriving DecidableEq, Repr

def Collectives.reset : Collectives := { groups := [], runs := [], toks := [], slots := [] }

end Sys2Proof.Machine
end

