-- ==== Sys2Proof/Machine/StLarder.lean ====
section
/-!
DEFINITION. StLarder.lean: the state of the Larder and the Ladle: pools, session descriptors, batches, lists and returns
(R216 to R246, R432 to R448, R466 to R470), and what passes between twins (R243, R475).
-/

namespace Sys2Proof.Machine

/-! ## Pools (R218 to R224, R233) -/

/-- A page: its `k` and its reference count; 65,535 is pinned. A page of count 0 waits for an ATTN that read it. -/
structure Page where
  k     : Nat
  count : Nat
  deriving DecidableEq, Repr

/-- A tenant's pool: the pages by number, and the map blocks in use. The directories themselves lie in HBM. -/
structure Pool where
  pages : List (Nat × Page)
  maps  : List Nat
  deriving DecidableEq, Repr

def Pool.empty : Pool := { pages := [], maps := [] }

/-! ## Sessions (R226 to R228, R239, R241) -/

/-- A queued feed: its command, the address of its next unread token, the tokens unread and those not yet prefilled, and
GEN. -/
structure Feed where
  ref    : CmdRef
  addr   : Nat
  unread : Nat
  left   : Nat
  gen    : Bool
  deriving DecidableEq, Repr

/-- A parking (`kind` 0), unparking (1) or migration in progress (R241, R242), on the sending (2) or the receiving member (3): its
command, the pages to move (first granule, page), the bytes moved and those to move, and whether the twin has allocated its pages. -/
structure Job where
  kind  : Nat
  ref   : CmdRef
  pages : List (Nat × Nat)
  moved : Nat
  total : Nat
  ready : Bool
  deriving DecidableEq, Repr

/-- A session descriptor (R226), with what the descriptor does not show: the queued feeds, the pages held at a host
(first position and `k`), the job in progress, whether it is in flight (R434), its ready tick (R440), and the token its
last return delivered (R442). -/
structure Sess where
  state    : Nat
  reason   : Nat
  nospace  : Bool
  evicted  : Bool
  migrating : Bool
  gen      : Bool
  prior    : Nat
  length   : Nat
  pending  : Nat
  maxlen   : Nat
  step     : Nat
  seed     : Nat
  maxnew   : Nat
  newcount : Nat
  fineTo   : Nat
  kmax     : Nat
  outring  : Nat
  stop     : List Nat
  temp     : Nat
  topk     : Nat
  topp     : Nat
  feedTa   : Nat
  lengthT  : Nat
  stepT    : Nat
  feeds    : List Feed
  atHost   : List (Nat × Nat)
  hostAddr : Nat
  job      : Option Job
  flight   : Bool
  ready    : Option Nat
  token    : Nat
  deriving DecidableEq, Repr

def Sess.idle : Sess :=
  { state := 0, reason := 0, nospace := false, evicted := false, migrating := false, gen := false, prior := 0, length := 0,
    pending := 0, maxlen := 0, step := 0, seed := 0, maxnew := 0, newcount := 0, fineTo := 0, kmax := 0, outring := 0,
    stop := [], temp := 0, topk := 0, topp := 0, feedTa := 0, lengthT := 0, stepT := 0, feeds := [], atHost := [],
    hostAddr := 0, job := none, flight := false, ready := none, token := 0 }

/-- A page copy in progress (R234, R236): the session whose granules from `g` on are to name the new page. -/
structure PCopy where
  tenant  : Nat
  session : Nat
  g       : Nat
  old     : Nat
  new     : Nat
  k       : Nat
  deriving DecidableEq, Repr

/-- The Larder: the pools, the sessions whose descriptor is not all zero, the commands that wait for a session (R240), the page copies in
progress, oldest first, and by session the descriptors that migrations to this member bring (R242). -/
structure Larder where
  pools  : Vector Pool 16
  sess   : List (Nat × Sess)
  waits  : List (Nat × CmdRef)
  copies : List PCopy
  incoming : List (Nat × Sess)
  deriving DecidableEq, Repr

def Larder.reset : Larder := { pools := Vector.replicate 16 Pool.empty, sess := [], waits := [], copies := [], incoming := [] }

/-! ## Batches, lists and returns (R436 to R448, R466 to R470) -/

/-- A session entry of a batch (R437). -/
structure SEnt where
  session  : Nat
  prefill  : Bool
  sample   : Bool
  skip     : Bool
  firstRow : Nat
  nrows    : Nat
  pos0     : Nat
  deriving DecidableEq, Repr

/-- A batch list (R446): the header's fields, the session entries, the token of each row, the chain record (R468),
and whether some stage so far had no locked weight range of its own (R469). -/
structure BList where
  bseq   : Nat
  origin : Nat
  seed   : Nat
  step   : Nat
  ents   : List SEnt
  toks   : List Nat
  chain  : List Byte
  input  : List Byte
  nowset : Bool
  deriving DecidableEq, Repr

/-- An entry of a return (R447). -/
structure RetEnt where
  session  : Nat
  reason   : Nat
  token    : Option Nat
  stall    : Bool
  position : Nat
  pos0     : Nat
  deriving DecidableEq, Repr

structure Ret where
  bseq : Nat
  ents : List RetEnt
  deriving DecidableEq, Repr

/-- A batch that this module has launched and whose return it has not applied: its list with this module's chain, whether
its launch has completed, the tick of its launch (under COMPARE, of its unit), and whether its seal is to say
SINGLE (R480). -/
structure Batch where
  list   : BList
  done   : Bool
  tick   : Nat
  single : Bool
  deriving DecidableEq, Repr

/-- A tenant's Ladle: the next BSEQ, the launched batches, the overruns of the last 16 boundaries (boundary, 0.1 µs), the
BSEQ below which the next stage has taken every list, lists held for credit, lists (with the module that sent them) and returns
received, the BSEQ of the next list and return, register writes that wait for the boundary, and a reflow notice that does. -/
structure Ladle where
  next     : Nat
  batches  : List Batch
  overruns : List (Nat × Nat)
  taken    : Nat
  unsent   : List BList
  lists    : List (Nat × BList)
  rets     : List Ret
  nextList : Nat
  nextRet  : Nat
  writes   : List (Nat × Nat)
  reflow   : Option Nat
  deriving DecidableEq, Repr

def Ladle.reset : Ladle :=
  { next := 0, batches := [], overruns := [], taken := 0, unsent := [], lists := [], rets := [], nextList := 0, nextRet := 0,
    writes := [], reflow := none }

/-! ## Between twins (R243, R474, R475) -/

/-- A mirror record (R243) or a piece of a resync (R474): a Larder command applied, a resolution of a session, a
descriptor, a write into tenant memory, the pool, a recipe buffer's commands with their version, a codec's table. -/
inductive MirRec where
  | cmd (bytes : List Byte) (ring csn : Nat)
  | resolve (session n : Nat)
  | sess (n : Nat) (d : Sess)
  | write (ta : Nat) (data : List Byte) (bad : Bool)
  | pool (p : Pool)
  | recipe (id : Nat) (version : Nat) (cmds : List (List Byte))
  | slot (codec slot gen : Nat) (lens : List Nat)
  | clear (set : Bool)
  | last
  deriving DecidableEq, Repr

/-- A step record (R475): the ring commands released, as (ring, CSN, bytes), the Larder commands applied since the last
record, as (ring, CSN), the batch before this stage's chain, the sessions that resolution left out with their rows, and
the returns applied. -/
structure StepRec where
  tick    : Nat
  cmds    : List (Nat × Nat × List Byte)
  applied : List (Nat × Nat)
  batch   : Option BList
  out     : List (Nat × Nat)
  rets    : List Nat
  deriving DecidableEq, Repr

end Sys2Proof.Machine
end

