-- ==== Sys2Proof/Machine/StLink.lean ====
section
/-!
DEFINITION. StLink.lean: the state of the ports, rings and bypasses, of end-to-end delivery, and the packets and
messages that pass between modules (R319 to R345).
-/

namespace Sys2Proof.Machine

/-- An IDENT control symbol (R330). -/
structure Ident where
  moduleId : Nat
  serial   : Nat
  ring     : Nat
  position : Nat
  sequence : Nat
  digest   : List Byte
  deriving DecidableEq, Repr

/-- What a CONTROL packet says: the manual names these messages and gives no layout for them. -/
inductive Ctl where
  | census (moduleId serial : Nat)
  | serving (pair who : Nat)
  | tableRequest
  | table (who : List Nat)
  | linkState (ring position : Nat) (bypassed segUp : Bool) (gap : Nat)
  | heartbeat
  | echo (stamp : Nat)
  | echoReply (stamp held : Nat)
  | token (t : CollTok)
  | abort (tenant group cseq : Nat)
  | coll (m : CollMsg)
  | refused (tag : Nat) (tenant : Nat)
  | modeRequest (tenant mode tick : Nat) (digest : List Byte) (commons : Nat)
  | stepRecord (tenant : Nat) (r : StepRec)
  | unitDigest (tenant unit : Nat) (digest sig : List Byte)
  | mirror (tenant : Nat) (r : MirRec)
  | mirrorMark (tenant tick : Nat) (ctrs : List (Nat × Nat)) (csns : List Nat) (ret : Nat)
  | batchList (tenant : Nat) (l : BList)
  | credit (tenant bseq : Nat)
  | ret (tenant : Nat) (r : Ret)
  | reflow (tenant bseq : Nat)
  | migrateAsk (tenant session : Nat) (d : Sess) (pages : List (Nat × Nat))
  | migrateReady (tenant session : Nat)
  | migrateData (tenant session len : Nat) (lines : List (Nat × Nat × List Byte × Bool))
  | migrateDone (tenant session : Nat) (ok : Bool)
  | migrateAbort (tenant session : Nat)
  | freeze (tenant code : Nat)
  | unfreeze (tenant : Nat)
  | reset (tenant : Nat)
  deriving DecidableEq, Repr

/-- The packet kinds of R334. -/
inductive PKind where
  | write | signal | ack | control
  deriving DecidableEq, Repr

/-- A packet (R334). `bad` holds one poison bit for each 64 bytes of payload; `ctl` is what a CONTROL packet says. -/
structure Packet where
  kind    : PKind
  vc      : Nat
  cls     : Nat
  dst     : Nat
  src     : Nat
  tenant  : Nat
  space   : Nat
  gen     : Nat
  tag     : Nat
  addr    : Nat
  bad     : Nat
  cnt     : Nat
  cntEn   : Bool
  payload : List Byte
  ctl     : Option Ctl
  deriving DecidableEq, Repr

/-- A packet that waits at a port beside those the module holds: an ACK packet of its own, or one that it forwards, with the port
it came in on and the SEQ of its block, whose receive buffer it keeps until it has left (R336, R338). -/
structure Queued where
  pkt   : Packet
  from_ : Option (Nat × Nat)
  deriving DecidableEq, Repr

/-- A port (R319, R322, R332, R335 to R337) beside its registers: its five lanes, the partner's IDENT that passed, the sequence
numbers, the retry buffer, the packets that wait beside the held ones, a NAK to send, resends in a row; the VC and class of each
block that stands in the partner's receive buffers, oldest first, and the buffers freed on VC0 to VC3 since the last block sent; for
each of the last 256 DATA blocks, newest first, whether VC0 took it while another VC waited; the VC whose turn it is and the blocks
that it has left. -/
structure Port where
  lanes   : List Bool
  partner : Option Ident
  passed  : Bool
  sendSeq : Nat
  held    : List (Nat × Packet)
  queue   : List Queued
  expect  : Nat
  nak     : Bool
  gapSeen : Bool
  resends : Nat
  out     : List (Nat × Nat)
  freed   : List Nat
  vc0Ran  : List Bool
  turn    : Nat
  left    : Nat
  deriving DecidableEq, Repr

def Port.reset : Port :=
  { lanes := List.replicate 5 true, partner := none, passed := false, sendSeq := 0, held := [], queue := [], expect := 0,
    nak := false, gapSeen := false, resends := 0, out := [], freed := [0, 0, 0, 0], vc0Ran := [], turn := 1, left := 0 }

/-- A ring attachment (R326 to R332) beside its registers: the commanded switch position, its join window, whether
it waits to join again, a switch that did not move (R329), and the measured delay of its upstream segment (R61). -/
structure Att where
  openCmd : Bool
  window  : Bool
  retry   : Bool
  stuck   : Bool
  upDelay : Nat
  deriving DecidableEq, Repr

def Att.reset : Att := { openCmd := false, window := false, retry := false, stuck := false, upDelay := 0 }

/-- Who waits for the acknowledgement of a held packet: a transfer channel of a tile, by the descriptor and the command that the
tenant's work is, a ring's signal, a collective, a Ladle message, or nobody. -/
inductive Waiter where
  | chan (tile chan ord tenant : Nat) (owner : CmdRef)
  | signal (tenant : Nat) (c : CmdRef)
  | coll (tenant group cseq : Nat)
  | free
  deriving DecidableEq, Repr

/-- A packet that its source holds until it is acknowledged (R339, R340). `pair` marks one resolved from member 2, `sent` one
that has left on its port. -/
structure HeldPkt where
  pkt    : Packet
  pair   : Bool
  waiter : Waiter
  port   : Nat
  sent   : Bool
  deriving DecidableEq, Repr

/-- A packet that a block has brought and nothing has taken yet: it stands in a receive buffer of its port (R336). -/
structure Arrived where
  port : Nat
  seq  : Nat
  pkt  : Packet
  deriving DecidableEq, Repr

/-- The links: ports, attachments, bypassed positions and broken segments of the rings as announced (R338), and end-to-end delivery
(R339 to R342): the next tag by 4 × destination + VC, the packets held, those that wait for room among them and those dropped
because their destination became unreachable, the tags seen by 4 × source + VC, the next VC0 sequence by source, the VC0 packets that
came before it, the packets that blocks brought, the heartbeat, and the remote writes refused (R269). -/
structure Lnk where
  ports    : Vector Port 18
  atts     : Vector Att 8
  bypassed : List (Nat × Nat)
  broken   : List (Nat × Nat)
  nextTag  : List (Nat × Nat)
  held     : List HeldPkt
  later    : List HeldPkt
  lost     : List HeldPkt
  seen     : List (Nat × List Nat)
  expect   : List (Nat × Nat)
  early    : List Packet
  arrived  : List Arrived
  beat     : Bool
  refused  : Nat
  deriving DecidableEq, Repr

def Lnk.reset : Lnk :=
  { ports := Vector.replicate 18 Port.reset, atts := Vector.replicate 8 Att.reset, bypassed := [], broken := [],
    nextTag := [], held := [], later := [], lost := [], seen := [], expect := [], early := [], arrived := [], beat := false,
    refused := 0 }

/-- What the module sends out of itself, an observation: host memory writes and interrupts, answers to reads, Request Retry
Status (R46), link blocks (their 512 bytes, and what their CONTROL packets say) and control symbols, trace frames, answers on the management bus and the JTAG port. -/
inductive Out where
  | host (fn : Fn) (addr : Nat) (data : List Byte)
  | intr (fn : Fn) (vector : Nat)
  | answer (fn : Fn) (data : List Byte)
  | unsupported (fn : Fn)
  | noAnswer (fn : Fn)
  | retryStatus (fn : Fn)
  | block (port : Nat) (bytes : List Byte) (ctls : List Ctl)
  | ident (port : Nat) (i : Ident)
  | symbol (port : Nat) (s : TickSym)
  | echo (port stamp : Nat)
  | heartbeat (port : Nat)
  | trace (data : List Byte)
  | smb (data : List Byte)
  | smbNack
  | jtag (bits : List Bool)
  deriving DecidableEq, Repr

end Sys2Proof.Machine
end

