-- ==== Sys2Proof/Machine/StPlant.lean ====
section
/-!
DEFINITION. StPlant.lean: the state of spares and wear, of power and temperature, of Vitrine, the JTAG port and the management
bus (R507 to R552, R571 to R577).
-/

namespace Sys2Proof.Machine

/-! ## Spares and wear (R507 to R522) -/

/-- A physical tile (R14, R507): the columns, banks and lanes that have failed, the lane that the spare lane has stood in for since
the start of a tile program (R157), and whether it is retired or failed. -/
structure PTile where
  badCols  : List Nat
  badBanks : List Nat
  badLanes : List Nat
  laneOut  : Option Nat
  out      : Bool
  deriving DecidableEq, Repr

def PTile.new : PTile := { badCols := [], badBanks := [], badLanes := [], laneOut := none, out := false }

/-- A swap that has fallen due (R510, R518, R519): the fields of its record, the time of the boundary it fell due at, the copy steps left,
whether its record has been dealt with, and whether it missed its deadline. -/
structure Swap where
  kind    : Nat
  cause   : Nat
  unit    : Nat
  logical : Nat
  old     : Nat
  new     : Nat
  value   : Nat
  tick    : Nat
  at_     : Nat
  left    : Nat
  noted   : Bool
  missed  : Bool
  deriving DecidableEq, Repr

/-- The accession map and the wear monitors (R508 to R516): the physical tiles that differ from new ones (18 × die + tile), the
monitors' counts in this interval, units that become due at the next boundary, swaps under way in queue order, retired pages
with their reserve pages (524,288 × group + page), exhausted groups, the phases out of service (rail, phase), tiles that wait
to become vacant, logical tiles that take no new placement, and those whose work is stopped by a second failed lane. -/
structure Accession where
  ptiles   : List (Nat × PTile)
  bankCe   : List (Nat × Nat)
  bankUe   : List (Nat × Nat)
  pageCe   : List (Nat × Nat)
  fails    : List ((Nat × Nat × Nat) × Nat)
  due      : List Swap
  swaps    : List Swap
  pages    : List (Nat × Nat)
  full     : List Nat
  phases   : List (Nat × Nat)
  leaving  : List Nat
  noPlace  : List Nat
  stopped  : List Nat
  deriving DecidableEq, Repr

def Accession.reset : Accession :=
  { ptiles := [], bankCe := [], bankUe := [], pageCe := [], fails := [], due := [], swaps := [], pages := [], full := [],
    phases := [], leaving := [], noPlace := [], stopped := [] }

/-- What a background atom found or was given (R78): corrected errors (tile, physical bank, count), uncorrectable errors (tile,
64-byte line), units that failed a test (18 × die + physical tile, class 0 column, 1 lane, 2 bank, 3 tile, index), and for MIGRATE
the tenant and session with what the host read returned. -/
structure AtomOut where
  ce    : List (Nat × Nat × Nat)
  ue    : List (Nat × Nat)
  fails : List (Nat × Nat × Nat)
  job   : Option (Nat × Nat × Option (List Byte))
  deriving DecidableEq, Repr

/-! ## Power and temperature (R523 to R536) -/

/-- Power (R526 to R535): the latest ten samples of each rail (mA) and of the input (10 mV, mW), the module law level, the
thermal hold of a trip, dies whose droop response is in force, the THROTTLE# filter (times in ns), the temperature of each
source, the sensors above 100 °C and those at 110 °C, the input current, and the nJ below the µJ that each energy counter shows. -/
structure Power where
  rails    : List (List Nat)
  vin      : List Nat
  pin      : List Nat
  iin      : Nat
  modLevel : Nat
  held     : List Nat
  droop    : List Nat
  lowAt    : Option Nat
  highAt   : Option Nat
  floorAt  : Option Nat
  temps    : List Int
  hot      : List Nat
  tripped  : List Nat
  nano     : List (Nat × Nat)
  deriving DecidableEq, Repr

def Power.reset : Power :=
  { rails := [], vin := [], pin := [], iin := 0, modLevel := 0, held := [], droop := [], lowAt := none, highAt := none,
    floorAt := none, temps := [], hot := [], tripped := [], nano := [] }

/-! ## Vitrine (R537 to R546) -/

/-- Vitrine: the values of VIT_CTL, VIT_KINDS and VIT_TENANTS in force, a RESTART that waits for the boundary, the interval of
1 µs with the events admitted in it, the events dropped since the last admitted one, and the frame being filled. -/
structure Vitrine where
  ctl      : Nat
  kinds    : Nat
  tenants  : Nat
  restart  : Bool
  interval : Nat
  count    : Nat
  dropped  : Nat
  frame    : List (List Byte)
  frameNo  : Nat
  deriving DecidableEq, Repr

def Vitrine.reset : Vitrine :=
  { ctl := 0, kinds := 0, tenants := 0, restart := false, interval := 0, count := 0, dropped := 0, frame := [], frameNo := 0 }

/-! ## The always-on controller's ports (R547, R576, R577) -/

/-- The TAP: the instruction in force and the boundary cells. -/
structure Jtag where
  ir    : Nat
  cells : List Bool
  deriving DecidableEq, Repr

/-- What the always-on controller keeps across a full module reset: the alert causes, the SLOT_ID it sampled last, the TAP. -/
structure Aoc where
  alert  : Nat
  slotId : Option Nat
  jtag   : Jtag
  deriving DecidableEq, Repr

def Aoc.reset : Aoc := { alert := 0, slotId := none, jtag := { ir := 2, cells := [] } }

end Sys2Proof.Machine
end

