-- ==== Sys2Proof/Machine/StRecover.lean ====
section
/-!
DEFINITION. StRecover.lean: the state of recovery (R484 to R503), of twin modes and compare (R459 to R481), and of
what a tenant waits for at a boundary.
-/

namespace Sys2Proof.Machine

/-- A host action that a tenant's work forms (R386, R397, R398, R477): a write with the requester of the VF, the raise
of a ring's interrupt, or a signal; `out` marks the signal of an output count. -/
inductive Action where
  | write (ring : Nat) (addr : Nat) (data : List Byte)
  | intr (ring : Nat)
  | signal (ring : Nat) (entry : List Byte) (out : Bool)
  deriving DecidableEq, Repr

/-- A unit of COMPARE (R475 to R477): its tick, the sums of R476, the sessions that it changed, the summed counts, this
member's digest once it is complete, the actions held until agreement, the seal message of a sealed batch, and the CSNs that
the leader's rings had released with it. -/
structure CmpUnit where
  tick   : Nat
  sumW   : Nat
  sumH   : Nat
  sumS   : Nat
  sess   : List Nat
  sat    : Nat
  flush  : Nat
  nan    : Nat
  vflags : Nat
  codes  : Nat
  own    : Option (List Byte)
  held   : List Action
  sealMsg : Option (List Byte)
  csns   : List Nat
  deriving DecidableEq, Repr

/-- What a tenant waits for and what its twin has said (R464, R474, R475, R479, R489): an UNFREEZE here and on the twin, a
freeze by the twin; the ticks of the mode requests, the twin's with its WSET digest and published regions, and the change they
agree on; the resync (1 in progress, 2 its last atom applied here, 3 complete); a weight range to lock at the next
boundary and the one locked; a unit that diverged; the units not yet agreed and the twin's digests for them; step records not
yet applied; the Larder commands applied since the last record; and the last mark of MIRROR with what it carried. -/
structure TwinSt where
  unfreeze  : Bool
  peerUnfreeze : Bool
  peerFreeze : Bool
  reqTick   : Option Nat
  peerReq   : Option (Nat × Nat × List Byte × Nat)
  change    : Option (Nat × Nat)
  resync    : Nat
  wsetAt    : Option (Nat × Nat)
  wsetOn    : Option (Nat × Nat)
  diverge   : Option Nat
  units     : List CmpUnit
  digests   : List (Nat × List Byte)
  steps     : List StepRec
  applied   : List (Nat × Nat)
  base      : Option (List (Nat × Sess) × Pool × NMap 8)
  undo      : List (Nat × List Byte × Bool)
  markTick  : Nat
  markCtrs  : List (Nat × Nat)
  markCsns  : List Nat
  markRet   : Nat
  deriving DecidableEq, Repr

def TwinSt.reset : TwinSt :=
  { unfreeze := false, peerUnfreeze := false, peerFreeze := false, reqTick := none, peerReq := none, change := none,
    resync := 0, wsetAt := none, wsetOn := none, diverge := none, units := [], digests := [], steps := [], applied := [],
    base := none, undo := [], markTick := 0, markCtrs := [], markCsns := [], markRet := 0 }

/-- The serving of the pair (R341, R472, R473): a requested hand-over, a loss that takes effect at a boundary, the
table asked for, and serving given up or taken at the next boundary. -/
structure Pairing where
  handover : Bool
  takeover : Bool
  giveUp   : Bool
  split    : Bool
  asked    : Bool
  back     : Bool
  deriving DecidableEq, Repr

def Pairing.reset : Pairing :=
  { handover := false, takeover := false, giveUp := false, split := false, asked := false, back := false }

/-- A chain as the ledger knows it (R496): the command that it works for, the expert and slots of a work item, the part of
the command it is, and its number within that part. -/
structure ChainKey where
  ref    : CmdRef
  expert : Nat
  slots  : List Nat
  part   : Nat
  inst   : Nat
  deriving DecidableEq, Repr

/-- An operation on a delivery counter that came through a link router (R495): the tick, the tenant and counter, and the bytes
of a counted write, or a signal's operation and value. -/
structure CtrOp where
  tick   : Nat
  tenant : Nat
  ctr    : Nat
  bytes  : Option Nat
  op     : Nat
  value  : Nat
  deriving DecidableEq, Repr

/-- A tenant's checkpoint (R494): the tick, LENGTH and STEP of its sessions, its codec slots, its delivery counters. -/
structure Ckpt where
  tick   : Nat
  tenant : Nat
  sess   : List (Nat × Nat × Nat)
  slots  : List (Nat × CxTable)
  ctrs   : NMap 64
  deriving DecidableEq, Repr

/-- Recovery (R488 to R503): tenants whose freeze is still saving units, the compute part held after a reset, GEN wrapped, the
reset that is due with its suspects, the suspects not yet replayed and the one under replay with the boundaries left to it,
tenants rolled back, sessions' LENGTH and STEP to restore when a tenant's replay starts, tenants whose collectives a reset ended,
uncorrectable errors of banks in this recovery (R501), failed controllers, a takeover that is due and the copy of the
ring positions that the standby holds since the last boundary (R21, by 8 × tenant + ring), whether the window of R500
is open and a second escalation came in it, a recovery from holdover, the checkpoints, the ledger's counts of remote requests
by tenant and tick, and the writes to counters since the oldest checkpoint. -/
structure Recov where
  saving   : List Nat
  held     : Bool
  wrap     : Bool
  due      : Option (List Nat)
  suspects : List Nat
  replay   : Option (Nat × Nat)
  rolled   : List Nat
  lens     : List (Nat × Nat × Nat × Nat)
  colls    : List Nat
  bankUe   : List (Nat × Nat)
  mcFailed : Nat
  mcTake   : Bool
  mcCopy   : List Nat
  window   : Bool
  twice    : Bool
  holdover : Bool
  ckpts    : List Ckpt
  ledger   : List (Nat × Nat × ChainKey × Nat)
  ctrLog   : List CtrOp
  deriving DecidableEq, Repr

def Recov.reset : Recov :=
  { saving := [], held := false, wrap := false, due := none, suspects := [], replay := none, rolled := [], lens := [],
    colls := [], bankUe := [], mcFailed := 0, mcTake := false, mcCopy := [], window := false, twice := false,
    holdover := false, ckpts := [], ledger := [], ctrLog := [] }

end Sys2Proof.Machine
end

