-- ==== Sys2Proof/Syntax.lean ====
section
/-!
DEFINITION. Syntax.lean: the commands, one constructor for each row of spec/opcode_table.json, each with its rule.
-/

namespace Sys2Proof

open Sys2Proof.Machine

/-- A PCIe enable that is cleared or set (R554): VF Enable, NumVFs (the new number), Bus Master Enable of a VF, or
Memory Space Enable of a function. -/
inductive PcieEn where
  | vfEnable
  | numVfs (n : Nat)
  | busMaster (vf : Nat)
  | memSpace (fn : Fn)
  deriving DecidableEq, Repr

/-- A key request of the mailbox (R32): whether its structure is valid, the key it names, and for a signed request the
signing key and whether its signature verifies. -/
structure KeyReq where
  wellFormed : Bool
  key        : List Byte
  signer     : Option (List Byte × Bool)
  deriving DecidableEq, Repr

/-- What the hardware finds while a start runs (R42): how many rails reached regulation (28 for all, R523), the standby
controller good, the HBM trained, pages repaired as (group, page), and for step 8 the units that fail their tests (18 × die +
physical tile, class 0 column, 1 lane, 2 bank, 3 tile, index), and whether the rest of the step succeeded. -/
structure StartIn where
  rails     : Nat
  standbyOk : Bool
  hbmOk     : Bool
  repaired  : List (Nat × Nat)
  fails     : List (Nat × Nat × Nat)
  initOk    : Bool
  deriving DecidableEq, Repr

/-- Whom energy is charged to (R535): a ring of a tenant, a tenant's LADLE counter, or background atoms. -/
inductive Payee where
  | ring (tenant ring : Nat)
  | ladle (tenant : Nat)
  | bg
  deriving DecidableEq, Repr

/-- What a 1 µs sample of the power measurement holds (R526, R535, R514): the current of each rail in mA and the energy it drew in
nJ, the input's voltage in 10 mV, current in mA, power in mW and energy in nJ, the issue cycles of the tiles by the work they
ran (tile, payee, cycles), the bytes that each tenant's requests moved through an I/O die and that its packets moved
through the die's ports (die, tenant, bytes), and the phases measured (rail, phase, deviation in %, temperature in °C). -/
structure PowerIn where
  rails  : List Nat
  railNj : List Nat
  vin    : Nat
  iin    : Nat
  pin    : Nat
  inNj   : Nat
  issue  : List (Nat × Payee × Nat)
  moved  : List (Nat × Nat × Nat)
  pkts   : List (Nat × Nat × Nat)
  phases : List (Nat × Nat × Nat × Nat)
  deriving DecidableEq, Repr


/-- The commands of the block. -/
inductive Instr where
  /- registers, PCIe functions and memory windows -/
  /-- A write to a register field that has no row of its own takes effect according to its access code. (R9) -/
  | registerWrite (fn : Fn) (off : Nat) (data : List (Option Byte))
  /-- A PCIe AtomicOp request to any BAR completes with Unsupported Request and has no other effect. (R553) -/
  | pcieAtomicop (fn : Fn)
  /-- A read through a function's BAR2 returns HBM bytes, or zero where the view hides them. (R416) -/
  | bar2Read (fn : Fn) (addr len : Nat)
  /-- A write through a function's BAR2 reaches HBM through the memory-side cache, or is refused or dropped by the view rules. (R416) -/
  | bar2Write (fn : Fn) (addr : Nat) (data : List Byte)
  /-- A Function Level Reset of the PF resets its configuration space, MSI-X table and MOD_EVENT_EN. (R554) -/
  | pfFlr
  /-- A Function Level Reset of a VF resets its configuration and performs a tenant reset of its tenant. (R554) -/
  | vfFlr (n : Nat)
  /-- Clearing VF Enable, NumVFs or Bus Master Enable makes every PCIe request the module makes for that tenant fail. (R554) -/
  | vfAccessLoss (e : PcieEn)
  /- power, start and pins -/
  /-- The 48 V input enters range with three converters good, which begins a start if PERST# is deasserted. (R42) -/
  | powerGood (conv : Nat) (boardTest : Bool)
  /-- An input excursion outside 40 to 60 V for more than 50 µs resets everything but the always-on controller and closes the bypasses. (R525) -/
  | powerGoodLoss (out : Bool)
  /-- An assertion of PERST# for 1 µs or more performs a full module reset and holds the module in STANDBY. (R49) -/
  | perstAssert
  /-- Deassertion of PERST# begins a new start, or counts an assertion shorter than 1 µs as ignored. (R49) -/
  | perstDeassert
  /-- MATED# opening acts as a PERST# assertion and leads to a full module reset with bypasses closing. (R570) -/
  | matedOpen
  /-- MATED# closing releases the module's reset so that a start may begin once power-good holds. (R570) -/
  | matedClose
  /-- The physical function becomes ready within 1.0 s of PERST# deassertion and stops answering with Request Retry Status. (R46) -/
  | pcieFunctionReady
  /-- The module runs its start steps from firmware check to SERVING or DERATED, or stops in HALTED. (R42) -/
  | startSequence (slotId : Nat) (x : StartIn)
  /- mailbox -/
  /-- The mailbox command WRITE_CAT checks a Catalogue image from host memory and programs it into the inactive slot. (R53) -/
  | mbxWriteCat (image : Option (List Byte)) (again : Option (List Byte))
  /-- The mailbox command WRITE_FW checks a firmware image and programs it into the inactive slot. (R53) -/
  | mbxWriteFw (image : Option Firmware) (again : Option Firmware)
  /-- The mailbox command ENROL_KEY enrols a customer key in the next free slot. (R32) -/
  | mbxEnrolKey (req : Option KeyReq)
  /-- The mailbox command REVOKE_KEY blows the revocation fuse of a customer key, refusing the last unrevoked key. (R32) -/
  | mbxRevokeKey (req : Option KeyReq)
  /-- The mailbox command RESTART begins a full module reset within 1 ms unless a write runs. (R53) -/
  | mbxRestart
  /-- An unknown or unavailable mailbox CMD value ends with BAD_CMD. (R54) -/
  | mbxBadCmd (cmd : Nat)
  /-- A running mailbox command ends, setting DONE and CODE. (R53) -/
  | mbxCommandEnd (flashOk : Bool)
  /- tick -/
  /-- A rising edge on TICK_IN is accepted or counted as too fast, and an accepted edge is used as good or counted bad. (R63) -/
  | tickInEdge (at_ : Nat)
  /-- With no good edge by expected boundary plus W, the master places the reference edge from its own oscillator. (R64) -/
  | tickInWindowExpiry (at_ : Nat)
  /-- 1.5 periods after the last good edge the master enters holdover and requalifies TICK_IN. (R65) -/
  | tickInHoldover (at_ : Nat)
  /-- A tick symbol arrives and its first copy of each tick number sets the follower's boundary. (R59) -/
  | tickSymbolReceive (port : Nat) (sym : TickSym) (at_ : Nat)
  /-- A tick boundary is reached and all per-boundary work of the module is carried out. (R60) -/
  | tickBoundary (at_ : Nat)
  /-- TICK_OUT returns low 1.0 µs after it rose. (R62) -/
  | tickOutEnd
  /-- A follower with no tick symbol for 1.5 periods enters holdover on its own oscillator. (R66) -/
  | holdoverEntry (at_ : Nat)
  /-- Holdover reaching 0.5 s puts the module into RECOVERING at its next boundary. (R66) -/
  | holdoverLimit
  /-- A module of rank k with no symbol for 1.5 + k periods takes the master role. (R67) -/
  | successionTakeover (at_ : Nat)
  /-- A master with no trained attachment for 1.5 periods gives up the role and enters holdover. (R68) -/
  | masterRelinquish (at_ : Nat)
  /-- Every 1,024 ticks the module measures each attachment's delay with an echo on VC0. (R61) -/
  | delayEcho
  /-- An echo reply gives the measured one-way delay of an attachment. (R61) -/
  | delayEchoReceive (att : Nat) (up : Bool) (delay : Nat)
  /-- A census announcement carrying this module's ID with another serial stops the module with DUP_MODULE_ID. (R69) -/
  | censusReceive (moduleId serial : Nat)
  /-- Rank 0 after one period, or rank 1 after 3 s, without a symbol begins originating ticks. (R69) -/
  | tickOriginateTimeout (at_ : Nat)
  /-- A module not locked 10 s after entering step 7 stops with TICK_LOCK. (R69) -/
  | tickLockTimeout
  /- schedule, background work and overrun -/
  /-- A write of SCH_SEL requests a schedule table position, or sets BAD_SEL. (R77) -/
  | schSelWrite (v at_ : Nat)
  /-- A schedule entry reaches its START and gives its tiles to its owner. (R76) -/
  | entryOpen (n : Nat)
  /-- A schedule entry reaches its end and releases its tiles. (R76) -/
  | entryEnd (n : Nat)
  /-- The 4 µs margin of the tick begins. (R80) -/
  | marginStart
  /-- A background class starts an atom inside its own entry when the atom fits and foreground work allows. (R79) -/
  | bgAtomStart (cls off : Nat)
  /-- A background atom ends and serves its unit's deadline. (R78) -/
  | bgAtomComplete (cls at_ : Nat) (o : AtomOut)
  /-- A background unit's deadline passes unmet and is counted in SCH_BG.MISSED. (R80) -/
  | bgDeadlineExpiry (cls unit at_ : Nat)
  /-- A unit reaches a pre-emption point after another tenant's entry opened and saves its state. (R82) -/
  | preempt (tile : Nat)
  /-- Tick-t work incomplete at boundary t+2 is judged and the tenant faulted with OVERRUN or HANG. (R84) -/
  | overrunExpiry (t : Nat) (progress : Bool)
  /-- A tenant's tick-t work completes and any overrun is recorded and passed to the Ladle. (R83) -/
  | tickWorkComplete (t n excess : Nat)
  /- tile sequencer and ordering -/
  /-- A tile program is launched and its first instruction is planned 16 cc later plus DELTA. (R94) -/
  | programLaunch (t : Nat)
  /-- An instruction word fetched outside the share, in the save area or at 0x60_0000 or above is not issued and raises TILE_OPC. (R90) -/
  | tileFetchFault (t : Nat)
  /-- An instruction with an unassigned opcode raises TILE_OPC. (R91) -/
  | invalidOpcode (t : Nat) (w : BitVec 256)
  /-- The NOP instruction issues and does nothing. (R92) -/
  | nop (t : Nat) (w : BitVec 256)
  /-- The END instruction stops issue; the program completes when every issued instruction has completed. (R92) -/
  | endProgram (t : Nat) (w : BitVec 256)
  /-- The BARRIER instruction holds the next issue until every earlier instruction has completed. (R92) -/
  | barrier (t : Nat) (w : BitVec 256)
  /-- The LOOP instruction repeats the following BODY instructions COUNT times. (R92) -/
  | loop (t : Nat) (w : BitVec 256)
  /-- The ACQ instruction acquires at its scope, dropping die-read-cache lines at MODULE and DOMAIN. (R303) -/
  | acq (t : Nat) (w : BitVec 256)
  /-- The REL instruction completes once every earlier write of the program is visible at its scope. (R304) -/
  | rel (t : Nat) (w : BitVec 256)
  /-- The FENCE instruction releases and then acquires at its scope. (R302) -/
  | fence (t : Nat) (w : BitVec 256)
  /-- The CWAIT instruction waits until a delivery counter field reaches VALUE and then acquires. (R302) -/
  | cwait (t : Nat) (w : BitVec 256)
  /-- A counter reaching a waiting CWAIT's threshold is seen within 72 cc and the wait ends. (R310) -/
  | cwaitSatisfied (t : Nat)
  /-- The CSET instruction writes a value into one counter field. (R310) -/
  | cset (t : Nat) (w : BitVec 256)
  /- matrix array -/
  /-- The MATMUL instruction computes defined dot products of activation rows against a stationary operand. (R100) -/
  | matmul (t : Nat) (w : BitVec 256)
  /-- The MATMUL.SIDE instruction adds the outlier side contribution on the side array. (R109) -/
  | matmulSide (t : Nat) (w : BitVec 256)
  /- vector engine and quantiser -/
  /-- The VLD instruction loads 1 KiB from scratchpad or the current slot into a vector register. (R164) -/
  | vld (t : Nat) (w : BitVec 256)
  /-- The VST instruction stores a vector register into scratchpad or the current slot. (R164) -/
  | vst (t : Nat) (w : BitVec 256)
  /-- The VBCAST instruction sets every 32-bit element of VD to IMM32. (R163) -/
  | vbcast (t : Nat) (w : BitVec 256)
  /-- The VIOTA instruction sets element e of VD to IMM32 + e. (R163) -/
  | viota (t : Nat) (w : BitVec 256)
  /-- The VADD instruction adds elements and rounds once with RNE. (R165) -/
  | vadd (t : Nat) (w : BitVec 256)
  /-- The VSUB instruction subtracts elements and rounds once with RNE. (R165) -/
  | vsub (t : Nat) (w : BitVec 256)
  /-- The VMUL instruction multiplies elements and rounds once with RNE. (R165) -/
  | vmul (t : Nat) (w : BitVec 256)
  /-- The VFMA instruction forms VA × VB + VC and rounds once. (R165) -/
  | vfma (t : Nat) (w : BitVec 256)
  /-- The VMAX instruction selects the larger element under R128. (R165) -/
  | vmax (t : Nat) (w : BitVec 256)
  /-- The VMIN instruction selects the smaller element under R128. (R165) -/
  | vmin (t : Nat) (w : BitVec 256)
  /-- The VABS instruction clears the sign of each element. (R165) -/
  | vabs (t : Nat) (w : BitVec 256)
  /-- The VNEG instruction changes the sign of each element. (R165) -/
  | vneg (t : Nat) (w : BitVec 256)
  /-- The VCMP instruction writes mask bits from a floating-point comparison. (R164) -/
  | vcmp (t : Nat) (w : BitVec 256)
  /-- The VSEL instruction selects elements of VA or VB by mask. (R163) -/
  | vsel (t : Nat) (w : BitVec 256)
  /-- The VEXP instruction computes the defined exp by table and polynomial. (R166) -/
  | vexp (t : Nat) (w : BitVec 256)
  /-- The VRCP instruction computes the defined reciprocal. (R167) -/
  | vrcp (t : Nat) (w : BitVec 256)
  /-- The VRSQ instruction computes the defined reciprocal square root. (R168) -/
  | vrsq (t : Nat) (w : BitVec 256)
  /-- The VRSUM instruction sums the elements of VA through a fixed tree in FP32. (R165) -/
  | vrsum (t : Nat) (w : BitVec 256)
  /-- The VRMAX instruction reduces VA to its maximum through a fixed tree. (R165) -/
  | vrmax (t : Nat) (w : BitVec 256)
  /-- The VRMIN instruction reduces VA to its minimum through a fixed tree. (R165) -/
  | vrmin (t : Nat) (w : BitVec 256)
  /-- The IADD instruction adds 32-bit integers modulo 2^32. (R165) -/
  | iadd (t : Nat) (w : BitVec 256)
  /-- The ISUB instruction subtracts 32-bit integers modulo 2^32. (R165) -/
  | isub (t : Nat) (w : BitVec 256)
  /-- The IMUL instruction multiplies 32-bit integers modulo 2^32. (R165) -/
  | imul (t : Nat) (w : BitVec 256)
  /-- The IMULHI instruction gives the upper 32 bits of the unsigned product. (R165) -/
  | imulhi (t : Nat) (w : BitVec 256)
  /-- The IAND instruction forms the bitwise AND of 32-bit elements. (R163) -/
  | iand (t : Nat) (w : BitVec 256)
  /-- The IOR instruction forms the bitwise OR of 32-bit elements. (R163) -/
  | ior (t : Nat) (w : BitVec 256)
  /-- The IXOR instruction forms the bitwise XOR of 32-bit elements. (R163) -/
  | ixor (t : Nat) (w : BitVec 256)
  /-- The ISHL instruction shifts 32-bit elements left logically. (R165) -/
  | ishl (t : Nat) (w : BitVec 256)
  /-- The ISHR instruction shifts 32-bit elements right logically. (R165) -/
  | ishr (t : Nat) (w : BitVec 256)
  /-- The ICMP instruction writes mask bits from an integer comparison. (R164) -/
  | icmp (t : Nat) (w : BitVec 256)
  /-- The VCVT instruction converts 256 elements between formats with block scales and rounding. (R169) -/
  | vcvt (t : Nat) (w : BitVec 256)
  /-- The VPEXT instruction splits FP32 elements into two or three BF16 pieces. (R170) -/
  | vpext (t : Nat) (w : BitVec 256)
  /-- The KOP instruction performs a mask operation selected by COND. (R164) -/
  | kop (t : Nat) (w : BitVec 256)
  /-- The VFLAG instruction writes the sticky flag word into VD and optionally clears it. (R172) -/
  | vflag (t : Nat) (w : BitVec 256)
  /-- The VRNG instruction fills lanes with whisk words from counters in VA. (R175) -/
  | vrng (t : Nat) (w : BitVec 256)
  /-- QSTAT GATHER_NEW sets a statistics record's C, ROWS and CHMAX from the rows. (R181) -/
  | qstatGatherNew (t : Nat) (w : BitVec 256)
  /-- QSTAT GATHER takes the maximum of CHMAX and the rows and adds to ROWS. (R181) -/
  | qstatGather (t : Nat) (w : BitVec 256)
  /-- QSTAT FINISH selects outlier channels and computes the record's scales. (R182) -/
  | qstatFinish (t : Nat) (w : BitVec 256)
  /-- QSTAT MERGE merges the maxima and rows of a second statistics record. (R181) -/
  | qstatMerge (t : Nat) (w : BitVec 256)
  /-- The QCONV instruction converts rows to a quantised format with group scales and side rows. (R184) -/
  | qconv (t : Nat) (w : BitVec 256)
  /-- The VTOPK instruction selects the k highest-ranked scores of each row. (R177) -/
  | vtopk (t : Nat) (w : BitVec 256)
  /-- The VSAMPLE instruction draws one token per row from logits and a parameter record. (R179) -/
  | vsample (t : Nat) (w : BitVec 256)
  /- attention pipeline -/
  /-- The ATTN instruction computes attention of query rows over present keys with a running soft maximum. (R205) -/
  | attn (t : Nat) (w : BitVec 256)
  /-- The page walker copies a group of keys and values into the key ring and marks the slot full. (R193) -/
  | keyGroupFetch (t : Nat)
  /-- The ATTN.MERGE instruction combines two sets of state records over disjoint key ranges. (R211) -/
  | attnMerge (t : Nat) (w : BitVec 256)
  /- regions and transfer channels -/
  /-- The XSTART instruction hands a descriptor chain to a transfer channel. (R264) -/
  | xstart (t : Nat) (w : BitVec 256)
  /-- The RGN_OPEN instruction reads a region descriptor and opens the circular region. (R260) -/
  | rgnOpen (t : Nat) (w : BitVec 256)
  /-- The RGN_CLOSE instruction waits for the region's users, writes HEADS and TAILS and frees the entry. (R261) -/
  | rgnClose (t : Nat) (w : BitVec 256)
  /-- The SLOT_WAIT instruction holds a barrier until its current slot is full or empty. (R260) -/
  | slotWait (t : Nat) (w : BitVec 256)
  /-- The SLOT_RELEASE instruction records a pending mark of its current slot. (R260) -/
  | slotRelease (t : Nat) (w : BitVec 256)
  /- activation codec -/
  /-- The CX.ENC instruction asks a codec to encode rows into blocks. (R283) -/
  | cxEnc (t : Nat) (w : BitVec 256)
  /-- The CX.DEC instruction asks a codec to decode blocks into rows. (R285) -/
  | cxDec (t : Nat) (w : BitVec 256)
  /-- The CX.TLOAD instruction asks a codec to load a table record into a slot. (R288) -/
  | cxTload (t : Nat) (w : BitVec 256)
  /-- The CX.HIST instruction gathers a 65-bin histogram for building tables. (R291) -/
  | cxHist (t : Nat) (w : BitVec 256)
  /- completion, slot marks and fetched groups -/
  /-- An issued instruction completes and its ranges leave the range table. (R94) -/
  | instructionComplete (t id : Nat)
  /-- A tile program completes and reports to whatever launched it. (R92) -/
  | programComplete (t : Nat)
  /-- A producer or consumer marks a slot full or empty. (R259) -/
  | slotMark (t desc : Nat)
  /-- A waiter sees a slot mark after its latency and its wait ends. (R259) -/
  | slotMarkSeen (t unit : Nat)
  /- descriptors and codec blocks -/
  /-- A channel receives a burst of 16 descriptors of its chain. (R267) -/
  | descriptorFetch (tile chan : Nat)
  /-- A COPY descriptor moves bytes from source to destination in requests. (R265) -/
  | copy (tile chan : Nat)
  /-- A FILL descriptor writes an 8-byte pattern over the destination. (R265) -/
  | fill (tile chan : Nat)
  /-- A CONVERT descriptor converts each row element by element between formats. (R268) -/
  | convert (tile chan : Nat)
  /-- A LINK descriptor moves no data and continues the chain at SRC. (R265) -/
  | link (tile chan : Nat)
  /-- A transfer request completes, and after a descriptor's last request its marks and counters take effect. (R267) -/
  | transferRequestComplete (tile chan ord n : Nat)
  /-- A codec processes one block of a request in its turn and writes it. (R293) -/
  | codecBlock (codec tile : Nat)
  /-- A codec applies a TLOAD between blocks, refusing it if invalid or the slot is busy. (R288) -/
  | codecTloadApply (codec tile : Nat)
  /- links -/
  /-- An attachment trains its ports in loopback, opens its bypass and trains with its partners. (R330) -/
  | attachmentJoin (k : Nat) (upOk downOk : Bool)
  /-- A join window of 500 ms ends without both ports passing, closing the bypass. (R330) -/
  | joinWindowExpiry (k : Nat)
  /-- One second after a failed join the attachment repeats from the open step. (R330) -/
  | joinRetryTimer (k : Nat)
  /-- A bypass switch not reaching its state within 10 ms is reported LNK_BYPASS and the attachment held DOWN. (R329) -/
  | bypassSettleTimeout (k : Nat)
  /-- Every 1 ms an up port repeats its IDENT control symbol. (R330) -/
  | identSend (port : Nat)
  /-- A partner's IDENT is checked against the partner rule and Catalogue digests. (R330) -/
  | identReceive (port : Nat) (x : Ident)
  /-- No valid block or IDENT for 10 µs puts a port into RETRAIN. (R332) -/
  | portPartnerLoss (port : Nat)
  /-- A retraining port passes its partner check and goes UP. (R332) -/
  | portRetrainComplete (port : Nat) (x : Ident)
  /-- A port not UP for 2 s takes the attachment down and closes its bypass. (R332) -/
  | attachmentDown (k : Nat)
  /-- A write of LNK_CTL.RETRY makes a down attachment join again. (R332) -/
  | lnkRetry (mask : Nat)
  /-- A lane fails and the port brings in its spare or runs on fewer lanes. (R322) -/
  | laneFail (port lane : Nat) (crossed : Bool)
  /-- A link block is checked and accepted in SEQ order or discarded with NAK. (R335) -/
  | linkBlockReceive (port : Nat) (bytes : List Byte)
  /-- ACK not advancing for 10 µs makes the sender resend from ACK. (R335) -/
  | linkResendTimeout (port : Nat)
  /-- A WRITE packet is forwarded or checked against the named tenant's partition and applied. (R269) -/
  | packetWrite (p : Packet)
  /-- A refusal returned for a remote write faults the sending tenant with XF_REMOTE. (R269) -/
  | remoteWriteRefused (p : Packet)
  /-- A SIGNAL packet is applied to a counter's SIG field in sender order. (R311) -/
  | packetSignal (p : Packet)
  /-- An ACK packet acknowledges held packets by tag. (R339) -/
  | packetAck (p : Packet) (vc : Nat)
  /-- A CONTROL packet on VC0 is taken by its destination. (R334) -/
  | packetControl (p : Packet)
  /-- A packet unacknowledged for 50 µs is sent again on another path. (R339) -/
  | e2eResendTimeout (dst vc tag : Nat)
  /-- A serving announcement updates the serving table for a pair. (R341) -/
  | servingAnnouncement (pair who : Nat)
  /-- A joining module's request for the serving table is answered by the master. (R473) -/
  | servingTableRequest (src : Nat)
  /-- Every 10 µs a member sends its heartbeat to the twin. (R342) -/
  | heartbeatSend
  /-- A heartbeat from the twin is received. (R342) -/
  | heartbeatReceive
  /-- No heartbeat for 50 µs declares the twin lost. (R472) -/
  | twinLossTimeout
  /-- Heartbeats for 1 ms without a gap clear MOD_TWIN.LOST and start resync of MIRROR tenants. (R473) -/
  | twinReturn
  /- collectives -/
  /-- COLL BIND binds a group descriptor to a group number. (R347) -/
  | collBind (t : Nat) (c : CmdRef)
  /-- COLL UNBIND frees a group once its collectives have ended. (R347) -/
  | collUnbind (t : Nat) (c : CmdRef)
  /-- COLL ALLREDUCE reduces every rank's buffer through the defined tree into every DST. (R358) -/
  | collAllreduce (t : Nat) (c : CmdRef)
  /-- COLL REDUCE_SCATTER gives each rank its reduced piece. (R358) -/
  | collReduceScatter (t : Nat) (c : CmdRef)
  /-- COLL ALLGATHER gathers every rank's piece into every DST. (R360) -/
  | collAllgather (t : Nat) (c : CmdRef)
  /-- COLL ALLTOALL exchanges equal pieces between all ranks. (R361) -/
  | collAlltoall (t : Nat) (c : CmdRef)
  /-- COLL ALLTOALLV exchanges pieces of sizes given by a size table. (R362) -/
  | collAlltoallv (t : Nat) (c : CmdRef)
  /-- COLL BARRIER completes once every rank has started it. (R360) -/
  | collBarrier (t : Nat) (c : CmdRef)
  /-- A collective token is held or compared and lets a phase begin. (R353) -/
  | collTokenReceive (k : CollTok)
  /-- An abort ends the collective and later ones of the group and marks the group broken. (R354) -/
  | collAbortReceive (t g q : Nat)
  /-- A segment starts and claims two Stockpot slots or runs in spill mode. (R365) -/
  | collSegmentStart (t g q : Nat)
  /-- A collective ends with OK on a rank once DST is written and sends acknowledged. (R368) -/
  | collComplete (t g q recomp : Nat) (adder : Bool)
  /- rings -/
  /-- A write of RNG_DB hands a new TAIL to the front end. (R378) -/
  | doorbell (t r tail : Nat)
  /-- Setting RNG_CTL.EN resets HEAD, TAIL and RNG_DONE and starts the ring. (R377) -/
  | ringEnable (t r : Nat)
  /-- Clearing RNG_CTL.EN stops fetching at once. (R377) -/
  | ringDisable (t r : Nat)
  /-- The front end fetches up to 16 commands of a ring when room allows. (R379) -/
  | commandFetch (t r : Nat) (data : Option (List (List Byte)))
  /-- A completed command writes its record, sends its signal and raises its interrupt. (R386) -/
  | commandReport (t r csn : Nat) (ok : Bool)
  /-- A ring's timer reaching RNG_TIMEOUT deals with its oldest uncompleted command. (R404) -/
  | ringTimeout (t r : Nat) (progress : Bool)
  /- ring commands -/
  /-- The NOP command completes at dispatch. (R382) -/
  | cmdNop (t : Nat) (c : CmdRef)
  /-- The MATMUL command runs one matrix instruction as a tile program. (R387) -/
  | cmdMatmul (t : Nat) (c : CmdRef)
  /-- The ATTN command runs one attention instruction as a tile program. (R387) -/
  | cmdAttn (t : Nat) (c : CmdRef)
  /-- The VEC command copies a program from memory to a tile and launches it. (R388) -/
  | cmdVec (t : Nat) (c : CmdRef)
  /-- The QSTAT command runs one QSTAT instruction as a tile program. (R387) -/
  | cmdQstat (t : Nat) (c : CmdRef)
  /-- The QCONV command runs one QCONV instruction as a tile program. (R387) -/
  | cmdQconv (t : Nat) (c : CmdRef)
  /-- The XFER command runs one descriptor chain on a chosen tile and channel. (R389) -/
  | cmdXfer (t : Nat) (c : CmdRef)
  /-- The CODEC command runs one codec instruction as a tile program. (R387) -/
  | cmdCodec (t : Nat) (c : CmdRef)
  /- Larder and sessions -/
  /-- PAGE_ALLOC gives pages under the growth rule to every granule of a range without one. (R237) -/
  | pageAlloc (t : Nat) (c : CmdRef)
  /-- PAGE_FREE releases every page wholly inside a range. (R238) -/
  | pageFree (t : Nat) (c : CmdRef)
  /-- PAGE_SHARE makes a target session's positions name a source session's pages. (R235) -/
  | pageShare (t : Nat) (c : CmdRef)
  /-- PAGE_COPY copies a source session's pages into new pages of the target. (R236) -/
  | pageCopy (t : Nat) (c : CmdRef)
  /-- SESSION_FEED queues prompt tokens for a session and raises PENDING. (R239) -/
  | sessionFeed (t : Nat) (c : CmdRef)
  /-- SESSION_CTL OPEN sets an IDLE session's descriptor and puts it in PREFILL. (R228) -/
  | sessionOpen (t : Nat) (c : CmdRef)
  /-- SESSION_CTL SET_SAMPLING copies TEMP, TOPK and TOPP into the descriptor. (R239) -/
  | setSampling (t : Nat) (c : CmdRef)
  /-- SESSION_CTL SET_STOP copies stop tokens and MAXNEW into the descriptor. (R239) -/
  | setStop (t : Nat) (c : CmdRef)
  /-- SESSION_CTL STOP puts the session in DONE and drops its queued feeds. (R228) -/
  | sessionStop (t : Nat) (c : CmdRef)
  /-- SESSION_CTL CLOSE releases every page and returns the session to IDLE. (R228) -/
  | sessionClose (t : Nat) (c : CmdRef)
  /-- SESSION_CTL PARK takes the session out of batching, evicting pages to host memory if asked. (R241) -/
  | sessionPark (t : Nat) (c : CmdRef)
  /-- SESSION_CTL UNPARK restores a parked session and reads back evicted pages. (R241) -/
  | sessionUnpark (t : Nat) (c : CmdRef)
  /-- SESSION_CTL TRUNCATE lowers LENGTH and releases pages above it. (R239) -/
  | sessionTruncate (t : Nat) (c : CmdRef)
  /-- SESSION_CTL MIGRATE moves a SOLO session to the twin. (R242) -/
  | sessionMigrate (t : Nat) (c : CmdRef)
  /-- The twin's confirmation parks its copy and closes the sending session. (R242) -/
  | migrateConfirm (t n : Nat) (ok : Bool)
  /- recipes, expert dispatch, signals and waits -/
  /-- RECIPE_LOAD checks and copies stored commands into a free recipe buffer. (R401) -/
  | recipeLoad (t : Nat) (c : CmdRef)
  /-- RECIPE_PATCH writes up to three fields into the recipe's commands as a new version. (R402) -/
  | recipePatch (t : Nat) (c : CmdRef)
  /-- RECIPE_LAUNCH snapshots the current buffer and dispatches its commands in order. (R403) -/
  | recipeLaunch (t : Nat) (c : CmdRef)
  /-- ROUTE counts tokens per expert, cuts work items and builds their chains and templates. (R453) -/
  | route (t : Nat) (c : CmdRef)
  /-- A freed tile takes the first queued work item it is resident for, or the first item. (R452) -/
  | routeItemPlace (t tile : Nat)
  /-- The SIGNAL command sends an inline signal to a counter or PCIe peer. (R392) -/
  | cmdSignal (t : Nat) (c : CmdRef)
  /-- The WAIT command holds later ring commands until a counter field reaches a threshold. (R393) -/
  | cmdWait (t : Nat) (c : CmdRef)
  /-- A WAIT's counter reaches its threshold, the die read caches are dropped and the ring continues. (R393) -/
  | waitSatisfied (t : Nat) (c : CmdRef)
  /-- The FENCE command waits for earlier ring commands and acquires at its scope. (R394) -/
  | cmdFence (t : Nat) (c : CmdRef)
  /-- A copy-on-write page copy ends and the session's entries name the new page. (R234) -/
  | larderCopyComplete (t : Nat)
  /-- The twin applies a mirror record in order at the same numbers and addresses. (R243) -/
  | mirrorRecordReceive (t : Nat) (r : MirRec)
  /-- A mirror mark makes the twin's Larder consistent at that tick. (R243) -/
  | mirrorMarkReceive (t tick : Nat) (ctrs : List (Nat × Nat)) (csns : List Nat) (ret : Nat)
  /- tenant control, twin modes and digests -/
  /-- TNT_CTL.FREEZE freezes the tenant, stopping fetches and pre-empting its units. (R488) -/
  | freeze (t : Nat)
  /-- TNT_CTL.UNFREEZE returns the tenant to ACTIVE at the next boundary. (R489) -/
  | unfreeze (t : Nat)
  /-- TNT_CTL.RESET discards the tenant's work and zeroes its memory, share and counters. (R423) -/
  | tenantReset (t : Nat)
  /-- Zeroing ends and the tenant returns from RESETTING to ACTIVE. (R423) -/
  | tenantResetComplete (t : Nat)
  /-- A write of TNT_TWIN.REQ requests a twin mode change agreed with the twin. (R474) -/
  | twinModeRequest (t req : Nat)
  /-- The twin's mode request arrives and the change is scheduled or refused. (R474) -/
  | twinModeRequestReceive (t mode tick : Nat) (digest : List Byte) (commons : Nat)
  /-- The last resync atom is applied and the new twin mode takes effect. (R474) -/
  | resyncComplete (t : Nat)
  /-- TNT_COMMON.PUBLISH publishes a common weight region at the next boundary. (R419) -/
  | publish (r : Nat)
  /-- The region's weight-set digest is computed and the region becomes PUBLISHED. (R419) -/
  | commonDigestComplete (r : Nat)
  /-- TNT_WSET_CTL.GO locks the weight-set range and starts its digest. (R464) -/
  | wsetGo (t : Nat)
  /-- The weight-set digest is computed and LOCKED is set. (R464) -/
  | wsetDigestComplete (t : Nat)
  /-- TNT_FAULT_CLR.CLEAR empties the tenant fault record. (R504) -/
  | faultClear (t : Nat)
  /-- FLT_CTL.CLEAR empties the module fault record and PRIOR. (R505) -/
  | fltClear
  /-- FLT_CTL.CP_RESET requests a compute-part reset with no suspects. (R505) -/
  | cpReset
  /-- MOD_TWIN.HANDOVER passes serving to the twin at a consistent boundary. (R472) -/
  | handover
  /-- A write of TNT_LADLE_CTL changes Ladle settings or is refused with BAD. (R458) -/
  | ladleCtlWrite (t : Nat) (value : W32)
  /-- On LAST or ONLY the launch completes and tokens are written as output records and a return. (R445) -/
  | ladleLaunchComplete (t bseq : Nat) (ok : Bool)
  /- Ladle lists and compare -/
  /-- A batch list with its chain record arrives in a receive buffer of the next stage. (R446) -/
  | batchListReceive (t src : Nat) (x : BList)
  /-- The next stage's report of a taken list gives the sender credit. (R446) -/
  | ladleCreditReceive (t bseq : Nat)
  /-- A return from LAST arrives at a stage. (R447) -/
  | returnReceive (t : Nat) (r : Ret)
  /-- An epoch boundary brings the selected plan half into force and starts resident copies. (R456) -/
  | epochBoundary (t : Nat)
  /-- A tile's resident copy of expert weights completes and the tile counts as resident. (R456) -/
  | residentCopyComplete (t layer tile expert : Nat)
  /-- A reflow notice discards lists and returns from BSEQ B and stalls their sessions. (R480) -/
  | reflowNoticeReceive (t b : Nat)
  /-- The follower receives the leader's step record for a boundary. (R475) -/
  | stepRecordReceive (t : Nat) (r : StepRec)
  /-- A compare unit completes and its unit digest is formed and sent. (R476) -/
  | unitComplete (t unit : Nat)
  /-- The twin's unit digest is compared, releasing held actions or freezing on divergence. (R477) -/
  | unitDigestReceive (t unit : Nat) (digest : List Byte)
  /- recovery -/
  /-- A compute-part reset resets tiles, regions, codecs and control cores and advances the generation tag. (R492) -/
  | computePartReset
  /-- The compute part is released to replay within 100 µs, or 2.1 ms at a generation wrap. (R493) -/
  | computePartRelease
  /-- A suspect under replay is judged at each watch window, and one judged hung is frozen with HANG_REPLAY. (R498) -/
  | suspectWindow (t : Nat) (progress : Bool)
  /-- A suspect whose replay has not completed after four boundaries is frozen with OVERRUN. (R498) -/
  | suspectReplayLimit
  /-- The standby module controller takes over at the next boundary after the active one fails. (R503) -/
  | mcFailover
  /-- 600 s after an escalated start reaches SERVING the escalation window ends. (R500) -/
  | escalationWindowEnd
  /- wear and power -/
  /-- A 3,600 s wear interval ends and every monitor count restarts at zero. (R509) -/
  | wearInterval
  /-- After a swap's copy ends the module controller appends and verifies an accession record. (R519) -/
  | accessionAppend (ok : Bool)
  /-- A retired HBM page's copy into the reserve ends and its remap is scheduled. (R513) -/
  | hbmPageCopyComplete (g page : Nat)
  /-- A retired tile not free within 1 s becomes vacant through a compute-part reset. (R512) -/
  | vacancyTimeout (tile : Nat)
  /-- A tripped regulator phase is replaced by a spare within one measurement period. (R514) -/
  | phaseTrip (rail phase : Nat)
  /-- Each 1 µs sample updates the law levels of rails and module. (R528) -/
  | powerSample (x : PowerIn)
  /-- Temperature sensors are sampled and compared against hot and trip thresholds. (R526) -/
  | tempSample (xs : List (Nat × Nat × Int))
  /-- Every 100 µs each compute die's thermal level rises, holds or falls. (R533) -/
  | thermalUpdate
  /-- VCD falling below 0.665 V puts the die's droop response in force. (R531) -/
  | droopDetect (d : Nat)
  /-- The rail staying above 0.672 V for 256 cc ends the droop response. (R531) -/
  | droopRelease (d : Nat)
  /-- THROTTLE# goes low, starting its 10 µs filter. (R532) -/
  | throttleLow (at_ : Nat)
  /-- THROTTLE# low for 10 µs is accepted and the bubble floor of 48 applies. (R532) -/
  | throttleAccept (at_ : Nat)
  /-- THROTTLE# goes high, or a low shorter than 10 µs is counted as a glitch. (R532) -/
  | throttleHigh (at_ : Nat)
  /-- After the 100 µs hold and 10 µs of high input the floor is released. (R532) -/
  | throttleRelease (at_ : Nat)
  /-- A converter fails and the module reports it, or resets and halts at two or more failures. (R23) -/
  | converterFail (n : Nat)
  /-- A rail leaving regulation records RAIL_CD or RAIL_MOD. (R525) -/
  | railFault (n : Nat)
  /-- A write of PWR_MOD_LIMIT sets the module power limit or is refused with BAD. (R536) -/
  | pwrModLimitWrite (value : W32)
  /-- VIT_CTL.RESTART sets VIT_WCOUNT to 0 and clears STOPPED at the next boundary. (R544) -/
  | vitRestart
  /-- A trace frame is sent when it holds 15 events or 1 µs after its first event. (R546) -/
  | traceFrameSend
  /- JTAG -/
  /-- The EXTEST instruction drives the boundary cells. (R547) -/
  | jtagExtest (bits : List Bool)
  /-- The SAMPLE/PRELOAD instruction samples or loads the boundary cells. (R547) -/
  | jtagSamplePreload (bits : List Bool)
  /-- The IDCODE instruction returns 0x0481_6735. (R547) -/
  | jtagIdcode
  /-- The BYPASS instruction, and every other code, selects the one-bit bypass. (R547) -/
  | jtagBypass (code : Nat) (bits : List Bool)
  /- management bus -/
  /-- The management bus STATUS read returns state, step, halt reason and pin flags. (R577) -/
  | smbStatus
  /-- The management bus POWER read returns input voltage, current, power and converter status. (R577) -/
  | smbPower
  /-- The management bus TEMP read returns the highest temperature and its source. (R577) -/
  | smbTemp
  /-- The management bus IDENT read returns serial, ID and firmware version. (R577) -/
  | smbIdent
  /-- The management bus POSITION read returns SLOT_ID and module ID. (R577) -/
  | smbPosition
  /-- The management bus ALERT read returns the pending alert causes. (R577) -/
  | smbAlert
  /-- The management bus ALERT_CLR write clears named alert causes. (R577) -/
  | smbAlertClr (causes : Nat)
  /- failures and reads -/
  /-- A 4-byte read of the low half of a 64-bit register latches the high half for a later read of the high half. (R557) -/
  | registerRead (fn : Fn) (off len : Nat)
  /-- A command fetch that receives no completion within the PCIe completion timeout fails, puts the ring in FETCH_FAULT and freezes the tenant with FE_FETCH. (R379) -/
  | pcieCompletionTimeout (t r : Nat)
  /-- When the 30 s of start step 6 end, attachments without a trained partner are reported down, and the module stops with LINK_NONE if none trained. (R43) -/
  | linkTrainingTimeout
  /-- A control core fails, which is a fault of class COMPUTE causing a compute-part reset, or an escalation during a freeze. (R486) -/
  | ccFail (die : Nat)
  /-- Clearing Memory Space Enable of a function makes that function's BARs stop responding, and module state is unchanged. (R554) -/
  | memorySpaceDisable (fn : Fn)
  /-- Setting VF Enable, NumVFs, Bus Master Enable or Memory Space Enable again lets the module's requests for the tenant, or host accesses to the BARs, succeed once more. (R554) -/
  | pcieEnableRestore (e : PcieEn)
  /-- The memory controllers scrub HBM by themselves, correcting or poisoning errors and feeding the wear monitors that make pages due. (R78) -/
  | hbmScrub (ma n : Nat) (ue : Bool)
  /-- A management bus command code that is not listed, or a write to a code that only reads, is not acknowledged. (R576) -/
  | smbUnlistedCommand
  deriving DecidableEq, Repr

end Sys2Proof
end

