-- ==== Sys2Proof/Decode.lean ====
section
/-!
DEFINITION. Decode.lean: the command that a word of the command table spells. The table gives no row any bits: commands reach the
block as events and accesses, not as words.
-/

namespace Sys2Proof

/-- No row of the table gives a command bits, so no word spells one. -/
def decodeTableWord (_nbits _w : Nat) : Option Instr := none

end Sys2Proof
end

