-- ==== Sys2Proof/Machine/Num.lean ====
section
/-!
DEFINITION. Num.lean: number formats, exact values, rounding and conversion (R117 to R140).
-/

namespace Sys2Proof.Machine

/-! ## Exact values -/

/-- The value of an element (R119 to R123): a NaN, an infinity, a signed zero, or the non-zero finite number
`± m × 2^e` with `m > 0`. -/
inductive Val where
  | nan
  | inf (neg : Bool)
  | zero (neg : Bool)
  | fin (neg : Bool) (m : Nat) (e : Int)
  deriving DecidableEq, Repr

/-- Element formats (R117). -/
inductive Fmt where
  | bf16 | fp16 | f8e4 | f8e5 | int8 | f4e2 | int4 | fp32
  deriving DecidableEq, Repr

/-- The format of a code (R117). -/
def fmtOfCode : Nat → Option Fmt
  | 1 => some .bf16
  | 2 => some .fp16
  | 3 => some .f8e4
  | 4 => some .f8e5
  | 5 => some .int8
  | 6 => some .f4e2
  | 7 => some .int4
  | 8 => some .fp32
  | _ => none

def Fmt.bits : Fmt → Nat
  | .bf16 | .fp16 => 16
  | .f8e4 | .f8e5 | .int8 => 8
  | .f4e2 | .int4 => 4
  | .fp32 => 32

def Fmt.isInt : Fmt → Bool
  | .int8 | .int4 => true
  | _ => false

/-- Mantissa bits `m` of a floating-point format (R118). -/
def Fmt.man : Fmt → Nat
  | .fp32 => 23
  | .bf16 => 7
  | .fp16 => 10
  | .f8e5 => 2
  | .f8e4 => 3
  | .f4e2 => 1
  | .int8 | .int4 => 0

/-- Width of the exponent field (R118). -/
def Fmt.ebits : Fmt → Nat
  | .fp32 | .bf16 => 8
  | .fp16 | .f8e5 => 5
  | .f8e4 => 4
  | .f4e2 => 2
  | .int8 | .int4 => 0

/-- Bias (R118). -/
def Fmt.bias : Fmt → Nat
  | .fp32 | .bf16 => 127
  | .fp16 | .f8e5 => 15
  | .f8e4 => 7
  | .f4e2 => 1
  | .int8 | .int4 => 0

/-- Whether an all-ones exponent field is reserved for infinities and NaNs (R119, R120). -/
def Fmt.special : Fmt → Bool
  | .f4e2 | .int8 | .int4 => false
  | _ => true

/-- The canonical NaN code (R120); a format without NaN has none, and 0 stands for it. -/
def Fmt.nanCode : Fmt → Nat
  | .fp32 => 0x7FC00000
  | .bf16 => 0x7FC0
  | .fp16 => 0x7E00
  | .f8e5 => 0x7E
  | .f8e4 => 0x7C
  | _ => 0

/-- Magnitude code of the largest finite value (R120). -/
def Fmt.maxCode (f : Fmt) : Nat :=
  if f.special then (2 ^ f.ebits - 1) * 2 ^ f.man - 1 else 2 ^ (f.bits - 1) - 1

def Fmt.infCode (f : Fmt) : Nat := (2 ^ f.ebits - 1) * 2 ^ f.man

/-- The sign bit of a code. -/
def Fmt.signBit (f : Fmt) : Nat := 2 ^ (f.bits - 1)

/-- The value of a floating-point code (R118 to R120). -/
def decodeFloat (f : Fmt) (code : Nat) : Val :=
  let c := code % 2 ^ f.bits
  let neg := decide (f.signBit ≤ c)
  let mag := c % f.signBit
  let ex := mag / 2 ^ f.man
  let m := mag % 2 ^ f.man
  if f.special && ex == 2 ^ f.ebits - 1 then
    if m == 0 then .inf neg else .nan
  else if ex == 0 then
    if m == 0 then .zero neg else .fin neg m (1 - (f.bias : Int) - f.man)
  else .fin neg (2 ^ f.man + m) ((ex : Int) - f.bias - f.man)

/-- The value of an integer code (R121). -/
def decodeInt (f : Fmt) (code : Nat) : Val :=
  let c := code % 2 ^ f.bits
  if c == 0 then .zero false
  else if f.signBit ≤ c then .fin true (2 ^ f.bits - c) 0
  else .fin false c 0

def decodeVal (f : Fmt) (code : Nat) : Val :=
  if f.isInt then decodeInt f code else decodeFloat f code

/-- Multiply a value by `2^k`, exactly. -/
def Val.scale (v : Val) (k : Int) : Val :=
  match v with
  | .fin n m e => .fin n m (e + k)
  | v => v

/-- A scaled element's value (R122, R123): scale byte 0xFF makes every element of its block a NaN. -/
def decodeScaled (f : Fmt) (code : Nat) (scale : Option Nat) : Val :=
  match scale with
  | none => decodeVal f code
  | some s => if s == 0xFF then .nan else (decodeVal f code).scale ((s : Int) - 127)

def Val.isNan : Val → Bool
  | .nan => true
  | _ => false

def Val.isInf : Val → Bool
  | .inf _ => true
  | _ => false

def Val.neg : Val → Bool
  | .nan => false
  | .inf n => n
  | .zero n => n
  | .fin n _ _ => n

/-- Change the sign (R165): of a NaN, the canonical NaN. -/
def Val.negate : Val → Val
  | .nan => .nan
  | .inf n => .inf !n
  | .zero n => .zero !n
  | .fin n m e => .fin (!n) m e

/-- Clear the sign (R128). -/
def Val.abs : Val → Val
  | .nan => .nan
  | .inf _ => .inf false
  | .zero _ => .zero false
  | .fin _ m e => .fin false m e

/-- `floor(log2 |v|)` of a finite non-zero value. -/
def flog2 (m : Nat) (e : Int) : Int := (Nat.log2 m : Int) + e

/-! ## Exact arithmetic (R126, R127) -/

/-- `m × 2^k` as a whole number, the part below one unit cut off. -/
def shiftInt (m : Nat) (k : Int) : Nat :=
  if 0 ≤ k then m <<< k.toNat else m >>> (-k).toNat

def signed (neg : Bool) (m : Nat) : Int := if neg then -(m : Int) else (m : Int)

/-- A whole number times `2^e` as a value; zero is +0 (R127). -/
def Val.ofScaled (x : Int) (e : Int) : Val :=
  if x = 0 then .zero false else .fin (decide (x < 0)) x.natAbs e

/-- The exact sum (R126, R127). -/
def Val.add (a b : Val) : Val :=
  match a, b with
  | .nan, _ => .nan
  | _, .nan => .nan
  | .inf x, .inf y => if x == y then .inf x else .nan
  | .inf x, _ => .inf x
  | _, .inf y => .inf y
  | .zero x, .zero y => .zero (x && y)
  | .zero _, v => v
  | v, .zero _ => v
  | .fin x m e, .fin y n f =>
    let g := min e f
    Val.ofScaled (signed x (m <<< (e - g).toNat) + signed y (n <<< (f - g).toNat)) g

/-- The exact product (R126, R127, R142). -/
def Val.mul (a b : Val) : Val :=
  match a, b with
  | .nan, _ => .nan
  | _, .nan => .nan
  | .inf _, .zero _ => .nan
  | .zero _, .inf _ => .nan
  | .inf x, v => .inf (xor x v.neg)
  | v, .inf y => .inf (xor v.neg y)
  | .zero x, v => .zero (xor x v.neg)
  | v, .zero y => .zero (xor v.neg y)
  | .fin x m e, .fin y n f => .fin (xor x y) (m * n) (e + f)

/-- Order of two values that are no NaN: −0 equals +0 (R128). -/
def Val.cmp (a b : Val) : Ordering :=
  let d : Val := a.add b.negate
  match a, b with
  | .inf x, .inf y => if x == y then .eq else if x then .lt else .gt
  | _, _ => match d with
    | .zero _ => .eq
    | v => if v.neg then .lt else .gt

/-- Greater, and not less, of two values: false with a NaN (R128). -/
def Val.gt (a b : Val) : Bool := !a.isNan && !b.isNan && a.cmp b == .gt
def Val.ge (a b : Val) : Bool := !a.isNan && !b.isNan && a.cmp b != .lt

/-- Maximum (R128). -/
def Val.max (a b : Val) : Val :=
  if a.isNan || b.isNan then .nan
  else match a, b with
    | .zero x, .zero y => .zero (x && y)
    | _, _ => if a.cmp b = .lt then b else a

/-- Minimum (R128). -/
def Val.min (a b : Val) : Val :=
  if a.isNan || b.isNan then .nan
  else match a, b with
    | .zero x, .zero y => .zero (x || y)
    | _, _ => if a.cmp b = .gt then b else a

/-! ## Rounding (R129 to R132, R136, R145) -/

/-- Round `m × 2^e` to a whole number of units `2^u`, ties to even. -/
def roundUnits (m : Nat) (e u : Int) : Nat :=
  if u ≤ e then m <<< (e - u).toNat
  else
    let d := (u - e).toNat
    let k := m >>> d
    let r := m % 2 ^ d
    let half := 2 ^ (d - 1)
    if half < r || (r == half && k % 2 == 1) then k + 1 else k

/-- The unit of R131 for `m × 2^e`: one unit in the last place of the binade, but no finer than the subnormal
quantum `2^(1 − bias − m)`. -/
def gridUnit (f : Fmt) (m : Nat) (e : Int) : Int :=
  max (flog2 m e - f.man) (1 - (f.bias : Int) - f.man)

/-- The magnitude code of `k × 2^u`, which lies on the grid of `f` and not above its largest finite value. -/
def encodeMag (f : Fmt) (k : Nat) (u : Int) : Nat :=
  if k = 0 then 0
  else
    let l := flog2 k u
    if l < 1 - (f.bias : Int) then shiftInt k (u - (1 - (f.bias : Int) - f.man))
    else (l + f.bias).toNat * 2 ^ f.man + (shiftInt k (u - (l - f.man)) - 2 ^ f.man)

/-- Is `k × 2^u` above the largest finite value of `f`? -/
def aboveMax (f : Fmt) (k : Nat) (u : Int) : Bool :=
  if k = 0 then false
  else if f.special then decide ((2 ^ f.ebits - 2 : Int) - f.bias < flog2 k u)
  else if f.isInt then decide (2 ^ (f.bits - 1) - 1 < shiftInt k u)
  else decide (6 < shiftInt k u)

def withSign (f : Fmt) (neg : Bool) (mag : Nat) : Nat := if neg then f.signBit + mag else mag

/-- Round an exact value to FP32 as arithmetic results are (R136, R145): RNE with the exponent range unbounded, then
infinity above the range, and zero of the rounded sign below `2^-126`, which is a flush. -/
def round32 (v : Val) : W32 × Bool :=
  match v with
  | .nan => (0x7FC00000, false)
  | .inf n => (BitVec.ofNat 32 (withSign .fp32 n 0x7F800000), false)
  | .zero n => (BitVec.ofNat 32 (withSign .fp32 n 0), false)
  | .fin n m e =>
    let u := flog2 m e - 23
    let k := roundUnits m e u
    let l := flog2 k u
    if 127 < l then (BitVec.ofNat 32 (withSign .fp32 n 0x7F800000), false)
    else if l < -126 then (BitVec.ofNat 32 (withSign .fp32 n 0), true)
    else (BitVec.ofNat 32 (withSign .fp32 n (encodeMag .fp32 k u)), false)

/-- The value of an FP32 word; a subnormal is read at its full value (R136). -/
def val32 (w : W32) : Val := decodeFloat .fp32 w.toNat

/-- FP32 addition with RNE and flush (R126, R127, R136). -/
def add32 (a b : W32) : W32 × Bool := round32 ((val32 a).add (val32 b))

/-- FP32 multiplication with RNE and flush. -/
def mul32 (a b : W32) : W32 × Bool := round32 ((val32 a).mul (val32 b))

/-- Write a value without rounding it, for operations that only select or change a sign (R136, R165). -/
def exact32 (v : Val) : W32 :=
  match v with
  | .nan => 0x7FC00000
  | .inf n => BitVec.ofNat 32 (withSign .fp32 n 0x7F800000)
  | .zero n => BitVec.ofNat 32 (withSign .fp32 n 0)
  | .fin n m e =>
    let u := gridUnit .fp32 m e
    BitVec.ofNat 32 (withSign .fp32 n (encodeMag .fp32 (roundUnits m e u) u))

/-! ## Conversion (R133 to R135, R138) -/

/-- Rounding control (R129): to nearest even, or stochastic with the generator word of the element (R132). -/
inductive Rnd where
  | rne
  | sr (r : W32)
  deriving DecidableEq, Repr

/-- What a conversion writes for one element: its code, and whether it counts SAT or NAN (R138). -/
structure Conv where
  code : Nat
  sat  : Bool
  nan  : Bool
  deriving DecidableEq, Repr

/-- The largest finite magnitude of a target, in whole units `2^u`, for the clamp of R132. -/
def maxMag (f : Fmt) : Nat × Int :=
  if f.isInt then (2 ^ (f.bits - 1) - 1, 0)
  else if f.special then (2 ^ (f.man + 1) - 1, (2 ^ f.ebits - 2 : Int) - f.bias - f.man)
  else (3, 1)

/-- Round the magnitude `m × 2^e` for target `f` (R131, R132): whole units of the unit returned. The clamp of R132
applies when the value itself does not exceed the largest finite value `max`. A negative integer target goes one
further than a positive one (R134), so its `max` is one larger. -/
def roundMag (f : Fmt) (neg : Bool) (r : Rnd) (m : Nat) (e : Int) : Nat × Int :=
  let u := if f.isInt then 0 else gridUnit f m e
  match r with
  | .rne => (roundUnits m e u, u)
  | .sr w =>
    let lo := shiftInt m (e - u)
    -- the first 32 bits of (|x| − lo) / q
    let t := shiftInt m (e - u + 32) - lo * 2 ^ 32
    let k := if t = 0 then lo else if 2 ^ 32 ≤ t + w.toNat then lo + 1 else lo
    let (mm, mu) := maxMag f
    let mm' := if f.isInt && neg then mm + 1 else mm
    -- |x| ≤ max and mag > max, compared in units of 2^(min e mu u)
    let g := min e (min mu u)
    let mx := mm' <<< (mu - g).toNat
    if decide (m <<< (e - g).toNat ≤ mx) && decide (mx < k <<< (u - g).toNat) then (mm', mu) else (k, u)

/-- Convert a value to a target format without a block scale (R134). -/
def convert (f : Fmt) (r : Rnd) (v : Val) : Conv :=
  if f.isInt then
    let pos := 2 ^ (f.bits - 1) - 1
    match v with
    | .nan => ⟨0, false, true⟩
    | .inf n => ⟨if n then f.signBit else pos, true, false⟩
    | .zero _ => ⟨0, false, false⟩
    | .fin n m e =>
      let (k, u) := roundMag f n r m e
      let k := shiftInt k u
      if n then if f.signBit < k then ⟨f.signBit, true, false⟩ else ⟨(2 ^ f.bits - k) % 2 ^ f.bits, false, false⟩
      else if pos < k then ⟨pos, true, false⟩ else ⟨k, false, false⟩
  else if f.special then
    match v with
    | .nan => ⟨f.nanCode, false, true⟩
    | .inf n => ⟨withSign f n f.infCode, false, false⟩
    | .zero n => ⟨withSign f n 0, false, false⟩
    | .fin n m e =>
      let (k, u) := roundMag f n r m e
      if aboveMax f k u then ⟨withSign f n f.infCode, false, false⟩
      else ⟨withSign f n (encodeMag f k u), false, false⟩
  else
    match v with
    | .nan => ⟨0, false, true⟩
    | .inf n => ⟨withSign f n f.maxCode, true, false⟩
    | .zero n => ⟨withSign f n 0, false, false⟩
    | .fin n m e =>
      let (k, u) := roundMag f n r m e
      if aboveMax f k u then ⟨withSign f n f.maxCode, true, false⟩
      else ⟨withSign f n (encodeMag f k u), false, false⟩

/-- Convert one block under the scale byte `s` (R135): the codes, the scale byte written, and the counts. A block
that becomes a NaN block counts every present element NAN. -/
def convertBlock (f : Fmt) (s : Nat) (xs : List (Rnd × Val)) : List Conv × Nat :=
  if s == 0xFF then
    (xs.map fun _ => ⟨if f.special then f.nanCode else 0, false, true⟩, 0xFF)
  else
    let cs := xs.map fun (r, v) => convert f r (v.scale (127 - (s : Int)))
    if f == .f4e2 && xs.any (fun (_, v) => v.isNan) then
      (xs.map fun _ => ⟨0, false, true⟩, 0xFF)
    else (cs, s)

end Sys2Proof.Machine
end

