-- ==== Sys2Proof/Machine/Dot.lean ====
section
/-!
DEFINITION. Dot.lean: the defined dot product (R141 to R152).
-/

namespace Sys2Proof.Machine

/-- The magnitude of a product as a whole number of units `2^(e − 56)`, truncated toward zero (R144). -/
def windowInt (m : Nat) (x e : Int) : Nat := shiftInt m (x + 56 - e)

/-- The chunk exponent: the largest `floor(log2 |p|)` over the non-zero products (R144). -/
def chunkExp : List Val → Option Int
  | [] => none
  | .fin _ m x :: ps =>
    match chunkExp ps with
    | none => some (flog2 m x)
    | some e => some (max (flog2 m x) e)
  | _ :: ps => chunkExp ps

/-- The exact signed sum of the window integers (R144). -/
def windowSum (e : Int) : List Val → Int
  | [] => 0
  | .fin n m x :: ps => signed n (windowInt m x e) + windowSum e ps
  | _ :: ps => windowSum e ps

/-- The chunk sum (R144), with whether its rounding flushed. -/
def chunkSum (ps : List Val) : W32 × Bool :=
  if ps.any (·.isNan) then (0x7FC00000, false)
  else
    let pinf := ps.any (· == .inf false)
    let ninf := ps.any (· == .inf true)
    if pinf && ninf then (0x7FC00000, false)
    else if pinf then round32 (.inf false)
    else if ninf then round32 (.inf true)
    else match chunkExp ps with
      | none => round32 (.zero (ps.all (· == .zero true)))
      | some e => round32 (Val.ofScaled (windowSum e ps) (e - 56))

/-- Cut a list into runs of `n`, the last one shorter; `fuel` bounds the number of runs. -/
def chunksOf {α : Type} (n : Nat) : Nat → List α → List (List α)
  | 0, _ => []
  | _, [] => []
  | fuel + 1, xs => xs.take n :: chunksOf n fuel (xs.drop n)

/-- The pass sum over the chunk sums that are present (R146). -/
def passTree : List (W32 × Bool) → W32 × Bool
  | [] => (0, false)
  | [c0] => c0
  | [c0, c1] => let r := add32 c0.1 c1.1; (r.1, c0.2 || c1.2 || r.2)
  | [c0, c1, c2] =>
    let a := add32 c0.1 c1.1
    let r := add32 a.1 c2.1
    (r.1, c0.2 || c1.2 || c2.2 || a.2 || r.2)
  | c0 :: c1 :: c2 :: c3 :: _ =>
    let a := add32 c0.1 c1.1
    let b := add32 c2.1 c3.1
    let r := add32 a.1 b.1
    (r.1, c0.2 || c1.2 || c2.2 || c3.2 || a.2 || b.2 || r.2)

/-- The pass sum of one pass's products (R143, R146). -/
def passSum (ps : List Val) : W32 × Bool :=
  passTree ((chunksOf 32 4 ps).map chunkSum)

/-- Add the pass sums to the running accumulator in order (R147); `none` is a sum not yet begun. -/
def accumulate (acc : Option (W32 × Bool)) : List (W32 × Bool) → Option (W32 × Bool)
  | [] => acc
  | p :: ps =>
    match acc with
    | none => accumulate (some p) ps
    | some a =>
      let r := add32 a.1 p.1
      accumulate (some (r.1, a.2 || p.2 || r.2)) ps

/-- The products of two rows of values, index by index (R142); an integer product of zero has no sign (R121). -/
def products (int : Bool) (as ws : List Val) : List Val :=
  List.zipWith (fun a w => match int, a.mul w with
    | true, .zero _ => .zero false
    | _, p => p) as ws

/-- The pairs `(j, i)` with `i + j < p` in the order of R108. -/
def passPairs : Nat → List (Nat × Nat)
  | 0 => []
  | 1 => [(0, 0)]
  | 2 => [(0, 0), (0, 1), (1, 0)]
  | _ => [(0, 0), (0, 1), (0, 2), (1, 0), (1, 1), (2, 0)]

/-- One output of MATMUL (R147): `act i` and `stat j` are the values of activation piece `i` and stationary piece `j`
over all K indices; `int` says that they are integers. -/
def dotOutput (int : Bool) (p : Nat) (act stat : List (List Val)) (acc : Option W32) : W32 × Bool :=
  let passes := List.range ((((act.headD []).length) + 127) / 128)
  let sums := passes.flatMap fun r =>
    (passPairs p).map fun (j, i) =>
      passSum (products int (((act.getD i []).drop (128 * r)).take 128) (((stat.getD j []).drop (128 * r)).take 128))
  (accumulate (acc.map (·, false)) sums).getD (0, false)

end Sys2Proof.Machine
end

