-- ==== Sys2Proof/Machine/Mem.lean ====
section
/-!
DEFINITION. Mem.lean: reading and writing sparse memories, bytes and poison, and small helpers over vectors and lists.
-/

namespace Sys2Proof.Machine

/-! ## Sparse memories -/

/-- The value at a key; an unlisted key reads zero (R424). -/
def nget {w : Nat} (m : NMap w) (k : Nat) : BitVec w :=
  match m with
  | [] => 0
  | (a, v) :: rest => if a = k then v else if k < a then 0 else nget rest k

/-- Write a value, keeping the canonical form: writing zero takes the entry out. -/
def nset {w : Nat} (m : NMap w) (k : Nat) (v : BitVec w) : NMap w :=
  match m with
  | [] => if v = 0 then [] else [(k, v)]
  | (a, x) :: rest =>
    if a < k then (a, x) :: nset rest k v
    else if a = k then if v = 0 then rest else (k, v) :: rest
    else if v = 0 then (a, x) :: rest else (k, v) :: (a, x) :: rest

/-- Are the keys of a memory above `lo` (where one is given) and strictly rising, and no value zero? -/
def nwfFrom {w : Nat} (lo : Option Nat) (m : NMap w) : Bool :=
  match m with
  | [] => true
  | (a, v) :: rest => (match lo with | none => true | some l => decide (l < a)) && v != 0 && nwfFrom (some a) rest

/-- The canonical form of a sparse memory. -/
def nwf {w : Nat} (m : NMap w) : Bool := nwfFrom none m

/-- `n` bytes from `a` on. -/
def readBytes (m : NMap 8) (a n : Nat) : List Byte := (List.range n).map fun i => nget m (a + i)

/-- Store bytes from `a` on. -/
def writeBytes (m : NMap 8) (a : Nat) : List Byte → NMap 8
  | [] => m
  | b :: bs => writeBytes (nset m a b) (a + 1) bs

/-- Drop every entry whose key lies in `[lo, hi)`: the bytes read zero. -/
def zeroRange {w : Nat} (m : NMap w) (lo hi : Nat) : NMap w := m.filter fun (a, _) => !(decide (lo ≤ a) && decide (a < hi))

/-- The little-endian value of bytes (R6). -/
def leNat : List Byte → Nat
  | [] => 0
  | b :: bs => b.toNat + 256 * leNat bs

/-- `n` little-endian bytes of a value (R6). -/
def leBytes : Nat → Nat → List Byte
  | 0, _ => []
  | n + 1, x => BitVec.ofNat 8 x :: leBytes n (x / 256)

/-- The field of `n` bytes at byte `off` of a record (R6). -/
def fieldAt (bs : List Byte) (off n : Nat) : Nat := leNat ((bs.drop off).take n)

/-! ## Poison (R249, R271): a rising list of the numbers of poisoned 64-byte lines -/

def pget (p : List Nat) (l : Nat) : Bool := p.contains l

def pset (p : List Nat) (l : Nat) : List Nat :=
  match p with
  | [] => [l]
  | a :: rest => if a < l then a :: pset rest l else if a = l then p else l :: p

def pclear (p : List Nat) (l : Nat) : List Nat := p.filter (· ≠ l)

/-- Is any line of the bytes `[a, a + n)` poisoned? -/
def prange (p : List Nat) (a n : Nat) : Bool :=
  p.any fun l => decide (64 * l < a + n) && decide (a < 64 * l + 64)

/-- A write of `n` bytes at `a`: poisoned data poisons every line it touches; other data clears the lines it covers
whole and leaves the rest (R249). -/
def pwrite (p : List Nat) (a n : Nat) (bad : Bool) : List Nat :=
  if n = 0 then p
  else
    let lines := (List.range ((a + n - 1) / 64 - a / 64 + 1)).map (· + a / 64)
    if bad then lines.foldl pset p
    else lines.foldl (fun p l => if a ≤ 64 * l ∧ 64 * l + 64 ≤ a + n then pclear p l else p) p

/-! ## Vectors and lists -/

/-- Change entry `i` of a vector; an index past the end changes nothing. -/
def vupd {α : Type} {n : Nat} (v : Vector α n) (i : Nat) (f : α → α) : Vector α n :=
  if h : i < n then v.set i (f v[i]) else v

/-- Put a pair into an association list in place of one with the same key. -/
def aput {α : Type} (l : List (Nat × α)) (k : Nat) (v : α) : List (Nat × α) :=
  match l with
  | [] => [(k, v)]
  | (a, x) :: rest => if a < k then (a, x) :: aput rest k v else if a = k then (k, v) :: rest else (k, v) :: (a, x) :: rest

def aget {α : Type} (l : List (Nat × α)) (k : Nat) : Option α := (l.find? (·.1 == k)).map (·.2)

def adel {α : Type} (l : List (Nat × α)) (k : Nat) : List (Nat × α) := l.filter (·.1 ≠ k)

/-- Is bit `i` of a mask set? -/
def bitOf (m i : Nat) : Bool := m / 2 ^ i % 2 == 1

/-- The numbers of the set bits below `n`, rising. -/
def bitsOf (n m : Nat) : List Nat := (List.range n).filter (bitOf m)

def ceilDiv (a b : Nat) : Nat := (a + b - 1) / b

/-- A 32-bit counter that saturates at 0xFFFF_FFFF (R550). -/
def satAdd32 (a : W32) (n : Nat) : W32 := BitVec.ofNat 32 (min (a.toNat + n) 0xFFFFFFFF)

/-- Head dimension of DSEL (R197). -/
def dimOf : Nat → Nat
  | 0 => 64
  | 1 => 96
  | 2 => 128
  | 3 => 192
  | _ => 256

end Sys2Proof.Machine
end

