-- ==== Sys2Proof/Machine/Fun.lean ====
section
/-!
DEFINITION. Fun.lean: the defined exp, reciprocal and reciprocal square root of NCV 1 (R166 to R168), and the whisk
generator (R173, R174).
-/

namespace Sys2Proof.Machine

/-- round(log2(e) × 2^62) (R166). -/
def expLfix : Int := 6653256548922161246

/-- round(ln(2)^k / k! × 2^62) for k = 1 to 4 (R166). -/
def expC : List Int := [
  3196577161300663915, 1107849223398934356, 255967521894832113, 44355791529079737]

/-- round(2^(i/64) × 2^62) for i = 0 to 15, 16 to 31, 32 to 47 and 48 to 63 (R166). -/
def expT0 : List Int := [
  4611686018427387904, 4661903986662671290, 4712668792719003884, 4763986391269842979,
  4815862801830788490, 4868304109465667592, 4921316465500308116, 4974906088244084429,
  5029079263719320435, 5083842346398635251, 5139201759950318048, 5195163997991819502,
  5251735624851448219, 5308923276338361494, 5366733660520940721, 5425173558513642752]
def expT1 : List Int := [
  5484249825272419512, 5543969390398799154, 5604339258952723100, 5665366512274234280,
  5727058308814112983, 5789421884973557729, 5852464555953009676, 5916193716610220111,
  5980616842327661685, 6045741489889385141, 6111575298367424380, 6178125990017853852,
  6245401371186603363, 6313409333225136570, 6382157853416100552, 6451654995909055045]
def expT2 : List Int := [
  6521908912666391106, 6592927844419550153, 6664720121635655541, 6737294165494670078,
  6810658488877194079, 6884821697363019841, 6959792490240559659, 7035579661527265796,
  7112192101001162095, 7189638795243608238, 7267928828693418961, 7347071384712461870,
  7427075746662858866, 7507951298995917514, 7589707528352920109, 7672354024677899536]
def expT3 : List Int := [
  7755900482342532474, 7840356701283281883, 7925732588150922155, 8012038157472581778,
  8099283532826439817, 8187478948029213993, 8276634748336579668, 8366761391656660532,
  8457869449776733335, 8549969609603290562, 8643072674415606502, 8737189565132953757,
  8832331321595618838, 8928509103859867100, 9025734193507008925, 9124017994966720698]

def expT : List Int := expT0 ++ expT1 ++ expT2 ++ expT3

/-- `trunc(x × 2^k)` of a finite value, toward zero. -/
def truncScaled (v : Val) (k : Int) : Int :=
  match v with
  | .fin n m e => signed n (shiftInt m (e + k))
  | _ => 0

/-- The value before round_out of VEXP (R166). -/
def expExact (x : Val) : Val :=
  match x with
  | .nan => .nan
  | .inf false => .inf false
  | .inf true => .zero false
  | x =>
    let x := if x.cmp (.fin false 128 0) = .gt then .fin false 128 0
             else if x.cmp (.fin true 128 0) = .lt then .fin true 128 0 else x
    let xi := truncScaled x 32
    let y := xi * expLfix / 2 ^ 62
    let n := y / 2 ^ 32
    let f := y - n * 2 ^ 32
    let i := f / 2 ^ 26
    let g := f - i * 2 ^ 26
    let c := fun k => expC.getD k 0
    let h := c 3
    let h := c 2 + h * g / 2 ^ 32
    let h := c 1 + h * g / 2 ^ 32
    let h := c 0 + h * g / 2 ^ 32
    let p := 2 ^ 62 + h * g / 2 ^ 32
    let m := expT.getD i.toNat 0 * p / 2 ^ 62
    Val.ofScaled m (n - 62)

/-- `|x| = s × 2^(q − 23)` with `s` from 2^23 to 2^24 − 1 (R167). -/
def normSQ (m : Nat) (e : Int) : Nat × Int :=
  let q := flog2 m e
  (shiftInt m (e - q + 23), q)

/-- The value before round_out of VRCP (R167). -/
def rcpExact (x : Val) : Val :=
  match x with
  | .nan => .nan
  | .inf n => .zero n
  | .zero n => .inf n
  | .fin n m e =>
    let (s, q) := normSQ m e
    let i := s / 2 ^ 16 - 128
    let y := 2 ^ 40 / (257 + 2 * i)
    let y := y * (2 ^ 56 - s * y) / 2 ^ 55
    let y := y * (2 ^ 56 - s * y) / 2 ^ 55
    .fin n y (-32 - q)

/-- The largest `y` below `2^bits` with `y² ≤ x`, found bit by bit. -/
def isqrtBits (x : Nat) : Nat → Nat → Nat
  | 0, y => y
  | b + 1, y => if (y + 2 ^ b) * (y + 2 ^ b) ≤ x then isqrtBits x b (y + 2 ^ b) else isqrtBits x b y

/-- The value before round_out of VRSQ (R168). -/
def rsqExact (x : Val) : Val :=
  match x with
  | .nan => .nan
  | .inf true => .nan
  | .inf false => .zero false
  | .zero n => .inf n
  | .fin true _ _ => .nan
  | .fin false m e =>
    let (s, q) := normSQ m e
    let (s, q) := if q % 2 = 0 then (s, q) else (2 * s, q - 1)
    let i := s / 2 ^ 17 - 64
    -- floor(2^32 / sqrt(1 + (2i + 1)/128)) = floor(sqrt(2^71 / (129 + 2i)))
    let y := isqrtBits (2 ^ 71 / (129 + 2 * i)) 34 0
    let y := y * (3 * 2 ^ 87 - s * y * y) / 2 ^ 88
    let y := y * (3 * 2 ^ 87 - s * y * y) / 2 ^ 88
    .fin false y (-32 - q / 2)

/-! ## FP32 forms, for sampling and attention -/

def exp32 (w : W32) : W32 × Bool := round32 (expExact (val32 w))
def rcp32 (w : W32) : W32 × Bool := round32 (rcpExact (val32 w))

/-! ## Whisk (R173) -/

/-- One round of the whisk on words and key. -/
def whiskRound (w0 w1 w2 w3 k0 k1 : W32) : (W32 × W32 × W32 × W32) × (W32 × W32) :=
  let w0 := w0 + k0
  let w2 := w2 + k1
  let w1 := w1 ^^^ (w0 * 0x9D1C4E35#32).rotateLeft 13
  let w3 := w3 ^^^ (w2 * 0xC6A38F27#32).rotateLeft 19
  let w0 := w0 ^^^ (w3 >>> 11)
  let w2 := w2 ^^^ (w1 >>> 7)
  let k0' := k0 + 0x6F2B93D1#32
  ((w1, w2, w3, w0), (k0', k1 ^^^ k0'.rotateLeft 9))

def whiskRounds : Nat → (W32 × W32 × W32 × W32) × (W32 × W32) → W32 × W32 × W32 × W32
  | 0, (w, _) => w
  | n + 1, ((w0, w1, w2, w3), (k0, k1)) => whiskRounds n (whiskRound w0 w1 w2 w3 k0 k1)

/-- The four words of whisk(key, ctr) (R173). -/
def whisk (key : W64) (ctr : BitVec 128) : W32 × W32 × W32 × W32 :=
  whiskRounds 8 ((ctr.extractLsb' 0 32, ctr.extractLsb' 32 32, ctr.extractLsb' 64 32, ctr.extractLsb' 96 32),
    (key.extractLsb' 0 32, key.extractLsb' 32 32))

/-- The counter of a stochastic rounding: index div 4, launch step counter, salt, purpose 0x02 (R174). -/
def srCounter (index step salt : Nat) : BitVec 128 :=
  BitVec.ofNat 128 (index / 4 % 2 ^ 62 + step % 2 ^ 48 * 2 ^ 62 + salt % 2 ^ 8 * 2 ^ 110 + 0x02 * 2 ^ 120)

/-- The generator word of a stochastic rounding (R132, R174). -/
def srWord (seed : W64) (step salt index : Nat) : W32 :=
  let (w0, w1, w2, w3) := whisk seed (srCounter index step salt)
  match index % 4 with
  | 0 => w0
  | 1 => w1
  | 2 => w2
  | _ => w3

/-- The counter of a draw of VSAMPLE (R174). -/
def sampleCounter (step position session : Nat) : BitVec 128 :=
  BitVec.ofNat 128 (step % 2 ^ 48 + position % 2 ^ 32 * 2 ^ 48 + session % 2 ^ 13 * 2 ^ 80 + 0x01 * 2 ^ 120)

end Sys2Proof.Machine
end

