-- ==== Sys2Proof/Machine/Vec.lean ====
section
/-!
DEFINITION. Vec.lean: register instructions of the vector engine (R156 to R175, R188, R189), on the engine alone.
-/

namespace Sys2Proof.Machine

/-- Bits `[hi:lo]` of an instruction word. -/
def bf (w : BitVec 256) (hi lo : Nat) : Nat := w.toNat >>> lo % 2 ^ (hi - lo + 1)

/-! ## Register instruction words (R162) -/

def wOpc (w : BitVec 256) : Nat := bf w 7 0
def wDelta (w : BitVec 256) : Nat := bf w 23 8
def wSync (w : BitVec 256) : Bool := bf w 24 24 == 1
def vVD (w : BitVec 256) : Nat := bf w 36 32
def vVA (w : BitVec 256) : Nat := bf w 41 37
def vVB (w : BitVec 256) : Nat := bf w 46 42
def vVC (w : BitVec 256) : Nat := bf w 51 47
def vFmt (w : BitVec 256) : Nat := bf w 55 52
def vFmt2 (w : BitVec 256) : Nat := bf w 59 56
def vRnd (w : BitVec 256) : Nat := bf w 61 60
def vZM (w : BitVec 256) : Bool := bf w 62 62 == 1
def vSC (w : BitVec 256) : Bool := bf w 63 63 == 1
def vKM (w : BitVec 256) : Nat := bf w 66 64
def vKD (w : BitVec 256) : Nat := bf w 69 67
def vCond (w : BitVec 256) : Nat := bf w 73 70
def vImm16 (w : BitVec 256) : Nat := bf w 95 80
def vImm32 (w : BitVec 256) : Nat := bf w 127 96
def vOff (w : BitVec 256) : Nat := bf w 150 128
def vCirc (w : BitVec 256) : Bool := bf w 151 151 == 1
def vPart (w : BitVec 256) : Nat := bf w 154 152

/-- The bits `[hi:lo]` set. -/
def bitsAt (hi lo : Nat) : Nat := (2 ^ (hi - lo + 1) - 1) <<< lo

/-- The fields a register instruction may use, as ranges (R162). -/
inductive VF where
  | vd | va | vb | vc | fmt | fmt2 | zm | sc | km | kd | cond1 | cond3 | imm5 | imm2 | imm8 | imm32 | off | circ | part
  | ka | kb
  deriving DecidableEq, Repr

def VF.mask : VF → Nat
  | .vd => bitsAt 36 32
  | .va => bitsAt 41 37
  | .vb => bitsAt 46 42
  | .vc => bitsAt 51 47
  | .fmt => bitsAt 55 52
  | .fmt2 => bitsAt 59 56
  | .zm => bitsAt 62 62
  | .sc => bitsAt 63 63
  | .km => bitsAt 66 64
  | .kd => bitsAt 69 67
  | .cond1 => bitsAt 70 70
  | .cond3 => bitsAt 72 70
  | .imm5 => bitsAt 84 80
  | .imm2 => bitsAt 81 80
  | .imm8 => bitsAt 87 80
  | .imm32 => bitsAt 127 96
  | .off => bitsAt 150 128
  | .circ => bitsAt 151 151
  | .part => bitsAt 154 152
  | .ka => bitsAt 39 37
  | .kb => bitsAt 44 42

/-- Is every bit outside the header, RND and the named fields zero? RND is checked by VEC_FMT (R189). -/
def onlyFields (w : BitVec 256) (fs : List VF) : Bool :=
  w.toNat &&& (2 ^ 256 - 1 - (fs.foldl (fun m f => m ||| f.mask) (bitsAt 31 0 ||| bitsAt 61 60))) == 0

/-- A register instruction's checks: VEC_FMT 0x50, VEC_ARG 0x52, VEC_RSVD 0x53 (R189). `fmtOk` is its format rule. -/
def vecCheck (w : BitVec 256) (fmtOk argOk : Bool) (fs : List VF) : Option Nat :=
  if bf w 31 25 != 0 then some 0x40
  else if !fmtOk then some 0x50
  else if !argOk then some 0x52
  else if !onlyFields w fs then some 0x53
  else none

/-- Formats of arithmetic (R162). -/
def arithFmt (w : BitVec 256) : Bool := (vFmt w == 1 || vFmt w == 2 || vFmt w == 8) && vRnd w == 0

def fmtOf (w : BitVec 256) : Fmt := (fmtOfCode (vFmt w)).getD .fp32
def fmt2Of (w : BitVec 256) : Fmt := (fmtOfCode (vFmt2 w)).getD .fp32

/-! ## Registers and masks -/

/-- The element `e` of width `b` (R156). -/
def elemOf (b : Nat) (r : BitVec 8192) (e : Nat) : Nat := r.toNat >>> (b * e) % 2 ^ b

/-- A register made of elements of width `b`, element 0 lowest. -/
def regOf (b : Nat) (es : List Nat) : BitVec 8192 := BitVec.ofNat 8192 (es.foldr (fun e acc => e % 2 ^ b + acc * 2 ^ b) 0)

def regElems (b : Nat) (r : BitVec 8192) : List Nat := (List.range (8192 / b)).map (elemOf b r)

def Ve.reg (s : Ve) (i : Nat) : BitVec 8192 := (s.v[i]?).getD 0
def Ve.pois (s : Ve) (i : Nat) : BitVec 64 := (s.vp[i]?).getD 0

/-- A mask register; K0 always reads as all ones and is never poisoned (R158, R188). -/
def Ve.mask (s : Ve) (i : Nat) : BitVec 1024 := if i = 0 then BitVec.allOnes 1024 else (s.k[i]?).getD 0
def Ve.maskPois (s : Ve) (i : Nat) : BitVec 1024 := if i = 0 then 0 else (s.kp[i]?).getD 0

/-- The lane of element `e` of width `b`: lane `l` holds register bytes `16 l` to `16 l + 15` (R156). -/
def laneOf (b e : Nat) : Nat := b * e / 128

/-- Write a register and its lanes' poison. -/
def Ve.setReg (s : Ve) (i : Nat) (r : BitVec 8192) (p : BitVec 64) : Ve :=
  { s with v := s.v.setIfInBounds i r, vp := s.vp.setIfInBounds i p }

/-- Write a mask register; no instruction can name K0 (R158). -/
def Ve.setMask (s : Ve) (i : Nat) (m p : BitVec 1024) : Ve :=
  if i = 0 then s else { s with k := s.k.setIfInBounds i m, kp := s.kp.setIfInBounds i p }

/-! ## Flags and counts (R138, R171) -/

/-- What an instruction gathers: its flag word, the counts SAT, FLUSH and NAN, and whether a poisoned operand was
read. -/
structure Acc where
  flags : W32
  sat   : Nat
  flush : Nat
  nan   : Nat
  poison : Bool
  deriving DecidableEq, Repr

def Acc.zero : Acc := ⟨0, 0, 0, 0, false⟩

def flINV : W32 := 1
def flDZ : W32 := 2
def flOVF : W32 := 4
def flUNF : W32 := 8
def flINX : W32 := 16
def flSAT : W32 := 32
def flNANIN : W32 := 64
def flPOIS : W32 := 128

/-- One element's result: the code written, its flags, and what it counts. -/
structure Elem where
  code  : Nat
  flags : W32
  sat   : Bool
  flush : Bool
  nan   : Bool
  deriving DecidableEq, Repr

def fl (b : Bool) (f : W32) : W32 := if b then f else 0

/-- Is the written value other than the exact one? -/
def inexact (exact written : Val) : Bool :=
  match exact, written with
  | .fin .., .fin .. => match exact.add written.negate with
    | .zero _ => false
    | _ => true
  | .fin .., _ => true
  | _, _ => false

/-- Round an exact result once to FMT and form the element (R165, R171): `ins` are the operand values, `dz` a VRCP or
VRSQ of zero, `inv` an operation without a value. -/
def roundElem (f : Fmt) (ins : List Val) (dz : Bool) (v : Val) : Elem :=
  let nanin := ins.any (·.isNan)
  let finIn := ins.all fun i => !i.isNan && !i.isInf
  match f with
  | .fp32 =>
    let (c, fls) := round32 v
    let r := val32 c
    ⟨c.toNat, fl (v.isNan && !nanin) flINV ||| fl dz flDZ ||| fl (r.isInf && finIn && !v.isInf) flOVF ||| fl fls flUNF
      ||| fl (inexact v r) flINX ||| fl nanin flNANIN, false, fls, r.isNan⟩
  | f =>
    let c := convert f .rne v
    let r := decodeFloat f c.code
    ⟨c.code, fl (v.isNan && !nanin) flINV ||| fl dz flDZ ||| fl (r.isInf && finIn && !v.isInf) flOVF
      ||| fl (inexact v r) flINX ||| fl nanin flNANIN, false, false, r.isNan⟩

/-- Write a value exactly, for the operations that only select or change a sign (R165). -/
def exactElem (f : Fmt) (ins : List Val) (v : Val) : Elem :=
  let code := match f with
    | .fp32 => (exact32 v).toNat
    | f => (convert f .rne v).code
  ⟨code, fl (ins.any (·.isNan)) flNANIN, false, false, v.isNan⟩

/-- A 32-bit integer element: no flags, no counts. -/
def intElem (w : W32) : Elem := ⟨w.toNat, 0, false, false, false⟩

/-! ## Element-wise writing (R158, R188) -/

/-- What happens at one element position of a destination: kept, or written with a code and a poison marking. -/
structure Slot where
  code   : Option Nat
  poison : Bool
  deriving DecidableEq, Repr

/-- Gather an unmasked element: a poisoned one is not counted and sets POIS (R138, R171). -/
def Acc.add (a : Acc) (e : Elem) (p : Bool) : Acc :=
  if p then { a with flags := a.flags ||| e.flags ||| flPOIS, poison := true }
  else { a with flags := a.flags ||| e.flags, sat := a.sat + e.sat.toNat, flush := a.flush + e.flush.toNat,
                nan := a.nan + e.nan.toNat }

def Acc.sawPoison (a : Acc) : Acc := { a with flags := a.flags ||| flPOIS, poison := true }

/-- Write the slots of the elements from `base` on of width `b` into a register. A lane that is written whole from
unpoisoned sources loses its poison; a lane that is written in part keeps it (R188). -/
def writeSlots (b base : Nat) (old : BitVec 8192) (oldP : BitVec 64) (ss : List Slot) : BitVec 8192 × BitVec 64 :=
  let es := regElems b old
  let n := ss.length
  let es' := es.zipIdx.map fun (x, i) =>
    if base ≤ i ∧ i < base + n then ((ss.getD (i - base) ⟨none, false⟩).code).getD x else x
  let lane (l : Nat) : Bool :=
    let lo := l * 128 / b
    let cnt := 128 / b
    let mine := (List.range cnt).map fun j =>
      let i := lo + j
      if base ≤ i ∧ i < base + n then some (ss.getD (i - base) ⟨none, false⟩) else none
    let bad := mine.any fun o => match o with | some s => s.poison | none => false
    let whole := mine.all fun o => match o with | some s => s.code.isSome | none => false
    bad || (!whole && oldP.getLsbD l)
  (regOf b es', BitVec.ofNat 64 ((List.range 64).foldl (fun m l => m + (if lane l then 2 ^ l else 0)) 0))

/-- Apply an element function to the elements of width `b` of up to three sources under the governing mask. -/
def mapElems (s : Ve) (w : BitVec 256) (b : Nat) (srcs : List Nat) (f : List Nat → Elem) : Ve × Acc :=
  let km := s.mask (vKM w)
  let kp := s.maskPois (vKM w)
  let rs := srcs.map fun r => (s.reg r, s.pois r)
  let step := fun (acc : List Slot × Acc) (e : Nat) =>
    let (ss, a) := acc
    let mp := kp.getLsbD e
    let a := if mp then a.sawPoison else a
    if km.getLsbD e then
      let p := mp || rs.any fun (_, p) => p.getLsbD (laneOf b e)
      let r := f (rs.map fun (v, _) => elemOf b v e)
      (⟨some r.code, p⟩ :: ss, a.add r p)
    else (⟨if vZM w then some 0 else none, mp⟩ :: ss, a)
  let (ss, a) := (List.range (8192 / b)).foldl step ([], Acc.zero)
  let (r, p) := writeSlots b 0 (s.reg (vVD w)) (s.pois (vVD w)) ss.reverse
  (s.setReg (vVD w) r p, a)

/-- A floating-point element operation in FMT. -/
def floatOp (s : Ve) (w : BitVec 256) (srcs : List Nat) (f : Fmt → List Val → Elem) : Ve × Acc :=
  let fm := fmtOf w
  mapElems s w fm.bits srcs fun xs => f fm (xs.map (decodeFloat fm))

/-- A 32-bit integer element operation. -/
def intOp (s : Ve) (w : BitVec 256) (srcs : List Nat) (f : List W32 → W32) : Ve × Acc :=
  mapElems s w 32 srcs fun xs => intElem (f (xs.map (BitVec.ofNat 32)))

def v0 (vs : List Val) : Val := vs.getD 0 .nan
def v1 (vs : List Val) : Val := vs.getD 1 .nan
def v2 (vs : List Val) : Val := vs.getD 2 .nan
def i0 (xs : List W32) : W32 := xs.getD 0 0
def i1 (xs : List W32) : W32 := xs.getD 1 0

/-! ## Comparisons (R128, R164) -/

def floatCond (c : Nat) (a b : Val) : Bool :=
  let un := a.isNan || b.isNan
  match c with
  | 0 => !un && a.cmp b = .eq
  | 1 => un || a.cmp b ≠ .eq
  | 2 => !un && a.cmp b = .lt
  | 3 => !un && a.cmp b ≠ .gt
  | 4 => !un && a.cmp b = .gt
  | 5 => !un && a.cmp b ≠ .lt
  | 6 => un
  | _ => !un

def intCond (c : Nat) (a b : W32) : Bool :=
  match c with
  | 0 => a == b
  | 1 => a != b
  | 2 => a.ult b
  | 3 => a.ule b
  | 4 => a.slt b
  | 5 => a.sle b
  | 6 => b.ult a
  | _ => b.slt a

/-- Write mask KD from a comparison of the first `n` elements of width `b`: bits above are 0, masked-off elements give
0; a bit from a poisoned lane or under a poisoned governing bit is poisoned (R164, R188). -/
def cmpOp (s : Ve) (w : BitVec 256) (b : Nat) (f : Nat → Nat → Bool × W32) : Ve × Acc :=
  let n := 8192 / b
  let km := s.mask (vKM w)
  let kp := s.maskPois (vKM w)
  let step := fun (acc : Nat × Nat × Acc) (e : Nat) =>
    let (m, p, a) := acc
    let mp := kp.getLsbD e
    if km.getLsbD e then
      let bad := mp || (s.pois (vVA w)).getLsbD (laneOf b e) || (s.pois (vVB w)).getLsbD (laneOf b e)
      let (t, fw) := f (elemOf b (s.reg (vVA w)) e) (elemOf b (s.reg (vVB w)) e)
      (m + (if t then 2 ^ e else 0), p + (if bad then 2 ^ e else 0), a.add ⟨0, fw, false, false, false⟩ bad)
    else (m, p + (if mp then 2 ^ e else 0), if mp then a.sawPoison else a)
  let (m, p, a) := (List.range n).foldl step (0, 0, Acc.zero)
  (s.setMask (vKD w) (BitVec.ofNat 1024 m) (BitVec.ofNat 1024 p), a)

/-! ## Reductions (R165) -/

/-- One level of the fixed tree over present and absent positions. -/
def treeLevel {α : Type} (f : α → α → α) : List (Option α) → List (Option α)
  | [] => []
  | [x] => [x]
  | x :: y :: rest =>
    (match x, y with
      | some a, some b => some (f a b)
      | some a, none => some a
      | none, some b => some b
      | none, none => none) :: treeLevel f rest

def treeReduce {α : Type} (f : α → α → α) : Nat → List (Option α) → Option α
  | 0, xs => (xs.head?).join
  | fuel + 1, xs => match xs with
    | [] => none
    | [x] => x
    | xs => treeReduce f fuel (treeLevel f xs)

/-- A reduction: the result goes to element 0 of VD, the other bytes are zero; any poisoned lane
or poisoned governing bit poisons element 0 (R165, R188). -/
def reduceOp (s : Ve) (w : BitVec 256) (outBits : Nat) (red : Fmt → List (Option Val) → Elem) : Ve × Acc :=
  let fm := fmtOf w
  let b := fm.bits
  let km := s.mask (vKM w)
  let kp := s.maskPois (vKM w)
  let n := 8192 / b
  let src := s.reg (vVA w)
  let xs := (List.range n).map fun e =>
    if km.getLsbD e then some (decodeFloat fm (elemOf b src e)) else none
  let bad := s.pois (vVA w) != 0 || (List.range n).any fun e => kp.getLsbD e
  let r := red fm xs
  (s.setReg (vVD w) (BitVec.ofNat 8192 (r.code % 2 ^ outBits)) (if bad then 1 else 0), Acc.zero.add r bad)

/-- FP32 sums through the tree with what their roundings flagged (R165). -/
def sumNode (a b : W32 × W32) : W32 × W32 :=
  let v := (val32 a.1).add (val32 b.1)
  let e := roundElem .fp32 [val32 a.1, val32 b.1] false v
  (BitVec.ofNat 32 e.code, a.2 ||| b.2 ||| e.flags)

def rsumElem (xs : List (Option Val)) : Elem :=
  let nanin := xs.any fun o => match o with | some v => v.isNan | none => false
  match treeReduce sumNode 12 (xs.map fun o => o.map fun v => (exact32 v, (0 : W32))) with
  | none => ⟨0, 0, false, false, false⟩
  | some (c, fw) =>
    let fw := (fw &&& ~~~flNANIN) ||| fl nanin flNANIN
    ⟨c.toNat, fw, false, fw &&& flUNF != 0, (val32 c).isNan⟩

def rselElem (f : Fmt) (pick : Val → Val → Val) (empty : Val) (xs : List (Option Val)) : Elem :=
  let ins := xs.filterMap id
  exactElem f ins ((treeReduce pick 12 xs).getD empty)

/-! ## Conversion (R169) and pieces (R170) -/

def scaledSide (f : Fmt) (sc : Bool) : Bool := f == .f4e2 || ((f == .f8e4 || f == .f8e5) && sc)

/-- The rounding of element `e` of a VCVT: to nearest even, or stochastic with linear index `B + e` (R169, R174). -/
def vcvtRnd (s : Ve) (seed : W64) (step : Nat) (w : BitVec 256) (e : Nat) : Rnd :=
  if vRnd w == 1 then
    let vb := s.reg (vVB w)
    .sr (srWord seed step (vImm16 w % 256) (elemOf 32 vb 0 + elemOf 32 vb 1 * 2 ^ 32 + e))
  else .rne

/-- One block of 32 elements of a VCVT under its destination scale: converted codes and the scale written. A target
without a scale converts each element alone. -/
def vcvtBlock (f2 : Fmt) (dst : Option Nat) (xs : List (Rnd × Val)) : List Conv × Nat :=
  match dst with
  | some sc => convertBlock f2 sc xs
  | none => (xs.map fun (r, v) => convert f2 r v, 0)

/-- The flags and counts of one converted element (R134, R138, R171): those of its own conversion, whatever its block
makes of it. Under the NaN scale nothing is rounded (R135), and the scale is the NaN operand read (log entry 146). -/
def convElem (f : Fmt) (dst : Option Nat) (r : Rnd) (v : Val) (c : Conv) : Elem :=
  if dst == some 0xFF then { code := c.code, flags := flNANIN, sat := false, flush := false, nan := true }
  else
    let want := match dst with | some sc => v.scale (127 - (sc : Int)) | none => v
    let own := convert f r want
    let back := if f.isInt then decodeInt f own.code else decodeFloat f own.code
    { code := c.code,
      flags := fl (back.isInf && !v.isInf && !v.isNan) flOVF ||| fl (inexact want back) flINX ||| fl own.sat flSAT |||
        fl v.isNan flNANIN,
      sat := own.sat, flush := false, nan := c.nan || (f.special && back.isNan) }

def vcvtOp (s : Ve) (seed : W64) (step : Nat) (w : BitVec 256) : Ve × Acc :=
  let f1 := fmtOf w
  let f2 := fmt2Of w
  let b1 := f1.bits
  let b2 := f2.bits
  let base1 := if b1 == 32 then 0 else 256 * vPart w
  let base2 := if b2 == 32 then 0 else 256 * vPart w
  let s1 := scaledSide f1 (vSC w)
  let s2 := scaledSide f2 (vSC w)
  let vc := s.reg (vVC w)
  let dOff := if s1 && s2 then 8 else 0
  -- lane 0 of VC holds the scales, lane 0 of VB the base of the linear index
  let vcBad := ((s1 || s2) && (s.pois (vVC w)).getLsbD 0) || (vRnd w == 1 && (s.pois (vVB w)).getLsbD 0)
  let km := s.mask (vKM w)
  let kp := s.maskPois (vKM w)
  let src := s.reg (vVA w)
  let srcP := s.pois (vVA w)
  let gov := fun i => if b2 == 4 then (base2 + i) / 2 else base2 + i
  let block := fun q =>
    let idx := (List.range 32).map fun j => 32 * q + j
    let on := idx.filter fun i => km.getLsbD (gov i)
    let xs := on.map fun i =>
      (vcvtRnd s seed step w i,
        decodeScaled f1 (elemOf b1 src (base1 + i)) (if s1 then some (elemOf 8 vc q) else none))
    let dst := if s2 then some (elemOf 8 vc (dOff + q)) else none
    let (cs, sc) := vcvtBlock f2 dst xs
    let codes := on.zip (cs.zip xs)
    let slots := idx.map fun i =>
      let mp := kp.getLsbD (gov i)
      match codes.find? (fun t => t.1 == i) with
      | some (_, c, _) => Slot.mk (some c.code) (mp || vcBad || srcP.getLsbD (laneOf b1 (base1 + i)))
      | none => Slot.mk (if vZM w then some 0 else none) mp
    let elems := codes.map fun (i, c, rd, v) =>
      let p := kp.getLsbD (gov i) || vcBad || srcP.getLsbD (laneOf b1 (base1 + i))
      (convElem f2 dst rd v c, p)
    let mpAny := idx.any fun i => kp.getLsbD (gov i)
    (slots, elems, sc, mpAny)
  let bs := (List.range 8).map block
  let a := bs.foldl (fun a (_, es, _, mp) =>
    let a := es.foldl (fun a (e, p) => a.add e p) a
    if mp then a.sawPoison else a) Acc.zero
  let (r, p) := writeSlots b2 base2 (s.reg (vVD w)) (s.pois (vVD w)) (bs.flatMap fun (ss, _) => ss)
  let out := s.setReg (vVD w) r p
  if f2 == .f4e2 then
    -- final scale bytes go back into VC (R169)
    let vc' := out.reg (vVC w)
    let es := (regElems 8 vc').zipIdx.map fun (x, i) =>
      if dOff ≤ i ∧ i < dOff + 8 then ((bs.getD (i - dOff) ([], [], x, false)).2.2).1 else x
    let bad := bs.any fun (_, es, _, mp) => mp || es.any (·.2)
    (out.setReg (vVC w) (regOf 8 es) (out.pois (vVC w) ||| (if bad then 1 else 0)), a)
  else (out, a)

/-- The pieces of one FP32 element (R170): codes, and whether bits were dropped or cut off. -/
def pieces (x : Val) (np : Nat) : List Nat × Bool :=
  match x with
  | .nan => (0x7FC0 :: List.replicate (np - 1) 0, false)
  | .inf n => (withSign .bf16 n 0x7F80 :: List.replicate (np - 1) (withSign .bf16 n 0), false)
  | .zero n => (List.replicate np (withSign .bf16 n 0), false)
  | .fin n m e =>
    -- q is −126 for subnormals, which are not normalised here
    let q := max (flog2 m e) (-126)
    let s := shiftInt m (e - q + 23)
    let field := fun (k : Nat) => s / 2 ^ (16 - 8 * k) % 256
    let one := fun (k : Nat) =>
      let f := field k
      let u : Int := q - 7 - 8 * k
      -- truncate toward zero onto the grid of 2^−133
      let f' := if u < -133 then shiftInt f (u + 133) else f
      let u' := if u < -133 then (-133 : Int) else u
      (withSign .bf16 n (encodeMag .bf16 f' u'), decide (u < -133) && f' * 2 ^ (-133 - u).toNat != f)
    let ps := (List.range np).map one
    (ps.map (·.1), ps.any (·.2) || (np == 2 && field 2 != 0))

def vpextOp (s : Ve) (w : BitVec 256) : Ve × Acc :=
  let np := vImm16 w % 4
  let km := s.mask (vKM w)
  let kp := s.maskPois (vKM w)
  let src := s.reg (vVA w)
  let each := (List.range 256).map fun e =>
    let x := val32 (BitVec.ofNat 32 (elemOf 32 src e))
    let (ps, lost) := pieces x np
    let mp := kp.getLsbD e
    (km.getLsbD e, mp, mp || (s.pois (vVA w)).getLsbD (laneOf 32 e), ps,
      Elem.mk 0 (fl lost flINX ||| fl x.isNan flNANIN) false false x.isNan)
  let a := each.foldl (fun a (on, mp, p, _, el) =>
    let a := if mp then a.sawPoison else a
    if on then a.add el p else a) Acc.zero
  let out := (List.range np).foldl (fun (st : Ve) k =>
    let ss := each.map fun (on, mp, p, ps, _) =>
      if on then Slot.mk (some (ps.getD k 0)) p else Slot.mk (if vZM w then some 0 else none) mp
    let (r, pp) := writeSlots 16 (256 * vPart w) (st.reg (vVD w + k)) (st.pois (vVD w + k)) ss
    st.setReg (vVD w + k) r pp) s
  (out, a)

/-! ## Masks, flags, random words -/

/-- KOP (R164, R188): COND 0 to 4 form a mask, 5 takes it from VA bytes 0 to 127, 6 writes KA into VD bytes 0 to 127. -/
def kopOp (s : Ve) (w : BitVec 256) : Ve × Acc :=
  let ka := bf w 39 37
  let kb := bf w 44 42
  let ma := s.mask ka
  let mb := s.mask kb
  let pa := s.maskPois ka
  let pb := s.maskPois kb
  let pois (p : BitVec 1024) : Acc := if p = 0 then Acc.zero else Acc.zero.sawPoison
  match vCond w with
  | 0 => (s.setMask (vKD w) (ma &&& mb) (pa ||| pb), pois (pa ||| pb))
  | 1 => (s.setMask (vKD w) (ma ||| mb) (pa ||| pb), pois (pa ||| pb))
  | 2 => (s.setMask (vKD w) (ma ^^^ mb) (pa ||| pb), pois (pa ||| pb))
  | 3 => (s.setMask (vKD w) (ma &&& ~~~mb) (pa ||| pb), pois (pa ||| pb))
  | 4 => (s.setMask (vKD w) (~~~ma) pa, pois pa)
  | 5 =>
    let src := s.reg (vVA w)
    let p := BitVec.ofNat 1024 ((List.range 8).foldl (fun m l =>
      m + (if (s.pois (vVA w)).getLsbD l then (2 ^ 128 - 1) * 2 ^ (128 * l) else 0)) 0)
    (s.setMask (vKD w) (src.extractLsb' 0 1024) p, pois p)
  | _ =>
    let old := s.reg (vVD w)
    let r := BitVec.ofNat 8192 (old.toNat / 2 ^ 1024 * 2 ^ 1024 + ma.toNat)
    let oldP := s.pois (vVD w)
    let p := BitVec.ofNat 64 (oldP.toNat / 2 ^ 8 * 2 ^ 8 +
      (List.range 8).foldl (fun m l => m + (if pa.extractLsb' (128 * l) 128 = 0 then 0 else 2 ^ l)) 0)
    (s.setReg (vVD w) r p, pois pa)

/-- VFLAG (R172). -/
def vflagOp (s : Ve) (w : BitVec 256) : Ve :=
  let s' := s.setReg (vVD w) (BitVec.ofNat 8192 s.sticky.toNat) 0
  if vCond w % 2 == 1 then { s' with sticky := 0 } else s'

/-- VRNG (R175): the mask selects whole lanes: a lane is computed, and written whole, if any of its four
    mask bits is set (DEDUCED, log entry 143); one poisoned bit of the four poisons the lane (R188). -/
def vrngOp (s : Ve) (seed : W64) (w : BitVec 256) : Ve × Acc :=
  let src := s.reg (vVA w)
  let words := (List.range 64).flatMap fun l =>
    let ctr := BitVec.ofNat 128 (elemOf 128 src l % 2 ^ 120 + 0x03 * 2 ^ 120)
    let (a, b, c, d) := whisk seed ctr
    [a.toNat, b.toNat, c.toNat, d.toNat]
  let km := s.mask (vKM w)
  let kp := s.maskPois (vKM w)
  let step := fun (acc : List Slot × Acc) (ew : Nat × Nat) =>
    let (ss, a) := acc
    let (x, e) := ew
    let mp := kp.extractLsb' (4 * (e / 4)) 4 != 0#4
    let a := if mp then a.sawPoison else a
    if km.extractLsb' (4 * (e / 4)) 4 != 0#4 then
      let p := mp || (s.pois (vVA w)).getLsbD (laneOf 32 e)
      (Slot.mk (some x) p :: ss, a.add ⟨x, 0, false, false, false⟩ p)
    else (Slot.mk (if vZM w then some 0 else none) mp :: ss, a)
  let (ss, a) := words.zipIdx.foldl step ([], Acc.zero)
  let (r, p) := writeSlots 32 0 (s.reg (vVD w)) (s.pois (vVD w)) ss.reverse
  (s.setReg (vVD w) r p, a)

end Sys2Proof.Machine
end

