-- ==== Sys2Proof/Machine/TileOps.lean ====
section
/-!
DEFINITION. TileOps.lean: scratchpad access, shares, circular regions, and how an instruction's rows run slot by slot
(R90, R94, R102, R249, R253 to R261, R586).
-/

namespace Sys2Proof.Machine

/-- The part of a tile's scratchpad a tenant's programs may use: its share without the save area (R253, R254). -/
structure Share where
  lo : Nat
  hi : Nat
  deriving DecidableEq, Repr

/-- The share of a partition record (R253, R254). -/
def shareOf (first banks : Nat) : Share := ⟨first * 0x30000, (first + banks) * 0x30000 - 0x18000⟩

/-- Do `n` bytes from `off` lie in the share, and below 0x60_0000? -/
def inShare (sh : Share) (off n : Nat) : Bool :=
  decide (sh.lo ≤ off) && decide (off + n ≤ sh.hi) && decide (off + n ≤ 0x600000)

/-! ## Scratchpad -/

/-- Bytes of `[a, a + n)` and `[b, b + m)` meet. -/
def overlap (a n b m : Nat) : Bool := decide (a < b + m) && decide (b < a + n)

/-- Pitch of stationary rows of `n` elements of `b` bits (R99). -/
def statPitch (b n : Nat) : Nat := ceilDiv (n * b) 512 * 64

/-- Does a write touch the stationary or scale range that a held copy was loaded from (R101)? -/
def HeldW.touched (h : HeldW) (off n : Nat) : Bool :=
  let b := ((fmtOfCode h.fmt).map Fmt.bits).getD 16
  overlap off n h.wOff (h.k * statPitch b h.n) ||
    (h.bs && overlap off n h.wsOff (ceilDiv h.k 32 * (ceilDiv h.n 64 * 64)))

def Tile.read (t : Tile) (off n : Nat) : List Byte := readBytes t.mem off n

/-- Does a read meet an uncorrectable error (R248)? -/
def Tile.readUe (t : Tile) (off n : Nat) : Bool := t.flaws.any fun (w, ue) => ue && overlap off n (32 * w) 32

/-- Is what a read returns marked poisoned: by the line's poison bit, or by an uncorrectable error that it meets (R87, R249)? -/
def Tile.readBad (t : Tile) (off n : Nat) : Bool := prange t.poison off n || t.readUe off n

/-- Store bytes with their poison marking (R249). The words it covers whole hold no error any more; a copy of them in the array no
longer qualifies for KEEP_W (R101). -/
def Tile.write (t : Tile) (off : Nat) (bs : List Byte) (bad : Bool) : Tile :=
  let poison := pwrite t.poison off bs.length bad
  { t with mem := writeBytes t.mem off bs, poison := poison,
           flaws := t.flaws.filter fun (w, _) => !(decide (off ≤ 32 * w) && decide (32 * w + 32 ≤ off + bs.length)),
           ued := t.ued.filter poison.contains,
           held := t.held.map fun h => if h.touched off bs.length then { h with stale := true } else h }

/-- `n` packed elements of `b` bits at the start of some bytes (R99, R121). -/
def bitElems (bs : List Byte) (b n : Nat) : List Nat :=
  let x := leNat (bs.take (ceilDiv (n * b) 8))
  (List.range n).map fun i => x >>> (b * i) % 2 ^ b

/-- `n` packed elements of `b` bits from byte `off`. -/
def Tile.elems (t : Tile) (off b n : Nat) : List Nat := bitElems (t.read off (ceilDiv (n * b) 8)) b n

/-- Elements packed into bytes, `b` bits each. -/
def packElems (b : Nat) (es : List Nat) : List Byte :=
  leBytes (ceilDiv (es.length * b) 8) (es.foldr (fun e acc => e % 2 ^ b + acc * 2 ^ b) 0)

/-- Add to a launch's counts (R139). -/
def Tile.count (t : Tile) (sat flush nan : Nat) : Tile :=
  { t with prog := t.prog.map fun p => { p with sat := satAdd32 p.sat sat, flush := satAdd32 p.flush flush,
                                                nan := satAdd32 p.nan nan } }

/-- Codes under which a result was written poisoned (R396). -/
def poisonCode (c : Nat) : Bool := [0x4A, 0x56, 0x65, 0x66, 0x77, 0x96, 0x97, 0x98, 0xB3].contains c

/-- Note a code of the class ERROR: the first of each sort is what the command reports (R396), and each code is entered
once for an instruction (R484, R485), with the session of the first row that met it (R199). -/
def Prog.noteFor (p : Prog) (code : Nat) (session : Option Nat) : Prog :=
  { p with err := if p.err = 0 && !poisonCode code then code else p.err,
           pois := if p.pois = 0 && poisonCode code then code else p.pois,
           notes := if p.notes.any (·.1 == code) then p.notes else p.notes ++ [(code, session)] }

def Prog.note (p : Prog) (code : Nat) : Prog := p.noteFor code none

/-- Note an error of the instruction that runs. -/
def Tile.noteErr (t : Tile) (code : Nat) (bad : Bool) : Tile :=
  if bad then { t with prog := t.prog.map fun p => p.note code } else t

/-- The same of a row of a session. -/
def Tile.noteRow (t : Tile) (code session : Nat) : Tile :=
  { t with prog := t.prog.map fun p => p.noteFor code (some session) }

/-! ## Regions (R256 to R261) -/

def Tile.region (t : Tile) (desc : Nat) : Option Region := t.regions.find? (·.desc == desc)

def Tile.updRegion (t : Tile) (desc : Nat) (f : Region → Region) : Tile :=
  { t with regions := t.regions.map fun r => if r.desc == desc then f r else r }

def Region.full (r : Region) (slot : Nat) : Bool := r.tags.getD slot false

/-- Mark a slot full by the producer or empty by the consumer (R259), advancing tail or head. -/
def Region.mark (r : Region) (slot : Nat) (full : Bool) : Region :=
  if full then { r with tags := r.tags.set slot true, tail := (r.tail + 1) % r.slots, tails := (r.tails + 1) % 2 ^ 32 }
  else { r with tags := r.tags.set slot false, head := (r.head + 1) % r.slots, heads := (r.heads + 1) % 2 ^ 32 }

/-- The address of byte `off` of a slot. -/
def Region.slotAddr (r : Region) (slot : Nat) : Nat := r.base + slot * r.slotBytes

/-- Claim `n` slots of the consumer's or producer's side (R258). -/
def Region.claim (r : Region) (cons : Bool) (n : Nat) : Region :=
  if cons then { r with claimC := (r.claimC + n) % r.slots } else { r with claimP := (r.claimP + n) % r.slots }

def Region.claimed (r : Region) (cons : Bool) : Nat := if cons then r.claimC else r.claimP

/-- The region descriptor at `off`, checked against R256; INIT slots start full (R260). -/
def openRegion (t : Tile) (tenant : Nat) (sh : Share) (off : Nat) : Option Region :=
  let bs := t.read off 64
  let base := fieldAt bs 0 4
  let sb := fieldAt bs 4 4
  let slots := fieldAt bs 8 2
  let init := fieldAt bs 0x0A 2
  let prod := fieldAt bs 0x0C 1
  let cons := fieldAt bs 0x0D 1
  let pt := fieldAt bs 0x0E 1
  let ct := fieldAt bs 0x0F 1
  let side := fun (c tile : Nat) => Side.mk (c % 8) (c / 8 % 8) tile
  let ok := decide (base % 64 = 0) && decide (base < 2 ^ 23) && decide (sb % 64 = 0) && decide (64 ≤ sb)
    && decide (sb ≤ 0x400000) && decide (3 ≤ slots) && decide (slots ≤ 1024) && decide (init ≤ slots)
    && decide (prod < 64) && decide (cons < 64) && decide (prod % 8 < 5) && decide (cons % 8 < 5) && (cons % 8 != 3)
    && ((prod % 8 == 2) || pt == 0) && ((cons % 8 == 2) || ct == 0) && decide (pt < 128) && decide (ct < 128)
    && fieldAt bs 0x18 40 == 0 && inShare sh base (slots * sb)
  if ok then
    some { desc := off, tenant := tenant, base := base, slotBytes := sb, slots := slots, prod := side prod pt,
           cons := side cons ct, tags := (List.range slots).map (· < init), head := 0, tail := init % slots,
           claimC := 0, claimP := init % slots, heads := 0, tails := 0 }
  else none

/-! ## Rows through slots (R102, R258, R586) -/

/-- One side of an instruction's rows: a plain run of rows at a pitch, or a region with a number of rows to a slot. -/
inductive RowSide where
  | absent
  | plain (off pitch : Nat)
  | circ (desc pitch rows : Nat)
  deriving DecidableEq, Repr

/-- Where row `m` of a side lies. -/
def RowSide.addr (s : RowSide) (t : Tile) (first m : Nat) : Nat :=
  match s with
  | .absent => 0
  | .plain off pitch => off + m * pitch
  | .circ desc pitch rows =>
    match t.region desc with
    | some r => r.slotAddr ((first + m / rows) % r.slots) + m % rows * pitch
    | none => 0

/-- Slots that `m` rows of a side use. -/
def RowSide.slots (s : RowSide) (m : Nat) : Nat :=
  match s with
  | .circ _ _ rows => ceilDiv m rows
  | _ => 0

/-- Is the slot of row `m` in the state the side waits for: full to read, empty to write (R259)? -/
def RowSide.ready (s : RowSide) (t : Tile) (first m : Nat) (cons : Bool) : Bool :=
  match s with
  | .circ desc _ rows =>
    match t.region desc with
    | some r => r.full ((first + m / rows) % r.slots) == cons
    | none => false
  | _ => true

/-- Mark the slots whose last row lies in `[m, m')`, where `last` says that row `m' − 1` is the instruction's last. -/
def RowSide.finish (s : RowSide) (t : Tile) (first m m' : Nat) (last cons : Bool) : Tile :=
  match s with
  | .circ desc _ rows =>
    let ends := (List.range (m' - m)).filterMap fun i =>
      let q := m + i
      if (q + 1) % rows == 0 || (last && q + 1 == m') then some (q / rows) else none
    ends.foldl (fun t k => t.updRegion desc fun r => r.mark ((first + k) % r.slots) (!cons)) t
  | _ => t

/-- What a row-by-row instruction is: its sides, its rows, how many rows it takes at a time, the work of one unit of
rows (first row and their number), and its last act; `ahead` is how many rows' input it needs before it does row `m`. -/
structure RowJob where
  inp   : RowSide
  out   : RowSide
  rows  : Nat
  unit  : Nat
  ahead : Nat → Nat := fun _ => 0

/-- Do the rows `[m, m + k)` lie in slots that the region has at once? -/
def RowSide.fits (s : RowSide) (t : Tile) (m k : Nat) : Bool :=
  match s with
  | .circ desc _ rows => ((t.region desc).map fun r => decide ((m + k - 1) / rows - m / rows < r.slots)).getD false
  | _ => true

/-- Run an instruction's rows from `m` on until they are done or a slot is not in its state (R82, R102, R259). The
second component is the row it waits at, `none` when all are done. -/
def runRows (j : RowJob) (inS outS : Nat) (work : Tile → Nat → Nat → Tile) : Nat → Tile → Nat → Tile × Option Nat
  | 0, t, m => (t, some m)
  | fuel + 1, t, m =>
    if j.rows ≤ m then (t, none)
    else
      let n := min j.unit (j.rows - m)
      let k := max n (j.ahead m)
      let ready := j.inp.fits t m k && ((List.range k).all fun i => j.inp.ready t inS (m + i) true) &&
        (List.range n).all fun i => j.out.ready t outS (m + i) false
      if ready then
        let t := work t m n
        let last := decide (j.rows ≤ m + n)
        let t := j.inp.finish t inS m (m + n) last true
        let t := j.out.finish t outS m (m + n) last false
        runRows j inS outS work fuel t (m + n)
      else (t, some m)

/-- Claim the slots of a side at issue (R258). -/
def claimSide (t : Tile) (s : RowSide) (m : Nat) (cons : Bool) : Tile × Nat :=
  match s with
  | .circ desc _ _ =>
    match t.region desc with
    | some r => (t.updRegion desc fun r => r.claim cons (s.slots m), r.claimed cons)
    | none => (t, 0)
  | _ => (t, 0)

/-- Is the region of a side open, of class TILE on that side, and with room for a row in a slot? The answer is the
violation: XF_RGN when the region is not open or the side is not the tile's, `code` when a slot is too small. -/
def sideCheck (t : Tile) (tenant : Nat) (s : RowSide) (cons : Bool) (code : Nat) : Option Nat :=
  match s with
  | .circ desc pitch rows =>
    match t.region desc with
    | none => some 0x74
    | some r =>
      if r.tenant != tenant then some 0x74
      else if (if cons then r.cons.cls else r.prod.cls) != 0 then some 0x74
      else if rows == 0 || decide (r.slotBytes < rows * pitch) then some code
      else none
  | _ => none

end Sys2Proof.Machine
end

