-- ==== Sys2Proof/Machine/QuantOps.lean ====
section
/-!
DEFINITION. QuantOps.lean: memory and stream instructions of the vector engine: VLD, VST, VTOPK, VSAMPLE, QSTAT and
QCONV (R164, R176 to R187, R586).
-/

namespace Sys2Proof.Machine

/-- An input element of a stream instruction: BF16 or FP32 (R177). -/
def inFmt (c : Nat) : Fmt := if c == 1 then .bf16 else .fp32
def inFmtOk (c : Nat) : Bool := c == 1 || c == 8
def inBytes (c : Nat) : Nat := if c == 1 then 2 else 4

/-- A row of input values. -/
def inRow (t : Tile) (fmt addr n : Nat) : List Val :=
  (t.elems addr (inFmt fmt).bits n).map (decodeFloat (inFmt fmt))

/-- OR a flag word into the sticky flag word (R172). -/
def Tile.orFlags (t : Tile) (f : W32) : Tile := { t with ve := { t.ve with sticky := t.ve.sticky ||| f } }

/-- Check a 64-byte aligned range of the share: the violation VEC_ADDR. -/
def vecRange (sh : Share) (off n : Nat) (aligned : Bool) : Option (Nat × Nat) :=
  if (aligned && off % 64 != 0) || !inShare sh off n then some (0x51, off) else none

def guardCode (b : Bool) (code addr : Nat) : Option (Nat × Nat) := if b then some (code, addr) else none

/-! ## VLD and VST (R164) -/

/-- Checks of VLD and VST: VEC_ADDR for alignment, share and slot offset; VEC_RSVD. -/
def memCheck (t : Tile) (tenant : Nat) (sh : Share) (w : BitVec 256) (load : Bool) : Option (Nat × Nat) :=
  let off := vOff w
  let fs : List VF := [if load then .vd else .va, .off, .circ] ++ (if vCirc w then [.imm32, .cond1] else [])
  (([guardCode (bf w 31 25 != 0) 0x40 0,
    guardCode (vRnd w != 0) 0x50 0,
    (if vCirc w then
      (guardCode (off % 64 != 0 || !inShare sh off 64 || vImm32 w % 64 != 0) 0x51 off).or
      (match t.region off with
        | none => some (0x74, off)
        | some r =>
          if r.tenant != tenant || (if load then r.cons.cls else r.prod.cls) != 0 then some (0x74, off)
          else guardCode (decide (r.slotBytes < vImm32 w + 1024)) 0x51 off)
     else vecRange sh off 1024 true),
    guardCode (!onlyFields w fs) 0x53 0]).filterMap id).head?

/-- Load or store the 1 KiB at an address. -/
def vldAt (t : Tile) (w : BitVec 256) (addr : Nat) : Tile :=
  let r := BitVec.ofNat 8192 (leNat (t.read addr 1024))
  let p := BitVec.ofNat 64 ((List.range 64).foldl (fun m l => m + (if t.readBad (addr + 16 * l) 16 then 2 ^ l else 0)) 0)
  let t := { t with ve := t.ve.setReg (vVD w) r p }
  if p = 0 then t else (t.noteErr 0x56 true).orFlags flPOIS

def vstAt (t : Tile) (w : BitVec 256) (addr : Nat) : Tile :=
  let r := t.ve.reg (vVA w)
  let p := t.ve.pois (vVA w)
  -- each line takes the poison of its four lanes (R188, R249)
  let t' := (List.range 16).foldl (fun t i =>
    t.write (addr + 64 * i) (leBytes 64 (r.toNat >>> (512 * i))) (p.toNat >>> (4 * i) % 16 != 0)) t
  if p = 0 then t' else (t'.noteErr 0x56 true).orFlags flPOIS

/-- VLD or VST at slot `slot` of its region, or at its plain offset. The third component is the wait. -/
def memRun (t : Tile) (w : BitVec 256) (load : Bool) (slot : Nat) : Tile × Option Nat :=
  let act := if load then vldAt else vstAt
  if vCirc w then
    match t.region (vOff w) with
    | none => (t, some 0)
    | some r =>
      if r.full slot == load then
        let t := act t w (r.slotAddr slot + vImm32 w)
        (if vCond w % 2 == 1 then t.updRegion (vOff w) (·.mark slot (!load)) else t, none)
      else (t, some 0)
  else (act t w (vOff w), none)

/-! ## Ranking (R176) -/

/-- Does `(a, i)` rank above `(b, j)`? -/
def ranksAbove (a : Val) (i : Nat) (b : Val) (j : Nat) : Bool :=
  match a.isNan, b.isNan with
  | true, true => decide (i < j)
  | true, false => true
  | false, true => false
  | false, false =>
    match a.cmp b with
    | .gt => true
    | .lt => false
    | .eq => decide (i < j)

/-- Insert into a list in rank order. -/
def rankInsert (a : Val) (i : Nat) : List (Val × Nat) → List (Val × Nat)
  | [] => [(a, i)]
  | (b, j) :: rest => if ranksAbove a i b j then (a, i) :: (b, j) :: rest else (b, j) :: rankInsert a i rest

/-- The `k` highest-ranked values with their indices, in rank order. -/
def topRank (k : Nat) (xs : List Val) : List (Val × Nat) :=
  xs.zipIdx.foldl (fun acc (v, i) => (rankInsert v i acc).take k) []

/-! ## VTOPK (R177) -/

structure TopkArgs where
  fmt : Nat
  k : Nat
  e : Nat
  m : Nat
  inOff : Nat
  inCirc : Bool
  pitch : Nat
  idx : Nat
  val : Nat
  deriving DecidableEq, Repr

def topkArgs (w : BitVec 256) : TopkArgs :=
  { fmt := bf w 35 32, k := bf w 39 36 + 1, e := bf w 49 40 + 1, m := bf w 79 64, inOff := bf w 118 96,
    inCirc := bf w 119 119 == 1, pitch := bf w 135 120 * 64, idx := bf w 158 136, val := bf w 182 160 }

def rowsPerSlot (t : Tile) (desc pitch : Nat) : Nat :=
  match t.region desc with
  | some r => if pitch = 0 then 0 else r.slotBytes / pitch
  | none => 1

def streamSide (t : Tile) (circ : Bool) (off pitch : Nat) : RowSide :=
  if circ then .circ off pitch (rowsPerSlot t off pitch) else .plain off pitch

def topkCheck (t : Tile) (tenant : Nat) (sh : Share) (w : BitVec 256) : Option (Nat × Nat) :=
  let a := topkArgs w
  firstSomeQ [
    guardCode (bf w 31 25 != 0) 0x40 0,
    guardCode (!inFmtOk a.fmt) 0x50 0,
    guardCode (a.inOff % 64 != 0 || (if a.inCirc then !inShare sh a.inOff 64
      else !inShare sh a.inOff ((a.m - 1) * a.pitch + a.e * inBytes a.fmt))) 0x51 a.inOff,
    vecRange sh a.idx ((a.m - 1) * 32 + 2 * a.k) false,
    vecRange sh a.val ((a.m - 1) * 64 + 4 * a.k) false,
    guardCode (decide (a.pitch < a.e * inBytes a.fmt)) 0x51 0,
    (sideCheck t tenant (streamSide t a.inCirc a.inOff a.pitch) true 0x51).map (·, a.inOff),
    guardCode (bf w 63 50 + bf w 95 80 + bf w 159 159 + bf w 255 183 != 0) 0x53 0,
    guardCode (a.m == 0) 0x54 0,
    guardCode (decide (a.e < a.k)) 0x55 0]
where
  firstSomeQ (xs : List (Option (Nat × Nat))) : Option (Nat × Nat) := (xs.filterMap id).head?

def topkRow (a : TopkArgs) (t : Tile) (m inA : Nat) : Tile :=
  let bad := t.readBad inA (a.e * inBytes a.fmt)
  let top := topRank a.k (inRow t a.fmt inA a.e)
  let t := t.write (a.idx + 32 * m) (top.flatMap fun (_, i) => leBytes 2 i) bad
  let t := t.write (a.val + 64 * m) (top.flatMap fun (v, _) => leBytes 4 (exact32 v).toNat) bad
  let nans := (top.filter fun (v, _) => v.isNan).length
  if bad then (t.noteErr 0x56 true).orFlags flPOIS
  else (t.count 0 0 nans).orFlags (fl (nans != 0) flNANIN)

def topkRun (t : Tile) (w : BitVec 256) (inS m : Nat) : Tile × Option Nat :=
  let a := topkArgs w
  let side := streamSide t a.inCirc a.inOff a.pitch
  runRows { inp := side, out := .absent, rows := a.m, unit := 1 } inS 0
    (fun t m _ => topkRow a t m (side.addr t inS m)) (a.m + 1) t m

/-! ## VSAMPLE (R178, R179) -/

structure SampArgs where
  fmt : Nat
  v : Nat
  m : Nat
  inOff : Nat
  pitch : Nat
  par : Nat
  tok : Nat
  deriving DecidableEq, Repr

def sampArgs (w : BitVec 256) : SampArgs :=
  { fmt := bf w 35 32, v := bf w 53 36 + 1, m := bf w 79 64, inOff := bf w 118 96, pitch := bf w 143 128 * 64,
    par := bf w 166 144, tok := bf w 190 168 }

def sampCheck (sh : Share) (w : BitVec 256) : Option (Nat × Nat) :=
  let a := sampArgs w
  (([guardCode (bf w 31 25 != 0) 0x40 0,
    guardCode (!inFmtOk a.fmt) 0x50 0,
    vecRange sh a.inOff ((a.m - 1) * a.pitch + a.v * inBytes a.fmt) true,
    vecRange sh a.par (a.m * 32) false,
    vecRange sh a.tok (a.m * 4) false,
    guardCode (decide (a.pitch < a.v * inBytes a.fmt)) 0x51 0,
    guardCode (bf w 63 54 + bf w 95 80 + bf w 127 119 + bf w 167 167 + bf w 255 191 != 0) 0x53 0,
    guardCode (a.m == 0) 0x54 0,
    guardCode (decide (262144 < a.v)) 0x55 0]).filterMap id).head?

/-- FP32 subtraction with RNE and flush. -/
def sub32 (a b : W32) : W32 × Bool := round32 ((val32 a).add (val32 b).negate)

/-- An FP32 result and the flags gathered on its path (R171). -/
def ops32 (ins : List W32) (v : Val) (g : W32) : W32 × W32 :=
  let x := roundElem .fp32 (ins.map val32) false v
  (BitVec.ofNat 32 x.code, g ||| x.flags)

def addF (a b : W32) (g : W32) : W32 × W32 := ops32 [a, b] ((val32 a).add (val32 b)) g
def subF (a b : W32) (g : W32) : W32 × W32 := ops32 [a, b] ((val32 a).add (val32 b).negate) g
def mulF (a b : W32) (g : W32) : W32 × W32 := ops32 [a, b] ((val32 a).mul (val32 b)) g

/-- The running sums of R179 step 6: `s` is the sum within the block, `pre` the total of the blocks before it. -/
def sampSums (pre : Option W32) (s : Option W32) (k : Nat) (g : W32) : List W32 → List W32 × W32
  | [] => ([], g)
  | w :: ws =>
    let (s1, g1) := match s with
      | none => (w, g)
      | some x => addF x w g
    let (big, g2) := match pre with
      | none => (s1, g1)
      | some b => addF b s1 g1
    let (pre', s', k') := if k = 63 then (some big, none, 0) else (pre, some s1, k + 1)
    let (rest, g3) := sampSums pre' s' k' g2 ws
    (big :: rest, g3)

/-- The token of one row (R179) and its flags, those of the operations on its path included (log entry 144). -/
def sampleToken (xs : List Val) (par : List Byte) : Nat × W32 :=
  let temp := val32 (BitVec.ofNat 32 (fieldAt par 0 4))
  let topk := fieldAt par 4 2
  let toppW := BitVec.ofNat 32 (fieldAt par 8 4)
  let topp := val32 toppW
  let one : Val := .fin false 1 0
  let tempZero := match temp with | .zero _ => true | _ => false
  let toppOk := match topp with
    | .fin false _ _ => topp.cmp one ≠ .gt
    | _ => false
  let bad := temp.isNan || temp.isInf || (temp.neg && !tempZero) || !toppOk || (topk == 0 && topp.cmp one ≠ .eq)
    || decide (1024 < topk) || fieldAt par 6 2 != 0 || fieldAt par 0x1E 2 / 2 ^ 13 != 0
  if bad then (0xFFFFFFFE, flINV)
  else if xs.any (·.isNan) then (0xFFFFFFFF, flNANIN)
  else
    let first := ((topRank 1 xs).head?.map (·.2)).getD 0
    if xs.any (· == .inf false) || tempZero || topk == 1 then (first, 0)
    else
      let v := xs.length
      let cand : List (Val × Nat) := if topk = 0 then xs.zipIdx else topRank (min topk v) xs
      let lmax := exact32 (xs.getD first .nan)
      let tempW := BitVec.ofNat 32 (fieldAt par 0 4)
      let inv := ops32 [tempW] (rcpExact temp) 0
      let ws := cand.map fun (l, _) =>
        let d := subF (exact32 l) lmax 0
        let z := mulF d.1 inv.1 d.2
        ops32 [z.1] (expExact (val32 z.1)) z.2
      let (ss, f1) := sampSums none none 0 (ws.foldl (fun g x => g ||| x.2) inv.2) (ws.map (·.1))
      let full := ss.getLastD 0
      let cut := mulF toppW full 0
      let keptN := if topp.cmp one = .lt then
          match ss.findIdx? fun s => (val32 s).ge (val32 cut.1) with
          | some j => j + 1
          | none => ss.length
        else ss.length
      let total := ss.getD (keptN - 1) 0
      let f2 := f1 ||| (if topp.cmp one = .lt then cut.2 else 0)
      if (match val32 total with | .zero _ => true | _ => false) then ((cand.head?.map (·.2)).getD 0, f2)
      else
        let u := (whisk (BitVec.ofNat 64 (fieldAt par 0x10 8))
          (sampleCounter (fieldAt par 0x18 6) (fieldAt par 0x0C 4) (fieldAt par 0x1E 2))).1
        let t := ops32 [total] ((Val.ofScaled (u.toNat / 2 ^ 8) (-24)).mul (val32 total)) f2
        let kept := ss.take keptN
        let j := (kept.findIdx? fun s => (val32 s).gt (val32 t.1)).getD (keptN - 1)
        (((cand[j]?).map (·.2)).getD 0, t.2)

def sampRun (t : Tile) (w : BitVec 256) : Tile :=
  let a := sampArgs w
  (List.range a.m).foldl (fun t m =>
    let inA := a.inOff + m * a.pitch
    let bad := t.readBad inA (a.v * inBytes a.fmt) || t.readBad (a.par + 32 * m) 32
    let (tok, fw) := sampleToken (inRow t a.fmt inA a.v) (t.read (a.par + 32 * m) 32)
    let t := t.write (a.tok + 4 * m) (leBytes 4 tok) bad
    if bad then (t.noteErr 0x56 true).orFlags flPOIS
    else (t.count 0 (fw &&& flUNF != 0).toNat (if tok == 0xFFFFFFFF then 1 else 0)).orFlags fw) t

/-! ## Scales (R183) -/

/-- F_max of a target format (R183). -/
def fMax : Fmt → Nat
  | .f8e4 => 240
  | .f8e5 => 57344
  | .f4e2 => 6
  | .int8 => 127
  | .int4 => 7
  | _ => 1

/-- The smallest `e` with `a ≤ F_max × 2^e`, searched upward from a lower bound. -/
def scaleExp (a : Val) (fm : Nat) : Nat → Int → Int
  | 0, e => e
  | fuel + 1, e => if a.cmp (.fin false fm e) = .gt then scaleExp a fm fuel (e + 1) else e

/-- The scale byte of a group maximum (R183). -/
def scaleOf (f : Fmt) (a : Val) : Nat :=
  match a with
  | .nan => 0x7F
  | .zero _ => 0x7F
  | .inf _ => 0xFE
  | .fin _ m x =>
    let e := scaleExp a (fMax f) 40 (flog2 m x - flog2 (fMax f) 0 - 2)
    (127 + max (-127) (min 127 e)).toNat

/-- The maximum of absolute values (R128). -/
def absMax (a x : Val) : Val := a.max x.abs

/-! ## QSTAT (R180 to R182) -/

structure StatArgs where
  fmt : Nat
  mode : Nat
  m : Nat
  c : Nat
  inOff : Nat
  inCirc : Bool
  pitch : Nat
  rec_ : Nat
  deriving DecidableEq, Repr

def statArgs (w : BitVec 256) : StatArgs :=
  { fmt := bf w 35 32, mode := bf w 37 36, m := bf w 79 64, c := bf w 94 80, inOff := bf w 118 96,
    inCirc := bf w 119 119 == 1, pitch := bf w 143 128 * 64, rec_ := bf w 166 144 }

/-- Bytes of a statistics record of `c` channels (R180). -/
def recBytes (c : Nat) : Nat := 0xC0 + 4 * c + ceilDiv c 64 * 64

def recFmt (code : Nat) : Option Fmt := if 3 ≤ code ∧ code ≤ 7 then fmtOfCode code else none

def statCheck (t : Tile) (tenant : Nat) (sh : Share) (w : BitVec 256) : Option (Nat × Nat) :=
  let a := statArgs w
  let gather := decide (a.mode < 2)
  let r := t.read a.rec_ 0x40
  (([guardCode (bf w 31 25 != 0) 0x40 0,
    guardCode (!inFmtOk a.fmt) 0x50 0,
    vecRange sh a.rec_ (recBytes a.c) true,
    (if gather then guardCode (a.inOff % 64 != 0 || (if a.inCirc then !inShare sh a.inOff 64
        else !inShare sh a.inOff ((a.m - 1) * a.pitch + a.c * inBytes a.fmt))) 0x51 a.inOff
     else if a.mode == 3 then vecRange sh a.inOff (recBytes a.c) true else none),
    guardCode (gather && decide (a.pitch < a.c * inBytes a.fmt)) 0x51 0,
    (if gather then (sideCheck t tenant (streamSide t a.inCirc a.inOff a.pitch) true 0x51).map (·, a.inOff) else none),
    guardCode (bf w 63 38 + bf w 95 95 + bf w 127 120 + bf w 255 167 != 0) 0x53 0,
    guardCode (a.c == 0 || decide (16384 < a.c) || (gather && a.m == 0)) 0x54 0,
    guardCode (a.mode != 0 && fieldAt r 0 4 != a.c) 0x54 a.rec_,
    guardCode (a.mode == 3 && fieldAt (t.read a.inOff 4) 0 4 != a.c) 0x54 a.inOff,
    guardCode (a.mode == 2 && (decide (64 < fieldAt r 0x0C 1) || (recFmt (fieldAt r 0x0D 1)).isNone)) 0x54 a.rec_]
    ).filterMap id).head?

/-- The CHMAX words of a record. -/
def chMax (t : Tile) (rec_ c : Nat) : List W32 :=
  (List.range c).map fun i => BitVec.ofNat 32 (leNat (t.read (rec_ + 0xC0 + 4 * i) 4))

/-- Write what a gathering mode writes: C, ROWS, L, TSCALE, TMAX and STATE zero, LIST unused, CHMAX (R181). -/
def statWrite (t : Tile) (rec_ c rows : Nat) (ch : List W32) (bad : Bool) : Tile :=
  let t := t.write rec_ (leBytes 4 c ++ leBytes 4 rows) bad
  let t := t.write (rec_ + 0x0E) (leBytes 7 0) bad
  let t := t.write (rec_ + 0x40) (List.replicate 128 0xFF) bad
  t.write (rec_ + 0xC0) (ch.flatMap fun x => leBytes 4 x.toNat) bad

/-- Take rows into the gathered maxima. -/
def statRow (a : StatArgs) (t : Tile) (inA : Nat) : Tile :=
  let bad := t.readBad inA (a.c * inBytes a.fmt)
  let xs := inRow t a.fmt inA a.c
  let t := { t with acc := List.zipWith (fun m x => exact32 (absMax (val32 m) x)) t.acc xs, accBad := t.accBad || bad }
  t.orFlags (fl (xs.any (·.isNan)) flNANIN)

/-- The flag of a NaN among CHMAX words that are read (R171). -/
def chNan (ch : List W32) : W32 := fl (ch.any fun x => (val32 x).isNan) flNANIN

/-- Begin a gathering: GATHER_NEW reads none of the record's contents; GATHER starts from its CHMAX (R181, R188). -/
def statBegin (t : Tile) (w : BitVec 256) : Tile :=
  let a := statArgs w
  if a.mode == 0 then { t with acc := List.replicate a.c 0, accBad := false }
  else
    let ch := chMax t a.rec_ a.c
    ({ t with acc := ch, accBad := t.readBad a.rec_ (recBytes a.c) } : Tile).orFlags (chNan ch)

def statRun (t : Tile) (w : BitVec 256) (inS m : Nat) : Tile × Option Nat :=
  let a := statArgs w
  let side := streamSide t a.inCirc a.inOff a.pitch
  let (t, wt) := runRows { inp := side, out := .absent, rows := a.m, unit := 1 } inS 0
    (fun t m _ => statRow a t (side.addr t inS m)) (a.m + 1) t m
  match wt with
  | some r => (t, some r)
  | none =>
    let old := if a.mode == 0 then 0 else fieldAt (t.read (a.rec_ + 4) 4) 0 4
    let t' := statWrite t a.rec_ a.c (min (old + a.m) 0xFFFFFFFF) t.acc t.accBad
    let t' := if t.accBad then (t'.noteErr 0x56 true).orFlags flPOIS
              else t'.count 0 0 (t.acc.filter fun x => (val32 x).isNan).length
    ({ t' with acc := [], accBad := false }, none)

/-- MERGE (R181): the maxima and rows of a second record. -/
def statMerge (t : Tile) (w : BitVec 256) : Tile :=
  let a := statArgs w
  let bad := t.readBad a.rec_ (recBytes a.c) || t.readBad a.inOff (recBytes a.c)
  let ch := List.zipWith (fun x y => exact32 (absMax (val32 x) (val32 y))) (chMax t a.rec_ a.c) (chMax t a.inOff a.c)
  let rows := fieldAt (t.read (a.rec_ + 4) 4) 0 4 + fieldAt (t.read (a.inOff + 4) 4) 0 4
  let t' := statWrite t a.rec_ a.c (min rows 0xFFFFFFFF) ch bad
  if bad then (t'.noteErr 0x56 true).orFlags flPOIS
  else (t'.count 0 0 (ch.filter fun x => (val32 x).isNan).length).orFlags (chNan ch)

/-- Insert a number into a rising list. -/
def insertNat (x : Nat) : List Nat → List Nat
  | [] => [x]
  | y :: ys => if x ≤ y then x :: y :: ys else y :: insertNat x ys

/-- FINISH (R182). -/
def statFinish (t : Tile) (w : BitVec 256) : Tile :=
  let a := statArgs w
  let bad := t.readBad a.rec_ (recBytes a.c)
  let r := t.read a.rec_ 0x40
  let f := (recFmt (fieldAt r 0x0D 1)).getD .f8e4
  let minabs := val32 (BitVec.ofNat 32 (fieldAt r 8 4))
  let words := chMax t a.rec_ a.c
  let ch := words.map val32
  let elig := ch.zipIdx.filter fun (v, _) =>
    v.isNan || (!minabs.isNan && v.cmp minabs ≠ .lt)
  let top := elig.foldl (fun acc (v, i) => (rankInsert v i acc).take (fieldAt r 0x0C 1)) []
  let sel := top.foldl (fun acc (_, i) => insertNat i acc) []
  let tmax := ch.zipIdx.foldl (fun m (v, i) => if sel.contains i then m else absMax m v) (.zero false)
  let list := sel ++ List.replicate (64 - sel.length) 0xFFFF
  let t' := t.write (a.rec_ + 0x0E)
    (leBytes 1 sel.length ++ leBytes 1 (scaleOf f tmax) ++ leBytes 4 (exact32 tmax).toNat ++ leBytes 1 1) bad
  let t' := t'.write (a.rec_ + 0x40) (list.flatMap fun i => leBytes 2 i) bad
  let t' := t'.write (a.rec_ + 0xC0 + 4 * a.c) (ch.map fun v => BitVec.ofNat 8 (scaleOf f v)) bad
  if bad then (t'.noteErr 0x56 true).orFlags flPOIS
  else (t'.count 0 0 (if tmax.isNan then 1 else 0)).orFlags (chNan words)

/-! ## QCONV (R184 to R186) -/

structure QcArgs where
  fmtIn : Nat
  fmt : Nat
  gran : Nat
  lay : Nat
  scl : Nat
  rnd : Nat
  m : Nat
  c : Nat
  salt : Nat
  useRec : Bool
  inOff : Nat
  inCirc : Bool
  inPitch : Nat
  outOff : Nat
  outCirc : Bool
  outPitch : Nat
  aux : Nat
  sOff : Nat
  xOff : Nat
  deriving DecidableEq, Repr

def qcArgs (w : BitVec 256) : QcArgs :=
  { fmtIn := bf w 35 32, fmt := bf w 39 36, gran := bf w 42 40, lay := bf w 43 43, scl := bf w 45 44, rnd := bf w 47 46,
    m := bf w 63 48, c := bf w 78 64, salt := bf w 87 80, useRec := bf w 88 88 == 1, inOff := bf w 118 96,
    inCirc := bf w 119 119 == 1, inPitch := bf w 143 128 * 64, outOff := bf w 166 144, outCirc := bf w 167 167 == 1,
    outPitch := bf w 183 168 * 8, aux := bf w 206 184, sOff := bf w 230 208, xOff := bf w 254 232 }

def QcArgs.f (a : QcArgs) : Fmt := (recFmt a.fmt).getD .f8e4

/-- The output row pitch: OUT_PITCH, or the stationary row pitch of R99. -/
def QcArgs.pitch (a : QcArgs) : Nat := if a.lay == 0 then a.outPitch else statPitch a.f.bits a.c

/-- Bytes of one output row with its scale bytes (R185). -/
def QcArgs.outBytes (a : QcArgs) : Nat :=
  ceilDiv (a.c * a.f.bits) 8 + (if a.lay == 0 && a.scl == 0 then ceilDiv a.c 32 else 0)

/-- Number of groups (R185). -/
def QcArgs.groups (a : QcArgs) : Nat :=
  match a.gran with
  | 0 => 1
  | 1 => a.m
  | 2 => a.m * ceilDiv a.c 32
  | 3 => a.c
  | _ => ceilDiv a.m 32 * a.c

/-- Bytes written at S_OFF (R185). -/
def QcArgs.sBytes (a : QcArgs) : Nat :=
  if a.scl == 1 then a.groups
  else if a.scl == 0 && a.lay == 1 then ceilDiv a.m 32 * (ceilDiv a.c 64 * 64) else 0

def qcCombo (a : QcArgs) : Bool :=
  let f := a.fmt
  ((a.gran == 0) || (a.gran == 1 && a.lay == 0) || (a.gran == 2 && a.lay == 0) || (a.gran == 3 && a.lay == 1)
    || (a.gran == 4 && a.lay == 1))
    && a.scl != 3 && (a.scl != 0 || f == 3 || f == 4 || f == 6) && (a.scl == 0 || f != 6)
    && (a.scl != 2 || a.gran == 0)
    && (a.useRec || !(a.gran == 3 || (a.gran == 0 && a.scl != 2) || a.rnd == 1))

def qcCheck (t : Tile) (tenant : Nat) (sh : Share) (w : BitVec 256) : Option (Nat × Nat) :=
  let a := qcArgs w
  let inNeed := a.c * inBytes a.fmtIn
  (([guardCode (bf w 31 25 != 0) 0x40 0,
    guardCode (!inFmtOk a.fmtIn || (recFmt a.fmt).isNone || decide (1 < a.rnd)) 0x50 0,
    guardCode (a.inOff % 64 != 0 || (if a.inCirc then !inShare sh a.inOff 64
      else !inShare sh a.inOff ((a.m - 1) * a.inPitch + inNeed))) 0x51 a.inOff,
    guardCode (a.outOff % 64 != 0 || (if a.outCirc then !inShare sh a.outOff 64
      else !inShare sh a.outOff ((a.m - 1) * a.pitch + a.outBytes))) 0x51 a.outOff,
    guardCode (a.aux % 64 != 0 || (a.useRec && !inShare sh a.aux (recBytes a.c))) 0x51 a.aux,
    guardCode (a.sOff % 64 != 0 || (a.sBytes != 0 && !inShare sh a.sOff a.sBytes)) 0x51 a.sOff,
    guardCode (a.xOff % 64 != 0) 0x51 a.xOff,
    guardCode (decide (a.inPitch < inNeed) || (a.lay == 0 && decide (a.outPitch < a.outBytes))) 0x51 0,
    (sideCheck t tenant (streamSide t a.inCirc a.inOff a.inPitch) true 0x51).map (·, a.inOff),
    (sideCheck t tenant (streamSide t a.outCirc a.outOff a.pitch) false 0x51).map (·, a.outOff),
    guardCode (bf w 79 79 + bf w 95 89 + bf w 127 120 + bf w 207 207 + bf w 231 231 + bf w 255 255
      + (if a.lay == 1 then a.outPitch else 0) != 0) 0x53 0,
    guardCode (a.m == 0 || a.c == 0 || decide (16384 < a.c) || (a.lay == 1 && decide (256 < a.c)) || !qcCombo a) 0x54 0,
    (if a.useRec then
      let r := t.read a.aux 0x40
      (guardCode (fieldAt r 0x14 1 != 1 || fieldAt r 0 4 != a.c || fieldAt r 0x0D 1 != a.fmt) 0x54 a.aux).or
        (guardCode (a.lay == 0 && fieldAt r 0x0E 1 != 0 && !inShare sh a.xOff (256 * a.m)) 0x51 a.xOff)
     else none)]).filterMap id).head?

/-- What QCONV reads of the record: LIST, IDXBASE, TSCALE, CHSCALE, and whether it is poisoned. -/
structure QcRec where
  list : List Nat
  base : Nat
  tscale : Nat
  chscale : List Nat
  bad : Bool
  deriving DecidableEq, Repr

def qcRec (t : Tile) (a : QcArgs) : QcRec :=
  if a.useRec then
    let r := t.read a.aux 0xC0
    { list := (List.range (min 64 (fieldAt r 0x0E 1))).map fun i => fieldAt r (0x40 + 2 * i) 2,
      base := fieldAt r 0x18 8, tscale := if a.scl == 2 then 0x7F else fieldAt r 0x0F 1,
      chscale := (t.read (a.aux + 0xC0 + 4 * a.c) a.c).map (·.toNat), bad := t.readBad a.aux (recBytes a.c) }
  else { list := [], base := 0, tscale := 0x7F, chscale := [], bad := false }

/-- Convert one row in blocks of 32 columns (LAY = 0), each under its scale; listed channels are +0 (R186), in an F4E2
block under the NaN scale NaN like every element of it (R138). The answer is the elements with their flags and counts, and the
scale byte of each block. -/
def qcBlocks (a : QcArgs) (r : QcRec) (rnd : Nat → Rnd) (scale : Nat → Nat) (xs : List Val) :
    List Elem × List Nat :=
  let blocks := (List.range (ceilDiv a.c 32)).map fun j =>
    let idx := (List.range (min 32 (a.c - 32 * j))).map (· + 32 * j)
    let on := idx.filter fun c => !r.list.contains c
    let (cs, s) := convertBlock a.f (scale j) (on.map fun c => (rnd c, xs.getD c .nan))
    let pairs : List (Nat × Elem) := on.zip (List.zipWith (fun c x => convElem a.f (some (scale j)) (rnd c) (xs.getD c .nan) x) on cs)
    (idx.map fun c => ((pairs.find? fun (p : Nat × Elem) => p.1 == c).map fun (p : Nat × Elem) => p.2).getD
      (Elem.mk 0 0 false false (a.f == Fmt.f4e2 && s == 0xFF)), s)
  (blocks.flatMap (·.1), blocks.map (·.2))

/-- Count converted elements and OR their flags (R138, R172). -/
def Tile.tally (t : Tile) (es : List Elem) : Tile :=
  (t.count (es.filter (·.sat)).length 0 (es.filter (·.nan)).length).orFlags (es.foldl (fun g e => g ||| e.flags) 0)

def qcRnd (t : Tile) (a : QcArgs) (r : QcRec) (m c : Nat) : Rnd :=
  if a.rnd == 1 then
    let (seed, step) := match t.prog with
      | some p => (p.seed, p.step)
      | none => (0, 0)
    .sr (srWord seed step a.salt (r.base + m * a.c + c))
  else .rne

/-- The maximum of a group, the record's LIST excluded (R185). -/
def groupMax (r : QcRec) (lay : Nat) (xs : List (Val × Nat)) : Val :=
  xs.foldl (fun m (v, c) => if lay == 0 && r.list.contains c then m else absMax m v) (.zero false)

/-- QCONV of one row in activation layout (R185, R186). -/
def qcRow (a : QcArgs) (t : Tile) (m inA outA : Nat) : Tile :=
  let r := qcRec t a
  let bad := r.bad || t.readBad inA (a.c * inBytes a.fmtIn)
  let xs := inRow t a.fmtIn inA a.c
  let xi := xs.zipIdx
  let rowScale := scaleOf a.f (groupMax r 0 xi)
  let scale := fun j => match a.gran with
    | 0 => r.tscale
    | 1 => rowScale
    | _ => scaleOf a.f (groupMax r 0 ((xi.drop (32 * j)).take 32))
  let (cs, ss) := qcBlocks a r (qcRnd t a r m) scale xs
  let body := packElems a.f.bits (cs.map (·.code)) ++ (if a.scl == 0 then ss.map (BitVec.ofNat 8) else [])
  -- the side row of the listed channels (R186)
  let side := r.list.map fun c =>
    let v := xs.getD c (.zero false)
    convElem .bf16 none (qcRnd t a r m c) v (convert .bf16 (qcRnd t a r m c) v)
  let sideBytes := (List.range 4).flatMap fun q =>
    ((List.range 16).flatMap fun i => leBytes 2 (((side[16 * q + i]?).map (·.code)).getD 0)) ++ List.replicate 32 0
  let t := t.write outA body bad
  let t := if a.useRec && !r.list.isEmpty then t.write (a.xOff + 256 * m) sideBytes bad else t
  let nj := ceilDiv a.c 32
  let t := if a.scl == 1 then
      match a.gran with
      | 0 => if m = 0 then t.write a.sOff [BitVec.ofNat 8 r.tscale] r.bad else t
      | 1 => t.write (a.sOff + m) [BitVec.ofNat 8 rowScale] bad
      | _ => t.write (a.sOff + m * nj) ((List.range nj).map fun j => BitVec.ofNat 8 (scale j)) bad
    else t
  if bad then (t.noteErr 0x56 true).orFlags flPOIS
  else t.tally (cs ++ side)

/-- Does QCONV in stationary layout read the 32 rows of a block before it writes the first: for a scale of its own, or because one NaN
makes all of an F4E2 block NaN (R135, R185)? -/
def QcArgs.twoPass (a : QcArgs) : Bool := a.lay == 1 && (a.gran == 4 || a.f == Fmt.f4e2)

/-- Rows of the block of 32 that row `m` lies in. -/
def QcArgs.blockRows (a : QcArgs) (m : Nat) : Nat := min 32 (a.m - m / 32 * 32)

/-- The first pass over a block of 32 rows from row `m` on: its column maxima, NaN where a column holds one. -/
def qcPass (a : QcArgs) (t : Tile) (m : Nat) (inA : Nat → Nat) : Tile :=
  let ms := (List.range (a.blockRows m)).map (· + m)
  { t with
    acc := (ms.foldl (fun acc r => List.zipWith absMax acc (inRow t a.fmtIn (inA r) a.c)) (List.replicate a.c (.zero false))).map exact32,
    accBad := ms.any fun r => t.readBad (inA r) (a.c * inBytes a.fmtIn) }

/-- QCONV of row `m` in stationary layout: the 32 rows of a column block share a scale (R99, R185), and what a first pass has
found of them stands in `acc`. -/
def qcColumns (a : QcArgs) (t : Tile) (m : Nat) (inA : Nat → Nat) (outA : Nat) : Tile :=
  let r := qcRec t a
  let t := if m % 32 = 0 then (if a.twoPass then qcPass a t m inA else { t with acc := [], accBad := false }) else t
  let blockBad := r.bad || t.accBad
  let bad := blockBad || (!a.twoPass && t.readBad (inA m) (a.c * inBytes a.fmtIn))
  let cols := (inRow t a.fmtIn (inA m) a.c).zipIdx.map fun (v, c) =>
    let top := val32 (t.acc.getD c 0)
    let s := match a.gran with
      | 0 => r.tscale
      | 3 => r.chscale.getD c 0x7F
      | _ => scaleOf a.f top
    let rd := qcRnd t a r m c
    let (cs, sw) := convertBlock a.f s [(rd, v)]
    let nan := a.f == Fmt.f4e2 && top.isNan
    let x : Conv := if nan then ⟨0, false, true⟩ else cs.headD ⟨0, false, false⟩
    (convElem a.f (some s) rd v x, s, if nan then 0xFF else sw)
  let t := t.write outA (packElems a.f.bits (cols.map (·.1.code))) bad
  let scales (xs : List Nat) (off : Nat) : Tile := t.write off (xs.map (BitVec.ofNat 8)) blockBad
  let t := if m % 32 ≠ 0 then t
    else if a.scl == 0 then scales (cols.map (·.2.2)) (a.sOff + m / 32 * (ceilDiv a.c 64 * 64))
    else if a.scl == 1 then
      match a.gran with
      | 0 => if m = 0 then t.write a.sOff [BitVec.ofNat 8 r.tscale] r.bad else t
      | 3 => if m = 0 then t.write a.sOff (cols.map fun (_, s, _) => BitVec.ofNat 8 s) r.bad else t
      | _ => scales (cols.map (·.2.1)) (a.sOff + m / 32 * a.c)
    else t
  let t := if a.m ≤ m + 1 then { t with acc := [], accBad := false } else t
  if bad then (t.noteErr 0x56 true).orFlags flPOIS else t.tally (cols.map (·.1))

def qcRun (t : Tile) (w : BitVec 256) (inS outS m : Nat) : Tile × Option Nat :=
  let a := qcArgs w
  let inp := streamSide t a.inCirc a.inOff a.inPitch
  let out := streamSide t a.outCirc a.outOff a.pitch
  let work := fun (t : Tile) (m _n : Nat) =>
    if a.lay == 0 then qcRow a t m (inp.addr t inS m) (out.addr t outS m)
    else qcColumns a t m (inp.addr t inS) (out.addr t outS m)
  runRows { inp := inp, out := out, rows := a.m, unit := 1, ahead := fun m => if a.twoPass && m % 32 == 0 then a.blockRows m else 0 }
    inS outS work (a.m + 1) t m

end Sys2Proof.Machine
end

