-- ==== Sys2Proof/Machine/AttnOps.lean ====
section
/-!
DEFINITION. AttnOps.lean: the attention pipeline: ATTN, ATTN.MERGE and the page walker (R190 to R215, R219 to R223).
-/

namespace Sys2Proof.Machine

structure AtArgs where
  dsel : Nat
  g : Nat
  fmtKv : Nat
  fmtO : Nat
  final : Bool
  causal : Bool
  winEn : Bool
  globEn : Bool
  stIn : Bool
  qCirc : Bool
  oCirc : Bool
  head : Nat
  m : Nat
  win : Nat
  scale : W32
  qOff : Nat
  h : Nat
  oOff : Nat
  rec_ : Nat
  ring : Nat
  deriving DecidableEq, Repr

def atArgs (w : BitVec 256) : AtArgs :=
  { dsel := bf w 34 32, g := bf w 39 36 + 1, fmtKv := bf w 43 40, fmtO := bf w 47 44, final := bf w 48 48 == 1,
    causal := bf w 49 49 == 1, winEn := bf w 50 50 == 1, globEn := bf w 51 51 == 1, stIn := bf w 52 52 == 1,
    qCirc := bf w 53 53 == 1, oCirc := bf w 54 54 == 1, head := bf w 61 56, m := bf w 79 64, win := bf w 95 80 + 1,
    scale := BitVec.ofNat 32 (bf w 127 96), qOff := bf w 150 128, h := bf w 157 152 + 1, oOff := bf w 182 160,
    rec_ := bf w 206 184, ring := bf w 230 208 }

def AtArgs.d (a : AtArgs) : Nat := dimOf a.dsel
def AtArgs.qp (a : AtArgs) : Nat := ceilDiv (a.g * a.d * 2) 64 * 64
def AtArgs.ss (a : AtArgs) : Nat := ceilDiv (16 + 4 * a.d) 64 * 64
def AtArgs.outFmt (a : AtArgs) : Fmt := if a.fmtO == 1 then .bf16 else .fp32
def AtArgs.op (a : AtArgs) : Nat :=
  if a.final then ceilDiv (a.g * a.d * a.outFmt.bits / 8) 64 * 64 else a.g * a.ss
/-- Bits of a key or value element, and the extra bytes of an F8E4 section (R192). -/
def kvBits (fmt : Nat) : Nat := if fmt == 1 then 16 else 8
def kvExtra (fmt : Nat) : Nat := if fmt == 1 then 0 else 64
def kvFmt (fmt : Nat) : Fmt := if fmt == 1 then .bf16 else .f8e4
/-- Bytes of a key-ring slot's group (R194). -/
def AtArgs.sg (a : AtArgs) : Nat := 32 * a.d * kvBits a.fmtKv / 8 + kvExtra a.fmtKv
def AtArgs.rowBytes (a : AtArgs) : Nat := a.d * kvBits a.fmtKv / 8

/-- A row record (R199). -/
structure RowRec where
  qpos : Nat
  klen : Nat
  kstart : Nat
  session : Nat
  flags : Nat
  gcount : Nat
  dir : Nat
  glist : Nat
  selfKv : Nat
  globals : List Nat
  bad : Bool
  invalid : Bool
  deriving DecidableEq, Repr

def RowRec.valid (r : RowRec) : Bool := r.flags % 2 == 1
def RowRec.self (r : RowRec) : Bool := r.flags / 2 % 2 == 1

def strictlyRising : List Nat → Bool
  | [] => true
  | [_] => true
  | a :: b :: rest => decide (a < b) && strictlyRising (b :: rest)

/-- Read and check the row record of row `m` (R199). -/
def rowRec (t : Tile) (sh : Share) (a : AtArgs) (m : Nat) : RowRec :=
  let off := a.rec_ + 32 * m
  let b := t.read off 32
  let qpos := fieldAt b 0 4
  let klen := fieldAt b 4 4
  let kstart := fieldAt b 8 4
  let flags := fieldAt b 0x0E 1
  let gcount := fieldAt b 0x0F 1
  let dir := fieldAt b 0x10 8
  let glist := fieldAt b 0x18 4
  let selfKv := fieldAt b 0x1C 4
  let self := flags / 2 % 2 == 1
  let globals := if gcount ≤ 64 then (List.range gcount).map fun i => leNat (t.read (glist + 4 * i) 4) else []
  let ok := decide (qpos < 2 ^ 21) && decide (klen ≤ 2 ^ 21) && decide (kstart ≤ klen)
    && decide (fieldAt b 0x0C 2 < 2 ^ 13) && decide (flags < 4) && decide (gcount ≤ 64) && decide (dir < 2 ^ 40)
    && (if gcount = 0 then glist == 0 else glist % 64 == 0 && inShare sh glist (4 * gcount))
    && (if self then selfKv % 64 == 0 && inShare sh selfKv (2 * a.rowBytes + kvExtra a.fmtKv) else selfKv == 0)
    && strictlyRising globals && globals.all (fun p => decide (p < 2 ^ 21)) && !(self && decide (qpos + 1 < klen))
  let bad := t.readBad off 32 || (decide (gcount ≠ 0) && t.readBad glist (4 * gcount))
  { qpos, klen, kstart, session := fieldAt b 0x0C 2 % 2 ^ 13, flags, gcount, dir, glist, selfKv, globals, bad,
    invalid := flags % 2 == 1 && !ok }

/-- Does position `p` have a source: pages, or the self key (R204 condition 1)? -/
def RowRec.fromPage (r : RowRec) (p : Nat) : Bool := decide (r.kstart ≤ p) && decide (p < r.klen)
def RowRec.isSelf (r : RowRec) (p : Nat) : Bool := r.self && p == r.qpos && decide (r.kstart ≤ r.qpos)

/-- Is key position `p` present for the row (R204)? -/
def present (a : AtArgs) (r : RowRec) (p : Nat) : Bool :=
  (r.fromPage p || r.isSelf p)
    && (!a.causal || decide (p ≤ r.qpos))
    && ((!a.winEn && !a.globEn)
      || (a.winEn && decide ((if a.causal then r.qpos - p else if p ≤ r.qpos then r.qpos - p else p - r.qpos) < a.win))
      || (a.globEn && r.globals.contains p))

/-- The present positions of group `i`. -/
def groupKeys (a : AtArgs) (r : RowRec) (i : Nat) : List Nat := ((List.range 16).map (· + 16 * i)).filter (present a r)

/-- Is group `i` fetched: some present position of some row comes from a page and is not the self key (R195, R200)? -/
def needsFetch (a : AtArgs) (rs : List RowRec) (i : Nat) : Bool :=
  rs.any fun r => (groupKeys a r i).any fun p => r.fromPage p && !r.isSelf p

/-- The groups a row block takes, rising. -/
def blockGroups (a : AtArgs) (rs : List RowRec) : List Nat :=
  let top := rs.foldl (fun m r => max m (max r.klen (if r.self then r.qpos + 1 else 0))) 0
  (List.range (ceilDiv top 16)).filter fun i => rs.any fun r => !(groupKeys a r i).isEmpty

/-! ## Arithmetic (R205 to R207) -/

/-- e(x): +0 below −87 or at −∞, otherwise VEXP (R205). -/
def attE (x : W32) : W32 :=
  match val32 x with
  | .inf true => 0
  | v => if !v.isNan && v.cmp (.fin true 87 0) = .lt then 0 else (exp32 x).1

def negInf : W32 := 0xFF800000

def max32 (a b : W32) : W32 := exact32 ((val32 a).max (val32 b))

/-- A key of a group as the compute path sees it: place in the group, key and value elements at their scaled values,
poison, and whether its position has no page. -/
structure GKey where
  place : Nat
  k : List Val
  v : List Val
  bad : Bool
  np : Bool
  deriving DecidableEq, Repr

/-- Elements of a row of keys or values under their scale (R192, R205). -/
def kvVals (fmt : Nat) (es : List Nat) (scale : Nat) : List Val :=
  es.map fun e => decodeScaled (kvFmt fmt) e (if fmt == 1 then none else some scale)

/-- The sum of the weights through the fixed tree of places (R206). -/
def weightSum (ws : List (Nat × W32)) : W32 × Bool :=
  let xs := (List.range 16).map fun p => (ws.find? (·.1 == p)).map fun x => (x.2, false)
  (treeReduce (fun a b => let r := add32 a.1 b.1; (r.1, a.2 || b.2 || r.2)) 5 xs).getD (0, false)

/-- Take one group's keys into a row-head's running state (R205). What it counts as flushed is the list of R208 and no more: a score,
a term of the sum, the sum, a chunk sum, an output (log entry 169). -/
def takeGroup (scale : W32) (d : Nat) (st : RowHead) (keys : List GKey) : RowHead :=
  let q := st.q.map (decodeFloat .bf16)
  let scored := keys.map fun k =>
    let s := dotOutput false 1 [q] [k.k] none
    let z := mul32 s.1 scale
    (k, z.1, s.2 || z.2)
  let fz := scored.any (·.2.2)
  let kept := scored.filter fun (_, z, _) => z ≠ negInf
  let bad := st.bad || keys.any (·.bad)
  let np := st.np || keys.any (·.np)
  match kept with
  | [] => { st with bad := bad, np := np, fl := st.fl || fz }
  | (_, z0, _) :: rest =>
    let g := rest.foldl (fun m (_, z, _) => max32 m z) z0
    let first := st.m == negInf
    let mn := if first then g else max32 st.m g
    let ws := kept.map fun (k, z, _) => (k, attE (sub32 z mn).1)
    let t := weightSum (ws.map fun (k, w) => (k.place, w))
    let pv := (List.range d).map fun c => chunkSum (ws.map fun (k, w) => (val32 w).mul (k.v.getD c .nan))
    if first then
      { st with m := mn, l := t.1, o := pv.map (·.1), bad := bad, np := np, fl := st.fl || fz || t.2,
                flo := List.zipWith (fun a b => a || b.2) st.flo pv }
    else
      let a := attE (sub32 st.m mn).1
      let la := mul32 st.l a
      let l := add32 la.1 t.1
      let oc := List.zipWith (fun o p => let x := mul32 o a; let y := add32 x.1 p.1; (y.1, x.2 || y.2 || p.2)) st.o pv
      { st with m := mn, l := l.1, o := oc.map (·.1), bad := bad, np := np, fl := st.fl || fz || t.2 || la.2 || l.2,
                flo := List.zipWith (fun a b => a || b.2) st.flo oc }

def RowHead.empty (d : Nat) : RowHead :=
  { q := [], m := negInf, l := 0, o := List.replicate d 0, bad := false, np := false, fl := false, flo := List.replicate d false }

/-- A state record as bytes (R203). -/
def RowHead.bytes (r : RowHead) (ss : Nat) : List Byte :=
  let b := leBytes 4 r.m.toNat ++ leBytes 4 r.l.toNat ++ leBytes 8 0 ++ r.o.flatMap (fun x => leBytes 4 x.toNat)
  b ++ List.replicate (ss - b.length) 0

def readState (t : Tile) (d off : Nat) : RowHead :=
  let w := fun o => BitVec.ofNat 32 (leNat (t.read (off + o) 4))
  { RowHead.empty d with m := w 0, l := w 4, o := (List.range d).map fun c => w (16 + 4 * c), bad := t.readBad off (16 + 4 * d) }

/-- The outputs of a row-head with FINAL = 1: codes with FLUSH and NAN (R207, R208). -/
def finalOut (f : Fmt) (r : RowHead) : List (Nat × Bool × Bool) :=
  if r.m == negInf then r.o.map fun _ => (0, false, false)
  else
    let rc := rcp32 r.l
    List.zipWith (fun o fo =>
      let x := mul32 o rc.1
      let code := match f with
        | .fp32 => x.1.toNat
        | f => (convert f .rne (val32 x.1)).code
      (code, r.fl || fo || x.2, (decodeFloat f code).isNan)) r.o r.flo

/-- Write the heads of one row: outputs with FINAL = 1, else state records (R198, R207, R214). A row that only lacks a page is
poisoned without a poisoned operand (R215). -/
def writeRow (a : AtArgs) (t : Tile) (session : Option Nat) (outA : Nat) (hs : List RowHead) : Tile :=
  hs.zipIdx.foldl (fun t (r, i) =>
    let t := if !r.bad then t else match session with
      | some n => t.noteRow 0x66 n
      | none => t.noteErr 0x66 true
    let bad := r.bad || r.np
    if a.final then
      let os := finalOut a.outFmt r
      let t := t.write (outA + i * (a.d * a.outFmt.bits / 8)) (packElems a.outFmt.bits (os.map (·.1))) bad
      if bad then t else t.count 0 (os.filter (·.2.1)).length (os.filter (·.2.2)).length
    else t.write (outA + i * a.ss) ((r.bytes a.ss).take (16 + 4 * a.d)) bad) t

/-! ## Checks (R215) -/

def atReserved (w : BitVec 256) : Nat :=
  bf w 35 35 + bf w 55 55 + bf w 63 62 + bf w 151 151 + bf w 159 158 + bf w 183 183 + bf w 207 207 + bf w 255 231

def atInSide (t : Tile) (a : AtArgs) : RowSide := streamSide t a.qCirc a.qOff a.qp
def atOutSide (t : Tile) (a : AtArgs) : RowSide := streamSide t a.oCirc a.oOff a.op

def atRange (sh : Share) (off n : Nat) : Option (Nat × Nat) :=
  if off % 64 != 0 || !inShare sh off n then some (0x61, off) else none

def attnCheck (t : Tile) (tenant : Nat) (sh : Share) (w : BitVec 256) : Option (Nat × Nat) :=
  let a := atArgs w
  let specialScale := let v := val32 a.scale; v.isNan || v.isInf
  (([guardCode (bf w 31 25 != 0) 0x40 0,
    guardCode (decide (4 < a.dsel) || !(a.fmtKv == 1 || a.fmtKv == 3)
      || !(if a.final then a.fmtO == 1 || a.fmtO == 8 else a.fmtO == 0) || decide (a.h ≤ a.head) || a.m == 0
      || (!a.winEn && a.win != 1) || specialScale || (a.stIn && a.oCirc)) 0x60 0,
    (if a.qCirc then atRange sh a.qOff 64 else atRange sh a.qOff (a.m * a.qp)),
    (if a.oCirc then atRange sh a.oOff 64 else atRange sh a.oOff (a.m * a.op)),
    (if a.stIn then atRange sh a.oOff (a.m * a.g * a.ss) else none),
    atRange sh a.rec_ (32 * a.m),
    atRange sh a.ring 64,
    (sideCheck t tenant (atInSide t a) true 0x61).map (·, a.qOff),
    (sideCheck t tenant (atOutSide t a) false 0x61).map (·, a.oOff),
    (match t.region a.ring with
      | none => some (0x74, a.ring)
      | some r =>
        if r.tenant != tenant || r.prod.cls != 3 || r.cons.cls != 0 then some (0x74, a.ring)
        else guardCode (decide (r.slotBytes < a.sg) || decide (r.slots < 3)) 0x61 a.ring),
    guardCode (atReserved w != 0) 0x62 0]).filterMap id).head?

/-! ## Row blocks (R201, R202) -/

/-- Rows a block may hold. -/
def blockLimit (a : AtArgs) : Nat := max 1 ((if a.d ≤ 128 then 64 else 32) / a.g)

/-- Rows of the block that starts at valid row `m`: consecutive valid rows with equal DIR and KSTART. -/
def blockRows (t : Tile) (sh : Share) (a : AtArgs) (r0 : RowRec) (m : Nat) : Nat → Nat
  | 0 => 0
  | n + 1 =>
    if a.m ≤ m then 0
    else
      let r := rowRec t sh a m
      if r.valid && !r.invalid && r.dir == r0.dir && r.kstart == r0.kstart then 1 + blockRows t sh a r0 (m + 1) n else 0

def recsOf (t : Tile) (sh : Share) (a : AtArgs) (row rows : Nat) : List RowRec :=
  (List.range rows).map fun i => rowRec t sh a (row + i)

/-- The state each row-head of a row starts from, with its query (R198, R205). -/
def startHeads (t : Tile) (a : AtArgs) (r : RowRec) (m qAddr : Nat) : List RowHead :=
  (List.range a.g).map fun g =>
    let h := if a.stIn then readState t a.d (a.oOff + (m * a.g + g) * a.ss) else RowHead.empty a.d
    let at_ := qAddr + g * a.d * 2
    { h with q := t.elems at_ 16 a.d, bad := h.bad || r.bad || t.readBad at_ (a.d * 2) }

/-- A padding row or an invalid one is written at once (R202); a poisoned record poisons its row whatever it reads (R214). -/
def deadRow (a : AtArgs) (t : Tile) (r : RowRec) (m outA : Nat) : Tile :=
  let write (h : RowHead) : Tile := writeRow a t (some r.session) outA (List.replicate a.g { h with bad := r.bad })
  let nan : W32 := 0x7FC00000
  if r.invalid then (write { RowHead.empty a.d with m := nan, l := nan, o := List.replicate a.d nan }).noteRow 0x63 r.session
  else if a.final || !a.stIn then write (RowHead.empty a.d)
  else if r.bad then
    writeRow a t (some r.session) outA ((List.range a.g).map fun g => { readState t a.d (a.oOff + (m * a.g + g) * a.ss) with bad := true })
  else t

/-- The keys of group `i` present for one row, from the ring slot at `addr` and from SELFKV (R194, R200, R214). -/
def keysOf (t : Tile) (a : AtArgs) (r : RowRec) (i : Nat) (addr : Option Nat) (noPage : Bool) : List GKey :=
  (groupKeys a r i).map fun p =>
    let j := p % 16
    let b := kvBits a.fmtKv
    if r.isSelf p then
      let sc := t.read (r.selfKv + 2 * a.rowBytes) 2
      { place := j, k := kvVals a.fmtKv (t.elems r.selfKv b a.d) (fieldAt sc 0 1),
        v := kvVals a.fmtKv (t.elems (r.selfKv + a.rowBytes) b a.d) (fieldAt sc 1 1),
        bad := t.readBad r.selfKv (2 * a.rowBytes + (if a.fmtKv == 1 then 0 else 2)), np := false }
    else
      match (if noPage then none else addr) with
      | none => { place := j, k := [], v := [], bad := false, np := true }
      | some s =>
        let sc := s + 32 * a.rowBytes
        { place := j, k := kvVals a.fmtKv (t.elems (s + j * a.rowBytes) b a.d) (fieldAt (t.read sc 2) 0 1),
          v := kvVals a.fmtKv (t.elems (s + (16 + j) * a.rowBytes) b a.d) (fieldAt (t.read sc 2) 1 1),
          bad := t.readBad (s + j * a.rowBytes) a.rowBytes || t.readBad (s + (16 + j) * a.rowBytes) a.rowBytes ||
            (a.fmtKv != 1 && t.readBad sc 2), np := false }

/-- What the compute path of an ATTN has done in one step: the tile, the instruction (`none` when it has ended), and whether it got
anywhere. -/
abbrev AtStep := Tile × Option Attn × Bool

/-- Begin the block at the next row, or write a padding or invalid row. -/
def attnOpen (sh : Share) (t : Tile) (x : Attn) : AtStep :=
  let a := atArgs x.word
  let inp := atInSide t a
  let out := atOutSide t a
  let r := rowRec t sh a x.row
  let last := decide (a.m ≤ x.row + 1)
  if r.valid && !r.invalid then
    (t, some { x with rows := max 1 (blockRows t sh a r x.row (blockLimit a)), got := 0, wrote := 0, fetched := 0, taken := 0,
                      heads := [], dirBad := false, pages := [], page := none }, true)
  else if inp.ready t x.inS x.row true && out.ready t x.outS x.row false then
    let t := deadRow a t r x.row (out.addr t x.outS x.row)
    let t := inp.finish t x.inS x.row (x.row + 1) last true
    (out.finish t x.outS x.row (x.row + 1) last false, some { x with row := x.row + 1 }, true)
  else (t, some x, false)

/-- Read the next row of the block when its slot is full (R259, R586). A slot is empty once its last row's queries are in the
pipeline: DEDUCED (log entry 170). -/
def attnRead (sh : Share) (t : Tile) (x : Attn) : AtStep :=
  let a := atArgs x.word
  let inp := atInSide t a
  let m := x.row + x.got
  if inp.ready t x.inS m true then
    let heads := startHeads t a (rowRec t sh a m) m (inp.addr t x.inS m)
    (inp.finish t x.inS m (m + 1) (decide (a.m ≤ m + 1)) true, some { x with got := x.got + 1, heads := x.heads ++ heads }, true)
  else (t, some x, false)

/-- Take group `i` into every row-head that has a present key, once its slot is full (R194, R205). -/
def attnTake (t : Tile) (x : Attn) (rs : List RowRec) (i : Nat) : AtStep :=
  let a := atArgs x.word
  let fetch := needsFetch a rs i
  let slot := (t.region a.ring).map fun r => (r.claimC, r)
  let ready := !fetch || (match slot with | some (c, r) => r.full c | none => false)
  if !ready then (t, some x, false)
  else
    let addr := if fetch then slot.map fun (c, r) => r.slotAddr c else none
    let heads := x.heads.zipIdx.map fun (h, j) =>
      match rs[j / a.g]? with
      | some r =>
        let ks := keysOf t a r i addr (x.pages.contains i)
        if ks.isEmpty then h else takeGroup a.scale a.d h ks
      | none => h
    let t := if fetch then t.updRegion a.ring fun r => (r.mark r.claimC false).claim true 1 else t
    (t, some { x with taken := x.taken + 1, heads := heads }, true)

/-- Write the next row of the block out when its slot is empty. -/
def attnWrite (t : Tile) (x : Attn) (rs : List RowRec) : AtStep :=
  let a := atArgs x.word
  let out := atOutSide t a
  let m := x.row + x.wrote
  if out.ready t x.outS m false then
    let hs := ((x.heads.drop (x.wrote * a.g)).take a.g).map fun h => { h with bad := h.bad || x.dirBad }
    let t := writeRow a t ((rs[x.wrote]?).map (·.session)) (out.addr t x.outS m) hs
    let t := out.finish t x.outS m (m + 1) (decide (a.m ≤ m + 1)) false
    (t, some (if x.rows ≤ x.wrote + 1 then { x with row := x.row + x.rows, rows := 0, heads := [] } else { x with wrote := x.wrote + 1 }), true)
  else (t, some x, false)

/-- One step of the compute path: begin a block, read one of its rows, take a group whose slot is full, or write a row out. -/
def attnStep (sh : Share) (t : Tile) (x : Attn) : AtStep :=
  let a := atArgs x.word
  if a.m ≤ x.row then (t, none, true)
  else if x.rows = 0 then attnOpen sh t x
  else if x.got < x.rows then attnRead sh t x
  else
    let rs := recsOf t sh a x.row x.rows
    match (blockGroups a rs)[x.taken]? with
    | some i => attnTake t x rs i
    | none => attnWrite t x rs

/-- Let the compute path run until it waits at a slot or has done. -/
def attnAdvance (sh : Share) : Nat → Tile → Attn → Tile × Option Attn
  | 0, t, x => (t, some x)
  | fuel + 1, t, x =>
    match attnStep sh t x with
    | (t, none, _) => (t, none)
    | (t, some x, false) => (t, some x)
    | (t, some x, true) => attnAdvance sh fuel t x

/-- Enough steps for any instruction: each row is begun and written once, each group taken once. -/
def attnFuel : Nat := 2 ^ 24

/-- Begin an ATTN in the pipeline (R197). -/
def attnBegin (t : Tile) (sh : Share) (id : Nat) (w : BitVec 256) (inS outS : Nat) : Tile :=
  let x : Attn := { id := id, word := w, inS := inS, outS := outS, row := 0, rows := 0, got := 0, wrote := 0, fetched := 0,
                    taken := 0, heads := [], dirBad := false, pages := [], page := none }
  let (t, x') := attnAdvance sh attnFuel t x
  { t with at_ := x' }

/-! ## The page walker (R193, R195, R219, R222, R223) -/

/-- What the walker finds for a position: its page, no page, a poisoned entry, or a directory outside the partition. -/
inductive Walk where
  | page (p : PageAt)
  | noPage
  | poisoned
  | outside
  deriving DecidableEq, Repr

/-- Does a layer header hold the shape of the instruction (R222)? -/
def headerOk (a : AtArgs) (hd : List Byte) : Bool :=
  fieldAt hd 2 1 == a.h && fieldAt hd 3 1 == a.dsel && fieldAt hd 4 1 == a.fmtKv

/-- Where the granule entry of position `p` lies, by the header and the top-table entry `e` (R222, R223). -/
def granuleAt (hd : List Byte) (e p : Nat) : Nat := fieldAt hd 0x20 8 + e % 2 ^ 20 * 4096 + 4 * (p / 16 % 1024)

/-- The page that granule entry `g` of position `p` names (R192, R223). -/
def pageOf (a : AtArgs) (hd : List Byte) (g p : Nat) : PageAt :=
  let n := g % 2 ^ 24
  let k := g / 2 ^ 24 % 8
  let tpos := 16 * 2 ^ k
  let hs := 2 * tpos * a.rowBytes + kvExtra a.fmtKv
  { lo := p / tpos * tpos, hi := p / tpos * tpos + tpos, n := n, k := k,
    base := fieldAt hd 8 8 + n * fieldAt hd 0x10 4 + fieldAt hd 0 1 * 2 ^ k * fieldAt hd 0x14 4 + a.head * hs }

/-- Where group `i` lies in its page: its key rows, its value rows, the scale block (R192). -/
def PageAt.parts (p : PageAt) (a : AtArgs) (i : Nat) : Nat × Nat × Nat :=
  let tpos := p.hi - p.lo
  let o := (16 * i - p.lo) * a.rowBytes
  (p.base + o, p.base + tpos * a.rowBytes + o, p.base + 2 * tpos * a.rowBytes)

/-- The walker is done with group `i`: its slot is full, and the compute path goes on. -/
def fetchDone (t : Tile) (sh : Share) (x : Attn) : Tile :=
  let (t, x') := attnAdvance sh attnFuel (t.updRegion (atArgs x.word).ring fun r => r.mark r.tail true) { x with fetched := x.fetched + 1 }
  { t with at_ := x' }

/-! ## ATTN.MERGE (R211) -/

/-- Bits ATTN.MERGE does not use: reserved or violating (R211, R215). -/
def mergeUnused (w : BitVec 256) : Nat :=
  bf w 43 40 + bf w 54 49 + bf w 61 56 + bf w 95 80 + bf w 127 96 + bf w 157 152 + bf w 206 184 + bf w 230 208

def mergeCheck (sh : Share) (w : BitVec 256) : Option (Nat × Nat) :=
  let a := atArgs w
  (([guardCode (bf w 31 25 != 0) 0x40 0,
    guardCode (decide (4 < a.dsel) || !(if a.final then a.fmtO == 1 || a.fmtO == 8 else a.fmtO == 0) || a.m == 0
      || mergeUnused w != 0) 0x60 0,
    atRange sh a.qOff (a.m * a.g * a.ss),
    atRange sh a.oOff (a.m * (a.g * a.ss)),
    atRange sh a.oOff (a.m * a.op),
    guardCode (atReserved w != 0) 0x62 0]).filterMap id).head?

/-- Combine the states of two disjoint ranges. -/
def mergeHeads (x y : RowHead) : RowHead :=
  let bad := x.bad || y.bad
  if y.m == negInf then { x with bad := bad }
  else if x.m == negInf then { y with bad := bad }
  else
    let m := max32 x.m y.m
    let a := attE (sub32 x.m m).1
    let b := attE (sub32 y.m m).1
    let p := mul32 x.l a
    let q := mul32 y.l b
    let l := add32 p.1 q.1
    let oc := List.zipWith (fun u v =>
      let s := mul32 u a; let t := mul32 v b; let r := add32 s.1 t.1; (r.1, s.2 || t.2 || r.2)) x.o y.o
    { x with m := m, l := l.1, o := oc.map (·.1), bad := bad, fl := p.2 || q.2 || l.2, flo := oc.map (·.2) }

/-- ATTN.MERGE on its rows. All rows are read before any is written over A, since output rows and records differ in
pitch. -/
def mergeRun (t : Tile) (w : BitVec 256) : Tile :=
  let a := atArgs w
  let rows := (List.range a.m).map fun m => (List.range a.g).map fun g =>
    mergeHeads (readState t a.d (a.oOff + (m * a.g + g) * a.ss)) (readState t a.d (a.qOff + (m * a.g + g) * a.ss))
  rows.zipIdx.foldl (fun t (hs, m) => writeRow a t none (a.oOff + m * a.op) hs) t

end Sys2Proof.Machine
end

