-- ==== Sys2Proof/Machine/MatmulOps.lean ====
section
/-!
DEFINITION. MatmulOps.lean: MATMUL and MATMUL.SIDE on a tile (R95 to R116).
-/

namespace Sys2Proof.Machine

/-- The fields of a matrix instruction (R97). -/
structure MmArgs where
  fmtW : Nat
  fmtA : Nat
  p    : Nat
  acc  : Bool
  keep : Bool
  bsW  : Bool
  bsA  : Bool
  aCirc : Bool
  oCirc : Bool
  k    : Nat
  n    : Nat
  m    : Nat
  ct   : Nat
  wOff : Nat
  aOff : Nat
  aPitch : Nat
  oOff : Nat
  oPitch : Nat
  wsOff : Nat
  deriving DecidableEq, Repr

def mmArgs (w : BitVec 256) : MmArgs :=
  { fmtW := bf w 35 32, fmtA := bf w 39 36, p := bf w 41 40, acc := bf w 42 42 == 1, keep := bf w 43 43 == 1,
    bsW := bf w 44 44 == 1, bsA := bf w 45 45 == 1, aCirc := bf w 46 46 == 1, oCirc := bf w 47 47 == 1,
    k := bf w 55 48 + 1, n := bf w 63 56 + 1, m := bf w 79 64, ct := bf w 92 80, wOff := bf w 118 96,
    aOff := bf w 150 128, aPitch := bf w 159 152 * 8, oOff := bf w 182 160, oPitch := bf w 191 184 * 64,
    wsOff := bf w 214 192 }

/-- Bits reserved by R97. -/
def mmReserved (w : BitVec 256) : Nat :=
  bf w 95 93 + bf w 127 119 + bf w 151 151 + bf w 183 183 + bf w 255 215

def isF8 (c : Nat) : Bool := c == 3 || c == 4
def isMmFmt (c : Nat) : Bool := decide (1 ≤ c) && decide (c ≤ 7)
def isIntFmt (c : Nat) : Bool := c == 5 || c == 7
def is16 (c : Nat) : Bool := c == 1 || c == 2
def is4 (c : Nat) : Bool := c == 6 || c == 7

/-- The width an instruction's columns are grouped at (R113). -/
def mmWidth (side : Bool) (width : Nat) (a : MmArgs) : Nat :=
  if !side && (is16 a.fmtW || is16 a.fmtA) then width / 2 else width

/-- Column groups G (R113). -/
def mmGroups (side : Bool) (width : Nat) (a : MmArgs) : Nat := ceilDiv a.n (mmWidth side width a)

/-- Rows of a compute tile (R97). -/
def MmArgs.rows (a : MmArgs) : Nat := if a.ct = 0 then 4096 else a.ct

def bitsOfCode (c : Nat) : Nat := ((fmtOfCode c).map Fmt.bits).getD 16

/-- Bytes of one activation row (R99, R107). -/
def MmArgs.aBytes (a : MmArgs) : Nat :=
  if a.p ≤ 1 then ceilDiv (a.k * bitsOfCode a.fmtA) 8 + (if a.bsA then ceilDiv a.k 32 else 0)
  else a.p * (ceilDiv (2 * a.k) 8 * 8)

/-- Size of one stationary piece (R99, R107). -/
def MmArgs.wBytes (a : MmArgs) : Nat := a.k * statPitch (bitsOfCode a.fmtW) a.n

def MmArgs.wsBytes (a : MmArgs) : Nat := ceilDiv a.k 32 * (ceilDiv a.n 64 * 64)

/-- Does an operand of a format have to carry, may it carry, or may it not carry block scales (R98)? -/
def scaleOk (fmt : Nat) (bs : Bool) : Bool :=
  if fmt == 6 then bs else if isF8 fmt then true else !bs

def MmArgs.inSide (a : MmArgs) : RowSide :=
  if a.aCirc then .circ a.aOff a.aPitch a.rows else .plain a.aOff a.aPitch

def MmArgs.outSide (a : MmArgs) : RowSide :=
  if a.oCirc then .circ a.oOff a.oPitch a.rows else .plain a.oOff a.oPitch

/-- The slot check of R102: a slot holds at least CT rows, or all rows where fewer are left. -/
def mmSlotCheck (t : Tile) (tenant : Nat) (s : RowSide) (cons : Bool) : Option Nat := sideCheck t tenant s cons 0x46

def firstSome {α : Type} (xs : List (Option α)) : Option α := (xs.filterMap id).head?

/-- The issue checks of a matrix instruction. The answer is the code and the address. Where several conditions of R115 hold, the
code reported is the first in the order of its table: DESIGN CHOICE (log entry 161). -/
def mmCheck (side : Bool) (t : Tile) (tenant : Nat) (sh : Share) (w : BitVec 256) : Option (Nat × Nat) :=
  let a := mmArgs w
  let cond (b : Bool) (code addr : Nat) : Option (Nat × Nat) := if b then some (code, addr) else none
  let wide := is16 a.fmtW || is16 a.fmtA
  let four := is4 a.fmtW && is4 a.fmtA
  let kMax := if side then 16 else if four then 256 else 128
  let aligned (x : Nat) : Bool := x % 64 == 0
  firstSome [
    cond (bf w 31 25 != 0) 0x40 0,
    cond (!isMmFmt a.fmtW || !isMmFmt a.fmtA || (isIntFmt a.fmtW != isIntFmt a.fmtA)
      || (side && !(a.fmtW == 1 && a.fmtA == 1))) 0x41 0,
    cond (a.m == 0 || decide (4096 < a.ct) || decide (kMax < a.k) || (!side && wide && decide (128 < a.n))) 0x42 0,
    cond (a.p == 0 || (decide (1 < a.p) && !(a.fmtW == 1 && a.fmtA == 1))) 0x43 0,
    cond (!scaleOk a.fmtW a.bsW || !scaleOk a.fmtA a.bsA || (!a.bsW && a.wsOff != 0)) 0x44 0,
    cond (!aligned a.wOff || !inShare sh a.wOff (a.p * a.wBytes)) 0x45 a.wOff,
    cond (a.bsW && (!aligned a.wsOff || !inShare sh a.wsOff a.wsBytes)) 0x45 a.wsOff,
    cond (!aligned a.aOff || (if a.aCirc then !inShare sh a.aOff 64 else !inShare sh a.aOff ((a.m - 1) * a.aPitch + a.aBytes)))
      0x45 a.aOff,
    cond (!aligned a.oOff || (if a.oCirc then !inShare sh a.oOff 64 else !inShare sh a.oOff ((a.m - 1) * a.oPitch + 4 * a.n)))
      0x45 a.oOff,
    cond (decide (a.aPitch < a.aBytes) || decide (a.oPitch < 4 * a.n)) 0x46 0,
    (mmSlotCheck t tenant a.inSide true).map (·, a.aOff),
    (mmSlotCheck t tenant a.outSide false).map (·, a.oOff),
    cond (a.acc && a.oCirc) 0x47 0,
    cond (mmReserved w != 0) 0x48 0]

/-- The stationary operand as the array holds it: for each piece, one list of values per output column (R99, R107). -/
def statColumns (a : MmArgs) (h : HeldW) : List (List (List Val)) :=
  let f := (fmtOfCode a.fmtW).getD .bf16
  let b := f.bits
  let pitch := statPitch b a.n
  let scaleRow := fun q => ((h.ws.drop (q * (ceilDiv a.n 64 * 64))).take a.n).map (·.toNat)
  (List.range a.p).map fun j =>
    let rows := (List.range a.k).map fun k =>
      let es := bitElems (h.w.drop (j * a.wBytes + k * pitch)) b a.n
      if a.bsW then List.zipWith (fun e s => decodeScaled f e (some s)) es (scaleRow (k / 32))
      else es.map fun e => decodeScaled f e none
    (List.range a.n).map fun n => rows.map fun r => r.getD n .nan

/-- Is a stationary row or scale poisoned (R116)? -/
def statBad (t : Tile) (a : MmArgs) : Bool :=
  t.readBad a.wOff (a.p * a.wBytes) || (a.bsW && t.readBad a.wsOff a.wsBytes)

/-- One activation row's values, a list for each piece (R99, R107). -/
def actRow (t : Tile) (a : MmArgs) (addr : Nat) : List (List Val) :=
  let f := (fmtOfCode a.fmtA).getD .bf16
  (List.range a.p).map fun i =>
    let es := t.elems (addr + i * (ceilDiv (2 * a.k) 8 * 8)) f.bits a.k
    if a.bsA then
      let ss := (t.read (addr + ceilDiv (a.k * f.bits) 8) (ceilDiv a.k 32)).map (·.toNat)
      es.zipIdx.map fun (e, k) => decodeScaled f e (some (ss.getD (k / 32) 0))
    else es.map fun e => decodeScaled f e none

/-- Compute and write one output row (R100, R116, R138, R147). -/
def mmRow (a : MmArgs) (cols : List (List (List Val))) (wBad : Bool) (t : Tile) (inA outA : Nat) : Tile :=
  let act := actRow t a inA
  let bad := wBad || t.readBad inA a.aBytes || (a.acc && t.readBad outA (4 * a.n))
  let res := (List.range a.n).map fun n =>
    let stored := if a.acc then some (BitVec.ofNat 32 (leNat (t.read (outA + 4 * n) 4))) else none
    dotOutput (isIntFmt a.fmtW) a.p act (cols.map fun c => c.getD n []) stored
  let bytes := res.flatMap fun (r, _) => leBytes 4 r.toNat
  let t := t.write outA bytes bad
  if bad then t.noteErr 0x4A true
  else t.count 0 (res.filter (·.2)).length (res.filter fun (r, _) => (val32 r).isNan).length

/-- A stationary load: it samples the width (R114) and reads rows and scales. -/
def mmLoad (side : Bool) (t : Tile) (a : MmArgs) : HeldW :=
  { wOff := a.wOff, fmt := a.fmtW, k := a.k, n := a.n, bs := a.bsW, wsOff := a.wsOff, p := a.p, groups := mmGroups side t.width a,
    w := t.read a.wOff (a.p * a.wBytes), ws := if a.bsW then t.read a.wsOff a.wsBytes else [], bad := statBad t a, stale := false }

/-- Does a copy serve every compute tile of an instruction: one piece, one column group (R103)? -/
def HeldW.single (h : HeldW) : Bool := h.p == 1 && h.groups == 1

/-- Does a held copy stand for the load of an instruction (R101): one pass and one group on both sides, loaded with the same fields,
and nothing since has disqualified it? -/
def HeldW.qualifies (h : HeldW) (t : Tile) (a : MmArgs) : Bool :=
  h.single && !h.stale && a.p == 1 && mmGroups false t.width a == 1 &&
  h.wOff == a.wOff && h.fmt == a.fmtW && h.k == a.k && h.n == a.n && h.bs == a.bsW && h.wsOff == a.wsOff

/-- The copy that the array computes with next: the held one, when KEEP_W skips the load, or a load, whose copy the main array then
holds; MATMUL.SIDE leaves the main array's copy, no longer qualified (R101, R111). The number says how many loads KEEP_W = 1 did not
skip. DEDUCED (log entry 167). -/
def mmTake (side : Bool) (t : Tile) (a : MmArgs) : Tile × HeldW × Nat :=
  match t.held.filter fun h => !side && a.keep && h.qualifies t a with
  | some h => (t, h, 0)
  | none =>
    let h := mmLoad side t a
    ({ t with held := if side then t.held.map fun x => { x with stale := true } else some h }, h, if a.keep then a.p * h.groups else 0)

/-- Take a load for the instruction that stands in the matrix unit, and keep it there when it serves the later compute tiles. -/
def mmReload (side : Bool) (t : Tile) (a : MmArgs) : Tile × HeldW :=
  let (t, h, n) := mmTake side t a
  ({ t with mx := t.mx.map fun c =>
      { c with load := if h.single then some h else none, reloads := c.reloads + n, split := c.split || decide (1 < h.groups) } }, h)

/-- Compute the rows `[m, m + n)` of a compute tile with its stationary operand (R103). -/
def mmTile (side : Bool) (a : MmArgs) (inS outS : Nat) (t : Tile) (m n : Nat) : Tile :=
  let (t, h) := match t.mx.bind (·.load) with
    | some h => (t, h)
    | none => mmReload side t a
  let cols := statColumns a h
  (List.range n).foldl (fun t i => mmRow a cols h.bad t (a.inSide.addr t inS (m + i)) (a.outSide.addr t outS (m + i))) t

/-- Run the rows of a matrix instruction from where its cursor stands (R102, R103, R106): whole compute tiles, as far as their slots
allow. A single load is taken as the instruction begins, or goes on after a pre-emption. The cursor ends where the unit waits. -/
def mmRun (side : Bool) (t : Tile) (c : Cursor) : Tile × Option Cursor :=
  let a := mmArgs c.word
  let j : RowJob := { inp := a.inSide, out := a.outSide, rows := a.m, unit := a.rows }
  let t := { t with mx := some c }
  let t := if c.load.isNone && a.p == 1 && mmGroups side t.width a == 1 then (mmReload side t a).1 else t
  let (t, wt) := runRows j c.inS c.outS (mmTile side a c.inS c.outS) (a.m + 1) t c.row
  match wt with
  | some r => ({ t with mx := t.mx.map fun c => { c with row := r } }, t.mx)
  | none => ({ t with mx := none }, t.mx)

end Sys2Proof.Machine
end

