-- ==== Sys2Proof/Machine/CodecOps.lean ====
section
/-!
DEFINITION. CodecOps.lean: the activation codec's blocks, tables and instruction fields (R277 to R297).
-/

namespace Sys2Proof.Machine

/-! ## Instruction fields (R289) -/

structure CxArgs where
  cx : Nat
  slot : Nat
  notab : Bool
  rate : Nat
  fmt : Nat
  srcCirc : Bool
  dstCirc : Bool
  hacc : Bool
  hshift : Nat
  rows : Nat
  vals : Nat
  src : Nat
  spitch : Nat
  dpitch : Nat
  dst : Nat
  deriving DecidableEq, Repr

def cxArgs (w : BitVec 256) : CxArgs :=
  { cx := bf w 32 32, slot := bf w 34 33, notab := bf w 35 35 == 1, rate := bf w 37 36, fmt := bf w 41 38,
    srcCirc := bf w 42 42 == 1, dstCirc := bf w 43 43 == 1, hacc := bf w 44 44 == 1, hshift := bf w 51 48,
    rows := bf w 79 64, vals := bf w 93 80 + 1, src := bf w 118 96, spitch := bf w 143 128 * 64,
    dpitch := bf w 159 144 * 64, dst := bf w 182 160 }

/-- Bits that no opcode, or not this one, uses; `opc` is 0x78 to 0x7B. -/
def cxReserved (opc : Nat) (w : BitVec 256) : Nat :=
  let unused (ok : Bool) (hi lo : Nat) : Nat := if ok then 0 else bf w hi lo
  let enc := opc == 0x78
  let dec := opc == 0x79
  let hist := opc == 0x7B
  bf w 47 45 + bf w 63 52 + bf w 95 94 + bf w 127 119 + bf w 255 183 +
  unused (enc || opc == 0x7A) 34 33 + unused enc 35 35 + unused (enc || dec) 37 36 + unused (opc != 0x7A) 41 38 +
  unused (opc != 0x7A) 42 42 + unused (enc || dec) 43 43 + unused hist 44 44 + unused hist 51 48 +
  unused (opc != 0x7A) 93 64 + unused (enc || hist) 143 128 + unused dec 159 144 + unused (opc != 0x7A) 182 160

/-- Bytes, payload capacity and fixed width of a rate (R278). -/
def rateBytes (r : Nat) : Nat := 128 + 64 * r
def rateCap (r : Nat) : Nat := 960 + 512 * r
def rateWidth (r : Nat) : Nat := 3 + 2 * r

def cxFmt (c : Nat) : Fmt := (fmtOfCode c).getD .bf16
def cxElem (c : Nat) : Nat := (cxFmt c).bits / 8

/-- Blocks per row (R278). -/
def CxArgs.bpr (a : CxArgs) : Nat := ceilDiv a.vals 256
def CxArgs.coded (a : CxArgs) : Nat := a.bpr * rateBytes a.rate
/-- Values of block `j`. -/
def CxArgs.count (a : CxArgs) (j : Nat) : Nat := min 256 (a.vals - 256 * j)

/-- Rows of `pitch` bytes in a slot (R586). -/
def slotRows (t : Tile) (desc pitch : Nat) : Nat :=
  match t.region desc with
  | some r => if pitch = 0 then 0 else r.slotBytes / pitch
  | none => 1

/-- The sides of a codec request (R290). -/
def cxIn (t : Tile) (opc : Nat) (a : CxArgs) : RowSide :=
  let p := if opc == 0x79 then a.coded else a.spitch
  if a.srcCirc then .circ a.src p (slotRows t a.src p) else .plain a.src p

def cxOut (t : Tile) (opc : Nat) (a : CxArgs) : RowSide :=
  let p := if opc == 0x79 then a.dpitch else a.coded
  if opc == 0x7B then .absent else if a.dstCirc then .circ a.dst p (slotRows t a.dst p) else .plain a.dst p

/-- Bytes that the rows of a plain side take. -/
def cxInBytes (opc : Nat) (a : CxArgs) : Nat :=
  if opc == 0x79 then a.rows * a.coded else (a.rows - 1) * a.spitch + a.vals * cxElem a.fmt

def cxOutBytes (opc : Nat) (a : CxArgs) : Nat :=
  if opc == 0x79 then (a.rows - 1) * a.dpitch + a.vals * cxElem a.fmt
  else if opc == 0x78 then a.rows * a.coded else if opc == 0x7B then 320 else 0

/-- Is the circular side a CODEC side of this codec? The violation: XF_RGN or CDX_ADDR. -/
def cxSide (t : Tile) (tenant cx : Nat) (s : RowSide) (cons : Bool) : Option Nat :=
  match s with
  | .circ desc _ rows =>
    match t.region desc with
    | none => some 0x74
    | some r =>
      let x := if cons then r.cons else r.prod
      if r.tenant != tenant || x.cls != 4 then some 0x74
      else if x.chan != cx || rows == 0 then some 0x91
      else none
  | _ => none

/-- The issue checks of a codec instruction (R297). -/
def cxCheck (opc : Nat) (t : Tile) (tenant : Nat) (sh : Share) (w : BitVec 256) : Option (Nat × Nat) :=
  let a := cxArgs w
  let cond (b : Bool) (code addr : Nat) : Option (Nat × Nat) := if b then some (code, addr) else none
  let enc := opc == 0x78
  let dec := opc == 0x79
  let load := opc == 0x7A
  let hist := opc == 0x7B
  let fmtOk := if dec then [1, 2, 3, 4, 5, 8].contains a.fmt else [1, 3, 4, 5].contains a.fmt
  let row := a.vals * cxElem a.fmt
  firstSome [
    cond (bf w 31 25 != 0) 0x40 0,
    cond (!load && (!fmtOk || ((enc || dec) && a.rate == 3) || a.rows == 0 || (hist && decide (13 < a.hshift)) ||
      ((enc || hist) && decide (a.spitch < row)) || (dec && decide (a.dpitch < row)))) 0x90 0,
    cond (a.src % 64 != 0 || (if load then !inShare sh a.src 96 else if a.srcCirc then !inShare sh a.src 64
      else !inShare sh a.src (cxInBytes opc a))) 0x91 a.src,
    cond (!load && (a.dst % 64 != 0 || (if a.dstCirc then !inShare sh a.dst 64 else !inShare sh a.dst (cxOutBytes opc a)))) 0x91 a.dst,
    (if load then none else (cxSide t tenant a.cx (cxIn t opc a) true).map (·, a.src)),
    (if load then none else (cxSide t tenant a.cx (cxOut t opc a) false).map (·, a.dst)),
    cond (cxReserved opc w != 0) 0x92 0]

/-! ## Tables (R281, R282) -/

/-- The table of a record; `none` when the record is invalid. -/
def tableOf (bs : List Byte) : Option CxTable :=
  let n := fieldAt bs 0 1
  let lens := (List.range (n + 1)).map fun s => fieldAt bs (0x10 + s) 1
  let used := lens.filter (· ≠ 0)
  let ok := decide (1 ≤ n) && decide (n ≤ 64) && decide (fieldAt bs 1 1 < 64) && fieldAt bs 2 6 == 0 &&
    lens.all (fun l => decide (l ≤ 15)) && lens.getD n 0 != 0 && decide (2 ≤ used.length) &&
    (used.foldl (fun m l => m + 2 ^ (15 - l)) 0 == 2 ^ 15) && fieldAt bs (0x11 + n) (0x60 - (0x11 + n)) == 0
  if ok then some { gen := fieldAt bs 1 1, lens := lens } else none

/-- The code of each entry, the escape last (R282): lengths and codes. -/
def CxTable.codes (t : CxTable) : List (Nat × Nat) :=
  let count (l : Nat) : Nat := (t.lens.filter (· == l)).length
  let first := (List.range 15).foldl (fun (acc : List Nat × Nat) i => (acc.1 ++ [acc.2], (acc.2 + count (i + 1)) * 2)) ([], 0)
  let place := fun (acc : List (Nat × Nat) × List Nat) (l : Nat) =>
    if l = 0 then (acc.1 ++ [(0, 0)], acc.2)
    else (acc.1 ++ [(l, acc.2.getD (l - 1) 0)], acc.2.set (l - 1) (acc.2.getD (l - 1) 0 + 1))
  (t.lens.foldl place ([], first.1)).1

def CxTable.nsym (t : CxTable) : Nat := t.lens.length - 1

/-! ## Encoding (R280, R283, R284) -/

/-- rne(x / 2^s) as a whole number. -/
def quant (x : Val) (s : Int) : Int :=
  match x with
  | .fin n m e => signed n (roundUnits m e s)
  | _ => 0

def zigzag (q : Int) : Nat := if 0 ≤ q then 2 * q.toNat else 2 * (-q).toNat - 1

/-- Bits of a value under a table. -/
def CxTable.bits (t : CxTable) (q : Int) : Nat :=
  let l := t.lens.getD (zigzag q) 0
  if zigzag q < t.nsym ∧ l ≠ 0 then l else t.lens.getD t.nsym 0 + 16

/-- The first step of `n` steps from `s` that passes. -/
def stepSearch (p : Int → Bool) : Nat → Int → Option Int
  | 0, _ => none
  | n + 1, s => if p s then some s else stepSearch p n (s + 1)

def msbBits (n x : Nat) : List Bool := (List.range n).map fun i => bitOf x (n - 1 - i)
def lsbBits (n x : Nat) : List Bool := (List.range n).map fun i => bitOf x i

def twosComp (n : Nat) (q : Int) : Nat := (q % (2 ^ n : Int)).toNat

def bitsNat (bs : List Bool) : Nat := bs.foldr (fun b acc => b.toNat + 2 * acc) 0

/-- A block: header, payload, zeros to its rate's bytes (R279, R280). -/
def blockBytes (rate slot gen mode fmt n : Nat) (s : Int) (payload : List Bool) : List Byte :=
  leBytes 1 (slot + 4 * gen) ++ leBytes 1 (rate + 4 * mode + 16 * fmt) ++ leBytes 2 (twosComp 16 s) ++ leBytes 1 (n - 1) ++
  leBytes 1 0 ++ leBytes 2 payload.length ++ leBytes (rateBytes rate - 8) (bitsNat payload)

/-- The largest magnitude's exponent and the least step searched (R283, R291). -/
def stepLow (fmt : Nat) (xs : List Val) : Option (Int × Int) :=
  match xs.foldl absMax0 (.zero false) with
  | .fin _ m e => let l := flog2 m e; some (l, if fmt == 5 then max (l - 13) 0 else l - 13)
  | _ => none
where
  absMax0 (a x : Val) : Val := a.max x.abs

/-- What an encode made: the block, its mode, and the NaN inputs it counts. -/
structure Encoded where
  bytes : List Byte
  mode  : Nat
  nans  : Nat
  deriving DecidableEq, Repr

/-- Encode one block (R283, R284). -/
def encodeBlock (rate fmt slot : Nat) (tab : Option CxTable) (xs : List Val) : Encoded :=
  let n := xs.length
  let w := rateWidth rate
  let budget := rateCap rate * n / 256
  let nans := (xs.filter (·.isNan)).length
  if xs.any fun x => x.isNan || x.isInf then
    let cls (x : Val) : Nat := match x with | .nan => 3 | .inf true => 2 | .inf false => 1 | _ => 0
    { bytes := blockBytes rate 0 0 3 fmt n 0 (xs.flatMap fun x => lsbBits 2 (cls x)), mode := 3, nans := nans }
  else match stepLow fmt xs with
    | none => { bytes := blockBytes rate 0 0 2 fmt n 0 [], mode := 2, nans := nans }
    | some (e, lo) =>
      let steps := (e + 1 - lo).toNat + 1
      let fits (s : Int) : Bool := xs.all fun x => decide ((quant x s).natAbs ≤ 2 ^ (w - 1) - 1)
      let fix := (stepSearch fits steps lo).getD (e + 1)
      let byTab := tab.bind fun t => stepSearch (fun s => decide ((xs.map fun x => t.bits (quant x s)).sum ≤ budget)) steps lo
      match tab, byTab with
      | some t, some s =>
        if s ≤ fix then
          let cs := t.codes
          let code (q : Int) : List Bool :=
            let z := zigzag q
            let (l, c) := cs.getD z (0, 0)
            if z < t.nsym ∧ l ≠ 0 then msbBits l c
            else let (l, c) := cs.getD t.nsym (0, 0); msbBits l c ++ lsbBits 16 (twosComp 16 q)
          { bytes := blockBytes rate slot t.gen 0 fmt n s (xs.flatMap fun x => code (quant x s)), mode := 0, nans := nans }
        else { bytes := blockBytes rate 0 0 1 fmt n fix (xs.flatMap fun x => lsbBits w (twosComp w (quant x fix))), mode := 1, nans := nans }
      | _, _ => { bytes := blockBytes rate 0 0 1 fmt n fix (xs.flatMap fun x => lsbBits w (twosComp w (quant x fix))), mode := 1, nans := nans }

/-! ## Decoding (R285, R286) -/

def signExt (n x : Nat) : Int := if 2 ^ (n - 1) ≤ x then (x : Int) - 2 ^ n else x

/-- One code from a bit stream: the entry and what remains. -/
def takeCode (cs : List (Nat × Nat)) : Nat → Nat → Nat → List Bool → Option (Nat × List Bool)
  | 0, _, _, _ => none
  | _ + 1, _, _, [] => none
  | fuel + 1, l, x, b :: rest =>
    let l := l + 1
    let x := 2 * x + b.toNat
    match cs.findIdx? fun c => c == (l, x) with
    | some i => some (i, rest)
    | none => takeCode cs fuel l x rest

/-- `n` whole numbers from a TABLE payload, which must end exactly. -/
def takeTable (cs : List (Nat × Nat)) (nsym : Nat) : Nat → List Bool → Option (List Int)
  | 0, bits => if bits.isEmpty then some [] else none
  | n + 1, bits =>
    match takeCode cs 15 0 0 bits with
    | none => none
    | some (i, rest) =>
      if i = nsym then
        if rest.length < 16 then none
        else (takeTable cs nsym n (rest.drop 16)).map fun qs => signExt 16 (bitsNat (rest.take 16)) :: qs
      else (takeTable cs nsym n rest).map fun qs => (if i % 2 = 0 then (i / 2 : Int) else -((i + 1) / 2 : Int)) :: qs

/-- What a decode found: the values, or the code the block is recorded under. -/
inductive Decoded where
  | values (mode : Nat) (xs : List Val)
  | bad (code : Nat)
  deriving DecidableEq, Repr

/-- Decode a block of `n` values at `rate` with the tenant's slots (R285 to R287). -/
def decodeBlock (rate n : Nat) (slots : Nat → Option CxTable) (b : List Byte) : Decoded :=
  let slot := fieldAt b 0 1 % 4
  let gen := fieldAt b 0 1 / 4
  let mode := fieldAt b 1 1 / 4 % 4
  let s := signExt 16 (fieldAt b 2 2)
  let used := fieldAt b 6 2
  let w := rateWidth rate
  let stream := lsbBits (8 * (rateBytes rate - 8)) (leNat ((b.drop 8).take (rateBytes rate - 8)))
  let bits := stream.take used
  let malformed := fieldAt b 1 1 % 4 != rate || !([1, 3, 4, 5].contains (fieldAt b 1 1 / 16)) || fieldAt b 4 1 + 1 != n ||
    fieldAt b 5 1 != 0 || (mode != 0 && fieldAt b 0 1 != 0) || (decide (2 ≤ mode) && fieldAt b 2 2 != 0) ||
    decide (rateCap rate * n / 256 < used) ||
    (match mode with | 0 => false | 1 => used != w * n | 2 => used != 0 | _ => used != 2 * n) || (stream.drop used).any id
  if malformed then .bad 0x97
  else match mode with
    | 0 =>
      match slots slot with
      | none => .bad 0x96
      | some t =>
        if t.gen ≠ gen then .bad 0x96
        else match takeTable t.codes t.nsym n bits with
          | none => .bad 0x97
          | some qs => .values 0 (qs.map fun q => Val.ofScaled q s)
    | 1 => .values 1 ((List.range n).map fun i => Val.ofScaled (signExt w (bitsNat ((bits.drop (w * i)).take w))) s)
    | 2 => .values 2 (List.replicate n (.zero false))
    | _ => .values 3 ((List.range n).map fun i => match bitsNat ((bits.drop (2 * i)).take 2) with
        | 1 => .inf false | 2 => .inf true | 3 => .nan | _ => .zero false)

/-! ## Histograms (R291) -/

/-- Add a block's values to the 65 bins. -/
def histBlock (fmt hshift : Nat) (bins : List Nat) (xs : List Val) : List Nat :=
  if xs.any fun x => x.isNan || x.isInf then bins
  else match stepLow fmt xs with
    | none => lupdNat bins 0 xs.length
    | some (e, lo) =>
      let s := max (e - (hshift : Int)) lo
      xs.foldl (fun bins x => lupdNat bins (min (zigzag (quant x s)) 64) 1) bins
where
  lupdNat (bins : List Nat) (i n : Nat) : List Nat := bins.set i (min (bins.getD i 0 + n) 0xFFFFFFFF)

/-- The 320 bytes of a histogram record. -/
def histBytes (bins : List Nat) : List Byte := bins.flatMap (leBytes 4 ·) ++ leBytes 60 0

end Sys2Proof.Machine
end

