-- ==== Sys2Proof/Config.lean ====
section
/-!
DEFINITION. Config.lean: the free values: what the manual leaves open, as constants without a body.
-/

namespace Sys2Proof

/-- The `n`-th free number (drawn with `State.fresh`). -/
opaque Config.freeNat : Nat → Nat

/-- The `n`-th free string of bytes. -/
opaque Config.freeBytes : Nat → List Byte

/-- What the `n`-th read of host memory by the mailbox returns, as the command that reads it sees it; `none` for a failed read. -/
opaque Config.freeImage : Nat → Option (List Byte)

opaque Config.freeFirmware : Nat → Option Machine.Firmware

opaque Config.freeKeyReq : Nat → Option KeyReq

/-- The errors that arise in the scratchpads in the `n`-th tick: a tile, the number of one of its 32-byte words, and whether the word
can no longer be corrected (R248). -/
opaque Config.freeFlaws : Nat → List (Nat × Nat × Bool)

/-- The tenants in whose Larder metadata or session descriptors an uncorrectable error is found in the `n`-th tick (R245). -/
opaque Config.freeMeta : Nat → List Nat

/-- The identity of the other member of the pair (R467): the SHA-384 of a public key that this module is not told. -/
opaque Config.twinIdentity : List Byte

end Sys2Proof
end

