-- ==== Sys2Proof/Machine/Sha.lean ====
section
/-!
DEFINITION. Sha.lean: SHA-384 (FIPS 180-4) and the verification of ECDSA over P-384 (FIPS 186-5), as the manual uses
them for images, weight sets, unit digests and seals (R29, R30, R36, R419, R464, R469, R476).
-/

namespace Sys2Proof.Machine

/-! ## SHA-384 -/

/-- `n` words of 64 bits that stand side by side in one number, the first in its highest bits. -/
def wordsOf (n x : Nat) : List Nat := (List.range n).map fun i => x >>> (64 * (n - 1 - i)) % 2 ^ 64

/-! The eighty round constants, eight to a row: the first 64 bits of the fractional parts of the cube roots of the first eighty primes
(FIPS 180-4). -/

def shaRow0 : Nat := 0x428a2f98d728ae227137449123ef65cdb5c0fbcfec4d3b2fe9b5dba58189dbbc3956c25bf348b53859f111f1b605d019923f82a4af194f9bab1c5ed5da6d8118
def shaRow1 : Nat := 0xd807aa98a303024212835b0145706fbe243185be4ee4b28c550c7dc3d5ffb4e272be5d74f27b896f80deb1fe3b1696b19bdc06a725c71235c19bf174cf692694
def shaRow2 : Nat := 0xe49b69c19ef14ad2efbe4786384f25e30fc19dc68b8cd5b5240ca1cc77ac9c652de92c6f592b02754a7484aa6ea6e4835cb0a9dcbd41fbd476f988da831153b5
def shaRow3 : Nat := 0x983e5152ee66dfaba831c66d2db43210b00327c898fb213fbf597fc7beef0ee4c6e00bf33da88fc2d5a79147930aa72506ca6351e003826f142929670a0e6e70
def shaRow4 : Nat := 0x27b70a8546d22ffc2e1b21385c26c9264d2c6dfc5ac42aed53380d139d95b3df650a73548baf63de766a0abb3c77b2a881c2c92e47edaee692722c851482353b
def shaRow5 : Nat := 0xa2bfe8a14cf10364a81a664bbc423001c24b8b70d0f89791c76c51a30654be30d192e819d6ef5218d69906245565a910f40e35855771202a106aa07032bbd1b8
def shaRow6 : Nat := 0x19a4c116b8d2d0c81e376c085141ab532748774cdf8eeb9934b0bcb5e19b48a8391c0cb3c5c95a634ed8aa4ae3418acb5b9cca4f7763e373682e6ff3d6b2b8a3
def shaRow7 : Nat := 0x748f82ee5defb2fc78a5636f43172f6084c87814a1f0ab728cc702081a6439ec90befffa23631e28a4506cebde82bde9bef9a3f7b2c67915c67178f2e372532b
def shaRow8 : Nat := 0xca273eceea26619cd186b8c721c0c207eada7dd6cde0eb1ef57d4f7fee6ed17806f067aa72176fba0a637dc5a2c898a6113f9804bef90dae1b710b35131c471b
def shaRow9 : Nat := 0x28db77f523047d8432caab7b40c724933c9ebe0a15c9bebc431d67c49c100d4c4cc5d4becb3e42b6597f299cfc657e2a5fcb6fab3ad6faec6c44198c4a475817

def shaConsts : List Nat :=
  [shaRow0, shaRow1, shaRow2, shaRow3, shaRow4, shaRow5, shaRow6, shaRow7, shaRow8, shaRow9].flatMap (wordsOf 8)

/-- The initial hash value of SHA-384: of the square roots of the ninth to the sixteenth prime. -/
def shaStart : Nat :=
  0xcbbb9d5dc1059ed8629a292a367cd5079159015a3070dd17152fecd8f70e593967332667ffc00b318eb44a8768581511db0c2e0d64f98fa747b5481dbefa4fa4

/-- The exclusive or of a 64-bit word rotated right by each of some amounts. -/
def mixRot (rs : List Nat) (x : Nat) : Nat := (rs.map fun r => x >>> r + x % 2 ^ r * 2 ^ (64 - r)).foldl Nat.xor 0

/-- The big-endian value of bytes. -/
def beNat (bs : List Byte) : Nat := bs.foldl (fun a b => 256 * a + b.toNat) 0

/-- `n` big-endian bytes of a value. -/
def beBytes (n x : Nat) : List Byte := (leBytes n x).reverse

/-- Groups of `k` elements, at most `n` of them. -/
def groups {α : Type} (k : Nat) : Nat → List α → List (List α)
  | 0, _ => []
  | n + 1, l => if l.isEmpty then [] else l.take k :: groups k n (l.drop k)

/-- The padded message: a one bit, zeros, and the length in bits as 128 bits. -/
def shaPad (m : List Byte) : List Byte :=
  let z := (2 * 128 - 17 - m.length % 128) % 128
  m ++ (0x80 : Byte) :: List.replicate z 0 ++ beBytes 16 (8 * m.length)

/-- The word of the message schedule that follows sixteen words. -/
def nextWord (w : List Nat) : Nat :=
  let sigma (rs : List Nat) (shift i : Nat) : Nat := let x := w.getD i 0; Nat.xor (mixRot rs x) (x >>> shift)
  (w.getD 0 0 + sigma [1, 8] 7 1 + w.getD 9 0 + sigma [19, 61] 6 14) % 2 ^ 64

/-- The working variables of the compression. -/
structure ShaVars where
  a : Nat
  b : Nat
  c : Nat
  d : Nat
  e : Nat
  f : Nat
  g : Nat
  h : Nat
  deriving DecidableEq, Repr

/-- One round with a constant and a word of the schedule. -/
def ShaVars.round (v : ShaVars) (k w : Nat) : ShaVars :=
  let choose := Nat.xor v.g (Nat.land v.e (Nat.xor v.f v.g))
  let most := Nat.lor (Nat.land v.a v.b) (Nat.land v.c (Nat.lor v.a v.b))
  let t := v.h + mixRot [14, 18, 41] v.e + choose + k + w
  { a := (t + mixRot [28, 34, 39] v.a + most) % 2 ^ 64, b := v.a, c := v.b, d := v.c, e := (v.d + t) % 2 ^ 64, f := v.e, g := v.f, h := v.g }

/-- The rounds of a block: `w` holds the sixteen words of the schedule that come next. -/
def shaRounds : List Nat → List Nat → ShaVars → ShaVars
  | [], _, v => v
  | k :: ks, w, v => shaRounds ks (w.drop 1 ++ [nextWord w]) (v.round k (w.getD 0 0))

/-- A block of 128 bytes into the hash value, which is eight words side by side. -/
def shaBlock (x : Nat) (block : List Byte) : Nat :=
  match wordsOf 8 x with
  | [a, b, c, d, e, f, g, h] =>
    let v := shaRounds shaConsts (wordsOf 16 (beNat block)) ⟨a, b, c, d, e, f, g, h⟩
    [a + v.a, b + v.b, c + v.c, d + v.d, e + v.e, f + v.f, g + v.g, h + v.h].foldl (fun y z => y * 2 ^ 64 + z % 2 ^ 64) 0
  | _ => x

/-- SHA-384 of a message: 48 bytes. -/
def sha384 (m : List Byte) : List Byte :=
  let p := shaPad m
  (beBytes 64 ((groups 128 (p.length / 128) p).foldl shaBlock shaStart)).take 48

/-! ## ECDSA over P-384 -/

def p384P : Nat := 2 ^ 384 - 2 ^ 128 - 2 ^ 96 + 2 ^ 32 - 1
def p384N : Nat := 0xffffffffffffffffffffffffffffffffffffffffffffffffc7634d81f4372ddf581a0db248b0a77aecec196accc52973
def p384B : Nat := 0xb3312fa7e23ee7e4988e056be3f82d19181d9c6efe8141120314088f5013875ac656398d8a2ed19d2a85c8edd3ec2aef
def p384G : Nat × Nat :=
  (0xaa87ca22be8b05378eb1c71ef320ad746e1d3b628ba79b9859f741e082542a385502f25dbf55296c3a545e3872760ab7,
   0x3617de4a96262c6f5d9e98bf9292dc29f8f41dbd289a147ce9da3113b5f0b8c00a60b1ce1d7e819d7a431d7c90ea0e5f)

/-- `b ^ e mod m`, the exponent by its low `n` bits. -/
def powMod (m : Nat) : Nat → Nat → Nat → Nat
  | 0, _, _ => 1 % m
  | n + 1, b, e =>
    let r := powMod m n (b * b % m) (e / 2)
    if e % 2 = 1 then b * r % m else r

/-- The inverse modulo a prime of 384 bits. -/
def invMod (m x : Nat) : Nat := powMod m 384 (x % m) (m - 2)

/-- Point addition on P-384; `none` is the point at infinity. -/
def ecAdd (p q : Option (Nat × Nat)) : Option (Nat × Nat) :=
  match p, q with
  | none, q => q
  | p, none => p
  | some (x1, y1), some (x2, y2) =>
    let m := p384P
    if x1 = x2 ∧ (y1 + y2) % m = 0 then none
    else
      let l := if x1 = x2 then (3 * x1 * x1 + m - 3) * invMod m (2 * y1) % m
        else (y2 + m - y1) * invMod m (x2 + m - x1) % m
      let x3 := (l * l + 2 * m - x1 - x2) % m
      some (x3, (l * (x1 + m - x3) + m - y1) % m)

/-- Scalar multiplication by the low `n` bits of `k`. -/
def ecMul : Nat → Nat → Option (Nat × Nat) → Option (Nat × Nat)
  | 0, _, _ => none
  | n + 1, k, p =>
    let r := ecMul n (k / 2) (ecAdd p p)
    if k % 2 = 1 then ecAdd p r else r

/-- Is a pair of coordinates a point of the curve? -/
def ecOn (x y : Nat) : Bool := x < p384P && y < p384P && (y * y) % p384P == (x * x * x + (p384P - 3) * x + p384B) % p384P

/-- Does the signature `(r, s)` of the message verify under the public key (FIPS 186-5)? -/
def ecdsaOk (x y r s : Nat) (msg : List Byte) : Bool :=
  ecOn x y && decide (0 < r ∧ r < p384N ∧ 0 < s ∧ s < p384N) &&
  let z := beNat (sha384 msg)
  let w := invMod p384N s
  match ecAdd (ecMul 384 (z * w % p384N) (some p384G)) (ecMul 384 (r * w % p384N) (some (x, y))) with
  | none => false
  | some (x1, _) => x1 % p384N == r

/-- A signature of 96 bytes (r, then s) by a public key of 96 bytes (X, then Y), as R36 lays them out. -/
def sigOk (key sig msg : List Byte) : Bool :=
  ecdsaOk (beNat (key.take 48)) (beNat (key.drop 48)) (beNat (sig.take 48)) (beNat (sig.drop 48)) msg

/-! ## CRC-32C (R333) -/

/-- One bit of the reflected CRC-32C (polynomial 0x1EDC6F41, whose bits reversed are 0x82F63B78). -/
def crcBit (c : Nat) : Nat := if c % 2 = 1 then (c / 2) ^^^ 0x82F63B78 else c / 2

def crcByte (c : Nat) (b : Byte) : Nat :=
  crcBit (crcBit (crcBit (crcBit (crcBit (crcBit (crcBit (crcBit (c ^^^ b.toNat))))))))

/-- CRC-32C: initial value 0xFFFFFFFF, least significant bit first, result inverted. -/
def crc32c (bs : List Byte) : Nat := (bs.foldl crcByte 0xFFFFFFFF) ^^^ 0xFFFFFFFF

end Sys2Proof.Machine
end

