-- ==== Sys2Proof/Machine/Catalogue.lean ====
section
/-!
DEFINITION. Catalogue.lean: reading a Catalogue image and its checks (R33 to R38, and the layouts and checks that
other chapters add to check 5).
-/

namespace Sys2Proof.Machine

/-- Are the bytes `[lo, hi)` of a record all zero? -/
def zeros (bs : List Byte) (lo hi : Nat) : Bool := ((bs.drop lo).take (hi - lo)).all (· == 0)

/-- An entry of the section directory (R34). -/
structure SectionDir where
  type  : Nat
  index : Nat
  bytes : List Byte
  off   : Nat
  size  : Nat
  deriving DecidableEq, Repr

def imgLength (img : List Byte) : Nat := fieldAt img 0x00C 4

def imgSequence (img : List Byte) : Nat := fieldAt img 0x010 8

/-- The directory of an image (R34). -/
def imgSections (img : List Byte) : List SectionDir :=
  (List.range (fieldAt img 0x032 2)).map fun i =>
    let e := (img.drop (0x080 + 16 * i)).take 16
    let off := fieldAt e 8 4
    let size := fieldAt e 12 4
    { type := fieldAt e 0 2, index := fieldAt e 2 2, bytes := (img.drop off).take size, off := off, size := size }

def sectionOf (ss : List SectionDir) (type index : Nat) : Option SectionDir :=
  ss.find? fun x => x.type == type && x.index == index

/-- Check 1 of R37: MAGIC "SKVCATLG", FORMAT 1, LENGTH fits the slot and is a multiple of 16 (R33). -/
def catCheck1 (img : List Byte) : Bool :=
  img.take 8 == [0x53, 0x4B, 0x56, 0x43, 0x41, 0x54, 0x4C, 0x47] && fieldAt img 0x008 4 == 1 &&
  decide (0x180 ≤ imgLength img) && decide (imgLength img ≤ flashSize 3) && imgLength img % 16 == 0 &&
  decide (imgLength img ≤ img.length)

/-- Check 2 of R37: entries lie inside the image and before the trailer, none overlap, reserved fields are zero: those of the header, the
directory and the trailer. DESIGN CHOICE (log entry 156): the fields inside sections are check 5's, which reads this module's. -/
def catCheck2 (img : List Byte) : Bool :=
  let n := fieldAt img 0x032 2
  let m := fieldAt img 0x030 2
  let ss := imgSections img
  let stop := imgLength img - 0x100
  decide (1 ≤ n) && decide (n ≤ 1024) && m % 2 == 0 && decide (16 ≤ m) && decide (m ≤ 64) &&
  zeros img 0x034 0x038 && zeros img 0x040 0x080 && zeros img (stop + 0xC0) (stop + 0x100) &&
  ss.all (fun x => x.off % 16 == 0 && x.size % 16 == 0 && decide (0x80 + 16 * n ≤ x.off) && decide (x.off + x.size ≤ stop)) &&
  (List.range n).all (fun i => zeros img (0x084 + 16 * i) (0x088 + 16 * i)) &&
  (List.range n).all (fun i => (List.range i).all fun j =>
    match ss[i]?, ss[j]? with
    | some a, some b => decide (a.off + a.size ≤ b.off) || decide (b.off + b.size ≤ a.off)
    | _, _ => true)

/-- Check 3 of R37: which sections exist, and what SLOTMAP names. -/
def catCheck3 (img : List Byte) : Bool :=
  let m := fieldAt img 0x030 2
  let ss := imgSections img
  let count (t : Nat) := (ss.filter (·.type == t)).length
  let slots : List Nat := match sectionOf ss 2 0 with
    | some x => (x.bytes.take 64).map fun (b : Byte) => b.toNat
    | none => []
  let used := slots.filter (· ≠ 0xFF)
  count 1 == 1 && count 2 == 1 && count 5 == 1 && decide (count 6 ≤ 1) && count 3 == m &&
  ss.all (fun x => decide (1 ≤ x.type ∧ x.type ≤ 6) && (x.type == 3 || x.type == 4 || x.index == 0)) &&
  (List.range m).all (fun i => (sectionOf ss 3 i).isSome) && slots.length == 64 &&
  used.all (fun x => decide (x < m)) && decide used.Nodup

/-- Does an image accept a numeric contract version (R33, check 4 of R37)? -/
def ncvAccepts (img : List Byte) (ncv : Nat) : Bool :=
  let a := (List.range 4).map fun i => fieldAt img (0x020 + 4 * i) 4
  a.all (· == 0) || (ncv ≠ 0 && a.contains ncv)

/-- The bytes the signature covers (R36). -/
def imgSigned (img : List Byte) : List Byte := img.take (imgLength img - 0x100)

def imgTrailer (img : List Byte) : List Byte := (img.drop (imgLength img - 0x100)).take 0x100

/-- The customer key slot an image's public key hashes to, enrolled and not revoked (R30). -/
def keySlotOf (f : Fuses) (key : List Byte) : Option Nat :=
  (List.range 4).find? fun i =>
    match f.keys.toList[i]? with
    | some k => k.hash == some (sha384 key) && !k.revoked
    | none => false

/-- The module ID that SLOTMAP gives a SLOT_ID (R41). -/
def slotModule (img : List Byte) (slot : Nat) : Option Nat :=
  match sectionOf (imgSections img) 2 0 with
  | some x => let v := fieldAt x.bytes slot 1; if v = 0xFF then none else some v
  | none => none

/-! ## The sections -/

def tickRecOf (d : List Byte) : TickRec :=
  { periodUs := fieldAt d 0 4, master := fieldAt d 4 1, alternate := fieldAt d 5 1, tickInUse := fieldAt d 6 1,
    align := fieldAt d 8 2 }

/-- The MEMBER lists of the rings (R323). -/
def ringsOf (d : List Byte) : List (List Nat) :=
  (List.range (fieldAt d 0x20 1)).map fun r =>
    let x := (d.drop (0x40 + 48 * r)).take 48
    ((x.drop 0x10).take (fieldAt x 0 1)).map (·.toNat)

/-- The checks of the DOMAIN section: R57, R323, and what R325 asks of the rings' member lists. -/
def domainOk (modules : Nat) (d : List Byte) : Bool :=
  let t := tickRecOf d
  let rs := ringsOf d
  let n := fieldAt d 0x20 1
  decide (50 ≤ t.periodUs ∧ t.periodUs ≤ 100000) && decide (t.master < modules ∧ t.alternate < modules) &&
  t.master != t.alternate && decide (t.tickInUse < 4) && decide (20 ≤ t.align ∧ t.align ≤ 200) &&
  zeros d 7 8 && zeros d 0x0A 0x20 && decide (1 ≤ n ∧ n ≤ 128) && fieldAt d 0x21 1 == modules / 2 &&
  zeros d 0x22 0x24 && decide (1 ≤ fieldAt d 0x24 1 ∧ fieldAt d 0x24 1 ≤ 128) &&
  (List.range 3).all (fun i => fieldAt d (0x25 + i) 1 != 0) && zeros d 0x28 0x40 &&
  decide (0x40 + 48 * n ≤ d.length) &&
  (List.range n).all (fun r =>
    let x := (d.drop (0x40 + 48 * r)).take 48
    let l := fieldAt x 0 1
    decide (3 ≤ l ∧ l ≤ 32) && zeros x 1 0x10 && ((x.drop (0x10 + l)).all (· == 0xFF))) &&
  rs.all (fun m => decide m.Nodup && m.all (· < modules)) &&
  (List.range modules).all (fun i => (List.range i).all fun j => rs.any fun m => m.contains i && m.contains j)

/-- What R325 asks of the attachment records of module `i`: the rings they name, and each membership named once. The records of
other modules are checked for structure only (R38). -/
def attachmentsOk (i : Nat) (atts : List AttRec) (d : List Byte) : Bool :=
  let rs := ringsOf d
  let mine : List AttRec := atts.filter (·.ring != 0xFF)
  mine.all (fun a => decide (a.ring < rs.length) && (rs.getD a.ring [])[a.position]? == some i) &&
  decide (mine.map fun (a : AttRec) => a.ring).Nodup &&
  (List.range rs.length).all (fun r => !(rs.getD r []).contains i || mine.any (·.ring == r))

def attRecsOf (m : List Byte) : List AttRec :=
  (List.range 8).map fun k => { ring := fieldAt m (8 * k) 1, position := fieldAt m (8 * k + 1) 1 }

/-- The partition record of a tenant (R411, R412). -/
def partitionOf (m : List Byte) (n : Nat) : Partition :=
  let r := (m.drop (0x400 + 0x200 * n)).take 0x200
  { enabled := fieldAt r 0 1 % 2 == 1, sealed := fieldAt r 0 1 / 2 % 2 == 1, twin := fieldAt r 0 1 / 4 % 4,
    rings := fieldAt r 1 1, spmFirst := fieldAt r 2 1, spmBanks := fieldAt r 3 1, xreq := fieldAt r 4 2,
    sessFirst := fieldAt r 8 2, sessCount := fieldAt r 0xA 2, rcpFirst := fieldAt r 0xC 2, rcpCount := fieldAt r 0xE 2,
    tileset := fieldAt r 0x10 16, chgroups := fieldAt r 0x20 4,
    mscWays := (List.range 4).map fun i => fieldAt r (0x28 + 2 * i) 2,
    drcWays := (List.range 8).map fun i => fieldAt r (0x30 + 2 * i) 2,
    spMask := fieldAt r 0x40 12, stageBase := fieldAt r 0x50 8, stageSize := fieldAt r 0x58 8,
    layers := fieldAt r 0x60 1, heads := fieldAt r 0x61 1, dsel := fieldAt r 0x62 1, fmtKv := fieldAt r 0x63 1,
    granules := fieldAt r 0x64 4, poolBase := fieldAt r 0x68 8, dirBase := fieldAt r 0x70 8,
    mapBlocks := fieldAt r 0x78 4, raw := r }

def popcount (n m : Nat) : Nat := (bitsOf n m).length

/-- TA_SIZE (R414). -/
def Partition.taSize (p : Partition) : Nat := popcount 32 p.chgroups * 0x7E0000000 - 0x10000000

/-- Bytes of one granule for one layer, LG, and of one granule, G_B (R218). -/
def Partition.lg (p : Partition) : Nat :=
  p.heads * (32 * dimOf p.dsel * (if p.fmtKv = 1 then 16 else 8) / 8 + (if p.fmtKv = 1 then 0 else 64))

def Partition.granuleBytes (p : Partition) : Nat := p.layers * p.lg

/-- Bytes of a session block (R221). -/
def Partition.sessBytes (p : Partition) : Nat := 1024 + 64 * p.layers

/-- Bytes of the directory area: a block for each session of the range, then MAPBLOCKS map blocks of 4 KiB (R221). -/
def Partition.dirBytes (p : Partition) : Nat := p.sessCount * p.sessBytes + p.mapBlocks * 4096

def apart (a n b m : Nat) : Bool := decide (n = 0 ∨ m = 0 ∨ a + n ≤ b ∨ b + m ≤ a)

/-- The checks of R216, R217, R253, R364, R375 and R413 on one enabled record. With GRANULES 0 there is no pool, and the ranges of the Larder
fields that describe it are not checked. DESIGN CHOICE (log entry 157). -/
def partitionOk (p : Partition) : Bool :=
  let pool := if p.granules = 0 then 0 else p.granules * p.granuleBytes
  let dir := if p.granules = 0 then 0 else p.dirBytes
  p.chgroups != 0 && p.tileset != 0 && decide (1 ≤ p.rings ∧ p.rings ≤ 8) && decide (p.spmFirst ≤ 31) &&
  decide (1 ≤ p.spmBanks ∧ p.spmFirst + p.spmBanks ≤ 32) && decide (16 ≤ p.xreq ∧ p.xreq ≤ 768) && p.xreq % 16 == 0 &&
  decide (p.sessFirst + p.sessCount ≤ 8192) && decide (p.rcpFirst ≤ 4095) && decide (p.rcpFirst + p.rcpCount ≤ 4096) &&
  p.stageBase % 0x100000 == 0 && p.stageSize % 0x100000 == 0 && decide (p.stageBase + p.stageSize ≤ p.taSize) &&
  (p.granules == 0 ||
    (decide (1 ≤ p.layers ∧ p.layers ≤ 16) && decide (1 ≤ p.heads ∧ p.heads ≤ 64) && decide (p.dsel ≤ 4) &&
     (p.fmtKv == 1 || p.fmtKv == 3) && p.granules % 64 == 0 && p.poolBase % 0x10000 == 0 && p.dirBase % 4096 == 0 &&
     decide (1 ≤ p.mapBlocks ∧ p.mapBlocks ≤ 1048575))) &&
  decide (p.poolBase + pool ≤ p.taSize) && decide (p.dirBase + dir ≤ p.taSize) &&
  apart p.poolBase pool p.dirBase dir && apart p.poolBase pool p.stageBase p.stageSize &&
  apart p.dirBase dir p.stageBase p.stageSize && decide (fieldAt p.raw 0 1 < 16) && zeros p.raw 6 8 &&
  zeros p.raw 0x24 0x28 && zeros p.raw 0x4C 0x50 && zeros p.raw 0x7C 0x200

/-- Two enabled records beside each other: everything disjoint that must be (R253, R364, R375, R413). -/
def partitionsApart (a b : Partition) : Bool :=
  a.chgroups &&& b.chgroups == 0 && a.spMask &&& b.spMask == 0 &&
  apart a.sessFirst a.sessCount b.sessFirst b.sessCount && apart a.rcpFirst a.rcpCount b.rcpFirst b.rcpCount &&
  (a.mscWays.zip b.mscWays).all (fun (x, y) => x &&& y == 0) &&
  (a.drcWays.zip b.drcWays).all (fun (x, y) => x &&& y == 0) &&
  (a.tileset &&& b.tileset == 0 ||
    (apart a.spmFirst a.spmBanks b.spmFirst b.spmBanks && decide (a.xreq + b.xreq ≤ 768)))

/-- The region records of the COMMON section (R418). -/
def commonsOf (c : List Byte) : List CommonRec :=
  (List.range (fieldAt c 0 1)).map fun i =>
    let r := (c.drop (16 + 64 * i)).take 64
    { loader := fieldAt r 0 1, readers := fieldAt r 2 2, groups := fieldAt r 4 4, size := fieldAt r 8 8,
      taWin := fieldAt r 0x10 8 }

def allPairs {α : Type} (f : α → α → Bool) : List α → Bool
  | [] => true
  | x :: xs => xs.all (f x) && allPairs f xs

/-- The checks of R418. -/
def commonsOk (parts : List Partition) (c : List Byte) : Bool :=
  let rs := commonsOf c
  let live := parts.filter (·.enabled)
  let cw := (List.range 4).map fun i => fieldAt c (8 + 2 * i) 2
  decide (1 ≤ rs.length ∧ rs.length ≤ 8) && zeros c 1 8 && decide (16 + 64 * rs.length ≤ c.length) &&
  live.all (fun p => (p.mscWays.zip cw).all fun (x, y) => x &&& y == 0) &&
  rs.all (fun r =>
    ((parts[r.loader]?.map (·.enabled)).getD false) && bitOf r.readers r.loader && r.size % 0x100000 == 0 &&
    decide (r.size ≤ popcount 32 r.groups * 0x7E0000000) && r.taWin % 0x40000000 == 0 &&
    live.all (fun p => p.chgroups &&& r.groups == 0) &&
    (bitsOf 16 r.readers).all (fun n => match parts[n]? with
      | some p => decide (p.taSize ≤ r.taWin) && decide (r.taWin + r.size ≤ 2 ^ 40)
      | none => false)) &&
  allPairs (fun a b => a.groups &&& b.groups == 0 &&
    (a.readers &&& b.readers == 0 || apart a.taWin a.size b.taWin b.size)) rs &&
  (List.range rs.length).all (fun i =>
    let r := (c.drop (16 + 64 * i)).take 64
    zeros r 1 2 && zeros r 0x18 64)

/-- The entries of a SCHEDULE section (R72, R73). -/
def entriesOf (t : List Byte) : List Entry :=
  (List.range (fieldAt t 4 2)).map fun i =>
    let e := (t.drop (32 + 32 * i)).take 32
    { start := fieldAt e 0 4, dur := fieldAt e 4 4, owner := fieldAt e 8 1, mask := fieldAt e 0x10 16 }

def nondecreasing : List Nat → Bool
  | a :: b :: l => decide (a ≤ b) && nondecreasing (b :: l)
  | _ => true

/-- The checks of a schedule table (R72 to R75). -/
def tableOk (period : Nat) (parts : List Partition) (t : List Byte) : Bool :=
  let es := entriesOf t
  fieldAt t 0 4 == period && decide (1 ≤ es.length ∧ es.length ≤ 256) && zeros t 6 32 &&
  decide (t.length = 32 + 32 * es.length) && nondecreasing (es.map (·.start)) &&
  es.all (fun e => decide (1 ≤ e.dur) && decide (e.start + e.dur ≤ period * 10 - 40) && decide (e.owner ≤ 0x16) &&
    (decide (0x10 ≤ e.owner) || match parts[e.owner]? with
      | some p => p.enabled && e.mask &&& p.tileset == e.mask
      | none => false)) &&
  allPairs (fun a b => a.mask &&& b.mask == 0 || decide (a.start + a.dur ≤ b.start) || decide (b.start + b.dur ≤ a.start)) es &&
  (List.range es.length).all (fun i => zeros ((t.drop (32 + 32 * i)).take 32) 9 16)

/-- A rail's limit range and default in A (R523); rails 24 to 27 have none. -/
def railRange (i : Nat) : Nat × Nat × Nat :=
  if i < 8 then (280, 952, 900) else if i < 16 then (40, 136, 120) else if i < 20 then (90, 306, 300)
  else if i < 24 then (75, 255, 250) else (0, 0, 0)

/-- The checks of the power record (R524). -/
def powerOk (m : List Byte) : Bool :=
  let r := (m.drop 0x100).take 128
  let lim := fieldAt r 0 2
  let ceil := fieldAt r 2 2
  decide (3000 ≤ lim ∧ lim ≤ ceil ∧ ceil ≤ 6500) && zeros r 4 0x10 && zeros r 0x48 0x80 &&
  (List.range 28).all (fun i =>
    let v := fieldAt r (0x10 + 2 * i) 2
    v == 0 || (decide ((railRange i).1 ≤ v ∧ v ≤ (railRange i).2.1) && decide (i < 24)))

/-- A WEAR field: 0 takes the default, anything else must lie in its range (R508). -/
def wearField (v lo hi dflt : Nat) : Option Nat := if v = 0 then some dflt else if lo ≤ v ∧ v ≤ hi then some v else none

/-- The WEAR section (R508). -/
def wearOf (w : List Byte) : Option Wear :=
  if !(zeros w 0x0A 0x0C && zeros w 0x12 0x20) then none else do
    let bankCe ← wearField (fieldAt w 0 4) 1 65535 256
    let hbmCe ← wearField (fieldAt w 4 4) 1 65535 16
    let bistFails ← wearField (fieldAt w 8 1) 1 3 1
    let optMargin ← wearField (fieldAt w 9 1) 5 50 15
    let optFec ← wearField (fieldAt w 0xC 4) 1000 100000000 1000000
    let phaseDev ← wearField (fieldAt w 0x10 1) 5 50 20
    let phaseTemp ← wearField (fieldAt w 0x11 1) 90 140 125
    some { bankCe, hbmCe, bistFails, optMargin, optFec, phaseDev, phaseTemp }

/-- The schedule list's positions (R71). -/
def tableIndexes (m : List Byte) : List Nat :=
  (List.range (fieldAt m 0x300 1)).map fun i => fieldAt m (0x310 + 2 * i) 2

/-- Check 5 of R37 for module `id`: what its sections give, when every check passes. -/
def catContent (img : List Byte) (id : Nat) (slot : Nat) : Option Cat :=
  let ss := imgSections img
  let modules := fieldAt img 0x030 2
  match sectionOf ss 1 0, sectionOf ss 3 id, (sectionOf ss 5 0).bind (fun w => wearOf w.bytes) with
  | some d, some m, some wear =>
  let modOf (i : Nat) : List Byte := ((sectionOf ss 3 i).map (·.bytes)).getD []
  let parts := (List.range 16).map (partitionOf m.bytes)
  let live := parts.filter (·.enabled)
  let idx := tableIndexes m.bytes
  let tabs := idx.map fun i => ((sectionOf ss 4 i).map (·.bytes)).getD []
  let t := tickRecOf d.bytes
  let commons := match sectionOf ss 6 0 with
    | some c => commonsOf c.bytes
    | none => []
  let cways := match sectionOf ss 6 0 with
    | some c => (List.range 4).map fun i => fieldAt c.bytes (8 + 2 * i) 2
    | none => [0, 0, 0, 0]
  let group := fieldAt m.bytes 0x200 1
  if decide (0x2400 ≤ m.size) && zeros m.bytes 0x40 0x100 && zeros m.bytes 0x180 0x200 && zeros m.bytes 0x210 0x300 &&
     zeros m.bytes 0x301 0x310 && zeros m.bytes 0x320 0x400 && zeros m.bytes 0x2400 m.size &&
     (attRecsOf m.bytes).length == 8 && (List.range 8).all (fun k => zeros m.bytes (8 * k + 2) (8 * k + 8)) &&
     domainOk modules d.bytes && attachmentsOk id (attRecsOf m.bytes) d.bytes &&
     live.all partitionOk && allPairs partitionsApart live &&
     parts.all (fun p => p.enabled || p.raw.all (· == 0)) &&
     decide ((live.map (·.granules)).sum ≤ 16777216) &&
     (match sectionOf ss 6 0 with | some c => commonsOk parts c.bytes | none => true) &&
     live.all (fun p => (bitsOf 8 (2 ^ commons.length - 1)).all fun i => match commons[i]? with
       | some c => p.chgroups &&& c.groups == 0
       | none => true) &&
     decide (1 ≤ idx.length ∧ idx.length ≤ 8) && decide idx.Nodup &&
     (List.range (8 - idx.length)).all (fun i => fieldAt m.bytes (0x310 + 2 * (idx.length + i)) 2 == 0xFFFF) &&
     idx.all (fun i => (sectionOf ss 4 i).isSome) && tabs.all (tableOk t.periodUs parts) && powerOk m.bytes &&
     (group == 0xFF || (decide (group < 32) && live.all (fun p => !bitOf p.chgroups group) &&
       commons.all (fun c => !bitOf c.groups group))) &&
     zeros m.bytes 0x202 0x204 && zeros m.bytes 0x206 0x208 && zeros m.bytes 0x20C 0x210
  then some
    { sequence := imgSequence img, domainId := fieldAt img 0x018 8, modules := modules,
      ncvAccept := (List.range 4).map fun i => fieldAt img (0x020 + 4 * i) 4,
      digest := sha384 (imgSigned img), keySlot := slot, tick := t,
      vcw := (List.range 4).map fun i => fieldAt d.bytes (0x24 + i) 1, ringsOf := ringsOf d.bytes, wear := wear,
      cways := cways, commons := commons, moduleId := id, atts := attRecsOf m.bytes,
      plimit := fieldAt m.bytes 0x100 2, pceil := fieldAt m.bytes 0x102 2,
      rlim := (List.range 28).map fun i =>
        let v := fieldAt m.bytes (0x110 + 2 * i) 2
        if v = 0 then (railRange i).2.2 else v,
      traceGroup := group, vitCtl := fieldAt m.bytes 0x201 1 % 8, vitKinds := fieldAt m.bytes 0x204 2 % 0x8000,
      vitTenants := fieldAt m.bytes 0x208 4 % 0x20000, tables := tabs.map entriesOf, parts := parts,
      enabledBy := (List.range modules).map fun i =>
        ((List.range 16).filter fun n => (partitionOf (modOf i) n).enabled).foldl (fun a n => a + 2 ^ n) 0,
      sealedBy := (List.range modules).map fun i =>
        ((List.range 16).filter fun n => (partitionOf (modOf i) n).sealed).foldl (fun a n => a + 2 ^ n) 0,
      twinParts := (List.range 16).map fun n => (partitionOf (modOf (if id % 2 = 0 then id + 1 else id - 1)) n).raw }
  else none
  | _, _, _ => none

/-- What is found out about an image at a start or by WRITE_CAT: the key slot that verifies it, the structure checks 1
to 3, the signature. -/
inductive CatVerdict where
  | badFormat | badSig | keyUnknown
  | good (slot : Nat)
  deriving DecidableEq, Repr

/-- Checks 1 to 3 and the signature (R30, R36, R37). -/
def catVerify (f : Fuses) (img : List Byte) : CatVerdict :=
  if !(catCheck1 img && catCheck2 img && catCheck3 img) then .badFormat
  else
    let t := imgTrailer img
    match keySlotOf f (t.take 96) with
    | none => .keyUnknown
    | some k => if sigOk (t.take 96) ((t.drop 96).take 96) (imgSigned img) then .good k else .badSig

/-- Check 5 of R37 for an image whose SLOTMAP names no module for this slot: only the sections that concern every module. -/
def catContentOthers (img : List Byte) : Bool :=
  let ss := imgSections img
  match sectionOf ss 1 0, (sectionOf ss 5 0).bind (fun w => wearOf w.bytes) with
  | some d, some _ => domainOk (fieldAt img 0x030 2) d.bytes
  | _, _ => false

/-- What an image that verifies (R30) gives a SLOT_ID under check 5 (R37): `some none` when its SLOTMAP names no module for the slot
(R41). -/
def catSound (f : Fuses) (slotId : Nat) (img : List Byte) : Option (Option Cat) :=
  match catVerify f img with
  | .good k =>
    match slotModule img slotId with
    | none => if catContentOthers img then some none else none
    | some id => (catContent img id k).map some
  | _ => none

/-- A valid Catalogue image for the firmware's NCV and this SLOT_ID (R30, R37): `some none` when it is valid and its
SLOTMAP names no module for the slot, so that the start stops with NO_SECTION (R41). -/
def catValid (f : Fuses) (ncv slotId : Nat) (img : List Byte) : Option (Option Cat) :=
  if ncvAccepts img ncv then catSound f slotId img else none

end Sys2Proof.Machine
end

