-- ==== Sys2Proof/Machine/Registers.lean ====
section
/-!
DEFINITION. Registers.lean: where every register lies in both views, and the access code of every field
(R9 to R12, R553 to R566). The home of a register is its PF offset; the first tenant windows have their home in the
second ones (R565).
-/

namespace Sys2Proof.Machine

/-- The access codes of R9; `no` is the em dash (R10). -/
inductive Code where
  | ro | rw | w1c | w1s | wo | no
  deriving DecidableEq, Repr

/-- A field of a register word: its bits, and its code in the PF and in the VF view. -/
structure RegField where
  hi : Nat
  lo : Nat
  pf : Code
  vf : Code
  deriving DecidableEq, Repr

/-- A register, or a pattern of them: `n1` blocks `s1` bytes apart, in each `n2` blocks `s2` bytes apart, in each
`bytes` bytes made of words of `unit` bytes (4, or 8 for a register of 64 bits) with the fields given. -/
structure RegRow where
  base   : Nat
  n1     : Nat
  s1     : Nat
  n2     : Nat
  s2     : Nat
  bytes  : Nat
  unit   : Nat
  fields : List RegField
  deriving DecidableEq, Repr

/-- A register that stands once. -/
def reg1 (base bytes unit : Nat) (fields : List RegField) : RegRow := ⟨base, 1, 1, 1, 1, bytes, unit, fields⟩

/-- A register repeated `n` times, `s` bytes apart. -/
def regN (base n s bytes unit : Nat) (fields : List RegField) : RegRow := ⟨base, n, s, 1, s, bytes, unit, fields⟩

/-- A register of the tenant windows, at its home in the second windows (R565). -/
def regT (off bytes unit : Nat) (fields : List RegField) : RegRow :=
  ⟨0x110000 + off, 16, 0x1000, 1, 0x1000, bytes, unit, fields⟩

/-- A register of the ring blocks (R410). -/
def regR (off bytes unit : Nat) (fields : List RegField) : RegRow :=
  ⟨0x200000 + off, 128, 0x100, 1, 0x100, bytes, unit, fields⟩

/-- A whole word or doubleword with these codes. -/
def whole (bits : Nat) (pf vf : Code) : List RegField := [⟨bits - 1, 0, pf, vf⟩]

/-- The MOD block (R52, R483, R563). -/
def modRows : List RegRow :=
  [ reg1 0x000 4 4 (whole 32 .ro .no), reg1 0x004 4 4 [⟨2, 0, .ro, .no⟩, ⟨8, 8, .w1c, .no⟩],
    reg1 0x008 4 4 (whole 32 .ro .no), reg1 0x00C 4 4 (whole 32 .ro .no), reg1 0x010 8 8 (whole 64 .ro .no),
    reg1 0x018 8 8 (whole 64 .ro .no), reg1 0x020 4 4 (whole 32 .ro .no), reg1 0x024 4 4 (whole 32 .ro .no),
    reg1 0x030 4 4 [⟨8, 0, .w1c, .no⟩], reg1 0x034 4 4 [⟨8, 0, .rw, .no⟩],
    reg1 0x040 4 4 [⟨1, 0, .ro, .no⟩, ⟨2, 2, .wo, .no⟩, ⟨3, 3, .w1c, .no⟩],
    reg1 0x100 4 4 [⟨3, 0, .wo, .no⟩], reg1 0x104 4 4 [⟨0, 0, .ro, .no⟩, ⟨1, 1, .w1c, .no⟩, ⟨15, 8, .ro, .no⟩],
    reg1 0x108 4 4 (whole 32 .rw .no), reg1 0x10C 4 4 (whole 32 .rw .no), reg1 0x110 4 4 [⟨25, 0, .rw, .no⟩],
    reg1 0x120 4 4 (whole 32 .ro .no), reg1 0x128 8 4 (whole 32 .ro .no), reg1 0x140 48 4 (whole 32 .ro .no),
    reg1 0x180 96 4 (whole 32 .ro .no) ]

/-- The TCK and SCH block (R86). -/
def tckRows : List RegRow :=
  [ reg1 0x10000 4 4 (whole 32 .ro .no), reg1 0x10004 4 4 [⟨15, 0, .ro, .no⟩, ⟨19, 16, .w1c, .no⟩],
    reg1 0x10008 8 8 (whole 64 .ro .no), reg1 0x10010 12 4 (whole 32 .ro .no),
    regN 0x10100 16 16 12 4 (whole 32 .ro .no),
    reg1 0x10200 4 4 [⟨3, 0, .rw, .no⟩, ⟨4, 4, .ro, .no⟩, ⟨10, 8, .ro, .no⟩, ⟨12, 11, .w1c, .no⟩, ⟨19, 16, .ro, .no⟩],
    reg1 0x10208 8 8 (whole 64 .rw .no), regN 0x10300 7 8 8 4 (whole 32 .ro .no) ]

/-- The tenant windows (R274, R425, R458, R483, R504, R563, R564), and TNT_COMMON. -/
def tntRows : List RegRow :=
  [ regT 0x000 4 4 (whole 32 .ro .ro), regT 0x004 4 4 [⟨2, 0, .wo, .no⟩, ⟨8, 8, .w1c, .no⟩],
    regT 0x008 4 4 [⟨1, 0, .rw, .no⟩, ⟨31, 2, .ro, .ro⟩],
    regT 0x00C 4 4 (whole 32 .ro .ro), regT 0x010 4 4 [⟨0, 0, .ro, .ro⟩, ⟨1, 1, .w1c, .ro⟩, ⟨31, 2, .ro, .ro⟩],
    regT 0x014 4 4 (whole 32 .ro .ro), regT 0x018 8 8 (whole 64 .ro .ro), regT 0x020 8 8 (whole 64 .ro .ro),
    regT 0x028 4 4 (whole 32 .ro .ro), regT 0x030 4 4 [⟨6, 0, .ro, .w1c⟩], regT 0x034 4 4 [⟨6, 0, .ro, .rw⟩],
    regT 0x040 8 8 [⟨39, 20, .ro, .rw⟩], regT 0x048 8 8 [⟨39, 20, .ro, .rw⟩],
    regT 0x050 4 4 [⟨0, 0, .no, .wo⟩, ⟨2, 1, .ro, .ro⟩, ⟨3, 3, .ro, .w1c⟩],
    regT 0x060 48 4 (whole 32 .ro .ro), regT 0x0A0 16 8 (whole 64 .ro .ro), regT 0x0C0 32 4 (whole 32 .ro .ro),
    regT 0x100 8 4 (whole 32 .ro .ro), regT 0x108 4 4 [⟨0, 0, .wo, .wo⟩], regT 0x120 64 4 (whole 32 .ro .ro),
    regT 0x200 8 4 (whole 32 .ro .no), regT 0x208 8 4 (whole 32 .rw .no),
    regT 0x300 4 4 [⟨0, 0, .ro, .rw⟩, ⟨2, 1, .ro, .rw⟩, ⟨7, 3, .ro, .rw⟩, ⟨11, 8, .ro, .rw⟩, ⟨12, 12, .ro, .w1c⟩,
      ⟨27, 16, .ro, .rw⟩],
    regT 0x304 8 4 [⟨16, 0, .ro, .rw⟩], regT 0x30C 4 4 [⟨13, 0, .ro, .rw⟩, ⟨29, 16, .ro, .rw⟩],
    regT 0x310 4 4 (whole 32 .ro .rw), regT 0x318 8 8 (whole 64 .ro .ro), regT 0x320 20 4 (whole 32 .ro .ro),
    regT 0x340 4 4 [⟨15, 0, .rw, .ro⟩, ⟨16, 16, .rw, .ro⟩, ⟨18, 17, .ro, .ro⟩],
    regT 0x400 128 4 (whole 32 .ro .ro), regT 0x800 512 4 (whole 32 .ro .ro),
    reg1 0x10F000 4 4 [⟨2, 0, .wo, .no⟩, ⟨3, 3, .wo, .no⟩, ⟨23, 8, .ro, .no⟩] ]

/-- The ring blocks, overflow logs and their status (R410), and the doorbell, whose home here is the unused word at
offset 0x60 of its ring's block, which no view shows. -/
def rngRows : List RegRow :=
  [ regR 0x00 4 4 [⟨0, 0, .rw, .rw⟩], regR 0x04 4 4 [⟨3, 0, .rw, .rw⟩], regR 0x08 8 8 [⟨63, 12, .rw, .rw⟩],
    regR 0x10 8 8 [⟨63, 12, .rw, .rw⟩], regR 0x18 8 8 [⟨39, 11, .rw, .rw⟩], regR 0x20 12 4 (whole 32 .ro .ro),
    regR 0x2C 4 4 [⟨15, 0, .rw, .ro⟩],
    regR 0x30 4 4 [⟨2, 0, .ro, .ro⟩, ⟨3, 3, .w1c, .w1c⟩, ⟨15, 4, .ro, .ro⟩],
    regR 0x38 8 8 [⟨63, 12, .rw, .rw⟩], regR 0x40 4 4 [⟨4, 0, .rw, .rw⟩, ⟨13, 8, .rw, .rw⟩, ⟨14, 14, .rw, .rw⟩],
    regR 0x44 4 4 (whole 32 .rw .rw), regR 0x48 8 8 [⟨63, 3, .rw, .rw⟩], regR 0x50 12 4 (whole 32 .ro .ro),
    regN 0x208000 16 0x2000 0x1000 4 (whole 32 .ro .ro), regN 0x209000 16 0x2000 4 4 (whole 32 .ro .ro) ]

/-- The LRD, CDX, LNK and COL blocks (R246, R298, R345, R374). -/
def midRows : List RegRow :=
  [ reg1 0x300000 4 4 [⟨12, 0, .rw, .rw⟩, ⟨16, 16, .ro, .ro⟩], reg1 0x300100 128 4 (whole 32 .ro .ro),
    regN 0x301000 16 32 28 4 (whole 32 .ro .ro),
    regN 0x400000 16 0x40 28 4 (whole 32 .ro .no), ⟨0x401000, 16, 0x100, 16, 0x10, 16, 4, whole 32 .ro .ro⟩,
    regN 0x500000 18 0x40 28 4 (whole 32 .ro .no), regN 0x501000 8 0x10 8 4 (whole 32 .ro .no),
    reg1 0x502000 4 4 [⟨7, 0, .w1s, .no⟩], reg1 0x502100 8 8 (whole 64 .ro .no), reg1 0x502200 16 4 (whole 32 .ro .no),
    regN 0x600000 4 0x10 8 4 (whole 32 .ro .no), regN 0x601000 16 0x20 24 4 (whole 32 .ro .ro),
    ⟨0x602000, 16, 0x100, 16, 0x10, 8, 4, whole 32 .ro .ro⟩ ]

/-- The FLT, ACC and PWR blocks (R505, R522, R536). -/
def fltRows : List RegRow :=
  [ reg1 0x700000 8 4 (whole 32 .ro .no), reg1 0x700008 4 4 [⟨0, 0, .wo, .no⟩, ⟨1, 1, .wo, .no⟩],
    reg1 0x70000C 12 4 (whole 32 .ro .no), reg1 0x700020 64 4 (whole 32 .ro .no),
    reg1 0x800000 4 4 (whole 32 .ro .no), regN 0x800100 128 4 4 4 (whole 32 .ro .no),
    regN 0x800300 8 4 4 4 (whole 32 .ro .no), regN 0x800400 32 4 4 4 (whole 32 .ro .no),
    regN 0x800500 28 4 4 4 (whole 32 .ro .no),
    reg1 0x800600 4 4 [⟨17, 0, .ro, .no⟩, ⟨18, 18, .w1c, .no⟩], reg1 0x800604 4 4 (whole 32 .ro .no),
    reg1 0x900000 4 4 (whole 32 .ro .no),
    reg1 0x900004 4 4 [⟨12, 0, .rw, .no⟩, ⟨28, 16, .ro, .no⟩, ⟨30, 30, .ro, .no⟩, ⟨31, 31, .w1c, .no⟩],
    reg1 0x900008 4 4 [⟨3, 0, .ro, .no⟩, ⟨7, 4, .w1c, .no⟩], reg1 0x90000C 4 4 [⟨0, 0, .ro, .no⟩, ⟨1, 1, .w1c, .no⟩],
    reg1 0x900010 8 4 (whole 32 .ro .no), regN 0x900100 28 4 4 4 (whole 32 .ro .no),
    regN 0x900200 28 4 4 4 (whole 32 .ro .no), regN 0x900300 8 8 8 4 (whole 32 .ro .no),
    regN 0x900400 28 4 4 4 (whole 32 .ro .no), reg1 0x900800 24 8 (whole 64 .ro .no),
    regN 0x901000 16 0x80 80 8 (whole 64 .ro .ro) ]

/-- The VIT block (R548, R549). -/
def vitRows : List RegRow :=
  [ reg1 0xA00000 4 4 [⟨2, 0, .rw, .no⟩, ⟨3, 3, .wo, .no⟩], reg1 0xA00004 4 4 [⟨14, 0, .rw, .no⟩],
    reg1 0xA00008 4 4 [⟨16, 0, .rw, .no⟩], reg1 0xA0000C 4 4 (whole 32 .ro .no), reg1 0xA00010 8 8 (whole 64 .ro .no),
    reg1 0xA00018 4 4 (whole 32 .ro .no), reg1 0xA0001C 4 4 [⟨2, 0, .rw, .no⟩], reg1 0xA00020 8 8 (whole 64 .ro .no),
    regN 0xA01000 128 0x20 24 8 (whole 64 .ro .no), regN 0xA01018 128 0x20 8 4 (whole 32 .ro .no),
    regN 0xA02000 16 0x100 8 8 (whole 64 .ro .ro), regN 0xA02010 16 0x100 12 4 (whole 32 .ro .ro),
    regN 0xA02020 16 0x100 40 8 (whole 64 .ro .ro), regN 0xA10000 128 0x100 132 4 (whole 32 .ro .no) ]

/-- Every register of the privileged view, by home (R563). -/
def regRows : List RegRow := modRows ++ tckRows ++ tntRows ++ rngRows ++ midRows ++ fltRows ++ vitRows

/-- Whether `off` lies in a row, and where in its unit. -/
def RegRow.find (r : RegRow) (off : Nat) : Option Nat :=
  if off < r.base then none
  else
    let d := off - r.base
    let d1 := d % r.s1
    if r.n1 = 1 then (if d < r.bytes then some (d % r.unit) else none)
    else if d / r.s1 < r.n1 ∧ d1 / r.s2 < r.n2 ∧ d1 % r.s2 < r.bytes then some ((d1 % r.s2) % r.unit) else none

/-- The row of a home offset, with the place within the register's unit. -/
def regLookup (off : Nat) : Option (RegRow × Nat) :=
  regRows.findSome? fun r => (r.find off).map fun k => (r, k)

/-- Whether the home offset is of a register of 64 bits (R557). -/
def isWide (off : Nat) : Bool :=
  match regLookup off with
  | some (r, _) => r.unit = 8
  | none => false

/-- A code in a view. -/
def RegField.code (f : RegField) (pf : Bool) : Code := if pf then f.pf else f.vf

/-- The bits of `f` that lie in the 32-bit half that begins at bit `32 * half` of its unit, as a mask. -/
def RegField.mask (f : RegField) (half : Nat) : Nat :=
  ((List.range 32).filter fun i => f.lo ≤ 32 * half + i ∧ 32 * half + i ≤ f.hi).foldl (fun m i => m + 2 ^ i) 0

/-- The mask, in the word at a home offset, of all bits whose code in the view satisfies `p`. -/
def codeMask (off : Nat) (pf : Bool) (p : Code → Bool) : Nat :=
  match regLookup off with
  | none => 0
  | some (r, k) =>
    r.fields.foldl (fun m f => if p (f.code pf) then m ||| f.mask (k / 4) else m) 0

/-- A listed register is visible in the VF view when one of its fields has a code other than the em dash (R560). -/
def vfVisible (off : Nat) : Bool :=
  match regLookup off with
  | none => false
  | some (r, _) => r.fields.any fun f => f.vf ≠ .no

/-- The home of a PF offset (R565): every word of the first tenant windows but TNT_COMMON's stands in the second. -/
def pfHome (off : Nat) : Nat :=
  if 0x100000 ≤ off ∧ off < 0x110000 ∧ off / 4 ≠ 0x10F000 / 4 then off + 0x10000 else off

/-- What a VF offset is (R560, R566). -/
inductive VfPlace where
  | home (off : Nat)
  | hidden
  | reserved
  | doorbell (ring : Nat)
  | msix (off : Nat)
  deriving DecidableEq, Repr

/-- A listed word of a VF page whose unlisted words are reserved. -/
def vfListed (home : Nat) : VfPlace :=
  if regLookup home = none then .reserved else if vfVisible home then .home home else .hidden

/-- What the word at VF offset `off` of tenant `t` is (R410, R560, R566). -/
def vfPlace (t off : Nat) : VfPlace :=
  let page := off / 0x1000
  let o := off % 0x1000
  if page = 0x00 then vfListed (0x110000 + 0x1000 * t + o)
  else if page = 0x10 then (if o < 0x800 then vfListed (0x200000 + 0x800 * t + o) else .reserved)
  else if 0x20 ≤ page ∧ page < 0x28 then (if o < 4 then .doorbell (page - 0x20) else .hidden)
  else if page = 0x30 then
    if o < 0x200 then vfListed (0x300000 + o)
    else if o < 0x220 then vfListed (0x301000 + 32 * t + (o - 0x200)) else .reserved
  else if page = 0x40 then
    if o < 0x100 then vfListed (0xA02000 + 0x100 * t + o)
    else if 0x800 ≤ o ∧ o < 0x900 then
      vfListed (0x401000 + 0x100 * ((o - 0x800) / 0x10) + 0x10 * t + (o - 0x800) % 0x10)
    else if 0xA00 ≤ o ∧ o < 0xA20 then vfListed (0x601000 + 0x20 * t + (o - 0xA00))
    else if 0xB00 ≤ o ∧ o < 0xC00 then vfListed (0x602000 + 0x100 * t + (o - 0xB00))
    else if 0xC00 ≤ o ∧ o < 0xC80 then vfListed (0x901000 + 0x80 * t + (o - 0xC00))
    else .reserved
  else if page = 0x50 then vfListed (0x208000 + 0x2000 * t + o)
  else if page = 0x51 then (if o < 4 then vfListed (0x209000 + 0x2000 * t) else .reserved)
  else if page = 0x60 ∨ page = 0x61 then .msix (off - 0x60000)
  else .hidden

/-- The MSI-X place of a PF offset (R555), as `vfPlace` gives it for a VF. -/
def pfMsix (off : Nat) : Option Nat := if 0xF00000 ≤ off ∧ off < 0xF02000 then some (off - 0xF00000) else none

end Sys2Proof.Machine
end

