-- ==== Sys2Proof/Machine/State.lean ====
section
/-!
DEFINITION. State.lean: the state of the block, its reset, and the reasons a step can stop.
-/

namespace Sys2Proof.Machine

/-- The reasons a step stops with a fault. -/
inductive Fault where
  /-- Raised by no command: every row of the command table has an effect, and a command whose condition does not hold changes
  nothing. Safe: no step answers it. -/
  | neverRaised
  deriving DecidableEq, Repr

/-- The reasons a command is refused. -/
inductive Refusal where
  /-- Answered by an arm of `exec` for a command without a meaning; no arm is one. Safe: nothing follows from it about the block. -/
  | notModelled (mnemonic : String)
  deriving DecidableEq, Repr

/-- A line of a die read cache (R275): the die, the tenant, the number of the 256-byte line, its bytes and the poison of
its four quarters. The most recently used line of a die stands first. -/
structure DrcLine where
  die    : Nat
  tenant : Nat
  line   : Nat
  data   : List Byte
  bad    : List Bool
  deriving DecidableEq, Repr

/-- A line of a memory-side cache (R271): the I/O die, the way, the number of the 256-byte line, and whether it is to be written
back. Its bytes and poison are those of `hbm` and `hbmBad`: cache and HBM are one coherent memory. -/
structure MscLine where
  iod   : Nat
  way   : Nat
  line  : Nat
  dirty : Bool
  deriving DecidableEq, Repr

/-- The memory-side caches (R271 to R273): their lines, the most recently used first, and the pinned ways in force, by the offset
of their register. -/
structure Msc where
  lines : List MscLine
  pins  : NMap 32
  deriving DecidableEq, Repr

def Msc.reset : Msc := { lines := [], pins := [] }

/-- The state of the block. `regs` holds every register word of the privileged view at its home offset (R563, R565),
the rest what no register shows:
`hbm` the coherent memory that the memory-side caches and HBM make together, by module address (R271), `msc` what the
caches hold of it, `drc` the die read caches, `ctrs` the delivery counters' fields (R308), `commonDigs` the digests of the published common regions,
`publish` the regions that a boundary is to begin to publish and `unmapped` those published since the last one (R419). -/
structure State where
  regs    : NMap 32
  pf      : FnState
  vfs     : Vector FnState 16
  vfEnable : Bool
  numVfs  : Nat
  flash   : Flash
  fuses   : Fuses
  pins    : Pins
  boot    : Boot
  tick    : Tick
  sched   : Sched
  tiles   : Vector Tile 128
  hbm     : NMap 8
  hbmBad  : List Nat
  msc     : Msc
  drc     : List DrcLine
  ctrs    : NMap 64
  lnk     : Lnk
  pair    : Pairing
  twin    : Vector TwinSt 16
  recov   : Recov
  front   : Front
  cdx     : Codecs
  lrd     : Larder
  ladles  : Vector Ladle 16
  commonDigs : List (Nat × List Byte)
  publish : Nat
  unmapped : Nat
  coll    : Collectives
  acc     : Accession
  pwr     : Power
  vit     : Vitrine
  aoc     : Aoc
  outbox  : List Out
  freeCtr : Nat
  pending : List Instr
  deriving DecidableEq, Repr

/-- The register words whose reset value is not zero: MOD_ID and MOD_STATE (R563), the Ladle settings of each tenant
(R458), LOG2 and TICKS of each ring (R410). -/
def resetRegs : NMap 32 :=
  [(0x0, 0x10004816), (0x4, 0x2)] ++
  ((List.range 16).flatMap fun t =>
    [(0x110304 + 0x1000 * t, 0x10000), (0x110308 + 0x1000 * t, 0x10000), (0x11030C + 0x1000 * t, 0x20000100)]) ++
  ((List.range 128).flatMap fun r => [(0x200004 + 0x100 * r, 0x6), (0x20002C + 0x100 * r, 0x3E8)])

/-- The block after a full module reset, with PERST# still asserted (R49). -/
def State.reset : State :=
  { regs := resetRegs, pf := FnState.reset, vfs := Vector.replicate 16 FnState.reset, vfEnable := false, numVfs := 0,
    flash := Flash.reset, fuses := Fuses.reset, pins := Pins.reset, boot := Boot.reset, tick := Tick.reset,
    sched := Sched.reset, tiles := Vector.replicate 128 Tile.reset, hbm := [], hbmBad := [], msc := Msc.reset, drc := [], ctrs := [], lnk := Lnk.reset,
    pair := Pairing.reset, twin := Vector.replicate 16 TwinSt.reset, recov := Recov.reset, front := Front.reset, cdx := Codecs.reset, lrd := Larder.reset,
    ladles := Vector.replicate 16 Ladle.reset, commonDigs := [], publish := 0, unmapped := 0, coll := Collectives.reset, acc := Accession.reset,
    pwr := Power.reset, vit := Vitrine.reset, aoc := Aoc.reset,
    outbox := [], freeCtr := 0, pending := [] }

end Sys2Proof.Machine
end

