-- ==== Sys2Proof/Machine/Ops.lean ====
section
/-!
DEFINITION. Ops.lean: the named operations over registers, events, interrupts, fault records and module states that
every meaning is written with.
-/

namespace Sys2Proof.Machine

/-! ## Registers by home offset -/

/-- The home offset of a register of tenant `t`'s window (R565). -/
def tnt (t o : Nat) : Nat := 0x110000 + 0x1000 * t + o

/-- The home offset of a register of ring `r` of tenant `t` (R410). -/
def rng (t r o : Nat) : Nat := 0x200000 + 0x100 * (8 * t + r) + o

def State.word (s : State) (off : Nat) : W32 := nget s.regs off

def State.setWord (s : State) (off : Nat) (v : W32) : State := { s with regs := nset s.regs off v }

/-- The field of `n` bits at bit `lo` of the word at `off`. -/
def State.fld (s : State) (off lo n : Nat) : Nat := (s.word off).toNat / 2 ^ lo % 2 ^ n

/-- Set the field of `n` bits at bit `lo`, leaving the others. -/
def State.setFld (s : State) (off lo n v : Nat) : State :=
  let w := (s.word off).toNat
  s.setWord off (BitVec.ofNat 32 (w - w / 2 ^ lo % 2 ^ n * 2 ^ lo + v % 2 ^ n * 2 ^ lo))

def State.flag (s : State) (off b : Nat) : Bool := s.fld off b 1 == 1

def State.setFlag (s : State) (off b : Nat) (v : Bool) : State := s.setFld off b 1 v.toNat

/-- A register of 64 bits, low word at `off` (R557). -/
def State.quad (s : State) (off : Nat) : Nat := (s.word off).toNat + 2 ^ 32 * (s.word (off + 4)).toNat

def State.setQuad (s : State) (off v : Nat) : State :=
  (s.setWord off (BitVec.ofNat 32 v)).setWord (off + 4) (BitVec.ofNat 32 (v / 2 ^ 32))

/-- Advance a 32-bit counter by `n`, saturating (R550). -/
def State.bump (s : State) (off n : Nat) : State := s.setWord off (satAdd32 (s.word off) n)

/-- Advance a field of `n` bits by one, saturating. -/
def State.bumpFld (s : State) (off lo n : Nat) : State := s.setFld off lo n (min (s.fld off lo n + 1) (2 ^ n - 1))

/-- Advance a register of 64 bits, wrapping. -/
def State.addQuad (s : State) (off n : Nat) : State := s.setQuad off ((s.quad off + n) % 2 ^ 64)

/-- Bytes into consecutive words, byte 0 in bits 7:0 of the first (R6). -/
def State.setBytes (s : State) (off : Nat) : List Byte → State
  | [] => s
  | bs => (List.range (ceilDiv bs.length 4)).foldl
      (fun s i => s.setWord (off + 4 * i) (BitVec.ofNat 32 (leNat ((bs.drop (4 * i)).take 4)))) s

def State.getBytes (s : State) (off n : Nat) : List Byte :=
  ((List.range (ceilDiv n 4)).flatMap fun i => leBytes 4 (s.word (off + 4 * i)).toNat).take n

/-- Every register word of `[lo, hi)` reads zero. -/
def State.zeroRegs (s : State) (lo hi : Nat) : State := { s with regs := zeroRange s.regs lo hi }

/-! ## What leaves the module, and free values -/

def State.send (s : State) (o : Out) : State := { s with outbox := s.outbox ++ [o] }

/-- The number of the next free value, which the state then steps past. -/
def State.fresh (s : State) : Nat × State := (s.freeCtr, { s with freeCtr := s.freeCtr + 1 })

/-- A free number: the model goes on with every value of it. -/
def State.free (s : State) : Nat × State := (Config.freeNat s.freeCtr, { s with freeCtr := s.freeCtr + 1 })

/-! ## PCIe functions, interrupts and events (R554, R555, R563, R564) -/

def State.fnState (s : State) : Fn → FnState
  | .pf => s.pf
  | .vf n => if h : n < 16 then s.vfs[n] else FnState.reset

def State.updFn (s : State) (fn : Fn) (f : FnState → FnState) : State :=
  match fn with
  | .pf => { s with pf := f s.pf }
  | .vf n => { s with vfs := vupd s.vfs n f }

/-- Do the module's PCIe requests for tenant `t` succeed (R554)? -/
def State.vfReach (s : State) (t : Nat) : Bool :=
  s.vfEnable && decide (t + 1 ≤ s.numVfs) && (s.fnState (.vf t)).busMaster

/-- The vector control word of a vector: bit 0 masks it. -/
def FnState.masked (f : FnState) (v : Nat) : Bool := nget f.msix (16 * v + 12) &&& 1 == 1

/-- Send a vector's message, or hold it pending while the vector is masked (R555). -/
def State.interrupt (s : State) (fn : Fn) (v : Nat) : State :=
  let f := s.fnState fn
  if f.masked v then s.updFn fn fun f => { f with pba := f.pba ||| 2 ^ v }
  else s.send (.intr fn v)

/-- Set event bits of MOD_EVENT; a bit that becomes 1 while enabled raises PF vector 0 (R555, R563). -/
def State.modEvent (s : State) (b : Nat) : State :=
  let was := s.flag 0x30 b
  let s := s.setFlag 0x30 b true
  if !was && s.flag 0x34 b then s.interrupt .pf 0 else s

/-- Set an event bit of TNT_EVENT; a bit that becomes 1 while enabled raises vector 8 of the VF (R555, R564). -/
def State.tntEvent (s : State) (t b : Nat) : State :=
  let was := s.flag (tnt t 0x30) b
  let s := s.setFlag (tnt t 0x30) b true
  if !was && s.flag (tnt t 0x34) b then s.interrupt (.vf t) 8 else s

/-! ## Module states (R42, R48, R49, R492, R563) -/

def ModState.code : ModState → Nat
  | .off => 0 | .standby => 1 | .starting => 2 | .serving => 3 | .recovering => 4 | .derated => 5 | .halted => 6

/-- An alert cause of the management bus, which asserts SMB_ALERT# (R577). -/
def State.alert (s : State) (b : Nat) : State :=
  { s with aoc := { s.aoc with alert := s.aoc.alert ||| 2 ^ b }, pins := { s.pins with smbAlert := true } }

/-- Change the module state: MOD_STATE.STATE and CHANGED, MOD_EVENT.STATE and the alert, when it does change (R563, R577). -/
def State.setMod (s : State) (m : ModState) : State :=
  if s.boot.state = m then s
  else
    let s := s.alert 5
    let s := if m = .halted then s.alert 0 else s
    let s := { s with boot := { s.boot with state := m } }
    ((s.setFld 0x4 0 3 m.code).setFlag 0x4 8 true).modEvent 1

/-- Is the module in SERVING, DERATED or RECOVERING, past start step 9 (R47)? -/
def State.serves (s : State) : Bool :=
  s.boot.state == .serving || s.boot.state == .derated || s.boot.state == .recovering

def State.cat (s : State) : Option Cat := s.boot.cat

def State.moduleId (s : State) : Nat := (s.cat.map (·.moduleId)).getD 0

/-- The other member of the pair (R2). -/
def twinOf (id : Nat) : Nat := if id % 2 = 0 then id + 1 else id - 1

def State.part (s : State) (t : Nat) : Option Partition :=
  (s.cat.bind fun c => c.parts[t]?).filter (·.enabled)

/-- TCK_COUNT (R86). -/
def State.tickNo (s : State) : Nat := s.quad 0x10008

/-- The count of tick boundaries: what every interval kept in ticks counts, so that a jump of TCK_COUNT changes none (R68). -/
def State.beat (s : State) : Nat := s.tick.boundaries

/-! ## Tenant states (R422, R425) -/

/-- The codes of TNT_STATE.STATE. -/
def tsDisabled : Nat := 0
def tsActive : Nat := 1
def tsFrozen : Nat := 2
def tsResetting : Nat := 3

def State.tState (s : State) (t : Nat) : Nat := s.fld (tnt t 0) 0 2

def State.setTState (s : State) (t v : Nat) : State := s.setFld (tnt t 0) 0 2 v

def State.active (s : State) (t : Nat) : Bool := s.tState t == tsActive

/-- Is the tenant sealed (R420)? -/
def State.sealed (s : State) (t : Nat) : Bool := s.flag (tnt t 0) 2

/-! ## Vitrine's events (R538 to R546) -/

/-- The channel group of the trace buffer, when there is one (R542). -/
def State.traceGroup (s : State) : Option Nat := (s.cat.map (·.traceGroup)).filter (· ≠ 0xFF)

/-- Send a trace frame of the events on hand (R546). -/
def State.sendFrame (s : State) : State :=
  let body := ((s.vit.frame.flatten) ++ leBytes 480 0).take 480
  let bytes := leBytes 1 0x56 ++ leBytes 1 0x54 ++ leBytes 1 s.moduleId ++ leBytes 1 s.vit.frame.length ++ leBytes 4 s.vit.frameNo ++ body ++ leBytes 20 0
  let s := s.send (.trace (bytes ++ leBytes 4 (crc32c bytes)))
  { s with vit := { s.vit with frame := [], frameNo := (s.vit.frameNo + 1) % 2 ^ 32 } }

/-- Write an admitted event into the buffer (R543, R544). -/
def State.traceBuf (s : State) (e : List Byte) : State :=
  match s.traceGroup with
  | none => s
  | some g =>
    if s.flag 0xA0000C 0 then s.bump 0xA00018 1
    else
      let n := s.quad 0xA00010
      let s : State := { s with hbm := writeBytes s.hbm (g * 0x800000000 + 32 * (n % 2 ^ 23)) e }
      let s := s.addQuad 0xA00010 1
      if bitOf s.vit.ctl 1 && decide (2 ^ 23 ≤ n + 1) then s.setFlag 0xA0000C 0 true else s

/-- An admitted event reaches the buffer and the port, as far as they are on (R541, R544, R546). -/
def State.putEvent (s : State) (e : List Byte) : State :=
  let s := if bitOf s.vit.ctl 0 then s.traceBuf e else s
  if bitOf s.vit.ctl 2 then
    let s : State := { s with vit := { s.vit with frame := s.vit.frame ++ [e] } }
    if 15 ≤ s.vit.frame.length then s.sendFrame else s
  else s

/-- The 32 bytes of an event (R538). -/
def eventBytes (time kind : Nat) (masked : Bool) (ten tile : Option Nat) (id : Nat) (data : List Byte) : List Byte :=
  leBytes 8 time ++ leBytes 1 kind ++ leBytes 1 masked.toNat ++ leBytes 1 (ten.getD 0x80) ++ leBytes 1 (tile.getD 0xFF) ++ leBytes 4 id ++
  (data ++ leBytes 16 0).take 16

/-- Is an event of this kind, tenant or no tenant admitted at all (R541)? -/
def State.wantsEvent (s : State) (kind : Nat) (ten : Option Nat) : Bool :=
  s.serves && bitOf s.vit.kinds (kind - 1) && bitOf s.vit.tenants (ten.getD 16)

/-- Form an event (R538 to R541): at most 50 in a microsecond, a LOST event before the first one after a drop, and the
bytes `[hide, hide + n)` of DATA masked for a sealed tenant. The time is a free value: commands carry no common clock. -/
def State.event (s : State) (kind : Nat) (ten tile : Option Nat) (id : Nat) (data : List Byte) (hide : Nat × Nat) : State :=
  if !s.wantsEvent kind ten then s
  else
    let (time, s) := s.free
    let s : State := if time / 1000 = s.vit.interval then s
      else { s with vit := { s.vit with interval := time / 1000, count := 0 } }
    if 50 ≤ s.vit.count then
      ({ s with vit := { s.vit with dropped := s.vit.dropped + 1 } } : State).bump 0xA00018 1
    else
      let masked := hide.2 != 0 && (ten.map s.sealed).getD false
      let data := if masked then data.take hide.1 ++ leBytes hide.2 0 ++ data.drop (hide.1 + hide.2) else data
      let lost := s.vit.dropped
      let s : State := { s with vit := { s.vit with count := s.vit.count + 1, dropped := 0 } }
      let s := if lost ≠ 0 && s.wantsEvent 0x0F none then s.putEvent (eventBytes time 0x0F false none none 0 (leBytes 4 lost)) else s
      s.putEvent (eventBytes time kind masked ten tile id data)

/-! ## Fault records (R484 to R486, R504, R505) -/

/-- The classes of R484. -/
inductive Cls where
  | note | error | violation | freeze | compute | module
  deriving DecidableEq, Repr

def Cls.code : Cls → Nat
  | .note => 0 | .error => 1 | .violation => 2 | .freeze => 3 | .compute => 4 | .module => 5

/-- The class of a fault code, and the records it enters: tenant, module (R486). -/
def faultClass (code : Nat) : Cls × Bool × Bool :=
  if code = 0x03 then (.compute, true, true)
  else if code = 0x04 then (.freeze, true, true)
  else if code ≤ 0x06 then (.freeze, true, false)
  else if code = 0x11 ∨ code = 0x13 ∨ code = 0x18 ∨ code = 0x1A ∨ code = 0x1D then (.module, false, true)
  else if code = 0x15 ∨ code = 0x16 ∨ code = 0x17 ∨ code = 0x1B then (.compute, false, true)
  else if code < 0x20 then (.note, false, true)
  else if code = 0x4A ∨ code = 0x56 ∨ code = 0x63 ∨ code = 0x65 ∨ code = 0x66 ∨ code = 0x76 ∨ code = 0x77 then
    (.error, true, false)
  else if code = 0x78 ∨ code = 0x79 then (.error, true, true)
  else if code < 0x80 then (.violation, true, false)
  else if code = 0x82 then (.freeze, true, false)
  else if code < 0x93 then (.violation, true, false)
  else if code ≤ 0x98 then (.error, true, false)
  else if 0xA0 ≤ code ∧ code ≤ 0xA6 then (.note, false, true)
  else if code = 0xB3 then (.error, true, false)
  else if code = 0xB4 then (.error, true, true)
  else if code = 0xC7 ∨ code = 0xC8 then (.freeze, true, false)
  else if code < 0xE0 then (.violation, true, false)
  else if code = 0xE0 ∨ code = 0xF4 then (.violation, true, false)
  else if code = 0xE2 then (.freeze, true, true)
  else if code = 0xE1 ∨ code = 0xE3 then (.error, true, false)
  else (.freeze, true, false)

/-- Does a code set NOUNFREEZE (R486, R489)? HANG_REPLAY, LRD_META, TWIN_DIVERGE. -/
def noUnfreeze (code : Nat) : Bool := code == 0x04 || code == 0x82 || code == 0xF0

/-- What a fault entry says beside its code, class and tick (R485). -/
structure Info where
  tile    : Option Nat := none
  ring    : Option (Nat × Nat) := none
  session : Option Nat := none
  detail  : Nat := 0
  addr    : Nat := 0
  deriving DecidableEq, Repr

/-- The 32 bytes of an entry (R485). -/
def entryBytes (code : Nat) (tick : Nat) (i : Info) : List Byte :=
  let ring := match i.ring with
    | some (r, _) => 0x80 + r % 8
    | none => 0
  let csn := match i.ring with
    | some (_, c) => c
    | none => 0
  leBytes 1 code ++ leBytes 1 (faultClass code).1.code ++ leBytes 1 (i.tile.getD 0xFF) ++ leBytes 1 ring ++
  leBytes 4 csn ++ leBytes 8 tick ++ leBytes 2 (i.session.getD 0xFFFF) ++ leBytes 2 0 ++ leBytes 4 i.detail ++
  leBytes 8 i.addr

/-- The FAULT event of an entry (R539). -/
def State.faultTrace (s : State) (ten : Option Nat) (code : Nat) (i : Info) : State :=
  s.event 0x07 ten i.tile ((i.ring.map (·.2)).getD 0)
    (leBytes 1 code ++ leBytes 1 (faultClass code).1.code ++ leBytes 4 i.detail ++ leBytes 8 i.addr) (6, 8)

/-- Enter an entry in the tenant's fault record (R485, R504), and set TNT_EVENT.FAULT (R564). -/
def State.tenantEntry (s : State) (t code : Nat) (i : Info) : State :=
  let e := entryBytes code s.tickNo i
  let empty := s.fld (tnt t 0x100) 0 8 == 0
  let s := if empty then ((s.setBytes (tnt t 0x120) e).setFld (tnt t 0x100) 0 8 code) else s.bump (tnt t 0x104) 1
  let s := (s.setBytes (tnt t 0x140) e).setFld (tnt t 0x100) 8 8 code
  let s := s.setFld (tnt t 0x100) 16 3 (max (s.fld (tnt t 0x100) 16 3) (faultClass code).1.code)
  let s := if noUnfreeze code then s.setFlag (tnt t 0x100) 19 true else s
  (s.tntEvent t 2).faultTrace (some t) code i

/-- Enter an entry in the module fault record (R485, R505), and set MOD_EVENT.FAULT (R563). -/
def State.moduleEntry (s : State) (code : Nat) (i : Info) : State :=
  let e := entryBytes code s.tickNo i
  let empty := s.fld 0x700020 0 8 == 0
  let s := if empty then s.setBytes 0x700020 e else s.bump 0x700004 1
  ((s.setBytes 0x700040 e).modEvent 2).faultTrace none code i

/-- Enter a fault in the record or records its code names (R486). -/
def State.enter (s : State) (t : Nat) (code : Nat) (i : Info) : State :=
  let (_, ten, mod) := faultClass code
  let s := if ten then s.tenantEntry t code i else s
  if mod then s.moduleEntry code i else s

/-- A note of the module (R484). -/
def State.note (s : State) (code : Nat) (i : Info) : State := s.moduleEntry code i

end Sys2Proof.Machine
end

