-- ==== Sys2Proof/Machine/Board.lean ====
section
/-!
DEFINITION. Board.lean: full module reset, halting, power, PERST#, MATED# and the mailbox (R27 to R54, R502, R570).
-/

namespace Sys2Proof.Machine

/-! ## Keys (R32, R50) -/

/-- Which keys are revoked, by slot. -/
def Fuses.revoked (f : Fuses) : List Bool := f.keys.toList.map (·.revoked)

/-- The fuses as signature checks see them: a revocation takes effect only through a full module reset (R50), a new key at once. -/
def State.keysNow (s : State) : Fuses :=
  { s.fuses with keys := Vector.mapFinIdx s.fuses.keys fun i k _ => { k with revoked := (s.boot.keysAtStart[i]?).getD k.revoked } }

/-! ## Reset and halt -/

/-- MOD_KEYS' fuse fields (R563). -/
def State.showKeys (s : State) : State :=
  let ks := s.fuses.keys.toList
  let bits (f : KeySlot → Bool) := ((List.range 4).filter fun i => (ks[i]?.map f).getD false).foldl (fun a i => a + 2 ^ i) 0
  ((s.setFld 0x24 0 4 (bits fun k => k.hash.isSome)).setFld 0x24 4 4 (bits (·.revoked))).setFld 0x24 8 8 s.fuses.svn.toNat

/-- Everything but the always-on controller returns to reset (R49, R50): flash, fuses and pins stay, tenant state,
sessions and Larder contents are lost, the bypasses close. `keep` is a reset by a fault of class MODULE or by
escalation: the module fault record stays and PRIOR reads 1 (R502). -/
def State.fullReset (s : State) (keep : Bool) : State :=
  let r : State :=
    { State.reset with
      flash := s.flash, fuses := s.fuses, pins := { s.pins with tickOut := false }, outbox := s.outbox, freeCtr := s.freeCtr,
      pending := s.pending,
      boot := { Boot.reset with inputOk := s.boot.inputOk, perstShort := s.boot.perstShort },
      recov := { Recov.reset with window := keep && s.recov.window, twice := keep && s.recov.twice },
      aoc := s.aoc }
  let r := (r.setQuad 0x10 s.flash.serial.toNat).showKeys
  let r := if s.boot.state = .standby then r else r.alert 5
  if keep then
    (r.setBytes 0x700020 (s.getBytes 0x700020 64)).setWord 0x700004 (s.word 0x700004) |>.setFlag 0x700000 16 true
  else r

/-- May a start begin: power-good, PERST# deasserted, MATED# closed, and the board test strap not set (R42, R547,
R570)? -/
def State.mayStart (s : State) : Bool := s.boot.inputOk && !s.pins.perst && s.pins.mated && !s.pins.boardTest

/-- STARTING at step 1 when a start may begin (R42, R50). -/
def State.beginStart (s : State) : State :=
  if s.mayStart then
    (({ s with boot := { s.boot with state := .starting, keysAtStart := s.fuses.revoked } } : State).alert 5).setFld 0x120 0 4 1
  else s

/-- A full module reset, and the start that follows (R50). -/
def State.restart (s : State) (keep : Bool) : State := (s.fullReset keep).beginStart

/-- The HALT_REASON codes of R48. -/
def hrNoFirmware : Nat := 1
def hrNoCatalogue : Nat := 2
def hrNoSection : Nat := 3
def hrRailFail : Nat := 4
def hrHbmTrain : Nat := 5
def hrLinkNone : Nat := 6
def hrCatMismatch : Nat := 7
def hrDupId : Nat := 8
def hrTickLock : Nat := 9
def hrComputeInit : Nat := 10
def hrEscalated : Nat := 11
def hrConverter : Nat := 12

/-- A halt closes attachment `k`'s bypass; one in use is DOWN and its ports DARK (R48, R326). -/
def State.haltAtt (s : State) (k : Nat) : State :=
  let s := s.setFlag (0x501000 + 0x10 * k) 2 true
  if s.fld (0x501000 + 0x10 * k) 0 2 = 0 then s
  else ((s.setFld (0x501000 + 0x10 * k) 0 2 3).setFld (0x500000 + 0x80 * k) 0 3 0).setFld (0x500040 + 0x80 * k) 0 3 0

/-- Stop in HALTED: the bypasses closed and the attachments down, the reason shown, HALT recorded (R48, R326, R486). -/
def State.halt (s : State) (reason : Nat) : State :=
  let s := ((s.setMod .halted).setFld 0x120 8 8 reason).setFlag 0x40 0 false
  let s := { s with lnk := { s.lnk with atts := s.lnk.atts.map fun (a : Att) => { a with openCmd := false, window := false, retry := false } } }
  ((List.range 8).foldl State.haltAtt s).note 0x1C { detail := reason }

/-! ## Power and pins -/

/-- POWER_GOOD (R42, R547): the 48 V input is in range; with at least three converters good this is power-good: the BOARD_TEST strap
is sampled, and a start begins if PERST# is deasserted. Where power-good holds already nothing changes. -/
def execPowerGood (conv : Nat) (boardTest : Bool) (s : State) : Host.Outcome State Fault Refusal :=
  if s.boot.inputOk then .next s
  else
    let good := decide (3 ≤ popcount 4 conv)
    let s := { s with pins := { s.pins with v48 := true, conv := conv % 16, pwrgd := good,
                                            boardTest := if good then boardTest else s.pins.boardTest },
                      boot := { s.boot with inputOk := good } }
    .next (if good && s.boot.state == .standby then s.beginStart else s)

/-- PERST_ASSERT (R49): an assertion of 1 µs or longer resets the module, which stays in STANDBY. -/
def execPerstAssert (s : State) : Host.Outcome State Fault Refusal :=
  .next { s.fullReset false with pins := { s.pins with perst := true, tickOut := false } }

/-- PERST_DEASSERT (R49): a new start at step 1; after an assertion shorter than 1 µs, only the count of those. -/
def execPerstDeassert (s : State) : Host.Outcome State Fault Refusal :=
  if s.pins.perst then .next ({ s with pins := { s.pins with perst := false } }).beginStart
  else .next { s with boot := { s.boot with perstShort := s.boot.perstShort + 1 } }

/-- MATED_OPEN (R570): as an assertion of PERST#. -/
def execMatedOpen (s : State) : Host.Outcome State Fault Refusal :=
  .next { s.fullReset false with pins := { s.pins with mated := false, tickOut := false } }

/-- MATED_CLOSE (R570): the reset is released. -/
def execMatedClose (s : State) : Host.Outcome State Fault Refusal :=
  if s.pins.mated then .next s else .next ({ s with pins := { s.pins with mated := true } }).beginStart

/-- PCIE_FUNCTION_READY (R46): the physical function answers configuration requests. -/
def execPcieFunctionReady (s : State) : Host.Outcome State Fault Refusal :=
  if s.pins.perst || !s.pins.mated then .next s else .next { s with pf := { s.pf with ready := true } }

/-! ## Firmware and Catalogue in flash (R30, R39, R40) -/

/-- The certificate is signed by the firmware root key, whose hash matches the fuses, and the image by the certificate's key. -/
def Firmware.signed (f : Firmware) (z : Fuses) : Bool := sha384 f.rootKey == z.rootHash && f.certOk && f.sigOk

/-- A valid firmware image (R30). -/
def Firmware.valid (f : Firmware) (z : Fuses) : Bool := f.wellFormed && f.signed z && decide (z.svn ≤ f.svn)

/-- The firmware that a start chooses: its slot, the image, and FW_FALLBACK (R39). -/
def firmwareChoice (fl : Flash) (z : Fuses) : Option (Nat × Firmware × Bool) :=
  match fl.fw0.filter (·.valid z), fl.fw1.filter (·.valid z) with
  | none, none => none
  | some f, none => some (0, f, true)
  | none, some f => some (1, f, true)
  | some f, some g => if g.version ≤ f.version then some (0, f, false) else some (1, g, false)

/-- The Catalogue that a start chooses, as its slot, whether the other slot holds no valid image, and what it gives this
module; `some none` for one whose SLOTMAP names no module (R40, R41). -/
def catChoice (fl : Flash) (f : Fuses) (ncv slotId : Nat) : Option (Nat × Bool × Option Cat) :=
  let v (img : Option (List Byte)) := img.bind fun i => (catValid f ncv slotId i).map fun c => (imgSequence i, c)
  match v fl.catA, v fl.catB with
  | none, none => none
  | some (_, c), none => some (0, true, c)
  | none, some (_, c) => some (1, true, c)
  | some (m, c), some (n, d) => if n ≤ m then some (0, false, c) else some (1, false, d)

/-- The Catalogue image the next start would choose by every check but that of the NCV (R37, R40, R53). Check 5 is made for the
SLOT_ID that was sampled last; where none ever was, the image's signature and structure decide (log entry 151). -/
def nextCatImage (fl : Flash) (f : Fuses) (slotId : Option Nat) : Option (List Byte) :=
  let ok (img : Option (List Byte)) := img.filter fun i => match slotId with
    | some n => (catSound f n i).isSome
    | none => match catVerify f i with
      | .good _ => true
      | _ => false
  match ok fl.catA, ok fl.catB with
  | none, b => b
  | a, none => a
  | some a, some b => if imgSequence b ≤ imgSequence a then some a else some b

/-! ## The mailbox (R52 to R54) -/

/-- The codes of R54. -/
def mcOk : Nat := 0
def mcBusy : Nat := 1
def mcBadCmd : Nat := 2
def mcBadArg : Nat := 3
def mcHostRead : Nat := 4
def mcBadFormat : Nat := 5
def mcBadSig : Nat := 6
def mcKeyUnknown : Nat := 7
def mcSeqStale : Nat := 8
def mcNcvMismatch : Nat := 9
def mcFlashFail : Nat := 10
def mcSlotsFull : Nat := 11
def mcLastKey : Nat := 12
def mcSvnLow : Nat := 13

def State.mbxBusy (s : State) : Bool := s.flag 0x104 0

/-- CODE, DONE and MOD_EVENT.MBX; BUSY clears (R52, R563). -/
def State.mbxEnd (s : State) (code : Nat) : State :=
  let s := { s with boot := { s.boot with mbxRun := none, mbxCode := 0, mbxCat := none, mbxFw := none } }
  (((s.setFlag 0x104 0 false).setFlag 0x104 1 true).setFld 0x104 8 8 code).modEvent 0

/-- A command starts: BUSY is 1, and it will end with `code`. -/
def State.mbxBegin (s : State) (op : MbxOp) (code : Nat) : State :=
  { s with boot := { s.boot with mbxRun := some op, mbxCode := code } }.setFlag 0x104 0 true

/-- The address and length of a request are usable (R52, R54). -/
def State.mbxArgOk (s : State) (most : Nat) : Bool :=
  s.fld 0x108 0 6 == 0 && s.fld 0x110 0 26 != 0 && decide (s.fld 0x110 0 26 ≤ most)

/-- What every mailbox command meets first: BUSY drops it (R54), and a module that runs the mailbox from its boot ROM
takes WRITE_FW and RESTART only (R48). -/
def State.mbxGate (s : State) (rom : Bool) (run : State → State) : State :=
  if s.mbxBusy then s.setFld 0x104 8 8 mcBusy
  else if s.boot.bootRom && !rom then s.mbxEnd mcBadCmd
  else run s

/-- The code that the first reading of a Catalogue image gives (R53); the order of the checks is the model's (log entry 152), and a
LEN above the slot's size is too long for this command (log entry 153). -/
def State.mbxCatCode (s : State) (image : Option (List Byte)) : Nat :=
  if !s.mbxArgOk (flashSize 3) then mcBadArg
  else match image with
    | none => mcHostRead
    | some img =>
      match catVerify s.keysNow img with
      | .badFormat => mcBadFormat
      | .badSig => mcBadSig
      | .keyUnknown => mcKeyUnknown
      | .good _ =>
        if (match s.cat with | some c => decide (imgSequence img ≤ c.sequence) | none => false) then mcSeqStale
        else match firmwareChoice s.flash s.fuses with
          | some (_, f, _) => if ncvAccepts img f.ncv then mcOk else mcNcvMismatch
          | none => mcNcvMismatch

/-- MBX_WRITE_CAT (R53): every check passes before the inactive slot is erased; the image is then read a second time,
and programmed when the command ends. With no slot in use the inactive one is B (log entry 150). -/
def State.mbxWriteCat (s : State) (image again : Option (List Byte)) : State :=
  s.mbxGate false fun s =>
    let code := s.mbxCatCode image
    if code ≠ mcOk then s.mbxBegin .writeCat code
    else
      let slot := 1 - s.fld 0x120 5 1
      let s := { s with flash := if slot = 0 then { s.flash with catA := none } else { s.flash with catB := none } }
      match again with
      | none => s.mbxBegin .writeCat mcHostRead
      | some img => ({ s with boot := { s.boot with mbxCat := some (slot, img) } }).mbxBegin .writeCat mcOk

def execMbxWriteCat (image again : Option (List Byte)) (s : State) : Host.Outcome State Fault Refusal := .next (s.mbxWriteCat image again)

/-- The code that the first reading of a firmware image gives (R53); with no Catalogue that a start could choose, its NCV is accepted
(log entry 151), and the order of the checks is the model's (log entry 152). -/
def State.mbxFwCode (s : State) (image : Option Firmware) : Nat :=
  if !s.mbxArgOk (flashSize 1) then mcBadArg
  else match image with
    | none => mcHostRead
    | some f =>
      if !f.wellFormed then mcBadFormat
      else if !f.signed s.fuses then mcBadSig
      else if f.svn < s.fuses.svn then mcSvnLow
      else if (match s.boot.fwUse with | some g => decide (f.version ≤ g.version) | none => false) then mcSeqStale
      else match nextCatImage s.flash s.fuses s.aoc.slotId with
        | some img => if ncvAccepts img f.ncv then mcOk else mcNcvMismatch
        | none => mcOk

/-- MBX_WRITE_FW (R53). With no slot in use the inactive one is 1 (log entry 150). -/
def State.mbxWriteFw (s : State) (image again : Option Firmware) : State :=
  s.mbxGate true fun s =>
    let code := s.mbxFwCode image
    if code ≠ mcOk then s.mbxBegin .writeFw code
    else
      let slot := 1 - s.fld 0x120 4 1
      let s := { s with flash := if slot = 0 then { s.flash with fw0 := none } else { s.flash with fw1 := none } }
      match again with
      | none => s.mbxBegin .writeFw mcHostRead
      | some f => ({ s with boot := { s.boot with mbxFw := some (slot, f) } }).mbxBegin .writeFw mcOk

def execMbxWriteFw (image again : Option Firmware) (s : State) : Host.Outcome State Fault Refusal := .next (s.mbxWriteFw image again)

def Fuses.enrolled (f : Fuses) : Bool := f.keys.toList.any fun k => k.hash.isSome

/-- Is a key request signed as R32 asks: by an enrolled key that is not revoked? -/
def keyReqCode (f : Fuses) (r : KeyReq) : Nat :=
  match r.signer with
  | none => mcBadSig
  | some (k, ok) => if (keySlotOf f k).isNone then mcKeyUnknown else if ok then mcOk else mcBadSig

/-- ENROL_KEY's outcome (R32): the code, and the slot it fills. -/
def enrolOutcome (f now : Fuses) (req : Option KeyReq) : Nat × Option Nat :=
  match req with
  | none => (mcHostRead, none)
  | some r =>
    if !r.wellFormed then (mcBadFormat, none)
    else
      let code := if f.enrolled then keyReqCode now r else mcOk
      if code ≠ mcOk then (code, none)
      else match (List.range 4).find? fun i => (f.keys.toList[i]?.map fun k => k.hash.isNone).getD false with
        | none => (mcSlotsFull, none)
        | some i => (mcOk, some i)

/-- MBX_ENROL_KEY (R32): a customer key enters the next free slot. -/
def State.mbxEnrolKey (s : State) (req : Option KeyReq) : State :=
  s.mbxGate false fun s =>
    if !s.mbxArgOk 0x2000000 then s.mbxBegin .enrolKey mcBadArg
    else match enrolOutcome s.fuses s.keysNow req, req with
      | (code, some i), some r =>
        ({ s with fuses := { s.fuses with keys := vupd s.fuses.keys i fun k => { k with hash := some (sha384 r.key) } } }).showKeys
          |>.mbxBegin .enrolKey code
      | (code, _), _ => s.mbxBegin .enrolKey code

def execMbxEnrolKey (req : Option KeyReq) (s : State) : Host.Outcome State Fault Refusal := .next (s.mbxEnrolKey req)

/-- REVOKE_KEY's outcome (R32): the last unrevoked key is never revoked. -/
def revokeOutcome (f now : Fuses) (req : Option KeyReq) : Nat × Option Nat :=
  match req with
  | none => (mcHostRead, none)
  | some r =>
    if !r.wellFormed then (mcBadFormat, none)
    else
      let code := keyReqCode now r
      if code ≠ mcOk then (code, none)
      else match keySlotOf f r.key with
        | none => (mcKeyUnknown, none)
        | some i =>
          if (f.keys.toList.filter fun k => k.hash.isSome && !k.revoked).length ≤ 1 then (mcLastKey, none) else (mcOk, some i)

/-- MBX_REVOKE_KEY (R32): the revocation fuse is blown; the Catalogue in use keeps running until the next start. -/
def State.mbxRevokeKey (s : State) (req : Option KeyReq) : State :=
  s.mbxGate false fun s =>
    if !s.mbxArgOk 0x2000000 then s.mbxBegin .revokeKey mcBadArg
    else match revokeOutcome s.fuses s.keysNow req with
      | (code, some i) =>
        ({ s with fuses := { s.fuses with keys := vupd s.fuses.keys i fun k => { k with revoked := true } } }).showKeys
          |>.mbxBegin .revokeKey code
      | (code, none) => s.mbxBegin .revokeKey code

def execMbxRevokeKey (req : Option KeyReq) (s : State) : Host.Outcome State Fault Refusal := .next (s.mbxRevokeKey req)

/-- MBX_RESTART (R53, R54): a full module reset and a new start, refused with BUSY while a write runs. -/
def State.mbxRestart (s : State) : State := if s.mbxBusy then s.setFld 0x104 8 8 mcBusy else s.restart false

def execMbxRestart (s : State) : Host.Outcome State Fault Refusal := .next s.mbxRestart

/-- MBX_BAD_CMD (R54): an unknown CMD value, or a command the state does not allow. -/
def State.mbxBad (s : State) (cmd : Nat) : State :=
  let c := cmd % 16
  if (if s.boot.bootRom then c == 2 || c == 5 else decide (1 ≤ c ∧ c ≤ 5)) then s
  else if s.mbxBusy then s.setFld 0x104 8 8 mcBusy
  else s.mbxEnd mcBadCmd

def execMbxBadCmd (cmd : Nat) (s : State) : Host.Outcome State Fault Refusal := .next (s.mbxBad cmd)

/-- What a running write programs when it ends (R53): `flashOk` is false when erasing or programming failed. -/
def State.mbxProgram (s : State) (flashOk : Bool) : State × Nat :=
  match s.boot.mbxCat, s.boot.mbxFw with
  | some (slot, img), _ =>
    let ok := flashOk && (match catVerify s.keysNow img with | .good _ => true | _ => false)
    if !ok then (s, mcFlashFail)
    else ({ s with flash := if slot = 0 then { s.flash with catA := some img } else { s.flash with catB := some img } }, mcOk)
  | none, some (slot, f) =>
    if !(flashOk && f.valid s.fuses) then (s, mcFlashFail)
    else ({ s with flash := if slot = 0 then { s.flash with fw0 := some f } else { s.flash with fw1 := some f } }, mcOk)
  | none, none => (s, s.boot.mbxCode)

/-- MBX_COMMAND_END (R53): the running command ends with its code. -/
def execMbxCommandEnd (flashOk : Bool) (s : State) : Host.Outcome State Fault Refusal :=
  match s.boot.mbxRun with
  | none => .next s
  | some _ =>
    let (s, code) := s.mbxProgram flashOk
    .next (s.mbxEnd code)

end Sys2Proof.Machine
end

