-- ==== Sys2Proof/Machine/TickOps.lean ====
section
/-!
DEFINITION. TickOps.lean: TICK_IN, tick symbols, holdover, succession and the lock at start (R56 to R70). Times are ns.
-/

namespace Sys2Proof.Machine

/-! ## TCK_STATUS (R86) -/

def srcSeeking : Nat := 0
def srcLocked : Nat := 1
def srcTimer : Nat := 2
def srcTickIn : Nat := 3
def srcSlewing : Nat := 4
def srcHoldover : Nat := 5

def State.isMaster (s : State) : Bool := s.flag 0x10004 0

def State.src (s : State) : Nat := s.fld 0x10004 1 3

def State.setSrc (s : State) (v : Nat) : State := s.setFld 0x10004 1 3 v

/-- A follower enters holdover: SRC and HOLD_SEEN (R66). -/
def State.enterHoldover (s : State) (at_ : Nat) : State :=
  let s := (s.setSrc srcHoldover).setFlag 0x10004 16 true
  { s with tick := { s.tick with holdStart := some at_, symRun := 0 } }

def State.tickRec (s : State) : TickRec :=
  (s.cat.map (·.tick)).getD { periodUs := 0, master := 0, alternate := 0, tickInUse := 0, align := 0 }

/-- The period in ns, and W of R64. -/
def State.periodNs (s : State) : Nat := s.tickRec.periodUs * 1000

def State.winNs (s : State) : Nat := max 1000 s.tickRec.periodUs

def within (a b w : Nat) : Bool := decide (a ≤ b + w) && decide (b ≤ a + w)

/-- The module uses TICK_IN: it holds the master role and its bit is set (R58, R67). -/
def State.usesTickIn (s : State) : Bool :=
  let t := s.tickRec
  s.isMaster && ((s.moduleId == t.master && bitOf t.tickInUse 0) || (s.moduleId == t.alternate && bitOf t.tickInUse 1))

/-- Rank in the succession list (R67). -/
def tickRank (t : TickRec) (id : Nat) : Nat :=
  if id = t.master then 0 else if id = t.alternate then 1
  else 2 + id - (if t.master < id then 1 else 0) - (if t.alternate < id then 1 else 0)

/-! ## Tick symbols (R59, R60, R66, R68, R69) -/

/-- Attachments that are UP (R345). -/
def State.attUp (s : State) (k : Nat) : Bool := s.fld (0x501000 + 0x10 * k) 0 2 == 2

def State.anyAttUp (s : State) : Bool := (List.range 8).any s.attUp

/-- Send a symbol on the downstream port of every trained attachment. -/
def State.sendSymbol (s : State) (y : TickSym) : State :=
  (List.range 8).foldl (fun s k => if s.attUp k then s.send (.symbol (2 * k + 1) y) else s) s

/-- ALIGN in ns (R57). -/
def State.alignNs (s : State) : Nat := s.tickRec.align * 100

/-- Place a reference edge of the master: the symbol goes out with the number of the tick that the edge begins, and the boundary
lies ALIGN after the edge (R59, R60). -/
def State.placeEdge (s : State) (at_ number : Nat) : State :=
  let s := s.sendSymbol { number := number, master := s.moduleId, src := s.src, hops := 0, delay := 0 }
  { s with tick := { s.tick with edge := some (at_, number), expected := at_ + s.alignNs } }

/-- The number of the tick after the current one; TCK_COUNT wraps (R70). -/
def State.nextTick (s : State) : Nat := (s.tickNo + 1) % 2 ^ 64

/-- Is a moment within ± W of the expected reference edge, which lies ALIGN before the expected boundary (R60, R64)?
DEDUCED (log entry 162). -/
def State.inWindow (s : State) (at_ : Nat) : Bool := within (at_ + s.alignNs) s.tick.expected s.winNs

/-! ## TICK_IN (R63 to R65) -/

def State.setTin (s : State) (x : TickIn) : State := { s with tick := { s.tick with tin := x } }

/-- What an accepted edge does while TICK_IN is locked (R64, R65): a good one is the reference edge; every other one is ignored and
counted, and while the master slews it still shows the phase onto which the master moves. DESIGN CHOICE (log entry 163). -/
def State.lockedEdge (s : State) (at_ : Nat) (x : TickIn) : State :=
  if s.tick.edge.isNone && s.inWindow at_ then
    (s.setTin { x with lastGood := some at_, phase := some at_ }).placeEdge at_ s.nextTick
  else (s.setTin (if s.src == srcSlewing then { x with phase := some at_ } else x)).bump 0x10018 1

/-- TICK_IN_EDGE: ignored and counted when it comes less than 10 µs after the accepted edge before it; else accepted. The edge
that completes the qualification locks TICK_IN, and SRC then reads SLEWING (R65); at a lock with no holdover before it, too:
DESIGN CHOICE (log entry 159). -/
def execTickInEdge (at_ : Nat) (s : State) : Host.Outcome State Fault Refusal :=
  if !s.usesTickIn then .next s
  else
    let t := s.tick.tin
    match t.last with
    | some l =>
      if at_ < l + 10000 then .next (s.bump 0x10014 1)
      else
        let run := if within (at_ - l) s.periodNs s.winNs then t.run + 1 else 0
        let x : TickIn := { t with last := some at_, run := run }
        if t.locked then .next (s.lockedEdge at_ x)
        else if 4 ≤ run then .next ((s.setTin { x with locked := true, phase := some at_ }).setSrc srcSlewing)
        else .next (s.setTin x)
    | none => .next (s.setTin { t with last := some at_, run := 0 })

/-- TICK_IN_WINDOW_EXPIRY (R64): no good edge has arrived by W past the expected one, so the reference edge is placed there. -/
def execTickInWindowExpiry (at_ : Nat) (s : State) : Host.Outcome State Fault Refusal :=
  let stop := s.tick.expected + s.winNs
  if s.usesTickIn && s.tick.tin.locked && s.tick.edge.isNone && decide (stop ≤ at_ + s.alignNs) then
    .next (s.placeEdge (stop - s.alignNs) s.nextTick)
  else .next s

/-- TICK_IN_HOLDOVER (R65): 1.5 periods after the last good edge, or, while the master slews, after the last edge of the phase it
moves onto (log entry 163); the ticks go on from the oscillator and TICK_IN is qualified afresh. -/
def execTickInHoldover (at_ : Nat) (s : State) : Host.Outcome State Fault Refusal :=
  let t := s.tick.tin
  match (if s.src = srcSlewing then t.phase else t.lastGood) with
  | some g =>
    if s.usesTickIn && t.locked && decide (2 * g + 3 * s.periodNs ≤ 2 * at_) then
      .next (((s.setTin { t with run := 0, locked := false, lastGood := none, phase := none }).setSrc srcHoldover).setFlag 0x10004 16 true)
    else .next s
  | none => .next s

/-! ## Copies of tick symbols (R59, R60, R66, R68, R69) -/

/-- Forward the first copy of a symbol (R59): the hop count and the accumulated delay advance; the module's own
forwarding delay is not given and is a free value. -/
def State.forwardSymbol (s : State) (k : Nat) (y : TickSym) : State :=
  let (own, s) := s.free
  let d := ((s.lnk.atts.toList[k]?).map (·.upDelay)).getD 0
  s.sendSymbol { y with hops := y.hops + 1, delay := y.delay + d + own }

/-- Is a copy's accumulated delay too long for ALIGN (R60)? -/
def State.lateCopy (s : State) (y : TickSym) : Bool := decide (s.alignNs < y.delay + 100)

/-- The boundary that a copy places (R60): arrival + ALIGN − accumulated delay, or the arrival of a late one. -/
def State.copyBoundary (s : State) (y : TickSym) (at_ : Nat) : Nat :=
  if s.lateCopy y then at_ else at_ + s.alignNs - y.delay

/-- What the registers show of the copy in use: MASTER_ID, LATE and LATE_SEEN, TCK_PATH (R60, R86). -/
def State.showCopy (s : State) (k : Nat) (y : TickSym) : State :=
  let late := s.lateCopy y
  let s := (s.setFld 0x10004 8 6 y.master).setFlag 0x10004 4 late
  let s := if late then s.setFlag 0x10004 19 true else s
  s.setWord 0x10010 (BitVec.ofNat 32 (y.delay % 2 ^ 16 + y.hops % 64 * 2 ^ 16 + k % 8 * 2 ^ 24))

/-- The follower's part: the run of consecutive symbols, the lock after eight of them in a start and after four in holdover, and
the boundary (R60, R66, R69). A symbol of another master begins the run anew: DESIGN CHOICE (log entry 160). -/
def State.followSymbol (s : State) (k : Nat) (y : TickSym) (at_ : Nat) : State :=
  let t := s.tick
  let next := match t.lastSym with
    | some l => decide (y.number = (l.number + 1) % 2 ^ 64) && l.master == y.master
    | none => false
  let run := if next then t.symRun + 1 else 1
  let s := if t.locked && s.fld 0x10004 8 6 != y.master then s.setFlag 0x10004 17 true else s
  let s := s.showCopy k y
  let need := if t.holdStart.isSome then 4 else 8
  let take := decide (need ≤ run)
  let s := { s with tick := { s.tick with
    lastSym := some y, symRun := run, heard := true, fresh := true, takeAt := false,
    locked := t.locked || take,
    expected := if (t.locked && t.holdStart.isNone) || take then s.copyBoundary y at_ else t.expected,
    holdStart := if take then none else t.holdStart } }
  if take && (s.src == srcSeeking || s.src == srcHoldover) then s.setSrc srcLocked else s

/-- A master that hears a master of lower rank (R68): at its next boundary, which the winner's copy places, it becomes a follower
and takes the winner's number. -/
def State.yieldTo (s : State) (k : Nat) (y : TickSym) (at_ : Nat) : State :=
  { s.showCopy k y with
    tick := { s.tick with yieldAt := true, adopt := some y, lastSym := some y, symRun := 1, heard := true,
                          edge := some (at_, y.number), expected := s.copyBoundary y at_ } }

/-- TICK_SYMBOL_RECEIVE (R59, R68): later copies of a tick number and copies at 63 hops are discarded; a master that
hears another master keeps the role if its rank is lower, and else becomes a follower at its next boundary. -/
def execTickSymbolReceive (port : Nat) (sym : TickSym) (at_ : Nat) (s : State) : Host.Outcome State Fault Refusal :=
  let k := port / 2
  let dup : Bool := match s.tick.lastSym with
    | some l => l.master == sym.master && sym.number == l.number
    | none => false
  if 16 ≤ port ∨ port % 2 ≠ 0 ∨ 63 ≤ sym.hops ∨ dup = true ∨ s.attUp k = false then .next s
  else
    let t := s.tickRec
    if s.isMaster then
      if sym.master == s.moduleId || decide (tickRank t s.moduleId < tickRank t sym.master) then .next s
      else .next ((s.forwardSymbol k sym).yieldTo k sym at_)
    else .next ((s.forwardSymbol k sym).followSymbol k sym at_)

/-- HOLDOVER_ENTRY (R66): a follower without a symbol for 1.5 periods. -/
def execHoldoverEntry (at_ : Nat) (s : State) : Host.Outcome State Fault Refusal :=
  if !s.isMaster && s.tick.locked && s.tick.holdStart.isNone then .next (s.enterHoldover at_) else .next s

/-- HOLDOVER_LIMIT (R66): 0.5 s of holdover; the next boundary enters RECOVERING. -/
def execHoldoverLimit (s : State) : Host.Outcome State Fault Refusal :=
  if !s.isMaster && s.tick.holdStart.isSome then .next { s with tick := { s.tick with holdLimit := true } } else .next s

/-- SUCCESSION_TAKEOVER (R67): the role is taken at the next holdover boundary. -/
def execSuccessionTakeover (at_ : Nat) (s : State) : Host.Outcome State Fault Refusal :=
  if !s.isMaster && s.tick.holdStart.isSome && s.anyAttUp && decide (1 ≤ tickRank s.tickRec s.moduleId) &&
     (s.boot.state == .serving || s.boot.state == .derated) && decide (s.tick.expected ≤ at_ + s.periodNs)
  then .next { s with tick := { s.tick with takeAt := true } }
  else .next s

/-- MASTER_RELINQUISH (R68): a master with no trained ring attachment becomes a follower in holdover. -/
def execMasterRelinquish (at_ : Nat) (s : State) : Host.Outcome State Fault Refusal :=
  if s.isMaster && !s.anyAttUp then
    let s := (s.setFlag 0x10004 0 false).setTin TickIn.reset
    .next ({ s with tick := { s.tick with edge := none } }.enterHoldover at_)
  else .next s

/-- DELAY_ECHO (R61): an echo on both ports of every trained ring attachment, every 1,024 ticks. -/
def execDelayEcho (s : State) : Host.Outcome State Fault Refusal :=
  .next ((List.range 8).foldl (fun s k =>
    if s.attUp k then (s.send (.echo (2 * k) s.tick.boundaries)).send (.echo (2 * k + 1) s.tick.boundaries) else s) s)

/-- DELAY_ECHO_RECEIVE (R61, R345): the measured delay, to 2 ns; DELAY shows the downstream segment's. -/
def execDelayEchoReceive (att : Nat) (up : Bool) (delay : Nat) (s : State) : Host.Outcome State Fault Refusal :=
  if 8 ≤ att then .next s
  else
    let d := delay / 2 * 2
    if up then .next { s with lnk := { s.lnk with atts := vupd s.lnk.atts att fun a => { a with upDelay := d } } }
    else .next (s.setWord (0x501004 + 0x10 * att) (BitVec.ofNat 32 d))

/-! ## Lock at start (R69) -/

def State.startStep (s : State) : Nat := if s.boot.state == .starting then s.fld 0x120 0 4 else 0

/-- A census naming this module's ID with another serial number stops a start in DUP_MODULE_ID (R44). -/
def State.noteCensus (s : State) (moduleId serial : Nat) : State :=
  if s.boot.state == .starting && s.flag 0xC 17 && moduleId == s.moduleId && serial != s.quad 0x10 then s.halt hrDupId else s

/-- CENSUS_RECEIVE. -/
def execCensusReceive (moduleId serial : Nat) (s : State) : Host.Outcome State Fault Refusal := .next (s.noteCensus moduleId serial)

/-- TICK_ORIGINATE_TIMEOUT (R69, R70): rank 0 after one period of step 7, rank 1 after 3 s of it, without a symbol in it. Ticks
begin at 0 where no symbol was heard in this start, and else go on from the symbols heard. -/
def execTickOriginateTimeout (at_ : Nat) (s : State) : Host.Outcome State Fault Refusal :=
  if s.startStep == 7 && !s.tick.heard && !s.isMaster && decide (tickRank s.tickRec s.moduleId ≤ 1) then
    let s := ((s.setFlag 0x10004 0 true).setSrc srcTimer).setFld 0x10004 8 6 s.moduleId
    let number := match s.tick.lastSym with
      | none => 0
      | some y => if s.tick.locked then s.nextTick else (y.number + 1) % 2 ^ 64
    let s : State := { s with tick := { s.tick with locked := true, holdStart := none, tin := TickIn.reset } }
    .next (s.placeEdge at_ number)
  else .next s

/-- TICK_LOCK_TIMEOUT (R69): not locked 10 s after entering step 7. -/
def execTickLockTimeout (s : State) : Host.Outcome State Fault Refusal :=
  if s.startStep == 7 && !s.tick.locked then .next (s.halt hrTickLock) else .next s

/-- TICK_OUT_END (R62). -/
def execTickOutEnd (s : State) : Host.Outcome State Fault Refusal :=
  .next { s with pins := { s.pins with tickOut := false } }

/-! ## The tick's own part of a boundary (R60, R65, R66, R67, R68, R70) -/

/-- How far a master that slews lengthens the next tick: towards the phase of the TICK_IN edges, by at most 25 % of the period, and
not at all once its edges lie within W of it (R65). -/
def State.slew (s : State) (at_ : Nat) : Nat :=
  match s.tick.tin.phase with
  | some g =>
    let p := s.periodNs
    let gap := ((g + s.alignNs) % p + p - at_ % p) % p
    if s.src == srcSlewing && p != 0 && decide (s.winNs < gap) && decide (gap + s.winNs < p) then min gap (p / 4) else 0
  | none => 0

/-- SRC reads TICK_IN from the boundary whose reference edge lies within W of a good edge (R65). -/
def State.slewDone (s : State) (at_ : Nat) : State :=
  match s.tick.tin.lastGood with
  | some g => if s.src == srcSlewing && within (g + s.alignNs) at_ s.winNs then s.setSrc srcTickIn else s
  | none => s

/-- The number of the tick that begins at a boundary: the winner's where the module yields or follows, the reference edge's where
it is the master, and else the next one (R68, R70). -/
def State.boundaryNo (s : State) : Nat :=
  match s.tick.adopt, s.tick.edge, s.tick.lastSym with
  | some y, _, _ => y.number
  | none, some (_, n), _ => if s.isMaster then n else s.nextTick
  | none, none, some y => if !s.isMaster && s.tick.fresh && s.tick.locked && s.tick.holdStart.isNone then y.number else s.nextTick
  | none, none, none => s.nextTick

/-- The role changes that wait for a boundary: a role that is yielded or taken (R67, R68). -/
def State.boundaryRole (s : State) : State :=
  let t := s.tick
  if t.yieldAt then
    (((s.setFlag 0x10004 0 false).setSrc srcLocked).setFlag 0x10004 17 true).setTin TickIn.reset
  else if t.takeAt && !s.isMaster then
    let s := (((s.setFlag 0x10004 0 true).setSrc srcTimer).setFlag 0x10004 17 true).setFld 0x10004 8 6 s.moduleId
    { s with tick := { s.tick with holdStart := none, tin := TickIn.reset } }
  else s

/-- A boundary at `at_`: the number, JUMP where it is adopted discontinuously, the role changes, the next expected boundary and
TICK_OUT. A master whose reference edge no row has placed sends that edge's symbol here. DESIGN CHOICE (log entry 164). -/
def State.tickBoundary (s : State) (at_ : Nat) : State :=
  let t := s.tick
  let number := s.boundaryNo
  let jump := t.adopt.isSome || (number != s.nextTick && t.boundaries != 0 && !s.isMaster)
  let silent := t.edge.isNone
  let s := s.setQuad 0x10008 number
  let s := (if jump then s.setFlag 0x10004 18 true else s).boundaryRole
  let s := s.slewDone at_
  let s := { s with
    tick := { s.tick with
      expected := at_ + s.periodNs + s.slew at_, edge := none, adopt := none, yieldAt := false, takeAt := false, fresh := false,
      boundaries := t.boundaries + 1 },
    pins := { s.pins with tickOut := true } }
  if s.isMaster && silent then
    s.sendSymbol { number := s.tickNo, master := s.moduleId, src := s.src, hops := 0, delay := 0 }
  else s

end Sys2Proof.Machine
end

