-- ==== Sys2Proof/Machine/Links.lean ====
section
/-!
DEFINITION. Links.lean: ports, bypasses, the link layer, routing, end-to-end delivery and the serving table
(R319 to R345).
-/

namespace Sys2Proof.Machine

/-! ## CRC-32C and the block format (R333, R334) -/

/-- The code of a packet's kind (R334). -/
def PKind.code : PKind → Nat
  | .write => 1 | .signal => 2 | .ack => 3 | .control => 4

def pkindOf (c : Nat) : Option PKind := [PKind.write, .signal, .ack, .control].find? fun k => k.code == c

/-- The payload as it stands in a block: LEN is a multiple of 16 (R334), so the 8 bytes of an ACK or a signal are followed by zeros. -/
def Packet.padded (p : Packet) : List Byte := p.payload ++ List.replicate (16 * ceilDiv p.payload.length 16 - p.payload.length) 0

/-- The header and the payload of a packet (R334). -/
def Packet.bytes (p : Packet) : List Byte :=
  leBytes 1 (p.kind.code + 16 * p.vc + 64 * p.cls) ++ leBytes 1 (p.dst % 64) ++ leBytes 1 (p.src % 64) ++ leBytes 1 (p.tenant % 16 + 16 * p.space) ++
  leBytes 1 p.gen ++ leBytes 3 (if p.vc = 0 then p.tag % 2 ^ 16 else p.tag) ++ leBytes 8 p.addr ++
  leBytes 2 (p.padded.length + 512 * (p.bad % 16)) ++ leBytes 2 (p.cnt % 4096 + p.cntEn.toNat * 2 ^ 15) ++ leBytes 4 0 ++ p.padded

/-- The packets of a payload, at most `n` of them (R334); an invalid header ends them. -/
def parsePackets : Nat → List Byte → List Packet
  | 0, _ => []
  | n + 1, bs =>
    let len := fieldAt bs 16 2 % 512
    let vc := fieldAt bs 0 1 / 16 % 4
    match pkindOf (fieldAt bs 0 1 % 16) with
    | none => []
    | some kind =>
      if bs.length < 24 + len ∨ len % 16 ≠ 0 ∨ 256 < len then []
      else
        { kind := kind, vc := vc, cls := fieldAt bs 0 1 / 64 % 2, dst := fieldAt bs 1 1 % 64,
          src := fieldAt bs 2 1 % 64, tenant := fieldAt bs 3 1 % 16, space := fieldAt bs 3 1 / 16, gen := fieldAt bs 4 1,
          tag := if vc = 0 then fieldAt bs 5 2 else fieldAt bs 5 3, addr := fieldAt bs 8 8, bad := fieldAt bs 16 2 / 512 % 16,
          cnt := fieldAt bs 18 2 % 4096, cntEn := bitOf (fieldAt bs 18 2) 15, payload := (bs.drop 24).take len, ctl := none }
        :: parsePackets n (bs.drop (24 + len))

/-- A link block (R333): KIND 0 DATA or 1 IDLE, the four CREDIT bytes, a payload of at most 496 bytes. -/
def linkBlock (kind seq ack : Nat) (nak : Bool) (credit : List Nat) (payload : List Byte) : List Byte :=
  let b := leBytes 2 (seq % 4096 + kind * 2 ^ 12) ++ leBytes 2 (ack % 4096 + nak.toNat * 2 ^ 12) ++
    (List.range 4).flatMap (fun i => leBytes 1 (credit.getD i 0)) ++ leBytes 4 0 ++ payload ++ List.replicate (496 - payload.length) 0
  b ++ leBytes 4 (crc32c b)

/-! ## Registers of ports and attachments (R345) -/

def portReg (p : Nat) : Nat := 0x500000 + 0x40 * p
def attReg (k : Nat) : Nat := 0x501000 + 0x10 * k

/-- The codes of LNK_PORT.STATE. -/
def psDark : Nat := 0
def psLoop : Nat := 1
def psJoin : Nat := 2
def psUp : Nat := 3
def psRetrain : Nat := 4
def psDown : Nat := 5

/-- The codes of LNK_ATT.STATE. -/
def asUnused : Nat := 0
def asJoin : Nat := 1
def asUp : Nat := 2
def asDown : Nat := 3

def State.portState (s : State) (p : Nat) : Nat := s.fld (portReg p) 0 3

/-- Change LNK_PORT.STATE, with its LINK event (R345, R539). -/
def State.setPort (s : State) (p v : Nat) : State :=
  if s.portState p = v then s
  else (s.setFld (portReg p) 0 3 v).event 0x0C none none p
    (leBytes 1 v ++ leBytes 1 (s.fld (portReg p) 3 3) ++ leBytes 1 (s.fld (portReg p + 4) 0 6)) (0, 0)

def State.attState (s : State) (k : Nat) : Nat := s.fld (attReg k) 0 2

/-- Change LNK_ATT.STATE; a change sets MOD_EVENT.LINK (R563). -/
def State.setAtt (s : State) (k v : Nat) : State :=
  if s.attState k = v then s
  else ((s.setFld (attReg k) 0 2 v).modEvent 7).event 0x0C none none (2 * k)
    (leBytes 1 v ++ leBytes 1 (s.fld (portReg (2 * k)) 3 3) ++ leBytes 1 (s.fld (portReg (2 * k) + 4) 0 6)) (0, 0)

def State.updPort (s : State) (p : Nat) (f : Port → Port) : State :=
  { s with lnk := { s.lnk with ports := vupd s.lnk.ports p f } }

def State.updAtt (s : State) (k : Nat) (f : Att → Att) : State :=
  { s with lnk := { s.lnk with atts := vupd s.lnk.atts k f } }

def State.port (s : State) (p : Nat) : Port := if h : p < 18 then s.lnk.ports[p] else Port.reset
def State.att (s : State) (k : Nat) : Att := if h : k < 8 then s.lnk.atts[k] else Att.reset

/-- Command the bypass; BYPASS reads the sensed position, which follows the command but where the switch is stuck (R326, R329, R345). -/
def State.bypass (s : State) (k : Nat) (open_ : Bool) : State :=
  let s' := s.updAtt k fun a => { a with openCmd := open_ }
  if (s.att k).stuck then s' else s'.setFlag (attReg k) 2 (!open_)

/-- This module's attachment record (R324). -/
def State.attRec (s : State) (k : Nat) : AttRec := ((s.cat.bind fun c => c.atts[k]?)).getD { ring := 0xFF, position := 0 }

def State.ringMembers (s : State) (r : Nat) : List Nat := ((s.cat.bind fun c => c.ringsOf[r]?)).getD []

def State.attUsed (s : State) (k : Nat) : Bool := (s.attRec k).ring != 0xFF

/-! ## Paths (R338 to R340) -/

/-- Hops from position `p` of a ring to the module `dst`, downstream or upstream, over at most `fuel` positions; none
when a segment on the way is not up. `gap` counts bypassed positions in a row: more than three are never joined. -/
def ringHops (ms : List Nat) (bypassed broken : Nat → Bool) (dst : Nat) (down : Bool) : Nat → Nat → Nat → Nat → Nat → Option Nat
  | 0, _, _, _, _ => none
  | fuel + 1, p, from_, hops, gap =>
    let n := ms.length
    let q := if down then (p + 1) % n else (p + n - 1) % n
    if bypassed q then
      if 3 ≤ gap then none else ringHops ms bypassed broken dst down fuel q from_ hops (gap + 1)
    else
      let seg := if down then from_ else q
      if broken seg then none
      else if ms[q]? = some dst then some (hops + 1)
      else ringHops ms bypassed broken dst down fuel q q (hops + 1) 0

/-- A path: attachment, direction, hop count. -/
structure Path where
  att  : Nat
  down : Bool
  hops : Nat
  deriving DecidableEq, Repr

def Path.port (p : Path) : Nat := if p.down then 2 * p.att + 1 else 2 * p.att

/-- Every path to a module, lower attachment and then downstream first (R338). -/
def State.paths (s : State) (dst : Nat) : List Path :=
  (List.range 8).flatMap fun k =>
    let a := s.attRec k
    let ms := s.ringMembers a.ring
    [true, false].filterMap fun down =>
      let port := if down then 2 * k + 1 else 2 * k
      if !s.attUp k || s.portState port != psUp then none
      else (ringHops ms (fun q => s.lnk.bypassed.contains (a.ring, q)) (fun q => s.lnk.broken.contains (a.ring, q)) dst down
        ms.length a.position a.position 0 0).map fun h => { att := k, down := down, hops := h }

def leastHops (ps : List Path) : Nat := ps.foldl (fun m p => min m p.hops) 1000

/-- The bytes of a virtual channel that wait at a port: packets that it has not sent yet. -/
def State.queued (s : State) (port vc : Nat) : Nat :=
  ((s.lnk.held.filter fun h => h.port == port && h.pkt.vc == vc && !h.sent).map fun h => 24 + h.pkt.payload.length).sum

/-- The port a packet leaves on (R339, R340, R342): on VC0 the least hop count, ties to the lower ring number and then
downstream; else, of the paths within two hops of the least, the first one whose port holds the fewest queued bytes. `avoid` is a
port to leave out when another serves. -/
def State.route (s : State) (dst vc : Nat) (avoid : Option Nat) : Option Nat :=
  let ps := s.paths dst
  let ps := match avoid with
    | some a => if (ps.filter fun p => p.port ≠ a).isEmpty then ps else ps.filter fun p => p.port ≠ a
    | none => ps
  let m := leastHops ps
  if vc = 0 then
    let best := ps.filter fun p => p.hops = m
    let r := best.foldl (fun x p => min x (s.attRec p.att).ring) 1000
    (best.find? fun p => (s.attRec p.att).ring = r).map (·.port)
  else
    let near := ps.filter fun p => p.hops ≤ m + 2
    (near.find? fun p => near.all fun q => decide (s.queued p.port vc ≤ s.queued q.port vc)).map (·.port)

def State.twinPort (s : State) : Option Nat := [16, 17].find? fun p => s.portState p == psUp

def State.reachable (s : State) (dst : Nat) : Bool := dst == s.moduleId || !(s.paths dst).isEmpty

/-- The module that a pair address names (R341): a member that is reachable; for member 2 the serving member as the table
has it, else the other. -/
def State.resolve (s : State) (pair member : Nat) : Option Nat :=
  let id (m : Nat) := 2 * pair + m
  if member < 2 then (if s.reachable (id member) then some (id member) else none)
  else
    let w := s.quad 0x502100 / 4 ^ pair % 4
    let first := if w < 2 then w else 0
    if w < 2 ∧ s.reachable (id first) then some (id first)
    else if s.reachable (id (1 - first)) then some (id (1 - first))
    else if s.reachable (id first) then some (id first) else none

/-! ## Sending (R335, R336, R339) -/

/-- Send a block on a port, with the NAK and the freed buffers that it has to report (R333, R335). -/
def State.sendBlock (s : State) (port kind seq : Nat) (pkts : List Packet) : State :=
  let p := s.port port
  (s.updPort port fun p => { p with nak := false, freed := p.freed.map (· - 255) }).send
    (.block port (linkBlock kind seq p.expect p.nak (p.freed.map (min 255)) (pkts.flatMap Packet.bytes)) (pkts.filterMap (·.ctl)))

/-- Put a packet into the next DATA block of a port: it stays in the retry buffer, and takes one of the partner's buffers. -/
def State.emit (s : State) (port : Nat) (pkt : Packet) : State :=
  let q := (s.port port).sendSeq
  (s.sendBlock port 0 q [pkt]).updPort port fun p =>
    { p with sendSeq := (q + 1) % 4096, held := p.held ++ [(q, pkt)], out := p.out ++ [(pkt.vc, pkt.cls)] }

/-- Buffers of a VC in each class (R336). -/
def vcBuffers (vc : Nat) : Nat := if vc = 0 then 32 else 256

/-- Has the partner a free buffer of a VC and class, as far as its CREDIT fields have said (R336)? -/
def Port.room (p : Port) (vc cls : Nat) : Bool := decide ((p.out.filter (· == (vc, cls))).length < vcBuffers vc)

/-- CREDIT of `n` buffers on a VC: the field does not name the class, and buffers are taken to be freed in the order they were filled. -/
def Port.credited (p : Port) (vc n : Nat) : Port := { p with out := drop1 n p.out }
where
  drop1 : Nat → List (Nat × Nat) → List (Nat × Nat)
    | 0, l => l
    | n + 1, l => drop1 n (match l.find? (·.1 == vc) with
        | some x => l.erase x
        | none => l)

/-- Does a hop from this module over a port cross position 0 of the ring: a bypassed one between it and its partner (R336)? -/
def State.crosses (s : State) (port : Nat) : Bool :=
  let a := s.attRec (port / 2)
  let n := (s.ringMembers a.ring).length
  (List.range (s.fld (portReg port + 4) 6 2)).any fun g => (if port % 2 = 1 then (a.position + 1 + g) % n else (a.position + 2 * n - 1 - g) % n) == 0

/-- The packets of a VC that wait at a port, those of its queue first: each with the class it will travel in, and what it is. -/
def State.waiting (s : State) (port vc : Nat) : List (Packet × (Queued ⊕ HeldPkt)) :=
  let cls := (port < 16 && s.crosses port).toNat
  (((s.port port).queue.filter fun q => q.pkt.vc == vc).map fun q => (q.pkt, .inl q)) ++
  ((s.lnk.held.filter fun h => h.port == port && h.pkt.vc == vc && !h.sent).map fun h => ({ h.pkt with cls := cls }, .inr h))

/-- The next packet of a VC that a port can send. -/
def State.nextOf (s : State) (port vc : Nat) : Option (Packet × (Queued ⊕ HeldPkt)) :=
  (s.waiting port vc).find? fun (p, _) => (s.port port).room vc p.cls

/-- The deficit round robin of VC1 to VC3 in whole blocks (R337): the VC with a packet and credit whose turn it is or comes next, and
the blocks that it has left; `w` gives the quanta. -/
def drrNext (w : Nat → Nat) (has : Nat → Bool) : Nat → Nat → Nat → Option (Nat × Nat)
  | 0, _, _ => none
  | fuel + 1, turn, left =>
    if decide (0 < left) && has turn then some (turn, left - 1) else drrNext w has fuel (turn % 3 + 1) (w (turn % 3 + 1))

/-- The VC of a port's next DATA block (R337), and the port after it. -/
def State.pickVc (s : State) (port : Nat) : Option (Nat × Port) :=
  let has (vc : Nat) : Bool := (s.nextOf port vc).isSome
  let w (vc : Nat) : Nat := ((s.cat.map (·.vcw)).getD []).getD vc 1
  let p := s.port port
  let others := has 1 || has 2 || has 3
  let ran (vc0 : Bool) (p : Port) : Port := { p with vc0Ran := ((vc0 && others) :: p.vc0Ran).take 256 }
  if has 0 && !(others && decide (w 0 ≤ (p.vc0Ran.filter id).length)) then some (0, ran true p)
  else (drrNext w has 5 p.turn p.left).map fun (vc, left) => (vc, ran false { p with turn := vc, left := left })

/-- A receive buffer of a port is free once every packet of its block has left it; the next block reports it (R336). -/
def State.freeBuffer (s : State) (port seq vc : Nat) : State :=
  if (s.lnk.arrived.any fun a => a.port == port && a.seq == seq) || (s.lnk.ports.any fun p => p.queue.any (·.from_ == some (port, seq))) then s
  else s.updPort port fun p => { p with freed := p.freed.mapIdx fun i n => if i = vc then n + 1 else n }

/-- A packet that waited leaves in a block. -/
def State.sendOne (s : State) (port : Nat) (pkt : Packet) (what : Queued ⊕ HeldPkt) : State :=
  let s := s.emit port pkt
  match what with
  | .inl q =>
    let s := s.updPort port fun p => { p with queue := p.queue.erase q }
    match q.from_ with
    | some (i, seq) => s.freeBuffer i seq pkt.vc
    | none => s
  | .inr h => { s with lnk := { s.lnk with held := s.lnk.held.map fun x => if x = h then { x with sent := true } else x } }

/-- Send what waits at a port, as long as it is UP, holds fewer than 1,024 DATA blocks (R335) and the partner has buffers. -/
def State.sendAll (s : State) (port : Nat) : Nat → State
  | 0 => s
  | fuel + 1 =>
    if s.portState port ≠ psUp ∨ 1024 ≤ (s.port port).held.length then s
    else match s.pickVc port with
      | none => s
      | some (vc, p) =>
        match s.nextOf port vc with
        | none => s
        | some (pkt, what) => ((s.updPort port fun _ => p).sendOne port pkt what).sendAll port fuel

def State.flushPort (s : State) (port : Nat) : State := s.sendAll port 1024

/-- A port's next block: DATA when something can go, else an IDLE block with what it has to report (R333). -/
def State.nextBlock (s : State) (port : Nat) : State :=
  let s' := s.flushPort port
  if s'.portState port = psUp ∧ (s'.port port).sendSeq = (s.port port).sendSeq then s'.sendBlock port 1 (s'.port port).sendSeq [] else s'

/-- Let a packet wait at a port. -/
def State.enqueue (s : State) (port : Nat) (q : Queued) : State :=
  (s.updPort port fun p => { p with queue := p.queue ++ [q] }).flushPort port

/-- The next TAG towards a destination on a virtual channel (R334, R339): 16 bits on VC0, else 24. -/
def State.nextTag (s : State) (dst vc : Nat) : Nat × State :=
  let k := dst * 4 + vc
  let t := (aget s.lnk.nextTag k).getD 0
  let m := if vc = 0 then 2 ^ 16 else 2 ^ 24
  (t, { s with lnk := { s.lnk with nextTag := aput s.lnk.nextTag k ((t + 1) % m) } })

/-- The generation tag (R493). -/
def State.gen (s : State) : Nat := s.fld 0x700000 8 8

/-- Does a destination's place for unacknowledged packets of VC1 to VC3, 16,384, have room (R339)? -/
def State.tagRoom (s : State) (dst : Nat) : Bool :=
  decide ((s.lnk.held.filter fun h => h.pkt.dst == dst && h.pkt.vc != 0).length < 16384)

/-- The packets that something may still wait for: held, waiting for room, or dropped and not yet told of. -/
def State.unackedPkts (s : State) : List HeldPkt := s.lnk.held ++ s.lnk.later ++ s.lnk.lost

/-- Tag a packet and hold it. -/
def State.holdPacket (s : State) (h : HeldPkt) : State :=
  let (t, s) := s.nextTag h.pkt.dst h.pkt.vc
  ({ s with lnk := { s.lnk with held := s.lnk.held ++ [{ h with pkt := { h.pkt with tag := t } }] } } : State).flushPort h.port

/-- Send a packet to another module, holding it until it is acknowledged; `none` when no path leads there. One for which the 16,384
places of its destination leave no room waits (R339). -/
def State.sendPacket (s : State) (p : Packet) (pair : Bool) (w : Waiter) (twin : Bool) : Option State :=
  let port := (if twin then s.twinPort else none).orElse fun _ => s.route p.dst p.vc none
  port.map fun q =>
    let h : HeldPkt := { pkt := { p with src := s.moduleId, gen := s.gen }, pair := pair, waiter := w, port := q, sent := false }
    if p.vc != 0 && !(s.tagRoom p.dst && !s.lnk.later.any fun x => x.pkt.dst == p.dst && x.pkt.vc != 0) then
      { s with lnk := { s.lnk with later := s.lnk.later ++ [h] } }
    else s.holdPacket h

/-- Packets that waited take the places that have come free. -/
def State.holdLater (s : State) : State :=
  s.lnk.later.foldl (fun s h =>
    if s.tagRoom h.pkt.dst then ({ s with lnk := { s.lnk with later := s.lnk.later.erase h } } : State).holdPacket h else s) s

/-- What the twin ports carry (R342): mirror records and marks, and the digests and step records of compare. -/
def Ctl.onTwinPort : Ctl → Bool
  | .mirror _ _ | .mirrorMark _ _ _ _ _ | .unitDigest _ _ _ _ | .stepRecord _ _ => true
  | _ => false

/-- A CONTROL packet on VC0 to a module; dropped when nothing leads there. -/
def State.sendCtl (s : State) (dst : Nat) (c : Ctl) : State :=
  let p : Packet :=
    { kind := .control, vc := 0, cls := 0, dst := dst, src := 0, tenant := 0, space := 0, gen := 0, tag := 0,
      addr := 0, bad := 0, cnt := 0, cntEn := false, payload := [], ctl := some c }
  (s.sendPacket p false .free false).getD s

/-- A message of the Larder to the twin, on VC3 of the rings (R242). -/
def State.sendVc3 (s : State) (c : Ctl) : State :=
  let p : Packet :=
    { kind := .control, vc := 3, cls := 0, dst := twinOf s.moduleId, src := 0, tenant := 0, space := 0, gen := 0, tag := 0,
      addr := 0, bad := 0, cnt := 0, cntEn := false, payload := [], ctl := some c }
  (s.sendPacket p false .free false).getD s

/-- A message to the twin on a virtual channel: what the twin ports carry on one of them while it is UP, else over the rings (R342). -/
def State.sendTwin (s : State) (vc : Nat) (c : Ctl) : State :=
  let p : Packet :=
    { kind := .control, vc := vc, cls := 0, dst := twinOf s.moduleId, src := 0, tenant := 0, space := 0, gen := 0, tag := 0,
      addr := 0, bad := 0, cnt := 0, cntEn := false, payload := [], ctl := some c }
  (s.sendPacket p false .free c.onTwinPort).getD s

/-- A message to every other module this one shares a ring with. -/
def State.flood (s : State) (c : Ctl) : State :=
  let ids := ((List.range ((s.cat.map (·.modules)).getD 0)).filter fun i => i ≠ s.moduleId)
  ids.foldl (fun s i => s.sendCtl i c) s

/-- Note whether a position of a ring is bypassed. -/
def State.putBypassed (s : State) (ring pos : Nat) (b : Bool) : State :=
  let l := s.lnk.bypassed.filter (· ≠ (ring, pos))
  { s with lnk := { s.lnk with bypassed := if b then (ring, pos) :: l else l } }

/-- Partners in one direction from `pos` with `gap` bypassed positions between them: those are bypassed, the partner's is not (R338). -/
def State.learnGap (s : State) (ring pos gap : Nat) (down : Bool) : State :=
  let n := (s.ringMembers ring).length
  let at_ (i : Nat) : Nat := if down then (pos + 1 + i) % n else (pos + 2 * n - 1 - i) % n
  ((List.range gap).foldl (fun s i => s.putBypassed ring (at_ i) true) s).putBypassed ring (at_ gap) false

/-- The port that a held packet's path leaves on now: a twin port for what those carry; on VC0 the one path; else the port it has, while a
path leads from it (R339, R340, R342). -/
def State.portOf (s : State) (h : HeldPkt) : Option Nat :=
  (if 16 ≤ h.port then s.twinPort else none).orElse fun _ =>
    if h.pkt.vc ≠ 0 && (s.paths h.pkt.dst).any (fun p => p.port == h.port) then some h.port else s.route h.pkt.dst h.pkt.vc none

/-- A held packet after a change of the paths: it stays, goes again on another port, or is dropped, when its destination has become
unreachable (R339 to R341); E2E_RESEND_TIMEOUT then ends what waits for it. -/
def State.rehold (s : State) (h : HeldPkt) : State :=
  match s.portOf h with
  | some q =>
    if q = h.port then s
    else
      let s : State := { s with lnk := { s.lnk with held := s.lnk.held.map fun x => if x = h then { x with port := q, sent := false } else x } }
      if h.sent then s.bump 0x502200 1 else s
  | none =>
    let s : State := { s with lnk := { s.lnk with held := s.lnk.held.filter (· != h), lost := s.lnk.lost ++ [h] } }
    let s := s.bump 0x502208 1
    if h.pair then s.note 0xA6 { detail := h.pkt.dst } else s

/-- The sequences of modules that are unreachable start anew. DESIGN CHOICE (log entry 173). -/
def State.forgetGone (s : State) : State :=
  let gone (d : Nat) : Bool := !s.reachable d && !(d == twinOf s.moduleId && s.twinPort.isSome)
  { s with lnk := { s.lnk with
    nextTag := s.lnk.nextTag.filter fun (k, _) => !gone (k / 4), seen := s.lnk.seen.filter fun (k, _) => !gone (k / 4),
    expect := s.lnk.expect.filter fun (k, _) => !gone k, early := s.lnk.early.filter fun p => !gone p.src } }

/-- The paths are computed anew after a port or attachment has changed anywhere on the rings (R338): the packets held for a destination
whose VC0 path has changed go again in order before any new one (R340). -/
def State.repath (s : State) : State :=
  let s := (s.lnk.held.foldl (fun s h => s.rehold h) s).forgetGone
  (List.range 18).foldl (fun s p => s.flushPort p) s

/-- Apply a linkState announcement to the paths (R338). -/
def State.noteLink (s : State) (ring pos : Nat) (byp up : Bool) (gap : Nat) : State :=
  let s := s.putBypassed ring pos byp
  let l := s.lnk.broken.filter (· ≠ (ring, pos))
  let s : State := { s with lnk := { s.lnk with broken := if !byp && !up then (ring, pos) :: l else l } }
  (if !byp && up then s.learnGap ring pos gap true else s).repath

/-- Tell every module of attachment `k`'s ring that this one changed (R338), once its own paths are computed anew. -/
def State.linkChanged (s : State) (k : Nat) : State :=
  let a := s.attRec k
  let byp := s.flag (attReg k) 2
  let up := s.portState (2 * k + 1) == psUp
  let gap := s.fld (portReg (2 * k + 1) + 4) 6 2
  (s.ringMembers a.ring).foldl (fun s i => if i = s.moduleId then s else s.sendCtl i (.linkState a.ring a.position byp up gap)) s.repath

/-! ## Joining (R326 to R332) -/

/-- The IDENT of a port (R330). -/
def State.identOf (s : State) (port : Nat) : Ident :=
  let a := s.attRec (port / 2)
  { moduleId := s.moduleId, serial := s.quad 0x10, ring := if port < 16 then a.ring else 0xFF,
    position := if port < 16 then a.position else 0, sequence := (s.cat.map (·.sequence)).getD 0,
    digest := (s.cat.map (·.digest)).getD [] }

/-- Open the bypass, start the join window and train (R330, steps 2 and 3). -/
def State.openJoin (s : State) (k : Nat) : State :=
  let s := (s.bypass k true).updAtt k fun a => { a with window := true, retry := false }
  let s := (s.setPort (2 * k) psJoin).setPort (2 * k + 1) psJoin
  let s := (s.updPort (2 * k) fun p => { p with passed := false }).updPort (2 * k + 1) fun p => { p with passed := false }
  (s.setAtt k asJoin).linkChanged k

/-- Has a port the three good lanes without which it is DOWN (R322)? -/
def State.lanesOk (s : State) (port : Nat) : Bool := decide (3 ≤ ((s.port port).lanes.filter id).length)

/-- ATTACHMENT_JOIN (R330): the loopback of both ports, then the open step, in a start or, after RETRY, while the module serves (R326).
A port that fails loopback is DOWN and the bypass stays closed. -/
def execAttachmentJoin (k : Nat) (upOk downOk : Bool) (s : State) : Host.Outcome State Fault Refusal :=
  let upOk := upOk && s.lanesOk (2 * k)
  let downOk := downOk && s.lanesOk (2 * k + 1)
  if 8 ≤ k ∨ s.attUsed k = false ∨ s.attState k ≠ asJoin ∨ (s.att k).window = true ∨ (s.startStep == 6 || s.serves) = false then .next s
  else if upOk && downOk then .next (((s.setPort (2 * k) psLoop).setPort (2 * k + 1) psLoop).openJoin k)
  else
    let s := if upOk then s else s.setPort (2 * k) psDown
    let s := if downOk then s else s.setPort (2 * k + 1) psDown
    .next (((s.bypass k false).setAtt k asDown).setFlag 0x502000 k false)

/-- JOIN_WINDOW_EXPIRY (R330, R332): the bypass closes; in a start the attachment tries again after 1 s, while serving
the attempt has ended and it is down. -/
def execJoinWindowExpiry (k : Nat) (s : State) : Host.Outcome State Fault Refusal :=
  if !(s.att k).window then .next s
  else
    let s := (s.bypass k false).updAtt k fun a => { a with window := false, retry := s.boot.state == .starting }
    let s := (s.setPort (2 * k) psDark).setPort (2 * k + 1) psDark
    let s := if s.boot.state == .starting then s else (s.setAtt k asDown).setFlag 0x502000 k false
    .next (s.linkChanged k)

/-- JOIN_RETRY_TIMER (R330). -/
def execJoinRetryTimer (k : Nat) (s : State) : Host.Outcome State Fault Refusal :=
  if (s.att k).retry && s.startStep == 6 then .next (s.openJoin k) else .next s

/-- BYPASS_SETTLE_TIMEOUT (R329): the switch stands where it was not commanded to; reported, and the attachment held DOWN with the
closed command in force. -/
def execBypassSettleTimeout (k : Nat) (s : State) : Host.Outcome State Fault Refusal :=
  if 8 ≤ k ∨ s.attUsed k = false then .next s
  else
    let s := (s.note 0xA5 { detail := k }).setFlag (attReg k) 2 (s.att k).openCmd
    let s := s.updAtt k fun a => { a with openCmd := false, window := false, retry := false, stuck := true }
    .next (((((s.setAtt k asDown).setPort (2 * k) psDown).setPort (2 * k + 1) psDown).setFlag 0x502000 k false).linkChanged k)

/-- IDENT_SEND (R330): an up port repeats its IDENT every 1 ms; a port that trains sends it as well. -/
def execIdentSend (port : Nat) (s : State) : Host.Outcome State Fault Refusal :=
  if port < 18 ∧ (s.portState port = psUp ∨ s.portState port = psJoin) then .next (s.send (.ident port (s.identOf port)))
  else .next s

/-- What a partner's IDENT amounts to (R44, R331, R342). -/
inductive IdentCheck where
  | pass (gap : Nat)
  | untrained
  | miswired
  | gap
  | halt (reason : Nat)
  deriving DecidableEq, Repr

/-- The distance at which the partner stands in the direction of the port, if it is 0 to 3 bypassed positions away. -/
def partnerGap (ms : List Nat) (p : Nat) (down : Bool) (id : Nat) : Option Nat :=
  let n := ms.length
  (List.range 4).find? fun g => ms[if down then (p + 1 + g) % n else (p + 2 * n - 1 - g) % n]? == some id

def State.checkIdent (s : State) (port : Nat) (i : Ident) : IdentCheck :=
  let me := s.identOf port
  if i.moduleId = me.moduleId ∧ i.serial ≠ me.serial then .halt hrDupId
  else if i.digest ≠ me.digest then
    if i.sequence = me.sequence ∨ me.sequence < i.sequence then .halt hrCatMismatch else .untrained
  else if 16 ≤ port then (if i.moduleId = twinOf me.moduleId then .pass 0 else .miswired)
  else
    let ms := s.ringMembers me.ring
    if !ms.contains i.moduleId || i.ring != me.ring then .miswired
    else if i.moduleId = me.moduleId then .gap
    else match partnerGap ms me.position (port % 2 == 1) i.moduleId with
      | some g => if ms[i.position]? = some i.moduleId then .pass g else .miswired
      | none => .gap

/-- A port takes its partner (R345). With another partner than before the link layer begins anew. DESIGN CHOICE (log entry 92). -/
def State.takePartner (s : State) (port : Nat) (i : Ident) (gap : Nat) : State :=
  let same (p : Port) : Bool := p.partner.any fun x => x.moduleId == i.moduleId && x.serial == i.serial
  let s := s.updPort port fun p =>
    let p := if same p then p else { Port.reset with lanes := p.lanes }
    { p with passed := true, partner := some i }
  let s := s.setWord (portReg port + 4) (BitVec.ofNat 32 (i.moduleId % 64 + gap * 64))
  if port < 16 then s.learnGap (s.attRec (port / 2)).ring (s.attRec (port / 2)).position gap (port % 2 == 1) else s

/-- A port that goes UP, with its lanes (R322, R345); with fewer than three it is DOWN. -/
def State.portUp (s : State) (port : Nat) : State :=
  let good := ((s.port port).lanes.filter id).length
  let spare := (s.port port).lanes.take 4 |>.any (!·)
  if good < 3 then s.setPort port psDown
  else ((s.setPort port psUp).setFld (portReg port) 3 3 (min 4 good)).setFlag (portReg port) 6 (spare && decide (4 ≤ good))

/-- A passed check (R330, steps 4 and 5): the attachment is UP when both its ports have passed within the window. -/
def State.passIdent (s : State) (port : Nat) (i : Ident) (g : Nat) : State :=
  let s := s.takePartner port i g
  if 16 ≤ port then s.portUp port
  else
    let k := port / 2
    if (s.port (2 * k)).passed && (s.port (2 * k + 1)).passed then
      let s := s.updAtt k fun a => { a with window := false, retry := false }
      ((((s.portUp (2 * k)).portUp (2 * k + 1)).setAtt k asUp).setFlag 0x502000 k false).linkChanged k
    else s

/-- IDENT_RECEIVE (R330, R331, R44): of a port that joins; its own module ID from another serial number stops the module on any port. -/
def execIdentReceive (port : Nat) (i : Ident) (s : State) : Host.Outcome State Fault Refusal :=
  let joining := s.lanesOk port &&
    (if port < 16 then (s.att (port / 2)).window else s.portState port != psUp && s.portState port != psRetrain)
  if 18 ≤ port ∨ s.cat = none then .next s
  else match s.checkIdent port i with
    | .halt r => .next (if joining || r == hrDupId then s.halt r else s)
    | .untrained => .next (if joining then s.updPort port fun p => { p with passed := false } else s)
    | .miswired => .next (if joining then s.note 0xA3 { detail := port } else s)
    | .gap => .next (if joining then s.note 0xA4 { detail := port } else s)
    | .pass g => .next (if joining then s.passIdent port i g else s)

/-- A port loses its partner or makes no progress: RETRAIN, counted and reported (R332, R335, R344). -/
def State.retrain (s : State) (port : Nat) : State :=
  let s := ((s.setPort port psRetrain).bump (portReg port + 0x18) 1).note 0xA1 { detail := port }
  let s := s.updPort port fun p => { p with resends := 0, passed := false }
  if port < 16 then s.linkChanged (port / 2) else s.repath

/-- PORT_PARTNER_LOSS (R332): nothing valid for 10 µs while the module serves. -/
def execPortPartnerLoss (port : Nat) (s : State) : Host.Outcome State Fault Refusal :=
  if port < 18 ∧ s.portState port = psUp then .next (s.retrain port) else .next s

/-- PORT_RETRAIN_COMPLETE (R332): UP again, subject to R331. -/
def execPortRetrainComplete (port : Nat) (i : Ident) (s : State) : Host.Outcome State Fault Refusal :=
  if 18 ≤ port ∨ s.portState port ≠ psRetrain then .next s
  else match s.checkIdent port i with
    | .pass g =>
      let s := (s.takePartner port i g).portUp port
      .next (if port < 16 then s.linkChanged (port / 2) else s.repath)
    | .halt r => .next (s.halt r)
    | .miswired => .next (s.note 0xA3 { detail := port })
    | .gap => .next (s.note 0xA4 { detail := port })
    | .untrained => .next s

/-- The bypass closes, LNK_DOWN is reported and the attachment is DOWN (R332). -/
def State.attDown (s : State) (k : Nat) : State :=
  let s := (s.bypass k false).updAtt k fun a => { a with window := false, retry := false }
  let s := (s.setPort (2 * k) psDown).setPort (2 * k + 1) psDown
  (((s.setAtt k asDown).setFlag 0x502000 k false).note 0xA2 { detail := k }).linkChanged k

/-- ATTACHMENT_DOWN (R332): a port of an attachment not UP for 2 s. -/
def execAttachmentDown (k : Nat) (s : State) : Host.Outcome State Fault Refusal :=
  if k < 8 ∧ s.attState k = asUp ∧ (s.portState (2 * k) ≠ psUp ∨ s.portState (2 * k + 1) ≠ psUp) then .next (s.attDown k)
  else .next s

/-- A write of LNK_CTL.RETRY: each attachment named that is down joins again; the bit clears when the attempt ends. -/
def State.lnkRetry (s : State) (mask : Nat) : State :=
  (bitsOf 8 mask).foldl (fun s k =>
    if s.attUsed k && s.attState k == asDown && !(s.att k).stuck then (s.setFlag 0x502000 k true).setAtt k asJoin else s) s

/-- LNK_RETRY (R332). -/
def execLnkRetry (mask : Nat) (s : State) : Host.Outcome State Fault Refusal :=
  if s.serves then .next (s.lnkRetry mask) else .next s

/-- LINK_TRAINING_TIMEOUT (R43): attachments without a trained partner are reported down; LINK_NONE when none trained. -/
def execLinkTrainingTimeout (s : State) : Host.Outcome State Fault Refusal :=
  if s.startStep ≠ 6 then .next s
  else
    let s := (List.range 8).foldl (fun s k => if s.attUsed k && s.attState k == asJoin then s.attDown k else s) s
    .next (if s.anyAttUp then s else s.halt hrLinkNone)

/-- A port's lanes after one has failed (R322): the spare in service, three lanes, or DOWN. -/
def State.laneFail (s : State) (port lane : Nat) : State :=
  let s := (s.updPort port fun p => { p with lanes := p.lanes.mapIdx fun i b => if i = lane then false else b }).note 0xA0 { detail := port }
  let good := ((s.port port).lanes.filter id).length
  if good < 3 then
    if port < 16 then s.attDown (port / 2) else ((s.setPort port psDown).note 0xA2 { detail := port }).repath
  else if s.portState port = psUp then s.portUp port else s

/-- The swap of an optical lane, for the accession log (R515, R518): NEW is the spare lane while it serves. -/
def State.laneSwap (s : State) (port lane cause : Nat) : Swap :=
  { kind := 8, cause := cause, unit := port, logical := 0xFFFF, old := lane,
    new := if ((s.port port).lanes.filter id).length = 5 ∧ lane ≠ 4 then 4 else 0xFFFFFFFF, value := 0, tick := s.tickNo, at_ := 0, left := 0,
    noted := false, missed := false }

/-- LANE_FAIL (R322, R515): only a lane that still works can fail. A lane that loses signal is replaced at once; one that
crosses OPT_MARGIN or OPT_FEC becomes due at the next boundary. -/
def execLaneFail (port lane : Nat) (crossed : Bool) (s : State) : Host.Outcome State Fault Refusal :=
  if port < 18 ∧ (s.port port).lanes[lane]? = some true then
    let x := s.laneSwap port lane (if crossed then 1 else 3)
    if crossed then .next { s with acc := { s.acc with due := s.acc.due ++ [x] } }
    else .next { (s.laneFail port lane) with acc := { s.acc with swaps := s.acc.swaps ++ [x] } }
  else .next s

/-! ## The link layer (R335) -/

/-- Send every held block of a port again, in order, counted in RESEND; after 16 in a row the port retrains. -/
def State.resend (s : State) (port : Nat) : State :=
  let p := s.port port
  let s := p.held.foldl (fun s (q, pkt) => s.sendBlock port 0 q [pkt]) (s.bump (portReg port + 0xC) p.held.length)
  let s := s.updPort port fun p => { p with resends := p.resends + 1 }
  if 16 ≤ (s.port port).resends then s.retrain port else s

/-- An ACK frees the blocks before it (R335): SEQ is compared modulo 4,096. -/
def State.linkAck (s : State) (port ack : Nat) : State :=
  let p := s.port port
  let gone := (p.held.takeWhile fun (q, _) => decide (0 < (ack + 4096 - q) % 4096 ∧ (ack + 4096 - q) % 4096 ≤ 1024)).length
  if gone = 0 then s else s.updPort port fun p => { p with held := p.held.drop gone, resends := 0 }

/-- A bad or unexpected DATA block is discarded, and NAK is set once for the gap, in the port's next block. -/
def State.linkGap (s : State) (port : Nat) : State :=
  s.updPort port fun p => if p.gapSeen then p else { p with nak := true, gapSeen := true }

/-- Count what the FEC has met since the last block: symbols that it corrected, and codewords that it could not (R335). Both are free
values. -/
def State.fecCounts (s : State) (port : Nat) (bad : Bool) : State :=
  let (k, s) := s.free
  let s := s.bump (portReg port + 0x10) k
  if !bad then s
  else
    let (u, s) := s.free
    s.bump (portReg port + 0x14) u

/-- A DATA block that is the expected one: its packets stand in a receive buffer. -/
def State.takeBlock (s : State) (port seq : Nat) (payload : List Byte) : State :=
  let s := s.updPort port fun p => { p with expect := (seq + 1) % 4096, gapSeen := false }
  { s with lnk := { s.lnk with arrived := s.lnk.arrived ++ (parsePackets 21 payload).map fun p => { port := port, seq := seq, pkt := p } } }

/-- LINK_BLOCK_RECEIVE (R333, R335). A block of another KIND is invalid, and is discarded. -/
def execLinkBlockReceive (port : Nat) (bytes : List Byte) (s : State) : Host.Outcome State Fault Refusal :=
  let bad := crc32c (bytes.take 508) != fieldAt bytes 508 4
  let kind := fieldAt bytes 0 2 / 4096
  if 18 ≤ port ∨ s.portState port ≠ psUp ∨ bytes.length ≠ 512 then .next s
  else
    let s := s.fecCounts port bad
    if bad then .next (((s.bump (portReg port + 8) 1).linkGap port).nextBlock port)
    else if 1 < kind then .next s
    else
      let seq := fieldAt bytes 0 2 % 4096
      let s := s.linkAck port (fieldAt bytes 2 2 % 4096)
      let s := s.updPort port fun p => (List.range 4).foldl (fun p vc => p.credited vc (fieldAt bytes (4 + vc) 1)) p
      let s :=
        if kind = 1 then s
        else if seq = (s.port port).expect then s.takeBlock port seq ((bytes.drop 12).take 496)
        else s.linkGap port
      if bitOf (fieldAt bytes 2 2) 12 && !(s.port port).held.isEmpty then .next ((s.resend port).flushPort port)
      else .next (if kind = 1 then s.flushPort port else s.nextBlock port)

/-- LINK_RESEND_TIMEOUT (R335): ACK has not advanced for 10 µs while blocks are held. -/
def execLinkResendTimeout (port : Nat) (s : State) : Host.Outcome State Fault Refusal :=
  if port < 18 ∧ s.portState port = psUp ∧ (s.port port).held ≠ [] then .next (s.resend port) else .next s

/-! ## End to end (R339, R340) -/

/-- Take a packet that has arrived out of its receive buffer, with the port and block it came in; the list holds no reading of a CONTROL
packet. -/
def State.takeArrived (s : State) (p : Packet) : Option (Nat × Nat) × State :=
  match s.lnk.arrived.find? fun a => a.pkt == { p with ctl := none } with
  | none => (none, s)
  | some a => (some (a.port, a.seq), { s with lnk := { s.lnk with arrived := s.lnk.arrived.erase a } })

/-- The packet is done with: its buffer is free when it was the block's last, and the port's next block says so. -/
def State.leaveBuffer (s : State) (vc : Nat) : Option (Nat × Nat) → State
  | some (port, seq) => (s.freeBuffer port seq vc).nextBlock port
  | none => s

/-- Has a packet of VC1 to VC3 been seen within the window of the last 16,384 (R339)? -/
def State.seen (s : State) (p : Packet) : Bool := ((aget s.lnk.seen (p.src * 4 + p.vc)).getD []).contains p.tag

def State.markSeen (s : State) (p : Packet) : State :=
  let k := p.src * 4 + p.vc
  { s with lnk := { s.lnk with seen := aput s.lnk.seen k ((p.tag :: (aget s.lnk.seen k).getD []).take 16384) } }

/-- Acknowledge a packet to its source (R334, R339): a base tag, and the bitmap's first bit. The reply carries the generation tag
of the request, by which its source knows a late one (R493). -/
def State.acknowledge (s : State) (p : Packet) : State :=
  let a : Packet :=
    { kind := .ack, vc := 0, cls := 0, dst := p.src, src := s.moduleId, tenant := p.tenant, space := 0,
      gen := p.gen, tag := 0, addr := p.tag, bad := 0, cnt := 0, cntEn := false, payload := leBytes 8 1, ctl := none }
  match s.route p.src 0 none with
  | some q => s.enqueue q { pkt := { a with cls := (s.crosses q).toNat }, from_ := none }
  | none => s

/-- A packet for another module goes on along its ring in the direction it came, cut through, unchecked (R338): from an attachment's one
port to the other. It travels in class 1 once it crosses position 0 (R336). One whose way is broken here is dropped, and its
source sends it again. -/
def State.forward (s : State) (p : Packet) (from_ : Option (Nat × Nat)) : State :=
  let out := match from_ with
    | some (port, _) => if port < 16 then some (if port % 2 = 0 then port + 1 else port - 1) else none
    | none => s.route p.dst p.vc none
  match out.filter fun q => s.portState q == psUp with
  | some q =>
    let cls := if p.cls = 1 ∨ (s.attRec (q / 2)).position = 0 ∨ s.crosses q = true then 1 else 0
    s.enqueue q { pkt := { p with cls := cls }, from_ := from_ }
  | none => s.leaveBuffer p.vc from_

/-- The packets an ACK names, taken out of the held ones, and who waits for them. -/
def State.ackHeld (s : State) (src vc : Nat) (tags : List Nat) : State × List HeldPkt :=
  let hit (h : HeldPkt) : Bool := h.pkt.dst == src && h.pkt.vc == vc && tags.contains h.pkt.tag
  (({ s with lnk := { s.lnk with held := s.lnk.held.filter fun h => !hit h } } : State).holdLater, s.lnk.held.filter hit)

/-! ## The serving table (R341, R473) -/

/-- Set a pair's entry of LNK_SERVE. -/
def State.setServe (s : State) (pair who : Nat) : State :=
  let q := s.quad 0x502100
  s.setQuad 0x502100 (q - q / 4 ^ pair % 4 * 4 ^ pair + who % 4 * 4 ^ pair)

def State.servingFlag (s : State) : Bool := s.flag 0x40 0

/-- Is the twin lost (R472)? -/
def State.twinLost (s : State) : Bool := s.flag 0x40 1

/-- SERVING_ANNOUNCEMENT (R341, R472, R473): the table is updated; a serving member that learns that its twin serves as well
gives up at its next boundary when it is member 1; a member whose pair names none, or it, serves from its next boundary. -/
def State.noteServing (s : State) (pair who : Nat) : State :=
  if 32 ≤ pair then s
  else
    let mine := pair == s.moduleId / 2 && s.serves
    let clash := mine && s.servingFlag && who % 4 == 1 - s.moduleId % 2
    let take := mine && !s.servingFlag && who % 4 != 1 - s.moduleId % 2
    if clash && s.moduleId % 2 == 1 then { (s.setServe pair who) with pair := { s.pair with split := true } }
    else if clash then s
    else if take then { (s.setServe pair who) with pair := { s.pair with takeover := true } }
    else s.setServe pair who

def execServingAnnouncement (pair who : Nat) (s : State) : Host.Outcome State Fault Refusal := .next (s.noteServing pair who)

/-- The module that holds the master role answers from its table (R473). -/
def State.answerTable (s : State) (src : Nat) : State :=
  if s.isMaster && s.serves then s.sendCtl src (.table ((List.range 32).map fun q => s.quad 0x502100 / 4 ^ q % 4)) else s

/-- SERVING_TABLE_REQUEST (R473). -/
def execServingTableRequest (src : Nat) (s : State) : Host.Outcome State Fault Refusal := .next (s.answerTable src)

/-- HEARTBEAT_SEND (R342): on each twin port that is UP, else a VC0 CONTROL packet. -/
def execHeartbeatSend (s : State) : Host.Outcome State Fault Refusal :=
  let up := [16, 17].filter fun p => s.portState p == psUp
  if s.cat = none then .next s
  else if up.isEmpty then .next (s.sendCtl (twinOf s.moduleId) .heartbeat)
  else .next (up.foldl (fun s p => s.send (.heartbeat p)) s)

/-- HEARTBEAT_RECEIVE (R342). -/
def State.noteBeat (s : State) : State := { s with lnk := { s.lnk with beat := true } }

def execHeartbeatReceive (s : State) : Host.Outcome State Fault Refusal := .next s.noteBeat

end Sys2Proof.Machine
end

