-- ==== Sys2Proof/Machine/Memory.lean ====
section
/-!
DEFINITION. Memory.lean: freezing, tenant addresses and HBM, the die read caches, delivery counters (R271 to R275, R308 to
R311, R414 to R419, R464, R488).
-/

namespace Sys2Proof.Machine

/-! ## Freezing (R479, R488) -/

def State.updTwin (s : State) (t : Nat) (f : TwinSt → TwinSt) : State := { s with twin := vupd s.twin t f }

def State.twinSt (s : State) (t : Nat) : TwinSt := if h : t < 16 then s.twin[t] else TwinSt.reset

/-- The twin mode in force: bit 0 MIRROR, bit 1 COMPARE (R412, R425). -/
def State.mode (s : State) (t : Nat) : Nat := s.fld (tnt t 0x8) 4 2

def State.comparing (s : State) (t : Nat) : Bool := bitOf (s.mode t) 1

/-- Does this member send the twin mirror records of the tenant: under MIRROR, and while a resync runs (R243, R474)? -/
def State.mirrors (s : State) (t : Nat) : Bool := (s.mode t == 1 || s.flag (tnt t 0x10) 0) && s.flag 0x40 0 && !s.twinLost

/-- Freeze an ACTIVE tenant (R488): its rings stop fetching and read HELD, its units are saved at their pre-emption
points, TNT_STATE reads FROZEN. A fault while an UNFREEZE waits cancels it (R489). `peer` is false for a freeze that the
twin asked for; any other freeze of a COMPARE tenant reaches the twin (R479). -/
def State.freeze (s : State) (t : Nat) (peer : Bool) : State :=
  let s := s.updTwin t fun x => { x with unfreeze := false }
  if !s.active t then s
  else
    let s := s.setTState t tsFrozen
    let s := (List.range 8).foldl (fun s r => if s.fld (rng t r 0x30) 0 3 == 1 then s.setFld (rng t r 0x30) 0 3 2 else s) s
    let s := { s with recov := { s.recov with saving := t :: s.recov.saving.erase t } }
    let s := (s.tntEvent t 0).modEvent 3
    if peer && s.comparing t then s.sendTwin 0 (.freeze t 0xF2) else s

/-- Raise a fault of a tenant: its entry, and the freeze when its class is VIOLATION or FREEZE (R484, R486, R488). -/
def State.raise (s : State) (t code : Nat) (i : Info) : State :=
  let s := s.enter t code i
  match (faultClass code).1 with
  | .violation | .freeze => s.freeze t (code != 0xF2)
  | _ => s

/-! ## Tenant addresses (R414, R418, R419) -/

/-- The state of common region `r`: 0 LOADING, 1 publishing, 2 PUBLISHED (R419, R425). -/
def State.commonState (s : State) (r : Nat) : Nat :=
  if bitOf (s.fld 0x10F000 8 8) r then 2 else if bitOf (s.fld 0x10F000 16 8) r then 1 else 0

/-- Byte `o` of a memory made of channel groups (R414). -/
def groupAddr (groups o : Nat) : Nat :=
  let gs := bitsOf 32 groups
  (gs.getD (o / 0x7E0000000) 0) * 0x800000000 + o % 0x7E0000000

/-- Where a tenant address lies: in the tenant's own range, in the window of a common region, or nowhere. -/
inductive TaLoc where
  | own (ma : Nat)
  | common (region ma : Nat)
  | none
  deriving DecidableEq, Repr

def State.taLoc (s : State) (t ta : Nat) : TaLoc :=
  match s.part t with
  | none => .none
  | some p =>
    if ta < p.taSize then .own (groupAddr p.chgroups ta)
    else
      let cs := (s.cat.map (·.commons)).getD []
      match (List.range cs.length).find? fun i => match cs[i]? with
          | some c => bitOf c.readers t && decide (c.taWin ≤ ta ∧ ta < c.taWin + c.size) &&
              ((s.commonState i == 2 && !bitOf s.unmapped i) || c.loader == t)
          | none => false with
      | some i => match cs[i]? with
        | some c => .common i (groupAddr c.groups (ta - c.taWin))
        | none => .none
      | none => .none

def TaLoc.ma : TaLoc → Option Nat
  | .own a => some a
  | .common _ a => some a
  | .none => Option.none

/-- The end of the own range or of the window that a tenant address lies in. -/
def State.taEnd (s : State) (t ta : Nat) : Nat :=
  match s.taLoc t ta with
  | .own _ => ((s.part t).map (·.taSize)).getD 0
  | .common r _ => ((s.cat.bind fun c => c.commons[r]?).map fun c => c.taWin + c.size).getD 0
  | .none => ta

/-- The parts of the map that `n` bytes from a tenant address touch, `none` when a byte lies in a hole (R266). A tenant's own range
and its at most 8 windows are 9 parts. -/
def State.taSpans (s : State) (t : Nat) : Nat → Nat → Nat → Option (List TaLoc)
  | 0, _, _ => none
  | fuel + 1, ta, n =>
    let stop := s.taEnd t ta
    if stop ≤ ta then none
    else if ta + n ≤ stop then some [s.taLoc t ta]
    else (s.taSpans t fuel stop (ta + n - stop)).map (s.taLoc t ta :: ·)

/-- Are all of `n` bytes from a tenant address mapped? -/
def State.taMapped (s : State) (t ta n : Nat) : Bool := (s.taSpans t 9 ta n).isSome

/-- The blockCuts of `n` bytes from `a` on, cut at multiples of 256, at most `fuel` of them. -/
def blockCuts : Nat → Nat → Nat → List (Nat × Nat)
  | 0, _, _ => []
  | fuel + 1, a, n => if n = 0 then [] else let k := min n (256 - a % 256); (a, k) :: blockCuts fuel (a + k) (n - k)

def cut256 (a n : Nat) : List (Nat × Nat) := blockCuts (n / 256 + 2) a n

/-- A coherent read of a tenant's memory, with its poison; `none` when it is not all mapped. -/
def State.taRead (s : State) (t : Nat) (ta n : Nat) : Option (List Byte × Bool) :=
  if !s.taMapped t ta n then none
  else some ((cut256 ta n).foldl (fun (bs, bad) (a, k) =>
    match (s.taLoc t a).ma with
    | some m => (bs ++ readBytes s.hbm m k, bad || prange s.hbmBad m k)
    | none => (bs ++ List.replicate k 0, bad)) ([], false))

/-! ## The memory-side caches (R271 to R273, R419) -/

/-- How a read treats a miss (R265): NOALLOC keeps it from allocating, PIN sends it to a pinned way. -/
inductive MscUse where
  | plain
  | noAlloc
  | pin
  deriving DecidableEq, Repr

def MscUse.ofFlags (noAlloc pin : Bool) : MscUse := if noAlloc then .noAlloc else if pin then .pin else .plain

/-- The I/O die that owns a module address (R17, R271), and the sets of a cache: 6 MiB of 256-byte lines. -/
def iodOf (ma : Nat) : Nat := ma / 0x800000000 / 8
def mscSets : Nat := 24576

/-- The ways of a tenant on an I/O die, and the pinned ones among them that are in force (R272 to R274). -/
def State.mscWays (s : State) (t iod : Nat) : Nat := ((s.part t).map fun p => p.mscWays.getD iod 0).getD 0

def State.mscPins (s : State) (t iod : Nat) : Nat :=
  (nget s.msc.pins (tnt t (0x208 + 4 * (iod / 2)))).toNat / 2 ^ (16 * (iod % 2)) % 65536 &&& s.mscWays t iod

/-- The ways that an access of a tenant may use, and the pinned ones of them: of a common region the common ways, but while it is
LOADING those of its LOADER (R272, R419). -/
def State.mscMask (s : State) (t : Nat) (loc : TaLoc) : Nat × Nat :=
  match loc with
  | .own ma => (s.mscWays t (iodOf ma), s.mscPins t (iodOf ma))
  | .common r ma =>
    if s.commonState r = 0 then (s.mscWays t (iodOf ma), s.mscPins t (iodOf ma))
    else (((s.cat.map (·.cways)).getD []).getD (iodOf ma) 0, 0)
  | .none => (0, 0)

/-- The way that a missing line takes among `ways`: the lowest that the set does not use, else the least recently used one. -/
def Msc.victim (m : Msc) (iod line ways : Nat) : Option Nat :=
  let used := m.lines.filter fun x => x.iod == iod && x.line % mscSets == line % mscSets
  ((bitsOf 16 ways).find? fun w => !used.any (·.way == w)).orElse fun _ => (used.reverse.find? fun x => bitOf ways x.way).map (·.way)

/-- An access to a line in the ways `mask`, of which `pins` are pinned. With no way it is not cached; a line that is evicted goes
back to HBM as it is. -/
def Msc.access (m : Msc) (iod line mask pins : Nat) (write : Bool) (use : MscUse) : Msc :=
  let is (x : MscLine) : Bool := x.iod == iod && x.line == line && bitOf mask x.way
  match m.lines.find? is with
  | some x => { m with lines := { x with dirty := x.dirty || write } :: m.lines.filter fun y => !is y }
  | none =>
    let ways := match use with
      | .noAlloc => 0
      | .pin => if pins = 0 then mask else pins
      | .plain => mask &&& (0xFFFF - pins)
    match m.victim iod line ways with
    | some w =>
      let stay := m.lines.filter fun y => !(y.iod == iod && y.line % mscSets == line % mscSets && y.way == w)
      { m with lines := { iod := iod, way := w, line := line, dirty := write } :: stay }
    | none => m

/-- What an access to `n` bytes at a tenant address does to the caches, line by line. -/
def State.taAccess (s : State) (t ta n : Nat) (write : Bool) (use : MscUse) : State :=
  (cut256 ta n).foldl (fun s (a, _) =>
    let loc := s.taLoc t a
    match loc.ma with
    | some ma =>
      let (mask, pins) := s.mscMask t loc
      { s with msc := s.msc.access (iodOf ma) (ma / 256) mask pins write use }
    | none => s) s

/-- A read that the caches see. -/
def State.taFetch (s : State) (t ta n : Nat) : Option (List Byte × Bool) × State := (s.taRead t ta n, s.taAccess t ta n false .plain)

/-- A written pinned-way register is in force from the boundary on (R273). -/
def State.pinBoundary (s : State) : State :=
  let regs := (List.range 16).flatMap fun t => [tnt t 0x208, tnt t 0x20C]
  { s with msc := { s.msc with pins := regs.foldl (fun m r => nset m r (s.word r)) s.msc.pins } }

/-- The lines of the module addresses that `f` picks are written back and dropped (R419). -/
def State.mscDrop (s : State) (f : Nat → Bool) : State :=
  { s with msc := { s.msc with lines := s.msc.lines.filter fun x => !f (256 * x.line) } }

def State.maWrite (s : State) (ma : Nat) (bs : List Byte) (bad : Bool) : State :=
  { s with hbm := writeBytes s.hbm ma bs, hbmBad := pwrite s.hbmBad ma bs.length bad }

/-! ## Compare: what a unit writes (R476) -/

/-- `w(k, x)` of R476. -/
def unitTerm (k : Nat) (x : List Byte) : Nat := leNat ((sha384 (leBytes 1 k ++ x)).take 32)

/-- Add to the latest unit of a COMPARE tenant. -/
def State.unitAdd (s : State) (t : Nat) (f : CmpUnit → CmpUnit) : State :=
  if !s.comparing t then s
  else s.updTwin t fun x => { x with units := match x.units.reverse with
    | [] => []
    | u :: us => (f u :: us).reverse }

/-- The W term of a write request (R476). -/
def CmpUnit.addWrite (u : CmpUnit) (addr : Nat) (bs : List Byte) (bad cnt : Nat) : CmpUnit :=
  { u with sumW := (u.sumW + unitTerm 1 (leBytes 8 addr ++ leBytes 2 bs.length ++ leBytes 1 bad ++ leBytes 2 cnt ++ bs)) % 2 ^ 256 }

/-- A write request of the unit in progress. -/
def State.unitWrite (s : State) (t addr : Nat) (bs : List Byte) (bad cnt : Nat) : State :=
  s.unitAdd t fun u => u.addWrite addr bs bad cnt

/-- A write of a tenant's memory: every piece where it lies. -/
def State.taWrite (s : State) (t ta : Nat) (bs : List Byte) (bad : Bool) : State :=
  (((cut256 ta bs.length).foldl (fun (s, bs) (a, k) =>
    (match (s.taLoc t a).ma with
      | some m => s.maWrite m (bs.take k) bad
      | none => s, bs.drop k)) (s, bs)).1).taAccess t ta bs.length true .plain

/-- The module addresses of `n` bytes of a tenant's own range from `ta` on, as ranges within channel groups (R414). -/
def State.taPieces (s : State) (t ta n : Nat) : List (Nat × Nat) :=
  match s.part t with
  | none => []
  | some p =>
    let g := 0x7E0000000
    let first := min n (g - ta % g)
    (groupAddr p.chgroups ta, first) :: (if first < n then [(groupAddr p.chgroups (ta + first), n - first)] else [])

/-- Write zero to `n` bytes of a tenant's own range. -/
def State.taZero (s : State) (t ta n : Nat) : State :=
  (s.taPieces t ta n).foldl (fun s (a, k) => { s with
    hbm := zeroRange s.hbm a (a + k), hbmBad := s.hbmBad.filter fun l => !(decide (a ≤ 64 * l) && decide (64 * l + 64 ≤ a + k)) }) s

/-- The cells of `n` bytes of a tenant's own range. -/
def State.taCells (s : State) (t ta n : Nat) : NMap 8 :=
  let ps := s.taPieces t ta n
  s.hbm.filter fun (x, _) => ps.any fun (a, k) => decide (a ≤ x) && decide (x < a + k)

/-- Under MIRROR the serving member sends the twin every write into the pool (R243). -/
def State.poolMirror (s : State) (t ta : Nat) (bs : List Byte) (bad : Bool) : State :=
  match s.part t with
  | some p =>
    if s.mirrors t && p.granules != 0 && !apart ta bs.length p.poolBase (p.granules * p.granuleBytes) then
      s.sendTwin 3 (.mirror t (.write ta bs bad))
    else s
  | none => s

/-- What forbids a write of `n` bytes at a tenant address: outside the map (`out`, the code of the unit that writes), the
directory area (R224), a locked weight range (R464), a common region (R266, R419). -/
def State.taWriteBar (s : State) (t ta n out : Nat) : Option Nat :=
  match s.part t with
  | none => some out
  | some p =>
    match s.taSpans t 9 ta n with
    | none => some out
    | some parts =>
      parts.findSome? fun loc => match loc with
        | .common r _ =>
          let loader := ((s.cat.bind fun c => c.commons[r]?).map (·.loader)) == some t
          if loader && s.commonState r == 0 then none else if loader then some 0xD2 else some out
        | _ =>
          if p.granules != 0 && !apart ta n p.dirBase p.dirBytes then some 0x81
          else if ((s.twinSt t).wsetOn.any fun (lo, k) => !apart ta n lo k) then some 0xF4
          else none

/-! ## The die read caches (R275) -/

/-- Sets of 256-byte lines in a die read cache: 8 MiB in 16 ways. -/
def drcSets : Nat := 2048

def State.drcWays (s : State) (t die : Nat) : Nat := ((s.part t).map fun p => popcount 16 (p.drcWays.getD die 0)).getD 0

/-- A read of a transfer channel within one 256-byte block of module address `ma`, tenant address `ta`: through the die's cache
unless it is bypassed; a miss there, or a bypass, reaches the memory-side cache. -/
def State.drcFetch (s : State) (die t ta ma n : Nat) (bypass : Bool) (use : MscUse) : (List Byte × Bool) × State :=
  let ways := s.drcWays t die
  if bypass || ways == 0 then ((readBytes s.hbm ma n, prange s.hbmBad ma n), s.taAccess t ta n false use)
  else
    let l := ma / 256
    let o := ma % 256
    let hit (x : DrcLine) : Bool := x.die == die && x.tenant == t && x.line == l
    let s := if s.drc.any hit then s else s.taAccess t ta n false use
    let x := (s.drc.find? hit).getD
      { die := die, tenant := t, line := l, data := readBytes s.hbm (256 * l) 256,
        bad := (List.range 4).map fun q => pget s.hbmBad (4 * l + q) }
    let mine (y : DrcLine) : Bool := y.die == die && y.tenant == t && y.line % drcSets == l % drcSets
    let keep := ((s.drc.filter mine).filter fun y => !hit y).take (ways - 1)
    let rest := s.drc.filter fun y => !mine y
    (((x.data.drop o).take n, (List.range 4).any fun q => x.bad.getD q false && decide (64 * q < o + n ∧ o < 64 * q + 64)),
     { s with drc := x :: (keep ++ rest) })

/-- The same by tenant address. -/
def State.drcRead (s : State) (die t ta n : Nat) (bypass : Bool) (use : MscUse) : (List Byte × Bool) × State :=
  match (s.taLoc t ta).ma with
  | some ma => s.drcFetch die t ta ma n bypass use
  | none => ((List.replicate n 0, false), s)

/-- A channel's write drops the matching line of its own die and tenant. -/
def State.drcWrite (s : State) (die t ma : Nat) : State :=
  { s with drc := s.drc.filter fun x => !(x.die == die && x.tenant == t && x.line == ma / 256) }

/-- Drop every line of a tenant, on one die or on all (R275, R303, R393, R394). -/
def State.drcDrop (s : State) (t : Nat) (die : Option Nat) : State :=
  { s with drc := s.drc.filter fun x => !(x.tenant == t && (die == none || die == some x.die)) }

/-! ## Delivery counters (R308 to R311) -/

/-- The fields: 0 BYTES, 1 PKTS, 2 SIG. -/
def ctrKey (t c f : Nat) : Nat := (t * 4096 + c) * 3 + f

def State.ctr (s : State) (t c f : Nat) : Nat := (nget s.ctrs (ctrKey t c f)).toNat

def State.setCtr (s : State) (t c f v : Nat) : State := { s with ctrs := nset s.ctrs (ctrKey t c f) (BitVec.ofNat 64 v) }

def State.addCtr (s : State) (t c f v : Nat) : State := s.setCtr t c f (s.ctr t c f + v)

/-- A counted write (R309). -/
def State.counted (s : State) (t c bytes pkts : Nat) : State := (s.addCtr t c 0 bytes).addCtr t c 1 pkts

/-- A signal's operation on SIG: SET or ADD (R311). -/
def State.applySignal (s : State) (t c op v : Nat) : State := if op % 2 = 0 then s.setCtr t c 2 v else s.addCtr t c 2 v

/-! ## Tiles -/

def State.tile (s : State) (n : Nat) : Tile := if h : n < 128 then s.tiles[n] else Tile.reset

def State.setTile (s : State) (n : Nat) (t : Tile) : State := { s with tiles := vupd s.tiles n fun _ => t }

def State.updTile (s : State) (n : Nat) (f : Tile → Tile) : State := { s with tiles := vupd s.tiles n f }

def Partition.share (p : Partition) : Share := shareOf p.spmFirst p.spmBanks

def State.share (s : State) (t : Nat) : Share := ((s.part t).map (·.share)).getD ⟨0, 0⟩

/-- Does logical tile `n` lie in the tenant's tile set and in service? -/
def State.tileOf (s : State) (t n : Nat) : Bool :=
  ((s.part t).map fun p => bitOf p.tileset n).getD false && (s.tile n).phys.isSome

end Sys2Proof.Machine
end

