-- ==== Sys2Proof/Machine/FaultOps.lean ====
section
/-!
DEFINITION. FaultOps.lean: faults of class COMPUTE and MODULE, and escalation (R484, R492, R500, R502).
-/

namespace Sys2Proof.Machine

/-- Is a compute-part recovery in progress (R500)? -/
def State.inRecovery (s : State) : Bool := s.recov.due.isSome || s.fld 0x700000 0 3 != 0

/-- Is any recovery of R500 in progress (R501)? -/
def State.anyRecovery (s : State) : Bool :=
  s.inRecovery || !s.recov.saving.isEmpty || s.recov.window || (List.range 16).any fun t => s.tState t == tsResetting

/-- An error escalates to a full module reset, recorded as ESCALATED; the start that follows a second escalation in the window of
R500 stops (R500, R502). -/
def State.escalate (s : State) : State :=
  let s := s.moduleEntry 0x1A {}
  let s : State := { s with recov := { s.recov with window := true, twice := s.recov.window } }
  s.restart true

/-- A fault of class MODULE (R484): a full module reset; in a recovery it escalates. A halted module stays halted (R48). -/
def State.moduleFault (s : State) (code : Nat) (i : Info) : State :=
  let s := s.moduleEntry code i
  if s.boot.state = .halted then s
  else if s.inRecovery || s.recov.window then s.escalate else s.restart true

/-- A compute-part reset falls due with its suspects; in a recovery its cause escalates (R492, R500). A module that does not serve
has no compute part to reset. -/
def State.computeReset (s : State) (suspects : List Nat) : State :=
  if s.inRecovery then s.escalate
  else if s.serves then { s with recov := { s.recov with due := some suspects, bankUe := [] } }
  else s

/-- A fault of class COMPUTE (R484). -/
def State.computeFault (s : State) (ten : Option Nat) (code : Nat) (i : Info) (suspects : List Nat) : State :=
  match ten with
  | some t => (s.enter t code i).computeReset suspects
  | none => (s.moduleEntry code i).computeReset suspects

/-- The module controller finds an uncorrectable error in a checkpoint or the ledger that a recovery uses (R487, R500). DESIGN CHOICE
(log entry 180): it is found at a boundary of the recovery, and whether there is one is free. -/
def State.recoveryUe (s : State) : State :=
  if s.inRecovery then
    let (k, s) := s.free
    if k % 2 = 1 then s.moduleFault 0x1D {} else s
  else s

end Sys2Proof.Machine
end

