-- ==== Sys2Proof/Machine/Spares.lean ====
section
/-!
DEFINITION. Spares.lean: physical tiles and their spares, and what corrected and uncorrectable errors of scratchpad banks make due
(R14 to R16, R112, R157, R248, R249, R507 to R512).
-/

namespace Sys2Proof.Machine

/-! ## Physical tiles (R14 to R16, R112, R157) -/

/-- The key of physical tile `p` of a die. -/
def pkey (die p : Nat) : Nat := 18 * die + p

def State.ptile (s : State) (k : Nat) : PTile := (aget s.acc.ptiles k).getD PTile.new

def State.updPtile (s : State) (k : Nat) (f : PTile → PTile) : State :=
  { s with acc := { s.acc with ptiles := aput s.acc.ptiles k (f (s.ptile k)) } }

def PTile.good (x : PTile) : Nat := 260 - x.badCols.length

/-- The presented width (R112). -/
def PTile.width (x : PTile) : Nat := min 256 (x.good / 8 * 8)

/-- Spare columns left. -/
def PTile.cols (x : PTile) : Nat := x.good - 256

/-- The physical bank that serves logical bank `b` (R247, R252): bank 32 in place of one that has failed. -/
def PTile.bankOf (x : PTile) (b : Nat) : Nat := if x.badBanks.contains b then 32 else b

/-- The physical tile that serves a logical one. -/
def State.physKey (s : State) (n : Nat) : Option Nat := (s.tile n).phys.map fun p => pkey (n / 16) p

/-- The logical tile that a physical tile serves. -/
def State.logicalOf (s : State) (k : Nat) : Option Nat :=
  ((List.range 16).map (· + 16 * (k / 18))).find? fun n => (s.tile n).phys == some (k % 18)

/-- Show the width of the tile that serves logical tile `n`. -/
def State.showWidth (s : State) (n : Nat) : State :=
  match s.physKey n with
  | some k => s.updTile n fun t => { t with width := (s.ptile k).width }
  | none => s

/-- The spare tiles of a die: in no logical position, neither retired nor failed, promised to no swap (R14, R511). -/
def State.spareTiles (s : State) (die : Nat) : List Nat :=
  (List.range 18).filter fun p =>
    (s.logicalOf (pkey die p)).isNone && !(s.ptile (pkey die p)).out &&
    !((s.acc.due ++ s.acc.swaps).any fun x => x.kind == 4 && x.unit % 8 == die && x.new == p)

/-- Is this swap already due or under way? -/
def State.swapKnown (s : State) (kind unit old : Nat) : Bool :=
  (s.acc.due ++ s.acc.swaps).any fun x => x.kind == kind && x.unit == unit && x.old == old

def unitOfTile (die p : Nat) : Nat := die + 256 * p

def noneLeft : Nat := 0xFFFFFFFF

/-- Does a logical bank lie in some tenant's share on a tile (R251, R511)? -/
def State.bankShared (s : State) (n b : Nat) : Bool :=
  (List.range 16).any fun t =>
    ((s.part t).map fun p => bitOf p.tileset n && decide (p.spmFirst ≤ b ∧ b < p.spmFirst + p.spmBanks)).getD false

def State.sharedBanks (s : State) (n : Nat) : List Nat := (List.range 32).filter (s.bankShared n)

/-- The SWAP atoms of a tile swap (R511). -/
def State.tileAtoms (s : State) (n : Nat) : Nat := ceilDiv ((s.sharedBanks n).length * 0x30000) 1638400

/-- Make a swap due at the next boundary (R509). -/
def State.makeDue (s : State) (x : Swap) : State := { s with acc := { s.acc with due := s.acc.due ++ [x] } }

def newSwap (kind cause unit logical old new value left : Nat) : Swap :=
  { kind := kind, cause := cause, unit := unit, logical := logical, old := old, new := new, value := value, tick := 0, at_ := 0,
    left := left, noted := false, missed := false }

/-- Retire logical tile `n` (R511, R512): swapped for a spare of its die, or to become vacant. `lane` says that a second lane has
failed: its work stops now, and a vacancy comes through a compute-part reset. -/
def State.retire (s : State) (n cause value : Nat) (lane : Bool) : State :=
  match (s.tile n).phys with
  | none => s
  | some p =>
    let die := n / 16
    let u := unitOfTile die p
    if s.swapKnown 4 u p || s.swapKnown 5 u p then s
    else
      let s : State := { s with acc := { s.acc with
        due := s.acc.due.filter fun x => !(x.kind == 2 && x.logical == n),
        swaps := s.acc.swaps.filter fun x => !(x.kind == 2 && x.logical == n && !x.noted),
        stopped := if lane then pset s.acc.stopped n else s.acc.stopped,
        noPlace := if lane then pset s.acc.noPlace n else s.acc.noPlace } }
      match s.spareTiles die with
      | q :: _ => s.makeDue (newSwap 4 cause u n p q value (s.tileAtoms n))
      | [] =>
        let s : State := { s with acc := { s.acc with leaving := pset s.acc.leaving n, noPlace := pset s.acc.noPlace n } }
        let s := s.makeDue (newSwap 5 4 u n p noneLeft value 0)
        if lane then s.computeFault none 0x16 { detail := 2 ^ 31 + n } [] else s

/-! ## Monitors (R508, R509, R516) -/

def State.wear (s : State) : Wear :=
  (s.cat.map (·.wear)).getD { bankCe := 256, hbmCe := 16, bistFails := 1, optMargin := 15, optFec := 1000000, phaseDev := 20, phaseTemp := 125 }

def natOf (l : List (Nat × Nat)) (k : Nat) : Nat := (aget l k).getD 0

/-- A scratchpad bank falls due: the spare bank takes its place, or the tile is retired (R511). -/
def State.bankDue (s : State) (n bank cause value : Nat) : State :=
  match s.physKey n with
  | none => s
  | some k =>
    let u := unitOfTile (k / 18) (k % 18)
    if s.swapKnown 2 u bank || (s.ptile k).badBanks.contains bank then s
    else if (s.ptile k).badBanks.isEmpty && !(s.acc.due ++ s.acc.swaps).any fun x => x.kind == 2 && x.unit == u then
      s.makeDue (newSwap 2 cause u n bank 32 value 1)
    else s.retire n cause value false

def bankKey (k bank : Nat) : Nat := 64 * k + bank

/-- `ce` corrected errors in a physical bank of logical tile `n` (R248, R508, R548). -/
def State.bankErrors (s : State) (n bank ce : Nat) : State :=
  match s.physKey n with
  | none => s
  | some k =>
    let old := natOf s.acc.bankCe (bankKey k bank)
    let s := s.bump (0xA10000 + 0x100 * n + 4 * bank) ce
    let s : State := { s with acc := { s.acc with bankCe := aput s.acc.bankCe (bankKey k bank) (old + ce) } }
    if old < s.wear.bankCe ∧ s.wear.bankCe ≤ old + ce then s.bankDue n bank 1 (old + ce) else s

/-- The tenant whose share, save area included, holds offset `a` of a tile (R253, R254). -/
def State.shareOwner (s : State) (n a : Nat) : Option Nat :=
  (List.range 16).find? fun t => ((s.part t).map fun p => bitOf p.tileset n &&
    decide (p.spmFirst * 0x30000 ≤ a) && decide (a < (p.spmFirst + p.spmBanks) * 0x30000)).getD false

/-- An SPM_UE in a line of tile `n` enters the records (R486). -/
def State.ueReport (s : State) (n line : Nat) : State :=
  match s.shareOwner n (64 * line) with
  | some t => s.raise t 0x78 { tile := some n, addr := 64 * line }
  | none => s.moduleEntry 0x78 { tile := some n, addr := 64 * line }

/-- It counts for its bank: in the interval, and in a recovery for as long as it lasts (R501, R509). -/
def State.ueCount (s : State) (key : Nat) : State :=
  let acc : Accession := { s.acc with bankUe := aput s.acc.bankUe key (natOf s.acc.bankUe key + 1) }
  let recov : Recov := if s.anyRecovery then { s.recov with bankUe := aput s.recov.bankUe key (natOf s.recov.bankUe key + 1) } else s.recov
  { s with acc := acc, recov := recov }

/-- Has the bank now met two in one interval, or within one recovery (R501, R509)? -/
def State.ueTwice (s : State) (key : Nat) : Bool :=
  decide (2 ≤ natOf s.acc.bankUe key) || (s.anyRecovery && decide (2 ≤ natOf s.recov.bankUe key))

/-- Does the line lie in the save area of a tenant whose freeze is still saving its units' state (R254, R500)? -/
def State.inSaving (s : State) (n line : Nat) : Bool :=
  (s.shareOwner n (64 * line)).any fun t => s.recov.saving.contains t &&
    (s.part t).any fun p => decide ((p.spmFirst + p.spmBanks) * 0x30000 - 0x18000 ≤ 64 * line)

/-- An uncorrectable error in a line of tile `n`, whose bank has the key `key`, is reported and counted; two in one bank make its swap due,
and one in a save area in use brings a compute-part reset (R500). -/
def State.ueFound (s : State) (n line key : Nat) : State :=
  let s := (s.ueReport n line).ueCount key
  let s := if s.ueTwice key then s.bankDue n (key % 64) 3 (natOf s.acc.bankUe key) else s
  if s.inSaving n line then s.computeReset [] else s

/-- An uncorrectable error in a 64-byte line of a tile (R249, R486, R501, R509): the line is poisoned, and SPM_UE recorded once for
it. -/
def State.bankUe (s : State) (n line : Nat) : State :=
  let known := (s.tile n).ued.contains line
  let s := s.updTile n fun t => { t with poison := pset t.poison line, ued := pset t.ued line }
  match s.physKey n with
  | some k => if known then s else s.ueFound n line (bankKey k ((s.ptile k).bankOf (64 * line / 0x30000)))
  | none => s

/-! ## Reading the scratchpad (R87, R248, R249, R251) -/

/-- What a read of a word with an error does: a corrected one counts for its bank, an uncorrectable one poisons its line. -/
def State.meetFlaw (s : State) (n w : Nat) (ue : Bool) : State :=
  if ue then s.bankUe n (w / 2)
  else match s.physKey n with
    | some k => s.bankErrors n ((s.ptile k).bankOf (32 * w / 0x30000)) 1
    | none => s

/-- A read of `len` bytes meets the errors of the words it touches; it never writes corrected data back (R248). -/
def State.eccRead (s : State) (n off len : Nat) : State :=
  ((s.tile n).flaws.filter fun (w, _) => overlap off len (32 * w) 32).foldl (fun s (w, ue) => s.meetFlaw n w ue) s

/-- Does an access touch a powered-down bank (R251)? -/
def State.spmOff (s : State) (n off len : Nat) : Bool :=
  !s.bankShared n (off / 0x30000) || !s.bankShared n ((off + len - 1) / 0x30000)

/-- A read by a unit beside the tile's own, of at most 256 bytes: with the poison of the data, and of a powered-down bank. -/
def State.spmRead (s : State) (tenant n off len : Nat) : (List Byte × Bool) × State :=
  if s.spmOff n off len then
    (((s.tile n).read off len, true), s.raise tenant 0x79 { tile := some n, addr := off })
  else
    let s := s.eccRead n off len
    (((s.tile n).read off len, (s.tile n).readBad off len), s)

/-- A write by such a unit; one to a powered-down bank is discarded. -/
def State.spmWrite (s : State) (tenant n off : Nat) (bs : List Byte) (bad : Bool) : State :=
  if s.spmOff n off bs.length then s.raise tenant 0x79 { tile := some n, addr := off }
  else s.updTile n fun t => t.write off bs bad

/-- A SCRUB atom on bank `b` of a tile: the errors it meets, and its words rewritten (R78, R248, R249). -/
def State.scrubBank (s : State) (n b : Nat) : State :=
  (s.eccRead n (b * 0x30000) 0x30000).updTile n fun t =>
    { t with flaws := t.flaws.filter fun (w, _) => 32 * w / 0x30000 != b }

/-- New errors arise in the scratchpads in service. DESIGN CHOICE (log entry 168): at a boundary, where and which is free. -/
def State.newFlaws (s : State) : State :=
  let (k, s) := s.fresh
  let new := Config.freeFlaws k
  { s with tiles := s.tiles.mapIdx fun n t => { t with flaws := t.flaws ++ (new.filter fun (m, w, _) =>
      m == n && decide (w < 196608) && t.phys.isSome).map (·.2) } }

end Sys2Proof.Machine
end

