-- ==== Sys2Proof/Machine/FrontOps.lean ====
section
/-!
DEFINITION. FrontOps.lean: commands in flight and how they end: statuses, host actions, signals, launches, work items and
replay tokens (R376 to R408, R453, R461 to R463, R471, R477).
-/

namespace Sys2Proof.Machine

/-! ## Commands -/

def State.ringSt (s : State) (t r : Nat) : RingSt :=
  if h : 8 * t + r < 128 then s.front.rings[8 * t + r] else RingSt.reset

def State.updRing (s : State) (t r : Nat) (f : RingSt → RingSt) : State :=
  { s with front := { s.front with rings := vupd s.front.rings (8 * t + r) f } }

/-- Is this the launch that a stored command's reference names? -/
def Launch.is (l : Launch) (t : Nat) (ring : Option Nat) (key : Nat) : Bool := l.tenant == t && l.ring == ring && l.key == key

def State.launch (s : State) (t : Nat) (ring : Option Nat) (key : Nat) : Option Launch :=
  s.front.launches.find? (·.is t ring key)

def State.item (s : State) (n : Nat) : Option Item := s.front.items.find? (·.n == n)

def State.cmd (s : State) (t : Nat) : CmdRef → Option RCmd
  | .ring r csn => (s.ringSt t r).cmds.find? (·.csn == csn)
  | .stored ring key i => (s.launch t ring key).bind fun l => l.cmds[i]?
  | .item n i => ((s.item n).filter (·.tenant == t)).bind fun x => x.cmds[i]?

def State.updLaunch (s : State) (t : Nat) (ring : Option Nat) (key : Nat) (f : Launch → Launch) : State :=
  { s with front := { s.front with launches := s.front.launches.map fun l => if l.is t ring key then f l else l } }

def State.updItem (s : State) (n : Nat) (f : Item → Item) : State :=
  { s with front := { s.front with items := s.front.items.map fun x => if x.n == n then f x else x } }

/-- Change entry `i` of a list. -/
def lupd {α : Type} (xs : List α) (i : Nat) (f : α → α) : List α := xs.zipIdx.map fun (x, j) => if j = i then f x else x

def State.updCmd (s : State) (t : Nat) (c : CmdRef) (f : RCmd → RCmd) : State :=
  match c with
  | .ring r csn => s.updRing t r fun g => { g with cmds := g.cmds.map fun x => if x.csn == csn then f x else x }
  | .stored ring key i => s.updLaunch t ring key fun l => { l with cmds := lupd l.cmds i f }
  | .item n i => s.updItem n fun x => { x with cmds := lupd x.cmds i f }

def RCmd.op (c : RCmd) : Nat := fieldAt c.bytes 0 1
def RCmd.flags (c : RCmd) : Nat := fieldAt c.bytes 1 1
def RCmd.order (c : RCmd) : Bool := bitOf c.flags 0
def RCmd.rec_ (c : RCmd) : Bool := bitOf c.flags 1
def RCmd.sig (c : RCmd) : Bool := bitOf c.flags 2
def RCmd.pin (c : RCmd) : Bool := bitOf c.flags 3
def RCmd.int (c : RCmd) : Bool := bitOf c.flags 4
def RCmd.sigIdx (c : RCmd) : Nat := fieldAt c.bytes 3 1
def RCmd.seed (c : RCmd) : Nat := fieldAt c.bytes 0x30 8
def RCmd.step (c : RCmd) : Nat := fieldAt c.bytes 0x38 6

/-- Where a command stands in the records (R485): its ring, and its CSN or, within a launch, the launch's. -/
def CmdRef.info : CmdRef → Option (Nat × Nat)
  | .ring r csn => some (r, csn)
  | .stored (some r) key _ => some (r, key)
  | _ => none

/-- Note an error code of a command (R396). -/
def RCmd.note (c : RCmd) (code : Nat) : RCmd :=
  { c with err := if c.err = 0 && !poisonCode code then code else c.err,
           pois := if c.pois = 0 && poisonCode code then code else c.pois }

/-- Add counts and flags to a command (R395). -/
def RCmd.count (c : RCmd) (sat flush nan : Nat) (fw : W32) : RCmd :=
  { c with sat := satAdd32 c.sat sat, flush := satAdd32 c.flush flush, nan := satAdd32 c.nan nan, vflags := c.vflags ||| fw }

/-- The status a command ends with when none was set (R396). -/
def RCmd.outcome (c : RCmd) : Nat × Nat :=
  if c.status ≠ 0 then (c.status, c.detail)
  else if c.op == 0x09 && c.err == 0x94 then (5, 0)
  else if c.op == 0x09 && c.err == 0x93 then (6, 0)
  else if c.pois ≠ 0 then (1, c.pois)
  else if c.err ≠ 0 then (2, c.err)
  else (0, c.detail)

def RCmd.finish (c : RCmd) : RCmd := { c with st := .done, status := c.outcome.1, detail := c.outcome.2 }

/-! ## Chains of a tile -/

/-- Add counts of a launch to the tenant's own counters (R139, R548). -/
def State.tallyTenant (s : State) (t sat flush nan : Nat) : State :=
  let o := 0xA02000 + 0x100 * t
  ((s.addQuad (o + 0x20) sat).addQuad (o + 0x28) flush).addQuad (o + 0x30) nan

def State.chan (s : State) (tile chan : Nat) : Option Chan := aget (s.tile tile).chans chan

def State.setChan (s : State) (tile chan : Nat) (c : Option Chan) : State :=
  s.updTile tile fun t => { t with chans := match c with
    | some c => aput t.chans chan c
    | none => adel t.chans chan }

/-- A descriptor's 64 bytes (R265). -/
def descBytes (flags srcSp src dst rowLen rows sPitch dPitch : Nat) : List Byte :=
  leBytes 1 0 ++ leBytes 1 flags ++ leBytes 1 srcSp ++ leBytes 1 (if srcSp = 2 then 0 else 2) ++ leBytes 4 0 ++ leBytes 8 src ++
  leBytes 8 dst ++ leBytes 4 rowLen ++ leBytes 4 rows ++ leBytes 4 sPitch ++ leBytes 4 dPitch ++ leBytes 24 0

/-- Mark the last of a chain's descriptors LAST. -/
def markLast : List (List Byte) → List (List Byte)
  | [] => []
  | [d] => [d.set 1 ((d.getD 1 0) ||| 16)]
  | d :: ds => d :: markLast ds

/-- A chain that the module builds itself: its descriptors are on hand (R453). -/
def builtChan (tenant : Nat) (ds : List (List Byte)) (seed : W64) (step : Nat) (by_ : CmdRef) (sh : Share) (inst : Nat) : Chan :=
  { tenant := tenant, csp := true, maxOut := 768, rd := (sh.lo, sh.hi - sh.lo), wr := (sh.lo, sh.hi - sh.lo),
    fetched := (markLast ds).map fun d => (0, d), next := 0, active := [], begun := 0, last := false, stopped := false,
    xstart := 0, seed := seed, step := step, by_ := some by_, owner := by_, inst := inst, remote := 0 }

/-- Cut a list of numbers into runs of consecutive ones: the first of each with its length. -/
def runsOf : List Nat → List (Nat × Nat)
  | [] => []
  | x :: xs =>
    match runsOf xs with
    | (y, n) :: rest => if y = x + 1 then (x, n + 1) :: rest else (x, 1) :: (y, n) :: rest
    | [] => [(x, 1)]

/-- The descriptors of an item's scatter chain (R453). -/
def scatterDescs (plan : List Byte) (slots : List Nat) : List (List Byte) :=
  let yb := fieldAt plan 0x20 4
  let step := fun (acc : List (List Byte) × Nat) (run : Nat × Nat) =>
    (acc.1 ++ [descBytes 0 0 (fieldAt plan 0x24 4 + acc.2 * yb) (fieldAt plan 0x18 8 + run.1 * yb) yb run.2 yb yb], acc.2 + run.2)
  ((runsOf slots).foldl step ([], 0)).1

/-! ## Host actions (R395, R405, R406, R471, R477) -/

/-- Is this member the one that serves the pair (R472, R483)? -/
def State.servesPair (s : State) : Bool := s.flag 0x40 0

/-- The S or H term that an action adds to its unit (R476). -/
def Action.term : Action → (CmpUnit → CmpUnit)
  | .write _ _ d => fun u => { u with sumH := (u.sumH + unitTerm 2 d) % 2 ^ 256 }
  | .signal _ e _ => fun u => { u with sumS := (u.sumS + unitTerm 3 e) % 2 ^ 256 }
  | .intr _ => id

/-- Does the work of unit `tick` stand in a unit under COMPARE? Work that was released before COMPARE stands in none. -/
def State.inUnit (s : State) (t tick : Nat) : Bool := s.comparing t && (s.twinSt t).units.any fun u => u.tick == tick

/-- Change the unit of a tick. -/
def State.unitOf (s : State) (t tick : Nat) (f : CmpUnit → CmpUnit) : State :=
  s.updTwin t fun x => { x with units := x.units.map fun u => if u.tick == tick then f u else u }

/-- The latest unit of a tenant, or the tick that runs. -/
def State.curUnit (s : State) (t : Nat) : Nat := (((s.twinSt t).units.getLast?).map (·.tick)).getD s.tickNo

/-- The unit that a command of a ring or launch belongs to (R475). -/
def State.unitRing (s : State) (t : Nat) : CmdRef → Nat
  | .ring r csn => ((s.cmd t (.ring r csn)).map (·.unit)).getD (s.curUnit t)
  | .stored (some r) key _ => ((s.cmd t (.ring r key)).map (·.unit)).getD (s.curUnit t)
  | .stored none key _ =>
    ((if h : t < 16 then (s.ladles[t].batches.find? fun b => b.list.bseq == key).map (·.tick) else none)).getD (s.curUnit t)
  | .item _ _ => s.curUnit t

/-- The unit that any command belongs to. -/
def State.unitFor (s : State) (t : Nat) : CmdRef → Nat
  | .item n _ => match s.item n with
    | some x => s.unitRing t x.ref
    | none => s.curUnit t
  | r => s.unitRing t r

/-- The W term of a write request of a command's work (R476). -/
def State.cmdWrite (s : State) (t : Nat) (ref : CmdRef) (addr : Nat) (bs : List Byte) (bad cnt : Nat) : State :=
  if s.comparing t then s.unitOf t (s.unitFor t ref) fun u => u.addWrite addr bs bad cnt else s

/-- Hold an action of a COMPARE tenant until its unit agrees, counting it in the unit's digest (R476, R477). -/
def State.holdAct (s : State) (t tick : Nat) (a : Action) : State :=
  s.unitOf t tick fun u => let v := a.term u; { v with held := v.held ++ [a] }

/-- Signal entries (R391). -/
def sigKind (e : List Byte) : Nat := fieldAt e 0 1

/-- Does a signal entry keep to its table (R391)? -/
def sigEntryOk (e : List Byte) : Bool :=
  let kind := sigKind e
  decide (fieldAt e 1 1 < 4) && fieldAt e 6 2 == 0 && fieldAt e 0x18 8 == 0 &&
  (if kind = 1 then decide (fieldAt e 2 2 < 4096) && decide (fieldAt e 4 1 < 32) && decide (fieldAt e 5 1 < 4) && fieldAt e 8 8 == 0
   else kind == 2 && fieldAt e 2 2 == 0 && fieldAt e 4 1 == 0 && fieldAt e 5 1 == 0 && fieldAt e 8 8 % 8 == 0)

/-- The entry with its value in place: the CSN, or the output count, when VALSEQ is set (R391, R397). -/
def sigResolve (e : List Byte) (seq : Nat) : List Byte :=
  if bitOf (fieldAt e 1 1) 1 then e.take 16 ++ leBytes 8 seq ++ e.drop 24 else e

/-- How a signal went. -/
inductive SigEnd where
  | done | sent | unreach (module : Nat)
  deriving DecidableEq, Repr

/-- Carry a resolved signal out (R392). A peer write that the host does not let through is dropped and counted (R406). -/
def State.signal (s : State) (t ring : Nat) (e : List Byte) (w : Waiter) : State × SigEnd :=
  let v := fieldAt e 0x10 8
  if sigKind e = 2 then
    if s.vfReach t then (s.send (.host (.vf t) (fieldAt e 8 8) (leBytes 8 v)), .done)
    else (s.bump (rng t ring 0x58) 1, .done)
  else
    let member := fieldAt e 5 1
    let pair := fieldAt e 4 1
    let op := fieldAt e 1 1 % 2
    let ctr := fieldAt e 2 2
    let dst := if member = 3 then some s.moduleId else s.resolve pair member
    match dst with
    | none =>
      let named := s.quad 0x502100 / 4 ^ pair % 4
      (s.bump (rng t ring 0x58) 1, .unreach (2 * pair + if member < 2 then member else if named < 2 then named else 0))
    | some d =>
      if d = s.moduleId then (s.applySignal t ctr op v, .done)
      else
        let p : Packet :=
          { kind := .signal, vc := 0, cls := 0, dst := d, src := 0, tenant := t, space := 0, gen := 0, tag := 0, addr := ctr + op * 2 ^ 16,
            bad := 0, cnt := 0, cntEn := false, payload := leBytes 8 v, ctl := none }
        match s.sendPacket p (member == 2) w false with
        | some s => (s, .sent)
        | none => (s.bump (rng t ring 0x58) 1, .unreach d)

/-- May the front end read `n` bytes at a tenant address (R587)? -/
def State.feMapped (s : State) (t ta n : Nat) : Bool :=
  decide (ta < 2 ^ 40) && s.taMapped t ta n &&
  ([ta, ta + n - 1].all fun a => match s.taLoc t a with
    | .own _ => true
    | .common r _ => s.commonState r == 2 && (s.cat.any fun c => (c.commons[r]?).any fun x => bitOf x.readers t)
    | .none => false)

def State.logLen (s : State) (t : Nat) : Nat := (((s.front.logs[t]?).getD [])).length

/-- An entry of the overflow log (R407). -/
def logEntry (kind r n haddr : Nat) (data : List Byte) : List Byte :=
  leBytes 1 kind ++ leBytes 1 r ++ leBytes 2 0 ++ leBytes 4 n ++ leBytes 8 haddr ++ (data ++ leBytes 32 0).take 32 ++ leBytes 16 0

/-- Put entries into the log; one that becomes non-empty sets TNT_EVENT.LOG (R564). -/
def State.pushLog (s : State) (t : Nat) (es : List (List Byte)) : State :=
  let first := s.logLen t == 0 && !es.isEmpty
  let s : State := { s with front := { s.front with logs := vupd s.front.logs t fun l => l ++ es } }
  if first then s.tntEvent t 6 else s

/-- Entry `i` of a ring's signal table, when it can be read (R391, R587). -/
def State.sigEntry (s : State) (t r i : Nat) : Option (List Byte) :=
  let at_ := s.quad (rng t r 0x18) + 32 * i
  if s.feMapped t at_ 32 then (s.taRead t at_ 32).map (·.1) else none

/-- Send the signal of entry `i` of a ring's table for a command that has ended (R391, R392, R407, R477): held with its
unit under COMPARE, behind the log while the tenant is frozen or its log holds an entry. An entry that breaks its table
is FE_SIGNAL. -/
def State.sigAct (s : State) (t r i seq tick : Nat) (out : Bool) : State :=
  match (s.sigEntry t r i).filter sigEntryOk with
  | none => s.raise t 0xC6 { ring := some (r, seq) }
  | some e =>
    let e := sigResolve e seq
    if s.inUnit t tick then s.holdAct t tick (.signal r e out)
    else if !s.active t || decide (0 < s.logLen t) then s.pushLog t [logEntry 4 r 1 (if sigKind e = 2 then fieldAt e 8 8 else 0) e]
    else (s.signal t r e .free).1

/-- A stored command's signal, through the table of the ring that holds its launch, ring 0's for a Ladle launch (R403). -/
def State.storedSig (s : State) (t : Nat) (ref : CmdRef) : State :=
  match ref, s.cmd t ref with
  | .stored ring key _, some c => if c.sig && !c.told then s.sigAct t (ring.getD 0) c.sigIdx key (s.unitRing t ref) false else s
  | _, _ => s

/-! ## How a command ends (R386, R396, R403, R453) -/

/-- Fold a command that has ended into the command whose launch or ROUTE it belongs to: the first status other than OK
with its index, the sums, and the flags. -/
def RCmd.fold (c sub : RCmd) (i : Option Nat) : RCmd :=
  let c := c.count sub.sat.toNat sub.flush.toNat sub.nan.toNat sub.vflags
  match i with
  | some i =>
    if c.status = 0 && sub.status != 0 then { c with status := sub.status, detail := c.detail % 2 ^ 16 + i % 256 * 2 ^ 16 } else c
  | none => if sub.pois ≠ 0 then c.note sub.pois else if sub.err ≠ 0 then c.note sub.err else c

/-- Release the buffer a launch holds (R403). -/
def State.releaseBuf (s : State) (recipe buf : Nat) : State :=
  match aget s.front.recipes recipe with
  | none => s
  | some r =>
    let r := if buf = 0 then { r with a := { r.a with holds := r.a.holds - 1 } } else { r with b := { r.b with holds := r.b.holds - 1 } }
    { s with front := { s.front with recipes := aput s.front.recipes recipe r } }

/-- A launch ends once every command of it has completed, or, once a timeout has ended it, every dispatched one (R404).
A Ladle launch stays for its batch to complete (R445). -/
def State.endLaunch (s : State) (t : Nat) (ring : Option Nat) (key : Nat) : State :=
  match s.launch t ring key, ring with
  | some l, some r =>
    let on := if l.stopped then l.cmds.take l.next else l.cmds
    if on.all fun c => c.st == .done then
      let s := s.releaseBuf l.recipe l.buf
      let s : State := { s with front := { s.front with
        launches := s.front.launches.filter fun x => !x.is t ring key, past := s.front.past ++ [.launch l] } }
      s.updCmd t (.ring r key) RCmd.finish
    else s
  | _, _ => s

/-- End a command of a ring or a launch. -/
def State.endCmd (s : State) (t : Nat) (c : CmdRef) : State :=
  let s := (s.updCmd t c RCmd.finish).storedSig t c
  match c with
  | .stored (some r) key i =>
    let s := match s.cmd t c with
      | some sub => s.updCmd t (.ring r key) fun x => x.fold sub (some i)
      | none => s
    s.endLaunch t (some r) key
  | _ => s

def State.route? (s : State) (t : Nat) (ref : CmdRef) : Option Route := s.front.routes.find? fun r => r.tenant == t && r.ref == ref

/-- Start an item's scatter chain when its template has ended and the channel is its own (R453). -/
def State.startScatter (s : State) (n : Nat) : State :=
  match s.item n with
  | none => s
  | some x =>
    match s.route? x.tenant x.ref, x.tile with
    | some r, some tile =>
      let ch := 8 * x.tenant + fieldAt r.plan 6 1
      let c := builtChan x.tenant (scatterDescs r.plan x.slots) (BitVec.ofNat 64 (fieldAt r.bytes 0x30 8)) (fieldAt r.bytes 0x38 6)
        (.item n 258) (s.share x.tenant) 0
      (s.setChan tile ch (some c)).updItem n fun x => { x with phase := 3 }
    | _, _ => s

/-- A ROUTE has completed: its event, with the numbers of its items, of the experts with tokens and of the largest expert
(R390, R539). -/
def State.routeDone (s : State) (t : Nat) (ref : CmdRef) (items experts most : Nat) : State :=
  (s.event 0x09 (some t) none ((ref.info.map (·.2)).getD 0) (leBytes 2 items ++ leBytes 2 experts ++ leBytes 4 most) (0, 0)).endCmd t ref

/-- An item's scatter chain has ended: the item is complete, and with the last one its ROUTE. -/
def State.endItem (s : State) (n : Nat) : State :=
  match s.item n with
  | none => s
  | some x =>
    let s := x.cmds.foldl (fun s c => s.updCmd x.tenant x.ref fun y => y.fold c none) s
    let s : State := { s with front := { s.front with
      items := s.front.items.filter (·.n != n),
      routes := s.front.routes.map fun r => if r.tenant == x.tenant && r.ref == x.ref then { r with open_ := r.open_.erase n } else r } }
    let (ni, ne, most) := ((s.route? x.tenant x.ref).map (·.counts)).getD (0, 0, 0)
    if ((s.route? x.tenant x.ref).map (·.open_)).getD [0] == [] then
      let s : State := { s with front := { s.front with routes := s.front.routes.filter fun r => !(r.tenant == x.tenant && r.ref == x.ref) } }
      s.routeDone x.tenant x.ref ni ne most
    else s

/-- Work that belongs to `c` has ended: a command of its own, or a chain or template command of an item. -/
def State.endWork (s : State) (t : Nat) (c : CmdRef) : State :=
  match c with
  | .item n 256 => s.updItem n fun x => { x with phase := 2 }
  | .item n 257 => s.updItem n fun x => { x with weights := true }
  | .item n 258 => s.endItem n
  | .item n _ =>
    let s := s.updCmd t c RCmd.finish
    match s.item n with
    | some x => if x.cmds.all fun c => c.st == .done then s.startScatter n else s
    | none => s
  | _ => s.endCmd t c

/-- Note an error of the work of a command, when it stands in one. -/
def State.noteWork (s : State) (t : Nat) (c : CmdRef) (code : Nat) : State :=
  match c with
  | .item n i => if 256 ≤ i then s.updItem n fun x => { x with cmds := lupd x.cmds 0 fun y => y.note code } else s.updCmd t c fun x => x.note code
  | _ => s.updCmd t c fun x => x.note code

/-- Raise a fault on behalf of a command: its entry names the ring and CSN (R485). -/
def State.raiseCmd (s : State) (t : Nat) (c : CmdRef) (code : Nat) (i : Info) : State := s.raise t code { i with ring := c.info }

/-! ## Replay tokens (R461 to R463) -/

/-- The command digest (R462). -/
def cmdDigest (bytes : List Byte) : List Byte := sha384 (bytes.take 1 ++ bytes.drop 16)

/-- The recipe digest (R462). -/
def recipeDigest (cmds : List (List Byte)) : List Byte := sha384 (leBytes 2 cmds.length ++ cmds.flatten)

/-- Log a launch's token (R461, R463), with the LAUNCH event of R539. -/
def State.logToken (s : State) (t kind op recipe ref : Nat) (seed : Nat) (step version : Nat) (digest : List Byte) : State :=
  let s := s.event 0x03 (some t) none ref
    (leBytes 1 kind ++ leBytes 1 op ++ leBytes 2 recipe ++ leBytes 2 version ++ leBytes 8 seed) (6, 8)
  match s.part t with
  | none => s
  | some p =>
    if p.stageSize < 80 * 2 ^ 20 then s
    else
      let n := s.quad (tnt t 0xA0)
      let tok := leBytes 1 (t + 16 * kind) ++ leBytes 1 op ++ leBytes 2 recipe ++ leBytes 4 ref ++ leBytes 8 seed ++ leBytes 6 step ++
        leBytes 2 version ++ digest.take 8
      (s.taWrite t (p.stageBase + 72 * 2 ^ 20 + 32 * (n % 262144)) tok false).addQuad (tnt t 0xA0) 1

end Sys2Proof.Machine
end

