-- ==== Sys2Proof/Machine/Transfer.lean ====
section
/-!
DEFINITION. Transfer.lean: descriptors, requests and remote writes of the transfer engine (R263 to R270, R309).
-/

namespace Sys2Proof.Machine

/-! ## Descriptors (R265, R266) -/

/-- A transfer descriptor. -/
structure XDesc where
  op      : Nat
  flags   : Nat
  srcSp   : Nat
  dstSp   : Nat
  vc3     : Bool
  fmtS    : Nat
  fmtD    : Nat
  rnd     : Nat
  salt    : Nat
  src     : Nat
  dst     : Nat
  rowLen  : Nat
  rows    : Nat
  sPitch  : Nat
  dPitch  : Nat
  cnt     : Nat
  cntEn   : Bool
  idx     : Nat
  clean   : Bool
  deriving DecidableEq, Repr

def xdesc (b : List Byte) : XDesc :=
  let op := fieldAt b 0 1
  let cnt := fieldAt b 0x28 4
  { op := op, flags := fieldAt b 1 1, srcSp := fieldAt b 2 1, dstSp := fieldAt b 3 1 % 8, vc3 := bitOf (fieldAt b 3 1) 3,
    fmtS := fieldAt b 4 1 % 16, fmtD := fieldAt b 4 1 / 16, rnd := fieldAt b 5 1, salt := fieldAt b 6 1,
    src := fieldAt b 8 8, dst := fieldAt b 0x10 8, rowLen := fieldAt b 0x18 4, rows := fieldAt b 0x1C 4,
    sPitch := fieldAt b 0x20 4, dPitch := fieldAt b 0x24 4, cnt := cnt % 4096, cntEn := bitOf cnt 31, idx := fieldAt b 0x30 8,
    clean := decide (fieldAt b 2 1 < 8) && decide (fieldAt b 3 1 < 16) && decide (fieldAt b 5 1 < 4) && zeros b 7 8 && zeros b 0x2C 0x30 && zeros b 0x38 0x40 &&
      cnt / 4096 % 2 ^ 19 == 0 }

def XDesc.srcCirc (d : XDesc) : Bool := bitOf d.flags 0
def XDesc.dstCirc (d : XDesc) : Bool := bitOf d.flags 1
def XDesc.srcEnd (d : XDesc) : Bool := bitOf d.flags 2
def XDesc.dstEnd (d : XDesc) : Bool := bitOf d.flags 3
def XDesc.isLast (d : XDesc) : Bool := bitOf d.flags 4
def XDesc.bypass (d : XDesc) : Bool := bitOf d.flags 5
def XDesc.noAlloc (d : XDesc) : Bool := bitOf d.flags 6
def XDesc.pin (d : XDesc) : Bool := bitOf d.flags 7

/-- Bits of an element on each side; COPY and FILL move bytes. -/
def XDesc.bitsS (d : XDesc) : Nat := if d.op = 2 then ((fmtOfCode d.fmtS).map (·.bits)).getD 8 else 8
def XDesc.bitsD (d : XDesc) : Nat := if d.op = 2 then ((fmtOfCode d.fmtD).map (·.bits)).getD 8 else 8

/-- Elements of a row, and bytes of a destination row. -/
def XDesc.elems (d : XDesc) : Nat := d.rowLen * 8 / d.bitsS
def XDesc.dstRow (d : XDesc) : Nat := d.elems * d.bitsD / 8

def XDesc.remote (d : XDesc) : Bool := d.op != 3 && (d.dstSp == 3 || d.dstSp == 4)

/-- Address bits that a space may use (R266). -/
def spaceMask (sp : Nat) (circ : Bool) : Nat :=
  match sp with
  | 0 => (2 ^ 23 - 1) + (if circ then (2 ^ 23 - 1) * 2 ^ 40 else 0)
  | 1 => (2 ^ 23 - 1) + (2 ^ 7 - 1) * 2 ^ 32 + (if circ then (2 ^ 23 - 1) * 2 ^ 40 else 0)
  | 2 => 2 ^ 40 - 1
  | 3 => 2 ^ 51 - 1
  | 4 => 2 ^ 30 - 1 + (2 ^ 11 - 1) * 2 ^ 40
  | _ => 0

def convFmts : List Nat := [1, 2, 3, 4, 5, 8]

/-- What makes a descriptor XF_DESC (R265, R266, R268, R276). -/
def XDesc.bad (d : XDesc) (tenant : Nat) : Bool :=
  !d.clean || decide (3 < d.op) || (if d.op = 3 then d.src % 64 != 0
    else
      (d.op != 1 && (decide (2 < d.srcSp) || d.src % 16 != 0 || d.src &&& spaceMask d.srcSp d.srcCirc != d.src ||
        (d.srcCirc && decide (1 < d.srcSp)))) ||
      (d.op == 1 && d.srcCirc) ||
      decide (4 < d.dstSp) || d.dst % 16 != 0 || d.dst &&& spaceMask d.dstSp d.dstCirc != d.dst ||
      (d.dstCirc && decide (1 < d.dstSp)) || (d.vc3 && !d.remote) ||
      (d.remote && (d.dst / 2 ^ 40 % 16 != tenant || d.dst / 2 ^ 44 % 4 == 3)) ||
      d.rowLen % 16 != 0 || decide (d.rowLen < 16 ∨ 0x1000000 < d.rowLen) || decide (d.rows < 1 ∨ 65536 < d.rows) ||
      d.sPitch % 16 != 0 || d.dPitch % 16 != 0 || decide (d.dPitch < d.dstRow) ||
      (if d.op = 2 then !convFmts.contains d.fmtS || !convFmts.contains d.fmtD || d.fmtS == d.fmtD || decide (1 < d.rnd) ||
          (d.rnd == 1 && d.fmtD == 8) || (d.rnd == 0 && (d.salt != 0 || d.idx != 0))
        else d.fmtS != 0 || d.fmtD != 0 || d.rnd != 0 || d.salt != 0 || d.idx != 0))

/-! ## Sides -/

/-- The tile a local address names: this tile or, in space 1, the tile of the address. -/
def sideTile (here sp addr : Nat) : Nat := if sp = 1 then addr / 2 ^ 32 % 128 else here

/-- The region of a circular side, when it is open and names this channel as that side (R256, R261). -/
def State.sideRegion (s : State) (here chan tenant : Nat) (sp addr : Nat) (cons : Bool) : Option Region :=
  let n := sideTile here sp addr
  ((s.tile n).region (addr % 2 ^ 23)).filter fun r =>
    let x := if cons then r.cons else r.prod
    r.tenant == tenant && (if n = here then x.cls == 1 && x.chan == chan % 8 else x.cls == 2 && x.chan == chan % 8 && x.tile == here)

/-- The start of a side in its space, with its slot resolved. -/
def State.sideBase (s : State) (here chan tenant sp addr : Nat) (circ cons : Bool) (slot : Nat) : Nat :=
  if circ then match s.sideRegion here chan tenant sp addr cons with
    | some r => r.slotAddr slot + addr / 2 ^ 40 % 2 ^ 23
    | none => 0
  else if sp ≤ 1 then addr % 2 ^ 23 else if sp = 2 then addr % 2 ^ 40 else addr

/-- Bytes from the first to past the last that a side's rows take. -/
def extent (rows pitch row : Nat) : Nat := (rows - 1) * pitch + row

/-- Check one side: XF_RGN, XF_ADDR or XF_DECL and the address (R264 to R266, R276). A channel that names a region of another tile
waits until that region is open and names it as a side (R261). -/
def State.checkSide (s : State) (here chan : Nat) (c : Chan) (sp addr : Nat) (circ cons : Bool) (n : Nat) : Option (Nat × Nat) :=
  let sh := s.share c.tenant
  let tile := sideTile here sp addr
  if sp ≤ 1 then
    if !s.tileOf c.tenant tile then some (0x71, addr)
    else if circ then
      match s.sideRegion here chan c.tenant sp addr cons with
      | none => if tile = here then some (0x74, addr) else none
      | some r => if r.slotBytes < addr / 2 ^ 40 % 2 ^ 23 + n then some (0x71, addr) else none
    else
      let o := addr % 2 ^ 23
      if !inShare sh o n then some (0x71, addr)
      else
        let (lo, len) := if cons then c.rd else c.wr
        if tile = here ∧ !(decide (lo ≤ o) && decide (o + n ≤ lo + len)) then some (0x72, addr) else none
  else if sp = 2 then
    if cons then (if s.taMapped c.tenant addr n then none else some (0x71, addr))
    else (s.taWriteBar c.tenant addr n 0x71).map fun e => (e, addr)
  else none

/-- The first violation of a descriptor (R263: every one but XF_REMOTE is found before its first request). -/
def State.checkDesc (s : State) (here chan : Nat) (c : Chan) (d : XDesc) : Option (Nat × Nat) :=
  if d.bad c.tenant then some (0x70, d.src)
  else if d.op = 3 then none
  else
    let src := if d.op = 1 then none
      else s.checkSide here chan c d.srcSp d.src d.srcCirc true (extent d.rows d.sPitch d.rowLen)
    src.orElse fun _ => s.checkSide here chan c d.dstSp d.dst d.dstCirc false (extent d.rows d.dPitch d.dstRow)

/-- Is a circular side's current slot in the state it needs? The slot, or `none` to wait (R267). -/
def State.sideSlot (s : State) (here chan tenant sp addr : Nat) (circ cons : Bool) : Option Nat :=
  if !circ then some 0
  else match s.sideRegion here chan tenant sp addr cons with
    | none => none
    | some r => let k := r.claimed cons; if r.full k == cons then some k else none

/-! ## Requests (R263) -/

/-- A cut of a row: element offset and elements, so that neither side crosses a multiple of `g` bytes. -/
def cutRow (g bs bd : Nat) : Nat → Nat → Nat → Nat → Nat → List (Nat × Nat)
  | 0, _, _, _, _ => []
  | fuel + 1, a, b, e, n =>
    if n = 0 then []
    else
      let k := min n (min ((g - a % g) * 8 / bs) ((g - b % g) * 8 / bd))
      let k := max k 1
      (e, k) :: cutRow g bs bd fuel (a + k * bs / 8) (b + k * bd / 8) (e + k) (n - k)

/-- The requests of a row: source and destination addresses `a`, `b`; FILL is cut at the destination only. -/
def XDesc.cuts (d : XDesc) (g a b : Nat) : List (Nat × Nat) :=
  cutRow g d.bitsS d.bitsD (2 * (d.rowLen + d.dstRow) / g + 8) (if d.op = 1 then b else a) b 0 d.elems

/-- Number of requests of a descriptor from its first source and destination addresses. -/
def XDesc.requests (d : XDesc) (a b : Nat) : Nat :=
  (List.range d.rows).foldl (fun n r => n + (d.cuts 256 (a + r * d.sPitch) (b + r * d.dPitch)).length) 0

/-- Request `n` of the rows from `row` on: its row, and its first element and elements. -/
def XDesc.findReq (d : XDesc) (a b : Nat) : Nat → Nat → Nat → Option (Nat × Nat × Nat)
  | 0, _, _ => none
  | left + 1, row, n =>
    let cs := d.cuts 256 (a + row * d.sPitch) (b + row * d.dPitch)
    match cs[n]? with
    | some (e, k) => some (row, e, k)
    | none => d.findReq a b left (row + 1) (n - cs.length)

/-- A request of a descriptor: the addresses of its row, and its row, first element and elements (R263). -/
structure Req where
  a   : Nat
  b   : Nat
  row : Nat
  e   : Nat
  k   : Nat
  deriving DecidableEq, Repr

/-- Request `n` of a descriptor that has begun, in the order of issue. -/
def ActDesc.req (x : ActDesc) (n : Nat) : Option Req :=
  let d := xdesc x.bytes
  (d.findReq x.a x.b d.rows 0 n).map fun (row, e, k) => ⟨x.a + row * d.sPitch, x.b + row * d.dPitch, row, e, k⟩

/-- What CONVERT writes for elements (R268): bytes, and the counts SAT and NAN. -/
def convertElems (d : XDesc) (seed : W64) (step row e0 : Nat) (es : List Nat) : List Byte × Nat × Nat :=
  match fmtOfCode d.fmtS, fmtOfCode d.fmtD with
  | some fs, some fd =>
    let cs := es.mapIdx fun i x =>
      let r : Rnd := if d.rnd = 1 then .sr (srWord seed step d.salt (d.idx + row * d.elems + e0 + i)) else .rne
      convert fd r (decodeVal fs x)
    let nan (c : Conv) : Bool := c.nan || (fd.special && (decodeVal fd c.code).isNan)
    (packElems fd.bits (cs.map (·.code)), (cs.filter (·.sat)).length, (cs.filter nan).length)
  | _, _ => ([], 0, 0)

/-- Elements of `b` bits from bytes. -/
def unpackElems (b n : Nat) (bs : List Byte) : List Nat :=
  let x := leNat bs
  (List.range n).map fun i => x / 2 ^ (b * i) % 2 ^ b

/-- Read `n` bytes of a source, which lie within one block of 256 bytes. -/
def State.readSide (s : State) (here : Nat) (c : Chan) (d : XDesc) (addr n : Nat) : (List Byte × Bool) × State :=
  if d.op = 1 then ((((List.range n).map fun i => (leBytes 8 d.src).getD ((addr + i) % 8) 0), false), s)
  else if d.srcSp ≤ 1 then s.spmRead c.tenant (sideTile here d.srcSp d.src) addr n
  else s.drcRead (here / 16) c.tenant addr n d.bypass (MscUse.ofFlags d.noAlloc d.pin)

/-- Write bytes of a local destination. -/
def State.writeSide (s : State) (here : Nat) (c : Chan) (d : XDesc) (addr : Nat) (bs : List Byte) (bad : Bool) : State :=
  if d.dstSp ≤ 1 then s.spmWrite c.tenant (sideTile here d.dstSp d.dst) addr bs bad
  else
    let s := match (s.taLoc c.tenant addr).ma with
      | some ma => s.drcWrite (here / 16) c.tenant ma
      | none => s
    (s.taWrite c.tenant addr bs bad).poolMirror c.tenant addr bs bad

/-- What a request's work has done so far: the state, whether it read poison, its counts. -/
structure Moved where
  s    : State
  bad  : Bool
  sat  : Nat
  nan  : Nat
  deriving DecidableEq, Repr

/-- The bytes that `k` elements of a request's row from element `e` on write, with the poison of what they read; what is written
poisoned counts nothing (R138, R268). -/
def moveRead (here : Nat) (c : Chan) (d : XDesc) (r : Req) (m : Moved) (e k : Nat) : List Byte × Bool × Moved :=
  let n := k * d.bitsS / 8
  let ((bs, bad), s) := m.s.readSide here c d (r.a + e * d.bitsS / 8) n
  if d.op = 2 then
    let (out, sat, nan) := convertElems d c.seed c.step r.row e (unpackElems d.bitsS k bs)
    (out, bad, { s := s, bad := m.bad || bad, sat := m.sat + (if bad then 0 else sat), nan := m.nan + (if bad then 0 else nan) })
  else (bs, bad, { m with s := s, bad := m.bad || bad })

/-- The poison bits of a payload, one for each 64 bytes (R269, R476), that `n` bad bytes from byte `o` of it set. -/
def badBits (o n : Nat) (bad : Bool) : Nat :=
  if bad && n != 0 then ((List.range ((o + n - 1) / 64 - o / 64 + 1)).map fun i => 2 ^ (o / 64 + i)).foldl (· ||| ·) 0 else 0

/-- The parts of a request that lie in one 64-byte line of the destination (R271): first element and elements. -/
def cutLines (bd : Nat) : Nat → Nat → Nat → Nat → List (Nat × Nat)
  | 0, _, _, _ => []
  | fuel + 1, b, e, n =>
    if n = 0 then []
    else
      let k := max 1 (min n ((64 - b % 64) * 8 / bd))
      (e, k) :: cutLines bd fuel (b + k * bd / 8) (e + k) (n - k)

/-- Move a request to a local destination, line by line of the destination, so that a line that receives a poisoned byte is written
poisoned (R271); a write to the tenant's HBM counts in its unit (R476). -/
def moveReq (here : Nat) (c : Chan) (d : XDesc) (r : Req) (s : State) : Moved :=
  let at_ := r.b + r.e * d.bitsD / 8
  let (m, out, bits) := (cutLines d.bitsD (r.k + 1) at_ r.e r.k).foldl (fun (m, out, bits) (e, k) =>
    let (bs, bad, m) := moveRead here c d r m e k
    ({ m with s := m.s.writeSide here c d (r.b + e * d.bitsD / 8) bs bad }, out ++ bs,
     bits ||| badBits ((e - r.e) * d.bitsD / 8) bs.length bad)) (({ s := s, bad := false, sat := 0, nan := 0 } : Moved), [], 0)
  if d.dstSp ≤ 1 then m else { m with s := m.s.cmdWrite c.tenant c.owner at_ out bits (if d.cntEn then d.cnt + 2 ^ 15 else 0) }

/-- The payload of a remote request, 64 bytes at a time, with its poison bits (R269). -/
def payloadOf (here : Nat) (c : Chan) (d : XDesc) (r : Req) (s : State) : List Byte × Nat × Moved :=
  let per := 512 / d.bitsD
  (List.range (ceilDiv r.k per)).foldl (fun (bs, bits, m) q =>
    let (x, bad, m) := moveRead here c d r m (r.e + q * per) (min per (r.k - q * per))
    (bs ++ x, bits ||| badBits (64 * q) x.length bad, m)) (([] : List Byte), 0, ({ s := s, bad := false, sat := 0, nan := 0 } : Moved))

/-! ## Remote writes (R269, R309, R338) -/

/-- Does a remote write pass the partition of the named tenant here (R269, R430)? -/
def State.remoteOk (s : State) (p : Packet) : Bool :=
  let n := p.payload.length
  match s.part p.tenant with
  | none => false
  | some x =>
    let theirs := bitOf (((s.cat.bind fun c => c.sealedBy[p.src]?)).getD 0) p.tenant
    theirs == x.sealed && s.tState p.tenant != tsDisabled &&
    (if p.space = 3 then (s.taWriteBar p.tenant (p.addr % 2 ^ 40) n 0x71).isNone
     else if p.space = 4 then
       let tile := p.addr / 2 ^ 23 % 128
       s.tileOf p.tenant tile && inShare x.share (p.addr % 2 ^ 23) n
     else false)

/-- Apply a remote write: 64 bytes of payload at a time with their poison bit, then the counter (R269, R309). -/
def State.applyRemote (s : State) (p : Packet) : State :=
  let n := p.payload.length
  let s := (List.range (ceilDiv n 64)).foldl (fun s q =>
    let bs := (p.payload.drop (64 * q)).take 64
    let bad := bitOf p.bad q
    if p.space = 3 then (s.taWrite p.tenant (p.addr % 2 ^ 40 + 64 * q) bs bad).poolMirror p.tenant (p.addr % 2 ^ 40 + 64 * q) bs bad
    else s.spmWrite p.tenant (p.addr / 2 ^ 23 % 128) (p.addr % 2 ^ 23 + 64 * q) bs bad) s
  if p.cntEn then s.counted p.tenant p.cnt n 1 else s

/-- A write of the locked weight range raises TWIN_WSET here (R464). -/
def State.wsetHit (s : State) (p : Packet) : Bool :=
  p.space == 3 && s.taWriteBar p.tenant (p.addr % 2 ^ 40) p.payload.length 0x71 == some 0xF4

/-- What happens at the receiving module to a write that has reached it: applied, or dropped; `true` when refused. -/
def State.arriveWrite (s : State) (p : Packet) : State × Bool :=
  if s.remoteOk p then (s.applyRemote p, false)
  else ((if s.wsetHit p then s.raise p.tenant 0xF4 { addr := p.addr % 2 ^ 40 } else s), true)

/-- The name of a chain in the ledger (R496). -/
def State.chainKey (s : State) (c : Chan) : ChainKey :=
  match c.owner with
  | .item n i => match s.item n with
    | some x => { ref := x.ref, expert := x.expert, slots := x.slots, part := i + 1, inst := c.inst }
    | none => { ref := c.owner, expert := 0, slots := [], part := 0, inst := c.inst }
  | r => { ref := r, expert := 0, slots := [], part := 0, inst := c.inst }

/-- How many remote requests of a chain the ledger holds. -/
def State.ledgerCount (s : State) (t : Nat) (k : ChainKey) : Nat :=
  match s.recov.ledger.find? fun (u, _, x, _) => u == t && x == k with
  | some (_, _, _, n) => n
  | none => 0

def State.setLedger (s : State) (t : Nat) (k : ChainKey) (n : Nat) : State :=
  if n ≤ s.ledgerCount t k then s
  else
    let rest := s.recov.ledger.filter fun (u, _, x, _) => !(u == t && x == k)
    { s with recov := { s.recov with ledger := rest ++ [(t, s.beat, k, n)] } }

/-! ## Chains (R264, R267) -/

/-- The completion of the XSTART `id` on a tile (R94, R260), in the context that runs or in a saved one. -/
def Tile.doneFlight (t : Tile) (id : Nat) : Tile :=
  let f (fs : List InFlight) : List InFlight := fs.map fun f => if f.id = id then { f with done := true } else f
  { t with flight := f t.flight, saved := t.saved.map fun (k, c) => (k, { c with flight := f c.flight }) }

/-- Change the program of a tenant on a tile, whether it runs or is saved. -/
def Tile.onProg (t : Tile) (tenant : Nat) (f : Prog → Prog) : Tile :=
  { t with prog := t.prog.map fun p => if p.tenant = tenant then f p else p,
           saved := t.saved.map fun (k, c) => if k = tenant then (k, { c with prog := c.prog.map f }) else (k, c) }

/-- Enter an error of a chain, and note it with the command or program it runs for (R276, R396, R484). -/
def State.noteChan (s : State) (tile : Nat) (c : Chan) (code addr : Nat) : State :=
  match c.by_ with
  | some r => (s.raiseCmd c.tenant r code { tile := some tile, addr := addr }).noteWork c.tenant r code
  | none => (s.raise c.tenant code { tile := some tile, addr := addr }).updTile tile fun t => t.onProg c.tenant fun p =>
      { p.note code with notes := p.notes }

/-- Count a chain's conversions with the launch it runs for (R268, R139); of a tile program's chain they are added to the tenant's counters
with the program's own. -/
def State.countChan (s : State) (tile : Nat) (c : Chan) (sat nan : Nat) : State :=
  let s := if c.by_.isSome then s.tallyTenant c.tenant sat 0 nan else s
  match c.by_ with
  | some (.item n i) => s.updItem n fun x => { x with cmds := lupd x.cmds (if 256 ≤ i then 0 else i) fun y => y.count sat 0 nan 0 }
  | some r => s.updCmd c.tenant r fun x => x.count sat 0 nan 0
  | none => s.updTile tile fun t => t.onProg c.tenant fun p => { p with sat := satAdd32 p.sat sat, nan := satAdd32 p.nan nan }

/-- May the tenant's work run, as far as recovery goes: during a recovery only a suspect under replay does (R498). -/
def State.recAllows (s : State) (tenant : Nat) : Bool :=
  !s.recov.held && s.recov.due.isNone &&
  (s.fld 0x700000 0 3 == 0 || (s.fld 0x700000 0 3 == 3 && (s.recov.replay.map (·.1)) == some tenant))

/-- Does the tenant's work run on this tile now: is it ACTIVE, and has it the tile (R76, R82)? -/
def State.holds (s : State) (tenant tile : Nat) : Bool :=
  s.active tenant && s.recAllows tenant && !s.acc.stopped.contains tile && (s.sched.owner[tile]?).getD none == some tenant

/-- The marks and counters of a completed descriptor (R265, R267, R309). -/
def State.finishDesc (s : State) (tile : Nat) (c : Chan) (x : ActDesc) : State :=
  let d := xdesc x.bytes
  let mark (s : State) (sp addr slot : Nat) (cons : Bool) : State :=
    s.updTile (sideTile tile sp addr) fun t => t.updRegion (addr % 2 ^ 23) fun r => r.mark slot (!cons)
  let s := if d.srcCirc && d.srcEnd then mark s d.srcSp d.src x.inS true else s
  let s := if d.dstCirc && d.dstEnd then mark s d.dstSp d.dst x.outS false else s
  if d.cntEn && !d.remote then s.counted c.tenant d.cnt (d.rows * d.dstRow) x.total else s

/-- Has a descriptor issued every request; has it completed? -/
def ActDesc.issued (x : ActDesc) : Bool := decide (x.total ≤ x.next)
def ActDesc.done (x : ActDesc) : Bool := x.issued && x.open_.isEmpty

/-- Are remote writes of a command's work on a tile still unacknowledged? A release at DOMAIN waits for them (R300, R304, R305). -/
def State.unacked (s : State) (tile tenant : Nat) (owner : CmdRef) : Bool :=
  s.unackedPkts.any fun h => match h.waiter with
    | .chan n _ _ t o => n == tile && t == tenant && o == owner
    | _ => false

/-- Complete the descriptors of a chain, in chain order, whose requests are all done; a chain whose LAST descriptor has completed
ends, and with it its XSTART. A chain that is a command of its own ends with the acknowledgement of its remote writes (R305). -/
def State.settle (s : State) (tile chan : Nat) : Nat → State
  | 0 => s
  | fuel + 1 =>
    match s.chan tile chan with
    | none => s
    | some c =>
      match c.active with
      | x :: rest =>
        if x.done then ((s.finishDesc tile c x).setChan tile chan (some { c with active := rest })).settle tile chan fuel
        else s
      | [] =>
        if !c.last then s
        else match c.by_ with
          | some r => if s.unacked tile c.tenant c.owner then s else (s.setChan tile chan none).endWork c.tenant r
          | none => (s.setChan tile chan none).updTile tile fun t => t.doneFlight c.xstart

/-! ## Issuing requests (R263) -/

def Chan.outstanding (c : Chan) : Nat := (c.active.map (·.open_.length)).sum

/-- The requests outstanding on a tile, of one tenant or of all. -/
def Tile.outstanding (t : Tile) (tenant : Option Nat) : Nat :=
  ((t.chans.filter fun (k, _) => tenant == none || tenant == some (k / 8)).map (·.2.outstanding)).sum

/-- The descriptor whose requests a chain issues. -/
def Chan.front (c : Chan) : Option ActDesc := c.active.getLast?.filter fun x => !x.issued

/-- May a chain issue its next request: the tenant has the tile, and MAXOUT, XREQ and the request entries allow it (R263)? A remote
one also needs a place among the packets held for its destination (R339). -/
def State.mayIssue (s : State) (tile : Nat) (c : Chan) : Bool :=
  !c.stopped && s.holds c.tenant tile && decide (c.outstanding < c.maxOut) &&
  decide ((s.tile tile).outstanding (some c.tenant) < ((s.part c.tenant).map (·.xreq)).getD 0) &&
  decide ((s.tile tile).outstanding none < 768) &&
  (match c.front with
    | some x =>
      let d := xdesc x.bytes
      !d.remote || (match s.resolve (d.dst / 2 ^ 46 % 32) (d.dst / 2 ^ 44 % 4) with
        | some dst => dst == s.moduleId || s.tagRoom dst
        | none => true)
    | none => false)

def Chan.updDesc (c : Chan) (ord : Nat) (f : ActDesc → ActDesc) : Chan :=
  { c with active := c.active.map fun x => if x.ord = ord then f x else x }

def State.updChan (s : State) (tile chan : Nat) (f : Chan → Chan) : State := s.setChan tile chan ((s.chan tile chan).map f)

/-- Enter what a request's work met: its counts, and poison once for the descriptor (R268, R271, R484). -/
def State.noteMoved (m : Moved) (tile chan : Nat) (c : Chan) (x : ActDesc) : State :=
  let s := m.s.countChan tile c m.sat m.nan
  if m.bad && !x.told then
    (s.updChan tile chan fun c => c.updDesc x.ord fun x => { x with told := true }).noteChan tile c 0x77 (xdesc x.bytes).src
  else s

/-- Send a remote request (R269, R309, R338): its source is read and its packet leaves, or, when the address names this module, is
applied here. One that was accepted before a rollback is not sent again (R496). -/
def State.sendReq (s : State) (tile chan : Nat) (c : Chan) (x : ActDesc) (r : Req) (dst : Nat) : State :=
  let d := xdesc x.bytes
  let (bs, bits, m) := payloadOf tile c d r s
  let at_ := r.b + r.e * d.bitsD / 8
  let s := (State.noteMoved m tile chan c x).cmdWrite c.tenant c.owner at_ bs bits (if d.cntEn then d.cnt + 2 ^ 15 else 0)
  let p : Packet :=
    { kind := .write, vc := if d.vc3 then 3 else 2, cls := 0, dst := dst, src := s.moduleId, tenant := c.tenant, space := d.dstSp,
      gen := 0, tag := 0, addr := at_ - at_ / 2 ^ 44 % 4 * 2 ^ 44 + dst % 2 * 2 ^ 44, bad := bits, cnt := d.cnt, cntEn := d.cntEn,
      payload := bs, ctl := none }
  if dst = s.moduleId then
    let (s, no) := s.arriveWrite p
    if no then s.raise c.tenant 0x75 { tile := some tile, addr := d.dst } else s
  else
    let key := s.chainKey c
    let s := s.updChan tile chan fun c => { c with remote := c.remote + 1 }
    if c.remote < s.ledgerCount c.tenant key then s
    else
      match s.sendPacket p (d.dst / 2 ^ 44 % 4 == 2) (.chan tile chan x.ord c.tenant c.owner) false with
      | some s => s.setLedger c.tenant key (c.remote + 1)
      | none => (s.bump 0x50220C 1).noteChan tile c 0x76 d.dst

/-- A chain issues its next request. A remote one reads its source and leaves; where neither member of the pair is reachable, the
descriptor ends (R269). -/
def State.issueReq (s : State) (tile chan : Nat) : State :=
  match s.chan tile chan with
  | none => s
  | some c =>
    match c.front with
    | none => s
    | some x =>
      let d := xdesc x.bytes
      let s := s.updTile tile fun t => { t with turn := chan }
      let taken (s : State) : State :=
        s.updChan tile chan fun c => c.updDesc x.ord fun x => { x with next := x.next + 1, open_ := x.open_ ++ [x.next] }
      if !d.remote then taken s
      else match s.resolve (d.dst / 2 ^ 46 % 32) (d.dst / 2 ^ 44 % 4), x.req x.next with
        | some dst, some r => (taken s).sendReq tile chan c x r dst
        | _, _ =>
          ((s.updChan tile chan fun c => c.updDesc x.ord fun x => { x with next := x.total }).bump 0x50220C 1 |>.noteChan tile c 0x76
            d.dst).settle tile chan 65536

/-- The channel whose turn it is to issue a request: in round robin after the one that issued last. -/
def State.nextChan (s : State) (tile : Nat) : Option Nat :=
  let t := s.tile tile
  let ready (k : Nat × Chan) : Bool := s.mayIssue tile k.2
  (((t.chans.filter fun (k, _) => decide (t.turn < k)).find? ready).orElse fun _ => t.chans.find? ready).map (·.1)

/-- Issue requests on a tile while any chain may. -/
def State.pump (s : State) (tile : Nat) : Nat → State
  | 0 => s
  | fuel + 1 =>
    match s.nextChan tile with
    | some chan => (s.issueReq tile chan).pump tile fuel
    | none => s

/-- More requests than a tile can have outstanding, and chains that can end as theirs are issued. -/
def pumpFuel : Nat := 1024

/-- Request `n` of the descriptor `ord` completes: a local one moves its data now (R263, R267, R300). -/
def State.reqDone (s : State) (tile chan ord n : Nat) : State :=
  match s.chan tile chan with
  | none => s
  | some c =>
    match c.active.find? fun x => x.ord == ord && x.open_.contains n with
    | none => s
    | some x =>
      let d := xdesc x.bytes
      let s := match (if d.remote then none else x.req n) with
        | some r => State.noteMoved (moveReq tile c d r s) tile chan c x
        | none => s
      let s := s.updChan tile chan fun c => c.updDesc ord fun x => { x with open_ := x.open_.erase n }
      (s.settle tile chan 65536).pump tile pumpFuel

/-- Where a local side lies, for the wait of R267: a tile's scratchpad or a tenant address. -/
def sideHome (tile sp addr : Nat) : Option Nat := if sp ≤ 1 then some (sideTile tile sp addr) else none

/-- Must a descriptor wait for an earlier one of its chain that writes what it reads (R267, rule 4)? -/
def XDesc.mustWait (d : XDesc) (tile : Nat) (c : Chan) (a : Nat) : Bool :=
  d.op != 1 && c.active.any fun x =>
    let y := xdesc x.bytes
    !y.remote && sideHome tile y.dstSp y.dst == sideHome tile d.srcSp d.src &&
      overlap a (extent d.rows d.sPitch d.rowLen) x.b (extent y.rows y.dPitch y.dstRow)

/-- Take the descriptor out of the fetched ones, as begun. -/
def Chan.take (c : Chan) : Chan := { c with fetched := c.fetched.drop 1, begun := c.begun + 1 }

/-- A descriptor that has passed its checks and has its slots begins: its claims, and its requests as far as the limits allow. -/
def State.runDesc (s : State) (tile chan : Nat) (c : Chan) (d : XDesc) (bytes : List Byte) (inS outS a b : Nat) : State :=
  let claim (s : State) (sp addr : Nat) (cons : Bool) : State :=
    s.updTile (sideTile tile sp addr) fun t => t.updRegion (addr % 2 ^ 23) fun r => r.claim cons 1
  let s := if d.srcCirc && d.srcEnd then claim s d.srcSp d.src true else s
  let s := if d.dstCirc && d.dstEnd then claim s d.dstSp d.dst false else s
  let x : ActDesc := { bytes := bytes, ord := c.begun, inS := inS, outS := outS, a := a, b := b, total := d.requests a b, next := 0,
                       open_ := [], told := false }
  (s.setChan tile chan (some { c.take with last := d.isLast, active := c.active ++ [x] })).pump tile pumpFuel

/-- A violation stops the chain at the descriptor, which stays the next one (R263). -/
def State.stopChain (s : State) (tile chan : Nat) (c : Chan) (at_ code addr : Nat) : State :=
  (s.setChan tile chan (some { c with stopped := true, fetched := [], next := at_ })).raise c.tenant code { tile := some tile, addr := addr }

/-- The descriptor at the front of a channel begins, if its OP is `op`, the one before it has issued every request and nothing makes
it wait; one that has begun goes on issuing. -/
def State.beginDesc (s : State) (tile chan op : Nat) : State :=
  match s.chan tile chan with
  | none => s
  | some c =>
    if c.front.isSome then s.pump tile pumpFuel
    else if c.stopped || c.last || !s.holds c.tenant tile then s
    else match c.fetched with
      | [] => s
      | (at_, bytes) :: _ =>
        let d := xdesc bytes
        if bytes.isEmpty then (if op = 0 then s.stopChain tile chan c at_ 0x06 at_ else s)
        else if d.op ≠ op ∧ !(op = 0 ∧ 3 < d.op) then s
        else match s.checkDesc tile chan c d with
          | some (code, addr) => s.stopChain tile chan c at_ code addr
          | none =>
            if d.op = 3 then s.setChan tile chan (some { c.take with fetched := [], next := d.src, last := d.isLast }) |>.settle tile chan 65536
            else
              match (if d.op = 1 then some 0 else s.sideSlot tile chan c.tenant d.srcSp d.src d.srcCirc true),
                    s.sideSlot tile chan c.tenant d.dstSp d.dst d.dstCirc false with
              | some i, some o =>
                let a := if d.op = 1 then 0 else s.sideBase tile chan c.tenant d.srcSp d.src d.srcCirc true i
                let b := s.sideBase tile chan c.tenant d.dstSp d.dst d.dstCirc false o
                if d.mustWait tile c a then s else s.runDesc tile chan c d bytes i o a b
              | _, _ => s

/-- COPY: bytes move from source to destination in requests (R265). -/
def execCopy (tile chan : Nat) (s : State) : Host.Outcome State Fault Refusal := .next (s.beginDesc tile chan 0)

/-- FILL: an 8-byte pattern over the destination (R265). -/
def execFill (tile chan : Nat) (s : State) : Host.Outcome State Fault Refusal := .next (s.beginDesc tile chan 1)

/-- CONVERT: each row element by element (R268). -/
def execConvert (tile chan : Nat) (s : State) : Host.Outcome State Fault Refusal := .next (s.beginDesc tile chan 2)

/-- LINK: the chain continues at SRC, in its own space (R265). -/
def execLink (tile chan : Nat) (s : State) : Host.Outcome State Fault Refusal := .next (s.beginDesc tile chan 3)

/-- Read up to `n` descriptors of a chain from `at_`, ending after a LAST or LINK or before one that cannot be read; a
poisoned one reads as no bytes. -/
def State.burst (s : State) (tile : Nat) (c : Chan) : Nat → Nat → List (Nat × List Byte)
  | 0, _ => []
  | n + 1, at_ =>
    let got : Option (List Byte × Bool) :=
      if c.csp then s.taRead c.tenant at_ 64
      else if inShare (s.share c.tenant) at_ 64 && decide (c.rd.1 ≤ at_ ∧ at_ + 64 ≤ c.rd.1 + c.rd.2) then
        some ((s.tile tile).read at_ 64, (s.tile tile).readBad at_ 64)
      else none
    match got with
    | none => []
    | some (bs, bad) =>
      if bad then [(at_, [])]
      else if (xdesc bs).op = 3 ∨ (xdesc bs).isLast then [(at_, bs)]
      else (at_, bs) :: s.burst tile c n (at_ + 64)

/-- DESCRIPTOR_FETCH (R263, R264, R267): a burst of 16 when at most 8 remain. -/
def execDescriptorFetch (tile chan : Nat) (s : State) : Host.Outcome State Fault Refusal :=
  match s.chan tile chan with
  | none => .next s
  | some c =>
    let more := match c.fetched.getLast? with
      | some (_, bs) => !((xdesc bs).op = 3 || (xdesc bs).isLast || bs.isEmpty)
      | none => true
    if c.stopped || c.last || !s.holds c.tenant tile || decide (8 < c.fetched.length) || !more then .next s
    else
      let got := s.burst tile c 16 c.next
      match got.getLast? with
      | some (a, _) =>
        let s := got.foldl (fun s (p, _) => if c.csp then s.taAccess c.tenant p 64 false .plain else s.eccRead tile p 64) s
        .next (s.setChan tile chan (some { c with fetched := c.fetched ++ got, next := a + 64 }))
      | none =>
        if !c.fetched.isEmpty then .next s
        else
          let code := if !c.csp && inShare (s.share c.tenant) c.next 64 then 0x72 else 0x71
          .next (s.stopChain tile chan c c.next code c.next)

/-- TRANSFER_REQUEST_COMPLETE (R267): request `n` of a descriptor that has begun; requests complete in no fixed order. A remote one
is over once its packet has left, and only a release at DOMAIN waits for the acknowledgement (R300, R304). -/
def execTransferRequestComplete (tile chan ord n : Nat) (s : State) : Host.Outcome State Fault Refusal := .next (s.reqDone tile chan ord n)

end Sys2Proof.Machine
end

