-- ==== Sys2Proof/Machine/VecInstr.lean ====
section
/-!
DEFINITION. VecInstr.lean: each register instruction of the vector engine: its checks and what it does to the engine
(R162 to R175, R188, R189).
-/

namespace Sys2Proof.Machine

/-- A register instruction: the code its checks find, and its effect on the engine given the launch's seed and step
counter. -/
structure VecOp where
  check : BitVec 256 → Option Nat
  run   : Ve → W64 → Nat → BitVec 256 → Ve × Acc

def mkVec (fmtOk argOk : BitVec 256 → Bool) (fs : BitVec 256 → List VF) (run : Ve → W64 → Nat → BitVec 256 → Ve × Acc) : VecOp :=
  { check := fun w => vecCheck w (fmtOk w) (argOk w) (fs w), run := run }

def rneOnly (w : BitVec 256) : Bool := vRnd w == 0
def kdOk (w : BitVec 256) : Bool := vKD w != 0

/-- An element operation on one, two or three sources of FMT. -/
def floatInstr (srcs : BitVec 256 → List Nat) (fs : List VF) (f : Fmt → List Val → Elem) : VecOp :=
  mkVec arithFmt (fun _ => true) (fun _ => [.vd, .fmt, .zm, .km] ++ fs) fun s _ _ w => floatOp s w (srcs w) f

def srcA (w : BitVec 256) : List Nat := [vVA w]
def srcAB (w : BitVec 256) : List Nat := [vVA w, vVB w]
def srcABC (w : BitVec 256) : List Nat := [vVA w, vVB w, vVC w]

/-- An element operation on 32-bit integers. -/
def intInstr (srcs : BitVec 256 → List Nat) (fs : List VF) (f : BitVec 256 → List W32 → W32) : VecOp :=
  mkVec rneOnly (fun _ => true) (fun _ => [.vd, .zm, .km] ++ fs) fun s _ _ w => intOp s w (srcs w) (f w)

/-- A VBCAST or VIOTA: element `e` from IMM32. -/
def immOp (s : Ve) (w : BitVec 256) (f : Nat → Nat) : Ve × Acc :=
  let km := s.mask (vKM w)
  let kp := s.maskPois (vKM w)
  let ss := (List.range 256).map fun e =>
    if km.getLsbD e then Slot.mk (some (f e % 2 ^ 32)) (kp.getLsbD e) else Slot.mk (if vZM w then some 0 else none) (kp.getLsbD e)
  let (r, p) := writeSlots 32 0 (s.reg (vVD w)) (s.pois (vVD w)) ss
  (s.setReg (vVD w) r p, if kp.extractLsb' 0 256 = 0 then Acc.zero else Acc.zero.sawPoison)

/-- VSEL: the elements of VA where KM is set, of VB elsewhere, written exactly (R163, R165). -/
def selOp (s : Ve) (w : BitVec 256) : Ve × Acc :=
  let f := fmtOf w
  let b := f.bits
  let km := s.mask (vKM w)
  let kp := s.maskPois (vKM w)
  let step := fun (acc : List Slot × Acc) (e : Nat) =>
    let src := if km.getLsbD e then vVA w else vVB w
    let p := kp.getLsbD e || (s.pois src).getLsbD (laneOf b e)
    let v := decodeFloat f (elemOf b (s.reg src) e)
    let r := exactElem f [v] v
    (Slot.mk (some r.code) p :: acc.1, acc.2.add r p)
  let (ss, a) := (List.range (8192 / b)).foldl step ([], Acc.zero)
  let (r, p) := writeSlots b 0 (s.reg (vVD w)) (s.pois (vVD w)) ss.reverse
  (s.setReg (vVD w) r p, a)

def vbcastOp : VecOp := mkVec rneOnly (fun _ => true) (fun _ => [.vd, .imm32, .km, .zm]) fun s _ _ w => immOp s w fun _ => vImm32 w
def viotaOp : VecOp := mkVec rneOnly (fun _ => true) (fun _ => [.vd, .imm32, .km, .zm]) fun s _ _ w => immOp s w fun e => vImm32 w + e

def vaddOp : VecOp := floatInstr srcAB [.va, .vb] fun f vs => roundElem f vs false ((v0 vs).add (v1 vs))
def vsubOp : VecOp := floatInstr srcAB [.va, .vb] fun f vs => roundElem f vs false ((v0 vs).add (v1 vs).negate)
def vmulOp : VecOp := floatInstr srcAB [.va, .vb] fun f vs => roundElem f vs false ((v0 vs).mul (v1 vs))
def vfmaOp : VecOp := floatInstr srcABC [.va, .vb, .vc] fun f vs => roundElem f vs false (((v0 vs).mul (v1 vs)).add (v2 vs))
def vmaxOp : VecOp := floatInstr srcAB [.va, .vb] fun f vs => exactElem f vs ((v0 vs).max (v1 vs))
def vminOp : VecOp := floatInstr srcAB [.va, .vb] fun f vs => exactElem f vs ((v0 vs).min (v1 vs))
def vabsOp : VecOp := floatInstr srcA [.va] fun f vs => exactElem f vs (v0 vs).abs
def vnegOp : VecOp := floatInstr srcA [.va] fun f vs => exactElem f vs (v0 vs).negate

def vcmpOp : VecOp := mkVec arithFmt kdOk (fun _ => [.va, .vb, .fmt, .km, .kd, .cond3]) fun s _ _ w =>
  let f := fmtOf w
  cmpOp s w f.bits fun a b =>
    let x := decodeFloat f a
    let y := decodeFloat f b
    (floatCond (vCond w) x y, fl (x.isNan || y.isNan) flNANIN)

def vselOp : VecOp := mkVec arithFmt (fun _ => true) (fun _ => [.vd, .va, .vb, .fmt, .km]) fun s _ _ w => selOp s w

def vexpOp : VecOp := floatInstr srcA [.va] fun f vs => roundElem f vs false (expExact (v0 vs))
def vrcpOp : VecOp := floatInstr srcA [.va] fun f vs =>
  roundElem f vs (match v0 vs with | .zero _ => true | _ => false) (rcpExact (v0 vs))
def vrsqOp : VecOp := floatInstr srcA [.va] fun f vs =>
  roundElem f vs (match v0 vs with | .zero _ => true | _ => false) (rsqExact (v0 vs))

/-- A reduction. -/
def redInstr (out : BitVec 256 → Nat) (red : Fmt → List (Option Val) → Elem) : VecOp :=
  mkVec arithFmt (fun _ => true) (fun _ => [.vd, .va, .fmt, .km]) fun s _ _ w => reduceOp s w (out w) red

def vrsumOp : VecOp := redInstr (fun _ => 32) fun _ xs => rsumElem xs
def vrmaxOp : VecOp := redInstr (fun w => (fmtOf w).bits) fun f xs => rselElem f Val.max (.inf true) xs
def vrminOp : VecOp := redInstr (fun w => (fmtOf w).bits) fun f xs => rselElem f Val.min (.inf false) xs

def iaddOp : VecOp := intInstr srcAB [.va, .vb] fun _ xs => i0 xs + i1 xs
def isubOp : VecOp := intInstr srcAB [.va, .vb] fun _ xs => i0 xs - i1 xs
def imulOp : VecOp := intInstr srcAB [.va, .vb] fun _ xs => i0 xs * i1 xs
def imulhiOp : VecOp := intInstr srcAB [.va, .vb] fun _ xs => BitVec.ofNat 32 ((i0 xs).toNat * (i1 xs).toNat / 2 ^ 32)
def iandOp : VecOp := intInstr srcAB [.va, .vb] fun _ xs => i0 xs &&& i1 xs
def iorOp : VecOp := intInstr srcAB [.va, .vb] fun _ xs => i0 xs ||| i1 xs
def ixorOp : VecOp := intInstr srcAB [.va, .vb] fun _ xs => i0 xs ^^^ i1 xs
def ishlOp : VecOp := intInstr srcA [.va, .imm5] fun w xs => i0 xs <<< (vImm16 w % 32)
def ishrOp : VecOp := intInstr srcA [.va, .imm5] fun w xs => i0 xs >>> (vImm16 w % 32)

def icmpOp : VecOp := mkVec rneOnly kdOk (fun _ => [.va, .vb, .km, .kd, .cond3]) fun s _ _ w =>
  cmpOp s w 32 fun a b => (intCond (vCond w) (BitVec.ofNat 32 a) (BitVec.ofNat 32 b), 0)

/-- VCVT: both formats of R117 and different; stochastic rounding into any format but FP32 (R130, R169). -/
def vcvtFmt (w : BitVec 256) : Bool :=
  decide (1 ≤ vFmt w ∧ vFmt w ≤ 8) && decide (1 ≤ vFmt2 w ∧ vFmt2 w ≤ 8) && vFmt w != vFmt2 w && decide (vRnd w ≤ 1) &&
    !(vRnd w == 1 && vFmt2 w == 8)

def partOk (w : BitVec 256) (f : Fmt) : Bool := f.bits == 32 || decide (vPart w < 32 / f.bits)

def vcvtInstr : VecOp := mkVec vcvtFmt (fun w => partOk w (fmtOf w) && partOk w (fmt2Of w))
  (fun w => [.vd, .va, .fmt, .fmt2, .zm, .km, .part] ++ (if vRnd w == 1 then [.vb, .imm8] else []) ++
    (if isF8' (vFmt w) || isF8' (vFmt2 w) then [.sc] else []) ++
    (if scaledSide (fmtOf w) (vSC w) || scaledSide (fmt2Of w) (vSC w) then [.vc] else []))
  fun s seed step w => vcvtOp s seed step w
where
  isF8' (c : Nat) : Bool := c == 3 || c == 4

def vpextInstr : VecOp := mkVec rneOnly
  (fun w => (vImm16 w % 4 == 2 || vImm16 w % 4 == 3) && decide (vPart w < 2) && decide (vVD w + vImm16 w % 4 ≤ 32))
  (fun _ => [.vd, .va, .imm2, .part, .zm, .km]) fun s _ _ w => vpextOp s w

/-- KOP: COND 0 to 4 write KD from KA and KB, 5 from VA, 6 writes VD; 7 is invalid (R164, R189). -/
def kopInstr : VecOp := mkVec rneOnly (fun w => vCond w % 8 != 7 && (vCond w == 6 || kdOk w))
  (fun w => [.cond3] ++ match vCond w % 8 with
    | 4 => [.kd, .ka]
    | 5 => [.kd, .va]
    | 6 => [.vd, .ka]
    | _ => [.kd, .ka, .kb])
  fun s _ _ w => kopOp s w

def vflagInstr : VecOp := mkVec rneOnly (fun _ => true) (fun _ => [.vd, .cond1]) fun s _ _ w => (vflagOp s w, Acc.zero)

def vrngInstr : VecOp := mkVec rneOnly (fun _ => true) (fun _ => [.vd, .va, .zm, .km]) fun s seed _ w => vrngOp s seed w

/-- The register instruction of an opcode (R163). -/
def vecOpOf : Nat → Option VecOp
  | 0x22 => some vbcastOp | 0x23 => some viotaOp | 0x24 => some vaddOp | 0x25 => some vsubOp | 0x26 => some vmulOp
  | 0x27 => some vfmaOp | 0x28 => some vmaxOp | 0x29 => some vminOp | 0x2A => some vabsOp | 0x2B => some vnegOp
  | 0x2C => some vcmpOp | 0x2D => some vselOp | 0x30 => some vexpOp | 0x31 => some vrcpOp | 0x32 => some vrsqOp
  | 0x34 => some vrsumOp | 0x35 => some vrmaxOp | 0x36 => some vrminOp | 0x38 => some iaddOp | 0x39 => some isubOp
  | 0x3A => some imulOp | 0x3B => some imulhiOp | 0x3C => some iandOp | 0x3D => some iorOp | 0x3E => some ixorOp
  | 0x3F => some ishlOp | 0x40 => some ishrOp | 0x41 => some icmpOp | 0x44 => some vcvtInstr | 0x45 => some vpextInstr
  | 0x48 => some kopInstr | 0x49 => some vflagInstr | 0x4C => some vrngInstr
  | _ => none

end Sys2Proof.Machine
end

