-- ==== Sys2Proof/Machine/Sequencer.lean ====
section
/-!
DEFINITION. Sequencer.lean: fetching, interlocks, issue, the units' queues and completion of tile programs (R90 to R94,
R115, R258 to R264, R290, R302 to R304, R383).
-/

namespace Sys2Proof.Machine

/-! ## Fetching (R90, R388) -/

/-- What the sequencer finds at its next position: a word, a poisoned word, or a place it does not fetch from. -/
inductive Fetched where
  | word (w : BitVec 256)
  | poisoned
  | outside (addr : Nat)
  deriving DecidableEq, Repr

def wordAt (t : Tile) (p : Prog) (pos : Nat) : BitVec 256 :=
  if p.words.isEmpty then BitVec.ofNat 256 (leNat (t.read pos 32)) else p.words.getD (pos / 32) 0

def fetchAt (t : Tile) (sh : Share) (p : Prog) : Fetched :=
  if p.words.isEmpty then
    if !inShare sh p.pos 32 || decide (p.top < p.pos + 32) then .outside p.pos
    else if t.readBad p.pos 32 then .poisoned else .word (wordAt t p p.pos)
  else if p.top < p.pos + 32 then .outside p.pos else .word (wordAt t p p.pos)

/-- The program of tile `n`, when it may issue now: not ended, its tenant on the tile, no wait, no BARRIER and no acquire in force
(R94, R303). -/
def State.issuing (s : State) (n : Nat) : Option Prog :=
  let t := s.tile n
  t.prog.filter fun p => !p.ended && s.holds p.tenant n && t.slotWait.isNone && t.cwait.isNone && !(p.barrier && !t.flight.isEmpty) &&
    !(t.flight.any fun f => f.unit == 0 && (wOpc f.word == 0x08 || wOpc f.word == 0x0A))

/-- The read of the program word that is fetched (R248). -/
def State.fetchRead (s : State) (n : Nat) (p : Prog) : State := if p.words.isEmpty then s.eccRead n p.pos 32 else s

/-- The position after the instruction at `pos`, through the ends of LOOP bodies (R92). -/
def advance : List LoopSt → Nat → List LoopSt × Nat
  | [], pos => ([], pos)
  | l :: rest, pos =>
    if pos < l.pos + 32 * l.body then (l :: rest, pos)
    else if 1 < l.runs then ({ l with runs := l.runs - 1 } :: rest, l.pos)
    else advance rest pos

def Prog.next (p : Prog) : Prog :=
  let (ls, pos) := advance p.loops (p.pos + 32)
  { p with loops := ls, pos := pos, barrier := false }

/-- A violation on a tile: the word that raised it stays the next one (R115, R489). -/
def State.tileFault (s : State) (n : Nat) (p : Prog) (code addr : Nat) : State :=
  s.raiseCmd p.tenant p.by_ code { tile := some n, addr := addr }

/-! ## Ranges (R94, R264, R289, R301) -/

def mmRanges (w : BitVec 256) : List (Nat × Nat × Bool) :=
  let a := mmArgs w
  [(a.wOff, a.p * a.wBytes, false)] ++ (if a.bsW then [(a.wsOff, a.wsBytes, false)] else []) ++
  (if a.aCirc then [] else [(a.aOff, (a.m - 1) * a.aPitch + a.aBytes, false)]) ++
  (if a.oCirc then [] else [(a.oOff, (a.m - 1) * a.oPitch + 4 * a.n, true)])

def vmemRanges (w : BitVec 256) (store : Bool) : List (Nat × Nat × Bool) := if vCirc w then [] else [(vOff w, 1024, store)]

def statRanges (w : BitVec 256) : List (Nat × Nat × Bool) :=
  let a := statArgs w
  [(a.rec_, recBytes a.c, true)] ++
  (if a.mode < 2 then (if a.inCirc then [] else [(a.inOff, (a.m - 1) * a.pitch + a.c * inBytes a.fmt, false)])
   else if a.mode = 3 then [(a.inOff, recBytes a.c, false)] else [])

def qcRanges (w : BitVec 256) : List (Nat × Nat × Bool) :=
  let a := qcArgs w
  (if a.inCirc then [] else [(a.inOff, (a.m - 1) * a.inPitch + a.c * inBytes a.fmtIn, false)]) ++
  (if a.outCirc then [] else [(a.outOff, (a.m - 1) * a.pitch + a.outBytes, true)]) ++
  (if a.useRec then [(a.aux, recBytes a.c, false)] else []) ++ (if a.sBytes = 0 then [] else [(a.sOff, a.sBytes, true)]) ++
  (if a.useRec ∧ a.lay = 0 then [(a.xOff, 256 * a.m, true)] else [])

/-- The scratchpad ranges of an instruction outside its circular sides: offset, length, written. -/
def rangesOf (w : BitVec 256) : List (Nat × Nat × Bool) :=
  let o := wOpc w
  if o = 0x10 ∨ o = 0x11 then mmRanges w
  else if o = 0x20 ∨ o = 0x21 then vmemRanges w (o == 0x21)
  else if o = 0x50 then statRanges w
  else if o = 0x51 then qcRanges w
  else if o = 0x52 then
    let a := topkArgs w
    (if a.inCirc then [] else [(a.inOff, (a.m - 1) * a.pitch + a.e * inBytes a.fmt, false)]) ++
      [(a.idx, (a.m - 1) * 32 + 2 * a.k, true), (a.val, (a.m - 1) * 64 + 4 * a.k, true)]
  else if o = 0x53 then
    let a := sampArgs w
    [(a.inOff, (a.m - 1) * a.pitch + a.v * inBytes a.fmt, false), (a.par, a.m * 32, false), (a.tok, a.m * 4, true)]
  else if o = 0x60 then
    let a := atArgs w
    (if a.qCirc then [] else [(a.qOff, a.m * a.qp, false)]) ++ (if a.oCirc then [] else [(a.oOff, a.m * a.op, true)]) ++
      [(a.rec_, 32 * a.m, false)]
  else if o = 0x61 then
    let a := atArgs w
    [(a.qOff, a.m * a.g * a.ss, false), (a.oOff, a.m * max a.op (a.g * a.ss), true)]
  else if o = 0x70 then
    (if bf w 167 151 = 0 then [] else [(bf w 150 128, 64 * bf w 167 151, false)]) ++
      (if bf w 207 191 = 0 then [] else [(bf w 190 168, 64 * bf w 207 191, true)])
  else if o = 0x71 then [(vOff w, 64, false)]
  else if o = 0x72 then [(vOff w + 0x10, 8, true)]
  else if o = 0x7A then [((cxArgs w).src, 96, false)]
  else if 0x78 ≤ o ∧ o ≤ 0x7B then
    let a := cxArgs w
    (if a.srcCirc then [] else [(a.src, cxInBytes o a, false)]) ++ (if a.dstCirc then [] else [(a.dst, cxOutBytes o a, true)])
  else []

/-- The ranges entered in the range table: those that lie inside an open circular region are not. -/
def entered (t : Tile) (tenant : Nat) (w : BitVec 256) : List (Nat × Nat × Bool) :=
  (rangesOf w).filter fun (off, len, _) => !t.regions.any fun r =>
    r.tenant == tenant && decide (r.base ≤ off ∧ off + len ≤ r.base + r.slots * r.slotBytes)

/-! ## Interlocks (R94, R304) -/

def clash (a b : Nat × Nat × Bool) : Bool := (a.2.2 || b.2.2) && decide (0 < a.2.1) && decide (0 < b.2.1) && overlap a.1 a.2.1 b.1 b.2.1

/-- Is a release still to complete, which holds back writes outside the scratchpad (R304)? -/
def Tile.releasing (t : Tile) : Bool := t.flight.any fun f => f.unit == 0 && wOpc f.word == 0x09

/-- Does nothing hold the instruction back? An XSTART whose channel has taken its chain is in the transfer unit's queue no more
(R260). -/
def interlocksOk (t : Tile) (w : BitVec 256) (unit : Nat) (ranges : List (Nat × Nat × Bool)) : Bool :=
  let mine := t.flight.filter (·.unit == unit)
  let held := t.flight.flatMap (·.ranges)
  decide ((mine.filter fun f => unit != 4 || !f.begun).length < 3) && (!wSync w || mine.isEmpty) && decide (held.length + ranges.length ≤ 32) &&
  !(ranges.any fun r => held.any (clash r)) &&
  !((unit == 4 || unit == 5) && t.releasing)

/-! ## Running a unit's instructions -/

/-- Region descriptors an instruction names (R261). -/
def regionsOf (w : BitVec 256) : List Nat :=
  let o := wOpc w
  if o = 0x10 ∨ o = 0x11 then
    let a := mmArgs w
    (if a.aCirc then [a.aOff] else []) ++ (if a.oCirc then [a.oOff] else [])
  else if o = 0x20 ∨ o = 0x21 then (if vCirc w then [vOff w] else [])
  else if o = 0x50 then (if (statArgs w).inCirc then [(statArgs w).inOff] else [])
  else if o = 0x51 then
    let a := qcArgs w
    (if a.inCirc then [a.inOff] else []) ++ (if a.outCirc then [a.outOff] else [])
  else if o = 0x52 then (if (topkArgs w).inCirc then [(topkArgs w).inOff] else [])
  else if o = 0x60 then
    let a := atArgs w
    a.ring :: ((if a.qCirc then [a.qOff] else []) ++ (if a.oCirc then [a.oOff] else []))
  else if o = 0x73 ∨ o = 0x74 then [vOff w]
  else if 0x78 ≤ o ∧ o ≤ 0x7B then
    let a := cxArgs w
    (if a.srcCirc then [a.src] else []) ++ (if a.dstCirc then [a.dst] else [])
  else []

/-- Take an instruction's slots (R258). -/
def claimOf (t : Tile) (w : BitVec 256) : Tile × Nat × Nat :=
  let two (t : Tile) (i o : RowSide) (m : Nat) : Tile × Nat × Nat :=
    let (t, a) := claimSide t i m true
    let (t, b) := claimSide t o m false
    (t, a, b)
  let o := wOpc w
  if o = 0x10 ∨ o = 0x11 then let a := mmArgs w; two t a.inSide a.outSide a.m
  else if o = 0x20 ∨ o = 0x21 then
    if vCirc w then
      match t.region (vOff w) with
      | some r => (t.updRegion (vOff w) fun r => r.claim (o == 0x20) (vCond w % 2), r.claimed (o == 0x20), 0)
      | none => (t, 0, 0)
    else (t, 0, 0)
  else if o = 0x50 then
    let a := statArgs w
    if a.mode < 2 then two t (streamSide t a.inCirc a.inOff a.pitch) .absent a.m else (t, 0, 0)
  else if o = 0x51 then
    let a := qcArgs w
    two t (streamSide t a.inCirc a.inOff a.inPitch) (streamSide t a.outCirc a.outOff a.pitch) a.m
  else if o = 0x52 then let a := topkArgs w; two t (streamSide t a.inCirc a.inOff a.pitch) .absent a.m
  else if o = 0x60 then let a := atArgs w; two t (atInSide t a) (atOutSide t a) a.m
  else if o = 0x73 ∨ o = 0x74 then
    let cons := bf w 32 32 == 0
    match t.region (vOff w) with
    | some r => (t.updRegion (vOff w) fun r => r.claim cons (o - 0x73), r.claimed cons, 0)
    | none => (t, 0, 0)
  else if 0x78 ≤ o ∧ o ≤ 0x7B ∧ o ≠ 0x7A then let a := cxArgs w; two t (cxIn t o a) (cxOut t o a) a.rows
  else (t, 0, 0)

/-- Where an instruction of the matrix unit stands. -/
def mmCursor (t : Tile) (f : InFlight) : Cursor :=
  (t.mx.filter fun _ => f.begun).getD
    { id := f.id, word := f.word, inS := f.inS, outS := f.outS, row := 0, load := none, reloads := 0, split := false }

/-- Begin an instruction of the matrix, vector or attention unit, or go on with it from its waiting row. -/
def runTile (t : Tile) (sh : Share) (f : InFlight) : Tile × Bool :=
  let w := f.word
  let o := wOpc w
  let row := if f.begun then (t.vu.map (·.row)).getD 0 else 0
  let vec (r : Tile × Option Nat) : Tile × Bool := ({ r.1 with vu := r.2.map fun m => { mmCursor t f with row := m, load := none } }, r.2.isNone)
  if o = 0x10 ∨ o = 0x11 then
    let t := (mmRun (o == 0x11) t (mmCursor t f)).1
    (t, t.mx.isNone)
  else if o = 0x20 then vec (memRun t w true f.inS)
  else if o = 0x21 then vec (memRun t w false f.inS)
  else if o = 0x50 then
    match (statArgs w).mode with
    | 2 => (statFinish t w, true)
    | 3 => (statMerge t w, true)
    | _ => vec (statRun (if f.begun then t else statBegin t w) w f.inS row)
  else if o = 0x51 then vec (qcRun t w f.inS f.outS row)
  else if o = 0x52 then vec (topkRun t w f.inS row)
  else if o = 0x53 then (sampRun t w, true)
  else if o = 0x60 then
    if f.begun then
      match t.at_ with
      | some x =>
        let (t, x') := attnAdvance sh attnFuel t x
        ({ t with at_ := x' }, x'.isNone)
      | none => (t, true)
    else let t := attnBegin t sh f.id w f.inS f.outS; (t, t.at_.isNone)
  else if o = 0x61 then (mergeRun t w, true)
  else
    match vecOpOf o, t.prog with
    | some v, some p =>
      let (ve, a) := v.run t.ve p.seed p.step w
      let t := (({ t with ve := ve }).orFlags a.flags).count a.sat a.flush a.nan
      (t.noteErr 0x56 a.poison, true)
    | _, _ => (t, true)

/-! ## What an instruction reads meets the scratchpad's errors (R87, R248) -/

/-- The reads of an instruction outside its circular sides; of an ATTN also the global lists and self keys of its records. -/
def plainReads (t : Tile) (sh : Share) (w : BitVec 256) : List (Nat × Nat) :=
  let o := wOpc w
  ((rangesOf w).filter fun r => !r.2.2).map (fun r => (r.1, r.2.1)) ++
    (if (o = 0x10 ∨ o = 0x11) ∧ (mmArgs w).acc then [((mmArgs w).oOff, ((mmArgs w).m - 1) * (mmArgs w).oPitch + 4 * (mmArgs w).n)] else []) ++
    (if o = 0x60 then
      let a := atArgs w
      (recsOf t sh a 0 a.m).flatMap fun r => (if r.valid && !r.invalid then
        (if r.gcount = 0 then [] else [(r.glist, 4 * r.gcount)]) ++
          (if r.self then [(r.selfKv, 2 * a.rowBytes + kvExtra a.fmtKv)] else []) else []) else [])

/-- The rows of an instruction's circular input: the side, the bytes of a row, and the rows. -/
def circRows (t : Tile) (w : BitVec 256) : RowSide × Nat × Nat :=
  let o := wOpc w
  if o = 0x10 ∨ o = 0x11 then let a := mmArgs w; (a.inSide, a.aBytes, a.m)
  else if o = 0x50 ∧ (statArgs w).mode < 2 then
    let a := statArgs w; (streamSide t a.inCirc a.inOff a.pitch, a.c * inBytes a.fmt, a.m)
  else if o = 0x51 then let a := qcArgs w; (streamSide t a.inCirc a.inOff a.inPitch, a.c * inBytes a.fmtIn, a.m)
  else if o = 0x52 then let a := topkArgs w; (streamSide t a.inCirc a.inOff a.pitch, a.e * inBytes a.fmt, a.m)
  else if o = 0x60 then let a := atArgs w; (atInSide t a, a.g * a.d * 2, a.m)
  else (.absent, 0, 0)

/-- The row that an instruction's unit waits at, `all` when it has ended. -/
def rowAt (t : Tile) (unit all : Nat) : Nat :=
  if unit = 1 then (t.mx.map (·.row)).getD all
  else if unit = 2 then (t.vu.map (·.row)).getD all
  else (t.at_.map fun x => x.row + x.got).getD all

/-- What a run of an instruction from `t` to `t'` reads out of slots: rows, the whole slot of a VLD, groups of the key ring. -/
def slotReads (t t' : Tile) (f : InFlight) : List (Nat × Nat) :=
  let w := f.word
  let (side, bytes, all) := circRows t w
  let from_ := if f.begun then rowAt t f.unit all else 0
  (match side with
    | .circ _ _ _ => (List.range (rowAt t' f.unit all - from_)).map fun i => (side.addr t f.inS (from_ + i), bytes)
    | _ => []) ++
  (if wOpc w = 0x20 ∧ vCirc w ∧ t'.vu.isNone then
    match t.region (vOff w) with
    | some r => [(r.slotAddr f.inS + vImm32 w, 1024)]
    | none => []
   else if wOpc w = 0x60 then
    match t.region (atArgs w).ring, t'.region (atArgs w).ring with
    | some r, some r' => (List.range ((r'.claimC + r.slots - r.claimC) % r.slots)).map fun i =>
        (r.slotAddr ((r.claimC + i) % r.slots), (atArgs w).sg)
    | _, _ => []
   else [])

/-- The errors that an instruction's next run meets. -/
def State.meetReads (s : State) (n : Nat) (sh : Share) (f : InFlight) : State :=
  let t := s.tile n
  if t.flaws.isEmpty then s
  else
    let read (s : State) (xs : List (Nat × Nat)) : State := xs.foldl (fun s (o, k) => s.eccRead n o k) s
    let s := if f.begun then s else read s (plainReads t sh f.word)
    read s (slotReads t (runTile t sh f).1 f)

/-- Count the loads that KEEP_W did not skip, and an instruction that runs in several groups, once (R101, R113, R548). -/
def State.countLoads (s : State) (n : Nat) (c : Cursor) (c' : Option Cursor) : State :=
  match c' with
  | none => s
  | some x =>
    let s := s.bump (0xA01018 + 0x20 * n) (x.reloads - c.reloads)
    if x.split && !c.split then s.bump (0xA0101C + 0x20 * n) 1 else s

/-- Run an instruction of the transfer unit in its turn (R260, R261, R264): the state, and whether it has been done; a
chain goes on in its channel until it ends. -/
def State.runXfer (s : State) (n : Nat) (p : Prog) (f : InFlight) : State × Bool × Bool :=
  let t := s.tile n
  let w := f.word
  let desc := vOff w
  match wOpc w with
  | 0x70 =>
    let key := 8 * p.tenant + bf w 34 32
    if (s.chan n key).isSome then (s, false, false)
    else
      let c : Chan :=
        { tenant := p.tenant, csp := bf w 35 35 == 1, maxOut := bf w 57 48 + 1, rd := (bf w 150 128, bf w 167 151 * 64),
          wr := (bf w 190 168, bf w 207 191 * 64), fetched := [], next := bf w 127 64, active := [], begun := 0, last := false,
          stopped := false, xstart := f.id, seed := p.seed, step := p.step, by_ := none,
          owner := p.by_, inst := p.xord, remote := 0 }
      ((s.setChan n key (some c)).updTile n fun t => { t with prog := t.prog.map fun p => { p with xord := p.xord + 1 } },
        true, false)
  | 0x71 =>
    let s := s.eccRead n desc 64
    let t := s.tile n
    let sh := s.share p.tenant
    let mine := t.regions.filter (·.tenant == p.tenant)
    let banks := ((s.part p.tenant).map (·.spmBanks)).getD 0
    if t.readBad desc 64 then (s.tileFault n p 0x06 desc, false, false)
    else match openRegion t p.tenant sh desc with
      | none => (s.tileFault n p 0x74 desc, false, false)
      | some r =>
        if (t.region desc).isSome || decide (2 * banks < mine.length + 1) ||
            decide (256 * banks < (mine.map (·.slots)).sum + r.slots) then (s.tileFault n p 0x74 desc, false, false)
        else (s.updTile n fun t => { t with regions := t.regions ++ [r] }, true, true)
  | 0x72 =>
    match t.region desc with
    | none => (s.tileFault n p 0x74 desc, false, false)
    | some r =>
      let side (x : Side) : Bool := (x.cls == 1 && (s.chan n (8 * p.tenant + x.chan)).isSome) ||
        (x.cls == 2 && (s.chan x.tile (8 * p.tenant + x.chan)).isSome)
      let busy := (t.flight.any fun g => decide (g.id < f.id) && (regionsOf g.word).contains desc) ||
        (t.marks.any fun m => m.desc == desc) || side r.prod || side r.cons
      if busy then (s, false, false)
      else (s.updTile n fun t =>
        { t.write (desc + 0x10) (leBytes 4 r.heads ++ leBytes 4 r.tails) false with
          regions := t.regions.filter (·.desc != desc) }, true, true)
  | 0x73 =>
    let full := bf w 32 32 == 0
    match t.region desc with
    | none => (s.tileFault n p 0x74 desc, false, false)
    | some r => if r.full f.inS == full then (s.updTile n fun t => { t with slotWait := none }, true, true) else (s, false, false)
  | _ =>
    (s.updTile n fun t => { t with marks := t.marks ++ [⟨desc, f.inS, bf w 32 32 == 1, f.id⟩] }, true, true)

/-- The codec of a die that an instruction names (R277). -/
def codecOf (n : Nat) (w : BitVec 256) : Nat := 2 * (n / 16) + bf w 32 32

def slotKey (codec tenant slot : Nat) : Nat := 64 * codec + 4 * tenant + slot

/-- The busy count of a table slot (R287): the encode requests that name it, and the blocks in the queues that count on it. -/
def State.slotBusy (s : State) (codec tenant slot : Nat) : Nat :=
  (s.cdx.reqs.filter fun (k, r) => k == codec && r.tenant == tenant && r.word.toNat % 256 == 0x78 && !(cxArgs r.word).notab &&
    (cxArgs r.word).slot == slot).length +
  ((s.cdx.inq ++ s.cdx.outq).filter fun b => b.codec == codec && b.tenant == tenant && b.slot == some slot).length

/-- Hand a codec instruction to its codec (R287, R290, R292, R297). -/
def State.acceptCodec (s : State) (n : Nat) (p : Prog) (f : InFlight) : State :=
  let w := f.word
  let a := cxArgs w
  let codec := codecOf n w
  let table := if wOpc w = 0x78 ∧ !a.notab then aget s.cdx.slots (slotKey codec p.tenant a.slot) else none
  let t := s.tile n
  let hist := if wOpc w = 0x7B ∧ a.hacc then (List.range 65).map fun i => leNat (t.read (a.dst + 4 * i) 4) else List.replicate 65 0
  let r : CxReq := { tile := n, tenant := p.tenant, id := f.id, word := w, table := table, inS := f.inS, outS := f.outS, block := 0, hist := hist }
  let s : State := { s with cdx := { s.cdx with reqs := s.cdx.reqs ++ [(codec, r)] } }
  if wOpc w = 0x78 ∧ !a.notab ∧ table.isNone then s.updTile n fun t => t.noteErr 0x95 true else s

/-- Enter the error codes that the instruction `id` has met and that stand in no entry yet (R484). -/
def State.drainNotes (s : State) (n id : Nat) : State :=
  match (s.tile n).prog with
  | none => s
  | some p =>
    let known := (((s.tile n).flight.find? (·.id == id)).map (·.noted)).getD []
    let new := p.notes.filter fun c => !known.contains c.1
    let s := new.foldl (fun s (c, x) => s.raiseCmd p.tenant p.by_ c { tile := some n, session := x }) s
    s.updTile n fun t => { t with
      prog := t.prog.map fun p => { p with notes := [] },
      flight := t.flight.map fun f => if f.id = id then { f with noted := f.noted ++ new.map (·.1) } else f }

def Tile.markFlight (t : Tile) (id : Nat) (begun done : Bool) : Tile :=
  { t with flight := t.flight.map fun f => if f.id = id then { f with begun := begun, done := done } else f }

/-- Let the transfer unit go on: its instructions execute one at a time in issue order, an XSTART until its channel has taken the
chain (R260). -/
def State.runXfers (s : State) (n : Nat) : Nat → State
  | 0 => s
  | fuel + 1 =>
    let t := s.tile n
    match t.prog, t.flight.find? fun f => f.unit == 4 && !f.begun with
    | some p, some f =>
      let (s, begun, done) := s.runXfer n p f
      let s := s.updTile n fun t => t.markFlight f.id begun done
      if begun then s.runXfers n fuel else s
    | _, _ => s

/-- Let a compute unit go on with an instruction. -/
def State.runCompute (s : State) (n : Nat) (sh : Share) (f : InFlight) : State :=
  let s := s.meetReads n sh f
  let t := s.tile n
  if f.unit = 1 then
    let c := mmCursor t f
    let (t, c') := mmRun (wOpc f.word == 0x11) t c
    (((s.setTile n (t.markFlight f.id true t.mx.isNone)).countLoads n c c').drainNotes n f.id)
  else
    let (t, done) := runTile t sh f
    (s.setTile n (t.markFlight f.id true done)).drainNotes n f.id

/-- Let a unit go on: its oldest instruction that has not completed begins, or continues where it waits. -/
def State.runUnit (s : State) (n unit : Nat) : State :=
  let t := s.tile n
  match t.prog, t.flight.find? (·.unit == unit) with
  | some p, some f =>
    if !s.holds p.tenant n then s
    else if unit = 4 then s.runXfers n 4
    else if f.done || unit = 0 then s
    else if unit = 5 then
      if f.begun then s
      else ((s.acceptCodec n p f).updTile n fun t => t.markFlight f.id true false).drainNotes n f.id
    else s.runCompute n (s.share p.tenant) f
  | _, _ => s

/-! ## Issue (R94, R115) -/

/-- Issue the word `w` on tile `n`, when it is the next one, its opcode is `opc` and nothing holds it back: the checks of
its unit, its slots, its ranges; then the unit goes on. -/
def State.issue (s : State) (n : Nat) (w : BitVec 256) (opc unit : Nat)
    (check : State → Prog → Tile → Share → Option (Nat × Nat)) : State :=
  let t := s.tile n
  match s.issuing n with
  | none => s
  | some p =>
    let sh := s.share p.tenant
    let ranges := entered t p.tenant w
    if fetchAt t sh p ≠ .word w ∨ wOpc w ≠ opc ∨ !interlocksOk t w unit ranges then s
    else match check s p t sh with
      | some (code, addr) => s.tileFault n p code addr
      | none =>
        let s := s.fetchRead n p
        let t := s.tile n
        let id := t.nextId
        let (t, inS, outS) := claimOf t w
        let f : InFlight := { id := id, unit := unit, word := w, inS := inS, outS := outS, ranges := ranges, begun := false,
                              done := false, noted := [] }
        let t := { t with nextId := id + 1, flight := t.flight ++ [f], prog := some p.next,
                          slotWait := if opc = 0x73 then some (vOff w, inS, bf w 32 32 == 0) else t.slotWait }
        let s := ((s.setTile n t).addQuad (0xA01008 + 0x20 * n) 1).addQuad (0xA02040 + 0x100 * p.tenant) 1
        if unit = 4 ∨ (t.flight.filter (·.unit == unit)).length = 1 then s.runUnit n unit else s

/-- A sequencer control or ordering instruction, which no unit holds (R92, R302): `check` finds its violation, `act` is its
effect at issue. -/
def State.control (s : State) (n : Nat) (w : BitVec 256) (opc : Nat) (check : Prog → Tile → Option (Nat × Nat))
    (act : State → Prog → State) : State :=
  let t := s.tile n
  match s.issuing n with
  | none => s
  | some p =>
    if fetchAt t (s.share p.tenant) p ≠ .word w ∨ wOpc w ≠ opc ∨ (wSync w ∧ t.flight.any (·.unit == 0)) then s
    else match check p t with
      | some (code, addr) => s.tileFault n p code addr
      | none =>
        let s := (s.fetchRead n p).updTile n fun t => { t with prog := some p.next }
        act ((s.addQuad (0xA01008 + 0x20 * n) 1).addQuad (0xA02040 + 0x100 * p.tenant) 1) p

def headOk (w : BitVec 256) : Bool := bf w 31 25 == 0

/-- Every bit above the header but those of `mask` is zero. -/
def onlyBits (w : BitVec 256) (mask : Nat) : Bool := headOk w && w.toNat / 2 ^ 32 * 2 ^ 32 &&& (2 ^ 256 - 1 - mask) == 0

def opcGuard (ok : Bool) : Option (Nat × Nat) := if ok then none else some (0x40, 0)

/-! ## Launches and what stops a fetch -/

/-- At the start of a tile program the spare lane takes the place of the lane that a swap has taken out (R157). -/
def State.takeLane (s : State) (n : Nat) : State :=
  match s.physKey n with
  | some k => s.updPtile k fun x => { x with laneOut := x.badLanes.getLast?.filter fun i => decide (i < 64) }
  | none => s

/-- PROGRAM_LAUNCH (R94, R157, R159): the launch waiting on the tile begins, with registers, masks and flags at zero. -/
def execProgramLaunch (t : Nat) (s : State) : Host.Outcome State Fault Refusal :=
  let x := s.tile t
  match x.launch with
  | none => .next s
  | some p =>
    if x.prog.isSome || !s.holds p.tenant t then .next s
    else .next ((s.takeLane t).setTile t { x with prog := some p, launch := none, ve := Ve.launch })

/-- TILE_FETCH_FAULT (R90, R388, R487): the next word cannot be fetched, or is poisoned. -/
def execTileFetchFault (t : Nat) (s : State) : Host.Outcome State Fault Refusal :=
  match s.issuing t with
  | none => .next s
  | some p =>
    match fetchAt (s.tile t) (s.share p.tenant) p with
    | .outside a => .next (s.tileFault t p 0x40 a)
    | .poisoned => .next ((s.fetchRead t p).tileFault t p 0x06 p.pos)
    | .word _ => .next s

/-- Is an opcode assigned (R91, R163, R260, R302)? -/
def assigned (o : Nat) : Bool :=
  decide (o < 4) || decide (8 ≤ o ∧ o ≤ 0x0C) || o == 0x10 || o == 0x11 || o == 0x20 || o == 0x21 || (vecOpOf o).isSome ||
  decide (0x50 ≤ o ∧ o ≤ 0x53) || o == 0x60 || o == 0x61 || decide (0x70 ≤ o ∧ o ≤ 0x74) || decide (0x78 ≤ o ∧ o ≤ 0x7B)

/-- INVALID_OPCODE (R91). -/
def execInvalidOpcode (t : Nat) (w : BitVec 256) (s : State) : Host.Outcome State Fault Refusal :=
  match s.issuing t with
  | none => .next s
  | some p => if fetchAt (s.tile t) (s.share p.tenant) p = .word w ∧ !assigned (wOpc w) then .next (s.tileFault t p 0x40 p.pos) else .next s

/-! ## Sequencer control (R92) -/

def execNop (t : Nat) (w : BitVec 256) (s : State) : Host.Outcome State Fault Refusal :=
  .next (s.control t w 0 (fun _ _ => opcGuard (onlyBits w 0)) fun s _ => s)

def execEndProgram (t : Nat) (w : BitVec 256) (s : State) : Host.Outcome State Fault Refusal :=
  .next (s.control t w 1 (fun _ _ => opcGuard (onlyBits w 0)) fun s _ =>
    s.updTile t fun t => { t with prog := t.prog.map fun p => { p with ended := true } })

def execBarrier (t : Nat) (w : BitVec 256) (s : State) : Host.Outcome State Fault Refusal :=
  .next (s.control t w 2 (fun _ _ => opcGuard (onlyBits w 0)) fun s _ =>
    s.updTile t fun t => { t with prog := t.prog.map fun p => { p with barrier := true } })

/-- LOOP: COUNT in bytes 4 and 5, BODY in byte 6. -/
def execLoop (t : Nat) (w : BitVec 256) (s : State) : Host.Outcome State Fault Refusal :=
  let count := bf w 47 32
  let body := bf w 55 48
  .next (s.control t w 3
    (fun p x =>
      if !onlyBits w (bitsAt 55 32) then some (0x40, 0)
      else if count = 0 ∨ body = 0 ∨ 63 < body ∨ 2 ≤ (advance p.loops p.pos).1.length ∨
          (List.range body).any (fun i => decide (p.pos + 32 * (i + 2) ≤ p.top) && wOpc (wordAt x p (p.pos + 32 * (i + 1))) == 1) then some (0x49, p.pos)
      else none)
    fun s p => s.updTile t fun t => { t with prog := t.prog.map fun q =>
      { q with loops := { runs := count, body := body, pos := p.pos + 32 } :: (advance p.loops p.pos).1, pos := p.pos + 32 } })

/-! ## Ordering (R302 to R304, R310) -/

/-- An acquire at a scope: at MODULE and DOMAIN it drops the tenant's lines of the die's read cache (R303). -/
def State.acquire (s : State) (n tenant scope : Nat) : State := if 2 ≤ scope then s.drcDrop tenant (some (n / 16)) else s

def scopeOf (w : BitVec 256) : Nat := bf w 33 32

/-- Put an acquire, a release or a fence in flight: it completes once every earlier instruction has (R303, R304, R305). -/
def State.pendOrder (s : State) (n : Nat) (w : BitVec 256) : State :=
  s.updTile n fun t => { t with
    nextId := t.nextId + 1,
    flight := t.flight ++ [{ id := t.nextId, unit := 0, word := w, inS := 0, outS := 0, ranges := [], begun := true, done := false, noted := [] }] }

/-- ACQ: the program's earlier reads are over before it acquires, so that none of them comes after it (R303, R305, R313). -/
def execAcq (t : Nat) (w : BitVec 256) (s : State) : Host.Outcome State Fault Refusal :=
  .next (s.control t w 8 (fun _ _ => opcGuard (onlyBits w (bitsAt 33 32))) fun s _ => s.pendOrder t w)

def execRel (t : Nat) (w : BitVec 256) (s : State) : Host.Outcome State Fault Refusal :=
  .next (s.control t w 9 (fun _ _ => opcGuard (onlyBits w (bitsAt 33 32))) fun s _ => s.pendOrder t w)

def execFence (t : Nat) (w : BitVec 256) (s : State) : Host.Outcome State Fault Refusal :=
  .next (s.control t w 0x0A (fun _ _ => opcGuard (onlyBits w (bitsAt 33 32))) fun s _ => s.pendOrder t w)

def execCwait (t : Nat) (w : BitVec 256) (s : State) : Host.Outcome State Fault Refusal :=
  .next (s.control t w 0x0B (fun _ _ => opcGuard (onlyBits w (bitsAt 47 32 ||| bitsAt 127 64) && bf w 47 46 != 3)) fun s p =>
    if bf w 127 64 ≤ s.ctr p.tenant (bf w 45 34) (bf w 47 46) then s.acquire t p.tenant (scopeOf w)
    else s.updTile t fun t => { t with cwait := some (bf w 45 34, bf w 47 46, bf w 127 64, scopeOf w) })

/-- CWAIT_SATISFIED (R310): the counter has reached the threshold; the wait ends and acquires. -/
def execCwaitSatisfied (t : Nat) (s : State) : Host.Outcome State Fault Refusal :=
  match (s.tile t).cwait, (s.tile t).prog with
  | some (c, f, v, scope), some p =>
    if v ≤ s.ctr p.tenant c f ∧ s.holds p.tenant t then
      .next ((s.updTile t fun t => { t with cwait := none }).acquire t p.tenant scope)
    else .next s
  | _, _ => .next s

/-- CSET: it writes outside the scratchpad, and so waits for a pending release (R304, R310). -/
def execCset (t : Nat) (w : BitVec 256) (s : State) : Host.Outcome State Fault Refusal :=
  .next (if (s.tile t).releasing then s else s.control t w 0x0C (fun _ _ => opcGuard (onlyBits w (bitsAt 47 34 ||| bitsAt 127 64) && bf w 47 46 != 3)) fun s p =>
    s.setCtr p.tenant (bf w 45 34) (bf w 47 46) (bf w 127 64))

/-! ## Matrix unit (R95 to R116) -/

/-- Issue a matrix instruction. -/
def State.issueMm (s : State) (n : Nat) (w : BitVec 256) (opc : Nat) : State :=
  s.issue n w opc 1 fun _ p t sh => mmCheck (opc == 0x11) t p.tenant sh w

def execMatmul (t : Nat) (w : BitVec 256) (s : State) : Host.Outcome State Fault Refusal := .next (s.issueMm t w 0x10)
def execMatmulSide (t : Nat) (w : BitVec 256) (s : State) : Host.Outcome State Fault Refusal := .next (s.issueMm t w 0x11)

/-! ## Vector unit (R160 to R189) -/

def execVld (t : Nat) (w : BitVec 256) (s : State) : Host.Outcome State Fault Refusal :=
  .next (s.issue t w 0x20 2 fun _ p x sh => memCheck x p.tenant sh w true)

def execVst (t : Nat) (w : BitVec 256) (s : State) : Host.Outcome State Fault Refusal :=
  .next (s.issue t w 0x21 2 fun _ p x sh => memCheck x p.tenant sh w false)

/-- Issue a register instruction. -/
def State.issueVec (s : State) (n : Nat) (w : BitVec 256) (opc : Nat) (v : VecOp) : State :=
  s.issue n w opc 2 (fun _ _ _ _ => (v.check w).map (·, 0))

def execVbcast (t : Nat) (w : BitVec 256) (s : State) : Host.Outcome State Fault Refusal := .next (s.issueVec t w 0x22 vbcastOp)
def execViota (t : Nat) (w : BitVec 256) (s : State) : Host.Outcome State Fault Refusal := .next (s.issueVec t w 0x23 viotaOp)
def execVadd (t : Nat) (w : BitVec 256) (s : State) : Host.Outcome State Fault Refusal := .next (s.issueVec t w 0x24 vaddOp)
def execVsub (t : Nat) (w : BitVec 256) (s : State) : Host.Outcome State Fault Refusal := .next (s.issueVec t w 0x25 vsubOp)
def execVmul (t : Nat) (w : BitVec 256) (s : State) : Host.Outcome State Fault Refusal := .next (s.issueVec t w 0x26 vmulOp)
def execVfma (t : Nat) (w : BitVec 256) (s : State) : Host.Outcome State Fault Refusal := .next (s.issueVec t w 0x27 vfmaOp)
def execVmax (t : Nat) (w : BitVec 256) (s : State) : Host.Outcome State Fault Refusal := .next (s.issueVec t w 0x28 vmaxOp)
def execVmin (t : Nat) (w : BitVec 256) (s : State) : Host.Outcome State Fault Refusal := .next (s.issueVec t w 0x29 vminOp)
def execVabs (t : Nat) (w : BitVec 256) (s : State) : Host.Outcome State Fault Refusal := .next (s.issueVec t w 0x2A vabsOp)
def execVneg (t : Nat) (w : BitVec 256) (s : State) : Host.Outcome State Fault Refusal := .next (s.issueVec t w 0x2B vnegOp)
def execVcmp (t : Nat) (w : BitVec 256) (s : State) : Host.Outcome State Fault Refusal := .next (s.issueVec t w 0x2C vcmpOp)
def execVsel (t : Nat) (w : BitVec 256) (s : State) : Host.Outcome State Fault Refusal := .next (s.issueVec t w 0x2D vselOp)
def execVexp (t : Nat) (w : BitVec 256) (s : State) : Host.Outcome State Fault Refusal := .next (s.issueVec t w 0x30 vexpOp)
def execVrcp (t : Nat) (w : BitVec 256) (s : State) : Host.Outcome State Fault Refusal := .next (s.issueVec t w 0x31 vrcpOp)
def execVrsq (t : Nat) (w : BitVec 256) (s : State) : Host.Outcome State Fault Refusal := .next (s.issueVec t w 0x32 vrsqOp)
def execVrsum (t : Nat) (w : BitVec 256) (s : State) : Host.Outcome State Fault Refusal := .next (s.issueVec t w 0x34 vrsumOp)
def execVrmax (t : Nat) (w : BitVec 256) (s : State) : Host.Outcome State Fault Refusal := .next (s.issueVec t w 0x35 vrmaxOp)
def execVrmin (t : Nat) (w : BitVec 256) (s : State) : Host.Outcome State Fault Refusal := .next (s.issueVec t w 0x36 vrminOp)
def execIadd (t : Nat) (w : BitVec 256) (s : State) : Host.Outcome State Fault Refusal := .next (s.issueVec t w 0x38 iaddOp)
def execIsub (t : Nat) (w : BitVec 256) (s : State) : Host.Outcome State Fault Refusal := .next (s.issueVec t w 0x39 isubOp)
def execImul (t : Nat) (w : BitVec 256) (s : State) : Host.Outcome State Fault Refusal := .next (s.issueVec t w 0x3A imulOp)
def execImulhi (t : Nat) (w : BitVec 256) (s : State) : Host.Outcome State Fault Refusal := .next (s.issueVec t w 0x3B imulhiOp)
def execIand (t : Nat) (w : BitVec 256) (s : State) : Host.Outcome State Fault Refusal := .next (s.issueVec t w 0x3C iandOp)
def execIor (t : Nat) (w : BitVec 256) (s : State) : Host.Outcome State Fault Refusal := .next (s.issueVec t w 0x3D iorOp)
def execIxor (t : Nat) (w : BitVec 256) (s : State) : Host.Outcome State Fault Refusal := .next (s.issueVec t w 0x3E ixorOp)
def execIshl (t : Nat) (w : BitVec 256) (s : State) : Host.Outcome State Fault Refusal := .next (s.issueVec t w 0x3F ishlOp)
def execIshr (t : Nat) (w : BitVec 256) (s : State) : Host.Outcome State Fault Refusal := .next (s.issueVec t w 0x40 ishrOp)
def execIcmp (t : Nat) (w : BitVec 256) (s : State) : Host.Outcome State Fault Refusal := .next (s.issueVec t w 0x41 icmpOp)
def execVcvt (t : Nat) (w : BitVec 256) (s : State) : Host.Outcome State Fault Refusal := .next (s.issueVec t w 0x44 vcvtInstr)
def execVpext (t : Nat) (w : BitVec 256) (s : State) : Host.Outcome State Fault Refusal := .next (s.issueVec t w 0x45 vpextInstr)
def execKop (t : Nat) (w : BitVec 256) (s : State) : Host.Outcome State Fault Refusal := .next (s.issueVec t w 0x48 kopInstr)
def execVflag (t : Nat) (w : BitVec 256) (s : State) : Host.Outcome State Fault Refusal := .next (s.issueVec t w 0x49 vflagInstr)
def execVrng (t : Nat) (w : BitVec 256) (s : State) : Host.Outcome State Fault Refusal := .next (s.issueVec t w 0x4C vrngInstr)

/-- Issue a QSTAT of one mode (R181). -/
def State.issueStat (s : State) (n : Nat) (w : BitVec 256) (mode : Nat) : State :=
  if (statArgs w).mode ≠ mode then s else s.issue n w 0x50 2 (fun _ p t sh => statCheck t p.tenant sh w)

def execQstatGatherNew (t : Nat) (w : BitVec 256) (s : State) : Host.Outcome State Fault Refusal := .next (s.issueStat t w 0)
def execQstatGather (t : Nat) (w : BitVec 256) (s : State) : Host.Outcome State Fault Refusal := .next (s.issueStat t w 1)
def execQstatFinish (t : Nat) (w : BitVec 256) (s : State) : Host.Outcome State Fault Refusal := .next (s.issueStat t w 2)
def execQstatMerge (t : Nat) (w : BitVec 256) (s : State) : Host.Outcome State Fault Refusal := .next (s.issueStat t w 3)

/-- QCONV. A poisoned record, which governs the conversion, is CTL_POISON (R486). -/
def execQconv (t : Nat) (w : BitVec 256) (s : State) : Host.Outcome State Fault Refusal :=
  .next (s.issue t w 0x51 2
    (fun _ p x sh =>
      let a := qcArgs w
      if a.useRec && inShare sh a.aux (recBytes a.c) && x.readBad a.aux (recBytes a.c) then some (0x06, a.aux)
      else qcCheck x p.tenant sh w))

def execVtopk (t : Nat) (w : BitVec 256) (s : State) : Host.Outcome State Fault Refusal :=
  .next (s.issue t w 0x52 2 fun _ p x sh => topkCheck x p.tenant sh w)

def execVsample (t : Nat) (w : BitVec 256) (s : State) : Host.Outcome State Fault Refusal :=
  .next (s.issue t w 0x53 2 fun _ _ _ sh => sampCheck sh w)

/-! ## Attention (R190 to R215) -/

def execAttn (t : Nat) (w : BitVec 256) (s : State) : Host.Outcome State Fault Refusal :=
  .next (s.issue t w 0x60 3 fun _ p x sh => attnCheck x p.tenant sh w)

def execAttnMerge (t : Nat) (w : BitVec 256) (s : State) : Host.Outcome State Fault Refusal :=
  .next (s.issue t w 0x61 3 fun _ _ _ sh => mergeCheck sh w)

/-- Look position `p` up through the layer header at `dir` (R222, R223). A poisoned entry says nothing (R214). -/
def State.walk (s : State) (tenant : Nat) (a : AtArgs) (dir p : Nat) : Walk × State :=
  match s.taFetch tenant dir 64 with
  | (none, s) => (.outside, s)
  | (some (hd, b0), s) =>
    if b0 then (.poisoned, s)
    else if !headerOk a hd then (.outside, s)
    else match s.taFetch tenant (fieldAt hd 0x18 8 + 8 * (p / 16384)) 8 with
      | (none, s) => (.outside, s)
      | (some (top, b1), s) =>
        if b1 then (.poisoned, s)
        else if leNat top / 2 ^ 63 = 0 then (.noPage, s)
        else match s.taFetch tenant (granuleAt hd (leNat top) p) 4 with
          | (none, s) => (.outside, s)
          | (some (g, b2), s) =>
            if b2 then (.poisoned, s)
            else if leNat g / 2 ^ 31 = 0 then (.noPage, s) else (.page (pageOf a hd (leNat g) p), s)

/-- Copy `n` bytes, a multiple of 64, from a tenant address into the scratchpad, line by line with their poison (R193, R249). -/
def State.copyIn (s : State) (n tenant src dst len : Nat) : State :=
  (List.range (len / 64)).foldl (fun s q =>
    match s.taFetch tenant (src + 64 * q) 64 with
    | (some (bs, bad), s) => s.updTile n fun t => t.write (dst + 64 * q) bs bad
    | (none, s) => s) s

/-- The walker fetches group `i` of the running block out of its page into the slot at `slot`. -/
def State.copyGroup (s : State) (n tenant : Nat) (a : AtArgs) (q : PageAt) (i slot : Nat) : State :=
  let (k, v, sc) := q.parts a i
  let rows := 16 * a.rowBytes
  let s := (s.copyIn n tenant k slot rows).copyIn n tenant v (slot + rows) rows
  if a.fmtKv == 1 then s else s.copyIn n tenant sc (slot + 2 * rows) 64

/-- The walker of tile `n` fetches the next group of the running block into the next slot of the key ring and marks it full, and the
compute path goes on (R193 to R195). A page's directory entries are read once for a row block. -/
def State.keyFetch (s : State) (n : Nat) (p : Prog) (x : Attn) : State :=
  let t := s.tile n
  let sh := s.share p.tenant
  let a := atArgs x.word
  let rs := recsOf t sh a x.row x.rows
  match ((blockGroups a rs).filter (needsFetch a rs))[x.fetched]?, t.region a.ring, rs.head? with
  | some i, some r, some r0 =>
    if r.full r.tail then s
    else
      let (w, s) : Walk × State := match x.page.filter fun q => decide (q.lo ≤ 16 * i ∧ 16 * i < q.hi) with
        | some q => (.page q, s)
        | none => s.walk p.tenant a r0.dir (16 * i)
      let viol (addr : Nat) : State := s.raiseCmd p.tenant p.by_ 0x64 { tile := some n, addr := addr, session := some r0.session }
      let after (s : State) (x : Attn) : State :=
        let t := fetchDone (s.tile n) sh x
        (s.setTile n (t.markFlight x.id true t.at_.isNone)).drainNotes n x.id
      match w with
      | .outside => viol r0.dir
      | .poisoned => after s { x with dirBad := true, pages := i :: x.pages }
      | .noPage =>
        let who := ((rs.find? fun r => needsFetch a [r] i).map (·.session)).getD r0.session
        after (s.updTile n fun t => t.noteRow 0x65 who) { x with pages := i :: x.pages }
      | .page q =>
        let (k, v, sc) := q.parts a i
        let rows := 16 * a.rowBytes
        if !s.taMapped p.tenant k rows then viol k
        else if !s.taMapped p.tenant v rows then viol v
        else if a.fmtKv != 1 && !s.taMapped p.tenant sc 64 then viol sc
        else
          let s := (s.copyGroup n p.tenant a q i (r.slotAddr r.tail)).updTile n fun t =>
            { t with heldPages := (List.range (2 ^ q.k)).foldl (fun l j => pset l (q.n + j)) t.heldPages }
          after s { x with page := some q }
  | _, _, _ => s

/-- KEY_GROUP_FETCH (R193 to R195, R219 to R223): the walker of a tile fetches the next group. -/
def execKeyGroupFetch (t : Nat) (s : State) : Host.Outcome State Fault Refusal :=
  let x := s.tile t
  match x.prog, x.at_ with
  | some p, some a => if s.holds p.tenant t then .next (s.keyFetch t p a) else .next s
  | _, _ => .next s

/-! ## Transfer unit (R260 to R264) -/

/-- The violations of XSTART (R264). -/
def xstartCheck (s : State) (p : Prog) (sh : Share) (w : BitVec 256) : Option (Nat × Nat) :=
  let chain := bf w 127 64
  let range (off len : Nat) : Bool := len == 0 || (off % 64 == 0 && inShare sh off (64 * len))
  if !headOk w then some (0x40, 0)
  else if bf w 47 36 + bf w 63 58 + bf w 255 208 != 0 || chain % 64 != 0 ||
      decide ((if bf w 35 35 = 0 then 2 ^ 23 else 2 ^ 40) ≤ chain) then some (0x70, chain)
  else if !range (bf w 150 128) (bf w 167 151) then some (0x71, bf w 150 128)
  else if !range (bf w 190 168) (bf w 207 191) then some (0x71, bf w 190 168)
  else if decide (((s.part p.tenant).map (·.xreq)).getD 0 < bf w 57 48 + 1) then some (0x73, 0)
  else none

def execXstart (t : Nat) (w : BitVec 256) (s : State) : Host.Outcome State Fault Refusal :=
  .next (s.issue t w 0x70 4 fun s p _ sh => xstartCheck s p sh w)

/-- The fields of a region instruction: DESC aligned and in the share, SIDE where it has one (R260, R261). -/
def rgnCheck (sh : Share) (w : BitVec 256) (side : Bool) : Option (Nat × Nat) :=
  let d := vOff w
  if !headOk w then some (0x40, 0)
  else if !onlyBits w (bitsAt 150 128 ||| if side then bitsAt 32 32 else 0) || d % 64 != 0 then some (0x74, d)
  else if !inShare sh d 64 then some (0x71, d)
  else none

def execRgnOpen (t : Nat) (w : BitVec 256) (s : State) : Host.Outcome State Fault Refusal :=
  .next (s.issue t w 0x71 4 (fun _ _ _ sh => rgnCheck sh w false))

def execRgnClose (t : Nat) (w : BitVec 256) (s : State) : Host.Outcome State Fault Refusal :=
  .next (s.issue t w 0x72 4 (fun _ p x sh => (rgnCheck sh w false).orElse fun _ =>
    if (x.region (vOff w)).any fun r => r.tenant == p.tenant then none else some (0x74, vOff w)))

/-- A SLOT_WAIT or SLOT_RELEASE may name only an open region with a TILE side. -/
def slotCheck (p : Prog) (t : Tile) (sh : Share) (w : BitVec 256) : Option (Nat × Nat) :=
  (rgnCheck sh w true).orElse fun _ =>
    match t.region (vOff w) with
    | some r => if r.tenant == p.tenant && (if bf w 32 32 = 0 then r.cons else r.prod).cls == 0 then none else some (0x74, vOff w)
    | none => some (0x74, vOff w)

def execSlotWait (t : Nat) (w : BitVec 256) (s : State) : Host.Outcome State Fault Refusal :=
  .next (s.issue t w 0x73 4 (fun _ p x sh => slotCheck p x sh w))

def execSlotRelease (t : Nat) (w : BitVec 256) (s : State) : Host.Outcome State Fault Refusal :=
  .next (s.issue t w 0x74 4 (fun _ p x sh => slotCheck p x sh w))

/-! ## Codec requests (R289, R297) -/

def State.issueCodec (s : State) (n : Nat) (w : BitVec 256) (opc : Nat) : State :=
  s.issue n w opc 5 fun _ p t sh => cxCheck opc t p.tenant sh w

def execCxEnc (t : Nat) (w : BitVec 256) (s : State) : Host.Outcome State Fault Refusal := .next (s.issueCodec t w 0x78)
def execCxDec (t : Nat) (w : BitVec 256) (s : State) : Host.Outcome State Fault Refusal := .next (s.issueCodec t w 0x79)
def execCxTload (t : Nat) (w : BitVec 256) (s : State) : Host.Outcome State Fault Refusal := .next (s.issueCodec t w 0x7A)
def execCxHist (t : Nat) (w : BitVec 256) (s : State) : Host.Outcome State Fault Refusal := .next (s.issueCodec t w 0x7B)

/-! ## Completion, marks (R94, R92, R259, R260) -/

/-- May an acquire, release or fence complete: every earlier instruction has, its program holds the tile, and at DOMAIN a release has
every acknowledgement of the program's remote writes (R303, R304, R315, R318)? -/
def State.orderDone (s : State) (n : Nat) (p : Prog) (f : InFlight) : Bool :=
  !((s.tile n).flight.any fun g => decide (g.id < f.id)) && s.holds p.tenant n &&
    !(wOpc f.word != 0x08 && scopeOf f.word == 3 && s.unacked n p.tenant p.by_)

/-- INSTRUCTION_COMPLETE: an instruction whose work is done leaves the range table and its unit goes on. Pages that an ATTN has read
are its own no longer (R196). -/
def execInstructionComplete (t id : Nat) (s : State) : Host.Outcome State Fault Refusal :=
  let x := s.tile t
  match x.flight.find? (·.id == id), x.prog with
  | some f, some p =>
    if !(if f.unit = 0 then s.orderDone t p f else f.done) then .next s
    else
      let s := s.updTile t fun x => { x with
        flight := x.flight.filter (·.id != id), heldPages := if f.unit = 3 then [] else x.heldPages }
      let s := if f.unit = 0 ∧ wOpc f.word ≠ 0x09 then s.acquire t p.tenant (scopeOf f.word) else s
      .next (s.runUnit t f.unit)
  | _, _ => .next s

/-- SLOT_MARK: the pending marks of a region whose earlier instructions have all completed take effect, in issue order
(R260). -/
def execSlotMark (t desc : Nat) (s : State) : Host.Outcome State Fault Refusal :=
  let x := s.tile t
  let due (m : PendMark) : Bool := m.desc == desc && !(x.flight.any fun f => decide (f.id < m.after))
  .next (s.updTile t fun x =>
    { (x.marks.filter due).foldl (fun x m => x.updRegion desc fun r => r.mark m.slot m.full) x with
      marks := x.marks.filter fun m => !due m })

/-- SLOT_MARK_SEEN: the unit that waits at a slot sees its state (R259); unit 4 also serves SLOT_WAIT, a busy channel and a
closing region. -/
def execSlotMarkSeen (t unit : Nat) (s : State) : Host.Outcome State Fault Refusal := .next (s.runUnit t unit)

/-- The reference of a launch (R462): the CSN of its command, or the BSEQ of a Ladle launch. -/
def CmdRef.number : CmdRef → Nat
  | .ring _ csn => csn
  | .stored _ key _ => key
  | .item n _ => n

/-- The PROG_END event (R539); its cycle counts are time and so free values. -/
def State.progEvent (s : State) (t tile : Nat) (ref : CmdRef) (flags : W32) : State :=
  if !s.wantsEvent 0x04 (some t) then s
  else
    let (k, s) := s.fresh
    s.event 0x04 (some t) (some tile) ref.number ((Config.freeBytes k ++ leBytes 12 0).take 12 ++ leBytes 4 flags.toNat) (0, 0)

/-- PROGRAM_COMPLETE: END has been reached, every instruction and mark is done, and every remote write acknowledged; the program
reports to its command (R92, R139, R172, R305, R549). -/
def execProgramComplete (t : Nat) (s : State) : Host.Outcome State Fault Refusal :=
  let x := s.tile t
  match x.prog with
  | none => .next s
  | some p =>
    if !p.ended || !x.flight.isEmpty || !x.marks.isEmpty || !s.holds p.tenant t || s.unacked t p.tenant p.by_ then .next s
    else
      let s := s.updTile t fun x => { x with prog := none }
      let s := s.progEvent p.tenant t p.by_ x.ve.sticky
      let s := s.updCmd p.tenant p.by_ fun c =>
        { (c.count p.sat.toNat p.flush.toNat p.nan.toNat x.ve.sticky) with
          err := if c.err = 0 then p.err else c.err, pois := if c.pois = 0 then p.pois else c.pois }
      .next ((s.tallyTenant p.tenant p.sat.toNat p.flush.toNat p.nan.toNat).endWork p.tenant p.by_)

/-! ## The codecs' work (R287 to R296) -/

def cxStat (codec o : Nat) : Nat := 0x400000 + 0x40 * codec + o

/-- A request is the tenant's on a tile. -/
def CxReq.is (r : CxReq) (tile tenant : Nat) : Bool := r.tile == tile && r.tenant == tenant
def CxBlk.of (b : CxBlk) (codec : Nat) (r : CxReq) : Bool := b.codec == codec && b.tile == r.tile && b.tenant == r.tenant

def State.updReq (s : State) (codec tile tenant : Nat) (f : CxReq → CxReq) : State :=
  { s with cdx := { s.cdx with reqs := s.cdx.reqs.map fun (k, r) => if k == codec && r.is tile tenant then (k, f r) else (k, r) } }

def State.findReq (s : State) (codec tile tenant : Nat) : Option CxReq :=
  (s.cdx.reqs.find? fun (k, r) => k == codec && r.is tile tenant).map (·.2)

/-- A request has ended: it leaves the codec and its instruction is done. -/
def State.endReq (s : State) (codec : Nat) (r : CxReq) : State :=
  ({ s with cdx := { s.cdx with reqs := s.cdx.reqs.filter fun (k, x) => !(k == codec && x.is r.tile r.tenant) } } : State).updTile
    r.tile fun t => t.doneFlight r.id

/-- The program of a tenant on a tile, whether it runs or is saved. -/
def Tile.progOf (t : Tile) (tenant : Nat) : Option Prog :=
  match t.prog.filter (·.tenant == tenant) with
  | some p => some p
  | none => (aget t.saved tenant).bind (·.prog)

/-- Enter a code that a codec met (R297): each block that meets a condition is an entry of its own (R484). -/
def State.codecNote (s : State) (r : CxReq) (code : Nat) (addr : Nat) : State :=
  match if code = 0 then none else (s.tile r.tile).progOf r.tenant with
  | none => s
  | some p => (s.raiseCmd p.tenant p.by_ code { tile := some r.tile, addr := addr }).updTile r.tile fun t =>
      t.onProg r.tenant fun p => { p.note code with notes := p.notes }

/-- Blocks of a request in a queue. -/
def cxShare (q : List CxBlk) (codec : Nat) (r : CxReq) : Nat := (q.filter fun b => b.of codec r).length

/-- The rows of a request, the blocks of all its rows, and where block `k` of a side lies. -/
def CxArgs.blocks (a : CxArgs) : Nat := a.rows * a.bpr
def cxSrc (t : Tile) (r : CxReq) (k : Nat) : Nat :=
  let a := cxArgs r.word
  (cxIn t (wOpc r.word) a).addr t r.inS (k / a.bpr) + k % a.bpr * (if wOpc r.word = 0x79 then rateBytes a.rate else 256 * cxElem a.fmt)
def cxDst (t : Tile) (r : CxReq) (k : Nat) : Nat :=
  let a := cxArgs r.word
  if wOpc r.word = 0x7B then a.dst
  else (cxOut t (wOpc r.word) a).addr t r.outS (k / a.bpr) + k % a.bpr * (if wOpc r.word = 0x79 then 256 * cxElem a.fmt else rateBytes a.rate)
def cxFetched (r : CxReq) (k : Nat) : Nat :=
  let a := cxArgs r.word
  if wOpc r.word = 0x79 then rateBytes a.rate else a.count (k % a.bpr) * cxElem a.fmt

/-- May the codec fetch the next block of a request: its tenant has the tile, a block is left, its share of the input queue has room
and the source slot is full (R290, R292, R294)? -/
def State.mayFetch (s : State) (codec : Nat) (r : CxReq) : Bool :=
  let a := cxArgs r.word
  let t := s.tile r.tile
  wOpc r.word != 0x7A && s.holds r.tenant r.tile && decide (r.block < a.blocks) && decide (cxShare s.cdx.inq codec r < 4) &&
  decide ((s.cdx.inq.filter (·.codec == codec)).length < 64) && (cxIn t (wOpc r.word) a).ready t r.inS (r.block / a.bpr) true

/-- Fetch the next block of a request: a decode reads the header and takes the slot's table now (R287); after the slot's last block
the slot is marked empty (R290). -/
def State.fetchBlock (s : State) (codec : Nat) (r : CxReq) : State :=
  let a := cxArgs r.word
  let opc := wOpc r.word
  let at_ := cxSrc (s.tile r.tile) r r.block
  let s := s.eccRead r.tile at_ (cxFetched r r.block)
  let t := s.tile r.tile
  let bytes := t.read at_ (cxFetched r r.block)
  let head := fieldAt bytes 0 1 % 4
  let table := if opc = 0x79 ∧ fieldAt bytes 1 1 / 4 % 4 = 0 then some head else none
  let b : CxBlk := { codec := codec, tile := r.tile, tenant := r.tenant, block := r.block, bytes := bytes, bad := t.readBad at_ (cxFetched r r.block),
                     slot := if opc = 0x78 then r.table.map fun _ => a.slot else table,
                     table := table.bind fun k => aget s.cdx.slots (slotKey codec r.tenant k) }
  let m := r.block / a.bpr
  let t := if r.block % a.bpr + 1 = a.bpr then (cxIn t opc a).finish t r.inS m (m + 1) (decide (a.rows ≤ m + 1)) true else t
  let s : State := { s with cdx := { s.cdx with inq := s.cdx.inq ++ [b] } }
  (s.setTile r.tile t).updReq codec r.tile r.tenant fun r => { r with block := r.block + 1 }

/-- Fetch for every request while there is one that may be. -/
def State.fetchBlocks (s : State) (codec : Nat) : Nat → State
  | 0 => s
  | fuel + 1 =>
    match s.cdx.reqs.find? fun (k, r) => k == codec && s.mayFetch codec r with
    | some (_, r) => (s.fetchBlock codec r).fetchBlocks codec fuel
    | none => s

/-- The oldest block that a codec has made of each request and that may be written: its destination slot is empty (R290). -/
def State.writable (s : State) (codec : Nat) : Option (CxReq × CxBlk) :=
  (s.cdx.reqs.filter (·.1 == codec)).findSome? fun (_, r) =>
    match s.cdx.outq.find? fun b => b.of codec r with
    | some b =>
      let a := cxArgs r.word
      let t := s.tile r.tile
      if (cxOut t (wOpc r.word) a).ready t r.outS (b.block / a.bpr) false then some (r, b) else none
    | none => none

/-- Write a block; with its row's last the slot's mark, with the request's last the request completes (R290). -/
def State.writeBlock (s : State) (codec : Nat) (r : CxReq) (b : CxBlk) : State :=
  let a := cxArgs r.word
  let t := s.tile r.tile
  let m := b.block / a.bpr
  let last := decide (a.rows ≤ m + 1)
  let t' := t.write (cxDst t r b.block) b.bytes b.bad
  let t' := if b.block % a.bpr + 1 = a.bpr then (cxOut t (wOpc r.word) a).finish t' r.outS m (m + 1) last false else t'
  let s : State := { (s.setTile r.tile t') with cdx := { s.cdx with outq := s.cdx.outq.erase b } }
  let s := if b.bad then s.bump (cxStat codec 0x10) 1 else s
  if b.block + 1 = a.blocks then s.endReq codec r else s

def State.writeBlocks (s : State) (codec : Nat) : Nat → State
  | 0 => s
  | fuel + 1 =>
    match s.writable codec with
    | some (r, b) => (s.writeBlock codec r b).writeBlocks codec fuel
    | none => s

/-- One block: what it makes, whether poisoned, the code it records and its counts. -/
structure CxDone where
  bytes : List Byte
  bad   : Bool
  code  : Nat
  sat   : Nat
  nan   : Nat
  stats : List Nat
  hist  : List Nat
  deriving DecidableEq, Repr

/-- Process a fetched block. What a poisoned block's value bits read as is not given: they are written zero. -/
def cxBlock (r : CxReq) (b : CxBlk) : CxDone :=
  let a := cxArgs r.word
  let opc := wOpc r.word
  let n := a.count (b.block % a.bpr)
  let none' : CxDone := { bytes := [], bad := false, code := 0, sat := 0, nan := 0, stats := [], hist := r.hist }
  if opc = 0x79 then
    let f := cxFmt a.fmt
    let poisoned (c : Nat) : CxDone := { none' with bytes := List.replicate (n * cxElem a.fmt) 0, bad := true, code := c, stats := [4] }
    if b.bad then poisoned 0x98
    else match decodeBlock a.rate n (fun _ => b.table) b.bytes with
      | .bad c => poisoned c
      | .values _ xs =>
        let cs := xs.map fun x => convert f .rne x
        let nans := (cs.filter fun c => c.nan || (f.special && (decodeFloat f c.code).isNan)).length
        { none' with bytes := packElems f.bits (cs.map (·.code)), sat := (cs.filter (·.sat)).length, nan := nans, stats := [4] }
  else
    let f := cxFmt a.fmt
    let xs := (bitElems b.bytes f.bits n).map (decodeVal f)
    if opc = 0x7B then
      if b.bad then { none' with code := 0x98 } else { none' with hist := histBlock a.fmt a.hshift r.hist xs }
    else if b.bad then { none' with bytes := List.replicate (rateBytes a.rate) 0, bad := true, code := 0x98, stats := [0] }
    else
      let e := encodeBlock a.rate a.fmt a.slot r.table xs
      { none' with bytes := e.bytes, nan := e.nans,
                   stats := 0 :: ((if e.mode = 1 ∧ r.table.isSome then [8] else []) ++ (if e.mode = 3 then [0x0C] else [])) }

/-- Process the oldest fetched block of a request: it goes to the output queue, and with a histogram's last block its record. -/
def State.processBlock (s : State) (codec : Nat) (r : CxReq) (b : CxBlk) : State :=
  let d := cxBlock r b
  let hist := wOpc r.word = 0x7B
  let out : CxBlk := { b with bytes := if hist then histBytes d.hist else d.bytes, bad := d.bad, table := none }
  let outq := if hist ∧ b.block + 1 ≠ (cxArgs r.word).blocks then s.cdx.outq else s.cdx.outq ++ [out]
  let s : State := { s with cdx := { s.cdx with inq := s.cdx.inq.erase b, outq := outq } }
  let s := s.updTile r.tile fun t => t.onProg r.tenant fun p => { p with sat := satAdd32 p.sat d.sat, nan := satAdd32 p.nan d.nan }
  let s := d.stats.foldl (fun s o => s.bump (cxStat codec o) 1) s
  (s.updReq codec r.tile r.tenant fun r => { r with hist := d.hist }).codecNote r d.code 0

/-- Can the codec serve this request now: its next block is fetched and its share of the output queue has room; a TLOAD on a tile
that its tenant has (R292, R294)? -/
def State.servable (s : State) (codec : Nat) (r : CxReq) : Bool :=
  if wOpc r.word = 0x7A then s.holds r.tenant r.tile
  else decide (0 < cxShare s.cdx.inq codec r) && decide (cxShare s.cdx.outq codec r < 4) &&
    decide ((s.cdx.outq.filter (·.codec == codec)).length < 64)

/-- The next of `xs` after `last` in the round of the numbers below `n`. -/
def nextIn (n last : Nat) (xs : List Nat) : Option Nat := ((List.range n).map fun i => (last + 1 + i) % n).find? (xs.contains ·)

/-- Whose turn it is: the tenants in turn, and within a tenant its requests (R292). -/
def State.codecTurn (s : State) (codec : Nat) : Option CxReq :=
  let rs := (s.cdx.reqs.filter fun (k, r) => k == codec && s.servable codec r).map (·.2)
  (nextIn 16 ((aget s.cdx.turn codec).getD 15) (rs.map (·.tenant))).bind fun t =>
    let mine := rs.filter (·.tenant == t)
    (nextIn 128 ((aget s.cdx.within (16 * codec + t)).getD 127) (mine.map (·.tile))).bind fun n => mine.find? (·.tile == n)

/-- The codec has served a request. -/
def State.served (s : State) (codec : Nat) (r : CxReq) : State :=
  { s with cdx := { s.cdx with turn := aput s.cdx.turn codec r.tenant, within := aput s.cdx.within (16 * codec + r.tenant) r.tile } }

/-- CODEC_BLOCK (R292, R293): a codec fetches what its input queue has room for, processes the next block of the tile's request, when
that request's turn has come, and writes what its slots allow. -/
def execCodecBlock (codec tile : Nat) (s : State) : Host.Outcome State Fault Refusal :=
  let s := (s.writeBlocks codec 64).fetchBlocks codec 64
  match (s.codecTurn codec).filter fun r => r.tile == tile && wOpc r.word != 0x7A with
  | none => .next s
  | some r =>
    match s.cdx.inq.find? fun b => b.of codec r with
    | none => .next s
    | some b => .next (((s.processBlock codec r b).served codec r).writeBlocks codec 64)

/-- CODEC_TLOAD_APPLY (R288): a codec applies a TLOAD when its turn has come. A poisoned record is CTL_POISON (R486), an invalid one
or a busy slot refuses the load. -/
def execCodecTloadApply (codec tile : Nat) (s : State) : Host.Outcome State Fault Refusal :=
  match (s.codecTurn codec).filter fun r => r.tile == tile && wOpc r.word == 0x7A with
  | none => .next s
  | some r =>
    let a := cxArgs r.word
    let s := (s.eccRead tile a.src 96).served codec r
    let t := s.tile tile
    let refuse (code : Nat) : State := ((s.bump (cxStat codec 0x14) 1).codecNote r code a.src).endReq codec r
    if t.readBad a.src 96 then .next ((t.prog.map fun p => s.tileFault tile p 0x06 a.src).getD s)
    else match tableOf (t.read a.src 96) with
      | none => .next (refuse 0x93)
      | some tab =>
        if s.slotBusy codec r.tenant a.slot ≠ 0 then .next (refuse 0x94)
        else .next (({ s with cdx := { s.cdx with slots := aput s.cdx.slots (slotKey codec r.tenant a.slot) tab } } : State).endReq codec r)

end Sys2Proof.Machine
end

