-- ==== Sys2Proof/Machine/Front.lean ====
section
/-!
DEFINITION. Front.lean: the front end: doorbells, fetching, dispatch, reporting, and the commands that run one unit
(R376 to R396, R405 to R409, R461, R587).
-/

namespace Sys2Proof.Machine

/-! ## Rings (R376 to R380) -/

def State.ringOn (s : State) (t r : Nat) : Bool := s.flag (rng t r 0) 0
def State.ringState (s : State) (t r : Nat) : Nat := s.fld (rng t r 0x30) 0 3
def State.setRingState (s : State) (t r v : Nat) : State := s.setFld (rng t r 0x30) 0 3 v
def State.ringSize (s : State) (t r : Nat) : Nat := 2 ^ s.fld (rng t r 4) 0 4

/-- RNG_HEAD: the low half of the CSN of the next command fetched (R380); 0 once EN has been set anew (R377). -/
def RingSt.head (g : RingSt) : Nat := if g.renew then 0 else g.nextCsn % 2 ^ 16

/-- RNG_DONE: the lowest CSN that has not reported (R380); 0 once EN has been set anew (R377). -/
def RingSt.doneCsn (g : RingSt) : Nat :=
  if g.renew then 0 else ((g.cmds.find? fun c => !c.told).map (·.csn)).getD (g.nextCsn % 2 ^ 32)

/-- A doorbell (R378, R561, R564): while the tenant is DISABLED or the ring is off it is dropped and counted in TNT_DBDROP; while
the tenant resets it has no effect. -/
def State.doorbell (s : State) (t r tail : Nat) : State :=
  if s.tState t = tsResetting then s
  else if !s.serves || s.tState t == tsDisabled || !s.ringOn t r then s.bump (tnt t 0xC) 1
  else
    let g := s.ringSt t r
    if s.ringSize t r < (tail % 2 ^ 16 + 2 ^ 16 - g.head) % 2 ^ 16 then s.raise t 0xC4 { ring := some (r, 0), detail := tail }
    else s.setFld (rng t r 0x24) 0 16 tail

def execDoorbell (t r tail : Nat) (s : State) : Host.Outcome State Fault Refusal :=
  if 16 ≤ t ∨ 8 ≤ r then .next s else .next (s.doorbell t r tail)

/-- An enabled ring with nothing in flight begins from CSN 0 (R377). -/
def State.ringStart (s : State) (t r : Nat) : State :=
  (s.updRing t r fun _ => RingSt.reset).setRingState t r (if s.active t then 1 else 2)

/-- Setting RNG_CTL.EN (R377); a ring at RINGS or above cannot be enabled. DESIGN CHOICE (log entry 179): while commands fetched
before EN was cleared have yet to report, the ring fetches nothing, and its numbers start when the last one has. -/
def State.ringEnable (s : State) (t r : Nat) : State :=
  if s.ringOn t r || decide (((s.part t).map (·.rings)).getD 0 ≤ r) then s
  else
    let s := (s.setFlag (rng t r 0) 0 true).setFld (rng t r 0x24) 0 16 0
    if (s.ringSt t r).cmds.isEmpty then s.ringStart t r else s.updRing t r fun g => { g with renew := true }

def execRingEnable (t r : Nat) (s : State) : Host.Outcome State Fault Refusal :=
  if 16 ≤ t ∨ 8 ≤ r ∨ !s.serves then .next s else .next (s.ringEnable t r)

/-- Clearing EN stops fetching; STATE reads DISABLED once the last fetched command has reported (R377). -/
def State.ringDisable (s : State) (t r : Nat) : State :=
  let s := s.setFlag (rng t r 0) 0 false
  if (s.ringSt t r).cmds.isEmpty then s.setRingState t r 0 else s

def execRingDisable (t r : Nat) (s : State) : Host.Outcome State Fault Refusal :=
  if 16 ≤ t ∨ 8 ≤ r ∨ !s.serves then .next s else .next (s.ringDisable t r)

/-- Does this member fetch the tenant's rings (R471)? -/
def State.fetches (s : State) (t : Nat) : Bool := s.mode t == 0 || s.servesPair

/-- How many commands a ring's next fetch takes (R379). -/
def State.fetchRoom (s : State) (t r : Nat) : Nat :=
  let g := s.ringSt t r
  let size := s.ringSize t r
  if !s.ringOn t r || g.renew || s.ringState t r != 1 || !s.active t || !s.fetches t || decide (64 ≤ s.logLen t) then 0
  else
    let ready := (s.fld (rng t r 0x24) 0 16 + 2 ^ 16 - g.head) % 2 ^ 16
    let gap := (g.nextCsn + 2 ^ 32 - g.doneCsn) % 2 ^ 32
    min (min (min 16 ready) (min (32 - (g.cmds.filter fun c => !c.told).length) (size - g.head % size))) (size - gap)

/-- A failed fetch (R379). -/
def State.fetchFail (s : State) (t r : Nat) : State :=
  (s.raise t 0xC7 { ring := some (r, (s.ringSt t r).nextCsn % 2 ^ 32) }).setRingState t r 4

/-- Put fetched commands among those in flight: behind them, or after a takeover each in its place by CSN (R503). -/
def RingSt.take (g : RingSt) (new : List RCmd) : RingSt :=
  let next := (g.nextCsn + new.length) % 2 ^ 32
  if g.skip.isEmpty then { g with cmds := g.cmds ++ new, nextCsn := next }
  else
    let age (c : RCmd) : Nat := (c.csn + 2 ^ 31 + 2 ^ 32 - next) % 2 ^ 32
    let fresh := new.filter fun c => !g.skip.contains c.csn
    { g with cmds := (g.cmds ++ fresh).mergeSort fun a b => decide (age a ≤ age b), nextCsn := next,
             skip := g.skip.filter fun k => !new.any fun c => c.csn == k }

/-- COMMAND_FETCH (R379, R380): `data` is what the PCIe read returned, `none` for an error, a poisoned completion or a
refused translation. -/
def execCommandFetch (t r : Nat) (data : Option (List (List Byte))) (s : State) : Host.Outcome State Fault Refusal :=
  let n := s.fetchRoom t r
  if n = 0 ∨ 16 ≤ t ∨ 8 ≤ r then .next s
  else match data.filter fun _ => s.vfReach t with
    | none => .next (s.fetchFail t r)
    | some ds =>
      let g := s.ringSt t r
      let new := (ds.take n).zipIdx.map fun (b, i) => { RCmd.new ((g.nextCsn + i) % 2 ^ 32) ((b ++ leBytes 64 0).take 64) with tick := s.beat }
      .next (s.updRing t r fun g => g.take new)

/-- PCIE_COMPLETION_TIMEOUT (R379). -/
def execPcieCompletionTimeout (t r : Nat) (s : State) : Host.Outcome State Fault Refusal :=
  if s.fetchRoom t r = 0 ∨ 16 ≤ t ∨ 8 ≤ r then .next s else .next (s.fetchFail t r)

/-! ## Order (R384, R403) -/

/-- Every command of a tenant that the front end holds, with its reference. -/
def State.allCmds (s : State) (t : Nat) : List (CmdRef × RCmd) :=
  ((List.range 8).flatMap fun r => (s.ringSt t r).cmds.map fun c => (CmdRef.ring r c.csn, c)) ++
  ((s.front.launches.filter (·.tenant == t)).flatMap fun l => l.cmds.mapIdx fun i c => (CmdRef.stored l.ring l.key i, c)) ++
  ((s.front.items.filter (·.tenant == t)).flatMap fun x => x.cmds.mapIdx fun i c => (CmdRef.item x.n i, c))

def CmdRef.isRing : CmdRef → Bool
  | .ring _ _ => true
  | _ => false

/-- Does a command hold the later ones of its ring or launch until it has completed? -/
def RCmd.holdsLater (c : RCmd) : Bool := c.op == 0x21 || c.op == 0x22

/-- Is a dispatched launch still dispatching its stored commands (R403)? -/
def State.launching (s : State) (t r : Nat) (c : RCmd) : Bool :=
  c.op == 0x1A && c.st == .running && ((s.launch t (some r) c.csn).map fun l => decide (l.next < l.cmds.length) && !l.stopped).getD false

/-- Have all earlier commands completed: of the ring, or of the launch and its ring? -/
def State.earlierDone (s : State) (t : Nat) : CmdRef → Bool
  | .ring r csn => ((s.ringSt t r).cmds.takeWhile (·.csn != csn)).all fun c => c.st == .done
  | .stored ring key i =>
    ((s.launch t ring key).map fun l => (l.cmds.take i).all fun c => c.st == .done).getD false &&
    (match ring with
      | some r => ((s.ringSt t r).cmds.takeWhile (·.csn != key)).all fun c => c.st == .done
      | none => true)
  | .item n i => ((s.item n).map fun x => (x.cmds.take i).all fun c => c.st == .done).getD false

/-- Is it the command's turn to dispatch (R384, R403, R453, R475)? -/
def State.turn (s : State) (t : Nat) (ref : CmdRef) (c : RCmd) : Bool :=
  s.active t && !s.recov.holdover && (s.fld 0x700000 0 3 == 0 || (c.replay && s.recAllows t)) && s.recov.due.isNone && c.st == .held && (!c.order || s.earlierDone t ref) &&
  (match ref with
    | .ring r csn =>
      let before := (s.ringSt t r).cmds.takeWhile (·.csn != csn)
      !(before.any fun b => b.st == .held || s.launching t r b || (b.holdsLater && b.st != .done)) && (!s.comparing t || !c.fresh)
    | .stored ring key i =>
      (ring.isSome || !(s.lrd.copies.any (·.tenant == t))) &&
      ((s.launch t ring key).map fun l => l.next == i && !l.stopped &&
        !((l.cmds.take i).any fun b => b.holdsLater && b.st != .done)).getD false
    | .item n i => ((s.item n).map fun x => x.phase == 2 && x.next == i).getD false)

/-- A command dispatches: it counts as work of this tick (R385). -/
def State.begin_ (s : State) (t : Nat) (ref : CmdRef) (tile : Option Nat) : State :=
  let s := s.updCmd t ref fun c => { c with st := .running, tick := s.beat, tile := tile }
  match ref with
  | .stored ring key _ => s.updLaunch t ring key fun l => { l with next := l.next + 1 }
  | .item n _ => s.updItem n fun x => { x with next := x.next + 1 }
  | _ => s

/-! ## Checks (R381 to R383, R587) -/

def validOpc (o : Nat) : Bool :=
  decide (o ≤ 5) || decide (8 ≤ o ∧ o ≤ 0x0A) || decide (0x10 ≤ o ∧ o ≤ 0x15) || decide (0x18 ≤ o ∧ o ≤ 0x1B) || decide (0x20 ≤ o ∧ o ≤ 0x22)

def runsTile (o : Nat) : Bool := decide (1 ≤ o ∧ o ≤ 5) || o == 8 || o == 9
def inRecipe (o : Nat) : Bool := validOpc o && (decide (o ≤ 0x0A) || o == 0x1B || decide (0x20 ≤ o))

/-- The header's reserved parts (R381). -/
def headRsvd (b : List Byte) : Bool :=
  let f := fieldAt b 1 1
  decide (32 ≤ f) || decide (128 ≤ fieldAt b 2 1) || decide (64 ≤ fieldAt b 3 1) ||
  (!bitOf f 2 && fieldAt b 3 1 != 0) || !zeros b 8 16

/-- The header's checks: code. -/
def headCheck (p : Partition) (c : RCmd) : Option Nat :=
  if headRsvd c.bytes then some 0xC1
  else if (c.pin && !runsTile c.op) || (!c.pin && fieldAt c.bytes 2 1 != 0) then some 0xC2
  else if c.pin && !bitOf p.tileset (fieldAt c.bytes 2 1) then some 0xC3
  else none

/-- A command that fails its checks (R383): the violation, and it and every later command of its ring go back to the
unfetched state. -/
def State.refuseCmd (s : State) (t : Nat) (ref : CmdRef) (code addr : Nat) : State :=
  let s := s.raiseCmd t ref code { addr := addr }
  match ref with
  | .ring r csn => s.updRing t r fun g => { g with cmds := g.cmds.takeWhile (·.csn != csn), nextCsn := csn }
  | _ => s

/-- Dispatch the command `ref` of a tenant, when its turn has come and its opcode is one of `ops`: header and operand
checks, then its act, `none` while it must wait. -/
def State.dispatch (s : State) (t : Nat) (ref : CmdRef) (ops : List Nat) (check : State → Partition → RCmd → Option (Nat × Nat))
    (act : State → RCmd → Option State) : State :=
  match s.cmd t ref, s.part t with
  | some c, some p =>
    if !s.turn t ref c then s
    else if !validOpc c.op then s.refuseCmd t ref 0xC0 0
    else if !ops.contains c.op then s
    else match headCheck p c with
      | some code => s.refuseCmd t ref code 0
      | none => match check s p c with
        | some (code, addr) => s.refuseCmd t ref code addr
        | none => (act s c).getD s
  | _, _ => s

def codeIf (b : Bool) (code : Nat) : Option (Nat × Nat) := if b then some (code, 0) else none

def firstOf (xs : List (Option (Nat × Nat))) : Option (Nat × Nat) := (xs.filterMap id).head?

/-! ## Tiles for commands (R385) -/

/-- Does the tenant run no work on a tile: no program, launch, chain, held work or item? -/
def State.idleTile (s : State) (t n : Nat) : Bool :=
  let x := s.tile n
  x.prog.isNone && x.launch.isNone && x.flight.isEmpty && !(x.saved.any fun (k, _) => k == t) &&
  !(x.chans.any fun (k, _) => k / 8 == t) && !(s.front.items.any fun i => i.tenant == t && i.tile == some n)

/-- May the tenant's work be placed on the tile: its open entry holds it, and the tile takes placements (R16, R76, R511, R512)? -/
def State.usable (s : State) (t n : Nat) : Bool :=
  s.holds t n && (s.tile n).phys.isSome && (s.sched.entry[n]?).getD none == some t && !s.acc.noPlace.contains n

/-- The tile that a command of the tenant finds: the one it is pinned to, or the first free one (R385). -/
def State.freeTile (s : State) (t : Nat) (c : RCmd) : Option Nat :=
  let ok (n : Nat) : Bool := s.usable t n && s.idleTile t n
  if c.pin then (some (fieldAt c.bytes 2 1)).filter ok else (List.range 128).find? ok

/-- Does a tile hold the remainder of an earlier tick's work of the tenant (R83)? -/
def State.remainder (s : State) (t n : Nat) : Bool :=
  let old (c : RCmd) : Bool := c.st == .running && decide (c.tick < s.beat)
  ((s.allCmds t).any fun (_, c) => c.tile == some n && old c) ||
  (s.front.items.any fun x => x.tenant == t && x.tile == some n && (s.cmd t x.ref).any old)

/-- The tile that an XFER finds: a free one whose channel is free, else the lowest whose channel is (R389); the remainder of an earlier
tick on it ends first (R83). DEDUCED (log entry 166). -/
def State.freeXfer (s : State) (t : Nat) (c : RCmd) : Option Nat :=
  let ch := fieldAt c.bytes 0x10 1
  let ok (n : Nat) : Bool := s.usable t n && (s.chan n (8 * t + ch)).isNone && !s.remainder t n
  if c.pin then (some (fieldAt c.bytes 2 1)).filter ok
  else ((List.range 128).find? fun n => s.idleTile t n && ok n).orElse fun _ => (List.range 128).find? ok

/-- Does a Ladle launch of the tenant have a command that could be placed now? It is placed before any ring command (R385, R444). -/
def State.ladleFirst (s : State) (t : Nat) : Bool :=
  s.front.launches.any fun l => l.tenant == t && l.ring.isNone && (l.cmds[l.next]?).any fun c =>
    runsTile c.op && s.turn t (.stored none l.key l.next) c && (if c.op = 8 then s.freeXfer t c else s.freeTile t c).isSome

/-- Is a command the Ladle's own, or must it let the Ladle's go first? -/
def State.mayPlace (s : State) (t : Nat) (ref : CmdRef) : Bool :=
  match ref with
  | .stored none _ _ => true
  | _ => !s.ladleFirst t

/-- The tile a command gets: an item's own, or the one it finds. -/
def State.placeCmd (s : State) (t : Nat) (ref : CmdRef) (c : RCmd) : Option Nat :=
  match ref with
  | .item n _ => ((s.item n).bind (·.tile)).filter fun m => s.usable t m && (s.tile m).prog.isNone && (s.tile m).launch.isNone
  | _ => if s.mayPlace t ref then s.freeTile t c else none

def newProg (t : Nat) (ref : CmdRef) (c : RCmd) (pos top : Nat) (words : List (BitVec 256)) : Prog :=
  { tenant := t, by_ := ref, pos := pos, top := top, words := words, seed := BitVec.ofNat 64 c.seed, step := c.step, sat := 0,
    flush := 0, nan := 0, err := 0, pois := 0, notes := [], loops := [], barrier := false, ended := false,
    xord := 0 }

/-- Count a launch and log its token: a ring's own command that runs a tile program or a chain (R461, R549). -/
def State.countLaunch (s : State) (t : Nat) (ref : CmdRef) (c : RCmd) : State :=
  match ref with
  | .ring _ csn => (s.addQuad (0xA02038 + 0x100 * t) 1).logToken t 0 c.op 0xFFFF csn c.seed c.step 0 (cmdDigest c.bytes)
  | _ => s

/-- The word END (R92). -/
def endWord : BitVec 256 := 1

/-- Operand checks of a command that carries one instruction word (R387). -/
def insnCheck (ok : Nat → Bool) (c : RCmd) : Option (Nat × Nat) :=
  let w := BitVec.ofNat 256 (fieldAt c.bytes 0x10 32)
  firstOf [codeIf (!zeros c.bytes 0x3E 0x40) 0xC1, codeIf (!ok (wOpc w) || wDelta w != 0 || wSync w) 0xC2]

/-- Run one instruction as a tile program of that instruction followed by END (R387). -/
def State.runInsn (s : State) (t : Nat) (ref : CmdRef) (c : RCmd) : Option State :=
  (s.placeCmd t ref c).map fun n =>
    let w := BitVec.ofNat 256 (fieldAt c.bytes 0x10 32)
    ((s.begin_ t ref (some n)).updTile n fun x => { x with launch := some (newProg t ref c 0 64 [w, endWord]) }).countLaunch t ref c

def State.insnCmd (s : State) (t : Nat) (ref : CmdRef) (op : Nat) (ok : Nat → Bool) : State :=
  s.dispatch t ref [op] (fun _ _ c => insnCheck ok c) fun s c => s.runInsn t ref c

def execCmdNop (t : Nat) (c : CmdRef) (s : State) : Host.Outcome State Fault Refusal :=
  .next (s.dispatch t c [0] (fun _ _ x => codeIf (!zeros x.bytes 0x10 0x40) 0xC1) fun s _ => some ((s.begin_ t c none).endWork t c))

def execCmdMatmul (t : Nat) (c : CmdRef) (s : State) : Host.Outcome State Fault Refusal := .next (s.insnCmd t c 1 fun o => o == 0x10 || o == 0x11)
def execCmdAttn (t : Nat) (c : CmdRef) (s : State) : Host.Outcome State Fault Refusal := .next (s.insnCmd t c 2 fun o => o == 0x60 || o == 0x61)
def execCmdQstat (t : Nat) (c : CmdRef) (s : State) : Host.Outcome State Fault Refusal := .next (s.insnCmd t c 4 (· == 0x50))
def execCmdQconv (t : Nat) (c : CmdRef) (s : State) : Host.Outcome State Fault Refusal := .next (s.insnCmd t c 5 (· == 0x51))
def execCmdCodec (t : Nat) (c : CmdRef) (s : State) : Host.Outcome State Fault Refusal :=
  .next (s.insnCmd t c 9 fun o => decide (0x78 ≤ o ∧ o ≤ 0x7B))

/-- VEC (R388): the program is copied to POFF and launched there. -/
def execCmdVec (t : Nat) (c : CmdRef) (s : State) : Host.Outcome State Fault Refusal :=
  let f (x : RCmd) (o n : Nat) : Nat := fieldAt x.bytes o n
  .next (s.dispatch t c [3]
    (fun s p x =>
      let ta := f x 0x10 8
      let len := f x 0x18 4
      let poff := f x 0x1C 4
      firstOf [codeIf (!zeros x.bytes 0x20 0x30 || !zeros x.bytes 0x3E 0x40) 0xC1,
        codeIf (ta % 32 != 0 || len % 32 != 0 || decide (len < 32 ∨ 65536 < len) || poff % 32 != 0 || !inShare p.share poff len ||
          !s.feMapped t ta len) 0xC2])
    fun s x => (s.placeCmd t c x).map fun n =>
      let len := f x 0x18 4
      let poff := f x 0x1C 4
      let s := s.begin_ t c (some n)
      let s := (List.range (ceilDiv len 64)).foldl (fun s i =>
        match s.taRead t (f x 0x10 8 + 64 * i) (min 64 (len - 64 * i)) with
        | some (bs, bad) => s.updTile n fun y => y.write (poff + 64 * i) bs bad
        | none => s) s
      (s.updTile n fun y => { y with launch := some (newProg t c x poff (poff + len) []) }).countLaunch t c x)

/-- The tile of an XFER: an item's own, or the one it finds. -/
def State.placeXfer (s : State) (t : Nat) (ref : CmdRef) (c : RCmd) : Option Nat :=
  match ref with
  | .item n _ => ((s.item n).bind (·.tile)).filter fun m => s.usable t m && (s.chan m (8 * t + fieldAt c.bytes 0x10 1)).isNone
  | _ => if s.mayPlace t ref then s.freeXfer t c else none

/-- XFER (R389): a chain at a tenant address, with the whole share as its declared ranges. -/
def execCmdXfer (t : Nat) (c : CmdRef) (s : State) : Host.Outcome State Fault Refusal :=
  let f (x : RCmd) (o n : Nat) : Nat := fieldAt x.bytes o n
  .next (s.dispatch t c [8]
    (fun _ p x => firstOf [
      codeIf (!zeros x.bytes 0x11 0x12 || !zeros x.bytes 0x14 0x18 || !zeros x.bytes 0x20 0x30 || !zeros x.bytes 0x3E 0x40 ||
        decide (8 ≤ f x 0x10 1) || decide (1024 ≤ f x 0x12 2)) 0xC1,
      codeIf (decide (768 ≤ f x 0x12 2)) 0xC2, codeIf (decide (p.xreq < f x 0x12 2 + 1)) 0x73,
      codeIf (decide (2 ^ 40 ≤ f x 0x18 8) || f x 0x18 8 % 64 != 0) 0x70])
    fun s x => (s.placeXfer t c x).map fun n =>
      let sh := s.share t
      let ch : Chan :=
        { tenant := t, csp := true, maxOut := f x 0x12 2 + 1, rd := (sh.lo, sh.hi - sh.lo), wr := (sh.lo, sh.hi - sh.lo), fetched := [],
          next := f x 0x18 8, active := [], begun := 0, last := false, stopped := false, xstart := 0, seed := BitVec.ofNat 64 x.seed,
          step := x.step, by_ := some c, owner := c, inst := 0, remote := 0 }
      ((s.begin_ t c (some n)).setChan n (8 * t + f x 0x10 1) (some ch)).countLaunch t c x)

/-! ## Signals, waits, fences (R391 to R394) -/

/-- SIGNAL (R391, R392): under COMPARE it is held with its unit (R477). -/
def execCmdSignal (t : Nat) (c : CmdRef) (s : State) : Host.Outcome State Fault Refusal :=
  .next (s.dispatch t c [0x20]
    (fun _ _ x => firstOf [codeIf (!zeros x.bytes 0x30 0x40) 0xC1, codeIf (!sigEntryOk ((x.bytes.drop 16).take 32)) 0xC6])
    fun s x =>
      let e := sigResolve ((x.bytes.drop 16).take 32) x.csn
      let r := (c.info.map (·.1)).getD 0
      let s := s.begin_ t c none
      if x.told then some (s.endWork t c)
      else if s.inUnit t (s.unitFor t c) then some ((s.holdAct t (s.unitFor t c) (.signal r e false)).endWork t c)
      else match s.signal t r e (.signal t c) with
        | (s, .done) => some (s.endWork t c)
        | (s, .sent) => some s
        | (s, .unreach m) => some ((s.updCmd t c fun x => { x with status := 7, detail := m }).endWork t c))

def waitMet (s : State) (t : Nat) (x : RCmd) : Bool :=
  decide (fieldAt x.bytes 0x18 8 ≤ s.ctr t (fieldAt x.bytes 0x10 2) (fieldAt x.bytes 0x12 1))

/-- WAIT (R393). -/
def execCmdWait (t : Nat) (c : CmdRef) (s : State) : Host.Outcome State Fault Refusal :=
  .next (s.dispatch t c [0x21]
    (fun _ _ x => firstOf [codeIf (!zeros x.bytes 0x13 0x18 || !zeros x.bytes 0x20 0x40 || decide (4096 ≤ fieldAt x.bytes 0x10 2)) 0xC1,
      codeIf (decide (3 ≤ fieldAt x.bytes 0x12 1)) 0xC2])
    fun s x =>
      let s := s.begin_ t c none
      some (if waitMet s t x then (s.drcDrop t none).endWork t c else s))

/-- WAIT_SATISFIED (R393): the counter has reached the threshold; the tenant's lines are dropped on every die. -/
def execWaitSatisfied (t : Nat) (c : CmdRef) (s : State) : Host.Outcome State Fault Refusal :=
  match s.cmd t c with
  | some x => if x.op == 0x21 && x.st == .running && waitMet s t x && s.active t then .next ((s.drcDrop t none).endWork t c) else .next s
  | none => .next s

/-- FENCE (R394). -/
def execCmdFence (t : Nat) (c : CmdRef) (s : State) : Host.Outcome State Fault Refusal :=
  .next (s.dispatch t c [0x22]
    (fun _ _ x => codeIf (decide (4 ≤ fieldAt x.bytes 0x10 1) || !zeros x.bytes 0x11 0x40) 0xC1)
    fun s x =>
      if !s.earlierDone t c then none
      else
        let s := s.begin_ t c none
        some ((if 2 ≤ fieldAt x.bytes 0x10 1 then s.drcDrop t none else s).endWork t c))

/-! ## Reporting (R386, R395, R405 to R408) -/

/-- The completion record (R395). -/
def recordBytes (t r : Nat) (c : RCmd) (held : Bool) : List Byte :=
  leBytes 4 c.csn ++ leBytes 1 c.status ++ leBytes 1 c.op ++ leBytes 1 (r + 8 * t) ++ leBytes 1 held.toNat ++ leBytes 4 c.detail ++
  leBytes 4 c.sat.toNat ++ leBytes 4 c.flush.toNat ++ leBytes 4 c.nan.toNat ++ leBytes 4 c.vflags.toNat ++ (c.bytes.drop 4).take 4

def State.recordAddr (s : State) (t r csn : Nat) : Nat := s.quad (rng t r 0x10) + 32 * (csn % s.ringSize t r)

/-- A host write that failed (R406). -/
def State.hostFail (s : State) (t r : Nat) (e : List Byte) : State :=
  ((s.pushLog t [e]).setRingState t r 3).raise t 0xC8 { ring := some (r, 0), addr := fieldAt e 8 8 }

/-- Does a rollback run a reported command again (R244, R494, R499)? Larder and session commands, loads and patches of recipes
stay applied, and a collective that has completed is not run again. -/
def RCmd.repeats (c : RCmd) : Bool :=
  !(decide (0x10 ≤ c.op ∧ c.op ≤ 0x15) || c.op == 0x18 || c.op == 0x19 || (c.op == 0x0A && c.status == 0))

/-- A reported command leaves the ring; with the last one of a ring whose EN is 0, STATE reads DISABLED, and a ring whose EN has been
set anew begins (R377). -/
def State.dropCmd (s : State) (t r csn : Nat) : State :=
  let s := match s.cmd t (.ring r csn) with
    | some c => if c.repeats then { s with front := { s.front with past := s.front.past ++ [Past.cmd t r c] } } else s
    | none => s
  let s := s.updRing t r fun g => { g with cmds := g.cmds.filter (·.csn != csn) }
  if !(s.ringSt t r).cmds.isEmpty then s
  else if !s.ringOn t r then s.setRingState t r 0
  else if (s.ringSt t r).renew then s.ringStart t r else s

/-- Add a command's counts, flags and status to its unit (R476). -/
def CmpUnit.countCmd (u : CmpUnit) (c : RCmd) : CmpUnit :=
  { u with sat := u.sat + c.sat.toNat, flush := u.flush + c.flush.toNat, nan := u.nan + c.nan.toNat,
           vflags := u.vflags ||| c.vflags.toNat, codes := (u.codes + c.status) % 256 }

/-- Report a completed command: record, signal, interrupt, in that order (R386). While the tenant is frozen or its log
holds an entry the record and signal go behind it (R407); `ok` says that the host lets the record's write through. -/
def State.report (s : State) (t r csn : Nat) (ok : Bool) : State :=
  match s.cmd t (.ring r csn) with
  | none => s
  | some c =>
    if c.st != .done then s
    else if c.told then s.dropCmd t r csn
    else
      let at_ := s.recordAddr t r csn
      let s0 := s
      let s := s.event 0x06 (some t) none csn (leBytes 1 c.status ++ leBytes 1 c.op ++ leBytes 1 r ++ leBytes 4 c.detail) (0, 0)
      let intr (s : State) : State := if c.int then s.interrupt (.vf t) r else s
      if s.inUnit t c.unit then
        let s := s.unitOf t c.unit fun u => u.countCmd c
        let s := if c.rec_ then s.holdAct t c.unit (.write r at_ (recordBytes t r c false)) else s
        let s := if c.sig then s.sigAct t r c.sigIdx csn c.unit false else s
        (if c.int then s.holdAct t c.unit (.intr r) else s).dropCmd t r csn
      else if !s.active t || decide (0 < s.logLen t) then
        let rec_ := if c.rec_ then [logEntry 1 r 1 at_ (recordBytes t r c true)] else []
        if 64 < s.logLen t + rec_.length + c.sig.toNat then s0
        else
          let s := s.pushLog t rec_
          (intr (if c.sig then s.sigAct t r c.sigIdx csn c.unit false else s)).dropCmd t r csn
      else
        let s := if !c.rec_ then s
          else if ok && s.vfReach t then s.send (.host (.vf t) at_ (recordBytes t r c false))
          else s.hostFail t r (logEntry 1 r 1 at_ (recordBytes t r c true))
        let s := if c.sig then s.sigAct t r c.sigIdx csn c.unit false else s
        (intr s).dropCmd t r csn

def execCommandReport (t r csn : Nat) (ok : Bool) (s : State) : Host.Outcome State Fault Refusal := .next (s.report t r csn ok)

/-- Bytes of the output shadow's records `n` on (R397, R398, R407). -/
def State.shadow (s : State) (t r n k size : Nat) : List Byte :=
  match s.part t with
  | none => []
  | some p => (List.range k).flatMap fun i =>
      ((s.taRead t (p.stageBase + 2 ^ 25 + r * 2 ^ 20 + 16 * ((n + i) % size)) 16).map (·.1)).getD []

/-- Carry out the overflow log from its oldest entry (R408); a write that fails again stops the drain. -/
def State.drainLog (s : State) (t : Nat) (ok : Bool) : Nat → State
  | 0 => s
  | fuel + 1 =>
    match ((s.front.logs[t]?).getD []) with
    | [] => s
    | e :: rest =>
      let kind := fieldAt e 0 1
      let r := fieldAt e 1 1 % 8
      let at_ := fieldAt e 8 8
      let pop (s : State) : State := { s with front := { s.front with logs := vupd s.front.logs t fun _ => rest } }
      if kind = 4 then (pop (s.signal t r ((e.drop 16).take 32) .free).1).drainLog t ok fuel
      else if !(ok && s.vfReach t) then (s.setRingState t r 3).raise t 0xC8 { ring := some (r, 0), addr := at_ }
      else
        let data := if kind = 1 then (e.drop 16).take 32
          else if kind = 2 then s.shadow t r (fieldAt e 16 4) (fieldAt e 4 4) (2 ^ s.fld (rng t r 0x40) 0 5)
          else (e.drop 16).take 4
        (pop (s.send (.host (.vf t) at_ data))).drainLog t ok fuel

end Sys2Proof.Machine
end

