-- ==== Sys2Proof/Machine/Collectives.lean ====
section
/-!
DEFINITION. Collectives.lean: groups, collectives, segments, tokens and aborts, the Stockpot (R346 to R374).
-/

namespace Sys2Proof.Machine

/-! ## Where things stand -/

def colPool (die : Nat) : Nat := 0x600000 + 0x10 * die
def colTnt (t o : Nat) : Nat := 0x601000 + 0x20 * t + o
def colGrp (t g : Nat) : Nat := 0x602000 + 0x100 * t + 0x10 * g

/-- The codes of COL_GRP.STATE. -/
def gsUnbound : Nat := 0
def gsBound : Nat := 1
def gsBroken : Nat := 2

def State.grpState (s : State) (t g : Nat) : Nat := s.fld (colGrp t g) 0 2

/-- The next CSEQ of a group. -/
def State.cseq (s : State) (t g : Nat) : Nat := (s.word (colGrp t g + 4)).toNat

def State.grp (s : State) (t g : Nat) : Option Grp := aget s.coll.groups (16 * t + g)

def Coll.is (c : Coll) (t g q : Nat) : Bool := c.tenant == t && c.group == g && c.cseq == q

def State.run (s : State) (t g q : Nat) : Option Coll := s.coll.runs.find? (·.is t g q)

def State.putRun (s : State) (c : Coll) : State :=
  { s with coll := { s.coll with runs := s.coll.runs.map fun x => if x.is c.tenant c.group c.cseq then c else x } }

/-- The collectives of a tenant in flight. -/
def State.flying (s : State) (t : Nat) : List Coll := s.coll.runs.filter (·.tenant == t)

def Coll.reduces (c : Coll) : Bool := c.op == 2 || c.op == 3

/-! ## Shards, segments and phases (R355 to R360) -/

/-- P: the largest power of two not above `n`. -/
def pow2Floor (n : Nat) : Nat := 2 ^ Nat.log2 n

def Coll.p (c : Coll) : Nat := pow2Floor c.n

/-- E (R357). -/
def segMax (n : Nat) : Nat := if pow2Floor n = n then 262144 else 131072

/-- E_p (R357). -/
def pieceMax (n : Nat) : Nat := segMax n / (64 * n) * 64

/-- Elements that one segment takes, of the buffer or of each piece. -/
def Coll.stride (c : Coll) : Nat := if c.op = 2 then segMax c.n else pieceMax c.n

/-- Number of segments. -/
def Coll.segments (c : Coll) : Nat := if c.reduces then ceilDiv c.count c.stride else 1

/-- Elements of segment `t`, of the buffer or of each piece; a unit of ALLGATHER is 16 bytes. -/
def Coll.len (c : Coll) (t : Nat) : Nat :=
  if c.reduces then min c.count ((t + 1) * c.stride) - t * c.stride else c.count / 16

/-- Elements of piece `q` in a segment whose elements lie piece after piece. -/
def pieceIdx (m q : Nat) : List Nat := (List.range m).map (q * m + ·)

/-- Shard `q` of segment `t` as indices into the segment (R357); the pieces an ALLGATHER holds with piece `q` (R360). -/
def Coll.shard (c : Coll) (t q : Nat) : List Nat :=
  let m := c.len t
  if c.op = 2 then
    let a := q * m / c.p
    (List.range ((q + 1) * m / c.p - a)).map (a + ·)
  else pieceIdx m q ++ (if q < c.n - c.p then pieceIdx m (c.p + q) else [])

def Coll.all (c : Coll) (t : Nat) : List Nat := List.range (if c.op = 2 then c.len t else c.n * c.len t)

/-- A step of a rank in a segment: the phase (0 fold, 10 + k halving, 20 finish, 30 + k doubling, 50 unfold), the partner, and
whether it sends and receives. -/
structure CStep where
  phase   : Nat
  partner : Nat
  send    : Bool
  recv    : Bool
  deriving DecidableEq, Repr

/-- The steps of R358 and R360 for this rank; an exchange of all with all has one for every other rank. -/
def Coll.steps (c : Coll) : List CStep :=
  let lg := Nat.log2 c.p
  let r := c.rank
  if c.op = 5 ∨ c.op = 6 then ((List.range c.n).filter (· ≠ r)).map fun j => ⟨0, j, true, true⟩
  else if c.p ≤ r then [⟨0, r - c.p, true, false⟩, ⟨50, r - c.p, false, true⟩]
  else
    (if r < c.n - c.p then [⟨0, c.p + r, false, true⟩] else []) ++
    (if c.reduces then (List.range lg).map fun k => ⟨11 + k, r ^^^ (c.p / 2 ^ (k + 1)), true, true⟩ else []) ++
    (if c.reduces then [⟨20, r, false, false⟩] else []) ++
    (if c.op = 3 then [] else (List.range lg).map fun k => ⟨31 + k, r ^^^ (2 ^ k), true, true⟩) ++
    (if r < c.n - c.p then [⟨50, c.p + r, true, false⟩] else [])

/-- What rank `r` sends in a phase, as indices into the segment. -/
def Coll.sendIdx (c : Coll) (t r phase : Nat) : List Nat :=
  let qs (f : Nat → Bool) : List Nat := ((List.range c.p).filter f).flatMap (c.shard t)
  if phase = 0 then (if c.op = 4 then pieceIdx (c.len t) r else c.all t)
  else if phase < 20 then
    let d := c.p / 2 ^ (phase - 10)
    qs fun q => q / (2 * d) == r / (2 * d) && q / d != r / d
  else if phase < 50 then let h := 2 ^ (phase - 31); qs fun q => q / h == r / h
  else if c.op = 3 then pieceIdx (c.len t) (c.p + r)
  else c.all t

/-- Bytes of an element of a format. -/
def fmtBytes (f : Nat) : Nat := if f = 8 then 4 else 2

/-- Bytes of an element as it travels in a phase. -/
def Coll.width (c : Coll) (phase : Nat) : Nat :=
  if !c.reduces then 16 else if phase = 0 then fmtBytes c.fin else if phase < 20 then 4 else fmtBytes c.fout

/-- Byte offset from SRC of index `i` of segment `t`. -/
def Coll.srcOff (c : Coll) (t i : Nat) : Nat :=
  if c.op = 2 then (t * c.stride + i) * fmtBytes c.fin
  else if c.op = 3 then (i / c.len t * c.count + t * c.stride + i % c.len t) * fmtBytes c.fin
  else i % c.len t * 16

/-- Byte offset from DST of index `i` of segment `t`. -/
def Coll.dstOff (c : Coll) (t i : Nat) : Nat :=
  if c.op = 2 then (t * c.stride + i) * fmtBytes c.fout
  else if c.op = 3 then (t * c.stride + i % c.len t) * fmtBytes c.fout
  else i * 16

/-! ## Buffers (R349, R356, R359) -/

/-- One element at a byte offset from a buffer address. -/
def State.collGet (s : State) (t addr : Nat) (spm : Bool) (off w : Nat) : CElem :=
  if spm then
    let x := s.tile (addr / 2 ^ 32 % 128)
    let o := addr % 2 ^ 23 + off
    { v := leNat (x.read o w), flush := false, bad := x.readBad o w }
  else match s.taRead t (addr + off) w with
    | some (bs, bad) => { v := leNat bs, flush := false, bad := bad }
    | none => { v := 0, flush := false, bad := false }

/-- Write bytes with one poison bit for each `w` of them, 64-byte line by line; a write to the tenant's HBM counts in its unit
(R476) in requests of at most 256 bytes. -/
def State.collPut (s : State) (t : Nat) (ref : CmdRef) (addr : Nat) (spm : Bool) (off w : Nat) (es : List CElem) : State :=
  let bytes := es.flatMap fun e => leBytes w e.v
  let o := addr % (if spm then 2 ^ 23 else 2 ^ 40) + off
  let line (s : State) (a n : Nat) : State :=
    let bs := (bytes.drop (a - o)).take n
    let bad := ((es.drop ((a - o) / w)).take (ceilDiv n w)).any (·.bad)
    if spm then s.updTile (addr / 2 ^ 32 % 128) fun x => x.write a bs bad
    else (s.taWrite t a bs bad).poolMirror t a bs bad
  (cut256 o bytes.length).foldl (fun s (a, n) =>
    let cuts := (List.range 5).filterMap fun i =>
      let lo := max a ((a / 64 + i) * 64)
      let hi := min (a + n) ((a / 64 + i + 1) * 64)
      if lo < hi then some (lo, hi - lo) else none
    let s := cuts.foldl (fun s (l, k) => line s l k) s
    let bits := (cuts.map fun (l, k) => badBits (l - a) k (((es.drop ((l - o) / w)).take (ceilDiv k w)).any (·.bad))).foldl (· ||| ·) 0
    if spm then s else s.cmdWrite t ref a ((bytes.drop (a - o)).take n) bits 0) s

/-- COL_POISON, recorded once for a collective (R359, R373). -/
def State.collPoison (s : State) (c : Coll) (bad : Bool) : State × Coll :=
  if bad && !c.noted then
    ((s.raiseCmd c.tenant c.ref 0xB3 {}).noteWork c.tenant c.ref 0xB3, { c with noted := true })
  else (s, c)

/-- Finished elements go into DST, counted as they are written (R138, R356). -/
def State.collDeliver (s : State) (c : Coll) (t phase : Nat) (idx : List Nat) (es : List CElem) : State :=
  let w := c.width phase
  let s := ((runsOf idx).foldl (fun (s, es) (i, n) => (s.collPut c.tenant c.ref c.dst c.dstSpm (c.dstOff t i) w (es.take n), es.drop n)) (s, es)).1
  if !c.reduces then s
  else
    let nan (e : CElem) : Bool := match fmtOfCode c.fout with
      | some f => (decodeVal f e.v).isNan
      | none => false
    let good := es.filter fun e => !e.bad
    let (flush, nans) := ((good.filter (·.flush)).length, (good.filter nan).length)
    let s := if c.ref.isRing then s else s.tallyTenant c.tenant 0 flush nans
    s.updCmd c.tenant c.ref fun x => x.count 0 flush nans 0

/-! ## Sending (R352, R354, R359) -/

def Coll.mod (c : Coll) (j : Nat) : Nat := c.mods.getD j 0

/-- Pack one bit of each element. -/
def packBits (bs : List Bool) : Nat := (bs.zipIdx.map fun (b, i) => b.toNat * 2 ^ i).foldl (· + ·) 0

/-- A VC1 packet of a collective to rank `j`. -/
def State.collPacket (s : State) (c : Coll) (j : Nat) (payload : List Byte) (m : CollMsg) : State :=
  let p : Packet :=
    { kind := .write, vc := 1, cls := 0, dst := c.mod j, src := 0, tenant := c.tenant, space := if c.dstSpm then 4 else 3, gen := 0,
      tag := 0, addr := 0, bad := 0, cnt := 0, cntEn := false, payload := payload, ctl := some (.coll m) }
  (s.sendPacket p false (.coll c.tenant c.group c.cseq) false).getD s

/-- Elements to rank `j`, in packets of at most 256 bytes. -/
def State.collSend (s : State) (c : Coll) (j t phase : Nat) (idx : List Nat) (es : List CElem) : State :=
  let w := c.width phase
  let k := 256 / w
  ((runsOf idx).foldl (fun (s, es) (i, n) =>
    let s := (List.range (ceilDiv n k)).foldl (fun s q =>
      let part := ((es.take n).drop (q * k)).take k
      s.collPacket c j (part.flatMap fun e => leBytes w e.v)
        { tenant := c.tenant, group := c.group, cseq := c.cseq, rank := c.rank, seg := t, phase := phase, at_ := i + q * k,
          flush := packBits (part.map (·.flush)), bad := packBits (part.map (·.bad)), head := none }) s
    (s, es.drop n)) (s, es)).1

def Coll.token (c : Coll) (seg phase landing j : Nat) : CollTok :=
  { tenant := c.tenant, group := c.group, cseq := c.cseq, rank := c.rank, digest := c.digest, op := c.op, red := c.red,
    fin := c.fin, fout := c.fout, count := c.count, seg := seg, phase := phase, dst := c.dst, dstSpm := c.dstSpm,
    landing := landing, off := (c.table.getD 2 []).getD j 0, cap := (c.table.getD 3 []).getD j 0 }

def dedup (xs : List Nat) : List Nat := xs.foldl (fun ys x => if ys.contains x then ys else ys ++ [x]) []

/-- Tokens of a segment to every partner. -/
def State.collTokens (s : State) (c : Coll) (seg landing : Nat) : State :=
  (dedup ((c.steps.filter fun x => x.partner ≠ c.rank).map (·.partner))).foldl
    (fun s j => s.sendCtl (c.mod j) (.token (c.token seg 0 landing j))) s

/-- Does a token differ from this module's collective (R353)? -/
def Coll.differs (c : Coll) (k : CollTok) : Bool :=
  k.digest != c.digest || k.op != c.op || k.red != c.red || k.fin != c.fin || k.fout != c.fout || (c.op != 6 && k.count != c.count)

/-! ## How a collective ends (R354, R368, R369) -/

/-- The dies' counts of claimed slots (R374). -/
def State.showPool (s : State) : State :=
  (List.range 4).foldl (fun s d => s.setFld (colPool d) 8 5 ((s.coll.slots.filter fun x => x / 24 == d).length)) s

def State.releaseSlots (s : State) (sg : CSeg) : State :=
  match sg.slots with
  | some (a, b) => ({ s with coll := { s.coll with slots := s.coll.slots.filter fun x => x != a && x != b } }).showPool
  | none => s

def CSeg.free (sg : CSeg) : CSeg := { sg with slots := none }

/-- End a collective with a status; `broke` sends aborts to the ranks that can be reached and breaks the group. -/
def State.endColl (s : State) (c : Coll) (status : Nat) (broke : Bool) : State :=
  let s := c.segs.foldl State.releaseSlots s
  let s : State := { s with coll := { s.coll with
    runs := s.coll.runs.filter fun x => !x.is c.tenant c.group c.cseq,
    toks := s.coll.toks.filter fun k => !(k.tenant == c.tenant && k.group == c.group && k.cseq == c.cseq) } }
  let s := s.setFld (colTnt c.tenant 0x14) 0 4 (s.flying c.tenant).length
  let s := if status = 0 then s.bump (colTnt c.tenant 0) 1 else if status = 0x34 then s else s.bump (colTnt c.tenant 0x10) 1
  let s := if broke then
      let s := s.setFld (colGrp c.tenant c.group) 0 2 gsBroken
      c.mods.zipIdx.foldl (fun s (m, j) => if j = c.rank then s else s.sendCtl m (.abort c.tenant c.group c.cseq)) s
    else s
  (s.updCmd c.tenant c.ref fun x => if status = 0 then x else { x with status := status }).endWork c.tenant c.ref

/-- End every collective in flight that satisfies `f`. -/
def State.endColls (s : State) (f : Coll → Bool) (status : Nat) : State :=
  (s.coll.runs.filter f).foldl (fun s c => s.endColl c status true) s

/-- A tenant reset (R369): COL_ABORTED, and every group unbound. -/
def State.resetColls (s : State) (t : Nat) : State :=
  let s := s.endColls (·.tenant == t) 0x32
  let s : State := { s with coll := { s.coll with groups := s.coll.groups.filter fun (k, _) => k / 16 ≠ t,
                                                  toks := s.coll.toks.filter (·.tenant != t) } }
  s.zeroRegs (colGrp t 0) (colGrp t 16)

/-- Collectives with a rank that can no longer be reached end with COL_UNREACH (R369). -/
def State.collReach (s : State) : State :=
  (s.coll.runs.filter fun c => c.mods.zipIdx.any fun (m, j) => j != c.rank && !s.reachable m).foldl (fun s c => s.endColl c 0x33 true) s

/-! ## Running (R358, R360 to R363) -/

/-- The partner's token for a segment (and, for BARRIER, its phase), if it has come. -/
def Coll.tokenOf (c : Coll) (j seg phase : Nat) : Option CollTok :=
  c.toks.find? fun k => k.rank == j && k.seg == seg && (c.op != 7 || k.phase == phase)

/-- RED of R355. -/
def redOp (red : Nat) (a b : W32) : W32 × Bool :=
  if red = 0 then add32 a b
  else if red = 1 then (exact32 ((val32 a).max (val32 b)), false) else (exact32 ((val32 a).min (val32 b)), false)

/-- One addition of the tree, lower rank first, with flush and poison bits (R355, R356). -/
def combine (red : Nat) (lo hi : CElem) : CElem :=
  let (v, fl) := redOp red (BitVec.ofNat 32 lo.v) (BitVec.ofNat 32 hi.v)
  { v := v.toNat, flush := lo.flush || hi.flush || fl, bad := lo.bad || hi.bad }

/-- Widen an input element exactly to FP32 (R133, R355). -/
def widen (fmt : Nat) (e : CElem) : CElem :=
  match fmtOfCode fmt with
  | some f => { e with v := (exact32 (decodeVal f e.v)).toNat }
  | none => e

/-- Convert a finished element to FMT_OUT (R355). -/
def finishElem (fmt : Nat) (e : CElem) : CElem :=
  match fmtOfCode fmt with
  | some f => { e with v := (convert f .rne (val32 (BitVec.ofNat 32 e.v))).code }
  | none => e

/-- Change the elements at some indices. -/
def putAt (xs : List CElem) (idx : List Nat) (ys : List CElem) : List CElem :=
  (idx.zip ys).foldl (fun xs (i, y) => xs.set i y) xs

def getAt (xs : List CElem) (idx : List Nat) : List CElem := idx.map fun i => xs.getD i { v := 0, flush := false, bad := false }

/-- The elements that have come from a rank in a phase, in index order; `none` while some are missing. -/
def Coll.received (c : Coll) (j seg phase : Nat) (idx : List Nat) : Option (List CElem) :=
  let ps := c.parts.filter fun p => p.rank == j && p.seg == seg && p.phase == phase
  idx.mapM fun i => ps.findSome? fun p => if p.at_ ≤ i then p.elems[i - p.at_]? else none

def Coll.drop (c : Coll) (j seg phase : Nat) : Coll :=
  { c with parts := c.parts.filter fun p => !(p.rank == j && p.seg == seg && p.phase == phase) }

/-- What a rank sends in a phase: SRC in FMT_IN in a fold, else the working vector; ALLGATHER sends from SRC or DST. -/
def State.collValues (s : State) (c : Coll) (sg : CSeg) (phase : Nat) (idx : List Nat) : List CElem :=
  if c.reduces && phase != 0 then getAt sg.work idx
  else if phase = 0 then idx.map fun i => s.collGet c.tenant c.src c.srcSpm (c.srcOff sg.t i) (c.width 0)
  else idx.map fun i => s.collGet c.tenant c.dst c.dstSpm (c.dstOff sg.t i) 16

/-- One step of a segment, if it can be done: `none` while it waits. -/
def State.collStep (s : State) (c : Coll) (sg : CSeg) (x : CStep) : Option (State × Coll × CSeg) :=
  if x.phase = 20 then
    let idx := c.shard sg.t c.rank
    let out := (getAt sg.work idx).map (finishElem c.fout)
    let sg := { sg with work := putAt sg.work idx out }
    let mine := if c.op = 3 then pieceIdx (c.len sg.t) c.rank else idx
    let s := (s.collDeliver c sg.t 20 mine (getAt sg.work mine)).releaseSlots sg
    some (s, c, { sg.free with step := sg.step + 1, sent := false })
  else if c.op = 7 then
    let (s, sg) := if x.send && !sg.sent then (s.sendCtl (c.mod x.partner) (.token (c.token 0 x.phase 0 x.partner)), { sg with sent := true })
      else (s, sg)
    if x.recv && (c.tokenOf x.partner 0 x.phase).isNone then some (s, c, sg) |>.filter fun _ => x.send && sg.sent
    else some (s, c, { sg with step := sg.step + 1, sent := false })
  else match c.tokenOf x.partner sg.t x.phase with
    | none => none
    | some _ =>
      let (s, c, sg) :=
        if x.send && !sg.sent then
          let idx := c.sendIdx sg.t c.rank x.phase
          let es := s.collValues c sg x.phase idx
          let s := s.collSend c x.partner sg.t x.phase idx es
          let (s, c) := s.collPoison c (es.any (·.bad))
          (s, c, { sg with sent := true })
        else (s, c, sg)
      if !x.recv then
        let s := if x.phase = 0 then s.releaseSlots sg else s
        some (s, c, { (if x.phase = 0 then sg.free else sg) with step := sg.step + 1, sent := false })
      else
        let idx := c.sendIdx sg.t x.partner x.phase
        match c.received x.partner sg.t x.phase idx with
        | none => some (s, c, sg)
        | some es =>
          let c := c.drop x.partner sg.t x.phase
          let (s, c) := s.collPoison c (es.any (·.bad))
          let (s, sg) :=
            if c.reduces && x.phase < 20 then
              let es := if x.phase = 0 then es.map (widen c.fin) else es
              let own := getAt sg.work idx
              let low := decide (c.rank < x.partner)
              (s, { sg with work := putAt sg.work idx ((own.zip es).map fun (a, b) => if low then combine c.red a b else combine c.red b a) })
            else (s.collDeliver c sg.t x.phase idx es, if c.reduces then { sg with work := putAt sg.work idx es } else sg)
          some (s, c, { sg with step := sg.step + 1, sent := false })

/-- Take a segment's steps as far as they go. -/
def State.collAdvance (s : State) (c : Coll) (sg : CSeg) : Nat → State × Coll × CSeg
  | 0 => (s, c, sg)
  | fuel + 1 =>
    match c.steps[sg.step]? with
    | none => (s, c, sg)
    | some x =>
      match s.collStep c sg x with
      | none => (s, c, sg)
      | some (s, c, sg') => if sg'.step = sg.step then (s, c, sg') else s.collAdvance c sg' fuel

/-- An exchange of all with all: the pieces for ranks whose token has come are sent (R361 to R363). `done` holds the ranks
already served, kept in the segment's step as a mask. -/
def State.exchange (s : State) (c : Coll) (sg : CSeg) : State × Coll × CSeg :=
  ((List.range c.n).filter fun j => !bitOf sg.step j).foldl (fun (s, c, sg) j =>
    let tok := if j = c.rank then some (c.token 0 0 0 j) else c.tokenOf j 0 0
    match tok with
    | none => (s, c, sg)
    | some k =>
      let (so, len, d, cap) := if c.op = 5 then (j * c.count, c.count, c.rank * c.count, c.count)
        else ((c.table.getD 0 []).getD j 0, (c.table.getD 1 []).getD j 0, k.off, k.cap)
      let n := min len cap
      let es := (List.range (n / 16)).map fun i => s.collGet c.tenant c.src c.srcSpm (so + 16 * i) 16
      let (s, c) := s.collPoison c (es.any (·.bad))
      let excess := c.op == 6 && decide (cap < len)
      let c := { c with excess := c.excess || excess }
      let sg := { sg with step := sg.step + 2 ^ j }
      if j = c.rank then
        let s := s.collPut c.tenant c.ref c.dst c.dstSpm d 16 es
        (s, { c with heads := aput c.heads j len }, sg)
      else
        let s := s.collPacket c j []
          { tenant := c.tenant, group := c.group, cseq := c.cseq, rank := c.rank, seg := 0, phase := 0, at_ := 0, flush := 0, bad := 0,
            head := some len }
        (s.collSend c j 0 0 ((List.range (n / 16)).map (d / 16 + ·)) es, c, sg)) (s, c, sg)

/-- Pieces that have come go into DST at once (R361). -/
def State.landPieces (s : State) (c : Coll) : State × Coll :=
  c.parts.foldl (fun (s, c) p =>
    if p.elems.isEmpty then (s, c)
    else
      let (s, c) := s.collPoison c (p.elems.any (·.bad))
      let s := s.collPut c.tenant c.ref c.dst c.dstSpm (16 * p.at_) 16 p.elems
      (s, { c with parts := c.parts.map fun x => if x = p then { x with at_ := x.elems.length, elems := [], seg := 1 } else x })) (s, c)

/-- Bytes that have landed from a rank. -/
def Coll.landed (c : Coll) (j : Nat) : Nat := ((c.parts.filter fun p => p.rank == j && p.seg == 1).map (16 * ·.at_)).foldl (· + ·) 0

/-- RECV_CAP of the piece from rank `j`. -/
def Coll.cap (c : Coll) (j : Nat) : Nat := if c.op = 5 then c.count else (c.table.getD 3 []).getD j 0

/-- Have every rank's header and its bytes come (R363)? -/
def Coll.haveAll (c : Coll) : Bool :=
  (List.range c.n).all fun j => match aget c.heads j with
    | some n => j == c.rank || decide (min n (c.cap j) ≤ c.landed j)
    | none => false

/-- Go on with a collective as far as its tokens and data allow. -/
def State.runColl (s : State) (t g q : Nat) : State :=
  match s.run t g q with
  | none => s
  | some c =>
    if c.op = 5 ∨ c.op = 6 then
      let (s, c) := s.landPieces c
      match c.segs with
      | [sg] => let (s, c, sg) := s.exchange c sg; s.putRun { c with segs := [sg] }
      | _ => s.putRun c
    else
      c.segs.foldl (fun s sg0 =>
        match s.run t g q with
        | none => s
        | some c =>
          match c.segs.find? (·.t == sg0.t) with
          | none => s
          | some sg =>
            let (s, c, sg) := s.collAdvance c sg 64
            s.putRun { c with segs := c.segs.map fun x => if x.t = sg.t then sg else x }) s

def Coll.segDone (c : Coll) (sg : CSeg) : Bool :=
  if c.op = 5 ∨ c.op = 6 then sg.step == 2 ^ c.n - 1 && c.haveAll else decide (c.steps.length ≤ sg.step)

/-- Has everything of a collective but its acknowledgements been done? -/
def Coll.finished (c : Coll) : Bool := c.next == c.segments && c.segs.all c.segDone

/-! ## Segments (R365, R366) -/

/-- The two lowest free slots of a mask. -/
def State.claimSlots (s : State) (mask : Nat) : Option (Nat × Nat) :=
  match (bitsOf 96 mask).filter fun x => !s.coll.slots.contains x with
  | a :: b :: _ => some (a, b)
  | _ => none

/-- Start the next segment of a reduction. -/
def State.segStart (s : State) (c : Coll) : State :=
  let running := c.segs.filter fun sg => !c.segDone sg
  if !c.reduces || c.next == c.segments || decide (4 ≤ running.length) then s
  else
    let pos := ((List.range 4).find? fun i => !(running.any (·.pos == i))).getD 0
    let mask := ((s.part c.tenant).map (·.spMask)).getD 0
    let slots := s.claimSlots mask
    let s := match slots with
      | some (a, b) => [a, b].foldl (fun (s : State) x => s.bump (colPool (x / 24) + 4) 1)
          ({ s with coll := { s.coll with slots := s.coll.slots ++ [a, b] } }).showPool
      | none => s.bump (colTnt c.tenant 8) 1
    let s := s.bump (colTnt c.tenant 4) 1
    let landing := match slots with
      | some (a, _) => a
      | none => 96 + 4 * c.idx + pos
    let work := if c.p ≤ c.rank then (c.all c.next).map fun _ => { v := 0, flush := false, bad := false }
      else (c.all c.next).map fun i => widen c.fin (s.collGet c.tenant c.src c.srcSpm (c.srcOff c.next i) (fmtBytes c.fin))
    let (s, c) := s.collPoison c (work.any (·.bad))
    let sg : CSeg := { t := c.next, pos := pos, slots := slots, work := work, step := 0, sent := false }
    let s := s.putRun { c with segs := c.segs ++ [sg], next := c.next + 1 }
    (s.collTokens c sg.t landing).runColl c.tenant c.group c.cseq

/-- COLL_SEGMENT_START. -/
def execCollSegmentStart (t g q : Nat) (s : State) : Host.Outcome State Fault Refusal :=
  match s.run t g q with
  | some c => .next (s.segStart c)
  | none => .next s

/-! ## Checks of the command (R349, R350, R362, R373) -/

/-- The operands of COLL. -/
structure CollArgs where
  op    : Nat
  group : Nat
  srcSpm : Bool
  dstSpm : Bool
  red   : Nat
  prio  : Nat
  fin   : Nat
  fout  : Nat
  count : Nat
  src   : Nat
  dst   : Nat
  tbl   : Nat
  rsvd  : Bool
  deriving DecidableEq, Repr

def collArgs (b : List Byte) : CollArgs :=
  { op := fieldAt b 0x10 1, group := fieldAt b 0x11 1 % 16, srcSpm := bitOf (fieldAt b 0x11 1) 4, dstSpm := bitOf (fieldAt b 0x11 1) 5,
    red := fieldAt b 0x12 1 % 4, prio := fieldAt b 0x12 1 / 4 % 4, fin := fieldAt b 0x13 1 % 16, fout := fieldAt b 0x13 1 / 16,
    count := fieldAt b 0x14 4, src := fieldAt b 0x18 8, dst := fieldAt b 0x20 8, tbl := fieldAt b 0x28 8,
    rsvd := decide (8 ≤ fieldAt b 0x10 1) || decide (64 ≤ fieldAt b 0x11 1) || decide (16 ≤ fieldAt b 0x12 1) || !zeros b 0x30 0x40 }

def collFmts : List Nat := [1, 2, 8]

/-- Bits that a buffer address may use, and its alignment. -/
def bufOk (a : Nat) (spm : Bool) : Bool := a % 16 == 0 && (if spm then a &&& (2 ^ 23 - 1 + 127 * 2 ^ 32) == a else decide (a < 2 ^ 40))

/-- Do two buffers overlap? -/
def bufOverlap (a : Nat) (sa : Bool) (n b : Nat) (sb : Bool) (m : Nat) : Bool :=
  sa == sb && (!sa || a / 2 ^ 32 == b / 2 ^ 32) && !apart (if sa then a % 2 ^ 23 else a) n (if sb then b % 2 ^ 23 else b) m

/-- Bytes of SRC and DST in a group of `n` ranks (R350). -/
def CollArgs.sizes (a : CollArgs) (n : Nat) : Nat × Nat :=
  match a.op with
  | 2 => (a.count * fmtBytes a.fin, a.count * fmtBytes a.fout)
  | 3 => (n * a.count * fmtBytes a.fin, a.count * fmtBytes a.fout)
  | 4 => (a.count, n * a.count)
  | 5 => (n * a.count, n * a.count)
  | _ => (0, 0)

/-- What is wrong with the fields of a collective in a group of `n` ranks: COL_ARG. -/
def CollArgs.bad (a : CollArgs) (n : Nat) : Bool :=
  a.rsvd || a.red == 3 ||
  (if a.op = 2 ∨ a.op = 3 then !collFmts.contains a.fin || !collFmts.contains a.fout else a.fin != 0 || a.fout != 0) ||
  (a.op != 0 && a.op != 6 && a.tbl != 0) ||
  (match a.op with
    | 0 => decide (2 ^ 40 ≤ a.tbl) || a.tbl % 16 != 0
    | 1 => false
    | 7 => a.src != 0 || a.dst != 0 || a.count != 0
    | 6 => a.count != 0 || decide (2 ^ 40 ≤ a.tbl) || a.tbl % 64 != 0 || !bufOk a.src a.srcSpm || !bufOk a.dst a.dstSpm
    | _ =>
      let (x, y) := a.sizes n
      a.count == 0 || !bufOk a.src a.srcSpm || !bufOk a.dst a.dstSpm || bufOverlap a.src a.srcSpm x a.dst a.dstSpm y ||
      (if a.op = 2 then decide (2 ^ 28 < a.count) else if a.op = 3 then decide (2 ^ 28 < n * a.count)
        else decide (2 ^ 32 ≤ n * a.count) || a.count % 16 != 0))

/-- Is `n` bytes of a buffer out of reach, for reading or for writing? The code and address. -/
def State.bufBar (s : State) (t : Nat) (p : Partition) (a : Nat) (spm : Bool) (off n : Nat) (write : Bool) : Option (Nat × Nat) :=
  if n = 0 then none
  else if spm then
    if s.tileOf t (a / 2 ^ 32 % 128) && inShare p.share (a % 2 ^ 23 + off) n then none else some (0xB1, a)
  else if !write then (if s.taMapped t (a + off) n then none else some (0xB1, a))
  else match s.taLoc t (a + off), s.taLoc t (a + off + n - 1) with
    | .own _, .own _ => (s.taWriteBar t (a + off) n 0xB1).map fun e => (e, a)
    | _, _ => some (0xB1, a)

/-- The size table's arrays 0 to 3 (R362). -/
def State.sizeTable (s : State) (t tbl : Nat) : List (List Nat) :=
  (List.range 4).map fun a => (List.range 64).map fun j => ((s.taRead t (tbl + 256 * a + 4 * j) 4).map fun x => leNat x.1).getD 0

/-- The checks of ALLTOALLV's table: entries, receiving areas, and the buffers they name. -/
def State.tableBar (s : State) (t : Nat) (p : Partition) (a : CollArgs) (n : Nat) : Option (Nat × Nat) :=
  match s.bufBar t p a.tbl false 0 1280 true with
  | some e => some e
  | none =>
    let tb := s.sizeTable t a.tbl
    let e (k j : Nat) : Nat := (tb.getD k []).getD j 0
    let js := List.range n
    if js.any fun j => (List.range 4).any fun k => e k j % 16 != 0 then some (0xB0, a.tbl)
    else if (js.any fun i => js.any fun j => i < j && !apart (e 2 i) (e 3 i) (e 2 j) (e 3 j)) ||
        (js.any fun i => js.any fun j => bufOverlap (a.src + e 0 i) a.srcSpm (e 1 i) (a.dst + e 2 j) a.dstSpm (e 3 j)) then some (0xB0, a.tbl)
    else firstOf ((js.map fun j => s.bufBar t p a.src a.srcSpm (e 0 j) (e 1 j) false) ++
      (js.map fun j => s.bufBar t p a.dst a.dstSpm (e 2 j) (e 3 j) true))

/-- An entry of a group descriptor: whose module it names here. -/
def entryPair (e : Nat) : Nat := e % 32
def entryMember (e : Nat) : Nat := e / 32 % 4

/-- Does an entry name this module (R347)? -/
def State.entryHere (s : State) (e : Nat) : Bool :=
  entryPair e == s.moduleId / 2 && (entryMember e == s.moduleId % 2 || (entryMember e == 2 && s.servesPair))

/-- Is a group descriptor invalid (R347)? -/
def State.groupBad (s : State) (d : List Byte) : Bool :=
  let n := fieldAt d 0 1
  let rank := fieldAt d 1 1
  let es := (List.range 64).map fun i => fieldAt d (16 + i) 1
  let used := es.take n
  decide (n < 1 ∨ 64 < n ∨ n ≤ rank) || !zeros d 2 16 || (used.any fun e => decide (128 ≤ e) || entryMember e == 3) || ((es.drop n).any (· ≠ 0)) ||
  !allPairs (fun a b => !(a == b || (entryPair a == entryPair b && (entryMember a == 2 || entryMember b == 2)))) used ||
  !s.entryHere (es.getD rank 0)

/-- Bytes 0x00 and 0x10 to 0x4F under CRC-32C (R346). -/
def groupDigest (d : List Byte) : Nat := crc32c (d.take 1 ++ (d.drop 16).take 64)

/-- What keeps a COLL from its dispatch, with the address at fault (R347, R350, R373, R486). -/
def State.collCheck (s : State) (t : Nat) (p : Partition) (x : RCmd) : Option (Nat × Nat) :=
  let a := collArgs x.bytes
  let n := ((s.grp t a.group).map (·.n)).getD 1
  if a.bad n then some (0xB0, 0)
  else if a.op = 0 then
    if !s.taMapped t a.tbl 80 then some (0xB1, a.tbl)
    else match s.taRead t a.tbl 80 with
      | some (d, bad) =>
        if s.grpState t a.group ≠ gsUnbound then none
        else if bad then some (0x06, a.tbl)
        else if s.groupBad d then some (0xB2, a.tbl) else none
      | none => some (0xB1, a.tbl)
  else if a.op = 1 ∨ a.op = 7 then none
  else if a.op = 6 then s.tableBar t p a n
  else
    let (x, y) := a.sizes n
    (s.bufBar t p a.src a.srcSpm 0 x false).orElse fun _ => s.bufBar t p a.dst a.dstSpm 0 y true

/-! ## The commands (R347 to R351, R353) -/

/-- The module an entry names at a collective's start (R348). -/
def State.resolveEntry (s : State) (t e : Nat) : Option Nat :=
  let m := entryMember e
  if m = 2 ∧ s.comparing t then s.resolve (entryPair e) (s.moduleId % 2) else s.resolve (entryPair e) m

/-- Take a token into a collective in flight; a difference ends it with COL_MISMATCH (R353). -/
def State.takeToken (s : State) (c : Coll) (k : CollTok) : State :=
  if c.differs k then s.endColl c 0x31 true
  else (s.putRun { c with toks := c.toks ++ [k] }).runColl c.tenant c.group c.cseq

/-- Dispatch of a COLL other than BIND and UNBIND. -/
def State.startColl (s : State) (t : Nat) (ref : CmdRef) (x : RCmd) : Option State :=
  let a := collArgs x.bytes
  let end_ (s : State) (status : Nat) : State := (s.updCmd t ref fun y => { y with status := status }).endWork t ref
  match s.grp t a.group with
  | none => some (end_ (s.begin_ t ref none) 0x30)
  | some g =>
    if 8 ≤ (s.flying t).length then none
    else
      let q := s.cseq t a.group
      let s := (s.begin_ t ref none).setWord (colGrp t a.group + 4) (BitVec.ofNat 32 (q + 1))
      if s.grpState t a.group = gsBroken then some (end_ s 0x35)
      else if (a.op = 2 ∨ a.op = 3) ∧ ((s.part t).map (·.stageSize)).getD 0 < 2 ^ 25 then some (end_ s 0x30)
      else
        let s := s.updCmd t ref fun y => { y with tag := q }
        let mods := g.ents.zipIdx.map fun (e, j) => if j = g.rank then some s.moduleId else s.resolveEntry t e
        let tbl := if a.op = 6 then s.sizeTable t a.tbl else []
        let idx := ((List.range 8).find? fun i => !((s.flying t).any (·.idx == i))).getD 0
        let sg : CSeg := { t := 0, pos := 0, slots := none, work := [], step := 0, sent := false }
        let red := a.op == 2 || a.op == 3
        let c : Coll :=
          { tenant := t, group := a.group, cseq := q, ref := ref, op := a.op, red := a.red, prio := a.prio, fin := a.fin,
            fout := a.fout, count := a.count, src := a.src, srcSpm := a.srcSpm, dst := a.dst, dstSpm := a.dstSpm, tbl := a.tbl,
            idx := idx, n := g.n, rank := g.rank, mods := mods.map (·.getD s.moduleId), digest := g.digest, table := tbl,
            segs := if red then [] else [sg], next := if red then 0 else 1, toks := [], parts := [], heads := [], excess := false,
            noted := false }
        let s : State := { s with coll := { s.coll with runs := s.coll.runs ++ [c] } }
        let s := s.setFld (colTnt t 0x14) 0 4 (s.flying t).length
        if mods.any (·.isNone) then some (s.endColl c 0x33 true)
        else
          let (s, c) := if a.op = 6 then s.collPoison c (((s.taRead t a.tbl 1024).map (·.2)).getD false) else (s, c)
          let s := s.putRun c
          -- an ALLGATHER's own piece
          let s := if a.op = 4 && decide (g.rank < c.p) then
              let own := (List.range (c.len 0)).map fun i => s.collGet t a.src a.srcSpm (16 * i) 16
              let (s, c) := s.collPoison c (own.any (·.bad))
              (s.putRun c).collPut t c.ref a.dst a.dstSpm (g.rank * a.count) 16 own
            else s
          let s := if red || a.op == 7 then s else s.collTokens c 0 0
          let held := s.coll.toks.filter fun k => k.tenant == t && k.group == a.group && k.cseq == q
          let s : State := { s with coll := { s.coll with toks := s.coll.toks.filter fun k => !held.contains k } }
          let s := held.foldl (fun s k => match s.run t a.group q with
            | some c => s.takeToken c k
            | none => s) s
          some (s.runColl t a.group q)

def State.collCmd (s : State) (t : Nat) (ref : CmdRef) (op : Nat) (act : State → RCmd → Option State) : State :=
  match s.cmd t ref with
  | some x =>
    if (x.op == 0x0A && fieldAt x.bytes 0x10 1 == op) || !validOpc x.op then s.dispatch t ref [0x0A] (fun s p x => s.collCheck t p x) act
    else s
  | none => s

/-- BIND (R347). -/
def execCollBind (t : Nat) (c : CmdRef) (s : State) : Host.Outcome State Fault Refusal :=
  .next (s.collCmd t c 0 fun s x =>
    let a := collArgs x.bytes
    let s := s.begin_ t c none
    if s.grpState t a.group ≠ gsUnbound then some ((s.updCmd t c fun y => { y with status := 0x30 }).endWork t c)
    else match s.taRead t a.tbl 80 with
      | none => some (s.endWork t c)
      | some (d, _) =>
        let g : Grp := { n := fieldAt d 0 1, rank := fieldAt d 1 1, ents := (List.range (fieldAt d 0 1)).map fun i => fieldAt d (16 + i) 1,
                         digest := groupDigest d }
        let s : State := { s with coll := { s.coll with groups := aput s.coll.groups (16 * t + a.group) g } }
        let s := (s.setWord (colGrp t a.group) (BitVec.ofNat 32 (gsBound + g.n * 2 ^ 8 + g.rank * 2 ^ 16))).setWord (colGrp t a.group + 4) 0
        some (s.endWork t c))

/-- UNBIND (R347): it waits for the group's collectives, then frees the group. -/
def execCollUnbind (t : Nat) (c : CmdRef) (s : State) : Host.Outcome State Fault Refusal :=
  .next (s.collCmd t c 1 fun s x =>
    let a := collArgs x.bytes
    if s.grp t a.group = none then some (((s.begin_ t c none).updCmd t c fun y => { y with status := 0x30 }).endWork t c)
    else if s.coll.runs.any fun r => r.tenant == t && r.group == a.group then none
    else
      let s := s.begin_ t c none
      let s : State := { s with coll := { s.coll with groups := adel s.coll.groups (16 * t + a.group) } }
      some ((s.zeroRegs (colGrp t a.group) (colGrp t a.group + 8)).endWork t c))

def execCollAllreduce (t : Nat) (c : CmdRef) (s : State) : Host.Outcome State Fault Refusal := .next (s.collCmd t c 2 fun s x => s.startColl t c x)
def execCollReduceScatter (t : Nat) (c : CmdRef) (s : State) : Host.Outcome State Fault Refusal := .next (s.collCmd t c 3 fun s x => s.startColl t c x)
def execCollAllgather (t : Nat) (c : CmdRef) (s : State) : Host.Outcome State Fault Refusal := .next (s.collCmd t c 4 fun s x => s.startColl t c x)
def execCollAlltoall (t : Nat) (c : CmdRef) (s : State) : Host.Outcome State Fault Refusal := .next (s.collCmd t c 5 fun s x => s.startColl t c x)
def execCollAlltoallv (t : Nat) (c : CmdRef) (s : State) : Host.Outcome State Fault Refusal := .next (s.collCmd t c 6 fun s x => s.startColl t c x)
def execCollBarrier (t : Nat) (c : CmdRef) (s : State) : Host.Outcome State Fault Refusal := .next (s.collCmd t c 7 fun s x => s.startColl t c x)

/-! ## What arrives (R352 to R354, R363) -/

/-- Serial comparison of CSEQ with a window of 2^31 (R351): is `a` at `b` or after it? -/
def seqGe (a b : Nat) : Bool := decide ((a + 2 ^ 32 - b) % 2 ^ 32 < 2 ^ 31)

/-- A token arrives: held before its collective starts, else compared; one of a collective that has ended is dropped. -/
def State.tokenIn (s : State) (k : CollTok) : State :=
  match s.run k.tenant k.group k.cseq with
  | some c => s.takeToken c k
  | none =>
    if s.grpState k.tenant k.group = gsUnbound || seqGe k.cseq (s.cseq k.tenant k.group) then
      { s with coll := { s.coll with toks := s.coll.toks ++ [k] } }
    else s

/-- COLL_TOKEN_RECEIVE. -/
def execCollTokenReceive (k : CollTok) (s : State) : Host.Outcome State Fault Refusal := .next (s.tokenIn k)

/-- An abort arrives: it ends the collective and every later one of the group in flight; the group is broken unless this rank
has completed all of them. -/
def State.abortIn (s : State) (t g q : Nat) : State :=
  if s.grpState t g = gsUnbound then s
  else
    let unstarted := seqGe q (s.cseq t g)
    let s := s.endColls (fun c => c.tenant == t && c.group == g && seqGe c.cseq q) 0x32
    if unstarted then s.setFld (colGrp t g) 0 2 gsBroken else s

/-- COLL_ABORT_RECEIVE. -/
def execCollAbortReceive (t g q : Nat) (s : State) : Host.Outcome State Fault Refusal := .next (s.abortIn t g q)

/-- Data of a collective arrives on VC1; a packet of a collective that has ended is dropped. -/
def State.collData (s : State) (m : CollMsg) (payload : List Byte) : State :=
  match s.run m.tenant m.group m.cseq with
  | none => s
  | some c =>
    let c := match m.head with
      | some n => { c with heads := aput c.heads m.rank n, excess := c.excess || decide (c.cap m.rank < n) }
      | none =>
        let w := c.width m.phase
        let es := (List.range (payload.length / w)).map fun i =>
          { v := leNat ((payload.drop (w * i)).take w), flush := bitOf m.flush i, bad := bitOf m.bad i }
        { c with parts := c.parts ++ [{ seg := m.seg, phase := m.phase, rank := m.rank, at_ := m.at_, elems := es }] }
    (s.putRun c).runColl m.tenant m.group m.cseq

/-- RECV_LEN (R363). -/
def State.recvLens (s : State) (c : Coll) : State :=
  (List.range c.n).foldl (fun s j => s.collPut c.tenant c.ref c.tbl false (1024 + 4 * j) 4
    [{ v := min ((aget c.heads j).getD 0) (c.cap j), flush := false, bad := false }]) s

/-- COLL_COMPLETE (R367, R368): `recomp` additions were done again after a residue mismatch, and `adder` says that one failed
twice. With everything written and acknowledged the collective ends with OK, or COL_OVERFLOW. -/
def execCollComplete (t g q recomp : Nat) (adder : Bool) (s : State) : Host.Outcome State Fault Refusal :=
  match s.run t g q with
  | none => .next s
  | some c =>
    let sums := c.reduces && c.red == 0
    let s := if sums then s.bump (colTnt t 0xC) recomp else s
    if sums && adder then .next ((s.raiseCmd t c.ref 0xB4 {}).endColl c 0x36 true)
    else if !c.finished || s.unackedPkts.any (·.waiter == .coll t g q) then .next s
    else
      let s := if c.op = 6 then s.recvLens c else s
      .next (s.endColl c (if c.excess then 0x34 else 0) false)

end Sys2Proof.Machine
end

