-- ==== Sys2Proof/Machine/Recipes.lean ====
section
/-!
DEFINITION. Recipes.lean: recipes, launches, expert dispatch and replication maps (R390, R399 to R403, R449 to R456, R461).
-/

namespace Sys2Proof.Machine

/-! ## Buffers (R399, R400) -/

def Recipe.cur (r : Recipe) : RcpBuf := if r.curB then r.b else r.a
def Recipe.other (r : Recipe) : RcpBuf := if r.curB then r.a else r.b

def Recipe.put (r : Recipe) (b : Bool) (x : RcpBuf) : Recipe := if b then { r with b := x, curB := true } else { r with a := x, curB := false }

/-- Write a recipe: `f` of the current commands becomes the current buffer with the next version; the version, or `none`
when launches hold both buffers (R400). -/
def State.storeRecipe (s : State) (id : Nat) (f : List (List Byte) → List (List Byte)) : State × Option Nat :=
  let put (r : Recipe) : State := { s with front := { s.front with recipes := aput s.front.recipes id r } }
  match aget s.front.recipes id with
  | none => (put { a := { cmds := f [], version := 1, holds := 0 }, b := { cmds := [], version := 0, holds := 0 }, curB := false }, some 1)
  | some r =>
    let v := (r.cur.version + 1) % 2 ^ 16
    let x : RcpBuf := { cmds := f r.cur.cmds, version := v, holds := 0 }
    if r.cur.holds = 0 then (put (r.put r.curB x), some v)
    else if r.other.holds = 0 then (put (r.put (!r.curB) x), some v)
    else (s, none)

def rcpIn (p : Partition) (id : Nat) : Bool := decide (p.rcpFirst ≤ id ∧ id < p.rcpFirst + p.rcpCount)

/-- May a stored command stand in a recipe (R401)? -/
def storedOk (b : List Byte) : Bool :=
  let c := RCmd.new 0 b
  inRecipe c.op && !c.rec_ && !c.int && !c.pin && !headRsvd b && fieldAt b 2 1 == 0

/-- How a load or patch ends: the new version, or RECIPE_BUSY with the current one (R396). -/
def State.endStore (s : State) (t : Nat) (ref : CmdRef) (id : Nat) (r : State × Option Nat) : State :=
  match r with
  | (s, some v) => (s.updCmd t ref fun c => { c with detail := v }).endWork t ref
  | (_, none) =>
    let v := ((aget s.front.recipes id).map fun r => r.cur.version).getD 0
    (s.updCmd t ref fun c => { c with status := 3, detail := v }).endWork t ref

def State.recipeSrc (s : State) (t : Nat) (x : RCmd) : List (List Byte) :=
  let n := fieldAt x.bytes 0x12 2
  groups 64 n (((s.taRead t (fieldAt x.bytes 0x18 8) (64 * n)).map (·.1)).getD [])

/-- RECIPE_LOAD (R401, R587). -/
def execRecipeLoad (t : Nat) (c : CmdRef) (s : State) : Host.Outcome State Fault Refusal :=
  .next (s.dispatch t c [0x18]
    (fun s p x =>
      let n := fieldAt x.bytes 0x12 2
      let src := fieldAt x.bytes 0x18 8
      firstOf [codeIf (!zeros x.bytes 0x14 0x18 || !zeros x.bytes 0x20 0x40) 0xC1,
        codeIf (n == 0 || decide (256 < n) || src % 64 != 0) 0xC2, codeIf (!rcpIn p (fieldAt x.bytes 0x10 2)) 0xC5,
        codeIf (!s.feMapped t src (64 * n)) 0xC5, codeIf (!(s.recipeSrc t x).all storedOk) 0xC5])
    fun s x =>
      let id := fieldAt x.bytes 0x10 2
      let s := s.begin_ t c none
      some (s.endStore t c id (s.storeRecipe id fun _ => s.recipeSrc t x)))

/-- The entries of a RECIPE_PATCH (R402): command index, offset, length, data. -/
def patchEntry (b : List Byte) (i : Nat) : Nat × Nat × Nat × List Byte :=
  let e := (b.drop (0x14 + 12 * i)).take 12
  (fieldAt e 0 1, fieldAt e 1 1, fieldAt e 2 1, (e.drop 4).take 8)

/-- Does an entry keep to its table, for a recipe of `n` commands? -/
def patchOk (n : Option Nat) (b : List Byte) (i : Nat) : Bool :=
  let (cmd, off, len, data) := patchEntry b i
  (match n with | some n => decide (cmd < n) | none => true) && decide (1 ≤ len ∧ len ≤ 8) &&
  ((decide (4 ≤ off ∧ off + len ≤ 8)) || (decide (0x10 ≤ off ∧ off + len ≤ 0x40))) &&
  fieldAt b (0x14 + 12 * i + 3) 1 == 0 && (data.drop len).all (· == 0)

/-- Replace bytes of a command from `off` on. -/
def splice (b : List Byte) (off : Nat) (data : List Byte) : List Byte := b.take off ++ data ++ b.drop (off + data.length)

def applyPatch (b : List Byte) (cmds : List (List Byte)) (i : Nat) : List (List Byte) :=
  let (cmd, off, len, data) := patchEntry b i
  lupd cmds cmd fun c => splice c off (data.take len)

/-- RECIPE_PATCH (R402). -/
def execRecipePatch (t : Nat) (c : CmdRef) (s : State) : Host.Outcome State Fault Refusal :=
  .next (s.dispatch t c [0x19]
    (fun s p x =>
      let n := fieldAt x.bytes 0x12 1
      let have_ := (aget s.front.recipes (fieldAt x.bytes 0x10 2)).map fun r => r.cur.cmds.length
      firstOf [codeIf (!zeros x.bytes 0x13 0x14 || !zeros x.bytes 0x38 0x40) 0xC1, codeIf (!rcpIn p (fieldAt x.bytes 0x10 2)) 0xC5,
        codeIf (n == 0 || decide (3 < n) || !zeros x.bytes (0x14 + 12 * n) 0x38 || !((List.range n).all (patchOk have_ x.bytes))) 0xC5])
    fun s x =>
      let id := fieldAt x.bytes 0x10 2
      let s := s.begin_ t c none
      if (aget s.front.recipes id).isNone then some ((s.updCmd t c fun x => { x with status := 4, detail := 0 }).endWork t c)
      else some (s.endStore t c id (s.storeRecipe id fun cmds => (List.range (fieldAt x.bytes 0x12 1)).foldl (applyPatch x.bytes) cmds)))

/-! ## Launches (R403, R444, R461) -/

/-- Commands with SEED and STEP fields. -/
def hasSeed (op : Nat) : Bool := [1, 2, 3, 4, 5, 8, 9, 0x1B].contains op

/-- OVERRIDE of a stored command. -/
def overrideCmd (ov : Option (Nat × Nat)) (b : List Byte) : List Byte :=
  match ov with
  | some (seed, step) => if hasSeed (fieldAt b 0 1) then splice b 0x30 (leBytes 8 seed ++ leBytes 6 step) else b
  | none => b

/-- Snapshot the current buffer of a recipe for a launch: its version and digest, or `none` for one never loaded. -/
def State.snapshot (s : State) (t : Nat) (ring : Option Nat) (key recipe : Nat) (ov : Option (Nat × Nat)) : Option (State × Nat × List Byte) :=
  (aget s.front.recipes recipe).map fun r =>
    let buf := r.cur
    let held : RcpBuf := { buf with holds := buf.holds + 1 }
    let l : Launch :=
      { tenant := t, ring := ring, key := key, recipe := recipe, buf := r.curB.toNat, version := buf.version,
        cmds := buf.cmds.mapIdx fun i b => RCmd.new i (overrideCmd ov b), next := 0, stopped := false }
    let s : State := { s with front := { s.front with
      recipes := aput s.front.recipes recipe (r.put r.curB held), launches := s.front.launches ++ [l] } }
    (s.addQuad (0xA02038 + 0x100 * t) 1, buf.version, recipeDigest buf.cmds)

/-- RECIPE_LAUNCH (R403): without OVERRIDE the launch has no seed of its own, and its token carries free values. -/
def execRecipeLaunch (t : Nat) (c : CmdRef) (s : State) : Host.Outcome State Fault Refusal :=
  .next (s.dispatch t c [0x1A]
    (fun _ p x => firstOf [codeIf (!zeros x.bytes 0x13 0x18 || !zeros x.bytes 0x26 0x40 || decide (2 ≤ fieldAt x.bytes 0x12 1)) 0xC1,
      codeIf (!rcpIn p (fieldAt x.bytes 0x10 2)) 0xC5])
    fun s x =>
      let ov := if bitOf (fieldAt x.bytes 0x12 1) 0 then some (fieldAt x.bytes 0x18 8, fieldAt x.bytes 0x20 6) else none
      let id := fieldAt x.bytes 0x10 2
      let ring := (c.info.map (·.1)).getD 0
      let s := s.begin_ t c none
      match s.snapshot t (some ring) x.csn id ov with
      | none => some ((s.updCmd t c fun x => { x with status := 4, detail := 0 }).endWork t c)
      | some (s, v, dig) =>
        let (a, s) := s.free
        let (b, s) := s.free
        let (seed, step) := ov.getD (a % 2 ^ 64, b % 2 ^ 48)
        some ((s.updCmd t c fun x => { x with detail := v }).logToken t 1 0x1A id x.csn seed step v dig))

/-! ## Expert dispatch (R449 to R453) -/

/-- Fields of a ROUTE (R390). -/
def rtLayer (b : List Byte) : Nat := fieldAt b 0x10 2
def rtK (b : List Byte) : Nat := fieldAt b 0x12 1
def rtSpm (b : List Byte) : Bool := bitOf (fieldAt b 0x13 1) 0
def rtTokens (b : List Byte) : Nat := fieldAt b 0x14 4
def rtIdx (b : List Byte) : Nat := fieldAt b 0x18 8
def rtExperts (b : List Byte) : Nat := fieldAt b 0x20 2
def rtTemplate (b : List Byte) : Nat := fieldAt b 0x22 2
def rtPlan (b : List Byte) : Nat := fieldAt b 0x28 8

/-- The head of a dispatch plan (R449). -/
def State.planHead (s : State) (t addr : Nat) : List Byte := ((s.taRead t addr 0x100).map (·.1)).getD []

/-- Where expert entry `e` of a half of a plan stands (R449). -/
def planEntryAt (addr half e : Nat) : Nat := addr + (if half = 0 then 0x100 else 0x8100) + 32 * e

/-- Expert entry `e` of a half of a plan: RES and PIN (R449). -/
def State.planEntry (s : State) (t addr half e : Nat) : Nat × Bool :=
  let b := ((s.taRead t (planEntryAt addr half e) 32).map (·.1)).getD []
  (fieldAt b 0 16, bitOf (fieldAt b 16 1) 0)

/-- Is the head of a plan, or one of the first `n` entries of a half, read poisoned (R486, CTL_POISON)? -/
def State.planBad (s : State) (t addr half n : Nat) : Bool :=
  ((s.taRead t addr 0x100).any (·.2)) || (List.range n).any fun e => (s.taRead t (planEntryAt addr half e) 32).any (·.2)

def routeOps : List Nat := [0, 1, 3, 4, 5, 8, 9]

/-- The commands of a template, when it has been loaded. -/
def State.template (s : State) (id : Nat) : Option (List (List Byte)) := (aget s.front.recipes id).map fun r => r.cur.cmds

/-- A patch point of a plan: command, offset, kind. -/
def planPatch (plan : List Byte) (i : Nat) : Nat × Nat × Nat :=
  (fieldAt plan (0x48 + 8 * i) 1, fieldAt plan (0x48 + 8 * i + 1) 1, fieldAt plan (0x48 + 8 * i + 2) 1)

/-- The half of the plans in force (R456). -/
def State.planHalf (s : State) (t : Nat) : Nat := s.fld (tnt t 0x340) 17 1

/-- Are the reserved fields of a plan's head zero, and those of the first `n` entries of a half (R449)? -/
def State.planZeros (s : State) (t addr half n : Nat) : Bool :=
  let pl := s.planHead t addr
  zeros pl 7 8 && zeros pl 0x44 0x48 && zeros pl 0x88 0x100 && ((List.range 8).all fun i => zeros pl (0x4B + 8 * i) (0x50 + 8 * i)) &&
  ((List.range n).all fun e =>
    let b := ((s.taRead t (planEntryAt addr half e) 32).map (·.1)).getD []
    decide (fieldAt b 16 1 < 2) && zeros b 17 32)

/-- Does a plan keep to R449 for this ROUTE (R457, LDL_PLAN)? A reserved field that is not zero breaks it (R8). DEDUCED (log entry
182). -/
def State.planOk (s : State) (t : Nat) (p : Partition) (b : List Byte) : Bool :=
  let pl := s.planHead t (rtPlan b)
  let f (o n : Nat) : Nat := fieldAt pl o n
  let slots := rtTokens b * rtK b
  let rows := min (f 2 2) slots
  let tpl := [rtTemplate b, rtTemplate b + 1].map s.template
  s.planZeros t (rtPlan b) (s.planHalf t) (rtExperts b) && f 0 2 == rtExperts b && decide (1 ≤ f 2 2 ∧ f 2 2 ≤ 4096) && decide (f 4 1 < 8) && decide (f 5 1 < 8) && decide (f 6 1 < 8) &&
  f 4 1 != f 5 1 && f 5 1 != f 6 1 && f 4 1 != f 6 1 && f 0x10 4 % 16 == 0 && f 0x20 4 % 16 == 0 && f 0x38 4 % 64 == 0 &&
  tpl.all (fun x => match x with
    | some cmds => cmds.all (fun c => routeOps.contains (fieldAt c 0 1)) &&
        ((List.range 8).all fun i => match planPatch pl i with
          | (_, _, 0) => true
          | (cmd, off, kind) => decide (kind ≤ 2) && decide (cmd < cmds.length) && decide (0x10 ≤ off ∧ off ≤ 0x3E))
    | none => false) &&
  s.taMapped t (f 8 8) (rtTokens b * f 0x10 4) && (s.taWriteBar t (f 0x18 8) (slots * f 0x20 4) 0xE0).isNone &&
  s.taMapped t (f 0x28 8) ((rtExperts b - 1) * f 0x30 8 + f 0x38 4) &&
  inShare p.share (f 0x14 4) (rows * f 0x10 4) && inShare p.share (f 0x24 4) (rows * f 0x20 4) &&
  inShare p.share (f 0x3C 4) 64 && inShare p.share (f 0x40 4) (f 0x38 4)

/-- The index rows of a ROUTE (R177, R450): the expert of each slot, in slot order. -/
def State.slotExperts (s : State) (t : Nat) (b : List Byte) : List Nat :=
  let k := rtK b
  let row (m : Nat) : List Byte :=
    if rtSpm b then (s.tile (rtIdx b / 2 ^ 32 % 128)).read (rtIdx b % 2 ^ 23 + 32 * m) 32
    else ((s.taRead t (rtIdx b + 32 * m) 32).map (·.1)).getD []
  (List.range (rtTokens b)).flatMap fun m => let r := row m; (List.range k).map fun j => fieldAt r (2 * j) 2

/-- Cut an expert's rows into items (R451). -/
def cutItems (split : Nat) (rows : List Nat) : List (List Nat) :=
  let n := rows.length
  let q := ceilDiv n split
  (List.range q).map fun i => (rows.drop (i * n / q)).take ((i + 1) * n / q - i * n / q)

/-- The work items of a ROUTE, in queue order (R451): experts by decreasing count, ties to the lower number. -/
def itemList (split experts : Nat) (ex : List Nat) : List (Nat × List Nat) :=
  let rowsOf (e : Nat) : List Nat := (ex.zipIdx.filter fun (x, _) => x == e).map (·.2)
  let all := ((List.range experts).map fun e => (e, rowsOf e)).filter fun (_, r) => !r.isEmpty
  let sorted := all.mergeSort fun a b => decide (b.2.length < a.2.length ∨ (b.2.length = a.2.length ∧ a.1 ≤ b.1))
  sorted.flatMap fun (e, r) => (cutItems split r).map fun x => (e, x)

def State.planSt (s : State) (t layer : Nat) : Option PlanSt := s.front.plans.find? fun x => x.tenant == t && x.layer == layer

/-- Is a tile resident for an item (R452)? -/
def State.residentOn (s : State) (r : Route) (e tile : Nat) : Bool :=
  bitOf (s.planEntry r.tenant (rtPlan r.bytes) r.half e).1 tile &&
  ((s.planSt r.tenant (rtLayer r.bytes)).map fun x => x.addr == rtPlan r.bytes && x.done.contains (tile, e)).getD false

/-- A template's command with its patch points filled and the ROUTE's seed and step (R390, R453). -/
def fillTemplate (r : Route) (rows expert : Nat) (cmds : List (List Byte)) : List (List Byte) :=
  let cmds := cmds.map (overrideCmd (some (fieldAt r.bytes 0x30 8, fieldAt r.bytes 0x38 6)))
  (List.range 8).foldl (fun cs i => match planPatch r.plan i with
    | (cmd, off, 1) => lupd cs cmd fun c => splice c off (leBytes 2 rows)
    | (cmd, off, 2) => lupd cs cmd fun c => splice c off (leBytes 2 expert)
    | _ => cs) cmds

/-- The descriptors of an item's gather chain (R453). -/
def gatherDescs (plan : List Byte) (k : Nat) (slots : List Nat) : List (List Byte) :=
  let px := fieldAt plan 0x10 4
  ((runsOf (slots.map (· / k))).foldl (fun (acc : List (List Byte) × Nat) run =>
    (acc.1 ++ [descBytes 0 2 (fieldAt plan 8 8 + run.1 * px) (fieldAt plan 0x14 4 + acc.2 * px) px run.2 px px], acc.2 + run.2)) ([], 0)).1

/-- The descriptors of a weight chain: one for each slot of region WRGN (R453). -/
def weightDescs (plan : List Byte) (expert slotBytes : Nat) (pin : Bool) : List (List Byte) :=
  let w := fieldAt plan 0x38 4
  let base := fieldAt plan 0x28 8 + expert * fieldAt plan 0x30 8
  let sb := if slotBytes = 0 then max (min w 0x1000000) 1 else slotBytes
  (List.range (ceilDiv w sb)).map fun i =>
    let n := min sb (w - i * sb)
    descBytes (2 + 8 + (if pin then 128 else 0)) 2 (base + i * sb) (fieldAt plan 0x3C 4) n 1 n n

/-- Place an item on a tile: its gather chain, its weight chain when the tile is not resident, and its template (R453). -/
def State.placeItem (s : State) (x : Item) (r : Route) (tile : Nat) (fetch : Bool) : State :=
  let t := x.tenant
  let seed := BitVec.ofNat 64 (fieldAt r.bytes 0x30 8)
  let step := fieldAt r.bytes 0x38 6
  let cmds := (s.template (rtTemplate r.bytes + fetch.toNat)).getD []
  let s := s.updItem x.n fun y => { y with
    tile := some tile, fetch := fetch, phase := 1,
    cmds := (fillTemplate r x.slots.length x.expert cmds).mapIdx fun i b => RCmd.new i b }
  let s := s.setChan tile (8 * t + fieldAt r.plan 4 1)
    (some (builtChan t (gatherDescs r.plan (rtK r.bytes) x.slots) seed step (.item x.n 256) (s.share t) 0))
  if fetch then
    let sb := (((s.tile tile).region (fieldAt r.plan 0x3C 4)).map (·.slotBytes)).getD 0
    let (_, pin) := s.planEntry t (rtPlan r.bytes) r.half x.expert
    s.setChan tile (8 * t + fieldAt r.plan 5 1)
      (some (builtChan t (weightDescs r.plan x.expert sb pin) seed step (.item x.n 257) (s.share t) 0))
  else s

/-- A free tile takes an item of the tenant (R452): the first it is resident for, else the first. -/
def State.takeItem (s : State) (t tile : Nat) : State :=
  if !(s.usable t tile && s.idleTile t tile) then s
  else
    let q := (s.front.items.filter fun x => x.tenant == t && x.phase == 0).filterMap fun x => (s.route? t x.ref).map fun r => (x, r)
    match q.find? fun (x, r) => s.residentOn r x.expert tile with
    | some (x, r) => s.placeItem x r tile false
    | none => match q.head? with
      | some (x, r) => s.placeItem x r tile true
      | none => s

/-- ROUTE (R390, R450 to R453, R587). -/
def execRoute (t : Nat) (c : CmdRef) (s : State) : Host.Outcome State Fault Refusal :=
  .next (s.dispatch t c [0x1B]
    (fun s p x =>
      let b := x.bytes
      firstOf [codeIf (!zeros b 0x24 0x28 || !zeros b 0x3E 0x40 || decide (2 ≤ fieldAt b 0x13 1)) 0xC1,
        codeIf (decide (4096 ≤ rtLayer b) || rtK b == 0 || decide (16 < rtK b) || rtTokens b == 0 || decide (65536 < rtTokens b) ||
          decide (rtExperts b < rtK b) || decide (1024 < rtExperts b)) 0xC2,
        codeIf (!rcpIn p (rtTemplate b)) 0xC5,
        codeIf (rtSpm b && !(s.tileOf t (rtIdx b / 2 ^ 32 % 128) && inShare p.share (rtIdx b % 2 ^ 23) (32 * rtTokens b))) 0xC2,
        codeIf (!rtSpm b && !s.feMapped t (rtIdx b) (32 * rtTokens b)) 0xE0,
        codeIf (rtPlan b % 256 != 0 || !s.feMapped t (rtPlan b) 0x10100) 0xE0,
        if s.planBad t (rtPlan b) (s.planHalf t) (rtExperts b) then some (0x06, rtPlan b) else none, codeIf (!s.planOk t p b) 0xE0])
    fun s x =>
      let b := x.bytes
      let s := s.begin_ t c none
      let pl := s.planHead t (rtPlan b)
      let ex := s.slotExperts t b
      let yb := fieldAt pl 0x20 4
      let bad := (ex.zipIdx.filter fun (e, _) => decide (rtExperts b ≤ e)).map (·.2)
      let s := bad.foldl (fun s i =>
        let a := fieldAt pl 0x18 8 + i * yb
        (s.taWrite t a (List.replicate yb 0) false).cmdWrite t c a (List.replicate yb 0) 0 0) s
      let s := if bad.isEmpty then s else (s.raiseCmd t c 0xE1 {}).noteWork t c 0xE1
      let n0 := s.front.nextItem
      let per := ((List.range (rtExperts b)).map fun e => ex.count e).filter (· ≠ 0)
      let most := per.foldl max 0
      let items := (itemList (fieldAt pl 2 2) (rtExperts b) ex).mapIdx fun i (e, slots) =>
        ({ n := n0 + i, tenant := t, ref := c, expert := e, slots := slots, tile := none, fetch := false, phase := 0,
           weights := false, cmds := [], next := 0 } : Item)
      let r : Route := { tenant := t, ref := c, bytes := b, plan := pl, half := s.planHalf t, open_ := items.map (·.n), counts := (items.length, per.length, most) }
      let plans := if s.front.plans.any fun y => y.tenant == t && y.layer == rtLayer b && y.addr == rtPlan b then s.front.plans
        else (s.front.plans.filter fun y => !(y.tenant == t && y.layer == rtLayer b)) ++
          [{ tenant := t, layer := rtLayer b, addr := rtPlan b, done := [], loading := [] }]
      let s : State := { s with front := { s.front with
        items := s.front.items ++ items, nextItem := n0 + items.length, plans := plans,
        routes := if items.isEmpty then s.front.routes else s.front.routes ++ [r] } }
      let s := match c with
        | .ring _ csn => (s.addQuad (0xA02038 + 0x100 * t) 1).logToken t 3 0x1B (rtTemplate b) csn (fieldAt b 0x30 8) (fieldAt b 0x38 6) 0 (cmdDigest b)
        | _ => s
      if items.isEmpty then some (s.routeDone t c 0 0 0) else some ((List.range 128).foldl (fun s n => s.takeItem t n) s))

/-- ROUTE_ITEM_PLACE (R452): a tile that has become free takes an item. -/
def execRouteItemPlace (t tile : Nat) (s : State) : Host.Outcome State Fault Refusal := .next (s.takeItem t tile)

/-! ## Replication maps (R456) -/

/-- The tiles and experts that a half of a plan names in RES. -/
def State.planRes (s : State) (t addr half : Nat) : List (Nat × Nat) :=
  let n := fieldAt (s.planHead t addr) 0 2
  (List.range n).flatMap fun e => (bitsOf 128 (s.planEntry t addr half e).1).map fun tile => (tile, e)

def State.planLoading (s : State) (t : Nat) : State :=
  s.setFlag (tnt t 0x340) 18 (s.front.plans.any fun x => x.tenant == t && !x.loading.isEmpty)

/-- An epoch boundary: the half of NEXT comes into force; tiles newly named in RES are to receive a copy, tiles that drop
out stop counting. A plan that is read poisoned names no tile and is CTL_POISON (R486). -/
def State.epoch (s : State) (t : Nat) : State :=
  let half := s.fld (tnt t 0x340) 16 1
  let s := s.setFld (tnt t 0x340) 17 1 half
  let bad (x : PlanSt) : Bool := s.planBad t x.addr half (fieldAt (s.planHead t x.addr) 0 2)
  let lost := s.front.plans.filter fun x => x.tenant == t && bad x
  let s : State := { s with front := { s.front with
    epochs := vupd s.front.epochs t fun _ => 0,
    plans := s.front.plans.map fun x =>
      if x.tenant == t then
        let res := if bad x then [] else s.planRes t x.addr half
        let done := x.done.filter res.contains
        { x with done := done, loading := res.filter fun y => !done.contains y }
      else x } }
  lost.foldl (fun s x => s.raise t 0x06 { addr := x.addr }) (s.planLoading t)

/-- EPOCH_BOUNDARY: the boundary counts EPOCH_TICKS (TICK_BOUNDARY does the same when the count is reached). -/
def execEpochBoundary (t : Nat) (s : State) : Host.Outcome State Fault Refusal :=
  if 16 ≤ t ∨ (s.part t).isNone then .next s else .next (s.epoch t)

/-- RESIDENT_COPY_COMPLETE: the copy of an expert's weights into a tile that runs no item of the tenant has been made; any
other expert of the layer that stood at RES_OFF on the tile counts no more. -/
def execResidentCopyComplete (t layer tile expert : Nat) (s : State) : Host.Outcome State Fault Refusal :=
  match s.planSt t layer with
  | none => .next s
  | some x =>
    if !x.loading.contains (tile, expert) || !s.active t || (s.front.items.any fun i => i.tenant == t && i.tile == some tile) then .next s
    else
      let pl := s.planHead t x.addr
      let w := fieldAt pl 0x38 4
      let from_ := fieldAt pl 0x28 8 + expert * fieldAt pl 0x30 8
      let s := (List.range (ceilDiv w 64)).foldl (fun s i =>
        match s.taRead t (from_ + 64 * i) (min 64 (w - 64 * i)) with
        | some (bs, bad) => s.updTile tile fun y => y.write (fieldAt pl 0x40 4 + 64 * i) bs bad
        | none => s) s
      let s : State := { s with front := { s.front with plans := s.front.plans.map fun y =>
        if y.tenant == t && y.layer == layer then
          { y with done := (y.done.filter fun z => z.1 != tile) ++ [(tile, expert)], loading := y.loading.erase (tile, expert) } else y } }
      .next (s.planLoading t)

end Sys2Proof.Machine
end

