-- ==== Sys2Proof/Machine/LarderOps.lean ====
section
/-!
DEFINITION. LarderOps.lean: the pools' allocator, the directories, session descriptors and the resolution of appends
(R216 to R234).
-/

namespace Sys2Proof.Machine

/-! ## Sessions and pools -/

def State.sess (s : State) (n : Nat) : Sess := (aget s.lrd.sess n).getD Sess.idle

def State.setSess (s : State) (n : Nat) (d : Sess) : State :=
  { s with lrd := { s.lrd with sess := if d = Sess.idle then adel s.lrd.sess n else aput s.lrd.sess n d } }

def State.updSess (s : State) (n : Nat) (f : Sess → Sess) : State := s.setSess n (f (s.sess n))

def State.pool (s : State) (t : Nat) : Pool := if h : t < 16 then s.lrd.pools[t] else Pool.empty

def State.setPool (s : State) (t : Nat) (p : Pool) : State := { s with lrd := { s.lrd with pools := vupd s.lrd.pools t fun _ => p } }

/-- A session that a tenant's unit changed (R476). -/
def State.touch (s : State) (t n : Nat) : State := s.unitAdd t fun u => { u with sess := pset u.sess n }

/-- The descriptor's 128 bytes (R226). -/
def Sess.bytes (d : Sess) (tenant : Nat) : List Byte :=
  leBytes 1 d.state ++ leBytes 1 tenant ++ leBytes 1 d.reason ++
  leBytes 1 (d.nospace.toNat + 2 * d.evicted.toNat + 4 * d.migrating.toNat + 8 * d.gen.toNat + 16 * d.prior) ++
  leBytes 4 d.length ++ leBytes 4 d.pending ++ leBytes 4 d.maxlen ++ leBytes 8 d.step ++ leBytes 8 d.seed ++
  leBytes 4 d.maxnew ++ leBytes 4 d.newcount ++ leBytes 2 d.fineTo ++ leBytes 1 d.kmax ++ leBytes 1 d.outring ++ leBytes 4 0 ++
  ((d.stop.flatMap (leBytes 4 ·)) ++ leBytes 16 0).take 16 ++ leBytes 4 d.temp ++ leBytes 2 d.topk ++ leBytes 2 0 ++
  leBytes 4 d.topp ++ leBytes 4 0 ++ leBytes 8 d.feedTa ++ leBytes 1 d.feeds.length ++ leBytes 23 0 ++ leBytes 4 d.lengthT ++
  leBytes 4 0 ++ leBytes 8 d.stepT

/-! ## The allocator (R220, R196, R233) -/

/-- Does an ATTN that runs, or is held, still read page `n` of the tenant (R196)? -/
def State.pageHeld (s : State) (t n : Nat) : Bool :=
  s.tiles.toList.any fun x => (x.heldPages.contains n && (x.prog.map (·.tenant)) == some t) ||
    (x.saved.any fun (k, c) => k == t && c.heldPages.contains n)

/-- The pages the allocator cannot give: those with a count, and released ones that an ATTN still reads. -/
def State.livePages (s : State) (t : Nat) : List (Nat × Page) :=
  (s.pool t).pages.filter fun (n, p) => p.count != 0 || s.pageHeld t n

/-- Is the block of 2^`k` granules at `start` free of these pages? -/
def blockFree (pages : List (Nat × Page)) (k start : Nat) : Bool :=
  !(pages.any fun (n, p) => decide (n < start + 2 ^ k) && decide (start < n + 2 ^ p.k))

/-- The free blocks of exactly 2^`k` granules below 64, lowest first: those whose buddy is not free, within the groups of 64
granules that hold a page. -/
def freeBlocks (pages : List (Nat × Page)) (k : Nat) : List Nat :=
  let gs := (pages.map fun (n, _) => n / 64).foldl pset []
  gs.flatMap fun g => ((List.range (2 ^ (6 - k))).map fun i => 64 * g + i * 2 ^ k).filter fun b =>
    blockFree pages k b && !blockFree pages k (if b / 2 ^ k % 2 = 0 then b + 2 ^ k else b - 2 ^ k)

/-- The lowest group of 64 granules that holds no page. -/
def freeGroup (pages : List (Nat × Page)) (granules : Nat) : Option Nat :=
  let gs := (pages.map fun (n, _) => n / 64).foldl pset []
  let first := (List.range (gs.length + 1)).find? fun i => !gs.contains i
  first.bind fun g => if 64 * g + 64 ≤ granules then some (64 * g) else none

/-- The block for 2^`k` granules: the lowest free one of that size, else out of the next larger size that has one (R220). -/
def buddyPick (pages : List (Nat × Page)) (granules : Nat) : Nat → Nat → Option Nat
  | 0, _ => none
  | fuel + 1, k =>
    if 6 ≤ k then freeGroup pages granules
    else match (freeBlocks pages k).head? with
      | some b => some b
      | none => buddyPick pages granules fuel (k + 1)

/-- Allocate a page with count 1. -/
def State.allocPage (s : State) (t k : Nat) : Option (Nat × State) :=
  match s.part t with
  | none => none
  | some p =>
    let live := s.livePages t
    (buddyPick live p.granules 7 k).map fun n =>
      (n, s.setPool t { s.pool t with pages := aput live n { k := k, count := 1 } })

def State.updPage (s : State) (t n : Nat) (f : Page → Page) : State :=
  s.setPool t { s.pool t with pages := (s.pool t).pages.map fun (m, p) => if m = n then (m, f p) else (m, p) }

def State.pageCount (s : State) (t n : Nat) : Nat := ((aget (s.pool t).pages n).map (·.count)).getD 0

/-- A pinned page's count (R233). -/
def pinned : Nat := 65535

/-- One holder more; a share that meets a pinned page is counted. -/
def State.sharePage (s : State) (t n : Nat) : State :=
  if s.pageCount t n = pinned then s.bump (0x301018 + 32 * t) 1 else s.updPage t n fun p => { p with count := p.count + 1 }

/-- One holder less: at 0 the page returns to the allocator, unless an ATTN still reads it. -/
def State.dropPage (s : State) (t n : Nat) : State :=
  if s.pageCount t n = pinned then s
  else
    let s := s.updPage t n fun p => { p with count := p.count - 1 }
    s.setPool t { s.pool t with pages := s.livePages t }

/-- What LRD_POOL shows (R246): FREE, PINNED, MAPFREE, LARGEST. -/
def State.poolFree (s : State) (t : Nat) : Nat :=
  ((s.part t).map (·.granules)).getD 0 - ((s.livePages t).map fun (_, p) => 2 ^ p.k).sum

def State.poolPinned (s : State) (t : Nat) : Nat :=
  (((s.pool t).pages.filter fun (_, p) => p.count == pinned).map fun (_, p) => 2 ^ p.k).sum

def State.mapFree (s : State) (t : Nat) : Nat := ((s.part t).map (·.mapBlocks)).getD 0 - (s.pool t).maps.length

def State.poolLargest (s : State) (t : Nat) : Nat :=
  let live := s.livePages t
  if (freeGroup live (((s.part t).map (·.granules)).getD 0)).isSome then 2 ^ 31 + 6
  else match [5, 4, 3, 2, 1, 0].find? fun k => !(freeBlocks live k).isEmpty with
    | some k => 2 ^ 31 + k
    | none => 0

/-! ## Directories (R221 to R224) -/

def Partition.sessBlock (p : Partition) (n : Nat) : Nat := p.dirBase + (n - p.sessFirst) * p.sessBytes
def Partition.topEntry (p : Partition) (n i : Nat) : Nat := p.sessBlock n + 64 * p.layers + 8 * i
def Partition.mapBlock0 (p : Partition) : Nat := p.dirBase + p.sessCount * p.sessBytes
def Partition.mapEntry (p : Partition) (b j : Nat) : Nat := p.mapBlock0 + 4096 * b + 4 * j

def State.taNum (s : State) (t ta n : Nat) : Nat := leNat (((s.taRead t ta n).map (·.1)).getD [])

/-- The map block that covers granule `g` of a session. -/
def State.mapOf (s : State) (t : Nat) (p : Partition) (n g : Nat) : Option Nat :=
  let e := s.taNum t (p.topEntry n (g / 1024)) 8
  if bitOf e 63 then some (e % 2 ^ 20) else none

/-- The page and `k` of granule `g` of a session. -/
def State.granule (s : State) (t : Nat) (p : Partition) (n g : Nat) : Option (Nat × Nat) :=
  (s.mapOf t p n g).bind fun b =>
    let e := s.taNum t (p.mapEntry b (g % 1024)) 4
    if bitOf e 31 then some (e % 2 ^ 24, e / 2 ^ 24 % 8) else none

/-- Name a page in the `2^k` granule entries from `g` on, or clear them. -/
def State.setGranules (s : State) (t : Nat) (p : Partition) (b g k : Nat) (page : Option Nat) : State :=
  let e := match page with
    | some n => n + k * 2 ^ 24 + 2 ^ 31
    | none => 0
  (List.range (2 ^ k)).foldl (fun s i => s.taWrite t (p.mapEntry b ((g + i) % 1024)) (leBytes 4 e) false) s

/-- The map block for granule `g`, allocated lowest number first when there is none. -/
def State.needMap (s : State) (t : Nat) (p : Partition) (n g : Nat) : Option (Nat × State) :=
  match s.mapOf t p n g with
  | some b => some (b, s)
  | none =>
    let maps := (s.pool t).maps
    match (List.range (maps.length + 1)).find? fun i => !maps.contains i with
    | some b =>
      if p.mapBlocks ≤ b then none
      else
        let s := s.setPool t { s.pool t with maps := pset maps b }
        let s := s.taWrite t (p.mapEntry b 0) (List.replicate 4096 0) false
        some (b, s.taWrite t (p.topEntry n (g / 1024)) (leBytes 8 (b + 2 ^ 63)) false)
    | none => none

/-- Install a page at granule `g` of a session; `none` when no map block is free. -/
def State.install (s : State) (t : Nat) (p : Partition) (n g page k : Nat) : Option State :=
  (s.needMap t p n g).map fun (b, s) => s.setGranules t p b g k (some page)

/-- Clear a page's entries; a map block without entries is freed. -/
def State.uninstall (s : State) (t : Nat) (p : Partition) (n g k : Nat) : State :=
  match s.mapOf t p n g with
  | none => s
  | some b =>
    let s := s.setGranules t p b g k none
    if (List.range 1024).any fun j => bitOf (s.taNum t (p.mapEntry b j) 4) 31 then s
    else (s.setPool t { s.pool t with maps := pclear (s.pool t).maps b }).taWrite t (p.topEntry n (g / 1024)) (leBytes 8 0) false

/-- Release a session's page (R238). -/
def State.releasePage (s : State) (t : Nat) (p : Partition) (n g page k : Nat) : State := (s.uninstall t p n g k).dropPage t page

/-- The pages of a session that hold a granule of `[a, b)`: first granule, page, `k`, in position order. -/
def State.pagesIn (s : State) (t : Nat) (p : Partition) (n a b : Nat) : List (Nat × Nat × Nat) :=
  let one (i : Nat) : Option (Nat × Nat × Nat) :=
    (s.granule t p n (a + i)).map fun (page, k) => ((a + i) / 2 ^ k * 2 ^ k, page, k)
  (List.range (b - a)).foldl (fun xs i => match one i with
    | some x => if xs.getLast? = some x then xs else xs ++ [x]
    | none => xs) []

/-- Granules of a session whose map blocks are in use. -/
def State.allPages (s : State) (t : Nat) (p : Partition) (n : Nat) : List (Nat × Nat × Nat) :=
  (List.range 128).flatMap fun i =>
    if (s.mapOf t p n (1024 * i)).isSome then s.pagesIn t p n (1024 * i) (1024 * i + 1024) else []

/-! ## Growth (R225) -/

/-- The growth rule at granule `g`. -/
def State.growthK (s : State) (t : Nat) (p : Partition) (n g : Nat) : Nat :=
  let d := s.sess n
  let k0 := if g < d.fineTo then 0
    else ((List.range (d.kmax + 1)).reverse.find? fun k => g % 2 ^ k == 0 && decide (16 * 2 ^ k ≤ max 16 (16 * g))).getD 0
  let fits (k : Nat) : Bool := decide (g + 2 ^ k ≤ ceilDiv d.maxlen 16) && (List.range (2 ^ k)).all fun i => (s.granule t p n (g + i)).isNone
  ((List.range (k0 + 1)).reverse.find? fits).getD 0

/-- The codes of R240. -/
def lrdNospace : Nat := 0x20
def lrdNomap : Nat := 0x21
def lrdState : Nat := 0x22
def lrdRange : Nat := 0x23
def lrdOccupied : Nat := 0x24
def lrdPartial : Nat := 0x25
def lrdHole : Nat := 0x26
def lrdFeedFull : Nat := 0x27
def lrdDropped : Nat := 0x28
def lrdBusy : Nat := 0x29
def lrdTwin : Nat := 0x2A
def lrdHost : Nat := 0x2B

/-- Allocate a page of `k` for granule `g` of a session, or the status that stands in the way. -/
def State.growBy (s : State) (t : Nat) (p : Partition) (n g k : Nat) : Except Nat (Nat × State) :=
  match s.allocPage t k with
  | none => .error lrdNospace
  | some (page, s) => match s.install t p n g page k with
    | none => .error lrdNomap
    | some s => .ok (page, s)

/-! ## Copies (R234) -/

/-- A copy of a page begins: a page of the same `k`, and the old page's count drops. -/
def State.beginCopy (s : State) (t n g old k : Nat) : Option (Nat × State) :=
  (s.allocPage t k).map fun (new, s) =>
    let s := (s.dropPage t old).bump (0x301014 + 32 * t) 1
    (new, { s with lrd := { s.lrd with copies := s.lrd.copies ++ [{ tenant := t, session := n, g := g, old := old, new := new, k := k }] } })

/-- Copy the bytes of one page to another, 64 at a time with their poison, and count the writes in the unit (R476). -/
def State.copyBytes (s : State) (t : Nat) (p : Partition) (old new k : Nat) : State :=
  let n := 2 ^ k * p.granuleBytes
  let src := p.poolBase + old * p.granuleBytes
  let dst := p.poolBase + new * p.granuleBytes
  (cut256 dst n).foldl (fun s (a, len) =>
    let (s, out, bits) := (List.range (ceilDiv len 64)).foldl (fun (acc : State × List Byte × Nat) q =>
      let (s, out, bits) := acc
      let o := a - dst + 64 * q
      match s.taFetch t (src + o) (min 64 (len - 64 * q)) with
      | (some (bs, bad), s) => (s.taWrite t (dst + o) bs bad, out ++ bs, bits + bad.toNat * 2 ^ q)
      | (none, s) => (s, out, bits)) (s, [], 0)
    s.unitWrite t a out bits 0) s

/-- The end of the oldest copy of a tenant: the bytes, and the session's entries name the new page. -/
def State.endCopy (s : State) (t : Nat) : State :=
  match s.lrd.copies.find? (·.tenant == t), s.part t with
  | some c, some p =>
    let s := s.copyBytes t p c.old c.new c.k
    let s := (s.install t p c.session c.g c.new c.k).getD s
    { s with lrd := { s.lrd with copies := s.lrd.copies.erase c } }
  | _, _ => s

/-- LARDER_COPY_COMPLETE (R234). -/
def execLarderCopyComplete (t : Nat) (s : State) : Host.Outcome State Fault Refusal := .next (s.endCopy t)

/-! ## Resolution (R229 to R232) -/

/-- An append record (R231): page, `k`, FIRST, first new position, count, session. -/
structure Append where
  page  : Nat
  k     : Nat
  first : Bool
  from_ : Nat
  count : Nat
  sess  : Nat
  deriving DecidableEq, Repr

def Append.bytes (a : Append) : List Byte :=
  leBytes 4 (a.page + a.k * 2 ^ 24 + a.first.toNat * 2 ^ 31) ++ leBytes 4 a.from_ ++ leBytes 4 a.count ++ leBytes 2 a.sess ++ leBytes 2 0

/-- Resolve positions from `pos` to `stop` of a session, page by page. -/
def State.resolveFrom (s : State) (t : Nat) (p : Partition) (n stop : Nat) : Nat → Nat → List Append → Except Nat (State × List Append)
  | 0, _, acc => .ok (s, acc)
  | fuel + 1, pos, acc =>
    if stop ≤ pos then .ok (s, acc)
    else
      let put (s : State) (page k : Nat) : Except Nat (State × List Append) :=
        let t0 := pos / (16 * 2 ^ k) * (16 * 2 ^ k)
        let e := min stop (t0 + 16 * 2 ^ k)
        s.resolveFrom t p n stop fuel e (acc ++ [{ page := page, k := k, first := pos == t0, from_ := pos, count := e - pos, sess := n }])
      match s.granule t p n (pos / 16) with
      | some (page, k) =>
        if 1 < s.pageCount t page then
          match s.beginCopy t n (pos / 16 / 2 ^ k * 2 ^ k) page k with
          | some (new, s) => put s new k
          | none => .error lrdNospace
        else put s page k
      | none =>
        let k := s.growthK t p n (pos / 16)
        match s.growBy t p n (pos / 16) k with
        | .ok (page, s) => put s page k
        | .error e => .error e

/-- Resolve `count` appends of a session (R229, R230, R232); a refusal undoes everything and sets NOSPACE. -/
def State.resolveAppends (s : State) (t n count : Nat) : State × Option (List Append) :=
  match s.part t with
  | none => (s, none)
  | some p =>
    let d := s.sess n
    match s.resolveFrom t p n (d.length + count) (count + 2) d.length [] with
    | .ok (s, as) => (s.updSess n fun d => { d with length := d.length + count, nospace := false }, some as)
    | .error _ => ((s.updSess n fun d => { d with nospace := true }).bump (0x301010 + 32 * t) 1, none)

end Sys2Proof.Machine
end

