-- ==== Sys2Proof/Machine/Larder.lean ====
section
/-!
DEFINITION. Larder.lean: the Larder and session commands, parking, migration and mirror records (R228, R233 to R244).
-/

namespace Sys2Proof.Machine

/-! ## Which sessions a command names, and waiting (R240, R434) -/

def pgSession (b : List Byte) : Nat := fieldAt b 0x10 2
def pgSource (b : List Byte) : Nat := fieldAt b 0x12 2
def pgFrom (b : List Byte) : Nat := fieldAt b 0x14 4
def pgTo (b : List Byte) : Nat := fieldAt b 0x18 4
def pgNewLen (b : List Byte) : Nat := fieldAt b 0x1C 4
def pgSetLen (b : List Byte) : Bool := bitOf (fieldAt b 0x20 1) 0
def ctlOp (b : List Byte) : Nat := fieldAt b 0x12 1

def RCmd.sessions (c : RCmd) : List Nat := if c.op = 0x12 ∨ c.op = 0x13 then [pgSession c.bytes, pgSource c.bytes] else [pgSession c.bytes]

def sessIn (p : Partition) (n : Nat) : Bool := decide (p.sessFirst ≤ n ∧ n < p.sessFirst + p.sessCount)

def State.ladle (s : State) (t : Nat) : Ladle := if h : t < 16 then s.ladles[t] else Ladle.reset

def State.updLadle (s : State) (t : Nat) (f : Ladle → Ladle) : State := { s with ladles := vupd s.ladles t f }

/-- Is work of a session incomplete: in flight, in a batch that runs, or being copied? -/
def State.sessBusy (s : State) (t n : Nat) : Bool :=
  (s.sess n).flight || ((s.ladle t).batches.any fun b => !b.done && b.list.ents.any fun e => e.session == n && !e.skip) ||
  (s.lrd.copies.any fun c => c.session == n)

/-- Does a command of the tenant that waits before `ref` name one of these sessions? -/
def State.waitsBefore (s : State) (t : Nat) (ref : CmdRef) (ns : List Nat) : Bool :=
  (s.lrd.waits.takeWhile (· != (t, ref))).any fun (u, r) => u == t && ((s.cmd t r).map fun x => x.sessions.any ns.contains).getD false

/-! ## Checks (R237, R239, R240, R587) -/

def pageCheck (p : Partition) (x : RCmd) : Option (Nat × Nat) :=
  let b := x.bytes
  let two := x.op = 0x12 ∨ x.op = 0x13
  firstOf [codeIf (if two then decide (2 ≤ fieldAt b 0x20 1) || !zeros b 0x21 0x40 else !zeros b 0x12 0x14 || !zeros b 0x1C 0x40) 0xC1,
    codeIf (p.granules != 0 && !(x.sessions.all (sessIn p))) 0x80]

/-- The operand bytes that a SESSION_CTL operation uses beyond SESSION and OP. -/
def ctlRsvd (b : List Byte) : Bool :=
  match ctlOp b with
  | 0 => !zeros b 0x14 0x18 || !zeros b 0x32 0x34 || !zeros b 0x38 0x40
  | 1 => !zeros b 0x14 0x2C || !zeros b 0x32 0x34 || !zeros b 0x38 0x40
  | 2 => !zeros b 0x14 0x18 || !zeros b 0x2C 0x40
  | 5 => decide (2 ≤ fieldAt b 0x14 4) || !zeros b 0x24 0x40
  | 7 => !zeros b 0x18 0x40
  | _ => !zeros b 0x14 0x40

def ctlCheck (p : Partition) (x : RCmd) : Option (Nat × Nat) :=
  let b := x.bytes
  firstOf [codeIf (!zeros b 0x13 0x14 || (decide (ctlOp b ≤ 8) && ctlRsvd b)) 0xC1, codeIf (decide (8 < ctlOp b)) 0xC2,
    codeIf (p.granules != 0 && !sessIn p (pgSession b)) 0x80]

def feedCheck (s : State) (t : Nat) (p : Partition) (x : RCmd) : Option (Nat × Nat) :=
  let b := x.bytes
  let n := fieldAt b 0x14 4
  firstOf [codeIf (decide (2 ≤ fieldAt b 0x12 1) || !zeros b 0x13 0x14 || !zeros b 0x20 0x40) 0xC1,
    codeIf (n == 0 || decide (2 ^ 21 < n) || !s.feMapped t (fieldAt b 0x18 8) (4 * n)) 0xC2,
    codeIf (p.granules != 0 && !sessIn p (pgSession b)) 0x80]

def lrdCheck (s : State) (t : Nat) (p : Partition) (x : RCmd) : Option (Nat × Nat) :=
  if x.op = 0x14 then feedCheck s t p x else if x.op = 0x15 then ctlCheck p x else pageCheck p x

/-! ## Page commands (R233 to R238): the state, the status and the detail; a refusal changes nothing -/

/-- How a command was applied. -/
structure Applied where
  s      : State
  status : Nat
  detail : Nat

def refused_ (s : State) (status : Nat) : Applied := { s := s, status := status, detail := 0 }

def rangeOk (d : Sess) (a b : Nat) : Bool := a % 16 == 0 && b % 16 == 0 && decide (a < b) && decide (b ≤ ceilDiv d.maxlen 16 * 16)

/-- PAGE_ALLOC and PAGE_FREE need one of these states (R237). -/
def pageState (d : Sess) : Bool := d.state == 1 || d.state == 2 || d.state == 4 || (d.state == 3 && !d.evicted)

/-- PAGE_ALLOC's loop over the granules from `g` on. -/
def State.allocRange (s : State) (t : Nat) (p : Partition) (n stop : Nat) : Nat → Nat → Nat → Except Nat (State × Nat)
  | 0, _, got => .ok (s, got)
  | fuel + 1, g, got =>
    if stop ≤ g then .ok (s, got)
    else match s.granule t p n g with
      | some _ => s.allocRange t p n stop fuel (g + 1) got
      | none =>
        match s.growBy t p n g (s.growthK t p n g) with
        | .ok (_, s) => s.allocRange t p n stop fuel (g + 1) (got + 1)
        | .error e => .error e

def applyAlloc (s : State) (t : Nat) (p : Partition) (b : List Byte) : Applied :=
  let n := pgSession b
  let d := s.sess n
  if !pageState d then refused_ s lrdState
  else if !rangeOk d (pgFrom b) (pgTo b) then refused_ s lrdRange
  else
    let g := pgFrom b / 16
    let stop := pgTo b / 16
    match s.allocRange t p n stop (stop - g + 1) g 0 with
    | .ok (s, got) => { s := s, status := 0, detail := got }
    | .error e => refused_ s e

def applyFree (s : State) (t : Nat) (p : Partition) (b : List Byte) : Applied :=
  let n := pgSession b
  let d := s.sess n
  if !pageState d then refused_ s lrdState
  else if !rangeOk d (pgFrom b) (pgTo b) then refused_ s lrdRange
  else
    let lo := pgFrom b / 16
    let hi := pgTo b / 16
    let in_ := (s.pagesIn t p n lo hi).filter fun (g, _, k) => decide (lo ≤ g ∧ g + 2 ^ k ≤ hi)
    { s := in_.foldl (fun s (g, page, k) => s.releasePage t p n g page k) s, status := 0, detail := in_.length }

/-- The largest multiple of 16 not above TO at which no source page straddles (R235), in granules. -/
def noStraddle (pages : List (Nat × Nat × Nat)) (hi : Nat) : Nat :=
  ((List.range (hi + 1)).reverse.find? fun g => !(pages.any fun (a, _, k) => decide (a < g ∧ g < a + 2 ^ k))).getD 0

/-- Steps 1 to 6 of R235 for PAGE_SHARE and PAGE_COPY: the status and detail of a refusal, else the source's pages. -/
def State.shareSteps (s : State) (t : Nat) (p : Partition) (b : List Byte) : Except (Nat × Nat) (List (Nat × Nat × Nat)) :=
  let tgt := pgSession b
  let src := pgSource b
  let d := s.sess tgt
  let c := s.sess src
  let lo := pgFrom b / 16
  let hi := pgTo b / 16
  if !rangeOk d (pgFrom b) (pgTo b) || tgt == src then .error (lrdRange, 0)
  else if c.state == 0 || (c.state == 3 && c.evicted) || !(d.state == 1 || d.state == 4) then .error (lrdState, 0)
  else
    let pages := s.pagesIn t p src lo hi
    if (List.range (hi - lo)).any fun i => (s.granule t p src (lo + i)).isNone then .error (lrdHole, 0)
    else if pages.any fun (g, _, k) => decide (g < lo ∨ hi < g + 2 ^ k) then .error (lrdPartial, 16 * noStraddle (s.allPages t p src) hi)
    else if (List.range (hi - lo)).any fun i => (s.granule t p tgt (lo + i)).isSome then .error (lrdOccupied, 0)
    else if pgSetLen b && !(decide (d.length ≤ pgNewLen b) && decide (pgNewLen b ≤ pgTo b) && decide (pgNewLen b ≤ c.length)) then
      .error (lrdRange, 0)
    else
      let blocks := ((List.range (hi - lo)).map fun i => (lo + i) / 1024).foldl pset []
      let need := (blocks.filter fun i => (s.mapOf t p tgt (1024 * i)).isNone).length
      if s.mapFree t < need then .error (lrdNomap, 0) else .ok pages

def setLen (s : State) (b : List Byte) : State := if pgSetLen b then s.updSess (pgSession b) fun d => { d with length := pgNewLen b } else s

def applyShare (s : State) (t : Nat) (p : Partition) (b : List Byte) : Applied :=
  match s.shareSteps t p b with
  | .error (e, d) => { s := s, status := e, detail := d }
  | .ok pages =>
    let s := pages.foldl (fun s (g, page, k) => ((s.sharePage t page).install t p (pgSession b) g page k).getD s) s
    { s := setLen s b, status := 0, detail := 0 }

def applyCopy (s : State) (t : Nat) (p : Partition) (b : List Byte) : Applied :=
  match s.shareSteps t p b with
  | .error (e, d) => { s := s, status := e, detail := d }
  | .ok pages =>
    let r : Option State := pages.foldl (fun s (g, page, k) => s.bind fun s => (s.allocPage t k).bind fun (new, s) =>
      ((s.copyBytes t p page new k).install t p (pgSession b) g new k)) (some s)
    match r with
    | some s => { s := setLen s b, status := 0, detail := 0 }
    | none => refused_ s lrdNospace

/-! ## Feeds and session control (R228, R239) -/

/-- End queued feeds with LRD_DROPPED. -/
def State.dropFeeds (s : State) (t n : Nat) : State :=
  let fs := (s.sess n).feeds
  let s := s.updSess n fun d => { d with feeds := [], pending := 0 }
  fs.foldl (fun s f => (s.updCmd t f.ref fun x => { x with status := lrdDropped }).endWork t f.ref) s

/-- SESSION_FEED: the command stays until its last token has been prefilled. `none` when it has ended with a status. -/
def applyFeed (s : State) (t : Nat) (ref : CmdRef) (b : List Byte) : Applied × Bool :=
  let n := pgSession b
  let d := s.sess n
  let role := s.fld (tnt t 0x300) 1 2
  if 2 ≤ role ∨ !(d.state == 1 || d.state == 4) then (refused_ s lrdState, true)
  else if 8 ≤ d.feeds.length then (refused_ s lrdFeedFull, true)
  else
    let cnt := fieldAt b 0x14 4
    let f : Feed := { ref := ref, addr := fieldAt b 0x18 8, unread := cnt, left := cnt, gen := bitOf (fieldAt b 0x12 1) 0 }
    let s := s.updSess n fun d => { d with
      state := 1, reason := 0, pending := d.pending + cnt, feeds := d.feeds ++ [f],
      feedTa := if d.feeds.any fun g => g.unread != 0 then d.feedTa else f.addr }
    ({ s := s, status := 0, detail := 0 }, false)

/-- A layer header (R222). -/
def layerHeader (p : Partition) (n l : Nat) : List Byte :=
  leBytes 1 l ++ leBytes 1 p.layers ++ leBytes 1 p.heads ++ leBytes 1 p.dsel ++ leBytes 1 p.fmtKv ++ leBytes 3 0 ++
  leBytes 8 p.poolBase ++ leBytes 4 p.granuleBytes ++ leBytes 4 p.lg ++ leBytes 8 (p.topEntry n 0) ++ leBytes 8 p.mapBlock0 ++ leBytes 24 0

def applyOpen (s : State) (t : Nat) (p : Partition) (b : List Byte) : Applied :=
  let n := pgSession b
  let f (o k : Nat) : Nat := fieldAt b o k
  if (s.sess n).state ≠ 0 then refused_ s lrdState
  else if f 0x20 4 < 16 ∨ 2097152 < f 0x20 4 ∨ 6 < f 0x2A 1 ∨ 7 < f 0x2B 1 then refused_ s lrdRange
  else
    let s := s.setSess n { Sess.idle with
      state := 1, seed := f 0x18 8, maxlen := f 0x20 4, maxnew := f 0x24 4, fineTo := f 0x28 2, kmax := f 0x2A 1, outring := f 0x2B 1,
      temp := f 0x2C 4, topk := f 0x30 2, topp := f 0x34 4, stop := List.replicate 4 0xFFFFFFFF }
    let s := (List.range p.layers).foldl (fun s l => s.taWrite t (p.sessBlock n + 64 * l) (layerHeader p n l) false) s
    { s := s, status := 0, detail := 0 }

/-- Release every page and free the map blocks (R228, CLOSE). -/
def State.releaseAll (s : State) (t : Nat) (p : Partition) (n : Nat) : State :=
  (s.allPages t p n).foldl (fun s (g, page, k) => s.releasePage t p n g page k) s

def State.closeSess (s : State) (t : Nat) (p : Partition) (n : Nat) : State :=
  ((s.dropFeeds t n).releaseAll t p n).updSess n fun d => { d with
    state := 0, reason := 0, prior := 0, evicted := false, migrating := false, nospace := false, atHost := [], job := none, ready := none }

/-- The pages of a session that parking evicts: those with count 1 (R241). -/
def State.evictable (s : State) (t : Nat) (p : Partition) (n : Nat) : List (Nat × Nat × Nat) :=
  (s.allPages t p n).filter fun (_, page, _) => s.pageCount t page == 1

def pageBytes (p : Partition) (k : Nat) : Nat := 2 ^ k * p.granuleBytes

def parkSize (p : Partition) (pages : List (Nat × Nat × Nat)) : Nat := (pages.map fun (_, _, k) => 16 + pageBytes p k).sum

/-- Is the session one that a job holds (LRD_BUSY)? -/
def Sess.jobbed (d : Sess) : Bool := d.job.isSome

def applyPark (s : State) (t : Nat) (p : Partition) (ref : CmdRef) (b : List Byte) : Applied × Bool :=
  let n := pgSession b
  let d := s.sess n
  if !(d.state == 1 || d.state == 2 || d.state == 4) then (refused_ s lrdState, true)
  else
    let park (s : State) : State := s.updSess n fun d => { d with state := 3, reason := 6, prior := d.state }
    if !bitOf (fieldAt b 0x14 1) 0 then ({ s := park s, status := 0, detail := 0 }, true)
    else
      let pages := s.evictable t p n
      let total := parkSize p pages
      if fieldAt b 0x20 4 < total then (refused_ s lrdRange, true)
      else if total = 0 then ({ s := (park s).updSess n fun d => { d with evicted := true }, status := 0, detail := 0 }, true)
      else
        let s := (park s).updSess n fun d => { d with
          migrating := true, hostAddr := fieldAt b 0x18 8,
          job := some { kind := 0, ref := ref, pages := pages.map fun (g, page, _) => (g, page), moved := 0, total := total, ready := false } }
        ({ s := s, status := 0, detail := 0 }, false)

/-- Return from PARKED (R228). -/
def Sess.unpark (d : Sess) : Sess := { d with state := d.prior, reason := 0, prior := 0, evicted := false, migrating := false, job := none, atHost := [] }

def applyUnpark (s : State) (t : Nat) (p : Partition) (ref : CmdRef) (b : List Byte) : Applied × Bool :=
  let n := pgSession b
  let d := s.sess n
  if d.state ≠ 3 then (refused_ s lrdState, true)
  else if !d.evicted || d.atHost.isEmpty then ({ s := s.updSess n Sess.unpark, status := 0, detail := 0 }, true)
  else
    let r : Except Nat (State × List (Nat × Nat)) := d.atHost.foldl (fun acc (g, k) => acc.bind fun (s, xs) =>
      (s.growBy t p n g k).map fun (page, s) => (s, xs ++ [(g, page)])) (.ok (s, []))
    match r with
    | .error e => (refused_ s e, true)
    | .ok (s, pages) =>
      let s := s.updSess n fun d => { d with
        migrating := true,
        job := some { kind := 1, ref := ref, pages := pages, moved := 0, total := (d.atHost.map fun (_, k) => 16 + pageBytes p k).sum, ready := false } }
      ({ s := s, status := 0, detail := 0 }, false)

def applyTruncate (s : State) (t : Nat) (p : Partition) (b : List Byte) : Applied :=
  let n := pgSession b
  let d := s.sess n
  let new := fieldAt b 0x14 4
  if !((d.state == 1 && d.pending == 0) || d.state == 4) then refused_ s lrdState
  else if d.length < new then refused_ s lrdRange
  else
    let from_ := ceilDiv new 16
    let gone := (s.allPages t p n).filter fun (g, _, _) => decide (from_ ≤ g)
    { s := (gone.foldl (fun s (g, page, k) => s.releasePage t p n g page k) s).updSess n fun d => { d with length := new },
      status := 0, detail := 0 }

/-- Do the Larder fields of the twin's record equal this module's (R242, R243)? -/
def State.sameLarder (s : State) (t : Nat) : Bool :=
  match s.part t, s.cat.bind fun c => c.twinParts[t]? with
  | some p, some q => (p.raw.drop 0x60).take 0x1C == (q.drop 0x60).take 0x1C
  | _, _ => false

def State.twinReach (s : State) : Bool := s.twinPort.isSome || s.reachable (twinOf s.moduleId)

/-- MIGRATE begins (R242, step 1): what this member can tell of the twin is checked here, the rest by the twin. -/
def applyMigrate (s : State) (t : Nat) (p : Partition) (ref : CmdRef) (b : List Byte) : Applied × Bool :=
  let n := pgSession b
  let d := s.sess n
  if !(d.state == 4 || (d.state == 3 && !d.evicted)) then (refused_ s lrdState, true)
  else if s.mode t != 0 || !s.sameLarder t || !s.twinReach then (refused_ s lrdTwin, true)
  else
    let pages := s.allPages t p n
    let s := (s.updSess n fun d => { d with
      migrating := true,
      job := some { kind := 2, ref := ref, pages := pages.map fun (g, page, _) => (g, page), moved := 0,
                    total := (pages.map fun (_, _, k) => pageBytes p k).sum, ready := false } }).sendVc3
      (.migrateAsk t n d (pages.map fun (g, _, k) => (g, k)))
    ({ s := s, status := 0, detail := 0 }, false)

def State.copySampling (s : State) (b : List Byte) : State :=
  s.updSess (pgSession b) fun d => { d with temp := fieldAt b 0x2C 4, topk := fieldAt b 0x30 2, topp := fieldAt b 0x34 4 }

def applyCtl (s : State) (t : Nat) (p : Partition) (ref : CmdRef) (b : List Byte) : Applied × Bool :=
  let n := pgSession b
  let d := s.sess n
  let idle := d.state == 0
  let ok (s : State) : Applied × Bool := ({ s := s, status := 0, detail := 0 }, true)
  match ctlOp b with
  | 0 => (applyOpen s t p b, true)
  | 1 => if idle then (refused_ s lrdState, true) else ok (s.copySampling b)
  | 2 =>
    if idle then (refused_ s lrdState, true)
    else ok (s.updSess n fun d => { d with stop := (List.range 4).map fun i => fieldAt b (0x18 + 4 * i) 4, maxnew := fieldAt b 0x28 4 })
  | 3 =>
    if 2 ≤ s.fld (tnt t 0x300) 1 2 ∨ !(d.state == 1 || d.state == 2) then (refused_ s lrdState, true)
    else ok ((s.dropFeeds t n).updSess n fun d => { d with state := 4, reason := 5 })
  | 4 => if idle then (refused_ s lrdState, true) else ok (s.closeSess t p n)
  | 5 => applyPark s t p ref b
  | 6 => applyUnpark s t p ref b
  | 7 => (applyTruncate s t p b, true)
  | _ => applyMigrate s t p ref b

/-- Apply a Larder or session command (R216, R237 to R242): how it went, and whether the command has ended. -/
def applyLarder (s : State) (t : Nat) (p : Partition) (ref : CmdRef) (x : RCmd) : Applied × Bool :=
  if p.granules = 0 then (refused_ s lrdState, true)
  else if x.sessions.any fun n => (s.sess n).jobbed then (refused_ s lrdBusy, true)
  else match x.op with
    | 0x10 => (applyAlloc s t p x.bytes, true)
    | 0x11 => (applyFree s t p x.bytes, true)
    | 0x12 => (applyShare s t p x.bytes, true)
    | 0x13 => (applyCopy s t p x.bytes, true)
    | 0x14 => applyFeed s t ref x.bytes
    | _ => applyCtl s t p ref x.bytes

/-- Send the twin a mirror record (R243). -/
def State.mirror (s : State) (t : Nat) (r : MirRec) : State :=
  if s.mirrors t then s.sendTwin 3 (.mirror t r) else s

/-- Apply a command that takes effect now, and end it unless it stays (R216, R240); under COMPARE the leader notes it for
its next step record (R475). -/
def State.larderApply (s : State) (t : Nat) (p : Partition) (ref : CmdRef) (x : RCmd) : State :=
  let s : State := { s with lrd := { s.lrd with waits := s.lrd.waits.erase (t, ref) } }
  let s := if x.st == .held then s.begin_ t ref none else s
  let (a, ended) := applyLarder s t p ref x
  let s := x.sessions.foldl (fun s n => s.touch t n) a.s
  let r := (ref.info.map (·.1)).getD 0
  let s := s.mirror t (.cmd x.bytes r x.csn)
  let s := if s.comparing t && s.servesPair then s.updTwin t fun y => { y with applied := y.applied ++ [(r, x.csn)] } else s
  if ended then (s.updCmd t ref fun y => { y with status := a.status, detail := a.detail }).endWork t ref else s

/-- Must a command wait: for work of a session that it names, or behind an earlier one that waits and names it (R240)? -/
def State.larderWaits (s : State) (t : Nat) (ref : CmdRef) (x : RCmd) : Bool :=
  x.sessions.any (s.sessBusy t) || s.waitsBefore t ref x.sessions

/-- A command whose turn it is leaves the front end and takes effect, or waits in the Larder engine; the later commands of its ring go on
(R240). The follower of COMPARE applies a command only from a step record (R475). -/
def State.larderAct (s : State) (t : Nat) (ref : CmdRef) (x : RCmd) : State :=
  match s.part t with
  | none => s
  | some p =>
    if s.comparing t && !s.servesPair then s
    else if s.larderWaits t ref x then
      let s := s.begin_ t ref none
      { s with lrd := { s.lrd with waits := s.lrd.waits ++ [(t, ref)] } }
    else s.larderApply t p ref x

/-- A command that waits in the Larder engine: applied once nothing holds it. -/
def State.larderRetry (s : State) (t : Nat) (ref : CmdRef) : State :=
  match s.cmd t ref, s.part t with
  | some x, some p => if !s.active t || x.st != .running || s.larderWaits t ref x then s else s.larderApply t p ref x
  | _, _ => s

def lrdOps : List Nat := [0x10, 0x11, 0x12, 0x13, 0x14, 0x15]

/-- One Larder command, of the kind `want` where one is asked for: it can dispatch once it has been fetched before a boundary (R384). -/
def State.larderStep (s : State) (t : Nat) (ref : CmdRef) (op : Nat) (sub : Option Nat) : State :=
  match s.cmd t ref with
  | none => s
  | some x =>
    if decide (s.beat ≤ x.tick) || (match sub with | some k => ctlOp x.bytes != k | none => false) then s
    else s.dispatch t ref [op] (fun s p x => lrdCheck s t p x) fun s x => some (s.larderAct t ref x)

def execPageAlloc (t : Nat) (c : CmdRef) (s : State) : Host.Outcome State Fault Refusal := .next (s.larderStep t c 0x10 none)
def execPageFree (t : Nat) (c : CmdRef) (s : State) : Host.Outcome State Fault Refusal := .next (s.larderStep t c 0x11 none)
def execPageShare (t : Nat) (c : CmdRef) (s : State) : Host.Outcome State Fault Refusal := .next (s.larderStep t c 0x12 none)
def execPageCopy (t : Nat) (c : CmdRef) (s : State) : Host.Outcome State Fault Refusal := .next (s.larderStep t c 0x13 none)
def execSessionFeed (t : Nat) (c : CmdRef) (s : State) : Host.Outcome State Fault Refusal := .next (s.larderStep t c 0x14 none)
def execSessionOpen (t : Nat) (c : CmdRef) (s : State) : Host.Outcome State Fault Refusal := .next (s.larderStep t c 0x15 (some 0))
def execSetSampling (t : Nat) (c : CmdRef) (s : State) : Host.Outcome State Fault Refusal := .next (s.larderStep t c 0x15 (some 1))
def execSetStop (t : Nat) (c : CmdRef) (s : State) : Host.Outcome State Fault Refusal := .next (s.larderStep t c 0x15 (some 2))
def execSessionStop (t : Nat) (c : CmdRef) (s : State) : Host.Outcome State Fault Refusal := .next (s.larderStep t c 0x15 (some 3))
def execSessionClose (t : Nat) (c : CmdRef) (s : State) : Host.Outcome State Fault Refusal := .next (s.larderStep t c 0x15 (some 4))
def execSessionPark (t : Nat) (c : CmdRef) (s : State) : Host.Outcome State Fault Refusal := .next (s.larderStep t c 0x15 (some 5))
def execSessionUnpark (t : Nat) (c : CmdRef) (s : State) : Host.Outcome State Fault Refusal := .next (s.larderStep t c 0x15 (some 6))
def execSessionTruncate (t : Nat) (c : CmdRef) (s : State) : Host.Outcome State Fault Refusal := .next (s.larderStep t c 0x15 (some 7))
def execSessionMigrate (t : Nat) (c : CmdRef) (s : State) : Host.Outcome State Fault Refusal := .next (s.larderStep t c 0x15 (some 8))

/-- The waiting commands of a tenant, then those of its rings in ring order, each while it can be applied (R240, R439). One that cannot
dispatch at this boundary waits for the next. -/
def State.larderBoundary (s : State) (t : Nat) : State :=
  let one (s : State) (ref : CmdRef) : State := match s.cmd t ref with
    | some x => if lrdOps.contains x.op then s.larderStep t ref x.op none else s
    | none => s
  let s := (s.lrd.waits.filter (·.1 == t)).foldl (fun s w => s.larderRetry t w.2) s
  let s := (List.range 8).foldl (fun s r => (List.range 32).foldl (fun s _ =>
    match (s.ringSt t r).cmds.find? (·.st == .held) with
    | some x => one s (.ring r x.csn)
    | none => s) s) s
  (List.range 8).foldl (fun s r => s.updRing t r fun g => { g with
    cmds := g.cmds.map fun c => if c.st == .held && lrdOps.contains c.op then { c with tick := s.beat } else c }) s

/-! ## Parking and migration atoms (R241, R242) -/

/-- Bytes `[off, off + n)` of what parking writes: for each page a header (first position, `k`, bytes) and its bytes. -/
def State.parkSlice (s : State) (t : Nat) (p : Partition) (pages : List (Nat × Nat)) (off n : Nat) : List Byte :=
  (pages.foldl (fun (acc : List Byte × Nat) (g, page) =>
    let k := ((aget (s.pool t).pages page).map (·.k)).getD 0
    let size := 16 + pageBytes p k
    let lo := max off acc.2
    let hi := min (off + n) (acc.2 + size)
    if hi ≤ lo then (acc.1, acc.2 + size)
    else
      let head := leBytes 4 (16 * g) ++ leBytes 4 k ++ leBytes 8 (pageBytes p k)
      let body := ((s.taRead t (p.poolBase + page * p.granuleBytes) (pageBytes p k)).map (·.1)).getD []
      (acc.1 ++ ((head ++ body).drop (lo - acc.2)).take (hi - lo), acc.2 + size)) ([], 0)).1

/-- Put bytes read back from the host into the pages, from offset `off` of the buffer on. -/
def State.unparkSlice (s : State) (t : Nat) (p : Partition) (pages : List (Nat × Nat)) (off : Nat) (data : List Byte) : State :=
  (pages.foldl (fun (acc : State × Nat) (_, page) =>
    let k := ((aget (s.pool t).pages page).map (·.k)).getD 0
    let start := acc.2 + 16
    let stop := start + pageBytes p k
    let lo := max off start
    let hi := min (off + data.length) stop
    ((if hi ≤ lo then acc.1
      else acc.1.taWrite t (p.poolBase + page * p.granuleBytes + (lo - start)) ((data.drop (lo - off)).take (hi - lo)) false), stop)) (s, 0)).1

/-- Tell the twin what a job has made of a session: the pool, the descriptor, its directory entries and pages (R243). -/
def State.mirrorSess (s : State) (t n : Nat) : State :=
  match s.part t with
  | none => s
  | some p =>
    if !s.mirrors t then s
    else
      let put (s : State) (ta k : Nat) : State := match s.taRead t ta k with
        | some (bs, bad) => s.mirror t (.write ta bs bad)
        | none => s
      let s := (s.mirror t (.pool (s.pool t))).mirror t (.sess n (s.sess n))
      let s := put s (p.sessBlock n) p.sessBytes
      let s := (List.range 128).foldl (fun s i => match s.mapOf t p n (1024 * i) with
        | some b => put s (p.mapEntry b 0) 4096
        | none => s) s
      (s.allPages t p n).foldl (fun s (_, page, k) => put s (p.poolBase + page * p.granuleBytes) (pageBytes p k)) s

/-- End a job's command with a status. -/
def State.endJob (s : State) (t n : Nat) (ref : CmdRef) (status : Nat) : State :=
  ((s.updCmd t ref fun x => { x with status := status }).endWork t ref).mirrorSess t n

/-- The 64-byte lines `[off, off + n)` of the pages that a migration moves: first granule, offset in the page, bytes and poison. -/
def State.pageLines (s : State) (t : Nat) (p : Partition) (pages : List (Nat × Nat)) (off n : Nat) : List (Nat × Nat × List Byte × Bool) :=
  let all := pages.flatMap fun (g, page) =>
    (List.range (ceilDiv (pageBytes p (((aget (s.pool t).pages page).map (·.k)).getD 0)) 64)).map fun i => (g, page, 64 * i)
  ((all.drop (off / 64)).take (ceilDiv n 64)).map fun (g, page, o) =>
    let (bs, bad) := (s.taRead t (p.poolBase + page * p.granuleBytes + o) 64).getD ([], true)
    (g, o, bs, bad)

/-- A migration fails: the sending session is as it was, the twin's copy is closed (R242). -/
def State.failMigrate (s : State) (t n : Nat) (j : Job) : State :=
  let s := (s.updSess n fun d => { d with job := none, migrating := false }).sendVc3 (.migrateAbort t n)
  s.endJob t n j.ref lrdTwin

/-- A MIGRATE atom of a session's job: at most 64 KiB. `data` is what the host read of an UNPARK returned. -/
def State.jobAtom (s : State) (t n : Nat) (data : Option (List Byte)) : State :=
  match s.part t, (s.sess n).job with
  | some p, some j =>
    let len := min 65536 (j.total - j.moved)
    let addr := (s.sess n).hostAddr + j.moved
    let last := decide (j.total ≤ j.moved + len)
    let step (s : State) : State := s.updSess n fun d => { d with job := d.job.map fun j => { j with moved := j.moved + len } }
    let fail (s : State) : State := (s.updSess n fun d => { d with job := none, migrating := false, evicted := false, atHost := [] }).endJob t n j.ref lrdHost
    match j.kind with
    | 0 =>
      if !s.vfReach t then fail s
      else
        let s := step (s.send (.host (.vf t) addr (s.parkSlice t p j.pages j.moved len)))
        if !last then s
        else
          let ks := j.pages.map fun (g, page) => (g, page, ((aget (s.pool t).pages page).map (·.k)).getD 0)
          let s := ks.foldl (fun s (g, page, k) => s.releasePage t p n g page k) s
          (s.updSess n fun d => { d with job := none, migrating := false, evicted := true, atHost := ks.map fun (g, _, k) => (g, k) }).endJob t n j.ref 0
    | 1 =>
      match data.filter fun _ => s.vfReach t with
      | none => fail s
      | some bs =>
        let s := step (s.unparkSlice t p j.pages j.moved (bs.take len))
        if !last then s else (s.updSess n Sess.unpark).endJob t n j.ref 0
    | 2 =>
      if !j.ready || (j.moved != 0 && decide (j.total ≤ j.moved)) then s
      else if !s.twinReach then s.failMigrate t n j
      else
        let s := step (s.sendVc3 (.migrateData t n len (s.pageLines t p j.pages j.moved len)))
        if j.total = 0 then s.updSess n fun d => { d with job := d.job.map fun j => { j with ready := false } } else s
    | _ => s
  | _, _ => s

/-- The twin has allocated its pages: the atoms can run (R242, step 2). -/
def State.migrateReady (s : State) (t n : Nat) : State :=
  match (s.sess n).job, s.part t with
  | some j, some p => if j.kind = 2 && sessIn p n then s.updSess n fun d => { d with job := some { j with ready := true } } else s
  | _, _ => s

/-- The sending member after the twin has confirmed, or refused (R242, step 4). -/
def State.migrated (s : State) (t n : Nat) (ok : Bool) : State :=
  match s.part t, (s.sess n).job with
  | some p, some j =>
    if j.kind ≠ 2 ∨ sessIn p n = false then s
    else if ok then
      if j.moved < j.total then s
      else
        let s := s.updSess n fun d => { d with job := none, migrating := false }
        (s.closeSess t p n).endJob t n j.ref 0
    else (s.updSess n fun d => { d with job := none, migrating := false }).endJob t n j.ref lrdTwin
  | _, _ => s

/-- MIGRATE_CONFIRM (R242): the twin confirms, or refuses. -/
def execMigrateConfirm (t n : Nat) (ok : Bool) (s : State) : Host.Outcome State Fault Refusal := .next (s.migrated t n ok)

/-- The receiving member is asked (R242, steps 1 and 2): the session must be IDLE here and the pool of the same geometry; pages of the same
`k` are allocated at the same positions, all or none. -/
def State.askedMigrate (s : State) (t n : Nat) (d : Sess) (pages : List (Nat × Nat)) : State :=
  let no : State := s.sendVc3 (.migrateDone t n false)
  match s.part t with
  | none => no
  | some p =>
    if p.granules = 0 ∨ !sessIn p n ∨ (s.sess n).state ≠ 0 ∨ (s.sess n).jobbed = true ∨ !s.sameLarder t then no
    else
      let r : Except Nat (State × List (Nat × Nat)) := pages.foldl (fun acc (g, k) => acc.bind fun (s, xs) =>
        (s.growBy t p n g k).map fun (page, s) => (s, xs ++ [(g, page)])) (.ok (s, []))
      match r with
      | .error _ => no
      | .ok (s, xs) =>
        let s := (List.range p.layers).foldl (fun s l => s.taWrite t (p.sessBlock n + 64 * l) (layerHeader p n l) false) s
        let s := s.updSess n fun e => { e with
          migrating := true,
          job := some { kind := 3, ref := .ring 0 0, pages := xs, moved := 0, total := (pages.map fun (_, k) => pageBytes p k).sum, ready := true } }
        ({ s with lrd := { s.lrd with incoming := aput s.lrd.incoming n d } } : State).sendVc3 (.migrateReady t n)

/-- The receiving member's copy is closed. -/
def State.dropMigrate (s : State) (t n : Nat) : State :=
  match s.part t, (s.sess n).job with
  | some p, some j =>
    if j.kind ≠ 3 ∨ sessIn p n = false then s
    else
      let s := s.closeSess t p n
      { s with lrd := { s.lrd with incoming := adel s.lrd.incoming n } }
  | _, _ => s

/-- The receiving member takes an atom's lines; with the last the session is PARKED with the descriptor copied, and it confirms
(R242, step 4). -/
def State.takeMigrate (s : State) (t n len : Nat) (lines : List (Nat × Nat × List Byte × Bool)) : State :=
  match s.part t, (s.sess n).job with
  | some p, some j =>
    if j.kind ≠ 3 ∨ sessIn p n = false then s
    else
      let s := lines.foldl (fun s (g, o, bs, bad) => match aget j.pages g with
        | some page => s.taWrite t (p.poolBase + page * p.granuleBytes + o) bs bad
        | none => s) s
      let s := s.updSess n fun e => { e with job := some { j with moved := j.moved + len } }
      if j.moved + len < j.total then s
      else match aget s.lrd.incoming n with
        | none => s
        | some d =>
          let s : State := { s with lrd := { s.lrd with incoming := adel s.lrd.incoming n } }
          (s.setSess n { d with
            state := 3, reason := 6, prior := if d.state = 3 then d.prior else d.state, migrating := false, job := none, feeds := [],
            flight := false, ready := none }).sendVc3 (.migrateDone t n true)
  | _, _ => s

/-- A tenant reset ends its migrations: the other member learns of it (R242, R244). -/
def State.resetMigrates (s : State) (t : Nat) : State :=
  match s.part t with
  | none => s
  | some p => (s.lrd.sess.filter fun (n, d) => sessIn p n && d.jobbed).foldl (fun s (n, d) => match d.job with
      | some j => if j.kind = 2 then s.sendVc3 (.migrateAbort t n) else if j.kind = 3 then s.sendVc3 (.migrateDone t n false) else s
      | none => s) s

/-- The twin is lost: migrations to it fail, those from it are closed here (R242). -/
def State.endMigrations (s : State) : State :=
  (List.range 16).foldl (fun s t => match s.part t with
    | none => s
    | some p =>
      (s.lrd.sess.filter fun (n, d) => sessIn p n && d.jobbed).foldl (fun s (n, d) => match d.job with
        | some j => if j.kind = 2 then s.failMigrate t n j else s.dropMigrate t n
        | none => s) s) s

/-! ## Mirror records (R243, R474, R480) -/

/-- A mirrored write. Outside COMPARE, where marks come, remember what stood at the address since the last mark. -/
def State.mirWrite (s : State) (t ta : Nat) (bs : List Byte) (bad : Bool) : State :=
  if s.comparing t then s.taWrite t ta bs bad else
  let old := (s.taRead t ta bs.length).getD (List.replicate bs.length 0, false)
  (s.updTwin t fun x => { x with undo := (ta, old.1, old.2) :: x.undo }).taWrite t ta bs bad

/-- Apply a record of the twin (R243). -/
def State.applyMirror (s : State) (t : Nat) (r : MirRec) : State :=
  match s.part t with
  | none => s
  | some p =>
    match r with
    | .cmd bytes ring csn => (applyLarder s t p (.ring ring csn) (RCmd.new csn bytes)).1.s
    | .resolve n k =>
      let (s, _) := s.resolveAppends t n k
      (List.range (s.lrd.copies.length)).foldl (fun s _ => s.endCopy t) s
    | .sess n d => s.setSess n d
    | .write ta bs bad => s.mirWrite t ta bs bad
    | .pool q => s.setPool t q
    | .recipe id v cmds =>
      let r : Recipe := { a := { cmds := cmds, version := v, holds := 0 }, b := { cmds := [], version := 0, holds := 0 }, curB := false }
      { s with front := { s.front with recipes := aput s.front.recipes id r } }
    | .slot codec slot gen lens => { s with cdx := { s.cdx with slots := aput s.cdx.slots (64 * codec + 4 * t + slot) { gen := gen, lens := lens } } }
    | .clear set =>
      let s := if set then (s.setFld (tnt t 0x8) 0 2 1).setFld (tnt t 0x8) 4 2 1 else s
      let s := (s.setFlag (tnt t 0x10) 0 true).updTwin t fun x => { x with resync := 1, base := none, undo := [] }
      let s := (List.range 8).foldl (fun s r => s.updRing t r fun g => { g with cmds := [] }) s
      let s := (s.setPool t Pool.empty).updLadle t fun l => { Ladle.reset with nextRet := l.nextRet }
      { s with
        lrd := { s.lrd with sess := s.lrd.sess.filter fun (n, _) => !sessIn p n },
        front := { s.front with recipes := s.front.recipes.filter fun (i, _) => !rcpIn p i },
        cdx := { s.cdx with slots := s.cdx.slots.filter fun (k, _) => k / 4 % 16 != t } }
    | .last => (s.updTwin t fun x => { x with resync := 2 })

/-- MIRROR_RECORD_RECEIVE (R243): a record is taken by the member that does not serve. -/
def execMirrorRecordReceive (t : Nat) (r : MirRec) (s : State) : Host.Outcome State Fault Refusal :=
  if 16 ≤ t ∨ s.servesPair then .next s else .next (s.applyMirror t r)

/-- A mark makes this member's Larder consistent at a tick, with the counters and CSNs it carries (R243, R480). -/
def State.applyMark (s : State) (t tick : Nat) (ctrs : List (Nat × Nat)) (csns : List Nat) (ret : Nat) : State :=
  let mine := match s.part t with
    | some p => s.lrd.sess.filter fun (n, _) => sessIn p n
    | none => []
  let dir := match s.part t with
    | some p => s.taCells t p.dirBase p.dirBytes
    | none => []
  s.updTwin t fun x => { x with base := some (mine, s.pool t, dir), undo := [], markTick := tick, markCtrs := ctrs, markCsns := csns, markRet := ret }

/-- MIRROR_MARK_RECEIVE (R243). -/
def execMirrorMarkReceive (t tick : Nat) (ctrs : List (Nat × Nat)) (csns : List Nat) (ret : Nat) (s : State) :
    Host.Outcome State Fault Refusal :=
  if 16 ≤ t ∨ s.servesPair then .next s else .next (s.applyMark t tick ctrs csns ret)

/-- Back to the Larder of the last mark (R480). -/
def State.backToMark (s : State) (t : Nat) : State :=
  match (s.twinSt t).base, s.part t with
  | some (sess, pool, dir), some p =>
    let s := (s.twinSt t).undo.foldl (fun s (ta, bs, bad) => s.taWrite t ta bs bad) s
    let s : State := { s with lrd := { s.lrd with sess := (s.lrd.sess.filter fun (n, _) => !sessIn p n) ++ sess } }
    let s := s.setPool t pool
    let s := s.taZero t p.dirBase p.dirBytes
    let s : State := { s with hbm := dir.foldl (fun m (a, v) => nset m a v) s.hbm }
    (s.twinSt t).markCtrs.foldl (fun s (k, v) => { s with ctrs := nset s.ctrs k (BitVec.ofNat 64 v) }) (s.updTwin t fun x => { x with undo := [] })
  | _, _ => s

end Sys2Proof.Machine
end

