-- ==== Sys2Proof/Machine/Ladle.lean ====
section
/-!
DEFINITION. Ladle.lean: batches, lists, returns, output records and seals (R397, R398, R432 to R448, R458, R465 to R470).
-/

namespace Sys2Proof.Machine

/-! ## Settings (R432, R435, R458) -/

def State.lEn (s : State) (t : Nat) : Bool := s.flag (tnt t 0x300) 0
def State.lRole (s : State) (t : Nat) : Nat := s.fld (tnt t 0x300) 1 2
def State.lPair (s : State) (t : Nat) : Nat := s.fld (tnt t 0x300) 3 5
def State.lWait (s : State) (t : Nat) : Nat := s.fld (tnt t 0x300) 8 4
def State.lRecipe (s : State) (t : Nat) : Nat := s.fld (tnt t 0x300) 16 12

/-- Does the module form batches, and does it sample (R432)? -/
def State.lForms (s : State) (t : Nat) : Bool := decide (s.lRole t < 2)
def State.lSamples (s : State) (t : Nat) : Bool := s.lRole t == 0 || s.lRole t == 3

/-- Is a write of a Ladle register refused (R458)? -/
def State.ladleRefused (s : State) (t off v : Nat) : Bool :=
  let en := s.lEn t
  if off = 0x310 then en && decide ((s.word (tnt t 0x310)).toNat ≠ v)
  else if off = 0x300 then
    let step := v / 2 ^ 16 % 2 ^ 12
    (en && (v / 2 % 4 != s.lRole t || v / 8 % 32 != s.lPair t || step != s.lRecipe t)) ||
    (v % 2 == 1 && (match s.part t with
      | some p => decide (p.stageSize < 72 * 2 ^ 20) || !(rcpIn p step && rcpIn p (step + 3))
      | none => true))
  else false

/-- A write of a Ladle register by the tenant's function: BAD at once, the settings at the next boundary. -/
def State.ladleWrite (s : State) (t off v : Nat) : State :=
  let s := if off = 0x300 ∧ bitOf v 12 then s.setFlag (tnt t 0x300) 12 false else s
  if s.ladleRefused t off v then s.setFlag (tnt t 0x300) 12 true
  else s.updLadle t fun l => { l with writes := l.writes ++ [(off, v)] }

/-- LADLE_CTL_WRITE (R458). -/
def execLadleCtlWrite (t : Nat) (value : W32) (s : State) : Host.Outcome State Fault Refusal :=
  if 16 ≤ t ∨ !s.serves ∨ (s.part t).isNone then .next s else .next (s.ladleWrite t 0x300 value.toNat)

/-- A write takes effect at its boundary. -/
def State.ladleTake (s : State) (t off v : Nat) : State :=
  if off = 0x300 then
    let s := s.setFld (tnt t 0x300) 0 12 v
    s.setFld (tnt t 0x300) 16 12 (v / 2 ^ 16)
  else if off = 0x304 ∨ off = 0x308 then (if 1 ≤ v % 2 ^ 17 ∧ v % 2 ^ 17 ≤ 65536 then s.setFld (tnt t off) 0 17 v else s)
  else if off = 0x30C then
    let lo := v % 2 ^ 14
    let hi := v / 2 ^ 16 % 2 ^ 14
    if 256 ≤ lo ∧ lo ≤ 8192 ∧ lo ≤ hi ∧ hi ≤ 8192 then (s.setFld (tnt t off) 0 14 lo).setFld (tnt t off) 16 14 hi else s
  else s.setWord (tnt t off) (BitVec.ofNat 32 v)

def State.ladleWrites (s : State) (t : Nat) : State :=
  ((s.ladle t).writes.foldl (fun s (o, v) => s.ladleTake t o v) s).updLadle t fun l => { l with writes := [] }

/-! ## Messages (R446) -/

/-- Send a message of a tenant to a pair: to the serving member, or under COMPARE to the member with this one's number. -/
def State.sendPair (s : State) (t pair vc : Nat) (c : Ctl) : State :=
  let member := if s.comparing t then s.moduleId % 2 else 2
  match s.resolve pair member with
  | none => s
  | some d =>
    let p : Packet :=
      { kind := .control, vc := vc, cls := 0, dst := d, src := 0, tenant := t, space := 0, gen := 0, tag := 0, addr := 0, bad := 0,
        cnt := 0, cntEn := false, payload := [], ctl := some c }
    (s.sendPacket p (member == 2) .free false).getD s

/-! ## Digests of a stage (R465, R467, R468) -/

/-- This module's identity (R467). -/
def State.identity (s : State) : List Byte := sha384 ((s.fuses.idPub ++ leBytes 96 0).take 96)

/-- The weight-set digest (R465). -/
def State.weightDigest (s : State) (t : Nat) : List Byte :=
  let own := if s.flag (tnt t 0x50) 2 then s.getBytes (tnt t 0x60) 48 else leBytes 48 0
  let cs := (s.cat.map (·.commons)).getD []
  let pub := (List.range cs.length).filter fun i => s.commonState i == 2 && ((cs[i]?).map fun c => bitOf c.readers t).getD false
  sha384 (own ++ pub.flatMap fun i => (aget s.commonDigs i).getD [])

/-- A stage record; the recipe digest of a stage that launched nothing is a free value. -/
def State.stageRecord (s : State) (t : Nat) (rdig : Option (List Byte)) : List Byte :=
  let cmp := s.comparing t
  let me := s.identity
  let (a, b) := if cmp then (if s.moduleId % 2 = 0 then (me, Config.twinIdentity) else (Config.twinIdentity, me)) else (me, leBytes 48 0)
  let r := rdig.getD (Config.freeBytes s.freeCtr)
  leBytes 1 (s.moduleId / 2) ++ leBytes 1 (s.mode t) ++ leBytes 2 0 ++ leBytes 4 (s.word 0x8).toNat ++ leBytes 8 0 ++
  (r ++ leBytes 48 0).take 48 ++ s.weightDigest t ++ (a ++ leBytes 48 0).take 48 ++ (b ++ leBytes 48 0).take 48

/-- The input digest (R468). -/
def State.inputDigest (s : State) (ents : List SEnt) (toks : List Nat) : List Byte :=
  sha384 (ents.flatMap fun e =>
    let d := s.sess e.session
    leBytes 2 e.session ++ leBytes 1 e.prefill.toNat ++ leBytes 4 e.nrows ++ leBytes 4 e.pos0 ++ leBytes 8 d.seed ++ leBytes 6 d.step ++
    ((toks.drop e.firstRow).take e.nrows).flatMap (leBytes 4 ·))

/-! ## The local buffer (R435 to R438) -/

def BList.rows (l : BList) : Nat := (l.ents.map (·.nrows)).sum
def BList.samples (l : BList) : Nat := (l.ents.filter (·.sample)).length

/-- The index of entry `i` in the parameter records and TOKENS. -/
def BList.sampleIdx (l : BList) (i : Nat) : Nat := ((l.ents.take i).filter (·.sample)).length

def BList.header (l : BList) (appends : Nat) : List Byte :=
  leBytes 8 l.bseq ++ leBytes 8 l.origin ++ leBytes 4 l.rows ++ leBytes 2 l.ents.length ++ leBytes 2 l.samples ++ leBytes 4 appends ++
  leBytes 4 0 ++ leBytes 8 l.seed ++ leBytes 6 l.step ++ leBytes 18 0

/-- A session entry; a list that is sent has its module's own fields zero (R446). -/
def entBytes (e : SEnt) (dir first count idx : Nat) : List Byte :=
  leBytes 2 (e.session + e.skip.toNat * 2 ^ 15) ++ leBytes 1 e.prefill.toNat ++ leBytes 1 e.sample.toNat ++ leBytes 4 e.firstRow ++
  leBytes 4 e.nrows ++ leBytes 4 e.pos0 ++ leBytes 8 dir ++ leBytes 4 first ++ leBytes 2 count ++ leBytes 2 idx

def BList.rowBytes (l : BList) (tokens : Bool) : List Byte :=
  (l.ents.mapIdx fun i e => (List.range e.nrows).flatMap fun r =>
    leBytes 4 (if tokens then l.toks.getD (e.firstRow + r) 0 else 0) ++ leBytes 2 i ++
    leBytes 1 ((e.sample && r + 1 == e.nrows).toNat + 2 * e.skip.toNat) ++ leBytes 1 0).flatten

/-- A VSAMPLE parameter record (R178, R227). -/
def paramBytes (n : Nat) (d : Sess) : List Byte :=
  leBytes 4 d.temp ++ leBytes 2 d.topk ++ leBytes 2 0 ++ leBytes 4 d.topp ++ leBytes 4 d.length ++ leBytes 8 d.seed ++ leBytes 6 d.step ++
  leBytes 2 n

def State.ladleBuf (s : State) (t bseq : Nat) : Nat := ((s.part t).map (·.stageBase)).getD 0 + 40 * 2 ^ 20 + bseq % 4 * 2 ^ 22
def State.recvBuf (s : State) (t bseq : Nat) : Nat := ((s.part t).map (·.stageBase)).getD 0 + 56 * 2 ^ 20 + bseq % 4 * 2 ^ 22

/-- Write the local buffer of a batch. -/
def State.writeLocal (s : State) (t : Nat) (l : BList) (as : List Append) : State :=
  match s.part t with
  | none => s
  | some p =>
    let a := s.ladleBuf t l.bseq
    let s := (s.taZero t a 0x240000).taZero t (a + 0x240000 + 4 * l.samples) (2 ^ 22 - 0x240000 - 4 * l.samples)
    let mine := l.ents.flatMap fun e => as.filter (·.sess == e.session)
    let ents := (l.ents.mapIdx fun i e =>
      let own := (mine.filter (·.sess == e.session)).length
      let first := (mine.takeWhile (·.sess != e.session)).length
      entBytes e (p.sessBlock e.session) (if own = 0 then 0 else first) own (if e.sample then l.sampleIdx i else 0xFFFF)).flatten
    let s := ((s.taWrite t a (l.header mine.length) false).taWrite t (a + 0x1000) ents false).taWrite t (a + 0x80000) (l.rowBytes (s.lForms t)) false
    let s := s.taWrite t (a + 0x100000) (mine.flatMap Append.bytes) false
    if s.lSamples t then
      s.taWrite t (a + 0x200000) ((l.ents.filter (·.sample)).flatMap fun e => paramBytes e.session (s.sess e.session)) false
    else s

/-! ## Candidates and selection (R440 to R443) -/

def Sess.oldest (d : Sess) : Option Feed := d.feeds.find? (·.unread != 0)

def Sess.candidate (d : Sess) : Bool := ((d.state == 1 && d.pending != 0) || d.state == 2) && !d.flight && !d.migrating

/-- The tokens a prefill candidate can offer. -/
def Sess.offer (d : Sess) (chunkMax : Nat) : Nat :=
  min (min d.pending chunkMax) (min ((d.oldest.map (·.unread)).getD 0) (d.maxlen - d.length))

/-- Note ready ticks at a boundary (R440). -/
def State.noteReady (s : State) (t : Nat) : State :=
  match s.part t with
  | none => s
  | some p =>
    let upd (x : Nat × Sess) : Nat × Sess :=
      if sessIn p x.1 then (x.1, { x.2 with ready := if x.2.candidate then some (x.2.ready.getD s.beat) else none }) else x
    { s with lrd := { s.lrd with sess := s.lrd.sess.map upd } }

/-- The cap of R443. -/
def State.ladleCap (s : State) (t : Nat) : Nat :=
  let rowcap := s.fld (tnt t 0x308) 0 17
  let v := ((s.ladle t).overruns.map (·.2)).foldl max 0
  let per := s.tickRec.periodUs * 10
  if v = 0 then rowcap
  else min rowcap (max 64 (if per ≤ v then 0 else rowcap * (per - v) / per / 64 * 64))

/-- A chosen session: its number, whether it prefills, its rows. -/
structure Pick where
  n       : Nat
  prefill : Bool
  rows    : Nat
  deriving DecidableEq, Repr

/-- Fill with prefill candidates while rows remain below the target (R441). -/
def fillPrefill (lo hi target : Nat) : List (Nat × Sess) → Nat → List Pick
  | [], _ => []
  | (n, d) :: rest, rows =>
    if target ≤ rows then []
    else
      let chunk := min (d.offer hi) (target - rows)
      if chunk < min lo (d.offer (2 ^ 32)) then [] else ⟨n, true, chunk⟩ :: fillPrefill lo hi target rest (rows + chunk)

/-- What FIRST or ONLY selects at a boundary, with the counts of R441 and R446. -/
def State.ladleSelect (s : State) (t : Nat) : State × List Pick :=
  match s.part t with
  | none => (s, [])
  | some p =>
    let l := s.ladle t
    if s.lRole t = 1 ∧ l.taken + 4 ≤ l.next then (s.bump (tnt t 0x32C) 1, [])
    else
      let age (x : Nat × Sess) : Nat := x.2.ready.getD s.beat
      let cands := (s.lrd.sess.filter fun (n, d) => sessIn p n && d.candidate).mergeSort fun a b =>
        decide (age a < age b ∨ (age a = age b ∧ a.1 ≤ b.1))
      let lo := s.fld (tnt t 0x30C) 0 14
      let hi := s.fld (tnt t 0x30C) 16 14
      let cap := s.ladleCap t
      let target := min (s.fld (tnt t 0x304) 0 17) cap
      let dec := cands.filter fun (_, d) => d.state == 2
      let pre := cands.filter fun (_, d) => d.state == 1
      let offer := dec.length + (pre.map fun (_, d) => d.offer hi).sum
      let waited := (cands.map fun x => s.beat - age x).foldl max 0
      if cands.isEmpty then (s, [])
      else if offer < target && decide (waited < s.lWait t) then (s.bump (tnt t 0x324) 1, [])
      else
        let ds := (dec.take cap).map fun (n, _) => (⟨n, false, 1⟩ : Pick)
        (s, ds ++ fillPrefill lo hi target pre ds.length)

/-- Will the session's last row be sampled (R442)? -/
def State.picksSample (s : State) (x : Pick) : Bool :=
  let d := s.sess x.n
  !x.prefill || (x.rows == d.pending && (d.oldest.map (·.gen)).getD false)

/-! ## Output room (R398) -/

/-- Records of a ring reserved for batches that have not written them. -/
def State.outstanding (s : State) (t ring : Nat) : Nat :=
  (((s.ladle t).batches.filter (!·.done)).map fun b => (b.list.ents.filter fun e => e.sample && !e.skip && (s.sess e.session).outring == ring).length).sum

def State.outRoom (s : State) (t ring : Nat) : Nat :=
  let lg := s.fld (rng t ring 0x40) 0 5
  if lg = 0 then 0
  else 2 ^ lg - ((s.word (rng t ring 0x50)).toNat + 2 ^ 32 - (s.word (rng t ring 0x44)).toNat) % 2 ^ 32 - s.outstanding t ring

/-- The sessions, of those that sample, that find no room: from the highest number down, each counted in RNG_OFULL. -/
def State.reserve (s : State) (t : Nat) (ns : List Nat) : State × List Nat :=
  (List.range 8).foldl (fun (s, out) r =>
    let mine := (ns.filter fun n => (s.sess n).outring == r).mergeSort (· ≤ ·)
    let left := mine.drop (s.outRoom t r)
    (if left.isEmpty then s else s.bump (rng t r 0x54) left.length, out ++ left)) (s, [])

/-! ## Resolution of a batch (R229, R439) -/

/-- Resolve sessions in increasing number: the appends, and the sessions that were refused. -/
def State.resolveAll (s : State) (t : Nat) (xs : List (Nat × Nat)) : State × List Append × List Nat :=
  (xs.mergeSort fun a b => decide (a.1 ≤ b.1)).foldl (fun (s, as, bad) (n, rows) =>
    match s.resolveAppends t n rows with
    | (s, some a) => ((s.touch t n).mirror t (.resolve n rows), as ++ a, bad)
    | (s, none) => (s, as, bad ++ [n])) (s, [], [])

/-- Take a prefill chunk out of the session's feeds: its tokens (R442). -/
def State.takeChunk (s : State) (t n rows : Nat) : List Nat × State :=
  let d := s.sess n
  match d.oldest with
  | none => ([], s)
  | some f =>
    let bs := ((s.taRead t f.addr (4 * rows)).map (·.1)).getD []
    let f' : Feed := { f with addr := f.addr + 4 * rows, unread := f.unread - rows }
    let feeds := d.feeds.map fun g => if g.ref == f.ref then f' else g
    let d' : Sess := { d with feeds := feeds, pending := d.pending - rows, gen := f.gen }
    let d' := { d' with feedTa := (d'.oldest.map (·.addr)).getD f'.addr }
    ((List.range rows).map fun i => fieldAt bs (4 * i) 4, s.setSess n d')

/-! ## Launching (R439, R444) -/

/-- Write the buffer, launch the step work, and forward the list (R439, step 6). `as` are the batch's appends. -/
def State.runBatch (s : State) (t : Nat) (l : BList) (as : List Append) : State :=
  let recipe := s.lRecipe t + l.bseq % 4
  let s := s.writeLocal t l as
  let snap := if (aget s.front.recipes recipe).isSome then s.snapshot t none l.bseq recipe (some (l.seed, l.step)) else none
  let (s, rdig) := match snap with
    | some (s, v, dig) => (s.logToken t 2 0x1A recipe (l.bseq % 2 ^ 32) l.seed l.step v dig, some dig)
    | none => (s.raise t 0xE3 {}, none)
  let chain := sha384 (l.chain ++ s.stageRecord t rdig)
  let s := if rdig.isNone then s.fresh.2 else s
  let l := { l with chain := chain, nowset := l.nowset || !s.flag (tnt t 0x50) 2 }
  let s := (s.setQuad (tnt t 0x318) l.bseq).setFld (tnt t 0x320) 0 17 l.rows
  let s := s.updLadle t fun x => { x with batches := x.batches ++ [{ list := l, done := rdig.isNone, tick := s.curUnit t, single := false }] }
  let v := ((s.ladle t).overruns.map (·.2)).foldl max 0
  let s := s.event 0x08 (some t) none (l.bseq % 2 ^ 32)
    (leBytes 4 l.rows ++ leBytes 2 l.ents.length ++ leBytes 2 (l.ents.filter (·.sample)).length ++ leBytes 3 v) (0, 0)
  if s.lRole t = 1 ∨ s.lRole t = 2 then
    if l.bseq < (s.ladle t).taken + 4 then s.sendPair t (s.lPair t) 2 (.batchList t l)
    else s.updLadle t fun x => { x with unsent := x.unsent ++ [l] }
  else if rdig.isNone then
    -- nothing was launched: every session is stalled
    let r : Ret := { bseq := l.bseq, ents := l.ents.map fun e =>
      { session := e.session, reason := 0, token := none, stall := true, position := 0, pos0 := e.pos0 } }
    let s := s.updLadle t fun x => { x with rets := x.rets ++ [r] }
    if s.lRole t = 3 then (bitsOf 32 (s.word (tnt t 0x310)).toNat).foldl (fun s q => if q = s.moduleId / 2 then s else s.sendPair t q 2 (.ret t r)) s else s
  else s

/-- Is the step recipe of the next batch loaded (R444)? -/
def State.hasStep (s : State) (t bseq : Nat) : Bool := (aget s.front.recipes (s.lRecipe t + bseq % 4)).isSome

/-- What the Ladle made of a boundary: the batch as this stage launched it, and the sessions that resolution left out, with
their rows (R475). -/
abbrev BatchOut := Option BList × List (Nat × Nat)

/-- FIRST or ONLY forms and launches a batch (R439, steps 3 to 6). -/
def State.formBatch (s : State) (t : Nat) : State × BatchOut :=
  let (s, picks) := s.ladleSelect t
  let bseq := (s.ladle t).next
  let has_ := s.hasStep t bseq
  let (s, out) := if s.lRole t = 0 then s.reserve t ((picks.filter s.picksSample).map (·.n)) else (s, [])
  let picks := picks.filter fun x => !out.contains x.n
  let sampled := (picks.filter s.picksSample).map (·.n)
  let pos0s := picks.map fun x => (x.n, (s.sess x.n).length)
  let (s, as, bad) := if has_ then s.resolveAll t (picks.map fun x => (x.n, x.rows)) else (s, [], [])
  let left := (picks.filter fun x => bad.contains x.n).map fun x => (x.n, x.rows)
  let picks := picks.filter fun x => !bad.contains x.n
  if picks.isEmpty then (s, none, left)
  else
    let sorted := (picks.filter (!·.prefill)).mergeSort (fun a b => decide (a.n ≤ b.n)) ++
      (picks.filter (·.prefill)).mergeSort (fun a b => decide (a.n ≤ b.n))
    let (s, ents, toks) := sorted.foldl (fun (acc : State × List SEnt × List Nat) x =>
      let (s, es, toks) := acc
      let e : SEnt := { session := x.n, prefill := x.prefill, sample := sampled.contains x.n, skip := !has_, firstRow := toks.length,
                        nrows := x.rows, pos0 := (aget pos0s x.n).getD 0 }
      let (ts, s) := if x.prefill then s.takeChunk t x.n x.rows else ([(s.sess x.n).token], s)
      ((s.updSess x.n fun d => { d with flight := true, ready := none }).touch t x.n, es ++ [e], toks ++ ts)) (s, [], [])
    let d0 := s.sess ((ents.head?.map (·.session)).getD 0)
    let l : BList :=
      { bseq := bseq, origin := s.tickNo, seed := d0.seed, step := d0.step, ents := ents, toks := toks, chain := leBytes 48 0,
        input := s.inputDigest ents toks, nowset := false }
    let s := s.updLadle t fun x => { x with next := x.next + 1 }
    let s := ents.foldl (fun s e => s.mirror t (.sess e.session (s.sess e.session))) s
    (s.runBatch t l as, some l, left)

/-- Carry a list: what this stage cannot carry is skipped (R446, R448). -/
def State.carryList (s : State) (t : Nat) (l : BList) : State × BatchOut :=
  let has_ := s.hasStep t l.bseq
  let live := l.ents.filter (!·.skip)
  let (s, out) := if s.lRole t = 3 then s.reserve t ((live.filter (·.sample)).map (·.session)) else (s, [])
  let live := live.filter fun e => !out.contains e.session
  let (s, as, bad) := if has_ then s.resolveAll t (live.map fun e => (e.session, e.nrows)) else (s, [], [])
  let ents := l.ents.map fun e => if !has_ || out.contains e.session || bad.contains e.session then { e with skip := true } else e
  let s := live.foldl (fun s e => s.mirror t (.sess e.session (s.sess e.session))) s
  let l := { l with ents := ents, toks := [] }
  (s.runBatch t l as, some l, (live.filter fun e => bad.contains e.session).map fun e => (e.session, e.nrows))

/-- MIDDLE or LAST takes at most one list that has fully arrived, and gives its sender credit (R446). -/
def State.takeList (s : State) (t : Nat) : State × BatchOut :=
  let l := s.ladle t
  match l.lists.find? fun (_, x) => x.bseq == l.nextList with
  | none => (s, none, [])
  | some (src, x) =>
    let s := s.updLadle t fun y => { y with lists := y.lists.filter fun (_, z) => z.bseq != x.bseq, nextList := y.nextList + 1, next := x.bseq + 1 }
    (s.sendPair t (src / 2) 0 (.credit t x.bseq)).carryList t x

/-! ## Returns (R447, R448) -/

/-- Cover prefilled tokens: the feeds whose last token is covered complete (R239). -/
def State.coverFeeds (s : State) (t n : Nat) : Nat → Nat → State
  | 0, _ => s
  | fuel + 1, k =>
    match (s.sess n).feeds with
    | [] => s
    | f :: rest =>
      if k < f.left then s.updSess n fun d => { d with feeds := { f with left := f.left - k } :: rest }
      else
        let s := s.updSess n fun d => { d with feeds := rest }
        (s.endWork t f.ref).coverFeeds t n fuel (k - f.left)

/-- A stalled entry gives back positions, and on FIRST or ONLY the chunk's tokens (R448). -/
def State.stallEntry (s : State) (t : Nat) (e : RetEnt) (b : Option SEnt) : State :=
  let s := (s.bump (tnt t 0x328) 1).updSess e.session fun d => { d with length := e.pos0, flight := false, ready := none }
  match b with
  | some x =>
    if !(x.prefill && s.lForms t) then s
    else s.updSess e.session fun d =>
      let k := x.nrows
      match d.feeds.find? fun f => f.unread < f.left with
      | some f =>
        let f' : Feed := { f with addr := f.addr - 4 * k, unread := f.unread + k }
        { d with feeds := d.feeds.map (fun g => if g.ref == f.ref then f' else g), pending := d.pending + k, feedTa := f'.addr }
      | none => d
  | none => s

/-- Apply an entry of a return; `b` is the batch's entry for the session, when this module holds it. -/
def State.applyRetEnt (s : State) (t : Nat) (e : RetEnt) (b : Option SEnt) : State :=
  let s := s.touch t e.session
  if e.stall then s.stallEntry t e b
  else
    let n := e.session
    let forms := s.lForms t
    let prefill := (b.map (·.prefill)).getD false
    let s := match e.token with
      | some tok => s.updSess n fun d => { d with step := (d.step + 1) % 2 ^ 48, newcount := d.newcount + 1, token := if forms then tok else d.token }
      | none => s
    let lastChunk := prefill && (if forms then (s.sess n).pending == 0 else e.token.isSome)
    let s := if prefill && forms then s.coverFeeds t n 16 ((b.map (·.nrows)).getD 0) else s
    let s := if e.reason ≠ 0 then
        (if e.reason = 4 then s.dropFeeds t n else s).updSess n fun d => { d with state := 4, reason := e.reason }
      else if lastChunk then
        s.updSess n fun d => if e.token.isSome then { d with state := 2 } else { d with state := 4, reason := 1 }
      else s
    s.updSess n fun d => { d with flight := false, ready := none }

def State.applyRet (s : State) (t : Nat) (r : Ret) : State :=
  let batch := (s.ladle t).batches.find? fun b => b.list.bseq == r.bseq
  let s := r.ents.foldl (fun s e =>
    let b := batch.bind fun b => b.list.ents.find? fun x => x.session == e.session
    (s.applyRetEnt t e b).mirror t (.sess e.session ((s.applyRetEnt t e b).sess e.session))) s
  s.updLadle t fun l => { l with batches := l.batches.filter fun b => b.list.bseq != r.bseq || !b.done, nextRet := r.bseq + 1 }

/-- Apply the returns that have arrived, in BSEQ order; those applied (R439, step 2). -/
def State.applyRets (s : State) (t : Nat) : Nat → List Nat → State × List Nat
  | 0, done => (s, done)
  | fuel + 1, done =>
    match (s.ladle t).rets.find? fun r => r.bseq == (s.ladle t).nextRet with
    | none => (s, done)
    | some r =>
      let s := s.updLadle t fun l => { l with rets := l.rets.filter fun x => x.bseq != r.bseq }
      (s.applyRet t r).applyRets t fuel (done ++ [r.bseq])

/-- RETURN_RECEIVE (R447): a return out of order is LDL_LIST. -/
def State.recvRet (s : State) (t : Nat) (r : Ret) : State :=
  let l := s.ladle t
  if r.bseq = l.nextRet + l.rets.length then s.updLadle t fun l => { l with rets := l.rets ++ [r] } else s.raise t 0xE2 {}

def execReturnReceive (t : Nat) (r : Ret) (s : State) : Host.Outcome State Fault Refusal :=
  if 16 ≤ t ∨ (s.part t).isNone ∨ !s.lEn t then .next s else .next (s.recvRet t r)

/-- BATCH_LIST_RECEIVE (R446, R468): the list and its chain record lie in the receive buffer. -/
def State.recvList (s : State) (t src : Nat) (x : BList) : State :=
  let l := s.ladle t
  if x.bseq ≠ l.nextList + l.lists.length then s.raise t 0xE2 {}
  else
    let a := s.recvBuf t x.bseq
    let s := (s.taWrite t a (x.header 0) false).taWrite t (a + 0x1000) (x.ents.flatMap fun e => entBytes e 0 0 0 0) false
    let s := s.taWrite t (a + 0x80000) (x.rowBytes true) false
    let s := s.taWrite t (a + 0x3FFF80) (x.chain ++ x.input ++ leBytes 8 x.bseq ++ leBytes 24 0) false
    s.updLadle t fun l => { l with lists := l.lists ++ [(src, x)] }

def execBatchListReceive (t src : Nat) (x : BList) (s : State) : Host.Outcome State Fault Refusal :=
  if 16 ≤ t ∨ (s.part t).isNone ∨ !s.lEn t ∨ s.lForms t then .next s else .next (s.recvList t src x)

/-- LADLE_CREDIT_RECEIVE (R446): the next stage has taken a list; held lists go when their credit has come. -/
def State.recvCredit (s : State) (t bseq : Nat) : State :=
  let s := s.updLadle t fun l => { l with taken := max l.taken (bseq + 1) }
  let go := (s.ladle t).unsent.filter fun x => decide (x.bseq < (s.ladle t).taken + 4)
  let s := s.updLadle t fun l => { l with unsent := l.unsent.filter fun x => !decide (x.bseq < l.taken + 4) }
  go.foldl (fun s x => s.sendPair t (s.lPair t) 2 (.batchList t x)) s

def execLadleCreditReceive (t bseq : Nat) (s : State) : Host.Outcome State Fault Refusal :=
  if 16 ≤ t ∨ (s.part t).isNone then .next s else .next (s.recvCredit t bseq)

/-! ## Seals (R466, R469, R470) -/

/-- Is a batch of this stage sealed (R466)? -/
def State.seals (s : State) (t : Nat) : Bool :=
  s.lSamples t && decide (1 ≤ s.fld (tnt t 0) 3 2) && ((s.part t).map fun p => decide (88 * 2 ^ 20 ≤ p.stageSize)).getD false

/-- The seal message (R469). -/
def State.sealMessage (s : State) (t : Nat) (l : BList) (output : List Byte) (single : Bool) : List Byte :=
  let cmp := s.comparing t && !single
  let signer := if (s.comparing t || single) && s.moduleId % 2 = 1 then Config.twinIdentity else s.identity
  ([0x53, 0x4B, 0x56, 0x53, 0x45, 0x41, 0x4C, 0x31] : List Byte) ++ leBytes 4 (s.word 0x8).toNat ++ leBytes 1 t ++
  leBytes 1 (cmp.toNat + 2 * single.toNat + 4 * l.nowset.toNat) ++ leBytes 2 0 ++ leBytes 8 l.bseq ++
  leBytes 8 ((s.cat.map (·.domainId)).getD 0) ++ l.chain ++ l.input ++ output ++ (signer ++ leBytes 48 0).take 48 ++ leBytes 32 0

/-- Write a seal record: the signatures are free values, since ECDSA draws a number that the manual does not fix. -/
def State.writeSeal (s : State) (t : Nat) (m : List Byte) (two : Bool) : State :=
  match s.part t with
  | none => s
  | some p =>
    let (a, s) := s.fresh
    let (b, s) := s.fresh
    let sig (k : Nat) : List Byte := (Config.freeBytes k ++ leBytes 96 0).take 96
    let n := s.quad (tnt t 0xA8)
    (s.taWrite t (p.stageBase + 80 * 2 ^ 20 + 512 * (n % 16384)) (m ++ sig a ++ (if two then sig b else leBytes 96 0) ++ leBytes 64 0) false).addQuad
      (tnt t 0xA8) 1

/-! ## The end of a launch (R397, R445) -/

/-- Why a token ends its session (R228, R445). -/
def tokenReason (d : Sess) (tok pos : Nat) : Nat :=
  if d.stop.any fun x => x == tok && x != 0xFFFFFFFF then 2
  else if d.maxnew ≠ 0 ∧ d.maxnew ≤ d.newcount + 1 then 3
  else if d.maxlen ≤ pos then 4 else 0

def outRecord (tok pos n reason step : Nat) : List Byte :=
  leBytes 4 tok ++ leBytes 4 pos ++ leBytes 2 n ++ leBytes 1 reason ++ leBytes 1 0 ++ leBytes 4 step

/-- Write the output records of a tick for one ring, its count and its signal (R397, R398, R406, R407, R477). -/
def State.outputRun (s : State) (t r : Nat) (recs : List (List Byte)) (tick : Nat) (ok : Bool) : State :=
  match s.part t with
  | none => s
  | some p =>
    let size := 2 ^ s.fld (rng t r 0x40) 0 5
    let n0 := (s.word (rng t r 0x50)).toNat
    let base := s.quad (rng t r 0x38)
    let addr (i : Nat) : Nat := base + 16 * ((n0 + i) % size)
    let s := (recs.zipIdx).foldl (fun s (b, i) => s.taWrite t (p.stageBase + 2 ^ 25 + r * 2 ^ 20 + 16 * ((n0 + i) % size)) b false) s
    let cnt := (n0 + recs.length) % 2 ^ 32
    let s := s.setWord (rng t r 0x50) (BitVec.ofNat 32 cnt)
    let tail := s.quad (rng t r 0x48)
    let sig (s : State) : State := if s.flag (rng t r 0x40) 14 then s.sigAct t r (s.fld (rng t r 0x40) 8 6) cnt tick true else s
    if s.inUnit t tick then
      let s := (recs.zipIdx).foldl (fun s (b, i) => s.holdAct t tick (.write r (addr i) b)) s
      sig (s.holdAct t tick (.write r tail (leBytes 4 cnt)))
    else
      let first := min recs.length (size - n0 % size)
      let runs := [logEntry 2 r first (addr 0) (leBytes 4 n0)] ++
        (if first < recs.length then [logEntry 2 r (recs.length - first) (addr first) (leBytes 4 ((n0 + first) % 2 ^ 32))] else [])
      let tailE := logEntry 3 r 1 tail (leBytes 4 cnt)
      if !s.active t || decide (0 < s.logLen t) then sig (s.pushLog t (runs ++ [tailE]))
      else if ok && s.vfReach t then
        let s := (recs.zipIdx).foldl (fun s (b, i) => s.send (.host (.vf t) (addr i) b)) s
        sig (s.send (.host (.vf t) tail (leBytes 4 cnt)))
      else
        let s := runs.foldl (fun s e => s.pushLog t [e]) s
        sig (((s.pushLog t [tailE]).setRingState t r 3).raise t 0xC8 { ring := some (r, 0), addr := addr 0 })

/-- The results of a completed batch on LAST or ONLY: the return's entries and the sampled sessions' records. -/
def State.batchResults (s : State) (t : Nat) (l : BList) : List (RetEnt × Option (Nat × List Byte)) :=
  let a := s.ladleBuf t l.bseq + 0x240000
  l.ents.mapIdx fun i e =>
    let d := s.sess e.session
    let pos := e.pos0 + e.nrows
    if e.skip then ({ session := e.session, reason := 0, token := none, stall := true, position := pos, pos0 := e.pos0 }, none)
    else if e.sample then
      let tok := s.taNum t (a + 4 * l.sampleIdx i) 4
      let why := tokenReason d tok pos
      ({ session := e.session, reason := why, token := some tok, stall := false, position := pos, pos0 := e.pos0 },
       some (d.outring, outRecord tok pos e.session why (d.step % 2 ^ 32)))
    else
      ({ session := e.session, reason := if d.maxlen ≤ pos then 4 else 0, token := none, stall := false, position := pos, pos0 := e.pos0 }, none)

/-- A batch's launch has completed on LAST or ONLY (R445, R447, R469). -/
def State.finishBatch (s : State) (t : Nat) (b : Batch) (single ok : Bool) : State :=
  let l := b.list
  let res := s.batchResults t l
  let recs := res.filterMap fun (e, r) => r.map fun (ring, bytes) => (e.session, ring, bytes)
  let digest := sha384 (recs.flatMap fun (_, _, bytes) => bytes)
  let byNum := recs.mergeSort fun a b => decide (a.1 ≤ b.1)
  let s := (List.range 8).foldl (fun s r =>
    let mine := (byNum.filter fun x => x.2.1 == r).map fun x => x.2.2
    if mine.isEmpty then s else s.outputRun t r mine b.tick ok) s
  let r : Ret := { bseq := l.bseq, ents := res.map (·.1) }
  let s := if !s.seals t then s
    else if s.inUnit t b.tick && !single then s.unitOf t b.tick fun u => { u with sealMsg := some (s.sealMessage t l digest false) }
    else s.writeSeal t (s.sealMessage t l digest single) false
  if s.lRole t = 3 then
    let s := (bitsOf 32 (s.word (tnt t 0x310)).toNat).foldl (fun s q => if q = s.moduleId / 2 then s else s.sendPair t q 2 (.ret t r)) s
    s.applyRet t r
  else s.updLadle t fun x => { x with rets := x.rets ++ [r] }

/-- LADLE_LAUNCH_COMPLETE (R445): every command of the launch has completed. `ok` says that the host lets the records
through. TOKENS that a control core reads poisoned are LDL_LIST (R487). -/
def execLadleLaunchComplete (t bseq : Nat) (ok : Bool) (s : State) : Host.Outcome State Fault Refusal :=
  match s.launch t none bseq, (s.ladle t).batches.find? fun b => b.list.bseq == bseq && !b.done with
  | some l, none =>
    -- a launch run again whose batch had completed (R496)
    if !(l.cmds.all fun c => c.st == .done) || !s.active t then .next s
    else
      let s := s.releaseBuf l.recipe l.buf
      .next { s with front := { s.front with
        launches := s.front.launches.filter fun x => !x.is t none bseq, past := s.front.past ++ [.launch l] } }
  | some l, some b =>
    let tokens := s.ladleBuf t bseq + 0x240000
    let bad := ((s.taRead t tokens (4 * b.list.samples)).map (·.2)).getD false
    if !(l.cmds.all fun c => c.st == .done) || !s.active t then .next s
    else if s.lSamples t && bad then .next (s.raise t 0xE2 { addr := tokens })
    else
      let s := s.releaseBuf l.recipe l.buf
      let s : State := { s with front := { s.front with
        launches := s.front.launches.filter fun x => !x.is t none bseq, past := s.front.past ++ [.launch l] } }
      let s := s.updLadle t fun x => { x with batches := x.batches.map fun y => if y.list.bseq == bseq then { y with done := true } else y }
      .next (if s.lSamples t then s.finishBatch t b b.single ok else s)
  | _, _ => .next s

/-! ## Reflow (R480) -/

/-- Discard what lies at BSEQ `b` or above and stall its sessions (R448, R480). -/
def State.reflow (s : State) (t b : Nat) : State :=
  let l := s.ladle t
  let gone := l.batches.filter fun x => decide (b ≤ x.list.bseq)
  let s := gone.reverse.foldl (fun s x => x.list.ents.foldl (fun s e =>
    s.stallEntry t { session := e.session, reason := 0, token := none, stall := true, position := 0, pos0 := e.pos0 } (some e)) s) s
  let s := gone.foldl (fun s x => match s.launch t none x.list.bseq with
    | some y => { (s.releaseBuf y.recipe y.buf) with front :=
        { (s.releaseBuf y.recipe y.buf).front with launches := s.front.launches.filter fun z => !z.is t none x.list.bseq } }
    | none => s) s
  s.updLadle t fun l => { l with
    batches := l.batches.filter fun x => decide (x.list.bseq < b), unsent := l.unsent.filter fun x => decide (x.bseq < b),
    lists := l.lists.filter fun (_, x) => decide (x.bseq < b), rets := l.rets.filter fun r => decide (r.bseq < b),
    next := min l.next b, nextList := min l.nextList b, taken := b, nextRet := min l.nextRet b, reflow := none }

/-- REFLOW_NOTICE_RECEIVE (R480): it takes effect at the next boundary. -/
def execReflowNoticeReceive (t b : Nat) (s : State) : Host.Outcome State Fault Refusal :=
  if 16 ≤ t ∨ (s.part t).isNone then .next s else .next (s.updLadle t fun l => { l with reflow := some b })

/-! ## The boundary (R232, R439) -/

/-- LENGTH_T and STEP_T of a tenant's sessions (R232). -/
def State.markLengths (s : State) (t : Nat) : State :=
  match s.part t with
  | none => s
  | some p =>
    let mark (n : Nat) (d : Sess) : Sess := if sessIn p n then { d with lengthT := d.length, stepT := d.step } else d
    { s with lrd := { s.lrd with sess := s.lrd.sess.map fun (n, d) => (n, mark n d) } }

/-- Steps 3 to 6 of R439 for a tenant that selects for itself. -/
def State.ladleBatch (s : State) (t : Nat) : State × BatchOut :=
  if !(s.active t && s.lEn t) then (s, none, [])
  else if s.lForms t then (s.noteReady t).formBatch t else s.takeList t

/-- What a boundary does before the Ladle's steps: the settings written, and a reflow notice (R458, R480). -/
def State.ladleSettle (s : State) (t : Nat) : State :=
  let s := s.ladleWrites t
  match (s.ladle t).reflow with
  | some b => s.reflow t b
  | none => s

/-- Steps 1 and 2 of R439: pending commands, then returns; the BSEQs of the returns applied. -/
def State.ladleStart (s : State) (t : Nat) : State × List Nat :=
  let s := (s.ladleSettle t).larderBoundary t
  if s.active t && s.lEn t then s.applyRets t 4096 [] else (s, [])

end Sys2Proof.Machine
end

