-- ==== Sys2Proof/Machine/Wear.lean ====
section
/-!
DEFINITION. Wear.lean: spares, wear monitors, swaps, the accession log and derating (R507 to R522).
-/

namespace Sys2Proof.Machine

/-- The classes of tested units: matrix columns, vector lanes, banks, tiles. -/
inductive TestUnit where
  | col (i : Nat)
  | lane (i : Nat)
  | bank (i : Nat)
  | tile
  deriving DecidableEq, Repr

def TestUnit.code : TestUnit → Nat
  | .col _ => 0 | .lane _ => 1 | .bank _ => 2 | .tile => 3

def TestUnit.index : TestUnit → Nat
  | .col i => i | .lane i => i | .bank i => i | .tile => 0

/-- The columns in service of a tile, and whether a column is one of its spares: the first 256 good ones serve. -/
def PTile.isSpareCol (x : PTile) (i : Nat) : Bool := decide (256 ≤ ((List.range i).filter fun j => !x.badCols.contains j).length)

/-- The columns of a physical tile that a swap, due or under way, takes out. -/
def State.leavingCols (s : State) (unit : Nat) : List Nat :=
  (s.acc.due ++ s.acc.swaps).filterMap fun y =>
    if y.unit == unit && (y.kind == 1 || (y.kind == 0xA && decide (256 ≤ y.old))) then some y.old else none

/-- What a unit that fails for good makes due (R112, R157, R511, R516): a spare is marked failed, a spare tile whole, and a unit in
service is swapped. -/
def State.unitFails (s : State) (k : Nat) (u : TestUnit) (value : Nat) : State :=
  let x := s.ptile k
  let unit := unitOfTile (k / 18) (k % 18)
  let spare (s : State) (log old : Nat) : State :=
    if s.swapKnown 0xA unit old then s else s.makeDue (newSwap 0xA 2 unit log old noneLeft value 0)
  match u, s.logicalOf k with
  | _, none => if x.out then s else spare s 0xFFFF (k % 18)
  | .tile, some n => s.retire n 2 value false
  | .col i, some n =>
    -- columns whose swap is due or under way are gone already, and the spares that they take are in service
    let x : PTile := { x with badCols := x.badCols ++ s.leavingCols unit }
    if x.badCols.contains i then s
    else if x.isSpareCol i then spare s n i
    else
      let after : PTile := { x with badCols := i :: x.badCols }
      if after.width < 192 then s.retire n 4 after.width false
      else
        let new := (List.range 260).find? fun j => x.isSpareCol j && !x.badCols.contains j
        s.makeDue (newSwap 1 2 unit n i (new.getD noneLeft) after.width 0)
  | .lane i, some n =>
    if x.badLanes.contains i || s.swapKnown 3 unit i then s
    else if i = 64 then spare s n i
    else if x.badLanes.isEmpty && !(s.acc.due ++ s.acc.swaps).any fun y => y.kind == 3 && y.unit == unit then
      s.makeDue (newSwap 3 2 unit n i 64 value 0)
    else s.retire n 4 value true
  | .bank i, some n => if i = 32 then spare s n i else s.bankDue n i 2 value

/-- The result of one test of a unit of a physical tile (R508, R516): failures in a row count, a pass ends the run. -/
def State.tested (s : State) (k : Nat) (u : TestUnit) (ok : Bool) : State :=
  let key := (k, u.code, u.index)
  let was := ((s.acc.fails.find? fun (x, _) => x == key).map (·.2)).getD 0
  let rest := s.acc.fails.filter fun (x, _) => x != key
  if ok then { s with acc := { s.acc with fails := rest } }
  else
    let s : State := { s with acc := { s.acc with fails := rest ++ [(key, was + 1)] } }
    if was + 1 = s.wear.bistFails then s.unitFails k u (was + 1) else s

/-- A test atom of the physical tile `k`: `fails` are the units it found failing; the others it covers pass. -/
def State.testAtom (s : State) (k : Nat) (covers : TestUnit → Bool) (fails : List TestUnit) : State :=
  let s : State := { s with acc := { s.acc with fails := s.acc.fails.filter fun ((j, c, i), _) =>
    !(j == k && !(fails.any fun u => u.code == c && u.index == i) &&
      covers (if c = 0 then .col i else if c = 1 then .lane i else if c = 2 then .bank i else .tile)) } }
  fails.foldl (fun s u => if covers u then s.tested k u false else s) s

/-! ## HBM pages (R513) -/

def pageKey (g page : Nat) : Nat := 524288 * g + page

/-- The lowest free reserve page of a group. -/
def State.freeReserve (s : State) (g : Nat) : Option Nat :=
  (List.range 8192).find? fun r =>
    !(s.acc.pages.any fun (k, x) => k / 524288 == g && x == r) &&
    !((s.acc.due ++ s.acc.swaps).any fun x => x.kind == 6 && x.unit == g && x.new == r)

/-- A page falls due: retired into the reserve, or its group is exhausted. -/
def State.pageDue (s : State) (g page cause value : Nat) : State :=
  if s.swapKnown 6 g page || (aget s.acc.pages (pageKey g page)).isSome || s.acc.full.contains g then s
  else match s.freeReserve g with
    | some r => s.makeDue (newSwap 6 cause g 0xFFFF page r value 1)
    | none => { s with acc := { s.acc with full := pset s.acc.full g } }

/-- HBM_SCRUB (R78, R248, R271, R509): at a module address, `n` corrected errors, or an uncorrectable one that poisons the
64 bytes. -/
def execHbmScrub (ma n : Nat) (ue : Bool) (s : State) : Host.Outcome State Fault Refusal :=
  let g := ma / 0x800000000
  let page := ma % 0x800000000 / 65536
  if 32 ≤ g ∨ 516096 ≤ page ∨ !s.serves then .next s
  else
    let key := pageKey g page
    let old := natOf s.acc.pageCe key
    let s : State := { s with acc := { s.acc with pageCe := if n = 0 then s.acc.pageCe else aput s.acc.pageCe key (old + n) } }
    let s := if ue then { s with hbmBad := pset s.hbmBad (ma / 64) } else s
    .next (if ue then s.pageDue g page 3 (old + n)
      else if old < s.wear.hbmCe ∧ s.wear.hbmCe ≤ old + n then s.pageDue g page 1 (old + n) else s)

/-- HBM_PAGE_COPY_COMPLETE (R513): the copy has ended; its record comes next. -/
def execHbmPageCopyComplete (g page : Nat) (s : State) : Host.Outcome State Fault Refusal :=
  .next { s with acc := { s.acc with swaps := s.acc.swaps.map fun x =>
    if x.kind == 6 && x.unit == g && x.old == page then { x with left := 0 } else x } }

/-! ## The accession log (R517 to R520) -/

/-- ASCII "SKVACCLG" (R517). -/
def accMagic : List Byte := [0x53, 0x4B, 0x56, 0x41, 0x43, 0x43, 0x4C, 0x47]

/-- Sixty bytes and their CRC-32C, as headers and records end (R517, R518). -/
def withCrc (bs : List Byte) : List Byte := bs ++ leBytes 4 (crc32c bs)

def crcHolds (bs : List Byte) : Bool := bs.length == 64 && crc32c (bs.take 60) == fieldAt bs 0x3C 4

/-- The header of a half of generation `gen` (R517). -/
def accHeader (gen : Nat) : List Byte := withCrc (accMagic ++ leBytes 4 gen ++ leBytes 48 0)

/-- The generation of a half with a valid header (R517). -/
def AccHalf.gen (h : AccHalf) : Option Nat :=
  if crcHolds h.header && h.header.take 8 == accMagic then some (fieldAt h.header 8 4) else none

/-- The first 16 bytes of a record (R518). -/
def AccRec.head (r : AccRec) : List Byte := leBytes 1 r.kind ++ leBytes 1 r.cause ++ leBytes 2 0 ++ leBytes 4 r.seq ++ leBytes 8 r.tick

/-- The 64 bytes of a record (R518). -/
def AccRec.bytes (r : AccRec) : List Byte :=
  withCrc (r.head ++ leBytes 2 r.unit ++ leBytes 2 r.logical ++ leBytes 4 r.old ++ leBytes 4 r.new ++ leBytes 4 r.value ++ leBytes 28 0)

/-- A record slot as it reads: nothing where the CRC fails (R520). -/
def accRec (b : List Byte) : Option AccRec :=
  if !crcHolds b then none
  else some { kind := fieldAt b 0 1, cause := fieldAt b 1 1, seq := fieldAt b 4 4, tick := fieldAt b 8 8, unit := fieldAt b 0x10 2,
              logical := fieldAt b 0x12 2, old := fieldAt b 0x14 4, new := fieldAt b 0x18 4, value := fieldAt b 0x1C 4 }

/-- The active half (R517): the one with a valid header and the higher generation. -/
def Flash.activeB (f : Flash) : Bool :=
  match f.accA.gen, f.accB.gen with
  | some a, some b => decide (a < b)
  | none, some _ => true
  | _, _ => false

def Flash.active (f : Flash) : AccHalf := if f.activeB then f.accB else f.accA

def Flash.setActive (f : Flash) (h : AccHalf) : Flash := if f.activeB then { f with accB := h } else { f with accA := h }

/-- SEQ of the next record (R518). -/
def Flash.nextSeq (f : Flash) : Nat := (((f.accA.records ++ f.accB.records).filterMap accRec).map (·.seq + 1)).foldl max 0

/-- The record of a swap (R518). -/
def Swap.rec_ (x : Swap) (seq : Nat) : AccRec :=
  { seq := seq, kind := x.kind, cause := x.cause, unit := x.unit, logical := x.logical, old := x.old, new := x.new,
    value := x.value, tick := x.tick }

/-- Append a record, with its event (R518, R519, R539, R563). A half without a valid header gets one with GEN 0. -/
def State.appendRec (s : State) (x : Swap) : State :=
  let r := x.rec_ s.flash.nextSeq
  let h := s.flash.active
  let h' : AccHalf := { header := if h.gen.isSome then h.header else accHeader 0, records := h.records ++ [r.bytes] }
  let s : State := { s with flash := s.flash.setActive h' }
  (s.modEvent 8).event 0x0B none (if x.logical < 128 then some x.logical else none) r.seq r.head (0, 0)

/-- What a swap changes in the accession map (R112, R157, R252, R511 to R516). -/
def State.applySwap (s : State) (x : Swap) : State :=
  let die := x.unit % 8
  let k := pkey die (x.unit / 256 % 32)
  let n := x.logical
  match x.kind with
  | 1 => (s.updPtile k fun p => { p with badCols := x.old :: p.badCols }).showWidth n
  | 2 => (s.scrubBank n x.old).updPtile k fun p => { p with badBanks := x.old :: p.badBanks }
  | 3 => s.updPtile k fun p => { p with badLanes := x.old :: p.badLanes }
  | 4 =>
    let s := (s.sharedBanks n).foldl (fun s b => s.scrubBank n b) s
    let s := (s.updTile n fun t => { t with phys := some x.new, flaws := [], ued := [], held := none }).showWidth n
    let s := if x.old < 18 then s.updPtile (pkey die x.old) fun p => { p with out := true } else s
    let s := (s.zeroRegs (0xA01000 + 0x20 * n) (0xA01020 + 0x20 * n)).zeroRegs (0xA10000 + 0x100 * n) (0xA10100 + 0x100 * n)
    { s with acc := { s.acc with stopped := pclear s.acc.stopped n, noPlace := pclear s.acc.noPlace n } }
  | 5 =>
    let s := s.updPtile k fun p => { p with out := true }
    let s := s.updTile n fun t => { t with phys := none, mem := [], poison := [], flaws := [], ued := [], regions := [], held := none }
    { s with acc := { s.acc with leaving := pclear s.acc.leaving n, stopped := pclear s.acc.stopped n } }
  | 6 => { s with acc := { s.acc with pages := aput s.acc.pages (pageKey x.unit x.old) x.new } }
  | 7 => { s with acc := { s.acc with pages := adel s.acc.pages (pageKey x.unit x.old) } }
  | 0xA => s.updPtile k fun p =>
    -- OLD of a spare column is 256 or more, of the spare lane 64, of the spare bank 32, of a spare tile below 18
    if 256 ≤ x.old then { p with badCols := x.old :: p.badCols }
    else if x.old = 64 then { p with badLanes := 64 :: p.badLanes }
    else if x.old = 32 then { p with badBanks := 32 :: p.badBanks }
    else { p with out := true }
  | _ => s

/-- Does a swap take effect at a boundary rather than with its record (R511 to R513)? -/
def Swap.waits (x : Swap) : Bool := x.kind == 4 || x.kind == 5 || x.kind == 6

/-- A swap has taken effect: it counts, and leaves the queue. -/
def State.endSwap (s : State) (x : Swap) : State :=
  let s := (s.applySwap x).bump 0x800604 1
  { s with acc := { s.acc with swaps := s.acc.swaps.filter fun y => !(y.kind == x.kind && y.unit == x.unit && y.old == x.old) } }

/-- ACCESSION_APPEND (R519): the record of the first swap whose copy has ended. `ok` says that it was programmed and read back
right; an append that fails, or a full half, leaves the swap to take effect unrecorded. -/
def execAccessionAppend (ok : Bool) (s : State) : Host.Outcome State Fault Refusal :=
  match s.acc.swaps.find? fun x => x.left == 0 && !x.noted with
  | none => .next s
  | some x =>
    let s := if !ok then s.setFlag 0x800600 18 true
      else if 65535 ≤ s.flash.active.records.length then s.setFlag 0x800600 17 true
      else s.appendRec x
    if x.waits then .next { s with acc := { s.acc with swaps := s.acc.swaps.map fun y => if y == x then { y with noted := true } else y } }
    else .next (s.endSwap x)

/-! ## Regulator phases (R23, R514) -/

/-- Phases per rail in service by number (R23): active and spare, by rail: VCD0 to VCD7, VSM0 to VSM7, VIO0 to VIO3. -/
def activePhases (rail : Nat) : Nat := if rail < 8 then 16 else if rail < 16 then 4 else 6

/-- Good phases of rails VCD0 to VIO3. -/
def State.goodPhases (s : State) (rail : Nat) : Nat := activePhases rail + 2 - (s.acc.phases.filter fun (r, _) => r == rail).length

/-- A phase is out of service; a rail left short of its active count has a lower enforced limit (R514, R563). -/
def State.phaseOut (s : State) (rail phase : Nat) : State :=
  if s.acc.phases.contains (rail, phase) then s
  else
    let s : State := { s with acc := { s.acc with phases := s.acc.phases ++ [(rail, phase)] } }
    if s.goodPhases rail < activePhases rail then s.modEvent 6 else s

/-- The swap of a phase (R518): NEW is the spare phase that takes its place. -/
def State.phaseSwap (s : State) (rail phase cause value : Nat) : Swap :=
  let a := activePhases rail
  let used := (s.acc.phases.filter fun (r, p) => r == rail && p != phase).length
  newSwap 9 cause rail 0xFFFF phase (if used < 2 then a + used else noneLeft) value 0

/-- PHASE_TRIP (R514): the spare phase takes over within one measurement period. -/
def execPhaseTrip (rail phase : Nat) (s : State) : Host.Outcome State Fault Refusal :=
  if 20 ≤ rail ∨ activePhases rail + 2 ≤ phase ∨ s.acc.phases.contains (rail, phase) = true then .next s
  else
    let x := { s.phaseSwap rail phase 3 0 with tick := s.tickNo }
    .next { (s.phaseOut rail phase) with acc := { (s.phaseOut rail phase).acc with swaps := s.acc.swaps ++ [x] } }

/-! ## Swaps at a boundary (R509 to R513, R515) -/

/-- The queue's order: by the boundary at which a swap fell due, then by logical tile (R510). -/
def swapOrder (xs : List Swap) : List Swap := xs.mergeSort fun a b => decide (a.at_ < b.at_ ∨ (a.at_ = b.at_ ∧ a.logical ≤ b.logical))

/-- Has a logical tile no running, carried or saved work of any tenant (R512)? -/
def State.tileFree (s : State) (n : Nat) : Bool :=
  let t := s.tile n
  t.prog.isNone && t.launch.isNone && t.flight.isEmpty && t.saved.isEmpty && t.chans.isEmpty &&
  !(s.front.items.any fun i => i.tile == some n) && !(s.cdx.reqs.any fun (_, r) => r.tile == n)

/-- A column swap falls due: the copy in the array no longer serves KEEP_W (R101). -/
def Tile.unkept (t : Tile) : Tile :=
  { t with held := t.held.map fun h => { h with stale := true },
           mx := t.mx.map fun c => { c with load := c.load.map fun h => { h with stale := true } } }

/-- The wear part of a boundary at `at_`: recorded tile swaps, vacancies and page remaps take effect, then the units whose monitors
crossed fall due; optical lanes and phases are replaced at once. -/
def State.wearBoundary (s : State) (at_ : Nat) : State :=
  let s := (s.acc.swaps.filter fun x => x.noted && x.waits).foldl (fun s x =>
    if x.kind = 5 ∧ s.tileFree x.logical = false then s else s.endSwap x) s
  let new := (swapOrder (s.acc.due.map fun x => { x with at_ := at_, tick := s.tickNo }))
  let s : State := { s with acc := { s.acc with due := [], swaps := s.acc.swaps ++ new } }
  new.foldl (fun (s : State) x => match x.kind with
    | 1 => s.updTile x.logical Tile.unkept
    | 8 => s.laneFail x.unit x.old
    | 9 => s.phaseOut x.unit x.old
    | _ => s) s

/-- VACANCY_TIMEOUT (R512): a retired tile that has not become free within 1 s. -/
def execVacancyTimeout (tile : Nat) (s : State) : Host.Outcome State Fault Refusal :=
  if s.acc.leaving.contains tile && !s.acc.stopped.contains tile then
    .next (({ s with acc := { s.acc with stopped := pset s.acc.stopped tile } } : State).computeFault none 0x16 { detail := 2 ^ 31 + tile } [])
  else .next s

/-- The vacancies that a compute-part reset brings (R512). -/
def State.vacate (s : State) : State :=
  (s.acc.due ++ s.acc.swaps).foldl (fun s x =>
    if x.kind = 5 ∧ s.acc.stopped.contains x.logical then
      let s := s.applySwap x
      { s with acc := { s.acc with
        due := s.acc.due.filter (· != x),
        swaps := (s.acc.swaps.filter (· != x)) } } |>.bump 0x800604 1
    else s) s

/-- A copy that a compute-part reset interrupts begins again from its first atom (R510). -/
def State.restartCopies (s : State) : State :=
  { s with acc := { s.acc with swaps := s.acc.swaps.map fun x =>
    if x.left = 0 then x else if x.kind = 4 then { x with left := s.tileAtoms x.logical } else x } }

/-- One SWAP atom: a copy step of the first swap in the queue that has one left (R510). -/
def State.swapAtom (s : State) : State :=
  match s.acc.swaps.find? fun x => decide (0 < x.left) && x.kind != 6 with
  | none => s
  | some x => { s with acc := { s.acc with swaps := s.acc.swaps.map fun y => if y == x then { y with left := y.left - 1 } else y } }

/-- WEAR_INTERVAL (R509): every monitor's count starts again from zero. -/
def execWearInterval (s : State) : Host.Outcome State Fault Refusal :=
  .next { s with acc := { s.acc with bankCe := [], bankUe := [], pageCe := [] } }

/-! ## Derating (R521) -/

/-- Does capacity fall short (R521)? -/
def State.derated (s : State) : Bool :=
  (List.range 128).any (fun n => (s.tile n).phys.isNone || decide ((s.tile n).width < 256)) ||
  (List.range 18).any (fun p => s.portState p == psUp && decide (s.fld (portReg p) 3 3 < 4)) ||
  (List.range 20).any (fun r => decide (s.goodPhases r < activePhases r))

end Sys2Proof.Machine
end

