-- ==== Sys2Proof/Machine/Schedule.lean ====
section
/-!
DEFINITION. Schedule.lean: schedule tables, entries, pre-emption, background classes, the tick budget and judgement (R71 to R84,
R426, R490, R491).
-/

namespace Sys2Proof.Machine

/-! ## The active table (R71, R77) -/

/-- The entries of the active table. -/
def State.table (s : State) : List Entry := ((s.cat.bind fun c => c.tables[s.fld 0x10200 8 3]?)).getD []

/-- A write of SCH_SEL at a time in ns (R77): one with SEL not less than COUNT is ignored; a target that has passed, or whose
boundary comes less than 10 µs later, falls back to AT_MODE 0. The write takes SCH_AT as it stands: a later write of SCH_AT moves no
pending request. DESIGN CHOICE (log entry 158). -/
def State.schSelWrite (s : State) (v at_ : Nat) : State :=
  let s := if bitOf v 11 then s.setFlag 0x10200 11 false else s
  let s := if bitOf v 12 then s.setFlag 0x10200 12 false else s
  if s.fld 0x10200 16 4 ≤ v % 8 then s.setFlag 0x10200 11 true
  else
    let s := ((s.setFld 0x10200 0 3 v).setFlag 0x10200 3 (bitOf v 3)).setFlag 0x10200 4 true
    let target := s.quad 0x10208
    let put (s : State) (r : Option Nat) : State :=
      { s with sched := { s.sched with request := some (v % 8), reqAt := r, reqTime := at_ } }
    if !bitOf v 3 then put s none
    else if target ≤ s.tickNo ∨ (target = s.tickNo + 1 ∧ s.tick.expected < at_ + 10000) then put (s.setFlag 0x10200 12 true) none
    else put s (some target)

def execSchSelWrite (v at_ : Nat) (s : State) : Host.Outcome State Fault Refusal :=
  if s.serves then .next (s.schSelWrite v at_) else .next s

/-- A pending request at a boundary; a jump of the tick past its target makes it missed. -/
def State.tableSwitch (s : State) (at_ : Nat) : State :=
  let go (s : State) (k : Nat) : State :=
    { (s.setFld 0x10200 8 3 k).setFlag 0x10200 4 false with sched := { s.sched with request := none, reqAt := none } }
  match s.sched.request with
  | none => s
  | some k =>
    match s.sched.reqAt with
    | some n =>
      if n = s.tickNo then go s k
      else if n < s.tickNo then
        let s : State := { s.setFlag 0x10200 12 true with sched := { s.sched with reqAt := none } }
        if s.sched.reqTime + 10000 ≤ at_ then go s k else s
      else s
    | none => if s.sched.reqTime + 10000 ≤ at_ then go s k else s

/-! ## Tiles and their owners (R76, R82, R426) -/

/-- What a tile holds for the tenant that runs on it. -/
def Tile.ctx (t : Tile) : Ctx :=
  { prog := t.prog, flight := t.flight, mx := t.mx, vu := t.vu, at_ := t.at_, acc := t.acc, accBad := t.accBad, ve := t.ve,
    marks := t.marks, slotWait := t.slotWait, cwait := t.cwait, heldPages := t.heldPages, launch := t.launch }

def Tile.setCtx (t : Tile) (c : Ctx) : Tile :=
  { t with prog := c.prog, flight := c.flight, mx := c.mx, vu := c.vu, at_ := c.at_, acc := c.acc, accBad := c.accBad, ve := c.ve,
           marks := c.marks, slotWait := c.slotWait, cwait := c.cwait, heldPages := c.heldPages, launch := c.launch }

/-- A context in which nothing runs. -/
def Ctx.empty : Ctx := Tile.reset.ctx

/-- What is saved of a running context: the stationary operand is lost, and a compute tile that resumes loads it again (R106). -/
def Ctx.unloaded (c : Ctx) : Ctx := { c with mx := c.mx.map fun x => { x with load := none } }

/-- Save the running context under its tenant. -/
def Tile.save (t : Tile) (tenant : Nat) : Tile :=
  { (t.setCtx Ctx.empty) with saved := aput t.saved tenant t.ctx.unloaded, held := none }

/-- Bring back what the tile saved for a tenant. -/
def Tile.restore (t : Tile) (tenant : Nat) : Tile :=
  match aget t.saved tenant with
  | some c => { (t.setCtx c) with saved := adel t.saved tenant, held := none }
  | none => { (t.setCtx Ctx.empty) with held := none }

def State.ownerOf (s : State) (n : Nat) : Option Nat := (s.sched.owner[n]?).getD none
def State.entryOf (s : State) (n : Nat) : Option Nat := (s.sched.entry[n]?).getD none
def State.setOwner (s : State) (n : Nat) (o : Option Nat) : State := { s with sched := { s.sched with owner := vupd s.sched.owner n fun _ => o } }
def State.setEntry (s : State) (n : Nat) (o : Option Nat) : State := { s with sched := { s.sched with entry := vupd s.sched.entry n fun _ => o } }

/-- Does work of the tenant that runs on the tile stand on it? -/
def State.workOn (s : State) (t n : Nat) : Bool :=
  let x := s.tile n
  x.prog.isSome || x.launch.isSome || !x.flight.isEmpty || x.chans.any fun (k, c) => k / 8 == t && !c.stopped

/-- Give a tile to a tenant; its chains that stopped at a request go on (R263). -/
def State.giveTile (s : State) (n t : Nat) : State := ((s.updTile n fun x => x.restore t).setOwner n (some t)).pump n pumpFuel

/-- Logical tiles of a mask that are in service (R76). -/
def State.maskTiles (s : State) (mask : Nat) : List Nat := (bitsOf 128 mask).filter fun n => (s.tile n).phys.isSome

/-- An entry takes one of its tiles: at once, unless another tenant's work still runs there. -/
def State.openTile (s : State) (owner n : Nat) : State :=
  let s := s.setEntry n (some owner)
  match s.ownerOf n with
  | some c =>
    if c = owner then s
    else if s.workOn c n then s
    else if owner < 16 then s.giveTile n owner else s.setOwner n none
  | none => if owner < 16 then s.giveTile n owner else s

/-- ENTRY_OPEN (R76): entry `i` of the active table reaches its START. -/
def execEntryOpen (i : Nat) (s : State) : Host.Outcome State Fault Refusal :=
  match s.table[i]? with
  | none => .next s
  | some e =>
    if !s.serves || s.sched.margin || s.sched.open_.contains i then .next s
    else
      let s : State := { s with sched := { s.sched with open_ := pset s.sched.open_ i, late := pclear s.sched.late i } }
      let s := (s.maskTiles e.mask).foldl (fun s n => s.openTile e.owner n) s
      .next (s.event 0x02 (if e.owner < 16 then some e.owner else none) none i
        (leBytes 1 e.owner ++ leBytes 1 (s.fld 0x10200 8 3) ++ leBytes 4 e.start ++ leBytes 4 e.dur) (0, 0))

/-- An entry gives a tile back: work that still runs stays on it (R82). -/
def State.closeTile (s : State) (owner n : Nat) : State :=
  if s.entryOf n != some owner then s
  else
    let s := s.setEntry n none
    match s.ownerOf n with
    | some c => if s.workOn c n then s else s.setOwner n none
    | none => s

def State.closeEntry (s : State) (i : Nat) : State :=
  match s.table[i]? with
  | none => s
  | some e =>
    if !s.sched.open_.contains i then s
    else
      let s : State := { s with sched := { s.sched with open_ := pclear s.sched.open_ i } }
      (bitsOf 128 e.mask).foldl (fun s n => s.closeTile e.owner n) s

/-- ENTRY_END (R76). -/
def execEntryEnd (i : Nat) (s : State) : Host.Outcome State Fault Refusal := .next (s.closeEntry i)

/-- The number a tile's launch goes by (R462). -/
def Tile.launchRef (t : Tile) : Nat := ((t.prog.orElse fun _ => t.launch).map fun p => p.by_.number).getD 0

/-- Save the work that runs on a tile, with the PREEMPT event; its switch time is a free value (R161, R254, R426, R539). -/
def State.saveTile (s : State) (t n incoming : Nat) : State :=
  let ref := (s.tile n).launchRef
  let (cc, s) := if s.wantsEvent 0x05 (some t) then s.free else (0, s)
  let s := s.event 0x05 (some t) (some n) ref (leBytes 1 incoming ++ leBytes 4 cc) (0, 0)
  (s.updTile n fun x => x.save t).setOwner n none

/-- Units of a frozen tenant still run on some tile. -/
def State.saves (s : State) (t : Nat) : Bool := (List.range 128).any fun n => s.ownerOf n == some t && s.workOn t n

/-- Count the late start of the open entry of tenant `e` that holds tile `n`: once for an entry (R82, R86). -/
def State.countLate (s : State) (e n : Nat) : State :=
  match s.sched.open_.find? fun i => (s.table[i]?).any fun x => x.owner == e && bitOf x.mask n with
  | some i =>
    if s.sched.late.contains i then s
    else ({ s with sched := { s.sched with late := pset s.sched.late i } } : State).bump (0x10108 + 16 * e) 1
  | none => s

/-- Pre-empt a tile: for another tenant's open entry, whose late start is counted, or because its tenant is frozen (R82, R488). A
tile whose work has ended meanwhile goes over to the entry's tenant; one whose entry's tenant is not ACTIVE stays idle (R76). -/
def State.preempt (s : State) (n : Nat) : State :=
  match s.ownerOf n with
  | none => s
  | some c =>
    let incoming := (s.entryOf n).filter fun e => decide (e < 16) && e != c
    let next := incoming.filter s.active
    if !s.workOn c n then
      match next with
      | some e => s.giveTile n e
      | none => s
    else if incoming.isNone && s.active c then s
    else
      let s := s.saveTile c n (incoming.getD ((s.entryOf n).getD 0xFF))
      let s := match next with
        | some e => (s.giveTile n e).countLate e n
        | none => s
      if s.active c || s.saves c then s else { s with recov := { s.recov with saving := s.recov.saving.erase c } }

def execPreempt (tile : Nat) (s : State) : Host.Outcome State Fault Refusal := .next (s.preempt tile)

/-- What a freeze still has to save is saved (R426 bounds the time). -/
def State.finishSaves (s : State) : State :=
  let s := (List.range 128).foldl (fun s n => match s.ownerOf n with
    | some c => if s.recov.saving.contains c && !s.active c then s.preempt n else s
    | none => s) s
  { s with recov := { s.recov with saving := [] } }

/-! ## Background classes (R78 to R80) -/

def clScrub : Nat := 0x10
def clBist : Nat := 0x11
def clSpare : Nat := 0x12
def clCalib : Nat := 0x13
def clTelem : Nat := 0x14
def clSwap : Nat := 0x15
def clMigrate : Nat := 0x16

/-- The length of a class's atom, in ns. -/
def atomNs (cls : Nat) : Nat :=
  if cls = clScrub then 600 else if cls = clCalib then 1000 else if cls = clTelem then 500 else 2000

/-- The period within which every unit of a class is to be served, in ns; 0 for none. -/
def classNs (cls : Nat) : Nat :=
  if cls = clScrub then 10000000000 else if cls = clBist then 60000000000 else if cls = clSpare then 600000000000
  else if cls = clCalib then 1000000000 else if cls = clTelem then 100000000 else if cls = clSwap then 1000000000 else 0

/-- The groups over which a class's remaining atoms are counted: tiles, dies, or the class as a whole. -/
def classGroups (cls : Nat) : List Nat :=
  if cls = clScrub ∨ cls = clCalib then List.range 128 else if cls = clSpare then List.range 8 else [0]

/-- The spare items of a die: 3 × position + 0 columns, 1 bank, 2 lane of each in-service tile, 48 and 49 the spare tiles. -/
def State.spareItems (s : State) (die : Nat) : List Nat :=
  ((List.range 16).flatMap fun j =>
    let n := 16 * die + j
    match s.physKey n with
    | none => []
    | some k =>
      let x := s.ptile k
      (if x.cols = 0 then [] else [3 * j]) ++ (if x.badBanks.isEmpty then [3 * j + 1] else []) ++
      (if x.badLanes.isEmpty then [3 * j + 2] else [])) ++
  ((s.spareTiles die).zipIdx.map fun (_, i) => 48 + i)

/-- The units of a class in a group. -/
def State.classUnits (s : State) (cls g : Nat) : List Nat :=
  let live (n : Nat) : Bool := (s.tile n).phys.isSome
  if cls = clScrub then (if live g then (List.range 33).map (· + 33 * g) else [])
  else if cls = clBist then (List.range 128).filter live
  else if cls = clCalib then (if live g then [g] else [])
  else if cls = clSpare then (s.spareItems g).map (· + 50 * g)
  else if cls = clTelem then [0]
  else if cls = clSwap then (List.range s.acc.swaps.length).filter fun i => match s.acc.swaps[i]? with
    | some x => decide (0 < x.left) && x.kind != 6
    | none => false
  else []

/-- The deadline of a unit (R80). -/
def State.deadlineOf (s : State) (cls u : Nat) : Nat :=
  if cls = clSwap then ((s.acc.swaps[u]?).map (·.at_)).getD 0 + classNs cls
  else match s.sched.units.find? fun x => x.cls == cls && x.unit == u with
    | some x => x.deadline
    | none => (s.sched.since).getD 0 + classNs cls

def State.putUnit (s : State) (x : BgUnit) : State :=
  { s with sched := { s.sched with units := (s.sched.units.filter fun y => !(y.cls == x.cls && y.unit == x.unit)) ++ [x] } }

/-- The unit with the nearest deadline, the lowest one of several. -/
def State.nearest (s : State) (cls : Nat) (us : List Nat) : Option Nat :=
  us.foldl (fun (best : Option Nat) u => match best with
    | none => some u
    | some b => if s.deadlineOf cls u < s.deadlineOf cls b then some u else some b) none

/-- Does an entry of the active table serve a group of a class? -/
def entryServes (cls g : Nat) (e : Entry) : Bool :=
  e.owner == cls &&
  (if cls = clScrub ∨ cls = clCalib then bitOf e.mask g
   else if cls = clSpare then (List.range 16).any fun j => bitOf e.mask (16 * g + j) else true)

/-- How many atoms the class's own entries hold between the boundary at `b` and `stop` (R80). -/
def State.atomRoom (s : State) (cls g b stop : Nat) : Nat :=
  let es := s.table.filter (entryServes cls g)
  let whole := (es.map fun e => e.dur * 100 / atomNs cls).sum
  let per := max 1 s.periodNs
  let rest := (stop - b) % per
  (stop - b) / per * whole +
  (es.map fun e => (min (e.dur * 100) (rest - e.start * 100)) / atomNs cls).sum

/-- The nearest deadline that a class would miss, if there is one, looking ahead from the boundary at `b` (R80). -/
def State.wouldMiss (s : State) (cls b : Nat) : Option Nat :=
  let late := (classGroups cls).flatMap fun g =>
    let ds := (s.classUnits cls g).map (s.deadlineOf cls)
    ds.filter fun d => decide (s.atomRoom cls g b d < (ds.filter fun x => decide (x ≤ d)).length)
  late.foldl (fun (m : Option Nat) d => match m with
    | none => some d
    | some x => some (min x d)) none

/-- The class granted the catch-up atom of the tick that begins at `b`: nearest deadline, then lower OWNER code. -/
def State.catchGrant (s : State) (b : Nat) : Option Nat :=
  (([clScrub, clBist, clSpare, clCalib, clTelem, clSwap].filterMap fun c => (s.wouldMiss c b).map fun d => (d, c)).foldl
    (fun (m : Option (Nat × Nat)) x => match m with
      | none => some x
      | some y => if x.1 < y.1 then some x else some y) none).map (·.2)

/-- Does foreground work hold a tile? -/
def State.foreground (s : State) (n : Nat) : Bool :=
  match s.ownerOf n with
  | some c => s.workOn c n
  | none => false

/-- The tiles on which a class has something to do. -/
def State.atomTiles (s : State) (cls : Nat) (tiles : List Nat) : List Nat :=
  let free := tiles.filter fun n => !s.foreground n
  if cls = clSwap then match s.nearest cls (s.classUnits cls 0) with
    | some i => free.filter fun n => (s.acc.swaps[i]?).any fun x => x.logical == n
    | none => []
  else if cls = clBist then (s.nearest cls free).toList
  else free

/-- Start an atom of a class on the tiles where it can run. -/
def State.startAtom (s : State) (cls : Nat) (tiles : List Nat) : Option State :=
  if s.sched.atoms.any fun (c, _) => c == cls then none
  else if tiles.isEmpty && cls != clTelem && cls != clMigrate then none
  else some { s with sched := { s.sched with atoms := s.sched.atoms ++ [(cls, tiles)] } }

/-- BG_ATOM_START (R79): `off` ns after the boundary, inside an open entry of the class that the atom ends before. -/
def execBgAtomStart (cls off : Nat) (s : State) : Host.Outcome State Fault Refusal :=
  match s.sched.open_.filterMap (fun i => s.table[i]?) |>.find? fun e =>
      e.owner == cls && decide (16 ≤ cls) && decide (off + atomNs cls ≤ (e.start + e.dur) * 100) with
  | some e => .next ((s.startAtom cls (s.atomTiles cls (s.maskTiles e.mask))).getD s)
  | none => .next s

/-- MARGIN_START (R75, R80): no entry holds a tile any more, and the granted catch-up atom starts on the tiles, or dies, whose
units are nearest their deadlines; where foreground work holds them all, the grant is void. -/
def execMarginStart (s : State) : Host.Outcome State Fault Refusal :=
  if !s.serves || s.sched.margin then .next s
  else
    let s := s.sched.open_.foldl (fun s i => s.closeEntry i) s
    let s : State := { s with sched := { s.sched with margin := true } }
    match s.sched.grant with
    | none => .next s
    | some cls =>
      let s : State := { s with sched := { s.sched with grant := none } }
      let live := (List.range 128).filter fun n => (s.tile n).phys.isSome
      let tiles := if cls = clBist then (s.nearest cls (s.classUnits cls 0)).toList
        else if cls = clScrub ∨ cls = clCalib ∨ cls = clSpare then
          let gs := (classGroups cls).filterMap fun g => (s.nearest cls (s.classUnits cls g)).map fun u => (g, s.deadlineOf cls u)
          let first := (gs.map (·.2)).foldl min (((gs.head?).map (·.2)).getD 0)
          let near := (gs.filter fun (_, d) => d == first).map (·.1)
          live.filter fun n => near.contains (if cls = clSpare then n / 16 else n)
        else live
      .next (match s.startAtom cls (s.atomTiles cls tiles) with
        | some s => s.bump (0x10300 + 8 * (cls - 0x10)) 1
        | none => s)

/-- A served unit's next deadline lies one period after the atom (R80). -/
def State.serveUnit (s : State) (cls at_ : Nat) (u : Option Nat) : State :=
  match u with
  | some u => s.putUnit { cls := cls, unit := u, deadline := at_ + classNs cls, missed := false }
  | none => s

/-- The TELEM events of R539. -/
def State.telem (s : State) : State :=
  let two (a b : Nat) : List Byte := leBytes 8 a ++ leBytes 8 b
  let s := (bitsOf 16 s.vit.tenants).foldl (fun s t =>
    let o := 0xA02000 + 0x100 * t
    let s := s.event 0x0D (some t) none 0 (two s.tickNo (s.quad (o + 0x40))) (0, 0)
    let s := s.event 0x0D (some t) none 1 (two (s.quad (o + 0x20)) (s.quad (o + 0x28))) (0, 0)
    s.event 0x0D (some t) none 2 (two (s.quad (o + 0x30)) (s.quad (o + 0x38))) (0, 0)) s
  s.event 0x0D none none 3 (two (s.quad 0x900800) (s.quad 0x900808)) (0, 0)

/-- The units that an atom's report names as failing in a physical tile. -/
def AtomOut.failsOf (o : AtomOut) (k : Nat) : List TestUnit :=
  (o.fails.filter fun (j, _, _) => j == k).map fun (_, c, i) =>
    if c = 0 then .col i else if c = 1 then .lane i else if c = 2 then .bank i else .tile

/-- What an atom of the SPARE class tests (R78): a spare item of a die. -/
def State.spareTest (s : State) (u : Nat) (o : AtomOut) : State :=
  let die := u / 50
  let i := u % 50
  if i < 48 then
    match s.physKey (16 * die + i / 3) with
    | none => s
    | some k => s.testAtom k (fun x => match x, i % 3 with
        | .col c, 0 => (s.ptile k).isSpareCol c
        | .bank 32, 1 => true
        | .lane 64, 2 => true
        | _, _ => false) (o.failsOf k)
  else match (s.spareTiles die)[i - 48]? with
    | some p => s.testAtom (pkey die p) (fun _ => true) (o.failsOf (pkey die p))
    | none => s

/-- A SCRUB atom of unit `u` on tile `n`: the logical bank that the physical bank `u mod 33` serves. -/
def State.scrubUnit (s : State) (n : Nat) (u : Option Nat) : State :=
  match u, s.physKey n with
  | some u, some k => ((List.range 32).filter fun b => (s.ptile k).bankOf b == u % 33).foldl (fun s b => s.scrubBank n b) s
  | _, _ => s

/-- BG_ATOM_COMPLETE (R78, R80, R509): the atom's work, and the deadlines of the units it served. -/
def execBgAtomComplete (cls at_ : Nat) (o : AtomOut) (s : State) : Host.Outcome State Fault Refusal :=
  match s.sched.atoms.find? fun (c, _) => c == cls with
  | none => .next s
  | some (_, tiles) =>
    let s : State := { s with sched := { s.sched with atoms := s.sched.atoms.filter fun (c, _) => c != cls } }
    if cls = clScrub then
      let s := tiles.foldl (fun s n =>
        let u := s.nearest cls (s.classUnits cls n)
        (s.scrubUnit n u).serveUnit cls at_ u) s
      let s := (o.ce.filter fun (n, _, _) => tiles.contains n).foldl (fun s (n, b, k) => s.bankErrors n b k) s
      .next ((o.ue.filter fun (n, _) => tiles.contains n).foldl (fun s (n, l) => s.bankUe n l) s)
    else if cls = clBist then
      .next (tiles.foldl (fun s n =>
        let s := s.serveUnit cls at_ (some n)
        match s.physKey n with
        | none => s
        | some k => s.testAtom k (fun x => match x with
            | .col c => !(s.ptile k).isSpareCol c
            | .lane i => i != 64
            | _ => false) (o.failsOf k)) s)
    else if cls = clSpare then
      .next (((List.range 8).filter fun d => tiles.any fun n => n / 16 == d).foldl (fun s d =>
        match s.nearest cls (s.classUnits cls d) with
        | some u => (s.spareTest u o).serveUnit cls at_ (some u)
        | none => s) s)
    else if cls = clCalib then .next (tiles.foldl (fun s n => s.serveUnit cls at_ (some n)) s)
    else if cls = clTelem then .next (s.telem.serveUnit cls at_ (some 0))
    else if cls = clSwap then .next s.swapAtom
    else match o.job with
      | some (t, n, data) => .next (if t < 16 then s.jobAtom t n data else s)
      | none => .next s

/-- BG_DEADLINE_EXPIRY (R80): counted once for a deadline. R539 gives a missed deadline no event kind, and names every other KIND
unused: SCH_BG.MISSED is what Vitrine shows of it. DEDUCED (log entry 165). -/
def execBgDeadlineExpiry (cls unit at_ : Nat) (s : State) : Host.Outcome State Fault Refusal :=
  let known := (classGroups cls).any fun g => (s.classUnits cls g).contains unit
  if !known || s.sched.since.isNone || decide (at_ < s.deadlineOf cls unit) then .next s
  else
    let s' := s.bump (0x10304 + 8 * (cls - 0x10)) 1
    if cls = clSwap then
      if (s.acc.swaps[unit]?).any (·.missed) then .next s
      else .next { s' with acc := { s.acc with swaps := lupd s.acc.swaps unit fun x => { x with missed := true } } }
    else if s.sched.units.any fun x => x.cls == cls && x.unit == unit && x.missed then .next s
    else .next (s'.putUnit { cls := cls, unit := unit, deadline := s.deadlineOf cls unit, missed := true })

/-! ## Tick work (R81, R83, R84) -/

/-- The commands of tick work of boundary `n` or earlier that are not complete (R81): a command that has ended counts until its
record and signal are carried out. One that waits in the Larder engine for a session is work of no unit (R240). -/
def State.openWork (s : State) (t n : Nat) : List (CmdRef × RCmd) :=
  (s.allCmds t).filter fun (ref, c) => decide (c.tick ≤ n) && !s.lrd.waits.contains (t, ref) && (c.st == .running || (c.st == .done && !c.told && ref.isRing))

/-- TICK_WORK_COMPLETE (R83, R443): the work of the tick that boundary `n` began, by the count of boundaries, had carried over and
has completed, `excess` units of 0.1 µs after the next one. -/
def execTickWorkComplete (t n excess : Nat) (s : State) : Host.Outcome State Fault Refusal :=
  if 16 ≤ t ∨ s.beat ≤ n ∨ excess = 0 ∨ (s.openWork t n).isEmpty = false ∨ s.serves = false then .next s
  else
    let o := 0x10100 + 16 * t
    let s := (s.bump o 1).setFld (o + 4) 0 20 (max (s.fld (o + 4) 0 20) (min excess 0xFFFFF))
    .next ((s.setFld (tnt t 0x330) 0 20 excess).updLadle t fun l => { l with overruns := l.overruns ++ [(s.tick.boundaries, excess)] })

/-! ## Slow or hung (R490, R491) -/

/-- The tiles that run some of the commands. -/
def State.tilesOf (s : State) (t : Nat) (refs : List CmdRef) : List Nat :=
  (List.range 128).filter fun n =>
    let x := s.tile n
    let mine (p : Prog) : Bool := p.tenant == t && refs.contains p.by_
    (x.prog.any mine) || (x.launch.any mine) || (x.saved.any fun (k, c) => k == t && (c.prog.any mine || c.launch.any mine)) ||
    (x.chans.any fun (k, c) => k / 8 == t && refs.contains c.owner)

/-- The references of the tile work of a command, its launch's or its items' among them. -/
def State.workRefs (s : State) (t : Nat) (ref : CmdRef) : List CmdRef :=
  let subs := match ref with
    | .ring r csn => (s.front.launches.filter fun l => l.is t (some r) csn).flatMap fun l => (List.range l.cmds.length).map fun i => CmdRef.stored (some r) csn i
    | _ => []
  let items := (s.front.items.filter fun x => x.tenant == t && (x.ref == ref || subs.contains x.ref)).flatMap fun x =>
    ((List.range x.cmds.length) ++ [256, 257, 258]).map fun i => CmdRef.item x.n i
  ref :: (subs ++ items)

/-- Is every one of the tiles stopped at a CWAIT (R310, R490)? -/
def State.blocked (s : State) (t : Nat) (tiles : List Nat) : Bool :=
  tiles.all fun n =>
    let x := s.tile n
    if s.ownerOf n == some t then x.cwait.isSome else (aget x.saved t).any fun c => c.cwait.isSome

/-- The tenants that held, in an entry of the active table, any of the tiles (R498). -/
def State.suspectsOf (s : State) (t : Nat) (tiles : List Nat) : List Nat :=
  (List.range 16).filter fun u => u == t || s.table.any fun e => e.owner == u && tiles.any fun n => bitOf e.mask n

/-- The judgement of R491 on commands with their tiles: `code` is TIMEOUT or OVERRUN. Only the hardware knows whether the watch
window saw progress; whether the work is blocked is in the state. -/
def State.judge (s : State) (t code : Nat) (refs : List CmdRef) (i : Info) (progress : Bool) : State :=
  let tiles := s.tilesOf t refs
  if progress then s.raise t code { i with detail := 1 }
  else if s.blocked t tiles then s.raise t code { i with detail := 2 }
  else
    let bad := tiles.head?
    s.computeFault (some t) 0x03 { i with tile := bad, detail := bad.getD 0 } (s.suspectsOf t tiles)

/-- OVERRUN_EXPIRY (R84): tick work that is incomplete at the second boundary after its tick is judged; during a recovery the rule
is suspended (R498). -/
def execOverrunExpiry (t : Nat) (progress : Bool) (s : State) : Host.Outcome State Fault Refusal :=
  let late := (s.openWork t (s.beat - 2)).filter fun (ref, _) => match ref with
    | .item _ _ => false
    | _ => true
  if 16 ≤ t ∨ s.beat < 2 ∨ s.active t = false ∨ s.inRecovery = true then .next s
  else match late with
    | [] => .next s
    | (ref, _) :: _ =>
      let refs := late.flatMap fun (r, _) => s.workRefs t r
      .next (s.judge t 0x01 refs { ring := ref.info, tile := (s.tilesOf t refs).head? } progress)

end Sys2Proof.Machine
end

