-- ==== Sys2Proof/Machine/Twin.lean ====
section
/-!
DEFINITION. Twin.lean: twin modes, resync, the serving of a pair, compare and takeover (R243, R471 to R481).
-/

namespace Sys2Proof.Machine

/-! ## Mode requests (R474) -/

/-- The published common regions. -/
def State.publishedSet (s : State) : Nat := s.fld 0x10F000 8 8

/-- TNT_WSET_DIGEST. -/
def State.wsetDigest (s : State) (t : Nat) : List Byte := s.getBytes (tnt t 0x60) 48

/-- Does the twin's record of the tenant have the same SEALED bit (R430)? -/
def State.sameSealed (s : State) (t : Nat) : Bool :=
  match s.part t, s.cat.bind fun c => c.twinParts[t]? with
  | some p, some q => bitOf (fieldAt p.raw 0 1) 1 == bitOf (fieldAt q 0 1) 1
  | _, _ => false

/-- Both members' requests are on hand: when they are equal, the change takes effect two boundaries after the later one,
unless it is refused. -/
def State.agreeMode (s : State) (t : Nat) : State :=
  let x := s.twinSt t
  match x.reqTick, x.peerReq with
  | some mine, some (m, theirs, dig, pub) =>
    if m ≠ s.fld (tnt t 0x8) 0 2 then s
    else
      let s := s.updTwin t fun y => { y with reqTick := none, peerReq := none }
      if m = s.mode t then s
      else if m ≠ 0 && !(s.sameSealed t && s.sameLarder t) then (s.setFlag (tnt t 0x10) 1 true).tntEvent t 4
      else if bitOf m 1 && (dig != s.wsetDigest t || pub != s.publishedSet) then (s.setFlag (tnt t 0x10) 1 true).tntEvent t 4
      else s.updTwin t fun y => { y with change := some (m, max mine theirs + 2) }
  | _, _ => s

/-- A write of TNT_TWIN.REQ (R474). A request to SOLO while the twin is lost takes effect alone at the next boundary. -/
def State.modeRequest (s : State) (t req : Nat) : State :=
  let s := s.setFld (tnt t 0x8) 0 2 req
  if req % 4 = 0 && s.twinLost then s.updTwin t fun x => { x with reqTick := none, change := some (0, s.tickNo + 1) }
  else
    let s := s.updTwin t fun x => { x with reqTick := some s.tickNo }
    (s.sendTwin 0 (.modeRequest t (req % 4) s.tickNo (s.wsetDigest t) s.publishedSet)).agreeMode t

/-- TWIN_MODE_REQUEST (R474). -/
def execTwinModeRequest (t req : Nat) (s : State) : Host.Outcome State Fault Refusal :=
  if 16 ≤ t ∨ !s.serves ∨ (s.part t).isNone then .next s else .next (s.modeRequest t req)

/-- The twin's request has arrived. -/
def State.peerMode (s : State) (t mode tick : Nat) (digest : List Byte) (commons : Nat) : State :=
  (s.updTwin t fun x => { x with peerReq := some (mode, tick, digest, commons) }).agreeMode t

/-- TWIN_MODE_REQUEST_RECEIVE (R474). -/
def execTwinModeRequestReceive (t mode tick : Nat) (digest : List Byte) (commons : Nat) (s : State) : Host.Outcome State Fault Refusal :=
  if 16 ≤ t ∨ (s.part t).isNone then .next s else .next (s.peerMode t mode tick digest commons)

/-! ## Resync (R473, R474) -/

/-- The serving member sends the tenant's state on the stream of its mirror records: descriptors, directories, pool metadata, the
pages in use, recipe buffers and codec slots. `set` tells a returned member to take MIRROR. -/
def State.resync (s : State) (t : Nat) (set : Bool) : State :=
  let s := (s.setFlag (tnt t 0x10) 0 true).updTwin t fun x => { x with resync := 1 }
  match s.part t with
  | none => s
  | some p =>
    if !s.servesPair then s
    else
      let put (s : State) (ta n : Nat) : State := match s.taRead t ta n with
        | some (bs, bad) => s.mirror t (.write ta bs bad)
        | none => s
      let s := (s.mirror t (.clear set)).mirror t (.pool (s.pool t))
      let s := (s.lrd.sess.filter fun (n, _) => sessIn p n).foldl (fun s (n, d) => s.mirror t (.sess n d)) s
      let s := put s p.dirBase p.dirBytes
      let s := (s.livePages t).foldl (fun s (n, x) => put s (p.poolBase + n * p.granuleBytes) (pageBytes p x.k)) s
      let s := (s.front.recipes.filter fun (i, _) => rcpIn p i).foldl (fun s (i, r) =>
        let b := if r.curB then r.b else r.a
        s.mirror t (.recipe i b.version b.cmds)) s
      let s := (s.cdx.slots.filter fun (k, _) => k / 4 % 16 == t).foldl (fun s (k, x) => s.mirror t (.slot (k / 64) (k % 4) x.gen x.lens)) s
      s.mirror t .last

/-- RESYNC_COMPLETE (R474): the last atom is applied; the member that receives needs it to have come. -/
def execResyncComplete (t : Nat) (s : State) : Host.Outcome State Fault Refusal :=
  if 16 ≤ t ∨ (if s.servesPair then (s.twinSt t).resync ≠ 1 else (s.twinSt t).resync ≠ 2) then .next s
  else .next (s.updTwin t fun x => { x with resync := 3 })

/-- A mode comes into force: compare starts with no units. -/
def State.setMode (s : State) (t m : Nat) : State :=
  let s := if s.mode t = m then s else (s.setFld (tnt t 0x8) 4 2 m).tntEvent t 4
  let s := s.setFlag (tnt t 0x10) 0 false
  s.updTwin t fun x => { x with
    change := none, resync := 0, applied := [], base := if m = 1 then x.base else none, undo := if m = 1 then x.undo else [],
    units := if bitOf m 1 then x.units else [], digests := if bitOf m 1 then x.digests else [],
    steps := if bitOf m 1 then x.steps else [] }

/-- A boundary applies the change that both members agreed on: entering MIRROR or COMPARE from SOLO resyncs first, and the mode
takes effect at the boundary after the last atom (R474). A resync of a mode in force ends there too. -/
def State.modeBoundary (s : State) (t : Nat) : State :=
  let x := s.twinSt t
  match x.change with
  | some (m, at_) =>
    if s.tickNo < at_ then s
    else if s.mode t = 0 ∧ m ≠ 0 then (if x.resync = 0 then s.resync t false else if x.resync = 3 then s.setMode t m else s)
    else s.setMode t m
  | none => if x.resync = 3 then s.setMode t (s.mode t) else s

/-! ## Marks (R243, R480) -/

/-- The last CSN of each ring that has reported. -/
def State.reportedCsns (s : State) (t : Nat) : List Nat := (List.range 8).map fun r => ((s.ringSt t r).doneCsn + 2 ^ 32 - 1) % 2 ^ 32

/-- The serving member's mark at a boundary: the tenant's counters, the CSNs it covers, and the lowest BSEQ whose return is not
applied. -/
def State.sendMark (s : State) (t : Nat) : State :=
  if !(s.mirrors t && s.mode t == 1) then s
  else
    let lo := ctrKey t 0 0
    let ctrs := (s.ctrs.filter fun (k, _) => decide (lo ≤ k ∧ k < lo + 3 * 4096)).map fun (k, v) => (k, v.toNat)
    s.sendTwin 3 (.mirrorMark t s.tickNo ctrs (s.reportedCsns t) (s.ladle t).nextRet)

/-! ## Compare: units (R475 to R478) -/

def CmpUnit.new (tick : Nat) (csns : List Nat) : CmpUnit :=
  { tick := tick, sumW := 0, sumH := 0, sumS := 0, sess := [], sat := 0, flush := 0, nan := 0, vflags := 0, codes := 0, own := none,
    held := [], sealMsg := none, csns := csns }

def State.addUnit (s : State) (t tick : Nat) (csns : List Nat) : State :=
  s.updTwin t fun x => { x with units := x.units ++ [CmpUnit.new tick csns] }

/-- Has all work that a unit released on this member completed: its ring commands, its batches and their launches? -/
def State.unitDone (s : State) (t tick : Nat) : Bool :=
  ((List.range 8).all fun r => (s.ringSt t r).cmds.all fun c => c.fresh || c.unit != tick || c.told) &&
  ((s.ladle t).batches.all fun b => b.tick != tick || b.done)

/-- The unit digest (R476). The L term is over the sessions as they stand after the unit; the counts take 8 bytes each,
VFLAGS 4 and the status codes 1. -/
def State.unitDigest (s : State) (t : Nat) (u : CmpUnit) : List Byte :=
  let l := u.sess.foldl (fun n x =>
    let d := s.sess x
    (n + unitTerm 4 (leBytes 2 x ++ leBytes 1 d.state ++ leBytes 1 d.reason ++ leBytes 4 d.length ++ leBytes 6 d.step ++ leBytes 4 d.newcount)) % 2 ^ 256) 0
  (sha384 (leBytes 1 t ++ leBytes 8 u.tick ++ leBytes 32 u.sumW ++ leBytes 32 u.sumH ++ leBytes 32 u.sumS ++ leBytes 32 l ++
    leBytes 8 u.sat ++ leBytes 8 u.flush ++ leBytes 8 u.nan ++ leBytes 4 u.vflags ++ leBytes 1 u.codes)).take 32

/-- Let a formed action out: behind the overflow log while the tenant is frozen or its log holds an entry (R407, R477). -/
def State.letOut (s : State) (t : Nat) (a : Action) : State :=
  let behind := !s.active t || decide (0 < s.logLen t)
  match a with
  | .intr r => s.interrupt (.vf t) r
  | .signal r e _ =>
    if behind then s.pushLog t [logEntry 4 r 1 (if sigKind e = 2 then fieldAt e 8 8 else 0) e] else (s.signal t r e .free).1
  | .write r at_ data =>
    let kind := if data.length = 32 then 1 else if data.length = 16 then 2 else 3
    let body := if kind = 2 then leBytes 4 ((at_ - s.quad (rng t r 0x38)) / 16) else if kind = 1 then data.set 7 1 else data
    let e := logEntry kind r 1 at_ body
    if behind then s.pushLog t [e] else if s.vfReach t then s.send (.host (.vf t) at_ data) else s.hostFail t r e

/-- A seal message with FLAGS for a batch that one member alone answers for (R469, R480). -/
def singleSeal (m : List Byte) : List Byte := m.set 13 (BitVec.ofNat 8 (fieldAt m 13 1 / 4 * 4 + 2))

/-- The TWIN event (R539). -/
def State.twinEvent (s : State) (t unit : Nat) (agreed : Bool) (d : List Byte) : State :=
  s.event 0x0E (some t) none (unit % 2 ^ 32) (leBytes 1 (if agreed then 1 else 2) ++ d.take 15) (1, 15)

/-- Compare the digests of the units in order. Equal: the leader lets the held actions out and writes the seal. Different: both
members freeze at their next boundary, and nothing later is released (R477, R478). -/
def State.settleUnits (s : State) (t : Nat) : Nat → State
  | 0 => s
  | fuel + 1 =>
    let x := s.twinSt t
    match x.units with
    | [] => s
    | u :: rest =>
      match u.own, aget x.digests u.tick with
      | some a, some b =>
        if x.diverge.isSome then s
        else if a = b then
          let s := (s.setQuad (tnt t 0x18) u.tick).updTwin t fun y => { y with units := rest, digests := adel y.digests u.tick, markCsns := u.csns }
          let s := s.twinEvent t u.tick true a
          let s := if s.servesPair then
              let s := u.held.foldl (fun s a => s.letOut t a) s
              match u.sealMsg with
              | some m => s.writeSeal t m true
              | none => s
            else s
          s.settleUnits t fuel
        else (s.updTwin t fun y => { y with diverge := some u.tick }).twinEvent t u.tick false a
      | _, _ => s

/-- Form and send a unit's digest, with the seal signature of a sealed batch (R476, R477). -/
def State.unitComplete (s : State) (t unit : Nat) : State :=
  match (s.twinSt t).units.find? fun u => u.tick == unit with
  | none => s
  | some u =>
    if u.own.isSome || !s.active t || !s.unitDone t unit then s
    else
      let d := s.unitDigest t u
      let (k, s) := s.fresh
      let sig := if u.sealMsg.isSome then (Config.freeBytes k ++ leBytes 96 0).take 96 else []
      let s := s.unitOf t unit fun u => { u with own := some d }
      (s.sendTwin 0 (.unitDigest t unit d sig)).settleUnits t 8

/-- UNIT_COMPLETE (R476). -/
def execUnitComplete (t unit : Nat) (s : State) : Host.Outcome State Fault Refusal :=
  if 16 ≤ t ∨ !s.comparing t then .next s else .next (s.unitComplete t unit)

/-- The twin's digest (R477). -/
def State.peerDigest (s : State) (t unit : Nat) (digest : List Byte) : State :=
  (s.updTwin t fun x => { x with digests := aput x.digests unit digest }).settleUnits t 8

/-- UNIT_DIGEST_RECEIVE (R477, R478). -/
def execUnitDigestReceive (t unit : Nat) (digest : List Byte) (s : State) : Host.Outcome State Fault Refusal :=
  if 16 ≤ t ∨ !s.comparing t then .next s else .next (s.peerDigest t unit digest)

/-! ## Compare: the leader's and the follower's boundary (R475, R477) -/

/-- Release the commands that the leader's rings fetched before this boundary, in ring order. -/
def State.releaseRings (s : State) (t : Nat) : State × List (Nat × Nat × List Byte) :=
  let now := s.tickNo
  (List.range 8).foldl (fun (s, out) r =>
    let new := (s.ringSt t r).cmds.filter fun c => c.fresh && c.st == .held
    (s.updRing t r fun g => { g with cmds := g.cmds.map fun c => if c.fresh && c.st == .held then { c with fresh := false, unit := now } else c },
     out ++ new.map fun c => (r, c.csn, c.bytes))) (s, [])

/-- The highest CSN that each ring has released. -/
def lastCsns (before : List Nat) (cmds : List (Nat × Nat × List Byte)) : List Nat :=
  (List.range 8).map fun r => (((cmds.filter fun (q, _, _) => q == r).getLast?).map (·.2.1)).getD (before.getD r 0)

/-- A tenant's step of a boundary when this member decides for itself: the returns applied, and the batch (R439, R232). -/
def State.ladleStep (s : State) (t : Nat) : State × List Nat × BatchOut :=
  let (s, rets) := s.ladleStart t
  let (s, b) := (s.markLengths t).ladleBatch t
  (s, rets, b)

/-- The leader's boundary: while four units await agreement it releases nothing, else it releases a unit and sends the step
record. -/
def State.leaderStep (s : State) (t : Nat) : State :=
  let x := s.twinSt t
  if !s.active t then (s.ladleStep t).1
  else if 4 ≤ x.units.length then s.setFld (tnt t 0x10) 16 16 (min (s.fld (tnt t 0x10) 16 16 + 1) 0xFFFF)
  else
    let (s, cmds) := s.releaseRings t
    let s := s.addUnit t s.tickNo (lastCsns (((x.units.getLast?).map (·.csns)).getD x.markCsns) cmds)
    let (s, rets, batch, out) := s.ladleStep t
    let r : StepRec := { tick := s.tickNo, cmds := cmds, applied := (s.twinSt t).applied, batch := batch, out := out, rets := rets }
    (s.updTwin t fun x => { x with applied := [] }).sendTwin 0 (.stepRecord t r)

/-- Can the follower apply a record: are the returns and the list that it names on hand? -/
def State.canFollow (s : State) (t : Nat) (r : StepRec) : Bool :=
  let l := s.ladle t
  (r.rets.all fun b => l.rets.any (·.bseq == b)) &&
  (match r.batch with
    | some x => s.lForms t || l.lists.any fun (_, y) => y.bseq == x.bseq
    | none => true)

/-- Run the batch that a record fixes: resolution over the sessions the leader resolved, then the launch. -/
def State.followBatch (s : State) (t : Nat) (x : BList) (out : List (Nat × Nat)) : State :=
  let live := x.ents.filter (!·.skip)
  let (s, as, _) := s.resolveAll t ((live.map fun e => (e.session, e.nrows)) ++ out)
  if s.lForms t then
    let s := x.ents.foldl (fun s e =>
      let s := if e.prefill then (s.takeChunk t e.session e.nrows).2 else s
      (s.updSess e.session fun d => { d with flight := true, ready := none }).touch t e.session) s
    (s.updLadle t fun y => { y with next := x.bseq + 1 }).runBatch t { x with chain := leBytes 48 0 } as
  else
    match (s.ladle t).lists.find? fun (_, y) => y.bseq == x.bseq with
    | none => s
    | some (src, y) =>
      let s := s.updLadle t fun z => { z with
        lists := z.lists.filter fun (_, w) => w.bseq != x.bseq, nextList := x.bseq + 1, next := x.bseq + 1 }
      (s.sendPair t (src / 2) 0 (.credit t x.bseq)).runBatch t { y with ents := x.ents, toks := [] } as

/-- Apply returns that a record names, in order. -/
def State.applyNamed (s : State) (t : Nat) (bs : List Nat) : State :=
  bs.foldl (fun s b => match (s.ladle t).rets.find? fun r => r.bseq == b with
    | none => s
    | some r => (s.updLadle t fun l => { l with rets := l.rets.filter fun x => x.bseq != b }).applyRet t r) s

/-- Apply a step record: unit `r.tick` of the follower. -/
def State.follow (s : State) (t : Nat) (r : StepRec) : State :=
  let x := s.twinSt t
  let s := r.cmds.foldl (fun s (q, csn, bytes) => s.updRing t q fun g => { g with
    cmds := g.cmds ++ [{ RCmd.new csn bytes with fresh := false, unit := r.tick }] }) s
  let s := s.addUnit t r.tick (lastCsns (((x.units.getLast?).map (·.csns)).getD x.markCsns) r.cmds)
  let s := s.ladleSettle t
  let s := match s.part t with
    | none => s
    | some p => r.applied.foldl (fun s (q, csn) => match s.cmd t (.ring q csn) with
        | some c => if c.st == CmdSt.held then s.larderApply t p (.ring q csn) c else s
        | none => s) s
  let s := (s.applyNamed t r.rets).markLengths t
  match r.batch with
  | some b => s.followBatch t b r.out
  | none => (s.resolveAll t r.out).1

/-- The follower's boundary: every record that has arrived and can be applied, in order. `force` is for a takeover, which waits
for nothing (R480). -/
def State.followSteps (s : State) (t : Nat) (force : Bool) : Nat → State
  | 0 => s
  | fuel + 1 =>
    match (s.twinSt t).steps with
    | [] => s
    | r :: rest =>
      if !s.active t || !(force || s.canFollow t r) then s
      else ((s.updTwin t fun x => { x with steps := rest }).follow t r).followSteps t force fuel

/-- STEP_RECORD_RECEIVE (R475): it is applied at the first boundary after it has fully arrived. -/
def State.recvStep (s : State) (t : Nat) (r : StepRec) : State := s.updTwin t fun x => { x with steps := x.steps ++ [r] }

def execStepRecordReceive (t : Nat) (r : StepRec) (s : State) : Host.Outcome State Fault Refusal :=
  if 16 ≤ t ∨ !s.comparing t ∨ s.servesPair then .next s else .next (s.recvStep t r)

/-! ## Losing and regaining the twin (R471 to R473, R480) -/

/-- Send a reflow notice to every other pair of the tenant's stages (R480). -/
def State.sendReflow (s : State) (t b : Nat) : State :=
  (bitsOf 32 (s.word (tnt t 0x310)).toNat).foldl (fun s q => if q = s.moduleId / 2 then s else s.sendPair t q 0 (.reflow t b)) s

/-- Under MIRROR and COMPARE a survivor goes on alone: what the units not yet compared formed is let out, the lost member's
completion records and signals excepted, with seals that say SINGLE; the mode is SOLO (R480, R481). -/
def State.goSolo (s : State) (t : Nat) (leader : Bool) : State :=
  let us := (s.twinSt t).units
  let keep (a : Action) : Bool := match a with
    | .write _ _ d => leader || d.length != 32
    | .signal _ _ out => leader || out
    | .intr _ => leader
  let s := us.foldl (fun s u =>
    let s := (u.held.filter keep).foldl (fun s a => s.letOut t a) s
    match u.sealMsg with
    | some m => s.writeSeal t (singleSeal m) false
    | none => s) s
  let s := s.updLadle t fun l => { l with batches := l.batches.map fun b => if b.done then b else { b with single := true } }
  let s := if leader then s else (List.range 8).foldl (fun s r => s.updRing t r fun g => { g with
    cmds := g.cmds.map fun c => if c.fresh then c else { c with told := true } }) s
  s.setMode t 0

/-- A tenant's part of a takeover (R480). -/
def State.takeTenant (s : State) (t : Nat) : State :=
  let csns := (s.twinSt t).markCsns
  let show_ (s : State) : State := (List.range 8).foldl (fun s r => s.setWord (tnt t (0xC0 + 4 * r)) (BitVec.ofNat 32 (csns.getD r 0))) s
  if s.mode t = 1 then
    let b := (s.twinSt t).markRet
    let s := (s.backToMark t).reflow t b
    let s := s.updLadle t fun l => { l with next := b, nextList := b, nextRet := b, taken := b }
    show_ (s.sendReflow t b)
  else if s.mode t = 3 then
    let s := s.followSteps t true ((s.twinSt t).steps.length + 1)
    let s := s.sendReflow t (s.ladle t).next
    (show_ s).goSolo t false
  else s

/-- Take serving: announced, and every tenant in MIRROR goes on from here (R341, R472, R480). -/
def State.takeServing (s : State) : State :=
  let s := ((s.setFlag 0x40 0 true).setServe (s.moduleId / 2) (s.moduleId % 2)).flood (.serving (s.moduleId / 2) (s.moduleId % 2))
  let s : State := { s with pair := { s.pair with takeover := false } }
  (List.range 16).foldl (fun s t => if s.mode t = 0 then s else (s.takeTenant t).tntEvent t 5) (s.modEvent 4)

/-- Give up serving, in favour of the twin unless it is lost (R341, R472): batches in flight of tenants in MIRROR go back. -/
def State.giveServing (s : State) : State :=
  if !s.servesPair then s
  else
    let who := if s.twinLost then 3 else 1 - s.moduleId % 2
    let s := ((s.setFlag 0x40 0 false).setServe (s.moduleId / 2) who).flood (.serving (s.moduleId / 2) who)
    let s : State := { s.modEvent 4 with pair := { s.pair with handover := false, takeover := false, split := false } }
    (List.range 16).foldl (fun s t => if s.mode t = 1 then s.reflow t (s.ladle t).nextRet else s) s

/-- TWIN_LOSS_TIMEOUT (R471, R472): no heartbeat by any path for 50 µs. -/
def State.loseTwin (s : State) : State :=
  if s.twinLost || !s.serves then s
  else
    let lead := s.servesPair
    let s := ((s.setFlag 0x40 1 true).modEvent 4).endMigrations
    let s : State := { s with pair := { s.pair with takeover := !lead, back := false } }
    (List.range 16).foldl (fun s t =>
      let s := if (s.twinSt t).resync = 0 then s else (s.setFlag (tnt t 0x10) 0 false).updTwin t fun x => { x with resync := 0, change := none }
      if s.mode t = 2 then s.raise t 0xF1 {} else if s.mode t = 3 && lead then s.goSolo t true else s) s

def execTwinLossTimeout (s : State) : Host.Outcome State Fault Refusal := .next s.loseTwin

/-- TWIN_RETURN (R473): heartbeats for 1 ms without a gap; LOST clears at the next boundary. -/
def execTwinReturn (s : State) : Host.Outcome State Fault Refusal :=
  .next (if s.twinLost then { s with pair := { s.pair with back := true } } else s)

/-- HANDOVER (R472): a write of MOD_TWIN.HANDOVER on the serving member. -/
def State.askHandover (s : State) : State := if s.servesPair then { s with pair := { s.pair with handover := true } } else s

def execHandover (s : State) : Host.Outcome State Fault Refusal := if s.serves then .next s.askHandover else .next s

/-- The pair's part of a boundary: the end of a split, a hand-over once no tenant resyncs, a takeover, and the twin's
return, after which tenants in MIRROR resync (R472, R473). -/
def State.pairBoundary (s : State) : State :=
  let s :=
    if s.pair.split && s.servesPair then
      let s := (s.setFlag 0x40 0 false).setFlag 0x40 3 true
      let s : State := { s.setServe (s.moduleId / 2) (1 - s.moduleId % 2) with pair := { s.pair with split := false } }
      let s := s.flood (.serving (s.moduleId / 2) (1 - s.moduleId % 2))
      (List.range 16).foldl (fun s t => if s.mode t ≠ 0 then s.raise t 0xF3 {} else s) (s.modEvent 4)
    else s
  let steady := (List.range 16).all fun t => !s.flag (tnt t 0x10) 0
  let s := if s.pair.handover && s.servesPair && steady && !s.twinLost then s.giveServing else s
  let s := if s.pair.takeover && !s.servesPair && s.boot.state != .recovering then s.takeServing else s
  if s.pair.back && s.twinLost then
    let s : State := { (s.setFlag 0x40 1 false).modEvent 4 with pair := { s.pair with back := false } }
    if s.servesPair then (List.range 16).foldl (fun s t => if s.mode t = 1 then s.resync t true else s) s else s
  else s

/-- A tenant's freezes that wait for a boundary: a divergence, and a freeze of the twin's (R478, R479). -/
def State.twinFreezes (s : State) (t : Nat) : State :=
  let x := s.twinSt t
  let s := match x.diverge with
    | some u =>
      ((s.setQuad (tnt t 0x20) u).updTwin t fun y => { y with diverge := none, digests := [], units := y.units.map fun u => { u with own := none } }).raise
        t 0xF0 {}
    | none => s
  if x.peerFreeze then (s.updTwin t fun y => { y with peerFreeze := false }).raise t 0xF2 {} else s

/-- A tenant's Larder and Ladle steps of a boundary, under its twin mode (R439, R471, R475): a member that does not serve a
tenant in MIRROR runs none of them. -/
def State.stepTenant (s : State) (t : Nat) : State :=
  if s.comparing t then (if s.servesPair then s.leaderStep t else s.followSteps t false ((s.twinSt t).steps.length + 1))
  else if s.mode t = 1 && !s.servesPair then s.ladleSettle t
  else (s.ladleStep t).1

end Sys2Proof.Machine
end

