-- ==== Sys2Proof/Machine/Tenant.lean ====
section
/-!
DEFINITION. Tenant.lean: freezing, unfreezing and resetting a tenant, common regions, weight sets, clearing records (R408,
R419 to R423, R464, R488, R489, R504, R505).
-/

namespace Sys2Proof.Machine

/-! ## Freeze and unfreeze (R422, R479, R488, R489) -/

/-- A write that R422 does not allow. -/
def State.tntBad (s : State) (t : Nat) : State := s.setFlag (tnt t 0x4) 8 true

def State.askFreeze (s : State) (t : Nat) : State := if s.active t then s.freeze t true else s.tntBad t

/-- FREEZE (R422, R488). -/
def execFreeze (t : Nat) (s : State) : Host.Outcome State Fault Refusal :=
  if 16 ≤ t ∨ !s.serves then .next s else .next (s.askFreeze t)

/-- A write of UNFREEZE: refused while NOUNFREEZE reads 1; under COMPARE the twin is told (R479, R489). -/
def State.askUnfreeze (s : State) (t : Nat) : State :=
  if s.tState t ≠ tsFrozen ∨ s.flag (tnt t 0x100) 19 then s.tntBad t
  else
    let s := s.updTwin t fun x => { x with unfreeze := true }
    if s.comparing t then s.sendTwin 0 (.unfreeze t) else s

/-- UNFREEZE (R489): it takes effect at the next boundary. -/
def execUnfreeze (t : Nat) (s : State) : Host.Outcome State Fault Refusal :=
  if 16 ≤ t ∨ !s.serves then .next s else .next (s.askUnfreeze t)

/-- The tenant is ACTIVE again: its rings fetch, what a violation stopped is read again, and the overflow log drains (R408,
R489). -/
def State.thaw (s : State) (t : Nat) : State :=
  let s := (((s.setTState t tsActive).updTwin t fun x => { x with unfreeze := false, peerUnfreeze := false }).tntEvent t 1)
  let s := (List.range 8).foldl (fun s r => if 2 ≤ s.ringState t r then s.setRingState t r (if s.ringOn t r then 1 else 0) else s) s
  let s := (List.range 128).foldl (fun s n => s.updTile n fun x => { x with
    chans := x.chans.map fun (k, c) => if k / 8 = t then (k, { c with stopped := false }) else (k, c) }) s
  { s with recov := { s.recov with saving := s.recov.saving.erase t } }.drainLog t true (s.logLen t)

def State.unfreezeBoundary (s : State) (t : Nat) : State :=
  let x := s.twinSt t
  if x.unfreeze && s.tState t == tsFrozen && (!s.comparing t || x.peerUnfreeze || s.twinLost) then s.thaw t else s

/-! ## Tenant reset (R244, R255, R294, R308, R369, R408, R423, R550) -/

/-- What a tile keeps once a tenant's work, share and regions are gone from it: the bytes `[lo, hi)` of the share, save area
included, are written with zeros, which leaves neither poison nor an error there (R249, R255). -/
def Tile.dropTenant (x : Tile) (t : Nat) (runs : Bool) (lo hi : Nat) : Tile :=
  let x := if runs then { (x.setCtx Ctx.empty) with held := none } else x
  { x with
    saved := adel x.saved t, chans := x.chans.filter fun (k, _) => k / 8 != t, regions := x.regions.filter (·.tenant != t),
    mem := zeroRange x.mem lo hi, poison := x.poison.filter fun l => !(decide (lo ≤ 64 * l) && decide (64 * l < hi)),
    flaws := x.flaws.filter fun (w, _) => !(decide (lo ≤ 32 * w) && decide (32 * w < hi)),
    ued := x.ued.filter fun l => !(decide (lo ≤ 64 * l) && decide (64 * l < hi)) }

/-- The scratchpad bytes of a tenant's share on each tile of its set, save area included (R253, R255). -/
def State.wholeShare (s : State) (t : Nat) : Nat × Nat :=
  match s.part t with
  | some p => (p.spmFirst * 0x30000, (p.spmFirst + p.spmBanks) * 0x30000)
  | none => (0, 0)

/-- The module addresses that a tenant reset zeroes: its channel groups, hidden area included, and the common regions that it
loads and that are not yet PUBLISHED (R415, R423). -/
def State.resetRanges (s : State) (t : Nat) : List (Nat × Nat) :=
  let gs := ((s.part t).map fun p => bitsOf 32 p.chgroups).getD []
  let cs := (s.cat.map (·.commons)).getD []
  gs.map (fun g => (g * 0x800000000, 0x7E0000000)) ++
  cs.zipIdx.flatMap fun (c, i) =>
    if c.loader = t ∧ s.commonState i ≠ 2 then
      (bitsOf 32 c.groups).mapIdx fun k g => (g * 0x800000000, min (c.size - k * 0x7E0000000) 0x7E0000000)
    else []

def State.zeroMa (s : State) (a n : Nat) : State :=
  { s with hbm := zeroRange s.hbm a (a + n), hbmBad := s.hbmBad.filter fun l => !(decide (a ≤ 64 * l) && decide (64 * l < a + n)) }

/-- The tenant's counters that only its reset clears (R535, R549, R550). -/
def State.zeroCounters (s : State) (t : Nat) : State :=
  let s := ((s.setWord (tnt t 0xC) 0).setFld (tnt t 0x10) 8 24 0).zeroRegs (tnt t 0x324) (tnt t 0x334)
  let s := (List.range 8).foldl (fun s r => s.zeroRegs (rng t r 0x54) (rng t r 0x5C)) s
  let s := (s.zeroRegs (0xA02010 + 0x100 * t) (0xA02048 + 0x100 * t)).zeroRegs (0x901000 + 0x80 * t) (0x901050 + 0x80 * t)
  let s := (s.zeroRegs (0x601000 + 0x20 * t) (0x601018 + 0x20 * t)).zeroRegs (0x10100 + 16 * t) (0x1010C + 16 * t)
  let s := (List.range 16).foldl (fun s c => s.zeroRegs (0x401000 + 0x100 * c + 0x10 * t) (0x401010 + 0x100 * c + 0x10 * t)) s
  { s with pwr := { s.pwr with nano := s.pwr.nano.filter fun (k, _) => k / 16 != t } }

/-- The front end's part: every ring off with nothing in it, logs and stored work gone (R408). -/
def State.resetFront (s : State) (t : Nat) : State :=
  let s := (List.range 8).foldl (fun s r => ((s.updRing t r fun g => { g with cmds := [], timer := 0, oldest := 0, renew := false }).setFlag (rng t r 0) 0 false).setRingState t r 0) s
  let rcp (i : Nat) : Bool := ((s.part t).map fun p => rcpIn p i).getD false
  { s with front := { s.front with
    launches := s.front.launches.filter (·.tenant != t), recipes := s.front.recipes.filter (fun (i, _) => !rcp i),
    routes := s.front.routes.filter (·.tenant != t), items := s.front.items.filter (·.tenant != t),
    logs := vupd s.front.logs t fun _ => [], plans := s.front.plans.filter (·.tenant != t), epochs := vupd s.front.epochs t fun _ => 0,
    past := s.front.past.filter fun x => match x with
      | .cmd u _ _ => u != t
      | .launch l => l.tenant != t } }

/-- Every feed that the tenant's sessions have queued ends with LRD_DROPPED (R244). -/
def State.dropAllFeeds (s : State) (t : Nat) : State :=
  match s.part t with
  | none => s
  | some p => (s.lrd.sess.filter fun (n, d) => sessIn p n && !d.feeds.isEmpty).foldl (fun s (n, _) => s.dropFeeds t n) s

/-- The Larder's and the Ladle's part (R244, R436). -/
def State.resetLarder (s : State) (t : Nat) : State :=
  let mine (n : Nat) : Bool := ((s.part t).map fun p => sessIn p n).getD false
  { s with
    lrd := { pools := vupd s.lrd.pools t fun _ => Pool.empty, sess := s.lrd.sess.filter fun (n, _) => !mine n,
             waits := s.lrd.waits.filter (·.1 != t), copies := s.lrd.copies.filter (·.tenant != t),
             incoming := s.lrd.incoming.filter fun (n, _) => !mine n },
    ladles := vupd s.ladles t fun _ => Ladle.reset }

/-- What recovery holds of a tenant goes with its work. -/
def Recov.drop (r : Recov) (t : Nat) : Recov :=
  { r with saving := r.saving.erase t, suspects := r.suspects.erase t, replay := r.replay.filter (·.1 != t), rolled := r.rolled.erase t,
           lens := r.lens.filter (·.1 != t), colls := r.colls.erase t, ckpts := r.ckpts.filter (·.tenant != t),
           ledger := r.ledger.filter (·.1 != t), ctrLog := r.ctrLog.filter (·.tenant != t) }

/-- A tenant reset (R423), from ACTIVE or FROZEN. Under COMPARE it reaches the twin, and the mode is SOLO on both (R479). -/
def State.tenantReset (s : State) (t : Nat) (tell : Bool) : State :=
  if !(s.active t || s.tState t == tsFrozen) then s
  else
    let cmp := s.comparing t
    let s := if tell && cmp then s.sendTwin 0 (.reset t) else s
    let s := s.setTState t tsResetting
    let s := s.resetColls t
    let (lo, hi) := s.wholeShare t
    let s := (List.range 128).foldl (fun s n =>
      let runs := s.ownerOf n == some t
      let s := s.updTile n fun x => x.dropTenant t runs lo hi
      if runs && s.entryOf n != some t then s.setOwner n none else s) s
    let s : State := { s with cdx := { s.cdx.discard (· == t) with slots := s.cdx.slots.filter fun (k, _) => k / 4 % 16 != t } }
    let s := (((s.dropAllFeeds t).resetMigrates t).resetFront t).resetLarder t
    let s := (s.resetRanges t).foldl (fun s (a, n) => s.zeroMa a n) s
    let lo := ctrKey t 0 0
    let s : State := { s with
      ctrs := s.ctrs.filter fun (k, _) => !(decide (lo ≤ k) && decide (k < lo + 3 * 4096)),
      recov := s.recov.drop t, twin := vupd s.twin t fun _ => TwinSt.reset }
    let s := (s.setFlag (tnt t 0x100) 19 false).setFlag (tnt t 0x10) 0 false
    let s := ((s.setFld (tnt t 0x50) 1 2 0).zeroRegs (tnt t 0x60) (tnt t 0x90)).zeroRegs (tnt t 0xA0) (tnt t 0xB0)
    let s := s.zeroCounters t
    if cmp then (s.setFld (tnt t 0x8) 4 2 0).tntEvent t 4 else s

def State.askReset (s : State) (t : Nat) : State :=
  if s.active t || s.tState t == tsFrozen then s.tenantReset t true else s.tntBad t

/-- TENANT_RESET (R422, R423). -/
def execTenantReset (t : Nat) (s : State) : Host.Outcome State Fault Refusal :=
  if 16 ≤ t ∨ !s.serves then .next s else .next (s.askReset t)

/-- TENANT_RESET_COMPLETE (R422, R423): zeroing has ended. -/
def execTenantResetComplete (t : Nat) (s : State) : Host.Outcome State Fault Refusal :=
  if 16 ≤ t ∨ s.tState t ≠ tsResetting then .next s else .next (((s.setTState t tsActive).tntEvent t 3).modEvent 3)

/-! ## Common regions (R419) -/

def State.askPublish (s : State) (r : Nat) : State :=
  if ((s.cat.map (·.commons)).getD []).length ≤ r ∨ s.commonState r ≠ 0 then s else { s with publish := s.publish ||| 2 ^ r }

/-- PUBLISH (R419). -/
def execPublish (r : Nat) (s : State) : Host.Outcome State Fault Refusal := if s.serves ∧ r < 8 then .next (s.askPublish r) else .next s

/-- Does a module address lie in common region `r`? -/
def State.inCommon (s : State) (r ma : Nat) : Bool :=
  ((s.cat.bind fun c => c.commons[r]?).map fun c => bitOf c.groups (ma / 0x800000000)).getD false

/-- A boundary: regions asked for begin to publish, their lines leaving the LOADER's ways, and those published map for every
reader. -/
def State.publishBoundary (s : State) : State :=
  let s := s.mscDrop fun ma => (List.range 8).any fun r => bitOf s.publish r && s.inCommon r ma
  { s.setFld 0x10F000 16 8 (s.fld 0x10F000 16 8 ||| s.publish) with publish := 0, unmapped := 0 }

/-- The SIZE bytes of a common region. -/
def State.commonBytes (s : State) (r : Nat) : List Byte :=
  match s.cat.bind fun c => c.commons[r]? with
  | none => []
  | some c => (bitsOf 32 c.groups).mapIdx (fun k g => readBytes s.hbm (g * 0x800000000) (min (c.size - k * 0x7E0000000) 0x7E0000000)) |>.flatten

/-- COMMON_DIGEST_COMPLETE (R419, steps 3 and 4). -/
def execCommonDigestComplete (r : Nat) (s : State) : Host.Outcome State Fault Refusal :=
  if 8 ≤ r ∨ s.commonState r ≠ 1 then .next s
  else
    let d := sha384 (s.commonBytes r)
    let s := (s.setFlag 0x10F000 (16 + r) false).setFlag 0x10F000 (8 + r) true
    .next { s with commonDigs := aput s.commonDigs r d, unmapped := s.unmapped ||| 2 ^ r }

/-! ## Weight sets (R464) -/

/-- Does the range lie in the tenant's own range, outside its pool, directory area and staging region? -/
def wsetFits (p : Partition) (base size : Nat) : Bool :=
  decide (0 < size) && decide (base + size ≤ p.taSize) && apart base size p.stageBase p.stageSize &&
  (p.granules == 0 || (apart base size p.poolBase (p.granules * p.granuleBytes) && apart base size p.dirBase p.dirBytes))

def State.wsetGo (s : State) (t : Nat) : State :=
  let base := s.quad (tnt t 0x40)
  let size := s.quad (tnt t 0x48)
  if s.flag (tnt t 0x50) 1 || s.flag (tnt t 0x50) 2 || !((s.part t).map fun p => wsetFits p base size).getD false then s.setFlag (tnt t 0x50) 3 true
  else (s.setFlag (tnt t 0x50) 1 true).updTwin t fun x => { x with wsetAt := some (base, size) }

/-- WSET_GO (R464). -/
def execWsetGo (t : Nat) (s : State) : Host.Outcome State Fault Refusal :=
  if 16 ≤ t ∨ !s.serves ∨ (s.part t).isNone then .next s else .next (s.wsetGo t)

/-- The range is read-only from the boundary on. -/
def State.wsetBoundary (s : State) (t : Nat) : State :=
  match (s.twinSt t).wsetAt with
  | some r => s.updTwin t fun x => { x with wsetAt := none, wsetOn := some r }
  | none => s

/-- WSET_DIGEST_COMPLETE (R464). -/
def execWsetDigestComplete (t : Nat) (s : State) : Host.Outcome State Fault Refusal :=
  match (s.twinSt t).wsetOn with
  | none => .next s
  | some (base, size) =>
    if 16 ≤ t ∨ !s.flag (tnt t 0x50) 1 then .next s
    else
      let d := sha384 (((s.taRead t base size).map (·.1)).getD [])
      .next (((s.setFlag (tnt t 0x50) 1 false).setFlag (tnt t 0x50) 2 true).setBytes (tnt t 0x60) d)

/-! ## Clearing records (R485, R504, R505) -/

/-- The tenant fault record is empty; NOUNFREEZE stays (R489). -/
def State.faultClear (s : State) (t : Nat) : State :=
  ((s.setFld (tnt t 0x100) 0 19 0).setWord (tnt t 0x104) 0).zeroRegs (tnt t 0x120) (tnt t 0x160)

def execFaultClear (t : Nat) (s : State) : Host.Outcome State Fault Refusal :=
  if 16 ≤ t ∨ !s.serves then .next s else .next (s.faultClear t)

/-- The module fault record and PRIOR. -/
def State.fltClear (s : State) : State := ((s.setWord 0x700004 0).zeroRegs 0x700020 0x700060).setFlag 0x700000 16 false

def execFltClear (s : State) : Host.Outcome State Fault Refusal := .next s.fltClear

/-- CP_RESET (R505): CP_REQUEST, a fault of class COMPUTE with no suspects. -/
def execCpReset (s : State) : Host.Outcome State Fault Refusal := .next (s.computeFault none 0x1B {} [])

end Sys2Proof.Machine
end

