-- ==== Sys2Proof/Machine/Recover.lean ====
section
/-!
DEFINITION. Recover.lean: checkpoints, compute-part resets, rollback and replay, ring timeouts, controllers that fail (R404, R492
to R503).
-/

namespace Sys2Proof.Machine

/-! ## Checkpoints (R494) -/

/-- The tick in which a launch's work began: that of its first dispatched command. -/
def Launch.began (l : Launch) : Option Nat :=
  ((l.cmds.filter fun c => c.st != .held).map (·.tick)).foldl (fun m x => some (min x (m.getD x))) none

/-- The tick in which the tenant's oldest incomplete work began. -/
def State.oldestWork (s : State) (t : Nat) : Option Nat :=
  let run := ((s.allCmds t).filter fun (_, c) => c.st == .running).map fun (_, c) => c.tick
  let ls := (s.front.launches.filter (·.tenant == t)).filterMap Launch.began
  (run ++ ls).foldl (fun m x => some (min x (m.getD x))) none

/-- The tenant's checkpoint of this boundary. -/
def State.takeCkpt (s : State) (t : Nat) (p : Partition) : Ckpt :=
  let lo := ctrKey t 0 0
  { tick := s.beat, tenant := t,
    sess := (s.lrd.sess.filter fun (n, _) => sessIn p n).map fun (n, d) => (n, d.lengthT, d.stepT),
    slots := s.cdx.slots.filter fun (k, _) => k / 4 % 16 == t,
    ctrs := s.ctrs.filter fun (k, _) => decide (lo ≤ k ∧ k < lo + 3 * 4096) }

def Past.tick : Past → Nat
  | .cmd _ _ c => c.tick
  | .launch l => l.began.getD 0

def Past.tenant : Past → Nat
  | .cmd t _ _ => t
  | .launch l => l.tenant

/-- Every tenant's checkpoint at a boundary; what no checkpoint that is kept needs is dropped: those of the three latest
boundaries stay, and that of the boundary at which a tenant's oldest incomplete work began. -/
def State.checkpoint (s : State) : State :=
  let now := s.beat
  let floor (t : Nat) : Nat := min (now - 2) ((s.oldestWork t).getD now)
  let new := (List.range 16).filterMap fun t => (s.part t).map fun p => s.takeCkpt t p
  { s with
    recov := { s.recov with
      ckpts := (s.recov.ckpts.filter fun c => decide (floor c.tenant ≤ c.tick) && !(s.recov.rolled.contains c.tenant && c.tick == now)) ++ new,
      ledger := s.recov.ledger.filter fun (t, k, _, _) => decide (floor t ≤ k) || s.recov.rolled.contains t,
      ctrLog := s.recov.ctrLog.filter fun o => decide (floor o.tenant ≤ o.tick) },
    front := { s.front with past := s.front.past.filter fun x => decide (floor x.tenant ≤ x.tick) } }

/-! ## Rollback (R244, R294, R494 to R496, R499) -/

/-- A command that is to run again: what it found is forgotten, what the ledger holds is marked. -/
def RCmd.again (c : RCmd) (told : Bool) : RCmd :=
  { RCmd.new c.csn c.bytes with replay := true, told := told, fresh := c.fresh, unit := c.unit, tick := c.tick }

/-- Is the unit of a command still to be formed again under COMPARE: not complete on this member (R479)? -/
def State.unitOpen (s : State) (t unit : Nat) : Bool :=
  s.comparing t && (s.twinSt t).units.any fun u => u.tick == unit && u.own.isNone

/-- Does the rollback run a command again: a dispatched one that repeats; a SIGNAL only as its unit is formed again. -/
def State.rerun (s : State) (t b : Nat) (c : RCmd) : Bool :=
  c.st != .held && decide (b ≤ c.tick) && c.repeats && (c.op != 0x20 || s.unitOpen t c.unit)

/-- A launch whose stored commands run again from the first. -/
def State.launchAgain (s : State) (t : Nat) (l : Launch) : Launch :=
  let unit := match l.ring with
    | some r => s.unitRing t (.ring r l.key)
    | none => s.unitRing t (.stored none l.key 0)
  { l with next := 0, cmds := l.cmds.map fun c => c.again (c.st == .done && !s.unitOpen t unit) }

/-- Tenant `t`'s delivery counters are those of checkpoint `ck`, with the deliveries after it made again (R240, R243). -/
def State.restoreCtrs (s : State) (t : Nat) (ck : Ckpt) : State :=
  let lo := ctrKey t 0 0
  let s : State := { s with ctrs := (s.ctrs.filter fun (k, _) => !(decide (lo ≤ k) && decide (k < lo + 3 * 4096))) }
  let s : State := { s with ctrs := ck.ctrs.foldl (fun m (k, v) => nset m k v) s.ctrs }
  (s.recov.ctrLog.filter fun o => o.tenant == t && decide (ck.tick ≤ o.tick)).foldl (fun (s : State) o => match o.bytes with
    | some n => s.counted t o.ctr n 1
    | none => s.applySignal t o.ctr o.op o.value) s

/-- Its sessions and its codec slots are those of the checkpoint; what the sessions had reached is kept for the replay (R244). -/
def State.restoreSess (s : State) (t : Nat) (ck : Ckpt) : State :=
  let s : State := { s with recov := { s.recov with lens := s.recov.lens ++ ck.sess.map fun (n, _, _) => (t, n, (s.sess n).length, (s.sess n).step) } }
  let s := ck.sess.foldl (fun (s : State) (n, len, step) => s.updSess n fun d => { d with length := len, step := step }) s
  { s with cdx := { s.cdx with slots := (s.cdx.slots.filter fun (k, _) => k / 4 % 16 != t) ++ ck.slots } }

/-- The launches that have ended and run again. -/
def State.backLaunches (s : State) (t b : Nat) : List Launch :=
  s.front.past.filterMap fun x => match x with
    | .launch l => if l.tenant = t ∧ b ≤ x.tick then some l else none
    | _ => none

/-- The commands of its rings that run again, those that have reported among them. -/
def State.redoCmds (s : State) (t b : Nat) : State :=
  let running (r csn : Nat) : Bool := (s.front.launches ++ s.backLaunches t b).any fun l => l.is t (some r) csn
  let redo (r : Nat) (told : Bool) (c : RCmd) : RCmd :=
    let x := c.again (told && !s.unitOpen t c.unit)
    if c.op = 0x1A && running r c.csn then { x with st := .running } else x
  (List.range 8).foldl (fun (x : State) r =>
    let back := x.front.past.filterMap fun p => match p with
      | .cmd u q c => if u = t ∧ q = r ∧ s.rerun t b c then some (redo r true c) else none
      | _ => none
    x.updRing t r fun g => { g with cmds := back ++ g.cmds.map fun c => if s.rerun t b c then redo r c.told c else c }) s

/-- A launch that runs again holds its recipe's slot again. -/
def State.holdAgain (s : State) (l : Launch) : State :=
  match aget s.front.recipes l.recipe with
  | none => s
  | some q =>
    let q := if l.buf = 0 then { q with a := { q.a with holds := q.a.holds + 1 } } else { q with b := { q.b with holds := q.b.holds + 1 } }
    { s with front := { s.front with recipes := aput s.front.recipes l.recipe q, launches := s.front.launches ++ [l] } }

/-- The launches that run again, as they stood after the sessions were set back (`s0`). -/
def State.redoLaunches (s s0 : State) (t b : Nat) : State :=
  let s := (s0.backLaunches t b).foldl State.holdAgain s
  { s with front := { s.front with
    launches := s.front.launches.map fun l => if l.tenant = t then s0.launchAgain t l else l,
    past := s.front.past.filter fun x => !(x.tenant == t && decide (b ≤ x.tick)) } }

/-- Roll a tenant back to the checkpoint of tick `b`. -/
def State.rollback (s : State) (t b : Nat) : State :=
  match (s.recov.ckpts.filter fun c => c.tenant == t && decide (c.tick ≤ b)).getLast? with
  | none => s
  | some ck =>
    let s0 := (s.restoreCtrs t ck).restoreSess t ck
    let s := (s0.redoCmds t b).redoLaunches s0 t b
    { s with recov := { s.recov with rolled := t :: s.recov.rolled.erase t } }

/-- A tenant's replay starts: its sessions' LENGTH and STEP are those that the ticks it replays had reached (R244). -/
def State.startReplay (s : State) (t : Nat) : State :=
  let s := (s.recov.lens.filter (·.1 == t)).foldl (fun (s : State) (_, n, len, step) => s.updSess n fun d => { d with length := len, step := step }) s
  { s with recov := { s.recov with lens := s.recov.lens.filter (·.1 != t), rolled := s.recov.rolled.erase t } }

/-- Has every command that replays completed? -/
def State.replayDone (s : State) (t : Nat) : Bool := (s.allCmds t).all fun (_, c) => !c.replay || c.st == .done

/-! ## The compute-part reset (R492, R493) -/

/-- The reset of what R492 names, at the start of a recovery. -/
def State.cpReset (s : State) : State :=
  match s.recov.due with
  | none => s
  | some suspects =>
    let s := if s.fld 0x700000 0 3 = 0 then s.setWord 0x700014 0 else s
    let s := (s.setMod .recovering).giveServing
    let gen := (s.gen + 1) % 256
    let s := ((s.setFld 0x700000 8 8 gen).bump 0x70000C 1).setFld 0x700000 0 3 (if gen = 0 then 2 else 1)
    let s := if gen = 0 then s.note 0x19 {} else s
    let s := (List.range 128).foldl (fun s n =>
      let s := s.updTile n fun x => { (x.setCtx Ctx.empty) with saved := [], chans := [], regions := [], held := none }
      s.setOwner n ((s.entryOf n).filter fun e => decide (e < 16))) s
    let colls := (s.coll.runs.map (·.tenant)).eraseDups
    let s := s.endColls (fun _ => true) 0x37
    let s : State := { s with
      cdx := s.cdx.discard fun _ => true, drc := [], front := { s.front with routes := [], items := [] },
      twin := s.twin.map fun (x : TwinSt) => { x with units := x.units.map fun u =>
        if u.own.isSome then u else { CmpUnit.new u.tick u.csns with sess := [] } },
      recov := { s.recov with
        held := true, wrap := gen == 0, due := none, suspects := suspects, replay := none, colls := colls, bankUe := [], saving := [] } }
    s.vacate.restartCopies

/-- COMPUTE_PART_RESET (R492): a compute-part reset that is due. -/
def execComputePartReset (s : State) : Host.Outcome State Fault Refusal := .next s.cpReset

/-- The next suspect replays, or recovery goes on to its end (R498): one that is not ACTIVE or has nothing to replay leaves. -/
def State.nextSuspect (s : State) : State :=
  match (s.recov.suspects.mergeSort (· ≤ ·)).find? fun t => s.active t && s.recov.rolled.contains t with
  | some t =>
    let s : State := { s with recov := { s.recov with suspects := s.recov.suspects.erase t, replay := some (t, 4) } }
    (s.setFld 0x700000 0 3 3).startReplay t
  | none => { s.setFld 0x700000 0 3 4 with recov := { s.recov with suspects := [], replay := none } }

/-- The release: every tenant with incomplete work is rolled back, one whose work holds a collective that the reset ended is
frozen, and the suspects replay (R498, R499). -/
def State.cpRelease (s : State) : State :=
  if !s.recov.held then s
  else
    let s : State := { s with recov := { s.recov with held := false, wrap := false } }
    let s := (List.range 16).foldl (fun (s : State) t => match s.oldestWork t with
      | some b => s.rollback t b
      | none => if s.recov.colls.contains t then s.rollback t s.beat else s) s
    let s := s.recov.colls.foldl (fun s t => s.raise t 0x05 {}) s
    ({ s with recov := { s.recov with colls := [] } } : State).nextSuspect

/-- COMPUTE_PART_RELEASE (R492, R493). -/
def execComputePartRelease (s : State) : Host.Outcome State Fault Refusal := .next s.cpRelease

/-! ## The replay of suspects (R498) -/

/-- SUSPECT_WINDOW (R498, R505): a watch window of the suspect under replay ends. One judged hung is frozen with HANG_REPLAY, and
a further reset follows, which adds no suspects and does not escalate. -/
def execSuspectWindow (t : Nat) (progress : Bool) (s : State) : Host.Outcome State Fault Refusal :=
  let tiles := s.tilesOf t ((s.allCmds t).map (·.1))
  if (s.recov.replay.map (·.1)) ≠ some t ∨ progress = true ∨ tiles.isEmpty = true ∨ s.blocked t tiles = true then .next s
  else
    let s := s.raise t 0x04 { tile := tiles.head?, detail := tiles.headD 0 }
    .next { s.setFlag 0x700014 (16 + t) true with recov := { s.recov with due := some s.recov.suspects, replay := none } }

/-- The suspect under replay leaves the list. -/
def State.leaveSuspect (s : State) : State := ({ s with recov := { s.recov with replay := none } } : State).nextSuspect

/-- SUSPECT_REPLAY_LIMIT (R498): four boundaries after its replay began. -/
def execSuspectReplayLimit (s : State) : Host.Outcome State Fault Refusal :=
  match s.recov.replay with
  | some (t, 0) => if s.replayDone t then .next s.leaveSuspect else .next (s.raise t 0x01 {}).leaveSuspect
  | _ => .next s

/-- Recovery at a boundary: a suspect that has replayed, is frozen, or has had its four boundaries leaves; once none is left, the
first boundary ends the recovery. -/
def State.recoverBoundary (s : State) : State :=
  let st := s.fld 0x700000 0 3
  if st = 3 then
    match s.recov.replay with
    | none => s.nextSuspect
    | some (t, k) =>
      if s.replayDone t || !s.active t then s.leaveSuspect
      else if k = 0 then (s.raise t 0x01 {}).leaveSuspect
      else { s with recov := { s.recov with replay := some (t, k - 1) } }
  else if st = 4 then
    let s := s.setFld 0x700000 0 3 0
    let s := (s.recov.rolled.filter s.active).foldl (fun s t => s.startReplay t) s
    let s := if s.recov.holdover then s else s.setMod (if s.derated then .derated else .serving)
    let who := s.quad 0x502100 / 4 ^ (s.moduleId / 2) % 4
    if who = 1 - s.moduleId % 2 then s else { s with pair := { s.pair with takeover := true } }
  else s

/-- An unfrozen tenant that was rolled back while it was FROZEN replays (R498, R499). -/
def State.thawed (s : State) (t : Nat) : State :=
  if s.active t && s.recov.rolled.contains t && s.fld 0x700000 0 3 == 0 then s.startReplay t else s

/-! ## Ring timeouts (R370, R404) -/

/-- Does a command stand in the front end: not dispatched, or one that no unit runs? -/
def RCmd.inFront (c : RCmd) : Bool :=
  c.st == .held || c.op == 0x21 || c.op == 0x20 || decide (0x10 ≤ c.op ∧ c.op ≤ 0x15) || c.op == 0x18 || c.op == 0x19 || c.op == 0x22 || c.op == 0

/-- End a command with TIMEOUT, and fault the tenant. -/
def State.timeOut (s : State) (t : Nat) (ref : CmdRef) : State :=
  let s : State := { s with lrd := { s.lrd with waits := s.lrd.waits.erase (t, ref) } }
  let s := (s.updCmd t ref fun c => { c with status := 8, detail := 0 }).endCmd t ref
  s.raise t 0x02 { ring := ref.info }

/-- The stored or built command that a launch or ROUTE is judged by, its index and whether it stands in the front end. -/
def State.oldestSub (s : State) (t r csn : Nat) : Option (CmdRef × Nat × RCmd) :=
  match s.launch t (some r) csn with
  | some l => (l.cmds.mapIdx fun i c => (CmdRef.stored (some r) csn i, i, c)).find? fun (_, _, c) => c.st != .done
  | none =>
    ((s.front.items.filter fun x => x.tenant == t && x.ref == .ring r csn).flatMap fun x =>
      x.cmds.mapIdx fun i c => (CmdRef.item x.n i, i, c)).find? fun (_, _, c) => c.st != .done

/-- A launch or ROUTE ends with TIMEOUT once what has dispatched of it completes; the rest is not dispatched. -/
def State.stopLaunch (s : State) (t r csn i : Nat) : State :=
  let s := s.updCmd t (.ring r csn) fun c => { c with status := 8, detail := i % 256 * 2 ^ 16 }
  let s := (s.updLaunch t (some r) csn fun l => { l with stopped := true }).endLaunch t (some r) csn
  let waiting := (s.front.items.filter fun x => x.tenant == t && x.ref == .ring r csn && x.phase == 0).map (·.n)
  let s := waiting.foldl (fun s n => s.endItem n) s
  s.raise t 0x02 { ring := some (r, csn) }

/-- A ring's timer has reached RNG_TIMEOUT: its oldest command that has not completed is dealt with. -/
def State.ringTimeout (s : State) (t r : Nat) (progress : Bool) : State :=
  match (s.ringSt t r).cmds.find? fun c => c.st != .done with
  | none => s
  | some c =>
    let ref := CmdRef.ring r c.csn
    let coll (ref : CmdRef) : Option Coll := s.coll.runs.find? fun x => x.tenant == t && x.ref == ref
    let endColl (x : Coll) : State := (s.endColl x 0x38 true).raise t 0x02 { ring := some (r, c.csn) }
    let judgeRef (q : CmdRef) : State := s.judge t 0x02 (s.workRefs t q) { ring := some (r, c.csn), tile := (s.tilesOf t (s.workRefs t q)).head? } progress
    if c.op = 0x0A && c.st == .running then (match coll ref with
      | some x => endColl x
      | none => s.timeOut t ref)
    else if (c.op = 0x1A ∨ c.op = 0x1B) && c.st == .running then
      match s.oldestSub t r c.csn with
      | none => judgeRef ref
      | some (q, i, x) =>
        let none_ := ((s.launch t (some r) c.csn).map fun l => l.next == 0).getD false
        if none_ then
          let s := match s.launch t (some r) c.csn with
            | some l => { (s.releaseBuf l.recipe l.buf) with front :=
                { (s.releaseBuf l.recipe l.buf).front with launches := s.front.launches.filter fun y => !y.is t (some r) c.csn } }
            | none => s
          s.timeOut t ref
        else if x.op = 0x0A && x.st == .running then (match coll q with
          | some y => endColl y
          | none => s.stopLaunch t r c.csn i)
        else if x.inFront then s.stopLaunch t r c.csn i
        else judgeRef q
    else if c.inFront then s.timeOut t ref
    else judgeRef ref

/-- RING_TIMEOUT (R404): only for an ACTIVE tenant outside recovery, whose ring's timer has run out. -/
def execRingTimeout (t r : Nat) (progress : Bool) (s : State) : Host.Outcome State Fault Refusal :=
  if 16 ≤ t ∨ 8 ≤ r ∨ !s.active t ∨ s.inRecovery ∨ (s.ringSt t r).timer < s.fld (rng t r 0x2C) 0 16 then .next s
  else .next ((s.updRing t r fun g => { g with timer := 0 }).ringTimeout t r progress)

/-- The timers at a boundary (R404): a timer restarts when the oldest command changes, and stops in recovery and for a FROZEN
tenant. -/
def State.ringTimers (s : State) (t : Nat) : State :=
  if !s.active t || s.inRecovery then s
  else (List.range 8).foldl (fun s r => s.updRing t r fun g =>
    match g.cmds.find? fun c => c.st != .done with
    | none => { g with timer := 0 }
    | some c => if g.timer ≠ 0 ∧ g.oldest = c.csn then { g with timer := g.timer + 1 } else { g with timer := 1, oldest := c.csn }) s

/-! ## Controllers and control cores (R21, R500, R503) -/

/-- MC_FAILOVER (R503): the active module controller fails; the standby takes over at the next boundary, a second failure is
MC_LOST. -/
def execMcFailover (s : State) : Host.Outcome State Fault Refusal :=
  if s.cat = none ∨ s.boot.state = .halted then .next s
  else if s.recov.mcFailed = 0 then .next (({ s with recov := { s.recov with mcFailed := 1, mcTake := true } } : State).note 0x10 {})
  else .next (s.moduleFault 0x11 {})

/-- The ring as the standby continues it from the copied position `from_`: commands fetched since and not dispatched are fetched
again, dispatched ones are skipped then (R503). -/
def RingSt.takeover (g : RingSt) (from_ : Nat) : RingSt :=
  let since (k : Nat) : Nat := (k + 2 ^ 32 - from_) % 2 ^ 32
  let again (c : RCmd) : Bool := c.st == .held && !c.replay && decide (since c.csn < since g.nextCsn)
  match g.cmds.find? again with
  | none => g
  | some c =>
    let all := (List.range (since g.nextCsn - since c.csn)).map fun i => (c.csn + i) % 2 ^ 32
    { g with cmds := g.cmds.filter fun x => !again x, nextCsn := c.csn,
             skip := all.filter fun k => !g.cmds.any fun x => again x && x.csn == k }

/-- The copy that the standby holds, made at each boundary (R21). -/
def State.mcSave (s : State) : State :=
  { s with recov := { s.recov with mcCopy := s.front.rings.toList.map (·.nextCsn) } }

/-- The standby takes over at a boundary from the copy made at the last one; its use is recorded (R21, R503, R518). -/
def State.mcBoundary (s : State) : State :=
  if !s.recov.mcTake then s.mcSave
  else
    let x : Swap := { kind := 0xB, cause := 3, unit := 0, logical := 0xFFFF, old := 0, new := 1, value := 0,
                      tick := if s.boot.state = .starting then 0 else s.tickNo, at_ := 0, left := 0, noted := true, missed := false }
    let s := if 65535 ≤ s.flash.active.records.length then s.setFlag 0x800600 17 true else s.appendRec x
    let copy := s.recov.mcCopy
    let s := (List.range 128).foldl (fun (s : State) q => s.updRing (q / 8) (q % 8) fun g => g.takeover (copy.getD q g.nextCsn)) s
    ({ s with recov := { s.recov with mcTake := false } } : State).mcSave

/-- CC_FAIL (R486, R500): a control core fails; a tenant that is being frozen stays frozen. -/
def execCcFail (die : Nat) (s : State) : Host.Outcome State Fault Refusal :=
  if 8 ≤ die then .next s else .next (s.computeFault none 0x16 { detail := die } [])

/-- ESCALATION_WINDOW_END (R500): 600 s after the escalated start reached SERVING. -/
def execEscalationWindowEnd (s : State) : Host.Outcome State Fault Refusal :=
  if s.serves then .next { s with recov := { s.recov with window := false, twice := false } } else .next s

end Sys2Proof.Machine
end

