-- ==== Sys2Proof/Machine/Power.lean ====
section
/-!
DEFINITION. Power.lean: limits, law levels, bubbles, droop, THROTTLE#, temperatures, converters and energy (R23, R514, R523 to
R536).
-/

namespace Sys2Proof.Machine

/-! ## Rails and limits (R523, R524, R514) -/

/-- The rails by number: default limit and rating per phase, in A; no limit for VOP. -/
def railDefault (i : Nat) : Nat := if i < 8 then 900 else if i < 16 then 120 else if i < 20 then 300 else if i < 24 then 250 else 0
def railRating (i : Nat) : Nat := if i < 8 then 70 else if i < 16 then 40 else if i < 20 then 60 else if i < 24 then 50 else 40

/-- The limit of a rail from the Catalogue. -/
def State.railConfig (s : State) (i : Nat) : Nat :=
  if 24 ≤ i then 0 else match s.cat.bind fun c => c.rlim[i]? with
    | some 0 => railDefault i
    | some v => v
    | none => railDefault i

/-- The enforced limit of a rail in A (R514). -/
def State.railLimit (s : State) (i : Nat) : Nat :=
  let l := s.railConfig i
  if i < 20 && decide (s.goodPhases i < activePhases i) then min l (85 * s.goodPhases i * railRating i / 100) else l

/-- Show the limits in force and from the Catalogue. -/
def State.showLimits (s : State) : State :=
  (List.range 28).foldl (fun s i => (s.setFld (0x900100 + 4 * i) 0 12 (s.railLimit i)).setFld (0x900100 + 4 * i) 16 12 (s.railConfig i)) s

/-! ## Levels (R527 to R529, R533) -/

def State.railLevel (s : State) (i : Nat) : Nat := s.fld (0x900200 + 4 * i) 24 6
def State.thermal (s : State) (d : Nat) : Nat := s.fld (0x900300 + 8 * d) 14 6

/-- The enforced rails that feed a compute die. -/
def dieRails (d : Nat) : List Nat := [d, 8 + d, 16 + d / 2, 20 + d / 2]

/-- The causes of a die's bubble level: level, cause, rail. -/
def State.bubbleCauses (s : State) (d : Nat) : List (Nat × Nat × Nat) :=
  (dieRails d).map (fun i => (s.railLevel i, 1, i)) ++
  [(s.pwr.modLevel, 2, 0), (s.thermal d, 3, 0), (if s.flag 0x90000C 0 then 48 else 0, 4, 0), (if s.pwr.droop.contains d then 32 else 0, 5, 0)]

/-- The bubble level in force on a die's tiles (R529): the largest, capped at 63; on a tie the first cause in R536's order. -/
def State.bubble (s : State) (d : Nat) : Nat × Nat × Nat :=
  let best := (s.bubbleCauses d).foldl (fun (m : Nat × Nat × Nat) x => if m.1 < x.1 then x else m) (0, 0, 0)
  (min 63 best.1, best.2)

/-- Show PWR_DIE of every die, with the LEVEL event of one whose level changes (R539). -/
def State.showDies (s : State) : State :=
  (List.range 8).foldl (fun (s : State) d =>
    let (l, c, r) := s.bubble d
    let s := if s.fld (0x900300 + 8 * d) 0 6 = l then s
      else s.event 0x0A none none d (leBytes 1 l ++ leBytes 1 c ++ leBytes 1 r) (0, 0)
    ((s.setFld (0x900300 + 8 * d) 0 6 l).setFld (0x900300 + 8 * d) 6 3 c).setFld (0x900300 + 8 * d) 9 5 r) s

/-- The law of R528 on a sample and a limit. -/
def lawLevel (lev x lim : Nat) : Nat :=
  if lim < x then min 63 (lev + ceilDiv ((64 - lev) * (x - lim)) x)
  else if 100 * x < 97 * lim ∧ 0 < lev then lev - 1 else lev

/-- The latest ten samples, and their mean. -/
def window (xs : List Nat) (x : Nat) : List Nat := (x :: xs).take 10
def meanOf (xs : List Nat) : Nat := if xs.isEmpty then 0 else xs.sum / xs.length

/-! ## Energy (R535) -/

/-- Split an amount over weights; each share is rounded down, and what remains goes to the first. -/
def shareOut {κ : Type} (n : Nat) (ws : List (κ × Nat)) : List (κ × Nat) :=
  let ws := ws.filter fun (_, w) => w ≠ 0
  let total := (ws.map (·.2)).sum
  let parts := ws.map fun (k, w) => (k, n * w / total)
  let rest := n - (parts.map (·.2)).sum
  parts.mapIdx fun i (k, v) => (k, if i = 0 then v + rest else v)

/-- A counter of energy: a payee, or IDLE. -/
abbrev EKey := Option Payee

/-- Where a counter's µJ stand, and the key of its nJ. -/
def ekeyAddr : EKey → Nat × Nat
  | none => (0x900808, 256)
  | some .bg => (0x900810, 257)
  | some (.ladle t) => (0x901008 + 0x80 * t, 16 * t)
  | some (.ring t r) => (0x901010 + 0x80 * t + 8 * r, 16 * t + 1 + r)

/-- Charge a counter with nJ (R535): the µJ shown are rounded down. -/
def State.chargeAt (s : State) (addr key n : Nat) : State :=
  let v := (aget s.pwr.nano key).getD 0 + n
  { s.addQuad addr (v / 1000) with pwr := { s.pwr with nano := aput s.pwr.nano key (v % 1000) } }

/-- The charges of a sample: VCD and VSM by issue cycles, VIO and VHB by bytes moved, VOP by packet bytes, the rest of the
input in proportion to these. -/
def powerCharges (x : PowerIn) : List (EKey × Nat) :=
  let nj (i : Nat) : Nat := x.railNj.getD i 0
  let pay (n : Nat) (ws : List (EKey × Nat)) : List (EKey × Nat) := if (ws.map (·.2)).sum = 0 then [(none, n)] else shareOut n ws
  let tiles := (List.range 8).flatMap fun d =>
    pay (nj d + nj (8 + d)) ((x.issue.filter fun (t, _, _) => t / 16 == d).map fun (_, p, c) => (some p, c))
  let of_ (t : Nat) : List (EKey × Nat) := tiles.filter fun (k, _) => match k with
    | some (.ring u _) => u == t
    | some (.ladle u) => u == t
    | _ => false
  let split (n : Nat) (ts : List (Nat × Nat)) : List (EKey × Nat) :=
    if (ts.map (·.2)).sum = 0 then [(none, n)]
    else (shareOut n ts).flatMap fun (t, v) => if ((of_ t).map (·.2)).sum = 0 then [(some (.ladle t), v)] else shareOut v (of_ t)
  let iods := (List.range 4).flatMap fun k =>
    split (nj (16 + k) + nj (20 + k)) ((x.moved.filter fun (d, _, _) => d == k).map fun (_, t, b) => (t, b)) ++
    split (nj (24 + k)) ((x.pkts.filter fun (d, _, _) => d == k).map fun (_, t, b) => (t, b))
  let got := tiles ++ iods
  got ++ pay (x.inNj - x.railNj.sum) got

/-- Carry out the charges of a sample. -/
def State.charge (s : State) (x : PowerIn) : State :=
  let s := (powerCharges x).foldl (fun (s : State) (k, n) => s.chargeAt (ekeyAddr k).1 (ekeyAddr k).2 n) (s.chargeAt 0x900800 258 x.inNj)
  (List.range 16).foldl (fun (s : State) t =>
    s.setQuad (0x901000 + 0x80 * t) (((List.range 9).map fun i => s.quad (0x901008 + 0x80 * t + 8 * i)).sum % 2 ^ 64)) s

/-! ## Samples (R526, R528) -/

/-- A rail's sample: the window, AVG, MAX and, for an enforced rail, the law level. -/
def State.railSample (s : State) (i ma : Nat) : State :=
  let w := window (s.pwr.rails.getD i []) ma
  let rails := (List.range 28).map fun j => if j = i then w else s.pwr.rails.getD j []
  let s : State := { s with pwr := { s.pwr with rails := rails } }
  let o := 0x900200 + 4 * i
  let avg := min (meanOf w / 1000) 4095
  let s := (s.setFld o 0 12 avg).setFld o 12 12 (max (s.fld o 12 12) avg)
  if i < 24 then s.setFld o 24 6 (lawLevel (s.railLevel i) ma (1000 * s.railLimit i)) else s

/-- Phases that cross PHASE_DEV or PHASE_TEMP fall due at the next boundary (R508, R514). -/
def State.phaseSample (s : State) (rail phase dev temp : Nat) : State :=
  let w := s.wear
  let hit := if decide (w.phaseDev < dev) then some dev else if decide (w.phaseTemp < temp) then some temp else none
  match hit with
  | some v => if 20 ≤ rail ∨ s.acc.phases.contains (rail, phase) ∨ s.swapKnown 9 rail phase then s else s.makeDue (s.phaseSwap rail phase 1 v)
  | none => s

/-- A sample of the power measurement. -/
def State.powerSample (s : State) (x : PowerIn) : State :=
  let vin := window s.pwr.vin x.vin
  let pin := window s.pwr.pin x.pin
  let s : State := { s with pwr := { s.pwr with vin := vin, pin := pin, iin := x.iin } }
  let s := (s.setFld 0x900000 0 16 (meanOf vin)).setFld 0x900000 16 16 (meanOf pin / 1000)
  if !s.serves then s
  else
    let s := s.showLimits
    let s := (x.rails.zipIdx.take 28).foldl (fun (s : State) (ma, i) => s.railSample i ma) s
    let lev := lawLevel s.pwr.modLevel x.pin (1000 * s.fld 0x900004 0 13)
    let s : State := { s with pwr := { s.pwr with modLevel := lev } }
    let s := (s.setFlag 0x900004 30 (decide (0 < lev))).showDies
    let s := x.phases.foldl (fun (s : State) (r, p, d, t) => s.phaseSample r p d t) s
    s.charge x

/-- POWER_SAMPLE (R526, R528, R535). -/
def execPowerSample (x : PowerIn) (s : State) : Host.Outcome State Fault Refusal := .next (s.powerSample x)

/-- PWR_MOD_LIMIT (R536). -/
def State.modLimit (s : State) (v : Nat) : State :=
  if 3000 ≤ v ∧ v ≤ s.fld 0x900004 16 13 then s.setFld 0x900004 0 13 v else s.setFlag 0x900004 31 true

/-- PWR_MOD_LIMIT_WRITE (R536): a written BAD bit clears it first. -/
def execPwrModLimitWrite (value : W32) (s : State) : Host.Outcome State Fault Refusal :=
  if !s.serves then .next s
  else .next ((if bitOf value.toNat 31 then s.setFlag 0x900004 31 false else s).modLimit (value.toNat % 2 ^ 13))

/-! ## Temperatures (R486, R526, R533, R534) -/

/-- The compute dies that a source's temperature concerns: CD0 to CD7, IOD0 to IOD3, H0 to H15. -/
def sourceDies (j : Nat) : List Nat := if j < 8 then [j] else if j < 12 then [2 * (j - 8), 2 * (j - 8) + 1] else [2 * ((j - 12) / 4), 2 * ((j - 12) / 4) + 1]

def State.temp (s : State) (j : Nat) : Int := s.pwr.temps.getD j 0

/-- Set a source's temperature, with PWR_TEMP. -/
def State.setTemp (s : State) (j : Nat) (v : Int) : State :=
  let first := s.pwr.temps.isEmpty
  let temps := (List.range 28).map fun i => if i = j then v else s.pwr.temps.getD i v
  let o := 0x900400 + 4 * j
  let byte (x : Int) : Nat := (x % 256).toNat
  let old : Int := let b := s.fld o 8 8; if b < 128 then (b : Int) else (b : Int) - 256
  let s : State := { s with pwr := { s.pwr with temps := temps } }
  (s.setFld o 0 8 (byte v)).setFld o 8 8 (byte (if first || decide (old < v) then v else old))

/-- One sensor's reading: source, sensor, °C. THERMAL_HOT at each rise above 100 °C; the result says whether the sensor has newly
reached 110 °C. -/
def State.sensor (s : State) (j i : Nat) (v : Int) : State × Bool :=
  let id := 4 * j + i
  let s :=
    if 100 < v then
      (if s.pwr.hot.contains id then s
       else (({ s with pwr := { s.pwr with hot := id :: s.pwr.hot } } : State).note 0x14 { detail := j }).alert 1)
    else { s with pwr := { s.pwr with hot := s.pwr.hot.filter (· ≠ id) } }
  if 110 ≤ v then ({ s with pwr := { s.pwr with tripped := id :: s.pwr.tripped.filter (· ≠ id) } }, !s.pwr.tripped.contains id)
  else ({ s with pwr := { s.pwr with tripped := s.pwr.tripped.filter (· ≠ id) } }, false)

/-- The readings of a sample of temperatures. -/
def State.tempSample (s : State) (xs : List (Nat × Nat × Int)) : State :=
  let xs := xs.filter fun (j, i, _) => decide (j < 28) && decide (i < 4)
  let (s, trips) := xs.foldl (fun (acc : State × List Nat) (j, i, v) =>
    let (s, hit) := acc.1.sensor j i v
    (s, if hit then acc.2 ++ [j] else acc.2)) (s, [])
  let srcs := (xs.map (·.1)).eraseDups
  let s := srcs.foldl (fun (s : State) j =>
    let vs := (xs.filter fun (k, _, _) => k == j).map fun (_, _, v) => v
    s.setTemp j (vs.foldl (fun (m : Int) (v : Int) => if m < v then v else m) (vs.headD 0))) s
  let s := match trips.head? with
    | none => s
    | some j =>
      let held := (trips.flatMap sourceDies).eraseDups
      let s := ({ s with pwr := { s.pwr with held := (s.pwr.held ++ held).eraseDups } } : State).alert 2
      let s := held.foldl (fun (s : State) d => s.setFld (0x900300 + 8 * d) 14 6 63) s
      s.showDies.computeFault none 0x15 { detail := j } []
  match xs.find? fun (_, _, v) => decide (125 ≤ v) with
  | none => s
  | some (j, _, _) => if j < 8 then s.computeFault none 0x17 { detail := j } [] else s.moduleFault 0x18 { detail := j }

/-- TEMP_SAMPLE (R526, R534): readings as (source, sensor, °C). -/
def execTempSample (xs : List (Nat × Nat × Int)) (s : State) : Host.Outcome State Fault Refusal :=
  if s.boot.state = .standby then .next s else .next (s.tempSample xs)

/-- The highest temperature that a die's thermal level follows. -/
def State.dieTemp (s : State) (d : Nat) : Int :=
  let js := [d, 8 + d / 2] ++ (List.range 4).map fun i => 12 + 4 * (d / 2) + i
  (js.map s.temp).foldl (fun (m : Int) (v : Int) => if m < v then v else m) (s.temp d)

/-- THERMAL_UPDATE (R533, R534): every 100 µs. -/
def execThermalUpdate (s : State) : Host.Outcome State Fault Refusal :=
  if !s.serves then .next s
  else .next ((List.range 8).foldl (fun (s : State) d =>
    let t := s.dieTemp d
    let cur := s.thermal d
    let put (s : State) (v : Nat) : State := s.setFld (0x900300 + 8 * d) 14 6 v
    if s.pwr.held.contains d && decide (97 < t) then put s 63
    else
      let s : State := { s with pwr := { s.pwr with held := s.pwr.held.filter (· ≠ d) } }
      if 100 < t then put s (min 63 (cur + 4)) else if 97 < t then s else put s (cur - 4)) s).showDies

/-! ## Droop and THROTTLE# (R531, R532) -/

/-- DROOP_DETECT (R531). -/
def execDroopDetect (d : Nat) (s : State) : Host.Outcome State Fault Refusal :=
  if 8 ≤ d ∨ !s.serves ∨ s.pwr.droop.contains d then .next s
  else .next (({ s with pwr := { s.pwr with droop := d :: s.pwr.droop } } : State).bump (0x900304 + 8 * d) 1).showDies

/-- DROOP_RELEASE (R531). -/
def execDroopRelease (d : Nat) (s : State) : Host.Outcome State Fault Refusal :=
  .next ({ s with pwr := { s.pwr with droop := s.pwr.droop.filter (· ≠ d) } } : State).showDies

/-- THROTTLE_LOW (R532), at a time in ns. -/
def execThrottleLow (at_ : Nat) (s : State) : Host.Outcome State Fault Refusal :=
  if s.pins.throttle then .next s
  else .next { s with pins := { s.pins with throttle := true }, pwr := { s.pwr with lowAt := some at_, highAt := none } }

/-- THROTTLE_ACCEPT (R532): low for 10 µs without interruption. -/
def execThrottleAccept (at_ : Nat) (s : State) : Host.Outcome State Fault Refusal :=
  match s.pwr.lowAt with
  | none => .next s
  | some l =>
    if !s.pins.throttle ∨ at_ < l + 10000 ∨ !s.serves then .next s
    else
      let s := (((s.setFlag 0x90000C 0 true).setFlag 0x90000C 1 true).bump 0x900010 1).modEvent 5
      .next ({ s with pwr := { s.pwr with lowAt := none, floorAt := some at_ } } : State).showDies

/-- THROTTLE_HIGH (R532): a low shorter than 10 µs is ignored and counted. -/
def execThrottleHigh (at_ : Nat) (s : State) : Host.Outcome State Fault Refusal :=
  if !s.pins.throttle then .next s
  else
    let glitch := match s.pwr.lowAt with
      | some l => decide (at_ < l + 10000)
      | none => false
    let s := if glitch && s.serves then s.bump 0x900014 1 else s
    .next { s with pins := { s.pins with throttle := false }, pwr := { s.pwr with lowAt := none, highAt := some at_ } }

/-- THROTTLE_RELEASE (R532): after 100 µs of floor and 10 µs of high input. -/
def execThrottleRelease (at_ : Nat) (s : State) : Host.Outcome State Fault Refusal :=
  match s.pwr.floorAt, s.pwr.highAt with
  | some f, some h =>
    if s.pins.throttle ∨ at_ < f + 100000 ∨ at_ < h + 10000 then .next s
    else .next (({ s with pwr := { s.pwr with floorAt := none } } : State).setFlag 0x90000C 0 false).showDies
  | _, _ => .next s

/-! ## Converters, rails and the input (R23, R484, R525) -/

/-- CONVERTER_FAIL (R23): one is reported; with two or more power-good is lost (R42), and the module resets and stays in HALTED. -/
def execConverterFail (n : Nat) (s : State) : Host.Outcome State Fault Refusal :=
  if 4 ≤ n ∨ !bitOf s.pins.conv n then .next s
  else
    let left := s.pins.conv - 2 ^ n
    let ok := s.boot.inputOk && decide (3 ≤ popcount 4 left)
    let s : State := { s with
      pins := { s.pins with conv := left, pwrgd := ok, boardTest := ok && s.pins.boardTest }, boot := { s.boot with inputOk := ok } }
    let s := ((s.setFlag 0x900008 n false).setFlag 0x900008 (4 + n) true).alert 3
    let s := s.modEvent 6
    if 3 ≤ popcount 4 s.pins.conv then .next (s.note 0x12 { detail := n })
    else .next (((s.moduleEntry 0x13 { detail := n }).fullReset true).halt hrConverter)

/-- The place of a rail in the order of R523: VIO, VSM, VCD, VHB, VOP. -/
def railRank (i : Nat) : Nat := if i < 8 then 12 + i else if i < 16 then i - 4 else if i < 20 then i - 16 else i

/-- RAIL_FAULT (R486, R525): a rail that has come up leaves regulation. -/
def execRailFault (i : Nat) (s : State) : Host.Outcome State Fault Refusal :=
  if 28 ≤ i ∨ s.boot.railsUp ≤ railRank i ∨ s.boot.state = .standby ∨ s.boot.state = .halted then .next s
  else if i < 16 then .next (s.computeFault none 0x17 { detail := i } [])
  else .next (s.moduleFault 0x18 { detail := i })

/-- POWER_GOOD_LOSS (R502, R525): the input outside 40 to 60 V for more than 50 µs. `out` says that it was lost altogether, and the
always-on controller with it. -/
def execPowerGoodLoss (out : Bool) (s : State) : Host.Outcome State Fault Refusal :=
  if !s.pins.v48 then .next s
  else
    let s := (s.fullReset false).alert 4
    let s : State := { s with
      pins := { s.pins with v48 := false, pwrgd := false, boardTest := false, conv := 0 }, boot := { s.boot with inputOk := false } }
    .next (if out then { s with aoc := Aoc.reset } else s)

end Sys2Proof.Machine
end

