-- ==== Sys2Proof/Machine/Ports.lean ====
section
/-!
DEFINITION. Ports.lean: Vitrine's settings and trace port, the JTAG TAP and the management bus (R544 to R547, R571, R576,
R577).
-/

namespace Sys2Proof.Machine

/-! ## Vitrine (R544, R546) -/

/-- VIT_RESTART (R544): the restart waits for the next boundary. -/
def execVitRestart (s : State) : Host.Outcome State Fault Refusal :=
  if !s.serves then .next s else .next { s with vit := { s.vit with restart := true } }

/-- TRACE_FRAME_SEND (R546): a frame of the events on hand, while the port is enabled. -/
def execTraceFrameSend (s : State) : Host.Outcome State Fault Refusal :=
  if s.serves && bitOf s.vit.ctl 2 then .next s.sendFrame else .next s

/-- The settings written in the last tick take effect (R544). -/
def State.vitBoundary (s : State) : State :=
  let ctl := s.fld 0xA00000 0 3
  let wrap := !bitOf ctl 1
  let s := if s.vit.restart then (s.setQuad 0xA00010 0).setFlag 0xA0000C 0 false else s
  let s := if wrap then s.setFlag 0xA0000C 0 false
    else if 2 ^ 23 ≤ s.quad 0xA00010 then s.setFlag 0xA0000C 0 true else s
  { s with vit := { s.vit with
      ctl := ctl, kinds := s.fld 0xA00004 0 15, tenants := s.fld 0xA00008 0 17, restart := false,
      frame := if bitOf ctl 2 then s.vit.frame else [] } }

/-! ## JTAG (R547, R571) -/

/-- The level of an output pin: the boundary cell's while EXTEST drives it, else the module's. -/
def State.pinLevel (s : State) (cell : Nat) (own : Bool) : Bool :=
  if s.pins.boardTest && s.aoc.jtag.ir == 0 then s.aoc.jtag.cells.getD cell own else own

/-- The electrical levels of the low-speed signals in the order of R571: MATED#, PERST#, PWRGD, THROTTLE#, SLOT_ID[0] to
SLOT_ID[5], BOARD_TEST, SMB_CLK, SMB_DAT, SMB_ALERT#, TICK_IN, TICK_OUT. The straps' and the bus's levels at this moment are free
values. -/
def State.levels (s : State) : List Bool × State :=
  let (f, s) := s.free
  let p := s.pins
  ([!p.mated, !p.perst, s.pinLevel 2 p.pwrgd, !p.throttle] ++ (List.range 6).map (bitOf f) ++
   [p.boardTest, bitOf f 6, bitOf f 7, s.pinLevel 13 (!p.smbAlert), p.tickIn, s.pinLevel 15 p.tickOut], s)

def State.setTap (s : State) (ir : Nat) (cells : List Bool) : State :=
  { s with aoc := { s.aoc with jtag := { ir := ir, cells := cells } } }

/-- The captured levels leave on TDO, `bits` become the cells. -/
def State.boundaryScan (s : State) (ir : Nat) (bits : List Bool) : State :=
  if !s.pins.boardTest then s
  else
    let (levels, s) := s.levels
    (s.setTap ir ((bits ++ List.replicate 16 true).take 16)).send (.jtag levels)

/-- JTAG_EXTEST (R547): the cells shifted in drive the outputs. -/
def execJtagExtest (bits : List Bool) (s : State) : Host.Outcome State Fault Refusal := .next (s.boundaryScan 0 bits)

/-- JTAG_SAMPLE_PRELOAD (R547): the cells are sampled and loaded. -/
def execJtagSamplePreload (bits : List Bool) (s : State) : Host.Outcome State Fault Refusal := .next (s.boundaryScan 1 bits)

/-- The device identity (R547). -/
def idcode : Nat := 0x04816735

/-- JTAG_IDCODE (R547): least significant bit first. -/
def execJtagIdcode (s : State) : Host.Outcome State Fault Refusal :=
  if !s.pins.boardTest then .next s
  else .next ((s.setTap 2 s.aoc.jtag.cells).send (.jtag ((List.range 32).map (bitOf idcode))))

/-- JTAG_BYPASS (R547): 0xF and every other code; what is shifted in comes out one bit later. -/
def execJtagBypass (code : Nat) (bits : List Bool) (s : State) : Host.Outcome State Fault Refusal :=
  if !s.pins.boardTest ∨ 16 ≤ code ∨ code ≤ 2 then .next s
  else .next ((s.setTap 0xF s.aoc.jtag.cells).send (.jtag ((false :: bits).take bits.length)))

/-! ## The management bus (R576, R577) -/

/-- The always-on controller answers while the input lies in range. -/
def State.smbLive (s : State) : Bool := s.pins.v48

def State.smbRead (s : State) (data : List Byte) : State := if s.smbLive then s.send (.smb data) else s.send .smbNack

/-- SMB_STATUS (R577). -/
def execSmbStatus (s : State) : Host.Outcome State Fault Refusal :=
  let pins := s.pins.perst.toNat + 2 * (!s.pins.mated).toNat + 4 * s.pins.boardTest.toNat + 8 * (s.fld 0x90000C 0 1)
  .next (s.smbRead (leBytes 1 s.boot.state.code ++ leBytes 1 (s.fld 0x120 0 4) ++ leBytes 1 (s.fld 0x120 8 8) ++ leBytes 1 pins))

/-- SMB_POWER (R577): VIN in 10 mV, IIN in 0.1 A, PIN in W, PWR_CONV.GOOD. -/
def execSmbPower (s : State) : Host.Outcome State Fault Refusal :=
  .next (s.smbRead (leBytes 2 (meanOf s.pwr.vin) ++ leBytes 2 (s.pwr.iin / 100) ++ leBytes 2 (meanOf s.pwr.pin / 1000) ++
    leBytes 1 s.pins.conv ++ leBytes 1 0))

/-- The source with the highest temperature, the lowest of equal ones. -/
def hottest (ts : List Int) : Nat :=
  (ts.zipIdx.foldl (fun (m : Int × Nat) x => if m.1 < x.1 then x else m) (ts.headD 0, 0)).2

/-- SMB_TEMP (R577). -/
def execSmbTemp (s : State) : Host.Outcome State Fault Refusal :=
  let ts := s.pwr.temps
  let j := hottest ts
  let top := if ts.isEmpty then 0x80 else ((ts.getD j 0) % 256).toNat
  .next (s.smbRead (leBytes 1 top ++ leBytes 1 j ++ leBytes 1 (ts.filter fun t => decide (100 < t)).length ++ leBytes 1 0))

/-- SMB_IDENT (R577): MOD_SERIAL, MOD_ID, MOD_FW. -/
def execSmbIdent (s : State) : Host.Outcome State Fault Refusal :=
  .next (s.smbRead (s.getBytes 0x10 8 ++ s.getBytes 0x0 4 ++ s.getBytes 0x20 4))

/-- SMB_POSITION (R577). -/
def execSmbPosition (s : State) : Host.Outcome State Fault Refusal :=
  .next (s.smbRead (leBytes 1 (s.aoc.slotId.getD 0xFF) ++ leBytes 1 (if s.flag 0xC 17 then s.fld 0xC 0 6 else 0xFF)))

/-- SMB_ALERT (R577). -/
def execSmbAlert (s : State) : Host.Outcome State Fault Refusal := .next (s.smbRead (leBytes 2 (s.aoc.alert % 64)))

/-- SMB_ALERT_CLR (R577): the causes named are cleared; SMB_ALERT# stays asserted while one is left. -/
def execSmbAlertClr (causes : Nat) (s : State) : Host.Outcome State Fault Refusal :=
  if !s.smbLive then .next (s.send .smbNack)
  else
    let left := s.aoc.alert - (s.aoc.alert &&& causes)
    .next { s with aoc := { s.aoc with alert := left }, pins := { s.pins with smbAlert := left != 0 } }

/-- SMB_UNLISTED_COMMAND (R576). -/
def execSmbUnlistedCommand (s : State) : Host.Outcome State Fault Refusal := .next (s.send .smbNack)

end Sys2Proof.Machine
end

