-- ==== Sys2Proof/Machine/Start.lean ====
section
/-!
DEFINITION. Start.lean: the start sequence (R39 to R45, R69, R424, R473, R515 to R520, R523).
-/

namespace Sys2Proof.Machine

def State.setStep (s : State) (k : Nat) : State := s.setFld 0x120 0 4 k

/-! ## Steps 1 to 3 (R39 to R42, R523) -/

/-- Step 1: the firmware. With none, the boot ROM runs the mailbox (R48). -/
def State.startFirmware (s : State) : State :=
  match firmwareChoice s.flash s.fuses with
  | none => ({ s with boot := { s.boot with bootRom := true } } : State).halt hrNoFirmware
  | some (slot, f, fallback) =>
    let s : State := { s with boot := { s.boot with fwUse := some f } }
    let s := (s.setFld 0x120 4 1 slot).setFlag 0x120 6 fallback
    ((s.setWord 0x20 (BitVec.ofNat 32 f.version)).setWord 0x8 (BitVec.ofNat 32 f.ncv)).setStep 2

/-- Show the Catalogue in use (R52, R563). -/
def State.showCat (s : State) (c : Cat) : State :=
  let s := (s.setWord 0xC (BitVec.ofNat 32 (c.moduleId + c.moduleId / 2 * 2 ^ 8 + c.moduleId % 2 * 2 ^ 16 + 2 ^ 17))).setQuad 0x18 c.domainId
  let s := (s.setFld 0x24 16 2 c.keySlot).setFlag 0x24 18 true
  (s.setQuad 0x128 c.sequence).setBytes 0x140 c.digest

/-- Step 2: SLOT_ID is sampled, and the Catalogue chosen; one that names no module for the slot is not in use (log entry 155). The start that follows a second escalation stops before step 3 (R502). -/
def State.startCatalogue (s : State) (slotId : Nat) : State :=
  let s : State := { s.setFld 0x120 16 6 slotId with aoc := { s.aoc with slotId := some (slotId % 64) } }
  match catChoice s.flash s.fuses ((s.boot.fwUse.map (·.ncv)).getD 0) (slotId % 64) with
  | none => s.halt hrNoCatalogue
  | some (slot, fallback, c) =>
    let s := (s.setFld 0x120 5 1 slot).setFlag 0x120 7 fallback
    match c with
    | none => s.halt hrNoSection
    | some c =>
      let s := ({ s with boot := { s.boot with cat := some c } } : State).showCat c
      if s.recov.twice then s.halt hrEscalated else s.setStep 3

/-- Step 3: the rails come up in order, and the module controllers start. -/
def State.startRails (s : State) (x : StartIn) : State :=
  let s : State := { s with boot := { s.boot with railsUp := min 28 x.rails } }
  if x.rails < 28 then s.halt hrRailFail
  else ({ s with recov := { s.recov with mcFailed := if x.standbyOk then 0 else 1 } } : State).setStep 4

/-! ## Step 4: the accession log (R15, R515 to R520) -/

/-- The effect of a record on the accession map. -/
def State.replayRec (s : State) (r : AccRec) : State :=
  match r.kind with
  | 8 => s.updPort r.unit fun p => { p with lanes := p.lanes.mapIdx fun i b => b && i != r.old }
  | 9 => { s with acc := { s.acc with phases := pset2 s.acc.phases (r.unit, r.old) } }
  | 0xB => { s with recov := { s.recov with mcFailed := 1 } }
  | _ => s.applySwap (newSwap r.kind r.cause r.unit r.logical r.old r.new r.value 0)
where
  pset2 (l : List (Nat × Nat)) (x : Nat × Nat) : List (Nat × Nat) := if l.contains x then l else l ++ [x]

/-- The records of a half in SEQ order, without those whose CRC fails (R520). -/
def sortRecs (rs : List (List Byte)) : List AccRec := (rs.filterMap accRec).mergeSort fun a b => decide (a.seq ≤ b.seq)

/-- Does a later record undo `r`: a page put back, a physical tile taken out, a position assigned again? -/
def AccRec.undone (r : AccRec) (later : List AccRec) : Bool :=
  later.any fun q =>
    (r.kind == 6 && q.kind == 7 && q.unit == r.unit && q.old == r.old) ||
    ((r.kind == 1 || r.kind == 2 || r.kind == 3 || (r.kind == 0xA && decide (18 ≤ r.old))) && q.unit == r.unit &&
      (q.kind == 4 || q.kind == 5 || (q.kind == 0xA && decide (q.old < 18))))

/-- The physical tiles of a die that were skipped at manufacture (R15): positions are assigned in increasing physical order, so every
tile below the last one assigned that has no position of its own was retired then (log entry 64). -/
def skippedTiles (rs : List AccRec) (die : Nat) : List Nat :=
  let given := (rs.filter fun r => r.kind == 4 && decide (18 ≤ r.old) && r.unit % 8 == die).map (·.new)
  (List.range (given.foldl max 0)).filter fun p => !given.contains p

/-- Tiles skipped at manufacture are no spares (R15). -/
def State.markSkipped (s : State) (rs : List AccRec) : State :=
  (List.range 8).foldl (fun s die => (skippedTiles rs die).foldl (fun s p => s.updPtile (pkey die p) fun x => { x with out := true }) s) s

/-- The records whose effect the map still holds, in order (R520); an HBM_RESTORE goes with the HBM_PAGE that it undoes, and the
records of the manufacture stay, which tell the spares. -/
def compactRecs : List AccRec → List AccRec
  | [] => []
  | r :: rs => if r.kind = 7 ∨ r.undone rs then compactRecs rs else r :: compactRecs rs

/-- Compaction into the other half, whose header comes last. -/
def Flash.compact (f : Flash) : Flash :=
  let h := f.active
  if h.records.length < 58982 then f
  else
    let new : AccHalf := { header := accHeader (h.gen.getD 0 + 1), records := (compactRecs (sortRecs h.records)).map (·.bytes) }
    if f.activeB then { f with accA := new } else { f with accB := new }

/-- Step 4: the map is that of a die with its first sixteen tiles in place, changed by the active half's records in SEQ order. -/
def State.startMap (s : State) : State :=
  let s : State := { s with tiles := s.tiles.mapFinIdx fun n (t : Tile) _ => { t with phys := some (n % 16) } }
  let rs := sortRecs s.flash.active.records
  let s := rs.foldl (fun s r => s.replayRec r) (s.markSkipped rs)
  let s := (List.range 128).foldl (fun s n => s.showWidth n) s
  ({ s with flash := s.flash.compact } : State).setStep 5

/-! ## Step 5: HBM (R513) -/

/-- Append a record made during a start; a full half takes none (R518, R519). -/
def State.startRec (s : State) (x : Swap) : State :=
  if 65535 ≤ s.flash.active.records.length then s.setFlag 0x800600 17 true else s.appendRec { x with tick := 0 }

/-- Step 5: training, and post-package repair of retired pages. -/
def State.startHbm (s : State) (x : StartIn) : State :=
  if !x.hbmOk then s.halt hrHbmTrain
  else
    (x.repaired.foldl (fun (s : State) (g, page) =>
      if (aget s.acc.pages (pageKey g page)).isNone then s
      else
        let y := newSwap 7 5 g 0xFFFF page noneLeft 0 0
        (s.startRec y).applySwap y) s).setStep 6

/-! ## Step 6: links (R43, R330, R342) -/

/-- Every used attachment begins to join, and both twin ports train. -/
def State.startLinks (s : State) : State :=
  let s := (List.range 8).foldl (fun s k =>
    let s := s.setFlag (attReg k) 2 true
    if s.attUsed k then
      ((s.setFld (attReg k) 8 7 (s.attRec k).ring).setFld (attReg k) 16 5 (s.attRec k).position).setAtt k asJoin
    else s) s
  (s.setPort 16 psJoin).setPort 17 psJoin

/-- Is the step over: no used attachment joins any more, and one at least is up? -/
def State.linksDone (s : State) : Bool :=
  s.anyAttUp && (List.range 8).all fun k => s.attState k != asJoin

/-- Step 6, up to the joins, which have commands of their own; the next step begins with the census (R69). -/
def State.startJoin (s : State) : State :=
  if s.portState 16 = psDark ∧ s.portState 17 = psDark then s.startLinks
  else if s.linksDone then
    ({ s with tick := { s.tick with heard := false } }.setStep 7).flood (.census s.moduleId (s.quad 0x10))
  else s

/-! ## Step 7: the tick (R69, R473) -/

/-- Step 7 ends with the lock; a module that does not hold the master role asks for the serving table. -/
def State.startTick (s : State) : State :=
  if !s.tick.locked then s
  else
    let s := if s.isMaster then s
      else ({ s with pair := { s.pair with asked := true } } : State).sendCtl (s.fld 0x10004 8 6) .tableRequest
    s.setStep 8

/-! ## Step 8: the compute part (R424, R511, R516, R519) -/

def testUnit (c i : Nat) : TestUnit := if c = 0 then .col i else if c = 1 then .lane i else if c = 2 then .bank i else .tile

/-- Swaps found necessary by the start's tests take effect at once, each with its record. -/
def State.startSwaps (s : State) : State :=
  let xs := s.acc.due
  let s : State := { s with acc := { s.acc with due := [] } }
  xs.foldl (fun s x => (s.startRec x).endSwap x) s

/-- A unit that fails its start test: a tile, or a second lane of one, retires the tile. -/
def State.startFail (s : State) (k c i : Nat) : State :=
  let s := match s.logicalOf k, c with
    | some n, 3 => s.retire n 2 1 false
    | some n, 1 => if i ≠ 64 ∧ !(s.ptile k).badLanes.isEmpty ∧ !(s.ptile k).badLanes.contains i then s.retire n 4 1 false
      else s.unitFails k (testUnit c i) 1
    | _, _ => s.unitFails k (testUnit c i) 1
  s.startSwaps

/-- Step 8: tests, spare tiles first, then every scratchpad and all serviceable HBM reads zero. -/
def State.startCompute (s : State) (x : StartIn) : State :=
  if !x.initOk then s.halt hrComputeInit
  else
    let spares := x.fails.filter fun (k, _, _) => (s.logicalOf k).isNone
    let others := x.fails.filter fun (k, _, _) => (s.logicalOf k).isSome
    let s := (spares ++ others).foldl (fun s (k, c, i) => s.startFail k c i) s
    let s : State := { s with
      tiles := s.tiles.map fun (t : Tile) => { Tile.reset with phys := t.phys, width := t.width },
      hbm := [], hbmBad := [], msc := { s.msc with lines := [] }, drc := [], boot := { s.boot with ready9 := true } }
    s.setStep 9

/-! ## START_SEQUENCE (R42) -/

/-- One step, if the start stands at it. -/
def State.startAt (s : State) (k : Nat) (f : State → State) : State := if s.startStep = k then f s else s

/-- START_SEQUENCE: the start goes on as far as what it waits for allows. -/
def execStartSequence (slotId : Nat) (x : StartIn) (s : State) : Host.Outcome State Fault Refusal :=
  if s.boot.state ≠ .starting then .next s
  else
    let s := (s.startAt 1 State.startFirmware).startAt 2 fun s => s.startCatalogue slotId
    let s := ((s.startAt 3 fun s => s.startRails x).startAt 4 State.startMap).startAt 5 fun s => s.startHbm x
    let s := (s.startAt 6 State.startJoin).startAt 7 State.startTick
    .next (if s.boot.ready9 then s else s.startAt 8 fun s => s.startCompute x)

/-! ## Step 9, at the boundary that enters SERVING (R31, R45, R51, R425, R430, R463, R472, R473) -/

/-- The size class (R428): 0 DIE, 1 MODULE, 2 DOMAIN. -/
def State.sizeClass (s : State) (t : Nat) (p : Partition) : Nat :=
  let ms := ((s.cat.map (·.enabledBy)).getD []).filter fun m => bitOf m t
  if ((bitsOf 128 p.tileset).map (· / 16)).eraseDups.length ≤ 1 then 0 else if 2 ≤ ms.length then 2 else 1

/-- A tenant becomes ACTIVE, with the values that the Catalogue gives it. `alone` says that this member returns to a running
domain in which its twin serves. -/
def State.startTenant (s : State) (t : Nat) (alone : Bool) : State :=
  match s.part t with
  | none => s
  | some p =>
    let s := (((s.setTState t tsActive).setFlag (tnt t 0) 2 p.sealed).setFld (tnt t 0) 3 2 (s.sizeClass t p))
    let s := (s.setFld (tnt t 0x8) 0 2 p.twin).setFld (tnt t 0x8) 4 2 (if alone then 0 else p.twin)
    let s := s.setFlag (tnt t 0x10) 2 (decide (p.stageSize < 80 * 2 ^ 20))
    let w (i : Nat) : Nat := p.mscWays.getD i 0
    (s.setWord (tnt t 0x200) (BitVec.ofNat 32 (w 0 + 2 ^ 16 * w 1))).setWord (tnt t 0x204) (BitVec.ofNat 32 (w 2 + 2 ^ 16 * w 3))

/-- The registers of the module that step 9 loads from the Catalogue. -/
def State.startRegs (s : State) (c : Cat) : State :=
  let s := s.setWord 0x10000 (BitVec.ofNat 32 (c.tick.periodUs + c.tick.align * 2 ^ 24))
  let s := s.setFld 0x10200 16 4 c.tables.length
  let s := (s.setFld 0x900004 0 13 c.plimit).setFld 0x900004 16 13 c.pceil
  let s := (s.setFld 0x900008 0 4 s.pins.conv).showLimits
  let s := ((s.setWord 0xA00000 (BitVec.ofNat 32 c.vitCtl)).setWord 0xA00004 (BitVec.ofNat 32 c.vitKinds)).setWord 0xA00008 (BitVec.ofNat 32 c.vitTenants)
  let s := if c.traceGroup = 0xFF then s.setFlag 0xA0000C 1 true else s.setFld 0xA0000C 8 5 c.traceGroup
  { s with vit := { s.vit with ctl := c.vitCtl, kinds := c.vitKinds, tenants := c.vitTenants } }

/-- Take the place in the pair that the serving table gives this member at its first boundary. -/
def State.startPair (s : State) : State :=
  let who := s.quad 0x502100 / 4 ^ (s.moduleId / 2) % 4
  if who = s.moduleId % 2 then (s.setFlag 0x40 0 true).modEvent 4
  else if 2 ≤ who then { s with pair := { s.pair with takeover := true } }
  else s

/-- Fuses are blown until the fused SVN equals a higher one of the image (R31). -/
def Fuses.blowSvn (f : Fuses) (v : BitVec 8) : Fuses := if f.svn < v then { f with svn := v } else f

/-- Enter SERVING or DERATED at the boundary at `at_`; the SVN is blown in both (log entry 154). -/
def State.enterServing (s : State) (at_ : Nat) : State :=
  match s.cat with
  | none => s
  | some c =>
    let who := s.quad 0x502100 / 4 ^ (s.moduleId / 2) % 4
    let alone := s.boot.joinRunning && who == 1 - s.moduleId % 2
    let s := ({ s with fuses := s.fuses.blowSvn ((s.boot.fwUse.map (·.svn)).getD 0) } : State).showKeys
    let s := (List.range 16).foldl (fun s t => s.startTenant t alone) s
    let s := (s.startRegs c).startPair
    let s : State := { s with
      boot := { s.boot with ready9 := false }, sched := { s.sched with since := some at_ },
      pwr := { s.pwr with lowAt := if s.pins.throttle then some at_ else none } }
    let s := s.setMod (if s.derated then .derated else .serving)
    s.showDies

end Sys2Proof.Machine
end

