-- ==== Sys2Proof/Machine/Boundary.lean ====
section
/-!
DEFINITION. Boundary.lean: what the module does at a tick boundary (R60, R66, R73 to R84, R232, R439, R456, R471 to R480, R489,
R494, R509, R539, R544).
-/

namespace Sys2Proof.Machine

/-- The TICK event (R539). -/
def State.tickEvent (s : State) : State :=
  s.event 0x01 none none (s.tickNo % 2 ^ 32) (leBytes 8 s.tickNo ++ leBytes 1 s.src ++ leBytes 4 (s.fld 0x10010 0 16)) (0, 0)

/-- The schedule's part: entries that are still open end, and the margin is over (R75, R76). -/
def State.closeAll (s : State) : State :=
  let s := s.sched.open_.foldl (fun s i => s.closeEntry i) s
  { s with sched := { s.sched with margin := false } }

/-- SERVING reads DERATED from the boundary at which capacity falls short, and not back (R521). -/
def State.derateBoundary (s : State) : State := if s.boot.state = .serving ∧ s.derated then s.setMod .derated else s

/-- Enter RECOVERING when holdover has reached its limit: no new work is dispatched, tenants keep their states, and serving is
given up (R66, R472). -/
def State.holdBoundary (s : State) : State :=
  if s.tick.holdLimit && s.tick.holdStart.isSome && !s.recov.holdover then
    let s := (s.setMod .recovering).giveServing
    { s with recov := { s.recov with holdover := true } }
  else if s.tick.holdStart.isNone && (s.recov.holdover || s.tick.holdLimit) then
    let was := s.recov.holdover
    let s : State := { s with tick := { s.tick with holdLimit := false }, recov := { s.recov with holdover := false } }
    if was && !s.inRecovery then
      let s := s.setMod (if s.derated then .derated else .serving)
      let who := s.quad 0x502100 / 4 ^ (s.moduleId / 2) % 4
      if who = 1 - s.moduleId % 2 then s else { s with pair := { s.pair with takeover := true } }
    else s
  else s

/-- A tenant's epoch count (R456). -/
def State.epochBoundary (s : State) (t : Nat) : State :=
  if (s.part t).isNone then s
  else
    let n := (s.front.epochs[t]?).getD 0 + 1
    let e := s.fld (tnt t 0x340) 0 16
    if e = 0 ∨ e ≤ n then s.epoch t else { s with front := { s.front with epochs := vupd s.front.epochs t fun _ => n } }

/-- Overruns older than 16 boundaries no longer reduce the cap (R443). -/
def State.pruneOverruns (s : State) (t : Nat) : State :=
  let now := s.tick.boundaries
  s.updLadle t fun l => { l with overruns := l.overruns.filter fun (k, _) => decide (now ≤ k + 16) }

/-- What a boundary settles for a tenant before its Larder and Ladle steps: freezes and modes of the twin, an UNFREEZE, a weight
range, the epoch. -/
def State.tenantBoundary (s : State) (t : Nat) : State :=
  let s := (s.twinFreezes t).modeBoundary t
  let s := ((s.unfreezeBoundary t).thawed t).wsetBoundary t
  (s.epochBoundary t).pruneOverruns t

/-- Copies of pages that belong to the tick before are over (R234, R235). -/
def State.endCopies (s : State) : State := s.lrd.copies.foldl (fun s c => s.endCopy c.tenant) s

/-- The Larder and Ladle steps of every tenant (R232, R439): every session's lengths are marked at every boundary; in a recovery
nothing new is formed. -/
def State.stepBoundary (s : State) : State :=
  let s := (List.range 16).foldl (fun s t => s.markLengths t) s
  if s.inRecovery || s.recov.holdover then s
  else
    (List.range 16).foldl (fun s t => if (s.part t).isNone then s else s.stepTenant t) s

/-- An uncorrectable error in the Larder metadata or a session descriptor of a tenant that has a pool freezes it (R245, R487).
DESIGN CHOICE (log entry 174): it is found at a boundary, and whose it is is free. -/
def State.metaBoundary (s : State) : State :=
  let (k, s) := s.fresh
  (Config.freeMeta k).foldl (fun s t => if ((s.part t).map (·.granules)).getD 0 = 0 then s else s.raise t 0x82 {}) s

/-- A boundary of a module that serves. -/
def State.serveBoundary (s : State) (at_ : Nat) : State :=
  let s := s.closeAll.cpReset.finishSaves
  let s := ((s.wearBoundary at_).derateBoundary).vitBoundary
  let s := ((s.tickEvent).tableSwitch at_).publishBoundary.pinBoundary
  let s := (List.range 16).foldl (fun s t => s.tenantBoundary t) s
  let s := s.pairBoundary.recoverBoundary.holdBoundary.mcBoundary
  let s := s.metaBoundary.endCopies.stepBoundary
  let s := (List.range 16).foldl (fun s t => (s.sendMark t).ringTimers t) s
  let s := s.collReach.checkpoint
  ({ s with sched := { s.sched with grant := s.catchGrant at_ } } : State).newFlaws.recoveryUe

/-- Does this module keep tick boundaries: past step 2, and holding the master role or locked (R60, R69)? -/
def State.ticks (s : State) : Bool :=
  s.cat.isSome && s.boot.state != .standby && s.boot.state != .halted && (s.isMaster || s.tick.locked)

/-- TICK_BOUNDARY: the boundary at `at_` ns. -/
def execTickBoundary (at_ : Nat) (s : State) : Host.Outcome State Fault Refusal :=
  if !s.ticks then .next s
  else
    let s := s.tickBoundary at_
    let s := if s.startStep = 9 ∧ s.boot.ready9 ∧ s.tick.holdStart.isNone then s.enterServing at_ else s
    .next (if s.serves then s.serveBoundary at_ else s.mcBoundary)

end Sys2Proof.Machine
end

