-- ==== Sys2Proof/Machine/Packets.lean ====
section
/-!
DEFINITION. Packets.lean: what a packet does that reaches this module: forwarded, or taken once and acknowledged (R269, R309,
R311, R334, R338 to R341, R475 to R480, R493, R495).
-/

namespace Sys2Proof.Machine

/-- Note an operation on a delivery counter that came through a link router (R495). -/
def State.logCtr (s : State) (t c : Nat) (bytes : Option Nat) (op value : Nat) : State :=
  { s with recov := { s.recov with ctrLog := s.recov.ctrLog ++ [{ tick := s.beat, tenant := t, ctr := c, bytes := bytes, op := op, value := value }] } }

/-- A write that has reached its module: data of a collective, or a remote write, dropped, counted and refused when it fails the check
(R269). -/
def State.takeWrite (s : State) (p : Packet) : State :=
  match p.ctl with
  | some (.coll m) => s.collData m p.payload
  | _ =>
    let (s, refused) := s.arriveWrite p
    if refused then ({ s with lnk := { s.lnk with refused := s.lnk.refused + 1 } } : State).sendCtl p.src (.refused p.tag p.tenant)
    else if p.cntEn then s.logCtr p.tenant p.cnt (some p.payload.length) 0 0 else s

/-- A refusal comes back: the sending tenant's violation (R269). -/
def State.refusedBack (s : State) (t addr : Nat) : State := if (s.part t).isNone then s else s.raise t 0x75 { addr := addr }

/-- REMOTE_WRITE_REFUSED (R269): a refusal returned for the write `p`. -/
def execRemoteWriteRefused (p : Packet) (s : State) : Host.Outcome State Fault Refusal :=
  if 16 ≤ p.tenant then .next s else .next (s.refusedBack p.tenant p.addr)

/-- A signal that has reached its module: SET or ADD on a counter's SIG, in the order of arrival on VC0 (R311, R334). -/
def State.takeSignal (s : State) (p : Packet) : State :=
  let c := p.addr % 4096
  let op := p.addr / 2 ^ 16 % 256
  let v := leNat (p.payload.take 8)
  if s.tState p.tenant = tsDisabled ∨ 16 ≤ p.tenant then s else (s.applySignal p.tenant c op v).logCtr p.tenant c none op v

/-- The tags that an ACK packet names (R334). -/
def Packet.tags (p : Packet) : List Nat :=
  (bitsOf 64 (leNat (p.payload.take 8))).map fun i => (p.addr + i) % 2 ^ 24

/-- Who waited for a packet goes on: a chain's command ends with its last acknowledgement, a SIGNAL command ends. A reply to the compute
part that carries another generation tag is late, and only counted (R493). -/
def State.answered (s : State) (gen : Nat) (h : HeldPkt) : State :=
  match h.waiter with
  | .chan tile chan _ _ _ => if gen = s.gen then s.settle tile chan 65536 else s.bump 0x700010 1
  | .signal t c => s.endWork t c
  | _ => s

/-- PACKET_ACK (R339, R340): the packets of a virtual channel that it names are held no longer. -/
def execPacketAck (p : Packet) (vc : Nat) (s : State) : Host.Outcome State Fault Refusal :=
  let (from_, s) := s.takeArrived p
  if p.dst ≠ s.moduleId ∨ s.cat = none then .next (s.forward p from_)
  else
    let s := s.leaveBuffer p.vc from_
    let (s, hs) := s.ackHeld p.src vc p.tags
    .next (hs.foldl (fun s h => s.answered p.gen h) s)

/-! ## CONTROL packets -/

/-- The serving table that the master sent (R473); it says that the domain serves already. -/
def State.takeTable (s : State) (who : List Nat) : State :=
  let s := who.zipIdx.foldl (fun s (w, q) => if q < 32 then s.setServe q w else s) s
  if s.pair.asked && s.boot.state == .starting then
    { s with boot := { s.boot with joinRunning := true }, pair := { s.pair with asked := false } }
  else s

/-- A message of the tick, the domain or the links. -/
def State.takeDomain (s : State) (src : Nat) : Ctl → State
  | .census id serial => s.noteCensus id serial
  | .serving q who => s.noteServing q who
  | .tableRequest => s.answerTable src
  | .table who => s.takeTable who
  | .linkState ring pos byp up gap => s.noteLink ring pos byp up gap
  | .heartbeat => if src = twinOf s.moduleId then s.noteBeat else s
  | _ => s

/-- A message of the twin about tenant `t`. -/
def State.takeTwin (s : State) (t : Nat) (c : Ctl) : State :=
  match c with
  | .modeRequest _ m tick dig pub => s.peerMode t m tick dig pub
  | .stepRecord _ r => if s.comparing t && !s.servesPair then s.recvStep t r else s
  | .unitDigest _ u d _ => if s.comparing t then s.peerDigest t u d else s
  | .mirror _ r => if s.servesPair then s else s.applyMirror t r
  | .mirrorMark _ tick ctrs csns ret => if s.servesPair then s else s.applyMark t tick ctrs csns ret
  | .migrateAsk _ n d pages => s.askedMigrate t n d pages
  | .migrateReady _ n => s.migrateReady t n
  | .migrateData _ n len lines => s.takeMigrate t n len lines
  | .migrateDone _ n ok => s.migrated t n ok
  | .migrateAbort _ n => s.dropMigrate t n
  | .freeze _ _ => s.updTwin t fun x => { x with peerFreeze := true }
  | .unfreeze _ => s.updTwin t fun x => { x with peerUnfreeze := true }
  | .reset _ => s.tenantReset t false
  | _ => s

/-- A message between the stages of a tenant's pipeline. -/
def State.takeStage (s : State) (src t : Nat) (c : Ctl) : State :=
  match c with
  | .batchList _ l => if s.lEn t && !s.lForms t then s.recvList t src l else s
  | .credit _ b => s.recvCredit t b
  | .ret _ r => if s.lEn t then s.recvRet t r else s
  | .reflow _ b => s.updLadle t fun l => { l with reflow := some b }
  | _ => s

/-- The tenant that a message names, when it is one of the twin's or of a stage. -/
def Ctl.twinTenant : Ctl → Option Nat
  | .modeRequest t _ _ _ _ | .stepRecord t _ | .unitDigest t _ _ _ | .mirror t _ | .mirrorMark t _ _ _ _ | .migrateAsk t _ _ _
  | .migrateReady t _ | .migrateData t _ _ _ | .migrateDone t _ _ | .migrateAbort t _ | .freeze t _ | .unfreeze t | .reset t => some t
  | _ => none

def Ctl.stageTenant : Ctl → Option Nat
  | .batchList t _ | .credit t _ | .ret t _ | .reflow t _ => some t
  | _ => none

/-- What a CONTROL packet says takes effect. -/
def State.takeControl (s : State) (p : Packet) : State :=
  match p.ctl with
  | none => s
  | some c =>
    match c.twinTenant, c.stageTenant with
    | some t, _ => if 16 ≤ t ∨ (s.part t).isNone ∨ p.src ≠ twinOf s.moduleId then s else s.takeTwin t c
    | none, some t => if 16 ≤ t ∨ (s.part t).isNone then s else s.takeStage p.src t c
    | none, none =>
      match c with
      | .token k => s.tokenIn k
      | .abort t g q => s.abortIn t g q
      | .coll m => s.collData m p.payload
      | .refused _ t => if 16 ≤ t then s else s.refusedBack t 0
      | c => s.takeDomain p.src c

/-! ## Taking a packet once, and VC0 in order (R339, R340) -/

/-- What a packet for this module does. -/
def State.takePacket (s : State) (p : Packet) : State :=
  match p.kind with
  | .write => s.takeWrite p
  | .signal => s.takeSignal p
  | .control => s.takeControl p
  | .ack => s

/-- The VC0 sequence that comes next from a source. -/
def State.expected (s : State) (src : Nat) : Nat := (aget s.lnk.expect src).getD 0

/-- Apply the VC0 packets of a source that are next in its sequence, of those that came early. -/
def State.takeEarly (s : State) (src : Nat) : Nat → State
  | 0 => s
  | fuel + 1 =>
    match s.lnk.early.find? fun p => p.src == src && p.tag == s.expected src with
    | none => s
    | some p =>
      let s : State := { s with lnk := { s.lnk with
        early := s.lnk.early.erase p, expect := aput s.lnk.expect src ((s.expected src + 1) % 2 ^ 16) } }
      ((s.takePacket p).acknowledge p).takeEarly src fuel

/-- A VC0 packet: applied in its source's sequence, kept while an earlier one is missing, and a duplicate dropped, counted and
acknowledged again (R340). -/
def State.takeVc0 (s : State) (p : Packet) : State :=
  let ahead := (p.tag + 2 ^ 16 - s.expected p.src) % 2 ^ 16
  if 2 ^ 15 ≤ ahead then (s.bump 0x502204 1).acknowledge p
  else if s.lnk.early.any fun q => q.src == p.src && q.tag == p.tag then s.bump 0x502204 1
  else ({ s with lnk := { s.lnk with early := s.lnk.early ++ [p] } } : State).takeEarly p.src (s.lnk.early.length + 1)

/-- Take a packet for this module once: a duplicate is dropped and counted, and acknowledged again (R339, R340). One for another
module goes on along its ring (R338). -/
def State.receive (s : State) (p : Packet) : State :=
  let (from_, s) := s.takeArrived p
  if p.dst ≠ s.moduleId ∨ s.cat = none then s.forward p from_
  else
    let s := s.leaveBuffer p.vc from_
    if p.vc = 0 then s.takeVc0 p
    else if s.seen p then (s.bump 0x502204 1).acknowledge p
    else ((s.markSeen p).takePacket p).acknowledge p

/-- PACKET_WRITE (R269, R309, R338). -/
def execPacketWrite (p : Packet) (s : State) : Host.Outcome State Fault Refusal := .next (s.receive { p with kind := .write })

/-- PACKET_SIGNAL (R311). -/
def execPacketSignal (p : Packet) (s : State) : Host.Outcome State Fault Refusal := .next (s.receive { p with kind := .signal })

/-- PACKET_CONTROL (R334, R340). -/
def execPacketControl (p : Packet) (s : State) : Host.Outcome State Fault Refusal := .next (s.receive { p with kind := .control })

/-! ## Packets that are not acknowledged (R339 to R341) -/

/-- What waits for a packet that was dropped unacknowledged goes on: the descriptor of a transfer to member 0 or 1 ends with XF_UNREACH
(R341), a SIGNAL command ends with UNREACH, which RNG_SIGDROP counts (R392). -/
def State.lostPacket (s : State) (h : HeldPkt) : State :=
  match h.waiter with
  | .chan tile chan _ t _ =>
    let s := if h.pair then s else
      let s := s.bump 0x50220C 1
      match s.chan tile chan with
      | some c => s.noteChan tile c 0x76 h.pkt.addr
      | none => s.raise t 0x76 { tile := some tile, addr := h.pkt.addr }
    s.settle tile chan 65536
  | .signal t c =>
    let s := s.bump (rng t ((c.info.map (·.1)).getD 0) 0x58) 1
    (s.updCmd t c fun x => { x with status := 7, detail := h.pkt.dst }).endWork t c
  | .coll _ _ _ => s.collReach
  | .free => s

/-- Send a held packet again, on another path where there is one (R339); on VC0 the unacknowledged ones from it on, in order (R340). -/
def State.resendPacket (s : State) (h : HeldPkt) (q : Nat) : State :=
  let again (x : HeldPkt) : Bool := x == h || (h.pkt.vc == 0 && x.pkt.vc == 0 && x.pkt.dst == h.pkt.dst && x.port == h.port)
  let n := (s.lnk.held.filter fun x => again x && x.sent).length
  let s : State := { s with lnk := { s.lnk with held := s.lnk.held.map fun x => if again x then { x with port := q, sent := false } else x } }
  (s.bump 0x502200 n).flushPort q

/-- Does the end-to-end name of a packet fit? -/
def HeldPkt.is (h : HeldPkt) (dst vc tag : Nat) : Bool := h.pkt.dst == dst && h.pkt.vc == vc && h.pkt.tag == tag

/-- E2E_RESEND_TIMEOUT (R339): 50 µs without the acknowledgement, or a broken path; one whose destination has become unreachable is
dropped. -/
def execE2eResendTimeout (dst vc tag : Nat) (s : State) : Host.Outcome State Fault Refusal :=
  let drop (s : State) : State :=
    let gone := s.lnk.lost.filter fun h => h.is dst vc tag
    gone.foldl (fun s h => s.lostPacket h) (({ s with lnk := { s.lnk with lost := s.lnk.lost.filter fun h => !h.is dst vc tag } } : State).holdLater)
  match s.lnk.held.find? fun h => h.is dst vc tag with
  | none => .next (drop s)
  | some h =>
    let twin := if 16 ≤ h.port then s.twinPort else none
    match twin.orElse fun _ => s.route dst vc (if vc = 0 then none else some h.port) with
    | none => .next (drop (s.rehold h))
    | some q => .next (s.resendPacket h q)

end Sys2Proof.Machine
end

