-- ==== Sys2Proof/Machine/Access.lean ====
section
/-!
DEFINITION. Access.lean: register accesses of both views (R9 to R12, R47, R410, R421, R431, R555 to R566) and the PCIe functions'
control events (R553, R554).
-/

namespace Sys2Proof.Machine

/-! ## Which function answers (R47, R554, R561) -/

/-- Does a function's BAR respond? -/
def State.barLive (s : State) : Fn → Bool
  | .pf => s.pf.ready && s.pf.memEnable
  | .vf n => s.pf.ready && s.vfEnable && decide (n < 16) && decide (n + 1 ≤ s.numVfs) && (s.fnState (.vf n)).memEnable

/-- Does a tenant read as DISABLED: it is, or step 9 has not come? -/
def State.offNow (s : State) (t : Nat) : Bool := !s.serves || s.tState t == tsDisabled

/-- Is a home offset of the words that answer before step 9: the MOD and FLT blocks, and TNT_DBDROP? MOD_NCV, MOD_TWIN and
MOD_IDPUB read zero until then (R483). -/
def early (h : Nat) : Bool :=
  (decide (h < 0x10000) && h != 0x8 && h != 0x40 && !decide (0x180 ≤ h ∧ h < 0x1E0)) || decide (0x700000 ≤ h ∧ h < 0x800000) ||
  (decide (0x110000 ≤ h ∧ h < 0x120000) && h % 0x1000 == 0xC)

/-! ## Values that are formed when they are read -/

/-- The tenant of a home offset in the tenant windows. -/
def tntOf (h : Nat) : Nat := (h - 0x110000) / 0x1000

/-- Word `o` of a string of bytes. -/
def wordOf (bs : List Byte) (o : Nat) : Nat := leNat (((bs.drop o) ++ leBytes 4 0).take 4)

/-- TNT_WIDTH of tile `n` (R564). -/
def State.widthByte (s : State) (t n : Nat) : Nat :=
  if !((s.part t).map fun p => bitOf p.tileset n).getD false then 0
  else if (s.tile n).phys.isNone then 0x40 else (s.tile n).width / 8

/-- The words of a tenant window that copy or count other state (R425, R483, R564). -/
def State.readTnt (s : State) (t o cur : Nat) : Nat :=
  if o = 0 then cur % 2 ^ 8 + ((List.range 128).filter fun n => s.widthByte t n % 64 != 0).length * 2 ^ 8
  else if o = 0x10 then cur - cur / 8 % 2 * 8 + (s.comparing t && s.servesPair).toNat * 8
  else if o = 0x14 then (s.word 0x8).toNat
  else if o = 0x28 then (s.word 0xC).toNat
  else if 0x400 ≤ o ∧ o < 0x480 then (List.range 4).foldl (fun v i => v + s.widthByte t (o - 0x400 + i) * 2 ^ (8 * i)) 0
  else if 0x800 ≤ o ∧ o < 0xA00 then wordOf (((s.part t).map (·.raw)).getD []) (o - 0x800)
  else cur

/-- A ring's words (R410); those of a ring at RINGS or above read zero (R377). -/
def State.readRing (s : State) (t r o cur : Nat) : Nat :=
  let g := s.ringSt t r
  if ((s.part t).map (·.rings)).getD 0 ≤ r then 0
  else if o = 0x20 then g.head
  else if o = 0x28 then g.doneCsn
  else if o = 0x30 then
    cur % 16 + (decide (64 ≤ s.logLen t)).toNat * 16 + (g.cmds.filter fun c => !c.told).length % 256 * 256
  else cur

/-- An overflow log as a view shows it (R407, R410, R420): a sealed tenant's shows the PF only KIND and RING. -/
def State.readLog (s : State) (pf : Bool) (t o : Nat) : Nat :=
  let es := (s.front.logs[t]?).getD []
  match es[o / 64]? with
  | none => 0
  | some e => wordOf (if pf && s.sealed t then e.take 2 else e) (o % 64)

/-- The tenant whose range holds a session. -/
def State.sessOwner (s : State) (n : Nat) : Option Nat := (List.range 16).find? fun t => ((s.part t).map fun p => sessIn p n).getD false

/-- Is SESSION outside the range of the tenant whose view this is (R246)? -/
def State.selBad (s : State) : Fn → Bool
  | .pf => false
  | .vf n => s.sessOwner (s.fnState (.vf n)).session != some n

/-- The descriptor that a function's window shows (R246, R420). -/
def State.sessWindow (s : State) (fn : Fn) : List Byte :=
  let n := (s.fnState fn).session
  match s.sessOwner n with
  | none => []
  | some t =>
    let bs := (s.sess n).bytes t
    if s.selBad fn then []
    else if fn = .pf && s.sealed t then
      bs.mapIdx fun i b => if (16 ≤ i ∧ i < 32) ∨ (0x30 ≤ i ∧ i < 0x58) then 0 else b
    else bs

/-- LRD_POOL (R246). -/
def State.readPool (s : State) (t o cur : Nat) : Nat :=
  if o = 0 then s.poolFree t % 2 ^ 25 else if o = 4 then s.poolPinned t % 2 ^ 25 else if o = 8 then s.mapFree t % 2 ^ 20
  else if o = 12 then (if ((s.part t).map (·.granules)).getD 0 = 0 then 0 else s.poolLargest t) else cur

/-- CDX_SLOT of codec `c` (R287, R298). -/
def State.readSlot (s : State) (c t k : Nat) : Nat :=
  (match aget s.cdx.slots (slotKey c t k) with
    | some x => x.gen % 64 + 64
    | none => 0) + s.slotBusy c t k % 256 * 256

/-- CDX_STAT.QUEUE of codec `c` (R298): the blocks in its input and its output queue. -/
def State.readQueue (s : State) (c : Nat) : Nat :=
  (s.cdx.inq.filter (·.codec == c)).length % 128 + (s.cdx.outq.filter (·.codec == c)).length % 128 * 2 ^ 8

/-- The ACC words (R522). -/
def State.readAcc (s : State) (o cur : Nat) : Nat :=
  let live := (List.range 128).filter fun n => (s.tile n).phys.isSome
  if o = 0 then
    let spare := ((List.range 8).map fun d => (s.spareTiles d).length).sum
    let banks := (live.filter fun n => (s.physKey n).any fun k => (s.ptile k).badBanks.isEmpty).length
    live.length + spare * 2 ^ 8 + banks * 2 ^ 16 + (s.recov.mcFailed == 0).toNat * 2 ^ 24 + (s.boot.state == .derated || s.derated).toNat * 2 ^ 25
  else if 0x100 ≤ o ∧ o < 0x300 then
    let n := (o - 0x100) / 4
    let swap := (s.acc.due ++ s.acc.swaps).any fun x => x.logical == n
    (match s.physKey n with
      | none => 0x3F
      | some k =>
        let x := s.ptile k
        k % 18 + (s.tile n).width / 8 * 2 ^ 6 + x.cols * 2 ^ 12 + x.badBanks.isEmpty.toNat * 2 ^ 15 + x.badLanes.isEmpty.toNat * 2 ^ 16) +
    swap.toNat * 2 ^ 17
  else if 0x300 ≤ o ∧ o < 0x400 then
    let d := (o - 0x300) / 4
    (s.spareTiles d).length + ((List.range 18).filter fun p => (s.ptile (pkey d p)).out).length * 4
  else if 0x400 ≤ o ∧ o < 0x500 then
    let g := (o - 0x400) / 4
    let n := (s.acc.pages.filter fun (k, _) => k / 524288 == g).length
    n + (s.acc.full.contains g || decide (8192 ≤ n)).toNat * 2 ^ 14
  else if 0x500 ≤ o ∧ o < 0x600 then
    let i := (o - 0x500) / 4
    if i < 20 then
      let good := s.goodPhases i
      min good (activePhases i) + (good - activePhases i) * 2 ^ 5 + (decide (good < activePhases i)).toNat * 2 ^ 7
    else (if i < 24 then 6 else 2) + 2 * 2 ^ 5
  else if o = 0x600 then cur / 2 ^ 17 * 2 ^ 17 + s.flash.active.records.length % 2 ^ 16 + s.flash.activeB.toNat * 2 ^ 16
  else cur

/-- The value of the word at home offset `h`, before the view's codes apply. `time` is a free number: VIT_TIME at the moment
of the read. -/
def State.valueAt (s : State) (fn : Fn) (h time : Nat) : Nat :=
  let cur := (s.word h).toNat
  if 0x180 ≤ h ∧ h < 0x1E0 then wordOf s.fuses.idPub (h - 0x180)
  else if 0x110000 ≤ h ∧ h < 0x120000 then s.readTnt (tntOf h) (h % 0x1000) cur
  else if 0x200000 ≤ h ∧ h < 0x208000 then s.readRing ((h - 0x200000) / 0x800) (h / 0x100 % 8) (h % 0x100) cur
  else if 0x208000 ≤ h ∧ h < 0x228000 then
    if h / 0x1000 % 2 = 0 then s.readLog (fn == .pf) ((h - 0x208000) / 0x2000) (h % 0x1000) else min 64 (s.logLen ((h - 0x208000) / 0x2000))
  else if h = 0x300000 then (s.fnState fn).session + (s.selBad fn).toNat * 2 ^ 16
  else if 0x300100 ≤ h ∧ h < 0x300180 then wordOf (s.sessWindow fn) (h - 0x300100)
  else if 0x301000 ≤ h ∧ h < 0x301200 then s.readPool ((h - 0x301000) / 32) (h % 32) cur
  else if 0x400000 ≤ h ∧ h < 0x400400 ∧ h % 0x40 = 0x18 then s.readQueue ((h - 0x400000) / 0x40)
  else if 0x401000 ≤ h ∧ h < 0x402000 then s.readSlot ((h - 0x401000) / 0x100) (h / 0x10 % 16) (h / 4 % 4)
  else if 0x600000 ≤ h ∧ h < 0x600040 ∧ h % 0x10 = 0 then cur / 32 * 32 + (24 - cur / 2 ^ 8 % 32)
  else if h = 0x700014 then
    cur / 2 ^ 16 * 2 ^ 16 + ((List.range 16).filter fun t => s.recov.suspects.contains t || s.recov.replay.any (·.1 == t)).foldl (fun v t => v + 2 ^ t) 0
  else if 0x800000 ≤ h ∧ h < 0x800700 then s.readAcc (h - 0x800000) cur
  else if h = 0xA00020 then time % 2 ^ 32
  else if h = 0xA00024 then time / 2 ^ 32 % 2 ^ 32
  else if 0xA02000 ≤ h ∧ h < 0xA03000 then
    let t := (h - 0xA02000) / 0x100
    let o := h % 0x100
    if o < 8 then (s.word (0x10008 + o)).toNat
    else if 0x10 ≤ o ∧ o < 0x1C then (s.word (0x10100 + 16 * t + (o - 0x10))).toNat else cur
  else cur

/-- The bits of a word that a view reads: those with a code other than WO and the em dash. -/
def readMask (h : Nat) (pf : Bool) : Nat := codeMask h pf fun c => c == .ro || c == .rw || c == .w1c || c == .w1s

/-! ## Reads (R47, R545, R556, R557, R561) -/

/-- The register word that an offset of a function names, when it has one there: its home. -/
def homeOf : Fn → Nat → Option Nat
  | .pf, off => if (pfMsix off).isSome || decide (0x2000000 ≤ off) then none else (regLookup (pfHome off)).map fun _ => pfHome off
  | .vf n, off => match vfPlace n off with
    | .home h => some h
    | _ => none

/-- May a function's word be read now? -/
def State.readable (s : State) (fn : Fn) (h : Nat) : Bool :=
  match fn with
  | .pf => s.serves || early h
  | .vf n => !s.offNow n || h == tnt n 0xC

/-- A word of the MSI-X table or of the pending bits (R555). -/
def FnState.msixWord (f : FnState) (vectors o : Nat) : Nat :=
  if o < 16 * vectors then (nget f.msix o).toNat else if o = 0x1000 then f.pba % 2 ^ 32 else 0

def Fn.vectors : Fn → Nat
  | .pf => 1
  | .vf _ => 9

/-- A word of the trace window (R545). -/
def State.traceWord (s : State) (o : Nat) : Nat :=
  match s.traceGroup with
  | none => 0
  | some g => if s.serves then leNat (readBytes s.hbm (g * 0x800000000 + 0x2000000 * s.fld 0xA0001C 0 3 + o) 4) else 0

/-- The aligned word at `off` as a function reads it now. -/
def State.wordNow (s : State) (fn : Fn) (off time : Nat) : Nat :=
  let msix := match fn with
    | .pf => pfMsix off
    | .vf n => match vfPlace n off with
      | .msix o => some o
      | _ => none
  match msix, homeOf fn off with
  | some o, _ => (s.fnState fn).msixWord fn.vectors o
  | none, some h => if s.readable fn h then s.valueAt fn h time &&& readMask h (fn == .pf) else 0
  | none, none => if fn = .pf && decide (0x2000000 ≤ off) && decide (off < 0x4000000) then s.traceWord (off - 0x2000000) else 0

/-- One access within the aligned 8-byte word at `base`, to its low half, its high half, or both: the two words that it shows, and the
latch (R557). -/
def State.readPair (s : State) (fn : Fn) (base time : Nat) (lo hi : Bool) : (Nat × Nat) × State :=
  let a := s.wordNow fn base time
  let b := s.wordNow fn (base + 4) time
  match homeOf fn base with
  | none => ((a, b), s)
  | some h =>
    if !isWide h || (lo && hi) then ((a, b), s)
    else if lo then ((a, b), s.updFn fn fun f => { f with latch := aput f.latch h (BitVec.ofNat 32 b) })
    else match aget (s.fnState fn).latch h with
      | some v => ((a, v.toNat), s.updFn fn fun f => { f with latch := adel f.latch h })
      | none => ((a, b), s)

/-- The bytes `[off, off + len)`, word by word of 8 bytes in increasing order (R556); `fuel` bounds their number. -/
def State.readAt (s : State) (fn : Fn) (time : Nat) : Nat → Nat → Nat → List Byte × State
  | 0, _, _ => ([], s)
  | fuel + 1, off, len =>
    if len = 0 then ([], s)
    else
      let base := off / 8 * 8
      let n := min len (base + 8 - off)
      let ((a, b), s) := s.readPair fn base time (decide (off < base + 4)) (decide (base + 4 < off + n))
      let here := ((leBytes 4 a ++ leBytes 4 b).drop (off - base)).take n
      let (rest, s) := s.readAt fn time fuel (off + n) (len - n)
      (here ++ rest, s)

/-- REGISTER_READ. A function that does not respond answers nothing. -/
def execRegisterRead (fn : Fn) (off len : Nat) (s : State) : Host.Outcome State Fault Refusal :=
  if !s.barLive fn then .next (s.send (.noAnswer fn))
  else
    let (time, s) := s.free
    let (bs, s) := s.readAt fn time (len / 8 + 2) off len
    .next (s.send (.answer fn bs))

/-! ## Writes: the codes (R9 to R12) -/

/-- The written bytes of a word over what it holds, for RW fields, and over zero, for the others (R12). -/
def keepBytes (cur : Nat) (bs : List (Option Byte)) : Nat :=
  leNat ((bs.zip (leBytes 4 cur)).map fun (b, c) => b.getD c)

def actBytes (bs : List (Option Byte)) : Nat := leNat (bs.map fun b => b.getD 0)

def touched (bs : List (Option Byte)) (i : Nat) : Bool := ((bs[i]?).map Option.isSome).getD false

/-- The effect of the RW and W1C codes on a word. -/
def State.writeCodes (s : State) (pf : Bool) (h keep act : Nat) : State :=
  let cur := (s.word h).toNat
  let rw := codeMask h pf (· == .rw)
  let w1c := codeMask h pf (· == .w1c)
  s.setWord h (((BitVec.ofNat 32 cur &&& ~~~(BitVec.ofNat 32 rw)) ||| (BitVec.ofNat 32 keep &&& BitVec.ofNat 32 rw)) &&&
    ~~~(BitVec.ofNat 32 act &&& BitVec.ofNat 32 w1c))

/-! ## Writes with an effect of their own -/

/-- MOD_MBX_CMD (R52, R54). What the command reads from host memory is free here; the MBX rows give it. -/
def State.mbxWrite (s : State) (cmd : Nat) : State :=
  let (a, s) := s.fresh
  let (b, s) := s.fresh
  match cmd with
  | 1 => s.mbxWriteCat (Config.freeImage a) (Config.freeImage b)
  | 2 => s.mbxWriteFw (Config.freeFirmware a) (Config.freeFirmware b)
  | 3 => s.mbxEnrolKey (Config.freeKeyReq a)
  | 4 => s.mbxRevokeKey (Config.freeKeyReq a)
  | 5 => s.mbxRestart
  | _ => s.mbxBad 0

/-- An enable register: a bit written 1 while its event is set raises the vector (R555). -/
def State.enWrite (s : State) (pf : Bool) (h keep act : Nat) (fn : Fn) (vec : Nat) : State :=
  let s := s.writeCodes pf h keep act
  let hit := (BitVec.ofNat 32 act &&& BitVec.ofNat 32 (codeMask h pf (· == .rw)) &&& s.word (h - 4)).toNat
  if hit ≠ 0 then s.interrupt fn vec else s

/-- A word of a tenant window (R421, R422, R425, R458, R464, R474, R504, R564). -/
def State.writeTnt (s : State) (fn : Fn) (h keep act : Nat) (bs : List (Option Byte)) : State :=
  let t := tntOf h
  let o := h % 0x1000
  let pf := fn == .pf
  if o = 0x4 then
    let s := s.writeCodes pf h keep act
    let s := if pf && bitOf act 0 then s.askFreeze t else s
    let s := if pf && bitOf act 1 then s.askUnfreeze t else s
    if pf && bitOf act 2 then s.askReset t else s
  else if o = 0x8 then (if pf && touched bs 0 && (s.part t).isSome then s.modeRequest t (keep % 4) else s.writeCodes pf h keep act)
  else if o = 0x34 then s.enWrite pf h keep act (.vf t) 8
  else if o = 0x50 then
    let s := s.writeCodes pf h keep act
    if !pf && bitOf act 0 then s.wsetGo t else s
  else if o = 0x108 then (if bitOf act 0 then s.faultClear t else s)
  else if o = 0x208 ∨ o = 0x20C then
    if pf then s.setWord h (BitVec.ofNat 32 keep &&& s.word (h - 8)) else s
  else if 0x300 ≤ o ∧ o ≤ 0x310 then
    if pf || (s.part t).isNone then s
    else
      -- bytes that are not written keep the value of the writes that wait for the boundary (R12)
      let keep := keepBytes ((s.ladleWrites t).word h).toNat bs
      s.ladleWrite t o (if o = 0x300 then keep - keep / 2 ^ 12 % 2 * 2 ^ 12 + act / 2 ^ 12 % 2 * 2 ^ 12 else keep)
  else if o = 0x340 then
    let s := s.writeCodes pf h keep act
    if pf && (touched bs 0 || touched bs 1) then { s with front := { s.front with epochs := vupd s.front.epochs t fun _ => 0 } } else s
  else s.writeCodes pf h keep act

/-- The registers of a ring that the PF cannot write for a sealed tenant (R421): RNG_CTL, SIZE, BASE, CBASE, SIGTAB, OBASE, OSIZE,
OHEAD and OTAIL_ADDR. -/
def sealedRing (o : Nat) : Bool := decide (o < 0x20) || decide (0x38 ≤ o ∧ o < 0x50)

/-- What keeps a configuration register of a ring from being written: a sealed tenant's, by the PF (R421), or EN (R377). -/
inductive RingBar where
  | none_ | sealed_ | enabled
  deriving DecidableEq, Repr

def State.ringBar (s : State) (fn : Fn) (t r o : Nat) : RingBar :=
  if fn = .pf && s.sealed t && sealedRing o then .sealed_
  else if s.ringOn t r && (o == 0x4 || o == 0x40 || decide (8 ≤ o ∧ o < 0x20) || decide (0x38 ≤ o ∧ o < 0x40) || decide (0x48 ≤ o ∧ o < 0x50))
  then .enabled else .none_

/-- RNG_OSIZE (R398, R410): an area set up with another size begins its count anew. -/
def State.osizeWrite (s : State) (t r keep : Nat) : State :=
  let h := rng t r 0x40
  let lg := keep % 32
  let s := (s.setFld h 8 6 (keep / 2 ^ 8)).setFlag h 14 (bitOf keep 14)
  if lg = s.fld h 0 5 ∨ !(lg = 0 ∨ (6 ≤ lg ∧ lg ≤ 16)) then s else (s.setFld h 0 5 lg).setWord (rng t r 0x50) 0

/-- A word of a ring block (R377, R410, R421). -/
def State.writeRing (s : State) (fn : Fn) (h keep act : Nat) (bs : List (Option Byte)) : State :=
  let t := (h - 0x200000) / 0x800
  let r := h / 0x100 % 8
  let o := h % 0x100
  if ((s.part t).map (·.rings)).getD 0 ≤ r then s
  else match s.ringBar fn t r o with
    | .sealed_ => s.tntBad t
    | .enabled => s.setFlag (rng t r 0x30) 3 true
    | .none_ =>
      if o = 0 then (if !touched bs 0 then s else if bitOf keep 0 then s.ringEnable t r else s.ringDisable t r)
      else if o = 4 then (if 6 ≤ keep % 16 then s.setFld h 0 4 keep else s)
      else if o = 0x2C then (if fn = .pf && keep % 2 ^ 16 != 0 then s.setFld h 0 16 keep else s)
      else if o = 0x40 then
        if ((s.part t).map (·.stageSize)).getD 0 < 40 * 2 ^ 20 then s.setFlag (rng t r 0x30) 3 true else s.osizeWrite t r keep
      else s.writeCodes (fn == .pf) h keep act

/-- SCH_SEL (R77): a write that covers SEL is a request. The time of a register write is free. -/
def State.selWrite (s : State) (keep act : Nat) (bs : List (Option Byte)) : State :=
  let (at_, s) := s.free
  let v := keep % 16 + act / 2 ^ 11 % 4 * 2 ^ 11
  if touched bs 0 then s.schSelWrite v at_ else s.writeCodes true 0x10200 keep act

/-- A word at a home offset. -/
def State.writeHome (s : State) (fn : Fn) (h : Nat) (bs : List (Option Byte)) : State :=
  let cur := (s.word h).toNat
  let keep := keepBytes cur bs
  let act := actBytes bs
  let pf := fn == .pf
  if 0x110000 ≤ h ∧ h < 0x120000 then s.writeTnt fn h keep act bs
  else if 0x200000 ≤ h ∧ h < 0x208000 then s.writeRing fn h keep act bs
  else if h = 0x300000 then
    s.updFn fn fun f => { f with session := keepBytes f.session bs % 2 ^ 13 }
  else if !pf then s.writeCodes false h keep act
  else if h = 0x34 then s.enWrite true h keep act .pf 0
  else if h = 0x40 then
    let s := s.writeCodes true h keep act
    if bitOf act 2 then s.askHandover else s
  else if h = 0x100 then s.mbxWrite (act % 16)
  else if h = 0x10200 then s.selWrite keep act bs
  else if h = 0x10F000 then (if bitOf act 3 then s.askPublish (act % 8) else s)
  else if h = 0x502000 then s.lnkRetry (act % 256)
  else if h = 0x700008 then
    let s := if bitOf act 0 then s.fltClear else s
    if bitOf act 1 then s.computeFault none 0x1B {} [] else s
  else if h = 0x900004 then
    let s := if bitOf act 31 then s.setFlag h 31 false else s
    if touched bs 0 || touched bs 1 then s.modLimit (keep % 2 ^ 13) else s
  else if h = 0xA00000 then
    let s := s.writeCodes true h keep act
    if bitOf act 3 then { s with vit := { s.vit with restart := true } } else s
  else s.writeCodes true h keep act

/-! ## Writes of both halves (R556, R557) -/

/-- Has a word a field that a view may write as RW? -/
def rwAny (h : Nat) (pf : Bool) : Bool := codeMask h pf (· == .rw) != 0

/-- A register of 64 bits: its low half is held until the high half is written, unless both come at once. -/
def State.writeWide (s : State) (fn : Fn) (h : Nat) (lo hi : List (Option Byte)) : State :=
  let pf := fn == .pf
  let anyLo := lo.any Option.isSome
  let anyHi := hi.any Option.isSome
  let heldLo := aget (s.fnState fn).held h
  if anyHi then
    let low : Nat := keepBytes ((heldLo.getD (s.word h)).toNat) lo
    let s := s.updFn fn fun f => { f with held := adel f.held h }
    (s.writeHome fn h ((leBytes 4 low).map some)).writeHome fn (h + 4) hi
  else if anyLo && (rwAny h pf || rwAny (h + 4) pf) then
    s.updFn fn fun f => { f with held := aput f.held h (BitVec.ofNat 32 (keepBytes ((heldLo.getD (s.word h)).toNat) lo)) }
  else s

/-- A write of the MSI-X table: a vector that is unmasked while pending is sent (R555). -/
def State.msixWrite (s : State) (fn : Fn) (o : Nat) (bs : List (Option Byte)) : State :=
  if 16 * fn.vectors ≤ o then s
  else
    let v := o / 16
    let s := s.updFn fn fun f =>
      let w := keepBytes (nget f.msix o).toNat bs
      { f with msix := nset f.msix o (BitVec.ofNat 32 (if o % 16 = 12 then w % 2 else w)) }
    let f := s.fnState fn
    if !f.masked v && bitOf f.pba v then (s.updFn fn fun f => { f with pba := f.pba - 2 ^ v }).send (.intr fn v) else s

/-- A tenant's write of a hidden offset or field (R10, R431). -/
def State.hiddenWrite (s : State) (t off : Nat) : State := s.raise t 0xD0 { addr := off }

/-- Does a word's write put a non-zero value into a field that the VF view hides? -/
def hidesNonzero (h : Nat) (bs : List (Option Byte)) : Bool :=
  (BitVec.ofNat 32 (actBytes bs) &&& BitVec.ofNat 32 (codeMask h false (· == .no))).toNat != 0

/-- A write by VF `t` of the word at `off` that is no half of a 64-bit register (R561). -/
def State.writeVf (s : State) (t off : Nat) (bs : List (Option Byte)) : State :=
  match vfPlace t off with
  | .msix o => s.msixWrite (.vf t) o bs
  | .doorbell r => s.doorbell t r (actBytes bs % 2 ^ 16)
  | .reserved => s
  | .hidden => if s.offNow t || s.tState t == tsResetting then s else s.hiddenWrite t off
  | .home h =>
    if s.offNow t then s
    else if s.tState t == tsResetting && h != tnt t 0x30 && h != tnt t 0x34 then s
    else if hidesNonzero h bs then s.hiddenWrite t off
    else s.writeHome (.vf t) h bs

/-- A write by the PF of such a word (R47, R559). -/
def State.writePf (s : State) (off : Nat) (bs : List (Option Byte)) : State :=
  match pfMsix off, homeOf .pf off with
  | some o, _ => s.msixWrite .pf o bs
  | none, some h => if s.serves || early h then s.writeHome .pf h bs else s
  | none, none => s

def State.writeWord (s : State) (fn : Fn) (off : Nat) (bs : List (Option Byte)) : State :=
  if !(bs.any Option.isSome) then s
  else match fn with
    | .pf => s.writePf off bs
    | .vf t => s.writeVf t off bs

/-- May a function write a home offset of 64 bits now? -/
def State.wideOpen (s : State) (fn : Fn) : Bool :=
  match fn with
  | .pf => s.serves
  | .vf t => !s.offNow t && s.tState t != tsResetting

/-- One access within the aligned 8-byte word at `base`. -/
def State.writePair (s : State) (fn : Fn) (base : Nat) (bs : List (Option Byte)) : State :=
  let lo := bs.take 4
  let hi := bs.drop 4
  match homeOf fn base with
  | some h =>
    if isWide h then
      if !s.wideOpen fn then s
      else match fn with
        | .vf t => if hidesNonzero h lo || hidesNonzero (h + 4) hi then s.hiddenWrite t base else s.writeWide fn h lo hi
        | .pf => s.writeWide fn h lo hi
    else (s.writeWord fn base lo).writeWord fn (base + 4) hi
  | none => (s.writeWord fn base lo).writeWord fn (base + 4) hi

/-- The write of `data` at `off`, word by word of 8 bytes in increasing order. -/
def State.writeAt (s : State) (fn : Fn) : Nat → Nat → List (Option Byte) → State
  | 0, _, _ => s
  | fuel + 1, off, data =>
    if data.isEmpty then s
    else
      let base := off / 8 * 8
      let n := min data.length (base + 8 - off)
      let bs := ((List.replicate (off - base) none ++ data.take n) ++ List.replicate 8 none).take 8
      (if s.barLive fn then s.writePair fn base bs else s).writeAt fn fuel (off + n) (data.drop n)

/-- REGISTER_WRITE: posted, with or without effect. -/
def execRegisterWrite (fn : Fn) (off : Nat) (data : List (Option Byte)) (s : State) : Host.Outcome State Fault Refusal :=
  .next (s.writeAt fn (data.length / 8 + 2) off data)

/-! ## PCIe control events (R553, R554) -/

/-- PCIE_ATOMICOP: Unsupported Request. -/
def execPcieAtomicop (fn : Fn) (s : State) : Host.Outcome State Fault Refusal := .next (s.send (.unsupported fn))

/-- A configuration request of a function (R46): before the physical function is ready it is answered with Request Retry Status
and has no effect; while PERST# is asserted nothing answers. -/
def State.configRequest (s : State) (fn : Fn) (f : State → State) : State :=
  if s.pins.perst then s.send (.noAnswer fn) else if !s.pf.ready then s.send (.retryStatus fn) else f s

/-- The function that a PCIe enable belongs to: the SR-IOV capability is the physical function's (R553). -/
def enFn : PcieEn → Fn
  | .vfEnable => .pf
  | .numVfs _ => .pf
  | .busMaster n => .vf n
  | .memSpace fn => fn

/-- PF_FLR: the configuration space, the SR-IOV capability in it, and the MSI-X table return to reset. -/
def execPfFlr (s : State) : Host.Outcome State Fault Refusal :=
  .next (s.configRequest .pf fun s => ({ s with pf := FnState.reset, vfEnable := false, numVfs := 0 } : State).setWord 0x34 0)

/-- VF_FLR: a tenant reset, in every state that allows one. -/
def execVfFlr (n : Nat) (s : State) : Host.Outcome State Fault Refusal :=
  if 16 ≤ n then .next s
  else .next (s.configRequest (.vf n) fun s => ((s.updFn (.vf n) fun _ => FnState.reset).setWord (tnt n 0x34) 0).tenantReset n true)

/-- An enable is cleared, or the number of VFs lowered. -/
def State.enClear (s : State) : PcieEn → State
  | .vfEnable => { s with vfEnable := false }
  | .numVfs n => { s with numVfs := min s.numVfs n }
  | .busMaster n => s.updFn (.vf n) fun f => { f with busMaster := false }
  | .memSpace _ => s

/-- An enable is set, or the number of VFs raised. -/
def State.enSet (s : State) : PcieEn → State
  | .vfEnable => { s with vfEnable := true }
  | .numVfs n => { s with numVfs := max s.numVfs (min 16 n) }
  | .busMaster n => s.updFn (.vf n) fun f => { f with busMaster := true }
  | .memSpace fn => s.updFn fn fun f => { f with memEnable := true }

/-- VF_ACCESS_LOSS: requests for a tenant without its VF, or without bus mastering, fail from now on. -/
def execVfAccessLoss (e : PcieEn) (s : State) : Host.Outcome State Fault Refusal :=
  .next (s.configRequest (enFn e) fun s => s.enClear e)

/-- PCIE_ENABLE_RESTORE. -/
def execPcieEnableRestore (e : PcieEn) (s : State) : Host.Outcome State Fault Refusal :=
  .next (s.configRequest (enFn e) fun s => s.enSet e)

/-- MEMORY_SPACE_DISABLE. -/
def execMemorySpaceDisable (fn : Fn) (s : State) : Host.Outcome State Fault Refusal :=
  .next (s.configRequest fn fun s => s.updFn fn fun f => { f with memEnable := false })

end Sys2Proof.Machine
end

