-- ==== Sys2Proof/Machine/Bar2.lean ====
section
/-!
DEFINITION. Bar2.lean: the memory windows of the PCIe functions (R416, R419, R420, R431, R464, R471, R543).
-/

namespace Sys2Proof.Machine

/-! ## What the PF's window hides (R416, R418, R420) -/

/-- Is channel group `g` in the mask of a sealed tenant, or of a common region whose LOADER is sealed? -/
def State.groupSealed (s : State) (g : Nat) : Bool :=
  ((List.range 16).any fun t => s.sealed t && ((s.part t).map fun p => bitOf p.chgroups g).getD false) ||
  (((s.cat.map (·.commons)).getD []).any fun c => bitOf c.groups g && s.sealed c.loader)

/-- The last channel group of a mask, where the tenant's hidden area lies (R415). -/
def lastGroup (mask : Nat) : Option Nat := (bitsOf 32 mask).getLast?

/-- Does the PF's window hide module address `ma`: a sealed group, a hidden area, the page reserve? -/
def State.pfHides (s : State) (ma : Nat) : Bool :=
  let g := ma / 0x800000000
  let o := ma % 0x800000000
  decide (0x7E0000000 ≤ o) || s.groupSealed g ||
  (decide (0x7D0000000 ≤ o) && (List.range 16).any fun t => ((s.part t).map fun p => lastGroup p.chgroups == some g).getD false)

/-- Whose own tenant address is module address `ma`, and which (R414). -/
def State.taOfMa (s : State) (ma : Nat) : Option (Nat × Nat) :=
  let g := ma / 0x800000000
  let o := ma % 0x800000000
  ((List.range 16).filterMap fun t =>
    match s.part t with
    | none => none
    | some p =>
      let ta := ((bitsOf 32 p.chgroups).takeWhile (· != g)).length * 0x7E0000000 + o
      if bitOf p.chgroups g && decide (o < 0x7E0000000) && decide (ta < p.taSize) then some (t, ta) else none).head?

/-! ## Reads -/

/-- A read through the PF's window. -/
def State.pfRead (s : State) (ma n : Nat) : List Byte :=
  (cut256 ma n).foldl (fun bs (a, k) => bs ++ (if s.pfHides a then List.replicate k 0 else readBytes s.hbm a k)) []

/-- A read by tenant `t`. Outside its own range and its windows it is a violation, and the answer is zeros (R431). -/
def State.vfRead (s : State) (t ta n : Nat) : List Byte × State :=
  match s.part t with
  | none => (List.replicate n 0, s)
  | some _ =>
    match s.taFetch t ta n with
    | (some (bs, _), s) => (bs, s)
    | (none, s) => (List.replicate n 0, s.raise t 0xD1 { addr := ta })

/-- BAR2_READ (R416). Before step 9 the window shows zeros. -/
def execBar2Read (fn : Fn) (addr len : Nat) (s : State) : Host.Outcome State Fault Refusal :=
  if !s.barLive fn || decide (2 ^ 40 < addr + len) then .next (s.send (.noAnswer fn))
  else if !s.serves then .next (s.send (.answer fn (List.replicate len 0)))
  else match fn with
    | .pf => .next (s.send (.answer fn (s.pfRead addr len)))
    | .vf t =>
      let (bs, s) := s.vfRead t addr len
      .next (s.send (.answer fn bs))

/-! ## Writes -/

/-- A host write into tenant `t`'s own range. The member that does not serve drops it in MIRROR and COMPARE; the member that serves
forwards it (R471). While the tenant is being zeroed, whether the bytes stay is free (R423). -/
def State.ownWrite (s : State) (t ta : Nat) (bs : List Byte) : State :=
  let twinned := s.mode t != 0 || s.flag (tnt t 0x10) 0
  if s.mode t != 0 && !s.servesPair then s.bumpFld (tnt t 0x10) 8 8
  else
    let (k, s) := s.free
    let s := if s.tState t == tsResetting && k % 2 == 0 then s else s.taWrite t ta bs false
    if twinned && s.servesPair && !s.twinLost then s.sendTwin 3 (.mirror t (.write ta bs false)) else s

/-- A write by tenant `t` (R419, R431, R464). -/
def State.vfWrite (s : State) (t ta : Nat) (bs : List Byte) : State :=
  match s.part t with
  | none => s
  | some p =>
    match s.taWriteBar t ta bs.length 0xD1 with
    | some code => s.raise t code { addr := ta }
    | none => if ta < p.taSize then s.ownWrite t ta bs else s.taWrite t ta bs false

/-- One block of a write by the PF. The trace group and what the window hides take no write (R416, R543); a locked weight range is
closed to every source (R464). -/
def State.pfWriteBlock (s : State) (a : Nat) (bs : List Byte) : State :=
  if s.pfHides a || s.traceGroup == some (a / 0x800000000) then s
  else match s.taOfMa a with
    | some (t, ta) =>
      if (s.twinSt t).wsetOn.any fun (lo, k) => !apart ta bs.length lo k then s.raise t 0xF4 { addr := ta }
      else s.ownWrite t ta bs
    | none => s.maWrite a bs false

def State.pfWrite (s : State) (ma : Nat) (bs : List Byte) : State :=
  ((cut256 ma bs.length).foldl (fun ((s, bs) : State × List Byte) (a, k) => (s.pfWriteBlock a (bs.take k), bs.drop k)) (s, bs)).1

/-- BAR2_WRITE (R416): posted, with or without effect. -/
def execBar2Write (fn : Fn) (addr : Nat) (data : List Byte) (s : State) : Host.Outcome State Fault Refusal :=
  if !s.barLive fn || !s.serves || decide (2 ^ 40 < addr + data.length) then .next s
  else match fn with
    | .pf => .next (s.pfWrite addr data)
    | .vf t => .next (s.vfWrite t addr data)

end Sys2Proof.Machine
end

