-- ==== Sys2Proof/Machine/Dispatch.lean ====
section
/-!
DEFINITION. Dispatch.lean: one arm per command.
-/

namespace Sys2Proof.Machine

def exec (i : Instr) (s : State) : Host.Outcome State Fault Refusal :=
  match i with
  | .registerWrite fn off data => Sys2Proof.Machine.execRegisterWrite fn off data s
  | .pcieAtomicop fn => Sys2Proof.Machine.execPcieAtomicop fn s
  | .bar2Read fn addr len => Sys2Proof.Machine.execBar2Read fn addr len s
  | .bar2Write fn addr data => Sys2Proof.Machine.execBar2Write fn addr data s
  | .pfFlr => Sys2Proof.Machine.execPfFlr s
  | .vfFlr n => Sys2Proof.Machine.execVfFlr n s
  | .vfAccessLoss e => Sys2Proof.Machine.execVfAccessLoss e s
  | .powerGood conv boardTest => Sys2Proof.Machine.execPowerGood conv boardTest s
  | .powerGoodLoss out => Sys2Proof.Machine.execPowerGoodLoss out s
  | .perstAssert => Sys2Proof.Machine.execPerstAssert s
  | .perstDeassert => Sys2Proof.Machine.execPerstDeassert s
  | .matedOpen => Sys2Proof.Machine.execMatedOpen s
  | .matedClose => Sys2Proof.Machine.execMatedClose s
  | .pcieFunctionReady => Sys2Proof.Machine.execPcieFunctionReady s
  | .startSequence slotId x => Sys2Proof.Machine.execStartSequence slotId x s
  | .mbxWriteCat image again => Sys2Proof.Machine.execMbxWriteCat image again s
  | .mbxWriteFw image again => Sys2Proof.Machine.execMbxWriteFw image again s
  | .mbxEnrolKey req => Sys2Proof.Machine.execMbxEnrolKey req s
  | .mbxRevokeKey req => Sys2Proof.Machine.execMbxRevokeKey req s
  | .mbxRestart => Sys2Proof.Machine.execMbxRestart s
  | .mbxBadCmd cmd => Sys2Proof.Machine.execMbxBadCmd cmd s
  | .mbxCommandEnd flashOk => Sys2Proof.Machine.execMbxCommandEnd flashOk s
  | .tickInEdge at_ => Sys2Proof.Machine.execTickInEdge at_ s
  | .tickInWindowExpiry at_ => Sys2Proof.Machine.execTickInWindowExpiry at_ s
  | .tickInHoldover at_ => Sys2Proof.Machine.execTickInHoldover at_ s
  | .tickSymbolReceive port sym at_ => Sys2Proof.Machine.execTickSymbolReceive port sym at_ s
  | .tickBoundary at_ => Sys2Proof.Machine.execTickBoundary at_ s
  | .tickOutEnd => Sys2Proof.Machine.execTickOutEnd s
  | .holdoverEntry at_ => Sys2Proof.Machine.execHoldoverEntry at_ s
  | .holdoverLimit => Sys2Proof.Machine.execHoldoverLimit s
  | .successionTakeover at_ => Sys2Proof.Machine.execSuccessionTakeover at_ s
  | .masterRelinquish at_ => Sys2Proof.Machine.execMasterRelinquish at_ s
  | .delayEcho => Sys2Proof.Machine.execDelayEcho s
  | .delayEchoReceive att up delay => Sys2Proof.Machine.execDelayEchoReceive att up delay s
  | .censusReceive moduleId serial => Sys2Proof.Machine.execCensusReceive moduleId serial s
  | .tickOriginateTimeout at_ => Sys2Proof.Machine.execTickOriginateTimeout at_ s
  | .tickLockTimeout => Sys2Proof.Machine.execTickLockTimeout s
  | .schSelWrite v at_ => Sys2Proof.Machine.execSchSelWrite v at_ s
  | .entryOpen n => Sys2Proof.Machine.execEntryOpen n s
  | .entryEnd n => Sys2Proof.Machine.execEntryEnd n s
  | .marginStart => Sys2Proof.Machine.execMarginStart s
  | .bgAtomStart cls off => Sys2Proof.Machine.execBgAtomStart cls off s
  | .bgAtomComplete cls at_ o => Sys2Proof.Machine.execBgAtomComplete cls at_ o s
  | .bgDeadlineExpiry cls unit at_ => Sys2Proof.Machine.execBgDeadlineExpiry cls unit at_ s
  | .preempt tile => Sys2Proof.Machine.execPreempt tile s
  | .overrunExpiry t progress => Sys2Proof.Machine.execOverrunExpiry t progress s
  | .tickWorkComplete t n excess => Sys2Proof.Machine.execTickWorkComplete t n excess s
  | .programLaunch t => Sys2Proof.Machine.execProgramLaunch t s
  | .tileFetchFault t => Sys2Proof.Machine.execTileFetchFault t s
  | .invalidOpcode t w => Sys2Proof.Machine.execInvalidOpcode t w s
  | .nop t w => Sys2Proof.Machine.execNop t w s
  | .endProgram t w => Sys2Proof.Machine.execEndProgram t w s
  | .barrier t w => Sys2Proof.Machine.execBarrier t w s
  | .loop t w => Sys2Proof.Machine.execLoop t w s
  | .acq t w => Sys2Proof.Machine.execAcq t w s
  | .rel t w => Sys2Proof.Machine.execRel t w s
  | .fence t w => Sys2Proof.Machine.execFence t w s
  | .cwait t w => Sys2Proof.Machine.execCwait t w s
  | .cwaitSatisfied t => Sys2Proof.Machine.execCwaitSatisfied t s
  | .cset t w => Sys2Proof.Machine.execCset t w s
  | .matmul t w => Sys2Proof.Machine.execMatmul t w s
  | .matmulSide t w => Sys2Proof.Machine.execMatmulSide t w s
  | .vld t w => Sys2Proof.Machine.execVld t w s
  | .vst t w => Sys2Proof.Machine.execVst t w s
  | .vbcast t w => Sys2Proof.Machine.execVbcast t w s
  | .viota t w => Sys2Proof.Machine.execViota t w s
  | .vadd t w => Sys2Proof.Machine.execVadd t w s
  | .vsub t w => Sys2Proof.Machine.execVsub t w s
  | .vmul t w => Sys2Proof.Machine.execVmul t w s
  | .vfma t w => Sys2Proof.Machine.execVfma t w s
  | .vmax t w => Sys2Proof.Machine.execVmax t w s
  | .vmin t w => Sys2Proof.Machine.execVmin t w s
  | .vabs t w => Sys2Proof.Machine.execVabs t w s
  | .vneg t w => Sys2Proof.Machine.execVneg t w s
  | .vcmp t w => Sys2Proof.Machine.execVcmp t w s
  | .vsel t w => Sys2Proof.Machine.execVsel t w s
  | .vexp t w => Sys2Proof.Machine.execVexp t w s
  | .vrcp t w => Sys2Proof.Machine.execVrcp t w s
  | .vrsq t w => Sys2Proof.Machine.execVrsq t w s
  | .vrsum t w => Sys2Proof.Machine.execVrsum t w s
  | .vrmax t w => Sys2Proof.Machine.execVrmax t w s
  | .vrmin t w => Sys2Proof.Machine.execVrmin t w s
  | .iadd t w => Sys2Proof.Machine.execIadd t w s
  | .isub t w => Sys2Proof.Machine.execIsub t w s
  | .imul t w => Sys2Proof.Machine.execImul t w s
  | .imulhi t w => Sys2Proof.Machine.execImulhi t w s
  | .iand t w => Sys2Proof.Machine.execIand t w s
  | .ior t w => Sys2Proof.Machine.execIor t w s
  | .ixor t w => Sys2Proof.Machine.execIxor t w s
  | .ishl t w => Sys2Proof.Machine.execIshl t w s
  | .ishr t w => Sys2Proof.Machine.execIshr t w s
  | .icmp t w => Sys2Proof.Machine.execIcmp t w s
  | .vcvt t w => Sys2Proof.Machine.execVcvt t w s
  | .vpext t w => Sys2Proof.Machine.execVpext t w s
  | .kop t w => Sys2Proof.Machine.execKop t w s
  | .vflag t w => Sys2Proof.Machine.execVflag t w s
  | .vrng t w => Sys2Proof.Machine.execVrng t w s
  | .qstatGatherNew t w => Sys2Proof.Machine.execQstatGatherNew t w s
  | .qstatGather t w => Sys2Proof.Machine.execQstatGather t w s
  | .qstatFinish t w => Sys2Proof.Machine.execQstatFinish t w s
  | .qstatMerge t w => Sys2Proof.Machine.execQstatMerge t w s
  | .qconv t w => Sys2Proof.Machine.execQconv t w s
  | .vtopk t w => Sys2Proof.Machine.execVtopk t w s
  | .vsample t w => Sys2Proof.Machine.execVsample t w s
  | .attn t w => Sys2Proof.Machine.execAttn t w s
  | .keyGroupFetch t => Sys2Proof.Machine.execKeyGroupFetch t s
  | .attnMerge t w => Sys2Proof.Machine.execAttnMerge t w s
  | .xstart t w => Sys2Proof.Machine.execXstart t w s
  | .rgnOpen t w => Sys2Proof.Machine.execRgnOpen t w s
  | .rgnClose t w => Sys2Proof.Machine.execRgnClose t w s
  | .slotWait t w => Sys2Proof.Machine.execSlotWait t w s
  | .slotRelease t w => Sys2Proof.Machine.execSlotRelease t w s
  | .cxEnc t w => Sys2Proof.Machine.execCxEnc t w s
  | .cxDec t w => Sys2Proof.Machine.execCxDec t w s
  | .cxTload t w => Sys2Proof.Machine.execCxTload t w s
  | .cxHist t w => Sys2Proof.Machine.execCxHist t w s
  | .instructionComplete t id => Sys2Proof.Machine.execInstructionComplete t id s
  | .programComplete t => Sys2Proof.Machine.execProgramComplete t s
  | .slotMark t desc => Sys2Proof.Machine.execSlotMark t desc s
  | .slotMarkSeen t unit => Sys2Proof.Machine.execSlotMarkSeen t unit s
  | .descriptorFetch tile chan => Sys2Proof.Machine.execDescriptorFetch tile chan s
  | .copy tile chan => Sys2Proof.Machine.execCopy tile chan s
  | .fill tile chan => Sys2Proof.Machine.execFill tile chan s
  | .convert tile chan => Sys2Proof.Machine.execConvert tile chan s
  | .link tile chan => Sys2Proof.Machine.execLink tile chan s
  | .transferRequestComplete tile chan ord n => Sys2Proof.Machine.execTransferRequestComplete tile chan ord n s
  | .codecBlock codec tile => Sys2Proof.Machine.execCodecBlock codec tile s
  | .codecTloadApply codec tile => Sys2Proof.Machine.execCodecTloadApply codec tile s
  | .attachmentJoin k upOk downOk => Sys2Proof.Machine.execAttachmentJoin k upOk downOk s
  | .joinWindowExpiry k => Sys2Proof.Machine.execJoinWindowExpiry k s
  | .joinRetryTimer k => Sys2Proof.Machine.execJoinRetryTimer k s
  | .bypassSettleTimeout k => Sys2Proof.Machine.execBypassSettleTimeout k s
  | .identSend port => Sys2Proof.Machine.execIdentSend port s
  | .identReceive port x => Sys2Proof.Machine.execIdentReceive port x s
  | .portPartnerLoss port => Sys2Proof.Machine.execPortPartnerLoss port s
  | .portRetrainComplete port x => Sys2Proof.Machine.execPortRetrainComplete port x s
  | .attachmentDown k => Sys2Proof.Machine.execAttachmentDown k s
  | .lnkRetry mask => Sys2Proof.Machine.execLnkRetry mask s
  | .laneFail port lane crossed => Sys2Proof.Machine.execLaneFail port lane crossed s
  | .linkBlockReceive port bytes => Sys2Proof.Machine.execLinkBlockReceive port bytes s
  | .linkResendTimeout port => Sys2Proof.Machine.execLinkResendTimeout port s
  | .packetWrite p => Sys2Proof.Machine.execPacketWrite p s
  | .remoteWriteRefused p => Sys2Proof.Machine.execRemoteWriteRefused p s
  | .packetSignal p => Sys2Proof.Machine.execPacketSignal p s
  | .packetAck p vc => Sys2Proof.Machine.execPacketAck p vc s
  | .packetControl p => Sys2Proof.Machine.execPacketControl p s
  | .e2eResendTimeout dst vc tag => Sys2Proof.Machine.execE2eResendTimeout dst vc tag s
  | .servingAnnouncement pair who => Sys2Proof.Machine.execServingAnnouncement pair who s
  | .servingTableRequest src => Sys2Proof.Machine.execServingTableRequest src s
  | .heartbeatSend => Sys2Proof.Machine.execHeartbeatSend s
  | .heartbeatReceive => Sys2Proof.Machine.execHeartbeatReceive s
  | .twinLossTimeout => Sys2Proof.Machine.execTwinLossTimeout s
  | .twinReturn => Sys2Proof.Machine.execTwinReturn s
  | .collBind t c => Sys2Proof.Machine.execCollBind t c s
  | .collUnbind t c => Sys2Proof.Machine.execCollUnbind t c s
  | .collAllreduce t c => Sys2Proof.Machine.execCollAllreduce t c s
  | .collReduceScatter t c => Sys2Proof.Machine.execCollReduceScatter t c s
  | .collAllgather t c => Sys2Proof.Machine.execCollAllgather t c s
  | .collAlltoall t c => Sys2Proof.Machine.execCollAlltoall t c s
  | .collAlltoallv t c => Sys2Proof.Machine.execCollAlltoallv t c s
  | .collBarrier t c => Sys2Proof.Machine.execCollBarrier t c s
  | .collTokenReceive k => Sys2Proof.Machine.execCollTokenReceive k s
  | .collAbortReceive t g q => Sys2Proof.Machine.execCollAbortReceive t g q s
  | .collSegmentStart t g q => Sys2Proof.Machine.execCollSegmentStart t g q s
  | .collComplete t g q recomp adder => Sys2Proof.Machine.execCollComplete t g q recomp adder s
  | .doorbell t r tail => Sys2Proof.Machine.execDoorbell t r tail s
  | .ringEnable t r => Sys2Proof.Machine.execRingEnable t r s
  | .ringDisable t r => Sys2Proof.Machine.execRingDisable t r s
  | .commandFetch t r data => Sys2Proof.Machine.execCommandFetch t r data s
  | .commandReport t r csn ok => Sys2Proof.Machine.execCommandReport t r csn ok s
  | .ringTimeout t r progress => Sys2Proof.Machine.execRingTimeout t r progress s
  | .cmdNop t c => Sys2Proof.Machine.execCmdNop t c s
  | .cmdMatmul t c => Sys2Proof.Machine.execCmdMatmul t c s
  | .cmdAttn t c => Sys2Proof.Machine.execCmdAttn t c s
  | .cmdVec t c => Sys2Proof.Machine.execCmdVec t c s
  | .cmdQstat t c => Sys2Proof.Machine.execCmdQstat t c s
  | .cmdQconv t c => Sys2Proof.Machine.execCmdQconv t c s
  | .cmdXfer t c => Sys2Proof.Machine.execCmdXfer t c s
  | .cmdCodec t c => Sys2Proof.Machine.execCmdCodec t c s
  | .pageAlloc t c => Sys2Proof.Machine.execPageAlloc t c s
  | .pageFree t c => Sys2Proof.Machine.execPageFree t c s
  | .pageShare t c => Sys2Proof.Machine.execPageShare t c s
  | .pageCopy t c => Sys2Proof.Machine.execPageCopy t c s
  | .sessionFeed t c => Sys2Proof.Machine.execSessionFeed t c s
  | .sessionOpen t c => Sys2Proof.Machine.execSessionOpen t c s
  | .setSampling t c => Sys2Proof.Machine.execSetSampling t c s
  | .setStop t c => Sys2Proof.Machine.execSetStop t c s
  | .sessionStop t c => Sys2Proof.Machine.execSessionStop t c s
  | .sessionClose t c => Sys2Proof.Machine.execSessionClose t c s
  | .sessionPark t c => Sys2Proof.Machine.execSessionPark t c s
  | .sessionUnpark t c => Sys2Proof.Machine.execSessionUnpark t c s
  | .sessionTruncate t c => Sys2Proof.Machine.execSessionTruncate t c s
  | .sessionMigrate t c => Sys2Proof.Machine.execSessionMigrate t c s
  | .migrateConfirm t n ok => Sys2Proof.Machine.execMigrateConfirm t n ok s
  | .recipeLoad t c => Sys2Proof.Machine.execRecipeLoad t c s
  | .recipePatch t c => Sys2Proof.Machine.execRecipePatch t c s
  | .recipeLaunch t c => Sys2Proof.Machine.execRecipeLaunch t c s
  | .route t c => Sys2Proof.Machine.execRoute t c s
  | .routeItemPlace t tile => Sys2Proof.Machine.execRouteItemPlace t tile s
  | .cmdSignal t c => Sys2Proof.Machine.execCmdSignal t c s
  | .cmdWait t c => Sys2Proof.Machine.execCmdWait t c s
  | .waitSatisfied t c => Sys2Proof.Machine.execWaitSatisfied t c s
  | .cmdFence t c => Sys2Proof.Machine.execCmdFence t c s
  | .larderCopyComplete t => Sys2Proof.Machine.execLarderCopyComplete t s
  | .mirrorRecordReceive t r => Sys2Proof.Machine.execMirrorRecordReceive t r s
  | .mirrorMarkReceive t tick ctrs csns ret => Sys2Proof.Machine.execMirrorMarkReceive t tick ctrs csns ret s
  | .freeze t => Sys2Proof.Machine.execFreeze t s
  | .unfreeze t => Sys2Proof.Machine.execUnfreeze t s
  | .tenantReset t => Sys2Proof.Machine.execTenantReset t s
  | .tenantResetComplete t => Sys2Proof.Machine.execTenantResetComplete t s
  | .twinModeRequest t req => Sys2Proof.Machine.execTwinModeRequest t req s
  | .twinModeRequestReceive t mode tick digest commons => Sys2Proof.Machine.execTwinModeRequestReceive t mode tick digest commons s
  | .resyncComplete t => Sys2Proof.Machine.execResyncComplete t s
  | .publish r => Sys2Proof.Machine.execPublish r s
  | .commonDigestComplete r => Sys2Proof.Machine.execCommonDigestComplete r s
  | .wsetGo t => Sys2Proof.Machine.execWsetGo t s
  | .wsetDigestComplete t => Sys2Proof.Machine.execWsetDigestComplete t s
  | .faultClear t => Sys2Proof.Machine.execFaultClear t s
  | .fltClear => Sys2Proof.Machine.execFltClear s
  | .cpReset => Sys2Proof.Machine.execCpReset s
  | .handover => Sys2Proof.Machine.execHandover s
  | .ladleCtlWrite t value => Sys2Proof.Machine.execLadleCtlWrite t value s
  | .ladleLaunchComplete t bseq ok => Sys2Proof.Machine.execLadleLaunchComplete t bseq ok s
  | .batchListReceive t src x => Sys2Proof.Machine.execBatchListReceive t src x s
  | .ladleCreditReceive t bseq => Sys2Proof.Machine.execLadleCreditReceive t bseq s
  | .returnReceive t r => Sys2Proof.Machine.execReturnReceive t r s
  | .epochBoundary t => Sys2Proof.Machine.execEpochBoundary t s
  | .residentCopyComplete t layer tile expert => Sys2Proof.Machine.execResidentCopyComplete t layer tile expert s
  | .reflowNoticeReceive t b => Sys2Proof.Machine.execReflowNoticeReceive t b s
  | .stepRecordReceive t r => Sys2Proof.Machine.execStepRecordReceive t r s
  | .unitComplete t unit => Sys2Proof.Machine.execUnitComplete t unit s
  | .unitDigestReceive t unit digest => Sys2Proof.Machine.execUnitDigestReceive t unit digest s
  | .computePartReset => Sys2Proof.Machine.execComputePartReset s
  | .computePartRelease => Sys2Proof.Machine.execComputePartRelease s
  | .suspectWindow t progress => Sys2Proof.Machine.execSuspectWindow t progress s
  | .suspectReplayLimit => Sys2Proof.Machine.execSuspectReplayLimit s
  | .mcFailover => Sys2Proof.Machine.execMcFailover s
  | .escalationWindowEnd => Sys2Proof.Machine.execEscalationWindowEnd s
  | .wearInterval => Sys2Proof.Machine.execWearInterval s
  | .accessionAppend ok => Sys2Proof.Machine.execAccessionAppend ok s
  | .hbmPageCopyComplete g page => Sys2Proof.Machine.execHbmPageCopyComplete g page s
  | .vacancyTimeout tile => Sys2Proof.Machine.execVacancyTimeout tile s
  | .phaseTrip rail phase => Sys2Proof.Machine.execPhaseTrip rail phase s
  | .powerSample x => Sys2Proof.Machine.execPowerSample x s
  | .tempSample xs => Sys2Proof.Machine.execTempSample xs s
  | .thermalUpdate => Sys2Proof.Machine.execThermalUpdate s
  | .droopDetect d => Sys2Proof.Machine.execDroopDetect d s
  | .droopRelease d => Sys2Proof.Machine.execDroopRelease d s
  | .throttleLow at_ => Sys2Proof.Machine.execThrottleLow at_ s
  | .throttleAccept at_ => Sys2Proof.Machine.execThrottleAccept at_ s
  | .throttleHigh at_ => Sys2Proof.Machine.execThrottleHigh at_ s
  | .throttleRelease at_ => Sys2Proof.Machine.execThrottleRelease at_ s
  | .converterFail n => Sys2Proof.Machine.execConverterFail n s
  | .railFault n => Sys2Proof.Machine.execRailFault n s
  | .pwrModLimitWrite value => Sys2Proof.Machine.execPwrModLimitWrite value s
  | .vitRestart => Sys2Proof.Machine.execVitRestart s
  | .traceFrameSend => Sys2Proof.Machine.execTraceFrameSend s
  | .jtagExtest bits => Sys2Proof.Machine.execJtagExtest bits s
  | .jtagSamplePreload bits => Sys2Proof.Machine.execJtagSamplePreload bits s
  | .jtagIdcode => Sys2Proof.Machine.execJtagIdcode s
  | .jtagBypass code bits => Sys2Proof.Machine.execJtagBypass code bits s
  | .smbStatus => Sys2Proof.Machine.execSmbStatus s
  | .smbPower => Sys2Proof.Machine.execSmbPower s
  | .smbTemp => Sys2Proof.Machine.execSmbTemp s
  | .smbIdent => Sys2Proof.Machine.execSmbIdent s
  | .smbPosition => Sys2Proof.Machine.execSmbPosition s
  | .smbAlert => Sys2Proof.Machine.execSmbAlert s
  | .smbAlertClr causes => Sys2Proof.Machine.execSmbAlertClr causes s
  | .registerRead fn off len => Sys2Proof.Machine.execRegisterRead fn off len s
  | .pcieCompletionTimeout t r => Sys2Proof.Machine.execPcieCompletionTimeout t r s
  | .linkTrainingTimeout => Sys2Proof.Machine.execLinkTrainingTimeout s
  | .ccFail die => Sys2Proof.Machine.execCcFail die s
  | .memorySpaceDisable fn => Sys2Proof.Machine.execMemorySpaceDisable fn s
  | .pcieEnableRestore e => Sys2Proof.Machine.execPcieEnableRestore e s
  | .hbmScrub ma n ue => Sys2Proof.Machine.execHbmScrub ma n ue s
  | .smbUnlistedCommand => Sys2Proof.Machine.execSmbUnlistedCommand s

end Sys2Proof.Machine
end

