-- ==== Sys2Proof/WellFormed.lean ====
section
/-!
DEFINITION. WellFormed.lean: the commands whose operands name things that exist: a tenant, a ring, a tile, a port, a function.
-/

namespace Sys2Proof

open Sys2Proof.Machine

/-- A function exists: the PF, or one of sixteen VFs (R554). -/
def wfFn : Fn → Bool
  | .pf => true
  | .vf n => decide (n < 16)

/-- The size of a function's BAR0 (R553). -/
def barSize : Fn → Nat
  | .pf => 0x4000000
  | .vf _ => 0x100000

/-- An enable names things that exist (R554). -/
def wfEn : PcieEn → Bool
  | .vfEnable => true
  | .numVfs n => decide (n ≤ 16)
  | .busMaster n => decide (n < 16)
  | .memSpace fn => wfFn fn

/-- A command names a ring that exists (R376), with a CSN of 32 bits (R380). -/
def wfRef : CmdRef → Bool
  | .ring r csn => decide (r < 8) && decide (csn < 2 ^ 32)
  | .stored (some r) _ _ => decide (r < 8)
  | .stored none _ _ => true
  | .item _ _ => true

/-- The fields of a packet's header keep their widths, and the payload has at most 256 bytes (R334). -/
def wfPacket (p : Packet) : Bool :=
  decide (p.vc < 4) && decide (p.dst < 64) && decide (p.src < 64) && decide (p.tenant < 16) && decide (p.payload.length ≤ 256) &&
  decide (p.addr < 2 ^ 64)

/-- Is a command well formed? -/
def wf : Instr → Bool
  | .registerWrite fn off data => wfFn fn && decide (off + data.length ≤ barSize fn)
  | .pcieAtomicop fn => wfFn fn
  | .bar2Read fn addr len => wfFn fn && decide (addr + len ≤ 2 ^ 40)
  | .bar2Write fn addr data => wfFn fn && decide (addr + data.length ≤ 2 ^ 40)
  | .pfFlr => true
  | .vfFlr n => decide (n < 16)
  | .vfAccessLoss e => wfEn e
  | .powerGood conv _ => decide (conv < 16)
  | .powerGoodLoss _ => true
  | .perstAssert => true
  | .perstDeassert => true
  | .matedOpen => true
  | .matedClose => true
  | .pcieFunctionReady => true
  | .startSequence slotId x => decide (slotId < 64) && decide (x.rails ≤ 28)
  | .mbxWriteCat _ _ => true
  | .mbxWriteFw _ _ => true
  | .mbxEnrolKey _ => true
  | .mbxRevokeKey _ => true
  | .mbxRestart => true
  | .mbxBadCmd cmd => decide (cmd = 0) || (decide (6 ≤ cmd) && decide (cmd < 16))
  | .mbxCommandEnd _ => true
  | .tickInEdge _ => true
  | .tickInWindowExpiry _ => true
  | .tickInHoldover _ => true
  | .tickSymbolReceive port _ _ => decide (port < 18)
  | .tickBoundary _ => true
  | .tickOutEnd => true
  | .holdoverEntry _ => true
  | .holdoverLimit => true
  | .successionTakeover _ => true
  | .masterRelinquish _ => true
  | .delayEcho => true
  | .delayEchoReceive att _ _ => decide (att < 8)
  | .censusReceive moduleId _ => decide (moduleId < 64)
  | .tickOriginateTimeout _ => true
  | .tickLockTimeout => true
  | .schSelWrite v _ => decide (v < 2 ^ 32)
  | .entryOpen n => decide (n < 64)
  | .entryEnd n => decide (n < 64)
  | .marginStart => true
  | .bgAtomStart cls _ => decide (0x10 ≤ cls) && decide (cls ≤ 0x16)
  | .bgAtomComplete cls _ _ => decide (0x10 ≤ cls) && decide (cls ≤ 0x16)
  | .bgDeadlineExpiry cls _ _ => decide (0x10 ≤ cls) && decide (cls ≤ 0x16)
  | .preempt tile => decide (tile < 128)
  | .overrunExpiry t _ => decide (t < 16)
  | .tickWorkComplete t _ _ => decide (t < 16)
  | .programLaunch t => decide (t < 128)
  | .tileFetchFault t => decide (t < 128)
  | .invalidOpcode t _ => decide (t < 128)
  | .nop t _ => decide (t < 128)
  | .endProgram t _ => decide (t < 128)
  | .barrier t _ => decide (t < 128)
  | .loop t _ => decide (t < 128)
  | .acq t _ => decide (t < 128)
  | .rel t _ => decide (t < 128)
  | .fence t _ => decide (t < 128)
  | .cwait t _ => decide (t < 128)
  | .cwaitSatisfied t => decide (t < 128)
  | .cset t _ => decide (t < 128)
  | .matmul t _ => decide (t < 128)
  | .matmulSide t _ => decide (t < 128)
  | .vld t _ => decide (t < 128)
  | .vst t _ => decide (t < 128)
  | .vbcast t _ => decide (t < 128)
  | .viota t _ => decide (t < 128)
  | .vadd t _ => decide (t < 128)
  | .vsub t _ => decide (t < 128)
  | .vmul t _ => decide (t < 128)
  | .vfma t _ => decide (t < 128)
  | .vmax t _ => decide (t < 128)
  | .vmin t _ => decide (t < 128)
  | .vabs t _ => decide (t < 128)
  | .vneg t _ => decide (t < 128)
  | .vcmp t _ => decide (t < 128)
  | .vsel t _ => decide (t < 128)
  | .vexp t _ => decide (t < 128)
  | .vrcp t _ => decide (t < 128)
  | .vrsq t _ => decide (t < 128)
  | .vrsum t _ => decide (t < 128)
  | .vrmax t _ => decide (t < 128)
  | .vrmin t _ => decide (t < 128)
  | .iadd t _ => decide (t < 128)
  | .isub t _ => decide (t < 128)
  | .imul t _ => decide (t < 128)
  | .imulhi t _ => decide (t < 128)
  | .iand t _ => decide (t < 128)
  | .ior t _ => decide (t < 128)
  | .ixor t _ => decide (t < 128)
  | .ishl t _ => decide (t < 128)
  | .ishr t _ => decide (t < 128)
  | .icmp t _ => decide (t < 128)
  | .vcvt t _ => decide (t < 128)
  | .vpext t _ => decide (t < 128)
  | .kop t _ => decide (t < 128)
  | .vflag t _ => decide (t < 128)
  | .vrng t _ => decide (t < 128)
  | .qstatGatherNew t _ => decide (t < 128)
  | .qstatGather t _ => decide (t < 128)
  | .qstatFinish t _ => decide (t < 128)
  | .qstatMerge t _ => decide (t < 128)
  | .qconv t _ => decide (t < 128)
  | .vtopk t _ => decide (t < 128)
  | .vsample t _ => decide (t < 128)
  | .attn t _ => decide (t < 128)
  | .keyGroupFetch t => decide (t < 128)
  | .attnMerge t _ => decide (t < 128)
  | .xstart t _ => decide (t < 128)
  | .rgnOpen t _ => decide (t < 128)
  | .rgnClose t _ => decide (t < 128)
  | .slotWait t _ => decide (t < 128)
  | .slotRelease t _ => decide (t < 128)
  | .cxEnc t _ => decide (t < 128)
  | .cxDec t _ => decide (t < 128)
  | .cxTload t _ => decide (t < 128)
  | .cxHist t _ => decide (t < 128)
  | .instructionComplete t _ => decide (t < 128)
  | .programComplete t => decide (t < 128)
  | .slotMark t _ => decide (t < 128)
  | .slotMarkSeen t _ => decide (t < 128)
  | .descriptorFetch tile chan => decide (tile < 128) && decide (chan < 128)
  | .copy tile chan => decide (tile < 128) && decide (chan < 128)
  | .fill tile chan => decide (tile < 128) && decide (chan < 128)
  | .convert tile chan => decide (tile < 128) && decide (chan < 128)
  | .link tile chan => decide (tile < 128) && decide (chan < 128)
  | .transferRequestComplete tile chan _ _ => decide (tile < 128) && decide (chan < 128)
  | .codecBlock codec tile => decide (codec < 16) && decide (tile < 128)
  | .codecTloadApply codec tile => decide (codec < 16) && decide (tile < 128)
  | .attachmentJoin k _ _ => decide (k < 8)
  | .joinWindowExpiry k => decide (k < 8)
  | .joinRetryTimer k => decide (k < 8)
  | .bypassSettleTimeout k => decide (k < 8)
  | .identSend port => decide (port < 18)
  | .identReceive port _ => decide (port < 18)
  | .portPartnerLoss port => decide (port < 18)
  | .portRetrainComplete port _ => decide (port < 18)
  | .attachmentDown k => decide (k < 8)
  | .lnkRetry mask => decide (mask < 256)
  | .laneFail port lane _ => decide (port < 18) && decide (lane < 5)
  | .linkBlockReceive port _ => decide (port < 18)
  | .linkResendTimeout port => decide (port < 18)
  | .packetWrite p => wfPacket p
  | .remoteWriteRefused p => wfPacket p
  | .packetSignal p => wfPacket p
  | .packetAck p vc => wfPacket p && decide (vc < 4)
  | .packetControl p => wfPacket p
  | .e2eResendTimeout dst vc _ => decide (dst < 64) && decide (vc < 4)
  | .servingAnnouncement pair who => decide (pair < 32) && decide (who < 4)
  | .servingTableRequest src => decide (src < 64)
  | .heartbeatSend => true
  | .heartbeatReceive => true
  | .twinLossTimeout => true
  | .twinReturn => true
  | .collBind t c => decide (t < 16) && wfRef c
  | .collUnbind t c => decide (t < 16) && wfRef c
  | .collAllreduce t c => decide (t < 16) && wfRef c
  | .collReduceScatter t c => decide (t < 16) && wfRef c
  | .collAllgather t c => decide (t < 16) && wfRef c
  | .collAlltoall t c => decide (t < 16) && wfRef c
  | .collAlltoallv t c => decide (t < 16) && wfRef c
  | .collBarrier t c => decide (t < 16) && wfRef c
  | .collTokenReceive k => decide (k.tenant < 16)
  | .collAbortReceive t _ _ => decide (t < 16)
  | .collSegmentStart t _ _ => decide (t < 16)
  | .collComplete t _ _ _ _ => decide (t < 16)
  | .doorbell t r tail => decide (t < 16) && decide (r < 8) && decide (tail < 2 ^ 16)
  | .ringEnable t r => decide (t < 16) && decide (r < 8)
  | .ringDisable t r => decide (t < 16) && decide (r < 8)
  | .commandFetch t r _ => decide (t < 16) && decide (r < 8)
  | .commandReport t r _ _ => decide (t < 16) && decide (r < 8)
  | .ringTimeout t r _ => decide (t < 16) && decide (r < 8)
  | .cmdNop t c => decide (t < 16) && wfRef c
  | .cmdMatmul t c => decide (t < 16) && wfRef c
  | .cmdAttn t c => decide (t < 16) && wfRef c
  | .cmdVec t c => decide (t < 16) && wfRef c
  | .cmdQstat t c => decide (t < 16) && wfRef c
  | .cmdQconv t c => decide (t < 16) && wfRef c
  | .cmdXfer t c => decide (t < 16) && wfRef c
  | .cmdCodec t c => decide (t < 16) && wfRef c
  | .pageAlloc t c => decide (t < 16) && wfRef c
  | .pageFree t c => decide (t < 16) && wfRef c
  | .pageShare t c => decide (t < 16) && wfRef c
  | .pageCopy t c => decide (t < 16) && wfRef c
  | .sessionFeed t c => decide (t < 16) && wfRef c
  | .sessionOpen t c => decide (t < 16) && wfRef c
  | .setSampling t c => decide (t < 16) && wfRef c
  | .setStop t c => decide (t < 16) && wfRef c
  | .sessionStop t c => decide (t < 16) && wfRef c
  | .sessionClose t c => decide (t < 16) && wfRef c
  | .sessionPark t c => decide (t < 16) && wfRef c
  | .sessionUnpark t c => decide (t < 16) && wfRef c
  | .sessionTruncate t c => decide (t < 16) && wfRef c
  | .sessionMigrate t c => decide (t < 16) && wfRef c
  | .migrateConfirm t n _ => decide (t < 16) && decide (n < 8192)
  | .recipeLoad t c => decide (t < 16) && wfRef c
  | .recipePatch t c => decide (t < 16) && wfRef c
  | .recipeLaunch t c => decide (t < 16) && wfRef c
  | .route t c => decide (t < 16) && wfRef c
  | .routeItemPlace t tile => decide (t < 16) && decide (tile < 128)
  | .cmdSignal t c => decide (t < 16) && wfRef c
  | .cmdWait t c => decide (t < 16) && wfRef c
  | .waitSatisfied t c => decide (t < 16) && wfRef c
  | .cmdFence t c => decide (t < 16) && wfRef c
  | .larderCopyComplete t => decide (t < 16)
  | .mirrorRecordReceive t _ => decide (t < 16)
  | .mirrorMarkReceive t _ _ _ _ => decide (t < 16)
  | .freeze t => decide (t < 16)
  | .unfreeze t => decide (t < 16)
  | .tenantReset t => decide (t < 16)
  | .tenantResetComplete t => decide (t < 16)
  | .twinModeRequest t req => decide (t < 16) && decide (req < 4)
  | .twinModeRequestReceive t mode _ _ _ => decide (t < 16) && decide (mode < 4)
  | .resyncComplete t => decide (t < 16)
  | .publish r => decide (r < 8)
  | .commonDigestComplete r => decide (r < 8)
  | .wsetGo t => decide (t < 16)
  | .wsetDigestComplete t => decide (t < 16)
  | .faultClear t => decide (t < 16)
  | .fltClear => true
  | .cpReset => true
  | .handover => true
  | .ladleCtlWrite t _ => decide (t < 16)
  | .ladleLaunchComplete t _ _ => decide (t < 16)
  | .batchListReceive t src _ => decide (t < 16) && decide (src < 64)
  | .ladleCreditReceive t _ => decide (t < 16)
  | .returnReceive t _ => decide (t < 16)
  | .epochBoundary t => decide (t < 16)
  | .residentCopyComplete t _ tile _ => decide (t < 16) && decide (tile < 128)
  | .reflowNoticeReceive t _ => decide (t < 16)
  | .stepRecordReceive t _ => decide (t < 16)
  | .unitComplete t _ => decide (t < 16)
  | .unitDigestReceive t _ _ => decide (t < 16)
  | .computePartReset => true
  | .computePartRelease => true
  | .suspectWindow t _ => decide (t < 16)
  | .suspectReplayLimit => true
  | .mcFailover => true
  | .escalationWindowEnd => true
  | .wearInterval => true
  | .accessionAppend _ => true
  | .hbmPageCopyComplete g page => decide (g < 32) && decide (page < 516096)
  | .vacancyTimeout tile => decide (tile < 128)
  | .phaseTrip rail _ => decide (rail < 20)
  | .powerSample _ => true
  | .tempSample _ => true
  | .thermalUpdate => true
  | .droopDetect d => decide (d < 8)
  | .droopRelease d => decide (d < 8)
  | .throttleLow _ => true
  | .throttleAccept _ => true
  | .throttleHigh _ => true
  | .throttleRelease _ => true
  | .converterFail n => decide (n < 4)
  | .railFault n => decide (n < 28)
  | .pwrModLimitWrite _ => true
  | .vitRestart => true
  | .traceFrameSend => true
  | .jtagExtest _ => true
  | .jtagSamplePreload _ => true
  | .jtagIdcode => true
  | .jtagBypass code _ => decide (code < 16)
  | .smbStatus => true
  | .smbPower => true
  | .smbTemp => true
  | .smbIdent => true
  | .smbPosition => true
  | .smbAlert => true
  | .smbAlertClr causes => decide (causes < 256)
  | .registerRead fn off len => wfFn fn && decide (off + len ≤ barSize fn)
  | .pcieCompletionTimeout t r => decide (t < 16) && decide (r < 8)
  | .linkTrainingTimeout => true
  | .ccFail die => decide (die < 8)
  | .memorySpaceDisable fn => wfFn fn
  | .pcieEnableRestore e => wfEn e
  | .hbmScrub ma n _ => decide (ma + n ≤ 2 ^ 40)
  | .smbUnlistedCommand => true

end Sys2Proof
end

