-- ==== Sys2Proof/Safety.lean ====
section
/-!
DEFINITION. Safety.lean: what every state of a run keeps: memories in their canonical form, one-time fuses that only go one way, and a
queue of well-formed commands.
-/

namespace Sys2Proof.Machine

/-- The canonical form of HBM's contents: addresses strictly rising, no listed byte zero (R271, R424). -/
def Memory.wf (m : NMap 8) : Bool := nwf m

/-- Are numbers strictly rising? -/
def rising : List Nat → Bool
  | [] => true
  | [_] => true
  | a :: b :: rest => decide (a < b) && rising (b :: rest)

/-- HBM, the register bank, the delivery counters and the list of poisoned lines are in canonical form, so that equal contents are
equal data. -/
def State.tidy (s : State) : Bool := nwf s.regs && Memory.wf s.hbm && nwf s.ctrs && rising s.hbmBad

/-- The state of a key slot that fuses allow after another: a key is burnt once, and a revocation stays (R29, R32). -/
def keyAfter (a b : KeySlot) : Bool := (a.hash.isNone || a.hash == b.hash) && (!a.revoked || b.revoked)

/-- Fuses that one-time programming allows after others (R29): the minimum security version never falls, no key is burnt twice, no
revocation is taken back, and the root key's hash and the module's identity stay. -/
def fusesAfter (a b : Fuses) : Bool :=
  decide (a.svn ≤ b.svn) && (a.rootHash, a.idPub, a.idPriv) == (b.rootHash, b.idPub, b.idPriv) &&
  ((List.range 4).all fun i => match a.keys[i]?, b.keys[i]? with
    | some x, some y => keyAfter x y
    | _, _ => true)

/-- Are all waiting commands well formed? -/
def State.queueWf (s : State) : Bool := s.pending.all wf

end Sys2Proof.Machine
end

