-- ==== Sys2Proof/Certificates/Slice0/Obligations.lean ====
section
/-!
DEFINITION. Obligations.lean: the statements for the provers.
-/

open Sys2Proof Sys2Proof.Machine

/-- A command completes: `exec` answers a next state, of which `P` holds. -/
def Sys2Proof.Machine.Completes (c : Instr) (s : State) (P : State → Prop) : Prop := ∃ t, exec c s = .next t ∧ P t

/-- A step takes the command at the front of the queue and is `exec` of it on the state with the queue's rest. -/
def Obligations.StepRunsFrontCommand : Prop :=
  ∀ (s : State) (c : Instr) (rest : List Instr), s.pending = c :: rest → step s = exec c { s with pending := rest }

/-- With an empty queue a step changes nothing (the model's choice: log entry 1). -/
def Obligations.EmptyQueueIdles : Prop := ∀ s : State, s.pending = [] → step s = .next s

/-- Every command answers a next state, whose queue is the one it found. -/
def Obligations.EveryCommandAnswersNextState : Prop :=
  ∀ (c : Instr) (s : State), ∃ t, exec c s = .next t ∧ t.pending = s.pending

/-- A step takes exactly the front command and puts none in: the queue that follows is the tail, and stays well formed. -/
def Obligations.StepConsumesExactlyOneCommand : Prop :=
  ∀ s : State, ∃ t, step s = .next t ∧ t.pending = s.pending.tail ∧ (s.queueWf = true → t.queueWf = true)

/-- The state after reset is tidy; no command waits and nothing has been sent. -/
def Obligations.ResetIsTidy : Prop := State.reset.tidy = true ∧ State.reset.pending = [] ∧ State.reset.outbox = []

/-- The canonical form of the memories is kept by every step, whatever command it runs. -/
def Obligations.StepKeepsMemoriesCanonical : Prop :=
  ∀ s t : State, step s = .next t → s.tidy = true → t.tidy = true

/-- Whatever command a step runs, the fuses that follow are ones that one-time programming allows after those before it. -/
def Obligations.FusesOnlyGoOneWay : Prop :=
  ∀ s t : State, step s = .next t → fusesAfter s.fuses t.fuses = true

/-- What has left the module stays sent, and the count of drawn free values never falls. -/
def Obligations.SentStaysSentAndDrawsAreFresh : Prop :=
  ∀ s t : State, step s = .next t → s.outbox <+: t.outbox ∧ s.freeCtr ≤ t.freeCtr

/-- What reset leaves. -/
def Obligations.ResetValuesOfTheRegisters : Prop :=
  State.reset.boot.state = .standby ∧ State.reset.pins.perst = true ∧ State.reset.word 0x0 = 0x10004816 ∧ State.reset.fld 0x4 0 3 = 2 ∧
  (∀ t, t < 16 → State.reset.word (tnt t 0x304) = 0x10000 ∧ State.reset.word (tnt t 0x308) = 0x10000 ∧ State.reset.word (tnt t 0x30C) = 0x20000100) ∧
  (∀ t r, t < 16 → r < 8 → State.reset.word (rng t r 0x4) = 6 ∧ State.reset.word (rng t r 0x2C) = 1000) ∧
  (∀ a, nget State.reset.hbm a = 0) ∧ (∀ k, nget State.reset.ctrs k = 0) ∧
  State.reset.pf.memEnable = false ∧ State.reset.pf.busMaster = false ∧ State.reset.vfEnable = false

/-- The power and reset pins. -/
def Obligations.PowerPinsAndResetPins : Prop :=
  ∀ s : State,
    (∀ conv b, s.boot.inputOk = false → Completes (.powerGood conv b) s fun t =>
      t.boot.inputOk = decide (3 ≤ popcount 4 conv) ∧ t.pins.pwrgd = decide (3 ≤ popcount 4 conv) ∧ t.pins.conv = conv % 16 ∧
      t.pins.v48 = true ∧ (3 ≤ popcount 4 conv → t.pins.boardTest = b) ∧ t.flash = s.flash ∧ t.fuses = s.fuses) ∧
    (∀ conv b, s.boot.inputOk = true → Completes (.powerGood conv b) s fun t => t = s) ∧
    (∀ conv, 3 ≤ popcount 4 conv → s.boot.inputOk = false → s.boot.state = .standby → s.pins.perst = false → s.pins.mated = true →
      Completes (.powerGood conv false) s fun t => t.boot.state = .starting ∧ t.boot.keysAtStart = s.fuses.revoked) ∧
    Completes .perstAssert s (fun t =>
      t.boot.state = .standby ∧ t.pins.perst = true ∧ t.flash = s.flash ∧ t.fuses = s.fuses ∧ t.hbm = [] ∧ t.ctrs = [] ∧
      t.tiles = State.reset.tiles ∧ t.lrd = Larder.reset ∧ t.twin = State.reset.twin ∧ t.vfEnable = false) ∧
    Completes .matedOpen s (fun t =>
      t.boot.state = .standby ∧ t.pins.mated = false ∧ t.flash = s.flash ∧ t.fuses = s.fuses ∧ t.hbm = [] ∧ t.ctrs = [] ∧
      t.tiles = State.reset.tiles ∧ t.lrd = Larder.reset ∧ t.twin = State.reset.twin ∧ t.vfEnable = false) ∧
    (s.pins.perst = true → s.boot.inputOk = true → s.pins.mated = true → s.pins.boardTest = false →
      Completes .perstDeassert s fun t => t.boot.state = .starting ∧ t.pins.perst = false ∧ t.boot.keysAtStart = s.fuses.revoked) ∧
    (s.pins.perst = false → Completes .perstDeassert s fun t =>
      t = { s with boot := { s.boot with perstShort := s.boot.perstShort + 1 } }) ∧
    (s.pins.mated = false → s.boot.inputOk = true → s.pins.perst = false → s.pins.boardTest = false →
      Completes .matedClose s fun t => t.boot.state = .starting ∧ t.pins.mated = true) ∧
    (s.pins.perst = false → s.pins.mated = true →
      Completes .pcieFunctionReady s fun t => t = { s with pf := { s.pf with ready := true } })

/-- The mailbox. -/
def Obligations.MailboxCommandsStartAndEnd : Prop :=
  ∀ s : State, s.tidy = true →
    (s.mbxBusy = false → s.boot.bootRom = false →
      (∀ image again, s.mbxCatCode image ≠ mcOk → Completes (.mbxWriteCat image again) s fun t =>
        t.mbxBusy = true ∧ t.boot.mbxRun = some .writeCat ∧ t.boot.mbxCode = s.mbxCatCode image ∧ t.flash = s.flash) ∧
      (∀ image img, Completes (.mbxWriteCat image (some img)) s fun t =>
        t.mbxBusy = true ∧ t.boot.mbxRun = some .writeCat ∧ t.boot.mbxCode = s.mbxCatCode image ∧
        (if s.mbxCatCode image = mcOk then
          t.boot.mbxCat = some (1 - s.fld 0x120 5 1, img) ∧
          (if s.fld 0x120 5 1 = 1 then t.flash.catA = none ∧ t.flash.catB = s.flash.catB else t.flash.catB = none ∧ t.flash.catA = s.flash.catA)
        else t.flash = s.flash ∧ t.boot.mbxCat = s.boot.mbxCat)) ∧
      (∀ image f, s.mbxFwCode image = mcOk → Completes (.mbxWriteFw image (some f)) s fun t =>
        t.mbxBusy = true ∧ t.boot.mbxRun = some .writeFw ∧ t.boot.mbxFw = some (1 - s.fld 0x120 4 1, f) ∧
        (if s.fld 0x120 4 1 = 1 then t.flash.fw0 = none ∧ t.flash.fw1 = s.flash.fw1 else t.flash.fw1 = none ∧ t.flash.fw0 = s.flash.fw0)) ∧
      (∀ r : KeyReq, s.mbxArgOk 0x2000000 = true → r.wellFormed = true → s.fuses.enrolled = false →
        Completes (.mbxEnrolKey (some r)) s fun t =>
          t.mbxBusy = true ∧ t.boot.mbxRun = some .enrolKey ∧ t.boot.mbxCode = mcOk ∧ (t.fuses.keys[0].hash = some (sha384 r.key))) ∧
      (∀ r : KeyReq, ∀ i : Fin 4, s.mbxArgOk 0x2000000 = true → revokeOutcome s.fuses s.keysNow (some r) = (mcOk, some i.val) →
        Completes (.mbxRevokeKey (some r)) s fun t =>
          t.mbxBusy = true ∧ t.boot.mbxRun = some .revokeKey ∧ t.fuses.keys[i].revoked = true ∧
          ∀ j : Fin 4, j ≠ i → t.fuses.keys[j] = s.fuses.keys[j]) ∧
      (∀ cmd, ¬(1 ≤ cmd % 16 ∧ cmd % 16 ≤ 5) → Completes (.mbxBadCmd cmd) s fun t =>
        t.fld 0x104 8 8 = mcBadCmd ∧ t.flag 0x104 1 = true ∧ t.mbxBusy = false ∧ t.flash = s.flash ∧ t.fuses = s.fuses)) ∧
    (s.mbxBusy = false → s.mayStart = true → Completes .mbxRestart s fun t =>
      t.boot.state = .starting ∧ t.flash = s.flash ∧ t.fuses = s.fuses ∧ t.hbm = [] ∧ t.tiles = State.reset.tiles) ∧
    (s.mbxBusy = true → ∀ image again, Completes (.mbxWriteCat image again) s fun t =>
      t.fld 0x104 8 8 = mcBusy ∧ t.mbxBusy = true ∧ t.boot = s.boot ∧ t.flash = s.flash) ∧
    (∀ op ok, s.boot.mbxRun = some op → s.boot.mbxCat = none → s.boot.mbxFw = none →
      Completes (.mbxCommandEnd ok) s fun t =>
        t.mbxBusy = false ∧ t.flag 0x104 1 = true ∧ t.fld 0x104 8 8 = s.boot.mbxCode % 256 ∧ t.boot.mbxRun = none ∧ t.flash = s.flash)

/-- TICK_IN, holdover and the master role between boundaries. -/
def Obligations.TickInEdgesAndHoldover : Prop :=
  ∀ (s : State) (at_ : Nat), s.tidy = true →
    (∀ l, s.usesTickIn = true → s.tick.tin.last = some l → at_ < l + 10000 →
      Completes (.tickInEdge at_) s fun t => t = s.bump 0x10014 1) ∧
    (∀ l, s.usesTickIn = true → s.tick.tin.last = some l → l + 10000 ≤ at_ → s.tick.tin.locked = true →
      (s.tick.edge = none → within (at_ + s.alignNs) s.tick.expected s.winNs = true →
        Completes (.tickInEdge at_) s fun t =>
          t.tick.expected = at_ + s.alignNs ∧ t.tick.edge = some (at_, s.nextTick) ∧ t.tick.tin.lastGood = some at_ ∧
          t.tick.tin.last = some at_ ∧ t.regs = s.regs ∧
          t.outbox = s.outbox ++ ((List.range 8).filter s.attUp).map fun k =>
            .symbol (2 * k + 1) { number := s.nextTick, master := s.moduleId, src := s.src, hops := 0, delay := 0 }) ∧
      (s.tick.edge.isSome = true ∨ within (at_ + s.alignNs) s.tick.expected s.winNs = false →
        Completes (.tickInEdge at_) s fun t =>
          t.tick.expected = s.tick.expected ∧ t.tick.edge = s.tick.edge ∧ t.tick.tin.lastGood = s.tick.tin.lastGood ∧
          t.word 0x10018 = satAdd32 (s.word 0x10018) 1 ∧ t.outbox = s.outbox)) ∧
    (s.usesTickIn = true → s.tick.tin.locked = true → s.tick.edge = none → s.alignNs ≤ s.tick.expected →
      s.tick.expected + s.winNs ≤ at_ + s.alignNs →
      Completes (.tickInWindowExpiry at_) s fun t =>
        t.tick.expected = s.tick.expected + s.winNs ∧ t.tick.edge = some (s.tick.expected + s.winNs - s.alignNs, s.nextTick) ∧
        t.regs = s.regs ∧ t.tick.tin = s.tick.tin) ∧
    (s.tick.edge.isSome = true → Completes (.tickInWindowExpiry at_) s fun t => t = s) ∧
    (∀ g, s.src ≠ srcSlewing → s.tick.tin.lastGood = some g → s.usesTickIn = true → s.tick.tin.locked = true →
      2 * g + 3 * s.periodNs ≤ 2 * at_ →
      Completes (.tickInHoldover at_) s fun t =>
        t.src = srcHoldover ∧ t.flag 0x10004 16 = true ∧ t.tick.tin.locked = false ∧ t.tick.tin.run = 0 ∧ t.isMaster = s.isMaster ∧
        t.tick.expected = s.tick.expected ∧ t.tick.holdStart = s.tick.holdStart) ∧
    (s.isMaster = false → s.tick.locked = true → s.tick.holdStart = none →
      Completes (.holdoverEntry at_) s fun t =>
        t.src = srcHoldover ∧ t.flag 0x10004 16 = true ∧ t.tick.holdStart = some at_ ∧ t.isMaster = false) ∧
    (s.isMaster = false → s.tick.holdStart.isSome = true →
      Completes .holdoverLimit s fun t => t = { s with tick := { s.tick with holdLimit := true } }) ∧
    (s.isMaster = false → s.tick.holdStart.isSome = true → s.anyAttUp = true → 1 ≤ tickRank s.tickRec s.moduleId → s.boot.state = .serving →
      s.tick.expected ≤ at_ + s.periodNs →
      Completes (.successionTakeover at_) s fun t => t = { s with tick := { s.tick with takeAt := true } }) ∧
    (s.isMaster = true → s.anyAttUp = false →
      Completes (.masterRelinquish at_) s fun t => t.isMaster = false ∧ t.src = srcHoldover ∧ t.tick.holdStart = some at_) ∧
    Completes .tickOutEnd s (fun t => t = { s with pins := { s.pins with tickOut := false } })

/-- Tick symbols, echoes, the lock at start, and boundaries. -/
def Obligations.TickSymbolsBoundariesAndLock : Prop :=
  ∀ s : State, s.tidy = true →
    (∀ port (y : TickSym) at_, port < 16 → port % 2 = 0 → y.hops < 63 → s.attUp (port / 2) = true → s.isMaster = false →
      (∀ l, s.tick.lastSym = some l → l.master ≠ y.master ∨ l.number ≠ y.number) →
      Completes (.tickSymbolReceive port y at_) s fun t =>
        t.tick.lastSym = some y ∧ t.tick.heard = true ∧ t.tick.fresh = true ∧ t.fld 0x10004 8 6 = y.master % 64 ∧ t.tickNo = s.tickNo) ∧
    (∀ at_, s.startStep = 7 → s.tick.heard = false → s.isMaster = false → tickRank s.tickRec s.moduleId ≤ 1 →
      Completes (.tickOriginateTimeout at_) s fun t =>
        t.isMaster = true ∧ t.src = srcTimer ∧ t.tick.locked = true ∧ t.tick.expected = at_ + s.tickRec.align * 100 ∧
        (s.tick.lastSym = none → t.tick.edge = some (at_, 0))) ∧
    (s.startStep = 7 → s.tick.locked = false → Completes .tickLockTimeout s fun t => t.boot.state = .halted ∧ t.flash = s.flash) ∧
    (∀ serial, s.boot.state = .starting → s.flag 0xC 17 = true → serial ≠ s.quad 0x10 →
      Completes (.censusReceive s.moduleId serial) s fun t => t.boot.state = .halted ∧ t.flash = s.flash) ∧
    Completes .delayEcho s (fun t =>
      t = { s with outbox := s.outbox ++ ((List.range 8).filter s.attUp).flatMap fun k =>
        [.echo (2 * k) s.tick.boundaries, .echo (2 * k + 1) s.tick.boundaries] }) ∧
    (∀ (k : Fin 8) d, Completes (.delayEchoReceive k true d) s fun t => t.lnk.atts[k].upDelay = d / 2 * 2 ∧ t.regs = s.regs) ∧
    (∀ (k : Fin 8) d, Completes (.delayEchoReceive k false d) s fun t =>
      t.word (0x501004 + 0x10 * k) = BitVec.ofNat 32 (d / 2 * 2) ∧ t.lnk = s.lnk) ∧
    (∀ at_, s.ticks = true → s.serves = false → s.boot.ready9 = false →
      Completes (.tickBoundary at_) s fun t => t.pins.tickOut = true ∧ t.tick.boundaries = s.tick.boundaries + 1 ∧
        (s.isMaster = true → s.tick.adopt = none → s.tick.edge = none → t.tickNo = (s.tickNo + 1) % 2 ^ 64) ∧
        (∀ e n, s.isMaster = true → s.tick.adopt = none → s.tick.edge = some (e, n) → t.tickNo = n % 2 ^ 64)) ∧
    (∀ at_, s.ticks = true → s.serves = true →
      Completes (.tickBoundary at_) s fun t => t = (s.tickBoundary at_).serveBoundary at_)

/-- Steps of the start. -/
def Obligations.StartSequenceSteps : Prop :=
  ∀ (s : State) (slotId : Nat) (x : StartIn), s.tidy = true → s.boot.state = .starting →
    (s.startStep = 1 → firmwareChoice s.flash s.fuses = none →
      Completes (.startSequence slotId x) s fun t => t.boot.state = .halted ∧ t.boot.bootRom = true ∧ t.flash = s.flash) ∧
    (s.startStep = 3 → x.rails < 28 →
      Completes (.startSequence slotId x) s fun t => t.boot.state = .halted ∧ t.boot.railsUp = x.rails ∧ t.flash = s.flash) ∧
    (s.startStep = 8 → s.boot.ready9 = false → x.initOk = true → x.fails = [] →
      Completes (.startSequence slotId x) s fun t =>
        t.fld 0x120 0 4 = 9 ∧ t.boot.ready9 = true ∧ (∀ a, nget t.hbm a = 0) ∧ t.hbmBad = [] ∧
        ∀ n : Fin 128, t.tiles[n].mem = [] ∧ t.tiles[n].poison = [] ∧ t.tiles[n].phys = s.tiles[n].phys ∧ t.tiles[n].width = s.tiles[n].width)

/-- The schedule. -/
def Obligations.ScheduleEntriesAndAtoms : Prop :=
  ∀ s : State, s.tidy = true →
    (∀ v at_, s.serves = true → v % 8 < s.fld 0x10200 16 4 → bitOf v 3 = false → bitOf v 11 = false → bitOf v 12 = false →
      Completes (.schSelWrite v at_) s fun t =>
        t.sched.request = some (v % 8) ∧ t.sched.reqAt = none ∧ t.sched.reqTime = at_ ∧ t.fld 0x10200 0 3 = v % 8 ∧
        t.flag 0x10200 4 = true ∧ t.fld 0x10200 8 3 = s.fld 0x10200 8 3) ∧
    (∀ n e, s.table[n]? = some e → s.serves = true → s.sched.margin = false → s.sched.open_.contains n = false →
      (∀ m ∈ s.maskTiles e.mask, (s.tile m).chans = []) →
      Completes (.entryOpen n) s fun t =>
        t.sched.open_ = pset s.sched.open_ n ∧ (∀ m ∈ s.maskTiles e.mask, t.entryOf m = some e.owner) ∧
        (∀ m, m ∉ s.maskTiles e.mask → t.entryOf m = s.entryOf m ∧ t.ownerOf m = s.ownerOf m)) ∧
    (∀ n e, s.table[n]? = some e → s.sched.open_.contains n = true →
      Completes (.entryEnd n) s fun t => t.sched.open_ = pclear s.sched.open_ n ∧ t.regs = s.regs ∧ t.tiles = s.tiles) ∧
    (s.serves = true → s.sched.margin = false → s.sched.grant = none →
      Completes .marginStart s fun t => t.sched.margin = true ∧ t.regs = s.regs ∧ t.tiles = s.tiles ∧ t.sched.atoms = s.sched.atoms) ∧
    (∀ cls off e, (s.sched.open_.filterMap (fun i => s.table[i]?)).find? (fun e =>
        e.owner == cls && decide (16 ≤ cls) && decide (off + atomNs cls ≤ (e.start + e.dur) * 100)) = some e →
      (s.sched.atoms.any fun (c, _) => c == cls) = false → s.atomTiles cls (s.maskTiles e.mask) ≠ [] →
      Completes (.bgAtomStart cls off) s fun t =>
        t = { s with sched := { s.sched with atoms := s.sched.atoms ++ [(cls, s.atomTiles cls (s.maskTiles e.mask))] } }) ∧
    (∀ at_ o, (s.sched.atoms.any fun (c, _) => c == clCalib) = true →
      Completes (.bgAtomComplete clCalib at_ o) s fun t =>
        t.sched.atoms = (s.sched.atoms.filter fun (c, _) => c != clCalib) ∧ t.regs = s.regs ∧ t.tiles = s.tiles) ∧
    (∀ u at_, ((classGroups clBist).any fun g => (s.classUnits clBist g).contains u) = true → s.sched.since.isSome = true →
      s.deadlineOf clBist u ≤ at_ → (s.sched.units.any fun x => x.cls == clBist && x.unit == u && x.missed) = false →
      Completes (.bgDeadlineExpiry clBist u at_) s fun t =>
        t.word 0x1030C = satAdd32 (s.word 0x1030C) 1 ∧
        (t.sched.units.any fun x => x.cls == clBist && x.unit == u && x.missed) = true ∧ t.tiles = s.tiles) ∧
    (∀ (n : Fin 128) c e, s.ownerOf n = some c → s.workOn c n = true → s.entryOf n = some e → e < 16 → e ≠ c →
      ((s.tile n).chans.all fun (_, x) => x.tenant == c) = true →
      Completes (.preempt n) s fun t =>
        aget (t.tile n).saved c = some (s.tile n).ctx.unloaded ∧ (t.tile n).held = none ∧
        t.ownerOf n = (if s.active e then some e else none) ∧
        ∀ m : Fin 128, m ≠ n → t.tile m = s.tile m) ∧
    (∀ (c : Fin 16) n excess, n < s.beat → 0 < excess → s.openWork c n = [] → s.serves = true →
      Completes (.tickWorkComplete c n excess) s fun t =>
        t.fld (tnt c 0x330) 0 20 = excess % 2 ^ 20 ∧ t.ladles[c].overruns = s.ladles[c].overruns ++ [(s.tick.boundaries, excess)] ∧
        t.word (0x10100 + 16 * c) = satAdd32 (s.word (0x10100 + 16 * c)) 1 ∧
        t.fld (0x10104 + 16 * c) 0 20 = max (s.fld (0x10104 + 16 * c) 0 20) (min excess 0xFFFFF))

/-- The overrun rule, where the watch window saw progress. -/
def Obligations.OverrunFreezesTenant : Prop :=
  ∀ (s : State) (c : Fin 16), s.tidy = true → 2 ≤ s.beat → s.active c = true → s.inRecovery = false →
    ((s.openWork c (s.beat - 2)).any fun (ref, _) => match ref with
      | .item _ _ => false
      | _ => true) = true →
    Completes (.overrunExpiry c true) s fun t => t.tState c = tsFrozen

/-- Word `w` is the next one of program `p` on tile `n`, which may issue; nothing is in flight there and no word of its scratchpad has
an error (R248). -/
def Sys2Proof.Machine.TileReady (s : State) (n : Nat) (w : BitVec 256) (p : Prog) : Prop :=
  s.tidy = true ∧ n < 128 ∧ s.issuing n = some p ∧ fetchAt (s.tile n) (s.share p.tenant) p = .word w ∧ (s.tile n).flight = [] ∧
  (s.tile n).flaws = []

/-- The instruction in flight once `w` has issued on tile `x` to `unit`. -/
def Sys2Proof.Machine.issuedFlight (x : Tile) (w : BitVec 256) (unit tenant : Nat) : InFlight :=
  let (_, inS, outS) := claimOf x w
  { id := x.nextId, unit := unit, word := w, inS := inS, outS := outS, ranges := entered x tenant w, begun := false, done := false, noted := [] }

/-- The tile once `w` has issued: its slots claimed, its range table and number advanced, and the program at its next word. -/
def Sys2Proof.Machine.issuedTile (x : Tile) (p : Prog) (w : BitVec 256) (unit : Nat) : Tile :=
  let (t, _, _) := claimOf x w
  { t with nextId := x.nextId + 1, flight := x.flight ++ [issuedFlight x w unit p.tenant], prog := some p.next }

/-- The register instructions of the vector engine, with their opcodes (R163). -/
def Sys2Proof.Machine.vectorRows : List ((Nat → BitVec 256 → Instr) × Nat × VecOp) :=
  [(.vbcast, 0x22, vbcastOp), (.viota, 0x23, viotaOp), (.vadd, 0x24, vaddOp), (.vsub, 0x25, vsubOp), (.vmul, 0x26, vmulOp),
   (.vfma, 0x27, vfmaOp), (.vmax, 0x28, vmaxOp), (.vmin, 0x29, vminOp), (.vabs, 0x2A, vabsOp), (.vneg, 0x2B, vnegOp)] ++
  [(.vcmp, 0x2C, vcmpOp), (.vsel, 0x2D, vselOp), (.vexp, 0x30, vexpOp), (.vrcp, 0x31, vrcpOp), (.vrsq, 0x32, vrsqOp),
   (.vrsum, 0x34, vrsumOp), (.vrmax, 0x35, vrmaxOp), (.vrmin, 0x36, vrminOp), (.iadd, 0x38, iaddOp), (.isub, 0x39, isubOp)] ++
  [(.imul, 0x3A, imulOp), (.imulhi, 0x3B, imulhiOp), (.iand, 0x3C, iandOp), (.ior, 0x3D, iorOp), (.ixor, 0x3E, ixorOp),
   (.ishl, 0x3F, ishlOp), (.ishr, 0x40, ishrOp), (.icmp, 0x41, icmpOp), (.vcvt, 0x44, vcvtInstr), (.vpext, 0x45, vpextInstr)] ++
  [(.kop, 0x48, kopInstr), (.vflag, 0x49, vflagInstr), (.vrng, 0x4C, vrngInstr)]

/-- Register instructions of the vector engine. -/
def Obligations.VectorRegisterInstructionsComplete : Prop :=
  ∀ row ∈ vectorRows, ∀ (s : State) (n : Nat) (w : BitVec 256) (p : Prog),
    TileReady s n w p → wOpc w = row.2.1 → row.2.2.check w = none →
    Completes (row.1 n w) s fun t =>
      let r := row.2.2.run (s.tile n).ve p.seed p.step w
      (t.tile n).ve = { r.1 with sticky := r.1.sticky ||| r.2.flags } ∧
      (t.tile n).mem = (s.tile n).mem ∧ (t.tile n).poison = (s.tile n).poison ∧ (t.tile n).regions = (s.tile n).regions ∧
      ((t.tile n).prog.map (·.pos)) = some p.next.pos ∧ (t.tile n).nextId = (s.tile n).nextId + 1 ∧
      (∀ m, m ≠ n → t.tile m = s.tile m) ∧ t.ctrs = s.ctrs ∧ t.lrd = s.lrd ∧ t.flash = s.flash ∧ t.fuses = s.fuses

/-- The integer instructions, element by element. -/
def Obligations.IntegerLanesComputeModulo : Prop :=
  ∀ (s : State) (n : Nat) (w : BitVec 256) (p : Prog), TileReady s n w p →
    let a (e : Nat) : Nat := elemOf 32 ((s.tile n).ve.reg (vVA w)) e
    let b (e : Nat) : Nat := elemOf 32 ((s.tile n).ve.reg (vVB w)) e
    let lanes (c : Instr) (v : VecOp) (opc : Nat) (f : Nat → Nat) : Prop :=
      wOpc w = opc → v.check w = none →
      Completes c s fun t => ∀ e, e < 256 →
        elemOf 32 ((t.tile n).ve.reg (vVD w)) e =
          if ((s.tile n).ve.mask (vKM w)).getLsbD e then f e % 2 ^ 32
          else if vZM w then 0 else elemOf 32 ((s.tile n).ve.reg (vVD w)) e
    lanes (.iadd n w) iaddOp 0x38 (fun e => a e + b e) ∧ lanes (.isub n w) isubOp 0x39 (fun e => a e + 2 ^ 32 - b e) ∧
    lanes (.imul n w) imulOp 0x3A (fun e => a e * b e) ∧ lanes (.imulhi n w) imulhiOp 0x3B (fun e => a e * b e / 2 ^ 32) ∧
    lanes (.iand n w) iandOp 0x3C (fun e => a e &&& b e) ∧ lanes (.ior n w) iorOp 0x3D (fun e => a e ||| b e) ∧
    lanes (.ixor n w) ixorOp 0x3E (fun e => a e ^^^ b e) ∧
    lanes (.ishl n w) ishlOp 0x3F (fun e => a e * 2 ^ (vImm16 w % 32)) ∧ lanes (.ishr n w) ishrOp 0x40 (fun e => a e / 2 ^ (vImm16 w % 32))

/-- Instructions of the matrix, vector and attention units. -/
def Obligations.UnitInstructionsRunInTheirUnits : Prop :=
  ∀ (s : State) (n : Nat) (w : BitVec 256) (p : Prog), TileReady s n w p →
    let x := s.tile n
    let sh := s.share p.tenant
    let runs (c : Instr) (opc unit : Nat) (check : Option (Nat × Nat)) : Prop :=
      wOpc w = opc → check = none →
      Completes c s fun t =>
        let r := (runTile (issuedTile x p w unit) sh (issuedFlight x w unit p.tenant)).1
        (t.tile n).mem = r.mem ∧ (t.tile n).poison = r.poison ∧ (t.tile n).ve = r.ve ∧ (t.tile n).regions = r.regions ∧
        (t.tile n).held = r.held ∧ (t.tile n).mx = r.mx ∧ (t.tile n).vu = r.vu ∧ (t.tile n).at_ = r.at_ ∧ (t.tile n).acc = r.acc ∧
        ((t.tile n).prog.map (·.pos)) = r.prog.map (·.pos) ∧ (∀ m, m ≠ n → t.tile m = s.tile m) ∧ t.ctrs = s.ctrs
    runs (.matmul n w) 0x10 1 (mmCheck false x p.tenant sh w) ∧
    runs (.matmulSide n w) 0x11 1 (mmCheck true x p.tenant sh w) ∧
    runs (.vld n w) 0x20 2 (memCheck x p.tenant sh w true) ∧
    runs (.vst n w) 0x21 2 (memCheck x p.tenant sh w false) ∧
    ((statArgs w).mode = 0 → runs (.qstatGatherNew n w) 0x50 2 (statCheck x p.tenant sh w)) ∧
    ((statArgs w).mode = 1 → runs (.qstatGather n w) 0x50 2 (statCheck x p.tenant sh w)) ∧
    ((statArgs w).mode = 2 → runs (.qstatFinish n w) 0x50 2 (statCheck x p.tenant sh w)) ∧
    ((statArgs w).mode = 3 → runs (.qstatMerge n w) 0x50 2 (statCheck x p.tenant sh w)) ∧
    (((qcArgs w).useRec && inShare sh (qcArgs w).aux (recBytes (qcArgs w).c) && x.readBad (qcArgs w).aux (recBytes (qcArgs w).c)) = false →
      runs (.qconv n w) 0x51 2 (qcCheck x p.tenant sh w)) ∧
    runs (.vtopk n w) 0x52 2 (topkCheck x p.tenant sh w) ∧
    runs (.vsample n w) 0x53 2 (sampCheck sh w) ∧
    runs (.attn n w) 0x60 3 (attnCheck x p.tenant sh w) ∧
    runs (.attnMerge n w) 0x61 3 (mergeCheck sh w)

/-- The vector loads and stores at a plain offset, with their frames. -/
def Obligations.VectorLoadAndStoreMoveBytes : Prop :=
  ∀ (s : State) (n : Nat) (w : BitVec 256) (p : Prog), TileReady s n w p → vCirc w = false →
    (wOpc w = 0x20 → memCheck (s.tile n) p.tenant (s.share p.tenant) w true = none →
      Completes (.vld n w) s fun t => (t.tile n).mem = (s.tile n).mem ∧ (t.tile n).poison = (s.tile n).poison ∧
        (t.tile n).ve.reg (vVD w) = BitVec.ofNat 8192 (leNat ((s.tile n).read (vOff w) 1024)) ∧
        ∀ i, i ≠ vVD w → (t.tile n).ve.reg i = (s.tile n).ve.reg i) ∧
    (wOpc w = 0x21 → memCheck (s.tile n) p.tenant (s.share p.tenant) w false = none → nwf (s.tile n).mem = true →
      Completes (.vst n w) s fun t => (t.tile n).read (vOff w) 1024 = leBytes 1024 ((s.tile n).ve.reg (vVA w)).toNat ∧
        (∀ a, a < vOff w ∨ vOff w + 1024 ≤ a → nget (t.tile n).mem a = nget (s.tile n).mem a) ∧ (t.tile n).ve.v = (s.tile n).ve.v)

/-- Sequencer control and ordering. -/
def Obligations.SequencerControlAndOrdering : Prop :=
  ∀ (s : State) (n : Nat) (w : BitVec 256) (p : Prog), TileReady s n w p →
    let x := s.tile n
    let frame (t : State) : Prop := (∀ m, m ≠ n → t.tile m = s.tile m) ∧ t.hbm = s.hbm ∧ t.lrd = s.lrd ∧ t.front = s.front
    (wOpc w = 0 → onlyBits w 0 = true →
      Completes (.nop n w) s fun t => t.tile n = { x with prog := some p.next } ∧ t.ctrs = s.ctrs ∧ frame t) ∧
    (wOpc w = 1 → onlyBits w 0 = true →
      Completes (.endProgram n w) s fun t => t.tile n = { x with prog := some { p.next with ended := true } } ∧ t.ctrs = s.ctrs ∧ frame t) ∧
    (wOpc w = 2 → onlyBits w 0 = true →
      Completes (.barrier n w) s fun t => t.tile n = { x with prog := some { p.next with barrier := true } } ∧ t.ctrs = s.ctrs ∧ frame t) ∧
    (wOpc w = 3 → onlyBits w (bitsAt 55 32) = true → 0 < bf w 47 32 → 0 < bf w 55 48 → bf w 55 48 ≤ 63 →
      (advance p.loops p.pos).1.length < 2 →
      (∀ i < bf w 55 48, p.pos + 32 * (i + 2) ≤ p.top → wOpc (wordAt x p (p.pos + 32 * (i + 1))) ≠ 1) →
      Completes (.loop n w) s fun t => frame t ∧ (t.tile n).mem = x.mem ∧ (t.tile n).prog = some { p.next with
        loops := { runs := bf w 47 32, body := bf w 55 48, pos := p.pos + 32 } :: (advance p.loops p.pos).1, pos := p.pos + 32 }) ∧
    (wOpc w = 8 → onlyBits w (bitsAt 33 32) = true →
      Completes (.acq n w) s fun t => frame t ∧ (t.tile n).flight.map (fun f => (f.unit, f.word, f.id)) = [(0, w, x.nextId)] ∧
        (t.tile n).prog = some p.next ∧ (t.tile n).mem = x.mem ∧ t.drc = s.drc) ∧
    (wOpc w = 9 → onlyBits w (bitsAt 33 32) = true →
      Completes (.rel n w) s fun t => frame t ∧ (t.tile n).flight.map (fun f => (f.unit, f.word, f.id)) = [(0, w, x.nextId)] ∧
        (t.tile n).prog = some p.next ∧ (t.tile n).mem = x.mem) ∧
    (wOpc w = 0x0A → onlyBits w (bitsAt 33 32) = true →
      Completes (.fence n w) s fun t => frame t ∧ (t.tile n).flight.map (fun f => (f.unit, f.word, f.id)) = [(0, w, x.nextId)] ∧
        (t.tile n).prog = some p.next ∧ (t.tile n).mem = x.mem) ∧
    (wOpc w = 0x0B → onlyBits w (bitsAt 47 32 ||| bitsAt 127 64) = true → bf w 47 46 ≠ 3 →
      Completes (.cwait n w) s fun t => frame t ∧ t.ctrs = s.ctrs ∧ (t.tile n).prog = some p.next ∧
        (t.tile n).cwait = if bf w 127 64 ≤ s.ctr p.tenant (bf w 45 34) (bf w 47 46) then none
          else some (bf w 45 34, bf w 47 46, bf w 127 64, scopeOf w)) ∧
    (wOpc w = 0x0C → onlyBits w (bitsAt 47 34 ||| bitsAt 127 64) = true → bf w 47 46 ≠ 3 →
      Completes (.cset n w) s fun t => frame t ∧ t.tile n = { x with prog := some p.next } ∧
        t.ctr p.tenant (bf w 45 34) (bf w 47 46) = bf w 127 64 ∧
        ∀ u c f, ctrKey u c f ≠ ctrKey p.tenant (bf w 45 34) (bf w 47 46) → t.ctr u c f = s.ctr u c f)

/-- Launches, completions and what stops a fetch. -/
def Obligations.ProgramLaunchWaitsAndCompletion : Prop :=
  ∀ (s : State) (n : Nat), s.tidy = true → n < 128 →
    let x := s.tile n
    x.flaws = [] →
    (∀ p, x.launch = some p → x.prog = none → s.holds p.tenant n = true →
      Completes (.programLaunch n) s fun t => t.tile n = { x with prog := some p, launch := none, ve := Ve.launch } ∧
        (∀ m, m ≠ n → t.tile m = s.tile m) ∧ t.regs = s.regs ∧ t.hbm = s.hbm) ∧
    (∀ p c f v scope, x.prog = some p → x.cwait = some (c, f, v, scope) → v ≤ s.ctr p.tenant c f → s.holds p.tenant n = true →
      Completes (.cwaitSatisfied n) s fun t => t.tile n = { x with cwait := none } ∧ (∀ m, m ≠ n → t.tile m = s.tile m) ∧
        t.ctrs = s.ctrs ∧ t.regs = s.regs) ∧
    (∀ p f, x.prog = some p → x.flight = [f] → f.unit ≠ 0 → f.done = true →
      Completes (.instructionComplete n f.id) s fun t =>
        t.tile n = { x with flight := [], heldPages := if f.unit = 3 then [] else x.heldPages } ∧ (∀ m, m ≠ n → t.tile m = s.tile m) ∧
        t.regs = s.regs ∧ t.hbm = s.hbm) ∧
    (∀ p f, x.prog = some p → x.flight = [f] → f.unit = 0 → s.holds p.tenant n = true →
      (wOpc f.word ≠ 0x08 → scopeOf f.word = 3 → s.unacked n p.tenant p.by_ = false) →
      Completes (.instructionComplete n f.id) s fun t => t.tile n = { x with flight := [] } ∧ (∀ m, m ≠ n → t.tile m = s.tile m) ∧
        t.regs = s.regs ∧ t.hbm = s.hbm ∧ t.drc = (if wOpc f.word ≠ 0x09 ∧ 2 ≤ scopeOf f.word then
          s.drc.filter fun l => !(l.tenant == p.tenant && l.die == n / 16) else s.drc)) ∧
    (∀ p, x.prog = some p → p.ended = true → x.flight = [] → x.marks = [] → s.holds p.tenant n = true →
      s.unacked n p.tenant p.by_ = false →
      Completes (.programComplete n) s fun t => (t.tile n).prog = none ∧ (t.tile n).mem = x.mem ∧ (t.tile n).ve = x.ve) ∧
    (∀ m, x.marks = [m] → (x.flight.any fun f => decide (f.id < m.after)) = false →
      Completes (.slotMark n m.desc) s fun t => (t.tile n).marks = [] ∧ (t.tile n).mem = x.mem ∧
        (t.tile n).regions = x.regions.map fun r => if r.desc == m.desc then r.mark m.slot m.full else r) ∧
    (∀ p f, x.prog = some p → x.flight.find? (·.unit == 2) = some f → f.done = false → s.holds p.tenant n = true →
      Completes (.slotMarkSeen n 2) s fun t =>
        (t.tile n).mem = (runTile x (s.share p.tenant) f).1.mem ∧ (t.tile n).ve = (runTile x (s.share p.tenant) f).1.ve ∧
        (∀ m, m ≠ n → t.tile m = s.tile m)) ∧
    (∀ p, s.issuing n = some p → p.tenant < 16 → (∀ w, fetchAt x (s.share p.tenant) p ≠ .word w) →
      Completes (.tileFetchFault n) s fun t => t.tState p.tenant = tsFrozen ∧ t.tiles = s.tiles) ∧
    (∀ p w, s.issuing n = some p → p.tenant < 16 → fetchAt x (s.share p.tenant) p = .word w → assigned (wOpc w) = false →
      Completes (.invalidOpcode n w) s fun t => t.tState p.tenant = tsFrozen ∧ t.tiles = s.tiles)

/-- The transfer unit's and the codec's instructions at issue. -/
def Obligations.RegionsChainsAndCodecRequestsIssue : Prop :=
  ∀ (s : State) (n : Nat) (w : BitVec 256) (p : Prog), TileReady s n w p →
    let x := s.tile n
    let sh := s.share p.tenant
    let key := 8 * p.tenant + bf w 34 32
    let banks := ((s.part p.tenant).map (·.spmBanks)).getD 0
    let mine := x.regions.filter (·.tenant == p.tenant)
    (wOpc w = 0x70 → xstartCheck s p sh w = none → s.chan n key = none →
      Completes (.xstart n w) s fun t => ∃ c, t.chan n key = some c ∧ c.tenant = p.tenant ∧ c.next = bf w 127 64 ∧
        c.rd = (bf w 150 128, bf w 167 151 * 64) ∧ c.wr = (bf w 190 168, bf w 207 191 * 64) ∧ c.fetched = [] ∧ c.active = [] ∧
        c.stopped = false ∧ (t.tile n).mem = x.mem) ∧
    (∀ r, wOpc w = 0x71 → rgnCheck sh w false = none → x.readBad (vOff w) 64 = false → openRegion x p.tenant sh (vOff w) = some r →
      x.region (vOff w) = none → mine.length + 1 ≤ 2 * banks → (mine.map (·.slots)).sum + r.slots ≤ 256 * banks →
      Completes (.rgnOpen n w) s fun t => (t.tile n).regions = x.regions ++ [r] ∧ (t.tile n).mem = x.mem) ∧
    (∀ r, wOpc w = 0x72 → rgnCheck sh w false = none → x.region (vOff w) = some r → r.tenant = p.tenant → x.marks = [] →
      r.prod.cls = 0 → r.cons.cls = 0 →
      Completes (.rgnClose n w) s fun t => (t.tile n).regions = x.regions.filter (·.desc != vOff w)) ∧
    (∀ r, wOpc w = 0x73 → slotCheck p x sh w = none → x.region (vOff w) = some r →
      Completes (.slotWait n w) s fun t => (t.tile n).mem = x.mem ∧
        (t.tile n).slotWait = if r.full (r.claimed (bf w 32 32 == 0)) = (bf w 32 32 == 0) then none
          else some (vOff w, r.claimed (bf w 32 32 == 0), bf w 32 32 == 0)) ∧
    (∀ r, wOpc w = 0x74 → slotCheck p x sh w = none → x.region (vOff w) = some r →
      Completes (.slotRelease n w) s fun t => (t.tile n).mem = x.mem ∧
        (t.tile n).marks = x.marks ++ [⟨vOff w, r.claimed (bf w 32 32 == 0), bf w 32 32 == 1, x.nextId⟩]) ∧
    (∀ opc c, (opc, c) ∈ [(0x78, Instr.cxEnc n w), (0x79, .cxDec n w), (0x7A, .cxTload n w), (0x7B, .cxHist n w)] → wOpc w = opc →
      cxCheck opc x p.tenant sh w = none →
      Completes c s fun t => (t.tile n).mem = x.mem ∧ t.cdx.slots = s.cdx.slots ∧
        ∃ r, t.cdx.reqs = s.cdx.reqs ++ [(codecOf n w, r)] ∧ r.tile = n ∧ r.tenant = p.tenant ∧ r.word = w ∧ r.block = 0 ∧
          r.id = x.nextId)

/-- The transfer channels, the walker and the codecs at work. -/
def Obligations.ChainsDescriptorsAndCodecWork : Prop :=
  ∀ s : State, s.tidy = true →
    (∀ tile ch c a bs, tile < 128 → (s.tile tile).flaws = [] → s.chan tile ch = some c → c.stopped = false → c.last = false →
      s.holds c.tenant tile = true → c.fetched = [] → (s.burst tile c 16 c.next).getLast? = some (a, bs) →
      Completes (.descriptorFetch tile ch) s fun t => t.chan tile ch = some { c with fetched := s.burst tile c 16 c.next, next := a + 64 } ∧
        (t.tile tile).mem = (s.tile tile).mem) ∧
    (∀ tile ch c at_ bytes rest op i o, tile < 128 → s.chan tile ch = some c → c.stopped = false → c.last = false → s.holds c.tenant tile = true →
      c.front = none → c.fetched = (at_, bytes) :: rest → bytes ≠ [] → (xdesc bytes).op = op → op < 3 →
      s.checkDesc tile ch c (xdesc bytes) = none →
      (if op = 1 then some 0 else s.sideSlot tile ch c.tenant (xdesc bytes).srcSp (xdesc bytes).src (xdesc bytes).srcCirc true) = some i →
      s.sideSlot tile ch c.tenant (xdesc bytes).dstSp (xdesc bytes).dst (xdesc bytes).dstCirc false = some o →
      let a := if op = 1 then 0 else s.sideBase tile ch c.tenant (xdesc bytes).srcSp (xdesc bytes).src (xdesc bytes).srcCirc true i
      let b := s.sideBase tile ch c.tenant (xdesc bytes).dstSp (xdesc bytes).dst (xdesc bytes).dstCirc false o
      (xdesc bytes).mustWait tile c a = false →
      let after := fun t : State => t = s.runDesc tile ch c (xdesc bytes) bytes i o a b
      (op = 0 → Completes (.copy tile ch) s after) ∧ (op = 1 → Completes (.fill tile ch) s after) ∧ (op = 2 → Completes (.convert tile ch) s after)) ∧
    (∀ tile ch c at_ bytes rest, tile < 128 → s.chan tile ch = some c → c.stopped = false → c.last = false → s.holds c.tenant tile = true →
      c.fetched = (at_, bytes) :: rest → bytes ≠ [] → (xdesc bytes).op = 3 → s.checkDesc tile ch c (xdesc bytes) = none → (xdesc bytes).isLast = false →
      c.active = [] →
      Completes (.link tile ch) s fun t => t.chan tile ch = some { c with fetched := [], begun := c.begun + 1, next := (xdesc bytes).src, last := false } ∧
        (t.tile tile).mem = (s.tile tile).mem ∧ t.regs = s.regs) ∧
    (∀ tile ch c x k r, tile < 128 → (s.tile tile).chans = [(ch, c)] → c.active = [x] → x.issued = true → (xdesc x.bytes).remote = false →
      k ∈ x.open_ → x.open_.erase k ≠ [] → x.req k = some r →
      Completes (.transferRequestComplete tile ch x.ord k) s fun t =>
        (t.tile tile).mem = ((moveReq tile c (xdesc x.bytes) r s).s.tile tile).mem ∧
        (t.chan tile ch).map (fun c => c.active.map (·.open_)) = some [x.open_.erase k]) ∧
    (∀ n p x rs i r q, n < 128 → (s.tile n).prog = some p → (s.tile n).at_ = some x → s.holds p.tenant n = true →
      rs = recsOf (s.tile n) (s.share p.tenant) (atArgs x.word) x.row x.rows → rs ≠ [] →
      ((blockGroups (atArgs x.word) rs).filter (needsFetch (atArgs x.word) rs))[x.fetched]? = some i →
      (s.tile n).region (atArgs x.word).ring = some r → r.full r.tail = false →
      x.page = some q → q.lo ≤ 16 * i → 16 * i < q.hi →
      (let parts := q.parts (atArgs x.word) i
       s.taMapped p.tenant parts.1 (16 * (atArgs x.word).rowBytes) = true ∧ s.taMapped p.tenant parts.2.1 (16 * (atArgs x.word).rowBytes) = true ∧
         s.taMapped p.tenant parts.2.2 64 = true) →
      let y := (s.copyGroup n p.tenant (atArgs x.word) q i (r.slotAddr r.tail)).tile n
      let z := fetchDone { y with heldPages := (List.range (2 ^ q.k)).foldl (fun l j => pset l (q.n + j)) y.heldPages } (s.share p.tenant) x
      Completes (.keyGroupFetch n) s fun t => (t.tile n).mem = z.mem ∧ (t.tile n).at_ = z.at_ ∧ (t.tile n).regions = z.regions) ∧
    (∀ codec r b, r.tile < 128 → wOpc r.word = 0x78 ∨ wOpc r.word = 0x79 → s.cdx.reqs = [(codec, r)] → s.cdx.inq = [b] → s.cdx.outq = [] →
      b.of codec r = true → s.mayFetch codec r = false → s.codecTurn codec = some r →
      let d := cxBlock r b
      let x := s.tile r.tile
      Completes (.codecBlock codec r.tile) s fun t =>
        t.cdx.inq = [] ∧ t.cdx.slots = s.cdx.slots ∧ aget t.cdx.turn codec = some r.tenant ∧
        (if (cxOut x (wOpc r.word) (cxArgs r.word)).ready x r.outS (b.block / (cxArgs r.word).bpr) false
         then t.cdx.outq = [] ∧ (t.tile r.tile).mem = (x.write (cxDst x r b.block) d.bytes d.bad).mem
         else t.cdx.outq = [{ b with bytes := d.bytes, bad := d.bad, table := none }] ∧ (t.tile r.tile).mem = x.mem)) ∧
    (∀ codec r tab, r.tile < 128 → (s.tile r.tile).flaws = [] → s.codecTurn codec = some r → wOpc r.word = 0x7A →
      (s.tile r.tile).readBad (cxArgs r.word).src 96 = false → tableOf ((s.tile r.tile).read (cxArgs r.word).src 96) = some tab →
      s.slotBusy codec r.tenant (cxArgs r.word).slot = 0 →
      Completes (.codecTloadApply codec r.tile) s fun t => aget t.cdx.slots (slotKey codec r.tenant (cxArgs r.word).slot) = some tab ∧
        (t.tile r.tile).mem = (s.tile r.tile).mem ∧ t.regs = s.regs)

/-- Power and temperature. -/
def Obligations.PowerSamplesLimitsAndThermalLevels : Prop :=
  ∀ s : State, s.tidy = true →
    (∀ x, Completes (.powerSample x) s fun t =>
      t.pwr.vin = window s.pwr.vin x.vin ∧ t.pwr.pin = window s.pwr.pin x.pin ∧ t.pwr.iin = x.iin ∧
      (s.serves = true → t.pwr.modLevel = lawLevel s.pwr.modLevel x.pin (1000 * s.fld 0x900004 0 13))) ∧
    (∀ v : W32, (s.serves = false → Completes (.pwrModLimitWrite v) s fun t => t = s) ∧
      (s.serves = true → Completes (.pwrModLimitWrite v) s fun t =>
        (if 3000 ≤ v.toNat % 2 ^ 13 ∧ v.toNat % 2 ^ 13 ≤ s.fld 0x900004 16 13
          then t.fld 0x900004 0 13 = v.toNat % 2 ^ 13 ∧ t.flag 0x900004 31 = (s.flag 0x900004 31 && !bitOf v.toNat 31)
          else t.fld 0x900004 0 13 = s.fld 0x900004 0 13 ∧ t.flag 0x900004 31 = true) ∧
        t.fld 0x900004 13 18 = s.fld 0x900004 13 18 ∧ (∀ a, a ≠ 0x900004 → t.word a = s.word a) ∧ t = { s with regs := t.regs })) ∧
    (∀ xs : List (Nat × Nat × Int), s.boot.state ≠ .standby → (∀ x ∈ xs, x.1 < 28 ∧ x.2.1 < 4) →
      ((∀ x ∈ xs, x.2.2 < 110) → Completes (.tempSample xs) s fun t =>
        (∀ x ∈ xs, x.2.2 ≤ t.temp x.1 ∧ (∃ y ∈ xs, y.1 = x.1 ∧ y.2.2 = t.temp x.1) ∧ t.fld (0x900400 + 4 * x.1) 0 8 = (t.temp x.1 % 256).toNat) ∧
        (s.pwr.temps.length = 28 → ∀ j < 28, (∀ x ∈ xs, x.1 ≠ j) → t.temp j = s.temp j) ∧
        (∀ (j i : Nat) (v : Int), i < 4 → (xs.filter fun x => x.1 == j && x.2.1 == i).getLast? = some (j, i, v) →
          t.pwr.hot.contains (4 * j + i) = decide (100 < v)) ∧
        (∀ (j i : Nat), i < 4 → (∀ x ∈ xs, ¬(x.1 = j ∧ x.2.1 = i)) → t.pwr.hot.contains (4 * j + i) = s.pwr.hot.contains (4 * j + i)) ∧
        t.recov = s.recov ∧ t.boot = s.boot) ∧
      (s.serves = true → s.inRecovery = false → (∀ x ∈ xs, 110 ≤ x.2.2 ∧ s.pwr.tripped.contains (4 * x.1 + x.2.1) = true) →
        (∃ x ∈ xs, 125 ≤ x.2.2) → (∀ x ∈ xs, 125 ≤ x.2.2 → x.1 < 8) → Completes (.tempSample xs) s fun t => t.recov.due = some [] ∧ t.fld 0x700040 0 8 = 0x17) ∧
      (s.serves = true → s.inRecovery = false → (∀ x ∈ xs, x.2.2 < 125) →
        (∃ x ∈ xs, 110 ≤ x.2.2 ∧ s.pwr.tripped.contains (4 * x.1 + x.2.1) = false) → Completes (.tempSample xs) s fun t =>
        t.recov.due = some [] ∧ t.fld 0x700040 0 8 = 0x15 ∧
        ∀ x ∈ xs, 110 ≤ x.2.2 → s.pwr.tripped.contains (4 * x.1 + x.2.1) = false →
          ∀ d ∈ sourceDies x.1, t.pwr.held.contains d = true ∧ t.thermal d = 63)) ∧
    (s.serves = false → Completes .thermalUpdate s fun t => t = s) ∧
    (s.serves = true → Completes .thermalUpdate s fun t => ∀ (d : Fin 8) (T : Int),
      let js := [d.val, 8 + d / 2, 12 + 4 * (d / 2), 13 + 4 * (d / 2), 14 + 4 * (d / 2), 15 + 4 * (d / 2)]
      (∃ j ∈ js, s.temp j = T) → (∀ j ∈ js, s.temp j ≤ T) →
      t.thermal d = (if s.pwr.held.contains d.val = true ∧ 97 < T then 63
        else if 100 < T then min 63 (s.thermal d + 4) else if 97 < T then s.thermal d else s.thermal d - 4) ∧
      t.pwr.held.contains d.val = (s.pwr.held.contains d.val && decide (97 < T)))

/-- Power events. -/
def Obligations.DroopThrottleConvertersAndRails : Prop :=
  ∀ s : State, s.tidy = true →
    (∀ d, d < 8 → s.serves = true → s.pwr.droop.contains d = false →
      Completes (.droopDetect d) s fun t => t.pwr.droop = d :: s.pwr.droop ∧ t.word (0x900304 + 8 * d) = satAdd32 (s.word (0x900304 + 8 * d)) 1) ∧
    (∀ d, Completes (.droopRelease d) s fun t => t.pwr.droop = s.pwr.droop.filter (· ≠ d) ∧ t.tiles = s.tiles) ∧
    (∀ at_, s.pins.throttle = false →
      Completes (.throttleLow at_) s fun t => t = { s with pins := { s.pins with throttle := true }, pwr := { s.pwr with lowAt := some at_, highAt := none } }) ∧
    (∀ at_ l, s.pwr.lowAt = some l → s.pins.throttle = true → l + 10000 ≤ at_ → s.serves = true →
      Completes (.throttleAccept at_) s fun t => t.flag 0x90000C 0 = true ∧ t.flag 0x90000C 1 = true ∧ t.pwr.floorAt = some at_ ∧
        t.pwr.lowAt = none ∧ t.word 0x900010 = satAdd32 (s.word 0x900010) 1) ∧
    (∀ at_, s.pins.throttle = true → s.pwr.lowAt = none →
      Completes (.throttleHigh at_) s fun t =>
        t = { s with pins := { s.pins with throttle := false }, pwr := { s.pwr with lowAt := none, highAt := some at_ } }) ∧
    (∀ at_ l, s.pins.throttle = true → s.pwr.lowAt = some l → at_ < l + 10000 → s.serves = true →
      Completes (.throttleHigh at_) s fun t => t.word 0x900014 = satAdd32 (s.word 0x900014) 1 ∧ t.pins.throttle = false ∧ t.pwr.lowAt = none) ∧
    (∀ at_ f h, s.pwr.floorAt = some f → s.pwr.highAt = some h → s.pins.throttle = false → f + 100000 ≤ at_ → h + 10000 ≤ at_ →
      Completes (.throttleRelease at_) s fun t => t.pwr.floorAt = none ∧ t.flag 0x90000C 0 = false) ∧
    (∀ n, n < 4 → bitOf s.pins.conv n = true → 3 ≤ popcount 4 (s.pins.conv - 2 ^ n) →
      Completes (.converterFail n) s fun t => t.pins.conv = s.pins.conv - 2 ^ n ∧ t.flag 0x900008 n = false ∧ t.flag 0x900008 (4 + n) = true ∧
        t.boot = s.boot) ∧
    (∀ n, n < 4 → bitOf s.pins.conv n = true → popcount 4 (s.pins.conv - 2 ^ n) < 3 →
      Completes (.converterFail n) s fun t => t.boot.state = .halted ∧ t.boot.inputOk = false ∧ t.pins.pwrgd = false ∧
        t.flash = s.flash ∧ t.fuses = s.fuses ∧ t.hbm = []) ∧
    (∀ n, n < 16 → railRank n < s.boot.railsUp → s.serves = true → s.inRecovery = false →
      Completes (.railFault n) s fun t => t.recov.due = some [] ∧ t.tiles = s.tiles) ∧
    (∀ n, 16 ≤ n → n < 28 → railRank n < s.boot.railsUp → s.serves = true → s.inRecovery = false → s.recov.window = false → s.mayStart = true →
      Completes (.railFault n) s fun t => t.boot.state = .starting ∧ t.hbm = [] ∧ t.flash = s.flash ∧ t.fuses = s.fuses) ∧
    (∀ out, s.pins.v48 = true →
      Completes (.powerGoodLoss out) s fun t => t.boot.state = .standby ∧ t.boot.inputOk = false ∧ t.pins.pwrgd = false ∧ t.pins.v48 = false ∧ t.hbm = [] ∧
        t.tiles = State.reset.tiles ∧ t.flash = s.flash ∧ t.fuses = s.fuses)

/-- The board's ports. -/
def Obligations.BoardTestAndManagementBusAnswer : Prop :=
  ∀ s : State, s.tidy = true →
    let answers (c : Instr) (o : Out) : Prop := Completes c s fun t => t = { s with outbox := s.outbox ++ [o] }
    let drive (c : Nat) (own : Bool) : Bool := if s.aoc.jtag.ir = 0 then s.aoc.jtag.cells.getD c own else own
    let scans (c : Instr) (ir : Nat) (bits : List Bool) : Prop := Completes c s fun t =>
      (∃ lv : List Bool, lv.length = 16 ∧ lv.take 4 = [!s.pins.mated, !s.pins.perst, drive 2 s.pins.pwrgd, !s.pins.throttle] ∧
        lv[10]? = some s.pins.boardTest ∧ lv.drop 13 = [drive 13 (!s.pins.smbAlert), s.pins.tickIn, drive 15 s.pins.tickOut] ∧
        t = { s with freeCtr := s.freeCtr + 1, outbox := s.outbox ++ [.jtag lv],
                     aoc := { s.aoc with jtag := { ir := ir, cells := (bits ++ List.replicate 16 true).take 16 } } }) ∧
      (ir = 0 → ∀ k < bits.length, k < 16 → ∀ own, t.pinLevel k own = bits.getD k own)
    (s.pins.boardTest = true →
      (∀ bits, scans (.jtagExtest bits) 0 bits ∧ scans (.jtagSamplePreload bits) 1 bits) ∧
      Completes .jtagIdcode s (fun t => ∃ bs : List Bool, bs.length = 32 ∧ ((bs.zipIdx.map fun (b, i) => b.toNat * 2 ^ i).sum = 0x04816735) ∧
        t = { s with outbox := s.outbox ++ [.jtag bs], aoc := { s.aoc with jtag := { s.aoc.jtag with ir := 2 } } }) ∧
      (∀ code bits, 2 < code → code < 16 → Completes (.jtagBypass code bits) s fun t => ∃ out : List Bool,
        t = { s with outbox := s.outbox ++ [.jtag out], aoc := { s.aoc with jtag := { s.aoc.jtag with ir := 0xF } } } ∧
        out.length = bits.length ∧ ∀ k < bits.length, out.getD k true = if k = 0 then false else bits.getD (k - 1) true)) ∧
    (s.pins.boardTest = false → ∀ c bits, Completes (.jtagExtest bits) s (fun t => t = s) ∧ Completes (.jtagSamplePreload bits) s (fun t => t = s) ∧
      Completes .jtagIdcode s (fun t => t = s) ∧ Completes (.jtagBypass c bits) s fun t => t = s) ∧
    (s.pins.v48 = true →
      answers .smbStatus (.smb (leBytes 1 s.boot.state.code ++ leBytes 1 (s.fld 0x120 0 4) ++ leBytes 1 (s.fld 0x120 8 8) ++
        leBytes 1 (s.pins.perst.toNat + 2 * (!s.pins.mated).toNat + 4 * s.pins.boardTest.toNat + 8 * (s.fld 0x90000C 0 1)))) ∧
      answers .smbPower (.smb (leBytes 2 (meanOf s.pwr.vin) ++ leBytes 2 (s.pwr.iin / 100) ++ leBytes 2 (meanOf s.pwr.pin / 1000) ++
        leBytes 1 s.pins.conv ++ leBytes 1 0)) ∧
      (s.pwr.temps = [] → answers .smbTemp (.smb [0x80, 0, 0, 0])) ∧
      (s.pwr.temps ≠ [] → ∃ (j : Nat) (T : Int), s.pwr.temps[j]? = some T ∧ (∀ k v, s.pwr.temps[k]? = some v → v ≤ T ∧ (k < j → v < T)) ∧
        answers .smbTemp (.smb (leBytes 1 (T % 256).toNat ++ leBytes 1 j ++ leBytes 1 (s.pwr.temps.countP fun v => decide (100 < v)) ++ leBytes 1 0))) ∧
      answers .smbIdent (.smb (s.getBytes 0x10 8 ++ s.getBytes 0x0 4 ++ s.getBytes 0x20 4)) ∧
      answers .smbPosition (.smb (leBytes 1 (s.aoc.slotId.getD 0xFF) ++ leBytes 1 (if s.flag 0xC 17 then s.fld 0xC 0 6 else 0xFF))) ∧
      answers .smbAlert (.smb (leBytes 2 (s.aoc.alert % 64))) ∧
      (∀ k, Completes (.smbAlertClr k) s fun t => (∀ i, bitOf t.aoc.alert i = (bitOf s.aoc.alert i && !bitOf k i)) ∧
        (t.pins.smbAlert = true ↔ ∃ i, bitOf s.aoc.alert i = true ∧ bitOf k i = false) ∧
        t = { s with aoc := { s.aoc with alert := t.aoc.alert }, pins := { s.pins with smbAlert := t.pins.smbAlert } })) ∧
    (s.pins.v48 = false → ∀ k, ∀ c ∈ [Instr.smbStatus, .smbPower, .smbTemp, .smbIdent, .smbPosition, .smbAlert, .smbAlertClr k], answers c .smbNack) ∧
    answers .smbUnlistedCommand .smbNack ∧
    (s.serves = true → Completes .vitRestart s fun t => t = { s with vit := { s.vit with restart := true } } ∧
      t.vitBoundary.quad 0xA00010 = 0 ∧ t.vitBoundary.flag 0xA0000C 0 = false ∧ t.vitBoundary.hbm = s.hbm ∧ t.vitBoundary.vit.restart = false) ∧
    (s.serves = false → Completes .vitRestart s fun t => t = s) ∧
    (s.serves = true → bitOf s.vit.ctl 2 = true → s.vit.frame.length ≤ 15 → (∀ e ∈ s.vit.frame, e.length = 32) → s.vit.frameNo < 2 ^ 32 →
      Completes .traceFrameSend s fun t => ∃ b : List Byte,
        t = { s with outbox := s.outbox ++ [.trace b], vit := { s.vit with frame := [], frameNo := (s.vit.frameNo + 1) % 2 ^ 32 } } ∧
        b.length = 512 ∧ fieldAt b 0 2 = 0x5456 ∧ fieldAt b 2 1 = s.moduleId % 256 ∧ fieldAt b 3 1 = s.vit.frame.length ∧
        fieldAt b 4 4 = s.vit.frameNo ∧ (∀ i e, s.vit.frame[i]? = some e → (b.drop (8 + 32 * i)).take 32 = e) ∧
        zeros b (8 + 32 * s.vit.frame.length) 508 = true ∧ fieldAt b 508 4 = crc32c (b.take 508)) ∧
    (s.serves = false ∨ bitOf s.vit.ctl 2 = false → Completes .traceFrameSend s fun t => t = s)

/-- Wear and the accession log. -/
def Obligations.WearMonitorsAndAccessionLog : Prop :=
  ∀ s : State, s.tidy = true →
    (∀ ma n, ma / 0x800000000 < 32 → ma % 0x800000000 / 65536 < 516096 → s.serves = true →
      Completes (.hbmScrub ma n true) s fun t => t.hbmBad = pset s.hbmBad (ma / 64) ∧ t.hbm = s.hbm ∧ t.regs = s.regs) ∧
    (∀ ma n, ma / 0x800000000 < 32 → ma % 0x800000000 / 65536 < 516096 → s.serves = true → 0 < n →
      Completes (.hbmScrub ma n false) s fun t => t.hbmBad = s.hbmBad ∧ t.hbm = s.hbm ∧
        natOf t.acc.pageCe (pageKey (ma / 0x800000000) (ma % 0x800000000 / 65536)) =
          natOf s.acc.pageCe (pageKey (ma / 0x800000000) (ma % 0x800000000 / 65536)) + n) ∧
    (∀ g page, Completes (.hbmPageCopyComplete g page) s fun t =>
      t = { s with acc := { s.acc with swaps := s.acc.swaps.map fun x =>
        if x.kind == 6 && x.unit == g && x.old == page then { x with left := 0 } else x } }) ∧
    (∀ x, (s.acc.swaps.find? fun x => x.left == 0 && !x.noted) = some x → x.waits = true → s.flash.active.records.length < 65535 →
      Completes (.accessionAppend true) s fun t => t.acc.swaps = (s.acc.swaps.map fun y => if y == x then { y with noted := true } else y) ∧
        t.flash.active.records = s.flash.active.records ++ [(x.rec_ s.flash.nextSeq).bytes]) ∧
    (∀ rail phase, rail < 20 → phase < activePhases rail + 2 → s.acc.phases.contains (rail, phase) = false →
      Completes (.phaseTrip rail phase) s fun t => t.acc.phases = s.acc.phases ++ [(rail, phase)] ∧
        (∃ x : Swap, t.acc.swaps = s.acc.swaps ++ [x] ∧ x.kind = 9 ∧ x.unit = rail ∧ x.old = phase) ∧ t.tiles = s.tiles) ∧
    (∀ tile, s.acc.leaving.contains tile = true → s.acc.stopped.contains tile = false → s.serves = true → s.inRecovery = false →
      Completes (.vacancyTimeout tile) s fun t => t.acc.stopped = pset s.acc.stopped tile ∧ t.recov.due = some []) ∧
    Completes .wearInterval s (fun t => t = { s with acc := { s.acc with bankCe := [], bankUe := [], pageCe := [] } })

/-- Recovery. -/
def Obligations.RecoveryStepsOfTheComputePart : Prop :=
  ∀ s : State, s.tidy = true →
    (∀ l, s.recov.due = some l → Completes .computePartReset s fun t =>
      t.boot.state = .recovering ∧ t.recov.held = true ∧ t.recov.due = none ∧ t.recov.suspects = l ∧ t.recov.replay = none ∧
      ∀ n, (t.tile n).prog = none ∧ (t.tile n).flight = [] ∧ (t.tile n).launch = none ∧ (t.tile n).saved = []) ∧
    (s.recov.held = true → Completes .computePartRelease s fun t =>
      t.recov.held = false ∧ t.recov.wrap = false ∧ t.recov.colls = [] ∧ t.flash = s.flash) ∧
    (∀ c : Fin 16, s.recov.replay.map (·.1) = some c.val →
      let tiles := s.tilesOf c ((s.allCmds c).map (·.1))
      tiles ≠ [] → s.blocked c tiles = false →
      Completes (.suspectWindow c false) s fun t => t.recov.due = some s.recov.suspects ∧ t.recov.replay = none ∧ t.flag 0x700014 (16 + c) = true) ∧
    (∀ c, s.recov.replay = some (c, 0) → s.replayDone c = true → s.recov.suspects = [] →
      Completes .suspectReplayLimit s fun t => t.recov.replay = none ∧ t.fld 0x700000 0 3 = 4 ∧ t.tiles = s.tiles) ∧
    (s.cat.isSome = true → s.boot.state ≠ .halted → s.recov.mcFailed = 0 →
      Completes .mcFailover s fun t => t.recov = { s.recov with mcFailed := 1, mcTake := true } ∧ t.tiles = s.tiles) ∧
    (∀ d, d < 8 → s.serves = true → s.inRecovery = false → Completes (.ccFail d) s fun t => t.recov = { s.recov with due := some [], bankUe := [] } ∧ t.tiles = s.tiles) ∧
    (s.serves = true → s.inRecovery = false → Completes .cpReset s fun t => t.recov = { s.recov with due := some [], bankUe := [] } ∧ t.tiles = s.tiles) ∧
    (s.serves = true → Completes .escalationWindowEnd s fun t => t = { s with recov := { s.recov with window := false, twice := false } })

/-- Tenants. -/
def Obligations.TenantFreezeResetAndRecords : Prop :=
  ∀ (s : State) (c : Fin 16), s.tidy = true →
    (s.serves = true → s.active c = true → Completes (.freeze c) s fun t => t.tState c = tsFrozen ∧ t.recov.saving.contains c.val = true ∧ t.tiles = s.tiles) ∧
    (s.serves = true → s.tState c = tsFrozen → s.flag (tnt c 0x100) 19 = false →
      Completes (.unfreeze c) s fun t => (t.twinSt c).unfreeze = true ∧ t.tState c = tsFrozen) ∧
    (s.serves = true → s.tState c = tsActive ∨ s.tState c = tsFrozen →
      Completes (.tenantReset c) s fun t => t.tState c = tsResetting ∧ (∀ k f, k < 4096 → f < 3 → t.ctr c k f = 0) ∧
        t.flag (tnt c 0x100) 19 = false ∧ t.flash = s.flash ∧ t.fuses = s.fuses) ∧
    (s.tState c = tsResetting → Completes (.tenantResetComplete c) s fun t => t.tState c = tsActive ∧ t.flag (tnt c 0x30) 3 = true ∧
      t.tiles = s.tiles ∧ t.hbm = s.hbm) ∧
    (∀ r, s.serves = true → r < 8 → r < ((s.cat.map (·.commons)).getD []).length → s.commonState r = 0 →
      Completes (.publish r) s fun t => t = { s with publish := s.publish ||| 2 ^ r }) ∧
    (∀ r, r < 8 → s.commonState r = 1 →
      Completes (.commonDigestComplete r) s fun t => aget t.commonDigs r = some (sha384 (s.commonBytes r)) ∧ t.flag 0x10F000 (16 + r) = false ∧
        t.flag 0x10F000 (8 + r) = true ∧ t.hbm = s.hbm) ∧
    (∀ p, s.serves = true → s.part c = some p → wsetFits p (s.quad (tnt c 0x40)) (s.quad (tnt c 0x48)) = true → s.flag (tnt c 0x50) 1 = false →
      s.flag (tnt c 0x50) 2 = false →
      Completes (.wsetGo c) s fun t => (t.twinSt c).wsetAt = some (s.quad (tnt c 0x40), s.quad (tnt c 0x48)) ∧ t.flag (tnt c 0x50) 1 = true) ∧
    (∀ r, (s.twinSt c).wsetOn = some r → s.flag (tnt c 0x50) 1 = true →
      Completes (.wsetDigestComplete c) s fun t => t.flag (tnt c 0x50) 1 = false ∧ t.flag (tnt c 0x50) 2 = true ∧ t.twin = s.twin) ∧
    (s.serves = true → Completes (.faultClear c) s fun t => t.fld (tnt c 0x100) 0 19 = 0 ∧ t.word (tnt c 0x104) = 0 ∧
      t.flag (tnt c 0x100) 19 = s.flag (tnt c 0x100) 19 ∧ ∀ a, tnt c 0x120 ≤ a → a < tnt c 0x160 → t.word a = 0) ∧
    Completes .fltClear s (fun t => t.word 0x700004 = 0 ∧ t.flag 0x700000 16 = false ∧ (∀ a, 0x700020 ≤ a → a < 0x700060 → t.word a = 0) ∧
      t.fld 0x700000 0 3 = s.fld 0x700000 0 3)

/-- The twin. -/
def Obligations.TwinModesMarksUnitsAndLoss : Prop :=
  ∀ (s : State) (c : Fin 16), s.tidy = true →
    (∀ req, s.serves = true → (s.part c).isSome = true → req % 4 = 0 → s.twinLost = true →
      Completes (.twinModeRequest c req) s fun t => t.fld (tnt c 0x8) 0 2 = 0 ∧ (t.twinSt c).change = some (0, s.tickNo + 1) ∧ t.outbox = s.outbox) ∧
    (∀ req, s.serves = true → (s.part c).isSome = true → s.twinLost = false → (s.twinSt c).peerReq = none →
      Completes (.twinModeRequest c req) s fun t => t.fld (tnt c 0x8) 0 2 = req % 4 ∧ (t.twinSt c).reqTick = some s.tickNo) ∧
    (∀ m k d pub, (s.part c).isSome = true → (s.twinSt c).reqTick = none →
      Completes (.twinModeRequestReceive c m k d pub) s fun t => (t.twinSt c).peerReq = some (m, k, d, pub) ∧ t.regs = s.regs) ∧
    ((if s.servesPair then (s.twinSt c).resync = 1 else (s.twinSt c).resync = 2) →
      Completes (.resyncComplete c) s fun t => (t.twinSt c).resync = 3 ∧ t.regs = s.regs) ∧
    (∀ n d, s.servesPair = false → (s.part c).isSome = true →
      Completes (.mirrorRecordReceive c (.sess n d)) s fun t => t = s.setSess n d) ∧
    (∀ k ctrs csns ret, s.servesPair = false → Completes (.mirrorMarkReceive c k ctrs csns ret) s fun t =>
      (t.twinSt c).markTick = k ∧ (t.twinSt c).markCtrs = ctrs ∧ (t.twinSt c).markCsns = csns ∧ (t.twinSt c).markRet = ret ∧
      (t.twinSt c).undo = [] ∧ t.regs = s.regs ∧ t.hbm = s.hbm) ∧
    (∀ r, s.comparing c = true → s.servesPair = false →
      Completes (.stepRecordReceive c r) s fun t => (t.twinSt c).steps = (s.twinSt c).steps ++ [r] ∧ t.regs = s.regs) ∧
    (∀ u, s.comparing c = true → s.active c = true → (s.twinSt c).units = [u] → (s.twinSt c).digests = [] → u.own = none → s.unitDone c u.tick = true →
      Completes (.unitComplete c u.tick) s fun t => (t.twinSt c).units.map (·.own) = [some (s.unitDigest c u)]) ∧
    (∀ u a, s.comparing c = true → (s.twinSt c).units = [u] → u.own = some a → (s.twinSt c).diverge = none →
      Completes (.unitDigestReceive c u.tick a) s fun t => (t.twinSt c).units = []) ∧
    (s.cat.isSome = true → s.portState 16 = psUp → Completes .heartbeatSend s fun t =>
      t = { s with outbox := s.outbox ++ (if s.portState 17 = psUp then [.heartbeat 16, .heartbeat 17] else [.heartbeat 16]) }) ∧
    Completes .heartbeatReceive s (fun t => t = { s with lnk := { s.lnk with beat := true } }) ∧
    (s.serves = true → s.twinLost = false → (∀ t : Fin 16, s.mode t = 0 ∧ (s.twinSt t).resync = 0) →
      (s.lrd.sess.any fun (_, d) => d.jobbed) = false →
      Completes .twinLossTimeout s fun t => t.twinLost = true ∧ t.pair.takeover = !s.servesPair ∧ t.pair.back = false ∧ t.twin = s.twin) ∧
    (s.twinLost = true → Completes .twinReturn s fun t => t = { s with pair := { s.pair with back := true } }) ∧
    (s.serves = true → s.servesPair = true → Completes .handover s fun t => t = { s with pair := { s.pair with handover := true } }) ∧
    (∀ b, (s.part c).isSome = true → Completes (.reflowNoticeReceive c b) s fun t => (t.ladle c).reflow = some b ∧ t.regs = s.regs)

/-- Register reads. The free number that the model draws (a time, log entry 30) has no part in these answers. -/
def Obligations.RegisterReadsAnswerAndLatch : Prop :=
  ∀ s : State,
    (∀ fn off len, s.barLive fn = false → Completes (.registerRead fn off len) s fun t => t = { s with outbox := s.outbox ++ [.noAnswer fn] }) ∧
    (∀ off, s.barLive .pf = true → off % 4 = 0 → off < 0x10000 → ¬(0x180 ≤ off ∧ off < 0x1E0) → isWide (off / 8 * 8) = false →
      Completes (.registerRead .pf off 4) s fun t => t = { s with
        freeCtr := s.freeCtr + 1,
        outbox := s.outbox ++ [.answer .pf (leBytes 4
          (if (regLookup off).isSome && (s.serves || early off) then (s.word off).toNat &&& readMask off true else 0))] }) ∧
    (s.barLive .pf = true → s.serves = true → Completes (.registerRead .pf 0x10008 4) s fun t =>
      t.outbox = s.outbox ++ [.answer .pf (leBytes 4 (s.word 0x10008).toNat)] ∧ aget t.pf.latch 0x10008 = some (s.word 0x1000C) ∧ t.regs = s.regs) ∧
    (∀ v : W32, s.barLive .pf = true → aget s.pf.latch 0x10008 = some v → Completes (.registerRead .pf 0x1000C 4) s fun t =>
      t.outbox = s.outbox ++ [.answer .pf (leBytes 4 v.toNat)] ∧ t.regs = s.regs) ∧
    (∀ (n : Fin 16) (off h : Nat), s.barLive (.vf n) = true → s.offNow n = true → off % 8 = 0 → vfPlace n off = .home h → h ≠ tnt n 0xC →
      isWide h = false → Completes (.registerRead (.vf n) off 4) s fun t => t.outbox = s.outbox ++ [.answer (.vf n) (leBytes 4 0)] ∧ t.regs = s.regs)

/-- Register writes. -/
def Obligations.RegisterWritesFollowTheirCodes : Prop :=
  ∀ s : State, s.tidy = true →
    (∀ fn off data, s.barLive fn = false → Completes (.registerWrite fn off data) s fun t => t = s) ∧
    (∀ (off : Nat) (bs : List (Option Byte)), s.barLive .pf = true → off % 4 = 0 → off < 0x10000 → off ≠ 0x34 → off ≠ 0x40 → off ≠ 0x100 →
      isWide (off / 8 * 8) = false → (regLookup off).isSome = true → (s.serves || early off) = true → bs.length = 4 → bs.any Option.isSome = true →
      Completes (.registerWrite .pf off bs) s fun t =>
        (∀ i : Nat, i < 32 → (t.word off).getLsbD i =
          (let written : Option Bool := (bs[i / 8]?.join).map fun b => b.getLsbD (i % 8)
           if bitOf (codeMask off true (· == .rw)) i then written.getD ((s.word off).getLsbD i)
           else if bitOf (codeMask off true (· == .w1c)) i && written == some true then false
           else (s.word off).getLsbD i)) ∧
        (∀ a, a ≠ off → t.word a = s.word a) ∧ t = { s with regs := t.regs }) ∧
    (∀ v : W32, s.barLive .pf = true → s.serves = true → Completes (.registerWrite .pf 0x10208 ((leBytes 4 v.toNat).map some)) s fun t =>
      aget t.pf.held 0x10208 = some v ∧ t.regs = s.regs) ∧
    (∀ lo hi : W32, s.barLive .pf = true → s.serves = true → aget s.pf.held 0x10208 = some lo →
      Completes (.registerWrite .pf 0x1020C ((leBytes 4 hi.toNat).map some)) s fun t =>
        t.word 0x10208 = lo ∧ t.word 0x1020C = hi ∧ ∀ a, a ≠ 0x10208 → a ≠ 0x1020C → t.word a = s.word a) ∧
    (∀ b : Fin 9, s.barLive .pf = true → s.flag 0x30 b = true → s.pf.masked 0 = false →
      Completes (.registerWrite .pf 0x34 ((leBytes 4 (2 ^ b.val)).map some)) s fun t =>
        t.outbox = s.outbox ++ [.intr .pf 0] ∧ t.flag 0x34 b = true ∧ t.flag 0x30 b = true) ∧
    (∀ v : W32, s.barLive .pf = true → s.serves = true → Completes (.registerWrite .pf 0x300000 ((leBytes 4 v.toNat).map some)) s fun t =>
      t = { s with pf := { s.pf with session := v.toNat % 2 ^ 13 } })

/-- Registers that stand for commands. -/
def Obligations.RegisterWritesActAsTheirCommands : Prop :=
  ∀ (s : State) (n : Fin 16), s.serves = true →
    (∀ (r : Fin 8) (v : Nat), s.barLive (.vf n) = true →
      exec (.registerWrite (.vf n) (0x20000 + 0x1000 * r) ((leBytes 4 v).map some)) s = exec (.doorbell n r (v % 2 ^ 16)) s) ∧
    (∀ (r : Fin 8) (p : Partition), s.barLive (.vf n) = true → s.part n = some p → r.val < p.rings → s.tState n ≠ tsDisabled → s.tState n ≠ tsResetting →
      exec (.registerWrite (.vf n) (0x10000 + 0x100 * r) ((leBytes 4 1).map some)) s = exec (.ringEnable n r) s ∧
      exec (.registerWrite (.vf n) (0x10000 + 0x100 * r) ((leBytes 4 0).map some)) s = exec (.ringDisable n r) s) ∧
    (s.barLive (.vf n) = true → s.tState n ≠ tsDisabled → s.tState n ≠ tsResetting →
      exec (.registerWrite (.vf n) 0x108 ((leBytes 4 1).map some)) s = exec (.faultClear n) s) ∧
    (∀ v, s.barLive .pf = true → exec (.registerWrite .pf 0x502000 ((leBytes 4 v).map some)) s = exec (.lnkRetry (v % 256)) s) ∧
    (s.barLive .pf = true →
      exec (.registerWrite .pf 0x700008 ((leBytes 4 1).map some)) s = exec .fltClear s ∧
      exec (.registerWrite .pf 0x700008 ((leBytes 4 2).map some)) s = exec .cpReset s)

/-- Writes turned away. -/
def Obligations.HiddenOffsetsAndLockedRingsTurnWritesAway : Prop :=
  ∀ (s : State) (n : Fin 16), s.tidy = true → s.serves = true → s.barLive (.vf n) = true →
    (∀ (off : Nat) (b : Byte), off % 8 = 0 → vfPlace n off = .hidden → s.tState n = tsActive →
      Completes (.registerWrite (.vf n) off [some b]) s fun t =>
        t.tState n = tsFrozen ∧ t.fld (tnt n 0x100) 8 8 = 0xD0 ∧ t.flag (tnt n 0x30) 2 = true ∧ t.tiles = s.tiles) ∧
    (∀ (r : Fin 8) (o : Nat) (bs : List (Option Byte)), s.tState n = tsDisabled ∨ s.tState n = tsResetting → o % 4 = 0 → o < 0x100 → bs.length = 4 →
      Completes (.registerWrite (.vf n) (0x10000 + 0x100 * r + o) bs) s fun t => t = s) ∧
    (∀ (r : Fin 8) (p : Partition) (v : Nat), s.part n = some p → r.val < p.rings → s.tState n = tsActive → s.ringOn n r = true →
      Completes (.registerWrite (.vf n) (0x10000 + 0x100 * r + 4) ((leBytes 4 v).map some)) s fun t =>
        t.word (rng n r 4) = s.word (rng n r 4) ∧ t.flag (rng n r 0x30) 3 = true ∧ t = { s with regs := t.regs })

/-- Reads through the memory windows. -/
def Obligations.MemoryWindowReads : Prop :=
  ∀ s : State,
    (∀ fn addr len, s.barLive fn = false ∨ 2 ^ 40 < addr + len → Completes (.bar2Read fn addr len) s fun t => t = { s with outbox := s.outbox ++ [.noAnswer fn] }) ∧
    (∀ addr len, s.barLive .pf = true → s.serves = true → addr + len ≤ 2 ^ 40 → Completes (.bar2Read .pf addr len) s fun t =>
      t = { s with outbox := s.outbox ++ [.answer .pf ((List.range len).map fun i => if s.pfHides (addr + i) then 0 else nget s.hbm (addr + i))] }) ∧
    (∀ (n : Fin 16) (p : Partition) (addr len : Nat), s.barLive (.vf n) = true → s.serves = true → s.part n = some p → addr + len ≤ p.taSize →
      addr + len ≤ 2 ^ 40 → 0 < len → Completes (.bar2Read (.vf n) addr len) s fun t =>
      t = { s with msc := t.msc, outbox := s.outbox ++ [.answer (.vf n) ((List.range len).map fun i => nget s.hbm (groupAddr p.chgroups (addr + i)))] }) ∧
    (∀ (n : Fin 16) (addr len : Nat), s.tidy = true → s.barLive (.vf n) = true → s.serves = true → (s.part n).isSome = true → s.tState n = tsActive →
      s.taMapped n addr len = false → addr + len ≤ 2 ^ 40 → Completes (.bar2Read (.vf n) addr len) s fun t =>
      t.outbox.getLast? = some (.answer (.vf n) (List.replicate len 0)) ∧ t.tState n = tsFrozen ∧ t.fld (tnt n 0x100) 8 8 = 0xD1 ∧ t.tiles = s.tiles)

/-- Writes through the memory windows. -/
def Obligations.MemoryWindowWrites : Prop :=
  ∀ s : State, s.serves = true →
    (∀ (n : Fin 16) (p : Partition) (addr : Nat) (bs : List Byte), s.barLive (.vf n) = true → s.part n = some p → 0 < bs.length →
      addr + bs.length ≤ p.taSize → addr + bs.length ≤ 2 ^ 40 → s.taWriteBar n addr bs.length 0xD1 = none → s.mode n = 0 →
      s.flag (tnt n 0x10) 0 = false → s.tState n ≠ tsResetting → s.tidy = true →
      Completes (.bar2Write (.vf n) addr bs) s fun t =>
        (∀ i, i < bs.length → nget t.hbm (groupAddr p.chgroups (addr + i)) = bs.getD i 0) ∧
        (∀ a, (∀ i, i < bs.length → a ≠ groupAddr p.chgroups (addr + i)) → nget t.hbm a = nget s.hbm a) ∧
        t.regs = s.regs ∧ t.tiles = s.tiles ∧ t.ctrs = s.ctrs ∧ t.outbox = s.outbox) ∧
    (∀ (addr : Nat) (bs : List Byte), s.tidy = true → s.barLive .pf = true → addr + bs.length ≤ 2 ^ 40 → addr % 0x800000000 + bs.length ≤ 256 →
      s.pfHides addr = false → s.traceGroup ≠ some (addr / 0x800000000) → s.taOfMa addr = none →
      Completes (.bar2Write .pf addr bs) s fun t =>
        (∀ a, nget t.hbm a = if addr ≤ a ∧ a < addr + bs.length then bs.getD (a - addr) 0 else nget s.hbm a) ∧
        t.regs = s.regs ∧ t.tiles = s.tiles ∧ t.outbox = s.outbox) ∧
    (∀ (addr : Nat) (bs : List Byte), s.barLive .pf = true → (∀ i, i < bs.length → s.pfHides (addr + i) = true) →
      Completes (.bar2Write .pf addr bs) s fun t => t = s) ∧
    (∀ (n : Fin 16) (addr : Nat) (bs : List Byte), s.tidy = true → s.barLive (.vf n) = true → addr + bs.length ≤ 2 ^ 40 → s.part n ≠ none →
      s.taMapped n addr bs.length = false → s.tState n = tsActive →
      Completes (.bar2Write (.vf n) addr bs) s fun t => t.tState n = tsFrozen ∧ t.fld (tnt n 0x100) 8 8 = 0xD1 ∧ t.tiles = s.tiles) ∧
    (∀ (n : Fin 16) (addr : Nat) (bs : List Byte), s.tidy = true → s.barLive (.vf n) = true → addr + bs.length ≤ 2 ^ 40 → s.part n ≠ none →
      s.taWriteBar n addr bs.length 0xD1 = some 0xF4 → s.tState n = tsActive →
      Completes (.bar2Write (.vf n) addr bs) s fun t => t.tState n = tsFrozen ∧ t.fld (tnt n 0x100) 8 8 = 0xF4 ∧ t.tiles = s.tiles)

/-- PCIe control events. -/
def Obligations.PcieFunctionResetsAndEnables : Prop :=
  ∀ s : State, s.tidy = true →
    (∀ fn, Completes (.pcieAtomicop fn) s fun t => t = { s with outbox := s.outbox ++ [.unsupported fn] }) ∧
    (s.pins.perst = false → s.pf.ready = true →
      Completes .pfFlr s (fun t => t.pf = FnState.reset ∧ t.vfEnable = false ∧ t.numVfs = 0 ∧ t.word 0x34 = 0 ∧ (∀ a, a ≠ 0x34 → t.word a = s.word a) ∧
        t.vfs = s.vfs ∧ t.hbm = s.hbm ∧ t.tiles = s.tiles ∧ t.front = s.front) ∧
      (∀ n : Fin 16, s.tState n = tsActive ∨ s.tState n = tsFrozen → Completes (.vfFlr n) s fun t =>
        t.fnState (.vf n) = FnState.reset ∧ t.tState n = tsResetting ∧ t.word (tnt n 0x34) = 0 ∧ ∀ k f, k < 4096 → f < 3 → t.ctr n k f = 0) ∧
      (∀ n : Fin 16, Completes (.vfAccessLoss .vfEnable) s fun t => t.vfReach n = false ∧ t = { s with vfEnable := false }) ∧
      (∀ (n : Fin 16) (k : Nat), k ≤ n → Completes (.vfAccessLoss (.numVfs k)) s fun t => t.vfReach n = false ∧ t.regs = s.regs) ∧
      (∀ n : Fin 16, Completes (.vfAccessLoss (.busMaster n)) s fun t => t.vfReach n = false ∧ t.regs = s.regs ∧ ∀ m : Fin 16, m ≠ n → t.vfReach m = s.vfReach m) ∧
      (∀ n : Fin 16, s.vfEnable = true → n.val + 1 ≤ s.numVfs → Completes (.pcieEnableRestore (.busMaster n)) s fun t => t.vfReach n = true ∧ t.regs = s.regs) ∧
      (∀ fn, Completes (.memorySpaceDisable fn) s fun t => t.barLive fn = false ∧ t.regs = s.regs ∧ t.hbm = s.hbm) ∧
      Completes (.pcieEnableRestore (.memSpace .pf)) s (fun t => t.barLive .pf = true ∧ t.regs = s.regs)) ∧
    (s.pins.perst = false → s.pf.ready = false →
      Completes .pfFlr s (fun t => t = { s with outbox := s.outbox ++ [.retryStatus .pf] }) ∧
      ∀ fn, Completes (.memorySpaceDisable fn) s fun t => t = { s with outbox := s.outbox ++ [.retryStatus fn] }) ∧
    (∀ (n : Fin 16) (r : Fin 8), s.fetchRoom n r ≠ 0 → Completes (.pcieCompletionTimeout n r) s fun t =>
      t.ringState n r = 4 ∧ t.tState n = tsFrozen ∧ t.fld (tnt n 0x100) 8 8 = 0xC7 ∧ t.tiles = s.tiles)

/-- Attachments join. -/
def Obligations.AttachmentsJoinAndComeUp : Prop :=
  ∀ (s : State) (k : Fin 8), s.tidy = true →
    (s.attUsed k = true → s.attState k = asJoin → (s.att k).window = false → s.startStep = 6 ∨ s.serves = true →
      (s.lanesOk (2 * k) = true → s.lanesOk (2 * k + 1) = true → Completes (.attachmentJoin k true true) s fun t =>
        t.portState (2 * k) = psJoin ∧ t.portState (2 * k + 1) = psJoin ∧ t.attState k = asJoin ∧
        ((s.att k).stuck = false → t.flag (attReg k) 2 = false) ∧
        t.att k = { s.att k with openCmd := true, window := true, retry := false } ∧ t.tiles = s.tiles) ∧
      ∀ b, Completes (.attachmentJoin k false b) s fun t =>
        t.portState (2 * k) = psDown ∧ t.attState k = asDown ∧ ((s.att k).stuck = false → t.flag (attReg k) 2 = true) ∧
        (t.att k).openCmd = false ∧ t.flag 0x502000 k = false ∧ t.tiles = s.tiles) ∧
    ((s.att k).window = true → Completes (.joinWindowExpiry k) s fun t =>
      t.portState (2 * k) = psDark ∧ t.portState (2 * k + 1) = psDark ∧ ((s.att k).stuck = false → t.flag (attReg k) 2 = true) ∧
      t.att k = { s.att k with openCmd := false, window := false, retry := s.boot.state == .starting } ∧
      t.attState k = if s.boot.state = .starting then s.attState k else asDown) ∧
    ((s.att k).retry = true → s.startStep = 6 → Completes (.joinRetryTimer k) s fun t =>
      t.portState (2 * k) = psJoin ∧ t.portState (2 * k + 1) = psJoin ∧ t.attState k = asJoin ∧
      t.att k = { s.att k with openCmd := true, window := true, retry := false }) ∧
    (s.attUsed k = true → Completes (.bypassSettleTimeout k) s fun t =>
      t.portState (2 * k) = psDown ∧ t.portState (2 * k + 1) = psDown ∧ t.attState k = asDown ∧
      t.flag (attReg k) 2 = (s.att k).openCmd ∧ ((∀ h ∈ s.lnk.held, h.pair = false) → t.fld 0x700040 0 8 = 0xA5) ∧
      t.att k = { s.att k with openCmd := false, window := false, retry := false, stuck := true }) ∧
    (∀ p, p < 18 → s.portState p = psUp ∨ s.portState p = psJoin → Completes (.identSend p) s fun t =>
      t = { s with outbox := s.outbox ++ [.ident p (s.identOf p)] }) ∧
    (∀ x g, s.cat ≠ none → (s.att k).window = true → s.lanesOk (2 * k) = true → s.checkIdent (2 * k) x = .pass g →
      (if (s.port (2 * k + 1)).passed then
        Completes (.identReceive (2 * k) x) s fun t =>
          t.attState k = asUp ∧ t.portState (2 * k) = psUp ∧ t.portState (2 * k + 1) = (if s.lanesOk (2 * k + 1) then psUp else psDown) ∧
          t.fld (portReg (2 * k) + 4) 0 6 = x.moduleId % 64 ∧ (t.att k).window = false ∧ t.flag 0x502000 k = false ∧ t.tiles = s.tiles
      else
        Completes (.identReceive (2 * k) x) s fun t =>
          (t.port (2 * k)).passed = true ∧ (t.port (2 * k)).partner = some x ∧ t.attState k = s.attState k ∧ t.att k = s.att k ∧ t.tiles = s.tiles)) ∧
    (s.startStep = 6 → Completes .linkTrainingTimeout s fun t =>
      (s.anyAttUp = true → t.attState k = if s.attUsed k = true ∧ s.attState k = asJoin then asDown else s.attState k) ∧
      (s.anyAttUp = false → t.boot.state = .halted ∧ t.fld 0x120 8 8 = hrLinkNone))

/-- Link failures and the link layer. -/
def Obligations.PortsLoseRetrainAndResend : Prop :=
  ∀ s : State, s.tidy = true →
    (∀ p : Fin 18, s.portState p = psUp → Completes (.portPartnerLoss p) s fun t =>
      t.portState p = psRetrain ∧ t.word (portReg p + 0x18) = satAdd32 (s.word (portReg p + 0x18)) 1 ∧
      ((∀ h ∈ s.lnk.held, h.pair = false) → t.fld 0x700040 0 8 = 0xA1) ∧
      (t.port p).passed = false ∧ t.tiles = s.tiles) ∧
    (∀ (p : Fin 18) x g, s.portState p = psRetrain → s.checkIdent p x = .pass g → Completes (.portRetrainComplete p x) s fun t =>
      t.portState p = (if s.lanesOk p then psUp else psDown) ∧ t.fld (portReg p + 4) 0 6 = x.moduleId % 64 ∧ (t.port p).partner = some x ∧ t.tiles = s.tiles) ∧
    (∀ k : Fin 8, s.attState k = asUp → s.portState (2 * k) ≠ psUp ∨ s.portState (2 * k + 1) ≠ psUp →
      Completes (.attachmentDown k) s fun t =>
        t.attState k = asDown ∧ t.portState (2 * k) = psDown ∧ t.portState (2 * k + 1) = psDown ∧
        ((s.att k).stuck = false → t.flag (attReg k) 2 = true) ∧ (t.att k).openCmd = false ∧
        ((∀ h ∈ s.lnk.held, h.pair = false) → t.fld 0x700040 0 8 = 0xA2) ∧ t.tiles = s.tiles) ∧
    (∀ mask, s.serves = true → Completes (.lnkRetry mask) s fun t => ∀ k : Fin 8,
      if bitOf mask k = true ∧ s.attUsed k = true ∧ s.attState k = asDown ∧ (s.att k).stuck = false
      then t.attState k = asJoin ∧ t.flag 0x502000 k = true
      else t.attState k = s.attState k ∧ t.flag 0x502000 k = s.flag 0x502000 k) ∧
    (∀ (p : Fin 18) (lane : Fin 5), (s.port p).lanes = List.replicate 5 true → s.portState p = psUp →
      Completes (.laneFail p lane false) s (fun t =>
        t.portState p = psUp ∧ t.fld (portReg p) 3 3 = 4 ∧ t.flag (portReg p) 6 = decide (lane.val < 4) ∧
        t.acc.swaps = s.acc.swaps ++ [s.laneSwap p lane 3] ∧ t.fld 0x700040 0 8 = 0xA0 ∧ t.tiles = s.tiles) ∧
      Completes (.laneFail p lane true) s fun t => t = { s with acc := { s.acc with due := s.acc.due ++ [s.laneSwap p lane 1] } }) ∧
    (∀ (p : Fin 18) (bytes : List Byte), s.portState p = psUp → bytes.length = 512 → (s.port p).expect < 4096 →
      (crc32c (bytes.take 508) = fieldAt bytes 508 4 → fieldAt bytes 0 2 = (s.port p).expect →
        Completes (.linkBlockReceive p bytes) s fun t =>
          (t.port p).expect = ((s.port p).expect + 1) % 4096 ∧ (t.port p).gapSeen = false ∧
          t.lnk.arrived = s.lnk.arrived ++ (parsePackets 21 ((bytes.drop 12).take 496)).map (fun x => { port := p, seq := (s.port p).expect, pkt := x }) ∧
          t.tiles = s.tiles) ∧
      (crc32c (bytes.take 508) ≠ fieldAt bytes 508 4 → Completes (.linkBlockReceive p bytes) s fun t =>
          t.word (portReg p + 8) = satAdd32 (s.word (portReg p + 8)) 1 ∧ t.lnk.arrived = s.lnk.arrived ∧ (t.port p).gapSeen = true ∧
          (t.port p).expect = (s.port p).expect ∧ t.tiles = s.tiles)) ∧
    (∀ p : Fin 18, s.portState p = psUp → (s.port p).held ≠ [] → Completes (.linkResendTimeout p) s fun t =>
      t.word (portReg p + 0xC) = satAdd32 (s.word (portReg p + 0xC)) (s.port p).held.length ∧
      (if (s.port p).resends + 1 < 16 then
        t.outbox = s.outbox ++ (s.port p).held.zipIdx.map (fun ((q, x), i) => .block p
          (linkBlock 0 q (s.port p).expect (i == 0 && (s.port p).nak) ((s.port p).freed.map fun n => min 255 (n - 255 * i)) x.bytes) x.ctl.toList) ∧
        t.portState p = psUp
      else t.portState p = psRetrain))

/-- Packets that reach this module. -/
def Obligations.PacketsAreTakenOnceAndAcknowledged : Prop :=
  ∀ s : State, s.tidy = true →
    (∀ p : Packet, p.dst ≠ s.moduleId →
      Completes (.packetWrite p) s fun t => t.ctrs = s.ctrs ∧ t.hbm = s.hbm ∧ t.tiles = s.tiles ∧ t.regs = s.regs) ∧
    (∀ (p : Packet) q, p.dst ≠ s.moduleId → p.vc < 4 →
      (match s.lnk.arrived.find? (fun a => a.pkt == { p with kind := .write, ctl := none }) with
        | some a => if a.port < 16 then some (if a.port % 2 = 0 then a.port + 1 else a.port - 1) else none
        | none => s.route p.dst p.vc none) = some q →
      s.portState q = psUp → (s.port q).queue = [] → (∀ h ∈ s.lnk.held, h.port = q → h.sent = true) → (s.port q).held.length < 1024 →
      (∀ c, s.cat = some c → p.vc = 0 ∨ 0 < c.vcw.getD p.vc 1) →
      let cls := if p.cls = 1 ∨ (s.attRec (q / 2)).position = 0 ∨ s.crosses q = true then 1 else 0
      (s.port q).room p.vc cls = true →
      Completes (.packetWrite p) s fun t => t.outbox = s.outbox ++ [.block q
        (linkBlock 0 (s.port q).sendSeq (s.port q).expect (s.port q).nak ((s.port q).freed.map (min 255))
          ({ p with kind := .write, cls := cls } : Packet).bytes) p.ctl.toList]) ∧
    (∀ p : Packet, p.dst = s.moduleId → s.cat ≠ none → p.vc = 0 → p.tag < 2 ^ 16 → s.expected p.src < 2 ^ 16 →
      (p.tag = s.expected p.src → (∀ q ∈ s.lnk.early, q.src ≠ p.src) → p.tenant < 16 → s.tState p.tenant ≠ tsDisabled →
        Completes (.packetSignal p) s fun t =>
          t.ctr p.tenant (p.addr % 4096) 2 =
            (if p.addr / 2 ^ 16 % 2 = 0 then leNat (p.payload.take 8) else s.ctr p.tenant (p.addr % 4096) 2 + leNat (p.payload.take 8)) % 2 ^ 64 ∧
          (∀ k, k ≠ ctrKey p.tenant (p.addr % 4096) 2 → nget t.ctrs k = nget s.ctrs k) ∧ t.expected p.src = (p.tag + 1) % 2 ^ 16 ∧
          t.hbm = s.hbm ∧ t.tiles = s.tiles ∧ t.regs = s.regs) ∧
      ((p.tag + 2 ^ 16 - s.expected p.src) % 2 ^ 16 ≠ 0 → (p.tag + 2 ^ 16 - s.expected p.src) % 2 ^ 16 < 2 ^ 15 →
        (∀ q ∈ s.lnk.early, q.src = p.src → q.tag ≠ p.tag ∧ q.tag ≠ s.expected p.src) →
        Completes (.packetSignal p) s fun t =>
          t.ctrs = s.ctrs ∧ t.lnk.early = s.lnk.early ++ [{ p with kind := .signal }] ∧ t.expected p.src = s.expected p.src ∧ t.regs = s.regs) ∧
      (2 ^ 15 ≤ (p.tag + 2 ^ 16 - s.expected p.src) % 2 ^ 16 → Completes (.packetSignal p) s fun t =>
        t.ctrs = s.ctrs ∧ t.word 0x502204 = satAdd32 (s.word 0x502204) 1 ∧ t.hbm = s.hbm ∧ t.tiles = s.tiles)) ∧
    (∀ p : Packet, p.dst = s.moduleId → s.cat ≠ none → p.vc ≠ 0 → s.seen p = true → Completes (.packetWrite p) s fun t =>
      t.ctrs = s.ctrs ∧ t.word 0x502204 = satAdd32 (s.word 0x502204) 1 ∧ t.hbm = s.hbm ∧ t.tiles = s.tiles) ∧
    (∀ p : Packet, p.dst = s.moduleId → s.cat ≠ none → p.vc ≠ 0 → s.seen p = false → p.ctl = none →
      (p.space = 4 → p.cntEn = true → p.cnt < 4096 → s.remoteOk p = true → p.payload.length ≤ 256 → nwf (s.tile (p.addr / 2 ^ 23 % 128)).mem = true →
        Completes (.packetWrite p) s fun t =>
          (t.tile (p.addr / 2 ^ 23 % 128)).read (p.addr % 2 ^ 23) p.payload.length = p.payload ∧
          (∀ a, a < p.addr % 2 ^ 23 ∨ p.addr % 2 ^ 23 + p.payload.length ≤ a →
            nget (t.tile (p.addr / 2 ^ 23 % 128)).mem a = nget (s.tile (p.addr / 2 ^ 23 % 128)).mem a) ∧
          (∀ m, m ≠ p.addr / 2 ^ 23 % 128 → t.tile m = s.tile m) ∧
          t.ctr p.tenant p.cnt 0 = (s.ctr p.tenant p.cnt 0 + p.payload.length) % 2 ^ 64 ∧
          t.ctr p.tenant p.cnt 1 = (s.ctr p.tenant p.cnt 1 + 1) % 2 ^ 64 ∧ t.hbm = s.hbm ∧ t.regs = s.regs) ∧
      (s.remoteOk p = false → s.wsetHit p = false → Completes (.packetWrite p) s fun t =>
        t.lnk.refused = s.lnk.refused + 1 ∧ t.ctrs = s.ctrs ∧ t.hbm = s.hbm ∧ t.tiles = s.tiles ∧ t.regs = s.regs)) ∧
    (∀ p : Packet, p.dst = s.moduleId → s.cat ≠ none → p.vc = 0 → p.tag = s.expected p.src → p.tag < 2 ^ 16 →
      (∀ q ∈ s.lnk.early, q.src ≠ p.src) → p.ctl = some .heartbeat → p.src = twinOf s.moduleId →
      Completes (.packetControl p) s fun t =>
        t.lnk.beat = true ∧ t.expected p.src = (p.tag + 1) % 2 ^ 16 ∧ t.ctrs = s.ctrs ∧ t.hbm = s.hbm ∧ t.tiles = s.tiles) ∧
    (∀ p : Packet, p.tenant < 16 → (s.part p.tenant).isSome = true → s.tState p.tenant = tsActive →
      Completes (.remoteWriteRefused p) s fun t =>
        t.tState p.tenant = tsFrozen ∧ t.fld (tnt p.tenant 0x100) 8 8 = 0x75 ∧ t.tiles = s.tiles) ∧
    (∀ (p : Packet) vc, p.dst = s.moduleId → s.cat ≠ none →
      (∀ h ∈ s.lnk.held, h.pkt.dst = p.src → h.pkt.vc = vc → h.pkt.tag ∈ p.tags → h.waiter = .free) →
      Completes (.packetAck p vc) s fun t =>
        (∃ more, t.lnk.held.map (·.pkt) =
          (s.lnk.held.filter fun h => !(h.pkt.dst == p.src && h.pkt.vc == vc && p.tags.contains h.pkt.tag)).map (·.pkt) ++ more ∧
          (s.lnk.later = [] → more = [])) ∧ t.ctrs = s.ctrs ∧ t.tiles = s.tiles)

/-- Resends, losses, and the serving table. -/
def Obligations.HeldPacketsResentAndServingTable : Prop :=
  ∀ s : State, s.tidy = true →
    (∀ (h : HeldPkt) q, s.lnk.held.find? (fun x => x.is h.pkt.dst h.pkt.vc h.pkt.tag) = some h → h.port < 16 →
      s.route h.pkt.dst h.pkt.vc (if h.pkt.vc = 0 then none else some h.port) = some q →
      Completes (.e2eResendTimeout h.pkt.dst h.pkt.vc h.pkt.tag) s fun t =>
        (∃ x ∈ t.lnk.held, x.pkt = h.pkt ∧ x.port = q ∧ x.waiter = h.waiter) ∧
        t.word 0x502200 = satAdd32 (s.word 0x502200) (s.lnk.held.filter fun x =>
          (x == h || (h.pkt.vc == 0 && x.pkt.vc == 0 && x.pkt.dst == h.pkt.dst && x.port == h.port)) && x.sent).length ∧
        t.lnk.held.map (·.pkt) = s.lnk.held.map (·.pkt) ∧ t.ctrs = s.ctrs ∧ t.tiles = s.tiles) ∧
    (∀ h : HeldPkt, s.lnk.held.find? (fun x => x.is h.pkt.dst h.pkt.vc h.pkt.tag) = some h → h.port < 16 →
      s.paths h.pkt.dst = [] → h.waiter = .free → h.pair = false → s.lnk.later = [] →
      (∀ x ∈ s.lnk.lost, x.is h.pkt.dst h.pkt.vc h.pkt.tag = false) →
      Completes (.e2eResendTimeout h.pkt.dst h.pkt.vc h.pkt.tag) s fun t =>
        h ∉ t.lnk.held ∧ t.lnk.lost = s.lnk.lost ∧ t.word 0x502208 = satAdd32 (s.word 0x502208) 1 ∧ t.outbox = s.outbox ∧ t.tiles = s.tiles) ∧
    (∀ pair who, pair < 32 → pair ≠ s.moduleId / 2 → Completes (.servingAnnouncement pair who) s fun t =>
      (∀ q, q < 32 → t.quad 0x502100 / 4 ^ q % 4 = if q = pair then who % 4 else s.quad 0x502100 / 4 ^ q % 4) ∧
      (∀ a, a ≠ 0x502100 → a ≠ 0x502104 → t.word a = s.word a) ∧ t.pair = s.pair) ∧
    (∀ src q, s.isMaster = true → s.serves = true → s.route src 0 none = some q → Completes (.servingTableRequest src) s fun t =>
      (∃ h ∈ t.lnk.held, h.pkt.dst = src ∧ h.pkt.ctl = some (.table ((List.range 32).map fun p => s.quad 0x502100 / 4 ^ p % 4)) ∧ h.pkt.src = s.moduleId) ∧
      t.regs = s.regs ∧ t.tiles = s.tiles)

/-- Command `ref` of tenant `c` is `x`, its turn has come, and its header passes (R381 to R384). -/
def Sys2Proof.Machine.InTurn (s : State) (c : Nat) (ref : CmdRef) (x : RCmd) (p : Partition) : Prop :=
  s.tidy = true ∧ c < 16 ∧ s.cmd c ref = some x ∧ s.part c = some p ∧ s.turn c ref x = true ∧ headCheck p x = none ∧
    ∀ n i, ref = .item n i → i < 256

/-- The end of the command itself sends no signal: it stands in a ring, which signals when it reports, or it asks for none (R386, R403). -/
def Sys2Proof.Machine.Quiet (ref : CmdRef) (x : RCmd) : Prop := (∃ r csn, ref = .ring r csn) ∨ x.sig = false

/-- A command of a ring has ended. -/
def Sys2Proof.Machine.Ended (t : State) (c : Nat) (ref : CmdRef) : Prop :=
  ∀ r csn, ref = .ring r csn → ((t.cmd c ref).map fun y => y.st) = some .done

/-- The commands that begin a collective, with their OP (R349). -/
def Sys2Proof.Machine.collRows : List ((Nat → CmdRef → Instr) × Nat) :=
  [(.collAllreduce, 2), (.collReduceScatter, 3), (.collAllgather, 4), (.collAlltoall, 5), (.collAlltoallv, 6), (.collBarrier, 7)]

/-- Groups. -/
def Obligations.GroupsBindAndUnbind : Prop :=
  ∀ (s : State) (c : Nat) (ref : CmdRef) (x : RCmd) (p : Partition), InTurn s c ref x p → x.op = 0x0A → s.collCheck c p x = none →
    let g := (collArgs x.bytes).group
    (fieldAt x.bytes 0x10 1 = 0 → s.grpState c g = gsUnbound → ∀ d bad, s.taRead c (collArgs x.bytes).tbl 80 = some (d, bad) →
      Completes (.collBind c ref) s fun t =>
        t.grpState c g = gsBound ∧ t.cseq c g = 0 ∧ t.fld (colGrp c g) 8 8 = fieldAt d 0 1 ∧ t.fld (colGrp c g) 16 8 = fieldAt d 1 1 ∧
        t.grp c g = some { n := fieldAt d 0 1, rank := fieldAt d 1 1, ents := (List.range (fieldAt d 0 1)).map (fun i => fieldAt d (16 + i) 1),
                           digest := groupDigest d } ∧
        (∀ k, k ≠ 16 * c + g → aget t.coll.groups k = aget s.coll.groups k) ∧ t.coll.runs = s.coll.runs ∧ t.lrd = s.lrd ∧ Ended t c ref) ∧
    (fieldAt x.bytes 0x10 1 = 0 → s.grpState c g ≠ gsUnbound → Completes (.collBind c ref) s fun t => t.coll = s.coll ∧ Ended t c ref) ∧
    (fieldAt x.bytes 0x10 1 = 1 → s.grp c g ≠ none → (∀ r ∈ s.coll.runs, ¬(r.tenant = c ∧ r.group = g)) →
      Completes (.collUnbind c ref) s fun t =>
        t.grpState c g = gsUnbound ∧ t.cseq c g = 0 ∧ t.grp c g = none ∧ t.coll.runs = s.coll.runs ∧ Ended t c ref) ∧
    (fieldAt x.bytes 0x10 1 = 1 → s.grp c g ≠ none → (∃ r ∈ s.coll.runs, r.tenant = c ∧ r.group = g) → Completes (.collUnbind c ref) s fun t => t = s) ∧
    (fieldAt x.bytes 0x10 1 = 1 → s.grp c g = none → Completes (.collUnbind c ref) s fun t => t.coll = s.coll ∧ Ended t c ref)

/-- Collectives begin. -/
def Obligations.CollectivesBegin : Prop :=
  ∀ row ∈ collRows, ∀ (s : State) (c : Nat) (ref : CmdRef) (x : RCmd) (p : Partition),
    InTurn s c ref x p → x.op = 0x0A → fieldAt x.bytes 0x10 1 = row.2 → s.collCheck c p x = none →
    let a := collArgs x.bytes
    let q := s.cseq c a.group
    (∀ g : Grp, s.grp c a.group = some g → s.grpState c a.group = gsBound → (s.flying c).length < 8 → (row.2 ≤ 3 → 2 ^ 25 ≤ p.stageSize) →
      s.run c a.group q = none → (∀ k ∈ s.coll.toks, ¬(k.tenant = c ∧ k.group = a.group ∧ k.cseq = q)) →
      (∀ e ∈ g.ents.zipIdx, e.2 ≠ g.rank → (s.resolveEntry c e.1).isSome = true) →
      Completes (row.1 c ref) s fun t =>
        (∃ k, t.run c a.group q = some k ∧ k.op = a.op ∧ k.red = a.red ∧ k.fin = a.fin ∧ k.fout = a.fout ∧ k.count = a.count ∧ k.src = a.src ∧
          k.dst = a.dst ∧ k.ref = ref ∧ k.n = g.n ∧ k.rank = g.rank ∧ k.digest = g.digest ∧ (row.2 ≤ 3 → k.segs = [] ∧ k.next = 0) ∧
          k.mods = g.ents.zipIdx.map (fun (e, j) => if j = g.rank then s.moduleId else (s.resolveEntry c e).getD s.moduleId)) ∧
        t.cseq c a.group = (q + 1) % 2 ^ 32 ∧ t.grpState c a.group = gsBound ∧
        t.fld (colTnt c 0x14) 0 4 = (s.flying c).length + 1 ∧ t.coll.runs.length = s.coll.runs.length + 1) ∧
    (s.grp c a.group = none → Completes (row.1 c ref) s fun t => t.coll = s.coll ∧ Ended t c ref) ∧
    (s.grp c a.group ≠ none → (s.flying c).length < 8 → s.grpState c a.group = gsBroken →
      Completes (row.1 c ref) s fun t => t.coll = s.coll ∧ t.cseq c a.group = (q + 1) % 2 ^ 32 ∧ Ended t c ref)

/-- Segments, tokens and ends. -/
def Obligations.CollectiveSegmentsTokensAndEnds : Prop :=
  ∀ (s : State) (c g q : Nat), s.tidy = true → c < 16 → g < 16 →
    (∀ k : Coll, s.run c g q = some k → k.reduces = true → k.next ≠ k.segments → (k.segs.filter fun sg => !k.segDone sg).length < 4 →
      Completes (.collSegmentStart c g q) s (fun t =>
        (∃ k', t.run c g q = some k' ∧ k'.next = k.next + 1) ∧ t.word (colTnt c 4) = satAdd32 (s.word (colTnt c 4)) 1) ∧
      (k.segs = [] → k.toks = [] → 2 ≤ k.n → Completes (.collSegmentStart c g q) s fun t =>
        t.coll.slots = s.coll.slots ++ (match s.claimSlots (((s.part c).map (·.spMask)).getD 0) with | some (a, b) => [a, b] | none => []) ∧
        ((s.claimSlots (((s.part c).map (·.spMask)).getD 0)) = none → t.word (colTnt c 8) = satAdd32 (s.word (colTnt c 8)) 1) ∧
        ∃ k', t.run c g q = some k' ∧ k'.segs.map (fun sg => (sg.t, sg.pos, sg.slots, sg.step)) =
          [(k.next, 0, s.claimSlots (((s.part c).map (·.spMask)).getD 0), 0)])) ∧
    (∀ k : CollTok, k.tenant = c → k.group = g → k.cseq = q →
      (s.run c g q = none → s.grpState c g = gsUnbound ∨ seqGe q (s.cseq c g) = true →
        Completes (.collTokenReceive k) s fun t => t = { s with coll := { s.coll with toks := s.coll.toks ++ [k] } }) ∧
      (∀ r : Coll, s.run c g q = some r → r.differs k = false → Completes (.collTokenReceive k) s fun t =>
        ∃ r', t.run c g q = some r' ∧ r'.toks = r.toks ++ [k] ∧ r'.op = r.op ∧ r'.mods = r.mods) ∧
      (∀ r : Coll, s.run c g q = some r → r.differs k = true → Completes (.collTokenReceive k) s fun t =>
        t.run c g q = none ∧ t.grpState c g = gsBroken ∧ t.word (colTnt c 0x10) = satAdd32 (s.word (colTnt c 0x10)) 1)) ∧
    (s.grpState c g ≠ gsUnbound → (s.run c g q).isSome = true ∨ seqGe q (s.cseq c g) = true → Completes (.collAbortReceive c g q) s fun t =>
      t.grpState c g = gsBroken ∧ ∀ k ∈ t.coll.runs, ¬(k.tenant = c ∧ k.group = g ∧ seqGe k.cseq q = true)) ∧
    (∀ (k : Coll) n, s.run c g q = some k →
      (k.finished = true → (∀ h ∈ s.unackedPkts, h.waiter ≠ .coll c g q) → k.excess = false → k.op ≠ 6 →
        Completes (.collComplete c g q n false) s fun t =>
          t.run c g q = none ∧ t.word (colTnt c 0) = satAdd32 (s.word (colTnt c 0)) 1 ∧ t.grpState c g = s.grpState c g ∧
          (∀ sg ∈ k.segs, ∀ a b, sg.slots = some (a, b) → a ∉ t.coll.slots ∧ b ∉ t.coll.slots) ∧
          (k.reduces = true → k.red = 0 → t.word (colTnt c 0xC) = satAdd32 (s.word (colTnt c 0xC)) n)) ∧
      (k.reduces = true → k.red = 0 → Completes (.collComplete c g q n true) s fun t => t.run c g q = none ∧ t.grpState c g = gsBroken))

/-- A command of a ring has dispatched and runs. -/
def Sys2Proof.Machine.Running (t : State) (c : Nat) (ref : CmdRef) : Prop :=
  ∀ r csn, ref = .ring r csn → ((t.cmd c ref).map fun y => y.st) = some .running

/-- The commands that run one instruction, with the opcodes of the instructions they take (R387). -/
def Sys2Proof.Machine.insnRows : List ((Nat → CmdRef → Instr) × Nat × List Nat) :=
  [(.cmdMatmul, 1, [0x10, 0x11]), (.cmdAttn, 2, [0x60, 0x61]), (.cmdQstat, 4, [0x50]), (.cmdQconv, 5, [0x51]), (.cmdCodec, 9, [0x78, 0x79, 0x7A, 0x7B])]

/-- Rings. -/
def Obligations.RingsDoorbellsAndFetch : Prop :=
  ∀ (s : State) (c : Fin 16) (r : Fin 8), s.tidy = true → s.serves = true →
    (∀ p : Partition, s.part c = some p → r.val < p.rings → s.ringOn c r = false → (s.ringSt c r).cmds = [] → Completes (.ringEnable c r) s fun t =>
      t.ringOn c r = true ∧ t.fld (rng c r 0x24) 0 16 = 0 ∧ (t.ringSt c r).cmds = [] ∧ (t.ringSt c r).head = 0 ∧
      t.ringState c r = (if s.active c then 1 else 2) ∧ ∀ (d : Fin 16) (q : Fin 8), (d, q) ≠ (c, r) → t.ringSt d q = s.ringSt d q) ∧
    Completes (.ringDisable c r) s (fun t =>
      t.ringOn c r = false ∧ t.front = s.front ∧ t.ringState c r = if (s.ringSt c r).cmds = [] then 0 else s.ringState c r) ∧
    (∀ tail, s.tState c ≠ tsDisabled → s.tState c ≠ tsResetting → s.ringOn c r = true →
      (if (tail % 2 ^ 16 + 2 ^ 16 - (s.ringSt c r).head) % 2 ^ 16 ≤ s.ringSize c r then
        Completes (.doorbell c r tail) s fun t =>
          t.fld (rng c r 0x24) 0 16 = tail % 2 ^ 16 ∧ t = { s with regs := t.regs } ∧ ∀ a, a ≠ rng c r 0x24 → t.word a = s.word a
      else s.tState c = tsActive → Completes (.doorbell c r tail) s fun t =>
          t.tState c = tsFrozen ∧ t.fld (tnt c 0x100) 8 8 = 0xC4 ∧ t.fld (rng c r 0x24) 0 16 = s.fld (rng c r 0x24) 0 16 ∧ t.tiles = s.tiles)) ∧
    (∀ tail, s.tState c ≠ tsResetting → s.ringOn c r = false → Completes (.doorbell c r tail) s fun t =>
      t.word (tnt c 0xC) = satAdd32 (s.word (tnt c 0xC)) 1 ∧ t = { s with regs := t.regs } ∧ ∀ a, a ≠ tnt c 0xC → t.word a = s.word a) ∧
    (s.fetchRoom c r ≠ 0 →
      (∀ ds : List (List Byte), s.vfReach c = true → Completes (.commandFetch c r (some ds)) s fun t =>
        ((s.ringSt c r).skip = [] →
          (t.ringSt c r).cmds.map (fun x => (x.csn, x.bytes, x.st)) = (s.ringSt c r).cmds.map (fun x => (x.csn, x.bytes, x.st)) ++
            (ds.take (s.fetchRoom c r)).zipIdx.map (fun (b, i) => (((s.ringSt c r).nextCsn + i) % 2 ^ 32, (b ++ leBytes 64 0).take 64, CmdSt.held))) ∧
        (∀ x ∈ (t.ringSt c r).cmds, x ∈ (s.ringSt c r).cmds ∨ x.st = .held ∧ x.csn ∉ (s.ringSt c r).skip) ∧
        (t.ringSt c r).nextCsn = ((s.ringSt c r).nextCsn + min (s.fetchRoom c r) ds.length) % 2 ^ 32 ∧ t.regs = s.regs ∧ t.hbm = s.hbm ∧
        ∀ (d : Fin 16) (q : Fin 8), (d, q) ≠ (c, r) → t.ringSt d q = s.ringSt d q) ∧
      Completes (.commandFetch c r none) s fun t => t.ringState c r = 4 ∧ t.tState c = tsFrozen ∧ t.fld (tnt c 0x100) 8 8 = 0xC7 ∧ t.tiles = s.tiles) ∧
    (∀ p : Partition, s.part c = some p → r.val < p.rings → s.ringOn c r = false → (s.ringSt c r).cmds ≠ [] → Completes (.ringEnable c r) s fun t =>
      t.ringOn c r = true ∧ t.fld (rng c r 0x24) 0 16 = 0 ∧ (t.ringSt c r).cmds = (s.ringSt c r).cmds ∧ (t.ringSt c r).head = 0 ∧
      (t.ringSt c r).doneCsn = 0 ∧ t.fetchRoom c r = 0 ∧ ∀ (d : Fin 16) (q : Fin 8), (d, q) ≠ (c, r) → t.ringSt d q = s.ringSt d q)

/-- Reports and timeouts. -/
def Obligations.CommandsReportAndTimeOut : Prop :=
  ∀ (s : State) (c : Fin 16) (r : Fin 8) (csn : Nat) (x : RCmd), s.tidy = true → s.cmd c (.ring r csn) = some x →
    (x.st = .done → x.told = false → s.inUnit c x.unit = false →
      (s.active c = true → s.logLen c = 0 → s.vfReach c = true → Completes (.commandReport c r csn true) s fun t =>
        t.cmd c (.ring r csn) = none ∧ (x.rec_ = true → Out.host (.vf c) (s.recordAddr c r csn) (recordBytes c r x false) ∈ t.outbox) ∧
        (x.int = true → (s.fnState (.vf c)).masked r = false → Out.intr (.vf c) r ∈ t.outbox) ∧ t.tiles = s.tiles ∧ t.lrd = s.lrd) ∧
      (s.active c = false → x.sig = false → x.rec_ = true → s.logLen c < 64 → ∀ ok, Completes (.commandReport c r csn ok) s fun t =>
        t.cmd c (.ring r csn) = none ∧
        (t.front.logs[c]?).getD [] = (s.front.logs[c]?).getD [] ++ [logEntry 1 r 1 (s.recordAddr c r csn) (recordBytes c r x true)]) ∧
      (s.active c = false → x.sig = false → x.rec_ = true → 64 ≤ s.logLen c → ∀ ok, Completes (.commandReport c r csn ok) s fun t => t = s)) ∧
    (s.active c = true → s.inRecovery = false → s.fld (rng c r 0x2C) 0 16 ≤ (s.ringSt c r).timer →
      (s.ringSt c r).cmds.find? (fun y => y.st != .done) = some x → x.csn = csn → x.inFront = true →
      x.st = .held ∨ (x.op ≠ 0x0A ∧ x.op ≠ 0x1A ∧ x.op ≠ 0x1B) →
      ∀ progress, Completes (.ringTimeout c r progress) s fun t =>
        ((t.cmd c (.ring r csn)).map fun y => (y.st, y.status)) = some (CmdSt.done, 8) ∧ t.tState c = tsFrozen ∧ t.fld (tnt c 0x100) 8 8 = 0x02 ∧
        t.tiles = s.tiles)

/-- Commands that the front end carries out itself. -/
def Obligations.FrontEndCommandsComplete : Prop :=
  ∀ (s : State) (c : Nat) (ref : CmdRef) (x : RCmd) (p : Partition),
    (InTurn s c ref x p →
      (x.op = 0 → zeros x.bytes 0x10 0x40 = true → Quiet ref x → Completes (.cmdNop c ref) s fun t =>
        t.regs = s.regs ∧ t.ctrs = s.ctrs ∧ t.hbm = s.hbm ∧ t.outbox = s.outbox ∧ Ended t c ref) ∧
      (x.op = 0x20 → zeros x.bytes 0x30 0x40 = true → sigEntryOk ((x.bytes.drop 16).take 32) = true → x.told = false →
        s.inUnit c (s.unitFor c ref) = false → Quiet ref x →
        let e := sigResolve ((x.bytes.drop 16).take 32) x.csn
        (sigKind e = 1 → fieldAt e 5 1 = 3 → Completes (.cmdSignal c ref) s fun t =>
          t.ctr c (fieldAt e 2 2) 2 = (if fieldAt e 1 1 % 2 = 0 then fieldAt e 0x10 8 else s.ctr c (fieldAt e 2 2) 2 + fieldAt e 0x10 8) % 2 ^ 64 ∧
          (∀ k, k ≠ ctrKey c (fieldAt e 2 2) 2 → nget t.ctrs k = nget s.ctrs k) ∧ t.hbm = s.hbm ∧ t.regs = s.regs ∧ Ended t c ref) ∧
        (sigKind e = 1 → ∀ d q, fieldAt e 5 1 ≠ 3 → s.resolve (fieldAt e 4 1) (fieldAt e 5 1) = some d → d ≠ s.moduleId → s.route d 0 none = some q →
          Completes (.cmdSignal c ref) s fun t =>
            (∃ h ∈ t.lnk.held, h.pkt.kind = .signal ∧ h.pkt.dst = d ∧ h.pkt.tenant = c ∧ h.pkt.payload = leBytes 8 (fieldAt e 0x10 8) ∧
              h.pkt.addr = fieldAt e 2 2 + fieldAt e 1 1 % 2 * 2 ^ 16 ∧ h.waiter = .signal c ref) ∧ t.ctrs = s.ctrs ∧ t.hbm = s.hbm ∧ Running t c ref) ∧
        (sigKind e = 2 → s.vfReach c = true → Completes (.cmdSignal c ref) s fun t =>
          t.outbox = s.outbox ++ [.host (.vf c) (fieldAt e 8 8) (leBytes 8 (fieldAt e 0x10 8))] ∧ t.ctrs = s.ctrs ∧ t.hbm = s.hbm ∧ Ended t c ref)) ∧
      (x.op = 0x21 → zeros x.bytes 0x13 0x18 = true → zeros x.bytes 0x20 0x40 = true → fieldAt x.bytes 0x10 2 < 4096 → fieldAt x.bytes 0x12 1 < 3 →
        (if fieldAt x.bytes 0x18 8 ≤ s.ctr c (fieldAt x.bytes 0x10 2) (fieldAt x.bytes 0x12 1) then
          Completes (.cmdWait c ref) s fun t => (∀ l, l ∈ t.drc ↔ l ∈ s.drc ∧ l.tenant ≠ c) ∧
            (Quiet ref x → t.hbm = s.hbm ∧ t.ctrs = s.ctrs) ∧ Ended t c ref
        else Completes (.cmdWait c ref) s fun t => t.drc = s.drc ∧ t.ctrs = s.ctrs ∧ t.hbm = s.hbm ∧ Running t c ref)) ∧
      (x.op = 0x22 → fieldAt x.bytes 0x10 1 < 4 → zeros x.bytes 0x11 0x40 = true →
        (if s.earlierDone c ref then
          Completes (.cmdFence c ref) s fun t =>
            (∀ l, l ∈ t.drc ↔ l ∈ s.drc ∧ ¬(2 ≤ fieldAt x.bytes 0x10 1 ∧ l.tenant = c)) ∧
            (Quiet ref x → t.hbm = s.hbm ∧ t.ctrs = s.ctrs) ∧ Ended t c ref
        else Completes (.cmdFence c ref) s fun t => t = s))) ∧
    (s.cmd c ref = some x → (∀ n i, ref = .item n i → i < 256) → x.op = 0x21 → x.st = .running → s.active c = true →
      fieldAt x.bytes 0x18 8 ≤ s.ctr c (fieldAt x.bytes 0x10 2) (fieldAt x.bytes 0x12 1) →
      Completes (.waitSatisfied c ref) s fun t => (∀ l, l ∈ t.drc ↔ l ∈ s.drc ∧ l.tenant ≠ c) ∧
            (Quiet ref x → t.hbm = s.hbm ∧ t.ctrs = s.ctrs) ∧ Ended t c ref)

/-- Commands that run on a tile. -/
def Obligations.UnitCommandsTakeATile : Prop :=
  ∀ (s : State) (c : Nat) (ref : CmdRef) (x : RCmd) (p : Partition) (n : Nat), InTurn s c ref x p →
    (∀ row ∈ insnRows, x.op = row.2.1 → insnCheck (fun o => row.2.2.contains o) x = none → s.placeCmd c ref x = some n →
      Completes (row.1 c ref) s fun t =>
        t.tile n = { s.tile n with launch := some (newProg c ref x 0 64 [BitVec.ofNat 256 (fieldAt x.bytes 0x10 32), endWord]) } ∧
        (∀ m, m ≠ n → t.tile m = s.tile m) ∧ t.ctrs = s.ctrs ∧ t.lrd = s.lrd ∧ Running t c ref) ∧
    (let ta := fieldAt x.bytes 0x10 8
     let len := fieldAt x.bytes 0x18 4
     let poff := fieldAt x.bytes 0x1C 4
     x.op = 3 → zeros x.bytes 0x20 0x30 = true → zeros x.bytes 0x3E 0x40 = true → ta % 32 = 0 → len % 32 = 0 → 32 ≤ len → len ≤ 65536 →
      poff % 32 = 0 → inShare p.share poff len = true → s.feMapped c ta len = true → s.placeCmd c ref x = some n →
      Completes (.cmdVec c ref) s fun t =>
        (t.tile n).launch = some (newProg c ref x poff (poff + len) []) ∧
        (ta + len ≤ p.taSize → nwf (s.tile n).mem = true → ∀ i, i < len → nget (t.tile n).mem (poff + i) = nget s.hbm (groupAddr p.chgroups (ta + i))) ∧
        (nwf (s.tile n).mem = true → ∀ a, a < poff ∨ poff + len ≤ a → nget (t.tile n).mem a = nget (s.tile n).mem a) ∧
        (t.tile n).ve = (s.tile n).ve ∧ (∀ m, m ≠ n → t.tile m = s.tile m) ∧ t.ctrs = s.ctrs ∧ Running t c ref) ∧
    (x.op = 8 → zeros x.bytes 0x11 0x12 = true → zeros x.bytes 0x14 0x18 = true → zeros x.bytes 0x20 0x30 = true → zeros x.bytes 0x3E 0x40 = true →
      fieldAt x.bytes 0x10 1 < 8 → fieldAt x.bytes 0x12 2 < 768 → fieldAt x.bytes 0x12 2 + 1 ≤ p.xreq →
      fieldAt x.bytes 0x18 8 < 2 ^ 40 → fieldAt x.bytes 0x18 8 % 64 = 0 → s.placeXfer c ref x = some n →
      Completes (.cmdXfer c ref) s fun t =>
        (∃ k, t.chan n (8 * c + fieldAt x.bytes 0x10 1) = some k ∧ k.tenant = c ∧ k.next = fieldAt x.bytes 0x18 8 ∧
          k.maxOut = fieldAt x.bytes 0x12 2 + 1 ∧ k.rd = (p.share.lo, p.share.hi - p.share.lo) ∧ k.wr = k.rd ∧ k.fetched = [] ∧ k.active = [] ∧
          k.seed = BitVec.ofNat 64 x.seed ∧ k.step = x.step ∧ k.owner = ref) ∧
        (t.tile n).mem = (s.tile n).mem ∧ (t.tile n).ve = (s.tile n).ve ∧ (∀ m, m ≠ n → t.tile m = s.tile m) ∧ t.ctrs = s.ctrs ∧ Running t c ref)

/-- Recipes. -/
def Obligations.RecipesLoadPatchAndLaunch : Prop :=
  ∀ (s : State) (c : Nat) (r : Fin 8) (csn : Nat) (x : RCmd) (p : Partition), InTurn s c (.ring r csn) x p →
    let id := fieldAt x.bytes 0x10 2
    let n := fieldAt x.bytes 0x12 2
    let old := aget s.front.recipes id
    let room : Prop := ∀ o, old = some o → o.cur.holds = 0 ∨ o.other.holds = 0
    let stored (t : State) (cmds : List (List Byte)) : Prop :=
      (∃ q, aget t.front.recipes id = some q ∧ q.cur = { cmds := cmds, version := (old.map fun o => (o.cur.version + 1) % 2 ^ 16).getD 1, holds := 0 }) ∧
      (∀ k, k ≠ id → aget t.front.recipes k = aget s.front.recipes k) ∧ Ended t c (.ring r csn)
    (x.op = 0x18 → rcpIn p id = true → zeros x.bytes 0x14 0x18 = true → zeros x.bytes 0x20 0x40 = true → 1 ≤ n → n ≤ 256 →
      fieldAt x.bytes 0x18 8 % 64 = 0 → s.feMapped c (fieldAt x.bytes 0x18 8) (64 * n) = true → (s.recipeSrc c x).all storedOk = true →
      (room → Completes (.recipeLoad c (.ring r csn)) s fun t => stored t (s.recipeSrc c x)) ∧
      (¬room → Completes (.recipeLoad c (.ring r csn)) s fun t =>
        t.front.recipes = s.front.recipes ∧ ((t.cmd c (.ring r csn)).map fun y => (y.st, y.status)) = some (CmdSt.done, 3))) ∧
    (∀ o, x.op = 0x19 → rcpIn p id = true → zeros x.bytes 0x13 0x14 = true → zeros x.bytes 0x38 0x40 = true → 1 ≤ fieldAt x.bytes 0x12 1 →
      fieldAt x.bytes 0x12 1 ≤ 3 → zeros x.bytes (0x14 + 12 * fieldAt x.bytes 0x12 1) 0x38 = true → old = some o →
      (List.range (fieldAt x.bytes 0x12 1)).all (patchOk (some o.cur.cmds.length) x.bytes) = true → room →
      Completes (.recipePatch c (.ring r csn)) s fun t => stored t ((List.range (fieldAt x.bytes 0x12 1)).foldl (applyPatch x.bytes) o.cur.cmds)) ∧
    (x.op = 0x1A → rcpIn p id = true → zeros x.bytes 0x13 0x18 = true → zeros x.bytes 0x26 0x40 = true → fieldAt x.bytes 0x12 1 < 2 →
      (∀ o, old = some o → s.launch c (some r) x.csn = none → Completes (.recipeLaunch c (.ring r csn)) s fun t =>
        (∃ l, t.launch c (some r) x.csn = some l ∧ l.recipe = id ∧ l.version = o.cur.version ∧ l.next = 0 ∧ l.stopped = false ∧
          l.cmds.length = o.cur.cmds.length ∧ (fieldAt x.bytes 0x12 1 = 0 → l.cmds.map (·.bytes) = o.cur.cmds)) ∧
        ((aget t.front.recipes id).map fun q => (q.cur.holds, q.cur.version, q.cur.cmds)) = some (o.cur.holds + 1, o.cur.version, o.cur.cmds) ∧
        ((t.cmd c (.ring r csn)).map fun y => (y.st, y.detail)) = some (CmdSt.running, o.cur.version)) ∧
      (old = none → Completes (.recipeLaunch c (.ring r csn)) s fun t =>
        t.front.launches = s.front.launches ∧ t.front.recipes = s.front.recipes ∧
        ((t.cmd c (.ring r csn)).map fun y => (y.st, y.status)) = some (CmdSt.done, 4)))

/-- Command `ref` of tenant `c` is a ROUTE in turn whose operands and plan pass (R390, R449). -/
def Sys2Proof.Machine.RouteRuns (s : State) (c : Nat) (ref : CmdRef) (x : RCmd) (p : Partition) : Prop :=
  InTurn s c ref x p ∧ x.op = 0x1B ∧ zeros x.bytes 0x24 0x28 = true ∧ zeros x.bytes 0x3E 0x40 = true ∧
  fieldAt x.bytes 0x13 1 < 2 ∧ rtLayer x.bytes < 4096 ∧ 1 ≤ rtK x.bytes ∧ rtK x.bytes ≤ 16 ∧ 1 ≤ rtTokens x.bytes ∧ rtTokens x.bytes ≤ 65536 ∧
  rtK x.bytes ≤ rtExperts x.bytes ∧ rtExperts x.bytes ≤ 1024 ∧ rcpIn p (rtTemplate x.bytes) = true ∧
  (if rtSpm x.bytes then s.tileOf c (rtIdx x.bytes / 2 ^ 32 % 128) && inShare p.share (rtIdx x.bytes % 2 ^ 23) (32 * rtTokens x.bytes)
    else s.feMapped c (rtIdx x.bytes) (32 * rtTokens x.bytes)) = true ∧
  rtPlan x.bytes % 256 = 0 ∧ s.feMapped c (rtPlan x.bytes) 0x10100 = true ∧
  s.planBad c (rtPlan x.bytes) (s.planHalf c) (rtExperts x.bytes) = false ∧ s.planOk c p x.bytes = true

/-- Expert dispatch. -/
def Obligations.ExpertDispatchAndPlans : Prop :=
  ∀ (s : State) (c : Nat), s.tidy = true → c < 16 →
    (∀ (ref : CmdRef) (x : RCmd) (p : Partition), RouteRuns s c ref x p →
      let items := itemList (fieldAt (s.planHead c (rtPlan x.bytes)) 2 2) (rtExperts x.bytes) (s.slotExperts c x.bytes)
      Completes (.route c ref) s fun t =>
        t.front.items.map (fun i => (i.n, i.tenant, i.expert, i.slots)) = s.front.items.map (fun i => (i.n, i.tenant, i.expert, i.slots)) ++
          items.mapIdx (fun i (e, sl) => (s.front.nextItem + i, c, e, sl)) ∧
        t.front.nextItem = s.front.nextItem + items.length ∧ (items = [] → Ended t c ref) ∧ t.lrd = s.lrd) ∧
    (∀ (tile : Nat) (pre rest : List Item) (i : Item) (q : Route), s.usable c tile = true → s.idleTile c tile = true →
      s.front.items.filter (fun y => y.tenant == c && y.phase == 0) = pre ++ i :: rest → s.route? c i.ref = some q →
      (∀ y ∈ pre, ∀ q', s.route? c y.ref = some q' → s.residentOn q' y.expert tile = false) →
      (s.residentOn q i.expert tile = true ∨
        (pre = [] ∧ ∀ y ∈ rest, ∀ q', s.route? c y.ref = some q' → s.residentOn q' y.expert tile = false)) →
      Completes (.routeItemPlace c tile) s fun t =>
        (∃ y ∈ t.front.items, y.n = i.n ∧ y.tile = some tile ∧ y.phase = 1 ∧ y.fetch = !s.residentOn q i.expert tile ∧ y.slots = i.slots) ∧
        (t.chan tile (8 * c + fieldAt q.plan 4 1)).isSome = true ∧ (∀ m, m ≠ tile → t.tile m = s.tile m) ∧ t.regs = s.regs ∧ t.hbm = s.hbm) ∧
    ((s.part c).isSome = true → Completes (.epochBoundary c) s fun t =>
      t.flag (tnt c 0x340) 17 = s.flag (tnt c 0x340) 16 ∧ (t.front.epochs[c]?).getD 0 = 0 ∧ t.tiles = s.tiles ∧ t.hbm = s.hbm) ∧
    (∀ (layer tile e : Nat) (y : PlanSt), s.planSt c layer = some y → y.loading.contains (tile, e) = true → s.active c = true →
      (∀ i ∈ s.front.items, ¬(i.tenant = c ∧ i.tile = some tile)) →
      Completes (.residentCopyComplete c layer tile e) s fun t =>
        (∃ z, t.planSt c layer = some z ∧ (tile, e) ∈ z.done ∧ z.loading = y.loading.erase (tile, e) ∧ z.addr = y.addr) ∧
        (∀ m, m ≠ tile → t.tile m = s.tile m) ∧ t.hbm = s.hbm)

/-- A Larder or session command in turn that takes effect now: it was fetched before the boundary (R384), its operands pass, the tenant has a pool, no session it names is held by a
job or by work that runs, and none that waits before it names one of them (R216, R237, R240). -/
def Sys2Proof.Machine.LarderTurn (s : State) (c : Nat) (ref : CmdRef) (x : RCmd) (p : Partition) (op : Nat) : Prop :=
  InTurn s c ref x p ∧ x.op = op ∧ x.tick < s.beat ∧ lrdCheck s c p x = none ∧ p.granules ≠ 0 ∧
  (∀ m ∈ x.sessions, (s.sess m).jobbed = false ∧ s.sessBusy c m = false) ∧ s.waitsBefore c ref x.sessions = false ∧
  (s.comparing c = true → s.servesPair = true) ∧ Quiet ref x ∧ x.err = 0 ∧ x.pois = 0

/-- The entry of granule `g` in map block `b` lies in the tenant's own range, behind the session blocks, and so does its top entry. -/
def Sys2Proof.Machine.DirFits (p : Partition) (b g : Nat) : Prop := p.mapEntry b 1023 + 4 ≤ p.taSize ∧ g < 131072

/-- Pages. -/
def Obligations.PagesAllocatedFreedSharedCopied : Prop :=
  ∀ (s : State) (c : Nat) (ref : CmdRef) (x : RCmd) (p : Partition) (b g page k : Nat),
    let n := pgSession x.bytes
    let src := pgSource x.bytes
    (LarderTurn s c ref x p 0x10 → pageState (s.sess n) = true → rangeOk (s.sess n) (pgFrom x.bytes) (pgTo x.bytes) = true →
      pgFrom x.bytes = 16 * g → pgTo x.bytes = 16 * g + 16 → s.granule c p n g = none → s.mapOf c p n g = some b → DirFits p b g →
      (s.sess n).kmax ≤ 6 → page < 2 ^ 24 → k = s.growthK c p n g → (s.allocPage c k).map (·.1) = some page →
      Completes (.pageAlloc c ref) s fun t =>
        t.granule c p n g = some (page, k) ∧ t.pageCount c page = 1 ∧ t.lrd.sess = s.lrd.sess ∧ t.ctrs = s.ctrs ∧
        ∀ r csn, ref = .ring r csn → ((t.cmd c ref).map fun y => (y.st, y.status, y.detail)) = some (CmdSt.done, 0, 1)) ∧
    (LarderTurn s c ref x p 0x11 → pageState (s.sess n) = true → rangeOk (s.sess n) (pgFrom x.bytes) (pgTo x.bytes) = true →
      pgFrom x.bytes = 16 * g → pgTo x.bytes = 16 * g + 16 → s.granule c p n g = some (page, 0) → s.mapOf c p n g = some b → DirFits p b g →
      ((s.pool c).pages.map (·.1)).Nodup → s.pageCount c page ≠ pinned →
      Completes (.pageFree c ref) s fun t =>
        t.granule c p n g = none ∧ t.pageCount c page = s.pageCount c page - 1 ∧ t.lrd.sess = s.lrd.sess ∧ t.ctrs = s.ctrs ∧
        ∀ r csn, ref = .ring r csn → ((t.cmd c ref).map fun y => (y.st, y.status, y.detail)) = some (CmdSt.done, 0, 1)) ∧
    (LarderTurn s c ref x p 0x12 → (s.shareSteps c p x.bytes).toOption = some [(g, page, k)] → s.mapOf c p n g = some b → DirFits p b g → page < 2 ^ 24 → k < 8 →
      Completes (.pageShare c ref) s fun t =>
        t.granule c p n g = some (page, k) ∧
        (∀ y, aget (s.pool c).pages page = some y → t.pageCount c page = if y.count = pinned then pinned else y.count + 1) ∧
        (t.sess n).length = (if pgSetLen x.bytes then pgNewLen x.bytes else (s.sess n).length) ∧ (∀ m, m ≠ n → t.sess m = s.sess m) ∧ Ended t c ref) ∧
    (∀ new, LarderTurn s c ref x p 0x13 → (s.shareSteps c p x.bytes).toOption = some [(g, page, k)] → s.mapOf c p n g = some b → DirFits p b g → new < 2 ^ 24 → k < 8 →
      (s.allocPage c k).map (·.1) = some new → page + 2 ^ k ≤ new ∨ new + 2 ^ k ≤ page → page + 2 ^ k ≤ p.granules → new + 2 ^ k ≤ p.granules →
      p.poolBase + p.granules * p.granuleBytes ≤ p.dirBase →
      Completes (.pageCopy c ref) s fun t =>
        t.granule c p n g = some (new, k) ∧ t.pageCount c new = 1 ∧
        (∀ i, i < 2 ^ k * p.granuleBytes → nget t.hbm (groupAddr p.chgroups (p.poolBase + new * p.granuleBytes + i)) =
          nget s.hbm (groupAddr p.chgroups (p.poolBase + page * p.granuleBytes + i))) ∧
        (t.sess n).length = (if pgSetLen x.bytes then pgNewLen x.bytes else (s.sess n).length) ∧ (∀ m, m ≠ n → t.sess m = s.sess m) ∧ src ≠ n ∧ Ended t c ref) ∧
    (∀ y : PCopy, s.tidy = true → c < 16 → s.part c = some p → s.lrd.copies.find? (fun z => z.tenant == c) = some y → s.mapOf c p y.session y.g = some b → DirFits p b y.g →
      y.new < 2 ^ 24 → y.k < 8 → p.poolBase + p.granules * p.granuleBytes ≤ p.dirBase → y.new + 2 ^ y.k ≤ p.granules → sessIn p y.session = true →
      Completes (.larderCopyComplete c) s fun t =>
        t.granule c p y.session y.g = some (y.new, y.k) ∧ t.lrd.copies = s.lrd.copies.erase y ∧ t.lrd.sess = s.lrd.sess ∧ t.regs = s.regs)

/-- Session control. -/
def Obligations.SessionsOpenFeedStopAndClose : Prop :=
  ∀ (s : State) (c : Nat) (ref : CmdRef) (x : RCmd) (p : Partition),
    let b := x.bytes
    let n := pgSession b
    let d := s.sess n
    let ends (i : Instr) (d' : Sess) : Prop := Completes i s fun t => t.sess n = d' ∧ (∀ m, m ≠ n → t.sess m = s.sess m) ∧ t.ctrs = s.ctrs ∧ Ended t c ref
    (LarderTurn s c ref x p 0x15 →
      (ctlOp b = 0 → d.state = 0 → 16 ≤ fieldAt b 0x20 4 → fieldAt b 0x20 4 ≤ 2097152 → fieldAt b 0x2A 1 ≤ 6 → fieldAt b 0x2B 1 ≤ 7 →
        ends (.sessionOpen c ref) { Sess.idle with
          state := 1, seed := fieldAt b 0x18 8, maxlen := fieldAt b 0x20 4, maxnew := fieldAt b 0x24 4, fineTo := fieldAt b 0x28 2,
          kmax := fieldAt b 0x2A 1, outring := fieldAt b 0x2B 1, temp := fieldAt b 0x2C 4, topk := fieldAt b 0x30 2, topp := fieldAt b 0x34 4,
          stop := List.replicate 4 0xFFFFFFFF }) ∧
      (ctlOp b = 1 → d.state ≠ 0 → ends (.setSampling c ref) { d with temp := fieldAt b 0x2C 4, topk := fieldAt b 0x30 2, topp := fieldAt b 0x34 4 }) ∧
      (ctlOp b = 2 → d.state ≠ 0 →
        ends (.setStop c ref) { d with stop := [fieldAt b 0x18 4, fieldAt b 0x1C 4, fieldAt b 0x20 4, fieldAt b 0x24 4], maxnew := fieldAt b 0x28 4 }) ∧
      (ctlOp b = 3 → s.fld (tnt c 0x300) 1 2 < 2 → d.state = 1 ∨ d.state = 2 → d.feeds = [] →
        ends (.sessionStop c ref) { d with feeds := [], pending := 0, state := 4, reason := 5 }) ∧
      (ctlOp b = 3 → s.fld (tnt c 0x300) 1 2 < 2 → d.state = 1 ∨ d.state = 2 → Completes (.sessionStop c ref) s fun t =>
        t.sess n = { d with feeds := [], pending := 0, state := 4, reason := 5 } ∧ ∀ m, m ≠ n → t.sess m = s.sess m) ∧
      (ctlOp b = 4 → d.state ≠ 0 → Completes (.sessionClose c ref) s fun t =>
        (t.sess n).state = 0 ∧ (t.sess n).feeds = [] ∧ (t.sess n).pending = 0 ∧ (t.sess n).job = none ∧ (t.sess n).evicted = false ∧
        ∀ m, m ≠ n → t.sess m = s.sess m) ∧
      (ctlOp b = 7 → (d.state = 1 ∧ d.pending = 0) ∨ d.state = 4 → fieldAt b 0x14 4 ≤ d.length →
        ends (.sessionTruncate c ref) { d with length := fieldAt b 0x14 4 })) ∧
    (LarderTurn s c ref x p 0x14 → s.fld (tnt c 0x300) 1 2 < 2 → d.state = 1 ∨ d.state = 4 → d.feeds.length < 8 →
      Completes (.sessionFeed c ref) s fun t =>
        t.sess n = { d with
          state := 1, reason := 0, pending := d.pending + fieldAt b 0x14 4,
          feeds := d.feeds ++ [{ ref := ref, addr := fieldAt b 0x18 8, unread := fieldAt b 0x14 4, left := fieldAt b 0x14 4, gen := bitOf (fieldAt b 0x12 1) 0 }],
          feedTa := if d.feeds.any (fun g => g.unread != 0) then d.feedTa else fieldAt b 0x18 8 } ∧
        (∀ m, m ≠ n → t.sess m = s.sess m) ∧ t.ctrs = s.ctrs ∧ Running t c ref) ∧
    (InTurn s c ref x p → x.op = 0x14 → x.tick < s.beat → lrdCheck s c p x = none → (s.comparing c = true → s.servesPair = true) → s.sessBusy c n = true →
      Completes (.sessionFeed c ref) s fun t =>
        t.lrd.sess = s.lrd.sess ∧ (c, ref) ∈ t.lrd.waits ∧ t.lrd.pools = s.lrd.pools ∧ t.ctrs = s.ctrs ∧ t.hbm = s.hbm ∧ Running t c ref) ∧
    (InTurn s c ref x p → x.op = 0x14 → s.beat ≤ x.tick → Completes (.sessionFeed c ref) s fun t => t = s)

/-- Parking and migration. -/
def Obligations.SessionsParkUnparkAndMigrate : Prop :=
  ∀ (s : State) (c : Nat) (ref : CmdRef) (x : RCmd) (p : Partition),
    let b := x.bytes
    let n := pgSession b
    let d := s.sess n
    (LarderTurn s c ref x p 0x15 →
      (ctlOp b = 5 → d.state = 1 ∨ d.state = 2 ∨ d.state = 4 → fieldAt b 0x14 1 % 2 = 0 → Completes (.sessionPark c ref) s fun t =>
        t.sess n = { d with state := 3, reason := 6, prior := d.state } ∧ (∀ m, m ≠ n → t.sess m = s.sess m) ∧ t.lrd.pools = s.lrd.pools ∧ t.hbm = s.hbm ∧ Ended t c ref) ∧
      (ctlOp b = 5 → d.state = 1 ∨ d.state = 2 ∨ d.state = 4 → fieldAt b 0x14 1 % 2 = 1 → 0 < parkSize p (s.evictable c p n) →
        parkSize p (s.evictable c p n) ≤ fieldAt b 0x20 4 → Completes (.sessionPark c ref) s fun t =>
        (t.sess n).state = 3 ∧ (t.sess n).prior = d.state ∧ (t.sess n).migrating = true ∧ (t.sess n).hostAddr = fieldAt b 0x18 8 ∧
        (∃ j, (t.sess n).job = some j ∧ j.kind = 0 ∧ j.moved = 0 ∧ j.total = parkSize p (s.evictable c p n) ∧ j.ref = ref ∧
          j.pages = (s.evictable c p n).map (fun (g, page, _) => (g, page))) ∧
        t.lrd.pools = s.lrd.pools ∧ (∀ m, m ≠ n → t.sess m = s.sess m) ∧ Running t c ref) ∧
      (ctlOp b = 6 → d.state = 3 → d.evicted = false → Completes (.sessionUnpark c ref) s fun t =>
        t.sess n = { d with state := d.prior, reason := 0, prior := 0, evicted := false, migrating := false, job := none, atHost := [] } ∧
        (∀ m, m ≠ n → t.sess m = s.sess m) ∧ t.lrd.pools = s.lrd.pools ∧ t.hbm = s.hbm ∧ Ended t c ref) ∧
      (ctlOp b = 8 → d.state = 4 ∨ (d.state = 3 ∧ d.evicted = false) → s.mode c = 0 → s.sameLarder c = true → s.twinReach = true →
        Completes (.sessionMigrate c ref) s fun t =>
          (t.sess n).migrating = true ∧ (t.sess n).state = d.state ∧ (∃ j, (t.sess n).job = some j ∧ j.kind = 2 ∧ j.ref = ref ∧ j.moved = 0 ∧
            j.pages = (s.allPages c p n).map (fun (g, page, _) => (g, page))) ∧
          (∃ j, (t.sess n).job = some j ∧ j.ready = false ∧ j.total = ((s.allPages c p n).map fun (_, _, k) => pageBytes p k).sum) ∧
          (∀ q, s.route (twinOf s.moduleId) 3 none = some q → ∃ h ∈ t.unackedPkts, h.pkt.dst = twinOf s.moduleId ∧ h.pkt.vc = 3 ∧
            h.pkt.ctl = some (.migrateAsk c n d ((s.allPages c p n).map fun (g, _, k) => (g, k)))) ∧
          (∀ m, m ≠ n → t.sess m = s.sess m) ∧ t.lrd.pools = s.lrd.pools ∧ Running t c ref)) ∧
    (∀ (m : Nat) (j : Job), s.tidy = true → c < 16 → s.part c = some p → (s.sess m).job = some j → j.kind = 2 → sessIn p m = true →
      (j.moved < j.total → Completes (.migrateConfirm c m true) s fun t => t = s) ∧
      (j.total ≤ j.moved → Completes (.migrateConfirm c m true) s fun t => (t.sess m).state = 0 ∧ (t.sess m).job = none ∧ (t.sess m).migrating = false ∧
        ∀ o, o ≠ m → t.sess o = s.sess o) ∧
      Completes (.migrateConfirm c m false) s fun t =>
        t.sess m = { s.sess m with job := none, migrating := false } ∧ (∀ o, o ≠ m → t.sess o = s.sess o) ∧ t.lrd.pools = s.lrd.pools ∧
        ∀ r csn, j.ref = .ring r csn → ∀ y, s.cmd c j.ref = some y → ((t.cmd c j.ref).map fun z => (z.st, z.status)) = some (CmdSt.done, lrdTwin))

/-- The Ladle's messages. -/
def Obligations.LadleListsReturnsAndLaunches : Prop :=
  ∀ (s : State) (c : Fin 16) (p : Partition), s.tidy = true → s.part c = some p →
    (∀ v : W32, s.serves = true →
      (if s.ladleRefused c 0x300 v.toNat then
        Completes (.ladleCtlWrite c v) s fun t => t.flag (tnt c 0x300) 12 = true ∧ t.ladles = s.ladles ∧ t.fld (tnt c 0x300) 0 12 = s.fld (tnt c 0x300) 0 12 ∧
          t = { s with regs := t.regs }
      else Completes (.ladleCtlWrite c v) s fun t =>
          t.ladle c = { s.ladle c with writes := (s.ladle c).writes ++ [(0x300, v.toNat)] } ∧ t.fld (tnt c 0x300) 0 12 = s.fld (tnt c 0x300) 0 12 ∧
          t.flag (tnt c 0x300) 12 = (s.flag (tnt c 0x300) 12 && !bitOf v.toNat 12) ∧ t.front = s.front)) ∧
    (∀ (src : Nat) (x : BList), s.lEn c = true → 2 ≤ s.lRole c →
      (if x.bseq = (s.ladle c).nextList + (s.ladle c).lists.length then
        Completes (.batchListReceive c src x) s fun t =>
          t.ladle c = { s.ladle c with lists := (s.ladle c).lists ++ [(src, x)] } ∧ t.regs = s.regs ∧ t.lrd = s.lrd ∧
          (x.ents.length ≤ 1024 → x.rows ≤ 65536 → x.chain.length ≤ 48 → x.input.length ≤ 48 → s.recvBuf c x.bseq + 2 ^ 22 ≤ p.taSize →
            ∀ i, i < 64 → nget t.hbm (groupAddr p.chgroups (s.recvBuf c x.bseq + i)) = (x.header 0).getD i 0)
      else s.active c = true → Completes (.batchListReceive c src x) s fun t =>
          t.tState c = tsFrozen ∧ t.fld (tnt c 0x100) 8 8 = 0xE2 ∧ t.ladles = s.ladles)) ∧
    (∀ b, Completes (.ladleCreditReceive c b) s fun t =>
      (t.ladle c).taken = max (s.ladle c).taken (b + 1) ∧
      (t.ladle c).unsent = (s.ladle c).unsent.filter (fun x => !decide (x.bseq < max (s.ladle c).taken (b + 1) + 4)) ∧
      (t.ladle c).batches = (s.ladle c).batches ∧ t.regs = s.regs ∧ t.lrd = s.lrd) ∧
    (∀ r : Ret, s.lEn c = true →
      (if r.bseq = (s.ladle c).nextRet + (s.ladle c).rets.length then
        Completes (.returnReceive c r) s fun t => t.ladle c = { s.ladle c with rets := (s.ladle c).rets ++ [r] } ∧ t.lrd = s.lrd ∧ t.regs = s.regs ∧ t.hbm = s.hbm
      else s.active c = true → Completes (.returnReceive c r) s fun t =>
        t.tState c = tsFrozen ∧ t.fld (tnt c 0x100) 8 8 = 0xE2 ∧ t.ladles = s.ladles)) ∧
    (∀ (q : Nat) (l : Launch) (b : Batch) (ok : Bool), s.active c = true → s.launch c none q = some l → (∀ y ∈ l.cmds, y.st = .done) →
      (s.ladle c).batches.find? (fun y => y.list.bseq == q && !y.done) = some b →
      (s.lSamples c = true → ((s.taRead c (s.ladleBuf c q + 0x240000) (4 * b.list.samples)).any (·.2)) = false) →
      Completes (.ladleLaunchComplete c q ok) s fun t =>
        t.launch c none q = none ∧
        (s.lRole c = 0 → (t.ladle c).rets = (s.ladle c).rets ++ [{ bseq := q, ents := (s.batchResults c b.list).map (·.1) }]) ∧
        (s.lRole c = 1 ∨ s.lRole c = 2 →
          (t.ladle c).batches = (s.ladle c).batches.map (fun y => if y.list.bseq == q then { y with done := true } else y) ∧ t.lrd = s.lrd ∧ t.hbm = s.hbm))

/-- R565: the tenant windows stand twice, but for the one word of TNT_COMMON. -/
def Obligations.TenantWindowsStandTwice : Prop :=
  ∀ s : State, s.serves = true → s.barLive .pf = true →
    (Completes (.registerRead .pf 0x10F000 4) s fun t =>
      t.outbox = s.outbox ++ [.answer .pf (leBytes 4 (s.fld 0x10F000 8 8 * 2 ^ 8 + s.fld 0x10F000 16 8 * 2 ^ 16))] ∧ t.regs = s.regs) ∧
    (∀ v : W32, bitOf v.toNat 3 = true →
      exec (.registerWrite .pf 0x10F000 ((leBytes 4 v.toNat).map some)) s = exec (.publish (v.toNat % 8)) s) ∧
    (∀ off len : Nat, 0x100000 ≤ off → off + len ≤ 0x110000 → (off + len ≤ 0x10F000 ∨ 0x10F004 ≤ off) →
      exec (.registerRead .pf off len) s = exec (.registerRead .pf (off + 0x10000) len) s) ∧
    (∀ (off : Nat) (bs : List (Option Byte)), 0x100000 ≤ off → off + bs.length ≤ 0x110000 → (off + bs.length ≤ 0x10F000 ∨ 0x10F004 ≤ off) →
      exec (.registerWrite .pf off bs) s = exec (.registerWrite .pf (off + 0x10000) bs) s) ∧
    (∀ n : Fin 16, ∃ v : Nat, v % 4 = s.tState n ∧
      (Completes (.registerRead .pf (0x110000 + 0x1000 * n) 4) s fun t => t.outbox = s.outbox ++ [.answer .pf (leBytes 4 v)]) ∧
      (s.barLive (.vf n) = true → s.offNow n = false →
        Completes (.registerRead (.vf n) 0 4) s fun t => t.outbox = s.outbox ++ [.answer (.vf n) (leBytes 4 v)]))

/-- R528: the law of the bubble levels, for the rails (0 to 23 carry a limit) and for the module. -/
def Obligations.LawLevelsFollowTheirLaw : Prop :=
  ∀ (s : State) (x : PowerIn), s.tidy = true → s.serves = true →
    let follows (lev lim smp new : Nat) : Prop :=
      if smp > lim then new = min 63 (lev + ((64 - lev) * (smp - lim) + smp - 1) / smp)
      else if 100 * smp < 97 * lim ∧ lev > 0 then new = lev - 1
      else new = lev
    Completes (.powerSample x) s fun t =>
      (∀ i < 24, ∀ ma, x.rails[i]? = some ma → follows (s.railLevel i) (1000 * s.railLimit i) ma (t.railLevel i)) ∧
      (∀ i < 24, x.rails[i]? = none → t.railLevel i = s.railLevel i) ∧
      follows s.pwr.modLevel (1000 * s.fld 0x900004 0 13) x.pin t.pwr.modLevel

/-- PWR_DIE of every compute die reports the level in force and its cause (R529, R536): the largest of the levels named, capped at 63,
with the cause code of one that is largest (1 a rail, 2 the module, 3 thermal, 4 THROTTLE#, 5 droop), and 0 with level 0. -/
def Sys2Proof.Machine.BubblesShown (s : State) : Prop :=
  ∀ d < 8,
    let levels : List (Nat × Nat) :=
      [(s.railLevel d, 1), (s.railLevel (8 + d), 1), (s.railLevel (16 + d / 2), 1), (s.railLevel (20 + d / 2), 1), (s.pwr.modLevel, 2),
       (s.thermal d, 3), (if s.flag 0x90000C 0 then 48 else 0, 4), (if s.pwr.droop.contains d then 32 else 0, 5)]
    ∃ top, (∀ l ∈ levels, l.1 ≤ top) ∧ s.fld (0x900300 + 8 * d) 0 6 = min 63 top ∧
      ((top = 0 ∧ s.fld (0x900300 + 8 * d) 6 3 = 0) ∨ ∃ l ∈ levels, l.1 = top ∧ s.fld (0x900300 + 8 * d) 6 3 = l.2)

/-- R529: the bubble level in force, on every die, through the commands that move one of its causes. -/
def Obligations.BubbleLevelsAreTheLargestCause : Prop :=
  (∀ (s : State) (x : PowerIn), s.tidy = true → s.serves = true → Completes (.powerSample x) s BubblesShown) ∧
  (∀ (s : State) (c : Instr), s.tidy = true → BubblesShown s →
    ((∃ x, c = .powerSample x) ∨ (∃ d, c = .droopDetect d) ∨ (∃ d, c = .droopRelease d) ∨ (∃ a, c = .throttleLow a) ∨ (∃ a, c = .throttleAccept a) ∨
      (∃ a, c = .throttleHigh a) ∨ (∃ a, c = .throttleRelease a) ∨ c = .thermalUpdate) →
    Completes c s BubblesShown)

/-- Commands carried out one after another. -/
def Sys2Proof.Machine.Runs : List Instr → State → State → Prop
  | [], s, t => t = s
  | c :: cs, s, t => ∃ u, exec c s = .next u ∧ Runs cs u t

/-- The qualification of rising edges as R63 has it: how many are ignored, and the last accepted one. -/
def Sys2Proof.Machine.qualify : Option Nat → List Nat → Nat × Option Nat
  | last, [] => (0, last)
  | none, e :: es => qualify (some e) es
  | some l, e :: es =>
    if e - l < 10000 then ((qualify (some l) es).1 + 1, (qualify (some l) es).2) else qualify (some e) es

/-- R63: edges are qualified against the previous accepted edge. -/
def Obligations.TickInEdgesAreQualified : Prop :=
  ∀ s : State, s.tidy = true → s.usesTickIn = true →
    (∀ es : List Nat, ∃ t, Runs (es.map fun e => .tickInEdge e) s t ∧
      t.word 0x10014 = satAdd32 (s.word 0x10014) (qualify s.tick.tin.last es).1 ∧
      t.tick.tin.last = (qualify s.tick.tin.last es).2 ∧ t.usesTickIn = true ∧
      ∀ a, a ≠ 0x10004 → a ≠ 0x10014 → a ≠ 0x10018 → t.word a = s.word a) ∧
    (∀ l e : Nat, s.tick.tin.last = some l → e - l < 10000 → Completes (.tickInEdge e) s fun t => t = s.bump 0x10014 1)

/-- R451: how a ROUTE's rows are cut into work items, and in which order these are queued. -/
def Obligations.WorkItemsAreCutAndQueued : Prop :=
  ∀ (s : State) (c : Nat) (ref : CmdRef) (x : RCmd) (p : Partition), RouteRuns s c ref x p →
    let split := fieldAt (s.planHead c (rtPlan x.bytes)) 2 2
    let ex := s.slotExperts c x.bytes
    let rows (e : Nat) : List Nat := (List.range ex.length).filter fun i => ex[i]? == some e
    let n (e : Nat) : Nat := (rows e).length
    let q (e : Nat) : Nat := (n e + split - 1) / split
    ∃ order : List Nat,
      order.Pairwise (fun a b => n b < n a ∨ (n a = n b ∧ a < b)) ∧
      (∀ e, e ∈ order ↔ e < rtExperts x.bytes ∧ 0 < n e) ∧
      Completes (.route c ref) s fun t =>
        t.front.items.map (fun i => (i.tenant, i.expert, i.slots)) = s.front.items.map (fun i => (i.tenant, i.expert, i.slots)) ++
          order.flatMap fun e => (List.range (q e)).map fun i =>
            (c, e, (List.range (n e)).filterMap fun k => if i * n e / q e ≤ k ∧ k < (i + 1) * n e / q e then (rows e)[k]? else none)
end

