-- ==== Sys2Proof/Laws/Mem.lean ====
section
/-!
SUPPORT. Mem.lean: what the operations over sparse memories and poison lists do: a read after a write, and that the canonical form
stays.
-/

namespace Sys2Proof.Machine

/-! ## The canonical form -/

theorem nwfFrom_weaken {w : Nat} {lo : Option Nat} {m : NMap w} (h : nwfFrom lo m = true) : nwfFrom none m = true := by
  cases m with
  | nil => rfl
  | cons x m =>
    simp only [nwfFrom, Bool.and_eq_true] at h ⊢
    exact ⟨⟨trivial, h.1.2⟩, h.2⟩

theorem nwfFrom_lower {w a b : Nat} {m : NMap w} (h : nwfFrom (some b) m = true) (hab : a < b) : nwfFrom (some a) m = true := by
  cases m with
  | nil => rfl
  | cons x m =>
    simp only [nwfFrom, Bool.and_eq_true, decide_eq_true_eq] at h ⊢
    exact ⟨⟨by omega, h.1.2⟩, h.2⟩

/-- A write below `k` keeps the form of what lies above a lower bound. -/
theorem nwfFrom_nset {w : Nat} {lo : Option Nat} {m : NMap w} {k : Nat} {v : BitVec w} (h : nwfFrom lo m = true)
    (hk : ∀ l, lo = some l → l < k) : nwfFrom lo (nset m k v) = true := by
  induction m generalizing lo with
  | nil =>
    unfold nset
    split
    · rfl
    · rename_i hv
      cases lo with
      | none => simpa [nwfFrom] using hv
      | some l => simpa [nwfFrom] using ⟨hk l rfl, hv⟩
  | cons x m ih =>
    obtain ⟨a, b⟩ := x
    simp only [nwfFrom, Bool.and_eq_true] at h
    unfold nset
    split
    · rename_i hak
      simp only [nwfFrom, Bool.and_eq_true]
      exact ⟨⟨h.1.1, h.1.2⟩, ih h.2 (fun l hl => by cases hl; exact hak)⟩
    · split
      · split
        · cases lo with
          | none => exact nwfFrom_weaken h.2
          | some l =>
            refine nwfFrom_lower h.2 ?_
            simpa using h.1.1
        · rename_i hka hv
          subst hka
          simp only [nwfFrom, Bool.and_eq_true]
          exact ⟨⟨h.1.1, by simpa using hv⟩, h.2⟩
      · split
        · simp only [nwfFrom, Bool.and_eq_true]
          exact ⟨⟨h.1.1, h.1.2⟩, h.2⟩
        · rename_i h1 h2 hv
          simp only [nwfFrom, Bool.and_eq_true]
          refine ⟨⟨?_, by simpa using hv⟩, ⟨by simp; omega, h.1.2⟩, h.2⟩
          cases lo with
          | none => rfl
          | some l => simpa using hk l rfl

/-- A write keeps the canonical form. -/
theorem nwf_nset {w : Nat} {m : NMap w} (k : Nat) (v : BitVec w) (h : nwf m = true) : nwf (nset m k v) = true :=
  nwfFrom_nset h (by simp)

theorem nwfFrom_filter {w : Nat} {lo : Option Nat} {m : NMap w} (f : Nat × BitVec w → Bool) (h : nwfFrom lo m = true) :
    nwfFrom lo (m.filter f) = true := by
  induction m generalizing lo with
  | nil => rfl
  | cons x m ih =>
    simp only [nwfFrom, Bool.and_eq_true] at h
    rw [List.filter_cons]
    split
    · simp only [nwfFrom, Bool.and_eq_true]
      exact ⟨h.1, ih h.2⟩
    · cases lo with
      | none => exact ih (nwfFrom_weaken h.2)
      | some l => exact ih (nwfFrom_lower h.2 (by simpa using h.1.1))

/-- Taking entries out keeps the canonical form. -/
theorem nwf_filter {w : Nat} {m : NMap w} (f : Nat × BitVec w → Bool) (h : nwf m = true) : nwf (m.filter f) = true :=
  nwfFrom_filter f h

theorem nwf_zeroRange {w : Nat} {m : NMap w} (lo hi : Nat) (h : nwf m = true) : nwf (zeroRange m lo hi) = true := nwf_filter _ h

theorem nwf_writeBytes {m : NMap 8} (a : Nat) (bs : List Byte) (h : nwf m = true) : nwf (writeBytes m a bs) = true := by
  induction bs generalizing m a with
  | nil => exact h
  | cons b bs ih => exact ih _ (nwf_nset _ _ h)

theorem nwf_foldl_nset {w : Nat} {α : Type} {m : NMap w} (l : List α) (k : α → Nat) (v : α → BitVec w) (h : nwf m = true) :
    nwf (l.foldl (fun m x => nset m (k x) (v x)) m) = true := by
  induction l generalizing m with
  | nil => exact h
  | cons x l ih => exact ih (nwf_nset _ _ h)

/-! ## Reading after writing -/

theorem nget_below {w lo k : Nat} {m : NMap w} (h : nwfFrom (some lo) m = true) (hk : k ≤ lo) : nget m k = 0 := by
  cases m with
  | nil => rfl
  | cons x m =>
    simp only [nwfFrom, Bool.and_eq_true, decide_eq_true_eq] at h
    unfold nget
    rw [if_neg (by omega), if_pos (by omega)]

/-- A read after a write to the same key gives what was written. -/
theorem nget_nset_same {w : Nat} {m : NMap w} (k : Nat) (v : BitVec w) (h : nwf m = true) : nget (nset m k v) k = v := by
  unfold nwf at h
  generalize hlo : (none : Option Nat) = lo at h
  clear hlo
  induction m generalizing lo with
  | nil => unfold nset; split <;> simp_all [nget]
  | cons x m ih =>
    obtain ⟨a, b⟩ := x
    simp only [nwfFrom, Bool.and_eq_true] at h
    unfold nset
    split
    · rw [nget, if_neg (by omega), if_neg (by omega)]
      exact ih _ h.2
    · split
      · rename_i hak
        split
        · rename_i hv
          rw [hv]
          exact nget_below h.2 (by omega)
        · simp [nget]
      · split
        · rename_i hv
          rw [nget, if_neg (by omega), if_pos (by omega), hv]
        · simp [nget]

/-- A write leaves every other key alone. -/
theorem nget_nset_other {w : Nat} {m : NMap w} {k j : Nat} (v : BitVec w) (h : nwf m = true) (hjk : j ≠ k) :
    nget (nset m k v) j = nget m j := by
  unfold nwf at h
  generalize hlo : (none : Option Nat) = lo at h
  clear hlo
  induction m generalizing lo with
  | nil =>
    unfold nset
    split
    · rfl
    · simp [nget, Ne.symm hjk]
  | cons x m ih =>
    obtain ⟨a, b⟩ := x
    simp only [nwfFrom, Bool.and_eq_true] at h
    unfold nset
    split
    · rw [nget, nget]
      split
      · rfl
      · split
        · rfl
        · exact ih _ h.2
    · split
      · rename_i hak
        split
        · rw [nget, if_neg (by omega)]
          split
          · rename_i hlt
            exact nget_below h.2 (by omega)
          · rfl
        · rw [nget, nget, hak, if_neg (Ne.symm hjk), if_neg (Ne.symm hjk)]
      · split
        · rfl
        · rw [nget, if_neg (by omega)]
          split
          · rw [nget, if_neg (by omega), if_pos (by omega)]
          · rfl

theorem nget_writeBytes_below {m : NMap 8} {a x : Nat} (bs : List Byte) (h : nwf m = true) (hx : x < a) :
    nget (writeBytes m a bs) x = nget m x := by
  induction bs generalizing m a with
  | nil => rfl
  | cons b bs ih => rw [writeBytes, ih (nwf_nset _ _ h) (by omega), nget_nset_other _ h (by omega)]

/-- A write of bytes leaves every byte outside them alone. -/
theorem nget_writeBytes_outside {m : NMap 8} {a x : Nat} (bs : List Byte) (h : nwf m = true) (hx : x < a ∨ a + bs.length ≤ x) :
    nget (writeBytes m a bs) x = nget m x := by
  induction bs generalizing m a with
  | nil => rfl
  | cons b bs ih =>
    simp only [List.length_cons] at hx
    rw [writeBytes, ih (nwf_nset _ _ h) (by omega), nget_nset_other _ h (by omega)]

/-- A byte that a write covers reads as written. -/
theorem nget_writeBytes_inside {m : NMap 8} {a i : Nat} (bs : List Byte) (h : nwf m = true) (hi : i < bs.length) :
    nget (writeBytes m a bs) (a + i) = bs[i] := by
  induction bs generalizing m a i with
  | nil => simp at hi
  | cons b bs ih =>
    cases i with
    | zero => simpa [writeBytes, nget_writeBytes_below bs (nwf_nset a b h) (Nat.lt_succ_self a)] using nget_nset_same a b h
    | succ i =>
      have := ih (m := nset m a b) (a := a + 1) (i := i) (nwf_nset _ _ h) (by simpa using hi)
      rw [writeBytes, show a + (i + 1) = a + 1 + i by omega, this]
      rfl

/-- Bytes written are the bytes read back. -/
theorem readBytes_writeBytes {m : NMap 8} (a : Nat) (bs : List Byte) (h : nwf m = true) : readBytes (writeBytes m a bs) a bs.length = bs := by
  apply List.ext_getElem
  · simp [readBytes]
  · intro i h1 h2
    simpa [readBytes] using nget_writeBytes_inside bs h h2

/-! ## Poison lists -/

theorem rising_cons {a : Nat} {l : List Nat} : rising (a :: l) = true ↔ (∀ b ∈ l.head?, a < b) ∧ rising l = true := by
  cases l <;> simp [rising]

theorem rising_pset {l : List Nat} (k : Nat) (h : rising l = true) : rising (pset l k) = true := by
  induction l with
  | nil => rfl
  | cons a l ih =>
    rw [rising_cons] at h
    unfold pset
    split
    · rename_i hak
      rw [rising_cons]
      refine ⟨?_, ih h.2⟩
      intro b hb
      cases l with
      | nil => simp [pset] at hb; omega
      | cons c l =>
        unfold pset at hb
        have hc := h.1 c (by simp)
        split at hb
        · simp at hb; omega
        · split at hb <;> simp at hb <;> omega
    · split
      · rw [rising_cons]; exact h
      · rw [rising_cons, rising_cons]
        refine ⟨?_, h⟩
        intro b hb
        simp at hb
        omega

theorem rising_lt {a : Nat} {l : List Nat} (h : rising (a :: l) = true) : ∀ b ∈ l, a < b := by
  induction l generalizing a with
  | nil => simp
  | cons c l ih =>
    rw [rising_cons] at h
    intro b hb
    have hc := h.1 c (by simp)
    rcases List.mem_cons.mp hb with rfl | hb
    · exact hc
    · have := ih h.2 b hb
      omega

theorem rising_filter {l : List Nat} (f : Nat → Bool) (h : rising l = true) : rising (l.filter f) = true := by
  induction l with
  | nil => rfl
  | cons a l ih =>
    have h' := rising_cons.mp h
    rw [List.filter_cons]
    split
    · rw [rising_cons]
      refine ⟨fun b hb => rising_lt h b ?_, ih h'.2⟩
      exact (List.mem_filter.mp (List.mem_of_mem_head? hb)).1
    · exact ih h'.2

theorem rising_foldl_pset {l : List Nat} (ks : List Nat) (h : rising l = true) : rising (ks.foldl pset l) = true := by
  induction ks generalizing l with
  | nil => exact h
  | cons k ks ih => exact ih (rising_pset k h)

theorem rising_pwrite {l : List Nat} (a n : Nat) (bad : Bool) (h : rising l = true) : rising (pwrite l a n bad) = true := by
  unfold pwrite
  split
  · exact h
  · lift_lets
    intro lines
    split
    · exact rising_foldl_pset _ h
    · clear_value lines
      induction lines generalizing l with
      | nil => exact h
      | cons k lines ih =>
        refine ih ?_
        dsimp only
        split
        · exact rising_filter _ h
        · exact h

end Sys2Proof.Machine
end

