-- ==== Sys2Proof/Laws/State.lean ====
section
/-!
SUPPORT. State.lean: what the named operations over the state leave and what they change: one lemma per field, and what a register
field reads as after a write.
-/

namespace Sys2Proof.Machine

variable (s : State)

/-! ## Writes of registers touch nothing but registers -/

@[simp] theorem State.setWord_pf (off : Nat) (v : W32) : (s.setWord off v).pf = s.pf := rfl
@[simp] theorem State.setWord_vfs (off : Nat) (v : W32) : (s.setWord off v).vfs = s.vfs := rfl
@[simp] theorem State.setWord_vfEnable (off : Nat) (v : W32) : (s.setWord off v).vfEnable = s.vfEnable := rfl
@[simp] theorem State.setWord_numVfs (off : Nat) (v : W32) : (s.setWord off v).numVfs = s.numVfs := rfl
@[simp] theorem State.setWord_flash (off : Nat) (v : W32) : (s.setWord off v).flash = s.flash := rfl
@[simp] theorem State.setWord_fuses (off : Nat) (v : W32) : (s.setWord off v).fuses = s.fuses := rfl
@[simp] theorem State.setWord_pins (off : Nat) (v : W32) : (s.setWord off v).pins = s.pins := rfl
@[simp] theorem State.setWord_boot (off : Nat) (v : W32) : (s.setWord off v).boot = s.boot := rfl
@[simp] theorem State.setWord_tick (off : Nat) (v : W32) : (s.setWord off v).tick = s.tick := rfl
@[simp] theorem State.setWord_sched (off : Nat) (v : W32) : (s.setWord off v).sched = s.sched := rfl
@[simp] theorem State.setWord_tiles (off : Nat) (v : W32) : (s.setWord off v).tiles = s.tiles := rfl
@[simp] theorem State.setWord_hbm (off : Nat) (v : W32) : (s.setWord off v).hbm = s.hbm := rfl
@[simp] theorem State.setWord_hbmBad (off : Nat) (v : W32) : (s.setWord off v).hbmBad = s.hbmBad := rfl
@[simp] theorem State.setWord_msc (off : Nat) (v : W32) : (s.setWord off v).msc = s.msc := rfl
@[simp] theorem State.setWord_drc (off : Nat) (v : W32) : (s.setWord off v).drc = s.drc := rfl
@[simp] theorem State.setWord_ctrs (off : Nat) (v : W32) : (s.setWord off v).ctrs = s.ctrs := rfl
@[simp] theorem State.setWord_lnk (off : Nat) (v : W32) : (s.setWord off v).lnk = s.lnk := rfl
@[simp] theorem State.setWord_pair (off : Nat) (v : W32) : (s.setWord off v).pair = s.pair := rfl
@[simp] theorem State.setWord_twin (off : Nat) (v : W32) : (s.setWord off v).twin = s.twin := rfl
@[simp] theorem State.setWord_recov (off : Nat) (v : W32) : (s.setWord off v).recov = s.recov := rfl
@[simp] theorem State.setWord_front (off : Nat) (v : W32) : (s.setWord off v).front = s.front := rfl
@[simp] theorem State.setWord_cdx (off : Nat) (v : W32) : (s.setWord off v).cdx = s.cdx := rfl
@[simp] theorem State.setWord_lrd (off : Nat) (v : W32) : (s.setWord off v).lrd = s.lrd := rfl
@[simp] theorem State.setWord_ladles (off : Nat) (v : W32) : (s.setWord off v).ladles = s.ladles := rfl
@[simp] theorem State.setWord_commonDigs (off : Nat) (v : W32) : (s.setWord off v).commonDigs = s.commonDigs := rfl
@[simp] theorem State.setWord_publish (off : Nat) (v : W32) : (s.setWord off v).publish = s.publish := rfl
@[simp] theorem State.setWord_unmapped (off : Nat) (v : W32) : (s.setWord off v).unmapped = s.unmapped := rfl
@[simp] theorem State.setWord_coll (off : Nat) (v : W32) : (s.setWord off v).coll = s.coll := rfl
@[simp] theorem State.setWord_acc (off : Nat) (v : W32) : (s.setWord off v).acc = s.acc := rfl
@[simp] theorem State.setWord_pwr (off : Nat) (v : W32) : (s.setWord off v).pwr = s.pwr := rfl
@[simp] theorem State.setWord_vit (off : Nat) (v : W32) : (s.setWord off v).vit = s.vit := rfl
@[simp] theorem State.setWord_aoc (off : Nat) (v : W32) : (s.setWord off v).aoc = s.aoc := rfl
@[simp] theorem State.setWord_outbox (off : Nat) (v : W32) : (s.setWord off v).outbox = s.outbox := rfl
@[simp] theorem State.setWord_freeCtr (off : Nat) (v : W32) : (s.setWord off v).freeCtr = s.freeCtr := rfl
@[simp] theorem State.setWord_pending (off : Nat) (v : W32) : (s.setWord off v).pending = s.pending := rfl

@[simp] theorem State.setFld_pf (off lo n v : Nat) : (s.setFld off lo n v).pf = s.pf := rfl
@[simp] theorem State.setFld_vfs (off lo n v : Nat) : (s.setFld off lo n v).vfs = s.vfs := rfl
@[simp] theorem State.setFld_vfEnable (off lo n v : Nat) : (s.setFld off lo n v).vfEnable = s.vfEnable := rfl
@[simp] theorem State.setFld_numVfs (off lo n v : Nat) : (s.setFld off lo n v).numVfs = s.numVfs := rfl
@[simp] theorem State.setFld_flash (off lo n v : Nat) : (s.setFld off lo n v).flash = s.flash := rfl
@[simp] theorem State.setFld_fuses (off lo n v : Nat) : (s.setFld off lo n v).fuses = s.fuses := rfl
@[simp] theorem State.setFld_pins (off lo n v : Nat) : (s.setFld off lo n v).pins = s.pins := rfl
@[simp] theorem State.setFld_boot (off lo n v : Nat) : (s.setFld off lo n v).boot = s.boot := rfl
@[simp] theorem State.setFld_tick (off lo n v : Nat) : (s.setFld off lo n v).tick = s.tick := rfl
@[simp] theorem State.setFld_sched (off lo n v : Nat) : (s.setFld off lo n v).sched = s.sched := rfl
@[simp] theorem State.setFld_tiles (off lo n v : Nat) : (s.setFld off lo n v).tiles = s.tiles := rfl
@[simp] theorem State.setFld_hbm (off lo n v : Nat) : (s.setFld off lo n v).hbm = s.hbm := rfl
@[simp] theorem State.setFld_hbmBad (off lo n v : Nat) : (s.setFld off lo n v).hbmBad = s.hbmBad := rfl
@[simp] theorem State.setFld_msc (off lo n v : Nat) : (s.setFld off lo n v).msc = s.msc := rfl
@[simp] theorem State.setFld_drc (off lo n v : Nat) : (s.setFld off lo n v).drc = s.drc := rfl
@[simp] theorem State.setFld_ctrs (off lo n v : Nat) : (s.setFld off lo n v).ctrs = s.ctrs := rfl
@[simp] theorem State.setFld_lnk (off lo n v : Nat) : (s.setFld off lo n v).lnk = s.lnk := rfl
@[simp] theorem State.setFld_pair (off lo n v : Nat) : (s.setFld off lo n v).pair = s.pair := rfl
@[simp] theorem State.setFld_twin (off lo n v : Nat) : (s.setFld off lo n v).twin = s.twin := rfl
@[simp] theorem State.setFld_recov (off lo n v : Nat) : (s.setFld off lo n v).recov = s.recov := rfl
@[simp] theorem State.setFld_front (off lo n v : Nat) : (s.setFld off lo n v).front = s.front := rfl
@[simp] theorem State.setFld_cdx (off lo n v : Nat) : (s.setFld off lo n v).cdx = s.cdx := rfl
@[simp] theorem State.setFld_lrd (off lo n v : Nat) : (s.setFld off lo n v).lrd = s.lrd := rfl
@[simp] theorem State.setFld_ladles (off lo n v : Nat) : (s.setFld off lo n v).ladles = s.ladles := rfl
@[simp] theorem State.setFld_commonDigs (off lo n v : Nat) : (s.setFld off lo n v).commonDigs = s.commonDigs := rfl
@[simp] theorem State.setFld_publish (off lo n v : Nat) : (s.setFld off lo n v).publish = s.publish := rfl
@[simp] theorem State.setFld_unmapped (off lo n v : Nat) : (s.setFld off lo n v).unmapped = s.unmapped := rfl
@[simp] theorem State.setFld_coll (off lo n v : Nat) : (s.setFld off lo n v).coll = s.coll := rfl
@[simp] theorem State.setFld_acc (off lo n v : Nat) : (s.setFld off lo n v).acc = s.acc := rfl
@[simp] theorem State.setFld_pwr (off lo n v : Nat) : (s.setFld off lo n v).pwr = s.pwr := rfl
@[simp] theorem State.setFld_vit (off lo n v : Nat) : (s.setFld off lo n v).vit = s.vit := rfl
@[simp] theorem State.setFld_aoc (off lo n v : Nat) : (s.setFld off lo n v).aoc = s.aoc := rfl
@[simp] theorem State.setFld_outbox (off lo n v : Nat) : (s.setFld off lo n v).outbox = s.outbox := rfl
@[simp] theorem State.setFld_freeCtr (off lo n v : Nat) : (s.setFld off lo n v).freeCtr = s.freeCtr := rfl
@[simp] theorem State.setFld_pending (off lo n v : Nat) : (s.setFld off lo n v).pending = s.pending := rfl

@[simp] theorem State.setFlag_pf (off b : Nat) (v : Bool) : (s.setFlag off b v).pf = s.pf := rfl
@[simp] theorem State.setFlag_vfs (off b : Nat) (v : Bool) : (s.setFlag off b v).vfs = s.vfs := rfl
@[simp] theorem State.setFlag_vfEnable (off b : Nat) (v : Bool) : (s.setFlag off b v).vfEnable = s.vfEnable := rfl
@[simp] theorem State.setFlag_numVfs (off b : Nat) (v : Bool) : (s.setFlag off b v).numVfs = s.numVfs := rfl
@[simp] theorem State.setFlag_flash (off b : Nat) (v : Bool) : (s.setFlag off b v).flash = s.flash := rfl
@[simp] theorem State.setFlag_fuses (off b : Nat) (v : Bool) : (s.setFlag off b v).fuses = s.fuses := rfl
@[simp] theorem State.setFlag_pins (off b : Nat) (v : Bool) : (s.setFlag off b v).pins = s.pins := rfl
@[simp] theorem State.setFlag_boot (off b : Nat) (v : Bool) : (s.setFlag off b v).boot = s.boot := rfl
@[simp] theorem State.setFlag_tick (off b : Nat) (v : Bool) : (s.setFlag off b v).tick = s.tick := rfl
@[simp] theorem State.setFlag_sched (off b : Nat) (v : Bool) : (s.setFlag off b v).sched = s.sched := rfl
@[simp] theorem State.setFlag_tiles (off b : Nat) (v : Bool) : (s.setFlag off b v).tiles = s.tiles := rfl
@[simp] theorem State.setFlag_hbm (off b : Nat) (v : Bool) : (s.setFlag off b v).hbm = s.hbm := rfl
@[simp] theorem State.setFlag_hbmBad (off b : Nat) (v : Bool) : (s.setFlag off b v).hbmBad = s.hbmBad := rfl
@[simp] theorem State.setFlag_msc (off b : Nat) (v : Bool) : (s.setFlag off b v).msc = s.msc := rfl
@[simp] theorem State.setFlag_drc (off b : Nat) (v : Bool) : (s.setFlag off b v).drc = s.drc := rfl
@[simp] theorem State.setFlag_ctrs (off b : Nat) (v : Bool) : (s.setFlag off b v).ctrs = s.ctrs := rfl
@[simp] theorem State.setFlag_lnk (off b : Nat) (v : Bool) : (s.setFlag off b v).lnk = s.lnk := rfl
@[simp] theorem State.setFlag_pair (off b : Nat) (v : Bool) : (s.setFlag off b v).pair = s.pair := rfl
@[simp] theorem State.setFlag_twin (off b : Nat) (v : Bool) : (s.setFlag off b v).twin = s.twin := rfl
@[simp] theorem State.setFlag_recov (off b : Nat) (v : Bool) : (s.setFlag off b v).recov = s.recov := rfl
@[simp] theorem State.setFlag_front (off b : Nat) (v : Bool) : (s.setFlag off b v).front = s.front := rfl
@[simp] theorem State.setFlag_cdx (off b : Nat) (v : Bool) : (s.setFlag off b v).cdx = s.cdx := rfl
@[simp] theorem State.setFlag_lrd (off b : Nat) (v : Bool) : (s.setFlag off b v).lrd = s.lrd := rfl
@[simp] theorem State.setFlag_ladles (off b : Nat) (v : Bool) : (s.setFlag off b v).ladles = s.ladles := rfl
@[simp] theorem State.setFlag_commonDigs (off b : Nat) (v : Bool) : (s.setFlag off b v).commonDigs = s.commonDigs := rfl
@[simp] theorem State.setFlag_publish (off b : Nat) (v : Bool) : (s.setFlag off b v).publish = s.publish := rfl
@[simp] theorem State.setFlag_unmapped (off b : Nat) (v : Bool) : (s.setFlag off b v).unmapped = s.unmapped := rfl
@[simp] theorem State.setFlag_coll (off b : Nat) (v : Bool) : (s.setFlag off b v).coll = s.coll := rfl
@[simp] theorem State.setFlag_acc (off b : Nat) (v : Bool) : (s.setFlag off b v).acc = s.acc := rfl
@[simp] theorem State.setFlag_pwr (off b : Nat) (v : Bool) : (s.setFlag off b v).pwr = s.pwr := rfl
@[simp] theorem State.setFlag_vit (off b : Nat) (v : Bool) : (s.setFlag off b v).vit = s.vit := rfl
@[simp] theorem State.setFlag_aoc (off b : Nat) (v : Bool) : (s.setFlag off b v).aoc = s.aoc := rfl
@[simp] theorem State.setFlag_outbox (off b : Nat) (v : Bool) : (s.setFlag off b v).outbox = s.outbox := rfl
@[simp] theorem State.setFlag_freeCtr (off b : Nat) (v : Bool) : (s.setFlag off b v).freeCtr = s.freeCtr := rfl
@[simp] theorem State.setFlag_pending (off b : Nat) (v : Bool) : (s.setFlag off b v).pending = s.pending := rfl

@[simp] theorem State.setQuad_pf (off v : Nat) : (s.setQuad off v).pf = s.pf := rfl
@[simp] theorem State.setQuad_vfs (off v : Nat) : (s.setQuad off v).vfs = s.vfs := rfl
@[simp] theorem State.setQuad_vfEnable (off v : Nat) : (s.setQuad off v).vfEnable = s.vfEnable := rfl
@[simp] theorem State.setQuad_numVfs (off v : Nat) : (s.setQuad off v).numVfs = s.numVfs := rfl
@[simp] theorem State.setQuad_flash (off v : Nat) : (s.setQuad off v).flash = s.flash := rfl
@[simp] theorem State.setQuad_fuses (off v : Nat) : (s.setQuad off v).fuses = s.fuses := rfl
@[simp] theorem State.setQuad_pins (off v : Nat) : (s.setQuad off v).pins = s.pins := rfl
@[simp] theorem State.setQuad_boot (off v : Nat) : (s.setQuad off v).boot = s.boot := rfl
@[simp] theorem State.setQuad_tick (off v : Nat) : (s.setQuad off v).tick = s.tick := rfl
@[simp] theorem State.setQuad_sched (off v : Nat) : (s.setQuad off v).sched = s.sched := rfl
@[simp] theorem State.setQuad_tiles (off v : Nat) : (s.setQuad off v).tiles = s.tiles := rfl
@[simp] theorem State.setQuad_hbm (off v : Nat) : (s.setQuad off v).hbm = s.hbm := rfl
@[simp] theorem State.setQuad_hbmBad (off v : Nat) : (s.setQuad off v).hbmBad = s.hbmBad := rfl
@[simp] theorem State.setQuad_msc (off v : Nat) : (s.setQuad off v).msc = s.msc := rfl
@[simp] theorem State.setQuad_drc (off v : Nat) : (s.setQuad off v).drc = s.drc := rfl
@[simp] theorem State.setQuad_ctrs (off v : Nat) : (s.setQuad off v).ctrs = s.ctrs := rfl
@[simp] theorem State.setQuad_lnk (off v : Nat) : (s.setQuad off v).lnk = s.lnk := rfl
@[simp] theorem State.setQuad_pair (off v : Nat) : (s.setQuad off v).pair = s.pair := rfl
@[simp] theorem State.setQuad_twin (off v : Nat) : (s.setQuad off v).twin = s.twin := rfl
@[simp] theorem State.setQuad_recov (off v : Nat) : (s.setQuad off v).recov = s.recov := rfl
@[simp] theorem State.setQuad_front (off v : Nat) : (s.setQuad off v).front = s.front := rfl
@[simp] theorem State.setQuad_cdx (off v : Nat) : (s.setQuad off v).cdx = s.cdx := rfl
@[simp] theorem State.setQuad_lrd (off v : Nat) : (s.setQuad off v).lrd = s.lrd := rfl
@[simp] theorem State.setQuad_ladles (off v : Nat) : (s.setQuad off v).ladles = s.ladles := rfl
@[simp] theorem State.setQuad_commonDigs (off v : Nat) : (s.setQuad off v).commonDigs = s.commonDigs := rfl
@[simp] theorem State.setQuad_publish (off v : Nat) : (s.setQuad off v).publish = s.publish := rfl
@[simp] theorem State.setQuad_unmapped (off v : Nat) : (s.setQuad off v).unmapped = s.unmapped := rfl
@[simp] theorem State.setQuad_coll (off v : Nat) : (s.setQuad off v).coll = s.coll := rfl
@[simp] theorem State.setQuad_acc (off v : Nat) : (s.setQuad off v).acc = s.acc := rfl
@[simp] theorem State.setQuad_pwr (off v : Nat) : (s.setQuad off v).pwr = s.pwr := rfl
@[simp] theorem State.setQuad_vit (off v : Nat) : (s.setQuad off v).vit = s.vit := rfl
@[simp] theorem State.setQuad_aoc (off v : Nat) : (s.setQuad off v).aoc = s.aoc := rfl
@[simp] theorem State.setQuad_outbox (off v : Nat) : (s.setQuad off v).outbox = s.outbox := rfl
@[simp] theorem State.setQuad_freeCtr (off v : Nat) : (s.setQuad off v).freeCtr = s.freeCtr := rfl
@[simp] theorem State.setQuad_pending (off v : Nat) : (s.setQuad off v).pending = s.pending := rfl

@[simp] theorem State.bump_pf (off n : Nat) : (s.bump off n).pf = s.pf := rfl
@[simp] theorem State.bump_vfs (off n : Nat) : (s.bump off n).vfs = s.vfs := rfl
@[simp] theorem State.bump_vfEnable (off n : Nat) : (s.bump off n).vfEnable = s.vfEnable := rfl
@[simp] theorem State.bump_numVfs (off n : Nat) : (s.bump off n).numVfs = s.numVfs := rfl
@[simp] theorem State.bump_flash (off n : Nat) : (s.bump off n).flash = s.flash := rfl
@[simp] theorem State.bump_fuses (off n : Nat) : (s.bump off n).fuses = s.fuses := rfl
@[simp] theorem State.bump_pins (off n : Nat) : (s.bump off n).pins = s.pins := rfl
@[simp] theorem State.bump_boot (off n : Nat) : (s.bump off n).boot = s.boot := rfl
@[simp] theorem State.bump_tick (off n : Nat) : (s.bump off n).tick = s.tick := rfl
@[simp] theorem State.bump_sched (off n : Nat) : (s.bump off n).sched = s.sched := rfl
@[simp] theorem State.bump_tiles (off n : Nat) : (s.bump off n).tiles = s.tiles := rfl
@[simp] theorem State.bump_hbm (off n : Nat) : (s.bump off n).hbm = s.hbm := rfl
@[simp] theorem State.bump_hbmBad (off n : Nat) : (s.bump off n).hbmBad = s.hbmBad := rfl
@[simp] theorem State.bump_msc (off n : Nat) : (s.bump off n).msc = s.msc := rfl
@[simp] theorem State.bump_drc (off n : Nat) : (s.bump off n).drc = s.drc := rfl
@[simp] theorem State.bump_ctrs (off n : Nat) : (s.bump off n).ctrs = s.ctrs := rfl
@[simp] theorem State.bump_lnk (off n : Nat) : (s.bump off n).lnk = s.lnk := rfl
@[simp] theorem State.bump_pair (off n : Nat) : (s.bump off n).pair = s.pair := rfl
@[simp] theorem State.bump_twin (off n : Nat) : (s.bump off n).twin = s.twin := rfl
@[simp] theorem State.bump_recov (off n : Nat) : (s.bump off n).recov = s.recov := rfl
@[simp] theorem State.bump_front (off n : Nat) : (s.bump off n).front = s.front := rfl
@[simp] theorem State.bump_cdx (off n : Nat) : (s.bump off n).cdx = s.cdx := rfl
@[simp] theorem State.bump_lrd (off n : Nat) : (s.bump off n).lrd = s.lrd := rfl
@[simp] theorem State.bump_ladles (off n : Nat) : (s.bump off n).ladles = s.ladles := rfl
@[simp] theorem State.bump_commonDigs (off n : Nat) : (s.bump off n).commonDigs = s.commonDigs := rfl
@[simp] theorem State.bump_publish (off n : Nat) : (s.bump off n).publish = s.publish := rfl
@[simp] theorem State.bump_unmapped (off n : Nat) : (s.bump off n).unmapped = s.unmapped := rfl
@[simp] theorem State.bump_coll (off n : Nat) : (s.bump off n).coll = s.coll := rfl
@[simp] theorem State.bump_acc (off n : Nat) : (s.bump off n).acc = s.acc := rfl
@[simp] theorem State.bump_pwr (off n : Nat) : (s.bump off n).pwr = s.pwr := rfl
@[simp] theorem State.bump_vit (off n : Nat) : (s.bump off n).vit = s.vit := rfl
@[simp] theorem State.bump_aoc (off n : Nat) : (s.bump off n).aoc = s.aoc := rfl
@[simp] theorem State.bump_outbox (off n : Nat) : (s.bump off n).outbox = s.outbox := rfl
@[simp] theorem State.bump_freeCtr (off n : Nat) : (s.bump off n).freeCtr = s.freeCtr := rfl
@[simp] theorem State.bump_pending (off n : Nat) : (s.bump off n).pending = s.pending := rfl

@[simp] theorem State.bumpFld_pf (off lo n : Nat) : (s.bumpFld off lo n).pf = s.pf := rfl
@[simp] theorem State.bumpFld_vfs (off lo n : Nat) : (s.bumpFld off lo n).vfs = s.vfs := rfl
@[simp] theorem State.bumpFld_vfEnable (off lo n : Nat) : (s.bumpFld off lo n).vfEnable = s.vfEnable := rfl
@[simp] theorem State.bumpFld_numVfs (off lo n : Nat) : (s.bumpFld off lo n).numVfs = s.numVfs := rfl
@[simp] theorem State.bumpFld_flash (off lo n : Nat) : (s.bumpFld off lo n).flash = s.flash := rfl
@[simp] theorem State.bumpFld_fuses (off lo n : Nat) : (s.bumpFld off lo n).fuses = s.fuses := rfl
@[simp] theorem State.bumpFld_pins (off lo n : Nat) : (s.bumpFld off lo n).pins = s.pins := rfl
@[simp] theorem State.bumpFld_boot (off lo n : Nat) : (s.bumpFld off lo n).boot = s.boot := rfl
@[simp] theorem State.bumpFld_tick (off lo n : Nat) : (s.bumpFld off lo n).tick = s.tick := rfl
@[simp] theorem State.bumpFld_sched (off lo n : Nat) : (s.bumpFld off lo n).sched = s.sched := rfl
@[simp] theorem State.bumpFld_tiles (off lo n : Nat) : (s.bumpFld off lo n).tiles = s.tiles := rfl
@[simp] theorem State.bumpFld_hbm (off lo n : Nat) : (s.bumpFld off lo n).hbm = s.hbm := rfl
@[simp] theorem State.bumpFld_hbmBad (off lo n : Nat) : (s.bumpFld off lo n).hbmBad = s.hbmBad := rfl
@[simp] theorem State.bumpFld_msc (off lo n : Nat) : (s.bumpFld off lo n).msc = s.msc := rfl
@[simp] theorem State.bumpFld_drc (off lo n : Nat) : (s.bumpFld off lo n).drc = s.drc := rfl
@[simp] theorem State.bumpFld_ctrs (off lo n : Nat) : (s.bumpFld off lo n).ctrs = s.ctrs := rfl
@[simp] theorem State.bumpFld_lnk (off lo n : Nat) : (s.bumpFld off lo n).lnk = s.lnk := rfl
@[simp] theorem State.bumpFld_pair (off lo n : Nat) : (s.bumpFld off lo n).pair = s.pair := rfl
@[simp] theorem State.bumpFld_twin (off lo n : Nat) : (s.bumpFld off lo n).twin = s.twin := rfl
@[simp] theorem State.bumpFld_recov (off lo n : Nat) : (s.bumpFld off lo n).recov = s.recov := rfl
@[simp] theorem State.bumpFld_front (off lo n : Nat) : (s.bumpFld off lo n).front = s.front := rfl
@[simp] theorem State.bumpFld_cdx (off lo n : Nat) : (s.bumpFld off lo n).cdx = s.cdx := rfl
@[simp] theorem State.bumpFld_lrd (off lo n : Nat) : (s.bumpFld off lo n).lrd = s.lrd := rfl
@[simp] theorem State.bumpFld_ladles (off lo n : Nat) : (s.bumpFld off lo n).ladles = s.ladles := rfl
@[simp] theorem State.bumpFld_commonDigs (off lo n : Nat) : (s.bumpFld off lo n).commonDigs = s.commonDigs := rfl
@[simp] theorem State.bumpFld_publish (off lo n : Nat) : (s.bumpFld off lo n).publish = s.publish := rfl
@[simp] theorem State.bumpFld_unmapped (off lo n : Nat) : (s.bumpFld off lo n).unmapped = s.unmapped := rfl
@[simp] theorem State.bumpFld_coll (off lo n : Nat) : (s.bumpFld off lo n).coll = s.coll := rfl
@[simp] theorem State.bumpFld_acc (off lo n : Nat) : (s.bumpFld off lo n).acc = s.acc := rfl
@[simp] theorem State.bumpFld_pwr (off lo n : Nat) : (s.bumpFld off lo n).pwr = s.pwr := rfl
@[simp] theorem State.bumpFld_vit (off lo n : Nat) : (s.bumpFld off lo n).vit = s.vit := rfl
@[simp] theorem State.bumpFld_aoc (off lo n : Nat) : (s.bumpFld off lo n).aoc = s.aoc := rfl
@[simp] theorem State.bumpFld_outbox (off lo n : Nat) : (s.bumpFld off lo n).outbox = s.outbox := rfl
@[simp] theorem State.bumpFld_freeCtr (off lo n : Nat) : (s.bumpFld off lo n).freeCtr = s.freeCtr := rfl
@[simp] theorem State.bumpFld_pending (off lo n : Nat) : (s.bumpFld off lo n).pending = s.pending := rfl

@[simp] theorem State.addQuad_pf (off n : Nat) : (s.addQuad off n).pf = s.pf := rfl
@[simp] theorem State.addQuad_vfs (off n : Nat) : (s.addQuad off n).vfs = s.vfs := rfl
@[simp] theorem State.addQuad_vfEnable (off n : Nat) : (s.addQuad off n).vfEnable = s.vfEnable := rfl
@[simp] theorem State.addQuad_numVfs (off n : Nat) : (s.addQuad off n).numVfs = s.numVfs := rfl
@[simp] theorem State.addQuad_flash (off n : Nat) : (s.addQuad off n).flash = s.flash := rfl
@[simp] theorem State.addQuad_fuses (off n : Nat) : (s.addQuad off n).fuses = s.fuses := rfl
@[simp] theorem State.addQuad_pins (off n : Nat) : (s.addQuad off n).pins = s.pins := rfl
@[simp] theorem State.addQuad_boot (off n : Nat) : (s.addQuad off n).boot = s.boot := rfl
@[simp] theorem State.addQuad_tick (off n : Nat) : (s.addQuad off n).tick = s.tick := rfl
@[simp] theorem State.addQuad_sched (off n : Nat) : (s.addQuad off n).sched = s.sched := rfl
@[simp] theorem State.addQuad_tiles (off n : Nat) : (s.addQuad off n).tiles = s.tiles := rfl
@[simp] theorem State.addQuad_hbm (off n : Nat) : (s.addQuad off n).hbm = s.hbm := rfl
@[simp] theorem State.addQuad_hbmBad (off n : Nat) : (s.addQuad off n).hbmBad = s.hbmBad := rfl
@[simp] theorem State.addQuad_msc (off n : Nat) : (s.addQuad off n).msc = s.msc := rfl
@[simp] theorem State.addQuad_drc (off n : Nat) : (s.addQuad off n).drc = s.drc := rfl
@[simp] theorem State.addQuad_ctrs (off n : Nat) : (s.addQuad off n).ctrs = s.ctrs := rfl
@[simp] theorem State.addQuad_lnk (off n : Nat) : (s.addQuad off n).lnk = s.lnk := rfl
@[simp] theorem State.addQuad_pair (off n : Nat) : (s.addQuad off n).pair = s.pair := rfl
@[simp] theorem State.addQuad_twin (off n : Nat) : (s.addQuad off n).twin = s.twin := rfl
@[simp] theorem State.addQuad_recov (off n : Nat) : (s.addQuad off n).recov = s.recov := rfl
@[simp] theorem State.addQuad_front (off n : Nat) : (s.addQuad off n).front = s.front := rfl
@[simp] theorem State.addQuad_cdx (off n : Nat) : (s.addQuad off n).cdx = s.cdx := rfl
@[simp] theorem State.addQuad_lrd (off n : Nat) : (s.addQuad off n).lrd = s.lrd := rfl
@[simp] theorem State.addQuad_ladles (off n : Nat) : (s.addQuad off n).ladles = s.ladles := rfl
@[simp] theorem State.addQuad_commonDigs (off n : Nat) : (s.addQuad off n).commonDigs = s.commonDigs := rfl
@[simp] theorem State.addQuad_publish (off n : Nat) : (s.addQuad off n).publish = s.publish := rfl
@[simp] theorem State.addQuad_unmapped (off n : Nat) : (s.addQuad off n).unmapped = s.unmapped := rfl
@[simp] theorem State.addQuad_coll (off n : Nat) : (s.addQuad off n).coll = s.coll := rfl
@[simp] theorem State.addQuad_acc (off n : Nat) : (s.addQuad off n).acc = s.acc := rfl
@[simp] theorem State.addQuad_pwr (off n : Nat) : (s.addQuad off n).pwr = s.pwr := rfl
@[simp] theorem State.addQuad_vit (off n : Nat) : (s.addQuad off n).vit = s.vit := rfl
@[simp] theorem State.addQuad_aoc (off n : Nat) : (s.addQuad off n).aoc = s.aoc := rfl
@[simp] theorem State.addQuad_outbox (off n : Nat) : (s.addQuad off n).outbox = s.outbox := rfl
@[simp] theorem State.addQuad_freeCtr (off n : Nat) : (s.addQuad off n).freeCtr = s.freeCtr := rfl
@[simp] theorem State.addQuad_pending (off n : Nat) : (s.addQuad off n).pending = s.pending := rfl

@[simp] theorem State.setTState_pf (t v : Nat) : (s.setTState t v).pf = s.pf := rfl
@[simp] theorem State.setTState_vfs (t v : Nat) : (s.setTState t v).vfs = s.vfs := rfl
@[simp] theorem State.setTState_vfEnable (t v : Nat) : (s.setTState t v).vfEnable = s.vfEnable := rfl
@[simp] theorem State.setTState_numVfs (t v : Nat) : (s.setTState t v).numVfs = s.numVfs := rfl
@[simp] theorem State.setTState_flash (t v : Nat) : (s.setTState t v).flash = s.flash := rfl
@[simp] theorem State.setTState_fuses (t v : Nat) : (s.setTState t v).fuses = s.fuses := rfl
@[simp] theorem State.setTState_pins (t v : Nat) : (s.setTState t v).pins = s.pins := rfl
@[simp] theorem State.setTState_boot (t v : Nat) : (s.setTState t v).boot = s.boot := rfl
@[simp] theorem State.setTState_tick (t v : Nat) : (s.setTState t v).tick = s.tick := rfl
@[simp] theorem State.setTState_sched (t v : Nat) : (s.setTState t v).sched = s.sched := rfl
@[simp] theorem State.setTState_tiles (t v : Nat) : (s.setTState t v).tiles = s.tiles := rfl
@[simp] theorem State.setTState_hbm (t v : Nat) : (s.setTState t v).hbm = s.hbm := rfl
@[simp] theorem State.setTState_hbmBad (t v : Nat) : (s.setTState t v).hbmBad = s.hbmBad := rfl
@[simp] theorem State.setTState_msc (t v : Nat) : (s.setTState t v).msc = s.msc := rfl
@[simp] theorem State.setTState_drc (t v : Nat) : (s.setTState t v).drc = s.drc := rfl
@[simp] theorem State.setTState_ctrs (t v : Nat) : (s.setTState t v).ctrs = s.ctrs := rfl
@[simp] theorem State.setTState_lnk (t v : Nat) : (s.setTState t v).lnk = s.lnk := rfl
@[simp] theorem State.setTState_pair (t v : Nat) : (s.setTState t v).pair = s.pair := rfl
@[simp] theorem State.setTState_twin (t v : Nat) : (s.setTState t v).twin = s.twin := rfl
@[simp] theorem State.setTState_recov (t v : Nat) : (s.setTState t v).recov = s.recov := rfl
@[simp] theorem State.setTState_front (t v : Nat) : (s.setTState t v).front = s.front := rfl
@[simp] theorem State.setTState_cdx (t v : Nat) : (s.setTState t v).cdx = s.cdx := rfl
@[simp] theorem State.setTState_lrd (t v : Nat) : (s.setTState t v).lrd = s.lrd := rfl
@[simp] theorem State.setTState_ladles (t v : Nat) : (s.setTState t v).ladles = s.ladles := rfl
@[simp] theorem State.setTState_commonDigs (t v : Nat) : (s.setTState t v).commonDigs = s.commonDigs := rfl
@[simp] theorem State.setTState_publish (t v : Nat) : (s.setTState t v).publish = s.publish := rfl
@[simp] theorem State.setTState_unmapped (t v : Nat) : (s.setTState t v).unmapped = s.unmapped := rfl
@[simp] theorem State.setTState_coll (t v : Nat) : (s.setTState t v).coll = s.coll := rfl
@[simp] theorem State.setTState_acc (t v : Nat) : (s.setTState t v).acc = s.acc := rfl
@[simp] theorem State.setTState_pwr (t v : Nat) : (s.setTState t v).pwr = s.pwr := rfl
@[simp] theorem State.setTState_vit (t v : Nat) : (s.setTState t v).vit = s.vit := rfl
@[simp] theorem State.setTState_aoc (t v : Nat) : (s.setTState t v).aoc = s.aoc := rfl
@[simp] theorem State.setTState_outbox (t v : Nat) : (s.setTState t v).outbox = s.outbox := rfl
@[simp] theorem State.setTState_freeCtr (t v : Nat) : (s.setTState t v).freeCtr = s.freeCtr := rfl
@[simp] theorem State.setTState_pending (t v : Nat) : (s.setTState t v).pending = s.pending := rfl

@[simp] theorem State.zeroRegs_pf (lo hi : Nat) : (s.zeroRegs lo hi).pf = s.pf := rfl
@[simp] theorem State.zeroRegs_vfs (lo hi : Nat) : (s.zeroRegs lo hi).vfs = s.vfs := rfl
@[simp] theorem State.zeroRegs_vfEnable (lo hi : Nat) : (s.zeroRegs lo hi).vfEnable = s.vfEnable := rfl
@[simp] theorem State.zeroRegs_numVfs (lo hi : Nat) : (s.zeroRegs lo hi).numVfs = s.numVfs := rfl
@[simp] theorem State.zeroRegs_flash (lo hi : Nat) : (s.zeroRegs lo hi).flash = s.flash := rfl
@[simp] theorem State.zeroRegs_fuses (lo hi : Nat) : (s.zeroRegs lo hi).fuses = s.fuses := rfl
@[simp] theorem State.zeroRegs_pins (lo hi : Nat) : (s.zeroRegs lo hi).pins = s.pins := rfl
@[simp] theorem State.zeroRegs_boot (lo hi : Nat) : (s.zeroRegs lo hi).boot = s.boot := rfl
@[simp] theorem State.zeroRegs_tick (lo hi : Nat) : (s.zeroRegs lo hi).tick = s.tick := rfl
@[simp] theorem State.zeroRegs_sched (lo hi : Nat) : (s.zeroRegs lo hi).sched = s.sched := rfl
@[simp] theorem State.zeroRegs_tiles (lo hi : Nat) : (s.zeroRegs lo hi).tiles = s.tiles := rfl
@[simp] theorem State.zeroRegs_hbm (lo hi : Nat) : (s.zeroRegs lo hi).hbm = s.hbm := rfl
@[simp] theorem State.zeroRegs_hbmBad (lo hi : Nat) : (s.zeroRegs lo hi).hbmBad = s.hbmBad := rfl
@[simp] theorem State.zeroRegs_msc (lo hi : Nat) : (s.zeroRegs lo hi).msc = s.msc := rfl
@[simp] theorem State.zeroRegs_drc (lo hi : Nat) : (s.zeroRegs lo hi).drc = s.drc := rfl
@[simp] theorem State.zeroRegs_ctrs (lo hi : Nat) : (s.zeroRegs lo hi).ctrs = s.ctrs := rfl
@[simp] theorem State.zeroRegs_lnk (lo hi : Nat) : (s.zeroRegs lo hi).lnk = s.lnk := rfl
@[simp] theorem State.zeroRegs_pair (lo hi : Nat) : (s.zeroRegs lo hi).pair = s.pair := rfl
@[simp] theorem State.zeroRegs_twin (lo hi : Nat) : (s.zeroRegs lo hi).twin = s.twin := rfl
@[simp] theorem State.zeroRegs_recov (lo hi : Nat) : (s.zeroRegs lo hi).recov = s.recov := rfl
@[simp] theorem State.zeroRegs_front (lo hi : Nat) : (s.zeroRegs lo hi).front = s.front := rfl
@[simp] theorem State.zeroRegs_cdx (lo hi : Nat) : (s.zeroRegs lo hi).cdx = s.cdx := rfl
@[simp] theorem State.zeroRegs_lrd (lo hi : Nat) : (s.zeroRegs lo hi).lrd = s.lrd := rfl
@[simp] theorem State.zeroRegs_ladles (lo hi : Nat) : (s.zeroRegs lo hi).ladles = s.ladles := rfl
@[simp] theorem State.zeroRegs_commonDigs (lo hi : Nat) : (s.zeroRegs lo hi).commonDigs = s.commonDigs := rfl
@[simp] theorem State.zeroRegs_publish (lo hi : Nat) : (s.zeroRegs lo hi).publish = s.publish := rfl
@[simp] theorem State.zeroRegs_unmapped (lo hi : Nat) : (s.zeroRegs lo hi).unmapped = s.unmapped := rfl
@[simp] theorem State.zeroRegs_coll (lo hi : Nat) : (s.zeroRegs lo hi).coll = s.coll := rfl
@[simp] theorem State.zeroRegs_acc (lo hi : Nat) : (s.zeroRegs lo hi).acc = s.acc := rfl
@[simp] theorem State.zeroRegs_pwr (lo hi : Nat) : (s.zeroRegs lo hi).pwr = s.pwr := rfl
@[simp] theorem State.zeroRegs_vit (lo hi : Nat) : (s.zeroRegs lo hi).vit = s.vit := rfl
@[simp] theorem State.zeroRegs_aoc (lo hi : Nat) : (s.zeroRegs lo hi).aoc = s.aoc := rfl
@[simp] theorem State.zeroRegs_outbox (lo hi : Nat) : (s.zeroRegs lo hi).outbox = s.outbox := rfl
@[simp] theorem State.zeroRegs_freeCtr (lo hi : Nat) : (s.zeroRegs lo hi).freeCtr = s.freeCtr := rfl
@[simp] theorem State.zeroRegs_pending (lo hi : Nat) : (s.zeroRegs lo hi).pending = s.pending := rfl

/-- Only registers differ. -/
def RegsOnly (s t : State) : Prop := t = { s with regs := t.regs }

theorem RegsOnly.refl (s : State) : RegsOnly s s := rfl

theorem RegsOnly.trans {s t u : State} (h : RegsOnly s t) (g : RegsOnly t u) : RegsOnly s u := by
  unfold RegsOnly at *
  rw [g, h]

theorem State.setBytes_regsOnly (off : Nat) (bs : List Byte) : RegsOnly s (s.setBytes off bs) := by
  have key (l : List Nat) (f : State → Nat → State) (hf : ∀ s i, RegsOnly s (f s i)) (s : State) : RegsOnly s (l.foldl f s) := by
    induction l generalizing s with
    | nil => exact RegsOnly.refl s
    | cons x l ih => exact (hf s x).trans (ih _)
  cases bs with
  | nil => exact RegsOnly.refl s
  | cons b bs => exact key _ _ (fun s i => by rfl) s

@[simp] theorem State.setBytes_pf (off : Nat) (bs : List Byte) : (s.setBytes off bs).pf = s.pf := by rw [s.setBytes_regsOnly off bs]
@[simp] theorem State.setBytes_vfs (off : Nat) (bs : List Byte) : (s.setBytes off bs).vfs = s.vfs := by rw [s.setBytes_regsOnly off bs]
@[simp] theorem State.setBytes_vfEnable (off : Nat) (bs : List Byte) : (s.setBytes off bs).vfEnable = s.vfEnable := by rw [s.setBytes_regsOnly off bs]
@[simp] theorem State.setBytes_numVfs (off : Nat) (bs : List Byte) : (s.setBytes off bs).numVfs = s.numVfs := by rw [s.setBytes_regsOnly off bs]
@[simp] theorem State.setBytes_flash (off : Nat) (bs : List Byte) : (s.setBytes off bs).flash = s.flash := by rw [s.setBytes_regsOnly off bs]
@[simp] theorem State.setBytes_fuses (off : Nat) (bs : List Byte) : (s.setBytes off bs).fuses = s.fuses := by rw [s.setBytes_regsOnly off bs]
@[simp] theorem State.setBytes_pins (off : Nat) (bs : List Byte) : (s.setBytes off bs).pins = s.pins := by rw [s.setBytes_regsOnly off bs]
@[simp] theorem State.setBytes_boot (off : Nat) (bs : List Byte) : (s.setBytes off bs).boot = s.boot := by rw [s.setBytes_regsOnly off bs]
@[simp] theorem State.setBytes_tick (off : Nat) (bs : List Byte) : (s.setBytes off bs).tick = s.tick := by rw [s.setBytes_regsOnly off bs]
@[simp] theorem State.setBytes_sched (off : Nat) (bs : List Byte) : (s.setBytes off bs).sched = s.sched := by rw [s.setBytes_regsOnly off bs]
@[simp] theorem State.setBytes_tiles (off : Nat) (bs : List Byte) : (s.setBytes off bs).tiles = s.tiles := by rw [s.setBytes_regsOnly off bs]
@[simp] theorem State.setBytes_hbm (off : Nat) (bs : List Byte) : (s.setBytes off bs).hbm = s.hbm := by rw [s.setBytes_regsOnly off bs]
@[simp] theorem State.setBytes_hbmBad (off : Nat) (bs : List Byte) : (s.setBytes off bs).hbmBad = s.hbmBad := by rw [s.setBytes_regsOnly off bs]
@[simp] theorem State.setBytes_msc (off : Nat) (bs : List Byte) : (s.setBytes off bs).msc = s.msc := by rw [s.setBytes_regsOnly off bs]
@[simp] theorem State.setBytes_drc (off : Nat) (bs : List Byte) : (s.setBytes off bs).drc = s.drc := by rw [s.setBytes_regsOnly off bs]
@[simp] theorem State.setBytes_ctrs (off : Nat) (bs : List Byte) : (s.setBytes off bs).ctrs = s.ctrs := by rw [s.setBytes_regsOnly off bs]
@[simp] theorem State.setBytes_lnk (off : Nat) (bs : List Byte) : (s.setBytes off bs).lnk = s.lnk := by rw [s.setBytes_regsOnly off bs]
@[simp] theorem State.setBytes_pair (off : Nat) (bs : List Byte) : (s.setBytes off bs).pair = s.pair := by rw [s.setBytes_regsOnly off bs]
@[simp] theorem State.setBytes_twin (off : Nat) (bs : List Byte) : (s.setBytes off bs).twin = s.twin := by rw [s.setBytes_regsOnly off bs]
@[simp] theorem State.setBytes_recov (off : Nat) (bs : List Byte) : (s.setBytes off bs).recov = s.recov := by rw [s.setBytes_regsOnly off bs]
@[simp] theorem State.setBytes_front (off : Nat) (bs : List Byte) : (s.setBytes off bs).front = s.front := by rw [s.setBytes_regsOnly off bs]
@[simp] theorem State.setBytes_cdx (off : Nat) (bs : List Byte) : (s.setBytes off bs).cdx = s.cdx := by rw [s.setBytes_regsOnly off bs]
@[simp] theorem State.setBytes_lrd (off : Nat) (bs : List Byte) : (s.setBytes off bs).lrd = s.lrd := by rw [s.setBytes_regsOnly off bs]
@[simp] theorem State.setBytes_ladles (off : Nat) (bs : List Byte) : (s.setBytes off bs).ladles = s.ladles := by rw [s.setBytes_regsOnly off bs]
@[simp] theorem State.setBytes_commonDigs (off : Nat) (bs : List Byte) : (s.setBytes off bs).commonDigs = s.commonDigs := by rw [s.setBytes_regsOnly off bs]
@[simp] theorem State.setBytes_publish (off : Nat) (bs : List Byte) : (s.setBytes off bs).publish = s.publish := by rw [s.setBytes_regsOnly off bs]
@[simp] theorem State.setBytes_unmapped (off : Nat) (bs : List Byte) : (s.setBytes off bs).unmapped = s.unmapped := by rw [s.setBytes_regsOnly off bs]
@[simp] theorem State.setBytes_coll (off : Nat) (bs : List Byte) : (s.setBytes off bs).coll = s.coll := by rw [s.setBytes_regsOnly off bs]
@[simp] theorem State.setBytes_acc (off : Nat) (bs : List Byte) : (s.setBytes off bs).acc = s.acc := by rw [s.setBytes_regsOnly off bs]
@[simp] theorem State.setBytes_pwr (off : Nat) (bs : List Byte) : (s.setBytes off bs).pwr = s.pwr := by rw [s.setBytes_regsOnly off bs]
@[simp] theorem State.setBytes_vit (off : Nat) (bs : List Byte) : (s.setBytes off bs).vit = s.vit := by rw [s.setBytes_regsOnly off bs]
@[simp] theorem State.setBytes_aoc (off : Nat) (bs : List Byte) : (s.setBytes off bs).aoc = s.aoc := by rw [s.setBytes_regsOnly off bs]
@[simp] theorem State.setBytes_outbox (off : Nat) (bs : List Byte) : (s.setBytes off bs).outbox = s.outbox := by rw [s.setBytes_regsOnly off bs]
@[simp] theorem State.setBytes_freeCtr (off : Nat) (bs : List Byte) : (s.setBytes off bs).freeCtr = s.freeCtr := by rw [s.setBytes_regsOnly off bs]
@[simp] theorem State.setBytes_pending (off : Nat) (bs : List Byte) : (s.setBytes off bs).pending = s.pending := by rw [s.setBytes_regsOnly off bs]

/-! ## What is sent, and free values -/

@[simp] theorem State.send_regs (o : Out) : (s.send o).regs = s.regs := rfl
@[simp] theorem State.send_pf (o : Out) : (s.send o).pf = s.pf := rfl
@[simp] theorem State.send_vfs (o : Out) : (s.send o).vfs = s.vfs := rfl
@[simp] theorem State.send_vfEnable (o : Out) : (s.send o).vfEnable = s.vfEnable := rfl
@[simp] theorem State.send_numVfs (o : Out) : (s.send o).numVfs = s.numVfs := rfl
@[simp] theorem State.send_flash (o : Out) : (s.send o).flash = s.flash := rfl
@[simp] theorem State.send_fuses (o : Out) : (s.send o).fuses = s.fuses := rfl
@[simp] theorem State.send_pins (o : Out) : (s.send o).pins = s.pins := rfl
@[simp] theorem State.send_boot (o : Out) : (s.send o).boot = s.boot := rfl
@[simp] theorem State.send_tick (o : Out) : (s.send o).tick = s.tick := rfl
@[simp] theorem State.send_sched (o : Out) : (s.send o).sched = s.sched := rfl
@[simp] theorem State.send_tiles (o : Out) : (s.send o).tiles = s.tiles := rfl
@[simp] theorem State.send_hbm (o : Out) : (s.send o).hbm = s.hbm := rfl
@[simp] theorem State.send_hbmBad (o : Out) : (s.send o).hbmBad = s.hbmBad := rfl
@[simp] theorem State.send_msc (o : Out) : (s.send o).msc = s.msc := rfl
@[simp] theorem State.send_drc (o : Out) : (s.send o).drc = s.drc := rfl
@[simp] theorem State.send_ctrs (o : Out) : (s.send o).ctrs = s.ctrs := rfl
@[simp] theorem State.send_lnk (o : Out) : (s.send o).lnk = s.lnk := rfl
@[simp] theorem State.send_pair (o : Out) : (s.send o).pair = s.pair := rfl
@[simp] theorem State.send_twin (o : Out) : (s.send o).twin = s.twin := rfl
@[simp] theorem State.send_recov (o : Out) : (s.send o).recov = s.recov := rfl
@[simp] theorem State.send_front (o : Out) : (s.send o).front = s.front := rfl
@[simp] theorem State.send_cdx (o : Out) : (s.send o).cdx = s.cdx := rfl
@[simp] theorem State.send_lrd (o : Out) : (s.send o).lrd = s.lrd := rfl
@[simp] theorem State.send_ladles (o : Out) : (s.send o).ladles = s.ladles := rfl
@[simp] theorem State.send_commonDigs (o : Out) : (s.send o).commonDigs = s.commonDigs := rfl
@[simp] theorem State.send_publish (o : Out) : (s.send o).publish = s.publish := rfl
@[simp] theorem State.send_unmapped (o : Out) : (s.send o).unmapped = s.unmapped := rfl
@[simp] theorem State.send_coll (o : Out) : (s.send o).coll = s.coll := rfl
@[simp] theorem State.send_acc (o : Out) : (s.send o).acc = s.acc := rfl
@[simp] theorem State.send_pwr (o : Out) : (s.send o).pwr = s.pwr := rfl
@[simp] theorem State.send_vit (o : Out) : (s.send o).vit = s.vit := rfl
@[simp] theorem State.send_aoc (o : Out) : (s.send o).aoc = s.aoc := rfl
@[simp] theorem State.send_freeCtr (o : Out) : (s.send o).freeCtr = s.freeCtr := rfl
@[simp] theorem State.send_pending (o : Out) : (s.send o).pending = s.pending := rfl
@[simp] theorem State.send_outbox (o : Out) : (s.send o).outbox = s.outbox ++ [o] := rfl
@[simp] theorem State.fresh_regs : s.fresh.2.regs = s.regs := rfl
@[simp] theorem State.fresh_pf : s.fresh.2.pf = s.pf := rfl
@[simp] theorem State.fresh_vfs : s.fresh.2.vfs = s.vfs := rfl
@[simp] theorem State.fresh_vfEnable : s.fresh.2.vfEnable = s.vfEnable := rfl
@[simp] theorem State.fresh_numVfs : s.fresh.2.numVfs = s.numVfs := rfl
@[simp] theorem State.fresh_flash : s.fresh.2.flash = s.flash := rfl
@[simp] theorem State.fresh_fuses : s.fresh.2.fuses = s.fuses := rfl
@[simp] theorem State.fresh_pins : s.fresh.2.pins = s.pins := rfl
@[simp] theorem State.fresh_boot : s.fresh.2.boot = s.boot := rfl
@[simp] theorem State.fresh_tick : s.fresh.2.tick = s.tick := rfl
@[simp] theorem State.fresh_sched : s.fresh.2.sched = s.sched := rfl
@[simp] theorem State.fresh_tiles : s.fresh.2.tiles = s.tiles := rfl
@[simp] theorem State.fresh_hbm : s.fresh.2.hbm = s.hbm := rfl
@[simp] theorem State.fresh_hbmBad : s.fresh.2.hbmBad = s.hbmBad := rfl
@[simp] theorem State.fresh_msc : s.fresh.2.msc = s.msc := rfl
@[simp] theorem State.fresh_drc : s.fresh.2.drc = s.drc := rfl
@[simp] theorem State.fresh_ctrs : s.fresh.2.ctrs = s.ctrs := rfl
@[simp] theorem State.fresh_lnk : s.fresh.2.lnk = s.lnk := rfl
@[simp] theorem State.fresh_pair : s.fresh.2.pair = s.pair := rfl
@[simp] theorem State.fresh_twin : s.fresh.2.twin = s.twin := rfl
@[simp] theorem State.fresh_recov : s.fresh.2.recov = s.recov := rfl
@[simp] theorem State.fresh_front : s.fresh.2.front = s.front := rfl
@[simp] theorem State.fresh_cdx : s.fresh.2.cdx = s.cdx := rfl
@[simp] theorem State.fresh_lrd : s.fresh.2.lrd = s.lrd := rfl
@[simp] theorem State.fresh_ladles : s.fresh.2.ladles = s.ladles := rfl
@[simp] theorem State.fresh_commonDigs : s.fresh.2.commonDigs = s.commonDigs := rfl
@[simp] theorem State.fresh_publish : s.fresh.2.publish = s.publish := rfl
@[simp] theorem State.fresh_unmapped : s.fresh.2.unmapped = s.unmapped := rfl
@[simp] theorem State.fresh_coll : s.fresh.2.coll = s.coll := rfl
@[simp] theorem State.fresh_acc : s.fresh.2.acc = s.acc := rfl
@[simp] theorem State.fresh_pwr : s.fresh.2.pwr = s.pwr := rfl
@[simp] theorem State.fresh_vit : s.fresh.2.vit = s.vit := rfl
@[simp] theorem State.fresh_aoc : s.fresh.2.aoc = s.aoc := rfl
@[simp] theorem State.fresh_outbox : s.fresh.2.outbox = s.outbox := rfl
@[simp] theorem State.fresh_pending : s.fresh.2.pending = s.pending := rfl
@[simp] theorem State.fresh_freeCtr : s.fresh.2.freeCtr = s.freeCtr + 1 := rfl
@[simp] theorem State.free_regs : s.free.2.regs = s.regs := rfl
@[simp] theorem State.free_pf : s.free.2.pf = s.pf := rfl
@[simp] theorem State.free_vfs : s.free.2.vfs = s.vfs := rfl
@[simp] theorem State.free_vfEnable : s.free.2.vfEnable = s.vfEnable := rfl
@[simp] theorem State.free_numVfs : s.free.2.numVfs = s.numVfs := rfl
@[simp] theorem State.free_flash : s.free.2.flash = s.flash := rfl
@[simp] theorem State.free_fuses : s.free.2.fuses = s.fuses := rfl
@[simp] theorem State.free_pins : s.free.2.pins = s.pins := rfl
@[simp] theorem State.free_boot : s.free.2.boot = s.boot := rfl
@[simp] theorem State.free_tick : s.free.2.tick = s.tick := rfl
@[simp] theorem State.free_sched : s.free.2.sched = s.sched := rfl
@[simp] theorem State.free_tiles : s.free.2.tiles = s.tiles := rfl
@[simp] theorem State.free_hbm : s.free.2.hbm = s.hbm := rfl
@[simp] theorem State.free_hbmBad : s.free.2.hbmBad = s.hbmBad := rfl
@[simp] theorem State.free_msc : s.free.2.msc = s.msc := rfl
@[simp] theorem State.free_drc : s.free.2.drc = s.drc := rfl
@[simp] theorem State.free_ctrs : s.free.2.ctrs = s.ctrs := rfl
@[simp] theorem State.free_lnk : s.free.2.lnk = s.lnk := rfl
@[simp] theorem State.free_pair : s.free.2.pair = s.pair := rfl
@[simp] theorem State.free_twin : s.free.2.twin = s.twin := rfl
@[simp] theorem State.free_recov : s.free.2.recov = s.recov := rfl
@[simp] theorem State.free_front : s.free.2.front = s.front := rfl
@[simp] theorem State.free_cdx : s.free.2.cdx = s.cdx := rfl
@[simp] theorem State.free_lrd : s.free.2.lrd = s.lrd := rfl
@[simp] theorem State.free_ladles : s.free.2.ladles = s.ladles := rfl
@[simp] theorem State.free_commonDigs : s.free.2.commonDigs = s.commonDigs := rfl
@[simp] theorem State.free_publish : s.free.2.publish = s.publish := rfl
@[simp] theorem State.free_unmapped : s.free.2.unmapped = s.unmapped := rfl
@[simp] theorem State.free_coll : s.free.2.coll = s.coll := rfl
@[simp] theorem State.free_acc : s.free.2.acc = s.acc := rfl
@[simp] theorem State.free_pwr : s.free.2.pwr = s.pwr := rfl
@[simp] theorem State.free_vit : s.free.2.vit = s.vit := rfl
@[simp] theorem State.free_aoc : s.free.2.aoc = s.aoc := rfl
@[simp] theorem State.free_outbox : s.free.2.outbox = s.outbox := rfl
@[simp] theorem State.free_pending : s.free.2.pending = s.pending := rfl
@[simp] theorem State.free_freeCtr : s.free.2.freeCtr = s.freeCtr + 1 := rfl

/-! ## Events, interrupts and fault entries -/

/-- What a report leaves alone: everything but registers, the interrupt state of the functions, the trace, what was sent and the
count of free values. -/
structure Reports (s t : State) : Prop where
  vfEnable : t.vfEnable = s.vfEnable
  numVfs : t.numVfs = s.numVfs
  flash : t.flash = s.flash
  fuses : t.fuses = s.fuses
  tick : t.tick = s.tick
  sched : t.sched = s.sched
  tiles : t.tiles = s.tiles
  hbmBad : t.hbmBad = s.hbmBad
  msc : t.msc = s.msc
  drc : t.drc = s.drc
  ctrs : t.ctrs = s.ctrs
  lnk : t.lnk = s.lnk
  pair : t.pair = s.pair
  twin : t.twin = s.twin
  recov : t.recov = s.recov
  front : t.front = s.front
  cdx : t.cdx = s.cdx
  lrd : t.lrd = s.lrd
  ladles : t.ladles = s.ladles
  commonDigs : t.commonDigs = s.commonDigs
  publish : t.publish = s.publish
  unmapped : t.unmapped = s.unmapped
  coll : t.coll = s.coll
  acc : t.acc = s.acc
  pwr : t.pwr = s.pwr
  pending : t.pending = s.pending
  boot : t.boot = s.boot
  pins : t.pins = s.pins
  aoc : t.aoc = s.aoc

theorem Reports.refl (s : State) : Reports s s := by constructor <;> rfl

theorem Reports.trans {s t u : State} (h : Reports s t) (g : Reports t u) : Reports s u where
  vfEnable := g.vfEnable.trans h.vfEnable
  numVfs := g.numVfs.trans h.numVfs
  flash := g.flash.trans h.flash
  fuses := g.fuses.trans h.fuses
  tick := g.tick.trans h.tick
  sched := g.sched.trans h.sched
  tiles := g.tiles.trans h.tiles
  hbmBad := g.hbmBad.trans h.hbmBad
  msc := g.msc.trans h.msc
  drc := g.drc.trans h.drc
  ctrs := g.ctrs.trans h.ctrs
  lnk := g.lnk.trans h.lnk
  pair := g.pair.trans h.pair
  twin := g.twin.trans h.twin
  recov := g.recov.trans h.recov
  front := g.front.trans h.front
  cdx := g.cdx.trans h.cdx
  lrd := g.lrd.trans h.lrd
  ladles := g.ladles.trans h.ladles
  commonDigs := g.commonDigs.trans h.commonDigs
  publish := g.publish.trans h.publish
  unmapped := g.unmapped.trans h.unmapped
  coll := g.coll.trans h.coll
  acc := g.acc.trans h.acc
  pwr := g.pwr.trans h.pwr
  pending := g.pending.trans h.pending
  boot := g.boot.trans h.boot
  pins := g.pins.trans h.pins
  aoc := g.aoc.trans h.aoc

theorem Reports.ite {s a b : State} {c : Prop} [Decidable c] (ha : Reports s a) (hb : Reports s b) : Reports s (if c then a else b) := by
  split <;> assumption

theorem RegsOnly.reports {s t : State} (h : RegsOnly s t) : Reports s t := by
  unfold RegsOnly at h
  rw [h]
  constructor <;> rfl

theorem State.setWord_reports (off : Nat) (v : W32) : Reports s (s.setWord off v) := by constructor <;> rfl

theorem State.setFld_reports (off lo n v : Nat) : Reports s (s.setFld off lo n v) := by constructor <;> rfl

theorem State.setFlag_reports (off b : Nat) (v : Bool) : Reports s (s.setFlag off b v) := by constructor <;> rfl

theorem State.bump_reports (off n : Nat) : Reports s (s.bump off n) := by constructor <;> rfl

theorem State.setBytes_reports (off : Nat) (bs : List Byte) : Reports s (s.setBytes off bs) := (s.setBytes_regsOnly off bs).reports

theorem State.updFn_reports (fn : Fn) (f : FnState → FnState) : Reports s (s.updFn fn f) := by
  cases fn <;> constructor <;> rfl

theorem State.interrupt_reports (fn : Fn) (v : Nat) : Reports s (s.interrupt fn v) :=
  Reports.ite (s.updFn_reports fn _) (by constructor <;> rfl)

theorem State.modEvent_reports (b : Nat) : Reports s (s.modEvent b) :=
  Reports.ite (Reports.trans (by constructor <;> rfl) (State.interrupt_reports _ _ _)) (by constructor <;> rfl)

theorem State.tntEvent_reports (t b : Nat) : Reports s (s.tntEvent t b) :=
  Reports.ite (Reports.trans (by constructor <;> rfl) (State.interrupt_reports _ _ _)) (by constructor <;> rfl)

theorem State.sendFrame_reports : Reports s s.sendFrame := by
  unfold State.sendFrame
  extract_lets body bytes s1
  clear_value body bytes
  constructor <;> rfl

theorem State.traceBuf_reports (e : List Byte) : Reports s (s.traceBuf e) := by
  unfold State.traceBuf
  split
  · exact Reports.refl s
  · split
    · constructor <;> rfl
    · extract_lets n s1 s2
      have h1 : Reports s s2 := by constructor <;> rfl
      clear_value s2
      exact h1.trans (Reports.ite (by constructor <;> rfl) (Reports.refl _))

theorem State.putEvent_reports (e : List Byte) : Reports s (s.putEvent e) := by
  unfold State.putEvent
  extract_lets a
  have h : Reports s a := Reports.ite (s.traceBuf_reports e) (Reports.refl s)
  clear_value a
  split
  · rename_i src s1 _
    have h1 : Reports s s1 := h.trans (by constructor <;> rfl)
    clear_value s1
    exact h1.trans (Reports.ite s1.sendFrame_reports (Reports.refl _))
  · exact h

theorem State.event_reports (kind : Nat) (ten tile : Option Nat) (n : Nat) (data : List Byte) (hide : Nat × Nat) :
    Reports s (s.event kind ten tile n data hide) := by
  unfold State.event
  split
  · exact Reports.refl s
  generalize he : s.free = e
  obtain ⟨time, s1⟩ := e
  have h1 : Reports s s1 := by
    have : s1 = s.free.2 := by rw [he]
    rw [this]
    constructor <;> rfl
  clear he
  dsimp -zeta -zetaHave only
  extract_lets +onlyGivenNames src s2
  have h2 : Reports s s2 := h1.trans (Reports.ite (Reports.refl _) (by constructor <;> rfl))
  clear_value s2
  split
  · exact h2.trans (by constructor <;> rfl)
  extract_lets +onlyGivenNames masked data' lost src2 s3 s4
  have h3 : Reports s s3 := h2.trans (by constructor <;> rfl)
  clear_value s3
  have h4 : Reports s s4 := h3.trans (Reports.ite (State.putEvent_reports _ _) (Reports.refl _))
  clear_value s4
  exact h4.trans (State.putEvent_reports _ _)

theorem State.faultTrace_reports (ten : Option Nat) (code : Nat) (x : Info) : Reports s (s.faultTrace ten code x) := s.event_reports _ _ _ _ _ _

theorem State.tenantEntry_reports (t code : Nat) (x : Info) : Reports s (s.tenantEntry t code x) := by
  unfold State.tenantEntry
  extract_lets e empty s1 s2 s3 s4
  have h1 : Reports s s1 := Reports.ite ((s.setBytes_reports _ _).trans (State.setFld_reports _ _ _ _ _)) (s.bump_reports _ _)
  clear_value s1
  have h2 : Reports s s2 := h1.trans ((s1.setBytes_reports _ _).trans (State.setFld_reports _ _ _ _ _))
  clear_value s2
  have h3 : Reports s s3 := h2.trans (s2.setFld_reports _ _ _ _)
  clear_value s3
  have h4 : Reports s s4 := h3.trans (Reports.ite (s3.setFlag_reports _ _ _) (Reports.refl _))
  clear_value s4
  exact h4.trans ((s4.tntEvent_reports _ _).trans (State.faultTrace_reports _ _ _ _))

theorem State.moduleEntry_reports (code : Nat) (x : Info) : Reports s (s.moduleEntry code x) := by
  unfold State.moduleEntry
  extract_lets e empty s1
  have h1 : Reports s s1 := Reports.ite (s.setBytes_regsOnly _ _).reports (by constructor <;> rfl)
  clear_value s1
  exact h1.trans ((s1.setBytes_regsOnly _ _).reports.trans ((State.modEvent_reports _ _).trans (State.faultTrace_reports _ _ _ _)))

theorem State.enter_reports (t code : Nat) (x : Info) : Reports s (s.enter t code x) := by
  unfold State.enter
  generalize faultClass code = k
  obtain ⟨_, ten, mod⟩ := k
  dsimp -zeta -zetaHave only
  extract_lets s1
  have h1 : Reports s s1 := Reports.ite (s.tenantEntry_reports _ _ _) (Reports.refl _)
  clear_value s1
  exact h1.trans (Reports.ite (s1.moduleEntry_reports _ _) (Reports.refl _))

theorem State.note_reports (code : Nat) (x : Info) : Reports s (s.note code x) := s.moduleEntry_reports code x

@[simp] theorem State.interrupt_vfEnable (fn : Fn) (v : Nat) : (s.interrupt fn v).vfEnable = s.vfEnable := (s.interrupt_reports fn v).vfEnable
@[simp] theorem State.interrupt_numVfs (fn : Fn) (v : Nat) : (s.interrupt fn v).numVfs = s.numVfs := (s.interrupt_reports fn v).numVfs
@[simp] theorem State.interrupt_flash (fn : Fn) (v : Nat) : (s.interrupt fn v).flash = s.flash := (s.interrupt_reports fn v).flash
@[simp] theorem State.interrupt_fuses (fn : Fn) (v : Nat) : (s.interrupt fn v).fuses = s.fuses := (s.interrupt_reports fn v).fuses
@[simp] theorem State.interrupt_tick (fn : Fn) (v : Nat) : (s.interrupt fn v).tick = s.tick := (s.interrupt_reports fn v).tick
@[simp] theorem State.interrupt_sched (fn : Fn) (v : Nat) : (s.interrupt fn v).sched = s.sched := (s.interrupt_reports fn v).sched
@[simp] theorem State.interrupt_tiles (fn : Fn) (v : Nat) : (s.interrupt fn v).tiles = s.tiles := (s.interrupt_reports fn v).tiles
@[simp] theorem State.interrupt_hbmBad (fn : Fn) (v : Nat) : (s.interrupt fn v).hbmBad = s.hbmBad := (s.interrupt_reports fn v).hbmBad
@[simp] theorem State.interrupt_msc (fn : Fn) (v : Nat) : (s.interrupt fn v).msc = s.msc := (s.interrupt_reports fn v).msc
@[simp] theorem State.interrupt_drc (fn : Fn) (v : Nat) : (s.interrupt fn v).drc = s.drc := (s.interrupt_reports fn v).drc
@[simp] theorem State.interrupt_ctrs (fn : Fn) (v : Nat) : (s.interrupt fn v).ctrs = s.ctrs := (s.interrupt_reports fn v).ctrs
@[simp] theorem State.interrupt_lnk (fn : Fn) (v : Nat) : (s.interrupt fn v).lnk = s.lnk := (s.interrupt_reports fn v).lnk
@[simp] theorem State.interrupt_pair (fn : Fn) (v : Nat) : (s.interrupt fn v).pair = s.pair := (s.interrupt_reports fn v).pair
@[simp] theorem State.interrupt_twin (fn : Fn) (v : Nat) : (s.interrupt fn v).twin = s.twin := (s.interrupt_reports fn v).twin
@[simp] theorem State.interrupt_recov (fn : Fn) (v : Nat) : (s.interrupt fn v).recov = s.recov := (s.interrupt_reports fn v).recov
@[simp] theorem State.interrupt_front (fn : Fn) (v : Nat) : (s.interrupt fn v).front = s.front := (s.interrupt_reports fn v).front
@[simp] theorem State.interrupt_cdx (fn : Fn) (v : Nat) : (s.interrupt fn v).cdx = s.cdx := (s.interrupt_reports fn v).cdx
@[simp] theorem State.interrupt_lrd (fn : Fn) (v : Nat) : (s.interrupt fn v).lrd = s.lrd := (s.interrupt_reports fn v).lrd
@[simp] theorem State.interrupt_ladles (fn : Fn) (v : Nat) : (s.interrupt fn v).ladles = s.ladles := (s.interrupt_reports fn v).ladles
@[simp] theorem State.interrupt_commonDigs (fn : Fn) (v : Nat) : (s.interrupt fn v).commonDigs = s.commonDigs := (s.interrupt_reports fn v).commonDigs
@[simp] theorem State.interrupt_publish (fn : Fn) (v : Nat) : (s.interrupt fn v).publish = s.publish := (s.interrupt_reports fn v).publish
@[simp] theorem State.interrupt_unmapped (fn : Fn) (v : Nat) : (s.interrupt fn v).unmapped = s.unmapped := (s.interrupt_reports fn v).unmapped
@[simp] theorem State.interrupt_coll (fn : Fn) (v : Nat) : (s.interrupt fn v).coll = s.coll := (s.interrupt_reports fn v).coll
@[simp] theorem State.interrupt_acc (fn : Fn) (v : Nat) : (s.interrupt fn v).acc = s.acc := (s.interrupt_reports fn v).acc
@[simp] theorem State.interrupt_pwr (fn : Fn) (v : Nat) : (s.interrupt fn v).pwr = s.pwr := (s.interrupt_reports fn v).pwr
@[simp] theorem State.interrupt_pending (fn : Fn) (v : Nat) : (s.interrupt fn v).pending = s.pending := (s.interrupt_reports fn v).pending
@[simp] theorem State.interrupt_boot (fn : Fn) (v : Nat) : (s.interrupt fn v).boot = s.boot := (s.interrupt_reports fn v).boot
@[simp] theorem State.interrupt_pins (fn : Fn) (v : Nat) : (s.interrupt fn v).pins = s.pins := (s.interrupt_reports fn v).pins
@[simp] theorem State.interrupt_aoc (fn : Fn) (v : Nat) : (s.interrupt fn v).aoc = s.aoc := (s.interrupt_reports fn v).aoc

@[simp] theorem State.modEvent_vfEnable (b : Nat) : (s.modEvent b).vfEnable = s.vfEnable := (s.modEvent_reports b).vfEnable
@[simp] theorem State.modEvent_numVfs (b : Nat) : (s.modEvent b).numVfs = s.numVfs := (s.modEvent_reports b).numVfs
@[simp] theorem State.modEvent_flash (b : Nat) : (s.modEvent b).flash = s.flash := (s.modEvent_reports b).flash
@[simp] theorem State.modEvent_fuses (b : Nat) : (s.modEvent b).fuses = s.fuses := (s.modEvent_reports b).fuses
@[simp] theorem State.modEvent_tick (b : Nat) : (s.modEvent b).tick = s.tick := (s.modEvent_reports b).tick
@[simp] theorem State.modEvent_sched (b : Nat) : (s.modEvent b).sched = s.sched := (s.modEvent_reports b).sched
@[simp] theorem State.modEvent_tiles (b : Nat) : (s.modEvent b).tiles = s.tiles := (s.modEvent_reports b).tiles
@[simp] theorem State.modEvent_hbmBad (b : Nat) : (s.modEvent b).hbmBad = s.hbmBad := (s.modEvent_reports b).hbmBad
@[simp] theorem State.modEvent_msc (b : Nat) : (s.modEvent b).msc = s.msc := (s.modEvent_reports b).msc
@[simp] theorem State.modEvent_drc (b : Nat) : (s.modEvent b).drc = s.drc := (s.modEvent_reports b).drc
@[simp] theorem State.modEvent_ctrs (b : Nat) : (s.modEvent b).ctrs = s.ctrs := (s.modEvent_reports b).ctrs
@[simp] theorem State.modEvent_lnk (b : Nat) : (s.modEvent b).lnk = s.lnk := (s.modEvent_reports b).lnk
@[simp] theorem State.modEvent_pair (b : Nat) : (s.modEvent b).pair = s.pair := (s.modEvent_reports b).pair
@[simp] theorem State.modEvent_twin (b : Nat) : (s.modEvent b).twin = s.twin := (s.modEvent_reports b).twin
@[simp] theorem State.modEvent_recov (b : Nat) : (s.modEvent b).recov = s.recov := (s.modEvent_reports b).recov
@[simp] theorem State.modEvent_front (b : Nat) : (s.modEvent b).front = s.front := (s.modEvent_reports b).front
@[simp] theorem State.modEvent_cdx (b : Nat) : (s.modEvent b).cdx = s.cdx := (s.modEvent_reports b).cdx
@[simp] theorem State.modEvent_lrd (b : Nat) : (s.modEvent b).lrd = s.lrd := (s.modEvent_reports b).lrd
@[simp] theorem State.modEvent_ladles (b : Nat) : (s.modEvent b).ladles = s.ladles := (s.modEvent_reports b).ladles
@[simp] theorem State.modEvent_commonDigs (b : Nat) : (s.modEvent b).commonDigs = s.commonDigs := (s.modEvent_reports b).commonDigs
@[simp] theorem State.modEvent_publish (b : Nat) : (s.modEvent b).publish = s.publish := (s.modEvent_reports b).publish
@[simp] theorem State.modEvent_unmapped (b : Nat) : (s.modEvent b).unmapped = s.unmapped := (s.modEvent_reports b).unmapped
@[simp] theorem State.modEvent_coll (b : Nat) : (s.modEvent b).coll = s.coll := (s.modEvent_reports b).coll
@[simp] theorem State.modEvent_acc (b : Nat) : (s.modEvent b).acc = s.acc := (s.modEvent_reports b).acc
@[simp] theorem State.modEvent_pwr (b : Nat) : (s.modEvent b).pwr = s.pwr := (s.modEvent_reports b).pwr
@[simp] theorem State.modEvent_pending (b : Nat) : (s.modEvent b).pending = s.pending := (s.modEvent_reports b).pending
@[simp] theorem State.modEvent_boot (b : Nat) : (s.modEvent b).boot = s.boot := (s.modEvent_reports b).boot
@[simp] theorem State.modEvent_pins (b : Nat) : (s.modEvent b).pins = s.pins := (s.modEvent_reports b).pins
@[simp] theorem State.modEvent_aoc (b : Nat) : (s.modEvent b).aoc = s.aoc := (s.modEvent_reports b).aoc

@[simp] theorem State.tntEvent_vfEnable (t b : Nat) : (s.tntEvent t b).vfEnable = s.vfEnable := (s.tntEvent_reports t b).vfEnable
@[simp] theorem State.tntEvent_numVfs (t b : Nat) : (s.tntEvent t b).numVfs = s.numVfs := (s.tntEvent_reports t b).numVfs
@[simp] theorem State.tntEvent_flash (t b : Nat) : (s.tntEvent t b).flash = s.flash := (s.tntEvent_reports t b).flash
@[simp] theorem State.tntEvent_fuses (t b : Nat) : (s.tntEvent t b).fuses = s.fuses := (s.tntEvent_reports t b).fuses
@[simp] theorem State.tntEvent_tick (t b : Nat) : (s.tntEvent t b).tick = s.tick := (s.tntEvent_reports t b).tick
@[simp] theorem State.tntEvent_sched (t b : Nat) : (s.tntEvent t b).sched = s.sched := (s.tntEvent_reports t b).sched
@[simp] theorem State.tntEvent_tiles (t b : Nat) : (s.tntEvent t b).tiles = s.tiles := (s.tntEvent_reports t b).tiles
@[simp] theorem State.tntEvent_hbmBad (t b : Nat) : (s.tntEvent t b).hbmBad = s.hbmBad := (s.tntEvent_reports t b).hbmBad
@[simp] theorem State.tntEvent_msc (t b : Nat) : (s.tntEvent t b).msc = s.msc := (s.tntEvent_reports t b).msc
@[simp] theorem State.tntEvent_drc (t b : Nat) : (s.tntEvent t b).drc = s.drc := (s.tntEvent_reports t b).drc
@[simp] theorem State.tntEvent_ctrs (t b : Nat) : (s.tntEvent t b).ctrs = s.ctrs := (s.tntEvent_reports t b).ctrs
@[simp] theorem State.tntEvent_lnk (t b : Nat) : (s.tntEvent t b).lnk = s.lnk := (s.tntEvent_reports t b).lnk
@[simp] theorem State.tntEvent_pair (t b : Nat) : (s.tntEvent t b).pair = s.pair := (s.tntEvent_reports t b).pair
@[simp] theorem State.tntEvent_twin (t b : Nat) : (s.tntEvent t b).twin = s.twin := (s.tntEvent_reports t b).twin
@[simp] theorem State.tntEvent_recov (t b : Nat) : (s.tntEvent t b).recov = s.recov := (s.tntEvent_reports t b).recov
@[simp] theorem State.tntEvent_front (t b : Nat) : (s.tntEvent t b).front = s.front := (s.tntEvent_reports t b).front
@[simp] theorem State.tntEvent_cdx (t b : Nat) : (s.tntEvent t b).cdx = s.cdx := (s.tntEvent_reports t b).cdx
@[simp] theorem State.tntEvent_lrd (t b : Nat) : (s.tntEvent t b).lrd = s.lrd := (s.tntEvent_reports t b).lrd
@[simp] theorem State.tntEvent_ladles (t b : Nat) : (s.tntEvent t b).ladles = s.ladles := (s.tntEvent_reports t b).ladles
@[simp] theorem State.tntEvent_commonDigs (t b : Nat) : (s.tntEvent t b).commonDigs = s.commonDigs := (s.tntEvent_reports t b).commonDigs
@[simp] theorem State.tntEvent_publish (t b : Nat) : (s.tntEvent t b).publish = s.publish := (s.tntEvent_reports t b).publish
@[simp] theorem State.tntEvent_unmapped (t b : Nat) : (s.tntEvent t b).unmapped = s.unmapped := (s.tntEvent_reports t b).unmapped
@[simp] theorem State.tntEvent_coll (t b : Nat) : (s.tntEvent t b).coll = s.coll := (s.tntEvent_reports t b).coll
@[simp] theorem State.tntEvent_acc (t b : Nat) : (s.tntEvent t b).acc = s.acc := (s.tntEvent_reports t b).acc
@[simp] theorem State.tntEvent_pwr (t b : Nat) : (s.tntEvent t b).pwr = s.pwr := (s.tntEvent_reports t b).pwr
@[simp] theorem State.tntEvent_pending (t b : Nat) : (s.tntEvent t b).pending = s.pending := (s.tntEvent_reports t b).pending
@[simp] theorem State.tntEvent_boot (t b : Nat) : (s.tntEvent t b).boot = s.boot := (s.tntEvent_reports t b).boot
@[simp] theorem State.tntEvent_pins (t b : Nat) : (s.tntEvent t b).pins = s.pins := (s.tntEvent_reports t b).pins
@[simp] theorem State.tntEvent_aoc (t b : Nat) : (s.tntEvent t b).aoc = s.aoc := (s.tntEvent_reports t b).aoc

@[simp] theorem State.event_vfEnable (kind : Nat) (ten tile : Option Nat) (n : Nat) (data : List Byte) (hide : Nat × Nat) : (s.event kind ten tile n data hide).vfEnable = s.vfEnable := (s.event_reports kind ten tile n data hide).vfEnable
@[simp] theorem State.event_numVfs (kind : Nat) (ten tile : Option Nat) (n : Nat) (data : List Byte) (hide : Nat × Nat) : (s.event kind ten tile n data hide).numVfs = s.numVfs := (s.event_reports kind ten tile n data hide).numVfs
@[simp] theorem State.event_flash (kind : Nat) (ten tile : Option Nat) (n : Nat) (data : List Byte) (hide : Nat × Nat) : (s.event kind ten tile n data hide).flash = s.flash := (s.event_reports kind ten tile n data hide).flash
@[simp] theorem State.event_fuses (kind : Nat) (ten tile : Option Nat) (n : Nat) (data : List Byte) (hide : Nat × Nat) : (s.event kind ten tile n data hide).fuses = s.fuses := (s.event_reports kind ten tile n data hide).fuses
@[simp] theorem State.event_tick (kind : Nat) (ten tile : Option Nat) (n : Nat) (data : List Byte) (hide : Nat × Nat) : (s.event kind ten tile n data hide).tick = s.tick := (s.event_reports kind ten tile n data hide).tick
@[simp] theorem State.event_sched (kind : Nat) (ten tile : Option Nat) (n : Nat) (data : List Byte) (hide : Nat × Nat) : (s.event kind ten tile n data hide).sched = s.sched := (s.event_reports kind ten tile n data hide).sched
@[simp] theorem State.event_tiles (kind : Nat) (ten tile : Option Nat) (n : Nat) (data : List Byte) (hide : Nat × Nat) : (s.event kind ten tile n data hide).tiles = s.tiles := (s.event_reports kind ten tile n data hide).tiles
@[simp] theorem State.event_hbmBad (kind : Nat) (ten tile : Option Nat) (n : Nat) (data : List Byte) (hide : Nat × Nat) : (s.event kind ten tile n data hide).hbmBad = s.hbmBad := (s.event_reports kind ten tile n data hide).hbmBad
@[simp] theorem State.event_msc (kind : Nat) (ten tile : Option Nat) (n : Nat) (data : List Byte) (hide : Nat × Nat) : (s.event kind ten tile n data hide).msc = s.msc := (s.event_reports kind ten tile n data hide).msc
@[simp] theorem State.event_drc (kind : Nat) (ten tile : Option Nat) (n : Nat) (data : List Byte) (hide : Nat × Nat) : (s.event kind ten tile n data hide).drc = s.drc := (s.event_reports kind ten tile n data hide).drc
@[simp] theorem State.event_ctrs (kind : Nat) (ten tile : Option Nat) (n : Nat) (data : List Byte) (hide : Nat × Nat) : (s.event kind ten tile n data hide).ctrs = s.ctrs := (s.event_reports kind ten tile n data hide).ctrs
@[simp] theorem State.event_lnk (kind : Nat) (ten tile : Option Nat) (n : Nat) (data : List Byte) (hide : Nat × Nat) : (s.event kind ten tile n data hide).lnk = s.lnk := (s.event_reports kind ten tile n data hide).lnk
@[simp] theorem State.event_pair (kind : Nat) (ten tile : Option Nat) (n : Nat) (data : List Byte) (hide : Nat × Nat) : (s.event kind ten tile n data hide).pair = s.pair := (s.event_reports kind ten tile n data hide).pair
@[simp] theorem State.event_twin (kind : Nat) (ten tile : Option Nat) (n : Nat) (data : List Byte) (hide : Nat × Nat) : (s.event kind ten tile n data hide).twin = s.twin := (s.event_reports kind ten tile n data hide).twin
@[simp] theorem State.event_recov (kind : Nat) (ten tile : Option Nat) (n : Nat) (data : List Byte) (hide : Nat × Nat) : (s.event kind ten tile n data hide).recov = s.recov := (s.event_reports kind ten tile n data hide).recov
@[simp] theorem State.event_front (kind : Nat) (ten tile : Option Nat) (n : Nat) (data : List Byte) (hide : Nat × Nat) : (s.event kind ten tile n data hide).front = s.front := (s.event_reports kind ten tile n data hide).front
@[simp] theorem State.event_cdx (kind : Nat) (ten tile : Option Nat) (n : Nat) (data : List Byte) (hide : Nat × Nat) : (s.event kind ten tile n data hide).cdx = s.cdx := (s.event_reports kind ten tile n data hide).cdx
@[simp] theorem State.event_lrd (kind : Nat) (ten tile : Option Nat) (n : Nat) (data : List Byte) (hide : Nat × Nat) : (s.event kind ten tile n data hide).lrd = s.lrd := (s.event_reports kind ten tile n data hide).lrd
@[simp] theorem State.event_ladles (kind : Nat) (ten tile : Option Nat) (n : Nat) (data : List Byte) (hide : Nat × Nat) : (s.event kind ten tile n data hide).ladles = s.ladles := (s.event_reports kind ten tile n data hide).ladles
@[simp] theorem State.event_commonDigs (kind : Nat) (ten tile : Option Nat) (n : Nat) (data : List Byte) (hide : Nat × Nat) : (s.event kind ten tile n data hide).commonDigs = s.commonDigs := (s.event_reports kind ten tile n data hide).commonDigs
@[simp] theorem State.event_publish (kind : Nat) (ten tile : Option Nat) (n : Nat) (data : List Byte) (hide : Nat × Nat) : (s.event kind ten tile n data hide).publish = s.publish := (s.event_reports kind ten tile n data hide).publish
@[simp] theorem State.event_unmapped (kind : Nat) (ten tile : Option Nat) (n : Nat) (data : List Byte) (hide : Nat × Nat) : (s.event kind ten tile n data hide).unmapped = s.unmapped := (s.event_reports kind ten tile n data hide).unmapped
@[simp] theorem State.event_coll (kind : Nat) (ten tile : Option Nat) (n : Nat) (data : List Byte) (hide : Nat × Nat) : (s.event kind ten tile n data hide).coll = s.coll := (s.event_reports kind ten tile n data hide).coll
@[simp] theorem State.event_acc (kind : Nat) (ten tile : Option Nat) (n : Nat) (data : List Byte) (hide : Nat × Nat) : (s.event kind ten tile n data hide).acc = s.acc := (s.event_reports kind ten tile n data hide).acc
@[simp] theorem State.event_pwr (kind : Nat) (ten tile : Option Nat) (n : Nat) (data : List Byte) (hide : Nat × Nat) : (s.event kind ten tile n data hide).pwr = s.pwr := (s.event_reports kind ten tile n data hide).pwr
@[simp] theorem State.event_pending (kind : Nat) (ten tile : Option Nat) (n : Nat) (data : List Byte) (hide : Nat × Nat) : (s.event kind ten tile n data hide).pending = s.pending := (s.event_reports kind ten tile n data hide).pending
@[simp] theorem State.event_boot (kind : Nat) (ten tile : Option Nat) (n : Nat) (data : List Byte) (hide : Nat × Nat) : (s.event kind ten tile n data hide).boot = s.boot := (s.event_reports kind ten tile n data hide).boot
@[simp] theorem State.event_pins (kind : Nat) (ten tile : Option Nat) (n : Nat) (data : List Byte) (hide : Nat × Nat) : (s.event kind ten tile n data hide).pins = s.pins := (s.event_reports kind ten tile n data hide).pins
@[simp] theorem State.event_aoc (kind : Nat) (ten tile : Option Nat) (n : Nat) (data : List Byte) (hide : Nat × Nat) : (s.event kind ten tile n data hide).aoc = s.aoc := (s.event_reports kind ten tile n data hide).aoc

@[simp] theorem State.tenantEntry_vfEnable (t code : Nat) (x : Info) : (s.tenantEntry t code x).vfEnable = s.vfEnable := (s.tenantEntry_reports t code x).vfEnable
@[simp] theorem State.tenantEntry_numVfs (t code : Nat) (x : Info) : (s.tenantEntry t code x).numVfs = s.numVfs := (s.tenantEntry_reports t code x).numVfs
@[simp] theorem State.tenantEntry_flash (t code : Nat) (x : Info) : (s.tenantEntry t code x).flash = s.flash := (s.tenantEntry_reports t code x).flash
@[simp] theorem State.tenantEntry_fuses (t code : Nat) (x : Info) : (s.tenantEntry t code x).fuses = s.fuses := (s.tenantEntry_reports t code x).fuses
@[simp] theorem State.tenantEntry_tick (t code : Nat) (x : Info) : (s.tenantEntry t code x).tick = s.tick := (s.tenantEntry_reports t code x).tick
@[simp] theorem State.tenantEntry_sched (t code : Nat) (x : Info) : (s.tenantEntry t code x).sched = s.sched := (s.tenantEntry_reports t code x).sched
@[simp] theorem State.tenantEntry_tiles (t code : Nat) (x : Info) : (s.tenantEntry t code x).tiles = s.tiles := (s.tenantEntry_reports t code x).tiles
@[simp] theorem State.tenantEntry_hbmBad (t code : Nat) (x : Info) : (s.tenantEntry t code x).hbmBad = s.hbmBad := (s.tenantEntry_reports t code x).hbmBad
@[simp] theorem State.tenantEntry_msc (t code : Nat) (x : Info) : (s.tenantEntry t code x).msc = s.msc := (s.tenantEntry_reports t code x).msc
@[simp] theorem State.tenantEntry_drc (t code : Nat) (x : Info) : (s.tenantEntry t code x).drc = s.drc := (s.tenantEntry_reports t code x).drc
@[simp] theorem State.tenantEntry_ctrs (t code : Nat) (x : Info) : (s.tenantEntry t code x).ctrs = s.ctrs := (s.tenantEntry_reports t code x).ctrs
@[simp] theorem State.tenantEntry_lnk (t code : Nat) (x : Info) : (s.tenantEntry t code x).lnk = s.lnk := (s.tenantEntry_reports t code x).lnk
@[simp] theorem State.tenantEntry_pair (t code : Nat) (x : Info) : (s.tenantEntry t code x).pair = s.pair := (s.tenantEntry_reports t code x).pair
@[simp] theorem State.tenantEntry_twin (t code : Nat) (x : Info) : (s.tenantEntry t code x).twin = s.twin := (s.tenantEntry_reports t code x).twin
@[simp] theorem State.tenantEntry_recov (t code : Nat) (x : Info) : (s.tenantEntry t code x).recov = s.recov := (s.tenantEntry_reports t code x).recov
@[simp] theorem State.tenantEntry_front (t code : Nat) (x : Info) : (s.tenantEntry t code x).front = s.front := (s.tenantEntry_reports t code x).front
@[simp] theorem State.tenantEntry_cdx (t code : Nat) (x : Info) : (s.tenantEntry t code x).cdx = s.cdx := (s.tenantEntry_reports t code x).cdx
@[simp] theorem State.tenantEntry_lrd (t code : Nat) (x : Info) : (s.tenantEntry t code x).lrd = s.lrd := (s.tenantEntry_reports t code x).lrd
@[simp] theorem State.tenantEntry_ladles (t code : Nat) (x : Info) : (s.tenantEntry t code x).ladles = s.ladles := (s.tenantEntry_reports t code x).ladles
@[simp] theorem State.tenantEntry_commonDigs (t code : Nat) (x : Info) : (s.tenantEntry t code x).commonDigs = s.commonDigs := (s.tenantEntry_reports t code x).commonDigs
@[simp] theorem State.tenantEntry_publish (t code : Nat) (x : Info) : (s.tenantEntry t code x).publish = s.publish := (s.tenantEntry_reports t code x).publish
@[simp] theorem State.tenantEntry_unmapped (t code : Nat) (x : Info) : (s.tenantEntry t code x).unmapped = s.unmapped := (s.tenantEntry_reports t code x).unmapped
@[simp] theorem State.tenantEntry_coll (t code : Nat) (x : Info) : (s.tenantEntry t code x).coll = s.coll := (s.tenantEntry_reports t code x).coll
@[simp] theorem State.tenantEntry_acc (t code : Nat) (x : Info) : (s.tenantEntry t code x).acc = s.acc := (s.tenantEntry_reports t code x).acc
@[simp] theorem State.tenantEntry_pwr (t code : Nat) (x : Info) : (s.tenantEntry t code x).pwr = s.pwr := (s.tenantEntry_reports t code x).pwr
@[simp] theorem State.tenantEntry_pending (t code : Nat) (x : Info) : (s.tenantEntry t code x).pending = s.pending := (s.tenantEntry_reports t code x).pending
@[simp] theorem State.tenantEntry_boot (t code : Nat) (x : Info) : (s.tenantEntry t code x).boot = s.boot := (s.tenantEntry_reports t code x).boot
@[simp] theorem State.tenantEntry_pins (t code : Nat) (x : Info) : (s.tenantEntry t code x).pins = s.pins := (s.tenantEntry_reports t code x).pins
@[simp] theorem State.tenantEntry_aoc (t code : Nat) (x : Info) : (s.tenantEntry t code x).aoc = s.aoc := (s.tenantEntry_reports t code x).aoc

@[simp] theorem State.moduleEntry_vfEnable (code : Nat) (x : Info) : (s.moduleEntry code x).vfEnable = s.vfEnable := (s.moduleEntry_reports code x).vfEnable
@[simp] theorem State.moduleEntry_numVfs (code : Nat) (x : Info) : (s.moduleEntry code x).numVfs = s.numVfs := (s.moduleEntry_reports code x).numVfs
@[simp] theorem State.moduleEntry_flash (code : Nat) (x : Info) : (s.moduleEntry code x).flash = s.flash := (s.moduleEntry_reports code x).flash
@[simp] theorem State.moduleEntry_fuses (code : Nat) (x : Info) : (s.moduleEntry code x).fuses = s.fuses := (s.moduleEntry_reports code x).fuses
@[simp] theorem State.moduleEntry_tick (code : Nat) (x : Info) : (s.moduleEntry code x).tick = s.tick := (s.moduleEntry_reports code x).tick
@[simp] theorem State.moduleEntry_sched (code : Nat) (x : Info) : (s.moduleEntry code x).sched = s.sched := (s.moduleEntry_reports code x).sched
@[simp] theorem State.moduleEntry_tiles (code : Nat) (x : Info) : (s.moduleEntry code x).tiles = s.tiles := (s.moduleEntry_reports code x).tiles
@[simp] theorem State.moduleEntry_hbmBad (code : Nat) (x : Info) : (s.moduleEntry code x).hbmBad = s.hbmBad := (s.moduleEntry_reports code x).hbmBad
@[simp] theorem State.moduleEntry_msc (code : Nat) (x : Info) : (s.moduleEntry code x).msc = s.msc := (s.moduleEntry_reports code x).msc
@[simp] theorem State.moduleEntry_drc (code : Nat) (x : Info) : (s.moduleEntry code x).drc = s.drc := (s.moduleEntry_reports code x).drc
@[simp] theorem State.moduleEntry_ctrs (code : Nat) (x : Info) : (s.moduleEntry code x).ctrs = s.ctrs := (s.moduleEntry_reports code x).ctrs
@[simp] theorem State.moduleEntry_lnk (code : Nat) (x : Info) : (s.moduleEntry code x).lnk = s.lnk := (s.moduleEntry_reports code x).lnk
@[simp] theorem State.moduleEntry_pair (code : Nat) (x : Info) : (s.moduleEntry code x).pair = s.pair := (s.moduleEntry_reports code x).pair
@[simp] theorem State.moduleEntry_twin (code : Nat) (x : Info) : (s.moduleEntry code x).twin = s.twin := (s.moduleEntry_reports code x).twin
@[simp] theorem State.moduleEntry_recov (code : Nat) (x : Info) : (s.moduleEntry code x).recov = s.recov := (s.moduleEntry_reports code x).recov
@[simp] theorem State.moduleEntry_front (code : Nat) (x : Info) : (s.moduleEntry code x).front = s.front := (s.moduleEntry_reports code x).front
@[simp] theorem State.moduleEntry_cdx (code : Nat) (x : Info) : (s.moduleEntry code x).cdx = s.cdx := (s.moduleEntry_reports code x).cdx
@[simp] theorem State.moduleEntry_lrd (code : Nat) (x : Info) : (s.moduleEntry code x).lrd = s.lrd := (s.moduleEntry_reports code x).lrd
@[simp] theorem State.moduleEntry_ladles (code : Nat) (x : Info) : (s.moduleEntry code x).ladles = s.ladles := (s.moduleEntry_reports code x).ladles
@[simp] theorem State.moduleEntry_commonDigs (code : Nat) (x : Info) : (s.moduleEntry code x).commonDigs = s.commonDigs := (s.moduleEntry_reports code x).commonDigs
@[simp] theorem State.moduleEntry_publish (code : Nat) (x : Info) : (s.moduleEntry code x).publish = s.publish := (s.moduleEntry_reports code x).publish
@[simp] theorem State.moduleEntry_unmapped (code : Nat) (x : Info) : (s.moduleEntry code x).unmapped = s.unmapped := (s.moduleEntry_reports code x).unmapped
@[simp] theorem State.moduleEntry_coll (code : Nat) (x : Info) : (s.moduleEntry code x).coll = s.coll := (s.moduleEntry_reports code x).coll
@[simp] theorem State.moduleEntry_acc (code : Nat) (x : Info) : (s.moduleEntry code x).acc = s.acc := (s.moduleEntry_reports code x).acc
@[simp] theorem State.moduleEntry_pwr (code : Nat) (x : Info) : (s.moduleEntry code x).pwr = s.pwr := (s.moduleEntry_reports code x).pwr
@[simp] theorem State.moduleEntry_pending (code : Nat) (x : Info) : (s.moduleEntry code x).pending = s.pending := (s.moduleEntry_reports code x).pending
@[simp] theorem State.moduleEntry_boot (code : Nat) (x : Info) : (s.moduleEntry code x).boot = s.boot := (s.moduleEntry_reports code x).boot
@[simp] theorem State.moduleEntry_pins (code : Nat) (x : Info) : (s.moduleEntry code x).pins = s.pins := (s.moduleEntry_reports code x).pins
@[simp] theorem State.moduleEntry_aoc (code : Nat) (x : Info) : (s.moduleEntry code x).aoc = s.aoc := (s.moduleEntry_reports code x).aoc

@[simp] theorem State.enter_vfEnable (t code : Nat) (x : Info) : (s.enter t code x).vfEnable = s.vfEnable := (s.enter_reports t code x).vfEnable
@[simp] theorem State.enter_numVfs (t code : Nat) (x : Info) : (s.enter t code x).numVfs = s.numVfs := (s.enter_reports t code x).numVfs
@[simp] theorem State.enter_flash (t code : Nat) (x : Info) : (s.enter t code x).flash = s.flash := (s.enter_reports t code x).flash
@[simp] theorem State.enter_fuses (t code : Nat) (x : Info) : (s.enter t code x).fuses = s.fuses := (s.enter_reports t code x).fuses
@[simp] theorem State.enter_tick (t code : Nat) (x : Info) : (s.enter t code x).tick = s.tick := (s.enter_reports t code x).tick
@[simp] theorem State.enter_sched (t code : Nat) (x : Info) : (s.enter t code x).sched = s.sched := (s.enter_reports t code x).sched
@[simp] theorem State.enter_tiles (t code : Nat) (x : Info) : (s.enter t code x).tiles = s.tiles := (s.enter_reports t code x).tiles
@[simp] theorem State.enter_hbmBad (t code : Nat) (x : Info) : (s.enter t code x).hbmBad = s.hbmBad := (s.enter_reports t code x).hbmBad
@[simp] theorem State.enter_msc (t code : Nat) (x : Info) : (s.enter t code x).msc = s.msc := (s.enter_reports t code x).msc
@[simp] theorem State.enter_drc (t code : Nat) (x : Info) : (s.enter t code x).drc = s.drc := (s.enter_reports t code x).drc
@[simp] theorem State.enter_ctrs (t code : Nat) (x : Info) : (s.enter t code x).ctrs = s.ctrs := (s.enter_reports t code x).ctrs
@[simp] theorem State.enter_lnk (t code : Nat) (x : Info) : (s.enter t code x).lnk = s.lnk := (s.enter_reports t code x).lnk
@[simp] theorem State.enter_pair (t code : Nat) (x : Info) : (s.enter t code x).pair = s.pair := (s.enter_reports t code x).pair
@[simp] theorem State.enter_twin (t code : Nat) (x : Info) : (s.enter t code x).twin = s.twin := (s.enter_reports t code x).twin
@[simp] theorem State.enter_recov (t code : Nat) (x : Info) : (s.enter t code x).recov = s.recov := (s.enter_reports t code x).recov
@[simp] theorem State.enter_front (t code : Nat) (x : Info) : (s.enter t code x).front = s.front := (s.enter_reports t code x).front
@[simp] theorem State.enter_cdx (t code : Nat) (x : Info) : (s.enter t code x).cdx = s.cdx := (s.enter_reports t code x).cdx
@[simp] theorem State.enter_lrd (t code : Nat) (x : Info) : (s.enter t code x).lrd = s.lrd := (s.enter_reports t code x).lrd
@[simp] theorem State.enter_ladles (t code : Nat) (x : Info) : (s.enter t code x).ladles = s.ladles := (s.enter_reports t code x).ladles
@[simp] theorem State.enter_commonDigs (t code : Nat) (x : Info) : (s.enter t code x).commonDigs = s.commonDigs := (s.enter_reports t code x).commonDigs
@[simp] theorem State.enter_publish (t code : Nat) (x : Info) : (s.enter t code x).publish = s.publish := (s.enter_reports t code x).publish
@[simp] theorem State.enter_unmapped (t code : Nat) (x : Info) : (s.enter t code x).unmapped = s.unmapped := (s.enter_reports t code x).unmapped
@[simp] theorem State.enter_coll (t code : Nat) (x : Info) : (s.enter t code x).coll = s.coll := (s.enter_reports t code x).coll
@[simp] theorem State.enter_acc (t code : Nat) (x : Info) : (s.enter t code x).acc = s.acc := (s.enter_reports t code x).acc
@[simp] theorem State.enter_pwr (t code : Nat) (x : Info) : (s.enter t code x).pwr = s.pwr := (s.enter_reports t code x).pwr
@[simp] theorem State.enter_pending (t code : Nat) (x : Info) : (s.enter t code x).pending = s.pending := (s.enter_reports t code x).pending
@[simp] theorem State.enter_boot (t code : Nat) (x : Info) : (s.enter t code x).boot = s.boot := (s.enter_reports t code x).boot
@[simp] theorem State.enter_pins (t code : Nat) (x : Info) : (s.enter t code x).pins = s.pins := (s.enter_reports t code x).pins
@[simp] theorem State.enter_aoc (t code : Nat) (x : Info) : (s.enter t code x).aoc = s.aoc := (s.enter_reports t code x).aoc

@[simp] theorem State.note_vfEnable (code : Nat) (x : Info) : (s.note code x).vfEnable = s.vfEnable := (s.note_reports code x).vfEnable
@[simp] theorem State.note_numVfs (code : Nat) (x : Info) : (s.note code x).numVfs = s.numVfs := (s.note_reports code x).numVfs
@[simp] theorem State.note_flash (code : Nat) (x : Info) : (s.note code x).flash = s.flash := (s.note_reports code x).flash
@[simp] theorem State.note_fuses (code : Nat) (x : Info) : (s.note code x).fuses = s.fuses := (s.note_reports code x).fuses
@[simp] theorem State.note_tick (code : Nat) (x : Info) : (s.note code x).tick = s.tick := (s.note_reports code x).tick
@[simp] theorem State.note_sched (code : Nat) (x : Info) : (s.note code x).sched = s.sched := (s.note_reports code x).sched
@[simp] theorem State.note_tiles (code : Nat) (x : Info) : (s.note code x).tiles = s.tiles := (s.note_reports code x).tiles
@[simp] theorem State.note_hbmBad (code : Nat) (x : Info) : (s.note code x).hbmBad = s.hbmBad := (s.note_reports code x).hbmBad
@[simp] theorem State.note_msc (code : Nat) (x : Info) : (s.note code x).msc = s.msc := (s.note_reports code x).msc
@[simp] theorem State.note_drc (code : Nat) (x : Info) : (s.note code x).drc = s.drc := (s.note_reports code x).drc
@[simp] theorem State.note_ctrs (code : Nat) (x : Info) : (s.note code x).ctrs = s.ctrs := (s.note_reports code x).ctrs
@[simp] theorem State.note_lnk (code : Nat) (x : Info) : (s.note code x).lnk = s.lnk := (s.note_reports code x).lnk
@[simp] theorem State.note_pair (code : Nat) (x : Info) : (s.note code x).pair = s.pair := (s.note_reports code x).pair
@[simp] theorem State.note_twin (code : Nat) (x : Info) : (s.note code x).twin = s.twin := (s.note_reports code x).twin
@[simp] theorem State.note_recov (code : Nat) (x : Info) : (s.note code x).recov = s.recov := (s.note_reports code x).recov
@[simp] theorem State.note_front (code : Nat) (x : Info) : (s.note code x).front = s.front := (s.note_reports code x).front
@[simp] theorem State.note_cdx (code : Nat) (x : Info) : (s.note code x).cdx = s.cdx := (s.note_reports code x).cdx
@[simp] theorem State.note_lrd (code : Nat) (x : Info) : (s.note code x).lrd = s.lrd := (s.note_reports code x).lrd
@[simp] theorem State.note_ladles (code : Nat) (x : Info) : (s.note code x).ladles = s.ladles := (s.note_reports code x).ladles
@[simp] theorem State.note_commonDigs (code : Nat) (x : Info) : (s.note code x).commonDigs = s.commonDigs := (s.note_reports code x).commonDigs
@[simp] theorem State.note_publish (code : Nat) (x : Info) : (s.note code x).publish = s.publish := (s.note_reports code x).publish
@[simp] theorem State.note_unmapped (code : Nat) (x : Info) : (s.note code x).unmapped = s.unmapped := (s.note_reports code x).unmapped
@[simp] theorem State.note_coll (code : Nat) (x : Info) : (s.note code x).coll = s.coll := (s.note_reports code x).coll
@[simp] theorem State.note_acc (code : Nat) (x : Info) : (s.note code x).acc = s.acc := (s.note_reports code x).acc
@[simp] theorem State.note_pwr (code : Nat) (x : Info) : (s.note code x).pwr = s.pwr := (s.note_reports code x).pwr
@[simp] theorem State.note_pending (code : Nat) (x : Info) : (s.note code x).pending = s.pending := (s.note_reports code x).pending
@[simp] theorem State.note_boot (code : Nat) (x : Info) : (s.note code x).boot = s.boot := (s.note_reports code x).boot
@[simp] theorem State.note_pins (code : Nat) (x : Info) : (s.note code x).pins = s.pins := (s.note_reports code x).pins
@[simp] theorem State.note_aoc (code : Nat) (x : Info) : (s.note code x).aoc = s.aoc := (s.note_reports code x).aoc

/-! ## The module state -/

@[simp] theorem State.alert_regs (b : Nat) : (s.alert b).regs = s.regs := rfl
@[simp] theorem State.alert_pf (b : Nat) : (s.alert b).pf = s.pf := rfl
@[simp] theorem State.alert_vfs (b : Nat) : (s.alert b).vfs = s.vfs := rfl
@[simp] theorem State.alert_vfEnable (b : Nat) : (s.alert b).vfEnable = s.vfEnable := rfl
@[simp] theorem State.alert_numVfs (b : Nat) : (s.alert b).numVfs = s.numVfs := rfl
@[simp] theorem State.alert_flash (b : Nat) : (s.alert b).flash = s.flash := rfl
@[simp] theorem State.alert_fuses (b : Nat) : (s.alert b).fuses = s.fuses := rfl
@[simp] theorem State.alert_boot (b : Nat) : (s.alert b).boot = s.boot := rfl
@[simp] theorem State.alert_tick (b : Nat) : (s.alert b).tick = s.tick := rfl
@[simp] theorem State.alert_sched (b : Nat) : (s.alert b).sched = s.sched := rfl
@[simp] theorem State.alert_tiles (b : Nat) : (s.alert b).tiles = s.tiles := rfl
@[simp] theorem State.alert_hbm (b : Nat) : (s.alert b).hbm = s.hbm := rfl
@[simp] theorem State.alert_hbmBad (b : Nat) : (s.alert b).hbmBad = s.hbmBad := rfl
@[simp] theorem State.alert_msc (b : Nat) : (s.alert b).msc = s.msc := rfl
@[simp] theorem State.alert_drc (b : Nat) : (s.alert b).drc = s.drc := rfl
@[simp] theorem State.alert_ctrs (b : Nat) : (s.alert b).ctrs = s.ctrs := rfl
@[simp] theorem State.alert_lnk (b : Nat) : (s.alert b).lnk = s.lnk := rfl
@[simp] theorem State.alert_pair (b : Nat) : (s.alert b).pair = s.pair := rfl
@[simp] theorem State.alert_twin (b : Nat) : (s.alert b).twin = s.twin := rfl
@[simp] theorem State.alert_recov (b : Nat) : (s.alert b).recov = s.recov := rfl
@[simp] theorem State.alert_front (b : Nat) : (s.alert b).front = s.front := rfl
@[simp] theorem State.alert_cdx (b : Nat) : (s.alert b).cdx = s.cdx := rfl
@[simp] theorem State.alert_lrd (b : Nat) : (s.alert b).lrd = s.lrd := rfl
@[simp] theorem State.alert_ladles (b : Nat) : (s.alert b).ladles = s.ladles := rfl
@[simp] theorem State.alert_commonDigs (b : Nat) : (s.alert b).commonDigs = s.commonDigs := rfl
@[simp] theorem State.alert_publish (b : Nat) : (s.alert b).publish = s.publish := rfl
@[simp] theorem State.alert_unmapped (b : Nat) : (s.alert b).unmapped = s.unmapped := rfl
@[simp] theorem State.alert_coll (b : Nat) : (s.alert b).coll = s.coll := rfl
@[simp] theorem State.alert_acc (b : Nat) : (s.alert b).acc = s.acc := rfl
@[simp] theorem State.alert_pwr (b : Nat) : (s.alert b).pwr = s.pwr := rfl
@[simp] theorem State.alert_vit (b : Nat) : (s.alert b).vit = s.vit := rfl
@[simp] theorem State.alert_outbox (b : Nat) : (s.alert b).outbox = s.outbox := rfl
@[simp] theorem State.alert_freeCtr (b : Nat) : (s.alert b).freeCtr = s.freeCtr := rfl
@[simp] theorem State.alert_pending (b : Nat) : (s.alert b).pending = s.pending := rfl
@[simp] theorem State.setMod_vfEnable (m : ModState) : (s.setMod m).vfEnable = s.vfEnable := by
  unfold State.setMod
  split
  · rfl
  · simp only [State.modEvent_vfEnable, State.setFlag_vfEnable, State.setFld_vfEnable]
    split <;> rfl
@[simp] theorem State.setMod_numVfs (m : ModState) : (s.setMod m).numVfs = s.numVfs := by
  unfold State.setMod
  split
  · rfl
  · simp only [State.modEvent_numVfs, State.setFlag_numVfs, State.setFld_numVfs]
    split <;> rfl
@[simp] theorem State.setMod_flash (m : ModState) : (s.setMod m).flash = s.flash := by
  unfold State.setMod
  split
  · rfl
  · simp only [State.modEvent_flash, State.setFlag_flash, State.setFld_flash]
    split <;> rfl
@[simp] theorem State.setMod_fuses (m : ModState) : (s.setMod m).fuses = s.fuses := by
  unfold State.setMod
  split
  · rfl
  · simp only [State.modEvent_fuses, State.setFlag_fuses, State.setFld_fuses]
    split <;> rfl
@[simp] theorem State.setMod_tick (m : ModState) : (s.setMod m).tick = s.tick := by
  unfold State.setMod
  split
  · rfl
  · simp only [State.modEvent_tick, State.setFlag_tick, State.setFld_tick]
    split <;> rfl
@[simp] theorem State.setMod_sched (m : ModState) : (s.setMod m).sched = s.sched := by
  unfold State.setMod
  split
  · rfl
  · simp only [State.modEvent_sched, State.setFlag_sched, State.setFld_sched]
    split <;> rfl
@[simp] theorem State.setMod_tiles (m : ModState) : (s.setMod m).tiles = s.tiles := by
  unfold State.setMod
  split
  · rfl
  · simp only [State.modEvent_tiles, State.setFlag_tiles, State.setFld_tiles]
    split <;> rfl
@[simp] theorem State.setMod_hbmBad (m : ModState) : (s.setMod m).hbmBad = s.hbmBad := by
  unfold State.setMod
  split
  · rfl
  · simp only [State.modEvent_hbmBad, State.setFlag_hbmBad, State.setFld_hbmBad]
    split <;> rfl
@[simp] theorem State.setMod_msc (m : ModState) : (s.setMod m).msc = s.msc := by
  unfold State.setMod
  split
  · rfl
  · simp only [State.modEvent_msc, State.setFlag_msc, State.setFld_msc]
    split <;> rfl
@[simp] theorem State.setMod_drc (m : ModState) : (s.setMod m).drc = s.drc := by
  unfold State.setMod
  split
  · rfl
  · simp only [State.modEvent_drc, State.setFlag_drc, State.setFld_drc]
    split <;> rfl
@[simp] theorem State.setMod_ctrs (m : ModState) : (s.setMod m).ctrs = s.ctrs := by
  unfold State.setMod
  split
  · rfl
  · simp only [State.modEvent_ctrs, State.setFlag_ctrs, State.setFld_ctrs]
    split <;> rfl
@[simp] theorem State.setMod_lnk (m : ModState) : (s.setMod m).lnk = s.lnk := by
  unfold State.setMod
  split
  · rfl
  · simp only [State.modEvent_lnk, State.setFlag_lnk, State.setFld_lnk]
    split <;> rfl
@[simp] theorem State.setMod_pair (m : ModState) : (s.setMod m).pair = s.pair := by
  unfold State.setMod
  split
  · rfl
  · simp only [State.modEvent_pair, State.setFlag_pair, State.setFld_pair]
    split <;> rfl
@[simp] theorem State.setMod_twin (m : ModState) : (s.setMod m).twin = s.twin := by
  unfold State.setMod
  split
  · rfl
  · simp only [State.modEvent_twin, State.setFlag_twin, State.setFld_twin]
    split <;> rfl
@[simp] theorem State.setMod_recov (m : ModState) : (s.setMod m).recov = s.recov := by
  unfold State.setMod
  split
  · rfl
  · simp only [State.modEvent_recov, State.setFlag_recov, State.setFld_recov]
    split <;> rfl
@[simp] theorem State.setMod_front (m : ModState) : (s.setMod m).front = s.front := by
  unfold State.setMod
  split
  · rfl
  · simp only [State.modEvent_front, State.setFlag_front, State.setFld_front]
    split <;> rfl
@[simp] theorem State.setMod_cdx (m : ModState) : (s.setMod m).cdx = s.cdx := by
  unfold State.setMod
  split
  · rfl
  · simp only [State.modEvent_cdx, State.setFlag_cdx, State.setFld_cdx]
    split <;> rfl
@[simp] theorem State.setMod_lrd (m : ModState) : (s.setMod m).lrd = s.lrd := by
  unfold State.setMod
  split
  · rfl
  · simp only [State.modEvent_lrd, State.setFlag_lrd, State.setFld_lrd]
    split <;> rfl
@[simp] theorem State.setMod_ladles (m : ModState) : (s.setMod m).ladles = s.ladles := by
  unfold State.setMod
  split
  · rfl
  · simp only [State.modEvent_ladles, State.setFlag_ladles, State.setFld_ladles]
    split <;> rfl
@[simp] theorem State.setMod_commonDigs (m : ModState) : (s.setMod m).commonDigs = s.commonDigs := by
  unfold State.setMod
  split
  · rfl
  · simp only [State.modEvent_commonDigs, State.setFlag_commonDigs, State.setFld_commonDigs]
    split <;> rfl
@[simp] theorem State.setMod_publish (m : ModState) : (s.setMod m).publish = s.publish := by
  unfold State.setMod
  split
  · rfl
  · simp only [State.modEvent_publish, State.setFlag_publish, State.setFld_publish]
    split <;> rfl
@[simp] theorem State.setMod_unmapped (m : ModState) : (s.setMod m).unmapped = s.unmapped := by
  unfold State.setMod
  split
  · rfl
  · simp only [State.modEvent_unmapped, State.setFlag_unmapped, State.setFld_unmapped]
    split <;> rfl
@[simp] theorem State.setMod_coll (m : ModState) : (s.setMod m).coll = s.coll := by
  unfold State.setMod
  split
  · rfl
  · simp only [State.modEvent_coll, State.setFlag_coll, State.setFld_coll]
    split <;> rfl
@[simp] theorem State.setMod_acc (m : ModState) : (s.setMod m).acc = s.acc := by
  unfold State.setMod
  split
  · rfl
  · simp only [State.modEvent_acc, State.setFlag_acc, State.setFld_acc]
    split <;> rfl
@[simp] theorem State.setMod_pwr (m : ModState) : (s.setMod m).pwr = s.pwr := by
  unfold State.setMod
  split
  · rfl
  · simp only [State.modEvent_pwr, State.setFlag_pwr, State.setFld_pwr]
    split <;> rfl
@[simp] theorem State.setMod_pending (m : ModState) : (s.setMod m).pending = s.pending := by
  unfold State.setMod
  split
  · rfl
  · simp only [State.modEvent_pending, State.setFlag_pending, State.setFld_pending]
    split <;> rfl

@[simp] theorem State.setMod_state (m : ModState) : (s.setMod m).boot.state = m := by
  unfold State.setMod
  split
  · assumption
  · simp only [State.modEvent_boot, State.setFlag_boot, State.setFld_boot]

theorem State.setMod_boot (m : ModState) : (s.setMod m).boot = { s.boot with state := m } := by
  unfold State.setMod
  split
  · rename_i h
    rw [← h]
  · simp only [State.modEvent_boot, State.setFlag_boot, State.setFld_boot]
    split <;> rfl

end Sys2Proof.Machine
end

