-- ==== Sys2Proof/Laws/Fields.lean ====
section
/-!
SUPPORT. Fields.lean: what a register field reads as after a write.
-/

namespace Sys2Proof.Machine

/-! ## What a register reads as after a write -/

section
variable {s : State}

theorem State.tidy_regs (h : s.tidy = true) : nwf s.regs = true := by
  simp only [State.tidy, Bool.and_eq_true] at h
  exact h.1.1.1

@[simp] theorem State.nwf_setWord (off : Nat) (v : W32) (h : nwf s.regs = true) : nwf (s.setWord off v).regs = true := nwf_nset _ _ h
@[simp] theorem State.nwf_setFld (off lo n v : Nat) (h : nwf s.regs = true) : nwf (s.setFld off lo n v).regs = true := nwf_nset _ _ h
@[simp] theorem State.nwf_setFlag (off b : Nat) (v : Bool) (h : nwf s.regs = true) : nwf (s.setFlag off b v).regs = true := nwf_nset _ _ h
@[simp] theorem State.nwf_bump (off n : Nat) (h : nwf s.regs = true) : nwf (s.bump off n).regs = true := nwf_nset _ _ h
@[simp] theorem State.nwf_setQuad (off v : Nat) (h : nwf s.regs = true) : nwf (s.setQuad off v).regs = true := nwf_nset _ _ (nwf_nset _ _ h)
@[simp] theorem State.nwf_addQuad (off v : Nat) (h : nwf s.regs = true) : nwf (s.addQuad off v).regs = true := nwf_nset _ _ (nwf_nset _ _ h)

theorem State.word_setWord_same (off : Nat) (v : W32) (h : nwf s.regs = true) : (s.setWord off v).word off = v := nget_nset_same _ _ h

theorem State.word_setWord_other {a off : Nat} (v : W32) (h : nwf s.regs = true) (ha : a ≠ off) : (s.setWord off v).word a = s.word a :=
  nget_nset_other _ h ha

theorem State.word_setFld_other {a off : Nat} (lo n v : Nat) (h : nwf s.regs = true) (ha : a ≠ off) : (s.setFld off lo n v).word a = s.word a :=
  nget_nset_other _ h ha

theorem State.word_setFlag_other {a off : Nat} (b : Nat) (v : Bool) (h : nwf s.regs = true) (ha : a ≠ off) :
    (s.setFlag off b v).word a = s.word a := nget_nset_other _ h ha

theorem State.word_setQuad_other {a off : Nat} (v : Nat) (h : nwf s.regs = true) (ha : a ≠ off) (hb : a ≠ off + 4) :
    (s.setQuad off v).word a = s.word a := by
  unfold State.setQuad
  rw [State.word_setWord_other _ (State.nwf_setWord _ _ h) hb, State.word_setWord_other _ h ha]

/-- A word with a field replaced, taken apart. -/
theorem field_replace {w lo n v : Nat} (hw : w < 2 ^ 32) (hl : lo + n ≤ 32) :
    w - w / 2 ^ lo % 2 ^ n * 2 ^ lo + v % 2 ^ n * 2 ^ lo = w % 2 ^ lo + 2 ^ lo * (v % 2 ^ n + 2 ^ n * (w / 2 ^ (lo + n))) ∧
    w % 2 ^ lo + 2 ^ lo * (v % 2 ^ n + 2 ^ n * (w / 2 ^ (lo + n))) < 2 ^ 32 := by
  have e1 : w / 2 ^ (lo + n) = w / 2 ^ lo / 2 ^ n := by rw [pow_add, Nat.div_div_eq_div_mul]
  have d1 := Nat.div_add_mod w (2 ^ lo)
  have d2 := Nat.div_add_mod (w / 2 ^ lo) (2 ^ n)
  have p1 : 0 < 2 ^ lo := by positivity
  have p2 : 0 < 2 ^ n := by positivity
  have m1 := Nat.mod_lt w p1
  have m2 := Nat.mod_lt v p2
  have e3 : 2 ^ 32 = 2 ^ (32 - (lo + n)) * (2 ^ lo * 2 ^ n) := by
    rw [← pow_add, ← pow_add]
    congr 1
    omega
  rw [e1]
  generalize w / 2 ^ lo / 2 ^ n = q at *
  generalize w / 2 ^ lo % 2 ^ n = f at *
  generalize w % 2 ^ lo = r at *
  generalize v % 2 ^ n = x at *
  rw [← d2] at d1
  generalize hA : 2 ^ lo = A at *
  generalize hB : 2 ^ n = B at *
  have hq : q < 2 ^ (32 - (lo + n)) := by
    by_contra hc
    have hc : 2 ^ (32 - (lo + n)) ≤ q := by omega
    have := Nat.mul_le_mul_right (A * B) hc
    have h2 : A * (B * q + f) = q * (A * B) + A * f := by ring
    omega
  constructor
  · have h2 : A * (B * q + f) = q * (A * B) + f * A := by ring
    have h3 : A * (x + B * q) = q * (A * B) + x * A := by ring
    omega
  · have h3 : A * (x + B * q) = q * (A * B) + x * A := by ring
    have h4 : (q + 1) * (A * B) ≤ 2 ^ (32 - (lo + n)) * (A * B) := Nat.mul_le_mul_right _ hq
    have h5 : (x + 1) * A ≤ B * A := Nat.mul_le_mul_right _ m2
    have h6 : (q + 1) * (A * B) = q * (A * B) + B * A := by ring
    have h7 : (x + 1) * A = x * A + A := by ring
    omega

theorem State.toNat_setFld (off lo n v : Nat) (h : nwf s.regs = true) (hl : lo + n ≤ 32) :
    ((s.setFld off lo n v).word off).toNat =
      (s.word off).toNat % 2 ^ lo + 2 ^ lo * (v % 2 ^ n + 2 ^ n * ((s.word off).toNat / 2 ^ (lo + n))) := by
  obtain ⟨e, l⟩ := field_replace (v := v) (s.word off).isLt hl
  unfold State.setFld
  rw [State.word_setWord_same _ _ h, BitVec.toNat_ofNat, e]
  exact Nat.mod_eq_of_lt l

theorem State.fld_setFld_same (off lo n v : Nat) (h : nwf s.regs = true) (hl : lo + n ≤ 32) : (s.setFld off lo n v).fld off lo n = v % 2 ^ n := by
  have p1 : 0 < 2 ^ lo := by positivity
  unfold State.fld
  rw [State.toNat_setFld _ _ _ _ h hl, Nat.add_mul_div_left _ _ p1, Nat.div_eq_of_lt (Nat.mod_lt _ p1), Nat.zero_add,
    Nat.add_mul_mod_self_left, Nat.mod_mod]

theorem State.fld_setFld_other {a off : Nat} (l m lo n v : Nat) (h : nwf s.regs = true) (ha : a ≠ off) :
    (s.setFld off lo n v).fld a l m = s.fld a l m := by
  unfold State.fld
  rw [State.word_setFld_other _ _ _ h ha]

theorem State.fld_setFld_above {off l m lo n : Nat} (v : Nat) (h : nwf s.regs = true) (hl : lo + n ≤ 32) (hd : lo + n ≤ l) :
    (s.setFld off lo n v).fld off l m = s.fld off l m := by
  have p1 : 0 < 2 ^ lo := by positivity
  have p2 : 0 < 2 ^ n := by positivity
  unfold State.fld
  rw [State.toNat_setFld _ _ _ _ h hl]
  obtain ⟨k, rfl⟩ := Nat.exists_eq_add_of_le hd
  have e (w q : Nat) : (w % 2 ^ lo + 2 ^ lo * (v % 2 ^ n + 2 ^ n * q)) / 2 ^ (lo + n) = q := by
    rw [pow_add, ← Nat.div_div_eq_div_mul, Nat.add_mul_div_left _ _ p1, Nat.div_eq_of_lt (Nat.mod_lt _ p1), Nat.zero_add,
      Nat.add_mul_div_left _ _ p2, Nat.div_eq_of_lt (Nat.mod_lt _ p2), Nat.zero_add]
  rw [pow_add 2 (lo + n) k, ← Nat.div_div_eq_div_mul, ← Nat.div_div_eq_div_mul, e]

theorem State.fld_setFld_below {off l m lo n : Nat} (v : Nat) (h : nwf s.regs = true) (hl : lo + n ≤ 32) (hd : l + m ≤ lo) :
    (s.setFld off lo n v).fld off l m = s.fld off l m := by
  unfold State.fld
  rw [State.toNat_setFld _ _ _ _ h hl]
  obtain ⟨k, rfl⟩ := Nat.exists_eq_add_of_le hd
  have e (w x : Nat) : (w % 2 ^ (l + m + k) + 2 ^ (l + m + k) * x) / 2 ^ l % 2 ^ m = w / 2 ^ l % 2 ^ m := by
    have d1 := Nat.div_add_mod w (2 ^ (l + m + k))
    have e1 : 2 ^ (l + m + k) = 2 ^ l * (2 ^ m * 2 ^ k) := by rw [pow_add, pow_add, Nat.mul_assoc]
    have g (y : Nat) : (w % 2 ^ (l + m + k) + 2 ^ (l + m + k) * y) / 2 ^ l % 2 ^ m = w % 2 ^ (l + m + k) / 2 ^ l % 2 ^ m := by
      rw [e1, Nat.mul_assoc, Nat.add_mul_div_left _ _ (by positivity), Nat.mul_assoc, Nat.add_mul_mod_self_left]
    rw [g x, ← g (w / 2 ^ (l + m + k)), Nat.add_comm, d1]
  exact e _ _

theorem State.flag_setFlag_same (off b : Nat) (v : Bool) (h : nwf s.regs = true) (hl : b < 32) : (s.setFlag off b v).flag off b = v := by
  unfold State.flag State.setFlag
  rw [State.fld_setFld_same _ _ _ _ h (by omega)]
  cases v <;> rfl

theorem State.flag_setFlag_other {a off : Nat} (l b : Nat) (v : Bool) (h : nwf s.regs = true) (ha : a ≠ off) :
    (s.setFlag off b v).flag a l = s.flag a l := by
  unfold State.flag State.setFlag
  rw [State.fld_setFld_other _ _ _ _ _ h ha]

theorem State.flag_setFlag_bit {off l b : Nat} (v : Bool) (h : nwf s.regs = true) (hl : b < 32) (hd : l ≠ b) :
    (s.setFlag off b v).flag off l = s.flag off l := by
  unfold State.flag State.setFlag
  rcases Nat.lt_or_gt_of_ne hd with hd | hd
  · rw [State.fld_setFld_below _ h (by omega) (by omega)]
  · rw [State.fld_setFld_above _ h (by omega) (by omega)]

theorem State.quad_setQuad_same (off v : Nat) (h : nwf s.regs = true) : (s.setQuad off v).quad off = v % 2 ^ 64 := by
  have h1 : (s.setQuad off v).word (off + 4) = BitVec.ofNat 32 (v / 2 ^ 32) := State.word_setWord_same _ _ (State.nwf_setWord _ _ h)
  have h2 : (s.setQuad off v).word off = BitVec.ofNat 32 v := by
    unfold State.setQuad
    rw [State.word_setWord_other _ (State.nwf_setWord _ _ h) (by omega), State.word_setWord_same _ _ h]
  unfold State.quad
  rw [h1, h2, BitVec.toNat_ofNat, BitVec.toNat_ofNat]
  omega

end

end Sys2Proof.Machine
end

