-- ==== Sys2Proof/Laws/Good.lean ====
section
/-!
SUPPORT. Good.lean: the relation between a state and one that an operation makes of it: the queue is the same, the canonical forms
stay, what was sent stays sent, free values are not drawn twice, fuses go one way; and the rules by which it passes through the
forms that meanings are written in.
-/

namespace Sys2Proof.Machine

/-! ## Fuses -/

theorem keyAfter_refl (k : KeySlot) : keyAfter k k = true := by simp [keyAfter]

theorem keyAfter_trans {a b c : KeySlot} (h1 : keyAfter a b = true) (h2 : keyAfter b c = true) : keyAfter a c = true := by
  simp only [keyAfter, Bool.and_eq_true, Bool.or_eq_true, beq_iff_eq, Bool.not_eq_true', Option.isNone_iff_eq_none] at *
  refine ⟨?_, ?_⟩
  · rcases h1.1 with h | h
    · exact .inl h
    · rw [h]; exact h2.1
  · rcases h1.2 with h | h
    · exact .inl h
    · rcases h2.2 with h' | h'
      · simp_all
      · exact .inr h'

theorem fusesAfter_refl (f : Fuses) : fusesAfter f f = true := by
  simp only [fusesAfter, Bool.and_eq_true, List.all_eq_true]
  refine ⟨⟨by simp, by simp⟩, fun i _ => ?_⟩
  split
  · rename_i x y h1 h2
    simp_all [keyAfter_refl]
  · rfl

theorem fusesAfter_trans {a b c : Fuses} (h1 : fusesAfter a b = true) (h2 : fusesAfter b c = true) : fusesAfter a c = true := by
  simp only [fusesAfter, Bool.and_eq_true, List.all_eq_true, List.mem_range, decide_eq_true_eq, beq_iff_eq] at *
  refine ⟨⟨BitVec.le_trans h1.1.1 h2.1.1, h1.1.2.trans h2.1.2⟩, fun i hi => ?_⟩
  have k1 := h1.2 i hi
  have k2 := h2.2 i hi
  simp only [Vector.getElem?_eq_getElem hi] at *
  exact keyAfter_trans k1 k2

/-! ## The relation -/

structure Good (s₀ s : State) : Prop where
  tidy  : s₀.tidy = true → s.tidy = true
  queue : s.pending = s₀.pending
  sent  : s₀.outbox <+: s.outbox
  drawn : s₀.freeCtr ≤ s.freeCtr
  fuses : fusesAfter s₀.fuses s.fuses = true

theorem Good.refl (s : State) : Good s s := ⟨id, rfl, List.prefix_refl _, Nat.le_refl _, fusesAfter_refl _⟩

/-- An update of other fields. -/
theorem Good.upd {s₀ s t : State} (h : Good s₀ s) (h1 : t.regs = s.regs) (h2 : t.hbm = s.hbm) (h3 : t.ctrs = s.ctrs)
    (h4 : t.hbmBad = s.hbmBad) (h5 : t.pending = s.pending) (h6 : t.outbox = s.outbox) (h7 : t.freeCtr = s.freeCtr)
    (h8 : t.fuses = s.fuses) : Good s₀ t := by
  obtain ⟨a, b, c, d, e⟩ := h
  refine ⟨?_, h5.trans b, h6 ▸ c, h7 ▸ d, h8 ▸ e⟩
  simp only [State.tidy, h1, h2, h3, h4] at *
  exact a

/-- The same for an update as it is written. -/
theorem Good.set {s₀ s : State} {a1 a2 a3 a4 a5 a7 a8 a9 a10 a11 a14 a15 a17 a18 a19 a20 a21 a22 a23 a24 a25 a26 a27 a28 a29 a30 a31 a32} (h : Good s₀ s) :
    Good s₀ (State.mk s.regs a1 a2 a3 a4 a5 s.fuses a7 a8 a9 a10 a11 s.hbm s.hbmBad a14 a15 s.ctrs a17 a18 a19 a20 a21 a22 a23 a24 a25 a26 a27 a28 a29 a30 a31 a32 s.outbox s.freeCtr s.pending) :=
  h.upd rfl rfl rfl rfl rfl rfl rfl rfl

/-- An update of the memories that keeps their forms. -/
theorem Good.mems {s₀ s t : State} (h : Good s₀ s) (h1 : nwf s.regs = true → nwf t.regs = true) (h2 : nwf s.hbm = true → nwf t.hbm = true)
    (h3 : nwf s.ctrs = true → nwf t.ctrs = true) (h4 : rising s.hbmBad = true → rising t.hbmBad = true) (h5 : t.pending = s.pending)
    (h6 : t.outbox = s.outbox) (h7 : t.freeCtr = s.freeCtr) (h8 : t.fuses = s.fuses) : Good s₀ t := by
  obtain ⟨a, b, c, d, e⟩ := h
  refine ⟨fun h => ?_, h5.trans b, h6 ▸ c, h7 ▸ d, h8 ▸ e⟩
  have := a h
  simp only [State.tidy, Memory.wf, Bool.and_eq_true] at *
  exact ⟨⟨⟨h1 this.1.1.1, h2 this.1.1.2⟩, h3 this.1.2⟩, h4 this.2⟩

/-- An update of the memories as it is written. -/
theorem Good.sets {s₀ s : State} {a0 a1 a2 a3 a4 a5 a7 a8 a9 a10 a11 a12 a13 a14 a15 a16 a17 a18 a19 a20 a21 a22 a23 a24 a25 a26 a27 a28 a29 a30 a31 a32} (h : Good s₀ s) (h1 : nwf s.regs = true → nwf a0 = true)
    (h2 : nwf s.hbm = true → nwf a12 = true) (h3 : nwf s.ctrs = true → nwf a16 = true)
    (h4 : rising s.hbmBad = true → rising a13 = true) :
    Good s₀ (State.mk a0 a1 a2 a3 a4 a5 s.fuses a7 a8 a9 a10 a11 a12 a13 a14 a15 a16 a17 a18 a19 a20 a21 a22 a23 a24 a25 a26 a27 a28 a29 a30 a31 a32 s.outbox s.freeCtr s.pending) :=
  h.mems h1 h2 h3 h4 rfl rfl rfl rfl

/-- A state in one of the shapes that operations answer with. -/
def GoodL {α : Type} (s₀ : State) (e : State × α) : Prop := Good s₀ e.1

def GoodR {α : Type} (s₀ : State) (e : α × State) : Prop := Good s₀ e.2

def GoodO (s₀ : State) (e : Option State) : Prop := ∀ s, e = some s → Good s₀ s

def GoodOL {α : Type} (s₀ : State) (e : Option (State × α)) : Prop := ∀ x, e = some x → Good s₀ x.1

def GoodOR {α : Type} (s₀ : State) (e : Option (α × State)) : Prop := ∀ x, e = some x → Good s₀ x.2

def GoodEL {α ε : Type} (s₀ : State) (e : Except ε (State × α)) : Prop := ∀ x, e = .ok x → Good s₀ x.1

def GoodER {α ε : Type} (s₀ : State) (e : Except ε (α × State)) : Prop := ∀ x, e = .ok x → Good s₀ x.2

def GoodOut (s₀ : State) (e : Host.Outcome State Fault Refusal) : Prop := ∀ s, e = .next s → Good s₀ s

/-! ## Through the shapes -/

theorem GoodL.mk {α : Type} {s₀ s : State} {a : α} (h : Good s₀ s) : GoodL s₀ (s, a) := h
theorem GoodR.mk {α : Type} {s₀ s : State} {a : α} (h : Good s₀ s) : GoodR s₀ (a, s) := h
theorem GoodL.out {α : Type} {s₀ : State} {e : State × α} (h : GoodL s₀ e) : Good s₀ e.1 := h
theorem GoodR.out {α : Type} {s₀ : State} {e : α × State} (h : GoodR s₀ e) : Good s₀ e.2 := h
theorem GoodL.eq {α : Type} {s₀ s : State} {e : State × α} {a : α} (he : e = (s, a)) (h : GoodL s₀ e) : Good s₀ s := by subst he; exact h
theorem GoodR.eq {α : Type} {s₀ s : State} {e : α × State} {a : α} (he : e = (a, s)) (h : GoodR s₀ e) : Good s₀ s := by subst he; exact h
theorem GoodO.eq {s₀ s : State} {e : Option State} (he : e = some s) (h : GoodO s₀ e) : Good s₀ s := h s he
theorem GoodOL.eq {α : Type} {s₀ s : State} {e : Option (State × α)} {a : α} (he : e = some (s, a)) (h : GoodOL s₀ e) : Good s₀ s := h _ he
theorem GoodOR.eq {α : Type} {s₀ s : State} {e : Option (α × State)} {a : α} (he : e = some (a, s)) (h : GoodOR s₀ e) : Good s₀ s := h _ he
theorem GoodEL.eq {α ε : Type} {s₀ s : State} {e : Except ε (State × α)} {a : α} (he : e = .ok (s, a)) (h : GoodEL s₀ e) : Good s₀ s := h _ he
theorem GoodER.eq {α ε : Type} {s₀ s : State} {e : Except ε (α × State)} {a : α} (he : e = .ok (a, s)) (h : GoodER s₀ e) : Good s₀ s := h _ he
theorem GoodO.some {s₀ s : State} (h : Good s₀ s) : GoodO s₀ (some s) := fun _ e => by cases e; exact h
theorem GoodO.none {s₀ : State} : GoodO s₀ none := fun _ e => by cases e
theorem GoodOL.some {α : Type} {s₀ s : State} {a : α} (h : Good s₀ s) : GoodOL s₀ (some (s, a)) := fun _ e => by cases e; exact h
theorem GoodOL.none {α : Type} {s₀ : State} : GoodOL (α := α) s₀ none := fun _ e => by cases e
theorem GoodOR.some {α : Type} {s₀ s : State} {a : α} (h : Good s₀ s) : GoodOR s₀ (some (a, s)) := fun _ e => by cases e; exact h
theorem GoodOR.none {α : Type} {s₀ : State} : GoodOR (α := α) s₀ none := fun _ e => by cases e
theorem GoodEL.ok {α ε : Type} {s₀ s : State} {a : α} (h : Good s₀ s) : GoodEL (ε := ε) s₀ (.ok (s, a)) := fun _ e => by cases e; exact h
theorem GoodEL.error {α ε : Type} {s₀ : State} {x : ε} : GoodEL (α := α) s₀ (.error x) := fun _ e => by cases e
theorem GoodER.ok {α ε : Type} {s₀ s : State} {a : α} (h : Good s₀ s) : GoodER (ε := ε) s₀ (.ok (a, s)) := fun _ e => by cases e; exact h
theorem GoodER.error {α ε : Type} {s₀ : State} {x : ε} : GoodER (α := α) s₀ (.error x) := fun _ e => by cases e
theorem GoodOut.next {s₀ s : State} (h : Good s₀ s) : GoodOut s₀ (.next s) := fun _ e => by cases e; exact h
theorem GoodO.getD {s₀ s : State} {e : Option State} (h : GoodO s₀ e) (hs : Good s₀ s) : Good s₀ (e.getD s) := by
  cases e with
  | none => exact hs
  | some x => exact h x rfl

/-! ## Through maps of options -/

section
variable {s₀ : State} {α β γ : Type}

theorem GoodO.map {o : Option β} {f : β → State} (hf : ∀ x, Good s₀ (f x)) : GoodO s₀ (o.map f) := by
  cases o with
  | none => exact GoodO.none
  | some x => exact GoodO.some (hf x)

theorem GoodOL.map {o : Option β} {f : β → State × α} (hf : ∀ x, GoodL s₀ (f x)) : GoodOL s₀ (o.map f) := by
  cases o with
  | none => exact GoodOL.none
  | some x => exact GoodOL.some (a := (f x).2) (hf x)

theorem GoodOL.filter {o : Option (State × α)} {f : State × α → Bool} (h : GoodOL s₀ o) : GoodOL s₀ (o.filter f) :=
  fun x hx => h x (Option.eq_some_of_filter_eq_some hx)

theorem GoodOR.map {o : Option β} {f : β → α × State} (hf : ∀ x, GoodR s₀ (f x)) : GoodOR s₀ (o.map f) := by
  cases o with
  | none => exact GoodOR.none
  | some x => exact GoodOR.some (a := (f x).1) (hf x)

theorem GoodO.mapR {o : Option (β × State)} {f : β × State → State} (hf : ∀ a s, Good s₀ s → Good s₀ (f (a, s))) (ho : GoodOR s₀ o) :
    GoodO s₀ (o.map f) := by
  cases o with
  | none => exact GoodO.none
  | some x => exact GoodO.some (hf x.1 x.2 (ho x rfl))

theorem GoodO.mapL {o : Option (State × β)} {f : State × β → State} (hf : ∀ a s, Good s₀ s → Good s₀ (f (s, a))) (ho : GoodOL s₀ o) :
    GoodO s₀ (o.map f) := by
  cases o with
  | none => exact GoodO.none
  | some x => exact GoodO.some (hf x.2 x.1 (ho x rfl))

theorem GoodOR.mapR {o : Option (β × State)} {f : β × State → α × State} (hf : ∀ a s, Good s₀ s → GoodR s₀ (f (a, s)))
    (ho : GoodOR s₀ o) : GoodOR s₀ (o.map f) := by
  cases o with
  | none => exact GoodOR.none
  | some x => exact GoodOR.some (a := (f x).1) (hf x.1 x.2 (ho x rfl))

theorem GoodOL.mapL {o : Option (State × β)} {f : State × β → State × α} (hf : ∀ a s, Good s₀ s → GoodL s₀ (f (s, a)))
    (ho : GoodOL s₀ o) : GoodOL s₀ (o.map f) := by
  cases o with
  | none => exact GoodOL.none
  | some x => exact GoodOL.some (a := (f x).2) (hf x.2 x.1 (ho x rfl))

end

/-! ## Through conditions -/

section
variable {s₀ : State} {α ε : Type} {c : Prop} [Decidable c]

theorem Good.ite {a b : State} (ha : Good s₀ a) (hb : Good s₀ b) : Good s₀ (if c then a else b) := by split <;> assumption
theorem GoodL.ite {a b : State × α} (ha : GoodL s₀ a) (hb : GoodL s₀ b) : GoodL s₀ (if c then a else b) := by split <;> assumption
theorem GoodR.ite {a b : α × State} (ha : GoodR s₀ a) (hb : GoodR s₀ b) : GoodR s₀ (if c then a else b) := by split <;> assumption
theorem GoodO.ite {a b : Option State} (ha : GoodO s₀ a) (hb : GoodO s₀ b) : GoodO s₀ (if c then a else b) := by split <;> assumption
theorem GoodOL.ite {a b : Option (State × α)} (ha : GoodOL s₀ a) (hb : GoodOL s₀ b) : GoodOL s₀ (if c then a else b) := by
  split <;> assumption
theorem GoodOR.ite {a b : Option (α × State)} (ha : GoodOR s₀ a) (hb : GoodOR s₀ b) : GoodOR s₀ (if c then a else b) := by
  split <;> assumption
theorem GoodEL.ite {a b : Except ε (State × α)} (ha : GoodEL s₀ a) (hb : GoodEL s₀ b) : GoodEL s₀ (if c then a else b) := by
  split <;> assumption
theorem GoodER.ite {a b : Except ε (α × State)} (ha : GoodER s₀ a) (hb : GoodER s₀ b) : GoodER s₀ (if c then a else b) := by
  split <;> assumption
theorem GoodOut.ite {a b : Host.Outcome State Fault Refusal} (ha : GoodOut s₀ a) (hb : GoodOut s₀ b) : GoodOut s₀ (if c then a else b) := by
  split <;> assumption

end

/-! ## Through loops -/

/-- A property that every turn of a loop keeps holds at its end. -/
theorem foldl_inv {α β : Type} {Q : α → Prop} {f : α → β → α} {l : List β} {a : α} (hf : ∀ a x, Q a → Q (f a x)) (ha : Q a) :
    Q (l.foldl f a) := by
  induction l generalizing a with
  | nil => exact ha
  | cons x l ih => exact ih (hf a x ha)

theorem Good.foldl {β : Type} {s₀ s : State} {f : State → β → State} {l : List β} (hf : ∀ s x, Good s₀ s → Good s₀ (f s x))
    (h : Good s₀ s) : Good s₀ (l.foldl f s) := by
  induction l generalizing s with
  | nil => exact h
  | cons x l ih => exact ih (hf _ _ h)

theorem GoodL.foldl {α β : Type} {s₀ : State} {e : State × α} {f : State × α → β → State × α} {l : List β}
    (hf : ∀ s a x, Good s₀ s → GoodL s₀ (f (s, a) x)) (h : GoodL s₀ e) : GoodL s₀ (l.foldl f e) := by
  induction l generalizing e with
  | nil => exact h
  | cons x l ih => exact ih (hf e.1 e.2 x h)

theorem GoodR.foldl {α β : Type} {s₀ : State} {e : α × State} {f : α × State → β → α × State} {l : List β}
    (hf : ∀ s a x, Good s₀ s → GoodR s₀ (f (a, s) x)) (h : GoodR s₀ e) : GoodR s₀ (l.foldl f e) := by
  induction l generalizing e with
  | nil => exact h
  | cons x l ih => exact ih (hf e.2 e.1 x h)

end Sys2Proof.Machine
end

