-- ==== Sys2Proof/Laws/Good/Ops.lean ====
section
/-!
SUPPORT. Good/Ops.lean: every operation of Machine/Ops.lean keeps what `Good` says.
-/

namespace Sys2Proof.Machine

theorem State.setWord_good {s₀ s} {a0 a1} (h : Good s₀ s) : Good s₀ (State.setWord s a0 a1) :=
  h.mems (nwf_nset _ _) id id id rfl rfl rfl rfl

theorem State.setFld_good {s₀ s} {a0 a1 a2 a3} (h : Good s₀ s) : Good s₀ (State.setFld s a0 a1 a2 a3) := by
  unfold State.setFld
  extract_lets +onlyGivenNames s0
  exact State.setWord_good h

theorem State.bump_good {s₀ s} {a0 a1} (h : Good s₀ s) : Good s₀ (State.bump s a0 a1) := by
  unfold State.bump
  exact State.setWord_good h

theorem State.send_good {s₀ s} {a0} (h : Good s₀ s) : Good s₀ (State.send s a0) :=
  ⟨h.tidy, h.queue, h.sent.trans (List.prefix_append _ _), h.drawn, h.fuses⟩

theorem State.setFlag_good {s₀ s} {a0 a1 a2} (h : Good s₀ s) : Good s₀ (State.setFlag s a0 a1 a2) := by
  unfold State.setFlag
  exact State.setFld_good h

theorem State.updFn_good {s₀ s} {a0 a1} (h : Good s₀ s) : Good s₀ (State.updFn s a0 a1) := by
  unfold State.updFn
  split <;> exact Good.set h

theorem State.interrupt_good {s₀ s} {a0 a1} (h : Good s₀ s) : Good s₀ (State.interrupt s a0 a1) := by
  unfold State.interrupt
  extract_lets +onlyGivenNames s0
  exact Good.ite (State.updFn_good h) (State.send_good h)

theorem State.tntEvent_good {s₀ s} {a0 a1} (h : Good s₀ s) : Good s₀ (State.tntEvent s a0 a1) := by
  unfold State.tntEvent
  extract_lets +onlyGivenNames s0 s1
  have hs1 : Good s₀ s1 := State.setFlag_good h
  clear_value s1
  exact Good.ite (State.interrupt_good hs1) hs1

theorem State.modEvent_good {s₀ s} {a0} (h : Good s₀ s) : Good s₀ (State.modEvent s a0) := by
  unfold State.modEvent
  extract_lets +onlyGivenNames s0 s1
  have hs1 : Good s₀ s1 := State.setFlag_good h
  clear_value s1
  exact Good.ite (State.interrupt_good hs1) hs1

theorem State.setTState_good {s₀ s} {a0 a1} (h : Good s₀ s) : Good s₀ (State.setTState s a0 a1) := by
  unfold State.setTState
  exact State.setFld_good h

theorem State.setBytes_good {s₀ s} {a0 a1} (h : Good s₀ s) : Good s₀ (State.setBytes s a0 a1) := by
  unfold State.setBytes
  split
  · exact h
  · refine Good.foldl ?_ h
    intro s3 x3_1 h3_2
    exact State.setWord_good h3_2

theorem State.sendFrame_good {s₀ s} (h : Good s₀ s) : Good s₀ (State.sendFrame s) := by
  unfold State.sendFrame
  extract_lets +onlyGivenNames s0 s1 s2
  have hs2 : Good s₀ s2 := State.send_good h
  clear_value s2
  exact Good.set hs2

theorem State.setQuad_good {s₀ s} {a0 a1} (h : Good s₀ s) : Good s₀ (State.setQuad s a0 a1) := by
  unfold State.setQuad
  exact State.setWord_good (State.setWord_good h)

theorem State.addQuad_good {s₀ s} {a0 a1} (h : Good s₀ s) : Good s₀ (State.addQuad s a0 a1) := by
  unfold State.addQuad
  exact State.setQuad_good h

theorem State.traceBuf_good {s₀ s} {a0} (h : Good s₀ s) : Good s₀ (State.traceBuf s a0) := by
  unfold State.traceBuf
  split
  · exact h
  · refine Good.ite (State.bump_good h) ?_
    have h1 : ∀ a, Good s₀ ({ s with hbm := writeBytes s.hbm a a0 } : State) := fun a =>
      h.mems id (nwf_writeBytes _ _) id id rfl rfl rfl rfl
    exact Good.ite (State.setFlag_good (State.addQuad_good (h1 _))) (State.addQuad_good (h1 _))

theorem State.putEvent_good {s₀ s} {a0} (h : Good s₀ s) : Good s₀ (State.putEvent s a0) := by
  unfold State.putEvent
  extract_lets +onlyGivenNames s0
  have hs0 : Good s₀ s0 := Good.ite (State.traceBuf_good h) h
  clear_value s0
  refine Good.ite ?_ hs0
  extract_lets +onlyGivenNames s4 s5
  have hs5 : Good s₀ s5 := Good.set hs0
  clear_value s5
  exact Good.ite (State.sendFrame_good hs5) hs5

theorem State.free_good {s₀ s} (h : Good s₀ s) : GoodR s₀ (State.free s) :=
  ⟨h.tidy, h.queue, h.sent, Nat.le_succ_of_le h.drawn, h.fuses⟩

theorem State.event_good {s₀ s} {a0 a1 a2 a3 a4 a5} (h : Good s₀ s) : Good s₀ (State.event s a0 a1 a2 a3 a4 a5) := by
  unfold State.event
  refine Good.ite h ?_
  generalize he2 : State.free _ = e2
  obtain ⟨xe2, se2⟩ := e2
  have hse2 : Good s₀ se2 := (GoodR.eq he2 (State.free_good h))
  clear he2
  dsimp -zeta -zetaHave only
  extract_lets +onlyGivenNames s7 s8
  have hs8 : Good s₀ s8 := Good.ite hse2 (Good.set hse2)
  clear_value s8
  refine Good.ite (State.bump_good (Good.set hs8)) ?_
  extract_lets +onlyGivenNames s15 s16 s17 s18 s19
  have hs19 : Good s₀ s19 := Good.set hs8
  clear_value s19
  extract_lets +onlyGivenNames s22
  have hs22 : Good s₀ s22 := Good.ite (State.putEvent_good hs19) hs19
  clear_value s22
  exact State.putEvent_good hs22

theorem State.faultTrace_good {s₀ s} {a0 a1 a2} (h : Good s₀ s) : Good s₀ (State.faultTrace s a0 a1 a2) := by
  unfold State.faultTrace
  exact State.event_good h

theorem State.tenantEntry_good {s₀ s} {a0 a1 a2} (h : Good s₀ s) : Good s₀ (State.tenantEntry s a0 a1 a2) := by
  unfold State.tenantEntry
  extract_lets +onlyGivenNames s0 s1 s2
  have hs2 : Good s₀ s2 := Good.ite (State.setFld_good (State.setBytes_good h)) (State.bump_good h)
  clear_value s2
  extract_lets +onlyGivenNames s5
  have hs5 : Good s₀ s5 := State.setFld_good (State.setBytes_good hs2)
  clear_value s5
  extract_lets +onlyGivenNames s8
  have hs8 : Good s₀ s8 := State.setFld_good hs5
  clear_value s8
  extract_lets +onlyGivenNames s11
  have hs11 : Good s₀ s11 := Good.ite (State.setFlag_good hs8) hs8
  clear_value s11
  exact State.faultTrace_good (State.tntEvent_good hs11)

theorem State.moduleEntry_good {s₀ s} {a0 a1} (h : Good s₀ s) : Good s₀ (State.moduleEntry s a0 a1) := by
  unfold State.moduleEntry
  extract_lets +onlyGivenNames s0 s1 s2
  have hs2 : Good s₀ s2 := Good.ite (State.setBytes_good h) (State.bump_good h)
  clear_value s2
  exact State.faultTrace_good (State.modEvent_good (State.setBytes_good hs2))

theorem State.enter_good {s₀ s} {a0 a1 a2} (h : Good s₀ s) : Good s₀ (State.enter s a0 a1 a2) := by
  unfold State.enter
  split
  extract_lets +onlyGivenNames s1
  have hs1 : Good s₀ s1 := Good.ite (State.tenantEntry_good h) h
  clear_value s1
  exact Good.ite (State.moduleEntry_good hs1) hs1

theorem State.alert_good {s₀ s} {a0} (h : Good s₀ s) : Good s₀ (State.alert s a0) := by
  unfold State.alert
  exact Good.set h

theorem State.zeroRegs_good {s₀ s} {a0 a1} (h : Good s₀ s) : Good s₀ (State.zeroRegs s a0 a1) :=
  h.mems (nwf_zeroRange _ _) id id id rfl rfl rfl rfl

theorem State.note_good {s₀ s} {a0 a1} (h : Good s₀ s) : Good s₀ (State.note s a0 a1) := by
  unfold State.note
  exact State.moduleEntry_good h

theorem State.bumpFld_good {s₀ s} {a0 a1 a2} (h : Good s₀ s) : Good s₀ (State.bumpFld s a0 a1 a2) := by
  unfold State.bumpFld
  exact State.setFld_good h

theorem State.fresh_good {s₀ s} (h : Good s₀ s) : GoodR s₀ (State.fresh s) :=
  ⟨h.tidy, h.queue, h.sent, Nat.le_succ_of_le h.drawn, h.fuses⟩

theorem State.setMod_good {s₀ s} {a0} (h : Good s₀ s) : Good s₀ (State.setMod s a0) := by
  unfold State.setMod
  refine Good.ite h ?_
  extract_lets +onlyGivenNames s2
  have hs2 : Good s₀ s2 := State.alert_good h
  clear_value s2
  extract_lets +onlyGivenNames s5
  have hs5 : Good s₀ s5 := Good.ite (State.alert_good hs2) hs2
  clear_value s5
  extract_lets +onlyGivenNames s8 s9
  have hs9 : Good s₀ s9 := Good.set hs5
  clear_value s9
  exact State.modEvent_good (State.setFlag_good (State.setFld_good hs9))

end Sys2Proof.Machine
end

