-- ==== Sys2Proof/Laws/Good/Board.lean ====
section
/-!
SUPPORT. Good/Board.lean: every operation of Machine/Board.lean keeps what `Good` says.
-/

namespace Sys2Proof.Machine

/-- Burning fuses. -/
theorem Good.burn {s₀ s : State} (h : Good s₀ s) {ks : Vector KeySlot 4} (hk : ∀ i (hi : i < 4), keyAfter s.fuses.keys[i] ks[i] = true) :
    Good s₀ { s with fuses := { s.fuses with keys := ks } } := by
  refine ⟨h.tidy, h.queue, h.sent, h.drawn, fusesAfter_trans h.fuses ?_⟩
  simp only [fusesAfter, Bool.and_eq_true, List.all_eq_true, List.mem_range, decide_eq_true_eq, beq_iff_eq]
  refine ⟨⟨BitVec.le_refl _, trivial⟩, fun i hi => ?_⟩
  simp only [Vector.getElem?_eq_getElem hi]
  exact hk i hi

theorem keyAfter_vupd {v : Vector KeySlot 4} {j : Nat} {f : KeySlot → KeySlot} (hf : ∀ (hj : j < 4), keyAfter v[j] (f v[j]) = true) :
    ∀ i (hi : i < 4), keyAfter v[i] (vupd v j f)[i] = true := by
  intro i hi
  unfold vupd
  split
  · rename_i hj
    rw [Vector.getElem_set]
    split
    · rename_i hij
      subst hij
      exact hf hj
    · exact keyAfter_refl _
  · exact keyAfter_refl _

theorem revoke_burns (v : Vector KeySlot 4) (j : Nat) :
    ∀ i (hi : i < 4), keyAfter v[i] (vupd v j fun k => { k with revoked := true })[i] = true :=
  keyAfter_vupd fun _ => by simp [keyAfter]

/-- A key is enrolled in a slot that holds none (R32). -/
theorem enrol_burns {f now : Fuses} {req : Option KeyReq} {code j : Nat} {h : Option (List Byte)}
    (he : enrolOutcome f now req = (code, some j)) :
    ∀ i (hi : i < 4), keyAfter f.keys[i] (vupd f.keys j fun k => { k with hash := h })[i] = true := by
  refine keyAfter_vupd fun hj => ?_
  have hn : f.keys[j].hash.isNone = true := by
    unfold enrolOutcome at he
    split at he
    · simp at he
    · split at he
      · simp at he
      · dsimp only at he
        generalize (if f.enrolled = true then _ else mcOk) = c at he
        split at he
        · simp at he
        · split at he
          · simp at he
          · rename_i i hfind
            have hi := List.find?_some hfind
            simp only [Prod.mk.injEq, Option.some.injEq] at he
            obtain ⟨-, rfl⟩ := he
            simpa [hj] using hi
  simp [keyAfter, hn]

theorem resetRegs_wf : nwf resetRegs = true := by decide +kernel

theorem State.showKeys_good {s₀ s} (h : Good s₀ s) : Good s₀ (State.showKeys s) := by
  unfold State.showKeys
  extract_lets +onlyGivenNames s0 s1
  exact State.setFld_good (State.setFld_good (State.setFld_good h))

theorem State.fullReset_good {s₀ s} {a0} (h : Good s₀ s) : Good s₀ (State.fullReset s a0) := by
  have h0 : ∀ r : State, r.regs = resetRegs → r.hbm = [] → r.ctrs = [] → r.hbmBad = [] → r.fuses = s.fuses → r.outbox = s.outbox →
      r.freeCtr = s.freeCtr → r.pending = s.pending → Good s₀ r := fun r k1 k2 k3 k4 h2 h3 h4 h5 =>
    ⟨fun _ => by rw [State.tidy, k1, k2, k3, k4, resetRegs_wf]; rfl,
      h5.trans h.queue, h3 ▸ h.sent, h4 ▸ h.drawn, h2 ▸ h.fuses⟩
  unfold State.fullReset
  extract_lets +onlyGivenNames a b c d r1
  have h1 : Good s₀ r1 := h0 r1 rfl rfl rfl rfl rfl rfl rfl rfl
  clear_value r1
  extract_lets +onlyGivenNames r2
  have h2 : Good s₀ r2 := State.showKeys_good (State.setQuad_good h1)
  clear_value r2
  extract_lets +onlyGivenNames r3
  have h3 : Good s₀ r3 := Good.ite h2 (State.alert_good h2)
  clear_value r3
  exact Good.ite (State.setFlag_good (State.setWord_good (State.setBytes_good h3))) h3

theorem State.beginStart_good {s₀ s} (h : Good s₀ s) : Good s₀ (State.beginStart s) := by
  unfold State.beginStart
  exact Good.ite (State.setFld_good (State.alert_good (Good.set h))) h

theorem State.restart_good {s₀ s} {a0} (h : Good s₀ s) : Good s₀ (State.restart s a0) := by
  unfold State.restart
  exact State.beginStart_good (State.fullReset_good h)

theorem State.haltAtt_good {s₀ s} {a0} (h : Good s₀ s) : Good s₀ (State.haltAtt s a0) := by
  unfold State.haltAtt
  extract_lets +onlyGivenNames s0
  have hs0 : Good s₀ s0 := State.setFlag_good h
  clear_value s0
  exact Good.ite hs0 (State.setFld_good (State.setFld_good (State.setFld_good hs0)))

theorem State.halt_good {s₀ s} {a0} (h : Good s₀ s) : Good s₀ (State.halt s a0) := by
  unfold State.halt
  extract_lets +onlyGivenNames s0
  have hs0 : Good s₀ s0 := State.setFlag_good (State.setFld_good (State.setMod_good h))
  clear_value s0
  extract_lets +onlyGivenNames s3 s4
  have hs4 : Good s₀ s4 := Good.set hs0
  clear_value s4
  refine State.note_good ?_
  refine Good.foldl ?_ hs4
  intro s9 x9_1 h9_2
  exact State.haltAtt_good h9_2

theorem State.mbxEnd_good {s₀ s} {a0} (h : Good s₀ s) : Good s₀ (State.mbxEnd s a0) := by
  unfold State.mbxEnd
  extract_lets +onlyGivenNames s0 s1
  have hs1 : Good s₀ s1 := Good.set h
  clear_value s1
  exact State.modEvent_good (State.setFld_good (State.setFlag_good (State.setFlag_good hs1)))

theorem State.mbxBad_good {s₀ s} {a0} (h : Good s₀ s) : Good s₀ (State.mbxBad s a0) := by
  unfold State.mbxBad
  extract_lets +onlyGivenNames s0
  exact Good.ite h (Good.ite (State.setFld_good h) (State.mbxEnd_good h))

theorem State.mbxBegin_good {s₀ s} {a0 a1} (h : Good s₀ s) : Good s₀ (State.mbxBegin s a0 a1) := by
  unfold State.mbxBegin
  exact State.setFlag_good (Good.set h)

theorem State.mbxGate_good {s₀ s} {a0 f} (hf : ∀ s, Good s₀ s → Good s₀ (f s)) (h : Good s₀ s) : Good s₀ (State.mbxGate s a0 f) := by
  unfold State.mbxGate
  exact Good.ite (State.setFld_good h) (Good.ite (State.mbxEnd_good h) (hf _ h))

theorem State.mbxEnrolKey_good {s₀ s} {a0} (h : Good s₀ s) : Good s₀ (State.mbxEnrolKey s a0) := by
  unfold State.mbxEnrolKey
  refine State.mbxGate_good (fun s h => ?_) h
  refine Good.ite (State.mbxBegin_good h) ?_
  split
  · rename_i he
    exact State.mbxBegin_good (State.showKeys_good (h.burn (enrol_burns he)))
  · exact State.mbxBegin_good h

theorem State.mbxProgram_good {s₀ s} {a0} (h : Good s₀ s) : GoodL s₀ (State.mbxProgram s a0) := by
  unfold State.mbxProgram
  split
  · extract_lets +onlyGivenNames s1
    exact GoodL.ite (GoodL.mk h) (GoodL.mk (Good.set h))
  · exact GoodL.ite (GoodL.mk h) (GoodL.mk (Good.set h))
  · exact GoodL.mk h

theorem State.mbxRestart_good {s₀ s} (h : Good s₀ s) : Good s₀ (State.mbxRestart s) := by
  unfold State.mbxRestart
  exact Good.ite (State.setFld_good h) (State.restart_good h)

theorem State.mbxRevokeKey_good {s₀ s} {a0} (h : Good s₀ s) : Good s₀ (State.mbxRevokeKey s a0) := by
  unfold State.mbxRevokeKey
  refine State.mbxGate_good (fun s h => ?_) h
  refine Good.ite (State.mbxBegin_good h) ?_
  split
  · exact State.mbxBegin_good (State.showKeys_good (h.burn (revoke_burns _ _)))
  · exact State.mbxBegin_good h

theorem State.mbxWriteFw_good {s₀ s} {a0 a1} (h : Good s₀ s) : Good s₀ (State.mbxWriteFw s a0 a1) := by
  unfold State.mbxWriteFw
  refine State.mbxGate_good ?_ h
  intro s1 h1_1
  extract_lets +onlyGivenNames s2
  refine Good.ite (State.mbxBegin_good h1_1) ?_
  extract_lets +onlyGivenNames s6 s7 s8
  have hs8 : Good s₀ s8 := Good.set h1_1
  clear_value s8
  split
  · exact State.mbxBegin_good hs8
  · exact State.mbxBegin_good (Good.set hs8)

theorem State.mbxWriteCat_good {s₀ s} {a0 a1} (h : Good s₀ s) : Good s₀ (State.mbxWriteCat s a0 a1) := by
  unfold State.mbxWriteCat
  refine State.mbxGate_good ?_ h
  intro s1 h1_1
  extract_lets +onlyGivenNames s2
  refine Good.ite (State.mbxBegin_good h1_1) ?_
  extract_lets +onlyGivenNames s6 s7 s8
  have hs8 : Good s₀ s8 := Good.set h1_1
  clear_value s8
  split
  · exact State.mbxBegin_good hs8
  · exact State.mbxBegin_good (Good.set hs8)

theorem execPowerGood_good {s₀ s} {a0 a1} (h : Good s₀ s) : GoodOut s₀ (execPowerGood a0 a1 s) := by
  unfold execPowerGood
  refine GoodOut.ite (GoodOut.next h) ?_
  extract_lets +onlyGivenNames s3 s4 s5 s6
  have hs6 : Good s₀ s6 := Good.set h
  clear_value s6
  exact GoodOut.next (Good.ite (State.beginStart_good hs6) hs6)

theorem execPerstAssert_good {s₀ s} (h : Good s₀ s) : GoodOut s₀ (execPerstAssert s) := by
  unfold execPerstAssert
  refine GoodOut.next ?_
  extract_lets +onlyGivenNames s1
  have hs1 : Good s₀ s1 := State.fullReset_good h
  clear_value s1
  exact Good.set hs1

theorem execMbxWriteFw_good {s₀ s} {a0 a1} (h : Good s₀ s) : GoodOut s₀ (execMbxWriteFw a0 a1 s) := by
  unfold execMbxWriteFw
  exact GoodOut.next (State.mbxWriteFw_good h)

theorem execMbxCommandEnd_good {s₀ s} {a0} (h : Good s₀ s) : GoodOut s₀ (execMbxCommandEnd a0 s) := by
  unfold execMbxCommandEnd
  split
  · exact GoodOut.next h
  · generalize he3 : State.mbxProgram _ _ = e3
    obtain ⟨se3, xe3⟩ := e3
    have hse3 : Good s₀ se3 := (GoodL.eq he3 (State.mbxProgram_good h))
    clear he3
    dsimp -zeta -zetaHave only
    exact GoodOut.next (State.mbxEnd_good hse3)

theorem execMbxRestart_good {s₀ s} (h : Good s₀ s) : GoodOut s₀ (execMbxRestart s) := by
  unfold execMbxRestart
  exact GoodOut.next (State.mbxRestart_good h)

theorem execPcieFunctionReady_good {s₀ s} (h : Good s₀ s) : GoodOut s₀ (execPcieFunctionReady s) := by
  unfold execPcieFunctionReady
  exact GoodOut.ite (GoodOut.next h) (GoodOut.next (Good.set h))

theorem execMbxWriteCat_good {s₀ s} {a0 a1} (h : Good s₀ s) : GoodOut s₀ (execMbxWriteCat a0 a1 s) := by
  unfold execMbxWriteCat
  exact GoodOut.next (State.mbxWriteCat_good h)

theorem execMbxRevokeKey_good {s₀ s} {a0} (h : Good s₀ s) : GoodOut s₀ (execMbxRevokeKey a0 s) := by
  unfold execMbxRevokeKey
  exact GoodOut.next (State.mbxRevokeKey_good h)

theorem execPerstDeassert_good {s₀ s} (h : Good s₀ s) : GoodOut s₀ (execPerstDeassert s) := by
  unfold execPerstDeassert
  exact GoodOut.ite (GoodOut.next (State.beginStart_good (Good.set h))) (GoodOut.next (Good.set h))

theorem execMatedOpen_good {s₀ s} (h : Good s₀ s) : GoodOut s₀ (execMatedOpen s) := by
  unfold execMatedOpen
  refine GoodOut.next ?_
  extract_lets +onlyGivenNames s1
  have hs1 : Good s₀ s1 := State.fullReset_good h
  clear_value s1
  exact Good.set hs1

theorem execMbxEnrolKey_good {s₀ s} {a0} (h : Good s₀ s) : GoodOut s₀ (execMbxEnrolKey a0 s) := by
  unfold execMbxEnrolKey
  exact GoodOut.next (State.mbxEnrolKey_good h)

theorem execMatedClose_good {s₀ s} (h : Good s₀ s) : GoodOut s₀ (execMatedClose s) := by
  unfold execMatedClose
  exact GoodOut.ite (GoodOut.next h) (GoodOut.next (State.beginStart_good (Good.set h)))

theorem execMbxBadCmd_good {s₀ s} {a0} (h : Good s₀ s) : GoodOut s₀ (execMbxBadCmd a0 s) := by
  unfold execMbxBadCmd
  exact GoodOut.next (State.mbxBad_good h)

end Sys2Proof.Machine
end

