-- ==== Sys2Proof/Laws/Good/TickOps.lean ====
section
/-!
SUPPORT. Good/TickOps.lean: every operation of Machine/TickOps.lean keeps what `Good` says.
-/

namespace Sys2Proof.Machine

theorem State.setSrc_good {s₀ s} {a0} (h : Good s₀ s) : Good s₀ (State.setSrc s a0) := by
  unfold State.setSrc
  exact State.setFld_good h

theorem State.setTin_good {s₀ s} {a0} (h : Good s₀ s) : Good s₀ (State.setTin s a0) := by
  unfold State.setTin
  exact Good.set h

theorem State.boundaryRole_good {s₀ s} (h : Good s₀ s) : Good s₀ (State.boundaryRole s) := by
  unfold State.boundaryRole
  extract_lets +onlyGivenNames s0
  refine Good.ite (State.setTin_good (State.setFlag_good (State.setSrc_good (State.setFlag_good h)))) ?_
  refine Good.ite ?_ h
  extract_lets +onlyGivenNames s8
  have hs8 : Good s₀ s8 := State.setFld_good (State.setFlag_good (State.setSrc_good (State.setFlag_good h)))
  clear_value s8
  exact Good.set hs8

theorem State.enterHoldover_good {s₀ s} {a0} (h : Good s₀ s) : Good s₀ (State.enterHoldover s a0) := by
  unfold State.enterHoldover
  extract_lets +onlyGivenNames s0
  have hs0 : Good s₀ s0 := State.setFlag_good (State.setSrc_good h)
  clear_value s0
  exact Good.set hs0

theorem State.showCopy_good {s₀ s} {a0 a1} (h : Good s₀ s) : Good s₀ (State.showCopy s a0 a1) := by
  unfold State.showCopy
  extract_lets +onlyGivenNames s0 s1
  have hs1 : Good s₀ s1 := State.setFlag_good (State.setFld_good h)
  clear_value s1
  extract_lets +onlyGivenNames s4
  have hs4 : Good s₀ s4 := Good.ite (State.setFlag_good hs1) hs1
  clear_value s4
  exact State.setWord_good hs4

theorem State.followSymbol_good {s₀ s} {a0 a1 a2} (h : Good s₀ s) : Good s₀ (State.followSymbol s a0 a1 a2) := by
  unfold State.followSymbol
  extract_lets +onlyGivenNames s0 s1 s2 s3
  have hs3 : Good s₀ s3 := Good.ite (State.setFlag_good h) h
  clear_value s3
  extract_lets +onlyGivenNames s6
  have hs6 : Good s₀ s6 := State.showCopy_good hs3
  clear_value s6
  extract_lets +onlyGivenNames s9 s10 s11 s12
  have hs12 : Good s₀ s12 := Good.set hs6
  clear_value s12
  exact Good.ite (State.setSrc_good hs12) hs12

theorem State.sendSymbol_good {s₀ s} {a0} (h : Good s₀ s) : Good s₀ (State.sendSymbol s a0) := by
  unfold State.sendSymbol
  refine Good.foldl ?_ h
  intro s1 x1_1 h1_2
  exact Good.ite (State.send_good h1_2) h1_2

theorem State.forwardSymbol_good {s₀ s} {a0 a1} (h : Good s₀ s) : Good s₀ (State.forwardSymbol s a0 a1) := by
  unfold State.forwardSymbol
  generalize he0 : State.free _ = e0
  obtain ⟨xe0, se0⟩ := e0
  have hse0 : Good s₀ se0 := (GoodR.eq he0 (State.free_good h))
  clear he0
  dsimp -zeta -zetaHave only
  extract_lets +onlyGivenNames s5
  exact State.sendSymbol_good hse0

theorem State.placeEdge_good {s₀ s} {a0 a1} (h : Good s₀ s) : Good s₀ (State.placeEdge s a0 a1) := by
  unfold State.placeEdge
  extract_lets +onlyGivenNames s0
  have hs0 : Good s₀ s0 := State.sendSymbol_good h
  clear_value s0
  exact Good.set hs0

theorem State.lockedEdge_good {s₀ s} {a0 a1} (h : Good s₀ s) : Good s₀ (State.lockedEdge s a0 a1) := by
  unfold State.lockedEdge
  exact Good.ite (State.placeEdge_good (State.setTin_good h)) (State.bump_good (State.setTin_good h))

theorem State.noteCensus_good {s₀ s} {a0 a1} (h : Good s₀ s) : Good s₀ (State.noteCensus s a0 a1) := by
  unfold State.noteCensus
  exact Good.ite (State.halt_good h) h

theorem State.slewDone_good {s₀ s} {a0} (h : Good s₀ s) : Good s₀ (State.slewDone s a0) := by
  unfold State.slewDone
  split
  · exact Good.ite (State.setSrc_good h) h
  · exact h

theorem State.tickBoundary_good {s₀ s} {a0} (h : Good s₀ s) : Good s₀ (State.tickBoundary s a0) := by
  unfold State.tickBoundary
  extract_lets +onlyGivenNames s0 s1 s2 s3 s4
  have hs4 : Good s₀ s4 := State.setQuad_good h
  clear_value s4
  extract_lets +onlyGivenNames s7
  have hs7 : Good s₀ s7 := State.boundaryRole_good (Good.ite (State.setFlag_good hs4) hs4)
  clear_value s7
  extract_lets +onlyGivenNames s10
  have hs10 : Good s₀ s10 := State.slewDone_good hs7
  clear_value s10
  extract_lets +onlyGivenNames s13 s14 s15
  have hs15 : Good s₀ s15 := Good.set hs10
  clear_value s15
  exact Good.ite (State.sendSymbol_good hs15) hs15

theorem State.yieldTo_good {s₀ s} {a0 a1 a2} (h : Good s₀ s) : Good s₀ (State.yieldTo s a0 a1 a2) := by
  unfold State.yieldTo
  extract_lets +onlyGivenNames s0
  have hs0 : Good s₀ s0 := State.showCopy_good h
  clear_value s0
  exact Good.set hs0

theorem execTickOutEnd_good {s₀ s} (h : Good s₀ s) : GoodOut s₀ (execTickOutEnd s) := by
  unfold execTickOutEnd
  exact GoodOut.next (Good.set h)

theorem execTickInEdge_good {s₀ s} {a0} (h : Good s₀ s) : GoodOut s₀ (execTickInEdge a0 s) := by
  unfold execTickInEdge
  refine GoodOut.ite (GoodOut.next h) ?_
  extract_lets +onlyGivenNames s3
  split
  · refine GoodOut.ite (GoodOut.next (State.bump_good h)) ?_
    extract_lets +onlyGivenNames s9 s10
    exact GoodOut.ite (GoodOut.next (State.lockedEdge_good h)) (GoodOut.ite (GoodOut.next (State.setSrc_good (State.setTin_good h))) (GoodOut.next (State.setTin_good h)))
  · exact GoodOut.next (State.setTin_good h)

theorem execTickLockTimeout_good {s₀ s} (h : Good s₀ s) : GoodOut s₀ (execTickLockTimeout s) := by
  unfold execTickLockTimeout
  exact GoodOut.ite (GoodOut.next (State.halt_good h)) (GoodOut.next h)

theorem execDelayEchoReceive_good {s₀ s} {a0 a1 a2} (h : Good s₀ s) : GoodOut s₀ (execDelayEchoReceive a0 a1 a2 s) := by
  unfold execDelayEchoReceive
  refine GoodOut.ite (GoodOut.next h) ?_
  extract_lets +onlyGivenNames s3
  exact GoodOut.ite (GoodOut.next (Good.set h)) (GoodOut.next (State.setWord_good h))

theorem execDelayEcho_good {s₀ s} (h : Good s₀ s) : GoodOut s₀ (execDelayEcho s) := by
  unfold execDelayEcho
  refine GoodOut.next ?_
  refine Good.foldl ?_ h
  intro s2 x2_1 h2_2
  exact Good.ite (State.send_good (State.send_good h2_2)) h2_2

theorem execHoldoverLimit_good {s₀ s} (h : Good s₀ s) : GoodOut s₀ (execHoldoverLimit s) := by
  unfold execHoldoverLimit
  exact GoodOut.ite (GoodOut.next (Good.set h)) (GoodOut.next h)

theorem execSuccessionTakeover_good {s₀ s} {a0} (h : Good s₀ s) : GoodOut s₀ (execSuccessionTakeover a0 s) := by
  unfold execSuccessionTakeover
  exact GoodOut.ite (GoodOut.next (Good.set h)) (GoodOut.next h)

theorem execTickInHoldover_good {s₀ s} {a0} (h : Good s₀ s) : GoodOut s₀ (execTickInHoldover a0 s) := by
  unfold execTickInHoldover
  extract_lets +onlyGivenNames s0
  split
  · exact GoodOut.ite (GoodOut.next (State.setFlag_good (State.setSrc_good (State.setTin_good h)))) (GoodOut.next h)
  · exact GoodOut.next h

theorem execTickSymbolReceive_good {s₀ s} {a0 a1 a2} (h : Good s₀ s) : GoodOut s₀ (execTickSymbolReceive a0 a1 a2 s) := by
  unfold execTickSymbolReceive
  extract_lets +onlyGivenNames s0 s1
  refine GoodOut.ite (GoodOut.next h) ?_
  extract_lets +onlyGivenNames s5
  exact GoodOut.ite (GoodOut.ite (GoodOut.next h) (GoodOut.next (State.yieldTo_good (State.forwardSymbol_good h)))) (GoodOut.next (State.followSymbol_good (State.forwardSymbol_good h)))

theorem execTickInWindowExpiry_good {s₀ s} {a0} (h : Good s₀ s) : GoodOut s₀ (execTickInWindowExpiry a0 s) := by
  unfold execTickInWindowExpiry
  extract_lets +onlyGivenNames s0
  exact GoodOut.ite (GoodOut.next (State.placeEdge_good h)) (GoodOut.next h)

theorem execTickOriginateTimeout_good {s₀ s} {a0} (h : Good s₀ s) : GoodOut s₀ (execTickOriginateTimeout a0 s) := by
  unfold execTickOriginateTimeout
  refine GoodOut.ite ?_ (GoodOut.next h)
  extract_lets +onlyGivenNames s1
  have hs1 : Good s₀ s1 := State.setFld_good (State.setSrc_good (State.setFlag_good h))
  clear_value s1
  extract_lets +onlyGivenNames s4 s5 s6
  have hs6 : Good s₀ s6 := Good.set hs1
  clear_value s6
  exact GoodOut.next (State.placeEdge_good hs6)

theorem execCensusReceive_good {s₀ s} {a0 a1} (h : Good s₀ s) : GoodOut s₀ (execCensusReceive a0 a1 s) := by
  unfold execCensusReceive
  exact GoodOut.next (State.noteCensus_good h)

theorem execMasterRelinquish_good {s₀ s} {a0} (h : Good s₀ s) : GoodOut s₀ (execMasterRelinquish a0 s) := by
  unfold execMasterRelinquish
  refine GoodOut.ite ?_ (GoodOut.next h)
  extract_lets +onlyGivenNames s1
  have hs1 : Good s₀ s1 := State.setTin_good (State.setFlag_good h)
  clear_value s1
  exact GoodOut.next (State.enterHoldover_good (Good.set hs1))

theorem execHoldoverEntry_good {s₀ s} {a0} (h : Good s₀ s) : GoodOut s₀ (execHoldoverEntry a0 s) := by
  unfold execHoldoverEntry
  exact GoodOut.ite (GoodOut.next (State.enterHoldover_good h)) (GoodOut.next h)

end Sys2Proof.Machine
end

