-- ==== Sys2Proof/Laws/Good/Links.lean ====
section
/-!
SUPPORT. Good/Links.lean: every operation of Machine/Links.lean keeps what `Good` says.
-/

namespace Sys2Proof.Machine

theorem State.updPort_good {s₀ s} {a0 a1} (h : Good s₀ s) : Good s₀ (State.updPort s a0 a1) := by
  unfold State.updPort
  exact Good.set h

theorem State.freeBuffer_good {s₀ s} {a0 a1 a2} (h : Good s₀ s) : Good s₀ (State.freeBuffer s a0 a1 a2) := by
  unfold State.freeBuffer
  exact Good.ite h (State.updPort_good h)

theorem State.sendBlock_good {s₀ s} {a0 a1 a2 a3} (h : Good s₀ s) : Good s₀ (State.sendBlock s a0 a1 a2 a3) := by
  unfold State.sendBlock
  extract_lets +onlyGivenNames s0
  exact State.send_good (State.updPort_good h)

theorem State.emit_good {s₀ s} {a0 a1} (h : Good s₀ s) : Good s₀ (State.emit s a0 a1) := by
  unfold State.emit
  extract_lets +onlyGivenNames s0
  exact State.updPort_good (State.sendBlock_good h)

theorem State.sendOne_good {s₀ s} {a0 a1 a2} (h : Good s₀ s) : Good s₀ (State.sendOne s a0 a1 a2) := by
  unfold State.sendOne
  extract_lets +onlyGivenNames s0
  have hs0 : Good s₀ s0 := State.emit_good h
  clear_value s0
  split
  · extract_lets +onlyGivenNames s4
    have hs4 : Good s₀ s4 := State.updPort_good hs0
    clear_value s4
    split
    · exact State.freeBuffer_good hs4
    · exact hs4
  · exact Good.set hs0

theorem State.sendAll_good {s₀ s} {a0 a1} (h : Good s₀ s) : Good s₀ (State.sendAll s a0 a1) := by
  induction a1 generalizing s
  · exact h
  rename_i fuel ih
  unfold State.sendAll
  refine Good.ite h ?_
  split
  · exact h
  · split
    · exact h
    · exact ih (State.sendOne_good (State.updPort_good h))

theorem State.flushPort_good {s₀ s} {a0} (h : Good s₀ s) : Good s₀ (State.flushPort s a0) := by
  unfold State.flushPort
  exact State.sendAll_good h

theorem State.nextTag_good {s₀ s} {a0 a1} (h : Good s₀ s) : GoodR s₀ (State.nextTag s a0 a1) := by
  unfold State.nextTag
  extract_lets +onlyGivenNames s0 s1 s2
  exact GoodR.mk (Good.set h)

theorem State.holdPacket_good {s₀ s} {a0} (h : Good s₀ s) : Good s₀ (State.holdPacket s a0) := by
  unfold State.holdPacket
  generalize he0 : State.nextTag _ _ _ = e0
  obtain ⟨xe0, se0⟩ := e0
  have hse0 : Good s₀ se0 := (GoodR.eq he0 (State.nextTag_good h))
  clear he0
  dsimp -zeta -zetaHave only
  exact State.flushPort_good (Good.set hse0)

theorem State.sendPacket_good {s₀ s} {a0 a1 a2 a3} (h : Good s₀ s) : GoodO s₀ (State.sendPacket s a0 a1 a2 a3) := by
  unfold State.sendPacket
  extract_lets +onlyGivenNames s0
  refine GoodO.map ?_
  intro x2
  extract_lets +onlyGivenNames s3
  exact Good.ite (Good.set h) (State.holdPacket_good h)

theorem State.sendCtl_good {s₀ s} {a0 a1} (h : Good s₀ s) : Good s₀ (State.sendCtl s a0 a1) := by
  unfold State.sendCtl
  extract_lets +onlyGivenNames s0
  exact GoodO.getD (State.sendPacket_good h) h

theorem State.sendTwin_good {s₀ s} {a0 a1} (h : Good s₀ s) : Good s₀ (State.sendTwin s a0 a1) := by
  unfold State.sendTwin
  extract_lets +onlyGivenNames s0
  exact GoodO.getD (State.sendPacket_good h) h

theorem State.holdLater_good {s₀ s} (h : Good s₀ s) : Good s₀ (State.holdLater s) := by
  unfold State.holdLater
  refine Good.foldl ?_ h
  intro s1 x1_1 h1_2
  exact Good.ite (State.holdPacket_good (Good.set h1_2)) h1_2

theorem State.ackHeld_good {s₀ s} {a0 a1 a2} (h : Good s₀ s) : GoodL s₀ (State.ackHeld s a0 a1 a2) := by
  unfold State.ackHeld
  extract_lets +onlyGivenNames s0
  exact GoodL.mk (State.holdLater_good (Good.set h))

theorem State.enqueue_good {s₀ s} {a0 a1} (h : Good s₀ s) : Good s₀ (State.enqueue s a0 a1) := by
  unfold State.enqueue
  exact State.flushPort_good (State.updPort_good h)

theorem State.acknowledge_good {s₀ s} {a0} (h : Good s₀ s) : Good s₀ (State.acknowledge s a0) := by
  unfold State.acknowledge
  extract_lets +onlyGivenNames s0
  split
  · exact State.enqueue_good h
  · exact h

theorem State.answerTable_good {s₀ s} {a0} (h : Good s₀ s) : Good s₀ (State.answerTable s a0) := by
  unfold State.answerTable
  exact Good.ite (State.sendCtl_good h) h

theorem State.sendVc3_good {s₀ s} {a0} (h : Good s₀ s) : Good s₀ (State.sendVc3 s a0) := by
  unfold State.sendVc3
  extract_lets +onlyGivenNames s0
  exact GoodO.getD (State.sendPacket_good h) h

theorem State.updAtt_good {s₀ s} {a0 a1} (h : Good s₀ s) : Good s₀ (State.updAtt s a0 a1) := by
  unfold State.updAtt
  exact Good.set h

theorem State.bypass_good {s₀ s} {a0 a1} (h : Good s₀ s) : Good s₀ (State.bypass s a0 a1) := by
  unfold State.bypass
  extract_lets +onlyGivenNames s0
  have hs0 : Good s₀ s0 := State.updAtt_good h
  clear_value s0
  exact Good.ite hs0 (State.setFlag_good hs0)

theorem State.setPort_good {s₀ s} {a0 a1} (h : Good s₀ s) : Good s₀ (State.setPort s a0 a1) := by
  unfold State.setPort
  exact Good.ite h (State.event_good (State.setFld_good h))

theorem State.setAtt_good {s₀ s} {a0 a1} (h : Good s₀ s) : Good s₀ (State.setAtt s a0 a1) := by
  unfold State.setAtt
  exact Good.ite h (State.event_good (State.modEvent_good (State.setFld_good h)))

theorem State.rehold_good {s₀ s} {a0} (h : Good s₀ s) : Good s₀ (State.rehold s a0) := by
  unfold State.rehold
  split
  · refine Good.ite h ?_
    extract_lets +onlyGivenNames s3 s4
    have hs4 : Good s₀ s4 := Good.set h
    clear_value s4
    exact Good.ite (State.bump_good hs4) hs4
  · extract_lets +onlyGivenNames s14
    extract_lets +onlyGivenNames s15
    have hs15 : Good s₀ s15 := Good.set h
    clear_value s15
    extract_lets +onlyGivenNames s18
    have hs18 : Good s₀ s18 := State.bump_good hs15
    clear_value s18
    exact Good.ite (State.note_good hs18) hs18

theorem State.forgetGone_good {s₀ s} (h : Good s₀ s) : Good s₀ (State.forgetGone s) := by
  unfold State.forgetGone
  extract_lets +onlyGivenNames s0
  exact Good.set h

theorem State.repath_good {s₀ s} (h : Good s₀ s) : Good s₀ (State.repath s) := by
  unfold State.repath
  extract_lets +onlyGivenNames s0
  have hs0 : Good s₀ s0 := by
    subst s0
    refine State.forgetGone_good ?_
    refine Good.foldl ?_ h
    intro s11 x11_1 h11_2
    exact State.rehold_good h11_2
  clear_value s0
  refine Good.foldl ?_ hs0
  intro s4 x4_1 h4_2
  exact State.flushPort_good h4_2

theorem State.linkChanged_good {s₀ s} {a0} (h : Good s₀ s) : Good s₀ (State.linkChanged s a0) := by
  unfold State.linkChanged
  extract_lets +onlyGivenNames s0 s1 s2 s3
  refine Good.foldl ?_ (State.repath_good h)
  intro s5 x5_1 h5_2
  exact Good.ite h5_2 (State.sendCtl_good h5_2)

theorem State.attDown_good {s₀ s} {a0} (h : Good s₀ s) : Good s₀ (State.attDown s a0) := by
  unfold State.attDown
  extract_lets +onlyGivenNames s0
  have hs0 : Good s₀ s0 := State.updAtt_good (State.bypass_good h)
  clear_value s0
  extract_lets +onlyGivenNames s3
  have hs3 : Good s₀ s3 := State.setPort_good (State.setPort_good hs0)
  clear_value s3
  exact State.linkChanged_good (State.note_good (State.setFlag_good (State.setAtt_good hs3)))

theorem State.flood_good {s₀ s} {a0} (h : Good s₀ s) : Good s₀ (State.flood s a0) := by
  unfold State.flood
  extract_lets +onlyGivenNames s0
  refine Good.foldl ?_ h
  intro s2 x2_1 h2_2
  exact State.sendCtl_good h2_2

theorem State.setServe_good {s₀ s} {a0 a1} (h : Good s₀ s) : Good s₀ (State.setServe s a0 a1) := by
  unfold State.setServe
  extract_lets +onlyGivenNames s0
  exact State.setQuad_good h

theorem State.fecCounts_good {s₀ s} {a0 a1} (h : Good s₀ s) : Good s₀ (State.fecCounts s a0 a1) := by
  unfold State.fecCounts
  generalize he0 : State.free _ = e0
  obtain ⟨xe0, se0⟩ := e0
  have hse0 : Good s₀ se0 := (GoodR.eq he0 (State.free_good h))
  clear he0
  dsimp -zeta -zetaHave only
  extract_lets +onlyGivenNames s5
  have hs5 : Good s₀ s5 := State.bump_good hse0
  clear_value s5
  exact Good.ite hs5 (State.bump_good (GoodR.out (State.free_good hs5)))

theorem State.nextBlock_good {s₀ s} {a0} (h : Good s₀ s) : Good s₀ (State.nextBlock s a0) := by
  unfold State.nextBlock
  extract_lets +onlyGivenNames s0
  have hs0 : Good s₀ s0 := State.flushPort_good h
  clear_value s0
  exact Good.ite (State.sendBlock_good hs0) hs0

theorem State.leaveBuffer_good {s₀ s} {a0 a1} (h : Good s₀ s) : Good s₀ (State.leaveBuffer s a0 a1) := by
  unfold State.leaveBuffer
  split
  · exact State.nextBlock_good (State.freeBuffer_good h)
  · exact h

theorem State.forward_good {s₀ s} {a0 a1} (h : Good s₀ s) : Good s₀ (State.forward s a0 a1) := by
  unfold State.forward
  extract_lets +onlyGivenNames s0
  split
  · extract_lets +onlyGivenNames s2
    exact State.enqueue_good h
  · exact State.leaveBuffer_good h

theorem State.portUp_good {s₀ s} {a0} (h : Good s₀ s) : Good s₀ (State.portUp s a0) := by
  unfold State.portUp
  extract_lets +onlyGivenNames s0 s1
  exact Good.ite (State.setPort_good h) (State.setFlag_good (State.setFld_good (State.setPort_good h)))

theorem State.laneFail_good {s₀ s} {a0 a1} (h : Good s₀ s) : Good s₀ (State.laneFail s a0 a1) := by
  unfold State.laneFail
  extract_lets +onlyGivenNames s0
  have hs0 : Good s₀ s0 := State.note_good (State.updPort_good h)
  clear_value s0
  extract_lets +onlyGivenNames s3
  exact Good.ite (Good.ite (State.attDown_good hs0) (State.repath_good (State.note_good (State.setPort_good hs0)))) (Good.ite (State.portUp_good hs0) hs0)

theorem State.putBypassed_good {s₀ s} {a0 a1 a2} (h : Good s₀ s) : Good s₀ (State.putBypassed s a0 a1 a2) := by
  unfold State.putBypassed
  extract_lets +onlyGivenNames s0
  exact Good.set h

theorem State.learnGap_good {s₀ s} {a0 a1 a2 a3} (h : Good s₀ s) : Good s₀ (State.learnGap s a0 a1 a2 a3) := by
  unfold State.learnGap
  extract_lets +onlyGivenNames s0 s1
  refine State.putBypassed_good ?_
  refine Good.foldl ?_ h
  intro s4 x4_1 h4_2
  exact State.putBypassed_good h4_2

theorem State.linkAck_good {s₀ s} {a0 a1} (h : Good s₀ s) : Good s₀ (State.linkAck s a0 a1) := by
  unfold State.linkAck
  extract_lets +onlyGivenNames s0 s1
  exact Good.ite h (State.updPort_good h)

theorem State.linkGap_good {s₀ s} {a0} (h : Good s₀ s) : Good s₀ (State.linkGap s a0) := by
  unfold State.linkGap
  exact State.updPort_good h

theorem State.lnkRetry_good {s₀ s} {a0} (h : Good s₀ s) : Good s₀ (State.lnkRetry s a0) := by
  unfold State.lnkRetry
  refine Good.foldl ?_ h
  intro s1 x1_1 h1_2
  exact Good.ite (State.setAtt_good (State.setFlag_good h1_2)) h1_2

theorem State.markSeen_good {s₀ s} {a0} (h : Good s₀ s) : Good s₀ (State.markSeen s a0) := by
  unfold State.markSeen
  extract_lets +onlyGivenNames s0
  exact Good.set h

theorem State.noteBeat_good {s₀ s} (h : Good s₀ s) : Good s₀ (State.noteBeat s) := by
  unfold State.noteBeat
  exact Good.set h

theorem State.noteLink_good {s₀ s} {a0 a1 a2 a3 a4} (h : Good s₀ s) : Good s₀ (State.noteLink s a0 a1 a2 a3 a4) := by
  unfold State.noteLink
  extract_lets +onlyGivenNames s0
  have hs0 : Good s₀ s0 := State.putBypassed_good h
  clear_value s0
  extract_lets +onlyGivenNames s3 s4 s5
  have hs5 : Good s₀ s5 := Good.set hs0
  clear_value s5
  exact State.repath_good (Good.ite (State.learnGap_good hs5) hs5)

theorem State.noteServing_good {s₀ s} {a0 a1} (h : Good s₀ s) : Good s₀ (State.noteServing s a0 a1) := by
  unfold State.noteServing
  refine Good.ite h ?_
  extract_lets +onlyGivenNames s2 s3 s4
  refine Good.ite ?_ ?_
  · extract_lets +onlyGivenNames s6
    have hs6 : Good s₀ s6 := State.setServe_good h
    clear_value s6
    exact Good.set hs6
  · refine Good.ite h ?_
    refine Good.ite ?_ (State.setServe_good h)
    extract_lets +onlyGivenNames s17
    have hs17 : Good s₀ s17 := State.setServe_good h
    clear_value s17
    exact Good.set hs17

theorem State.openJoin_good {s₀ s} {a0} (h : Good s₀ s) : Good s₀ (State.openJoin s a0) := by
  unfold State.openJoin
  extract_lets +onlyGivenNames s0
  have hs0 : Good s₀ s0 := State.updAtt_good (State.bypass_good h)
  clear_value s0
  extract_lets +onlyGivenNames s3
  have hs3 : Good s₀ s3 := State.setPort_good (State.setPort_good hs0)
  clear_value s3
  extract_lets +onlyGivenNames s6
  have hs6 : Good s₀ s6 := State.updPort_good (State.updPort_good hs3)
  clear_value s6
  exact State.linkChanged_good (State.setAtt_good hs6)

theorem State.takePartner_good {s₀ s} {a0 a1 a2} (h : Good s₀ s) : Good s₀ (State.takePartner s a0 a1 a2) := by
  unfold State.takePartner
  extract_lets +onlyGivenNames s0 s1 s2
  have hs2 : Good s₀ s2 := State.updPort_good h
  clear_value s2
  extract_lets +onlyGivenNames s5
  have hs5 : Good s₀ s5 := State.setWord_good hs2
  clear_value s5
  exact Good.ite (State.learnGap_good hs5) hs5

theorem State.passIdent_good {s₀ s} {a0 a1 a2} (h : Good s₀ s) : Good s₀ (State.passIdent s a0 a1 a2) := by
  unfold State.passIdent
  extract_lets +onlyGivenNames s0
  have hs0 : Good s₀ s0 := State.takePartner_good h
  clear_value s0
  refine Good.ite (State.portUp_good hs0) ?_
  extract_lets +onlyGivenNames s6
  refine Good.ite ?_ hs0
  extract_lets +onlyGivenNames s8
  have hs8 : Good s₀ s8 := State.updAtt_good hs0
  clear_value s8
  exact State.linkChanged_good (State.setFlag_good (State.setAtt_good (State.portUp_good (State.portUp_good hs8))))

theorem State.takeArrived_good {s₀ s} {a0} (h : Good s₀ s) : GoodR s₀ (State.takeArrived s a0) := by
  unfold State.takeArrived
  split
  · exact GoodR.mk h
  · exact GoodR.mk (Good.set h)

theorem State.retrain_good {s₀ s} {a0} (h : Good s₀ s) : Good s₀ (State.retrain s a0) := by
  unfold State.retrain
  extract_lets +onlyGivenNames s0
  have hs0 : Good s₀ s0 := State.note_good (State.bump_good (State.setPort_good h))
  clear_value s0
  extract_lets +onlyGivenNames s3
  have hs3 : Good s₀ s3 := State.updPort_good hs0
  clear_value s3
  exact Good.ite (State.linkChanged_good hs3) (State.repath_good hs3)

theorem State.resend_good {s₀ s} {a0} (h : Good s₀ s) : Good s₀ (State.resend s a0) := by
  unfold State.resend
  extract_lets +onlyGivenNames s0 s1
  have hs1 : Good s₀ s1 := by
    subst s1
    refine Good.foldl ?_ (State.bump_good h)
    intro s16 x16_1 h16_2
    obtain ⟨y17, zy17⟩ := x16_1
    dsimp -zeta -zetaHave only
    exact State.sendBlock_good h16_2
  clear_value s1
  extract_lets +onlyGivenNames s4
  have hs4 : Good s₀ s4 := State.updPort_good hs1
  clear_value s4
  exact Good.ite (State.retrain_good hs4) hs4

theorem State.takeBlock_good {s₀ s} {a0 a1 a2} (h : Good s₀ s) : Good s₀ (State.takeBlock s a0 a1 a2) := by
  unfold State.takeBlock
  extract_lets +onlyGivenNames s0
  have hs0 : Good s₀ s0 := State.updPort_good h
  clear_value s0
  exact Good.set hs0

theorem execServingTableRequest_good {s₀ s} {a0} (h : Good s₀ s) : GoodOut s₀ (execServingTableRequest a0 s) := by
  unfold execServingTableRequest
  exact GoodOut.next (State.answerTable_good h)

theorem execJoinRetryTimer_good {s₀ s} {a0} (h : Good s₀ s) : GoodOut s₀ (execJoinRetryTimer a0 s) := by
  unfold execJoinRetryTimer
  exact GoodOut.ite (GoodOut.next (State.openJoin_good h)) (GoodOut.next h)

theorem execJoinWindowExpiry_good {s₀ s} {a0} (h : Good s₀ s) : GoodOut s₀ (execJoinWindowExpiry a0 s) := by
  unfold execJoinWindowExpiry
  refine GoodOut.ite (GoodOut.next h) ?_
  extract_lets +onlyGivenNames s3
  have hs3 : Good s₀ s3 := State.updAtt_good (State.bypass_good h)
  clear_value s3
  extract_lets +onlyGivenNames s6
  have hs6 : Good s₀ s6 := State.setPort_good (State.setPort_good hs3)
  clear_value s6
  extract_lets +onlyGivenNames s9
  have hs9 : Good s₀ s9 := Good.ite hs6 (State.setFlag_good (State.setAtt_good hs6))
  clear_value s9
  exact GoodOut.next (State.linkChanged_good hs9)

theorem execHeartbeatReceive_good {s₀ s} (h : Good s₀ s) : GoodOut s₀ (execHeartbeatReceive s) := by
  unfold execHeartbeatReceive
  exact GoodOut.next (State.noteBeat_good h)

theorem execIdentReceive_good {s₀ s} {a0 a1} (h : Good s₀ s) : GoodOut s₀ (execIdentReceive a0 a1 s) := by
  unfold execIdentReceive
  extract_lets +onlyGivenNames s0
  refine GoodOut.ite (GoodOut.next h) ?_
  split
  · exact GoodOut.next (Good.ite (State.halt_good h) h)
  · exact GoodOut.next (Good.ite (State.updPort_good h) h)
  · exact GoodOut.next (Good.ite (State.note_good h) h)
  · exact GoodOut.next (Good.ite (State.note_good h) h)
  · exact GoodOut.next (Good.ite (State.passIdent_good h) h)

theorem execLinkResendTimeout_good {s₀ s} {a0} (h : Good s₀ s) : GoodOut s₀ (execLinkResendTimeout a0 s) := by
  unfold execLinkResendTimeout
  exact GoodOut.ite (GoodOut.next (State.resend_good h)) (GoodOut.next h)

theorem execPortPartnerLoss_good {s₀ s} {a0} (h : Good s₀ s) : GoodOut s₀ (execPortPartnerLoss a0 s) := by
  unfold execPortPartnerLoss
  exact GoodOut.ite (GoodOut.next (State.retrain_good h)) (GoodOut.next h)

theorem execLinkTrainingTimeout_good {s₀ s} (h : Good s₀ s) : GoodOut s₀ (execLinkTrainingTimeout s) := by
  unfold execLinkTrainingTimeout
  refine GoodOut.ite (GoodOut.next h) ?_
  extract_lets +onlyGivenNames s3
  have hs3 : Good s₀ s3 := by
    subst s3
    refine Good.foldl ?_ h
    intro s13 x13_1 h13_2
    exact Good.ite (State.attDown_good h13_2) h13_2
  clear_value s3
  exact GoodOut.next (Good.ite hs3 (State.halt_good hs3))

theorem execBypassSettleTimeout_good {s₀ s} {a0} (h : Good s₀ s) : GoodOut s₀ (execBypassSettleTimeout a0 s) := by
  unfold execBypassSettleTimeout
  refine GoodOut.ite (GoodOut.next h) ?_
  extract_lets +onlyGivenNames s3
  have hs3 : Good s₀ s3 := State.setFlag_good (State.note_good h)
  clear_value s3
  extract_lets +onlyGivenNames s6
  have hs6 : Good s₀ s6 := State.updAtt_good hs3
  clear_value s6
  exact GoodOut.next (State.linkChanged_good (State.setFlag_good (State.setPort_good (State.setPort_good (State.setAtt_good hs6)))))

theorem execServingAnnouncement_good {s₀ s} {a0 a1} (h : Good s₀ s) : GoodOut s₀ (execServingAnnouncement a0 a1 s) := by
  unfold execServingAnnouncement
  exact GoodOut.next (State.noteServing_good h)

theorem execPortRetrainComplete_good {s₀ s} {a0 a1} (h : Good s₀ s) : GoodOut s₀ (execPortRetrainComplete a0 a1 s) := by
  unfold execPortRetrainComplete
  refine GoodOut.ite (GoodOut.next h) ?_
  split
  · extract_lets +onlyGivenNames s4
    have hs4 : Good s₀ s4 := State.portUp_good (State.takePartner_good h)
    clear_value s4
    exact GoodOut.next (Good.ite (State.linkChanged_good hs4) (State.repath_good hs4))
  · exact GoodOut.next (State.halt_good h)
  · exact GoodOut.next (State.note_good h)
  · exact GoodOut.next (State.note_good h)
  · exact GoodOut.next h

theorem execLaneFail_good {s₀ s} {a0 a1 a2} (h : Good s₀ s) : GoodOut s₀ (execLaneFail a0 a1 a2 s) := by
  unfold execLaneFail
  refine GoodOut.ite ?_ (GoodOut.next h)
  extract_lets +onlyGivenNames s1
  refine GoodOut.ite (GoodOut.next (Good.set h)) ?_
  refine GoodOut.next ?_
  extract_lets +onlyGivenNames s7
  have hs7 : Good s₀ s7 := State.laneFail_good h
  clear_value s7
  exact Good.set hs7

theorem execLnkRetry_good {s₀ s} {a0} (h : Good s₀ s) : GoodOut s₀ (execLnkRetry a0 s) := by
  unfold execLnkRetry
  exact GoodOut.ite (GoodOut.next (State.lnkRetry_good h)) (GoodOut.next h)

theorem execIdentSend_good {s₀ s} {a0} (h : Good s₀ s) : GoodOut s₀ (execIdentSend a0 s) := by
  unfold execIdentSend
  exact GoodOut.ite (GoodOut.next (State.send_good h)) (GoodOut.next h)

theorem execHeartbeatSend_good {s₀ s} (h : Good s₀ s) : GoodOut s₀ (execHeartbeatSend s) := by
  unfold execHeartbeatSend
  extract_lets +onlyGivenNames s0
  refine GoodOut.ite (GoodOut.next h) ?_
  refine GoodOut.ite (GoodOut.next (State.sendCtl_good h)) ?_
  refine GoodOut.next ?_
  refine Good.foldl ?_ h
  intro s10 x10_1 h10_2
  exact State.send_good h10_2

theorem execLinkBlockReceive_good {s₀ s} {a0 a1} (h : Good s₀ s) : GoodOut s₀ (execLinkBlockReceive a0 a1 s) := by
  unfold execLinkBlockReceive
  extract_lets +onlyGivenNames s0 s1
  refine GoodOut.ite (GoodOut.next h) ?_
  extract_lets +onlyGivenNames s5
  have hs5 : Good s₀ s5 := State.fecCounts_good h
  clear_value s5
  refine GoodOut.ite (GoodOut.next (State.nextBlock_good (State.linkGap_good (State.bump_good hs5)))) ?_
  refine GoodOut.ite (GoodOut.next hs5) ?_
  extract_lets +onlyGivenNames s17 s18
  have hs18 : Good s₀ s18 := State.linkAck_good hs5
  clear_value s18
  extract_lets +onlyGivenNames s21
  have hs21 : Good s₀ s21 := State.updPort_good hs18
  clear_value s21
  extract_lets +onlyGivenNames s24
  have hs24 : Good s₀ s24 := Good.ite hs21 (Good.ite (State.takeBlock_good hs21) (State.linkGap_good hs21))
  clear_value s24
  exact GoodOut.ite (GoodOut.next (State.flushPort_good (State.resend_good hs24))) (GoodOut.next (Good.ite (State.flushPort_good hs24) (State.nextBlock_good hs24)))

theorem execAttachmentDown_good {s₀ s} {a0} (h : Good s₀ s) : GoodOut s₀ (execAttachmentDown a0 s) := by
  unfold execAttachmentDown
  exact GoodOut.ite (GoodOut.next (State.attDown_good h)) (GoodOut.next h)

theorem execAttachmentJoin_good {s₀ s} {a0 a1 a2} (h : Good s₀ s) : GoodOut s₀ (execAttachmentJoin a0 a1 a2 s) := by
  unfold execAttachmentJoin
  extract_lets +onlyGivenNames s0 s1
  refine GoodOut.ite (GoodOut.next h) ?_
  refine GoodOut.ite (GoodOut.next (State.openJoin_good (State.setPort_good (State.setPort_good h)))) ?_
  extract_lets +onlyGivenNames s11
  have hs11 : Good s₀ s11 := Good.ite h (State.setPort_good h)
  clear_value s11
  extract_lets +onlyGivenNames s14
  have hs14 : Good s₀ s14 := Good.ite hs11 (State.setPort_good hs11)
  clear_value s14
  exact GoodOut.next (State.setFlag_good (State.setAtt_good (State.bypass_good hs14)))

end Sys2Proof.Machine
end

