-- ==== Sys2Proof/Laws/Good/Memory.lean ====
section
/-!
SUPPORT. Good/Memory.lean: every operation of Machine/Memory.lean keeps what `Good` says.
-/

namespace Sys2Proof.Machine

theorem State.updTwin_good {s₀ s} {a0 a1} (h : Good s₀ s) : Good s₀ (State.updTwin s a0 a1) := by
  unfold State.updTwin
  exact Good.set h

theorem State.freeze_good {s₀ s} {a0 a1} (h : Good s₀ s) : Good s₀ (State.freeze s a0 a1) := by
  unfold State.freeze
  extract_lets +onlyGivenNames s0
  have hs0 : Good s₀ s0 := State.updTwin_good h
  clear_value s0
  refine Good.ite hs0 ?_
  extract_lets +onlyGivenNames s5
  have hs5 : Good s₀ s5 := State.setTState_good hs0
  clear_value s5
  extract_lets +onlyGivenNames s8
  have hs8 : Good s₀ s8 := by
    subst s8
    refine Good.foldl ?_ hs5
    intro s31 x31_1 h31_2
    exact Good.ite (State.setFld_good h31_2) h31_2
  clear_value s8
  extract_lets +onlyGivenNames s11 s12
  have hs12 : Good s₀ s12 := Good.set hs8
  clear_value s12
  extract_lets +onlyGivenNames s15
  have hs15 : Good s₀ s15 := State.modEvent_good (State.tntEvent_good hs12)
  clear_value s15
  exact Good.ite (State.sendTwin_good hs15) hs15

theorem State.raise_good {s₀ s} {a0 a1 a2} (h : Good s₀ s) : Good s₀ (State.raise s a0 a1 a2) := by
  unfold State.raise
  extract_lets +onlyGivenNames s0
  have hs0 : Good s₀ s0 := State.enter_good h
  clear_value s0
  split
  · exact State.freeze_good hs0
  · exact State.freeze_good hs0
  · exact hs0

theorem State.setCtr_good {s₀ s} {a0 a1 a2 a3} (h : Good s₀ s) : Good s₀ (State.setCtr s a0 a1 a2 a3) :=
  h.mems id id (nwf_nset _ _) id rfl rfl rfl rfl

theorem State.addCtr_good {s₀ s} {a0 a1 a2 a3} (h : Good s₀ s) : Good s₀ (State.addCtr s a0 a1 a2 a3) := by
  unfold State.addCtr
  exact State.setCtr_good h

theorem State.applySignal_good {s₀ s} {a0 a1 a2 a3} (h : Good s₀ s) : Good s₀ (State.applySignal s a0 a1 a2 a3) := by
  unfold State.applySignal
  exact Good.ite (State.setCtr_good h) (State.addCtr_good h)

theorem State.updTile_good {s₀ s} {a0 a1} (h : Good s₀ s) : Good s₀ (State.updTile s a0 a1) := by
  unfold State.updTile
  exact Good.set h

theorem State.drcDrop_good {s₀ s} {a0 a1} (h : Good s₀ s) : Good s₀ (State.drcDrop s a0 a1) := by
  unfold State.drcDrop
  exact Good.set h

theorem State.maWrite_good {s₀ s} {a0 a1 a2} (h : Good s₀ s) : Good s₀ (State.maWrite s a0 a1 a2) :=
  h.mems id (nwf_writeBytes _ _) id (rising_pwrite _ _ _) rfl rfl rfl rfl

theorem State.taAccess_good {s₀ s} {a0 a1 a2 a3 a4} (h : Good s₀ s) : Good s₀ (State.taAccess s a0 a1 a2 a3 a4) := by
  unfold State.taAccess
  refine Good.foldl ?_ h
  intro s1 x1_1 h1_2
  obtain ⟨y2, zy2⟩ := x1_1
  dsimp -zeta -zetaHave only
  extract_lets +onlyGivenNames s4
  split
  · exact Good.set h1_2
  · exact h1_2

theorem State.taWrite_good {s₀ s} {a0 a1 a2 a3} (h : Good s₀ s) : Good s₀ (State.taWrite s a0 a1 a2 a3) := by
  unfold State.taWrite
  refine State.taAccess_good ?_
  refine GoodL.out ?_
  refine GoodL.foldl ?_ (GoodL.mk h)
  intro s3 x3_1 x3_2 h3_3
  dsimp -zeta -zetaHave only
  refine GoodL.mk ?_
  split
  · exact State.maWrite_good h3_3
  · exact h3_3

theorem State.counted_good {s₀ s} {a0 a1 a2 a3} (h : Good s₀ s) : Good s₀ (State.counted s a0 a1 a2 a3) := by
  unfold State.counted
  exact State.addCtr_good (State.addCtr_good h)

theorem State.unitAdd_good {s₀ s} {a0 a1} (h : Good s₀ s) : Good s₀ (State.unitAdd s a0 a1) := by
  unfold State.unitAdd
  exact Good.ite h (State.updTwin_good h)

theorem State.unitWrite_good {s₀ s} {a0 a1 a2 a3 a4} (h : Good s₀ s) : Good s₀ (State.unitWrite s a0 a1 a2 a3 a4) := by
  unfold State.unitWrite
  exact State.unitAdd_good h

theorem State.taFetch_good {s₀ s} {a0 a1 a2} (h : Good s₀ s) : GoodR s₀ (State.taFetch s a0 a1 a2) := by
  unfold State.taFetch
  exact GoodR.mk (State.taAccess_good h)

theorem State.poolMirror_good {s₀ s} {a0 a1 a2 a3} (h : Good s₀ s) : Good s₀ (State.poolMirror s a0 a1 a2 a3) := by
  unfold State.poolMirror
  split
  · exact Good.ite (State.sendTwin_good h) h
  · exact h

theorem State.taZero_good {s₀ s} {a0 a1 a2} (h : Good s₀ s) : Good s₀ (State.taZero s a0 a1 a2) := by
  unfold State.taZero
  exact Good.foldl (fun s x h => h.mems id (nwf_zeroRange _ _) id (rising_filter _) rfl rfl rfl rfl) h

theorem State.drcFetch_good {s₀ s} {a0 a1 a2 a3 a4 a5 a6} (h : Good s₀ s) : GoodR s₀ (State.drcFetch s a0 a1 a2 a3 a4 a5 a6) := by
  unfold State.drcFetch
  extract_lets +onlyGivenNames s0
  refine GoodR.ite (GoodR.mk (State.taAccess_good h)) ?_
  extract_lets +onlyGivenNames s5 s6 s7 s8
  have hs8 : Good s₀ s8 := Good.ite h (State.taAccess_good h)
  clear_value s8
  extract_lets +onlyGivenNames s11 s12 s13 s14
  exact GoodR.mk (Good.set hs8)

theorem State.drcRead_good {s₀ s} {a0 a1 a2 a3 a4 a5} (h : Good s₀ s) : GoodR s₀ (State.drcRead s a0 a1 a2 a3 a4 a5) := by
  unfold State.drcRead
  split
  · exact State.drcFetch_good h
  · exact GoodR.mk h

theorem State.drcWrite_good {s₀ s} {a0 a1 a2} (h : Good s₀ s) : Good s₀ (State.drcWrite s a0 a1 a2) := by
  unfold State.drcWrite
  exact Good.set h

theorem State.setTile_good {s₀ s} {a0 a1} (h : Good s₀ s) : Good s₀ (State.setTile s a0 a1) := by
  unfold State.setTile
  exact Good.set h

theorem State.mscDrop_good {s₀ s} {a0} (h : Good s₀ s) : Good s₀ (State.mscDrop s a0) := by
  unfold State.mscDrop
  exact Good.set h

theorem State.pinBoundary_good {s₀ s} (h : Good s₀ s) : Good s₀ (State.pinBoundary s) := by
  unfold State.pinBoundary
  extract_lets +onlyGivenNames s0
  exact Good.set h

end Sys2Proof.Machine
end

