-- ==== Sys2Proof/Laws/Good/FaultOps.lean ====
section
/-!
SUPPORT. Good/FaultOps.lean: every operation of Machine/FaultOps.lean keeps what `Good` says.
-/

namespace Sys2Proof.Machine

theorem State.escalate_good {s₀ s} (h : Good s₀ s) : Good s₀ (State.escalate s) := by
  unfold State.escalate
  extract_lets +onlyGivenNames s0
  have hs0 : Good s₀ s0 := State.moduleEntry_good h
  clear_value s0
  extract_lets +onlyGivenNames s3 s4
  have hs4 : Good s₀ s4 := Good.set hs0
  clear_value s4
  exact State.restart_good hs4

theorem State.computeReset_good {s₀ s} {a0} (h : Good s₀ s) : Good s₀ (State.computeReset s a0) := by
  unfold State.computeReset
  exact Good.ite (State.escalate_good h) (Good.ite (Good.set h) h)

theorem State.computeFault_good {s₀ s} {a0 a1 a2 a3} (h : Good s₀ s) : Good s₀ (State.computeFault s a0 a1 a2 a3) := by
  unfold State.computeFault
  split
  · exact State.computeReset_good (State.enter_good h)
  · exact State.computeReset_good (State.moduleEntry_good h)

theorem State.moduleFault_good {s₀ s} {a0 a1} (h : Good s₀ s) : Good s₀ (State.moduleFault s a0 a1) := by
  unfold State.moduleFault
  extract_lets +onlyGivenNames s0
  have hs0 : Good s₀ s0 := State.moduleEntry_good h
  clear_value s0
  exact Good.ite hs0 (Good.ite (State.escalate_good hs0) (State.restart_good hs0))

theorem State.recoveryUe_good {s₀ s} (h : Good s₀ s) : Good s₀ (State.recoveryUe s) := by
  unfold State.recoveryUe
  refine Good.ite ?_ h
  generalize he0 : State.free _ = e0
  obtain ⟨xe0, se0⟩ := e0
  have hse0 : Good s₀ se0 := (GoodR.eq he0 (State.free_good h))
  clear he0
  exact Good.ite (State.moduleFault_good hse0) hse0

end Sys2Proof.Machine
end

