-- ==== Sys2Proof/Laws/Good/Spares.lean ====
section
/-!
SUPPORT. Good/Spares.lean: every operation of Machine/Spares.lean keeps what `Good` says.
-/

namespace Sys2Proof.Machine

theorem State.spmWrite_good {s₀ s} {a0 a1 a2 a3 a4} (h : Good s₀ s) : Good s₀ (State.spmWrite s a0 a1 a2 a3 a4) := by
  unfold State.spmWrite
  exact Good.ite (State.raise_good h) (State.updTile_good h)

theorem State.updPtile_good {s₀ s} {a0 a1} (h : Good s₀ s) : Good s₀ (State.updPtile s a0 a1) := by
  unfold State.updPtile
  exact Good.set h

theorem State.showWidth_good {s₀ s} {a0} (h : Good s₀ s) : Good s₀ (State.showWidth s a0) := by
  unfold State.showWidth
  split
  · exact State.updTile_good h
  · exact h

theorem State.makeDue_good {s₀ s} {a0} (h : Good s₀ s) : Good s₀ (State.makeDue s a0) := by
  unfold State.makeDue
  exact Good.set h

theorem State.retire_good {s₀ s} {a0 a1 a2 a3} (h : Good s₀ s) : Good s₀ (State.retire s a0 a1 a2 a3) := by
  unfold State.retire
  split
  · exact h
  · extract_lets +onlyGivenNames s2
    extract_lets +onlyGivenNames s3
    refine Good.ite h ?_
    extract_lets +onlyGivenNames s6 s7
    have hs7 : Good s₀ s7 := Good.set h
    clear_value s7
    split
    · exact State.makeDue_good hs7
    · extract_lets +onlyGivenNames s13
      extract_lets +onlyGivenNames s14
      have hs14 : Good s₀ s14 := Good.set hs7
      clear_value s14
      extract_lets +onlyGivenNames s17
      have hs17 : Good s₀ s17 := State.makeDue_good hs14
      clear_value s17
      exact Good.ite (State.computeFault_good hs17) hs17

theorem State.bankDue_good {s₀ s} {a0 a1 a2 a3} (h : Good s₀ s) : Good s₀ (State.bankDue s a0 a1 a2 a3) := by
  unfold State.bankDue
  split
  · exact h
  · extract_lets +onlyGivenNames s2
    exact Good.ite h (Good.ite (State.makeDue_good h) (State.retire_good h))

theorem State.bankErrors_good {s₀ s} {a0 a1 a2} (h : Good s₀ s) : Good s₀ (State.bankErrors s a0 a1 a2) := by
  unfold State.bankErrors
  split
  · exact h
  · extract_lets +onlyGivenNames s2
    extract_lets +onlyGivenNames s3
    have hs3 : Good s₀ s3 := State.bump_good h
    clear_value s3
    extract_lets +onlyGivenNames s6 s7
    have hs7 : Good s₀ s7 := Good.set hs3
    clear_value s7
    exact Good.ite (State.bankDue_good hs7) hs7

theorem State.ueReport_good {s₀ s} {a0 a1} (h : Good s₀ s) : Good s₀ (State.ueReport s a0 a1) := by
  unfold State.ueReport
  split
  · exact State.raise_good h
  · exact State.moduleEntry_good h

theorem State.ueCount_good {s₀ s} {a0} (h : Good s₀ s) : Good s₀ (State.ueCount s a0) := by
  unfold State.ueCount
  exact Good.set h

theorem State.ueFound_good {s₀ s} {a0 a1 a2} (h : Good s₀ s) : Good s₀ (State.ueFound s a0 a1 a2) := by
  unfold State.ueFound
  have hc : Good s₀ ((s.ueReport a0 a1).ueCount a2) := State.ueCount_good (State.ueReport_good h)
  have hb : Good s₀ (if ((s.ueReport a0 a1).ueCount a2).ueTwice a2 then
      ((s.ueReport a0 a1).ueCount a2).bankDue a0 (a2 % 64) 3 (natOf ((s.ueReport a0 a1).ueCount a2).acc.bankUe a2)
      else (s.ueReport a0 a1).ueCount a2) := Good.ite (State.bankDue_good hc) hc
  exact Good.ite (State.computeReset_good hb) hb

theorem State.bankUe_good {s₀ s} {a0 a1} (h : Good s₀ s) : Good s₀ (State.bankUe s a0 a1) := by
  unfold State.bankUe
  extract_lets +onlyGivenNames s0 s1
  have hs1 : Good s₀ s1 := State.updTile_good h
  split
  · exact Good.ite hs1 (State.ueFound_good hs1)
  · exact hs1

theorem State.meetFlaw_good {s₀ s} {a0 a1 a2} (h : Good s₀ s) : Good s₀ (State.meetFlaw s a0 a1 a2) := by
  unfold State.meetFlaw
  refine Good.ite (State.bankUe_good h) ?_
  split
  · exact State.bankErrors_good h
  · exact h

theorem State.eccRead_good {s₀ s} {a0 a1 a2} (h : Good s₀ s) : Good s₀ (State.eccRead s a0 a1 a2) := by
  unfold State.eccRead
  refine Good.foldl ?_ h
  intro s1 x1_1 h1_2
  obtain ⟨y2, zy2⟩ := x1_1
  dsimp -zeta -zetaHave only
  exact State.meetFlaw_good h1_2

theorem State.scrubBank_good {s₀ s} {a0 a1} (h : Good s₀ s) : Good s₀ (State.scrubBank s a0 a1) := by
  unfold State.scrubBank
  exact State.updTile_good (State.eccRead_good h)

theorem State.spmRead_good {s₀ s} {a0 a1 a2 a3} (h : Good s₀ s) : GoodR s₀ (State.spmRead s a0 a1 a2 a3) := by
  unfold State.spmRead
  refine GoodR.ite (GoodR.mk (State.raise_good h)) ?_
  extract_lets +onlyGivenNames s4
  have hs4 : Good s₀ s4 := State.eccRead_good h
  clear_value s4
  exact GoodR.mk hs4

theorem State.newFlaws_good {s₀ s} (h : Good s₀ s) : Good s₀ (State.newFlaws s) := by
  unfold State.newFlaws
  generalize he0 : State.fresh _ = e0
  obtain ⟨xe0, se0⟩ := e0
  have hse0 : Good s₀ se0 := (GoodR.eq he0 (State.fresh_good h))
  clear he0
  dsimp -zeta -zetaHave only
  extract_lets +onlyGivenNames s5
  exact Good.set hse0

end Sys2Proof.Machine
end

