-- ==== Sys2Proof/Laws/Good/FrontOps.lean ====
section
/-!
SUPPORT. Good/FrontOps.lean: every operation of Machine/FrontOps.lean keeps what `Good` says.
-/

namespace Sys2Proof.Machine

theorem State.updItem_good {s₀ s} {a0 a1} (h : Good s₀ s) : Good s₀ (State.updItem s a0 a1) := by
  unfold State.updItem
  exact Good.set h

theorem State.updLaunch_good {s₀ s} {a0 a1 a2 a3} (h : Good s₀ s) : Good s₀ (State.updLaunch s a0 a1 a2 a3) := by
  unfold State.updLaunch
  exact Good.set h

theorem State.updRing_good {s₀ s} {a0 a1 a2} (h : Good s₀ s) : Good s₀ (State.updRing s a0 a1 a2) := by
  unfold State.updRing
  exact Good.set h

theorem State.updCmd_good {s₀ s} {a0 a1 a2} (h : Good s₀ s) : Good s₀ (State.updCmd s a0 a1 a2) := by
  unfold State.updCmd
  split
  · exact State.updRing_good h
  · exact State.updLaunch_good h
  · exact State.updItem_good h

theorem State.releaseBuf_good {s₀ s} {a0 a1} (h : Good s₀ s) : Good s₀ (State.releaseBuf s a0 a1) := by
  unfold State.releaseBuf
  split
  · exact h
  · extract_lets +onlyGivenNames s2
    extract_lets +onlyGivenNames s3 s4
    exact Good.set h

theorem State.endLaunch_good {s₀ s} {a0 a1 a2} (h : Good s₀ s) : Good s₀ (State.endLaunch s a0 a1 a2) := by
  unfold State.endLaunch
  split
  · extract_lets +onlyGivenNames s1
    refine Good.ite ?_ h
    extract_lets +onlyGivenNames s3
    have hs3 : Good s₀ s3 := State.releaseBuf_good h
    clear_value s3
    extract_lets +onlyGivenNames s6 s7
    have hs7 : Good s₀ s7 := Good.set hs3
    clear_value s7
    exact State.updCmd_good hs7
  · exact h

theorem State.unitOf_good {s₀ s} {a0 a1 a2} (h : Good s₀ s) : Good s₀ (State.unitOf s a0 a1 a2) := by
  unfold State.unitOf
  exact State.updTwin_good h

theorem State.holdAct_good {s₀ s} {a0 a1 a2} (h : Good s₀ s) : Good s₀ (State.holdAct s a0 a1 a2) := by
  unfold State.holdAct
  exact State.unitOf_good h

theorem State.pushLog_good {s₀ s} {a0 a1} (h : Good s₀ s) : Good s₀ (State.pushLog s a0 a1) := by
  unfold State.pushLog
  extract_lets +onlyGivenNames s0 s1 s2
  have hs2 : Good s₀ s2 := Good.set h
  clear_value s2
  exact Good.ite (State.tntEvent_good hs2) hs2

theorem State.signal_good {s₀ s} {a0 a1 a2 a3} (h : Good s₀ s) : GoodL s₀ (State.signal s a0 a1 a2 a3) := by
  unfold State.signal
  extract_lets +onlyGivenNames s0
  refine GoodL.ite (GoodL.ite (GoodL.mk (State.send_good h)) (GoodL.mk (State.bump_good h))) ?_
  extract_lets +onlyGivenNames s9 s10 s11 s12 s13
  clear_value s13
  split
  · extract_lets +onlyGivenNames s16
    exact GoodL.mk (State.bump_good h)
  · refine GoodL.ite (GoodL.mk (State.applySignal_good h)) ?_
    extract_lets +onlyGivenNames s24
    split
    · exact GoodL.mk (GoodO.eq (by assumption) (State.sendPacket_good h))
    · exact GoodL.mk (State.bump_good h)

theorem State.sigAct_good {s₀ s} {a0 a1 a2 a3 a4 a5} (h : Good s₀ s) : Good s₀ (State.sigAct s a0 a1 a2 a3 a4 a5) := by
  unfold State.sigAct
  split
  · exact State.raise_good h
  · extract_lets +onlyGivenNames s3
    exact Good.ite (State.holdAct_good h) (Good.ite (State.pushLog_good h) (GoodL.out (State.signal_good h)))

theorem State.storedSig_good {s₀ s} {a0 a1} (h : Good s₀ s) : Good s₀ (State.storedSig s a0 a1) := by
  unfold State.storedSig
  split
  · exact Good.ite (State.sigAct_good h) h
  · exact h

theorem State.endCmd_good {s₀ s} {a0 a1} (h : Good s₀ s) : Good s₀ (State.endCmd s a0 a1) := by
  unfold State.endCmd
  extract_lets +onlyGivenNames s0
  have hs0 : Good s₀ s0 := State.storedSig_good (State.updCmd_good h)
  clear_value s0
  split
  · extract_lets +onlyGivenNames s4
    have hs4 : Good s₀ s4 := by
      subst s4
      split
      · exact State.updCmd_good hs0
      · exact hs0
    clear_value s4
    exact State.endLaunch_good hs4
  · exact hs0

theorem State.setChan_good {s₀ s} {a0 a1 a2} (h : Good s₀ s) : Good s₀ (State.setChan s a0 a1 a2) := by
  unfold State.setChan
  exact State.updTile_good h

theorem State.startScatter_good {s₀ s} {a0} (h : Good s₀ s) : Good s₀ (State.startScatter s a0) := by
  unfold State.startScatter
  split
  · exact h
  · split
    · extract_lets +onlyGivenNames s3
      extract_lets +onlyGivenNames s4
      exact State.updItem_good (State.setChan_good h)
    · exact h

theorem State.routeDone_good {s₀ s} {a0 a1 a2 a3 a4} (h : Good s₀ s) : Good s₀ (State.routeDone s a0 a1 a2 a3 a4) := by
  unfold State.routeDone
  exact State.endCmd_good (State.event_good h)

theorem State.endItem_good {s₀ s} {a0} (h : Good s₀ s) : Good s₀ (State.endItem s a0) := by
  unfold State.endItem
  split
  · exact h
  · extract_lets +onlyGivenNames s2
    have hs2 : Good s₀ s2 := by
      subst s2
      refine Good.foldl ?_ h
      intro s26 x26_1 h26_2
      exact State.updCmd_good h26_2
    clear_value s2
    extract_lets +onlyGivenNames s5 s6
    have hs6 : Good s₀ s6 := Good.set hs2
    clear_value s6
    split
    refine Good.ite ?_ hs6
    extract_lets +onlyGivenNames s11 s12
    have hs12 : Good s₀ s12 := Good.set hs6
    clear_value s12
    exact State.routeDone_good hs12

theorem State.endWork_good {s₀ s} {a0 a1} (h : Good s₀ s) : Good s₀ (State.endWork s a0 a1) := by
  unfold State.endWork
  split
  · exact State.updItem_good h
  · exact State.updItem_good h
  · exact State.endItem_good h
  · extract_lets +onlyGivenNames s7
    have hs7 : Good s₀ s7 := State.updCmd_good h
    clear_value s7
    split
    · exact Good.ite (State.startScatter_good hs7) hs7
    · exact hs7
  · exact State.endCmd_good h

theorem State.noteWork_good {s₀ s} {a0 a1 a2} (h : Good s₀ s) : Good s₀ (State.noteWork s a0 a1 a2) := by
  unfold State.noteWork
  split
  · exact Good.ite (State.updItem_good h) (State.updCmd_good h)
  · exact State.updCmd_good h

theorem State.raiseCmd_good {s₀ s} {a0 a1 a2 a3} (h : Good s₀ s) : Good s₀ (State.raiseCmd s a0 a1 a2 a3) := by
  unfold State.raiseCmd
  exact State.raise_good h

theorem State.tallyTenant_good {s₀ s} {a0 a1 a2 a3} (h : Good s₀ s) : Good s₀ (State.tallyTenant s a0 a1 a2 a3) := by
  unfold State.tallyTenant
  extract_lets +onlyGivenNames s0
  exact State.addQuad_good (State.addQuad_good (State.addQuad_good h))

theorem State.cmdWrite_good {s₀ s} {a0 a1 a2 a3 a4 a5} (h : Good s₀ s) : Good s₀ (State.cmdWrite s a0 a1 a2 a3 a4 a5) := by
  unfold State.cmdWrite
  exact Good.ite (State.unitOf_good h) h

theorem State.logToken_good {s₀ s} {a0 a1 a2 a3 a4 a5 a6 a7 a8} (h : Good s₀ s) : Good s₀ (State.logToken s a0 a1 a2 a3 a4 a5 a6 a7 a8) := by
  unfold State.logToken
  extract_lets +onlyGivenNames s0
  have hs0 : Good s₀ s0 := State.event_good h
  clear_value s0
  split
  · exact hs0
  · refine Good.ite hs0 ?_
    extract_lets +onlyGivenNames s7 s8
    exact State.addQuad_good (State.taWrite_good hs0)

end Sys2Proof.Machine
end

