-- ==== Sys2Proof/Laws/Good/Transfer.lean ====
section
/-!
SUPPORT. Good/Transfer.lean: every operation of Machine/Transfer.lean keeps what `Good` says.
-/

namespace Sys2Proof.Machine

theorem State.finishDesc_good {s₀ s} {a0 a1 a2} (h : Good s₀ s) : Good s₀ (State.finishDesc s a0 a1 a2) := by
  unfold State.finishDesc
  extract_lets +onlyGivenNames s0 s1 s2
  have hs2 : Good s₀ s2 := by
    subst s2
    refine Good.ite ?_ h
    subst s1
    dsimp -zeta -zetaHave only
    exact State.updTile_good h
  clear_value s2
  extract_lets +onlyGivenNames s5
  have hs5 : Good s₀ s5 := by
    subst s5
    refine Good.ite ?_ hs2
    subst s1
    dsimp -zeta -zetaHave only
    exact State.updTile_good hs2
  clear_value s5
  exact Good.ite (State.counted_good hs5) hs5

theorem State.settle_good {s₀ s} {a0 a1 a2} (h : Good s₀ s) : Good s₀ (State.settle s a0 a1 a2) := by
  induction a2 generalizing s with
  | zero => exact h
  | succ fuel ih =>
    unfold State.settle
    split
    · exact h
    · split
      · exact Good.ite (ih (State.setChan_good (State.finishDesc_good h))) h
      · refine Good.ite h ?_
        split
        · exact Good.ite h (State.endWork_good (State.setChan_good h))
        · exact State.updTile_good (State.setChan_good h)

theorem State.applyRemote_good {s₀ s} {a0} (h : Good s₀ s) : Good s₀ (State.applyRemote s a0) := by
  unfold State.applyRemote
  extract_lets +onlyGivenNames s0 s1
  have hs1 : Good s₀ s1 := by
    subst s1
    refine Good.foldl ?_ h
    intro s10 x10_1 h10_2
    extract_lets +onlyGivenNames s11 s12
    exact Good.ite (State.poolMirror_good (State.taWrite_good h10_2)) (State.spmWrite_good h10_2)
  clear_value s1
  exact Good.ite (State.counted_good hs1) hs1

theorem State.arriveWrite_good {s₀ s} {a0} (h : Good s₀ s) : GoodL s₀ (State.arriveWrite s a0) := by
  unfold State.arriveWrite
  exact GoodL.ite (GoodL.mk (State.applyRemote_good h)) (GoodL.mk (Good.ite (State.raise_good h) h))

theorem State.updChan_good {s₀ s} {a0 a1 a2} (h : Good s₀ s) : Good s₀ (State.updChan s a0 a1 a2) := by
  unfold State.updChan
  exact State.setChan_good h

theorem State.noteChan_good {s₀ s} {a0 a1 a2 a3} (h : Good s₀ s) : Good s₀ (State.noteChan s a0 a1 a2 a3) := by
  unfold State.noteChan
  split
  · exact State.noteWork_good (State.raiseCmd_good h)
  · exact State.updTile_good (State.raise_good h)

theorem State.readSide_good {s₀ s} {a0 a1 a2 a3 a4} (h : Good s₀ s) : GoodR s₀ (State.readSide s a0 a1 a2 a3 a4) := by
  unfold State.readSide
  exact GoodR.ite (GoodR.mk h) (GoodR.ite (State.spmRead_good h) (State.drcRead_good h))

theorem moveRead_good {s₀} {m : Moved} {a0 a1 a2 a3 a5 a6} (h : Good s₀ m.s) : Good s₀ (moveRead a0 a1 a2 a3 m a5 a6).2.2.s := by
  unfold moveRead
  extract_lets +onlyGivenNames n
  have hr := State.readSide_good (a0 := a0) (a1 := a1) (a2 := a2) (a3 := a3.a + a5 * a2.bitsS / 8) (a4 := n) h
  generalize State.readSide _ _ _ _ _ _ = e at hr
  obtain ⟨⟨bs, bad⟩, s⟩ := e
  dsimp only
  split <;> exact hr

theorem payloadOf_good {s₀ s} {a0 a1 a2 a3} (h : Good s₀ s) : Good s₀ (payloadOf a0 a1 a2 a3 s).2.2.s := by
  unfold payloadOf
  refine foldl_inv (Q := fun a : List Byte × Nat × Moved => Good s₀ a.2.2.s) (fun z x ha => ?_) h
  exact moveRead_good ha

theorem State.countChan_good {s₀ s} {a0 a1 a2 a3} (h : Good s₀ s) : Good s₀ (State.countChan s a0 a1 a2 a3) := by
  unfold State.countChan
  extract_lets +onlyGivenNames s0
  have hs0 : Good s₀ s0 := Good.ite (State.tallyTenant_good h) h
  clear_value s0
  split
  · exact State.updItem_good hs0
  · exact State.updCmd_good hs0
  · exact State.updTile_good hs0

theorem State.noteMoved_good {s₀} {m : Moved} {a0 a1 a2 a3} (h : Good s₀ m.s) : Good s₀ (State.noteMoved m a0 a1 a2 a3) := by
  unfold State.noteMoved
  have hc : Good s₀ (m.s.countChan a0 a2 m.sat m.nan) := State.countChan_good h
  exact Good.ite (State.noteChan_good (State.updChan_good hc)) hc

theorem State.setLedger_good {s₀ s} {a0 a1 a2} (h : Good s₀ s) : Good s₀ (State.setLedger s a0 a1 a2) := by
  unfold State.setLedger
  refine Good.ite h ?_
  extract_lets +onlyGivenNames s2
  exact Good.set h

theorem State.sendReq_good {s₀ s} {a0 a1 a2 a3 a4 a5} (h : Good s₀ s) : Good s₀ (State.sendReq s a0 a1 a2 a3 a4 a5) := by
  unfold State.sendReq
  extract_lets +onlyGivenNames d
  have hp := payloadOf_good (a0 := a0) (a1 := a2) (a2 := d) (a3 := a4) h
  generalize payloadOf _ _ _ _ _ = e at hp
  obtain ⟨bs, bits, m⟩ := e
  dsimp -zeta -zetaHave only at hp ⊢
  extract_lets +onlyGivenNames at_ s1 p
  have h1 : Good s₀ s1 := State.cmdWrite_good (State.noteMoved_good hp)
  clear_value s1
  refine Good.ite (Good.ite (State.raise_good (GoodL.out (State.arriveWrite_good h1))) (GoodL.out (State.arriveWrite_good h1))) ?_
  extract_lets +onlyGivenNames s9 s10
  have hs10 : Good s₀ s10 := State.updChan_good h1
  clear_value s10
  refine Good.ite hs10 ?_
  split
  · exact State.setLedger_good (GoodO.eq (by assumption) (State.sendPacket_good hs10))
  · exact State.noteChan_good (State.bump_good hs10)

theorem State.issueReq_good {s₀ s} {a0 a1} (h : Good s₀ s) : Good s₀ (State.issueReq s a0 a1) := by
  unfold State.issueReq
  split
  · exact h
  · split
    · exact h
    · extract_lets +onlyGivenNames s4
      extract_lets +onlyGivenNames s5
      have hs5 : Good s₀ s5 := State.updTile_good h
      clear_value s5
      extract_lets +onlyGivenNames s8
      refine Good.ite ?_ ?_
      · subst s8
        dsimp -zeta -zetaHave only
        exact State.updChan_good hs5
      · split
        · refine State.sendReq_good ?_
          subst s8
          dsimp -zeta -zetaHave only
          exact State.updChan_good hs5
        · exact State.settle_good (State.noteChan_good (State.bump_good (State.updChan_good hs5)))

theorem State.pump_good {s₀ s} {a0 a1} (h : Good s₀ s) : Good s₀ (State.pump s a0 a1) := by
  induction a1 generalizing s
  · exact h
  rename_i fuel ih
  unfold State.pump
  split
  · exact ih (State.issueReq_good h)
  · exact h

theorem State.runDesc_good {s₀ s} {a0 a1 a2 a3 a4 a5 a6 a7 a8} (h : Good s₀ s) : Good s₀ (State.runDesc s a0 a1 a2 a3 a4 a5 a6 a7 a8) := by
  unfold State.runDesc
  extract_lets +onlyGivenNames s0 s1
  have hs1 : Good s₀ s1 := by
    subst s1
    refine Good.ite ?_ h
    subst s0
    dsimp -zeta -zetaHave only
    exact State.updTile_good h
  clear_value s1
  extract_lets +onlyGivenNames s4
  have hs4 : Good s₀ s4 := by
    subst s4
    refine Good.ite ?_ hs1
    subst s0
    dsimp -zeta -zetaHave only
    exact State.updTile_good hs1
  clear_value s4
  extract_lets +onlyGivenNames s7
  exact State.pump_good (State.setChan_good hs4)

theorem State.stopChain_good {s₀ s} {a0 a1 a2 a3 a4 a5} (h : Good s₀ s) : Good s₀ (State.stopChain s a0 a1 a2 a3 a4 a5) := by
  unfold State.stopChain
  exact State.raise_good (State.setChan_good h)

theorem State.beginDesc_good {s₀ s} {a0 a1 a2} (h : Good s₀ s) : Good s₀ (State.beginDesc s a0 a1 a2) := by
  unfold State.beginDesc
  split
  · exact h
  · refine Good.ite (State.pump_good h) ?_
    refine Good.ite h ?_
    split
    · exact h
    · extract_lets +onlyGivenNames s9
      refine Good.ite (Good.ite (State.stopChain_good h) h) ?_
      refine Good.ite h ?_
      split
      · exact State.stopChain_good h
      · refine Good.ite (State.settle_good (State.setChan_good h)) ?_
        split
        · extract_lets +onlyGivenNames s25
          extract_lets +onlyGivenNames s26
          exact Good.ite h (State.runDesc_good h)
        · exact h

theorem State.writeSide_good {s₀ s} {a0 a1 a2 a3 a4 a5} (h : Good s₀ s) : Good s₀ (State.writeSide s a0 a1 a2 a3 a4 a5) := by
  unfold State.writeSide
  refine Good.ite (State.spmWrite_good h) ?_
  extract_lets +onlyGivenNames s3
  have hs3 : Good s₀ s3 := by
    subst s3
    split
    · exact State.drcWrite_good h
    · exact h
  clear_value s3
  exact State.poolMirror_good (State.taWrite_good hs3)

theorem moveReq_good {s₀ s} {a0 a1 a2 a3} (h : Good s₀ s) : Good s₀ (moveReq a0 a1 a2 a3 s).s := by
  unfold moveReq
  extract_lets +onlyGivenNames at_
  dsimp -zeta -zetaHave only
  generalize hf : List.foldl _ _ _ = f
  have hr : Good s₀ f.1.s := by
    rw [← hf]
    refine foldl_inv (Q := fun a : Moved × List Byte × Nat => Good s₀ a.1.s) (fun z x ha => ?_) h
    exact State.writeSide_good (moveRead_good ha)
  clear hf
  obtain ⟨m, out, bits⟩ := f
  dsimp only
  split
  · exact hr
  · exact State.cmdWrite_good hr

theorem State.reqDone_good {s₀ s} {a0 a1 a2 a3} (h : Good s₀ s) : Good s₀ (State.reqDone s a0 a1 a2 a3) := by
  unfold State.reqDone
  split
  · exact h
  split
  · exact h
  extract_lets +onlyGivenNames d s1
  have h1 : Good s₀ s1 := by
    dsimp only [s1]
    split
    · exact State.noteMoved_good (moveReq_good h)
    · exact h
  clear_value s1
  extract_lets +onlyGivenNames s0
  have hs0 : Good s₀ s0 := State.updChan_good h1
  clear_value s0
  exact State.pump_good (State.settle_good hs0)

theorem execFill_good {s₀ s} {a0 a1} (h : Good s₀ s) : GoodOut s₀ (execFill a0 a1 s) := by
  unfold execFill
  exact GoodOut.next (State.beginDesc_good h)

theorem execTransferRequestComplete_good {s₀ s} {a0 a1 a2 a3} (h : Good s₀ s) : GoodOut s₀ (execTransferRequestComplete a0 a1 a2 a3 s) := by
  unfold execTransferRequestComplete
  exact GoodOut.next (State.reqDone_good h)

theorem execCopy_good {s₀ s} {a0 a1} (h : Good s₀ s) : GoodOut s₀ (execCopy a0 a1 s) := by
  unfold execCopy
  exact GoodOut.next (State.beginDesc_good h)

theorem execDescriptorFetch_good {s₀ s} {a0 a1} (h : Good s₀ s) : GoodOut s₀ (execDescriptorFetch a0 a1 s) := by
  unfold execDescriptorFetch
  split
  · exact GoodOut.next h
  · extract_lets +onlyGivenNames s3
    refine GoodOut.ite (GoodOut.next h) ?_
    extract_lets +onlyGivenNames s7
    split
    · extract_lets +onlyGivenNames s9
      have hs9 : Good s₀ s9 := by
        subst s9
        refine Good.foldl ?_ h
        intro s17 x17_1 h17_2
        obtain ⟨y18, zy18⟩ := x17_1
        dsimp -zeta -zetaHave only
        exact Good.ite (State.taAccess_good h17_2) (State.eccRead_good h17_2)
      clear_value s9
      exact GoodOut.next (State.setChan_good hs9)
    · refine GoodOut.ite (GoodOut.next h) ?_
      extract_lets +onlyGivenNames s29
      exact GoodOut.next (State.stopChain_good h)

theorem execConvert_good {s₀ s} {a0 a1} (h : Good s₀ s) : GoodOut s₀ (execConvert a0 a1 s) := by
  unfold execConvert
  exact GoodOut.next (State.beginDesc_good h)

theorem execLink_good {s₀ s} {a0 a1} (h : Good s₀ s) : GoodOut s₀ (execLink a0 a1 s) := by
  unfold execLink
  exact GoodOut.next (State.beginDesc_good h)

end Sys2Proof.Machine
end

