-- ==== Sys2Proof/Laws/Good/Sequencer.lean ====
section
/-!
SUPPORT. Good/Sequencer.lean: every operation of Machine/Sequencer.lean keeps what `Good` says.
-/

namespace Sys2Proof.Machine

theorem State.acceptCodec_good {s₀ s} {a0 a1 a2} (h : Good s₀ s) : Good s₀ (State.acceptCodec s a0 a1 a2) := by
  unfold State.acceptCodec
  extract_lets +onlyGivenNames s0 s1 s2 s3 s4 s5 s6 s7 s8
  have hs8 : Good s₀ s8 := Good.set h
  clear_value s8
  exact Good.ite (State.updTile_good hs8) hs8

theorem State.acquire_good {s₀ s} {a0 a1 a2} (h : Good s₀ s) : Good s₀ (State.acquire s a0 a1 a2) := by
  unfold State.acquire
  exact Good.ite (State.drcDrop_good h) h

theorem State.codecNote_good {s₀ s} {a0 a1 a2} (h : Good s₀ s) : Good s₀ (State.codecNote s a0 a1 a2) := by
  unfold State.codecNote
  split
  · exact h
  · exact State.updTile_good (State.raiseCmd_good h)

theorem State.tileFault_good {s₀ s} {a0 a1 a2 a3} (h : Good s₀ s) : Good s₀ (State.tileFault s a0 a1 a2 a3) := by
  unfold State.tileFault
  exact State.raiseCmd_good h

theorem State.fetchRead_good {s₀ s} {a0 a1} (h : Good s₀ s) : Good s₀ (State.fetchRead s a0 a1) := by
  unfold State.fetchRead
  exact Good.ite (State.eccRead_good h) h

theorem State.control_good {s₀ s} {a0 a1 a2 a3 act} (hact : ∀ s x, Good s₀ s → Good s₀ (act s x)) (h : Good s₀ s) : Good s₀ (State.control s a0 a1 a2 a3 act) := by
  unfold State.control
  extract_lets +onlyGivenNames s0
  split
  · exact h
  · refine Good.ite h ?_
    split
    · exact State.tileFault_good h
    · extract_lets +onlyGivenNames s8
      have hs8 : Good s₀ s8 := State.updTile_good (State.fetchRead_good h)
      clear_value s8
      exact hact _ _ (State.addQuad_good (State.addQuad_good hs8))

theorem State.copyIn_good {s₀ s} {a0 a1 a2 a3 a4} (h : Good s₀ s) : Good s₀ (State.copyIn s a0 a1 a2 a3 a4) := by
  unfold State.copyIn
  refine Good.foldl ?_ h
  intro s1 x1_1 h1_2
  generalize he2 : State.taFetch _ _ _ _ = e2
  obtain ⟨xe2, se2⟩ := e2
  have hse2 : Good s₀ se2 := (GoodR.eq he2 (State.taFetch_good h1_2))
  clear he2
  split
  · exact State.updTile_good (GoodR.eq (by assumption) (GoodR.mk hse2))
  · exact GoodR.eq (by assumption) (GoodR.mk hse2)

theorem State.copyGroup_good {s₀ s} {a0 a1 a2 a3 a4 a5} (h : Good s₀ s) : Good s₀ (State.copyGroup s a0 a1 a2 a3 a4 a5) := by
  unfold State.copyGroup
  split
  extract_lets +onlyGivenNames s1 s2
  have hs2 : Good s₀ s2 := State.copyIn_good (State.copyIn_good h)
  clear_value s2
  exact Good.ite hs2 (State.copyIn_good hs2)

theorem State.countLoads_good {s₀ s} {a0 a1 a2} (h : Good s₀ s) : Good s₀ (State.countLoads s a0 a1 a2) := by
  unfold State.countLoads
  split
  · exact h
  · extract_lets +onlyGivenNames s2
    have hs2 : Good s₀ s2 := State.bump_good h
    clear_value s2
    exact Good.ite (State.bump_good hs2) hs2

theorem State.drainNotes_good {s₀ s} {a0 a1} (h : Good s₀ s) : Good s₀ (State.drainNotes s a0 a1) := by
  unfold State.drainNotes
  split
  · exact h
  · extract_lets +onlyGivenNames s2
    extract_lets +onlyGivenNames s3 s4
    have hs4 : Good s₀ s4 := by
      subst s4
      refine Good.foldl ?_ h
      intro s11 x11_1 h11_2
      obtain ⟨y12, zy12⟩ := x11_1
      dsimp -zeta -zetaHave only
      exact State.raiseCmd_good h11_2
    clear_value s4
    exact State.updTile_good hs4

theorem State.endReq_good {s₀ s} {a0 a1} (h : Good s₀ s) : Good s₀ (State.endReq s a0 a1) := by
  unfold State.endReq
  exact State.updTile_good (Good.set h)

theorem State.updReq_good {s₀ s} {a0 a1 a2 a3} (h : Good s₀ s) : Good s₀ (State.updReq s a0 a1 a2 a3) := by
  unfold State.updReq
  exact Good.set h

theorem State.fetchBlock_good {s₀ s} {a0 a1} (h : Good s₀ s) : Good s₀ (State.fetchBlock s a0 a1) := by
  unfold State.fetchBlock
  extract_lets +onlyGivenNames s0 s1 s2 s3
  have hs3 : Good s₀ s3 := State.eccRead_good h
  clear_value s3
  extract_lets +onlyGivenNames s6 s7 s8 s9 s10 s11 s12 s13 s14
  have hs14 : Good s₀ s14 := Good.set hs3
  clear_value s14
  exact State.updReq_good (State.setTile_good hs14)

theorem State.fetchBlocks_good {s₀ s} {a0 a1} (h : Good s₀ s) : Good s₀ (State.fetchBlocks s a0 a1) := by
  induction a1 generalizing s
  · exact h
  rename_i fuel ih
  unfold State.fetchBlocks
  split
  · exact ih (State.fetchBlock_good h)
  · exact h

theorem State.meetReads_good {s₀ s} {a0 a1 a2} (h : Good s₀ s) : Good s₀ (State.meetReads s a0 a1 a2) := by
  unfold State.meetReads
  extract_lets +onlyGivenNames s0
  refine Good.ite h ?_
  extract_lets +onlyGivenNames s3 s4
  have hs4 : Good s₀ s4 := by
    subst s4
    refine Good.ite h ?_
    subst s3
    dsimp -zeta -zetaHave only
    refine Good.foldl ?_ h
    intro s20 x20_1 h20_2
    exact State.eccRead_good h20_2
  clear_value s4
  subst s3
  dsimp -zeta -zetaHave only
  refine Good.foldl ?_ hs4
  intro s10 x10_1 h10_2
  exact State.eccRead_good h10_2

theorem State.runCompute_good {s₀ s} {a0 a1 a2} (h : Good s₀ s) : Good s₀ (State.runCompute s a0 a1 a2) := by
  unfold State.runCompute
  extract_lets +onlyGivenNames s0
  have hs0 : Good s₀ s0 := State.meetReads_good h
  clear_value s0
  extract_lets +onlyGivenNames s3
  refine Good.ite ?_ ?_
  · extract_lets +onlyGivenNames s5
    split
    exact State.drainNotes_good (State.countLoads_good (State.setTile_good hs0))
  · split
    exact State.drainNotes_good (State.setTile_good hs0)

theorem State.runXfer_good {s₀ s} {a0 a1 a2} (h : Good s₀ s) : GoodL s₀ (State.runXfer s a0 a1 a2) := by
  unfold State.runXfer
  extract_lets +onlyGivenNames s0 s1 s2
  split
  · extract_lets +onlyGivenNames s4
    refine GoodL.ite (GoodL.mk h) ?_
    extract_lets +onlyGivenNames s8
    exact GoodL.mk (State.updTile_good (State.setChan_good h))
  · extract_lets +onlyGivenNames s13
    have hs13 : Good s₀ s13 := State.eccRead_good h
    clear_value s13
    extract_lets +onlyGivenNames s16 s17 s18 s19
    refine GoodL.ite (GoodL.mk (State.tileFault_good hs13)) ?_
    split
    · exact GoodL.mk (State.tileFault_good hs13)
    · exact GoodL.ite (GoodL.mk (State.tileFault_good hs13)) (GoodL.mk (State.updTile_good hs13))
  · split
    · exact GoodL.mk (State.tileFault_good h)
    · extract_lets +onlyGivenNames s42
      extract_lets +onlyGivenNames s43
      exact GoodL.ite (GoodL.mk h) (GoodL.mk (State.updTile_good h))
  · extract_lets +onlyGivenNames s50
    split
    · exact GoodL.mk (State.tileFault_good h)
    · exact GoodL.ite (GoodL.mk (State.updTile_good h)) (GoodL.mk h)
  · exact GoodL.mk (State.updTile_good h)

theorem State.runXfers_good {s₀ s} {a0 a1} (h : Good s₀ s) : Good s₀ (State.runXfers s a0 a1) := by
  induction a1 generalizing s
  · exact h
  rename_i fuel ih
  unfold State.runXfers
  extract_lets +onlyGivenNames s0
  split
  · generalize he2 : State.runXfer _ _ _ _ = e2
    obtain ⟨se2, xe2⟩ := e2
    have hse2 : Good s₀ se2 := (GoodL.eq he2 (State.runXfer_good h))
    clear he2
    dsimp -zeta -zetaHave only
    extract_lets +onlyGivenNames s7
    have hs7 : Good s₀ s7 := State.updTile_good hse2
    clear_value s7
    exact Good.ite (ih hs7) hs7
  · exact h

theorem State.runUnit_good {s₀ s} {a0 a1} (h : Good s₀ s) : Good s₀ (State.runUnit s a0 a1) := by
  unfold State.runUnit
  extract_lets +onlyGivenNames s0
  split
  · exact Good.ite h (Good.ite (State.runXfers_good h) (Good.ite h (Good.ite (Good.ite h (State.drainNotes_good (State.updTile_good (State.acceptCodec_good h)))) (State.runCompute_good h))))
  · exact h

theorem State.issue_good {s₀ s} {a0 a1 a2 a3 a4} (h : Good s₀ s) : Good s₀ (State.issue s a0 a1 a2 a3 a4) := by
  unfold State.issue
  extract_lets +onlyGivenNames s0
  split
  · exact h
  · extract_lets +onlyGivenNames s3
    extract_lets +onlyGivenNames s4
    refine Good.ite h ?_
    split
    · exact State.tileFault_good h
    · extract_lets +onlyGivenNames s10
      have hs10 : Good s₀ s10 := State.fetchRead_good h
      clear_value s10
      extract_lets +onlyGivenNames s13 s14
      split
      extract_lets +onlyGivenNames s16 s17 s18
      have hs18 : Good s₀ s18 := State.addQuad_good (State.addQuad_good (State.setTile_good hs10))
      clear_value s18
      exact Good.ite (State.runUnit_good hs18) hs18

theorem State.issueCodec_good {s₀ s} {a0 a1 a2} (h : Good s₀ s) : Good s₀ (State.issueCodec s a0 a1 a2) := by
  unfold State.issueCodec
  exact State.issue_good h

theorem State.issueMm_good {s₀ s} {a0 a1 a2} (h : Good s₀ s) : Good s₀ (State.issueMm s a0 a1 a2) := by
  unfold State.issueMm
  exact State.issue_good h

theorem State.issueStat_good {s₀ s} {a0 a1 a2} (h : Good s₀ s) : Good s₀ (State.issueStat s a0 a1 a2) := by
  unfold State.issueStat
  exact Good.ite h (State.issue_good h)

theorem State.issueVec_good {s₀ s} {a0 a1 a2 a3} (h : Good s₀ s) : Good s₀ (State.issueVec s a0 a1 a2 a3) := by
  unfold State.issueVec
  exact State.issue_good h

theorem State.walk_good {s₀ s} {a0 a1 a2 a3} (h : Good s₀ s) : GoodR s₀ (State.walk s a0 a1 a2 a3) := by
  unfold State.walk
  generalize he0 : State.taFetch _ _ _ _ = e0
  obtain ⟨xe0, se0⟩ := e0
  have hse0 : Good s₀ se0 := (GoodR.eq he0 (State.taFetch_good h))
  clear he0
  split
  · exact GoodR.mk (GoodR.eq (by assumption) (GoodR.mk hse0))
  · refine GoodR.ite (GoodR.mk (GoodR.eq (by assumption) (GoodR.mk hse0))) ?_
    refine GoodR.ite (GoodR.mk (GoodR.eq (by assumption) (GoodR.mk hse0))) ?_
    generalize he19 : State.taFetch _ _ _ _ = e19
    obtain ⟨xe19, se19⟩ := e19
    have hse19 : Good s₀ se19 := (GoodR.eq he19 (State.taFetch_good (GoodR.eq (by assumption) (GoodR.mk hse0))))
    clear he19
    split
    · exact GoodR.mk (GoodR.eq (by assumption) (GoodR.mk hse19))
    · refine GoodR.ite (GoodR.mk (GoodR.eq (by assumption) (GoodR.mk hse19))) ?_
      refine GoodR.ite (GoodR.mk (GoodR.eq (by assumption) (GoodR.mk hse19))) ?_
      generalize he38 : State.taFetch _ _ _ _ = e38
      obtain ⟨xe38, se38⟩ := e38
      have hse38 : Good s₀ se38 := (GoodR.eq he38 (State.taFetch_good (GoodR.eq (by assumption) (GoodR.mk hse19))))
      clear he38
      split
      · exact GoodR.mk (GoodR.eq (by assumption) (GoodR.mk hse38))
      · exact GoodR.ite (GoodR.mk (GoodR.eq (by assumption) (GoodR.mk hse38))) (GoodR.ite (GoodR.mk (GoodR.eq (by assumption) (GoodR.mk hse38))) (GoodR.mk (GoodR.eq (by assumption) (GoodR.mk hse38))))

theorem State.keyFetch_good {s₀ s} {a0 a1 a2} (h : Good s₀ s) : Good s₀ (State.keyFetch s a0 a1 a2) := by
  unfold State.keyFetch
  extract_lets +onlyGivenNames s0 s1 s2 s3
  split
  · refine Good.ite h ?_
    split
    extract_lets +onlyGivenNames s8 s9
    split
    · subst s8
      dsimp -zeta -zetaHave only
      refine State.raiseCmd_good ?_
      refine GoodR.eq (by assumption) ?_
      split
      · exact GoodR.mk h
      · exact State.walk_good h
    · subst s9
      dsimp -zeta -zetaHave only
      extract_lets +onlyGivenNames s22
      refine State.drainNotes_good ?_
      refine State.setTile_good ?_
      refine GoodR.eq (by assumption) ?_
      split
      · exact GoodR.mk h
      · exact State.walk_good h
    · extract_lets +onlyGivenNames s31
      subst s9
      dsimp -zeta -zetaHave only
      extract_lets +onlyGivenNames s34
      refine State.drainNotes_good ?_
      refine State.setTile_good ?_
      refine State.updTile_good ?_
      refine GoodR.eq (by assumption) ?_
      split
      · exact GoodR.mk h
      · exact State.walk_good h
    · split
      extract_lets +onlyGivenNames s45
      refine Good.ite ?_ ?_
      · subst s8
        dsimp -zeta -zetaHave only
        refine State.raiseCmd_good ?_
        refine GoodR.eq (by assumption) ?_
        split
        · exact GoodR.mk h
        · exact State.walk_good h
      · refine Good.ite ?_ ?_
        · subst s8
          dsimp -zeta -zetaHave only
          refine State.raiseCmd_good ?_
          refine GoodR.eq (by assumption) ?_
          split
          · exact GoodR.mk h
          · exact State.walk_good h
        · refine Good.ite ?_ ?_
          · subst s8
            dsimp -zeta -zetaHave only
            refine State.raiseCmd_good ?_
            refine GoodR.eq (by assumption) ?_
            split
            · exact GoodR.mk h
            · exact State.walk_good h
          · extract_lets +onlyGivenNames s76
            have hs76 : Good s₀ s76 := by
              subst s76
              refine State.updTile_good ?_
              refine State.copyGroup_good ?_
              refine GoodR.eq (by assumption) ?_
              split
              · exact GoodR.mk h
              · exact State.walk_good h
            clear_value s76
            subst s9
            dsimp -zeta -zetaHave only
            extract_lets +onlyGivenNames s81
            exact State.drainNotes_good (State.setTile_good hs76)
  · exact h

theorem State.pendOrder_good {s₀ s} {a0 a1} (h : Good s₀ s) : Good s₀ (State.pendOrder s a0 a1) := by
  unfold State.pendOrder
  exact State.updTile_good h

theorem State.processBlock_good {s₀ s} {a0 a1 a2} (h : Good s₀ s) : Good s₀ (State.processBlock s a0 a1 a2) := by
  unfold State.processBlock
  extract_lets +onlyGivenNames s0 s1 s2 s3 s4 s5
  have hs5 : Good s₀ s5 := Good.set h
  clear_value s5
  extract_lets +onlyGivenNames s8
  have hs8 : Good s₀ s8 := State.updTile_good hs5
  clear_value s8
  extract_lets +onlyGivenNames s11
  have hs11 : Good s₀ s11 := by
    subst s11
    refine Good.foldl ?_ hs8
    intro s19 x19_1 h19_2
    exact State.bump_good h19_2
  clear_value s11
  exact State.codecNote_good (State.updReq_good hs11)

theorem State.progEvent_good {s₀ s} {a0 a1 a2 a3} (h : Good s₀ s) : Good s₀ (State.progEvent s a0 a1 a2 a3) := by
  unfold State.progEvent
  refine Good.ite h ?_
  generalize he2 : State.fresh _ = e2
  obtain ⟨xe2, se2⟩ := e2
  have hse2 : Good s₀ se2 := (GoodR.eq he2 (State.fresh_good h))
  clear he2
  dsimp -zeta -zetaHave only
  exact State.event_good hse2

theorem State.served_good {s₀ s} {a0 a1} (h : Good s₀ s) : Good s₀ (State.served s a0 a1) := by
  unfold State.served
  exact Good.set h

theorem State.takeLane_good {s₀ s} {a0} (h : Good s₀ s) : Good s₀ (State.takeLane s a0) := by
  unfold State.takeLane
  split
  · exact State.updPtile_good h
  · exact h

theorem State.writeBlock_good {s₀ s} {a0 a1 a2} (h : Good s₀ s) : Good s₀ (State.writeBlock s a0 a1 a2) := by
  unfold State.writeBlock
  extract_lets +onlyGivenNames s0 s1 s2 s3 s4 s5 s6
  have hs6 : Good s₀ s6 := State.setTile_good h
  clear_value s6
  extract_lets +onlyGivenNames s9 s10
  have hs10 : Good s₀ s10 := Good.set hs6
  clear_value s10
  extract_lets +onlyGivenNames s13
  have hs13 : Good s₀ s13 := Good.ite (State.bump_good hs10) hs10
  clear_value s13
  exact Good.ite (State.endReq_good hs13) hs13

theorem State.writeBlocks_good {s₀ s} {a0 a1} (h : Good s₀ s) : Good s₀ (State.writeBlocks s a0 a1) := by
  induction a1 generalizing s
  · exact h
  rename_i fuel ih
  unfold State.writeBlocks
  split
  · exact ih (State.writeBlock_good h)
  · exact h

theorem execSlotMark_good {s₀ s} {a0 a1} (h : Good s₀ s) : GoodOut s₀ (execSlotMark a0 a1 s) := by
  unfold execSlotMark
  extract_lets +onlyGivenNames s0 s1
  exact GoodOut.next (State.updTile_good h)

theorem execProgramLaunch_good {s₀ s} {a0} (h : Good s₀ s) : GoodOut s₀ (execProgramLaunch a0 s) := by
  unfold execProgramLaunch
  extract_lets +onlyGivenNames s0
  split
  · exact GoodOut.next h
  · exact GoodOut.ite (GoodOut.next h) (GoodOut.next (State.setTile_good (State.takeLane_good h)))

theorem execRgnOpen_good {s₀ s} {a0 a1} (h : Good s₀ s) : GoodOut s₀ (execRgnOpen a0 a1 s) := by
  unfold execRgnOpen
  exact GoodOut.next (State.issue_good h)

theorem execVneg_good {s₀ s} {a0 a1} (h : Good s₀ s) : GoodOut s₀ (execVneg a0 a1 s) := by
  unfold execVneg
  exact GoodOut.next (State.issueVec_good h)

theorem execVfma_good {s₀ s} {a0 a1} (h : Good s₀ s) : GoodOut s₀ (execVfma a0 a1 s) := by
  unfold execVfma
  exact GoodOut.next (State.issueVec_good h)

theorem execCwaitSatisfied_good {s₀ s} {a0} (h : Good s₀ s) : GoodOut s₀ (execCwaitSatisfied a0 s) := by
  unfold execCwaitSatisfied
  split
  · exact GoodOut.ite (GoodOut.next (State.acquire_good (State.updTile_good h))) (GoodOut.next h)
  · exact GoodOut.next h

theorem execMatmulSide_good {s₀ s} {a0 a1} (h : Good s₀ s) : GoodOut s₀ (execMatmulSide a0 a1 s) := by
  unfold execMatmulSide
  exact GoodOut.next (State.issueMm_good h)

theorem execTileFetchFault_good {s₀ s} {a0} (h : Good s₀ s) : GoodOut s₀ (execTileFetchFault a0 s) := by
  unfold execTileFetchFault
  split
  · exact GoodOut.next h
  · split
    · exact GoodOut.next (State.tileFault_good h)
    · exact GoodOut.next (State.tileFault_good (State.fetchRead_good h))
    · exact GoodOut.next h

theorem execQconv_good {s₀ s} {a0 a1} (h : Good s₀ s) : GoodOut s₀ (execQconv a0 a1 s) := by
  unfold execQconv
  exact GoodOut.next (State.issue_good h)

theorem execVmul_good {s₀ s} {a0 a1} (h : Good s₀ s) : GoodOut s₀ (execVmul a0 a1 s) := by
  unfold execVmul
  exact GoodOut.next (State.issueVec_good h)

theorem execVrsq_good {s₀ s} {a0 a1} (h : Good s₀ s) : GoodOut s₀ (execVrsq a0 a1 s) := by
  unfold execVrsq
  exact GoodOut.next (State.issueVec_good h)

theorem execAcq_good {s₀ s} {a0 a1} (h : Good s₀ s) : GoodOut s₀ (execAcq a0 a1 s) := by
  unfold execAcq
  refine GoodOut.next ?_
  refine State.control_good ?_ h
  intro s2 x2_1 h2_2
  exact State.pendOrder_good h2_2

theorem execLoop_good {s₀ s} {a0 a1} (h : Good s₀ s) : GoodOut s₀ (execLoop a0 a1 s) := by
  unfold execLoop
  extract_lets +onlyGivenNames s0 s1
  refine GoodOut.next ?_
  refine State.control_good ?_ h
  intro s4 x4_1 h4_2
  exact State.updTile_good h4_2

theorem execFence_good {s₀ s} {a0 a1} (h : Good s₀ s) : GoodOut s₀ (execFence a0 a1 s) := by
  unfold execFence
  refine GoodOut.next ?_
  refine State.control_good ?_ h
  intro s2 x2_1 h2_2
  exact State.pendOrder_good h2_2

theorem execMatmul_good {s₀ s} {a0 a1} (h : Good s₀ s) : GoodOut s₀ (execMatmul a0 a1 s) := by
  unfold execMatmul
  exact GoodOut.next (State.issueMm_good h)

theorem execIshr_good {s₀ s} {a0 a1} (h : Good s₀ s) : GoodOut s₀ (execIshr a0 a1 s) := by
  unfold execIshr
  exact GoodOut.next (State.issueVec_good h)

theorem execVmin_good {s₀ s} {a0 a1} (h : Good s₀ s) : GoodOut s₀ (execVmin a0 a1 s) := by
  unfold execVmin
  exact GoodOut.next (State.issueVec_good h)

theorem execXstart_good {s₀ s} {a0 a1} (h : Good s₀ s) : GoodOut s₀ (execXstart a0 a1 s) := by
  unfold execXstart
  exact GoodOut.next (State.issue_good h)

theorem execVcmp_good {s₀ s} {a0 a1} (h : Good s₀ s) : GoodOut s₀ (execVcmp a0 a1 s) := by
  unfold execVcmp
  exact GoodOut.next (State.issueVec_good h)

theorem execQstatGather_good {s₀ s} {a0 a1} (h : Good s₀ s) : GoodOut s₀ (execQstatGather a0 a1 s) := by
  unfold execQstatGather
  exact GoodOut.next (State.issueStat_good h)

theorem execSlotWait_good {s₀ s} {a0 a1} (h : Good s₀ s) : GoodOut s₀ (execSlotWait a0 a1 s) := by
  unfold execSlotWait
  exact GoodOut.next (State.issue_good h)

theorem execKop_good {s₀ s} {a0 a1} (h : Good s₀ s) : GoodOut s₀ (execKop a0 a1 s) := by
  unfold execKop
  exact GoodOut.next (State.issueVec_good h)

theorem execVtopk_good {s₀ s} {a0 a1} (h : Good s₀ s) : GoodOut s₀ (execVtopk a0 a1 s) := by
  unfold execVtopk
  exact GoodOut.next (State.issue_good h)

theorem execImulhi_good {s₀ s} {a0 a1} (h : Good s₀ s) : GoodOut s₀ (execImulhi a0 a1 s) := by
  unfold execImulhi
  exact GoodOut.next (State.issueVec_good h)

theorem execVmax_good {s₀ s} {a0 a1} (h : Good s₀ s) : GoodOut s₀ (execVmax a0 a1 s) := by
  unfold execVmax
  exact GoodOut.next (State.issueVec_good h)

theorem execVrng_good {s₀ s} {a0 a1} (h : Good s₀ s) : GoodOut s₀ (execVrng a0 a1 s) := by
  unfold execVrng
  exact GoodOut.next (State.issueVec_good h)

theorem execVrsum_good {s₀ s} {a0 a1} (h : Good s₀ s) : GoodOut s₀ (execVrsum a0 a1 s) := by
  unfold execVrsum
  exact GoodOut.next (State.issueVec_good h)

theorem execVexp_good {s₀ s} {a0 a1} (h : Good s₀ s) : GoodOut s₀ (execVexp a0 a1 s) := by
  unfold execVexp
  exact GoodOut.next (State.issueVec_good h)

theorem execVsub_good {s₀ s} {a0 a1} (h : Good s₀ s) : GoodOut s₀ (execVsub a0 a1 s) := by
  unfold execVsub
  exact GoodOut.next (State.issueVec_good h)

theorem execVbcast_good {s₀ s} {a0 a1} (h : Good s₀ s) : GoodOut s₀ (execVbcast a0 a1 s) := by
  unfold execVbcast
  exact GoodOut.next (State.issueVec_good h)

theorem execRel_good {s₀ s} {a0 a1} (h : Good s₀ s) : GoodOut s₀ (execRel a0 a1 s) := by
  unfold execRel
  refine GoodOut.next ?_
  refine State.control_good ?_ h
  intro s2 x2_1 h2_2
  exact State.pendOrder_good h2_2

theorem execVcvt_good {s₀ s} {a0 a1} (h : Good s₀ s) : GoodOut s₀ (execVcvt a0 a1 s) := by
  unfold execVcvt
  exact GoodOut.next (State.issueVec_good h)

theorem execVrmax_good {s₀ s} {a0 a1} (h : Good s₀ s) : GoodOut s₀ (execVrmax a0 a1 s) := by
  unfold execVrmax
  exact GoodOut.next (State.issueVec_good h)

theorem execVrcp_good {s₀ s} {a0 a1} (h : Good s₀ s) : GoodOut s₀ (execVrcp a0 a1 s) := by
  unfold execVrcp
  exact GoodOut.next (State.issueVec_good h)

theorem execIcmp_good {s₀ s} {a0 a1} (h : Good s₀ s) : GoodOut s₀ (execIcmp a0 a1 s) := by
  unfold execIcmp
  exact GoodOut.next (State.issueVec_good h)

theorem execRgnClose_good {s₀ s} {a0 a1} (h : Good s₀ s) : GoodOut s₀ (execRgnClose a0 a1 s) := by
  unfold execRgnClose
  exact GoodOut.next (State.issue_good h)

theorem execCodecTloadApply_good {s₀ s} {a0 a1} (h : Good s₀ s) : GoodOut s₀ (execCodecTloadApply a0 a1 s) := by
  unfold execCodecTloadApply
  split
  · exact GoodOut.next h
  · extract_lets +onlyGivenNames s3
    extract_lets +onlyGivenNames s4
    have hs4 : Good s₀ s4 := State.served_good (State.eccRead_good h)
    clear_value s4
    extract_lets +onlyGivenNames s7 s8
    refine GoodOut.ite ?_ ?_
    · refine GoodOut.next ?_
      refine GoodO.getD ?_ hs4
      refine GoodO.map ?_
      intro x13
      exact State.tileFault_good hs4
    · split
      · refine GoodOut.next ?_
        subst s8
        dsimp -zeta -zetaHave only
        exact State.endReq_good (State.codecNote_good (State.bump_good hs4))
      · refine GoodOut.ite ?_ (GoodOut.next (State.endReq_good (Good.set hs4)))
        refine GoodOut.next ?_
        subst s8
        dsimp -zeta -zetaHave only
        exact State.endReq_good (State.codecNote_good (State.bump_good hs4))

theorem execVadd_good {s₀ s} {a0 a1} (h : Good s₀ s) : GoodOut s₀ (execVadd a0 a1 s) := by
  unfold execVadd
  exact GoodOut.next (State.issueVec_good h)

theorem execNop_good {s₀ s} {a0 a1} (h : Good s₀ s) : GoodOut s₀ (execNop a0 a1 s) := by
  unfold execNop
  refine GoodOut.next ?_
  refine State.control_good ?_ h
  intro s2 x2_1 h2_2
  exact h2_2

theorem execAttnMerge_good {s₀ s} {a0 a1} (h : Good s₀ s) : GoodOut s₀ (execAttnMerge a0 a1 s) := by
  unfold execAttnMerge
  exact GoodOut.next (State.issue_good h)

theorem execCxTload_good {s₀ s} {a0 a1} (h : Good s₀ s) : GoodOut s₀ (execCxTload a0 a1 s) := by
  unfold execCxTload
  exact GoodOut.next (State.issueCodec_good h)

theorem execInvalidOpcode_good {s₀ s} {a0 a1} (h : Good s₀ s) : GoodOut s₀ (execInvalidOpcode a0 a1 s) := by
  unfold execInvalidOpcode
  split
  · exact GoodOut.next h
  · exact GoodOut.ite (GoodOut.next (State.tileFault_good h)) (GoodOut.next h)

theorem execProgramComplete_good {s₀ s} {a0} (h : Good s₀ s) : GoodOut s₀ (execProgramComplete a0 s) := by
  unfold execProgramComplete
  extract_lets +onlyGivenNames s0
  split
  · exact GoodOut.next h
  · refine GoodOut.ite (GoodOut.next h) ?_
    extract_lets +onlyGivenNames s7
    have hs7 : Good s₀ s7 := State.updTile_good h
    clear_value s7
    extract_lets +onlyGivenNames s10
    have hs10 : Good s₀ s10 := State.progEvent_good hs7
    clear_value s10
    extract_lets +onlyGivenNames s13
    have hs13 : Good s₀ s13 := State.updCmd_good hs10
    clear_value s13
    exact GoodOut.next (State.endWork_good (State.tallyTenant_good hs13))

theorem execIadd_good {s₀ s} {a0 a1} (h : Good s₀ s) : GoodOut s₀ (execIadd a0 a1 s) := by
  unfold execIadd
  exact GoodOut.next (State.issueVec_good h)

theorem execAttn_good {s₀ s} {a0 a1} (h : Good s₀ s) : GoodOut s₀ (execAttn a0 a1 s) := by
  unfold execAttn
  exact GoodOut.next (State.issue_good h)

theorem execIshl_good {s₀ s} {a0 a1} (h : Good s₀ s) : GoodOut s₀ (execIshl a0 a1 s) := by
  unfold execIshl
  exact GoodOut.next (State.issueVec_good h)

theorem execVsel_good {s₀ s} {a0 a1} (h : Good s₀ s) : GoodOut s₀ (execVsel a0 a1 s) := by
  unfold execVsel
  exact GoodOut.next (State.issueVec_good h)

theorem execIxor_good {s₀ s} {a0 a1} (h : Good s₀ s) : GoodOut s₀ (execIxor a0 a1 s) := by
  unfold execIxor
  exact GoodOut.next (State.issueVec_good h)

theorem execVrmin_good {s₀ s} {a0 a1} (h : Good s₀ s) : GoodOut s₀ (execVrmin a0 a1 s) := by
  unfold execVrmin
  exact GoodOut.next (State.issueVec_good h)

theorem execQstatMerge_good {s₀ s} {a0 a1} (h : Good s₀ s) : GoodOut s₀ (execQstatMerge a0 a1 s) := by
  unfold execQstatMerge
  exact GoodOut.next (State.issueStat_good h)

theorem execVabs_good {s₀ s} {a0 a1} (h : Good s₀ s) : GoodOut s₀ (execVabs a0 a1 s) := by
  unfold execVabs
  exact GoodOut.next (State.issueVec_good h)

theorem execCxDec_good {s₀ s} {a0 a1} (h : Good s₀ s) : GoodOut s₀ (execCxDec a0 a1 s) := by
  unfold execCxDec
  exact GoodOut.next (State.issueCodec_good h)

theorem execBarrier_good {s₀ s} {a0 a1} (h : Good s₀ s) : GoodOut s₀ (execBarrier a0 a1 s) := by
  unfold execBarrier
  refine GoodOut.next ?_
  refine State.control_good ?_ h
  intro s2 x2_1 h2_2
  exact State.updTile_good h2_2

theorem execViota_good {s₀ s} {a0 a1} (h : Good s₀ s) : GoodOut s₀ (execViota a0 a1 s) := by
  unfold execViota
  exact GoodOut.next (State.issueVec_good h)

theorem execCxEnc_good {s₀ s} {a0 a1} (h : Good s₀ s) : GoodOut s₀ (execCxEnc a0 a1 s) := by
  unfold execCxEnc
  exact GoodOut.next (State.issueCodec_good h)

theorem execInstructionComplete_good {s₀ s} {a0 a1} (h : Good s₀ s) : GoodOut s₀ (execInstructionComplete a0 a1 s) := by
  unfold execInstructionComplete
  extract_lets +onlyGivenNames s0
  split
  · refine GoodOut.ite (GoodOut.next h) ?_
    extract_lets +onlyGivenNames s5
    have hs5 : Good s₀ s5 := State.updTile_good h
    clear_value s5
    extract_lets +onlyGivenNames s8
    have hs8 : Good s₀ s8 := Good.ite (State.acquire_good hs5) hs5
    clear_value s8
    exact GoodOut.next (State.runUnit_good hs8)
  · exact GoodOut.next h

theorem execCset_good {s₀ s} {a0 a1} (h : Good s₀ s) : GoodOut s₀ (execCset a0 a1 s) := by
  unfold execCset
  refine GoodOut.next ?_
  refine Good.ite h ?_
  refine State.control_good ?_ h
  intro s4 x4_1 h4_2
  exact State.setCtr_good h4_2

theorem execVpext_good {s₀ s} {a0 a1} (h : Good s₀ s) : GoodOut s₀ (execVpext a0 a1 s) := by
  unfold execVpext
  exact GoodOut.next (State.issueVec_good h)

theorem execIor_good {s₀ s} {a0 a1} (h : Good s₀ s) : GoodOut s₀ (execIor a0 a1 s) := by
  unfold execIor
  exact GoodOut.next (State.issueVec_good h)

theorem execQstatGatherNew_good {s₀ s} {a0 a1} (h : Good s₀ s) : GoodOut s₀ (execQstatGatherNew a0 a1 s) := by
  unfold execQstatGatherNew
  exact GoodOut.next (State.issueStat_good h)

theorem execEndProgram_good {s₀ s} {a0 a1} (h : Good s₀ s) : GoodOut s₀ (execEndProgram a0 a1 s) := by
  unfold execEndProgram
  refine GoodOut.next ?_
  refine State.control_good ?_ h
  intro s2 x2_1 h2_2
  exact State.updTile_good h2_2

theorem execVsample_good {s₀ s} {a0 a1} (h : Good s₀ s) : GoodOut s₀ (execVsample a0 a1 s) := by
  unfold execVsample
  exact GoodOut.next (State.issue_good h)

theorem execCwait_good {s₀ s} {a0 a1} (h : Good s₀ s) : GoodOut s₀ (execCwait a0 a1 s) := by
  unfold execCwait
  refine GoodOut.next ?_
  refine State.control_good ?_ h
  intro s2 x2_1 h2_2
  exact Good.ite (State.acquire_good h2_2) (State.updTile_good h2_2)

theorem execCodecBlock_good {s₀ s} {a0 a1} (h : Good s₀ s) : GoodOut s₀ (execCodecBlock a0 a1 s) := by
  unfold execCodecBlock
  extract_lets +onlyGivenNames s0
  have hs0 : Good s₀ s0 := State.fetchBlocks_good (State.writeBlocks_good h)
  clear_value s0
  split
  · exact GoodOut.next hs0
  · split
    · exact GoodOut.next hs0
    · exact GoodOut.next (State.writeBlocks_good (State.served_good (State.processBlock_good hs0)))

theorem execCxHist_good {s₀ s} {a0 a1} (h : Good s₀ s) : GoodOut s₀ (execCxHist a0 a1 s) := by
  unfold execCxHist
  exact GoodOut.next (State.issueCodec_good h)

theorem execSlotRelease_good {s₀ s} {a0 a1} (h : Good s₀ s) : GoodOut s₀ (execSlotRelease a0 a1 s) := by
  unfold execSlotRelease
  exact GoodOut.next (State.issue_good h)

theorem execVflag_good {s₀ s} {a0 a1} (h : Good s₀ s) : GoodOut s₀ (execVflag a0 a1 s) := by
  unfold execVflag
  exact GoodOut.next (State.issueVec_good h)

theorem execKeyGroupFetch_good {s₀ s} {a0} (h : Good s₀ s) : GoodOut s₀ (execKeyGroupFetch a0 s) := by
  unfold execKeyGroupFetch
  extract_lets +onlyGivenNames s0
  split
  · exact GoodOut.ite (GoodOut.next (State.keyFetch_good h)) (GoodOut.next h)
  · exact GoodOut.next h

theorem execIand_good {s₀ s} {a0 a1} (h : Good s₀ s) : GoodOut s₀ (execIand a0 a1 s) := by
  unfold execIand
  exact GoodOut.next (State.issueVec_good h)

theorem execIsub_good {s₀ s} {a0 a1} (h : Good s₀ s) : GoodOut s₀ (execIsub a0 a1 s) := by
  unfold execIsub
  exact GoodOut.next (State.issueVec_good h)

theorem execImul_good {s₀ s} {a0 a1} (h : Good s₀ s) : GoodOut s₀ (execImul a0 a1 s) := by
  unfold execImul
  exact GoodOut.next (State.issueVec_good h)

theorem execVst_good {s₀ s} {a0 a1} (h : Good s₀ s) : GoodOut s₀ (execVst a0 a1 s) := by
  unfold execVst
  exact GoodOut.next (State.issue_good h)

theorem execSlotMarkSeen_good {s₀ s} {a0 a1} (h : Good s₀ s) : GoodOut s₀ (execSlotMarkSeen a0 a1 s) := by
  unfold execSlotMarkSeen
  exact GoodOut.next (State.runUnit_good h)

theorem execVld_good {s₀ s} {a0 a1} (h : Good s₀ s) : GoodOut s₀ (execVld a0 a1 s) := by
  unfold execVld
  exact GoodOut.next (State.issue_good h)

theorem execQstatFinish_good {s₀ s} {a0 a1} (h : Good s₀ s) : GoodOut s₀ (execQstatFinish a0 a1 s) := by
  unfold execQstatFinish
  exact GoodOut.next (State.issueStat_good h)

end Sys2Proof.Machine
end

