-- ==== Sys2Proof/Laws/Good/Front.lean ====
section
/-!
SUPPORT. Good/Front.lean: every operation of Machine/Front.lean keeps what `Good` says.
-/

namespace Sys2Proof.Machine

theorem State.setRingState_good {s₀ s} {a0 a1 a2} (h : Good s₀ s) : Good s₀ (State.setRingState s a0 a1 a2) := by
  unfold State.setRingState
  exact State.setFld_good h

theorem State.begin__good {s₀ s} {a0 a1 a2} (h : Good s₀ s) : Good s₀ (State.begin_ s a0 a1 a2) := by
  unfold State.begin_
  extract_lets +onlyGivenNames s0
  have hs0 : Good s₀ s0 := State.updCmd_good h
  clear_value s0
  split
  · exact State.updLaunch_good hs0
  · exact State.updItem_good hs0
  · exact hs0

theorem State.refuseCmd_good {s₀ s} {a0 a1 a2 a3} (h : Good s₀ s) : Good s₀ (State.refuseCmd s a0 a1 a2 a3) := by
  unfold State.refuseCmd
  extract_lets +onlyGivenNames s0
  have hs0 : Good s₀ s0 := State.raiseCmd_good h
  clear_value s0
  split
  · exact State.updRing_good hs0
  · exact hs0

theorem State.dispatch_good {s₀ s} {a0 a1 a2 a3 act} (hact : ∀ s x, Good s₀ s → GoodO s₀ (act s x)) (h : Good s₀ s) : Good s₀ (State.dispatch s a0 a1 a2 a3 act) := by
  unfold State.dispatch
  split
  · refine Good.ite h ?_
    refine Good.ite (State.refuseCmd_good h) ?_
    refine Good.ite h ?_
    split
    · exact State.refuseCmd_good h
    · split
      · exact State.refuseCmd_good h
      · exact GoodO.getD (hact _ _ h) h
  · exact h

theorem State.countLaunch_good {s₀ s} {a0 a1 a2} (h : Good s₀ s) : Good s₀ (State.countLaunch s a0 a1 a2) := by
  unfold State.countLaunch
  split
  · exact State.logToken_good (State.addQuad_good h)
  · exact h

theorem State.doorbell_good {s₀ s} {a0 a1 a2} (h : Good s₀ s) : Good s₀ (State.doorbell s a0 a1 a2) := by
  unfold State.doorbell
  refine Good.ite h ?_
  refine Good.ite (State.bump_good h) ?_
  extract_lets +onlyGivenNames s5
  exact Good.ite (State.raise_good h) (State.setFld_good h)

theorem State.drainLog_good {s₀ s} {a0 a1 a2} (h : Good s₀ s) : Good s₀ (State.drainLog s a0 a1 a2) := by
  induction a2 generalizing s
  · exact h
  rename_i fuel ih
  unfold State.drainLog
  split
  · exact h
  · extract_lets +onlyGivenNames s2
    extract_lets +onlyGivenNames s3 s4 s5
    refine Good.ite ?_ ?_
    · refine ih ?_
      subst s5
      dsimp -zeta -zetaHave only
      exact Good.set (GoodL.out (State.signal_good h))
    · refine Good.ite (State.raise_good (State.setRingState_good h)) ?_
      extract_lets +onlyGivenNames s18
      refine ih ?_
      subst s5
      dsimp -zeta -zetaHave only
      exact Good.set (State.send_good h)

theorem State.ringStart_good {s₀ s} {a0 a1} (h : Good s₀ s) : Good s₀ (State.ringStart s a0 a1) := by
  unfold State.ringStart
  exact State.setRingState_good (State.updRing_good h)

theorem State.dropCmd_good {s₀ s} {a0 a1 a2} (h : Good s₀ s) : Good s₀ (State.dropCmd s a0 a1 a2) := by
  unfold State.dropCmd
  extract_lets +onlyGivenNames s0 s1
  have hs1 : Good s₀ s1 := by
    subst s1
    split
    · exact Good.ite (Good.set h) h
    · exact h
  clear_value s1
  extract_lets +onlyGivenNames s4
  have hs4 : Good s₀ s4 := State.updRing_good hs1
  clear_value s4
  exact Good.ite hs4 (Good.ite (State.setRingState_good hs4) (Good.ite (State.ringStart_good hs4) hs4))

theorem State.fetchFail_good {s₀ s} {a0 a1} (h : Good s₀ s) : Good s₀ (State.fetchFail s a0 a1) := by
  unfold State.fetchFail
  exact State.setRingState_good (State.raise_good h)

theorem State.hostFail_good {s₀ s} {a0 a1 a2} (h : Good s₀ s) : Good s₀ (State.hostFail s a0 a1 a2) := by
  unfold State.hostFail
  exact State.raise_good (State.setRingState_good (State.pushLog_good h))

theorem State.runInsn_good {s₀ s} {a0 a1 a2} (h : Good s₀ s) : GoodO s₀ (State.runInsn s a0 a1 a2) := by
  unfold State.runInsn
  refine GoodO.map ?_
  intro x1
  extract_lets +onlyGivenNames s2
  exact State.countLaunch_good (State.updTile_good (State.begin__good h))

theorem State.insnCmd_good {s₀ s} {a0 a1 a2 a3} (h : Good s₀ s) : Good s₀ (State.insnCmd s a0 a1 a2 a3) := by
  unfold State.insnCmd
  refine State.dispatch_good ?_ h
  intro s1 x1_1 h1_2
  exact State.runInsn_good h1_2

theorem State.report_good {s₀ s} {a0 a1 a2 a3} (h : Good s₀ s) : Good s₀ (State.report s a0 a1 a2 a3) := by
  unfold State.report
  split
  · exact h
  · refine Good.ite h ?_
    refine Good.ite (State.dropCmd_good h) ?_
    extract_lets +onlyGivenNames s7 s8
    have hs8 : Good s₀ s8 := h
    clear_value s8
    extract_lets +onlyGivenNames s11
    have hs11 : Good s₀ s11 := State.event_good h
    clear_value s11
    extract_lets +onlyGivenNames s14
    refine Good.ite ?_ ?_
    · extract_lets +onlyGivenNames s16
      have hs16 : Good s₀ s16 := State.unitOf_good hs11
      clear_value s16
      extract_lets +onlyGivenNames s19
      have hs19 : Good s₀ s19 := Good.ite (State.holdAct_good hs16) hs16
      clear_value s19
      extract_lets +onlyGivenNames s22
      have hs22 : Good s₀ s22 := Good.ite (State.sigAct_good hs19) hs19
      clear_value s22
      exact State.dropCmd_good (Good.ite (State.holdAct_good hs22) hs22)
    · refine Good.ite ?_ ?_
      · extract_lets +onlyGivenNames s44
        refine Good.ite hs8 ?_
        extract_lets +onlyGivenNames s47
        have hs47 : Good s₀ s47 := State.pushLog_good hs11
        clear_value s47
        refine State.dropCmd_good ?_
        subst s14
        dsimp -zeta -zetaHave only
        exact Good.ite (State.interrupt_good (Good.ite (State.sigAct_good hs47) hs47)) (Good.ite (State.sigAct_good hs47) hs47)
      · extract_lets +onlyGivenNames s66
        have hs66 : Good s₀ s66 := Good.ite hs11 (Good.ite (State.send_good hs11) (State.hostFail_good hs11))
        clear_value s66
        extract_lets +onlyGivenNames s69
        have hs69 : Good s₀ s69 := Good.ite (State.sigAct_good hs66) hs66
        clear_value s69
        refine State.dropCmd_good ?_
        subst s14
        dsimp -zeta -zetaHave only
        exact Good.ite (State.interrupt_good hs69) hs69

theorem State.ringDisable_good {s₀ s} {a0 a1} (h : Good s₀ s) : Good s₀ (State.ringDisable s a0 a1) := by
  unfold State.ringDisable
  extract_lets +onlyGivenNames s0
  have hs0 : Good s₀ s0 := State.setFlag_good h
  clear_value s0
  exact Good.ite (State.setRingState_good hs0) hs0

theorem State.ringEnable_good {s₀ s} {a0 a1} (h : Good s₀ s) : Good s₀ (State.ringEnable s a0 a1) := by
  unfold State.ringEnable
  refine Good.ite h ?_
  extract_lets +onlyGivenNames s2
  have hs2 : Good s₀ s2 := State.setFld_good (State.setFlag_good h)
  clear_value s2
  exact Good.ite (State.ringStart_good hs2) (State.updRing_good hs2)

theorem execCmdWait_good {s₀ s} {a0 a1} (h : Good s₀ s) : GoodOut s₀ (execCmdWait a0 a1 s) := by
  unfold execCmdWait
  refine GoodOut.next ?_
  refine State.dispatch_good ?_ h
  intro s2 x2_1 h2_2
  extract_lets +onlyGivenNames s3
  have hs3 : Good s₀ s3 := State.begin__good h2_2
  clear_value s3
  exact GoodO.some (Good.ite (State.endWork_good (State.drcDrop_good hs3)) hs3)

theorem execCmdQstat_good {s₀ s} {a0 a1} (h : Good s₀ s) : GoodOut s₀ (execCmdQstat a0 a1 s) := by
  unfold execCmdQstat
  exact GoodOut.next (State.insnCmd_good h)

theorem execDoorbell_good {s₀ s} {a0 a1 a2} (h : Good s₀ s) : GoodOut s₀ (execDoorbell a0 a1 a2 s) := by
  unfold execDoorbell
  exact GoodOut.ite (GoodOut.next h) (GoodOut.next (State.doorbell_good h))

theorem execCommandFetch_good {s₀ s} {a0 a1 a2} (h : Good s₀ s) : GoodOut s₀ (execCommandFetch a0 a1 a2 s) := by
  unfold execCommandFetch
  extract_lets +onlyGivenNames s0
  refine GoodOut.ite (GoodOut.next h) ?_
  split
  · exact GoodOut.next (State.fetchFail_good h)
  · extract_lets +onlyGivenNames s8
    extract_lets +onlyGivenNames s9
    exact GoodOut.next (State.updRing_good h)

theorem execWaitSatisfied_good {s₀ s} {a0 a1} (h : Good s₀ s) : GoodOut s₀ (execWaitSatisfied a0 a1 s) := by
  unfold execWaitSatisfied
  split
  · exact GoodOut.ite (GoodOut.next (State.endWork_good (State.drcDrop_good h))) (GoodOut.next h)
  · exact GoodOut.next h

theorem execCmdAttn_good {s₀ s} {a0 a1} (h : Good s₀ s) : GoodOut s₀ (execCmdAttn a0 a1 s) := by
  unfold execCmdAttn
  exact GoodOut.next (State.insnCmd_good h)

theorem execPcieCompletionTimeout_good {s₀ s} {a0 a1} (h : Good s₀ s) : GoodOut s₀ (execPcieCompletionTimeout a0 a1 s) := by
  unfold execPcieCompletionTimeout
  exact GoodOut.ite (GoodOut.next h) (GoodOut.next (State.fetchFail_good h))

theorem execCmdMatmul_good {s₀ s} {a0 a1} (h : Good s₀ s) : GoodOut s₀ (execCmdMatmul a0 a1 s) := by
  unfold execCmdMatmul
  exact GoodOut.next (State.insnCmd_good h)

theorem execCmdVec_good {s₀ s} {a0 a1} (h : Good s₀ s) : GoodOut s₀ (execCmdVec a0 a1 s) := by
  unfold execCmdVec
  extract_lets +onlyGivenNames s0
  refine GoodOut.next ?_
  refine State.dispatch_good ?_ h
  intro s3 x3_1 h3_2
  refine GoodO.map ?_
  intro x5
  extract_lets +onlyGivenNames s6 s7 s8
  have hs8 : Good s₀ s8 := State.begin__good h3_2
  clear_value s8
  extract_lets +onlyGivenNames s11
  have hs11 : Good s₀ s11 := by
    subst s11
    refine Good.foldl ?_ hs8
    intro s19 x19_1 h19_2
    split
    · exact State.updTile_good h19_2
    · exact h19_2
  clear_value s11
  exact State.countLaunch_good (State.updTile_good hs11)

theorem execCmdFence_good {s₀ s} {a0 a1} (h : Good s₀ s) : GoodOut s₀ (execCmdFence a0 a1 s) := by
  unfold execCmdFence
  refine GoodOut.next ?_
  refine State.dispatch_good ?_ h
  intro s2 x2_1 h2_2
  refine GoodO.ite GoodO.none ?_
  extract_lets +onlyGivenNames s5
  have hs5 : Good s₀ s5 := State.begin__good h2_2
  clear_value s5
  exact GoodO.some (State.endWork_good (Good.ite (State.drcDrop_good hs5) hs5))

theorem execCmdCodec_good {s₀ s} {a0 a1} (h : Good s₀ s) : GoodOut s₀ (execCmdCodec a0 a1 s) := by
  unfold execCmdCodec
  exact GoodOut.next (State.insnCmd_good h)

theorem execRingEnable_good {s₀ s} {a0 a1} (h : Good s₀ s) : GoodOut s₀ (execRingEnable a0 a1 s) := by
  unfold execRingEnable
  exact GoodOut.ite (GoodOut.next h) (GoodOut.next (State.ringEnable_good h))

theorem execCmdXfer_good {s₀ s} {a0 a1} (h : Good s₀ s) : GoodOut s₀ (execCmdXfer a0 a1 s) := by
  unfold execCmdXfer
  extract_lets +onlyGivenNames s0
  refine GoodOut.next ?_
  refine State.dispatch_good ?_ h
  intro s3 x3_1 h3_2
  refine GoodO.map ?_
  intro x5
  extract_lets +onlyGivenNames s6 s7
  exact State.countLaunch_good (State.setChan_good (State.begin__good h3_2))

theorem execCommandReport_good {s₀ s} {a0 a1 a2 a3} (h : Good s₀ s) : GoodOut s₀ (execCommandReport a0 a1 a2 a3 s) := by
  unfold execCommandReport
  exact GoodOut.next (State.report_good h)

theorem execRingDisable_good {s₀ s} {a0 a1} (h : Good s₀ s) : GoodOut s₀ (execRingDisable a0 a1 s) := by
  unfold execRingDisable
  exact GoodOut.ite (GoodOut.next h) (GoodOut.next (State.ringDisable_good h))

theorem execCmdQconv_good {s₀ s} {a0 a1} (h : Good s₀ s) : GoodOut s₀ (execCmdQconv a0 a1 s) := by
  unfold execCmdQconv
  exact GoodOut.next (State.insnCmd_good h)

theorem execCmdSignal_good {s₀ s} {a0 a1} (h : Good s₀ s) : GoodOut s₀ (execCmdSignal a0 a1 s) := by
  unfold execCmdSignal
  refine GoodOut.next ?_
  refine State.dispatch_good ?_ h
  intro s2 x2_1 h2_2
  extract_lets +onlyGivenNames s3 s4 s5
  have hs5 : Good s₀ s5 := State.begin__good h2_2
  clear_value s5
  refine GoodO.ite (GoodO.some (State.endWork_good hs5)) ?_
  refine GoodO.ite (GoodO.some (State.endWork_good (State.holdAct_good hs5))) ?_
  generalize he17 : State.signal _ _ _ _ _ = e17
  obtain ⟨se17, xe17⟩ := e17
  have hse17 : Good s₀ se17 := (GoodL.eq he17 (State.signal_good hs5))
  clear he17
  split
  · exact GoodO.some (State.endWork_good (GoodL.eq (by assumption) (GoodL.mk hse17)))
  · exact GoodO.some (GoodL.eq (by assumption) (GoodL.mk hse17))
  · exact GoodO.some (State.endWork_good (State.updCmd_good (GoodL.eq (by assumption) (GoodL.mk hse17))))

theorem execCmdNop_good {s₀ s} {a0 a1} (h : Good s₀ s) : GoodOut s₀ (execCmdNop a0 a1 s) := by
  unfold execCmdNop
  refine GoodOut.next ?_
  refine State.dispatch_good ?_ h
  intro s2 x2_1 h2_2
  exact GoodO.some (State.endWork_good (State.begin__good h2_2))

end Sys2Proof.Machine
end

