-- ==== Sys2Proof/Laws/Good/Collectives.lean ====
section
/-!
SUPPORT. Good/Collectives.lean: every operation of Machine/Collectives.lean keeps what `Good` says.
-/

namespace Sys2Proof.Machine

theorem State.showPool_good {s₀ s} (h : Good s₀ s) : Good s₀ (State.showPool s) := by
  unfold State.showPool
  refine Good.foldl ?_ h
  intro s1 x1_1 h1_2
  exact State.setFld_good h1_2

theorem State.releaseSlots_good {s₀ s} {a0} (h : Good s₀ s) : Good s₀ (State.releaseSlots s a0) := by
  unfold State.releaseSlots
  split
  · exact State.showPool_good (Good.set h)
  · exact h

theorem State.endColl_good {s₀ s} {a0 a1 a2} (h : Good s₀ s) : Good s₀ (State.endColl s a0 a1 a2) := by
  unfold State.endColl
  extract_lets +onlyGivenNames s0
  have hs0 : Good s₀ s0 := by
    subst s0
    refine Good.foldl ?_ h
    intro s53 x53_1 h53_2
    exact State.releaseSlots_good h53_2
  clear_value s0
  extract_lets +onlyGivenNames s3 s4
  have hs4 : Good s₀ s4 := Good.set hs0
  clear_value s4
  extract_lets +onlyGivenNames s7
  have hs7 : Good s₀ s7 := State.setFld_good hs4
  clear_value s7
  extract_lets +onlyGivenNames s10
  have hs10 : Good s₀ s10 := Good.ite (State.bump_good hs7) (Good.ite hs7 (State.bump_good hs7))
  clear_value s10
  extract_lets +onlyGivenNames s13
  have hs13 : Good s₀ s13 := State.setFld_good hs10
  clear_value s13
  extract_lets +onlyGivenNames s16
  have hs16 : Good s₀ s16 := by
    subst s16
    refine Good.ite ?_ hs10
    refine Good.foldl ?_ hs13
    intro s25 x25_1 h25_2
    obtain ⟨y26, zy26⟩ := x25_1
    dsimp -zeta -zetaHave only
    exact Good.ite h25_2 (State.sendCtl_good h25_2)
  clear_value s16
  exact State.endWork_good (State.updCmd_good hs16)

theorem State.endColls_good {s₀ s} {a0 a1} (h : Good s₀ s) : Good s₀ (State.endColls s a0 a1) := by
  unfold State.endColls
  refine Good.foldl ?_ h
  intro s1 x1_1 h1_2
  exact State.endColl_good h1_2

theorem State.abortIn_good {s₀ s} {a0 a1 a2} (h : Good s₀ s) : Good s₀ (State.abortIn s a0 a1 a2) := by
  unfold State.abortIn
  refine Good.ite h ?_
  extract_lets +onlyGivenNames s2 s3
  have hs3 : Good s₀ s3 := State.endColls_good h
  clear_value s3
  exact Good.ite (State.setFld_good hs3) hs3

theorem State.resetColls_good {s₀ s} {a0} (h : Good s₀ s) : Good s₀ (State.resetColls s a0) := by
  unfold State.resetColls
  extract_lets +onlyGivenNames s0
  have hs0 : Good s₀ s0 := State.endColls_good h
  clear_value s0
  extract_lets +onlyGivenNames s3 s4
  have hs4 : Good s₀ s4 := Good.set hs0
  clear_value s4
  exact State.zeroRegs_good hs4

theorem State.collPoison_good {s₀ s} {a0 a1} (h : Good s₀ s) : GoodL s₀ (State.collPoison s a0 a1) := by
  unfold State.collPoison
  exact GoodL.ite (GoodL.mk (State.noteWork_good (State.raiseCmd_good h))) (GoodL.mk h)

theorem State.collPacket_good {s₀ s} {a0 a1 a2 a3} (h : Good s₀ s) : Good s₀ (State.collPacket s a0 a1 a2 a3) := by
  unfold State.collPacket
  extract_lets +onlyGivenNames s0
  exact GoodO.getD (State.sendPacket_good h) h

theorem State.collSend_good {s₀ s} {a0 a1 a2 a3 a4 a5} (h : Good s₀ s) : Good s₀ (State.collSend s a0 a1 a2 a3 a4 a5) := by
  unfold State.collSend
  extract_lets +onlyGivenNames s0 s1
  refine GoodL.out ?_
  refine GoodL.foldl ?_ (GoodL.mk h)
  intro s4 x4_1 x4_2 h4_3
  dsimp -zeta -zetaHave only
  extract_lets +onlyGivenNames s6
  have hs6 : Good s₀ s6 := by
    subst s6
    refine Good.foldl ?_ h4_3
    intro s13 x13_1 h13_2
    extract_lets +onlyGivenNames s14
    exact State.collPacket_good h13_2
  clear_value s6
  exact GoodL.mk hs6

theorem State.collPut_good {s₀ s} {a0 a1 a2 a3 a4 a5 a6} (h : Good s₀ s) : Good s₀ (State.collPut s a0 a1 a2 a3 a4 a5 a6) := by
  unfold State.collPut
  extract_lets +onlyGivenNames s0 s1 s2
  refine Good.foldl ?_ h
  intro s4 x4_1 h4_2
  obtain ⟨y5, zy5⟩ := x4_1
  dsimp -zeta -zetaHave only
  extract_lets +onlyGivenNames s7 s8
  have hs8 : Good s₀ s8 := by
    subst s8
    refine Good.foldl ?_ h4_2
    intro s18 x18_1 h18_2
    subst s2
    dsimp -zeta -zetaHave only
    extract_lets +onlyGivenNames s21 s22
    exact Good.ite (State.updTile_good h18_2) (State.poolMirror_good (State.taWrite_good h18_2))
  clear_value s8
  extract_lets +onlyGivenNames s11
  exact Good.ite hs8 (State.cmdWrite_good hs8)

theorem State.collDeliver_good {s₀ s} {a0 a1 a2 a3 a4} (h : Good s₀ s) : Good s₀ (State.collDeliver s a0 a1 a2 a3 a4) := by
  unfold State.collDeliver
  extract_lets +onlyGivenNames s0 s1
  have hs1 : Good s₀ s1 := by
    subst s1
    refine GoodL.out ?_
    refine GoodL.foldl ?_ (GoodL.mk h)
    intro s22 x22_1 x22_2 h22_3
    dsimp -zeta -zetaHave only
    exact GoodL.mk (State.collPut_good h22_3)
  clear_value s1
  refine Good.ite hs1 ?_
  extract_lets +onlyGivenNames s6 s7
  dsimp -zeta -zetaHave only
  extract_lets +onlyGivenNames s9
  have hs9 : Good s₀ s9 := Good.ite hs1 (State.tallyTenant_good hs1)
  clear_value s9
  exact State.updCmd_good hs9

theorem State.collStep_good {s₀ s} {a0 a1 a2} (h : Good s₀ s) : GoodOL s₀ (State.collStep s a0 a1 a2) := by
  unfold State.collStep
  refine GoodOL.ite ?_ ?_
  · extract_lets +onlyGivenNames s1
    extract_lets +onlyGivenNames s2 s3 s4 s5
    have hs5 : Good s₀ s5 := State.releaseSlots_good (State.collDeliver_good h)
    clear_value s5
    exact GoodOL.some hs5
  · refine GoodOL.ite ?_ ?_
    · split
      exact GoodOL.ite (GoodOL.filter (GoodOL.some (GoodL.eq (by assumption) (GoodL.ite (GoodL.mk (State.sendCtl_good h)) (GoodL.mk h))))) (GoodOL.some (GoodL.eq (by assumption) (GoodL.ite (GoodL.mk (State.sendCtl_good h)) (GoodL.mk h))))
    · split
      · exact GoodOL.none
      · split
        refine GoodOL.ite ?_ ?_
        · extract_lets +onlyGivenNames s38
          have hs38 : Good s₀ s38 := by
            subst s38
            refine Good.ite ?_ ?_
            · refine State.releaseSlots_good ?_
              refine GoodL.eq (by assumption) ?_
              refine GoodL.ite ?_ (GoodL.mk h)
              extract_lets +onlyGivenNames s48 s49 s50
              have hs50 : Good s₀ s50 := State.collSend_good h
              clear_value s50
              generalize he53 : State.collPoison _ _ _ = e53
              obtain ⟨se53, xe53⟩ := e53
              have hse53 : Good s₀ se53 := (GoodL.eq he53 (State.collPoison_good hs50))
              clear he53
              dsimp -zeta -zetaHave only
              exact GoodL.mk hse53
            · refine GoodL.eq (by assumption) ?_
              refine GoodL.ite ?_ (GoodL.mk h)
              extract_lets +onlyGivenNames s69 s70 s71
              have hs71 : Good s₀ s71 := State.collSend_good h
              clear_value s71
              generalize he74 : State.collPoison _ _ _ = e74
              obtain ⟨se74, xe74⟩ := e74
              have hse74 : Good s₀ se74 := (GoodL.eq he74 (State.collPoison_good hs71))
              clear he74
              dsimp -zeta -zetaHave only
              exact GoodL.mk hse74
          clear_value s38
          exact GoodOL.some hs38
        · extract_lets +onlyGivenNames s88
          split
          · refine GoodOL.some ?_
            refine GoodL.eq (by assumption) ?_
            refine GoodL.ite ?_ (GoodL.mk h)
            extract_lets +onlyGivenNames s93 s94 s95
            have hs95 : Good s₀ s95 := State.collSend_good h
            clear_value s95
            generalize he98 : State.collPoison _ _ _ = e98
            obtain ⟨se98, xe98⟩ := e98
            have hse98 : Good s₀ se98 := (GoodL.eq he98 (State.collPoison_good hs95))
            clear he98
            dsimp -zeta -zetaHave only
            exact GoodL.mk hse98
          · extract_lets +onlyGivenNames s112
            generalize he113 : State.collPoison _ _ _ = e113
            obtain ⟨se113, xe113⟩ := e113
            have hse113 : Good s₀ se113 := by
              refine (GoodL.eq he113 ?_)
              refine State.collPoison_good ?_
              refine GoodL.eq (by assumption) ?_
              refine GoodL.ite ?_ (GoodL.mk h)
              extract_lets +onlyGivenNames s132 s133 s134
              have hs134 : Good s₀ s134 := State.collSend_good h
              clear_value s134
              generalize he137 : State.collPoison _ _ _ = e137
              obtain ⟨se137, xe137⟩ := e137
              have hse137 : Good s₀ se137 := (GoodL.eq he137 (State.collPoison_good hs134))
              clear he137
              dsimp -zeta -zetaHave only
              exact GoodL.mk hse137
            clear he113
            dsimp -zeta -zetaHave only
            refine GoodOL.some ?_
            refine GoodL.out ?_
            refine GoodL.ite ?_ (GoodL.mk (State.collDeliver_good hse113))
            extract_lets +onlyGivenNames s121 s122 s123
            exact GoodL.mk hse113

theorem State.collAdvance_good {s₀ s} {a0 a1 a2} (h : Good s₀ s) : GoodL s₀ (State.collAdvance s a0 a1 a2) := by
  induction a2 generalizing s a0 a1
  · exact h
  rename_i fuel ih
  unfold State.collAdvance
  split
  · exact GoodL.mk h
  · split
    · exact GoodL.mk h
    · exact GoodL.ite (GoodL.mk (GoodOL.eq (by assumption) (State.collStep_good h))) (ih (GoodOL.eq (by assumption) (State.collStep_good h)))

theorem State.collCmd_good {s₀ s} {a0 a1 a2 act} (hact : ∀ s x, Good s₀ s → GoodO s₀ (act s x)) (h : Good s₀ s) : Good s₀ (State.collCmd s a0 a1 a2 act) := by
  unfold State.collCmd
  split
  · refine Good.ite ?_ h
    refine State.dispatch_good ?_ h
    intro s3 x3_1 h3_2
    exact hact _ _ h3_2
  · exact h

theorem State.exchange_good {s₀ s} {a0 a1} (h : Good s₀ s) : GoodL s₀ (State.exchange s a0 a1) := by
  unfold State.exchange
  refine GoodL.foldl ?_ (GoodL.mk h)
  intro s1 x1_1 x1_2 h1_3
  dsimp -zeta -zetaHave only
  extract_lets +onlyGivenNames s3
  clear_value s3
  split
  · exact GoodL.mk h1_3
  · extract_lets +onlyGivenNames s8
    extract_lets +onlyGivenNames s9 s10 s11 s12
    refine GoodL.ite ?_ ?_
    · extract_lets +onlyGivenNames s14
      have hs14 : Good s₀ s14 := State.collPut_good (GoodL.out (State.collPoison_good h1_3))
      clear_value s14
      exact GoodL.mk hs14
    · extract_lets +onlyGivenNames s24
      have hs24 : Good s₀ s24 := State.collPacket_good (GoodL.out (State.collPoison_good h1_3))
      clear_value s24
      exact GoodL.mk (State.collSend_good hs24)

theorem State.landPieces_good {s₀ s} {a0} (h : Good s₀ s) : GoodL s₀ (State.landPieces s a0) := by
  unfold State.landPieces
  refine GoodL.foldl ?_ (GoodL.mk h)
  intro s1 x1_1 x1_2 h1_3
  dsimp -zeta -zetaHave only
  refine GoodL.ite (GoodL.mk h1_3) ?_
  extract_lets +onlyGivenNames s6
  have hs6 : Good s₀ s6 := State.collPut_good (GoodL.out (State.collPoison_good h1_3))
  clear_value s6
  exact GoodL.mk hs6

theorem State.putRun_good {s₀ s} {a0} (h : Good s₀ s) : Good s₀ (State.putRun s a0) := by
  unfold State.putRun
  exact Good.set h

theorem State.runColl_good {s₀ s} {a0 a1 a2} (h : Good s₀ s) : Good s₀ (State.runColl s a0 a1 a2) := by
  unfold State.runColl
  split
  · exact h
  · refine Good.ite ?_ ?_
    · generalize he3 : State.landPieces _ _ = e3
      obtain ⟨se3, xe3⟩ := e3
      have hse3 : Good s₀ se3 := (GoodL.eq he3 (State.landPieces_good h))
      clear he3
      dsimp -zeta -zetaHave only
      split
      · exact State.putRun_good (GoodL.out (State.exchange_good hse3))
      · exact State.putRun_good hse3
    · refine Good.foldl ?_ h
      intro s18 x18_1 h18_2
      split
      · exact h18_2
      · split
        · exact h18_2
        · generalize he23 : State.collAdvance _ _ _ _ = e23
          obtain ⟨se23, xe23⟩ := e23
          have hse23 : Good s₀ se23 := (GoodL.eq he23 (State.collAdvance_good h18_2))
          clear he23
          dsimp -zeta -zetaHave only
          exact State.putRun_good hse23

theorem State.collData_good {s₀ s} {a0 a1} (h : Good s₀ s) : Good s₀ (State.collData s a0 a1) := by
  unfold State.collData
  split
  · exact h
  · extract_lets +onlyGivenNames s2
    extract_lets +onlyGivenNames s3 s4
    exact State.runColl_good (State.putRun_good h)

theorem State.collReach_good {s₀ s} (h : Good s₀ s) : Good s₀ (State.collReach s) := by
  unfold State.collReach
  refine Good.foldl ?_ h
  intro s1 x1_1 h1_2
  exact State.endColl_good h1_2

theorem State.collTokens_good {s₀ s} {a0 a1 a2} (h : Good s₀ s) : Good s₀ (State.collTokens s a0 a1 a2) := by
  unfold State.collTokens
  refine Good.foldl ?_ h
  intro s1 x1_1 h1_2
  exact State.sendCtl_good h1_2

theorem State.takeToken_good {s₀ s} {a0 a1} (h : Good s₀ s) : Good s₀ (State.takeToken s a0 a1) := by
  unfold State.takeToken
  exact Good.ite (State.endColl_good h) (State.runColl_good (State.putRun_good h))

theorem State.tokenIn_good {s₀ s} {a0} (h : Good s₀ s) : Good s₀ (State.tokenIn s a0) := by
  unfold State.tokenIn
  split
  · exact State.takeToken_good h
  · exact Good.ite (Good.set h) h

theorem State.recvLens_good {s₀ s} {a0} (h : Good s₀ s) : Good s₀ (State.recvLens s a0) := by
  unfold State.recvLens
  refine Good.foldl ?_ h
  intro s1 x1_1 h1_2
  exact State.collPut_good h1_2

theorem State.segStart_good {s₀ s} {a0} (h : Good s₀ s) : Good s₀ (State.segStart s a0) := by
  unfold State.segStart
  extract_lets +onlyGivenNames s0
  refine Good.ite h ?_
  extract_lets +onlyGivenNames s3 s4 s5 s6 s7
  have hs7 : Good s₀ s7 := by
    subst s7
    clear_value s5
    split
    · refine Good.foldl ?_ (State.showPool_good (Good.set h))
      intro s39 x39_1 h39_2
      exact State.bump_good h39_2
    · exact State.bump_good h
  clear_value s7
  extract_lets +onlyGivenNames s10
  have hs10 : Good s₀ s10 := State.bump_good hs7
  clear_value s10
  extract_lets +onlyGivenNames s13 s14
  generalize he15 : State.collPoison _ _ _ = e15
  obtain ⟨se15, xe15⟩ := e15
  have hse15 : Good s₀ se15 := (GoodL.eq he15 (State.collPoison_good hs10))
  clear he15
  dsimp -zeta -zetaHave only
  extract_lets +onlyGivenNames s20 s21
  have hs21 : Good s₀ s21 := State.putRun_good hse15
  clear_value s21
  exact State.runColl_good (State.collTokens_good hs21)

theorem State.startColl_good {s₀ s} {a0 a1 a2} (h : Good s₀ s) : GoodO s₀ (State.startColl s a0 a1 a2) := by
  unfold State.startColl
  extract_lets +onlyGivenNames s0 s1
  split
  · refine GoodO.some ?_
    subst s1
    dsimp -zeta -zetaHave only
    exact State.endWork_good (State.updCmd_good (State.begin__good h))
  · refine GoodO.ite GoodO.none ?_
    extract_lets +onlyGivenNames s12 s13
    have hs13 : Good s₀ s13 := State.setWord_good (State.begin__good h)
    clear_value s13
    refine GoodO.ite ?_ ?_
    · refine GoodO.some ?_
      subst s1
      dsimp -zeta -zetaHave only
      exact State.endWork_good (State.updCmd_good hs13)
    · refine GoodO.ite ?_ ?_
      · refine GoodO.some ?_
        subst s1
        dsimp -zeta -zetaHave only
        exact State.endWork_good (State.updCmd_good hs13)
      · extract_lets +onlyGivenNames s30
        have hs30 : Good s₀ s30 := State.updCmd_good hs13
        clear_value s30
        extract_lets +onlyGivenNames s33 s34 s35 s36 s37 s38 s39 s40
        have hs40 : Good s₀ s40 := Good.set hs30
        clear_value s40
        extract_lets +onlyGivenNames s43
        have hs43 : Good s₀ s43 := State.setFld_good hs40
        clear_value s43
        refine GoodO.ite (GoodO.some (State.endColl_good hs43)) ?_
        split
        extract_lets +onlyGivenNames s51
        have hs51 : Good s₀ s51 := State.putRun_good (GoodL.eq (by assumption) (GoodL.ite (State.collPoison_good hs43) (GoodL.mk hs43)))
        clear_value s51
        extract_lets +onlyGivenNames s54 s55
        have hs55 : Good s₀ s55 := by
          subst s55
          refine Good.ite ?_ hs51
          generalize he90 : State.collPoison _ _ _ = e90
          obtain ⟨se90, xe90⟩ := e90
          have hse90 : Good s₀ se90 := (GoodL.eq he90 (State.collPoison_good hs51))
          clear he90
          dsimp -zeta -zetaHave only
          exact State.collPut_good (State.putRun_good hse90)
        clear_value s55
        extract_lets +onlyGivenNames s58
        have hs58 : Good s₀ s58 := Good.ite hs55 (State.collTokens_good hs55)
        clear_value s58
        extract_lets +onlyGivenNames s61 s62 s63
        have hs63 : Good s₀ s63 := Good.set hs58
        clear_value s63
        extract_lets +onlyGivenNames s66
        have hs66 : Good s₀ s66 := by
          subst s66
          refine Good.foldl ?_ hs63
          intro s74 x74_1 h74_2
          split
          · exact State.takeToken_good h74_2
          · exact h74_2
        clear_value s66
        exact GoodO.some (State.runColl_good hs66)

theorem execCollReduceScatter_good {s₀ s} {a0 a1} (h : Good s₀ s) : GoodOut s₀ (execCollReduceScatter a0 a1 s) := by
  unfold execCollReduceScatter
  refine GoodOut.next ?_
  refine State.collCmd_good ?_ h
  intro s2 x2_1 h2_2
  exact State.startColl_good h2_2

theorem execCollAbortReceive_good {s₀ s} {a0 a1 a2} (h : Good s₀ s) : GoodOut s₀ (execCollAbortReceive a0 a1 a2 s) := by
  unfold execCollAbortReceive
  exact GoodOut.next (State.abortIn_good h)

theorem execCollAlltoall_good {s₀ s} {a0 a1} (h : Good s₀ s) : GoodOut s₀ (execCollAlltoall a0 a1 s) := by
  unfold execCollAlltoall
  refine GoodOut.next ?_
  refine State.collCmd_good ?_ h
  intro s2 x2_1 h2_2
  exact State.startColl_good h2_2

theorem execCollAllreduce_good {s₀ s} {a0 a1} (h : Good s₀ s) : GoodOut s₀ (execCollAllreduce a0 a1 s) := by
  unfold execCollAllreduce
  refine GoodOut.next ?_
  refine State.collCmd_good ?_ h
  intro s2 x2_1 h2_2
  exact State.startColl_good h2_2

theorem execCollAlltoallv_good {s₀ s} {a0 a1} (h : Good s₀ s) : GoodOut s₀ (execCollAlltoallv a0 a1 s) := by
  unfold execCollAlltoallv
  refine GoodOut.next ?_
  refine State.collCmd_good ?_ h
  intro s2 x2_1 h2_2
  exact State.startColl_good h2_2

theorem execCollUnbind_good {s₀ s} {a0 a1} (h : Good s₀ s) : GoodOut s₀ (execCollUnbind a0 a1 s) := by
  unfold execCollUnbind
  refine GoodOut.next ?_
  refine State.collCmd_good ?_ h
  intro s2 x2_1 h2_2
  extract_lets +onlyGivenNames s3
  refine GoodO.ite (GoodO.some (State.endWork_good (State.updCmd_good (State.begin__good h2_2)))) ?_
  refine GoodO.ite GoodO.none ?_
  extract_lets +onlyGivenNames s12
  have hs12 : Good s₀ s12 := State.begin__good h2_2
  clear_value s12
  extract_lets +onlyGivenNames s15 s16
  have hs16 : Good s₀ s16 := Good.set hs12
  clear_value s16
  exact GoodO.some (State.endWork_good (State.zeroRegs_good hs16))

theorem execCollComplete_good {s₀ s} {a0 a1 a2 a3 a4} (h : Good s₀ s) : GoodOut s₀ (execCollComplete a0 a1 a2 a3 a4 s) := by
  unfold execCollComplete
  split
  · exact GoodOut.next h
  · extract_lets +onlyGivenNames s3
    extract_lets +onlyGivenNames s4
    have hs4 : Good s₀ s4 := Good.ite (State.bump_good h) h
    clear_value s4
    refine GoodOut.ite (GoodOut.next (State.endColl_good (State.raiseCmd_good hs4))) ?_
    refine GoodOut.ite (GoodOut.next hs4) ?_
    extract_lets +onlyGivenNames s15
    have hs15 : Good s₀ s15 := Good.ite (State.recvLens_good hs4) hs4
    clear_value s15
    exact GoodOut.next (State.endColl_good hs15)

theorem execCollAllgather_good {s₀ s} {a0 a1} (h : Good s₀ s) : GoodOut s₀ (execCollAllgather a0 a1 s) := by
  unfold execCollAllgather
  refine GoodOut.next ?_
  refine State.collCmd_good ?_ h
  intro s2 x2_1 h2_2
  exact State.startColl_good h2_2

theorem execCollSegmentStart_good {s₀ s} {a0 a1 a2} (h : Good s₀ s) : GoodOut s₀ (execCollSegmentStart a0 a1 a2 s) := by
  unfold execCollSegmentStart
  split
  · exact GoodOut.next (State.segStart_good h)
  · exact GoodOut.next h

theorem execCollTokenReceive_good {s₀ s} {a0} (h : Good s₀ s) : GoodOut s₀ (execCollTokenReceive a0 s) := by
  unfold execCollTokenReceive
  exact GoodOut.next (State.tokenIn_good h)

theorem execCollBind_good {s₀ s} {a0 a1} (h : Good s₀ s) : GoodOut s₀ (execCollBind a0 a1 s) := by
  unfold execCollBind
  refine GoodOut.next ?_
  refine State.collCmd_good ?_ h
  intro s2 x2_1 h2_2
  extract_lets +onlyGivenNames s3 s4
  have hs4 : Good s₀ s4 := State.begin__good h2_2
  clear_value s4
  refine GoodO.ite (GoodO.some (State.endWork_good (State.updCmd_good hs4))) ?_
  split
  · exact GoodO.some (State.endWork_good hs4)
  · extract_lets +onlyGivenNames s16
    extract_lets +onlyGivenNames s17 s18
    have hs18 : Good s₀ s18 := Good.set hs4
    clear_value s18
    extract_lets +onlyGivenNames s21
    have hs21 : Good s₀ s21 := State.setWord_good (State.setWord_good hs18)
    clear_value s21
    exact GoodO.some (State.endWork_good hs21)

theorem execCollBarrier_good {s₀ s} {a0 a1} (h : Good s₀ s) : GoodOut s₀ (execCollBarrier a0 a1 s) := by
  unfold execCollBarrier
  refine GoodOut.next ?_
  refine State.collCmd_good ?_ h
  intro s2 x2_1 h2_2
  exact State.startColl_good h2_2

end Sys2Proof.Machine
end

