-- ==== Sys2Proof/Laws/Good/Recipes.lean ====
section
/-!
SUPPORT. Good/Recipes.lean: every operation of Machine/Recipes.lean keeps what `Good` says.
-/

namespace Sys2Proof.Machine

theorem State.snapshot_good {s₀ s} {a0 a1 a2 a3 a4} (h : Good s₀ s) : GoodOL s₀ (State.snapshot s a0 a1 a2 a3 a4) := by
  unfold State.snapshot
  refine GoodOL.map ?_
  intro x1
  extract_lets +onlyGivenNames s2 s3 s4 s5 s6
  have hs6 : Good s₀ s6 := Good.set h
  clear_value s6
  exact GoodL.mk (State.addQuad_good hs6)

theorem State.endStore_good {s₀ s} {a0 a1 a2 r} (hr : GoodL s₀ r) (h : Good s₀ s) : Good s₀ (State.endStore s a0 a1 a2 r) := by
  unfold State.endStore
  split
  · exact State.endWork_good (State.updCmd_good hr)
  · exact State.endWork_good (State.updCmd_good h)

theorem State.planLoading_good {s₀ s} {a0} (h : Good s₀ s) : Good s₀ (State.planLoading s a0) := by
  unfold State.planLoading
  exact State.setFlag_good h

theorem State.epoch_good {s₀ s} {a0} (h : Good s₀ s) : Good s₀ (State.epoch s a0) := by
  unfold State.epoch
  extract_lets +onlyGivenNames s0 s1
  have hs1 : Good s₀ s1 := State.setFld_good h
  clear_value s1
  extract_lets +onlyGivenNames s4 s5 s6 s7
  have hs7 : Good s₀ s7 := Good.set hs1
  clear_value s7
  refine Good.foldl ?_ (State.planLoading_good hs7)
  intro s11 x11_1 h11_2
  exact State.raise_good h11_2

theorem State.placeItem_good {s₀ s} {a0 a1 a2 a3} (h : Good s₀ s) : Good s₀ (State.placeItem s a0 a1 a2 a3) := by
  unfold State.placeItem
  extract_lets +onlyGivenNames s0 s1 s2 s3 s4
  have hs4 : Good s₀ s4 := State.updItem_good h
  clear_value s4
  extract_lets +onlyGivenNames s7
  have hs7 : Good s₀ s7 := State.setChan_good hs4
  clear_value s7
  refine Good.ite ?_ hs7
  extract_lets +onlyGivenNames s11
  split
  exact State.setChan_good hs7

theorem State.storeRecipe_good {s₀ s} {a0 a1} (h : Good s₀ s) : GoodL s₀ (State.storeRecipe s a0 a1) := by
  unfold State.storeRecipe
  extract_lets +onlyGivenNames s0 s1
  split
  · refine GoodL.mk ?_
    subst s1
    dsimp -zeta -zetaHave only
    exact Good.set h
  · extract_lets +onlyGivenNames s8
    extract_lets +onlyGivenNames s9
    refine GoodL.ite ?_ ?_
    · refine GoodL.mk ?_
      subst s1
      dsimp -zeta -zetaHave only
      exact Good.set h
    · refine GoodL.ite ?_ (GoodL.mk h)
      refine GoodL.mk ?_
      subst s1
      dsimp -zeta -zetaHave only
      exact Good.set h

theorem State.takeItem_good {s₀ s} {a0 a1} (h : Good s₀ s) : Good s₀ (State.takeItem s a0 a1) := by
  unfold State.takeItem
  refine Good.ite h ?_
  extract_lets +onlyGivenNames s2
  split
  · exact State.placeItem_good h
  · split
    · exact State.placeItem_good h
    · exact h

theorem execRecipeLoad_good {s₀ s} {a0 a1} (h : Good s₀ s) : GoodOut s₀ (execRecipeLoad a0 a1 s) := by
  unfold execRecipeLoad
  refine GoodOut.next ?_
  refine State.dispatch_good ?_ h
  intro s2 x2_1 h2_2
  extract_lets +onlyGivenNames s3 s4
  have hs4 : Good s₀ s4 := State.begin__good h2_2
  clear_value s4
  exact GoodO.some (State.endStore_good (State.storeRecipe_good hs4) hs4)

theorem execRouteItemPlace_good {s₀ s} {a0 a1} (h : Good s₀ s) : GoodOut s₀ (execRouteItemPlace a0 a1 s) := by
  unfold execRouteItemPlace
  exact GoodOut.next (State.takeItem_good h)

theorem execResidentCopyComplete_good {s₀ s} {a0 a1 a2 a3} (h : Good s₀ s) : GoodOut s₀ (execResidentCopyComplete a0 a1 a2 a3 s) := by
  unfold execResidentCopyComplete
  split
  · exact GoodOut.next h
  · refine GoodOut.ite (GoodOut.next h) ?_
    extract_lets +onlyGivenNames s6 s7 s8 s9
    have hs9 : Good s₀ s9 := by
      subst s9
      refine Good.foldl ?_ h
      intro s24 x24_1 h24_2
      split
      · exact State.updTile_good h24_2
      · exact h24_2
    clear_value s9
    extract_lets +onlyGivenNames s12 s13
    have hs13 : Good s₀ s13 := Good.set hs9
    clear_value s13
    exact GoodOut.next (State.planLoading_good hs13)

theorem execRecipeLaunch_good {s₀ s} {a0 a1} (h : Good s₀ s) : GoodOut s₀ (execRecipeLaunch a0 a1 s) := by
  unfold execRecipeLaunch
  refine GoodOut.next ?_
  refine State.dispatch_good ?_ h
  intro s2 x2_1 h2_2
  extract_lets +onlyGivenNames s3 s4 s5 s6
  have hs6 : Good s₀ s6 := State.begin__good h2_2
  clear_value s6
  split
  · exact GoodO.some (State.endWork_good (State.updCmd_good hs6))
  · generalize he14 : State.free _ = e14
    obtain ⟨xe14, se14⟩ := e14
    have hse14 : Good s₀ se14 := (GoodR.eq he14 (State.free_good (GoodOL.eq (by assumption) (State.snapshot_good hs6))))
    clear he14
    dsimp -zeta -zetaHave only
    exact GoodO.some (State.logToken_good (State.updCmd_good (GoodR.out (State.free_good hse14))))

theorem execRoute_good {s₀ s} {a0 a1} (h : Good s₀ s) : GoodOut s₀ (execRoute a0 a1 s) := by
  unfold execRoute
  refine GoodOut.next ?_
  refine State.dispatch_good ?_ h
  intro s2 x2_1 h2_2
  extract_lets +onlyGivenNames s3 s4
  have hs4 : Good s₀ s4 := State.begin__good h2_2
  clear_value s4
  extract_lets +onlyGivenNames s7 s8 s9 s10 s11
  have hs11 : Good s₀ s11 := by
    subst s11
    refine Good.foldl ?_ hs4
    intro s57 x57_1 h57_2
    extract_lets +onlyGivenNames s58
    exact State.cmdWrite_good (State.taWrite_good h57_2)
  clear_value s11
  extract_lets +onlyGivenNames s14
  have hs14 : Good s₀ s14 := Good.ite hs11 (State.noteWork_good (State.raiseCmd_good hs11))
  clear_value s14
  extract_lets +onlyGivenNames s17 s18 s19 s20 s21 s22 s23 s24
  have hs24 : Good s₀ s24 := Good.set hs14
  clear_value s24
  extract_lets +onlyGivenNames s27
  have hs27 : Good s₀ s27 := by
    subst s27
    split
    · exact State.logToken_good (State.addQuad_good hs24)
    · exact hs24
  clear_value s27
  refine GoodO.ite (GoodO.some (State.routeDone_good hs27)) ?_
  refine GoodO.some ?_
  refine Good.foldl ?_ hs27
  intro s36 x36_1 h36_2
  exact State.takeItem_good h36_2

theorem execRecipePatch_good {s₀ s} {a0 a1} (h : Good s₀ s) : GoodOut s₀ (execRecipePatch a0 a1 s) := by
  unfold execRecipePatch
  refine GoodOut.next ?_
  refine State.dispatch_good ?_ h
  intro s2 x2_1 h2_2
  extract_lets +onlyGivenNames s3 s4
  have hs4 : Good s₀ s4 := State.begin__good h2_2
  clear_value s4
  exact GoodO.ite (GoodO.some (State.endWork_good (State.updCmd_good hs4))) (GoodO.some (State.endStore_good (State.storeRecipe_good hs4) hs4))

theorem execEpochBoundary_good {s₀ s} {a0} (h : Good s₀ s) : GoodOut s₀ (execEpochBoundary a0 s) := by
  unfold execEpochBoundary
  exact GoodOut.ite (GoodOut.next h) (GoodOut.next (State.epoch_good h))

end Sys2Proof.Machine
end

