-- ==== Sys2Proof/Laws/Good/LarderOps.lean ====
section
/-!
SUPPORT. Good/LarderOps.lean: every operation of Machine/LarderOps.lean keeps what `Good` says.
-/

namespace Sys2Proof.Machine

theorem State.setPool_good {s₀ s} {a0 a1} (h : Good s₀ s) : Good s₀ (State.setPool s a0 a1) := by
  unfold State.setPool
  exact Good.set h

theorem State.allocPage_good {s₀ s} {a0 a1} (h : Good s₀ s) : GoodOR s₀ (State.allocPage s a0 a1) := by
  unfold State.allocPage
  split
  · exact GoodOR.none
  · extract_lets +onlyGivenNames s2
    refine GoodOR.map ?_
    intro x4
    exact GoodR.mk (State.setPool_good h)

theorem State.needMap_good {s₀ s} {a0 a1 a2 a3} (h : Good s₀ s) : GoodOR s₀ (State.needMap s a0 a1 a2 a3) := by
  unfold State.needMap
  split
  · exact GoodOR.some h
  · extract_lets +onlyGivenNames s3
    split
    · refine GoodOR.ite GoodOR.none ?_
      extract_lets +onlyGivenNames s7 s8
      have hs8 : Good s₀ s8 := State.setPool_good h
      clear_value s8
      extract_lets +onlyGivenNames s11
      have hs11 : Good s₀ s11 := State.taWrite_good hs8
      clear_value s11
      exact GoodOR.some (State.taWrite_good hs11)
    · exact GoodOR.none

theorem State.setGranules_good {s₀ s} {a0 a1 a2 a3 a4 a5} (h : Good s₀ s) : Good s₀ (State.setGranules s a0 a1 a2 a3 a4 a5) := by
  unfold State.setGranules
  extract_lets +onlyGivenNames s0
  refine Good.foldl ?_ h
  intro s2 x2_1 h2_2
  exact State.taWrite_good h2_2

theorem State.install_good {s₀ s} {a0 a1 a2 a3 a4 a5} (h : Good s₀ s) : GoodO s₀ (State.install s a0 a1 a2 a3 a4 a5) := by
  unfold State.install
  refine GoodO.mapR ?_ (State.needMap_good h)
  intro x1 s1_1 h1_2
  dsimp -zeta -zetaHave only
  exact State.setGranules_good h1_2

theorem State.growBy_good {s₀ s} {a0 a1 a2 a3 a4} (h : Good s₀ s) : GoodER s₀ (State.growBy s a0 a1 a2 a3 a4) := by
  unfold State.growBy
  split
  · exact GoodER.error
  · split
    · exact GoodER.error
    · exact GoodER.ok (GoodO.eq (by assumption) (State.install_good (GoodOR.eq (by assumption) (State.allocPage_good h))))

theorem State.copyBytes_good {s₀ s} {a0 a1 a2 a3 a4} (h : Good s₀ s) : Good s₀ (State.copyBytes s a0 a1 a2 a3 a4) := by
  unfold State.copyBytes
  extract_lets +onlyGivenNames s0 s1 s2
  refine Good.foldl ?_ h
  intro s4 x4_1 h4_2
  obtain ⟨y5, zy5⟩ := x4_1
  dsimp -zeta -zetaHave only
  refine State.unitWrite_good ?_
  refine GoodL.out ?_
  refine GoodL.foldl ?_ (GoodL.mk h4_2)
  intro s10 x10_1 x10_2 h10_3
  extract_lets +onlyGivenNames s11
  generalize he12 : State.taFetch _ _ _ _ = e12
  obtain ⟨xe12, se12⟩ := e12
  have hse12 : Good s₀ se12 := (GoodR.eq he12 (State.taFetch_good h10_3))
  clear he12
  dsimp -zeta -zetaHave only
  split
  · exact GoodL.mk (State.taWrite_good (GoodR.eq (by assumption) (GoodR.mk hse12)))
  · exact GoodL.mk (GoodR.eq (by assumption) (GoodR.mk hse12))

theorem State.endCopy_good {s₀ s} {a0} (h : Good s₀ s) : Good s₀ (State.endCopy s a0) := by
  unfold State.endCopy
  split
  · extract_lets +onlyGivenNames s1
    have hs1 : Good s₀ s1 := State.copyBytes_good h
    clear_value s1
    extract_lets +onlyGivenNames s4
    have hs4 : Good s₀ s4 := GoodO.getD (State.install_good hs1) hs1
    clear_value s4
    exact Good.set hs4
  · exact h

theorem State.setSess_good {s₀ s} {a0 a1} (h : Good s₀ s) : Good s₀ (State.setSess s a0 a1) := by
  unfold State.setSess
  exact Good.set h

theorem State.updSess_good {s₀ s} {a0 a1} (h : Good s₀ s) : Good s₀ (State.updSess s a0 a1) := by
  unfold State.updSess
  exact State.setSess_good h

theorem State.updPage_good {s₀ s} {a0 a1 a2} (h : Good s₀ s) : Good s₀ (State.updPage s a0 a1 a2) := by
  unfold State.updPage
  exact State.setPool_good h

theorem State.dropPage_good {s₀ s} {a0 a1} (h : Good s₀ s) : Good s₀ (State.dropPage s a0 a1) := by
  unfold State.dropPage
  refine Good.ite h ?_
  extract_lets +onlyGivenNames s2
  have hs2 : Good s₀ s2 := State.updPage_good h
  clear_value s2
  exact State.setPool_good hs2

theorem State.beginCopy_good {s₀ s} {a0 a1 a2 a3 a4} (h : Good s₀ s) : GoodOR s₀ (State.beginCopy s a0 a1 a2 a3 a4) := by
  unfold State.beginCopy
  refine GoodOR.mapR ?_ (State.allocPage_good h)
  intro x1 s1_1 h1_2
  dsimp -zeta -zetaHave only
  extract_lets +onlyGivenNames s3
  have hs3 : Good s₀ s3 := State.bump_good (State.dropPage_good h1_2)
  clear_value s3
  exact GoodR.mk (Good.set hs3)

theorem State.resolveFrom_good {s₀ s} {a0 a1 a2 a3 a4 a5 a6} (h : Good s₀ s) : GoodEL s₀ (State.resolveFrom s a0 a1 a2 a3 a4 a5 a6) := by
  induction a4 generalizing s a5 a6
  · exact GoodEL.ok h
  rename_i fuel ih
  unfold State.resolveFrom
  refine GoodEL.ite (GoodEL.ok h) ?_
  extract_lets +onlyGivenNames s3
  split
  · refine GoodEL.ite ?_ ?_
    · split
      · subst s3
        dsimp -zeta -zetaHave only
        extract_lets +onlyGivenNames s9 s10
        exact ih (GoodOR.eq (by assumption) (State.beginCopy_good h))
      · exact GoodEL.error
    · subst s3
      dsimp -zeta -zetaHave only
      extract_lets +onlyGivenNames s18 s19
      exact ih h
  · extract_lets +onlyGivenNames s22
    split
    · subst s3
      dsimp -zeta -zetaHave only
      extract_lets +onlyGivenNames s26 s27
      exact ih (GoodER.eq (by assumption) (State.growBy_good h))
    · exact GoodEL.error

theorem State.resolveAppends_good {s₀ s} {a0 a1 a2} (h : Good s₀ s) : GoodL s₀ (State.resolveAppends s a0 a1 a2) := by
  unfold State.resolveAppends
  split
  · exact GoodL.mk h
  · extract_lets +onlyGivenNames s3
    split
    · exact GoodL.mk (State.updSess_good (GoodEL.eq (by assumption) (State.resolveFrom_good h)))
    · exact GoodL.mk (State.bump_good (State.updSess_good h))

theorem State.uninstall_good {s₀ s} {a0 a1 a2 a3 a4} (h : Good s₀ s) : Good s₀ (State.uninstall s a0 a1 a2 a3 a4) := by
  unfold State.uninstall
  split
  · exact h
  · extract_lets +onlyGivenNames s2
    have hs2 : Good s₀ s2 := State.setGranules_good h
    clear_value s2
    exact Good.ite hs2 (State.taWrite_good (State.setPool_good hs2))

theorem State.releasePage_good {s₀ s} {a0 a1 a2 a3 a4 a5} (h : Good s₀ s) : Good s₀ (State.releasePage s a0 a1 a2 a3 a4 a5) := by
  unfold State.releasePage
  exact State.dropPage_good (State.uninstall_good h)

theorem State.sharePage_good {s₀ s} {a0 a1} (h : Good s₀ s) : Good s₀ (State.sharePage s a0 a1) := by
  unfold State.sharePage
  exact Good.ite (State.bump_good h) (State.updPage_good h)

theorem State.touch_good {s₀ s} {a0 a1} (h : Good s₀ s) : Good s₀ (State.touch s a0 a1) := by
  unfold State.touch
  exact State.unitAdd_good h

theorem execLarderCopyComplete_good {s₀ s} {a0} (h : Good s₀ s) : GoodOut s₀ (execLarderCopyComplete a0 s) := by
  unfold execLarderCopyComplete
  exact GoodOut.next (State.endCopy_good h)

end Sys2Proof.Machine
end

