-- ==== Sys2Proof/Laws/Good/Larder.lean ====
section
/-!
SUPPORT. Good/Larder.lean: every operation of Machine/Larder.lean keeps what `Good` says.
-/

namespace Sys2Proof.Machine

/-- The relation for a command that was applied. -/
def GoodA (s₀ : State) (e : Applied) : Prop := Good s₀ e.s

def GoodAL {α : Type} (s₀ : State) (e : Applied × α) : Prop := Good s₀ e.1.s

theorem GoodA.mk {s₀ s : State} {a b : Nat} (h : Good s₀ s) : GoodA s₀ { s := s, status := a, detail := b } := h
theorem GoodAL.mk {α : Type} {s₀ : State} {e : Applied} {a : α} (h : GoodA s₀ e) : GoodAL s₀ (e, a) := h
theorem GoodA.out {s₀ : State} {e : Applied} (h : GoodA s₀ e) : Good s₀ e.s := h
theorem GoodAL.out {α : Type} {s₀ : State} {e : Applied × α} (h : GoodAL s₀ e) : Good s₀ e.1.s := h
theorem GoodAL.eq {α : Type} {s₀ : State} {e : Applied × α} {r : Applied} {a : α} (he : e = (r, a)) (h : GoodAL s₀ e) : GoodA s₀ r := by
  subst he
  exact h
theorem GoodA.ite {s₀ : State} {c : Prop} [Decidable c] {a b : Applied} (ha : GoodA s₀ a) (hb : GoodA s₀ b) :
    GoodA s₀ (if c then a else b) := by
  split <;> assumption
theorem GoodAL.ite {α : Type} {s₀ : State} {c : Prop} [Decidable c] {a b : Applied × α} (ha : GoodAL s₀ a) (hb : GoodAL s₀ b) :
    GoodAL s₀ (if c then a else b) := by
  split <;> assumption

theorem State.allocRange_good {s₀ s} {a0 a1 a2 a3 a4 a5 a6} (h : Good s₀ s) : GoodEL s₀ (State.allocRange s a0 a1 a2 a3 a4 a5 a6) := by
  induction a4 generalizing s a5 a6
  · exact GoodEL.ok h
  rename_i fuel ih
  unfold State.allocRange
  refine GoodEL.ite (GoodEL.ok h) ?_
  split
  · exact ih h
  · split
    · exact ih (GoodER.eq (by assumption) (State.growBy_good h))
    · exact GoodEL.error

theorem State.applyMark_good {s₀ s} {a0 a1 a2 a3 a4} (h : Good s₀ s) : Good s₀ (State.applyMark s a0 a1 a2 a3 a4) := by
  unfold State.applyMark
  extract_lets +onlyGivenNames s0 s1
  exact State.updTwin_good h

theorem refused__good {s₀ s} {a0} (h : Good s₀ s) : GoodA s₀ (refused_ s a0) := by
  unfold refused_
  exact GoodA.mk h

theorem applyFeed_good {s₀ s} {a0 a1 a2} (h : Good s₀ s) : GoodAL s₀ (applyFeed s a0 a1 a2) := by
  unfold applyFeed
  extract_lets +onlyGivenNames s0 s1 s2
  refine GoodAL.ite (GoodAL.mk (refused__good h)) ?_
  refine GoodAL.ite (GoodAL.mk (refused__good h)) ?_
  extract_lets +onlyGivenNames s11 s12 s13
  have hs13 : Good s₀ s13 := State.updSess_good h
  clear_value s13
  exact GoodAL.mk (GoodA.mk hs13)

theorem applyFree_good {s₀ s} {a0 a1 a2} (h : Good s₀ s) : GoodA s₀ (applyFree s a0 a1 a2) := by
  unfold applyFree
  extract_lets +onlyGivenNames s0 s1
  refine GoodA.ite (refused__good h) ?_
  refine GoodA.ite (refused__good h) ?_
  extract_lets +onlyGivenNames s8 s9 s10
  refine GoodA.mk ?_
  refine Good.foldl ?_ h
  intro s13 x13_1 h13_2
  obtain ⟨y14, zy14⟩ := x13_1
  dsimp -zeta -zetaHave only
  exact State.releasePage_good h13_2

theorem State.copySampling_good {s₀ s} {a0} (h : Good s₀ s) : Good s₀ (State.copySampling s a0) := by
  unfold State.copySampling
  exact State.updSess_good h

theorem State.dropFeeds_good {s₀ s} {a0 a1} (h : Good s₀ s) : Good s₀ (State.dropFeeds s a0 a1) := by
  unfold State.dropFeeds
  extract_lets +onlyGivenNames s0 s1
  have hs1 : Good s₀ s1 := State.updSess_good h
  clear_value s1
  refine Good.foldl ?_ hs1
  intro s5 x5_1 h5_2
  exact State.endWork_good (State.updCmd_good h5_2)

theorem applyUnpark_good {s₀ s} {a0 a1 a2 a3} (h : Good s₀ s) : GoodAL s₀ (applyUnpark s a0 a1 a2 a3) := by
  unfold applyUnpark
  extract_lets +onlyGivenNames n d
  refine GoodAL.ite h (GoodAL.ite (State.updSess_good h) ?_)
  extract_lets +onlyGivenNames r
  have hr : GoodEL s₀ r := by
    refine foldl_inv (Q := fun e : Except Nat (State × List (Nat × Nat)) => GoodEL s₀ e) (fun o x ho => ?_) (GoodEL.ok h)
    cases o with
    | error e => exact GoodEL.error
    | ok z =>
      have hs := ho z rfl
      dsimp only [Except.bind, bind]
      generalize hg : State.growBy _ _ _ _ _ _ = g
      cases g with
      | error e => exact GoodEL.error
      | ok y => exact GoodEL.ok (State.growBy_good hs y hg)
  clear_value r
  split
  · exact h
  · exact GoodAL.mk (GoodA.mk (State.updSess_good (hr _ rfl)))

theorem applyPark_good {s₀ s} {a0 a1 a2 a3} (h : Good s₀ s) : GoodAL s₀ (applyPark s a0 a1 a2 a3) := by
  unfold applyPark
  extract_lets +onlyGivenNames s0 s1
  refine GoodAL.ite (GoodAL.mk (refused__good h)) ?_
  extract_lets +onlyGivenNames s6
  refine GoodAL.ite ?_ ?_
  · refine GoodAL.mk ?_
    refine GoodA.mk ?_
    subst s6
    dsimp -zeta -zetaHave only
    exact State.updSess_good h
  · extract_lets +onlyGivenNames s14
    extract_lets +onlyGivenNames s15
    refine GoodAL.ite (GoodAL.mk (refused__good h)) ?_
    refine GoodAL.ite ?_ ?_
    · refine GoodAL.mk ?_
      refine GoodA.mk ?_
      refine State.updSess_good ?_
      subst s6
      dsimp -zeta -zetaHave only
      exact State.updSess_good h
    · extract_lets +onlyGivenNames s28
      have hs28 : Good s₀ s28 := by
        subst s28
        refine State.updSess_good ?_
        subst s6
        dsimp -zeta -zetaHave only
        exact State.updSess_good h
      clear_value s28
      exact GoodAL.mk (GoodA.mk hs28)

theorem State.releaseAll_good {s₀ s} {a0 a1 a2} (h : Good s₀ s) : Good s₀ (State.releaseAll s a0 a1 a2) := by
  unfold State.releaseAll
  refine Good.foldl ?_ h
  intro s1 x1_1 h1_2
  obtain ⟨y2, zy2⟩ := x1_1
  dsimp -zeta -zetaHave only
  exact State.releasePage_good h1_2

theorem State.closeSess_good {s₀ s} {a0 a1 a2} (h : Good s₀ s) : Good s₀ (State.closeSess s a0 a1 a2) := by
  unfold State.closeSess
  exact State.updSess_good (State.releaseAll_good (State.dropFeeds_good h))

theorem applyOpen_good {s₀ s} {a0 a1 a2} (h : Good s₀ s) : GoodA s₀ (applyOpen s a0 a1 a2) := by
  unfold applyOpen
  extract_lets +onlyGivenNames s0 s1
  refine GoodA.ite (refused__good h) ?_
  refine GoodA.ite (refused__good h) ?_
  extract_lets +onlyGivenNames s8 s9
  have hs9 : Good s₀ s9 := State.setSess_good h
  clear_value s9
  extract_lets +onlyGivenNames s12
  have hs12 : Good s₀ s12 := by
    subst s12
    refine Good.foldl ?_ hs9
    intro s19 x19_1 h19_2
    exact State.taWrite_good h19_2
  clear_value s12
  exact GoodA.mk hs12

theorem applyTruncate_good {s₀ s} {a0 a1 a2} (h : Good s₀ s) : GoodA s₀ (applyTruncate s a0 a1 a2) := by
  unfold applyTruncate
  extract_lets +onlyGivenNames s0 s1 s2
  refine GoodA.ite (refused__good h) ?_
  refine GoodA.ite (refused__good h) ?_
  extract_lets +onlyGivenNames s9 s10
  refine GoodA.mk ?_
  refine State.updSess_good ?_
  refine Good.foldl ?_ h
  intro s14 x14_1 h14_2
  obtain ⟨y15, zy15⟩ := x14_1
  dsimp -zeta -zetaHave only
  exact State.releasePage_good h14_2

theorem applyMigrate_good {s₀ s} {a0 a1 a2 a3} (h : Good s₀ s) : GoodAL s₀ (applyMigrate s a0 a1 a2 a3) := by
  unfold applyMigrate
  extract_lets +onlyGivenNames s0 s1
  refine GoodAL.ite (GoodAL.mk (refused__good h)) ?_
  refine GoodAL.ite (GoodAL.mk (refused__good h)) ?_
  extract_lets +onlyGivenNames s10 s11
  have hs11 : Good s₀ s11 := State.sendVc3_good (State.updSess_good h)
  clear_value s11
  exact GoodAL.mk (GoodA.mk hs11)

theorem applyCtl_good {s₀ s} {a0 a1 a2 a3} (h : Good s₀ s) : GoodAL s₀ (applyCtl s a0 a1 a2 a3) := by
  unfold applyCtl
  extract_lets +onlyGivenNames s0 s1 s2 s3
  split
  · exact GoodAL.mk (applyOpen_good h)
  · refine GoodAL.ite (GoodAL.mk (refused__good h)) ?_
    subst s3
    dsimp -zeta -zetaHave only
    exact GoodAL.mk (GoodA.mk (State.copySampling_good h))
  · refine GoodAL.ite (GoodAL.mk (refused__good h)) ?_
    subst s3
    dsimp -zeta -zetaHave only
    exact GoodAL.mk (GoodA.mk (State.updSess_good h))
  · refine GoodAL.ite (GoodAL.mk (refused__good h)) ?_
    subst s3
    dsimp -zeta -zetaHave only
    exact GoodAL.mk (GoodA.mk (State.updSess_good (State.dropFeeds_good h)))
  · refine GoodAL.ite (GoodAL.mk (refused__good h)) ?_
    subst s3
    dsimp -zeta -zetaHave only
    exact GoodAL.mk (GoodA.mk (State.closeSess_good h))
  · exact applyPark_good h
  · exact applyUnpark_good h
  · exact GoodAL.mk (applyTruncate_good h)
  · exact applyMigrate_good h

theorem applyAlloc_good {s₀ s} {a0 a1 a2} (h : Good s₀ s) : GoodA s₀ (applyAlloc s a0 a1 a2) := by
  unfold applyAlloc
  extract_lets +onlyGivenNames s0 s1
  refine GoodA.ite (refused__good h) ?_
  refine GoodA.ite (refused__good h) ?_
  extract_lets +onlyGivenNames s8 s9
  split
  · exact GoodA.mk (GoodEL.eq (by assumption) (State.allocRange_good h))
  · exact refused__good h

theorem setLen_good {s₀ s} {a0} (h : Good s₀ s) : Good s₀ (setLen s a0) := by
  unfold setLen
  exact Good.ite (State.updSess_good h) h

theorem applyCopy_good {s₀ s} {a0 a1 a2} (h : Good s₀ s) : GoodA s₀ (applyCopy s a0 a1 a2) := by
  unfold applyCopy
  split
  · exact h
  · extract_lets +onlyGivenNames r
    have hr : GoodO s₀ r := by
      refine foldl_inv (Q := GoodO s₀) (fun o x ho => ?_) (GoodO.some h)
      cases o with
      | none => exact GoodO.none
      | some s =>
        have hs := ho s rfl
        dsimp only [Option.bind]
        split
        · exact GoodO.none
        · rename_i he
          exact State.install_good (State.copyBytes_good (GoodOR.eq he (State.allocPage_good hs)))
    clear_value r
    split
    · exact setLen_good (hr _ rfl)
    · exact h

theorem applyShare_good {s₀ s} {a0 a1 a2} (h : Good s₀ s) : GoodA s₀ (applyShare s a0 a1 a2) := by
  unfold applyShare
  split
  · exact GoodA.mk h
  · extract_lets +onlyGivenNames s3
    have hs3 : Good s₀ s3 := by
      subst s3
      refine Good.foldl ?_ h
      intro s11 x11_1 h11_2
      obtain ⟨y12, zy12⟩ := x11_1
      dsimp -zeta -zetaHave only
      exact GoodO.getD (State.install_good (State.sharePage_good h11_2)) h11_2
    clear_value s3
    exact GoodA.mk (setLen_good hs3)

theorem applyLarder_good {s₀ s} {a0 a1 a2 a3} (h : Good s₀ s) : GoodAL s₀ (applyLarder s a0 a1 a2 a3) := by
  unfold applyLarder
  refine GoodAL.ite (GoodAL.mk (refused__good h)) ?_
  refine GoodAL.ite (GoodAL.mk (refused__good h)) ?_
  split
  · exact GoodAL.mk (applyAlloc_good h)
  · exact GoodAL.mk (applyFree_good h)
  · exact GoodAL.mk (applyShare_good h)
  · exact GoodAL.mk (applyCopy_good h)
  · exact applyFeed_good h
  · exact applyCtl_good h

theorem State.mirWrite_good {s₀ s} {a0 a1 a2 a3} (h : Good s₀ s) : Good s₀ (State.mirWrite s a0 a1 a2 a3) := by
  unfold State.mirWrite
  refine Good.ite (State.taWrite_good h) ?_
  extract_lets +onlyGivenNames s3
  exact State.taWrite_good (State.updTwin_good h)

theorem State.updLadle_good {s₀ s} {a0 a1} (h : Good s₀ s) : Good s₀ (State.updLadle s a0 a1) := by
  unfold State.updLadle
  exact Good.set h

theorem State.applyMirror_good {s₀ s} {a0 a1} (h : Good s₀ s) : Good s₀ (State.applyMirror s a0 a1) := by
  unfold State.applyMirror
  split
  · exact h
  · split
    · exact GoodAL.out (applyLarder_good h)
    · generalize he6 : State.resolveAppends _ _ _ _ = e6
      obtain ⟨se6, xe6⟩ := e6
      have hse6 : Good s₀ se6 := (GoodL.eq he6 (State.resolveAppends_good h))
      clear he6
      dsimp -zeta -zetaHave only
      refine Good.foldl ?_ hse6
      intro s12 x12_1 h12_2
      exact State.endCopy_good h12_2
    · exact State.setSess_good h
    · exact State.mirWrite_good h
    · exact State.setPool_good h
    · extract_lets +onlyGivenNames s24
      exact Good.set h
    · exact Good.set h
    · extract_lets +onlyGivenNames s29
      have hs29 : Good s₀ s29 := Good.ite (State.setFld_good (State.setFld_good h)) h
      clear_value s29
      extract_lets +onlyGivenNames s32
      have hs32 : Good s₀ s32 := State.updTwin_good (State.setFlag_good hs29)
      clear_value s32
      extract_lets +onlyGivenNames s35
      have hs35 : Good s₀ s35 := by
        subst s35
        refine Good.foldl ?_ hs32
        intro s50 x50_1 h50_2
        exact State.updRing_good h50_2
      clear_value s35
      extract_lets +onlyGivenNames s38 s39
      have hs39 : Good s₀ s39 := State.updLadle_good (State.setPool_good hs35)
      clear_value s39
      exact Good.set hs39
    · exact State.updTwin_good h

theorem State.mirror_good {s₀ s} {a0 a1} (h : Good s₀ s) : Good s₀ (State.mirror s a0 a1) := by
  unfold State.mirror
  exact Good.ite (State.sendTwin_good h) h

theorem State.resetMigrates_good {s₀ s} {a0} (h : Good s₀ s) : Good s₀ (State.resetMigrates s a0) := by
  unfold State.resetMigrates
  split
  · exact h
  · refine Good.foldl ?_ h
    intro s3 x3_1 h3_2
    obtain ⟨y4, zy4⟩ := x3_1
    dsimp -zeta -zetaHave only
    split
    · exact Good.ite (State.sendVc3_good h3_2) (Good.ite (State.sendVc3_good h3_2) h3_2)
    · exact h3_2

theorem State.askedMigrate_good {s₀ s} {a0 a1 a2 a3} (h : Good s₀ s) : Good s₀ (State.askedMigrate s a0 a1 a2 a3) := by
  unfold State.askedMigrate
  extract_lets +onlyGivenNames no
  have hno : Good s₀ no := State.sendVc3_good h
  clear_value no
  split
  · exact hno
  refine Good.ite hno ?_
  extract_lets +onlyGivenNames r
  have hr : GoodEL s₀ r := by
    refine foldl_inv (Q := fun e : Except Nat (State × List (Nat × Nat)) => GoodEL s₀ e) (fun o x ho => ?_) (GoodEL.ok h)
    cases o with
    | error e => exact GoodEL.error
    | ok z =>
      have hs := ho z rfl
      dsimp only [Except.bind, bind]
      generalize hg : State.growBy _ _ _ _ _ _ = g
      cases g with
      | error e => exact GoodEL.error
      | ok y => exact GoodEL.ok (State.growBy_good hs y hg)
  clear_value r
  split
  · exact hno
  · exact State.sendVc3_good (Good.set (State.updSess_good (Good.foldl (fun s x h => State.taWrite_good h) (hr _ rfl))))

theorem State.backToMark_good {s₀ s} {a0} (h : Good s₀ s) : Good s₀ (State.backToMark s a0) := by
  unfold State.backToMark
  split
  · extract_lets +onlyGivenNames s1
    have h1 : Good s₀ s1 := Good.foldl (fun s x h => State.taWrite_good h) h
    clear_value s1
    extract_lets +onlyGivenNames src s2
    have h2 : Good s₀ s2 := Good.set h1
    clear_value s2
    extract_lets +onlyGivenNames s3 s4 s5
    have h4 : Good s₀ s4 := State.taZero_good (State.setPool_good h2)
    have h5 : Good s₀ s5 := h4.mems id (fun h => nwf_foldl_nset _ _ _ h) id id rfl rfl rfl rfl
    clear_value s5
    exact Good.foldl (fun s x h => h.mems id id (nwf_nset _ _) id rfl rfl rfl rfl) (State.updTwin_good h5)
  · exact h

theorem State.dropMigrate_good {s₀ s} {a0 a1} (h : Good s₀ s) : Good s₀ (State.dropMigrate s a0 a1) := by
  unfold State.dropMigrate
  split
  · refine Good.ite h ?_
    extract_lets +onlyGivenNames s3
    have hs3 : Good s₀ s3 := State.closeSess_good h
    clear_value s3
    exact Good.set hs3
  · exact h

theorem State.mirrorSess_good {s₀ s} {a0 a1} (h : Good s₀ s) : Good s₀ (State.mirrorSess s a0 a1) := by
  unfold State.mirrorSess
  split
  · exact h
  · refine Good.ite h ?_
    extract_lets +onlyGivenNames s4 s5
    have hs5 : Good s₀ s5 := State.mirror_good (State.mirror_good h)
    clear_value s5
    extract_lets +onlyGivenNames s8
    have hs8 : Good s₀ s8 := by
      subst s8
      subst s4
      dsimp -zeta -zetaHave only
      split
      · exact State.mirror_good hs5
      · exact hs5
    clear_value s8
    extract_lets +onlyGivenNames s11
    have hs11 : Good s₀ s11 := by
      subst s11
      refine Good.foldl ?_ hs8
      intro s27 x27_1 h27_2
      split
      · subst s4
        dsimp -zeta -zetaHave only
        split
        · exact State.mirror_good h27_2
        · exact h27_2
      · exact h27_2
    clear_value s11
    refine Good.foldl ?_ hs11
    intro s15 x15_1 h15_2
    obtain ⟨y16, zy16⟩ := x15_1
    dsimp -zeta -zetaHave only
    subst s4
    dsimp -zeta -zetaHave only
    split
    · exact State.mirror_good h15_2
    · exact h15_2

theorem State.endJob_good {s₀ s} {a0 a1 a2 a3} (h : Good s₀ s) : Good s₀ (State.endJob s a0 a1 a2 a3) := by
  unfold State.endJob
  exact State.mirrorSess_good (State.endWork_good (State.updCmd_good h))

theorem State.failMigrate_good {s₀ s} {a0 a1 a2} (h : Good s₀ s) : Good s₀ (State.failMigrate s a0 a1 a2) := by
  unfold State.failMigrate
  extract_lets +onlyGivenNames s0
  have hs0 : Good s₀ s0 := State.sendVc3_good (State.updSess_good h)
  clear_value s0
  exact State.endJob_good hs0

theorem State.endMigrations_good {s₀ s} (h : Good s₀ s) : Good s₀ (State.endMigrations s) := by
  unfold State.endMigrations
  refine Good.foldl ?_ h
  intro s1 x1_1 h1_2
  split
  · exact h1_2
  · refine Good.foldl ?_ h1_2
    intro s5 x5_1 h5_2
    obtain ⟨y6, zy6⟩ := x5_1
    dsimp -zeta -zetaHave only
    split
    · exact Good.ite (State.failMigrate_good h5_2) (State.dropMigrate_good h5_2)
    · exact h5_2

theorem State.larderApply_good {s₀ s} {a0 a1 a2 a3} (h : Good s₀ s) : Good s₀ (State.larderApply s a0 a1 a2 a3) := by
  unfold State.larderApply
  extract_lets +onlyGivenNames s0 s1
  have hs1 : Good s₀ s1 := Good.set h
  clear_value s1
  extract_lets +onlyGivenNames s4
  have hs4 : Good s₀ s4 := Good.ite (State.begin__good hs1) hs1
  clear_value s4
  generalize he7 : applyLarder _ _ _ _ _ = e7
  obtain ⟨ae7, xe7⟩ := e7
  refine (fun (hae7 : GoodA s₀ ae7) => ?_) (GoodAL.eq he7 (applyLarder_good hs4))
  clear he7
  dsimp -zeta -zetaHave only
  extract_lets +onlyGivenNames s12
  have hs12 : Good s₀ s12 := by
    subst s12
    refine Good.foldl ?_ (GoodA.out hae7)
    intro s37 x37_1 h37_2
    exact State.touch_good h37_2
  clear_value s12
  extract_lets +onlyGivenNames s15 s16
  have hs16 : Good s₀ s16 := State.mirror_good hs12
  clear_value s16
  extract_lets +onlyGivenNames s19
  have hs19 : Good s₀ s19 := Good.ite (State.updTwin_good hs16) hs16
  clear_value s19
  exact Good.ite (State.endWork_good (State.updCmd_good hs19)) hs19

theorem State.unparkSlice_good {s₀ s} {a0 a1 a2 a3 a4} (h : Good s₀ s) : Good s₀ (State.unparkSlice s a0 a1 a2 a3 a4) := by
  unfold State.unparkSlice
  refine GoodL.out ?_
  refine GoodL.foldl ?_ (GoodL.mk h)
  intro s2 x2_1 x2_2 h2_3
  obtain ⟨y3, zy3⟩ := x2_2
  dsimp -zeta -zetaHave only
  extract_lets +onlyGivenNames s5 s6 s7 s8 s9
  exact GoodL.mk (Good.ite h2_3 (State.taWrite_good h2_3))

theorem State.jobAtom_good {s₀ s} {a0 a1 a2} (h : Good s₀ s) : Good s₀ (State.jobAtom s a0 a1 a2) := by
  unfold State.jobAtom
  split
  · extract_lets +onlyGivenNames s1
    extract_lets +onlyGivenNames s2 s3 s4 s5
    split
    · refine Good.ite ?_ ?_
      · subst s5
        dsimp -zeta -zetaHave only
        exact State.endJob_good (State.updSess_good h)
      · extract_lets +onlyGivenNames s13
        have hs13 : Good s₀ s13 := by
          subst s13
          subst s4
          dsimp -zeta -zetaHave only
          exact State.updSess_good (State.send_good h)
        clear_value s13
        refine Good.ite hs13 ?_
        extract_lets +onlyGivenNames s18 s19
        have hs19 : Good s₀ s19 := by
          subst s19
          refine Good.foldl ?_ hs13
          intro s27 x27_1 h27_2
          obtain ⟨y28, zy28⟩ := x27_1
          dsimp -zeta -zetaHave only
          exact State.releasePage_good h27_2
        clear_value s19
        exact State.endJob_good (State.updSess_good hs19)
    · split
      · subst s5
        dsimp -zeta -zetaHave only
        exact State.endJob_good (State.updSess_good h)
      · extract_lets +onlyGivenNames s45
        have hs45 : Good s₀ s45 := by
          subst s45
          subst s4
          dsimp -zeta -zetaHave only
          exact State.updSess_good (State.unparkSlice_good h)
        clear_value s45
        exact Good.ite hs45 (State.endJob_good (State.updSess_good hs45))
    · refine Good.ite h ?_
      refine Good.ite (State.failMigrate_good h) ?_
      extract_lets +onlyGivenNames s64
      have hs64 : Good s₀ s64 := by
        subst s64
        subst s4
        dsimp -zeta -zetaHave only
        exact State.updSess_good (State.sendVc3_good h)
      clear_value s64
      exact Good.ite (State.updSess_good hs64) hs64
    · exact h
  · exact h

theorem State.larderAct_good {s₀ s} {a0 a1 a2} (h : Good s₀ s) : Good s₀ (State.larderAct s a0 a1 a2) := by
  unfold State.larderAct
  split
  · exact h
  · refine Good.ite h ?_
    refine Good.ite ?_ (State.larderApply_good h)
    extract_lets +onlyGivenNames s5
    have hs5 : Good s₀ s5 := State.begin__good h
    clear_value s5
    exact Good.set hs5

theorem State.larderStep_good {s₀ s} {a0 a1 a2 a3} (h : Good s₀ s) : Good s₀ (State.larderStep s a0 a1 a2 a3) := by
  unfold State.larderStep
  split
  · exact h
  · refine Good.ite h ?_
    refine State.dispatch_good ?_ h
    intro s5 x5_1 h5_2
    exact GoodO.some (State.larderAct_good h5_2)

theorem State.larderRetry_good {s₀ s} {a0 a1} (h : Good s₀ s) : Good s₀ (State.larderRetry s a0 a1) := by
  unfold State.larderRetry
  split
  · exact Good.ite h (State.larderApply_good h)
  · exact h

theorem State.larderBoundary_good {s₀ s} {a0} (h : Good s₀ s) : Good s₀ (State.larderBoundary s a0) := by
  unfold State.larderBoundary
  extract_lets +onlyGivenNames s0 s1
  have hs1 : Good s₀ s1 := by
    subst s1
    refine Good.foldl ?_ h
    intro s31 x31_1 h31_2
    exact State.larderRetry_good h31_2
  clear_value s1
  extract_lets +onlyGivenNames s4
  have hs4 : Good s₀ s4 := by
    subst s4
    refine Good.foldl ?_ hs1
    intro s14 x14_1 h14_2
    refine Good.foldl ?_ h14_2
    intro s16 x16_1 h16_2
    split
    · subst s0
      dsimp -zeta -zetaHave only
      split
      · exact Good.ite (State.larderStep_good h16_2) h16_2
      · exact h16_2
    · exact h16_2
  clear_value s4
  refine Good.foldl ?_ hs4
  intro s8 x8_1 h8_2
  exact State.updRing_good h8_2

theorem State.migrateReady_good {s₀ s} {a0 a1} (h : Good s₀ s) : Good s₀ (State.migrateReady s a0 a1) := by
  unfold State.migrateReady
  split
  · exact Good.ite (State.updSess_good h) h
  · exact h

theorem State.migrated_good {s₀ s} {a0 a1 a2} (h : Good s₀ s) : Good s₀ (State.migrated s a0 a1 a2) := by
  unfold State.migrated
  split
  · refine Good.ite h ?_
    refine Good.ite ?_ (State.endJob_good (State.updSess_good h))
    refine Good.ite h ?_
    extract_lets +onlyGivenNames s6
    have hs6 : Good s₀ s6 := State.updSess_good h
    clear_value s6
    exact State.endJob_good (State.closeSess_good hs6)
  · exact h

theorem State.takeMigrate_good {s₀ s} {a0 a1 a2 a3} (h : Good s₀ s) : Good s₀ (State.takeMigrate s a0 a1 a2 a3) := by
  unfold State.takeMigrate
  split
  · refine Good.ite h ?_
    extract_lets +onlyGivenNames s3
    have hs3 : Good s₀ s3 := by
      subst s3
      refine Good.foldl ?_ h
      intro s28 x28_1 h28_2
      obtain ⟨y29, zy29⟩ := x28_1
      dsimp -zeta -zetaHave only
      split
      · exact State.taWrite_good h28_2
      · exact h28_2
    clear_value s3
    extract_lets +onlyGivenNames s6
    have hs6 : Good s₀ s6 := State.updSess_good hs3
    clear_value s6
    refine Good.ite hs6 ?_
    split
    · exact hs6
    · extract_lets +onlyGivenNames s13
      extract_lets +onlyGivenNames s14
      have hs14 : Good s₀ s14 := Good.set hs6
      clear_value s14
      exact State.sendVc3_good (State.setSess_good hs14)
  · exact h

theorem execSetSampling_good {s₀ s} {a0 a1} (h : Good s₀ s) : GoodOut s₀ (execSetSampling a0 a1 s) := by
  unfold execSetSampling
  exact GoodOut.next (State.larderStep_good h)

theorem execSetStop_good {s₀ s} {a0 a1} (h : Good s₀ s) : GoodOut s₀ (execSetStop a0 a1 s) := by
  unfold execSetStop
  exact GoodOut.next (State.larderStep_good h)

theorem execSessionTruncate_good {s₀ s} {a0 a1} (h : Good s₀ s) : GoodOut s₀ (execSessionTruncate a0 a1 s) := by
  unfold execSessionTruncate
  exact GoodOut.next (State.larderStep_good h)

theorem execMigrateConfirm_good {s₀ s} {a0 a1 a2} (h : Good s₀ s) : GoodOut s₀ (execMigrateConfirm a0 a1 a2 s) := by
  unfold execMigrateConfirm
  exact GoodOut.next (State.migrated_good h)

theorem execSessionFeed_good {s₀ s} {a0 a1} (h : Good s₀ s) : GoodOut s₀ (execSessionFeed a0 a1 s) := by
  unfold execSessionFeed
  exact GoodOut.next (State.larderStep_good h)

theorem execPageAlloc_good {s₀ s} {a0 a1} (h : Good s₀ s) : GoodOut s₀ (execPageAlloc a0 a1 s) := by
  unfold execPageAlloc
  exact GoodOut.next (State.larderStep_good h)

theorem execSessionPark_good {s₀ s} {a0 a1} (h : Good s₀ s) : GoodOut s₀ (execSessionPark a0 a1 s) := by
  unfold execSessionPark
  exact GoodOut.next (State.larderStep_good h)

theorem execSessionMigrate_good {s₀ s} {a0 a1} (h : Good s₀ s) : GoodOut s₀ (execSessionMigrate a0 a1 s) := by
  unfold execSessionMigrate
  exact GoodOut.next (State.larderStep_good h)

theorem execPageShare_good {s₀ s} {a0 a1} (h : Good s₀ s) : GoodOut s₀ (execPageShare a0 a1 s) := by
  unfold execPageShare
  exact GoodOut.next (State.larderStep_good h)

theorem execMirrorMarkReceive_good {s₀ s} {a0 a1 a2 a3 a4} (h : Good s₀ s) : GoodOut s₀ (execMirrorMarkReceive a0 a1 a2 a3 a4 s) := by
  unfold execMirrorMarkReceive
  exact GoodOut.ite (GoodOut.next h) (GoodOut.next (State.applyMark_good h))

theorem execSessionUnpark_good {s₀ s} {a0 a1} (h : Good s₀ s) : GoodOut s₀ (execSessionUnpark a0 a1 s) := by
  unfold execSessionUnpark
  exact GoodOut.next (State.larderStep_good h)

theorem execMirrorRecordReceive_good {s₀ s} {a0 a1} (h : Good s₀ s) : GoodOut s₀ (execMirrorRecordReceive a0 a1 s) := by
  unfold execMirrorRecordReceive
  exact GoodOut.ite (GoodOut.next h) (GoodOut.next (State.applyMirror_good h))

theorem execPageFree_good {s₀ s} {a0 a1} (h : Good s₀ s) : GoodOut s₀ (execPageFree a0 a1 s) := by
  unfold execPageFree
  exact GoodOut.next (State.larderStep_good h)

theorem execSessionStop_good {s₀ s} {a0 a1} (h : Good s₀ s) : GoodOut s₀ (execSessionStop a0 a1 s) := by
  unfold execSessionStop
  exact GoodOut.next (State.larderStep_good h)

theorem execSessionClose_good {s₀ s} {a0 a1} (h : Good s₀ s) : GoodOut s₀ (execSessionClose a0 a1 s) := by
  unfold execSessionClose
  exact GoodOut.next (State.larderStep_good h)

theorem execSessionOpen_good {s₀ s} {a0 a1} (h : Good s₀ s) : GoodOut s₀ (execSessionOpen a0 a1 s) := by
  unfold execSessionOpen
  exact GoodOut.next (State.larderStep_good h)

theorem execPageCopy_good {s₀ s} {a0 a1} (h : Good s₀ s) : GoodOut s₀ (execPageCopy a0 a1 s) := by
  unfold execPageCopy
  exact GoodOut.next (State.larderStep_good h)

end Sys2Proof.Machine
end

