-- ==== Sys2Proof/Laws/Good/Ladle.lean ====
section
/-!
SUPPORT. Good/Ladle.lean: every operation of Machine/Ladle.lean keeps what `Good` says.
-/

namespace Sys2Proof.Machine

theorem State.stallEntry_good {s₀ s} {a0 a1 a2} (h : Good s₀ s) : Good s₀ (State.stallEntry s a0 a1 a2) := by
  unfold State.stallEntry
  extract_lets +onlyGivenNames s0
  have hs0 : Good s₀ s0 := State.updSess_good (State.bump_good h)
  clear_value s0
  split
  · exact Good.ite hs0 (State.updSess_good hs0)
  · exact hs0

theorem State.coverFeeds_good {s₀ s} {a0 a1 a2 a3} (h : Good s₀ s) : Good s₀ (State.coverFeeds s a0 a1 a2 a3) := by
  induction a2 generalizing s a3
  · exact h
  rename_i fuel ih
  unfold State.coverFeeds
  split
  · exact h
  · refine Good.ite (State.updSess_good h) ?_
    extract_lets +onlyGivenNames s5
    have hs5 : Good s₀ s5 := State.updSess_good h
    clear_value s5
    exact ih (State.endWork_good hs5)

theorem State.applyRetEnt_good {s₀ s} {a0 a1 a2} (h : Good s₀ s) : Good s₀ (State.applyRetEnt s a0 a1 a2) := by
  unfold State.applyRetEnt
  extract_lets +onlyGivenNames s0
  have hs0 : Good s₀ s0 := State.touch_good h
  clear_value s0
  refine Good.ite (State.stallEntry_good hs0) ?_
  extract_lets +onlyGivenNames s6 s7 s8 s9
  have hs9 : Good s₀ s9 := by
    subst s9
    split
    · exact State.updSess_good hs0
    · exact hs0
  clear_value s9
  extract_lets +onlyGivenNames s12 s13
  have hs13 : Good s₀ s13 := Good.ite (State.coverFeeds_good hs9) hs9
  clear_value s13
  extract_lets +onlyGivenNames s16
  have hs16 : Good s₀ s16 := Good.ite (State.updSess_good (Good.ite (State.dropFeeds_good hs13) hs13)) (Good.ite (State.updSess_good hs13) hs13)
  clear_value s16
  exact State.updSess_good hs16

theorem State.applyRet_good {s₀ s} {a0 a1} (h : Good s₀ s) : Good s₀ (State.applyRet s a0 a1) := by
  unfold State.applyRet
  extract_lets +onlyGivenNames s0 s1
  have hs1 : Good s₀ s1 := by
    subst s1
    refine Good.foldl ?_ h
    intro s8 x8_1 h8_2
    extract_lets +onlyGivenNames s9
    exact State.mirror_good (State.applyRetEnt_good h8_2)
  clear_value s1
  exact State.updLadle_good hs1

theorem State.applyRets_good {s₀ s} {a0 a1 a2} (h : Good s₀ s) : GoodL s₀ (State.applyRets s a0 a1 a2) := by
  induction a1 generalizing s a2
  · exact h
  rename_i fuel ih
  unfold State.applyRets
  split
  · exact GoodL.mk h
  · extract_lets +onlyGivenNames s3
    have hs3 : Good s₀ s3 := State.updLadle_good h
    clear_value s3
    exact ih (State.applyRet_good hs3)

theorem State.reserve_good {s₀ s} {a0 a1} (h : Good s₀ s) : GoodL s₀ (State.reserve s a0 a1) := by
  unfold State.reserve
  refine GoodL.foldl ?_ (GoodL.mk h)
  intro s1 x1_1 x1_2 h1_3
  dsimp -zeta -zetaHave only
  extract_lets +onlyGivenNames s3 s4
  exact GoodL.mk (Good.ite h1_3 (State.bump_good h1_3))

theorem State.resolveAll_good {s₀ s} {a0 a1} (h : Good s₀ s) : GoodL s₀ (State.resolveAll s a0 a1) := by
  unfold State.resolveAll
  refine GoodL.foldl ?_ (GoodL.mk h)
  intro s1 x1_1 x1_2 h1_3
  dsimp -zeta -zetaHave only
  generalize he3 : State.resolveAppends _ _ _ _ = e3
  obtain ⟨se3, xe3⟩ := e3
  have hse3 : Good s₀ se3 := (GoodL.eq he3 (State.resolveAppends_good h1_3))
  clear he3
  split
  · exact GoodL.mk (State.mirror_good (State.touch_good (GoodL.eq (by assumption) (GoodL.mk hse3))))
  · exact GoodL.mk (GoodL.eq (by assumption) (GoodL.mk hse3))

theorem State.sendPair_good {s₀ s} {a0 a1 a2 a3} (h : Good s₀ s) : Good s₀ (State.sendPair s a0 a1 a2 a3) := by
  unfold State.sendPair
  extract_lets +onlyGivenNames s0
  split
  · exact h
  · extract_lets +onlyGivenNames s3
    exact GoodO.getD (State.sendPacket_good h) h

theorem State.writeLocal_good {s₀ s} {a0 a1 a2} (h : Good s₀ s) : Good s₀ (State.writeLocal s a0 a1 a2) := by
  unfold State.writeLocal
  split
  · exact h
  · extract_lets +onlyGivenNames s2
    extract_lets +onlyGivenNames s3
    have hs3 : Good s₀ s3 := State.taZero_good (State.taZero_good h)
    clear_value s3
    extract_lets +onlyGivenNames s6 s7 s8
    have hs8 : Good s₀ s8 := State.taWrite_good (State.taWrite_good (State.taWrite_good hs3))
    clear_value s8
    extract_lets +onlyGivenNames s11
    have hs11 : Good s₀ s11 := State.taWrite_good hs8
    clear_value s11
    exact Good.ite (State.taWrite_good hs11) hs11

theorem State.runBatch_good {s₀ s} {a0 a1 a2} (h : Good s₀ s) : Good s₀ (State.runBatch s a0 a1 a2) := by
  unfold State.runBatch
  extract_lets +onlyGivenNames recipe s1
  have h1 : Good s₀ s1 := State.writeLocal_good h
  clear_value s1
  extract_lets +onlyGivenNames snap
  have hsnap : GoodOL s₀ snap := GoodOL.ite (State.snapshot_good h1) GoodOL.none
  clear_value snap
  rcases snap with _ | ⟨s2, v, dig⟩
  rotate_left
  have h2 : Good s₀ s2 := hsnap _ rfl
  rotate_left
  all_goals dsimp -zeta -zetaHave only
  · extract_lets +onlyGivenNames s0
    extract_lets +onlyGivenNames s1
    have hs1 : Good s₀ s1 := Good.ite (GoodR.out (State.fresh_good (State.raise_good h1))) (State.raise_good h1)
    clear_value s1
    extract_lets +onlyGivenNames s4 s5
    have hs5 : Good s₀ s5 := State.setFld_good (State.setQuad_good hs1)
    clear_value s5
    extract_lets +onlyGivenNames s8
    have hs8 : Good s₀ s8 := State.updLadle_good hs5
    clear_value s8
    extract_lets +onlyGivenNames s11 s12
    have hs12 : Good s₀ s12 := State.event_good hs8
    clear_value s12
    refine Good.ite (Good.ite (State.sendPair_good hs12) (State.updLadle_good hs12)) ?_
    refine Good.ite ?_ hs12
    extract_lets +onlyGivenNames s22 s23
    have hs23 : Good s₀ s23 := State.updLadle_good hs12
    clear_value s23
    refine Good.ite ?_ hs23
    refine Good.foldl ?_ hs23
    intro s28 x28_1 h28_2
    exact Good.ite h28_2 (State.sendPair_good h28_2)
  · extract_lets +onlyGivenNames s57
    extract_lets +onlyGivenNames s58
    have hs58 : Good s₀ s58 := Good.ite (GoodR.out (State.fresh_good (State.logToken_good h2))) (State.logToken_good h2)
    clear_value s58
    extract_lets +onlyGivenNames s61 s62
    have hs62 : Good s₀ s62 := State.setFld_good (State.setQuad_good hs58)
    clear_value s62
    extract_lets +onlyGivenNames s65
    have hs65 : Good s₀ s65 := State.updLadle_good hs62
    clear_value s65
    extract_lets +onlyGivenNames s68 s69
    have hs69 : Good s₀ s69 := State.event_good hs65
    clear_value s69
    refine Good.ite (Good.ite (State.sendPair_good hs69) (State.updLadle_good hs69)) ?_
    refine Good.ite ?_ hs69
    extract_lets +onlyGivenNames s79 s80
    have hs80 : Good s₀ s80 := State.updLadle_good hs69
    clear_value s80
    refine Good.ite ?_ hs80
    refine Good.foldl ?_ hs80
    intro s85 x85_1 h85_2
    exact Good.ite h85_2 (State.sendPair_good h85_2)

theorem State.carryList_good {s₀ s} {a0 a1} (h : Good s₀ s) : GoodL s₀ (State.carryList s a0 a1) := by
  unfold State.carryList
  extract_lets +onlyGivenNames s0 s1
  split
  extract_lets +onlyGivenNames s3
  split
  extract_lets +onlyGivenNames s5 s6
  have hs6 : Good s₀ s6 := by
    subst s6
    refine Good.foldl ?_ (GoodL.eq (by assumption) (GoodL.ite (State.resolveAll_good (GoodL.eq (by assumption) (GoodL.ite (State.reserve_good h) (GoodL.mk h)))) (GoodL.mk (GoodL.eq (by assumption) (GoodL.ite (State.reserve_good h) (GoodL.mk h))))))
    intro s15 x15_1 h15_2
    exact State.mirror_good h15_2
  clear_value s6
  extract_lets +onlyGivenNames s9
  exact GoodL.mk (State.runBatch_good hs6)

theorem State.reflow_good {s₀ s} {a0 a1} (h : Good s₀ s) : Good s₀ (State.reflow s a0 a1) := by
  unfold State.reflow
  extract_lets +onlyGivenNames s0 s1 s2
  have hs2 : Good s₀ s2 := by
    subst s2
    refine Good.foldl ?_ h
    intro s26 x26_1 h26_2
    refine Good.foldl ?_ h26_2
    intro s28 x28_1 h28_2
    exact State.stallEntry_good h28_2
  clear_value s2
  extract_lets +onlyGivenNames s5
  have hs5 : Good s₀ s5 := by
    subst s5
    refine Good.foldl ?_ hs2
    intro s12 x12_1 h12_2
    split
    · extract_lets +onlyGivenNames s14
      have hs14 : Good s₀ s14 := State.releaseBuf_good h12_2
      clear_value s14
      exact Good.set hs14
    · exact h12_2
  clear_value s5
  exact State.updLadle_good hs5

theorem State.writeSeal_good {s₀ s} {a0 a1 a2} (h : Good s₀ s) : Good s₀ (State.writeSeal s a0 a1 a2) := by
  unfold State.writeSeal
  split
  · exact h
  · generalize he2 : State.fresh _ = e2
    obtain ⟨xe2, se2⟩ := e2
    have hse2 : Good s₀ se2 := (GoodR.eq he2 (State.fresh_good h))
    clear he2
    dsimp -zeta -zetaHave only
    extract_lets +onlyGivenNames s7 s8
    exact State.addQuad_good (State.taWrite_good (GoodR.out (State.fresh_good hse2)))

theorem State.outputRun_good {s₀ s} {a0 a1 a2 a3 a4} (h : Good s₀ s) : Good s₀ (State.outputRun s a0 a1 a2 a3 a4) := by
  unfold State.outputRun
  split
  · exact h
  · extract_lets +onlyGivenNames s2
    extract_lets +onlyGivenNames s3 s4 s5 s6
    have hs6 : Good s₀ s6 := by
      subst s6
      refine Good.foldl ?_ h
      intro s93 x93_1 h93_2
      obtain ⟨y94, zy94⟩ := x93_1
      dsimp -zeta -zetaHave only
      exact State.taWrite_good h93_2
    clear_value s6
    extract_lets +onlyGivenNames s9 s10
    have hs10 : Good s₀ s10 := State.setWord_good hs6
    clear_value s10
    extract_lets +onlyGivenNames s13 s14
    refine Good.ite ?_ ?_
    · extract_lets +onlyGivenNames s16
      have hs16 : Good s₀ s16 := by
        subst s16
        refine Good.foldl ?_ hs10
        intro s29 x29_1 h29_2
        obtain ⟨y30, zy30⟩ := x29_1
        dsimp -zeta -zetaHave only
        exact State.holdAct_good h29_2
      clear_value s16
      subst s14
      dsimp -zeta -zetaHave only
      exact Good.ite (State.sigAct_good (State.holdAct_good hs16)) (State.holdAct_good hs16)
    · extract_lets +onlyGivenNames s35
      extract_lets +onlyGivenNames s36 s37
      refine Good.ite ?_ ?_
      · subst s14
        dsimp -zeta -zetaHave only
        exact Good.ite (State.sigAct_good (State.pushLog_good hs10)) (State.pushLog_good hs10)
      · refine Good.ite ?_ ?_
        · extract_lets +onlyGivenNames s48
          have hs48 : Good s₀ s48 := by
            subst s48
            refine Good.foldl ?_ hs10
            intro s61 x61_1 h61_2
            obtain ⟨y62, zy62⟩ := x61_1
            dsimp -zeta -zetaHave only
            exact State.send_good h61_2
          clear_value s48
          subst s14
          dsimp -zeta -zetaHave only
          exact Good.ite (State.sigAct_good (State.send_good hs48)) (State.send_good hs48)
        · extract_lets +onlyGivenNames s67
          have hs67 : Good s₀ s67 := by
            subst s67
            refine Good.foldl ?_ hs10
            intro s84 x84_1 h84_2
            exact State.pushLog_good h84_2
          clear_value s67
          subst s14
          dsimp -zeta -zetaHave only
          exact Good.ite (State.sigAct_good (State.raise_good (State.setRingState_good (State.pushLog_good hs67)))) (State.raise_good (State.setRingState_good (State.pushLog_good hs67)))

theorem State.finishBatch_good {s₀ s} {a0 a1 a2 a3} (h : Good s₀ s) : Good s₀ (State.finishBatch s a0 a1 a2 a3) := by
  unfold State.finishBatch
  extract_lets +onlyGivenNames s0 s1 s2 s3 s4 s5
  have hs5 : Good s₀ s5 := by
    subst s5
    refine Good.foldl ?_ h
    intro s38 x38_1 h38_2
    extract_lets +onlyGivenNames s39
    exact Good.ite h38_2 (State.outputRun_good h38_2)
  clear_value s5
  extract_lets +onlyGivenNames s8 s9
  have hs9 : Good s₀ s9 := Good.ite hs5 (Good.ite (State.unitOf_good hs5) (State.writeSeal_good hs5))
  clear_value s9
  refine Good.ite ?_ (State.updLadle_good hs9)
  extract_lets +onlyGivenNames s13
  have hs13 : Good s₀ s13 := by
    subst s13
    refine Good.foldl ?_ hs9
    intro s20 x20_1 h20_2
    exact Good.ite h20_2 (State.sendPair_good h20_2)
  clear_value s13
  exact State.applyRet_good hs13

theorem State.markLengths_good {s₀ s} {a0} (h : Good s₀ s) : Good s₀ (State.markLengths s a0) := by
  unfold State.markLengths
  split
  · exact h
  · extract_lets +onlyGivenNames s2
    exact Good.set h

theorem State.ladleTake_good {s₀ s} {a0 a1 a2} (h : Good s₀ s) : Good s₀ (State.ladleTake s a0 a1 a2) := by
  unfold State.ladleTake
  refine Good.ite ?_ ?_
  · extract_lets +onlyGivenNames s1
    have hs1 : Good s₀ s1 := State.setFld_good h
    clear_value s1
    exact State.setFld_good hs1
  · refine Good.ite (Good.ite (State.setFld_good h) h) ?_
    refine Good.ite ?_ (State.setWord_good h)
    extract_lets +onlyGivenNames s15 s16
    exact Good.ite (State.setFld_good (State.setFld_good h)) h

theorem State.ladleWrites_good {s₀ s} {a0} (h : Good s₀ s) : Good s₀ (State.ladleWrites s a0) := by
  unfold State.ladleWrites
  refine State.updLadle_good ?_
  refine Good.foldl ?_ h
  intro s2 x2_1 h2_2
  obtain ⟨y3, zy3⟩ := x2_1
  dsimp -zeta -zetaHave only
  exact State.ladleTake_good h2_2

theorem State.ladleSettle_good {s₀ s} {a0} (h : Good s₀ s) : Good s₀ (State.ladleSettle s a0) := by
  unfold State.ladleSettle
  extract_lets +onlyGivenNames s0
  have hs0 : Good s₀ s0 := State.ladleWrites_good h
  clear_value s0
  split
  · exact State.reflow_good hs0
  · exact hs0

theorem State.takeChunk_good {s₀ s} {a0 a1 a2} (h : Good s₀ s) : GoodR s₀ (State.takeChunk s a0 a1 a2) := by
  unfold State.takeChunk
  extract_lets +onlyGivenNames s0
  split
  · exact GoodR.mk h
  · extract_lets +onlyGivenNames s4
    extract_lets +onlyGivenNames s5 s6 s7 s8
    exact GoodR.mk (State.setSess_good h)

theorem State.ladleSelect_good {s₀ s} {a0} (h : Good s₀ s) : GoodL s₀ (State.ladleSelect s a0) := by
  unfold State.ladleSelect
  split
  · exact GoodL.mk h
  · extract_lets +onlyGivenNames s3
    refine GoodL.ite (GoodL.mk (State.bump_good h)) ?_
    extract_lets +onlyGivenNames s8 s9 s10 s11 s12 s13 s14 s15 s16 s17
    refine GoodL.ite (GoodL.mk h) ?_
    refine GoodL.ite (GoodL.mk (State.bump_good h)) ?_
    extract_lets +onlyGivenNames s25
    exact GoodL.mk h

theorem State.formBatch_good {s₀ s} {a0} (h : Good s₀ s) : GoodL s₀ (State.formBatch s a0) := by
  unfold State.formBatch
  generalize he0 : State.ladleSelect _ _ = e0
  obtain ⟨se0, xe0⟩ := e0
  have hse0 : Good s₀ se0 := (GoodL.eq he0 (State.ladleSelect_good h))
  clear he0
  dsimp -zeta -zetaHave only
  extract_lets +onlyGivenNames s5 s6 s7 s8 s9 s10 s11
  refine GoodL.ite (GoodL.mk (GoodL.out (GoodL.ite (State.resolveAll_good (GoodL.out (GoodL.ite (State.reserve_good hse0) (GoodL.mk hse0)))) (GoodL.mk (GoodL.out (GoodL.ite (State.reserve_good hse0) (GoodL.mk hse0))))))) ?_
  extract_lets +onlyGivenNames s30 s31 s32 s33
  have hs33 : Good s₀ s33 := by
    subst s33
    refine State.updLadle_good ?_
    refine GoodL.out ?_
    refine GoodL.foldl ?_ (GoodL.mk (GoodL.out (GoodL.ite (State.resolveAll_good (GoodL.out (GoodL.ite (State.reserve_good hse0) (GoodL.mk hse0)))) (GoodL.mk (GoodL.out (GoodL.ite (State.reserve_good hse0) (GoodL.mk hse0)))))))
    intro s52 x52_1 x52_2 h52_3
    extract_lets +onlyGivenNames s53
    exact GoodL.mk (State.touch_good (State.updSess_good (GoodR.out (GoodR.ite (State.takeChunk_good h52_3) (GoodR.mk h52_3)))))
  clear_value s33
  extract_lets +onlyGivenNames s36
  have hs36 : Good s₀ s36 := by
    subst s36
    refine Good.foldl ?_ hs33
    intro s44 x44_1 h44_2
    exact State.mirror_good h44_2
  clear_value s36
  exact GoodL.mk (State.runBatch_good hs36)

theorem State.noteReady_good {s₀ s} {a0} (h : Good s₀ s) : Good s₀ (State.noteReady s a0) := by
  unfold State.noteReady
  split
  · exact h
  · extract_lets +onlyGivenNames s2
    exact Good.set h

theorem State.takeList_good {s₀ s} {a0} (h : Good s₀ s) : GoodL s₀ (State.takeList s a0) := by
  unfold State.takeList
  extract_lets +onlyGivenNames s0
  split
  · exact GoodL.mk h
  · extract_lets +onlyGivenNames s4
    have hs4 : Good s₀ s4 := State.updLadle_good h
    clear_value s4
    exact State.carryList_good (State.sendPair_good hs4)

theorem State.ladleBatch_good {s₀ s} {a0} (h : Good s₀ s) : GoodL s₀ (State.ladleBatch s a0) := by
  unfold State.ladleBatch
  exact GoodL.ite (GoodL.mk h) (GoodL.ite (State.formBatch_good (State.noteReady_good h)) (State.takeList_good h))

theorem State.ladleStart_good {s₀ s} {a0} (h : Good s₀ s) : GoodL s₀ (State.ladleStart s a0) := by
  unfold State.ladleStart
  extract_lets +onlyGivenNames s0
  have hs0 : Good s₀ s0 := State.larderBoundary_good (State.ladleSettle_good h)
  clear_value s0
  exact GoodL.ite (State.applyRets_good hs0) (GoodL.mk hs0)

theorem State.ladleWrite_good {s₀ s} {a0 a1 a2} (h : Good s₀ s) : Good s₀ (State.ladleWrite s a0 a1 a2) := by
  unfold State.ladleWrite
  extract_lets +onlyGivenNames s0
  have hs0 : Good s₀ s0 := Good.ite (State.setFlag_good h) h
  clear_value s0
  exact Good.ite (State.setFlag_good hs0) (State.updLadle_good hs0)

theorem State.recvRet_good {s₀ s} {a0 a1} (h : Good s₀ s) : Good s₀ (State.recvRet s a0 a1) := by
  unfold State.recvRet
  extract_lets +onlyGivenNames s0
  exact Good.ite (State.updLadle_good h) (State.raise_good h)

theorem State.recvList_good {s₀ s} {a0 a1 a2} (h : Good s₀ s) : Good s₀ (State.recvList s a0 a1 a2) := by
  unfold State.recvList
  extract_lets +onlyGivenNames s0
  refine Good.ite (State.raise_good h) ?_
  extract_lets +onlyGivenNames s4 s5
  have hs5 : Good s₀ s5 := State.taWrite_good (State.taWrite_good h)
  clear_value s5
  extract_lets +onlyGivenNames s8
  have hs8 : Good s₀ s8 := State.taWrite_good hs5
  clear_value s8
  extract_lets +onlyGivenNames s11
  have hs11 : Good s₀ s11 := State.taWrite_good hs8
  clear_value s11
  exact State.updLadle_good hs11

theorem State.recvCredit_good {s₀ s} {a0 a1} (h : Good s₀ s) : Good s₀ (State.recvCredit s a0 a1) := by
  unfold State.recvCredit
  extract_lets +onlyGivenNames s0
  have hs0 : Good s₀ s0 := State.updLadle_good h
  clear_value s0
  extract_lets +onlyGivenNames s3 s4
  have hs4 : Good s₀ s4 := State.updLadle_good hs0
  clear_value s4
  refine Good.foldl ?_ hs4
  intro s8 x8_1 h8_2
  exact State.sendPair_good h8_2

theorem execReturnReceive_good {s₀ s} {a0 a1} (h : Good s₀ s) : GoodOut s₀ (execReturnReceive a0 a1 s) := by
  unfold execReturnReceive
  exact GoodOut.ite (GoodOut.next h) (GoodOut.next (State.recvRet_good h))

theorem execLadleCreditReceive_good {s₀ s} {a0 a1} (h : Good s₀ s) : GoodOut s₀ (execLadleCreditReceive a0 a1 s) := by
  unfold execLadleCreditReceive
  exact GoodOut.ite (GoodOut.next h) (GoodOut.next (State.recvCredit_good h))

theorem execBatchListReceive_good {s₀ s} {a0 a1 a2} (h : Good s₀ s) : GoodOut s₀ (execBatchListReceive a0 a1 a2 s) := by
  unfold execBatchListReceive
  exact GoodOut.ite (GoodOut.next h) (GoodOut.next (State.recvList_good h))

theorem execReflowNoticeReceive_good {s₀ s} {a0 a1} (h : Good s₀ s) : GoodOut s₀ (execReflowNoticeReceive a0 a1 s) := by
  unfold execReflowNoticeReceive
  exact GoodOut.ite (GoodOut.next h) (GoodOut.next (State.updLadle_good h))

theorem execLadleLaunchComplete_good {s₀ s} {a0 a1 a2} (h : Good s₀ s) : GoodOut s₀ (execLadleLaunchComplete a0 a1 a2 s) := by
  unfold execLadleLaunchComplete
  split
  · refine GoodOut.ite (GoodOut.next h) ?_
    extract_lets +onlyGivenNames s4
    have hs4 : Good s₀ s4 := State.releaseBuf_good h
    clear_value s4
    exact GoodOut.next (Good.set hs4)
  · extract_lets +onlyGivenNames s13
    extract_lets +onlyGivenNames s14
    refine GoodOut.ite (GoodOut.next h) ?_
    refine GoodOut.ite (GoodOut.next (State.raise_good h)) ?_
    extract_lets +onlyGivenNames s22
    have hs22 : Good s₀ s22 := State.releaseBuf_good h
    clear_value s22
    extract_lets +onlyGivenNames s25 s26
    have hs26 : Good s₀ s26 := Good.set hs22
    clear_value s26
    extract_lets +onlyGivenNames s29
    have hs29 : Good s₀ s29 := State.updLadle_good hs26
    clear_value s29
    exact GoodOut.next (Good.ite (State.finishBatch_good hs29) hs29)
  · exact GoodOut.next h

theorem execLadleCtlWrite_good {s₀ s} {a0 a1} (h : Good s₀ s) : GoodOut s₀ (execLadleCtlWrite a0 a1 s) := by
  unfold execLadleCtlWrite
  exact GoodOut.ite (GoodOut.next h) (GoodOut.next (State.ladleWrite_good h))

end Sys2Proof.Machine
end

