-- ==== Sys2Proof/Laws/Good/Wear.lean ====
section
/-!
SUPPORT. Good/Wear.lean: every operation of Machine/Wear.lean keeps what `Good` says.
-/

namespace Sys2Proof.Machine

theorem State.appendRec_good {s₀ s} {a0} (h : Good s₀ s) : Good s₀ (State.appendRec s a0) := by
  unfold State.appendRec
  extract_lets +onlyGivenNames s0 s1 s2 s3
  have hs3 : Good s₀ s3 := Good.set h
  clear_value s3
  exact State.event_good (State.modEvent_good hs3)

theorem State.applySwap_good {s₀ s} {a0} (h : Good s₀ s) : Good s₀ (State.applySwap s a0) := by
  unfold State.applySwap
  extract_lets +onlyGivenNames s0 s1 s2
  split
  · exact State.showWidth_good (State.updPtile_good h)
  · exact State.updPtile_good (State.scrubBank_good h)
  · exact State.updPtile_good h
  · extract_lets +onlyGivenNames s12
    have hs12 : Good s₀ s12 := by
      subst s12
      refine Good.foldl ?_ h
      intro s41 x41_1 h41_2
      exact State.scrubBank_good h41_2
    clear_value s12
    extract_lets +onlyGivenNames s15
    have hs15 : Good s₀ s15 := State.showWidth_good (State.updTile_good hs12)
    clear_value s15
    extract_lets +onlyGivenNames s18
    have hs18 : Good s₀ s18 := Good.ite (State.updPtile_good hs15) hs15
    clear_value s18
    extract_lets +onlyGivenNames s21
    have hs21 : Good s₀ s21 := State.zeroRegs_good (State.zeroRegs_good hs18)
    clear_value s21
    exact Good.set hs21
  · extract_lets +onlyGivenNames s45
    have hs45 : Good s₀ s45 := State.updPtile_good h
    clear_value s45
    extract_lets +onlyGivenNames s48
    have hs48 : Good s₀ s48 := State.updTile_good hs45
    clear_value s48
    exact Good.set hs48
  · exact Good.set h
  · exact Good.set h
  · exact State.updPtile_good h
  · exact h

theorem State.vacate_good {s₀ s} (h : Good s₀ s) : Good s₀ (State.vacate s) := by
  unfold State.vacate
  refine Good.foldl ?_ h
  intro s1 x1_1 h1_2
  refine Good.ite ?_ h1_2
  extract_lets +onlyGivenNames s3
  have hs3 : Good s₀ s3 := State.applySwap_good h1_2
  clear_value s3
  exact State.bump_good (Good.set hs3)

theorem State.restartCopies_good {s₀ s} (h : Good s₀ s) : Good s₀ (State.restartCopies s) := by
  unfold State.restartCopies
  exact Good.set h

theorem State.endSwap_good {s₀ s} {a0} (h : Good s₀ s) : Good s₀ (State.endSwap s a0) := by
  unfold State.endSwap
  extract_lets +onlyGivenNames s0
  have hs0 : Good s₀ s0 := State.bump_good (State.applySwap_good h)
  clear_value s0
  exact Good.set hs0

theorem State.pageDue_good {s₀ s} {a0 a1 a2 a3} (h : Good s₀ s) : Good s₀ (State.pageDue s a0 a1 a2 a3) := by
  unfold State.pageDue
  refine Good.ite h ?_
  split
  · exact State.makeDue_good h
  · exact Good.set h

theorem State.phaseOut_good {s₀ s} {a0 a1} (h : Good s₀ s) : Good s₀ (State.phaseOut s a0 a1) := by
  unfold State.phaseOut
  refine Good.ite h ?_
  extract_lets +onlyGivenNames s2 s3
  have hs3 : Good s₀ s3 := Good.set h
  clear_value s3
  exact Good.ite (State.modEvent_good hs3) hs3

theorem State.wearBoundary_good {s₀ s} {a0} (h : Good s₀ s) : Good s₀ (State.wearBoundary s a0) := by
  unfold State.wearBoundary
  extract_lets +onlyGivenNames s0
  have hs0 : Good s₀ s0 := by
    subst s0
    refine Good.foldl ?_ h
    intro s24 x24_1 h24_2
    exact Good.ite h24_2 (State.endSwap_good h24_2)
  clear_value s0
  extract_lets +onlyGivenNames s3 s4 s5
  have hs5 : Good s₀ s5 := Good.set hs0
  clear_value s5
  refine Good.foldl ?_ hs5
  intro s9 x9_1 h9_2
  split
  · exact State.updTile_good h9_2
  · exact State.laneFail_good h9_2
  · exact State.phaseOut_good h9_2
  · exact h9_2

theorem State.unitFails_good {s₀ s} {a0 a1 a2} (h : Good s₀ s) : Good s₀ (State.unitFails s a0 a1 a2) := by
  unfold State.unitFails
  extract_lets +onlyGivenNames s0 s1 s2
  split
  · refine Good.ite h ?_
    subst s2
    dsimp -zeta -zetaHave only
    exact Good.ite h (State.makeDue_good h)
  · exact State.retire_good h
  · extract_lets +onlyGivenNames s14
    refine Good.ite h ?_
    refine Good.ite ?_ ?_
    · subst s2
      dsimp -zeta -zetaHave only
      exact Good.ite h (State.makeDue_good h)
    · extract_lets +onlyGivenNames s24
      refine Good.ite (State.retire_good h) ?_
      extract_lets +onlyGivenNames s28
      exact State.makeDue_good h
  · refine Good.ite h ?_
    refine Good.ite ?_ (Good.ite (State.makeDue_good h) (State.retire_good h))
    subst s2
    dsimp -zeta -zetaHave only
    exact Good.ite h (State.makeDue_good h)
  · refine Good.ite ?_ (State.bankDue_good h)
    subst s2
    dsimp -zeta -zetaHave only
    exact Good.ite h (State.makeDue_good h)

theorem State.tested_good {s₀ s} {a0 a1 a2} (h : Good s₀ s) : Good s₀ (State.tested s a0 a1 a2) := by
  unfold State.tested
  extract_lets +onlyGivenNames s0 s1 s2
  refine Good.ite (Good.set h) ?_
  extract_lets +onlyGivenNames s6 s7
  have hs7 : Good s₀ s7 := Good.set h
  clear_value s7
  exact Good.ite (State.unitFails_good hs7) hs7

theorem State.testAtom_good {s₀ s} {a0 a1 a2} (h : Good s₀ s) : Good s₀ (State.testAtom s a0 a1 a2) := by
  unfold State.testAtom
  extract_lets +onlyGivenNames s0 s1
  have hs1 : Good s₀ s1 := Good.set h
  clear_value s1
  refine Good.foldl ?_ hs1
  intro s5 x5_1 h5_2
  exact Good.ite (State.tested_good h5_2) h5_2

theorem State.swapAtom_good {s₀ s} (h : Good s₀ s) : Good s₀ (State.swapAtom s) := by
  unfold State.swapAtom
  split
  · exact h
  · exact Good.set h

theorem execHbmScrub_good {s₀ s} {a0 a1 a2} (h : Good s₀ s) : GoodOut s₀ (execHbmScrub a0 a1 a2 s) := by
  unfold execHbmScrub
  extract_lets +onlyGivenNames g page key
  refine GoodOut.ite (GoodOut.next h) ?_
  extract_lets +onlyGivenNames old src s1
  have h1 : Good s₀ s1 := Good.set h
  clear_value s1
  extract_lets +onlyGivenNames s2
  have h2 : Good s₀ s2 := Good.ite (h1.mems id id id (rising_pset _) rfl rfl rfl rfl) h1
  clear_value s2
  exact GoodOut.next (Good.ite (State.pageDue_good h2) (Good.ite (State.pageDue_good h2) h2))

theorem execAccessionAppend_good {s₀ s} {a0} (h : Good s₀ s) : GoodOut s₀ (execAccessionAppend a0 s) := by
  unfold execAccessionAppend
  split
  · exact GoodOut.next h
  · extract_lets +onlyGivenNames s3
    have hs3 : Good s₀ s3 := Good.ite (State.setFlag_good h) (Good.ite (State.setFlag_good h) (State.appendRec_good h))
    clear_value s3
    exact GoodOut.ite (GoodOut.next (Good.set hs3)) (GoodOut.next (State.endSwap_good hs3))

theorem execVacancyTimeout_good {s₀ s} {a0} (h : Good s₀ s) : GoodOut s₀ (execVacancyTimeout a0 s) := by
  unfold execVacancyTimeout
  exact GoodOut.ite (GoodOut.next (State.computeFault_good (Good.set h))) (GoodOut.next h)

theorem execPhaseTrip_good {s₀ s} {a0 a1} (h : Good s₀ s) : GoodOut s₀ (execPhaseTrip a0 a1 s) := by
  unfold execPhaseTrip
  refine GoodOut.ite (GoodOut.next h) ?_
  extract_lets +onlyGivenNames s3 s4
  refine GoodOut.next ?_
  extract_lets +onlyGivenNames s6
  have hs6 : Good s₀ s6 := State.phaseOut_good h
  clear_value s6
  exact Good.set hs6

theorem execHbmPageCopyComplete_good {s₀ s} {a0 a1} (h : Good s₀ s) : GoodOut s₀ (execHbmPageCopyComplete a0 a1 s) := by
  unfold execHbmPageCopyComplete
  exact GoodOut.next (Good.set h)

theorem execWearInterval_good {s₀ s} (h : Good s₀ s) : GoodOut s₀ (execWearInterval s) := by
  unfold execWearInterval
  exact GoodOut.next (Good.set h)

end Sys2Proof.Machine
end

