-- ==== Sys2Proof/Laws/Good/Schedule.lean ====
section
/-!
SUPPORT. Good/Schedule.lean: every operation of Machine/Schedule.lean keeps what `Good` says.
-/

namespace Sys2Proof.Machine

theorem State.setOwner_good {s₀ s} {a0 a1} (h : Good s₀ s) : Good s₀ (State.setOwner s a0 a1) := by
  unfold State.setOwner
  exact Good.set h

theorem State.setEntry_good {s₀ s} {a0 a1} (h : Good s₀ s) : Good s₀ (State.setEntry s a0 a1) := by
  unfold State.setEntry
  exact Good.set h

theorem State.closeTile_good {s₀ s} {a0 a1} (h : Good s₀ s) : Good s₀ (State.closeTile s a0 a1) := by
  unfold State.closeTile
  refine Good.ite h ?_
  extract_lets +onlyGivenNames s2
  have hs2 : Good s₀ s2 := State.setEntry_good h
  clear_value s2
  split
  · exact Good.ite hs2 (State.setOwner_good hs2)
  · exact hs2

theorem State.closeEntry_good {s₀ s} {a0} (h : Good s₀ s) : Good s₀ (State.closeEntry s a0) := by
  unfold State.closeEntry
  split
  · exact h
  · refine Good.ite h ?_
    extract_lets +onlyGivenNames s4 s5
    have hs5 : Good s₀ s5 := Good.set h
    clear_value s5
    refine Good.foldl ?_ hs5
    intro s9 x9_1 h9_2
    exact State.closeTile_good h9_2

theorem State.countLate_good {s₀ s} {a0 a1} (h : Good s₀ s) : Good s₀ (State.countLate s a0 a1) := by
  unfold State.countLate
  split
  · exact Good.ite h (State.bump_good (Good.set h))
  · exact h

theorem State.giveTile_good {s₀ s} {a0 a1} (h : Good s₀ s) : Good s₀ (State.giveTile s a0 a1) := by
  unfold State.giveTile
  exact State.pump_good (State.setOwner_good (State.updTile_good h))

theorem State.saveTile_good {s₀ s} {a0 a1 a2} (h : Good s₀ s) : Good s₀ (State.saveTile s a0 a1 a2) := by
  unfold State.saveTile
  extract_lets +onlyGivenNames s0
  split
  extract_lets +onlyGivenNames s2
  have hs2 : Good s₀ s2 := State.event_good (GoodR.eq (by assumption) (GoodR.ite (State.free_good h) (GoodR.mk h)))
  clear_value s2
  exact State.setOwner_good (State.updTile_good hs2)

theorem State.preempt_good {s₀ s} {a0} (h : Good s₀ s) : Good s₀ (State.preempt s a0) := by
  unfold State.preempt
  split
  · exact h
  · extract_lets +onlyGivenNames s2
    extract_lets +onlyGivenNames s3
    refine Good.ite ?_ ?_
    · clear_value s3
      split
      · exact State.giveTile_good h
      · exact h
    · refine Good.ite h ?_
      extract_lets +onlyGivenNames s12
      have hs12 : Good s₀ s12 := State.saveTile_good h
      clear_value s12
      extract_lets +onlyGivenNames s15
      have hs15 : Good s₀ s15 := by
        subst s15
        clear_value s3
        split
        · exact State.countLate_good (State.giveTile_good hs12)
        · exact hs12
      clear_value s15
      exact Good.ite hs15 (Good.set hs15)

theorem State.finishSaves_good {s₀ s} (h : Good s₀ s) : Good s₀ (State.finishSaves s) := by
  unfold State.finishSaves
  extract_lets +onlyGivenNames s0
  have hs0 : Good s₀ s0 := by
    subst s0
    refine Good.foldl ?_ h
    intro s7 x7_1 h7_2
    split
    · exact Good.ite (State.preempt_good h7_2) h7_2
    · exact h7_2
  clear_value s0
  exact Good.set hs0

theorem State.judge_good {s₀ s} {a0 a1 a2 a3 a4} (h : Good s₀ s) : Good s₀ (State.judge s a0 a1 a2 a3 a4) := by
  unfold State.judge
  extract_lets +onlyGivenNames s0
  refine Good.ite (State.raise_good h) ?_
  refine Good.ite (State.raise_good h) ?_
  extract_lets +onlyGivenNames s7
  exact State.computeFault_good h

theorem State.openTile_good {s₀ s} {a0 a1} (h : Good s₀ s) : Good s₀ (State.openTile s a0 a1) := by
  unfold State.openTile
  extract_lets +onlyGivenNames s0
  have hs0 : Good s₀ s0 := State.setEntry_good h
  clear_value s0
  split
  · exact Good.ite hs0 (Good.ite hs0 (Good.ite (State.giveTile_good hs0) (State.setOwner_good hs0)))
  · exact Good.ite (State.giveTile_good hs0) hs0

theorem State.putUnit_good {s₀ s} {a0} (h : Good s₀ s) : Good s₀ (State.putUnit s a0) := by
  unfold State.putUnit
  exact Good.set h

theorem State.schSelWrite_good {s₀ s} {a0 a1} (h : Good s₀ s) : Good s₀ (State.schSelWrite s a0 a1) := by
  unfold State.schSelWrite
  extract_lets +onlyGivenNames s0
  have hs0 : Good s₀ s0 := Good.ite (State.setFlag_good h) h
  clear_value s0
  extract_lets +onlyGivenNames s3
  have hs3 : Good s₀ s3 := Good.ite (State.setFlag_good hs0) hs0
  clear_value s3
  refine Good.ite (State.setFlag_good hs3) ?_
  extract_lets +onlyGivenNames s9
  have hs9 : Good s₀ s9 := State.setFlag_good (State.setFlag_good (State.setFld_good hs3))
  clear_value s9
  extract_lets +onlyGivenNames s12 s13
  refine Good.ite ?_ ?_
  · subst s13
    dsimp -zeta -zetaHave only
    exact Good.set hs9
  · refine Good.ite ?_ ?_
    · subst s13
      dsimp -zeta -zetaHave only
      exact Good.set (State.setFlag_good hs9)
    · subst s13
      dsimp -zeta -zetaHave only
      exact Good.set hs9

theorem State.scrubUnit_good {s₀ s} {a0 a1} (h : Good s₀ s) : Good s₀ (State.scrubUnit s a0 a1) := by
  unfold State.scrubUnit
  split
  · refine Good.foldl ?_ h
    intro s2 x2_1 h2_2
    exact State.scrubBank_good h2_2
  · exact h

theorem State.tableSwitch_good {s₀ s} {a0} (h : Good s₀ s) : Good s₀ (State.tableSwitch s a0) := by
  unfold State.tableSwitch
  extract_lets +onlyGivenNames s0
  split
  · exact h
  · split
    · refine Good.ite ?_ ?_
      · subst s0
        dsimp -zeta -zetaHave only
        extract_lets +onlyGivenNames s7
        have hs7 : Good s₀ s7 := State.setFlag_good (State.setFld_good h)
        clear_value s7
        exact Good.set hs7
      · refine Good.ite ?_ h
        extract_lets +onlyGivenNames s17
        have hs17 : Good s₀ s17 := State.setFlag_good h
        clear_value s17
        extract_lets +onlyGivenNames s20 s21
        have hs21 : Good s₀ s21 := Good.set hs17
        clear_value s21
        refine Good.ite ?_ hs21
        subst s0
        dsimp -zeta -zetaHave only
        extract_lets +onlyGivenNames s27
        have hs27 : Good s₀ s27 := State.setFlag_good (State.setFld_good hs21)
        clear_value s27
        exact Good.set hs27
    · refine Good.ite ?_ h
      subst s0
      dsimp -zeta -zetaHave only
      extract_lets +onlyGivenNames s47
      have hs47 : Good s₀ s47 := State.setFlag_good (State.setFld_good h)
      clear_value s47
      exact Good.set hs47

theorem State.serveUnit_good {s₀ s} {a0 a1 a2} (h : Good s₀ s) : Good s₀ (State.serveUnit s a0 a1 a2) := by
  unfold State.serveUnit
  split
  · exact State.putUnit_good h
  · exact h

theorem State.spareTest_good {s₀ s} {a0 a1} (h : Good s₀ s) : Good s₀ (State.spareTest s a0 a1) := by
  unfold State.spareTest
  extract_lets +onlyGivenNames s0 s1
  refine Good.ite ?_ ?_
  · split
    · exact h
    · exact State.testAtom_good h
  · split
    · exact State.testAtom_good h
    · exact h

theorem State.startAtom_good {s₀ s} {a0 a1} (h : Good s₀ s) : GoodO s₀ (State.startAtom s a0 a1) := by
  unfold State.startAtom
  exact GoodO.ite GoodO.none (GoodO.ite GoodO.none (GoodO.some (Good.set h)))

theorem State.telem_good {s₀ s} (h : Good s₀ s) : Good s₀ (State.telem s) := by
  unfold State.telem
  extract_lets +onlyGivenNames s0 s1
  have hs1 : Good s₀ s1 := by
    subst s1
    refine Good.foldl ?_ h
    intro s8 x8_1 h8_2
    extract_lets +onlyGivenNames s9 s10
    have hs10 : Good s₀ s10 := State.event_good h8_2
    clear_value s10
    extract_lets +onlyGivenNames s13
    have hs13 : Good s₀ s13 := State.event_good hs10
    clear_value s13
    exact State.event_good hs13
  clear_value s1
  exact State.event_good hs1

theorem execOverrunExpiry_good {s₀ s} {a0 a1} (h : Good s₀ s) : GoodOut s₀ (execOverrunExpiry a0 a1 s) := by
  unfold execOverrunExpiry
  extract_lets +onlyGivenNames s0
  refine GoodOut.ite (GoodOut.next h) ?_
  clear_value s0
  split
  · exact GoodOut.next h
  · extract_lets +onlyGivenNames s8
    exact GoodOut.next (State.judge_good h)

theorem execBgAtomComplete_good {s₀ s} {a0 a1 a2} (h : Good s₀ s) : GoodOut s₀ (execBgAtomComplete a0 a1 a2 s) := by
  unfold execBgAtomComplete
  split
  · exact GoodOut.next h
  · extract_lets +onlyGivenNames s3
    extract_lets +onlyGivenNames s4
    have hs4 : Good s₀ s4 := Good.set h
    clear_value s4
    refine GoodOut.ite ?_ ?_
    · extract_lets +onlyGivenNames s8
      have hs8 : Good s₀ s8 := by
        subst s8
        refine Good.foldl ?_ hs4
        intro s32 x32_1 h32_2
        extract_lets +onlyGivenNames s33
        exact State.serveUnit_good (State.scrubUnit_good h32_2)
      clear_value s8
      extract_lets +onlyGivenNames s11
      have hs11 : Good s₀ s11 := by
        subst s11
        refine Good.foldl ?_ hs8
        intro s24 x24_1 h24_2
        obtain ⟨y25, zy25⟩ := x24_1
        dsimp -zeta -zetaHave only
        exact State.bankErrors_good h24_2
      clear_value s11
      refine GoodOut.next ?_
      refine Good.foldl ?_ hs11
      intro s16 x16_1 h16_2
      obtain ⟨y17, zy17⟩ := x16_1
      dsimp -zeta -zetaHave only
      exact State.bankUe_good h16_2
    · refine GoodOut.ite ?_ ?_
      · refine GoodOut.next ?_
        refine Good.foldl ?_ hs4
        intro s41 x41_1 h41_2
        extract_lets +onlyGivenNames s42
        have hs42 : Good s₀ s42 := State.serveUnit_good h41_2
        clear_value s42
        split
        · exact hs42
        · exact State.testAtom_good hs42
      · refine GoodOut.ite ?_ ?_
        · refine GoodOut.next ?_
          refine Good.foldl ?_ hs4
          intro s56 x56_1 h56_2
          split
          · exact State.serveUnit_good (State.spareTest_good h56_2)
          · exact h56_2
        · refine GoodOut.ite ?_ ?_
          · refine GoodOut.next ?_
            refine Good.foldl ?_ hs4
            intro s66 x66_1 h66_2
            exact State.serveUnit_good h66_2
          · refine GoodOut.ite (GoodOut.next (State.serveUnit_good (State.telem_good hs4))) ?_
            refine GoodOut.ite (GoodOut.next (State.swapAtom_good hs4)) ?_
            split
            · exact GoodOut.next (Good.ite (State.jobAtom_good hs4) hs4)
            · exact GoodOut.next hs4

theorem execBgAtomStart_good {s₀ s} {a0 a1} (h : Good s₀ s) : GoodOut s₀ (execBgAtomStart a0 a1 s) := by
  unfold execBgAtomStart
  split
  · exact GoodOut.next (GoodO.getD (State.startAtom_good h) h)
  · exact GoodOut.next h

theorem execEntryOpen_good {s₀ s} {a0} (h : Good s₀ s) : GoodOut s₀ (execEntryOpen a0 s) := by
  unfold execEntryOpen
  split
  · exact GoodOut.next h
  · refine GoodOut.ite (GoodOut.next h) ?_
    extract_lets +onlyGivenNames s6 s7
    have hs7 : Good s₀ s7 := Good.set h
    clear_value s7
    extract_lets +onlyGivenNames s10
    have hs10 : Good s₀ s10 := by
      subst s10
      refine Good.foldl ?_ hs7
      intro s18 x18_1 h18_2
      exact State.openTile_good h18_2
    clear_value s10
    exact GoodOut.next (State.event_good hs10)

theorem execBgDeadlineExpiry_good {s₀ s} {a0 a1 a2} (h : Good s₀ s) : GoodOut s₀ (execBgDeadlineExpiry a0 a1 a2 s) := by
  unfold execBgDeadlineExpiry
  extract_lets +onlyGivenNames s0
  refine GoodOut.ite (GoodOut.next h) ?_
  extract_lets +onlyGivenNames s4
  have hs4 : Good s₀ s4 := State.bump_good h
  clear_value s4
  exact GoodOut.ite (GoodOut.ite (GoodOut.next h) (GoodOut.next (Good.set hs4))) (GoodOut.ite (GoodOut.next h) (GoodOut.next (State.putUnit_good hs4)))

theorem execTickWorkComplete_good {s₀ s} {a0 a1 a2} (h : Good s₀ s) : GoodOut s₀ (execTickWorkComplete a0 a1 a2 s) := by
  unfold execTickWorkComplete
  refine GoodOut.ite (GoodOut.next h) ?_
  extract_lets +onlyGivenNames s3 s4
  have hs4 : Good s₀ s4 := State.setFld_good (State.bump_good h)
  clear_value s4
  exact GoodOut.next (State.updLadle_good (State.setFld_good hs4))

theorem execPreempt_good {s₀ s} {a0} (h : Good s₀ s) : GoodOut s₀ (execPreempt a0 s) := by
  unfold execPreempt
  exact GoodOut.next (State.preempt_good h)

theorem execEntryEnd_good {s₀ s} {a0} (h : Good s₀ s) : GoodOut s₀ (execEntryEnd a0 s) := by
  unfold execEntryEnd
  exact GoodOut.next (State.closeEntry_good h)

theorem execMarginStart_good {s₀ s} (h : Good s₀ s) : GoodOut s₀ (execMarginStart s) := by
  unfold execMarginStart
  refine GoodOut.ite (GoodOut.next h) ?_
  extract_lets +onlyGivenNames s3
  have hs3 : Good s₀ s3 := by
    subst s3
    refine Good.foldl ?_ h
    intro s37 x37_1 h37_2
    exact State.closeEntry_good h37_2
  clear_value s3
  extract_lets +onlyGivenNames s6 s7
  have hs7 : Good s₀ s7 := Good.set hs3
  clear_value s7
  split
  · exact GoodOut.next hs7
  · extract_lets +onlyGivenNames s13
    extract_lets +onlyGivenNames s14
    have hs14 : Good s₀ s14 := Good.set hs7
    clear_value s14
    extract_lets +onlyGivenNames s17 s18 s19 s20 s21
    refine GoodOut.next ?_
    split
    · exact State.bump_good (GoodO.eq (by assumption) (State.startAtom_good hs14))
    · exact hs14

theorem execSchSelWrite_good {s₀ s} {a0 a1} (h : Good s₀ s) : GoodOut s₀ (execSchSelWrite a0 a1 s) := by
  unfold execSchSelWrite
  exact GoodOut.ite (GoodOut.next (State.schSelWrite_good h)) (GoodOut.next h)

end Sys2Proof.Machine
end

