-- ==== Sys2Proof/Laws/Good/Twin.lean ====
section
/-!
SUPPORT. Good/Twin.lean: every operation of Machine/Twin.lean keeps what `Good` says.
-/

namespace Sys2Proof.Machine

theorem State.addUnit_good {s₀ s} {a0 a1 a2} (h : Good s₀ s) : Good s₀ (State.addUnit s a0 a1 a2) := by
  unfold State.addUnit
  exact State.updTwin_good h

theorem State.agreeMode_good {s₀ s} {a0} (h : Good s₀ s) : Good s₀ (State.agreeMode s a0) := by
  unfold State.agreeMode
  extract_lets +onlyGivenNames s0
  split
  · refine Good.ite h ?_
    extract_lets +onlyGivenNames s4
    have hs4 : Good s₀ s4 := State.updTwin_good h
    clear_value s4
    exact Good.ite hs4 (Good.ite (State.tntEvent_good (State.setFlag_good hs4)) (Good.ite (State.tntEvent_good (State.setFlag_good hs4)) (State.updTwin_good hs4)))
  · exact h

theorem State.applyNamed_good {s₀ s} {a0 a1} (h : Good s₀ s) : Good s₀ (State.applyNamed s a0 a1) := by
  unfold State.applyNamed
  refine Good.foldl ?_ h
  intro s1 x1_1 h1_2
  split
  · exact h1_2
  · exact State.applyRet_good (State.updLadle_good h1_2)

theorem State.askHandover_good {s₀ s} (h : Good s₀ s) : Good s₀ (State.askHandover s) := by
  unfold State.askHandover
  exact Good.ite (Good.set h) h

theorem State.giveServing_good {s₀ s} (h : Good s₀ s) : Good s₀ (State.giveServing s) := by
  unfold State.giveServing
  refine Good.ite h ?_
  extract_lets +onlyGivenNames s2 s3
  have hs3 : Good s₀ s3 := State.flood_good (State.setServe_good (State.setFlag_good h))
  clear_value s3
  extract_lets +onlyGivenNames s6
  have hs6 : Good s₀ s6 := State.modEvent_good hs3
  clear_value s6
  extract_lets +onlyGivenNames s9 s10
  have hs10 : Good s₀ s10 := Good.set hs6
  clear_value s10
  refine Good.foldl ?_ hs10
  intro s14 x14_1 h14_2
  exact Good.ite (State.reflow_good h14_2) h14_2

theorem State.followBatch_good {s₀ s} {a0 a1 a2} (h : Good s₀ s) : Good s₀ (State.followBatch s a0 a1 a2) := by
  unfold State.followBatch
  extract_lets +onlyGivenNames s0
  generalize he1 : State.resolveAll _ _ _ = e1
  obtain ⟨se1, xe1⟩ := e1
  have hse1 : Good s₀ se1 := (GoodL.eq he1 (State.resolveAll_good h))
  clear he1
  dsimp -zeta -zetaHave only
  refine Good.ite ?_ ?_
  · extract_lets +onlyGivenNames s7
    have hs7 : Good s₀ s7 := by
      subst s7
      refine Good.foldl ?_ hse1
      intro s15 x15_1 h15_2
      extract_lets +onlyGivenNames s16
      have hs16 : Good s₀ s16 := Good.ite (GoodR.out (State.takeChunk_good h15_2)) h15_2
      clear_value s16
      exact State.touch_good (State.updSess_good hs16)
    clear_value s7
    exact State.runBatch_good (State.updLadle_good hs7)
  · split
    · exact hse1
    · extract_lets +onlyGivenNames s31
      have hs31 : Good s₀ s31 := State.updLadle_good hse1
      clear_value s31
      exact State.runBatch_good (State.sendPair_good hs31)

theorem State.follow_good {s₀ s} {a0 a1} (h : Good s₀ s) : Good s₀ (State.follow s a0 a1) := by
  unfold State.follow
  extract_lets +onlyGivenNames s0 s1
  have hs1 : Good s₀ s1 := by
    subst s1
    refine Good.foldl ?_ h
    intro s48 x48_1 h48_2
    obtain ⟨y49, zy49⟩ := x48_1
    dsimp -zeta -zetaHave only
    exact State.updRing_good h48_2
  clear_value s1
  extract_lets +onlyGivenNames s4
  have hs4 : Good s₀ s4 := State.addUnit_good hs1
  clear_value s4
  extract_lets +onlyGivenNames s7
  have hs7 : Good s₀ s7 := State.ladleSettle_good hs4
  clear_value s7
  extract_lets +onlyGivenNames s10
  have hs10 : Good s₀ s10 := by
    subst s10
    split
    · exact hs7
    · refine Good.foldl ?_ hs7
      intro s30 x30_1 h30_2
      obtain ⟨y31, zy31⟩ := x30_1
      dsimp -zeta -zetaHave only
      split
      · exact Good.ite (State.larderApply_good h30_2) h30_2
      · exact h30_2
  clear_value s10
  extract_lets +onlyGivenNames s13
  have hs13 : Good s₀ s13 := State.markLengths_good (State.applyNamed_good hs10)
  clear_value s13
  split
  · exact State.followBatch_good hs13
  · exact GoodL.out (State.resolveAll_good hs13)

theorem State.followSteps_good {s₀ s} {a0 a1 a2} (h : Good s₀ s) : Good s₀ (State.followSteps s a0 a1 a2) := by
  induction a2 generalizing s
  · exact h
  rename_i fuel ih
  unfold State.followSteps
  split
  · exact h
  · exact Good.ite h (ih (State.follow_good (State.updTwin_good h)))

theorem State.letOut_good {s₀ s} {a0 a1} (h : Good s₀ s) : Good s₀ (State.letOut s a0 a1) := by
  unfold State.letOut
  extract_lets +onlyGivenNames s0
  split
  · exact State.interrupt_good h
  · exact Good.ite (State.pushLog_good h) (GoodL.out (State.signal_good h))
  · extract_lets +onlyGivenNames s10
    extract_lets +onlyGivenNames s11 s12
    exact Good.ite (State.pushLog_good h) (Good.ite (State.send_good h) (State.hostFail_good h))

theorem State.setMode_good {s₀ s} {a0 a1} (h : Good s₀ s) : Good s₀ (State.setMode s a0 a1) := by
  unfold State.setMode
  extract_lets +onlyGivenNames s0
  have hs0 : Good s₀ s0 := Good.ite h (State.tntEvent_good (State.setFld_good h))
  clear_value s0
  extract_lets +onlyGivenNames s3
  have hs3 : Good s₀ s3 := State.setFlag_good hs0
  clear_value s3
  exact State.updTwin_good hs3

theorem State.goSolo_good {s₀ s} {a0 a1} (h : Good s₀ s) : Good s₀ (State.goSolo s a0 a1) := by
  unfold State.goSolo
  extract_lets +onlyGivenNames s0 s1 s2
  have hs2 : Good s₀ s2 := by
    subst s2
    refine Good.foldl ?_ h
    intro s26 x26_1 h26_2
    extract_lets +onlyGivenNames s27
    have hs27 : Good s₀ s27 := by
      subst s27
      refine Good.foldl ?_ h26_2
      intro s36 x36_1 h36_2
      exact State.letOut_good h36_2
    clear_value s27
    split
    · exact State.writeSeal_good hs27
    · exact hs27
  clear_value s2
  extract_lets +onlyGivenNames s5
  have hs5 : Good s₀ s5 := State.updLadle_good hs2
  clear_value s5
  extract_lets +onlyGivenNames s8
  have hs8 : Good s₀ s8 := by
    subst s8
    refine Good.ite hs5 ?_
    refine Good.foldl ?_ hs5
    intro s17 x17_1 h17_2
    exact State.updRing_good h17_2
  clear_value s8
  exact State.setMode_good hs8

theorem State.ladleStep_good {s₀ s} {a0} (h : Good s₀ s) : GoodL s₀ (State.ladleStep s a0) := by
  unfold State.ladleStep
  generalize he0 : State.ladleStart _ _ = e0
  obtain ⟨se0, xe0⟩ := e0
  have hse0 : Good s₀ se0 := (GoodL.eq he0 (State.ladleStart_good h))
  clear he0
  dsimp -zeta -zetaHave only
  exact GoodL.mk (GoodL.out (State.ladleBatch_good (State.markLengths_good hse0)))

theorem State.releaseRings_good {s₀ s} {a0} (h : Good s₀ s) : GoodL s₀ (State.releaseRings s a0) := by
  unfold State.releaseRings
  extract_lets +onlyGivenNames s0
  refine GoodL.foldl ?_ (GoodL.mk h)
  intro s2 x2_1 x2_2 h2_3
  dsimp -zeta -zetaHave only
  extract_lets +onlyGivenNames s4
  exact GoodL.mk (State.updRing_good h2_3)

theorem State.leaderStep_good {s₀ s} {a0} (h : Good s₀ s) : Good s₀ (State.leaderStep s a0) := by
  unfold State.leaderStep
  extract_lets +onlyGivenNames s0
  refine Good.ite (GoodL.out (State.ladleStep_good h)) ?_
  refine Good.ite (State.setFld_good h) ?_
  generalize he8 : State.releaseRings _ _ = e8
  obtain ⟨se8, xe8⟩ := e8
  have hse8 : Good s₀ se8 := (GoodL.eq he8 (State.releaseRings_good h))
  clear he8
  dsimp -zeta -zetaHave only
  extract_lets +onlyGivenNames s13
  have hs13 : Good s₀ s13 := State.addUnit_good hse8
  clear_value s13
  extract_lets +onlyGivenNames s16
  exact State.sendTwin_good (State.updTwin_good (GoodL.out (State.ladleStep_good hs13)))

theorem State.loseTwin_good {s₀ s} (h : Good s₀ s) : Good s₀ (State.loseTwin s) := by
  unfold State.loseTwin
  refine Good.ite h ?_
  extract_lets +onlyGivenNames s2 s3
  have hs3 : Good s₀ s3 := State.endMigrations_good (State.modEvent_good (State.setFlag_good h))
  clear_value s3
  extract_lets +onlyGivenNames s6 s7
  have hs7 : Good s₀ s7 := Good.set hs3
  clear_value s7
  refine Good.foldl ?_ hs7
  intro s11 x11_1 h11_2
  extract_lets +onlyGivenNames s12
  have hs12 : Good s₀ s12 := Good.ite h11_2 (State.updTwin_good (State.setFlag_good h11_2))
  clear_value s12
  exact Good.ite (State.raise_good hs12) (Good.ite (State.goSolo_good hs12) hs12)

theorem State.resync_good {s₀ s} {a0 a1} (h : Good s₀ s) : Good s₀ (State.resync s a0 a1) := by
  unfold State.resync
  extract_lets +onlyGivenNames s0
  have hs0 : Good s₀ s0 := State.updTwin_good (State.setFlag_good h)
  clear_value s0
  split
  · exact hs0
  · refine Good.ite hs0 ?_
    extract_lets +onlyGivenNames s7 s8
    have hs8 : Good s₀ s8 := State.mirror_good (State.mirror_good hs0)
    clear_value s8
    extract_lets +onlyGivenNames s11
    have hs11 : Good s₀ s11 := by
      subst s11
      refine Good.foldl ?_ hs8
      intro s66 x66_1 h66_2
      obtain ⟨y67, zy67⟩ := x66_1
      dsimp -zeta -zetaHave only
      exact State.mirror_good h66_2
    clear_value s11
    extract_lets +onlyGivenNames s14
    have hs14 : Good s₀ s14 := by
      subst s14
      subst s7
      dsimp -zeta -zetaHave only
      split
      · exact State.mirror_good hs11
      · exact hs11
    clear_value s14
    extract_lets +onlyGivenNames s17
    have hs17 : Good s₀ s17 := by
      subst s17
      refine Good.foldl ?_ hs14
      intro s47 x47_1 h47_2
      obtain ⟨y48, zy48⟩ := x47_1
      dsimp -zeta -zetaHave only
      subst s7
      dsimp -zeta -zetaHave only
      split
      · exact State.mirror_good h47_2
      · exact h47_2
    clear_value s17
    extract_lets +onlyGivenNames s20
    have hs20 : Good s₀ s20 := by
      subst s20
      refine Good.foldl ?_ hs17
      intro s38 x38_1 h38_2
      obtain ⟨y39, zy39⟩ := x38_1
      dsimp -zeta -zetaHave only
      extract_lets +onlyGivenNames s41
      exact State.mirror_good h38_2
    clear_value s20
    extract_lets +onlyGivenNames s23
    have hs23 : Good s₀ s23 := by
      subst s23
      refine Good.foldl ?_ hs20
      intro s30 x30_1 h30_2
      obtain ⟨y31, zy31⟩ := x30_1
      dsimp -zeta -zetaHave only
      exact State.mirror_good h30_2
    clear_value s23
    exact State.mirror_good hs23

theorem State.modeBoundary_good {s₀ s} {a0} (h : Good s₀ s) : Good s₀ (State.modeBoundary s a0) := by
  unfold State.modeBoundary
  extract_lets +onlyGivenNames s0
  split
  · exact Good.ite h (Good.ite (Good.ite (State.resync_good h) (Good.ite (State.setMode_good h) h)) (State.setMode_good h))
  · exact Good.ite (State.setMode_good h) h

theorem State.modeRequest_good {s₀ s} {a0 a1} (h : Good s₀ s) : Good s₀ (State.modeRequest s a0 a1) := by
  unfold State.modeRequest
  extract_lets +onlyGivenNames s0
  have hs0 : Good s₀ s0 := State.setFld_good h
  clear_value s0
  refine Good.ite (State.updTwin_good hs0) ?_
  extract_lets +onlyGivenNames s6
  have hs6 : Good s₀ s6 := State.updTwin_good hs0
  clear_value s6
  exact State.agreeMode_good (State.sendTwin_good hs6)

theorem State.sendReflow_good {s₀ s} {a0 a1} (h : Good s₀ s) : Good s₀ (State.sendReflow s a0 a1) := by
  unfold State.sendReflow
  refine Good.foldl ?_ h
  intro s1 x1_1 h1_2
  exact Good.ite h1_2 (State.sendPair_good h1_2)

theorem State.takeTenant_good {s₀ s} {a0} (h : Good s₀ s) : Good s₀ (State.takeTenant s a0) := by
  unfold State.takeTenant
  extract_lets +onlyGivenNames s0 s1
  refine Good.ite ?_ ?_
  · extract_lets +onlyGivenNames s3
    extract_lets +onlyGivenNames s4
    have hs4 : Good s₀ s4 := State.reflow_good (State.backToMark_good h)
    clear_value s4
    extract_lets +onlyGivenNames s7
    have hs7 : Good s₀ s7 := State.updLadle_good hs4
    clear_value s7
    subst s1
    dsimp -zeta -zetaHave only
    refine Good.foldl ?_ (State.sendReflow_good hs7)
    intro s13 x13_1 h13_2
    exact State.setWord_good h13_2
  · refine Good.ite ?_ h
    extract_lets +onlyGivenNames s26
    have hs26 : Good s₀ s26 := State.followSteps_good h
    clear_value s26
    extract_lets +onlyGivenNames s29
    have hs29 : Good s₀ s29 := State.sendReflow_good hs26
    clear_value s29
    refine State.goSolo_good ?_
    subst s1
    dsimp -zeta -zetaHave only
    refine Good.foldl ?_ hs29
    intro s36 x36_1 h36_2
    exact State.setWord_good h36_2

theorem State.takeServing_good {s₀ s} (h : Good s₀ s) : Good s₀ (State.takeServing s) := by
  unfold State.takeServing
  extract_lets +onlyGivenNames s0
  have hs0 : Good s₀ s0 := State.flood_good (State.setServe_good (State.setFlag_good h))
  clear_value s0
  extract_lets +onlyGivenNames s3 s4
  have hs4 : Good s₀ s4 := Good.set hs0
  clear_value s4
  refine Good.foldl ?_ (State.modEvent_good hs4)
  intro s8 x8_1 h8_2
  exact Good.ite h8_2 (State.tntEvent_good (State.takeTenant_good h8_2))

theorem State.pairBoundary_good {s₀ s} (h : Good s₀ s) : Good s₀ (State.pairBoundary s) := by
  unfold State.pairBoundary
  extract_lets +onlyGivenNames s0
  have hs0 : Good s₀ s0 := State.setFlag_good (State.setFlag_good h)
  clear_value s0
  extract_lets +onlyGivenNames s3
  have hs3 : Good s₀ s3 := State.setServe_good hs0
  clear_value s3
  extract_lets +onlyGivenNames s6 s7
  have hs7 : Good s₀ s7 := Good.set hs3
  clear_value s7
  extract_lets +onlyGivenNames s10
  have hs10 : Good s₀ s10 := State.flood_good hs7
  clear_value s10
  extract_lets +onlyGivenNames s13
  have hs13 : Good s₀ s13 := by
    subst s13
    refine Good.ite ?_ h
    refine Good.foldl ?_ (State.modEvent_good hs10)
    intro s61 x61_1 h61_2
    exact Good.ite (State.raise_good h61_2) h61_2
  clear_value s13
  extract_lets +onlyGivenNames s16 s17
  have hs17 : Good s₀ s17 := Good.ite (State.giveServing_good hs13) hs13
  clear_value s17
  extract_lets +onlyGivenNames s20
  have hs20 : Good s₀ s20 := Good.ite (State.takeServing_good hs17) hs17
  clear_value s20
  refine Good.ite ?_ hs20
  extract_lets +onlyGivenNames s24
  have hs24 : Good s₀ s24 := State.modEvent_good (State.setFlag_good hs20)
  clear_value s24
  extract_lets +onlyGivenNames s27 s28
  have hs28 : Good s₀ s28 := Good.set hs24
  clear_value s28
  refine Good.ite ?_ hs28
  refine Good.foldl ?_ hs28
  intro s33 x33_1 h33_2
  exact Good.ite (State.resync_good h33_2) h33_2

theorem State.twinEvent_good {s₀ s} {a0 a1 a2 a3} (h : Good s₀ s) : Good s₀ (State.twinEvent s a0 a1 a2 a3) := by
  unfold State.twinEvent
  exact State.event_good h

theorem State.settleUnits_good {s₀ s} {a0 a1} (h : Good s₀ s) : Good s₀ (State.settleUnits s a0 a1) := by
  induction a1 generalizing s
  · exact h
  rename_i fuel ih
  unfold State.settleUnits
  extract_lets +onlyGivenNames s0
  split
  · exact h
  · split
    · refine Good.ite h ?_
      refine Good.ite ?_ (State.twinEvent_good (State.updTwin_good h))
      extract_lets +onlyGivenNames s7
      have hs7 : Good s₀ s7 := State.updTwin_good (State.setQuad_good h)
      clear_value s7
      extract_lets +onlyGivenNames s10
      have hs10 : Good s₀ s10 := State.twinEvent_good hs7
      clear_value s10
      extract_lets +onlyGivenNames s13
      have hs13 : Good s₀ s13 := by
        subst s13
        refine Good.foldl ?_ hs10
        intro s30 x30_1 h30_2
        exact State.letOut_good h30_2
      clear_value s13
      extract_lets +onlyGivenNames s16
      have hs16 : Good s₀ s16 := by
        subst s16
        refine Good.ite ?_ hs10
        split
        · exact State.writeSeal_good hs13
        · exact hs13
      clear_value s16
      exact ih hs16
    · exact h

theorem State.peerDigest_good {s₀ s} {a0 a1 a2} (h : Good s₀ s) : Good s₀ (State.peerDigest s a0 a1 a2) := by
  unfold State.peerDigest
  exact State.settleUnits_good (State.updTwin_good h)

theorem State.peerMode_good {s₀ s} {a0 a1 a2 a3 a4} (h : Good s₀ s) : Good s₀ (State.peerMode s a0 a1 a2 a3 a4) := by
  unfold State.peerMode
  exact State.agreeMode_good (State.updTwin_good h)

theorem State.recvStep_good {s₀ s} {a0 a1} (h : Good s₀ s) : Good s₀ (State.recvStep s a0 a1) := by
  unfold State.recvStep
  exact State.updTwin_good h

theorem State.sendMark_good {s₀ s} {a0} (h : Good s₀ s) : Good s₀ (State.sendMark s a0) := by
  unfold State.sendMark
  refine Good.ite h ?_
  extract_lets +onlyGivenNames s2 s3
  exact State.sendTwin_good h

theorem State.twinFreezes_good {s₀ s} {a0} (h : Good s₀ s) : Good s₀ (State.twinFreezes s a0) := by
  unfold State.twinFreezes
  extract_lets +onlyGivenNames s0 s1
  have hs1 : Good s₀ s1 := by
    subst s1
    split
    · exact State.raise_good (State.updTwin_good (State.setQuad_good h))
    · exact h
  clear_value s1
  exact Good.ite (State.raise_good (State.updTwin_good hs1)) hs1

theorem State.stepTenant_good {s₀ s} {a0} (h : Good s₀ s) : Good s₀ (State.stepTenant s a0) := by
  unfold State.stepTenant
  exact Good.ite (Good.ite (State.leaderStep_good h) (State.followSteps_good h)) (Good.ite (State.ladleSettle_good h) (GoodL.out (State.ladleStep_good h)))

theorem State.unitComplete_good {s₀ s} {a0 a1} (h : Good s₀ s) : Good s₀ (State.unitComplete s a0 a1) := by
  unfold State.unitComplete
  split
  · exact h
  · refine Good.ite h ?_
    extract_lets +onlyGivenNames s4
    generalize he5 : State.fresh _ = e5
    obtain ⟨xe5, se5⟩ := e5
    have hse5 : Good s₀ se5 := (GoodR.eq he5 (State.fresh_good h))
    clear he5
    dsimp -zeta -zetaHave only
    extract_lets +onlyGivenNames s10 s11
    have hs11 : Good s₀ s11 := State.unitOf_good hse5
    clear_value s11
    exact State.settleUnits_good (State.sendTwin_good hs11)

theorem execTwinLossTimeout_good {s₀ s} (h : Good s₀ s) : GoodOut s₀ (execTwinLossTimeout s) := by
  unfold execTwinLossTimeout
  exact GoodOut.next (State.loseTwin_good h)

theorem execTwinModeRequestReceive_good {s₀ s} {a0 a1 a2 a3 a4} (h : Good s₀ s) : GoodOut s₀ (execTwinModeRequestReceive a0 a1 a2 a3 a4 s) := by
  unfold execTwinModeRequestReceive
  exact GoodOut.ite (GoodOut.next h) (GoodOut.next (State.peerMode_good h))

theorem execUnitDigestReceive_good {s₀ s} {a0 a1 a2} (h : Good s₀ s) : GoodOut s₀ (execUnitDigestReceive a0 a1 a2 s) := by
  unfold execUnitDigestReceive
  exact GoodOut.ite (GoodOut.next h) (GoodOut.next (State.peerDigest_good h))

theorem execUnitComplete_good {s₀ s} {a0 a1} (h : Good s₀ s) : GoodOut s₀ (execUnitComplete a0 a1 s) := by
  unfold execUnitComplete
  exact GoodOut.ite (GoodOut.next h) (GoodOut.next (State.unitComplete_good h))

theorem execHandover_good {s₀ s} (h : Good s₀ s) : GoodOut s₀ (execHandover s) := by
  unfold execHandover
  exact GoodOut.ite (GoodOut.next (State.askHandover_good h)) (GoodOut.next h)

theorem execResyncComplete_good {s₀ s} {a0} (h : Good s₀ s) : GoodOut s₀ (execResyncComplete a0 s) := by
  unfold execResyncComplete
  exact GoodOut.ite (GoodOut.next h) (GoodOut.next (State.updTwin_good h))

theorem execTwinReturn_good {s₀ s} (h : Good s₀ s) : GoodOut s₀ (execTwinReturn s) := by
  unfold execTwinReturn
  exact GoodOut.next (Good.ite (Good.set h) h)

theorem execStepRecordReceive_good {s₀ s} {a0 a1} (h : Good s₀ s) : GoodOut s₀ (execStepRecordReceive a0 a1 s) := by
  unfold execStepRecordReceive
  exact GoodOut.ite (GoodOut.next h) (GoodOut.next (State.recvStep_good h))

theorem execTwinModeRequest_good {s₀ s} {a0 a1} (h : Good s₀ s) : GoodOut s₀ (execTwinModeRequest a0 a1 s) := by
  unfold execTwinModeRequest
  exact GoodOut.ite (GoodOut.next h) (GoodOut.next (State.modeRequest_good h))

end Sys2Proof.Machine
end

