-- ==== Sys2Proof/Laws/Good/Tenant.lean ====
section
/-!
SUPPORT. Good/Tenant.lean: every operation of Machine/Tenant.lean keeps what `Good` says.
-/

namespace Sys2Proof.Machine

theorem State.tntBad_good {s₀ s} {a0} (h : Good s₀ s) : Good s₀ (State.tntBad s a0) := by
  unfold State.tntBad
  exact State.setFlag_good h

theorem State.askFreeze_good {s₀ s} {a0} (h : Good s₀ s) : Good s₀ (State.askFreeze s a0) := by
  unfold State.askFreeze
  exact Good.ite (State.freeze_good h) (State.tntBad_good h)

theorem State.askPublish_good {s₀ s} {a0} (h : Good s₀ s) : Good s₀ (State.askPublish s a0) := by
  unfold State.askPublish
  exact Good.ite h (Good.set h)

theorem State.zeroMa_good {s₀ s} {a0 a1} (h : Good s₀ s) : Good s₀ (State.zeroMa s a0 a1) := by
  unfold State.zeroMa
  refine Good.sets h ?_ ?_ ?_ ?_
  · with_reducible exact id
  · with_reducible exact nwf_zeroRange _ _
  · with_reducible exact id
  · with_reducible exact rising_filter _

theorem State.resetLarder_good {s₀ s} {a0} (h : Good s₀ s) : Good s₀ (State.resetLarder s a0) := by
  unfold State.resetLarder
  extract_lets +onlyGivenNames s0
  exact Good.set h

theorem State.zeroCounters_good {s₀ s} {a0} (h : Good s₀ s) : Good s₀ (State.zeroCounters s a0) := by
  unfold State.zeroCounters
  extract_lets +onlyGivenNames s0
  have hs0 : Good s₀ s0 := State.zeroRegs_good (State.setFld_good (State.setWord_good h))
  clear_value s0
  extract_lets +onlyGivenNames s3
  have hs3 : Good s₀ s3 := by
    subst s3
    refine Good.foldl ?_ hs0
    intro s33 x33_1 h33_2
    exact State.zeroRegs_good h33_2
  clear_value s3
  extract_lets +onlyGivenNames s6
  have hs6 : Good s₀ s6 := State.zeroRegs_good (State.zeroRegs_good hs3)
  clear_value s6
  extract_lets +onlyGivenNames s9
  have hs9 : Good s₀ s9 := State.zeroRegs_good (State.zeroRegs_good hs6)
  clear_value s9
  extract_lets +onlyGivenNames s12
  have hs12 : Good s₀ s12 := by
    subst s12
    refine Good.foldl ?_ hs9
    intro s19 x19_1 h19_2
    exact State.zeroRegs_good h19_2
  clear_value s12
  exact Good.set hs12

theorem State.dropAllFeeds_good {s₀ s} {a0} (h : Good s₀ s) : Good s₀ (State.dropAllFeeds s a0) := by
  unfold State.dropAllFeeds
  split
  · exact h
  · refine Good.foldl ?_ h
    intro s3 x3_1 h3_2
    obtain ⟨y4, zy4⟩ := x3_1
    dsimp -zeta -zetaHave only
    exact State.dropFeeds_good h3_2

theorem State.resetFront_good {s₀ s} {a0} (h : Good s₀ s) : Good s₀ (State.resetFront s a0) := by
  unfold State.resetFront
  extract_lets +onlyGivenNames s0
  have hs0 : Good s₀ s0 := by
    subst s0
    refine Good.foldl ?_ h
    intro s8 x8_1 h8_2
    exact State.setRingState_good (State.setFlag_good (State.updRing_good h8_2))
  clear_value s0
  extract_lets +onlyGivenNames s3
  exact Good.set hs0

theorem State.tenantReset_good {s₀ s} {a0 a1} (h : Good s₀ s) : Good s₀ (State.tenantReset s a0 a1) := by
  unfold State.tenantReset
  refine Good.ite h ?_
  extract_lets +onlyGivenNames s2 s3
  have hs3 : Good s₀ s3 := Good.ite (State.sendTwin_good h) h
  clear_value s3
  extract_lets +onlyGivenNames s6
  have hs6 : Good s₀ s6 := State.setTState_good hs3
  clear_value s6
  extract_lets +onlyGivenNames s9
  have hs9 : Good s₀ s9 := State.resetColls_good hs6
  clear_value s9
  split
  extract_lets +onlyGivenNames s13
  have hs13 : Good s₀ s13 := by
    subst s13
    refine Good.foldl ?_ hs9
    intro s82 x82_1 h82_2
    extract_lets +onlyGivenNames s83 s84
    have hs84 : Good s₀ s84 := State.updTile_good h82_2
    clear_value s84
    exact Good.ite (State.setOwner_good hs84) hs84
  clear_value s13
  extract_lets +onlyGivenNames s16 s17
  have hs17 : Good s₀ s17 := Good.set hs13
  clear_value s17
  extract_lets +onlyGivenNames s20
  have hs20 : Good s₀ s20 := State.resetLarder_good (State.resetFront_good (State.resetMigrates_good (State.dropAllFeeds_good hs17)))
  clear_value s20
  extract_lets +onlyGivenNames s23
  have hs23 : Good s₀ s23 := by
    subst s23
    refine Good.foldl ?_ hs20
    intro s65 x65_1 h65_2
    obtain ⟨y66, zy66⟩ := x65_1
    dsimp -zeta -zetaHave only
    exact State.zeroMa_good h65_2
  clear_value s23
  extract_lets +onlyGivenNames s26 s27
  have hs27 : Good s₀ s27 := by
    subst s27
    refine Good.sets hs23 ?_ ?_ ?_ ?_
    · with_reducible exact id
    · with_reducible exact id
    · with_reducible exact nwf_filter _
    · with_reducible exact id
  clear_value s27
  extract_lets +onlyGivenNames s30
  have hs30 : Good s₀ s30 := State.setFlag_good (State.setFlag_good hs27)
  clear_value s30
  extract_lets +onlyGivenNames s33
  have hs33 : Good s₀ s33 := State.zeroRegs_good (State.zeroRegs_good (State.setFld_good hs30))
  clear_value s33
  extract_lets +onlyGivenNames s36
  have hs36 : Good s₀ s36 := State.zeroCounters_good hs33
  clear_value s36
  exact Good.ite (State.tntEvent_good (State.setFld_good hs36)) hs36

theorem State.askReset_good {s₀ s} {a0} (h : Good s₀ s) : Good s₀ (State.askReset s a0) := by
  unfold State.askReset
  exact Good.ite (State.tenantReset_good h) (State.tntBad_good h)

theorem State.askUnfreeze_good {s₀ s} {a0} (h : Good s₀ s) : Good s₀ (State.askUnfreeze s a0) := by
  unfold State.askUnfreeze
  refine Good.ite (State.tntBad_good h) ?_
  extract_lets +onlyGivenNames s3
  have hs3 : Good s₀ s3 := State.updTwin_good h
  clear_value s3
  exact Good.ite (State.sendTwin_good hs3) hs3

theorem State.faultClear_good {s₀ s} {a0} (h : Good s₀ s) : Good s₀ (State.faultClear s a0) := by
  unfold State.faultClear
  exact State.zeroRegs_good (State.setWord_good (State.setFld_good h))

theorem State.fltClear_good {s₀ s} (h : Good s₀ s) : Good s₀ (State.fltClear s) := by
  unfold State.fltClear
  exact State.setFlag_good (State.zeroRegs_good (State.setWord_good h))

theorem State.publishBoundary_good {s₀ s} (h : Good s₀ s) : Good s₀ (State.publishBoundary s) := by
  unfold State.publishBoundary
  extract_lets +onlyGivenNames s0
  have hs0 : Good s₀ s0 := State.mscDrop_good h
  clear_value s0
  extract_lets +onlyGivenNames s3
  have hs3 : Good s₀ s3 := State.setFld_good hs0
  clear_value s3
  exact Good.set hs3

theorem State.thaw_good {s₀ s} {a0} (h : Good s₀ s) : Good s₀ (State.thaw s a0) := by
  unfold State.thaw
  extract_lets +onlyGivenNames s0
  have hs0 : Good s₀ s0 := State.tntEvent_good (State.updTwin_good (State.setTState_good h))
  clear_value s0
  extract_lets +onlyGivenNames s3
  have hs3 : Good s₀ s3 := by
    subst s3
    refine Good.foldl ?_ hs0
    intro s20 x20_1 h20_2
    exact Good.ite (State.setRingState_good h20_2) h20_2
  clear_value s3
  extract_lets +onlyGivenNames s6
  have hs6 : Good s₀ s6 := by
    subst s6
    refine Good.foldl ?_ hs3
    intro s14 x14_1 h14_2
    exact State.updTile_good h14_2
  clear_value s6
  exact State.drainLog_good (Good.set hs6)

theorem State.unfreezeBoundary_good {s₀ s} {a0} (h : Good s₀ s) : Good s₀ (State.unfreezeBoundary s a0) := by
  unfold State.unfreezeBoundary
  extract_lets +onlyGivenNames s0
  exact Good.ite (State.thaw_good h) h

theorem State.wsetBoundary_good {s₀ s} {a0} (h : Good s₀ s) : Good s₀ (State.wsetBoundary s a0) := by
  unfold State.wsetBoundary
  split
  · exact State.updTwin_good h
  · exact h

theorem State.wsetGo_good {s₀ s} {a0} (h : Good s₀ s) : Good s₀ (State.wsetGo s a0) := by
  unfold State.wsetGo
  extract_lets +onlyGivenNames s0 s1
  exact Good.ite (State.setFlag_good h) (State.updTwin_good (State.setFlag_good h))

theorem execCpReset_good {s₀ s} (h : Good s₀ s) : GoodOut s₀ (execCpReset s) := by
  unfold execCpReset
  exact GoodOut.next (State.computeFault_good h)

theorem execFreeze_good {s₀ s} {a0} (h : Good s₀ s) : GoodOut s₀ (execFreeze a0 s) := by
  unfold execFreeze
  exact GoodOut.ite (GoodOut.next h) (GoodOut.next (State.askFreeze_good h))

theorem execWsetDigestComplete_good {s₀ s} {a0} (h : Good s₀ s) : GoodOut s₀ (execWsetDigestComplete a0 s) := by
  unfold execWsetDigestComplete
  split
  · exact GoodOut.next h
  · refine GoodOut.ite (GoodOut.next h) ?_
    extract_lets +onlyGivenNames s6
    exact GoodOut.next (State.setBytes_good (State.setFlag_good (State.setFlag_good h)))

theorem execTenantReset_good {s₀ s} {a0} (h : Good s₀ s) : GoodOut s₀ (execTenantReset a0 s) := by
  unfold execTenantReset
  exact GoodOut.ite (GoodOut.next h) (GoodOut.next (State.askReset_good h))

theorem execWsetGo_good {s₀ s} {a0} (h : Good s₀ s) : GoodOut s₀ (execWsetGo a0 s) := by
  unfold execWsetGo
  exact GoodOut.ite (GoodOut.next h) (GoodOut.next (State.wsetGo_good h))

theorem execUnfreeze_good {s₀ s} {a0} (h : Good s₀ s) : GoodOut s₀ (execUnfreeze a0 s) := by
  unfold execUnfreeze
  exact GoodOut.ite (GoodOut.next h) (GoodOut.next (State.askUnfreeze_good h))

theorem execTenantResetComplete_good {s₀ s} {a0} (h : Good s₀ s) : GoodOut s₀ (execTenantResetComplete a0 s) := by
  unfold execTenantResetComplete
  exact GoodOut.ite (GoodOut.next h) (GoodOut.next (State.modEvent_good (State.tntEvent_good (State.setTState_good h))))

theorem execFltClear_good {s₀ s} (h : Good s₀ s) : GoodOut s₀ (execFltClear s) := by
  unfold execFltClear
  exact GoodOut.next (State.fltClear_good h)

theorem execPublish_good {s₀ s} {a0} (h : Good s₀ s) : GoodOut s₀ (execPublish a0 s) := by
  unfold execPublish
  exact GoodOut.ite (GoodOut.next (State.askPublish_good h)) (GoodOut.next h)

theorem execFaultClear_good {s₀ s} {a0} (h : Good s₀ s) : GoodOut s₀ (execFaultClear a0 s) := by
  unfold execFaultClear
  exact GoodOut.ite (GoodOut.next h) (GoodOut.next (State.faultClear_good h))

theorem execCommonDigestComplete_good {s₀ s} {a0} (h : Good s₀ s) : GoodOut s₀ (execCommonDigestComplete a0 s) := by
  unfold execCommonDigestComplete
  refine GoodOut.ite (GoodOut.next h) ?_
  extract_lets +onlyGivenNames s3 s4
  have hs4 : Good s₀ s4 := State.setFlag_good (State.setFlag_good h)
  clear_value s4
  exact GoodOut.next (Good.set hs4)

end Sys2Proof.Machine
end

