-- ==== Sys2Proof/Laws/Good/Recover.lean ====
section
/-!
SUPPORT. Good/Recover.lean: every operation of Machine/Recover.lean keeps what `Good` says.
-/

namespace Sys2Proof.Machine

theorem State.checkpoint_good {s₀ s} (h : Good s₀ s) : Good s₀ (State.checkpoint s) := by
  unfold State.checkpoint
  extract_lets +onlyGivenNames s0 s1 s2
  exact Good.set h

theorem State.restoreCtrs_good {s₀ s} {a0 a1} (h : Good s₀ s) : Good s₀ (State.restoreCtrs s a0 a1) := by
  unfold State.restoreCtrs
  extract_lets +onlyGivenNames lo s1
  have h1 : Good s₀ s1 := h.mems id id (nwf_filter _) id rfl rfl rfl rfl
  clear_value s1
  extract_lets +onlyGivenNames s2
  have h2 : Good s₀ s2 := h1.mems id id (nwf_foldl_nset _ _ _) id rfl rfl rfl rfl
  clear_value s2
  refine Good.foldl (fun s x h => ?_) h2
  split
  · exact State.counted_good h
  · exact State.applySignal_good h

theorem State.restoreSess_good {s₀ s} {a0 a1} (h : Good s₀ s) : Good s₀ (State.restoreSess s a0 a1) := by
  unfold State.restoreSess
  extract_lets +onlyGivenNames s0 s1
  have hs1 : Good s₀ s1 := Good.set h
  clear_value s1
  extract_lets +onlyGivenNames s4
  have hs4 : Good s₀ s4 := by
    subst s4
    refine Good.foldl ?_ hs1
    intro s11 x11_1 h11_2
    obtain ⟨y12, zy12⟩ := x11_1
    dsimp -zeta -zetaHave only
    exact State.updSess_good h11_2
  clear_value s4
  exact Good.set hs4

theorem State.holdAgain_good {s₀ s} {a0} (h : Good s₀ s) : Good s₀ (State.holdAgain s a0) := by
  unfold State.holdAgain
  split
  · exact h
  · extract_lets +onlyGivenNames s2
    extract_lets +onlyGivenNames s3 s4
    exact Good.set h

theorem State.redoLaunches_good {s₀ s} {a0 a1 a2} (h : Good s₀ s) : Good s₀ (State.redoLaunches s a0 a1 a2) := by
  unfold State.redoLaunches
  extract_lets +onlyGivenNames s0
  have hs0 : Good s₀ s0 := by
    subst s0
    refine Good.foldl ?_ h
    intro s7 x7_1 h7_2
    exact State.holdAgain_good h7_2
  clear_value s0
  exact Good.set hs0

theorem State.redoCmds_good {s₀ s} {a0 a1} (h : Good s₀ s) : Good s₀ (State.redoCmds s a0 a1) := by
  unfold State.redoCmds
  extract_lets +onlyGivenNames s0 s1
  refine Good.foldl ?_ h
  intro s3 x3_1 h3_2
  extract_lets +onlyGivenNames s4
  exact State.updRing_good h3_2

theorem State.rollback_good {s₀ s} {a0 a1} (h : Good s₀ s) : Good s₀ (State.rollback s a0 a1) := by
  unfold State.rollback
  split
  · exact h
  · extract_lets +onlyGivenNames s2
    have hs2 : Good s₀ s2 := State.restoreSess_good (State.restoreCtrs_good h)
    clear_value s2
    extract_lets +onlyGivenNames s5
    have hs5 : Good s₀ s5 := State.redoLaunches_good (State.redoCmds_good hs2)
    clear_value s5
    exact Good.set hs5

theorem State.startReplay_good {s₀ s} {a0} (h : Good s₀ s) : Good s₀ (State.startReplay s a0) := by
  unfold State.startReplay
  extract_lets +onlyGivenNames s0
  have hs0 : Good s₀ s0 := by
    subst s0
    refine Good.foldl ?_ h
    intro s7 x7_1 h7_2
    obtain ⟨y8, zy8⟩ := x7_1
    dsimp -zeta -zetaHave only
    exact State.updSess_good h7_2
  clear_value s0
  exact Good.set hs0

theorem State.nextSuspect_good {s₀ s} (h : Good s₀ s) : Good s₀ (State.nextSuspect s) := by
  unfold State.nextSuspect
  split
  · extract_lets +onlyGivenNames s1
    extract_lets +onlyGivenNames s2
    have hs2 : Good s₀ s2 := Good.set h
    clear_value s2
    exact State.startReplay_good (State.setFld_good hs2)
  · extract_lets +onlyGivenNames s11
    have hs11 : Good s₀ s11 := State.setFld_good h
    clear_value s11
    exact Good.set hs11

theorem State.cpRelease_good {s₀ s} (h : Good s₀ s) : Good s₀ (State.cpRelease s) := by
  unfold State.cpRelease
  refine Good.ite h ?_
  extract_lets +onlyGivenNames s2 s3
  have hs3 : Good s₀ s3 := Good.set h
  clear_value s3
  extract_lets +onlyGivenNames s6
  have hs6 : Good s₀ s6 := by
    subst s6
    refine Good.foldl ?_ hs3
    intro s23 x23_1 h23_2
    split
    · exact State.rollback_good h23_2
    · exact Good.ite (State.rollback_good h23_2) h23_2
  clear_value s6
  extract_lets +onlyGivenNames s9
  have hs9 : Good s₀ s9 := by
    subst s9
    refine Good.foldl ?_ hs6
    intro s17 x17_1 h17_2
    exact State.raise_good h17_2
  clear_value s9
  exact State.nextSuspect_good (Good.set hs9)

theorem State.cpReset_good {s₀ s} (h : Good s₀ s) : Good s₀ (State.cpReset s) := by
  unfold State.cpReset
  split
  · exact h
  · extract_lets +onlyGivenNames s2
    have hs2 : Good s₀ s2 := Good.ite (State.setWord_good h) h
    clear_value s2
    extract_lets +onlyGivenNames s5
    have hs5 : Good s₀ s5 := State.giveServing_good (State.setMod_good hs2)
    clear_value s5
    extract_lets +onlyGivenNames s8 s9
    have hs9 : Good s₀ s9 := State.setFld_good (State.bump_good (State.setFld_good hs5))
    clear_value s9
    extract_lets +onlyGivenNames s12
    have hs12 : Good s₀ s12 := Good.ite (State.note_good hs9) hs9
    clear_value s12
    extract_lets +onlyGivenNames s15
    have hs15 : Good s₀ s15 := by
      subst s15
      refine Good.foldl ?_ hs12
      intro s38 x38_1 h38_2
      extract_lets +onlyGivenNames s39
      have hs39 : Good s₀ s39 := State.updTile_good h38_2
      clear_value s39
      exact State.setOwner_good hs39
    clear_value s15
    extract_lets +onlyGivenNames s18 s19
    have hs19 : Good s₀ s19 := State.endColls_good hs15
    clear_value s19
    extract_lets +onlyGivenNames s22 s23 s24
    have hs24 : Good s₀ s24 := Good.set hs19
    clear_value s24
    exact State.restartCopies_good (State.vacate_good hs24)

theorem State.leaveSuspect_good {s₀ s} (h : Good s₀ s) : Good s₀ (State.leaveSuspect s) := by
  unfold State.leaveSuspect
  exact State.nextSuspect_good (Good.set h)

theorem State.mcSave_good {s₀ s} (h : Good s₀ s) : Good s₀ (State.mcSave s) := by
  unfold State.mcSave
  exact Good.set h

theorem State.mcBoundary_good {s₀ s} (h : Good s₀ s) : Good s₀ (State.mcBoundary s) := by
  unfold State.mcBoundary
  refine Good.ite (State.mcSave_good h) ?_
  extract_lets +onlyGivenNames s3 s4
  have hs4 : Good s₀ s4 := Good.ite (State.setFlag_good h) (State.appendRec_good h)
  clear_value s4
  extract_lets +onlyGivenNames s7 s8
  have hs8 : Good s₀ s8 := by
    subst s8
    refine Good.foldl ?_ hs4
    intro s16 x16_1 h16_2
    exact State.updRing_good h16_2
  clear_value s8
  exact State.mcSave_good (Good.set hs8)

theorem State.recoverBoundary_good {s₀ s} (h : Good s₀ s) : Good s₀ (State.recoverBoundary s) := by
  unfold State.recoverBoundary
  extract_lets +onlyGivenNames s0
  refine Good.ite ?_ ?_
  · split
    · exact State.nextSuspect_good h
    · exact Good.ite (State.leaveSuspect_good h) (Good.ite (State.leaveSuspect_good (State.raise_good h)) (Good.set h))
  · refine Good.ite ?_ h
    extract_lets +onlyGivenNames s15
    have hs15 : Good s₀ s15 := State.setFld_good h
    clear_value s15
    extract_lets +onlyGivenNames s18
    have hs18 : Good s₀ s18 := by
      subst s18
      refine Good.foldl ?_ hs15
      intro s36 x36_1 h36_2
      exact State.startReplay_good h36_2
    clear_value s18
    extract_lets +onlyGivenNames s21
    have hs21 : Good s₀ s21 := Good.ite hs18 (State.setMod_good hs18)
    clear_value s21
    extract_lets +onlyGivenNames s24
    exact Good.ite hs21 (Good.set hs21)

theorem State.stopLaunch_good {s₀ s} {a0 a1 a2 a3} (h : Good s₀ s) : Good s₀ (State.stopLaunch s a0 a1 a2 a3) := by
  unfold State.stopLaunch
  extract_lets +onlyGivenNames s0
  have hs0 : Good s₀ s0 := State.updCmd_good h
  clear_value s0
  extract_lets +onlyGivenNames s3
  have hs3 : Good s₀ s3 := State.endLaunch_good (State.updLaunch_good hs0)
  clear_value s3
  extract_lets +onlyGivenNames s6 s7
  have hs7 : Good s₀ s7 := by
    subst s7
    refine Good.foldl ?_ hs3
    intro s14 x14_1 h14_2
    exact State.endItem_good h14_2
  clear_value s7
  exact State.raise_good hs7

theorem State.timeOut_good {s₀ s} {a0 a1} (h : Good s₀ s) : Good s₀ (State.timeOut s a0 a1) := by
  unfold State.timeOut
  extract_lets +onlyGivenNames s0 s1
  have hs1 : Good s₀ s1 := Good.set h
  clear_value s1
  extract_lets +onlyGivenNames s4
  have hs4 : Good s₀ s4 := State.endCmd_good (State.updCmd_good hs1)
  clear_value s4
  exact State.raise_good hs4

theorem State.ringTimeout_good {s₀ s} {a0 a1 a2} (h : Good s₀ s) : Good s₀ (State.ringTimeout s a0 a1 a2) := by
  unfold State.ringTimeout
  split
  · exact h
  · extract_lets +onlyGivenNames s2
    extract_lets +onlyGivenNames s3 s4 s5
    refine Good.ite ?_ ?_
    · split
      · subst s4
        dsimp -zeta -zetaHave only
        exact State.raise_good (State.endColl_good h)
      · exact State.timeOut_good h
    · refine Good.ite ?_ ?_
      · split
        · subst s5
          dsimp -zeta -zetaHave only
          exact State.judge_good h
        · extract_lets +onlyGivenNames s21
          refine Good.ite ?_ ?_
          · extract_lets +onlyGivenNames s23
            have hs23 : Good s₀ s23 := by
              subst s23
              split
              · extract_lets +onlyGivenNames s30
                have hs30 : Good s₀ s30 := State.releaseBuf_good h
                clear_value s30
                exact Good.set hs30
              · exact h
            clear_value s23
            exact State.timeOut_good hs23
          · refine Good.ite ?_ ?_
            · split
              · subst s4
                dsimp -zeta -zetaHave only
                exact State.raise_good (State.endColl_good h)
              · exact State.stopLaunch_good h
            · refine Good.ite (State.stopLaunch_good h) ?_
              subst s5
              dsimp -zeta -zetaHave only
              exact State.judge_good h
      · refine Good.ite (State.timeOut_good h) ?_
        subst s5
        dsimp -zeta -zetaHave only
        exact State.judge_good h

theorem State.ringTimers_good {s₀ s} {a0} (h : Good s₀ s) : Good s₀ (State.ringTimers s a0) := by
  unfold State.ringTimers
  refine Good.ite h ?_
  refine Good.foldl ?_ h
  intro s3 x3_1 h3_2
  exact State.updRing_good h3_2

theorem State.thawed_good {s₀ s} {a0} (h : Good s₀ s) : Good s₀ (State.thawed s a0) := by
  unfold State.thawed
  exact Good.ite (State.startReplay_good h) h

theorem execSuspectWindow_good {s₀ s} {a0 a1} (h : Good s₀ s) : GoodOut s₀ (execSuspectWindow a0 a1 s) := by
  unfold execSuspectWindow
  extract_lets +onlyGivenNames s0
  refine GoodOut.ite (GoodOut.next h) ?_
  extract_lets +onlyGivenNames s4
  have hs4 : Good s₀ s4 := State.raise_good h
  clear_value s4
  refine GoodOut.next ?_
  extract_lets +onlyGivenNames s8
  have hs8 : Good s₀ s8 := State.setFlag_good hs4
  clear_value s8
  exact Good.set hs8

theorem execEscalationWindowEnd_good {s₀ s} (h : Good s₀ s) : GoodOut s₀ (execEscalationWindowEnd s) := by
  unfold execEscalationWindowEnd
  exact GoodOut.ite (GoodOut.next (Good.set h)) (GoodOut.next h)

theorem execMcFailover_good {s₀ s} (h : Good s₀ s) : GoodOut s₀ (execMcFailover s) := by
  unfold execMcFailover
  exact GoodOut.ite (GoodOut.next h) (GoodOut.ite (GoodOut.next (State.note_good (Good.set h))) (GoodOut.next (State.moduleFault_good h)))

theorem execComputePartRelease_good {s₀ s} (h : Good s₀ s) : GoodOut s₀ (execComputePartRelease s) := by
  unfold execComputePartRelease
  exact GoodOut.next (State.cpRelease_good h)

theorem execSuspectReplayLimit_good {s₀ s} (h : Good s₀ s) : GoodOut s₀ (execSuspectReplayLimit s) := by
  unfold execSuspectReplayLimit
  split
  · exact GoodOut.ite (GoodOut.next (State.leaveSuspect_good h)) (GoodOut.next (State.leaveSuspect_good (State.raise_good h)))
  · exact GoodOut.next h

theorem execComputePartReset_good {s₀ s} (h : Good s₀ s) : GoodOut s₀ (execComputePartReset s) := by
  unfold execComputePartReset
  exact GoodOut.next (State.cpReset_good h)

theorem execCcFail_good {s₀ s} {a0} (h : Good s₀ s) : GoodOut s₀ (execCcFail a0 s) := by
  unfold execCcFail
  exact GoodOut.ite (GoodOut.next h) (GoodOut.next (State.computeFault_good h))

theorem execRingTimeout_good {s₀ s} {a0 a1 a2} (h : Good s₀ s) : GoodOut s₀ (execRingTimeout a0 a1 a2 s) := by
  unfold execRingTimeout
  exact GoodOut.ite (GoodOut.next h) (GoodOut.next (State.ringTimeout_good (State.updRing_good h)))

end Sys2Proof.Machine
end

