-- ==== Sys2Proof/Laws/Good/Power.lean ====
section
/-!
SUPPORT. Good/Power.lean: every operation of Machine/Power.lean keeps what `Good` says.
-/

namespace Sys2Proof.Machine

theorem State.chargeAt_good {s₀ s} {a0 a1 a2} (h : Good s₀ s) : Good s₀ (State.chargeAt s a0 a1 a2) := by
  unfold State.chargeAt
  extract_lets +onlyGivenNames s0 s1
  have hs1 : Good s₀ s1 := State.addQuad_good h
  clear_value s1
  exact Good.set hs1

theorem State.charge_good {s₀ s} {a0} (h : Good s₀ s) : Good s₀ (State.charge s a0) := by
  unfold State.charge
  extract_lets +onlyGivenNames s0
  have hs0 : Good s₀ s0 := by
    subst s0
    refine Good.foldl ?_ (State.chargeAt_good h)
    intro s10 x10_1 h10_2
    obtain ⟨y11, zy11⟩ := x10_1
    dsimp -zeta -zetaHave only
    exact State.chargeAt_good h10_2
  clear_value s0
  refine Good.foldl ?_ hs0
  intro s4 x4_1 h4_2
  exact State.setQuad_good h4_2

theorem State.showDies_good {s₀ s} (h : Good s₀ s) : Good s₀ (State.showDies s) := by
  unfold State.showDies
  refine Good.foldl ?_ h
  intro s1 x1_1 h1_2
  split
  extract_lets +onlyGivenNames s3
  have hs3 : Good s₀ s3 := Good.ite h1_2 (State.event_good h1_2)
  clear_value s3
  exact State.setFld_good (State.setFld_good (State.setFld_good hs3))

theorem State.showLimits_good {s₀ s} (h : Good s₀ s) : Good s₀ (State.showLimits s) := by
  unfold State.showLimits
  refine Good.foldl ?_ h
  intro s1 x1_1 h1_2
  exact State.setFld_good (State.setFld_good h1_2)

theorem State.modLimit_good {s₀ s} {a0} (h : Good s₀ s) : Good s₀ (State.modLimit s a0) := by
  unfold State.modLimit
  exact Good.ite (State.setFld_good h) (State.setFlag_good h)

theorem State.phaseSample_good {s₀ s} {a0 a1 a2 a3} (h : Good s₀ s) : Good s₀ (State.phaseSample s a0 a1 a2 a3) := by
  unfold State.phaseSample
  extract_lets +onlyGivenNames s0 s1
  clear_value s1
  split
  · exact Good.ite h (State.makeDue_good h)
  · exact h

theorem State.railSample_good {s₀ s} {a0 a1} (h : Good s₀ s) : Good s₀ (State.railSample s a0 a1) := by
  unfold State.railSample
  extract_lets +onlyGivenNames s0 s1 s2 s3
  have hs3 : Good s₀ s3 := Good.set h
  clear_value s3
  extract_lets +onlyGivenNames s6 s7 s8
  have hs8 : Good s₀ s8 := State.setFld_good (State.setFld_good hs3)
  clear_value s8
  exact Good.ite (State.setFld_good hs8) hs8

theorem State.powerSample_good {s₀ s} {a0} (h : Good s₀ s) : Good s₀ (State.powerSample s a0) := by
  unfold State.powerSample
  extract_lets +onlyGivenNames s0 s1 s2 s3
  have hs3 : Good s₀ s3 := Good.set h
  clear_value s3
  extract_lets +onlyGivenNames s6
  have hs6 : Good s₀ s6 := State.setFld_good (State.setFld_good hs3)
  clear_value s6
  refine Good.ite hs6 ?_
  extract_lets +onlyGivenNames s11
  have hs11 : Good s₀ s11 := State.showLimits_good hs6
  clear_value s11
  extract_lets +onlyGivenNames s14
  have hs14 : Good s₀ s14 := by
    subst s14
    refine Good.foldl ?_ hs11
    intro s47 x47_1 h47_2
    obtain ⟨y48, zy48⟩ := x47_1
    dsimp -zeta -zetaHave only
    exact State.railSample_good h47_2
  clear_value s14
  extract_lets +onlyGivenNames s17 s18 s19
  have hs19 : Good s₀ s19 := Good.set hs14
  clear_value s19
  extract_lets +onlyGivenNames s22
  have hs22 : Good s₀ s22 := State.showDies_good (State.setFlag_good hs19)
  clear_value s22
  extract_lets +onlyGivenNames s25
  have hs25 : Good s₀ s25 := by
    subst s25
    refine Good.foldl ?_ hs22
    intro s32 x32_1 h32_2
    obtain ⟨y33, zy33⟩ := x32_1
    dsimp -zeta -zetaHave only
    exact State.phaseSample_good h32_2
  clear_value s25
  exact State.charge_good hs25

theorem State.sensor_good {s₀ s} {a0 a1 a2} (h : Good s₀ s) : GoodL s₀ (State.sensor s a0 a1 a2) := by
  unfold State.sensor
  extract_lets +onlyGivenNames s0 s1 s2
  have hs2 : Good s₀ s2 := Good.ite (Good.ite h (State.alert_good (State.note_good (Good.set h)))) (Good.set h)
  clear_value s2
  exact GoodL.ite (GoodL.mk (Good.set hs2)) (GoodL.mk (Good.set hs2))

theorem State.setTemp_good {s₀ s} {a0 a1} (h : Good s₀ s) : Good s₀ (State.setTemp s a0 a1) := by
  unfold State.setTemp
  extract_lets +onlyGivenNames s0 s1 s2 s3 s4 s5 s6 s7
  have hs7 : Good s₀ s7 := Good.set h
  clear_value s7
  exact State.setFld_good (State.setFld_good hs7)

theorem State.tempSample_good {s₀ s} {a0} (h : Good s₀ s) : Good s₀ (State.tempSample s a0) := by
  unfold State.tempSample
  extract_lets +onlyGivenNames s0
  split
  extract_lets +onlyGivenNames s2 s3
  have hs3 : Good s₀ s3 := by
    subst s3
    refine Good.foldl ?_ ?_
    · intro s42 x42_1 h42_2
      extract_lets +onlyGivenNames s43
      exact State.setTemp_good h42_2
    · refine GoodL.eq (by assumption) ?_
      refine GoodL.foldl ?_ (GoodL.mk h)
      intro s48 x48_1 x48_2 h48_3
      obtain ⟨y49, zy49⟩ := x48_2
      dsimp -zeta -zetaHave only
      exact GoodL.mk (GoodL.out (State.sensor_good h48_3))
  clear_value s3
  extract_lets +onlyGivenNames s6 s7 s8
  have hs8 : Good s₀ s8 := State.alert_good (Good.set hs3)
  clear_value s8
  extract_lets +onlyGivenNames s11
  have hs11 : Good s₀ s11 := by
    subst s11
    refine Good.foldl ?_ hs8
    intro s32 x32_1 h32_2
    exact State.setFld_good h32_2
  clear_value s11
  extract_lets +onlyGivenNames s14
  have hs14 : Good s₀ s14 := by
    subst s14
    split
    · exact hs3
    · exact State.computeFault_good (State.showDies_good hs11)
  clear_value s14
  split
  · exact hs14
  · exact Good.ite (State.computeFault_good hs14) (State.moduleFault_good hs14)

theorem execPwrModLimitWrite_good {s₀ s} {a0} (h : Good s₀ s) : GoodOut s₀ (execPwrModLimitWrite a0 s) := by
  unfold execPwrModLimitWrite
  exact GoodOut.ite (GoodOut.next h) (GoodOut.next (State.modLimit_good (Good.ite (State.setFlag_good h) h)))

theorem execThrottleLow_good {s₀ s} {a0} (h : Good s₀ s) : GoodOut s₀ (execThrottleLow a0 s) := by
  unfold execThrottleLow
  exact GoodOut.ite (GoodOut.next h) (GoodOut.next (Good.set h))

theorem execRailFault_good {s₀ s} {a0} (h : Good s₀ s) : GoodOut s₀ (execRailFault a0 s) := by
  unfold execRailFault
  exact GoodOut.ite (GoodOut.next h) (GoodOut.ite (GoodOut.next (State.computeFault_good h)) (GoodOut.next (State.moduleFault_good h)))

theorem execPowerGoodLoss_good {s₀ s} {a0} (h : Good s₀ s) : GoodOut s₀ (execPowerGoodLoss a0 s) := by
  unfold execPowerGoodLoss
  refine GoodOut.ite (GoodOut.next h) ?_
  extract_lets +onlyGivenNames s3
  have hs3 : Good s₀ s3 := State.alert_good (State.fullReset_good h)
  clear_value s3
  extract_lets +onlyGivenNames s6 s7 s8
  have hs8 : Good s₀ s8 := Good.set hs3
  clear_value s8
  exact GoodOut.next (Good.ite (Good.set hs8) hs8)

theorem execThrottleHigh_good {s₀ s} {a0} (h : Good s₀ s) : GoodOut s₀ (execThrottleHigh a0 s) := by
  unfold execThrottleHigh
  refine GoodOut.ite (GoodOut.next h) ?_
  extract_lets +onlyGivenNames s3 s4
  have hs4 : Good s₀ s4 := Good.ite (State.bump_good h) h
  clear_value s4
  exact GoodOut.next (Good.set hs4)

theorem execConverterFail_good {s₀ s} {a0} (h : Good s₀ s) : GoodOut s₀ (execConverterFail a0 s) := by
  unfold execConverterFail
  refine GoodOut.ite (GoodOut.next h) ?_
  extract_lets +onlyGivenNames s3 s4 s5 s6 s7
  have hs7 : Good s₀ s7 := Good.set h
  clear_value s7
  extract_lets +onlyGivenNames s10
  have hs10 : Good s₀ s10 := State.alert_good (State.setFlag_good (State.setFlag_good hs7))
  clear_value s10
  extract_lets +onlyGivenNames s13
  have hs13 : Good s₀ s13 := State.modEvent_good hs10
  clear_value s13
  exact GoodOut.ite (GoodOut.next (State.note_good hs13)) (GoodOut.next (State.halt_good (State.fullReset_good (State.moduleEntry_good hs13))))

theorem execDroopDetect_good {s₀ s} {a0} (h : Good s₀ s) : GoodOut s₀ (execDroopDetect a0 s) := by
  unfold execDroopDetect
  exact GoodOut.ite (GoodOut.next h) (GoodOut.next (State.showDies_good (State.bump_good (Good.set h))))

theorem execTempSample_good {s₀ s} {a0} (h : Good s₀ s) : GoodOut s₀ (execTempSample a0 s) := by
  unfold execTempSample
  exact GoodOut.ite (GoodOut.next h) (GoodOut.next (State.tempSample_good h))

theorem execThrottleAccept_good {s₀ s} {a0} (h : Good s₀ s) : GoodOut s₀ (execThrottleAccept a0 s) := by
  unfold execThrottleAccept
  split
  · exact GoodOut.next h
  · refine GoodOut.ite (GoodOut.next h) ?_
    extract_lets +onlyGivenNames s6
    have hs6 : Good s₀ s6 := State.modEvent_good (State.bump_good (State.setFlag_good (State.setFlag_good h)))
    clear_value s6
    exact GoodOut.next (State.showDies_good (Good.set hs6))

theorem execThrottleRelease_good {s₀ s} {a0} (h : Good s₀ s) : GoodOut s₀ (execThrottleRelease a0 s) := by
  unfold execThrottleRelease
  split
  · exact GoodOut.ite (GoodOut.next h) (GoodOut.next (State.showDies_good (State.setFlag_good (Good.set h))))
  · exact GoodOut.next h

theorem execDroopRelease_good {s₀ s} {a0} (h : Good s₀ s) : GoodOut s₀ (execDroopRelease a0 s) := by
  unfold execDroopRelease
  exact GoodOut.next (State.showDies_good (Good.set h))

theorem execPowerSample_good {s₀ s} {a0} (h : Good s₀ s) : GoodOut s₀ (execPowerSample a0 s) := by
  unfold execPowerSample
  exact GoodOut.next (State.powerSample_good h)

theorem execThermalUpdate_good {s₀ s} (h : Good s₀ s) : GoodOut s₀ (execThermalUpdate s) := by
  unfold execThermalUpdate
  refine GoodOut.ite (GoodOut.next h) ?_
  refine GoodOut.next ?_
  refine State.showDies_good ?_
  refine Good.foldl ?_ h
  intro s6 x6_1 h6_2
  extract_lets +onlyGivenNames s7 s8 s9
  refine Good.ite ?_ ?_
  · subst s9
    dsimp -zeta -zetaHave only
    exact State.setFld_good h6_2
  · extract_lets +onlyGivenNames s15
    extract_lets +onlyGivenNames s16
    have hs16 : Good s₀ s16 := Good.set h6_2
    clear_value s16
    refine Good.ite ?_ ?_
    · subst s9
      dsimp -zeta -zetaHave only
      exact State.setFld_good hs16
    · refine Good.ite hs16 ?_
      subst s9
      dsimp -zeta -zetaHave only
      exact State.setFld_good hs16

end Sys2Proof.Machine
end

