-- ==== Sys2Proof/Laws/Good/Ports.lean ====
section
/-!
SUPPORT. Good/Ports.lean: every operation of Machine/Ports.lean keeps what `Good` says.
-/

namespace Sys2Proof.Machine

theorem State.setTap_good {s₀ s} {a0 a1} (h : Good s₀ s) : Good s₀ (State.setTap s a0 a1) := by
  unfold State.setTap
  exact Good.set h

theorem State.levels_good {s₀ s} (h : Good s₀ s) : GoodR s₀ (State.levels s) := by
  unfold State.levels
  generalize he0 : State.free _ = e0
  obtain ⟨xe0, se0⟩ := e0
  have hse0 : Good s₀ se0 := (GoodR.eq he0 (State.free_good h))
  clear he0
  dsimp -zeta -zetaHave only
  extract_lets +onlyGivenNames s5
  exact GoodR.mk hse0

theorem State.boundaryScan_good {s₀ s} {a0 a1} (h : Good s₀ s) : Good s₀ (State.boundaryScan s a0 a1) := by
  unfold State.boundaryScan
  refine Good.ite h ?_
  generalize he2 : State.levels _ = e2
  obtain ⟨xe2, se2⟩ := e2
  have hse2 : Good s₀ se2 := (GoodR.eq he2 (State.levels_good h))
  clear he2
  dsimp -zeta -zetaHave only
  exact State.send_good (State.setTap_good hse2)

theorem State.vitBoundary_good {s₀ s} (h : Good s₀ s) : Good s₀ (State.vitBoundary s) := by
  unfold State.vitBoundary
  extract_lets +onlyGivenNames s0 s1 s2
  have hs2 : Good s₀ s2 := Good.ite (State.setFlag_good (State.setQuad_good h)) h
  clear_value s2
  extract_lets +onlyGivenNames s5
  have hs5 : Good s₀ s5 := Good.ite (State.setFlag_good hs2) (Good.ite (State.setFlag_good hs2) hs2)
  clear_value s5
  exact Good.set hs5

theorem State.smbRead_good {s₀ s} {a0} (h : Good s₀ s) : Good s₀ (State.smbRead s a0) := by
  unfold State.smbRead
  exact Good.ite (State.send_good h) (State.send_good h)

theorem execSmbPosition_good {s₀ s} (h : Good s₀ s) : GoodOut s₀ (execSmbPosition s) := by
  unfold execSmbPosition
  exact GoodOut.next (State.smbRead_good h)

theorem execSmbStatus_good {s₀ s} (h : Good s₀ s) : GoodOut s₀ (execSmbStatus s) := by
  unfold execSmbStatus
  extract_lets +onlyGivenNames s0
  exact GoodOut.next (State.smbRead_good h)

theorem execSmbAlert_good {s₀ s} (h : Good s₀ s) : GoodOut s₀ (execSmbAlert s) := by
  unfold execSmbAlert
  exact GoodOut.next (State.smbRead_good h)

theorem execJtagIdcode_good {s₀ s} (h : Good s₀ s) : GoodOut s₀ (execJtagIdcode s) := by
  unfold execJtagIdcode
  exact GoodOut.ite (GoodOut.next h) (GoodOut.next (State.send_good (State.setTap_good h)))

theorem execSmbPower_good {s₀ s} (h : Good s₀ s) : GoodOut s₀ (execSmbPower s) := by
  unfold execSmbPower
  exact GoodOut.next (State.smbRead_good h)

theorem execVitRestart_good {s₀ s} (h : Good s₀ s) : GoodOut s₀ (execVitRestart s) := by
  unfold execVitRestart
  exact GoodOut.ite (GoodOut.next h) (GoodOut.next (Good.set h))

theorem execSmbIdent_good {s₀ s} (h : Good s₀ s) : GoodOut s₀ (execSmbIdent s) := by
  unfold execSmbIdent
  exact GoodOut.next (State.smbRead_good h)

theorem execSmbTemp_good {s₀ s} (h : Good s₀ s) : GoodOut s₀ (execSmbTemp s) := by
  unfold execSmbTemp
  extract_lets +onlyGivenNames s0 s1 s2
  exact GoodOut.next (State.smbRead_good h)

theorem execTraceFrameSend_good {s₀ s} (h : Good s₀ s) : GoodOut s₀ (execTraceFrameSend s) := by
  unfold execTraceFrameSend
  exact GoodOut.ite (GoodOut.next (State.sendFrame_good h)) (GoodOut.next h)

theorem execJtagBypass_good {s₀ s} {a0 a1} (h : Good s₀ s) : GoodOut s₀ (execJtagBypass a0 a1 s) := by
  unfold execJtagBypass
  exact GoodOut.ite (GoodOut.next h) (GoodOut.next (State.send_good (State.setTap_good h)))

theorem execSmbUnlistedCommand_good {s₀ s} (h : Good s₀ s) : GoodOut s₀ (execSmbUnlistedCommand s) := by
  unfold execSmbUnlistedCommand
  exact GoodOut.next (State.send_good h)

theorem execJtagSamplePreload_good {s₀ s} {a0} (h : Good s₀ s) : GoodOut s₀ (execJtagSamplePreload a0 s) := by
  unfold execJtagSamplePreload
  exact GoodOut.next (State.boundaryScan_good h)

theorem execSmbAlertClr_good {s₀ s} {a0} (h : Good s₀ s) : GoodOut s₀ (execSmbAlertClr a0 s) := by
  unfold execSmbAlertClr
  refine GoodOut.ite (GoodOut.next (State.send_good h)) ?_
  extract_lets +onlyGivenNames s4
  exact GoodOut.next (Good.set h)

theorem execJtagExtest_good {s₀ s} {a0} (h : Good s₀ s) : GoodOut s₀ (execJtagExtest a0 s) := by
  unfold execJtagExtest
  exact GoodOut.next (State.boundaryScan_good h)

end Sys2Proof.Machine
end

