-- ==== Sys2Proof/Laws/Good/Start.lean ====
section
/-!
SUPPORT. Good/Start.lean: every operation of Machine/Start.lean keeps what `Good` says.
-/

namespace Sys2Proof.Machine

/-- The SVN fuses only rise (R31). -/
theorem blowSvn_after (f : Fuses) (v : BitVec 8) : fusesAfter f (f.blowSvn v) = true := by
  have h := fusesAfter_refl f
  unfold Fuses.blowSvn
  split
  · rename_i hv
    simp only [fusesAfter, Bool.and_eq_true, decide_eq_true_eq] at h ⊢
    exact ⟨⟨BitVec.le_of_lt hv, h.1.2⟩, h.2⟩
  · exact h

theorem State.startPair_good {s₀ s} (h : Good s₀ s) : Good s₀ (State.startPair s) := by
  unfold State.startPair
  extract_lets +onlyGivenNames s0
  exact Good.ite (State.modEvent_good (State.setFlag_good h)) (Good.ite (Good.set h) h)

theorem State.startTenant_good {s₀ s} {a0 a1} (h : Good s₀ s) : Good s₀ (State.startTenant s a0 a1) := by
  unfold State.startTenant
  split
  · exact h
  · extract_lets +onlyGivenNames s2
    have hs2 : Good s₀ s2 := State.setFld_good (State.setFlag_good (State.setTState_good h))
    clear_value s2
    extract_lets +onlyGivenNames s5
    have hs5 : Good s₀ s5 := State.setFld_good (State.setFld_good hs2)
    clear_value s5
    extract_lets +onlyGivenNames s8
    have hs8 : Good s₀ s8 := State.setFlag_good hs5
    clear_value s8
    extract_lets +onlyGivenNames s11
    exact State.setWord_good (State.setWord_good hs8)

theorem State.startRegs_good {s₀ s} {a0} (h : Good s₀ s) : Good s₀ (State.startRegs s a0) := by
  unfold State.startRegs
  extract_lets +onlyGivenNames s0
  have hs0 : Good s₀ s0 := State.setWord_good h
  clear_value s0
  extract_lets +onlyGivenNames s3
  have hs3 : Good s₀ s3 := State.setFld_good hs0
  clear_value s3
  extract_lets +onlyGivenNames s6
  have hs6 : Good s₀ s6 := State.setFld_good (State.setFld_good hs3)
  clear_value s6
  extract_lets +onlyGivenNames s9
  have hs9 : Good s₀ s9 := State.showLimits_good (State.setFld_good hs6)
  clear_value s9
  extract_lets +onlyGivenNames s12
  have hs12 : Good s₀ s12 := State.setWord_good (State.setWord_good (State.setWord_good hs9))
  clear_value s12
  extract_lets +onlyGivenNames s15
  have hs15 : Good s₀ s15 := Good.ite (State.setFlag_good hs12) (State.setFld_good hs12)
  clear_value s15
  exact Good.set hs15

theorem State.enterServing_good {s₀ s} {a0} (h : Good s₀ s) : Good s₀ (State.enterServing s a0) := by
  unfold State.enterServing
  split
  · exact h
  extract_lets +onlyGivenNames who alone s1
  have h1 : Good s₀ s1 := by
    exact State.showKeys_good ⟨h.tidy, h.queue, h.sent, h.drawn, fusesAfter_trans h.fuses (blowSvn_after _ _)⟩
  clear_value s1
  extract_lets +onlyGivenNames s0
  have hs0 : Good s₀ s0 := by
    subst s0
    refine Good.foldl ?_ h1
    intro s29 x29_1 h29_2
    exact State.startTenant_good h29_2
  clear_value s0
  extract_lets +onlyGivenNames s3
  have hs3 : Good s₀ s3 := State.startPair_good (State.startRegs_good hs0)
  clear_value s3
  extract_lets +onlyGivenNames s6 s7 s8 s9
  have hs9 : Good s₀ s9 := Good.set hs3
  clear_value s9
  extract_lets +onlyGivenNames s12
  have hs12 : Good s₀ s12 := State.setMod_good hs9
  clear_value s12
  exact State.showDies_good hs12

theorem State.markSkipped_good {s₀ s} {a0} (h : Good s₀ s) : Good s₀ (State.markSkipped s a0) := by
  unfold State.markSkipped
  refine Good.foldl ?_ h
  intro s1 x1_1 h1_2
  refine Good.foldl ?_ h1_2
  intro s3 x3_1 h3_2
  exact State.updPtile_good h3_2

theorem State.replayRec_good {s₀ s} {a0} (h : Good s₀ s) : Good s₀ (State.replayRec s a0) := by
  unfold State.replayRec
  split
  · exact State.updPort_good h
  · exact Good.set h
  · exact Good.set h
  · exact State.applySwap_good h

theorem State.setStep_good {s₀ s} {a0} (h : Good s₀ s) : Good s₀ (State.setStep s a0) := by
  unfold State.setStep
  exact State.setFld_good h

theorem State.showCat_good {s₀ s} {a0} (h : Good s₀ s) : Good s₀ (State.showCat s a0) := by
  unfold State.showCat
  extract_lets +onlyGivenNames s0
  have hs0 : Good s₀ s0 := State.setQuad_good (State.setWord_good h)
  clear_value s0
  extract_lets +onlyGivenNames s3
  have hs3 : Good s₀ s3 := State.setFlag_good (State.setFld_good hs0)
  clear_value s3
  exact State.setBytes_good (State.setQuad_good hs3)

theorem State.startAt_good {s₀ s} {a0 f} (hf : ∀ s, Good s₀ s → Good s₀ (f s)) (h : Good s₀ s) : Good s₀ (State.startAt s a0 f) := by
  unfold State.startAt
  exact Good.ite (hf _ h) h

theorem State.startCatalogue_good {s₀ s} {a0} (h : Good s₀ s) : Good s₀ (State.startCatalogue s a0) := by
  unfold State.startCatalogue
  extract_lets +onlyGivenNames s0
  have hs0 : Good s₀ s0 := State.setFld_good h
  clear_value s0
  extract_lets +onlyGivenNames s3 s4
  have hs4 : Good s₀ s4 := Good.set hs0
  clear_value s4
  split
  · exact State.halt_good hs4
  · extract_lets +onlyGivenNames s10
    have hs10 : Good s₀ s10 := State.setFlag_good (State.setFld_good hs4)
    clear_value s10
    split
    · exact State.halt_good hs10
    · extract_lets +onlyGivenNames s16
      extract_lets +onlyGivenNames s17
      have hs17 : Good s₀ s17 := State.showCat_good (Good.set hs10)
      clear_value s17
      exact Good.ite (State.halt_good hs17) (State.setStep_good hs17)

theorem State.startRec_good {s₀ s} {a0} (h : Good s₀ s) : Good s₀ (State.startRec s a0) := by
  unfold State.startRec
  exact Good.ite (State.setFlag_good h) (State.appendRec_good h)

theorem State.startSwaps_good {s₀ s} (h : Good s₀ s) : Good s₀ (State.startSwaps s) := by
  unfold State.startSwaps
  extract_lets +onlyGivenNames s0 s1 s2
  have hs2 : Good s₀ s2 := Good.set h
  clear_value s2
  refine Good.foldl ?_ hs2
  intro s6 x6_1 h6_2
  exact State.endSwap_good (State.startRec_good h6_2)

theorem State.startFail_good {s₀ s} {a0 a1 a2} (h : Good s₀ s) : Good s₀ (State.startFail s a0 a1 a2) := by
  unfold State.startFail
  extract_lets +onlyGivenNames s0
  have hs0 : Good s₀ s0 := by
    subst s0
    split
    · exact State.retire_good h
    · exact Good.ite (State.retire_good h) (State.unitFails_good h)
    · exact State.unitFails_good h
  clear_value s0
  exact State.startSwaps_good hs0

theorem State.startCompute_good {s₀ s} {a0} (h : Good s₀ s) : Good s₀ (State.startCompute s a0) := by
  unfold State.startCompute
  refine Good.ite (State.halt_good h) ?_
  extract_lets +onlyGivenNames s3 s4 s5
  have hs5 : Good s₀ s5 := by
    subst s5
    refine Good.foldl ?_ h
    intro s25 x25_1 h25_2
    obtain ⟨y26, zy26⟩ := x25_1
    dsimp -zeta -zetaHave only
    exact State.startFail_good h25_2
  clear_value s5
  extract_lets +onlyGivenNames s8 s9 s10 s11
  have hs11 : Good s₀ s11 := by
    subst s11
    refine Good.sets hs5 ?_ (fun _ => rfl) ?_ (fun _ => rfl)
    · with_reducible exact id
    · with_reducible exact id
  clear_value s11
  exact State.setStep_good hs11

theorem State.startFirmware_good {s₀ s} (h : Good s₀ s) : Good s₀ (State.startFirmware s) := by
  unfold State.startFirmware
  split
  · exact State.halt_good (Good.set h)
  · extract_lets +onlyGivenNames s4
    extract_lets +onlyGivenNames s5
    have hs5 : Good s₀ s5 := Good.set h
    clear_value s5
    extract_lets +onlyGivenNames s8
    have hs8 : Good s₀ s8 := State.setFlag_good (State.setFld_good hs5)
    clear_value s8
    exact State.setStep_good (State.setWord_good (State.setWord_good hs8))

theorem State.startHbm_good {s₀ s} {a0} (h : Good s₀ s) : Good s₀ (State.startHbm s a0) := by
  unfold State.startHbm
  refine Good.ite (State.halt_good h) ?_
  refine State.setStep_good ?_
  refine Good.foldl ?_ h
  intro s5 x5_1 h5_2
  obtain ⟨y6, zy6⟩ := x5_1
  dsimp -zeta -zetaHave only
  refine Good.ite h5_2 ?_
  extract_lets +onlyGivenNames s10
  exact State.applySwap_good (State.startRec_good h5_2)

theorem State.startLinks_good {s₀ s} (h : Good s₀ s) : Good s₀ (State.startLinks s) := by
  unfold State.startLinks
  extract_lets +onlyGivenNames s0
  have hs0 : Good s₀ s0 := by
    subst s0
    refine Good.foldl ?_ h
    intro s8 x8_1 h8_2
    extract_lets +onlyGivenNames s9
    have hs9 : Good s₀ s9 := State.setFlag_good h8_2
    clear_value s9
    exact Good.ite (State.setAtt_good (State.setFld_good (State.setFld_good hs9))) hs9
  clear_value s0
  exact State.setPort_good (State.setPort_good hs0)

theorem State.startJoin_good {s₀ s} (h : Good s₀ s) : Good s₀ (State.startJoin s) := by
  unfold State.startJoin
  exact Good.ite (State.startLinks_good h) (Good.ite (State.flood_good (State.setStep_good (Good.set h))) h)

theorem State.startMap_good {s₀ s} (h : Good s₀ s) : Good s₀ (State.startMap s) := by
  unfold State.startMap
  extract_lets +onlyGivenNames s0
  have hs0 : Good s₀ s0 := Good.set h
  clear_value s0
  extract_lets +onlyGivenNames s3 s4
  have hs4 : Good s₀ s4 := by
    subst s4
    refine Good.foldl ?_ (State.markSkipped_good hs0)
    intro s21 x21_1 h21_2
    exact State.replayRec_good h21_2
  clear_value s4
  extract_lets +onlyGivenNames s7
  have hs7 : Good s₀ s7 := by
    subst s7
    refine Good.foldl ?_ hs4
    intro s15 x15_1 h15_2
    exact State.showWidth_good h15_2
  clear_value s7
  exact State.setStep_good (Good.set hs7)

theorem State.startRails_good {s₀ s} {a0} (h : Good s₀ s) : Good s₀ (State.startRails s a0) := by
  unfold State.startRails
  extract_lets +onlyGivenNames s0 s1
  have hs1 : Good s₀ s1 := Good.set h
  clear_value s1
  exact Good.ite (State.halt_good hs1) (State.setStep_good (Good.set hs1))

theorem State.startTick_good {s₀ s} (h : Good s₀ s) : Good s₀ (State.startTick s) := by
  unfold State.startTick
  refine Good.ite h ?_
  extract_lets +onlyGivenNames s2 s3
  have hs3 : Good s₀ s3 := Good.ite h (State.sendCtl_good (Good.set h))
  clear_value s3
  exact State.setStep_good hs3

theorem execStartSequence_good {s₀ s} {a0 a1} (h : Good s₀ s) : GoodOut s₀ (execStartSequence a0 a1 s) := by
  unfold execStartSequence
  refine GoodOut.ite (GoodOut.next h) ?_
  extract_lets +onlyGivenNames s3
  have hs3 : Good s₀ s3 := by
    subst s3
    refine State.startAt_good ?_ ?_
    · intro s46 h46_1
      exact State.startCatalogue_good h46_1
    · refine State.startAt_good ?_ h
      intro s50 h50_1
      exact State.startFirmware_good h50_1
  clear_value s3
  extract_lets +onlyGivenNames s6
  have hs6 : Good s₀ s6 := by
    subst s6
    refine State.startAt_good ?_ ?_
    · intro s32 h32_1
      exact State.startHbm_good h32_1
    · refine State.startAt_good ?_ ?_
      · intro s36 h36_1
        exact State.startMap_good h36_1
      · refine State.startAt_good ?_ hs3
        intro s40 h40_1
        exact State.startRails_good h40_1
  clear_value s6
  extract_lets +onlyGivenNames s9
  have hs9 : Good s₀ s9 := by
    subst s9
    refine State.startAt_good ?_ ?_
    · intro s22 h22_1
      exact State.startTick_good h22_1
    · refine State.startAt_good ?_ hs6
      intro s26 h26_1
      exact State.startJoin_good h26_1
  clear_value s9
  refine GoodOut.next ?_
  refine Good.ite hs9 ?_
  refine State.startAt_good ?_ hs9
  intro s16 h16_1
  exact State.startCompute_good h16_1

end Sys2Proof.Machine
end

