-- ==== Sys2Proof/Laws/Good/Boundary.lean ====
section
/-!
SUPPORT. Good/Boundary.lean: every operation of Machine/Boundary.lean keeps what `Good` says.
-/

namespace Sys2Proof.Machine

theorem State.closeAll_good {s₀ s} (h : Good s₀ s) : Good s₀ (State.closeAll s) := by
  unfold State.closeAll
  extract_lets +onlyGivenNames s0
  have hs0 : Good s₀ s0 := by
    subst s0
    refine Good.foldl ?_ h
    intro s7 x7_1 h7_2
    exact State.closeEntry_good h7_2
  clear_value s0
  exact Good.set hs0

theorem State.derateBoundary_good {s₀ s} (h : Good s₀ s) : Good s₀ (State.derateBoundary s) := by
  unfold State.derateBoundary
  exact Good.ite (State.setMod_good h) h

theorem State.endCopies_good {s₀ s} (h : Good s₀ s) : Good s₀ (State.endCopies s) := by
  unfold State.endCopies
  refine Good.foldl ?_ h
  intro s1 x1_1 h1_2
  exact State.endCopy_good h1_2

theorem State.epochBoundary_good {s₀ s} {a0} (h : Good s₀ s) : Good s₀ (State.epochBoundary s a0) := by
  unfold State.epochBoundary
  refine Good.ite h ?_
  extract_lets +onlyGivenNames s2 s3
  exact Good.ite (State.epoch_good h) (Good.set h)

theorem State.holdBoundary_good {s₀ s} (h : Good s₀ s) : Good s₀ (State.holdBoundary s) := by
  unfold State.holdBoundary
  refine Good.ite ?_ ?_
  · extract_lets +onlyGivenNames s1
    have hs1 : Good s₀ s1 := State.giveServing_good (State.setMod_good h)
    clear_value s1
    exact Good.set hs1
  · refine Good.ite ?_ h
    extract_lets +onlyGivenNames s11 s12 s13 s14
    have hs14 : Good s₀ s14 := Good.set h
    clear_value s14
    refine Good.ite ?_ hs14
    extract_lets +onlyGivenNames s18
    have hs18 : Good s₀ s18 := State.setMod_good hs14
    clear_value s18
    extract_lets +onlyGivenNames s21
    exact Good.ite hs18 (Good.set hs18)

theorem State.metaBoundary_good {s₀ s} (h : Good s₀ s) : Good s₀ (State.metaBoundary s) := by
  unfold State.metaBoundary
  generalize he0 : State.fresh _ = e0
  obtain ⟨xe0, se0⟩ := e0
  have hse0 : Good s₀ se0 := (GoodR.eq he0 (State.fresh_good h))
  clear he0
  dsimp -zeta -zetaHave only
  refine Good.foldl ?_ hse0
  intro s6 x6_1 h6_2
  exact Good.ite h6_2 (State.raise_good h6_2)

theorem State.pruneOverruns_good {s₀ s} {a0} (h : Good s₀ s) : Good s₀ (State.pruneOverruns s a0) := by
  unfold State.pruneOverruns
  extract_lets +onlyGivenNames s0
  exact State.updLadle_good h

theorem State.tenantBoundary_good {s₀ s} {a0} (h : Good s₀ s) : Good s₀ (State.tenantBoundary s a0) := by
  unfold State.tenantBoundary
  extract_lets +onlyGivenNames s0
  have hs0 : Good s₀ s0 := State.modeBoundary_good (State.twinFreezes_good h)
  clear_value s0
  extract_lets +onlyGivenNames s3
  have hs3 : Good s₀ s3 := State.wsetBoundary_good (State.thawed_good (State.unfreezeBoundary_good hs0))
  clear_value s3
  exact State.pruneOverruns_good (State.epochBoundary_good hs3)

theorem State.stepBoundary_good {s₀ s} (h : Good s₀ s) : Good s₀ (State.stepBoundary s) := by
  unfold State.stepBoundary
  extract_lets +onlyGivenNames s0
  have hs0 : Good s₀ s0 := by
    subst s0
    refine Good.foldl ?_ h
    intro s14 x14_1 h14_2
    exact State.markLengths_good h14_2
  clear_value s0
  refine Good.ite hs0 ?_
  refine Good.foldl ?_ hs0
  intro s6 x6_1 h6_2
  exact Good.ite h6_2 (State.stepTenant_good h6_2)

theorem State.tickEvent_good {s₀ s} (h : Good s₀ s) : Good s₀ (State.tickEvent s) := by
  unfold State.tickEvent
  exact State.event_good h

theorem State.serveBoundary_good {s₀ s} {a0} (h : Good s₀ s) : Good s₀ (State.serveBoundary s a0) := by
  unfold State.serveBoundary
  extract_lets +onlyGivenNames s0
  have hs0 : Good s₀ s0 := State.finishSaves_good (State.cpReset_good (State.closeAll_good h))
  clear_value s0
  extract_lets +onlyGivenNames s3
  have hs3 : Good s₀ s3 := State.vitBoundary_good (State.derateBoundary_good (State.wearBoundary_good hs0))
  clear_value s3
  extract_lets +onlyGivenNames s6
  have hs6 : Good s₀ s6 := State.pinBoundary_good (State.publishBoundary_good (State.tableSwitch_good (State.tickEvent_good hs3)))
  clear_value s6
  extract_lets +onlyGivenNames s9
  have hs9 : Good s₀ s9 := by
    subst s9
    refine Good.foldl ?_ hs6
    intro s51 x51_1 h51_2
    exact State.tenantBoundary_good h51_2
  clear_value s9
  extract_lets +onlyGivenNames s12
  have hs12 : Good s₀ s12 := State.mcBoundary_good (State.holdBoundary_good (State.recoverBoundary_good (State.pairBoundary_good hs9)))
  clear_value s12
  extract_lets +onlyGivenNames s15
  have hs15 : Good s₀ s15 := State.stepBoundary_good (State.endCopies_good (State.metaBoundary_good hs12))
  clear_value s15
  extract_lets +onlyGivenNames s18
  have hs18 : Good s₀ s18 := by
    subst s18
    refine Good.foldl ?_ hs15
    intro s33 x33_1 h33_2
    exact State.ringTimers_good (State.sendMark_good h33_2)
  clear_value s18
  extract_lets +onlyGivenNames s21
  have hs21 : Good s₀ s21 := State.checkpoint_good (State.collReach_good hs18)
  clear_value s21
  exact State.recoveryUe_good (State.newFlaws_good (Good.set hs21))

theorem execTickBoundary_good {s₀ s} {a0} (h : Good s₀ s) : GoodOut s₀ (execTickBoundary a0 s) := by
  unfold execTickBoundary
  refine GoodOut.ite (GoodOut.next h) ?_
  extract_lets +onlyGivenNames s3
  have hs3 : Good s₀ s3 := State.tickBoundary_good h
  clear_value s3
  extract_lets +onlyGivenNames s6
  have hs6 : Good s₀ s6 := Good.ite (State.enterServing_good hs3) hs3
  clear_value s6
  exact GoodOut.next (Good.ite (State.serveBoundary_good hs6) (State.mcBoundary_good hs6))

end Sys2Proof.Machine
end

