-- ==== Sys2Proof/Laws/Good/Packets.lean ====
section
/-!
SUPPORT. Good/Packets.lean: every operation of Machine/Packets.lean keeps what `Good` says.
-/

namespace Sys2Proof.Machine

theorem State.answered_good {s₀ s} {a0 a1} (h : Good s₀ s) : Good s₀ (State.answered s a0 a1) := by
  unfold State.answered
  split
  · exact Good.ite (State.settle_good h) (State.bump_good h)
  · exact State.endWork_good h
  · exact h

theorem State.logCtr_good {s₀ s} {a0 a1 a2 a3 a4} (h : Good s₀ s) : Good s₀ (State.logCtr s a0 a1 a2 a3 a4) := by
  unfold State.logCtr
  exact Good.set h

theorem State.lostPacket_good {s₀ s} {a0} (h : Good s₀ s) : Good s₀ (State.lostPacket s a0) := by
  unfold State.lostPacket
  split
  · extract_lets +onlyGivenNames s1
    have hs1 : Good s₀ s1 := State.bump_good h
    clear_value s1
    extract_lets +onlyGivenNames s4
    have hs4 : Good s₀ s4 := by
      subst s4
      refine Good.ite h ?_
      split
      · exact State.noteChan_good hs1
      · exact State.raise_good hs1
    clear_value s4
    exact State.settle_good hs4
  · exact State.endWork_good (State.updCmd_good (State.bump_good h))
  · exact State.collReach_good h
  · exact h

theorem State.takeSignal_good {s₀ s} {a0} (h : Good s₀ s) : Good s₀ (State.takeSignal s a0) := by
  unfold State.takeSignal
  extract_lets +onlyGivenNames s0 s1 s2
  exact Good.ite h (State.logCtr_good (State.applySignal_good h))

theorem State.takeWrite_good {s₀ s} {a0} (h : Good s₀ s) : Good s₀ (State.takeWrite s a0) := by
  unfold State.takeWrite
  split
  · exact State.collData_good h
  · generalize he3 : State.arriveWrite _ _ = e3
    obtain ⟨se3, xe3⟩ := e3
    have hse3 : Good s₀ se3 := (GoodL.eq he3 (State.arriveWrite_good h))
    clear he3
    dsimp -zeta -zetaHave only
    exact Good.ite (State.sendCtl_good (Good.set hse3)) (Good.ite (State.logCtr_good hse3) hse3)

theorem State.takeTable_good {s₀ s} {a0} (h : Good s₀ s) : Good s₀ (State.takeTable s a0) := by
  unfold State.takeTable
  extract_lets +onlyGivenNames s0
  have hs0 : Good s₀ s0 := by
    subst s0
    refine Good.foldl ?_ h
    intro s9 x9_1 h9_2
    obtain ⟨y10, zy10⟩ := x9_1
    dsimp -zeta -zetaHave only
    exact Good.ite (State.setServe_good h9_2) h9_2
  clear_value s0
  exact Good.ite (Good.set hs0) hs0

theorem State.takeDomain_good {s₀ s} {a0 a1} (h : Good s₀ s) : Good s₀ (State.takeDomain s a0 a1) := by
  unfold State.takeDomain
  split
  · exact State.noteCensus_good h
  · exact State.noteServing_good h
  · exact State.answerTable_good h
  · exact State.takeTable_good h
  · exact State.noteLink_good h
  · exact Good.ite (State.noteBeat_good h) h
  · exact h

theorem State.takeTwin_good {s₀ s} {a0 a1} (h : Good s₀ s) : Good s₀ (State.takeTwin s a0 a1) := by
  unfold State.takeTwin
  split
  · exact State.peerMode_good h
  · exact Good.ite (State.recvStep_good h) h
  · exact Good.ite (State.peerDigest_good h) h
  · exact Good.ite h (State.applyMirror_good h)
  · exact Good.ite h (State.applyMark_good h)
  · exact State.askedMigrate_good h
  · exact State.migrateReady_good h
  · exact State.takeMigrate_good h
  · exact State.migrated_good h
  · exact State.dropMigrate_good h
  · exact State.updTwin_good h
  · exact State.updTwin_good h
  · exact State.tenantReset_good h
  · exact h

theorem State.refusedBack_good {s₀ s} {a0 a1} (h : Good s₀ s) : Good s₀ (State.refusedBack s a0 a1) := by
  unfold State.refusedBack
  exact Good.ite h (State.raise_good h)

theorem State.takeStage_good {s₀ s} {a0 a1 a2} (h : Good s₀ s) : Good s₀ (State.takeStage s a0 a1 a2) := by
  unfold State.takeStage
  split
  · exact Good.ite (State.recvList_good h) h
  · exact State.recvCredit_good h
  · exact Good.ite (State.recvRet_good h) h
  · exact State.updLadle_good h
  · exact h

theorem State.takeControl_good {s₀ s} {a0} (h : Good s₀ s) : Good s₀ (State.takeControl s a0) := by
  unfold State.takeControl
  split
  · exact h
  · split
    · exact Good.ite h (State.takeTwin_good h)
    · exact Good.ite h (State.takeStage_good h)
    · split
      · exact State.tokenIn_good h
      · exact State.abortIn_good h
      · exact State.collData_good h
      · exact Good.ite h (State.refusedBack_good h)
      · exact State.takeDomain_good h

theorem State.takePacket_good {s₀ s} {a0} (h : Good s₀ s) : Good s₀ (State.takePacket s a0) := by
  unfold State.takePacket
  split
  · exact State.takeWrite_good h
  · exact State.takeSignal_good h
  · exact State.takeControl_good h
  · exact h

theorem State.takeEarly_good {s₀ s} {a0 a1} (h : Good s₀ s) : Good s₀ (State.takeEarly s a0 a1) := by
  induction a1 generalizing s
  · exact h
  rename_i fuel ih
  unfold State.takeEarly
  split
  · exact h
  · extract_lets +onlyGivenNames s2
    extract_lets +onlyGivenNames s3
    have hs3 : Good s₀ s3 := Good.set h
    clear_value s3
    exact ih (State.acknowledge_good (State.takePacket_good hs3))

theorem State.takeVc0_good {s₀ s} {a0} (h : Good s₀ s) : Good s₀ (State.takeVc0 s a0) := by
  unfold State.takeVc0
  extract_lets +onlyGivenNames s0
  exact Good.ite (State.acknowledge_good (State.bump_good h)) (Good.ite (State.bump_good h) (State.takeEarly_good (Good.set h)))

theorem State.receive_good {s₀ s} {a0} (h : Good s₀ s) : Good s₀ (State.receive s a0) := by
  unfold State.receive
  generalize he0 : State.takeArrived _ _ = e0
  obtain ⟨xe0, se0⟩ := e0
  have hse0 : Good s₀ se0 := (GoodR.eq he0 (State.takeArrived_good h))
  clear he0
  dsimp -zeta -zetaHave only
  refine Good.ite (State.forward_good hse0) ?_
  extract_lets +onlyGivenNames s8
  have hs8 : Good s₀ s8 := State.leaveBuffer_good hse0
  clear_value s8
  exact Good.ite (State.takeVc0_good hs8) (Good.ite (State.acknowledge_good (State.bump_good hs8)) (State.acknowledge_good (State.takePacket_good (State.markSeen_good hs8))))

theorem State.resendPacket_good {s₀ s} {a0 a1} (h : Good s₀ s) : Good s₀ (State.resendPacket s a0 a1) := by
  unfold State.resendPacket
  extract_lets +onlyGivenNames s0 s1 s2 s3
  have hs3 : Good s₀ s3 := Good.set h
  clear_value s3
  exact State.flushPort_good (State.bump_good hs3)

theorem execRemoteWriteRefused_good {s₀ s} {a0} (h : Good s₀ s) : GoodOut s₀ (execRemoteWriteRefused a0 s) := by
  unfold execRemoteWriteRefused
  exact GoodOut.ite (GoodOut.next h) (GoodOut.next (State.refusedBack_good h))

theorem execE2eResendTimeout_good {s₀ s} {a0 a1 a2} (h : Good s₀ s) : GoodOut s₀ (execE2eResendTimeout a0 a1 a2 s) := by
  unfold execE2eResendTimeout
  extract_lets +onlyGivenNames s0
  split
  · refine GoodOut.next ?_
    subst s0
    dsimp -zeta -zetaHave only
    extract_lets +onlyGivenNames s5
    refine Good.foldl ?_ (State.holdLater_good (Good.set h))
    intro s7 x7_1 h7_2
    exact State.lostPacket_good h7_2
  · extract_lets +onlyGivenNames s13
    split
    · refine GoodOut.next ?_
      subst s0
      dsimp -zeta -zetaHave only
      extract_lets +onlyGivenNames s18
      refine Good.foldl ?_ (State.holdLater_good (Good.set (State.rehold_good h)))
      intro s20 x20_1 h20_2
      exact State.lostPacket_good h20_2
    · exact GoodOut.next (State.resendPacket_good h)

theorem execPacketControl_good {s₀ s} {a0} (h : Good s₀ s) : GoodOut s₀ (execPacketControl a0 s) := by
  unfold execPacketControl
  exact GoodOut.next (State.receive_good h)

theorem execPacketWrite_good {s₀ s} {a0} (h : Good s₀ s) : GoodOut s₀ (execPacketWrite a0 s) := by
  unfold execPacketWrite
  exact GoodOut.next (State.receive_good h)

theorem execPacketAck_good {s₀ s} {a0 a1} (h : Good s₀ s) : GoodOut s₀ (execPacketAck a0 a1 s) := by
  unfold execPacketAck
  generalize he0 : State.takeArrived _ _ = e0
  obtain ⟨xe0, se0⟩ := e0
  have hse0 : Good s₀ se0 := (GoodR.eq he0 (State.takeArrived_good h))
  clear he0
  dsimp -zeta -zetaHave only
  refine GoodOut.ite (GoodOut.next (State.forward_good hse0)) ?_
  extract_lets +onlyGivenNames s9
  have hs9 : Good s₀ s9 := State.leaveBuffer_good hse0
  clear_value s9
  refine GoodOut.next ?_
  refine Good.foldl ?_ (GoodL.out (State.ackHeld_good hs9))
  intro s14 x14_1 h14_2
  exact State.answered_good h14_2

theorem execPacketSignal_good {s₀ s} {a0} (h : Good s₀ s) : GoodOut s₀ (execPacketSignal a0 s) := by
  unfold execPacketSignal
  exact GoodOut.next (State.receive_good h)

end Sys2Proof.Machine
end

