-- ==== Sys2Proof/Laws/Good/Access.lean ====
section
/-!
SUPPORT. Good/Access.lean: every operation of Machine/Access.lean keeps what `Good` says.
-/

namespace Sys2Proof.Machine

theorem State.configRequest_good {s₀ s} {a0 f} (hf : ∀ s, Good s₀ s → Good s₀ (f s)) (h : Good s₀ s) : Good s₀ (State.configRequest s a0 f) := by
  unfold State.configRequest
  exact Good.ite (State.send_good h) (Good.ite (State.send_good h) (hf _ h))

theorem State.enClear_good {s₀ s} {a0} (h : Good s₀ s) : Good s₀ (State.enClear s a0) := by
  unfold State.enClear
  split
  · exact Good.set h
  · exact Good.set h
  · exact State.updFn_good h
  · exact h

theorem State.enSet_good {s₀ s} {a0} (h : Good s₀ s) : Good s₀ (State.enSet s a0) := by
  unfold State.enSet
  split
  · exact Good.set h
  · exact Good.set h
  · exact State.updFn_good h
  · exact State.updFn_good h

theorem State.writeCodes_good {s₀ s} {a0 a1 a2 a3} (h : Good s₀ s) : Good s₀ (State.writeCodes s a0 a1 a2 a3) := by
  unfold State.writeCodes
  extract_lets +onlyGivenNames s0 s1 s2
  exact State.setWord_good h

theorem State.enWrite_good {s₀ s} {a0 a1 a2 a3 a4 a5} (h : Good s₀ s) : Good s₀ (State.enWrite s a0 a1 a2 a3 a4 a5) := by
  unfold State.enWrite
  extract_lets +onlyGivenNames s0
  have hs0 : Good s₀ s0 := State.writeCodes_good h
  clear_value s0
  extract_lets +onlyGivenNames s3
  exact Good.ite (State.interrupt_good hs0) hs0

theorem State.hiddenWrite_good {s₀ s} {a0 a1} (h : Good s₀ s) : Good s₀ (State.hiddenWrite s a0 a1) := by
  unfold State.hiddenWrite
  exact State.raise_good h

theorem State.mbxWrite_good {s₀ s} {a0} (h : Good s₀ s) : Good s₀ (State.mbxWrite s a0) := by
  unfold State.mbxWrite
  generalize he0 : State.fresh _ = e0
  obtain ⟨xe0, se0⟩ := e0
  have hse0 : Good s₀ se0 := (GoodR.eq he0 (State.fresh_good h))
  clear he0
  dsimp -zeta -zetaHave only
  split
  · exact State.mbxWriteCat_good (GoodR.out (State.fresh_good hse0))
  · exact State.mbxWriteFw_good (GoodR.out (State.fresh_good hse0))
  · exact State.mbxEnrolKey_good (GoodR.out (State.fresh_good hse0))
  · exact State.mbxRevokeKey_good (GoodR.out (State.fresh_good hse0))
  · exact State.mbxRestart_good (GoodR.out (State.fresh_good hse0))
  · exact State.mbxBad_good (GoodR.out (State.fresh_good hse0))

theorem State.msixWrite_good {s₀ s} {a0 a1 a2} (h : Good s₀ s) : Good s₀ (State.msixWrite s a0 a1 a2) := by
  unfold State.msixWrite
  refine Good.ite h ?_
  extract_lets +onlyGivenNames s2 s3
  have hs3 : Good s₀ s3 := State.updFn_good h
  clear_value s3
  extract_lets +onlyGivenNames s6
  exact Good.ite (State.send_good (State.updFn_good hs3)) hs3

theorem State.osizeWrite_good {s₀ s} {a0 a1 a2} (h : Good s₀ s) : Good s₀ (State.osizeWrite s a0 a1 a2) := by
  unfold State.osizeWrite
  extract_lets +onlyGivenNames s0 s1 s2
  have hs2 : Good s₀ s2 := State.setFlag_good (State.setFld_good h)
  clear_value s2
  exact Good.ite hs2 (State.setWord_good (State.setFld_good hs2))

theorem State.readPair_good {s₀ s} {a0 a1 a2 a3 a4} (h : Good s₀ s) : GoodR s₀ (State.readPair s a0 a1 a2 a3 a4) := by
  unfold State.readPair
  extract_lets +onlyGivenNames s0 s1
  split
  · exact GoodR.mk h
  · refine GoodR.ite (GoodR.mk h) ?_
    refine GoodR.ite (GoodR.mk (State.updFn_good h)) ?_
    split
    · exact GoodR.mk (State.updFn_good h)
    · exact GoodR.mk h

theorem State.readAt_good {s₀ s} {a0 a1 a2 a3 a4} (h : Good s₀ s) : GoodR s₀ (State.readAt s a0 a1 a2 a3 a4) := by
  induction a2 generalizing s a3 a4
  · exact h
  rename_i fuel ih
  unfold State.readAt
  refine GoodR.ite h ?_
  extract_lets +onlyGivenNames base n
  generalize he : State.readPair _ _ _ _ _ _ = e
  obtain ⟨⟨a, b⟩, s1⟩ := e
  have h1 : Good s₀ s1 := GoodR.eq he (State.readPair_good h)
  clear he
  dsimp -zeta -zetaHave only
  extract_lets +onlyGivenNames here
  exact ih h1

theorem State.selWrite_good {s₀ s} {a0 a1 a2} (h : Good s₀ s) : Good s₀ (State.selWrite s a0 a1 a2) := by
  unfold State.selWrite
  generalize he0 : State.free _ = e0
  obtain ⟨xe0, se0⟩ := e0
  have hse0 : Good s₀ se0 := (GoodR.eq he0 (State.free_good h))
  clear he0
  dsimp -zeta -zetaHave only
  extract_lets +onlyGivenNames s5
  exact Good.ite (State.schSelWrite_good hse0) (State.writeCodes_good hse0)

theorem State.writeRing_good {s₀ s} {a0 a1 a2 a3 a4} (h : Good s₀ s) : Good s₀ (State.writeRing s a0 a1 a2 a3 a4) := by
  unfold State.writeRing
  extract_lets +onlyGivenNames s0 s1 s2
  refine Good.ite h ?_
  split
  · exact State.tntBad_good h
  · exact State.setFlag_good h
  · exact Good.ite (Good.ite h (Good.ite (State.ringEnable_good h) (State.ringDisable_good h))) (Good.ite (Good.ite (State.setFld_good h) h) (Good.ite (Good.ite (State.setFld_good h) h) (Good.ite (Good.ite (State.setFlag_good h) (State.osizeWrite_good h)) (State.writeCodes_good h))))

theorem State.writeTnt_good {s₀ s} {a0 a1 a2 a3 a4} (h : Good s₀ s) : Good s₀ (State.writeTnt s a0 a1 a2 a3 a4) := by
  unfold State.writeTnt
  extract_lets +onlyGivenNames s0 s1 s2
  refine Good.ite ?_ ?_
  · extract_lets +onlyGivenNames s4
    have hs4 : Good s₀ s4 := State.writeCodes_good h
    clear_value s4
    extract_lets +onlyGivenNames s7
    have hs7 : Good s₀ s7 := Good.ite (State.askFreeze_good hs4) hs4
    clear_value s7
    extract_lets +onlyGivenNames s10
    have hs10 : Good s₀ s10 := Good.ite (State.askUnfreeze_good hs7) hs7
    clear_value s10
    exact Good.ite (State.askReset_good hs10) hs10
  · refine Good.ite (Good.ite (State.modeRequest_good h) (State.writeCodes_good h)) ?_
    refine Good.ite (State.enWrite_good h) ?_
    refine Good.ite ?_ ?_
    · extract_lets +onlyGivenNames s40
      have hs40 : Good s₀ s40 := State.writeCodes_good h
      clear_value s40
      exact Good.ite (State.wsetGo_good hs40) hs40
    · refine Good.ite (Good.ite (State.faultClear_good h) h) ?_
      refine Good.ite (Good.ite (State.setWord_good h) h) ?_
      refine Good.ite ?_ ?_
      · refine Good.ite h ?_
        extract_lets +onlyGivenNames s63
        exact State.ladleWrite_good h
      · refine Good.ite ?_ (State.writeCodes_good h)
        extract_lets +onlyGivenNames s67
        have hs67 : Good s₀ s67 := State.writeCodes_good h
        clear_value s67
        exact Good.ite (Good.set hs67) hs67

theorem State.writeHome_good {s₀ s} {a0 a1 a2} (h : Good s₀ s) : Good s₀ (State.writeHome s a0 a1 a2) := by
  unfold State.writeHome
  extract_lets +onlyGivenNames s0 s1 s2 s3
  refine Good.ite (State.writeTnt_good h) ?_
  refine Good.ite (State.writeRing_good h) ?_
  refine Good.ite (State.updFn_good h) ?_
  refine Good.ite (State.writeCodes_good h) ?_
  refine Good.ite (State.enWrite_good h) ?_
  refine Good.ite ?_ ?_
  · extract_lets +onlyGivenNames s20
    have hs20 : Good s₀ s20 := State.writeCodes_good h
    clear_value s20
    exact Good.ite (State.askHandover_good hs20) hs20
  · refine Good.ite (State.mbxWrite_good h) ?_
    refine Good.ite (State.selWrite_good h) ?_
    refine Good.ite (Good.ite (State.askPublish_good h) h) ?_
    refine Good.ite (State.lnkRetry_good h) ?_
    refine Good.ite ?_ ?_
    · extract_lets +onlyGivenNames s45
      have hs45 : Good s₀ s45 := Good.ite (State.fltClear_good h) h
      clear_value s45
      exact Good.ite (State.computeFault_good hs45) hs45
    · refine Good.ite ?_ ?_
      · extract_lets +onlyGivenNames s58
        have hs58 : Good s₀ s58 := Good.ite (State.setFlag_good h) h
        clear_value s58
        exact Good.ite (State.modLimit_good hs58) hs58
      · refine Good.ite ?_ (State.writeCodes_good h)
        extract_lets +onlyGivenNames s71
        have hs71 : Good s₀ s71 := State.writeCodes_good h
        clear_value s71
        exact Good.ite (Good.set hs71) hs71

theorem State.writePf_good {s₀ s} {a0 a1} (h : Good s₀ s) : Good s₀ (State.writePf s a0 a1) := by
  unfold State.writePf
  split
  · exact State.msixWrite_good h
  · exact Good.ite (State.writeHome_good h) h
  · exact h

theorem State.writeVf_good {s₀ s} {a0 a1 a2} (h : Good s₀ s) : Good s₀ (State.writeVf s a0 a1 a2) := by
  unfold State.writeVf
  split
  · exact State.msixWrite_good h
  · exact State.doorbell_good h
  · exact h
  · exact Good.ite h (State.hiddenWrite_good h)
  · exact Good.ite h (Good.ite h (Good.ite (State.hiddenWrite_good h) (State.writeHome_good h)))

theorem State.writeWord_good {s₀ s} {a0 a1 a2} (h : Good s₀ s) : Good s₀ (State.writeWord s a0 a1 a2) := by
  unfold State.writeWord
  refine Good.ite h ?_
  split
  · exact State.writePf_good h
  · exact State.writeVf_good h

theorem State.writeWide_good {s₀ s} {a0 a1 a2 a3} (h : Good s₀ s) : Good s₀ (State.writeWide s a0 a1 a2 a3) := by
  unfold State.writeWide
  extract_lets +onlyGivenNames s0 s1 s2 s3
  refine Good.ite ?_ (Good.ite (State.updFn_good h) h)
  extract_lets +onlyGivenNames s5 s6
  have hs6 : Good s₀ s6 := State.updFn_good h
  clear_value s6
  exact State.writeHome_good (State.writeHome_good hs6)

theorem State.writePair_good {s₀ s} {a0 a1 a2} (h : Good s₀ s) : Good s₀ (State.writePair s a0 a1 a2) := by
  unfold State.writePair
  extract_lets +onlyGivenNames s0 s1
  split
  · refine Good.ite ?_ (State.writeWord_good (State.writeWord_good h))
    refine Good.ite h ?_
    split
    · exact Good.ite (State.hiddenWrite_good h) (State.writeWide_good h)
    · exact State.writeWide_good h
  · exact State.writeWord_good (State.writeWord_good h)

theorem State.writeAt_good {s₀ s} {a0 a1 a2 a3} (h : Good s₀ s) : Good s₀ (State.writeAt s a0 a1 a2 a3) := by
  induction a1 generalizing s a2 a3
  · exact h
  rename_i fuel ih
  unfold State.writeAt
  refine Good.ite h ?_
  extract_lets +onlyGivenNames s2 s3 s4
  exact ih (Good.ite (State.writePair_good h) h)

theorem execVfAccessLoss_good {s₀ s} {a0} (h : Good s₀ s) : GoodOut s₀ (execVfAccessLoss a0 s) := by
  unfold execVfAccessLoss
  refine GoodOut.next ?_
  refine State.configRequest_good ?_ h
  intro s2 h2_1
  exact State.enClear_good h2_1

theorem execVfFlr_good {s₀ s} {a0} (h : Good s₀ s) : GoodOut s₀ (execVfFlr a0 s) := by
  unfold execVfFlr
  refine GoodOut.ite (GoodOut.next h) ?_
  refine GoodOut.next ?_
  refine State.configRequest_good ?_ h
  intro s5 h5_1
  exact State.tenantReset_good (State.setWord_good (State.updFn_good h5_1))

theorem execRegisterRead_good {s₀ s} {a0 a1 a2} (h : Good s₀ s) : GoodOut s₀ (execRegisterRead a0 a1 a2 s) := by
  unfold execRegisterRead
  refine GoodOut.ite (GoodOut.next (State.send_good h)) ?_
  generalize he4 : State.free _ = e4
  obtain ⟨xe4, se4⟩ := e4
  have hse4 : Good s₀ se4 := (GoodR.eq he4 (State.free_good h))
  clear he4
  dsimp -zeta -zetaHave only
  exact GoodOut.next (State.send_good (GoodR.out (State.readAt_good hse4)))

theorem execPcieEnableRestore_good {s₀ s} {a0} (h : Good s₀ s) : GoodOut s₀ (execPcieEnableRestore a0 s) := by
  unfold execPcieEnableRestore
  refine GoodOut.next ?_
  refine State.configRequest_good ?_ h
  intro s2 h2_1
  exact State.enSet_good h2_1

theorem execMemorySpaceDisable_good {s₀ s} {a0} (h : Good s₀ s) : GoodOut s₀ (execMemorySpaceDisable a0 s) := by
  unfold execMemorySpaceDisable
  refine GoodOut.next ?_
  refine State.configRequest_good ?_ h
  intro s2 h2_1
  exact State.updFn_good h2_1

theorem execRegisterWrite_good {s₀ s} {a0 a1 a2} (h : Good s₀ s) : GoodOut s₀ (execRegisterWrite a0 a1 a2 s) := by
  unfold execRegisterWrite
  exact GoodOut.next (State.writeAt_good h)

theorem execPfFlr_good {s₀ s} (h : Good s₀ s) : GoodOut s₀ (execPfFlr s) := by
  unfold execPfFlr
  refine GoodOut.next ?_
  refine State.configRequest_good ?_ h
  intro s2 h2_1
  exact State.setWord_good (Good.set h2_1)

theorem execPcieAtomicop_good {s₀ s} {a0} (h : Good s₀ s) : GoodOut s₀ (execPcieAtomicop a0 s) := by
  unfold execPcieAtomicop
  exact GoodOut.next (State.send_good h)

end Sys2Proof.Machine
end

