-- ==== Sys2Proof/Laws/Good/Bar2.lean ====
section
/-!
SUPPORT. Good/Bar2.lean: every operation of Machine/Bar2.lean keeps what `Good` says.
-/

namespace Sys2Proof.Machine

theorem State.ownWrite_good {s₀ s} {a0 a1 a2} (h : Good s₀ s) : Good s₀ (State.ownWrite s a0 a1 a2) := by
  unfold State.ownWrite
  extract_lets +onlyGivenNames s0
  refine Good.ite (State.bumpFld_good h) ?_
  generalize he4 : State.free _ = e4
  obtain ⟨xe4, se4⟩ := e4
  have hse4 : Good s₀ se4 := (GoodR.eq he4 (State.free_good h))
  clear he4
  dsimp -zeta -zetaHave only
  extract_lets +onlyGivenNames s9
  have hs9 : Good s₀ s9 := Good.ite hse4 (State.taWrite_good hse4)
  clear_value s9
  exact Good.ite (State.sendTwin_good hs9) hs9

theorem State.pfWriteBlock_good {s₀ s} {a0 a1} (h : Good s₀ s) : Good s₀ (State.pfWriteBlock s a0 a1) := by
  unfold State.pfWriteBlock
  refine Good.ite h ?_
  split
  · exact Good.ite (State.raise_good h) (State.ownWrite_good h)
  · exact State.maWrite_good h

theorem State.pfWrite_good {s₀ s} {a0 a1} (h : Good s₀ s) : Good s₀ (State.pfWrite s a0 a1) := by
  unfold State.pfWrite
  refine GoodL.out ?_
  refine GoodL.foldl ?_ (GoodL.mk h)
  intro s2 x2_1 x2_2 h2_3
  dsimp -zeta -zetaHave only
  exact GoodL.mk (State.pfWriteBlock_good h2_3)

theorem State.vfRead_good {s₀ s} {a0 a1 a2} (h : Good s₀ s) : GoodR s₀ (State.vfRead s a0 a1 a2) := by
  unfold State.vfRead
  split
  · exact GoodR.mk h
  · generalize he3 : State.taFetch _ _ _ _ = e3
    obtain ⟨xe3, se3⟩ := e3
    have hse3 : Good s₀ se3 := (GoodR.eq he3 (State.taFetch_good h))
    clear he3
    split
    · exact GoodR.mk (GoodR.eq (by assumption) (GoodR.mk hse3))
    · exact GoodR.mk (State.raise_good (GoodR.eq (by assumption) (GoodR.mk hse3)))

theorem State.vfWrite_good {s₀ s} {a0 a1 a2} (h : Good s₀ s) : Good s₀ (State.vfWrite s a0 a1 a2) := by
  unfold State.vfWrite
  split
  · exact h
  · split
    · exact State.raise_good h
    · exact Good.ite (State.ownWrite_good h) (State.taWrite_good h)

theorem execBar2Read_good {s₀ s} {a0 a1 a2} (h : Good s₀ s) : GoodOut s₀ (execBar2Read a0 a1 a2 s) := by
  unfold execBar2Read
  refine GoodOut.ite (GoodOut.next (State.send_good h)) ?_
  refine GoodOut.ite (GoodOut.next (State.send_good h)) ?_
  split
  · exact GoodOut.next (State.send_good h)
  · generalize he12 : State.vfRead _ _ _ _ = e12
    obtain ⟨xe12, se12⟩ := e12
    have hse12 : Good s₀ se12 := (GoodR.eq he12 (State.vfRead_good h))
    clear he12
    dsimp -zeta -zetaHave only
    exact GoodOut.next (State.send_good hse12)

theorem execBar2Write_good {s₀ s} {a0 a1 a2} (h : Good s₀ s) : GoodOut s₀ (execBar2Write a0 a1 a2 s) := by
  unfold execBar2Write
  refine GoodOut.ite (GoodOut.next h) ?_
  split
  · exact GoodOut.next (State.pfWrite_good h)
  · exact GoodOut.next (State.vfWrite_good h)

end Sys2Proof.Machine
end

