-- ==== Sys2Proof/Laws/PerInstr.lean ====
section
/-!
SUPPORT. PerInstr.lean: what holds of each command as it is written: a well-formed command names only tenants and tiles that exist.
-/

namespace Sys2Proof.Laws.NamesExist

open Sys2Proof

/-- The tenant that a command names. -/
def tenant : Instr → Option Nat
  | .registerWrite _ _ _ => none
  | .pcieAtomicop _ => none
  | .bar2Read _ _ _ => none
  | .bar2Write _ _ _ => none
  | .pfFlr => none
  | .vfFlr x => some x
  | .vfAccessLoss _ => none
  | .powerGood _ _ => none
  | .powerGoodLoss _ => none
  | .perstAssert => none
  | .perstDeassert => none
  | .matedOpen => none
  | .matedClose => none
  | .pcieFunctionReady => none
  | .startSequence _ _ => none
  | .mbxWriteCat _ _ => none
  | .mbxWriteFw _ _ => none
  | .mbxEnrolKey _ => none
  | .mbxRevokeKey _ => none
  | .mbxRestart => none
  | .mbxBadCmd _ => none
  | .mbxCommandEnd _ => none
  | .tickInEdge _ => none
  | .tickInWindowExpiry _ => none
  | .tickInHoldover _ => none
  | .tickSymbolReceive _ _ _ => none
  | .tickBoundary _ => none
  | .tickOutEnd => none
  | .holdoverEntry _ => none
  | .holdoverLimit => none
  | .successionTakeover _ => none
  | .masterRelinquish _ => none
  | .delayEcho => none
  | .delayEchoReceive _ _ _ => none
  | .censusReceive _ _ => none
  | .tickOriginateTimeout _ => none
  | .tickLockTimeout => none
  | .schSelWrite _ _ => none
  | .entryOpen _ => none
  | .entryEnd _ => none
  | .marginStart => none
  | .bgAtomStart _ _ => none
  | .bgAtomComplete _ _ _ => none
  | .bgDeadlineExpiry _ _ _ => none
  | .preempt _ => none
  | .overrunExpiry x _ => some x
  | .tickWorkComplete x _ _ => some x
  | .programLaunch _ => none
  | .tileFetchFault _ => none
  | .invalidOpcode _ _ => none
  | .nop _ _ => none
  | .endProgram _ _ => none
  | .barrier _ _ => none
  | .loop _ _ => none
  | .acq _ _ => none
  | .rel _ _ => none
  | .fence _ _ => none
  | .cwait _ _ => none
  | .cwaitSatisfied _ => none
  | .cset _ _ => none
  | .matmul _ _ => none
  | .matmulSide _ _ => none
  | .vld _ _ => none
  | .vst _ _ => none
  | .vbcast _ _ => none
  | .viota _ _ => none
  | .vadd _ _ => none
  | .vsub _ _ => none
  | .vmul _ _ => none
  | .vfma _ _ => none
  | .vmax _ _ => none
  | .vmin _ _ => none
  | .vabs _ _ => none
  | .vneg _ _ => none
  | .vcmp _ _ => none
  | .vsel _ _ => none
  | .vexp _ _ => none
  | .vrcp _ _ => none
  | .vrsq _ _ => none
  | .vrsum _ _ => none
  | .vrmax _ _ => none
  | .vrmin _ _ => none
  | .iadd _ _ => none
  | .isub _ _ => none
  | .imul _ _ => none
  | .imulhi _ _ => none
  | .iand _ _ => none
  | .ior _ _ => none
  | .ixor _ _ => none
  | .ishl _ _ => none
  | .ishr _ _ => none
  | .icmp _ _ => none
  | .vcvt _ _ => none
  | .vpext _ _ => none
  | .kop _ _ => none
  | .vflag _ _ => none
  | .vrng _ _ => none
  | .qstatGatherNew _ _ => none
  | .qstatGather _ _ => none
  | .qstatFinish _ _ => none
  | .qstatMerge _ _ => none
  | .qconv _ _ => none
  | .vtopk _ _ => none
  | .vsample _ _ => none
  | .attn _ _ => none
  | .keyGroupFetch _ => none
  | .attnMerge _ _ => none
  | .xstart _ _ => none
  | .rgnOpen _ _ => none
  | .rgnClose _ _ => none
  | .slotWait _ _ => none
  | .slotRelease _ _ => none
  | .cxEnc _ _ => none
  | .cxDec _ _ => none
  | .cxTload _ _ => none
  | .cxHist _ _ => none
  | .instructionComplete _ _ => none
  | .programComplete _ => none
  | .slotMark _ _ => none
  | .slotMarkSeen _ _ => none
  | .descriptorFetch _ _ => none
  | .copy _ _ => none
  | .fill _ _ => none
  | .convert _ _ => none
  | .link _ _ => none
  | .transferRequestComplete _ _ _ _ => none
  | .codecBlock _ _ => none
  | .codecTloadApply _ _ => none
  | .attachmentJoin _ _ _ => none
  | .joinWindowExpiry _ => none
  | .joinRetryTimer _ => none
  | .bypassSettleTimeout _ => none
  | .identSend _ => none
  | .identReceive _ _ => none
  | .portPartnerLoss _ => none
  | .portRetrainComplete _ _ => none
  | .attachmentDown _ => none
  | .lnkRetry _ => none
  | .laneFail _ _ _ => none
  | .linkBlockReceive _ _ => none
  | .linkResendTimeout _ => none
  | .packetWrite _ => none
  | .remoteWriteRefused _ => none
  | .packetSignal _ => none
  | .packetAck _ _ => none
  | .packetControl _ => none
  | .e2eResendTimeout _ _ _ => none
  | .servingAnnouncement _ _ => none
  | .servingTableRequest _ => none
  | .heartbeatSend => none
  | .heartbeatReceive => none
  | .twinLossTimeout => none
  | .twinReturn => none
  | .collBind x _ => some x
  | .collUnbind x _ => some x
  | .collAllreduce x _ => some x
  | .collReduceScatter x _ => some x
  | .collAllgather x _ => some x
  | .collAlltoall x _ => some x
  | .collAlltoallv x _ => some x
  | .collBarrier x _ => some x
  | .collTokenReceive _ => none
  | .collAbortReceive x _ _ => some x
  | .collSegmentStart x _ _ => some x
  | .collComplete x _ _ _ _ => some x
  | .doorbell x _ _ => some x
  | .ringEnable x _ => some x
  | .ringDisable x _ => some x
  | .commandFetch x _ _ => some x
  | .commandReport x _ _ _ => some x
  | .ringTimeout x _ _ => some x
  | .cmdNop x _ => some x
  | .cmdMatmul x _ => some x
  | .cmdAttn x _ => some x
  | .cmdVec x _ => some x
  | .cmdQstat x _ => some x
  | .cmdQconv x _ => some x
  | .cmdXfer x _ => some x
  | .cmdCodec x _ => some x
  | .pageAlloc x _ => some x
  | .pageFree x _ => some x
  | .pageShare x _ => some x
  | .pageCopy x _ => some x
  | .sessionFeed x _ => some x
  | .sessionOpen x _ => some x
  | .setSampling x _ => some x
  | .setStop x _ => some x
  | .sessionStop x _ => some x
  | .sessionClose x _ => some x
  | .sessionPark x _ => some x
  | .sessionUnpark x _ => some x
  | .sessionTruncate x _ => some x
  | .sessionMigrate x _ => some x
  | .migrateConfirm x _ _ => some x
  | .recipeLoad x _ => some x
  | .recipePatch x _ => some x
  | .recipeLaunch x _ => some x
  | .route x _ => some x
  | .routeItemPlace x _ => some x
  | .cmdSignal x _ => some x
  | .cmdWait x _ => some x
  | .waitSatisfied x _ => some x
  | .cmdFence x _ => some x
  | .larderCopyComplete x => some x
  | .mirrorRecordReceive x _ => some x
  | .mirrorMarkReceive x _ _ _ _ => some x
  | .freeze x => some x
  | .unfreeze x => some x
  | .tenantReset x => some x
  | .tenantResetComplete x => some x
  | .twinModeRequest x _ => some x
  | .twinModeRequestReceive x _ _ _ _ => some x
  | .resyncComplete x => some x
  | .publish _ => none
  | .commonDigestComplete _ => none
  | .wsetGo x => some x
  | .wsetDigestComplete x => some x
  | .faultClear x => some x
  | .fltClear => none
  | .cpReset => none
  | .handover => none
  | .ladleCtlWrite x _ => some x
  | .ladleLaunchComplete x _ _ => some x
  | .batchListReceive x _ _ => some x
  | .ladleCreditReceive x _ => some x
  | .returnReceive x _ => some x
  | .epochBoundary x => some x
  | .residentCopyComplete x _ _ _ => some x
  | .reflowNoticeReceive x _ => some x
  | .stepRecordReceive x _ => some x
  | .unitComplete x _ => some x
  | .unitDigestReceive x _ _ => some x
  | .computePartReset => none
  | .computePartRelease => none
  | .suspectWindow x _ => some x
  | .suspectReplayLimit => none
  | .mcFailover => none
  | .escalationWindowEnd => none
  | .wearInterval => none
  | .accessionAppend _ => none
  | .hbmPageCopyComplete _ _ => none
  | .vacancyTimeout _ => none
  | .phaseTrip _ _ => none
  | .powerSample _ => none
  | .tempSample _ => none
  | .thermalUpdate => none
  | .droopDetect _ => none
  | .droopRelease _ => none
  | .throttleLow _ => none
  | .throttleAccept _ => none
  | .throttleHigh _ => none
  | .throttleRelease _ => none
  | .converterFail _ => none
  | .railFault _ => none
  | .pwrModLimitWrite _ => none
  | .vitRestart => none
  | .traceFrameSend => none
  | .jtagExtest _ => none
  | .jtagSamplePreload _ => none
  | .jtagIdcode => none
  | .jtagBypass _ _ => none
  | .smbStatus => none
  | .smbPower => none
  | .smbTemp => none
  | .smbIdent => none
  | .smbPosition => none
  | .smbAlert => none
  | .smbAlertClr _ => none
  | .registerRead _ _ _ => none
  | .pcieCompletionTimeout x _ => some x
  | .linkTrainingTimeout => none
  | .ccFail _ => none
  | .memorySpaceDisable _ => none
  | .pcieEnableRestore _ => none
  | .hbmScrub _ _ _ => none
  | .smbUnlistedCommand => none

/-- The tile that a command names. -/
def tile : Instr → Option Nat
  | .registerWrite _ _ _ => none
  | .pcieAtomicop _ => none
  | .bar2Read _ _ _ => none
  | .bar2Write _ _ _ => none
  | .pfFlr => none
  | .vfFlr _ => none
  | .vfAccessLoss _ => none
  | .powerGood _ _ => none
  | .powerGoodLoss _ => none
  | .perstAssert => none
  | .perstDeassert => none
  | .matedOpen => none
  | .matedClose => none
  | .pcieFunctionReady => none
  | .startSequence _ _ => none
  | .mbxWriteCat _ _ => none
  | .mbxWriteFw _ _ => none
  | .mbxEnrolKey _ => none
  | .mbxRevokeKey _ => none
  | .mbxRestart => none
  | .mbxBadCmd _ => none
  | .mbxCommandEnd _ => none
  | .tickInEdge _ => none
  | .tickInWindowExpiry _ => none
  | .tickInHoldover _ => none
  | .tickSymbolReceive _ _ _ => none
  | .tickBoundary _ => none
  | .tickOutEnd => none
  | .holdoverEntry _ => none
  | .holdoverLimit => none
  | .successionTakeover _ => none
  | .masterRelinquish _ => none
  | .delayEcho => none
  | .delayEchoReceive _ _ _ => none
  | .censusReceive _ _ => none
  | .tickOriginateTimeout _ => none
  | .tickLockTimeout => none
  | .schSelWrite _ _ => none
  | .entryOpen _ => none
  | .entryEnd _ => none
  | .marginStart => none
  | .bgAtomStart _ _ => none
  | .bgAtomComplete _ _ _ => none
  | .bgDeadlineExpiry _ _ _ => none
  | .preempt x => some x
  | .overrunExpiry _ _ => none
  | .tickWorkComplete _ _ _ => none
  | .programLaunch x => some x
  | .tileFetchFault x => some x
  | .invalidOpcode x _ => some x
  | .nop x _ => some x
  | .endProgram x _ => some x
  | .barrier x _ => some x
  | .loop x _ => some x
  | .acq x _ => some x
  | .rel x _ => some x
  | .fence x _ => some x
  | .cwait x _ => some x
  | .cwaitSatisfied x => some x
  | .cset x _ => some x
  | .matmul x _ => some x
  | .matmulSide x _ => some x
  | .vld x _ => some x
  | .vst x _ => some x
  | .vbcast x _ => some x
  | .viota x _ => some x
  | .vadd x _ => some x
  | .vsub x _ => some x
  | .vmul x _ => some x
  | .vfma x _ => some x
  | .vmax x _ => some x
  | .vmin x _ => some x
  | .vabs x _ => some x
  | .vneg x _ => some x
  | .vcmp x _ => some x
  | .vsel x _ => some x
  | .vexp x _ => some x
  | .vrcp x _ => some x
  | .vrsq x _ => some x
  | .vrsum x _ => some x
  | .vrmax x _ => some x
  | .vrmin x _ => some x
  | .iadd x _ => some x
  | .isub x _ => some x
  | .imul x _ => some x
  | .imulhi x _ => some x
  | .iand x _ => some x
  | .ior x _ => some x
  | .ixor x _ => some x
  | .ishl x _ => some x
  | .ishr x _ => some x
  | .icmp x _ => some x
  | .vcvt x _ => some x
  | .vpext x _ => some x
  | .kop x _ => some x
  | .vflag x _ => some x
  | .vrng x _ => some x
  | .qstatGatherNew x _ => some x
  | .qstatGather x _ => some x
  | .qstatFinish x _ => some x
  | .qstatMerge x _ => some x
  | .qconv x _ => some x
  | .vtopk x _ => some x
  | .vsample x _ => some x
  | .attn x _ => some x
  | .keyGroupFetch x => some x
  | .attnMerge x _ => some x
  | .xstart x _ => some x
  | .rgnOpen x _ => some x
  | .rgnClose x _ => some x
  | .slotWait x _ => some x
  | .slotRelease x _ => some x
  | .cxEnc x _ => some x
  | .cxDec x _ => some x
  | .cxTload x _ => some x
  | .cxHist x _ => some x
  | .instructionComplete x _ => some x
  | .programComplete x => some x
  | .slotMark x _ => some x
  | .slotMarkSeen x _ => some x
  | .descriptorFetch x _ => some x
  | .copy x _ => some x
  | .fill x _ => some x
  | .convert x _ => some x
  | .link x _ => some x
  | .transferRequestComplete x _ _ _ => some x
  | .codecBlock _ x => some x
  | .codecTloadApply _ x => some x
  | .attachmentJoin _ _ _ => none
  | .joinWindowExpiry _ => none
  | .joinRetryTimer _ => none
  | .bypassSettleTimeout _ => none
  | .identSend _ => none
  | .identReceive _ _ => none
  | .portPartnerLoss _ => none
  | .portRetrainComplete _ _ => none
  | .attachmentDown _ => none
  | .lnkRetry _ => none
  | .laneFail _ _ _ => none
  | .linkBlockReceive _ _ => none
  | .linkResendTimeout _ => none
  | .packetWrite _ => none
  | .remoteWriteRefused _ => none
  | .packetSignal _ => none
  | .packetAck _ _ => none
  | .packetControl _ => none
  | .e2eResendTimeout _ _ _ => none
  | .servingAnnouncement _ _ => none
  | .servingTableRequest _ => none
  | .heartbeatSend => none
  | .heartbeatReceive => none
  | .twinLossTimeout => none
  | .twinReturn => none
  | .collBind _ _ => none
  | .collUnbind _ _ => none
  | .collAllreduce _ _ => none
  | .collReduceScatter _ _ => none
  | .collAllgather _ _ => none
  | .collAlltoall _ _ => none
  | .collAlltoallv _ _ => none
  | .collBarrier _ _ => none
  | .collTokenReceive _ => none
  | .collAbortReceive _ _ _ => none
  | .collSegmentStart _ _ _ => none
  | .collComplete _ _ _ _ _ => none
  | .doorbell _ _ _ => none
  | .ringEnable _ _ => none
  | .ringDisable _ _ => none
  | .commandFetch _ _ _ => none
  | .commandReport _ _ _ _ => none
  | .ringTimeout _ _ _ => none
  | .cmdNop _ _ => none
  | .cmdMatmul _ _ => none
  | .cmdAttn _ _ => none
  | .cmdVec _ _ => none
  | .cmdQstat _ _ => none
  | .cmdQconv _ _ => none
  | .cmdXfer _ _ => none
  | .cmdCodec _ _ => none
  | .pageAlloc _ _ => none
  | .pageFree _ _ => none
  | .pageShare _ _ => none
  | .pageCopy _ _ => none
  | .sessionFeed _ _ => none
  | .sessionOpen _ _ => none
  | .setSampling _ _ => none
  | .setStop _ _ => none
  | .sessionStop _ _ => none
  | .sessionClose _ _ => none
  | .sessionPark _ _ => none
  | .sessionUnpark _ _ => none
  | .sessionTruncate _ _ => none
  | .sessionMigrate _ _ => none
  | .migrateConfirm _ _ _ => none
  | .recipeLoad _ _ => none
  | .recipePatch _ _ => none
  | .recipeLaunch _ _ => none
  | .route _ _ => none
  | .routeItemPlace _ x => some x
  | .cmdSignal _ _ => none
  | .cmdWait _ _ => none
  | .waitSatisfied _ _ => none
  | .cmdFence _ _ => none
  | .larderCopyComplete _ => none
  | .mirrorRecordReceive _ _ => none
  | .mirrorMarkReceive _ _ _ _ _ => none
  | .freeze _ => none
  | .unfreeze _ => none
  | .tenantReset _ => none
  | .tenantResetComplete _ => none
  | .twinModeRequest _ _ => none
  | .twinModeRequestReceive _ _ _ _ _ => none
  | .resyncComplete _ => none
  | .publish _ => none
  | .commonDigestComplete _ => none
  | .wsetGo _ => none
  | .wsetDigestComplete _ => none
  | .faultClear _ => none
  | .fltClear => none
  | .cpReset => none
  | .handover => none
  | .ladleCtlWrite _ _ => none
  | .ladleLaunchComplete _ _ _ => none
  | .batchListReceive _ _ _ => none
  | .ladleCreditReceive _ _ => none
  | .returnReceive _ _ => none
  | .epochBoundary _ => none
  | .residentCopyComplete _ _ x _ => some x
  | .reflowNoticeReceive _ _ => none
  | .stepRecordReceive _ _ => none
  | .unitComplete _ _ => none
  | .unitDigestReceive _ _ _ => none
  | .computePartReset => none
  | .computePartRelease => none
  | .suspectWindow _ _ => none
  | .suspectReplayLimit => none
  | .mcFailover => none
  | .escalationWindowEnd => none
  | .wearInterval => none
  | .accessionAppend _ => none
  | .hbmPageCopyComplete _ _ => none
  | .vacancyTimeout x => some x
  | .phaseTrip _ _ => none
  | .powerSample _ => none
  | .tempSample _ => none
  | .thermalUpdate => none
  | .droopDetect _ => none
  | .droopRelease _ => none
  | .throttleLow _ => none
  | .throttleAccept _ => none
  | .throttleHigh _ => none
  | .throttleRelease _ => none
  | .converterFail _ => none
  | .railFault _ => none
  | .pwrModLimitWrite _ => none
  | .vitRestart => none
  | .traceFrameSend => none
  | .jtagExtest _ => none
  | .jtagSamplePreload _ => none
  | .jtagIdcode => none
  | .jtagBypass _ _ => none
  | .smbStatus => none
  | .smbPower => none
  | .smbTemp => none
  | .smbIdent => none
  | .smbPosition => none
  | .smbAlert => none
  | .smbAlertClr _ => none
  | .registerRead _ _ _ => none
  | .pcieCompletionTimeout _ _ => none
  | .linkTrainingTimeout => none
  | .ccFail _ => none
  | .memorySpaceDisable _ => none
  | .pcieEnableRestore _ => none
  | .hbmScrub _ _ _ => none
  | .smbUnlistedCommand => none

/-- The tenant and the tile of a well-formed command exist. -/
def Statement (i : Instr) : Prop := wf i = true → (∀ t, tenant i = some t → t < 16) ∧ ∀ n, tile i = some n → n < 128

theorem left {a b : Bool} (h : (a && b) = true) : a = true := by
  cases a
  · exact h
  · rfl

theorem right {a b : Bool} (h : (a && b) = true) : b = true := by
  cases a
  · cases h
  · exact h

theorem registerWrite a0 a1 a2 : Statement (.registerWrite a0 a1 a2) :=
  fun _ => ⟨nofun, nofun⟩

theorem pcieAtomicop a0 : Statement (.pcieAtomicop a0) :=
  fun _ => ⟨nofun, nofun⟩

theorem bar2Read a0 a1 a2 : Statement (.bar2Read a0 a1 a2) :=
  fun _ => ⟨nofun, nofun⟩

theorem bar2Write a0 a1 a2 : Statement (.bar2Write a0 a1 a2) :=
  fun _ => ⟨nofun, nofun⟩

theorem pfFlr : Statement (.pfFlr) :=
  fun _ => ⟨nofun, nofun⟩

theorem vfFlr a0 : Statement (.vfFlr a0) :=
  fun h => ⟨fun _ e => by cases e; exact of_decide_eq_true h, nofun⟩

theorem vfAccessLoss a0 : Statement (.vfAccessLoss a0) :=
  fun _ => ⟨nofun, nofun⟩

theorem powerGood a0 a1 : Statement (.powerGood a0 a1) :=
  fun _ => ⟨nofun, nofun⟩

theorem powerGoodLoss a0 : Statement (.powerGoodLoss a0) :=
  fun _ => ⟨nofun, nofun⟩

theorem perstAssert : Statement (.perstAssert) :=
  fun _ => ⟨nofun, nofun⟩

theorem perstDeassert : Statement (.perstDeassert) :=
  fun _ => ⟨nofun, nofun⟩

theorem matedOpen : Statement (.matedOpen) :=
  fun _ => ⟨nofun, nofun⟩

theorem matedClose : Statement (.matedClose) :=
  fun _ => ⟨nofun, nofun⟩

theorem pcieFunctionReady : Statement (.pcieFunctionReady) :=
  fun _ => ⟨nofun, nofun⟩

theorem startSequence a0 a1 : Statement (.startSequence a0 a1) :=
  fun _ => ⟨nofun, nofun⟩

theorem mbxWriteCat a0 a1 : Statement (.mbxWriteCat a0 a1) :=
  fun _ => ⟨nofun, nofun⟩

theorem mbxWriteFw a0 a1 : Statement (.mbxWriteFw a0 a1) :=
  fun _ => ⟨nofun, nofun⟩

theorem mbxEnrolKey a0 : Statement (.mbxEnrolKey a0) :=
  fun _ => ⟨nofun, nofun⟩

theorem mbxRevokeKey a0 : Statement (.mbxRevokeKey a0) :=
  fun _ => ⟨nofun, nofun⟩

theorem mbxRestart : Statement (.mbxRestart) :=
  fun _ => ⟨nofun, nofun⟩

theorem mbxBadCmd a0 : Statement (.mbxBadCmd a0) :=
  fun _ => ⟨nofun, nofun⟩

theorem mbxCommandEnd a0 : Statement (.mbxCommandEnd a0) :=
  fun _ => ⟨nofun, nofun⟩

theorem tickInEdge a0 : Statement (.tickInEdge a0) :=
  fun _ => ⟨nofun, nofun⟩

theorem tickInWindowExpiry a0 : Statement (.tickInWindowExpiry a0) :=
  fun _ => ⟨nofun, nofun⟩

theorem tickInHoldover a0 : Statement (.tickInHoldover a0) :=
  fun _ => ⟨nofun, nofun⟩

theorem tickSymbolReceive a0 a1 a2 : Statement (.tickSymbolReceive a0 a1 a2) :=
  fun _ => ⟨nofun, nofun⟩

theorem tickBoundary a0 : Statement (.tickBoundary a0) :=
  fun _ => ⟨nofun, nofun⟩

theorem tickOutEnd : Statement (.tickOutEnd) :=
  fun _ => ⟨nofun, nofun⟩

theorem holdoverEntry a0 : Statement (.holdoverEntry a0) :=
  fun _ => ⟨nofun, nofun⟩

theorem holdoverLimit : Statement (.holdoverLimit) :=
  fun _ => ⟨nofun, nofun⟩

theorem successionTakeover a0 : Statement (.successionTakeover a0) :=
  fun _ => ⟨nofun, nofun⟩

theorem masterRelinquish a0 : Statement (.masterRelinquish a0) :=
  fun _ => ⟨nofun, nofun⟩

theorem delayEcho : Statement (.delayEcho) :=
  fun _ => ⟨nofun, nofun⟩

theorem delayEchoReceive a0 a1 a2 : Statement (.delayEchoReceive a0 a1 a2) :=
  fun _ => ⟨nofun, nofun⟩

theorem censusReceive a0 a1 : Statement (.censusReceive a0 a1) :=
  fun _ => ⟨nofun, nofun⟩

theorem tickOriginateTimeout a0 : Statement (.tickOriginateTimeout a0) :=
  fun _ => ⟨nofun, nofun⟩

theorem tickLockTimeout : Statement (.tickLockTimeout) :=
  fun _ => ⟨nofun, nofun⟩

theorem schSelWrite a0 a1 : Statement (.schSelWrite a0 a1) :=
  fun _ => ⟨nofun, nofun⟩

theorem entryOpen a0 : Statement (.entryOpen a0) :=
  fun _ => ⟨nofun, nofun⟩

theorem entryEnd a0 : Statement (.entryEnd a0) :=
  fun _ => ⟨nofun, nofun⟩

theorem marginStart : Statement (.marginStart) :=
  fun _ => ⟨nofun, nofun⟩

theorem bgAtomStart a0 a1 : Statement (.bgAtomStart a0 a1) :=
  fun _ => ⟨nofun, nofun⟩

theorem bgAtomComplete a0 a1 a2 : Statement (.bgAtomComplete a0 a1 a2) :=
  fun _ => ⟨nofun, nofun⟩

theorem bgDeadlineExpiry a0 a1 a2 : Statement (.bgDeadlineExpiry a0 a1 a2) :=
  fun _ => ⟨nofun, nofun⟩

theorem preempt a0 : Statement (.preempt a0) :=
  fun h => ⟨nofun, fun _ e => by cases e; exact of_decide_eq_true h⟩

theorem overrunExpiry a0 a1 : Statement (.overrunExpiry a0 a1) :=
  fun h => ⟨fun _ e => by cases e; exact of_decide_eq_true h, nofun⟩

theorem tickWorkComplete a0 a1 a2 : Statement (.tickWorkComplete a0 a1 a2) :=
  fun h => ⟨fun _ e => by cases e; exact of_decide_eq_true h, nofun⟩

theorem programLaunch a0 : Statement (.programLaunch a0) :=
  fun h => ⟨nofun, fun _ e => by cases e; exact of_decide_eq_true h⟩

theorem tileFetchFault a0 : Statement (.tileFetchFault a0) :=
  fun h => ⟨nofun, fun _ e => by cases e; exact of_decide_eq_true h⟩

theorem invalidOpcode a0 a1 : Statement (.invalidOpcode a0 a1) :=
  fun h => ⟨nofun, fun _ e => by cases e; exact of_decide_eq_true h⟩

theorem nop a0 a1 : Statement (.nop a0 a1) :=
  fun h => ⟨nofun, fun _ e => by cases e; exact of_decide_eq_true h⟩

theorem endProgram a0 a1 : Statement (.endProgram a0 a1) :=
  fun h => ⟨nofun, fun _ e => by cases e; exact of_decide_eq_true h⟩

theorem barrier a0 a1 : Statement (.barrier a0 a1) :=
  fun h => ⟨nofun, fun _ e => by cases e; exact of_decide_eq_true h⟩

theorem loop a0 a1 : Statement (.loop a0 a1) :=
  fun h => ⟨nofun, fun _ e => by cases e; exact of_decide_eq_true h⟩

theorem acq a0 a1 : Statement (.acq a0 a1) :=
  fun h => ⟨nofun, fun _ e => by cases e; exact of_decide_eq_true h⟩

theorem rel a0 a1 : Statement (.rel a0 a1) :=
  fun h => ⟨nofun, fun _ e => by cases e; exact of_decide_eq_true h⟩

theorem fence a0 a1 : Statement (.fence a0 a1) :=
  fun h => ⟨nofun, fun _ e => by cases e; exact of_decide_eq_true h⟩

theorem cwait a0 a1 : Statement (.cwait a0 a1) :=
  fun h => ⟨nofun, fun _ e => by cases e; exact of_decide_eq_true h⟩

theorem cwaitSatisfied a0 : Statement (.cwaitSatisfied a0) :=
  fun h => ⟨nofun, fun _ e => by cases e; exact of_decide_eq_true h⟩

theorem cset a0 a1 : Statement (.cset a0 a1) :=
  fun h => ⟨nofun, fun _ e => by cases e; exact of_decide_eq_true h⟩

theorem matmul a0 a1 : Statement (.matmul a0 a1) :=
  fun h => ⟨nofun, fun _ e => by cases e; exact of_decide_eq_true h⟩

theorem matmulSide a0 a1 : Statement (.matmulSide a0 a1) :=
  fun h => ⟨nofun, fun _ e => by cases e; exact of_decide_eq_true h⟩

theorem vld a0 a1 : Statement (.vld a0 a1) :=
  fun h => ⟨nofun, fun _ e => by cases e; exact of_decide_eq_true h⟩

theorem vst a0 a1 : Statement (.vst a0 a1) :=
  fun h => ⟨nofun, fun _ e => by cases e; exact of_decide_eq_true h⟩

theorem vbcast a0 a1 : Statement (.vbcast a0 a1) :=
  fun h => ⟨nofun, fun _ e => by cases e; exact of_decide_eq_true h⟩

theorem viota a0 a1 : Statement (.viota a0 a1) :=
  fun h => ⟨nofun, fun _ e => by cases e; exact of_decide_eq_true h⟩

theorem vadd a0 a1 : Statement (.vadd a0 a1) :=
  fun h => ⟨nofun, fun _ e => by cases e; exact of_decide_eq_true h⟩

theorem vsub a0 a1 : Statement (.vsub a0 a1) :=
  fun h => ⟨nofun, fun _ e => by cases e; exact of_decide_eq_true h⟩

theorem vmul a0 a1 : Statement (.vmul a0 a1) :=
  fun h => ⟨nofun, fun _ e => by cases e; exact of_decide_eq_true h⟩

theorem vfma a0 a1 : Statement (.vfma a0 a1) :=
  fun h => ⟨nofun, fun _ e => by cases e; exact of_decide_eq_true h⟩

theorem vmax a0 a1 : Statement (.vmax a0 a1) :=
  fun h => ⟨nofun, fun _ e => by cases e; exact of_decide_eq_true h⟩

theorem vmin a0 a1 : Statement (.vmin a0 a1) :=
  fun h => ⟨nofun, fun _ e => by cases e; exact of_decide_eq_true h⟩

theorem vabs a0 a1 : Statement (.vabs a0 a1) :=
  fun h => ⟨nofun, fun _ e => by cases e; exact of_decide_eq_true h⟩

theorem vneg a0 a1 : Statement (.vneg a0 a1) :=
  fun h => ⟨nofun, fun _ e => by cases e; exact of_decide_eq_true h⟩

theorem vcmp a0 a1 : Statement (.vcmp a0 a1) :=
  fun h => ⟨nofun, fun _ e => by cases e; exact of_decide_eq_true h⟩

theorem vsel a0 a1 : Statement (.vsel a0 a1) :=
  fun h => ⟨nofun, fun _ e => by cases e; exact of_decide_eq_true h⟩

theorem vexp a0 a1 : Statement (.vexp a0 a1) :=
  fun h => ⟨nofun, fun _ e => by cases e; exact of_decide_eq_true h⟩

theorem vrcp a0 a1 : Statement (.vrcp a0 a1) :=
  fun h => ⟨nofun, fun _ e => by cases e; exact of_decide_eq_true h⟩

theorem vrsq a0 a1 : Statement (.vrsq a0 a1) :=
  fun h => ⟨nofun, fun _ e => by cases e; exact of_decide_eq_true h⟩

theorem vrsum a0 a1 : Statement (.vrsum a0 a1) :=
  fun h => ⟨nofun, fun _ e => by cases e; exact of_decide_eq_true h⟩

theorem vrmax a0 a1 : Statement (.vrmax a0 a1) :=
  fun h => ⟨nofun, fun _ e => by cases e; exact of_decide_eq_true h⟩

theorem vrmin a0 a1 : Statement (.vrmin a0 a1) :=
  fun h => ⟨nofun, fun _ e => by cases e; exact of_decide_eq_true h⟩

theorem iadd a0 a1 : Statement (.iadd a0 a1) :=
  fun h => ⟨nofun, fun _ e => by cases e; exact of_decide_eq_true h⟩

theorem isub a0 a1 : Statement (.isub a0 a1) :=
  fun h => ⟨nofun, fun _ e => by cases e; exact of_decide_eq_true h⟩

theorem imul a0 a1 : Statement (.imul a0 a1) :=
  fun h => ⟨nofun, fun _ e => by cases e; exact of_decide_eq_true h⟩

theorem imulhi a0 a1 : Statement (.imulhi a0 a1) :=
  fun h => ⟨nofun, fun _ e => by cases e; exact of_decide_eq_true h⟩

theorem iand a0 a1 : Statement (.iand a0 a1) :=
  fun h => ⟨nofun, fun _ e => by cases e; exact of_decide_eq_true h⟩

theorem ior a0 a1 : Statement (.ior a0 a1) :=
  fun h => ⟨nofun, fun _ e => by cases e; exact of_decide_eq_true h⟩

theorem ixor a0 a1 : Statement (.ixor a0 a1) :=
  fun h => ⟨nofun, fun _ e => by cases e; exact of_decide_eq_true h⟩

theorem ishl a0 a1 : Statement (.ishl a0 a1) :=
  fun h => ⟨nofun, fun _ e => by cases e; exact of_decide_eq_true h⟩

theorem ishr a0 a1 : Statement (.ishr a0 a1) :=
  fun h => ⟨nofun, fun _ e => by cases e; exact of_decide_eq_true h⟩

theorem icmp a0 a1 : Statement (.icmp a0 a1) :=
  fun h => ⟨nofun, fun _ e => by cases e; exact of_decide_eq_true h⟩

theorem vcvt a0 a1 : Statement (.vcvt a0 a1) :=
  fun h => ⟨nofun, fun _ e => by cases e; exact of_decide_eq_true h⟩

theorem vpext a0 a1 : Statement (.vpext a0 a1) :=
  fun h => ⟨nofun, fun _ e => by cases e; exact of_decide_eq_true h⟩

theorem kop a0 a1 : Statement (.kop a0 a1) :=
  fun h => ⟨nofun, fun _ e => by cases e; exact of_decide_eq_true h⟩

theorem vflag a0 a1 : Statement (.vflag a0 a1) :=
  fun h => ⟨nofun, fun _ e => by cases e; exact of_decide_eq_true h⟩

theorem vrng a0 a1 : Statement (.vrng a0 a1) :=
  fun h => ⟨nofun, fun _ e => by cases e; exact of_decide_eq_true h⟩

theorem qstatGatherNew a0 a1 : Statement (.qstatGatherNew a0 a1) :=
  fun h => ⟨nofun, fun _ e => by cases e; exact of_decide_eq_true h⟩

theorem qstatGather a0 a1 : Statement (.qstatGather a0 a1) :=
  fun h => ⟨nofun, fun _ e => by cases e; exact of_decide_eq_true h⟩

theorem qstatFinish a0 a1 : Statement (.qstatFinish a0 a1) :=
  fun h => ⟨nofun, fun _ e => by cases e; exact of_decide_eq_true h⟩

theorem qstatMerge a0 a1 : Statement (.qstatMerge a0 a1) :=
  fun h => ⟨nofun, fun _ e => by cases e; exact of_decide_eq_true h⟩

theorem qconv a0 a1 : Statement (.qconv a0 a1) :=
  fun h => ⟨nofun, fun _ e => by cases e; exact of_decide_eq_true h⟩

theorem vtopk a0 a1 : Statement (.vtopk a0 a1) :=
  fun h => ⟨nofun, fun _ e => by cases e; exact of_decide_eq_true h⟩

theorem vsample a0 a1 : Statement (.vsample a0 a1) :=
  fun h => ⟨nofun, fun _ e => by cases e; exact of_decide_eq_true h⟩

theorem attn a0 a1 : Statement (.attn a0 a1) :=
  fun h => ⟨nofun, fun _ e => by cases e; exact of_decide_eq_true h⟩

theorem keyGroupFetch a0 : Statement (.keyGroupFetch a0) :=
  fun h => ⟨nofun, fun _ e => by cases e; exact of_decide_eq_true h⟩

theorem attnMerge a0 a1 : Statement (.attnMerge a0 a1) :=
  fun h => ⟨nofun, fun _ e => by cases e; exact of_decide_eq_true h⟩

theorem xstart a0 a1 : Statement (.xstart a0 a1) :=
  fun h => ⟨nofun, fun _ e => by cases e; exact of_decide_eq_true h⟩

theorem rgnOpen a0 a1 : Statement (.rgnOpen a0 a1) :=
  fun h => ⟨nofun, fun _ e => by cases e; exact of_decide_eq_true h⟩

theorem rgnClose a0 a1 : Statement (.rgnClose a0 a1) :=
  fun h => ⟨nofun, fun _ e => by cases e; exact of_decide_eq_true h⟩

theorem slotWait a0 a1 : Statement (.slotWait a0 a1) :=
  fun h => ⟨nofun, fun _ e => by cases e; exact of_decide_eq_true h⟩

theorem slotRelease a0 a1 : Statement (.slotRelease a0 a1) :=
  fun h => ⟨nofun, fun _ e => by cases e; exact of_decide_eq_true h⟩

theorem cxEnc a0 a1 : Statement (.cxEnc a0 a1) :=
  fun h => ⟨nofun, fun _ e => by cases e; exact of_decide_eq_true h⟩

theorem cxDec a0 a1 : Statement (.cxDec a0 a1) :=
  fun h => ⟨nofun, fun _ e => by cases e; exact of_decide_eq_true h⟩

theorem cxTload a0 a1 : Statement (.cxTload a0 a1) :=
  fun h => ⟨nofun, fun _ e => by cases e; exact of_decide_eq_true h⟩

theorem cxHist a0 a1 : Statement (.cxHist a0 a1) :=
  fun h => ⟨nofun, fun _ e => by cases e; exact of_decide_eq_true h⟩

theorem instructionComplete a0 a1 : Statement (.instructionComplete a0 a1) :=
  fun h => ⟨nofun, fun _ e => by cases e; exact of_decide_eq_true h⟩

theorem programComplete a0 : Statement (.programComplete a0) :=
  fun h => ⟨nofun, fun _ e => by cases e; exact of_decide_eq_true h⟩

theorem slotMark a0 a1 : Statement (.slotMark a0 a1) :=
  fun h => ⟨nofun, fun _ e => by cases e; exact of_decide_eq_true h⟩

theorem slotMarkSeen a0 a1 : Statement (.slotMarkSeen a0 a1) :=
  fun h => ⟨nofun, fun _ e => by cases e; exact of_decide_eq_true h⟩

theorem descriptorFetch a0 a1 : Statement (.descriptorFetch a0 a1) :=
  fun h => ⟨nofun, fun _ e => by cases e; exact of_decide_eq_true (left h)⟩

theorem copy a0 a1 : Statement (.copy a0 a1) :=
  fun h => ⟨nofun, fun _ e => by cases e; exact of_decide_eq_true (left h)⟩

theorem fill a0 a1 : Statement (.fill a0 a1) :=
  fun h => ⟨nofun, fun _ e => by cases e; exact of_decide_eq_true (left h)⟩

theorem convert a0 a1 : Statement (.convert a0 a1) :=
  fun h => ⟨nofun, fun _ e => by cases e; exact of_decide_eq_true (left h)⟩

theorem link a0 a1 : Statement (.link a0 a1) :=
  fun h => ⟨nofun, fun _ e => by cases e; exact of_decide_eq_true (left h)⟩

theorem transferRequestComplete a0 a1 a2 a3 : Statement (.transferRequestComplete a0 a1 a2 a3) :=
  fun h => ⟨nofun, fun _ e => by cases e; exact of_decide_eq_true (left h)⟩

theorem codecBlock a0 a1 : Statement (.codecBlock a0 a1) :=
  fun h => ⟨nofun, fun _ e => by cases e; exact of_decide_eq_true (right h)⟩

theorem codecTloadApply a0 a1 : Statement (.codecTloadApply a0 a1) :=
  fun h => ⟨nofun, fun _ e => by cases e; exact of_decide_eq_true (right h)⟩

theorem attachmentJoin a0 a1 a2 : Statement (.attachmentJoin a0 a1 a2) :=
  fun _ => ⟨nofun, nofun⟩

theorem joinWindowExpiry a0 : Statement (.joinWindowExpiry a0) :=
  fun _ => ⟨nofun, nofun⟩

theorem joinRetryTimer a0 : Statement (.joinRetryTimer a0) :=
  fun _ => ⟨nofun, nofun⟩

theorem bypassSettleTimeout a0 : Statement (.bypassSettleTimeout a0) :=
  fun _ => ⟨nofun, nofun⟩

theorem identSend a0 : Statement (.identSend a0) :=
  fun _ => ⟨nofun, nofun⟩

theorem identReceive a0 a1 : Statement (.identReceive a0 a1) :=
  fun _ => ⟨nofun, nofun⟩

theorem portPartnerLoss a0 : Statement (.portPartnerLoss a0) :=
  fun _ => ⟨nofun, nofun⟩

theorem portRetrainComplete a0 a1 : Statement (.portRetrainComplete a0 a1) :=
  fun _ => ⟨nofun, nofun⟩

theorem attachmentDown a0 : Statement (.attachmentDown a0) :=
  fun _ => ⟨nofun, nofun⟩

theorem lnkRetry a0 : Statement (.lnkRetry a0) :=
  fun _ => ⟨nofun, nofun⟩

theorem laneFail a0 a1 a2 : Statement (.laneFail a0 a1 a2) :=
  fun _ => ⟨nofun, nofun⟩

theorem linkBlockReceive a0 a1 : Statement (.linkBlockReceive a0 a1) :=
  fun _ => ⟨nofun, nofun⟩

theorem linkResendTimeout a0 : Statement (.linkResendTimeout a0) :=
  fun _ => ⟨nofun, nofun⟩

theorem packetWrite a0 : Statement (.packetWrite a0) :=
  fun _ => ⟨nofun, nofun⟩

theorem remoteWriteRefused a0 : Statement (.remoteWriteRefused a0) :=
  fun _ => ⟨nofun, nofun⟩

theorem packetSignal a0 : Statement (.packetSignal a0) :=
  fun _ => ⟨nofun, nofun⟩

theorem packetAck a0 a1 : Statement (.packetAck a0 a1) :=
  fun _ => ⟨nofun, nofun⟩

theorem packetControl a0 : Statement (.packetControl a0) :=
  fun _ => ⟨nofun, nofun⟩

theorem e2eResendTimeout a0 a1 a2 : Statement (.e2eResendTimeout a0 a1 a2) :=
  fun _ => ⟨nofun, nofun⟩

theorem servingAnnouncement a0 a1 : Statement (.servingAnnouncement a0 a1) :=
  fun _ => ⟨nofun, nofun⟩

theorem servingTableRequest a0 : Statement (.servingTableRequest a0) :=
  fun _ => ⟨nofun, nofun⟩

theorem heartbeatSend : Statement (.heartbeatSend) :=
  fun _ => ⟨nofun, nofun⟩

theorem heartbeatReceive : Statement (.heartbeatReceive) :=
  fun _ => ⟨nofun, nofun⟩

theorem twinLossTimeout : Statement (.twinLossTimeout) :=
  fun _ => ⟨nofun, nofun⟩

theorem twinReturn : Statement (.twinReturn) :=
  fun _ => ⟨nofun, nofun⟩

theorem collBind a0 a1 : Statement (.collBind a0 a1) :=
  fun h => ⟨fun _ e => by cases e; exact of_decide_eq_true (left h), nofun⟩

theorem collUnbind a0 a1 : Statement (.collUnbind a0 a1) :=
  fun h => ⟨fun _ e => by cases e; exact of_decide_eq_true (left h), nofun⟩

theorem collAllreduce a0 a1 : Statement (.collAllreduce a0 a1) :=
  fun h => ⟨fun _ e => by cases e; exact of_decide_eq_true (left h), nofun⟩

theorem collReduceScatter a0 a1 : Statement (.collReduceScatter a0 a1) :=
  fun h => ⟨fun _ e => by cases e; exact of_decide_eq_true (left h), nofun⟩

theorem collAllgather a0 a1 : Statement (.collAllgather a0 a1) :=
  fun h => ⟨fun _ e => by cases e; exact of_decide_eq_true (left h), nofun⟩

theorem collAlltoall a0 a1 : Statement (.collAlltoall a0 a1) :=
  fun h => ⟨fun _ e => by cases e; exact of_decide_eq_true (left h), nofun⟩

theorem collAlltoallv a0 a1 : Statement (.collAlltoallv a0 a1) :=
  fun h => ⟨fun _ e => by cases e; exact of_decide_eq_true (left h), nofun⟩

theorem collBarrier a0 a1 : Statement (.collBarrier a0 a1) :=
  fun h => ⟨fun _ e => by cases e; exact of_decide_eq_true (left h), nofun⟩

theorem collTokenReceive a0 : Statement (.collTokenReceive a0) :=
  fun _ => ⟨nofun, nofun⟩

theorem collAbortReceive a0 a1 a2 : Statement (.collAbortReceive a0 a1 a2) :=
  fun h => ⟨fun _ e => by cases e; exact of_decide_eq_true h, nofun⟩

theorem collSegmentStart a0 a1 a2 : Statement (.collSegmentStart a0 a1 a2) :=
  fun h => ⟨fun _ e => by cases e; exact of_decide_eq_true h, nofun⟩

theorem collComplete a0 a1 a2 a3 a4 : Statement (.collComplete a0 a1 a2 a3 a4) :=
  fun h => ⟨fun _ e => by cases e; exact of_decide_eq_true h, nofun⟩

theorem doorbell a0 a1 a2 : Statement (.doorbell a0 a1 a2) :=
  fun h => ⟨fun _ e => by cases e; exact of_decide_eq_true (left (left h)), nofun⟩

theorem ringEnable a0 a1 : Statement (.ringEnable a0 a1) :=
  fun h => ⟨fun _ e => by cases e; exact of_decide_eq_true (left h), nofun⟩

theorem ringDisable a0 a1 : Statement (.ringDisable a0 a1) :=
  fun h => ⟨fun _ e => by cases e; exact of_decide_eq_true (left h), nofun⟩

theorem commandFetch a0 a1 a2 : Statement (.commandFetch a0 a1 a2) :=
  fun h => ⟨fun _ e => by cases e; exact of_decide_eq_true (left h), nofun⟩

theorem commandReport a0 a1 a2 a3 : Statement (.commandReport a0 a1 a2 a3) :=
  fun h => ⟨fun _ e => by cases e; exact of_decide_eq_true (left h), nofun⟩

theorem ringTimeout a0 a1 a2 : Statement (.ringTimeout a0 a1 a2) :=
  fun h => ⟨fun _ e => by cases e; exact of_decide_eq_true (left h), nofun⟩

theorem cmdNop a0 a1 : Statement (.cmdNop a0 a1) :=
  fun h => ⟨fun _ e => by cases e; exact of_decide_eq_true (left h), nofun⟩

theorem cmdMatmul a0 a1 : Statement (.cmdMatmul a0 a1) :=
  fun h => ⟨fun _ e => by cases e; exact of_decide_eq_true (left h), nofun⟩

theorem cmdAttn a0 a1 : Statement (.cmdAttn a0 a1) :=
  fun h => ⟨fun _ e => by cases e; exact of_decide_eq_true (left h), nofun⟩

theorem cmdVec a0 a1 : Statement (.cmdVec a0 a1) :=
  fun h => ⟨fun _ e => by cases e; exact of_decide_eq_true (left h), nofun⟩

theorem cmdQstat a0 a1 : Statement (.cmdQstat a0 a1) :=
  fun h => ⟨fun _ e => by cases e; exact of_decide_eq_true (left h), nofun⟩

theorem cmdQconv a0 a1 : Statement (.cmdQconv a0 a1) :=
  fun h => ⟨fun _ e => by cases e; exact of_decide_eq_true (left h), nofun⟩

theorem cmdXfer a0 a1 : Statement (.cmdXfer a0 a1) :=
  fun h => ⟨fun _ e => by cases e; exact of_decide_eq_true (left h), nofun⟩

theorem cmdCodec a0 a1 : Statement (.cmdCodec a0 a1) :=
  fun h => ⟨fun _ e => by cases e; exact of_decide_eq_true (left h), nofun⟩

theorem pageAlloc a0 a1 : Statement (.pageAlloc a0 a1) :=
  fun h => ⟨fun _ e => by cases e; exact of_decide_eq_true (left h), nofun⟩

theorem pageFree a0 a1 : Statement (.pageFree a0 a1) :=
  fun h => ⟨fun _ e => by cases e; exact of_decide_eq_true (left h), nofun⟩

theorem pageShare a0 a1 : Statement (.pageShare a0 a1) :=
  fun h => ⟨fun _ e => by cases e; exact of_decide_eq_true (left h), nofun⟩

theorem pageCopy a0 a1 : Statement (.pageCopy a0 a1) :=
  fun h => ⟨fun _ e => by cases e; exact of_decide_eq_true (left h), nofun⟩

theorem sessionFeed a0 a1 : Statement (.sessionFeed a0 a1) :=
  fun h => ⟨fun _ e => by cases e; exact of_decide_eq_true (left h), nofun⟩

theorem sessionOpen a0 a1 : Statement (.sessionOpen a0 a1) :=
  fun h => ⟨fun _ e => by cases e; exact of_decide_eq_true (left h), nofun⟩

theorem setSampling a0 a1 : Statement (.setSampling a0 a1) :=
  fun h => ⟨fun _ e => by cases e; exact of_decide_eq_true (left h), nofun⟩

theorem setStop a0 a1 : Statement (.setStop a0 a1) :=
  fun h => ⟨fun _ e => by cases e; exact of_decide_eq_true (left h), nofun⟩

theorem sessionStop a0 a1 : Statement (.sessionStop a0 a1) :=
  fun h => ⟨fun _ e => by cases e; exact of_decide_eq_true (left h), nofun⟩

theorem sessionClose a0 a1 : Statement (.sessionClose a0 a1) :=
  fun h => ⟨fun _ e => by cases e; exact of_decide_eq_true (left h), nofun⟩

theorem sessionPark a0 a1 : Statement (.sessionPark a0 a1) :=
  fun h => ⟨fun _ e => by cases e; exact of_decide_eq_true (left h), nofun⟩

theorem sessionUnpark a0 a1 : Statement (.sessionUnpark a0 a1) :=
  fun h => ⟨fun _ e => by cases e; exact of_decide_eq_true (left h), nofun⟩

theorem sessionTruncate a0 a1 : Statement (.sessionTruncate a0 a1) :=
  fun h => ⟨fun _ e => by cases e; exact of_decide_eq_true (left h), nofun⟩

theorem sessionMigrate a0 a1 : Statement (.sessionMigrate a0 a1) :=
  fun h => ⟨fun _ e => by cases e; exact of_decide_eq_true (left h), nofun⟩

theorem migrateConfirm a0 a1 a2 : Statement (.migrateConfirm a0 a1 a2) :=
  fun h => ⟨fun _ e => by cases e; exact of_decide_eq_true (left h), nofun⟩

theorem recipeLoad a0 a1 : Statement (.recipeLoad a0 a1) :=
  fun h => ⟨fun _ e => by cases e; exact of_decide_eq_true (left h), nofun⟩

theorem recipePatch a0 a1 : Statement (.recipePatch a0 a1) :=
  fun h => ⟨fun _ e => by cases e; exact of_decide_eq_true (left h), nofun⟩

theorem recipeLaunch a0 a1 : Statement (.recipeLaunch a0 a1) :=
  fun h => ⟨fun _ e => by cases e; exact of_decide_eq_true (left h), nofun⟩

theorem route a0 a1 : Statement (.route a0 a1) :=
  fun h => ⟨fun _ e => by cases e; exact of_decide_eq_true (left h), nofun⟩

theorem routeItemPlace a0 a1 : Statement (.routeItemPlace a0 a1) :=
  fun h => ⟨fun _ e => by cases e; exact of_decide_eq_true (left h), fun _ e => by cases e; exact of_decide_eq_true (right h)⟩

theorem cmdSignal a0 a1 : Statement (.cmdSignal a0 a1) :=
  fun h => ⟨fun _ e => by cases e; exact of_decide_eq_true (left h), nofun⟩

theorem cmdWait a0 a1 : Statement (.cmdWait a0 a1) :=
  fun h => ⟨fun _ e => by cases e; exact of_decide_eq_true (left h), nofun⟩

theorem waitSatisfied a0 a1 : Statement (.waitSatisfied a0 a1) :=
  fun h => ⟨fun _ e => by cases e; exact of_decide_eq_true (left h), nofun⟩

theorem cmdFence a0 a1 : Statement (.cmdFence a0 a1) :=
  fun h => ⟨fun _ e => by cases e; exact of_decide_eq_true (left h), nofun⟩

theorem larderCopyComplete a0 : Statement (.larderCopyComplete a0) :=
  fun h => ⟨fun _ e => by cases e; exact of_decide_eq_true h, nofun⟩

theorem mirrorRecordReceive a0 a1 : Statement (.mirrorRecordReceive a0 a1) :=
  fun h => ⟨fun _ e => by cases e; exact of_decide_eq_true h, nofun⟩

theorem mirrorMarkReceive a0 a1 a2 a3 a4 : Statement (.mirrorMarkReceive a0 a1 a2 a3 a4) :=
  fun h => ⟨fun _ e => by cases e; exact of_decide_eq_true h, nofun⟩

theorem freeze a0 : Statement (.freeze a0) :=
  fun h => ⟨fun _ e => by cases e; exact of_decide_eq_true h, nofun⟩

theorem unfreeze a0 : Statement (.unfreeze a0) :=
  fun h => ⟨fun _ e => by cases e; exact of_decide_eq_true h, nofun⟩

theorem tenantReset a0 : Statement (.tenantReset a0) :=
  fun h => ⟨fun _ e => by cases e; exact of_decide_eq_true h, nofun⟩

theorem tenantResetComplete a0 : Statement (.tenantResetComplete a0) :=
  fun h => ⟨fun _ e => by cases e; exact of_decide_eq_true h, nofun⟩

theorem twinModeRequest a0 a1 : Statement (.twinModeRequest a0 a1) :=
  fun h => ⟨fun _ e => by cases e; exact of_decide_eq_true (left h), nofun⟩

theorem twinModeRequestReceive a0 a1 a2 a3 a4 : Statement (.twinModeRequestReceive a0 a1 a2 a3 a4) :=
  fun h => ⟨fun _ e => by cases e; exact of_decide_eq_true (left h), nofun⟩

theorem resyncComplete a0 : Statement (.resyncComplete a0) :=
  fun h => ⟨fun _ e => by cases e; exact of_decide_eq_true h, nofun⟩

theorem publish a0 : Statement (.publish a0) :=
  fun _ => ⟨nofun, nofun⟩

theorem commonDigestComplete a0 : Statement (.commonDigestComplete a0) :=
  fun _ => ⟨nofun, nofun⟩

theorem wsetGo a0 : Statement (.wsetGo a0) :=
  fun h => ⟨fun _ e => by cases e; exact of_decide_eq_true h, nofun⟩

theorem wsetDigestComplete a0 : Statement (.wsetDigestComplete a0) :=
  fun h => ⟨fun _ e => by cases e; exact of_decide_eq_true h, nofun⟩

theorem faultClear a0 : Statement (.faultClear a0) :=
  fun h => ⟨fun _ e => by cases e; exact of_decide_eq_true h, nofun⟩

theorem fltClear : Statement (.fltClear) :=
  fun _ => ⟨nofun, nofun⟩

theorem cpReset : Statement (.cpReset) :=
  fun _ => ⟨nofun, nofun⟩

theorem handover : Statement (.handover) :=
  fun _ => ⟨nofun, nofun⟩

theorem ladleCtlWrite a0 a1 : Statement (.ladleCtlWrite a0 a1) :=
  fun h => ⟨fun _ e => by cases e; exact of_decide_eq_true h, nofun⟩

theorem ladleLaunchComplete a0 a1 a2 : Statement (.ladleLaunchComplete a0 a1 a2) :=
  fun h => ⟨fun _ e => by cases e; exact of_decide_eq_true h, nofun⟩

theorem batchListReceive a0 a1 a2 : Statement (.batchListReceive a0 a1 a2) :=
  fun h => ⟨fun _ e => by cases e; exact of_decide_eq_true (left h), nofun⟩

theorem ladleCreditReceive a0 a1 : Statement (.ladleCreditReceive a0 a1) :=
  fun h => ⟨fun _ e => by cases e; exact of_decide_eq_true h, nofun⟩

theorem returnReceive a0 a1 : Statement (.returnReceive a0 a1) :=
  fun h => ⟨fun _ e => by cases e; exact of_decide_eq_true h, nofun⟩

theorem epochBoundary a0 : Statement (.epochBoundary a0) :=
  fun h => ⟨fun _ e => by cases e; exact of_decide_eq_true h, nofun⟩

theorem residentCopyComplete a0 a1 a2 a3 : Statement (.residentCopyComplete a0 a1 a2 a3) :=
  fun h => ⟨fun _ e => by cases e; exact of_decide_eq_true (left h), fun _ e => by cases e; exact of_decide_eq_true (right h)⟩

theorem reflowNoticeReceive a0 a1 : Statement (.reflowNoticeReceive a0 a1) :=
  fun h => ⟨fun _ e => by cases e; exact of_decide_eq_true h, nofun⟩

theorem stepRecordReceive a0 a1 : Statement (.stepRecordReceive a0 a1) :=
  fun h => ⟨fun _ e => by cases e; exact of_decide_eq_true h, nofun⟩

theorem unitComplete a0 a1 : Statement (.unitComplete a0 a1) :=
  fun h => ⟨fun _ e => by cases e; exact of_decide_eq_true h, nofun⟩

theorem unitDigestReceive a0 a1 a2 : Statement (.unitDigestReceive a0 a1 a2) :=
  fun h => ⟨fun _ e => by cases e; exact of_decide_eq_true h, nofun⟩

theorem computePartReset : Statement (.computePartReset) :=
  fun _ => ⟨nofun, nofun⟩

theorem computePartRelease : Statement (.computePartRelease) :=
  fun _ => ⟨nofun, nofun⟩

theorem suspectWindow a0 a1 : Statement (.suspectWindow a0 a1) :=
  fun h => ⟨fun _ e => by cases e; exact of_decide_eq_true h, nofun⟩

theorem suspectReplayLimit : Statement (.suspectReplayLimit) :=
  fun _ => ⟨nofun, nofun⟩

theorem mcFailover : Statement (.mcFailover) :=
  fun _ => ⟨nofun, nofun⟩

theorem escalationWindowEnd : Statement (.escalationWindowEnd) :=
  fun _ => ⟨nofun, nofun⟩

theorem wearInterval : Statement (.wearInterval) :=
  fun _ => ⟨nofun, nofun⟩

theorem accessionAppend a0 : Statement (.accessionAppend a0) :=
  fun _ => ⟨nofun, nofun⟩

theorem hbmPageCopyComplete a0 a1 : Statement (.hbmPageCopyComplete a0 a1) :=
  fun _ => ⟨nofun, nofun⟩

theorem vacancyTimeout a0 : Statement (.vacancyTimeout a0) :=
  fun h => ⟨nofun, fun _ e => by cases e; exact of_decide_eq_true h⟩

theorem phaseTrip a0 a1 : Statement (.phaseTrip a0 a1) :=
  fun _ => ⟨nofun, nofun⟩

theorem powerSample a0 : Statement (.powerSample a0) :=
  fun _ => ⟨nofun, nofun⟩

theorem tempSample a0 : Statement (.tempSample a0) :=
  fun _ => ⟨nofun, nofun⟩

theorem thermalUpdate : Statement (.thermalUpdate) :=
  fun _ => ⟨nofun, nofun⟩

theorem droopDetect a0 : Statement (.droopDetect a0) :=
  fun _ => ⟨nofun, nofun⟩

theorem droopRelease a0 : Statement (.droopRelease a0) :=
  fun _ => ⟨nofun, nofun⟩

theorem throttleLow a0 : Statement (.throttleLow a0) :=
  fun _ => ⟨nofun, nofun⟩

theorem throttleAccept a0 : Statement (.throttleAccept a0) :=
  fun _ => ⟨nofun, nofun⟩

theorem throttleHigh a0 : Statement (.throttleHigh a0) :=
  fun _ => ⟨nofun, nofun⟩

theorem throttleRelease a0 : Statement (.throttleRelease a0) :=
  fun _ => ⟨nofun, nofun⟩

theorem converterFail a0 : Statement (.converterFail a0) :=
  fun _ => ⟨nofun, nofun⟩

theorem railFault a0 : Statement (.railFault a0) :=
  fun _ => ⟨nofun, nofun⟩

theorem pwrModLimitWrite a0 : Statement (.pwrModLimitWrite a0) :=
  fun _ => ⟨nofun, nofun⟩

theorem vitRestart : Statement (.vitRestart) :=
  fun _ => ⟨nofun, nofun⟩

theorem traceFrameSend : Statement (.traceFrameSend) :=
  fun _ => ⟨nofun, nofun⟩

theorem jtagExtest a0 : Statement (.jtagExtest a0) :=
  fun _ => ⟨nofun, nofun⟩

theorem jtagSamplePreload a0 : Statement (.jtagSamplePreload a0) :=
  fun _ => ⟨nofun, nofun⟩

theorem jtagIdcode : Statement (.jtagIdcode) :=
  fun _ => ⟨nofun, nofun⟩

theorem jtagBypass a0 a1 : Statement (.jtagBypass a0 a1) :=
  fun _ => ⟨nofun, nofun⟩

theorem smbStatus : Statement (.smbStatus) :=
  fun _ => ⟨nofun, nofun⟩

theorem smbPower : Statement (.smbPower) :=
  fun _ => ⟨nofun, nofun⟩

theorem smbTemp : Statement (.smbTemp) :=
  fun _ => ⟨nofun, nofun⟩

theorem smbIdent : Statement (.smbIdent) :=
  fun _ => ⟨nofun, nofun⟩

theorem smbPosition : Statement (.smbPosition) :=
  fun _ => ⟨nofun, nofun⟩

theorem smbAlert : Statement (.smbAlert) :=
  fun _ => ⟨nofun, nofun⟩

theorem smbAlertClr a0 : Statement (.smbAlertClr a0) :=
  fun _ => ⟨nofun, nofun⟩

theorem registerRead a0 a1 a2 : Statement (.registerRead a0 a1 a2) :=
  fun _ => ⟨nofun, nofun⟩

theorem pcieCompletionTimeout a0 a1 : Statement (.pcieCompletionTimeout a0 a1) :=
  fun h => ⟨fun _ e => by cases e; exact of_decide_eq_true (left h), nofun⟩

theorem linkTrainingTimeout : Statement (.linkTrainingTimeout) :=
  fun _ => ⟨nofun, nofun⟩

theorem ccFail a0 : Statement (.ccFail a0) :=
  fun _ => ⟨nofun, nofun⟩

theorem memorySpaceDisable a0 : Statement (.memorySpaceDisable a0) :=
  fun _ => ⟨nofun, nofun⟩

theorem pcieEnableRestore a0 : Statement (.pcieEnableRestore a0) :=
  fun _ => ⟨nofun, nofun⟩

theorem hbmScrub a0 a1 a2 : Statement (.hbmScrub a0 a1 a2) :=
  fun _ => ⟨nofun, nofun⟩

theorem smbUnlistedCommand : Statement (.smbUnlistedCommand) :=
  fun _ => ⟨nofun, nofun⟩

end Sys2Proof.Laws.NamesExist
end

