-- ==== Sys2Proof/Tests/Slice0.lean ====
section
/-!
SUPPORT. Slice0.lean: the author's tests: small states, an ill-formed command for each check of WellFormed, and for every statement
with hypotheses a state and operands that meet them.
-/

namespace Sys2Proof.Tests

open Sys2Proof Sys2Proof.Machine



/-! ## States -/

/-- A partition record with nothing enabled. -/
def partOff : Partition :=
  { enabled := false, sealed := false, twin := 0, rings := 0, spmFirst := 0, spmBanks := 0, xreq := 0, sessFirst := 0, sessCount := 0,
    rcpFirst := 0, rcpCount := 0, tileset := 0, chgroups := 0, mscWays := [], drcWays := [], spMask := 0, stageBase := 0, stageSize := 0,
    layers := 0, heads := 0, dsel := 0, fmtKv := 0, granules := 0, poolBase := 0, dirBase := 0, mapBlocks := 0, raw := [] }

/-- Tenant 0: every tile, eight banks, channel group 0, 16 sessions, a pool of 64 granules. -/
def part0 : Partition :=
  { partOff with
    enabled := true, rings := 8, spmFirst := 0, spmBanks := 8, xreq := 64, sessFirst := 0, sessCount := 16, rcpFirst := 0, rcpCount := 16,
    tileset := 2 ^ 128 - 1, chgroups := 1, mscWays := [15, 0, 0, 0], drcWays := [15], spMask := 255, stageBase := 0x10000000, stageSize := 0x4000000,
    layers := 1, heads := 1, dsel := 0, fmtKv := 1, granules := 64, poolBase := 0x1000000, dirBase := 0x2000000, mapBlocks := 16 }

/-- Tenant 1: sealed, channel group 1, no pool. -/
def part1 : Partition :=
  { partOff with enabled := true, sealed := true, rings := 2, spmFirst := 8, spmBanks := 1, xreq := 8, rcpFirst := 16, rcpCount := 1, tileset := 1, chgroups := 2 }

/-- A Catalogue in use: module 2 of a ring of four, one common region that tenant 0 loads and tenant 1 reads. -/
def cat0 : Cat :=
  { sequence := 1, domainId := 0, modules := 16, ncvAccept := [], digest := [], keySlot := 0,
    tick := { periodUs := 1000, master := 2, alternate := 4, tickInUse := 3, align := 0 }, vcw := [1, 1, 1, 1],
    ringsOf := [[2, 4, 6, 8]],
    wear := { bankCe := 100, hbmCe := 100, bistFails := 2, optMargin := 0, optFec := 0, phaseDev := 100, phaseTemp := 100 },
    cways := [], commons := [{ loader := 0, readers := 2, groups := 4, size := 0x1000, taWin := 0x4000000000 }], moduleId := 2,
    atts := { ring := 0, position := 0 } :: List.replicate 7 { ring := 0xFF, position := 0 },
    plimit := 0, pceil := 0, rlim := List.replicate 24 0, traceGroup := 0xFF, vitCtl := 0, vitKinds := 0, vitTenants := 0,
    tables := [[{ start := 0, dur := 100, owner := 0, mask := 3 }, { start := 100, dur := 100, owner := 1, mask := 1 },
                { start := 300, dur := 5000, owner := 0x10, mask := 2 }]],
    parts := [part0, part1] ++ List.replicate 14 partOff, enabledBy := [], sealedBy := [], twinParts := [] }

/-- Write register words. -/
def withRegs (m : NMap 32) (ws : List (Nat × W32)) : NMap 32 := ws.foldl (fun m (a, v) => nset m a v) m

/-- A function with its memory space and bus mastering on, and its vectors unmasked. -/
def fnOn : FnState := { FnState.reset with ready := true, memEnable := true, busMaster := true, msix := [] }

/-- A module that serves, with tenants 0 and 1 ACTIVE; tenant 0 holds every tile. -/
def sOn : State :=
  { State.reset with
    regs := withRegs resetRegs [(0x120, 9), (0x40, 1), (0x900004, 0x1964 + 0x19640000), (0x10200, 0x10000), (0x110000, 1), (0x111000, 5)],
    pf := fnOn, vfs := Vector.replicate 16 fnOn, vfEnable := true, numVfs := 16,
    pins := { Pins.reset with perst := false, v48 := true, conv := 15, pwrgd := true },
    boot := { Boot.reset with state := .serving, inputOk := true, cat := some cat0, keysAtStart := [false, false, false, false], railsUp := 28 },
    tick := { Tick.reset with locked := true, boundaries := 5 },
    sched := { Sched.reset with entry := Vector.replicate 128 (some 0), owner := Vector.replicate 128 (some 0) },
    tiles := Vector.replicate 128 { Tile.reset with phys := some 0 } }

/-- Some register words of a state replaced. -/
def setRegs (s : State) (ws : List (Nat × W32)) : State := { s with regs := withRegs s.regs ws }

/-- The mailbox set up with an argument of 0x100 bytes. -/
def sMbx : State := { setRegs sOn [(0x108, 0x40), (0x110, 0x100)] with fuses := { sOn.fuses with rootHash := sha384 [9] } }

/-- One key enrolled in slot 0, another in slot 1. -/
def sKeys : State :=
  { sMbx with fuses := { sMbx.fuses with keys := #v[{ hash := some (sha384 [1]), revoked := false }, { hash := some (sha384 [2]), revoked := false },
      { hash := none, revoked := false }, { hash := none, revoked := false }] } }

/-- The module holds the master role and uses a locked TICK_IN. -/
def sTin : State :=
  { setRegs sOn [(0x10004, 7)] with
    tick := { sOn.tick with tin := { last := some 1000000, run := 9, locked := true, lastGood := some 1000000, phase := some 1000000 }, expected := 2000000 } }

/-- A follower in holdover, with attachment 0 up. -/
def sHold : State := { setRegs sOn [(0x10004, 0x0000000A), (0x501000, 2)] with
  boot := { sOn.boot with cat := some { cat0 with tick := { cat0.tick with master := 6, alternate := 2 } } },
  tick := { sOn.tick with holdStart := some 5, expected := 100 } }

/-- A tile program of tenant 0 that consists of the word `w` and END. -/
def prog0 (w : BitVec 256) : Prog :=
  { tenant := 0, by_ := .ring 0 0, pos := 0, top := 64, words := [w, 1], seed := 1, step := 0, sat := 0, flush := 0, nan := 0, err := 0, pois := 0,
    notes := [], loops := [], barrier := false, ended := false, xord := 0 }

/-- A tile in service. -/
def tile0 : Tile := { Tile.reset with phys := some 0 }

/-- The serving module with tile 0 as given. -/
def sWith (x : Tile) : State := sOn.setTile 0 x

/-- Tile 0 about to issue `w`. -/
def sIssue (w : BitVec 256) : State := sWith { tile0 with prog := some (prog0 w) }

/-- A start at step `n`. -/
def sStep (n : Nat) : State :=
  { setRegs State.reset [(0x120, BitVec.ofNat 32 n)] with
    boot := { Boot.reset with state := .starting, inputOk := true, keysAtStart := [false, false, false, false] }, pins := { Pins.reset with perst := false } }

/-- An instruction word from its opcode and fields, each as (lowest bit, value). -/
def word (opc : Nat) (fs : List (Nat × Nat)) : BitVec 256 := BitVec.ofNat 256 (fs.foldl (fun n (lo, v) => n + v * 2 ^ lo) opc)

/-- A word for each register instruction of the vector engine: V3 from V1 and V2 where the instruction takes them, FP32 (or BF16). -/
def vecWord (opc : Nat) : BitVec 256 :=
  let ab := [(37, 1), (42, 2)]
  if opc = 0x22 ∨ opc = 0x23 then word opc [(32, 3), (96, 0x40000000)]
  else if opc = 0x27 then word opc (ab ++ [(32, 3), (47, 4), (52, 8)])
  else if opc = 0x2A ∨ opc = 0x2B ∨ (0x30 ≤ opc ∧ opc ≤ 0x36) then word opc [(32, 3), (37, 1), (52, 8)]
  else if opc = 0x2C then word opc (ab ++ [(52, 8), (67, 1)])
  else if opc = 0x41 then word opc (ab ++ [(67, 1)])
  else if opc = 0x3F ∨ opc = 0x40 then word opc [(32, 3), (37, 1), (80, 5)]
  else if opc = 0x44 then word opc [(32, 3), (37, 1), (52, 1), (56, 8)]
  else if opc = 0x45 then word opc [(32, 3), (37, 1), (80, 2)]
  else if opc = 0x48 then word opc [(37, 1), (42, 2), (67, 1)]
  else if opc = 0x49 then word opc [(32, 3)]
  else if opc = 0x4C then word opc [(32, 3), (37, 1)]
  else if 0x38 ≤ opc ∧ opc < 0x3F then word opc (ab ++ [(32, 3), (64, 1)])
  else word opc (ab ++ [(32, 3), (52, 8)])

/-- A vector engine with something in V1 to V4, and K1 that masks every other byte group. -/
def ve0 : Ve :=
  { Ve.launch with
    v := ((Ve.launch.v.set 1 (regOf 32 [0x3F800000, 0x40490FDB, 7, 0xFFFFFFFF, 0x7FC00000, 0xBF000000])).set 2 (regOf 32 [0x40000000, 3, 0xFFFFFFFE, 2, 0x3F800000, 1])).set 3 (regOf 32 [9, 9, 9, 9, 9, 9, 9]),
    k := Ve.launch.k.set 1 0xF0FFF }

/-- Tile 0 about to issue a vector instruction. -/
def sVec (w : BitVec 256) : State := sWith { tile0 with prog := some (prog0 w), ve := ve0 }

/-- An open region of tenant 0 with its descriptor at 0x7000: three slots of 4 KiB at 0x10000, producer class `p`, consumer class `c`. -/
def region0 (p c : Nat) : Region :=
  { desc := 0x7000, tenant := 0, base := 0x10000, slotBytes := 4096, slots := 3, prod := ⟨p, 0, 0⟩, cons := ⟨c, 0, 0⟩, tags := [true, false, false],
    head := 0, tail := 1, claimC := 0, claimP := 1, heads := 0, tails := 1 }

/-- Tile 0 with two statistics records of four channels at 0x1000 and 0x1400, rows of operands at 0x2000 and 0x4000, a region descriptor at
0x7000, and a key ring there when `ring` is set. -/
def tileData (ring : Bool) : Tile :=
  { tile0 with
    mem := writeBytes (writeBytes (writeBytes (writeBytes (writeBytes [] 0x1000 (leBytes 4 4 ++ leBytes 8 2 ++ [1, 3])) 0x1400 (leBytes 4 4 ++ leBytes 8 1 ++ [1, 3]))
      0x2000 (leBytes 4 0x3F800000 ++ leBytes 4 0x40000000)) 0x4000 (leBytes 4 0x3F803F80)) 0x7000 (leBytes 4 0x10000 ++ leBytes 4 64 ++ leBytes 2 3)
    regions := if ring then [region0 3 0] else [] }

/-- Tile 0 with those data, about to issue `w`. -/
def sData (ring : Bool) (w : BitVec 256) : State := sWith { tileData ring with prog := some (prog0 w), ve := ve0 }

def wMatmul (side : Bool) : BitVec 256 :=
  word (if side then 0x11 else 0x10) [(32, if side then 1 else 3), (36, if side then 1 else 3), (40, 1), (48, 3), (56, 3), (64, 1), (96, 0x1000), (128, 0x2000),
    (152, 1), (160, 0x3000), (184, 1)]
def wVld : BitVec 256 := word 0x20 [(32, 3), (128, 0x2000)]
def wVst : BitVec 256 := word 0x21 [(37, 1), (128, 0x3000)]
def wStat (mode : Nat) : BitVec 256 := word 0x50 [(32, 8), (36, mode), (64, 1), (80, 4), (96, if mode = 3 then 0x1400 else 0x2000), (128, 1), (144, 0x1000)]
def wQconv : BitVec 256 := word 0x51 [(32, 8), (36, 3), (40, 1), (44, 1), (48, 1), (64, 4), (96, 0x2000), (128, 1), (144, 0x3000), (168, 8), (184, 0), (208, 0x3400)]
def wTopk : BitVec 256 := word 0x52 [(32, 8), (36, 1), (40, 3), (64, 1), (96, 0x2000), (120, 1), (136, 0x3000), (160, 0x3400)]
def wSample : BitVec 256 := word 0x53 [(32, 8), (36, 3), (64, 1), (96, 0x2000), (128, 1), (144, 0x3000), (168, 0x3400)]
def wAttn : BitVec 256 := word 0x60 [(40, 1), (44, 8), (48, 1), (64, 1), (96, 0x3F800000), (128, 0x4000), (160, 0x5000), (184, 0x6000), (208, 0x7000)]
def wMerge : BitVec 256 := word 0x61 [(44, 8), (48, 1), (64, 1), (128, 0x4000), (160, 0x5000)]

/-- Tile 0 holding a program `p`, a region whose sides are the tile's, and a delivery counter at 5. -/
def sTile (p : Prog) (f : List InFlight) : State :=
  { sWith { tile0 with prog := some p, flight := f, regions := [region0 0 0] } with ctrs := [(ctrKey 0 3 0, 5)] }

/-- An instruction in flight in unit `u`. -/
def flight0 (u : Nat) (w : BitVec 256) (done : Bool) : InFlight :=
  { id := 0, unit := u, word := w, inS := 0, outS := 0, ranges := [], begun := false, done := done, noted := [] }

/-- A transfer chain of tenant 0 on tile 0, channel 0, with the given descriptors on hand. -/
def chan0 (ds : List (List Byte)) : Chan :=
  { tenant := 0, csp := true, maxOut := 16, rd := (0, 0x168000), wr := (0, 0x168000), fetched := ds.map fun d => (0x8000, d), next := 0x8000, active := [],
    begun := 0, last := false, stopped := false, xstart := 0, seed := 1, step := 0, by_ := none, owner := .ring 0 0, inst := 0, remote := 0 }

/-- A descriptor that copies 256 bytes from tenant address 0x2000 to offset 0x3000. -/
def copyDesc : List Byte := descBytes 16 2 0x2000 0x3000 256 1 256 256

def sChan (c : Chan) : State := { sWith { tile0 with chans := [(0, c)] } with hbm := writeBytes [] 0x2000 [1, 2, 3] }

/-- A descriptor of another operation. -/
def descOp (op : Nat) (d : List Byte) : List Byte := d.set 0 (BitVec.ofNat 8 op)

/-- HBM with the layer header of session 0, its top table and one page. -/
def hbmDir : NMap 8 :=
  writeBytes (writeBytes (writeBytes (writeBytes [] 0x1000000 [0x80, 0x3F, 0x80, 0xBF])
    0x2000000 ([0, 0, 1, 0, 1, 0, 0, 0] ++ leBytes 8 0x1000000 ++ leBytes 4 4096 ++ leBytes 4 4096 ++ leBytes 8 0x2000040 ++ leBytes 8 0x2005000))
    0x2000040 (leBytes 8 (2 ^ 63))) 0x2005000 (leBytes 4 (2 ^ 31))

/-- The attention instruction of `sAttn` as it runs. -/
def attn0 : Attn :=
  { id := 0, word := wAttn, inS := 0, outS := 0, row := 0, rows := 1, got := 1, wrote := 0, fetched := 0, taken := 0, heads := [RowHead.empty 64], dirBad := false, pages := [], page := none }

/-- Tile 0 with an attention instruction whose walker is to fetch group 0 of session 0. -/
def sAttn : State :=
  { sWith { tileData true with
      prog := some (prog0 wAttn), mem := writeBytes (tileData true).mem 0x6000 (leBytes 4 3 ++ leBytes 4 4 ++ leBytes 6 0 ++ leBytes 2 1 ++ leBytes 8 0x2000000),
      regions := [{ region0 3 0 with tags := [false, false, false], tail := 0, claimP := 0 }], at_ := some attn0 } with
    hbm := hbmDir }

/-- A codec request of tile 0. -/
def cxReq0 (w : BitVec 256) : CxReq := { tile := 0, tenant := 0, id := 0, word := w, table := none, inS := 0, outS := 0, block := 0, hist := [] }

def wEnc : BitVec 256 := word 0x78 [(35, 1), (38, 1), (64, 1), (80, 255), (96, 0x2000), (128, 8), (160, 0x9000)]
def wDec : BitVec 256 := word 0x79 [(38, 1), (64, 1), (80, 255), (96, 0x9000), (144, 8), (160, 0x2000)]
def wTload : BitVec 256 := word 0x7A [(33, 1), (96, 0xA000)]
def wHist : BitVec 256 := word 0x7B [(38, 1), (64, 1), (80, 255), (96, 0x2000), (128, 8), (160, 0x9000)]

/-- Codec 0 with a request, and an empty table record's place filled by a table of two symbols. -/
def sCx (w : BitVec 256) : State :=
  { sWith { tileData false with prog := some (prog0 w), mem := writeBytes (tileData false).mem 0xA000 (leBytes 1 1 ++ leBytes 1 0 ++ leBytes 14 0 ++ [1, 1]) } with
    cdx := { Codecs.reset with reqs := [(codecOf 0 w, cxReq0 w)] } }

/-! ## More states -/

def fwA : Firmware := { version := 3, svn := 0, ncv := 1, wellFormed := true, rootKey := [9], certOk := true, sigOk := true }

def si : StartIn := ⟨28, true, true, [], [], true⟩

def c0 : RCmd := { RCmd.new 0 (leBytes 64 0) with st := .running, tick := 3 }

def wLoop : BitVec 256 := word 3 [(32, 3), (48, 1)]

def p2 (w : BitVec 256) : Prog := { prog0 w with words := [w, 0, 1], top := 96 }

def wC (v : Nat) := word 11 [(34, 3), (64, v)]

def wS := word 12 [(34, 3), (64, 9)]

def fAcq : InFlight := flight0 0 (word 8 [(32, 2)]) false

def fRel : InFlight := flight0 0 (word 9 [(32, 3)]) false

def mk0 : PendMark := ⟨0x7000, 1, true, 0⟩

def wX : BitVec 256 := word 0x70 [(32, 1), (35, 1), (64, 0x8000), (128, 0), (151, 64), (168, 0x1000), (191, 64)]

def wR (o : Nat) := word o [(128, 0x7000)]

def cF := chan0 []

def sF : State := { sChan cF with hbm := writeBytes [] 0x8000 copyDesc }

def c1 := chan0 [copyDesc]

def dFill := descOp 1 (descBytes 16 0 7 0x3000 256 1 0 256 |>.set 3 0)

def c2 := chan0 [dFill]

def dConv := (((descOp 2 copyDesc).set 4 0x81).set 0x25 2)

def c3 := chan0 [dConv]

def dLink := descOp 3 (leBytes 8 0 ++ leBytes 8 0x9000 ++ leBytes 48 0)

def c4 := chan0 [dLink]

def a5 : ActDesc := { bytes := copyDesc, ord := 0, inS := 0, outS := 0, a := 0x2000, b := 0x3000, total := 2, next := 2, open_ := [0, 1], told := false }

def c5 : Chan := { chan0 [] with active := [a5] }

def attnPg : Attn := { attn0 with page := some ⟨0, 16, 0, 0, 0x1000000⟩ }

def sAttnPg : State := sAttn.setTile 0 { sAttn.tile 0 with at_ := some attnPg }

def cxDone (w : BitVec 256) : CxReq := { cxReq0 w with block := 64 }

def cxBlk0 : CxBlk := ⟨0, 0, 0, 0, leBytes 128 5, false, none, none⟩

def sCxBlk (w : BitVec 256) : State := { sCx w with cdx := { Codecs.reset with reqs := [(0, cxDone w)], inq := [cxBlk0] } }

def x0 : PowerIn := { rails := [950000] ++ List.replicate 27 1000, railNj := List.replicate 28 10, vin := 4800, iin := 100, pin := 6600000, inNj := 1000, issue := [(0, .ring 0 0, 5)], moved := [(0, 0, 100)], pkts := [], phases := [(3, 2, 200, 50)] }

def xs0 : List (Nat × Nat × Int) := [(3, 1, 90), (9, 0, 101), (3, 2, 95), (3, 1, 105), (9, 0, -5)]

def sTh (held : List Nat) : State := { setRegs sOn [(0x900300, 0x000FC000), (0x900318, 0x00014000)] with pwr := { sOn.pwr with temps := List.replicate 10 98 ++ [101] ++ List.replicate 17 20, held := held } }

def sDr : State := { sOn with pwr := { sOn.pwr with droop := [3] } }

def sThr : State := { sOn with pins := { sOn.pins with throttle := true }, pwr := { sOn.pwr with lowAt := some 5 } }

def sThr2 : State := { sOn with pins := { sOn.pins with throttle := true }, pwr := { sOn.pwr with lowAt := none, floorAt := some 5 } }

def sThr3 : State := { setRegs sOn [(0x90000C, 3)] with pwr := { sOn.pwr with floorAt := some 5, highAt := some 95000 } }

def sBt : State := { sOn with pins := { sOn.pins with boardTest := true } }

def sw0 : Swap := { kind := 6, cause := 1, unit := 1, logical := 0, old := 5, new := 3, value := 9, tick := 4, at_ := 0, left := 0, noted := false, missed := false }

def sDue : State := { sIssue 0 with recov := { sOn.recov with due := some [0, 1] } }

def sHeld : State := { setRegs sOn [(0x700000, 1)] with boot := { sOn.boot with state := .recovering }, recov := { sOn.recov with held := true, suspects := [0] } }

def sRep : State := { setRegs (sIssue 0) [(0x700000, 3)] with boot := { sOn.boot with state := .recovering }, recov := { sOn.recov with replay := some (0, 0), suspects := [1] }, front := { sOn.front with rings := vupd sOn.front.rings 0 fun g => { g with cmds := [{ RCmd.new 0 (leBytes 64 0) with st := .running, replay := true }] } } }

def sRep2 : State := { setRegs (sIssue 0) [(0x700000, 3)] with boot := { sOn.boot with state := .recovering }, recov := { sOn.recov with replay := some (0, 0) } }

def sFrz : State := setRegs sOn [(0x110000, 2)]

def sRst : State := setRegs sOn [(0x110000, 3)]

def sWs : State := setRegs sOn [(0x110048, 0x1000), (0x110040, 0x5000000)]

def sFol : State := setRegs sOn [(0x40, 0), (0x110008, 0x22)]

def u0 : CmpUnit := { tick := 4, sumW := 1, sumH := 2, sumS := 3, sess := [], sat := 0, flush := 0, nan := 0, vflags := 0, codes := 0, own := none, held := [], sealMsg := none, csns := [] }

def sU (u : CmpUnit) : State := { sFol with twin := vupd sOn.twin 0 fun x => { x with units := [u] } }

def u1 : CmpUnit := { u0 with own := some [1, 2] }

def sBar : State := { sOn with pf := { fnOn with latch := [(0x10008, 7)], held := [(0x10208, 9)] } }

def sOffT : State := setRegs sBar [(0x110000, 0)]

def sMsk : State := setRegs sOn [(0x30, 0x1FF)]

def sLockW : State := { sOn with twin := vupd sOn.twin 0 fun x => { x with wsetOn := some (0x5000000, 0x1000) } }

def sNr : State := { sOn with pf := { fnOn with ready := false } }

def sFetch : State := setRegs sOn [(0x200000, 1), (0x200004, 6), (0x200024, 4), (0x200030, 1)]

/-- A DATA block with sequence number 4095, no packet, and the checksum `c`. -/
def blk (c : Nat) : List Byte := leBytes 2 4095 ++ leBytes 506 0 ++ leBytes 4 c

def sLnk (att port : Nat) : State := setRegs sOn [(0x501000, BitVec.ofNat 32 att), (0x500000, BitVec.ofNat 32 port), (0x500040, BitVec.ofNat 32 port)]

def sWin (s : State) (f : Att → Att) : State := s.updAtt 0 f

def sJoin : State := sWin (sLnk 1 2) fun a => { a with window := true }

def idFrom (m pos : Nat) : Ident := { moduleId := m, serial := 99, ring := 0, position := pos, sequence := 1, digest := [] }

def sAgain : State := sWin (sStep 6) fun a => { a with retry := true }

def pkt0 : Packet := { kind := .write, vc := 3, cls := 0, dst := 2, src := 4, tenant := 0, space := 4, gen := 0, tag := 7, addr := 0x1000, bad := 0, cnt := 5, cntEn := true, payload := [1, 2, 3, 4, 5, 6, 7, 8], ctl := none }

def sig0 : Packet := { pkt0 with kind := .signal, vc := 0, addr := 0x10FFF }

def sHeldBlk (n : Nat) : State := (sLnk 2 3).updPort 0 fun p => { p with held := [(4, pkt0), (5, sig0)], resends := n }

def sRoom : State := (sLnk 2 3).updPort 1 fun p => { p with queue := [] }

def sSeen : State := { sLnk 2 3 with lnk := { sOn.lnk with seen := [(19, [7])] } }

def held0 : HeldPkt := { pkt := { sig0 with src := 2, dst := 4 }, pair := false, waiter := .free, port := 1, sent := true }

def sHp (att : Nat) : State := let s := sLnk att 3; { s with lnk := { s.lnk with held := [held0, { held0 with pkt := { held0.pkt with tag := 8 } }] } }

def cmdBytes (op flags : Nat) (fs : List (Nat × Nat × Nat)) : List Byte :=
  fs.foldl (fun b (o, n, v) => splice b o (leBytes n v)) (leBytes 64 (op + flags * 256))

def cmd (op : Nat) (fs : List (Nat × Nat × Nat)) : RCmd := RCmd.new 5 (cmdBytes op 0 fs)

def ref0 : CmdRef := .ring 0 5

def onRing (s : State) (cs : List RCmd) : State :=
  { setRegs s [(0x200000, 1), (0x200004, 6), (0x200030, 1)] with front := { s.front with rings := vupd s.front.rings 0 fun g => { g with cmds := cs, nextCsn := 6 } } }

def sCmd (x : RCmd) : State := onRing sOn [x]

def xColl (op : Nat) (fs : List (Nat × Nat × Nat)) : RCmd := cmd 0x0A ([(0x10, 1, op), (0x11, 1, 1)] ++ fs)

def grpDesc : List Byte := leBytes 1 2 ++ leBytes 1 1 ++ leBytes 14 0 ++ [2, 1] ++ leBytes 62 0

def sColl (x : RCmd) (bound : Nat) : State :=
  let s := onRing (setRegs (sLnk 2 3) [(0x602010, BitVec.ofNat 32 bound), (0x602014, 9)]) [x]
  { s with coll := { s.coll with groups := if bound = 0 then [] else [(1, { n := 2, rank := 1, ents := [2, 1], digest := 77 })] }, hbm := writeBytes [] 0x5000 grpDesc }

def coll0 (op : Nat) : Coll := { tenant := 0, group := 1, cseq := 8, ref := ref0, op := op, red := 0, prio := 0, fin := 8, fout := 8, count := 4, src := 0x6000, srcSpm := false, dst := 0x7000, dstSpm := false, tbl := 0, idx := 0, n := 2, rank := 1, mods := [4, 2], digest := 77, table := [], segs := [], next := 0, toks := [], parts := [], heads := [], excess := false, noted := false }

def runColls (s : State) (ks : List Coll) : State := { s with coll := { s.coll with runs := ks } }

def collOps : Nat → List (Nat × Nat × Nat)
  | 2 => [(0x13, 1, 0x88), (0x14, 4, 4), (0x18, 8, 0x6000), (0x20, 8, 0x7000)]
  | 3 => [(0x13, 1, 0x88), (0x14, 4, 4), (0x18, 8, 0x6000), (0x20, 8, 0x7000)]
  | 4 => [(0x14, 4, 16), (0x18, 8, 0x6000), (0x20, 8, 0x7000)]
  | 5 => [(0x14, 4, 16), (0x18, 8, 0x6000), (0x20, 8, 0x7000)]
  | 6 => [(0x18, 8, 0x6000), (0x20, 8, 0x7000), (0x28, 8, 0x8000)]
  | _ => []

def xc (op : Nat) : RCmd := xColl op (collOps op)

def sSeg (k : Coll) : State := runColls (sColl { xc 2 with st := .running } 1) [k]

def tok0 (q d : Nat) : CollTok := { tenant := 0, group := 1, cseq := q, rank := 0, digest := d, op := 2, red := 0, fin := 8, fout := 8, count := 4, seg := 0, phase := 0, dst := 0, dstSpm := false, landing := 0, off := 0, cap := 0 }

def collEnd : Coll := { coll0 2 with next := 1, segs := [{ t := 0, pos := 0, slots := none, work := [], step := 4, sent := false }] }

def xDone : RCmd := { RCmd.new 5 (cmdBytes 0 0x12 []) with st := .done }

def sFrzRing (x : RCmd) : State := setRegs (sCmd x) [(0x110000, 2)]

def sFull (x : RCmd) : State := { sFrzRing x with front := { (sFrzRing x).front with logs := vupd (sFrzRing x).front.logs 0 fun _ => List.replicate 64 [] } }

def sOld (x : RCmd) : State := let s := setRegs (sCmd x) [(0x20002C, 2)]; { s with front := { s.front with rings := vupd s.front.rings 0 fun g => { g with timer := 2 } } }

def xRun (op : Nat) (fs : List (Nat × Nat × Nat)) : RCmd := { cmd op fs with st := .running }

def xSig (e : List Byte) : RCmd := let b := cmdBytes 0x20 0 []; RCmd.new 5 (b.take 16 ++ e ++ b.drop 48)

def eCtr : List Byte := leBytes 1 1 ++ leBytes 1 1 ++ leBytes 2 0xFFF ++ leBytes 1 0 ++ leBytes 1 3 ++ leBytes 10 0 ++ leBytes 8 7 ++ leBytes 8 0

def eSeq : List Byte := leBytes 1 1 ++ leBytes 1 2 ++ leBytes 2 3 ++ leBytes 1 0 ++ leBytes 1 3 ++ leBytes 10 0 ++ leBytes 8 7 ++ leBytes 8 0

def eFar : List Byte := leBytes 1 1 ++ leBytes 1 1 ++ leBytes 2 3 ++ leBytes 1 2 ++ leBytes 1 0 ++ leBytes 10 0 ++ leBytes 8 7 ++ leBytes 8 0

def eHost : List Byte := leBytes 1 2 ++ leBytes 7 0 ++ leBytes 8 0x5008 ++ leBytes 8 7 ++ leBytes 8 0

def xWait (v : Nat) : RCmd := cmd 0x21 [(0x10, 2, 3), (0x12, 1, 2), (0x18, 8, v)]

def sCtr (s : State) : State := { s with ctrs := [(ctrKey 0 3 2, 5)] }

def xFence (f : Nat) : RCmd := cmd 0x22 [(0x10, 1, f)]

def xInsn (op : Nat) (w : BitVec 256) : RCmd := cmd op [(0x10, 32, w.toNat)]

def xVec : RCmd := cmd 3 [(0x10, 8, 0x9000), (0x18, 4, 64), (0x1C, 4, 0x10000)]

def xXfer : RCmd := cmd 8 [(0x10, 1, 7), (0x12, 2, 63), (0x18, 8, 0x9000)]

def xLoad (n : Nat) : RCmd := cmd 0x18 [(0x10, 2, 15), (0x12, 2, n), (0x18, 8, 0x9000)]

def rcp (cs : List (List Byte)) (h1 h2 : Nat) : Recipe := { a := { cmds := cs, version := 7, holds := h1 }, b := { cmds := [], version := 0, holds := h2 }, curB := false }

def withRcp (s : State) (r : Recipe) : State := { s with front := { s.front with recipes := [(15, r)] } }

def nop2 : List (List Byte) := [cmdBytes 0 0 [], cmdBytes 0x21 0 [(0x10, 2, 3), (0x12, 1, 2)]]

def xPatch : RCmd := cmd 0x19 [(0x10, 2, 15), (0x12, 1, 1), (0x14, 1, 1), (0x15, 1, 0x18), (0x16, 1, 4), (0x18, 8, 0x11)]

def xLaunch (o : Nat) : RCmd := cmd 0x1A [(0x10, 2, 15), (0x12, 1, o), (0x18, 8, 77), (0x20, 6, 9)]

def xRoute : RCmd := cmd 0x1B [(0x10, 2, 4095), (0x12, 1, 2), (0x14, 4, 3), (0x18, 8, 0x9000), (0x20, 2, 4), (0x22, 2, 14), (0x28, 8, 0xA000), (0x30, 8, 5), (0x38, 6, 6)]

def planBytes : List Byte := leBytes 2 4 ++ leBytes 2 2 ++ [0, 1, 2, 0] ++ leBytes 8 0x20000 ++ leBytes 4 64 ++ leBytes 4 0x8000 ++ leBytes 8 0x30000 ++ leBytes 4 64 ++ leBytes 4 0x9000 ++ leBytes 8 0x40000 ++ leBytes 8 0x1000 ++ leBytes 4 64 ++ leBytes 4 0x7000 ++ leBytes 4 0xB000

def sRoute (x : RCmd) : State :=
  let s := sCmd x
  { s with hbm := writeBytes (writeBytes (writeBytes (writeBytes [] 0xA000 planBytes) 0x9000 (leBytes 2 1 ++ leBytes 2 3)) 0x9020 (leBytes 2 1 ++ leBytes 2 1)) 0x9040 (leBytes 2 0 ++ leBytes 2 3),
           front := { s.front with recipes := [(14, rcp [cmdBytes 0 0 []] 0 0), (15, rcp [cmdBytes 0 0 []] 0 0)] } }

def item0 (n e : Nat) (tile : Option Nat) (ph : Nat) : Item := { n := n, tenant := 0, ref := ref0, expert := e, slots := [0, 1], tile := tile, fetch := false, phase := ph, weights := false, cmds := [], next := 0 }

def route0 : Route := { tenant := 0, ref := ref0, bytes := xRoute.bytes, plan := planBytes ++ leBytes 256 0, half := 0, open_ := [3, 4], counts := (2, 2, 2) }

def sItems : State := let s := sRoute { xRoute with st := .running }; { s with front := { s.front with items := [item0 3 1 none 0, item0 4 2 none 0], routes := [route0], nextItem := 5 } }

def sRes : State := { sItems with hbm := writeBytes sItems.hbm 0xA140 (leBytes 16 512), front := { sItems.front with plans := [{ tenant := 0, layer := 4095, addr := 0xA000, done := [(9, 2)], loading := [(10, 2)] }] } }

def sessS (_ st : Nat) : Sess := { Sess.idle with state := st, length := 20, maxlen := 4096, kmax := 2, outring := 7 }

/-- Sessions 0 (granule 0 on page 0) and 1 (map block 1, no page) of tenant 0, with a command. -/
def sLrd (x : RCmd) (a b : Sess) (pg : Bool) : State :=
  let s := sCmd x
  { s with
    hbm := writeBytes (writeBytes (writeBytes hbmDir (part0.topEntry 0 0) (leBytes 8 (2 ^ 63))) (part0.topEntry 1 0) (leBytes 8 (2 ^ 63 + 1))) (part0.mapEntry 0 0) (leBytes 4 (if pg then 2 ^ 31 else 0)),
    lrd := { s.lrd with sess := [(0, a), (1, b)], pools := vupd s.lrd.pools 0 fun _ => { pages := if pg then [(0, { k := 0, count := 1 })] else [], maps := [0, 1] } } }

def xPg (op n src a b : Nat) : RCmd := cmd op [(0x10, 2, n), (0x12, 2, src), (0x14, 4, a), (0x18, 4, b)]

def cp0 : PCopy := { tenant := 0, session := 1, g := 0, old := 0, new := 1, k := 0 }

def sCopy : State := let s := sLrd (cmd 0 []) (sessS 0 2) (sessS 1 1) true; { s with lrd := { s.lrd with copies := [cp0] } }

def xCtl (n op : Nat) (fs : List (Nat × Nat × Nat)) : RCmd := cmd 0x15 ([(0x10, 2, n), (0x12, 1, op)] ++ fs)

def sCtl (x : RCmd) (st : Nat) : State := sLrd x (sessS 0 st) Sess.idle true

def xFeed : RCmd := cmd 0x14 [(0x10, 2, 0), (0x14, 4, 5), (0x18, 8, 0x9000)]

def sBusy : State := let s := sCtl xFeed 1; { s with lrd := { s.lrd with sess := [(0, { sessS 0 1 with flight := true })] } }

def xPark : RCmd := xCtl 0 5 [(0x14, 1, 1), (0x18, 8, 0x10000), (0x20, 4, 0x100000)]

/-- Session 0 of tenant 0, DONE, with one page on granule 0. -/
def sPark : State :=
  { sCtl xPark 4 with hbm := writeBytes (writeBytes [] (part0.topEntry 0 0) (leBytes 8 (2 ^ 63))) (part0.mapEntry 0 0) (leBytes 4 (2 ^ 31)) }

def sMig : State := let s := setRegs (sCtl (xCtl 0 8 []) 4) [(0x500400, 3)]; { s with boot := { s.boot with cat := some { cat0 with twinParts := List.replicate 16 [] } } }

def job2 : Job := { kind := 2, ref := ref0, pages := [(0, 0)], moved := 3, total := 4, ready := true }

def sJob : State := let s := sCtl { xCtl 0 8 [] with st := .running } 4; { s with lrd := { s.lrd with sess := [(0, { sessS 0 4 with job := some job2, migrating := true })] } }

def job3 : Job := { job2 with moved := 4 }

def sMoved : State := let s := sJob; { s with lrd := { s.lrd with sess := [(0, { sessS 0 4 with job := some job3, migrating := true })] } }

def part72 : Partition := { part0 with stageSize := 0x4800000 }

def sLad (role : Nat) : State := let s := setRegs sOn [(0x110300, BitVec.ofNat 32 (1 + role * 2))]; { s with boot := { s.boot with cat := some { cat0 with parts := [part72, part1] ++ List.replicate 14 partOff } } }

def list0 (q : Nat) : BList := { bseq := q, origin := 4, seed := 1, step := 2, ents := [], toks := [], chain := [], input := [], nowset := false }

def lau0 : Launch := { tenant := 0, ring := none, key := 0, recipe := 0, buf := 0, version := 1, cmds := [], next := 0, stopped := false }

def bat0 : Batch := { list := list0 0, done := false, tick := 3, single := false }

def sBat (role : Nat) : State := let s := sLad role; { s with front := { s.front with launches := [lau0] }, ladles := vupd s.ladles 0 fun l => { l with batches := [bat0] } }

/-! ## Well-formedness -/

theorem wf_refuses_functions_and_windows :
    ([.pcieAtomicop (.vf 16), .registerRead .pf 0x3FFFFFD 4, .registerRead (.vf 0) 0xFFFFD 4, .registerWrite .pf 0x4000000 [none],
      .registerWrite (.vf 16) 0 [none], .bar2Read .pf (2 ^ 40) 1, .bar2Read (.vf 16) 0 1, .bar2Write .pf (2 ^ 40) [0], .bar2Write (.vf 16) 0 [0],
      .vfFlr 16, .vfAccessLoss (.numVfs 17), .vfAccessLoss (.busMaster 16), .pcieEnableRestore (.memSpace (.vf 16)), .memorySpaceDisable (.vf 16)] :
        List Instr).all (fun i => !wf i) = true := by decide +kernel

theorem wf_refuses_board_units :
    ([.powerGood 16 false, .mbxBadCmd 1, .mbxBadCmd 16, .tickSymbolReceive 18 ⟨0, 0, 0, 0, 0⟩ 0, .delayEchoReceive 8 true 0, .censusReceive 64 0,
      .schSelWrite (2 ^ 32) 0, .entryOpen 64, .entryEnd 64, .bgAtomStart 0x17 0, .bgAtomComplete 0xF 0 ⟨[], [], [], none⟩, .bgDeadlineExpiry 0x17 0 0,
      .preempt 128, .vacancyTimeout 128, .phaseTrip 20 0, .droopDetect 8, .droopRelease 8, .converterFail 4, .railFault 28, .ccFail 8,
      .jtagBypass 16 [], .smbAlertClr 256, .hbmScrub (2 ^ 40) 1 false, .hbmPageCopyComplete 32 0, .hbmPageCopyComplete 0 516096] :
        List Instr).all (fun i => !wf i) = true := by decide +kernel

theorem wf_refuses_tiles_channels_codecs :
    ([.programLaunch 128, .nop 128 0, .vadd 128 0, .matmul 128 0, .attn 128 0, .cxEnc 128 0, .instructionComplete 128 0, .descriptorFetch 128 0,
      .descriptorFetch 0 128, .copy 0 128, .transferRequestComplete 0 128 0 0, .codecBlock 16 0, .codecBlock 0 128, .codecTloadApply 16 0,
      .routeItemPlace 0 128, .residentCopyComplete 0 0 128 0] : List Instr).all (fun i => !wf i) = true := by decide +kernel

/-- A packet from module 4 with eight bytes for tile 0. -/
def pktOk : Packet :=
  { kind := .write, vc := 3, cls := 0, dst := 63, src := 63, tenant := 15, space := 4, gen := 0, tag := 7, addr := 2 ^ 64 - 1, bad := 0, cnt := 5, cntEn := true,
    payload := leBytes 256 0, ctl := none }

theorem wf_refuses_links :
    ([.attachmentJoin 8 true true, .joinWindowExpiry 8, .identSend 18, .portPartnerLoss 18, .lnkRetry 256, .laneFail 18 0 true, .laneFail 0 5 true,
      .packetWrite { pktOk with vc := 4 }, .packetWrite { pktOk with dst := 64 }, .packetSignal { pktOk with src := 64 },
      .packetControl { pktOk with tenant := 16 }, .remoteWriteRefused { pktOk with payload := leBytes 257 0 }, .packetWrite { pktOk with addr := 2 ^ 64 },
      .packetAck pktOk 4, .e2eResendTimeout 64 0 0, .e2eResendTimeout 0 4 0, .servingAnnouncement 32 0, .servingAnnouncement 0 4,
      .servingTableRequest 64] : List Instr).all (fun i => !wf i) = true := by decide +kernel

theorem wf_refuses_tenants_rings_commands :
    ([.overrunExpiry 16 false, .collBind 16 (.ring 0 0), .collBind 0 (.ring 8 0), .cmdNop 0 (.ring 0 (2 ^ 32)), .cmdVec 0 (.stored (some 8) 0 0),
      .doorbell 16 0 0, .doorbell 0 8 0, .doorbell 0 0 (2 ^ 16), .commandFetch 0 8 none, .ringTimeout 16 0 true, .migrateConfirm 0 8192 true,
      .twinModeRequest 0 4, .publish 8, .commonDigestComplete 8, .batchListReceive 0 64 ⟨0, 0, 0, 0, [], [], [], [], false⟩, .freeze 16, .route 16 (.ring 0 0)] :
        List Instr).all (fun i => !wf i) = true := by decide +kernel

theorem wf_accepts_the_last_of_each :
    ([.pcieAtomicop (.vf 15), .registerRead .pf 0x3FFFFFC 4, .bar2Read .pf (2 ^ 40 - 1) 1, .powerGood 15 false, .mbxBadCmd 0, .mbxBadCmd 15, .entryOpen 63,
      .bgAtomStart 0x10 0, .droopDetect 7, .railFault 27, .nop 127 0, .copy 127 127, .codecBlock 15 127, .laneFail 17 4 true, .packetWrite pktOk,
      .servingAnnouncement 31 3, .cmdNop 15 (.ring 7 (2 ^ 32 - 1)), .doorbell 15 7 (2 ^ 16 - 1), .migrateConfirm 15 8191 true] :
        List Instr).all wf = true := by decide +kernel

/-! ## A checksum in pieces -/

/-- Do the pieces of a list lead a fold from `a` through these values? -/
def passes {α β : Type} [DecidableEq β] (f : β → α → β) : β → List (List α × β) → Bool
  | _, [] => true
  | a, (l, b) :: rest => decide (l.foldl f a = b) && passes f b rest

theorem passes_foldl {α β : Type} [DecidableEq β] (f : β → α → β) :
    ∀ (ps : List (List α × β)) (a : β), passes f a ps = true → (ps.flatMap (·.1)).foldl f a = ((ps.getLast?).map (·.2)).getD a
  | [], _, _ => rfl
  | [(l, b)], a, h => by simpa [passes] using h
  | (l, b) :: q :: rest, a, h => by
    simp only [passes, Bool.and_eq_true, decide_eq_true_eq] at h
    have := passes_foldl f (q :: rest) b (by simpa [passes] using h.2)
    simp only [List.flatMap_cons, List.foldl_append, h.1] at this ⊢
    rw [this, List.getLast?_cons_cons]
    cases hq : (q :: rest).getLast? with
    | none => simp at hq
    | some y => rfl

def blkPieces : List (List Byte × Nat) :=
  [(leBytes 2 4095 ++ leBytes 30 0, 279068945), (leBytes 32 0, 4039786286), (leBytes 32 0, 2070346998), (leBytes 32 0, 3062418295), (leBytes 32 0, 4225358337),
   (leBytes 32 0, 624940087), (leBytes 32 0, 3874260429), (leBytes 32 0, 3284642079), (leBytes 32 0, 482586087), (leBytes 32 0, 2216774308),
   (leBytes 32 0, 2993683948), (leBytes 32 0, 412045738), (leBytes 32 0, 4291570607), (leBytes 32 0, 2600212497), (leBytes 32 0, 2048556693),
   (leBytes 28 0, 3038051356)]

theorem crc_blk (c : Nat) : crc32c ((blk c).take 508) = 1256915939 := by
  have h := passes_foldl crcByte blkPieces 0xFFFFFFFF (by decide +kernel)
  have e : (blk c).take 508 = blkPieces.flatMap (·.1) := by
    have : (leBytes 2 4095 ++ leBytes 506 0 : List Byte).length = 508 := by decide +kernel
    unfold blk
    rw [List.take_append_of_le_length (by omega), List.take_of_length_le (by omega)]
    decide +kernel
  unfold crc32c
  rw [e, h]
  decide +kernel

set_option Elab.async false

/-! ## Every statement's hypotheses are met -/

theorem inTurn {s : State} {c r k : Nat} {x : RCmd} {p : Partition}
    (h : s.tidy = true ∧ c < 16 ∧ s.cmd c (.ring r k) = some x ∧ s.part c = some p ∧ s.turn c (.ring r k) x = true ∧ headCheck p x = none) :
    InTurn s c (.ring r k) x p :=
  ⟨h.1, h.2.1, h.2.2.1, h.2.2.2.1, h.2.2.2.2.1, h.2.2.2.2.2, fun _ _ e => nomatch e⟩

theorem larderTurn {s : State} {c r k op : Nat} {x : RCmd} {p : Partition} (hi : InTurn s c (.ring r k) x p)
    (h : x.op = op ∧ x.tick < s.beat ∧ lrdCheck s c p x = none ∧ p.granules ≠ 0 ∧ (∀ m ∈ x.sessions, (s.sess m).jobbed = false ∧ s.sessBusy c m = false) ∧
      s.waitsBefore c (.ring r k) x.sessions = false ∧ (s.comparing c = true → s.servesPair = true) ∧ x.err = 0 ∧ x.pois = 0) :
    LarderTurn s c (.ring r k) x p op :=
  ⟨hi, h.1, h.2.1, h.2.2.1, h.2.2.2.1, h.2.2.2.2.1, h.2.2.2.2.2.1, h.2.2.2.2.2.2.1, .inl ⟨_, _, rfl⟩, h.2.2.2.2.2.2.2⟩

theorem tileReady {s : State} {n : Nat} {w : BitVec 256} {p : Prog}
    (h : s.tidy = true ∧ n < 128 ∧ s.issuing n = some p ∧ fetchAt (s.tile n) (s.share p.tenant) p = .word w ∧ (s.tile n).flight = [] ∧ (s.tile n).flaws = []) :
    TileReady s n w p := h

theorem notWord {f : Fetched} (h : (match f with | .word _ => false | _ => true) = true) (w : BitVec 256) : f ≠ .word w := by
  intro e; rw [e] at h; cases h

theorem meets_powerPinsAndResetPins :
    (∃ (s : State), s.boot.inputOk = false) ∧
    (∃ (s : State), s.boot.inputOk = true) ∧
    (∃ (s : State) (conv : Nat), 3 ≤ popcount 4 conv ∧ s.boot.inputOk = false ∧ s.boot.state = ModState.standby ∧ s.pins.perst = false ∧ s.pins.mated = true) ∧
    (∃ (s : State), s.pins.perst = true ∧ s.boot.inputOk = true ∧ s.pins.mated = true ∧ s.pins.boardTest = false) ∧
    (∃ (s : State), s.pins.perst = false) ∧
    (∃ (s : State), s.pins.mated = false ∧ s.boot.inputOk = true ∧ s.pins.perst = false ∧ s.pins.boardTest = false) ∧
    (∃ (s : State), s.pins.perst = false ∧ s.pins.mated = true) :=
  ⟨⟨State.reset, by decide +kernel⟩,
    ⟨sOn, by decide +kernel⟩,
    ⟨{ State.reset with pins := { Pins.reset with perst := false } }, 15, by decide +kernel⟩,
    ⟨{ State.reset with boot := { Boot.reset with inputOk := true } }, by decide +kernel⟩,
    ⟨sOn, by decide +kernel⟩,
    ⟨{ sOn with pins := { sOn.pins with mated := false } }, by decide +kernel⟩,
    ⟨sOn, by decide +kernel⟩⟩

theorem meets_mailboxCommandsStartAndEnd :
    (∃ (s : State) (image : Option (List Byte)), s.tidy = true ∧ s.mbxBusy = false ∧ s.boot.bootRom = false ∧ s.mbxCatCode image ≠ mcOk) ∧
    (∃ (s : State), s.tidy = true ∧ s.mbxBusy = false ∧ s.boot.bootRom = false) ∧
    (∃ (s : State) (image : Option Firmware), s.tidy = true ∧ s.mbxBusy = false ∧ s.boot.bootRom = false ∧ s.mbxFwCode image = mcOk) ∧
    (∃ (s : State) (r : KeyReq), s.tidy = true ∧ s.mbxBusy = false ∧ s.boot.bootRom = false ∧ s.mbxArgOk 33554432 = true ∧ r.wellFormed = true ∧ s.fuses.enrolled = false) ∧
    (∃ (s : State) (r : KeyReq) (i : Fin 4), s.tidy = true ∧ s.mbxBusy = false ∧ s.boot.bootRom = false ∧ s.mbxArgOk 33554432 = true ∧ revokeOutcome s.fuses s.keysNow (some r) = (mcOk, some ↑i)) ∧
    (∃ (s : State) (cmd : Nat), s.tidy = true ∧ s.mbxBusy = false ∧ s.boot.bootRom = false ∧ ¬(1 ≤ cmd % 16 ∧ cmd % 16 ≤ 5)) ∧
    (∃ (s : State), s.tidy = true ∧ s.mbxBusy = false ∧ s.mayStart = true) ∧
    (∃ (s : State), s.tidy = true ∧ s.mbxBusy = true) ∧
    (∃ (s : State) (op : MbxOp), s.tidy = true ∧ s.boot.mbxRun = some op ∧ s.boot.mbxCat = none ∧ s.boot.mbxFw = none) :=
  ⟨⟨sMbx, none, by decide +kernel⟩,
    ⟨sMbx, by decide +kernel⟩,
    ⟨sMbx, (some fwA), by decide +kernel⟩,
    ⟨sMbx, (⟨true, [7], none⟩), by decide +kernel⟩,
    ⟨sKeys, (⟨true, [2], some ([1], true)⟩), 1, by decide +kernel⟩,
    ⟨sMbx, 6, by decide +kernel⟩,
    ⟨sMbx, by decide +kernel⟩,
    ⟨(setRegs sMbx [(0x104, 1)]), by decide +kernel⟩,
    ⟨{ setRegs sMbx [(0x104, 1)] with boot := { sMbx.boot with mbxRun := some .writeFw, mbxCode := 4 } }, .writeFw, by decide +kernel⟩⟩

theorem meets_tickInEdgesAndHoldover :
    (∃ (s : State) (at_ : Nat) (l : Nat), s.tidy = true ∧ s.usesTickIn = true ∧ s.tick.tin.last = some l ∧ at_ < l + 10000) ∧
    (∃ (s : State) (at_ : Nat) (l : Nat), s.tidy = true ∧ s.usesTickIn = true ∧ s.tick.tin.last = some l ∧ l + 10000 ≤ at_ ∧ s.tick.tin.locked = true ∧ s.tick.edge = none ∧ within (at_ + s.alignNs) s.tick.expected s.winNs = true) ∧
    (∃ (s : State) (at_ : Nat) (l : Nat), s.tidy = true ∧ s.usesTickIn = true ∧ s.tick.tin.last = some l ∧ l + 10000 ≤ at_ ∧ s.tick.tin.locked = true ∧ (s.tick.edge.isSome = true ∨ within (at_ + s.alignNs) s.tick.expected s.winNs = false)) ∧
    (∃ (s : State) (at_ : Nat), s.tidy = true ∧ s.usesTickIn = true ∧ s.tick.tin.locked = true ∧ s.tick.edge = none ∧ s.alignNs ≤ s.tick.expected ∧ s.tick.expected + s.winNs ≤ at_ + s.alignNs) ∧
    (∃ (s : State), s.tidy = true ∧ s.tick.edge.isSome = true) ∧
    (∃ (s : State) (at_ : Nat) (g : Nat), s.tidy = true ∧ s.src ≠ srcSlewing ∧ s.tick.tin.lastGood = some g ∧ s.usesTickIn = true ∧ s.tick.tin.locked = true ∧ 2 * g + 3 * s.periodNs ≤ 2 * at_) ∧
    (∃ (s : State), s.tidy = true ∧ s.isMaster = false ∧ s.tick.locked = true ∧ s.tick.holdStart = none) ∧
    (∃ (s : State), s.tidy = true ∧ s.isMaster = false ∧ s.tick.holdStart.isSome = true) ∧
    (∃ (s : State) (at_ : Nat), s.tidy = true ∧ s.isMaster = false ∧ s.tick.holdStart.isSome = true ∧ s.anyAttUp = true ∧ 1 ≤ tickRank s.tickRec s.moduleId ∧ s.boot.state = ModState.serving ∧ s.tick.expected ≤ at_ + s.periodNs) ∧
    (∃ (s : State), s.tidy = true ∧ s.isMaster = true ∧ s.anyAttUp = false) ∧
    (∃ (s : State), s.tidy = true) :=
  ⟨⟨sTin, 1005000, 1000000, by decide +kernel⟩,
    ⟨sTin, 2000500, 1000000, by decide +kernel⟩,
    ⟨sTin, 2005000, 1000000, by decide +kernel⟩,
    ⟨sTin, 2001000, by decide +kernel⟩,
    ⟨{ sTin with tick := { sTin.tick with edge := some (5, 6) } }, by decide +kernel⟩,
    ⟨sTin, 2500000, 1000000, by decide +kernel⟩,
    ⟨sOn, by decide +kernel⟩,
    ⟨sHold, by decide +kernel⟩,
    ⟨sHold, 2500000, by decide +kernel⟩,
    ⟨sTin, by decide +kernel⟩,
    ⟨sTin, by decide +kernel⟩⟩

theorem meets_tickSymbolsBoundariesAndLock :
    (∃ (s : State) (port : Nat) (y : TickSym), s.tidy = true ∧ port < 16 ∧ port % 2 = 0 ∧ y.hops < 63 ∧ s.attUp (port / 2) = true ∧ s.isMaster = false ∧ (∀ (l : TickSym), s.tick.lastSym = some l → l.master ≠ y.master ∨ l.number ≠ y.number)) ∧
    (∃ (s : State), s.tidy = true ∧ s.startStep = 7 ∧ s.tick.heard = false ∧ s.isMaster = false ∧ tickRank s.tickRec s.moduleId ≤ 1) ∧
    (∃ (s : State), s.tidy = true ∧ s.startStep = 7 ∧ s.tick.locked = false) ∧
    (∃ (s : State) (serial : Nat), s.tidy = true ∧ s.boot.state = ModState.starting ∧ s.flag 12 17 = true ∧ serial ≠ s.quad 16) ∧
    (∃ (s : State), s.tidy = true) ∧
    (∃ (s : State), s.tidy = true) ∧
    (∃ (s : State), s.tidy = true) ∧
    (∃ (s : State), s.tidy = true ∧ s.ticks = true ∧ s.serves = false ∧ s.boot.ready9 = false) ∧
    (∃ (s : State), s.tidy = true ∧ s.ticks = true ∧ s.serves = true) :=
  ⟨⟨sHold, 0, (⟨7, 6, 1, 3, 10⟩), by decide +kernel⟩,
    ⟨{ sStep 7 with boot := { (sStep 7).boot with cat := some cat0 } }, by decide +kernel⟩,
    ⟨(sStep 7), by decide +kernel⟩,
    ⟨(setRegs (sStep 7) [(0xC, 0x20000)]), 5, by decide +kernel⟩,
    ⟨sHold, by decide +kernel⟩,
    ⟨sHold, by decide +kernel⟩,
    ⟨sHold, by decide +kernel⟩,
    ⟨{ sStep 7 with tick := sTin.tick, regs := nset (sStep 7).regs 0x10004 1, boot := { (sStep 7).boot with cat := some cat0 } }, by decide +kernel⟩,
    ⟨sTin, by decide +kernel⟩⟩

theorem meets_startSequenceSteps :
    (∃ (s : State), s.tidy = true ∧ s.boot.state = ModState.starting ∧ s.startStep = 1 ∧ firmwareChoice s.flash s.fuses = none) ∧
    (∃ (s : State) (x : StartIn), s.tidy = true ∧ s.boot.state = ModState.starting ∧ s.startStep = 3 ∧ x.rails < 28) ∧
    (∃ (s : State) (x : StartIn), s.tidy = true ∧ s.boot.state = ModState.starting ∧ s.startStep = 8 ∧ s.boot.ready9 = false ∧ x.initOk = true ∧ x.fails = []) :=
  ⟨⟨(sStep 1), by decide +kernel⟩,
    ⟨(sStep 3), {si with rails := 4}, by decide +kernel⟩,
    ⟨{ sStep 8 with boot := { (sStep 8).boot with cat := some cat0 } }, si, by decide +kernel⟩⟩

theorem meets_scheduleEntriesAndAtoms :
    (∃ (s : State) (v : Nat), s.tidy = true ∧ s.serves = true ∧ v % 8 < s.fld 66048 16 4 ∧ bitOf v 3 = false ∧ bitOf v 11 = false ∧ bitOf v 12 = false) ∧
    (∃ (s : State) (n : Nat) (e : Entry), s.tidy = true ∧ s.table[n]? = some e ∧ s.serves = true ∧ s.sched.margin = false ∧ s.sched.open_.contains n = false ∧ (∀ (m : Nat), m ∈ s.maskTiles e.mask → (s.tile m).chans = [])) ∧
    (∃ (s : State) (n : Nat) (e : Entry), s.tidy = true ∧ s.table[n]? = some e ∧ s.sched.open_.contains n = true) ∧
    (∃ (s : State), s.tidy = true ∧ s.serves = true ∧ s.sched.margin = false ∧ s.sched.grant = none) ∧
    (∃ (s : State) (cls : Nat) (off : Nat) (e : Entry), s.tidy = true ∧ (List.find? (fun e => e.owner == cls && decide (16 ≤ cls) && decide (off + atomNs cls ≤ (e.start + e.dur) * 100)) (List.filterMap (fun i => s.table[i]?) s.sched.open_) = some e) ∧ ((s.sched.atoms.any fun x => match x with | (c, _) => c == cls) = false) ∧ s.atomTiles cls (s.maskTiles e.mask) ≠ []) ∧
    (∃ (s : State), s.tidy = true ∧ ((s.sched.atoms.any fun x => match x with | (c, _) => c == clCalib) = true)) ∧
    (∃ (s : State) (u : Nat) (at_ : Nat), s.tidy = true ∧ (((classGroups clBist).any fun g => (s.classUnits clBist g).contains u) = true) ∧ s.sched.since.isSome = true ∧ s.deadlineOf clBist u ≤ at_ ∧ ((s.sched.units.any fun x => x.cls == clBist && x.unit == u && x.missed) = false)) ∧
    (∃ (s : State) (n : Fin 128) (c : Nat) (e : Nat), s.tidy = true ∧ s.ownerOf ↑n = some c ∧ s.workOn c ↑n = true ∧ s.entryOf ↑n = some e ∧ e < 16 ∧ e ≠ c ∧ (((s.tile ↑n).chans.all fun x => match x with | (_, x) => x.tenant == c) = true)) ∧
    (∃ (s : State) (c : Fin 16) (n : Nat) (excess : Nat), s.tidy = true ∧ n < s.beat ∧ 0 < excess ∧ s.openWork (↑c) n = [] ∧ s.serves = true) :=
  ⟨⟨sOn, 0, by decide +kernel⟩,
    ⟨sOn, 1, (⟨100, 100, 1, 1⟩), by decide +kernel⟩,
    ⟨{ sOn with sched := { sOn.sched with open_ := [1] } }, 1, (⟨100, 100, 1, 1⟩), by decide +kernel⟩,
    ⟨sOn, by decide +kernel⟩,
    ⟨{ sOn with sched := { sOn.sched with open_ := [2] } }, 0x10, 40000, (⟨300, 5000, 0x10, 2⟩), by decide +kernel⟩,
    ⟨{ sOn with sched := { sOn.sched with atoms := [(clCalib, [1])] } }, by decide +kernel⟩,
    ⟨{ sOn with sched := { sOn.sched with since := some 0 } }, 1, 70000000000, by decide +kernel⟩,
    ⟨{ sIssue 0 with sched := { sOn.sched with entry := Vector.replicate 128 (some 1) } }, 0, 0, 1, by decide +kernel⟩,
    ⟨{ setRegs sOn [(0x10008, 7)] with tick := { sOn.tick with boundaries := 7 } }, 0, 6, 12, by decide +kernel⟩⟩

theorem meets_overrunFreezesTenant :
    ∃ (s : State) (c : Fin 16), s.tidy = true ∧ 2 ≤ s.beat ∧ s.active ↑c = true ∧ s.inRecovery = false ∧ (((s.openWork (↑c) (s.beat - 2)).any fun x => match x with | (ref, _) => match ref with | CmdRef.item _ _ => false | _ => true) = true) :=
  ⟨{ setRegs sOn [(0x10008, 7)] with front := { sOn.front with rings := vupd sOn.front.rings 0 fun g => { g with cmds := [c0] } } }, 0, by decide +kernel⟩

theorem meets_vectorRegisterInstructionsComplete :
    (∃ (row : (Nat → BitVec 256 → Instr) × Nat × VecOp) (s : State) (n : Nat) (w : BitVec 256) (p : Prog), row ∈ vectorRows ∧ TileReady s n w p ∧ wOpc w = row.snd.fst ∧ row.snd.snd.check w = none) ∧
    (∃ (row : (Nat → BitVec 256 → Instr) × Nat × VecOp) (s : State) (n : Nat) (w : BitVec 256) (p : Prog), row ∈ vectorRows ∧ TileReady s n w p ∧ wOpc w = row.snd.fst ∧ row.snd.snd.check w = none) ∧
    (∃ (row : (Nat → BitVec 256 → Instr) × Nat × VecOp) (s : State) (n : Nat) (w : BitVec 256) (p : Prog), row ∈ vectorRows ∧ TileReady s n w p ∧ wOpc w = row.snd.fst ∧ row.snd.snd.check w = none) ∧
    (∃ (row : (Nat → BitVec 256 → Instr) × Nat × VecOp) (s : State) (n : Nat) (w : BitVec 256) (p : Prog), row ∈ vectorRows ∧ TileReady s n w p ∧ wOpc w = row.snd.fst ∧ row.snd.snd.check w = none) ∧
    (∃ (row : (Nat → BitVec 256 → Instr) × Nat × VecOp) (s : State) (n : Nat) (w : BitVec 256) (p : Prog), row ∈ vectorRows ∧ TileReady s n w p ∧ wOpc w = row.snd.fst ∧ row.snd.snd.check w = none) ∧
    (∃ (row : (Nat → BitVec 256 → Instr) × Nat × VecOp) (s : State) (n : Nat) (w : BitVec 256) (p : Prog), row ∈ vectorRows ∧ TileReady s n w p ∧ wOpc w = row.snd.fst ∧ row.snd.snd.check w = none) ∧
    (∃ (row : (Nat → BitVec 256 → Instr) × Nat × VecOp) (s : State) (n : Nat) (w : BitVec 256) (p : Prog), row ∈ vectorRows ∧ TileReady s n w p ∧ wOpc w = row.snd.fst ∧ row.snd.snd.check w = none) ∧
    (∃ (row : (Nat → BitVec 256 → Instr) × Nat × VecOp) (s : State) (n : Nat) (w : BitVec 256) (p : Prog), row ∈ vectorRows ∧ TileReady s n w p ∧ wOpc w = row.snd.fst ∧ row.snd.snd.check w = none) ∧
    (∃ (row : (Nat → BitVec 256 → Instr) × Nat × VecOp) (s : State) (n : Nat) (w : BitVec 256) (p : Prog), row ∈ vectorRows ∧ TileReady s n w p ∧ wOpc w = row.snd.fst ∧ row.snd.snd.check w = none) ∧
    (∃ (row : (Nat → BitVec 256 → Instr) × Nat × VecOp) (s : State) (n : Nat) (w : BitVec 256) (p : Prog), row ∈ vectorRows ∧ TileReady s n w p ∧ wOpc w = row.snd.fst ∧ row.snd.snd.check w = none) ∧
    (∃ (row : (Nat → BitVec 256 → Instr) × Nat × VecOp) (s : State) (n : Nat) (w : BitVec 256) (p : Prog), row ∈ vectorRows ∧ TileReady s n w p ∧ wOpc w = row.snd.fst ∧ row.snd.snd.check w = none) ∧
    (∃ (row : (Nat → BitVec 256 → Instr) × Nat × VecOp) (s : State) (n : Nat) (w : BitVec 256) (p : Prog), row ∈ vectorRows ∧ TileReady s n w p ∧ wOpc w = row.snd.fst ∧ row.snd.snd.check w = none) ∧
    (∃ (row : (Nat → BitVec 256 → Instr) × Nat × VecOp) (s : State) (n : Nat) (w : BitVec 256) (p : Prog), row ∈ vectorRows ∧ TileReady s n w p ∧ wOpc w = row.snd.fst ∧ row.snd.snd.check w = none) ∧
    (∃ (row : (Nat → BitVec 256 → Instr) × Nat × VecOp) (s : State) (n : Nat) (w : BitVec 256) (p : Prog), row ∈ vectorRows ∧ TileReady s n w p ∧ wOpc w = row.snd.fst ∧ row.snd.snd.check w = none) ∧
    (∃ (row : (Nat → BitVec 256 → Instr) × Nat × VecOp) (s : State) (n : Nat) (w : BitVec 256) (p : Prog), row ∈ vectorRows ∧ TileReady s n w p ∧ wOpc w = row.snd.fst ∧ row.snd.snd.check w = none) ∧
    (∃ (row : (Nat → BitVec 256 → Instr) × Nat × VecOp) (s : State) (n : Nat) (w : BitVec 256) (p : Prog), row ∈ vectorRows ∧ TileReady s n w p ∧ wOpc w = row.snd.fst ∧ row.snd.snd.check w = none) ∧
    (∃ (row : (Nat → BitVec 256 → Instr) × Nat × VecOp) (s : State) (n : Nat) (w : BitVec 256) (p : Prog), row ∈ vectorRows ∧ TileReady s n w p ∧ wOpc w = row.snd.fst ∧ row.snd.snd.check w = none) ∧
    (∃ (row : (Nat → BitVec 256 → Instr) × Nat × VecOp) (s : State) (n : Nat) (w : BitVec 256) (p : Prog), row ∈ vectorRows ∧ TileReady s n w p ∧ wOpc w = row.snd.fst ∧ row.snd.snd.check w = none) ∧
    (∃ (row : (Nat → BitVec 256 → Instr) × Nat × VecOp) (s : State) (n : Nat) (w : BitVec 256) (p : Prog), row ∈ vectorRows ∧ TileReady s n w p ∧ wOpc w = row.snd.fst ∧ row.snd.snd.check w = none) ∧
    (∃ (row : (Nat → BitVec 256 → Instr) × Nat × VecOp) (s : State) (n : Nat) (w : BitVec 256) (p : Prog), row ∈ vectorRows ∧ TileReady s n w p ∧ wOpc w = row.snd.fst ∧ row.snd.snd.check w = none) ∧
    (∃ (row : (Nat → BitVec 256 → Instr) × Nat × VecOp) (s : State) (n : Nat) (w : BitVec 256) (p : Prog), row ∈ vectorRows ∧ TileReady s n w p ∧ wOpc w = row.snd.fst ∧ row.snd.snd.check w = none) ∧
    (∃ (row : (Nat → BitVec 256 → Instr) × Nat × VecOp) (s : State) (n : Nat) (w : BitVec 256) (p : Prog), row ∈ vectorRows ∧ TileReady s n w p ∧ wOpc w = row.snd.fst ∧ row.snd.snd.check w = none) ∧
    (∃ (row : (Nat → BitVec 256 → Instr) × Nat × VecOp) (s : State) (n : Nat) (w : BitVec 256) (p : Prog), row ∈ vectorRows ∧ TileReady s n w p ∧ wOpc w = row.snd.fst ∧ row.snd.snd.check w = none) ∧
    (∃ (row : (Nat → BitVec 256 → Instr) × Nat × VecOp) (s : State) (n : Nat) (w : BitVec 256) (p : Prog), row ∈ vectorRows ∧ TileReady s n w p ∧ wOpc w = row.snd.fst ∧ row.snd.snd.check w = none) ∧
    (∃ (row : (Nat → BitVec 256 → Instr) × Nat × VecOp) (s : State) (n : Nat) (w : BitVec 256) (p : Prog), row ∈ vectorRows ∧ TileReady s n w p ∧ wOpc w = row.snd.fst ∧ row.snd.snd.check w = none) ∧
    (∃ (row : (Nat → BitVec 256 → Instr) × Nat × VecOp) (s : State) (n : Nat) (w : BitVec 256) (p : Prog), row ∈ vectorRows ∧ TileReady s n w p ∧ wOpc w = row.snd.fst ∧ row.snd.snd.check w = none) ∧
    (∃ (row : (Nat → BitVec 256 → Instr) × Nat × VecOp) (s : State) (n : Nat) (w : BitVec 256) (p : Prog), row ∈ vectorRows ∧ TileReady s n w p ∧ wOpc w = row.snd.fst ∧ row.snd.snd.check w = none) ∧
    (∃ (row : (Nat → BitVec 256 → Instr) × Nat × VecOp) (s : State) (n : Nat) (w : BitVec 256) (p : Prog), row ∈ vectorRows ∧ TileReady s n w p ∧ wOpc w = row.snd.fst ∧ row.snd.snd.check w = none) ∧
    (∃ (row : (Nat → BitVec 256 → Instr) × Nat × VecOp) (s : State) (n : Nat) (w : BitVec 256) (p : Prog), row ∈ vectorRows ∧ TileReady s n w p ∧ wOpc w = row.snd.fst ∧ row.snd.snd.check w = none) ∧
    (∃ (row : (Nat → BitVec 256 → Instr) × Nat × VecOp) (s : State) (n : Nat) (w : BitVec 256) (p : Prog), row ∈ vectorRows ∧ TileReady s n w p ∧ wOpc w = row.snd.fst ∧ row.snd.snd.check w = none) ∧
    (∃ (row : (Nat → BitVec 256 → Instr) × Nat × VecOp) (s : State) (n : Nat) (w : BitVec 256) (p : Prog), row ∈ vectorRows ∧ TileReady s n w p ∧ wOpc w = row.snd.fst ∧ row.snd.snd.check w = none) ∧
    (∃ (row : (Nat → BitVec 256 → Instr) × Nat × VecOp) (s : State) (n : Nat) (w : BitVec 256) (p : Prog), row ∈ vectorRows ∧ TileReady s n w p ∧ wOpc w = row.snd.fst ∧ row.snd.snd.check w = none) ∧
    (∃ (row : (Nat → BitVec 256 → Instr) × Nat × VecOp) (s : State) (n : Nat) (w : BitVec 256) (p : Prog), row ∈ vectorRows ∧ TileReady s n w p ∧ wOpc w = row.snd.fst ∧ row.snd.snd.check w = none) :=
  ⟨⟨(vectorRows[0]'(by decide)), (sVec (vecWord (vectorRows[0]'(by decide)).2.1)), 0, (vecWord (vectorRows[0]'(by decide)).2.1), (prog0 (vecWord (vectorRows[0]'(by decide)).2.1)), List.mem_of_getElem? (i := 0) rfl, tileReady (by decide +kernel), by decide +kernel⟩,
    ⟨(vectorRows[1]'(by decide)), (sVec (vecWord (vectorRows[1]'(by decide)).2.1)), 0, (vecWord (vectorRows[1]'(by decide)).2.1), (prog0 (vecWord (vectorRows[1]'(by decide)).2.1)), List.mem_of_getElem? (i := 1) rfl, tileReady (by decide +kernel), by decide +kernel⟩,
    ⟨(vectorRows[2]'(by decide)), (sVec (vecWord (vectorRows[2]'(by decide)).2.1)), 0, (vecWord (vectorRows[2]'(by decide)).2.1), (prog0 (vecWord (vectorRows[2]'(by decide)).2.1)), List.mem_of_getElem? (i := 2) rfl, tileReady (by decide +kernel), by decide +kernel⟩,
    ⟨(vectorRows[3]'(by decide)), (sVec (vecWord (vectorRows[3]'(by decide)).2.1)), 0, (vecWord (vectorRows[3]'(by decide)).2.1), (prog0 (vecWord (vectorRows[3]'(by decide)).2.1)), List.mem_of_getElem? (i := 3) rfl, tileReady (by decide +kernel), by decide +kernel⟩,
    ⟨(vectorRows[4]'(by decide)), (sVec (vecWord (vectorRows[4]'(by decide)).2.1)), 0, (vecWord (vectorRows[4]'(by decide)).2.1), (prog0 (vecWord (vectorRows[4]'(by decide)).2.1)), List.mem_of_getElem? (i := 4) rfl, tileReady (by decide +kernel), by decide +kernel⟩,
    ⟨(vectorRows[5]'(by decide)), (sVec (vecWord (vectorRows[5]'(by decide)).2.1)), 0, (vecWord (vectorRows[5]'(by decide)).2.1), (prog0 (vecWord (vectorRows[5]'(by decide)).2.1)), List.mem_of_getElem? (i := 5) rfl, tileReady (by decide +kernel), by decide +kernel⟩,
    ⟨(vectorRows[6]'(by decide)), (sVec (vecWord (vectorRows[6]'(by decide)).2.1)), 0, (vecWord (vectorRows[6]'(by decide)).2.1), (prog0 (vecWord (vectorRows[6]'(by decide)).2.1)), List.mem_of_getElem? (i := 6) rfl, tileReady (by decide +kernel), by decide +kernel⟩,
    ⟨(vectorRows[7]'(by decide)), (sVec (vecWord (vectorRows[7]'(by decide)).2.1)), 0, (vecWord (vectorRows[7]'(by decide)).2.1), (prog0 (vecWord (vectorRows[7]'(by decide)).2.1)), List.mem_of_getElem? (i := 7) rfl, tileReady (by decide +kernel), by decide +kernel⟩,
    ⟨(vectorRows[8]'(by decide)), (sVec (vecWord (vectorRows[8]'(by decide)).2.1)), 0, (vecWord (vectorRows[8]'(by decide)).2.1), (prog0 (vecWord (vectorRows[8]'(by decide)).2.1)), List.mem_of_getElem? (i := 8) rfl, tileReady (by decide +kernel), by decide +kernel⟩,
    ⟨(vectorRows[9]'(by decide)), (sVec (vecWord (vectorRows[9]'(by decide)).2.1)), 0, (vecWord (vectorRows[9]'(by decide)).2.1), (prog0 (vecWord (vectorRows[9]'(by decide)).2.1)), List.mem_of_getElem? (i := 9) rfl, tileReady (by decide +kernel), by decide +kernel⟩,
    ⟨(vectorRows[10]'(by decide)), (sVec (vecWord (vectorRows[10]'(by decide)).2.1)), 0, (vecWord (vectorRows[10]'(by decide)).2.1), (prog0 (vecWord (vectorRows[10]'(by decide)).2.1)), List.mem_of_getElem? (i := 10) rfl, tileReady (by decide +kernel), by decide +kernel⟩,
    ⟨(vectorRows[11]'(by decide)), (sVec (vecWord (vectorRows[11]'(by decide)).2.1)), 0, (vecWord (vectorRows[11]'(by decide)).2.1), (prog0 (vecWord (vectorRows[11]'(by decide)).2.1)), List.mem_of_getElem? (i := 11) rfl, tileReady (by decide +kernel), by decide +kernel⟩,
    ⟨(vectorRows[12]'(by decide)), (sVec (vecWord (vectorRows[12]'(by decide)).2.1)), 0, (vecWord (vectorRows[12]'(by decide)).2.1), (prog0 (vecWord (vectorRows[12]'(by decide)).2.1)), List.mem_of_getElem? (i := 12) rfl, tileReady (by decide +kernel), by decide +kernel⟩,
    ⟨(vectorRows[13]'(by decide)), (sVec (vecWord (vectorRows[13]'(by decide)).2.1)), 0, (vecWord (vectorRows[13]'(by decide)).2.1), (prog0 (vecWord (vectorRows[13]'(by decide)).2.1)), List.mem_of_getElem? (i := 13) rfl, tileReady (by decide +kernel), by decide +kernel⟩,
    ⟨(vectorRows[14]'(by decide)), (sVec (vecWord (vectorRows[14]'(by decide)).2.1)), 0, (vecWord (vectorRows[14]'(by decide)).2.1), (prog0 (vecWord (vectorRows[14]'(by decide)).2.1)), List.mem_of_getElem? (i := 14) rfl, tileReady (by decide +kernel), by decide +kernel⟩,
    ⟨(vectorRows[15]'(by decide)), (sVec (vecWord (vectorRows[15]'(by decide)).2.1)), 0, (vecWord (vectorRows[15]'(by decide)).2.1), (prog0 (vecWord (vectorRows[15]'(by decide)).2.1)), List.mem_of_getElem? (i := 15) rfl, tileReady (by decide +kernel), by decide +kernel⟩,
    ⟨(vectorRows[16]'(by decide)), (sVec (vecWord (vectorRows[16]'(by decide)).2.1)), 0, (vecWord (vectorRows[16]'(by decide)).2.1), (prog0 (vecWord (vectorRows[16]'(by decide)).2.1)), List.mem_of_getElem? (i := 16) rfl, tileReady (by decide +kernel), by decide +kernel⟩,
    ⟨(vectorRows[17]'(by decide)), (sVec (vecWord (vectorRows[17]'(by decide)).2.1)), 0, (vecWord (vectorRows[17]'(by decide)).2.1), (prog0 (vecWord (vectorRows[17]'(by decide)).2.1)), List.mem_of_getElem? (i := 17) rfl, tileReady (by decide +kernel), by decide +kernel⟩,
    ⟨(vectorRows[18]'(by decide)), (sVec (vecWord (vectorRows[18]'(by decide)).2.1)), 0, (vecWord (vectorRows[18]'(by decide)).2.1), (prog0 (vecWord (vectorRows[18]'(by decide)).2.1)), List.mem_of_getElem? (i := 18) rfl, tileReady (by decide +kernel), by decide +kernel⟩,
    ⟨(vectorRows[19]'(by decide)), (sVec (vecWord (vectorRows[19]'(by decide)).2.1)), 0, (vecWord (vectorRows[19]'(by decide)).2.1), (prog0 (vecWord (vectorRows[19]'(by decide)).2.1)), List.mem_of_getElem? (i := 19) rfl, tileReady (by decide +kernel), by decide +kernel⟩,
    ⟨(vectorRows[20]'(by decide)), (sVec (vecWord (vectorRows[20]'(by decide)).2.1)), 0, (vecWord (vectorRows[20]'(by decide)).2.1), (prog0 (vecWord (vectorRows[20]'(by decide)).2.1)), List.mem_of_getElem? (i := 20) rfl, tileReady (by decide +kernel), by decide +kernel⟩,
    ⟨(vectorRows[21]'(by decide)), (sVec (vecWord (vectorRows[21]'(by decide)).2.1)), 0, (vecWord (vectorRows[21]'(by decide)).2.1), (prog0 (vecWord (vectorRows[21]'(by decide)).2.1)), List.mem_of_getElem? (i := 21) rfl, tileReady (by decide +kernel), by decide +kernel⟩,
    ⟨(vectorRows[22]'(by decide)), (sVec (vecWord (vectorRows[22]'(by decide)).2.1)), 0, (vecWord (vectorRows[22]'(by decide)).2.1), (prog0 (vecWord (vectorRows[22]'(by decide)).2.1)), List.mem_of_getElem? (i := 22) rfl, tileReady (by decide +kernel), by decide +kernel⟩,
    ⟨(vectorRows[23]'(by decide)), (sVec (vecWord (vectorRows[23]'(by decide)).2.1)), 0, (vecWord (vectorRows[23]'(by decide)).2.1), (prog0 (vecWord (vectorRows[23]'(by decide)).2.1)), List.mem_of_getElem? (i := 23) rfl, tileReady (by decide +kernel), by decide +kernel⟩,
    ⟨(vectorRows[24]'(by decide)), (sVec (vecWord (vectorRows[24]'(by decide)).2.1)), 0, (vecWord (vectorRows[24]'(by decide)).2.1), (prog0 (vecWord (vectorRows[24]'(by decide)).2.1)), List.mem_of_getElem? (i := 24) rfl, tileReady (by decide +kernel), by decide +kernel⟩,
    ⟨(vectorRows[25]'(by decide)), (sVec (vecWord (vectorRows[25]'(by decide)).2.1)), 0, (vecWord (vectorRows[25]'(by decide)).2.1), (prog0 (vecWord (vectorRows[25]'(by decide)).2.1)), List.mem_of_getElem? (i := 25) rfl, tileReady (by decide +kernel), by decide +kernel⟩,
    ⟨(vectorRows[26]'(by decide)), (sVec (vecWord (vectorRows[26]'(by decide)).2.1)), 0, (vecWord (vectorRows[26]'(by decide)).2.1), (prog0 (vecWord (vectorRows[26]'(by decide)).2.1)), List.mem_of_getElem? (i := 26) rfl, tileReady (by decide +kernel), by decide +kernel⟩,
    ⟨(vectorRows[27]'(by decide)), (sVec (vecWord (vectorRows[27]'(by decide)).2.1)), 0, (vecWord (vectorRows[27]'(by decide)).2.1), (prog0 (vecWord (vectorRows[27]'(by decide)).2.1)), List.mem_of_getElem? (i := 27) rfl, tileReady (by decide +kernel), by decide +kernel⟩,
    ⟨(vectorRows[28]'(by decide)), (sVec (vecWord (vectorRows[28]'(by decide)).2.1)), 0, (vecWord (vectorRows[28]'(by decide)).2.1), (prog0 (vecWord (vectorRows[28]'(by decide)).2.1)), List.mem_of_getElem? (i := 28) rfl, tileReady (by decide +kernel), by decide +kernel⟩,
    ⟨(vectorRows[29]'(by decide)), (sVec (vecWord (vectorRows[29]'(by decide)).2.1)), 0, (vecWord (vectorRows[29]'(by decide)).2.1), (prog0 (vecWord (vectorRows[29]'(by decide)).2.1)), List.mem_of_getElem? (i := 29) rfl, tileReady (by decide +kernel), by decide +kernel⟩,
    ⟨(vectorRows[30]'(by decide)), (sVec (vecWord (vectorRows[30]'(by decide)).2.1)), 0, (vecWord (vectorRows[30]'(by decide)).2.1), (prog0 (vecWord (vectorRows[30]'(by decide)).2.1)), List.mem_of_getElem? (i := 30) rfl, tileReady (by decide +kernel), by decide +kernel⟩,
    ⟨(vectorRows[31]'(by decide)), (sVec (vecWord (vectorRows[31]'(by decide)).2.1)), 0, (vecWord (vectorRows[31]'(by decide)).2.1), (prog0 (vecWord (vectorRows[31]'(by decide)).2.1)), List.mem_of_getElem? (i := 31) rfl, tileReady (by decide +kernel), by decide +kernel⟩,
    ⟨(vectorRows[32]'(by decide)), (sVec (vecWord (vectorRows[32]'(by decide)).2.1)), 0, (vecWord (vectorRows[32]'(by decide)).2.1), (prog0 (vecWord (vectorRows[32]'(by decide)).2.1)), List.mem_of_getElem? (i := 32) rfl, tileReady (by decide +kernel), by decide +kernel⟩⟩

theorem meets_integerLanesComputeModulo :
    (∃ (s : State) (n : Nat) (w : BitVec 256) (p : Prog), TileReady s n w p ∧ wOpc w = 56 ∧ iaddOp.check w = none) ∧
    (∃ (s : State) (n : Nat) (w : BitVec 256) (p : Prog), TileReady s n w p ∧ wOpc w = 57 ∧ isubOp.check w = none) ∧
    (∃ (s : State) (n : Nat) (w : BitVec 256) (p : Prog), TileReady s n w p ∧ wOpc w = 58 ∧ imulOp.check w = none) ∧
    (∃ (s : State) (n : Nat) (w : BitVec 256) (p : Prog), TileReady s n w p ∧ wOpc w = 59 ∧ imulhiOp.check w = none) ∧
    (∃ (s : State) (n : Nat) (w : BitVec 256) (p : Prog), TileReady s n w p ∧ wOpc w = 60 ∧ iandOp.check w = none) ∧
    (∃ (s : State) (n : Nat) (w : BitVec 256) (p : Prog), TileReady s n w p ∧ wOpc w = 61 ∧ iorOp.check w = none) ∧
    (∃ (s : State) (n : Nat) (w : BitVec 256) (p : Prog), TileReady s n w p ∧ wOpc w = 62 ∧ ixorOp.check w = none) ∧
    (∃ (s : State) (n : Nat) (w : BitVec 256) (p : Prog), TileReady s n w p ∧ wOpc w = 63 ∧ ishlOp.check w = none) ∧
    (∃ (s : State) (n : Nat) (w : BitVec 256) (p : Prog), TileReady s n w p ∧ wOpc w = 64 ∧ ishrOp.check w = none) :=
  ⟨⟨(sVec (vecWord 56)), 0, (vecWord 56), (prog0 (vecWord 56)), tileReady (by decide +kernel), by decide +kernel⟩,
    ⟨(sVec (vecWord 57)), 0, (vecWord 57), (prog0 (vecWord 57)), tileReady (by decide +kernel), by decide +kernel⟩,
    ⟨(sVec (vecWord 58)), 0, (vecWord 58), (prog0 (vecWord 58)), tileReady (by decide +kernel), by decide +kernel⟩,
    ⟨(sVec (vecWord 59)), 0, (vecWord 59), (prog0 (vecWord 59)), tileReady (by decide +kernel), by decide +kernel⟩,
    ⟨(sVec (vecWord 60)), 0, (vecWord 60), (prog0 (vecWord 60)), tileReady (by decide +kernel), by decide +kernel⟩,
    ⟨(sVec (vecWord 61)), 0, (vecWord 61), (prog0 (vecWord 61)), tileReady (by decide +kernel), by decide +kernel⟩,
    ⟨(sVec (vecWord 62)), 0, (vecWord 62), (prog0 (vecWord 62)), tileReady (by decide +kernel), by decide +kernel⟩,
    ⟨(sVec (vecWord 63)), 0, (vecWord 63), (prog0 (vecWord 63)), tileReady (by decide +kernel), by decide +kernel⟩,
    ⟨(sVec (vecWord 64)), 0, (vecWord 64), (prog0 (vecWord 64)), tileReady (by decide +kernel), by decide +kernel⟩⟩

theorem meets_unitInstructionsRunInTheirUnits :
    (∃ (s : State) (n : Nat) (w : BitVec 256) (p : Prog), TileReady s n w p ∧ wOpc w = 16 ∧ mmCheck false (s.tile n) p.tenant (s.share p.tenant) w = none) ∧
    (∃ (s : State) (n : Nat) (w : BitVec 256) (p : Prog), TileReady s n w p ∧ wOpc w = 17 ∧ mmCheck true (s.tile n) p.tenant (s.share p.tenant) w = none) ∧
    (∃ (s : State) (n : Nat) (w : BitVec 256) (p : Prog), TileReady s n w p ∧ wOpc w = 32 ∧ memCheck (s.tile n) p.tenant (s.share p.tenant) w true = none) ∧
    (∃ (s : State) (n : Nat) (w : BitVec 256) (p : Prog), TileReady s n w p ∧ wOpc w = 33 ∧ memCheck (s.tile n) p.tenant (s.share p.tenant) w false = none) ∧
    (∃ (s : State) (n : Nat) (w : BitVec 256) (p : Prog), TileReady s n w p ∧ (statArgs w).mode = 0 ∧ wOpc w = 80 ∧ statCheck (s.tile n) p.tenant (s.share p.tenant) w = none) ∧
    (∃ (s : State) (n : Nat) (w : BitVec 256) (p : Prog), TileReady s n w p ∧ (statArgs w).mode = 1 ∧ wOpc w = 80 ∧ statCheck (s.tile n) p.tenant (s.share p.tenant) w = none) ∧
    (∃ (s : State) (n : Nat) (w : BitVec 256) (p : Prog), TileReady s n w p ∧ (statArgs w).mode = 2 ∧ wOpc w = 80 ∧ statCheck (s.tile n) p.tenant (s.share p.tenant) w = none) ∧
    (∃ (s : State) (n : Nat) (w : BitVec 256) (p : Prog), TileReady s n w p ∧ (statArgs w).mode = 3 ∧ wOpc w = 80 ∧ statCheck (s.tile n) p.tenant (s.share p.tenant) w = none) ∧
    (∃ (s : State) (n : Nat) (w : BitVec 256) (p : Prog), TileReady s n w p ∧ ((qcArgs w).useRec && inShare (s.share p.tenant) (qcArgs w).aux (recBytes (qcArgs w).c) && (s.tile n).readBad (qcArgs w).aux (recBytes (qcArgs w).c)) = false ∧ wOpc w = 81 ∧ qcCheck (s.tile n) p.tenant (s.share p.tenant) w = none) ∧
    (∃ (s : State) (n : Nat) (w : BitVec 256) (p : Prog), TileReady s n w p ∧ wOpc w = 82 ∧ topkCheck (s.tile n) p.tenant (s.share p.tenant) w = none) ∧
    (∃ (s : State) (n : Nat) (w : BitVec 256) (p : Prog), TileReady s n w p ∧ wOpc w = 83 ∧ sampCheck (s.share p.tenant) w = none) ∧
    (∃ (s : State) (n : Nat) (w : BitVec 256) (p : Prog), TileReady s n w p ∧ wOpc w = 96 ∧ attnCheck (s.tile n) p.tenant (s.share p.tenant) w = none) ∧
    (∃ (s : State) (n : Nat) (w : BitVec 256) (p : Prog), TileReady s n w p ∧ wOpc w = 97 ∧ mergeCheck (s.share p.tenant) w = none) :=
  ⟨⟨(sData false (wMatmul false)), 0, (wMatmul false), (prog0 (wMatmul false)), tileReady (by decide +kernel), by decide +kernel⟩,
    ⟨(sData false (wMatmul true)), 0, (wMatmul true), (prog0 (wMatmul true)), tileReady (by decide +kernel), by decide +kernel⟩,
    ⟨(sData false (wVld)), 0, wVld, (prog0 (wVld)), tileReady (by decide +kernel), by decide +kernel⟩,
    ⟨(sData false (wVst)), 0, wVst, (prog0 (wVst)), tileReady (by decide +kernel), by decide +kernel⟩,
    ⟨(sData false (wStat 0)), 0, (wStat 0), (prog0 (wStat 0)), tileReady (by decide +kernel), by decide +kernel⟩,
    ⟨(sData false (wStat 1)), 0, (wStat 1), (prog0 (wStat 1)), tileReady (by decide +kernel), by decide +kernel⟩,
    ⟨(sData false (wStat 2)), 0, (wStat 2), (prog0 (wStat 2)), tileReady (by decide +kernel), by decide +kernel⟩,
    ⟨(sData false (wStat 3)), 0, (wStat 3), (prog0 (wStat 3)), tileReady (by decide +kernel), by decide +kernel⟩,
    ⟨(sData false (wQconv)), 0, wQconv, (prog0 (wQconv)), tileReady (by decide +kernel), by decide +kernel⟩,
    ⟨(sData false (wTopk)), 0, wTopk, (prog0 (wTopk)), tileReady (by decide +kernel), by decide +kernel⟩,
    ⟨(sData false (wSample)), 0, wSample, (prog0 (wSample)), tileReady (by decide +kernel), by decide +kernel⟩,
    ⟨(sData true (wAttn)), 0, wAttn, (prog0 (wAttn)), tileReady (by decide +kernel), by decide +kernel⟩,
    ⟨(sData false (wMerge)), 0, wMerge, (prog0 (wMerge)), tileReady (by decide +kernel), by decide +kernel⟩⟩

theorem meets_vectorLoadAndStoreMoveBytes :
    (∃ (s : State) (n : Nat) (w : BitVec 256) (p : Prog), TileReady s n w p ∧ vCirc w = false ∧ wOpc w = 32 ∧ memCheck (s.tile n) p.tenant (s.share p.tenant) w true = none) ∧
    (∃ (s : State) (n : Nat) (w : BitVec 256) (p : Prog), TileReady s n w p ∧ vCirc w = false ∧ wOpc w = 33 ∧ memCheck (s.tile n) p.tenant (s.share p.tenant) w false = none ∧ nwf (s.tile n).mem = true) :=
  ⟨⟨(sData false wVld), 0, wVld, (prog0 wVld), tileReady (by decide +kernel), by decide +kernel⟩,
    ⟨(sData false wVst), 0, wVst, (prog0 wVst), tileReady (by decide +kernel), by decide +kernel⟩⟩

theorem meets_sequencerControlAndOrdering :
    (∃ (s : State) (n : Nat) (w : BitVec 256) (p : Prog), TileReady s n w p ∧ wOpc w = 0 ∧ onlyBits w 0 = true) ∧
    (∃ (s : State) (n : Nat) (w : BitVec 256) (p : Prog), TileReady s n w p ∧ wOpc w = 1 ∧ onlyBits w 0 = true) ∧
    (∃ (s : State) (n : Nat) (w : BitVec 256) (p : Prog), TileReady s n w p ∧ wOpc w = 2 ∧ onlyBits w 0 = true) ∧
    (∃ (s : State) (n : Nat) (w : BitVec 256) (p : Prog), TileReady s n w p ∧ wOpc w = 3 ∧ onlyBits w (bitsAt 55 32) = true ∧ 0 < bf w 47 32 ∧ 0 < bf w 55 48 ∧ bf w 55 48 ≤ 63 ∧ (advance p.loops p.pos).fst.length < 2 ∧ (∀ (i : Nat), i < bf w 55 48 → p.pos + 32 * (i + 2) ≤ p.top → wOpc (wordAt (s.tile n) p (p.pos + 32 * (i + 1))) ≠ 1)) ∧
    (∃ (s : State) (n : Nat) (w : BitVec 256) (p : Prog), TileReady s n w p ∧ wOpc w = 8 ∧ onlyBits w (bitsAt 33 32) = true) ∧
    (∃ (s : State) (n : Nat) (w : BitVec 256) (p : Prog), TileReady s n w p ∧ wOpc w = 9 ∧ onlyBits w (bitsAt 33 32) = true) ∧
    (∃ (s : State) (n : Nat) (w : BitVec 256) (p : Prog), TileReady s n w p ∧ wOpc w = 10 ∧ onlyBits w (bitsAt 33 32) = true) ∧
    (∃ (s : State) (n : Nat) (w : BitVec 256) (p : Prog), TileReady s n w p ∧ wOpc w = 11 ∧ onlyBits w (bitsAt 47 32 ||| bitsAt 127 64) = true ∧ bf w 47 46 ≠ 3) ∧
    (∃ (s : State) (n : Nat) (w : BitVec 256) (p : Prog), TileReady s n w p ∧ wOpc w = 12 ∧ onlyBits w (bitsAt 47 34 ||| bitsAt 127 64) = true ∧ bf w 47 46 ≠ 3) :=
  ⟨⟨(sIssue 0), 0, 0, (prog0 0), tileReady (by decide +kernel), by decide +kernel⟩,
    ⟨(sIssue 1), 0, 1, (prog0 1), tileReady (by decide +kernel), by decide +kernel⟩,
    ⟨(sIssue 2), 0, 2, (prog0 2), tileReady (by decide +kernel), by decide +kernel⟩,
    ⟨(sTile (p2 wLoop) []), 0, wLoop, (p2 wLoop), tileReady (by decide +kernel), by decide +kernel⟩,
    ⟨(sIssue (word 8 [(32,2)])), 0, (word 8 [(32,2)]), (prog0 (word 8 [(32,2)])), tileReady (by decide +kernel), by decide +kernel⟩,
    ⟨(sIssue (word 9 [(32,2)])), 0, (word 9 [(32,2)]), (prog0 (word 9 [(32,2)])), tileReady (by decide +kernel), by decide +kernel⟩,
    ⟨(sIssue (word 10 [(32,2)])), 0, (word 10 [(32,2)]), (prog0 (word 10 [(32,2)])), tileReady (by decide +kernel), by decide +kernel⟩,
    ⟨(sTile (prog0 (wC 5)) []), 0, (wC 5), (prog0 (wC 5)), tileReady (by decide +kernel), by decide +kernel⟩,
    ⟨(sTile (prog0 wS) []), 0, wS, (prog0 wS), tileReady (by decide +kernel), by decide +kernel⟩⟩

theorem meets_programLaunchWaitsAndCompletion :
    (∃ (s : State) (n : Nat) (p : Prog), s.tidy = true ∧ n < 128 ∧ (s.tile n).flaws = [] ∧ (s.tile n).launch = some p ∧ (s.tile n).prog = none ∧ s.holds p.tenant n = true) ∧
    (∃ (s : State) (n : Nat) (p : Prog) (c : Nat) (f : Nat) (v : Nat) (scope : Nat), s.tidy = true ∧ n < 128 ∧ (s.tile n).flaws = [] ∧ (s.tile n).prog = some p ∧ (s.tile n).cwait = some (c, f, v, scope) ∧ v ≤ s.ctr p.tenant c f ∧ s.holds p.tenant n = true) ∧
    (∃ (s : State) (n : Nat) (p : Prog) (f : InFlight), s.tidy = true ∧ n < 128 ∧ (s.tile n).flaws = [] ∧ (s.tile n).prog = some p ∧ (s.tile n).flight = [f] ∧ f.unit ≠ 0 ∧ f.done = true) ∧
    (∃ (s : State) (n : Nat) (p : Prog) (f : InFlight), s.tidy = true ∧ n < 128 ∧ (s.tile n).flaws = [] ∧ (s.tile n).prog = some p ∧ (s.tile n).flight = [f] ∧ f.unit = 0 ∧ s.holds p.tenant n = true ∧ (wOpc f.word ≠ 8 → scopeOf f.word = 3 → s.unacked n p.tenant p.by_ = false)) ∧
    (∃ (s : State) (n : Nat) (p : Prog), s.tidy = true ∧ n < 128 ∧ (s.tile n).flaws = [] ∧ (s.tile n).prog = some p ∧ p.ended = true ∧ (s.tile n).flight = [] ∧ (s.tile n).marks = [] ∧ s.holds p.tenant n = true ∧ s.unacked n p.tenant p.by_ = false) ∧
    (∃ (s : State) (n : Nat) (m : PendMark), s.tidy = true ∧ n < 128 ∧ (s.tile n).flaws = [] ∧ (s.tile n).marks = [m] ∧ (((s.tile n).flight.any fun f => decide (f.id < m.after)) = false)) ∧
    (∃ (s : State) (n : Nat) (p : Prog) (f : InFlight), s.tidy = true ∧ n < 128 ∧ (s.tile n).flaws = [] ∧ (s.tile n).prog = some p ∧ (List.find? (fun x => x.unit == 2) (s.tile n).flight = some f) ∧ f.done = false ∧ s.holds p.tenant n = true) ∧
    (∃ (s : State) (n : Nat) (p : Prog), (∀ (w : BitVec 256), fetchAt (s.tile n) (s.share p.tenant) p ≠ Fetched.word w) ∧ s.tidy = true ∧ n < 128 ∧ (s.tile n).flaws = [] ∧ s.issuing n = some p ∧ p.tenant < 16) ∧
    (∃ (s : State) (n : Nat) (p : Prog) (w : BitVec 256), s.tidy = true ∧ n < 128 ∧ (s.tile n).flaws = [] ∧ s.issuing n = some p ∧ p.tenant < 16 ∧ fetchAt (s.tile n) (s.share p.tenant) p = Fetched.word w ∧ assigned (wOpc w) = false) :=
  ⟨⟨(sWith { tile0 with launch := some (prog0 0) }), 0, (prog0 0), by decide +kernel⟩,
    ⟨(sTile (prog0 0) []).setTile 0 { ((sTile (prog0 0) []).tile 0) with cwait := some (3, 0, 5, 0) }, 0, (prog0 0), 3, 0, 5, 0, by decide +kernel⟩,
    ⟨(sTile (prog0 0) [flight0 1 (wMatmul false) true]), 0, (prog0 0), (flight0 1 (wMatmul false) true), by decide +kernel⟩,
    ⟨(sTile (prog0 0) [fAcq]), 0, (prog0 0), fAcq, by decide +kernel⟩,
    ⟨(sTile { prog0 0 with ended := true } []), 0, { prog0 0 with ended := true }, by decide +kernel⟩,
    ⟨(sWith { tile0 with marks := [mk0], regions := [region0 0 0] }), 0, mk0, by decide +kernel⟩,
    ⟨(sWith { tileData false with prog := some (prog0 wVst), flight := [flight0 2 wVst false], ve := ve0 }), 0, (prog0 wVst), (flight0 2 wVst false), by decide +kernel⟩,
    ⟨(sTile { prog0 0 with pos := 64 } []), 0, { prog0 0 with pos := 64 }, notWord (by decide +kernel), by decide +kernel⟩,
    ⟨(sIssue 0xFF), 0, (prog0 0xFF), 0xFF, by decide +kernel⟩⟩

theorem meets_regionsChainsAndCodecRequestsIssue :
    (∃ (s : State) (n : Nat) (w : BitVec 256) (p : Prog), TileReady s n w p ∧ wOpc w = 112 ∧ xstartCheck s p (s.share p.tenant) w = none ∧ s.chan n (8 * p.tenant + bf w 34 32) = none) ∧
    (∃ (s : State) (n : Nat) (w : BitVec 256) (p : Prog) (r : Region), TileReady s n w p ∧ wOpc w = 113 ∧ rgnCheck (s.share p.tenant) w false = none ∧ (s.tile n).readBad (vOff w) 64 = false ∧ openRegion (s.tile n) p.tenant (s.share p.tenant) (vOff w) = some r ∧ (s.tile n).region (vOff w) = none ∧ ((List.filter (fun x => x.tenant == p.tenant) (s.tile n).regions).length + 1 ≤ 2 * (Option.map (fun x => x.spmBanks) (s.part p.tenant)).getD 0) ∧ ((List.map (fun x => x.slots) (List.filter (fun x => x.tenant == p.tenant) (s.tile n).regions)).sum + r.slots ≤ 256 * (Option.map (fun x => x.spmBanks) (s.part p.tenant)).getD 0)) ∧
    (∃ (s : State) (n : Nat) (w : BitVec 256) (p : Prog) (r : Region), TileReady s n w p ∧ wOpc w = 114 ∧ rgnCheck (s.share p.tenant) w false = none ∧ (s.tile n).region (vOff w) = some r ∧ r.tenant = p.tenant ∧ (s.tile n).marks = [] ∧ r.prod.cls = 0 ∧ r.cons.cls = 0) ∧
    (∃ (s : State) (n : Nat) (w : BitVec 256) (p : Prog) (r : Region), TileReady s n w p ∧ wOpc w = 115 ∧ slotCheck p (s.tile n) (s.share p.tenant) w = none ∧ (s.tile n).region (vOff w) = some r) ∧
    (∃ (s : State) (n : Nat) (w : BitVec 256) (p : Prog) (r : Region), TileReady s n w p ∧ wOpc w = 116 ∧ slotCheck p (s.tile n) (s.share p.tenant) w = none ∧ (s.tile n).region (vOff w) = some r) ∧
    (∃ (s : State) (n : Nat) (w : BitVec 256) (p : Prog) (opc : Nat) (c : Instr), TileReady s n w p ∧ (opc, c) ∈ [(120, Instr.cxEnc n w), (121, Instr.cxDec n w), (122, Instr.cxTload n w), (123, Instr.cxHist n w)] ∧ wOpc w = opc ∧ cxCheck opc (s.tile n) p.tenant (s.share p.tenant) w = none) :=
  ⟨⟨(sIssue wX), 0, wX, (prog0 wX), tileReady (by decide +kernel), by decide +kernel⟩,
    ⟨(sData false (wR 0x71)), 0, (wR 0x71), (prog0 (wR 0x71)), { region0 0 0 with slotBytes := 64, tags := [false,false,false], tail := 0, claimP := 0, tails := 0 }, tileReady (by decide +kernel), by decide +kernel⟩,
    ⟨(sTile (prog0 (wR 0x72)) []), 0, (wR 0x72), (prog0 (wR 0x72)), (region0 0 0), tileReady (by decide +kernel), by decide +kernel⟩,
    ⟨(sTile (prog0 (wR 0x73)) []), 0, (wR 0x73), (prog0 (wR 0x73)), (region0 0 0), tileReady (by decide +kernel), by decide +kernel⟩,
    ⟨(sTile (prog0 (wR 0x74)) []), 0, (wR 0x74), (prog0 (wR 0x74)), (region0 0 0), tileReady (by decide +kernel), by decide +kernel⟩,
    ⟨(sData false wEnc), 0, wEnc, (prog0 wEnc), 0x78, (.cxEnc 0 wEnc), tileReady (by decide +kernel), by decide +kernel⟩⟩

theorem meets_chainsDescriptorsAndCodecWork :
    (∃ (s : State) (tile : Nat) (ch : Nat) (c : Chan) (a : Nat) (bs : List Byte), s.tidy = true ∧ tile < 128 ∧ (s.tile tile).flaws = [] ∧ s.chan tile ch = some c ∧ c.stopped = false ∧ c.last = false ∧ s.holds c.tenant tile = true ∧ c.fetched = [] ∧ (s.burst tile c 16 c.next).getLast? = some (a, bs)) ∧
    (∃ (s : State) (tile : Nat) (ch : Nat) (c : Chan) (at_ : Nat) (bytes : List Byte) (rest : List (Nat × List Byte)) (op : Nat) (i : Nat) (o : Nat), s.tidy = true ∧ tile < 128 ∧ s.chan tile ch = some c ∧ c.stopped = false ∧ c.last = false ∧ s.holds c.tenant tile = true ∧ c.front = none ∧ c.fetched = (at_, bytes) :: rest ∧ bytes ≠ [] ∧ (xdesc bytes).op = op ∧ op < 3 ∧ s.checkDesc tile ch c (xdesc bytes) = none ∧ ((if op = 1 then some 0 else s.sideSlot tile ch c.tenant (xdesc bytes).srcSp (xdesc bytes).src (xdesc bytes).srcCirc true) = some i) ∧ s.sideSlot tile ch c.tenant (xdesc bytes).dstSp (xdesc bytes).dst (xdesc bytes).dstCirc false = some o ∧ ((xdesc bytes).mustWait tile c (if op = 1 then 0 else s.sideBase tile ch c.tenant (xdesc bytes).srcSp (xdesc bytes).src (xdesc bytes).srcCirc true i) = false) ∧ op = 0) ∧
    (∃ (s : State) (tile : Nat) (ch : Nat) (c : Chan) (at_ : Nat) (bytes : List Byte) (rest : List (Nat × List Byte)) (op : Nat) (i : Nat) (o : Nat), s.tidy = true ∧ tile < 128 ∧ s.chan tile ch = some c ∧ c.stopped = false ∧ c.last = false ∧ s.holds c.tenant tile = true ∧ c.front = none ∧ c.fetched = (at_, bytes) :: rest ∧ bytes ≠ [] ∧ (xdesc bytes).op = op ∧ op < 3 ∧ s.checkDesc tile ch c (xdesc bytes) = none ∧ ((if op = 1 then some 0 else s.sideSlot tile ch c.tenant (xdesc bytes).srcSp (xdesc bytes).src (xdesc bytes).srcCirc true) = some i) ∧ s.sideSlot tile ch c.tenant (xdesc bytes).dstSp (xdesc bytes).dst (xdesc bytes).dstCirc false = some o ∧ ((xdesc bytes).mustWait tile c (if op = 1 then 0 else s.sideBase tile ch c.tenant (xdesc bytes).srcSp (xdesc bytes).src (xdesc bytes).srcCirc true i) = false) ∧ op = 1) ∧
    (∃ (s : State) (tile : Nat) (ch : Nat) (c : Chan) (at_ : Nat) (bytes : List Byte) (rest : List (Nat × List Byte)) (op : Nat) (i : Nat) (o : Nat), s.tidy = true ∧ tile < 128 ∧ s.chan tile ch = some c ∧ c.stopped = false ∧ c.last = false ∧ s.holds c.tenant tile = true ∧ c.front = none ∧ c.fetched = (at_, bytes) :: rest ∧ bytes ≠ [] ∧ (xdesc bytes).op = op ∧ op < 3 ∧ s.checkDesc tile ch c (xdesc bytes) = none ∧ ((if op = 1 then some 0 else s.sideSlot tile ch c.tenant (xdesc bytes).srcSp (xdesc bytes).src (xdesc bytes).srcCirc true) = some i) ∧ s.sideSlot tile ch c.tenant (xdesc bytes).dstSp (xdesc bytes).dst (xdesc bytes).dstCirc false = some o ∧ ((xdesc bytes).mustWait tile c (if op = 1 then 0 else s.sideBase tile ch c.tenant (xdesc bytes).srcSp (xdesc bytes).src (xdesc bytes).srcCirc true i) = false) ∧ op = 2) ∧
    (∃ (s : State) (tile : Nat) (ch : Nat) (c : Chan) (at_ : Nat) (bytes : List Byte) (rest : List (Nat × List Byte)), s.tidy = true ∧ tile < 128 ∧ s.chan tile ch = some c ∧ c.stopped = false ∧ c.last = false ∧ s.holds c.tenant tile = true ∧ c.fetched = (at_, bytes) :: rest ∧ bytes ≠ [] ∧ (xdesc bytes).op = 3 ∧ s.checkDesc tile ch c (xdesc bytes) = none ∧ (xdesc bytes).isLast = false ∧ c.active = []) ∧
    (∃ (s : State) (tile : Nat) (ch : Nat) (c : Chan) (x : ActDesc) (k : Nat) (r : Req), s.tidy = true ∧ tile < 128 ∧ (s.tile tile).chans = [(ch, c)] ∧ c.active = [x] ∧ x.issued = true ∧ (xdesc x.bytes).remote = false ∧ k ∈ x.open_ ∧ x.open_.erase k ≠ [] ∧ x.req k = some r) ∧
    (∃ (s : State) (n : Nat) (p : Prog) (x : Attn) (rs : List RowRec) (i : Nat) (r : Region) (q : PageAt), s.tidy = true ∧ n < 128 ∧ (s.tile n).prog = some p ∧ (s.tile n).at_ = some x ∧ s.holds p.tenant n = true ∧ rs = recsOf (s.tile n) (s.share p.tenant) (atArgs x.word) x.row x.rows ∧ rs ≠ [] ∧ (List.filter (needsFetch (atArgs x.word) rs) (blockGroups (atArgs x.word) rs))[x.fetched]? = some i ∧ (s.tile n).region (atArgs x.word).ring = some r ∧ r.full r.tail = false ∧ x.page = some q ∧ q.lo ≤ 16 * i ∧ 16 * i < q.hi ∧ s.taMapped p.tenant (q.parts (atArgs x.word) i).fst (16 * (atArgs x.word).rowBytes) = true ∧ s.taMapped p.tenant (q.parts (atArgs x.word) i).snd.fst (16 * (atArgs x.word).rowBytes) = true ∧ s.taMapped p.tenant (q.parts (atArgs x.word) i).snd.snd 64 = true) ∧
    (∃ (s : State) (codec : Nat) (r : CxReq) (b : CxBlk), s.tidy = true ∧ r.tile < 128 ∧ (wOpc r.word = 120 ∨ wOpc r.word = 121) ∧ s.cdx.reqs = [(codec, r)] ∧ s.cdx.inq = [b] ∧ s.cdx.outq = [] ∧ b.of codec r = true ∧ s.mayFetch codec r = false ∧ s.codecTurn codec = some r) ∧
    (∃ (s : State) (codec : Nat) (r : CxReq) (tab : CxTable), s.tidy = true ∧ r.tile < 128 ∧ (s.tile r.tile).flaws = [] ∧ s.codecTurn codec = some r ∧ wOpc r.word = 122 ∧ (s.tile r.tile).readBad (cxArgs r.word).src 96 = false ∧ tableOf ((s.tile r.tile).read (cxArgs r.word).src 96) = some tab ∧ s.slotBusy codec r.tenant (cxArgs r.word).slot = 0) :=
  ⟨⟨sF, 0, 0, cF, 0x8000, copyDesc, by decide +kernel⟩,
    ⟨(sChan c1), 0, 0, c1, 0x8000, copyDesc, [], 0, 0, 0, by decide +kernel⟩,
    ⟨(sChan c2), 0, 0, c2, 0x8000, dFill, [], 1, 0, 0, by decide +kernel⟩,
    ⟨(sChan c3), 0, 0, c3, 0x8000, dConv, [], 2, 0, 0, by decide +kernel⟩,
    ⟨(sChan c4), 0, 0, c4, 0x8000, dLink, [], by decide +kernel⟩,
    ⟨(sChan c5), 0, 0, c5, a5, 0, (⟨0x2000, 0x3000, 0, 0, 256⟩), by decide +kernel⟩,
    ⟨sAttnPg, 0, (prog0 wAttn), attnPg, (recsOf (sAttnPg.tile 0) (sAttnPg.share 0) (atArgs wAttn) 0 1), 0, { region0 3 0 with tags := [false, false, false], tail := 0, claimP := 0 }, (⟨0, 16, 0, 0, 0x1000000⟩), by decide +kernel⟩,
    ⟨(sCxBlk wEnc), 0, (cxDone wEnc), cxBlk0, by decide +kernel⟩,
    ⟨(sCx wTload), 0, (cxReq0 wTload), (⟨0, [1, 1]⟩), by decide +kernel⟩⟩

theorem meets_powerSamplesLimitsAndThermalLevels :
    (∃ (s : State), s.tidy = true) ∧
    (∃ (s : State), s.tidy = true ∧ s.serves = false) ∧
    (∃ (s : State), s.tidy = true ∧ s.serves = true) ∧
    (∃ (s : State) (xs : List (Nat × Nat × Int)), s.tidy = true ∧ s.boot.state ≠ ModState.standby ∧ (∀ (x : Nat × Nat × Int), x ∈ xs → x.fst < 28 ∧ x.snd.fst < 4) ∧ (∀ (x : Nat × Nat × Int), x ∈ xs → x.snd.snd < 110)) ∧
    (∃ (s : State) (xs : List (Nat × Nat × Int)), s.tidy = true ∧ s.boot.state ≠ ModState.standby ∧ (∀ (x : Nat × Nat × Int), x ∈ xs → x.fst < 28 ∧ x.snd.fst < 4) ∧ s.serves = true ∧ s.inRecovery = false ∧ (∀ (x : Nat × Nat × Int), x ∈ xs → 110 ≤ x.snd.snd ∧ s.pwr.tripped.contains (4 * x.fst + x.snd.fst) = true) ∧ (∃ x, x ∈ xs ∧ 125 ≤ x.snd.snd) ∧ (∀ (x : Nat × Nat × Int), x ∈ xs → 125 ≤ x.snd.snd → x.fst < 8)) ∧
    (∃ (s : State) (xs : List (Nat × Nat × Int)), s.tidy = true ∧ s.boot.state ≠ ModState.standby ∧ (∀ (x : Nat × Nat × Int), x ∈ xs → x.fst < 28 ∧ x.snd.fst < 4) ∧ s.serves = true ∧ s.inRecovery = false ∧ (∀ (x : Nat × Nat × Int), x ∈ xs → x.snd.snd < 125) ∧ (∃ x, x ∈ xs ∧ 110 ≤ x.snd.snd ∧ s.pwr.tripped.contains (4 * x.fst + x.snd.fst) = false)) ∧
    (∃ (s : State), s.tidy = true ∧ s.serves = false) ∧
    (∃ (s : State), s.tidy = true ∧ s.serves = true) :=
  ⟨⟨sOn, by decide +kernel⟩,
    ⟨State.reset, by decide +kernel⟩,
    ⟨sOn, by decide +kernel⟩,
    ⟨sOn, xs0, by decide +kernel⟩,
    ⟨{ sOn with pwr := { sOn.pwr with tripped := [9, 36] } }, [(9, 0, 110), (2, 1, 130)], by decide +kernel⟩,
    ⟨sOn, [(9, 1, 110), (2, 0, 105)], by decide +kernel⟩,
    ⟨State.reset, by decide +kernel⟩,
    ⟨(sTh [0, 7]), by decide +kernel⟩⟩

theorem meets_droopThrottleConvertersAndRails :
    (∃ (s : State) (d : Nat), s.tidy = true ∧ d < 8 ∧ s.serves = true ∧ s.pwr.droop.contains d = false) ∧
    (∃ (s : State), s.tidy = true) ∧
    (∃ (s : State), s.tidy = true ∧ s.pins.throttle = false) ∧
    (∃ (s : State) (at_ : Nat) (l : Nat), s.tidy = true ∧ s.pwr.lowAt = some l ∧ s.pins.throttle = true ∧ l + 10000 ≤ at_ ∧ s.serves = true) ∧
    (∃ (s : State), s.tidy = true ∧ s.pins.throttle = true ∧ s.pwr.lowAt = none) ∧
    (∃ (s : State) (at_ : Nat) (l : Nat), s.tidy = true ∧ s.pins.throttle = true ∧ s.pwr.lowAt = some l ∧ at_ < l + 10000 ∧ s.serves = true) ∧
    (∃ (s : State) (at_ : Nat) (f : Nat) (h : Nat), s.tidy = true ∧ s.pwr.floorAt = some f ∧ s.pwr.highAt = some h ∧ s.pins.throttle = false ∧ f + 100000 ≤ at_ ∧ h + 10000 ≤ at_) ∧
    (∃ (s : State) (n : Nat), s.tidy = true ∧ n < 4 ∧ bitOf s.pins.conv n = true ∧ 3 ≤ popcount 4 (s.pins.conv - 2 ^ n)) ∧
    (∃ (s : State) (n : Nat), s.tidy = true ∧ n < 4 ∧ bitOf s.pins.conv n = true ∧ popcount 4 (s.pins.conv - 2 ^ n) < 3) ∧
    (∃ (s : State) (n : Nat), s.tidy = true ∧ n < 16 ∧ railRank n < s.boot.railsUp ∧ s.serves = true ∧ s.inRecovery = false) ∧
    (∃ (s : State) (n : Nat), s.tidy = true ∧ 16 ≤ n ∧ n < 28 ∧ railRank n < s.boot.railsUp ∧ s.serves = true ∧ s.inRecovery = false ∧ s.recov.window = false ∧ s.mayStart = true) ∧
    (∃ (s : State), s.tidy = true ∧ s.pins.v48 = true) :=
  ⟨⟨sOn, 3, by decide +kernel⟩,
    ⟨sDr, by decide +kernel⟩,
    ⟨sOn, by decide +kernel⟩,
    ⟨sThr, 10005, 5, by decide +kernel⟩,
    ⟨sThr2, by decide +kernel⟩,
    ⟨sThr, 10004, 5, by decide +kernel⟩,
    ⟨sThr3, 105000, 5, 95000, by decide +kernel⟩,
    ⟨sOn, 1, by decide +kernel⟩,
    ⟨{ sOn with pins := { sOn.pins with conv := 7 } }, 1, by decide +kernel⟩,
    ⟨sOn, 1, by decide +kernel⟩,
    ⟨sOn, 17, by decide +kernel⟩,
    ⟨sOn, by decide +kernel⟩⟩

theorem meets_boardTestAndManagementBusAnswer :
    (∃ (s : State), s.tidy = true ∧ s.pins.boardTest = true) ∧
    (∃ (s : State), s.tidy = true ∧ s.pins.boardTest = true) ∧
    (∃ (s : State) (code : Nat), s.tidy = true ∧ s.pins.boardTest = true ∧ 2 < code ∧ code < 16) ∧
    (∃ (s : State), s.tidy = true ∧ s.pins.boardTest = false) ∧
    (∃ (s : State), s.tidy = true ∧ s.pins.v48 = true) ∧
    (∃ (s : State), s.tidy = true ∧ s.pins.v48 = true) ∧
    (∃ (s : State), s.tidy = true ∧ s.pins.v48 = true ∧ s.pwr.temps = []) ∧
    (∃ (s : State), s.tidy = true ∧ s.pins.v48 = true ∧ s.pwr.temps ≠ []) ∧
    (∃ (s : State), s.tidy = true ∧ s.pins.v48 = true) ∧
    (∃ (s : State), s.tidy = true ∧ s.pins.v48 = true) ∧
    (∃ (s : State), s.tidy = true ∧ s.pins.v48 = true) ∧
    (∃ (s : State), s.tidy = true ∧ s.pins.v48 = true) ∧
    (∃ (s : State) (k : Nat) (c : Instr), s.tidy = true ∧ s.pins.v48 = false ∧ c ∈ [Instr.smbStatus, Instr.smbPower, Instr.smbTemp, Instr.smbIdent, Instr.smbPosition, Instr.smbAlert, Instr.smbAlertClr k]) ∧
    (∃ (s : State), s.tidy = true) ∧
    (∃ (s : State), s.tidy = true ∧ s.serves = true) ∧
    (∃ (s : State), s.tidy = true ∧ s.serves = false) ∧
    (∃ (s : State), s.tidy = true ∧ s.serves = true ∧ bitOf s.vit.ctl 2 = true ∧ s.vit.frame.length ≤ 15 ∧ (∀ (e : List Byte), e ∈ s.vit.frame → e.length = 32) ∧ s.vit.frameNo < 2 ^ 32) ∧
    (∃ (s : State), s.tidy = true ∧ (s.serves = false ∨ bitOf s.vit.ctl 2 = false)) :=
  ⟨⟨sBt, by decide +kernel⟩,
    ⟨sBt, by decide +kernel⟩,
    ⟨sBt, 7, by decide +kernel⟩,
    ⟨sOn, by decide +kernel⟩,
    ⟨sOn, by decide +kernel⟩,
    ⟨sOn, by decide +kernel⟩,
    ⟨sOn, by decide +kernel⟩,
    ⟨(sTh []), by decide +kernel⟩,
    ⟨sOn, by decide +kernel⟩,
    ⟨sOn, by decide +kernel⟩,
    ⟨sOn, by decide +kernel⟩,
    ⟨{ sOn with aoc := { sOn.aoc with alert := 7 }}, by decide +kernel⟩,
    ⟨State.reset, 3, .smbTemp, by decide +kernel⟩,
    ⟨sOn, by decide +kernel⟩,
    ⟨sOn, by decide +kernel⟩,
    ⟨State.reset, by decide +kernel⟩,
    ⟨{ sOn with vit := { sOn.vit with ctl := 4, frame := [leBytes 32 5] } }, by decide +kernel⟩,
    ⟨sOn, by decide +kernel⟩⟩

theorem meets_wearMonitorsAndAccessionLog :
    (∃ (s : State) (ma : Nat), s.tidy = true ∧ ma / 34359738368 < 32 ∧ ma % 34359738368 / 65536 < 516096 ∧ s.serves = true) ∧
    (∃ (s : State) (ma : Nat) (n : Nat), s.tidy = true ∧ ma / 34359738368 < 32 ∧ ma % 34359738368 / 65536 < 516096 ∧ s.serves = true ∧ 0 < n) ∧
    (∃ (s : State), s.tidy = true) ∧
    (∃ (s : State) (x : Swap), s.tidy = true ∧ (List.find? (fun x => x.left == 0 && !x.noted) s.acc.swaps = some x) ∧ x.waits = true ∧ s.flash.active.records.length < 65535) ∧
    (∃ (s : State) (rail : Nat) (phase : Nat), s.tidy = true ∧ rail < 20 ∧ phase < activePhases rail + 2 ∧ s.acc.phases.contains (rail, phase) = false) ∧
    (∃ (s : State) (tile : Nat), s.tidy = true ∧ s.acc.leaving.contains tile = true ∧ s.acc.stopped.contains tile = false ∧ s.serves = true ∧ s.inRecovery = false) ∧
    (∃ (s : State), s.tidy = true) :=
  ⟨⟨sOn, 0x800000040, by decide +kernel⟩,
    ⟨sOn, 0x800000040, 3, by decide +kernel⟩,
    ⟨sOn, by decide +kernel⟩,
    ⟨{ sOn with acc := { sOn.acc with swaps := [sw0] }, flash := { sOn.flash with accA := ⟨accHeader 1, []⟩ } }, sw0, by decide +kernel⟩,
    ⟨sOn, 2, 3, by decide +kernel⟩,
    ⟨{ sOn with acc := { sOn.acc with leaving := [4] } }, 4, by decide +kernel⟩,
    ⟨sOn, by decide +kernel⟩⟩

theorem meets_recoveryStepsOfTheComputePart :
    (∃ (s : State) (l : List Nat), s.tidy = true ∧ s.recov.due = some l) ∧
    (∃ (s : State), s.tidy = true ∧ s.recov.held = true) ∧
    (∃ (s : State) (c : Fin 16), s.tidy = true ∧ (Option.map (fun x => x.fst) s.recov.replay = some ↑c) ∧ (s.tilesOf (↑c) (List.map (fun x => x.fst) (s.allCmds ↑c)) ≠ []) ∧ (s.blocked (↑c) (s.tilesOf (↑c) (List.map (fun x => x.fst) (s.allCmds ↑c))) = false)) ∧
    (∃ (s : State) (c : Nat), s.tidy = true ∧ s.recov.replay = some (c, 0) ∧ s.replayDone c = true ∧ s.recov.suspects = []) ∧
    (∃ (s : State), s.tidy = true ∧ s.cat.isSome = true ∧ s.boot.state ≠ ModState.halted ∧ s.recov.mcFailed = 0) ∧
    (∃ (s : State) (d : Nat), s.tidy = true ∧ d < 8 ∧ s.serves = true ∧ s.inRecovery = false) ∧
    (∃ (s : State), s.tidy = true ∧ s.serves = true ∧ s.inRecovery = false) ∧
    (∃ (s : State), s.tidy = true ∧ s.serves = true) :=
  ⟨⟨sDue, [0, 1], by decide +kernel⟩,
    ⟨sHeld, by decide +kernel⟩,
    ⟨sRep, 0, by decide +kernel⟩,
    ⟨sRep2, 0, by decide +kernel⟩,
    ⟨sOn, by decide +kernel⟩,
    ⟨sOn, 2, by decide +kernel⟩,
    ⟨sOn, by decide +kernel⟩,
    ⟨sOn, by decide +kernel⟩⟩

theorem meets_tenantFreezeResetAndRecords :
    (∃ (s : State) (c : Fin 16), s.tidy = true ∧ s.serves = true ∧ s.active ↑c = true) ∧
    (∃ (s : State) (c : Fin 16), s.tidy = true ∧ s.serves = true ∧ s.tState ↑c = tsFrozen ∧ s.flag (tnt (↑c) 256) 19 = false) ∧
    (∃ (s : State) (c : Fin 16), s.tidy = true ∧ s.serves = true ∧ (s.tState ↑c = tsActive ∨ s.tState ↑c = tsFrozen)) ∧
    (∃ (s : State) (c : Fin 16), s.tidy = true ∧ s.tState ↑c = tsResetting) ∧
    (∃ (s : State) (r : Nat), s.tidy = true ∧ s.serves = true ∧ r < 8 ∧ (r < ((Option.map (fun x => x.commons) s.cat).getD []).length) ∧ s.commonState r = 0) ∧
    (∃ (s : State) (r : Nat), s.tidy = true ∧ r < 8 ∧ s.commonState r = 1) ∧
    (∃ (s : State) (c : Fin 16) (p : Partition), s.tidy = true ∧ s.serves = true ∧ s.part ↑c = some p ∧ wsetFits p (s.quad (tnt (↑c) 64)) (s.quad (tnt (↑c) 72)) = true ∧ s.flag (tnt (↑c) 80) 1 = false ∧ s.flag (tnt (↑c) 80) 2 = false) ∧
    (∃ (s : State) (c : Fin 16) (r : Nat × Nat), s.tidy = true ∧ (s.twinSt ↑c).wsetOn = some r ∧ s.flag (tnt (↑c) 80) 1 = true) ∧
    (∃ (s : State), s.tidy = true ∧ s.serves = true) ∧
    (∃ (s : State), s.tidy = true) :=
  ⟨⟨sOn, 0, by decide +kernel⟩,
    ⟨sFrz, 0, by decide +kernel⟩,
    ⟨sOn, 0, by decide +kernel⟩,
    ⟨sRst, 0, by decide +kernel⟩,
    ⟨sOn, 0, by decide +kernel⟩,
    ⟨(setRegs sOn [(0x10F000, 0x10000)]), 0, by decide +kernel⟩,
    ⟨sWs, 0, part0, by decide +kernel⟩,
    ⟨{ setRegs sOn [(0x110050, 2)] with twin := vupd sOn.twin 0 fun x => { x with wsetOn := some (5, 6) } }, 0, (5, 6), by decide +kernel⟩,
    ⟨(setRegs sOn [(0x110100, 0xFFFFFF), (0x110104, 5), (0x110124, 7)]), by decide +kernel⟩,
    ⟨sOn, by decide +kernel⟩⟩

theorem meets_twinModesMarksUnitsAndLoss :
    (∃ (s : State) (c : Fin 16) (req : Nat), s.tidy = true ∧ s.serves = true ∧ (s.part ↑c).isSome = true ∧ req % 4 = 0 ∧ s.twinLost = true) ∧
    (∃ (s : State) (c : Fin 16), s.tidy = true ∧ s.serves = true ∧ (s.part ↑c).isSome = true ∧ s.twinLost = false ∧ (s.twinSt ↑c).peerReq = none) ∧
    (∃ (s : State) (c : Fin 16), s.tidy = true ∧ (s.part ↑c).isSome = true ∧ (s.twinSt ↑c).reqTick = none) ∧
    (∃ (s : State) (c : Fin 16), s.tidy = true ∧ (if s.servesPair = true then (s.twinSt ↑c).resync = 1 else (s.twinSt ↑c).resync = 2)) ∧
    (∃ (s : State) (c : Fin 16), s.tidy = true ∧ s.servesPair = false ∧ (s.part ↑c).isSome = true) ∧
    (∃ (s : State), s.tidy = true ∧ s.servesPair = false) ∧
    (∃ (s : State) (c : Fin 16), s.tidy = true ∧ s.comparing ↑c = true ∧ s.servesPair = false) ∧
    (∃ (s : State) (c : Fin 16) (u : CmpUnit), s.tidy = true ∧ s.comparing ↑c = true ∧ s.active ↑c = true ∧ (s.twinSt ↑c).units = [u] ∧ (s.twinSt ↑c).digests = [] ∧ u.own = none ∧ s.unitDone (↑c) u.tick = true) ∧
    (∃ (s : State) (c : Fin 16) (u : CmpUnit) (a : List Byte), s.tidy = true ∧ s.comparing ↑c = true ∧ (s.twinSt ↑c).units = [u] ∧ u.own = some a ∧ (s.twinSt ↑c).diverge = none) ∧
    (∃ (s : State), s.tidy = true ∧ s.cat.isSome = true ∧ s.portState 16 = psUp) ∧
    (∃ (s : State), s.tidy = true) ∧
    (∃ (s : State), s.tidy = true ∧ s.serves = true ∧ s.twinLost = false ∧ (∀ (t : Fin 16), s.mode ↑t = 0 ∧ (s.twinSt ↑t).resync = 0) ∧ ((s.lrd.sess.any fun x => match x with | (_, d) => d.jobbed) = false)) ∧
    (∃ (s : State), s.tidy = true ∧ s.twinLost = true) ∧
    (∃ (s : State), s.tidy = true ∧ s.serves = true ∧ s.servesPair = true) ∧
    (∃ (s : State) (c : Fin 16), s.tidy = true ∧ (s.part ↑c).isSome = true) :=
  ⟨⟨(setRegs sOn [(0x40, 3), (0x110008, 0x11)]), 0, 4, by decide +kernel⟩,
    ⟨sOn, 0, by decide +kernel⟩,
    ⟨sOn, 0, by decide +kernel⟩,
    ⟨{ sOn with twin := vupd sOn.twin 0 fun x => { x with resync := 1 } }, 0, by decide +kernel⟩,
    ⟨sFol, 0, by decide +kernel⟩,
    ⟨sFol, by decide +kernel⟩,
    ⟨sFol, 0, by decide +kernel⟩,
    ⟨(sU u0), 0, u0, by decide +kernel⟩,
    ⟨(sU u1), 0, u1, [1, 2], by decide +kernel⟩,
    ⟨(setRegs sOn [(0x500400, 3)]), by decide +kernel⟩,
    ⟨sOn, by decide +kernel⟩,
    ⟨sOn, by decide +kernel⟩,
    ⟨(setRegs sOn [(0x40, 3)]), by decide +kernel⟩,
    ⟨sOn, by decide +kernel⟩,
    ⟨sOn, 0, by decide +kernel⟩⟩

theorem meets_registerReadsAnswerAndLatch :
    (∃ (s : State) (fn : Fn), s.barLive fn = false) ∧
    (∃ (s : State) (off : Nat), s.barLive Fn.pf = true ∧ off % 4 = 0 ∧ off < 65536 ∧ ¬(384 ≤ off ∧ off < 480) ∧ isWide (off / 8 * 8) = false) ∧
    (∃ (s : State), s.barLive Fn.pf = true ∧ s.serves = true) ∧
    (∃ (s : State) (v : W32), s.barLive Fn.pf = true ∧ aget s.pf.latch 65544 = some v) ∧
    (∃ (s : State) (n : Fin 16) (off : Nat) (h : Nat), s.barLive (Fn.vf ↑n) = true ∧ s.offNow ↑n = true ∧ off % 8 = 0 ∧ vfPlace (↑n) off = VfPlace.home h ∧ h ≠ tnt (↑n) 12 ∧ isWide h = false) :=
  ⟨⟨State.reset, .pf, by decide +kernel⟩,
    ⟨sOn, 0x120, by decide +kernel⟩,
    ⟨sOn, by decide +kernel⟩,
    ⟨sBar, 7, by decide +kernel⟩,
    ⟨sOffT, 0, 0x10000, 0x200000, by decide +kernel⟩⟩

theorem meets_registerWritesFollowTheirCodes :
    (∃ (s : State) (fn : Fn), s.tidy = true ∧ s.barLive fn = false) ∧
    (∃ (s : State) (off : Nat) (bs : List (Option Byte)), s.tidy = true ∧ s.barLive Fn.pf = true ∧ off % 4 = 0 ∧ off < 65536 ∧ off ≠ 52 ∧ off ≠ 64 ∧ off ≠ 256 ∧ isWide (off / 8 * 8) = false ∧ (regLookup off).isSome = true ∧ (s.serves || early off) = true ∧ bs.length = 4 ∧ bs.any Option.isSome = true) ∧
    (∃ (s : State), s.tidy = true ∧ s.barLive Fn.pf = true ∧ s.serves = true) ∧
    (∃ (s : State) (lo : W32), s.tidy = true ∧ s.barLive Fn.pf = true ∧ s.serves = true ∧ aget s.pf.held 66056 = some lo) ∧
    (∃ (s : State) (b : Fin 9), s.tidy = true ∧ s.barLive Fn.pf = true ∧ s.flag 48 ↑b = true ∧ s.pf.masked 0 = false) ∧
    (∃ (s : State), s.tidy = true ∧ s.barLive Fn.pf = true ∧ s.serves = true) :=
  ⟨⟨State.reset, .pf, by decide +kernel⟩,
    ⟨sOn, 0x30, [some 3, none, some 0xFF, some 0xFF], by decide +kernel⟩,
    ⟨sOn, by decide +kernel⟩,
    ⟨sBar, 9, by decide +kernel⟩,
    ⟨sMsk, 8, by decide +kernel⟩,
    ⟨sOn, by decide +kernel⟩⟩

theorem meets_registerWritesActAsTheirCommands :
    (∃ (s : State) (n : Fin 16), s.serves = true ∧ s.barLive (Fn.vf ↑n) = true) ∧
    (∃ (s : State) (n : Fin 16) (r : Fin 8) (p : Partition), s.serves = true ∧ s.barLive (Fn.vf ↑n) = true ∧ s.part ↑n = some p ∧ ↑r < p.rings ∧ s.tState ↑n ≠ tsDisabled ∧ s.tState ↑n ≠ tsResetting) ∧
    (∃ (s : State) (n : Fin 16), s.serves = true ∧ s.barLive (Fn.vf ↑n) = true ∧ s.tState ↑n ≠ tsDisabled ∧ s.tState ↑n ≠ tsResetting) ∧
    (∃ (s : State), s.serves = true ∧ s.barLive Fn.pf = true) ∧
    (∃ (s : State), s.serves = true ∧ s.barLive Fn.pf = true) :=
  ⟨⟨sOn, 0, by decide +kernel⟩,
    ⟨sOn, 0, 7, part0, by decide +kernel⟩,
    ⟨sOn, 0, by decide +kernel⟩,
    ⟨sOn, by decide +kernel⟩,
    ⟨sOn, by decide +kernel⟩⟩

theorem meets_hiddenOffsetsAndLockedRingsTurnWritesAway :
    (∃ (s : State) (n : Fin 16) (off : Nat), s.tidy = true ∧ s.serves = true ∧ s.barLive (Fn.vf ↑n) = true ∧ off % 8 = 0 ∧ vfPlace (↑n) off = VfPlace.hidden ∧ s.tState ↑n = tsActive) ∧
    (∃ (s : State) (n : Fin 16) (o : Nat) (bs : List (Option Byte)), s.tidy = true ∧ s.serves = true ∧ s.barLive (Fn.vf ↑n) = true ∧ (s.tState ↑n = tsDisabled ∨ s.tState ↑n = tsResetting) ∧ o % 4 = 0 ∧ o < 256 ∧ bs.length = 4) ∧
    (∃ (s : State) (n : Fin 16) (r : Fin 8) (p : Partition), s.tidy = true ∧ s.serves = true ∧ s.barLive (Fn.vf ↑n) = true ∧ s.part ↑n = some p ∧ ↑r < p.rings ∧ s.tState ↑n = tsActive ∧ s.ringOn ↑n ↑r = true) :=
  ⟨⟨sOn, 0, 0x70000, by decide +kernel⟩,
    ⟨sOffT, 0, 0xFC, [some 1, none, none, none], by decide +kernel⟩,
    ⟨(setRegs sOn [(0x200700, 1)]), 0, 7, part0, by decide +kernel⟩⟩

theorem meets_memoryWindowReads :
    (∃ (s : State) (fn : Fn) (addr : Nat) (len : Nat), (s.barLive fn = false ∨ 2 ^ 40 < addr + len)) ∧
    (∃ (s : State) (addr : Nat) (len : Nat), s.barLive Fn.pf = true ∧ s.serves = true ∧ addr + len ≤ 2 ^ 40) ∧
    (∃ (s : State) (n : Fin 16) (p : Partition) (addr : Nat) (len : Nat), s.barLive (Fn.vf ↑n) = true ∧ s.serves = true ∧ s.part ↑n = some p ∧ addr + len ≤ p.taSize ∧ addr + len ≤ 2 ^ 40 ∧ 0 < len) ∧
    (∃ (s : State) (n : Fin 16) (addr : Nat) (len : Nat), s.tidy = true ∧ s.barLive (Fn.vf ↑n) = true ∧ s.serves = true ∧ (s.part ↑n).isSome = true ∧ s.tState ↑n = tsActive ∧ s.taMapped (↑n) addr len = false ∧ addr + len ≤ 2 ^ 40) :=
  ⟨⟨State.reset, .pf, 0, 4, by decide +kernel⟩,
    ⟨sOn, 0x7DFFFFFFC, 8, by decide +kernel⟩,
    ⟨sOn, 0, part0, 0x7CFFFFFF8, 8, by decide +kernel⟩,
    ⟨sOn, 0, 0x8000000000, 8, by decide +kernel⟩⟩

theorem meets_memoryWindowWrites :
    (∃ (s : State) (n : Fin 16) (p : Partition) (addr : Nat) (bs : List Byte), s.serves = true ∧ s.barLive (Fn.vf ↑n) = true ∧ s.part ↑n = some p ∧ 0 < bs.length ∧ addr + bs.length ≤ p.taSize ∧ addr + bs.length ≤ 2 ^ 40 ∧ s.taWriteBar (↑n) addr bs.length 209 = none ∧ s.mode ↑n = 0 ∧ s.flag (tnt (↑n) 16) 0 = false ∧ s.tState ↑n ≠ tsResetting ∧ s.tidy = true) ∧
    (∃ (s : State) (addr : Nat) (bs : List Byte), s.serves = true ∧ s.tidy = true ∧ s.barLive Fn.pf = true ∧ addr + bs.length ≤ 2 ^ 40 ∧ addr % 34359738368 + bs.length ≤ 256 ∧ s.pfHides addr = false ∧ s.traceGroup ≠ some (addr / 34359738368) ∧ s.taOfMa addr = none) ∧
    (∃ (s : State) (addr : Nat) (bs : List Byte), s.serves = true ∧ s.barLive Fn.pf = true ∧ (∀ (i : Nat), i < bs.length → s.pfHides (addr + i) = true)) ∧
    (∃ (s : State) (n : Fin 16) (addr : Nat) (bs : List Byte), s.serves = true ∧ s.tidy = true ∧ s.barLive (Fn.vf ↑n) = true ∧ addr + bs.length ≤ 2 ^ 40 ∧ s.part ↑n ≠ none ∧ s.taMapped (↑n) addr bs.length = false ∧ s.tState ↑n = tsActive) ∧
    (∃ (s : State) (n : Fin 16) (addr : Nat) (bs : List Byte), s.serves = true ∧ s.tidy = true ∧ s.barLive (Fn.vf ↑n) = true ∧ addr + bs.length ≤ 2 ^ 40 ∧ s.part ↑n ≠ none ∧ s.taWriteBar (↑n) addr bs.length 209 = some 244 ∧ s.tState ↑n = tsActive) :=
  ⟨⟨sOn, 0, part0, 0x1000, [1, 2], by decide +kernel⟩,
    ⟨sOn, 0x2800000010, [1, 2], by decide +kernel⟩,
    ⟨sOn, 0x7E0000000, [1, 2], by decide +kernel⟩,
    ⟨sOn, 0, 0x8000000000, [1, 2], by decide +kernel⟩,
    ⟨sLockW, 0, 0x5000000, [1, 2], by decide +kernel⟩⟩

theorem meets_pcieFunctionResetsAndEnables :
    (∃ (s : State), s.tidy = true) ∧
    (∃ (s : State), s.tidy = true ∧ s.pins.perst = false ∧ s.pf.ready = true) ∧
    (∃ (s : State) (n : Fin 16), s.tidy = true ∧ s.pins.perst = false ∧ s.pf.ready = true ∧ (s.tState ↑n = tsActive ∨ s.tState ↑n = tsFrozen)) ∧
    (∃ (s : State), s.tidy = true ∧ s.pins.perst = false ∧ s.pf.ready = true) ∧
    (∃ (s : State) (n : Fin 16) (k : Nat), s.tidy = true ∧ s.pins.perst = false ∧ s.pf.ready = true ∧ k ≤ ↑n) ∧
    (∃ (s : State), s.tidy = true ∧ s.pins.perst = false ∧ s.pf.ready = true) ∧
    (∃ (s : State) (n : Fin 16), s.tidy = true ∧ s.pins.perst = false ∧ s.pf.ready = true ∧ s.vfEnable = true ∧ ↑n + 1 ≤ s.numVfs) ∧
    (∃ (s : State), s.tidy = true ∧ s.pins.perst = false ∧ s.pf.ready = true) ∧
    (∃ (s : State), s.tidy = true ∧ s.pins.perst = false ∧ s.pf.ready = true) ∧
    (∃ (s : State), s.tidy = true ∧ s.pins.perst = false ∧ s.pf.ready = false) ∧
    (∃ (s : State), s.tidy = true ∧ s.pins.perst = false ∧ s.pf.ready = false) ∧
    (∃ (s : State) (n : Fin 16) (r : Fin 8), s.tidy = true ∧ s.fetchRoom ↑n ↑r ≠ 0) :=
  ⟨⟨sOn, by decide +kernel⟩,
    ⟨sOn, by decide +kernel⟩,
    ⟨sOn, 0, by decide +kernel⟩,
    ⟨sOn, by decide +kernel⟩,
    ⟨sOn, 3, 3, by decide +kernel⟩,
    ⟨sOn, by decide +kernel⟩,
    ⟨sOn, 15, by decide +kernel⟩,
    ⟨sOn, by decide +kernel⟩,
    ⟨sOn, by decide +kernel⟩,
    ⟨sNr, by decide +kernel⟩,
    ⟨sNr, by decide +kernel⟩,
    ⟨sFetch, 0, 0, by decide +kernel⟩⟩

theorem meets_attachmentsJoinAndComeUp :
    (∃ (s : State) (k : Fin 8), s.tidy = true ∧ s.attUsed ↑k = true ∧ s.attState ↑k = asJoin ∧ (s.att ↑k).window = false ∧ (s.startStep = 6 ∨ s.serves = true) ∧ s.lanesOk (2 * ↑k) = true ∧ s.lanesOk (2 * ↑k + 1) = true) ∧
    (∃ (s : State) (k : Fin 8), s.tidy = true ∧ s.attUsed ↑k = true ∧ s.attState ↑k = asJoin ∧ (s.att ↑k).window = false ∧ (s.startStep = 6 ∨ s.serves = true)) ∧
    (∃ (s : State) (k : Fin 8), s.tidy = true ∧ (s.att ↑k).window = true) ∧
    (∃ (s : State) (k : Fin 8), s.tidy = true ∧ (s.att ↑k).retry = true ∧ s.startStep = 6) ∧
    (∃ (s : State) (k : Fin 8), s.tidy = true ∧ s.attUsed ↑k = true) ∧
    (∃ (s : State) (p : Nat), s.tidy = true ∧ p < 18 ∧ (s.portState p = psUp ∨ s.portState p = psJoin)) ∧
    (∃ (s : State) (k : Fin 8) (x : Ident) (g : Nat), s.tidy = true ∧ s.cat ≠ none ∧ (s.att ↑k).window = true ∧ s.lanesOk (2 * ↑k) = true ∧ s.checkIdent (2 * ↑k) x = IdentCheck.pass g ∧ ¬(s.port (2 * ↑k + 1)).passed = true) ∧
    (∃ (s : State) (k : Fin 8) (x : Ident) (g : Nat), s.tidy = true ∧ s.cat ≠ none ∧ (s.att ↑k).window = true ∧ s.lanesOk (2 * ↑k) = true ∧ s.checkIdent (2 * ↑k) x = IdentCheck.pass g ∧ (s.port (2 * ↑k + 1)).passed = true) ∧
    (∃ (s : State), s.tidy = true ∧ s.startStep = 6) :=
  ⟨⟨(sLnk 1 0), 0, by decide +kernel⟩,
    ⟨(sLnk 1 0), 0, by decide +kernel⟩,
    ⟨sJoin, 0, by decide +kernel⟩,
    ⟨sAgain, 0, by decide +kernel⟩,
    ⟨(sLnk 1 2), 0, by decide +kernel⟩,
    ⟨(sLnk 2 3), 1, by decide +kernel⟩,
    ⟨sJoin, 0, (idFrom 8 3), 0, by decide +kernel⟩,
    ⟨(sJoin.updPort 1 fun p => { p with passed := true }), 0, (idFrom 8 3), 0, by decide +kernel⟩,
    ⟨(setRegs (sStep 6) [(0x501000, 2)]), by decide +kernel⟩⟩

theorem meets_portsLoseRetrainAndResend :
    (∃ (s : State) (p : Fin 18), s.tidy = true ∧ s.portState ↑p = psUp) ∧
    (∃ (s : State) (p : Fin 18) (x : Ident) (g : Nat), s.tidy = true ∧ s.portState ↑p = psRetrain ∧ s.checkIdent (↑p) x = IdentCheck.pass g) ∧
    (∃ (s : State) (k : Fin 8), s.tidy = true ∧ s.attState ↑k = asUp ∧ (s.portState (2 * ↑k) ≠ psUp ∨ s.portState (2 * ↑k + 1) ≠ psUp)) ∧
    (∃ (s : State), s.tidy = true ∧ s.serves = true) ∧
    (∃ (s : State) (p : Fin 18), s.tidy = true ∧ (s.port ↑p).lanes = List.replicate 5 true ∧ s.portState ↑p = psUp) ∧
    (∃ (s : State) (p : Fin 18) (bytes : List Byte), crc32c (List.take 508 bytes) = fieldAt bytes 508 4 ∧ s.tidy = true ∧ s.portState ↑p = psUp ∧ bytes.length = 512 ∧ (s.port ↑p).expect < 4096 ∧ fieldAt bytes 0 2 = (s.port ↑p).expect) ∧
    (∃ (s : State) (p : Fin 18) (bytes : List Byte), crc32c (List.take 508 bytes) ≠ fieldAt bytes 508 4 ∧ s.tidy = true ∧ s.portState ↑p = psUp ∧ bytes.length = 512 ∧ (s.port ↑p).expect < 4096) ∧
    (∃ (s : State) (p : Fin 18), s.tidy = true ∧ s.portState ↑p = psUp ∧ (s.port ↑p).held ≠ []) :=
  ⟨⟨(sLnk 2 3), 0, by decide +kernel⟩,
    ⟨(sLnk 2 4), 1, (idFrom 4 1), 0, by decide +kernel⟩,
    ⟨(sLnk 2 4), 0, by decide +kernel⟩,
    ⟨(sLnk 3 5), by decide +kernel⟩,
    ⟨(sLnk 2 3), 0, by decide +kernel⟩,
    ⟨(sLnk 2 3).updPort 0 fun p => { p with expect := 4095 }, 0, (blk 1256915939), (crc_blk _).trans (by decide +kernel), by decide +kernel⟩,
    ⟨(sLnk 2 3), 0, (blk 0), fun h => absurd ((crc_blk _).symm.trans h) (by decide +kernel), by decide +kernel⟩,
    ⟨(sHeldBlk 14), 0, by decide +kernel⟩⟩

theorem meets_packetsAreTakenOnceAndAcknowledged :
    (∃ (s : State) (p : Packet), s.tidy = true ∧ p.dst ≠ s.moduleId) ∧
    (∃ (s : State) (p : Packet) (q : Nat), s.tidy = true ∧ p.dst ≠ s.moduleId ∧ p.vc < 4 ∧ ((match List.find? (fun a => a.pkt == { kind := PKind.write, vc := p.vc, cls := p.cls, dst := p.dst, src := p.src, tenant := p.tenant, space := p.space, gen := p.gen, tag := p.tag, addr := p.addr, bad := p.bad, cnt := p.cnt, cntEn := p.cntEn, payload := p.payload, ctl := none }) s.lnk.arrived with | some a => if a.port < 16 then some (if a.port % 2 = 0 then a.port + 1 else a.port - 1) else none | none => s.route p.dst p.vc none) = some q) ∧ s.portState q = psUp ∧ (s.port q).queue = [] ∧ (∀ (h : HeldPkt), h ∈ s.lnk.held → h.port = q → h.sent = true) ∧ (s.port q).held.length < 1024 ∧ (∀ (c : Cat), s.cat = some c → p.vc = 0 ∨ 0 < c.vcw.getD p.vc 1) ∧ ((s.port q).room p.vc (if p.cls = 1 ∨ (s.attRec (q / 2)).position = 0 ∨ s.crosses q = true then 1 else 0) = true)) ∧
    (∃ (s : State) (p : Packet), s.tidy = true ∧ p.dst = s.moduleId ∧ s.cat ≠ none ∧ p.vc = 0 ∧ p.tag < 2 ^ 16 ∧ s.expected p.src < 2 ^ 16 ∧ p.tag = s.expected p.src ∧ (∀ (q : Packet), q ∈ s.lnk.early → q.src ≠ p.src) ∧ p.tenant < 16 ∧ s.tState p.tenant ≠ tsDisabled) ∧
    (∃ (s : State) (p : Packet), s.tidy = true ∧ p.dst = s.moduleId ∧ s.cat ≠ none ∧ p.vc = 0 ∧ p.tag < 2 ^ 16 ∧ s.expected p.src < 2 ^ 16 ∧ (p.tag + 2 ^ 16 - s.expected p.src) % 2 ^ 16 ≠ 0 ∧ (p.tag + 2 ^ 16 - s.expected p.src) % 2 ^ 16 < 2 ^ 15 ∧ (∀ (q : Packet), q ∈ s.lnk.early → q.src = p.src → q.tag ≠ p.tag ∧ q.tag ≠ s.expected p.src)) ∧
    (∃ (s : State) (p : Packet), s.tidy = true ∧ p.dst = s.moduleId ∧ s.cat ≠ none ∧ p.vc = 0 ∧ p.tag < 2 ^ 16 ∧ s.expected p.src < 2 ^ 16 ∧ 2 ^ 15 ≤ (p.tag + 2 ^ 16 - s.expected p.src) % 2 ^ 16) ∧
    (∃ (s : State) (p : Packet), s.tidy = true ∧ p.dst = s.moduleId ∧ s.cat ≠ none ∧ p.vc ≠ 0 ∧ s.seen p = true) ∧
    (∃ (s : State) (p : Packet), s.tidy = true ∧ p.dst = s.moduleId ∧ s.cat ≠ none ∧ p.vc ≠ 0 ∧ s.seen p = false ∧ p.ctl = none ∧ p.space = 4 ∧ p.cntEn = true ∧ p.cnt < 4096 ∧ s.remoteOk p = true ∧ p.payload.length ≤ 256 ∧ nwf (s.tile (p.addr / 2 ^ 23 % 128)).mem = true) ∧
    (∃ (s : State) (p : Packet), s.tidy = true ∧ p.dst = s.moduleId ∧ s.cat ≠ none ∧ p.vc ≠ 0 ∧ s.seen p = false ∧ p.ctl = none ∧ s.remoteOk p = false ∧ s.wsetHit p = false) ∧
    (∃ (s : State) (p : Packet), s.tidy = true ∧ p.dst = s.moduleId ∧ s.cat ≠ none ∧ p.vc = 0 ∧ p.tag = s.expected p.src ∧ p.tag < 2 ^ 16 ∧ (∀ (q : Packet), q ∈ s.lnk.early → q.src ≠ p.src) ∧ p.ctl = some Ctl.heartbeat ∧ p.src = twinOf s.moduleId) ∧
    (∃ (s : State) (p : Packet), s.tidy = true ∧ p.tenant < 16 ∧ (s.part p.tenant).isSome = true ∧ s.tState p.tenant = tsActive) ∧
    (∃ (s : State) (p : Packet) (vc : Nat), s.tidy = true ∧ p.dst = s.moduleId ∧ s.cat ≠ none ∧ (∀ (h : HeldPkt), h ∈ s.lnk.held → h.pkt.dst = p.src → h.pkt.vc = vc → h.pkt.tag ∈ p.tags → h.waiter = Waiter.free)) :=
  ⟨⟨(sLnk 2 3), { pkt0 with dst := 6 }, by decide +kernel⟩,
    ⟨sRoom, { pkt0 with dst := 8 }, 1, by decide +kernel⟩,
    ⟨(sLnk 2 3), { sig0 with tag := 0 }, by decide +kernel⟩,
    ⟨(sLnk 2 3), { sig0 with tag := 32767 }, by decide +kernel⟩,
    ⟨(sLnk 2 3), { sig0 with tag := 32768 }, by decide +kernel⟩,
    ⟨sSeen, pkt0, by decide +kernel⟩,
    ⟨(sLnk 2 3), pkt0, by decide +kernel⟩,
    ⟨(sLnk 2 3), { pkt0 with space := 5 }, by decide +kernel⟩,
    ⟨(sLnk 2 3), { sig0 with kind := .control, src := 3, tag := 0, ctl := some .heartbeat }, by decide +kernel⟩,
    ⟨(sLnk 2 3), pkt0, by decide +kernel⟩,
    ⟨(sHp 2), { pkt0 with kind := .ack, payload := leBytes 8 1, addr := 7 }, 0, by decide +kernel⟩⟩

theorem meets_heldPacketsResentAndServingTable :
    (∃ (s : State) (h : HeldPkt) (q : Nat), s.tidy = true ∧ (List.find? (fun x => x.is h.pkt.dst h.pkt.vc h.pkt.tag) s.lnk.held = some h) ∧ h.port < 16 ∧ (s.route h.pkt.dst h.pkt.vc (if h.pkt.vc = 0 then none else some h.port) = some q)) ∧
    (∃ (s : State) (h : HeldPkt), s.tidy = true ∧ (List.find? (fun x => x.is h.pkt.dst h.pkt.vc h.pkt.tag) s.lnk.held = some h) ∧ h.port < 16 ∧ s.paths h.pkt.dst = [] ∧ h.waiter = Waiter.free ∧ h.pair = false ∧ s.lnk.later = [] ∧ (∀ (x : HeldPkt), x ∈ s.lnk.lost → x.is h.pkt.dst h.pkt.vc h.pkt.tag = false)) ∧
    (∃ (s : State) (pair : Nat), s.tidy = true ∧ pair < 32 ∧ pair ≠ s.moduleId / 2) ∧
    (∃ (s : State) (src : Nat) (q : Nat), s.tidy = true ∧ s.isMaster = true ∧ s.serves = true ∧ s.route src 0 none = some q) :=
  ⟨⟨(sHp 2), held0, 1, by decide +kernel⟩,
    ⟨(sHp 3), held0, by decide +kernel⟩,
    ⟨sOn, 31, by decide +kernel⟩,
    ⟨(setRegs (sLnk 2 3) [(0x10004, 7)]), 6, 1, by decide +kernel⟩⟩

theorem meets_groupsBindAndUnbind :
    (∃ (s : State) (c : Nat) (ref : CmdRef) (x : RCmd) (p : Partition) (d : List Byte) (bad : Bool), InTurn s c ref x p ∧ x.op = 10 ∧ s.collCheck c p x = none ∧ fieldAt x.bytes 16 1 = 0 ∧ s.grpState c (collArgs x.bytes).group = gsUnbound ∧ s.taRead c (collArgs x.bytes).tbl 80 = some (d, bad)) ∧
    (∃ (s : State) (c : Nat) (ref : CmdRef) (x : RCmd) (p : Partition), InTurn s c ref x p ∧ x.op = 10 ∧ s.collCheck c p x = none ∧ fieldAt x.bytes 16 1 = 0 ∧ s.grpState c (collArgs x.bytes).group ≠ gsUnbound) ∧
    (∃ (s : State) (c : Nat) (ref : CmdRef) (x : RCmd) (p : Partition), InTurn s c ref x p ∧ x.op = 10 ∧ s.collCheck c p x = none ∧ fieldAt x.bytes 16 1 = 1 ∧ s.grp c (collArgs x.bytes).group ≠ none ∧ (∀ (r : Coll), r ∈ s.coll.runs → ¬(r.tenant = c ∧ r.group = (collArgs x.bytes).group))) ∧
    (∃ (s : State) (c : Nat) (ref : CmdRef) (x : RCmd) (p : Partition), InTurn s c ref x p ∧ x.op = 10 ∧ s.collCheck c p x = none ∧ fieldAt x.bytes 16 1 = 1 ∧ s.grp c (collArgs x.bytes).group ≠ none ∧ (∃ r, r ∈ s.coll.runs ∧ r.tenant = c ∧ r.group = (collArgs x.bytes).group)) ∧
    (∃ (s : State) (c : Nat) (ref : CmdRef) (x : RCmd) (p : Partition), InTurn s c ref x p ∧ x.op = 10 ∧ s.collCheck c p x = none ∧ fieldAt x.bytes 16 1 = 1 ∧ s.grp c (collArgs x.bytes).group = none) :=
  ⟨⟨(sColl (xColl 0 [(0x28, 8, 0x5000)]) 0), 0, ref0, (xColl 0 [(0x28, 8, 0x5000)]), part0, grpDesc, false, inTurn (by decide +kernel), by decide +kernel⟩,
    ⟨(sColl (xColl 0 [(0x28, 8, 0x5000)]) 1), 0, ref0, (xColl 0 [(0x28, 8, 0x5000)]), part0, inTurn (by decide +kernel), by decide +kernel⟩,
    ⟨(sColl (xColl 1 []) 1), 0, ref0, (xColl 1 []), part0, inTurn (by decide +kernel), by decide +kernel⟩,
    ⟨(runColls (sColl (xColl 1 []) 1) [coll0 2]), 0, ref0, (xColl 1 []), part0, inTurn (by decide +kernel), by decide +kernel⟩,
    ⟨(sColl (xColl 1 []) 0), 0, ref0, (xColl 1 []), part0, inTurn (by decide +kernel), by decide +kernel⟩⟩

theorem meets_collectivesBegin :
    (∃ (row : (Nat → CmdRef → Instr) × Nat) (s : State) (c : Nat) (ref : CmdRef) (x : RCmd) (p : Partition) (g : Grp), row ∈ collRows ∧ InTurn s c ref x p ∧ x.op = 10 ∧ fieldAt x.bytes 16 1 = row.snd ∧ s.collCheck c p x = none ∧ s.grp c (collArgs x.bytes).group = some g ∧ s.grpState c (collArgs x.bytes).group = gsBound ∧ (s.flying c).length < 8 ∧ (row.snd ≤ 3 → 2 ^ 25 ≤ p.stageSize) ∧ s.run c (collArgs x.bytes).group (s.cseq c (collArgs x.bytes).group) = none ∧ (∀ (k : CollTok), k ∈ s.coll.toks → ¬(k.tenant = c ∧ k.group = (collArgs x.bytes).group ∧ k.cseq = s.cseq c (collArgs x.bytes).group)) ∧ (∀ (e : Nat × Nat), e ∈ g.ents.zipIdx → e.snd ≠ g.rank → (s.resolveEntry c e.fst).isSome = true)) ∧
    (∃ (row : (Nat → CmdRef → Instr) × Nat) (s : State) (c : Nat) (ref : CmdRef) (x : RCmd) (p : Partition), row ∈ collRows ∧ InTurn s c ref x p ∧ x.op = 10 ∧ fieldAt x.bytes 16 1 = row.snd ∧ s.collCheck c p x = none ∧ s.grp c (collArgs x.bytes).group = none) ∧
    (∃ (row : (Nat → CmdRef → Instr) × Nat) (s : State) (c : Nat) (ref : CmdRef) (x : RCmd) (p : Partition), row ∈ collRows ∧ InTurn s c ref x p ∧ x.op = 10 ∧ fieldAt x.bytes 16 1 = row.snd ∧ s.collCheck c p x = none ∧ s.grp c (collArgs x.bytes).group ≠ none ∧ (s.flying c).length < 8 ∧ s.grpState c (collArgs x.bytes).group = gsBroken) ∧
    (∃ (row : (Nat → CmdRef → Instr) × Nat) (s : State) (c : Nat) (ref : CmdRef) (x : RCmd) (p : Partition) (g : Grp), row ∈ collRows ∧ InTurn s c ref x p ∧ x.op = 10 ∧ fieldAt x.bytes 16 1 = row.snd ∧ s.collCheck c p x = none ∧ s.grp c (collArgs x.bytes).group = some g ∧ s.grpState c (collArgs x.bytes).group = gsBound ∧ (s.flying c).length < 8 ∧ (row.snd ≤ 3 → 2 ^ 25 ≤ p.stageSize) ∧ s.run c (collArgs x.bytes).group (s.cseq c (collArgs x.bytes).group) = none ∧ (∀ (k : CollTok), k ∈ s.coll.toks → ¬(k.tenant = c ∧ k.group = (collArgs x.bytes).group ∧ k.cseq = s.cseq c (collArgs x.bytes).group)) ∧ (∀ (e : Nat × Nat), e ∈ g.ents.zipIdx → e.snd ≠ g.rank → (s.resolveEntry c e.fst).isSome = true)) ∧
    (∃ (row : (Nat → CmdRef → Instr) × Nat) (s : State) (c : Nat) (ref : CmdRef) (x : RCmd) (p : Partition), row ∈ collRows ∧ InTurn s c ref x p ∧ x.op = 10 ∧ fieldAt x.bytes 16 1 = row.snd ∧ s.collCheck c p x = none ∧ s.grp c (collArgs x.bytes).group = none) ∧
    (∃ (row : (Nat → CmdRef → Instr) × Nat) (s : State) (c : Nat) (ref : CmdRef) (x : RCmd) (p : Partition), row ∈ collRows ∧ InTurn s c ref x p ∧ x.op = 10 ∧ fieldAt x.bytes 16 1 = row.snd ∧ s.collCheck c p x = none ∧ s.grp c (collArgs x.bytes).group ≠ none ∧ (s.flying c).length < 8 ∧ s.grpState c (collArgs x.bytes).group = gsBroken) ∧
    (∃ (row : (Nat → CmdRef → Instr) × Nat) (s : State) (c : Nat) (ref : CmdRef) (x : RCmd) (p : Partition) (g : Grp), row ∈ collRows ∧ InTurn s c ref x p ∧ x.op = 10 ∧ fieldAt x.bytes 16 1 = row.snd ∧ s.collCheck c p x = none ∧ s.grp c (collArgs x.bytes).group = some g ∧ s.grpState c (collArgs x.bytes).group = gsBound ∧ (s.flying c).length < 8 ∧ (row.snd ≤ 3 → 2 ^ 25 ≤ p.stageSize) ∧ s.run c (collArgs x.bytes).group (s.cseq c (collArgs x.bytes).group) = none ∧ (∀ (k : CollTok), k ∈ s.coll.toks → ¬(k.tenant = c ∧ k.group = (collArgs x.bytes).group ∧ k.cseq = s.cseq c (collArgs x.bytes).group)) ∧ (∀ (e : Nat × Nat), e ∈ g.ents.zipIdx → e.snd ≠ g.rank → (s.resolveEntry c e.fst).isSome = true)) ∧
    (∃ (row : (Nat → CmdRef → Instr) × Nat) (s : State) (c : Nat) (ref : CmdRef) (x : RCmd) (p : Partition), row ∈ collRows ∧ InTurn s c ref x p ∧ x.op = 10 ∧ fieldAt x.bytes 16 1 = row.snd ∧ s.collCheck c p x = none ∧ s.grp c (collArgs x.bytes).group = none) ∧
    (∃ (row : (Nat → CmdRef → Instr) × Nat) (s : State) (c : Nat) (ref : CmdRef) (x : RCmd) (p : Partition), row ∈ collRows ∧ InTurn s c ref x p ∧ x.op = 10 ∧ fieldAt x.bytes 16 1 = row.snd ∧ s.collCheck c p x = none ∧ s.grp c (collArgs x.bytes).group ≠ none ∧ (s.flying c).length < 8 ∧ s.grpState c (collArgs x.bytes).group = gsBroken) ∧
    (∃ (row : (Nat → CmdRef → Instr) × Nat) (s : State) (c : Nat) (ref : CmdRef) (x : RCmd) (p : Partition) (g : Grp), row ∈ collRows ∧ InTurn s c ref x p ∧ x.op = 10 ∧ fieldAt x.bytes 16 1 = row.snd ∧ s.collCheck c p x = none ∧ s.grp c (collArgs x.bytes).group = some g ∧ s.grpState c (collArgs x.bytes).group = gsBound ∧ (s.flying c).length < 8 ∧ (row.snd ≤ 3 → 2 ^ 25 ≤ p.stageSize) ∧ s.run c (collArgs x.bytes).group (s.cseq c (collArgs x.bytes).group) = none ∧ (∀ (k : CollTok), k ∈ s.coll.toks → ¬(k.tenant = c ∧ k.group = (collArgs x.bytes).group ∧ k.cseq = s.cseq c (collArgs x.bytes).group)) ∧ (∀ (e : Nat × Nat), e ∈ g.ents.zipIdx → e.snd ≠ g.rank → (s.resolveEntry c e.fst).isSome = true)) ∧
    (∃ (row : (Nat → CmdRef → Instr) × Nat) (s : State) (c : Nat) (ref : CmdRef) (x : RCmd) (p : Partition), row ∈ collRows ∧ InTurn s c ref x p ∧ x.op = 10 ∧ fieldAt x.bytes 16 1 = row.snd ∧ s.collCheck c p x = none ∧ s.grp c (collArgs x.bytes).group = none) ∧
    (∃ (row : (Nat → CmdRef → Instr) × Nat) (s : State) (c : Nat) (ref : CmdRef) (x : RCmd) (p : Partition), row ∈ collRows ∧ InTurn s c ref x p ∧ x.op = 10 ∧ fieldAt x.bytes 16 1 = row.snd ∧ s.collCheck c p x = none ∧ s.grp c (collArgs x.bytes).group ≠ none ∧ (s.flying c).length < 8 ∧ s.grpState c (collArgs x.bytes).group = gsBroken) ∧
    (∃ (row : (Nat → CmdRef → Instr) × Nat) (s : State) (c : Nat) (ref : CmdRef) (x : RCmd) (p : Partition) (g : Grp), row ∈ collRows ∧ InTurn s c ref x p ∧ x.op = 10 ∧ fieldAt x.bytes 16 1 = row.snd ∧ s.collCheck c p x = none ∧ s.grp c (collArgs x.bytes).group = some g ∧ s.grpState c (collArgs x.bytes).group = gsBound ∧ (s.flying c).length < 8 ∧ (row.snd ≤ 3 → 2 ^ 25 ≤ p.stageSize) ∧ s.run c (collArgs x.bytes).group (s.cseq c (collArgs x.bytes).group) = none ∧ (∀ (k : CollTok), k ∈ s.coll.toks → ¬(k.tenant = c ∧ k.group = (collArgs x.bytes).group ∧ k.cseq = s.cseq c (collArgs x.bytes).group)) ∧ (∀ (e : Nat × Nat), e ∈ g.ents.zipIdx → e.snd ≠ g.rank → (s.resolveEntry c e.fst).isSome = true)) ∧
    (∃ (row : (Nat → CmdRef → Instr) × Nat) (s : State) (c : Nat) (ref : CmdRef) (x : RCmd) (p : Partition), row ∈ collRows ∧ InTurn s c ref x p ∧ x.op = 10 ∧ fieldAt x.bytes 16 1 = row.snd ∧ s.collCheck c p x = none ∧ s.grp c (collArgs x.bytes).group = none) ∧
    (∃ (row : (Nat → CmdRef → Instr) × Nat) (s : State) (c : Nat) (ref : CmdRef) (x : RCmd) (p : Partition), row ∈ collRows ∧ InTurn s c ref x p ∧ x.op = 10 ∧ fieldAt x.bytes 16 1 = row.snd ∧ s.collCheck c p x = none ∧ s.grp c (collArgs x.bytes).group ≠ none ∧ (s.flying c).length < 8 ∧ s.grpState c (collArgs x.bytes).group = gsBroken) ∧
    (∃ (row : (Nat → CmdRef → Instr) × Nat) (s : State) (c : Nat) (ref : CmdRef) (x : RCmd) (p : Partition) (g : Grp), row ∈ collRows ∧ InTurn s c ref x p ∧ x.op = 10 ∧ fieldAt x.bytes 16 1 = row.snd ∧ s.collCheck c p x = none ∧ s.grp c (collArgs x.bytes).group = some g ∧ s.grpState c (collArgs x.bytes).group = gsBound ∧ (s.flying c).length < 8 ∧ (row.snd ≤ 3 → 2 ^ 25 ≤ p.stageSize) ∧ s.run c (collArgs x.bytes).group (s.cseq c (collArgs x.bytes).group) = none ∧ (∀ (k : CollTok), k ∈ s.coll.toks → ¬(k.tenant = c ∧ k.group = (collArgs x.bytes).group ∧ k.cseq = s.cseq c (collArgs x.bytes).group)) ∧ (∀ (e : Nat × Nat), e ∈ g.ents.zipIdx → e.snd ≠ g.rank → (s.resolveEntry c e.fst).isSome = true)) ∧
    (∃ (row : (Nat → CmdRef → Instr) × Nat) (s : State) (c : Nat) (ref : CmdRef) (x : RCmd) (p : Partition), row ∈ collRows ∧ InTurn s c ref x p ∧ x.op = 10 ∧ fieldAt x.bytes 16 1 = row.snd ∧ s.collCheck c p x = none ∧ s.grp c (collArgs x.bytes).group = none) ∧
    (∃ (row : (Nat → CmdRef → Instr) × Nat) (s : State) (c : Nat) (ref : CmdRef) (x : RCmd) (p : Partition), row ∈ collRows ∧ InTurn s c ref x p ∧ x.op = 10 ∧ fieldAt x.bytes 16 1 = row.snd ∧ s.collCheck c p x = none ∧ s.grp c (collArgs x.bytes).group ≠ none ∧ (s.flying c).length < 8 ∧ s.grpState c (collArgs x.bytes).group = gsBroken) :=
  ⟨⟨(.collAllreduce, 2), (sColl (xc 2) 1), 0, ref0, (xc 2), part0, { n := 2, rank := 1, ents := [2, 1], digest := 77 }, List.mem_of_getElem? (i := 0) rfl, inTurn (by decide +kernel), by decide +kernel⟩,
    ⟨(.collAllreduce, 2), (sColl (xc 2) 0), 0, ref0, (xc 2), part0, List.mem_of_getElem? (i := 0) rfl, inTurn (by decide +kernel), by decide +kernel⟩,
    ⟨(.collAllreduce, 2), (sColl (xc 2) 2), 0, ref0, (xc 2), part0, List.mem_of_getElem? (i := 0) rfl, inTurn (by decide +kernel), by decide +kernel⟩,
    ⟨(.collReduceScatter, 3), (sColl (xc 3) 1), 0, ref0, (xc 3), part0, { n := 2, rank := 1, ents := [2, 1], digest := 77 }, List.mem_of_getElem? (i := 1) rfl, inTurn (by decide +kernel), by decide +kernel⟩,
    ⟨(.collReduceScatter, 3), (sColl (xc 3) 0), 0, ref0, (xc 3), part0, List.mem_of_getElem? (i := 1) rfl, inTurn (by decide +kernel), by decide +kernel⟩,
    ⟨(.collReduceScatter, 3), (sColl (xc 3) 2), 0, ref0, (xc 3), part0, List.mem_of_getElem? (i := 1) rfl, inTurn (by decide +kernel), by decide +kernel⟩,
    ⟨(.collAllgather, 4), (sColl (xc 4) 1), 0, ref0, (xc 4), part0, { n := 2, rank := 1, ents := [2, 1], digest := 77 }, List.mem_of_getElem? (i := 2) rfl, inTurn (by decide +kernel), by decide +kernel⟩,
    ⟨(.collAllgather, 4), (sColl (xc 4) 0), 0, ref0, (xc 4), part0, List.mem_of_getElem? (i := 2) rfl, inTurn (by decide +kernel), by decide +kernel⟩,
    ⟨(.collAllgather, 4), (sColl (xc 4) 2), 0, ref0, (xc 4), part0, List.mem_of_getElem? (i := 2) rfl, inTurn (by decide +kernel), by decide +kernel⟩,
    ⟨(.collAlltoall, 5), (sColl (xc 5) 1), 0, ref0, (xc 5), part0, { n := 2, rank := 1, ents := [2, 1], digest := 77 }, List.mem_of_getElem? (i := 3) rfl, inTurn (by decide +kernel), by decide +kernel⟩,
    ⟨(.collAlltoall, 5), (sColl (xc 5) 0), 0, ref0, (xc 5), part0, List.mem_of_getElem? (i := 3) rfl, inTurn (by decide +kernel), by decide +kernel⟩,
    ⟨(.collAlltoall, 5), (sColl (xc 5) 2), 0, ref0, (xc 5), part0, List.mem_of_getElem? (i := 3) rfl, inTurn (by decide +kernel), by decide +kernel⟩,
    ⟨(.collAlltoallv, 6), (sColl (xc 6) 1), 0, ref0, (xc 6), part0, { n := 2, rank := 1, ents := [2, 1], digest := 77 }, List.mem_of_getElem? (i := 4) rfl, inTurn (by decide +kernel), by decide +kernel⟩,
    ⟨(.collAlltoallv, 6), (sColl (xc 6) 0), 0, ref0, (xc 6), part0, List.mem_of_getElem? (i := 4) rfl, inTurn (by decide +kernel), by decide +kernel⟩,
    ⟨(.collAlltoallv, 6), (sColl (xc 6) 2), 0, ref0, (xc 6), part0, List.mem_of_getElem? (i := 4) rfl, inTurn (by decide +kernel), by decide +kernel⟩,
    ⟨(.collBarrier, 7), (sColl (xc 7) 1), 0, ref0, (xc 7), part0, { n := 2, rank := 1, ents := [2, 1], digest := 77 }, List.mem_of_getElem? (i := 5) rfl, inTurn (by decide +kernel), by decide +kernel⟩,
    ⟨(.collBarrier, 7), (sColl (xc 7) 0), 0, ref0, (xc 7), part0, List.mem_of_getElem? (i := 5) rfl, inTurn (by decide +kernel), by decide +kernel⟩,
    ⟨(.collBarrier, 7), (sColl (xc 7) 2), 0, ref0, (xc 7), part0, List.mem_of_getElem? (i := 5) rfl, inTurn (by decide +kernel), by decide +kernel⟩⟩

theorem meets_collectiveSegmentsTokensAndEnds :
    (∃ (s : State) (c : Nat) (g : Nat) (q : Nat) (k : Coll), s.tidy = true ∧ c < 16 ∧ g < 16 ∧ s.run c g q = some k ∧ k.reduces = true ∧ k.next ≠ k.segments ∧ ((List.filter (fun sg => !k.segDone sg) k.segs).length < 4)) ∧
    (∃ (s : State) (c : Nat) (g : Nat) (q : Nat) (k : Coll), s.tidy = true ∧ c < 16 ∧ g < 16 ∧ s.run c g q = some k ∧ k.reduces = true ∧ k.next ≠ k.segments ∧ ((List.filter (fun sg => !k.segDone sg) k.segs).length < 4) ∧ k.segs = [] ∧ k.toks = [] ∧ 2 ≤ k.n) ∧
    (∃ (s : State) (c : Nat) (g : Nat) (q : Nat) (k : CollTok), s.tidy = true ∧ c < 16 ∧ g < 16 ∧ k.tenant = c ∧ k.group = g ∧ k.cseq = q ∧ s.run c g q = none ∧ (s.grpState c g = gsUnbound ∨ seqGe q (s.cseq c g) = true)) ∧
    (∃ (s : State) (c : Nat) (g : Nat) (q : Nat) (k : CollTok) (r : Coll), s.tidy = true ∧ c < 16 ∧ g < 16 ∧ k.tenant = c ∧ k.group = g ∧ k.cseq = q ∧ s.run c g q = some r ∧ r.differs k = false) ∧
    (∃ (s : State) (c : Nat) (g : Nat) (q : Nat) (k : CollTok) (r : Coll), s.tidy = true ∧ c < 16 ∧ g < 16 ∧ k.tenant = c ∧ k.group = g ∧ k.cseq = q ∧ s.run c g q = some r ∧ r.differs k = true) ∧
    (∃ (s : State) (c : Nat) (g : Nat) (q : Nat), s.tidy = true ∧ c < 16 ∧ g < 16 ∧ s.grpState c g ≠ gsUnbound ∧ ((s.run c g q).isSome = true ∨ seqGe q (s.cseq c g) = true)) ∧
    (∃ (s : State) (c : Nat) (g : Nat) (q : Nat) (k : Coll), s.tidy = true ∧ c < 16 ∧ g < 16 ∧ s.run c g q = some k ∧ k.finished = true ∧ (∀ (h : HeldPkt), h ∈ s.unackedPkts → h.waiter ≠ Waiter.coll c g q) ∧ k.excess = false ∧ k.op ≠ 6) ∧
    (∃ (s : State) (c : Nat) (g : Nat) (q : Nat) (k : Coll), s.tidy = true ∧ c < 16 ∧ g < 16 ∧ s.run c g q = some k ∧ k.reduces = true ∧ k.red = 0) :=
  ⟨⟨(sSeg (coll0 2)), 0, 1, 8, (coll0 2), by decide +kernel⟩,
    ⟨(sSeg (coll0 2)), 0, 1, 8, (coll0 2), by decide +kernel⟩,
    ⟨(sSeg (coll0 2)), 0, 1, 9, (tok0 9 77), by decide +kernel⟩,
    ⟨(sSeg (coll0 2)), 0, 1, 8, (tok0 8 77), (coll0 2), by decide +kernel⟩,
    ⟨(sSeg (coll0 2)), 0, 1, 8, (tok0 8 78), (coll0 2), by decide +kernel⟩,
    ⟨(sSeg (coll0 2)), 0, 1, 8, by decide +kernel⟩,
    ⟨(sSeg collEnd), 0, 1, 8, collEnd, by decide +kernel⟩,
    ⟨(sSeg (coll0 2)), 0, 1, 8, (coll0 2), by decide +kernel⟩⟩

theorem meets_ringsDoorbellsAndFetch :
    (∃ (s : State) (c : Fin 16) (r : Fin 8) (p : Partition), s.tidy = true ∧ s.serves = true ∧ s.part ↑c = some p ∧ ↑r < p.rings ∧ s.ringOn ↑c ↑r = false ∧ (s.ringSt ↑c ↑r).cmds = []) ∧
    (∃ (s : State), s.tidy = true ∧ s.serves = true) ∧
    (∃ (s : State) (c : Fin 16) (r : Fin 8) (tail : Nat), s.tidy = true ∧ s.serves = true ∧ s.tState ↑c ≠ tsDisabled ∧ s.tState ↑c ≠ tsResetting ∧ s.ringOn ↑c ↑r = true ∧ (tail % 2 ^ 16 + 2 ^ 16 - (s.ringSt ↑c ↑r).head) % 2 ^ 16 ≤ s.ringSize ↑c ↑r) ∧
    (∃ (s : State) (c : Fin 16) (r : Fin 8) (tail : Nat), s.tidy = true ∧ s.serves = true ∧ s.tState ↑c ≠ tsDisabled ∧ s.tState ↑c ≠ tsResetting ∧ s.ringOn ↑c ↑r = true ∧ ¬(tail % 2 ^ 16 + 2 ^ 16 - (s.ringSt ↑c ↑r).head) % 2 ^ 16 ≤ s.ringSize ↑c ↑r ∧ s.tState ↑c = tsActive) ∧
    (∃ (s : State) (c : Fin 16) (r : Fin 8), s.tidy = true ∧ s.serves = true ∧ s.tState ↑c ≠ tsResetting ∧ s.ringOn ↑c ↑r = false) ∧
    (∃ (s : State) (c : Fin 16) (r : Fin 8), s.tidy = true ∧ s.serves = true ∧ s.fetchRoom ↑c ↑r ≠ 0 ∧ s.vfReach ↑c = true) ∧
    (∃ (s : State) (c : Fin 16) (r : Fin 8), s.tidy = true ∧ s.serves = true ∧ s.fetchRoom ↑c ↑r ≠ 0) ∧
    (∃ (s : State) (c : Fin 16) (r : Fin 8) (p : Partition), s.tidy = true ∧ s.serves = true ∧ s.part ↑c = some p ∧ ↑r < p.rings ∧ s.ringOn ↑c ↑r = false ∧ (s.ringSt ↑c ↑r).cmds ≠ []) :=
  ⟨⟨sOn, 0, 7, part0, by decide +kernel⟩,
    ⟨(setRegs sOn [(0x200000, 1), (0x200030, 1)]), by decide +kernel⟩,
    ⟨(sCmd (cmd 0 [])), 0, 0, 70, by decide +kernel⟩,
    ⟨(sCmd (cmd 0 [])), 0, 0, 71, by decide +kernel⟩,
    ⟨sOn, 0, 0, by decide +kernel⟩,
    ⟨sFetch, 0, 0, by decide +kernel⟩,
    ⟨sFetch, 0, 0, by decide +kernel⟩,
    ⟨(setRegs (sCmd (cmd 0 [])) [(0x200000, 0)]), 0, 0, part0, by decide +kernel⟩⟩

theorem meets_commandsReportAndTimeOut :
    (∃ (s : State) (c : Fin 16) (r : Fin 8) (csn : Nat) (x : RCmd), s.tidy = true ∧ s.cmd (↑c) (CmdRef.ring (↑r) csn) = some x ∧ x.st = CmdSt.done ∧ x.told = false ∧ s.inUnit (↑c) x.unit = false ∧ s.active ↑c = true ∧ s.logLen ↑c = 0 ∧ s.vfReach ↑c = true) ∧
    (∃ (s : State) (c : Fin 16) (r : Fin 8) (csn : Nat) (x : RCmd), s.tidy = true ∧ s.cmd (↑c) (CmdRef.ring (↑r) csn) = some x ∧ x.st = CmdSt.done ∧ x.told = false ∧ s.inUnit (↑c) x.unit = false ∧ s.active ↑c = false ∧ x.sig = false ∧ x.rec_ = true ∧ s.logLen ↑c < 64) ∧
    (∃ (s : State) (c : Fin 16) (r : Fin 8) (csn : Nat) (x : RCmd), s.tidy = true ∧ s.cmd (↑c) (CmdRef.ring (↑r) csn) = some x ∧ x.st = CmdSt.done ∧ x.told = false ∧ s.inUnit (↑c) x.unit = false ∧ s.active ↑c = false ∧ x.sig = false ∧ x.rec_ = true ∧ 64 ≤ s.logLen ↑c) ∧
    (∃ (s : State) (c : Fin 16) (r : Fin 8) (csn : Nat) (x : RCmd), s.tidy = true ∧ s.cmd (↑c) (CmdRef.ring (↑r) csn) = some x ∧ s.active ↑c = true ∧ s.inRecovery = false ∧ s.fld (rng (↑c) (↑r) 44) 0 16 ≤ (s.ringSt ↑c ↑r).timer ∧ (List.find? (fun y => y.st != CmdSt.done) (s.ringSt ↑c ↑r).cmds = some x) ∧ x.csn = csn ∧ x.inFront = true ∧ (x.st = CmdSt.held ∨ x.op ≠ 10 ∧ x.op ≠ 26 ∧ x.op ≠ 27)) :=
  ⟨⟨(sCmd xDone), 0, 0, 5, xDone, by decide +kernel⟩,
    ⟨(sFrzRing xDone), 0, 0, 5, xDone, by decide +kernel⟩,
    ⟨(sFull xDone), 0, 0, 5, xDone, by decide +kernel⟩,
    ⟨(sOld (cmd 0 [])), 0, 0, 5, (cmd 0 []), by decide +kernel⟩⟩

theorem meets_frontEndCommandsComplete :
    (∃ (s : State) (c : Nat) (ref : CmdRef) (x : RCmd) (p : Partition), InTurn s c ref x p ∧ Quiet ref x ∧ x.op = 0 ∧ zeros x.bytes 16 64 = true) ∧
    (∃ (s : State) (c : Nat) (ref : CmdRef) (x : RCmd) (p : Partition), InTurn s c ref x p ∧ Quiet ref x ∧ x.op = 32 ∧ zeros x.bytes 48 64 = true ∧ sigEntryOk (List.take 32 (List.drop 16 x.bytes)) = true ∧ x.told = false ∧ s.inUnit c (s.unitFor c ref) = false ∧ sigKind (sigResolve (List.take 32 (List.drop 16 x.bytes)) x.csn) = 1 ∧ fieldAt (sigResolve (List.take 32 (List.drop 16 x.bytes)) x.csn) 5 1 = 3) ∧
    (∃ (s : State) (c : Nat) (ref : CmdRef) (x : RCmd) (p : Partition) (d : Nat) (q : Nat), InTurn s c ref x p ∧ Quiet ref x ∧ x.op = 32 ∧ zeros x.bytes 48 64 = true ∧ sigEntryOk (List.take 32 (List.drop 16 x.bytes)) = true ∧ x.told = false ∧ s.inUnit c (s.unitFor c ref) = false ∧ sigKind (sigResolve (List.take 32 (List.drop 16 x.bytes)) x.csn) = 1 ∧ fieldAt (sigResolve (List.take 32 (List.drop 16 x.bytes)) x.csn) 5 1 ≠ 3 ∧ s.resolve (fieldAt (sigResolve (List.take 32 (List.drop 16 x.bytes)) x.csn) 4 1) (fieldAt (sigResolve (List.take 32 (List.drop 16 x.bytes)) x.csn) 5 1) = some d ∧ d ≠ s.moduleId ∧ s.route d 0 none = some q) ∧
    (∃ (s : State) (c : Nat) (ref : CmdRef) (x : RCmd) (p : Partition), InTurn s c ref x p ∧ Quiet ref x ∧ x.op = 32 ∧ zeros x.bytes 48 64 = true ∧ sigEntryOk (List.take 32 (List.drop 16 x.bytes)) = true ∧ x.told = false ∧ s.inUnit c (s.unitFor c ref) = false ∧ sigKind (sigResolve (List.take 32 (List.drop 16 x.bytes)) x.csn) = 2 ∧ s.vfReach c = true) ∧
    (∃ (s : State) (c : Nat) (ref : CmdRef) (x : RCmd) (p : Partition), InTurn s c ref x p ∧ x.op = 33 ∧ zeros x.bytes 19 24 = true ∧ zeros x.bytes 32 64 = true ∧ fieldAt x.bytes 16 2 < 4096 ∧ fieldAt x.bytes 18 1 < 3 ∧ fieldAt x.bytes 24 8 ≤ s.ctr c (fieldAt x.bytes 16 2) (fieldAt x.bytes 18 1)) ∧
    (∃ (s : State) (c : Nat) (ref : CmdRef) (x : RCmd) (p : Partition), InTurn s c ref x p ∧ x.op = 33 ∧ zeros x.bytes 19 24 = true ∧ zeros x.bytes 32 64 = true ∧ fieldAt x.bytes 16 2 < 4096 ∧ fieldAt x.bytes 18 1 < 3 ∧ ¬fieldAt x.bytes 24 8 ≤ s.ctr c (fieldAt x.bytes 16 2) (fieldAt x.bytes 18 1)) ∧
    (∃ (s : State) (c : Nat) (ref : CmdRef) (x : RCmd) (p : Partition), InTurn s c ref x p ∧ x.op = 34 ∧ fieldAt x.bytes 16 1 < 4 ∧ zeros x.bytes 17 64 = true ∧ s.earlierDone c ref = true) ∧
    (∃ (s : State) (c : Nat) (ref : CmdRef) (x : RCmd) (p : Partition), InTurn s c ref x p ∧ x.op = 34 ∧ fieldAt x.bytes 16 1 < 4 ∧ zeros x.bytes 17 64 = true ∧ ¬s.earlierDone c ref = true) ∧
    (∃ (s : State) (c : Nat) (ref : CmdRef) (x : RCmd), (∀ (n i : Nat), ref = CmdRef.item n i → i < 256) ∧ s.cmd c ref = some x ∧ x.op = 33 ∧ x.st = CmdSt.running ∧ s.active c = true ∧ fieldAt x.bytes 24 8 ≤ s.ctr c (fieldAt x.bytes 16 2) (fieldAt x.bytes 18 1)) :=
  ⟨⟨(sCmd (cmd 0 [])), 0, ref0, (cmd 0 []), part0, inTurn (by decide +kernel), .inl ⟨_, _, rfl⟩, by decide +kernel⟩,
    ⟨(sCmd (xSig eCtr)), 0, ref0, (xSig eCtr), part0, inTurn (by decide +kernel), .inl ⟨_, _, rfl⟩, by decide +kernel⟩,
    ⟨(onRing (sLnk 2 3) [xSig eFar]), 0, ref0, (xSig eFar), part0, 4, 1, inTurn (by decide +kernel), .inl ⟨_, _, rfl⟩, by decide +kernel⟩,
    ⟨(sCmd (xSig eHost)), 0, ref0, (xSig eHost), part0, inTurn (by decide +kernel), .inl ⟨_, _, rfl⟩, by decide +kernel⟩,
    ⟨(sCtr (sCmd (xWait 5))), 0, ref0, (xWait 5), part0, inTurn (by decide +kernel), by decide +kernel⟩,
    ⟨(sCtr (sCmd (xWait 6))), 0, ref0, (xWait 6), part0, inTurn (by decide +kernel), by decide +kernel⟩,
    ⟨(sCmd (xFence 3)), 0, ref0, (xFence 3), part0, inTurn (by decide +kernel), by decide +kernel⟩,
    ⟨(onRing sOn [{ xRun 1 [] with csn := 4 }, xFence 3]), 0, ref0, (xFence 3), part0, inTurn (by decide +kernel), by decide +kernel⟩,
    ⟨(sCtr (sCmd { xWait 5 with st := .running })), 0, ref0, { xWait 5 with st := .running }, (fun _ _ (h : CmdRef.ring 0 5 = _) => nomatch h), by decide +kernel⟩⟩

theorem meets_unitCommandsTakeATile :
    (∃ (s : State) (c : Nat) (ref : CmdRef) (x : RCmd) (p : Partition) (n : Nat) (row : (Nat → CmdRef → Instr) × Nat × List Nat), InTurn s c ref x p ∧ row ∈ insnRows ∧ x.op = row.snd.fst ∧ (insnCheck (fun o => row.snd.snd.contains o) x = none) ∧ s.placeCmd c ref x = some n) ∧
    (∃ (s : State) (c : Nat) (ref : CmdRef) (x : RCmd) (p : Partition) (n : Nat) (row : (Nat → CmdRef → Instr) × Nat × List Nat), InTurn s c ref x p ∧ row ∈ insnRows ∧ x.op = row.snd.fst ∧ (insnCheck (fun o => row.snd.snd.contains o) x = none) ∧ s.placeCmd c ref x = some n) ∧
    (∃ (s : State) (c : Nat) (ref : CmdRef) (x : RCmd) (p : Partition) (n : Nat) (row : (Nat → CmdRef → Instr) × Nat × List Nat), InTurn s c ref x p ∧ row ∈ insnRows ∧ x.op = row.snd.fst ∧ (insnCheck (fun o => row.snd.snd.contains o) x = none) ∧ s.placeCmd c ref x = some n) ∧
    (∃ (s : State) (c : Nat) (ref : CmdRef) (x : RCmd) (p : Partition) (n : Nat) (row : (Nat → CmdRef → Instr) × Nat × List Nat), InTurn s c ref x p ∧ row ∈ insnRows ∧ x.op = row.snd.fst ∧ (insnCheck (fun o => row.snd.snd.contains o) x = none) ∧ s.placeCmd c ref x = some n) ∧
    (∃ (s : State) (c : Nat) (ref : CmdRef) (x : RCmd) (p : Partition) (n : Nat) (row : (Nat → CmdRef → Instr) × Nat × List Nat), InTurn s c ref x p ∧ row ∈ insnRows ∧ x.op = row.snd.fst ∧ (insnCheck (fun o => row.snd.snd.contains o) x = none) ∧ s.placeCmd c ref x = some n) ∧
    (∃ (s : State) (c : Nat) (ref : CmdRef) (x : RCmd) (p : Partition) (n : Nat), InTurn s c ref x p ∧ x.op = 3 ∧ zeros x.bytes 32 48 = true ∧ zeros x.bytes 62 64 = true ∧ fieldAt x.bytes 16 8 % 32 = 0 ∧ fieldAt x.bytes 24 4 % 32 = 0 ∧ 32 ≤ fieldAt x.bytes 24 4 ∧ fieldAt x.bytes 24 4 ≤ 65536 ∧ fieldAt x.bytes 28 4 % 32 = 0 ∧ inShare p.share (fieldAt x.bytes 28 4) (fieldAt x.bytes 24 4) = true ∧ s.feMapped c (fieldAt x.bytes 16 8) (fieldAt x.bytes 24 4) = true ∧ s.placeCmd c ref x = some n) ∧
    (∃ (s : State) (c : Nat) (ref : CmdRef) (x : RCmd) (p : Partition) (n : Nat), InTurn s c ref x p ∧ x.op = 8 ∧ zeros x.bytes 17 18 = true ∧ zeros x.bytes 20 24 = true ∧ zeros x.bytes 32 48 = true ∧ zeros x.bytes 62 64 = true ∧ fieldAt x.bytes 16 1 < 8 ∧ fieldAt x.bytes 18 2 < 768 ∧ fieldAt x.bytes 18 2 + 1 ≤ p.xreq ∧ fieldAt x.bytes 24 8 < 2 ^ 40 ∧ fieldAt x.bytes 24 8 % 64 = 0 ∧ s.placeXfer c ref x = some n) :=
  ⟨⟨(sCmd (xInsn 1 (wMatmul true))), 0, ref0, (xInsn 1 (wMatmul true)), part0, 0, (.cmdMatmul, 1, [0x10, 0x11]), inTurn (by decide +kernel), List.mem_of_getElem? (i := 0) rfl, by decide +kernel⟩,
    ⟨(sCmd (xInsn 2 (wAttn))), 0, ref0, (xInsn 2 (wAttn)), part0, 0, (.cmdAttn, 2, [0x60, 0x61]), inTurn (by decide +kernel), List.mem_of_getElem? (i := 1) rfl, by decide +kernel⟩,
    ⟨(sCmd (xInsn 4 (wStat 0))), 0, ref0, (xInsn 4 (wStat 0)), part0, 0, (.cmdQstat, 4, [0x50]), inTurn (by decide +kernel), List.mem_of_getElem? (i := 2) rfl, by decide +kernel⟩,
    ⟨(sCmd (xInsn 5 (wQconv))), 0, ref0, (xInsn 5 (wQconv)), part0, 0, (.cmdQconv, 5, [0x51]), inTurn (by decide +kernel), List.mem_of_getElem? (i := 3) rfl, by decide +kernel⟩,
    ⟨(sCmd (xInsn 9 (wHist))), 0, ref0, (xInsn 9 (wHist)), part0, 0, (.cmdCodec, 9, [0x78, 0x79, 0x7A, 0x7B]), inTurn (by decide +kernel), List.mem_of_getElem? (i := 4) rfl, by decide +kernel⟩,
    ⟨{ sCmd xVec with hbm := writeBytes [] 0x9000 [1, 2, 3] }, 0, ref0, xVec, part0, 0, inTurn (by decide +kernel), by decide +kernel⟩,
    ⟨(sCmd xXfer), 0, ref0, xXfer, part0, 0, inTurn (by decide +kernel), by decide +kernel⟩⟩

theorem meets_recipesLoadPatchAndLaunch :
    (∃ (s : State) (c : Nat) (r : Fin 8) (csn : Nat) (x : RCmd) (p : Partition), InTurn s c (CmdRef.ring (↑r) csn) x p ∧ x.op = 24 ∧ rcpIn p (fieldAt x.bytes 16 2) = true ∧ zeros x.bytes 20 24 = true ∧ zeros x.bytes 32 64 = true ∧ 1 ≤ fieldAt x.bytes 18 2 ∧ fieldAt x.bytes 18 2 ≤ 256 ∧ fieldAt x.bytes 24 8 % 64 = 0 ∧ s.feMapped c (fieldAt x.bytes 24 8) (64 * fieldAt x.bytes 18 2) = true ∧ (s.recipeSrc c x).all storedOk = true ∧ (∀ (o : Recipe), aget s.front.recipes (fieldAt x.bytes 16 2) = some o → o.cur.holds = 0 ∨ o.other.holds = 0)) ∧
    (∃ (s : State) (c : Nat) (r : Fin 8) (csn : Nat) (x : RCmd) (p : Partition), InTurn s c (CmdRef.ring (↑r) csn) x p ∧ x.op = 24 ∧ rcpIn p (fieldAt x.bytes 16 2) = true ∧ zeros x.bytes 20 24 = true ∧ zeros x.bytes 32 64 = true ∧ 1 ≤ fieldAt x.bytes 18 2 ∧ fieldAt x.bytes 18 2 ≤ 256 ∧ fieldAt x.bytes 24 8 % 64 = 0 ∧ s.feMapped c (fieldAt x.bytes 24 8) (64 * fieldAt x.bytes 18 2) = true ∧ (s.recipeSrc c x).all storedOk = true ∧ (¬∀ (o : Recipe), aget s.front.recipes (fieldAt x.bytes 16 2) = some o → o.cur.holds = 0 ∨ o.other.holds = 0)) ∧
    (∃ (s : State) (c : Nat) (r : Fin 8) (csn : Nat) (x : RCmd) (p : Partition) (o : Recipe), InTurn s c (CmdRef.ring (↑r) csn) x p ∧ x.op = 25 ∧ rcpIn p (fieldAt x.bytes 16 2) = true ∧ zeros x.bytes 19 20 = true ∧ zeros x.bytes 56 64 = true ∧ 1 ≤ fieldAt x.bytes 18 1 ∧ fieldAt x.bytes 18 1 ≤ 3 ∧ zeros x.bytes (20 + 12 * fieldAt x.bytes 18 1) 56 = true ∧ aget s.front.recipes (fieldAt x.bytes 16 2) = some o ∧ (List.range (fieldAt x.bytes 18 1)).all (patchOk (some o.cur.cmds.length) x.bytes) = true ∧ (∀ (o : Recipe), aget s.front.recipes (fieldAt x.bytes 16 2) = some o → o.cur.holds = 0 ∨ o.other.holds = 0)) ∧
    (∃ (s : State) (c : Nat) (r : Fin 8) (csn : Nat) (x : RCmd) (p : Partition) (o : Recipe), InTurn s c (CmdRef.ring (↑r) csn) x p ∧ x.op = 26 ∧ rcpIn p (fieldAt x.bytes 16 2) = true ∧ zeros x.bytes 19 24 = true ∧ zeros x.bytes 38 64 = true ∧ fieldAt x.bytes 18 1 < 2 ∧ aget s.front.recipes (fieldAt x.bytes 16 2) = some o ∧ s.launch c (some ↑r) x.csn = none) ∧
    (∃ (s : State) (c : Nat) (r : Fin 8) (csn : Nat) (x : RCmd) (p : Partition), InTurn s c (CmdRef.ring (↑r) csn) x p ∧ x.op = 26 ∧ rcpIn p (fieldAt x.bytes 16 2) = true ∧ zeros x.bytes 19 24 = true ∧ zeros x.bytes 38 64 = true ∧ fieldAt x.bytes 18 1 < 2 ∧ aget s.front.recipes (fieldAt x.bytes 16 2) = none) :=
  ⟨⟨(sCmd (xLoad 2)), 0, 0, 5, (xLoad 2), part0, inTurn (by decide +kernel), by decide +kernel⟩,
    ⟨(withRcp (sCmd (xLoad 2)) (rcp nop2 1 2)), 0, 0, 5, (xLoad 2), part0, inTurn (by decide +kernel), by decide +kernel⟩,
    ⟨(withRcp (sCmd xPatch) (rcp nop2 1 0)), 0, 0, 5, xPatch, part0, (rcp nop2 1 0), inTurn (by decide +kernel), by decide +kernel⟩,
    ⟨(withRcp (sCmd (xLaunch 0)) (rcp nop2 1 0)), 0, 0, 5, (xLaunch 0), part0, (rcp nop2 1 0), inTurn (by decide +kernel), by decide +kernel⟩,
    ⟨(sCmd (xLaunch 0)), 0, 0, 5, (xLaunch 0), part0, inTurn (by decide +kernel), by decide +kernel⟩⟩

theorem meets_expertDispatchAndPlans :
    (∃ (s : State) (c : Nat) (ref : CmdRef) (x : RCmd) (p : Partition), RouteRuns s c ref x p ∧ s.tidy = true ∧ c < 16) ∧
    (∃ (s : State) (c : Nat) (tile : Nat) (pre : List Item) (rest : List Item) (i : Item) (q : Route), s.tidy = true ∧ c < 16 ∧ s.usable c tile = true ∧ s.idleTile c tile = true ∧ (List.filter (fun y => y.tenant == c && y.phase == 0) s.front.items = pre ++ i :: rest) ∧ s.route? c i.ref = some q ∧ (∀ (y : Item), y ∈ pre → ∀ (q' : Route), s.route? c y.ref = some q' → s.residentOn q' y.expert tile = false) ∧ (s.residentOn q i.expert tile = true ∨ pre = [] ∧ ∀ (y : Item), y ∈ rest → ∀ (q' : Route), s.route? c y.ref = some q' → s.residentOn q' y.expert tile = false)) ∧
    (∃ (s : State) (c : Nat), s.tidy = true ∧ c < 16 ∧ (s.part c).isSome = true) ∧
    (∃ (s : State) (c : Nat) (layer : Nat) (tile : Nat) (e : Nat) (y : PlanSt), s.tidy = true ∧ c < 16 ∧ s.planSt c layer = some y ∧ y.loading.contains (tile, e) = true ∧ s.active c = true ∧ (∀ (i : Item), i ∈ s.front.items → ¬(i.tenant = c ∧ i.tile = some tile))) :=
  ⟨⟨(sRoute xRoute), 0, ref0, xRoute, part0, ⟨inTurn (by decide +kernel), by decide +kernel⟩, by decide +kernel⟩,
    ⟨sItems, 0, 9, [], [item0 4 2 none 0], (item0 3 1 none 0), route0, by decide +kernel⟩,
    ⟨(setRegs sRes [(0x110340, 0x10000)]), 0, by decide +kernel⟩,
    ⟨sRes, 0, 4095, 10, 2, { tenant := 0, layer := 4095, addr := 0xA000, done := [(9, 2)], loading := [(10, 2)] }, by decide +kernel⟩⟩

theorem meets_workItemsAreCutAndQueued :
    ∃ (s : State) (c : Nat) (ref : CmdRef) (x : RCmd) (p : Partition), RouteRuns s c ref x p :=
  ⟨(sRoute xRoute), 0, ref0, xRoute, part0, ⟨inTurn (by decide +kernel), by decide +kernel⟩⟩

theorem meets_pagesAllocatedFreedSharedCopied :
    (∃ (s : State) (c : Nat) (ref : CmdRef) (x : RCmd) (p : Partition) (b : Nat) (g : Nat) (page : Nat) (k : Nat), LarderTurn s c ref x p 16 ∧ DirFits p b g ∧ pageState (s.sess (pgSession x.bytes)) = true ∧ rangeOk (s.sess (pgSession x.bytes)) (pgFrom x.bytes) (pgTo x.bytes) = true ∧ pgFrom x.bytes = 16 * g ∧ pgTo x.bytes = 16 * g + 16 ∧ s.granule c p (pgSession x.bytes) g = none ∧ s.mapOf c p (pgSession x.bytes) g = some b ∧ (s.sess (pgSession x.bytes)).kmax ≤ 6 ∧ page < 2 ^ 24 ∧ k = s.growthK c p (pgSession x.bytes) g ∧ (Option.map (fun x => x.fst) (s.allocPage c k) = some page)) ∧
    (∃ (s : State) (c : Nat) (ref : CmdRef) (x : RCmd) (p : Partition) (b : Nat) (g : Nat) (page : Nat), LarderTurn s c ref x p 17 ∧ DirFits p b g ∧ pageState (s.sess (pgSession x.bytes)) = true ∧ rangeOk (s.sess (pgSession x.bytes)) (pgFrom x.bytes) (pgTo x.bytes) = true ∧ pgFrom x.bytes = 16 * g ∧ pgTo x.bytes = 16 * g + 16 ∧ s.granule c p (pgSession x.bytes) g = some (page, 0) ∧ s.mapOf c p (pgSession x.bytes) g = some b ∧ ((List.map (fun x => x.fst) (s.pool c).pages).Nodup) ∧ s.pageCount c page ≠ pinned) ∧
    (∃ (s : State) (c : Nat) (ref : CmdRef) (x : RCmd) (p : Partition) (b : Nat) (g : Nat) (page : Nat) (k : Nat), LarderTurn s c ref x p 18 ∧ DirFits p b g ∧ (s.shareSteps c p x.bytes).toOption = some [(g, page, k)] ∧ s.mapOf c p (pgSession x.bytes) g = some b ∧ page < 2 ^ 24 ∧ k < 8) ∧
    (∃ (s : State) (c : Nat) (ref : CmdRef) (x : RCmd) (p : Partition) (b : Nat) (g : Nat) (page : Nat) (k : Nat) (new : Nat), LarderTurn s c ref x p 19 ∧ DirFits p b g ∧ (s.shareSteps c p x.bytes).toOption = some [(g, page, k)] ∧ s.mapOf c p (pgSession x.bytes) g = some b ∧ new < 2 ^ 24 ∧ k < 8 ∧ (Option.map (fun x => x.fst) (s.allocPage c k) = some new) ∧ (page + 2 ^ k ≤ new ∨ new + 2 ^ k ≤ page) ∧ page + 2 ^ k ≤ p.granules ∧ new + 2 ^ k ≤ p.granules ∧ p.poolBase + p.granules * p.granuleBytes ≤ p.dirBase) ∧
    (∃ (s : State) (c : Nat) (p : Partition) (b : Nat) (y : PCopy), DirFits p b y.g ∧ s.tidy = true ∧ c < 16 ∧ s.part c = some p ∧ (List.find? (fun z => z.tenant == c) s.lrd.copies = some y) ∧ s.mapOf c p y.session y.g = some b ∧ y.new < 2 ^ 24 ∧ y.k < 8 ∧ p.poolBase + p.granules * p.granuleBytes ≤ p.dirBase ∧ y.new + 2 ^ y.k ≤ p.granules ∧ sessIn p y.session = true) :=
  ⟨⟨(sLrd (xPg 0x10 0 0 0 16) (sessS 0 1) (sessS 1 1) false), 0, ref0, (xPg 0x10 0 0 0 16), part0, 0, 0, 0, 0, larderTurn (inTurn (by decide +kernel)) (by decide +kernel), (by unfold DirFits; decide +kernel), by decide +kernel⟩,
    ⟨(sLrd (xPg 0x11 0 0 0 16) (sessS 0 1) (sessS 1 1) true), 0, ref0, (xPg 0x11 0 0 0 16), part0, 0, 0, 0, larderTurn (inTurn (by decide +kernel)) (by decide +kernel), (by unfold DirFits; decide +kernel), by decide +kernel⟩,
    ⟨(sLrd (xPg 0x12 1 0 0 16) (sessS 0 2) (sessS 1 1) true), 0, ref0, (xPg 0x12 1 0 0 16), part0, 1, 0, 0, 0, larderTurn (inTurn (by decide +kernel)) (by decide +kernel), (by unfold DirFits; decide +kernel), by decide +kernel⟩,
    ⟨(sLrd (xPg 0x13 1 0 0 16) (sessS 0 2) (sessS 1 1) true), 0, ref0, (xPg 0x13 1 0 0 16), part0, 1, 0, 0, 0, 1, larderTurn (inTurn (by decide +kernel)) (by decide +kernel), (by unfold DirFits; decide +kernel), by decide +kernel⟩,
    ⟨sCopy, 0, part0, 1, cp0, (by unfold DirFits; decide +kernel), by decide +kernel⟩⟩

theorem meets_sessionsOpenFeedStopAndClose :
    (∃ (s : State) (c : Nat) (ref : CmdRef) (x : RCmd) (p : Partition), LarderTurn s c ref x p 21 ∧ ctlOp x.bytes = 0 ∧ (s.sess (pgSession x.bytes)).state = 0 ∧ 16 ≤ fieldAt x.bytes 32 4 ∧ fieldAt x.bytes 32 4 ≤ 2097152 ∧ fieldAt x.bytes 42 1 ≤ 6 ∧ fieldAt x.bytes 43 1 ≤ 7) ∧
    (∃ (s : State) (c : Nat) (ref : CmdRef) (x : RCmd) (p : Partition), LarderTurn s c ref x p 21 ∧ ctlOp x.bytes = 1 ∧ (s.sess (pgSession x.bytes)).state ≠ 0) ∧
    (∃ (s : State) (c : Nat) (ref : CmdRef) (x : RCmd) (p : Partition), LarderTurn s c ref x p 21 ∧ ctlOp x.bytes = 2 ∧ (s.sess (pgSession x.bytes)).state ≠ 0) ∧
    (∃ (s : State) (c : Nat) (ref : CmdRef) (x : RCmd) (p : Partition), LarderTurn s c ref x p 21 ∧ ctlOp x.bytes = 3 ∧ s.fld (tnt c 768) 1 2 < 2 ∧ ((s.sess (pgSession x.bytes)).state = 1 ∨ (s.sess (pgSession x.bytes)).state = 2) ∧ (s.sess (pgSession x.bytes)).feeds = []) ∧
    (∃ (s : State) (c : Nat) (ref : CmdRef) (x : RCmd) (p : Partition), LarderTurn s c ref x p 21 ∧ ctlOp x.bytes = 3 ∧ s.fld (tnt c 768) 1 2 < 2 ∧ ((s.sess (pgSession x.bytes)).state = 1 ∨ (s.sess (pgSession x.bytes)).state = 2)) ∧
    (∃ (s : State) (c : Nat) (ref : CmdRef) (x : RCmd) (p : Partition), LarderTurn s c ref x p 21 ∧ ctlOp x.bytes = 4 ∧ (s.sess (pgSession x.bytes)).state ≠ 0) ∧
    (∃ (s : State) (c : Nat) (ref : CmdRef) (x : RCmd) (p : Partition), LarderTurn s c ref x p 21 ∧ ctlOp x.bytes = 7 ∧ ((s.sess (pgSession x.bytes)).state = 1 ∧ (s.sess (pgSession x.bytes)).pending = 0 ∨ (s.sess (pgSession x.bytes)).state = 4) ∧ fieldAt x.bytes 20 4 ≤ (s.sess (pgSession x.bytes)).length) ∧
    (∃ (s : State) (c : Nat) (ref : CmdRef) (x : RCmd) (p : Partition), LarderTurn s c ref x p 20 ∧ s.fld (tnt c 768) 1 2 < 2 ∧ ((s.sess (pgSession x.bytes)).state = 1 ∨ (s.sess (pgSession x.bytes)).state = 4) ∧ (s.sess (pgSession x.bytes)).feeds.length < 8) ∧
    (∃ (s : State) (c : Nat) (ref : CmdRef) (x : RCmd) (p : Partition), InTurn s c ref x p ∧ x.op = 20 ∧ x.tick < s.beat ∧ lrdCheck s c p x = none ∧ (s.comparing c = true → s.servesPair = true) ∧ s.sessBusy c (pgSession x.bytes) = true) ∧
    (∃ (s : State) (c : Nat) (ref : CmdRef) (x : RCmd) (p : Partition), InTurn s c ref x p ∧ x.op = 20 ∧ s.beat ≤ x.tick) :=
  ⟨⟨(sCtl (xCtl 5 0 [(0x18, 8, 9), (0x20, 4, 2097152), (0x24, 4, 3), (0x2A, 1, 6), (0x2B, 1, 7), (0x2C, 4, 1)]) 0), 0, ref0, (xCtl 5 0 [(0x18, 8, 9), (0x20, 4, 2097152), (0x24, 4, 3), (0x2A, 1, 6), (0x2B, 1, 7), (0x2C, 4, 1)]), part0, larderTurn (inTurn (by decide +kernel)) (by decide +kernel), by decide +kernel⟩,
    ⟨(sCtl (xCtl 0 1 [(0x2C, 4, 0x3F800000), (0x30, 2, 5), (0x34, 4, 0x3F000000)]) 1), 0, ref0, (xCtl 0 1 [(0x2C, 4, 0x3F800000), (0x30, 2, 5), (0x34, 4, 0x3F000000)]), part0, larderTurn (inTurn (by decide +kernel)) (by decide +kernel), by decide +kernel⟩,
    ⟨(sCtl (xCtl 0 2 [(0x18, 4, 7), (0x28, 4, 9)]) 1), 0, ref0, (xCtl 0 2 [(0x18, 4, 7), (0x28, 4, 9)]), part0, larderTurn (inTurn (by decide +kernel)) (by decide +kernel), by decide +kernel⟩,
    ⟨(sCtl (xCtl 0 3 []) 1), 0, ref0, (xCtl 0 3 []), part0, larderTurn (inTurn (by decide +kernel)) (by decide +kernel), by decide +kernel⟩,
    ⟨(sCtl (xCtl 0 3 []) 2), 0, ref0, (xCtl 0 3 []), part0, larderTurn (inTurn (by decide +kernel)) (by decide +kernel), by decide +kernel⟩,
    ⟨(sCtl (xCtl 0 4 []) 1), 0, ref0, (xCtl 0 4 []), part0, larderTurn (inTurn (by decide +kernel)) (by decide +kernel), by decide +kernel⟩,
    ⟨(sCtl (xCtl 0 7 [(0x14, 4, 20)]) 4), 0, ref0, (xCtl 0 7 [(0x14, 4, 20)]), part0, larderTurn (inTurn (by decide +kernel)) (by decide +kernel), by decide +kernel⟩,
    ⟨(sCtl (cmd 0x14 [(0x10, 2, 0), (0x14, 4, 5), (0x18, 8, 0x9000)]) 1), 0, ref0, (cmd 0x14 [(0x10, 2, 0), (0x14, 4, 5), (0x18, 8, 0x9000)]), part0, larderTurn (inTurn (by decide +kernel)) (by decide +kernel), by decide +kernel⟩,
    ⟨sBusy, 0, ref0, xFeed, part0, inTurn (by decide +kernel), by decide +kernel⟩,
    ⟨(sCtl { xFeed with tick := 5 } 1), 0, ref0, { xFeed with tick := 5 }, part0, inTurn (by decide +kernel), by decide +kernel⟩⟩

theorem park_size_of_sPark : parkSize part0 (sPark.evictable 0 part0 (pgSession xPark.bytes)) = 4112 := by decide +kernel

theorem meets_sessionsParkUnparkAndMigrate :
    (∃ (s : State) (c : Nat) (ref : CmdRef) (x : RCmd) (p : Partition), LarderTurn s c ref x p 21 ∧ ctlOp x.bytes = 5 ∧ ((s.sess (pgSession x.bytes)).state = 1 ∨ (s.sess (pgSession x.bytes)).state = 2 ∨ (s.sess (pgSession x.bytes)).state = 4) ∧ fieldAt x.bytes 20 1 % 2 = 0) ∧
    (∃ (s : State) (c : Nat) (ref : CmdRef) (x : RCmd) (p : Partition), LarderTurn s c ref x p 21 ∧ ctlOp x.bytes = 5 ∧ ((s.sess (pgSession x.bytes)).state = 1 ∨ (s.sess (pgSession x.bytes)).state = 2 ∨ (s.sess (pgSession x.bytes)).state = 4) ∧ fieldAt x.bytes 20 1 % 2 = 1 ∧ 0 < parkSize p (s.evictable c p (pgSession x.bytes)) ∧ parkSize p (s.evictable c p (pgSession x.bytes)) ≤ fieldAt x.bytes 32 4) ∧
    (∃ (s : State) (c : Nat) (ref : CmdRef) (x : RCmd) (p : Partition), LarderTurn s c ref x p 21 ∧ ctlOp x.bytes = 6 ∧ (s.sess (pgSession x.bytes)).state = 3 ∧ (s.sess (pgSession x.bytes)).evicted = false) ∧
    (∃ (s : State) (c : Nat) (ref : CmdRef) (x : RCmd) (p : Partition), LarderTurn s c ref x p 21 ∧ ctlOp x.bytes = 8 ∧ ((s.sess (pgSession x.bytes)).state = 4 ∨ (s.sess (pgSession x.bytes)).state = 3 ∧ (s.sess (pgSession x.bytes)).evicted = false) ∧ s.mode c = 0 ∧ s.sameLarder c = true ∧ s.twinReach = true) ∧
    (∃ (s : State) (c : Nat) (p : Partition) (m : Nat) (j : Job), s.tidy = true ∧ c < 16 ∧ s.part c = some p ∧ (s.sess m).job = some j ∧ j.kind = 2 ∧ sessIn p m = true ∧ j.moved < j.total) ∧
    (∃ (s : State) (c : Nat) (p : Partition) (m : Nat) (j : Job), s.tidy = true ∧ c < 16 ∧ s.part c = some p ∧ (s.sess m).job = some j ∧ j.kind = 2 ∧ sessIn p m = true ∧ j.total ≤ j.moved) ∧
    (∃ (s : State) (c : Nat) (p : Partition) (m : Nat) (j : Job), s.tidy = true ∧ c < 16 ∧ s.part c = some p ∧ (s.sess m).job = some j ∧ j.kind = 2 ∧ sessIn p m = true) :=
  ⟨⟨(sCtl (xCtl 0 5 []) 2), 0, ref0, (xCtl 0 5 []), part0, larderTurn (inTurn (by decide +kernel)) (by decide +kernel), by decide +kernel⟩,
    ⟨sPark, 0, ref0, xPark, part0, larderTurn (inTurn (by decide +kernel)) (by decide +kernel), by decide +kernel, by decide +kernel, by decide +kernel,
      by rw [park_size_of_sPark]; decide, by rw [park_size_of_sPark]; decide +kernel⟩,
    ⟨(sCtl (xCtl 0 6 []) 3), 0, ref0, (xCtl 0 6 []), part0, larderTurn (inTurn (by decide +kernel)) (by decide +kernel), by decide +kernel⟩,
    ⟨sMig, 0, ref0, (xCtl 0 8 []), part0, larderTurn (inTurn (by decide +kernel)) (by decide +kernel), by decide +kernel⟩,
    ⟨sJob, 0, part0, 0, job2, by decide +kernel⟩,
    ⟨sMoved, 0, part0, 0, job3, by decide +kernel⟩,
    ⟨sJob, 0, part0, 0, job2, by decide +kernel⟩⟩

theorem meets_ladleListsReturnsAndLaunches :
    (∃ (s : State) (c : Fin 16) (p : Partition) (v : W32), s.tidy = true ∧ s.part ↑c = some p ∧ s.serves = true ∧ s.ladleRefused (↑c) 768 (BitVec.toNat v) = true) ∧
    (∃ (s : State) (c : Fin 16) (p : Partition) (v : W32), s.tidy = true ∧ s.part ↑c = some p ∧ s.serves = true ∧ ¬s.ladleRefused (↑c) 768 (BitVec.toNat v) = true) ∧
    (∃ (s : State) (c : Fin 16) (p : Partition) (x : BList), s.tidy = true ∧ s.part ↑c = some p ∧ s.lEn ↑c = true ∧ 2 ≤ s.lRole ↑c ∧ x.bseq = (s.ladle ↑c).nextList + (s.ladle ↑c).lists.length) ∧
    (∃ (s : State) (c : Fin 16) (p : Partition) (x : BList), s.tidy = true ∧ s.part ↑c = some p ∧ s.lEn ↑c = true ∧ 2 ≤ s.lRole ↑c ∧ ¬x.bseq = (s.ladle ↑c).nextList + (s.ladle ↑c).lists.length ∧ s.active ↑c = true) ∧
    (∃ (s : State) (c : Fin 16) (p : Partition), s.tidy = true ∧ s.part ↑c = some p) ∧
    (∃ (s : State) (c : Fin 16) (p : Partition) (r : Ret), s.tidy = true ∧ s.part ↑c = some p ∧ s.lEn ↑c = true ∧ r.bseq = (s.ladle ↑c).nextRet + (s.ladle ↑c).rets.length) ∧
    (∃ (s : State) (c : Fin 16) (p : Partition) (r : Ret), s.tidy = true ∧ s.part ↑c = some p ∧ s.lEn ↑c = true ∧ ¬r.bseq = (s.ladle ↑c).nextRet + (s.ladle ↑c).rets.length ∧ s.active ↑c = true) ∧
    (∃ (s : State) (c : Fin 16) (p : Partition) (q : Nat) (l : Launch) (b : Batch), s.tidy = true ∧ s.part ↑c = some p ∧ s.active ↑c = true ∧ s.launch (↑c) none q = some l ∧ (∀ (y : RCmd), y ∈ l.cmds → y.st = CmdSt.done) ∧ (List.find? (fun y => y.list.bseq == q && !y.done) (s.ladle ↑c).batches = some b) ∧ (s.lSamples ↑c = true → Option.any (fun x => x.snd) (s.taRead (↑c) (s.ladleBuf (↑c) q + 2359296) (4 * b.list.samples)) = false)) :=
  ⟨⟨(sLad 0), 0, part72, 3, by decide +kernel⟩,
    ⟨(sLad 0), 0, part72, 0x1001, by decide +kernel⟩,
    ⟨(sLad 2), 0, part72, (list0 0), by decide +kernel⟩,
    ⟨(sLad 2), 0, part72, (list0 1), by decide +kernel⟩,
    ⟨{ sLad 0 with ladles := vupd sOn.ladles 0 fun l => { l with unsent := [list0 0, list0 9] } }, 0, part72, by decide +kernel⟩,
    ⟨(sLad 0), 0, part72, { bseq := 0, ents := [] }, by decide +kernel⟩,
    ⟨(sLad 0), 0, part72, { bseq := 1, ents := [] }, by decide +kernel⟩,
    ⟨(sBat 0), 0, part72, 0, lau0, bat0, by decide +kernel⟩⟩

theorem meets_tenantWindowsStandTwice :
    ∃ (s : State), s.serves = true ∧ s.barLive Fn.pf = true :=
  ⟨sOn, by decide +kernel⟩

theorem meets_lawLevelsFollowTheirLaw :
    ∃ (s : State), s.tidy = true ∧ s.serves = true :=
  ⟨sOn, by decide +kernel⟩

theorem meets_bubbleLevelsAreTheLargestCause :
    ∃ (s : State), s.tidy = true ∧ s.serves = true :=
  ⟨sOn, by decide +kernel⟩

theorem meets_stepRunsFrontCommand :
    ∃ (s : State) (c : Instr) (rest : List Instr), s.pending = c :: rest := ⟨{ sOn with pending := [.twinReturn, .heartbeatSend] }, _, _, rfl⟩

theorem meets_emptyQueueIdles : ∃ s : State, s.pending = [] := ⟨sOn, by decide +kernel⟩

theorem meets_stepKeepsMemoriesCanonical :
    ∃ s t : State, step s = .next t ∧ s.tidy = true ∧ s.pending = [.twinReturn] :=
  ⟨{ sOn with pending := [.twinReturn] }, _, rfl, by decide +kernel⟩

theorem meets_stepConsumesExactlyOneCommand : ∃ s : State, s.queueWf = true ∧ s.pending.length = 2 :=
  ⟨{ sOn with pending := [.twinReturn, .nop 127 0] }, by decide +kernel⟩

theorem meets_tickInEdgesAreQualified :
    ∃ (s : State) (l e : Nat), s.tidy = true ∧ s.usesTickIn = true ∧ s.tick.tin.last = some l ∧ e - l < 10000 := ⟨sTin, 1000000, 1009999, by decide +kernel⟩

end Sys2Proof.Tests
end

section
/-!
PROOFS. The bytes of an access: little-endian strings, byte enables, and the lists that hold latches and held halves.
-/

namespace Sys2Proof.Machine

/-! ## Bytes and words -/

@[simp] theorem length_leBytes (n x : Nat) : (leBytes n x).length = n := by
  induction n generalizing x with
  | zero => rfl
  | succ n ih => simp [leBytes, ih]

theorem leNat_leBytes (n x : Nat) : leNat (leBytes n x) = x % 256 ^ n := by
  induction n generalizing x with
  | zero => simp [leBytes, leNat, Nat.mod_one]
  | succ n ih =>
    rw [leBytes, leNat, ih, BitVec.toNat_ofNat, pow_succ' 256 n, Nat.mod_mul]

/-- Bit `i` of a string of bytes lies in its byte `i / 8`. -/
theorem testBit_leNat (bs : List Byte) (i : Nat) :
    (leNat bs).testBit i = ((bs[i / 8]?).map fun b => b.getLsbD (i % 8)).getD false := by
  induction bs generalizing i with
  | nil => simp [leNat]
  | cons b bs ih =>
    rw [leNat, Nat.add_comm, show 256 = 2 ^ 8 from rfl, Nat.testBit_two_pow_mul_add _ b.isLt]
    by_cases hi : i < 8
    · simp [hi, Nat.div_eq_of_lt hi, Nat.mod_eq_of_lt hi, BitVec.testBit_toNat]
    · obtain ⟨k, rfl⟩ := Nat.exists_eq_add_of_le' (Nat.le_of_not_lt hi)
      simp [ih]

theorem getElem?_leBytes {n j : Nat} (x : Nat) (hj : j < n) : (leBytes n x)[j]? = some (BitVec.ofNat 8 (x / 256 ^ j)) := by
  induction n generalizing x j with
  | zero => omega
  | succ n ih =>
    cases j with
    | zero => simp [leBytes]
    | succ j => rw [leBytes, List.getElem?_cons_succ, ih _ (Nat.lt_of_succ_lt_succ hj), Nat.div_div_eq_div_mul, ← Nat.pow_succ']

theorem bitOf_eq_testBit (m i : Nat) : bitOf m i = m.testBit i := by
  rw [bitOf, Nat.testBit_eq_decide_div_mod_eq, beq_eq_decide]

/-- Bit `i` of the word that RW fields take: the written byte's where one is written, else what the word holds (R12). -/
theorem testBit_keepBytes {bs : List (Option Byte)} (w : W32) {i : Nat} (hl : bs.length = 4) (hi : i < 32) :
    (keepBytes w.toNat bs).testBit i = ((bs[i / 8]?.join).map fun b => b.getLsbD (i % 8)).getD (w.getLsbD i) := by
  have hj : i / 8 < bs.length := by omega
  have hn : i / 8 < 4 := by omega
  have hb : i % 8 < 8 := by omega
  have hc : (w.toNat / 256 ^ (i / 8)).testBit (i % 8) = w.getLsbD i := by
    rw [show 256 = 2 ^ 8 from rfl, ← Nat.pow_mul, ← Nat.shiftRight_eq_div_pow, Nat.testBit_shiftRight, Nat.div_add_mod, BitVec.testBit_toNat]
  have hz : (bs.zip (leBytes 4 w.toNat))[i / 8]? = some (bs[i / 8], BitVec.ofNat 8 (w.toNat / 256 ^ (i / 8))) :=
    List.getElem?_zip_eq_some.mpr ⟨List.getElem?_eq_getElem hj, getElem?_leBytes _ hn⟩
  rw [keepBytes, testBit_leNat, List.getElem?_map, hz, List.getElem?_eq_getElem hj]
  cases bs[i / 8] with
  | none =>
    simp only [Option.map_some, Option.getD_none, Option.getD_some, Option.join_some, Option.map_none, BitVec.getLsbD_ofNat, hb, hc,
      decide_true, Bool.true_and]
  | some b => simp

/-- Bit `i` of the written bytes over zero, for the codes other than RW (R12). -/
theorem testBit_actBytes (bs : List (Option Byte)) (i : Nat) :
    (actBytes bs).testBit i = (((bs[i / 8]?.join).map fun b => b.getLsbD (i % 8)) == some true) := by
  rw [actBytes, testBit_leNat, List.getElem?_map]
  cases bs[i / 8]? with
  | none => rfl
  | some o => cases o with
    | none => simp
    | some b => simp

/-- Four bytes written at once are the word, whatever it held. -/
theorem keepBytes_leBytes (cur x : Nat) : keepBytes cur ((leBytes 4 x).map some) = x % 2 ^ 32 :=
  leNat_leBytes 4 x

theorem keepBytes_leBytes_toNat (cur : Nat) (v : W32) : keepBytes cur ((leBytes 4 v.toNat).map some) = v.toNat :=
  (keepBytes_leBytes _ _).trans (Nat.mod_eq_of_lt v.isLt)

theorem actBytes_leBytes (x : Nat) : actBytes ((leBytes 4 x).map some) = x % 2 ^ 32 :=
  leNat_leBytes 4 x

/-! ## Association lists -/

theorem aget_aput_same {α : Type} (l : List (Nat × α)) (k : Nat) (v : α) : aget (aput l k v) k = some v := by
  induction l with
  | nil => simp [aput, aget]
  | cons x l ih =>
    obtain ⟨a, y⟩ := x
    unfold aput
    split
    · rename_i hak
      have hne : (a == k) = false := beq_false_of_ne (Nat.ne_of_lt hak)
      simpa [aget, List.find?_cons, hne] using ih
    · split <;> simp [aget]

end Sys2Proof.Machine
end


section
/-!
PROOFS. Frames: which register words an operation may change, and that sending over the links changes nothing else.
-/

namespace Sys2Proof.Machine

/-! ## Which register words an operation may change -/

/-- From `s` to `t` the registers stay canonical, and only words at offsets of `P` change. -/
structure WordsOnly (P : Nat → Prop) (s t : State) : Prop where
  wf : nwf s.regs = true → nwf t.regs = true
  word : nwf s.regs = true → ∀ a, ¬P a → t.word a = s.word a

section
variable {P Q : Nat → Prop} {s t u : State}

theorem WordsOnly.of_regs_eq (h : t.regs = s.regs) : WordsOnly P s t where
  wf hw := h ▸ hw
  word _ a _ := congrArg (nget · a) h

theorem WordsOnly.refl (s : State) : WordsOnly P s s := .of_regs_eq rfl

theorem WordsOnly.trans (h : WordsOnly P s t) (g : WordsOnly P t u) : WordsOnly P s u where
  wf hw := g.wf (h.wf hw)
  word hw a ha := (g.word (h.wf hw) a ha).trans (h.word hw a ha)

theorem WordsOnly.mono (h : WordsOnly P s t) (hpq : ∀ a, P a → Q a) : WordsOnly Q s t where
  wf := h.wf
  word hw a ha := h.word hw a fun hp => ha (hpq a hp)

theorem WordsOnly.ite {c : Prop} [Decidable c] (ht : WordsOnly P s t) (hu : WordsOnly P s u) : WordsOnly P s (if c then t else u) := by
  split <;> assumption

theorem WordsOnly.foldl {α : Type} {f : State → α → State} {l : List α} (hf : ∀ s, ∀ x ∈ l, WordsOnly P s (f s x)) (s : State) :
    WordsOnly P s (l.foldl f s) := by
  induction l generalizing s with
  | nil => exact .refl s
  | cons x l ih => exact (hf s x List.mem_cons_self).trans (ih (fun s y hy => hf s y (List.mem_cons_of_mem x hy)) _)

theorem WordsOnly.fld_eq {a : Nat} (h : WordsOnly P s t) (hw : nwf s.regs = true) (ha : ¬P a) (lo n : Nat) : t.fld a lo n = s.fld a lo n := by
  rw [State.fld, State.fld, h.word hw a ha]

theorem WordsOnly.flag_eq {a : Nat} (h : WordsOnly P s t) (hw : nwf s.regs = true) (ha : ¬P a) (b : Nat) : t.flag a b = s.flag a b := by
  rw [State.flag, State.flag, h.fld_eq hw ha]

variable (s)

theorem State.setWord_words {off : Nat} (v : W32) (hp : P off) : WordsOnly P s (s.setWord off v) where
  wf hw := State.nwf_setWord _ _ hw
  word hw _ ha := State.word_setWord_other _ hw fun he => ha (he ▸ hp)

theorem State.setFld_words {off : Nat} (lo n v : Nat) (hp : P off) : WordsOnly P s (s.setFld off lo n v) := s.setWord_words _ hp

theorem State.setFlag_words {off : Nat} (b : Nat) (v : Bool) (hp : P off) : WordsOnly P s (s.setFlag off b v) := s.setWord_words _ hp

theorem State.bump_words {off : Nat} (n : Nat) (hp : P off) : WordsOnly P s (s.bump off n) := s.setWord_words _ hp

theorem State.addQuad_words {off : Nat} (n : Nat) (hp : P off) (hp4 : P (off + 4)) : WordsOnly P s (s.addQuad off n) :=
  (s.setWord_words _ hp).trans (State.setWord_words _ _ hp4)

theorem State.setBytes_words {off : Nat} (bs : List Byte) (hp : ∀ i < ceilDiv bs.length 4, P (off + 4 * i)) :
    WordsOnly P s (s.setBytes off bs) := by
  unfold State.setBytes
  split
  · exact .refl s
  · exact .foldl (fun s i hi => s.setWord_words _ (hp i (List.mem_range.mp hi))) s

/-! ## Events, interrupts and traces -/

theorem State.interrupt_words (fn : Fn) (v : Nat) : WordsOnly P s (s.interrupt fn v) :=
  .ite (.of_regs_eq (by cases fn <;> rfl)) (.of_regs_eq rfl)

theorem State.modEvent_words (b : Nat) (hp : P 0x30) : WordsOnly P s (s.modEvent b) :=
  .ite ((s.setFlag_words _ _ hp).trans (State.interrupt_words _ _ _)) (s.setFlag_words _ _ hp)

theorem State.tntEvent_words (t b : Nat) (hp : P (tnt t 0x30)) : WordsOnly P s (s.tntEvent t b) :=
  .ite ((s.setFlag_words _ _ hp).trans (State.interrupt_words _ _ _)) (s.setFlag_words _ _ hp)

theorem State.traceBuf_words (e : List Byte) (hp : ∀ a, 0xA00000 ≤ a → P a) : WordsOnly P s (s.traceBuf e) := by
  unfold State.traceBuf
  split
  · exact .refl s
  · extract_lets n s1 s2
    have h1 : WordsOnly P s s1 := .of_regs_eq rfl
    have h2 : WordsOnly P s s2 := h1.trans (s1.addQuad_words 1 (hp 0xA00010 (by decide)) (hp 0xA00014 (by decide)))
    exact .ite (s.bump_words _ (hp 0xA00018 (by decide))) (.ite (h2.trans (s2.setFlag_words _ _ (hp 0xA0000C (by decide)))) h2)

theorem State.putEvent_words (e : List Byte) (hp : ∀ a, 0xA00000 ≤ a → P a) : WordsOnly P s (s.putEvent e) := by
  unfold State.putEvent
  extract_lets s1 src s2
  have h1 : WordsOnly P s s1 := .ite (s.traceBuf_words e hp) (.refl s)
  have h2 : WordsOnly P s s2 := h1.trans (.of_regs_eq rfl)
  exact .ite (.ite (h2.trans (.of_regs_eq rfl)) h2) h1

/-- An event touches the words of Vitrine alone. -/
theorem State.event_words (kind : Nat) (ten tile : Option Nat) (n : Nat) (data : List Byte) (hide : Nat × Nat)
    (hp : ∀ a, 0xA00000 ≤ a → P a) : WordsOnly P s (s.event kind ten tile n data hide) := by
  unfold State.event
  refine .ite (.refl s) ?_
  generalize he : s.free = e
  obtain ⟨time, s1⟩ := e
  have h1 : WordsOnly P s s1 := .of_regs_eq (congrArg (fun e => e.2.regs) he).symm
  clear he
  dsimp -zeta -zetaHave only
  extract_lets +onlyGivenNames src s2
  have h2 : WordsOnly P s s2 := h1.trans (.ite (.refl _) (.of_regs_eq rfl))
  clear_value s2
  refine .ite (WordsOnly.trans ?_ (State.bump_words _ _ (hp 0xA00018 (by decide)))) ?_
  · exact h2.trans (.of_regs_eq rfl)
  extract_lets +onlyGivenNames masked data' lost src2 s3 s4
  have h3 : WordsOnly P s s3 := h2.trans (.of_regs_eq rfl)
  clear_value s3
  have h4 : WordsOnly P s s4 := h3.trans (.ite (State.putEvent_words _ _ hp) (.refl _))
  exact h4.trans (State.putEvent_words _ _ hp)

theorem State.faultTrace_words (ten : Option Nat) (code : Nat) (i : Info) (hp : ∀ a, 0xA00000 ≤ a → P a) :
    WordsOnly P s (s.faultTrace ten code i) := s.event_words _ _ _ _ _ _ hp

theorem State.flag_interrupt (fn : Fn) (v a b : Nat) : (s.interrupt fn v).flag a b = s.flag a b := by
  have h : (s.interrupt fn v).regs = s.regs := by
    unfold State.interrupt
    cases fn <;> dsimp only <;> split <;> rfl
  rw [State.flag, State.flag, State.fld, State.fld, State.word, State.word, h]

/-- A tenant event sets its bit and leaves the other bits of TNT_EVENT. -/
theorem State.flag_tntEvent (t b : Nat) {l : Nat} (hw : nwf s.regs = true) (hb : b < 32) :
    (s.tntEvent t b).flag (tnt t 0x30) l = (decide (l = b) || s.flag (tnt t 0x30) l) := by
  have hset : (s.setFlag (tnt t 0x30) b true).flag (tnt t 0x30) l = (decide (l = b) || s.flag (tnt t 0x30) l) := by
    by_cases hl : l = b
    · subst hl
      simp [State.flag_setFlag_same _ _ _ hw hb]
    · simp [State.flag_setFlag_bit _ hw hb hl, hl]
  unfold State.tntEvent
  dsimp only
  split
  · rw [State.flag_interrupt, hset]
  · exact hset

end

/-! ## Sending over the links -/

/-- From `s` to `t` nothing changes but the link state and what was sent. -/
def LinkOnly (s t : State) : Prop := t = { s with lnk := t.lnk, outbox := t.outbox }

section
variable {s t u : State}

theorem LinkOnly.refl (s : State) : LinkOnly s s := rfl

theorem LinkOnly.trans (h : LinkOnly s t) (g : LinkOnly t u) : LinkOnly s u := by
  unfold LinkOnly at *
  rw [g, h]

theorem LinkOnly.ite {c : Prop} [Decidable c] (ht : LinkOnly s t) (hu : LinkOnly s u) : LinkOnly s (if c then t else u) := by
  split <;> assumption

theorem LinkOnly.regs (h : LinkOnly s t) : t.regs = s.regs := by
  rw [LinkOnly] at h
  rw [h]

theorem LinkOnly.tiles (h : LinkOnly s t) : t.tiles = s.tiles := by
  rw [LinkOnly] at h
  rw [h]

variable (s)

theorem State.updPort_linkOnly (port : Nat) (f : Port → Port) : LinkOnly s (s.updPort port f) := rfl

theorem State.freeBuffer_linkOnly (port seq vc : Nat) : LinkOnly s (s.freeBuffer port seq vc) := .ite (.refl s) rfl

theorem State.sendOne_linkOnly (port : Nat) (pkt : Packet) (what : Queued ⊕ HeldPkt) : LinkOnly s (s.sendOne port pkt what) := by
  have hemit : LinkOnly s (s.emit port pkt) := rfl
  unfold State.sendOne
  cases what with
  | inl q =>
    refine hemit.trans ?_
    dsimp only
    split
    · exact LinkOnly.trans (State.updPort_linkOnly _ _ _) (State.freeBuffer_linkOnly _ _ _ _)
    · exact State.updPort_linkOnly _ _ _
  | inr h => exact hemit.trans rfl

theorem State.sendAll_linkOnly (port fuel : Nat) : LinkOnly s (s.sendAll port fuel) := by
  induction fuel generalizing s with
  | zero => exact .refl s
  | succ fuel ih =>
    unfold State.sendAll
    refine .ite (.refl s) ?_
    split
    · exact .refl s
    · split
      · exact .refl s
      · exact ((s.updPort_linkOnly _ _).trans (State.sendOne_linkOnly _ _ _ _)).trans (ih _)

theorem State.holdPacket_linkOnly (h : HeldPkt) : LinkOnly s (s.holdPacket h) := by
  unfold State.holdPacket
  exact LinkOnly.trans (by rfl) (State.sendAll_linkOnly _ _ _)

theorem State.sendPacket_linkOnly (p : Packet) (pair : Bool) (w : Waiter) (twin : Bool) (h : s.sendPacket p pair w twin = some t) : LinkOnly s t := by
  unfold State.sendPacket at h
  obtain ⟨q, -, rfl⟩ := Option.map_eq_some_iff.mp h
  exact .ite rfl (s.holdPacket_linkOnly _)

theorem State.sendTwin_linkOnly (vc : Nat) (c : Ctl) : LinkOnly s (s.sendTwin vc c) := by
  unfold State.sendTwin
  extract_lets p
  cases h : s.sendPacket p false .free c.onTwinPort with
  | none => exact .refl s
  | some t => exact s.sendPacket_linkOnly _ _ _ _ h

end

end Sys2Proof.Machine
end


section
/-!
PROOFS. Faults: an entry in a fault record, and the freeze that a fault of class VIOLATION or FREEZE brings.
-/

namespace Sys2Proof.Machine

/-! ## A fault that freezes its tenant (R484 to R488) -/

/-- The words that the fault record and the event register of tenant `t`, and those of the module, may change with. -/
def FaultWords (t a : Nat) : Prop := (tnt t 0x100 ≤ a ∧ a < tnt t 0x160) ∨ a = tnt t 0x30 ∨ a = 0x30 ∨ 0x700000 ≤ a

/-- The words that a freeze of tenant `t` may change: its state, its rings' states and the events. -/
def FreezeWords (t a : Nat) : Prop := a = tnt t 0 ∨ a = tnt t 0x30 ∨ a = 0x30 ∨ (rng t 0 0 ≤ a ∧ a < rng t 8 0)

theorem length_entryBytes (code tick : Nat) (i : Info) : (entryBytes code tick i).length = 32 := by
  simp [entryBytes]

section
variable {s : State} {t code : Nat}

theorem State.setEntry_words {P : Nat → Prop} (off tick : Nat) (i : Info) (hp : ∀ a, off ≤ a → a < off + 32 → P a) :
    WordsOnly P s (s.setBytes off (entryBytes code tick i)) := by
  refine s.setBytes_words _ fun k hk => hp _ (by omega) ?_
  rw [length_entryBytes, show ceilDiv 32 4 = 8 from rfl] at hk
  omega

/-- An entry in a tenant's fault record: it changes the record and TNT_EVENT, names the fault as the last one, and sets the event. -/
theorem State.tenantEntry_spec (i : Info) (hw : nwf s.regs = true) (ht : t < 16) (hc : code < 256) :
    WordsOnly (FaultWords t) s (s.tenantEntry t code i) ∧ (s.tenantEntry t code i).fld (tnt t 0x100) 8 8 = code ∧
      (s.tenantEntry t code i).flag (tnt t 0x30) 2 = true := by
  have hrec : ∀ {o}, 0x100 ≤ o → o < 0x160 → FaultWords t (tnt t o) := fun h1 h2 => .inl (by simp only [tnt]; omega)
  have hvit : ∀ a, 0xA00000 ≤ a → FaultWords t a := fun a h => .inr (.inr (.inr (by omega)))
  unfold State.tenantEntry
  extract_lets e empty s1 s2 s3 s4
  have h1 : WordsOnly (FaultWords t) s s1 :=
    .ite ((State.setEntry_words _ _ _ fun a h1 h2 => .inl (by simp only [tnt] at *; omega)).trans
      (State.setFld_words _ _ _ _ (hrec (by decide) (by decide)))) (s.bump_words _ (hrec (by decide) (by decide)))
  clear_value s1
  have hb : WordsOnly (FaultWords t) s1 (s1.setBytes (tnt t 0x140) e) :=
    State.setEntry_words _ _ _ fun a h1 h2 => .inl (by simp only [tnt] at *; omega)
  have h2 : WordsOnly (FaultWords t) s s2 := (h1.trans hb).trans (State.setFld_words _ _ _ _ (hrec (by decide) (by decide)))
  have f2 : s2.fld (tnt t 0x100) 8 8 = code := by
    rw [State.fld_setFld_same _ _ _ _ ((h1.trans hb).wf hw) (by decide)]
    omega
  clear_value s2
  have h3 : WordsOnly (FaultWords t) s s3 := h2.trans (State.setFld_words _ _ _ _ (hrec (by decide) (by decide)))
  have f3 : s3.fld (tnt t 0x100) 8 8 = code := (State.fld_setFld_below _ (h2.wf hw) (by decide) (by decide)).trans f2
  clear_value s3
  have h4 : WordsOnly (FaultWords t) s s4 := h3.trans (.ite (State.setFlag_words _ _ _ (hrec (by decide) (by decide))) (.refl _))
  have f4 : s4.fld (tnt t 0x100) 8 8 = code := by
    subst s4
    split
    · exact (State.fld_setFld_below _ (h3.wf hw) (by decide) (by decide)).trans f3
    · exact f3
  clear_value s4
  have hev : WordsOnly (· = tnt t 0x30) s4 (s4.tntEvent t 2) := s4.tntEvent_words t 2 rfl
  have htr : WordsOnly (0xA00000 ≤ ·) (s4.tntEvent t 2) ((s4.tntEvent t 2).faultTrace (some t) code i) :=
    State.faultTrace_words _ _ _ _ fun _ h => h
  have hw4 := h4.wf hw
  refine ⟨h4.trans ((hev.mono fun a h => .inr (.inl h)).trans (htr.mono hvit)), ?_, ?_⟩
  · rw [htr.fld_eq (hev.wf hw4) (by simp only [tnt]; omega), hev.fld_eq hw4 (by simp [tnt]), f4]
  · rw [htr.flag_eq (hev.wf hw4) (by simp only [tnt]; omega), State.flag_tntEvent _ _ _ hw4 (by decide)]
    rfl

theorem State.moduleEntry_words (i : Info) : WordsOnly (fun a => a = 0x30 ∨ 0x700000 ≤ a) s (s.moduleEntry code i) := by
  unfold State.moduleEntry
  extract_lets e empty s1
  have h1 : WordsOnly (fun a => a = 0x30 ∨ 0x700000 ≤ a) s s1 :=
    .ite (State.setEntry_words _ _ _ fun a h _ => .inr (by omega)) (s.bump_words _ (.inr (by decide)))
  clear_value s1
  refine h1.trans (WordsOnly.trans ?_ (State.faultTrace_words _ _ _ _ fun a h => .inr (by omega)))
  exact WordsOnly.trans (State.setEntry_words _ _ _ fun a h _ => .inr (by omega)) (State.modEvent_words _ _ (.inl rfl))

/-- A fault whose code enters the tenant's record, entered there and, where the code says so, in the module's. -/
theorem State.enter_spec (i : Info) (hw : nwf s.regs = true) (ht : t < 16) (hc : code < 256) (hten : (faultClass code).2.1 = true) :
    WordsOnly (FaultWords t) s (s.enter t code i) ∧ (s.enter t code i).fld (tnt t 0x100) 8 8 = code ∧
      (s.enter t code i).flag (tnt t 0x30) 2 = true := by
  obtain ⟨h1, hlast, hev⟩ := State.tenantEntry_spec i hw ht hc
  have he : s.enter t code i = if (faultClass code).2.2 then (s.tenantEntry t code i).moduleEntry code i else s.tenantEntry t code i := by
    simp [State.enter, hten]
  rw [he]
  split
  · have h2 := State.moduleEntry_words (s := s.tenantEntry t code i) (code := code) i
    have hw1 := h1.wf hw
    refine ⟨h1.trans (h2.mono fun a h => .inr (.inr h)), ?_, ?_⟩
    · rw [h2.fld_eq hw1 (by simp only [tnt]; omega), hlast]
    · rw [h2.flag_eq hw1 (by simp only [tnt]; omega), hev]
  · exact ⟨h1, hlast, hev⟩

/-- A freeze of an ACTIVE tenant: it reads FROZEN, its fault event stays as it was, and nothing changes in the tiles. -/
theorem State.freeze_active (peer : Bool) (hw : nwf s.regs = true) (ht : t < 16) (ha : s.tState t = tsActive) :
    WordsOnly (FreezeWords t) s (s.freeze t peer) ∧ (s.freeze t peer).tState t = tsFrozen ∧
      (s.freeze t peer).flag (tnt t 0x30) 2 = s.flag (tnt t 0x30) 2 ∧ (s.freeze t peer).tiles = s.tiles := by
  generalize hx : s.freeze t peer = x
  unfold State.freeze at hx
  extract_lets +onlyGivenNames s1 s2 s3 src s4 s5 at hx
  have hr1 : s1.regs = s.regs := rfl
  have ht1 : s1.tiles = s.tiles := rfl
  have ha1 : s1.active t = true := beq_iff_eq.mpr ha
  rw [ha1, if_neg (by decide)] at hx
  clear_value s1
  have w1 : nwf s1.regs = true := hr1 ▸ hw
  have h2 : WordsOnly (· = tnt t 0) s1 s2 := s1.setFld_words _ _ _ rfl
  have f2 : s2.tState t = tsFrozen := State.fld_setFld_same _ _ _ _ w1 (by decide)
  have h3 : WordsOnly (fun a => rng t 0 0 ≤ a ∧ a < rng t 8 0) s2 s3 := by
    refine .foldl (fun s r hr => .ite (s.setFld_words _ _ _ ?_) (.refl s)) _
    have := List.mem_range.mp hr
    simp only [rng]
    omega
  have ht3 : s3.tiles = s.tiles := by
    refine (List.foldlRecOn (motive := fun x : State => x.tiles = s2.tiles) _ _ rfl fun x hx r _ => ?_).trans ht1
    split
    · exact hx
    · exact hx
  clear_value s2 s3
  have h4 : WordsOnly (fun a => rng t 0 0 ≤ a ∧ a < rng t 8 0) s2 s4 := h3.trans (.of_regs_eq rfl)
  have ht4 : s4.tiles = s.tiles := ht3
  clear_value s4
  have w2 := h2.wf w1
  have w4 := h4.wf w2
  have he : WordsOnly (· = tnt t 0x30) s4 (s4.tntEvent t 0) := s4.tntEvent_words t 0 rfl
  have h5 : WordsOnly (· = 0x30) (s4.tntEvent t 0) s5 := State.modEvent_words _ _ rfl
  have ht5 : s5.tiles = s.tiles := ((State.modEvent_tiles _ _).trans (State.tntEvent_tiles _ _ _)).trans ht4
  have hl : LinkOnly s5 x := hx ▸ .ite (s5.sendTwin_linkOnly _ _) (.refl s5)
  have h6 : WordsOnly (· = 0x30) (s4.tntEvent t 0) x := h5.trans (.of_regs_eq hl.regs)
  have w5 := he.wf w4
  refine ⟨?_, ?_, ?_, hl.tiles.trans ht5⟩
  · have h12 : WordsOnly (FreezeWords t) s s2 := (WordsOnly.of_regs_eq hr1).trans (h2.mono fun a h => .inl h)
    have h24 : WordsOnly (FreezeWords t) s2 s4 := h4.mono fun a h => .inr (.inr (.inr h))
    exact (h12.trans h24).trans ((he.mono fun a h => .inr (.inl h)).trans (h6.mono fun a h => .inr (.inr (.inl h))))
  · rw [State.tState, h6.fld_eq w5 (by simp only [tnt]; omega), he.fld_eq w4 (by simp [tnt]), h4.fld_eq w2 (by simp only [tnt, rng]; omega)]
    exact f2
  · rw [h6.flag_eq w5 (by simp only [tnt]; omega), State.flag_tntEvent _ _ _ w4 (by decide), h4.flag_eq w2 (by simp only [tnt, rng]; omega),
      h2.flag_eq w1 (by simp [tnt]), State.flag, State.fld, State.word, hr1]
    rfl

/-- A fault of class VIOLATION or FREEZE whose code enters the record of an ACTIVE tenant: the tenant reads FROZEN, its record names
the fault as the last one, its event is set, and nothing changes in the tiles. -/
theorem State.raise_freezes (i : Info) (hw : nwf s.regs = true) (ht : t < 16) (ha : s.tState t = tsActive) (hc : code < 256)
    (hten : (faultClass code).2.1 = true) (hcls : (faultClass code).1 = .violation ∨ (faultClass code).1 = .freeze) :
    (s.raise t code i).tState t = tsFrozen ∧ (s.raise t code i).fld (tnt t 0x100) 8 8 = code ∧
      (s.raise t code i).flag (tnt t 0x30) 2 = true ∧ (s.raise t code i).tiles = s.tiles := by
  have hr : s.raise t code i = (s.enter t code i).freeze t (code != 0xF2) := by
    unfold State.raise
    rcases hcls with h | h <;> rw [h]
  obtain ⟨he, hlast, hev⟩ := State.enter_spec i hw ht hc hten
  have ha' : (s.enter t code i).tState t = tsActive := by
    rw [State.tState, he.fld_eq hw (by simp only [FaultWords, tnt]; omega)]
    exact ha
  obtain ⟨hf, hst, hev', htl⟩ := State.freeze_active (code != 0xF2) (he.wf hw) ht ha'
  rw [hr]
  refine ⟨hst, ?_, hev'.trans hev, htl.trans (State.enter_tiles _ _ _ _)⟩
  rw [hf.fld_eq (he.wf hw) (by simp only [FreezeWords, tnt, rng]; omega), hlast]

end

end Sys2Proof.Machine
end


section
/-!
PROOFS. Accesses: a read or a write within one aligned doubleword is one access to it, and an aligned word is read or written by itself.
-/

namespace Sys2Proof.Machine

/-! ## What an access is -/

theorem exec_registerRead (fn : Fn) (off len : Nat) (s : State) : exec (.registerRead fn off len) s = execRegisterRead fn off len s := rfl

theorem exec_registerWrite (fn : Fn) (off : Nat) (data : List (Option Byte)) (s : State) :
    exec (.registerWrite fn off data) s = execRegisterWrite fn off data s := rfl

/-- The home offset at `base`, where there is one, is of no register of 64 bits: the two words there are accessed one by one. -/
def Narrow (fn : Fn) (base : Nat) : Prop := ∀ h, homeOf fn base = some h → isWide h = false

section
variable {s : State} {fn : Fn} {base h : Nat}

/-! ## Accesses within one aligned doubleword (R556, R557) -/

theorem State.writeAt_dead (fuel off : Nat) (data : List (Option Byte)) (hb : s.barLive fn = false) : s.writeAt fn fuel off data = s := by
  induction fuel generalizing off data with
  | zero => rfl
  | succ fuel ih => simp [State.writeAt, hb, ih]

/-- A write within the doubleword at `base` is one access to it. -/
theorem State.writeAt_unit (fuel : Nat) {k : Nat} {data : List (Option Byte)} (hb : base % 8 = 0) (hd : data ≠ [])
    (hk : k + data.length ≤ 8) (hl : s.barLive fn = true) :
    s.writeAt fn (fuel + 2) (base + k) data =
      s.writePair fn base (((List.replicate k none ++ data) ++ List.replicate 8 none).take 8) := by
  have hpos : 0 < data.length := List.length_pos_iff.mpr hd
  have hbase : (base + k) / 8 * 8 = base := by omega
  have hn : min data.length (base + 8 - (base + k)) = data.length := by omega
  simp [State.writeAt, hd, hbase, hn, hl]

/-- A read within the doubleword at `base` is one access to it. -/
theorem State.readAt_unit (time fuel : Nat) {k len : Nat} (hb : base % 8 = 0) (hlen : len ≠ 0) (hk : k + len ≤ 8) :
    s.readAt fn time (fuel + 2) (base + k) len =
      (((leBytes 4 (s.readPair fn base time (decide (k < 4)) (decide (4 < k + len))).1.1 ++
          leBytes 4 (s.readPair fn base time (decide (k < 4)) (decide (4 < k + len))).1.2).drop k).take len,
        (s.readPair fn base time (decide (k < 4)) (decide (4 < k + len))).2) := by
  have hbase : (base + k) / 8 * 8 = base := by omega
  have hn : min len (base + 8 - (base + k)) = len := by omega
  simp [State.readAt, hlen, hbase, hn, Nat.add_assoc]

@[simp] theorem State.writeWord_untouched (off : Nat) : s.writeWord fn off [none, none, none, none] = s := rfl

theorem State.writePair_narrow (bs : List (Option Byte)) (hn : Narrow fn base) :
    s.writePair fn base bs = (s.writeWord fn base (bs.take 4)).writeWord fn (base + 4) (bs.drop 4) := by
  unfold State.writePair
  cases hh : homeOf fn base with
  | none => rfl
  | some h => simp [hn h hh]

theorem State.readPair_narrow (time : Nat) (lo hi : Bool) (hn : Narrow fn base) :
    s.readPair fn base time lo hi = ((s.wordNow fn base time, s.wordNow fn (base + 4) time), s) := by
  unfold State.readPair
  cases hh : homeOf fn base with
  | none => rfl
  | some h => simp [hn h hh]

/-! ## Accesses of one aligned word -/

theorem exec_registerWrite_dead (off : Nat) (data : List (Option Byte)) (hb : s.barLive fn = false) :
    exec (.registerWrite fn off data) s = .next s := by
  rw [exec_registerWrite, execRegisterWrite, State.writeAt_dead _ _ _ hb]

theorem exec_registerWrite_low {bs : List (Option Byte)} (hb : base % 8 = 0) (hl : bs.length = 4) (hlive : s.barLive fn = true) :
    exec (.registerWrite fn base bs) s = .next (s.writePair fn base (bs ++ List.replicate 4 none)) := by
  have hne : bs ≠ [] := List.ne_nil_of_length_eq_add_one hl
  have hu := State.writeAt_unit 0 (k := 0) hb hne (by omega) hlive
  rw [exec_registerWrite, execRegisterWrite, hl]
  simpa [hl, List.take_append, List.take_of_length_le (show bs.length ≤ 8 by omega)] using hu

theorem exec_registerWrite_high {bs : List (Option Byte)} (hb : base % 8 = 0) (hl : bs.length = 4) (hlive : s.barLive fn = true) :
    exec (.registerWrite fn (base + 4) bs) s = .next (s.writePair fn base (List.replicate 4 none ++ bs)) := by
  have hne : bs ≠ [] := List.ne_nil_of_length_eq_add_one hl
  have hu := State.writeAt_unit 0 (k := 4) hb hne (by omega) hlive
  rw [exec_registerWrite, execRegisterWrite, hl]
  simpa [hl, List.take_append] using hu

/-- An aligned write of four bytes that meets no register of 64 bits is a write of the word there. -/
theorem exec_registerWrite_narrow {off : Nat} {bs : List (Option Byte)} (hoff : off % 4 = 0) (hl : bs.length = 4)
    (hlive : s.barLive fn = true) (hn : Narrow fn (off / 8 * 8)) :
    exec (.registerWrite fn off bs) s = .next (s.writeWord fn off bs) := by
  obtain h0 | h4 : off % 8 = 0 ∨ off % 8 = 4 := by omega
  · have hbase : off / 8 * 8 = off := by omega
    rw [hbase] at hn
    rw [exec_registerWrite_low h0 hl hlive, State.writePair_narrow _ hn]
    simp [hl]
  · obtain ⟨base, rfl⟩ : ∃ base, off = base + 4 := ⟨off - 4, by omega⟩
    have hbase : (base + 4) / 8 * 8 = base := by omega
    rw [hbase] at hn
    rw [exec_registerWrite_high (by omega) hl hlive, State.writePair_narrow _ hn]
    simp

theorem exec_registerRead_dead (off len : Nat) (hb : s.barLive fn = false) :
    exec (.registerRead fn off len) s = .next (s.send (.noAnswer fn)) := by
  simp [exec_registerRead, execRegisterRead, hb]

theorem exec_registerRead_low (hb : base % 8 = 0) (hlive : s.barLive fn = true) :
    exec (.registerRead fn base 4) s =
      .next ((s.free.2.readPair fn base s.free.1 true false).2.send
        (.answer fn (leBytes 4 (s.free.2.readPair fn base s.free.1 true false).1.1))) := by
  have hu := State.readAt_unit (s := s.free.2) (fn := fn) s.free.1 0 (k := 0) (len := 4) hb (by omega) (by omega)
  simp only [Nat.add_zero, Nat.zero_add] at hu
  simp [exec_registerRead, execRegisterRead, hlive, hu]

theorem exec_registerRead_high (hb : base % 8 = 0) (hlive : s.barLive fn = true) :
    exec (.registerRead fn (base + 4) 4) s =
      .next ((s.free.2.readPair fn base s.free.1 false true).2.send
        (.answer fn (leBytes 4 (s.free.2.readPair fn base s.free.1 false true).1.2))) := by
  have hu := State.readAt_unit (s := s.free.2) (fn := fn) s.free.1 0 (k := 4) (len := 4) hb (by omega) (by omega)
  simp [exec_registerRead, execRegisterRead, hlive, hu, List.take_of_length_le]

/-- An aligned read of four bytes that meets no register of 64 bits answers the word there and draws a free time. -/
theorem exec_registerRead_narrow {off : Nat} (hoff : off % 4 = 0) (hlive : s.barLive fn = true) (hn : Narrow fn (off / 8 * 8)) :
    exec (.registerRead fn off 4) s = .next (s.free.2.send (.answer fn (leBytes 4 (s.free.2.wordNow fn off s.free.1)))) := by
  obtain h0 | h4 : off % 8 = 0 ∨ off % 8 = 4 := by omega
  · have hbase : off / 8 * 8 = off := by omega
    rw [hbase] at hn
    rw [exec_registerRead_low h0 hlive, State.readPair_narrow _ _ _ hn]
  · obtain ⟨base, rfl⟩ : ∃ base, off = base + 4 := ⟨off - 4, by omega⟩
    have hbase : (base + 4) / 8 * 8 = base := by omega
    rw [hbase] at hn
    rw [exec_registerRead_high (by omega) hlive, State.readPair_narrow _ _ _ hn]

/-! ## Reads of one half of a register of 64 bits (R557) -/

/-- A read of the low half latches the high half. -/
theorem exec_registerRead_wide_low (hb : base % 8 = 0) (hlive : s.barLive fn = true) (hh : homeOf fn base = some h) (hw : isWide h = true) :
    exec (.registerRead fn base 4) s =
      .next ((s.free.2.updFn fn fun f => { f with latch := aput f.latch h (BitVec.ofNat 32 (s.free.2.wordNow fn (base + 4) s.free.1)) }).send
        (.answer fn (leBytes 4 (s.free.2.wordNow fn base s.free.1)))) := by
  rw [exec_registerRead_low hb hlive]
  simp [State.readPair, hh, hw]

/-- A read of the high half answers what was latched, and frees the latch. -/
theorem exec_registerRead_wide_high {v : W32} (hb : base % 8 = 0) (hlive : s.barLive fn = true) (hh : homeOf fn base = some h)
    (hw : isWide h = true) (hv : aget (s.free.2.fnState fn).latch h = some v) :
    exec (.registerRead fn (base + 4) 4) s =
      .next ((s.free.2.updFn fn fun f => { f with latch := adel f.latch h }).send (.answer fn (leBytes 4 v.toNat))) := by
  rw [exec_registerRead_high hb hlive]
  simp [State.readPair, hh, hw, hv]

end

/-! ## What the PF reads below the tenant windows (R47, R556) -/

section
variable {s : State} {off : Nat}

theorem homeOf_pf_low (ho : off < 0x100000) : homeOf .pf off = (regLookup off).map fun _ => off := by
  have hm : pfMsix off = none := if_neg (by omega)
  have hh : pfHome off = off := if_neg (by omega)
  simp [homeOf, hm, hh]
  omega

theorem narrow_pf_low (ho : off < 0x100000) (hw : isWide off = false) : Narrow .pf off := by
  intro h hh
  rw [homeOf_pf_low ho, Option.map_eq_some_iff] at hh
  obtain ⟨_, _, rfl⟩ := hh
  exact hw

/-- A word that copies or counts nothing else holds its register. -/
theorem State.valueAt_low (fn : Fn) (time : Nat) (ho : off < 0x110000) (hid : ¬(0x180 ≤ off ∧ off < 0x1E0)) :
    s.valueAt fn off time = (s.word off).toNat := by
  unfold State.valueAt
  simp only [if_neg hid]
  repeat rw [if_neg (by omega)]

theorem State.wordNow_pf_low (time : Nat) (ho : off < 0x100000) :
    s.wordNow .pf off time = if (regLookup off).isSome && (s.serves || early off) then s.valueAt .pf off time &&& readMask off true else 0 := by
  have hm : pfMsix off = none := if_neg (by omega)
  unfold State.wordNow
  rw [homeOf_pf_low ho, hm]
  cases regLookup off with
  | none => simp; omega
  | some r => simp [State.readable]

/-- What a VF of a tenant that is off reads. -/
theorem State.wordNow_vf_off {n h : Nat} (time : Nat) (hp : vfPlace n off = .home h) (ht : s.offNow n = true) (hd : h ≠ tnt n 0xC) :
    s.wordNow (.vf n) off time = 0 := by
  simp [State.wordNow, homeOf, hp, State.readable, ht, hd]

end

end Sys2Proof.Machine
end


section
/-!
PROOFS. Codes: what a write by the codes of a register's fields leaves in each bit, and what the PF's writes are.
-/

namespace Sys2Proof.Machine

/-! ## The codes of a register's fields (R9) -/

/-- The bits of one half of a row's unit whose code in the view satisfies `p`. -/
def RegRow.codeMask (r : RegRow) (half : Nat) (pf : Bool) (p : Code → Bool) : Nat :=
  r.fields.foldl (fun m f => if p (f.code pf) then m ||| f.mask half else m) 0

theorem codeMask_of_regLookup {off k : Nat} {r : RegRow} (pf : Bool) (p : Code → Bool) (h : regLookup off = some (r, k)) :
    codeMask off pf p = r.codeMask (k / 4) pf p := by
  simp [codeMask, h, RegRow.codeMask]

theorem unit_of_mem_regRows : ∀ r ∈ regRows, 0 < r.unit ∧ r.unit ≤ 8 := by decide +kernel

/-- In every listed register no bit is both RW and W1C. -/
theorem RegRow.rw_w1c_disjoint :
    ∀ r ∈ regRows, ∀ half < 2, ∀ pf : Bool, r.codeMask half pf (· == .rw) &&& r.codeMask half pf (· == .w1c) = 0 := by decide +kernel

theorem RegRow.find_lt_unit {r : RegRow} {off k : Nat} (hu : 0 < r.unit) (h : r.find off = some k) : k < r.unit := by
  unfold RegRow.find at h
  split at h
  · cases h
  · dsimp only at h
    split at h
    · split at h
      · cases h
        exact Nat.mod_lt _ hu
      · cases h
    · split at h
      · cases h
        exact Nat.mod_lt _ hu
      · cases h

theorem regLookup_mem {off k : Nat} {r : RegRow} (h : regLookup off = some (r, k)) : r ∈ regRows ∧ k < 8 := by
  obtain ⟨r', hmem, hfind⟩ := List.exists_of_findSome?_eq_some h
  obtain ⟨k', hk, he⟩ := Option.map_eq_some_iff.mp hfind
  cases he
  have hu := unit_of_mem_regRows r hmem
  exact ⟨hmem, Nat.lt_of_lt_of_le (RegRow.find_lt_unit hu.1 hk) hu.2⟩

theorem codeMask_rw_w1c_disjoint (off : Nat) (pf : Bool) (i : Nat) (h : bitOf (codeMask off pf (· == .rw)) i = true) :
    bitOf (codeMask off pf (· == .w1c)) i = false := by
  have hand : codeMask off pf (· == .rw) &&& codeMask off pf (· == .w1c) = 0 := by
    cases hl : regLookup off with
    | none => simp [codeMask, hl]
    | some x =>
      obtain ⟨hmem, hk⟩ := regLookup_mem hl
      rw [codeMask_of_regLookup _ _ hl, codeMask_of_regLookup _ _ hl]
      exact RegRow.rw_w1c_disjoint _ hmem _ (by omega) _
  rw [bitOf_eq_testBit] at h ⊢
  simpa [h] using congrArg (·.testBit i) hand

section
variable {s : State} {off : Nat}

theorem State.flag_eq_getLsbD (b : Nat) : s.flag off b = (s.word off).getLsbD b := by
  rw [State.flag, State.fld, Nat.pow_one, ← BitVec.testBit_toNat, Nat.testBit_eq_decide_div_mod_eq, beq_eq_decide]

/-! ## Words written by their codes -/

/-- What a bit of a word holds after a write by the codes: RW bits are replaced, W1C bits cleared, all others stay. -/
theorem State.getLsbD_writeCodes (pf : Bool) (keep act : Nat) {i : Nat} (hw : nwf s.regs = true) (hi : i < 32) :
    ((s.writeCodes pf off keep act).word off).getLsbD i =
      if bitOf (codeMask off pf (· == .rw)) i then keep.testBit i
      else if bitOf (codeMask off pf (· == .w1c)) i && act.testBit i then false else (s.word off).getLsbD i := by
  have hd := codeMask_rw_w1c_disjoint off pf i
  unfold State.writeCodes
  rw [State.word_setWord_same _ _ hw]
  rw [bitOf_eq_testBit, bitOf_eq_testBit] at hd ⊢
  simp only [BitVec.getLsbD_and, BitVec.getLsbD_or, BitVec.getLsbD_not, BitVec.getLsbD_ofNat, BitVec.ofNat_toNat, BitVec.setWidth_eq, hi,
    decide_true, Bool.true_and]
  cases hr : (codeMask off pf (· == .rw)).testBit i with
  | true => simp [hd hr]
  | false => cases (codeMask off pf (· == .w1c)).testBit i <;> cases act.testBit i <;> simp

theorem State.word_writeCodes_other {a : Nat} (pf : Bool) (keep act : Nat) (hw : nwf s.regs = true) (ha : a ≠ off) :
    (s.writeCodes pf off keep act).word a = s.word a := State.word_setWord_other _ hw ha

theorem State.nwf_writeCodes (pf : Bool) (keep act : Nat) (hw : nwf s.regs = true) : nwf (s.writeCodes pf off keep act).regs = true :=
  State.nwf_setWord _ _ hw

/-- A word all of whose bits are RW takes what is written. -/
theorem State.word_writeCodes_whole (pf : Bool) (keep act : Nat) (hw : nwf s.regs = true) (hm : codeMask off pf (· == .rw) = 2 ^ 32 - 1) :
    (s.writeCodes pf off keep act).word off = BitVec.ofNat 32 keep := by
  apply BitVec.eq_of_getLsbD_eq
  intro i hi
  rw [State.getLsbD_writeCodes _ _ _ hw hi, hm, bitOf_eq_testBit, Nat.testBit_two_pow_sub_one, BitVec.getLsbD_ofNat]
  simp [hi]

/-! ## What the PF writes -/

theorem State.writeWord_pf {h : Nat} {bs : List (Option Byte)} (hm : pfMsix off = none) (hh : homeOf .pf off = some h)
    (hs : (s.serves || early h) = true) (hb : bs.any Option.isSome = true) : s.writeWord .pf off bs = s.writeHome .pf h bs := by
  simp only [State.writeWord, State.writePf, hb, hm, hh, hs, Bool.not_true, Bool.false_eq_true, if_false, if_true]

/-- The words below the tenant windows that have no effect of their own are written by their codes. -/
theorem State.writeHome_pf_codes (bs : List (Option Byte)) (h1 : off < 0x110000) (h2 : off ≠ 0x34) (h3 : off ≠ 0x40) (h4 : off ≠ 0x100)
    (h5 : off ≠ 0x10200) (h6 : off ≠ 0x10F000) :
    s.writeHome .pf off bs = s.writeCodes true off (keepBytes (s.word off).toNat bs) (actBytes bs) := by
  unfold State.writeHome
  rw [if_neg (by omega), if_neg (by omega), if_neg (by omega), if_neg (by decide)]
  repeat rw [if_neg (by omega)]

theorem State.writePair_pf_wide {h : Nat} (bs : List (Option Byte)) (hs : s.serves = true) (hh : homeOf .pf off = some h)
    (hw : isWide h = true) : s.writePair .pf off bs = s.writeWide .pf h (bs.take 4) (bs.drop 4) := by
  simp [State.writePair, hh, hw, State.wideOpen, hs]

theorem keepBytes_untouched (w : W32) : keepBytes w.toNat [none, none, none, none] = w.toNat :=
  (leNat_leBytes 4 w.toNat).trans (Nat.mod_eq_of_lt w.isLt)

/-- The PF's write of the low half of an RW register of 64 bits is held (R557). -/
theorem exec_registerWrite_pf_wide_low {h : Nat} {bs : List (Option Byte)} (ho : off % 8 = 0) (hl : bs.length = 4)
    (hlive : s.barLive .pf = true) (hs : s.serves = true) (hh : homeOf .pf off = some h) (hw : isWide h = true)
    (hb : bs.any Option.isSome = true) (hr : rwAny h true = true) :
    exec (.registerWrite .pf off bs) s =
      .next { s with
        pf := { s.pf with held := aput s.pf.held h (BitVec.ofNat 32 (keepBytes ((aget s.pf.held h).getD (s.word h)).toNat bs)) } } := by
  rw [exec_registerWrite_low ho hl hlive, State.writePair_pf_wide _ hs hh hw]
  simp [hl, State.writeWide, hb, hr, State.updFn, State.fnState]

/-- The PF's write of the high half of a register of 64 bits takes the low half that is held with it (R557). -/
theorem exec_registerWrite_pf_wide_high {h : Nat} {lo : W32} {bs : List (Option Byte)} (ho : off % 8 = 0) (hl : bs.length = 4)
    (hlive : s.barLive .pf = true) (hs : s.serves = true) (hh : homeOf .pf off = some h) (hw : isWide h = true)
    (hb : bs.any Option.isSome = true) (hv : aget s.pf.held h = some lo) :
    exec (.registerWrite .pf (off + 4) bs) s =
      .next ((({ s with pf := { s.pf with held := adel s.pf.held h } } : State).writeHome .pf h ((leBytes 4 lo.toNat).map some)).writeHome
        .pf (h + 4) bs) := by
  rw [exec_registerWrite_high ho hl hlive, State.writePair_pf_wide _ hs hh hw]
  have hlo : aget (s.fnState .pf).held h = some lo := hv
  simp [State.writeWide, hb, hlo, keepBytes_untouched, State.updFn]

/-- An enable written 1 while its event is set raises the vector, which is sent when it is not masked (R555). -/
theorem State.enWrite_hit {pf : Bool} {keep act vec b : Nat} {fn : Fn} (hb : b < 32) (ha : act.testBit b = true)
    (hr : bitOf (codeMask off pf (· == .rw)) b = true) (he : ((s.writeCodes pf off keep act).word (off - 4)).getLsbD b = true)
    (hm : (s.fnState fn).masked vec = false) :
    s.enWrite pf off keep act fn vec = (s.writeCodes pf off keep act).send (.intr fn vec) := by
  have hfn : (s.writeCodes pf off keep act).fnState fn = s.fnState fn := by cases fn <;> rfl
  have hbit : (BitVec.ofNat 32 act &&& BitVec.ofNat 32 (codeMask off pf (· == .rw)) &&&
      (s.writeCodes pf off keep act).word (off - 4)).getLsbD b = true := by
    rw [bitOf_eq_testBit] at hr
    simp only [BitVec.getLsbD_and, BitVec.getLsbD_ofNat, hb, ha, hr, he, decide_true, Bool.and_true]
  have hne : (BitVec.ofNat 32 act &&& BitVec.ofNat 32 (codeMask off pf (· == .rw)) &&&
      (s.writeCodes pf off keep act).word (off - 4)).toNat ≠ 0 := by
    intro h0
    rw [BitVec.eq_of_toNat_eq (y := 0#32) h0] at hbit
    simp at hbit
  unfold State.enWrite
  dsimp only
  rw [if_pos hne, State.interrupt, hfn, hm]
  rfl

end

end Sys2Proof.Machine
end


section
/-!
PROOFS. The ring blocks: every ring has the same registers, in the PF's view and in its VF's.
-/

namespace Sys2Proof.Machine

/-! ## The ring blocks are alike (R410) -/

/-- The end of the bytes that a row's blocks take. -/
def RegRow.top (r : RegRow) : Nat := r.base + if r.n1 = 1 then r.bytes else r.n1 * r.s1

/-- A row of the ring blocks: one register in each of the 128 blocks of 256 bytes. -/
def RegRow.ofRing (r : RegRow) : Prop :=
  r.n1 = 128 ∧ r.s1 = 0x100 ∧ r.n2 = 1 ∧ r.s2 = 0x100 ∧ 0x200000 ≤ r.base ∧ r.base + r.bytes ≤ 0x200100

theorem RegRow.find_above {r : RegRow} {off : Nat} (hs : 0 < r.s1) (h : r.top ≤ off) : r.find off = none := by
  unfold RegRow.top at h
  unfold RegRow.find
  split
  · rfl
  · dsimp only
    split at h
    · rename_i h1
      rw [if_pos h1, if_neg (by omega)]
    · rename_i h1
      have hd : r.n1 ≤ (off - r.base) / r.s1 := (Nat.le_div_iff_mul_le hs).mpr (by omega)
      rw [if_neg h1, if_neg fun hc => Nat.not_lt.mpr hd hc.1]

theorem RegRow.find_ofRing {row : RegRow} {k o : Nat} (h : row.ofRing) (hk : k < 128) (ho : o < 0x100) :
    row.find (0x200000 + 0x100 * k + o) =
      if row.base ≤ 0x200000 + o ∧ 0x200000 + o < row.base + row.bytes then some ((0x200000 + o - row.base) % row.unit) else none := by
  obtain ⟨h1, h2, h3, h4, h5, h6⟩ := h
  unfold RegRow.find
  simp only [h1, h2, h3, h4]
  by_cases hlow : 0x200000 + 0x100 * k + o < row.base
  · rw [if_pos hlow, if_neg (by omega)]
  · rw [if_neg hlow, if_neg (by omega)]
    by_cases hin : row.base ≤ 0x200000 + o ∧ 0x200000 + o < row.base + row.bytes
    · have hd : (0x200000 + 0x100 * k + o - row.base) % 0x100 % 0x100 = 0x200000 + o - row.base := by omega
      rw [if_pos hin, hd, if_pos (by omega)]
    · rw [if_neg hin, if_neg (by omega)]

theorem RegRow.find_ring {row : RegRow} {n r o : Nat} (h : row.ofRing) (hn : n < 16) (hr : r < 8) (ho : o < 0x100) :
    row.find (rng n r o) = row.find (rng 0 0 o) :=
  (RegRow.find_ofRing h (by omega) ho).trans (RegRow.find_ofRing (k := 8 * 0 + 0) h (by decide) ho).symm

/-- Every row lies below the ring blocks, above them, or in each of them. -/
theorem regRows_place : ∀ r ∈ regRows, (0 < r.s1 ∧ r.top ≤ 0x200000) ∨ 0x208000 ≤ r.base ∨ r.ofRing := by
  unfold RegRow.ofRing
  decide +kernel

/-- Every ring has the same registers at the same places of its block. -/
theorem regLookup_ring {n r o : Nat} (hn : n < 16) (hr : r < 8) (ho : o < 0x100) : regLookup (rng n r o) = regLookup (rng 0 0 o) := by
  have hlo : 0x200000 ≤ rng 0 0 o ∧ 0x200000 ≤ rng n r o ∧ rng 0 0 o < 0x208000 ∧ rng n r o < 0x208000 := by
    simp only [rng]
    omega
  have hfind : ∀ row ∈ regRows, row.find (rng n r o) = row.find (rng 0 0 o) := by
    intro row hrow
    obtain ⟨hs, hb⟩ | ha | hring := regRows_place row hrow
    · rw [RegRow.find_above hs (by omega), RegRow.find_above hs (by omega)]
    · rw [RegRow.find, RegRow.find, if_pos (by omega), if_pos (by omega)]
    · exact RegRow.find_ring hring hn hr ho
  unfold regLookup
  generalize regRows = l at hfind
  induction l with
  | nil => rfl
  | cons row l ih =>
    rw [List.findSome?_cons, List.findSome?_cons, hfind row List.mem_cons_self, ih fun x hx => hfind x (List.mem_cons_of_mem row hx)]

theorem isWide_ring {n r o : Nat} (hn : n < 16) (hr : r < 8) (ho : o < 0x100) : isWide (rng n r o) = isWide (rng 0 0 o) := by
  simp only [isWide, regLookup_ring hn hr ho]

theorem codeMask_ring {n r o : Nat} (pf : Bool) (p : Code → Bool) (hn : n < 16) (hr : r < 8) (ho : o < 0x100) :
    codeMask (rng n r o) pf p = codeMask (rng 0 0 o) pf p := by
  simp only [codeMask, regLookup_ring hn hr ho]

/-- The offsets of a VF's ring blocks. -/
theorem vfPlace_rings {n k : Nat} (hk : k < 0x800) : vfPlace n (0x10000 + k) = vfListed (0x200000 + 0x800 * n + k) := by
  have hpage : (0x10000 + k) / 0x1000 = 0x10 := by omega
  have ho : (0x10000 + k) % 0x1000 = k := by omega
  simp [vfPlace, hpage, ho, hk]

theorem vfListed_cases (h : Nat) : vfListed h = .reserved ∨ vfListed h = .hidden ∨ vfListed h = .home h := by
  unfold vfListed
  split
  · exact .inl rfl
  · split
    · exact .inr (.inr rfl)
    · exact .inr (.inl rfl)

/-- Where a VF finds a listed register of its ring blocks. -/
theorem vfPlace_ring {n r o : Nat} (hn : n < 16) (hr : r < 8) (ho : o < 0x100) (hv : vfVisible (rng 0 0 o) = true) :
    vfPlace n (0x10000 + 0x100 * r + o) = .home (rng n r o) := by
  have hh : 0x200000 + 0x800 * n + (0x100 * r + o) = rng n r o := by
    simp only [rng]
    omega
  have hvis : vfVisible (rng n r o) = true := by
    simpa only [vfVisible, regLookup_ring hn hr ho] using hv
  have hlisted : regLookup (rng n r o) ≠ none := fun h => by simp [vfVisible, h] at hvis
  rw [Nat.add_assoc, vfPlace_rings (by omega), hh, vfListed, if_neg hlisted, if_pos hvis]

/-- RNG_CTL and RNG_SIZE are words of 32 bits that a VF sees, and no field of RNG_SIZE is hidden from it. -/
theorem rngSize_codes : vfVisible (rng 0 0 0) = true ∧ isWide (rng 0 0 0) = false ∧ vfVisible (rng 0 0 4) = true ∧
    codeMask (rng 0 0 4) false (· == .no) = 0 := by decide +kernel

end Sys2Proof.Machine
end


section
/-!
PROOFS. Register reads: O32.
-/

namespace Sys2Proof.Machine

/-! ## Register reads (O32) -/

section
variable {s : State}

/-- TCK_COUNT is a register of 64 bits that the PF reads whole. -/
theorem readMask_tckCount : readMask 0x10008 true = 2 ^ 32 - 1 ∧ readMask 0x1000C true = 2 ^ 32 - 1 := by decide +kernel

theorem isWide_tckCount : isWide 0x10008 = true := by decide +kernel

theorem regLookup_tckCount : (regLookup 0x10008).isSome = true ∧ (regLookup 0x1000C).isSome = true := by decide +kernel

theorem homeOf_tckCount : homeOf .pf 0x10008 = some 0x10008 := by decide +kernel

/-- A word of the PF's low blocks that the PF reads whole, once the module serves. -/
theorem State.wordNow_pf_whole {off : Nat} (time : Nat) (hs : s.serves = true) (ho : off < 0x100000) (hid : ¬(0x180 ≤ off ∧ off < 0x1E0))
    (hr : (regLookup off).isSome = true) (hm : readMask off true = 2 ^ 32 - 1) : s.wordNow .pf off time = (s.word off).toNat := by
  rw [State.wordNow_pf_low _ ho, State.valueAt_low _ _ (by omega) hid, hm, Nat.and_two_pow_sub_one_eq_mod, Nat.mod_eq_of_lt (s.word off).isLt]
  simp [hr, hs]

theorem completes_registerRead_dead (fn : Fn) (off len : Nat) (hb : s.barLive fn = false) :
    Completes (.registerRead fn off len) s fun t => t = { s with outbox := s.outbox ++ [.noAnswer fn] } :=
  ⟨_, exec_registerRead_dead off len hb, rfl⟩

theorem completes_registerRead_word (off : Nat) (hb : s.barLive .pf = true) (h4 : off % 4 = 0) (ho : off < 0x10000)
    (hid : ¬(0x180 ≤ off ∧ off < 0x1E0)) (hw : isWide (off / 8 * 8) = false) :
    Completes (.registerRead .pf off 4) s fun t => t = { s with
      freeCtr := s.freeCtr + 1,
      outbox := s.outbox ++ [.answer .pf (leBytes 4
        (if (regLookup off).isSome && (s.serves || early off) then (s.word off).toNat &&& readMask off true else 0))] } := by
  refine ⟨_, exec_registerRead_narrow h4 hb (narrow_pf_low (by omega) hw), ?_⟩
  rw [State.wordNow_pf_low _ (by omega), State.valueAt_low _ _ (by omega) hid]
  rfl

theorem completes_registerRead_tckCount (hb : s.barLive .pf = true) (hs : s.serves = true) :
    Completes (.registerRead .pf 0x10008 4) s fun t =>
      t.outbox = s.outbox ++ [.answer .pf (leBytes 4 (s.word 0x10008).toNat)] ∧ aget t.pf.latch 0x10008 = some (s.word 0x1000C) ∧
        t.regs = s.regs := by
  have hlo : s.free.2.wordNow .pf 0x10008 s.free.1 = (s.word 0x10008).toNat :=
    State.wordNow_pf_whole (s := s.free.2) _ hs (by decide) (by decide) regLookup_tckCount.1 readMask_tckCount.1
  have hhi : s.free.2.wordNow .pf (0x10008 + 4) s.free.1 = (s.word 0x1000C).toNat :=
    State.wordNow_pf_whole (s := s.free.2) _ hs (by decide) (by decide) regLookup_tckCount.2 readMask_tckCount.2
  refine ⟨_, exec_registerRead_wide_low (by decide) hb homeOf_tckCount isWide_tckCount, ?_, ?_, rfl⟩
  · rw [hlo]
    rfl
  · rw [hhi, BitVec.ofNat_toNat, BitVec.setWidth_eq]
    exact aget_aput_same _ _ _

theorem completes_registerRead_latched (v : W32) (hb : s.barLive .pf = true) (hv : aget s.pf.latch 0x10008 = some v) :
    Completes (.registerRead .pf 0x1000C 4) s fun t => t.outbox = s.outbox ++ [.answer .pf (leBytes 4 v.toNat)] ∧ t.regs = s.regs :=
  ⟨_, exec_registerRead_wide_high (base := 0x10008) (by decide) hb homeOf_tckCount isWide_tckCount hv, rfl, rfl⟩

theorem completes_registerRead_vf_off (n off h : Nat) (hb : s.barLive (.vf n) = true) (ht : s.offNow n = true) (h8 : off % 8 = 0)
    (hp : vfPlace n off = .home h) (hd : h ≠ tnt n 0xC) (hw : isWide h = false) :
    Completes (.registerRead (.vf n) off 4) s fun t => t.outbox = s.outbox ++ [.answer (.vf n) (leBytes 4 0)] ∧ t.regs = s.regs := by
  have hn : Narrow (.vf n) (off / 8 * 8) := by
    intro h' hh
    rw [show off / 8 * 8 = off by omega] at hh
    simp only [homeOf, hp, Option.some.injEq] at hh
    exact hh ▸ hw
  refine ⟨_, exec_registerRead_narrow (by omega) hb hn, ?_, rfl⟩
  rw [State.wordNow_vf_off (s := s.free.2) _ hp ht hd]
  rfl

end

/-- Settles O32: each clause is one aligned access, whose doubleword the access lemmas read. -/
theorem registerReadsAnswerAndLatch : Obligations.RegisterReadsAnswerAndLatch := by
  intro s
  exact ⟨fun fn off len hb => completes_registerRead_dead fn off len hb,
    fun off hb h4 ho hid hw => completes_registerRead_word off hb h4 ho hid hw,
    fun hb hs => completes_registerRead_tckCount hb hs,
    fun v hb hv => completes_registerRead_latched v hb hv,
    fun n off h hb ht h8 hp hd hw => completes_registerRead_vf_off n off h hb ht h8 hp hd hw⟩

end Sys2Proof.Machine
end


section
/-!
PROOFS. Register writes: O33.
-/

namespace Sys2Proof.Machine

/-! ## Register writes (O33) -/

section
variable {s : State}

/-- SCH_COUNT is a register of 64 bits that the PF writes whole. -/
theorem codeMask_schCount : codeMask 0x10208 true (· == .rw) = 2 ^ 32 - 1 ∧ codeMask 0x1020C true (· == .rw) = 2 ^ 32 - 1 := by decide +kernel

theorem isWide_schCount : isWide 0x10208 = true := by decide +kernel

theorem homeOf_schCount : homeOf .pf 0x10208 = some 0x10208 := by decide +kernel

/-- MOD_EVENT_EN enables the nine events of MOD_EVENT. -/
theorem codeMask_modEventEn : ∀ b : Fin 9, bitOf (codeMask 0x34 true (· == .rw)) b = true := by decide +kernel

theorem homeOf_modEventEn : homeOf .pf 0x34 = some 0x34 := by decide +kernel

theorem isWide_modEvent : isWide 0x30 = false := by decide +kernel

theorem homeOf_lrdSel : homeOf .pf 0x300000 = some 0x300000 := by decide +kernel

theorem isWide_lrdSel : isWide 0x300000 = false := by decide +kernel

theorem completes_registerWrite_dead (fn : Fn) (off : Nat) (data : List (Option Byte)) (hb : s.barLive fn = false) :
    Completes (.registerWrite fn off data) s fun t => t = s :=
  ⟨_, exec_registerWrite_dead off data hb, rfl⟩

theorem completes_registerWrite_word (hw : nwf s.regs = true) (off : Nat) (bs : List (Option Byte)) (hb : s.barLive .pf = true)
    (h4 : off % 4 = 0) (ho : off < 0x10000) (h1 : off ≠ 0x34) (h2 : off ≠ 0x40) (h3 : off ≠ 0x100) (hn : isWide (off / 8 * 8) = false)
    (hr : (regLookup off).isSome = true) (hs : (s.serves || early off) = true) (hl : bs.length = 4) (ha : bs.any Option.isSome = true) :
    Completes (.registerWrite .pf off bs) s fun t =>
      (∀ i : Nat, i < 32 → (t.word off).getLsbD i =
        (let written : Option Bool := (bs[i / 8]?.join).map fun b => b.getLsbD (i % 8)
         if bitOf (codeMask off true (· == .rw)) i then written.getD ((s.word off).getLsbD i)
         else if bitOf (codeMask off true (· == .w1c)) i && written == some true then false
         else (s.word off).getLsbD i)) ∧
      (∀ a, a ≠ off → t.word a = s.word a) ∧ t = { s with regs := t.regs } := by
  have hh : homeOf .pf off = some off := by
    rw [homeOf_pf_low (by omega)]
    obtain ⟨x, hx⟩ := Option.isSome_iff_exists.mp hr
    rw [hx, Option.map_some]
  have hm : pfMsix off = none := if_neg (by omega)
  refine ⟨_, exec_registerWrite_narrow h4 hl hb (narrow_pf_low (by omega) hn), ?_⟩
  rw [State.writeWord_pf hm hh hs ha, State.writeHome_pf_codes _ (by omega) h1 h2 h3 (by omega) (by omega)]
  refine ⟨fun i hi => ?_, fun a hne => State.word_writeCodes_other _ _ _ hw hne, rfl⟩
  rw [State.getLsbD_writeCodes _ _ _ hw hi, testBit_keepBytes _ hl hi, testBit_actBytes]

theorem completes_registerWrite_schCount_low (v : W32) (hb : s.barLive .pf = true) (hs : s.serves = true) :
    Completes (.registerWrite .pf 0x10208 ((leBytes 4 v.toNat).map some)) s fun t => aget t.pf.held 0x10208 = some v ∧ t.regs = s.regs := by
  have hrw : rwAny 0x10208 true = true := by
    rw [rwAny, codeMask_schCount.1]
    rfl
  refine ⟨_, exec_registerWrite_pf_wide_low (by decide) rfl hb hs homeOf_schCount isWide_schCount rfl hrw, ?_, rfl⟩
  rw [keepBytes_leBytes_toNat, BitVec.ofNat_toNat, BitVec.setWidth_eq]
  exact aget_aput_same _ _ _

theorem completes_registerWrite_schCount_high (hw : nwf s.regs = true) (lo hi : W32) (hb : s.barLive .pf = true) (hs : s.serves = true)
    (hv : aget s.pf.held 0x10208 = some lo) :
    Completes (.registerWrite .pf 0x1020C ((leBytes 4 hi.toNat).map some)) s fun t =>
      t.word 0x10208 = lo ∧ t.word 0x1020C = hi ∧ ∀ a, a ≠ 0x10208 → a ≠ 0x1020C → t.word a = s.word a := by
  refine ⟨_, exec_registerWrite_pf_wide_high (off := 0x10208) (by decide) rfl hb hs homeOf_schCount isWide_schCount rfl hv, ?_⟩
  rw [State.writeHome_pf_codes _ (by decide) (by decide) (by decide) (by decide) (by decide) (by decide),
    State.writeHome_pf_codes _ (by decide) (by decide) (by decide) (by decide) (by decide) (by decide), keepBytes_leBytes_toNat,
    keepBytes_leBytes_toNat]
  generalize ht : ({ s with pf := { s.pf with held := adel s.pf.held 0x10208 } } : State) = u
  have hwu : nwf u.regs = true := ht ▸ hw
  have hword (a : Nat) : u.word a = s.word a := ht ▸ rfl
  have hw1 := State.nwf_writeCodes (off := 0x10208) true lo.toNat (actBytes ((leBytes 4 lo.toNat).map some)) hwu
  refine ⟨?_, ?_, fun a hne hne' => ?_⟩
  · rw [State.word_writeCodes_other _ _ _ hw1 (by decide), State.word_writeCodes_whole _ _ _ hwu codeMask_schCount.1]
    exact (BitVec.ofNat_toNat 32 lo).trans (BitVec.setWidth_eq lo)
  · rw [State.word_writeCodes_whole _ _ _ hw1 codeMask_schCount.2]
    exact (BitVec.ofNat_toNat 32 hi).trans (BitVec.setWidth_eq hi)
  · rw [State.word_writeCodes_other _ _ _ hw1 hne', State.word_writeCodes_other _ _ _ hwu hne, hword]

theorem State.writeHome_modEventEn (bs : List (Option Byte)) :
    s.writeHome .pf 0x34 bs = s.enWrite true 0x34 (keepBytes (s.word 0x34).toNat bs) (actBytes bs) .pf 0 := rfl

theorem completes_registerWrite_modEventEn (hw : nwf s.regs = true) (b : Fin 9) (hb : s.barLive .pf = true) (he : s.flag 0x30 b = true)
    (hm : s.pf.masked 0 = false) :
    Completes (.registerWrite .pf 0x34 ((leBytes 4 (2 ^ b.val)).map some)) s fun t =>
      t.outbox = s.outbox ++ [.intr .pf 0] ∧ t.flag 0x34 b = true ∧ t.flag 0x30 b = true := by
  have hn : Narrow .pf (0x34 / 8 * 8) := narrow_pf_low (by decide) isWide_modEvent
  have hb32 : b.val < 32 := by omega
  have hbit : (2 ^ b.val % 2 ^ 32).testBit b = true := by
    rw [Nat.testBit_mod_two_pow, Nat.testBit_two_pow_self]
    simp [hb32]
  have hev : ((s.writeCodes true 0x34 (2 ^ b.val % 2 ^ 32) (2 ^ b.val % 2 ^ 32)).word 0x30).getLsbD b = true := by
    rw [State.word_writeCodes_other _ _ _ hw (by decide), ← State.flag_eq_getLsbD, he]
  have hen : ((s.writeCodes true 0x34 (2 ^ b.val % 2 ^ 32) (2 ^ b.val % 2 ^ 32)).word 0x34).getLsbD b = true := by
    rw [State.getLsbD_writeCodes _ _ _ hw hb32, if_pos (codeMask_modEventEn b), hbit]
  refine ⟨_, exec_registerWrite_narrow (by decide) rfl hb hn, ?_⟩
  rw [State.writeWord_pf rfl homeOf_modEventEn (by simp [early]) rfl, State.writeHome_modEventEn, keepBytes_leBytes,
    actBytes_leBytes, State.enWrite_hit (fn := .pf) hb32 hbit (codeMask_modEventEn b) hev hm]
  exact ⟨rfl, (State.flag_eq_getLsbD _).trans hen, (State.flag_eq_getLsbD _).trans hev⟩

theorem State.writeHome_lrdSel (bs : List (Option Byte)) :
    s.writeHome .pf 0x300000 bs = s.updFn .pf fun f => { f with session := keepBytes f.session bs % 2 ^ 13 } := rfl

theorem completes_registerWrite_lrdSel (v : W32) (hb : s.barLive .pf = true) (hs : s.serves = true) :
    Completes (.registerWrite .pf 0x300000 ((leBytes 4 v.toNat).map some)) s fun t =>
      t = { s with pf := { s.pf with session := v.toNat % 2 ^ 13 } } := by
  have hn : Narrow .pf (0x300000 / 8 * 8) := by
    intro h hh
    rw [homeOf_lrdSel] at hh
    cases hh
    exact isWide_lrdSel
  refine ⟨_, exec_registerWrite_narrow (by decide) rfl hb hn, ?_⟩
  rw [State.writeWord_pf rfl homeOf_lrdSel (by simp [hs]) rfl, State.writeHome_lrdSel]
  simp [State.updFn, keepBytes_leBytes_toNat]

end

/-- Settles O33: each clause is one aligned access; the bits of a plain word follow from the masks of its row's codes, of which
RW and W1C are disjoint in every row. -/
theorem registerWritesFollowTheirCodes : Obligations.RegisterWritesFollowTheirCodes := by
  intro s ht
  have hw := State.tidy_regs ht
  exact ⟨fun fn off data hb => completes_registerWrite_dead fn off data hb,
    fun off bs hb h4 ho h1 h2 h3 hn hr hs hl ha => completes_registerWrite_word hw off bs hb h4 ho h1 h2 h3 hn hr hs hl ha,
    fun v hb hs => completes_registerWrite_schCount_low v hb hs,
    fun lo hi hb hs hv => completes_registerWrite_schCount_high hw lo hi hb hs hv,
    fun b hb he hm => completes_registerWrite_modEventEn hw b hb he hm,
    fun v hb hs => completes_registerWrite_lrdSel v hb hs⟩

end Sys2Proof.Machine
end


section
/-!
PROOFS. Writes that are turned away: O35.
-/

namespace Sys2Proof.Machine

/-! ## Writes of a VF that are turned away (O35) -/

section
variable {s : State} {n : Nat}

theorem homeOf_vf_hidden {off : Nat} (hp : vfPlace n off = .hidden) : homeOf (.vf n) off = none := by
  simp [homeOf, hp]

/-- A write of one byte at a hidden offset, by the VF of a tenant that is neither off nor RESETTING, is the tenant's fault (R10, R431). -/
theorem exec_registerWrite_hidden {off : Nat} (b : Byte) (hs : s.serves = true) (hlive : s.barLive (.vf n) = true) (h8 : off % 8 = 0)
    (hp : vfPlace n off = .hidden) (hd : s.tState n ≠ tsDisabled) (hr : s.tState n ≠ tsResetting) :
    exec (.registerWrite (.vf n) off [some b]) s = .next (s.raise n 0xD0 { addr := off }) := by
  have hnarrow : Narrow (.vf n) off := by
    intro h hh
    rw [homeOf_vf_hidden hp] at hh
    cases hh
  have hu : s.writeAt (.vf n) 2 off [some b] = _ :=
    State.writeAt_unit 0 (k := 0) (data := [some b]) h8 (by simp) (by simp) hlive
  rw [State.writePair_narrow _ hnarrow] at hu
  have hfuel : [some b].length / 8 + 2 = 2 := by simp
  rw [exec_registerWrite, execRegisterWrite, hfuel, hu]
  have hhi : List.drop 4 (List.take 8 (List.replicate 0 none ++ [some b] ++ List.replicate 8 none)) = [none, none, none, none] := rfl
  have hlo : List.take 4 (List.take 8 (List.replicate 0 none ++ [some b] ++ List.replicate 8 none)) = [some b, none, none, none] := rfl
  rw [hhi, hlo, State.writeWord_untouched]
  have hoff : s.offNow n = false := by simp [State.offNow, hs, hd]
  simp [State.writeWord, State.writeVf, hp, hoff, hr, State.hiddenWrite]

/-- While its tenant is off or RESETTING, a VF's write of a listed word but TNT_EVENT and TNT_EVENT_EN changes nothing (R421, R561). -/
theorem State.writeVf_closed {off h : Nat} (bs : List (Option Byte)) (hp : vfPlace n off = vfListed h) (h1 : h ≠ tnt n 0x30)
    (h2 : h ≠ tnt n 0x34) (hc : s.offNow n = true ∨ s.tState n = tsResetting) : s.writeVf n off bs = s := by
  unfold State.writeVf
  rw [hp]
  obtain e | e | e := vfListed_cases h
  · rw [e]
  · rw [e]
    obtain hc | hc := hc <;> simp [hc]
  · rw [e]
    obtain hc | hc := hc <;> simp [hc, h1, h2]

/-- While its tenant is off or RESETTING, a VF's writes of its ring blocks change nothing (R421, R561). -/
theorem State.writeWord_rings_closed {k : Nat} (bs : List (Option Byte)) (hn : n < 16) (hk : k < 0x800)
    (hc : s.offNow n = true ∨ s.tState n = tsResetting) : s.writeWord (.vf n) (0x10000 + k) bs = s := by
  unfold State.writeWord
  split
  · rfl
  · exact State.writeVf_closed bs (vfPlace_rings hk) (by simp only [tnt]; omega) (by simp only [tnt]; omega) hc

theorem State.writePair_rings_closed {k : Nat} (bs : List (Option Byte)) (hn : n < 16) (hk : k + 4 < 0x800)
    (hc : s.offNow n = true ∨ s.tState n = tsResetting) : s.writePair (.vf n) (0x10000 + k) bs = s := by
  have hwide : s.wideOpen (.vf n) = false := by
    obtain hc | hc := hc <;> simp [State.wideOpen, hc]
  have hwords : (s.writeWord (.vf n) (0x10000 + k) (bs.take 4)).writeWord (.vf n) (0x10000 + k + 4) (bs.drop 4) = s := by
    rw [State.writeWord_rings_closed _ hn (by omega) hc, Nat.add_assoc, State.writeWord_rings_closed _ hn hk hc]
  unfold State.writePair
  dsimp only
  split
  · rw [hwide, hwords]
    simp
  · exact hwords

theorem exec_registerWrite_rings_closed {k : Nat} {bs : List (Option Byte)} (hn : n < 16) (h4 : k % 4 = 0) (hk : k < 0x800)
    (hl : bs.length = 4) (hlive : s.barLive (.vf n) = true) (hc : s.offNow n = true ∨ s.tState n = tsResetting) :
    exec (.registerWrite (.vf n) (0x10000 + k) bs) s = .next s := by
  by_cases h8 : k % 8 = 0
  · rw [exec_registerWrite_low (by omega) hl hlive, State.writePair_rings_closed _ hn (by omega) hc]
  · obtain ⟨j, rfl⟩ : ∃ j, k = j + 4 := ⟨k - 4, by omega⟩
    rw [← Nat.add_assoc, exec_registerWrite_high (by omega) hl hlive, State.writePair_rings_closed _ hn hk hc]

theorem State.writeHome_rings {h : Nat} (fn : Fn) (bs : List (Option Byte)) (h1 : 0x200000 ≤ h) (h2 : h < 0x208000) :
    s.writeHome fn h bs = s.writeRing fn h (keepBytes (s.word h).toNat bs) (actBytes bs) bs := by
  unfold State.writeHome
  dsimp only
  rw [if_neg (by omega), if_pos ⟨h1, h2⟩]

/-- A write of a configuration register of an enabled ring sets CFG_BAD and does nothing else (R377). -/
theorem State.writeRing_enabled {fn : Fn} {r o keep act : Nat} {p : Partition} {bs : List (Option Byte)} (hr : r < 8) (ho : o < 0x100)
    (hp : s.part n = some p) (hrings : r < p.rings) (hb : s.ringBar fn n r o = .enabled) :
    s.writeRing fn (rng n r o) keep act bs = s.setFlag (rng n r 0x30) 3 true := by
  have e1 : (rng n r o - 0x200000) / 0x800 = n := by
    simp only [rng]
    omega
  have e2 : rng n r o / 0x100 % 8 = r := by
    simp only [rng]
    omega
  have e3 : rng n r o % 0x100 = o := by
    simp only [rng]
    omega
  unfold State.writeRing
  simp only [e1, e2, e3, hb, hp, Option.map_some, Option.getD_some, Nat.not_le.mpr hrings, if_false]

theorem exec_registerWrite_rngSize_locked (n : Fin 16) (r : Fin 8) {p : Partition} {bs : List (Option Byte)} (hl : bs.length = 4)
    (ha : bs.any Option.isSome = true) (hs : s.serves = true) (hlive : s.barLive (.vf n) = true) (hp : s.part n = some p)
    (hrings : r.val < p.rings) (ht : s.tState n = tsActive) (hon : s.ringOn n r = true) :
    exec (.registerWrite (.vf n) (0x10000 + 0x100 * r + 4) bs) s = .next (s.setFlag (rng n r 0x30) 3 true) := by
  obtain ⟨hv0, hw0, hv4, hno⟩ := rngSize_codes
  have hbase : vfPlace n (0x10000 + 0x100 * r) = .home (rng n r 0) := vfPlace_ring n.isLt r.isLt (by decide) hv0
  have hplace : vfPlace n (0x10000 + 0x100 * r + 4) = .home (rng n r 4) := vfPlace_ring n.isLt r.isLt (by decide) hv4
  have hwide : isWide (rng n r 0) = false := (isWide_ring n.isLt r.isLt (by decide)).trans hw0
  have hn : Narrow (.vf n) ((0x10000 + 0x100 * r.val + 4) / 8 * 8) := by
    intro h hh
    rw [show (0x10000 + 0x100 * r.val + 4) / 8 * 8 = 0x10000 + 0x100 * r.val by omega] at hh
    simp only [homeOf, hbase, Option.some.injEq] at hh
    exact hh ▸ hwide
  have hoff : s.offNow n = false := by simp [State.offNow, hs, ht, tsActive, tsDisabled]
  have hres : (s.tState n == tsResetting) = false := by simp [ht, tsActive, tsResetting]
  have hhid : hidesNonzero (rng n r 4) bs = false := by simp [hidesNonzero, codeMask_ring _ _ n.isLt r.isLt, hno]
  have hbar : s.ringBar (.vf n) n r 4 = .enabled := by simp [State.ringBar, hon]
  have hword : s.writeWord (.vf n) (0x10000 + 0x100 * r + 4) bs = s.writeHome (.vf n) (rng n r 4) bs := by
    simp [State.writeWord, ha, State.writeVf, hplace, hoff, hres, hhid, -List.any_eq_true]
  rw [exec_registerWrite_narrow (by omega) hl hlive hn, hword, State.writeHome_rings _ _ (by simp only [rng]; omega) (by simp only [rng]; omega),
    State.writeRing_enabled r.isLt (by decide) hp hrings hbar]

end

/-- Settles O35: a hidden offset raises 0xD0, which freezes the tenant; the tenant's state bars the ring blocks word by word; and a ring's
EN bars RNG_SIZE. -/
theorem hiddenOffsetsAndLockedRingsTurnWritesAway : Obligations.HiddenOffsetsAndLockedRingsTurnWritesAway := by
  intro s n ht hs hlive
  have hw := State.tidy_regs ht
  refine ⟨fun off b h8 hp ha => ?_, fun r o bs hst h4 ho hl => ?_, fun r p v hp hr ha hon => ?_⟩
  · have hd : s.tState n ≠ tsDisabled := by simp [ha, tsActive, tsDisabled]
    have hres : s.tState n ≠ tsResetting := by simp [ha, tsActive, tsResetting]
    exact ⟨_, exec_registerWrite_hidden b hs hlive h8 hp hd hres,
      State.raise_freezes _ hw n.isLt ha (by decide) (by decide) (.inl (by decide))⟩
  · have hc : s.offNow n = true ∨ s.tState n = tsResetting := hst.imp_left fun h => by simp [State.offNow, h]
    rw [Nat.add_assoc]
    exact ⟨_, exec_registerWrite_rings_closed n.isLt (by omega) (by omega) hl hlive hc, rfl⟩
  · refine ⟨_, exec_registerWrite_rngSize_locked n r (by simp) rfl hs hlive hp hr ha hon, ?_, ?_, rfl⟩
    · exact State.word_setFlag_other _ _ hw (by simp [rng])
    · exact State.flag_setFlag_same _ _ _ hw (by decide)

end Sys2Proof.Machine
end


section
/-!
PROOFS. Resets and halts: which words an entry in the module fault record changes, when a fault of class COMPUTE or MODULE resets, and
what a full module reset and a halt leave.
-/

namespace Sys2Proof.Machine

/-! ## Faults of the module (R484, R492, R505) -/

/-- The words that an entry in the module fault record may change: MOD_EVENT, the record below its summary, and those of Vitrine. -/
def ModuleEntryWords (a : Nat) : Prop := a = 0x30 ∨ (0x700004 ≤ a ∧ a < 0x700060) ∨ 0xA00000 ≤ a

theorem RegsOnly.foldl {α : Type} {f : State → α → State} (hf : ∀ s x, RegsOnly s (f s x)) (l : List α) (s : State) :
    RegsOnly s (l.foldl f s) :=
  foldl_inv (Q := RegsOnly s) (fun u x h => h.trans (hf u x)) (.refl s)

section
variable (s : State)

theorem State.moduleEntry_recordWords (code : Nat) (i : Info) : WordsOnly ModuleEntryWords s (s.moduleEntry code i) := by
  unfold State.moduleEntry
  extract_lets e empty s1
  have h1 : WordsOnly ModuleEntryWords s s1 :=
    .ite (State.setEntry_words _ _ _ fun a h1 h2 => .inr (.inl (by omega))) (s.bump_words _ (.inr (.inl (by decide))))
  have he : WordsOnly ModuleEntryWords s1 (s1.setBytes 0x700040 (entryBytes code s.tickNo i)) :=
    State.setEntry_words _ _ _ fun a h1 h2 => .inr (.inl (by omega))
  exact (h1.trans he).trans ((State.modEvent_words _ _ (.inl rfl)).trans (State.faultTrace_words _ _ _ _ fun a h => .inr (.inr h)))

@[simp] theorem State.moduleEntry_serves (code : Nat) (i : Info) : (s.moduleEntry code i).serves = s.serves := by
  rw [State.serves, State.moduleEntry_boot, State.serves]

variable {s}

theorem State.moduleEntry_inRecovery (code : Nat) (i : Info) (hw : nwf s.regs = true) :
    (s.moduleEntry code i).inRecovery = s.inRecovery := by
  rw [State.inRecovery, State.moduleEntry_recov, (s.moduleEntry_recordWords code i).fld_eq hw (by simp [ModuleEntryWords]), State.inRecovery]

/-- Outside a recovery, a fault of class COMPUTE makes a compute-part reset of a serving module fall due. -/
theorem State.computeFault_due (code : Nat) (i : Info) (l : List Nat) (hw : nwf s.regs = true) (hs : s.serves = true)
    (hr : s.inRecovery = false) :
    s.computeFault none code i l = { s.moduleEntry code i with recov := { s.recov with due := some l, bankUe := [] } } := by
  simp [State.computeFault, State.computeReset, State.moduleEntry_inRecovery code i hw, hs, hr]

/-- Outside a recovery and the window of R500, a fault of class MODULE resets a module that is not halted. -/
theorem State.moduleFault_restart (code : Nat) (i : Info) (hw : nwf s.regs = true) (hh : s.boot.state ≠ .halted)
    (hr : s.inRecovery = false) (hwin : s.recov.window = false) : s.moduleFault code i = (s.moduleEntry code i).restart true := by
  simp [State.moduleFault, State.moduleEntry_inRecovery code i hw, hh, hr, hwin]

theorem State.state_of_serves (hs : s.serves = true) : s.boot.state ≠ .standby ∧ s.boot.state ≠ .halted := by
  constructor <;> intro h <;> simp [State.serves, h] at hs

end

/-! ## A full module reset (R49, R50) -/

/-- `t` is `s` after a full module reset: what the always-on controller keeps, and what returns to reset. -/
structure ResetOf (s t : State) : Prop where
  boot : t.boot = { Boot.reset with inputOk := s.boot.inputOk, perstShort := s.boot.perstShort }
  pins : t.pins = { s.pins with tickOut := false, smbAlert := t.pins.smbAlert }
  flash : t.flash = s.flash
  fuses : t.fuses = s.fuses
  tiles : t.tiles = State.reset.tiles
  hbm : t.hbm = []

section
variable {s t u : State}

theorem ResetOf.regsOnly (h : ResetOf s t) (g : RegsOnly t u) : ResetOf s u := by
  rw [RegsOnly] at g
  rw [g]
  exact ⟨h.boot, h.pins, h.flash, h.fuses, h.tiles, h.hbm⟩

theorem ResetOf.alert (b : Nat) (h : ResetOf s t) : ResetOf s (t.alert b) where
  boot := h.boot
  pins := by rw [State.alert, h.pins]
  flash := h.flash
  fuses := h.fuses
  tiles := h.tiles
  hbm := h.hbm

theorem State.setWord_regsOnly (s : State) (off : Nat) (v : W32) : RegsOnly s (s.setWord off v) := rfl

theorem State.setFlag_regsOnly (s : State) (off b : Nat) (v : Bool) : RegsOnly s (s.setFlag off b v) := rfl

theorem State.setQuad_regsOnly (s : State) (off v : Nat) : RegsOnly s (s.setQuad off v) := rfl

theorem State.showKeys_regsOnly (s : State) : RegsOnly s s.showKeys := rfl

theorem State.fullReset_resetOf (s : State) (keep : Bool) : ResetOf s (s.fullReset keep) := by
  unfold State.fullReset
  extract_lets +onlyGivenNames a b c d r1 r2 r3
  have h1 : ResetOf s r1 := ⟨rfl, rfl, rfl, rfl, rfl, rfl⟩
  clear_value r1
  have h2 : ResetOf s r2 := (h1.regsOnly (r1.setQuad_regsOnly _ _)).regsOnly (State.showKeys_regsOnly _)
  clear_value r2
  have h3 : ResetOf s r3 := by
    subst r3
    split
    · exact h2
    · exact h2.alert 5
  clear_value r3
  split
  · exact ((h3.regsOnly (r3.setBytes_regsOnly _ _)).regsOnly (State.setWord_regsOnly _ _ _)).regsOnly (State.setFlag_regsOnly _ _ _ _)
  · exact h3

/-- Whether a start may begin hangs on pins and power-good alone, which a reset leaves. -/
theorem ResetOf.mayStart (h : ResetOf s t) : t.mayStart = s.mayStart := by
  have hperst : t.pins.perst = s.pins.perst := by rw [h.pins]
  have hmated : t.pins.mated = s.pins.mated := by rw [h.pins]
  have htest : t.pins.boardTest = s.pins.boardTest := by rw [h.pins]
  simp only [State.mayStart, h.boot, hperst, hmated, htest]

theorem State.beginStart_of_mayStart (h : s.mayStart = true) :
    s.beginStart = (({ s with boot := { s.boot with state := .starting, keysAtStart := s.fuses.revoked } } : State).alert 5).setFld 0x120 0 4 1 :=
  if_pos h

/-- A reset that a start follows. -/
theorem State.restart_starts (keep : Bool) (h : s.mayStart = true) :
    (s.restart keep).boot.state = .starting ∧ (s.restart keep).hbm = [] ∧ (s.restart keep).flash = s.flash ∧
      (s.restart keep).fuses = s.fuses := by
  have hr := s.fullReset_resetOf keep
  rw [State.restart, State.beginStart_of_mayStart (hr.mayStart.trans h)]
  exact ⟨rfl, hr.hbm, hr.flash, hr.fuses⟩

end

/-! ## A halt (R48) -/

/-- What a halt leaves of `s` in `t`, beside the registers. -/
structure HaltOf (s t : State) : Prop where
  boot : t.boot = { s.boot with state := .halted }
  pins : t.pins = { s.pins with smbAlert := t.pins.smbAlert }
  flash : t.flash = s.flash
  fuses : t.fuses = s.fuses
  hbm : t.hbm = s.hbm

section
variable {s : State}

/-- Vitrine admits no event of a module that does not serve. -/
theorem State.event_of_not_serves (kind : Nat) (ten tile : Option Nat) (id : Nat) (data : List Byte) (hide : Nat × Nat)
    (hs : s.serves = false) : s.event kind ten tile id data hide = s := by
  simp [State.event, State.wantsEvent, hs]

variable (s)

@[simp] theorem State.interrupt_hbm (fn : Fn) (v : Nat) : (s.interrupt fn v).hbm = s.hbm := by
  unfold State.interrupt
  cases fn <;> dsimp only <;> split <;> rfl

@[simp] theorem State.modEvent_hbm (b : Nat) : (s.modEvent b).hbm = s.hbm := by
  unfold State.modEvent
  dsimp only
  split
  · exact State.interrupt_hbm _ _ _
  · rfl

theorem State.moduleEntry_hbm (code : Nat) (i : Info) (hs : s.serves = false) : (s.moduleEntry code i).hbm = s.hbm := by
  unfold State.moduleEntry
  extract_lets e empty s1
  have hs1 : s1.serves = s.serves ∧ s1.hbm = s.hbm := by
    subst s1
    split
    · simp [State.serves]
    · exact ⟨rfl, rfl⟩
  clear_value s1
  have hev : ((s1.setBytes 0x700040 e).modEvent 2).serves = false := by
    rw [State.serves, State.modEvent_boot, State.setBytes_boot]
    exact hs1.1.trans hs
  rw [State.faultTrace, State.event_of_not_serves _ _ _ _ _ _ hev, State.modEvent_hbm, State.setBytes_hbm, hs1.2]

@[simp] theorem State.setMod_hbm (m : ModState) : (s.setMod m).hbm = s.hbm := by
  unfold State.setMod
  split
  · rfl
  · simp only [State.modEvent_hbm, State.setFlag_hbm, State.setFld_hbm]
    split <;> rfl

theorem State.setMod_pins (m : ModState) : (s.setMod m).pins = { s.pins with smbAlert := (s.setMod m).pins.smbAlert } := by
  unfold State.setMod
  split
  · rfl
  · simp only [State.modEvent_pins, State.setFlag_pins, State.setFld_pins]
    split <;> rfl

theorem State.haltAtt_regsOnly (k : Nat) : RegsOnly s (s.haltAtt k) := by
  unfold State.haltAtt
  dsimp only
  split <;> rfl

theorem State.halt_haltOf (reason : Nat) : HaltOf s (s.halt reason) := by
  unfold State.halt
  extract_lets s1 lnk s2
  have h2 : HaltOf s s2 := ⟨s.setMod_boot _, s.setMod_pins _, s.setMod_flash _, s.setMod_fuses _, s.setMod_hbm _⟩
  clear_value s2
  have hf := RegsOnly.foldl (fun u k => u.haltAtt_regsOnly k) (List.range 8) s2
  generalize (List.range 8).foldl State.haltAtt s2 = s3 at hf
  have h3 : HaltOf s s3 := by
    rw [RegsOnly] at hf
    rw [hf]
    exact ⟨h2.boot, h2.pins, h2.flash, h2.fuses, h2.hbm⟩
  have hs3 : s3.serves = false := by simp [State.serves, h3.boot]
  exact ⟨(s3.note_boot _ _).trans h3.boot, by rw [State.note_pins]; exact h3.pins, (s3.note_flash _ _).trans h3.flash,
    (s3.note_fuses _ _).trans h3.fuses, (s3.moduleEntry_hbm _ _ hs3).trans h3.hbm⟩

end

end Sys2Proof.Machine
end


section
/-!
PROOFS. Power events: O26.
-/

namespace Sys2Proof.Machine

/-! ## What showing the levels of the dies changes (R529) -/

/-- The words PWR_DIE, which hold a die's levels, and those of Vitrine. -/
def DieWords (a : Nat) : Prop := (0x900300 ≤ a ∧ a < 0x900340 ∧ a % 8 = 0) ∨ 0xA00000 ≤ a

section
variable (s : State)

theorem State.showDies_words : WordsOnly DieWords s s.showDies := by
  unfold State.showDies
  refine .foldl (fun s d hd => ?_) s
  have hp : DieWords (0x900300 + 8 * d) := by
    have := List.mem_range.mp hd
    exact .inl (by omega)
  split
  extract_lets s1
  have h1 : WordsOnly DieWords s s1 := .ite (.refl s) (s.event_words _ _ _ _ _ _ fun a h => .inr h)
  exact ((h1.trans (s1.setFld_words _ _ _ hp)).trans (State.setFld_words _ _ _ _ hp)).trans (State.setFld_words _ _ _ _ hp)

theorem State.showDies_reports : Reports s s.showDies := by
  unfold State.showDies
  refine foldl_inv (Q := Reports s) (fun u d h => h.trans ?_) (.refl s)
  split
  extract_lets u1
  have h1 : Reports u u1 := .ite (.refl u) (u.event_reports _ _ _ _ _ _)
  exact ((h1.trans (u1.setFld_reports _ _ _ _)).trans (State.setFld_reports _ _ _ _ _)).trans (State.setFld_reports _ _ _ _ _)

end

section
variable {s : State}

/-! ## Droop (R531) -/

theorem completes_droopDetect {d : Nat} (hw : nwf s.regs = true) (hd : d < 8) (hs : s.serves = true) (hn : s.pwr.droop.contains d = false) :
    Completes (.droopDetect d) s fun t =>
      t.pwr.droop = d :: s.pwr.droop ∧ t.word (0x900304 + 8 * d) = satAdd32 (s.word (0x900304 + 8 * d)) 1 := by
  let u : State := ({ s with pwr := { s.pwr with droop := d :: s.pwr.droop } } : State).bump (0x900304 + 8 * d) 1
  have hx : exec (.droopDetect d) s = .next u.showDies := by
    show execDroopDetect d s = _
    rw [execDroopDetect, if_neg (by simp only [hs, hn, Bool.not_true, Bool.false_eq_true, or_false]; omega)]
  refine ⟨_, hx, congrArg Power.droop u.showDies_reports.pwr, ?_⟩
  rw [u.showDies_words.word (State.nwf_bump _ _ hw) _ (by simp only [DieWords]; omega)]
  exact State.word_setWord_same _ _ hw

theorem completes_droopRelease (d : Nat) :
    Completes (.droopRelease d) s fun t => t.pwr.droop = s.pwr.droop.filter (· ≠ d) ∧ t.tiles = s.tiles := by
  let u : State := { s with pwr := { s.pwr with droop := s.pwr.droop.filter (· ≠ d) } }
  have hx : exec (.droopRelease d) s = .next u.showDies := rfl
  exact ⟨_, hx, congrArg Power.droop u.showDies_reports.pwr, u.showDies_reports.tiles⟩

/-! ## THROTTLE# (R532) -/

theorem completes_throttleLow (at_ : Nat) (ht : s.pins.throttle = false) :
    Completes (.throttleLow at_) s fun t =>
      t = { s with pins := { s.pins with throttle := true }, pwr := { s.pwr with lowAt := some at_, highAt := none } } := by
  refine ⟨_, ?_, rfl⟩
  show execThrottleLow at_ s = _
  rw [execThrottleLow, if_neg (by simp [ht])]

/-- The state in which an assertion has been counted and the floor shown, before it comes into force. -/
def State.acceptThrottle (s : State) : State := (((s.setFlag 0x90000C 0 true).setFlag 0x90000C 1 true).bump 0x900010 1).modEvent 5

theorem State.acceptThrottle_nwf (hw : nwf s.regs = true) : nwf s.acceptThrottle.regs = true :=
  (State.modEvent_words (P := (· = 0x30)) _ 5 rfl).wf (State.nwf_bump _ _ (State.nwf_setFlag _ _ _ (State.nwf_setFlag _ _ _ hw)))

theorem State.acceptThrottle_shows (hw : nwf s.regs = true) :
    s.acceptThrottle.flag 0x90000C 0 = true ∧ s.acceptThrottle.flag 0x90000C 1 = true ∧
      s.acceptThrottle.word 0x900010 = satAdd32 (s.word 0x900010) 1 := by
  have w1 : nwf (s.setFlag 0x90000C 0 true).regs = true := State.nwf_setFlag _ _ _ hw
  have w2 : nwf ((s.setFlag 0x90000C 0 true).setFlag 0x90000C 1 true).regs = true := State.nwf_setFlag _ _ _ w1
  have w3 := State.nwf_bump 0x900010 1 w2
  have hc : WordsOnly (· = 0x900010) _ (((s.setFlag 0x90000C 0 true).setFlag 0x90000C 1 true).bump 0x900010 1) := State.bump_words _ 1 rfl
  have he : WordsOnly (· = 0x30) _ s.acceptThrottle := State.modEvent_words _ 5 rfl
  refine ⟨?_, ?_, ?_⟩
  · rw [he.flag_eq w3 (by decide), hc.flag_eq w2 (by decide), State.flag_setFlag_bit _ w1 (by decide) (by decide),
      State.flag_setFlag_same _ _ _ hw (by decide)]
  · rw [he.flag_eq w3 (by decide), hc.flag_eq w2 (by decide), State.flag_setFlag_same _ _ _ w1 (by decide)]
  · rw [he.word w3 _ (by decide), State.bump, State.word_setWord_same _ _ w2, State.word_setFlag_other _ _ w1 (by decide),
      State.word_setFlag_other _ _ hw (by decide)]

theorem completes_throttleAccept {at_ l : Nat} (hw : nwf s.regs = true) (hlow : s.pwr.lowAt = some l) (ht : s.pins.throttle = true)
    (hat : l + 10000 ≤ at_) (hs : s.serves = true) :
    Completes (.throttleAccept at_) s fun t => t.flag 0x90000C 0 = true ∧ t.flag 0x90000C 1 = true ∧ t.pwr.floorAt = some at_ ∧
      t.pwr.lowAt = none ∧ t.word 0x900010 = satAdd32 (s.word 0x900010) 1 := by
  let u : State := { s.acceptThrottle with pwr := { s.acceptThrottle.pwr with lowAt := none, floorAt := some at_ } }
  have hx : exec (.throttleAccept at_) s = .next u.showDies := by
    show execThrottleAccept at_ s = _
    simp only [execThrottleAccept, hlow]
    rw [if_neg (by simp only [ht, hs, Bool.not_true, Bool.false_eq_true, or_false, false_or]; omega)]
    rfl
  have hu : nwf u.regs = true := State.acceptThrottle_nwf hw
  obtain ⟨hactive, hseen, hcount⟩ := State.acceptThrottle_shows hw
  have hsh := u.showDies_words
  refine ⟨_, hx, ?_, ?_, congrArg Power.floorAt u.showDies_reports.pwr, congrArg Power.lowAt u.showDies_reports.pwr, ?_⟩
  · exact (hsh.flag_eq hu (by simp [DieWords]) 0).trans hactive
  · exact (hsh.flag_eq hu (by simp [DieWords]) 1).trans hseen
  · exact (hsh.word hu 0x900010 (by simp [DieWords])).trans hcount

theorem completes_throttleHigh_idle (at_ : Nat) (ht : s.pins.throttle = true) (hlow : s.pwr.lowAt = none) :
    Completes (.throttleHigh at_) s fun t =>
      t = { s with pins := { s.pins with throttle := false }, pwr := { s.pwr with lowAt := none, highAt := some at_ } } := by
  refine ⟨_, ?_, rfl⟩
  show execThrottleHigh at_ s = _
  simp [execThrottleHigh, ht, hlow]

theorem completes_throttleHigh_glitch {at_ l : Nat} (hw : nwf s.regs = true) (ht : s.pins.throttle = true) (hlow : s.pwr.lowAt = some l)
    (hat : at_ < l + 10000) (hs : s.serves = true) :
    Completes (.throttleHigh at_) s fun t =>
      t.word 0x900014 = satAdd32 (s.word 0x900014) 1 ∧ t.pins.throttle = false ∧ t.pwr.lowAt = none := by
  have hx : exec (.throttleHigh at_) s = .next { s.bump 0x900014 1 with
      pins := { s.pins with throttle := false }, pwr := { s.pwr with lowAt := none, highAt := some at_ } } := by
    show execThrottleHigh at_ s = _
    simp [execThrottleHigh, ht, hlow, hat, hs]
  exact ⟨_, hx, State.word_setWord_same _ _ hw, rfl, rfl⟩

theorem completes_throttleRelease {at_ f h : Nat} (hw : nwf s.regs = true) (hf : s.pwr.floorAt = some f) (hh : s.pwr.highAt = some h)
    (ht : s.pins.throttle = false) (haf : f + 100000 ≤ at_) (hah : h + 10000 ≤ at_) :
    Completes (.throttleRelease at_) s fun t => t.pwr.floorAt = none ∧ t.flag 0x90000C 0 = false := by
  let u : State := ({ s with pwr := { s.pwr with floorAt := none } } : State).setFlag 0x90000C 0 false
  have hx : exec (.throttleRelease at_) s = .next u.showDies := by
    show execThrottleRelease at_ s = _
    simp only [execThrottleRelease, hf, hh, u]
    rw [if_neg (by simp only [ht, Bool.false_eq_true, false_or]; omega)]
  refine ⟨_, hx, congrArg Power.floorAt u.showDies_reports.pwr, ?_⟩
  rw [u.showDies_words.flag_eq (State.nwf_setFlag _ _ _ hw) (by simp [DieWords])]
  exact State.flag_setFlag_same _ _ _ hw (by decide)

/-! ## Converters (R23) -/

/-- The state in which the failure of converter `n` is shown, before what follows from it. -/
def State.failConverter (s : State) (n : Nat) : State :=
  let left := s.pins.conv - 2 ^ n
  let ok := s.boot.inputOk && decide (3 ≤ popcount 4 left)
  let u : State := { s with
    pins := { s.pins with conv := left, pwrgd := ok, boardTest := ok && s.pins.boardTest }, boot := { s.boot with inputOk := ok } }
  (((u.setFlag 0x900008 n false).setFlag 0x900008 (4 + n) true).alert 3).modEvent 6

theorem exec_converterFail {n : Nat} (hn : n < 4) (hc : bitOf s.pins.conv n = true) :
    exec (.converterFail n) s =
      if 3 ≤ popcount 4 (s.failConverter n).pins.conv then .next ((s.failConverter n).note 0x12 { detail := n })
      else .next ((((s.failConverter n).moduleEntry 0x13 { detail := n }).fullReset true).halt hrConverter) := by
  show execConverterFail n s = _
  rw [execConverterFail, if_neg (by simp only [hc, Bool.not_true, Bool.false_eq_true, or_false]; omega)]
  rfl

theorem State.failConverter_conv (n : Nat) : (s.failConverter n).pins.conv = s.pins.conv - 2 ^ n := by
  rw [State.failConverter, State.modEvent_pins]
  rfl

theorem State.failConverter_boot (n : Nat) :
    (s.failConverter n).boot = { s.boot with inputOk := s.boot.inputOk && decide (3 ≤ popcount 4 (s.pins.conv - 2 ^ n)) } := by
  rw [State.failConverter, State.modEvent_boot]
  rfl

theorem State.failConverter_pwrgd (n : Nat) :
    (s.failConverter n).pins.pwrgd = (s.boot.inputOk && decide (3 ≤ popcount 4 (s.pins.conv - 2 ^ n))) := by
  rw [State.failConverter, State.modEvent_pins]
  rfl

theorem State.failConverter_flash (n : Nat) : (s.failConverter n).flash = s.flash := by
  rw [State.failConverter, State.modEvent_flash]
  rfl

theorem State.failConverter_fuses (n : Nat) : (s.failConverter n).fuses = s.fuses := by
  rw [State.failConverter, State.modEvent_fuses]
  rfl

theorem State.failConverter_flags {n : Nat} (hw : nwf s.regs = true) (hn : n < 4) :
    nwf (s.failConverter n).regs = true ∧ (s.failConverter n).flag 0x900008 n = false ∧
      (s.failConverter n).flag 0x900008 (4 + n) = true := by
  unfold State.failConverter
  extract_lets left ok pins boot u
  have wu : nwf u.regs = true := hw
  have w1 := State.nwf_setFlag 0x900008 n false wu
  have w2 := State.nwf_setFlag 0x900008 (4 + n) true w1
  have he : WordsOnly (· = 0x30) (((u.setFlag 0x900008 n false).setFlag 0x900008 (4 + n) true).alert 3) _ := State.modEvent_words _ 6 rfl
  refine ⟨he.wf w2, ?_, ?_⟩
  · rw [he.flag_eq w2 (by decide)]
    exact (State.flag_setFlag_bit _ w1 (by omega) (by omega)).trans (State.flag_setFlag_same _ _ _ wu (by omega))
  · rw [he.flag_eq w2 (by decide)]
    exact State.flag_setFlag_same _ _ _ w1 (by omega)

theorem completes_converterFail_spare {n : Nat} (hw : nwf s.regs = true) (hn : n < 4) (hc : bitOf s.pins.conv n = true)
    (hp : 3 ≤ popcount 4 (s.pins.conv - 2 ^ n)) :
    Completes (.converterFail n) s fun t => t.pins.conv = s.pins.conv - 2 ^ n ∧ t.flag 0x900008 n = false ∧
      t.flag 0x900008 (4 + n) = true ∧ t.boot = s.boot := by
  obtain ⟨wf, hgood, hfail⟩ := State.failConverter_flags hw hn
  have hx := exec_converterFail hn hc
  rw [State.failConverter_conv, if_pos hp] at hx
  have hwords := (s.failConverter n).moduleEntry_recordWords 0x12 { detail := n }
  refine ⟨_, hx, ?_, ?_, ?_, ?_⟩
  · rw [State.note_pins, State.failConverter_conv]
  · exact (hwords.flag_eq wf (by simp [ModuleEntryWords]) n).trans hgood
  · exact (hwords.flag_eq wf (by simp [ModuleEntryWords]) (4 + n)).trans hfail
  · simp [State.failConverter_boot, hp]

theorem completes_converterFail_last {n : Nat} (hn : n < 4) (hc : bitOf s.pins.conv n = true) (hp : popcount 4 (s.pins.conv - 2 ^ n) < 3) :
    Completes (.converterFail n) s fun t => t.boot.state = .halted ∧ t.boot.inputOk = false ∧ t.pins.pwrgd = false ∧
      t.flash = s.flash ∧ t.fuses = s.fuses ∧ t.hbm = [] := by
  have hx := exec_converterFail hn hc
  rw [State.failConverter_conv, if_neg (by omega)] at hx
  have hr := ((s.failConverter n).moduleEntry 0x13 { detail := n }).fullReset_resetOf true
  have hh := State.halt_haltOf (((s.failConverter n).moduleEntry 0x13 { detail := n }).fullReset true) hrConverter
  refine ⟨_, hx, ?_, ?_, ?_, ?_, ?_, hh.hbm.trans hr.hbm⟩
  · rw [hh.boot]
  · simp [hh.boot, hr.boot, State.failConverter_boot, hp]
  · rw [hh.pins, hr.pins, State.moduleEntry_pins]
    simp [State.failConverter_pwrgd, hp]
  · rw [hh.flash, hr.flash, State.moduleEntry_flash, State.failConverter_flash]
  · rw [hh.fuses, hr.fuses, State.moduleEntry_fuses, State.failConverter_fuses]

/-! ## Rails and the input (R486, R525) -/

theorem exec_railFault {n : Nat} (hn : n < 28) (hup : railRank n < s.boot.railsUp) (hs : s.serves = true) :
    exec (.railFault n) s =
      if n < 16 then .next (s.computeFault none 0x17 { detail := n } []) else .next (s.moduleFault 0x18 { detail := n }) := by
  obtain ⟨hstandby, hhalted⟩ := State.state_of_serves hs
  show execRailFault n s = _
  rw [execRailFault, if_neg (by simp only [hstandby, hhalted, or_false]; omega)]

theorem completes_railFault_die {n : Nat} (hw : nwf s.regs = true) (hn : n < 16) (hup : railRank n < s.boot.railsUp) (hs : s.serves = true)
    (hr : s.inRecovery = false) :
    Completes (.railFault n) s fun t => t.recov.due = some [] ∧ t.tiles = s.tiles := by
  have hx := exec_railFault (Nat.lt_trans hn (by decide)) hup hs
  rw [if_pos hn, State.computeFault_due _ _ _ hw hs hr] at hx
  exact ⟨_, hx, rfl, State.moduleEntry_tiles _ _ _⟩

theorem completes_railFault_module {n : Nat} (hw : nwf s.regs = true) (hlo : 16 ≤ n) (hn : n < 28) (hup : railRank n < s.boot.railsUp)
    (hs : s.serves = true) (hr : s.inRecovery = false) (hwin : s.recov.window = false) (hm : s.mayStart = true) :
    Completes (.railFault n) s fun t => t.boot.state = .starting ∧ t.hbm = [] ∧ t.flash = s.flash ∧ t.fuses = s.fuses := by
  have hx := exec_railFault hn hup hs
  rw [if_neg (by omega), State.moduleFault_restart _ _ hw (State.state_of_serves hs).2 hr hwin] at hx
  have hm' : (s.moduleEntry 0x18 { detail := n }).mayStart = true := by
    rw [State.mayStart, State.moduleEntry_boot, State.moduleEntry_pins]
    exact hm
  obtain ⟨hstate, hhbm, hflash, hfuses⟩ := State.restart_starts true hm'
  exact ⟨_, hx, hstate, hhbm, hflash.trans (State.moduleEntry_flash _ _ _), hfuses.trans (State.moduleEntry_fuses _ _ _)⟩

theorem completes_powerGoodLoss (out : Bool) (hv : s.pins.v48 = true) :
    Completes (.powerGoodLoss out) s fun t => t.boot.state = .standby ∧ t.boot.inputOk = false ∧ t.pins.pwrgd = false ∧
      t.pins.v48 = false ∧ t.hbm = [] ∧ t.tiles = State.reset.tiles ∧ t.flash = s.flash ∧ t.fuses = s.fuses := by
  have hr := (s.fullReset_resetOf false).alert 4
  have hstate : ((s.fullReset false).alert 4).boot.state = .standby := by rw [hr.boot]; rfl
  refine ⟨_, if_neg (by simp [hv]), ?_⟩
  cases out <;> exact ⟨hstate, rfl, rfl, rfl, hr.hbm, hr.tiles, hr.flash, hr.fuses⟩

end

/-- Settles O26: showing the dies' levels changes PWR_DIE and Vitrine's words alone, a failed converter is shown before anything follows
from it, and a full module reset leaves flash, fuses and the pins that a start hangs on. -/
theorem droopThrottleConvertersAndRails : Obligations.DroopThrottleConvertersAndRails := by
  intro s htidy
  have hw := State.tidy_regs htidy
  exact ⟨fun d hd hs hn => completes_droopDetect hw hd hs hn,
    fun d => completes_droopRelease d,
    fun at_ ht => completes_throttleLow at_ ht,
    fun at_ l hlow ht hat hs => completes_throttleAccept hw hlow ht hat hs,
    fun at_ ht hlow => completes_throttleHigh_idle at_ ht hlow,
    fun at_ l ht hlow hat hs => completes_throttleHigh_glitch hw ht hlow hat hs,
    fun at_ f h hf hh ht haf hah => completes_throttleRelease hw hf hh ht haf hah,
    fun n hn hc hp => completes_converterFail_spare hw hn hc hp,
    fun n hn hc hp => completes_converterFail_last hn hc hp,
    fun n hn hup hs hr => completes_railFault_die hw hn hup hs hr,
    fun n hlo hn hup hs hr hwin hm => completes_railFault_module hw hlo hn hup hs hr hwin hm,
    fun out hv => completes_powerGoodLoss out hv⟩

end Sys2Proof.Machine
end


section
/-!
PROOFS. Every command keeps what `Good` says, and with it the fuses: O7.
-/

namespace Sys2Proof.Machine

/-- Whatever the command, a state that it answers is `Good` after every state that the one it found is `Good` after. -/
theorem exec_good {s₀ s : State} (c : Instr) (h : Good s₀ s) : GoodOut s₀ (exec c s) :=
  match c with
  | .registerWrite .. => execRegisterWrite_good h
  | .pcieAtomicop .. => execPcieAtomicop_good h
  | .bar2Read .. => execBar2Read_good h
  | .bar2Write .. => execBar2Write_good h
  | .pfFlr => execPfFlr_good h
  | .vfFlr .. => execVfFlr_good h
  | .vfAccessLoss .. => execVfAccessLoss_good h
  | .powerGood .. => execPowerGood_good h
  | .powerGoodLoss .. => execPowerGoodLoss_good h
  | .perstAssert => execPerstAssert_good h
  | .perstDeassert => execPerstDeassert_good h
  | .matedOpen => execMatedOpen_good h
  | .matedClose => execMatedClose_good h
  | .pcieFunctionReady => execPcieFunctionReady_good h
  | .startSequence .. => execStartSequence_good h
  | .mbxWriteCat .. => execMbxWriteCat_good h
  | .mbxWriteFw .. => execMbxWriteFw_good h
  | .mbxEnrolKey .. => execMbxEnrolKey_good h
  | .mbxRevokeKey .. => execMbxRevokeKey_good h
  | .mbxRestart => execMbxRestart_good h
  | .mbxBadCmd .. => execMbxBadCmd_good h
  | .mbxCommandEnd .. => execMbxCommandEnd_good h
  | .tickInEdge .. => execTickInEdge_good h
  | .tickInWindowExpiry .. => execTickInWindowExpiry_good h
  | .tickInHoldover .. => execTickInHoldover_good h
  | .tickSymbolReceive .. => execTickSymbolReceive_good h
  | .tickBoundary .. => execTickBoundary_good h
  | .tickOutEnd => execTickOutEnd_good h
  | .holdoverEntry .. => execHoldoverEntry_good h
  | .holdoverLimit => execHoldoverLimit_good h
  | .successionTakeover .. => execSuccessionTakeover_good h
  | .masterRelinquish .. => execMasterRelinquish_good h
  | .delayEcho => execDelayEcho_good h
  | .delayEchoReceive .. => execDelayEchoReceive_good h
  | .censusReceive .. => execCensusReceive_good h
  | .tickOriginateTimeout .. => execTickOriginateTimeout_good h
  | .tickLockTimeout => execTickLockTimeout_good h
  | .schSelWrite .. => execSchSelWrite_good h
  | .entryOpen .. => execEntryOpen_good h
  | .entryEnd .. => execEntryEnd_good h
  | .marginStart => execMarginStart_good h
  | .bgAtomStart .. => execBgAtomStart_good h
  | .bgAtomComplete .. => execBgAtomComplete_good h
  | .bgDeadlineExpiry .. => execBgDeadlineExpiry_good h
  | .preempt .. => execPreempt_good h
  | .overrunExpiry .. => execOverrunExpiry_good h
  | .tickWorkComplete .. => execTickWorkComplete_good h
  | .programLaunch .. => execProgramLaunch_good h
  | .tileFetchFault .. => execTileFetchFault_good h
  | .invalidOpcode .. => execInvalidOpcode_good h
  | .nop .. => execNop_good h
  | .endProgram .. => execEndProgram_good h
  | .barrier .. => execBarrier_good h
  | .loop .. => execLoop_good h
  | .acq .. => execAcq_good h
  | .rel .. => execRel_good h
  | .fence .. => execFence_good h
  | .cwait .. => execCwait_good h
  | .cwaitSatisfied .. => execCwaitSatisfied_good h
  | .cset .. => execCset_good h
  | .matmul .. => execMatmul_good h
  | .matmulSide .. => execMatmulSide_good h
  | .vld .. => execVld_good h
  | .vst .. => execVst_good h
  | .vbcast .. => execVbcast_good h
  | .viota .. => execViota_good h
  | .vadd .. => execVadd_good h
  | .vsub .. => execVsub_good h
  | .vmul .. => execVmul_good h
  | .vfma .. => execVfma_good h
  | .vmax .. => execVmax_good h
  | .vmin .. => execVmin_good h
  | .vabs .. => execVabs_good h
  | .vneg .. => execVneg_good h
  | .vcmp .. => execVcmp_good h
  | .vsel .. => execVsel_good h
  | .vexp .. => execVexp_good h
  | .vrcp .. => execVrcp_good h
  | .vrsq .. => execVrsq_good h
  | .vrsum .. => execVrsum_good h
  | .vrmax .. => execVrmax_good h
  | .vrmin .. => execVrmin_good h
  | .iadd .. => execIadd_good h
  | .isub .. => execIsub_good h
  | .imul .. => execImul_good h
  | .imulhi .. => execImulhi_good h
  | .iand .. => execIand_good h
  | .ior .. => execIor_good h
  | .ixor .. => execIxor_good h
  | .ishl .. => execIshl_good h
  | .ishr .. => execIshr_good h
  | .icmp .. => execIcmp_good h
  | .vcvt .. => execVcvt_good h
  | .vpext .. => execVpext_good h
  | .kop .. => execKop_good h
  | .vflag .. => execVflag_good h
  | .vrng .. => execVrng_good h
  | .qstatGatherNew .. => execQstatGatherNew_good h
  | .qstatGather .. => execQstatGather_good h
  | .qstatFinish .. => execQstatFinish_good h
  | .qstatMerge .. => execQstatMerge_good h
  | .qconv .. => execQconv_good h
  | .vtopk .. => execVtopk_good h
  | .vsample .. => execVsample_good h
  | .attn .. => execAttn_good h
  | .keyGroupFetch .. => execKeyGroupFetch_good h
  | .attnMerge .. => execAttnMerge_good h
  | .xstart .. => execXstart_good h
  | .rgnOpen .. => execRgnOpen_good h
  | .rgnClose .. => execRgnClose_good h
  | .slotWait .. => execSlotWait_good h
  | .slotRelease .. => execSlotRelease_good h
  | .cxEnc .. => execCxEnc_good h
  | .cxDec .. => execCxDec_good h
  | .cxTload .. => execCxTload_good h
  | .cxHist .. => execCxHist_good h
  | .instructionComplete .. => execInstructionComplete_good h
  | .programComplete .. => execProgramComplete_good h
  | .slotMark .. => execSlotMark_good h
  | .slotMarkSeen .. => execSlotMarkSeen_good h
  | .descriptorFetch .. => execDescriptorFetch_good h
  | .copy .. => execCopy_good h
  | .fill .. => execFill_good h
  | .convert .. => execConvert_good h
  | .link .. => execLink_good h
  | .transferRequestComplete .. => execTransferRequestComplete_good h
  | .codecBlock .. => execCodecBlock_good h
  | .codecTloadApply .. => execCodecTloadApply_good h
  | .attachmentJoin .. => execAttachmentJoin_good h
  | .joinWindowExpiry .. => execJoinWindowExpiry_good h
  | .joinRetryTimer .. => execJoinRetryTimer_good h
  | .bypassSettleTimeout .. => execBypassSettleTimeout_good h
  | .identSend .. => execIdentSend_good h
  | .identReceive .. => execIdentReceive_good h
  | .portPartnerLoss .. => execPortPartnerLoss_good h
  | .portRetrainComplete .. => execPortRetrainComplete_good h
  | .attachmentDown .. => execAttachmentDown_good h
  | .lnkRetry .. => execLnkRetry_good h
  | .laneFail .. => execLaneFail_good h
  | .linkBlockReceive .. => execLinkBlockReceive_good h
  | .linkResendTimeout .. => execLinkResendTimeout_good h
  | .packetWrite .. => execPacketWrite_good h
  | .remoteWriteRefused .. => execRemoteWriteRefused_good h
  | .packetSignal .. => execPacketSignal_good h
  | .packetAck .. => execPacketAck_good h
  | .packetControl .. => execPacketControl_good h
  | .e2eResendTimeout .. => execE2eResendTimeout_good h
  | .servingAnnouncement .. => execServingAnnouncement_good h
  | .servingTableRequest .. => execServingTableRequest_good h
  | .heartbeatSend => execHeartbeatSend_good h
  | .heartbeatReceive => execHeartbeatReceive_good h
  | .twinLossTimeout => execTwinLossTimeout_good h
  | .twinReturn => execTwinReturn_good h
  | .collBind .. => execCollBind_good h
  | .collUnbind .. => execCollUnbind_good h
  | .collAllreduce .. => execCollAllreduce_good h
  | .collReduceScatter .. => execCollReduceScatter_good h
  | .collAllgather .. => execCollAllgather_good h
  | .collAlltoall .. => execCollAlltoall_good h
  | .collAlltoallv .. => execCollAlltoallv_good h
  | .collBarrier .. => execCollBarrier_good h
  | .collTokenReceive .. => execCollTokenReceive_good h
  | .collAbortReceive .. => execCollAbortReceive_good h
  | .collSegmentStart .. => execCollSegmentStart_good h
  | .collComplete .. => execCollComplete_good h
  | .doorbell .. => execDoorbell_good h
  | .ringEnable .. => execRingEnable_good h
  | .ringDisable .. => execRingDisable_good h
  | .commandFetch .. => execCommandFetch_good h
  | .commandReport .. => execCommandReport_good h
  | .ringTimeout .. => execRingTimeout_good h
  | .cmdNop .. => execCmdNop_good h
  | .cmdMatmul .. => execCmdMatmul_good h
  | .cmdAttn .. => execCmdAttn_good h
  | .cmdVec .. => execCmdVec_good h
  | .cmdQstat .. => execCmdQstat_good h
  | .cmdQconv .. => execCmdQconv_good h
  | .cmdXfer .. => execCmdXfer_good h
  | .cmdCodec .. => execCmdCodec_good h
  | .pageAlloc .. => execPageAlloc_good h
  | .pageFree .. => execPageFree_good h
  | .pageShare .. => execPageShare_good h
  | .pageCopy .. => execPageCopy_good h
  | .sessionFeed .. => execSessionFeed_good h
  | .sessionOpen .. => execSessionOpen_good h
  | .setSampling .. => execSetSampling_good h
  | .setStop .. => execSetStop_good h
  | .sessionStop .. => execSessionStop_good h
  | .sessionClose .. => execSessionClose_good h
  | .sessionPark .. => execSessionPark_good h
  | .sessionUnpark .. => execSessionUnpark_good h
  | .sessionTruncate .. => execSessionTruncate_good h
  | .sessionMigrate .. => execSessionMigrate_good h
  | .migrateConfirm .. => execMigrateConfirm_good h
  | .recipeLoad .. => execRecipeLoad_good h
  | .recipePatch .. => execRecipePatch_good h
  | .recipeLaunch .. => execRecipeLaunch_good h
  | .route .. => execRoute_good h
  | .routeItemPlace .. => execRouteItemPlace_good h
  | .cmdSignal .. => execCmdSignal_good h
  | .cmdWait .. => execCmdWait_good h
  | .waitSatisfied .. => execWaitSatisfied_good h
  | .cmdFence .. => execCmdFence_good h
  | .larderCopyComplete .. => execLarderCopyComplete_good h
  | .mirrorRecordReceive .. => execMirrorRecordReceive_good h
  | .mirrorMarkReceive .. => execMirrorMarkReceive_good h
  | .freeze .. => execFreeze_good h
  | .unfreeze .. => execUnfreeze_good h
  | .tenantReset .. => execTenantReset_good h
  | .tenantResetComplete .. => execTenantResetComplete_good h
  | .twinModeRequest .. => execTwinModeRequest_good h
  | .twinModeRequestReceive .. => execTwinModeRequestReceive_good h
  | .resyncComplete .. => execResyncComplete_good h
  | .publish .. => execPublish_good h
  | .commonDigestComplete .. => execCommonDigestComplete_good h
  | .wsetGo .. => execWsetGo_good h
  | .wsetDigestComplete .. => execWsetDigestComplete_good h
  | .faultClear .. => execFaultClear_good h
  | .fltClear => execFltClear_good h
  | .cpReset => execCpReset_good h
  | .handover => execHandover_good h
  | .ladleCtlWrite .. => execLadleCtlWrite_good h
  | .ladleLaunchComplete .. => execLadleLaunchComplete_good h
  | .batchListReceive .. => execBatchListReceive_good h
  | .ladleCreditReceive .. => execLadleCreditReceive_good h
  | .returnReceive .. => execReturnReceive_good h
  | .epochBoundary .. => execEpochBoundary_good h
  | .residentCopyComplete .. => execResidentCopyComplete_good h
  | .reflowNoticeReceive .. => execReflowNoticeReceive_good h
  | .stepRecordReceive .. => execStepRecordReceive_good h
  | .unitComplete .. => execUnitComplete_good h
  | .unitDigestReceive .. => execUnitDigestReceive_good h
  | .computePartReset => execComputePartReset_good h
  | .computePartRelease => execComputePartRelease_good h
  | .suspectWindow .. => execSuspectWindow_good h
  | .suspectReplayLimit => execSuspectReplayLimit_good h
  | .mcFailover => execMcFailover_good h
  | .escalationWindowEnd => execEscalationWindowEnd_good h
  | .wearInterval => execWearInterval_good h
  | .accessionAppend .. => execAccessionAppend_good h
  | .hbmPageCopyComplete .. => execHbmPageCopyComplete_good h
  | .vacancyTimeout .. => execVacancyTimeout_good h
  | .phaseTrip .. => execPhaseTrip_good h
  | .powerSample .. => execPowerSample_good h
  | .tempSample .. => execTempSample_good h
  | .thermalUpdate => execThermalUpdate_good h
  | .droopDetect .. => execDroopDetect_good h
  | .droopRelease .. => execDroopRelease_good h
  | .throttleLow .. => execThrottleLow_good h
  | .throttleAccept .. => execThrottleAccept_good h
  | .throttleHigh .. => execThrottleHigh_good h
  | .throttleRelease .. => execThrottleRelease_good h
  | .converterFail .. => execConverterFail_good h
  | .railFault .. => execRailFault_good h
  | .pwrModLimitWrite .. => execPwrModLimitWrite_good h
  | .vitRestart => execVitRestart_good h
  | .traceFrameSend => execTraceFrameSend_good h
  | .jtagExtest .. => execJtagExtest_good h
  | .jtagSamplePreload .. => execJtagSamplePreload_good h
  | .jtagIdcode => execJtagIdcode_good h
  | .jtagBypass .. => execJtagBypass_good h
  | .smbStatus => execSmbStatus_good h
  | .smbPower => execSmbPower_good h
  | .smbTemp => execSmbTemp_good h
  | .smbIdent => execSmbIdent_good h
  | .smbPosition => execSmbPosition_good h
  | .smbAlert => execSmbAlert_good h
  | .smbAlertClr .. => execSmbAlertClr_good h
  | .registerRead .. => execRegisterRead_good h
  | .pcieCompletionTimeout .. => execPcieCompletionTimeout_good h
  | .linkTrainingTimeout => execLinkTrainingTimeout_good h
  | .ccFail .. => execCcFail_good h
  | .memorySpaceDisable .. => execMemorySpaceDisable_good h
  | .pcieEnableRestore .. => execPcieEnableRestore_good h
  | .hbmScrub .. => execHbmScrub_good h
  | .smbUnlistedCommand => execSmbUnlistedCommand_good h

/-- A step is the front command on the state with the queue's rest, which is no part of what the command keeps. -/
theorem step_of_pending {s : State} {c : Instr} {rest : List Instr} (h : s.pending = c :: rest) : step s = exec c { s with pending := rest } := by
  rw [step, h]

/-- Settles O7: each command burns fuses only as one-time programming allows, and taking it from the queue touches none. -/
theorem fusesOnlyGoOneWay : Obligations.FusesOnlyGoOneWay := by
  intro s t hstep
  cases hq : s.pending with
  | nil =>
    have hidle : step s = .next s := by rw [step, hq]
    cases hidle.symm.trans hstep
    exact fusesAfter_refl _
  | cons c rest => exact (exec_good c (.refl { s with pending := rest }) t ((step_of_pending hq).symm.trans hstep)).fuses

end Sys2Proof.Machine
end


section
/-!
PROOFS. The reset values of the registers: O9.
-/

namespace Sys2Proof.Machine

/-- Every tenant's Ladle settings read their reset values (R458). -/
theorem reset_ladleSettings : ∀ t < 16, State.reset.word (tnt t 0x304) = 0x10000 ∧ State.reset.word (tnt t 0x308) = 0x10000 ∧
    State.reset.word (tnt t 0x30C) = 0x20000100 := by
  decide +kernel

/-- LOG2 and TICKS of every ring read their reset values (R410). -/
theorem reset_ringSettings : ∀ t < 16, ∀ r < 8, State.reset.word (rng t r 0x4) = 6 ∧ State.reset.word (rng t r 0x2C) = 1000 := by
  decide +kernel

/-- Settles O9: the bank at reset is a list of the words that are not zero, and HBM and the counters list nothing. -/
theorem resetValuesOfTheRegisters : Obligations.ResetValuesOfTheRegisters :=
  ⟨rfl, rfl, by decide, by decide, reset_ladleSettings, fun t r ht hr => reset_ringSettings t ht r hr, fun _ => rfl, fun _ => rfl, rfl, rfl, rfl⟩

end Sys2Proof.Machine
end


section
/-!
PROOFS. The power and reset pins: what the begin of a start leaves, what a full module reset returns to reset, and O10.
-/

namespace Sys2Proof.Machine

/-! ## Resets and starts (R42, R49) -/

section
variable (s : State)

/-- The engines' state after a full module reset is that of `State.reset`: beside the registers, only what the always-on controller
holds, the window of R500 and the model's own fields can differ. -/
theorem State.fullReset_engines :
    s.fullReset false =
      { State.reset with
        regs := (s.fullReset false).regs, flash := s.flash, fuses := s.fuses, pins := (s.fullReset false).pins,
        boot := { Boot.reset with inputOk := s.boot.inputOk, perstShort := s.boot.perstShort }, aoc := (s.fullReset false).aoc,
        outbox := s.outbox, freeCtr := s.freeCtr, pending := s.pending } := by
  by_cases hs : s.boot.state = .standby <;> simp only [State.fullReset, hs, if_true, if_false, Bool.false_eq_true] <;> rfl

@[simp] theorem State.beginStart_flash : s.beginStart.flash = s.flash := by
  unfold State.beginStart
  split <;> rfl

@[simp] theorem State.beginStart_fuses : s.beginStart.fuses = s.fuses := by
  unfold State.beginStart
  split <;> rfl

@[simp] theorem State.beginStart_inputOk : s.beginStart.boot.inputOk = s.boot.inputOk := by
  unfold State.beginStart
  split <;> rfl

theorem State.beginStart_pins : s.beginStart.pins = { s.pins with smbAlert := s.beginStart.pins.smbAlert } := by
  unfold State.beginStart
  split <;> rfl

variable {s}

/-- Where a start may begin it does, and remembers which keys are revoked now (R50). -/
theorem State.beginStart_starts (h : s.mayStart = true) :
    s.beginStart.boot = { s.boot with state := .starting, keysAtStart := s.fuses.revoked } := by
  rw [State.beginStart_of_mayStart h]
  rfl

theorem State.mayStart_iff :
    s.mayStart = true ↔ s.boot.inputOk = true ∧ s.pins.perst = false ∧ s.pins.mated = true ∧ s.pins.boardTest = false := by
  simp [State.mayStart, and_assoc]

/-! ## POWER_GOOD (R42, R547) -/

/-- The state in which POWER_GOOD has been noted, before a start begins. -/
def State.notePower (s : State) (conv : Nat) (b : Bool) : State :=
  let good := decide (3 ≤ popcount 4 conv)
  { s with
    pins := { s.pins with v48 := true, conv := conv % 16, pwrgd := good, boardTest := if good then b else s.pins.boardTest }
    boot := { s.boot with inputOk := good } }

theorem exec_powerGood (conv : Nat) (b : Bool) (h : s.boot.inputOk = false) :
    exec (.powerGood conv b) s = .next (if decide (3 ≤ popcount 4 conv) && s.boot.state == .standby then (s.notePower conv b).beginStart
      else s.notePower conv b) := by
  show execPowerGood conv b s = _
  rw [execPowerGood, if_neg (by simp [h])]
  rfl

/-- What POWER_GOOD notes stands whether or not a start begins. -/
theorem completes_powerGood (conv : Nat) (b : Bool) (h : s.boot.inputOk = false) :
    Completes (.powerGood conv b) s fun t =>
      t.boot.inputOk = decide (3 ≤ popcount 4 conv) ∧ t.pins.pwrgd = decide (3 ≤ popcount 4 conv) ∧ t.pins.conv = conv % 16 ∧
      t.pins.v48 = true ∧ (3 ≤ popcount 4 conv → t.pins.boardTest = b) ∧ t.flash = s.flash ∧ t.fuses = s.fuses := by
  have htest : 3 ≤ popcount 4 conv → (s.notePower conv b).pins.boardTest = b := fun hg => if_pos (decide_eq_true hg)
  refine ⟨_, exec_powerGood conv b h, ?_⟩
  split
  · rw [State.beginStart_pins, State.beginStart_flash, State.beginStart_fuses, State.beginStart_inputOk]
    exact ⟨rfl, rfl, rfl, rfl, htest, rfl, rfl⟩
  · exact ⟨rfl, rfl, rfl, rfl, htest, rfl, rfl⟩

theorem completes_powerGood_again (conv : Nat) (b : Bool) (h : s.boot.inputOk = true) :
    Completes (.powerGood conv b) s fun t => t = s := by
  refine ⟨s, ?_, rfl⟩
  show execPowerGood conv b s = _
  rw [execPowerGood, if_pos h]

theorem completes_powerGood_starts {conv : Nat} (hg : 3 ≤ popcount 4 conv) (h : s.boot.inputOk = false) (hs : s.boot.state = .standby)
    (hp : s.pins.perst = false) (hm : s.pins.mated = true) :
    Completes (.powerGood conv false) s fun t => t.boot.state = .starting ∧ t.boot.keysAtStart = s.fuses.revoked := by
  have hstart : (s.notePower conv false).mayStart = true :=
    State.mayStart_iff.mpr ⟨decide_eq_true hg, hp, hm, if_pos (decide_eq_true hg)⟩
  have hboot := State.beginStart_starts hstart
  refine ⟨_, exec_powerGood conv false h, ?_⟩
  rw [if_pos (by simp [hg, hs])]
  exact ⟨congrArg Boot.state hboot, congrArg Boot.keysAtStart hboot⟩

/-! ## PERST#, MATED# and the function (R46, R49, R570) -/

/-- What PERST# and MATED# put back to reset when they take the module down: whatever the pins then read. -/
theorem State.fullReset_withPins (p : Pins) :
    let t : State := { s.fullReset false with pins := p }
    t.boot.state = .standby ∧ t.flash = s.flash ∧ t.fuses = s.fuses ∧ t.hbm = [] ∧ t.ctrs = [] ∧
      t.tiles = State.reset.tiles ∧ t.lrd = Larder.reset ∧ t.twin = State.reset.twin ∧ t.vfEnable = false := by
  rw [State.fullReset_engines]
  exact ⟨rfl, rfl, rfl, rfl, rfl, rfl, rfl, rfl, rfl⟩

theorem completes_perstAssert :
    Completes .perstAssert s fun t =>
      t.boot.state = .standby ∧ t.pins.perst = true ∧ t.flash = s.flash ∧ t.fuses = s.fuses ∧ t.hbm = [] ∧ t.ctrs = [] ∧
      t.tiles = State.reset.tiles ∧ t.lrd = Larder.reset ∧ t.twin = State.reset.twin ∧ t.vfEnable = false := by
  obtain ⟨hstate, hrest⟩ := s.fullReset_withPins { s.pins with perst := true, tickOut := false }
  exact ⟨_, rfl, hstate, rfl, hrest⟩

theorem completes_matedOpen :
    Completes .matedOpen s fun t =>
      t.boot.state = .standby ∧ t.pins.mated = false ∧ t.flash = s.flash ∧ t.fuses = s.fuses ∧ t.hbm = [] ∧ t.ctrs = [] ∧
      t.tiles = State.reset.tiles ∧ t.lrd = Larder.reset ∧ t.twin = State.reset.twin ∧ t.vfEnable = false := by
  obtain ⟨hstate, hrest⟩ := s.fullReset_withPins { s.pins with mated := false, tickOut := false }
  exact ⟨_, rfl, hstate, rfl, hrest⟩

theorem completes_perstDeassert (hp : s.pins.perst = true) (hi : s.boot.inputOk = true) (hm : s.pins.mated = true)
    (hb : s.pins.boardTest = false) :
    Completes .perstDeassert s fun t => t.boot.state = .starting ∧ t.pins.perst = false ∧ t.boot.keysAtStart = s.fuses.revoked := by
  let u : State := { s with pins := { s.pins with perst := false } }
  have hboot := State.beginStart_starts (s := u) (State.mayStart_iff.mpr ⟨hi, rfl, hm, hb⟩)
  refine ⟨_, if_pos hp, congrArg Boot.state hboot, ?_, congrArg Boot.keysAtStart hboot⟩
  rw [State.beginStart_pins]

theorem completes_perstDeassert_short (hp : s.pins.perst = false) :
    Completes .perstDeassert s fun t => t = { s with boot := { s.boot with perstShort := s.boot.perstShort + 1 } } :=
  ⟨_, if_neg (by simp [hp]), rfl⟩

theorem completes_matedClose (hm : s.pins.mated = false) (hi : s.boot.inputOk = true) (hp : s.pins.perst = false)
    (hb : s.pins.boardTest = false) :
    Completes .matedClose s fun t => t.boot.state = .starting ∧ t.pins.mated = true := by
  let u : State := { s with pins := { s.pins with mated := true } }
  have hboot := State.beginStart_starts (s := u) (State.mayStart_iff.mpr ⟨hi, hp, rfl, hb⟩)
  refine ⟨_, if_neg (by simp [hm]), congrArg Boot.state hboot, ?_⟩
  rw [State.beginStart_pins]

theorem completes_pcieFunctionReady (hp : s.pins.perst = false) (hm : s.pins.mated = true) :
    Completes .pcieFunctionReady s fun t => t = { s with pf := { s.pf with ready := true } } :=
  ⟨_, if_neg (by simp [hp, hm]), rfl⟩

end

/-- Settles O10: a start begins exactly where the pins allow it, and a full module reset leaves only what the always-on controller
holds. -/
theorem powerPinsAndResetPins : Obligations.PowerPinsAndResetPins := by
  intro s
  exact ⟨fun conv b h => completes_powerGood conv b h,
    fun conv b h => completes_powerGood_again conv b h,
    fun conv hg h hs hp hm => completes_powerGood_starts hg h hs hp hm,
    completes_perstAssert, completes_matedOpen,
    fun hp hi hm hb => completes_perstDeassert hp hi hm hb,
    fun hp => completes_perstDeassert_short hp,
    fun hm hi hp hb => completes_matedClose hm hi hp hb,
    fun hp hm => completes_pcieFunctionReady hp hm⟩

end Sys2Proof.Machine
end


section
/-!
PROOFS. The mailbox: what accepts, begins and ends a command, and O11.
-/

namespace Sys2Proof.Machine

section
variable {s : State}

/-! ## Accepting, beginning and ending (R52 to R54) -/

theorem State.mbxGate_idle (rom : Bool) (run : State → State) (hb : s.mbxBusy = false) (hr : s.boot.bootRom = false) :
    s.mbxGate rom run = run s := by
  simp [State.mbxGate, hb, hr]

theorem State.mbxGate_busy (rom : Bool) (run : State → State) (hb : s.mbxBusy = true) : s.mbxGate rom run = s.setFld 0x104 8 8 mcBusy :=
  if_pos hb

/-- A command that begins shows BUSY. -/
theorem State.mbxBegin_busy (op : MbxOp) (code : Nat) (hw : nwf s.regs = true) : (s.mbxBegin op code).mbxBusy = true :=
  State.flag_setFlag_same _ _ _ hw (by decide)

/-- A command that is dropped leaves BUSY in CODE, and the one that runs goes on. -/
theorem State.mbxDrop (hw : nwf s.regs = true) :
    (s.setFld 0x104 8 8 mcBusy).fld 0x104 8 8 = mcBusy ∧ (s.setFld 0x104 8 8 mcBusy).mbxBusy = s.mbxBusy := by
  refine ⟨State.fld_setFld_same _ _ _ _ hw (by decide), ?_⟩
  rw [State.mbxBusy, State.flag, State.fld_setFld_below _ hw (by decide) (by decide)]
  rfl

/-- The end of a command: BUSY clears, DONE is set and CODE shows how it ended. -/
theorem State.mbxEnd_shows (code : Nat) (hw : nwf s.regs = true) :
    (s.mbxEnd code).mbxBusy = false ∧ (s.mbxEnd code).flag 0x104 1 = true ∧ (s.mbxEnd code).fld 0x104 8 8 = code % 256 := by
  unfold State.mbxEnd
  extract_lets boot u
  have w0 : nwf u.regs = true := hw
  have w1 := State.nwf_setFlag 0x104 0 false w0
  have w2 := State.nwf_setFlag 0x104 1 true w1
  have w3 := State.nwf_setFld 0x104 8 8 code w2
  have he := State.modEvent_words (P := (· = 0x30)) (((u.setFlag 0x104 0 false).setFlag 0x104 1 true).setFld 0x104 8 8 code) 0 rfl
  have hbelow : ∀ b < 8, (((u.setFlag 0x104 0 false).setFlag 0x104 1 true).setFld 0x104 8 8 code).flag 0x104 b =
      ((u.setFlag 0x104 0 false).setFlag 0x104 1 true).flag 0x104 b := fun b hb => by
    rw [State.flag, State.fld_setFld_below _ w2 (by decide) hb, State.flag]
  refine ⟨?_, ?_, ?_⟩
  · rw [State.mbxBusy, he.flag_eq w3 (by decide), hbelow 0 (by decide), State.flag_setFlag_bit _ w1 (by decide) (by decide),
      State.flag_setFlag_same _ _ _ w0 (by decide)]
  · rw [he.flag_eq w3 (by decide), hbelow 1 (by decide), State.flag_setFlag_same _ _ _ w1 (by decide)]
  · exact (he.fld_eq w3 (by decide) 8 8).trans (State.fld_setFld_same _ _ _ _ w2 (by decide))

theorem State.mbxEnd_boot (code : Nat) :
    (s.mbxEnd code).boot = { s.boot with mbxRun := none, mbxCode := 0, mbxCat := none, mbxFw := none } := by
  rw [State.mbxEnd, State.modEvent_boot]
  rfl

theorem State.mbxEnd_flash (code : Nat) : (s.mbxEnd code).flash = s.flash := by
  rw [State.mbxEnd, State.modEvent_flash]
  rfl

theorem State.mbxEnd_fuses (code : Nat) : (s.mbxEnd code).fuses = s.fuses := by
  rw [State.mbxEnd, State.modEvent_fuses]
  rfl

/-! ## WRITE_CAT and WRITE_FW (R53) -/

/-- The inactive slot is the first one exactly where the second is in use. -/
theorem State.inactiveSlot_eq_zero (s : State) (b : Nat) : 1 - s.fld 0x120 b 1 = 0 ↔ s.fld 0x120 b 1 = 1 := by
  have h : s.fld 0x120 b 1 < 2 := Nat.mod_lt _ (by decide)
  omega

/-- The flash in which the Catalogue slot that is not in use is erased. -/
def State.eraseCat (s : State) : Flash := if 1 - s.fld 0x120 5 1 = 0 then { s.flash with catA := none } else { s.flash with catB := none }

/-- The flash in which the firmware slot that is not in use is erased. -/
def State.eraseFw (s : State) : Flash := if 1 - s.fld 0x120 4 1 = 0 then { s.flash with fw0 := none } else { s.flash with fw1 := none }

theorem State.eraseCat_erases (s : State) :
    if s.fld 0x120 5 1 = 1 then s.eraseCat.catA = none ∧ s.eraseCat.catB = s.flash.catB
    else s.eraseCat.catB = none ∧ s.eraseCat.catA = s.flash.catA := by
  simp only [State.eraseCat, s.inactiveSlot_eq_zero]
  split <;> exact ⟨rfl, rfl⟩

theorem State.eraseFw_erases (s : State) :
    if s.fld 0x120 4 1 = 1 then s.eraseFw.fw0 = none ∧ s.eraseFw.fw1 = s.flash.fw1
    else s.eraseFw.fw1 = none ∧ s.eraseFw.fw0 = s.flash.fw0 := by
  simp only [State.eraseFw, s.inactiveSlot_eq_zero]
  split <;> exact ⟨rfl, rfl⟩

section
variable (hw : nwf s.regs = true) (hb : s.mbxBusy = false) (hr : s.boot.bootRom = false)
include hw hb hr

theorem completes_mbxWriteCat_refused (image again : Option (List Byte)) (hc : s.mbxCatCode image ≠ mcOk) :
    Completes (.mbxWriteCat image again) s fun t =>
      t.mbxBusy = true ∧ t.boot.mbxRun = some .writeCat ∧ t.boot.mbxCode = s.mbxCatCode image ∧ t.flash = s.flash := by
  have hx : s.mbxWriteCat image again = s.mbxBegin .writeCat (s.mbxCatCode image) :=
    (State.mbxGate_idle _ _ hb hr).trans (if_pos hc)
  exact ⟨_, congrArg Host.Outcome.next hx, State.mbxBegin_busy _ _ hw, rfl, rfl, rfl⟩

theorem completes_mbxWriteCat (image : Option (List Byte)) (img : List Byte) :
    Completes (.mbxWriteCat image (some img)) s fun t =>
      t.mbxBusy = true ∧ t.boot.mbxRun = some .writeCat ∧ t.boot.mbxCode = s.mbxCatCode image ∧
      (if s.mbxCatCode image = mcOk then
        t.boot.mbxCat = some (1 - s.fld 0x120 5 1, img) ∧
        (if s.fld 0x120 5 1 = 1 then t.flash.catA = none ∧ t.flash.catB = s.flash.catB else t.flash.catB = none ∧ t.flash.catA = s.flash.catA)
      else t.flash = s.flash ∧ t.boot.mbxCat = s.boot.mbxCat) := by
  by_cases hc : s.mbxCatCode image = mcOk
  · have hx : s.mbxWriteCat image (some img) =
        ({ s with flash := s.eraseCat, boot := { s.boot with mbxCat := some (1 - s.fld 0x120 5 1, img) } } : State).mbxBegin .writeCat mcOk :=
      (State.mbxGate_idle _ _ hb hr).trans (if_neg (not_not_intro hc))
    refine ⟨_, congrArg Host.Outcome.next hx, State.mbxBegin_busy _ _ hw, rfl, hc.symm, ?_⟩
    rw [if_pos hc]
    exact ⟨rfl, s.eraseCat_erases⟩
  · have hx : s.mbxWriteCat image (some img) = s.mbxBegin .writeCat (s.mbxCatCode image) :=
      (State.mbxGate_idle _ _ hb hr).trans (if_pos hc)
    refine ⟨_, congrArg Host.Outcome.next hx, State.mbxBegin_busy _ _ hw, rfl, rfl, ?_⟩
    rw [if_neg hc]
    exact ⟨rfl, rfl⟩

theorem completes_mbxWriteFw (image : Option Firmware) (f : Firmware) (hc : s.mbxFwCode image = mcOk) :
    Completes (.mbxWriteFw image (some f)) s fun t =>
      t.mbxBusy = true ∧ t.boot.mbxRun = some .writeFw ∧ t.boot.mbxFw = some (1 - s.fld 0x120 4 1, f) ∧
      (if s.fld 0x120 4 1 = 1 then t.flash.fw0 = none ∧ t.flash.fw1 = s.flash.fw1 else t.flash.fw1 = none ∧ t.flash.fw0 = s.flash.fw0) := by
  have hx : s.mbxWriteFw image (some f) =
      ({ s with flash := s.eraseFw, boot := { s.boot with mbxFw := some (1 - s.fld 0x120 4 1, f) } } : State).mbxBegin .writeFw mcOk :=
    (State.mbxGate_idle _ _ hb hr).trans (if_neg (not_not_intro hc))
  exact ⟨_, congrArg Host.Outcome.next hx, State.mbxBegin_busy _ _ hw, rfl, rfl, s.eraseFw_erases⟩

end

/-! ## ENROL_KEY and REVOKE_KEY (R32) -/

theorem State.nwf_showKeys (hw : nwf s.regs = true) : nwf s.showKeys.regs = true :=
  State.nwf_setFld _ _ _ _ (State.nwf_setFld _ _ _ _ (State.nwf_setFld _ _ _ _ hw))

/-- Where no key is enrolled, a well-formed request fills slot 0, whoever signed it. -/
theorem enrolOutcome_first {f now : Fuses} {r : KeyReq} (hr : r.wellFormed = true) (hf : f.enrolled = false) :
    enrolOutcome f now (some r) = (mcOk, some 0) := by
  have hfree : f.keys[0].hash.isNone = true := by
    have h := List.any_eq_false.mp hf f.keys[0] (by simp)
    simpa using h
  have hfind : (List.range 4).find? (fun i => (f.keys.toList[i]?.map fun k => k.hash.isNone).getD false) = some 0 :=
    List.find?_cons_of_pos (by simp [hfree])
  simp only [enrolOutcome, hr, hf, hfind]
  rfl

theorem vupd_get_same {α : Type} {n : Nat} (v : Vector α n) {i : Nat} (hi : i < n) (f : α → α) : (vupd v i f)[i] = f v[i] := by
  simp [vupd, hi]

theorem vupd_get_other {α : Type} {n : Nat} (v : Vector α n) {i j : Nat} (hj : j < n) (f : α → α) (hne : j ≠ i) :
    (vupd v i f)[j] = v[j] := by
  unfold vupd
  split
  · exact Vector.getElem_set_ne _ _ (Ne.symm hne)
  · rfl

section
variable (hw : nwf s.regs = true) (hb : s.mbxBusy = false) (hr : s.boot.bootRom = false) (ha : s.mbxArgOk 0x2000000 = true)
include hw hb hr ha

theorem completes_mbxEnrolKey_first {r : KeyReq} (hwell : r.wellFormed = true) (hf : s.fuses.enrolled = false) :
    Completes (.mbxEnrolKey (some r)) s fun t =>
      t.mbxBusy = true ∧ t.boot.mbxRun = some .enrolKey ∧ t.boot.mbxCode = mcOk ∧ (t.fuses.keys[0].hash = some (sha384 r.key)) := by
  let ks := vupd s.fuses.keys 0 fun k => { k with hash := some (sha384 r.key) }
  have hx : s.mbxEnrolKey (some r) = ({ s with fuses := { s.fuses with keys := ks } } : State).showKeys.mbxBegin .enrolKey mcOk := by
    rw [State.mbxEnrolKey, State.mbxGate_idle _ _ hb hr, if_neg (by simp [ha]), enrolOutcome_first hwell hf]
  have hwk : nwf ({ s with fuses := { s.fuses with keys := ks } } : State).showKeys.regs = true := State.nwf_showKeys hw
  exact ⟨_, congrArg Host.Outcome.next hx, State.mbxBegin_busy _ _ hwk, rfl, rfl, congrArg KeySlot.hash (vupd_get_same _ _ _)⟩

theorem completes_mbxRevokeKey {r : KeyReq} {i : Fin 4} (ho : revokeOutcome s.fuses s.keysNow (some r) = (mcOk, some i.val)) :
    Completes (.mbxRevokeKey (some r)) s fun t =>
      t.mbxBusy = true ∧ t.boot.mbxRun = some .revokeKey ∧ t.fuses.keys[i].revoked = true ∧
      ∀ j : Fin 4, j ≠ i → t.fuses.keys[j] = s.fuses.keys[j] := by
  let ks := vupd s.fuses.keys i fun k => { k with revoked := true }
  have hx : s.mbxRevokeKey (some r) = ({ s with fuses := { s.fuses with keys := ks } } : State).showKeys.mbxBegin .revokeKey mcOk := by
    rw [State.mbxRevokeKey, State.mbxGate_idle _ _ hb hr, if_neg (by simp [ha]), ho]
  have hwk : nwf ({ s with fuses := { s.fuses with keys := ks } } : State).showKeys.regs = true := State.nwf_showKeys hw
  exact ⟨_, congrArg Host.Outcome.next hx, State.mbxBegin_busy _ _ hwk, rfl, congrArg KeySlot.revoked (vupd_get_same _ i.isLt _),
    fun j hj => vupd_get_other _ j.isLt _ (Fin.val_ne_of_ne hj)⟩

end

/-! ## RESTART, a bad command, BUSY, and the end (R53, R54) -/

theorem completes_mbxBadCmd {cmd : Nat} (hw : nwf s.regs = true) (hb : s.mbxBusy = false) (hr : s.boot.bootRom = false)
    (hc : ¬(1 ≤ cmd % 16 ∧ cmd % 16 ≤ 5)) :
    Completes (.mbxBadCmd cmd) s fun t =>
      t.fld 0x104 8 8 = mcBadCmd ∧ t.flag 0x104 1 = true ∧ t.mbxBusy = false ∧ t.flash = s.flash ∧ t.fuses = s.fuses := by
  have hx : s.mbxBad cmd = s.mbxEnd mcBadCmd := by simp [State.mbxBad, hr, hb, hc]
  obtain ⟨hbusy, hdone, hcode⟩ := State.mbxEnd_shows mcBadCmd hw
  exact ⟨_, congrArg Host.Outcome.next hx, hcode, hdone, hbusy, State.mbxEnd_flash _, State.mbxEnd_fuses _⟩

theorem completes_mbxRestart (hb : s.mbxBusy = false) (hm : s.mayStart = true) :
    Completes .mbxRestart s fun t =>
      t.boot.state = .starting ∧ t.flash = s.flash ∧ t.fuses = s.fuses ∧ t.hbm = [] ∧ t.tiles = State.reset.tiles := by
  have hx : s.mbxRestart = s.restart false := if_neg (by simp [hb])
  obtain ⟨hstate, hhbm, hflash, hfuses⟩ := State.restart_starts false hm
  have hr := s.fullReset_resetOf false
  have htiles : (s.restart false).tiles = State.reset.tiles := by
    rw [State.restart, State.beginStart_of_mayStart (hr.mayStart.trans hm)]
    exact hr.tiles
  exact ⟨_, congrArg Host.Outcome.next hx, hstate, hflash, hfuses, hhbm, htiles⟩

theorem completes_mbxWriteCat_busy (hw : nwf s.regs = true) (hb : s.mbxBusy = true) (image again : Option (List Byte)) :
    Completes (.mbxWriteCat image again) s fun t =>
      t.fld 0x104 8 8 = mcBusy ∧ t.mbxBusy = true ∧ t.boot = s.boot ∧ t.flash = s.flash := by
  obtain ⟨hcode, hbusy⟩ := State.mbxDrop hw
  exact ⟨_, congrArg Host.Outcome.next (State.mbxGate_busy _ _ hb), hcode, hbusy.trans hb, rfl, rfl⟩

/-- A running command that programs nothing ends with the code that it began with. -/
theorem completes_mbxCommandEnd {op : MbxOp} (ok : Bool) (hw : nwf s.regs = true) (ho : s.boot.mbxRun = some op) (hc : s.boot.mbxCat = none)
    (hf : s.boot.mbxFw = none) :
    Completes (.mbxCommandEnd ok) s fun t =>
      t.mbxBusy = false ∧ t.flag 0x104 1 = true ∧ t.fld 0x104 8 8 = s.boot.mbxCode % 256 ∧ t.boot.mbxRun = none ∧ t.flash = s.flash := by
  have hp : s.mbxProgram ok = (s, s.boot.mbxCode) := by simp [State.mbxProgram, hc, hf]
  have hx : exec (.mbxCommandEnd ok) s = .next (s.mbxEnd s.boot.mbxCode) := by
    show execMbxCommandEnd ok s = _
    simp [execMbxCommandEnd, ho, hp]
  obtain ⟨hbusy, hdone, hcode⟩ := State.mbxEnd_shows s.boot.mbxCode hw
  exact ⟨_, hx, hbusy, hdone, hcode, congrArg Boot.mbxRun (State.mbxEnd_boot _), State.mbxEnd_flash _⟩

end

/-- Settles O11: an idle mailbox runs what it is given, a busy one drops it, and the end shows the code. -/
theorem mailboxCommandsStartAndEnd : Obligations.MailboxCommandsStartAndEnd := by
  intro s htidy
  have hw := State.tidy_regs htidy
  exact ⟨fun hb hr => ⟨fun image again hc => completes_mbxWriteCat_refused hw hb hr image again hc,
      fun image img => completes_mbxWriteCat hw hb hr image img,
      fun image f hc => completes_mbxWriteFw hw hb hr image f hc,
      fun r ha hwell hf => completes_mbxEnrolKey_first hw hb hr ha hwell hf,
      fun r i ha ho => completes_mbxRevokeKey hw hb hr ha ho,
      fun cmd hc => completes_mbxBadCmd hw hb hr hc⟩,
    fun hb hm => completes_mbxRestart hb hm,
    fun hb image again => completes_mbxWriteCat_busy hw hb image again,
    fun op ok ho hc hf => completes_mbxCommandEnd ok hw ho hc hf⟩

end Sys2Proof.Machine
end


section
/-!
PROOFS. Tick symbols, the lock at start and a boundary's own part: O13.
-/

namespace Sys2Proof.Machine

/-! ## What leaves on the trained attachments (R59, R61) -/

/-- A loop that sends `f` of each trained attachment changes nothing but the outbox; what it sends depends on nothing that it sent. -/
theorem State.foldl_attUp_sends {g : State → Nat → State} {f : State → Nat → List Out}
    (hg : ∀ u k, g u k = if u.attUp k then { u with outbox := u.outbox ++ f u k } else u)
    (hf : ∀ (u : State) o k, f { u with outbox := o } k = f u k) (l : List Nat) (s : State) :
    l.foldl g s = { s with outbox := s.outbox ++ (l.filter s.attUp).flatMap (f s) } := by
  induction l generalizing s with
  | nil => simp
  | cons k l ih =>
    rw [List.foldl_cons, ih, hg]
    cases hk : s.attUp k with
    | false => simp [hk]
    | true =>
      have hup : ({ s with outbox := s.outbox ++ f s k } : State).attUp = s.attUp := rfl
      have hsend : f { s with outbox := s.outbox ++ f s k } = f s := funext fun j => hf s _ j
      simp [hk, hup, hsend]

/-- A symbol leaves on the downstream port of every trained attachment, and nothing else changes. -/
theorem State.sendSymbol_sends (s : State) (y : TickSym) :
    s.sendSymbol y = { s with outbox := s.outbox ++ ((List.range 8).filter s.attUp).flatMap fun k => [.symbol (2 * k + 1) y] } :=
  State.foldl_attUp_sends (f := fun _ k => [.symbol (2 * k + 1) y]) (fun _ _ => rfl) (fun _ _ _ => rfl) _ _

section
variable (s : State) (y : TickSym)

@[simp] theorem State.sendSymbol_regs : (s.sendSymbol y).regs = s.regs := by rw [s.sendSymbol_sends]
@[simp] theorem State.sendSymbol_tick : (s.sendSymbol y).tick = s.tick := by rw [s.sendSymbol_sends]
@[simp] theorem State.sendSymbol_boot : (s.sendSymbol y).boot = s.boot := by rw [s.sendSymbol_sends]
@[simp] theorem State.sendSymbol_pins : (s.sendSymbol y).pins = s.pins := by rw [s.sendSymbol_sends]

/-- Forwarding a symbol draws the module's own delay and sends. -/
theorem State.forwardSymbol_frame (k : Nat) : (s.forwardSymbol k y).regs = s.regs ∧ (s.forwardSymbol k y).tick = s.tick := by
  unfold State.forwardSymbol
  exact ⟨State.sendSymbol_regs _ _, State.sendSymbol_tick _ _⟩

end

theorem State.tickNo_of_words {P : Nat → Prop} {s t : State} (h : WordsOnly P s t) (hw : nwf s.regs = true) (hlo : ¬P 0x10008)
    (hhi : ¬P 0x1000C) : t.tickNo = s.tickNo := by
  rw [State.tickNo, State.quad, h.word hw _ hlo, h.word hw _ hhi]
  rfl

/-! ## A follower's symbol (R60, R86) -/

/-- The words in which a copy of a symbol is shown: TCK_STATUS and TCK_PATH. -/
def CopyWords (a : Nat) : Prop := a = 0x10004 ∨ a = 0x10010

section
variable {s : State}

theorem State.showCopy_spec (k : Nat) (y : TickSym) (hw : nwf s.regs = true) :
    WordsOnly CopyWords s (s.showCopy k y) ∧ (s.showCopy k y).fld 0x10004 8 6 = y.master % 64 ∧ (s.showCopy k y).tick = s.tick := by
  unfold State.showCopy
  extract_lets late s1 s2
  have w0 := State.nwf_setFld 0x10004 8 6 y.master hw
  have h1 : WordsOnly CopyWords s s1 := (s.setFld_words _ _ _ (.inl rfl)).trans (State.setFlag_words _ _ _ (.inl rfl))
  have f1 : s1.fld 0x10004 8 6 = y.master % 64 :=
    (State.fld_setFld_above _ w0 (by decide) (by decide)).trans (State.fld_setFld_same _ _ _ _ hw (by decide))
  have t1 : s1.tick = s.tick := rfl
  clear_value s1
  have h2 : WordsOnly CopyWords s s2 := h1.trans (.ite (s1.setFlag_words _ _ (.inl rfl)) (.refl s1))
  have f2 : s2.fld 0x10004 8 6 = y.master % 64 := by
    subst s2
    split
    · exact (State.fld_setFld_below _ (h1.wf hw) (by decide) (by decide)).trans f1
    · exact f1
  have t2 : s2.tick = s.tick := by
    subst s2
    split <;> exact t1
  clear_value s2
  have h3 : WordsOnly (· = 0x10010) s2 (s2.setWord 0x10010 (BitVec.ofNat 32 (y.delay % 2 ^ 16 + y.hops % 64 * 2 ^ 16 + k % 8 * 2 ^ 24))) :=
    s2.setWord_words _ rfl
  exact ⟨h2.trans (h3.mono fun _ h => .inr h), (h3.fld_eq (h2.wf hw) (by decide) 8 6).trans f2, t2⟩

/-- A follower takes the symbol as its last one, shows its master, and leaves TCK_COUNT. -/
theorem State.followSymbol_spec (k : Nat) (y : TickSym) (at_ : Nat) (hw : nwf s.regs = true) :
    WordsOnly CopyWords s (s.followSymbol k y at_) ∧ (s.followSymbol k y at_).fld 0x10004 8 6 = y.master % 64 ∧
      (s.followSymbol k y at_).tick.lastSym = some y ∧ (s.followSymbol k y at_).tick.heard = true ∧
      (s.followSymbol k y at_).tick.fresh = true := by
  unfold State.followSymbol
  extract_lets +onlyGivenNames t next run s1 s2 need take src s3
  have h1 : WordsOnly CopyWords s s1 := .ite (s.setFlag_words _ _ (.inl rfl)) (.refl s)
  clear_value s1
  obtain ⟨hshow, f2, -⟩ := State.showCopy_spec k y (h1.wf hw)
  have h3 : WordsOnly CopyWords s s3 := (h1.trans hshow).trans (.of_regs_eq rfl)
  have f3 : s3.fld 0x10004 8 6 = y.master % 64 := f2
  have l3 : s3.tick.lastSym = some y ∧ s3.tick.heard = true ∧ s3.tick.fresh = true := ⟨rfl, rfl, rfl⟩
  clear_value s3
  split
  · exact ⟨h3.trans (State.setFld_words _ _ _ _ (.inl rfl)), (State.fld_setFld_above _ (h3.wf hw) (by decide) (by decide)).trans f3, l3⟩
  · exact ⟨h3, f3, l3⟩

theorem completes_tickSymbolReceive {port : Nat} {y : TickSym} (at_ : Nat) (hw : nwf s.regs = true) (hp : port < 16) (heven : port % 2 = 0)
    (hh : y.hops < 63) (hup : s.attUp (port / 2) = true) (hm : s.isMaster = false)
    (hnew : ∀ l, s.tick.lastSym = some l → l.master ≠ y.master ∨ l.number ≠ y.number) :
    Completes (.tickSymbolReceive port y at_) s fun t =>
      t.tick.lastSym = some y ∧ t.tick.heard = true ∧ t.tick.fresh = true ∧ t.fld 0x10004 8 6 = y.master % 64 ∧ t.tickNo = s.tickNo := by
  obtain ⟨hregs, -⟩ := s.forwardSymbol_frame y (port / 2)
  have hf : WordsOnly CopyWords s (s.forwardSymbol (port / 2) y) := .of_regs_eq hregs
  have hx : exec (.tickSymbolReceive port y at_) s = .next ((s.forwardSymbol (port / 2) y).followSymbol (port / 2) y at_) := by
    show execTickSymbolReceive port y at_ s = _
    unfold execTickSymbolReceive
    extract_lets k dup
    have hdup : dup = false := by
      subst dup
      cases hl : s.tick.lastSym with
      | none => rfl
      | some l =>
        rcases hnew l hl with h | h
        · simp [h]
        · simp [Ne.symm h]
    rw [if_neg (by simp only [hdup, k, hup, Bool.true_eq_false, Bool.false_eq_true, or_false]; omega)]
    simp [hm, k]
  obtain ⟨hwords, hmaster, hlast, hheard, hfresh⟩ := State.followSymbol_spec (port / 2) y at_ (hf.wf hw)
  exact ⟨_, hx, hlast, hheard, hfresh, hmaster, State.tickNo_of_words (hf.trans hwords) hw (by simp [CopyWords]) (by simp [CopyWords])⟩

/-! ## The lock at start (R44, R69, R70) -/

/-- The state of a module that has taken the master role in step 7, before its first reference edge. -/
def State.becomeMaster (s : State) : State :=
  let u := ((s.setFlag 0x10004 0 true).setSrc srcTimer).setFld 0x10004 8 6 s.moduleId
  { u with tick := { u.tick with locked := true, holdStart := none, tin := TickIn.reset } }

theorem State.becomeMaster_shows (hw : nwf s.regs = true) : s.becomeMaster.isMaster = true ∧ s.becomeMaster.src = srcTimer := by
  have w1 := State.nwf_setFlag 0x10004 0 true hw
  have w2 := State.nwf_setFld 0x10004 1 3 srcTimer w1
  constructor
  · have h := State.fld_setFld_below (off := 0x10004) (l := 0) (m := 1) s.moduleId w2 (show 8 + 6 ≤ 32 by decide) (by decide)
    have h' := State.fld_setFld_below (off := 0x10004) (l := 0) (m := 1) srcTimer w1 (show 1 + 3 ≤ 32 by decide) (by decide)
    exact beq_iff_eq.mpr ((h.trans h').trans (State.fld_setFld_same _ _ _ _ hw (by decide)))
  · exact (State.fld_setFld_below _ w2 (by decide) (by decide)).trans (State.fld_setFld_same _ _ _ _ w1 (by decide))

theorem exec_tickOriginateTimeout (at_ : Nat) (hstep : s.startStep = 7) (hh : s.tick.heard = false) (hm : s.isMaster = false)
    (hr : tickRank s.tickRec s.moduleId ≤ 1) :
    ∃ n, exec (.tickOriginateTimeout at_) s = .next (s.becomeMaster.placeEdge at_ n) ∧ (s.tick.lastSym = none → n = 0) := by
  refine ⟨_, if_pos (by simp [hstep, hh, hm, hr]), fun hl => ?_⟩
  simp [State.setSrc, hl]

/-- The edge that is placed is the module's reference edge, and the boundary lies ALIGN after it (R60). -/
theorem State.placeEdge_frame (at_ n : Nat) :
    (s.placeEdge at_ n).regs = s.regs ∧
      (s.placeEdge at_ n).tick = { s.tick with edge := some (at_, n), expected := at_ + s.tickRec.align * 100 } := by
  unfold State.placeEdge
  rw [State.sendSymbol_sends]
  exact ⟨rfl, rfl⟩

theorem completes_tickOriginateTimeout (at_ : Nat) (hw : nwf s.regs = true) (hstep : s.startStep = 7) (hh : s.tick.heard = false)
    (hm : s.isMaster = false) (hr : tickRank s.tickRec s.moduleId ≤ 1) :
    Completes (.tickOriginateTimeout at_) s fun t =>
      t.isMaster = true ∧ t.src = srcTimer ∧ t.tick.locked = true ∧ t.tick.expected = at_ + s.tickRec.align * 100 ∧
      (s.tick.lastSym = none → t.tick.edge = some (at_, 0)) := by
  obtain ⟨n, hx, hn⟩ := exec_tickOriginateTimeout at_ hstep hh hm hr
  obtain ⟨hregs, htick⟩ := State.placeEdge_frame (s := s.becomeMaster) at_ n
  have hplace : WordsOnly (fun _ => False) s.becomeMaster (s.becomeMaster.placeEdge at_ n) := .of_regs_eq hregs
  obtain ⟨hmaster, hsrc⟩ := State.becomeMaster_shows hw
  have hwm : nwf s.becomeMaster.regs = true := State.nwf_setFld _ _ _ _ (State.nwf_setFld _ _ _ _ (State.nwf_setFlag _ _ _ hw))
  refine ⟨_, hx, (hplace.flag_eq hwm id 0).trans hmaster, (hplace.fld_eq hwm id 1 3).trans hsrc, ?_, ?_, fun hl => ?_⟩
  · rw [htick]
    rfl
  · rw [htick]
    rfl
  · rw [htick, hn hl]

theorem completes_tickLockTimeout (hstep : s.startStep = 7) (hl : s.tick.locked = false) :
    Completes .tickLockTimeout s fun t => t.boot.state = .halted ∧ t.flash = s.flash := by
  have hx := s.halt_haltOf hrTickLock
  exact ⟨_, if_pos (by simp [hstep, hl]), congrArg Boot.state hx.boot, hx.flash⟩

theorem completes_censusReceive {serial : Nat} (hs : s.boot.state = .starting) (hc : s.flag 0xC 17 = true) (hne : serial ≠ s.quad 0x10) :
    Completes (.censusReceive s.moduleId serial) s fun t => t.boot.state = .halted ∧ t.flash = s.flash := by
  have hn : s.noteCensus s.moduleId serial = s.halt hrDupId := if_pos (by simp [hs, hc, hne])
  have hx := s.halt_haltOf hrDupId
  exact ⟨_, congrArg Host.Outcome.next hn, congrArg Boot.state hx.boot, hx.flash⟩

/-! ## Delay echoes (R61, R345) -/

theorem completes_delayEcho :
    Completes .delayEcho s fun t =>
      t = { s with outbox := s.outbox ++ ((List.range 8).filter s.attUp).flatMap fun k =>
        [.echo (2 * k) s.tick.boundaries, .echo (2 * k + 1) s.tick.boundaries] } := by
  refine ⟨_, rfl, ?_⟩
  refine State.foldl_attUp_sends (f := fun u k => [.echo (2 * k) u.tick.boundaries, .echo (2 * k + 1) u.tick.boundaries]) (fun u k => ?_)
    (fun _ _ _ => rfl) _ _
  simp [State.send]

theorem completes_delayEchoReceive_up (k : Fin 8) (d : Nat) :
    Completes (.delayEchoReceive k true d) s fun t => t.lnk.atts[k].upDelay = d / 2 * 2 ∧ t.regs = s.regs := by
  refine ⟨_, if_neg (by omega), ?_, rfl⟩
  simp [vupd]

theorem completes_delayEchoReceive_down (hw : nwf s.regs = true) (k : Fin 8) (d : Nat) :
    Completes (.delayEchoReceive k false d) s fun t =>
      t.word (0x501004 + 0x10 * k) = BitVec.ofNat 32 (d / 2 * 2) ∧ t.lnk = s.lnk :=
  ⟨_, if_neg (by omega), State.word_setWord_same _ _ hw, rfl⟩

/-! ## The boundary (R60, R65 to R70) -/

variable (s)

theorem State.setSrc_words (v : Nat) : WordsOnly (· = 0x10004) s (s.setSrc v) := s.setFld_words _ _ _ rfl

theorem State.boundaryRole_spec :
    WordsOnly (· = 0x10004) s s.boundaryRole ∧ s.boundaryRole.boot = s.boot ∧ s.boundaryRole.pins = s.pins := by
  unfold State.boundaryRole
  dsimp only
  split
  · have h : WordsOnly (· = 0x10004) s (((s.setFlag 0x10004 0 false).setSrc srcLocked).setFlag 0x10004 17 true) :=
      WordsOnly.trans (WordsOnly.trans (s.setFlag_words _ _ rfl) (State.setSrc_words _ _)) (State.setFlag_words _ _ _ rfl)
    exact ⟨h.trans (.of_regs_eq rfl), rfl, rfl⟩
  · split
    · have h : WordsOnly (· = 0x10004) s ((((s.setFlag 0x10004 0 true).setSrc srcTimer).setFlag 0x10004 17 true).setFld 0x10004 8 6 s.moduleId) :=
        WordsOnly.trans (WordsOnly.trans (WordsOnly.trans (s.setFlag_words _ _ rfl) (State.setSrc_words _ _)) (State.setFlag_words _ _ _ rfl))
          (State.setFld_words _ _ _ _ rfl)
      exact ⟨h.trans (.of_regs_eq rfl), rfl, rfl⟩
    · exact ⟨.refl s, rfl, rfl⟩

theorem State.slewDone_spec (at_ : Nat) :
    WordsOnly (· = 0x10004) s (s.slewDone at_) ∧ (s.slewDone at_).boot = s.boot ∧ (s.slewDone at_).pins = s.pins := by
  unfold State.slewDone
  split
  · split
    · exact ⟨s.setSrc_words _, rfl, rfl⟩
    · exact ⟨.refl s, rfl, rfl⟩
  · exact ⟨.refl s, rfl, rfl⟩

/-- A boundary's own part writes the number of its tick, then nothing but TCK_STATUS; it counts, asserts TICK_OUT, and leaves the module
state. -/
theorem State.tickBoundary_spec (at_ : Nat) :
    WordsOnly (· = 0x10004) (s.setQuad 0x10008 s.boundaryNo) (s.tickBoundary at_) ∧ (s.tickBoundary at_).boot = s.boot ∧
      (s.tickBoundary at_).pins.tickOut = true ∧ (s.tickBoundary at_).tick.boundaries = s.tick.boundaries + 1 := by
  unfold State.tickBoundary
  extract_lets +onlyGivenNames t number jump silent s1 s2 s3 src pins s4
  have h2 : WordsOnly (· = 0x10004) s1 s2 ∧ s2.boot = s.boot := by
    have hj : WordsOnly (· = 0x10004) s1 (if jump then s1.setFlag 0x10004 18 true else s1) := .ite (s1.setFlag_words _ _ rfl) (.refl s1)
    have hjb : (if jump then s1.setFlag 0x10004 18 true else s1).boot = s.boot := by split <;> rfl
    obtain ⟨hwords, hboot, -⟩ := State.boundaryRole_spec (if jump then s1.setFlag 0x10004 18 true else s1)
    exact ⟨hj.trans hwords, hboot.trans hjb⟩
  clear_value s2
  obtain ⟨hslew, hboot3, -⟩ := s2.slewDone_spec at_
  have h4 : WordsOnly (· = 0x10004) s1 s4 := (h2.1.trans hslew).trans (.of_regs_eq rfl)
  have b4 : s4.boot = s.boot := hboot3.trans h2.2
  have p4 : s4.pins.tickOut = true := rfl
  have t4 : s4.tick.boundaries = s.tick.boundaries + 1 := rfl
  clear_value s4
  split
  · exact ⟨h4.trans (.of_regs_eq (State.sendSymbol_regs _ _)), (State.sendSymbol_boot _ _).trans b4,
      (congrArg Pins.tickOut (State.sendSymbol_pins _ _)).trans p4, (congrArg Tick.boundaries (State.sendSymbol_tick _ _)).trans t4⟩
  · exact ⟨h4, b4, p4, t4⟩

/-- What a record in the accession log changes among the words: MOD_EVENT and Vitrine's. -/
theorem State.appendRec_spec (x : Swap) :
    WordsOnly (fun a => a = 0x30 ∨ 0x800000 ≤ a) s (s.appendRec x) ∧ (s.appendRec x).pins = s.pins ∧ (s.appendRec x).tick = s.tick := by
  unfold State.appendRec
  extract_lets r h h' u
  have hu : WordsOnly (fun a => a = 0x30 ∨ 0x800000 ≤ a) s u := .of_regs_eq rfl
  have pu : u.pins = s.pins ∧ u.tick = s.tick := ⟨rfl, rfl⟩
  clear_value u
  refine ⟨(hu.trans (u.modEvent_words _ (.inl rfl))).trans (State.event_words _ _ _ _ _ _ _ fun a h => .inr (by omega)), ?_, ?_⟩
  · rw [State.event_pins, State.modEvent_pins, pu.1]
  · rw [State.event_tick, State.modEvent_tick, pu.2]

theorem ite_of_both {α : Type} {Q : α → Prop} {c : Prop} [Decidable c] {a b : α} (ha : Q a) (hb : Q b) : Q (if c then a else b) := by
  split <;> assumption

/-- A loop over the rings changes the rings alone. -/
theorem State.foldl_updRing_frame (f : Nat → RingSt → RingSt) (l : List Nat) :
    (l.foldl (fun (s : State) q => s.updRing (q / 8) (q % 8) (f q)) s).regs = s.regs ∧
      (l.foldl (fun (s : State) q => s.updRing (q / 8) (q % 8) (f q)) s).pins = s.pins ∧
      (l.foldl (fun (s : State) q => s.updRing (q / 8) (q % 8) (f q)) s).tick = s.tick :=
  foldl_inv (Q := fun u : State => u.regs = s.regs ∧ u.pins = s.pins ∧ u.tick = s.tick) (fun _ _ h => h) ⟨rfl, rfl, rfl⟩

/-- The copy for the standby, and the take-over that is done, change what recovery holds alone. -/
theorem State.mcDone_frame :
    ({ s with recov := { s.recov with mcTake := false } } : State).mcSave.regs = s.regs ∧
      ({ s with recov := { s.recov with mcTake := false } } : State).mcSave.pins = s.pins ∧
      ({ s with recov := { s.recov with mcTake := false } } : State).mcSave.tick = s.tick := ⟨rfl, rfl, rfl⟩

/-- The standby controller's part of a boundary leaves the tick and the pins. -/
theorem State.mcBoundary_spec :
    WordsOnly (fun a => a = 0x30 ∨ 0x800000 ≤ a) s s.mcBoundary ∧ s.mcBoundary.pins = s.pins ∧ s.mcBoundary.tick = s.tick := by
  unfold State.mcBoundary
  generalize List.range 128 = rings
  split
  · exact ⟨.of_regs_eq rfl, rfl, rfl⟩
  · extract_lets x s1 copy s2 recov
    have h1 : WordsOnly (fun a => a = 0x30 ∨ 0x800000 ≤ a) s s1 ∧ s1.pins = s.pins ∧ s1.tick = s.tick :=
      ite_of_both (Q := fun u => WordsOnly (fun a => a = 0x30 ∨ 0x800000 ≤ a) s u ∧ u.pins = s.pins ∧ u.tick = s.tick)
        ⟨s.setFlag_words _ _ (.inr (by decide)), rfl, rfl⟩ (s.appendRec_spec x)
    clear_value s1
    have h2 : s2.regs = s1.regs ∧ s2.pins = s1.pins ∧ s2.tick = s1.tick :=
      s1.foldl_updRing_frame (fun q g => g.takeover (copy.getD q g.nextCsn)) rings
    clear_value s2
    obtain ⟨hwords, hpins, htick⟩ := h1
    obtain ⟨hregs2, hpins2, htick2⟩ := h2
    obtain ⟨hregs3, hpins3, htick3⟩ := s2.mcDone_frame
    exact ⟨hwords.trans (.of_regs_eq (hregs3.trans hregs2)), hpins3.trans (hpins2.trans hpins), htick3.trans (htick2.trans htick)⟩

variable {s}

theorem State.serves_of_boot {t : State} (h : t.boot = s.boot) : t.serves = s.serves := by
  rw [State.serves, State.serves, h]

/-- On a module whose start is not done, nothing follows a boundary's own part but the standby's. -/
theorem exec_tickBoundary_idle (at_ : Nat) (ht : s.ticks = true) (hs : s.serves = false) (hr : s.boot.ready9 = false) :
    exec (.tickBoundary at_) s = .next (s.tickBoundary at_).mcBoundary := by
  obtain ⟨-, hboot, -, -⟩ := s.tickBoundary_spec at_
  show execTickBoundary at_ s = _
  simp [execTickBoundary, ht, hboot, hr, State.serves_of_boot hboot, hs]

/-- A module that serves stands at no step of a start. -/
theorem State.startStep_of_serves (hs : s.serves = true) : s.startStep = 0 := by
  have hne : s.boot.state ≠ .starting := fun h => by simp [State.serves, h] at hs
  simp [State.startStep, hne]

theorem exec_tickBoundary_serves (at_ : Nat) (ht : s.ticks = true) (hs : s.serves = true) :
    exec (.tickBoundary at_) s = .next ((s.tickBoundary at_).serveBoundary at_) := by
  obtain ⟨-, hboot, -, -⟩ := s.tickBoundary_spec at_
  have hserves := (State.serves_of_boot hboot).trans hs
  show execTickBoundary at_ s = _
  simp [execTickBoundary, ht, State.startStep_of_serves hserves, hserves]

theorem State.boundaryNo_own (hm : s.isMaster = true) (ha : s.tick.adopt = none) (he : s.tick.edge = none) : s.boundaryNo = s.nextTick := by
  unfold State.boundaryNo
  rw [ha, he]
  cases s.tick.lastSym with
  | none => rfl
  | some y => simp [hm]

theorem State.boundaryNo_edge {e n : Nat} (hm : s.isMaster = true) (ha : s.tick.adopt = none) (he : s.tick.edge = some (e, n)) :
    s.boundaryNo = n := by
  simp [State.boundaryNo, ha, he, hm]

theorem completes_tickBoundary_idle (at_ : Nat) (hw : nwf s.regs = true) (ht : s.ticks = true) (hs : s.serves = false)
    (hr : s.boot.ready9 = false) :
    Completes (.tickBoundary at_) s fun t => t.pins.tickOut = true ∧ t.tick.boundaries = s.tick.boundaries + 1 ∧
      (s.isMaster = true → s.tick.adopt = none → s.tick.edge = none → t.tickNo = (s.tickNo + 1) % 2 ^ 64) ∧
      (∀ e n, s.isMaster = true → s.tick.adopt = none → s.tick.edge = some (e, n) → t.tickNo = n % 2 ^ 64) := by
  obtain ⟨hwords, -, hout, hcount⟩ := s.tickBoundary_spec at_
  obtain ⟨hmc, hpins, htick⟩ := (s.tickBoundary at_).mcBoundary_spec
  have w1 := State.nwf_setQuad 0x10008 s.boundaryNo hw
  have hno : (s.tickBoundary at_).mcBoundary.tickNo = s.boundaryNo % 2 ^ 64 := by
    rw [State.tickNo_of_words hmc (hwords.wf w1) (by decide) (by decide), State.tickNo_of_words hwords w1 (by decide) (by decide)]
    exact State.quad_setQuad_same _ _ hw
  refine ⟨_, exec_tickBoundary_idle at_ ht hs hr, ?_, ?_, fun hm ha he => ?_, fun e n hm ha he => ?_⟩
  · rw [hpins, hout]
  · rw [htick, hcount]
  · rw [hno, State.boundaryNo_own hm ha he]
    exact Nat.mod_mod _ _
  · rw [hno, State.boundaryNo_edge hm ha he]

end

/-- Settles O13: the symbol's and the boundary's words are TCK_STATUS and TCK_PATH, so that TCK_COUNT holds the number that the boundary
wrote; and sending leaves all but the outbox. -/
theorem tickSymbolsBoundariesAndLock : Obligations.TickSymbolsBoundariesAndLock := by
  intro s htidy
  have hw := State.tidy_regs htidy
  exact ⟨fun port y at_ hp heven hh hup hm hnew => completes_tickSymbolReceive at_ hw hp heven hh hup hm hnew,
    fun at_ hstep hh hm hr => completes_tickOriginateTimeout at_ hw hstep hh hm hr,
    fun hstep hl => completes_tickLockTimeout hstep hl,
    fun serial hs hc hne => completes_censusReceive hs hc hne,
    completes_delayEcho,
    fun k d => completes_delayEchoReceive_up k d,
    fun k d => completes_delayEchoReceive_down hw k d,
    fun at_ ht hs hr => completes_tickBoundary_idle at_ hw ht hs hr,
    fun at_ ht hs => ⟨_, exec_tickBoundary_serves at_ ht hs, rfl⟩⟩

end Sys2Proof.Machine
end


section
/-!
PROOFS. The start sequence: O14.
-/

namespace Sys2Proof.Machine

section
variable {s : State}

/-! ## Steps (R42) -/

/-- A module that has halted stands at no step. -/
theorem State.startStep_halt (reason : Nat) : (s.halt reason).startStep = 0 := by
  simp [State.startStep, (s.halt_haltOf reason).boot]

/-- A start that halts in step 1: it then stands at no step, and no later one follows. -/
theorem exec_startSequence_halt_one {slotId reason : Nat} {x : StartIn} {u : State} (hs : s.boot.state = .starting) (hstep : s.startStep = 1)
    (hh : s.startFirmware = u.halt reason) : exec (.startSequence slotId x) s = .next (u.halt reason) := by
  show execStartSequence slotId x s = _
  simp [execStartSequence, State.startAt, hs, hstep, hh, State.startStep_halt]

/-- A start that halts in step 3. -/
theorem exec_startSequence_halt_three {slotId reason : Nat} {x : StartIn} {u : State} (hs : s.boot.state = .starting)
    (hstep : s.startStep = 3) (hh : s.startRails x = u.halt reason) : exec (.startSequence slotId x) s = .next (u.halt reason) := by
  show execStartSequence slotId x s = _
  simp [execStartSequence, State.startAt, hs, hstep, hh, State.startStep_halt]

/-- A start that stands at step 8 does that step alone. -/
theorem exec_startSequence_eight {slotId : Nat} {x : StartIn} (hs : s.boot.state = .starting) (hstep : s.startStep = 8)
    (hr : s.boot.ready9 = false) : exec (.startSequence slotId x) s = .next (s.startCompute x) := by
  show execStartSequence slotId x s = _
  simp [execStartSequence, State.startAt, hs, hstep, hr]

/-! ## The clauses -/

/-- Without valid firmware the boot ROM runs the mailbox in HALTED (R48). -/
theorem completes_startSequence_noFirmware (slotId : Nat) (x : StartIn) (hs : s.boot.state = .starting) (hstep : s.startStep = 1)
    (hf : firmwareChoice s.flash s.fuses = none) :
    Completes (.startSequence slotId x) s fun t => t.boot.state = .halted ∧ t.boot.bootRom = true ∧ t.flash = s.flash := by
  let u : State := { s with boot := { s.boot with bootRom := true } }
  have hh : s.startFirmware = u.halt hrNoFirmware := by rw [State.startFirmware, hf]
  have hx := u.halt_haltOf hrNoFirmware
  refine ⟨_, exec_startSequence_halt_one hs hstep hh, ?_, ?_, hx.flash⟩
  · rw [hx.boot]
  · rw [hx.boot]

/-- A rail that does not come up halts the start, which shows how far they came (R523). -/
theorem completes_startSequence_rails (slotId : Nat) {x : StartIn} (hs : s.boot.state = .starting) (hstep : s.startStep = 3)
    (hr : x.rails < 28) :
    Completes (.startSequence slotId x) s fun t => t.boot.state = .halted ∧ t.boot.railsUp = x.rails ∧ t.flash = s.flash := by
  let u : State := { s with boot := { s.boot with railsUp := min 28 x.rails } }
  have hh : s.startRails x = u.halt hrRailFail := by rw [State.startRails, if_pos hr]
  have hx := u.halt_haltOf hrRailFail
  refine ⟨_, exec_startSequence_halt_three hs hstep hh, ?_, ?_, hx.flash⟩
  · rw [hx.boot]
  · rw [hx.boot]
    exact Nat.min_eq_right hr.le

/-- With every unit passing its test, step 8 leaves every memory zero and the tiles where they are (R424). -/
theorem completes_startSequence_compute (slotId : Nat) {x : StartIn} (hw : nwf s.regs = true) (hs : s.boot.state = .starting)
    (hstep : s.startStep = 8) (hr : s.boot.ready9 = false) (hi : x.initOk = true) (hf : x.fails = []) :
    Completes (.startSequence slotId x) s fun t =>
      t.fld 0x120 0 4 = 9 ∧ t.boot.ready9 = true ∧ (∀ a, nget t.hbm a = 0) ∧ t.hbmBad = [] ∧
      ∀ n : Fin 128, t.tiles[n].mem = [] ∧ t.tiles[n].poison = [] ∧ t.tiles[n].phys = s.tiles[n].phys ∧ t.tiles[n].width = s.tiles[n].width := by
  let u : State := { s with
    tiles := s.tiles.map fun (t : Tile) => { Tile.reset with phys := t.phys, width := t.width },
    hbm := [], hbmBad := [], msc := { s.msc with lines := [] }, drc := [], boot := { s.boot with ready9 := true } }
  have hc : s.startCompute x = u.setStep 9 := by simp [State.startCompute, hi, hf, u]
  refine ⟨_, (exec_startSequence_eight hs hstep hr).trans (congrArg _ hc), State.fld_setFld_same (s := u) _ _ _ _ hw (by decide), rfl,
    fun _ => rfl, rfl, fun n => ?_⟩
  have htile : (u.setStep 9).tiles[n] = { Tile.reset with phys := s.tiles[n].phys, width := s.tiles[n].width } :=
    Vector.getElem_map _ n.isLt
  rw [htile]
  exact ⟨rfl, rfl, rfl, rfl⟩

end

/-- Settles O14: a halt leaves the start at no step, so that no later step follows; at step 8 no other step does anything. -/
theorem startSequenceSteps : Obligations.StartSequenceSteps := by
  intro s slotId x htidy hs
  exact ⟨fun hstep hf => completes_startSequence_noFirmware slotId x hs hstep hf,
    fun hstep hr => completes_startSequence_rails slotId hs hstep hr,
    fun hstep hr hi hf => completes_startSequence_compute slotId (State.tidy_regs htidy) hs hstep hr hi hf⟩

end Sys2Proof.Machine
end


section
/-!
PROOFS. PCIe control events: what a tenant reset keeps of a function that a reset has silenced, and O38.
-/

namespace Sys2Proof.Machine

/-! ## Entries taken out of a sparse memory -/

/-- A key whose entry is taken out reads zero. -/
theorem nget_filter_out {w k : Nat} {m : NMap w} {f : Nat × BitVec w → Bool} (hf : ∀ v, f (k, v) = false) : nget (m.filter f) k = 0 := by
  induction m with
  | nil => rfl
  | cons x m ih =>
    obtain ⟨a, v⟩ := x
    rw [List.filter_cons]
    split
    next ha =>
      have hne : a ≠ k := fun he => by simp [he, hf] at ha
      rw [nget, if_neg hne]
      split
      · rfl
      · exact ih
    next => exact ih

/-- A key whose entry stays reads as before. -/
theorem nget_filter_in {w k : Nat} {m : NMap w} {f : Nat × BitVec w → Bool} (h : nwf m = true) (hf : ∀ v, f (k, v) = true) :
    nget (m.filter f) k = nget m k := by
  unfold nwf at h
  generalize hlo : (none : Option Nat) = lo at h
  clear hlo
  induction m generalizing lo with
  | nil => rfl
  | cons x m ih =>
    obtain ⟨a, v⟩ := x
    simp only [nwfFrom, Bool.and_eq_true] at h
    have ihm := ih _ h.2
    by_cases ha : a = k
    · simp [ha, hf, nget]
    · by_cases hlt : k < a
      · have hm : nget m k = 0 := nget_below h.2 (by omega)
        rw [List.filter_cons]
        split <;> simp [nget, ha, hlt, ihm, hm]
      · rw [List.filter_cons]
        split <;> simp [nget, ha, hlt, ihm]

theorem State.zeroRegs_words {P : Nat → Prop} (s : State) {lo hi : Nat} (hp : ∀ a, lo ≤ a → a < hi → P a) :
    WordsOnly P s (s.zeroRegs lo hi) where
  wf := nwf_zeroRange lo hi
  word hw a ha := nget_filter_in hw fun _ => by
    have hout : a < lo ∨ hi ≤ a := by
      by_contra hin
      exact ha (hp a (by omega) (by omega))
    simpa using hout

/-! ## Events leave the functions alone -/

section
variable {s : State}

theorem State.traceBuf_vfs (e : List Byte) : (s.traceBuf e).vfs = s.vfs := by
  unfold State.traceBuf
  split
  · rfl
  · dsimp only
    split
    · rfl
    · split <;> rfl

theorem State.putEvent_vfs (e : List Byte) : (s.putEvent e).vfs = s.vfs := by
  unfold State.putEvent
  extract_lets u src v
  have hu : u.vfs = s.vfs := by
    subst u
    split
    · exact State.traceBuf_vfs e
    · rfl
  have hv : v.vfs = s.vfs := hu
  clear_value u v
  split
  · split
    · exact hv
    · exact hv
  · exact hu

theorem State.event_vfs (kind : Nat) (ten tile : Option Nat) (n : Nat) (data : List Byte) (hide : Nat × Nat) :
    (s.event kind ten tile n data hide).vfs = s.vfs := by
  unfold State.event
  split
  · rfl
  generalize he : s.free = e
  obtain ⟨time, s1⟩ := e
  have h1 : s1.vfs = s.vfs := congrArg (fun e => e.2.vfs) he.symm
  clear he
  dsimp -zeta -zetaHave only
  extract_lets +onlyGivenNames src s2
  have h2 : s2.vfs = s.vfs := by
    subst s2
    split <;> exact h1
  clear_value s2
  split
  · exact h2
  extract_lets +onlyGivenNames masked data' lost src2 s3 s4
  have h3 : s3.vfs = s.vfs := h2
  clear_value s3
  have h4 : s4.vfs = s.vfs := by
    subst s4
    split
    · exact (State.putEvent_vfs _).trans h3
    · exact h3
  clear_value s4
  exact (State.putEvent_vfs _).trans h4

/-! ## A function that is silenced while its tenant resets -/

/-- The words beside TNT_STATE and TNT_EVENT_EN of tenant `n`. -/
def OtherWords (n : Fin 16) (a : Nat) : Prop := a ≠ tnt n 0 ∧ a ≠ tnt n 0x34

/-- The function of tenant `n` is as after its reset, its tenant resets, and none of its events is enabled. -/
structure Silenced (n : Fin 16) (s : State) : Prop where
  wf : nwf s.regs = true
  fn : s.fnState (.vf n) = FnState.reset
  state : s.tState n = tsResetting
  mask : s.word (tnt n 0x34) = 0

variable {n : Fin 16} {t : State}

theorem State.fnState_of_vfs (h : t.vfs = s.vfs) (n : Nat) : t.fnState (.vf n) = s.fnState (.vf n) := by
  simp only [State.fnState, h]

theorem Silenced.of_words (h : Silenced n s) (hw : WordsOnly (OtherWords n) s t) (hv : t.vfs = s.vfs) : Silenced n t where
  wf := hw.wf h.wf
  fn := (State.fnState_of_vfs hv n).trans h.fn
  state := (hw.fld_eq h.wf (fun hp => hp.1 rfl) 0 2).trans h.state
  mask := (hw.word h.wf _ fun hp => hp.2 rfl).trans h.mask

theorem Silenced.of_eq (h : Silenced n s) (hr : t.regs = s.regs) (hv : t.vfs = s.vfs) : Silenced n t := h.of_words (.of_regs_eq hr) hv

theorem LinkOnly.silenced (hl : LinkOnly s t) (h : Silenced n s) : Silenced n t := by
  refine h.of_eq hl.regs ?_
  rw [LinkOnly] at hl
  rw [hl]

theorem Silenced.ite {u : State} {c : Prop} [Decidable c] (ht : Silenced n t) (hu : Silenced n u) : Silenced n (if c then t else u) := by
  split <;> assumption

theorem Silenced.foldl {α : Type} {f : State → α → State} {l : List α} (hf : ∀ u x, Silenced n u → Silenced n (f u x))
    (h : Silenced n s) : Silenced n (l.foldl f s) := foldl_inv hf h

theorem otherWords_of_far {a : Nat} (ha : 0x120000 ≤ a) : OtherWords n a := by
  have := n.isLt
  constructor <;> simp only [tnt] <;> omega

/-- The registers of another tenant, or others of the same, are other words. -/
theorem otherWords_tnt {t o : Nat} (ho : o < 0x1000) (h0 : o ≠ 0) (h34 : o ≠ 0x34) : OtherWords n (tnt t o) := by
  constructor <;> simp only [tnt] <;> omega

theorem otherWords_rng (t r o : Nat) : OtherWords n (rng t r o) := otherWords_of_far (by simp only [rng]; omega)

theorem State.setFld_silenced {off : Nat} (lo m v : Nat) (ho : OtherWords n off) (h : Silenced n s) : Silenced n (s.setFld off lo m v) :=
  h.of_words (s.setFld_words lo m v ho) rfl

theorem State.setFlag_silenced {off : Nat} (b : Nat) (v : Bool) (ho : OtherWords n off) (h : Silenced n s) : Silenced n (s.setFlag off b v) :=
  State.setFld_silenced _ _ _ ho h

theorem State.setWord_silenced {off : Nat} (v : W32) (ho : OtherWords n off) (h : Silenced n s) : Silenced n (s.setWord off v) :=
  h.of_words (s.setWord_words v ho) rfl

theorem State.bump_silenced {off : Nat} (k : Nat) (ho : OtherWords n off) (h : Silenced n s) : Silenced n (s.bump off k) :=
  State.setWord_silenced _ ho h

theorem State.zeroRegs_silenced {lo hi : Nat} (ho : ∀ a, lo ≤ a → a < hi → OtherWords n a) (h : Silenced n s) :
    Silenced n (s.zeroRegs lo hi) :=
  h.of_words (s.zeroRegs_words ho) rfl

theorem State.setEntry_silenced {off : Nat} (code tick : Nat) (i : Info) (ho : ∀ a, off ≤ a → a < off + 32 → OtherWords n a)
    (h : Silenced n s) : Silenced n (s.setBytes off (entryBytes code tick i)) :=
  h.of_words (State.setEntry_words _ _ _ ho) (State.setBytes_vfs _ _ _)

theorem State.event_silenced (kind : Nat) (ten tile : Option Nat) (id : Nat) (data : List Byte) (hide : Nat × Nat) (h : Silenced n s) :
    Silenced n (s.event kind ten tile id data hide) :=
  h.of_words (s.event_words _ _ _ _ _ _ fun _ ha => otherWords_of_far (by omega)) (State.event_vfs _ _ _ _ _ _)

/-- Another function's interrupt leaves the silenced one alone. -/
theorem State.interrupt_silenced {fn : Fn} (v : Nat) (hfn : fn ≠ .vf n) (h : Silenced n s) : Silenced n (s.interrupt fn v) := by
  unfold State.interrupt
  refine .ite ?_ (h.of_eq rfl rfl)
  cases fn with
  | pf => exact h.of_eq rfl rfl
  | vf m =>
    have hne : n.val ≠ m := fun he => hfn (he ▸ rfl)
    refine ⟨h.wf, ?_, h.state, h.mask⟩
    have hget := vupd_get_other s.vfs n.isLt (fun f => { f with pba := f.pba ||| 2 ^ v }) hne
    simp only [State.fnState, State.updFn, n.isLt, dif_pos]
    rw [hget]
    simpa [State.fnState, n.isLt] using h.fn

theorem State.modEvent_silenced (b : Nat) (h : Silenced n s) : Silenced n (s.modEvent b) := by
  have h1 : Silenced n (s.setFlag 0x30 b true) := State.setFlag_silenced _ _ (by constructor <;> simp only [tnt] <;> omega) h
  unfold State.modEvent
  exact .ite (State.interrupt_silenced _ (by simp) h1) h1

/-- A tenant's event raises no interrupt of the silenced function: either the tenant is another one, or the event is not enabled. -/
theorem State.tntEvent_silenced (t b : Nat) (h : Silenced n s) : Silenced n (s.tntEvent t b) := by
  have h1 : Silenced n (s.setFlag (tnt t 0x30) b true) := State.setFlag_silenced _ _ (otherWords_tnt (by decide) (by decide) (by decide)) h
  unfold State.tntEvent
  dsimp only
  by_cases ht : t = n
  · subst ht
    have hoff : (s.setFlag (tnt n 0x30) b true).flag (tnt n 0x34) b = false := by
      rw [State.flag, State.fld, h1.mask]
      simp
    rw [hoff, Bool.and_false]
    exact h1
  · exact .ite (State.interrupt_silenced _ (fun he => ht (by injection he)) h1) h1

/-! ## Faults -/

theorem State.faultTrace_silenced (ten : Option Nat) (code : Nat) (i : Info) (h : Silenced n s) : Silenced n (s.faultTrace ten code i) :=
  State.event_silenced _ _ _ _ _ _ h

theorem State.tenantEntry_silenced (t code : Nat) (i : Info) (h : Silenced n s) : Silenced n (s.tenantEntry t code i) := by
  have hrec {o : Nat} (h1 : 0x100 ≤ o) (h2 : o < 0x160) : OtherWords n (tnt t o) := otherWords_tnt (by omega) (by omega) (by omega)
  have hput {u : State} (o : Nat) (h1 : 0x100 ≤ o) (h2 : o ≤ 0x140) (hu : Silenced n u) :
      Silenced n (u.setBytes (tnt t o) (entryBytes code s.tickNo i)) :=
    State.setEntry_silenced _ _ _ (fun a ha hb => by constructor <;> simp only [tnt] at * <;> omega) hu
  unfold State.tenantEntry
  extract_lets e empty s1 s2 s3 s4
  have h1 : Silenced n s1 := .ite (State.setFld_silenced _ _ _ (hrec (by decide) (by decide)) (hput _ (by decide) (by decide) h))
    (State.bump_silenced _ (hrec (by decide) (by decide)) h)
  have h2 : Silenced n s2 := State.setFld_silenced _ _ _ (hrec (by decide) (by decide)) (hput _ (by decide) (by decide) h1)
  have h3 : Silenced n s3 := State.setFld_silenced _ _ _ (hrec (by decide) (by decide)) h2
  have h4 : Silenced n s4 := .ite (State.setFlag_silenced _ _ (hrec (by decide) (by decide)) h3) h3
  exact State.faultTrace_silenced _ _ _ (State.tntEvent_silenced _ _ h4)

theorem State.moduleEntry_silenced (code : Nat) (i : Info) (h : Silenced n s) : Silenced n (s.moduleEntry code i) := by
  have hput {u : State} {off : Nat} (hoff : 0x700000 ≤ off) (hu : Silenced n u) : Silenced n (u.setBytes off (entryBytes code s.tickNo i)) :=
    State.setEntry_silenced _ _ _ (fun a ha _ => otherWords_of_far (by omega)) hu
  unfold State.moduleEntry
  extract_lets e empty s1
  have h1 : Silenced n s1 := .ite (hput (by decide) h) (State.bump_silenced _ (otherWords_of_far (by decide)) h)
  exact State.faultTrace_silenced _ _ _ (State.modEvent_silenced _ (hput (by decide) h1))

theorem State.enter_silenced (t code : Nat) (i : Info) (h : Silenced n s) : Silenced n (s.enter t code i) := by
  unfold State.enter
  split
  next ten mod _ =>
    have h1 : Silenced n (if ten then s.tenantEntry t code i else s) := .ite (State.tenantEntry_silenced _ _ _ h) h
    exact .ite (State.moduleEntry_silenced _ _ h1) h1

/-- A freeze takes an ACTIVE tenant, so not the one that resets. -/
theorem State.freeze_silenced (t : Nat) (peer : Bool) (h : Silenced n s) : Silenced n (s.freeze t peer) := by
  unfold State.freeze
  extract_lets s0 s1 s2 recov s3 s4
  have h0 : Silenced n s0 := h.of_eq rfl rfl
  by_cases ha : s0.active t = true
  · have hne : t ≠ n := by
      rintro rfl
      have := h0.state
      simp [State.active, this, tsResetting, tsActive] at ha
    have hword : OtherWords n (tnt t 0) := by constructor <;> simp only [tnt] <;> omega
    have h1 : Silenced n s1 := State.setFld_silenced _ _ _ hword h0
    have h2 : Silenced n s2 := Silenced.foldl (fun u r hu => .ite (State.setFld_silenced _ _ _ (otherWords_rng _ _ _) hu) hu) h1
    have h3 : Silenced n s3 := h2.of_eq rfl rfl
    have h4 : Silenced n s4 := State.modEvent_silenced _ (State.tntEvent_silenced _ _ h3)
    exact .ite h0 (.ite ((s4.sendTwin_linkOnly _ _).silenced h4) h4)
  · rw [if_pos (by simpa using ha)]
    exact h0

theorem State.raise_silenced (t code : Nat) (i : Info) (h : Silenced n s) : Silenced n (s.raise t code i) := by
  have h1 := State.enter_silenced t code i h
  unfold State.raise
  split
  · exact State.freeze_silenced _ _ h1
  · exact State.freeze_silenced _ _ h1
  · exact h1

/-! ## Commands, signals, items and collectives that end -/

theorem State.updCmd_silenced (t : Nat) (c : CmdRef) (f : RCmd → RCmd) (h : Silenced n s) : Silenced n (s.updCmd t c f) := by
  cases c <;> exact h.of_eq rfl rfl

theorem State.pushLog_silenced (t : Nat) (es : List (List Byte)) (h : Silenced n s) : Silenced n (s.pushLog t es) := by
  unfold State.pushLog
  extract_lets first logs u
  have hu : Silenced n u := h.of_eq rfl rfl
  exact .ite (State.tntEvent_silenced _ _ hu) hu

theorem State.signal_silenced (t ring : Nat) (e : List Byte) (w : Waiter) (h : Silenced n s) : Silenced n (s.signal t ring e w).1 := by
  have hb (k o : Nat) : Silenced n (s.bump (rng t ring o) k) := State.bump_silenced _ (otherWords_rng _ _ _) h
  unfold State.signal
  extract_lets v member pair op ctr dst
  clear_value dst
  split
  · split
    · exact h.of_eq rfl rfl
    · exact hb _ _
  · cases dst with
    | none => exact hb _ _
    | some d =>
      dsimp only
      split
      · unfold State.applySignal
        exact .ite (h.of_eq rfl rfl) (h.of_eq rfl rfl)
      · split
        next hp => exact (s.sendPacket_linkOnly _ _ _ _ hp).silenced h
        next => exact hb _ _

theorem State.sigAct_silenced (t r i seq tick : Nat) (out : Bool) (h : Silenced n s) : Silenced n (s.sigAct t r i seq tick out) := by
  unfold State.sigAct
  split
  · exact State.raise_silenced _ _ _ h
  · exact .ite (h.of_eq rfl rfl) (.ite (State.pushLog_silenced _ _ h) (State.signal_silenced _ _ _ _ h))

theorem State.storedSig_silenced (t : Nat) (ref : CmdRef) (h : Silenced n s) : Silenced n (s.storedSig t ref) := by
  unfold State.storedSig
  split
  · exact .ite (State.sigAct_silenced _ _ _ _ _ _ h) h
  · exact h

theorem State.releaseBuf_silenced (recipe buf : Nat) (h : Silenced n s) : Silenced n (s.releaseBuf recipe buf) := by
  unfold State.releaseBuf
  split <;> exact h.of_eq rfl rfl

theorem State.endLaunch_silenced (t : Nat) (ring : Option Nat) (key : Nat) (h : Silenced n s) : Silenced n (s.endLaunch t ring key) := by
  unfold State.endLaunch
  split
  · exact .ite (State.updCmd_silenced _ _ _ ((State.releaseBuf_silenced _ _ h).of_eq rfl rfl)) h
  · exact h

theorem State.endCmd_silenced (t : Nat) (c : CmdRef) (h : Silenced n s) : Silenced n (s.endCmd t c) := by
  unfold State.endCmd
  extract_lets u
  have hu : Silenced n u := State.storedSig_silenced _ _ (State.updCmd_silenced _ _ _ h)
  clear_value u
  split
  next r key i =>
    refine State.endLaunch_silenced _ _ _ ?_
    split
    · exact State.updCmd_silenced _ _ _ hu
    · exact hu
  next => exact hu

theorem State.startScatter_silenced (i : Nat) (h : Silenced n s) : Silenced n (s.startScatter i) := by
  unfold State.startScatter
  split
  · exact h
  · split <;> exact h.of_eq rfl rfl

theorem State.endItem_silenced (i : Nat) (h : Silenced n s) : Silenced n (s.endItem i) := by
  unfold State.endItem
  split
  · exact h
  next x _ =>
    extract_lets u1 front u2
    have h1 : Silenced n u1 := Silenced.foldl (fun u c hu => State.updCmd_silenced _ _ _ hu) h
    have h2 : Silenced n u2 := h1.of_eq rfl rfl
    clear_value u2
    split
    refine .ite ?_ h2
    exact State.endCmd_silenced _ _ (State.event_silenced _ _ _ _ _ _ (h2.of_eq rfl rfl))

theorem State.endWork_silenced (t : Nat) (c : CmdRef) (h : Silenced n s) : Silenced n (s.endWork t c) := by
  unfold State.endWork
  split
  · exact h.of_eq rfl rfl
  · exact h.of_eq rfl rfl
  · exact State.endItem_silenced _ h
  next i j _ _ _ =>
    have hu := State.updCmd_silenced t (.item i j) RCmd.finish h
    dsimp only
    split
    · exact .ite (State.startScatter_silenced _ hu) hu
    · exact hu
  · exact State.endCmd_silenced _ _ h

theorem State.releaseSlots_silenced (sg : CSeg) (h : Silenced n s) : Silenced n (s.releaseSlots sg) := by
  unfold State.releaseSlots
  split
  · unfold State.showPool
    exact Silenced.foldl (fun u d hu => State.setFld_silenced _ _ _ (otherWords_of_far (by simp only [colPool]; omega)) hu) (h.of_eq rfl rfl)
  · exact h

/-- A packet that is sent where a path leads to its destination changes the link state alone. -/
theorem State.sendPacket_getD_linkOnly (p : Packet) (pair : Bool) (w : Waiter) (twin : Bool) :
    LinkOnly s ((s.sendPacket p pair w twin).getD s) := by
  cases h : s.sendPacket p pair w twin with
  | none => exact .refl s
  | some t => exact s.sendPacket_linkOnly _ _ _ _ h

theorem State.sendCtl_silenced (dst : Nat) (c : Ctl) (h : Silenced n s) : Silenced n (s.sendCtl dst c) :=
  (State.sendPacket_getD_linkOnly _ _ _ _).silenced h

theorem State.sendVc3_silenced (c : Ctl) (h : Silenced n s) : Silenced n (s.sendVc3 c) :=
  (State.sendPacket_getD_linkOnly _ _ _ _).silenced h

theorem State.endColl_silenced (c : Coll) (status : Nat) (broke : Bool) (h : Silenced n s) : Silenced n (s.endColl c status broke) := by
  have hfar (o : Nat) : OtherWords n (colTnt c.tenant o) := otherWords_of_far (by simp only [colTnt]; omega)
  have hgrp : OtherWords n (colGrp c.tenant c.group) := otherWords_of_far (by simp only [colGrp]; omega)
  unfold State.endColl
  extract_lets s1 coll s2 s3 s4 s5 s6
  have h1 : Silenced n s1 := Silenced.foldl (fun u sg hu => State.releaseSlots_silenced sg hu) h
  have h2 : Silenced n s2 := h1.of_eq rfl rfl
  have h3 : Silenced n s3 := State.setFld_silenced _ _ _ (hfar _) h2
  have h4 : Silenced n s4 := .ite (State.bump_silenced _ (hfar _) h3) (.ite h3 (State.bump_silenced _ (hfar _) h3))
  have h5 : Silenced n s5 := State.setFld_silenced _ _ _ hgrp h4
  have h6 : Silenced n s6 := by
    refine .ite (Silenced.foldl (fun u x hu => ?_) h5) h4
    split
    exact .ite hu (State.sendCtl_silenced _ _ hu)
  exact State.endWork_silenced _ _ (State.updCmd_silenced _ _ _ h6)

/-! ## The parts of a tenant reset (R423) -/

theorem State.resetColls_silenced (t : Nat) (h : Silenced n s) : Silenced n (s.resetColls t) := by
  unfold State.resetColls
  extract_lets u coll v
  have hu : Silenced n u := Silenced.foldl (fun w c hw => State.endColl_silenced c _ _ hw) h
  have hv : Silenced n v := hu.of_eq rfl rfl
  exact State.zeroRegs_silenced (fun a ha _ => otherWords_of_far (by simp only [colGrp] at ha; omega)) hv

theorem State.dropAllFeeds_silenced (t : Nat) (h : Silenced n s) : Silenced n (s.dropAllFeeds t) := by
  unfold State.dropAllFeeds
  split
  · exact h
  · refine Silenced.foldl (fun u x hu => ?_) h
    split
    unfold State.dropFeeds
    exact Silenced.foldl (fun v f hv => State.endWork_silenced _ _ (State.updCmd_silenced _ _ _ hv)) (hu.of_eq rfl rfl)

theorem State.resetMigrates_silenced (t : Nat) (h : Silenced n s) : Silenced n (s.resetMigrates t) := by
  unfold State.resetMigrates
  split
  · exact h
  · refine Silenced.foldl (fun u x hu => ?_) h
    split
    split
    · exact .ite (State.sendVc3_silenced _ hu) (.ite (State.sendVc3_silenced _ hu) hu)
    · exact hu

theorem State.resetFront_silenced (t : Nat) (h : Silenced n s) : Silenced n (s.resetFront t) := by
  unfold State.resetFront
  extract_lets u rcp
  have hu : Silenced n u := Silenced.foldl (fun v r hv => State.setFld_silenced _ _ _ (otherWords_rng _ _ _)
    (State.setFlag_silenced _ _ (otherWords_rng _ _ _) (hv.of_eq rfl rfl))) h
  clear_value u
  exact hu.of_eq rfl rfl

theorem State.resetLarder_silenced (t : Nat) (h : Silenced n s) : Silenced n (s.resetLarder t) := by
  unfold State.resetLarder
  exact h.of_eq rfl rfl

/-- The delivery counters of a tenant stand in one range of keys. -/
theorem ctrKey_range {n k f : Nat} (hk : k < 4096) (hf : f < 3) : ctrKey n 0 0 ≤ ctrKey n k f ∧ ctrKey n k f < ctrKey n 0 0 + 3 * 4096 := by
  simp only [ctrKey]
  omega

/-- Zeroing the counters leaves the start of the tenant's block, and changes no delivery counter. -/
theorem State.zeroCounters_silenced (h : Silenced n s) : Silenced n (s.zeroCounters n) ∧ (s.zeroCounters n).ctrs = s.ctrs := by
  have hfar {u : State} {lo hi : Nat} (hlo : 0x120000 ≤ lo) (hu : Silenced n u ∧ u.ctrs = s.ctrs) :
      Silenced n (u.zeroRegs lo hi) ∧ (u.zeroRegs lo hi).ctrs = s.ctrs :=
    ⟨State.zeroRegs_silenced (fun a ha _ => otherWords_of_far (by omega)) hu.1, hu.2⟩
  unfold State.zeroCounters
  extract_lets s1 s2 s3 s4 s5
  have h1 : Silenced n s1 ∧ s1.ctrs = s.ctrs := by
    refine ⟨State.zeroRegs_silenced (fun a ha hb => ?_) (State.setFld_silenced _ _ _ (otherWords_tnt (by decide) (by decide) (by decide))
      (State.setWord_silenced _ (otherWords_tnt (by decide) (by decide) (by decide)) h)), rfl⟩
    constructor <;> simp only [tnt] at * <;> omega
  clear_value s1
  have h2 : Silenced n s2 ∧ s2.ctrs = s.ctrs :=
    foldl_inv (Q := fun u : State => Silenced n u ∧ u.ctrs = s.ctrs) (fun u r hu => hfar (by simp only [rng]; omega) hu) h1
  clear_value s2
  have h3 : Silenced n s3 ∧ s3.ctrs = s.ctrs := hfar (by omega) (hfar (by omega) h2)
  clear_value s3
  have h4 : Silenced n s4 ∧ s4.ctrs = s.ctrs := by
    have hu := hfar (lo := 0x601000 + 0x20 * n) (hi := 0x601018 + 0x20 * n) (by omega) h3
    exact ⟨State.zeroRegs_silenced (fun a ha hb => by constructor <;> simp only [tnt] <;> omega) hu.1, (State.zeroRegs_ctrs _ _ _).trans hu.2⟩
  clear_value s4
  have h5 : Silenced n s5 ∧ s5.ctrs = s.ctrs :=
    foldl_inv (Q := fun u : State => Silenced n u ∧ u.ctrs = s.ctrs) (fun u c hu => hfar (by omega) hu) h4
  clear_value s5
  exact ⟨h5.1.of_eq rfl rfl, h5.2⟩

/-- The middle part of a tenant reset: work, memories and what is kept of them go. -/
def State.clearTenant (s : State) (t : Nat) : State :=
  let s := s.resetColls t
  let (lo, hi) := s.wholeShare t
  let s := (List.range 128).foldl (fun s n =>
    let runs := s.ownerOf n == some t
    let s := s.updTile n fun x => x.dropTenant t runs lo hi
    if runs && s.entryOf n != some t then s.setOwner n none else s) s
  let s : State := { s with cdx := { s.cdx.discard (· == t) with slots := s.cdx.slots.filter fun (k, _) => k / 4 % 16 != t } }
  let s := (((s.dropAllFeeds t).resetMigrates t).resetFront t).resetLarder t
  let s := (s.resetRanges t).foldl (fun s (a, n) => s.zeroMa a n) s
  let lo := ctrKey t 0 0
  { s with
    ctrs := s.ctrs.filter fun (k, _) => !(decide (lo ≤ k) && decide (k < lo + 3 * 4096)),
    recov := s.recov.drop t, twin := vupd s.twin t fun _ => TwinSt.reset }

/-- The last part of a tenant reset: the tenant's registers. -/
def State.clearRegs (s : State) (t : Nat) (cmp : Bool) : State :=
  let s := (s.setFlag (tnt t 0x100) 19 false).setFlag (tnt t 0x10) 0 false
  let s := ((s.setFld (tnt t 0x50) 1 2 0).zeroRegs (tnt t 0x60) (tnt t 0x90)).zeroRegs (tnt t 0xA0) (tnt t 0xB0)
  let s := s.zeroCounters t
  if cmp then (s.setFld (tnt t 0x8) 4 2 0).tntEvent t 4 else s

/-- A tenant reset in its parts, from the states that allow one. -/
theorem State.tenantReset_eq {t : Nat} (ha : s.tState t = tsActive ∨ s.tState t = tsFrozen) (tell : Bool) :
    s.tenantReset t tell =
      (((if tell && s.comparing t then s.sendTwin 0 (.reset t) else s).setTState t tsResetting).clearTenant t).clearRegs t (s.comparing t) :=
  if_neg (by rcases ha with h | h <;> simp [State.active, h])

theorem State.clearTenant_silenced (h : Silenced n s) :
    Silenced n (s.clearTenant n) ∧ ∀ k f, k < 4096 → f < 3 → (s.clearTenant n).ctr n k f = 0 := by
  unfold State.clearTenant
  extract_lets s3
  have h3 : Silenced n s3 := State.resetColls_silenced _ h
  clear_value s3
  split
  extract_lets s4 cdx s5 s6 s7
  have h4 : Silenced n s4 := by
    subst s4
    refine Silenced.foldl (fun u i hu => ?_) h3
    extract_lets runs v
    have hv : Silenced n v := hu.of_eq rfl rfl
    clear_value v
    exact .ite (hv.of_eq rfl rfl) hv
  clear_value s4
  have h5 : Silenced n s5 := h4.of_eq rfl rfl
  clear_value s5
  have h6 : Silenced n s6 := State.resetLarder_silenced _
    (State.resetFront_silenced _ (State.resetMigrates_silenced _ (State.dropAllFeeds_silenced _ h5)))
  clear_value s6
  have h7 : Silenced n s7 := Silenced.foldl (fun u x hu => hu.of_eq rfl rfl) h6
  clear_value s7
  exact ⟨h7.of_eq rfl rfl, fun k f hk hf =>
    (congrArg BitVec.toNat (nget_filter_out fun _ => by simpa using ctrKey_range hk hf)).trans BitVec.toNat_zero⟩

theorem State.clearRegs_silenced (cmp : Bool) (h : Silenced n s) :
    Silenced n (s.clearRegs n cmp) ∧ (s.clearRegs n cmp).ctrs = s.ctrs := by
  have hreg {o : Nat} (ho : o < 0x1000) (h0 : o ≠ 0) (h34 : o ≠ 0x34) : OtherWords n (tnt n o) := otherWords_tnt ho h0 h34
  have hzero {u : State} {lo hi : Nat} (hlo : 0x34 < lo) (hhi : hi ≤ 0x1000) (hu : Silenced n u) :
      Silenced n (u.zeroRegs (tnt n lo) (tnt n hi)) :=
    State.zeroRegs_silenced (fun a ha hb => by constructor <;> simp only [tnt] at * <;> omega) hu
  unfold State.clearRegs
  extract_lets s1 s2 s3
  have h1 : Silenced n s1 := State.setFlag_silenced _ _ (hreg (by decide) (by decide) (by decide))
    (State.setFlag_silenced _ _ (hreg (by decide) (by decide) (by decide)) h)
  have h2 : Silenced n s2 := hzero (by decide) (by decide) (hzero (by decide) (by decide)
    (State.setFld_silenced _ _ _ (hreg (by decide) (by decide) (by decide)) h1))
  have c2 : s2.ctrs = s.ctrs := rfl
  clear_value s2
  obtain ⟨h3, c3⟩ : Silenced n s3 ∧ s3.ctrs = s2.ctrs := State.zeroCounters_silenced h2
  clear_value s3
  split
  · refine ⟨State.tntEvent_silenced _ _ (State.setFld_silenced _ _ _ (hreg (by decide) (by decide) (by decide)) h3), ?_⟩
    rw [State.tntEvent_ctrs, State.setFld_ctrs, c3, c2]
  · exact ⟨h3, c3.trans c2⟩

/-- A tenant reset of ACTIVE or FROZEN tenant `n`, whose function is reset and whose events are off, leaves both so, and the tenant
resetting with its counters zero. -/
theorem State.tenantReset_silences (hw : nwf s.regs = true) (hfn : s.fnState (.vf n) = FnState.reset) (hmask : s.word (tnt n 0x34) = 0)
    (ha : s.tState n = tsActive ∨ s.tState n = tsFrozen) (tell : Bool) :
    Silenced n (s.tenantReset n tell) ∧ ∀ k f, k < 4096 → f < 3 → (s.tenantReset n tell).ctr n k f = 0 := by
  rw [State.tenantReset_eq ha]
  have hl : LinkOnly s (if tell && s.comparing n then s.sendTwin 0 (.reset n) else s) := .ite (s.sendTwin_linkOnly _ _) (.refl s)
  generalize (if tell && s.comparing n then s.sendTwin 0 (.reset n) else s) = u at *
  have hv : u.vfs = s.vfs := by
    rw [LinkOnly] at hl
    rw [hl]
  have wu : nwf u.regs = true := hl.regs ▸ hw
  have mu : u.word (tnt n 0x34) = 0 := (congrArg (nget · (tnt n 0x34)) hl.regs).trans hmask
  have h1 : Silenced n (u.setTState n tsResetting) :=
    { wf := State.nwf_setFld _ _ _ _ wu
      fn := (State.fnState_of_vfs hv n).trans hfn
      state := State.fld_setFld_same _ _ _ _ wu (by decide)
      mask := (State.word_setFld_other _ _ _ wu (by simp [tnt])).trans mu }
  obtain ⟨h2, hzero⟩ := State.clearTenant_silenced h1
  obtain ⟨h3, hctrs⟩ := State.clearRegs_silenced (s.comparing n) h2
  exact ⟨h3, fun k f hk hf => by rw [State.ctr, hctrs]; exact hzero k f hk hf⟩

/-! ## Configuration requests (R46, R553, R554) -/

/-- A configuration request that the function answers. -/
theorem State.configRequest_ready (fn : Fn) (f : State → State) (hp : s.pins.perst = false) (hr : s.pf.ready = true) :
    s.configRequest fn f = f s := by
  simp [State.configRequest, hp, hr]

/-- A configuration request before the physical function is ready. -/
theorem State.configRequest_retry (fn : Fn) (f : State → State) (hp : s.pins.perst = false) (hr : s.pf.ready = false) :
    s.configRequest fn f = { s with outbox := s.outbox ++ [.retryStatus fn] } := by
  simp [State.configRequest, hp, hr, State.send]

theorem State.fnState_updFn_same (f : FnState → FnState) : (s.updFn (.vf n) f).fnState (.vf n) = f (s.fnState (.vf n)) := by
  simp only [State.fnState, State.updFn, n.isLt, dif_pos]
  exact vupd_get_same s.vfs n.isLt f

theorem State.fnState_updFn_other {m : Fin 16} (f : FnState → FnState) (hne : m ≠ n) :
    (s.updFn (.vf n) f).fnState (.vf m) = s.fnState (.vf m) := by
  simp only [State.fnState, State.updFn, m.isLt, dif_pos]
  exact vupd_get_other s.vfs m.isLt f (fun h => hne (Fin.ext h))

theorem completes_pfFlr (hw : nwf s.regs = true) (hp : s.pins.perst = false) (hr : s.pf.ready = true) :
    Completes .pfFlr s fun t => t.pf = FnState.reset ∧ t.vfEnable = false ∧ t.numVfs = 0 ∧ t.word 0x34 = 0 ∧
      (∀ a, a ≠ 0x34 → t.word a = s.word a) ∧ t.vfs = s.vfs ∧ t.hbm = s.hbm ∧ t.tiles = s.tiles ∧ t.front = s.front :=
  ⟨_, congrArg Host.Outcome.next (s.configRequest_ready .pf _ hp hr), rfl, rfl, rfl, State.word_setWord_same _ _ hw,
    fun _ ha => State.word_setWord_other _ hw ha, rfl, rfl, rfl, rfl⟩

theorem completes_vfFlr (hw : nwf s.regs = true) (hp : s.pins.perst = false) (hr : s.pf.ready = true)
    (ha : s.tState n = tsActive ∨ s.tState n = tsFrozen) :
    Completes (.vfFlr n) s fun t => t.fnState (.vf n) = FnState.reset ∧ t.tState n = tsResetting ∧ t.word (tnt n 0x34) = 0 ∧
      ∀ k f, k < 4096 → f < 3 → t.ctr n k f = 0 := by
  let u := (s.updFn (.vf n) fun _ => FnState.reset).setWord (tnt n 0x34) 0
  have hx : exec (.vfFlr n) s = .next (u.tenantReset n true) := by
    show execVfFlr n s = _
    rw [execVfFlr, if_neg (by omega), State.configRequest_ready _ _ hp hr]
  have hstate : u.tState n = s.tState n := congrArg (fun w : W32 => w.toNat / 2 ^ 0 % 2 ^ 2)
    (State.word_setWord_other (s := s.updFn (.vf n) fun _ => FnState.reset) (a := tnt n 0) 0 hw (by simp [tnt]))
  obtain ⟨h, hzero⟩ := State.tenantReset_silences (s := u) (State.nwf_setWord _ _ hw) (State.fnState_updFn_same _)
    (State.word_setWord_same (s := s.updFn (.vf n) fun _ => FnState.reset) _ _ hw) (by rw [hstate]; exact ha) true
  exact ⟨_, hx, h.fn, h.state, h.mask, hzero⟩

theorem completes_vfAccessLoss (e : PcieEn) (hp : s.pins.perst = false) (hr : s.pf.ready = true) {Q : State → Prop} (hq : Q (s.enClear e)) :
    Completes (.vfAccessLoss e) s Q := ⟨_, congrArg Host.Outcome.next (s.configRequest_ready (enFn e) _ hp hr), hq⟩

theorem completes_pcieEnableRestore (e : PcieEn) (hp : s.pins.perst = false) (hr : s.pf.ready = true) {Q : State → Prop}
    (hq : Q (s.enSet e)) : Completes (.pcieEnableRestore e) s Q :=
  ⟨_, congrArg Host.Outcome.next (s.configRequest_ready (enFn e) _ hp hr), hq⟩

/-- Without its Bus Master Enable a tenant's requests fail, and no other tenant's are affected. -/
theorem State.clearBusMaster_spec :
    (s.enClear (.busMaster n)).vfReach n = false ∧ (s.enClear (.busMaster n)).regs = s.regs ∧
      ∀ m : Fin 16, m ≠ n → (s.enClear (.busMaster n)).vfReach m = s.vfReach m := by
  refine ⟨?_, rfl, fun m hm => ?_⟩
  · simp only [State.vfReach, State.enClear, State.fnState_updFn_same, Bool.and_false]
  · simp only [State.vfReach, State.enClear, State.fnState_updFn_other _ hm]
    rfl

theorem State.setBusMaster_spec (hv : s.vfEnable = true) (hn : n.val + 1 ≤ s.numVfs) :
    (s.enSet (.busMaster n)).vfReach n = true ∧ (s.enSet (.busMaster n)).regs = s.regs := by
  refine ⟨?_, rfl⟩
  have hreach : (s.enSet (.busMaster n)).vfReach n = (s.vfEnable && decide (n.val + 1 ≤ s.numVfs) && true) := by
    simp only [State.vfReach, State.enSet, State.fnState_updFn_same]
    rfl
  rw [hreach, hv, decide_eq_true hn]
  rfl

/-- Without its Memory Space Enable a function's BARs stop responding. -/
theorem State.barLive_memDisable (fn : Fn) : (s.updFn fn fun f => { f with memEnable := false }).barLive fn = false := by
  cases fn with
  | pf => exact Bool.and_false _
  | vf k =>
    by_cases hk : k < 16
    · have hfn := State.fnState_updFn_same (s := s) (n := ⟨k, hk⟩) fun f => { f with memEnable := false }
      simp only [State.barLive, hfn, Bool.and_false]
    · simp only [State.barLive, hk, decide_false, Bool.and_false, Bool.false_and]

theorem completes_memorySpaceDisable (fn : Fn) (hp : s.pins.perst = false) (hr : s.pf.ready = true) :
    Completes (.memorySpaceDisable fn) s fun t => t.barLive fn = false ∧ t.regs = s.regs ∧ t.hbm = s.hbm :=
  ⟨_, congrArg Host.Outcome.next (s.configRequest_ready fn _ hp hr), s.barLive_memDisable fn, by cases fn <;> rfl, by cases fn <;> rfl⟩

/-! ## A command fetch without a completion (R379) -/

/-- A ring that fetches belongs to an ACTIVE tenant. -/
theorem State.active_of_fetchRoom {t r : Nat} (h : s.fetchRoom t r ≠ 0) : s.tState t = tsActive := by
  unfold State.fetchRoom at h
  by_contra hne
  have hact : s.active t = false := beq_eq_false_iff_ne.mpr hne
  simp [hact] at h

theorem completes_pcieCompletionTimeout {r : Fin 8} (htidy : s.tidy = true) (hroom : s.fetchRoom n r ≠ 0) :
    Completes (.pcieCompletionTimeout n r) s fun t =>
      t.ringState n r = 4 ∧ t.tState n = tsFrozen ∧ t.fld (tnt n 0x100) 8 8 = 0xC7 ∧ t.tiles = s.tiles := by
  have hx : exec (.pcieCompletionTimeout n r) s = .next (s.fetchFail n r) := if_neg (by omega)
  let i : Info := { ring := some (r.val, (s.ringSt n r).nextCsn % 2 ^ 32) }
  obtain ⟨hst, hlast, -, htiles⟩ := State.raise_freezes (code := 0xC7) i (State.tidy_regs htidy) n.isLt
    (State.active_of_fetchRoom hroom) (by decide) (by decide) (.inr (by decide))
  have wr : nwf (s.raise n 0xC7 i).regs = true := State.tidy_regs ((State.raise_good (Good.refl s)).tidy htidy)
  have hring : WordsOnly (· = rng n r 0x30) (s.raise n 0xC7 i) (s.fetchFail n r) := State.setFld_words _ _ _ _ rfl
  refine ⟨_, hx, State.fld_setFld_same _ _ _ _ wr (by decide), ?_, ?_, htiles⟩
  · exact (hring.fld_eq wr (by simp only [tnt, rng]; omega) 0 2).trans hst
  · exact (hring.fld_eq wr (by simp only [tnt, rng]; omega) 8 8).trans hlast

end

/-- Settles O38: a request that the function answers changes what the request names, and after a VF's reset neither an event of the
tenant reset nor any work that it ends reaches the function, whose events are off. -/
theorem pcieFunctionResetsAndEnables : Obligations.PcieFunctionResetsAndEnables := by
  intro s htidy
  have hw := State.tidy_regs htidy
  refine ⟨fun fn => ⟨_, rfl, rfl⟩, fun hp hr => ⟨completes_pfFlr hw hp hr, fun n ha => completes_vfFlr hw hp hr ha, fun n => ?_,
    fun n k hk => ?_, fun n => ?_, fun n hv hn => ?_, fun fn => completes_memorySpaceDisable fn hp hr, ?_⟩,
    fun hp hr => ⟨?_, fun fn => ?_⟩, fun n r hroom => completes_pcieCompletionTimeout htidy hroom⟩
  · exact completes_vfAccessLoss _ hp hr ⟨rfl, rfl⟩
  · refine completes_vfAccessLoss _ hp hr ⟨?_, rfl⟩
    have hlow : ¬n.val + 1 ≤ min s.numVfs k := by omega
    simp only [State.vfReach, State.enClear, hlow, decide_false, Bool.and_false, Bool.false_and]
  · exact completes_vfAccessLoss _ hp hr State.clearBusMaster_spec
  · exact completes_pcieEnableRestore _ hp hr (State.setBusMaster_spec hv hn)
  · exact completes_pcieEnableRestore _ hp hr ⟨(Bool.and_true _).trans hr, rfl⟩
  · exact ⟨_, congrArg Host.Outcome.next (s.configRequest_retry .pf _ hp hr), rfl⟩
  · exact ⟨_, congrArg Host.Outcome.next (s.configRequest_retry fn _ hp hr), rfl⟩

end Sys2Proof.Machine
end


section
/-!
PROOFS. Ports, bypasses and attachments: what an operation on an attachment changes, and O39.
-/

namespace Sys2Proof.Machine

/-! ## What an operation on the links leaves -/

/-- From `s` to `t` only register words of `P` change, and the attachments' commands, the tiles and the start stay. -/
structure LinkFrame (P : Nat → Prop) (s t : State) : Prop where
  words : WordsOnly P s t
  atts : t.lnk.atts = s.lnk.atts
  tiles : t.tiles = s.tiles
  boot : t.boot = s.boot

section
variable {P Q : Nat → Prop} {s t u : State}

theorem LinkFrame.refl (s : State) : LinkFrame P s s := ⟨.refl s, rfl, rfl, rfl⟩

theorem LinkFrame.trans (h : LinkFrame P s t) (g : LinkFrame P t u) : LinkFrame P s u :=
  ⟨h.words.trans g.words, g.atts.trans h.atts, g.tiles.trans h.tiles, g.boot.trans h.boot⟩

theorem LinkFrame.mono (h : LinkFrame P s t) (hpq : ∀ a, P a → Q a) : LinkFrame Q s t :=
  ⟨h.words.mono hpq, h.atts, h.tiles, h.boot⟩

theorem LinkFrame.ite {c : Prop} [Decidable c] (ht : LinkFrame P s t) (hu : LinkFrame P s u) : LinkFrame P s (if c then t else u) := by
  split <;> assumption

theorem LinkFrame.foldl {α : Type} {f : State → α → State} {l : List α} (hf : ∀ s, ∀ x ∈ l, LinkFrame P s (f s x)) (s : State) :
    LinkFrame P s (l.foldl f s) := by
  induction l generalizing s with
  | nil => exact .refl s
  | cons x l ih => exact (hf s x List.mem_cons_self).trans (ih (fun s y hy => hf s y (List.mem_cons_of_mem x hy)) _)

/-- A report on the words of `P` is such a step. -/
theorem Reports.linkFrame (h : Reports s t) (hw : WordsOnly P s t) : LinkFrame P s t :=
  ⟨hw, congrArg Lnk.atts h.lnk, h.tiles, h.boot⟩

/-- So is a change of the link state alone that leaves the attachments. -/
theorem LinkOnly.linkFrame (h : LinkOnly s t) (ha : t.lnk.atts = s.lnk.atts) : LinkFrame P s t := by
  refine ⟨.of_regs_eq h.regs, ha, h.tiles, ?_⟩
  rw [LinkOnly] at h
  rw [h]

theorem LinkFrame.portState (h : LinkFrame P s t) (hw : nwf s.regs = true) {p : Nat} (hp : ¬P (portReg p)) :
    t.portState p = s.portState p := h.words.fld_eq hw hp 0 3

theorem LinkFrame.attState (h : LinkFrame P s t) (hw : nwf s.regs = true) {k : Nat} (hk : ¬P (attReg k)) :
    t.attState k = s.attState k := h.words.fld_eq hw hk 0 2

theorem LinkFrame.att (h : LinkFrame P s t) (k : Nat) : t.att k = s.att k := by
  simp only [State.att, h.atts]

/-! ## Sending over the links (R335 to R339) -/

variable (s)

theorem State.freeBuffer_atts (port seq vc : Nat) : (s.freeBuffer port seq vc).lnk.atts = s.lnk.atts := by
  unfold State.freeBuffer
  split <;> rfl

theorem State.sendOne_atts (port : Nat) (pkt : Packet) (what : Queued ⊕ HeldPkt) : (s.sendOne port pkt what).lnk.atts = s.lnk.atts := by
  unfold State.sendOne
  cases what with
  | inl q =>
    dsimp only
    split
    · exact State.freeBuffer_atts _ _ _ _
    · rfl
  | inr h => rfl

theorem State.sendAll_atts (port fuel : Nat) : (s.sendAll port fuel).lnk.atts = s.lnk.atts := by
  induction fuel generalizing s with
  | zero => rfl
  | succ fuel ih =>
    unfold State.sendAll
    split
    · rfl
    split
    · rfl
    split
    · rfl
    · exact (ih _).trans (State.sendOne_atts _ _ _ _)

theorem State.flushPort_linkFrame (port : Nat) : LinkFrame P s (s.flushPort port) :=
  (s.sendAll_linkOnly port 1024).linkFrame (s.sendAll_atts port 1024)

theorem State.holdPacket_atts (h : HeldPkt) : (s.holdPacket h).lnk.atts = s.lnk.atts := by
  unfold State.holdPacket
  exact State.sendAll_atts _ _ _

theorem State.sendPacket_linkFrame (p : Packet) (pair : Bool) (w : Waiter) (twin : Bool) (h : s.sendPacket p pair w twin = some t) :
    LinkFrame P s t := by
  refine (s.sendPacket_linkOnly p pair w twin h).linkFrame ?_
  unfold State.sendPacket at h
  obtain ⟨q, -, rfl⟩ := Option.map_eq_some_iff.mp h
  dsimp only
  split
  · rfl
  · exact s.holdPacket_atts _

theorem State.sendCtl_linkFrame (dst : Nat) (c : Ctl) : LinkFrame P s (s.sendCtl dst c) := by
  unfold State.sendCtl
  extract_lets p
  cases h : s.sendPacket p false .free false with
  | none => exact .refl s
  | some t => exact s.sendPacket_linkFrame _ _ _ _ h

/-! ## The paths anew after a change of the links (R338, R340) -/

/-- The words that new paths may change: the counts of packets sent again and lost and, where a packet of a pair was held, those that
the note of its loss changes. -/
def RepathWords (pair : Prop) (a : Nat) : Prop := a = 0x502200 ∨ a = 0x502208 ∨ pair ∧ ModuleEntryWords a

/-- A packet of a pair waits for its acknowledgement. -/
def State.holdsPair (s : State) : Prop := ∃ h ∈ s.lnk.held, h.pair = true

theorem State.rehold_linkFrame {pair : Prop} (h : HeldPkt) (hp : h.pair = true → pair) : LinkFrame (RepathWords pair) s (s.rehold h) := by
  unfold State.rehold
  split
  · refine .ite (.refl s) ?_
    extract_lets lnk u
    have hu : LinkFrame (RepathWords pair) s u := ⟨.of_regs_eq rfl, rfl, rfl, rfl⟩
    exact .ite (hu.trans ((u.bump_reports _ _).linkFrame (u.bump_words _ (.inl rfl)))) hu
  · extract_lets lnk u v
    have hu : LinkFrame (RepathWords pair) s u := ⟨.of_regs_eq rfl, rfl, rfl, rfl⟩
    have hv : LinkFrame (RepathWords pair) s v := hu.trans ((u.bump_reports _ _).linkFrame (u.bump_words _ (.inr (.inl rfl))))
    clear_value v
    split
    next hpair => exact hv.trans ((v.note_reports _ _).linkFrame ((v.moduleEntry_recordWords _ _).mono fun a ha => .inr (.inr ⟨hp hpair, ha⟩)))
    next => exact hv

theorem State.repath_linkFrame : LinkFrame (RepathWords s.holdsPair) s s.repath := by
  unfold State.repath
  extract_lets u
  have hfold : LinkFrame (RepathWords s.holdsPair) s (s.lnk.held.foldl (fun s h => s.rehold h) s) :=
    LinkFrame.foldl (fun v h hh => v.rehold_linkFrame h fun hp => ⟨h, hh, hp⟩) s
  have hu : LinkFrame (RepathWords s.holdsPair) s u := hfold.trans ⟨.of_regs_eq rfl, rfl, rfl, rfl⟩
  exact hu.trans (LinkFrame.foldl (fun v p _ => v.flushPort_linkFrame p) u)

theorem State.linkChanged_linkFrame (k : Nat) : LinkFrame (RepathWords s.holdsPair) s (s.linkChanged k) :=
  s.repath_linkFrame.trans (LinkFrame.foldl (fun v i _ => .ite (.refl v) (v.sendCtl_linkFrame i _)) _)

theorem State.not_holdsPair {s : State} (h : ∀ p ∈ s.lnk.held, p.pair = false) : ¬s.holdsPair := by
  rintro ⟨p, hp, hpair⟩
  rw [h p hp] at hpair
  contradiction

/-! ## The states of ports and attachments (R345) -/

/-- The words that a change of port `p` may touch: its own, and Vitrine's. -/
def PortWords (p a : Nat) : Prop := a = portReg p ∨ 0xA00000 ≤ a

/-- The words that a change of both ports of attachment `k` may touch. -/
def PairWords (k a : Nat) : Prop := PortWords (2 * k) a ∨ PortWords (2 * k + 1) a

/-- The words that a change of attachment `k` may touch: its own, MOD_EVENT and Vitrine's. -/
def AttWords (k a : Nat) : Prop := a = attReg k ∨ a = 0x30 ∨ 0xA00000 ≤ a

theorem State.setPort_reports (p v : Nat) : Reports s (s.setPort p v) :=
  .ite (.refl s) ((s.setFld_reports _ _ _ _).trans (State.event_reports _ _ _ _ _ _ _))

theorem State.setPort_linkFrame (p v : Nat) : LinkFrame (PortWords p) s (s.setPort p v) :=
  (s.setPort_reports p v).linkFrame
    (.ite (.refl s) ((s.setFld_words _ _ _ (.inl rfl)).trans (State.event_words _ _ _ _ _ _ _ fun _ h => .inr h)))

theorem State.setPort_portState {p v : Nat} (hw : nwf s.regs = true) (hp : p < 18) (hv : v < 8) : (s.setPort p v).portState p = v := by
  unfold State.setPort
  split
  · assumption
  · have he := (s.setFld (portReg p) 0 3 v).event_words (P := (0xA00000 ≤ ·)) 0x0C none none p
      (leBytes 1 v ++ leBytes 1 (s.fld (portReg p) 3 3) ++ leBytes 1 (s.fld (portReg p + 4) 0 6)) (0, 0) fun _ h => h
    rw [State.portState, he.fld_eq (State.nwf_setFld _ _ _ _ hw) (by simp only [portReg]; omega), State.fld_setFld_same _ _ _ _ hw (by decide)]
    omega

theorem State.setPorts_lnk (p q v w : Nat) : ((s.setPort p v).setPort q w).lnk = s.lnk :=
  (State.setPort_reports _ _ _).lnk.trans (s.setPort_reports p v).lnk

/-- Both ports of an attachment brought into one state. -/
theorem State.setPorts_spec {k v : Nat} (hw : nwf s.regs = true) (hk : k < 8) (hv : v < 8) :
    LinkFrame (PairWords k) s ((s.setPort (2 * k) v).setPort (2 * k + 1) v) ∧
      ((s.setPort (2 * k) v).setPort (2 * k + 1) v).portState (2 * k) = v ∧
      ((s.setPort (2 * k) v).setPort (2 * k + 1) v).portState (2 * k + 1) = v := by
  have h1 := s.setPort_linkFrame (2 * k) v
  have h2 := (s.setPort (2 * k) v).setPort_linkFrame (2 * k + 1) v
  have w1 := h1.words.wf hw
  refine ⟨(h1.mono fun _ h => .inl h).trans (h2.mono fun _ h => .inr h), ?_, State.setPort_portState _ w1 (by omega) hv⟩
  rw [h2.portState w1 (by simp only [PortWords, portReg]; omega), State.setPort_portState _ hw (by omega) hv]

theorem State.setAtt_reports (k v : Nat) : Reports s (s.setAtt k v) :=
  .ite (.refl s) (((s.setFld_reports _ _ _ _).trans (State.modEvent_reports _ _)).trans (State.event_reports _ _ _ _ _ _ _))

/-- A change of LNK_ATT.STATE after its word is set touches MOD_EVENT and Vitrine's words alone. -/
theorem State.setAtt_words (k v : Nat) :
    WordsOnly (fun a => a = 0x30 ∨ 0xA00000 ≤ a) (if s.attState k = v then s else s.setFld (attReg k) 0 2 v) (s.setAtt k v) := by
  unfold State.setAtt
  split
  · exact .refl s
  · exact (State.modEvent_words _ _ (.inl rfl)).trans (State.event_words _ _ _ _ _ _ _ fun _ h => .inr h)

theorem State.setAtt_linkFrame (k v : Nat) : LinkFrame (AttWords k) s (s.setAtt k v) :=
  (s.setAtt_reports k v).linkFrame
    (WordsOnly.trans (.ite (.refl s) (s.setFld_words _ _ _ (.inl rfl))) ((s.setAtt_words k v).mono fun _ h => .inr h))

theorem State.setAtt_attState {k v : Nat} (hw : nwf s.regs = true) (hk : k < 8) (hv : v < 4) : (s.setAtt k v).attState k = v := by
  have h := s.setAtt_words k v
  rw [State.attState, h.fld_eq (by split <;> [exact hw; exact State.nwf_setFld _ _ _ _ hw]) (by simp only [attReg]; omega)]
  split
  · assumption
  · rw [State.fld_setFld_same _ _ _ _ hw (by decide)]
    omega

/-- BYPASS and the bits above it stay where LNK_ATT.STATE changes. -/
theorem State.setAtt_flag {k b : Nat} (v : Nat) (hw : nwf s.regs = true) (hk : k < 8) (hb : 2 ≤ b) :
    (s.setAtt k v).flag (attReg k) b = s.flag (attReg k) b := by
  have h := s.setAtt_words k v
  rw [h.flag_eq (by split <;> [exact hw; exact State.nwf_setFld _ _ _ _ hw]) (by simp only [attReg]; omega)]
  split
  · rfl
  · exact congrArg (· == 1) (State.fld_setFld_above _ hw (by decide) hb)

/-! ## The bypass (R326, R329) -/

theorem State.att_updAtt {k : Nat} (hk : k < 8) (f : Att → Att) : (s.updAtt k f).att k = f (s.att k) := by
  simp [State.att, State.updAtt, vupd, hk]

/-- A command of the bypass leaves LNK_ATT.STATE; BYPASS shows it where the switch is not stuck. -/
theorem State.bypass_spec {k : Nat} (open_ : Bool) (hw : nwf s.regs = true) (hk : k < 8) :
    WordsOnly (· = attReg k) s (s.bypass k open_) ∧ (s.bypass k open_).attState k = s.attState k ∧
      ((s.att k).stuck = false → (s.bypass k open_).flag (attReg k) 2 = !open_) ∧
      (s.bypass k open_).att k = { s.att k with openCmd := open_ } ∧ (s.bypass k open_).tiles = s.tiles ∧
      (s.bypass k open_).boot = s.boot := by
  unfold State.bypass
  extract_lets u
  have hatt : u.att k = { s.att k with openCmd := open_ } := s.att_updAtt hk _
  have hu : WordsOnly (· = attReg k) s u := .of_regs_eq rfl
  split
  next hst => exact ⟨hu, rfl, fun h => absurd hst (by simp [h]), hatt, rfl, rfl⟩
  next =>
    exact ⟨hu.trans (u.setFlag_words _ _ rfl), State.fld_setFld_below (s := u) _ hw (by decide) (by decide),
      fun _ => State.flag_setFlag_same _ _ _ hw (by decide), hatt, rfl, rfl⟩

/-! ## Joining (R330) -/

theorem State.setFlag_linkFrame {off : Nat} (b : Nat) (v : Bool) (hp : P off) : LinkFrame P s (s.setFlag off b v) :=
  (s.setFlag_reports off b v).linkFrame (s.setFlag_words b v hp)

theorem not_repathWords_portReg {pair : Prop} {p : Nat} (hp : p < 18) : ¬RepathWords pair (portReg p) := by
  simp only [RepathWords, ModuleEntryWords, portReg]
  omega

theorem not_repathWords_attReg {pair : Prop} {k : Nat} (hk : k < 8) : ¬RepathWords pair (attReg k) := by
  simp only [RepathWords, ModuleEntryWords, attReg]
  omega

theorem not_attWords_portReg {k p : Nat} (hk : k < 8) (hp : p < 18) : ¬AttWords k (portReg p) := by
  simp only [AttWords, portReg, attReg]
  omega

theorem not_pairWords_attReg {k j : Nat} (hk : k < 8) (hj : j < 8) : ¬PairWords k (attReg j) := by
  simp only [PairWords, PortWords, portReg, attReg]
  omega

/-- An open step brings both ports and the attachment into joining, with the bypass open and the window running. -/
theorem State.openJoin_spec {k : Nat} (hw : nwf s.regs = true) (hk : k < 8) :
    (s.openJoin k).portState (2 * k) = psJoin ∧ (s.openJoin k).portState (2 * k + 1) = psJoin ∧ (s.openJoin k).attState k = asJoin ∧
      ((s.att k).stuck = false → (s.openJoin k).flag (attReg k) 2 = false) ∧
      (s.openJoin k).att k = { s.att k with openCmd := true, window := true, retry := false } ∧ (s.openJoin k).tiles = s.tiles := by
  unfold State.openJoin
  extract_lets s1 s2 s3
  obtain ⟨hb, -, hflag, hatt, htiles, -⟩ := s.bypass_spec true hw hk
  have h1 : s1.att k = { s.att k with openCmd := true, window := true, retry := false } := by
    rw [State.att_updAtt _ hk, hatt]
  have t1 : s1.tiles = s.tiles := htiles
  have f1 : (s.att k).stuck = false → s1.flag (attReg k) 2 = false := hflag
  have w1 : nwf s1.regs = true := hb.wf hw
  clear_value s1
  obtain ⟨h2, hup, hdown⟩ := s1.setPorts_spec w1 hk (show psJoin < 8 by decide)
  have h3 : LinkFrame (PairWords k) s1 s3 := h2.trans ⟨.of_regs_eq rfl, rfl, rfl, rfl⟩
  have p3 : s3.portState (2 * k) = psJoin ∧ s3.portState (2 * k + 1) = psJoin := ⟨hup, hdown⟩
  clear_value s3
  have w3 := h3.words.wf w1
  have h4 := s3.setAtt_linkFrame k asJoin
  have w4 := h4.words.wf w3
  have h5 := (s3.setAtt k asJoin).linkChanged_linkFrame k
  have hport : ∀ p < 18, ((s3.setAtt k asJoin).linkChanged k).portState p = s3.portState p := fun p hp =>
    (h5.portState w4 (not_repathWords_portReg hp)).trans (h4.portState w3 (not_attWords_portReg hk hp))
  refine ⟨?_, ?_, ?_, fun hst => ?_, ?_, ?_⟩
  · rw [hport _ (by omega), p3.1]
  · rw [hport _ (by omega), p3.2]
  · rw [h5.attState w4 (not_repathWords_attReg hk), State.setAtt_attState _ w3 hk (by decide)]
  · rw [h5.words.flag_eq w4 (not_repathWords_attReg hk), State.setAtt_flag _ _ w3 hk (by decide),
      h3.words.flag_eq w1 (not_pairWords_attReg hk hk), f1 hst]
  · rw [h5.att, h4.att, h3.att, h1]
  · rw [h5.tiles, h4.tiles, h3.tiles, t1]

variable {s}

theorem completes_attachmentJoin {k : Nat} (hw : nwf s.regs = true) (hk : k < 8) (hu : s.attUsed k = true) (ha : s.attState k = asJoin)
    (hwin : (s.att k).window = false) (hstep : s.startStep = 6 ∨ s.serves = true) (hup : s.lanesOk (2 * k) = true)
    (hdown : s.lanesOk (2 * k + 1) = true) :
    Completes (.attachmentJoin k true true) s fun t =>
      t.portState (2 * k) = psJoin ∧ t.portState (2 * k + 1) = psJoin ∧ t.attState k = asJoin ∧
      ((s.att k).stuck = false → t.flag (attReg k) 2 = false) ∧
      t.att k = { s.att k with openCmd := true, window := true, retry := false } ∧ t.tiles = s.tiles := by
  have hx : exec (.attachmentJoin k true true) s = .next (((s.setPort (2 * k) psLoop).setPort (2 * k + 1) psLoop).openJoin k) := by
    show execAttachmentJoin k true true s = _
    unfold execAttachmentJoin
    rcases hstep with h | h <;> simp [hk, hu, ha, hwin, hup, hdown, h]
  obtain ⟨hl, -, -⟩ := s.setPorts_spec hw hk (show psLoop < 8 by decide)
  obtain ⟨h1, h2, h3, h4, h5, h6⟩ := State.openJoin_spec _ (hl.words.wf hw) hk
  rw [hl.att] at h4 h5
  exact ⟨_, hx, h1, h2, h3, h4, h5, h6.trans hl.tiles⟩

theorem completes_joinRetryTimer {k : Nat} (hw : nwf s.regs = true) (hk : k < 8) (hr : (s.att k).retry = true) (hstep : s.startStep = 6) :
    Completes (.joinRetryTimer k) s fun t =>
      t.portState (2 * k) = psJoin ∧ t.portState (2 * k + 1) = psJoin ∧ t.attState k = asJoin ∧
      t.att k = { s.att k with openCmd := true, window := true, retry := false } := by
  obtain ⟨h1, h2, h3, -, h5, -⟩ := s.openJoin_spec hw hk
  exact ⟨_, if_pos (by simp [hr, hstep]), h1, h2, h3, h5⟩

/-- The bypass commanded closed, the attachment's commands changed by `f`, and both ports brought into state `v`. -/
def State.closePorts (s : State) (k v : Nat) (f : Att → Att) : State :=
  (((s.bypass k false).updAtt k f).setPort (2 * k) v).setPort (2 * k + 1) v

/-- The words that closing the bypass of attachment `k` and changing its ports may touch. -/
def CloseWords (k a : Nat) : Prop := a = attReg k ∨ PairWords k a

theorem State.closePorts_spec {k v : Nat} (f : Att → Att) (hw : nwf s.regs = true) (hk : k < 8) (hv : v < 8) :
    WordsOnly (CloseWords k) s (s.closePorts k v f) ∧ (s.closePorts k v f).attState k = s.attState k ∧
      ((s.att k).stuck = false → (s.closePorts k v f).flag (attReg k) 2 = true) ∧
      (s.closePorts k v f).att k = f { s.att k with openCmd := false } ∧ (s.closePorts k v f).portState (2 * k) = v ∧
      (s.closePorts k v f).portState (2 * k + 1) = v ∧ (s.closePorts k v f).boot = s.boot := by
  obtain ⟨hb, hstate, hflag, hatt, -, hboot⟩ := s.bypass_spec false hw hk
  unfold State.closePorts
  generalize s.bypass k false = c at *
  have hc : (c.updAtt k f).att k = f { s.att k with openCmd := false } := by rw [State.att_updAtt _ hk, hatt]
  have wc : nwf (c.updAtt k f).regs = true := hb.wf hw
  obtain ⟨hl, hup, hdown⟩ := (c.updAtt k f).setPorts_spec wc hk hv
  have hwords : WordsOnly (PairWords k) c (((c.updAtt k f).setPort (2 * k) v).setPort (2 * k + 1) v) := ⟨hl.words.wf, hl.words.word⟩
  refine ⟨(hb.mono fun _ h => .inl h).trans (hwords.mono fun _ h => .inr h), ?_, fun hst => ?_,
    (hl.att k).trans hc, hup, hdown, hl.boot.trans hboot⟩
  · exact (hl.attState wc (not_pairWords_attReg hk hk)).trans hstate
  · exact (hl.words.flag_eq wc (not_pairWords_attReg hk hk) 2).trans (hflag hst)

/-! ## Attachments that go down (R329, R330, R332) -/

/-- The words that bringing attachment `k` to DOWN may touch: its own, LNK_CTL, MOD_EVENT and Vitrine's. -/
def DownWords (k a : Nat) : Prop := AttWords k a ∨ a = 0x502000

theorem not_downWords_portReg {k p : Nat} (hk : k < 8) (hp : p < 18) : ¬DownWords k (portReg p) :=
  not_or.mpr ⟨not_attWords_portReg hk hp, by simp only [portReg]; omega⟩

/-- LNK_ATT.STATE becomes `v` and the RETRY bit clears; BYPASS stays. -/
theorem State.setAttClear_spec {k v : Nat} (hw : nwf s.regs = true) (hk : k < 8) (hv : v < 4) :
    LinkFrame (DownWords k) s ((s.setAtt k v).setFlag 0x502000 k false) ∧
      ((s.setAtt k v).setFlag 0x502000 k false).attState k = v ∧
      ((s.setAtt k v).setFlag 0x502000 k false).flag (attReg k) 2 = s.flag (attReg k) 2 ∧
      ((s.setAtt k v).setFlag 0x502000 k false).flag 0x502000 k = false := by
  have h1 := s.setAtt_linkFrame k v
  have w1 := h1.words.wf hw
  have h2 : LinkFrame (· = 0x502000) (s.setAtt k v) ((s.setAtt k v).setFlag 0x502000 k false) := State.setFlag_linkFrame _ _ _ rfl
  have hne : attReg k ≠ 0x502000 := by
    simp only [attReg]
    omega
  refine ⟨(h1.mono fun _ h => .inl h).trans (h2.mono fun _ h => .inr h), ?_, ?_, State.flag_setFlag_same _ _ _ w1 (by omega)⟩
  · rw [h2.attState w1 hne, State.setAtt_attState _ hw hk hv]
  · rw [h2.words.flag_eq w1 hne, State.setAtt_flag _ _ hw hk (by decide)]
theorem completes_attachmentJoin_failed {k : Nat} (b : Bool) (hw : nwf s.regs = true) (hk : k < 8) (hu : s.attUsed k = true)
    (ha : s.attState k = asJoin) (hwin : (s.att k).window = false) (hstep : s.startStep = 6 ∨ s.serves = true) :
    Completes (.attachmentJoin k false b) s fun t =>
      t.portState (2 * k) = psDown ∧ t.attState k = asDown ∧ ((s.att k).stuck = false → t.flag (attReg k) 2 = true) ∧
      (t.att k).openCmd = false ∧ t.flag 0x502000 k = false ∧ t.tiles = s.tiles := by
  let u := if (b && s.lanesOk (2 * k + 1)) = true then s.setPort (2 * k) psDown else (s.setPort (2 * k) psDown).setPort (2 * k + 1) psDown
  have hx : exec (.attachmentJoin k false b) s = .next (((u.bypass k false).setAtt k asDown).setFlag 0x502000 k false) := by
    show execAttachmentJoin k false b s = _
    unfold execAttachmentJoin
    rcases hstep with h | h <;> simp [hk, hu, ha, hwin, h, u]
  have hl : LinkFrame (PairWords k) s u ∧ u.portState (2 * k) = psDown := by
    obtain ⟨hboth, hport, -⟩ := s.setPorts_spec hw hk (show psDown < 8 by decide)
    subst u
    split
    · exact ⟨(s.setPort_linkFrame _ _).mono fun _ h => .inl h, s.setPort_portState hw (by omega) (by decide)⟩
    · exact ⟨hboth, hport⟩
  clear_value u
  obtain ⟨hframe, hport⟩ := hl
  have wu := hframe.words.wf hw
  obtain ⟨hb, -, hflag, hatt, htiles, -⟩ := u.bypass_spec false wu hk
  rw [hframe.att] at hflag hatt
  have wb := hb.wf wu
  obtain ⟨hd, hstate, hbit, hretry⟩ := State.setAttClear_spec (s := u.bypass k false) wb hk (show asDown < 4 by decide)
  refine ⟨_, hx, ?_, hstate, fun hst => hbit.trans (hflag hst), ?_, hretry, ?_⟩
  · rw [hd.portState wb (not_downWords_portReg hk (by omega)), State.portState, hb.fld_eq wu (by simp only [portReg, attReg]; omega)]
    exact hport
  · rw [hd.att, hatt]
  · rw [hd.tiles, htiles, hframe.tiles]

/-- What the expiry of a window makes of the closed attachment: it waits to try again in a start, and else it is down. -/
def State.windowEnd (u : State) (k : Nat) : State :=
  if u.boot.state == .starting then u else (u.setAtt k asDown).setFlag 0x502000 k false

theorem State.windowEnd_spec {k : Nat} (hw : nwf s.regs = true) (hk : k < 8) :
    LinkFrame (DownWords k) s (s.windowEnd k) ∧
      (s.windowEnd k).attState k = (if s.boot.state = .starting then s.attState k else asDown) ∧
      (s.windowEnd k).flag (attReg k) 2 = s.flag (attReg k) 2 := by
  obtain ⟨hd, hstate, hbit, -⟩ := s.setAttClear_spec hw hk (show asDown < 4 by decide)
  unfold State.windowEnd
  by_cases h : s.boot.state = .starting
  · rw [if_pos (by simp [h]), if_pos h]
    exact ⟨.refl s, rfl, rfl⟩
  · rw [if_neg (by simpa using h), if_neg h]
    exact ⟨hd, hstate, hbit⟩

theorem completes_joinWindowExpiry {k : Nat} (hw : nwf s.regs = true) (hk : k < 8) (hwin : (s.att k).window = true) :
    Completes (.joinWindowExpiry k) s fun t =>
      t.portState (2 * k) = psDark ∧ t.portState (2 * k + 1) = psDark ∧ ((s.att k).stuck = false → t.flag (attReg k) 2 = true) ∧
      t.att k = { s.att k with openCmd := false, window := false, retry := s.boot.state == .starting } ∧
      t.attState k = if s.boot.state = .starting then s.attState k else asDown := by
  have hx : exec (.joinWindowExpiry k) s =
      .next (((s.closePorts k psDark fun a => { a with window := false, retry := s.boot.state == .starting }).windowEnd k).linkChanged k) :=
    if_neg (by simp [hwin])
  obtain ⟨hc, hstate, hflag, hatt, hup, hdown, hboot⟩ :=
    s.closePorts_spec (fun a => { a with window := false, retry := s.boot.state == .starting }) hw hk (show psDark < 8 by decide)
  generalize s.closePorts k psDark _ = u at *
  have wu := hc.wf hw
  obtain ⟨hd, hend, hbit⟩ := u.windowEnd_spec wu hk
  have wd := hd.words.wf wu
  have hl := (u.windowEnd k).linkChanged_linkFrame k
  have hport : ∀ p < 18, ((u.windowEnd k).linkChanged k).portState p = u.portState p := fun p hp =>
    (hl.portState wd (not_repathWords_portReg hp)).trans (hd.portState wu (not_downWords_portReg hk hp))
  refine ⟨_, hx, (hport _ (by omega)).trans hup, (hport _ (by omega)).trans hdown, fun hst => ?_, ?_, ?_⟩
  · rw [hl.words.flag_eq wd (not_repathWords_attReg hk), hbit, hflag hst]
  · rw [hl.att, hd.att, hatt]
  · rw [hl.attState wd (not_repathWords_attReg hk), hend, hboot, hstate]

/-! ## The module fault record's last entry (R485, R505) -/

theorem State.word_setBytes_first {off : Nat} {bs : List Byte} (hw : nwf s.regs = true) (hb : bs ≠ []) :
    (s.setBytes off bs).word off = BitVec.ofNat 32 (leNat (bs.take 4)) := by
  obtain ⟨n, hn⟩ : ∃ n, ceilDiv bs.length 4 = n + 1 := by
    have := List.length_pos_iff.mpr hb
    exact ⟨ceilDiv bs.length 4 - 1, by simp only [ceilDiv]; omega⟩
  have hset : s.setBytes off bs = (List.range (ceilDiv bs.length 4)).foldl
      (fun s i => s.setWord (off + 4 * i) (BitVec.ofNat 32 (leNat ((bs.drop (4 * i)).take 4)))) s := by
    cases bs with
    | nil => contradiction
    | cons b bs => rfl
  have hrest : WordsOnly (· ≠ off) (s.setWord off (BitVec.ofNat 32 (leNat (bs.take 4)))) (s.setBytes off bs) := by
    rw [hset, hn, List.range_succ_eq_map, List.foldl_cons]
    refine WordsOnly.foldl (fun u i hi => u.setWord_words _ ?_) _
    obtain ⟨j, -, rfl⟩ := List.mem_map.mp hi
    omega
  rw [hrest.word (State.nwf_setWord _ _ hw) _ (by simp), State.word_setWord_same _ _ hw]

/-- The last entry of the module fault record names its code. -/
theorem State.moduleEntry_lastCode (code : Nat) (i : Info) (hw : nwf s.regs = true) :
    (s.moduleEntry code i).fld 0x700040 0 8 = code % 256 := by
  unfold State.moduleEntry
  extract_lets e empty s1
  have w1 : nwf s1.regs = true :=
    (WordsOnly.ite (P := fun _ => True) (State.setEntry_words _ _ _ fun _ _ _ => trivial) (s.bump_words _ trivial)).wf hw
  clear_value s1
  have h2 : WordsOnly (fun _ => True) s1 (s1.setBytes 0x700040 e) := State.setEntry_words _ _ _ fun _ _ _ => trivial
  have h3 : WordsOnly (fun a => a = 0x30 ∨ 0xA00000 ≤ a) (s1.setBytes 0x700040 e)
      (((s1.setBytes 0x700040 e).modEvent 2).faultTrace none code i) :=
    (State.modEvent_words _ _ (.inl rfl)).trans (State.faultTrace_words _ _ _ _ fun _ h => .inr h)
  have he : e ≠ [] := fun h => by simpa [e, h] using length_entryBytes code s.tickNo i
  have hfirst : leNat (e.take 4) = code % 256 + 256 * leNat (e.tail.take 3) := by simp [e, entryBytes, leBytes, leNat]
  rw [h3.fld_eq (h2.wf w1) (by decide), State.fld, State.word_setBytes_first w1 he, hfirst]
  simp only [BitVec.toNat_ofNat]
  omega

theorem completes_bypassSettleTimeout {k : Nat} (hw : nwf s.regs = true) (hk : k < 8) (hu : s.attUsed k = true) :
    Completes (.bypassSettleTimeout k) s fun t =>
      t.portState (2 * k) = psDown ∧ t.portState (2 * k + 1) = psDown ∧ t.attState k = asDown ∧
      t.flag (attReg k) 2 = (s.att k).openCmd ∧ ((∀ h ∈ s.lnk.held, h.pair = false) → t.fld 0x700040 0 8 = 0xA5) ∧
      t.att k = { s.att k with openCmd := false, window := false, retry := false, stuck := true } := by
  let n := (s.note 0xA5 { detail := k }).setFlag (attReg k) 2 (s.att k).openCmd
  let c := n.updAtt k fun a => { a with openCmd := false, window := false, retry := false, stuck := true }
  let u := (((c.setAtt k asDown).setPort (2 * k) psDown).setPort (2 * k + 1) psDown).setFlag 0x502000 k false
  have hx : exec (.bypassSettleTimeout k) s = .next (u.linkChanged k) := if_neg (by simp [hk, hu])
  have wnote : nwf (s.note 0xA5 { detail := k }).regs = true := State.moduleEntry_words _ |>.wf hw
  have wc : nwf c.regs = true := State.nwf_setFlag _ _ _ wnote
  have ac : c.att k = { s.att k with openCmd := false, window := false, retry := false, stuck := true } := by
    have hn : n.att k = s.att k := by simp only [State.att, n, State.setFlag_lnk, State.note_lnk]
    rw [State.att_updAtt _ hk, hn]
  have bc : c.flag (attReg k) 2 = (s.att k).openCmd := State.flag_setFlag_same _ _ _ wnote (by decide)
  have ec : c.fld 0x700040 0 8 = 0xA5 :=
    (State.fld_setFld_other (s := s.note 0xA5 { detail := k }) _ _ _ _ _ wnote (by simp only [attReg]; omega)).trans
      (State.moduleEntry_lastCode _ _ hw)
  have lc : c.lnk.held = s.lnk.held := by
    show (s.note 0xA5 { detail := k }).lnk.held = s.lnk.held
    rw [State.note_lnk]
  clear_value n c
  have h1 := c.setAtt_linkFrame k asDown
  have w1 := h1.words.wf wc
  obtain ⟨h2, hup, hdown⟩ := (c.setAtt k asDown).setPorts_spec w1 hk (show psDown < 8 by decide)
  have w2 := h2.words.wf w1
  have h3 : LinkFrame (· = 0x502000) _ u := State.setFlag_linkFrame _ k false rfl
  have lu : u.lnk.held = s.lnk.held := by
    show (((c.setAtt k asDown).setPort (2 * k) psDown).setPort (2 * k + 1) psDown).lnk.held = s.lnk.held
    rw [State.setPorts_lnk, (c.setAtt_reports k asDown).lnk, lc]
  have w3 := h3.words.wf w2
  have h4 := u.linkChanged_linkFrame k
  have hne : attReg k ≠ 0x502000 := by
    simp only [attReg]
    omega
  have hnp : ∀ p < 18, portReg p ≠ 0x502000 := fun p hp => by
    simp only [portReg]
    omega
  refine ⟨_, hx, ?_, ?_, ?_, ?_, fun hpair => ?_, ?_⟩
  · rw [h4.portState w3 (not_repathWords_portReg (by omega)), h3.portState w2 (hnp _ (by omega)), hup]
  · rw [h4.portState w3 (not_repathWords_portReg (by omega)), h3.portState w2 (hnp _ (by omega)), hdown]
  · rw [h4.attState w3 (not_repathWords_attReg hk), h3.attState w2 hne, h2.attState w1 (not_pairWords_attReg hk hk),
      State.setAtt_attState _ wc hk (by decide)]
  · rw [h4.words.flag_eq w3 (not_repathWords_attReg hk), h3.words.flag_eq w2 hne, h2.words.flag_eq w1 (not_pairWords_attReg hk hk),
      State.setAtt_flag _ _ wc hk (by decide), bc]
  · have hno : ¬u.holdsPair := State.not_holdsPair (lu ▸ hpair)
    rw [h4.words.fld_eq w3 (by simp [RepathWords, hno]), h3.words.fld_eq w2 (by decide),
      h2.words.fld_eq w1 (by simp only [PairWords, PortWords, portReg]; omega),
      h1.words.fld_eq wc (by simp only [AttWords, attReg]; omega), ec]
  · rw [h4.att, h3.att, h2.att, h1.att, ac]

/-! ## The end of link training (R43, R48) -/

theorem State.attDown_spec {k : Nat} (hw : nwf s.regs = true) (hk : k < 8) :
    nwf (s.attDown k).regs = true ∧ (s.attDown k).attState k = asDown ∧ (∀ j < 8, j ≠ k → (s.attDown k).attState j = s.attState j) ∧
      (s.attDown k).boot = s.boot := by
  let c := s.closePorts k psDown fun a => { a with window := false, retry := false }
  have hx : s.attDown k = (((c.setAtt k asDown).setFlag 0x502000 k false).note 0xA2 { detail := k }).linkChanged k := rfl
  obtain ⟨hc, -, -, -, -, -, hboot⟩ := s.closePorts_spec (fun a => { a with window := false, retry := false }) hw hk (show psDown < 8 by decide)
  have wc : nwf c.regs = true := hc.wf hw
  obtain ⟨hd, hstate, -, -⟩ := State.setAttClear_spec (s := c) wc hk (show asDown < 4 by decide)
  have wd := hd.words.wf wc
  rw [hx]
  generalize (c.setAtt k asDown).setFlag 0x502000 k false = d at *
  have hn : LinkFrame ModuleEntryWords d (d.note 0xA2 { detail := k }) := (d.note_reports _ _).linkFrame (d.moduleEntry_recordWords _ _)
  have wn := hn.words.wf wd
  have hl := (d.note 0xA2 { detail := k }).linkChanged_linkFrame k
  have hkeep : ∀ j < 8, ((d.note 0xA2 { detail := k }).linkChanged k).attState j = d.attState j := fun j hj =>
    (hl.attState wn (not_repathWords_attReg hj)).trans (hn.attState wd (by simp only [ModuleEntryWords, attReg]; omega))
  refine ⟨hl.words.wf wn, (hkeep k hk).trans hstate, fun j hj hne => ?_, ?_⟩
  · have hother : ¬CloseWords k (attReg j) := not_or.mpr ⟨by simp only [attReg]; omega, not_pairWords_attReg hk hj⟩
    rw [hkeep j hj, hd.attState wc (by simp only [DownWords, AttWords, attReg]; omega)]
    exact hc.fld_eq hw hother 0 2
  · rw [hl.boot, hn.boot, hd.boot]
    exact hboot

/-- What the end of link training does to one attachment: one that still joins goes down. -/
def State.endTraining (s : State) (k : Nat) : State := if s.attUsed k && s.attState k == asJoin then s.attDown k else s

theorem State.endTraining_spec {k : Nat} (hw : nwf s.regs = true) (hk : k < 8) :
    nwf (s.endTraining k).regs = true ∧
      (s.endTraining k).attState k = (if s.attUsed k = true ∧ s.attState k = asJoin then asDown else s.attState k) ∧
      (∀ j < 8, j ≠ k → (s.endTraining k).attState j = s.attState j) ∧ (s.endTraining k).boot = s.boot := by
  unfold State.endTraining
  by_cases h : s.attUsed k = true ∧ s.attState k = asJoin
  · obtain ⟨hwd, hstate, hother, hboot⟩ := s.attDown_spec hw hk
    rw [if_pos (by simp [h.1, h.2]), if_pos h]
    exact ⟨hwd, hstate, hother, hboot⟩
  · rw [if_neg (by simpa using h), if_neg h]
    exact ⟨hw, rfl, fun _ _ _ => rfl, rfl⟩

theorem State.attUsed_of_boot {t : State} (h : t.boot = s.boot) (k : Nat) : t.attUsed k = s.attUsed k := by
  simp only [State.attUsed, State.attRec, State.cat, h]

/-- Over the attachments of a list, those that still join go down and the others stay. -/
theorem State.foldl_endTraining_spec {l : List Nat} (hl : ∀ j ∈ l, j < 8) (hw : nwf s.regs = true) :
    nwf (l.foldl State.endTraining s).regs = true ∧ (l.foldl State.endTraining s).boot = s.boot ∧
      ∀ k < 8, (l.foldl State.endTraining s).attState k =
        if k ∈ l ∧ s.attUsed k = true ∧ s.attState k = asJoin then asDown else s.attState k := by
  induction l generalizing s with
  | nil => exact ⟨hw, rfl, fun k _ => by simp⟩
  | cons j l ih =>
    obtain ⟨hwj, hstate, hother, hboot⟩ := s.endTraining_spec hw (hl j List.mem_cons_self)
    obtain ⟨hwl, hbootl, hstatel⟩ := ih (fun i hi => hl i (List.mem_cons_of_mem j hi)) hwj
    refine ⟨hwl, hbootl.trans hboot, fun k hk => (hstatel k hk).trans ?_⟩
    rw [State.attUsed_of_boot hboot]
    by_cases hkj : k = j
    · subst hkj
      rw [hstate]
      by_cases h : s.attUsed k = true ∧ s.attState k = asJoin
      · simp [h, asDown, asJoin]
      · simp [h]
    · simp [hother k hk hkj, hkj]

theorem State.setMod_words (m : ModState) : WordsOnly (fun a => a = 0x4 ∨ a = 0x30) s (s.setMod m) := by
  unfold State.setMod
  split
  · exact .refl s
  · extract_lets s1 s2 b s3
    have h3 : WordsOnly (fun a => a = 0x4 ∨ a = 0x30) s s3 := by
      refine .of_regs_eq ?_
      show s2.regs = s.regs
      subst s2
      split <;> rfl
    clear_value s3
    exact ((h3.trans (s3.setFld_words _ _ _ (.inl rfl))).trans (State.setFlag_words _ _ _ (.inl rfl))).trans (State.modEvent_words _ _ (.inr rfl))

/-- A halt takes an attachment's bypass and ports alone. -/
theorem State.haltAtt_words (k : Nat) : WordsOnly (0x500000 ≤ ·) s (s.haltAtt k) := by
  unfold State.haltAtt
  extract_lets u
  have hu : WordsOnly (0x500000 ≤ ·) s u := s.setFlag_words _ _ (by omega)
  clear_value u
  exact .ite hu (((hu.trans (u.setFld_words _ _ _ (by omega))).trans (State.setFld_words _ _ _ _ (by omega))).trans
    (State.setFld_words _ _ _ _ (by omega)))

/-- A halt shows its reason. -/
theorem State.halt_reason (reason : Nat) (hw : nwf s.regs = true) : (s.halt reason).fld 0x120 8 8 = reason % 2 ^ 8 := by
  unfold State.halt
  extract_lets s1 lnk s2
  have wm : nwf (s.setMod .halted).regs = true := State.setMod_words _ |>.wf hw
  have w1 : nwf s1.regs = true := State.nwf_setFlag _ _ _ (State.nwf_setFld _ _ _ _ wm)
  have f1 : s1.fld 0x120 8 8 = reason % 2 ^ 8 :=
    (State.fld_setFld_other (s := (s.setMod .halted).setFld 0x120 8 8 reason) _ _ _ _ _ (State.nwf_setFld _ _ _ _ wm) (by decide)).trans
      (State.fld_setFld_same _ _ _ _ wm (by decide))
  have h2 : WordsOnly (0x500000 ≤ ·) s1 s2 := .of_regs_eq rfl
  clear_value s1
  have h3 := h2.trans (WordsOnly.foldl (fun u k _ => u.haltAtt_words k) s2 (l := List.range 8))
  have h4 := State.moduleEntry_recordWords ((List.range 8).foldl State.haltAtt s2) 0x1C { detail := reason }
  rw [State.note, h4.fld_eq (h3.wf w1) (by simp [ModuleEntryWords]), h3.fld_eq w1 (by decide), f1]

theorem State.anyAttUp_iff : s.anyAttUp = true ↔ ∃ k < 8, s.attState k = asUp := by
  simp [State.anyAttUp, State.attUp, State.attState, attReg, asUp]

theorem exec_linkTrainingTimeout (hstep : s.startStep = 6) :
    exec .linkTrainingTimeout s =
      .next (if ((List.range 8).foldl State.endTraining s).anyAttUp then (List.range 8).foldl State.endTraining s
        else ((List.range 8).foldl State.endTraining s).halt hrLinkNone) :=
  if_neg (by simp [hstep])

theorem completes_linkTrainingTimeout {k : Nat} (hw : nwf s.regs = true) (hk : k < 8) (hstep : s.startStep = 6) :
    Completes .linkTrainingTimeout s fun t =>
      (s.anyAttUp = true → t.attState k = if s.attUsed k = true ∧ s.attState k = asJoin then asDown else s.attState k) ∧
      (s.anyAttUp = false → t.boot.state = .halted ∧ t.fld 0x120 8 8 = hrLinkNone) := by
  obtain ⟨wl, -, hstate⟩ := State.foldl_endTraining_spec (s := s) (l := List.range 8) (fun _ h => List.mem_range.mp h) hw
  have hup : ((List.range 8).foldl State.endTraining s).anyAttUp = s.anyAttUp := by
    refine Bool.eq_iff_iff.mpr (State.anyAttUp_iff.trans (Iff.trans (exists_congr fun j => and_congr_right fun hj => ?_) State.anyAttUp_iff.symm))
    rw [hstate j hj]
    by_cases h : j ∈ List.range 8 ∧ s.attUsed j = true ∧ s.attState j = asJoin
    · rw [if_pos h, h.2.2]
      decide
    · rw [if_neg h]
  refine ⟨_, exec_linkTrainingTimeout hstep, fun hany => ?_, fun hany => ?_⟩
  · rw [hup, if_pos hany, hstate k hk]
    simp [hk]
  · rw [hup, if_neg (by simp [hany])]
    exact ⟨congrArg Boot.state (State.halt_haltOf _ _).boot, State.halt_reason _ wl⟩

/-! ## IDENT (R330, R331) -/

theorem completes_identSend {p : Nat} (hp : p < 18) (h : s.portState p = psUp ∨ s.portState p = psJoin) :
    Completes (.identSend p) s fun t => t = { s with outbox := s.outbox ++ [.ident p (s.identOf p)] } :=
  ⟨_, if_pos ⟨hp, h⟩, rfl⟩

theorem State.port_updPort_same {p : Nat} (hp : p < 18) (f : Port → Port) : (s.updPort p f).port p = f (s.port p) := by
  simp [State.port, State.updPort, vupd, hp]

theorem State.port_updPort_other {p q : Nat} (f : Port → Port) (hne : p ≠ q) : (s.updPort q f).port p = s.port p := by
  by_cases hq : q < 18
  · simp [State.port, State.updPort, vupd, hq, Ne.symm hne]
  · simp [State.port, State.updPort, vupd, hq]

theorem State.learnGap_linkFrame {P : Nat → Prop} (ring pos gap : Nat) (down : Bool) : LinkFrame P s (s.learnGap ring pos gap down) := by
  have hput (u : State) (r p : Nat) (b : Bool) : LinkFrame P u (u.putBypassed r p b) := ⟨.of_regs_eq rfl, rfl, rfl, rfl⟩
  unfold State.learnGap
  exact (LinkFrame.foldl (fun u i _ => hput u _ _ _) s).trans (hput _ _ _ _)

theorem State.learnGap_ports (ring pos gap : Nat) (down : Bool) : (s.learnGap ring pos gap down).lnk.ports = s.lnk.ports :=
  foldl_inv (Q := fun u : State => u.lnk.ports = s.lnk.ports) (fun _ _ h => h) rfl

/-- What a port is with its partner `x`: it has passed, and begins anew where the partner is another one, with the lanes that it has. -/
def Port.withPartner (x : Ident) (p : Port) : Port :=
  { (if p.partner.any fun y => y.moduleId == x.moduleId && y.serial == x.serial then p else { Port.reset with lanes := p.lanes }) with
    passed := true, partner := some x }

theorem Port.withPartner_lanes (x : Ident) (p : Port) : (p.withPartner x).lanes = p.lanes := by
  unfold Port.withPartner
  dsimp only
  split <;> rfl

/-- A port that takes its partner shows it, has passed, and keeps its lanes. -/
theorem State.takePartner_spec {p : Nat} (x : Ident) (g : Nat) (hw : nwf s.regs = true) (hp : p < 18) :
    LinkFrame (· = portReg p + 4) s (s.takePartner p x g) ∧ (s.takePartner p x g).fld (portReg p + 4) 0 6 = x.moduleId % 64 ∧
      (s.takePartner p x g).port p = (s.port p).withPartner x ∧ ∀ q, q ≠ p → (s.takePartner p x g).port q = s.port q := by
  let u := (s.updPort p (Port.withPartner x)).setWord (portReg p + 4) (BitVec.ofNat 32 (x.moduleId % 64 + g * 64))
  have hx : s.takePartner p x g =
      if p < 16 then u.learnGap (u.attRec (p / 2)).ring (u.attRec (p / 2)).position g (p % 2 == 1) else u := rfl
  have hset : WordsOnly (· = portReg p + 4) (s.updPort p (Port.withPartner x)) u := State.setWord_words _ _ rfl
  have hu : LinkFrame (· = portReg p + 4) s u := ⟨⟨hset.wf, hset.word⟩, rfl, rfl, rfl⟩
  have fu : u.fld (portReg p + 4) 0 6 = x.moduleId % 64 := by
    have hword : u.word (portReg p + 4) = _ := State.word_setWord_same (s := s.updPort p (Port.withPartner x)) _ _ hw
    rw [State.fld, hword]
    simp only [BitVec.toNat_ofNat]
    omega
  have pu : ∀ q, u.port q = (s.updPort p (Port.withPartner x)).port q := fun _ => rfl
  have hl : LinkFrame (fun _ => False) u (s.takePartner p x g) := hx ▸ .ite (u.learnGap_linkFrame _ _ _ _) (.refl u)
  have hports : (s.takePartner p x g).lnk.ports = u.lnk.ports := by
    rw [hx]
    split
    · exact u.learnGap_ports _ _ _ _
    · rfl
  have hport : ∀ q, (s.takePartner p x g).port q = u.port q := fun q => by simp only [State.port, hports]
  refine ⟨hu.trans (hl.mono fun _ h => h.elim), (hl.words.fld_eq (hu.words.wf hw) id _ _).trans fu, ?_, fun q hq => ?_⟩
  · rw [hport, pu, State.port_updPort_same hp]
  · rw [hport, pu, State.port_updPort_other _ hq]

theorem State.lanesOk_of_lanes {t : State} {p : Nat} (h : (t.port p).lanes = (s.port p).lanes) : t.lanesOk p = s.lanesOk p := by
  simp only [State.lanesOk, h]

/-- A port that goes UP with its lanes; with fewer than three it is DOWN. -/
theorem State.portUp_spec {p : Nat} (hw : nwf s.regs = true) (hp : p < 18) :
    LinkFrame (PortWords p) s (s.portUp p) ∧ (s.portUp p).portState p = (if s.lanesOk p = true then psUp else psDown) ∧
      (s.portUp p).lnk = s.lnk := by
  unfold State.portUp
  extract_lets good spare
  by_cases h : good < 3
  · have hl : s.lanesOk p = false := decide_eq_false (by omega)
    rw [if_pos h, hl]
    exact ⟨s.setPort_linkFrame p psDown, s.setPort_portState hw hp (by decide), (s.setPort_reports p psDown).lnk⟩
  · have hl : s.lanesOk p = true := decide_eq_true (by omega)
    rw [if_neg h, hl]
    have h1 := s.setPort_linkFrame p psUp
    have s1 := s.setPort_portState hw hp (show psUp < 8 by decide)
    have l1 := (s.setPort_reports p psUp).lnk
    generalize s.setPort p psUp = u at *
    have w1 := h1.words.wf hw
    have w2 := State.nwf_setFld (portReg p) 3 3 (min 4 good) w1
    have h2 := ((u.setFld_reports (portReg p) 3 3 (min 4 good)).linkFrame (u.setFld_words (P := PortWords p) 3 3 _ (.inl rfl))).trans
      (State.setFlag_linkFrame _ 6 (spare && decide (4 ≤ good)) (.inl rfl))
    refine ⟨h1.trans h2, ?_, l1⟩
    have hfld : ((u.setFld (portReg p) 3 3 (min 4 good)).setFlag (portReg p) 6 (spare && decide (4 ≤ good))).portState p = u.portState p :=
      (State.fld_setFld_below _ w2 (by decide) (by decide)).trans (State.fld_setFld_below _ w1 (by decide) (by decide))
    exact hfld.trans s1

theorem exec_identReceive {k : Nat} {x : Ident} {g : Nat} (hk : k < 8) (hc : s.cat ≠ none) (hwin : (s.att k).window = true)
    (hl : s.lanesOk (2 * k) = true) (hx : s.checkIdent (2 * k) x = .pass g) :
    exec (.identReceive (2 * k) x) s = .next (s.passIdent (2 * k) x g) := by
  show execIdentReceive (2 * k) x s = _
  unfold execIdentReceive
  rw [hx]
  simp [hc, hwin, hl, show 2 * k < 16 by omega, show ¬18 ≤ 2 * k by omega]

/-- The first pass alone leaves the attachment joining. -/
theorem completes_identReceive_first {k : Nat} {x : Ident} {g : Nat} (hw : nwf s.regs = true) (hk : k < 8) (hc : s.cat ≠ none)
    (hwin : (s.att k).window = true) (hl : s.lanesOk (2 * k) = true) (hx : s.checkIdent (2 * k) x = .pass g)
    (hother : (s.port (2 * k + 1)).passed = false) :
    Completes (.identReceive (2 * k) x) s fun t =>
      (t.port (2 * k)).passed = true ∧ (t.port (2 * k)).partner = some x ∧ t.attState k = s.attState k ∧ t.att k = s.att k ∧
      t.tiles = s.tiles := by
  obtain ⟨hframe, -, hport, hkeep⟩ := s.takePartner_spec x g hw (show 2 * k < 18 by omega)
  have hpass : s.passIdent (2 * k) x g = s.takePartner (2 * k) x g := by
    unfold State.passIdent
    extract_lets u j v
    have hj : j = k := by omega
    have hnot : (u.port (2 * k + 1)).passed = false := by rw [hkeep (2 * k + 1) (by omega), hother]
    rw [if_neg (by omega), if_neg (by simp [hj, hnot])]
  refine ⟨_, exec_identReceive hk hc hwin hl hx, ?_⟩
  rw [hpass]
  exact ⟨by rw [hport]; rfl, by rw [hport]; rfl, hframe.attState hw (by simp only [portReg, attReg]; omega), hframe.att k, hframe.tiles⟩

/-- The second pass brings the attachment UP with its ports. -/
theorem completes_identReceive_second {k : Nat} {x : Ident} {g : Nat} (hw : nwf s.regs = true) (hk : k < 8) (hc : s.cat ≠ none)
    (hwin : (s.att k).window = true) (hl : s.lanesOk (2 * k) = true) (hx : s.checkIdent (2 * k) x = .pass g)
    (hother : (s.port (2 * k + 1)).passed = true) :
    Completes (.identReceive (2 * k) x) s fun t =>
      t.attState k = asUp ∧ t.portState (2 * k) = psUp ∧ t.portState (2 * k + 1) = (if s.lanesOk (2 * k + 1) then psUp else psDown) ∧
      t.fld (portReg (2 * k) + 4) 0 6 = x.moduleId % 64 ∧ (t.att k).window = false ∧ t.flag 0x502000 k = false ∧ t.tiles = s.tiles := by
  obtain ⟨h1, f1, hport, hkeep⟩ := s.takePartner_spec x g hw (show 2 * k < 18 by omega)
  let c := (s.takePartner (2 * k) x g).updAtt k fun a => { a with window := false, retry := false }
  have hpass : s.passIdent (2 * k) x g =
      ((((c.portUp (2 * k)).portUp (2 * k + 1)).setAtt k asUp).setFlag 0x502000 k false).linkChanged k := by
    unfold State.passIdent
    extract_lets u j v
    have hj : j = k := by omega
    have hboth : ((u.port (2 * j)).passed && (u.port (2 * j + 1)).passed) = true := by
      rw [hj, hport, hkeep _ (by omega), hother]
      rfl
    rw [if_neg (by omega), if_pos hboth]
    simp only [v, hj]
    rfl
  have wc : nwf c.regs = true := h1.words.wf hw
  have fc : c.fld (portReg (2 * k) + 4) 0 6 = x.moduleId % 64 := f1
  have lup : c.lanesOk (2 * k) = s.lanesOk (2 * k) :=
    State.lanesOk_of_lanes (show ((s.takePartner (2 * k) x g).port (2 * k)).lanes = _ by rw [hport, Port.withPartner_lanes])
  have ldown : c.lanesOk (2 * k + 1) = s.lanesOk (2 * k + 1) :=
    State.lanesOk_of_lanes (show ((s.takePartner (2 * k) x g).port (2 * k + 1)).lanes = _ by rw [hkeep _ (by omega)])
  have ac : (c.att k).window = false := by
    rw [State.att_updAtt _ hk]
  have tc : c.tiles = s.tiles := h1.tiles
  clear_value c
  obtain ⟨h2, s2, l2⟩ := c.portUp_spec wc (show 2 * k < 18 by omega)
  have w2 := h2.words.wf wc
  obtain ⟨h3, s3, -⟩ := (c.portUp (2 * k)).portUp_spec w2 (show 2 * k + 1 < 18 by omega)
  have w3 := h3.words.wf w2
  have ld : (c.portUp (2 * k)).lanesOk (2 * k + 1) = s.lanesOk (2 * k + 1) := by
    rw [← ldown]
    exact State.lanesOk_of_lanes (by simp only [State.port, l2])
  generalize c.portUp (2 * k) = u at *
  generalize u.portUp (2 * k + 1) = v at *
  obtain ⟨h4, s4, -, r4⟩ := v.setAttClear_spec w3 hk (show asUp < 4 by decide)
  have w4 := h4.words.wf w3
  have h5 := ((v.setAtt k asUp).setFlag 0x502000 k false).linkChanged_linkFrame k
  have hfinal : ∀ p < 18, (((v.setAtt k asUp).setFlag 0x502000 k false).linkChanged k).portState p = v.portState p := fun p hp =>
    (h5.portState w4 (not_repathWords_portReg hp)).trans (h4.portState w3 (not_downWords_portReg hk hp))
  refine ⟨_, exec_identReceive hk hc hwin hl hx, ?_⟩
  rw [hpass]
  refine ⟨(h5.attState w4 (not_repathWords_attReg hk)).trans s4, ?_, ?_, ?_, ?_, ?_, ?_⟩
  · rw [hfinal _ (by omega), h3.portState w2 (by simp only [PortWords, portReg]; omega), s2, lup, hl]
    rfl
  · rw [hfinal _ (by omega), s3, ld]
  · rw [h5.words.fld_eq w4 (by simp only [RepathWords, ModuleEntryWords, portReg]; omega),
      h4.words.fld_eq w3 (by simp only [DownWords, AttWords, portReg, attReg]; omega),
      h3.words.fld_eq w2 (by simp only [PortWords, portReg]; omega), h2.words.fld_eq wc (by simp only [PortWords, portReg]; omega), fc]
  · rw [h5.att, h4.att, h3.att, h2.att, ac]
  · rw [h5.words.flag_eq w4 (by simp [RepathWords, ModuleEntryWords]), r4]
  · rw [h5.tiles, h4.tiles, h3.tiles, h2.tiles, tc]

end

/-- Settles O39: each operation on an attachment sets its own words and those of its ports last, and the announcement of the change that
follows touches none of them. -/
theorem attachmentsJoinAndComeUp : Obligations.AttachmentsJoinAndComeUp := by
  intro s k htidy
  have hw := State.tidy_regs htidy
  refine ⟨fun hu ha hwin hstep => ⟨fun hup hdown => completes_attachmentJoin hw k.isLt hu ha hwin hstep hup hdown,
      fun b => completes_attachmentJoin_failed b hw k.isLt hu ha hwin hstep⟩,
    fun hwin => completes_joinWindowExpiry hw k.isLt hwin,
    fun hr hstep => completes_joinRetryTimer hw k.isLt hr hstep,
    fun hu => completes_bypassSettleTimeout hw k.isLt hu,
    fun p hp h => completes_identSend hp h,
    fun x g hc hwin hl hx => ?_,
    fun hstep => completes_linkTrainingTimeout hw k.isLt hstep⟩
  split
  next h => exact completes_identReceive_second hw k.isLt hc hwin hl hx h
  next h => exact completes_identReceive_first hw k.isLt hc hwin hl hx (by simpa using h)

end Sys2Proof.Machine
end


section
/-!
PROOFS. TICK_IN's edges, holdover and the master role between boundaries: O12 and O59.
-/

namespace Sys2Proof.Machine

/-! ## Counting up to saturation (R550) -/

theorem satAdd32_zero (w : W32) : satAdd32 w 0 = w := by
  refine BitVec.eq_of_toNat_eq ?_
  simp only [satAdd32, BitVec.toNat_ofNat]
  omega

theorem satAdd32_satAdd32 (w : W32) (m n : Nat) : satAdd32 (satAdd32 w m) n = satAdd32 w (m + n) := by
  refine BitVec.eq_of_toNat_eq ?_
  simp only [satAdd32, BitVec.toNat_ofNat]
  omega

/-! ## The qualification of edges (R63) -/

theorem qualify_fast {l e : Nat} (es : List Nat) (h : e < l + 10000) :
    qualify (some l) (e :: es) = ((qualify (some l) es).1 + 1, (qualify (some l) es).2) :=
  if_pos (by omega)

theorem qualify_accepted {last : Option Nat} {e : Nat} (es : List Nat) (h : ∀ l, last = some l → l + 10000 ≤ e) :
    qualify last (e :: es) = qualify (some e) es := by
  cases last with
  | none => rfl
  | some l =>
    have hl := h l rfl
    exact if_neg (by omega)

/-! ## What an edge does (R63 to R65) -/

section
variable {s t : State} {at_ l : Nat}

/-- A module uses TICK_IN by its role and its catalogue alone. -/
theorem State.usesTickIn_congr (hboot : t.boot = s.boot) (hm : t.isMaster = s.isMaster) : t.usesTickIn = s.usesTickIn := by
  simp only [State.usesTickIn, State.tickRec, State.moduleId, State.cat, hboot, hm]

theorem State.placeEdge_boot (n : Nat) : (s.placeEdge at_ n).boot = s.boot := s.sendSymbol_boot _

/-- With the edge that is placed, a symbol of its number leaves on every trained attachment (R59). -/
theorem State.placeEdge_outbox (n : Nat) :
    (s.placeEdge at_ n).outbox = s.outbox ++ ((List.range 8).filter s.attUp).map fun k =>
      .symbol (2 * k + 1) { number := n, master := s.moduleId, src := s.src, hops := 0, delay := 0 } := by
  show (s.sendSymbol _).outbox = _
  rw [State.sendSymbol_sends, List.map_eq_flatMap]

theorem exec_tickInEdge_fast (hu : s.usesTickIn = true) (hl : s.tick.tin.last = some l) (hfast : at_ < l + 10000) :
    exec (.tickInEdge at_) s = .next (s.bump 0x10014 1) := by
  show execTickInEdge at_ s = _
  simp [execTickInEdge, hu, hl, hfast]

theorem exec_tickInEdge_first (hu : s.usesTickIn = true) (hl : s.tick.tin.last = none) :
    exec (.tickInEdge at_) s = .next (s.setTin { s.tick.tin with last := some at_, run := 0 }) := by
  show execTickInEdge at_ s = _
  simp [execTickInEdge, hu, hl]

/-- What an edge at `at_` that is accepted after the one at `l` makes of TICK_IN's qualification. -/
def State.acceptedTin (s : State) (l at_ : Nat) : TickIn :=
  { s.tick.tin with last := some at_, run := if within (at_ - l) s.periodNs s.winNs then s.tick.tin.run + 1 else 0 }

theorem exec_tickInEdge_locked (hu : s.usesTickIn = true) (hl : s.tick.tin.last = some l) (hat : l + 10000 ≤ at_)
    (hlock : s.tick.tin.locked = true) : exec (.tickInEdge at_) s = .next (s.lockedEdge at_ (s.acceptedTin l at_)) := by
  show execTickInEdge at_ s = _
  simp [execTickInEdge, hu, hl, Nat.not_lt.mpr hat, hlock, State.acceptedTin]

theorem exec_tickInEdge_unlocked (hu : s.usesTickIn = true) (hl : s.tick.tin.last = some l) (hat : l + 10000 ≤ at_)
    (hlock : s.tick.tin.locked = false) :
    exec (.tickInEdge at_) s = .next (if 4 ≤ (s.acceptedTin l at_).run then
        (s.setTin { s.acceptedTin l at_ with locked := true, phase := some at_ }).setSrc srcSlewing
      else s.setTin (s.acceptedTin l at_)) := by
  show execTickInEdge at_ s = _
  simp only [execTickInEdge, hu, hl, Bool.not_true, Bool.false_eq_true, if_false]
  rw [if_neg (Nat.not_lt.mpr hat), if_neg (by simp [hlock])]
  exact (apply_ite Host.Outcome.next _ _ _).symm

theorem State.lockedEdge_places (x : TickIn) (he : s.tick.edge = none) (hin : within (at_ + s.alignNs) s.tick.expected s.winNs = true) :
    s.lockedEdge at_ x = (s.setTin { x with lastGood := some at_, phase := some at_ }).placeEdge at_ s.nextTick :=
  if_pos (by simp [he, State.inWindow, hin])

/-- An accepted edge that is not the reference edge is counted; at most the phase that the master slews to follows it. -/
theorem State.lockedEdge_counts (x : TickIn)
    (h : s.tick.edge.isSome = true ∨ within (at_ + s.alignNs) s.tick.expected s.winNs = false) :
    s.lockedEdge at_ x = (s.setTin (if s.src == srcSlewing then { x with phase := some at_ } else x)).bump 0x10018 1 :=
  if_neg (by
    rcases h with h | h
    · simp [Option.ne_none_iff_isSome.mpr h]
    · simp [State.inWindow, h])

/-! ## A sequence of edges (R63) -/

/-- The words that an accepted edge may change: the tick status and TCK_IN_BAD. -/
def AcceptWords (a : Nat) : Prop := a = 0x10004 ∨ a = 0x10018

/-- What any accepted edge leaves. -/
def State.Accepted (s : State) (at_ : Nat) (t : State) : Prop :=
  WordsOnly AcceptWords s t ∧ t.tick.tin.last = some at_ ∧ t.isMaster = s.isMaster ∧ t.boot = s.boot

theorem State.setTin_accepted {x : TickIn} (hx : x.last = some at_) : s.Accepted at_ (s.setTin x) := ⟨.of_regs_eq rfl, hx, rfl, rfl⟩

theorem State.Accepted.setSrc (hw : nwf s.regs = true) (v : Nat) (h : s.Accepted at_ t) : s.Accepted at_ (t.setSrc v) := by
  obtain ⟨hwords, hlast, hmaster, hboot⟩ := h
  have hm : (t.setSrc v).isMaster = t.isMaster := congrArg (· == 1) (State.fld_setFld_below v (hwords.wf hw) (by decide) (by decide))
  exact ⟨hwords.trans (t.setFld_words _ _ _ (.inl rfl)), hlast, hm.trans hmaster, hboot⟩

theorem State.Accepted.bumpBad (hw : nwf s.regs = true) (h : s.Accepted at_ t) : s.Accepted at_ (t.bump 0x10018 1) := by
  obtain ⟨hwords, hlast, hmaster, hboot⟩ := h
  have hbump : WordsOnly (· = 0x10018) t (t.bump 0x10018 1) := t.bump_words _ rfl
  exact ⟨hwords.trans (hbump.mono fun _ => .inr), hlast, (hbump.flag_eq (hwords.wf hw) (by decide) 0).trans hmaster, hboot⟩

theorem State.Accepted.placeEdge (n : Nat) (h : s.Accepted at_ t) : s.Accepted at_ (t.placeEdge at_ n) := by
  obtain ⟨hwords, hlast, hmaster, hboot⟩ := h
  obtain ⟨hregs, htick⟩ := t.placeEdge_frame at_ n
  refine ⟨hwords.trans (.of_regs_eq hregs), ?_, ?_, (State.placeEdge_boot n).trans hboot⟩
  · rw [htick, hlast]
  · rw [← hmaster, State.isMaster, State.flag, State.fld, State.word, hregs]
    rfl

theorem State.lockedEdge_accepted {x : TickIn} (hw : nwf s.regs = true) (hx : x.last = some at_) :
    s.Accepted at_ (s.lockedEdge at_ x) := by
  by_cases h : s.tick.edge.isSome = true ∨ within (at_ + s.alignNs) s.tick.expected s.winNs = false
  · rw [State.lockedEdge_counts _ h]
    refine (State.setTin_accepted ?_).bumpBad hw
    split <;> exact hx
  · obtain ⟨he, hin⟩ := not_or.mp h
    rw [State.lockedEdge_places _ (by simpa using he) (by simpa using hin)]
    exact State.Accepted.placeEdge _ (State.setTin_accepted hx)

theorem completes_tickInEdge_accepted (hw : nwf s.regs = true) (hu : s.usesTickIn = true)
    (hat : ∀ l, s.tick.tin.last = some l → l + 10000 ≤ at_) : Completes (.tickInEdge at_) s (s.Accepted at_) := by
  cases hl : s.tick.tin.last with
  | none => exact ⟨_, exec_tickInEdge_first hu hl, State.setTin_accepted rfl⟩
  | some l =>
    cases hlock : s.tick.tin.locked with
    | true => exact ⟨_, exec_tickInEdge_locked hu hl (hat l hl) hlock, State.lockedEdge_accepted hw rfl⟩
    | false =>
      refine ⟨_, exec_tickInEdge_unlocked hu hl (hat l hl) hlock, ?_⟩
      split
      · exact (State.setTin_accepted rfl).setSrc hw _
      · exact State.setTin_accepted rfl

/-- The words that a sequence of edges may change: the tick status, TCK_IN_FAST and TCK_IN_BAD. -/
def EdgeWords (a : Nat) : Prop := a = 0x10004 ∨ a = 0x10014 ∨ a = 0x10018

theorem runs_tickInEdges (es : List Nat) (hw : nwf s.regs = true) (hu : s.usesTickIn = true) :
    ∃ t, Runs (es.map fun e => .tickInEdge e) s t ∧ t.word 0x10014 = satAdd32 (s.word 0x10014) (qualify s.tick.tin.last es).1 ∧
      t.tick.tin.last = (qualify s.tick.tin.last es).2 ∧ t.usesTickIn = true ∧ WordsOnly EdgeWords s t := by
  induction es generalizing s with
  | nil => exact ⟨s, rfl, (satAdd32_zero _).symm, rfl, hu, .refl s⟩
  | cons e es ih =>
    by_cases hfast : ∃ l, s.tick.tin.last = some l ∧ e < l + 10000
    · obtain ⟨l, hl, he⟩ := hfast
      have hbump : WordsOnly (· = 0x10014) s (s.bump 0x10014 1) := s.bump_words _ rfl
      have hmaster : (s.bump 0x10014 1).isMaster = s.isMaster := hbump.flag_eq hw (by decide) 0
      have hu1 : (s.bump 0x10014 1).usesTickIn = s.usesTickIn := State.usesTickIn_congr rfl hmaster
      obtain ⟨t, hruns, hcount, hlast, huses, hwords⟩ := ih (hbump.wf hw) (hu1.trans hu)
      refine ⟨t, ⟨_, exec_tickInEdge_fast hu hl he, hruns⟩, ?_, ?_, huses, (hbump.mono fun _ h => .inr (.inl h)).trans hwords⟩
      · rw [hcount, State.bump_tick, hl, qualify_fast es he, State.bump, State.word_setWord_same _ _ hw, satAdd32_satAdd32, Nat.add_comm]
      · rw [hlast, State.bump_tick, hl, qualify_fast es he]
    · have hat : ∀ l, s.tick.tin.last = some l → l + 10000 ≤ e := fun l hl => Nat.le_of_not_lt fun he => hfast ⟨l, hl, he⟩
      obtain ⟨u, hx, hu1, hlast1, hmaster, hboot⟩ := completes_tickInEdge_accepted hw hu hat
      obtain ⟨t, hruns, hcount, hlast, huses, hwords⟩ := ih (hu1.wf hw) ((State.usesTickIn_congr hboot hmaster).trans hu)
      have hsame : u.word 0x10014 = s.word 0x10014 := hu1.word hw _ (by simp [AcceptWords])
      refine ⟨t, ⟨u, hx, hruns⟩, ?_, ?_, huses, (hu1.mono fun _ h => h.imp_right .inr).trans hwords⟩
      · rw [hcount, hlast1, qualify_accepted es hat, hsame]
      · rw [hlast, hlast1, qualify_accepted es hat]

/-! ## The reference edge (R60, R64) -/

theorem completes_tickInEdge_good (hu : s.usesTickIn = true) (hl : s.tick.tin.last = some l) (hat : l + 10000 ≤ at_)
    (hlock : s.tick.tin.locked = true) (he : s.tick.edge = none) (hin : within (at_ + s.alignNs) s.tick.expected s.winNs = true) :
    Completes (.tickInEdge at_) s fun t =>
      t.tick.expected = at_ + s.alignNs ∧ t.tick.edge = some (at_, s.nextTick) ∧ t.tick.tin.lastGood = some at_ ∧
      t.tick.tin.last = some at_ ∧ t.regs = s.regs ∧
      t.outbox = s.outbox ++ ((List.range 8).filter s.attUp).map fun k =>
        .symbol (2 * k + 1) { number := s.nextTick, master := s.moduleId, src := s.src, hops := 0, delay := 0 } := by
  let u : State := s.setTin { s.acceptedTin l at_ with lastGood := some at_, phase := some at_ }
  have hx := exec_tickInEdge_locked hu hl hat hlock
  rw [State.lockedEdge_places _ he hin] at hx
  obtain ⟨hregs, htick⟩ := u.placeEdge_frame at_ s.nextTick
  refine ⟨_, hx, congrArg Tick.expected htick, congrArg Tick.edge htick, ?_, ?_, hregs, State.placeEdge_outbox (s := u) _⟩
  · exact congrArg (·.tin.lastGood) htick
  · exact congrArg (·.tin.last) htick

theorem completes_tickInEdge_bad (hw : nwf s.regs = true) (hu : s.usesTickIn = true) (hl : s.tick.tin.last = some l)
    (hat : l + 10000 ≤ at_) (hlock : s.tick.tin.locked = true)
    (h : s.tick.edge.isSome = true ∨ within (at_ + s.alignNs) s.tick.expected s.winNs = false) :
    Completes (.tickInEdge at_) s fun t =>
      t.tick.expected = s.tick.expected ∧ t.tick.edge = s.tick.edge ∧ t.tick.tin.lastGood = s.tick.tin.lastGood ∧
      t.word 0x10018 = satAdd32 (s.word 0x10018) 1 ∧ t.outbox = s.outbox := by
  have hx := exec_tickInEdge_locked hu hl hat hlock
  rw [State.lockedEdge_counts _ h] at hx
  refine ⟨_, hx, rfl, rfl, ?_, State.word_setWord_same _ _ hw, rfl⟩
  show TickIn.lastGood (if s.src == srcSlewing then _ else _) = _
  split <;> rfl

theorem completes_tickInWindowExpiry (hu : s.usesTickIn = true) (hlock : s.tick.tin.locked = true) (he : s.tick.edge = none)
    (hal : s.alignNs ≤ s.tick.expected) (hat : s.tick.expected + s.winNs ≤ at_ + s.alignNs) :
    Completes (.tickInWindowExpiry at_) s fun t =>
      t.tick.expected = s.tick.expected + s.winNs ∧ t.tick.edge = some (s.tick.expected + s.winNs - s.alignNs, s.nextTick) ∧
      t.regs = s.regs ∧ t.tick.tin = s.tick.tin := by
  obtain ⟨hregs, htick⟩ := s.placeEdge_frame (s.tick.expected + s.winNs - s.alignNs) s.nextTick
  refine ⟨_, if_pos (by simp [hu, hlock, he, hat]), ?_, congrArg Tick.edge htick, hregs, by rw [htick]⟩
  calc _ = s.tick.expected + s.winNs - s.alignNs + s.alignNs := congrArg Tick.expected htick
    _ = s.tick.expected + s.winNs := by omega

theorem completes_tickInWindowExpiry_placed (he : s.tick.edge.isSome = true) : Completes (.tickInWindowExpiry at_) s fun t => t = s := by
  have hne : s.tick.edge.isNone = false := by simpa [← Option.not_isSome] using he
  exact ⟨s, if_neg (by simp [hne]), rfl⟩

/-! ## Holdover and the role (R65 to R68) -/

/-- SRC reads HOLDOVER and HOLD_SEEN is set; the role is as it was. -/
theorem State.showHoldover_spec (hw : nwf s.regs = true) :
    ((s.setSrc srcHoldover).setFlag 0x10004 16 true).src = srcHoldover ∧
      ((s.setSrc srcHoldover).setFlag 0x10004 16 true).flag 0x10004 16 = true ∧
      ((s.setSrc srcHoldover).setFlag 0x10004 16 true).isMaster = s.isMaster := by
  have w1 : nwf (s.setSrc srcHoldover).regs = true := State.nwf_setFld _ _ _ _ hw
  refine ⟨?_, State.flag_setFlag_same _ _ _ w1 (by decide), ?_⟩
  · exact (State.fld_setFld_below _ w1 (by decide) (by decide)).trans (State.fld_setFld_same _ _ _ _ hw (by decide))
  · exact (State.flag_setFlag_bit _ w1 (by decide) (by decide)).trans
      (congrArg (· == 1) (State.fld_setFld_below _ hw (by decide) (by decide)))

theorem completes_tickInHoldover {g : Nat} (hw : nwf s.regs = true) (hs : s.src ≠ srcSlewing) (hg : s.tick.tin.lastGood = some g)
    (hu : s.usesTickIn = true) (hlock : s.tick.tin.locked = true) (hat : 2 * g + 3 * s.periodNs ≤ 2 * at_) :
    Completes (.tickInHoldover at_) s fun t =>
      t.src = srcHoldover ∧ t.flag 0x10004 16 = true ∧ t.tick.tin.locked = false ∧ t.tick.tin.run = 0 ∧ t.isMaster = s.isMaster ∧
      t.tick.expected = s.tick.expected ∧ t.tick.holdStart = s.tick.holdStart := by
  let u : State := s.setTin { s.tick.tin with run := 0, locked := false, lastGood := none, phase := none }
  have hx : exec (.tickInHoldover at_) s = .next ((u.setSrc srcHoldover).setFlag 0x10004 16 true) := by
    show execTickInHoldover at_ s = _
    simp only [execTickInHoldover, hs, hg, hu, hlock, hat, if_false, decide_true, Bool.and_self, if_true, u]
  obtain ⟨hsrc, hseen, hmaster⟩ := State.showHoldover_spec (s := u) hw
  exact ⟨_, hx, hsrc, hseen, rfl, rfl, hmaster, rfl, rfl⟩

theorem completes_holdoverEntry (hw : nwf s.regs = true) (hm : s.isMaster = false) (hl : s.tick.locked = true)
    (hh : s.tick.holdStart = none) :
    Completes (.holdoverEntry at_) s fun t =>
      t.src = srcHoldover ∧ t.flag 0x10004 16 = true ∧ t.tick.holdStart = some at_ ∧ t.isMaster = false := by
  obtain ⟨hsrc, hseen, hmaster⟩ := State.showHoldover_spec hw
  exact ⟨_, if_pos (by simp [hm, hl, hh]), hsrc, hseen, rfl, hmaster.trans hm⟩

theorem completes_holdoverLimit (hm : s.isMaster = false) (hh : s.tick.holdStart.isSome = true) :
    Completes .holdoverLimit s fun t => t = { s with tick := { s.tick with holdLimit := true } } :=
  ⟨_, if_pos (by simp [hm, hh]), rfl⟩

theorem completes_successionTakeover (hm : s.isMaster = false) (hh : s.tick.holdStart.isSome = true) (hup : s.anyAttUp = true)
    (hr : 1 ≤ tickRank s.tickRec s.moduleId) (hs : s.boot.state = .serving) (hat : s.tick.expected ≤ at_ + s.periodNs) :
    Completes (.successionTakeover at_) s fun t => t = { s with tick := { s.tick with takeAt := true } } :=
  ⟨_, if_pos (by simp [hm, hh, hup, hr, hs, hat]), rfl⟩

theorem completes_masterRelinquish (hw : nwf s.regs = true) (hm : s.isMaster = true) (hup : s.anyAttUp = false) :
    Completes (.masterRelinquish at_) s fun t => t.isMaster = false ∧ t.src = srcHoldover ∧ t.tick.holdStart = some at_ := by
  obtain ⟨hsrc, -, hmaster⟩ := State.showHoldover_spec (State.nwf_setFlag 0x10004 0 false hw)
  exact ⟨_, if_pos (by simp [hm, hup]), hmaster.trans (State.flag_setFlag_same _ _ _ hw (by decide)), hsrc, rfl⟩

end

/-- Settles O12: a good edge is placed as the reference edge by the same operation as the one that W places, and every holdover shows
itself by the same two fields of TCK_STATUS, which leave the role. -/
theorem tickInEdgesAndHoldover : Obligations.TickInEdgesAndHoldover := by
  intro s at_ htidy
  have hw := State.tidy_regs htidy
  exact ⟨fun l hu hl hfast => ⟨_, exec_tickInEdge_fast hu hl hfast, rfl⟩,
    fun l hu hl hat hlock => ⟨fun he hin => completes_tickInEdge_good hu hl hat hlock he hin,
      fun h => completes_tickInEdge_bad hw hu hl hat hlock h⟩,
    fun hu hlock he hal hat => completes_tickInWindowExpiry hu hlock he hal hat,
    fun he => completes_tickInWindowExpiry_placed he,
    fun g hs hg hu hlock hat => completes_tickInHoldover hw hs hg hu hlock hat,
    fun hm hl hh => completes_holdoverEntry hw hm hl hh,
    fun hm hh => completes_holdoverLimit hm hh,
    fun hm hh hup hr hs hat => completes_successionTakeover hm hh hup hr hs hat,
    fun hm hup => completes_masterRelinquish hw hm hup,
    ⟨_, rfl, rfl⟩⟩

/-- Settles O59, by induction on the sequence of edges: an edge either only counts in TCK_IN_FAST, or is accepted and leaves that count,
the role and the catalogue as they are. -/
theorem tickInEdgesAreQualified : Obligations.TickInEdgesAreQualified := by
  intro s htidy hu
  have hw := State.tidy_regs htidy
  refine ⟨fun es => ?_, fun l e hl he => ⟨_, exec_tickInEdge_fast hu hl (by omega), rfl⟩⟩
  obtain ⟨t, hruns, hcount, hlast, huses, hwords⟩ := runs_tickInEdges es hw hu
  exact ⟨t, hruns, hcount, hlast, huses, fun a h1 h2 h3 => hwords.word hw a (by simp [EdgeWords, h1, h2, h3])⟩

end Sys2Proof.Machine
end


section
/-!
PROOFS. Tiles and their owners: what a tile keeps of a tenant's work, and what giving, saving, opening and closing a tile leave.
-/

namespace Sys2Proof.Machine

/-! ## Tiles and owners, read after a write -/

section
variable {s t : State} {m n : Nat}

theorem State.tile_congr (h : t.tiles = s.tiles) (n : Nat) : t.tile n = s.tile n := by
  simp only [State.tile, h]

theorem State.tile_updTile_same (f : Tile → Tile) (hn : n < 128) : (s.updTile n f).tile n = f (s.tile n) := by
  simp only [State.tile, dif_pos hn]
  exact vupd_get_same _ hn f

theorem State.tile_updTile_other (f : Tile → Tile) (hne : m ≠ n) : (s.updTile n f).tile m = s.tile m := by
  unfold State.tile
  split
  next hm => exact vupd_get_other _ hm f hne
  next => rfl

theorem vupd_getElem?_same {α : Type} {k : Nat} (v : Vector α k) {i : Nat} (hi : i < k) (f : α → α) : (vupd v i f)[i]? = some (f v[i]) := by
  rw [Vector.getElem?_eq_getElem hi, vupd_get_same _ hi]

theorem vupd_getElem?_other {α : Type} {k : Nat} (v : Vector α k) {i j : Nat} (f : α → α) (hne : j ≠ i) : (vupd v i f)[j]? = v[j]? := by
  by_cases hj : j < k
  · rw [Vector.getElem?_eq_getElem hj, Vector.getElem?_eq_getElem hj, vupd_get_other _ hj f hne]
  · rw [Vector.getElem?_eq_none (Nat.le_of_not_lt hj), Vector.getElem?_eq_none (Nat.le_of_not_lt hj)]

theorem State.ownerOf_congr (h : t.sched.owner = s.sched.owner) (n : Nat) : t.ownerOf n = s.ownerOf n := by
  rw [State.ownerOf, State.ownerOf, h]

theorem State.ownerOf_setOwner_same (o : Option Nat) (hn : n < 128) : (s.setOwner n o).ownerOf n = o :=
  congrArg (Option.getD · none) (vupd_getElem?_same _ hn _)

theorem State.ownerOf_setOwner_other (o : Option Nat) (hne : m ≠ n) : (s.setOwner n o).ownerOf m = s.ownerOf m :=
  congrArg (Option.getD · none) (vupd_getElem?_other _ _ hne)

theorem State.entryOf_setEntry_same (o : Option Nat) (hn : n < 128) : (s.setEntry n o).entryOf n = o :=
  congrArg (Option.getD · none) (vupd_getElem?_same _ hn _)

theorem State.entryOf_setEntry_other (o : Option Nat) (hne : m ≠ n) : (s.setEntry n o).entryOf m = s.entryOf m :=
  congrArg (Option.getD · none) (vupd_getElem?_other _ _ hne)

theorem State.lt_of_mem_maskTiles {mask : Nat} (h : m ∈ s.maskTiles mask) : m < 128 :=
  List.mem_range.mp (List.mem_of_mem_filter (List.mem_of_mem_filter h))

end

/-! ## The work that a tile saves and brings back (R82, R106) -/

theorem aget_adel_other {α : Type} (l : List (Nat × α)) {j k : Nat} (hne : k ≠ j) : aget (adel l j) k = aget l k := by
  rw [aget, adel, List.find?_filter, aget]
  congr 2
  funext x
  by_cases hx : x.1 = k
  · simp [hx, hne]
  · simp [hx]

section
variable (x : Tile)

@[simp] theorem Tile.restore_chans (c : Nat) : (x.restore c).chans = x.chans := by
  unfold Tile.restore
  split <;> rfl

@[simp] theorem Tile.restore_held (c : Nat) : (x.restore c).held = none := by
  unfold Tile.restore
  split <;> rfl

/-- What a tile saved for another tenant stays saved. -/
theorem Tile.restore_saved {c e : Nat} (hne : c ≠ e) : aget (x.restore e).saved c = aget x.saved c := by
  unfold Tile.restore
  split
  · exact aget_adel_other _ hne
  · rfl

@[simp] theorem Tile.save_chans (c : Nat) : (x.save c).chans = x.chans := rfl

@[simp] theorem Tile.save_held (c : Nat) : (x.save c).held = none := rfl

theorem Tile.save_saved (c : Nat) : aget (x.save c).saved c = some x.ctx.unloaded := aget_aput_same _ _ _

end

/-! ## A tile that is given to a tenant (R76, R263) -/

section
variable {s : State} {n e : Nat}

/-- A chain issues nothing on a tile that another tenant has, or none. -/
theorem State.mayIssue_of_other_owner {c : Chan} (h : s.ownerOf n ≠ some c.tenant) : s.mayIssue n c = false := by
  have hholds : s.holds c.tenant n = false := by
    have hb : ((s.sched.owner[n]?).getD none == some c.tenant) = false := beq_false_of_ne h
    simp only [State.holds, hb, Bool.and_false]
  simp only [State.mayIssue, hholds, Bool.and_false, Bool.false_and]

theorem State.pump_of_no_issue (fuel : Nat) (h : ∀ x ∈ (s.tile n).chans, s.mayIssue n x.2 = false) : s.pump n fuel = s := by
  have hfind : (s.tile n).chans.find? (fun x => s.mayIssue n x.2) = none := by
    simpa using h
  have hnext : s.nextChan n = none := by
    have hturn : ((s.tile n).chans.filter fun x => decide ((s.tile n).turn < x.1)).find? (fun x => s.mayIssue n x.2) = none :=
      List.find?_eq_none.mpr fun x hx => List.find?_eq_none.mp hfind x (List.mem_of_mem_filter hx)
    simp only [State.nextChan, hturn, hfind]
    rfl
  cases fuel with
  | zero => rfl
  | succ fuel => rw [State.pump, hnext]

/-- Where no chain on the tile is the tenant's, it is given nothing but its saved work. -/
theorem State.giveTile_of_no_chain (hn : n < 128) (h : ∀ x ∈ (s.tile n).chans, x.2.tenant ≠ e) :
    s.giveTile n e = (s.updTile n fun x => x.restore e).setOwner n (some e) := by
  refine State.pump_of_no_issue _ fun x hx => State.mayIssue_of_other_owner ?_
  have htile : ((s.updTile n fun x => x.restore e).setOwner n (some e)).tile n = (s.tile n).restore e :=
    State.tile_updTile_same (fun x => x.restore e) hn
  rw [htile, Tile.restore_chans] at hx
  rw [State.ownerOf_setOwner_same _ hn]
  exact fun he => h x hx (Option.some.inj he).symm

end

/-! ## An entry takes its tiles (R76) -/

/-- From `s` to `t` an entry of tenant or class `o` has taken the tiles of `l`: it holds them, what holds any other tile is as before, and
so are the open entries and the chains. -/
structure TakesTiles (l : List Nat) (o : Nat) (s t : State) : Prop where
  open_ : t.sched.open_ = s.sched.open_
  entry : ∀ m ∈ l, t.entryOf m = some o
  other : ∀ m, m ∉ l → t.entryOf m = s.entryOf m ∧ t.ownerOf m = s.ownerOf m
  chans : ∀ m, (t.tile m).chans = (s.tile m).chans

section
variable {s t : State} {n o : Nat}

theorem State.setEntry_takesTiles (hn : n < 128) : TakesTiles [n] o s (s.setEntry n (some o)) where
  open_ := rfl
  entry m hm := by
    rw [List.mem_singleton.mp hm]
    exact State.entryOf_setEntry_same _ hn
  other m hm := ⟨State.entryOf_setEntry_other _ (fun he => hm (List.mem_singleton.mpr he)), rfl⟩
  chans m := rfl

theorem TakesTiles.setOwner (c : Option Nat) (h : TakesTiles [n] o s t) : TakesTiles [n] o s (t.setOwner n c) where
  open_ := h.open_
  entry := h.entry
  other m hm := ⟨(h.other m hm).1, (State.ownerOf_setOwner_other _ fun he => hm (List.mem_singleton.mpr he)).trans (h.other m hm).2⟩
  chans := h.chans

theorem TakesTiles.giveTile (c : Nat) (hn : n < 128) (hc : (s.tile n).chans = []) (h : TakesTiles [n] o s t) :
    TakesTiles [n] o s (t.giveTile n c) := by
  have hnone : (t.tile n).chans = [] := (h.chans n).trans hc
  rw [State.giveTile_of_no_chain hn (by simp [hnone])]
  refine TakesTiles.setOwner _ ⟨h.open_, h.entry, h.other, fun m => ?_⟩
  by_cases hm : m = n
  · rw [hm, State.tile_updTile_same _ hn, Tile.restore_chans]
    exact h.chans n
  · rw [State.tile_updTile_other _ hm]
    exact h.chans m

theorem State.openTile_takesTiles (hn : n < 128) (hc : (s.tile n).chans = []) : TakesTiles [n] o s (s.openTile o n) := by
  have h : TakesTiles [n] o s (s.setEntry n (some o)) := State.setEntry_takesTiles hn
  unfold State.openTile
  extract_lets u
  split
  · split
    · exact h
    · split
      · exact h
      · split
        · exact h.giveTile o hn hc
        · exact h.setOwner none
  · split
    · exact h.giveTile o hn hc
    · exact h

theorem State.foldl_openTile_takesTiles {l : List Nat} (hl : ∀ m ∈ l, m < 128 ∧ (s.tile m).chans = []) :
    TakesTiles l o s (l.foldl (fun s n => s.openTile o n) s) := by
  induction l generalizing s with
  | nil => exact ⟨rfl, by simp, fun _ _ => ⟨rfl, rfl⟩, fun _ => rfl⟩
  | cons a l ih =>
    obtain ⟨ha, hc⟩ := hl a List.mem_cons_self
    have h1 : TakesTiles [a] o s (s.openTile o a) := State.openTile_takesTiles ha hc
    have h2 : TakesTiles l o (s.openTile o a) (l.foldl (fun s n => s.openTile o n) (s.openTile o a)) :=
      ih fun m hm => ⟨(hl m (List.mem_cons_of_mem a hm)).1, (h1.chans m).trans (hl m (List.mem_cons_of_mem a hm)).2⟩
    refine ⟨h2.open_.trans h1.open_, fun m hm => ?_, fun m hm => ?_, fun m => (h2.chans m).trans (h1.chans m)⟩
    · by_cases hml : m ∈ l
      · exact h2.entry m hml
      · have hma : m ∈ [a] := List.mem_singleton.mpr ((List.mem_cons.mp hm).resolve_right hml)
        exact (h2.other m hml).1.trans (h1.entry m hma)
    · obtain ⟨hma, hml⟩ := not_or.mp (fun h => hm (List.mem_cons.mpr h))
      obtain ⟨he1, ho1⟩ := h1.other m fun h => hma (List.mem_singleton.mp h)
      obtain ⟨he2, ho2⟩ := h2.other m hml
      exact ⟨he2.trans he1, ho2.trans ho1⟩

end

/-! ## An entry gives its tiles back (R75, R76, R82) -/

/-- From `s` to `t` nothing changes but which entries and which tenants have the tiles. -/
def OwnersOnly (s t : State) : Prop := t = { s with sched := { s.sched with entry := t.sched.entry, owner := t.sched.owner } }

section
variable (s : State)

theorem OwnersOnly.trans {s t u : State} (h : OwnersOnly s t) (g : OwnersOnly t u) : OwnersOnly s u := by
  unfold OwnersOnly at *
  rw [g, h]

theorem State.closeTile_ownersOnly (o n : Nat) : OwnersOnly s (s.closeTile o n) := by
  unfold State.closeTile
  split
  · rfl
  · extract_lets u
    have hu : OwnersOnly s u := rfl
    split
    · split
      · exact hu
      · exact hu.trans rfl
    · exact hu

variable {s}

theorem State.closeEntry_ownersOnly {i : Nat} {e : Entry} (he : s.table[i]? = some e) (hi : s.sched.open_.contains i = true) :
    OwnersOnly { s with sched := { s.sched with open_ := pclear s.sched.open_ i } } (s.closeEntry i) := by
  simp only [State.closeEntry, he, hi, Bool.not_true, Bool.false_eq_true, if_false]
  exact foldl_inv (Q := OwnersOnly _) (fun u n h => h.trans (u.closeTile_ownersOnly _ _)) rfl

/-- What the end of an entry leaves, whichever entry it is. -/
theorem State.closeEntry_frame (i : Nat) : (s.closeEntry i).regs = s.regs ∧ (s.closeEntry i).tiles = s.tiles ∧
    (s.closeEntry i).sched.atoms = s.sched.atoms ∧ (s.closeEntry i).sched.grant = s.sched.grant := by
  cases he : s.table[i]? with
  | none => simp [State.closeEntry, he]
  | some e =>
    cases hi : s.sched.open_.contains i with
    | false => simp only [State.closeEntry, he, hi, Bool.not_false, if_true, and_self]
    | true =>
      have h := State.closeEntry_ownersOnly he hi
      rw [OwnersOnly] at h
      rw [h]
      exact ⟨rfl, rfl, rfl, rfl⟩

end

/-! ## A tile that is pre-empted (R82, R488) -/

section
variable (s : State)

/-- To save a tile's work is, for the tiles and the schedule, to save it and to leave the tile with no tenant. -/
theorem State.saveTile_eq (c n e : Nat) :
    ∃ u : State, u.tiles = s.tiles ∧ u.sched = s.sched ∧ s.saveTile c n e = (u.updTile n fun x => x.save c).setOwner n none := by
  unfold State.saveTile
  extract_lets ref
  generalize hd : (if s.wantsEvent 0x05 (some c) then s.free else (0, s)) = d
  have hframe : d.2.tiles = s.tiles ∧ d.2.sched = s.sched := by
    subst hd
    split <;> exact ⟨rfl, rfl⟩
  obtain ⟨cc, v⟩ := d
  exact ⟨_, (v.event_tiles _ _ _ _ _ _).trans hframe.1, (v.event_sched _ _ _ _ _ _).trans hframe.2, rfl⟩

theorem State.countLate_frame (e n : Nat) : (s.countLate e n).tiles = s.tiles ∧ (s.countLate e n).sched.owner = s.sched.owner := by
  unfold State.countLate
  split
  · split <;> exact ⟨rfl, rfl⟩
  · exact ⟨rfl, rfl⟩

variable {s} {c e n : Nat}

/-- Work of one tenant on a tile that an open entry of another holds is saved, and the tile goes over if that tenant is ACTIVE. -/
theorem State.preempt_for_entry (ho : s.ownerOf n = some c) (hwork : s.workOn c n = true) (hentry : s.entryOf n = some e)
    (he : e < 16) (hne : e ≠ c) :
    let u := s.saveTile c n e
    let v := if s.active e then (u.giveTile n e).countLate e n else u
    (s.preempt n).tiles = v.tiles ∧ (s.preempt n).sched = v.sched := by
  have hin : ((s.entryOf n).filter fun e => decide (e < 16) && e != c) = some e := by simp [hentry, he, hne]
  have hnext : (some e).filter s.active = if s.active e then some e else none := Option.filter_some
  simp only [State.preempt, ho, hwork, hin, hnext, Bool.not_true, Bool.false_eq_true, Bool.false_and, Option.isNone_some, if_false,
    Option.getD_some]
  cases s.active e with
  | false => exact ite_of_both (Q := fun t : State => t.tiles = _ ∧ t.sched = _) ⟨rfl, rfl⟩ ⟨rfl, rfl⟩
  | true => exact ite_of_both (Q := fun t : State => t.tiles = _ ∧ t.sched = _) ⟨rfl, rfl⟩ ⟨rfl, rfl⟩

theorem State.preempt_spec (hn : n < 128) (ho : s.ownerOf n = some c) (hwork : s.workOn c n = true) (hentry : s.entryOf n = some e)
    (he : e < 16) (hne : e ≠ c) (hchans : ∀ x ∈ (s.tile n).chans, x.2.tenant = c) :
    aget ((s.preempt n).tile n).saved c = some (s.tile n).ctx.unloaded ∧ ((s.preempt n).tile n).held = none ∧
      (s.preempt n).ownerOf n = (if s.active e then some e else none) ∧ ∀ m, m ≠ n → (s.preempt n).tile m = s.tile m := by
  obtain ⟨u, hut, hus, hsave⟩ := s.saveTile_eq c n e
  obtain ⟨htiles, hsched⟩ := State.preempt_for_entry ho hwork hentry he hne
  simp only [hsave] at htiles hsched
  have hown := congrArg Sched.owner hsched
  generalize s.preempt n = p at htiles hown
  have hsaved : ((u.updTile n fun x => x.save c).setOwner n none).tile n = (s.tile n).save c :=
    (State.tile_updTile_same (fun x => x.save c) hn).trans (congrArg (Tile.save · c) (State.tile_congr hut n))
  have hothers : ∀ m, m ≠ n → ((u.updTile n fun x => x.save c).setOwner n none).tile m = s.tile m := fun m hm =>
    (State.tile_updTile_other (fun x => x.save c) hm).trans (State.tile_congr hut m)
  cases ha : s.active e with
  | false =>
    rw [ha, if_neg (by decide)] at htiles hown
    rw [State.tile_congr htiles, State.ownerOf_congr hown, hsaved, State.ownerOf_setOwner_same _ hn]
    exact ⟨Tile.save_saved _ _, rfl, rfl, fun m hm => (State.tile_congr htiles m).trans (hothers m hm)⟩
  | true =>
    rw [ha, if_pos rfl] at htiles hown
    obtain ⟨hlt, hlo⟩ := State.countLate_frame (((u.updTile n fun x => x.save c).setOwner n none).giveTile n e) e n
    have hgive := State.giveTile_of_no_chain (s := (u.updTile n fun x => x.save c).setOwner n none) (e := e) hn fun x hx => by
      rw [hsaved, Tile.save_chans] at hx
      rw [hchans x hx]
      exact hne.symm
    rw [hlt, hgive] at htiles
    rw [hlo, hgive] at hown
    have hrestored : p.tile n = ((s.tile n).save c).restore e :=
      (State.tile_congr htiles n).trans ((State.tile_updTile_same (fun x => x.restore e) hn).trans (congrArg (Tile.restore · e) hsaved))
    refine ⟨?_, ?_, (State.ownerOf_congr hown n).trans (State.ownerOf_setOwner_same _ hn), fun m hm => ?_⟩
    · rw [hrestored, Tile.restore_saved _ hne.symm, Tile.save_saved]
    · rw [hrestored, Tile.restore_held]
    · exact (State.tile_congr htiles m).trans ((State.tile_updTile_other (fun x => x.restore e) hm).trans (hothers m hm))

end

end Sys2Proof.Machine
end


section
/-!
PROOFS. The schedule's commands: O15.
-/

namespace Sys2Proof.Machine

section
variable {s : State}

/-! ## SCH_SEL (R77) -/

/-- A request for a table that exists, with no time named, is stored and shown pending. -/
theorem State.schSelWrite_now {v : Nat} (at_ : Nat) (hc : v % 8 < s.fld 0x10200 16 4) (h3 : bitOf v 3 = false) (h11 : bitOf v 11 = false)
    (h12 : bitOf v 12 = false) :
    s.schSelWrite v at_ =
      { ((s.setFld 0x10200 0 3 v).setFlag 0x10200 3 false).setFlag 0x10200 4 true with
        sched := { s.sched with request := some (v % 8), reqAt := none, reqTime := at_ } } := by
  simp only [State.schSelWrite, h3, h11, h12, Bool.false_eq_true, if_false, Nat.not_le.mpr hc, Bool.not_false, if_true]
  rfl

theorem completes_schSelWrite {v : Nat} (at_ : Nat) (hw : nwf s.regs = true) (hs : s.serves = true) (hc : v % 8 < s.fld 0x10200 16 4)
    (h3 : bitOf v 3 = false) (h11 : bitOf v 11 = false) (h12 : bitOf v 12 = false) :
    Completes (.schSelWrite v at_) s fun t =>
      t.sched.request = some (v % 8) ∧ t.sched.reqAt = none ∧ t.sched.reqTime = at_ ∧ t.fld 0x10200 0 3 = v % 8 ∧
      t.flag 0x10200 4 = true ∧ t.fld 0x10200 8 3 = s.fld 0x10200 8 3 := by
  have hx : exec (.schSelWrite v at_) s = .next (s.schSelWrite v at_) := if_pos hs
  rw [State.schSelWrite_now at_ hc h3 h11 h12] at hx
  have w1 := State.nwf_setFld 0x10200 0 3 v hw
  have w2 := State.nwf_setFlag 0x10200 3 false w1
  refine ⟨_, hx, rfl, rfl, rfl, ?_, State.flag_setFlag_same _ _ _ w2 (by decide), ?_⟩
  · calc _ = ((s.setFld 0x10200 0 3 v).setFlag 0x10200 3 false).fld 0x10200 0 3 := State.fld_setFld_below _ w2 (by decide) (by decide)
      _ = (s.setFld 0x10200 0 3 v).fld 0x10200 0 3 := State.fld_setFld_below _ w1 (by decide) (by decide)
      _ = v % 8 := State.fld_setFld_same _ _ _ _ hw (by decide)
  · calc _ = ((s.setFld 0x10200 0 3 v).setFlag 0x10200 3 false).fld 0x10200 8 3 := State.fld_setFld_above _ w2 (by decide) (by decide)
      _ = (s.setFld 0x10200 0 3 v).fld 0x10200 8 3 := State.fld_setFld_above _ w1 (by decide) (by decide)
      _ = s.fld 0x10200 8 3 := State.fld_setFld_above _ hw (by decide) (by decide)

/-! ## Entries and the margin (R75, R76) -/

theorem completes_entryOpen {n : Nat} {e : Entry} (he : s.table[n]? = some e) (hs : s.serves = true) (hm : s.sched.margin = false)
    (ho : s.sched.open_.contains n = false) (hc : ∀ m ∈ s.maskTiles e.mask, (s.tile m).chans = []) :
    Completes (.entryOpen n) s fun t =>
      t.sched.open_ = pset s.sched.open_ n ∧ (∀ m ∈ s.maskTiles e.mask, t.entryOf m = some e.owner) ∧
      (∀ m, m ∉ s.maskTiles e.mask → t.entryOf m = s.entryOf m ∧ t.ownerOf m = s.ownerOf m) := by
  let u : State := { s with sched := { s.sched with open_ := pset s.sched.open_ n, late := pclear s.sched.late n } }
  let v : State := (s.maskTiles e.mask).foldl (fun s n => s.openTile e.owner n) u
  have hx : exec (.entryOpen n) s = .next (v.event 0x02 (if e.owner < 16 then some e.owner else none) none n
      (leBytes 1 e.owner ++ leBytes 1 (v.fld 0x10200 8 3) ++ leBytes 4 e.start ++ leBytes 4 e.dur) (0, 0)) := by
    show execEntryOpen n s = _
    rw [execEntryOpen, he]
    exact if_neg (by simp only [hs, hm, ho, Bool.not_true, Bool.or_self, Bool.false_eq_true, not_false_eq_true])
  have hv : TakesTiles (s.maskTiles e.mask) e.owner u v :=
    State.foldl_openTile_takesTiles fun m hm => ⟨State.lt_of_mem_maskTiles hm, hc m hm⟩
  refine ⟨_, hx, ?_, fun m hm => ?_, fun m hm => ?_⟩
  · rw [State.event_sched]
    exact hv.open_
  · rw [State.entryOf, State.event_sched]
    exact hv.entry m hm
  · rw [State.entryOf, State.ownerOf, State.event_sched]
    exact hv.other m hm

theorem completes_entryEnd {n : Nat} {e : Entry} (he : s.table[n]? = some e) (ho : s.sched.open_.contains n = true) :
    Completes (.entryEnd n) s fun t => t.sched.open_ = pclear s.sched.open_ n ∧ t.regs = s.regs ∧ t.tiles = s.tiles := by
  have h := State.closeEntry_ownersOnly he ho
  rw [OwnersOnly] at h
  refine ⟨_, rfl, ?_⟩
  rw [h]
  exact ⟨rfl, rfl, rfl⟩

theorem completes_marginStart (hs : s.serves = true) (hm : s.sched.margin = false) (hg : s.sched.grant = none) :
    Completes .marginStart s fun t => t.sched.margin = true ∧ t.regs = s.regs ∧ t.tiles = s.tiles ∧ t.sched.atoms = s.sched.atoms := by
  let u : State := s.sched.open_.foldl (fun s i => s.closeEntry i) s
  obtain ⟨hregs, htiles, hatoms, hgrant⟩ : u.regs = s.regs ∧ u.tiles = s.tiles ∧ u.sched.atoms = s.sched.atoms ∧
      u.sched.grant = s.sched.grant := by
    refine foldl_inv (Q := fun u : State => u.regs = s.regs ∧ u.tiles = s.tiles ∧ u.sched.atoms = s.sched.atoms ∧
      u.sched.grant = s.sched.grant) (fun u i h => ?_) ⟨rfl, rfl, rfl, rfl⟩
    obtain ⟨h1, h2, h3, h4⟩ := h
    obtain ⟨g1, g2, g3, g4⟩ := u.closeEntry_frame i
    exact ⟨g1.trans h1, g2.trans h2, g3.trans h3, g4.trans h4⟩
  have hx : exec .marginStart s = .next { u with sched := { u.sched with margin := true } } := by
    show execMarginStart s = _
    simp only [execMarginStart, hs, hm, Bool.not_true, Bool.or_self, Bool.false_eq_true, if_false]
    rw [show u.sched.grant = none from hgrant.trans hg]
  exact ⟨_, hx, rfl, hregs, htiles, hatoms⟩

/-! ## Atoms and their deadlines (R79, R80) -/

theorem State.startAtom_fresh {cls : Nat} {tiles : List Nat} (ha : (s.sched.atoms.any fun x => x.1 == cls) = false) (ht : tiles ≠ []) :
    s.startAtom cls tiles = some { s with sched := { s.sched with atoms := s.sched.atoms ++ [(cls, tiles)] } } :=
  (if_neg fun h => Bool.false_ne_true (ha.symm.trans h)).trans (if_neg (by simp [ht]))

theorem completes_bgAtomStart {cls off : Nat} {e : Entry}
    (he : (s.sched.open_.filterMap (fun i => s.table[i]?)).find? (fun e =>
      e.owner == cls && decide (16 ≤ cls) && decide (off + atomNs cls ≤ (e.start + e.dur) * 100)) = some e)
    (ha : (s.sched.atoms.any fun x => x.1 == cls) = false) (ht : s.atomTiles cls (s.maskTiles e.mask) ≠ []) :
    Completes (.bgAtomStart cls off) s fun t =>
      t = { s with sched := { s.sched with atoms := s.sched.atoms ++ [(cls, s.atomTiles cls (s.maskTiles e.mask))] } } := by
  refine ⟨_, ?_, rfl⟩
  show execBgAtomStart cls off s = _
  simp only [execBgAtomStart, he, State.startAtom_fresh ha ht, Option.getD_some]

theorem State.serveUnit_frame (cls at_ : Nat) (u : Option Nat) :
    (s.serveUnit cls at_ u).regs = s.regs ∧ (s.serveUnit cls at_ u).tiles = s.tiles ∧
      (s.serveUnit cls at_ u).sched.atoms = s.sched.atoms := by
  cases u <;> exact ⟨rfl, rfl, rfl⟩

/-- The state in which an atom of a class is over, before its work is done. -/
def State.endAtom (s : State) (cls : Nat) : State :=
  { s with sched := { s.sched with atoms := s.sched.atoms.filter fun x => x.1 != cls } }

theorem exec_bgAtomComplete_calib (at_ : Nat) (o : AtomOut) (ha : (s.sched.atoms.any fun x => x.1 == clCalib) = true) :
    ∃ tiles : List Nat, exec (.bgAtomComplete clCalib at_ o) s =
      .next (tiles.foldl (fun s n => s.serveUnit clCalib at_ (some n)) (s.endAtom clCalib)) := by
  obtain ⟨x, hx, hcls⟩ := List.any_eq_true.mp ha
  show ∃ tiles : List Nat, execBgAtomComplete clCalib at_ o s = _
  unfold execBgAtomComplete
  split
  next hnone => exact absurd hcls (List.find?_eq_none.mp hnone x hx)
  next cls tiles hsome => exact ⟨tiles, rfl⟩

theorem completes_bgAtomComplete_calib (at_ : Nat) (o : AtomOut) (ha : (s.sched.atoms.any fun x => x.1 == clCalib) = true) :
    Completes (.bgAtomComplete clCalib at_ o) s fun t =>
      t.sched.atoms = (s.sched.atoms.filter fun x => x.1 != clCalib) ∧ t.regs = s.regs ∧ t.tiles = s.tiles := by
  obtain ⟨tiles, hx⟩ := exec_bgAtomComplete_calib at_ o ha
  refine ⟨_, hx, foldl_inv (Q := fun u : State =>
    u.sched.atoms = (s.endAtom clCalib).sched.atoms ∧ u.regs = s.regs ∧ u.tiles = s.tiles) (fun u n h => ?_) ⟨rfl, rfl, rfl⟩⟩
  obtain ⟨hatoms, hregs, htiles⟩ := h
  obtain ⟨gregs, gtiles, gatoms⟩ := u.serveUnit_frame clCalib at_ (some n)
  exact ⟨gatoms.trans hatoms, gregs.trans hregs, gtiles.trans htiles⟩

theorem completes_bgDeadlineExpiry_bist {u at_ : Nat} (hw : nwf s.regs = true)
    (hu : ((classGroups clBist).any fun g => (s.classUnits clBist g).contains u) = true) (hs : s.sched.since.isSome = true)
    (hd : s.deadlineOf clBist u ≤ at_) (hm : (s.sched.units.any fun x => x.cls == clBist && x.unit == u && x.missed) = false) :
    Completes (.bgDeadlineExpiry clBist u at_) s fun t =>
      t.word 0x1030C = satAdd32 (s.word 0x1030C) 1 ∧
      (t.sched.units.any fun x => x.cls == clBist && x.unit == u && x.missed) = true ∧ t.tiles = s.tiles := by
  have hx : exec (.bgDeadlineExpiry clBist u at_) s =
      .next ((s.bump 0x1030C 1).putUnit { cls := clBist, unit := u, deadline := s.deadlineOf clBist u, missed := true }) := by
    show execBgDeadlineExpiry clBist u at_ s = _
    simp only [execBgDeadlineExpiry, hu, hm, Option.isNone_eq_false_iff.mpr hs, decide_eq_false (Nat.not_lt.mpr hd), Bool.not_true,
      Bool.or_self, Bool.false_eq_true, if_false]
    rfl
  exact ⟨_, hx, State.word_setWord_same _ _ hw, by simp [State.putUnit], rfl⟩

/-! ## Pre-emption and tick work that carried over (R82, R83) -/

theorem completes_preempt {n : Fin 128} {c e : Nat} (ho : s.ownerOf n = some c) (hwork : s.workOn c n = true)
    (hentry : s.entryOf n = some e) (he : e < 16) (hne : e ≠ c)
    (hchans : ((s.tile n).chans.all fun x => x.2.tenant == c) = true) :
    Completes (.preempt n) s fun t =>
      aget (t.tile n).saved c = some (s.tile n).ctx.unloaded ∧ (t.tile n).held = none ∧
      t.ownerOf n = (if s.active e then some e else none) ∧ ∀ m : Fin 128, m ≠ n → t.tile m = s.tile m := by
  obtain ⟨hsaved, hheld, howner, hother⟩ := State.preempt_spec n.isLt ho hwork hentry he hne fun x hx =>
    beq_iff_eq.mp (List.all_eq_true.mp hchans x hx)
  exact ⟨_, rfl, hsaved, hheld, howner, fun m hm => hother m (Fin.val_ne_of_ne hm)⟩

theorem completes_tickWorkComplete {c : Fin 16} {n excess : Nat} (hw : nwf s.regs = true) (hn : n < s.beat) (hex : 0 < excess)
    (hopen : s.openWork c n = []) (hs : s.serves = true) :
    Completes (.tickWorkComplete c n excess) s fun t =>
      t.fld (tnt c 0x330) 0 20 = excess % 2 ^ 20 ∧ t.ladles[c].overruns = s.ladles[c].overruns ++ [(s.tick.boundaries, excess)] ∧
      t.word (0x10100 + 16 * c) = satAdd32 (s.word (0x10100 + 16 * c)) 1 ∧
      t.fld (0x10104 + 16 * c) 0 20 = max (s.fld (0x10104 + 16 * c) 0 20) (min excess 0xFFFFF) := by
  let longest := max (s.fld (0x10104 + 16 * c) 0 20) (min excess 0xFFFFF)
  let u : State := (s.bump (0x10100 + 16 * c) 1).setFld (0x10104 + 16 * c) 0 20 longest
  have hx : exec (.tickWorkComplete c n excess) s = .next ((u.setFld (tnt c 0x330) 0 20 excess).updLadle c fun l =>
      { l with overruns := l.overruns ++ [(s.tick.boundaries, excess)] }) := by
    show execTickWorkComplete c n excess s = _
    rw [execTickWorkComplete, if_neg (by simp only [hopen, hs, List.isEmpty_nil, Bool.true_eq_false, or_false]; omega)]
    simp only [u, longest, show 0x10104 + 16 * c.val = 0x10100 + 16 * c.val + 4 by omega]
    rfl
  have w1 := State.nwf_bump (0x10100 + 16 * c) 1 hw
  have w2 : nwf u.regs = true := State.nwf_setFld _ _ _ _ w1
  refine ⟨_, hx, State.fld_setFld_same _ _ _ _ w2 (by decide), congrArg Ladle.overruns (vupd_get_same _ c.isLt _), ?_, ?_⟩
  · calc _ = u.word (0x10100 + 16 * c) := State.word_setFld_other _ _ _ w2 (by simp only [tnt]; omega)
      _ = (s.bump (0x10100 + 16 * c) 1).word (0x10100 + 16 * c) := State.word_setFld_other _ _ _ w1 (by omega)
      _ = satAdd32 (s.word (0x10100 + 16 * c)) 1 := State.word_setWord_same _ _ hw
  · have hlt : s.fld (0x10104 + 16 * c) 0 20 < 2 ^ 20 := Nat.mod_lt _ (by decide)
    calc _ = u.fld (0x10104 + 16 * c) 0 20 := State.fld_setFld_other _ _ _ _ _ w2 (by simp only [tnt]; omega)
      _ = longest % 2 ^ 20 := State.fld_setFld_same _ _ _ _ w1 (by decide)
      _ = longest := Nat.mod_eq_of_lt (by simp only [longest]; omega)

end

/-- Settles O15: an entry changes nothing of the tiles outside its mask, a chain issues nothing for a tenant that has not the tile, and
each count and each field of SCH_SEL stands in a word, or bits, of its own. -/
theorem scheduleEntriesAndAtoms : Obligations.ScheduleEntriesAndAtoms := by
  intro s htidy
  have hw := State.tidy_regs htidy
  exact ⟨fun v at_ hs hc h3 h11 h12 => completes_schSelWrite at_ hw hs hc h3 h11 h12,
    fun n e he hs hm ho hc => completes_entryOpen he hs hm ho hc,
    fun n e he ho => completes_entryEnd he ho,
    fun hs hm hg => completes_marginStart hs hm hg,
    fun cls off e he ha ht => completes_bgAtomStart he ha ht,
    fun at_ o ha => completes_bgAtomComplete_calib at_ o ha,
    fun u at_ hu hs hd hm => completes_bgDeadlineExpiry_bist hw hu hs hd hm,
    fun n c e ho hwork hentry he hne hchans => completes_preempt ho hwork hentry he hne hchans,
    fun c n excess hn hex hopen hs => completes_tickWorkComplete hw hn hex hopen hs⟩

end Sys2Proof.Machine
end


section
/-!
PROOFS. The overrun rule: O16.
-/

namespace Sys2Proof.Machine

/-- Is a command one of a ring, or of a recipe's launch, and not one of a work item? -/
def CmdRef.notOfItem : CmdRef → Bool
  | .item _ _ => false
  | _ => true

section
variable {s : State} {c : Nat}

/-- Outside a recovery, tick work of an ACTIVE tenant that is still open two boundaries later is judged. -/
theorem exec_overrunExpiry (progress : Bool) {x : CmdRef × RCmd} (hc : c < 16) (hb : 2 ≤ s.beat) (ha : s.active c = true)
    (hr : s.inRecovery = false) (hx : x ∈ s.openWork c (s.beat - 2)) (hi : x.1.notOfItem = true) :
    ∃ refs i, exec (.overrunExpiry c progress) s = .next (s.judge c 0x01 refs i progress) := by
  have hguard : ¬(16 ≤ c ∨ s.beat < 2 ∨ s.active c = false ∨ s.inRecovery = true) := by
    simp only [ha, hr, Bool.true_eq_false, Bool.false_eq_true, or_false]
    omega
  show ∃ refs i, execOverrunExpiry c progress s = _
  unfold execOverrunExpiry
  extract_lets late
  rw [if_neg hguard]
  have hlate : x ∈ late := by
    refine List.mem_filter.mpr ⟨hx, ?_⟩
    obtain ⟨ref, cmd⟩ := x
    cases ref with
    | item => exact absurd hi Bool.false_ne_true
    | ring => rfl
    | stored => rfl
  clear_value late
  cases late with
  | nil => exact absurd hlate List.not_mem_nil
  | cons y rest => exact ⟨_, _, rfl⟩

theorem State.judge_progress (code : Nat) (refs : List CmdRef) (i : Info) :
    s.judge c code refs i true = s.raise c code { i with detail := 1 } := rfl

/-- OVERRUN is of class FREEZE and enters the tenant's record (R486, R491). -/
theorem faultClass_overrun : faultClass 0x01 = (.freeze, true, false) := rfl

end

/-- Settles O16: with progress seen the judgement is the fault OVERRUN, whose class is FREEZE. -/
theorem overrunFreezesTenant : Obligations.OverrunFreezesTenant := by
  intro s c htidy hb ha hr hwork
  obtain ⟨x, hx, hi⟩ := List.any_eq_true.mp hwork
  have hitem : x.1.notOfItem = true := by
    obtain ⟨ref, cmd⟩ := x
    cases ref with
    | item => exact absurd hi Bool.false_ne_true
    | ring => rfl
    | stored => rfl
  obtain ⟨refs, i, hexec⟩ := exec_overrunExpiry true c.isLt hb ha hr hx hitem
  rw [State.judge_progress] at hexec
  obtain ⟨hfrozen, -, -, -⟩ := State.raise_freezes { i with detail := 1 } (State.tidy_regs htidy) c.isLt (beq_iff_eq.mp ha)
    (show 0x01 < 256 by decide) (by rw [faultClass_overrun]) (.inr (by rw [faultClass_overrun]))
  exact ⟨_, hexec, hfrozen⟩

end Sys2Proof.Machine
end


section
/-!
PROOFS. What the work of one tile leaves alone: the other tiles, the delivery counters, the sessions, flash and the fuses; and what a
fault and the end of a command leave of the tiles.
-/

namespace Sys2Proof.Machine

/-! ## Faults and events leave the tiles (R484 to R488) -/

/-- From `s` to `t` the tiles, the delivery counters, the sessions, flash and the fuses stay. -/
structure KeepsTiles (s t : State) : Prop where
  tiles : t.tiles = s.tiles
  ctrs : t.ctrs = s.ctrs
  lrd : t.lrd = s.lrd
  flash : t.flash = s.flash
  fuses : t.fuses = s.fuses

section
variable {s t u : State}

theorem KeepsTiles.refl (s : State) : KeepsTiles s s := ⟨rfl, rfl, rfl, rfl, rfl⟩

theorem KeepsTiles.trans (h : KeepsTiles s t) (g : KeepsTiles t u) : KeepsTiles s u :=
  ⟨g.tiles.trans h.tiles, g.ctrs.trans h.ctrs, g.lrd.trans h.lrd, g.flash.trans h.flash, g.fuses.trans h.fuses⟩

theorem KeepsTiles.ite {c : Prop} [Decidable c] (ht : KeepsTiles s t) (hu : KeepsTiles s u) : KeepsTiles s (if c then t else u) :=
  ite_of_both ht hu

theorem KeepsTiles.foldl {α : Type} {f : State → α → State} {l : List α} (hf : ∀ u x, KeepsTiles u (f u x)) (s : State) :
    KeepsTiles s (l.foldl f s) :=
  foldl_inv (Q := KeepsTiles s) (fun u x h => h.trans (hf u x)) (.refl s)

theorem Reports.keepsTiles (h : Reports s t) : KeepsTiles s t := ⟨h.tiles, h.ctrs, h.lrd, h.flash, h.fuses⟩

theorem LinkOnly.keepsTiles (h : LinkOnly s t) : KeepsTiles s t := by
  rw [LinkOnly] at h
  rw [h]
  exact ⟨rfl, rfl, rfl, rfl, rfl⟩

theorem State.freeze_keepsTiles (s : State) (n : Nat) (peer : Bool) : KeepsTiles s (s.freeze n peer) := by
  unfold State.freeze
  extract_lets s0 s1 s2 recov s3 s4
  have h0 : KeepsTiles s s0 := ⟨rfl, rfl, rfl, rfl, rfl⟩
  have h1 : KeepsTiles s s1 := h0.trans (s0.setFld_reports _ _ _ _).keepsTiles
  have h2 : KeepsTiles s s2 := h1.trans (.foldl (fun u r => .ite (u.setFld_reports _ _ _ _).keepsTiles (.refl u)) s1)
  have h3 : KeepsTiles s s3 := h2.trans ⟨rfl, rfl, rfl, rfl, rfl⟩
  have h4 : KeepsTiles s s4 := h3.trans ((s3.tntEvent_reports n 0).trans (State.modEvent_reports _ 3)).keepsTiles
  exact .ite h0 (.ite (h4.trans (s4.sendTwin_linkOnly _ _).keepsTiles) h4)

theorem State.raise_keepsTiles (s : State) (n code : Nat) (i : Info) : KeepsTiles s (s.raise n code i) := by
  have he : KeepsTiles s (s.enter n code i) := (s.enter_reports n code i).keepsTiles
  unfold State.raise
  split
  · exact he.trans (State.freeze_keepsTiles _ _ _)
  · exact he.trans (State.freeze_keepsTiles _ _ _)
  · exact he

theorem State.countLoads_keepsTiles (s : State) (n : Nat) (c : Cursor) (c' : Option Cursor) : KeepsTiles s (s.countLoads n c c') := by
  unfold State.countLoads
  cases c' with
  | none => exact .refl s
  | some x =>
    have hb : KeepsTiles s (s.bump (0xA01018 + 0x20 * n) (x.reloads - c.reloads)) := (s.bump_reports _ _).keepsTiles
    exact .ite (hb.trans (State.bump_reports _ _ _).keepsTiles) hb

end

/-! ## The work of one tile -/

/-- From `s` to `t` no tile but `n` changes, and no delivery counter, session, flash or fuse. -/
structure OnTile (n : Nat) (s t : State) : Prop where
  others : ∀ m, m ≠ n → t.tile m = s.tile m
  ctrs : t.ctrs = s.ctrs
  lrd : t.lrd = s.lrd
  flash : t.flash = s.flash
  fuses : t.fuses = s.fuses

section
variable {n : Nat} {s t u : State}

theorem OnTile.trans (h : OnTile n s t) (g : OnTile n t u) : OnTile n s u :=
  ⟨fun m hm => (g.others m hm).trans (h.others m hm), g.ctrs.trans h.ctrs, g.lrd.trans h.lrd, g.flash.trans h.flash, g.fuses.trans h.fuses⟩

theorem KeepsTiles.onTile (h : KeepsTiles s t) : OnTile n s t := ⟨fun m _ => State.tile_congr h.tiles m, h.ctrs, h.lrd, h.flash, h.fuses⟩

theorem State.updTile_onTile (s : State) (n : Nat) (f : Tile → Tile) : OnTile n s (s.updTile n f) :=
  ⟨fun _ hm => State.tile_updTile_other f hm, rfl, rfl, rfl, rfl⟩

theorem State.setTile_onTile (s : State) (n : Nat) (x : Tile) : OnTile n s (s.setTile n x) := s.updTile_onTile n fun _ => x

theorem State.tile_setTile_same (x : Tile) (hn : n < 128) : (s.setTile n x).tile n = x := State.tile_updTile_same (fun _ => x) hn

end

/-! ## The end of a command leaves all but the chains (R386, R403, R453) -/

/-- From `s` to `t` nothing changes on any tile but its chains. -/
def ChainsOnly (s t : State) : Prop := ∀ n, t.tile n = { s.tile n with chans := (t.tile n).chans }

section
variable {s t u : State}

theorem ChainsOnly.refl (s : State) : ChainsOnly s s := fun _ => rfl

theorem ChainsOnly.trans (h : ChainsOnly s t) (g : ChainsOnly t u) : ChainsOnly s u := fun n => by
  rw [g n, h n]

theorem ChainsOnly.ite {c : Prop} [Decidable c] (ht : ChainsOnly s t) (hu : ChainsOnly s u) : ChainsOnly s (if c then t else u) :=
  ite_of_both ht hu

theorem ChainsOnly.of_tiles_eq (h : t.tiles = s.tiles) : ChainsOnly s t := fun n => by
  rw [State.tile_congr h n]

theorem State.setChan_chainsOnly (s : State) (n ch : Nat) (c : Option Chan) : ChainsOnly s (s.setChan n ch c) := fun m => by
  by_cases hm : m = n
  · subst hm
    by_cases hn : m < 128
    · rw [State.setChan, State.tile_updTile_same _ hn]
    · simp only [State.tile, dif_neg hn]
  · rw [State.setChan, State.tile_updTile_other _ hm]

theorem State.updCmd_tiles (s : State) (n : Nat) (c : CmdRef) (f : RCmd → RCmd) : (s.updCmd n c f).tiles = s.tiles := by
  cases c <;> rfl

theorem State.signal_tiles (s : State) (n ring : Nat) (e : List Byte) (w : Waiter) : (s.signal n ring e w).1.tiles = s.tiles := by
  unfold State.signal
  extract_lets v member pair op ctr dst
  clear_value dst
  split
  · split <;> rfl
  · cases dst with
    | none => rfl
    | some d =>
      dsimp only
      split
      · exact ite_of_both (Q := fun u : State => u.tiles = s.tiles) rfl rfl
      · split
        next hp => exact (s.sendPacket_linkOnly _ _ _ _ hp).tiles
        next => rfl

theorem State.sigAct_tiles (s : State) (n r i seq tick : Nat) (out : Bool) : (s.sigAct n r i seq tick out).tiles = s.tiles := by
  unfold State.sigAct
  split
  · exact (s.raise_keepsTiles _ _ _).tiles
  · extract_lets e
    have hlog (es : List (List Byte)) : (s.pushLog n es).tiles = s.tiles :=
      ite_of_both (Q := fun u : State => u.tiles = s.tiles) (State.tntEvent_tiles _ _ _) rfl
    refine ite_of_both (Q := fun u : State => u.tiles = s.tiles) rfl ?_
    exact ite_of_both (Q := fun u : State => u.tiles = s.tiles) (hlog _) (s.signal_tiles _ _ _ _)

theorem State.endLaunch_tiles (s : State) (n : Nat) (ring : Option Nat) (key : Nat) : (s.endLaunch n ring key).tiles = s.tiles := by
  have hrel (recipe buf : Nat) : (s.releaseBuf recipe buf).tiles = s.tiles := by
    unfold State.releaseBuf
    split <;> rfl
  unfold State.endLaunch
  split
  · exact ite_of_both (Q := fun u : State => u.tiles = s.tiles) ((State.updCmd_tiles _ _ _ _).trans (hrel _ _)) rfl
  · rfl

theorem State.endCmd_tiles (s : State) (n : Nat) (c : CmdRef) : (s.endCmd n c).tiles = s.tiles := by
  unfold State.endCmd
  extract_lets u
  have hu : u.tiles = s.tiles := by
    refine Eq.trans ?_ (s.updCmd_tiles n c RCmd.finish)
    unfold u State.storedSig
    split
    · exact ite_of_both (Q := fun v : State => v.tiles = _) (State.sigAct_tiles _ _ _ _ _ _ _) rfl
    · rfl
  clear_value u
  split
  next r key i =>
    refine (State.endLaunch_tiles _ _ _ _).trans ?_
    split
    · exact (State.updCmd_tiles _ _ _ _).trans hu
    · exact hu
  next => exact hu

theorem State.startScatter_chainsOnly (s : State) (i : Nat) : ChainsOnly s (s.startScatter i) := by
  unfold State.startScatter
  split
  · exact .refl s
  · split
    · extract_lets ch c
      exact (s.setChan_chainsOnly _ ch (some c)).trans (.of_tiles_eq rfl)
    · exact .refl s

theorem State.endItem_tiles (s : State) (i : Nat) : (s.endItem i).tiles = s.tiles := by
  unfold State.endItem
  split
  · rfl
  next x _ =>
    extract_lets u1 front u2
    have h2 : u2.tiles = s.tiles :=
      foldl_inv (Q := fun u : State => u.tiles = s.tiles) (fun u c hu => (u.updCmd_tiles _ _ _).trans hu) rfl
    clear_value u2
    split
    refine ite_of_both (Q := fun u : State => u.tiles = s.tiles) ?_ h2
    exact (State.endCmd_tiles _ _ _).trans ((State.event_tiles _ _ _ _ _ _ _).trans h2)

theorem State.endWork_chainsOnly (s : State) (n : Nat) (c : CmdRef) : ChainsOnly s (s.endWork n c) := by
  unfold State.endWork
  split
  · exact .of_tiles_eq rfl
  · exact .of_tiles_eq rfl
  · exact .of_tiles_eq (s.endItem_tiles _)
  next i j _ _ _ =>
    have hu : ChainsOnly s (s.updCmd n (.item i j) RCmd.finish) := .of_tiles_eq rfl
    dsimp only
    split
    · exact .ite (hu.trans (State.startScatter_chainsOnly _ _)) hu
    · exact hu
  · exact .of_tiles_eq (s.endCmd_tiles _ _)

end

end Sys2Proof.Machine
end


section
/-!
PROOFS. Sequencer control and ordering: what a control instruction that issues does, and O21.
-/

namespace Sys2Proof.Machine

/-! ## A control instruction that issues (R92, R94) -/

/-- The state once a control instruction of program `p` has issued on tile `n`, before its own effect: the program stands at its next
word, and the instruction is counted. -/
def State.stepped (s : State) (n : Nat) (p : Prog) : State :=
  ((s.updTile n fun t => { t with prog := some p.next }).addQuad (0xA01008 + 0x20 * n) 1).addQuad (0xA02040 + 0x100 * p.tenant) 1

section
variable {s : State} {n : Nat} {w : BitVec 256} {p : Prog} {c : Instr}

/-- What a control instruction on tile `n` leaves alone from `s` to `t`: the other tiles, HBM, the sessions and the front end. -/
def ControlFrame (n : Nat) (s t : State) : Prop := (∀ m, m ≠ n → t.tile m = s.tile m) ∧ t.hbm = s.hbm ∧ t.lrd = s.lrd ∧ t.front = s.front

theorem TileReady.lt (hr : TileReady s n w p) : n < 128 := by
  obtain ⟨-, hn, -⟩ := hr
  exact hn

/-- A read of a scratchpad without errors changes nothing (R248). -/
theorem State.fetchRead_of_no_flaw (h : (s.tile n).flaws = []) : s.fetchRead n p = s := by
  simp only [State.fetchRead, State.eccRead, h, List.filter_nil, List.foldl_nil, ite_self]

theorem State.control_of_ready {opc : Nat} {check : Prog → Tile → Option (Nat × Nat)} {act : State → Prog → State} (hr : TileReady s n w p)
    (hopc : wOpc w = opc) (hc : check p (s.tile n) = none) : s.control n w opc check act = act (s.stepped n p) p := by
  obtain ⟨-, -, hissuing, hfetch, hflight, hflaws⟩ := hr
  simp only [State.control, hissuing, hfetch, hopc, hflight, hc, State.fetchRead_of_no_flaw hflaws, List.any_nil, ne_eq, not_true,
    Bool.false_eq_true, and_false, or_self, if_false]
  rfl

theorem State.tile_stepped (p : Prog) (hn : n < 128) : (s.stepped n p).tile n = { s.tile n with prog := some p.next } :=
  State.tile_updTile_same (fun t => { t with prog := some p.next }) hn

theorem State.stepped_frame (p : Prog) : ControlFrame n s (s.stepped n p) :=
  ⟨fun _ hm => State.tile_updTile_other (fun t => { t with prog := some p.next }) hm, rfl, rfl, rfl⟩

theorem State.tile_updTile_stepped (p : Prog) (f : Tile → Tile) (hn : n < 128) :
    ((s.stepped n p).updTile n f).tile n = f { s.tile n with prog := some p.next } := by
  rw [State.tile_updTile_same _ hn, State.tile_stepped p hn]

theorem State.updTile_stepped_frame (p : Prog) (f : Tile → Tile) : ControlFrame n s ((s.stepped n p).updTile n f) := by
  obtain ⟨hothers, hrest⟩ := s.stepped_frame (n := n) p
  exact ⟨fun m hm => (State.tile_updTile_other f hm).trans (hothers m hm), hrest⟩

/-- A program that may issue waits at no counter. -/
theorem State.cwait_of_issuing (h : s.issuing n = some p) : (s.tile n).cwait = none := by
  have hp := (Option.filter_eq_some_iff.mp h).2
  simp only [Bool.and_eq_true, Option.isNone_iff_eq_none] at hp
  obtain ⟨⟨⟨-, hcwait⟩, -⟩, -⟩ := hp
  exact hcwait

/-! ## NOP, END, BARRIER, LOOP -/

theorem opcGuard_of_true {ok : Bool} (h : ok = true) : opcGuard ok = none := if_pos h

theorem completes_nop (hr : TileReady s n w p) (hopc : wOpc w = 0) (hbits : onlyBits w 0 = true) :
    Completes (.nop n w) s fun t => t.tile n = { s.tile n with prog := some p.next } ∧ t.ctrs = s.ctrs ∧
      ControlFrame n s t :=
  ⟨_, congrArg Host.Outcome.next (State.control_of_ready hr hopc (opcGuard_of_true hbits)), State.tile_stepped p hr.lt, rfl,
    s.stepped_frame p⟩

theorem completes_endProgram (hr : TileReady s n w p) (hopc : wOpc w = 1) (hbits : onlyBits w 0 = true) :
    Completes (.endProgram n w) s fun t => t.tile n = { s.tile n with prog := some { p.next with ended := true } } ∧ t.ctrs = s.ctrs ∧
      ControlFrame n s t :=
  ⟨_, congrArg Host.Outcome.next (State.control_of_ready hr hopc (opcGuard_of_true hbits)), State.tile_updTile_stepped p _ hr.lt, rfl,
    s.updTile_stepped_frame p _⟩

theorem completes_barrier (hr : TileReady s n w p) (hopc : wOpc w = 2) (hbits : onlyBits w 0 = true) :
    Completes (.barrier n w) s fun t => t.tile n = { s.tile n with prog := some { p.next with barrier := true } } ∧ t.ctrs = s.ctrs ∧
      ControlFrame n s t :=
  ⟨_, congrArg Host.Outcome.next (State.control_of_ready hr hopc (opcGuard_of_true hbits)), State.tile_updTile_stepped p _ hr.lt, rfl,
    s.updTile_stepped_frame p _⟩

theorem completes_loop (hr : TileReady s n w p) (hopc : wOpc w = 3) (hbits : onlyBits w (bitsAt 55 32) = true) (hcount : 0 < bf w 47 32)
    (hbody : 0 < bf w 55 48) (hmax : bf w 55 48 ≤ 63) (hdepth : (advance p.loops p.pos).1.length < 2)
    (hend : ∀ i < bf w 55 48, p.pos + 32 * (i + 2) ≤ p.top → wOpc (wordAt (s.tile n) p (p.pos + 32 * (i + 1))) ≠ 1) :
    Completes (.loop n w) s fun t => ControlFrame n s t ∧
      (t.tile n).mem = (s.tile n).mem ∧ (t.tile n).prog = some { p.next with
        loops := { runs := bf w 47 32, body := bf w 55 48, pos := p.pos + 32 } :: (advance p.loops p.pos).1, pos := p.pos + 32 } := by
  have hbad : ¬(bf w 47 32 = 0 ∨ bf w 55 48 = 0 ∨ 63 < bf w 55 48 ∨ 2 ≤ (advance p.loops p.pos).1.length ∨
      ((List.range (bf w 55 48)).any fun i => decide (p.pos + 32 * (i + 2) ≤ p.top) &&
        wOpc (wordAt (s.tile n) p (p.pos + 32 * (i + 1))) == 1) = true) := by
    simp only [List.any_eq_true, List.mem_range, Bool.and_eq_true, decide_eq_true_eq, beq_iff_eq]
    rintro (h | h | h | h | ⟨i, hi, hle, hop⟩)
    · omega
    · omega
    · omega
    · omega
    · exact hend i hi hle hop
  refine ⟨_, congrArg Host.Outcome.next (State.control_of_ready hr hopc ((if_neg (by simp [hbits])).trans (if_neg hbad))),
    s.updTile_stepped_frame p _, ?_⟩
  rw [State.tile_updTile_stepped p _ hr.lt]
  exact ⟨rfl, rfl⟩

/-! ## ACQ, REL, FENCE (R302 to R304) -/

/-- An acquire, release or fence stands alone in flight, after nothing else was. -/
theorem State.pendOrder_stepped (hr : TileReady s n w p) :
    let t := (s.stepped n p).pendOrder n w
    ControlFrame n s t ∧
      (t.tile n).flight.map (fun f => (f.unit, f.word, f.id)) = [(0, w, (s.tile n).nextId)] ∧
      (t.tile n).prog = some p.next ∧ (t.tile n).mem = (s.tile n).mem ∧ t.drc = s.drc := by
  obtain ⟨-, hn, -, -, hflight, -⟩ := hr
  refine ⟨s.updTile_stepped_frame p _, ?_⟩
  rw [State.pendOrder, State.tile_updTile_stepped p _ hn, hflight]
  exact ⟨rfl, rfl, rfl, rfl⟩

theorem exec_acq_of_ready (hr : TileReady s n w p) (hopc : wOpc w = 8) (hbits : onlyBits w (bitsAt 33 32) = true) :
    exec (.acq n w) s = .next ((s.stepped n p).pendOrder n w) :=
  congrArg Host.Outcome.next (State.control_of_ready hr hopc (opcGuard_of_true hbits))

theorem exec_rel_of_ready (hr : TileReady s n w p) (hopc : wOpc w = 9) (hbits : onlyBits w (bitsAt 33 32) = true) :
    exec (.rel n w) s = .next ((s.stepped n p).pendOrder n w) :=
  congrArg Host.Outcome.next (State.control_of_ready hr hopc (opcGuard_of_true hbits))

theorem exec_fence_of_ready (hr : TileReady s n w p) (hopc : wOpc w = 0x0A) (hbits : onlyBits w (bitsAt 33 32) = true) :
    exec (.fence n w) s = .next ((s.stepped n p).pendOrder n w) :=
  congrArg Host.Outcome.next (State.control_of_ready hr hopc (opcGuard_of_true hbits))

/-! ## Counters (R304, R308, R310) -/

theorem State.tidy_ctrs (h : s.tidy = true) : nwf s.ctrs = true := by
  simp only [State.tidy, Bool.and_eq_true] at h
  obtain ⟨⟨-, hctrs⟩, -⟩ := h
  exact hctrs

theorem State.ctr_setCtr_same {t c f v : Nat} (hw : nwf s.ctrs = true) (hv : v < 2 ^ 64) : (s.setCtr t c f v).ctr t c f = v := by
  rw [State.ctr, State.setCtr, nget_nset_same _ _ hw, BitVec.toNat_ofNat, Nat.mod_eq_of_lt hv]

theorem State.ctr_setCtr_other {t c f u d g : Nat} (v : Nat) (hw : nwf s.ctrs = true) (h : ctrKey u d g ≠ ctrKey t c f) :
    (s.setCtr t c f v).ctr u d g = s.ctr u d g :=
  congrArg BitVec.toNat (nget_nset_other _ hw h)

theorem State.acquire_eq (s : State) (n tenant scope : Nat) : ∃ drc, s.acquire n tenant scope = { s with drc := drc } := by
  unfold State.acquire
  split
  · exact ⟨_, rfl⟩
  · exact ⟨s.drc, rfl⟩

theorem completes_cwait (hr : TileReady s n w p) (hopc : wOpc w = 0x0B) (hbits : onlyBits w (bitsAt 47 32 ||| bitsAt 127 64) = true)
    (hfield : bf w 47 46 ≠ 3) :
    Completes (.cwait n w) s fun t => ControlFrame n s t ∧
      t.ctrs = s.ctrs ∧ (t.tile n).prog = some p.next ∧
      (t.tile n).cwait = if bf w 127 64 ≤ s.ctr p.tenant (bf w 45 34) (bf w 47 46) then none
        else some (bf w 45 34, bf w 47 46, bf w 127 64, scopeOf w) := by
  have ⟨_, hn, hissuing, _⟩ := hr
  refine ⟨_, congrArg Host.Outcome.next (State.control_of_ready hr hopc (opcGuard_of_true (by simp [hbits, hfield]))), ?_⟩
  have hctr : (s.stepped n p).ctr p.tenant (bf w 45 34) (bf w 47 46) = s.ctr p.tenant (bf w 45 34) (bf w 47 46) := rfl
  beta_reduce
  rw [hctr]
  split
  · have htile := State.tile_stepped p hn (s := s)
    obtain ⟨drc, hacq⟩ := (s.stepped n p).acquire_eq n p.tenant (scopeOf w)
    rw [hacq]
    exact ⟨s.stepped_frame p, rfl, congrArg Tile.prog htile,
      (congrArg Tile.cwait htile).trans (State.cwait_of_issuing hissuing)⟩
  · rw [State.tile_updTile_stepped p _ hn]
    exact ⟨s.updTile_stepped_frame p _, rfl, rfl, rfl⟩

theorem completes_cset (hr : TileReady s n w p) (hopc : wOpc w = 0x0C) (hbits : onlyBits w (bitsAt 47 34 ||| bitsAt 127 64) = true)
    (hfield : bf w 47 46 ≠ 3) :
    Completes (.cset n w) s fun t => ControlFrame n s t ∧
      t.tile n = { s.tile n with prog := some p.next } ∧
      t.ctr p.tenant (bf w 45 34) (bf w 47 46) = bf w 127 64 ∧
      ∀ u c f, ctrKey u c f ≠ ctrKey p.tenant (bf w 45 34) (bf w 47 46) → t.ctr u c f = s.ctr u c f := by
  have ⟨htidy, hn, _, _, hflight, _⟩ := hr
  have hw : nwf (s.stepped n p).ctrs = true := State.tidy_ctrs (s := s) htidy
  have hv : bf w 127 64 < 2 ^ 64 := Nat.mod_lt _ (by decide)
  have hrel : (s.tile n).releasing = false := by simp [Tile.releasing, hflight]
  have hx : exec (.cset n w) s = .next ((s.stepped n p).setCtr p.tenant (bf w 45 34) (bf w 47 46) (bf w 127 64)) :=
    congrArg Host.Outcome.next ((if_neg (by simp [hrel])).trans (State.control_of_ready hr hopc (opcGuard_of_true (by simp [hbits, hfield]))))
  exact ⟨_, hx, s.stepped_frame p, State.tile_stepped p hn, State.ctr_setCtr_same hw hv,
    fun u c f hkey => State.ctr_setCtr_other _ hw hkey⟩

end

/-- Settles O21: a control instruction that issues moves its program on and counts itself, and each acts on that state alone. -/
theorem sequencerControlAndOrdering : Obligations.SequencerControlAndOrdering := by
  intro s n w p hr
  refine ⟨completes_nop hr, completes_endProgram hr, completes_barrier hr, completes_loop hr, fun hopc hbits => ?_, fun hopc hbits => ?_,
    fun hopc hbits => ?_, completes_cwait hr, completes_cset hr⟩
  · exact ⟨_, exec_acq_of_ready hr hopc hbits, State.pendOrder_stepped hr⟩
  · obtain ⟨hframe, hflight, hprog, hmem, -⟩ := State.pendOrder_stepped hr
    exact ⟨_, exec_rel_of_ready hr hopc hbits, hframe, hflight, hprog, hmem⟩
  · obtain ⟨hframe, hflight, hprog, hmem, -⟩ := State.pendOrder_stepped hr
    exact ⟨_, exec_fence_of_ready hr hopc hbits, hframe, hflight, hprog, hmem⟩

end Sys2Proof.Machine
end


section
/-!
PROOFS. Units at work: what a run of the matrix, vector or attention unit on a tile without errors leaves, beside what the instruction
does to the tile.
-/

namespace Sys2Proof.Machine

/-! ## The codes an instruction met, entered (R484) -/

/-- Tile `y` is tile `x` but for the range table and the codes that are still to be entered. -/
def SameResult (x y : Tile) : Prop := ∃ fl, y = { x with flight := fl, prog := x.prog.map fun p => { p with notes := [] } }

section
variable {n unit : Nat} {s : State} {sh : Share} {f : InFlight} {p : Prog} {x : Tile}

theorem SameResult.of_prog_none (h : x.prog = none) : SameResult x x := by
  refine ⟨x.flight, ?_⟩
  rw [h, Option.map_none, ← h]

theorem State.drainNotes_spec (id : Nat) (hn : n < 128) :
    OnTile n s (s.drainNotes n id) ∧ SameResult (s.tile n) ((s.drainNotes n id).tile n) := by
  unfold State.drainNotes
  split
  next hp => exact ⟨(KeepsTiles.refl s).onTile, .of_prog_none hp⟩
  next p _ =>
    extract_lets known new u
    have hu : KeepsTiles s u := .foldl (fun v c => v.raise_keepsTiles _ _ _) s
    clear_value u
    rw [← State.tile_congr hu.tiles n]
    exact ⟨hu.onTile.trans (u.updTile_onTile n _), _, State.tile_updTile_same _ hn⟩

/-- A run that has brought tile `n` to `x`, once its unit has marked the instruction and counted, and the codes are entered. -/
theorem State.drainNotes_of_run {id : Nat} {begun done : Bool} {v : State} (hn : n < 128)
    (hv : KeepsTiles (s.setTile n (x.markFlight id begun done)) v) :
    OnTile n s (v.drainNotes n id) ∧ SameResult x ((v.drainNotes n id).tile n) := by
  obtain ⟨hon, hres⟩ := v.drainNotes_spec id hn
  rw [State.tile_congr hv.tiles, State.tile_setTile_same _ hn] at hres
  exact ⟨((s.setTile_onTile n _).trans hv.onTile).trans hon, hres⟩

/-! ## A unit that runs (R94, R248) -/

/-- On a tile without errors an instruction's reads meet none. -/
theorem State.meetReads_of_no_flaw (h : (s.tile n).flaws = []) : s.meetReads n sh f = s := by
  simp [State.meetReads, h]

theorem runTile_matrix (t : Tile) (h : wOpc f.word = 0x10 ∨ wOpc f.word = 0x11) :
    (runTile t sh f).1 = (mmRun (wOpc f.word == 0x11) t (mmCursor t f)).1 := by
  rw [runTile, if_pos h]

/-- A compute unit's run does to the tile what the instruction does, and nothing elsewhere. -/
theorem State.runCompute_spec (hn : n < 128) (hflaws : (s.tile n).flaws = [])
    (hunit : f.unit = 1 → wOpc f.word = 0x10 ∨ wOpc f.word = 0x11) :
    OnTile n s (s.runCompute n sh f) ∧ SameResult (runTile (s.tile n) sh f).1 ((s.runCompute n sh f).tile n) := by
  simp only [State.runCompute, State.meetReads_of_no_flaw hflaws]
  split
  next h1 =>
    rw [runTile_matrix _ (hunit h1)]
    exact State.drainNotes_of_run hn (State.countLoads_keepsTiles _ _ _ _)
  next => exact State.drainNotes_of_run hn (.refl _)

/-- The oldest instruction of a compute unit goes on, where its tenant has the tile. -/
theorem State.runUnit_compute (hp : (s.tile n).prog = some p) (hf : (s.tile n).flight.find? (·.unit == unit) = some f)
    (hholds : s.holds p.tenant n = true) (hdone : f.done = false) (hunit : 1 ≤ unit ∧ unit ≤ 3) :
    s.runUnit n unit = s.runCompute n (s.share p.tenant) f := by
  have h0 : unit ≠ 0 := by omega
  have h4 : unit ≠ 4 := by omega
  have h5 : unit ≠ 5 := by omega
  simp only [State.runUnit, hp, hf, hholds, hdone, h0, h4, h5, Bool.not_true, Bool.false_eq_true, decide_false, Bool.or_self, if_false]

/-- A unit with nothing in flight stays as it is. -/
theorem State.runUnit_of_no_flight (h : (s.tile n).flight = []) : s.runUnit n unit = s := by
  simp only [State.runUnit, h, List.find?_nil]
  split
  next hnone => exact absurd hnone (by simp)
  next => rfl

end

end Sys2Proof.Machine
end


section
/-!
PROOFS. Launches, waits, completions, and words that cannot be fetched: O22.
-/

namespace Sys2Proof.Machine

section
variable {s : State} {n : Nat} {p : Prog} {f : InFlight}

/-! ## Launches and waits (R94, R159, R310) -/

theorem State.takeLane_eq (s : State) (n : Nat) : ∃ acc, s.takeLane n = { s with acc := acc } := by
  unfold State.takeLane
  split
  · exact ⟨_, rfl⟩
  · exact ⟨s.acc, rfl⟩

theorem completes_programLaunch (hn : n < 128) (hlaunch : (s.tile n).launch = some p) (hprog : (s.tile n).prog = none)
    (hholds : s.holds p.tenant n = true) :
    Completes (.programLaunch n) s fun t => t.tile n = { s.tile n with prog := some p, launch := none, ve := Ve.launch } ∧
      (∀ m, m ≠ n → t.tile m = s.tile m) ∧ t.regs = s.regs ∧ t.hbm = s.hbm := by
  have hx : exec (.programLaunch n) s =
      .next ((s.takeLane n).setTile n { s.tile n with prog := some p, launch := none, ve := Ve.launch }) := by
    show execProgramLaunch n s = _
    simp only [execProgramLaunch, hlaunch, hprog, hholds, Option.isSome_none, Bool.not_true, Bool.or_self, Bool.false_eq_true, if_false]
  obtain ⟨acc, hlane⟩ := s.takeLane_eq n
  rw [hlane] at hx
  exact ⟨_, hx, State.tile_setTile_same _ hn, fun m hm => State.tile_updTile_other _ hm, rfl, rfl⟩

theorem completes_cwaitSatisfied {c g v scope : Nat} (hn : n < 128) (hprog : (s.tile n).prog = some p)
    (hwait : (s.tile n).cwait = some (c, g, v, scope)) (hv : v ≤ s.ctr p.tenant c g) (hholds : s.holds p.tenant n = true) :
    Completes (.cwaitSatisfied n) s fun t => t.tile n = { s.tile n with cwait := none } ∧ (∀ m, m ≠ n → t.tile m = s.tile m) ∧
      t.ctrs = s.ctrs ∧ t.regs = s.regs := by
  have hx : exec (.cwaitSatisfied n) s =
      .next ((s.updTile n fun t => { t with cwait := none }).acquire n p.tenant scope) := by
    show execCwaitSatisfied n s = _
    simp only [execCwaitSatisfied, hwait, hprog, hv, hholds, and_self, if_true]
  obtain ⟨drc, hacq⟩ := (s.updTile n fun t => { t with cwait := none }).acquire_eq n p.tenant scope
  rw [hacq] at hx
  exact ⟨_, hx, State.tile_updTile_same (fun t => { t with cwait := none }) hn, fun m hm => State.tile_updTile_other _ hm, rfl, rfl⟩

/-! ## Completion of an instruction (R94, R303, R304) -/

/-- The tile once instruction `f` has left its range table; pages that an ATTN has read are its own no longer (R196). -/
def Tile.retired (x : Tile) (f : InFlight) : Tile :=
  { x with flight := x.flight.filter (·.id != f.id), heldPages := if f.unit = 3 then [] else x.heldPages }

theorem Tile.retired_of_only {x : Tile} (h : x.flight = [f]) :
    x.retired f = { x with flight := [], heldPages := if f.unit = 3 then [] else x.heldPages } := by
  simp [Tile.retired, h]

/-- The state once `f`, which is due, has left the range table of tile `n`, before its unit goes on. -/
def State.retired (s : State) (n : Nat) (p : Prog) (f : InFlight) : State :=
  let s := s.updTile n fun x => x.retired f
  if f.unit = 0 ∧ wOpc f.word ≠ 0x09 then s.acquire n p.tenant (scopeOf f.word) else s

theorem State.retired_eq (s : State) (n : Nat) (p : Prog) (f : InFlight) :
    ∃ drc, s.retired n p f = { s.updTile n fun x => x.retired f with drc := drc } := by
  unfold State.retired
  extract_lets u
  split
  · exact u.acquire_eq n p.tenant (scopeOf f.word)
  · exact ⟨u.drc, rfl⟩

/-- The only instruction in flight leaves the range table when it is due, and its unit has nothing more to do. -/
theorem exec_instructionComplete_only (hn : n < 128) (hprog : (s.tile n).prog = some p) (hflight : (s.tile n).flight = [f])
    (hdue : (if f.unit = 0 then s.orderDone n p f else f.done) = true) :
    exec (.instructionComplete n f.id) s = .next (s.retired n p f) ∧
      (s.retired n p f).tile n = { s.tile n with flight := [], heldPages := if f.unit = 3 then [] else (s.tile n).heldPages } ∧
      (∀ m, m ≠ n → (s.retired n p f).tile m = s.tile m) ∧ (s.retired n p f).regs = s.regs ∧ (s.retired n p f).hbm = s.hbm := by
  obtain ⟨drc, heq⟩ := s.retired_eq n p f
  have htile : (s.retired n p f).tile n =
      { s.tile n with flight := [], heldPages := if f.unit = 3 then [] else (s.tile n).heldPages } := by
    rw [heq]
    exact (State.tile_updTile_same (fun x => x.retired f) hn).trans (Tile.retired_of_only hflight)
  refine ⟨?_, htile, ?_⟩
  · refine Eq.trans ?_ (congrArg Host.Outcome.next (State.runUnit_of_no_flight (n := n) (unit := f.unit) (by rw [htile])))
    show execInstructionComplete n f.id s = _
    have hfind : (s.tile n).flight.find? (·.id == f.id) = some f := by simp [hflight]
    simp only [execInstructionComplete, hfind, hprog, hdue, Bool.not_true, Bool.false_eq_true, if_false]
    rfl
  · rw [heq]
    exact ⟨fun m hm => State.tile_updTile_other (fun x => x.retired f) hm, rfl, rfl⟩

theorem completes_instructionComplete_unit (hn : n < 128) (hprog : (s.tile n).prog = some p) (hflight : (s.tile n).flight = [f])
    (hunit : f.unit ≠ 0) (hdone : f.done = true) :
    Completes (.instructionComplete n f.id) s fun t =>
      t.tile n = { s.tile n with flight := [], heldPages := if f.unit = 3 then [] else (s.tile n).heldPages } ∧
      (∀ m, m ≠ n → t.tile m = s.tile m) ∧ t.regs = s.regs ∧ t.hbm = s.hbm := by
  obtain ⟨hx, hrest⟩ := exec_instructionComplete_only hn hprog hflight ((if_neg hunit).trans hdone)
  exact ⟨_, hx, hrest⟩

/-- The lines of the die's read cache after an acquire (R275, R303). -/
theorem State.acquire_drc (s : State) (n t scope : Nat) : (s.acquire n t scope).drc =
    if 2 ≤ scope then s.drc.filter fun l => !(l.tenant == t && l.die == n / 16) else s.drc := by
  unfold State.acquire
  split
  · refine congrArg (List.filter · s.drc) (funext fun l => ?_)
    simp [Bool.beq_comm (a := n / 16)]
  · rfl

/-- The only instruction in flight, of ordering, may complete, a release or fence at DOMAIN once nothing is unacknowledged. -/
theorem State.orderDone_of_only (hflight : (s.tile n).flight = [f]) (hholds : s.holds p.tenant n = true)
    (hacked : wOpc f.word ≠ 0x08 → scopeOf f.word = 3 → s.unacked n p.tenant p.by_ = false) : s.orderDone n p f = true := by
  have hwait : (wOpc f.word != 0x08 && scopeOf f.word == 3 && s.unacked n p.tenant p.by_) = false := by
    rw [Bool.and_eq_false_imp, Bool.and_eq_true]
    rintro ⟨hop, hscope⟩
    exact hacked (bne_iff_ne.mp hop) (beq_iff_eq.mp hscope)
  simp [State.orderDone, hflight, hholds, hwait]

theorem completes_instructionComplete_order (hn : n < 128) (hprog : (s.tile n).prog = some p) (hflight : (s.tile n).flight = [f])
    (hunit : f.unit = 0) (hholds : s.holds p.tenant n = true)
    (hacked : wOpc f.word ≠ 0x08 → scopeOf f.word = 3 → s.unacked n p.tenant p.by_ = false) :
    Completes (.instructionComplete n f.id) s fun t => t.tile n = { s.tile n with flight := [] } ∧ (∀ m, m ≠ n → t.tile m = s.tile m) ∧
      t.regs = s.regs ∧ t.hbm = s.hbm ∧ t.drc = (if wOpc f.word ≠ 0x09 ∧ 2 ≤ scopeOf f.word then
        s.drc.filter fun l => !(l.tenant == p.tenant && l.die == n / 16) else s.drc) := by
  have hdue := State.orderDone_of_only hflight hholds hacked
  obtain ⟨hx, htile, hothers, hregs, hhbm⟩ := exec_instructionComplete_only hn hprog hflight ((if_pos hunit).trans hdue)
  have h3 : f.unit ≠ 3 := by omega
  rw [if_neg h3] at htile
  refine ⟨_, hx, htile, hothers, hregs, hhbm, ?_⟩
  by_cases hrel : wOpc f.word = 0x09
  · simp [State.retired, hrel, State.updTile]
  · simp only [State.retired, hunit, hrel, ne_eq, not_false_eq_true, and_self, true_and, if_true, State.acquire_drc]
    rfl

/-! ## Completion of a program, and marks (R92, R259, R260) -/

theorem State.progEvent_tiles (s : State) (t tile : Nat) (ref : CmdRef) (flags : W32) : (s.progEvent t tile ref flags).tiles = s.tiles := by
  unfold State.progEvent
  exact ite_of_both (Q := fun u : State => u.tiles = s.tiles) rfl (State.event_tiles _ _ _ _ _ _ _)

theorem completes_programComplete (hn : n < 128) (hprog : (s.tile n).prog = some p) (hended : p.ended = true)
    (hflight : (s.tile n).flight = []) (hmarks : (s.tile n).marks = []) (hholds : s.holds p.tenant n = true)
    (hacked : s.unacked n p.tenant p.by_ = false) :
    Completes (.programComplete n) s fun t => (t.tile n).prog = none ∧ (t.tile n).mem = (s.tile n).mem ∧ (t.tile n).ve = (s.tile n).ve := by
  obtain ⟨t, hx, ht⟩ : ∃ t, exec (.programComplete n) s = .next t ∧ ChainsOnly (s.updTile n fun x => { x with prog := none }) t := by
    show ∃ t, execProgramComplete n s = .next t ∧ _
    simp only [execProgramComplete, hprog, hended, hflight, hmarks, hholds, hacked, List.isEmpty_nil, Bool.not_true, Bool.or_self,
      Bool.false_eq_true, if_false]
    refine ⟨_, rfl, ChainsOnly.trans (.of_tiles_eq ?_) (State.endWork_chainsOnly _ _ _)⟩
    exact (State.updCmd_tiles _ _ _ _).trans (State.progEvent_tiles _ _ _ _ _)
  refine ⟨t, hx, ?_⟩
  beta_reduce
  rw [ht n, State.tile_updTile_same _ hn]
  exact ⟨rfl, rfl, rfl⟩

theorem completes_slotMark {m : PendMark} (hn : n < 128) (hmarks : (s.tile n).marks = [m])
    (hdue : ((s.tile n).flight.any fun f => decide (f.id < m.after)) = false) :
    Completes (.slotMark n m.desc) s fun t => (t.tile n).marks = [] ∧ (t.tile n).mem = (s.tile n).mem ∧
      (t.tile n).regions = (s.tile n).regions.map fun r => if r.desc == m.desc then r.mark m.slot m.full else r := by
  refine ⟨_, rfl, ?_⟩
  beta_reduce
  rw [State.tile_updTile_same _ hn]
  simp [hmarks, hdue, Tile.updRegion]

theorem completes_slotMarkSeen (hn : n < 128) (hflaws : (s.tile n).flaws = []) (hprog : (s.tile n).prog = some p)
    (hf : (s.tile n).flight.find? (·.unit == 2) = some f) (hdone : f.done = false) (hholds : s.holds p.tenant n = true) :
    Completes (.slotMarkSeen n 2) s fun t =>
      (t.tile n).mem = (runTile (s.tile n) (s.share p.tenant) f).1.mem ∧ (t.tile n).ve = (runTile (s.tile n) (s.share p.tenant) f).1.ve ∧
      (∀ m, m ≠ n → t.tile m = s.tile m) := by
  have hunit : f.unit = 2 := by simpa using List.find?_some hf
  obtain ⟨hon, fl, hres⟩ := State.runCompute_spec (sh := s.share p.tenant) (f := f) hn hflaws fun h => by omega
  refine ⟨_, congrArg Host.Outcome.next (State.runUnit_compute hprog hf hholds hdone (by omega)), ?_, ?_, hon.others⟩
  · rw [hres]
  · rw [hres]

/-! ## Words that cannot be fetched (R90, R91) -/

theorem State.holds_of_issuing (h : s.issuing n = some p) : s.holds p.tenant n = true := by
  have hp := (Option.filter_eq_some_iff.mp h).2
  simp only [Bool.and_eq_true] at hp
  obtain ⟨⟨⟨⟨⟨-, hholds⟩, -⟩, -⟩, -⟩, -⟩ := hp
  exact hholds

theorem State.active_of_holds {t : Nat} (h : s.holds t n = true) : s.tState t = tsActive := by
  simp only [State.holds, Bool.and_eq_true] at h
  obtain ⟨⟨⟨hactive, -⟩, -⟩, -⟩ := h
  exact beq_iff_eq.mp hactive

/-- OPC and CTL_POISON freeze the tenant and enter its record (R484, R486). -/
theorem State.tileFault_freezes {code addr : Nat} (htidy : s.tidy = true) (hissuing : s.issuing n = some p) (ht : p.tenant < 16)
    (hcode : code = 0x40 ∨ code = 0x06) :
    (s.tileFault n p code addr).tState p.tenant = tsFrozen ∧ (s.tileFault n p code addr).tiles = s.tiles := by
  have hactive := State.active_of_holds (State.holds_of_issuing hissuing)
  obtain ⟨hc, hten, hcls⟩ : code < 256 ∧ (faultClass code).2.1 = true ∧
      ((faultClass code).1 = .violation ∨ (faultClass code).1 = .freeze) := by
    obtain rfl | rfl := hcode <;> decide
  obtain ⟨hfrozen, -, -, htiles⟩ := State.raise_freezes _ (State.tidy_regs htidy) ht hactive hc hten hcls
  exact ⟨hfrozen, htiles⟩

theorem completes_tileFetchFault (htidy : s.tidy = true) (hflaws : (s.tile n).flaws = []) (hissuing : s.issuing n = some p)
    (ht : p.tenant < 16) (hfetch : ∀ w, fetchAt (s.tile n) (s.share p.tenant) p ≠ .word w) :
    Completes (.tileFetchFault n) s fun t => t.tState p.tenant = tsFrozen ∧ t.tiles = s.tiles := by
  cases hat : fetchAt (s.tile n) (s.share p.tenant) p with
  | word w => exact absurd hat (hfetch w)
  | outside a =>
    refine ⟨_, ?_, State.tileFault_freezes (addr := a) htidy hissuing ht (.inl rfl)⟩
    show execTileFetchFault n s = _
    simp only [execTileFetchFault, hissuing, hat]
  | poisoned =>
    refine ⟨_, ?_, State.tileFault_freezes (addr := p.pos) htidy hissuing ht (.inr rfl)⟩
    show execTileFetchFault n s = _
    simp only [execTileFetchFault, hissuing, hat, State.fetchRead_of_no_flaw hflaws]

theorem completes_invalidOpcode {w : BitVec 256} (htidy : s.tidy = true) (hissuing : s.issuing n = some p) (ht : p.tenant < 16)
    (hfetch : fetchAt (s.tile n) (s.share p.tenant) p = .word w) (hop : assigned (wOpc w) = false) :
    Completes (.invalidOpcode n w) s fun t => t.tState p.tenant = tsFrozen ∧ t.tiles = s.tiles := by
  refine ⟨_, ?_, State.tileFault_freezes (addr := p.pos) htidy hissuing ht (.inl rfl)⟩
  show execInvalidOpcode n w s = _
  simp only [execInvalidOpcode, hissuing, hfetch, hop, Bool.not_false, and_self, if_true]

end

/-- Settles O22: each command acts on its own tile as its condition on the state says, the end of a command's work touches no more of
a tile than its chains, and a fault of the tile freezes its tenant. -/
theorem programLaunchWaitsAndCompletion : Obligations.ProgramLaunchWaitsAndCompletion := by
  intro s n htidy hn x hflaws
  exact ⟨fun p hlaunch hprog hholds => completes_programLaunch hn hlaunch hprog hholds,
    fun p c f v scope hprog hwait hv hholds => completes_cwaitSatisfied hn hprog hwait hv hholds,
    fun p f hprog hflight hunit hdone => completes_instructionComplete_unit hn hprog hflight hunit hdone,
    fun p f hprog hflight hunit hholds hacked => completes_instructionComplete_order hn hprog hflight hunit hholds hacked,
    fun p hprog hended hflight hmarks hholds hacked => completes_programComplete hn hprog hended hflight hmarks hholds hacked,
    fun m hmarks hdue => completes_slotMark hn hmarks hdue,
    fun p f hprog hf hdone hholds => completes_slotMarkSeen hn hflaws hprog hf hdone hholds,
    fun p hissuing ht hfetch => completes_tileFetchFault htidy hflaws hissuing ht hfetch,
    fun p w hissuing ht hfetch hop => completes_invalidOpcode htidy hissuing ht hfetch hop⟩

end Sys2Proof.Machine
end


section
/-!
PROOFS. Instructions that a compute unit takes: issue on a tile with nothing in flight, and what the unit's run leaves.
-/

namespace Sys2Proof.Machine

/-! ## Slots and ranges at issue (R94, R258) -/

section
variable (x : Tile) (w : BitVec 256)

/-- Tile `y` is tile `x` but for its region table. -/
def RegionsOnly (x y : Tile) : Prop := y = { x with regions := y.regions }

theorem RegionsOnly.trans {x y z : Tile} (h : RegionsOnly x y) (g : RegionsOnly y z) : RegionsOnly x z := by
  unfold RegionsOnly at *
  rw [g, h]

theorem claimSide_regionsOnly (side : RowSide) (m : Nat) (cons : Bool) : RegionsOnly x (claimSide x side m cons).1 := by
  unfold claimSide
  split
  · split <;> rfl
  · rfl

theorem claimSides_regionsOnly (i o : RowSide) (m : Nat) :
    RegionsOnly x (claimSide (claimSide x i m true).1 o m false).1 :=
  (claimSide_regionsOnly x i m true).trans (claimSide_regionsOnly _ o m false)

theorem RegionsOnly.ite {x : Tile} {c : Prop} [Decidable c] {a b : Tile × Nat × Nat} (ha : RegionsOnly x a.1) (hb : RegionsOnly x b.1) :
    RegionsOnly x (if c then a else b).1 := by
  split <;> assumption

/-- To take its slots an instruction changes the region table alone. -/
theorem claimOf_regionsOnly : RegionsOnly x (claimOf x w).1 := by
  have hslot (cons : Bool) (k : Nat) : RegionsOnly x (match x.region (vOff w) with
      | some r => (x.updRegion (vOff w) fun r => r.claim cons k, r.claimed cons, 0)
      | none => (x, 0, 0)).1 := by
    cases x.region (vOff w) <;> rfl
  unfold claimOf
  extract_lets two o
  have htwo (i o : RowSide) (m : Nat) : RegionsOnly x (two x i o m).1 := claimSides_regionsOnly x i o m
  refine .ite (htwo _ _ _) (.ite (.ite (hslot _ _) rfl) (.ite (.ite (htwo _ _ _) rfl) (.ite (htwo _ _ _) (.ite (htwo _ _ _)
    (.ite (htwo _ _ _) (.ite (hslot _ _) (.ite (htwo _ _ _) rfl)))))))

theorem claimOf_flight : (claimOf x w).1.flight = x.flight := by
  have h := claimOf_regionsOnly x w
  rw [RegionsOnly] at h
  rw [h]

theorem length_ite_le {α : Type} {c : Prop} [Decidable c] {l m : List α} {k : Nat} (hl : l.length ≤ k) (hm : m.length ≤ k) :
    (if c then l else m).length ≤ k := by
  split <;> assumption

theorem length_if_some {α : Type} {c : Prop} [Decidable c] {a : α} : (if c then [a] else []).length ≤ 1 :=
  length_ite_le (le_refl 1) (Nat.zero_le 1)

theorem length_if_none {α : Type} {c : Prop} [Decidable c] {a : α} : (if c then [] else [a]).length ≤ 1 :=
  length_ite_le (Nat.zero_le 1) (le_refl 1)

theorem length_append_le {α : Type} {l m : List α} {i j : Nat} (hl : l.length ≤ i) (hm : m.length ≤ j) : (l ++ m).length ≤ i + j :=
  (List.length_append ..).trans_le (Nat.add_le_add hl hm)

/-- No instruction has more ranges than the range table has entries. -/
theorem length_rangesOf : (rangesOf w).length ≤ 5 := by
  have hmm : (mmRanges w).length ≤ 4 :=
    length_append_le (length_append_le (length_append_le (le_refl 1) length_if_some) length_if_none) length_if_none
  have hmem (store : Bool) : (vmemRanges w store).length ≤ 1 := length_if_none
  have hstat : (statRanges w).length ≤ 2 := length_append_le (le_refl 1) (length_ite_le length_if_none length_if_some)
  have hqc : (qcRanges w).length ≤ 5 :=
    length_append_le (length_append_le (length_append_le (length_append_le length_if_none length_if_none) length_if_some) length_if_none)
      length_if_some
  unfold rangesOf
  extract_lets o a b c d
  refine length_ite_le (hmm.trans (by decide)) (length_ite_le ((hmem _).trans (by decide)) (length_ite_le (hstat.trans (by decide))
    (length_ite_le hqc (length_ite_le ?_ (length_ite_le (by simp) (length_ite_le ?_ (length_ite_le (by simp) (length_ite_le ?_
      (length_ite_le (by simp) (length_ite_le (by simp) (length_ite_le (by simp) (length_ite_le ?_ (by simp)))))))))))))
  · exact (length_append_le length_if_none (le_refl 2)).trans (by decide)
  · exact (length_append_le (length_append_le length_if_none length_if_none) (le_refl 1)).trans (by decide)
  · exact (length_append_le length_if_none length_if_none).trans (by decide)
  · exact (length_append_le length_if_none length_if_none).trans (by decide)

end

/-! ## Issue (R94) -/

/-- The state once word `w` has issued to a compute unit of tile `n`, before the unit begins: the instruction is counted. -/
def State.placed (s : State) (n : Nat) (p : Prog) (w : BitVec 256) (unit : Nat) : State :=
  ((s.setTile n (issuedTile (s.tile n) p w unit)).addQuad (0xA01008 + 0x20 * n) 1).addQuad (0xA02040 + 0x100 * p.tenant) 1

section
variable {s : State} {n unit opc : Nat} {w : BitVec 256} {p : Prog}

theorem interlocksOk_of_ready (hflight : (s.tile n).flight = []) :
    interlocksOk (s.tile n) w unit (entered (s.tile n) p.tenant w) = true := by
  have hlen : (entered (s.tile n) p.tenant w).length ≤ 32 :=
    (List.length_filter_le _ _).trans ((length_rangesOf w).trans (by decide))
  simp [interlocksOk, Tile.releasing, hflight, hlen]

theorem issuedTile_eq (x : Tile) (hflight : x.flight = []) : ∃ rs, issuedTile x p w unit =
    { x with regions := rs, nextId := x.nextId + 1, flight := [issuedFlight x w unit p.tenant], prog := some p.next } := by
  refine ⟨(claimOf x w).1.regions, ?_⟩
  have h := claimOf_regionsOnly x w
  rw [RegionsOnly] at h
  simp only [issuedTile, hflight, List.nil_append]
  rw [h]

theorem State.placed_onTile : OnTile n s (s.placed n p w unit) :=
  (s.setTile_onTile n _).trans (KeepsTiles.onTile ⟨rfl, rfl, rfl, rfl, rfl⟩)

theorem State.tile_placed (hn : n < 128) : (s.placed n p w unit).tile n = issuedTile (s.tile n) p w unit := State.tile_setTile_same _ hn

/-- Whether a tenant's work runs on a tile is read from its state, the recovery, the tiles that are stopped and the owners. -/
theorem State.holds_congr {t : State} {P : Nat → Prop} {c : Nat} (h : WordsOnly P s t) (hw : nwf s.regs = true) (hstate : ¬P (tnt c 0))
    (hstep : ¬P 0x700000) (hrecov : t.recov = s.recov) (hacc : t.acc = s.acc) (hsched : t.sched = s.sched) :
    t.holds c n = s.holds c n := by
  simp only [State.holds, State.active, State.tState, State.recAllows, h.fld_eq hw hstate, h.fld_eq hw hstep, hrecov, hacc, hsched]

/-- The counters of issue stand apart from the registers that say whether a tenant's work runs. -/
theorem State.holds_placed (c : Nat) (hw : nwf s.regs = true) : (s.placed n p w unit).holds c n = s.holds c n := by
  let u := s.setTile n (issuedTile (s.tile n) p w unit)
  have h1 : WordsOnly (fun a => a % 256 ≠ 0) u (u.addQuad (0xA01008 + 0x20 * n) 1) := u.addQuad_words 1 (by omega) (by omega)
  have h2 := State.addQuad_words (P := fun a => a % 256 ≠ 0) (u.addQuad (0xA01008 + 0x20 * n) 1) (off := 0xA02040 + 0x100 * p.tenant) 1
    (by omega) (by omega)
  exact State.holds_congr (s := u) (h1.trans h2) hw (by simp only [tnt]; omega) (by decide) rfl rfl rfl

theorem State.issue_of_ready {check : State → Prog → Tile → Share → Option (Nat × Nat)} (hr : TileReady s n w p) (hopc : wOpc w = opc)
    (hslot : opc ≠ 0x73) (hunit : 1 ≤ unit ∧ unit ≤ 3) (hc : check s p (s.tile n) (s.share p.tenant) = none) :
    s.issue n w opc unit check =
      (s.placed n p w unit).runCompute n (s.share p.tenant) (issuedFlight (s.tile n) w unit p.tenant) := by
  obtain ⟨htidy, hn, hissuing, hfetch, hflight, hflaws⟩ := hr
  obtain ⟨rs, heq⟩ := issuedTile_eq (p := p) (w := w) (unit := unit) (s.tile n) hflight
  have htile : (s.placed n p w unit).tile n = _ := (State.tile_placed hn).trans heq
  have hrun : (s.placed n p w unit).runUnit n unit =
      (s.placed n p w unit).runCompute n (s.share p.tenant) (issuedFlight (s.tile n) w unit p.tenant) := by
    have hholds := (State.holds_placed (n := n) (p := p) (w := w) (unit := unit) p.tenant (State.tidy_regs htidy)).trans
      (State.holds_of_issuing hissuing)
    exact State.runUnit_compute (p := p.next) (by rw [htile]) (by rw [htile]; simp [issuedFlight]) hholds rfl hunit
  have hclaimed : (claimOf (s.tile n) w).1.flight = (s.tile n).flight := claimOf_flight _ w
  rw [← hrun]
  simp only [State.issue, hissuing, hfetch, hopc, interlocksOk_of_ready hflight, hc, State.fetchRead_of_no_flaw hflaws, hslot, ne_eq,
    not_true, Bool.not_true, Bool.false_eq_true, or_self, if_false, hclaimed]
  exact if_pos (.inr (by simp [hflight]))

/-- An instruction of the matrix, vector or attention unit that issues leaves on its tile what its unit's run makes of the tile that has
taken it, and elsewhere nothing. -/
theorem State.issue_spec {check : State → Prog → Tile → Share → Option (Nat × Nat)} (hr : TileReady s n w p) (hopc : wOpc w = opc)
    (hslot : opc ≠ 0x73) (hunit : 1 ≤ unit ∧ unit ≤ 3) (hmatrix : unit = 1 → wOpc w = 0x10 ∨ wOpc w = 0x11)
    (hc : check s p (s.tile n) (s.share p.tenant) = none) :
    OnTile n s (s.issue n w opc unit check) ∧
      SameResult (runTile (issuedTile (s.tile n) p w unit) (s.share p.tenant) (issuedFlight (s.tile n) w unit p.tenant)).1
        ((s.issue n w opc unit check).tile n) := by
  have ⟨_, hn, _, _, hflight, hflaws⟩ := hr
  have hflaws' : ((s.placed n p w unit).tile n).flaws = [] := by
    obtain ⟨rs, heq⟩ := issuedTile_eq (p := p) (w := w) (unit := unit) (s.tile n) hflight
    rw [State.tile_placed hn, heq]
    exact hflaws
  obtain ⟨hon, hres⟩ := State.runCompute_spec (sh := s.share p.tenant) (f := issuedFlight (s.tile n) w unit p.tenant) hn hflaws' hmatrix
  rw [State.tile_placed hn] at hres
  rw [State.issue_of_ready hr hopc hslot hunit hc]
  exact ⟨State.placed_onTile.trans hon, hres⟩

end

end Sys2Proof.Machine
end


section
/-!
PROOFS. Instructions of the matrix, vector and attention units: O19.
-/

namespace Sys2Proof.Machine

/-- Opcode `opc` is one of those that compute unit `unit` takes, and no SLOT_WAIT. -/
abbrev TakenBy (opc unit : Nat) : Prop := opc ≠ 0x73 ∧ (1 ≤ unit ∧ unit ≤ 3) ∧ (unit = 1 → opc = 0x10 ∨ opc = 0x11)

/-- What a unit's instruction `w` of program `p` on tile `n` leaves from `s` to `t`: the tile as the run of `unit` makes it, the other
tiles and the counters as they were. -/
def RanInUnit (s : State) (n : Nat) (w : BitVec 256) (p : Prog) (unit : Nat) (t : State) : Prop :=
  let r := (runTile (issuedTile (s.tile n) p w unit) (s.share p.tenant) (issuedFlight (s.tile n) w unit p.tenant)).1
  (t.tile n).mem = r.mem ∧ (t.tile n).poison = r.poison ∧ (t.tile n).ve = r.ve ∧ (t.tile n).regions = r.regions ∧
  (t.tile n).held = r.held ∧ (t.tile n).mx = r.mx ∧ (t.tile n).vu = r.vu ∧ (t.tile n).at_ = r.at_ ∧ (t.tile n).acc = r.acc ∧
  ((t.tile n).prog.map (·.pos)) = r.prog.map (·.pos) ∧ (∀ m, m ≠ n → t.tile m = s.tile m) ∧ t.ctrs = s.ctrs

section
variable {s : State} {n unit opc : Nat} {w : BitVec 256} {p : Prog}

theorem State.issue_ranInUnit {check : State → Prog → Tile → Share → Option (Nat × Nat)} (hr : TileReady s n w p)
    (htaken : TakenBy opc unit) (hopc : wOpc w = opc) (hc : check s p (s.tile n) (s.share p.tenant) = none) :
    RanInUnit s n w p unit (s.issue n w opc unit check) := by
  obtain ⟨hslot, hunit, hmatrix⟩ := htaken
  obtain ⟨hon, fl, hres⟩ := State.issue_spec hr hopc hslot hunit (fun h => hopc ▸ hmatrix h) hc
  unfold RanInUnit
  rw [hres]
  refine ⟨rfl, rfl, rfl, rfl, rfl, rfl, rfl, rfl, rfl, ?_, hon.others, hon.ctrs⟩
  simp only [Option.map_map]
  rfl

/-- An instruction whose command is to issue to a compute unit, with a check that finds `k` here. -/
theorem completes_issue {c : Instr} {check : State → Prog → Tile → Share → Option (Nat × Nat)} {k : Option (Nat × Nat)}
    (hr : TileReady s n w p) (hx : exec c s = .next (s.issue n w opc unit check)) (hk : check s p (s.tile n) (s.share p.tenant) = k)
    (htaken : TakenBy opc unit) (hopc : wOpc w = opc) (hc : k = none) : Completes c s (RanInUnit s n w p unit) :=
  ⟨_, hx, State.issue_ranInUnit hr htaken hopc (hk.trans hc)⟩

/-- A QSTAT of the mode that its word names issues to the vector unit. -/
theorem completes_issueStat {c : Instr} {mode : Nat} (hr : TileReady s n w p) (hx : exec c s = .next (s.issueStat n w mode))
    (hmode : (statArgs w).mode = mode) (hopc : wOpc w = 0x50) (hc : statCheck (s.tile n) p.tenant (s.share p.tenant) w = none) :
    Completes c s (RanInUnit s n w p 2) :=
  completes_issue hr (hx.trans (congrArg Host.Outcome.next (if_neg (not_not_intro hmode)))) rfl (by decide) hopc hc

/-- A QCONV whose record is not poisoned has its own checks alone (R486). -/
theorem completes_qconv (hr : TileReady s n w p)
    (hpoison : ((qcArgs w).useRec && inShare (s.share p.tenant) (qcArgs w).aux (recBytes (qcArgs w).c) &&
      (s.tile n).readBad (qcArgs w).aux (recBytes (qcArgs w).c)) = false)
    (hopc : wOpc w = 0x51) (hc : qcCheck (s.tile n) p.tenant (s.share p.tenant) w = none) :
    Completes (.qconv n w) s (RanInUnit s n w p 2) :=
  completes_issue hr rfl (if_neg (Bool.eq_false_iff.mp hpoison)) (by decide) hopc hc

end

/-- Settles O19: each of these instructions issues to its unit with its own checks, and the unit's first run is that of the tile that
has taken the instruction. -/
theorem unitInstructionsRunInTheirUnits : Obligations.UnitInstructionsRunInTheirUnits := by
  intro s n w p hr
  exact ⟨completes_issue hr rfl rfl (by decide), completes_issue hr rfl rfl (by decide),
    completes_issue hr rfl rfl (by decide), completes_issue hr rfl rfl (by decide),
    completes_issueStat hr rfl, completes_issueStat hr rfl, completes_issueStat hr rfl, completes_issueStat hr rfl,
    completes_qconv hr,
    completes_issue hr rfl rfl (by decide), completes_issue hr rfl rfl (by decide),
    completes_issue hr rfl rfl (by decide), completes_issue hr rfl rfl (by decide)⟩

end Sys2Proof.Machine
end


section
/-!
PROOFS. Register instructions of the vector engine: O17.
-/

namespace Sys2Proof.Machine

/-- The register instructions lie between VLD, VST and the stream instructions (R163). -/
theorem vecOpOf_range {o : Nat} {v : VecOp} (h : vecOpOf o = some v) : 0x22 ≤ o ∧ o ≤ 0x4C := by
  unfold vecOpOf at h
  split at h <;> simp at h ⊢

/-- A register instruction takes no slots. -/
theorem claimOf_of_vecOp (x : Tile) {w : BitVec 256} {v : VecOp} (h : vecOpOf (wOpc w) = some v) : claimOf x w = (x, 0, 0) := by
  obtain ⟨hlo, hhi⟩ := vecOpOf_range h
  unfold claimOf
  extract_lets two o
  have ho : o = wOpc w := rfl
  clear_value o
  simp only [show ¬(o = 0x10 ∨ o = 0x11) by omega, show ¬(o = 0x20 ∨ o = 0x21) by omega, show ¬o = 0x50 by omega, show ¬o = 0x51 by omega,
    show ¬o = 0x52 by omega, show ¬o = 0x60 by omega, show ¬(o = 0x73 ∨ o = 0x74) by omega,
    show ¬(0x78 ≤ o ∧ o ≤ 0x7B ∧ o ≠ 0x7A) by omega, if_false]

/-- The tile after a register instruction with the result `r`: the engine with its flags or-ed in, its counts and its code noted. -/
def Tile.afterVec (x : Tile) (r : Ve × Acc) : Tile :=
  ((({ x with ve := r.1 } : Tile).orFlags r.2.flags).count r.2.sat r.2.flush r.2.nan).noteErr 0x56 r.2.poison

theorem Tile.afterVec_eq {x : Tile} {p : Prog} (r : Ve × Acc) (hp : x.prog = some p) :
    ∃ q, x.afterVec r = { x with ve := { r.1 with sticky := r.1.sticky ||| r.2.flags }, prog := some q } ∧ q.pos = p.pos := by
  simp only [Tile.afterVec, Tile.noteErr, Tile.count, Tile.orFlags, hp, Option.map_some]
  split <;> exact ⟨_, rfl, rfl⟩

/-- A register instruction runs on the engine, under its program's seed and step counter. -/
theorem runTile_of_vecOp {x : Tile} {sh : Share} {f : InFlight} {p : Prog} {v : VecOp} (h : vecOpOf (wOpc f.word) = some v)
    (hp : x.prog = some p) : (runTile x sh f).1 = x.afterVec (v.run x.ve p.seed p.step f.word) := by
  obtain ⟨hlo, hhi⟩ := vecOpOf_range h
  generalize ho : wOpc f.word = o at h hlo hhi
  simp only [runTile, ho, h, hp, show ¬(o = 0x10 ∨ o = 0x11) by omega, show ¬o = 0x20 by omega, show ¬o = 0x21 by omega,
    show ¬o = 0x50 by omega, show ¬o = 0x51 by omega, show ¬o = 0x52 by omega, show ¬o = 0x53 by omega, show ¬o = 0x60 by omega,
    show ¬o = 0x61 by omega, if_false, Tile.afterVec]

/-- Each row's command issues its opcode's own operation. -/
theorem exec_vectorRow : ∀ row ∈ vectorRows, vecOpOf row.2.1 = some row.2.2 ∧
    ∀ (s : State) (n : Nat) (w : BitVec 256), exec (row.1 n w) s = .next (s.issueVec n w row.2.1 row.2.2) := by
  unfold vectorRows
  simp only [List.forall_mem_append, List.forall_mem_cons, List.not_mem_nil, false_implies, implies_true, and_true]
  repeat' apply And.intro
  all_goals intros; rfl

/-- The tile that has taken a register instruction: no slots are claimed. -/
theorem issuedTile_of_vecOp {x : Tile} {p : Prog} {w : BitVec 256} {v : VecOp} (h : vecOpOf (wOpc w) = some v) (hflight : x.flight = []) :
    issuedTile x p w 2 = { x with nextId := x.nextId + 1, flight := [issuedFlight x w 2 p.tenant], prog := some p.next } := by
  simp only [issuedTile, claimOf_of_vecOp _ h, hflight, List.nil_append]

/-- What the vector unit makes of a tile with a register instruction that has just issued. -/
theorem runTile_issued_of_vecOp {x : Tile} {sh : Share} {p : Prog} {w : BitVec 256} {v : VecOp} (h : vecOpOf (wOpc w) = some v)
    (hflight : x.flight = []) :
    let r := v.run x.ve p.seed p.step w
    ∃ q, (runTile (issuedTile x p w 2) sh (issuedFlight x w 2 p.tenant)).1 = { x with
      nextId := x.nextId + 1, flight := [issuedFlight x w 2 p.tenant], ve := { r.1 with sticky := r.1.sticky ||| r.2.flags },
      prog := some q } ∧ q.pos = p.next.pos := by
  rw [issuedTile_of_vecOp h hflight, runTile_of_vecOp (f := issuedFlight x w 2 p.tenant) h rfl]
  exact Tile.afterVec_eq _ rfl

/-- Settles O17: a register instruction takes no slots, and its run changes the engine and its program's counts alone. -/
theorem vectorRegisterInstructionsComplete : Obligations.VectorRegisterInstructionsComplete := by
  intro row hrow s n w p hr hopc hcheck
  obtain ⟨hvec, hexec⟩ := exec_vectorRow row hrow
  have ⟨_, _, _, _, hflight, _⟩ := hr
  have hv : vecOpOf (wOpc w) = some row.2.2 := hopc ▸ hvec
  obtain ⟨hlo, hhi⟩ := vecOpOf_range hvec
  obtain ⟨hon, fl, hres⟩ := State.issue_spec (unit := 2) (check := fun _ _ _ _ => (row.2.2.check w).map (·, 0)) hr hopc (by omega)
    (by decide) (fun h => absurd h (by decide)) (by rw [hcheck]; rfl)
  obtain ⟨q, hrun, hpos⟩ := runTile_issued_of_vecOp (sh := s.share p.tenant) (p := p) hv hflight
  rw [hrun] at hres
  have htile : (s.issueVec n w row.2.1 row.2.2).tile n = _ := hres
  refine ⟨_, hexec s n w, ?_⟩
  beta_reduce
  rw [htile]
  exact ⟨rfl, rfl, rfl, rfl, congrArg some hpos, rfl, hon.others, hon.ctrs, hon.lrd, hon.flash, hon.fuses⟩

end Sys2Proof.Machine
end


section
/-!
PROOFS. The elements of a vector register, and what an operation on elements leaves of its destination (R156, R158).
-/

namespace Sys2Proof.Machine

/-! ## Elements of a register (R156) -/

theorem elemOf_lt (b : Nat) (r : BitVec 8192) (e : Nat) : elemOf b r e < 2 ^ b := Nat.mod_lt _ (Nat.two_pow_pos b)

/-- Of elements packed in order, element 0 lowest, the `e`-th stands `e` widths up. -/
theorem shiftRight_packed (b : Nat) (es : List Nat) (e : Nat) :
    es.foldr (fun x acc => x % 2 ^ b + acc * 2 ^ b) 0 >>> (b * e) % 2 ^ b = es.getD e 0 % 2 ^ b := by
  induction es generalizing e with
  | nil => simp
  | cons x es ih =>
    cases e with
    | zero => simp
    | succ e =>
      rw [List.foldr_cons, Nat.mul_succ, Nat.add_comm (b * e), Nat.shiftRight_add, Nat.shiftRight_eq_div_pow _ b,
        Nat.add_mul_div_right _ _ (Nat.two_pow_pos b), Nat.div_eq_of_lt (Nat.mod_lt _ (Nat.two_pow_pos b)), Nat.zero_add, ih,
        List.getD_cons_succ]

theorem elemOf_regOf {b e : Nat} (es : List Nat) (he : b * e + b ≤ 8192) : elemOf b (regOf b es) e = es.getD e 0 % 2 ^ b := by
  rw [← shiftRight_packed, elemOf, regOf, BitVec.toNat_ofNat]
  refine Nat.eq_of_testBit_eq fun i => ?_
  simp only [Nat.testBit_mod_two_pow, Nat.testBit_shiftRight]
  by_cases hi : i < b
  · simp [show b * e + i < 8192 by omega]
  · simp [hi]

theorem elem_fits {b e : Nat} (he : e < 8192 / b) : b * e + b ≤ 8192 :=
  (Nat.mul_le_mul_left b he).trans (Nat.mul_div_le 8192 b)

/-- Slots from element 0 on: where one has no code the element stays. -/
theorem elemOf_writeSlots {b e : Nat} (old : BitVec 8192) (oldP : BitVec 64) {ss : List Slot} (hs : e < ss.length) (he : e < 8192 / b) :
    elemOf b (writeSlots b 0 old oldP ss).1 e = ss[e].code.getD (elemOf b old e) % 2 ^ b := by
  refine (elemOf_regOf _ (elem_fits he)).trans ?_
  simp [regElems, hs, he]

theorem Ve.setReg_reg_same (s : Ve) {i : Nat} (hi : i < 32) (r : BitVec 8192) (p : BitVec 64) : (s.setReg i r p).reg i = r := by
  simp [Ve.setReg, Ve.reg, hi]

theorem Ve.setReg_reg_other (s : Ve) {i j : Nat} (r : BitVec 8192) (p : BitVec 64) (hne : j ≠ i) : (s.setReg i r p).reg j = s.reg j := by
  simp [Ve.setReg, Ve.reg, Vector.getElem?_setIfInBounds_ne hne.symm]

@[simp] theorem Ve.reg_sticky (s : Ve) (k : W32) (i : Nat) : ({ s with sticky := k } : Ve).reg i = s.reg i := rfl

theorem vVD_lt (w : BitVec 256) : vVD w < 32 := Nat.mod_lt _ (by decide)

/-! ## Operations on elements (R158) -/

/-- A fold that puts one entry per element before its list gathers them in reverse. -/
theorem foldl_fst_cons {α β γ : Type} {step : List β × γ → α → List β × γ} {g : α → β}
    (h : ∀ acc x, (step acc x).1 = g x :: acc.1) (l : List α) (acc : List β × γ) : (l.foldl step acc).1 = (l.map g).reverse ++ acc.1 := by
  induction l generalizing acc with
  | nil => rfl
  | cons x l ih => simp [ih, h]

section
variable (s : Ve) (w : BitVec 256) (b : Nat) (srcs : List Nat) (f : List Nat → Elem)

/-- What an operation on elements writes at element `e` of its destination. -/
def elemSlot (e : Nat) : Slot :=
  let masked := (s.maskPois (vKM w)).getLsbD e
  if (s.mask (vKM w)).getLsbD e then
    ⟨some (f (srcs.map fun r => elemOf b (s.reg r) e)).code, masked || srcs.any fun r => (s.pois r).getLsbD (laneOf b e)⟩
  else ⟨if vZM w then some 0 else none, masked⟩

/-- The destination of an operation on elements is written from those slots. -/
theorem mapElems_reg : (mapElems s w b srcs f).1.reg (vVD w) =
    (writeSlots b 0 (s.reg (vVD w)) (s.pois (vVD w)) ((List.range (8192 / b)).map (elemSlot s w b srcs f))).1 := by
  unfold mapElems
  extract_lets km kp rs step
  have hstep (acc : List Slot × Acc) (e : Nat) : (step acc e).1 = elemSlot s w b srcs f e :: acc.1 := by
    simp only [step, elemSlot, km, kp, rs]
    split <;> simp [Function.comp_def]
  have hslots := foldl_fst_cons hstep (List.range (8192 / b)) ([], Acc.zero)
  rw [List.append_nil] at hslots
  dsimp only
  rw [Ve.setReg_reg_same _ (vVD_lt w), hslots, List.reverse_reverse]

/-- An element under the mask holds the operation's code; another is cleared under ZM and else stays. -/
theorem elemOf_mapElems {e : Nat} (he : e < 8192 / b) :
    elemOf b ((mapElems s w b srcs f).1.reg (vVD w)) e =
      if (s.mask (vKM w)).getLsbD e then (f (srcs.map fun r => elemOf b (s.reg r) e)).code % 2 ^ b
      else if vZM w then 0 else elemOf b (s.reg (vVD w)) e := by
  rw [mapElems_reg, elemOf_writeSlots _ _ (by simpa using he) he, List.getElem_map, List.getElem_range, elemSlot]
  split
  · rfl
  · split
    · exact Nat.zero_mod _
    · exact Nat.mod_eq_of_lt (elemOf_lt _ _ _)

end

end Sys2Proof.Machine
end


section
/-!
PROOFS. The integer instructions of the vector engine: O18.
-/

namespace Sys2Proof.Machine

/-- What an integer instruction `w` with the results `f` leaves in VD from `s` to `t`, on tile `n` (R158, R165). -/
def IntElems (s : State) (n : Nat) (w : BitVec 256) (f : Nat → Nat) (t : State) : Prop :=
  ∀ e, e < 256 → elemOf 32 ((t.tile n).ve.reg (vVD w)) e =
    if ((s.tile n).ve.mask (vKM w)).getLsbD e then f e % 2 ^ 32
    else if vZM w then 0 else elemOf 32 ((s.tile n).ve.reg (vVD w)) e

section
variable {s : State} {n opc : Nat} {w : BitVec 256} {p : Prog} {c : Nat → BitVec 256 → Instr}
  {srcs : BitVec 256 → List Nat} {fs : List VF} {g : BitVec 256 → List W32 → W32}

/-- Element `e` of register `i` of tile `n`. -/
abbrev State.wordElem (s : State) (n i e : Nat) : Nat := elemOf 32 ((s.tile n).ve.reg i) e

theorem State.toNat_wordElem (s : State) (n i e : Nat) : (BitVec.ofNat 32 (s.wordElem n i e)).toNat = s.wordElem n i e :=
  (BitVec.toNat_ofNat ..).trans (Nat.mod_eq_of_lt (elemOf_lt _ _ _))

theorem intInstr_run (ve : Ve) (seed : W64) (step : Nat) : (intInstr srcs fs g).run ve seed step w = intOp ve w (srcs w) (g w) := by
  simp only [intInstr, mkVec]

/-- A row of the table that is an operation on integers applies it to the elements of its sources. -/
theorem completes_intInstr {f : Nat → Nat} (hr : TileReady s n w p) (hrow : (c, opc, intInstr srcs fs g) ∈ vectorRows)
    (hg : ∀ e, (g w ((srcs w).map fun r => BitVec.ofNat 32 (s.wordElem n r e))).toNat = f e % 2 ^ 32) (hopc : wOpc w = opc)
    (hcheck : (intInstr srcs fs g).check w = none) : Completes (c n w) s (IntElems s n w f) := by
  obtain ⟨t, hexec, hve, -⟩ := vectorRegisterInstructionsComplete _ hrow s n w p hr hopc hcheck
  refine ⟨t, hexec, fun e he => ?_⟩
  rw [hve, Ve.reg_sticky, intInstr_run, intOp, elemOf_mapElems _ _ _ _ _ (show e < 8192 / 32 from he), List.map_map, ← hg e]
  simp only [intElem, Nat.mod_eq_of_lt (BitVec.isLt _)]
  rfl

/-- An integer instruction on VA and VB whose operation is `op` modulo 2^32. -/
theorem completes_intInstr_AB (op : Nat → Nat → Nat) (hg : ∀ x y : W32, (g w [x, y]).toNat = op x.toNat y.toNat % 2 ^ 32)
    (hr : TileReady s n w p) (hrow : (c, opc, intInstr srcAB fs g) ∈ vectorRows) (hopc : wOpc w = opc)
    (hcheck : (intInstr srcAB fs g).check w = none) :
    Completes (c n w) s (IntElems s n w fun e => op (s.wordElem n (vVA w) e) (s.wordElem n (vVB w) e)) :=
  completes_intInstr hr hrow (fun _ => (hg _ _).trans (by simp only [State.toNat_wordElem])) hopc hcheck

/-- An integer instruction on VA whose operation is `op` modulo 2^32. -/
theorem completes_intInstr_A (op : Nat → Nat) (hg : ∀ x : W32, (g w [x]).toNat = op x.toNat % 2 ^ 32)
    (hr : TileReady s n w p) (hrow : (c, opc, intInstr srcA fs g) ∈ vectorRows) (hopc : wOpc w = opc)
    (hcheck : (intInstr srcA fs g).check w = none) :
    Completes (c n w) s (IntElems s n w fun e => op (s.wordElem n (vVA w) e)) :=
  completes_intInstr hr hrow (fun _ => (hg _).trans (by simp only [State.toNat_wordElem])) hopc hcheck

end

theorem toNat_sub_word (x y : W32) : (x - y).toNat = (x.toNat + 2 ^ 32 - y.toNat) % 2 ^ 32 := by
  rw [BitVec.toNat_sub]
  omega

/-- What a word holds is its own remainder modulo 2^32. -/
theorem toNat_eq_mod {z : W32} {k : Nat} (h : z.toNat = k) : z.toNat = k % 2 ^ 32 := by
  rw [← h, Nat.mod_eq_of_lt z.isLt]

theorem toNat_shl_word (x : W32) (k : Nat) : (x <<< k).toNat = x.toNat * 2 ^ k % 2 ^ 32 := by
  rw [BitVec.toNat_shiftLeft, Nat.shiftLeft_eq]

theorem toNat_shr_word (x : W32) (k : Nat) : (x >>> k).toNat = x.toNat / 2 ^ k % 2 ^ 32 :=
  toNat_eq_mod ((BitVec.toNat_ushiftRight x k).trans (Nat.shiftRight_eq_div_pow _ k))

/-- Settles O18: each instruction is a row of the table, whose operation on words is the table's modulo 2^32. -/
theorem integerLanesComputeModulo : Obligations.IntegerLanesComputeModulo := by
  intro s n w p hr
  exact ⟨completes_intInstr_AB (· + ·) BitVec.toNat_add hr (by simp [vectorRows, iaddOp]),
    completes_intInstr_AB (· + 2 ^ 32 - ·) toNat_sub_word hr (by simp [vectorRows, isubOp]),
    completes_intInstr_AB (· * ·) BitVec.toNat_mul hr (by simp [vectorRows, imulOp]),
    completes_intInstr_AB (· * · / 2 ^ 32) (fun _ _ => BitVec.toNat_ofNat ..) hr (by simp [vectorRows, imulhiOp]),
    completes_intInstr_AB (· &&& ·) (fun x y => toNat_eq_mod (BitVec.toNat_and x y)) hr (by simp [vectorRows, iandOp]),
    completes_intInstr_AB (· ||| ·) (fun x y => toNat_eq_mod (BitVec.toNat_or x y)) hr (by simp [vectorRows, iorOp]),
    completes_intInstr_AB (· ^^^ ·) (fun x y => toNat_eq_mod (BitVec.toNat_xor x y)) hr (by simp [vectorRows, ixorOp]),
    completes_intInstr_A (· * 2 ^ (vImm16 w % 32)) (toNat_shl_word · _) hr (by simp [vectorRows, ishlOp]),
    completes_intInstr_A (· / 2 ^ (vImm16 w % 32)) (toNat_shr_word · _) hr (by simp [vectorRows, ishrOp])⟩

end Sys2Proof.Machine
end


section
/-!
PROOFS. Strings of bytes that are stored piece by piece, and VLD and VST at a plain offset: O20.
-/

namespace Sys2Proof.Machine

/-! ## Bytes stored piece by piece (R6) -/

theorem leBytes_add (m n x : Nat) : leBytes (m + n) x = leBytes m x ++ leBytes n (x / 256 ^ m) := by
  induction m generalizing x with
  | zero => simp [leBytes]
  | succ m ih => rw [Nat.succ_add, leBytes, ih, leBytes, List.cons_append, Nat.div_div_eq_div_mul, ← Nat.pow_succ']

theorem writeBytes_append (m : NMap 8) (a : Nat) (xs ys : List Byte) :
    writeBytes m a (xs ++ ys) = writeBytes (writeBytes m a xs) (a + xs.length) ys := by
  induction xs generalizing m a with
  | nil => rfl
  | cons x xs ih => rw [List.cons_append, writeBytes, ih, writeBytes, List.length_cons, Nat.add_right_comm, Nat.add_assoc]

/-- `k` lines of 64 bytes, each stored at its place, are the `64 k` bytes stored at once. -/
theorem foldl_writeBytes_lines (m : NMap 8) (a x k : Nat) :
    (List.range k).foldl (fun m i => writeBytes m (a + 64 * i) (leBytes 64 (x >>> (512 * i)))) m = writeBytes m a (leBytes (64 * k) x) := by
  induction k with
  | zero => rfl
  | succ k ih =>
    have hplace : x >>> (512 * k) = x / 256 ^ (64 * k) := by
      rw [Nat.shiftRight_eq_div_pow, show 256 = 2 ^ 8 from rfl, ← Nat.pow_mul, ← Nat.mul_assoc]
    rw [List.range_succ, List.foldl_append, ih, List.foldl_cons, List.foldl_nil, hplace, Nat.mul_succ, leBytes_add, writeBytes_append,
      length_leBytes]

/-! ## What a load and a store do to the tile (R164, R249) -/

section
variable (t : Tile) (w : BitVec 256) (addr : Nat)

/-- From tile `x` to tile `y` the scratchpad, its poison and the vector registers stay. -/
def SameData (x y : Tile) : Prop := y.mem = x.mem ∧ y.poison = x.poison ∧ y.ve.v = x.ve.v

/-- The code and the flag of a poisoned operand touch no data (R171, R188). -/
theorem poisoned_sameData (t : Tile) : SameData t ((t.noteErr 0x56 true).orFlags flPOIS) := ⟨rfl, rfl, rfl⟩

theorem Ve.reg_congr {u v : Ve} (h : u.v = v.v) (i : Nat) : u.reg i = v.reg i := by
  rw [Ve.reg, h]
  rfl

/-- A load changes VD and its poison alone (R164). -/
theorem vldAt_sameData : ∃ p, SameData
    { t with ve := t.ve.setReg (vVD w) (BitVec.ofNat 8192 (leNat (t.read addr 1024))) p } (vldAt t w addr) := by
  unfold vldAt
  extract_lets r p t'
  refine ⟨p, ?_⟩
  split
  · exact ⟨rfl, rfl, rfl⟩
  · exact poisoned_sameData t'

/-- Stores one after another: what the scratchpad then holds; the engine stays. -/
theorem foldl_write_mem_ve {α : Type} (off : α → Nat) (bs : α → List Byte) (bad : α → Bool) (l : List α) (t : Tile) :
    (l.foldl (fun t i => t.write (off i) (bs i) (bad i)) t).mem = l.foldl (fun m i => writeBytes m (off i) (bs i)) t.mem ∧
      (l.foldl (fun t i => t.write (off i) (bs i) (bad i)) t).ve = t.ve := by
  induction l generalizing t with
  | nil => exact ⟨rfl, rfl⟩
  | cons i l ih => exact ih (t.write (off i) (bs i) (bad i))

/-- A store of sixteen lines is a store of the 1,024 bytes, and no vector register changes. -/
theorem vstAt_spec : (vstAt t w addr).mem = writeBytes t.mem addr (leBytes 1024 (t.ve.reg (vVA w)).toNat) ∧
    (vstAt t w addr).ve.v = t.ve.v := by
  unfold vstAt
  extract_lets r p t'
  have ⟨hmem, hve⟩ : t'.mem = writeBytes t.mem addr (leBytes 1024 r.toNat) ∧ t'.ve = t.ve := by
    rw [← foldl_writeBytes_lines t.mem addr r.toNat 16]
    exact foldl_write_mem_ve (fun i => addr + 64 * i) (fun i => leBytes 64 (r.toNat >>> (512 * i))) _ _ _
  clear_value t'
  obtain ⟨hmem', -, hv'⟩ := poisoned_sameData t'
  split
  · exact ⟨hmem, congrArg Ve.v hve⟩
  · exact ⟨hmem'.trans hmem, hv'.trans (congrArg Ve.v hve)⟩

end

/-! ## The vector unit's run (R94) -/

section
variable {x : Tile} {sh : Share} {p : Prog} {w : BitVec 256}

theorem memRun_plain (load : Bool) (slot : Nat) (hc : vCirc w = false) :
    memRun x w load slot = ((if load then vldAt else vstAt) x w (vOff w), none) := by
  simp [memRun, hc]

theorem runTile_vld {f : InFlight} (hopc : wOpc f.word = 0x20) (hc : vCirc f.word = false) :
    (runTile x sh f).1 = { vldAt x f.word (vOff f.word) with vu := none } := by
  simp [runTile, hopc, memRun_plain _ _ hc]

theorem runTile_vst {f : InFlight} (hopc : wOpc f.word = 0x21) (hc : vCirc f.word = false) :
    (runTile x sh f).1 = { vstAt x f.word (vOff f.word) with vu := none } := by
  simp [runTile, hopc, memRun_plain _ _ hc]

/-- A VLD that has just issued leaves on its tile what the load at its offset makes of it. -/
theorem runTile_issued_vld (hopc : wOpc w = 0x20) (hc : vCirc w = false) (hflight : x.flight = []) :
    let r := (runTile (issuedTile x p w 2) sh (issuedFlight x w 2 p.tenant)).1
    ∃ q, SameData { x with ve := x.ve.setReg (vVD w) (BitVec.ofNat 8192 (leNat (x.read (vOff w) 1024))) q } r := by
  obtain ⟨rs, hissued⟩ := issuedTile_eq (p := p) (w := w) (unit := 2) x hflight
  rw [hissued, runTile_vld (f := issuedFlight x w 2 p.tenant) hopc hc]
  exact vldAt_sameData _ w (vOff w)

/-- A VST that has just issued leaves on its tile what the store at its offset makes of it. -/
theorem runTile_issued_vst (hopc : wOpc w = 0x21) (hc : vCirc w = false) (hflight : x.flight = []) :
    let r := (runTile (issuedTile x p w 2) sh (issuedFlight x w 2 p.tenant)).1
    r.mem = writeBytes x.mem (vOff w) (leBytes 1024 (x.ve.reg (vVA w)).toNat) ∧ r.ve.v = x.ve.v := by
  obtain ⟨rs, hissued⟩ := issuedTile_eq (p := p) (w := w) (unit := 2) x hflight
  rw [hissued, runTile_vst (f := issuedFlight x w 2 p.tenant) hopc hc]
  exact vstAt_spec _ w (vOff w)

end

/-- Settles O20: the unit's first run loads or stores at the offset, and a store's sixteen lines are its 1,024 bytes in one. -/
theorem vectorLoadAndStoreMoveBytes : Obligations.VectorLoadAndStoreMoveBytes := by
  intro s n w p hr hc
  have ⟨_, _, _, _, hflight, _⟩ := hr
  refine ⟨fun hopc hcheck => ?_, fun hopc hcheck hwf => ?_⟩
  · obtain ⟨t, hexec, hmem, hpoison, hve, -⟩ := completes_issue (c := .vld n w) hr rfl rfl (by decide) hopc hcheck
    obtain ⟨q, hrmem, hrpoison, hrv⟩ := runTile_issued_vld (sh := s.share p.tenant) (p := p) hopc hc hflight
    have hreg (i : Nat) := (congrArg (Ve.reg · i) hve).trans (Ve.reg_congr hrv i)
    exact ⟨t, hexec, hmem.trans hrmem, hpoison.trans hrpoison, (hreg _).trans (Ve.setReg_reg_same _ (vVD_lt w) _ _),
      fun i hi => (hreg i).trans (Ve.setReg_reg_other _ _ _ hi)⟩
  · obtain ⟨t, hexec, hmem, -, hve, -⟩ := completes_issue (c := .vst n w) hr rfl rfl (by decide) hopc hcheck
    obtain ⟨hrmem, hrv⟩ := runTile_issued_vst (sh := s.share p.tenant) (p := p) hopc hc hflight
    have hstored := hmem.trans hrmem
    have hlen := length_leBytes 1024 ((s.tile n).ve.reg (vVA w)).toNat
    have hback := readBytes_writeBytes (vOff w) (leBytes 1024 ((s.tile n).ve.reg (vVA w)).toNat) hwf
    rw [hlen, ← hstored] at hback
    refine ⟨t, hexec, hback, fun a ha => ?_, (congrArg Ve.v hve).trans hrv⟩
    rw [hstored]
    exact nget_writeBytes_outside _ hwf (by rwa [hlen])

end Sys2Proof.Machine
end

section
/-!
PROOFS. A request whose read meets an error of the scratchpad can reset the module, and its chain is gone (O24).
-/

namespace Sys2Proof.Machine

/-! ## A tile without chains (R263) -/

section
variable {s : State} {tile : Nat}

theorem State.chan_of_chans_nil (h : (s.tile tile).chans = []) (ch : Nat) : s.chan tile ch = none := by
  rw [State.chan, h]; rfl

/-- Changing a chain that does not stand makes none. -/
theorem State.updChan_chans_nil (ht : tile < 128) (h : (s.tile tile).chans = []) (ch : Nat) (f : Chan → Chan) :
    ((s.updChan tile ch f).tile tile).chans = [] := by
  rw [State.updChan, State.chan_of_chans_nil h, State.setChan, State.tile_updTile_same _ ht]
  simp [h, adel]

/-- A chain that does not stand completes no descriptor. -/
theorem State.settle_of_chan_none {ch : Nat} (h : s.chan tile ch = none) (fuel : Nat) : s.settle tile ch fuel = s := by
  cases fuel with
  | zero => rfl
  | succ fuel => rw [State.settle, h]

/-- With no chain on the tile, none issues a request. -/
theorem State.pump_of_chans_nil (h : (s.tile tile).chans = []) (fuel : Nat) : s.pump tile fuel = s := by
  have hnext : s.nextChan tile = none := by simp [State.nextChan, h]
  cases fuel with
  | zero => rfl
  | succ fuel => rw [State.pump, hnext]

/-- Once the work of a local request has left the tile without chains, its completion makes none. -/
theorem State.reqDone_chan_of_chans_lost {ch k : Nat} {c : Chan} {x : ActDesc} {r : Req} (ht : tile < 128)
    (hc : s.chan tile ch = some c) (hx : c.active = [x]) (hk : k ∈ x.open_) (hlocal : (xdesc x.bytes).remote = false)
    (hr : x.req k = some r)
    (hlost : ((State.noteMoved (moveReq tile c (xdesc x.bytes) r s) tile ch c x).tile tile).chans = []) :
    (s.reqDone tile ch x.ord k).chan tile ch = none := by
  have hfind : (c.active.find? fun y => y.ord == x.ord && y.open_.contains k) = some x := by simp [hx, hk]
  have hchans := State.updChan_chans_nil ht hlost ch fun c => c.updDesc x.ord fun x => { x with open_ := x.open_.erase k }
  have hgone := State.chan_of_chans_nil hchans ch
  simp only [State.reqDone, hc, hfind, hlocal, Bool.false_eq_true, if_false, hr]
  rw [State.settle_of_chan_none hgone, State.pump_of_chans_nil hchans, hgone]

end

/-! ## An error in a save area during a recovery (R248, R500, R502) -/

/-- A tenant with one bank of tile 0, whose upper half, from 0x18000 on, is its save area (R253, R254). -/
def saveErrorPart : Partition := { partitionOf [] 0 with enabled := true, spmBanks := 1, tileset := 1, chgroups := 1 }

/-- A Catalogue with that tenant alone. -/
def saveErrorCat : Cat :=
  { sequence := 1, domainId := 0, modules := 1, ncvAccept := [], digest := [], keySlot := 0,
    tick := { periodUs := 1000, master := 0, alternate := 0, tickInUse := 0, align := 0 }, vcw := [], ringsOf := [],
    wear := { bankCe := 256, hbmCe := 16, bistFails := 1, optMargin := 15, optFec := 1000000, phaseDev := 20, phaseTemp := 125 },
    cways := [], commons := [], moduleId := 0, atts := [], plimit := 0, pceil := 0, rlim := [], traceGroup := 0xFF, vitCtl := 0,
    vitKinds := 0, vitTenants := 0, tables := [], parts := [saveErrorPart], enabledBy := [], sealedBy := [], twinParts := [] }

/-- A COPY of two rows from offset 0x18000 to the tenant's memory that has issued both its requests. -/
def saveErrorCopy : ActDesc :=
  { bytes := descBytes 0 0 0x18000 0 256 2 256 256, ord := 0, inS := 0, outS := 0, a := 0x18000, b := 0, total := 2, next := 2,
    open_ := [0, 1], told := false }

/-- The chain of that copy, which has begun nothing else. -/
def saveErrorChain : Chan :=
  { tenant := 0, csp := true, maxOut := 16, rd := (0, 0), wr := (0, 0), fetched := [], next := 0, active := [saveErrorCopy], begun := 1,
    last := false, stopped := false, xstart := 0, seed := 0, step := 0, by_ := none, owner := .ring 0 0, inst := 0, remote := 0 }

/-- A module in a recovery, with the tenant's freeze still saving and an uncorrectable error in the first word of its save area. -/
def saveErrorState : State :=
  { State.reset with
    boot := { Boot.reset with state := .serving, cat := some saveErrorCat },
    tiles := Vector.replicate 128 { Tile.reset with phys := some 0, flaws := [(0xC00, true)], chans := [(0, saveErrorChain)] },
    recov := { Recov.reset with saving := [0], due := some [] } }

/-- The first row of the copy. -/
def saveErrorReq : Req := { a := 0x18000, b := 0, row := 0, e := 0, k := 256 }

theorem saveErrorState_tidy : saveErrorState.tidy = true := by decide +kernel

theorem saveErrorCopy_local : (xdesc saveErrorCopy.bytes).remote = false := by decide +kernel

theorem saveErrorCopy_req : saveErrorCopy.req 0 = some saveErrorReq := by decide +kernel

/-- The row's read meets the error, which in a save area in use brings a compute-part reset; in a recovery that escalates, and the
full module reset leaves the tile without chains. -/
theorem saveErrorState_move_loses_chains :
    ((State.noteMoved (moveReq 0 saveErrorChain (xdesc saveErrorCopy.bytes) saveErrorReq saveErrorState) 0 0 saveErrorChain
      saveErrorCopy).tile 0).chans = [] := by decide +kernel

/-- Refutes O24: its clause on TRANSFER_REQUEST_COMPLETE does not ask for a scratchpad without errors, and a read that meets one can reset
the module, so that no chain is left whose descriptor the request could come off. -/
theorem not_chainsDescriptorsAndCodecWork : ¬ Obligations.ChainsDescriptorsAndCodecWork := by
  intro h
  obtain ⟨-, -, -, hrequest, -⟩ := h saveErrorState saveErrorState_tidy
  obtain ⟨t, hexec, -, hopen⟩ := hrequest 0 0 saveErrorChain saveErrorCopy 0 saveErrorReq (by decide) rfl rfl (by decide)
    saveErrorCopy_local (by decide) (by decide) saveErrorCopy_req
  have hgone : (saveErrorState.reqDone 0 0 saveErrorCopy.ord 0).chan 0 0 = none :=
    State.reqDone_chan_of_chans_lost (by decide) rfl rfl (by decide) saveErrorCopy_local saveErrorCopy_req
      saveErrorState_move_loses_chains
  have ht : saveErrorState.reqDone 0 0 saveErrorCopy.ord 0 = t := Host.Outcome.next.inj hexec
  rw [← ht, hgone] at hopen
  cases hopen

end Sys2Proof.Machine
end

section
/-!
PROOFS. Association lists, sessions and pools: what a session or a page reads as after a change of one.
-/

namespace Sys2Proof.Machine

/-! ## Association lists -/

theorem aget_cons_same {α : Type} (l : List (Nat × α)) (k : Nat) (v : α) : aget ((k, v) :: l) k = some v := by
  simp [aget]

theorem aget_cons_other {α : Type} (l : List (Nat × α)) {j k : Nat} (v : α) (hne : k ≠ j) : aget ((j, v) :: l) k = aget l k := by
  simp [aget, hne.symm]

theorem aget_aput_other {α : Type} (l : List (Nat × α)) {j k : Nat} (v : α) (hne : k ≠ j) : aget (aput l j v) k = aget l k := by
  induction l with
  | nil => exact aget_cons_other [] v hne
  | cons x l ih =>
    obtain ⟨a, y⟩ := x
    unfold aput
    split
    · by_cases hak : k = a
      · subst hak; rw [aget_cons_same, aget_cons_same]
      · rw [aget_cons_other _ _ hak, aget_cons_other _ _ hak, ih]
    · split
      next haj => subst haj; rw [aget_cons_other _ _ hne, aget_cons_other _ _ hne]
      next => exact aget_cons_other _ v hne

theorem aget_adel_same {α : Type} (l : List (Nat × α)) (k : Nat) : aget (adel l k) k = none := by
  simp [aget, adel]

theorem aget_map_same {α : Type} (l : List (Nat × α)) (k : Nat) (f : α → α) :
    aget (l.map fun (m, p) => if m = k then (m, f p) else (m, p)) k = (aget l k).map f := by
  induction l with
  | nil => rfl
  | cons x l ih =>
    obtain ⟨a, y⟩ := x
    by_cases hak : a = k
    · subst hak
      simp [aget_cons_same]
    · simp only [List.map_cons, if_neg hak]
      rw [aget_cons_other _ _ (Ne.symm hak), aget_cons_other _ _ (Ne.symm hak), ih]

theorem aget_eq_none_of_notMem {α : Type} {l : List (Nat × α)} {k : Nat} (h : k ∉ l.map (·.1)) : aget l k = none := by
  rw [aget, List.find?_eq_none.mpr]
  · rfl
  · exact fun z hz he => h (List.mem_map.mpr ⟨z, hz, beq_iff_eq.mp he⟩)

/-- With every key listed once, a filter leaves at a key what stood there, when that passes. -/
theorem aget_filter_of_nodup {α : Type} {l : List (Nat × α)} (hl : (l.map (·.1)).Nodup) (f : Nat × α → Bool) (k : Nat) :
    aget (l.filter f) k = (aget l k).filter fun v => f (k, v) := by
  induction l with
  | nil => rfl
  | cons x l ih =>
    obtain ⟨a, y⟩ := x
    rw [List.map_cons, List.nodup_cons] at hl
    obtain ⟨hnot, hl⟩ := hl
    rw [List.filter_cons]
    by_cases hak : k = a
    · subst hak
      rw [aget_cons_same, Option.filter_some]
      split
      · exact aget_cons_same _ _ _
      · rw [ih hl, aget_eq_none_of_notMem hnot]; rfl
    · rw [aget_cons_other _ _ hak, ← ih hl]
      split
      · exact aget_cons_other _ _ hak
      · rfl

/-! ## Sessions (R226) -/

section
variable (s : State)

@[simp] theorem State.sess_setSess_same (n : Nat) (d : Sess) : (s.setSess n d).sess n = d := by
  unfold State.setSess State.sess
  dsimp only
  split
  next h => simp [aget_adel_same, h]
  next => simp [aget_aput_same]

theorem State.sess_setSess_other {n m : Nat} (d : Sess) (hm : m ≠ n) : (s.setSess n d).sess m = s.sess m := by
  unfold State.setSess State.sess
  dsimp only
  split
  · rw [aget_adel_other _ hm]
  · rw [aget_aput_other _ _ hm]

@[simp] theorem State.sess_updSess_same (n : Nat) (f : Sess → Sess) : (s.updSess n f).sess n = f (s.sess n) :=
  s.sess_setSess_same n _

theorem State.sess_updSess_other {n m : Nat} (f : Sess → Sess) (hm : m ≠ n) : (s.updSess n f).sess m = s.sess m :=
  s.sess_setSess_other _ hm

theorem State.sess_congr {s t : State} (h : t.lrd.sess = s.lrd.sess) (n : Nat) : t.sess n = s.sess n := by
  rw [State.sess, State.sess, h]

/-! ## Pools (R220, R233) -/

/-- From `s` to `t` nothing changes but the pools. -/
def PoolsOnly (s t : State) : Prop := t = { s with lrd := { s.lrd with pools := t.lrd.pools } }

variable {s} {c : Nat}

theorem PoolsOnly.trans {t u : State} (h : PoolsOnly s t) (g : PoolsOnly t u) : PoolsOnly s u := by
  unfold PoolsOnly at *
  rw [g, h]

theorem State.setPool_poolsOnly (q : Pool) : PoolsOnly s (s.setPool c q) := rfl

theorem State.pool_setPool_same (q : Pool) (hc : c < 16) : (s.setPool c q).pool c = q := by
  simp only [State.pool, State.setPool, hc, dif_pos]
  exact vupd_get_same _ hc _

/-- The allocator hands out the page with count 1. -/
theorem State.allocPage_spec {k page : Nat} (hc : c < 16) (h : (s.allocPage c k).map (·.1) = some page) :
    ∃ t, s.allocPage c k = some (page, t) ∧ PoolsOnly s t ∧ t.pageCount c page = 1 := by
  unfold State.allocPage at h ⊢
  cases hp : s.part c with
  | none => simp [hp] at h
  | some p =>
    simp only [hp] at h ⊢
    cases hb : buddyPick (s.livePages c) p.granules 7 k with
    | none => simp [hb] at h
    | some b =>
      obtain rfl : b = page := by simpa [hb] using h
      refine ⟨_, rfl, State.setPool_poolsOnly _, ?_⟩
      rw [State.pageCount, State.pool_setPool_same _ hc, aget_aput_same]
      rfl

theorem State.pageCount_updPage_same (n : Nat) (f : Page → Page) (hc : c < 16) :
    (s.updPage c n f).pageCount c n = (((aget (s.pool c).pages n).map f).map (·.count)).getD 0 := by
  rw [State.pageCount, State.updPage, State.pool_setPool_same _ hc, aget_map_same]

theorem State.nodup_updPage {n : Nat} (f : Page → Page) (hc : c < 16) (hl : ((s.pool c).pages.map (·.1)).Nodup) :
    (((s.updPage c n f).pool c).pages.map (·.1)).Nodup := by
  have hkeys : ((s.updPage c n f).pool c).pages.map (·.1) = (s.pool c).pages.map (·.1) := by
    rw [State.updPage, State.pool_setPool_same _ hc, List.map_map]
    refine List.map_congr_left fun x _ => ?_
    dsimp only [Function.comp]
    split <;> rfl
  rw [hkeys]
  exact hl

theorem State.dropPage_poolsOnly (n : Nat) : PoolsOnly s (s.dropPage c n) := ite_of_both (Q := PoolsOnly s) rfl rfl

theorem State.pool_congr {t : State} (h : t.lrd.pools = s.lrd.pools) (d : Nat) : t.pool d = s.pool d := by
  unfold State.pool
  rw [h]

theorem State.pageCount_of_pool {t : State} (h : (t.pool c).pages = (s.pool c).pages) (n : Nat) : t.pageCount c n = s.pageCount c n := by
  rw [State.pageCount, State.pageCount, h]

/-- A page that is not pinned has one holder less, where each page is listed once: at 0 the allocator has it again, unless an ATTN
still reads it, and it counts 0 either way. -/
theorem State.pageCount_dropPage_same {n : Nat} (hc : c < 16) (hl : ((s.pool c).pages.map (·.1)).Nodup) (hp : s.pageCount c n ≠ pinned) :
    (s.dropPage c n).pageCount c n = s.pageCount c n - 1 := by
  have hcount := State.pageCount_updPage_same (s := s) n (fun p => { p with count := p.count - 1 }) hc
  have hnodup := State.nodup_updPage (n := n) (fun p => { p with count := p.count - 1 }) hc hl
  unfold State.dropPage
  rw [if_neg hp]
  extract_lets u
  have hu : u.pageCount c n = s.pageCount c n - 1 := by
    rw [hcount, State.pageCount]
    cases aget (s.pool c).pages n <;> rfl
  have hlu : ((u.pool c).pages.map (·.1)).Nodup := hnodup
  clear_value u
  rw [← hu, State.pageCount, State.pool_setPool_same _ hc, State.livePages, aget_filter_of_nodup hlu, State.pageCount]
  cases aget (u.pool c).pages n with
  | none => rfl
  | some y =>
    simp only [Option.filter_some]
    split
    · rfl
    next hgone =>
      have hzero : y.count = 0 := by
        simp only [Bool.or_eq_true, not_or, bne_iff_ne, ne_eq, not_not] at hgone
        exact hgone.1
      exact hzero.symm

/-- A page with one holder more; a pinned one stays pinned. -/
theorem State.pageCount_sharePage_same {n : Nat} {y : Page} (hc : c < 16) (hy : aget (s.pool c).pages n = some y) :
    (s.sharePage c n).pageCount c n = if y.count = pinned then pinned else y.count + 1 := by
  have hcount : s.pageCount c n = y.count := by rw [State.pageCount, hy]; rfl
  unfold State.sharePage
  rw [hcount]
  split
  next hpin => exact hcount.trans hpin
  next => rw [State.pageCount_updPage_same _ _ hc, hy]; rfl

end

end Sys2Proof.Machine
end

section
/-!
PROOFS. A tenant's own range: where its bytes lie, and what a coherent read or write of them does (R249, R414).
-/

namespace Sys2Proof.Machine

/-! ## Addresses (R414) -/

theorem nodup_bitsOf (n m : Nat) : (bitsOf n m).Nodup := List.nodup_range.filter _

/-- Within a block of 256 bytes module addresses are consecutive. -/
theorem groupAddr_add (groups : Nat) {o i : Nat} (h : o % 256 + i < 256) : groupAddr groups (o + i) = groupAddr groups o + i := by
  have hdiv : (o + i) / 0x7E0000000 = o / 0x7E0000000 := by omega
  have hmod : (o + i) % 0x7E0000000 = o % 0x7E0000000 + i := by omega
  rw [groupAddr, groupAddr, hdiv, hmod, Nat.add_assoc]

/-- No two bytes of a tenant's own range share a module address. -/
theorem groupAddr_injective (p : Partition) {a b : Nat} (ha : a < p.taSize) (hb : b < p.taSize)
    (h : groupAddr p.chgroups a = groupAddr p.chgroups b) : a = b := by
  have hlen : p.taSize ≤ (bitsOf 32 p.chgroups).length * 0x7E0000000 := Nat.sub_le _ _
  have hia : a / 0x7E0000000 < (bitsOf 32 p.chgroups).length := by omega
  have hib : b / 0x7E0000000 < (bitsOf 32 p.chgroups).length := by omega
  simp only [groupAddr, List.getD_eq_getElem _ _ hia, List.getD_eq_getElem _ _ hib] at h
  have hgroup : (bitsOf 32 p.chgroups)[a / 0x7E0000000] = (bitsOf 32 p.chgroups)[b / 0x7E0000000] := by omega
  have hdiv : a / 0x7E0000000 = b / 0x7E0000000 := (nodup_bitsOf 32 p.chgroups).getElem_inj_iff.mp hgroup
  omega

/-! ## The blocks of an access -/

/-- `l` cuts the `n` bytes from `a` on into pieces that lie within blocks of 256. -/
def CutsBytes : Nat → Nat → List (Nat × Nat) → Prop
  | _, n, [] => n = 0
  | a, n, (b, k) :: l => b = a ∧ 0 < k ∧ k ≤ n ∧ a % 256 + k ≤ 256 ∧ CutsBytes (a + k) (n - k) l

theorem blockCuts_cuts {fuel a n : Nat} (h : n = 0 ∨ a % 256 + n ≤ 256 * fuel) : CutsBytes a n (blockCuts fuel a n) := by
  induction fuel generalizing a n with
  | zero => exact (show n = 0 by omega)
  | succ fuel ih =>
    unfold blockCuts
    split
    next hn => exact hn
    next hn =>
      extract_lets k
      have hk : k = min n (256 - a % 256) := rfl
      clear_value k
      refine ⟨rfl, by omega, by omega, by omega, ih ?_⟩
      rcases Nat.le_total n (256 - a % 256) with hle | hle
      · exact .inl (by omega)
      · have hmod : (a + k) % 256 = 0 := by omega
        exact .inr (by omega)

theorem cut256_cuts (a n : Nat) : CutsBytes a n (cut256 a n) := blockCuts_cuts (.inr (by omega))

/-! ## The own range -/

/-- The byte at a tenant address of the own range. -/
def State.byteAt (s : State) (p : Partition) (a : Nat) : Byte := nget s.hbm (groupAddr p.chgroups a)

/-- The bytes of the own range from a tenant address on. -/
def State.ownBytes (s : State) (p : Partition) (a n : Nat) : List Byte := (List.range n).map fun i => s.byteAt p (a + i)

section
variable {s t u : State} {c a n : Nat} {p : Partition}

@[simp] theorem State.length_ownBytes : (s.ownBytes p a n).length = n := by simp [State.ownBytes]

theorem State.ownBytes_add (k m : Nat) : s.ownBytes p a (k + m) = s.ownBytes p a k ++ s.ownBytes p (a + k) m := by
  simp only [State.ownBytes, List.range_add, List.map_append, List.map_map, Function.comp_def, Nat.add_assoc]

theorem State.ownBytes_congr (h : ∀ i, i < n → t.byteAt p (a + i) = s.byteAt p (a + i)) : t.ownBytes p a n = s.ownBytes p a n :=
  List.map_congr_left fun i hi => h i (List.mem_range.mp hi)

theorem State.getElem_ownBytes {i : Nat} (hi : i < (s.ownBytes p a n).length) : (s.ownBytes p a n)[i] = s.byteAt p (a + i) := by
  simp [State.ownBytes]

/-- Within a block the own range's bytes are those of the module. -/
theorem State.readBytes_ownBytes (h : a % 256 + n ≤ 256) : readBytes s.hbm (groupAddr p.chgroups a) n = s.ownBytes p a n := by
  refine List.map_congr_left fun i hi => ?_
  have hi := List.mem_range.mp hi
  rw [State.byteAt, groupAddr_add _ (by omega)]

theorem State.taLoc_own (hp : s.part c = some p) (ha : a < p.taSize) : s.taLoc c a = .own (groupAddr p.chgroups a) := by
  simp only [State.taLoc, hp, ha, if_true]

theorem State.taMapped_own (hp : s.part c = some p) (hn : 0 < n) (ha : a + n ≤ p.taSize) : s.taMapped c a n = true := by
  have hloc := State.taLoc_own hp (show a < p.taSize by omega)
  have hend : s.taEnd c a = p.taSize := by
    unfold State.taEnd
    rw [hloc]
    dsimp only
    rw [hp, Option.map_some, Option.getD_some]
  unfold State.taMapped State.taSpans
  extract_lets stop
  rw [if_neg (by omega), if_pos (by omega)]
  rfl

/-! ## Reads -/

/-- A read's part in one block: its bytes go behind those read before, where they are mapped, else zeros. -/
def State.readPiece (s : State) (c : Nat) (r : List Byte × Bool) (b : Nat × Nat) : List Byte × Bool :=
  match (s.taLoc c b.1).ma with
  | some m => (r.1 ++ readBytes s.hbm m b.2, r.2 || prange s.hbmBad m b.2)
  | none => (r.1 ++ List.replicate b.2 0, r.2)

theorem State.taRead_eq : s.taRead c a n = if s.taMapped c a n then some ((cut256 a n).foldl (s.readPiece c) ([], false)) else none := by
  unfold State.taRead
  cases s.taMapped c a n <;> rfl

theorem State.length_readPiece (r : List Byte × Bool) (b : Nat × Nat) : (s.readPiece c r b).1.length = r.1.length + b.2 := by
  unfold State.readPiece
  split <;> simp [readBytes]

theorem State.length_foldl_readPiece {l : List (Nat × Nat)} (h : CutsBytes a n l) (r : List Byte × Bool) :
    (l.foldl (s.readPiece c) r).1.length = r.1.length + n := by
  induction l generalizing a n r with
  | nil => rw [show n = 0 from h]; rfl
  | cons b l ih =>
    obtain ⟨-, -, hk, -, hl⟩ := h
    rw [List.foldl_cons, ih hl, State.length_readPiece]
    omega

/-- A read brings as many bytes as it asks for. -/
theorem State.length_taRead {bs : List Byte} {bad : Bool} (h : s.taRead c a n = some (bs, bad)) : bs.length = n := by
  rw [State.taRead_eq] at h
  split at h
  · have hbs := congrArg (fun r : List Byte × Bool => r.1.length) (Option.some.inj h)
    rw [State.length_foldl_readPiece (cut256_cuts a n)] at hbs
    simpa using hbs.symm
  · cases h

theorem State.foldl_readPiece_own (hp : s.part c = some p) {l : List (Nat × Nat)} (h : CutsBytes a n l) (ha : a + n ≤ p.taSize)
    (r : List Byte × Bool) : (l.foldl (s.readPiece c) r).1 = r.1 ++ s.ownBytes p a n := by
  induction l generalizing a n r with
  | nil => rw [show n = 0 from h]; simp [State.ownBytes]
  | cons b l ih =>
    obtain ⟨b, k⟩ := b
    obtain ⟨rfl, hk0, hk, hblock, hl⟩ := h
    have hone : (s.readPiece c r (b, k)).1 = r.1 ++ s.ownBytes p b k := by
      simp only [State.readPiece, State.taLoc_own hp (show b < p.taSize by omega), TaLoc.ma, State.readBytes_ownBytes hblock]
    rw [List.foldl_cons, ih hl (by omega), hone, List.append_assoc, ← State.ownBytes_add, Nat.add_sub_cancel' hk]

/-- A read of the own range brings its bytes. -/
theorem State.taRead_own (hp : s.part c = some p) (hn : 0 < n) (ha : a + n ≤ p.taSize) : ∃ bad, s.taRead c a n = some (s.ownBytes p a n, bad) := by
  have hbytes := State.foldl_readPiece_own hp (cut256_cuts a n) ha ([], false)
  rw [State.taRead_eq, if_pos (State.taMapped_own hp hn ha)]
  exact ⟨_, congrArg some (Prod.ext hbytes rfl)⟩

theorem State.taNum_own (hp : s.part c = some p) (hn : 0 < n) (ha : a + n ≤ p.taSize) : s.taNum c a n = leNat (s.ownBytes p a n) := by
  obtain ⟨bad, hread⟩ := State.taRead_own hp hn ha
  rw [State.taNum, hread]
  rfl

/-! ## Writes -/

/-- From `s` to `t` nothing changes but memory with its poison and caches, the notes for the twin, and the pools. -/
def LarderFrame (s t : State) : Prop :=
  t = { s with hbm := t.hbm, hbmBad := t.hbmBad, msc := t.msc, twin := t.twin, lrd := { s.lrd with pools := t.lrd.pools } }

theorem LarderFrame.refl (s : State) : LarderFrame s s := rfl

theorem LarderFrame.trans (h : LarderFrame s t) (g : LarderFrame t u) : LarderFrame s u := by
  unfold LarderFrame at *
  rw [g, h]

theorem LarderFrame.ite {q : Prop} [Decidable q] (ht : LarderFrame s t) (hu : LarderFrame s u) : LarderFrame s (if q then t else u) :=
  ite_of_both ht hu

theorem LarderFrame.foldl {α : Type} {f : State → α → State} {l : List α} (hf : ∀ u x, LarderFrame u (f u x)) (s : State) :
    LarderFrame s (l.foldl f s) :=
  foldl_inv (Q := LarderFrame s) (fun u x h => h.trans (hf u x)) (.refl s)

theorem LarderFrame.part (h : LarderFrame s t) : t.part c = s.part c := by
  rw [show t = _ from h]; rfl

theorem LarderFrame.sess (h : LarderFrame s t) : t.lrd.sess = s.lrd.sess := by
  rw [show t = _ from h]

theorem LarderFrame.regs (h : LarderFrame s t) : t.regs = s.regs := by
  rw [show t = _ from h]

theorem LarderFrame.ctrs (h : LarderFrame s t) : t.ctrs = s.ctrs := by
  rw [show t = _ from h]

theorem LarderFrame.front (h : LarderFrame s t) : t.front = s.front := by
  rw [show t = _ from h]

theorem PoolsOnly.larderFrame (h : PoolsOnly s t) : LarderFrame s t := by
  unfold PoolsOnly at h
  rw [h]
  rfl

/-- What writes into the own range at the addresses of `P` change: the bytes there, with what a Larder operation may change; the memory
stays in its canonical form. -/
structure OwnWrites (p : Partition) (P : Nat → Prop) (s t : State) : Prop where
  frame : LarderFrame s t
  wf : nwf t.hbm = true
  bytes : ∀ a, a < p.taSize → ¬P a → t.byteAt p a = s.byteAt p a

/-- The addresses of `n` bytes from `a` on. -/
def Within (a n x : Nat) : Prop := a ≤ x ∧ x < a + n

variable {P Q : Nat → Prop}

theorem OwnWrites.refl (hw : nwf s.hbm = true) : OwnWrites p P s s := ⟨rfl, hw, fun _ _ _ => rfl⟩

theorem OwnWrites.trans (h : OwnWrites p P s t) (g : OwnWrites p P t u) : OwnWrites p P s u :=
  ⟨h.frame.trans g.frame, g.wf, fun a ha hP => (g.bytes a ha hP).trans (h.bytes a ha hP)⟩

theorem OwnWrites.mono (h : OwnWrites p P s t) (hPQ : ∀ a, P a → Q a) : OwnWrites p Q s t :=
  ⟨h.frame, h.wf, fun a ha hQ => h.bytes a ha fun hP => hQ (hPQ a hP)⟩

theorem OwnWrites.part (h : OwnWrites p P s t) : t.part c = s.part c := h.frame.part

/-- What changes no byte of memory. -/
theorem LarderFrame.ownWrites (h : LarderFrame s t) (hm : t.hbm = s.hbm) (hw : nwf s.hbm = true) : OwnWrites p P s t :=
  ⟨h, hm ▸ hw, fun _ _ _ => congrArg (nget · _) hm⟩

/-- Bytes that no write covers read as before. -/
theorem OwnWrites.taNum (h : OwnWrites p P s t) (hp : s.part c = some p) (hn : 0 < n) (ha : a + n ≤ p.taSize)
    (hP : ∀ i, i < n → ¬P (a + i)) : t.taNum c a n = s.taNum c a n := by
  rw [State.taNum_own hp hn ha, State.taNum_own (h.part.trans hp) hn ha, State.ownBytes_congr fun i hi => h.bytes _ (by omega) (hP i hi)]

/-- A write's part in one block, and the bytes that are left for the later ones. -/
def State.writePiece (c : Nat) (bad : Bool) (r : State × List Byte) (b : Nat × Nat) : State × List Byte :=
  (match (r.1.taLoc c b.1).ma with
    | some m => r.1.maWrite m (r.2.take b.2) bad
    | none => r.1, r.2.drop b.2)

theorem State.taWrite_eq (bs : List Byte) (bad : Bool) :
    s.taWrite c a bs bad = (((cut256 a bs.length).foldl (State.writePiece c bad) (s, bs)).1).taAccess c a bs.length true .plain := rfl

theorem State.maWrite_own {bs : List Byte} {bad : Bool} (hw : nwf s.hbm = true) (hblock : a % 256 + bs.length ≤ 256)
    (ha : a + bs.length ≤ p.taSize) :
    OwnWrites p (Within a bs.length) s (s.maWrite (groupAddr p.chgroups a) bs bad) ∧
      (s.maWrite (groupAddr p.chgroups a) bs bad).ownBytes p a bs.length = bs := by
  refine ⟨⟨rfl, nwf_writeBytes _ _ hw, fun x hx hout => ?_⟩, ?_⟩
  · refine nget_writeBytes_outside bs hw ?_
    by_contra hin
    obtain ⟨i, hi⟩ := Nat.exists_eq_add_of_le (show groupAddr p.chgroups a ≤ groupAddr p.chgroups x by omega)
    have hsame : groupAddr p.chgroups x = groupAddr p.chgroups (a + i) := by rw [hi, groupAddr_add _ (by omega)]
    obtain rfl := groupAddr_injective p hx (by omega) hsame
    exact hout ⟨by omega, by omega⟩
  · rw [← State.readBytes_ownBytes hblock]
    exact readBytes_writeBytes _ bs hw

theorem State.foldl_writePiece_own (hp : s.part c = some p) (hw : nwf s.hbm = true) {l : List (Nat × Nat)} {bs : List Byte} (bad : Bool)
    (h : CutsBytes a bs.length l) (ha : a + bs.length ≤ p.taSize) :
    OwnWrites p (Within a bs.length) s (l.foldl (State.writePiece c bad) (s, bs)).1 ∧
      (l.foldl (State.writePiece c bad) (s, bs)).1.ownBytes p a bs.length = bs := by
  induction l generalizing s a bs with
  | nil =>
    obtain rfl : bs = [] := List.length_eq_zero_iff.mp h
    exact ⟨.refl hw, rfl⟩
  | cons b l ih =>
    obtain ⟨b, k⟩ := b
    obtain ⟨rfl, hk0, hk, hblock, hl⟩ := h
    have hlen : (bs.take k).length = k := List.length_take_of_le hk
    obtain ⟨hfirst, hread⟩ := State.maWrite_own (s := s) (p := p) (a := b) (bs := bs.take k) (bad := bad) hw (by omega) (by omega)
    rw [hlen] at hfirst hread
    have hone : State.writePiece c bad (s, bs) (b, k) = (s.maWrite (groupAddr p.chgroups b) (bs.take k) bad, bs.drop k) := by
      simp only [State.writePiece, State.taLoc_own hp (show b < p.taSize by omega), TaLoc.ma]
    rw [List.foldl_cons, hone]
    generalize s.maWrite (groupAddr p.chgroups b) (bs.take k) bad = u at hfirst hread
    have hdrop : (bs.drop k).length = bs.length - k := List.length_drop
    obtain ⟨hrest, hback⟩ := ih (hfirst.part.trans hp) hfirst.wf (bs := bs.drop k) (hdrop ▸ hl) (by omega)
    rw [hdrop] at hrest hback
    generalize (l.foldl (State.writePiece c bad) (u, bs.drop k)).1 = t at hrest hback
    refine ⟨(hfirst.mono ?_).trans (hrest.mono ?_), ?_⟩
    · intro x hx; exact ⟨hx.1, by have := hx.2; omega⟩
    · intro x hx; exact ⟨by have := hx.1; omega, by have := hx.2; omega⟩
    · have hkept : t.ownBytes p b k = u.ownBytes p b k :=
        State.ownBytes_congr fun i hi => hrest.bytes _ (by omega) fun hx => by have := hx.1; omega
      have hsplit := t.ownBytes_add (p := p) (a := b) k (bs.length - k)
      rw [Nat.add_sub_cancel' hk, hkept, hread, hback, List.take_append_drop] at hsplit
      exact hsplit

theorem State.taAccess_frame (ta m : Nat) (write : Bool) (use : MscUse) :
    s.taAccess c ta m write use = { s with msc := (s.taAccess c ta m write use).msc } := by
  refine foldl_inv (Q := fun u : State => u = { s with msc := u.msc }) (fun u b hu => ?_) rfl
  dsimp only
  split
  · rw [hu]
  · exact hu

theorem State.taAccess_ownWrites (ta m : Nat) (write : Bool) (use : MscUse) (hw : nwf s.hbm = true) :
    OwnWrites p P s (s.taAccess c ta m write use) := by
  rw [State.taAccess_frame]
  exact LarderFrame.ownWrites rfl rfl hw

/-- A write of a tenant's memory changes memory and its caches alone. -/
theorem State.taWrite_frame (ta : Nat) (bs : List Byte) (bad : Bool) :
    s.taWrite c ta bs bad = { s with
      hbm := (s.taWrite c ta bs bad).hbm, hbmBad := (s.taWrite c ta bs bad).hbmBad, msc := (s.taWrite c ta bs bad).msc } := by
  have hpieces : ∀ l : List (Nat × Nat), (l.foldl (State.writePiece c bad) (s, bs)).1 = { s with
      hbm := (l.foldl (State.writePiece c bad) (s, bs)).1.hbm, hbmBad := (l.foldl (State.writePiece c bad) (s, bs)).1.hbmBad } := fun l => by
    refine foldl_inv (Q := fun r : State × List Byte => r.1 = { s with hbm := r.1.hbm, hbmBad := r.1.hbmBad }) (fun r b hr => ?_) rfl
    dsimp only [State.writePiece]
    split
    · rw [hr]; rfl
    · exact hr
  have h := hpieces (cut256 ta bs.length)
  rw [State.taWrite_eq]
  generalize ((cut256 ta bs.length).foldl (State.writePiece c bad) (s, bs)).1 = u at h
  rw [State.taAccess_frame, h]

theorem State.taWrite_larderFrame (ta : Nat) (bs : List Byte) (bad : Bool) : LarderFrame s (s.taWrite c ta bs bad) := by
  rw [State.taWrite_frame]
  rfl

theorem State.taWrite_lrd (ta : Nat) (bs : List Byte) (bad : Bool) : (s.taWrite c ta bs bad).lrd = s.lrd := by
  rw [State.taWrite_frame]

/-- A write into the own range: its bytes stand there, and no other byte of the range changes. -/
theorem State.taWrite_own (hp : s.part c = some p) (hw : nwf s.hbm = true) (bs : List Byte) (bad : Bool) (ha : a + bs.length ≤ p.taSize) :
    OwnWrites p (Within a bs.length) s (s.taWrite c a bs bad) ∧ (s.taWrite c a bs bad).ownBytes p a bs.length = bs := by
  obtain ⟨hwrites, hback⟩ := State.foldl_writePiece_own hp hw bad (cut256_cuts a bs.length) ha
  rw [State.taWrite_eq]
  generalize ((cut256 a bs.length).foldl (State.writePiece c bad) (s, bs)).1 = u at hwrites hback
  refine ⟨hwrites.trans (State.taAccess_ownWrites _ _ _ _ hwrites.wf), ?_⟩
  rw [State.taAccess_frame]
  exact hback

/-- A number written into the own range reads back. -/
theorem State.taNum_taWrite_same (hp : s.part c = some p) (hw : nwf s.hbm = true) (k v : Nat) (bad : Bool) (hk : 0 < k)
    (ha : a + k ≤ p.taSize) : (s.taWrite c a (leBytes k v) bad).taNum c a k = v % 256 ^ k := by
  obtain ⟨hwrites, hback⟩ := State.taWrite_own hp hw (leBytes k v) bad (a := a) (by rwa [length_leBytes])
  rw [length_leBytes] at hback
  rw [State.taNum_own (hwrites.part.trans hp) hk ha, hback, leNat_leBytes]

end

end Sys2Proof.Machine
end

section
/-!
PROOFS. The directories: where a session's entries lie, and what naming or releasing a page changes (R221 to R225, R238).
-/

namespace Sys2Proof.Machine

/-! ## Where the directory's entries lie (R221) -/

section
variable {p : Partition} {n i b : Nat}

/-- The top entries of a session of the tenant's range lie before the map blocks. -/
theorem Partition.topEntry_lt (hn : sessIn p n = true) (hi : i < 128) : p.topEntry n i + 8 ≤ p.mapBlock0 := by
  obtain ⟨hlo, hhi⟩ := of_decide_eq_true hn
  have hblock : (n - p.sessFirst + 1) * p.sessBytes ≤ p.sessCount * p.sessBytes := Nat.mul_le_mul_right _ (by omega)
  rw [Nat.add_mul, Nat.one_mul] at hblock
  have hbytes : p.sessBytes = 1024 + 64 * p.layers := rfl
  simp only [Partition.topEntry, Partition.sessBlock, Partition.mapBlock0]
  omega

theorem Partition.le_topEntry : p.dirBase ≤ p.topEntry n i := by
  simp only [Partition.topEntry, Partition.sessBlock]
  omega

theorem Partition.mapEntry_eq (j : Nat) : p.mapEntry b j = p.mapEntry b 0 + 4 * j := by
  simp only [Partition.mapEntry]
  omega

theorem Partition.le_mapEntry (j : Nat) : p.mapBlock0 ≤ p.mapEntry b j := by
  simp only [Partition.mapEntry]
  omega

theorem Partition.dirBase_le_mapBlock0 : p.dirBase ≤ p.mapBlock0 := Nat.le_add_right _ _

end

/-! ## Entries that are named (R222 to R224) -/

section
variable {s t : State} {c n g b : Nat} {p : Partition} {P : Nat → Prop}

/-- The addresses of map block `b`. -/
def Partition.InMapBlock (p : Partition) (b x : Nat) : Prop := Within (p.mapEntry b 0) 4096 x

theorem DirFits.block (h : DirFits p b g) : p.mapEntry b 0 + 4096 ≤ p.taSize := by
  obtain ⟨hfit, -⟩ := h
  rw [Partition.mapEntry_eq] at hfit
  omega

theorem DirFits.top (h : DirFits p b g) (hn : sessIn p n = true) : p.topEntry n (g / 1024) + 8 ≤ p.taSize := by
  obtain ⟨hfit, hg⟩ := h
  have htop := Partition.topEntry_lt hn (show g / 1024 < 128 by omega)
  have hmap : p.mapBlock0 ≤ p.mapEntry b 1023 := Partition.le_mapEntry 1023
  omega

/-- Writes outside the session blocks leave the map block of every granule. -/
theorem OwnWrites.mapOf (h : OwnWrites p P s t) (hp : s.part c = some p) (hn : sessIn p n = true) (hfit : DirFits p b g)
    (hP : ∀ x, p.dirBase ≤ x → x < p.mapBlock0 → ¬P x) : t.mapOf c p n g = s.mapOf c p n g := by
  have htop := Partition.topEntry_lt hn (show g / 1024 < 128 by have := hfit.2; omega)
  have hbase : p.dirBase ≤ p.topEntry n (g / 1024) := Partition.le_topEntry
  unfold State.mapOf
  rw [h.taNum hp (by decide) (hfit.top hn) fun i hi => hP _ (by omega) (by omega)]

/-- A granule whose map block has an entry for a page. -/
theorem State.granule_of_entry {page k : Nat} (hmap : s.mapOf c p n g = some b)
    (hentry : s.taNum c (p.mapEntry b (g % 1024)) 4 = page + k * 2 ^ 24 + 2 ^ 31) (hpage : page < 2 ^ 24) (hk : k < 8) :
    s.granule c p n g = some (page, k) := by
  have hbit : bitOf (page + k * 2 ^ 24 + 2 ^ 31) 31 = true := by
    have : (page + k * 2 ^ 24 + 2 ^ 31) / 2 ^ 31 % 2 = 1 := by omega
    rw [bitOf, this]; rfl
  rw [State.granule, hmap, Option.bind_some, hentry, if_pos hbit]
  have hlo : (page + k * 2 ^ 24 + 2 ^ 31) % 2 ^ 24 = page := by omega
  have hhi : (page + k * 2 ^ 24 + 2 ^ 31) / 2 ^ 24 % 8 = k := by omega
  rw [hlo, hhi]

theorem State.granule_of_cleared (hmap : s.mapOf c p n g = some b) (hentry : s.taNum c (p.mapEntry b (g % 1024)) 4 = 0) :
    s.granule c p n g = none := by
  rw [State.granule, hmap, Option.bind_some, hentry, if_neg (by simp [bitOf])]

/-- Write `e` into the `2^k` entries from granule `g` on. -/
def State.putEntries (s : State) (c : Nat) (p : Partition) (b g k e : Nat) : State :=
  (List.range (2 ^ k)).foldl (fun s i => s.taWrite c (p.mapEntry b ((g + i) % 1024)) (leBytes 4 e) false) s

theorem State.setGranules_none (k : Nat) : s.setGranules c p b g k none = s.putEntries c p b g k 0 := rfl

theorem State.putEntries_larderFrame (k e : Nat) : LarderFrame s (s.putEntries c p b g k e) :=
  .foldl (fun u _ => u.taWrite_larderFrame _ _ _) s

theorem State.putEntries_lrd (k e : Nat) : (s.putEntries c p b g k e).lrd = s.lrd :=
  foldl_inv (Q := fun u : State => u.lrd = s.lrd) (fun _ _ h => (State.taWrite_lrd _ _ _).trans h) rfl

/-- Writing an entry of map block `b` changes that entry alone. -/
theorem State.putEntry_spec (hp : s.part c = some p) (hw : nwf s.hbm = true) (hfit : DirFits p b g) (e : Nat) {j : Nat} (hj : j < 1024) :
    let t := s.taWrite c (p.mapEntry b j) (leBytes 4 e) false
    OwnWrites p (p.InMapBlock b) s t ∧ t.taNum c (p.mapEntry b j) 4 = e % 2 ^ 32 ∧
      ∀ i, i < 1024 → i ≠ j → t.taNum c (p.mapEntry b i) 4 = s.taNum c (p.mapEntry b i) 4 := by
  intro t
  have hblock := hfit.block
  have haddr (i : Nat) : p.mapEntry b i = p.mapEntry b 0 + 4 * i := Partition.mapEntry_eq i
  have hend : p.mapEntry b j + (leBytes 4 e).length ≤ p.taSize := by rw [length_leBytes, haddr]; omega
  obtain ⟨hwrites, -⟩ := State.taWrite_own hp hw (leBytes 4 e) false hend
  rw [length_leBytes, haddr j] at hwrites
  refine ⟨hwrites.mono fun x ⟨hlo, hhi⟩ => ⟨by omega, by omega⟩, ?_, fun i hi hne => ?_⟩
  · exact State.taNum_taWrite_same hp hw 4 e false (by decide) (by rwa [length_leBytes] at hend)
  · exact hwrites.taNum hp (by decide) (by rw [haddr]; omega) fun q hq hx => by
      obtain ⟨hlo, hhi⟩ := hx
      rw [haddr i] at hlo hhi
      omega

/-- Entries written from granule `g` on: the first of them reads as written, and nothing outside the map block changes. -/
theorem State.putEntries_spec (hp : s.part c = some p) (hw : nwf s.hbm = true) (hfit : DirFits p b g) (k e : Nat) :
    OwnWrites p (p.InMapBlock b) s (s.putEntries c p b g k e) ∧ (s.putEntries c p b g k e).taNum c (p.mapEntry b (g % 1024)) 4 = e % 2 ^ 32 := by
  have hj : g % 1024 < 1024 := Nat.mod_lt _ (by decide)
  obtain ⟨m, hm⟩ := Nat.exists_eq_add_of_lt (show 0 < 2 ^ k by positivity)
  have hlist : List.range (2 ^ k) = 0 :: (List.range m).map Nat.succ := by rw [hm, Nat.zero_add, List.range_succ_eq_map]
  obtain ⟨hfirst, hentry, -⟩ := State.putEntry_spec hp hw hfit e hj
  rw [State.putEntries, hlist, List.foldl_cons]
  refine foldl_inv (Q := fun u : State => OwnWrites p (p.InMapBlock b) s u ∧ u.taNum c (p.mapEntry b (g % 1024)) 4 = e % 2 ^ 32)
    (fun u i ⟨hu, hnum⟩ => ?_) ⟨hfirst, hentry⟩
  obtain ⟨hwrites, hsame, hother⟩ := State.putEntry_spec (hu.part.trans hp) hu.wf hfit e (show (g + i) % 1024 < 1024 from Nat.mod_lt _ (by decide))
  refine ⟨hu.trans hwrites, ?_⟩
  by_cases hi : g % 1024 = (g + i) % 1024
  · rw [hi]; exact hsame
  · exact (hother _ hj hi).trans hnum

theorem not_inMapBlock_of_lt {x : Nat} (h : x < p.mapBlock0) : ¬p.InMapBlock b x := fun ⟨hlo, _⟩ => by
  have hmap : p.mapBlock0 ≤ p.mapEntry b 0 := Partition.le_mapEntry 0
  omega

/-- A page named at a granule whose map block is there. -/
theorem State.install_spec {page k : Nat} (hp : s.part c = some p) (hw : nwf s.hbm = true) (hn : sessIn p n = true) (hfit : DirFits p b g)
    (hmap : s.mapOf c p n g = some b) (hpage : page < 2 ^ 24) (hk : k < 8) :
    ∃ t, s.install c p n g page k = some t ∧ OwnWrites p (p.InMapBlock b) s t ∧ t.lrd = s.lrd ∧ t.granule c p n g = some (page, k) := by
  obtain ⟨hwrites, hentry⟩ := State.putEntries_spec hp hw hfit k (page + k * 2 ^ 24 + 2 ^ 31)
  refine ⟨_, ?_, hwrites, State.putEntries_lrd _ _, ?_⟩
  · rw [State.install, State.needMap, hmap]
    rfl
  · refine State.granule_of_entry ((hwrites.mapOf hp hn hfit fun x _ hx => not_inMapBlock_of_lt hx).trans hmap) ?_ hpage hk
    rw [hentry, Nat.mod_eq_of_lt (by omega)]

/-! ## Entries that are cleared (R238) -/

theorem State.uninstall_larderFrame (k : Nat) : LarderFrame s (s.uninstall c p n g k) := by
  unfold State.uninstall
  split
  · exact .refl s
  next b _ =>
    have hset : LarderFrame s (s.setGranules c p b g k none) := State.putEntries_larderFrame k 0
    refine .ite hset (hset.trans (LarderFrame.trans ?_ (State.taWrite_larderFrame _ _ _)))
    exact (State.setPool_poolsOnly _).larderFrame

theorem State.releasePage_larderFrame (page k : Nat) : LarderFrame s (s.releasePage c p n g page k) :=
  (State.uninstall_larderFrame k).trans (State.dropPage_poolsOnly page).larderFrame

/-- Clearing the entries from granule `g` on: it names no page any more, and the pages stay as they are. -/
theorem State.uninstall_spec (hp : s.part c = some p) (hw : nwf s.hbm = true) (hc : c < 16) (hn : sessIn p n = true) (hfit : DirFits p b g)
    (hmap : s.mapOf c p n g = some b) (k : Nat) :
    (s.uninstall c p n g k).granule c p n g = none ∧ ((s.uninstall c p n g k).pool c).pages = (s.pool c).pages := by
  obtain ⟨hwrites, hentry⟩ := State.putEntries_spec hp hw hfit k 0
  have hpool : (s.putEntries c p b g k 0).pool c = s.pool c := State.pool_congr (congrArg Larder.pools (State.putEntries_lrd _ _)) c
  unfold State.uninstall
  rw [hmap]
  dsimp only
  rw [State.setGranules_none]
  generalize s.putEntries c p b g k 0 = u at hwrites hentry hpool
  split
  · exact ⟨State.granule_of_cleared ((hwrites.mapOf hp hn hfit fun x _ hx => not_inMapBlock_of_lt hx).trans hmap) hentry, congrArg Pool.pages hpool⟩
  · generalize hq : ({ u.pool c with maps := pclear (u.pool c).maps b } : Pool) = q
    have hv : OwnWrites p (fun _ => False) u (u.setPool c q) := LarderFrame.ownWrites (State.setPool_poolsOnly q).larderFrame rfl hwrites.wf
    have hpart := hv.part.trans (hwrites.part.trans hp)
    have htop := hfit.top hn
    have hnum := State.taNum_taWrite_same hpart hv.wf 8 0 false (by decide) htop
    refine ⟨?_, ?_⟩
    · rw [State.granule, State.mapOf, hnum]
      rfl
    · rw [State.pool_congr (congrArg Larder.pools (State.taWrite_lrd _ _ _)), State.pool_setPool_same _ hc, ← hq, hpool]

/-- A page released at the granule that names it: the granule names none, and the page has one holder less. -/
theorem State.releasePage_spec {page : Nat} (hp : s.part c = some p) (hw : nwf s.hbm = true) (hc : c < 16) (hn : sessIn p n = true)
    (hfit : DirFits p b g) (hmap : s.mapOf c p n g = some b) (k : Nat) (hl : ((s.pool c).pages.map (·.1)).Nodup)
    (hpin : s.pageCount c page ≠ pinned) :
    (s.releasePage c p n g page k).granule c p n g = none ∧
      (s.releasePage c p n g page k).pageCount c page = s.pageCount c page - 1 := by
  obtain ⟨hgone, hpages⟩ := State.uninstall_spec hp hw hc hn hfit hmap k
  unfold State.releasePage
  generalize s.uninstall c p n g k = u at hgone hpages
  have hcount := State.pageCount_of_pool hpages page
  refine ⟨?_, ?_⟩
  · rw [show u.dropPage c page = _ from State.dropPage_poolsOnly page]
    exact hgone
  · rw [State.pageCount_dropPage_same hc (hpages ▸ hl) (hcount ▸ hpin), hcount]

end

end Sys2Proof.Machine
end

section
/-!
PROOFS. A page's bytes copied to another page (R234, R236).
-/

namespace Sys2Proof.Machine

section
variable {s t u : State} {c : Nat} {p : Partition}

/-! ## Copies within the own range -/

/-- From `s` to `t` the `n` bytes from `a` on were written, with those from `x` on where these lie in the own range and apart from them. -/
structure Copies (p : Partition) (x a n : Nat) (s t : State) : Prop where
  writes : OwnWrites p (Within a n) s t
  bytes : x + n ≤ p.taSize → x + n ≤ a ∨ a + n ≤ x → a + n ≤ p.taSize → ∀ i, i < n → t.byteAt p (a + i) = s.byteAt p (x + i)

/-- What changes no byte of memory copies nothing. -/
theorem LarderFrame.copies_none (h : LarderFrame s t) (hm : t.hbm = s.hbm) (hw : nwf s.hbm = true) (x a : Nat) : Copies p x a 0 s t :=
  ⟨h.ownWrites hm hw, fun _ _ _ _ hi => absurd hi (Nat.not_lt_zero _)⟩

/-- A copy goes on where another one ended. -/
theorem Copies.append {x a k m : Nat} (h : Copies p x a k s u) (g : Copies p (x + k) (a + k) m u t) : Copies p x a (k + m) s t where
  writes := (h.writes.mono fun _ ⟨hlo, hhi⟩ => ⟨hlo, by omega⟩).trans (g.writes.mono fun _ ⟨hlo, hhi⟩ => ⟨by omega, by omega⟩)
  bytes hx hapart ha i hi := by
    by_cases hk : i < k
    · rw [g.writes.bytes (a + i) (by omega) fun ⟨hlo, _⟩ => by omega]
      exact h.bytes (by omega) (by omega) (by omega) i hk
    · obtain ⟨j, rfl⟩ := Nat.exists_eq_add_of_le (Nat.le_of_not_lt hk)
      have hnew := g.bytes (by omega) (by omega) (by omega) j (by omega)
      rw [Nat.add_assoc, Nat.add_assoc] at hnew
      rw [hnew]
      exact h.writes.bytes _ (by omega) fun ⟨hlo, hhi⟩ => by omega

/-! ## The lines and blocks of a copy -/

/-- Line `q` of the block of `n` bytes at `a`, with what the unit's digest takes in. -/
def State.copyLine (c src dst a n : Nat) (r : State × List Byte × Nat) (q : Nat) : State × List Byte × Nat :=
  match r.1.taFetch c (src + (a - dst + 64 * q)) (min 64 (n - 64 * q)) with
  | (some (bs, bad), s) => (s.taWrite c (dst + (a - dst + 64 * q)) bs bad, r.2.1 ++ bs, r.2.2 + bad.toNat * 2 ^ q)
  | (none, s) => (s, r.2.1, r.2.2)

/-- One block of a copy. -/
def State.copyBlock (c src dst : Nat) (s : State) (b : Nat × Nat) : State :=
  let r := (List.range (ceilDiv b.2 64)).foldl (State.copyLine c src dst b.1 b.2) (s, [], 0)
  r.1.unitWrite c b.1 r.2.1 r.2.2 0

theorem State.copyBytes_eq (old new k : Nat) : s.copyBytes c p old new k =
    (cut256 (p.poolBase + new * p.granuleBytes) (2 ^ k * p.granuleBytes)).foldl
      (State.copyBlock c (p.poolBase + old * p.granuleBytes) (p.poolBase + new * p.granuleBytes)) s := rfl

theorem State.unitWrite_frame (a bad cnt : Nat) (bs : List Byte) : s.unitWrite c a bs bad cnt = { s with twin := (s.unitWrite c a bs bad cnt).twin } :=
  ite_of_both (Q := fun u : State => u = { s with twin := u.twin }) rfl rfl

theorem State.unitWrite_larderFrame (a bad cnt : Nat) (bs : List Byte) : LarderFrame s (s.unitWrite c a bs bad cnt) := by
  rw [State.unitWrite_frame]
  rfl

theorem State.unitWrite_hbm (a bad cnt : Nat) (bs : List Byte) : (s.unitWrite c a bs bad cnt).hbm = s.hbm := by
  rw [State.unitWrite_frame]

variable {src dst a n : Nat}

theorem State.copyLine_copies {r : State × List Byte × Nat} {q : Nat} (hp : r.1.part c = some p) (hw : nwf r.1.hbm = true) (hdst : dst ≤ a)
    (hq : 64 * q < n) (ha : a + n ≤ p.taSize) :
    Copies p (src + (a - dst) + 64 * q) (a + 64 * q) (min 64 (n - 64 * q)) r.1 (State.copyLine c src dst a n r q).1 := by
  obtain ⟨s, rest⟩ := r
  have hto : dst + (a - dst + 64 * q) = a + 64 * q := by omega
  have hfetch : OwnWrites p (Within (a + 64 * q) (min 64 (n - 64 * q))) s (s.taFetch c (src + (a - dst + 64 * q)) (min 64 (n - 64 * q))).2 :=
    State.taAccess_ownWrites _ _ _ _ hw
  have hread : (s.taFetch c (src + (a - dst + 64 * q)) (min 64 (n - 64 * q))).1 = s.taRead c (src + (a - dst) + 64 * q) (min 64 (n - 64 * q)) := by
    rw [Nat.add_assoc src]; rfl
  have hhbm : (s.taFetch c (src + (a - dst + 64 * q)) (min 64 (n - 64 * q))).2.hbm = s.hbm := by
    show (s.taAccess c _ _ false .plain).hbm = s.hbm
    rw [State.taAccess_frame]
  have hpart := hfetch.part.trans hp
  unfold State.copyLine
  generalize src + (a - dst) + 64 * q = x at hread
  generalize s.taFetch c (src + (a - dst + 64 * q)) (min 64 (n - 64 * q)) = e at hfetch hread hhbm hpart
  generalize hm : min 64 (n - 64 * q) = m at hfetch hread
  obtain ⟨o, u⟩ := e
  cases o with
  | none =>
    refine ⟨hfetch, fun hx _ _ i hi => ?_⟩
    obtain ⟨bad, hsome⟩ := State.taRead_own (s := s) hp (show 0 < m by omega) hx
    rw [hsome] at hread
    cases hread
  | some v =>
    obtain ⟨bs, bad⟩ := v
    have hlen : bs.length = m := State.length_taRead hread.symm
    obtain ⟨hwrites, hback⟩ := State.taWrite_own hpart hfetch.wf bs bad (a := a + 64 * q) (by omega)
    rw [hlen] at hwrites hback
    dsimp only
    rw [hto]
    refine ⟨hfetch.trans hwrites, fun hx _ _ i hi => ?_⟩
    obtain ⟨bad', hsome⟩ := State.taRead_own (s := s) hp (show 0 < m by omega) hx
    obtain rfl : bs = s.ownBytes p x m := congrArg Prod.fst (Option.some.inj (hread.trans hsome))
    have hi' : i < (State.ownBytes (u.taWrite c (a + 64 * q) (s.ownBytes p x m) bad) p (a + 64 * q) m).length := by simpa using hi
    rw [← State.getElem_ownBytes hi', ← State.getElem_ownBytes (s := s) (p := p) (a := x) (n := m) (by simpa using hi)]
    simp only [hback]

theorem State.copyBlock_copies (hp : s.part c = some p) (hw : nwf s.hbm = true) (hdst : dst ≤ a) (ha : a + n ≤ p.taSize) :
    Copies p (src + (a - dst)) a n s (State.copyBlock c src dst s (a, n)) := by
  have hlines : ∀ m, 64 * m < n + 64 →
      Copies p (src + (a - dst)) a (min n (64 * m)) s ((List.range m).foldl (State.copyLine c src dst a n) (s, [], 0)).1 := fun m => by
    induction m with
    | zero =>
      rw [Nat.mul_zero, Nat.min_zero]
      exact fun _ => (LarderFrame.refl s).copies_none rfl hw _ _
    | succ m ih =>
      intro hm
      have hbefore := ih (by omega)
      rw [List.range_succ, List.foldl_append, List.foldl_cons, List.foldl_nil]
      generalize (List.range m).foldl (State.copyLine c src dst a n) (s, [], 0) = r at hbefore
      have hline := State.copyLine_copies (src := src) (hbefore.writes.part.trans hp) hbefore.writes.wf hdst (show 64 * m < n by omega) ha
      rw [show min n (64 * m) = 64 * m by omega] at hbefore
      rw [show min n (64 * (m + 1)) = 64 * m + min 64 (n - 64 * m) by omega]
      exact hbefore.append hline
  have hall := hlines (ceilDiv n 64) (by unfold ceilDiv; omega)
  rw [show min n (64 * ceilDiv n 64) = n by unfold ceilDiv; omega] at hall
  exact hall.append ((State.unitWrite_larderFrame _ _ _ _).copies_none (State.unitWrite_hbm _ _ _ _) hall.writes.wf _ _)

theorem State.foldl_copyBlock_copies {l : List (Nat × Nat)} (hp : s.part c = some p) (hw : nwf s.hbm = true) (hdst : dst ≤ a)
    (h : CutsBytes a n l) (ha : a + n ≤ p.taSize) : Copies p (src + (a - dst)) a n s (l.foldl (State.copyBlock c src dst) s) := by
  induction l generalizing s a n with
  | nil =>
    obtain rfl : n = 0 := h
    exact (LarderFrame.refl s).copies_none rfl hw _ _
  | cons b l ih =>
    obtain ⟨b, k⟩ := b
    obtain ⟨rfl, -, hk, -, hl⟩ := h
    have hfirst := State.copyBlock_copies (src := src) hp hw hdst (show b + k ≤ p.taSize by omega)
    have hrest := ih (hfirst.writes.part.trans hp) hfirst.writes.wf (show dst ≤ b + k by omega) hl (by omega)
    rw [show src + (b + k - dst) = src + (b - dst) + k by omega] at hrest
    rw [List.foldl_cons, ← Nat.add_sub_cancel' hk]
    exact hfirst.append hrest

/-- The bytes of page `old` copied to page `new`. -/
theorem State.copyBytes_copies {old new k : Nat} (hp : s.part c = some p) (hw : nwf s.hbm = true)
    (hnew : p.poolBase + new * p.granuleBytes + 2 ^ k * p.granuleBytes ≤ p.taSize) :
    Copies p (p.poolBase + old * p.granuleBytes) (p.poolBase + new * p.granuleBytes) (2 ^ k * p.granuleBytes) s (s.copyBytes c p old new k) := by
  have h := State.foldl_copyBlock_copies (src := p.poolBase + old * p.granuleBytes) hp hw (Nat.le_refl _) (cut256_cuts _ _) hnew
  rw [Nat.sub_self, Nat.add_zero] at h
  exact h

theorem State.copyBytes_lrd (old new k : Nat) : (s.copyBytes c p old new k).lrd = s.lrd := by
  rw [State.copyBytes_eq]
  refine foldl_inv (Q := fun u : State => u.lrd = s.lrd) (fun u b hu => ?_) rfl
  rw [State.copyBlock, State.unitWrite_frame]
  refine foldl_inv (Q := fun r : State × List Byte × Nat => r.1.lrd = s.lrd) (fun r q hr => ?_) hu
  have hfetch : (r.1.taFetch c (p.poolBase + old * p.granuleBytes + (b.1 - (p.poolBase + new * p.granuleBytes) + 64 * q))
      (min 64 (b.2 - 64 * q))).2.lrd = s.lrd := by
    show (r.1.taAccess c _ _ false .plain).lrd = s.lrd
    rw [State.taAccess_frame]
    exact hr
  unfold State.copyLine
  split
  next he => rw [State.taWrite_lrd]; rw [he] at hfetch; exact hfetch
  next he => rw [he] at hfetch; exact hfetch

end

end Sys2Proof.Machine
end

section
/-!
PROOFS. Commands: what a command reads as after a change of it, and its end when it sends no signal (R386, R403, R453).
-/

namespace Sys2Proof.Machine

/-! ## A command after a change of it -/

theorem find?_map_update {α : Type} (q : α → Bool) (f : α → α) (hf : ∀ y, q (f y) = q y) (l : List α) :
    (l.map fun x => if q x then f x else x).find? q = (l.find? q).map f := by
  induction l with
  | nil => rfl
  | cons x l ih =>
    cases hx : q x with
    | false => simp [hx, ih]
    | true => simp [hx, hf]

theorem getElem?_lupd_same {α : Type} (xs : List α) (i : Nat) (f : α → α) : (lupd xs i f)[i]? = xs[i]?.map f := by
  rw [lupd, List.getElem?_map, List.getElem?_zipIdx]
  cases xs[i]? <;> simp

section
variable {s t u : State} {c : Nat} {ref : CmdRef} {x : RCmd}

theorem State.cmd_congr (h : t.front = s.front) : t.cmd c ref = s.cmd c ref := by
  cases ref <;> simp only [State.cmd, State.ringSt, State.launch, State.item, h]

theorem State.ringSt_updRing_same {r : Nat} (f : RingSt → RingSt) (h : 8 * c + r < 128) : (s.updRing c r f).ringSt c r = f (s.ringSt c r) := by
  simp only [State.ringSt, State.updRing, h, dif_pos]
  exact vupd_get_same _ h _

theorem State.launch_updLaunch_same {ring : Option Nat} {key : Nat} (f : Launch → Launch) (hf : ∀ l, (f l).is c ring key = l.is c ring key) :
    (s.updLaunch c ring key f).launch c ring key = (s.launch c ring key).map f := find?_map_update _ f hf _

theorem State.item_updItem_same {n : Nat} (f : Item → Item) (hf : ∀ y, (f y).n = y.n) : (s.updItem n f).item n = (s.item n).map f :=
  find?_map_update _ f (fun y => by rw [hf]) _

/-- A command reads as changed, when the change keeps its number. -/
theorem State.cmd_updCmd_same {f : RCmd → RCmd} (hf : ∀ y, (f y).csn = y.csn) (hx : s.cmd c ref = some x) :
    (s.updCmd c ref f).cmd c ref = some (f x) := by
  cases ref with
  | ring r csn =>
    have hr : 8 * c + r < 128 := by
      by_contra hr
      simp [State.cmd, State.ringSt, hr, RingSt.reset] at hx
    simp only [State.cmd] at hx ⊢
    rw [State.updCmd, State.ringSt_updRing_same _ hr]
    dsimp only
    rw [find?_map_update _ f (fun y => by rw [hf]), hx]
    rfl
  | stored ring key i =>
    obtain ⟨l, hl, hi⟩ := Option.bind_eq_some_iff.mp hx
    rw [State.cmd, State.updCmd, State.launch_updLaunch_same, hl, Option.map_some, Option.bind_some, getElem?_lupd_same, hi]
    · rfl
    · exact fun _ => rfl
  | item n i =>
    obtain ⟨y, hy, hi⟩ := Option.bind_eq_some_iff.mp hx
    obtain ⟨hitem, htenant⟩ := Option.filter_eq_some_iff.mp hy
    rw [State.cmd, State.updCmd, State.item_updItem_same, hitem, Option.map_some, Option.filter_some, if_pos htenant,
      Option.bind_some, getElem?_lupd_same, hi]
    · rfl
    · exact fun _ => rfl

/-- A command that dispatches runs, and nothing but the front end changes (R385). -/
theorem State.begin_spec (tile : Option Nat) (hx : s.cmd c ref = some x) :
    ∃ f, s.begin_ c ref tile = { s with front := f } ∧
      (s.begin_ c ref tile).cmd c ref = some { x with st := .running, tick := s.beat, tile := tile } := by
  have hupd : (s.updCmd c ref fun y => { y with st := .running, tick := s.beat, tile := tile }).cmd c ref =
      some { x with st := .running, tick := s.beat, tile := tile } := State.cmd_updCmd_same (fun _ => rfl) hx
  cases ref with
  | ring r csn => exact ⟨_, rfl, hupd⟩
  | stored ring key i =>
    refine ⟨_, rfl, ?_⟩
    obtain ⟨l, hl, hi⟩ := Option.bind_eq_some_iff.mp hupd
    rw [State.begin_, State.cmd, State.launch_updLaunch_same, hl]
    · exact hi
    · exact fun _ => rfl
  | item n i =>
    refine ⟨_, rfl, ?_⟩
    obtain ⟨y, hy, hi⟩ := Option.bind_eq_some_iff.mp hupd
    obtain ⟨hitem, htenant⟩ := Option.filter_eq_some_iff.mp hy
    rw [State.begin_, State.cmd, State.item_updItem_same, hitem, Option.map_some, Option.filter_some, if_pos htenant]
    · exact hi
    · exact fun _ => rfl

/-! ## The end of a command that sends no signal -/

/-- From `s` to `t` nothing changes but the front end and the tiles. -/
def FrontOnly (s t : State) : Prop := t = { s with front := t.front, tiles := t.tiles }

theorem FrontOnly.refl (s : State) : FrontOnly s s := rfl

theorem FrontOnly.trans (h : FrontOnly s t) (g : FrontOnly t u) : FrontOnly s u := by
  unfold FrontOnly at *
  rw [g, h]

theorem FrontOnly.ite {q : Prop} [Decidable q] (ht : FrontOnly s t) (hu : FrontOnly s u) : FrontOnly s (if q then t else u) := ite_of_both ht hu

theorem State.updCmd_frontOnly (f : RCmd → RCmd) : FrontOnly s (s.updCmd c ref f) := by
  cases ref <;> rfl

theorem State.startScatter_frontOnly (n : Nat) : FrontOnly s (s.startScatter n) := by
  unfold State.startScatter
  split
  · exact .refl s
  · split
    · rfl
    · exact .refl s

theorem State.endLaunch_frontOnly (ring : Option Nat) (key : Nat) : FrontOnly s (s.endLaunch c ring key) := by
  have hrelease (recipe buf : Nat) : FrontOnly s (s.releaseBuf recipe buf) := by
    unfold State.releaseBuf
    split <;> rfl
  unfold State.endLaunch
  split
  next l r _ =>
    have hfreed := hrelease l.recipe l.buf
    generalize s.releaseBuf l.recipe l.buf = v at hfreed
    refine .ite (hfreed.trans (FrontOnly.trans (t := { v with front := _ }) rfl (State.updCmd_frontOnly _))) (.refl s)
  · exact .refl s

theorem State.endCmd_frontOnly (hx : s.cmd c ref = some x) (hq : Quiet ref x) : FrontOnly s (s.endCmd c ref) := by
  have hdone : FrontOnly s (s.updCmd c ref RCmd.finish) := State.updCmd_frontOnly _
  have hcmd : (s.updCmd c ref RCmd.finish).cmd c ref = some x.finish := State.cmd_updCmd_same (fun _ => rfl) hx
  have hsig : (s.updCmd c ref RCmd.finish).storedSig c ref = s.updCmd c ref RCmd.finish := by
    rcases hq with ⟨r, csn, rfl⟩ | hq
    · rfl
    · unfold State.storedSig
      split
      next y _ hy =>
        rw [hcmd] at hy
        obtain rfl := Option.some.inj hy
        have hno : x.finish.sig = false := hq
        rw [hno]
        rfl
      next => rfl
  unfold State.endCmd
  rw [hsig]
  generalize s.updCmd c ref RCmd.finish = v at hdone
  dsimp only
  split
  · refine FrontOnly.trans ?_ (State.endLaunch_frontOnly _ _)
    split
    · exact hdone.trans (State.updCmd_frontOnly _)
    · exact hdone
  · exact hdone

/-- The end of a command that sends no signal changes the front end and the tiles alone. -/
theorem State.endWork_frontOnly (hx : s.cmd c ref = some x) (hq : Quiet ref x) (hitem : ∀ n i, ref = .item n i → i < 256) :
    FrontOnly s (s.endWork c ref) := by
  unfold State.endWork
  split
  next n => exact absurd (hitem n 256 rfl) (by decide)
  next n => exact absurd (hitem n 257 rfl) (by decide)
  next n => exact absurd (hitem n 258 rfl) (by decide)
  next n i _ _ _ =>
    have hdone : FrontOnly s (s.updCmd c (.item n i) RCmd.finish) := State.updCmd_frontOnly _
    dsimp only
    split
    · exact .ite (hdone.trans (State.startScatter_frontOnly n)) hdone
    · exact hdone
  · exact State.endCmd_frontOnly hx hq

/-- A ring's command that has ended. -/
theorem State.endWork_ring_cmd {r csn : Nat} (hx : s.cmd c (.ring r csn) = some x) :
    (s.endWork c (.ring r csn)).cmd c (.ring r csn) = some x.finish :=
  State.cmd_updCmd_same (f := RCmd.finish) (fun _ => rfl) hx

/-! ## Whatever ends leaves the sessions and pools -/

/-- From `s` to `t` the Larder and the units of COMPARE stay. -/
def KeepsLarder (s t : State) : Prop := t.lrd = s.lrd ∧ ∀ n, (t.twinSt n).units = (s.twinSt n).units

theorem KeepsLarder.refl (s : State) : KeepsLarder s s := ⟨rfl, fun _ => rfl⟩

theorem KeepsLarder.trans (h : KeepsLarder s t) (g : KeepsLarder t u) : KeepsLarder s u :=
  ⟨g.1.trans h.1, fun n => (g.2 n).trans (h.2 n)⟩

theorem KeepsLarder.ite {q : Prop} [Decidable q] (ht : KeepsLarder s t) (hu : KeepsLarder s u) : KeepsLarder s (if q then t else u) :=
  ite_of_both ht hu

theorem KeepsLarder.foldl {α : Type} {f : State → α → State} {l : List α} (hf : ∀ u x, KeepsLarder u (f u x)) (s : State) :
    KeepsLarder s (l.foldl f s) :=
  foldl_inv (Q := KeepsLarder s) (fun u x h => h.trans (hf u x)) (.refl s)

theorem KeepsLarder.of_eq (hl : t.lrd = s.lrd) (ht : t.twin = s.twin) : KeepsLarder s t :=
  ⟨hl, fun n => by rw [State.twinSt, State.twinSt, ht]⟩

theorem Reports.keepsLarder (h : Reports s t) : KeepsLarder s t := .of_eq h.lrd h.twin

theorem LinkOnly.keepsLarder (h : LinkOnly s t) : KeepsLarder s t := by
  rw [LinkOnly] at h
  rw [h]
  exact .of_eq rfl rfl

theorem FrontOnly.keepsLarder (h : FrontOnly s t) : KeepsLarder s t := by
  rw [FrontOnly] at h
  rw [h]
  exact .of_eq rfl rfl

theorem State.twinSt_updTwin_same (f : TwinSt → TwinSt) (hc : c < 16) : (s.updTwin c f).twinSt c = f (s.twinSt c) := by
  simp only [State.twinSt, State.updTwin, hc, dif_pos]
  exact vupd_get_same _ hc _

theorem State.twinSt_updTwin_other (f : TwinSt → TwinSt) {n : Nat} (hn : n ≠ c) : (s.updTwin c f).twinSt n = s.twinSt n := by
  unfold State.twinSt State.updTwin
  split
  next h => exact vupd_get_other _ h _ hn
  next => rfl

/-- A change of the twin's notes that leaves the units. -/
theorem State.updTwin_keepsLarder {f : TwinSt → TwinSt} (hf : ∀ y, (f y).units = y.units) : KeepsLarder s (s.updTwin c f) := by
  refine ⟨rfl, fun n => ?_⟩
  by_cases hn : n = c
  · subst hn
    by_cases hlt : n < 16
    · rw [State.twinSt_updTwin_same _ hlt, hf]
    · simp only [State.twinSt, hlt, dif_neg, not_false_eq_true]
  · rw [State.twinSt_updTwin_other _ hn]

theorem State.freeze_keepsLarder (peer : Bool) : KeepsLarder s (s.freeze c peer) := by
  unfold State.freeze
  extract_lets s0 s1 s2 recov s3 s4
  have h0 : KeepsLarder s s0 := State.updTwin_keepsLarder fun _ => rfl
  have h1 : KeepsLarder s s1 := h0.trans (s0.setFld_reports _ _ _ _).keepsLarder
  have h2 : KeepsLarder s s2 := h1.trans (.foldl (fun u r => .ite (u.setFld_reports _ _ _ _).keepsLarder (.refl u)) s1)
  have h3 : KeepsLarder s s3 := h2.trans (.of_eq rfl rfl)
  have h4 : KeepsLarder s s4 := h3.trans ((s3.tntEvent_reports c 0).trans (State.modEvent_reports _ 3)).keepsLarder
  exact .ite h0 (.ite (h4.trans (s4.sendTwin_linkOnly _ _).keepsLarder) h4)

theorem State.raise_keepsLarder (code : Nat) (i : Info) : KeepsLarder s (s.raise c code i) := by
  have he : KeepsLarder s (s.enter c code i) := (s.enter_reports c code i).keepsLarder
  unfold State.raise
  split
  · exact he.trans (State.freeze_keepsLarder _)
  · exact he.trans (State.freeze_keepsLarder _)
  · exact he

theorem State.pushLog_keepsLarder (es : List (List Byte)) : KeepsLarder s (s.pushLog c es) := by
  unfold State.pushLog
  extract_lets first logs v
  have hv : KeepsLarder s v := .of_eq rfl rfl
  exact .ite (hv.trans (v.tntEvent_reports _ _).keepsLarder) hv

theorem State.signal_keepsLarder (ring : Nat) (e : List Byte) (w : Waiter) : KeepsLarder s (s.signal c ring e w).1 := by
  unfold State.signal
  extract_lets v member pair op ctr dst
  clear_value dst
  split
  · split
    · exact .of_eq rfl rfl
    · exact .of_eq rfl rfl
  · cases dst with
    | none => exact .of_eq rfl rfl
    | some d =>
      dsimp only
      split
      · exact .ite (.of_eq rfl rfl) (.of_eq rfl rfl)
      · split
        next hp => exact (s.sendPacket_linkOnly _ _ _ _ hp).keepsLarder
        next => exact .of_eq rfl rfl

theorem State.sigAct_lrd (r i seq tick : Nat) (out : Bool) : (s.sigAct c r i seq tick out).lrd = s.lrd := by
  unfold State.sigAct
  split
  · exact (State.raise_keepsLarder _ _).1
  · extract_lets e
    refine ite_of_both (Q := fun u : State => u.lrd = s.lrd) rfl ?_
    exact ite_of_both (Q := fun u : State => u.lrd = s.lrd) (State.pushLog_keepsLarder _).1 (State.signal_keepsLarder _ _ _).1

theorem State.updCmd_lrd (f : RCmd → RCmd) : (s.updCmd c ref f).lrd = s.lrd := (State.updCmd_frontOnly f).keepsLarder.1

theorem State.endCmd_lrd : (s.endCmd c ref).lrd = s.lrd := by
  have hsig : ((s.updCmd c ref RCmd.finish).storedSig c ref).lrd = s.lrd := by
    refine Eq.trans ?_ (State.updCmd_lrd (s := s) (c := c) (ref := ref) RCmd.finish)
    unfold State.storedSig
    split
    · exact ite_of_both (Q := fun u : State => u.lrd = _) (State.sigAct_lrd _ _ _ _ _) rfl
    · rfl
  unfold State.endCmd
  generalize (s.updCmd c ref RCmd.finish).storedSig c ref = v at hsig
  dsimp only
  split
  · refine (State.endLaunch_frontOnly _ _).keepsLarder.1.trans ?_
    split
    · exact (State.updCmd_lrd _).trans hsig
    · exact hsig
  · exact hsig

theorem State.endItem_lrd (n : Nat) : (s.endItem n).lrd = s.lrd := by
  unfold State.endItem
  split
  · rfl
  next x _ =>
    extract_lets u1 front u2
    have h2 : u2.lrd = s.lrd := foldl_inv (Q := fun u : State => u.lrd = s.lrd) (fun u y hu => (State.updCmd_lrd _).trans hu) rfl
    clear_value u2
    split
    refine ite_of_both (Q := fun u : State => u.lrd = s.lrd) ?_ h2
    exact State.endCmd_lrd.trans ((State.event_lrd _ _ _ _ _ _ _).trans h2)

theorem State.endWork_lrd : (s.endWork c ref).lrd = s.lrd := by
  unfold State.endWork
  split
  · rfl
  · rfl
  · exact State.endItem_lrd _
  next n i _ _ _ =>
    have hdone : (s.updCmd c (.item n i) RCmd.finish).lrd = s.lrd := State.updCmd_lrd _
    dsimp only
    split
    · exact ite_of_both (Q := fun u : State => u.lrd = s.lrd) ((State.startScatter_frontOnly n).keepsLarder.1.trans hdone) hdone
    · exact hdone
  · exact State.endCmd_lrd

end

end Sys2Proof.Machine
end

section
/-!
PROOFS. Larder and session commands in turn: how one dispatches, what its notes to the twin leave, and how it ends (R216, R240).
-/

namespace Sys2Proof.Machine

/-! ## Packets that are held (R339) -/

section
variable {s t : State}

/-- The packets that something may still wait for. -/
def State.heldPkts (s : State) : List Packet := s.unackedPkts.map (·.pkt)

theorem State.heldPkts_congr (hh : t.lnk.held = s.lnk.held) (hl : t.lnk.later = s.lnk.later) (ho : t.lnk.lost = s.lnk.lost) :
    t.heldPkts = s.heldPkts := by
  rw [State.heldPkts, State.heldPkts, State.unackedPkts, State.unackedPkts, hh, hl, ho]

theorem State.freeBuffer_heldPkts (port seq vc : Nat) : (s.freeBuffer port seq vc).heldPkts = s.heldPkts :=
  ite_of_both (Q := fun u : State => u.heldPkts = s.heldPkts) rfl rfl

theorem State.sendOne_heldPkts (port : Nat) (pkt : Packet) (what : Queued ⊕ HeldPkt) : (s.sendOne port pkt what).heldPkts = s.heldPkts := by
  have hemit : (s.emit port pkt).lnk.held = s.lnk.held ∧ (s.emit port pkt).lnk.later = s.lnk.later ∧ (s.emit port pkt).lnk.lost = s.lnk.lost :=
    ⟨rfl, rfl, rfl⟩
  unfold State.sendOne
  generalize s.emit port pkt = u at hemit
  obtain ⟨hheld, hlater, hlost⟩ := hemit
  cases what with
  | inl q =>
    have hq (f : Port → Port) : (u.updPort port f).heldPkts = s.heldPkts := State.heldPkts_congr hheld hlater hlost
    dsimp only
    split
    · rw [State.freeBuffer_heldPkts, hq]
    · rw [hq]
  | inr h =>
    simp only [State.heldPkts, State.unackedPkts, hheld, hlater, hlost, List.map_append, List.map_map]
    congr 2
    refine List.map_congr_left fun x _ => ?_
    dsimp only [Function.comp]
    split <;> rfl

theorem State.sendAll_heldPkts (port fuel : Nat) : (s.sendAll port fuel).heldPkts = s.heldPkts := by
  induction fuel generalizing s with
  | zero => rfl
  | succ fuel ih =>
    unfold State.sendAll
    refine ite_of_both (Q := fun u : State => u.heldPkts = s.heldPkts) rfl ?_
    split
    · rfl
    · split
      · rfl
      · rw [ih, State.sendOne_heldPkts]
        rfl

/-- A packet that is sent is held, or waits for room, and those that were held still are. -/
theorem State.sendPacket_heldPkts {p : Packet} {pair twin : Bool} {w : Waiter} (h : s.sendPacket p pair w twin = some t) :
    (∀ y ∈ s.heldPkts, y ∈ t.heldPkts) ∧ ∃ y ∈ t.heldPkts, y.dst = p.dst ∧ y.vc = p.vc ∧ y.ctl = p.ctl := by
  unfold State.sendPacket at h
  obtain ⟨q, -, rfl⟩ := Option.map_eq_some_iff.mp h
  extract_lets x
  refine ite_of_both (Q := fun u : State =>
    (∀ y ∈ s.heldPkts, y ∈ u.heldPkts) ∧ ∃ y ∈ u.heldPkts, y.dst = p.dst ∧ y.vc = p.vc ∧ y.ctl = p.ctl) ?_ ?_
  · have hmem (y : Packet) : y ∈ State.heldPkts { s with lnk := { s.lnk with later := s.lnk.later ++ [x] } } ↔ y ∈ s.heldPkts ∨ y = x.pkt := by
      simp only [State.heldPkts, State.unackedPkts, List.map_append, List.mem_append, List.map_cons, List.map_nil, List.mem_singleton]
      tauto
    exact ⟨fun y hy => (hmem y).mpr (.inl hy), x.pkt, (hmem _).mpr (.inr rfl), rfl, rfl, rfl⟩
  · have hmem (tag : Nat) (l : List (Nat × Nat)) (y : Packet) : y ∈ State.heldPkts { s with lnk :=
        { s.lnk with nextTag := l, held := s.lnk.held ++ [{ x with pkt := { x.pkt with tag := tag } }] } } ↔
        y ∈ s.heldPkts ∨ y = { x.pkt with tag := tag } := by
      simp only [State.heldPkts, State.unackedPkts, List.map_append, List.mem_append, List.map_cons, List.map_nil, List.mem_singleton]
      tauto
    unfold State.holdPacket State.flushPort
    rw [State.sendAll_heldPkts]
    exact ⟨fun y hy => (hmem _ _ y).mpr (.inl hy), _, (hmem _ _ _).mpr (.inr rfl), rfl, rfl, rfl⟩

theorem State.sendTwin_heldPkts (vc : Nat) (m : Ctl) : ∀ y ∈ s.heldPkts, y ∈ (s.sendTwin vc m).heldPkts := by
  unfold State.sendTwin
  extract_lets p
  cases h : s.sendPacket p false .free m.onTwinPort with
  | none => exact fun _ hy => hy
  | some t => exact (State.sendPacket_heldPkts h).1

end

/-! ## Notes for the twin (R243, R475, R476) -/

/-- What a command's notes for the twin change: the twin's notes, the links and what was sent; held packets stay held. -/
structure NotesOnly (s t : State) : Prop where
  frame : t = { s with twin := t.twin, lnk := t.lnk, outbox := t.outbox }
  held : ∀ y ∈ s.heldPkts, y ∈ t.heldPkts

section
variable {s t u : State} {c : Nat} {ref : CmdRef} {x : RCmd} {p : Partition} {op : Nat} {sub : Option Nat}

theorem NotesOnly.refl (s : State) : NotesOnly s s := ⟨rfl, fun _ h => h⟩

theorem NotesOnly.trans (h : NotesOnly s t) (g : NotesOnly t u) : NotesOnly s u where
  frame := by
    have hf := h.frame
    have gf := g.frame
    rw [gf, hf]
  held y hy := g.held y (h.held y hy)

theorem NotesOnly.ite {q : Prop} [Decidable q] (ht : NotesOnly s t) (hu : NotesOnly s u) : NotesOnly s (if q then t else u) := ite_of_both ht hu

theorem NotesOnly.front (h : NotesOnly s t) : t.front = s.front := by
  rw [h.frame]

theorem State.updTwin_notesOnly (f : TwinSt → TwinSt) : NotesOnly s (s.updTwin c f) := ⟨rfl, fun _ h => h⟩

theorem State.touch_notesOnly (n : Nat) : NotesOnly s (s.touch c n) := .ite (.refl s) (s.updTwin_notesOnly _)

theorem State.mirror_notesOnly (r : MirRec) : NotesOnly s (s.mirror c r) := by
  refine .ite ⟨?_, State.sendTwin_heldPkts _ _⟩ (.refl s)
  have h := s.sendTwin_linkOnly 3 (.mirror c r)
  unfold LinkOnly at h
  rw [h]

/-! ## A command that is applied -/

/-- The state in which a command is applied: the front end has begun it, and it waits no longer. -/
def State.entered (s : State) (waits : List (Nat × CmdRef)) (front : Front) : State :=
  { s with lrd := { s.lrd with waits := waits }, front := front }

@[simp] theorem State.entered_sess (w : List (Nat × CmdRef)) (f : Front) (n : Nat) : (s.entered w f).sess n = s.sess n := rfl

/-- The command as it is applied: it runs since this tick. -/
def RCmd.begun (x : RCmd) (tick : Nat) : RCmd := { x with st := .running, tick := tick, tile := none }

/-- After a command was applied and noted for the twin. -/
theorem State.larderApply_spec (hheld : x.st = .held) (hx : s.cmd c ref = some x) :
    ∃ w f, (s.entered w f).cmd c ref = some (x.begun s.beat) ∧
      ∀ a ended, applyLarder (s.entered w f) c p ref x = (a, ended) → ∃ v, NotesOnly a.s v ∧
        s.larderApply c p ref x =
          if ended then (v.updCmd c ref fun y => { y with status := a.status, detail := a.detail }).endWork c ref else v := by
  let u : State := { s with lrd := { s.lrd with waits := s.lrd.waits.erase (c, ref) } }
  have hxu : u.cmd c ref = some x := (State.cmd_congr rfl).trans hx
  obtain ⟨f, hbegin, hcmd⟩ := State.begin_spec none hxu
  rw [hbegin] at hcmd
  refine ⟨u.lrd.waits, f, hcmd, fun a ended ha => ?_⟩
  have hentry : (if x.st == .held then u.begin_ c ref none else u) = s.entered u.lrd.waits f := by
    rw [hheld, hbegin]; rfl
  unfold State.larderApply
  extract_lets lrd u' v0
  have hv0 : v0 = s.entered u.lrd.waits f := hentry
  rw [hv0, ha]
  dsimp -zeta -zetaHave only
  extract_lets +onlyGivenNames v1 v2 v3
  have h1 : NotesOnly a.s v1 := foldl_inv (Q := NotesOnly a.s) (fun v n hv => hv.trans (v.touch_notesOnly n)) (.refl _)
  have h2 : NotesOnly a.s v2 := h1.trans (v1.mirror_notesOnly _)
  have h3 : NotesOnly a.s v3 := h2.trans (.ite (v2.updTwin_notesOnly _) (.refl _))
  exact ⟨v3, h3, rfl⟩

theorem LarderTurn.held (h : LarderTurn s c ref x p op) : x.st = .held := by
  obtain ⟨⟨-, -, -, -, hturn, -⟩, -⟩ := h
  simp only [State.turn, Bool.and_eq_true] at hturn
  exact beq_iff_eq.mp hturn.1.1.2

/-- A Larder command in turn, fetched before this tick, acts. -/
theorem State.larderStep_of_turn (hin : InTurn s c ref x p) (hop : x.op = op) (hlrd : op ∈ lrdOps) (htick : x.tick < s.beat)
    (hsub : ∀ k, sub = some k → ctlOp x.bytes = k) (hcheck : lrdCheck s c p x = none) : s.larderStep c ref op sub = s.larderAct c ref x := by
  obtain ⟨-, -, hx, hp, hturn, hhead, -⟩ := hin
  have hvalid : validOpc op = true := by
    have hall : ∀ o ∈ lrdOps, validOpc o = true := by decide
    exact hall op hlrd
  have hnew : ¬s.beat ≤ x.tick := Nat.not_le_of_lt htick
  unfold State.larderStep
  rw [hx]
  cases sub with
  | none => simp [hnew, State.dispatch, hx, hp, hturn, hop, hvalid, hhead, hcheck]
  | some k => simp [hsub k rfl, hnew, State.dispatch, hx, hp, hturn, hop, hvalid, hhead, hcheck]

theorem LarderTurn.step (h : LarderTurn s c ref x p op) (hlrd : op ∈ lrdOps) (hsub : ∀ k, sub = some k → ctlOp x.bytes = k) :
    s.larderStep c ref op sub = s.larderApply c p ref x := by
  obtain ⟨hin, hop, htick, hcheck, -, hfree, hwait, hcompare, -⟩ := h
  rw [State.larderStep_of_turn hin hop hlrd htick hsub hcheck]
  have hlead : (s.comparing c && !s.servesPair) = false := by
    cases hc : s.comparing c with
    | false => rfl
    | true => simp [hcompare hc]
  have hnow : s.larderWaits c ref x = false := by
    rw [State.larderWaits, hwait, Bool.or_false, List.any_eq_false]
    exact fun m hm => by simp [(hfree m hm).2]
  obtain ⟨-, -, -, hp, -⟩ := hin
  simp [State.larderAct, hp, hlead, hnow]

/-- What a Larder or session command of each opcode does where the pool is there and no job holds a session that it names. -/
def applyOp (s : State) (c : Nat) (p : Partition) (ref : CmdRef) (b : List Byte) : Nat → Applied × Bool
  | 0x10 => (applyAlloc s c p b, true)
  | 0x11 => (applyFree s c p b, true)
  | 0x12 => (applyShare s c p b, true)
  | 0x13 => (applyCopy s c p b, true)
  | 0x14 => applyFeed s c ref b
  | _ => applyCtl s c p ref b

theorem LarderTurn.apply_eq (h : LarderTurn s c ref x p op) (w : List (Nat × CmdRef)) (f : Front) :
    applyLarder (s.entered w f) c p ref x = applyOp (s.entered w f) c p ref x.bytes op := by
  obtain ⟨-, hop, -, -, hgran, hfree, -⟩ := h
  have hjobs : (x.sessions.any fun n => ((s.entered w f).sess n).jobbed) = false := by
    rw [List.any_eq_false]
    exact fun m hm => by simp [(hfree m hm).1]
  unfold applyLarder
  rw [if_neg hgran, hjobs, if_neg (by decide), hop]
  rfl

/-- What the end of a command changes after it was applied: the twin's notes, the links, what was sent, the front end and the tiles. -/
def AppliedFrame (t u : State) : Prop :=
  u = { t with twin := u.twin, lnk := u.lnk, outbox := u.outbox, front := u.front, tiles := u.tiles }

/-- A command that was applied well and has ended: of the state that it left nothing changes but the notes for the twin and the front end,
and a ring's command is done with status 0 and its detail. -/
theorem LarderTurn.completes_ended (h : LarderTurn s c ref x p op) (hlrd : op ∈ lrdOps) (hsub : ∀ k, sub = some k → ctlOp x.bytes = k)
    {i : Instr} (hexec : exec i s = .next (s.larderStep c ref op sub)) {d : Nat} {R : State → Prop}
    (happly : ∀ w f, ∃ t, applyLarder (s.entered w f) c p ref x = ({ s := t, status := 0, detail := d }, true) ∧ t.front = f ∧ R t) :
    Completes i s fun u => ∃ t, R t ∧ AppliedFrame t u ∧
      ∀ r csn, ref = .ring r csn → ((u.cmd c ref).map fun y => (y.st, y.status, y.detail)) = some (CmdSt.done, 0, d) := by
  have hheld := h.held
  rw [h.step hlrd hsub] at hexec
  obtain ⟨⟨-, -, hx, -, -, -, hitem⟩, -, -, -, -, -, -, -, hquiet, herr, hpois⟩ := h
  obtain ⟨w, f, hcmd, hspec⟩ := State.larderApply_spec (p := p) hheld hx
  obtain ⟨t, ht, hfront, hR⟩ := happly w f
  obtain ⟨v, hnotes, happ⟩ := hspec _ _ ht
  have hvcmd : v.cmd c ref = some (x.begun s.beat) := (State.cmd_congr (hnotes.front.trans hfront)).trans hcmd
  rw [happ, if_pos rfl] at hexec
  have hset : (v.updCmd c ref fun y => { y with status := 0, detail := d }).cmd c ref =
      some { x.begun s.beat with status := 0, detail := d } := State.cmd_updCmd_same (fun _ => rfl) hvcmd
  have hend := (State.updCmd_frontOnly (s := v) (c := c) (ref := ref) fun y => { y with status := 0, detail := d }).trans
    (State.endWork_frontOnly hset hquiet hitem)
  refine ⟨_, hexec, t, hR, ?_, ?_⟩
  · generalize (v.updCmd c ref fun y => { y with status := 0, detail := d }).endWork c ref = u at hend
    have hv := hnotes.frame
    unfold FrontOnly at hend
    unfold AppliedFrame
    rw [hend, hv]
  · rintro r csn rfl
    rw [State.endWork_ring_cmd hset, Option.map_some]
    have hout : RCmd.outcome { x.begun s.beat with status := 0, detail := d } = (0, d) := by
      simp [RCmd.outcome, RCmd.begun, herr, hpois]
    simp only [RCmd.finish, hout]

/-- A ring's command that is done has ended. -/
theorem ended_of_done {d : Nat}
    (h : ∀ r csn, ref = .ring r csn → ((t.cmd c ref).map fun y => (y.st, y.status, y.detail)) = some (CmdSt.done, 0, d)) : Ended t c ref := by
  intro r csn hr
  have hst := congrArg (Option.map Prod.fst) (h r csn hr)
  rw [Option.map_map] at hst
  exact hst

/-- A command that was applied and has ended, whatever its end does: the Larder is as the command left it. -/
theorem LarderTurn.completes_lrd (h : LarderTurn s c ref x p op) (hlrd : op ∈ lrdOps) (hsub : ∀ k, sub = some k → ctlOp x.bytes = k)
    {i : Instr} (hexec : exec i s = .next (s.larderStep c ref op sub)) {R : State → Prop}
    (happly : ∀ w f, ∃ a, applyLarder (s.entered w f) c p ref x = (a, true) ∧ R a.s) :
    Completes i s fun u => ∃ t, R t ∧ u.lrd = t.lrd := by
  have hheld := h.held
  rw [h.step hlrd hsub] at hexec
  obtain ⟨⟨-, -, hx, -⟩, -⟩ := h
  obtain ⟨w, f, -, hspec⟩ := State.larderApply_spec (p := p) hheld hx
  obtain ⟨a, ha, hR⟩ := happly w f
  obtain ⟨v, hnotes, happ⟩ := hspec _ _ ha
  rw [happ, if_pos rfl] at hexec
  refine ⟨_, hexec, a.s, hR, State.endWork_lrd.trans ((State.updCmd_lrd _).trans ?_)⟩
  rw [hnotes.frame]

/-- A command that was applied and goes on: of the state that it left only the notes for the twin change, and a ring's command runs. -/
theorem LarderTurn.completes_running (h : LarderTurn s c ref x p op) (hlrd : op ∈ lrdOps) (hsub : ∀ k, sub = some k → ctlOp x.bytes = k)
    {i : Instr} (hexec : exec i s = .next (s.larderStep c ref op sub)) {R : State → Prop}
    (happly : ∀ w f, ∃ a, applyLarder (s.entered w f) c p ref x = (a, false) ∧ a.s.front = f ∧ R a.s) :
    Completes i s fun u => ∃ t, R t ∧ NotesOnly t u ∧ Running u c ref := by
  have hheld := h.held
  rw [h.step hlrd hsub] at hexec
  obtain ⟨⟨-, -, hx, -⟩, -⟩ := h
  obtain ⟨w, f, hcmd, hspec⟩ := State.larderApply_spec (p := p) hheld hx
  obtain ⟨a, ha, hfront, hR⟩ := happly w f
  obtain ⟨v, hnotes, happ⟩ := hspec _ _ ha
  rw [happ, if_neg (by decide)] at hexec
  refine ⟨_, hexec, a.s, hR, hnotes, fun r csn _ => ?_⟩
  have hv : v.front = (s.entered w f).front := hnotes.front.trans hfront
  rw [State.cmd_congr hv, hcmd]
  rfl

end

end Sys2Proof.Machine
end

section
/-!
PROOFS. Session control: OPEN, SET_SAMPLING, SET_STOP, STOP, CLOSE, TRUNCATE and SESSION_FEED (O53).
-/

namespace Sys2Proof.Machine

section
variable {s t u : State} {c n : Nat} {ref : CmdRef} {x : RCmd} {p : Partition} {d : Sess} {i : Instr}

/-! ## A session's descriptor after a command -/

/-- In `t` session `n` has descriptor `d`, and the other sessions and the delivery counters are as in `s`. -/
structure SessAt (s : State) (n : Nat) (d : Sess) (t : State) : Prop where
  same : t.sess n = d
  other : ∀ m, m ≠ n → t.sess m = s.sess m
  ctrs : t.ctrs = s.ctrs

theorem SessAt.of_eq (h : SessAt s n d t) (hl : u.lrd.sess = t.lrd.sess) (hc : u.ctrs = t.ctrs) : SessAt s n d u where
  same := (State.sess_congr hl n).trans h.same
  other m hm := (State.sess_congr hl m).trans (h.other m hm)
  ctrs := hc.trans h.ctrs

theorem LarderFrame.sessAt (hf : LarderFrame t u) (h : SessAt s n d t) : SessAt s n d u := h.of_eq hf.sess hf.ctrs

theorem AppliedFrame.sessAt (hf : AppliedFrame t u) (h : SessAt s n d t) : SessAt s n d u := by
  unfold AppliedFrame at hf
  exact h.of_eq (by rw [hf]) (by rw [hf])

theorem NotesOnly.sessAt (hf : NotesOnly t u) (h : SessAt s n d t) : SessAt s n d u :=
  h.of_eq (by rw [hf.frame]) (by rw [hf.frame])

theorem SessAt.set (w : List (Nat × CmdRef)) (f : Front) (n : Nat) (d : Sess) : SessAt s n d ((s.entered w f).setSess n d) where
  same := State.sess_setSess_same _ _ _
  other m hm := (State.sess_setSess_other _ _ hm).trans (State.entered_sess _ _ m)
  ctrs := rfl

theorem SessAt.upd {w : List (Nat × CmdRef)} {f : Front} (hf : LarderFrame (s.entered w f) t) (n : Nat) (g : Sess → Sess) :
    SessAt s n (g (s.sess n)) (t.updSess n g) where
  same := (State.sess_updSess_same _ _ _).trans (congrArg g (State.sess_congr hf.sess n))
  other m hm := (State.sess_updSess_other _ _ hm).trans (State.sess_congr hf.sess m)
  ctrs := hf.ctrs

/-- An operation of SESSION_CTL that takes effect, ends, and leaves session `n` with descriptor `d`. -/
theorem LarderTurn.completes_ctl (h : LarderTurn s c ref x p 0x15) {k : Nat} (hk : ctlOp x.bytes = k)
    (hexec : exec i s = .next (s.larderStep c ref 0x15 (some k)))
    (happly : ∀ w f, ∃ t, applyCtl (s.entered w f) c p ref x.bytes = ({ s := t, status := 0, detail := 0 }, true) ∧ t.front = f ∧ SessAt s n d t) :
    Completes i s fun t => t.sess n = d ∧ (∀ m, m ≠ n → t.sess m = s.sess m) ∧ t.ctrs = s.ctrs ∧ Ended t c ref := by
  obtain ⟨u, hu, t, hsess, hframe, hdone⟩ := h.completes_ended (by decide) (fun _ he => Option.some.inj he ▸ hk) hexec
    (d := 0) (R := SessAt s n d) fun w f => by rw [h.apply_eq]; exact happly w f
  obtain ⟨hsame, hother, hctrs⟩ := hframe.sessAt hsess
  exact ⟨u, hu, hsame, hother, hctrs, ended_of_done hdone⟩

/-! ## OPEN, SET_SAMPLING, SET_STOP, TRUNCATE (R228, R239) -/

theorem completes_sessionOpen (h : LarderTurn s c ref x p 0x15) (hop : ctlOp x.bytes = 0) (hidle : (s.sess (pgSession x.bytes)).state = 0)
    (hmin : 16 ≤ fieldAt x.bytes 0x20 4) (hmax : fieldAt x.bytes 0x20 4 ≤ 2097152) (hkmax : fieldAt x.bytes 0x2A 1 ≤ 6)
    (hring : fieldAt x.bytes 0x2B 1 ≤ 7) :
    let d := { Sess.idle with
      state := 1, seed := fieldAt x.bytes 0x18 8, maxlen := fieldAt x.bytes 0x20 4, maxnew := fieldAt x.bytes 0x24 4,
      fineTo := fieldAt x.bytes 0x28 2, kmax := fieldAt x.bytes 0x2A 1, outring := fieldAt x.bytes 0x2B 1, temp := fieldAt x.bytes 0x2C 4,
      topk := fieldAt x.bytes 0x30 2, topp := fieldAt x.bytes 0x34 4, stop := List.replicate 4 0xFFFFFFFF }
    Completes (.sessionOpen c ref) s fun t => t.sess (pgSession x.bytes) = d ∧ (∀ m, m ≠ pgSession x.bytes → t.sess m = s.sess m) ∧
      t.ctrs = s.ctrs ∧ Ended t c ref := by
  intro d
  refine h.completes_ctl hop rfl fun w f => ?_
  have hrange : ¬(fieldAt x.bytes 0x20 4 < 16 ∨ 2097152 < fieldAt x.bytes 0x20 4 ∨ 6 < fieldAt x.bytes 0x2A 1 ∨ 7 < fieldAt x.bytes 0x2B 1) := by
    omega
  have hheaders : LarderFrame ((s.entered w f).setSess (pgSession x.bytes) d) ((List.range p.layers).foldl
      (fun s l => s.taWrite c (p.sessBlock (pgSession x.bytes) + 64 * l) (layerHeader p (pgSession x.bytes) l) false)
      ((s.entered w f).setSess (pgSession x.bytes) d)) := .foldl (fun v _ => v.taWrite_larderFrame _ _ _) _
  refine ⟨_, ?_, hheaders.front, hheaders.sessAt (SessAt.set w f _ d)⟩
  unfold applyCtl
  simp only [hop, applyOpen, State.entered_sess, hidle, ne_eq, not_true_eq_false, if_false, hrange]
  rfl

theorem completes_setSampling (h : LarderTurn s c ref x p 0x15) (hop : ctlOp x.bytes = 1) (hopen : (s.sess (pgSession x.bytes)).state ≠ 0) :
    Completes (.setSampling c ref) s fun t =>
      t.sess (pgSession x.bytes) =
        { s.sess (pgSession x.bytes) with temp := fieldAt x.bytes 0x2C 4, topk := fieldAt x.bytes 0x30 2, topp := fieldAt x.bytes 0x34 4 } ∧
      (∀ m, m ≠ pgSession x.bytes → t.sess m = s.sess m) ∧ t.ctrs = s.ctrs ∧ Ended t c ref := by
  refine h.completes_ctl hop rfl fun w f => ⟨_, ?_, rfl, SessAt.set w f _ _⟩
  unfold applyCtl
  simp only [hop, State.entered_sess, beq_eq_false_iff_ne.mpr hopen]
  rfl

theorem completes_setStop (h : LarderTurn s c ref x p 0x15) (hop : ctlOp x.bytes = 2) (hopen : (s.sess (pgSession x.bytes)).state ≠ 0) :
    Completes (.setStop c ref) s fun t =>
      t.sess (pgSession x.bytes) = { s.sess (pgSession x.bytes) with
        stop := [fieldAt x.bytes 0x18 4, fieldAt x.bytes 0x1C 4, fieldAt x.bytes 0x20 4, fieldAt x.bytes 0x24 4],
        maxnew := fieldAt x.bytes 0x28 4 } ∧
      (∀ m, m ≠ pgSession x.bytes → t.sess m = s.sess m) ∧ t.ctrs = s.ctrs ∧ Ended t c ref := by
  refine h.completes_ctl hop rfl fun w f => ⟨_, ?_, rfl, SessAt.set w f _ _⟩
  unfold applyCtl
  simp only [hop, State.entered_sess, beq_eq_false_iff_ne.mpr hopen]
  rfl

theorem completes_sessionTruncate (h : LarderTurn s c ref x p 0x15) (hop : ctlOp x.bytes = 7)
    (hstate : ((s.sess (pgSession x.bytes)).state = 1 ∧ (s.sess (pgSession x.bytes)).pending = 0) ∨ (s.sess (pgSession x.bytes)).state = 4)
    (hlen : fieldAt x.bytes 0x14 4 ≤ (s.sess (pgSession x.bytes)).length) :
    Completes (.sessionTruncate c ref) s fun t =>
      t.sess (pgSession x.bytes) = { s.sess (pgSession x.bytes) with length := fieldAt x.bytes 0x14 4 } ∧
      (∀ m, m ≠ pgSession x.bytes → t.sess m = s.sess m) ∧ t.ctrs = s.ctrs ∧ Ended t c ref := by
  refine h.completes_ctl hop rfl fun w f => ?_
  have hok : (!(((s.sess (pgSession x.bytes)).state == 1 && (s.sess (pgSession x.bytes)).pending == 0) ||
      (s.sess (pgSession x.bytes)).state == 4)) = false := by
    rcases hstate with ⟨h1, h2⟩ | h1
    · simp [h1, h2]
    · simp [h1]
  let gone := ((s.entered w f).allPages c p (pgSession x.bytes)).filter fun (g, _, _) => decide (ceilDiv (fieldAt x.bytes 0x14 4) 16 ≤ g)
  let freed := gone.foldl (fun s (g, page, k) => s.releasePage c p (pgSession x.bytes) g page k) (s.entered w f)
  have hfree : LarderFrame (s.entered w f) freed := .foldl (fun v _ => v.releasePage_larderFrame _ _) _
  refine ⟨freed.updSess (pgSession x.bytes) fun d => { d with length := fieldAt x.bytes 0x14 4 }, ?_, hfree.front,
    SessAt.upd hfree (pgSession x.bytes) fun d => { d with length := fieldAt x.bytes 0x14 4 }⟩
  unfold applyCtl
  simp only [hop, applyTruncate, State.entered_sess, hok, Nat.not_lt_of_le hlen, if_false, Bool.false_eq_true]
  rfl

/-! ## STOP and CLOSE (R228) -/

/-- A descriptor without queued feeds. -/
def Sess.unfed (d : Sess) : Sess := { d with feeds := [], pending := 0 }

theorem State.dropFeeds_lrd : (s.dropFeeds c n).lrd = (s.updSess n Sess.unfed).lrd := by
  unfold State.dropFeeds
  exact foldl_inv (Q := fun u : State => u.lrd = (s.updSess n Sess.unfed).lrd)
    (fun u f hu => State.endWork_lrd.trans ((State.updCmd_lrd _).trans hu)) rfl

theorem State.dropFeeds_of_nil (h : (s.sess n).feeds = []) : s.dropFeeds c n = s.updSess n Sess.unfed := by
  rw [State.dropFeeds, h]
  rfl

/-- A descriptor stopped by STOP. -/
def Sess.stopped (d : Sess) : Sess := { d with feeds := [], pending := 0, state := 4, reason := 5 }

/-- STOP of a session in PREFILL or DECODE of a stage that forms batches. -/
theorem applyCtl_stop {b : List Byte} (hop : ctlOp b = 3) (hrole : s.fld (tnt c 0x300) 1 2 < 2)
    (hstate : (s.sess (pgSession b)).state = 1 ∨ (s.sess (pgSession b)).state = 2) :
    applyCtl s c p ref b =
      ({ s := (s.dropFeeds c (pgSession b)).updSess (pgSession b) fun d => { d with state := 4, reason := 5 }, status := 0, detail := 0 }, true) := by
  have hno : ¬(2 ≤ s.fld (tnt c 0x300) 1 2 ∨ (!((s.sess (pgSession b)).state == 1 || (s.sess (pgSession b)).state == 2)) = true) := by
    rcases hstate with h1 | h1 <;> simp [h1, hrole]
  unfold applyCtl
  simp only [hop, hno, if_false]

theorem completes_sessionStop_unfed (h : LarderTurn s c ref x p 0x15) (hop : ctlOp x.bytes = 3) (hrole : s.fld (tnt c 0x300) 1 2 < 2)
    (hstate : (s.sess (pgSession x.bytes)).state = 1 ∨ (s.sess (pgSession x.bytes)).state = 2) (hfeeds : (s.sess (pgSession x.bytes)).feeds = []) :
    Completes (.sessionStop c ref) s fun t => t.sess (pgSession x.bytes) = (s.sess (pgSession x.bytes)).stopped ∧
      (∀ m, m ≠ pgSession x.bytes → t.sess m = s.sess m) ∧ t.ctrs = s.ctrs ∧ Ended t c ref := by
  refine h.completes_ctl hop rfl fun w f => ⟨_, applyCtl_stop hop hrole hstate, ?_⟩
  have hdrop : (s.entered w f).dropFeeds c (pgSession x.bytes) = (s.entered w f).updSess (pgSession x.bytes) Sess.unfed :=
    State.dropFeeds_of_nil hfeeds
  have hunfed := SessAt.set (s := s) w f (pgSession x.bytes) (s.sess (pgSession x.bytes)).unfed
  rw [hdrop]
  exact ⟨rfl, (State.sess_updSess_same _ _ _).trans (congrArg (fun d : Sess => { d with state := 4, reason := 5 }) hunfed.same),
    fun m hm => (State.sess_updSess_other _ _ hm).trans (hunfed.other m hm), rfl⟩

theorem completes_sessionStop (h : LarderTurn s c ref x p 0x15) (hop : ctlOp x.bytes = 3) (hrole : s.fld (tnt c 0x300) 1 2 < 2)
    (hstate : (s.sess (pgSession x.bytes)).state = 1 ∨ (s.sess (pgSession x.bytes)).state = 2) :
    Completes (.sessionStop c ref) s fun t => t.sess (pgSession x.bytes) = (s.sess (pgSession x.bytes)).stopped ∧
      ∀ m, m ≠ pgSession x.bytes → t.sess m = s.sess m := by
  obtain ⟨u, hu, t, ⟨hsame, hother⟩, hlrd⟩ := h.completes_lrd (i := .sessionStop c ref) (by decide) (fun _ he => Option.some.inj he ▸ hop) rfl
    (R := fun t => t.sess (pgSession x.bytes) = (s.sess (pgSession x.bytes)).stopped ∧ ∀ m, m ≠ pgSession x.bytes → t.sess m = s.sess m)
    fun w f => by
      refine ⟨_, (h.apply_eq w f).trans (applyCtl_stop hop hrole hstate), ?_⟩
      have hdrop (m : Nat) : ((s.entered w f).dropFeeds c (pgSession x.bytes)).sess m = ((s.entered w f).updSess (pgSession x.bytes) Sess.unfed).sess m :=
        State.sess_congr (congrArg Larder.sess State.dropFeeds_lrd) m
      refine ⟨?_, fun m hm => ?_⟩
      · rw [State.sess_updSess_same, hdrop, State.sess_updSess_same]
        rfl
      · rw [State.sess_updSess_other _ _ hm, hdrop, State.sess_updSess_other _ _ hm]
        rfl
  have hsess (m : Nat) : u.sess m = t.sess m := State.sess_congr (congrArg Larder.sess hlrd) m
  exact ⟨u, hu, (hsess _).trans hsame, fun m hm => (hsess m).trans (hother m hm)⟩

theorem State.releaseAll_larderFrame (n : Nat) : LarderFrame s (s.releaseAll c p n) := .foldl (fun v _ => v.releasePage_larderFrame _ _) _

/-- A closed session's descriptor: IDLE, with no feed queued and no job. -/
def Sess.closed (d : Sess) : Sess :=
  { d with state := 0, reason := 0, prior := 0, evicted := false, migrating := false, nospace := false, feeds := [], pending := 0, atHost := [], job := none,
           ready := none }

/-- In `t` session `n` is closed, and the other sessions are as in `s`. -/
structure ClosedSess (s : State) (n : Nat) (t : State) : Prop where
  same : t.sess n = (s.sess n).closed
  other : ∀ m, m ≠ n → t.sess m = s.sess m

theorem ClosedSess.of_eq (h : ClosedSess s n t) (hl : u.lrd.sess = t.lrd.sess) : ClosedSess s n u where
  same := (State.sess_congr hl n).trans h.same
  other m hm := (State.sess_congr hl m).trans (h.other m hm)

theorem State.closeSess_closed (n : Nat) : ClosedSess s n (s.closeSess c p n) := by
  have hpages : ((s.dropFeeds c n).releaseAll c p n).lrd.sess = (s.updSess n Sess.unfed).lrd.sess :=
    (State.releaseAll_larderFrame n).sess.trans (congrArg Larder.sess State.dropFeeds_lrd)
  have hbefore (m : Nat) := State.sess_congr hpages m
  refine ⟨?_, fun m hm => ?_⟩
  · rw [State.closeSess, State.sess_updSess_same, hbefore, State.sess_updSess_same]
    rfl
  · rw [State.closeSess, State.sess_updSess_other _ _ hm, hbefore, State.sess_updSess_other _ _ hm]

theorem completes_sessionClose (h : LarderTurn s c ref x p 0x15) (hop : ctlOp x.bytes = 4) (hopen : (s.sess (pgSession x.bytes)).state ≠ 0) :
    Completes (.sessionClose c ref) s (ClosedSess s (pgSession x.bytes)) := by
  obtain ⟨u, hu, t, hclosed, hlrd⟩ := h.completes_lrd (i := .sessionClose c ref) (by decide) (fun _ he => Option.some.inj he ▸ hop) rfl
    (R := ClosedSess s (pgSession x.bytes)) fun w f => by
      have hnow : applyCtl (s.entered w f) c p ref x.bytes =
          ({ s := (s.entered w f).closeSess c p (pgSession x.bytes), status := 0, detail := 0 }, true) := by
        unfold applyCtl
        simp only [hop, State.entered_sess, beq_eq_false_iff_ne.mpr hopen]
        rfl
      have hc := State.closeSess_closed (s := s.entered w f) (c := c) (p := p) (pgSession x.bytes)
      exact ⟨_, (h.apply_eq w f).trans hnow, hc.same, hc.other⟩
  exact ⟨u, hu, hclosed.of_eq (congrArg Larder.sess hlrd)⟩

/-! ## SESSION_FEED (R228, R240) -/

/-- A descriptor that a feed has joined. -/
def Sess.fed (d : Sess) (f : Feed) : Sess :=
  { d with
    state := 1, reason := 0, pending := d.pending + f.left, feeds := d.feeds ++ [f],
    feedTa := if d.feeds.any (fun g => g.unread != 0) then d.feedTa else f.addr }

/-- The feed that a command brings. -/
def feedOf (ref : CmdRef) (b : List Byte) : Feed :=
  { ref := ref, addr := fieldAt b 0x18 8, unread := fieldAt b 0x14 4, left := fieldAt b 0x14 4, gen := bitOf (fieldAt b 0x12 1) 0 }

theorem applyFeed_takes {b : List Byte} (hrole : s.fld (tnt c 0x300) 1 2 < 2) (hstate : (s.sess (pgSession b)).state = 1 ∨ (s.sess (pgSession b)).state = 4)
    (hroom : (s.sess (pgSession b)).feeds.length < 8) :
    applyFeed s c ref b = ({ s := s.updSess (pgSession b) fun d => d.fed (feedOf ref b), status := 0, detail := 0 }, false) := by
  have hno : ¬(2 ≤ s.fld (tnt c 0x300) 1 2 ∨ (!((s.sess (pgSession b)).state == 1 || (s.sess (pgSession b)).state == 4)) = true) := by
    rcases hstate with h1 | h1 <;> simp [h1, hrole]
  unfold applyFeed
  simp only [hno, Nat.not_le_of_lt hroom, if_false]
  rfl

theorem completes_sessionFeed (h : LarderTurn s c ref x p 0x14) (hrole : s.fld (tnt c 0x300) 1 2 < 2)
    (hstate : (s.sess (pgSession x.bytes)).state = 1 ∨ (s.sess (pgSession x.bytes)).state = 4) (hroom : (s.sess (pgSession x.bytes)).feeds.length < 8) :
    Completes (.sessionFeed c ref) s fun t => t.sess (pgSession x.bytes) = (s.sess (pgSession x.bytes)).fed (feedOf ref x.bytes) ∧
      (∀ m, m ≠ pgSession x.bytes → t.sess m = s.sess m) ∧ t.ctrs = s.ctrs ∧ Running t c ref := by
  obtain ⟨u, hu, t, hsess, hnotes, hruns⟩ := h.completes_running (i := .sessionFeed c ref) (sub := none) (by decide) (fun _ he => nomatch he) rfl
    (R := SessAt s (pgSession x.bytes) ((s.sess (pgSession x.bytes)).fed (feedOf ref x.bytes)))
    fun w f => ⟨_, (h.apply_eq w f).trans (applyFeed_takes hrole hstate hroom), rfl, SessAt.upd (.refl _) _ fun d => d.fed (feedOf ref x.bytes)⟩
  obtain ⟨hsame, hother, hctrs⟩ := hnotes.sessAt hsess
  exact ⟨u, hu, hsame, hother, hctrs, hruns⟩

theorem completes_sessionFeed_waits (hin : InTurn s c ref x p) (hop : x.op = 0x14) (htick : x.tick < s.beat) (hcheck : lrdCheck s c p x = none)
    (hpair : s.comparing c = true → s.servesPair = true) (hbusy : s.sessBusy c (pgSession x.bytes) = true) :
    Completes (.sessionFeed c ref) s fun t =>
      t.lrd.sess = s.lrd.sess ∧ (c, ref) ∈ t.lrd.waits ∧ t.lrd.pools = s.lrd.pools ∧ t.ctrs = s.ctrs ∧ t.hbm = s.hbm ∧ Running t c ref := by
  have hact := State.larderStep_of_turn (sub := none) hin hop (by decide) htick (fun _ he => nomatch he) hcheck
  obtain ⟨-, -, hx, hp, -⟩ := hin
  have hlead : (s.comparing c && !s.servesPair) = false := by
    cases hc : s.comparing c with
    | false => rfl
    | true => simp [hpair hc]
  have hwaits : s.larderWaits c ref x = true := by
    simp [State.larderWaits, RCmd.sessions, hop, hbusy]
  obtain ⟨f, hbegin, hcmd⟩ := State.begin_spec none hx
  have hnew : s.larderAct c ref x = s.entered (s.lrd.waits ++ [(c, ref)]) f := by
    simp only [State.larderAct, hp, hlead, hwaits, hbegin]
    rfl
  rw [hbegin] at hcmd
  refine ⟨_, congrArg Host.Outcome.next (hact.trans hnew), rfl, List.mem_append_right _ (List.mem_singleton_self _), rfl, rfl, rfl, fun r csn _ => ?_⟩
  exact congrArg (Option.map RCmd.st) ((State.cmd_congr rfl).trans hcmd)

theorem State.larderStep_of_fetched (hx : s.cmd c ref = some x) (htick : s.beat ≤ x.tick) (op : Nat) (sub : Option Nat) :
    s.larderStep c ref op sub = s := by
  unfold State.larderStep
  rw [hx]
  simp [htick]

/-- Settles O53: each command is `larderApply` of its own `applyCtl` or `applyFeed` case, whose descriptor the end of the command keeps. -/
theorem sessionsOpenFeedStopAndClose : Obligations.SessionsOpenFeedStopAndClose := by
  unfold Obligations.SessionsOpenFeedStopAndClose
  intro s c ref x p b n d ends
  refine ⟨fun h => ⟨completes_sessionOpen h, completes_setSampling h, completes_setStop h, completes_sessionStop_unfed h, completes_sessionStop h,
    fun hop hopen => ?_, completes_sessionTruncate h⟩, completes_sessionFeed, completes_sessionFeed_waits, fun hin _ htick => ?_⟩
  · obtain ⟨t, ht, hsame, hother⟩ := completes_sessionClose h hop hopen
    refine ⟨t, ht, ?_, ?_, ?_, ?_, ?_, hother⟩
    all_goals rw [hsame]; rfl
  · obtain ⟨-, -, hx, -⟩ := hin
    exact ⟨s, congrArg Host.Outcome.next (State.larderStep_of_fetched hx htick _ _), rfl⟩

end

end Sys2Proof.Machine
end

section
/-!
PROOFS. PAGE_ALLOC, PAGE_FREE, PAGE_SHARE and PAGE_COPY on one page, and the end of a copy-on-write copy (O52).
-/

namespace Sys2Proof.Machine

/-! ## Work on the directories -/

theorem State.tidy_hbm {s : State} (h : s.tidy = true) : nwf s.hbm = true := by
  simp only [State.tidy, Bool.and_eq_true] at h
  obtain ⟨⟨⟨-, hmem⟩, -⟩, -⟩ := h
  exact hmem

/-- Granule `g` of session `n` can be worked on: the tenant has its partition, which holds the session, and the granule has map block `b`. -/
structure Mapped (s : State) (c : Nat) (p : Partition) (n g b : Nat) : Prop where
  part : s.part c = some p
  wf : nwf s.hbm = true
  tenant : c < 16
  sess : sessIn p n = true
  fits : DirFits p b g
  map : s.mapOf c p n g = some b

section
variable {s t u : State} {c n g b page k : Nat} {ref : CmdRef} {x : RCmd} {p : Partition} {op : Nat} {P : Nat → Prop}

/-- Writes outside the session blocks leave a granule's map block. -/
theorem Mapped.own (h : Mapped s c p n g b) (hw : OwnWrites p P s t) (hP : ∀ a, p.dirBase ≤ a → a < p.mapBlock0 → ¬P a) : Mapped t c p n g b where
  part := hw.part.trans h.part
  wf := hw.wf
  tenant := h.tenant
  sess := h.sess
  fits := h.fits
  map := (hw.mapOf h.part h.sess h.fits hP).trans h.map

/-- A granule's map block is read from memory alone. -/
theorem Mapped.congr (h : Mapped s c p n g b) (hp : t.part c = s.part c) (hm : t.hbm = s.hbm) : Mapped t c p n g b := by
  have hpart := hp.trans h.part
  refine ⟨hpart, hm ▸ h.wf, h.tenant, h.sess, h.fits, ?_⟩
  have htop := h.fits.top h.sess
  have hbytes : t.ownBytes p (p.topEntry n (g / 1024)) 8 = s.ownBytes p (p.topEntry n (g / 1024)) 8 :=
    State.ownBytes_congr fun i _ => congrArg (nget · _) hm
  have hnum : t.taNum c (p.topEntry n (g / 1024)) 8 = s.taNum c (p.topEntry n (g / 1024)) 8 := by
    rw [State.taNum_own hpart (by decide) htop, State.taNum_own h.part (by decide) htop, hbytes]
  rw [← h.map, State.mapOf, State.mapOf, hnum]

theorem PoolsOnly.mapped (hf : PoolsOnly s t) (h : Mapped s c p n g b) : Mapped t c p n g b := by
  unfold PoolsOnly at hf
  exact h.congr (by rw [hf]; rfl) (by rw [hf])

theorem Mapped.install (h : Mapped s c p n g b) (hpage : page < 2 ^ 24) (hk : k < 8) :
    ∃ t, s.install c p n g page k = some t ∧ OwnWrites p (p.InMapBlock b) s t ∧ t.lrd = s.lrd ∧ t.granule c p n g = some (page, k) :=
  State.install_spec h.part h.wf h.sess h.fits h.map hpage hk

/-- The sessions that a page command names lie in the tenant's range, once its checks pass. -/
theorem pageCheck_sessIn (hgran : p.granules ≠ 0) (h : pageCheck p x = none) : ∀ m ∈ x.sessions, sessIn p m = true := by
  have hall : x.sessions.all (sessIn p) = true := by
    by_contra hno
    have hout : (p.granules != 0 && !(x.sessions.all (sessIn p))) = true := by
      rw [Bool.eq_false_of_not_eq_true hno, Bool.not_false, Bool.and_true]
      exact bne_iff_ne.mpr hgran
    have hcode : codeIf (p.granules != 0 && !(x.sessions.all (sessIn p))) 0x80 = some (0x80, 0) := if_pos hout
    simp only [pageCheck, firstOf, hcode] at h
    generalize codeIf _ 0xC1 = rsvd at h
    cases rsvd <;> cases h
  exact List.all_eq_true.mp hall

theorem RCmd.session_mem (x : RCmd) : pgSession x.bytes ∈ x.sessions := by
  unfold RCmd.sessions
  split <;> exact List.mem_cons_self

/-- A page command in turn finds its granule's map block. -/
theorem LarderTurn.mapped (h : LarderTurn s c ref x p op) (hop : op < 0x14) (hfit : DirFits p b g)
    (hmap : s.mapOf c p (pgSession x.bytes) g = some b) (w : List (Nat × CmdRef)) (f : Front) :
    Mapped (s.entered w f) c p (pgSession x.bytes) g b := by
  obtain ⟨⟨htidy, hc, -, hp, -⟩, rfl, -, hcheck, hgran, -⟩ := h
  have hpage : pageCheck p x = none := by
    rwa [lrdCheck, if_neg (by omega), if_neg (by omega)] at hcheck
  exact ⟨hp, State.tidy_hbm htidy, hc, pageCheck_sessIn hgran hpage _ x.session_mem, hfit, hmap⟩

theorem AppliedFrame.granule (hf : AppliedFrame t u) : u.granule c p n g = t.granule c p n g := by
  unfold AppliedFrame at hf
  rw [hf]
  rfl

theorem AppliedFrame.lrd (hf : AppliedFrame t u) : u.lrd = t.lrd := by
  unfold AppliedFrame at hf
  rw [hf]

theorem AppliedFrame.ctrs (hf : AppliedFrame t u) : u.ctrs = t.ctrs := by
  unfold AppliedFrame at hf
  rw [hf]

theorem AppliedFrame.hbm (hf : AppliedFrame t u) : u.hbm = t.hbm := by
  unfold AppliedFrame at hf
  rw [hf]

theorem AppliedFrame.pageCount (hf : AppliedFrame t u) : u.pageCount c page = t.pageCount c page :=
  State.pageCount_of_pool (congrArg Pool.pages (State.pool_congr (congrArg Larder.pools hf.lrd) c)) page

/-! ## PAGE_ALLOC (R220, R225, R237) -/

theorem find_reverse_range_le (q : Nat → Bool) (m : Nat) : ((List.range (m + 1)).reverse.find? q).getD 0 ≤ m := by
  cases h : (List.range (m + 1)).reverse.find? q with
  | none => exact Nat.zero_le m
  | some k =>
    have hmem := List.mem_range.mp (List.mem_reverse.mp (List.mem_of_find?_eq_some h))
    exact Nat.le_of_lt_succ hmem

/-- The growth rule gives no page larger than the session's KMAX. -/
theorem State.growthK_le : s.growthK c p n g ≤ (s.sess n).kmax := by
  unfold State.growthK
  extract_lets d k0 fits
  refine (find_reverse_range_le fits k0).trans ?_
  show (if g < d.fineTo then 0 else _) ≤ d.kmax
  split
  · exact Nat.zero_le _
  · exact find_reverse_range_le _ _

theorem State.entered_growthK (w : List (Nat × CmdRef)) (f : Front) : (s.entered w f).growthK c p n g = s.growthK c p n g := by
  unfold State.growthK
  simp only [State.entered_sess]
  rfl

/-- A new page at a granule whose map block is there. -/
theorem State.growBy_spec (h : Mapped s c p n g b) (hpage : page < 2 ^ 24) (hk : k < 8) (halloc : (s.allocPage c k).map (·.1) = some page) :
    ∃ t, s.growBy c p n g k = .ok (page, t) ∧ LarderFrame s t ∧ t.granule c p n g = some (page, k) ∧ t.pageCount c page = 1 := by
  obtain ⟨v, hv, hpools, hcount⟩ := State.allocPage_spec h.tenant halloc
  obtain ⟨t, ht, hwrites, hlrd, hgranule⟩ := (hpools.mapped h).install hpage hk
  refine ⟨t, ?_, hpools.larderFrame.trans hwrites.frame, hgranule, ?_⟩
  · simp only [State.growBy, hv, ht]
  · rw [State.pageCount_of_pool (congrArg Pool.pages (State.pool_congr (congrArg Larder.pools hlrd) c))]
    exact hcount

/-- PAGE_ALLOC of one granule without a page. -/
theorem applyAlloc_one {bs : List Byte} (hstate : pageState (s.sess (pgSession bs)) = true)
    (hrange : rangeOk (s.sess (pgSession bs)) (pgFrom bs) (pgTo bs) = true) (hfrom : pgFrom bs = 16 * g) (hto : pgTo bs = 16 * g + 16)
    (hempty : s.granule c p (pgSession bs) g = none)
    (hgrow : s.growBy c p (pgSession bs) g (s.growthK c p (pgSession bs) g) = .ok (page, t)) :
    applyAlloc s c p bs = { s := t, status := 0, detail := 1 } := by
  have hlo : pgFrom bs / 16 = g := by omega
  have hhi : pgTo bs / 16 = g + 1 := by omega
  have hloop : s.allocRange c p (pgSession bs) (g + 1) (g + 1 - g + 1) g 0 = .ok (t, 1) := by
    rw [Nat.add_sub_cancel_left]
    simp [State.allocRange, hempty, hgrow]
  unfold applyAlloc
  simp only [hstate, hrange, hlo, hhi, hloop]
  rfl

theorem State.entered_allocPage_fst (w : List (Nat × CmdRef)) (f : Front) :
    ((s.entered w f).allocPage c k).map (·.1) = (s.allocPage c k).map (·.1) := by
  unfold State.allocPage
  rw [show (s.entered w f).part c = s.part c from rfl]
  cases s.part c with
  | none => rfl
  | some q => simp only [Option.map_map]; rfl

theorem completes_pageAlloc (h : LarderTurn s c ref x p 0x10) (hstate : pageState (s.sess (pgSession x.bytes)) = true)
    (hrange : rangeOk (s.sess (pgSession x.bytes)) (pgFrom x.bytes) (pgTo x.bytes) = true) (hfrom : pgFrom x.bytes = 16 * g)
    (hto : pgTo x.bytes = 16 * g + 16) (hempty : s.granule c p (pgSession x.bytes) g = none) (hmap : s.mapOf c p (pgSession x.bytes) g = some b)
    (hfit : DirFits p b g) (hkmax : (s.sess (pgSession x.bytes)).kmax ≤ 6) (hpage : page < 2 ^ 24) (hk : k = s.growthK c p (pgSession x.bytes) g)
    (halloc : (s.allocPage c k).map (·.1) = some page) :
    Completes (.pageAlloc c ref) s fun t =>
      t.granule c p (pgSession x.bytes) g = some (page, k) ∧ t.pageCount c page = 1 ∧ t.lrd.sess = s.lrd.sess ∧ t.ctrs = s.ctrs ∧
      ∀ r csn, ref = .ring r csn → ((t.cmd c ref).map fun y => (y.st, y.status, y.detail)) = some (CmdSt.done, 0, 1) := by
  have hk8 : k < 8 := by
    have := State.growthK_le (s := s) (c := c) (p := p) (n := pgSession x.bytes) (g := g)
    omega
  obtain ⟨u, hu, t, ⟨hgranule, hcount, hsess, hctrs⟩, hframe, hdone⟩ := h.completes_ended (i := .pageAlloc c ref) (sub := none) (by decide)
    (fun _ he => nomatch he) rfl (d := 1)
    (R := fun t => t.granule c p (pgSession x.bytes) g = some (page, k) ∧ t.pageCount c page = 1 ∧ t.lrd.sess = s.lrd.sess ∧ t.ctrs = s.ctrs)
    fun w f => by
      obtain ⟨t, hgrow, hframe, hgranule, hcount⟩ := State.growBy_spec (h.mapped (by decide) hfit hmap w f) hpage hk8
        ((State.entered_allocPage_fst w f).trans halloc)
      rw [hk, ← State.entered_growthK w f] at hgrow
      exact ⟨t, (h.apply_eq w f).trans (congrArg (·, true) (applyAlloc_one hstate hrange hfrom hto hempty hgrow)), hframe.front, hgranule,
        hcount, hframe.sess, hframe.ctrs⟩
  exact ⟨u, hu, hframe.granule.trans hgranule, hframe.pageCount.trans hcount, (congrArg Larder.sess hframe.lrd).trans hsess,
    hframe.ctrs.trans hctrs, hdone⟩

/-! ## PAGE_FREE (R237, R238) -/

/-- The one page of a granule whose page has that granule alone. -/
theorem State.pagesIn_one (h : s.granule c p n g = some (page, 0)) : s.pagesIn c p n g (g + 1) = [(g, page, 0)] := by
  unfold State.pagesIn
  rw [Nat.add_sub_cancel_left]
  simp [h]

theorem applyFree_one {bs : List Byte} (hstate : pageState (s.sess (pgSession bs)) = true)
    (hrange : rangeOk (s.sess (pgSession bs)) (pgFrom bs) (pgTo bs) = true) (hfrom : pgFrom bs = 16 * g) (hto : pgTo bs = 16 * g + 16)
    (hpage : s.granule c p (pgSession bs) g = some (page, 0)) :
    applyFree s c p bs = { s := s.releasePage c p (pgSession bs) g page 0, status := 0, detail := 1 } := by
  have hlo : pgFrom bs / 16 = g := by omega
  have hhi : pgTo bs / 16 = g + 1 := by omega
  unfold applyFree
  simp only [hstate, hrange, hlo, hhi, State.pagesIn_one hpage]
  simp

theorem completes_pageFree (h : LarderTurn s c ref x p 0x11) (hstate : pageState (s.sess (pgSession x.bytes)) = true)
    (hrange : rangeOk (s.sess (pgSession x.bytes)) (pgFrom x.bytes) (pgTo x.bytes) = true) (hfrom : pgFrom x.bytes = 16 * g)
    (hto : pgTo x.bytes = 16 * g + 16) (hgran : s.granule c p (pgSession x.bytes) g = some (page, 0))
    (hmap : s.mapOf c p (pgSession x.bytes) g = some b) (hfit : DirFits p b g) (hnodup : ((s.pool c).pages.map (·.1)).Nodup)
    (hpin : s.pageCount c page ≠ pinned) :
    Completes (.pageFree c ref) s fun t =>
      t.granule c p (pgSession x.bytes) g = none ∧ t.pageCount c page = s.pageCount c page - 1 ∧ t.lrd.sess = s.lrd.sess ∧ t.ctrs = s.ctrs ∧
      ∀ r csn, ref = .ring r csn → ((t.cmd c ref).map fun y => (y.st, y.status, y.detail)) = some (CmdSt.done, 0, 1) := by
  obtain ⟨u, hu, t, ⟨hgranule, hcount, hsess, hctrs⟩, hframe, hdone⟩ := h.completes_ended (i := .pageFree c ref) (sub := none) (by decide)
    (fun _ he => nomatch he) rfl (d := 1)
    (R := fun t => t.granule c p (pgSession x.bytes) g = none ∧ t.pageCount c page = s.pageCount c page - 1 ∧ t.lrd.sess = s.lrd.sess ∧ t.ctrs = s.ctrs)
    fun w f => by
      have hm := h.mapped (by decide) hfit hmap w f
      obtain ⟨hgone, hless⟩ := State.releasePage_spec (page := page) hm.part hm.wf hm.tenant hm.sess hm.fits hm.map 0 hnodup hpin
      have hframe : LarderFrame (s.entered w f) ((s.entered w f).releasePage c p (pgSession x.bytes) g page 0) := State.releasePage_larderFrame page 0
      exact ⟨_, (h.apply_eq w f).trans (congrArg (·, true) (applyFree_one hstate hrange hfrom hto hgran)), hframe.front, hgone, hless,
        hframe.sess, hframe.ctrs⟩
  exact ⟨u, hu, hframe.granule.trans hgranule, hframe.pageCount.trans hcount, (congrArg Larder.sess hframe.lrd).trans hsess,
    hframe.ctrs.trans hctrs, hdone⟩

/-! ## PAGE_SHARE (R233, R235) -/

/-- What SETLEN changes: the target's length. -/
theorem setLen_frame {bs : List Byte} : setLen s bs = { s with lrd := { s.lrd with sess := (setLen s bs).lrd.sess } } :=
  ite_of_both (Q := fun u : State => u = { s with lrd := { s.lrd with sess := u.lrd.sess } }) rfl rfl

theorem setLen_length {bs : List Byte} : ((setLen s bs).sess (pgSession bs)).length = if pgSetLen bs then pgNewLen bs else (s.sess (pgSession bs)).length := by
  unfold setLen
  split
  · rw [State.sess_updSess_same]
  · rfl

theorem setLen_other {bs : List Byte} {m : Nat} (hm : m ≠ pgSession bs) : (setLen s bs).sess m = s.sess m :=
  ite_of_both (Q := fun u : State => u.sess m = s.sess m) (State.sess_updSess_other _ _ hm) rfl

theorem State.granule_setLen {bs : List Byte} : (setLen s bs).granule c p n g = s.granule c p n g := by
  rw [setLen_frame]
  rfl

theorem State.pageCount_setLen {bs : List Byte} : (setLen s bs).pageCount c page = s.pageCount c page := by
  rw [setLen_frame]
  rfl

/-- What a share and a copy leave of the sessions: the target's length as SETLEN asks, and the other sessions as they were. -/
structure LengthSet (s : State) (bs : List Byte) (t : State) : Prop where
  length : (t.sess (pgSession bs)).length = if pgSetLen bs then pgNewLen bs else (s.sess (pgSession bs)).length
  other : ∀ m, m ≠ pgSession bs → t.sess m = s.sess m

theorem setLen_lengthSet {bs : List Byte} (h : t.lrd.sess = s.lrd.sess) : LengthSet s bs (setLen t bs) where
  length := by rw [setLen_length, State.sess_congr h]
  other m hm := (setLen_other hm).trans (State.sess_congr h m)

theorem LengthSet.of_eq {bs : List Byte} (h : LengthSet s bs t) (hl : u.lrd.sess = t.lrd.sess) : LengthSet s bs u where
  length := by rw [State.sess_congr hl]; exact h.length
  other m hm := (State.sess_congr hl m).trans (h.other m hm)

theorem State.shareSteps_ok {bs : List Byte} {l : List (Nat × Nat × Nat)} (h : (s.shareSteps c p bs).toOption = some l) :
    s.shareSteps c p bs = .ok l := by
  cases hs : s.shareSteps c p bs with
  | error e => rw [hs] at h; cases h
  | ok l' => rw [hs] at h; exact congrArg Except.ok (Option.some.inj h)

theorem State.entered_granule (w : List (Nat × CmdRef)) (f : Front) : (s.entered w f).granule c p n g = s.granule c p n g := rfl

theorem State.entered_mapOf (w : List (Nat × CmdRef)) (f : Front) : (s.entered w f).mapOf c p n g = s.mapOf c p n g := rfl

theorem State.entered_pagesIn (w : List (Nat × CmdRef)) (f : Front) (lo hi : Nat) : (s.entered w f).pagesIn c p n lo hi = s.pagesIn c p n lo hi := rfl

theorem State.entered_allPages (w : List (Nat × CmdRef)) (f : Front) : (s.entered w f).allPages c p n = s.allPages c p n := rfl

theorem State.entered_shareSteps {bs : List Byte} (w : List (Nat × CmdRef)) (f : Front) :
    (s.entered w f).shareSteps c p bs = s.shareSteps c p bs := by
  unfold State.shareSteps
  simp only [State.entered_sess, State.entered_granule, State.entered_mapOf, State.entered_pagesIn, State.entered_allPages]
  rfl

/-- A share's source is not its target. -/
theorem State.shareSteps_ne {bs : List Byte} {l : List (Nat × Nat × Nat)} (h : s.shareSteps c p bs = .ok l) : pgSource bs ≠ pgSession bs := by
  intro heq
  rw [State.shareSteps, heq, beq_self_eq_true, Bool.or_true, if_pos rfl] at h
  cases h

/-- A share changes the page's count, or counts a pinned page in its register. -/
theorem State.sharePage_frame : s.sharePage c page =
    { s with regs := (s.sharePage c page).regs, lrd := { s.lrd with pools := (s.sharePage c page).lrd.pools } } :=
  ite_of_both (Q := fun u : State => u = { s with regs := u.regs, lrd := { s.lrd with pools := u.lrd.pools } }) rfl rfl

theorem completes_pageShare (h : LarderTurn s c ref x p 0x12) (hsteps : (s.shareSteps c p x.bytes).toOption = some [(g, page, k)])
    (hmap : s.mapOf c p (pgSession x.bytes) g = some b) (hfit : DirFits p b g) (hpage : page < 2 ^ 24) (hk : k < 8) :
    Completes (.pageShare c ref) s fun t =>
      t.granule c p (pgSession x.bytes) g = some (page, k) ∧
      (∀ y, aget (s.pool c).pages page = some y → t.pageCount c page = if y.count = pinned then pinned else y.count + 1) ∧
      LengthSet s x.bytes t ∧ Ended t c ref := by
  obtain ⟨u, hu, t, ⟨hgranule, hcount, hlength⟩, hframe, hdone⟩ := h.completes_ended (i := .pageShare c ref) (sub := none) (by decide)
    (fun _ he => nomatch he) rfl (d := 0)
    (R := fun t => t.granule c p (pgSession x.bytes) g = some (page, k) ∧
      (∀ y, aget (s.pool c).pages page = some y → t.pageCount c page = if y.count = pinned then pinned else y.count + 1) ∧ LengthSet s x.bytes t)
    fun w f => by
      have hm := h.mapped (by decide) hfit hmap w f
      have hcount (y : Page) (hy : aget (s.pool c).pages page = some y) :
          ((s.entered w f).sharePage c page).pageCount c page = if y.count = pinned then pinned else y.count + 1 :=
        State.pageCount_sharePage_same hm.tenant hy
      have hsess : ((s.entered w f).sharePage c page).lrd.sess = s.lrd.sess := by
        rw [State.sharePage_frame]; rfl
      have hfront : ((s.entered w f).sharePage c page).front = f := by
        rw [State.sharePage_frame]; rfl
      have hshared : Mapped ((s.entered w f).sharePage c page) c p (pgSession x.bytes) g b := by
        refine hm.congr ?_ ?_
        · rw [State.sharePage_frame]; rfl
        · rw [State.sharePage_frame]
      obtain ⟨t, ht, hwrites, hlrd, hgranule⟩ := hshared.install hpage hk
      have happly : applyShare (s.entered w f) c p x.bytes = { s := setLen t x.bytes, status := 0, detail := 0 } := by
        have hok : (s.entered w f).shareSteps c p x.bytes = .ok [(g, page, k)] :=
          (State.entered_shareSteps w f).trans (State.shareSteps_ok hsteps)
        simp only [applyShare, hok, List.foldl_cons, List.foldl_nil, ht, Option.getD_some]
      have htfront : (setLen t x.bytes).front = f := by
        rw [setLen_frame]; exact hwrites.frame.front.trans hfront
      have hpool := congrArg Pool.pages (State.pool_congr (congrArg Larder.pools hlrd) c)
      refine ⟨_, (h.apply_eq w f).trans (congrArg (·, true) happly), htfront, State.granule_setLen.trans hgranule, fun y hy => ?_,
        setLen_lengthSet ((congrArg Larder.sess hlrd).trans hsess)⟩
      exact State.pageCount_setLen.trans ((State.pageCount_of_pool hpool page).trans (hcount y hy))
  refine ⟨u, hu, hframe.granule.trans hgranule, fun y hy => hframe.pageCount.trans (hcount y hy), hlength.of_eq (congrArg Larder.sess hframe.lrd),
    ended_of_done hdone⟩

/-! ## PAGE_COPY (R236) and the end of a copy-on-write copy (R234) -/

/-- A page of the pool ends where a later one begins, or where the pool does. -/
theorem Partition.pageEnd_le {i m : Nat} (h : i + 2 ^ k ≤ m) :
    p.poolBase + i * p.granuleBytes + 2 ^ k * p.granuleBytes ≤ p.poolBase + m * p.granuleBytes := by
  have hmul := Nat.mul_le_mul_right p.granuleBytes h
  rw [Nat.add_mul] at hmul
  omega

/-- A page copied and named: the granule names the new page, which has the old one's bytes where the two lie apart in the pool. -/
theorem State.copyInstall_spec {old new : Nat} (h : Mapped s c p n g b) (hnew : new < 2 ^ 24) (hk : k < 8)
    (hpool : p.poolBase + p.granules * p.granuleBytes ≤ p.dirBase) (hfits : new + 2 ^ k ≤ p.granules) :
    ∃ t, (s.copyBytes c p old new k).install c p n g new k = some t ∧ LarderFrame s t ∧ t.lrd = s.lrd ∧ t.granule c p n g = some (new, k) ∧
      (old + 2 ^ k ≤ new ∨ new + 2 ^ k ≤ old → old + 2 ^ k ≤ p.granules → ∀ i, i < 2 ^ k * p.granuleBytes →
        t.byteAt p (p.poolBase + new * p.granuleBytes + i) = s.byteAt p (p.poolBase + old * p.granuleBytes + i)) := by
  have hend := Partition.pageEnd_le (p := p) hfits
  have hmaps : p.dirBase ≤ p.mapBlock0 := Partition.dirBase_le_mapBlock0
  have hmem : p.mapBlock0 ≤ p.taSize := by
    have hblock := h.fits.block
    have hmap : p.mapBlock0 ≤ p.mapEntry b 0 := Partition.le_mapEntry 0
    omega
  obtain ⟨hwrites, hbytes⟩ := State.copyBytes_copies (old := old) h.part h.wf
    (show p.poolBase + new * p.granuleBytes + 2 ^ k * p.granuleBytes ≤ p.taSize by omega)
  have hlrd : (s.copyBytes c p old new k).lrd = s.lrd := State.copyBytes_lrd old new k
  generalize s.copyBytes c p old new k = v at hwrites hbytes hlrd
  obtain ⟨t, ht, hinst, htlrd, hgranule⟩ := (h.own hwrites fun a hlo _ ⟨_, hhi⟩ => by omega).install hnew hk
  refine ⟨t, ht, hwrites.frame.trans hinst.frame, htlrd.trans hlrd, hgranule, fun hapart hold i hi => ?_⟩
  rw [hinst.bytes _ (by omega) (not_inMapBlock_of_lt (by omega))]
  refine hbytes (by have := Partition.pageEnd_le (p := p) hold; omega) ?_ (by omega) i hi
  rcases hapart with hapart | hapart
  · exact .inl (Partition.pageEnd_le hapart)
  · exact .inr (Partition.pageEnd_le hapart)

theorem completes_pageCopy {new : Nat} (h : LarderTurn s c ref x p 0x13) (hsteps : (s.shareSteps c p x.bytes).toOption = some [(g, page, k)])
    (hmap : s.mapOf c p (pgSession x.bytes) g = some b) (hfit : DirFits p b g) (hnew : new < 2 ^ 24) (hk : k < 8)
    (halloc : (s.allocPage c k).map (·.1) = some new) (hapart : page + 2 ^ k ≤ new ∨ new + 2 ^ k ≤ page) (hold : page + 2 ^ k ≤ p.granules)
    (hfits : new + 2 ^ k ≤ p.granules) (hpool : p.poolBase + p.granules * p.granuleBytes ≤ p.dirBase) :
    Completes (.pageCopy c ref) s fun t =>
      t.granule c p (pgSession x.bytes) g = some (new, k) ∧ t.pageCount c new = 1 ∧
      (∀ i, i < 2 ^ k * p.granuleBytes →
        t.byteAt p (p.poolBase + new * p.granuleBytes + i) = s.byteAt p (p.poolBase + page * p.granuleBytes + i)) ∧
      LengthSet s x.bytes t ∧ Ended t c ref := by
  obtain ⟨u, hu, t, ⟨hgranule, hcount, hbytes, hlength⟩, hframe, hdone⟩ := h.completes_ended (i := .pageCopy c ref) (sub := none) (by decide)
    (fun _ he => nomatch he) rfl (d := 0)
    (R := fun t => t.granule c p (pgSession x.bytes) g = some (new, k) ∧ t.pageCount c new = 1 ∧
      (∀ i, i < 2 ^ k * p.granuleBytes →
        t.byteAt p (p.poolBase + new * p.granuleBytes + i) = s.byteAt p (p.poolBase + page * p.granuleBytes + i)) ∧ LengthSet s x.bytes t)
    fun w f => by
      have hm := h.mapped (by decide) hfit hmap w f
      obtain ⟨v, hv, hpools, hcount⟩ := State.allocPage_spec hm.tenant ((State.entered_allocPage_fst w f).trans halloc)
      obtain ⟨t, ht, hframe, hlrd, hgranule, hbytes⟩ := State.copyInstall_spec (old := page) (hpools.mapped hm) hnew hk hpool hfits
      have hvmem : v.hbm = s.hbm := by
        rw [show v = _ from hpools]; rfl
      have happly : applyCopy (s.entered w f) c p x.bytes = { s := setLen t x.bytes, status := 0, detail := 0 } := by
        have hok : (s.entered w f).shareSteps c p x.bytes = .ok [(g, page, k)] :=
          (State.entered_shareSteps w f).trans (State.shareSteps_ok hsteps)
        simp only [applyCopy, hok, List.foldl_cons, List.foldl_nil, Option.bind_some, hv, ht]
      have htfront : (setLen t x.bytes).front = f := by
        rw [setLen_frame]; exact hframe.front.trans hpools.larderFrame.front
      have hpool := congrArg Pool.pages (State.pool_congr (congrArg Larder.pools hlrd) c)
      refine ⟨_, (h.apply_eq w f).trans (congrArg (·, true) happly), htfront, State.granule_setLen.trans hgranule,
        State.pageCount_setLen.trans ((State.pageCount_of_pool hpool new).trans hcount), fun i hi => ?_,
        setLen_lengthSet (hframe.sess.trans hpools.larderFrame.sess)⟩
      have hbyte := hbytes hapart hold i hi
      rw [State.byteAt, State.byteAt, hvmem] at hbyte
      rw [setLen_frame]
      exact hbyte
  refine ⟨u, hu, hframe.granule.trans hgranule, hframe.pageCount.trans hcount, fun i hi => ?_, hlength.of_eq (congrArg Larder.sess hframe.lrd),
    ended_of_done hdone⟩
  rw [State.byteAt, hframe.hbm]
  exact hbytes i hi

theorem completes_larderCopyComplete {y : PCopy} (htidy : s.tidy = true) (hc : c < 16) (hp : s.part c = some p)
    (hcopy : s.lrd.copies.find? (fun z => z.tenant == c) = some y) (hmap : s.mapOf c p y.session y.g = some b) (hfit : DirFits p b y.g)
    (hnew : y.new < 2 ^ 24) (hk : y.k < 8) (hpool : p.poolBase + p.granules * p.granuleBytes ≤ p.dirBase) (hfits : y.new + 2 ^ y.k ≤ p.granules)
    (hsess : sessIn p y.session = true) :
    Completes (.larderCopyComplete c) s fun t =>
      t.granule c p y.session y.g = some (y.new, y.k) ∧ t.lrd.copies = s.lrd.copies.erase y ∧ t.lrd.sess = s.lrd.sess ∧ t.regs = s.regs := by
  obtain ⟨t, ht, hframe, hlrd, hgranule, -⟩ :=
    State.copyInstall_spec (old := y.old) ⟨hp, State.tidy_hbm htidy, hc, hsess, hfit, hmap⟩ hnew hk hpool hfits
  have hend : s.endCopy c = { t with lrd := { t.lrd with copies := t.lrd.copies.erase y } } := by
    simp only [State.endCopy, hcopy, hp, ht, Option.getD_some]
  refine ⟨_, congrArg Host.Outcome.next hend, hgranule, ?_, hframe.sess, hframe.regs⟩
  rw [hlrd]

/-- Settles O52: a granule names what `install` or `uninstall` last wrote in its map block, which `putEntries_spec` reads back, and the copied
page lies in the pool, before the directories. -/
theorem pagesAllocatedFreedSharedCopied : Obligations.PagesAllocatedFreedSharedCopied := by
  unfold Obligations.PagesAllocatedFreedSharedCopied
  intro s c ref x p b g page k n src
  refine ⟨completes_pageAlloc, completes_pageFree, fun h hsteps hmap hfit hpage hk => ?_,
    fun new h hsteps hmap hfit hnew hk halloc hapart hold hfits hpool => ?_, fun y => completes_larderCopyComplete⟩
  · obtain ⟨t, ht, hgranule, hcount, hlength, hended⟩ := completes_pageShare h hsteps hmap hfit hpage hk
    exact ⟨t, ht, hgranule, hcount, hlength.length, hlength.other, hended⟩
  · obtain ⟨t, ht, hgranule, hcount, hbytes, hlength, hended⟩ := completes_pageCopy h hsteps hmap hfit hnew hk halloc hapart hold hfits hpool
    exact ⟨t, ht, hgranule, hcount, hbytes, hlength.length, hlength.other, State.shareSteps_ne (State.shareSteps_ok hsteps), hended⟩

end

end Sys2Proof.Machine
end

section
/-!
PROOFS. PARK, UNPARK and MIGRATE of a session, and the twin's confirmation (O54).
-/

namespace Sys2Proof.Machine

section
variable {s t u : State} {c n : Nat} {ref : CmdRef} {x : RCmd} {p : Partition} {d : Sess} {b : List Byte}

/-! ## Parking and the return from it (R228, R241) -/

theorem SessAt.again (h : SessAt s n d t) (g : Sess → Sess) : SessAt s n (g d) (t.updSess n g) where
  same := (State.sess_updSess_same _ _ _).trans (congrArg g h.same)
  other m hm := (State.sess_updSess_other _ _ hm).trans (h.other m hm)
  ctrs := h.ctrs

/-- An operation of SESSION_CTL that changes the session's descriptor alone and ends. -/
theorem LarderTurn.completes_upd (h : LarderTurn s c ref x p 0x15) {i : Instr} {k : Nat} (hk : ctlOp x.bytes = k)
    (hexec : exec i s = .next (s.larderStep c ref 0x15 (some k))) (g : Sess → Sess)
    (happly : ∀ w f, applyCtl (s.entered w f) c p ref x.bytes =
      ({ s := (s.entered w f).updSess (pgSession x.bytes) g, status := 0, detail := 0 }, true)) :
    Completes i s fun t => t.sess (pgSession x.bytes) = g (s.sess (pgSession x.bytes)) ∧ (∀ m, m ≠ pgSession x.bytes → t.sess m = s.sess m) ∧
      t.lrd.pools = s.lrd.pools ∧ t.hbm = s.hbm ∧ Ended t c ref := by
  obtain ⟨u, hu, t, ⟨hsess, hpools, hhbm⟩, hframe, hdone⟩ := h.completes_ended (by decide) (fun _ he => Option.some.inj he ▸ hk) hexec (d := 0)
    (R := fun t => SessAt s (pgSession x.bytes) (g (s.sess (pgSession x.bytes))) t ∧ t.lrd.pools = s.lrd.pools ∧ t.hbm = s.hbm)
    fun w f => ⟨_, (h.apply_eq w f).trans (happly w f), rfl, SessAt.upd (.refl _) _ g, rfl, rfl⟩
  obtain ⟨hsame, hother, -⟩ := hframe.sessAt hsess
  exact ⟨u, hu, hsame, hother, (congrArg Larder.pools hframe.lrd).trans hpools, hframe.hbm.trans hhbm, ended_of_done hdone⟩

/-- A parked descriptor. -/
def Sess.parked (d : Sess) : Sess := { d with state := 3, reason := 6, prior := d.state }

/-- The job of a parking that evicts. -/
def parkJob (ref : CmdRef) (p : Partition) (pages : List (Nat × Nat × Nat)) : Job :=
  { kind := 0, ref := ref, pages := pages.map fun (g, page, _) => (g, page), moved := 0, total := parkSize p pages, ready := false }

/-- A descriptor whose pages a job moves to the host. -/
def Sess.evicting (addr : Nat) (j : Job) (d : Sess) : Sess := { d with migrating := true, hostAddr := addr, job := some j }

/-- A session in PREFILL, DECODE or DONE can be parked. -/
theorem parks_of_state (h : d.state = 1 ∨ d.state = 2 ∨ d.state = 4) : (!(d.state == 1 || d.state == 2 || d.state == 4)) = false := by
  rcases h with h | h | h <;> rw [h] <;> rfl

theorem completes_sessionPark (h : LarderTurn s c ref x p 0x15) (hop : ctlOp x.bytes = 5)
    (hstate : (s.sess (pgSession x.bytes)).state = 1 ∨ (s.sess (pgSession x.bytes)).state = 2 ∨ (s.sess (pgSession x.bytes)).state = 4)
    (hkeep : fieldAt x.bytes 0x14 1 % 2 = 0) :
    Completes (.sessionPark c ref) s fun t => t.sess (pgSession x.bytes) = (s.sess (pgSession x.bytes)).parked ∧
      (∀ m, m ≠ pgSession x.bytes → t.sess m = s.sess m) ∧ t.lrd.pools = s.lrd.pools ∧ t.hbm = s.hbm ∧ Ended t c ref := by
  refine h.completes_upd hop rfl Sess.parked fun w f => ?_
  have hbit : bitOf (fieldAt x.bytes 0x14 1) 0 = false := by simp [bitOf, hkeep]
  unfold applyCtl
  simp only [hop, applyPark, State.entered_sess, parks_of_state hstate, hbit]
  rfl

theorem completes_sessionPark_evicting (h : LarderTurn s c ref x p 0x15) (hop : ctlOp x.bytes = 5)
    (hstate : (s.sess (pgSession x.bytes)).state = 1 ∨ (s.sess (pgSession x.bytes)).state = 2 ∨ (s.sess (pgSession x.bytes)).state = 4)
    (hevict : fieldAt x.bytes 0x14 1 % 2 = 1) (hsome : 0 < parkSize p (s.evictable c p (pgSession x.bytes)))
    (hfits : parkSize p (s.evictable c p (pgSession x.bytes)) ≤ fieldAt x.bytes 0x20 4) :
    Completes (.sessionPark c ref) s fun t =>
      t.sess (pgSession x.bytes) =
        (s.sess (pgSession x.bytes)).parked.evicting (fieldAt x.bytes 0x18 8) (parkJob ref p (s.evictable c p (pgSession x.bytes))) ∧
      (∀ m, m ≠ pgSession x.bytes → t.sess m = s.sess m) ∧ t.lrd.pools = s.lrd.pools ∧ Running t c ref := by
  obtain ⟨u, hu, t, ⟨hsess, hpools⟩, hnotes, hruns⟩ := h.completes_running (i := .sessionPark c ref) (sub := some 5) (by decide)
    (fun _ he => Option.some.inj he ▸ hop) rfl
    (R := fun t => SessAt s (pgSession x.bytes)
      ((s.sess (pgSession x.bytes)).parked.evicting (fieldAt x.bytes 0x18 8) (parkJob ref p (s.evictable c p (pgSession x.bytes)))) t ∧
      t.lrd.pools = s.lrd.pools) fun w f => by
      have hbit : bitOf (fieldAt x.bytes 0x14 1) 0 = true := by simp [bitOf, hevict]
      have hpages : (s.entered w f).evictable c p (pgSession x.bytes) = s.evictable c p (pgSession x.bytes) := rfl
      have hparked := SessAt.upd (.refl (s.entered w f)) (pgSession x.bytes) Sess.parked
      refine ⟨_, (h.apply_eq w f).trans (show applyCtl (s.entered w f) c p ref x.bytes =
        ({ s := ((s.entered w f).updSess (pgSession x.bytes) Sess.parked).updSess (pgSession x.bytes)
            (Sess.evicting (fieldAt x.bytes 0x18 8) (parkJob ref p (s.evictable c p (pgSession x.bytes)))), status := 0, detail := 0 }, false) from ?_),
        rfl, hparked.again _, rfl⟩
      unfold applyCtl
      simp only [hop, applyPark, State.entered_sess, parks_of_state hstate, hbit, hpages, Nat.not_lt_of_le hfits, Nat.ne_of_gt hsome, if_false]
      rfl
  obtain ⟨hsame, hother, -⟩ := hnotes.sessAt hsess
  refine ⟨u, hu, hsame, hother, ?_, hruns⟩
  rw [hnotes.frame]
  exact hpools

theorem completes_sessionUnpark (h : LarderTurn s c ref x p 0x15) (hop : ctlOp x.bytes = 6) (hstate : (s.sess (pgSession x.bytes)).state = 3)
    (hhere : (s.sess (pgSession x.bytes)).evicted = false) :
    Completes (.sessionUnpark c ref) s fun t => t.sess (pgSession x.bytes) = (s.sess (pgSession x.bytes)).unpark ∧
      (∀ m, m ≠ pgSession x.bytes → t.sess m = s.sess m) ∧ t.lrd.pools = s.lrd.pools ∧ t.hbm = s.hbm ∧ Ended t c ref := by
  refine h.completes_upd hop rfl Sess.unpark fun w f => ?_
  unfold applyCtl
  simp only [hop, applyUnpark, State.entered_sess, hstate, hhere]
  rfl

/-! ## MIGRATE (R242) -/

/-- The job of a migration. -/
def migrateJob (ref : CmdRef) (p : Partition) (pages : List (Nat × Nat × Nat)) : Job :=
  { kind := 2, ref := ref, pages := pages.map fun (g, page, _) => (g, page), moved := 0, total := (pages.map fun (_, _, k) => pageBytes p k).sum,
    ready := false }

/-- A descriptor that a migration's job holds. -/
def Sess.leaving (j : Job) (d : Sess) : Sess := { d with migrating := true, job := some j }

theorem State.sendVc3_linkOnly (m : Ctl) : LinkOnly s (s.sendVc3 m) := State.sendPacket_getD_linkOnly _ _ _ _

/-- A message on VC3 that a route takes is held for the twin. -/
theorem State.sendVc3_held {m : Ctl} {q : Nat} (h : s.route (twinOf s.moduleId) 3 none = some q) :
    ∃ y ∈ (s.sendVc3 m).heldPkts, y.dst = twinOf s.moduleId ∧ y.vc = 3 ∧ y.ctl = some m := by
  unfold State.sendVc3
  extract_lets pkt
  have hroute : s.route pkt.dst pkt.vc none = some q := h
  cases hsent : s.sendPacket pkt false .free false with
  | none => simp [State.sendPacket, hroute] at hsent
  | some v => exact (State.sendPacket_heldPkts hsent).2

/-- What a message asks of the twin: the session's descriptor and the sizes of its pages. -/
def askOf (s : State) (c : Nat) (p : Partition) (n : Nat) : Ctl :=
  .migrateAsk c n (s.sess n) ((s.allPages c p n).map fun (g, _, k) => (g, k))

theorem completes_sessionMigrate (h : LarderTurn s c ref x p 0x15) (hop : ctlOp x.bytes = 8)
    (hstate : (s.sess (pgSession x.bytes)).state = 4 ∨ ((s.sess (pgSession x.bytes)).state = 3 ∧ (s.sess (pgSession x.bytes)).evicted = false))
    (hmode : s.mode c = 0) (hsame : s.sameLarder c = true) (hreach : s.twinReach = true) :
    Completes (.sessionMigrate c ref) s fun t =>
      t.sess (pgSession x.bytes) = (s.sess (pgSession x.bytes)).leaving (migrateJob ref p (s.allPages c p (pgSession x.bytes))) ∧
      (∀ q, s.route (twinOf s.moduleId) 3 none = some q →
        ∃ y ∈ t.heldPkts, y.dst = twinOf s.moduleId ∧ y.vc = 3 ∧ y.ctl = some (askOf s c p (pgSession x.bytes))) ∧
      (∀ m, m ≠ pgSession x.bytes → t.sess m = s.sess m) ∧ t.lrd.pools = s.lrd.pools ∧ Running t c ref := by
  obtain ⟨u, hu, t, ⟨hsess, hpools, hheld⟩, hnotes, hruns⟩ := h.completes_running (i := .sessionMigrate c ref) (sub := some 8) (by decide)
    (fun _ he => Option.some.inj he ▸ hop) rfl
    (R := fun t => SessAt s (pgSession x.bytes) ((s.sess (pgSession x.bytes)).leaving (migrateJob ref p (s.allPages c p (pgSession x.bytes)))) t ∧
      t.lrd.pools = s.lrd.pools ∧ ∀ q, s.route (twinOf s.moduleId) 3 none = some q →
        ∃ y ∈ t.heldPkts, y.dst = twinOf s.moduleId ∧ y.vc = 3 ∧ y.ctl = some (askOf s c p (pgSession x.bytes))) fun w f => by
      have hin : (!((s.sess (pgSession x.bytes)).state == 4 ||
          ((s.sess (pgSession x.bytes)).state == 3 && !(s.sess (pgSession x.bytes)).evicted))) = false := by
        rcases hstate with h1 | ⟨h1, h2⟩
        · simp [h1]
        · simp [h1, h2]
      have hable : ((s.entered w f).mode c != 0 || !(s.entered w f).sameLarder c || !(s.entered w f).twinReach) = false := by
        have hm : (s.entered w f).mode c = 0 := hmode
        have hl : (s.entered w f).sameLarder c = true := hsame
        have hr : (s.entered w f).twinReach = true := hreach
        rw [hm, hl, hr]
        rfl
      let v := (s.entered w f).updSess (pgSession x.bytes) (Sess.leaving (migrateJob ref p (s.allPages c p (pgSession x.bytes))))
      have hv : SessAt s (pgSession x.bytes) _ v := SessAt.upd (.refl (s.entered w f)) (pgSession x.bytes) _
      have hlink : LinkOnly v (v.sendVc3 (askOf s c p (pgSession x.bytes))) := State.sendVc3_linkOnly _
      unfold LinkOnly at hlink
      refine ⟨_, (h.apply_eq w f).trans (show applyCtl (s.entered w f) c p ref x.bytes =
        ({ s := v.sendVc3 (askOf s c p (pgSession x.bytes)), status := 0, detail := 0 }, false) from ?_), ?_, ?_, ?_,
        fun q hq => State.sendVc3_held (s := v) hq⟩
      · unfold applyCtl
        simp only [hop, applyMigrate, State.entered_sess, hin, hable, State.entered_allPages]
        rfl
      · rw [hlink]; rfl
      · exact hv.of_eq (by rw [hlink]) (by rw [hlink])
      · rw [hlink]; rfl
  obtain ⟨hsess', hother, -⟩ := hnotes.sessAt hsess
  refine ⟨u, hu, hsess', fun q hq => ?_, hother, ?_, hruns⟩
  · obtain ⟨y, hy, hasked⟩ := hheld q hq
    exact ⟨y, hnotes.held y hy, hasked⟩
  · rw [hnotes.frame]
    exact hpools

/-! ## The twin's confirmation (R242, step 4) -/

theorem State.mirror_linkOnly (r : MirRec) : LinkOnly s (s.mirror c r) := .ite (s.sendTwin_linkOnly 3 _) (.refl s)

theorem LinkOnly.foldl {α : Type} {f : State → α → State} {l : List α} (hf : ∀ u x, LinkOnly u (f u x)) (s : State) : LinkOnly s (l.foldl f s) :=
  foldl_inv (Q := LinkOnly s) (fun u x h => h.trans (hf u x)) (.refl s)

theorem State.mirrorSess_linkOnly (n : Nat) : LinkOnly s (s.mirrorSess c n) := by
  unfold State.mirrorSess
  split
  · exact .refl s
  next q _ =>
    extract_lets put s1 s2 s3
    have hput (v : State) (ta k : Nat) : LinkOnly v (put v ta k) := by
      show LinkOnly v (match v.taRead c ta k with
        | some (bs, bad) => v.mirror c (.write ta bs bad)
        | none => v)
      split
      · exact State.mirror_linkOnly _
      · exact .refl v
    have h1 : LinkOnly s s1 := (State.mirror_linkOnly _).trans (State.mirror_linkOnly _)
    have h2 : LinkOnly s s2 := h1.trans (hput _ _ _)
    have h3 : LinkOnly s s3 := by
      refine h2.trans (.foldl (fun v i => ?_) _)
      split
      · exact hput _ _ _
      · exact .refl v
    exact .ite (.refl s) (h3.trans (.foldl (fun v _ => hput v _ _) _))

theorem LinkOnly.lrd (h : LinkOnly s t) : t.lrd = s.lrd := by
  unfold LinkOnly at h
  rw [h]

theorem LinkOnly.front (h : LinkOnly s t) : t.front = s.front := by
  unfold LinkOnly at h
  rw [h]

theorem State.endJob_lrd (n status : Nat) : (s.endJob c n ref status).lrd = s.lrd :=
  (State.mirrorSess_linkOnly n).lrd.trans (State.endWork_lrd.trans (State.updCmd_lrd _))

/-- A ring's command that a job ends with a status other than 0. -/
theorem State.endJob_ring_cmd {r csn status : Nat} {y : RCmd} (n : Nat) (hy : s.cmd c (.ring r csn) = some y) (hstatus : status ≠ 0) :
    ((s.endJob c n (.ring r csn) status).cmd c (.ring r csn)).map (fun z => (z.st, z.status)) = some (CmdSt.done, status) := by
  have hset : (s.updCmd c (.ring r csn) fun x => { x with status := status }).cmd c (.ring r csn) = some { y with status := status } :=
    State.cmd_updCmd_same (fun _ => rfl) hy
  have hend := State.endWork_ring_cmd hset
  have hout : RCmd.outcome { y with status := status } = (status, y.detail) := if_pos hstatus
  rw [State.endJob, State.cmd_congr (State.mirrorSess_linkOnly n).front, hend]
  simp only [Option.map_some, RCmd.finish, hout]

/-- A descriptor whose job is over. -/
def Sess.jobless (d : Sess) : Sess := { d with job := none, migrating := false }

section
variable {m : Nat} {j : Job} (hp : s.part c = some p) (hjob : (s.sess m).job = some j) (hkind : j.kind = 2) (hsess : sessIn p m = true)
include hp hjob hkind hsess

theorem State.migrated_early (hmore : j.moved < j.total) : s.migrated c m true = s := by
  simp [State.migrated, hp, hjob, hkind, hsess, hmore]

theorem State.migrated_confirmed (hall : j.total ≤ j.moved) :
    s.migrated c m true = ((s.updSess m Sess.jobless).closeSess c p m).endJob c m j.ref 0 := by
  have hno : ¬(j.kind ≠ 2 ∨ sessIn p m = false) := by simp [hkind, hsess]
  simp only [State.migrated, hp, hjob, hno, if_false, if_true, Nat.not_lt_of_le hall]
  rfl

theorem State.migrated_refused : s.migrated c m false = (s.updSess m Sess.jobless).endJob c m j.ref lrdTwin := by
  have hno : ¬(j.kind ≠ 2 ∨ sessIn p m = false) := by simp [hkind, hsess]
  simp only [State.migrated, hp, hjob, hno, if_false]
  rfl

theorem State.migrated_closes (hall : j.total ≤ j.moved) :
    (s.migrated c m true).sess m = (s.sess m).jobless.closed ∧ ∀ o, o ≠ m → (s.migrated c m true).sess o = s.sess o := by
  have hclosed := State.closeSess_closed (s := s.updSess m Sess.jobless) (c := c) (p := p) m
  have hlrd := State.endJob_lrd (s := (s.updSess m Sess.jobless).closeSess c p m) (c := c) (ref := j.ref) m 0
  rw [← State.migrated_confirmed hp hjob hkind hsess hall] at hlrd
  obtain ⟨hsame, hother⟩ := hclosed.of_eq (congrArg Larder.sess hlrd)
  rw [State.sess_updSess_same] at hsame
  exact ⟨hsame, fun o ho => (hother o ho).trans (State.sess_updSess_other _ _ ho)⟩

end

/-- Settles O54: each command is `larderApply` of its own case of `applyCtl`, whose descriptor the command's notes and end keep, and the
confirmation is the closing of the session, or the end of its job, under `endJob`. -/
theorem sessionsParkUnparkAndMigrate : Obligations.SessionsParkUnparkAndMigrate := by
  unfold Obligations.SessionsParkUnparkAndMigrate
  intro s c ref x p b n d
  refine ⟨fun h => ⟨completes_sessionPark h, fun hop hstate hevict hsome hfits => ?_, completes_sessionUnpark h,
    fun hop hstate hmode hlarder hreach => ?_⟩, fun m j _ _ hp hjob hkind hsess => ⟨fun hmore => ?_, fun hall => ?_, ?_⟩⟩
  · obtain ⟨t, ht, hsame, hother, hpools, hruns⟩ := completes_sessionPark_evicting h hop hstate hevict hsome hfits
    have hn : t.sess n = _ := hsame
    refine ⟨t, ht, ?_⟩
    dsimp only
    rw [hn]
    exact ⟨rfl, rfl, rfl, rfl, ⟨_, rfl, rfl, rfl, rfl, rfl, rfl⟩, hpools, hother, hruns⟩
  · obtain ⟨t, ht, hsame, hheld, hother, hpools, hruns⟩ := completes_sessionMigrate h hop hstate hmode hlarder hreach
    have hn : t.sess n = _ := hsame
    refine ⟨t, ht, ?_⟩
    dsimp only
    rw [hn]
    refine ⟨rfl, rfl, ⟨_, rfl, rfl, rfl, rfl, rfl⟩, ⟨_, rfl, rfl, rfl⟩, fun q hq => ?_, hother, hpools, hruns⟩
    obtain ⟨y, hy, hdst, hvc, hctl⟩ := hheld q hq
    obtain ⟨held, hmem, rfl⟩ := List.mem_map.mp hy
    exact ⟨held, hmem, hdst, hvc, hctl⟩
  · exact ⟨s, congrArg Host.Outcome.next (State.migrated_early hp hjob hkind hsess hmore), rfl⟩
  · obtain ⟨hsame, hother⟩ := State.migrated_closes hp hjob hkind hsess hall
    refine ⟨_, rfl, ?_, ?_, ?_, hother⟩
    all_goals rw [hsame]; rfl
  · refine ⟨_, congrArg Host.Outcome.next (State.migrated_refused hp hjob hkind hsess), ?_, fun o ho => ?_, ?_, fun r csn hr y hy => ?_⟩
    · rw [State.sess_congr (congrArg Larder.sess (State.endJob_lrd _ _)), State.sess_updSess_same]
      rfl
    · rw [State.sess_congr (congrArg Larder.sess (State.endJob_lrd _ _)), State.sess_updSess_other _ _ ho]
    · rw [State.endJob_lrd]
      rfl
    · rw [hr] at hy ⊢
      exact State.endJob_ring_cmd m ((State.cmd_congr rfl).trans hy) (by decide)

end

end Sys2Proof.Machine
end

section
/-!
PROOFS. The twin: mode requests, resync, mirror records and marks, units and digests, heartbeats, loss and return (O31).
-/

namespace Sys2Proof.Machine

section
variable {s t : State} {c : Nat}

/-! ## Mode requests (R474) -/

theorem State.twinSt_congr (h : t.twin = s.twin) (n : Nat) : t.twinSt n = s.twinSt n := by
  rw [State.twinSt, State.twinSt, h]

theorem LinkOnly.twin (h : LinkOnly s t) : t.twin = s.twin := by
  unfold LinkOnly at h
  rw [h]

theorem State.execTwinModeRequest_eq (req : Nat) (hc : c < 16) (hserves : s.serves = true) (hp : (s.part c).isSome = true) :
    exec (.twinModeRequest c req) s = .next (s.modeRequest c req) := by
  refine if_neg fun hno => ?_
  rcases hno with hno | hno | hno
  · omega
  · simp [hserves] at hno
  · simp [Option.isNone_iff_eq_none.mp hno] at hp

/-- A request leaves the lost twin's flag and the tick as they are. -/
theorem State.setReq_frame (req : Nat) (hw : nwf s.regs = true) :
    (s.setFld (tnt c 0x8) 0 2 req).twinLost = s.twinLost ∧ (s.setFld (tnt c 0x8) 0 2 req).tickNo = s.tickNo := by
  have hwords : WordsOnly (· = tnt c 0x8) s (s.setFld (tnt c 0x8) 0 2 req) := s.setFld_words _ _ _ rfl
  exact ⟨hwords.flag_eq hw (by unfold tnt; omega) 1, State.tickNo_of_words hwords hw (by unfold tnt; omega) (by unfold tnt; omega)⟩

theorem completes_twinModeRequest_alone (req : Nat) (hw : nwf s.regs = true) (hc : c < 16) (hserves : s.serves = true)
    (hp : (s.part c).isSome = true) (hreq : req % 4 = 0) (hlost : s.twinLost = true) :
    Completes (.twinModeRequest c req) s fun t =>
      t.fld (tnt c 0x8) 0 2 = 0 ∧ (t.twinSt c).change = some (0, s.tickNo + 1) ∧ t.outbox = s.outbox := by
  refine ⟨_, State.execTwinModeRequest_eq req hc hserves hp, ?_⟩
  have hfld := State.fld_setFld_same (tnt c 0x8) 0 2 req hw (by decide)
  obtain ⟨hflag, htick⟩ := State.setReq_frame (c := c) req hw
  have hbox : (s.setFld (tnt c 0x8) 0 2 req).outbox = s.outbox := rfl
  unfold State.modeRequest
  generalize s.setFld (tnt c 0x8) 0 2 req = v at hfld hflag htick hbox
  dsimp only
  rw [hreq, hflag, hlost, htick]
  refine ⟨hfld.trans hreq, ?_, hbox⟩
  show ((v.updTwin c fun x => { x with reqTick := none, change := some (0, s.tickNo + 1) }).twinSt c).change = _
  rw [State.twinSt_updTwin_same _ hc]

/-- A request without the twin's is on hand, and nothing is agreed on. -/
theorem State.agreeMode_of_peer_none (h : (s.twinSt c).peerReq = none) : s.agreeMode c = s := by
  unfold State.agreeMode
  dsimp only
  rw [h]
  split
  next heq => cases heq
  next => rfl

/-- The twin's request without this member's is on hand, and nothing is agreed on. -/
theorem State.agreeMode_of_own_none (h : (s.twinSt c).reqTick = none) : s.agreeMode c = s := by
  unfold State.agreeMode
  dsimp only
  rw [h]

theorem completes_twinModeRequest (req : Nat) (hw : nwf s.regs = true) (hc : c < 16) (hserves : s.serves = true)
    (hp : (s.part c).isSome = true) (hlost : s.twinLost = false) (hpeer : (s.twinSt c).peerReq = none) :
    Completes (.twinModeRequest c req) s fun t => t.fld (tnt c 0x8) 0 2 = req % 4 ∧ (t.twinSt c).reqTick = some s.tickNo := by
  refine ⟨_, State.execTwinModeRequest_eq req hc hserves hp, ?_⟩
  have hfld := State.fld_setFld_same (tnt c 0x8) 0 2 req hw (by decide)
  obtain ⟨hflag, htick⟩ := State.setReq_frame (c := c) req hw
  have htwin : (s.setFld (tnt c 0x8) 0 2 req).twinSt c = s.twinSt c := rfl
  unfold State.modeRequest
  generalize s.setFld (tnt c 0x8) 0 2 req = v at hfld hflag htick htwin
  dsimp only
  rw [hflag, hlost, Bool.and_false, if_neg (by decide), htick]
  have hu : (v.updTwin c fun x => { x with reqTick := some s.tickNo }).twinSt c = { v.twinSt c with reqTick := some s.tickNo } :=
    State.twinSt_updTwin_same _ hc
  have hregs : (v.updTwin c fun x => { x with reqTick := some s.tickNo }).regs = v.regs := rfl
  generalize v.updTwin c (fun x => { x with reqTick := some s.tickNo }) = u at hu hregs
  have hlink := u.sendTwin_linkOnly 0 (.modeRequest c (req % 4) u.tickNo (u.wsetDigest c) u.publishedSet)
  generalize u.sendTwin 0 (.modeRequest c (req % 4) u.tickNo (u.wsetDigest c) u.publishedSet) = r at hlink
  have hr : r.twinSt c = u.twinSt c := State.twinSt_congr hlink.twin c
  rw [State.agreeMode_of_peer_none (by rw [hr, hu, htwin]; exact hpeer)]
  refine ⟨Eq.trans ?_ hfld, by rw [hr, hu]⟩
  rw [State.fld, State.fld, State.word, State.word, hlink.regs, hregs]

theorem completes_twinModeRequestReceive (m k : Nat) (d : List Byte) (pub : Nat) (hc : c < 16) (hp : (s.part c).isSome = true)
    (hown : (s.twinSt c).reqTick = none) :
    Completes (.twinModeRequestReceive c m k d pub) s fun t => (t.twinSt c).peerReq = some (m, k, d, pub) ∧ t.regs = s.regs := by
  have hx := State.twinSt_updTwin_same (s := s) (fun x => { x with peerReq := some (m, k, d, pub) }) hc
  have hexec : exec (.twinModeRequestReceive c m k d pub) s = .next (s.peerMode c m k d pub) := by
    refine if_neg fun hno => ?_
    rcases hno with hno | hno
    · omega
    · simp [Option.isNone_iff_eq_none.mp hno] at hp
  refine ⟨_, hexec, ?_⟩
  rw [State.peerMode, State.agreeMode_of_own_none (by rw [hx]; exact hown)]
  exact ⟨congrArg TwinSt.peerReq hx, rfl⟩

/-! ## Resync, mirror records, marks and step records (R243, R474, R475) -/

theorem completes_resyncComplete (hc : c < 16) (h : if s.servesPair then (s.twinSt c).resync = 1 else (s.twinSt c).resync = 2) :
    Completes (.resyncComplete c) s fun t => (t.twinSt c).resync = 3 ∧ t.regs = s.regs := by
  refine ⟨_, if_neg fun hno => ?_, ?_, rfl⟩
  · rcases hno with hno | hno
    · omega
    · cases hs : s.servesPair <;> simp [hs] at h hno <;> exact hno h
  · rw [State.twinSt_updTwin_same _ hc]

theorem completes_mirrorRecordReceive_sess (n : Nat) (d : Sess) (hc : c < 16) (hpair : s.servesPair = false) (hp : (s.part c).isSome = true) :
    Completes (.mirrorRecordReceive c (.sess n d)) s fun t => t = s.setSess n d := by
  obtain ⟨p, hp⟩ := Option.isSome_iff_exists.mp hp
  refine ⟨_, if_neg fun hno => ?_, ?_⟩
  · rcases hno with hno | hno
    · omega
    · simp [hpair] at hno
  · rw [State.applyMirror, hp]

theorem completes_mirrorMarkReceive (k : Nat) (ctrs : List (Nat × Nat)) (csns : List Nat) (ret : Nat) (hc : c < 16) (hpair : s.servesPair = false) :
    Completes (.mirrorMarkReceive c k ctrs csns ret) s fun t =>
      (t.twinSt c).markTick = k ∧ (t.twinSt c).markCtrs = ctrs ∧ (t.twinSt c).markCsns = csns ∧ (t.twinSt c).markRet = ret ∧
      (t.twinSt c).undo = [] ∧ t.regs = s.regs ∧ t.hbm = s.hbm := by
  refine ⟨_, if_neg fun hno => ?_, ?_⟩
  · rcases hno with hno | hno
    · omega
    · simp [hpair] at hno
  · unfold State.applyMark
    dsimp only
    rw [State.twinSt_updTwin_same _ hc]
    exact ⟨rfl, rfl, rfl, rfl, rfl, rfl, rfl⟩

theorem completes_stepRecordReceive (r : StepRec) (hc : c < 16) (hcompare : s.comparing c = true) (hpair : s.servesPair = false) :
    Completes (.stepRecordReceive c r) s fun t => (t.twinSt c).steps = (s.twinSt c).steps ++ [r] ∧ t.regs = s.regs := by
  refine ⟨_, if_neg fun hno => ?_, ?_, rfl⟩
  · rcases hno with hno | hno | hno
    · omega
    · simp [hcompare] at hno
    · simp [hpair] at hno
  · rw [State.recvStep, State.twinSt_updTwin_same _ hc]

/-! ## Units and digests (R476, R477) -/

theorem State.settleUnits_of_nil (h : (s.twinSt c).units = []) (fuel : Nat) : s.settleUnits c fuel = s := by
  cases fuel with
  | zero => rfl
  | succ fuel => simp only [State.settleUnits, h]

/-- A unit whose twin's digest has not come waits. -/
theorem State.settleUnits_of_no_digests (h : (s.twinSt c).digests = []) (fuel : Nat) : s.settleUnits c fuel = s := by
  cases fuel with
  | zero => rfl
  | succ fuel =>
    cases hunits : (s.twinSt c).units with
    | nil => exact State.settleUnits_of_nil hunits _
    | cons u rest =>
      have hnone : aget (s.twinSt c).digests u.tick = none := by rw [h]; rfl
      simp only [State.settleUnits, hunits, hnone]
      cases u.own <;> rfl

theorem State.hostFail_keepsLarder (r : Nat) (e : List Byte) : KeepsLarder s (s.hostFail c r e) :=
  ((State.pushLog_keepsLarder _).trans (State.setFld_reports _ _ _ _ _).keepsLarder).trans (State.raise_keepsLarder _ _)

theorem State.letOut_keepsLarder (a : Action) : KeepsLarder s (s.letOut c a) := by
  cases a with
  | intr r => exact (s.interrupt_reports _ _).keepsLarder
  | signal r e out => exact .ite (State.pushLog_keepsLarder _) (State.signal_keepsLarder _ _ _)
  | write r at_ data => exact .ite (State.pushLog_keepsLarder _) (.ite (.of_eq rfl rfl) (State.hostFail_keepsLarder _ _))

theorem State.writeSeal_keepsLarder (m : List Byte) (two : Bool) : KeepsLarder s (s.writeSeal c m two) := by
  unfold State.writeSeal
  split
  · exact .refl s
  · dsimp only
    rw [State.taWrite_frame]
    exact .of_eq rfl rfl

/-- Equal digests settle the one unit: it leaves the list, and nothing that it lets out brings one. -/
theorem State.settleUnits_agreed {u : CmpUnit} {a : List Byte} (hc : c < 16) (hunits : (s.twinSt c).units = [u]) (hown : u.own = some a)
    (hdigest : aget (s.twinSt c).digests u.tick = some a) (hdiverge : (s.twinSt c).diverge = none) (fuel : Nat) :
    ((s.settleUnits c (fuel + 1)).twinSt c).units = [] := by
  have hgone : (((s.setQuad (tnt c 0x18) u.tick).updTwin c fun y => { y with
      units := [], digests := adel y.digests u.tick, markCsns := u.csns }).twinSt c).units = [] := by
    rw [State.twinSt_updTwin_same _ hc]
  simp only [State.settleUnits, hunits, hown, hdigest, hdiverge, Option.isSome_none, Bool.false_eq_true, if_false, if_true]
  generalize (s.setQuad (tnt c 0x18) u.tick).updTwin c (fun y => { y with
    units := [], digests := adel y.digests u.tick, markCsns := u.csns }) = v at hgone
  have hevent : KeepsLarder v (v.twinEvent c u.tick true a) := (State.event_reports _ _ _ _ _ _ _).keepsLarder
  generalize v.twinEvent c u.tick true a = w at hevent
  have hout : KeepsLarder w (u.held.foldl (fun s a => s.letOut c a) w) := .foldl (fun _ _ => State.letOut_keepsLarder _) w
  have hseal (x : Option (List Byte)) : KeepsLarder w (match x with
      | some m => (u.held.foldl (fun s a => s.letOut c a) w).writeSeal c m true
      | none => u.held.foldl (fun s a => s.letOut c a) w) := by
    cases x with
    | none => exact hout
    | some m => exact hout.trans (State.writeSeal_keepsLarder m true)
  have hlet := KeepsLarder.ite (q := w.servesPair = true) (hseal u.sealMsg) (.refl w)
  have hnone := ((hevent.trans hlet).2 c).trans hgone
  exact (congrArg (fun v : State => (v.twinSt c).units) (State.settleUnits_of_nil hnone fuel)).trans hnone

/-- The one unit takes this member's digest. -/
theorem State.unitOf_signs {u : CmpUnit} {d : List Byte} (hc : c < 16) (hunits : (s.twinSt c).units = [u]) (hdigests : (s.twinSt c).digests = []) :
    ((s.unitOf c u.tick fun u => { u with own := some d }).twinSt c).units = [{ u with own := some d }] ∧
      ((s.unitOf c u.tick fun u => { u with own := some d }).twinSt c).digests = [] := by
  rw [State.unitOf, State.twinSt_updTwin_same _ hc]
  refine ⟨?_, hdigests⟩
  dsimp only
  rw [hunits, List.map_singleton, if_pos (beq_self_eq_true _)]

theorem completes_unitComplete {u : CmpUnit} (hc : c < 16) (hcompare : s.comparing c = true) (hactive : s.active c = true)
    (hunits : (s.twinSt c).units = [u]) (hdigests : (s.twinSt c).digests = []) (hown : u.own = none) (hdone : s.unitDone c u.tick = true) :
    Completes (.unitComplete c u.tick) s fun t => (t.twinSt c).units.map (·.own) = [some (s.unitDigest c u)] := by
  refine ⟨_, if_neg fun hno => ?_, ?_⟩
  · rcases hno with hno | hno
    · omega
    · simp [hcompare] at hno
  · have hfind : (s.twinSt c).units.find? (fun y => y.tick == u.tick) = some u := by rw [hunits]; simp
    simp only [State.unitComplete, hfind, hown, hactive, hdone, Option.isSome_none, Bool.not_true, Bool.or_self, Bool.false_eq_true, if_false, State.fresh]
    have hbase : State.twinSt { s with freeCtr := s.freeCtr + 1 } c = s.twinSt c := rfl
    generalize ({ s with freeCtr := s.freeCtr + 1 } : State) = w at hbase ⊢
    generalize (if u.sealMsg.isSome = true then _ else _ : List Byte) = sig
    obtain ⟨hsigned, hempty⟩ := State.unitOf_signs (d := s.unitDigest c u) hc (hbase ▸ hunits) (hbase ▸ hdigests)
    generalize State.unitOf w c u.tick _ = v at hsigned hempty ⊢
    have hlink := v.sendTwin_linkOnly 0 (.unitDigest c u.tick (s.unitDigest c u) sig)
    generalize v.sendTwin 0 (.unitDigest c u.tick (s.unitDigest c u) sig) = r at hlink
    have hr : r.twinSt c = v.twinSt c := State.twinSt_congr hlink.twin c
    rw [State.settleUnits_of_no_digests (by rw [hr]; exact hempty), hr, hsigned]
    rfl

theorem completes_unitDigestReceive {u : CmpUnit} {a : List Byte} (hc : c < 16) (hcompare : s.comparing c = true)
    (hunits : (s.twinSt c).units = [u]) (hown : u.own = some a) (hdiverge : (s.twinSt c).diverge = none) :
    Completes (.unitDigestReceive c u.tick a) s fun t => (t.twinSt c).units = [] := by
  refine ⟨_, if_neg fun hno => ?_, ?_⟩
  · rcases hno with hno | hno
    · omega
    · simp [hcompare] at hno
  · have hx := State.twinSt_updTwin_same (s := s) (fun x => { x with digests := aput x.digests u.tick a }) hc
    refine State.settleUnits_agreed (u := u) (a := a) hc ?_ hown ?_ ?_ 7
    · rw [hx]; exact hunits
    · rw [hx]; exact aget_aput_same _ _ _
    · rw [hx]; exact hdiverge

/-! ## Heartbeats (R342) -/

theorem completes_heartbeatSend (hcat : s.cat.isSome = true) (hup : s.portState 16 = psUp) :
    Completes .heartbeatSend s fun t =>
      t = { s with outbox := s.outbox ++ (if s.portState 17 = psUp then [.heartbeat 16, .heartbeat 17] else [.heartbeat 16]) } := by
  have hknown : s.cat ≠ none := Option.isSome_iff_ne_none.mp hcat
  have hports : [16, 17].filter (fun q => s.portState q == psUp) = if s.portState 17 = psUp then [16, 17] else [16] := by
    by_cases h17 : s.portState 17 = psUp <;> simp [hup, h17]
  have hexec : exec .heartbeatSend s = execHeartbeatSend s := rfl
  refine ⟨_, ?_, rfl⟩
  rw [hexec, execHeartbeatSend, hports, if_neg hknown]
  split
  · simp [State.send]
  · simp [State.send]

/-! ## The twin's loss (R471, R472) -/

theorem foldl_of_fixed {α β : Type} {f : α → β → α} {a : α} {l : List β} (h : ∀ x ∈ l, f a x = a) : l.foldl f a = a := by
  induction l with
  | nil => rfl
  | cons x l ih => rw [List.foldl_cons, h x List.mem_cons_self, ih fun y hy => h y (List.mem_cons_of_mem x hy)]

/-- Without a job nothing migrates, parks or resumes. -/
theorem State.endMigrations_of_jobless (h : (s.lrd.sess.any fun (_, d) => d.jobbed) = false) : s.endMigrations = s := by
  refine foldl_of_fixed fun n _ => ?_
  split
  · rfl
  next p _ =>
    have hnone : s.lrd.sess.filter (fun (m, d) => sessIn p m && d.jobbed) = [] := by
      refine List.filter_eq_nil_iff.mpr fun y hy => ?_
      have hy' := List.any_eq_false.mp h y hy
      simp only [Bool.and_eq_true, not_and]
      exact fun _ => hy'
    rw [hnone]
    rfl

/-- The words that a lost twin's flag and its event change. -/
def LossWords (a : Nat) : Prop := a = 0x40 ∨ a = 0x30

theorem completes_twinLossTimeout (htidy : nwf s.regs = true) (hserves : s.serves = true) (hhere : s.twinLost = false)
    (hsolo : ∀ n : Fin 16, s.mode n = 0 ∧ (s.twinSt n).resync = 0) (hjobs : (s.lrd.sess.any fun (_, d) => d.jobbed) = false) :
    Completes .twinLossTimeout s fun t => t.twinLost = true ∧ t.pair.takeover = !s.servesPair ∧ t.pair.back = false ∧ t.twin = s.twin := by
  let v := (s.setFlag 0x40 1 true).modEvent 4
  have hset : WordsOnly LossWords s (s.setFlag 0x40 1 true) := s.setFlag_words _ _ (.inl rfl)
  have hevent : WordsOnly LossWords (s.setFlag 0x40 1 true) v := State.modEvent_words _ 4 (.inr rfl)
  have hmode (n : Nat) : v.mode n = s.mode n :=
    (hset.trans hevent).fld_eq htidy (by unfold LossWords tnt; omega) _ _
  have htwin : v.twin = s.twin := State.modEvent_twin _ _
  have hlost : v.twinLost = true := by
    have h40 : WordsOnly (· = 0x30) (s.setFlag 0x40 1 true) v := State.modEvent_words _ 4 rfl
    have hflag := h40.flag_eq (a := 0x40) (hset.wf htidy) (by decide) 1
    exact hflag.trans (State.flag_setFlag_same _ _ _ htidy (by decide))
  have hend : v.endMigrations = v := State.endMigrations_of_jobless (by rw [State.modEvent_lrd]; exact hjobs)
  let w : State := { v with pair := { v.pair with takeover := !s.servesPair, back := false } }
  refine ⟨w, ?_, hlost, rfl, rfl, htwin⟩
  show Host.Outcome.next s.loseTwin = _
  congr 1
  unfold State.loseTwin
  rw [hhere, hserves, if_neg (by decide)]
  dsimp only
  rw [hend]
  refine foldl_of_fixed fun n hn => ?_
  obtain ⟨hm, hr⟩ := hsolo ⟨n, List.mem_range.mp hn⟩
  have hwm : w.mode n = 0 := (hmode n).trans hm
  have hwr : (w.twinSt n).resync = 0 := (congrArg TwinSt.resync (State.twinSt_congr htwin n)).trans hr
  simp only [w] at hwm hwr
  rw [if_pos hwr, hwm]
  rfl

end

/-- Settles O31: each command is its own case of `exec`; what it sends leaves the twin's notes, and units settle as `settleUnits_agreed` says. -/
theorem twinModesMarksUnitsAndLoss : Obligations.TwinModesMarksUnitsAndLoss := by
  unfold Obligations.TwinModesMarksUnitsAndLoss
  intro s c htidy
  have hw := State.tidy_regs htidy
  have hc := c.isLt
  refine ⟨fun req => completes_twinModeRequest_alone req hw hc, fun req => completes_twinModeRequest req hw hc,
    fun m k d pub => completes_twinModeRequestReceive m k d pub hc, completes_resyncComplete hc,
    fun n d => completes_mirrorRecordReceive_sess n d hc, fun k ctrs csns ret => completes_mirrorMarkReceive k ctrs csns ret hc,
    fun r => completes_stepRecordReceive r hc, fun u => completes_unitComplete hc, fun u a => completes_unitDigestReceive hc,
    completes_heartbeatSend, ⟨_, rfl, rfl⟩, completes_twinLossTimeout hw, fun hlost => ?_, fun hserves hpair => ?_, fun b hp => ?_⟩
  · exact ⟨_, rfl, if_pos hlost⟩
  · exact ⟨_, if_pos hserves, if_pos hpair⟩
  · refine ⟨_, if_neg fun hno => ?_, ?_, rfl⟩
    · rcases hno with hno | hno
      · omega
      · simp [Option.isNone_iff_eq_none.mp hno] at hp
    · simp only [State.ladle, State.updLadle, hc, dif_pos]
      rw [vupd_get_same _ hc]

end Sys2Proof.Machine
end


section
/-!
PROOFS. The canonical form of the memories, at reset and after every step: O5, O6.
-/

namespace Sys2Proof.Machine

/-- Settles O5: the bank at reset lists its words in rising order, none of them zero, and the other memories list nothing. -/
theorem resetIsTidy : Obligations.ResetIsTidy := ⟨by decide +kernel, rfl, rfl⟩

/-- Settles O6: every command keeps the canonical form (`Good.tidy`), and taking it from the queue touches no memory. -/
theorem stepKeepsMemoriesCanonical : Obligations.StepKeepsMemoriesCanonical := by
  intro s t hstep htidy
  cases hq : s.pending with
  | nil =>
    have hidle : step s = .next s := by rw [step, hq]
    cases hidle.symm.trans hstep
    exact htidy
  | cons c rest => exact (exec_good c (.refl { s with pending := rest }) t ((step_of_pending hq).symm.trans hstep)).tidy htidy

end Sys2Proof.Machine
end


section
/-!
PROOFS. Instructions that the transfer unit and the codecs take: what has issued, the transfer unit's turn, the hand-over to a
codec, and O23.
-/

namespace Sys2Proof.Machine

/-! ## Faults leave the codecs (R484, R488) -/

theorem State.freeze_cdx (s : State) (c : Nat) (peer : Bool) : (s.freeze c peer).cdx = s.cdx := by
  unfold State.freeze
  extract_lets s0 s1 s2 recov s3 s4
  have h2 : s2.cdx = s.cdx := foldl_inv (Q := fun u : State => u.cdx = s.cdx)
    (fun u r h => ite_of_both (Q := fun v : State => v.cdx = s.cdx) h h) (s0.setTState_cdx _ _)
  have h4 : s4.cdx = s.cdx := (State.modEvent_cdx _ _).trans ((State.tntEvent_cdx _ _ _).trans h2)
  have hsent : (s4.sendTwin 0 (.freeze c 0xF2)).cdx = s.cdx := by
    have h := s4.sendTwin_linkOnly 0 (.freeze c 0xF2)
    rw [LinkOnly] at h
    rw [h]
    exact h4
  exact ite_of_both (Q := fun v : State => v.cdx = s.cdx) rfl (ite_of_both (Q := fun v : State => v.cdx = s.cdx) hsent h4)

theorem State.raise_cdx (s : State) (c code : Nat) (i : Info) : (s.raise c code i).cdx = s.cdx := by
  unfold State.raise
  split
  · exact (State.freeze_cdx _ _ _).trans (s.enter_cdx _ _ _)
  · exact (State.freeze_cdx _ _ _).trans (s.enter_cdx _ _ _)
  · exact s.enter_cdx _ _ _

theorem State.drainNotes_cdx (s : State) (n id : Nat) : (s.drainNotes n id).cdx = s.cdx := by
  unfold State.drainNotes
  split
  · rfl
  · exact foldl_inv (Q := fun u : State => u.cdx = s.cdx) (fun u _ h => (u.raise_cdx _ _ _).trans h) rfl

/-! ## What has issued (R94, R260) -/

/-- Tile `x` once word `w` of program `p` has issued on it to `unit`, with the wait that a SLOT_WAIT begins. -/
def takenTile (x : Tile) (p : Prog) (w : BitVec 256) (unit : Nat) : Tile :=
  { issuedTile x p w unit with
    slotWait := if wOpc w = 0x73 then some (vOff w, (claimOf x w).2.1, bf w 32 32 == 0) else (claimOf x w).1.slotWait }

/-- The state once word `w` has issued on tile `n`, before its unit goes on: the instruction is counted. -/
def State.taken (s : State) (n : Nat) (p : Prog) (w : BitVec 256) (unit : Nat) : State :=
  ((s.setTile n (takenTile (s.tile n) p w unit)).addQuad (0xA01008 + 0x20 * n) 1).addQuad (0xA02040 + 0x100 * p.tenant) 1

section
variable {s : State} {n unit opc : Nat} {w : BitVec 256} {p : Prog}

theorem State.tile_taken (hn : n < 128) : (s.taken n p w unit).tile n = takenTile (s.tile n) p w unit := State.tile_setTile_same _ hn

theorem takenTile_flight {x : Tile} (h : x.flight = []) : (takenTile x p w unit).flight = [issuedFlight x w unit p.tenant] := by
  simp only [takenTile, issuedTile, h, List.nil_append]

/-- To issue, an instruction other than a SLOT_WAIT changes its tile's region table, range table and program alone. -/
theorem takenTile_eq {x : Tile} (h : x.flight = []) : takenTile x p w unit =
    { x with
      regions := (claimOf x w).1.regions, nextId := x.nextId + 1, flight := [issuedFlight x w unit p.tenant], prog := some p.next,
      slotWait := if wOpc w = 0x73 then some (vOff w, (claimOf x w).2.1, bf w 32 32 == 0) else x.slotWait } := by
  have hc := claimOf_regionsOnly x w
  rw [RegionsOnly] at hc
  simp only [takenTile, issuedTile, h, List.nil_append]
  rw [hc]

theorem State.holds_taken (c : Nat) (hw : nwf s.regs = true) : (s.taken n p w unit).holds c n = s.holds c n := by
  let u := s.setTile n (takenTile (s.tile n) p w unit)
  have h1 : WordsOnly (fun a => a % 256 ≠ 0) u (u.addQuad (0xA01008 + 0x20 * n) 1) := u.addQuad_words 1 (by omega) (by omega)
  have h2 := State.addQuad_words (P := fun a => a % 256 ≠ 0) (u.addQuad (0xA01008 + 0x20 * n) 1) (off := 0xA02040 + 0x100 * p.tenant) 1
    (by omega) (by omega)
  exact State.holds_congr (s := u) (h1.trans h2) hw (by simp only [tnt]; omega) (by decide) rfl rfl rfl

/-- An instruction whose checks pass on a tile that is ready issues, and its unit goes on. -/
theorem State.issue_eq_runUnit {check : State → Prog → Tile → Share → Option (Nat × Nat)} (hr : TileReady s n w p) (hopc : wOpc w = opc)
    (hc : check s p (s.tile n) (s.share p.tenant) = none) : s.issue n w opc unit check = (s.taken n p w unit).runUnit n unit := by
  obtain ⟨-, -, hissuing, hfetch, hflight, hflaws⟩ := hr
  have hclaimed : (claimOf (s.tile n) w).1.flight = (s.tile n).flight := claimOf_flight _ w
  subst hopc
  simp only [State.issue, hissuing, hfetch, interlocksOk_of_ready hflight, hc, State.fetchRead_of_no_flaw hflaws, ne_eq,
    not_true, Bool.not_true, Bool.false_eq_true, or_self, if_false, hclaimed]
  exact if_pos (.inr (by simp [hflight]))

/-! ## The transfer unit's turn (R260) -/

/-- With one instruction waiting, the transfer unit runs it and marks what has become of it. -/
theorem State.runXfers_sole {v v' : State} {q : Prog} {f : InFlight} {begun done : Bool} (k : Nat) (hn : n < 128)
    (hq : (v.tile n).prog = some q) (hf : (v.tile n).flight = [f]) (hunit : f.unit = 4) (hwait : f.begun = false)
    (hrun : v.runXfer n q f = (v', begun, done)) (hf' : (v'.tile n).flight = [f]) :
    v.runXfers n (k + 1) = v'.updTile n fun x => x.markFlight f.id begun done := by
  have hend (hb : begun = true) : (v'.updTile n fun x => x.markFlight f.id begun done).runXfers n k =
      v'.updTile n fun x => x.markFlight f.id begun done := by
    cases k with
    | zero => rfl
    | succ k =>
      have hnone : ((v'.updTile n fun x => x.markFlight f.id begun done).tile n).flight.find? (fun g => g.unit == 4 && !g.begun) = none := by
        rw [State.tile_updTile_same _ hn]
        simp [Tile.markFlight, hf', hb]
      unfold State.runXfers
      dsimp only
      rw [hnone]
      split
      next hsome => exact absurd hsome nofun
      next => rfl
  unfold State.runXfers
  simp only [hq, hf, List.find?_cons, hunit, hwait, beq_self_eq_true, Bool.not_false, Bool.and_self, hrun]
  split
  next hb => exact hend hb
  next => rfl

/-- An instruction that the transfer unit takes at issue leaves what its turn leaves, and the mark of its progress. -/
theorem State.issue_xfer {check : State → Prog → Tile → Share → Option (Nat × Nat)} {v' : State} {begun done : Bool}
    (hr : TileReady s n w p) (hopc : wOpc w = opc) (hc : check s p (s.tile n) (s.share p.tenant) = none)
    (hrun : (s.taken n p w 4).runXfer n p.next (issuedFlight (s.tile n) w 4 p.tenant) = (v', begun, done))
    (hf' : (v'.tile n).flight = [issuedFlight (s.tile n) w 4 p.tenant]) :
    s.issue n w opc 4 check = v'.updTile n fun x => x.markFlight (s.tile n).nextId begun done := by
  have ⟨htidy, hn, hissuing, _, hflight, _⟩ := hr
  have hq : ((s.taken n p w 4).tile n).prog = some p.next := by rw [State.tile_taken hn]; rfl
  have hf : ((s.taken n p w 4).tile n).flight = [issuedFlight (s.tile n) w 4 p.tenant] := by rw [State.tile_taken hn, takenTile_flight hflight]
  have hholds : (s.taken n p w 4).holds p.next.tenant n = true :=
    (State.holds_taken p.tenant (State.tidy_regs htidy)).trans (State.holds_of_issuing hissuing)
  refine (State.issue_eq_runUnit hr hopc hc).trans (Eq.trans ?_ (State.runXfers_sole 3 hn hq hf rfl rfl hrun hf'))
  unfold State.runUnit
  simp only [hq, hf, List.find?_cons, show (issuedFlight (s.tile n) w 4 p.tenant).unit = 4 from rfl, beq_self_eq_true, hholds, Bool.not_true,
    Bool.false_eq_true, if_false, if_true]

/-- A command that issues to the transfer unit leaves what is so whenever the tile is as the unit's turn leaves it. -/
theorem completes_xfer {c : Instr} {check : State → Prog → Tile → Share → Option (Nat × Nat)} {k : Option (Nat × Nat)} {v' : State}
    {begun done : Bool} {P : State → Prop} (hr : TileReady s n w p) (hx : exec c s = .next (s.issue n w opc 4 check)) (hopc : wOpc w = opc)
    (hk : check s p (s.tile n) (s.share p.tenant) = k) (hc : k = none)
    (hrun : (s.taken n p w 4).runXfer n p.next (issuedFlight (s.tile n) w 4 p.tenant) = (v', begun, done))
    (hf' : (v'.tile n).flight = [issuedFlight (s.tile n) w 4 p.tenant])
    (hP : ∀ t : State, t.tile n = (v'.tile n).markFlight (s.tile n).nextId begun done → P t) : Completes c s P := by
  refine ⟨_, hx, hP _ ?_⟩
  rw [State.issue_xfer hr hopc (hk.trans hc) hrun hf', State.tile_updTile_same _ hr.lt]

/-! ## Chains and regions (R256, R260, R264) -/

/-- The chain that XSTART `f` of program `q` starts. -/
def startedChain (q : Prog) (f : InFlight) : Chan :=
  { tenant := q.tenant, csp := bf f.word 35 35 == 1, maxOut := bf f.word 57 48 + 1, rd := (bf f.word 150 128, bf f.word 167 151 * 64),
    wr := (bf f.word 190 168, bf f.word 207 191 * 64), fetched := [], next := bf f.word 127 64, active := [], begun := 0, last := false,
    stopped := false, xstart := f.id, seed := q.seed, step := q.step, by_ := none, owner := q.by_, inst := q.xord, remote := 0 }

/-- The channel that an XSTART names has taken its chain, and the program counts it. -/
def State.chainStarted (v : State) (n : Nat) (q : Prog) (f : InFlight) : State :=
  (v.setChan n (8 * q.tenant + bf f.word 34 32) (some (startedChain q f))).updTile n fun t =>
    { t with prog := t.prog.map fun p => { p with xord := p.xord + 1 } }

section
variable {v : State} {q : Prog} {f : InFlight}

theorem State.runXfer_xstart (hopc : wOpc f.word = 0x70) (hfree : v.chan n (8 * q.tenant + bf f.word 34 32) = none) :
    v.runXfer n q f = (v.chainStarted n q f, true, false) := by
  unfold State.runXfer
  simp only [hopc, hfree, Option.isSome_none, Bool.false_eq_true, if_false, State.chainStarted, startedChain]

theorem State.tile_chainStarted (q : Prog) (f : InFlight) (hn : n < 128) : (v.chainStarted n q f).tile n =
    { v.tile n with
      chans := aput (v.tile n).chans (8 * q.tenant + bf f.word 34 32) (startedChain q f),
      prog := (v.tile n).prog.map fun p => { p with xord := p.xord + 1 } } := by
  rw [State.chainStarted, State.tile_updTile_same _ hn, State.setChan, State.tile_updTile_same _ hn]

/-- A read of a scratchpad without errors meets none (R248). -/
theorem State.eccRead_of_no_flaw (off len : Nat) (h : (v.tile n).flaws = []) : v.eccRead n off len = v := by
  simp only [State.eccRead, h, List.filter_nil, List.foldl_nil]

theorem State.runXfer_rgnOpen {r : Region} (hopc : wOpc f.word = 0x71) (hflaws : (v.tile n).flaws = [])
    (hgood : (v.tile n).readBad (vOff f.word) 64 = false)
    (hopen : openRegion (v.tile n) q.tenant (v.share q.tenant) (vOff f.word) = some r) (hnew : (v.tile n).region (vOff f.word) = none)
    (hcount : ((v.tile n).regions.filter (·.tenant == q.tenant)).length + 1 ≤ 2 * ((v.part q.tenant).map (·.spmBanks)).getD 0)
    (hslots : (((v.tile n).regions.filter (·.tenant == q.tenant)).map (·.slots)).sum + r.slots ≤
      256 * ((v.part q.tenant).map (·.spmBanks)).getD 0) :
    v.runXfer n q f = (v.updTile n fun t => { t with regions := t.regions ++ [r] }, true, true) := by
  unfold State.runXfer
  simp only [hopc, State.eccRead_of_no_flaw _ _ hflaws, hgood, hopen, hnew, Nat.not_lt.mpr hcount, Nat.not_lt.mpr hslots,
    Option.isSome_none, Bool.false_eq_true, decide_false, Bool.or_self, if_false]

/-- The tile once the region at `desc` is closed: its counts are written back to its descriptor (R260). -/
def Tile.closed (x : Tile) (desc : Nat) (r : Region) : Tile :=
  { x.write (desc + 0x10) (leBytes 4 r.heads ++ leBytes 4 r.tails) false with regions := x.regions.filter (·.desc != desc) }

theorem State.runXfer_rgnClose {r : Region} (hopc : wOpc f.word = 0x72) (hopen : (v.tile n).region (vOff f.word) = some r)
    (hflight : (v.tile n).flight = [f]) (hmarks : (v.tile n).marks = []) (hprod : r.prod.cls = 0) (hcons : r.cons.cls = 0) :
    v.runXfer n q f = (v.updTile n fun t => t.closed (vOff f.word) r, true, true) := by
  unfold State.runXfer
  simp [hopc, hopen, hflight, hmarks, hprod, hcons, Tile.closed]

/-! ## Slots (R260) -/

theorem State.runXfer_slotWait {r : Region} (hopc : wOpc f.word = 0x73) (hopen : (v.tile n).region (vOff f.word) = some r) :
    v.runXfer n q f = if r.full f.inS = (bf f.word 32 32 == 0) then (v.updTile n fun t => { t with slotWait := none }, true, true)
      else (v, false, false) := by
  unfold State.runXfer
  simp only [hopc, hopen, beq_iff_eq]

theorem State.runXfer_slotRelease (hopc : wOpc f.word = 0x74) :
    v.runXfer n q f =
      (v.updTile n fun t => { t with marks := t.marks ++ [⟨vOff f.word, f.inS, bf f.word 32 32 == 1, f.id⟩] }, true, true) := by
  unfold State.runXfer
  simp only [hopc]

end

/-- An opcode that claims no slots leaves the region table (R258). -/
theorem claimOf_of_no_slot {x : Tile} (h : wOpc w = 0x70 ∨ wOpc w = 0x71 ∨ wOpc w = 0x72) : claimOf x w = (x, 0, 0) := by
  unfold claimOf
  rcases h with h | h | h <;> simp [h]

theorem takenTile_of_no_slot {x : Tile} (hflight : x.flight = []) (h : wOpc w = 0x70 ∨ wOpc w = 0x71 ∨ wOpc w = 0x72) :
    takenTile x p w unit =
      { x with nextId := x.nextId + 1, flight := [issuedFlight x w unit p.tenant], prog := some p.next } := by
  have hno : wOpc w ≠ 0x73 := by omega
  rw [takenTile_eq hflight, claimOf_of_no_slot h, if_neg hno]

theorem completes_xstart (hr : TileReady s n w p) (hopc : wOpc w = 0x70) (hc : xstartCheck s p (s.share p.tenant) w = none)
    (hfree : s.chan n (8 * p.tenant + bf w 34 32) = none) :
    Completes (.xstart n w) s fun t => ∃ c, t.chan n (8 * p.tenant + bf w 34 32) = some c ∧ c.tenant = p.tenant ∧ c.next = bf w 127 64 ∧
      c.rd = (bf w 150 128, bf w 167 151 * 64) ∧ c.wr = (bf w 190 168, bf w 207 191 * 64) ∧ c.fetched = [] ∧ c.active = [] ∧
      c.stopped = false ∧ (t.tile n).mem = (s.tile n).mem := by
  have ⟨_, hn, _, _, hflight, _⟩ := hr
  have htile := (State.tile_taken (s := s) (p := p) (w := w) (unit := 4) hn).trans (takenTile_of_no_slot hflight (.inl hopc))
  have hfree' : (s.taken n p w 4).chan n (8 * p.tenant + bf w 34 32) = none := by
    rw [State.chan, htile]
    exact hfree
  have hstart := State.tile_chainStarted (v := s.taken n p w 4) p.next (issuedFlight (s.tile n) w 4 p.tenant) hn
  rw [htile] at hstart
  refine completes_xfer hr rfl hopc rfl hc (State.runXfer_xstart hopc hfree') (by rw [hstart]) fun t ht => ?_
  rw [hstart] at ht
  refine ⟨startedChain p.next (issuedFlight (s.tile n) w 4 p.tenant), ?_, rfl, rfl, rfl, rfl, rfl, rfl, rfl, by rw [ht]; rfl⟩
  rw [State.chan, ht]
  exact aget_aput_same _ _ _

theorem completes_rgnOpen {r : Region} (hr : TileReady s n w p) (hopc : wOpc w = 0x71) (hc : rgnCheck (s.share p.tenant) w false = none)
    (hgood : (s.tile n).readBad (vOff w) 64 = false)
    (hopen : openRegion (s.tile n) p.tenant (s.share p.tenant) (vOff w) = some r) (hnew : (s.tile n).region (vOff w) = none)
    (hcount : ((s.tile n).regions.filter (·.tenant == p.tenant)).length + 1 ≤ 2 * ((s.part p.tenant).map (·.spmBanks)).getD 0)
    (hslots : (((s.tile n).regions.filter (·.tenant == p.tenant)).map (·.slots)).sum + r.slots ≤
      256 * ((s.part p.tenant).map (·.spmBanks)).getD 0) :
    Completes (.rgnOpen n w) s fun t => (t.tile n).regions = (s.tile n).regions ++ [r] ∧ (t.tile n).mem = (s.tile n).mem := by
  have ⟨_, hn, _, _, hflight, hflaws⟩ := hr
  have htile := (State.tile_taken (s := s) (p := p) (w := w) (unit := 4) hn).trans (takenTile_of_no_slot hflight (.inr (.inl hopc)))
  have hrun := State.runXfer_rgnOpen (v := s.taken n p w 4) (n := n) (q := p.next) (f := issuedFlight (s.tile n) w 4 p.tenant) (r := r) hopc
    (by rw [htile]; exact hflaws) (by rw [htile]; exact hgood) (by rw [htile]; exact hopen) (by rw [htile]; exact hnew)
    (by rw [htile]; exact hcount) (by rw [htile]; exact hslots)
  refine completes_xfer hr rfl hopc rfl hc hrun (by rw [State.tile_updTile_same _ hn, htile]) fun t ht => ?_
  rw [State.tile_updTile_same _ hn, htile] at ht
  rw [ht]
  exact ⟨rfl, rfl⟩

theorem completes_rgnClose {r : Region} (hr : TileReady s n w p) (hopc : wOpc w = 0x72) (hc : rgnCheck (s.share p.tenant) w false = none)
    (hopen : (s.tile n).region (vOff w) = some r) (hown : r.tenant = p.tenant) (hmarks : (s.tile n).marks = []) (hprod : r.prod.cls = 0)
    (hcons : r.cons.cls = 0) :
    Completes (.rgnClose n w) s fun t => (t.tile n).regions = (s.tile n).regions.filter (·.desc != vOff w) := by
  have ⟨_, hn, _, _, hflight, _⟩ := hr
  have htile := (State.tile_taken (s := s) (p := p) (w := w) (unit := 4) hn).trans (takenTile_of_no_slot hflight (.inr (.inr hopc)))
  have hrun := State.runXfer_rgnClose (v := s.taken n p w 4) (n := n) (q := p.next) (f := issuedFlight (s.tile n) w 4 p.tenant) (r := r) hopc
    (by rw [htile]; exact hopen) (by rw [htile]) (by rw [htile]; exact hmarks) hprod hcons
  have hcheck : ((rgnCheck (s.share p.tenant) w false).orElse fun _ =>
      if ((s.tile n).region (vOff w)).any fun r => r.tenant == p.tenant then none else some (0x74, vOff w)) = none := by
    simp [hc, hopen, hown]
  refine completes_xfer hr rfl hopc rfl hcheck hrun (by rw [State.tile_updTile_same _ hn, htile]; rfl) fun t ht => ?_
  rw [State.tile_updTile_same _ hn, htile] at ht
  rw [ht]
  rfl

/-! ## Slots that a program claims (R258, R260) -/

/-- Taking slots of the region at `desc` leaves there the same region with its claims advanced. -/
theorem Tile.region_updRegion {x : Tile} {desc : Nat} {r : Region} {g : Region → Region} (hg : ∀ r, (g r).desc = r.desc)
    (h : x.region desc = some r) : (x.updRegion desc g).region desc = some (g r) := by
  have hcomp : ((fun r : Region => r.desc == desc) ∘ fun r => if r.desc == desc then g r else r) = fun r => r.desc == desc := by
    funext r
    simp only [Function.comp_apply]
    split <;> simp_all
  rw [Tile.region, Tile.updRegion, List.find?_map, hcomp]
  rw [Tile.region] at h
  have hdesc : (r.desc == desc) = true := List.find?_some (p := fun r : Region => r.desc == desc) h
  rw [h, Option.map_some, if_pos hdesc]

theorem Region.claim_desc (r : Region) (cons : Bool) (k : Nat) : (r.claim cons k).desc = r.desc := by
  cases cons <;> rfl

theorem Region.claim_full (r : Region) (cons : Bool) (k slot : Nat) : (r.claim cons k).full slot = r.full slot := by
  cases cons <;> rfl

theorem claimOf_of_slot {x : Tile} {r : Region} (h : wOpc w = 0x73 ∨ wOpc w = 0x74) (hopen : x.region (vOff w) = some r) :
    claimOf x w = (x.updRegion (vOff w) fun r => r.claim (bf w 32 32 == 0) (wOpc w - 0x73), r.claimed (bf w 32 32 == 0), 0) := by
  unfold claimOf
  rcases h with h | h <;> simp [h, hopen]

theorem completes_slotWait {r : Region} (hr : TileReady s n w p) (hopc : wOpc w = 0x73)
    (hc : slotCheck p (s.tile n) (s.share p.tenant) w = none) (hopen : (s.tile n).region (vOff w) = some r) :
    Completes (.slotWait n w) s fun t => (t.tile n).mem = (s.tile n).mem ∧
      (t.tile n).slotWait = if r.full (r.claimed (bf w 32 32 == 0)) = (bf w 32 32 == 0) then none
        else some (vOff w, r.claimed (bf w 32 32 == 0), bf w 32 32 == 0) := by
  have ⟨_, hn, _, _, hflight, _⟩ := hr
  have hclaim := claimOf_of_slot (.inl hopc) hopen
  have htile := (State.tile_taken (s := s) (p := p) (w := w) (unit := 4) hn).trans (takenTile_eq hflight)
  have hin : (issuedFlight (s.tile n) w 4 p.tenant).inS = r.claimed (bf w 32 32 == 0) := congrArg (fun y => y.2.1) hclaim
  have hopen' : ((s.taken n p w 4).tile n).region (vOff w) = some (r.claim (bf w 32 32 == 0) (wOpc w - 0x73)) := by
    rw [htile, hclaim]
    exact Tile.region_updRegion (fun r => r.claim_desc _ _) hopen
  have hrun := State.runXfer_slotWait (v := s.taken n p w 4) (n := n) (q := p.next) (f := issuedFlight (s.tile n) w 4 p.tenant) hopc hopen'
  rw [Region.claim_full, hin] at hrun
  by_cases hfull : r.full (r.claimed (bf w 32 32 == 0)) = (bf w 32 32 == 0)
  · rw [if_pos hfull]
    refine completes_xfer hr rfl hopc rfl hc (hrun.trans (if_pos hfull)) (by rw [State.tile_updTile_same _ hn, htile]) fun t ht => ?_
    rw [State.tile_updTile_same _ hn, htile] at ht
    rw [ht]
    exact ⟨rfl, rfl⟩
  · rw [if_neg hfull]
    refine completes_xfer hr rfl hopc rfl hc (hrun.trans (if_neg hfull)) (by rw [htile]) fun t ht => ?_
    rw [htile, hopc, hclaim] at ht
    rw [ht]
    exact ⟨rfl, rfl⟩

theorem completes_slotRelease {r : Region} (hr : TileReady s n w p) (hopc : wOpc w = 0x74)
    (hc : slotCheck p (s.tile n) (s.share p.tenant) w = none) (hopen : (s.tile n).region (vOff w) = some r) :
    Completes (.slotRelease n w) s fun t => (t.tile n).mem = (s.tile n).mem ∧
      (t.tile n).marks = (s.tile n).marks ++ [⟨vOff w, r.claimed (bf w 32 32 == 0), bf w 32 32 == 1, (s.tile n).nextId⟩] := by
  have ⟨_, hn, _, _, hflight, _⟩ := hr
  have htile := (State.tile_taken (s := s) (p := p) (w := w) (unit := 4) hn).trans (takenTile_eq hflight)
  have hin : (issuedFlight (s.tile n) w 4 p.tenant).inS = r.claimed (bf w 32 32 == 0) :=
    congrArg (fun y => y.2.1) (claimOf_of_slot (.inr hopc) hopen)
  refine completes_xfer hr rfl hopc rfl hc (State.runXfer_slotRelease hopc) (by rw [State.tile_updTile_same _ hn, htile]) fun t ht => ?_
  rw [State.tile_updTile_same _ hn, htile, hin] at ht
  rw [ht]
  exact ⟨rfl, rfl⟩

/-! ## Codec requests (R289, R297) -/

/-- A codec is handed one request more, and the tile keeps its scratchpad. -/
theorem State.acceptCodec_spec {v : State} {q : Prog} {f : InFlight} (hn : n < 128) :
    (∃ r, (v.acceptCodec n q f).cdx = { v.cdx with reqs := v.cdx.reqs ++ [(codecOf n f.word, r)] } ∧ r.tile = n ∧ r.tenant = q.tenant ∧
      r.word = f.word ∧ r.block = 0 ∧ r.id = f.id) ∧ ((v.acceptCodec n q f).tile n).mem = (v.tile n).mem := by
  unfold State.acceptCodec
  extract_lets w a codec table x hist r src u
  have hmem : ((u.updTile n fun t => t.noteErr 0x95 true).tile n).mem = (v.tile n).mem := by rw [State.tile_updTile_same _ hn]; rfl
  exact ⟨⟨r, ite_of_both (Q := fun y : State => y.cdx = u.cdx) rfl rfl, rfl, rfl, rfl, rfl, rfl⟩,
    ite_of_both (Q := fun y : State => (y.tile n).mem = (v.tile n).mem) hmem rfl⟩

theorem State.runUnit_codec {v : State} {q : Prog} {f : InFlight} (hq : (v.tile n).prog = some q) (hf : (v.tile n).flight = [f])
    (hunit : f.unit = 5) (hnew : f.begun = false) (hdone : f.done = false) (hholds : v.holds q.tenant n = true) :
    v.runUnit n 5 = ((v.acceptCodec n q f).updTile n fun t => t.markFlight f.id true false).drainNotes n f.id := by
  simp [State.runUnit, hq, hf, hunit, hnew, hdone, hholds]

theorem completes_issueCodec {c : Instr} (hr : TileReady s n w p) (hx : exec c s = .next (s.issueCodec n w opc)) (hopc : wOpc w = opc)
    (hc : cxCheck opc (s.tile n) p.tenant (s.share p.tenant) w = none) :
    Completes c s fun t => (t.tile n).mem = (s.tile n).mem ∧ t.cdx.slots = s.cdx.slots ∧
      ∃ r, t.cdx.reqs = s.cdx.reqs ++ [(codecOf n w, r)] ∧ r.tile = n ∧ r.tenant = p.tenant ∧ r.word = w ∧ r.block = 0 ∧
        r.id = (s.tile n).nextId := by
  have ⟨htidy, hn, hissuing, _, hflight, _⟩ := hr
  have htile := (State.tile_taken (s := s) (p := p) (w := w) (unit := 5) hn).trans (takenTile_eq hflight)
  have hholds : (s.taken n p w 5).holds p.next.tenant n = true :=
    (State.holds_taken p.tenant (State.tidy_regs htidy)).trans (State.holds_of_issuing hissuing)
  have hrun := State.runUnit_codec (v := s.taken n p w 5) (by rw [htile]) (by rw [htile]) rfl rfl rfl hholds
  obtain ⟨⟨r, hcdx, hnew⟩, hmem⟩ := State.acceptCodec_spec (v := s.taken n p w 5) (q := p.next)
    (f := issuedFlight (s.tile n) w 5 p.tenant) hn
  obtain ⟨-, fl, hres⟩ := ((State.acceptCodec (s.taken n p w 5) n p.next (issuedFlight (s.tile n) w 5 p.tenant)).updTile n fun t =>
    t.markFlight (s.tile n).nextId true false).drainNotes_spec (s.tile n).nextId hn
  refine ⟨_, hx.trans (congrArg Host.Outcome.next ((State.issue_eq_runUnit hr hopc hc).trans hrun)), ?_, ?_, r, ?_, hnew⟩
  · refine (congrArg Tile.mem hres).trans ?_
    rw [State.tile_updTile_same _ hn]
    refine hmem.trans ?_
    rw [htile]
  · rw [State.drainNotes_cdx]
    exact (congrArg Codecs.slots hcdx :)
  · rw [State.drainNotes_cdx]
    exact (congrArg Codecs.reqs hcdx :)

end

/-- Settles O23: the transfer unit's turn and the hand-over to the codec begin where the word has issued. -/
theorem regionsChainsAndCodecRequestsIssue : Obligations.RegionsChainsAndCodecRequestsIssue := by
  intro s n w p hr
  refine ⟨completes_xstart hr, fun r => completes_rgnOpen hr, fun r => completes_rgnClose hr, fun r => completes_slotWait hr,
    fun r => completes_slotRelease hr, fun opc c hrow hopc hc => ?_⟩
  simp only [List.mem_cons, List.not_mem_nil, or_false, Prod.mk.injEq] at hrow
  obtain ⟨rfl, rfl⟩ | ⟨rfl, rfl⟩ | ⟨rfl, rfl⟩ | ⟨rfl, rfl⟩ := hrow
  · exact completes_issueCodec hr rfl hopc hc
  · exact completes_issueCodec hr rfl hopc hc
  · exact completes_issueCodec hr rfl hopc hc
  · exact completes_issueCodec hr rfl hopc hc

end Sys2Proof.Machine
end


section
/-!
PROOFS. A remote write of a seventeenth tenant, whose banks are powered down: O41.
-/

namespace Sys2Proof.Machine

/-- A Catalogue with seventeen partition records, of which only the last is enabled: tenant 16 has one bank of tile 0. -/
def seventeenthCat : Cat := { saveErrorCat with parts := List.replicate 16 (partitionOf [] 0) ++ [saveErrorPart] }

/-- A serving module with that Catalogue, all tiles in service, and tenant 16 ACTIVE. -/
def seventeenthState : State :=
  { State.reset with
    regs := nset resetRegs (tnt 16 0) 1,
    boot := { Boot.reset with state := .serving, cat := some seventeenthCat },
    tiles := Vector.replicate 128 { Tile.reset with phys := some 0 } }

/-- A WRITE of one byte, 1, to offset 0 of tile 0 of tenant 16, counted on its counter 0. -/
def seventeenthWrite : Packet :=
  { kind := .write, vc := 1, cls := 0, dst := 0, src := 0, tenant := 16, space := 4, gen := 0, tag := 0, addr := 0, bad := 0, cnt := 0,
    cntEn := true, payload := [1], ctl := none }

theorem seventeenthState_tidy : seventeenthState.tidy = true := by decide +kernel

/-- The write passes the check of the partition that the Catalogue gives its tenant (R269). -/
theorem seventeenthState_remoteOk : seventeenthState.remoteOk seventeenthWrite = true := by decide +kernel

/-- Its bank lies in the share of none of tenants 0 to 15 and so counts as powered down (R251): the byte is discarded, and reads as it
did. -/
theorem seventeenthState_read_receive : ((seventeenthState.receive seventeenthWrite).tile 0).read 0 1 = [0] := by decide +kernel

/-- Refutes O41: its clause on a WRITE that passes the partition's check asks neither for a well-formed packet, whose tenant is below 16,
nor for a Catalogue of sixteen partitions; the bank of a seventeenth tenant is powered down, and the byte is not written. -/
theorem not_packetsAreTakenOnceAndAcknowledged : ¬ Obligations.PacketsAreTakenOnceAndAcknowledged := by
  intro h
  obtain ⟨-, -, -, -, hwrite, -⟩ := h seventeenthState seventeenthState_tidy
  obtain ⟨hpasses, -⟩ := hwrite seventeenthWrite rfl (by decide) (by decide) (by decide) rfl
  obtain ⟨t, hexec, hread, -⟩ := hpasses rfl rfl (by decide) seventeenthState_remoteOk (by decide) (by decide +kernel)
  have ht : seventeenthState.receive seventeenthWrite = t := Host.Outcome.next.inj hexec
  rw [← ht] at hread
  have hkept : [(0 : Byte)] = [1] := seventeenthState_read_receive.symm.trans hread
  exact absurd hkept (by decide)

end Sys2Proof.Machine
end


section
/-!
PROOFS. Register writes that stand for commands: O34.
-/

namespace Sys2Proof.Machine

/-! ## Plain words and what writing them reaches -/

/-- A word of 32 bits that a write of its VF reaches whole: no field of it is hidden in the VF's view. -/
def openWord (h : Nat) : Bool := !isWide h && codeMask h false (· == .no) == 0

/-- A word of 32 bits that the PF has at its own offset. -/
def pfWord (h : Nat) : Bool := homeOf .pf h == some h && !isWide h

/-- RNG_CTL is such a word of every ring. -/
theorem openWord_rngCtl {n r : Nat} (hn : n < 16) (hr : r < 8) : openWord (rng n r 0) = true := by
  have hfirst : openWord (rng 0 0 0) = true := by decide +kernel
  rw [openWord, isWide_ring hn hr (by decide), codeMask_ring false _ hn hr (by decide)]
  exact hfirst

/-- TNT_FAULT_CLR is such a word of every tenant, at its offset in the tenant's window. -/
theorem openWord_faultClr : ∀ n : Fin 16, vfPlace n 0x108 = .home (tnt n 0x108) ∧ openWord (tnt n 0x108) = true := by decide +kernel

theorem pfWord_lnkCtl_fltCtl : pfWord 0x502000 = true ∧ pfWord 0x700008 = true := by decide +kernel

section
variable {s : State}

theorem hidesNonzero_openWord {h : Nat} (bs : List (Option Byte)) (ho : openWord h = true) : hidesNonzero h bs = false := by
  simp only [openWord, Bool.and_eq_true, beq_iff_eq] at ho
  simp [hidesNonzero, ho.2]

/-- A VF's write of an open word, while its tenant is neither off nor RESETTING, is the write at its home (R561). -/
theorem exec_registerWrite_vf_home {n off h x : Nat} (hs : s.serves = true) (hlive : s.barLive (.vf n) = true) (h8 : off % 8 = 0)
    (hp : vfPlace n off = .home h) (ho : openWord h = true) (hd : s.tState n ≠ tsDisabled) (hr : s.tState n ≠ tsResetting) :
    exec (.registerWrite (.vf n) off ((leBytes 4 x).map some)) s = .next (s.writeHome (.vf n) h ((leBytes 4 x).map some)) := by
  have hnarrow : Narrow (.vf n) (off / 8 * 8) := by
    intro h' hh
    rw [show off / 8 * 8 = off by omega] at hh
    simp only [homeOf, hp, Option.some.injEq] at hh
    simp only [openWord, Bool.and_eq_true, Bool.not_eq_true'] at ho
    exact hh ▸ ho.1
  have hoff : s.offNow n = false := by simp [State.offNow, hs, hd]
  have hres : (s.tState n == tsResetting) = false := by simp [hr]
  rw [exec_registerWrite_narrow (by omega) (by simp) hlive hnarrow]
  simp only [State.writeWord, State.writeVf, hp, hoff, hres, hidesNonzero_openWord _ ho]
  rfl

/-- The PF's write of a word at its own offset, once the module serves (R47, R559). -/
theorem exec_registerWrite_pf_home {off x : Nat} (hs : s.serves = true) (hlive : s.barLive .pf = true) (h8 : off % 8 = 0)
    (hm : pfMsix off = none) (ho : pfWord off = true) :
    exec (.registerWrite .pf off ((leBytes 4 x).map some)) s = .next (s.writeHome .pf off ((leBytes 4 x).map some)) := by
  simp only [pfWord, Bool.and_eq_true, beq_iff_eq, Bool.not_eq_true'] at ho
  obtain ⟨hhome, hwide⟩ := ho
  have hnarrow : Narrow .pf (off / 8 * 8) := by
    intro h' hh
    rw [show off / 8 * 8 = off by omega, hhome, Option.some.injEq] at hh
    exact hh ▸ hwide
  rw [exec_registerWrite_narrow (by omega) (by simp) hlive hnarrow, State.writeWord_pf hm hhome (by simp [hs]) rfl]

/-! ## Doorbells (R378) -/

theorem vfPlace_doorbell {n r : Nat} (hr : r < 8) : vfPlace n (0x20000 + 0x1000 * r) = .doorbell r := by
  have hpage : (0x20000 + 0x1000 * r) / 0x1000 = 0x20 + r := by omega
  have ho : (0x20000 + 0x1000 * r) % 0x1000 = 0 := by omega
  simp only [vfPlace, hpage, ho]
  rw [if_neg (by omega), if_neg (by omega), if_pos (by omega), if_pos (by omega), Nat.add_sub_cancel_left]

theorem exec_doorbell {n r : Nat} (tail : Nat) (hn : n < 16) (hr : r < 8) : exec (.doorbell n r tail) s = .next (s.doorbell n r tail) :=
  if_neg (by omega)

theorem exec_registerWrite_doorbell {n r : Nat} (v : Nat) (hn : n < 16) (hr : r < 8) (hlive : s.barLive (.vf n) = true) :
    exec (.registerWrite (.vf n) (0x20000 + 0x1000 * r) ((leBytes 4 v).map some)) s = exec (.doorbell n r (v % 2 ^ 16)) s := by
  have hplace : vfPlace n (0x20000 + 0x1000 * r) = .doorbell r := vfPlace_doorbell hr
  have hnarrow : Narrow (.vf n) ((0x20000 + 0x1000 * r) / 8 * 8) := by
    intro h hh
    rw [show (0x20000 + 0x1000 * r) / 8 * 8 = 0x20000 + 0x1000 * r by omega] at hh
    simp [homeOf, hplace] at hh
  have hword : s.writeWord (.vf n) (0x20000 + 0x1000 * r) ((leBytes 4 v).map some) =
      s.doorbell n r (actBytes ((leBytes 4 v).map some) % 2 ^ 16) := by
    simp only [State.writeWord, State.writeVf, hplace]
    rfl
  rw [exec_registerWrite_narrow (by omega) (by simp) hlive hnarrow, exec_doorbell _ hn hr, hword, actBytes_leBytes,
    show v % 2 ^ 32 % 2 ^ 16 = v % 2 ^ 16 by omega]

/-! ## RNG_CTL (R377) -/

/-- EN is never locked: written whole, RNG_CTL enables or disables its ring. -/
theorem State.writeHome_rngCtl {n r : Nat} {p : Partition} (x : Nat) (hn : n < 16) (hr : r < 8) (hp : s.part n = some p) (hrings : r < p.rings) :
    s.writeHome (.vf n) (rng n r 0) ((leBytes 4 x).map some) = if bitOf (x % 2 ^ 32) 0 then s.ringEnable n r else s.ringDisable n r := by
  have e1 : (rng n r 0 - 0x200000) / 0x800 = n := by
    simp only [rng]
    omega
  have e2 : rng n r 0 / 0x100 % 8 = r := by
    simp only [rng]
    omega
  have e3 : rng n r 0 % 0x100 = 0 := by
    simp only [rng]
    omega
  have hbar : s.ringBar (.vf n) n r 0 = .none_ := by simp [State.ringBar]
  rw [State.writeHome_rings _ _ (by simp only [rng]; omega) (by simp only [rng]; omega), keepBytes_leBytes]
  unfold State.writeRing
  simp only [e1, e2, e3, hbar, hp, Option.map_some, Option.getD_some, Nat.not_le.mpr hrings, if_false]
  rfl

theorem exec_registerWrite_rngCtl {n r : Nat} {p : Partition} (hn : n < 16) (hr : r < 8) (hs : s.serves = true)
    (hlive : s.barLive (.vf n) = true) (hp : s.part n = some p) (hrings : r < p.rings) (hd : s.tState n ≠ tsDisabled)
    (hres : s.tState n ≠ tsResetting) :
    exec (.registerWrite (.vf n) (0x10000 + 0x100 * r) ((leBytes 4 1).map some)) s = exec (.ringEnable n r) s ∧
      exec (.registerWrite (.vf n) (0x10000 + 0x100 * r) ((leBytes 4 0).map some)) s = exec (.ringDisable n r) s := by
  have hplace : vfPlace n (0x10000 + 0x100 * r) = .home (rng n r 0) := vfPlace_ring hn hr (by decide) rngSize_codes.1
  have hguard : ¬(16 ≤ n ∨ 8 ≤ r ∨ (!s.serves) = true) := by simp [hs, hn, hr]
  have hen : exec (.ringEnable n r) s = .next (s.ringEnable n r) := if_neg hguard
  have hdis : exec (.ringDisable n r) s = .next (s.ringDisable n r) := if_neg hguard
  have hwrite (x : Nat) := exec_registerWrite_vf_home (x := x) hs hlive (show (0x10000 + 0x100 * r) % 8 = 0 by omega) hplace
    (openWord_rngCtl hn hr) hd hres
  rw [hwrite, hwrite, State.writeHome_rngCtl _ hn hr hp hrings, State.writeHome_rngCtl _ hn hr hp hrings, hen, hdis]
  exact ⟨rfl, rfl⟩

/-! ## TNT_FAULT_CLR (R504) -/

theorem State.writeHome_faultClr {n : Nat} (hn : n < 16) (fn : Fn) :
    s.writeHome fn (tnt n 0x108) ((leBytes 4 1).map some) = s.faultClear n := by
  have e1 : tntOf (tnt n 0x108) = n := by
    simp only [tntOf, tnt]
    omega
  have e2 : tnt n 0x108 % 0x1000 = 0x108 := by
    simp only [tnt]
    omega
  unfold State.writeHome
  dsimp only
  rw [if_pos (by simp only [tnt]; omega)]
  unfold State.writeTnt
  simp only [e1, e2]
  rfl

theorem exec_registerWrite_faultClr (n : Fin 16) (hs : s.serves = true) (hlive : s.barLive (.vf n) = true) (hd : s.tState n ≠ tsDisabled)
    (hres : s.tState n ≠ tsResetting) :
    exec (.registerWrite (.vf n) 0x108 ((leBytes 4 1).map some)) s = exec (.faultClear n) s := by
  obtain ⟨hplace, hopen⟩ := openWord_faultClr n
  have hclear : exec (.faultClear n) s = .next (s.faultClear n) := if_neg (by simp [hs, n.isLt])
  rw [exec_registerWrite_vf_home hs hlive (by decide) hplace hopen hd hres, State.writeHome_faultClr n.isLt, hclear]

/-! ## LNK_CTL and FLT_CTL (R332, R505) -/

theorem exec_registerWrite_lnkCtl (v : Nat) (hs : s.serves = true) (hlive : s.barLive .pf = true) :
    exec (.registerWrite .pf 0x502000 ((leBytes 4 v).map some)) s = exec (.lnkRetry (v % 256)) s := by
  have hhome : s.writeHome .pf 0x502000 ((leBytes 4 v).map some) = s.lnkRetry (actBytes ((leBytes 4 v).map some) % 256) := rfl
  have hretry : exec (.lnkRetry (v % 256)) s = .next (s.lnkRetry (v % 256)) := if_pos hs
  rw [exec_registerWrite_pf_home hs hlive (by decide) rfl pfWord_lnkCtl_fltCtl.1, hhome, hretry, actBytes_leBytes,
    show v % 2 ^ 32 % 256 = v % 256 by omega]

theorem exec_registerWrite_fltCtl (hs : s.serves = true) (hlive : s.barLive .pf = true) :
    exec (.registerWrite .pf 0x700008 ((leBytes 4 1).map some)) s = exec .fltClear s ∧
      exec (.registerWrite .pf 0x700008 ((leBytes 4 2).map some)) s = exec .cpReset s := by
  have hclear : s.writeHome .pf 0x700008 ((leBytes 4 1).map some) = s.fltClear := rfl
  have hreset : s.writeHome .pf 0x700008 ((leBytes 4 2).map some) = s.computeFault none 0x1B {} [] := rfl
  constructor
  · rw [exec_registerWrite_pf_home hs hlive (by decide) rfl pfWord_lnkCtl_fltCtl.2, hclear]
    rfl
  · rw [exec_registerWrite_pf_home hs hlive (by decide) rfl pfWord_lnkCtl_fltCtl.2, hreset]
    rfl

end

/-- Settles O34: each write is one aligned access of a plain word, and what its home does with the value written is the command. -/
theorem registerWritesActAsTheirCommands : Obligations.RegisterWritesActAsTheirCommands := by
  intro s n hs
  exact ⟨fun r v hlive => exec_registerWrite_doorbell v n.isLt r.isLt hlive,
    fun r p hlive hp hr hd hres => exec_registerWrite_rngCtl n.isLt r.isLt hs hlive hp hr hd hres,
    fun hlive hd hres => exec_registerWrite_faultClr n hs hlive hd hres,
    fun v hlive => exec_registerWrite_lnkCtl v hs hlive,
    fun hlive => exec_registerWrite_fltCtl hs hlive⟩

end Sys2Proof.Machine
end


section
/-!
PROOFS. What sending over the links and new paths leave of the ports: what they have heard, and the packets that are held.
-/

namespace Sys2Proof.Machine

/-! ## What a port has heard from its partner -/

/-- A port with everything of its sending side blank: its lanes, its partner, and the sequence that it expects are left. -/
def Port.heard (p : Port) : Port :=
  { Port.reset with lanes := p.lanes, partner := p.partner, passed := p.passed, expect := p.expect, gapSeen := p.gapSeen }

/-- A held packet, whether it has left its port or not. -/
def HeldPkt.placed (h : HeldPkt) : HeldPkt := { h with sent := true }

/-- From `s` to `t` every port keeps what it has heard, and the receive buffers keep their packets. -/
structure HearFrame (s t : State) : Prop where
  ports : ∀ q, (t.port q).heard = (s.port q).heard
  arrived : t.lnk.arrived = s.lnk.arrived

section
variable {s t u : State}

theorem HearFrame.refl (s : State) : HearFrame s s := ⟨fun _ => rfl, rfl⟩

theorem HearFrame.trans (h : HearFrame s t) (g : HearFrame t u) : HearFrame s u :=
  ⟨fun q => (g.ports q).trans (h.ports q), g.arrived.trans h.arrived⟩

theorem HearFrame.ite {c : Prop} [Decidable c] (ht : HearFrame s t) (hu : HearFrame s u) : HearFrame s (if c then t else u) :=
  ite_of_both ht hu

theorem HearFrame.foldl {α : Type} {f : State → α → State} {l : List α} (hf : ∀ s x, HearFrame s (f s x)) (s : State) :
    HearFrame s (l.foldl f s) :=
  foldl_inv (Q := HearFrame s) (fun u x h => h.trans (hf u x)) (.refl s)

/-- A step that leaves the ports and the receive buffers is such a step. -/
theorem HearFrame.of_ports (hp : t.lnk.ports = s.lnk.ports) (ha : t.lnk.arrived = s.lnk.arrived) : HearFrame s t :=
  ⟨fun q => by simp only [State.port, hp], ha⟩

theorem Reports.hearFrame (h : Reports s t) : HearFrame s t := .of_ports (congrArg Lnk.ports h.lnk) (congrArg Lnk.arrived h.lnk)

theorem HearFrame.expect (h : HearFrame s t) (q : Nat) : (t.port q).expect = (s.port q).expect := (congrArg Port.expect (h.ports q) :)
theorem HearFrame.gapSeen (h : HearFrame s t) (q : Nat) : (t.port q).gapSeen = (s.port q).gapSeen := (congrArg Port.gapSeen (h.ports q) :)
theorem HearFrame.partner (h : HearFrame s t) (q : Nat) : (t.port q).partner = (s.port q).partner := (congrArg Port.partner (h.ports q) :)

variable (s)

/-- A change of a port's sending side. -/
theorem State.updPort_hearFrame {p : Nat} {f : Port → Port} (hf : (f (s.port p)).heard = (s.port p).heard) : HearFrame s (s.updPort p f) := by
  refine ⟨fun q => ?_, rfl⟩
  by_cases hq : q = p
  · subst hq
    by_cases h18 : q < 18
    · rw [State.port_updPort_same h18, hf]
    · simp [State.port, h18]
  · rw [State.port_updPort_other _ hq]

/-! ## Sending (R335 to R339) -/

theorem State.sendBlock_hearFrame (port kind seq : Nat) (pkts : List Packet) : HearFrame s (s.sendBlock port kind seq pkts) :=
  (s.updPort_hearFrame (f := fun p => { p with nak := false, freed := p.freed.map (· - 255) }) rfl).trans (.of_ports rfl rfl)

theorem State.freeBuffer_hearFrame (port seq vc : Nat) : HearFrame s (s.freeBuffer port seq vc) :=
  .ite (.refl s) (s.updPort_hearFrame rfl)

theorem State.sendOne_hearFrame (port : Nat) (pkt : Packet) (what : Queued ⊕ HeldPkt) : HearFrame s (s.sendOne port pkt what) := by
  have hemit : HearFrame s (s.emit port pkt) := (s.sendBlock_hearFrame _ _ _ _).trans (State.updPort_hearFrame _ rfl)
  unfold State.sendOne
  generalize s.emit port pkt = u at hemit
  cases what with
  | inl q =>
    have hq : HearFrame s (u.updPort port fun p => { p with queue := p.queue.erase q }) := hemit.trans (u.updPort_hearFrame rfl)
    dsimp only
    split
    · exact hq.trans (State.freeBuffer_hearFrame _ _ _ _)
    · exact hq
  | inr h => exact hemit.trans (.of_ports rfl rfl)

/-- The turn of the virtual channels is a matter of the sending side. -/
theorem State.pickVc_heard {port vc : Nat} {p : Port} (h : s.pickVc port = some (vc, p)) : p.heard = (s.port port).heard := by
  unfold State.pickVc at h
  extract_lets has w p0 others ran at h
  split at h
  · obtain ⟨-, rfl⟩ := Prod.mk.inj (Option.some.inj h)
    rfl
  · obtain ⟨x, -, hx⟩ := Option.map_eq_some_iff.mp h
    obtain ⟨-, rfl⟩ := Prod.mk.inj hx
    rfl

theorem State.sendAll_hearFrame (port fuel : Nat) : HearFrame s (s.sendAll port fuel) := by
  induction fuel generalizing s with
  | zero => exact .refl s
  | succ fuel ih =>
    unfold State.sendAll
    refine .ite (.refl s) ?_
    split
    · exact .refl s
    next vc p hpick =>
      split
      · exact .refl s
      · exact ((s.updPort_hearFrame (f := fun _ => p) (s.pickVc_heard hpick)).trans (State.sendOne_hearFrame _ _ _ _)).trans (ih _)

theorem State.flushPort_hearFrame (port : Nat) : HearFrame s (s.flushPort port) := s.sendAll_hearFrame port 1024

theorem State.nextBlock_hearFrame (port : Nat) : HearFrame s (s.nextBlock port) :=
  .ite ((s.flushPort_hearFrame port).trans (State.sendBlock_hearFrame _ _ _ _ _)) (s.flushPort_hearFrame port)

theorem State.nextBlock_linkFrame {P : Nat → Prop} (port : Nat) : LinkFrame P s (s.nextBlock port) :=
  .ite ((s.flushPort_linkFrame port).trans ⟨.of_regs_eq rfl, rfl, rfl, rfl⟩) (s.flushPort_linkFrame port)

theorem State.holdPacket_hearFrame (h : HeldPkt) : HearFrame s (s.holdPacket h) := by
  unfold State.holdPacket
  refine HearFrame.trans ?_ (State.flushPort_hearFrame _ _)
  exact .of_ports rfl rfl

theorem State.sendPacket_hearFrame (p : Packet) (pair : Bool) (w : Waiter) (twin : Bool) (h : s.sendPacket p pair w twin = some t) :
    HearFrame s t := by
  unfold State.sendPacket at h
  obtain ⟨q, -, rfl⟩ := Option.map_eq_some_iff.mp h
  exact .ite (.of_ports rfl rfl) (s.holdPacket_hearFrame _)

theorem State.sendCtl_hearFrame (dst : Nat) (c : Ctl) : HearFrame s (s.sendCtl dst c) := by
  unfold State.sendCtl
  extract_lets p
  cases h : s.sendPacket p false .free false with
  | none => exact .refl s
  | some t => exact s.sendPacket_hearFrame _ _ _ _ h

/-! ## New paths (R338, R340) -/

theorem State.rehold_hearFrame (h : HeldPkt) : HearFrame s (s.rehold h) := by
  unfold State.rehold
  split
  · refine .ite (.refl s) ?_
    extract_lets lnk u
    have hu : HearFrame s u := .of_ports rfl rfl
    exact .ite (hu.trans (u.bump_reports _ _).hearFrame) hu
  · extract_lets lnk u v
    have hu : HearFrame s u := .of_ports rfl rfl
    have hv : HearFrame s v := hu.trans (u.bump_reports _ _).hearFrame
    exact .ite (hv.trans (v.note_reports _ _).hearFrame) hv

theorem State.repath_hearFrame : HearFrame s s.repath := by
  unfold State.repath
  extract_lets u
  have hfold : HearFrame s (s.lnk.held.foldl (fun s h => s.rehold h) s) := .foldl (fun v h => v.rehold_hearFrame h) s
  have hu : HearFrame s u := hfold.trans (.of_ports rfl rfl)
  exact hu.trans (.foldl (fun v p => v.flushPort_hearFrame p) u)

theorem State.linkChanged_hearFrame (k : Nat) : HearFrame s (s.linkChanged k) :=
  s.repath_hearFrame.trans (.foldl (fun v i => .ite (.refl v) (v.sendCtl_hearFrame i _)) _)

/-! ## The packets that are held while others leave (R339) -/

theorem State.sendOne_held (port : Nat) (pkt : Packet) (what : Queued ⊕ HeldPkt) :
    (s.sendOne port pkt what).lnk.held.map HeldPkt.placed = s.lnk.held.map HeldPkt.placed := by
  have hemit : (s.emit port pkt).lnk.held = s.lnk.held := rfl
  unfold State.sendOne
  generalize s.emit port pkt = u at hemit
  rw [← hemit]
  cases what with
  | inl q =>
    dsimp only
    split
    · unfold State.freeBuffer
      split <;> rfl
    · rfl
  | inr h =>
    refine (List.map_map ..).trans (List.map_congr_left fun x _ => ?_)
    dsimp only [Function.comp]
    split <;> rfl

/-- What leaves a port stays held. -/
theorem State.flushPort_held (port : Nat) : (s.flushPort port).lnk.held.map HeldPkt.placed = s.lnk.held.map HeldPkt.placed := by
  unfold State.flushPort
  generalize 1024 = fuel
  induction fuel generalizing s with
  | zero => rfl
  | succ fuel ih =>
    unfold State.sendAll
    refine ite_of_both (Q := fun u : State => u.lnk.held.map HeldPkt.placed = s.lnk.held.map HeldPkt.placed) rfl ?_
    split
    · rfl
    · split
      · rfl
      · exact (ih _).trans (State.sendOne_held _ _ _ _)

/-- A packet that was held before some left is held after, on its port. -/
theorem State.exists_held_flushPort {x : HeldPkt} (port : Nat) (hx : x ∈ s.lnk.held) :
    ∃ y ∈ (s.flushPort port).lnk.held, y.pkt = x.pkt ∧ y.port = x.port ∧ y.waiter = x.waiter := by
  have hmem : x.placed ∈ (s.flushPort port).lnk.held.map HeldPkt.placed := s.flushPort_held port ▸ List.mem_map_of_mem hx
  obtain ⟨y, hy, he⟩ := List.mem_map.mp hmem
  exact ⟨y, hy, (congrArg HeldPkt.pkt he :), (congrArg HeldPkt.port he :), (congrArg HeldPkt.waiter he :)⟩

end

end Sys2Proof.Machine
end


section
/-!
PROOFS. End-to-end resends and losses, and the serving table: O42.
-/

namespace Sys2Proof.Machine

/-! ## The entries of LNK_SERVE, digits to the base of 4 (R341) -/

theorem digit_add_mul {p j : Nat} (x r : Nat) (hj : j < p) : (4 ^ p * x + r) / 4 ^ j % 4 = r / 4 ^ j % 4 := by
  obtain ⟨k, rfl⟩ := Nat.exists_eq_add_of_lt hj
  have hsplit : 4 ^ (j + k + 1) * x + r = 4 ^ j * (4 * (4 ^ k * x)) + r := by ring
  rw [hsplit, Nat.mul_add_div (by positivity), Nat.mul_add_mod]

theorem digit_replace {p j q w : Nat} (hw : w < 4) :
    (q - q / 4 ^ p % 4 * 4 ^ p + w * 4 ^ p) / 4 ^ j % 4 = if j = p then w else q / 4 ^ j % 4 := by
  have hpos : 0 < 4 ^ p := by positivity
  have hq : 4 ^ p * (4 * (q / 4 ^ p / 4) + q / 4 ^ p % 4) + q % 4 ^ p = q := by rw [Nat.div_add_mod, Nat.div_add_mod]
  have hr : q % 4 ^ p < 4 ^ p := Nat.mod_lt _ hpos
  have hf : q / 4 ^ p % 4 < 4 := Nat.mod_lt _ (by decide)
  generalize q / 4 ^ p / 4 = h at hq
  generalize q / 4 ^ p % 4 = f at *
  generalize q % 4 ^ p = r at *
  have hset : q - f * 4 ^ p + w * 4 ^ p = 4 ^ p * (4 * h + w) + r := by
    have e1 : 4 ^ p * (4 * h + f) = 4 ^ p * (4 * h) + f * 4 ^ p := by ring
    have e2 : 4 ^ p * (4 * h + w) = 4 ^ p * (4 * h) + w * 4 ^ p := by ring
    omega
  rw [hset, ← hq]
  rcases Nat.lt_trichotomy j p with hj | rfl | hj
  · rw [if_neg (by omega), digit_add_mul _ _ hj, digit_add_mul _ _ hj]
  · rw [if_pos rfl, Nat.mul_add_div hpos, Nat.div_eq_of_lt hr]
    omega
  · obtain ⟨k, rfl⟩ := Nat.exists_eq_add_of_lt hj
    have habove : ∀ d < 4, (4 ^ p * (4 * h + d) + r) / 4 ^ (p + k + 1) = h / 4 ^ k := fun d hd => by
      have hpow : 4 ^ (p + k + 1) = 4 ^ p * (4 * 4 ^ k) := by ring
      rw [hpow, ← Nat.div_div_eq_div_mul, ← Nat.div_div_eq_div_mul, Nat.mul_add_div hpos, Nat.div_eq_of_lt hr]
      congr 1
      omega
    rw [if_neg (by omega), habove w hw, habove f hf]

section
variable {s t : State}

theorem State.setServe_entry {pair who j : Nat} (hw : nwf s.regs = true) (hj : j < 32) :
    (s.setServe pair who).quad 0x502100 / 4 ^ j % 4 = if j = pair then who % 4 else s.quad 0x502100 / 4 ^ j % 4 := by
  have hmod (v : Nat) : v % 2 ^ 64 / 4 ^ j % 4 = v / 4 ^ j % 4 := by
    have hpow : (2 : Nat) ^ 64 = 4 ^ 32 := by norm_num
    rw [hpow]
    conv_rhs => rw [← Nat.div_add_mod v (4 ^ 32)]
    exact (digit_add_mul _ _ hj).symm
  unfold State.setServe
  dsimp only
  rw [State.quad_setQuad_same _ _ hw, hmod, digit_replace (Nat.mod_lt _ (by decide))]

/-- An announcement about another pair is noted in its entry (R473). -/
theorem State.noteServing_other {pair who : Nat} (hp : pair < 32) (hm : pair ≠ s.moduleId / 2) :
    s.noteServing pair who = s.setServe pair who := by
  have hmine : (pair == s.moduleId / 2) = false := by simp [hm]
  unfold State.noteServing
  rw [if_neg (by omega), hmine]
  rfl

theorem completes_servingAnnouncement {pair who : Nat} (hw : nwf s.regs = true) (hp : pair < 32) (hm : pair ≠ s.moduleId / 2) :
    Completes (.servingAnnouncement pair who) s fun t =>
      (∀ q, q < 32 → t.quad 0x502100 / 4 ^ q % 4 = if q = pair then who % 4 else s.quad 0x502100 / 4 ^ q % 4) ∧
      (∀ a, a ≠ 0x502100 → a ≠ 0x502104 → t.word a = s.word a) ∧ t.pair = s.pair := by
  refine ⟨_, congrArg Host.Outcome.next (s.noteServing_other hp hm), fun q hq => State.setServe_entry hw hq, fun a h0 h4 => ?_, rfl⟩
  exact State.word_setQuad_other _ hw h0 h4

/-! ## The serving table sent (R473) -/

theorem LinkOnly.ctrs (h : LinkOnly s t) : t.ctrs = s.ctrs := by
  rw [LinkOnly] at h
  rw [h]

theorem State.flushPort_linkOnly (s : State) (port : Nat) : LinkOnly s (s.flushPort port) := s.sendAll_linkOnly port 1024

/-- A message on VC0 with a route is held under this module's name until it is acknowledged. -/
theorem State.sendCtl_held {dst q : Nat} (c : Ctl) (hr : s.route dst 0 none = some q) :
    (∃ h ∈ (s.sendCtl dst c).lnk.held, h.pkt.dst = dst ∧ h.pkt.ctl = some c ∧ h.pkt.src = s.moduleId) ∧ LinkOnly s (s.sendCtl dst c) := by
  let p : Packet :=
    { kind := .control, vc := 0, cls := 0, dst := dst, src := s.moduleId, tenant := 0, space := 0, gen := s.gen, tag := 0,
      addr := 0, bad := 0, cnt := 0, cntEn := false, payload := [], ctl := some c }
  have hsend : s.sendCtl dst c = s.holdPacket { pkt := p, pair := false, waiter := .free, port := q, sent := false } := by
    unfold State.sendCtl State.sendPacket
    simp only [hr]
    rfl
  refine ⟨?_, hsend ▸ s.holdPacket_linkOnly _⟩
  rw [hsend]
  unfold State.holdPacket
  generalize s.nextTag dst 0 = e
  obtain ⟨tag, u⟩ := e
  obtain ⟨y, hy, hpkt, -, -⟩ := State.exists_held_flushPort (s :=
    { u with lnk := { u.lnk with held := u.lnk.held ++ [{ pkt := { p with tag := tag }, pair := false, waiter := .free, port := q, sent := false }] } })
    q (List.mem_append_right _ (List.mem_singleton_self _))
  exact ⟨y, hy, by rw [hpkt], by rw [hpkt], by rw [hpkt]⟩

theorem completes_servingTableRequest {src q : Nat} (hm : s.isMaster = true) (hs : s.serves = true) (hr : s.route src 0 none = some q) :
    Completes (.servingTableRequest src) s fun t =>
      (∃ h ∈ t.lnk.held, h.pkt.dst = src ∧ h.pkt.ctl = some (.table ((List.range 32).map fun p => s.quad 0x502100 / 4 ^ p % 4)) ∧
        h.pkt.src = s.moduleId) ∧ t.regs = s.regs ∧ t.tiles = s.tiles := by
  have hanswer : s.answerTable src = s.sendCtl src (.table ((List.range 32).map fun p => s.quad 0x502100 / 4 ^ p % 4)) :=
    if_pos (by simp [hm, hs])
  obtain ⟨hheld, hlink⟩ := State.sendCtl_held (.table ((List.range 32).map fun p => s.quad 0x502100 / 4 ^ p % 4)) hr
  exact ⟨_, congrArg Host.Outcome.next hanswer, hheld, hlink.regs, hlink.tiles⟩

/-! ## Resends (R339, R340) -/

/-- Is `x` sent again with `h`: it is `h` itself, or it stands with it on VC0 for one destination at one port? -/
def HeldPkt.again (h x : HeldPkt) : Bool := x == h || (h.pkt.vc == 0 && x.pkt.vc == 0 && x.pkt.dst == h.pkt.dst && x.port == h.port)

/-- A held packet after a resend of `h` on port `q`. -/
def HeldPkt.moved (h : HeldPkt) (q : Nat) (x : HeldPkt) : HeldPkt := if h.again x then { x with port := q, sent := false } else x

theorem HeldPkt.moved_pkt (h : HeldPkt) (q : Nat) (x : HeldPkt) : (h.moved q x).pkt = x.pkt :=
  ite_of_both (Q := fun y : HeldPkt => y.pkt = x.pkt) rfl rfl

theorem HeldPkt.moved_self (h : HeldPkt) (q : Nat) : h.moved q h = { h with port := q, sent := false } :=
  if_pos (by simp [HeldPkt.again])

/-- A resend counts what had left, holds everything on, and changes nothing else but the links and the outbox. -/
theorem State.resendPacket_spec {h : HeldPkt} (q : Nat) (hw : nwf s.regs = true) (hh : h ∈ s.lnk.held) :
    (∃ x ∈ (s.resendPacket h q).lnk.held, x.pkt = h.pkt ∧ x.port = q ∧ x.waiter = h.waiter) ∧
      (s.resendPacket h q).word 0x502200 = satAdd32 (s.word 0x502200) (s.lnk.held.filter fun x => h.again x && x.sent).length ∧
      (s.resendPacket h q).lnk.held.map (·.pkt) = s.lnk.held.map (·.pkt) ∧ (s.resendPacket h q).ctrs = s.ctrs ∧
      (s.resendPacket h q).tiles = s.tiles := by
  let u : State := ({ s with lnk := { s.lnk with held := s.lnk.held.map (h.moved q) } } : State).bump 0x502200
    (s.lnk.held.filter fun x => h.again x && x.sent).length
  have hx : s.resendPacket h q = u.flushPort q := rfl
  have hlink := u.flushPort_linkOnly q
  have hmem : h.moved q h ∈ u.lnk.held := List.mem_map_of_mem hh
  have hpkts : u.lnk.held.map (·.pkt) = s.lnk.held.map (·.pkt) :=
    (List.map_map ..).trans (List.map_congr_left fun x _ => h.moved_pkt q x)
  have hcount : u.word 0x502200 = satAdd32 (s.word 0x502200) (s.lnk.held.filter fun x => h.again x && x.sent).length :=
    nget_nset_same _ _ hw
  rw [hx]
  refine ⟨?_, ?_, ?_, hlink.ctrs, hlink.tiles⟩
  · obtain ⟨y, hy, hpkt, hport, hwaiter⟩ := u.exists_held_flushPort q hmem
    rw [h.moved_self] at hpkt hport hwaiter
    exact ⟨y, hy, hpkt, hport, hwaiter⟩
  · rw [← hcount, State.word, hlink.regs, State.word]
  · have hflush := congrArg (List.map HeldPkt.pkt) (u.flushPort_held q)
    rw [List.map_map, List.map_map] at hflush
    exact hflush.trans hpkts

/-- A held packet at a port of the rings goes again where a route leads. -/
theorem exec_e2eResendTimeout_route {h : HeldPkt} {q : Nat} (hf : s.lnk.held.find? (fun x => x.is h.pkt.dst h.pkt.vc h.pkt.tag) = some h)
    (hp : h.port < 16) (hr : s.route h.pkt.dst h.pkt.vc (if h.pkt.vc = 0 then none else some h.port) = some q) :
    exec (.e2eResendTimeout h.pkt.dst h.pkt.vc h.pkt.tag) s = .next (s.resendPacket h q) := by
  show execE2eResendTimeout _ _ _ s = _
  unfold execE2eResendTimeout
  simp only [hf, if_neg (show ¬16 ≤ h.port by omega)]
  simp only [Option.orElse, hr]

theorem completes_e2eResendTimeout_route {h : HeldPkt} {q : Nat} (hw : nwf s.regs = true)
    (hf : s.lnk.held.find? (fun x => x.is h.pkt.dst h.pkt.vc h.pkt.tag) = some h) (hp : h.port < 16)
    (hr : s.route h.pkt.dst h.pkt.vc (if h.pkt.vc = 0 then none else some h.port) = some q) :
    Completes (.e2eResendTimeout h.pkt.dst h.pkt.vc h.pkt.tag) s fun t =>
      (∃ x ∈ t.lnk.held, x.pkt = h.pkt ∧ x.port = q ∧ x.waiter = h.waiter) ∧
      t.word 0x502200 = satAdd32 (s.word 0x502200) (s.lnk.held.filter fun x => h.again x && x.sent).length ∧
      t.lnk.held.map (·.pkt) = s.lnk.held.map (·.pkt) ∧ t.ctrs = s.ctrs ∧ t.tiles = s.tiles :=
  ⟨_, exec_e2eResendTimeout_route hf hp hr, State.resendPacket_spec q hw (List.mem_of_find?_eq_some hf)⟩

/-! ## Losses (R339 to R341) -/

theorem State.route_of_no_paths {dst : Nat} (vc : Nat) (avoid : Option Nat) (hp : s.paths dst = []) : s.route dst vc avoid = none := by
  unfold State.route
  cases avoid <;> simp [hp]

/-- A held packet at a port of the rings whose destination no path leads to. -/
theorem State.portOf_unreachable {h : HeldPkt} (hp : h.port < 16) (hn : s.paths h.pkt.dst = []) : s.portOf h = none := by
  unfold State.portOf
  rw [if_neg (by omega), State.route_of_no_paths _ _ hn, hn]
  simp

/-- The state once `h` is dropped: it is held no longer, and counted as lost. -/
def State.dropHeld (s : State) (h : HeldPkt) : State :=
  ({ s with lnk := { s.lnk with held := s.lnk.held.filter (· != h), lost := s.lnk.lost ++ [h] } } : State).bump 0x502208 1

theorem State.rehold_unreachable {h : HeldPkt} (hp : h.port < 16) (hn : s.paths h.pkt.dst = []) (hpair : h.pair = false) :
    s.rehold h = s.dropHeld h := by
  unfold State.rehold
  rw [State.portOf_unreachable hp hn]
  dsimp only
  rw [if_neg (by simp [hpair])]
  rfl

theorem State.holdLater_empty (h : s.lnk.later = []) : s.holdLater = s := by
  unfold State.holdLater
  rw [h]
  rfl

/-- The end of the packets that were dropped under a name: what waited for them goes on (R341). -/
def State.tellLost (s : State) (dst vc tag : Nat) : State :=
  (s.lnk.lost.filter fun h => h.is dst vc tag).foldl (fun s h => s.lostPacket h)
    (({ s with lnk := { s.lnk with lost := s.lnk.lost.filter fun h => !h.is dst vc tag } } : State).holdLater)

/-- Nothing waits for a packet that was dropped last and alone under its name. -/
theorem State.tellLost_free {h : HeldPkt} {lost : List HeldPkt} {dst vc tag : Nat} (hlast : s.lnk.lost = lost ++ [h])
    (hself : h.is dst vc tag = true) (hlost : ∀ x ∈ lost, x.is dst vc tag = false) (hwait : h.waiter = .free) (hlater : s.lnk.later = []) :
    s.tellLost dst vc tag = { s with lnk := { s.lnk with lost := lost } } := by
  have hgone : s.lnk.lost.filter (fun x => x.is dst vc tag) = [h] := by
    rw [hlast, List.filter_append, List.filter_eq_nil_iff.mpr fun x hx => by simp [hlost x hx]]
    simp [hself]
  have hkept : s.lnk.lost.filter (fun x => !x.is dst vc tag) = lost := by
    rw [hlast, List.filter_append, List.filter_eq_self.mpr fun x hx => by simp [hlost x hx]]
    simp [hself]
  rw [State.tellLost, hgone, hkept, List.foldl_cons, List.foldl_nil, State.holdLater_empty (by exact hlater), State.lostPacket, hwait]

theorem exec_e2eResendTimeout_unreachable {h : HeldPkt} (hf : s.lnk.held.find? (fun x => x.is h.pkt.dst h.pkt.vc h.pkt.tag) = some h)
    (hp : h.port < 16) (hn : s.paths h.pkt.dst = []) :
    exec (.e2eResendTimeout h.pkt.dst h.pkt.vc h.pkt.tag) s = .next ((s.rehold h).tellLost h.pkt.dst h.pkt.vc h.pkt.tag) := by
  show execE2eResendTimeout _ _ _ s = _
  unfold execE2eResendTimeout
  simp only [hf, if_neg (show ¬16 ≤ h.port by omega), State.route_of_no_paths _ _ hn]
  rfl

theorem completes_e2eResendTimeout_unreachable {h : HeldPkt} (hw : nwf s.regs = true)
    (hf : s.lnk.held.find? (fun x => x.is h.pkt.dst h.pkt.vc h.pkt.tag) = some h) (hp : h.port < 16) (hn : s.paths h.pkt.dst = [])
    (hwait : h.waiter = .free) (hpair : h.pair = false) (hlater : s.lnk.later = [])
    (hlost : ∀ x ∈ s.lnk.lost, x.is h.pkt.dst h.pkt.vc h.pkt.tag = false) :
    Completes (.e2eResendTimeout h.pkt.dst h.pkt.vc h.pkt.tag) s fun t =>
      h ∉ t.lnk.held ∧ t.lnk.lost = s.lnk.lost ∧ t.word 0x502208 = satAdd32 (s.word 0x502208) 1 ∧ t.outbox = s.outbox ∧
      t.tiles = s.tiles := by
  have hself : h.is h.pkt.dst h.pkt.vc h.pkt.tag = true := by simp [HeldPkt.is]
  refine ⟨_, exec_e2eResendTimeout_unreachable hf hp hn, ?_⟩
  rw [State.rehold_unreachable hp hn hpair, State.tellLost_free (s := s.dropHeld h) (lost := s.lnk.lost) rfl hself hlost hwait hlater]
  refine ⟨?_, rfl, nget_nset_same _ _ hw, rfl, rfl⟩
  intro hmem
  obtain ⟨-, hne⟩ := List.mem_filter.mp hmem
  simp at hne

end

/-- Settles O42: a port's sending marks packets as sent and drops none, so that what a resend or an answer holds is held after it; a
packet without a path is taken off; and an announcement replaces one digit of LNK_SERVE. -/
theorem heldPacketsResentAndServingTable : Obligations.HeldPacketsResentAndServingTable := by
  intro s htidy
  have hw := State.tidy_regs htidy
  exact ⟨fun h q hf hp hr => completes_e2eResendTimeout_route hw hf hp hr,
    fun h hf hp hn hwait hpair hlater hlost => completes_e2eResendTimeout_unreachable hw hf hp hn hwait hpair hlater hlost,
    fun pair who hp hm => completes_servingAnnouncement hw hp hm,
    fun src q hm hs hr => completes_servingTableRequest hm hs hr⟩

end Sys2Proof.Machine
end


section
/-!
PROOFS. Ports that lose their partner, retrain and go down, and lanes that fail (R322, R332): the clauses of O40 on port states.
-/

namespace Sys2Proof.Machine

section
variable {s : State} {p k : Nat}

/-! ## Retraining (R332, R335) -/

/-- The paths computed anew after a change at port `p`, and told along its ring where it is a ring's port. -/
def State.newPaths (s : State) (p : Nat) : State := if p < 16 then s.linkChanged (p / 2) else s.repath

theorem State.newPaths_linkFrame (s : State) (p : Nat) : LinkFrame (RepathWords s.holdsPair) s (s.newPaths p) :=
  .ite (s.linkChanged_linkFrame _) s.repath_linkFrame

theorem State.newPaths_hearFrame (s : State) (p : Nat) : HearFrame s (s.newPaths p) := .ite (s.linkChanged_hearFrame _) s.repath_hearFrame

/-- The last entry of the module fault record stays where no packet of a pair is held. -/
theorem not_repathWords_lastEntry {pair : Prop} (h : ¬pair) : ¬RepathWords pair 0x700040 := by simp [RepathWords, h]

/-- The words that a retrain of port `p` may touch: those of its state and its count, the fault record's, and those of new paths. -/
def RetrainWords (pair : Prop) (p a : Nat) : Prop := PortWords p a ∨ a = portReg p + 0x18 ∨ ModuleEntryWords a ∨ RepathWords pair a

/-- A retrain sets the port's state, counts, and records LNK_RETRAIN; the partner has to pass again, and the rest that was heard stays. -/
theorem State.retrain_spec (hw : nwf s.regs = true) (hp : p < 18) :
    LinkFrame (RetrainWords s.holdsPair p) s (s.retrain p) ∧ (s.retrain p).portState p = psRetrain ∧
      (s.retrain p).word (portReg p + 0x18) = satAdd32 (s.word (portReg p + 0x18)) 1 ∧
      ((∀ h ∈ s.lnk.held, h.pair = false) → (s.retrain p).fld 0x700040 0 8 = 0xA1) ∧
      ((s.retrain p).port p).heard = { (s.port p).heard with passed := false } ∧ (s.retrain p).lnk.arrived = s.lnk.arrived := by
  let u := s.setPort p psRetrain
  let v := u.bump (portReg p + 0x18) 1
  let n := v.note 0xA1 { detail := p }
  let c := n.updPort p fun q => { q with resends := 0, passed := false }
  have hx : s.retrain p = c.newPaths p := rfl
  have hu : LinkFrame (PortWords p) s u := s.setPort_linkFrame p psRetrain
  have wu := hu.words.wf hw
  have hv : LinkFrame (· = portReg p + 0x18) u v := (u.bump_reports _ _).linkFrame (u.bump_words _ rfl)
  have wv := hv.words.wf wu
  have hn : LinkFrame ModuleEntryWords v n := (v.note_reports _ _).linkFrame (v.moduleEntry_recordWords _ _)
  have wc : nwf c.regs = true := hn.words.wf wv
  have hl := c.newPaths_linkFrame p
  have ln : n.lnk = s.lnk := ((s.setPort_reports p psRetrain).trans ((u.bump_reports _ _).trans (v.note_reports _ _))).lnk
  have hpair : c.holdsPair ↔ s.holdsPair := by
    show (∃ h ∈ n.lnk.held, h.pair = true) ↔ _
    rw [ln]
    rfl
  have hpc : c.port p = { s.port p with resends := 0, passed := false } := by
    rw [State.port_updPort_same hp]
    simp only [State.port, ln]
  have hfc : c.fld 0x700040 0 8 = 0xA1 := State.moduleEntry_lastCode (s := v) _ _ wv
  have hcn (a : Nat) (ha : ¬ModuleEntryWords a) : c.word a = v.word a := hn.words.word wv a ha
  have hh := c.newPaths_hearFrame p
  have hne : portReg p ≠ portReg p + 0x18 := by omega
  have hstate : ¬ModuleEntryWords (portReg p) ∧ ¬ModuleEntryWords (portReg p + 0x18) := by
    simp only [ModuleEntryWords, portReg]
    omega
  have hcount : ¬RepathWords c.holdsPair (portReg p + 0x18) := by
    simp only [RepathWords, ModuleEntryWords, portReg]
    omega
  rw [hx]
  refine ⟨?_, ?_, ?_, fun hnone => ?_, ?_, ?_⟩
  · have hc : LinkFrame (RetrainWords s.holdsPair p) s c :=
      ((hu.mono fun _ h => .inl h).trans (hv.mono fun _ h => .inr (.inl h))).trans
        ((hn.mono fun _ h => .inr (.inr (.inl h))).trans ⟨.of_regs_eq rfl, rfl, rfl, rfl⟩)
    exact hc.trans (hl.mono fun _ h => .inr (.inr (.inr (by rwa [hpair] at h))))
  · rw [hl.portState wc (not_repathWords_portReg hp), State.portState, State.fld, hcn _ hstate.1]
    exact (hv.portState wu hne).trans (s.setPort_portState hw hp (by decide))
  · rw [hl.words.word wc _ hcount, hcn _ hstate.2]
    refine (State.word_setWord_same _ _ wu).trans ?_
    rw [hu.words.word hw _ (by simp only [PortWords, portReg]; omega)]
  · rw [hl.words.fld_eq wc (not_repathWords_lastEntry (mt hpair.mp (State.not_holdsPair hnone))), hfc]
  · rw [hh.ports, hpc]
    rfl
  · rw [hh.arrived]
    show n.lnk.arrived = _
    rw [ln]

theorem exec_portPartnerLoss (hp : p < 18) (hup : s.portState p = psUp) : exec (.portPartnerLoss p) s = .next (s.retrain p) :=
  if_pos ⟨hp, hup⟩

theorem completes_portPartnerLoss (hw : nwf s.regs = true) (hp : p < 18) (hup : s.portState p = psUp) :
    Completes (.portPartnerLoss p) s fun t =>
      t.portState p = psRetrain ∧ t.word (portReg p + 0x18) = satAdd32 (s.word (portReg p + 0x18)) 1 ∧
      ((∀ h ∈ s.lnk.held, h.pair = false) → t.fld 0x700040 0 8 = 0xA1) ∧ (t.port p).passed = false ∧ t.tiles = s.tiles := by
  obtain ⟨hframe, hstate, hcount, hcode, hheard, -⟩ := State.retrain_spec hw hp
  exact ⟨_, exec_portPartnerLoss hp hup, hstate, hcount, hcode, (congrArg Port.passed hheard :), hframe.tiles⟩

theorem exec_portRetrainComplete {x : Ident} {g : Nat} (hp : p < 18) (hr : s.portState p = psRetrain) (hx : s.checkIdent p x = .pass g) :
    exec (.portRetrainComplete p x) s = .next (((s.takePartner p x g).portUp p).newPaths p) := by
  show execPortRetrainComplete p x s = _
  unfold execPortRetrainComplete
  rw [if_neg (by simp [hr]; omega), hx]
  rfl

theorem completes_portRetrainComplete {x : Ident} {g : Nat} (hw : nwf s.regs = true) (hp : p < 18) (hr : s.portState p = psRetrain)
    (hx : s.checkIdent p x = .pass g) :
    Completes (.portRetrainComplete p x) s fun t =>
      t.portState p = (if s.lanesOk p then psUp else psDown) ∧ t.fld (portReg p + 4) 0 6 = x.moduleId % 64 ∧
      (t.port p).partner = some x ∧ t.tiles = s.tiles := by
  refine ⟨_, exec_portRetrainComplete hp hr hx, ?_⟩
  obtain ⟨h1, hpartner, hport, -⟩ := s.takePartner_spec x g hw hp
  generalize s.takePartner p x g = u at *
  have wu := h1.words.wf hw
  have hlanes : u.lanesOk p = s.lanesOk p := State.lanesOk_of_lanes (by rw [hport, Port.withPartner_lanes])
  obtain ⟨h2, hstate, hlnk⟩ := u.portUp_spec wu hp
  have wv := h2.words.wf wu
  have h3 := (u.portUp p).newPaths_linkFrame p
  refine ⟨?_, ?_, ?_, ?_⟩
  · rw [h3.portState wv (not_repathWords_portReg hp), hstate, hlanes]
  · rw [h3.words.fld_eq wv (by simp only [RepathWords, ModuleEntryWords, portReg]; omega),
      h2.words.fld_eq wu (by simp only [PortWords, portReg]; omega), hpartner]
  · rw [((u.portUp p).newPaths_hearFrame p).partner, State.port, hlnk, ← State.port, hport]
    rfl
  · rw [h3.tiles, h2.tiles, h1.tiles]

/-! ## An attachment that goes down (R332) -/

theorem State.closePorts_keeps (s : State) (k v : Nat) (f : Att → Att) :
    (s.closePorts k v f).lnk.held = s.lnk.held ∧ (s.closePorts k v f).tiles = s.tiles := by
  have hbypass : (s.bypass k false).lnk.held = s.lnk.held ∧ (s.bypass k false).tiles = s.tiles :=
    ite_of_both (Q := fun u : State => u.lnk.held = s.lnk.held ∧ u.tiles = s.tiles) ⟨rfl, rfl⟩ ⟨rfl, rfl⟩
  unfold State.closePorts
  have hset := ((s.bypass k false).updAtt k f).setPorts_lnk (2 * k) (2 * k + 1) v v
  refine ⟨(congrArg Lnk.held hset).trans hbypass.1, ?_⟩
  rw [(State.setPort_reports _ _ _).tiles, (State.setPort_reports _ _ _).tiles]
  exact hbypass.2

/-- An attachment that goes down has its bypass closed and both ports DOWN, and is recorded as LNK_DOWN. -/
theorem State.attDown_closes (hw : nwf s.regs = true) (hk : k < 8) :
    (s.attDown k).portState (2 * k) = psDown ∧ (s.attDown k).portState (2 * k + 1) = psDown ∧
      ((s.att k).stuck = false → (s.attDown k).flag (attReg k) 2 = true) ∧ ((s.attDown k).att k).openCmd = false ∧
      ((∀ h ∈ s.lnk.held, h.pair = false) → (s.attDown k).fld 0x700040 0 8 = 0xA2) ∧ (s.attDown k).tiles = s.tiles := by
  let c := s.closePorts k psDown fun a => { a with window := false, retry := false }
  have hx : s.attDown k = (((c.setAtt k asDown).setFlag 0x502000 k false).note 0xA2 { detail := k }).linkChanged k := rfl
  obtain ⟨hc, -, hbit, hatt, hup, hdown, -⟩ :=
    s.closePorts_spec (fun a => { a with window := false, retry := false }) hw hk (show psDown < 8 by decide)
  obtain ⟨hheld, htiles⟩ := s.closePorts_keeps k psDown fun a => { a with window := false, retry := false }
  have wc : nwf c.regs = true := hc.wf hw
  obtain ⟨hd, -, hkeep, -⟩ := State.setAttClear_spec (s := c) wc hk (show asDown < 4 by decide)
  have ld : ((c.setAtt k asDown).setFlag 0x502000 k false).lnk.held = s.lnk.held :=
    (congrArg Lnk.held (c.setAtt_reports k asDown).lnk).trans hheld
  rw [hx]
  have wd := hd.words.wf wc
  generalize (c.setAtt k asDown).setFlag 0x502000 k false = d at *
  have hn : LinkFrame ModuleEntryWords d (d.note 0xA2 { detail := k }) := (d.note_reports _ _).linkFrame (d.moduleEntry_recordWords _ _)
  have wn := hn.words.wf wd
  have hl := (d.note 0xA2 { detail := k }).linkChanged_linkFrame k
  have hport : ∀ q < 18, ((d.note 0xA2 { detail := k }).linkChanged k).portState q = c.portState q := fun q hq => by
    rw [hl.portState wn (not_repathWords_portReg hq), hn.portState wd (by simp only [ModuleEntryWords, portReg]; omega),
      hd.portState wc (not_downWords_portReg hk hq)]
  refine ⟨(hport _ (by omega)).trans hup, (hport _ (by omega)).trans hdown, fun hst => ?_, ?_, fun hnone => ?_, ?_⟩
  · rw [hl.words.flag_eq wn (not_repathWords_attReg hk), hn.words.flag_eq wd (by simp only [ModuleEntryWords, attReg]; omega), hkeep]
    exact hbit hst
  · rw [hl.att, hn.att, hd.att]
    exact congrArg Att.openCmd hatt
  · have hnot : ¬(d.note 0xA2 { detail := k }).holdsPair := State.not_holdsPair (by rwa [State.note_lnk, ld])
    rw [hl.words.fld_eq wn (not_repathWords_lastEntry hnot)]
    exact d.moduleEntry_lastCode _ _ wd
  · rw [hl.tiles, hn.tiles, hd.tiles]
    exact htiles

theorem completes_attachmentDown (hw : nwf s.regs = true) (hk : k < 8) (ha : s.attState k = asUp)
    (hports : s.portState (2 * k) ≠ psUp ∨ s.portState (2 * k + 1) ≠ psUp) :
    Completes (.attachmentDown k) s fun t =>
      t.attState k = asDown ∧ t.portState (2 * k) = psDown ∧ t.portState (2 * k + 1) = psDown ∧
      ((s.att k).stuck = false → t.flag (attReg k) 2 = true) ∧ (t.att k).openCmd = false ∧
      ((∀ h ∈ s.lnk.held, h.pair = false) → t.fld 0x700040 0 8 = 0xA2) ∧ t.tiles = s.tiles := by
  obtain ⟨-, hstate, -, -⟩ := s.attDown_spec hw hk
  exact ⟨_, if_pos ⟨hk, ha, hports⟩, hstate, State.attDown_closes hw hk⟩

/-! ## A written retry (R332) -/

/-- Does a retry that names attachment `k` make it join? -/
def State.retries (s : State) (k : Nat) : Bool := s.attUsed k && s.attState k == asDown && !(s.att k).stuck

/-- What a retry does to one attachment that it names. -/
def State.retryAtt (s : State) (k : Nat) : State := if s.retries k then (s.setFlag 0x502000 k true).setAtt k asJoin else s

theorem State.retries_iff : s.retries k = true ↔ s.attUsed k = true ∧ s.attState k = asDown ∧ (s.att k).stuck = false := by
  simp [State.retries, and_assoc]

theorem State.retryAtt_spec (hw : nwf s.regs = true) (hk : k < 8) :
    LinkFrame (DownWords k) s (s.retryAtt k) ∧ (s.retryAtt k).attState k = (if s.retries k then asJoin else s.attState k) ∧
      (s.retryAtt k).flag 0x502000 k = (s.retries k || s.flag 0x502000 k) ∧
      ∀ j, j ≠ k → (s.retryAtt k).flag 0x502000 j = s.flag 0x502000 j := by
  unfold State.retryAtt
  by_cases h : s.retries k = true
  · have h1 : LinkFrame (DownWords k) s (s.setFlag 0x502000 k true) := State.setFlag_linkFrame _ _ _ (.inr rfl)
    have w1 := h1.words.wf hw
    have h2 := (s.setFlag 0x502000 k true).setAtt_linkFrame k asJoin
    have hctl : ¬AttWords k 0x502000 := by
      simp only [AttWords, attReg]
      omega
    rw [h, if_pos rfl, if_pos rfl]
    refine ⟨h1.trans (h2.mono fun _ h => .inl h), State.setAtt_attState _ w1 hk (by decide), ?_, fun j hj => ?_⟩
    · rw [h2.words.flag_eq w1 hctl, State.flag_setFlag_same _ _ _ hw (by omega)]
      rfl
    · rw [h2.words.flag_eq w1 hctl, State.flag_setFlag_bit _ hw (by omega) hj]
  · rw [if_neg h, if_neg h, Bool.eq_false_iff.mpr h]
    exact ⟨.refl s, rfl, rfl, fun _ _ => rfl⟩

/-- What a retry does to one attachment is nothing to another. -/
theorem State.retryAtt_other {j : Nat} (hw : nwf s.regs = true) (hk : k < 8) (hj : j < 8) (hne : j ≠ k) :
    (s.retryAtt k).attState j = s.attState j ∧ (s.retryAtt k).retries j = s.retries j := by
  obtain ⟨hframe, -, -, -⟩ := State.retryAtt_spec hw hk
  have hstate : (s.retryAtt k).attState j = s.attState j := hframe.attState hw (by simp only [DownWords, AttWords, attReg]; omega)
  exact ⟨hstate, by rw [State.retries, State.attUsed_of_boot hframe.boot, hstate, hframe.att, State.retries]⟩

/-- Over the attachments of a list, those that may retry join and the others stay. -/
theorem State.foldl_retryAtt_spec {l : List Nat} (hl : ∀ j ∈ l, j < 8) (hw : nwf s.regs = true) (hk : k < 8) :
    (l.foldl State.retryAtt s).attState k = (if k ∈ l ∧ s.retries k = true then asJoin else s.attState k) ∧
      (l.foldl State.retryAtt s).flag 0x502000 k = (decide (k ∈ l ∧ s.retries k = true) || s.flag 0x502000 k) := by
  induction l generalizing s with
  | nil => simp
  | cons j l ih =>
    have hj := hl j List.mem_cons_self
    obtain ⟨hframe, hstate, hflag, hflags⟩ := State.retryAtt_spec hw hj
    obtain ⟨ihstate, ihflag⟩ := ih (fun i hi => hl i (List.mem_cons_of_mem j hi)) (hframe.words.wf hw)
    rw [List.foldl_cons, ihstate, ihflag]
    by_cases hkj : k = j
    · subst hkj
      by_cases h : s.retries k = true
      · have hjoin : (s.retryAtt k).attState k = asJoin := hstate.trans (if_pos h)
        have hdone : (s.retryAtt k).retries k = false := by simp [State.retries, hjoin, asJoin, asDown]
        simp [h, hdone, hjoin, hflag]
      · have hsame : s.retryAtt k = s := if_neg h
        simp [h, hsame]
    · obtain ⟨hstate', hretries⟩ := State.retryAtt_other hw hj hk hkj
      rw [hstate', hretries, hflags k hkj]
      simp [hkj]

theorem mem_bitsOf {n m i : Nat} : i ∈ bitsOf n m ↔ i < n ∧ bitOf m i = true := by simp [bitsOf]

theorem completes_lnkRetry {mask : Nat} (hw : nwf s.regs = true) (hs : s.serves = true) :
    Completes (.lnkRetry mask) s fun t => ∀ k : Fin 8,
      if bitOf mask k = true ∧ s.attUsed k = true ∧ s.attState k = asDown ∧ (s.att k).stuck = false
      then t.attState k = asJoin ∧ t.flag 0x502000 k = true
      else t.attState k = s.attState k ∧ t.flag 0x502000 k = s.flag 0x502000 k := by
  refine ⟨(bitsOf 8 mask).foldl State.retryAtt s, if_pos hs, fun k => ?_⟩
  obtain ⟨hstate, hflag⟩ := State.foldl_retryAtt_spec (s := s) (l := bitsOf 8 mask) (fun j hj => (mem_bitsOf.mp hj).1) hw k.isLt
  have hiff : (k.val ∈ bitsOf 8 mask ∧ s.retries k = true) ↔
      bitOf mask k = true ∧ s.attUsed k = true ∧ s.attState k = asDown ∧ (s.att k).stuck = false := by
    rw [mem_bitsOf, State.retries_iff]
    simp [k.isLt]
  rw [hstate, hflag]
  split
  next h => simp [hiff.mpr h]
  next h => simp [mt hiff.mp h]

/-! ## Lanes that fail (R322) -/

/-- A port that goes UP shows its lanes, and whether the spare stands in for one of the first four. -/
theorem State.portUp_lanes (hw : nwf s.regs = true) (hl : s.lanesOk p = true) :
    (s.portUp p).fld (portReg p) 3 3 = min 4 ((s.port p).lanes.filter id).length ∧
      (s.portUp p).flag (portReg p) 6 = (((s.port p).lanes.take 4).any (!·) && decide (4 ≤ ((s.port p).lanes.filter id).length)) := by
  unfold State.portUp
  extract_lets good spare
  have hgood : ¬good < 3 := by simpa [State.lanesOk] using hl
  have w1 : nwf (s.setPort p psUp).regs = true := (s.setPort_linkFrame p psUp).words.wf hw
  have w2 := State.nwf_setFld (portReg p) 3 3 (min 4 good) w1
  rw [if_neg hgood]
  refine ⟨?_, State.flag_setFlag_same _ _ _ w2 (by decide)⟩
  refine (State.fld_setFld_below _ w2 (by decide) (by decide)).trans ((State.fld_setFld_same _ _ _ _ w1 (by decide)).trans ?_)
  omega

/-- The lanes of a port once one of them works no longer. -/
def Port.withoutLane (lane : Nat) (p : Port) : Port := { p with lanes := p.lanes.mapIdx fun i b => if i = lane then false else b }

/-- One lane of five good ones leaves four, with a gap among the first four unless it was the spare. -/
theorem lanes_after_loss : ∀ lane : Fin 5,
    (((List.replicate 5 true).mapIdx fun i b => if i = lane.val then false else b).filter id).length = 4 ∧
      (((List.replicate 5 true).mapIdx fun i b => if i = lane.val then false else b).take 4).any (!·) = decide (lane.val < 4) := by decide

theorem exec_laneFail {lane : Nat} (crossed : Bool) (hp : p < 18) (hl : (s.port p).lanes[lane]? = some true) :
    exec (.laneFail p lane crossed) s =
      .next (if crossed then { s with acc := { s.acc with due := s.acc.due ++ [s.laneSwap p lane 1] } }
        else { (s.laneFail p lane) with acc := { s.acc with swaps := s.acc.swaps ++ [s.laneSwap p lane 3] } }) := by
  show execLaneFail p lane crossed s = _
  unfold execLaneFail
  rw [if_pos ⟨hp, hl⟩]
  cases crossed <;> rfl

/-- The first lane that an UP port loses is replaced while the port stays UP. -/
theorem State.laneFail_first {lane : Fin 5} (hw : nwf s.regs = true) (hp : p < 18) (hl : (s.port p).lanes = List.replicate 5 true)
    (hup : s.portState p = psUp) :
    (s.laneFail p lane).portState p = psUp ∧ (s.laneFail p lane).fld (portReg p) 3 3 = 4 ∧
      (s.laneFail p lane).flag (portReg p) 6 = decide (lane.val < 4) ∧ (s.laneFail p lane).fld 0x700040 0 8 = 0xA0 ∧
      (s.laneFail p lane).tiles = s.tiles := by
  obtain ⟨hgood, hspare⟩ := lanes_after_loss lane
  let d := s.updPort p (Port.withoutLane lane)
  let n := d.note 0xA0 { detail := p }
  have hd : LinkFrame ModuleEntryWords s d := ⟨.of_regs_eq rfl, rfl, rfl, rfl⟩
  have hn : LinkFrame ModuleEntryWords s n := hd.trans ((d.note_reports _ _).linkFrame (d.moduleEntry_recordWords _ _))
  have hlanes : (n.port p).lanes = (List.replicate 5 true).mapIdx fun i b => if i = lane.val then false else b := by
    have hport : n.port p = d.port p := by simp only [State.port, n, State.note_lnk]
    rw [hport, State.port_updPort_same hp, Port.withoutLane, hl]
  have hnup : n.portState p = psUp := (hn.portState hw (by simp only [ModuleEntryWords, portReg]; omega)).trans hup
  have hok : n.lanesOk p = true := by rw [State.lanesOk, hlanes, hgood]; rfl
  have hx : s.laneFail p lane = n.portUp p := by
    have hif : s.laneFail p lane = if ((n.port p).lanes.filter id).length < 3 then
        if p < 16 then n.attDown (p / 2) else ((n.setPort p psDown).note 0xA2 { detail := p }).repath
      else if n.portState p = psUp then n.portUp p else n := rfl
    rw [hif, hlanes, hgood, if_neg (by decide), if_pos hnup]
  have hcode : n.fld 0x700040 0 8 = 0xA0 := State.moduleEntry_lastCode (s := d) _ _ hw
  have wn := hn.words.wf hw
  obtain ⟨hframe, hstate, -⟩ := n.portUp_spec wn hp
  obtain ⟨hcount, hspared⟩ := State.portUp_lanes wn hok
  rw [hx]
  refine ⟨?_, ?_, ?_, ?_, ?_⟩
  · rw [hstate, if_pos hok]
  · rw [hcount, hlanes, hgood]
    rfl
  · rw [hspared, hlanes, hgood, hspare]
    exact Bool.and_true _
  · rw [hframe.words.fld_eq wn (by simp only [PortWords, portReg]; omega), hcode]
  · rw [hframe.tiles, hn.tiles]

theorem completes_laneFail {lane : Fin 5} (hw : nwf s.regs = true) (hp : p < 18) (hl : (s.port p).lanes = List.replicate 5 true)
    (hup : s.portState p = psUp) :
    Completes (.laneFail p lane false) s (fun t =>
        t.portState p = psUp ∧ t.fld (portReg p) 3 3 = 4 ∧ t.flag (portReg p) 6 = decide (lane.val < 4) ∧
        t.acc.swaps = s.acc.swaps ++ [s.laneSwap p lane 3] ∧ t.fld 0x700040 0 8 = 0xA0 ∧ t.tiles = s.tiles) ∧
      Completes (.laneFail p lane true) s fun t => t = { s with acc := { s.acc with due := s.acc.due ++ [s.laneSwap p lane 1] } } := by
  have hgood : (s.port p).lanes[lane.val]? = some true := by rw [hl, List.getElem?_replicate, if_pos lane.isLt]
  obtain ⟨hstate, hcount, hspare, hcode, htiles⟩ := State.laneFail_first (lane := lane) hw hp hl hup
  have hfail := exec_laneFail false hp hgood
  generalize s.laneFail p lane = u at *
  exact ⟨⟨_, hfail, hstate, hcount, hspare, rfl, hcode, htiles⟩, ⟨_, exec_laneFail true hp hgood, rfl⟩⟩

end

end Sys2Proof.Machine
end


section
/-!
PROOFS. The link layer's blocks (R333, R335), and O40.
-/

namespace Sys2Proof.Machine

section
variable {s : State} {p : Nat}

/-! ## What an operation of the link layer leaves -/

theorem State.updPort_linkFrame {P : Nat → Prop} (s : State) (p : Nat) (f : Port → Port) : LinkFrame P s (s.updPort p f) :=
  ⟨.of_regs_eq rfl, rfl, rfl, rfl⟩

theorem State.bump_linkFrame {P : Nat → Prop} (s : State) {off : Nat} (n : Nat) (hp : P off) : LinkFrame P s (s.bump off n) :=
  (s.bump_reports off n).linkFrame (s.bump_words n hp)

/-! ## Blocks sent again (R335) -/

/-- Held block `x` of a port as the `i`-th that goes out again: only the first one carries the NAK, and each reports the freed buffers that
those before it had no room for. -/
def Port.resent (port : Nat) (q : Port) (x : Nat × Packet) (i : Nat) : Out :=
  .block port (linkBlock 0 x.1 q.expect (i == 0 && q.nak) (q.freed.map fun n => min 255 (n - 255 * i)) x.2.bytes) x.2.ctl.toList

/-- A port once a block has left it with what it had to report. -/
def Port.reported (q : Port) : Port := { q with nak := false, freed := q.freed.map (· - 255) }

theorem Port.resent_reported (port : Nat) (q : Port) (x : Nat × Packet) (i : Nat) : q.reported.resent port x i = q.resent port x (i + 1) := by
  have hfreed (n : Nat) : n - 255 - 255 * i = n - 255 * (i + 1) := by omega
  have hnak : (i + 1 == 0 && q.nak) = false := rfl
  simp only [Port.resent, Port.reported, List.map_map, Function.comp_def, hfreed, hnak, Bool.and_false]

theorem State.sendBlock_port (seq : Nat) (pkts : List Packet) (hp : p < 18) : (s.sendBlock p 0 seq pkts).port p = (s.port p).reported :=
  s.port_updPort_same hp _

theorem State.sendBlock_outbox (seq : Nat) (pkt : Packet) :
    (s.sendBlock p 0 seq [pkt]).outbox = s.outbox ++ [(s.port p).resent p (seq, pkt) 0] := by
  have hctl : [pkt].filterMap (·.ctl) = pkt.ctl.toList := by cases hc : pkt.ctl <;> simp [hc]
  have hbytes : [pkt].flatMap Packet.bytes = pkt.bytes := by simp
  simp only [State.sendBlock, State.send, State.updPort, hctl, hbytes, Port.resent, beq_self_eq_true, Bool.true_and, Nat.mul_zero, Nat.sub_zero]

/-- The blocks `l` sent again on a port, one after the other. -/
def State.sendAgain (s : State) (p : Nat) (l : List (Nat × Packet)) : State := l.foldl (fun s x => s.sendBlock p 0 x.1 [x.2]) s

theorem State.sendBlock_linkFrame {P : Nat → Prop} (s : State) (p kind seq : Nat) (pkts : List Packet) :
    LinkFrame P s (s.sendBlock p kind seq pkts) :=
  ⟨.of_regs_eq rfl, rfl, rfl, rfl⟩

theorem State.sendAgain_linkFrame {P : Nat → Prop} (s : State) (p : Nat) (l : List (Nat × Packet)) : LinkFrame P s (s.sendAgain p l) :=
  .foldl (fun u x _ => u.sendBlock_linkFrame p 0 x.1 [x.2]) s

theorem State.sendAgain_hearFrame (s : State) (p : Nat) (l : List (Nat × Packet)) : HearFrame s (s.sendAgain p l) :=
  foldl_inv (Q := HearFrame s) (fun u x h => h.trans (u.sendBlock_hearFrame p 0 x.1 [x.2])) (.refl s)

theorem State.sendAgain_resends (l : List (Nat × Packet)) (hp : p < 18) : ((s.sendAgain p l).port p).resends = (s.port p).resends :=
  foldl_inv (Q := fun u : State => (u.port p).resends = (s.port p).resends)
    (fun u x h => (congrArg Port.resends (u.sendBlock_port x.1 [x.2] hp)).trans h) rfl

theorem State.sendAgain_outbox (l : List (Nat × Packet)) (hp : p < 18) :
    (s.sendAgain p l).outbox = s.outbox ++ l.zipIdx.map fun x => (s.port p).resent p x.1 x.2 := by
  induction l generalizing s with
  | nil => simp [State.sendAgain]
  | cons x l ih =>
    have hstep : s.sendAgain p (x :: l) = (s.sendBlock p 0 x.1 [x.2]).sendAgain p l := rfl
    rw [hstep, ih, State.sendBlock_outbox, State.sendBlock_port _ _ hp, List.zipIdx_cons, List.zipIdx_succ, List.map_cons, List.map_map,
      List.append_assoc, List.singleton_append]
    exact congrArg (fun r => s.outbox ++ (s.port p).resent p x 0 :: r) (List.map_congr_left fun y _ => Port.resent_reported p _ y.1 y.2)

/-- Every held block of a port sent again and counted, before the port retrains or goes on. -/
def State.resendHeld (s : State) (p : Nat) : State :=
  ((s.bump (portReg p + 0xC) (s.port p).held.length).sendAgain p (s.port p).held).updPort p fun q => { q with resends := q.resends + 1 }

theorem State.resend_eq (s : State) (p : Nat) :
    s.resend p = if 16 ≤ ((s.resendHeld p).port p).resends then (s.resendHeld p).retrain p else s.resendHeld p := rfl

theorem State.resendHeld_spec (hp : p < 18) :
    LinkFrame (· = portReg p + 0xC) s (s.resendHeld p) ∧ HearFrame s (s.resendHeld p) ∧
      ((s.resendHeld p).port p).resends = (s.port p).resends + 1 := by
  let u := s.bump (portReg p + 0xC) (s.port p).held.length
  have hu : HearFrame s u := (s.bump_reports _ _).hearFrame
  have hagain := hu.trans (u.sendAgain_hearFrame p (s.port p).held)
  refine ⟨((s.bump_linkFrame (P := (· = portReg p + 0xC)) _ rfl).trans (u.sendAgain_linkFrame p _)).trans (State.updPort_linkFrame _ _ _),
    hagain.trans (State.updPort_hearFrame _ (f := fun q => { q with resends := q.resends + 1 }) rfl), ?_⟩
  rw [State.resendHeld, State.port_updPort_same hp]
  exact congrArg (· + 1) (State.sendAgain_resends (s := u) _ hp)

/-- A resend leaves the sequence expected, the gap noted and the packets received. -/
theorem State.resend_hears (hw : nwf s.regs = true) (hp : p < 18) :
    ((s.resend p).port p).expect = (s.port p).expect ∧ ((s.resend p).port p).gapSeen = (s.port p).gapSeen ∧
      (s.resend p).lnk.arrived = s.lnk.arrived ∧ (s.resend p).tiles = s.tiles := by
  obtain ⟨hl, hh, -⟩ := s.resendHeld_spec hp
  rw [State.resend_eq]
  refine ite_of_both (Q := fun u : State => (u.port p).expect = (s.port p).expect ∧ (u.port p).gapSeen = (s.port p).gapSeen ∧
    u.lnk.arrived = s.lnk.arrived ∧ u.tiles = s.tiles) ?_ ⟨hh.expect p, hh.gapSeen p, hh.arrived, hl.tiles⟩
  obtain ⟨hframe, -, -, -, hheard, harrived⟩ := State.retrain_spec (hl.words.wf hw) hp
  exact ⟨(congrArg Port.expect hheard :).trans (hh.expect p), (congrArg Port.gapSeen hheard :).trans (hh.gapSeen p),
    harrived.trans hh.arrived, hframe.tiles.trans hl.tiles⟩

theorem exec_linkResendTimeout (hp : p < 18) (hup : s.portState p = psUp) (hheld : (s.port p).held ≠ []) :
    exec (.linkResendTimeout p) s = .next (s.resend p) := if_pos ⟨hp, hup, hheld⟩

theorem completes_linkResendTimeout (hw : nwf s.regs = true) (hp : p < 18) (hup : s.portState p = psUp) (hheld : (s.port p).held ≠ []) :
    Completes (.linkResendTimeout p) s fun t =>
      t.word (portReg p + 0xC) = satAdd32 (s.word (portReg p + 0xC)) (s.port p).held.length ∧
      (if (s.port p).resends + 1 < 16 then
        t.outbox = s.outbox ++ (s.port p).held.zipIdx.map (fun x => (s.port p).resent p x.1 x.2) ∧ t.portState p = psUp
      else t.portState p = psRetrain) := by
  refine ⟨_, exec_linkResendTimeout hp hup hheld, ?_⟩
  obtain ⟨hl, -, hresends⟩ := s.resendHeld_spec hp
  have hcount : (s.resendHeld p).word (portReg p + 0xC) = satAdd32 (s.word (portReg p + 0xC)) (s.port p).held.length := by
    have hsend := ((s.bump (portReg p + 0xC) (s.port p).held.length).sendAgain_linkFrame (P := fun _ => False) p (s.port p).held).words
    exact (hsend.word (State.nwf_bump _ _ hw) _ id).trans (State.word_setWord_same _ _ hw)
  have hstate : (s.resendHeld p).portState p = psUp := (hl.portState hw (by omega)).trans hup
  have houtbox : (s.resendHeld p).outbox = s.outbox ++ (s.port p).held.zipIdx.map (fun x => (s.port p).resent p x.1 x.2) :=
    State.sendAgain_outbox (s := s.bump (portReg p + 0xC) (s.port p).held.length) _ hp
  rw [State.resend_eq, hresends]
  by_cases h : (s.port p).resends + 1 < 16
  · rw [if_neg (by omega), if_pos h]
    exact ⟨hcount, houtbox, hstate⟩
  · have wr := hl.words.wf hw
    obtain ⟨hframe, hretrain, -⟩ := State.retrain_spec wr hp
    rw [if_pos (by omega), if_neg h]
    refine ⟨?_, hretrain⟩
    rw [hframe.words.word wr _ (by simp only [RetrainWords, PortWords, RepathWords, ModuleEntryWords, portReg]; omega), hcount]

/-! ## Blocks received (R333, R335) -/

/-- The words of a port's FEC counts. -/
def FecWords (p a : Nat) : Prop := a = portReg p + 0x10 ∨ a = portReg p + 0x14

/-- The FEC counts are all that a block's FEC changes. -/
theorem State.fecCounts_spec (s : State) (p : Nat) (bad : Bool) : LinkFrame (FecWords p) s (s.fecCounts p bad) ∧ (s.fecCounts p bad).lnk = s.lnk := by
  have hfree (u : State) : LinkFrame (FecWords p) u u.free.2 := ⟨.of_regs_eq rfl, rfl, rfl, rfl⟩
  let u := s.free.2.bump (portReg p + 0x10) s.free.1
  have hu : LinkFrame (FecWords p) s u := (hfree s).trans (State.bump_linkFrame _ _ (.inl rfl))
  cases bad with
  | false => exact ⟨hu, rfl⟩
  | true => exact ⟨(hu.trans (hfree u)).trans (State.bump_linkFrame _ _ (.inr rfl)), rfl⟩

/-- A port that has met a gap notes it, and sets NAK for it once. -/
theorem State.linkGap_port (hp : p < 18) :
    ((s.linkGap p).port p).gapSeen = true ∧ ((s.linkGap p).port p).expect = (s.port p).expect := by
  unfold State.linkGap
  rw [State.port_updPort_same hp]
  split
  next h => exact ⟨h, rfl⟩
  next => exact ⟨rfl, rfl⟩

theorem exec_linkBlockReceive_bad {bytes : List Byte} (hp : p < 18) (hup : s.portState p = psUp) (hlen : bytes.length = 512)
    (hcrc : crc32c (bytes.take 508) ≠ fieldAt bytes 508 4) :
    exec (.linkBlockReceive p bytes) s = .next ((((s.fecCounts p true).bump (portReg p + 8) 1).linkGap p).nextBlock p) := by
  have hbad : (crc32c (bytes.take 508) != fieldAt bytes 508 4) = true := by simpa using hcrc
  show execLinkBlockReceive p bytes s = _
  unfold execLinkBlockReceive
  simp only [hbad]
  rw [if_neg (by simp [hup, hlen]; omega)]
  rfl

/-- A block with a bad CRC is counted, takes nothing, and leaves a gap noted. -/
theorem completes_linkBlockReceive_bad {bytes : List Byte} (hw : nwf s.regs = true) (hp : p < 18) (hup : s.portState p = psUp)
    (hlen : bytes.length = 512) (hcrc : crc32c (bytes.take 508) ≠ fieldAt bytes 508 4) :
    Completes (.linkBlockReceive p bytes) s fun t =>
      t.word (portReg p + 8) = satAdd32 (s.word (portReg p + 8)) 1 ∧ t.lnk.arrived = s.lnk.arrived ∧ (t.port p).gapSeen = true ∧
      (t.port p).expect = (s.port p).expect ∧ t.tiles = s.tiles := by
  refine ⟨_, exec_linkBlockReceive_bad hp hup hlen hcrc, ?_⟩
  obtain ⟨hfec, lfec⟩ := s.fecCounts_spec p true
  generalize s.fecCounts p true = u at *
  have wu := hfec.words.wf hw
  let v := u.bump (portReg p + 8) 1
  have hport : v.port p = s.port p := by simp only [State.port, v, State.bump_lnk, lfec]
  have hword : v.word (portReg p + 8) = satAdd32 (s.word (portReg p + 8)) 1 := by
    refine (State.word_setWord_same _ _ wu).trans ?_
    rw [hfec.words.word hw _ (by simp only [FecWords]; omega)]
  obtain ⟨hgap, hexpect⟩ := v.linkGap_port hp
  have hnext := (v.linkGap p).nextBlock_hearFrame p
  have hlink := (v.linkGap p).nextBlock_linkFrame (P := fun _ => False) p
  refine ⟨?_, ?_, ?_, ?_, ?_⟩
  · exact (hlink.words.word (State.nwf_bump _ _ wu) _ id).trans hword
  · exact hnext.arrived.trans (congrArg Lnk.arrived (show v.lnk = s.lnk from lfec) :)
  · rw [hnext.gapSeen, hgap]
  · rw [hnext.expect, hexpect, hport]
  · exact hlink.tiles.trans hfec.tiles

/-- A port once a block has told it of buffers freed on the four virtual channels (R336). -/
def Port.creditedBy (bytes : List Byte) (q : Port) : Port := (List.range 4).foldl (fun q vc => q.credited vc (fieldAt bytes (4 + vc) 1)) q

theorem Port.heard_creditedBy (bytes : List Byte) (q : Port) : (q.creditedBy bytes).heard = q.heard :=
  foldl_inv (Q := fun r : Port => r.heard = q.heard) (fun _ _ h => h) rfl

/-- What the header of a block with a good CRC tells: the FEC's counts, the ACK, and the CREDIT. -/
def State.blockHeader (s : State) (p : Nat) (bytes : List Byte) : State :=
  ((s.fecCounts p false).linkAck p (fieldAt bytes 2 2 % 4096)).updPort p (Port.creditedBy bytes)

theorem State.blockHeader_spec (s : State) (p : Nat) (bytes : List Byte) :
    LinkFrame (FecWords p) s (s.blockHeader p bytes) ∧ HearFrame s (s.blockHeader p bytes) := by
  obtain ⟨hfec, lfec⟩ := s.fecCounts_spec p false
  have hfecHear : HearFrame s (s.fecCounts p false) := .of_ports (congrArg Lnk.ports lfec) (congrArg Lnk.arrived lfec)
  have hack (u : State) (ack : Nat) : LinkFrame (FecWords p) u (u.linkAck p ack) ∧ HearFrame u (u.linkAck p ack) :=
    ite_of_both (Q := fun v : State => LinkFrame (FecWords p) u v ∧ HearFrame u v) ⟨.refl u, .refl u⟩
      ⟨u.updPort_linkFrame p _, u.updPort_hearFrame rfl⟩
  obtain ⟨hackLink, hackHear⟩ := hack (s.fecCounts p false) (fieldAt bytes 2 2 % 4096)
  exact ⟨(hfec.trans hackLink).trans (State.updPort_linkFrame _ _ _),
    (hfecHear.trans hackHear).trans (State.updPort_hearFrame _ (Port.heard_creditedBy bytes _))⟩

theorem State.takeBlock_spec (seq : Nat) (payload : List Byte) (hp : p < 18) :
    ((s.takeBlock p seq payload).port p).expect = (seq + 1) % 4096 ∧ ((s.takeBlock p seq payload).port p).gapSeen = false ∧
      (s.takeBlock p seq payload).lnk.arrived = s.lnk.arrived ++ (parsePackets 21 payload).map (fun x => { port := p, seq := seq, pkt := x }) ∧
      (s.takeBlock p seq payload).tiles = s.tiles ∧ (s.takeBlock p seq payload).regs = s.regs := by
  have hport : (s.takeBlock p seq payload).port p = { s.port p with expect := (seq + 1) % 4096, gapSeen := false } := s.port_updPort_same hp _
  exact ⟨by rw [hport], by rw [hport], rfl, rfl, rfl⟩

/-- A DATA block that is the expected one is taken; then the port answers a NAK with its held blocks, or sends its next block. -/
theorem exec_linkBlockReceive_data {bytes : List Byte} (hp : p < 18) (hup : s.portState p = psUp) (hlen : bytes.length = 512)
    (hseq : (s.port p).expect < 4096) (hcrc : crc32c (bytes.take 508) = fieldAt bytes 508 4) (hdata : fieldAt bytes 0 2 = (s.port p).expect) :
    ∃ nak : Bool, exec (.linkBlockReceive p bytes) s =
      .next (if nak then
          (((s.blockHeader p bytes).takeBlock p (s.port p).expect ((bytes.drop 12).take 496)).resend p).flushPort p
        else ((s.blockHeader p bytes).takeBlock p (s.port p).expect ((bytes.drop 12).take 496)).nextBlock p) := by
  have hgood : (crc32c (bytes.take 508) != fieldAt bytes 508 4) = false := by simp [hcrc]
  have hkind : (s.port p).expect / 4096 = 0 := Nat.div_eq_of_lt hseq
  have hmod : (s.port p).expect % 4096 = (s.port p).expect := Nat.mod_eq_of_lt hseq
  have hexpect : ((s.blockHeader p bytes).port p).expect = (s.port p).expect := (s.blockHeader_spec p bytes).2.expect p
  refine ⟨bitOf (fieldAt bytes 2 2) 12 &&
    !(((s.blockHeader p bytes).takeBlock p (s.port p).expect ((bytes.drop 12).take 496)).port p).held.isEmpty, ?_⟩
  show execLinkBlockReceive p bytes s = _
  unfold execLinkBlockReceive
  simp only [hgood, hdata, hkind, hmod]
  rw [if_neg (by simp [hup, hlen]; omega), if_neg Bool.false_ne_true, if_neg (show ¬1 < 0 by decide), if_neg (show ¬0 = 1 by decide)]
  have hheader : ((s.fecCounts p false).linkAck p (fieldAt bytes 2 2 % 4096)).updPort p
      (fun q => (List.range 4).foldl (fun q vc => q.credited vc (fieldAt bytes (4 + vc) 1)) q) = s.blockHeader p bytes := rfl
  rw [hheader, hexpect, if_pos rfl]
  split <;> rfl

theorem completes_linkBlockReceive_data {bytes : List Byte} (hw : nwf s.regs = true) (hp : p < 18) (hup : s.portState p = psUp)
    (hlen : bytes.length = 512) (hseq : (s.port p).expect < 4096) (hcrc : crc32c (bytes.take 508) = fieldAt bytes 508 4)
    (hdata : fieldAt bytes 0 2 = (s.port p).expect) :
    Completes (.linkBlockReceive p bytes) s fun t =>
      (t.port p).expect = ((s.port p).expect + 1) % 4096 ∧ (t.port p).gapSeen = false ∧
      t.lnk.arrived = s.lnk.arrived ++
        (parsePackets 21 ((bytes.drop 12).take 496)).map (fun x => { port := p, seq := (s.port p).expect, pkt := x }) ∧
      t.tiles = s.tiles := by
  obtain ⟨nak, hexec⟩ := exec_linkBlockReceive_data hp hup hlen hseq hcrc hdata
  obtain ⟨hlink, hhear⟩ := s.blockHeader_spec p bytes
  obtain ⟨hexpect, hgap, harrived, htiles, hregs⟩ :=
    (s.blockHeader p bytes).takeBlock_spec (s.port p).expect ((bytes.drop 12).take 496) hp
  rw [hhear.arrived] at harrived
  rw [hlink.tiles] at htiles
  have wb : nwf ((s.blockHeader p bytes).takeBlock p (s.port p).expect ((bytes.drop 12).take 496)).regs = true := by
    rw [hregs]
    exact hlink.words.wf hw
  refine ⟨_, hexec, ?_⟩
  generalize (s.blockHeader p bytes).takeBlock p (s.port p).expect ((bytes.drop 12).take 496) = u at *
  rw [← hexpect, ← hgap, ← harrived, ← htiles]
  cases nak with
  | false =>
    have hnext := u.nextBlock_hearFrame p
    exact ⟨hnext.expect p, hnext.gapSeen p, hnext.arrived, (u.nextBlock_linkFrame (P := fun _ => False) p).tiles⟩
  | true =>
    obtain ⟨hrexpect, hrgap, hrarrived, hrtiles⟩ := State.resend_hears wb hp
    have hflush := (u.resend p).flushPort_hearFrame p
    exact ⟨(hflush.expect p).trans hrexpect, (hflush.gapSeen p).trans hrgap, hflush.arrived.trans hrarrived,
      ((u.resend p).flushPort_linkFrame (P := fun _ => False) p).tiles.trans hrtiles⟩

end

/-- Settles O40: a change at a port or an attachment sets its own words and records last before the paths are computed anew, which touch
none of them; what a port hears is apart from what it sends, so that sending, retraining and new paths leave what a block brought. -/
theorem portsLoseRetrainAndResend : Obligations.PortsLoseRetrainAndResend := by
  intro s htidy
  have hw := State.tidy_regs htidy
  exact ⟨fun p hup => completes_portPartnerLoss hw p.isLt hup,
    fun p x g hr hx => completes_portRetrainComplete hw p.isLt hr hx,
    fun k ha hports => completes_attachmentDown hw k.isLt ha hports,
    fun mask hs => completes_lnkRetry hw hs,
    fun p lane hl hup => completes_laneFail hw p.isLt hl hup,
    fun p bytes hup hlen hseq => ⟨fun hcrc hdata => completes_linkBlockReceive_data hw p.isLt hup hlen hseq hcrc hdata,
      fun hcrc => completes_linkBlockReceive_bad hw p.isLt hup hlen hcrc⟩,
    fun p hup hheld => completes_linkResendTimeout hw p.isLt hup hheld⟩

end Sys2Proof.Machine
end


section
/-!
PROOFS. The collective engines: what leaves their groups, collectives and registers as they are (R346, R374).
-/

namespace Sys2Proof.Machine

/-- The words that work outside the collectives may change: those that are no register of a tenant's or a group's collectives (R374). At
offset 0x58 of 0x100 bytes stands none of these: a stored command may name any number as its ring, and the ring's count of dropped peer
writes (R406) lies there. -/
def OffColl (a : Nat) : Prop := a < 0x601000 ∨ 0x603000 ≤ a ∨ a % 0x100 = 0x58

/-- From `s` to `t` the collective engines stay as they are, and so do the registers of tenants and groups. -/
structure KeepsColl (s t : State) : Prop where
  coll : t.coll = s.coll
  words : WordsOnly OffColl s t

section
variable {s t u : State} {c : Nat} {ref : CmdRef}

theorem KeepsColl.of_eq (hc : t.coll = s.coll) (hr : t.regs = s.regs) : KeepsColl s t := ⟨hc, .of_regs_eq hr⟩

theorem KeepsColl.refl (s : State) : KeepsColl s s := .of_eq rfl rfl

theorem KeepsColl.trans (h : KeepsColl s t) (g : KeepsColl t u) : KeepsColl s u := ⟨g.coll.trans h.coll, h.words.trans g.words⟩

theorem KeepsColl.ite {q : Prop} [Decidable q] (ht : KeepsColl s t) (hu : KeepsColl s u) : KeepsColl s (if q then t else u) :=
  ite_of_both ht hu

theorem KeepsColl.foldl {α : Type} {f : State → α → State} {l : List α} (hf : ∀ u, ∀ x ∈ l, KeepsColl u (f u x)) (s : State) :
    KeepsColl s (l.foldl f s) :=
  List.foldlRecOn (motive := KeepsColl s) l f (.refl s) fun u h x hx => h.trans (hf u x hx)

theorem Reports.keepsColl (h : Reports s t) (hw : WordsOnly OffColl s t) : KeepsColl s t := ⟨h.coll, hw⟩

theorem LinkOnly.keepsColl (h : LinkOnly s t) : KeepsColl s t := by
  rw [LinkOnly] at h
  rw [h]
  exact .of_eq rfl rfl

theorem FrontOnly.keepsColl (h : FrontOnly s t) : KeepsColl s t := by
  rw [FrontOnly] at h
  rw [h]
  exact .of_eq rfl rfl

theorem LarderFrame.keepsColl (h : LarderFrame s t) : KeepsColl s t := by
  rw [show t = _ from h]
  exact .of_eq rfl rfl

theorem KeepsColl.grp (h : KeepsColl s t) (g : Nat) : t.grp c g = s.grp c g := by rw [State.grp, State.grp, h.coll]

/-! ## The registers of tenants and groups (R374) -/

theorem not_offColl_colTnt {o : Nat} (hc : c < 16) (ho : o < 0x18) (h4 : o % 4 = 0) : ¬OffColl (colTnt c o) := by
  simp only [OffColl, colTnt]; omega

theorem not_offColl_colGrp {g o : Nat} (hc : c < 16) (hg : g < 16) (ho : o < 8) : ¬OffColl (colGrp c g + o) := by
  simp only [OffColl, colGrp]; omega

theorem WordsOnly.grpState {g : Nat} (h : WordsOnly OffColl s t) (hw : nwf s.regs = true) (hc : c < 16) (hg : g < 16) :
    t.grpState c g = s.grpState c g := h.fld_eq hw (not_offColl_colGrp (o := 0) hc hg (by decide)) _ _

theorem WordsOnly.cseq {g : Nat} (h : WordsOnly OffColl s t) (hw : nwf s.regs = true) (hc : c < 16) (hg : g < 16) :
    t.cseq c g = s.cseq c g := congrArg BitVec.toNat (h.word hw _ (not_offColl_colGrp (o := 4) hc hg (by decide)))

theorem offColl_tnt {o : Nat} (hc : c < 16) (ho : o < 0x1000) : OffColl (tnt c o) := .inl (by simp only [tnt]; omega)

/-- A count of dropped peer writes lies off the collectives' registers, whatever the ring. -/
theorem offColl_drops (ring : Nat) : OffColl (rng c ring 0x58) := .inr (.inr (by simp only [rng]; omega))

/-! ## Faults and signals -/

theorem State.tntEvent_keepsColl (hc : c < 16) (b : Nat) : KeepsColl s (s.tntEvent c b) :=
  (s.tntEvent_reports c b).keepsColl (s.tntEvent_words _ _ (offColl_tnt hc (by decide)))

theorem State.freeze_keepsColl (hc : c < 16) (peer : Bool) : KeepsColl s (s.freeze c peer) := by
  unfold State.freeze
  extract_lets s0 s1 s2 recov s3 s4
  have h0 : KeepsColl s s0 := .of_eq rfl rfl
  have h1 : KeepsColl s s1 := h0.trans ((s0.setFld_reports _ _ _ _).keepsColl (s0.setFld_words _ _ _ (offColl_tnt hc (by decide))))
  have h2 : KeepsColl s s2 := by
    refine h1.trans (.foldl (fun u r hr => .ite ((u.setFld_reports _ _ _ _).keepsColl (u.setFld_words _ _ _ (.inl ?_))) (.refl u)) s1)
    have := List.mem_range.mp hr
    simp only [rng]
    omega
  have h3 : KeepsColl s s3 := h2.trans (.of_eq rfl rfl)
  have h4 : KeepsColl s s4 := (h3.trans (State.tntEvent_keepsColl hc 0)).trans
    ((State.modEvent_reports _ 3).keepsColl (State.modEvent_words _ _ (.inl (by decide))))
  exact .ite h0 (.ite (h4.trans (s4.sendTwin_linkOnly _ _).keepsColl) h4)

theorem State.enter_keepsColl (hc : c < 16) {code : Nat} (hcode : code < 256) (i : Info) : KeepsColl s (s.enter c code i) := by
  have hten : WordsOnly OffColl s (s.tenantEntry c code i) := by
    have hmono : ∀ a, FaultWords c a → OffColl a := fun a ha => by
      simp only [FaultWords, tnt] at ha
      simp only [OffColl]
      omega
    exact ⟨fun hw => (State.tenantEntry_spec i hw hc hcode).1.wf hw, fun hw => ((State.tenantEntry_spec i hw hc hcode).1.mono hmono).word hw⟩
  have hmod (u : State) : WordsOnly OffColl u (u.moduleEntry code i) :=
    (State.moduleEntry_words i).mono fun a ha => by simp only [OffColl]; omega
  refine (s.enter_reports c code i).keepsColl ?_
  unfold State.enter
  split
  exact .ite ((WordsOnly.ite hten (.refl s)).trans (hmod _)) (.ite hten (.refl s))

theorem State.raise_keepsColl (hc : c < 16) {code : Nat} (hcode : code < 256) (i : Info) : KeepsColl s (s.raise c code i) := by
  have he : KeepsColl s (s.enter c code i) := State.enter_keepsColl hc hcode i
  unfold State.raise
  split
  · exact he.trans (State.freeze_keepsColl hc _)
  · exact he.trans (State.freeze_keepsColl hc _)
  · exact he

theorem State.pushLog_keepsColl (hc : c < 16) (es : List (List Byte)) : KeepsColl s (s.pushLog c es) := by
  unfold State.pushLog
  extract_lets first logs v
  have hv : KeepsColl s v := .of_eq rfl rfl
  exact .ite (hv.trans (State.tntEvent_keepsColl hc 6)) hv

theorem State.signal_keepsColl (ring : Nat) (e : List Byte) (w : Waiter) : KeepsColl s (s.signal c ring e w).1 := by
  have hdrop : KeepsColl s (s.bump (rng c ring 0x58) 1) := (s.bump_reports _ _).keepsColl (s.bump_words _ (offColl_drops ring))
  unfold State.signal
  extract_lets v member pair op ctr dst
  clear_value dst
  split
  · split
    · exact .of_eq rfl rfl
    · exact hdrop
  · cases dst with
    | none => exact hdrop
    | some d =>
      dsimp only
      split
      · exact .ite (.of_eq rfl rfl) (.of_eq rfl rfl)
      · split
        next hp => exact (s.sendPacket_linkOnly _ _ _ _ hp).keepsColl
        next => exact hdrop

theorem State.sigAct_keepsColl (hc : c < 16) (r i seq tick : Nat) (out : Bool) : KeepsColl s (s.sigAct c r i seq tick out) := by
  unfold State.sigAct
  split
  · exact State.raise_keepsColl hc (by decide) _
  · exact .ite (.of_eq rfl rfl) (.ite (State.pushLog_keepsColl hc _) (State.signal_keepsColl _ _ _))

/-! ## Commands that end -/

theorem State.updCmd_keepsColl (f : RCmd → RCmd) : KeepsColl s (s.updCmd c ref f) := (State.updCmd_frontOnly f).keepsColl

theorem State.begin_keepsColl (tile : Option Nat) : KeepsColl s (s.begin_ c ref tile) := by
  cases ref <;> exact .of_eq rfl rfl

theorem State.endCmd_keepsColl (hc : c < 16) : KeepsColl s (s.endCmd c ref) := by
  have hfinish : KeepsColl s (s.updCmd c ref RCmd.finish) := State.updCmd_keepsColl _
  have hsig : KeepsColl s ((s.updCmd c ref RCmd.finish).storedSig c ref) := by
    unfold State.storedSig
    split
    · exact .ite (hfinish.trans (State.sigAct_keepsColl hc _ _ _ _ _)) hfinish
    · exact hfinish
  unfold State.endCmd
  generalize (s.updCmd c ref RCmd.finish).storedSig c ref = v at hsig
  dsimp only
  split
  · refine KeepsColl.trans ?_ (State.endLaunch_frontOnly _ _).keepsColl
    split
    · exact hsig.trans (State.updCmd_keepsColl _)
    · exact hsig
  · exact hsig

/-- The end of a command that is no chain of a work item. -/
theorem State.endWork_keepsColl (hc : c < 16) (hitem : ∀ n i, ref = .item n i → i < 256) : KeepsColl s (s.endWork c ref) := by
  unfold State.endWork
  split
  next n => exact absurd (hitem n 256 rfl) (by decide)
  next n => exact absurd (hitem n 257 rfl) (by decide)
  next n => exact absurd (hitem n 258 rfl) (by decide)
  next n i _ _ _ =>
    have hdone : KeepsColl s (s.updCmd c (.item n i) RCmd.finish) := State.updCmd_keepsColl _
    dsimp only
    split
    · exact .ite (hdone.trans (State.startScatter_frontOnly n).keepsColl) hdone
    · exact hdone
  · exact State.endCmd_keepsColl hc

theorem State.endWork_ended {y : RCmd} (hy : s.cmd c ref = some y) : Ended (s.endWork c ref) c ref := by
  rintro r csn rfl
  rw [State.endWork_ring_cmd hy]
  rfl

end

end Sys2Proof.Machine
end


section
/-!
PROOFS. COLL BIND and UNBIND, and how a COLL in turn dispatches (R346, R347, R351): O43.
-/

namespace Sys2Proof.Machine

section
variable {s t : State} {c g : Nat} {ref : CmdRef} {x : RCmd} {p : Partition}

/-! ## A COLL in turn -/

/-- A COLL in turn of the operation asked for, whose checks pass, acts, or waits and changes nothing. -/
theorem InTurn.collCmd {op : Nat} (hin : InTurn s c ref x p) (hop : x.op = 0x0A) (hkind : fieldAt x.bytes 0x10 1 = op)
    (hcheck : s.collCheck c p x = none) (act : State → RCmd → Option State) : s.collCmd c ref op act = (act s x).getD s := by
  obtain ⟨-, -, hx, hp, hturn, hhead, -⟩ := hin
  have hvalid : validOpc 0x0A = true := by decide
  simp [State.collCmd, State.dispatch, hx, hp, hturn, hop, hkind, hvalid, hhead, hcheck]

/-- A COLL that begins and ends at once with a status. -/
def State.endsWith (s : State) (c : Nat) (ref : CmdRef) (status : Nat) : State :=
  (s.updCmd c ref fun y => { y with status := status }).endWork c ref

theorem InTurn.endsWith {y : RCmd} (hin : InTurn s c ref x p) (status : Nat) (hy : t.cmd c ref = some y) :
    KeepsColl t (t.endsWith c ref status) ∧ Ended (t.endsWith c ref status) c ref := by
  obtain ⟨-, hc, -, -, -, -, hitem⟩ := hin
  refine ⟨(State.updCmd_keepsColl _).trans (State.endWork_keepsColl hc hitem), ?_⟩
  exact State.endWork_ended (State.cmd_updCmd_same (f := fun y => { y with status := status }) (fun _ => rfl) hy)

/-! ## BIND (R347) -/

/-- The group of a descriptor. -/
def groupOf (d : List Byte) : Grp :=
  { n := fieldAt d 0 1, rank := fieldAt d 1 1, ents := (List.range (fieldAt d 0 1)).map fun i => fieldAt d (16 + i) 1, digest := groupDigest d }

/-- Group `g` of tenant `c` as its descriptor has it. -/
def State.putGroup (s : State) (c g : Nat) (d : List Byte) : State :=
  { s with coll := { s.coll with groups := aput s.coll.groups (16 * c + g) (groupOf d) } }

/-- Group `g` bound to a descriptor, with next CSEQ 0. -/
def State.bindGroup (s : State) (c g : Nat) (d : List Byte) : State :=
  ((s.putGroup c g d).setWord (colGrp c g) (BitVec.ofNat 32 (gsBound + (groupOf d).n * 2 ^ 8 + (groupOf d).rank * 2 ^ 16))).setWord
    (colGrp c g + 4) 0

theorem fieldAt_byte_lt (d : List Byte) (o : Nat) : fieldAt d o 1 < 256 := by
  rw [fieldAt]
  cases d.drop o with
  | nil => decide
  | cons b bs => simpa [leNat] using b.isLt

theorem State.bindGroup_spec (d : List Byte) (hw : nwf s.regs = true) :
    (s.bindGroup c g d).grpState c g = gsBound ∧ (s.bindGroup c g d).cseq c g = 0 ∧
      (s.bindGroup c g d).fld (colGrp c g) 8 8 = fieldAt d 0 1 ∧ (s.bindGroup c g d).fld (colGrp c g) 16 8 = fieldAt d 1 1 := by
  have hn := fieldAt_byte_lt d 0
  have hrank := fieldAt_byte_lt d 1
  have hput : nwf (s.putGroup c g d).regs = true := hw
  have hword : ((s.bindGroup c g d).word (colGrp c g)).toNat = 1 + fieldAt d 0 1 * 2 ^ 8 + fieldAt d 1 1 * 2 ^ 16 := by
    rw [State.bindGroup, State.word_setWord_other _ (State.nwf_setWord _ _ hput) (by omega), State.word_setWord_same _ _ hput, BitVec.toNat_ofNat]
    exact Nat.mod_eq_of_lt (by simp only [gsBound, groupOf]; omega)
  refine ⟨?_, ?_, ?_, ?_⟩
  · simp only [State.grpState, State.fld, hword, gsBound]; omega
  · rw [State.cseq, State.bindGroup, State.word_setWord_same _ _ (State.nwf_setWord _ _ hput)]; rfl
  · simp only [State.fld, hword]; omega
  · simp only [State.fld, hword]; omega

theorem exec_collBind_bound (hin : InTurn s c ref x p) (hop : x.op = 0x0A) (hcheck : s.collCheck c p x = none) (hkind : fieldAt x.bytes 0x10 1 = 0)
    (hbound : s.grpState c (collArgs x.bytes).group ≠ gsUnbound) :
    exec (.collBind c ref) s = .next ((s.begin_ c ref none).endsWith c ref 0x30) := by
  obtain ⟨-, -, hx, -⟩ := id hin
  obtain ⟨f, hbegin, -⟩ := State.begin_spec none hx
  have hgrp : (s.begin_ c ref none).grpState c (collArgs x.bytes).group ≠ gsUnbound := by rw [hbegin]; exact hbound
  show Host.Outcome.next (s.collCmd c ref 0 _) = _
  rw [hin.collCmd hop hkind hcheck, if_pos hgrp]
  rfl

theorem exec_collBind_unbound (hin : InTurn s c ref x p) (hop : x.op = 0x0A) (hcheck : s.collCheck c p x = none) (hkind : fieldAt x.bytes 0x10 1 = 0)
    (hunbound : s.grpState c (collArgs x.bytes).group = gsUnbound) {d : List Byte} {bad : Bool} (hd : s.taRead c (collArgs x.bytes).tbl 80 = some (d, bad)) :
    exec (.collBind c ref) s = .next (((s.begin_ c ref none).bindGroup c (collArgs x.bytes).group d).endWork c ref) := by
  obtain ⟨-, -, hx, -⟩ := id hin
  obtain ⟨f, hbegin, -⟩ := State.begin_spec none hx
  have hgrp : ¬(s.begin_ c ref none).grpState c (collArgs x.bytes).group ≠ gsUnbound := by rw [hbegin]; exact not_not_intro hunbound
  have hread : (s.begin_ c ref none).taRead c (collArgs x.bytes).tbl 80 = some (d, bad) := by rw [hbegin]; exact hd
  show Host.Outcome.next (s.collCmd c ref 0 _) = _
  rw [hin.collCmd hop hkind hcheck, if_neg hgrp, hread]
  rfl

/-! ## UNBIND (R347) -/

/-- Group `g` freed. -/
def State.freeGroup (s : State) (c g : Nat) : State :=
  ({ s with coll := { s.coll with groups := adel s.coll.groups (16 * c + g) } } : State).zeroRegs (colGrp c g) (colGrp c g + 8)

theorem State.freeGroup_word {o : Nat} (ho : o < 8) : (s.freeGroup c g).word (colGrp c g + o) = 0 :=
  nget_filter_out fun _ => by simp; omega

theorem State.freeGroup_spec :
    (s.freeGroup c g).grpState c g = gsUnbound ∧ (s.freeGroup c g).cseq c g = 0 ∧ (s.freeGroup c g).grp c g = none := by
  have hstate : (s.freeGroup c g).word (colGrp c g) = 0 := State.freeGroup_word (o := 0) (by decide)
  refine ⟨?_, ?_, aget_adel_same _ _⟩
  · simp [State.grpState, State.fld, hstate, gsUnbound]
  · rw [State.cseq, State.freeGroup_word (by decide)]; rfl

theorem exec_collUnbind_unbound (hin : InTurn s c ref x p) (hop : x.op = 0x0A) (hcheck : s.collCheck c p x = none) (hkind : fieldAt x.bytes 0x10 1 = 1)
    (hgrp : s.grp c (collArgs x.bytes).group = none) :
    exec (.collUnbind c ref) s = .next ((s.begin_ c ref none).endsWith c ref 0x30) := by
  show Host.Outcome.next (s.collCmd c ref 1 _) = _
  rw [hin.collCmd hop hkind hcheck, if_pos hgrp]
  rfl

theorem exec_collUnbind_waits (hin : InTurn s c ref x p) (hop : x.op = 0x0A) (hcheck : s.collCheck c p x = none) (hkind : fieldAt x.bytes 0x10 1 = 1)
    (hgrp : s.grp c (collArgs x.bytes).group ≠ none) (hruns : ∃ r ∈ s.coll.runs, r.tenant = c ∧ r.group = (collArgs x.bytes).group) :
    exec (.collUnbind c ref) s = .next s := by
  have hany : (s.coll.runs.any fun r => r.tenant == c && r.group == (collArgs x.bytes).group) = true := by
    simpa using hruns
  show Host.Outcome.next (s.collCmd c ref 1 _) = _
  rw [hin.collCmd hop hkind hcheck, if_neg hgrp, if_pos hany]
  rfl

theorem exec_collUnbind_frees (hin : InTurn s c ref x p) (hop : x.op = 0x0A) (hcheck : s.collCheck c p x = none) (hkind : fieldAt x.bytes 0x10 1 = 1)
    (hgrp : s.grp c (collArgs x.bytes).group ≠ none) (hruns : ∀ r ∈ s.coll.runs, ¬(r.tenant = c ∧ r.group = (collArgs x.bytes).group)) :
    exec (.collUnbind c ref) s = .next (((s.begin_ c ref none).freeGroup c (collArgs x.bytes).group).endWork c ref) := by
  have hany : ¬(s.coll.runs.any fun r => r.tenant == c && r.group == (collArgs x.bytes).group) = true := by
    simpa using hruns
  show Host.Outcome.next (s.collCmd c ref 1 _) = _
  rw [hin.collCmd hop hkind hcheck, if_neg hgrp, if_neg hany]
  rfl

theorem collArgs_group_lt (b : List Byte) : (collArgs b).group < 16 := Nat.mod_lt _ (by decide)

/-! ## What they complete with -/

theorem completes_collBind_unbound (hin : InTurn s c ref x p) (hop : x.op = 0x0A) (hcheck : s.collCheck c p x = none)
    (hkind : fieldAt x.bytes 0x10 1 = 0) (hunbound : s.grpState c (collArgs x.bytes).group = gsUnbound) {d : List Byte} {bad : Bool}
    (hd : s.taRead c (collArgs x.bytes).tbl 80 = some (d, bad)) (hg : (collArgs x.bytes).group = g) :
    Completes (.collBind c ref) s fun t =>
      t.grpState c g = gsBound ∧ t.cseq c g = 0 ∧ t.fld (colGrp c g) 8 8 = fieldAt d 0 1 ∧ t.fld (colGrp c g) 16 8 = fieldAt d 1 1 ∧
      t.grp c g = some (groupOf d) ∧ (∀ k, k ≠ 16 * c + g → aget t.coll.groups k = aget s.coll.groups k) ∧ t.coll.runs = s.coll.runs ∧
      t.lrd = s.lrd ∧ Ended t c ref := by
  refine ⟨_, exec_collBind_unbound hin hop hcheck hkind hunbound hd, ?_⟩
  rw [hg]
  have hlt : g < 16 := hg ▸ collArgs_group_lt x.bytes
  obtain ⟨htidy, hc, hx, -, -, -, hitem⟩ := hin
  obtain ⟨f, hbegin, hcmd⟩ := State.begin_spec none hx
  rw [hbegin] at hcmd ⊢
  generalize hs' : ({ s with front := f } : State) = s' at hcmd ⊢
  have hregs : nwf s'.regs = true := by rw [← hs']; exact State.tidy_regs htidy
  have hcoll : s'.coll = s.coll := by rw [← hs']
  have hlrd : s'.lrd = s.lrd := by rw [← hs']
  obtain ⟨hstate, hcseq, hn, hrank⟩ := State.bindGroup_spec (s := s') (c := c) (g := g) d hregs
  have hkeeps : KeepsColl (s'.bindGroup c g d) ((s'.bindGroup c g d).endWork c ref) := State.endWork_keepsColl hc hitem
  have hwf : nwf (s'.bindGroup c g d).regs = true := State.nwf_setWord _ _ (State.nwf_setWord _ _ hregs)
  have hfld := hkeeps.words.fld_eq hwf (not_offColl_colGrp (o := 0) hc hlt (by decide))
  refine ⟨?_, ?_, ?_, ?_, ?_, ?_, ?_, ?_, ?_⟩
  · rw [hkeeps.words.grpState hwf hc hlt, hstate]
  · rw [hkeeps.words.cseq hwf hc hlt, hcseq]
  · exact (hfld 8 8).trans hn
  · exact (hfld 16 8).trans hrank
  · rw [hkeeps.grp]
    exact aget_aput_same _ _ _
  · intro k hk
    rw [hkeeps.coll, ← hcoll]
    exact aget_aput_other _ _ hk
  · rw [hkeeps.coll, ← hcoll]
    rfl
  · exact State.endWork_lrd.trans hlrd
  · exact State.endWork_ended hcmd

/-- A COLL that ends at once leaves the collective engines as they are. -/
theorem InTurn.completes_endsWith {i : Instr} {status : Nat} (hin : InTurn s c ref x p)
    (hexec : exec i s = .next ((s.begin_ c ref none).endsWith c ref status)) : Completes i s fun t => t.coll = s.coll ∧ Ended t c ref := by
  obtain ⟨-, -, hx, -⟩ := id hin
  obtain ⟨f, -, hcmd⟩ := State.begin_spec none hx
  obtain ⟨hkeeps, hended⟩ := hin.endsWith status hcmd
  exact ⟨_, hexec, hkeeps.coll.trans (State.begin_keepsColl none).coll, hended⟩

theorem completes_collUnbind_frees (hin : InTurn s c ref x p) (hop : x.op = 0x0A) (hcheck : s.collCheck c p x = none)
    (hkind : fieldAt x.bytes 0x10 1 = 1) (hgrp : s.grp c (collArgs x.bytes).group ≠ none)
    (hruns : ∀ r ∈ s.coll.runs, ¬(r.tenant = c ∧ r.group = (collArgs x.bytes).group)) (hg : (collArgs x.bytes).group = g) :
    Completes (.collUnbind c ref) s fun t =>
      t.grpState c g = gsUnbound ∧ t.cseq c g = 0 ∧ t.grp c g = none ∧ t.coll.runs = s.coll.runs ∧ Ended t c ref := by
  refine ⟨_, exec_collUnbind_frees hin hop hcheck hkind hgrp hruns, ?_⟩
  rw [hg]
  have hlt : g < 16 := hg ▸ collArgs_group_lt x.bytes
  obtain ⟨htidy, hc, hx, -, -, -, hitem⟩ := hin
  obtain ⟨f, -, hcmd⟩ := State.begin_spec none hx
  have hbegin : KeepsColl s (s.begin_ c ref none) := State.begin_keepsColl none
  generalize s.begin_ c ref none = s' at hcmd hbegin ⊢
  have hregs : nwf s'.regs = true := hbegin.words.wf (State.tidy_regs htidy)
  obtain ⟨hstate, hcseq, hnone⟩ := State.freeGroup_spec (s := s') (c := c) (g := g)
  have hkeeps : KeepsColl (s'.freeGroup c g) ((s'.freeGroup c g).endWork c ref) := State.endWork_keepsColl hc hitem
  have hwf : nwf (s'.freeGroup c g).regs = true := nwf_zeroRange _ _ hregs
  refine ⟨?_, ?_, ?_, ?_, ?_⟩
  · rw [hkeeps.words.grpState hwf hc hlt, hstate]
  · rw [hkeeps.words.cseq hwf hc hlt, hcseq]
  · rw [hkeeps.grp, hnone]
  · rw [hkeeps.coll, ← hbegin.coll]
    rfl
  · exact State.endWork_ended hcmd

end

/-- Settles O43: a COLL in turn whose checks pass acts on the state in which it has begun; binding and freeing write the group's own
entry and words, and the end of the command changes neither collectives nor their registers. -/
theorem groupsBindAndUnbind : Obligations.GroupsBindAndUnbind := by
  intro s c ref x p hin hop hcheck
  exact ⟨fun hkind hunbound d bad hd => completes_collBind_unbound hin hop hcheck hkind hunbound hd rfl,
    fun hkind hbound => hin.completes_endsWith (exec_collBind_bound hin hop hcheck hkind hbound),
    fun hkind hgrp hruns => completes_collUnbind_frees hin hop hcheck hkind hgrp hruns rfl,
    fun hkind hgrp hruns => ⟨s, exec_collUnbind_waits hin hop hcheck hkind hgrp hruns, rfl⟩,
    fun hkind hgrp => hin.completes_endsWith (exec_collUnbind_unbound hin hop hcheck hkind hgrp)⟩

end Sys2Proof.Machine
end


section
/-!
PROOFS. A collective that goes on: what its steps, exchanges and landings keep of it and of the others (R358 to R363).
-/

namespace Sys2Proof.Machine

/-! ## What a collective keeps while it goes on -/

/-- From `k` to `k'` a collective goes on: its segments' progress, its data and its notes change, its operands, ranks and tokens stay. -/
structure Coll.GoesOn (k k' : Coll) : Prop where
  frame : k' = { k with segs := k'.segs, parts := k'.parts, heads := k'.heads, excess := k'.excess, noted := k'.noted }
  segs : k'.segs.length = k.segs.length

/-- From `s` to `t` the collectives in flight stay, and so do the tokens held and the registers of tenants and groups. -/
structure KeepsRuns (s t : State) : Prop where
  runs : t.coll.runs = s.coll.runs
  toks : t.coll.toks = s.coll.toks
  words : WordsOnly OffColl s t

/-- From `s` to `t` collective `q` of a group goes on, as many are in flight as before, and the tokens held and the registers of tenants
and groups stay. -/
structure RunGoesOn (c g q : Nat) (s t : State) : Prop where
  run : ∀ k, s.run c g q = some k → ∃ k', t.run c g q = some k' ∧ k.GoesOn k'
  length : t.coll.runs.length = s.coll.runs.length
  toks : t.coll.toks = s.coll.toks
  words : WordsOnly OffColl s t

section
variable {s t u : State} {k k' k'' : Coll} {c g q : Nat}

theorem Coll.GoesOn.refl (k : Coll) : k.GoesOn k := ⟨rfl, rfl⟩

theorem Coll.GoesOn.trans (h : k.GoesOn k') (i : k'.GoesOn k'') : k.GoesOn k'' where
  frame := by
    have hf := h.frame
    have jf := i.frame
    rw [jf, hf]
  segs := i.segs.trans h.segs

theorem Coll.GoesOn.is (h : k.GoesOn k') : k'.is c g q = k.is c g q := by rw [h.frame]; rfl

theorem Coll.GoesOn.tenant (h : k.GoesOn k') : k'.tenant = k.tenant := (congrArg Coll.tenant h.frame :)

theorem Coll.is_iff : k.is c g q = true ↔ k.tenant = c ∧ k.group = g ∧ k.cseq = q := by
  simp [Coll.is, and_assoc]

theorem KeepsColl.keepsRuns (h : KeepsColl s t) : KeepsRuns s t := ⟨congrArg Collectives.runs h.coll, congrArg Collectives.toks h.coll, h.words⟩

theorem KeepsRuns.refl (s : State) : KeepsRuns s s := (KeepsColl.refl s).keepsRuns

theorem KeepsRuns.trans (h : KeepsRuns s t) (i : KeepsRuns t u) : KeepsRuns s u := ⟨i.runs.trans h.runs, i.toks.trans h.toks, h.words.trans i.words⟩

theorem KeepsRuns.ite {p : Prop} [Decidable p] (ht : KeepsRuns s t) (hu : KeepsRuns s u) : KeepsRuns s (if p then t else u) := ite_of_both ht hu

theorem KeepsRuns.run (h : KeepsRuns s t) : t.run c g q = s.run c g q := by rw [State.run, State.run, h.runs]

theorem KeepsRuns.runGoesOn (h : KeepsRuns s t) : RunGoesOn c g q s t where
  run k hk := ⟨k, h.run.trans hk, .refl k⟩
  length := congrArg List.length h.runs
  toks := h.toks
  words := h.words

theorem RunGoesOn.refl (s : State) : RunGoesOn c g q s s := (KeepsRuns.refl s).runGoesOn

theorem RunGoesOn.trans (h : RunGoesOn c g q s t) (i : RunGoesOn c g q t u) : RunGoesOn c g q s u where
  run k hk := by
    obtain ⟨k', hk', hkk'⟩ := h.run k hk
    obtain ⟨k'', hk'', hk'k''⟩ := i.run k' hk'
    exact ⟨k'', hk'', hkk'.trans hk'k''⟩
  length := i.length.trans h.length
  toks := i.toks.trans h.toks
  words := h.words.trans i.words

theorem State.is_of_run (h : s.run c g q = some k) : k.is c g q = true :=
  List.find?_some (p := fun x : Coll => x.is c g q) h

/-- A collective that stands in for itself after it went on. -/
theorem State.run_putRun (h : s.run c g q = some k) (hk : k.GoesOn k') : (s.putRun k').run c g q = some k' := by
  have his : k'.is c g q = true := hk.is.trans (State.is_of_run h)
  obtain ⟨rfl, rfl, rfl⟩ := Coll.is_iff.mp his
  rw [State.run] at h
  rw [State.run, State.putRun]
  dsimp only
  generalize s.coll.runs = l at h
  induction l with
  | nil => simp at h
  | cons y l ih =>
    cases hy : y.is k'.tenant k'.group k'.cseq with
    | true => simp [hy, his]
    | false => simpa [hy] using ih (by simpa [hy] using h)

theorem State.putRun_runGoesOn (h : s.run c g q = some k) (hk : k.GoesOn k') : RunGoesOn c g q s (s.putRun k') where
  run y hy := by
    obtain rfl := Option.some.inj (h.symm.trans hy)
    exact ⟨k', State.run_putRun h hk, hk⟩
  length := List.length_map _
  toks := rfl
  words := .of_regs_eq rfl

/-- After the work of a collective on its way, it goes on as that work left it. -/
theorem KeepsRuns.putRun (hs : KeepsRuns s t) (h : s.run c g q = some k) (hk : k.GoesOn k') : RunGoesOn c g q s (t.putRun k') :=
  hs.runGoesOn.trans (State.putRun_runGoesOn (hs.run.trans h) hk)

/-! ## Buffers, poison and slots (R356, R359, R366) -/

theorem State.updTile_keepsColl (n : Nat) (f : Tile → Tile) : KeepsColl s (s.updTile n f) := .of_eq rfl rfl

theorem State.poolMirror_linkOnly (a : Nat) (bs : List Byte) (bad : Bool) : LinkOnly s (s.poolMirror c a bs bad) := by
  unfold State.poolMirror
  split
  · exact .ite (s.sendTwin_linkOnly _ _) (.refl s)
  · exact .refl s

theorem State.cmdWrite_keepsColl (ref : CmdRef) (a bad cnt : Nat) (bs : List Byte) : KeepsColl s (s.cmdWrite c ref a bs bad cnt) :=
  .ite (.of_eq rfl rfl) (.refl s)

theorem State.collPut_keepsColl (ref : CmdRef) (addr : Nat) (spm : Bool) (off w : Nat) (es : List CElem) :
    KeepsColl s (s.collPut c ref addr spm off w es) := by
  unfold State.collPut
  extract_lets bytes o line
  have hline (u : State) (a n : Nat) : KeepsColl u (line u a n) :=
    .ite (u.updTile_keepsColl _ _) ((State.taWrite_larderFrame _ _ _).keepsColl.trans (State.poolMirror_linkOnly _ _ _).keepsColl)
  clear_value line
  refine .foldl (fun u b _ => ?_) s
  obtain ⟨a, n⟩ := b
  dsimp -zeta only
  extract_lets cuts v bits
  have hv : KeepsColl u v := .foldl (fun u b _ => hline u b.1 b.2) u
  exact .ite hv (hv.trans (State.cmdWrite_keepsColl _ _ _ _ _))

theorem State.noteWork_keepsColl (ref : CmdRef) (code : Nat) : KeepsColl s (s.noteWork c ref code) := by
  unfold State.noteWork
  split
  · exact .ite (.of_eq rfl rfl) (State.updCmd_keepsColl _)
  · exact State.updCmd_keepsColl _

/-- What recording a collective's poison leaves. -/
theorem State.collPoison_spec (bad : Bool) (hk : k.tenant < 16) : KeepsColl s (s.collPoison k bad).1 ∧ k.GoesOn (s.collPoison k bad).2 := by
  have hraise : KeepsColl s (s.raiseCmd k.tenant k.ref 0xB3 {}) := State.raise_keepsColl hk (by omega) _
  exact ite_of_both (Q := fun e : State × Coll => KeepsColl s e.1 ∧ k.GoesOn e.2) ⟨hraise.trans (State.noteWork_keepsColl _ _), rfl, rfl⟩
    ⟨.refl s, .refl k⟩

theorem State.showPool_keepsColl : KeepsColl s s.showPool := by
  refine .foldl (fun u d hd => (u.setFld_reports _ _ _ _).keepsColl (u.setFld_words _ _ _ (.inl ?_))) s
  have := List.mem_range.mp hd
  simp only [colPool]
  omega

theorem State.releaseSlots_keepsRuns (sg : CSeg) : KeepsRuns s (s.releaseSlots sg) := by
  unfold State.releaseSlots
  split
  next a b _ =>
    have hfree (l : List Nat) : KeepsRuns s { s with coll := { s.coll with slots := l } } := ⟨rfl, rfl, .of_regs_eq rfl⟩
    exact (hfree _).trans State.showPool_keepsColl.keepsRuns
  · exact .refl s

theorem State.tallyTenant_keepsColl (a b d : Nat) : KeepsColl s (s.tallyTenant c a b d) := by
  have hadd (u : State) {o : Nat} (ho : 0xA02000 ≤ o) (n : Nat) : KeepsColl u (u.addQuad o n) :=
    ⟨rfl, u.addQuad_words n (.inr (.inl (by omega))) (.inr (.inl (by omega)))⟩
  exact ((hadd s (by omega) a).trans (hadd _ (by omega) b)).trans (hadd _ (by omega) d)

theorem State.collDeliver_keepsColl (n phase : Nat) (idx : List Nat) (es : List CElem) : KeepsColl s (s.collDeliver k n phase idx es) := by
  unfold State.collDeliver
  extract_lets w u nan good
  have hu : KeepsColl s u :=
    foldl_inv (Q := fun e : State × List CElem => KeepsColl s e.1) (fun e b he => he.trans (State.collPut_keepsColl _ _ _ _ _ _)) (.refl s)
  clear_value u
  refine .ite hu ?_
  split
  exact (KeepsColl.ite hu (hu.trans (State.tallyTenant_keepsColl _ _ _))).trans (State.updCmd_keepsColl _)

/-! ## Messages (R352) -/

theorem State.sendCtl_keepsColl (dst : Nat) (m : Ctl) : KeepsColl s (s.sendCtl dst m) := (State.sendPacket_getD_linkOnly _ _ _ _).keepsColl

theorem State.collPacket_keepsColl (j : Nat) (payload : List Byte) (m : CollMsg) : KeepsColl s (s.collPacket k j payload m) :=
  (State.sendPacket_getD_linkOnly _ _ _ _).keepsColl

theorem State.collSend_keepsColl (j n phase : Nat) (idx : List Nat) (es : List CElem) : KeepsColl s (s.collSend k j n phase idx es) := by
  unfold State.collSend
  exact foldl_inv (Q := fun e : State × List CElem => KeepsColl s e.1)
    (fun e b he => he.trans (.foldl (fun u q _ => State.collPacket_keepsColl _ _ _) _)) (.refl s)

theorem State.collTokens_keepsColl (seg landing : Nat) : KeepsColl s (s.collTokens k seg landing) :=
  .foldl (fun _ _ _ => State.sendCtl_keepsColl _ _) s

end

section
variable {s t : State} {k : Coll} {sg : CSeg} {x : CStep} {c g q : Nat}

/-! ## Steps, exchanges and landings (R358 to R363) -/

/-- What a step of a collective's segment, or its exchange, leaves. -/
def StepKeeps (s : State) (k : Coll) (e : State × Coll × CSeg) : Prop := KeepsRuns s e.1 ∧ k.GoesOn e.2.1

theorem State.collStep_spec (hk : k.tenant < 16) : ∀ e, s.collStep k sg x = some e → StepKeeps s k e := by
  unfold State.collStep
  split
  · rintro _ ⟨rfl⟩
    exact ⟨(State.collDeliver_keepsColl _ _ _ _).keepsRuns.trans (State.releaseSlots_keepsRuns _), .refl k⟩
  split
  · split
    next u sg1 hsend =>
    have hu : KeepsRuns s u := by
      split at hsend <;> obtain ⟨rfl, -⟩ := Prod.mk.inj hsend
      · exact (State.sendCtl_keepsColl _ _).keepsRuns
      · exact .refl _
    split
    · intro e he
      obtain ⟨he, -⟩ := Option.filter_eq_some_iff.mp he
      obtain rfl := Option.some.inj he
      exact ⟨hu, .refl k⟩
    · rintro _ ⟨rfl⟩
      exact ⟨hu, .refl k⟩
  split
  · exact fun _ h => nomatch h
  split
  next u k1 sg1 hsend =>
  have hsent : KeepsRuns s u ∧ k.GoesOn k1 := by
    split at hsend
    · extract_lets idx es v at hsend
      have hv : KeepsRuns s v := (State.collSend_keepsColl _ _ _ _ _).keepsRuns
      have hpoison := State.collPoison_spec (s := v) (es.any (·.bad)) hk
      generalize v.collPoison k (es.any (·.bad)) = e at hsend hpoison
      obtain ⟨v', k'⟩ := e
      obtain ⟨rfl, rfl, -⟩ := hsend
      exact ⟨hv.trans hpoison.1.keepsRuns, hpoison.2⟩
    · obtain ⟨rfl, rfl, -⟩ := hsend
      exact ⟨.refl _, .refl _⟩
  clear hsend
  obtain ⟨hu, hk1⟩ := hsent
  split
  · rintro _ ⟨rfl⟩
    exact ⟨hu.trans (.ite (State.releaseSlots_keepsRuns _) (.refl u)), hk1⟩
  extract_lets idx k2 own
  split
  · rintro _ ⟨rfl⟩
    exact ⟨hu, hk1⟩
  next es _ =>
  have hk2 : k.GoesOn k2 := hk1.trans ⟨rfl, rfl⟩
  have hpoison := State.collPoison_spec (s := u) (es.any (·.bad)) (hk2.tenant ▸ hk)
  generalize u.collPoison k2 (es.any (·.bad)) = e at hpoison
  obtain ⟨v, k3⟩ := e
  dsimp -zeta only
  have hv : KeepsRuns s v := hu.trans hpoison.1.keepsRuns
  split
  · rintro _ ⟨rfl⟩
    exact ⟨hv, hk2.trans hpoison.2⟩
  · rintro _ ⟨rfl⟩
    exact ⟨hv.trans (State.collDeliver_keepsColl _ _ _ _).keepsRuns, hk2.trans hpoison.2⟩

theorem StepKeeps.trans {e f : State × Coll × CSeg} (h : StepKeeps s k e) (i : StepKeeps e.1 e.2.1 f) : StepKeeps s k f :=
  ⟨h.1.trans i.1, h.2.trans i.2⟩

theorem State.collAdvance_spec (hk : k.tenant < 16) (fuel : Nat) : StepKeeps s k (s.collAdvance k sg fuel) := by
  induction fuel generalizing s k sg with
  | zero => exact ⟨.refl s, .refl k⟩
  | succ fuel ih =>
    unfold State.collAdvance
    split
    · exact ⟨.refl s, .refl k⟩
    · split
      · exact ⟨.refl s, .refl k⟩
      next u k1 sg1 hstep =>
        have h := State.collStep_spec hk _ hstep
        have hk1 : k1.tenant < 16 := h.2.tenant ▸ hk
        exact ite_of_both (Q := StepKeeps s k) h (h.trans (ih hk1))

theorem State.exchange_spec (hk : k.tenant < 16) : StepKeeps s k (s.exchange k sg) := by
  unfold State.exchange
  refine foldl_inv (Q := StepKeeps s k) (fun e j he => ?_) ⟨.refl s, .refl k⟩
  obtain ⟨u, k1, sg1⟩ := e
  dsimp -zeta only
  have hk1 : k1.tenant < 16 := he.2.tenant ▸ hk
  extract_lets tok
  clear_value tok
  cases tok with
  | none => exact he
  | some token =>
    dsimp -zeta only
    extract_lets n es excess k2 sg2 v
    obtain ⟨hv, hk2⟩ := State.collPoison_spec (s := u) (es.any (·.bad)) hk1
    have hkept : KeepsRuns s (u.collPoison k1 (es.any (·.bad))).1 := he.1.trans hv.keepsRuns
    have hon : k.GoesOn k2 := (he.2.trans hk2).trans ⟨rfl, rfl⟩
    refine ite_of_both (Q := StepKeeps s k) ?_ ?_
    · exact ⟨hkept.trans (State.collPut_keepsColl _ _ _ _ _ _).keepsRuns, hon.trans ⟨rfl, rfl⟩⟩
    · exact ⟨hkept.trans ((State.collPacket_keepsColl _ _ _).trans (State.collSend_keepsColl _ _ _ _ _)).keepsRuns, hon⟩

theorem State.landPieces_spec (hk : k.tenant < 16) : KeepsRuns s (s.landPieces k).1 ∧ k.GoesOn (s.landPieces k).2 := by
  unfold State.landPieces
  refine foldl_inv (Q := fun e : State × Coll => KeepsRuns s e.1 ∧ k.GoesOn e.2) (fun e p he => ?_) ⟨.refl s, .refl k⟩
  obtain ⟨u, k1⟩ := e
  obtain ⟨hu, hk1⟩ := he
  dsimp -zeta only
  refine ite_of_both (Q := fun e : State × Coll => KeepsRuns s e.1 ∧ k.GoesOn e.2) ⟨hu, hk1⟩ ?_
  have hpoison := State.collPoison_spec (s := u) (p.elems.any (·.bad)) (hk1.tenant ▸ hk)
  generalize u.collPoison k1 (p.elems.any (·.bad)) = e at hpoison
  obtain ⟨v, k2⟩ := e
  exact ⟨hu.trans (hpoison.1.trans (State.collPut_keepsColl _ _ _ _ _ _)).keepsRuns, (hk1.trans hpoison.2).trans ⟨rfl, rfl⟩⟩

/-- A collective goes on as far as its tokens and data allow. -/
theorem State.runColl_goesOn (hc : c < 16) : RunGoesOn c g q s (s.runColl c g q) := by
  unfold State.runColl
  split
  · exact .refl s
  next k hrun =>
  have htenant {k : Coll} {u : State} (h : u.run c g q = some k) : k.tenant < 16 := (Coll.is_iff.mp (State.is_of_run h)).1 ▸ hc
  split
  · have hland := State.landPieces_spec (s := s) (htenant hrun)
    generalize s.landPieces k = e at hland
    obtain ⟨u, k1⟩ := e
    obtain ⟨hu, hk1⟩ := hland
    dsimp -zeta only
    split
    next sg hsegs =>
      obtain ⟨hv, hk2⟩ := State.exchange_spec (s := u) (k := k1) (sg := sg) (hk1.tenant ▸ htenant hrun)
      generalize u.exchange k1 sg = e at hv hk2
      obtain ⟨v, k2, sg'⟩ := e
      have hone : k2.segs.length = 1 := hk2.segs.trans (congrArg List.length hsegs)
      exact (hu.trans hv).putRun hrun ((hk1.trans hk2).trans ⟨rfl, hone.symm⟩)
    · exact hu.putRun hrun hk1
  · refine foldl_inv (Q := RunGoesOn c g q s) (fun u sg0 hu => ?_) (.refl s)
    dsimp only
    split
    · exact hu
    next k1 hrun1 =>
    split
    · exact hu
    next sg _ =>
    obtain ⟨hv, hk2⟩ := State.collAdvance_spec (s := u) (k := k1) (sg := sg) (htenant hrun1) 64
    exact hu.trans (hv.putRun hrun1 (hk2.trans ⟨rfl, List.length_map _⟩))

end

end Sys2Proof.Machine
end


section
/-!
PROOFS. Collectives begin (R348, R349, R351, R366): O44.
-/

namespace Sys2Proof.Machine

/-! ## The modules that a group's entries name (R348) -/

section
variable {s t : State} {c g q : Nat} {ref : CmdRef} {x : RCmd} {p : Partition}

/-- Whether a module can be reached hangs on the Catalogue, the links and the states of ports and attachments. -/
theorem State.reachable_congr (hboot : t.boot = s.boot) (hlnk : t.lnk = s.lnk) (hword : ∀ a, a < 0x600000 → t.word a = s.word a) (dst : Nat) :
    t.reachable dst = s.reachable dst := by
  have hpaths : t.paths dst = s.paths dst := by
    have hatt (k : Nat) : t.attRec k = s.attRec k := by simp only [State.attRec, State.cat, hboot]
    have hring (r : Nat) : t.ringMembers r = s.ringMembers r := by simp only [State.ringMembers, State.cat, hboot]
    have hup {k : Nat} (hk : k < 8) : t.attUp k = s.attUp k := by simp only [State.attUp, State.fld, hword (0x501000 + 0x10 * k) (by omega)]
    have hport {k : Nat} (hk : k < 8) (down : Bool) :
        t.portState (if down = true then 2 * k + 1 else 2 * k) = s.portState (if down = true then 2 * k + 1 else 2 * k) := by
      have hn : (if down = true then 2 * k + 1 else 2 * k) < 16 := by split <;> omega
      rw [State.portState, State.portState, State.fld, State.fld, hword _ (by simp only [portReg]; omega)]
    refine List.flatMap_congr fun k hk => ?_
    have hk := List.mem_range.mp hk
    simp only [hatt, hring, hlnk, hup hk, hport hk]
  rw [State.reachable, State.reachable, hpaths, State.moduleId, State.moduleId, State.cat, State.cat, hboot]

theorem State.resolveEntry_congr (hboot : t.boot = s.boot) (hlnk : t.lnk = s.lnk) (hword : ∀ a, a < 0x600000 → t.word a = s.word a)
    (hc : c < 16) (e : Nat) : t.resolveEntry c e = s.resolveEntry c e := by
  have hreach := State.reachable_congr hboot hlnk hword
  have hserve : t.quad 0x502100 = s.quad 0x502100 := by rw [State.quad, State.quad, hword _ (by decide), hword _ (by decide)]
  have hmode : t.comparing c = s.comparing c := by
    simp only [State.comparing, State.mode, State.fld, hword (tnt c 0x8) (by simp only [tnt]; omega)]
  have hid : t.moduleId = s.moduleId := by rw [State.moduleId, State.moduleId, State.cat, State.cat, hboot]
  have hresolve (pair m : Nat) : t.resolve pair m = s.resolve pair m := by simp only [State.resolve, hreach, hserve]
  simp only [State.resolveEntry, hresolve, hmode, hid]

/-! ## The group's CSEQ (R351) -/

/-- From `s` to `u` the CSEQ of group `g` advances; the front end may change, and else no register below the collective engines' block. -/
structure Counted (s : State) (c g : Nat) (u : State) : Prop where
  coll : u.coll = s.coll
  boot : u.boot = s.boot
  lnk : u.lnk = s.lnk
  low : ∀ a, a < 0x600000 → u.word a = s.word a
  cseq : u.cseq c g = (s.cseq c g + 1) % 2 ^ 32
  grpState : u.grpState c g = s.grpState c g
  wf : nwf u.regs = true

/-- A COLL that has begun and taken its group's CSEQ. -/
def State.takesCseq (s : State) (c : Nat) (ref : CmdRef) (g : Nat) : State :=
  (s.begin_ c ref none).setWord (colGrp c g + 4) (BitVec.ofNat 32 (s.cseq c g + 1))

theorem State.takesCseq_counted (hw : nwf s.regs = true) (hx : s.cmd c ref = some x) (g : Nat) : Counted s c g (s.takesCseq c ref g) := by
  obtain ⟨f, hbegin, -⟩ := State.begin_spec none hx
  have hw' : nwf ({ s with front := f } : State).regs = true := hw
  rw [State.takesCseq, hbegin]
  refine ⟨rfl, rfl, rfl, fun a ha => ?_, ?_, ?_, State.nwf_setWord _ _ hw'⟩
  · exact State.word_setWord_other _ hw' (by simp only [colGrp]; omega)
  · rw [State.cseq, State.word_setWord_same _ _ hw', BitVec.toNat_ofNat]
  · rw [State.grpState, State.fld, State.word_setWord_other _ hw' (by omega)]
    rfl

theorem State.takesCseq_cmd (hx : s.cmd c ref = some x) (g : Nat) : ∃ y, (s.takesCseq c ref g).cmd c ref = some y := by
  obtain ⟨f, -, hcmd⟩ := State.begin_spec none hx
  exact ⟨_, hcmd⟩

theorem Counted.frontOnly {u v : State} (h : Counted s c g u) (hf : FrontOnly u v) : Counted s c g v := by
  rw [FrontOnly] at hf
  rw [hf]
  exact ⟨h.coll, h.boot, h.lnk, h.low, h.cseq, h.grpState, h.wf⟩

theorem Counted.part {u : State} (h : Counted s c g u) : u.part c = s.part c := by rw [State.part, State.part, State.cat, State.cat, h.boot]

/-! ## A collective joins those in flight (R366) -/

/-- Collective `k` of tenant `c` joins those in flight, and COL_TNT shows their number. -/
def State.join (s : State) (c : Nat) (k : Coll) : State :=
  let s : State := { s with coll := { s.coll with runs := s.coll.runs ++ [k] } }
  s.setFld (colTnt c 0x14) 0 4 (s.flying c).length

theorem State.join_spec {k : Coll} (hw : nwf s.regs = true) (hk : k.is c g q = true) (hrun : s.run c g q = none)
    (hfew : (s.flying c).length < 8) :
    (s.join c k).run c g q = some k ∧ (s.join c k).fld (colTnt c 0x14) 0 4 = (s.flying c).length + 1 ∧
      (s.join c k).coll.runs.length = s.coll.runs.length + 1 ∧ (s.join c k).coll.toks = s.coll.toks ∧
      nwf (s.join c k).regs = true ∧ ∀ a, a ≠ colTnt c 0x14 → (s.join c k).word a = s.word a := by
  have htenant : (k.tenant == c) = true := beq_iff_eq.mpr (Coll.is_iff.mp hk).1
  let u : State := { s with coll := { s.coll with runs := s.coll.runs ++ [k] } }
  have hwu : nwf u.regs = true := hw
  have hflying : (u.flying c).length = (s.flying c).length + 1 := by simp [u, State.flying, htenant]
  refine ⟨?_, ?_, List.length_append, rfl, State.nwf_setFld _ _ _ _ hwu, fun a ha => State.word_setFld_other _ _ _ hwu ha⟩
  · have hnone : s.coll.runs.find? (·.is c g q) = none := hrun
    show (s.coll.runs ++ [k]).find? (·.is c g q) = some k
    simp [List.find?_append, hnone, hk]
  · refine (State.fld_setFld_same _ _ _ _ hwu (by decide)).trans ?_
    rw [hflying]
    exact Nat.mod_eq_of_lt (by omega)

/-- What the collective that a COLL begins takes from its command and its group (R348, R349). -/
def BegunBy (s : State) (c : Nat) (ref : CmdRef) (x : RCmd) (gr : Grp) (k : Coll) : Prop :=
  k.op = (collArgs x.bytes).op ∧ k.red = (collArgs x.bytes).red ∧ k.fin = (collArgs x.bytes).fin ∧ k.fout = (collArgs x.bytes).fout ∧
  k.count = (collArgs x.bytes).count ∧ k.src = (collArgs x.bytes).src ∧ k.dst = (collArgs x.bytes).dst ∧ k.ref = ref ∧ k.n = gr.n ∧
  k.rank = gr.rank ∧ k.digest = gr.digest ∧ ((collArgs x.bytes).op ≤ 3 → k.segs = [] ∧ k.next = 0) ∧
  k.mods = gr.ents.zipIdx.map (fun (e, j) => if j = gr.rank then s.moduleId else (s.resolveEntry c e).getD s.moduleId)

theorem BegunBy.goesOn {gr : Grp} {k k' : Coll} (h : BegunBy s c ref x gr k) (hk : k.GoesOn k') : BegunBy s c ref x gr k' := by
  obtain ⟨hop, hred, hfin, hfout, hcount, hsrc, hdst, href, hn, hrank, hdigest, hsegs, hmods⟩ := h
  have hfresh (hle : (collArgs x.bytes).op ≤ 3) : k'.segs = [] := by
    have hlen := hk.segs
    rw [(hsegs hle).1] at hlen
    exact List.eq_nil_of_length_eq_zero hlen
  rw [hk.frame]
  exact ⟨hop, hred, hfin, hfout, hcount, hsrc, hdst, href, hn, hrank, hdigest, fun hle => ⟨hfresh hle, (hsegs hle).2⟩, hmods⟩

/-! ## A collective sets off -/

/-- The own piece of ALLGATHER `k`, which has gone on as `k1`, goes to its place. -/
def State.ownPiece (s : State) (k k1 : Coll) : State :=
  let own := (List.range (k1.len 0)).map fun i => s.collGet k.tenant k.src k.srcSpm (16 * i) 16
  let (s, k2) := s.collPoison k1 (own.any (·.bad))
  (s.putRun k2).collPut k.tenant k2.ref k.dst k.dstSpm (k.rank * k.count) 16 own

/-- The tokens held for a collective join those of its own. -/
def State.takesHeld (s : State) (k : Coll) : State :=
  let held := s.coll.toks.filter fun y => y.tenant == k.tenant && y.group == k.group && y.cseq == k.cseq
  let s : State := { s with coll := { s.coll with toks := s.coll.toks.filter fun y => !held.contains y } }
  held.foldl (fun s y => match s.run k.tenant k.group k.cseq with
    | some c => s.takeToken c y
    | none => s) s

/-- A collective in flight sets off: it reads its table of sizes, puts its own piece, sends its tokens, takes those held for it and goes on
as far as it can. -/
def State.setsOff (s : State) (k : Coll) : State :=
  let (s, k1) := if k.op = 6 then s.collPoison k (((s.taRead k.tenant k.tbl 1024).map (·.2)).getD false) else (s, k)
  let s := s.putRun k1
  let s := if k.op = 4 && decide (k.rank < k1.p) then s.ownPiece k k1 else s
  let s := if k.reduces || k.op == 7 then s else s.collTokens k1 0 0
  (s.takesHeld k).runColl k.tenant k.group k.cseq

theorem State.ownPiece_runGoesOn {k1 : Coll} (k : Coll) (hc : c < 16) (hrun : s.run c g q = some k1) : RunGoesOn c g q s (s.ownPiece k k1) := by
  have htenant : k1.tenant < 16 := (Coll.is_iff.mp (State.is_of_run hrun)).1 ▸ hc
  unfold State.ownPiece
  extract_lets own
  have hpoison := State.collPoison_spec (s := s) (own.any (·.bad)) htenant
  generalize s.collPoison k1 (own.any (·.bad)) = e at hpoison
  obtain ⟨v, k2⟩ := e
  obtain ⟨hv, hk2⟩ := hpoison
  exact (hv.keepsRuns.putRun hrun hk2).trans (State.collPut_keepsColl _ _ _ _ _ _).keepsRuns.runGoesOn

/-- Where no token is held for the collective, none joins it. -/
theorem State.takesHeld_of_none {k : Coll} (htoks : ∀ y ∈ s.coll.toks, ¬(y.tenant = k.tenant ∧ y.group = k.group ∧ y.cseq = k.cseq)) :
    s.takesHeld k = s := by
  have hheld : (s.coll.toks.filter fun y => y.tenant == k.tenant && y.group == k.group && y.cseq == k.cseq) = [] := by
    refine List.filter_eq_nil_iff.mpr fun y hy his => htoks y hy ?_
    simpa [and_assoc] using his
  simp [State.takesHeld, hheld]

theorem State.setsOff_runGoesOn {k : Coll} (hc : c < 16) (hrun : s.run c g q = some k)
    (htoks : ∀ y ∈ s.coll.toks, ¬(y.tenant = c ∧ y.group = g ∧ y.cseq = q)) : RunGoesOn c g q s (s.setsOff k) := by
  obtain ⟨rfl, rfl, rfl⟩ := Coll.is_iff.mp (State.is_of_run hrun)
  have hpoison : KeepsColl s (if k.op = 6 then s.collPoison k (((s.taRead k.tenant k.tbl 1024).map (·.2)).getD false) else (s, k)).1 ∧
      k.GoesOn (if k.op = 6 then s.collPoison k (((s.taRead k.tenant k.tbl 1024).map (·.2)).getD false) else (s, k)).2 :=
    ite_of_both (Q := fun e : State × Coll => KeepsColl s e.1 ∧ k.GoesOn e.2) (State.collPoison_spec _ hc) ⟨.refl s, .refl k⟩
  unfold State.setsOff
  generalize (if k.op = 6 then s.collPoison k (((s.taRead k.tenant k.tbl 1024).map (·.2)).getD false) else (s, k)) = e at hpoison
  obtain ⟨v, k1⟩ := e
  obtain ⟨hv, hk1⟩ := hpoison
  dsimp -zeta -zetaHave only
  extract_lets +onlyGivenNames s1 s2 s3
  have h1 : RunGoesOn k.tenant k.group k.cseq s s1 := hv.keepsRuns.putRun hrun hk1
  have hrun1 : s1.run k.tenant k.group k.cseq = some k1 := State.run_putRun (hv.keepsRuns.run.trans hrun) hk1
  have h2 : RunGoesOn k.tenant k.group k.cseq s s2 := ite_of_both (h1.trans (State.ownPiece_runGoesOn k hc hrun1)) h1
  have h3 : RunGoesOn k.tenant k.group k.cseq s s3 := ite_of_both h2 (h2.trans (State.collTokens_keepsColl _ _).keepsRuns.runGoesOn)
  rw [State.takesHeld_of_none (h3.toks.symm ▸ htoks)]
  exact h3.trans (State.runColl_goesOn hc)

/-! ## COLL on a group (R349, R351) -/

/-- What a rank of the group stands for: the module that carries the collective's data for it, where one can be reached. -/
def State.groupMods (s : State) (c : Nat) (gr : Grp) : List (Option Nat) :=
  gr.ents.zipIdx.map fun (e, j) => if j = gr.rank then some s.moduleId else s.resolveEntry c e

/-- The collective that a COLL begins as number `q` of its group (R348, R351). -/
def State.newColl (s : State) (c : Nat) (ref : CmdRef) (a : CollArgs) (gr : Grp) (q : Nat) : Coll :=
  { tenant := c, group := a.group, cseq := q, ref := ref, op := a.op, red := a.red, prio := a.prio, fin := a.fin, fout := a.fout,
    count := a.count, src := a.src, srcSpm := a.srcSpm, dst := a.dst, dstSpm := a.dstSpm, tbl := a.tbl,
    idx := ((List.range 8).find? fun i => !((s.flying c).any (·.idx == i))).getD 0, n := gr.n, rank := gr.rank,
    mods := (s.groupMods c gr).map (·.getD s.moduleId), digest := gr.digest, table := if a.op = 6 then s.sizeTable c a.tbl else [],
    segs := if a.op == 2 || a.op == 3 then [] else [{ t := 0, pos := 0, slots := none, work := [], step := 0, sent := false }],
    next := if a.op == 2 || a.op == 3 then 0 else 1, toks := [], parts := [], heads := [], excess := false, noted := false }

/-- A COLL that has begun, taken its group's CSEQ and noted it. -/
def State.tagsCseq (s : State) (c : Nat) (ref : CmdRef) (g : Nat) : State :=
  (s.takesCseq c ref g).updCmd c ref fun y => { y with tag := s.cseq c g }

theorem State.tagsCseq_counted (hw : nwf s.regs = true) (hx : s.cmd c ref = some x) (g : Nat) : Counted s c g (s.tagsCseq c ref g) :=
  (State.takesCseq_counted hw hx g).frontOnly (State.updCmd_frontOnly _)

theorem Counted.moduleId {u : State} (h : Counted s c g u) : u.moduleId = s.moduleId := by
  rw [State.moduleId, State.moduleId, State.cat, State.cat, h.boot]

theorem Counted.resolveEntry {u : State} (h : Counted s c g u) (hc : c < 16) (e : Nat) : u.resolveEntry c e = s.resolveEntry c e :=
  State.resolveEntry_congr h.boot h.lnk h.low hc e

theorem Counted.groupMods {u : State} (h : Counted s c g u) (hc : c < 16) (gr : Grp) : u.groupMods c gr = s.groupMods c gr := by
  simp only [State.groupMods, h.moduleId, h.resolveEntry hc]

theorem State.groupMods_reachable {gr : Grp} (hreach : ∀ e ∈ gr.ents.zipIdx, e.2 ≠ gr.rank → (s.resolveEntry c e.1).isSome = true) :
    ¬((s.groupMods c gr).any (·.isNone)) = true := by
  simp only [State.groupMods, List.any_map, List.any_eq_true, not_exists, not_and]
  intro e he
  dsimp only [Function.comp]
  split
  · exact Bool.false_ne_true
  next hother =>
    rw [Option.isNone_iff_eq_none]
    exact Option.isSome_iff_ne_none.mp (hreach e he hother)

theorem Counted.newColl_begunBy {u : State} {gr : Grp} (h : Counted s c g u) (hc : c < 16) (hop : 2 ≤ (collArgs x.bytes).op) :
    BegunBy s c ref x gr (u.newColl c ref (collArgs x.bytes) gr q) := by
  refine ⟨rfl, rfl, rfl, rfl, rfl, rfl, rfl, rfl, rfl, rfl, rfl, fun hle => ?_, ?_⟩
  · have hred : ((collArgs x.bytes).op == 2 || (collArgs x.bytes).op == 3) = true := by
      simp only [Bool.or_eq_true, beq_iff_eq]
      omega
    exact ⟨if_pos hred, if_pos hred⟩
  · rw [State.newColl, h.groupMods hc, h.moduleId]
    dsimp only
    rw [State.groupMods, List.map_map]
    refine List.map_congr_left fun e _ => ?_
    dsimp only [Function.comp]
    split <;> rfl

/-- On a group that is BOUND, with room and every rank reachable, a collective joins those in flight and sets off. -/
theorem State.startColl_bound {gr : Grp} (hw : nwf s.regs = true) (hc : c < 16) (hx : s.cmd c ref = some x) (hp : s.part c = some p)
    (hg : (collArgs x.bytes).group = g) (hgrp : s.grp c g = some gr) (hbound : s.grpState c g = gsBound) (hfew : (s.flying c).length < 8)
    (hstage : (collArgs x.bytes).op ≤ 3 → 2 ^ 25 ≤ p.stageSize)
    (hreach : ∀ e ∈ gr.ents.zipIdx, e.2 ≠ gr.rank → (s.resolveEntry c e.1).isSome = true) :
    s.startColl c ref x = some (((s.tagsCseq c ref g).join c ((s.tagsCseq c ref g).newColl c ref (collArgs x.bytes) gr (s.cseq c g))).setsOff
      ((s.tagsCseq c ref g).newColl c ref (collArgs x.bytes) gr (s.cseq c g))) := by
  subst hg
  have htaken := State.takesCseq_counted hw hx (collArgs x.bytes).group
  have htagged := State.tagsCseq_counted hw hx (collArgs x.bytes).group
  have hunbroken : ¬(s.takesCseq c ref (collArgs x.bytes).group).grpState c (collArgs x.bytes).group = gsBroken := by
    rw [htaken.grpState, hbound]
    decide
  have hroom : ¬(((collArgs x.bytes).op = 2 ∨ (collArgs x.bytes).op = 3) ∧
      (((s.takesCseq c ref (collArgs x.bytes).group).part c).map (·.stageSize)).getD 0 < 2 ^ 25) := by
    rw [htaken.part, hp]
    rintro ⟨hred, hless⟩
    exact absurd (hstage (by omega)) (Nat.not_le_of_lt hless)
  have hmods := htagged.groupMods hc gr ▸ State.groupMods_reachable hreach
  unfold State.startColl
  extract_lets +onlyGivenNames a end_
  rw [show s.grp c a.group = some gr from hgrp]
  exact (if_neg (Nat.not_le_of_lt hfew)).trans ((if_neg hunbroken).trans ((if_neg hroom).trans (if_neg hmods)))

/-! ## What they complete with -/

theorem exec_collRow {row : (Nat → CmdRef → Instr) × Nat} (hrow : row ∈ collRows) (c : Nat) (ref : CmdRef) (s : State) :
    exec (row.1 c ref) s = .next (s.collCmd c ref row.2 fun s x => s.startColl c ref x) := by
  simp only [collRows, List.mem_cons, List.not_mem_nil, or_false] at hrow
  rcases hrow with rfl | rfl | rfl | rfl | rfl | rfl <;> rfl

theorem InTurn.exec_collRow {row : (Nat → CmdRef → Instr) × Nat} (hin : InTurn s c ref x p) (hrow : row ∈ collRows) (hop : x.op = 0x0A)
    (hkind : fieldAt x.bytes 0x10 1 = row.2) (hcheck : s.collCheck c p x = none) (hstart : s.startColl c ref x = some t) :
    exec (row.1 c ref) s = .next t := by
  rw [Machine.exec_collRow hrow, hin.collCmd hop hkind hcheck, hstart]
  rfl

theorem two_le_of_mem_collRows {row : (Nat → CmdRef → Instr) × Nat} (hrow : row ∈ collRows) : 2 ≤ row.2 := by
  simp only [collRows, List.mem_cons, List.not_mem_nil, or_false] at hrow
  rcases hrow with rfl | rfl | rfl | rfl | rfl | rfl <;> decide

theorem State.startColl_unbound (hgrp : s.grp c (collArgs x.bytes).group = none) :
    s.startColl c ref x = some ((s.begin_ c ref none).endsWith c ref 0x30) := by
  unfold State.startColl
  extract_lets +onlyGivenNames a end_
  rw [show s.grp c a.group = none from hgrp]
  rfl

theorem State.startColl_broken (hw : nwf s.regs = true) (hx : s.cmd c ref = some x) (hgrp : s.grp c (collArgs x.bytes).group ≠ none)
    (hfew : (s.flying c).length < 8) (hbroken : s.grpState c (collArgs x.bytes).group = gsBroken) :
    s.startColl c ref x = some ((s.takesCseq c ref (collArgs x.bytes).group).endsWith c ref 0x35) := by
  obtain ⟨gr, hgr⟩ := Option.ne_none_iff_exists'.mp hgrp
  have hstill : (s.takesCseq c ref (collArgs x.bytes).group).grpState c (collArgs x.bytes).group = gsBroken :=
    (State.takesCseq_counted hw hx _).grpState.trans hbroken
  unfold State.startColl
  extract_lets +onlyGivenNames a end_
  rw [show s.grp c a.group = some gr from hgr]
  exact (if_neg (Nat.not_le_of_lt hfew)).trans (if_pos hstill)

theorem InTurn.startColl_broken_spec (hin : InTurn s c ref x p) (hg : g < 16) :
    let t := (s.takesCseq c ref g).endsWith c ref 0x35
    t.coll = s.coll ∧ t.cseq c g = (s.cseq c g + 1) % 2 ^ 32 ∧ Ended t c ref := by
  obtain ⟨htidy, hc, hx, -⟩ := id hin
  have htaken := State.takesCseq_counted (State.tidy_regs htidy) hx g
  obtain ⟨y, hy⟩ := State.takesCseq_cmd hx g
  obtain ⟨hkeeps, hended⟩ := hin.endsWith 0x35 hy
  exact ⟨hkeeps.coll.trans htaken.coll, (hkeeps.words.cseq htaken.wf hc hg).trans htaken.cseq, hended⟩

theorem InTurn.startColl_begins {gr : Grp} (hin : InTurn s c ref x p) (hg : (collArgs x.bytes).group = g) (hq : s.cseq c g = q)
    (hgrp : s.grp c g = some gr) (hbound : s.grpState c g = gsBound) (hop : 2 ≤ (collArgs x.bytes).op) (hfew : (s.flying c).length < 8)
    (hstage : (collArgs x.bytes).op ≤ 3 → 2 ^ 25 ≤ p.stageSize) (hrun : s.run c g q = none)
    (htoks : ∀ k ∈ s.coll.toks, ¬(k.tenant = c ∧ k.group = g ∧ k.cseq = q))
    (hreach : ∀ e ∈ gr.ents.zipIdx, e.2 ≠ gr.rank → (s.resolveEntry c e.1).isSome = true) :
    ∃ t, s.startColl c ref x = some t ∧ (∃ k, t.run c g q = some k ∧ BegunBy s c ref x gr k) ∧ t.cseq c g = (q + 1) % 2 ^ 32 ∧
      t.grpState c g = gsBound ∧ t.fld (colTnt c 0x14) 0 4 = (s.flying c).length + 1 ∧ t.coll.runs.length = s.coll.runs.length + 1 := by
  obtain ⟨htidy, hc, hx, hp, -⟩ := hin
  have hlt : g < 16 := hg ▸ collArgs_group_lt x.bytes
  have hw := State.tidy_regs htidy
  have hcounted := State.tagsCseq_counted hw hx g
  refine ⟨_, State.startColl_bound hw hc hx hp hg hgrp hbound hfew hstage hreach, ?_⟩
  rw [hq]
  have his : ((s.tagsCseq c ref g).newColl c ref (collArgs x.bytes) gr q).is c g q = true := Coll.is_iff.mpr ⟨rfl, hg, rfl⟩
  have hbegun := hcounted.newColl_begunBy (ref := ref) (q := q) (gr := gr) hc hop
  generalize s.tagsCseq c ref g = u at hcounted his hbegun ⊢
  generalize u.newColl c ref (collArgs x.bytes) gr q = k at his hbegun ⊢
  have hflying : u.flying c = s.flying c := by rw [State.flying, State.flying, hcounted.coll]
  have hnone : u.run c g q = none := by rw [State.run, hcounted.coll]; exact hrun
  obtain ⟨hjoin, hfield, hlength, htoksJoin, hwJoin, hwords⟩ := State.join_spec hcounted.wf his hnone (hflying ▸ hfew)
  have hon : RunGoesOn c g q (u.join c k) ((u.join c k).setsOff k) :=
    State.setsOff_runGoesOn hc hjoin (by rw [htoksJoin, hcounted.coll]; exact htoks)
  have hstate : (u.join c k).grpState c g = u.grpState c g := by
    rw [State.grpState, State.grpState, State.fld, State.fld, hwords _ (by simp only [colGrp, colTnt]; omega)]
  have hcseq : (u.join c k).cseq c g = u.cseq c g := by
    rw [State.cseq, State.cseq, hwords _ (by simp only [colGrp, colTnt]; omega)]
  obtain ⟨k', hk', hgoes⟩ := hon.run k hjoin
  refine ⟨⟨k', hk', hbegun.goesOn hgoes⟩, ?_, ?_, ?_, ?_⟩
  · rw [hon.words.cseq hwJoin hc hlt, hcseq, hcounted.cseq, hq]
  · rw [hon.words.grpState hwJoin hc hlt, hstate, hcounted.grpState, hbound]
  · rw [hon.words.fld_eq hwJoin (not_offColl_colTnt hc (by decide) (by decide)), hfield, hflying]
  · rw [hon.length, hlength, hcounted.coll]

end

/-- Settles O44: in turn, each of the six acts as `startColl`. On a BOUND group with room the collective joins those in flight and sets off,
and whatever it sends, lands or reports on its way keeps its operands and the registers of tenants and groups; elsewhere the command ends at
once. -/
theorem collectivesBegin : Obligations.CollectivesBegin := by
  intro row hrow s c ref x p hin hop hkind hcheck
  have hargs : (collArgs x.bytes).op = row.2 := hkind
  obtain ⟨htidy, -, hx, -⟩ := id hin
  refine ⟨fun gr hgrp hbound hfew hstage hrun htoks hreach => ?_, fun hgrp => ?_, fun hgrp hfew hbroken => ?_⟩
  · obtain ⟨t, hstart, ⟨k, hk, hbegun⟩, hend⟩ :=
      hin.startColl_begins rfl rfl hgrp hbound (hargs ▸ two_le_of_mem_collRows hrow) hfew (hargs ▸ hstage) hrun htoks hreach
    exact ⟨t, hin.exec_collRow hrow hop hkind hcheck hstart, ⟨k, hk, hargs ▸ hbegun⟩, hend⟩
  · exact hin.completes_endsWith (hin.exec_collRow hrow hop hkind hcheck (State.startColl_unbound hgrp))
  · have hstart := State.startColl_broken (ref := ref) (State.tidy_regs htidy) hx hgrp hfew hbroken
    exact ⟨_, hin.exec_collRow hrow hop hkind hcheck hstart, hin.startColl_broken_spec (collArgs_group_lt _)⟩

end Sys2Proof.Machine
end


section
/-!
PROOFS. An abort of a collective that a work item of no tenant stands for: O45.
-/

namespace Sys2Proof.Machine

/-- The number of a tenant that no module has. A window of its own would lie over the registers of the groups (R374, R565). -/
def strayTenant : Nat := 1266

/-- A stored command whose header asks for a signal at its end (R381). -/
def strayCmd : RCmd := RCmd.new 0 [0, 4]

/-- The launch that holds this command. -/
def strayLaunch : Launch :=
  { tenant := strayTenant, ring := some 0, key := 0, recipe := 0, buf := 0, version := 0, cmds := [strayCmd], next := 1, stopped := false }

/-- A work item of a ROUTE that is this command. -/
def strayItem : Item :=
  { n := 0, tenant := strayTenant, ref := .stored (some 0) 0 0, expert := 0, slots := [], tile := none, fetch := false, phase := 3,
    weights := true, cmds := [], next := 0 }

/-- That ROUTE, which completes with the item. -/
def strayRoute : Route :=
  { tenant := strayTenant, ref := .stored (some 0) 0 0, bytes := [], plan := [], half := 0, open_ := [0], counts := (1, 1, 0) }

/-- A BARRIER of group 3 of tenant 1, which belongs to the item's scatter chain. -/
def strayRun : Coll :=
  { tenant := 1, group := 3, cseq := 0, ref := .item 0 258, op := 7, red := 0, prio := 0, fin := 0, fout := 0, count := 0, src := 0,
    srcSpm := false, dst := 0, dstSpm := false, tbl := 0, idx := 0, n := 1, rank := 0, mods := [0], digest := 0, table := [], segs := [],
    next := 1, toks := [], parts := [], heads := [], excess := false, noted := false }

/-- A module with that BARRIER in flight; its group is BOUND with next CSEQ 1. -/
def strayState : State :=
  { State.reset with
    regs := nset (nset resetRegs (colGrp 1 3) 1) (colGrp 1 3 + 4) 1,
    front := { Front.reset with launches := [strayLaunch], routes := [strayRoute], items := [strayItem] },
    coll := { Collectives.reset with runs := [strayRun] } }

theorem strayState_tidy : strayState.tidy = true := by decide +kernel

theorem strayState_grpState : strayState.grpState 1 3 = gsBound := by decide +kernel

/-- The abort breaks the group and ends the BARRIER, with it the item, its ROUTE and the stored command, whose signal cannot be read; the
entry of that fault for tenant 1266 (R485) is written over the group's register, where STATE then reads 3. -/
theorem strayState_grpState_abortIn : (strayState.abortIn 1 3 0).grpState 1 3 = 3 := by decide +kernel

/-- Refutes O45: its clause on an abort does not ask that the work items are those of tenants below 16. The end of an item of tenant 1266
can raise a fault, whose entry lies over the registers of the groups, and the group that the abort broke does not read BROKEN. -/
theorem not_collectiveSegmentsTokensAndEnds : ¬ Obligations.CollectiveSegmentsTokensAndEnds := by
  intro h
  obtain ⟨-, -, habort, -⟩ := h strayState 1 3 0 strayState_tidy (by decide) (by decide)
  have hbound : strayState.grpState 1 3 ≠ gsUnbound := by rw [strayState_grpState]; decide
  obtain ⟨t, hexec, hbroken, -⟩ := habort hbound (.inl rfl)
  have ht : strayState.abortIn 1 3 0 = t := Host.Outcome.next.inj hexec
  rw [← ht, strayState_grpState_abortIn] at hbroken
  exact absurd hbroken (by decide)

end Sys2Proof.Machine
end

section
/-!
PROOFS. One step takes one command: what it runs, that it always answers a next state, and what it leaves alone: O1, O2, O3, O4, O8.
-/

namespace Sys2Proof.Machine

/-- An outcome is a next state, neither a fault nor a refusal. -/
def Answers (o : Host.Outcome State Fault Refusal) : Prop := ∃ t, o = .next t

theorem Answers.next (s : State) : Answers (.next s) := ⟨s, rfl⟩

theorem Answers.ite {c : Prop} [Decidable c] {a b : Host.Outcome State Fault Refusal} (ha : Answers a) (hb : Answers b) :
    Answers (if c then a else b) := by
  split
  · exact ha
  · exact hb

/-- Every meaning answers a next state: at once, after one or two conditions, or on each branch of what it finds in the state. -/
theorem exec_answers (c : Instr) (s : State) : Answers (exec c s) := by
  cases c with
  | registerWrite | pcieAtomicop | pfFlr | vfAccessLoss | perstAssert | matedOpen | mbxWriteCat | mbxWriteFw | mbxEnrolKey | mbxRevokeKey
    | mbxRestart | mbxBadCmd | tickOutEnd | delayEcho | censusReceive | entryEnd | preempt | nop | endProgram | barrier | loop | acq | rel
    | fence | cwait | cset | matmul | matmulSide | vld | vst | vbcast | viota | vadd | vsub | vmul | vfma | vmax | vmin | vabs | vneg |
    vcmp | vsel | vexp | vrcp | vrsq | vrsum | vrmax | vrmin | iadd | isub | imul | imulhi | iand | ior | ixor | ishl | ishr | icmp | vcvt
    | vpext | kop | vflag | vrng | qstatGatherNew | qstatGather | qstatFinish | qstatMerge | qconv | vtopk | vsample | attn | attnMerge |
    xstart | rgnOpen | rgnClose | slotWait | slotRelease | cxEnc | cxDec | cxTload | cxHist | slotMark | slotMarkSeen | copy | fill |
    convert | link | transferRequestComplete | packetWrite | packetSignal | packetControl | servingAnnouncement | servingTableRequest |
    heartbeatReceive | twinLossTimeout | twinReturn | collBind | collUnbind | collAllreduce | collReduceScatter | collAllgather |
    collAlltoall | collAlltoallv | collBarrier | collTokenReceive | collAbortReceive | commandReport | cmdNop | cmdMatmul | cmdAttn |
    cmdVec | cmdQstat | cmdQconv | cmdXfer | cmdCodec | pageAlloc | pageFree | pageShare | pageCopy | sessionFeed | sessionOpen |
    setSampling | setStop | sessionStop | sessionClose | sessionPark | sessionUnpark | sessionTruncate | sessionMigrate | migrateConfirm |
    recipeLoad | recipePatch | recipeLaunch | route | routeItemPlace | cmdSignal | cmdWait | cmdFence | larderCopyComplete | fltClear |
    cpReset | computePartReset | computePartRelease | wearInterval | hbmPageCopyComplete | powerSample | droopRelease | jtagExtest |
    jtagSamplePreload | smbStatus | smbPower | smbTemp | smbIdent | smbPosition | smbAlert | memorySpaceDisable | pcieEnableRestore |
    smbUnlistedCommand =>
    exact .next _
  | vfFlr | powerGood | powerGoodLoss | perstDeassert | matedClose | pcieFunctionReady | startSequence | tickInWindowExpiry | tickBoundary
    | holdoverEntry | holdoverLimit | successionTakeover | masterRelinquish | tickOriginateTimeout | tickLockTimeout | schSelWrite |
    tickWorkComplete | joinWindowExpiry | joinRetryTimer | bypassSettleTimeout | identSend | portPartnerLoss | attachmentDown | lnkRetry |
    linkResendTimeout | remoteWriteRefused | packetAck | doorbell | ringEnable | ringDisable | ringTimeout | mirrorRecordReceive |
    mirrorMarkReceive | freeze | unfreeze | tenantReset | tenantResetComplete | twinModeRequest | twinModeRequestReceive | resyncComplete
    | publish | commonDigestComplete | wsetGo | faultClear | handover | ladleCtlWrite | batchListReceive | ladleCreditReceive |
    returnReceive | epochBoundary | reflowNoticeReceive | stepRecordReceive | unitComplete | unitDigestReceive | suspectWindow |
    escalationWindowEnd | vacancyTimeout | phaseTrip | tempSample | thermalUpdate | droopDetect | throttleLow | throttleHigh |
    pwrModLimitWrite | vitRestart | traceFrameSend | jtagIdcode | jtagBypass | smbAlertClr | registerRead | pcieCompletionTimeout |
    linkTrainingTimeout | ccFail | hbmScrub =>
    exact .ite (.next _) (.next _)
  | delayEchoReceive | attachmentJoin | heartbeatSend | mcFailover | converterFail | railFault =>
    exact .ite (.next _) (.ite (.next _) (.next _))
  | bar2Read | bar2Write | mbxCommandEnd | tickInEdge | tickInHoldover | tickSymbolReceive | entryOpen | marginStart | bgAtomStart |
    bgAtomComplete | bgDeadlineExpiry | overrunExpiry | programLaunch | tileFetchFault | invalidOpcode | cwaitSatisfied | keyGroupFetch |
    instructionComplete | programComplete | descriptorFetch | codecBlock | codecTloadApply | identReceive | portRetrainComplete | laneFail
    | linkBlockReceive | e2eResendTimeout | collSegmentStart | collComplete | commandFetch | waitSatisfied | wsetDigestComplete |
    ladleLaunchComplete | residentCopyComplete | suspectReplayLimit | accessionAppend | throttleAccept | throttleRelease =>
    simp only [exec,
      execBar2Read, execBar2Write, execMbxCommandEnd, execTickInEdge, execTickInHoldover, execTickSymbolReceive, execEntryOpen,
      execMarginStart, execBgAtomStart, execBgAtomComplete, execBgDeadlineExpiry, execOverrunExpiry, execProgramLaunch,
      execTileFetchFault, execInvalidOpcode, execCwaitSatisfied, execKeyGroupFetch, execInstructionComplete, execProgramComplete,
      execDescriptorFetch, execCodecBlock, execCodecTloadApply, execIdentReceive, execPortRetrainComplete, execLaneFail,
      execLinkBlockReceive, execE2eResendTimeout, execCollSegmentStart, execCollComplete, execCommandFetch, execWaitSatisfied,
      execWsetDigestComplete, execLadleLaunchComplete, execResidentCopyComplete, execSuspectReplayLimit, execAccessionAppend,
      execThrottleAccept, execThrottleRelease]
    repeat' (first | exact .next _ | split)

/-- Settles O1. -/
theorem stepRunsFrontCommand : Obligations.StepRunsFrontCommand := fun _ _ _ => step_of_pending

theorem step_of_pending_nil {s : State} (h : s.pending = []) : step s = .next s := by
  rw [step, h]

/-- Settles O2. -/
theorem emptyQueueIdles : Obligations.EmptyQueueIdles := fun _ => step_of_pending_nil

/-- Settles O3: every meaning answers, and what it answers is `Good`, whose queue is the one that was found. -/
theorem everyCommandAnswersNextState : Obligations.EveryCommandAnswersNextState := by
  intro c s
  obtain ⟨t, ht⟩ := exec_answers c s
  exact ⟨t, ht, (exec_good c (.refl s) t ht).queue⟩

/-- Settles O4: an idle step keeps the empty queue, and the front command's meaning keeps the queue's rest. -/
theorem stepConsumesExactlyOneCommand : Obligations.StepConsumesExactlyOneCommand := by
  intro s
  cases hq : s.pending with
  | nil => exact ⟨s, step_of_pending_nil hq, hq, id⟩
  | cons c rest =>
    obtain ⟨t, ht, hqueue⟩ := everyCommandAnswersNextState c { s with pending := rest }
    have hrest : t.pending = rest := hqueue
    refine ⟨t, (step_of_pending hq).trans ht, hrest, fun hwf => ?_⟩
    simp only [State.queueWf, hq, List.all_cons, Bool.and_eq_true] at hwf
    rw [State.queueWf, hrest]
    exact hwf.2

/-- Settles O8: an idle step answers the state it found, and `Good` says both of every command. -/
theorem sentStaysSentAndDrawsAreFresh : Obligations.SentStaysSentAndDrawsAreFresh := by
  intro s t hstep
  cases hq : s.pending with
  | nil =>
    cases (step_of_pending_nil hq).symm.trans hstep
    exact ⟨List.prefix_refl _, Nat.le_refl _⟩
  | cons c rest =>
    have hgood := exec_good c (.refl { s with pending := rest }) t ((step_of_pending hq).symm.trans hstep)
    exact ⟨hgood.sent, hgood.drawn⟩

end Sys2Proof.Machine
end


section
/-!
PROOFS. What a power sample measures: the law levels it sets, and what it leaves of the state: O57.
-/

namespace Sys2Proof.Machine

section
variable {P : Nat → Prop} {s t : State} {off : Nat}

/-! ## Writing one more word within a frame -/

theorem WordsOnly.setFld {lo n v : Nat} (h : WordsOnly P s t) (hp : P off) : WordsOnly P s (t.setFld off lo n v) :=
  h.trans (t.setFld_words _ _ _ hp)

theorem WordsOnly.setFlag {b : Nat} {v : Bool} (h : WordsOnly P s t) (hp : P off) : WordsOnly P s (t.setFlag off b v) :=
  h.trans (t.setFlag_words _ _ hp)

theorem WordsOnly.setQuad {v : Nat} (h : WordsOnly P s t) (hp : P off) (hp4 : P (off + 4)) : WordsOnly P s (t.setQuad off v) :=
  h.trans ((t.setWord_words _ hp).trans (State.setWord_words _ _ hp4))

end

/-! ## What measuring and charging change (R526, R535) -/

/-- From `s` to `t` only registers, the power windows, the energy remainders and the swaps that fall due change. -/
def Metered (s t : State) : Prop :=
  t = { s with regs := t.regs, acc := { s.acc with due := t.acc.due }, pwr := { s.pwr with rails := t.pwr.rails, nano := t.pwr.nano } }

section
variable {s t u : State}

theorem Metered.refl (s : State) : Metered s s := rfl

theorem Metered.trans (h : Metered s t) (g : Metered t u) : Metered s u := by
  rw [Metered] at g h
  rw [Metered, g, h]

theorem RegsOnly.metered (h : RegsOnly s t) : Metered s t := by
  rw [RegsOnly] at h
  rw [Metered, h]

theorem Metered.foldl {α : Type} {f : State → α → State} (hf : ∀ s x, Metered s (f s x)) (l : List α) (s : State) : Metered s (l.foldl f s) :=
  foldl_inv (Q := Metered s) (fun u x h => h.trans (hf u x)) (.refl s)

theorem Metered.railLimit (h : Metered s t) (i : Nat) : t.railLimit i = s.railLimit i := by
  rw [h]
  rfl

theorem Metered.serves (h : Metered s t) : t.serves = s.serves := by
  rw [h]
  rfl

theorem Metered.modLevel (h : Metered s t) : t.pwr.modLevel = s.pwr.modLevel := by
  rw [h]

theorem Metered.droop (h : Metered s t) : t.pwr.droop = s.pwr.droop := by
  rw [h]

end

section
variable (s : State)

theorem State.showLimits_regsOnly : RegsOnly s s.showLimits := RegsOnly.foldl (fun _ _ => by rfl) _ s

theorem State.showLimits_words : WordsOnly (fun a => 0x900100 ≤ a ∧ a < 0x900170) s s.showLimits := by
  refine .foldl (fun u i hi => ?_) s
  have hi : i < 28 := List.mem_range.mp hi
  have hp : 0x900100 ≤ 0x900100 + 4 * i ∧ 0x900100 + 4 * i < 0x900170 := by omega
  exact ((WordsOnly.refl u).setFld hp).setFld hp

theorem State.phaseSample_metered (rail phase dev temp : Nat) : Metered s (s.phaseSample rail phase dev temp) := by
  unfold State.phaseSample
  dsimp only
  split
  · split <;> rfl
  · rfl

theorem State.phaseSample_regs (rail phase dev temp : Nat) : (s.phaseSample rail phase dev temp).regs = s.regs := by
  unfold State.phaseSample
  dsimp only
  split
  · split <;> rfl
  · rfl

theorem State.charge_metered (x : PowerIn) : Metered s (s.charge x) := by
  unfold State.charge
  dsimp only
  exact ((show Metered s (s.chargeAt 0x900800 258 x.inNj) from rfl).trans (.foldl (fun _ _ => by rfl) _ _)).trans
    (.foldl (fun _ _ => by rfl) _ _)

/-- The energy counters stand from 0x900800 on (R535). -/
theorem State.charge_words (x : PowerIn) : WordsOnly (0x900800 ≤ ·) s (s.charge x) := by
  have hat (u : State) (addr key n : Nat) (ha : 0x900800 ≤ addr) : WordsOnly (0x900800 ≤ ·) u (u.chargeAt addr key n) :=
    ((WordsOnly.refl u).setQuad ha (Nat.le_add_right_of_le ha)).trans (.of_regs_eq rfl)
  have hkey (k : EKey) : 0x900800 ≤ (ekeyAddr k).1 := by
    match k with
    | none | some .bg | some (.ladle _) | some (.ring _ _) => simp only [ekeyAddr]; omega
  unfold State.charge
  dsimp only
  refine ((hat s _ _ _ (by decide)).trans (.foldl (fun u p _ => hat u _ _ _ (hkey p.1)) _)).trans (.foldl (fun u t _ => (WordsOnly.refl u).setQuad ?_ ?_) _)
  · omega
  · omega

/-- The phases and the charges of a sample, which follow the levels. -/
theorem State.afterLevels (x : PowerIn) :
    let t := (x.phases.foldl (fun (s : State) (r, p, d, t) => s.phaseSample r p d t) s).charge x
    Metered s t ∧ WordsOnly (0x900800 ≤ ·) s t := by
  refine ⟨(Metered.foldl (fun u p => u.phaseSample_metered _ _ _ _) _ s).trans (State.charge_metered _ x), ?_⟩
  exact (WordsOnly.foldl (fun u p _ => .of_regs_eq (u.phaseSample_regs _ _ _ _)) s).trans (State.charge_words _ x)

end

/-! ## The law of R528 -/

theorem lawLevel_lt {lev : Nat} (h : lev < 64) (x lim : Nat) : lawLevel lev x lim < 64 := by
  unfold lawLevel
  split
  · omega
  · split <;> omega

section
variable {s : State}

theorem State.railLevel_lt (i : Nat) : s.railLevel i < 64 := Nat.mod_lt _ (by decide)

theorem State.railSample_metered (i ma : Nat) : Metered s (s.railSample i ma) := by
  unfold State.railSample
  dsimp only
  split <;> rfl

theorem State.railSample_words (i ma : Nat) : WordsOnly (· = 0x900200 + 4 * i) s (s.railSample i ma) := by
  unfold State.railSample
  extract_lets w rails p s1 o avg s2
  have h1 : WordsOnly (· = 0x900200 + 4 * i) s s2 :=
    ((WordsOnly.of_regs_eq (P := (· = 0x900200 + 4 * i)) (s := s) (t := s1) rfl).setFld rfl).setFld rfl
  exact .ite (h1.setFld rfl) h1

/-- An enforced rail's sample moves its law level; AVG and MAX stand below it in the word (R536). -/
theorem State.railSample_level {i : Nat} (ma : Nat) (hw : nwf s.regs = true) (hi : i < 24) :
    (s.railSample i ma).railLevel i = lawLevel (s.railLevel i) ma (1000 * s.railLimit i) := by
  unfold State.railSample
  extract_lets w rails p s1 o avg s2
  have w1 : nwf (s1.setFld o 0 12 avg).regs = true := State.nwf_setFld _ _ _ _ hw
  have hlev : s2.railLevel i = s.railLevel i :=
    (State.fld_setFld_above _ w1 (by decide) (by decide)).trans (State.fld_setFld_above (s := s1) _ hw (by decide) (by decide))
  have hlim : s2.railLimit i = s.railLimit i := rfl
  rw [if_pos hi, hlev, hlim]
  refine (State.fld_setFld_same _ _ _ _ (State.nwf_setFld _ _ _ _ w1) (by decide)).trans (Nat.mod_eq_of_lt ?_)
  exact lawLevel_lt (State.railLevel_lt i) _ _

/-- The words that hold the samples of the rails `[k, k + n)` (R536). -/
def RailWords (k n a : Nat) : Prop := 0x900200 + 4 * k ≤ a ∧ a < 0x900200 + 4 * (k + n)

/-- The rails of a sample, one after another from rail `k` on. -/
theorem State.railSamples_spec (l : List Nat) (k : Nat) (s : State) (hw : nwf s.regs = true) :
    let t := (l.zipIdx k).foldl (fun (s : State) (ma, i) => s.railSample i ma) s
    Metered s t ∧ WordsOnly (RailWords k l.length) s t ∧
      ∀ j < l.length, k + j < 24 → ∀ ma, l[j]? = some ma →
        t.railLevel (k + j) = lawLevel (s.railLevel (k + j)) ma (1000 * s.railLimit (k + j)) := by
  induction l generalizing k s with
  | nil => exact ⟨.refl s, .refl s, fun j hj => absurd hj (Nat.not_lt_zero j)⟩
  | cons x l ih =>
    have hm : Metered s (s.railSample k x) := State.railSample_metered k x
    have hx : WordsOnly (· = 0x900200 + 4 * k) s (s.railSample k x) := State.railSample_words k x
    obtain ⟨hmrest, hrest, hlev⟩ := ih (k + 1) (s.railSample k x) (hx.wf hw)
    simp only [List.zipIdx_cons, List.foldl_cons, List.length_cons]
    refine ⟨hm.trans hmrest, (hx.mono ?_).trans (hrest.mono ?_), fun j hj hjk ma hma => ?_⟩
    · intro a ha
      simp only [RailWords]
      omega
    · intro a ha
      simp only [RailWords] at ha ⊢
      omega
    · cases j with
      | zero =>
        obtain rfl : x = ma := by simpa using hma
        rw [State.railLevel, hrest.fld_eq (hx.wf hw) (by simp only [RailWords]; omega)]
        exact State.railSample_level x hw hjk
      | succ j =>
        have hidx : k + (j + 1) = k + 1 + j := by omega
        have hsame : (s.railSample k x).railLevel (k + 1 + j) = s.railLevel (k + 1 + j) := hx.fld_eq hw (by omega) 24 6
        rw [hidx, hlev j (by omega) (by omega) ma (by simpa using hma), hsame, hm.railLimit]

end

/-! ## A sample of the power measurement (R526, R528) -/

/-- The windows of the input and PWR_IN after a sample. -/
def State.sampleInput (s : State) (x : PowerIn) : State :=
  let vin := window s.pwr.vin x.vin
  let pin := window s.pwr.pin x.pin
  (({ s with pwr := { s.pwr with vin := vin, pin := pin, iin := x.iin } } : State).setFld 0x900000 0 16 (meanOf vin)).setFld 0x900000 16 16
    (meanOf pin / 1000)

/-- The rails' samples of a serving module. -/
def State.sampleRails (s : State) (x : PowerIn) : State :=
  (x.rails.zipIdx.take 28).foldl (fun (s : State) (ma, i) => s.railSample i ma) (s.sampleInput x).showLimits

/-- The law levels of a serving module after a sample, before the dies show them. -/
def State.sampleLevels (s : State) (x : PowerIn) : State :=
  let u := s.sampleRails x
  let lev := lawLevel u.pwr.modLevel x.pin (1000 * u.fld 0x900004 0 13)
  ({ u with pwr := { u.pwr with modLevel := lev } } : State).setFlag 0x900004 30 (decide (0 < lev))

section
variable {s : State} (x : PowerIn)

theorem State.powerSample_idle (hs : s.serves = false) : s.powerSample x = s.sampleInput x := by
  have hs' : (s.sampleInput x).serves = false := hs
  simp only [State.powerSample, ← State.sampleInput.eq_1, hs', Bool.not_false, if_true]

theorem State.powerSample_serving (hs : s.serves = true) :
    s.powerSample x =
      (x.phases.foldl (fun (s : State) (r, p, d, t) => s.phaseSample r p d t) (s.sampleLevels x).showDies).charge x := by
  have hs' : (s.sampleInput x).serves = true := hs
  simp only [State.powerSample, ← State.sampleInput.eq_1, hs', Bool.not_true, Bool.false_eq_true, if_false]
  rfl

theorem State.sampleInput_words : WordsOnly (· = 0x900000) s (s.sampleInput x) :=
  ((WordsOnly.of_regs_eq (P := (· = 0x900000)) (by rfl)).setFld rfl).setFld rfl

theorem take_zipIdx_eq (l : List Nat) (n k : Nat) : (l.zipIdx k).take n = (l.take n).zipIdx k := by
  induction l generalizing n k with
  | nil => simp
  | cons a l ih =>
    cases n with
    | zero => rfl
    | succ n => simp [ih]

/-- What the rails' samples leave: their own words, the limits shown and PWR_IN apart, no word changes. -/
theorem State.sampleRails_spec (hw : nwf s.regs = true) :
    Metered (s.sampleInput x) (s.sampleRails x) ∧
    WordsOnly (fun a => a = 0x900000 ∨ (0x900100 ≤ a ∧ a < 0x900170) ∨ RailWords 0 (min 28 x.rails.length) a) s (s.sampleRails x) ∧
    ∀ i < 24, ∀ ma, x.rails[i]? = some ma → (s.sampleRails x).railLevel i = lawLevel (s.railLevel i) ma (1000 * s.railLimit i) := by
  let v := (s.sampleInput x).showLimits
  have hin : WordsOnly (· = 0x900000) s (s.sampleInput x) := State.sampleInput_words x
  have hlim : WordsOnly (fun a => 0x900100 ≤ a ∧ a < 0x900170) (s.sampleInput x) v := State.showLimits_words _
  have hv : Metered (s.sampleInput x) v := (State.showLimits_regsOnly _).metered
  have wv : nwf v.regs = true := hlim.wf (hin.wf hw)
  have hfold : s.sampleRails x = ((x.rails.take 28).zipIdx 0).foldl (fun (s : State) (ma, i) => s.railSample i ma) v := by
    rw [State.sampleRails, take_zipIdx_eq]
  obtain ⟨hm, hwords, hlev⟩ := State.railSamples_spec (x.rails.take 28) 0 v wv
  rw [← hfold] at hm hwords hlev
  rw [List.length_take] at hwords
  refine ⟨hv.trans hm, ?_, fun i hi ma hma => ?_⟩
  · exact ((hin.mono fun a ha => .inl ha).trans (hlim.mono fun a ha => .inr (.inl ha))).trans (hwords.mono fun a ha => .inr (.inr ha))
  · have hi' : i < x.rails.length := (List.getElem?_eq_some_iff.mp hma).1
    have htake : (x.rails.take 28)[i]? = some ma := by rw [List.getElem?_take_of_lt (by omega), hma]
    have hsame : v.railLevel i = s.railLevel i :=
      (hlim.fld_eq (hin.wf hw) (by omega) 24 6).trans (hin.fld_eq hw (by omega) 24 6)
    have hlimit : v.railLimit i = s.railLimit i := (hv.railLimit i).trans rfl
    have := hlev i (by rw [List.length_take]; omega) (by omega) ma htake
    rwa [Nat.zero_add, hsame, hlimit] at this

/-- The words of a sample that are none of PWR_DIE, Vitrine or the energy counters. -/
def SampleWords (x : PowerIn) (a : Nat) : Prop :=
  a = 0x900000 ∨ a = 0x900004 ∨ (0x900100 ≤ a ∧ a < 0x900170) ∨ RailWords 0 (min 28 x.rails.length) a

theorem State.sampleLevels_spec (hw : nwf s.regs = true) :
    WordsOnly (SampleWords x) s (s.sampleLevels x) ∧
    (s.sampleLevels x).pwr.modLevel = lawLevel s.pwr.modLevel x.pin (1000 * s.fld 0x900004 0 13) ∧
    ∀ i < 24, ∀ ma, x.rails[i]? = some ma → (s.sampleLevels x).railLevel i = lawLevel (s.railLevel i) ma (1000 * s.railLimit i) := by
  obtain ⟨hm, hwords, hlev⟩ := State.sampleRails_spec x hw
  have hmod : (s.sampleRails x).pwr.modLevel = s.pwr.modLevel := hm.modLevel
  have hfld : (s.sampleRails x).fld 0x900004 0 13 = s.fld 0x900004 0 13 := hwords.fld_eq hw (by simp [RailWords]) 0 13
  have hset : WordsOnly (· = 0x900004) (s.sampleRails x) (s.sampleLevels x) :=
    (WordsOnly.of_regs_eq (P := (· = 0x900004)) (by rfl)).setFlag rfl
  refine ⟨(hwords.mono ?_).trans (hset.mono fun a ha => .inr (.inl ha)), ?_, fun i hi ma hma => ?_⟩
  · rintro a (ha | ha | ha)
    · exact .inl ha
    · exact .inr (.inr (.inl ha))
    · exact .inr (.inr (.inr ha))
  · show lawLevel (s.sampleRails x).pwr.modLevel x.pin (1000 * (s.sampleRails x).fld 0x900004 0 13) = _
    rw [hmod, hfld]
  · rw [State.railLevel, hset.fld_eq (hwords.wf hw) (by omega)]
    exact hlev i hi ma hma

/-- What follows the levels of a sample changes no level: neither showing the dies, nor the phases and charges. -/
theorem State.powerSample_afterLevels (hs : s.serves = true) (hw : nwf s.regs = true) :
    (s.powerSample x).pwr.modLevel = (s.sampleLevels x).pwr.modLevel ∧
    ∀ i < 24, (s.powerSample x).railLevel i = (s.sampleLevels x).railLevel i := by
  obtain ⟨hlevels, -, -⟩ := State.sampleLevels_spec x hw
  have hdies := (s.sampleLevels x).showDies_words
  obtain ⟨hm, hwords⟩ := (s.sampleLevels x).showDies.afterLevels x
  rw [← State.powerSample_serving x hs] at hm hwords
  refine ⟨hm.modLevel.trans (congrArg Power.modLevel (s.sampleLevels x).showDies_reports.pwr), fun i hi => ?_⟩
  exact (hwords.fld_eq (hdies.wf (hlevels.wf hw)) (by omega) 24 6).trans (hdies.fld_eq (hlevels.wf hw) (by simp only [DieWords]; omega) 24 6)

end

/-- Settles O57: the levels move before anything else that a sample does to them, rail by rail, and nothing after moves them. -/
theorem lawLevelsFollowTheirLaw : Obligations.LawLevelsFollowTheirLaw := by
  intro s x htidy hs follows
  have hw := State.tidy_regs htidy
  obtain ⟨hwords, hmod, hlev⟩ := State.sampleLevels_spec x hw
  obtain ⟨hmod', hlev'⟩ := State.powerSample_afterLevels x hs hw
  have hfollows (lev lim smp : Nat) : follows lev lim smp (lawLevel lev smp lim) := by
    simp only [follows, lawLevel, ceilDiv]
    split
    · rfl
    · split <;> rfl
  refine ⟨s.powerSample x, rfl, fun i hi ma hma => ?_, fun i hi hnone => ?_, ?_⟩
  · rw [hlev' i hi, hlev i hi ma hma]
    exact hfollows _ _ _
  · have hlen : x.rails.length ≤ i := List.getElem?_eq_none_iff.mp hnone
    rw [hlev' i hi]
    exact hwords.fld_eq hw (by simp only [SampleWords, RailWords]; omega) 24 6
  · rw [hmod', hmod]
    exact hfollows _ _ _

end Sys2Proof.Machine
end


section
/-!
PROOFS. What the dies show: the largest level with its cause, after every command that moves a level: O58.
-/

namespace Sys2Proof.Machine

/-- The element of the largest key of a list, from `m` on, and that it is one of them. -/
theorem foldl_largest {α κ : Type} [LinearOrder κ] (f : α → κ) (l : List α) (m : α) :
    let r := l.foldl (fun m x => if f m < f x then x else m) m
    f m ≤ f r ∧ (∀ x ∈ l, f x ≤ f r) ∧ (r = m ∨ r ∈ l) := by
  induction l generalizing m with
  | nil => exact ⟨le_refl _, by simp, .inl rfl⟩
  | cons x l ih =>
    obtain ⟨hge, hall, hmem⟩ := ih (if f m < f x then x else m)
    have hm : f m ≤ f (if f m < f x then x else m) := by
      split
      · next h => exact h.le
      · exact le_refl _
    have hx : f x ≤ f (if f m < f x then x else m) := by
      split
      · exact le_refl _
      · next h => exact not_lt.mp h
    refine ⟨hm.trans hge, List.forall_mem_cons.mpr ⟨hx.trans hge, hall⟩, ?_⟩
    rcases hmem with hr | hr
    · have hr : List.foldl (fun m x => if f m < f x then x else m) m (x :: l) = if f m < f x then x else m := hr
      rw [hr]
      split
      · exact .inr List.mem_cons_self
      · exact .inl rfl
    · exact .inr (List.mem_cons_of_mem _ hr)

/-- A command whose meaning is one condition. -/
theorem completes_ite {c : Instr} {s : State} {p : Prop} [Decidable p] {a b : State} {Q : State → Prop}
    (hx : exec c s = if p then .next a else .next b) (ha : p → Q a) (hb : ¬p → Q b) : Completes c s Q := by
  by_cases hp : p
  · exact ⟨a, hx.trans (if_pos hp), ha hp⟩
  · exact ⟨b, hx.trans (if_neg hp), hb hp⟩

/-! ## The levels that a die's bubble follows (R529) -/

/-- Every level that a bubble follows is the same in both states. -/
structure SameLevels (s t : State) : Prop where
  rail : ∀ i < 24, t.railLevel i = s.railLevel i
  thermal : ∀ d < 8, t.thermal d = s.thermal d
  floor : t.flag 0x90000C 0 = s.flag 0x90000C 0
  modLevel : t.pwr.modLevel = s.pwr.modLevel
  droop : t.pwr.droop = s.pwr.droop

/-- The words that hold levels: the rails' samples, PWR_DIE and the floor of THROTTLE# (R536). -/
def LevelWords (a : Nat) : Prop := (0x900200 ≤ a ∧ a < 0x900260) ∨ (0x900300 ≤ a ∧ a < 0x900340 ∧ a % 8 = 0) ∨ a = 0x90000C

section
variable {s t u : State} {P : Nat → Prop}

theorem SameLevels.trans (h : SameLevels s t) (g : SameLevels t u) : SameLevels s u where
  rail i hi := (g.rail i hi).trans (h.rail i hi)
  thermal d hd := (g.thermal d hd).trans (h.thermal d hd)
  floor := g.floor.trans h.floor
  modLevel := g.modLevel.trans h.modLevel
  droop := g.droop.trans h.droop

theorem SameLevels.of_words (h : WordsOnly P s t) (hw : nwf s.regs = true) (hp : ∀ a, P a → ¬LevelWords a)
    (hm : t.pwr.modLevel = s.pwr.modLevel) (hd : t.pwr.droop = s.pwr.droop) : SameLevels s t where
  rail i hi := h.fld_eq hw (fun hi' => hp _ hi' (.inl (by omega))) 24 6
  thermal d hd := h.fld_eq hw (fun hd' => hp _ hd' (.inr (.inl (by omega)))) 14 6
  floor := h.flag_eq hw (fun h' => hp _ h' (.inr (.inr rfl))) 0
  modLevel := hm
  droop := hd

theorem SameLevels.bubbleCauses (h : SameLevels s t) {d : Nat} (hd : d < 8) : t.bubbleCauses d = s.bubbleCauses d := by
  simp only [State.bubbleCauses, dieRails, List.map_cons, List.map_nil, h.rail d (by omega), h.rail (8 + d) (by omega),
    h.rail (16 + d / 2) (by omega), h.rail (20 + d / 2) (by omega), h.thermal d hd, h.floor, h.modLevel, h.droop]

theorem SameLevels.bubble (h : SameLevels s t) {d : Nat} (hd : d < 8) : t.bubble d = s.bubble d := by
  rw [State.bubble, State.bubble, h.bubbleCauses hd]

/-- The bubble level is the largest of the causes, and names one that is as large. -/
theorem State.bubble_largest (s : State) (d : Nat) :
    ∃ best : Nat × Nat × Nat, s.bubble d = (min 63 best.1, best.2) ∧ (∀ x ∈ s.bubbleCauses d, x.1 ≤ best.1) ∧
      (best = (0, 0, 0) ∨ best ∈ s.bubbleCauses d) :=
  have h := foldl_largest (·.1) (s.bubbleCauses d) (0, 0, 0)
  ⟨_, rfl, h.2⟩

theorem State.bubble_lt (s : State) (d : Nat) : (s.bubble d).1 < 2 ^ 6 := by
  obtain ⟨best, hbest, -⟩ := s.bubble_largest d
  rw [hbest]
  exact Nat.lt_of_le_of_lt (Nat.min_le_left _ _) (by decide)

theorem State.bubbleCauses_code (s : State) (d : Nat) : ∀ x ∈ s.bubbleCauses d, x.2.1 < 2 ^ 3 := by
  simp [State.bubbleCauses, dieRails]

theorem State.bubble_code_lt (s : State) (d : Nat) : (s.bubble d).2.1 < 2 ^ 3 := by
  obtain ⟨best, hbest, -, hmem⟩ := s.bubble_largest d
  rw [hbest]
  rcases hmem with rfl | hmem
  · decide
  · exact s.bubbleCauses_code d best hmem

/-! ## Showing a die (R536) -/

/-- PWR_DIE of die `d` reports the bubble of `s` in `t`. -/
def ShowsBubble (s t : State) (d : Nat) : Prop :=
  t.fld (0x900300 + 8 * d) 0 6 = (s.bubble d).1 ∧ t.fld (0x900300 + 8 * d) 6 3 = (s.bubble d).2.1

theorem bubblesShown_of_shows (hl : SameLevels s t) (h : ∀ d < 8, ShowsBubble s t d) : BubblesShown t := by
  intro d hd levels
  obtain ⟨hlev, hcode⟩ := h d hd
  rw [← hl.bubble hd] at hlev hcode
  obtain ⟨best, hbest, hall, hmem⟩ := t.bubble_largest d
  have hlevels : levels = (t.bubbleCauses d).map fun x => (x.1, x.2.1) := rfl
  rw [hbest] at hlev hcode
  refine ⟨best.1, fun l hl => ?_, hlev, ?_⟩
  · obtain ⟨x, hx, rfl⟩ := List.mem_map.mp (hlevels ▸ hl)
    exact hall x hx
  · rcases hmem with hz | hmem
    · exact .inl ⟨congrArg Prod.fst hz, hcode.trans (congrArg (·.2.1) hz)⟩
    · exact .inr ⟨_, hlevels ▸ List.mem_map_of_mem hmem, rfl, hcode⟩

/-- One turn of `showDies`. -/
def State.showDie (s : State) (d : Nat) : State :=
  let (l, c, r) := s.bubble d
  let s := if s.fld (0x900300 + 8 * d) 0 6 = l then s
    else s.event 0x0A none none d (leBytes 1 l ++ leBytes 1 c ++ leBytes 1 r) (0, 0)
  ((s.setFld (0x900300 + 8 * d) 0 6 l).setFld (0x900300 + 8 * d) 6 3 c).setFld (0x900300 + 8 * d) 9 5 r

theorem State.showDies_eq_foldl (s : State) : s.showDies = (List.range 8).foldl State.showDie s := rfl

/-- The LEVEL event that showing a die may send before its word changes. -/
theorem State.showDie_eq (s : State) (d : Nat) :
    ∃ u, Reports s u ∧ WordsOnly (0xA00000 ≤ ·) s u ∧ s.showDie d = ((u.setFld (0x900300 + 8 * d) 0 6 (s.bubble d).1).setFld
      (0x900300 + 8 * d) 6 3 (s.bubble d).2.1).setFld (0x900300 + 8 * d) 9 5 (s.bubble d).2.2 :=
  ⟨_, .ite (.refl s) (s.event_reports _ _ _ _ _ _), .ite (.refl s) (s.event_words _ _ _ _ _ _ fun _ h => h), rfl⟩

theorem State.showDie_words (s : State) (d : Nat) : WordsOnly (fun a => a = 0x900300 + 8 * d ∨ 0xA00000 ≤ a) s (s.showDie d) := by
  obtain ⟨u, -, hu, he⟩ := s.showDie_eq d
  rw [he]
  exact (((hu.mono fun _ h => .inr h).setFld (.inl rfl)).setFld (.inl rfl)).setFld (.inl rfl)

theorem State.showDie_shows {d : Nat} (hw : nwf s.regs = true) (hd : d < 8) :
    ShowsBubble s (s.showDie d) d ∧ (s.showDie d).fld (0x900300 + 8 * d) 14 6 = s.fld (0x900300 + 8 * d) 14 6 := by
  obtain ⟨u, -, hu, he⟩ := s.showDie_eq d
  have w0 := hu.wf hw
  rw [ShowsBubble, he]
  generalize hb : s.bubble d = b
  have hl : b.1 < 2 ^ 6 := hb ▸ s.bubble_lt d
  have hc : b.2.1 < 2 ^ 3 := hb ▸ s.bubble_code_lt d
  have w1 := State.nwf_setFld (0x900300 + 8 * d) 0 6 b.1 w0
  have w2 := State.nwf_setFld (0x900300 + 8 * d) 6 3 b.2.1 w1
  refine ⟨⟨?_, ?_⟩, ?_⟩
  · rw [State.fld_setFld_below _ w2 (by decide) (by decide), State.fld_setFld_below _ w1 (by decide) (by decide),
      State.fld_setFld_same _ _ _ _ w0 (by decide), Nat.mod_eq_of_lt hl]
  · rw [State.fld_setFld_below _ w2 (by decide) (by decide), State.fld_setFld_same _ _ _ _ w1 (by decide), Nat.mod_eq_of_lt hc]
  · rw [State.fld_setFld_above _ w2 (by decide) (by decide), State.fld_setFld_above _ w1 (by decide) (by decide),
      State.fld_setFld_above _ w0 (by decide) (by decide), hu.fld_eq hw (by omega)]

theorem State.showDie_sameLevels {d : Nat} (hw : nwf s.regs = true) (hd : d < 8) : SameLevels s (s.showDie d) := by
  have hwords := s.showDie_words d
  have hpwr : (s.showDie d).pwr = s.pwr := by
    obtain ⟨u, hu, -, he⟩ := s.showDie_eq d
    rw [he]
    exact hu.pwr
  refine ⟨fun i hi => hwords.fld_eq hw (by omega) 24 6, fun e he => ?_, hwords.flag_eq hw (by omega) 0,
    congrArg Power.modLevel hpwr, congrArg Power.droop hpwr⟩
  rcases eq_or_ne e d with rfl | hne
  · exact (State.showDie_shows hw hd).2
  · exact hwords.fld_eq hw (by omega) 14 6

/-- Showing some dies leaves every level, shows each of them and keeps what the others show. -/
theorem State.showDie_foldl (l : List Nat) (s : State) (hw : nwf s.regs = true) (hl : ∀ d ∈ l, d < 8) :
    let t := l.foldl State.showDie s
    SameLevels s t ∧ (∀ d ∈ l, ShowsBubble s t d) ∧ ∀ d < 8, d ∉ l → ∀ lo n, t.fld (0x900300 + 8 * d) lo n = s.fld (0x900300 + 8 * d) lo n := by
  induction l generalizing s with
  | nil => exact ⟨⟨fun _ _ => rfl, fun _ _ => rfl, rfl, rfl, rfl⟩, by simp, fun _ _ _ _ _ => rfl⟩
  | cons x l ih =>
    obtain ⟨hx, hl⟩ := List.forall_mem_cons.mp hl
    have hwords := s.showDie_words x
    have hsame := State.showDie_sameLevels hw hx
    obtain ⟨hrest, hshown, hkept⟩ := ih (s.showDie x) (hwords.wf hw) hl
    simp only [List.foldl_cons]
    refine ⟨hsame.trans hrest, List.forall_mem_cons.mpr ⟨?_, fun d hd => ?_⟩, fun d hd hnot lo n => ?_⟩
    · by_cases hmem : x ∈ l
      · have := hshown x hmem
        rwa [ShowsBubble, hsame.bubble hx] at this
      · obtain ⟨hlev, hcode⟩ := (State.showDie_shows hw hx).1
        exact ⟨(hkept x hx hmem 0 6).trans hlev, (hkept x hx hmem 6 3).trans hcode⟩
    · have := hshown d hd
      rwa [ShowsBubble, hsame.bubble (hl d hd)] at this
    · rw [List.mem_cons, not_or] at hnot
      exact (hkept d hd hnot.2 lo n).trans (hwords.fld_eq hw (by omega) lo n)

theorem State.showDies_sameLevels (hw : nwf s.regs = true) : SameLevels s s.showDies :=
  (State.showDie_foldl (List.range 8) s hw fun _ => List.mem_range.mp).1

theorem State.showDies_shown (hw : nwf s.regs = true) : BubblesShown s.showDies := by
  obtain ⟨hsame, hshown, -⟩ := State.showDie_foldl (List.range 8) s hw fun _ => List.mem_range.mp
  exact bubblesShown_of_shows hsame fun d hd => hshown d (List.mem_range.mpr hd)

/-- What changes no level and no PWR_DIE keeps what the dies show. -/
theorem BubblesShown.of_words (hb : BubblesShown s) (h : WordsOnly P s t) (hw : nwf s.regs = true) (hp : ∀ a, P a → ¬LevelWords a)
    (hm : t.pwr.modLevel = s.pwr.modLevel) (hd : t.pwr.droop = s.pwr.droop) : BubblesShown t := by
  have hl := SameLevels.of_words h hw hp hm hd
  intro d hd
  have hdie (lo n : Nat) : t.fld (0x900300 + 8 * d) lo n = s.fld (0x900300 + 8 * d) lo n :=
    h.fld_eq hw (fun h' => hp _ h' (.inr (.inl (by omega)))) lo n
  simp only [hl.rail d (by omega), hl.rail (8 + d) (by omega), hl.rail (16 + d / 2) (by omega), hl.rail (20 + d / 2) (by omega),
    hl.thermal d hd, hl.floor, hl.modLevel, hl.droop, hdie]
  exact hb d hd

theorem BubblesShown.of_regs_eq (hb : BubblesShown s) (h : t.regs = s.regs) (hm : t.pwr.modLevel = s.pwr.modLevel)
    (hd : t.pwr.droop = s.pwr.droop) (hw : nwf s.regs = true) : BubblesShown t :=
  hb.of_words (P := fun _ => False) (.of_regs_eq h) hw (fun _ h => h.elim) hm hd

/-! ## The commands that move a level -/

theorem State.powerSample_shown (x : PowerIn) (hw : nwf s.regs = true) (hs : s.serves = true) : BubblesShown (s.powerSample x) := by
  have wlev := (State.sampleLevels_spec x hw).1.wf hw
  obtain ⟨hm, hwords⟩ := (s.sampleLevels x).showDies.afterLevels x
  rw [State.powerSample_serving x hs]
  refine (State.showDies_shown wlev).of_words hwords (State.showDies_words _ |>.wf wlev) (fun a ha => ?_) hm.modLevel hm.droop
  simp only [LevelWords]
  omega

theorem State.sampleInput_shown (x : PowerIn) (hw : nwf s.regs = true) (hb : BubblesShown s) : BubblesShown (s.sampleInput x) :=
  hb.of_words (State.sampleInput_words x) hw (by simp [LevelWords]) rfl rfl

theorem shown_powerSample (x : PowerIn) (hw : nwf s.regs = true) (hb : BubblesShown s) : Completes (.powerSample x) s BubblesShown := by
  refine ⟨s.powerSample x, rfl, ?_⟩
  cases hs : s.serves with
  | true => exact State.powerSample_shown x hw hs
  | false =>
    rw [State.powerSample_idle x hs]
    exact State.sampleInput_shown x hw hb

theorem shown_droopDetect (d : Nat) (hw : nwf s.regs = true) (hb : BubblesShown s) : Completes (.droopDetect d) s BubblesShown :=
  completes_ite rfl (fun _ => hb) fun _ => State.showDies_shown (State.nwf_bump _ _ hw)

theorem shown_droopRelease (d : Nat) (hw : nwf s.regs = true) : Completes (.droopRelease d) s BubblesShown :=
  ⟨_, rfl, State.showDies_shown (s := { s with pwr := _ }) hw⟩

theorem shown_throttleLow (at_ : Nat) (hw : nwf s.regs = true) (hb : BubblesShown s) : Completes (.throttleLow at_) s BubblesShown :=
  completes_ite rfl (fun _ => hb) fun _ => hb.of_regs_eq rfl rfl rfl hw

theorem shown_throttleAccept (at_ : Nat) (hw : nwf s.regs = true) (hb : BubblesShown s) : Completes (.throttleAccept at_) s BubblesShown := by
  cases hl : s.pwr.lowAt with
  | none => exact ⟨s, by simp only [exec, execThrottleAccept, hl], hb⟩
  | some l =>
    refine completes_ite (by simp only [exec, execThrottleAccept, hl]; rfl) (fun _ => hb) fun _ => State.showDies_shown ?_
    exact State.acceptThrottle_nwf hw

theorem shown_throttleHigh (at_ : Nat) (hw : nwf s.regs = true) (hb : BubblesShown s) : Completes (.throttleHigh at_) s BubblesShown := by
  refine completes_ite rfl (fun _ => hb) fun _ => ?_
  have hbump : WordsOnly (· = 0x900014) s (s.bump 0x900014 1) := s.bump_words 1 rfl
  have hcount (c : Bool) : BubblesShown (if c then s.bump 0x900014 1 else s) := by
    cases c with
    | true => exact hb.of_words hbump hw (by simp [LevelWords]) rfl rfl
    | false => exact hb
  have wcount (c : Bool) : nwf (if c then s.bump 0x900014 1 else s).regs = true := by
    cases c with
    | true => exact State.nwf_bump _ _ hw
    | false => exact hw
  exact (hcount _).of_regs_eq rfl rfl rfl (wcount _)

theorem shown_throttleRelease (at_ : Nat) (hw : nwf s.regs = true) (hb : BubblesShown s) : Completes (.throttleRelease at_) s BubblesShown := by
  cases hf : s.pwr.floorAt with
  | none => exact ⟨s, by simp only [exec, execThrottleRelease, hf], hb⟩
  | some f =>
    cases hh : s.pwr.highAt with
    | none => exact ⟨s, by simp only [exec, execThrottleRelease, hf, hh], hb⟩
    | some h =>
      refine completes_ite (by simp only [exec, execThrottleRelease, hf, hh]; rfl) (fun _ => hb) fun _ => State.showDies_shown ?_
      exact State.nwf_setFlag _ _ _ hw

end

/-! ## Thermal levels (R533) -/

/-- One turn of THERMAL_UPDATE. -/
def State.thermalTurn (s : State) (d : Nat) : State :=
  let t := s.dieTemp d
  let cur := s.thermal d
  let put (s : State) (v : Nat) : State := s.setFld (0x900300 + 8 * d) 14 6 v
  if s.pwr.held.contains d && decide (97 < t) then put s 63
  else
    let s : State := { s with pwr := { s.pwr with held := s.pwr.held.filter (· ≠ d) } }
    if 100 < t then put s (min 63 (cur + 4)) else if 97 < t then s else put s (cur - 4)

section
variable {s : State}

theorem exec_thermalUpdate (s : State) :
    exec .thermalUpdate s = if !s.serves then .next s else .next ((List.range 8).foldl State.thermalTurn s).showDies := rfl

theorem State.thermalTurn_words (s : State) (d : Nat) : WordsOnly (· = 0x900300 + 8 * d) s (s.thermalTurn d) := by
  unfold State.thermalTurn
  dsimp only
  have hfree : WordsOnly (· = 0x900300 + 8 * d) s { s with pwr := { s.pwr with held := s.pwr.held.filter (· ≠ d) } } := .of_regs_eq rfl
  exact .ite ((WordsOnly.refl s).setFld rfl) (.ite (hfree.setFld rfl) (.ite hfree (hfree.setFld rfl)))

theorem shown_thermalUpdate (hw : nwf s.regs = true) (hb : BubblesShown s) : Completes .thermalUpdate s BubblesShown := by
  refine completes_ite (exec_thermalUpdate s) (fun _ => hb) fun _ => State.showDies_shown ?_
  have hturns : WordsOnly (fun _ => True) s ((List.range 8).foldl State.thermalTurn s) :=
    .foldl (fun u d _ => (u.thermalTurn_words d).mono fun _ _ => trivial) s
  exact hturns.wf hw

end

/-- Settles O58: a command that moves a level shows every die last, and one that does not leaves both as they were. -/
theorem bubbleLevelsAreTheLargestCause : Obligations.BubbleLevelsAreTheLargestCause := by
  refine ⟨fun s x htidy hs => ⟨_, rfl, State.powerSample_shown x (State.tidy_regs htidy) hs⟩, fun s c htidy hb hc => ?_⟩
  have hw := State.tidy_regs htidy
  rcases hc with ⟨x, rfl⟩ | ⟨d, rfl⟩ | ⟨d, rfl⟩ | ⟨a, rfl⟩ | ⟨a, rfl⟩ | ⟨a, rfl⟩ | ⟨a, rfl⟩ | rfl
  · exact shown_powerSample x hw hb
  · exact shown_droopDetect d hw hb
  · exact shown_droopRelease d hw
  · exact shown_throttleLow a hw hb
  · exact shown_throttleAccept a hw hb
  · exact shown_throttleHigh a hw hb
  · exact shown_throttleRelease a hw hb
  · exact shown_thermalUpdate hw hb

end Sys2Proof.Machine
end


section
/-!
PROOFS. Power samples, the module limit, temperatures and thermal levels: O25.
-/

namespace Sys2Proof.Machine

/-! ## The windows of the input (R526) -/

section
variable {s : State}

/-- The windows of the input are those of `s` after the sample `x`. -/
def InputSampled (s : State) (x : PowerIn) (t : State) : Prop :=
  t.pwr.vin = window s.pwr.vin x.vin ∧ t.pwr.pin = window s.pwr.pin x.pin ∧ t.pwr.iin = x.iin

theorem InputSampled.metered {x : PowerIn} {t u : State} (h : InputSampled s x t) (hm : Metered t u) : InputSampled s x u := by
  rw [hm]
  exact h

theorem State.powerSample_input (x : PowerIn) (hw : nwf s.regs = true) : InputSampled s x (s.powerSample x) := by
  have hin : InputSampled s x (s.sampleInput x) := ⟨rfl, rfl, rfl⟩
  cases hs : s.serves with
  | false => rwa [State.powerSample_idle x hs]
  | true =>
    have hrails : InputSampled s x (s.sampleRails x) := hin.metered (State.sampleRails_spec x hw).1
    have hlev : InputSampled s x (s.sampleLevels x) := hrails
    have hdies : InputSampled s x (s.sampleLevels x).showDies := by
      rw [InputSampled, (s.sampleLevels x).showDies_reports.pwr]
      exact hlev
    rw [State.powerSample_serving x hs]
    exact hdies.metered ((s.sampleLevels x).showDies.afterLevels x).1

theorem completes_powerSample (x : PowerIn) (hw : nwf s.regs = true) :
    Completes (.powerSample x) s fun t =>
      t.pwr.vin = window s.pwr.vin x.vin ∧ t.pwr.pin = window s.pwr.pin x.pin ∧ t.pwr.iin = x.iin ∧
      (s.serves = true → t.pwr.modLevel = lawLevel s.pwr.modLevel x.pin (1000 * s.fld 0x900004 0 13)) := by
  obtain ⟨hvin, hpin, hiin⟩ := State.powerSample_input x hw
  exact ⟨_, rfl, hvin, hpin, hiin, fun hs =>
    (State.powerSample_afterLevels x hs hw).1.trans (State.sampleLevels_spec x hw).2.1⟩

/-! ## The module limit (R536) -/

/-- The state in which a written BAD has been cleared. -/
def State.clearBad (s : State) (v : W32) : State := if bitOf v.toNat 31 then s.setFlag 0x900004 31 false else s

theorem State.clearBad_spec (v : W32) (hw : nwf s.regs = true) :
    WordsOnly (· = 0x900004) s (s.clearBad v) ∧ RegsOnly s (s.clearBad v) ∧
    (∀ lo n, lo + n ≤ 31 → (s.clearBad v).fld 0x900004 lo n = s.fld 0x900004 lo n) ∧
    (s.clearBad v).flag 0x900004 31 = (s.flag 0x900004 31 && !bitOf v.toNat 31) := by
  unfold State.clearBad
  cases bitOf v.toNat 31 with
  | false => exact ⟨.refl s, .refl s, fun _ _ _ => rfl, (Bool.and_true _).symm⟩
  | true =>
    refine ⟨s.setFlag_words _ _ rfl, rfl, fun lo n h => State.fld_setFld_below _ hw (by decide) h, ?_⟩
    exact (State.flag_setFlag_same _ _ _ hw (by decide)).trans (Bool.and_false _).symm

theorem completes_pwrModLimitWrite (v : W32) (hw : nwf s.regs = true) (hs : s.serves = true) :
    Completes (.pwrModLimitWrite v) s fun t =>
      (if 3000 ≤ v.toNat % 2 ^ 13 ∧ v.toNat % 2 ^ 13 ≤ s.fld 0x900004 16 13
        then t.fld 0x900004 0 13 = v.toNat % 2 ^ 13 ∧ t.flag 0x900004 31 = (s.flag 0x900004 31 && !bitOf v.toNat 31)
        else t.fld 0x900004 0 13 = s.fld 0x900004 0 13 ∧ t.flag 0x900004 31 = true) ∧
      t.fld 0x900004 13 18 = s.fld 0x900004 13 18 ∧ (∀ a, a ≠ 0x900004 → t.word a = s.word a) ∧ t = { s with regs := t.regs } := by
  obtain ⟨hwords, hregs, hlow, hbad⟩ := State.clearBad_spec v hw
  have hx : exec (.pwrModLimitWrite v) s = .next ((s.clearBad v).modLimit (v.toNat % 2 ^ 13)) := if_neg (by simp [hs])
  refine ⟨_, hx, ?_⟩
  generalize s.clearBad v = u at *
  have wu := hwords.wf hw
  rw [State.modLimit, hlow 16 13 (by decide)]
  split
  · have hset : WordsOnly (· = 0x900004) u (u.setFld 0x900004 0 13 (v.toNat % 2 ^ 13)) := u.setFld_words _ _ _ rfl
    refine ⟨⟨?_, ?_⟩, ?_, (hwords.trans hset).word hw, hregs.trans rfl⟩
    · rw [State.fld_setFld_same _ _ _ _ wu (by decide), Nat.mod_mod]
    · rw [State.flag, State.fld_setFld_above _ wu (by decide) (by decide), ← State.flag, hbad]
    · rw [State.fld_setFld_above _ wu (by decide) (by decide), hlow 13 18 (by decide)]
  · have hset : WordsOnly (· = 0x900004) u (u.setFlag 0x900004 31 true) := u.setFlag_words _ _ rfl
    refine ⟨⟨?_, State.flag_setFlag_same _ _ _ wu (by decide)⟩, ?_, (hwords.trans hset).word hw, hregs.trans rfl⟩
    · rw [State.setFlag, State.fld_setFld_below _ wu (by decide) (by decide), hlow 0 13 (by decide)]
    · rw [State.setFlag, State.fld_setFld_below _ wu (by decide) (by decide), hlow 13 18 (by decide)]

end

/-! ## The sensors' readings (R486, R534) -/

theorem contains_filter_ne (l : List Nat) (a b : Nat) : (l.filter (· ≠ a)).contains b = if b = a then false else l.contains b := by
  rw [Bool.eq_iff_iff]
  split <;> simp [*]

theorem contains_cons (l : List Nat) (a b : Nat) : (a :: l).contains b = if b = a then true else l.contains b := by
  rw [Bool.eq_iff_iff]
  split <;> simp [*]

/-- What readings change: the sets of hot and tripped sensors, and what the entry and the alert of THERMAL_HOT touch. -/
structure SensorFrame (s t : State) : Prop where
  boot : t.boot = s.boot
  recov : t.recov = s.recov
  words : WordsOnly ModuleEntryWords s t
  pwr : t.pwr = { s.pwr with hot := t.pwr.hot, tripped := t.pwr.tripped }

section
variable {s t u : State}

theorem SensorFrame.refl (s : State) : SensorFrame s s := ⟨rfl, rfl, .refl s, rfl⟩

theorem SensorFrame.trans (h : SensorFrame s t) (g : SensorFrame t u) : SensorFrame s u :=
  ⟨g.boot.trans h.boot, g.recov.trans h.recov, h.words.trans g.words, by rw [g.pwr, h.pwr]⟩

theorem SensorFrame.serves (h : SensorFrame s t) : t.serves = s.serves := by
  rw [State.serves, h.boot, State.serves]

theorem SensorFrame.inRecovery (h : SensorFrame s t) (hw : nwf s.regs = true) : t.inRecovery = s.inRecovery := by
  rw [State.inRecovery, h.recov, h.words.fld_eq hw (by simp [ModuleEntryWords]), State.inRecovery]

/-- A reading takes its sensor into or out of the hot set, with the note and the alert where it enters. -/
theorem State.sensorHot_spec (s : State) (j id : Nat) (v : Int) :
    let u := if 100 < v then
        (if s.pwr.hot.contains id then s
         else (({ s with pwr := { s.pwr with hot := id :: s.pwr.hot } } : State).note 0x14 { detail := j }).alert 1)
      else { s with pwr := { s.pwr with hot := s.pwr.hot.filter (· ≠ id) } }
    SensorFrame s u ∧ u.pwr.tripped = s.pwr.tripped ∧ ∀ k, u.pwr.hot.contains k = if k = id then decide (100 < v) else s.pwr.hot.contains k := by
  dsimp only
  split
  next hv =>
    split
    next hc =>
      refine ⟨.refl s, rfl, fun k => ?_⟩
      split
      next hk => rw [hk, hc, decide_eq_true hv]
      · rfl
    · let a : State := { s with pwr := { s.pwr with hot := id :: s.pwr.hot } }
      have hpwr : ((a.note 0x14 { detail := j }).alert 1).pwr = a.pwr := a.note_pwr _ _
      refine ⟨⟨a.note_boot _ _, a.note_recov _ _, ?_, by rw [hpwr]⟩, by rw [hpwr], fun k => ?_⟩
      · have hnote := a.moduleEntry_recordWords 0x14 { detail := j }
        exact ⟨hnote.wf, hnote.word⟩
      · rw [hpwr, contains_cons, decide_eq_true hv]
  next hv =>
    refine ⟨⟨rfl, rfl, .of_regs_eq rfl, rfl⟩, rfl, fun k => ?_⟩
    rw [contains_filter_ne, decide_eq_false hv]

theorem State.sensor_spec (s : State) (j i : Nat) (v : Int) :
    let r := s.sensor j i v
    SensorFrame s r.1 ∧ r.2 = (decide (110 ≤ v) && !s.pwr.tripped.contains (4 * j + i)) ∧
      (∀ k, r.1.pwr.hot.contains k = if k = 4 * j + i then decide (100 < v) else s.pwr.hot.contains k) ∧
      ∀ k, r.1.pwr.tripped.contains k = if k = 4 * j + i then decide (110 ≤ v) else s.pwr.tripped.contains k := by
  obtain ⟨hf, htrip, hhot⟩ := s.sensorHot_spec j (4 * j + i) v
  unfold State.sensor
  dsimp only
  generalize (if 100 < v then _ else _ : State) = u at hf htrip hhot ⊢
  split
  next hv =>
    refine ⟨hf.trans ⟨rfl, rfl, .of_regs_eq rfl, rfl⟩, by rw [htrip, decide_eq_true hv, Bool.true_and], hhot, fun k => ?_⟩
    rw [contains_cons, contains_filter_ne, htrip, decide_eq_true hv]
    split <;> rfl
  next hv =>
    refine ⟨hf.trans ⟨rfl, rfl, .of_regs_eq rfl, rfl⟩, by rw [decide_eq_false hv, Bool.false_and], hhot, fun k => ?_⟩
    rw [contains_filter_ne, htrip, decide_eq_false hv]

/-- The readings of a sample one after another, with the sources whose sensors newly reach 110 °C. -/
def State.readSensors (acc : State × List Nat) (xs : List (Nat × Nat × Int)) : State × List Nat :=
  xs.foldl (fun (acc : State × List Nat) (j, i, v) =>
    let (s, hit) := acc.1.sensor j i v
    (s, if hit then acc.2 ++ [j] else acc.2)) acc

/-- The readings of one sensor, in order. -/
def readingsOf (xs : List (Nat × Nat × Int)) (j i : Nat) : List (Nat × Nat × Int) := xs.filter fun x => x.1 == j && x.2.1 == i

theorem State.readSensors_cons (acc : State × List Nat) (x : Nat × Nat × Int) (xs : List (Nat × Nat × Int)) :
    State.readSensors acc (x :: xs) =
      State.readSensors ((acc.1.sensor x.1 x.2.1 x.2.2).1, if (acc.1.sensor x.1 x.2.1 x.2.2).2 then acc.2 ++ [x.1] else acc.2) xs := rfl

theorem State.readSensors_frame (acc : State × List Nat) (xs : List (Nat × Nat × Int)) :
    SensorFrame acc.1 (State.readSensors acc xs).1 := by
  induction xs generalizing acc with
  | nil => exact .refl _
  | cons x xs ih =>
    rw [State.readSensors_cons]
    exact (acc.1.sensor_spec x.1 x.2.1 x.2.2).1.trans (ih (_, _))

/-- A sensor is hot exactly when its last reading is above 100 °C; one without a reading stays. -/
theorem State.readSensors_hot (acc : State × List Nat) (xs : List (Nat × Nat × Int)) (hx : ∀ x ∈ xs, x.2.1 < 4) {j i : Nat} (hi : i < 4) :
    (State.readSensors acc xs).1.pwr.hot.contains (4 * j + i) =
      (((readingsOf xs j i).getLast?).map fun x => decide (100 < x.2.2)).getD (acc.1.pwr.hot.contains (4 * j + i)) := by
  induction xs generalizing acc with
  | nil => rfl
  | cons x xs ih =>
    obtain ⟨hx4, hxs⟩ := List.forall_mem_cons.mp hx
    obtain ⟨-, -, hhot, -⟩ := acc.1.sensor_spec x.1 x.2.1 x.2.2
    rw [State.readSensors_cons, ih _ hxs, hhot]
    by_cases hsame : x.1 = j ∧ x.2.1 = i
    · obtain ⟨rfl, rfl⟩ := hsame
      have hcons : readingsOf (x :: xs) x.1 x.2.1 = x :: readingsOf xs x.1 x.2.1 := List.filter_cons_of_pos (by simp)
      rw [hcons, List.getLast?_cons, if_pos rfl]
      cases (readingsOf xs x.1 x.2.1).getLast? <;> rfl
    · have hcons : readingsOf (x :: xs) j i = readingsOf xs j i := List.filter_cons_of_neg (by simpa using hsame)
      rw [hcons, if_neg (by omega)]

/-- No source trips in a sample whose readings stay below 110 °C, nor in one whose sensors have all tripped before. -/
theorem State.readSensors_quiet (acc : State × List Nat) (xs : List (Nat × Nat × Int))
    (h : (∀ x ∈ xs, x.2.2 < 110) ∨ ∀ x ∈ xs, 110 ≤ x.2.2 ∧ acc.1.pwr.tripped.contains (4 * x.1 + x.2.1) = true) :
    (State.readSensors acc xs).2 = acc.2 := by
  induction xs generalizing acc with
  | nil => rfl
  | cons x xs ih =>
    obtain ⟨-, hhit, -, htrip⟩ := acc.1.sensor_spec x.1 x.2.1 x.2.2
    have hno : (acc.1.sensor x.1 x.2.1 x.2.2).2 = false := by
      rw [hhit]
      rcases h with h | h
      · rw [decide_eq_false (by have := h x List.mem_cons_self; omega), Bool.false_and]
      · rw [(h x List.mem_cons_self).2, Bool.not_true, Bool.and_false]
    rw [State.readSensors_cons, hno, if_neg (by decide)]
    refine ih _ (h.imp (fun h y hy => h y (List.mem_cons_of_mem _ hy)) fun h y hy => ?_)
    refine ⟨(h y (List.mem_cons_of_mem _ hy)).1, ?_⟩
    rw [htrip]
    split
    · exact decide_eq_true (h x List.mem_cons_self).1
    · exact (h y (List.mem_cons_of_mem _ hy)).2

theorem State.readSensors_keeps (acc : State × List Nat) (xs : List (Nat × Nat × Int)) : ∀ j ∈ acc.2, j ∈ (State.readSensors acc xs).2 := by
  induction xs generalizing acc with
  | nil => exact fun _ h => h
  | cons x xs ih =>
    intro j hj
    rw [State.readSensors_cons]
    refine ih _ j ?_
    dsimp only
    split
    · exact List.mem_append_left _ hj
    · exact hj

/-- The source of a sensor that newly reaches 110 °C trips. -/
theorem State.readSensors_trips (acc : State × List Nat) (xs : List (Nat × Nat × Int)) (hx : ∀ x ∈ xs, x.2.1 < 4) :
    ∀ x ∈ xs, 110 ≤ x.2.2 → acc.1.pwr.tripped.contains (4 * x.1 + x.2.1) = false → x.1 ∈ (State.readSensors acc xs).2 := by
  induction xs generalizing acc with
  | nil => simp
  | cons y xs ih =>
    obtain ⟨hy4, hxs⟩ := List.forall_mem_cons.mp hx
    obtain ⟨-, hhit, -, htrip⟩ := acc.1.sensor_spec y.1 y.2.1 y.2.2
    intro x hmem hv hnot
    rw [State.readSensors_cons]
    -- the reading `y` trips the source of `x` where it is of the same sensor and reaches 110 °C
    by_cases hnew : 4 * x.1 + x.2.1 = 4 * y.1 + y.2.1 ∧ 110 ≤ y.2.2
    · obtain ⟨hid, hyv⟩ := hnew
      have hsrc : x.1 = y.1 := by have := hx x hmem; omega
      rw [hid] at hnot
      refine State.readSensors_keeps _ _ _ ?_
      rw [hhit, hnot, decide_eq_true hyv, hsrc]
      exact List.mem_append_right _ List.mem_cons_self
    · rcases List.mem_cons.mp hmem with rfl | hmem
      · exact absurd ⟨rfl, hv⟩ hnew
      · refine ih _ hxs x hmem hv ?_
        rw [htrip]
        split
        next hid => exact decide_eq_false fun hyv => hnew ⟨hid, hyv⟩
        · exact hnot

end

/-! ## The sources' temperatures (R526) -/

/-- The highest reading of a source in a sample. -/
def highestOf (xs : List (Nat × Nat × Int)) (j : Nat) : Int :=
  let vs := (xs.filter fun (k, _, _) => k == j).map fun (_, _, v) => v
  vs.foldl (fun (m : Int) (v : Int) => if m < v then v else m) (vs.headD 0)

theorem highestOf_spec (xs : List (Nat × Nat × Int)) {x : Nat × Nat × Int} (hx : x ∈ xs) :
    x.2.2 ≤ highestOf xs x.1 ∧ ∃ y ∈ xs, y.1 = x.1 ∧ y.2.2 = highestOf xs x.1 := by
  unfold highestOf
  extract_lets vs
  have hmem (v : Int) : v ∈ vs ↔ ∃ y ∈ xs, y.1 = x.1 ∧ y.2.2 = v := by simp [vs]
  obtain ⟨-, hall, hin⟩ := foldl_largest id vs (vs.headD 0)
  have hxv : x.2.2 ∈ vs := (hmem _).mpr ⟨x, hx, rfl, rfl⟩
  refine ⟨hall _ hxv, (hmem _).mp ?_⟩
  rcases hin with hin | hin
  · have hhead : vs.headD 0 ∈ vs := by
      cases hvs : vs with
      | nil => rw [hvs] at hxv; exact absurd hxv List.not_mem_nil
      | cons v vs => exact List.mem_cons_self
    exact (congrArg (· ∈ vs) hin).mpr hhead
  · exact hin

section
variable {s : State}

/-- PWR_TEMP's words. -/
def TempWords (a : Nat) : Prop := 0x900400 ≤ a

theorem State.setTemp_words (j : Nat) (v : Int) : WordsOnly TempWords s (s.setTemp j v) := by
  have hp : TempWords (0x900400 + 4 * j) := Nat.le_add_right _ _
  unfold State.setTemp
  extract_lets first temps o byte b old p s1
  exact ((WordsOnly.of_regs_eq (s := s) (t := s1) rfl).setFld hp).setFld hp

theorem State.setTemp_frame (j : Nat) (v : Int) :
    s.setTemp j v = { s with regs := (s.setTemp j v).regs, pwr := { s.pwr with temps := (s.setTemp j v).pwr.temps } } := rfl

theorem State.setTemp_temps (j : Nat) (v : Int) :
    (s.setTemp j v).pwr.temps = (List.range 28).map fun i => if i = j then v else s.pwr.temps.getD i v := rfl

theorem State.temp_setTemp {j k : Nat} (v : Int) (hk : k < 28) : (s.setTemp j v).temp k = if k = j then v else s.pwr.temps.getD k v := by
  rw [State.temp, State.setTemp_temps, List.getD_eq_getElem?_getD, List.getElem?_map, List.getElem?_range hk]
  rfl

theorem State.fld_setTemp_same (j : Nat) (v : Int) (hw : nwf s.regs = true) :
    (s.setTemp j v).fld (0x900400 + 4 * j) 0 8 = (v % 256).toNat := by
  unfold State.setTemp
  extract_lets first temps o byte b old p s1
  have w1 : nwf (s1.setFld o 0 8 (byte v)).regs = true := State.nwf_setFld _ _ _ _ hw
  refine (State.fld_setFld_below _ w1 (by decide) (by decide)).trans ((State.fld_setFld_same (s := s1) _ _ _ _ hw (by decide)).trans ?_)
  exact Nat.mod_eq_of_lt (by have := Int.emod_lt_of_pos v (show (0 : Int) < 256 by decide); have := Int.emod_nonneg v (show (256 : Int) ≠ 0 by decide); simp only [byte]; omega)

/-- The temperatures of some sources set to what `m` says of each. -/
theorem State.setTemps_spec (m : Nat → Int) (l : List Nat) (s : State) (hw : nwf s.regs = true) (hl : ∀ j ∈ l, j < 28) :
    let t := l.foldl (fun (s : State) j => s.setTemp j (m j)) s
    WordsOnly TempWords s t ∧ t = { s with regs := t.regs, pwr := { s.pwr with temps := t.pwr.temps } } ∧
    (∀ j ∈ l, t.temp j = m j ∧ t.fld (0x900400 + 4 * j) 0 8 = (m j % 256).toNat) ∧
    ∀ j < 28, j ∉ l → (s.pwr.temps.length = 28 → t.temp j = s.temp j) ∧ t.fld (0x900400 + 4 * j) 0 8 = s.fld (0x900400 + 4 * j) 0 8 := by
  induction l generalizing s with
  | nil => exact ⟨.refl s, rfl, by simp, fun _ _ _ => ⟨fun _ => rfl, rfl⟩⟩
  | cons x l ih =>
    obtain ⟨hx, hl⟩ := List.forall_mem_cons.mp hl
    have hwords := State.setTemp_words (s := s) x (m x)
    obtain ⟨hrest, hframe, hset, hkept⟩ := ih (s.setTemp x (m x)) (hwords.wf hw) hl
    have hlen : (s.setTemp x (m x)).pwr.temps.length = 28 := by simp [State.setTemp_temps]
    have hone : WordsOnly (· = 0x900400 + 4 * x) s (s.setTemp x (m x)) := by
      unfold State.setTemp
      extract_lets first temps o byte b old p s1
      exact ((WordsOnly.of_regs_eq (P := (· = 0x900400 + 4 * x)) (s := s) (t := s1) rfl).setFld rfl).setFld rfl
    simp only [List.foldl_cons]
    refine ⟨hwords.trans hrest, ?_, List.forall_mem_cons.mpr ⟨?_, hset⟩, fun j hj hnot => ?_⟩
    · rw [hframe, State.setTemp_frame]
    · by_cases hmem : x ∈ l
      · exact hset x hmem
      · obtain ⟨htemp, hfld⟩ := hkept x hx hmem
        exact ⟨(htemp hlen).trans ((State.temp_setTemp _ hx).trans (if_pos rfl)), hfld.trans (State.fld_setTemp_same _ _ hw)⟩
    · rw [List.mem_cons, not_or] at hnot
      obtain ⟨htemp, hfld⟩ := hkept j hj hnot.2
      refine ⟨fun h28 => (htemp hlen).trans ?_, hfld.trans (hone.fld_eq hw (by omega) 0 8)⟩
      rw [State.temp_setTemp _ hj, if_neg hnot.1, State.temp, List.getD_eq_getElem _ _ (by omega), List.getD_eq_getElem _ _ (by omega)]

/-! ## A sample of temperatures (R486, R534) -/

/-- The sensors read and the sources set, with the sources that trip. -/
def State.readTemps (s : State) (xs : List (Nat × Nat × Int)) : State :=
  ((xs.map (·.1)).eraseDups).foldl (fun (s : State) j => s.setTemp j (highestOf xs j)) (State.readSensors (s, []) xs).1

/-- Some dies listed as held, with the alert of a trip. -/
def State.listHeld (s : State) (held : List Nat) : State :=
  ({ s with pwr := { s.pwr with held := (s.pwr.held ++ held).eraseDups } } : State).alert 2

/-- The dies of the tripped sources held at level 63. -/
def State.holdDies (s : State) (trips : List Nat) : State :=
  let held := (trips.flatMap sourceDies).eraseDups
  held.foldl (fun (s : State) d => s.setFld (0x900300 + 8 * d) 14 6 63) (s.listHeld held)

theorem State.tempSample_eq (xs : List (Nat × Nat × Int)) (hx : ∀ x ∈ xs, x.1 < 28 ∧ x.2.1 < 4) :
    s.tempSample xs =
      let trips := (State.readSensors (s, []) xs).2
      let u := match trips.head? with
        | none => s.readTemps xs
        | some j => ((s.readTemps xs).holdDies trips).showDies.computeFault none 0x15 { detail := j } []
      match xs.find? fun (_, _, v) => decide (125 ≤ v) with
      | none => u
      | some (j, _, _) => if j < 8 then u.computeFault none 0x17 { detail := j } [] else u.moduleFault 0x18 { detail := j } := by
  have hall : (xs.filter fun (j, i, _) => decide (j < 28) && decide (i < 4)) = xs :=
    List.filter_eq_self.mpr fun x h => by simpa using hx x h
  rw [State.tempSample, hall]
  rfl

theorem State.tempSample_quiet {xs : List (Nat × Nat × Int)} (hx : ∀ x ∈ xs, x.1 < 28 ∧ x.2.1 < 4)
    (hq : (State.readSensors (s, []) xs).2 = []) (hcool : ∀ x ∈ xs, x.2.2 < 125) : s.tempSample xs = s.readTemps xs := by
  have hfind : (xs.find? fun (_, _, v) => decide (125 ≤ v)) = none := List.find?_eq_none.mpr fun x h => by simpa using hcool x h
  rw [State.tempSample_eq xs hx, hq]
  simp only [List.head?_nil, hfind]

theorem State.tempSample_rail {xs : List (Nat × Nat × Int)} (hx : ∀ x ∈ xs, x.1 < 28 ∧ x.2.1 < 4)
    (hq : (State.readSensors (s, []) xs).2 = []) (hhot : ∃ x ∈ xs, 125 ≤ x.2.2) (hdie : ∀ x ∈ xs, 125 ≤ x.2.2 → x.1 < 8) :
    ∃ j, s.tempSample xs = (s.readTemps xs).computeFault none 0x17 { detail := j } [] := by
  obtain ⟨x, hmem, hv⟩ := hhot
  cases hfind : xs.find? fun (_, _, v) => decide (125 ≤ v) with
  | none => exact absurd hv (by simpa using List.find?_eq_none.mp hfind x hmem)
  | some y =>
    have hy : y.1 < 8 := hdie y (List.mem_of_find?_eq_some hfind) (by simpa using List.find?_some hfind)
    refine ⟨y.1, ?_⟩
    rw [State.tempSample_eq xs hx, hq]
    simp only [List.head?_nil, hfind, hy, if_true]

theorem State.tempSample_trip {xs : List (Nat × Nat × Int)} (hx : ∀ x ∈ xs, x.1 < 28 ∧ x.2.1 < 4)
    (hq : (State.readSensors (s, []) xs).2 ≠ []) (hcool : ∀ x ∈ xs, x.2.2 < 125) :
    ∃ j, s.tempSample xs =
      ((s.readTemps xs).holdDies (State.readSensors (s, []) xs).2).showDies.computeFault none 0x15 { detail := j } [] := by
  have hfind : (xs.find? fun (_, _, v) => decide (125 ≤ v)) = none := List.find?_eq_none.mpr fun x h => by simpa using hcool x h
  obtain ⟨j, rest, hj⟩ := List.exists_cons_of_ne_nil hq
  have hhead : (State.readSensors (s, []) xs).2.head? = some j := by rw [hj, List.head?_cons]
  refine ⟨j, ?_⟩
  rw [State.tempSample_eq xs hx]
  simp only [hhead, hfind]

/-- The words that reading temperatures may change. -/
def ReadWords (a : Nat) : Prop := ModuleEntryWords a ∨ TempWords a

theorem State.readTemps_spec (xs : List (Nat × Nat × Int)) (hw : nwf s.regs = true) (hx : ∀ x ∈ xs, x.1 < 28 ∧ x.2.1 < 4) :
    WordsOnly ReadWords s (s.readTemps xs) ∧ (s.readTemps xs).boot = s.boot ∧ (s.readTemps xs).recov = s.recov ∧
    (s.readTemps xs).pwr.hot = (State.readSensors (s, []) xs).1.pwr.hot ∧
    (∀ x ∈ xs, (s.readTemps xs).temp x.1 = highestOf xs x.1 ∧
      (s.readTemps xs).fld (0x900400 + 4 * x.1) 0 8 = (highestOf xs x.1 % 256).toNat) ∧
    (s.pwr.temps.length = 28 → ∀ j < 28, (∀ x ∈ xs, x.1 ≠ j) → (s.readTemps xs).temp j = s.temp j) := by
  have hf := State.readSensors_frame (s, []) xs
  have hsrc (j : Nat) : j ∈ (xs.map (·.1)).eraseDups ↔ ∃ x ∈ xs, x.1 = j := by
    rw [List.mem_eraseDups, List.mem_map]
  have hl : ∀ j ∈ (xs.map (·.1)).eraseDups, j < 28 := fun j hj => by
    obtain ⟨x, hxm, rfl⟩ := (hsrc j).mp hj
    exact (hx x hxm).1
  obtain ⟨hwords, hframe, hset, hkept⟩ := State.setTemps_spec (highestOf xs) _ (State.readSensors (s, []) xs).1 (hf.words.wf hw) hl
  rw [← State.readTemps.eq_1] at hwords hframe hset hkept
  have htemps : (State.readSensors (s, []) xs).1.pwr.temps = s.pwr.temps := by rw [hf.pwr]
  refine ⟨(hf.words.mono fun a h => .inl h).trans (hwords.mono fun a h => .inr h), ?_, ?_, ?_,
    fun x hxm => hset x.1 ((hsrc _).mpr ⟨x, hxm, rfl⟩), fun h28 j hj hnone => ?_⟩
  · rw [hframe]
    exact hf.boot
  · rw [hframe]
    exact hf.recov
  · rw [hframe]
  · have hnot : j ∉ (xs.map (·.1)).eraseDups := fun h => by
      obtain ⟨x, hxm, he⟩ := (hsrc j).mp h
      exact hnone x hxm he
    rw [(hkept j hj hnot).1 (htemps ▸ h28), State.temp, htemps, State.temp]

theorem State.readTemps_serves (xs : List (Nat × Nat × Int)) (hw : nwf s.regs = true) (hx : ∀ x ∈ xs, x.1 < 28 ∧ x.2.1 < 4) :
    (s.readTemps xs).serves = s.serves ∧ (s.readTemps xs).inRecovery = s.inRecovery := by
  obtain ⟨hwords, hboot, hrecov, -⟩ := State.readTemps_spec xs hw hx
  refine ⟨by rw [State.serves, hboot, State.serves], ?_⟩
  rw [State.inRecovery, hrecov, hwords.fld_eq hw (by simp [ReadWords, ModuleEntryWords, TempWords]), State.inRecovery]

/-- Holding dies sets their thermal level and lists them. -/
theorem State.holdDies_spec (trips : List Nat) (hw : nwf s.regs = true) :
    WordsOnly (0x900300 ≤ ·) s (s.holdDies trips) ∧ (s.holdDies trips).boot = s.boot ∧ (s.holdDies trips).recov = s.recov ∧
    ∀ j ∈ trips, ∀ d ∈ sourceDies j, (s.holdDies trips).pwr.held.contains d = true ∧ (s.holdDies trips).thermal d = 63 := by
  unfold State.holdDies
  extract_lets held
  have h1 : WordsOnly (0x900300 ≤ ·) s (s.listHeld held) := .of_regs_eq rfl
  have w1 := h1.wf hw
  have hfold (l : List Nat) (u : State) (wu : nwf u.regs = true) :
      let t := l.foldl (fun (s : State) d => s.setFld (0x900300 + 8 * d) 14 6 63) u
      WordsOnly (0x900300 ≤ ·) u t ∧ RegsOnly u t ∧ (∀ d, u.thermal d = 63 ∨ d ∈ l → t.thermal d = 63) := by
    induction l generalizing u with
    | nil => exact ⟨.refl u, .refl u, by simp⟩
    | cons x l ih =>
      have hx : WordsOnly (0x900300 ≤ ·) u (u.setFld (0x900300 + 8 * x) 14 6 63) := u.setFld_words _ _ _ (Nat.le_add_right _ _)
      obtain ⟨hwords, hregs, hlev⟩ := ih (u.setFld (0x900300 + 8 * x) 14 6 63) (hx.wf wu)
      refine ⟨hx.trans hwords, (show RegsOnly u (u.setFld (0x900300 + 8 * x) 14 6 63) from rfl).trans hregs, fun d hd => hlev d ?_⟩
      rcases eq_or_ne d x with rfl | hne
      · exact .inl (State.fld_setFld_same _ _ _ _ wu (by decide))
      · have hsame : (u.setFld (0x900300 + 8 * x) 14 6 63).thermal d = u.thermal d := State.fld_setFld_other _ _ _ _ _ wu (by omega)
        rw [hsame]
        exact hd.imp id fun h => (List.mem_cons.mp h).resolve_left hne
  obtain ⟨hwords, hregs, hlev⟩ := hfold held (s.listHeld held) w1
  rw [RegsOnly] at hregs
  refine ⟨h1.trans hwords, by rw [hregs]; rfl, by rw [hregs]; rfl, fun j hj d hd => ?_⟩
  have hmem : d ∈ held := List.mem_eraseDups.mpr (List.mem_flatMap.mpr ⟨j, hj, hd⟩)
  refine ⟨?_, hlev d (.inr hmem)⟩
  rw [hregs, List.contains_iff_mem]
  exact List.mem_eraseDups.mpr (List.mem_append_right _ hmem)

theorem sourceDies_lt {j d : Nat} (hj : j < 28) (hd : d ∈ sourceDies j) : d < 8 := by
  unfold sourceDies at hd
  split at hd
  · simp only [List.mem_singleton] at hd
    omega
  · split at hd <;> simp only [List.mem_cons, List.not_mem_nil, or_false] at hd <;> omega

/-- Held dies, shown. -/
theorem State.holdDies_shown (trips : List Nat) (hw : nwf s.regs = true) :
    let t := (s.holdDies trips).showDies
    WordsOnly (0x900300 ≤ ·) s t ∧ t.serves = s.serves ∧ t.inRecovery = s.inRecovery ∧
    ∀ j ∈ trips, ∀ d ∈ sourceDies j, d < 8 → t.pwr.held.contains d = true ∧ t.thermal d = 63 := by
  obtain ⟨hhold, hboot, hrecov, hheld⟩ := State.holdDies_spec trips hw
  have ww := hhold.wf hw
  have hshow := (s.holdDies trips).showDies_words.mono (Q := (0x900300 ≤ ·)) fun a ha => by simp only [DieWords] at ha; omega
  have hrep := (s.holdDies trips).showDies_reports
  have hwords := hhold.trans hshow
  refine ⟨hwords, ?_, ?_, fun j hj d hd hd8 => ?_⟩
  · rw [State.serves, hrep.boot, hboot, State.serves]
  · rw [State.inRecovery, hrep.recov, hrecov, hwords.fld_eq hw (by omega), State.inRecovery]
  · rw [hrep.pwr, (State.showDies_sameLevels ww).thermal d hd8]
    exact hheld j hj d hd

/-- A fault of class COMPUTE outside a recovery makes a reset fall due, and stands last in the module's record. -/
theorem State.computeFault_entered (code : Nat) (i : Info) (hw : nwf s.regs = true) (hs : s.serves = true) (hr : s.inRecovery = false) :
    (s.computeFault none code i []).recov.due = some [] ∧ (s.computeFault none code i []).fld 0x700040 0 8 = code % 256 ∧
    (s.computeFault none code i []).pwr = s.pwr ∧ WordsOnly ModuleEntryWords s (s.computeFault none code i []) := by
  have hwords := s.moduleEntry_recordWords code i
  rw [State.computeFault_due _ _ _ hw hs hr]
  exact ⟨rfl, State.moduleEntry_lastCode code i hw, s.moduleEntry_pwr code i, hwords.wf, hwords.word⟩

theorem exec_tempSample (xs : List (Nat × Nat × Int)) (hb : s.boot.state ≠ .standby) : exec (.tempSample xs) s = .next (s.tempSample xs) :=
  if_neg hb

theorem completes_tempSample_cool {xs : List (Nat × Nat × Int)} (hw : nwf s.regs = true) (hb : s.boot.state ≠ .standby)
    (hx : ∀ x ∈ xs, x.1 < 28 ∧ x.2.1 < 4) (hcool : ∀ x ∈ xs, x.2.2 < 110) :
    Completes (.tempSample xs) s fun t =>
      (∀ x ∈ xs, x.2.2 ≤ t.temp x.1 ∧ (∃ y ∈ xs, y.1 = x.1 ∧ y.2.2 = t.temp x.1) ∧ t.fld (0x900400 + 4 * x.1) 0 8 = (t.temp x.1 % 256).toNat) ∧
      (s.pwr.temps.length = 28 → ∀ j < 28, (∀ x ∈ xs, x.1 ≠ j) → t.temp j = s.temp j) ∧
      (∀ (j i : Nat) (v : Int), i < 4 → (xs.filter fun x => x.1 == j && x.2.1 == i).getLast? = some (j, i, v) →
        t.pwr.hot.contains (4 * j + i) = decide (100 < v)) ∧
      (∀ (j i : Nat), i < 4 → (∀ x ∈ xs, ¬(x.1 = j ∧ x.2.1 = i)) → t.pwr.hot.contains (4 * j + i) = s.pwr.hot.contains (4 * j + i)) ∧
      t.recov = s.recov ∧ t.boot = s.boot := by
  obtain ⟨-, hboot, hrecov, hhot, htemp, hkept⟩ := State.readTemps_spec xs hw hx
  have hq := State.readSensors_quiet (s, []) xs (.inl hcool)
  have hsensor (j i : Nat) (hi : i < 4) := State.readSensors_hot (s, []) xs (fun x h => (hx x h).2) (j := j) hi
  refine ⟨_, (exec_tempSample xs hb).trans (congrArg _ (State.tempSample_quiet hx hq fun x h => (hcool x h).trans (by decide))),
    fun x hxm => ?_, hkept, fun j i v hi hlast => ?_, fun j i hi hnone => ?_, hrecov, hboot⟩
  · rw [(htemp x hxm).1]
    exact ⟨(highestOf_spec xs hxm).1, (highestOf_spec xs hxm).2, (htemp x hxm).2⟩
  · rw [hhot, hsensor j i hi, readingsOf, hlast]
    rfl
  · have hempty : readingsOf xs j i = [] := List.filter_eq_nil_iff.mpr fun x h => by simpa using hnone x h
    rw [hhot, hsensor j i hi, hempty]
    rfl

theorem completes_tempSample_rail {xs : List (Nat × Nat × Int)} (hw : nwf s.regs = true) (hb : s.boot.state ≠ .standby)
    (hx : ∀ x ∈ xs, x.1 < 28 ∧ x.2.1 < 4) (hs : s.serves = true) (hr : s.inRecovery = false)
    (htrip : ∀ x ∈ xs, 110 ≤ x.2.2 ∧ s.pwr.tripped.contains (4 * x.1 + x.2.1) = true) (hhot : ∃ x ∈ xs, 125 ≤ x.2.2)
    (hdie : ∀ x ∈ xs, 125 ≤ x.2.2 → x.1 < 8) :
    Completes (.tempSample xs) s fun t => t.recov.due = some [] ∧ t.fld 0x700040 0 8 = 0x17 := by
  obtain ⟨hwords, -⟩ := State.readTemps_spec xs hw hx
  obtain ⟨hserves, hrec⟩ := State.readTemps_serves xs hw hx
  obtain ⟨j, hj⟩ := State.tempSample_rail hx (State.readSensors_quiet (s, []) xs (.inr htrip)) hhot hdie
  obtain ⟨hdue, hlast, -⟩ := State.computeFault_entered 0x17 { detail := j } (hwords.wf hw) (hserves.trans hs) (hrec.trans hr)
  exact ⟨_, (exec_tempSample xs hb).trans (congrArg _ hj), hdue, hlast⟩

theorem completes_tempSample_trip {xs : List (Nat × Nat × Int)} (hw : nwf s.regs = true) (hb : s.boot.state ≠ .standby)
    (hx : ∀ x ∈ xs, x.1 < 28 ∧ x.2.1 < 4) (hs : s.serves = true) (hr : s.inRecovery = false) (hcool : ∀ x ∈ xs, x.2.2 < 125)
    (htrip : ∃ x ∈ xs, 110 ≤ x.2.2 ∧ s.pwr.tripped.contains (4 * x.1 + x.2.1) = false) :
    Completes (.tempSample xs) s fun t => t.recov.due = some [] ∧ t.fld 0x700040 0 8 = 0x15 ∧
      ∀ x ∈ xs, 110 ≤ x.2.2 → s.pwr.tripped.contains (4 * x.1 + x.2.1) = false →
        ∀ d ∈ sourceDies x.1, t.pwr.held.contains d = true ∧ t.thermal d = 63 := by
  have htrips := State.readSensors_trips (s, []) xs fun x h => (hx x h).2
  obtain ⟨x, hxm, hv, hnot⟩ := htrip
  obtain ⟨j, hj⟩ := State.tempSample_trip hx (List.ne_nil_of_mem (htrips x hxm hv hnot)) hcool
  obtain ⟨hwords, -⟩ := State.readTemps_spec xs hw hx
  obtain ⟨hserves, hrec⟩ := State.readTemps_serves xs hw hx
  have wu := hwords.wf hw
  obtain ⟨hshow, hshowServes, hshowRec, hheld⟩ := State.holdDies_shown (State.readSensors (s, []) xs).2 wu
  obtain ⟨hdue, hlast, hpwr, hentry⟩ :=
    State.computeFault_entered 0x15 { detail := j } (hshow.wf wu) (hshowServes.trans (hserves.trans hs)) (hshowRec.trans (hrec.trans hr))
  refine ⟨_, (exec_tempSample xs hb).trans (congrArg _ hj), hdue, hlast, fun y hym hyv hynot d hd => ?_⟩
  have hd8 := sourceDies_lt (hx y hym).1 hd
  obtain ⟨hcontains, hlevel⟩ := hheld y.1 (htrips y hym hyv hynot) d hd hd8
  rw [hpwr]
  exact ⟨hcontains, (hentry.fld_eq (hshow.wf wu) (by simp only [ModuleEntryWords]; omega) 14 6).trans hlevel⟩

/-! ## Thermal levels (R533, R534) -/

theorem State.dieTemp_eq {d : Nat} {T : Int}
    (hmem : ∃ j ∈ [d, 8 + d / 2, 12 + 4 * (d / 2), 13 + 4 * (d / 2), 14 + 4 * (d / 2), 15 + 4 * (d / 2)], s.temp j = T)
    (hmax : ∀ j ∈ [d, 8 + d / 2, 12 + 4 * (d / 2), 13 + 4 * (d / 2), 14 + 4 * (d / 2), 15 + 4 * (d / 2)], s.temp j ≤ T) :
    s.dieTemp d = T := by
  have hjs : [d, 8 + d / 2] ++ (List.range 4).map (fun i => 12 + 4 * (d / 2) + i) =
      [d, 8 + d / 2, 12 + 4 * (d / 2), 13 + 4 * (d / 2), 14 + 4 * (d / 2), 15 + 4 * (d / 2)] := by
    show [d, 8 + d / 2, 12 + 4 * (d / 2) + 0, 12 + 4 * (d / 2) + 1, 12 + 4 * (d / 2) + 2, 12 + 4 * (d / 2) + 3] = _
    simp only [List.cons.injEq, and_true, true_and]
    omega
  unfold State.dieTemp
  rw [hjs]
  generalize hl : [d, 8 + d / 2, 12 + 4 * (d / 2), 13 + 4 * (d / 2), 14 + 4 * (d / 2), 15 + 4 * (d / 2)] = js at *
  have hd : d ∈ js := hl ▸ List.mem_cons_self
  obtain ⟨-, hall, hin⟩ := foldl_largest id (js.map s.temp) (s.temp d)
  obtain ⟨j, hj, rfl⟩ := hmem
  refine le_antisymm ?_ (hall _ (List.mem_map_of_mem hj))
  rcases hin with hin | hin
  · exact hin.le.trans (hmax d hd)
  · obtain ⟨k, hk, he⟩ := List.mem_map.mp hin
    exact he ▸ hmax k hk

/-- A die's thermal level after an update, from the level before, the temperature and whether a trip holds the die. -/
def thermalNext (held : Bool) (T : Int) (lev : Nat) : Nat :=
  if held && decide (97 < T) then 63 else if 100 < T then min 63 (lev + 4) else if 97 < T then lev else lev - 4

theorem State.thermal_lt (d : Nat) : s.thermal d < 64 := Nat.mod_lt _ (by decide)

theorem State.thermalTurn_spec (d : Nat) (hw : nwf s.regs = true) :
    (s.thermalTurn d).thermal d = thermalNext (s.pwr.held.contains d) (s.dieTemp d) (s.thermal d) ∧
    (s.thermalTurn d).pwr.temps = s.pwr.temps ∧
    ∀ e, (s.thermalTurn d).pwr.held.contains e =
      if e = d then s.pwr.held.contains d && decide (97 < s.dieTemp d) else s.pwr.held.contains e := by
  have hlt := State.thermal_lt (s := s) d
  have hput (u : State) (wu : nwf u.regs = true) (v : Nat) (hv : v < 64) : (u.setFld (0x900300 + 8 * d) 14 6 v).thermal d = v :=
    (State.fld_setFld_same _ _ _ _ wu (by decide)).trans (Nat.mod_eq_of_lt hv)
  unfold State.thermalTurn thermalNext
  dsimp only
  split
  next hheld =>
    refine ⟨hput s hw 63 (by decide), rfl, fun e => ?_⟩
    split
    next he =>
      rw [he, hheld]
      exact (Bool.and_eq_true_iff.mp hheld).1
    · rfl
  next hheld =>
    let u : State := { s with pwr := { s.pwr with held := s.pwr.held.filter (· ≠ d) } }
    have hfree (e : Nat) : u.pwr.held.contains e =
        if e = d then s.pwr.held.contains d && decide (97 < s.dieTemp d) else s.pwr.held.contains e := by
      rw [Bool.not_eq_true] at hheld
      rw [hheld]
      exact contains_filter_ne _ _ _
    split
    · exact ⟨hput u hw _ (by omega), rfl, hfree⟩
    · split
      · exact ⟨rfl, rfl, hfree⟩
      · exact ⟨hput u hw _ (by omega), rfl, hfree⟩

/-- The updates of distinct dies, one after another. -/
theorem State.thermalTurns_spec (l : List Nat) (s : State) (hw : nwf s.regs = true) (hl : l.Nodup) :
    let t := l.foldl State.thermalTurn s
    WordsOnly (0x900300 ≤ ·) s t ∧
    (∀ d ∈ l, t.thermal d = thermalNext (s.pwr.held.contains d) (s.dieTemp d) (s.thermal d) ∧
      t.pwr.held.contains d = (s.pwr.held.contains d && decide (97 < s.dieTemp d))) ∧
    ∀ d, d ∉ l → t.thermal d = s.thermal d ∧ t.pwr.held.contains d = s.pwr.held.contains d := by
  induction l generalizing s with
  | nil => exact ⟨.refl s, by simp, fun _ _ => ⟨rfl, rfl⟩⟩
  | cons x l ih =>
    obtain ⟨hx, hl⟩ := List.nodup_cons.mp hl
    have hword := s.thermalTurn_words x
    obtain ⟨hlev, htemps, hheld⟩ := State.thermalTurn_spec x hw
    obtain ⟨hrest, hdone, hkept⟩ := ih (s.thermalTurn x) (hword.wf hw) hl
    have htemp (d : Nat) : (s.thermalTurn x).dieTemp d = s.dieTemp d := by
      have h (j : Nat) : (s.thermalTurn x).temp j = s.temp j := by rw [State.temp, htemps, State.temp]
      simp only [State.dieTemp, funext h]
    have hother (d : Nat) (hd : d ≠ x) : (s.thermalTurn x).thermal d = s.thermal d := hword.fld_eq hw (by omega) 14 6
    simp only [List.foldl_cons]
    refine ⟨(hword.mono fun a ha => by omega).trans hrest, List.forall_mem_cons.mpr ⟨?_, fun d hd => ?_⟩, fun d hd => ?_⟩
    · obtain ⟨hk, hc⟩ := hkept x hx
      rw [hk, hc, hlev, hheld, if_pos rfl]
      exact ⟨rfl, rfl⟩
    · have hne : d ≠ x := fun h => hx (h ▸ hd)
      obtain ⟨hk, hc⟩ := hdone d hd
      rw [hk, hc, htemp, hother d hne, hheld, if_neg hne]
      exact ⟨rfl, rfl⟩
    · rw [List.mem_cons, not_or] at hd
      obtain ⟨hk, hc⟩ := hkept d hd.2
      rw [hk, hc, hother d hd.1, hheld, if_neg hd.1]
      exact ⟨rfl, rfl⟩

theorem completes_thermalUpdate (hw : nwf s.regs = true) (hs : s.serves = true) :
    Completes .thermalUpdate s fun t => ∀ d < 8,
      t.thermal d = thermalNext (s.pwr.held.contains d) (s.dieTemp d) (s.thermal d) ∧
      t.pwr.held.contains d = (s.pwr.held.contains d && decide (97 < s.dieTemp d)) := by
  obtain ⟨hwords, hdone, -⟩ := State.thermalTurns_spec (List.range 8) s hw List.nodup_range
  refine ⟨_, (exec_thermalUpdate s).trans (if_neg (by simp [hs])), fun d hd => ?_⟩
  obtain ⟨hlev, hheld⟩ := hdone d (List.mem_range.mpr hd)
  exact ⟨((State.showDies_sameLevels (hwords.wf hw)).thermal d hd).trans hlev, by rw [State.showDies_reports _ |>.pwr]; exact hheld⟩

end

/-- Settles O25: a sample's windows stand before its levels, a written BAD is cleared first, a sensor's last reading decides whether it is
hot, and a die's thermal level follows the highest of its temperatures. -/
theorem powerSamplesLimitsAndThermalLevels : Obligations.PowerSamplesLimitsAndThermalLevels := by
  intro s htidy
  have hw := State.tidy_regs htidy
  refine ⟨fun x => completes_powerSample x hw, fun v => ⟨fun hs => ?_, fun hs => completes_pwrModLimitWrite v hw hs⟩,
    fun xs hb hx => ⟨fun hcool => completes_tempSample_cool hw hb hx hcool,
      fun hs hr htrip hhot hdie => completes_tempSample_rail hw hb hx hs hr htrip hhot hdie,
      fun hs hr hcool htrip => completes_tempSample_trip hw hb hx hs hr hcool htrip⟩, fun hs => ?_, fun hs => ?_⟩
  · exact ⟨s, if_pos (by simp [hs]), rfl⟩
  · exact ⟨s, (exec_thermalUpdate s).trans (if_pos (by simp [hs])), rfl⟩
  · obtain ⟨t, hx, ht⟩ := completes_thermalUpdate hw hs
    refine ⟨t, hx, ?_⟩
    intro d T js hmem hmax
    have hT : s.dieTemp d = T := State.dieTemp_eq hmem hmax
    obtain ⟨hlev, hheld⟩ := ht d d.isLt
    rw [hT] at hlev hheld
    refine ⟨hlev.trans ?_, hheld⟩
    simp only [thermalNext, Bool.and_eq_true, decide_eq_true_eq]

end Sys2Proof.Machine
end


section
/-!
PROOFS. The board's ports: JTAG, the management bus, Vitrine's restart and trace frames: O27.
-/

namespace Sys2Proof.Machine

/-! ## Numbers without common bits -/

theorem add_eq_or_of_and_eq_zero {x y : Nat} (h : x &&& y = 0) : x + y = x ||| y := by
  have hx : x < 2 ^ (x + y) := Nat.lt_of_le_of_lt (Nat.le_add_right x y) Nat.lt_two_pow_self
  have hy : y < 2 ^ (x + y) := Nat.lt_of_le_of_lt (Nat.le_add_left y x) Nat.lt_two_pow_self
  have hpow : 2 ^ (x + y + 1) = 2 ^ (x + y) + 2 ^ (x + y) := by rw [Nat.pow_succ, Nat.mul_two]
  have hbv := BitVec.add_eq_or_of_and_eq_zero (BitVec.ofNat (x + y + 1) x) (BitVec.ofNat (x + y + 1) y)
    (by rw [← BitVec.ofNat_and, h])
  have hnat := congrArg BitVec.toNat hbv
  rw [BitVec.toNat_add, BitVec.toNat_or, BitVec.toNat_ofNat, BitVec.toNat_ofNat,
    Nat.mod_eq_of_lt (show x < 2 ^ (x + y + 1) by omega), Nat.mod_eq_of_lt (show y < 2 ^ (x + y + 1) by omega),
    Nat.mod_eq_of_lt (show x + y < 2 ^ (x + y + 1) by omega)] at hnat
  exact hnat

/-- Taking the common bits away from a number clears exactly those. -/
theorem sub_and_eq_ldiff (a k : Nat) : a - (a &&& k) = Nat.ldiff a k := by
  have hdisj : (a &&& k) &&& Nat.ldiff a k = 0 := Nat.eq_of_testBit_eq fun i => by
    cases ha : a.testBit i <;> cases hk : k.testBit i <;> simp [Nat.testBit_ldiff, ha, hk]
  have hall : (a &&& k) ||| Nat.ldiff a k = a := Nat.eq_of_testBit_eq fun i => by
    cases ha : a.testBit i <;> cases hk : k.testBit i <;> simp [Nat.testBit_ldiff, ha, hk]
  have hsum := add_eq_or_of_and_eq_zero hdisj
  omega

theorem bitOf_sub_and (a k i : Nat) : bitOf (a - (a &&& k)) i = (bitOf a i && !bitOf k i) := by
  rw [sub_and_eq_ldiff, bitOf_eq_testBit, bitOf_eq_testBit, bitOf_eq_testBit, Nat.testBit_ldiff]

theorem ne_zero_iff_bitOf (n : Nat) : (n != 0) = true ↔ ∃ i, bitOf n i = true := by
  rw [bne_iff_ne]
  refine ⟨fun h => ?_, fun ⟨i, hi⟩ h => ?_⟩
  · obtain ⟨i, hi⟩ := Nat.exists_testBit_of_ne_zero h
    exact ⟨i, (bitOf_eq_testBit n i).trans hi⟩
  · rw [h, bitOf_eq_testBit, Nat.zero_testBit] at hi
    exact absurd hi (by decide)

/-! ## The hottest source (R577) -/

/-- The first of the largest of a list whose places count from `n`, beside a value `m` from before it. -/
theorem foldl_firstLargest (l : List Int) (n : Nat) (m : Int × Nat) :
    let r := (l.zipIdx n).foldl (fun (m : Int × Nat) x => if m.1 < x.1 then x else m) m
    (r = m ∧ ∀ (k : Nat) (v : Int), l[k]? = some v → v ≤ m.1) ∨
      ∃ i, l[i]? = some r.1 ∧ r.2 = n + i ∧ m.1 < r.1 ∧
        ∀ (k : Nat) (v : Int), l[k]? = some v → v ≤ r.1 ∧ (k < i → v < r.1) := by
  induction l generalizing n m with
  | nil => exact .inl ⟨rfl, by simp⟩
  | cons x l ih =>
    simp only [List.zipIdx_cons, List.foldl_cons]
    have hrest := ih (n + 1) (if m.1 < x then (x, n) else m)
    generalize (l.zipIdx (n + 1)).foldl _ _ = r at hrest ⊢
    rcases hrest with ⟨hr, hall⟩ | ⟨i, hi, hn, hlt, hall⟩
    · subst hr
      split at hall
      next hx =>
        rw [if_pos hx]
        refine .inr ⟨0, rfl, rfl, hx, fun k v hv => ⟨?_, fun hk => absurd hk (Nat.not_lt_zero k)⟩⟩
        cases k with
        | zero => exact (Option.some.inj hv).ge
        | succ k => exact hall k v hv
      next hx =>
        rw [if_neg hx]
        refine .inl ⟨rfl, fun k v hv => ?_⟩
        cases k with
        | zero => exact (Option.some.inj hv).ge.trans (not_lt.mp hx)
        | succ k => exact hall k v hv
    · have hxr : x < r.1 ∧ m.1 < r.1 := by split at hlt <;> omega
      refine .inr ⟨i + 1, hi, by omega, hxr.2, fun k v hv => ?_⟩
      cases k with
      | zero =>
        have hv : x = v := Option.some.inj hv
        omega
      | succ k => exact ⟨(hall k v hv).1, fun hk => (hall k v hv).2 (by omega)⟩

theorem hottest_spec {ts : List Int} (h : ts ≠ []) :
    ∃ T, ts[hottest ts]? = some T ∧ ∀ (k : Nat) (v : Int), ts[k]? = some v → v ≤ T ∧ (k < hottest ts → v < T) := by
  obtain ⟨x, l, rfl⟩ := List.exists_cons_of_ne_nil h
  have hfold := foldl_firstLargest (x :: l) 0 (x, 0)
  unfold hottest
  simp only [List.headD_cons]
  generalize ((x :: l).zipIdx).foldl _ _ = r at hfold ⊢
  rcases hfold with ⟨rfl, hall⟩ | ⟨i, hi, hn, -, hall⟩
  · exact ⟨x, rfl, fun k v hv => ⟨hall k v hv, fun hk => absurd hk (Nat.not_lt_zero k)⟩⟩
  · rw [Nat.zero_add] at hn
    rw [hn]
    exact ⟨r.1, hi, hall⟩

/-! ## Fields of a record put together from parts -/

theorem fieldAt_append_right (a b : List Byte) (o n : Nat) : fieldAt (a ++ b) (a.length + o) n = fieldAt b o n := by
  rw [fieldAt, List.drop_length_add_append, fieldAt]

theorem fieldAt_append_left (a b : List Byte) {o n : Nat} (h : o + n ≤ a.length) : fieldAt (a ++ b) o n = fieldAt a o n := by
  rw [fieldAt, List.drop_append_of_le_length (by omega), List.take_append_of_le_length (by rw [List.length_drop]; omega), fieldAt]

theorem fieldAt_leBytes (n x : Nat) : fieldAt (leBytes n x) 0 n = x % 256 ^ n := by
  rw [fieldAt, List.drop_zero, List.take_of_length_le (length_leBytes n x).le, leNat_leBytes]

theorem crcBit_lt {c : Nat} (h : c < 2 ^ 32) : crcBit c < 2 ^ 32 := by
  unfold crcBit
  split
  · exact Nat.xor_lt_two_pow (by omega) (by decide)
  · omega

theorem crcByte_lt {c : Nat} (b : Byte) (h : c < 2 ^ 32) : crcByte c b < 2 ^ 32 := by
  have hb : c ^^^ b.toNat < 2 ^ 32 := Nat.xor_lt_two_pow h (b.isLt.trans (by decide))
  exact crcBit_lt (crcBit_lt (crcBit_lt (crcBit_lt (crcBit_lt (crcBit_lt (crcBit_lt (crcBit_lt hb)))))))

theorem crc32c_lt (bs : List Byte) : crc32c bs < 2 ^ 32 :=
  Nat.xor_lt_two_pow (foldl_inv (Q := (· < 2 ^ 32)) (fun _ b h => crcByte_lt b h) (by decide)) (by decide)

/-! ## JTAG (R547, R571) -/

section
variable {s : State}

/-- A scan with BOARD_TEST set: the levels leave, with one free value for those that no pin of the model holds. -/
theorem State.boundaryScan_boardTest (ir : Nat) (bits : List Bool) (h : s.pins.boardTest = true) :
    s.boundaryScan ir bits = { s with
      freeCtr := s.freeCtr + 1, outbox := s.outbox ++ [.jtag s.levels.1],
      aoc := { s.aoc with jtag := { ir := ir, cells := (bits ++ List.replicate 16 true).take 16 } } } := by
  have hno : ¬((!s.pins.boardTest) = true) := by simp [h]
  exact if_neg hno

theorem State.levels_spec (h : s.pins.boardTest = true) :
    let drive (c : Nat) (own : Bool) : Bool := if s.aoc.jtag.ir = 0 then s.aoc.jtag.cells.getD c own else own
    s.levels.1.length = 16 ∧ s.levels.1.take 4 = [!s.pins.mated, !s.pins.perst, drive 2 s.pins.pwrgd, !s.pins.throttle] ∧
    s.levels.1[10]? = some s.pins.boardTest ∧ s.levels.1.drop 13 = [drive 13 (!s.pins.smbAlert), s.pins.tickIn, drive 15 s.pins.tickOut] := by
  have hdrive (c : Nat) (own : Bool) : s.pinLevel c own = if s.aoc.jtag.ir = 0 then s.aoc.jtag.cells.getD c own else own := by
    simp only [State.pinLevel, h, Bool.true_and, beq_iff_eq]
  simp only [← hdrive]
  exact ⟨rfl, rfl, rfl, rfl⟩

theorem getD_loadedCells {bits : List Bool} {k : Nat} (hk : k < bits.length) (h16 : k < 16) (own : Bool) :
    ((bits ++ List.replicate 16 true).take 16).getD k own = bits.getD k own := by
  rw [List.getD_eq_getElem?_getD, List.getElem?_take_of_lt h16, List.getElem?_append_left hk, List.getD_eq_getElem?_getD]

/-- Under EXTEST the outputs follow the cells. -/
theorem State.boundaryScan_pinLevel {bits : List Bool} {k : Nat} (h : s.pins.boardTest = true) (hk : k < bits.length) (h16 : k < 16)
    (own : Bool) : (s.boundaryScan 0 bits).pinLevel k own = bits.getD k own := by
  rw [State.boundaryScan_boardTest 0 bits h, ← getD_loadedCells hk h16 own]
  simp only [State.pinLevel, h, Bool.true_and, beq_self_eq_true, if_true]

theorem State.boundaryScan_off (ir : Nat) (bits : List Bool) (h : s.pins.boardTest = false) : s.boundaryScan ir bits = s :=
  if_pos (by simp [h])

/-- IDCODE's 32 bits, least significant first. -/
theorem idcode_bits : ((List.range 32).map (bitOf idcode)).length = 32 ∧
    ((((List.range 32).map (bitOf idcode)).zipIdx.map fun (b, i) => b.toNat * 2 ^ i).sum = 0x04816735) := by
  decide +kernel

theorem completes_jtagBypass {code : Nat} (bits : List Bool) (h : s.pins.boardTest = true) (hlo : 2 < code) (hhi : code < 16) :
    Completes (.jtagBypass code bits) s fun t => ∃ out : List Bool,
      t = { s with outbox := s.outbox ++ [.jtag out], aoc := { s.aoc with jtag := { s.aoc.jtag with ir := 0xF } } } ∧
      out.length = bits.length ∧ ∀ k < bits.length, out.getD k true = if k = 0 then false else bits.getD (k - 1) true := by
  refine ⟨_, if_neg (by simp only [h, Bool.not_true, Bool.false_eq_true, false_or]; omega), (false :: bits).take bits.length, rfl, ?_,
    fun k hk => ?_⟩
  · simp
  · rw [List.getD_eq_getElem?_getD, List.getElem?_take_of_lt hk]
    cases k with
    | zero => rfl
    | succ k => rw [List.getElem?_cons_succ, if_neg (Nat.succ_ne_zero k), List.getD_eq_getElem?_getD, Nat.add_sub_cancel]

/-! ## The management bus (R576, R577) -/

theorem State.smbRead_live (data : List Byte) (h : s.pins.v48 = true) : s.smbRead data = { s with outbox := s.outbox ++ [.smb data] } :=
  if_pos h

theorem State.smbRead_dead (data : List Byte) (h : s.pins.v48 = false) : s.smbRead data = { s with outbox := s.outbox ++ [.smbNack] } :=
  if_neg (by simp [State.smbLive, h])

theorem completes_smbTemp_none (hv : s.pins.v48 = true) (hts : s.pwr.temps = []) :
    Completes .smbTemp s fun t => t = { s with outbox := s.outbox ++ [.smb [0x80, 0, 0, 0]] } := by
  refine ⟨_, rfl, ?_⟩
  rw [hts, State.smbRead_live _ hv]
  rfl

theorem completes_smbTemp (hv : s.pins.v48 = true) (hts : s.pwr.temps ≠ []) :
    ∃ (j : Nat) (T : Int), s.pwr.temps[j]? = some T ∧ (∀ k v, s.pwr.temps[k]? = some v → v ≤ T ∧ (k < j → v < T)) ∧
      Completes .smbTemp s fun t => t = { s with outbox := s.outbox ++
        [.smb (leBytes 1 (T % 256).toNat ++ leBytes 1 j ++ leBytes 1 (s.pwr.temps.countP fun v => decide (100 < v)) ++ leBytes 1 0)] } := by
  obtain ⟨T, hT, hall⟩ := hottest_spec hts
  refine ⟨hottest s.pwr.temps, T, hT, hall, _, rfl, ?_⟩
  have hne : s.pwr.temps.isEmpty = false := by simpa using hts
  have htop : s.pwr.temps.getD (hottest s.pwr.temps) 0 = T := by rw [List.getD_eq_getElem?_getD, hT]; rfl
  rw [State.smbRead_live _ hv, hne, htop, List.countP_eq_length_filter]
  rfl

theorem completes_smbAlertClr (k : Nat) (hv : s.pins.v48 = true) :
    Completes (.smbAlertClr k) s fun t => (∀ i, bitOf t.aoc.alert i = (bitOf s.aoc.alert i && !bitOf k i)) ∧
      (t.pins.smbAlert = true ↔ ∃ i, bitOf s.aoc.alert i = true ∧ bitOf k i = false) ∧
      t = { s with aoc := { s.aoc with alert := t.aoc.alert }, pins := { s.pins with smbAlert := t.pins.smbAlert } } := by
  refine ⟨_, if_neg (by simp [State.smbLive, hv]), fun i => bitOf_sub_and _ _ i, ?_, rfl⟩
  refine (ne_zero_iff_bitOf _).trans (exists_congr fun i => ?_)
  rw [bitOf_sub_and, Bool.and_eq_true, Bool.not_eq_true']

theorem completes_smb_dead (k : Nat) (hv : s.pins.v48 = false) :
    ∀ c ∈ [Instr.smbStatus, .smbPower, .smbTemp, .smbIdent, .smbPosition, .smbAlert, .smbAlertClr k],
      Completes c s fun t => t = { s with outbox := s.outbox ++ [.smbNack] } := by
  have hclr : exec (.smbAlertClr k) s = .next (s.send .smbNack) := if_pos (by simp [State.smbLive, hv])
  simp only [List.forall_mem_cons, List.not_mem_nil, false_imp_iff, implies_true, and_true]
  exact ⟨⟨_, rfl, State.smbRead_dead _ hv⟩, ⟨_, rfl, State.smbRead_dead _ hv⟩, ⟨_, rfl, State.smbRead_dead _ hv⟩,
    ⟨_, rfl, State.smbRead_dead _ hv⟩, ⟨_, rfl, State.smbRead_dead _ hv⟩, ⟨_, rfl, State.smbRead_dead _ hv⟩, _, hclr, rfl⟩

/-! ## Vitrine (R544, R546) -/

/-- A boundary after VIT_RESTART empties the count and clears STOPPED. -/
theorem State.vitBoundary_restart (hw : nwf s.regs = true) (hr : s.vit.restart = true) :
    s.vitBoundary.quad 0xA00010 = 0 ∧ s.vitBoundary.flag 0xA0000C 0 = false ∧ s.vitBoundary.hbm = s.hbm ∧ s.vitBoundary.vit.restart = false := by
  let u := (s.setQuad 0xA00010 0).setFlag 0xA0000C 0 false
  have w1 : nwf (s.setQuad 0xA00010 0).regs = true := State.nwf_setQuad _ _ hw
  have hset (x : State) (wx : nwf x.regs = true) : (x.setFlag 0xA0000C 0 false).quad 0xA00010 = x.quad 0xA00010 := by
    rw [State.quad, State.word_setFlag_other _ _ wx (by decide), State.word_setFlag_other _ _ wx (by decide), State.quad]
  have hquad : u.quad 0xA00010 = 0 := (hset _ w1).trans (State.quad_setQuad_same _ _ hw)
  have hflag : u.flag 0xA0000C 0 = false := State.flag_setFlag_same _ _ _ w1 (by decide)
  have wu : nwf u.regs = true := State.nwf_setFlag _ _ _ w1
  have hregs : s.vitBoundary.regs = (if !bitOf (s.fld 0xA00000 0 3) 1 then u.setFlag 0xA0000C 0 false else u).regs := by
    simp only [State.vitBoundary, hr, if_true]
    rw [if_neg (c := 2 ^ 23 ≤ _) (by rw [hquad]; decide)]
  have hhbm : s.vitBoundary.hbm = s.hbm := by
    simp only [State.vitBoundary, hr, if_true]
    rw [if_neg (c := 2 ^ 23 ≤ _) (by rw [hquad]; decide)]
    split <;> rfl
  have hcleared : (if !bitOf (s.fld 0xA00000 0 3) 1 then u.setFlag 0xA0000C 0 false else u).quad 0xA00010 = 0 ∧
      (if !bitOf (s.fld 0xA00000 0 3) 1 then u.setFlag 0xA0000C 0 false else u).flag 0xA0000C 0 = false := by
    cases !bitOf (s.fld 0xA00000 0 3) 1 with
    | true => exact ⟨(hset u wu).trans hquad, State.flag_setFlag_same _ _ _ wu (by decide)⟩
    | false => exact ⟨hquad, hflag⟩
  refine ⟨?_, ?_, hhbm, rfl⟩
  · rw [State.quad, State.word, State.word, hregs]
    exact hcleared.1
  · rw [State.flag, State.fld, State.word, hregs]
    exact hcleared.2

/-- The bytes of a trace frame before its checksum. -/
def State.frameHead (s : State) : List Byte :=
  leBytes 1 0x56 ++ leBytes 1 0x54 ++ leBytes 1 s.moduleId ++ leBytes 1 s.vit.frame.length ++ leBytes 4 s.vit.frameNo

def State.frameBody (s : State) : List Byte := (s.vit.frame.flatten ++ leBytes 480 0).take 480

def State.frameBytes (s : State) : List Byte := s.frameHead ++ s.frameBody ++ leBytes 20 0

theorem State.sendFrame_eq : s.sendFrame = { s with
    outbox := s.outbox ++ [.trace (s.frameBytes ++ leBytes 4 (crc32c s.frameBytes))],
    vit := { s.vit with frame := [], frameNo := (s.vit.frameNo + 1) % 2 ^ 32 } } := rfl

theorem State.length_frameHead : s.frameHead.length = 8 := by simp [State.frameHead]

theorem State.length_frameBody : s.frameBody.length = 480 := by
  simp only [State.frameBody, List.length_take, List.length_append, length_leBytes]
  omega

theorem State.length_frameBytes : s.frameBytes.length = 508 := by
  simp only [State.frameBytes, List.length_append, State.length_frameHead, State.length_frameBody, length_leBytes]

theorem length_flatten_events {l : List (List Byte)} (h : ∀ e ∈ l, e.length = 32) : l.flatten.length = 32 * l.length := by
  induction l with
  | nil => rfl
  | cons e l ih =>
    obtain ⟨he, hl⟩ := List.forall_mem_cons.mp h
    rw [List.flatten_cons, List.length_append, he, ih hl, List.length_cons]
    omega

theorem drop_flatten_events {l : List (List Byte)} (h : ∀ e ∈ l, e.length = 32) {i : Nat} {e : List Byte} (he : l[i]? = some e) (b : List Byte) :
    ((l.flatten ++ b).drop (32 * i)).take 32 = e := by
  induction l generalizing i with
  | nil => simp at he
  | cons x l ih =>
    obtain ⟨hx, hl⟩ := List.forall_mem_cons.mp h
    cases i with
    | zero =>
      obtain rfl : x = e := by simpa using he
      rw [List.flatten_cons, List.append_assoc, Nat.mul_zero, List.drop_zero, List.take_append_of_le_length hx.ge, List.take_of_length_le hx.le]
    | succ i =>
      have hdrop : 32 * (i + 1) = x.length + 32 * i := by omega
      rw [List.flatten_cons, List.append_assoc, hdrop, List.drop_length_add_append]
      exact ih hl (by simpa using he)

theorem State.drop_frameHead (b : List Byte) (k : Nat) : (s.frameHead ++ b).drop (8 + k) = b.drop k := by
  have h := List.drop_length_add_append (l₁ := s.frameHead) (l₂ := b) (i := k)
  rwa [State.length_frameHead] at h

theorem leBytes_zero (n : Nat) : leBytes n 0 = List.replicate n 0 := by
  induction n with
  | zero => rfl
  | succ n ih => rw [leBytes, Nat.zero_div, ih]; rfl

/-- Behind its events a frame's body is zero. -/
theorem State.frameBody_eq (hn : s.vit.frame.length ≤ 15) (he : ∀ e ∈ s.vit.frame, e.length = 32) :
    s.frameBody = s.vit.frame.flatten ++ List.replicate (480 - 32 * s.vit.frame.length) 0 := by
  have hlen := length_flatten_events he
  rw [State.frameBody, List.take_append, List.take_of_length_le (by omega), leBytes_zero, List.take_replicate, hlen]
  congr 2
  omega

theorem completes_traceFrameSend (hs : s.serves = true) (hon : bitOf s.vit.ctl 2 = true) (hn : s.vit.frame.length ≤ 15)
    (he : ∀ e ∈ s.vit.frame, e.length = 32) (hno : s.vit.frameNo < 2 ^ 32) :
    Completes .traceFrameSend s fun t => ∃ b : List Byte,
      t = { s with outbox := s.outbox ++ [.trace b], vit := { s.vit with frame := [], frameNo := (s.vit.frameNo + 1) % 2 ^ 32 } } ∧
      b.length = 512 ∧ fieldAt b 0 2 = 0x5456 ∧ fieldAt b 2 1 = s.moduleId % 256 ∧ fieldAt b 3 1 = s.vit.frame.length ∧
      fieldAt b 4 4 = s.vit.frameNo ∧ (∀ i e, s.vit.frame[i]? = some e → (b.drop (8 + 32 * i)).take 32 = e) ∧
      zeros b (8 + 32 * s.vit.frame.length) 508 = true ∧ fieldAt b 508 4 = crc32c (b.take 508) := by
  refine ⟨s.sendFrame, if_pos (by rw [hs, hon]; rfl), s.frameBytes ++ leBytes 4 (crc32c s.frameBytes), State.sendFrame_eq, ?_⟩
  have hlen := State.length_frameBytes (s := s)
  have hhead : s.frameHead.length = 8 := State.length_frameHead
  have hbytes : s.frameBytes ++ leBytes 4 (crc32c s.frameBytes) = s.frameHead ++ (s.frameBody ++ (leBytes 20 0 ++ leBytes 4 (crc32c s.frameBytes))) := by
    simp only [State.frameBytes, List.append_assoc]
  have hfield {o n : Nat} (h : o + n ≤ 8) : fieldAt (s.frameBytes ++ leBytes 4 (crc32c s.frameBytes)) o n = fieldAt s.frameHead o n := by
    rw [hbytes, fieldAt_append_left _ _ (by omega)]
  have hflat := length_flatten_events he
  refine ⟨?_, ?_, ?_, ?_, ?_, fun i e hie => ?_, ?_, ?_⟩
  · rw [List.length_append, hlen, length_leBytes]
  · rw [hfield (by decide), State.frameHead, List.append_assoc, List.append_assoc, List.append_assoc, ← List.append_assoc,
      fieldAt_append_left _ _ (by simp)]
    rfl
  · rw [hfield (by decide), State.frameHead, List.append_assoc, fieldAt_append_left _ _ (by simp)]
    exact (fieldAt_append_right (leBytes 1 0x56 ++ leBytes 1 0x54) _ 0 1).trans (fieldAt_leBytes 1 _)
  · rw [hfield (by decide), State.frameHead, fieldAt_append_left _ _ (by simp)]
    refine (fieldAt_append_right (leBytes 1 0x56 ++ leBytes 1 0x54 ++ leBytes 1 s.moduleId) _ 0 1).trans ((fieldAt_leBytes 1 _).trans ?_)
    omega
  · rw [hfield (by decide), State.frameHead]
    refine (fieldAt_append_right (leBytes 1 0x56 ++ leBytes 1 0x54 ++ leBytes 1 s.moduleId ++ leBytes 1 s.vit.frame.length) _ 0 4).trans
      ((fieldAt_leBytes 4 _).trans ?_)
    omega
  · rw [hbytes, State.drop_frameHead, State.frameBody_eq hn he, List.append_assoc]
    exact drop_flatten_events he hie _
  · have hdrop : (s.frameBytes ++ leBytes 4 (crc32c s.frameBytes)).drop (8 + 32 * s.vit.frame.length) =
        List.replicate (480 - 32 * s.vit.frame.length) 0 ++ (leBytes 20 0 ++ leBytes 4 (crc32c s.frameBytes)) := by
      rw [hbytes, State.drop_frameHead, State.frameBody_eq hn he, List.append_assoc, List.drop_left' hflat]
    rw [zeros, hdrop, leBytes_zero 20, ← List.append_assoc, List.replicate_append_replicate, List.take_append_of_le_length (by simp; omega)]
    simp
  · rw [List.take_left' hlen, ← hlen]
    refine (fieldAt_append_right s.frameBytes _ 0 4).trans ((fieldAt_leBytes 4 _).trans (Nat.mod_eq_of_lt (crc32c_lt _)))

end

/-- Settles O27: a scan sends the levels and loads the cells, each answer of the bus is its own list of bytes, and a frame is its head,
its events, zeros and its checksum. -/
theorem boardTestAndManagementBusAnswer : Obligations.BoardTestAndManagementBusAnswer := by
  intro s htidy answers drive scans
  have hw := State.tidy_regs htidy
  refine ⟨fun hb => ⟨fun bits => ⟨?_, ?_⟩, ?_, fun code bits hlo hhi => completes_jtagBypass bits hb hlo hhi⟩, fun hb c bits => ?_,
    fun hv => ⟨?_, ?_, fun hts => completes_smbTemp_none hv hts, fun hts => completes_smbTemp hv hts, ?_, ?_, ?_, fun k => completes_smbAlertClr k hv⟩,
    fun hv k => completes_smb_dead k hv, ⟨_, rfl, rfl⟩, fun hs => ?_, fun hs => ?_,
    fun hs hon hn he hno => completes_traceFrameSend hs hon hn he hno, fun hoff => ?_⟩
  · obtain ⟨hlen, htake, htest, hdrop⟩ := State.levels_spec hb
    exact ⟨_, rfl, ⟨_, hlen, htake, htest, hdrop, State.boundaryScan_boardTest 0 bits hb⟩,
      fun _ k hk h16 own => State.boundaryScan_pinLevel hb hk h16 own⟩
  · obtain ⟨hlen, htake, htest, hdrop⟩ := State.levels_spec hb
    exact ⟨_, rfl, ⟨_, hlen, htake, htest, hdrop, State.boundaryScan_boardTest 1 bits hb⟩, fun h => absurd h (by decide)⟩
  · exact ⟨_, if_neg (by simp [hb]), _, idcode_bits.1, idcode_bits.2, rfl⟩
  · exact ⟨⟨_, rfl, State.boundaryScan_off 0 bits hb⟩, ⟨_, rfl, State.boundaryScan_off 1 bits hb⟩, ⟨s, if_pos (by simp [hb]), rfl⟩,
      s, if_pos (by simp [hb]), rfl⟩
  · exact ⟨_, rfl, State.smbRead_live _ hv⟩
  · exact ⟨_, rfl, State.smbRead_live _ hv⟩
  · exact ⟨_, rfl, State.smbRead_live _ hv⟩
  · exact ⟨_, rfl, State.smbRead_live _ hv⟩
  · exact ⟨_, rfl, State.smbRead_live _ hv⟩
  · exact ⟨_, if_neg (by simp [hs]), rfl, State.vitBoundary_restart hw rfl⟩
  · exact ⟨s, if_pos (by simp [hs]), rfl⟩
  · exact ⟨s, if_neg (by rcases hoff with h | h <;> simp [h]), rfl⟩

end Sys2Proof.Machine
end


section
/-!
PROOFS. Wear: scrub results, page copies, the accession log, phases and vacancies: O28.
-/

namespace Sys2Proof.Machine

section
variable {s : State}

/-! ## Scrub results (R509, R513) -/

/-- A page that falls due is a matter of the accession map alone, and not of the counts of corrected errors. -/
theorem State.pageDue_frame (g page cause value : Nat) :
    (s.pageDue g page cause value).hbmBad = s.hbmBad ∧ (s.pageDue g page cause value).hbm = s.hbm ∧
    (s.pageDue g page cause value).regs = s.regs ∧ (s.pageDue g page cause value).acc.pageCe = s.acc.pageCe := by
  unfold State.pageDue
  split
  · exact ⟨rfl, rfl, rfl, rfl⟩
  · cases s.freeReserve g <;> exact ⟨rfl, rfl, rfl, rfl⟩

theorem scrub_inRange {ma : Nat} (hg : ma / 0x800000000 < 32) (hp : ma % 0x800000000 / 65536 < 516096) (hs : s.serves = true) :
    ¬(32 ≤ ma / 0x800000000 ∨ 516096 ≤ ma % 0x800000000 / 65536 ∨ (!s.serves) = true) := by
  rw [hs]
  simp only [Bool.not_true, Bool.false_eq_true, or_false]
  omega

theorem completes_hbmScrub_ue {ma : Nat} (n : Nat) (hg : ma / 0x800000000 < 32) (hp : ma % 0x800000000 / 65536 < 516096)
    (hs : s.serves = true) :
    Completes (.hbmScrub ma n true) s fun t => t.hbmBad = pset s.hbmBad (ma / 64) ∧ t.hbm = s.hbm ∧ t.regs = s.regs := by
  refine ⟨_, if_neg (scrub_inRange hg hp hs), ?_⟩
  rw [if_pos rfl, if_pos rfl]
  exact And.imp_right (And.imp_right And.left) (State.pageDue_frame _ _ _ _)

theorem completes_hbmScrub_ce {ma n : Nat} (hg : ma / 0x800000000 < 32) (hp : ma % 0x800000000 / 65536 < 516096)
    (hs : s.serves = true) (hn : 0 < n) :
    Completes (.hbmScrub ma n false) s fun t => t.hbmBad = s.hbmBad ∧ t.hbm = s.hbm ∧
      natOf t.acc.pageCe (pageKey (ma / 0x800000000) (ma % 0x800000000 / 65536)) =
        natOf s.acc.pageCe (pageKey (ma / 0x800000000) (ma % 0x800000000 / 65536)) + n := by
  refine ⟨_, if_neg (scrub_inRange hg hp hs), ?_⟩
  rw [if_neg Bool.false_ne_true, if_neg Bool.false_ne_true, if_neg (c := n = 0) hn.ne']
  generalize hkey : pageKey (ma / 0x800000000) (ma % 0x800000000 / 65536) = key
  have hcount : natOf (aput s.acc.pageCe key (natOf s.acc.pageCe key + n)) key = natOf s.acc.pageCe key + n := by
    rw [natOf, aget_aput_same, Option.getD_some]
  split
  · obtain ⟨hbad, hhbm, -, hce⟩ := State.pageDue_frame (s := { s with
      acc := { s.acc with pageCe := aput s.acc.pageCe key (natOf s.acc.pageCe key + n) } }) (ma / 0x800000000)
      (ma % 0x800000000 / 65536) 1 (natOf s.acc.pageCe key + n)
    exact ⟨hbad, hhbm, by rw [hce]; exact hcount⟩
  · exact ⟨rfl, rfl, hcount⟩

/-! ## The accession log (R517 to R519) -/

/-- The header that a half without one gets is valid, of generation 0. -/
theorem gen_accHeader_zero (records : List (List Byte)) : ({ header := accHeader 0, records := records } : AccHalf).gen = some 0 := by
  have hcrc : crcHolds (accHeader 0) = true := by decide +kernel
  have hmagic : ((accHeader 0).take 8 == accMagic) = true := by decide +kernel
  have hgen : fieldAt (accHeader 0) 8 4 = 0 := by decide +kernel
  rw [AccHalf.gen, hcrc, hmagic, hgen]
  rfl

/-- The half that takes a record stays the active one. -/
theorem Flash.active_setActive (f : Flash) (records : List (List Byte)) :
    (f.setActive { header := if f.active.gen.isSome then f.active.header else accHeader 0, records := records }).active.records = records := by
  cases hb : f.activeB with
  | true =>
    have hsome : f.accB.gen.isSome = true := by
      cases hB : f.accB.gen with
      | some _ => rfl
      | none => cases hA : f.accA.gen <;> simp [Flash.activeB, hA, hB] at hb
    have hnew : ({ f with accB := { header := f.accB.header, records := records } } : Flash).activeB = true := hb
    have hactive : f.active = f.accB := if_pos hb
    rw [hactive, if_pos hsome, Flash.setActive, if_pos hb, Flash.active, if_pos hnew]
  | false =>
    have hno : ¬f.activeB = true := by rw [hb]; exact Bool.false_ne_true
    have hactive : f.active = f.accA := if_neg hno
    have hkept (h : AccHalf) (hnew : ({ f with accA := h } : Flash).activeB = false) :
        (f.setActive h).active = h := by
      have hno' : ¬({ f with accA := h } : Flash).activeB = true := by rw [hnew]; exact Bool.false_ne_true
      rw [Flash.setActive, if_neg hno, Flash.active, if_neg hno']
    rw [hactive]
    cases hA : f.accA.gen with
    | some a =>
      have hnew : ({ f with accA := { header := f.accA.header, records := records } } : Flash).activeB = false := hb
      exact congrArg (·.records) (hkept _ hnew)
    | none =>
      have hB : f.accB.gen = none := by
        cases hB : f.accB.gen with
        | none => rfl
        | some _ => simp [Flash.activeB, hA, hB] at hb
      have hnew : ({ f with accA := { header := accHeader 0, records := records } } : Flash).activeB = false := by
        simp [Flash.activeB, gen_accHeader_zero, hB]
      exact congrArg (·.records) (hkept _ hnew)

theorem State.appendRec_flash (x : Swap) :
    (s.appendRec x).flash.active.records = s.flash.active.records ++ [(x.rec_ s.flash.nextSeq).bytes] := by
  unfold State.appendRec
  dsimp only
  rw [State.event_flash, State.modEvent_flash]
  exact Flash.active_setActive s.flash _

theorem State.appendRec_acc (x : Swap) : (s.appendRec x).acc = s.acc := by
  unfold State.appendRec
  dsimp only
  rw [State.event_acc, State.modEvent_acc]

theorem completes_accessionAppend {x : Swap} (hx : (s.acc.swaps.find? fun x => x.left == 0 && !x.noted) = some x) (hw : x.waits = true)
    (hroom : s.flash.active.records.length < 65535) :
    Completes (.accessionAppend true) s fun t =>
      t.acc.swaps = (s.acc.swaps.map fun y => if y == x then { y with noted := true } else y) ∧
      t.flash.active.records = s.flash.active.records ++ [(x.rec_ s.flash.nextSeq).bytes] := by
  have hexec : exec (.accessionAppend true) s = .next { s.appendRec x with acc := { (s.appendRec x).acc with
      swaps := (s.appendRec x).acc.swaps.map fun y => if y == x then { y with noted := true } else y } } := by
    have hfull : ¬65535 ≤ s.flash.active.records.length := Nat.not_le.mpr hroom
    show execAccessionAppend true s = _
    simp only [execAccessionAppend, hx, hw, hfull, Bool.not_true, Bool.false_eq_true, if_true, if_false]
  refine ⟨_, hexec, ?_, State.appendRec_flash x⟩
  rw [State.appendRec_acc]

/-! ## Phases and vacancies (R512, R514) -/

theorem State.phaseOut_acc {rail phase : Nat} (hc : s.acc.phases.contains (rail, phase) = false) :
    (s.phaseOut rail phase).acc = { s.acc with phases := s.acc.phases ++ [(rail, phase)] } ∧ (s.phaseOut rail phase).tiles = s.tiles := by
  rw [State.phaseOut, hc, if_neg Bool.false_ne_true]
  dsimp only
  split
  · exact ⟨State.modEvent_acc _ _, State.modEvent_tiles _ _⟩
  · exact ⟨rfl, rfl⟩

theorem completes_phaseTrip {rail phase : Nat} (hr : rail < 20) (hp : phase < activePhases rail + 2)
    (hc : s.acc.phases.contains (rail, phase) = false) :
    Completes (.phaseTrip rail phase) s fun t => t.acc.phases = s.acc.phases ++ [(rail, phase)] ∧
      (∃ x : Swap, t.acc.swaps = s.acc.swaps ++ [x] ∧ x.kind = 9 ∧ x.unit = rail ∧ x.old = phase) ∧ t.tiles = s.tiles := by
  have hno : ¬(20 ≤ rail ∨ activePhases rail + 2 ≤ phase ∨ s.acc.phases.contains (rail, phase) = true) := by
    rw [hc]
    simp only [Bool.false_eq_true, or_false]
    omega
  obtain ⟨hacc, htiles⟩ := State.phaseOut_acc hc
  refine ⟨_, if_neg hno, congrArg (·.phases) hacc, ⟨_, rfl, rfl, rfl, rfl⟩, htiles⟩

theorem completes_vacancyTimeout {tile : Nat} (hw : nwf s.regs = true) (hl : s.acc.leaving.contains tile = true)
    (hst : s.acc.stopped.contains tile = false) (hs : s.serves = true) (hr : s.inRecovery = false) :
    Completes (.vacancyTimeout tile) s fun t => t.acc.stopped = pset s.acc.stopped tile ∧ t.recov.due = some [] := by
  refine ⟨_, if_pos (by rw [hl, hst]; rfl), ?_⟩
  rw [State.computeFault_due (s := { s with acc := { s.acc with stopped := pset s.acc.stopped tile } }) _ _ _ hw hs hr]
  exact ⟨congrArg (·.stopped) (State.moduleEntry_acc _ _ _), rfl⟩

end

/-- Settles O28: each event of wear changes its own part of the accession state, and a vacancy that is late resets the compute part. -/
theorem wearMonitorsAndAccessionLog : Obligations.WearMonitorsAndAccessionLog := by
  intro s htidy
  have hw := State.tidy_regs htidy
  exact ⟨fun _ n hg hp hs => completes_hbmScrub_ue n hg hp hs, fun _ _ hg hp hs hn => completes_hbmScrub_ce hg hp hs hn,
    fun _ _ => ⟨_, rfl, rfl⟩, fun _ hx hwaits hroom => completes_accessionAppend hx hwaits hroom,
    fun _ _ hr hp hc => completes_phaseTrip hr hp hc, fun _ hl hst hs hr => completes_vacancyTimeout hw hl hst hs hr, _, rfl, rfl⟩

end Sys2Proof.Machine
end


section
/-!
PROOFS. What stands of the module's state, of its tenants' and of a recovery through faults, the ends of commands and collectives, and
rollbacks.
-/

namespace Sys2Proof.Machine

/-- The words beside the TNT_STATE of every tenant. -/
def OffStates (a : Nat) : Prop := ∀ n < 16, a ≠ tnt n 0

/-- From `s` to `t` the module's state, flash, the fuses and what stands of a recovery stay, of the tiles all but the chains, and the
state of every tenant that is not ACTIVE. -/
structure KeepsStanding (s t : State) : Prop where
  boot : t.boot = s.boot
  flash : t.flash = s.flash
  fuses : t.fuses = s.fuses
  held : t.recov.held = s.recov.held
  wrap : t.recov.wrap = s.recov.wrap
  suspects : t.recov.suspects = s.recov.suspects
  chains : ChainsOnly s t
  wf : nwf s.regs = true → nwf t.regs = true
  states : nwf s.regs = true → ∀ n < 16, s.active n = false → t.tState n = s.tState n

section
variable {s t u : State}

theorem offStates_tnt {n o : Nat} (ho : o < 0x1000) (h0 : o ≠ 0) : OffStates (tnt n o) := fun m _ => by simp only [tnt]; omega

theorem offStates_far {a : Nat} (ha : 0x120000 ≤ a) : OffStates a := fun m hm => by simp only [tnt]; omega

theorem offStates_low {a : Nat} (ha : a < 0x100000) : OffStates a := fun m hm => by simp only [tnt]; omega

theorem offStates_rng (n r o : Nat) : OffStates (rng n r o) := offStates_far (by simp only [rng]; omega)

theorem WordsOnly.tState (h : WordsOnly OffStates s t) (hw : nwf s.regs = true) {n : Nat} (hn : n < 16) : t.tState n = s.tState n :=
  h.fld_eq hw (fun ho => ho n hn rfl) 0 2

/-- What changes no front end and no tile but for registers off the tenants' states keeps the standing. -/
theorem KeepsStanding.of_words (hw : WordsOnly OffStates s t) (hb : t.boot = s.boot) (hf : t.flash = s.flash) (hu : t.fuses = s.fuses)
    (hr : t.recov = s.recov) (ht : t.tiles = s.tiles) : KeepsStanding s t where
  boot := hb
  flash := hf
  fuses := hu
  held := congrArg (·.held) hr
  wrap := congrArg (·.wrap) hr
  suspects := congrArg (·.suspects) hr
  chains := .of_tiles_eq ht
  wf := hw.wf
  states wf _ hn _ := hw.tState wf hn

theorem KeepsStanding.of_eq (hr : t.regs = s.regs) (hb : t.boot = s.boot) (hf : t.flash = s.flash) (hu : t.fuses = s.fuses)
    (hc : t.recov = s.recov) (ht : t.tiles = s.tiles) : KeepsStanding s t := .of_words (.of_regs_eq hr) hb hf hu hc ht

theorem KeepsStanding.refl (s : State) : KeepsStanding s s := .of_eq rfl rfl rfl rfl rfl rfl

theorem KeepsStanding.trans (h : KeepsStanding s t) (g : KeepsStanding t u) : KeepsStanding s u where
  boot := g.boot.trans h.boot
  flash := g.flash.trans h.flash
  fuses := g.fuses.trans h.fuses
  held := g.held.trans h.held
  wrap := g.wrap.trans h.wrap
  suspects := g.suspects.trans h.suspects
  chains := h.chains.trans g.chains
  wf wf := g.wf (h.wf wf)
  states wf n hn ha := by
    have hst := h.states wf n hn ha
    have ha' : t.active n = false := by rw [State.active, hst]; exact ha
    exact (g.states (h.wf wf) n hn ha').trans hst

theorem KeepsStanding.ite {c : Prop} [Decidable c] (ht : KeepsStanding s t) (hu : KeepsStanding s u) : KeepsStanding s (if c then t else u) :=
  ite_of_both ht hu

theorem KeepsStanding.foldl {α : Type} {f : State → α → State} {l : List α} (hf : ∀ u x, KeepsStanding u (f u x)) (s : State) :
    KeepsStanding s (l.foldl f s) :=
  foldl_inv (Q := KeepsStanding s) (fun u x h => h.trans (hf u x)) (.refl s)

theorem Reports.keepsStanding (h : Reports s t) (hw : WordsOnly OffStates s t) : KeepsStanding s t :=
  .of_words hw h.boot h.flash h.fuses h.recov h.tiles

theorem RegsOnly.keepsStanding (h : RegsOnly s t) (hw : WordsOnly OffStates s t) : KeepsStanding s t := h.reports.keepsStanding hw

theorem LinkOnly.keepsStanding (h : LinkOnly s t) : KeepsStanding s t := by
  rw [LinkOnly] at h
  rw [h]
  exact .of_eq rfl rfl rfl rfl rfl rfl

theorem FrontOnly.keepsStanding (h : FrontOnly s t) (hc : ChainsOnly s t) : KeepsStanding s t := by
  rw [FrontOnly] at h
  rw [h] at hc ⊢
  exact ⟨rfl, rfl, rfl, rfl, rfl, rfl, hc, id, fun _ _ _ _ => rfl⟩

/-! ## Registers, events and entries -/

theorem State.setWord_keepsStanding {off : Nat} (v : W32) (ho : OffStates off) : KeepsStanding s (s.setWord off v) :=
  .of_words (s.setWord_words v ho) rfl rfl rfl rfl rfl

theorem State.setFld_keepsStanding {off : Nat} (lo n v : Nat) (ho : OffStates off) : KeepsStanding s (s.setFld off lo n v) :=
  State.setWord_keepsStanding _ ho

theorem State.setFlag_keepsStanding {off : Nat} (b : Nat) (v : Bool) (ho : OffStates off) : KeepsStanding s (s.setFlag off b v) :=
  State.setWord_keepsStanding _ ho

theorem State.bump_keepsStanding {off : Nat} (n : Nat) (ho : OffStates off) : KeepsStanding s (s.bump off n) :=
  State.setWord_keepsStanding _ ho

theorem State.zeroRegs_keepsStanding {lo hi : Nat} (ho : ∀ a, lo ≤ a → a < hi → OffStates a) : KeepsStanding s (s.zeroRegs lo hi) :=
  .of_words (s.zeroRegs_words ho) rfl rfl rfl rfl rfl

theorem State.event_keepsStanding (kind : Nat) (ten tile : Option Nat) (id : Nat) (data : List Byte) (hide : Nat × Nat) :
    KeepsStanding s (s.event kind ten tile id data hide) :=
  (s.event_reports _ _ _ _ _ _).keepsStanding (s.event_words _ _ _ _ _ _ fun _ ha => offStates_far (by omega))

theorem State.modEvent_keepsStanding (b : Nat) : KeepsStanding s (s.modEvent b) :=
  (s.modEvent_reports b).keepsStanding (s.modEvent_words b (offStates_low (by decide)))

theorem State.tntEvent_keepsStanding (n b : Nat) : KeepsStanding s (s.tntEvent n b) :=
  (s.tntEvent_reports n b).keepsStanding (s.tntEvent_words n b (offStates_tnt (by decide) (by decide)))

theorem State.setEntry_keepsStanding {off : Nat} (code tick : Nat) (i : Info) (ho : ∀ a, off ≤ a → a < off + 32 → OffStates a) :
    KeepsStanding s (s.setBytes off (entryBytes code tick i)) :=
  (s.setBytes_reports _ _).keepsStanding (State.setEntry_words _ _ _ ho)

theorem State.tenantEntry_keepsStanding (n code : Nat) (i : Info) : KeepsStanding s (s.tenantEntry n code i) := by
  have hrec {o : Nat} (h1 : 0x100 ≤ o) (h2 : o < 0x160) : OffStates (tnt n o) := offStates_tnt (by omega) (by omega)
  have hput (u : State) (o : Nat) (h1 : 0x100 ≤ o) (h2 : o ≤ 0x140) :
      KeepsStanding u (u.setBytes (tnt n o) (entryBytes code s.tickNo i)) :=
    State.setEntry_keepsStanding _ _ _ fun a ha hb => fun m hm => by simp only [tnt] at *; omega
  unfold State.tenantEntry
  extract_lets e empty s1 s2 s3 s4
  have h1 : KeepsStanding s s1 := .ite ((hput s _ (by decide) (by decide)).trans (State.setFld_keepsStanding _ _ _ (hrec (by decide) (by decide))))
    (State.bump_keepsStanding _ (hrec (by decide) (by decide)))
  have h2 : KeepsStanding s s2 := (h1.trans (hput s1 _ (by decide) (by decide))).trans
    (State.setFld_keepsStanding _ _ _ (hrec (by decide) (by decide)))
  have h3 : KeepsStanding s s3 := h2.trans (State.setFld_keepsStanding _ _ _ (hrec (by decide) (by decide)))
  have h4 : KeepsStanding s s4 := .ite (h3.trans (State.setFlag_keepsStanding _ _ (hrec (by decide) (by decide)))) h3
  exact (h4.trans (State.tntEvent_keepsStanding _ _)).trans (State.event_keepsStanding _ _ _ _ _ _)

theorem State.moduleEntry_keepsStanding (code : Nat) (i : Info) : KeepsStanding s (s.moduleEntry code i) :=
  (s.moduleEntry_reports code i).keepsStanding ((s.moduleEntry_recordWords code i).mono fun a ha n hn => by
    simp only [ModuleEntryWords] at ha
    simp only [tnt]
    omega)

theorem State.enter_keepsStanding (n code : Nat) (i : Info) : KeepsStanding s (s.enter n code i) := by
  unfold State.enter
  split
  next ten mod _ =>
    have h1 : KeepsStanding s (if ten then s.tenantEntry n code i else s) := .ite (State.tenantEntry_keepsStanding _ _ _) (.refl s)
    exact .ite (h1.trans (State.moduleEntry_keepsStanding _ _)) h1

/-! ## Faults and the ends of commands -/

/-- A freeze takes an ACTIVE tenant. -/
theorem State.setTState_keepsStanding {n : Nat} (v : Nat) (ha : s.active n = true) : KeepsStanding s (s.setTState n v) where
  boot := rfl
  flash := rfl
  fuses := rfl
  held := rfl
  wrap := rfl
  suspects := rfl
  chains := .of_tiles_eq rfl
  wf := State.nwf_setFld _ _ _ _
  states wf m hm hidle := by
    have hne : tnt m 0 ≠ tnt n 0 := fun he => by
      obtain rfl : m = n := by simp only [tnt] at he; omega
      rw [ha] at hidle
      cases hidle
    exact (s.setFld_words (P := fun a => a = tnt n 0) 0 2 v rfl).fld_eq wf hne 0 2

theorem State.freeze_keepsStanding (n : Nat) (peer : Bool) : KeepsStanding s (s.freeze n peer) := by
  unfold State.freeze
  extract_lets s0 s1 s2 recov s3 s4
  have h0 : KeepsStanding s s0 := .of_eq rfl rfl rfl rfl rfl rfl
  by_cases ha : s0.active n = true
  · have h1 : KeepsStanding s s1 := h0.trans (State.setTState_keepsStanding _ ha)
    have h2 : KeepsStanding s s2 := h1.trans (.foldl (fun u r => .ite (State.setFld_keepsStanding _ _ _ (offStates_rng _ _ _)) (.refl u)) s1)
    have h3 : KeepsStanding s s3 := h2.trans ⟨rfl, rfl, rfl, rfl, rfl, rfl, .of_tiles_eq rfl, id, fun _ _ _ _ => rfl⟩
    have h4 : KeepsStanding s s4 := h3.trans ((State.tntEvent_keepsStanding n 0).trans (State.modEvent_keepsStanding 3))
    exact .ite h0 (.ite (h4.trans (s4.sendTwin_linkOnly _ _).keepsStanding) h4)
  · rw [if_pos (by simpa using ha)]
    exact h0

theorem State.raise_keepsStanding (n code : Nat) (i : Info) : KeepsStanding s (s.raise n code i) := by
  have he : KeepsStanding s (s.enter n code i) := State.enter_keepsStanding n code i
  unfold State.raise
  split
  · exact he.trans (State.freeze_keepsStanding _ _)
  · exact he.trans (State.freeze_keepsStanding _ _)
  · exact he

theorem State.updCmd_keepsStanding (n : Nat) (c : CmdRef) (f : RCmd → RCmd) : KeepsStanding s (s.updCmd n c f) :=
  (State.updCmd_frontOnly f).keepsStanding (.of_tiles_eq (s.updCmd_tiles n c f))

theorem State.pushLog_keepsStanding (n : Nat) (es : List (List Byte)) : KeepsStanding s (s.pushLog n es) := by
  unfold State.pushLog
  extract_lets first logs v
  have hv : KeepsStanding s v := .of_eq rfl rfl rfl rfl rfl rfl
  exact .ite (hv.trans (State.tntEvent_keepsStanding _ _)) hv

theorem State.signal_keepsStanding (n ring : Nat) (e : List Byte) (w : Waiter) : KeepsStanding s (s.signal n ring e w).1 := by
  have hdrop : KeepsStanding s (s.bump (rng n ring 0x58) 1) := State.bump_keepsStanding _ (offStates_rng _ _ _)
  unfold State.signal
  extract_lets v member pair op ctr dst
  clear_value dst
  split
  · split
    · exact .of_eq rfl rfl rfl rfl rfl rfl
    · exact hdrop
  · cases dst with
    | none => exact hdrop
    | some d =>
      dsimp only
      split
      · exact .ite (.of_eq rfl rfl rfl rfl rfl rfl) (.of_eq rfl rfl rfl rfl rfl rfl)
      · split
        next hp => exact (s.sendPacket_linkOnly _ _ _ _ hp).keepsStanding
        next => exact hdrop

theorem State.sigAct_keepsStanding (n r i seq tick : Nat) (out : Bool) : KeepsStanding s (s.sigAct n r i seq tick out) := by
  unfold State.sigAct
  split
  · exact State.raise_keepsStanding _ _ _
  · exact .ite (.of_eq rfl rfl rfl rfl rfl rfl) (.ite (State.pushLog_keepsStanding _ _) (State.signal_keepsStanding _ _ _ _))

theorem State.endCmd_keepsStanding (n : Nat) (c : CmdRef) : KeepsStanding s (s.endCmd n c) := by
  have hfinish : KeepsStanding s (s.updCmd n c RCmd.finish) := State.updCmd_keepsStanding _ _ _
  have hsig : KeepsStanding s ((s.updCmd n c RCmd.finish).storedSig n c) := by
    unfold State.storedSig
    split
    · exact .ite (hfinish.trans (State.sigAct_keepsStanding _ _ _ _ _ _)) hfinish
    · exact hfinish
  unfold State.endCmd
  generalize (s.updCmd n c RCmd.finish).storedSig n c = v at hsig
  dsimp only
  split
  · refine KeepsStanding.trans ?_ ((State.endLaunch_frontOnly _ _).keepsStanding (.of_tiles_eq (State.endLaunch_tiles _ _ _ _)))
    split
    · exact hsig.trans (State.updCmd_keepsStanding _ _ _)
    · exact hsig
  · exact hsig

theorem State.endItem_keepsStanding (i : Nat) : KeepsStanding s (s.endItem i) := by
  unfold State.endItem
  split
  · exact .refl s
  next x _ =>
    extract_lets u1 front u2
    have h1 : KeepsStanding s u1 := .foldl (fun u c => State.updCmd_keepsStanding _ _ _) s
    have h2 : KeepsStanding s u2 := h1.trans (.of_eq rfl rfl rfl rfl rfl rfl)
    clear_value u2
    split
    have h3 : KeepsStanding s { u2 with front := { u2.front with
        routes := u2.front.routes.filter fun r => !(r.tenant == x.tenant && r.ref == x.ref) } } := h2.trans (.of_eq rfl rfl rfl rfl rfl rfl)
    exact .ite ((h3.trans (State.event_keepsStanding _ _ _ _ _ _)).trans (State.endCmd_keepsStanding _ _)) h2

theorem State.endWork_keepsStanding (n : Nat) (c : CmdRef) : KeepsStanding s (s.endWork n c) := by
  unfold State.endWork
  split
  · exact .of_eq rfl rfl rfl rfl rfl rfl
  · exact .of_eq rfl rfl rfl rfl rfl rfl
  · exact State.endItem_keepsStanding _
  next i j _ _ _ =>
    have hu : KeepsStanding s (s.updCmd n (.item i j) RCmd.finish) := State.updCmd_keepsStanding _ _ _
    dsimp only
    split
    · exact .ite (hu.trans ((State.startScatter_frontOnly _).keepsStanding (State.startScatter_chainsOnly _ _))) hu
    · exact hu
  · exact State.endCmd_keepsStanding _ _

/-! ## Collectives that end (R368, R369) -/

theorem State.showPool_keepsStanding : KeepsStanding s s.showPool := by
  unfold State.showPool
  exact .foldl (fun u d => State.setFld_keepsStanding _ _ _ (offStates_far (by simp only [colPool]; omega))) s

theorem State.releaseSlots_keepsStanding (sg : CSeg) : KeepsStanding s (s.releaseSlots sg) := by
  unfold State.releaseSlots
  split
  next a b _ =>
    have h : KeepsStanding s { s with coll := { s.coll with slots := s.coll.slots.filter fun x => x != a && x != b } } := .of_eq rfl rfl rfl rfl rfl rfl
    exact h.trans State.showPool_keepsStanding
  · exact .refl s

theorem State.sendCtl_keepsStanding (dst : Nat) (m : Ctl) : KeepsStanding s (s.sendCtl dst m) :=
  (State.sendPacket_getD_linkOnly _ _ _ _).keepsStanding

theorem State.endColl_keepsStanding (c : Coll) (status : Nat) (broke : Bool) : KeepsStanding s (s.endColl c status broke) := by
  have hten (o : Nat) : OffStates (colTnt c.tenant o) := offStates_far (by simp only [colTnt]; omega)
  have hgrp : OffStates (colGrp c.tenant c.group) := offStates_far (by simp only [colGrp]; omega)
  unfold State.endColl
  extract_lets s1 coll s2 s3 s4 s5 s6
  have h1 : KeepsStanding s s1 := .foldl (fun u sg => u.releaseSlots_keepsStanding sg) s
  have h2 : KeepsStanding s s2 := h1.trans (.of_eq rfl rfl rfl rfl rfl rfl)
  have h3 : KeepsStanding s s3 := h2.trans (State.setFld_keepsStanding _ _ _ (hten _))
  have h4 : KeepsStanding s s4 := h3.trans (.ite (State.bump_keepsStanding _ (hten _))
    (.ite (.refl s3) (State.bump_keepsStanding _ (hten _))))
  have h5 : KeepsStanding s s5 := h4.trans (State.setFld_keepsStanding _ _ _ hgrp)
  have h6 : KeepsStanding s s6 := by
    refine .ite (h5.trans (.foldl (fun u x => ?_) s5)) h4
    split
    exact .ite (.refl u) (State.sendCtl_keepsStanding _ _)
  exact (h6.trans (State.updCmd_keepsStanding _ _ _)).trans (State.endWork_keepsStanding _ _)

theorem State.endColls_keepsStanding (f : Coll → Bool) (status : Nat) : KeepsStanding s (s.endColls f status) :=
  .foldl (fun u c => u.endColl_keepsStanding c status true) s

/-! ## Rollback (R494 to R499) -/

theorem State.updSess_keepsStanding (n : Nat) (f : Sess → Sess) : KeepsStanding s (s.updSess n f) := .of_eq rfl rfl rfl rfl rfl rfl

theorem State.updRing_keepsStanding (n r : Nat) (f : RingSt → RingSt) : KeepsStanding s (s.updRing n r f) := .of_eq rfl rfl rfl rfl rfl rfl

theorem State.restoreCtrs_keepsStanding (n : Nat) (ck : Ckpt) : KeepsStanding s (s.restoreCtrs n ck) := by
  unfold State.restoreCtrs
  extract_lets lo s1 s2
  have h2 : KeepsStanding s s2 := .of_eq rfl rfl rfl rfl rfl rfl
  refine h2.trans (.foldl (fun u o => ?_) s2)
  split
  · exact .of_eq rfl rfl rfl rfl rfl rfl
  · exact .ite (.of_eq rfl rfl rfl rfl rfl rfl) (.of_eq rfl rfl rfl rfl rfl rfl)

theorem State.restoreSess_keepsStanding (n : Nat) (ck : Ckpt) : KeepsStanding s (s.restoreSess n ck) := by
  unfold State.restoreSess
  extract_lets recov s1 s2
  have h1 : KeepsStanding s s1 := ⟨rfl, rfl, rfl, rfl, rfl, rfl, .of_tiles_eq rfl, id, fun _ _ _ _ => rfl⟩
  have h2 : KeepsStanding s s2 := h1.trans (.foldl (fun u _ => u.updSess_keepsStanding _ _) s1)
  exact h2.trans (.of_eq rfl rfl rfl rfl rfl rfl)

theorem State.redoCmds_keepsStanding (n b : Nat) : KeepsStanding s (s.redoCmds n b) := by
  unfold State.redoCmds
  extract_lets running redo
  exact .foldl (fun u r => u.updRing_keepsStanding _ _ _) s

theorem State.holdAgain_keepsStanding (l : Launch) : KeepsStanding s (s.holdAgain l) := by
  unfold State.holdAgain
  split
  · exact .refl s
  · exact .of_eq rfl rfl rfl rfl rfl rfl

theorem State.redoLaunches_keepsStanding (s0 : State) (n b : Nat) : KeepsStanding s (s.redoLaunches s0 n b) :=
  KeepsStanding.trans (.foldl (fun u l => u.holdAgain_keepsStanding l) s) (.of_eq rfl rfl rfl rfl rfl rfl)

theorem State.rollback_keepsStanding (n b : Nat) : KeepsStanding s (s.rollback n b) := by
  unfold State.rollback
  split
  · exact .refl s
  next ck _ =>
    extract_lets s0 s1
    have h0 : KeepsStanding s s0 := (s.restoreCtrs_keepsStanding n ck).trans (State.restoreSess_keepsStanding _ _)
    have h1 : KeepsStanding s s1 := (h0.trans (s0.redoCmds_keepsStanding n b)).trans (State.redoLaunches_keepsStanding _ _ _)
    exact h1.trans ⟨rfl, rfl, rfl, rfl, rfl, rfl, .of_tiles_eq rfl, id, fun _ _ _ _ => rfl⟩

theorem State.startReplay_keepsStanding (n : Nat) : KeepsStanding s (s.startReplay n) := by
  unfold State.startReplay
  extract_lets s1 recov
  have h1 : KeepsStanding s s1 := .foldl (fun u _ => u.updSess_keepsStanding _ _) s
  exact h1.trans ⟨rfl, rfl, rfl, rfl, rfl, rfl, .of_tiles_eq rfl, id, fun _ _ _ _ => rfl⟩

/-! ## Serving given up (R341, R472, R480) -/

theorem State.stallEntry_keepsStanding (n : Nat) (e : RetEnt) (b : Option SEnt) : KeepsStanding s (s.stallEntry n e b) := by
  unfold State.stallEntry
  extract_lets s1
  have h1 : KeepsStanding s s1 := (State.bump_keepsStanding _ (offStates_tnt (by decide) (by decide))).trans (State.updSess_keepsStanding _ _)
  split
  · exact .ite h1 (h1.trans (s1.updSess_keepsStanding _ _))
  · exact h1

theorem State.releaseBuf_keepsStanding (recipe buf : Nat) : KeepsStanding s (s.releaseBuf recipe buf) := by
  unfold State.releaseBuf
  split
  · exact .refl s
  · exact .of_eq rfl rfl rfl rfl rfl rfl

theorem State.reflow_keepsStanding (n b : Nat) : KeepsStanding s (s.reflow n b) := by
  unfold State.reflow
  extract_lets l gone s1 s2
  have h1 : KeepsStanding s s1 := .foldl (fun u x => .foldl (fun v e => v.stallEntry_keepsStanding _ _ _) u) s
  have h2 : KeepsStanding s s2 := by
    refine h1.trans (.foldl (fun u x => ?_) s1)
    split
    · exact (u.releaseBuf_keepsStanding _ _).trans (.of_eq rfl rfl rfl rfl rfl rfl)
    · exact .refl u
  exact h2.trans (.of_eq rfl rfl rfl rfl rfl rfl)

theorem State.flood_keepsStanding (c : Ctl) : KeepsStanding s (s.flood c) := .foldl (fun u i => u.sendCtl_keepsStanding i c) s

theorem State.giveServing_keepsStanding : KeepsStanding s s.giveServing := by
  unfold State.giveServing
  extract_lets who s1 s1' pair s2
  have h0 : KeepsStanding s ((s.setFlag 0x40 0 false).setServe (s.moduleId / 2) who) :=
    (State.setFlag_keepsStanding _ _ (offStates_low (by decide))).trans ((State.setWord_keepsStanding _ (offStates_far (by decide))).trans
      (State.setWord_keepsStanding _ (offStates_far (by decide))))
  have h1 : KeepsStanding s s1 := h0.trans (State.flood_keepsStanding _)
  have h2 : KeepsStanding s s2 := (h1.trans (State.modEvent_keepsStanding 4)).trans (.of_eq rfl rfl rfl rfl rfl rfl)
  exact .ite (.refl s) (h2.trans (.foldl (fun u n => .ite (u.reflow_keepsStanding _ _) (.refl u)) s2))

end

end Sys2Proof.Machine
end


section
/-!
PROOFS. Recovery: the compute-part reset and its release, the replay of suspects, controllers that fail: O29.
-/

namespace Sys2Proof.Machine

/-! ## Tiles on which nothing runs -/

/-- No program runs on a tile, none is to be launched or saved, and nothing is in flight. -/
def Tile.Quiet (x : Tile) : Prop := x.prog = none ∧ x.flight = [] ∧ x.launch = none ∧ x.saved = []

def State.AllQuiet (s : State) : Prop := ∀ n, (s.tile n).Quiet

section
variable {s t : State}

theorem ChainsOnly.allQuiet (h : ChainsOnly s t) (hq : s.AllQuiet) : t.AllQuiet := fun n => by
  rw [h n]
  exact hq n

theorem State.quiet_updTile {f : Tile → Tile} {n : Nat} (m : Nat) (hf : ∀ x, x.Quiet → (f x).Quiet) (hq : (s.tile n).Quiet) :
    ((s.updTile m f).tile n).Quiet := by
  by_cases hm : n = m
  · subst hm
    by_cases hlt : n < 128
    · rw [State.tile_updTile_same _ hlt]
      exact hf _ hq
    · simp only [State.tile, dif_neg hlt]
      exact ⟨rfl, rfl, rfl, rfl⟩
  · rw [State.tile_updTile_other _ hm]
    exact hq

theorem State.quiet_updTile_same {f : Tile → Tile} {n : Nat} (hn : n < 128) (hf : ∀ x, (f x).Quiet) : ((s.updTile n f).tile n).Quiet := by
  rw [State.tile_updTile_same _ hn]
  exact hf _

/-- What a step over the numbers below `k` brings about at each, and later steps keep, holds at all of them. -/
theorem foldl_range_each {f : State → Nat → State} {P : State → Nat → Prop} (k : Nat) (hset : ∀ u n, n < k → P (f u n) n)
    (hkeep : ∀ u m n, P u n → P (f u m) n) (s : State) : ∀ n < k, P ((List.range k).foldl f s) n := by
  have hall (j : Nat) (hj : j ≤ k) : ∀ n < j, P ((List.range j).foldl f s) n := by
    induction j with
    | zero => exact fun n hn => absurd hn (Nat.not_lt_zero n)
    | succ j ih =>
      intro n hn
      rw [List.range_succ, List.foldl_append, List.foldl_cons, List.foldl_nil]
      rcases Nat.lt_succ_iff_lt_or_eq.mp hn with hlt | rfl
      · exact hkeep _ j n (ih (by omega) n hlt)
      · exact hset _ n (by omega)
  exact hall k (Nat.le_refl k)

/-! ## The compute-part reset (R492, R493) -/

/-- The swaps that a reset completes are vacancies: they change neither the module's state nor the recovery, and start nothing. -/
theorem State.applySwap_vacancy {x : Swap} (hk : x.kind = 5) (s : State) :
    (s.applySwap x).boot = s.boot ∧ (s.applySwap x).recov = s.recov ∧ (s.AllQuiet → (s.applySwap x).AllQuiet) := by
  unfold State.applySwap
  simp only [hk]
  exact ⟨rfl, rfl, fun hq n =>
    State.quiet_updTile (s := s.updPtile (pkey (x.unit % 8) (x.unit / 256 % 32)) fun p => { p with out := true }) x.logical (fun _ hy => hy) (hq n)⟩

theorem State.vacate_frame (s : State) : s.vacate.boot = s.boot ∧ s.vacate.recov = s.recov ∧ (s.AllQuiet → s.vacate.AllQuiet) := by
  unfold State.vacate
  refine foldl_inv (Q := fun u : State => u.boot = s.boot ∧ u.recov = s.recov ∧ (s.AllQuiet → u.AllQuiet)) (fun u x hu => ?_) ⟨rfl, rfl, id⟩
  refine if h : x.kind = 5 ∧ u.acc.stopped.contains x.logical = true then ?_ else ?_
  · rw [if_pos h]
    obtain ⟨hboot, hrecov, hquiet⟩ := State.applySwap_vacancy h.1 u
    obtain ⟨uboot, urecov, uquiet⟩ := hu
    exact ⟨hboot.trans uboot, hrecov.trans urecov, fun hq => hquiet (uquiet hq)⟩
  · rw [if_neg h]
    exact hu

theorem State.cpReset_spec {l : List Nat} (hl : s.recov.due = some l) :
    s.cpReset.boot.state = .recovering ∧ s.cpReset.recov.held = true ∧ s.cpReset.recov.due = none ∧ s.cpReset.recov.suspects = l ∧
      s.cpReset.recov.replay = none ∧ s.cpReset.AllQuiet := by
  generalize ht : s.cpReset = t
  unfold State.cpReset at ht
  split at ht
  next hnone => rw [hl] at hnone; cases hnone
  next suspects hsome =>
  obtain rfl : l = suspects := Option.some.inj (hl.symm.trans hsome)
  extract_lets s0 s1 gen s2 s3 s4 colls s5 front recov s6 at ht
  subst ht
  have hboot1 : s1.boot.state = .recovering := by
    rw [(State.giveServing_keepsStanding (s := s0.setMod .recovering)).boot]
    exact State.setMod_state _ _
  have hboot3 : s3.boot = s1.boot := ite_of_both (Q := fun u : State => u.boot = s1.boot) (State.moduleEntry_boot _ _ _) rfl
  have hboot4 : s4.boot = s1.boot := foldl_inv (Q := fun u : State => u.boot = s1.boot) (fun _ _ hu => hu) hboot3
  have hquiet4 : s4.AllQuiet := fun n => by
    by_cases hn : n < 128
    · refine foldl_range_each (P := fun u n => (u.tile n).Quiet) 128 (fun u n hn => ?_) (fun u m n hq => ?_) s3 n hn
      · exact State.quiet_updTile_same (s := u) hn fun _ => ⟨rfl, rfl, rfl, rfl⟩
      · exact State.quiet_updTile (s := u) m (fun _ _ => ⟨rfl, rfl, rfl, rfl⟩) hq
    · simp only [State.tile, dif_neg hn]
      exact ⟨rfl, rfl, rfl, rfl⟩
  clear_value s4
  have hkeep : KeepsStanding s4 s5 := s4.endColls_keepsStanding (fun _ => true) 0x37
  clear_value s5 s1
  have hquiet6 : s6.AllQuiet := hkeep.chains.allQuiet hquiet4
  obtain ⟨hboot, hrecov, hquiet⟩ := s6.vacate_frame
  have hrestart : s6.vacate.restartCopies.recov = s6.recov := hrecov
  refine ⟨?_, ?_, ?_, ?_, ?_, hquiet hquiet6⟩
  · exact (congrArg (·.state) (hboot.trans (hkeep.boot.trans hboot4))).trans hboot1
  all_goals
    rw [hrestart]

/-! ## The release and the replay (R492, R498) -/

theorem State.startReplay_colls (n : Nat) : (s.startReplay n).recov.colls = s.recov.colls := by
  unfold State.startReplay
  exact foldl_inv (Q := fun u : State => u.recov.colls = s.recov.colls) (fun _ _ hu => hu) rfl

theorem State.nextSuspect_frame :
    s.nextSuspect.recov.held = s.recov.held ∧ s.nextSuspect.recov.wrap = s.recov.wrap ∧ s.nextSuspect.recov.colls = s.recov.colls ∧
      s.nextSuspect.flash = s.flash := by
  unfold State.nextSuspect
  split
  · refine ⟨?_, ?_, State.startReplay_colls _, ?_⟩
    · exact (State.startReplay_keepsStanding _).held
    · exact (State.startReplay_keepsStanding _).wrap
    · exact (State.startReplay_keepsStanding _).flash
  · exact ⟨rfl, rfl, rfl, rfl⟩

theorem State.nextSuspect_last (hs : s.recov.suspects = []) :
    s.nextSuspect = { s.setFld 0x700000 0 3 4 with recov := { s.recov with suspects := [], replay := none } } := by
  unfold State.nextSuspect
  rw [hs, List.mergeSort_nil]
  rfl

theorem completes_computePartRelease (hh : s.recov.held = true) :
    Completes .computePartRelease s fun t => t.recov.held = false ∧ t.recov.wrap = false ∧ t.recov.colls = [] ∧ t.flash = s.flash := by
  refine ⟨_, rfl, ?_⟩
  have hno : ¬(!s.recov.held) = true := by rw [hh]; exact Bool.false_ne_true
  unfold State.cpRelease
  rw [if_neg hno]
  extract_lets recov s1 s2 s3
  have h1 : s1.recov.held = false ∧ s1.recov.wrap = false ∧ s1.flash = s.flash := ⟨rfl, rfl, rfl⟩
  have h2 : KeepsStanding s1 s2 := by
    refine .foldl (fun u n => ?_) s1
    split
    · exact u.rollback_keepsStanding _ _
    · exact .ite (u.rollback_keepsStanding _ _) (.refl u)
  have h3 : KeepsStanding s1 s3 := h2.trans (.foldl (fun u n => u.raise_keepsStanding _ _ _) s2)
  obtain ⟨hheld, hwrap, hcolls, hflash⟩ := State.nextSuspect_frame (s := { s3 with recov := { s3.recov with colls := [] } })
  clear_value s1 s3
  obtain ⟨hheld1, hwrap1, hflash1⟩ := h1
  exact ⟨(hheld.trans h3.held).trans hheld1, (hwrap.trans h3.wrap).trans hwrap1, hcolls, (hflash.trans h3.flash).trans hflash1⟩

theorem completes_suspectWindow_hung {c : Nat} (htidy : s.tidy = true) (hc : c < 16) (hr : s.recov.replay.map (·.1) = some c)
    (hne : s.tilesOf c ((s.allCmds c).map (·.1)) ≠ []) (hb : s.blocked c (s.tilesOf c ((s.allCmds c).map (·.1))) = false) :
    Completes (.suspectWindow c false) s fun t =>
      t.recov.due = some s.recov.suspects ∧ t.recov.replay = none ∧ t.flag 0x700014 (16 + c) = true := by
  have hno : ¬((s.recov.replay.map (·.1)) ≠ some c ∨ false = true ∨ (s.tilesOf c ((s.allCmds c).map (·.1))).isEmpty = true ∨
      s.blocked c (s.tilesOf c ((s.allCmds c).map (·.1))) = true) := by
    simp [hr, hne, hb]
  refine ⟨_, if_neg hno, ?_⟩
  generalize hi : ({ tile := (s.tilesOf c ((s.allCmds c).map (·.1))).head?, detail := (s.tilesOf c ((s.allCmds c).map (·.1))).headD 0 } : Info) = i
  have wr : nwf (s.raise c 0x04 i).regs = true := State.tidy_regs ((State.raise_good (Good.refl s)).tidy htidy)
  exact ⟨congrArg some (s.raise_keepsStanding c 0x04 i).suspects, rfl, State.flag_setFlag_same _ _ _ wr (by omega)⟩

theorem completes_suspectReplayLimit {c : Nat} (hw : nwf s.regs = true) (hr : s.recov.replay = some (c, 0)) (hd : s.replayDone c = true)
    (hs : s.recov.suspects = []) :
    Completes .suspectReplayLimit s fun t => t.recov.replay = none ∧ t.fld 0x700000 0 3 = 4 ∧ t.tiles = s.tiles := by
  have hexec : exec .suspectReplayLimit s = .next s.leaveSuspect := by
    show execSuspectReplayLimit s = _
    simp only [execSuspectReplayLimit, hr, hd, if_true]
  refine ⟨_, hexec, ?_⟩
  rw [State.leaveSuspect, State.nextSuspect_last (s := { s with recov := { s.recov with replay := none } }) hs]
  exact ⟨rfl, State.fld_setFld_same (s := { s with recov := { s.recov with replay := none } }) _ _ _ 4 hw (by decide), rfl⟩

/-! ## Controllers and control cores (R500, R503) -/

theorem completes_mcFailover_first (hcat : s.cat.isSome = true) (hb : s.boot.state ≠ .halted) (hm : s.recov.mcFailed = 0) :
    Completes .mcFailover s fun t => t.recov = { s.recov with mcFailed := 1, mcTake := true } ∧ t.tiles = s.tiles := by
  have hno : ¬(s.cat = none ∨ s.boot.state = .halted) := fun h => h.elim (fun h => by rw [h] at hcat; cases hcat) hb
  refine ⟨_, (if_neg hno).trans (if_pos hm), ?_⟩
  exact ⟨State.moduleEntry_recov _ _ _, State.moduleEntry_tiles _ _ _⟩

/-- What makes a compute-part reset of a serving module fall due, with no suspects. -/
theorem State.computeFault_dueOnly (code : Nat) (i : Info) (hw : nwf s.regs = true) (hs : s.serves = true) (hr : s.inRecovery = false) :
    (s.computeFault none code i []).recov = { s.recov with due := some [], bankUe := [] } ∧ (s.computeFault none code i []).tiles = s.tiles := by
  rw [State.computeFault_due _ _ _ hw hs hr]
  exact ⟨rfl, State.moduleEntry_tiles _ _ _⟩

end

/-- Settles O29: a reset quiets every tile and lists the suspects, which leave the list one by one as they replay. -/
theorem recoveryStepsOfTheComputePart : Obligations.RecoveryStepsOfTheComputePart := by
  intro s htidy
  have hw := State.tidy_regs htidy
  refine ⟨fun l hl => ⟨_, rfl, State.cpReset_spec hl⟩, fun hh => completes_computePartRelease hh, ?_,
    fun c hr hd hs => completes_suspectReplayLimit hw hr hd hs, fun hcat hb hm => completes_mcFailover_first hcat hb hm,
    fun d hd hs hr => ⟨_, if_neg (by omega), State.computeFault_dueOnly _ _ hw hs hr⟩,
    fun hs hr => ⟨_, rfl, State.computeFault_dueOnly _ _ hw hs hr⟩, fun hs => ⟨_, if_pos hs, rfl⟩⟩
  intro c hr tiles hne hb
  exact completes_suspectWindow_hung htidy c.isLt hr hne hb

end Sys2Proof.Machine
end


section
/-!
PROOFS. Tenants: freezing, unfreezing and resetting one, common regions, weight ranges and cleared records: O30.
-/

namespace Sys2Proof.Machine

section
variable {s t u : State} {n : Nat}

/-! ## Freezing (R488) -/

/-- A freeze of an ACTIVE tenant begins to save its units. -/
theorem State.freeze_saving (peer : Bool) (ha : s.active n = true) : (s.freeze n peer).recov.saving.contains n = true := by
  unfold State.freeze
  extract_lets s0 s1 s2 recov s3 s4
  have ha0 : ¬(!s0.active n) = true := by
    rw [show s0.active n = s.active n from rfl, ha]
    exact Bool.false_ne_true
  have h3 : s3.recov.saving.contains n = true := by simp [s3]
  have h4 : s4.recov = s3.recov := ((s3.tntEvent_reports n 0).trans (State.modEvent_reports _ 3)).recov
  have h5 : (s4.sendTwin 0 (.freeze n 0xF2)).recov = s4.recov := by
    have hl := s4.sendTwin_linkOnly 0 (.freeze n 0xF2)
    rw [LinkOnly] at hl
    rw [hl]
  rw [if_neg ha0]
  refine ite_of_both (Q := fun u : State => u.recov.saving.contains n = true) ?_ ?_
  · rw [h5, h4]
    exact h3
  · rw [h4]
    exact h3

theorem completes_freeze (hw : nwf s.regs = true) (hn : n < 16) (hs : s.serves = true) (ha : s.active n = true) :
    Completes (.freeze n) s fun t => t.tState n = tsFrozen ∧ t.recov.saving.contains n = true ∧ t.tiles = s.tiles := by
  obtain ⟨-, hstate, -, htiles⟩ := State.freeze_active true hw hn (beq_iff_eq.mp ha)
  have hno : ¬(16 ≤ n ∨ (!s.serves) = true) := by
    simp only [hs, Bool.not_true, Bool.false_eq_true, or_false]
    omega
  have hexec : exec (.freeze n) s = .next (s.freeze n true) := (if_neg hno).trans (congrArg _ (if_pos ha))
  exact ⟨_, hexec, hstate, State.freeze_saving true ha, htiles⟩

/-- An UNFREEZE of a FROZEN tenant whose record does not forbid it waits for the boundary. -/
theorem completes_unfreeze (hn : n < 16) (hs : s.serves = true) (hf : s.tState n = tsFrozen) (hno : s.flag (tnt n 0x100) 19 = false) :
    Completes (.unfreeze n) s fun t => (t.twinSt n).unfreeze = true ∧ t.tState n = tsFrozen := by
  have hguard : ¬(16 ≤ n ∨ (!s.serves) = true) := by
    simp only [hs, Bool.not_true, Bool.false_eq_true, or_false]
    omega
  let v := s.updTwin n fun x => { x with unfreeze := true }
  have hask : s.askUnfreeze n = if v.comparing n then v.sendTwin 0 (.unfreeze n) else v :=
    if_neg (by simp [hf, hno])
  have hv : (v.twinSt n).unfreeze = true := by rw [State.twinSt_updTwin_same _ hn]
  refine ⟨_, if_neg hguard, ?_⟩
  rw [hask]
  refine ite_of_both (Q := fun w : State => (w.twinSt n).unfreeze = true ∧ w.tState n = tsFrozen) ?_ ⟨hv, hf⟩
  have hl := v.sendTwin_linkOnly 0 (.unfreeze n)
  rw [LinkOnly] at hl
  rw [hl]
  exact ⟨hv, hf⟩

/-! ## Tenant reset (R423) -/

theorem State.dropAllFeeds_keepsStanding (n : Nat) : KeepsStanding s (s.dropAllFeeds n) := by
  unfold State.dropAllFeeds
  split
  · exact .refl s
  · refine .foldl (fun u x => ?_) s
    split
    next m _ =>
      unfold State.dropFeeds
      refine (u.updSess_keepsStanding m _).trans (.foldl (fun v f => ?_) _)
      exact (State.updCmd_keepsStanding _ _ _).trans (State.endWork_keepsStanding _ _)

theorem State.sendVc3_keepsStanding (c : Ctl) : KeepsStanding s (s.sendVc3 c) := (State.sendPacket_getD_linkOnly _ _ _ _).keepsStanding

theorem State.resetMigrates_keepsStanding (n : Nat) : KeepsStanding s (s.resetMigrates n) := by
  unfold State.resetMigrates
  split
  · exact .refl s
  · refine .foldl (fun u x => ?_) s
    split
    split
    · exact .ite (State.sendVc3_keepsStanding _) (.ite (State.sendVc3_keepsStanding _) (.refl u))
    · exact .refl u

theorem State.resetFront_keepsStanding (n : Nat) : KeepsStanding s (s.resetFront n) := by
  unfold State.resetFront
  extract_lets v rcp
  have hv : KeepsStanding s v := .foldl (fun w r => ((w.updRing_keepsStanding n r _).trans
    (State.setFlag_keepsStanding _ _ (offStates_rng _ _ _))).trans (State.setFld_keepsStanding _ _ _ (offStates_rng _ _ _))) s
  clear_value v
  exact hv.trans (.of_eq rfl rfl rfl rfl rfl rfl)

theorem State.resetLarder_keepsStanding (n : Nat) : KeepsStanding s (s.resetLarder n) := .of_eq rfl rfl rfl rfl rfl rfl

theorem State.resetColls_keepsStanding (n : Nat) : KeepsStanding s (s.resetColls n) := by
  unfold State.resetColls
  extract_lets v coll w
  have hv : KeepsStanding s v := s.endColls_keepsStanding _ _
  clear_value v
  have hw : KeepsStanding s w := hv.trans (.of_eq rfl rfl rfl rfl rfl rfl)
  clear_value w
  exact hw.trans (State.zeroRegs_keepsStanding fun a ha _ => offStates_far (by simp only [colGrp] at ha; omega))

/-- Tenant `n` is being reset, over the flash and fuses of `s`. -/
structure Resetting (n : Nat) (s t : State) : Prop where
  wf : nwf t.regs = true
  state : t.tState n = tsResetting
  flash : t.flash = s.flash
  fuses : t.fuses = s.fuses

theorem KeepsStanding.resetting (h : KeepsStanding t u) (hn : n < 16) (g : Resetting n s t) : Resetting n s u where
  wf := h.wf g.wf
  state := (h.states g.wf n hn (by rw [State.active, g.state]; rfl)).trans g.state
  flash := h.flash.trans g.flash
  fuses := h.fuses.trans g.fuses

theorem Resetting.of_eq (g : Resetting n s t) (hr : u.regs = t.regs) (hf : u.flash = t.flash) (hu : u.fuses = t.fuses) : Resetting n s u where
  wf := hr ▸ g.wf
  state := ((WordsOnly.of_regs_eq (P := fun _ => False) hr).fld_eq g.wf id 0 2).trans g.state
  flash := hf.trans g.flash
  fuses := hu.trans g.fuses

theorem State.clearTenant_resetting (hn : n < 16) (h : Resetting n s t) :
    Resetting n s (t.clearTenant n) ∧ ∀ k f, k < 4096 → f < 3 → (t.clearTenant n).ctr n k f = 0 := by
  unfold State.clearTenant
  extract_lets s3
  have h3 : Resetting n s s3 := (State.resetColls_keepsStanding n).resetting hn h
  clear_value s3
  split
  extract_lets s4 cdx s5 s6 s7
  have h4 : Resetting n s s4 := by
    refine foldl_inv (Q := Resetting n s) (fun u i hu => ?_) h3
    extract_lets runs v
    have hv : Resetting n s v := hu.of_eq rfl rfl rfl
    clear_value v
    exact ite_of_both (Q := Resetting n s) (hv.of_eq rfl rfl rfl) hv
  clear_value s4
  have h5 : Resetting n s s5 := h4.of_eq rfl rfl rfl
  clear_value s5
  have hfeeds : Resetting n s (s5.dropAllFeeds n) := (State.dropAllFeeds_keepsStanding n).resetting hn h5
  have hfront : Resetting n s (((s5.dropAllFeeds n).resetMigrates n).resetFront n) :=
    (State.resetFront_keepsStanding n).resetting hn ((State.resetMigrates_keepsStanding n).resetting hn hfeeds)
  have h6 : Resetting n s s6 := (State.resetLarder_keepsStanding n).resetting hn hfront
  clear_value s6
  have h7 : Resetting n s s7 := foldl_inv (Q := Resetting n s) (fun _ _ hu => hu.of_eq rfl rfl rfl) h6
  clear_value s7
  exact ⟨h7.of_eq rfl rfl rfl, fun k f hk hf =>
    (congrArg BitVec.toNat (nget_filter_out fun _ => by simpa using ctrKey_range hk hf)).trans BitVec.toNat_zero⟩

/-- From `s` to `t` the registers of tenant `n` are cleared, but for its state and its fault record's first word; flash, the fuses and
the delivery counters stay. -/
structure ClearsRegs (n : Nat) (s t : State) : Prop where
  words : WordsOnly (fun a => a ≠ tnt n 0 ∧ a ≠ tnt n 0x100) s t
  flash : t.flash = s.flash
  fuses : t.fuses = s.fuses
  ctrs : t.ctrs = s.ctrs

theorem ClearsRegs.refl (s : State) : ClearsRegs n s s := ⟨.refl s, rfl, rfl, rfl⟩

theorem ClearsRegs.trans (h : ClearsRegs n s t) (g : ClearsRegs n t u) : ClearsRegs n s u :=
  ⟨h.words.trans g.words, g.flash.trans h.flash, g.fuses.trans h.fuses, g.ctrs.trans h.ctrs⟩

theorem ClearsRegs.foldl {α : Type} {f : State → α → State} {l : List α} (hf : ∀ u x, ClearsRegs n u (f u x)) (s : State) :
    ClearsRegs n s (l.foldl f s) :=
  foldl_inv (Q := ClearsRegs n s) (fun u x h => h.trans (hf u x)) (.refl s)

theorem State.setWord_clearsRegs {a : Nat} (v : W32) (h0 : a ≠ tnt n 0) (h1 : a ≠ tnt n 0x100) : ClearsRegs n s (s.setWord a v) :=
  ⟨s.setWord_words v ⟨h0, h1⟩, rfl, rfl, rfl⟩

theorem State.zeroRegs_clearsRegs {lo hi : Nat} (h : ∀ a, lo ≤ a → a < hi → a ≠ tnt n 0 ∧ a ≠ tnt n 0x100) :
    ClearsRegs n s (s.zeroRegs lo hi) := ⟨s.zeroRegs_words h, rfl, rfl, rfl⟩

/-- Registers beyond the tenants' own. -/
theorem State.zeroFar_clearsRegs (hn : n < 16) {lo hi : Nat} (h : 0x120000 ≤ lo) : ClearsRegs n s (s.zeroRegs lo hi) :=
  State.zeroRegs_clearsRegs fun a ha _ => by simp only [tnt]; omega

/-- Registers of the tenant's own block. -/
theorem State.zeroOwn_clearsRegs {lo hi : Nat} (h0 : 0 < lo) (h : hi ≤ 0x100 ∨ 0x100 < lo) :
    ClearsRegs n s (s.zeroRegs (tnt n lo) (tnt n hi)) :=
  State.zeroRegs_clearsRegs fun a ha hb => by simp only [tnt] at *; omega

theorem State.zeroCounters_clearsRegs (hn : n < 16) : ClearsRegs n s (s.zeroCounters n) := by
  unfold State.zeroCounters
  extract_lets s1 s2 s3 s4 s5
  have h1 : ClearsRegs n s s1 := ((State.setWord_clearsRegs _ (by simp [tnt]) (by simp [tnt])).trans
    (State.setWord_clearsRegs _ (by simp [tnt]) (by simp [tnt]))).trans (State.zeroOwn_clearsRegs (by decide) (.inr (by decide)))
  have h2 : ClearsRegs n s s2 := h1.trans (.foldl (fun w r => State.zeroFar_clearsRegs hn (by simp only [rng]; omega)) s1)
  have h3 : ClearsRegs n s s3 := h2.trans ((State.zeroFar_clearsRegs hn (by omega)).trans (State.zeroFar_clearsRegs hn (by omega)))
  have h4 : ClearsRegs n s s4 := h3.trans ((State.zeroFar_clearsRegs hn (by omega)).trans
    (State.zeroRegs_clearsRegs fun a _ hb => by simp only [tnt]; omega))
  have h5 : ClearsRegs n s s5 := h4.trans (.foldl (fun w c => State.zeroFar_clearsRegs hn (by omega)) s4)
  clear_value s5
  exact h5.trans ⟨.of_regs_eq rfl, rfl, rfl, rfl⟩

theorem State.clearRegs_spec (hw : nwf s.regs = true) (hn : n < 16) (cmp : Bool) :
    (s.clearRegs n cmp).tState n = s.tState n ∧ (s.clearRegs n cmp).flag (tnt n 0x100) 19 = false ∧
      (s.clearRegs n cmp).flash = s.flash ∧ (s.clearRegs n cmp).fuses = s.fuses ∧ (s.clearRegs n cmp).ctrs = s.ctrs := by
  unfold State.clearRegs
  extract_lets s1 s2 s3
  let s0 := s.setFlag (tnt n 0x100) 19 false
  have w0 : nwf s0.regs = true := State.nwf_setFlag _ _ _ hw
  have hflag : s0.flag (tnt n 0x100) 19 = false := State.flag_setFlag_same _ _ _ hw (by decide)
  have hstate : s0.tState n = s.tState n := State.fld_setFld_other _ _ _ _ _ hw (by simp [tnt])
  have h1 : ClearsRegs n s0 s1 := State.setWord_clearsRegs _ (by simp [tnt]) (by simp [tnt])
  have h2 : ClearsRegs n s0 s2 := h1.trans ((State.setWord_clearsRegs _ (by simp [tnt]) (by simp [tnt])).trans
    ((State.zeroOwn_clearsRegs (by decide) (.inl (by decide))).trans (State.zeroOwn_clearsRegs (by decide) (.inl (by decide)))))
  have h3 : ClearsRegs n s0 s3 := h2.trans (State.zeroCounters_clearsRegs hn)
  have h4 : ClearsRegs n s0 (if cmp then (s3.setFld (tnt n 0x8) 4 2 0).tntEvent n 4 else s3) := by
    have hmode : ClearsRegs n s3 (s3.setFld (tnt n 0x8) 4 2 0) := State.setWord_clearsRegs _ (by simp [tnt]) (by simp [tnt])
    refine ite_of_both (Q := ClearsRegs n s0) ((h3.trans hmode).trans ?_) h3
    have hr := (s3.setFld (tnt n 0x8) 4 2 0).tntEvent_reports n 4
    exact ⟨State.tntEvent_words _ _ _ (by simp [tnt]), hr.flash, hr.fuses, hr.ctrs⟩
  exact ⟨(h4.words.fld_eq w0 (by simp) 0 2).trans hstate, (h4.words.flag_eq w0 (by simp) 19).trans hflag, h4.flash, h4.fuses, h4.ctrs⟩

theorem completes_tenantReset (hw : nwf s.regs = true) (hn : n < 16) (hs : s.serves = true) (ha : s.tState n = tsActive ∨ s.tState n = tsFrozen) :
    Completes (.tenantReset n) s fun t => t.tState n = tsResetting ∧ (∀ k f, k < 4096 → f < 3 → t.ctr n k f = 0) ∧
      t.flag (tnt n 0x100) 19 = false ∧ t.flash = s.flash ∧ t.fuses = s.fuses := by
  have hguard : ¬(16 ≤ n ∨ (!s.serves) = true) := by
    simp only [hs, Bool.not_true, Bool.false_eq_true, or_false]
    omega
  have hask : s.askReset n = s.tenantReset n true := if_pos (by rcases ha with h | h <;> simp [State.active, h])
  refine ⟨_, if_neg hguard, ?_⟩
  rw [hask, State.tenantReset_eq ha]
  have hl : LinkOnly s (if true && s.comparing n then s.sendTwin 0 (.reset n) else s) := .ite (s.sendTwin_linkOnly _ _) (.refl s)
  generalize (if true && s.comparing n then s.sendTwin 0 (.reset n) else s) = v at *
  have wv : nwf v.regs = true := hl.regs ▸ hw
  have hstart : Resetting n s (v.setTState n tsResetting) :=
    ⟨State.nwf_setFld _ _ _ _ wv, State.fld_setFld_same _ _ _ _ wv (by decide), hl.keepsStanding.flash, hl.keepsStanding.fuses⟩
  obtain ⟨hmid, hzero⟩ := State.clearTenant_resetting hn hstart
  obtain ⟨hstate, hflag, hflash, hfuses, hctrs⟩ := State.clearRegs_spec hmid.wf hn (s.comparing n)
  exact ⟨hstate.trans hmid.state, fun k f hk hf => by rw [State.ctr, hctrs]; exact hzero k f hk hf, hflag, hflash.trans hmid.flash,
    hfuses.trans hmid.fuses⟩

theorem State.tntEvent_hbm (s : State) (n b : Nat) : (s.tntEvent n b).hbm = s.hbm := by
  unfold State.tntEvent
  dsimp only
  split
  · exact State.interrupt_hbm _ _ _
  · rfl

theorem completes_tenantResetComplete (hw : nwf s.regs = true) (hn : n < 16) (hr : s.tState n = tsResetting) :
    Completes (.tenantResetComplete n) s fun t => t.tState n = tsActive ∧ t.flag (tnt n 0x30) 3 = true ∧ t.tiles = s.tiles ∧ t.hbm = s.hbm := by
  have hguard : ¬(16 ≤ n ∨ s.tState n ≠ tsResetting) := by
    simp only [hr, ne_eq, not_true_eq_false, or_false]
    omega
  refine ⟨_, if_neg hguard, ?_⟩
  have w1 : nwf (s.setTState n tsActive).regs = true := State.nwf_setFld _ _ _ _ hw
  have h1 : (s.setTState n tsActive).tState n = tsActive := State.fld_setFld_same _ _ _ _ hw (by decide)
  have h2 : WordsOnly (· = tnt n 0x30) (s.setTState n tsActive) ((s.setTState n tsActive).tntEvent n 3) := State.tntEvent_words _ _ _ rfl
  have h3 : WordsOnly (· = 0x30) ((s.setTState n tsActive).tntEvent n 3) (((s.setTState n tsActive).tntEvent n 3).modEvent 3) :=
    State.modEvent_words _ _ rfl
  have w2 := h2.wf w1
  refine ⟨?_, ?_, ?_, ?_⟩
  · exact (h3.fld_eq w2 (by simp only [tnt]; omega) 0 2).trans ((h2.fld_eq w1 (by simp [tnt]) 0 2).trans h1)
  · rw [h3.flag_eq w2 (by simp only [tnt]; omega), State.flag_tntEvent _ _ _ w1 (by decide)]
    rfl
  · rw [State.modEvent_tiles, State.tntEvent_tiles]
    rfl
  · rw [State.modEvent_hbm, State.tntEvent_hbm]
    rfl

/-! ## Common regions and weight ranges (R419, R464) -/

theorem completes_publish {r : Nat} (hs : s.serves = true) (hr : r < 8) (hlt : r < ((s.cat.map (·.commons)).getD []).length)
    (hc : s.commonState r = 0) : Completes (.publish r) s fun t => t = { s with publish := s.publish ||| 2 ^ r } := by
  have hno : ¬(((s.cat.map (·.commons)).getD []).length ≤ r ∨ s.commonState r ≠ 0) := by
    simp only [hc, ne_eq, not_true_eq_false, or_false]
    omega
  exact ⟨_, (if_pos ⟨hs, hr⟩).trans (congrArg _ (if_neg hno)), rfl⟩

theorem completes_commonDigest {r : Nat} (hw : nwf s.regs = true) (hr : r < 8) (hc : s.commonState r = 1) :
    Completes (.commonDigestComplete r) s fun t => aget t.commonDigs r = some (sha384 (s.commonBytes r)) ∧ t.flag 0x10F000 (16 + r) = false ∧
      t.flag 0x10F000 (8 + r) = true ∧ t.hbm = s.hbm := by
  have hno : ¬(8 ≤ r ∨ s.commonState r ≠ 1) := by
    simp only [hc, ne_eq, not_true_eq_false, or_false]
    omega
  have w1 : nwf (s.setFlag 0x10F000 (16 + r) false).regs = true := State.nwf_setFlag _ _ _ hw
  have hclear : ((s.setFlag 0x10F000 (16 + r) false).setFlag 0x10F000 (8 + r) true).flag 0x10F000 (16 + r) = false :=
    (State.flag_setFlag_bit _ w1 (by omega) (by omega)).trans (State.flag_setFlag_same _ _ _ hw (by omega))
  have hset : ((s.setFlag 0x10F000 (16 + r) false).setFlag 0x10F000 (8 + r) true).flag 0x10F000 (8 + r) = true :=
    State.flag_setFlag_same _ _ _ w1 (by omega)
  exact ⟨_, if_neg hno, aget_aput_same _ _ _, hclear, hset, rfl⟩

theorem completes_wsetGo {p : Partition} (hw : nwf s.regs = true) (hn : n < 16) (hs : s.serves = true) (hp : s.part n = some p)
    (hfit : wsetFits p (s.quad (tnt n 0x40)) (s.quad (tnt n 0x48)) = true) (h1 : s.flag (tnt n 0x50) 1 = false)
    (h2 : s.flag (tnt n 0x50) 2 = false) :
    Completes (.wsetGo n) s fun t => (t.twinSt n).wsetAt = some (s.quad (tnt n 0x40), s.quad (tnt n 0x48)) ∧ t.flag (tnt n 0x50) 1 = true := by
  have hguard : ¬(16 ≤ n ∨ (!s.serves) = true ∨ (s.part n).isNone = true) := by
    simp only [hs, hp, Bool.not_true, Bool.false_eq_true, Option.isNone_some, or_self, or_false]
    omega
  have hno : ¬(s.flag (tnt n 0x50) 1 || s.flag (tnt n 0x50) 2 ||
      !((s.part n).map fun p => wsetFits p (s.quad (tnt n 0x40)) (s.quad (tnt n 0x48))).getD false) = true := by
    simp [h1, h2, hp, hfit]
  refine ⟨_, (if_neg hguard).trans (congrArg _ (if_neg hno)), ?_, State.flag_setFlag_same _ _ _ hw (by decide)⟩
  rw [State.twinSt_updTwin_same _ hn]

theorem completes_wsetDigest {r : Nat × Nat} (hw : nwf s.regs = true) (hn : n < 16) (hr : (s.twinSt n).wsetOn = some r)
    (h1 : s.flag (tnt n 0x50) 1 = true) :
    Completes (.wsetDigestComplete n) s fun t => t.flag (tnt n 0x50) 1 = false ∧ t.flag (tnt n 0x50) 2 = true ∧ t.twin = s.twin := by
  obtain ⟨base, size⟩ := r
  have hguard : ¬(16 ≤ n ∨ (!s.flag (tnt n 0x50) 1) = true) := by
    simp only [h1, Bool.not_true, Bool.false_eq_true, or_false]
    omega
  have hexec : exec (.wsetDigestComplete n) s = .next (((s.setFlag (tnt n 0x50) 1 false).setFlag (tnt n 0x50) 2 true).setBytes (tnt n 0x60)
      (sha384 (((s.taRead n base size).map (·.1)).getD []))) := by
    show execWsetDigestComplete n s = _
    simp only [execWsetDigestComplete, hr, if_neg hguard]
  have w1 : nwf (s.setFlag (tnt n 0x50) 1 false).regs = true := State.nwf_setFlag _ _ _ hw
  have w2 : nwf ((s.setFlag (tnt n 0x50) 1 false).setFlag (tnt n 0x50) 2 true).regs = true := State.nwf_setFlag _ _ _ w1
  have hd (bs : List Byte) : WordsOnly (tnt n 0x50 < ·) ((s.setFlag (tnt n 0x50) 1 false).setFlag (tnt n 0x50) 2 true)
      (((s.setFlag (tnt n 0x50) 1 false).setFlag (tnt n 0x50) 2 true).setBytes (tnt n 0x60) bs) :=
    State.setBytes_words _ _ fun i _ => by simp only [tnt]; omega
  refine ⟨_, hexec, ?_, ?_, State.setBytes_twin _ _ _⟩
  · rw [(hd _).flag_eq w2 (Nat.lt_irrefl _), State.flag_setFlag_bit _ w1 (by decide) (by decide)]
    exact State.flag_setFlag_same _ _ _ hw (by decide)
  · rw [(hd _).flag_eq w2 (Nat.lt_irrefl _)]
    exact State.flag_setFlag_same _ _ _ w1 (by decide)

/-! ## Cleared records (R485, R505) -/

theorem State.word_zeroRegs_in {a lo hi : Nat} (hlo : lo ≤ a) (hhi : a < hi) : (s.zeroRegs lo hi).word a = 0 :=
  nget_filter_out fun _ => by simp [hlo, hhi]

theorem State.faultClear_spec (hw : nwf s.regs = true) :
    (s.faultClear n).fld (tnt n 0x100) 0 19 = 0 ∧ (s.faultClear n).word (tnt n 0x104) = 0 ∧
    (s.faultClear n).flag (tnt n 0x100) 19 = s.flag (tnt n 0x100) 19 ∧ ∀ a, tnt n 0x120 ≤ a → a < tnt n 0x160 → (s.faultClear n).word a = 0 := by
  have w1 : nwf (s.setFld (tnt n 0x100) 0 19 0).regs = true := State.nwf_setFld _ _ _ _ hw
  have h2 : WordsOnly (· = tnt n 0x104) (s.setFld (tnt n 0x100) 0 19 0) ((s.setFld (tnt n 0x100) 0 19 0).setWord (tnt n 0x104) 0) :=
    State.setWord_words _ _ rfl
  have w2 := h2.wf w1
  have h3 : WordsOnly (tnt n 0x120 ≤ ·) ((s.setFld (tnt n 0x100) 0 19 0).setWord (tnt n 0x104) 0) (s.faultClear n) :=
    State.zeroRegs_words _ fun _ ha _ => ha
  have hlow {o : Nat} (ho : o < 0x120) : ¬tnt n 0x120 ≤ tnt n o := by simp only [tnt]; omega
  refine ⟨?_, ?_, ?_, fun a hlo hhi => State.word_zeroRegs_in hlo hhi⟩
  · rw [h3.fld_eq w2 (hlow (by decide)), h2.fld_eq w1 (by simp [tnt]), State.fld_setFld_same _ _ _ _ hw (by decide)]
    rfl
  · rw [h3.word w2 _ (hlow (by decide)), State.word_setWord_same _ _ w1]
  · rw [h3.flag_eq w2 (hlow (by decide)), h2.flag_eq w1 (by simp [tnt]), State.flag, State.fld_setFld_above _ hw (by decide) (by decide)]
    rfl

theorem State.fltClear_spec (hw : nwf s.regs = true) :
    s.fltClear.word 0x700004 = 0 ∧ s.fltClear.flag 0x700000 16 = false ∧ (∀ a, 0x700020 ≤ a → a < 0x700060 → s.fltClear.word a = 0) ∧
      s.fltClear.fld 0x700000 0 3 = s.fld 0x700000 0 3 := by
  have h1 : WordsOnly (· = 0x700004) s (s.setWord 0x700004 0) := s.setWord_words _ rfl
  have w1 := h1.wf hw
  have h2 : WordsOnly (0x700020 ≤ ·) (s.setWord 0x700004 0) ((s.setWord 0x700004 0).zeroRegs 0x700020 0x700060) :=
    State.zeroRegs_words _ fun _ ha _ => ha
  have w2 := h2.wf w1
  have h3 : WordsOnly (· = 0x700000) ((s.setWord 0x700004 0).zeroRegs 0x700020 0x700060) s.fltClear := State.setFlag_words _ _ _ rfl
  refine ⟨?_, State.flag_setFlag_same _ _ _ w2 (by decide), fun a hlo hhi => ?_, ?_⟩
  · rw [h3.word w2 _ (by decide), h2.word w1 _ (by decide), State.word_setWord_same _ _ hw]
  · rw [h3.word w2 _ (by omega)]
    exact State.word_zeroRegs_in hlo hhi
  · refine (State.fld_setFld_below _ w2 (by decide) (by decide)).trans ?_
    rw [h2.fld_eq w1 (by decide), h1.fld_eq hw (by decide)]

end

/-- Settles O30: a freeze, a reset and its end move TNT_STATE and nothing that is not the tenant's, and cleared records read zero. -/
theorem tenantFreezeResetAndRecords : Obligations.TenantFreezeResetAndRecords := by
  intro s c htidy
  have hw := State.tidy_regs htidy
  have hguard (hs : s.serves = true) : ¬(16 ≤ c.val ∨ (!s.serves) = true) := by
    simp only [hs, Bool.not_true, Bool.false_eq_true, or_false]
    omega
  exact ⟨fun hs ha => completes_freeze hw c.isLt hs ha, fun hs hf hno => completes_unfreeze c.isLt hs hf hno,
    fun hs ha => completes_tenantReset hw c.isLt hs ha, fun hr => completes_tenantResetComplete hw c.isLt hr,
    fun r hs hr hlt hc => completes_publish hs hr hlt hc, fun r hr hc => completes_commonDigest hw hr hc,
    fun p hs hp hfit h1 h2 => completes_wsetGo hw c.isLt hs hp hfit h1 h2, fun r hr h1 => completes_wsetDigest hw c.isLt hr h1,
    fun hs => ⟨_, if_neg (hguard hs), State.faultClear_spec hw⟩, _, rfl, State.fltClear_spec hw⟩

end Sys2Proof.Machine
end


section
/-!
PROOFS. The memory windows of the PCIe functions: the bytes that reads show and writes store: O36, O37.
-/

namespace Sys2Proof.Machine

section
variable {s t : State} {n a k : Nat} {p : Partition}

/-! ## Accesses that a window takes (R416) -/

theorem barGuard {fn : Fn} {addr len : Nat} (hb : s.barLive fn = true) (hlen : addr + len ≤ 2 ^ 40) :
    (!s.barLive fn || decide (2 ^ 40 < addr + len)) = false := by
  rw [hb, decide_eq_false (Nat.not_lt.mpr hlen)]
  rfl

theorem exec_bar2Read_pf {addr len : Nat} (hb : s.barLive .pf = true) (hs : s.serves = true) (hlen : addr + len ≤ 2 ^ 40) :
    exec (.bar2Read .pf addr len) s = .next (s.send (.answer .pf (s.pfRead addr len))) := by
  show execBar2Read .pf addr len s = _
  simp only [execBar2Read, barGuard hb hlen, hs, Bool.not_true, Bool.false_eq_true, if_false]

theorem exec_bar2Read_vf {addr len : Nat} (hb : s.barLive (.vf n) = true) (hs : s.serves = true) (hlen : addr + len ≤ 2 ^ 40) :
    exec (.bar2Read (.vf n) addr len) s = .next ((s.vfRead n addr len).2.send (.answer (.vf n) (s.vfRead n addr len).1)) := by
  show execBar2Read (.vf n) addr len s = _
  simp only [execBar2Read, barGuard hb hlen, hs, Bool.not_true, Bool.false_eq_true, if_false]

theorem exec_bar2Write_pf {addr : Nat} {bs : List Byte} (hb : s.barLive .pf = true) (hs : s.serves = true) (hlen : addr + bs.length ≤ 2 ^ 40) :
    exec (.bar2Write .pf addr bs) s = .next (s.pfWrite addr bs) := by
  show execBar2Write .pf addr bs s = _
  have hlt : ¬2 ^ 40 < addr + bs.length := Nat.not_lt.mpr hlen
  simp only [execBar2Write, hb, hs, Bool.not_true, Bool.or_self, Bool.false_or, decide_eq_true_eq, if_neg hlt]

theorem exec_bar2Write_vf {addr : Nat} {bs : List Byte} (hb : s.barLive (.vf n) = true) (hs : s.serves = true)
    (hlen : addr + bs.length ≤ 2 ^ 40) : exec (.bar2Write (.vf n) addr bs) s = .next (s.vfWrite n addr bs) := by
  show execBar2Write (.vf n) addr bs s = _
  have hlt : ¬2 ^ 40 < addr + bs.length := Nat.not_lt.mpr hlen
  simp only [execBar2Write, hb, hs, Bool.not_true, Bool.or_self, Bool.false_or, decide_eq_true_eq, if_neg hlt]

/-! ## What the physical function's window shows (R416, R418, R420) -/

/-- What the window hides is whole blocks of 256 bytes. -/
theorem State.pfHides_block {i : Nat} (h : a % 256 + i < 256) : s.pfHides (a + i) = s.pfHides a := by
  have hg : (a + i) / 0x800000000 = a / 0x800000000 := by omega
  have ho : (a + i) % 0x800000000 = a % 0x800000000 + i := by omega
  have hhidden : (0x7E0000000 ≤ a % 0x800000000 + i) = (0x7E0000000 ≤ a % 0x800000000) := propext (by omega)
  have hreserve : (0x7D0000000 ≤ a % 0x800000000 + i) = (0x7D0000000 ≤ a % 0x800000000) := propext (by omega)
  simp only [State.pfHides, hg, ho, hhidden, hreserve]

/-- The byte that the window shows at a module address. -/
def State.pfByte (s : State) (a : Nat) : Byte := if s.pfHides a then 0 else nget s.hbm a

/-- Within a block all bytes show, or none. -/
theorem State.pfBlock_bytes (h : a % 256 + k ≤ 256) :
    (if s.pfHides a then List.replicate k 0 else readBytes s.hbm a k) = (List.range k).map fun i => s.pfByte (a + i) := by
  have hblock (i : Nat) (hi : i < k) : s.pfByte (a + i) = if s.pfHides a then 0 else nget s.hbm (a + i) := by
    rw [State.pfByte, State.pfHides_block (by omega)]
  rw [List.map_congr_left fun i hi => hblock i (List.mem_range.mp hi)]
  split
  · simp
  · rfl

/-- A read's part in one block. -/
def State.pfReadPiece (s : State) (bs : List Byte) (b : Nat × Nat) : List Byte :=
  bs ++ (if s.pfHides b.1 then List.replicate b.2 0 else readBytes s.hbm b.1 b.2)

theorem State.foldl_pfReadPiece {l : List (Nat × Nat)} (h : CutsBytes a k l) (bs : List Byte) :
    l.foldl s.pfReadPiece bs = bs ++ (List.range k).map fun i => s.pfByte (a + i) := by
  induction l generalizing a k bs with
  | nil => rw [show k = 0 from h]; simp
  | cons b l ih =>
    obtain ⟨b, m⟩ := b
    obtain ⟨rfl, -, hm, hblock, hl⟩ := h
    obtain ⟨j, rfl⟩ := Nat.exists_eq_add_of_le hm
    rw [Nat.add_sub_cancel_left] at hl
    rw [List.foldl_cons, ih hl, State.pfReadPiece, State.pfBlock_bytes hblock, List.append_assoc, List.range_add, List.map_append, List.map_map]
    simp only [Function.comp_def, Nat.add_assoc]

theorem State.pfRead_bytes (addr len : Nat) : s.pfRead addr len = (List.range len).map fun i => s.pfByte (addr + i) :=
  (State.foldl_pfReadPiece (cut256_cuts addr len) []).trans (List.nil_append _)

/-! ## Reads of a virtual function (R414, R431) -/

theorem State.vfRead_own (hp : s.part n = some p) (hk : 0 < k) (ha : a + k ≤ p.taSize) :
    s.vfRead n a k = (s.ownBytes p a k, s.taAccess n a k false .plain) := by
  obtain ⟨bad, hread⟩ := State.taRead_own hp hk ha
  simp only [State.vfRead, hp, State.taFetch, hread]

theorem State.vfRead_unmapped (hp : (s.part n).isSome = true) (hm : s.taMapped n a k = false) :
    s.vfRead n a k = (List.replicate k 0, (s.taAccess n a k false .plain).raise n 0xD1 { addr := a }) := by
  obtain ⟨p, hp⟩ := Option.isSome_iff_exists.mp hp
  have hread : s.taRead n a k = none := by rw [State.taRead_eq, hm, if_neg Bool.false_ne_true]
  simp only [State.vfRead, hp, State.taFetch, hread]

/-- A violation freezes the ACTIVE tenant and stands last in its record. -/
theorem State.raise_violation {code : Nat} (i : Info) (hw : nwf s.regs = true) (hn : n < 16) (ha : s.tState n = tsActive) (hc : code < 256)
    (hcls : faultClass code = (.violation, true, false)) :
    (s.raise n code i).tState n = tsFrozen ∧ (s.raise n code i).fld (tnt n 0x100) 8 8 = code ∧ (s.raise n code i).tiles = s.tiles := by
  obtain ⟨hstate, hlast, -, htiles⟩ := State.raise_freezes i hw hn ha hc (by rw [hcls]) (.inl (by rw [hcls]))
  exact ⟨hstate, hlast, htiles⟩

theorem completes_bar2Read_unmapped {addr len : Nat} (hw : nwf s.regs = true) (hn : n < 16) (hb : s.barLive (.vf n) = true)
    (hs : s.serves = true) (hp : (s.part n).isSome = true) (ha : s.tState n = tsActive) (hm : s.taMapped n addr len = false)
    (hlen : addr + len ≤ 2 ^ 40) :
    Completes (.bar2Read (.vf n) addr len) s fun t => t.outbox.getLast? = some (.answer (.vf n) (List.replicate len 0)) ∧
      t.tState n = tsFrozen ∧ t.fld (tnt n 0x100) 8 8 = 0xD1 ∧ t.tiles = s.tiles := by
  refine ⟨_, exec_bar2Read_vf hb hs hlen, ?_⟩
  rw [State.vfRead_unmapped hp hm]
  obtain ⟨m, hframe⟩ : ∃ m, s.taAccess n addr len false .plain = { s with msc := m } := ⟨_, State.taAccess_frame _ _ _ _⟩
  rw [hframe]
  obtain ⟨hstate, hlast, htiles⟩ := State.raise_violation (s := { s with msc := m }) { addr := addr } hw hn ha (show 0xD1 < 256 by decide) rfl
  exact ⟨by simp [State.send], hstate, hlast, htiles⟩

end

/-- Settles O36: each window shows byte for byte the memory that it maps, and zeros for what it hides or does not map. -/
theorem memoryWindowReads : Obligations.MemoryWindowReads := by
  intro s
  refine ⟨fun fn addr len h => ⟨_, if_pos (by simpa using h), rfl⟩, fun addr len hb hs hlen => ⟨_, exec_bar2Read_pf hb hs hlen, ?_⟩,
    fun n p addr len hb hs hp hsize hlen hpos => ⟨_, exec_bar2Read_vf hb hs hlen, ?_⟩,
    fun n addr len htidy hb hs hp ha hm hlen => completes_bar2Read_unmapped (State.tidy_regs htidy) n.isLt hb hs hp ha hm hlen⟩
  · rw [State.pfRead_bytes]
    rfl
  · rw [State.vfRead_own hp hpos hsize, State.taAccess_frame]
    rfl

/-! ## Writes (R414, R416, R431, R464) -/

section
variable {s t : State} {n a : Nat} {p : Partition} {bs : List Byte}

/-- A write leaves every module address that none of its bytes goes to. -/
theorem State.foldl_writePiece_outside {c x : Nat} (hp : s.part c = some p) (hw : nwf s.hbm = true) {l : List (Nat × Nat)} (bad : Bool)
    (h : CutsBytes a bs.length l) (ha : a + bs.length ≤ p.taSize) (hx : ∀ i, i < bs.length → x ≠ groupAddr p.chgroups (a + i)) :
    nget (l.foldl (State.writePiece c bad) (s, bs)).1.hbm x = nget s.hbm x := by
  induction l generalizing s a bs with
  | nil => rfl
  | cons b l ih =>
    obtain ⟨b, k⟩ := b
    obtain ⟨rfl, hk0, hk, hblock, hl⟩ := h
    have hlen : (bs.take k).length = k := List.length_take_of_le hk
    have hone : State.writePiece c bad (s, bs) (b, k) = (s.maWrite (groupAddr p.chgroups b) (bs.take k) bad, bs.drop k) := by
      simp only [State.writePiece, State.taLoc_own hp (show b < p.taSize by omega), TaLoc.ma]
    have hdrop : (bs.drop k).length = bs.length - k := List.length_drop
    have hrest := ih (s := s.maWrite (groupAddr p.chgroups b) (bs.take k) bad) (bs := bs.drop k) hp (nwf_writeBytes _ _ hw) (hdrop ▸ hl)
      (by omega) fun i hi => by
        rw [Nat.add_assoc]
        exact hx (k + i) (by omega)
    rw [List.foldl_cons, hone, hrest]
    refine nget_writeBytes_outside _ hw ?_
    rw [hlen]
    by_contra hin
    refine hx (x - groupAddr p.chgroups b) (by omega) ?_
    rw [groupAddr_add _ (by omega)]
    omega

theorem State.taWrite_outside {x : Nat} (hp : s.part n = some p) (hw : nwf s.hbm = true) (bad : Bool) (ha : a + bs.length ≤ p.taSize)
    (hx : ∀ i, i < bs.length → x ≠ groupAddr p.chgroups (a + i)) : nget (s.taWrite n a bs bad).hbm x = nget s.hbm x := by
  rw [State.taWrite_eq, State.taAccess_frame]
  exact State.foldl_writePiece_outside hp hw bad (cut256_cuts a bs.length) ha hx

/-- The write of a SOLO tenant into its own range is that write alone, with one free value drawn. -/
theorem State.ownWrite_solo (hmode : s.mode n = 0) (hsync : s.flag (tnt n 0x10) 0 = false) (hr : s.tState n ≠ tsResetting) :
    s.ownWrite n a bs = ({ s with freeCtr := s.freeCtr + 1 } : State).taWrite n a bs false := by
  have hstate : ({ s with freeCtr := s.freeCtr + 1 } : State).tState n = s.tState n := rfl
  simp [State.ownWrite, State.free, hmode, hsync, hstate, hr]

theorem State.vfWrite_own (hp : s.part n = some p) (h0 : 0 < bs.length) (ha : a + bs.length ≤ p.taSize)
    (hbar : s.taWriteBar n a bs.length 0xD1 = none) : s.vfWrite n a bs = s.ownWrite n a bs := by
  simp only [State.vfWrite, hp, hbar]
  exact if_pos (by omega)

theorem State.vfWrite_barred {code : Nat} (hp : s.part n ≠ none) (hbar : s.taWriteBar n a bs.length 0xD1 = some code) :
    s.vfWrite n a bs = s.raise n code { addr := a } := by
  obtain ⟨p, hp⟩ := Option.ne_none_iff_exists'.mp hp
  simp only [State.vfWrite, hp, hbar]

/-- What is not mapped takes no write. -/
theorem State.taWriteBar_unmapped {k out : Nat} (hm : s.taMapped n a k = false) : s.taWriteBar n a k out = some out := by
  have hspans : s.taSpans n 9 a k = none := by simpa [State.taMapped] using hm
  unfold State.taWriteBar
  split
  · rfl
  · rw [hspans]

theorem completes_bar2Write_own {addr : Nat} (htidy : s.tidy = true) (hs : s.serves = true) (hb : s.barLive (.vf n) = true)
    (hp : s.part n = some p) (h0 : 0 < bs.length) (ha : addr + bs.length ≤ p.taSize) (hlen : addr + bs.length ≤ 2 ^ 40)
    (hbar : s.taWriteBar n addr bs.length 0xD1 = none) (hmode : s.mode n = 0) (hsync : s.flag (tnt n 0x10) 0 = false)
    (hr : s.tState n ≠ tsResetting) :
    Completes (.bar2Write (.vf n) addr bs) s fun t =>
      (∀ i, i < bs.length → nget t.hbm (groupAddr p.chgroups (addr + i)) = bs.getD i 0) ∧
      (∀ a, (∀ i, i < bs.length → a ≠ groupAddr p.chgroups (addr + i)) → nget t.hbm a = nget s.hbm a) ∧
      t.regs = s.regs ∧ t.tiles = s.tiles ∧ t.ctrs = s.ctrs ∧ t.outbox = s.outbox := by
  refine ⟨_, exec_bar2Write_vf hb hs hlen, ?_⟩
  rw [State.vfWrite_own hp h0 ha hbar, State.ownWrite_solo hmode hsync hr]
  have hhbm := State.tidy_hbm htidy
  obtain ⟨-, hback⟩ := State.taWrite_own (s := { s with freeCtr := s.freeCtr + 1 }) hp hhbm bs false ha
  have hout (x : Nat) (hx : ∀ i, i < bs.length → x ≠ groupAddr p.chgroups (addr + i)) :=
    State.taWrite_outside (s := { s with freeCtr := s.freeCtr + 1 }) hp hhbm false ha hx
  have hframe := State.taWrite_frame (s := { s with freeCtr := s.freeCtr + 1 }) (c := n) addr bs false
  generalize ({ s with freeCtr := s.freeCtr + 1 } : State).taWrite n addr bs false = t at hback hout hframe
  refine ⟨fun i hi => ?_, hout, ?_, ?_, ?_, ?_⟩
  · have hbyte := congrArg (fun l : List Byte => l[i]?) hback
    simp only [State.ownBytes, List.getElem?_map, List.getElem?_range hi, Option.map_some, State.byteAt] at hbyte
    rw [List.getD_eq_getElem?_getD, ← hbyte, Option.getD_some]
  all_goals rw [hframe]

/-- A block cut of the bytes within one block is that block. -/
theorem cut256_one {k : Nat} (h0 : 0 < k) (h : a % 256 + k ≤ 256) : cut256 a k = [(a, k)] := by
  have hmin : min k (256 - a % 256) = k := by omega
  rw [cut256, blockCuts, if_neg (by omega)]
  simp only [hmin, Nat.sub_self]
  cases k / 256 + 1 <;> simp [blockCuts]

theorem State.pfWrite_block {addr : Nat} (h0 : 0 < bs.length) (hblock : addr % 256 + bs.length ≤ 256) (hh : s.pfHides addr = false)
    (htr : s.traceGroup ≠ some (addr / 0x800000000)) (hown : s.taOfMa addr = none) : s.pfWrite addr bs = s.maWrite addr bs false := by
  have hno : (s.pfHides addr || s.traceGroup == some (addr / 0x800000000)) = false := by simp [hh, htr]
  simp only [State.pfWrite, cut256_one h0 hblock, List.foldl_cons, List.foldl_nil, List.take_length, State.pfWriteBlock, hno, hown,
    Bool.false_eq_true, if_false]

theorem completes_bar2Write_pf {addr : Nat} (htidy : s.tidy = true) (hs : s.serves = true) (hb : s.barLive .pf = true)
    (hlen : addr + bs.length ≤ 2 ^ 40) (hblock : addr % 0x800000000 + bs.length ≤ 256) (hh : s.pfHides addr = false)
    (htr : s.traceGroup ≠ some (addr / 0x800000000)) (hown : s.taOfMa addr = none) :
    Completes (.bar2Write .pf addr bs) s fun t =>
      (∀ a, nget t.hbm a = if addr ≤ a ∧ a < addr + bs.length then bs.getD (a - addr) 0 else nget s.hbm a) ∧
      t.regs = s.regs ∧ t.tiles = s.tiles ∧ t.outbox = s.outbox := by
  refine ⟨_, exec_bar2Write_pf hb hs hlen, ?_⟩
  rcases Nat.eq_zero_or_pos bs.length with h0 | h0
  · obtain rfl := List.length_eq_zero_iff.mp h0
    exact ⟨fun a => (if_neg (by simp only [List.length_nil]; omega)).symm, rfl, rfl, rfl⟩
  · rw [State.pfWrite_block h0 (by omega) hh htr hown]
    refine ⟨fun x => ?_, rfl, rfl, rfl⟩
    have hhbm := State.tidy_hbm htidy
    split
    next hin =>
      obtain ⟨i, rfl⟩ := Nat.exists_eq_add_of_le hin.1
      have hi : i < bs.length := by omega
      rw [Nat.add_sub_cancel_left, List.getD_eq_getElem _ _ hi]
      exact nget_writeBytes_inside bs hhbm hi
    next hout => exact nget_writeBytes_outside bs hhbm (by omega)

/-- A write's part in one block, and the bytes that are left for the later ones. -/
def State.pfWritePiece (r : State × List Byte) (b : Nat × Nat) : State × List Byte := (r.1.pfWriteBlock b.1 (r.2.take b.2), r.2.drop b.2)

/-- A write of hidden bytes alone changes nothing. -/
theorem State.foldl_pfWritePiece_hidden {l : List (Nat × Nat)} {k : Nat} (h : CutsBytes a k l) (hh : ∀ i, i < k → s.pfHides (a + i) = true)
    (bs : List Byte) :
    (l.foldl State.pfWritePiece (s, bs)).1 = s := by
  induction l generalizing a k bs with
  | nil => rfl
  | cons b l ih =>
    obtain ⟨b, m⟩ := b
    obtain ⟨rfl, hm0, hm, -, hl⟩ := h
    have hhidden : s.pfHides b = true := hh 0 (by omega)
    have hkeep : s.pfWriteBlock b (bs.take m) = s := if_pos (by rw [hhidden, Bool.true_or])
    rw [List.foldl_cons, State.pfWritePiece, hkeep]
    exact ih hl (fun i hi => by rw [Nat.add_assoc]; exact hh (m + i) (by omega)) _

theorem completes_bar2Write_hidden {addr : Nat} (hs : s.serves = true) (hb : s.barLive .pf = true)
    (hh : ∀ i, i < bs.length → s.pfHides (addr + i) = true) : Completes (.bar2Write .pf addr bs) s fun t => t = s := by
  rcases Nat.lt_or_ge (2 ^ 40) (addr + bs.length) with hlong | hlen
  · exact ⟨s, if_pos (by rw [decide_eq_true hlong, Bool.or_true]), rfl⟩
  · exact ⟨_, exec_bar2Write_pf hb hs hlen, State.foldl_pfWritePiece_hidden (cut256_cuts addr bs.length) hh bs⟩

/-- A write that is a violation freezes the ACTIVE tenant. -/
theorem completes_bar2Write_barred {addr code : Nat} (hw : nwf s.regs = true) (hn : n < 16) (hs : s.serves = true)
    (hb : s.barLive (.vf n) = true) (hlen : addr + bs.length ≤ 2 ^ 40) (hp : s.part n ≠ none)
    (hbar : s.taWriteBar n addr bs.length 0xD1 = some code) (ha : s.tState n = tsActive) (hc : code < 256)
    (hcls : faultClass code = (.violation, true, false)) :
    Completes (.bar2Write (.vf n) addr bs) s fun t => t.tState n = tsFrozen ∧ t.fld (tnt n 0x100) 8 8 = code ∧ t.tiles = s.tiles := by
  refine ⟨_, exec_bar2Write_vf hb hs hlen, ?_⟩
  rw [State.vfWrite_barred hp hbar]
  exact State.raise_violation _ hw hn ha hc hcls

end

/-- Settles O37: a write goes byte for byte to the module addresses that it names, or is a violation, or finds what is hidden. -/
theorem memoryWindowWrites : Obligations.MemoryWindowWrites := by
  intro s hs
  exact ⟨fun n p addr bs hb hp h0 ha hlen hbar hmode hsync hr htidy => completes_bar2Write_own htidy hs hb hp h0 ha hlen hbar hmode hsync hr,
    fun addr bs htidy hb hlen hblock hh htr hown => completes_bar2Write_pf htidy hs hb hlen hblock hh htr hown,
    fun addr bs hb hh => completes_bar2Write_hidden hs hb hh,
    fun n addr bs htidy hb hlen hp hm ha => completes_bar2Write_barred (State.tidy_regs htidy) n.isLt hs hb hlen hp
      (State.taWriteBar_unmapped hm) ha (by decide) rfl,
    fun n addr bs htidy hb hlen hp hbar ha => completes_bar2Write_barred (State.tidy_regs htidy) n.isLt hs hb hlen hp hbar ha (by decide) rfl⟩

end Sys2Proof.Machine
end


section
/-!
PROOFS. The tenant windows stand twice, but for TNT_COMMON: O56.
-/

namespace Sys2Proof.Machine

section
variable {s : State} {off base : Nat}

/-! ## A word and its second place (R565) -/

/-- A word of the first tenant windows other than TNT_COMMON. -/
def Doubled (off : Nat) : Prop := 0x100000 ≤ off ∧ off < 0x110000 ∧ off / 4 ≠ 0x10F000 / 4

theorem pfMsix_low (h : off < 0xF00000) : pfMsix off = none := if_neg (by omega)

theorem homeOf_second (h : Doubled off) : homeOf .pf (off + 0x10000) = homeOf .pf off := by
  obtain ⟨hlo, hhi, hne⟩ := h
  have hfirst : pfHome off = off + 0x10000 := if_pos ⟨hlo, hhi, hne⟩
  have hsecond : pfHome (off + 0x10000) = off + 0x10000 := if_neg (by omega)
  have hlow : decide (0x2000000 ≤ off) = false := decide_eq_false (by omega)
  have hlow' : decide (0x2000000 ≤ off + 0x10000) = false := decide_eq_false (by omega)
  simp only [homeOf, pfMsix_low (show off < 0xF00000 by omega), pfMsix_low (show off + 0x10000 < 0xF00000 by omega), hfirst, hsecond, hlow, hlow']

/-- What the PF reads of a word below its table, by its home. -/
theorem State.wordNow_pf (time : Nat) (h : off < 0xF00000) :
    s.wordNow .pf off time =
      ((homeOf .pf off).map fun h => if s.readable .pf h then s.valueAt .pf h time &&& readMask h (Fn.pf == .pf) else 0).getD 0 := by
  unfold State.wordNow
  rw [pfMsix_low h]
  cases homeOf .pf off with
  | none =>
    have hlow : decide (0x2000000 ≤ off) = false := decide_eq_false (by omega)
    simp [hlow]
  | some h => rfl

/-- A write by the PF of a word below its table goes to the word's home. -/
theorem State.writePf_home (bs : List (Option Byte)) (h : off < 0xF00000) :
    s.writePf off bs = ((homeOf .pf off).map fun h => if s.serves || early h then s.writeHome .pf h bs else s).getD s := by
  unfold State.writePf
  rw [pfMsix_low h]
  cases homeOf .pf off <;> rfl

theorem State.wordNow_second (time : Nat) (h : Doubled off) : s.wordNow .pf (off + 0x10000) time = s.wordNow .pf off time := by
  have hhi := h.2.1
  rw [State.wordNow_pf _ (show off + 0x10000 < 0xF00000 by omega), State.wordNow_pf _ (show off < 0xF00000 by omega), homeOf_second h]

theorem State.writeWord_second (bs : List (Option Byte)) (h : Doubled off) : s.writeWord .pf (off + 0x10000) bs = s.writeWord .pf off bs := by
  have hhi := h.2.1
  rw [State.writeWord, State.writeWord, State.writePf_home _ (show off + 0x10000 < 0xF00000 by omega), State.writePf_home _ (show off < 0xF00000 by omega), homeOf_second h]

/-! ## Accesses to one aligned doubleword -/

/-- A doubleword of the first tenant windows that does not hold TNT_COMMON: both its words stand twice. -/
theorem doubled_pair (hb : base % 8 = 0) (hlo : 0x100000 ≤ base) (hhi : base < 0x110000) (hne : base ≠ 0x10F000) :
    Doubled base ∧ Doubled (base + 4) := by
  constructor <;> refine ⟨by omega, by omega, by omega⟩

theorem State.readPair_second (time : Nat) (lo hi : Bool) (h : Doubled base ∧ Doubled (base + 4)) :
    s.readPair .pf (base + 0x10000) time lo hi = s.readPair .pf base time lo hi := by
  obtain ⟨h0, h4⟩ := h
  rw [State.readPair, homeOf_second h0, State.wordNow_second _ h0, Nat.add_right_comm, State.wordNow_second _ h4, State.readPair]

theorem State.writePair_second (bs : List (Option Byte)) (h : Doubled base ∧ Doubled (base + 4)) :
    s.writePair .pf (base + 0x10000) bs = s.writePair .pf base bs := by
  obtain ⟨h0, h4⟩ := h
  have hwords (lo hi : List (Option Byte)) : (s.writeWord .pf (base + 0x10000) lo).writeWord .pf (base + 0x10000 + 4) hi =
      (s.writeWord .pf base lo).writeWord .pf (base + 4) hi := by
    rw [Nat.add_right_comm, State.writeWord_second _ h0, State.writeWord_second _ h4]
  unfold State.writePair
  rw [homeOf_second h0]
  cases homeOf .pf base with
  | none => exact hwords _ _
  | some h =>
    dsimp only
    rw [hwords]

/-- TNT_COMMON is a word of 32 bits of which the PF reads bytes 1 and 2; every tenant's TNT_STATE is one that both views read whole. -/
theorem window_codes :
    ((regLookup 0x10F000).isSome = true ∧ isWide 0x10F000 = false ∧ readMask 0x10F000 true = 0xFFFF00) ∧
    ((regLookup (tnt 0 0)).isSome = true ∧ vfVisible (tnt 0 0) = true ∧ isWide (tnt 0 0) = false ∧ readMask (tnt 0 0) true = 2 ^ 32 - 1 ∧
      readMask (tnt 0 0) false = 2 ^ 32 - 1) ∧
    ∀ n : Fin 16, regLookup (tnt n 0) = regLookup (tnt 0 0) := by decide +kernel

/-- A word beside the first windows that has a register there is its own home. -/
theorem homeOf_own (hf : ¬(0x100000 ≤ off ∧ off < 0x110000 ∧ off / 4 ≠ 0x10F000 / 4)) (hhi : off < 0xF00000)
    (hr : (regLookup off).isSome = true) : homeOf .pf off = some off := by
  have hhome : pfHome off = off := if_neg hf
  obtain ⟨x, hx⟩ := Option.isSome_iff_exists.mp hr
  have hlow : decide (0x2000000 ≤ off) = false := decide_eq_false (by omega)
  simp only [homeOf, pfMsix_low hhi, hhome, hx, hlow, Option.isSome_none, Bool.or_self, Bool.false_eq_true, if_false, Option.map_some]

theorem narrow_of_own (hh : homeOf .pf off = some off) (hw : isWide off = false) : Narrow .pf off := fun h he => by
  rw [hh] at he
  exact Option.some.inj he ▸ hw

theorem homeOf_common : homeOf .pf 0x10F000 = some 0x10F000 := homeOf_own (by decide) (by decide) window_codes.1.1

/-- The codes of TNT_STATE, in every tenant's window. -/
theorem tntState_codes (n : Fin 16) : readMask (tnt n 0) true = 2 ^ 32 - 1 ∧ readMask (tnt n 0) false = 2 ^ 32 - 1 ∧
    homeOf .pf (tnt n 0) = some (tnt n 0) ∧ vfPlace n 0 = .home (tnt n 0) ∧ isWide (tnt n 0) = false := by
  obtain ⟨-, ⟨hsome, hvis, hwide, hpf, hvf⟩, hall⟩ := window_codes
  have hn := n.isLt
  have hsome' : (regLookup (tnt n 0)).isSome = true := by rw [hall n]; exact hsome
  have hvis' : vfVisible (tnt n 0) = true := by rw [vfVisible, hall n]; exact hvis
  have hplace : vfPlace n 0 = vfListed (tnt n 0) := rfl
  refine ⟨?_, ?_, homeOf_own (by simp only [tnt]; omega) (by simp only [tnt]; omega) hsome', ?_, ?_⟩
  · rw [readMask, codeMask, hall n]; exact hpf
  · rw [readMask, codeMask, hall n]; exact hvf
  · rw [hplace, vfListed, if_neg (Option.ne_none_iff_isSome.mpr hsome'), if_pos hvis']
  · rw [isWide, hall n]; exact hwide

/-- TNT_COMMON, and tenant 15's TNT_STATE at its second place, are words of 32 bits. -/
theorem narrow_common : Narrow .pf 0x10F000 ∧ Narrow .pf (0x10F000 + 0x10000) := by
  obtain ⟨-, -, hhome, -, hwide⟩ := tntState_codes 15
  exact ⟨narrow_of_own homeOf_common window_codes.1.2.1, narrow_of_own hhome hwide⟩

/-- At the doubleword of TNT_COMMON the accesses are word by word, and the other word there stands twice. -/
theorem common_pair (h : base = 0x10F000) : Narrow .pf base ∧ Narrow .pf (base + 0x10000) ∧ Doubled (base + 4) :=
  ⟨h ▸ narrow_common.1, h ▸ narrow_common.2, by omega, by omega, by omega⟩

/-! ## Accesses of any bytes -/

/-- Bytes of the first tenant windows other than TNT_COMMON's. -/
def OffCommon (off len : Nat) : Prop := 0x100000 ≤ off ∧ off + len ≤ 0x110000 ∧ (off + len ≤ 0x10F000 ∨ 0x10F004 ≤ off)

theorem OffCommon.rest {len n : Nat} (h : OffCommon off len) (hn : n ≤ len) : OffCommon (off + n) (len - n) := by
  obtain ⟨hlo, hhi, hc⟩ := h
  exact ⟨by omega, by omega, by omega⟩

/-- What a read shows of the doubleword that holds TNT_COMMON, beside that word, it shows of its second place. -/
theorem drop_high_half (a a' : Nat) (b : List Byte) {k : Nat} (hk : 4 ≤ k) : (leBytes 4 a ++ b).drop k = (leBytes 4 a' ++ b).drop k := by
  obtain ⟨j, rfl⟩ := Nat.exists_eq_add_of_le hk
  have hdrop (x : Nat) : (leBytes 4 x ++ b).drop (4 + j) = b.drop j := by
    have h := List.drop_length_add_append (l₁ := leBytes 4 x) (l₂ := b) (i := j)
    rwa [length_leBytes] at h
  rw [hdrop, hdrop]

theorem State.readAt_none (fn : Fn) (time fuel off : Nat) : s.readAt fn time fuel off 0 = ([], s) := by
  cases fuel <;> rfl

theorem State.writeAt_none (fn : Fn) (fuel off : Nat) : s.writeAt fn fuel off [] = s := by
  cases fuel <;> rfl

/-- A read takes the bytes of the doubleword that it begins in, and then the rest. -/
theorem State.readAt_succ (fn : Fn) (time fuel : Nat) {k n len : Nat} (hb : base % 8 = 0) (hlen : len ≠ 0) (hk : k < 8)
    (hn : n = min len (8 - k)) :
    s.readAt fn time (fuel + 1) (base + k) len =
      let r := s.readPair fn base time (decide (k < 4)) (decide (4 < k + n))
      ((((leBytes 4 r.1.1 ++ leBytes 4 r.1.2).drop k).take n) ++ (r.2.readAt fn time fuel (base + k + n) (len - n)).1,
        (r.2.readAt fn time fuel (base + k + n) (len - n)).2) := by
  have hbase : (base + k) / 8 * 8 = base := by omega
  have hcut : min len (base + 8 - (base + k)) = n := by omega
  simp only [State.readAt, if_neg hlen, hbase, hcut, Nat.add_sub_cancel_left, Nat.add_lt_add_iff_left, Nat.add_assoc]

/-- The bytes of one doubleword that a write at its offset `k` brings. -/
def unitBytes (k n : Nat) (data : List (Option Byte)) : List (Option Byte) :=
  ((List.replicate k none ++ data.take n) ++ List.replicate 8 none).take 8

/-- A write goes to the doubleword that it begins in, and then the rest. -/
theorem State.writeAt_succ (fn : Fn) (fuel : Nat) {k n : Nat} {data : List (Option Byte)} (hb : base % 8 = 0) (hd : data ≠ []) (hk : k < 8)
    (hn : n = min data.length (8 - k)) :
    s.writeAt fn (fuel + 1) (base + k) data =
      (if s.barLive fn then s.writePair fn base (unitBytes k n data) else s).writeAt fn fuel (base + k + n) (data.drop n) := by
  have hbase : (base + k) / 8 * 8 = base := by omega
  have hcut : min data.length (base + 8 - (base + k)) = n := by omega
  have hne : ¬data.isEmpty = true := by simpa using hd
  simp only [State.writeAt, if_neg hne, hbase, hcut, Nat.add_sub_cancel_left, unitBytes]

/-- Past the first word of a doubleword a write leaves that word untouched. -/
theorem take_unitBytes {k : Nat} (n : Nat) (data : List (Option Byte)) (hk : 4 ≤ k) : (unitBytes k n data).take 4 = [none, none, none, none] := by
  obtain ⟨j, rfl⟩ := Nat.exists_eq_add_of_le hk
  rw [unitBytes, List.take_take, List.replicate_add, List.append_assoc, List.append_assoc]
  rfl

theorem State.readAt_second (time fuel : Nat) {len : Nat} (h : OffCommon off len) :
    s.readAt .pf time fuel (off + 0x10000) len = s.readAt .pf time fuel off len := by
  induction fuel generalizing s off len with
  | zero => rfl
  | succ fuel ih =>
    by_cases hlen : len = 0
    · subst hlen
      rw [State.readAt_none, State.readAt_none]
    obtain ⟨base, k, hb, hk, rfl⟩ : ∃ base k, base % 8 = 0 ∧ k < 8 ∧ off = base + k :=
      ⟨off / 8 * 8, off % 8, by omega, by omega, by omega⟩
    generalize hn : min len (8 - k) = n
    have hrest (u : State) : u.readAt .pf time fuel (base + 0x10000 + k + n) (len - n) = u.readAt .pf time fuel (base + k + n) (len - n) := by
      rw [show base + 0x10000 + k + n = base + k + n + 0x10000 by omega]
      exact ih (h.rest (by omega))
    obtain ⟨hlo, hhi, hc⟩ := h
    rw [Nat.add_right_comm, State.readAt_succ _ _ _ (by omega) hlen hk hn.symm, State.readAt_succ _ _ _ hb hlen hk hn.symm]
    simp only [hrest]
    by_cases hcommon : base = 0x10F000
    · obtain ⟨hnarrow, hnarrow', hhigh⟩ := common_pair hcommon
      have hword : s.wordNow .pf (base + 0x10000 + 4) time = s.wordNow .pf (base + 4) time := by
        rw [Nat.add_right_comm]
        exact State.wordNow_second time hhigh
      rw [State.readPair_narrow _ _ _ hnarrow, State.readPair_narrow _ _ _ hnarrow']
      dsimp only
      rw [hword, drop_high_half (s.wordNow .pf (base + 0x10000) time) (s.wordNow .pf base time) _ (by omega)]
    · rw [State.readPair_second _ _ _ (doubled_pair hb (by omega) (by omega) hcommon)]

theorem State.writeAt_second (fuel : Nat) {data : List (Option Byte)} (h : OffCommon off data.length) :
    s.writeAt .pf fuel (off + 0x10000) data = s.writeAt .pf fuel off data := by
  induction fuel generalizing s off data with
  | zero => rfl
  | succ fuel ih =>
    by_cases hd : data = []
    · subst hd
      rw [State.writeAt_none, State.writeAt_none]
    have hpos : 0 < data.length := List.length_pos_iff.mpr hd
    obtain ⟨base, k, hb, hk, rfl⟩ : ∃ base k, base % 8 = 0 ∧ k < 8 ∧ off = base + k :=
      ⟨off / 8 * 8, off % 8, by omega, by omega, by omega⟩
    generalize hn : min data.length (8 - k) = n
    have hrest (u : State) : u.writeAt .pf fuel (base + 0x10000 + k + n) (data.drop n) = u.writeAt .pf fuel (base + k + n) (data.drop n) := by
      rw [show base + 0x10000 + k + n = base + k + n + 0x10000 by omega]
      exact ih (by rw [List.length_drop]; exact h.rest (by omega))
    obtain ⟨hlo, hhi, hc⟩ := h
    have hpair : s.writePair .pf (base + 0x10000) (unitBytes k n data) = s.writePair .pf base (unitBytes k n data) := by
      by_cases hcommon : base = 0x10F000
      · obtain ⟨hnarrow, hnarrow', hhigh⟩ := common_pair hcommon
        rw [State.writePair_narrow _ hnarrow, State.writePair_narrow _ hnarrow', take_unitBytes _ _ (by omega),
          State.writeWord_untouched, State.writeWord_untouched, Nat.add_right_comm]
        exact State.writeWord_second _ hhigh
      · exact State.writePair_second _ (doubled_pair hb (by omega) (by omega) hcommon)
    rw [Nat.add_right_comm, State.writeAt_succ _ _ (by omega) hd hk hn.symm, State.writeAt_succ _ _ hb hd hk hn.symm, hpair, hrest]

theorem exec_registerRead_second {len : Nat} (h : OffCommon off len) :
    exec (.registerRead .pf off len) s = exec (.registerRead .pf (off + 0x10000) len) s := by
  simp only [exec_registerRead, execRegisterRead, State.readAt_second _ _ h]

theorem exec_registerWrite_second {bs : List (Option Byte)} (h : OffCommon off bs.length) :
    exec (.registerWrite .pf off bs) s = exec (.registerWrite .pf (off + 0x10000) bs) s := by
  simp only [exec_registerWrite, execRegisterWrite, State.writeAt_second _ h]

/-! ## TNT_COMMON (R419, R565) -/

/-- The bytes 1 and 2 of a word. -/
theorem and_bytes12 (v : W32) : v.toNat &&& 0xFFFF00 = v.toNat / 2 ^ 8 % 2 ^ 8 * 2 ^ 8 + v.toNat / 2 ^ 16 % 2 ^ 8 * 2 ^ 16 := by
  have hmask : v.toNat &&& 0xFFFF00 = (v.toNat / 2 ^ 8 &&& 2 ^ 16 - 1) * 2 ^ 8 := by
    rw [← Nat.shiftRight_eq_div_pow, ← Nat.shiftLeft_eq]
    refine Nat.eq_of_testBit_eq fun i => ?_
    have hconst : (0xFFFF00 : Nat) = (2 ^ 16 - 1) <<< 8 := rfl
    rw [hconst, Nat.testBit_and, Nat.testBit_shiftLeft, Nat.testBit_shiftLeft, Nat.testBit_and, Nat.testBit_shiftRight]
    by_cases hi : 8 ≤ i
    · simp [hi, Nat.add_sub_cancel' hi]
    · simp [hi]
  rw [hmask, Nat.and_two_pow_sub_one_eq_mod]
  omega

theorem State.wordNow_common (time : Nat) (hs : s.serves = true) :
    s.wordNow .pf 0x10F000 time = s.fld 0x10F000 8 8 * 2 ^ 8 + s.fld 0x10F000 16 8 * 2 ^ 16 := by
  obtain ⟨⟨-, -, hmask⟩, -, -⟩ := window_codes
  have hm : pfMsix 0x10F000 = none := pfMsix_low (by decide)
  have hread : s.readable .pf 0x10F000 = true := by rw [State.readable, hs]; rfl
  have hpf : (Fn.pf == Fn.pf) = true := rfl
  simp only [State.wordNow, hm, homeOf_common, hread, if_true, hpf]
  rw [State.valueAt_low _ _ (by decide) (by decide), hmask, and_bytes12]
  rfl

theorem completes_registerRead_common (hs : s.serves = true) (hb : s.barLive .pf = true) :
    Completes (.registerRead .pf 0x10F000 4) s fun t =>
      t.outbox = s.outbox ++ [.answer .pf (leBytes 4 (s.fld 0x10F000 8 8 * 2 ^ 8 + s.fld 0x10F000 16 8 * 2 ^ 16))] ∧ t.regs = s.regs := by
  refine ⟨_, exec_registerRead_narrow (by decide) hb narrow_common.1, ?_, rfl⟩
  rw [State.wordNow_common (s := s.free.2) _ hs]
  rfl

/-- A write of TNT_COMMON with PUBLISH 1 is PUBLISH of its REGION. -/
theorem exec_registerWrite_publish {v : W32} (hs : s.serves = true) (hb : s.barLive .pf = true) (hv : bitOf v.toNat 3 = true) :
    exec (.registerWrite .pf 0x10F000 ((leBytes 4 v.toNat).map some)) s = exec (.publish (v.toNat % 8)) s := by
  have hlen : ((leBytes 4 v.toNat).map some).length = 4 := by simp
  have hany : (((leBytes 4 v.toNat).map some).any Option.isSome) = true := rfl
  have hpub : exec (.publish (v.toNat % 8)) s = .next (s.askPublish (v.toNat % 8)) := if_pos ⟨hs, Nat.mod_lt _ (by decide)⟩
  have hhome : s.writeHome .pf 0x10F000 ((leBytes 4 v.toNat).map some) = s.askPublish (v.toNat % 8) := by
    unfold State.writeHome
    extract_lets cur keep act pf
    have hact : act = v.toNat := (actBytes_leBytes v.toNat).trans (Nat.mod_eq_of_lt v.isLt)
    rw [if_neg (by decide), if_neg (by decide), if_neg (by decide), if_neg (by decide), if_neg (by decide), if_neg (by decide), if_neg (by decide),
      if_neg (by decide), if_pos rfl, hact, if_pos hv]
  rw [exec_registerWrite_narrow (by decide) hlen hb narrow_common.1, hpub,
    State.writeWord_pf (pfMsix_low (by decide)) homeOf_common (by rw [hs]; rfl) hany, hhome]

/-! ## TNT_STATE in both views (R425, R564) -/

/-- What TNT_STATE reads as: the state, with the count of the tiles that serve the tenant. -/
def State.tntStateWord (s : State) (n : Nat) : Nat := s.readTnt n 0 (s.word (tnt n 0)).toNat % 2 ^ 32

theorem State.tntStateWord_mod (n : Nat) : s.tntStateWord n % 4 = s.tState n := by
  rw [State.tntStateWord, State.readTnt, if_pos rfl, State.tState, State.fld]
  omega

theorem State.valueAt_tntState (fn : Fn) (n : Fin 16) (time : Nat) : s.valueAt fn (tnt n 0) time = s.readTnt n 0 (s.word (tnt n 0)).toNat := by
  have hn := n.isLt
  have htnt : tnt n 0 = 0x110000 + 0x1000 * n := by simp only [tnt]; omega
  have hof : tntOf (tnt n 0) = n := by rw [tntOf, htnt]; omega
  have hmod : tnt n 0 % 0x1000 = 0 := by rw [htnt]; omega
  unfold State.valueAt
  rw [if_neg (by rw [htnt]; omega), if_pos (by rw [htnt]; omega), hof, hmod]

theorem completes_registerRead_tntState_pf (n : Fin 16) (hs : s.serves = true) (hb : s.barLive .pf = true) :
    Completes (.registerRead .pf (tnt n 0) 4) s fun t => t.outbox = s.outbox ++ [.answer .pf (leBytes 4 (s.tntStateWord n))] := by
  obtain ⟨hmask, -, hhome, -, hwide⟩ := tntState_codes n
  have h8 : tnt n 0 / 8 * 8 = tnt n 0 := by simp only [tnt]; omega
  have hnarrow : Narrow .pf (tnt n 0 / 8 * 8) := fun h hh => by
    rw [h8, hhome] at hh
    exact Option.some.inj hh ▸ hwide
  have hm : pfMsix (tnt n 0) = none := pfMsix_low (by simp only [tnt]; omega)
  have hread : s.free.2.readable .pf (tnt n 0) = true := by
    show (s.serves || early (tnt n 0)) = true
    rw [hs]
    rfl
  have hpf : (Fn.pf == Fn.pf) = true := rfl
  refine ⟨_, exec_registerRead_narrow (by simp only [tnt]; omega) hb hnarrow, ?_⟩
  have hword : s.free.2.wordNow .pf (tnt n 0) s.free.1 = s.tntStateWord n := by
    simp only [State.wordNow, hm, hhome, hread, if_true, hpf, hmask, State.valueAt_tntState]
    exact Nat.and_two_pow_sub_one_eq_mod _ 32
  rw [hword]
  rfl

theorem completes_registerRead_tntState_vf (n : Fin 16) (hb : s.barLive (.vf n) = true) (hon : s.offNow n = false) :
    Completes (.registerRead (.vf n) 0 4) s fun t => t.outbox = s.outbox ++ [.answer (.vf n) (leBytes 4 (s.tntStateWord n))] := by
  obtain ⟨-, hmask, -, hplace, hwide⟩ := tntState_codes n
  have hhome : homeOf (.vf n) 0 = some (tnt n 0) := by rw [homeOf, hplace]
  have hnarrow : Narrow (.vf n) (0 / 8 * 8) := fun h hh => by
    rw [hhome] at hh
    exact Option.some.inj hh ▸ hwide
  have hread : s.free.2.readable (.vf n) (tnt n 0) = true := by
    show (!s.offNow n || tnt n 0 == tnt n 0xC) = true
    rw [hon]
    rfl
  have hpf : (Fn.vf n == Fn.pf) = false := rfl
  refine ⟨_, exec_registerRead_narrow (by decide) hb hnarrow, ?_⟩
  have hword : s.free.2.wordNow (.vf n) 0 s.free.1 = s.tntStateWord n := by
    simp only [State.wordNow, hplace, hhome, hread, if_true, hpf, hmask, State.valueAt_tntState]
    exact Nat.and_two_pow_sub_one_eq_mod _ 32
  rw [hword]
  rfl

end

/-- Settles O56: every word of the first windows but TNT_COMMON has its home in the second, and an access goes by the homes. -/
theorem tenantWindowsStandTwice : Obligations.TenantWindowsStandTwice := by
  intro s hs hb
  refine ⟨completes_registerRead_common hs hb, fun v hv => exec_registerWrite_publish hs hb hv,
    fun off len hlo hhi hc => exec_registerRead_second ⟨hlo, hhi, hc⟩, fun off bs hlo hhi hc => exec_registerWrite_second ⟨hlo, hhi, hc⟩,
    fun n => ⟨s.tntStateWord n, State.tntStateWord_mod n, ?_, fun hv hon => completes_registerRead_tntState_vf n hv hon⟩⟩
  have hpf := completes_registerRead_tntState_pf n hs hb
  rwa [show tnt n 0 = 0x110000 + 0x1000 * n by simp only [tnt]; omega] at hpf

end Sys2Proof.Machine
end

section
/-!
PROOFS. Rings: doorbells, RNG_CTL.EN and COMMAND_FETCH (R377 to R380): O46.
-/

namespace Sys2Proof.Machine

section
variable {s t : State} {c r : Nat}

/-! ## A ring after a change of it, and what a freeze leaves of its registers -/

theorem State.ringSt_congr (h : t.front = s.front) (d q : Nat) : t.ringSt d q = s.ringSt d q := by
  simp only [State.ringSt, h]

theorem State.ringSt_updRing_other {d q : Nat} (f : RingSt → RingSt) (hne : 8 * d + q ≠ 8 * c + r) :
    (s.updRing c r f).ringSt d q = s.ringSt d q := by
  unfold State.ringSt
  split
  next hd => exact vupd_get_other _ hd f hne
  next => rfl

/-- Different rings of the module have different places. -/
theorem ring_place_ne {c d : Fin 16} {r q : Fin 8} (h : (d, q) ≠ (c, r)) : 8 * d.val + q.val ≠ 8 * c.val + r.val := by
  intro he
  exact h (Prod.ext (Fin.ext (by dsimp only; omega)) (Fin.ext (by dsimp only; omega)))

/-- The words that a freeze of tenant `c` may change: its state, the event registers, and the states of its rings (R488). -/
def FrozenWords (c a : Nat) : Prop := a = tnt c 0 ∨ a = tnt c 0x30 ∨ a = 0x30 ∨ ∃ r < 8, a = rng c r 0x30

theorem State.freeze_frozenWords (peer : Bool) : WordsOnly (FrozenWords c) s (s.freeze c peer) := by
  unfold State.freeze
  extract_lets +onlyGivenNames s1 s2 s3 src s4 s5
  have h1 : WordsOnly (FrozenWords c) s s1 := .of_regs_eq rfl
  have h2 : WordsOnly (FrozenWords c) s1 s2 := s1.setFld_words _ _ _ (.inl rfl)
  have h3 : WordsOnly (FrozenWords c) s2 s3 :=
    .foldl (fun s r hr => .ite (s.setFld_words _ _ _ (.inr (.inr (.inr ⟨r, List.mem_range.mp hr, rfl⟩)))) (.refl s)) _
  have h4 : WordsOnly (FrozenWords c) s3 s4 := .of_regs_eq rfl
  have h5 : WordsOnly (FrozenWords c) s4 s5 :=
    (s4.tntEvent_words c 0 (.inr (.inl rfl))).trans (State.modEvent_words _ 3 (.inr (.inr (.inl rfl))))
  have hlink : WordsOnly (FrozenWords c) s5 (if peer && s5.comparing c then s5.sendTwin 0 (.freeze c 0xF2) else s5) :=
    .of_regs_eq (LinkOnly.ite (s5.sendTwin_linkOnly 0 _) (.refl s5)).regs
  clear_value s1 s2 s3 s4 s5
  exact .ite h1 (h1.trans (h2.trans (h3.trans (h4.trans (h5.trans hlink)))))

/-- A fault of class VIOLATION or FREEZE that stands in the record of the ACTIVE tenant freezes it, and leaves the other words. -/
theorem State.raise_frozenWords {code : Nat} (i : Info) (hw : nwf s.regs = true) (hc : c < 16) (hcode : code < 256)
    (hten : (faultClass code).2.1 = true) : WordsOnly (fun a => FaultWords c a ∨ FrozenWords c a) s (s.raise c code i) := by
  have henter := (State.enter_spec i hw hc hcode hten).1.mono (Q := fun a => FaultWords c a ∨ FrozenWords c a) fun _ h => .inl h
  unfold State.raise
  extract_lets u
  split
  · exact henter.trans ((State.freeze_frozenWords _).mono fun _ h => .inr h)
  · exact henter.trans ((State.freeze_frozenWords _).mono fun _ h => .inr h)
  · exact henter

theorem not_frozen_rng {a : Nat} {r q : Nat} (hc : c < 16) (hr : r < 8) (hq : q < 0x100) (h30 : q ≠ 0x30) (ha : a = rng c r q) :
    ¬(FaultWords c a ∨ FrozenWords c a) := by
  subst ha
  rintro (h | h | h | h | ⟨k, hk, h⟩)
  · simp only [FaultWords, tnt, rng] at h; omega
  all_goals simp only [tnt, rng] at h; omega

/-! ## The registers of a ring -/

theorem State.tState_setRing {o lo n v : Nat} (hw : nwf s.regs = true) (d : Nat) (hd : d < 16) :
    (s.setFld (rng c r o) lo n v).tState d = s.tState d :=
  State.fld_setFld_other _ _ _ _ _ hw (by simp only [tnt, rng]; omega)

/-! ## Enabling and disabling (R377) -/

/-- A ring whose EN has been set, with TAIL 0. -/
def State.ringOpened (s : State) (c r : Nat) : State := (s.setFlag (rng c r 0) 0 true).setFld (rng c r 0x24) 0 16 0

theorem State.ringEnable_eq {p : Partition} (hp : s.part c = some p) (hr : r < p.rings) (hoff : s.ringOn c r = false) :
    s.ringEnable c r = if (s.ringSt c r).cmds.isEmpty then (s.ringOpened c r).ringStart c r
      else (s.ringOpened c r).updRing c r fun g => { g with renew := true } := by
  unfold State.ringEnable
  rw [hp, hoff, if_neg (by simp [hr])]
  rfl

theorem State.nwf_ringOpened (hw : nwf s.regs = true) : nwf (s.ringOpened c r).regs = true := by
  simp only [State.ringOpened, State.nwf_setFld, State.nwf_setFlag, hw]

theorem State.ringOpened_on (hw : nwf s.regs = true) : (s.ringOpened c r).ringOn c r = true := by
  have hset : (s.setFlag (rng c r 0) 0 true).flag (rng c r 0) 0 = true := State.flag_setFlag_same _ _ _ hw (by decide)
  rw [State.ringOn, State.flag, State.ringOpened, State.fld_setFld_other _ _ _ _ _ (State.nwf_setFlag _ _ _ hw) (by simp [rng])]
  exact hset

theorem State.ringOpened_tail (hw : nwf s.regs = true) : (s.ringOpened c r).fld (rng c r 0x24) 0 16 = 0 :=
  State.fld_setFld_same _ _ _ _ (State.nwf_setFlag _ _ _ hw) (by decide)

theorem State.ringOpened_active (hw : nwf s.regs = true) (hc : c < 16) : (s.ringOpened c r).active c = s.active c := by
  rw [State.active, State.active, State.ringOpened, State.tState_setRing (State.nwf_setFlag _ _ _ hw) c hc, State.tState, State.fld,
    State.word_setFlag_other _ _ hw (by simp only [tnt, rng]; omega)]
  rfl

theorem completes_ringEnable (hw : nwf s.regs = true) (hc : c < 16) (hr : r < 8) (hserves : s.serves = true) {p : Partition}
    (hp : s.part c = some p) (hrings : r < p.rings) (hoff : s.ringOn c r = false) (hnone : (s.ringSt c r).cmds = []) :
    Completes (.ringEnable c r) s fun t =>
      t.ringOn c r = true ∧ t.fld (rng c r 0x24) 0 16 = 0 ∧ (t.ringSt c r).cmds = [] ∧ (t.ringSt c r).head = 0 ∧
      t.ringState c r = (if s.active c then 1 else 2) ∧ ∀ d q, 8 * d + q ≠ 8 * c + r → t.ringSt d q = s.ringSt d q := by
  have hexec : exec (.ringEnable c r) s = .next ((s.ringOpened c r).ringStart c r) := by
    show execRingEnable c r s = _
    rw [execRingEnable, if_neg (by simp [hserves]; omega), State.ringEnable_eq hp hrings hoff, hnone]
    rfl
  refine ⟨_, hexec, ?_⟩
  have hwo := State.nwf_ringOpened (c := c) (r := r) hw
  have hactive := State.ringOpened_active (r := r) hw hc
  have hon := State.ringOpened_on (c := c) (r := r) hw
  have htail := State.ringOpened_tail (c := c) (r := r) hw
  have hother (d q : Nat) : (s.ringOpened c r).ringSt d q = s.ringSt d q := State.ringSt_congr rfl d q
  generalize s.ringOpened c r = u at *
  have hsame : (u.updRing c r fun _ => RingSt.reset).ringSt c r = RingSt.reset := State.ringSt_updRing_same _ (by omega)
  have hring : ((u.ringStart c r).ringSt c r) = RingSt.reset := hsame
  have h0 : rng c r 0 ≠ rng c r 0x30 := by simp [rng]
  have h24 : rng c r 0x24 ≠ rng c r 0x30 := by simp [rng]
  refine ⟨?_, ?_, by rw [hring]; rfl, by rw [hring]; rfl, ?_, fun d q hne => ?_⟩
  · exact (congrArg (· == 1) (State.fld_setFld_other (s := u.updRing c r fun _ => RingSt.reset) _ _ _ _ _ hwo h0)).trans hon
  · exact (State.fld_setFld_other (s := u.updRing c r fun _ => RingSt.reset) _ _ _ _ _ hwo h24).trans htail
  · rw [← hactive]
    refine (State.fld_setFld_same (s := u.updRing c r fun _ => RingSt.reset) _ _ _ _ hwo (by decide)).trans ?_
    cases u.active c <;> rfl
  · exact (State.ringSt_updRing_other _ hne).trans (hother d q)

theorem State.fetchRoom_of_renew (h : (s.ringSt c r).renew = true) : s.fetchRoom c r = 0 := by
  unfold State.fetchRoom
  dsimp only
  rw [h]
  simp

theorem completes_ringEnable_renews (hw : nwf s.regs = true) (hc : c < 16) (hr : r < 8) (hserves : s.serves = true) {p : Partition}
    (hp : s.part c = some p) (hrings : r < p.rings) (hoff : s.ringOn c r = false) (hsome : (s.ringSt c r).cmds ≠ []) :
    Completes (.ringEnable c r) s fun t =>
      t.ringOn c r = true ∧ t.fld (rng c r 0x24) 0 16 = 0 ∧ (t.ringSt c r).cmds = (s.ringSt c r).cmds ∧ (t.ringSt c r).head = 0 ∧
      (t.ringSt c r).doneCsn = 0 ∧ t.fetchRoom c r = 0 ∧ ∀ d q, 8 * d + q ≠ 8 * c + r → t.ringSt d q = s.ringSt d q := by
  have hexec : exec (.ringEnable c r) s = .next ((s.ringOpened c r).updRing c r fun g => { g with renew := true }) := by
    show execRingEnable c r s = _
    rw [execRingEnable, if_neg (by simp [hserves]; omega), State.ringEnable_eq hp hrings hoff, if_neg (by simpa using hsome)]
  refine ⟨_, hexec, ?_⟩
  have hon := State.ringOpened_on (c := c) (r := r) hw
  have htail := State.ringOpened_tail (c := c) (r := r) hw
  have hother (d q : Nat) : (s.ringOpened c r).ringSt d q = s.ringSt d q := State.ringSt_congr rfl d q
  generalize s.ringOpened c r = u at *
  have hring : (u.updRing c r fun g => { g with renew := true }).ringSt c r = { s.ringSt c r with renew := true } := by
    rw [State.ringSt_updRing_same _ (by omega), hother]
  refine ⟨hon, htail, by rw [hring], by rw [hring]; rfl, by rw [hring]; rfl, State.fetchRoom_of_renew (by rw [hring]), fun d q hne => ?_⟩
  exact (State.ringSt_updRing_other _ hne).trans (hother d q)

theorem completes_ringDisable (hw : nwf s.regs = true) (hc : c < 16) (hr : r < 8) (hserves : s.serves = true) :
    Completes (.ringDisable c r) s fun t =>
      t.ringOn c r = false ∧ t.front = s.front ∧ t.ringState c r = if (s.ringSt c r).cmds = [] then 0 else s.ringState c r := by
  have hexec : exec (.ringDisable c r) s = .next (s.ringDisable c r) := by
    show execRingDisable c r s = _
    rw [execRingDisable, if_neg (by simp [hserves]; omega)]
  refine ⟨_, hexec, ?_⟩
  unfold State.ringDisable
  extract_lets u
  have hwu : nwf u.regs = true := State.nwf_setFlag _ _ _ hw
  have hclear : u.ringOn c r = false := State.flag_setFlag_same _ _ _ hw (by decide)
  have hstate : u.ringState c r = s.ringState c r := by
    rw [State.ringState, State.ringState, State.fld, State.fld, State.word_setFlag_other _ _ hw (by simp [rng])]
  have hring : u.ringSt c r = s.ringSt c r := State.ringSt_congr rfl c r
  have hfront : u.front = s.front := rfl
  clear_value u
  rw [hring]
  by_cases hnone : (s.ringSt c r).cmds = []
  · rw [if_pos hnone, hnone]
    refine ⟨?_, hfront, State.fld_setFld_same _ _ _ _ hwu (by decide)⟩
    have h0 : rng c r 0 ≠ rng c r 0x30 := by simp [rng]
    exact (congrArg (· == 1) (State.fld_setFld_other _ _ _ _ _ hwu h0)).trans hclear
  · rw [if_neg hnone, if_neg (by simpa using hnone)]
    exact ⟨hclear, hfront, hstate⟩

/-! ## Doorbells (R378, R561, R564) -/

/-- How far ahead of HEAD a doorbell value is. -/
def State.ahead (s : State) (c r tail : Nat) : Nat := (tail % 2 ^ 16 + 2 ^ 16 - (s.ringSt c r).head) % 2 ^ 16

theorem State.doorbell_on {tail : Nat} (hserves : s.serves = true) (hd : s.tState c ≠ tsDisabled) (hreset : s.tState c ≠ tsResetting)
    (hon : s.ringOn c r = true) :
    s.doorbell c r tail = if s.ringSize c r < s.ahead c r tail then s.raise c 0xC4 { ring := some (r, 0), detail := tail }
      else s.setFld (rng c r 0x24) 0 16 tail := by
  unfold State.doorbell
  rw [if_neg hreset, if_neg (by simp [hserves, hd, hon])]
  rfl

theorem completes_doorbell (hw : nwf s.regs = true) (hc : c < 16) (hr : r < 8) {tail : Nat} (hserves : s.serves = true)
    (hd : s.tState c ≠ tsDisabled) (hreset : s.tState c ≠ tsResetting) (hon : s.ringOn c r = true)
    (hroom : s.ahead c r tail ≤ s.ringSize c r) :
    Completes (.doorbell c r tail) s fun t =>
      t.fld (rng c r 0x24) 0 16 = tail % 2 ^ 16 ∧ t = { s with regs := t.regs } ∧ ∀ a, a ≠ rng c r 0x24 → t.word a = s.word a := by
  refine ⟨_, exec_doorbell tail hc hr, ?_⟩
  rw [State.doorbell_on hserves hd hreset hon, if_neg (Nat.not_lt.mpr hroom)]
  exact ⟨State.fld_setFld_same _ _ _ _ hw (by decide), rfl, fun a ha => State.word_setFld_other _ _ _ hw ha⟩

theorem completes_doorbell_far (hw : nwf s.regs = true) (hc : c < 16) (hr : r < 8) {tail : Nat} (hserves : s.serves = true)
    (ha : s.tState c = tsActive) (hon : s.ringOn c r = true) (hfar : s.ringSize c r < s.ahead c r tail) :
    Completes (.doorbell c r tail) s fun t =>
      t.tState c = tsFrozen ∧ t.fld (tnt c 0x100) 8 8 = 0xC4 ∧ t.fld (rng c r 0x24) 0 16 = s.fld (rng c r 0x24) 0 16 ∧ t.tiles = s.tiles := by
  refine ⟨_, exec_doorbell tail hc hr, ?_⟩
  rw [State.doorbell_on hserves (by rw [ha]; decide) (by rw [ha]; decide) hon, if_pos hfar]
  obtain ⟨hstate, hcode, htiles⟩ :=
    State.raise_violation { ring := some (r, 0), detail := tail } hw hc ha (code := 0xC4) (by decide) (by decide)
  have hwords := State.raise_frozenWords (s := s) (code := 0xC4) { ring := some (r, 0), detail := tail } hw hc (by decide) (by decide)
  exact ⟨hstate, hcode, hwords.fld_eq hw (not_frozen_rng hc hr (by decide) (by decide) rfl) _ _, htiles⟩

theorem completes_doorbell_off (hw : nwf s.regs = true) (hc : c < 16) (hr : r < 8) (tail : Nat) (hreset : s.tState c ≠ tsResetting)
    (hoff : s.ringOn c r = false) :
    Completes (.doorbell c r tail) s fun t =>
      t.word (tnt c 0xC) = satAdd32 (s.word (tnt c 0xC)) 1 ∧ t = { s with regs := t.regs } ∧ ∀ a, a ≠ tnt c 0xC → t.word a = s.word a := by
  refine ⟨_, exec_doorbell tail hc hr, ?_⟩
  have hdrop : s.doorbell c r tail = s.bump (tnt c 0xC) 1 := by
    unfold State.doorbell
    rw [if_neg hreset, hoff, if_pos (by simp)]
  rw [hdrop]
  exact ⟨State.word_setWord_same _ _ hw, rfl, fun a ha => State.word_setWord_other _ hw ha⟩

/-! ## Fetching (R379, R380, R503) -/

/-- The commands that a fetch makes of the bytes that the host's memory gave. -/
def State.fetched (s : State) (c r : Nat) (ds : List (List Byte)) : List RCmd :=
  (ds.take (s.fetchRoom c r)).zipIdx.map fun (b, i) =>
    { RCmd.new (((s.ringSt c r).nextCsn + i) % 2 ^ 32) ((b ++ leBytes 64 0).take 64) with tick := s.beat }

theorem State.length_fetched (ds : List (List Byte)) : (s.fetched c r ds).length = min (s.fetchRoom c r) ds.length := by
  simp [State.fetched]

theorem State.held_of_mem_fetched {ds : List (List Byte)} {x : RCmd} (hx : x ∈ s.fetched c r ds) : x.st = .held := by
  obtain ⟨y, -, rfl⟩ := List.mem_map.mp hx
  rfl

theorem RingSt.take_of_noSkip {g : RingSt} (new : List RCmd) (h : g.skip = []) : (g.take new).cmds = g.cmds ++ new := by
  rw [RingSt.take, h]
  rfl

/-- What a ring holds after a fetch stood there before, or is new and none of those that had run before a takeover. -/
theorem RingSt.mem_take {g : RingSt} {new : List RCmd} {x : RCmd} (hx : x ∈ (g.take new).cmds) :
    x ∈ g.cmds ∨ (x ∈ new ∧ x.csn ∉ g.skip) := by
  unfold RingSt.take at hx
  extract_lets next age fresh at hx
  split at hx
  next hnone =>
    rw [List.isEmpty_iff.mp hnone]
    rcases List.mem_append.mp hx with h | h
    · exact .inl h
    · exact .inr ⟨h, List.not_mem_nil⟩
  next =>
    rw [List.mem_mergeSort, List.mem_append, List.mem_filter] at hx
    rcases hx with h | ⟨h, hskip⟩
    · exact .inl h
    · exact .inr ⟨h, by simpa using hskip⟩

theorem RingSt.take_nextCsn (g : RingSt) (new : List RCmd) : (g.take new).nextCsn = (g.nextCsn + new.length) % 2 ^ 32 := by
  unfold RingSt.take
  extract_lets next age fresh
  split <;> rfl

theorem exec_commandFetch (hc : c < 16) (hr : r < 8) (hroom : s.fetchRoom c r ≠ 0) (ds : List (List Byte)) (hreach : s.vfReach c = true) :
    exec (.commandFetch c r (some ds)) s = .next (s.updRing c r fun g => g.take (s.fetched c r ds)) := by
  show execCommandFetch c r (some ds) s = _
  unfold execCommandFetch
  dsimp only
  rw [if_neg (by omega), hreach, Option.filter_some, if_pos rfl]
  rfl

theorem completes_commandFetch (hc : c < 16) (hr : r < 8) (hroom : s.fetchRoom c r ≠ 0) (ds : List (List Byte)) (hreach : s.vfReach c = true) :
    Completes (.commandFetch c r (some ds)) s fun t =>
      ((s.ringSt c r).skip = [] →
        (t.ringSt c r).cmds.map (fun x => (x.csn, x.bytes, x.st)) = (s.ringSt c r).cmds.map (fun x => (x.csn, x.bytes, x.st)) ++
          (ds.take (s.fetchRoom c r)).zipIdx.map (fun (b, i) => (((s.ringSt c r).nextCsn + i) % 2 ^ 32, (b ++ leBytes 64 0).take 64, CmdSt.held))) ∧
      (∀ x ∈ (t.ringSt c r).cmds, x ∈ (s.ringSt c r).cmds ∨ x.st = .held ∧ x.csn ∉ (s.ringSt c r).skip) ∧
      (t.ringSt c r).nextCsn = ((s.ringSt c r).nextCsn + min (s.fetchRoom c r) ds.length) % 2 ^ 32 ∧ t.regs = s.regs ∧ t.hbm = s.hbm ∧
      ∀ d q, 8 * d + q ≠ 8 * c + r → t.ringSt d q = s.ringSt d q := by
  refine ⟨_, exec_commandFetch hc hr hroom ds hreach, ?_⟩
  dsimp only
  rw [State.ringSt_updRing_same _ (by omega)]
  refine ⟨fun hskip => ?_, fun x hx => ?_, ?_, rfl, rfl, fun d q hne => State.ringSt_updRing_other _ hne⟩
  · rw [RingSt.take_of_noSkip _ hskip, List.map_append, State.fetched, List.map_map]
    rfl
  · rcases RingSt.mem_take hx with h | ⟨h, hskip⟩
    · exact .inl h
    · exact .inr ⟨State.held_of_mem_fetched h, hskip⟩
  · rw [RingSt.take_nextCsn, State.length_fetched]

/-- A fetch that failed is one whose completion did not come. -/
theorem exec_commandFetch_none : exec (.commandFetch c r none) s = exec (.pcieCompletionTimeout c r) s := by
  show execCommandFetch c r none s = execPcieCompletionTimeout c r s
  unfold execCommandFetch execPcieCompletionTimeout
  dsimp only
  split <;> rfl

end

/-- Settles O46: each clause is what the instruction does, in the registers and the place of the one ring it names. -/
theorem ringsDoorbellsAndFetch : Obligations.RingsDoorbellsAndFetch := by
  intro s c r htidy hserves
  have hw := State.tidy_regs htidy
  refine ⟨fun p hp hrings hoff hnone => ?_, completes_ringDisable hw c.2 r.2 hserves, fun tail hd hreset hon => ?_,
    fun tail hreset hoff => completes_doorbell_off hw c.2 r.2 tail hreset hoff, fun hroom => ⟨fun ds hreach => ?_,
    ?_⟩, fun p hp hrings hoff hsome => ?_⟩
  · obtain ⟨t, hexec, hon, htail, hcmds, hhead, hstate, hother⟩ := completes_ringEnable hw c.2 r.2 hserves hp hrings hoff hnone
    exact ⟨t, hexec, hon, htail, hcmds, hhead, hstate, fun d q hne => hother d q (ring_place_ne hne)⟩
  · split
    next hroom => exact completes_doorbell hw c.2 r.2 hserves hd hreset hon hroom
    next hfar => exact fun ha => completes_doorbell_far hw c.2 r.2 hserves ha hon (Nat.lt_of_not_le hfar)
  · obtain ⟨t, hexec, hcmds, hmem, hcsn, hregs, hhbm, hother⟩ := completes_commandFetch c.2 r.2 hroom ds hreach
    exact ⟨t, hexec, hcmds, hmem, hcsn, hregs, hhbm, fun d q hne => hother d q (ring_place_ne hne)⟩
  · obtain ⟨t, hexec, ht⟩ := completes_pcieCompletionTimeout htidy hroom
    exact ⟨t, exec_commandFetch_none.trans hexec, ht⟩
  · obtain ⟨t, hexec, hon, htail, hcmds, hhead, hdone, hroom, hother⟩ := completes_ringEnable_renews hw c.2 r.2 hserves hp hrings hoff hsome
    exact ⟨t, hexec, hon, htail, hcmds, hhead, hdone, hroom, fun d q hne => hother d q (ring_place_ne hne)⟩

end Sys2Proof.Machine
end

section
/-!
PROOFS. Reports and timeouts of a ring's commands (R386, R395, R404 to R407): O47.
-/

namespace Sys2Proof.Machine

section
variable {s t u : State} {c r csn : Nat} {x : RCmd}

/-! ## What masks a vector stays -/

/-- From `s` to `t` the MSI-X tables of the VFs stay: interrupts and events only send or hold messages (R555). -/
structure KeepsMsix (s t : State) : Prop where
  msix : ∀ k, (t.fnState (.vf k)).msix = (s.fnState (.vf k)).msix

theorem KeepsMsix.of_vfs (h : t.vfs = s.vfs) : KeepsMsix s t := ⟨fun k => congrArg FnState.msix (State.fnState_of_vfs h k)⟩

theorem KeepsMsix.refl (s : State) : KeepsMsix s s := .of_vfs rfl

theorem KeepsMsix.trans (h : KeepsMsix s t) (g : KeepsMsix t u) : KeepsMsix s u := ⟨fun k => (g.msix k).trans (h.msix k)⟩

theorem KeepsMsix.ite {q : Prop} [Decidable q] (ht : KeepsMsix s t) (hu : KeepsMsix s u) : KeepsMsix s (if q then t else u) := ite_of_both ht hu

theorem KeepsMsix.foldl {α : Type} {f : State → α → State} {l : List α} (hf : ∀ u x, KeepsMsix u (f u x)) (s : State) :
    KeepsMsix s (l.foldl f s) :=
  foldl_inv (fun u x hu => hu.trans (hf u x)) (KeepsMsix.refl s)

theorem KeepsMsix.masked (h : KeepsMsix s t) (k v : Nat) : (t.fnState (.vf k)).masked v = (s.fnState (.vf k)).masked v := by
  rw [FnState.masked, FnState.masked, h.msix k]

theorem LinkOnly.keepsMsix (h : LinkOnly s t) : KeepsMsix s t := by
  rw [LinkOnly] at h
  exact .of_vfs (by rw [h])

theorem State.interrupt_keepsMsix (fn : Fn) (v : Nat) : KeepsMsix s (s.interrupt fn v) := by
  unfold State.interrupt
  refine .ite ?_ (.of_vfs rfl)
  cases fn with
  | pf => exact .of_vfs rfl
  | vf m =>
    refine ⟨fun k => ?_⟩
    by_cases hk : k < 16
    · simp only [State.fnState, State.updFn, hk, dif_pos]
      by_cases hm : k = m
      · subst hm
        rw [vupd_get_same _ hk]
      · rw [vupd_get_other _ hk _ hm]
    · simp only [State.fnState, hk, dif_neg, not_false_eq_true]

theorem State.modEvent_keepsMsix (b : Nat) : KeepsMsix s (s.modEvent b) := by
  have h : KeepsMsix s (s.setFlag 0x30 b true) := .of_vfs rfl
  unfold State.modEvent
  exact .ite (h.trans (State.interrupt_keepsMsix _ _)) h

theorem State.tntEvent_keepsMsix (b : Nat) : KeepsMsix s (s.tntEvent c b) := by
  have h : KeepsMsix s (s.setFlag (tnt c 0x30) b true) := .of_vfs rfl
  unfold State.tntEvent
  exact .ite (h.trans (State.interrupt_keepsMsix _ _)) h

theorem State.event_keepsMsix (kind : Nat) (ten tile : Option Nat) (n : Nat) (data : List Byte) (hide : Nat × Nat) :
    KeepsMsix s (s.event kind ten tile n data hide) := .of_vfs (State.event_vfs _ _ _ _ _ _)

theorem State.enter_keepsMsix (code : Nat) (i : Info) : KeepsMsix s (s.enter c code i) := by
  have htenant : KeepsMsix s (s.tenantEntry c code i) := by
    unfold State.tenantEntry
    extract_lets e empty s1 s2 s3 s4
    have h1 : KeepsMsix s s1 := .ite (.of_vfs (State.setBytes_vfs _ _ _)) (.of_vfs rfl)
    have h2 : KeepsMsix s1 s2 := .of_vfs (State.setBytes_vfs _ _ _)
    have h3 : KeepsMsix s2 s3 := .of_vfs rfl
    have h4 : KeepsMsix s3 s4 := .ite (.of_vfs rfl) (.refl s3)
    exact (h1.trans (h2.trans (h3.trans h4))).trans ((State.tntEvent_keepsMsix _).trans (State.event_keepsMsix _ _ _ _ _ _))
  have hmodule (u : State) : KeepsMsix u (u.moduleEntry code i) := by
    unfold State.moduleEntry
    extract_lets e empty u1
    have h1 : KeepsMsix u u1 := .ite (.of_vfs (State.setBytes_vfs _ _ _)) (.of_vfs rfl)
    have h2 : KeepsMsix u1 (u1.setBytes 0x700040 e) := .of_vfs (State.setBytes_vfs _ _ _)
    exact h1.trans (h2.trans ((State.modEvent_keepsMsix _).trans (State.event_keepsMsix _ _ _ _ _ _)))
  unfold State.enter
  split
  next ten mod _ =>
    have h1 : KeepsMsix s (if ten then s.tenantEntry c code i else s) := .ite htenant (.refl s)
    exact .ite (h1.trans (hmodule _)) h1

theorem State.freeze_keepsMsix (peer : Bool) : KeepsMsix s (s.freeze c peer) := by
  unfold State.freeze
  extract_lets s0 s1 s2 recov s3 s4
  have h0 : KeepsMsix s s0 := .of_vfs rfl
  have h1 : KeepsMsix s s1 := h0.trans (.of_vfs rfl)
  have hring (u : State) (q : Nat) : KeepsMsix u (u.setFld (rng c q 0x30) 0 3 2) := .of_vfs rfl
  have h12 : KeepsMsix s1 s2 := .foldl (fun u q => .ite (hring u q) (.refl u)) s1
  have h2 : KeepsMsix s s2 := h1.trans h12
  have h3 : KeepsMsix s s3 := h2.trans (.of_vfs rfl)
  have h4 : KeepsMsix s s4 := h3.trans ((State.tntEvent_keepsMsix 0).trans (State.modEvent_keepsMsix 3))
  exact .ite h0 (.ite (h4.trans (s4.sendTwin_linkOnly _ _).keepsMsix) h4)

theorem State.raise_keepsMsix (code : Nat) (i : Info) : KeepsMsix s (s.raise c code i) := by
  have henter := s.enter_keepsMsix (c := c) code i
  unfold State.raise
  split
  · exact henter.trans (State.freeze_keepsMsix _)
  · exact henter.trans (State.freeze_keepsMsix _)
  · exact henter

theorem State.signal_keepsMsix (ring : Nat) (e : List Byte) (w : Waiter) : KeepsMsix s (s.signal c ring e w).1 := by
  unfold State.signal
  extract_lets v member pair op ctr dst
  clear_value dst
  split
  · split <;> exact .of_vfs rfl
  · cases dst with
    | none => exact .of_vfs rfl
    | some d =>
      dsimp only
      split
      · exact .ite (.of_vfs rfl) (.of_vfs rfl)
      · split
        next hp => exact (s.sendPacket_linkOnly _ _ _ _ hp).keepsMsix
        next => exact .of_vfs rfl

theorem State.pushLog_keepsMsix (es : List (List Byte)) : KeepsMsix s (s.pushLog c es) := by
  unfold State.pushLog
  extract_lets first logs v
  have hv : KeepsMsix s v := .of_vfs rfl
  exact .ite (hv.trans (State.tntEvent_keepsMsix _)) hv

theorem State.sigAct_keepsMsix (i seq tick : Nat) (out : Bool) : KeepsMsix s (s.sigAct c r i seq tick out) := by
  unfold State.sigAct
  split
  · exact State.raise_keepsMsix _ _
  · exact .ite (.of_vfs rfl) (.ite (State.pushLog_keepsMsix _) (State.signal_keepsMsix _ _ _))

/-! ## A reported command leaves its ring (R377, R386) -/

/-- From `s` to `t` nothing changes but the front end and the registers, and the logs stay. -/
structure RingsOnly (s t : State) : Prop where
  frame : t = { s with regs := t.regs, front := t.front }
  logs : t.front.logs = s.front.logs

theorem RingsOnly.refl (s : State) : RingsOnly s s := ⟨rfl, rfl⟩

theorem RingsOnly.trans (h : RingsOnly s t) (g : RingsOnly t u) : RingsOnly s u where
  frame := by rw [g.frame, h.frame]
  logs := g.logs.trans h.logs

theorem RingsOnly.ite {q : Prop} [Decidable q] (ht : RingsOnly s t) (hu : RingsOnly s u) : RingsOnly s (if q then t else u) := ite_of_both ht hu

theorem State.dropCmd_ringsOnly : RingsOnly s (s.dropCmd c r csn) := by
  unfold State.dropCmd
  extract_lets front s1 s2
  have h1 : RingsOnly s s1 := by
    subst s1
    split
    · exact .ite ⟨rfl, rfl⟩ (.refl s)
    · exact .refl s
  have h2 : RingsOnly s1 s2 := ⟨rfl, rfl⟩
  clear_value s1 s2
  exact (h1.trans h2).trans (.ite (.refl s2) (.ite ⟨rfl, rfl⟩ (.ite ⟨rfl, rfl⟩ (.refl s2))))

theorem find?_filter_ne (l : List RCmd) (csn : Nat) : (l.filter (·.csn != csn)).find? (·.csn == csn) = none := by
  rw [List.find?_eq_none]
  intro y hy he
  have hne := (List.mem_filter.mp hy).2
  simp only [beq_iff_eq] at he
  simp [he] at hne

theorem State.dropCmd_cmd (hr : 8 * c + r < 128) : (s.dropCmd c r csn).cmd c (.ring r csn) = none := by
  unfold State.dropCmd
  extract_lets front s1 s2
  have h2 : s2.cmd c (.ring r csn) = none := by
    subst s2
    rw [State.cmd, State.ringSt_updRing_same _ hr]
    exact find?_filter_ne _ _
  clear_value s1 s2
  refine ite_of_both (Q := fun u : State => u.cmd c (.ring r csn) = none) h2 (ite_of_both (Q := fun u : State => u.cmd c (.ring r csn) = none) h2
    (ite_of_both (Q := fun u : State => u.cmd c (.ring r csn) = none) ?_ h2))
  have hreset : (s2.ringStart c r).ringSt c r = RingSt.reset := State.ringSt_updRing_same (fun _ => RingSt.reset) hr
  rw [State.cmd, hreset]
  rfl

/-! ## The parts of a report (R386) -/

/-- The event of a report (R539). -/
def State.reportEvent (s : State) (c r csn : Nat) (x : RCmd) : State :=
  s.event 0x06 (some c) none csn (leBytes 1 x.status ++ leBytes 1 x.op ++ leBytes 1 r ++ leBytes 4 x.detail) (0, 0)

/-- The record's write. -/
def State.reportRecord (s : State) (c r at_ : Nat) (x : RCmd) : State :=
  if x.rec_ then s.send (.host (.vf c) at_ (recordBytes c r x false)) else s

/-- The signal. -/
def State.reportSignal (s : State) (c r csn : Nat) (x : RCmd) : State := if x.sig then s.sigAct c r x.sigIdx csn x.unit false else s

/-- The interrupt. -/
def State.reportIntr (s : State) (c r : Nat) (x : RCmd) : State := if x.int then s.interrupt (.vf c) r else s

theorem State.reportEvent_reports : Reports s (s.reportEvent c r csn x) := s.event_reports _ _ _ _ _ _

theorem State.reportEvent_mode (hw : nwf s.regs = true) (hc : c < 16) :
    (s.reportEvent c r csn x).active c = s.active c ∧ (s.reportEvent c r csn x).comparing c = s.comparing c := by
  have hwords : WordsOnly (fun a => 0xA00000 ≤ a) s (s.reportEvent c r csn x) := s.event_words _ _ _ _ _ _ fun _ h => h
  constructor
  · rw [State.active, State.active, State.tState, State.tState, hwords.fld_eq hw (by simp only [tnt]; omega)]
  · rw [State.comparing, State.comparing, State.mode, State.mode, hwords.fld_eq hw (by simp only [tnt]; omega)]

theorem State.reportEvent_inUnit (hw : nwf s.regs = true) (hc : c < 16) (k : Nat) : (s.reportEvent c r csn x).inUnit c k = s.inUnit c k := by
  rw [State.inUnit, State.inUnit, (State.reportEvent_mode hw hc).2, State.twinSt_congr State.reportEvent_reports.twin]

theorem State.reportEvent_logLen (k : Nat) : (s.reportEvent c r csn x).logLen k = s.logLen k := by
  rw [State.logLen, State.logLen, State.reportEvent_reports.front]

theorem State.reportEvent_vfReach (k : Nat) : (s.reportEvent c r csn x).vfReach k = s.vfReach k := by
  have hvfs : (s.reportEvent c r csn x).vfs = s.vfs := State.event_vfs _ _ _ _ _ _
  rw [State.vfReach, State.vfReach, State.reportEvent_reports.vfEnable, State.reportEvent_reports.numVfs, State.fnState_of_vfs hvfs]

/-- The report of an ACTIVE tenant with an empty log goes to the host: record, signal, interrupt. -/
theorem State.report_active (hw : nwf s.regs = true) (hc : c < 16) (hx : s.cmd c (.ring r csn) = some x) (hdone : x.st = .done)
    (htold : x.told = false) (hunit : s.inUnit c x.unit = false) (ha : s.active c = true) (hlog : s.logLen c = 0) (hreach : s.vfReach c = true) :
    s.report c r csn true =
      ((((s.reportEvent c r csn x).reportRecord c r (s.recordAddr c r csn) x).reportSignal c r csn x).reportIntr c r x).dropCmd c r csn := by
  have hev := State.reportEvent_mode (r := r) (csn := csn) (x := x) hw hc
  have hu := State.reportEvent_inUnit (r := r) (csn := csn) (x := x) hw hc x.unit
  have hl := s.reportEvent_logLen (c := c) (r := r) (csn := csn) (x := x) c
  have hv := s.reportEvent_vfReach (c := c) (r := r) (csn := csn) (x := x) c
  unfold State.report
  rw [hx]
  dsimp only
  rw [if_neg (by simp [hdone]), if_neg (by simp [htold])]
  change (if (s.reportEvent c r csn x).inUnit c x.unit then _ else
    if (!(s.reportEvent c r csn x).active c || decide (0 < (s.reportEvent c r csn x).logLen c)) then _ else _) = _
  rw [hu, hunit, if_neg (by decide), hev.1, ha, hl, hlog, if_neg (by decide)]
  change State.dropCmd (State.reportIntr (State.reportSignal (if !x.rec_ then s.reportEvent c r csn x
    else if true && (s.reportEvent c r csn x).vfReach c then _ else _) c r csn x) c r x) c r csn = _
  rw [hv, hreach, State.reportRecord]
  cases x.rec_ <;> rfl

/-- While the tenant is not ACTIVE, a command's record goes behind its log. -/
theorem State.report_frozen (hw : nwf s.regs = true) (hc : c < 16) (hx : s.cmd c (.ring r csn) = some x) (hdone : x.st = .done)
    (htold : x.told = false) (hunit : s.inUnit c x.unit = false) (ha : s.active c = false) (hsig : x.sig = false) (hrec : x.rec_ = true) (ok : Bool) :
    s.report c r csn ok = if 64 < s.logLen c + 1 then s else
      (((s.reportEvent c r csn x).pushLog c [logEntry 1 r 1 (s.recordAddr c r csn) (recordBytes c r x true)]).reportIntr c r x).dropCmd c r csn := by
  have hev := State.reportEvent_mode (r := r) (csn := csn) (x := x) hw hc
  have hu := State.reportEvent_inUnit (r := r) (csn := csn) (x := x) hw hc x.unit
  have hl := s.reportEvent_logLen (c := c) (r := r) (csn := csn) (x := x) c
  unfold State.report
  rw [hx]
  dsimp only
  rw [if_neg (by simp [hdone]), if_neg (by simp [htold])]
  change (if (s.reportEvent c r csn x).inUnit c x.unit then _ else
    if (!(s.reportEvent c r csn x).active c || decide (0 < (s.reportEvent c r csn x).logLen c)) then
      if 64 < (s.reportEvent c r csn x).logLen c + (if x.rec_ then [_] else []).length + x.sig.toNat then s else _ else _) = _
  rw [hu, hunit, if_neg (by decide), hev.1, ha, if_pos (by simp), hl, hsig, hrec]
  rfl

/-! ## COMMAND_REPORT -/

theorem State.reportSignal_keeps : (s.reportSignal c r csn x).tiles = s.tiles ∧ (s.reportSignal c r csn x).lrd = s.lrd ∧
    s.outbox <+: (s.reportSignal c r csn x).outbox ∧ KeepsMsix s (s.reportSignal c r csn x) := by
  unfold State.reportSignal
  split
  · exact ⟨State.sigAct_tiles _ _ _ _ _ _ _, State.sigAct_lrd _ _ _ _ _, (State.sigAct_good (Good.refl s)).sent, State.sigAct_keepsMsix _ _ _ _⟩
  · exact ⟨rfl, rfl, List.prefix_refl _, .refl s⟩

theorem State.reportIntr_reports : Reports s (s.reportIntr c r x) := by
  unfold State.reportIntr
  split
  · exact s.interrupt_reports _ _
  · exact .refl s

theorem State.reportIntr_sent : s.outbox <+: (s.reportIntr c r x).outbox := by
  unfold State.reportIntr
  split
  · exact (State.interrupt_good (Good.refl s)).sent
  · exact List.prefix_refl _

theorem State.intr_mem_reportIntr (hint : x.int = true) (hm : (s.fnState (.vf c)).masked r = false) :
    Out.intr (.vf c) r ∈ (s.reportIntr c r x).outbox := by
  rw [State.reportIntr, if_pos hint, State.interrupt, hm]
  exact List.mem_append_right _ (List.mem_singleton.mpr rfl)

theorem completes_commandReport (hw : nwf s.regs = true) (hc : c < 16) (hr : r < 8) (hx : s.cmd c (.ring r csn) = some x)
    (hdone : x.st = .done) (htold : x.told = false) (hunit : s.inUnit c x.unit = false) (ha : s.active c = true) (hlog : s.logLen c = 0)
    (hreach : s.vfReach c = true) :
    Completes (.commandReport c r csn true) s fun t =>
      t.cmd c (.ring r csn) = none ∧ (x.rec_ = true → Out.host (.vf c) (s.recordAddr c r csn) (recordBytes c r x false) ∈ t.outbox) ∧
      (x.int = true → (s.fnState (.vf c)).masked r = false → Out.intr (.vf c) r ∈ t.outbox) ∧ t.tiles = s.tiles ∧ t.lrd = s.lrd := by
  refine ⟨_, congrArg Host.Outcome.next (State.report_active hw hc hx hdone htold hunit ha hlog hreach), ?_⟩
  have hev : KeepsMsix s (s.reportEvent c r csn x) := State.event_keepsMsix _ _ _ _ _ _
  have hevr := s.reportEvent_reports (c := c) (r := r) (csn := csn) (x := x)
  generalize s.reportEvent c r csn x = s1 at *
  generalize hs2 : s1.reportRecord c r (s.recordAddr c r csn) x = s2
  have hrecord : KeepsMsix s1 s2 ∧ s2.tiles = s1.tiles ∧ s2.lrd = s1.lrd ∧
      (x.rec_ = true → Out.host (.vf c) (s.recordAddr c r csn) (recordBytes c r x false) ∈ s2.outbox) := by
    rw [← hs2, State.reportRecord]
    split
    · exact ⟨.of_vfs rfl, rfl, rfl, fun _ => List.mem_append_right _ (List.mem_singleton.mpr rfl)⟩
    next hno => exact ⟨.refl s1, rfl, rfl, fun h => absurd h hno⟩
  obtain ⟨hm2, htiles2, hlrd2, hsent2⟩ := hrecord
  obtain ⟨htiles3, hlrd3, hout3, hm3⟩ := s2.reportSignal_keeps (c := c) (r := r) (csn := csn) (x := x)
  generalize s2.reportSignal c r csn x = s3 at *
  have h4 := s3.reportIntr_reports (c := c) (r := r) (x := x)
  have hout4 := s3.reportIntr_sent (c := c) (r := r) (x := x)
  have hintr : x.int = true → (s3.fnState (.vf c)).masked r = false → Out.intr (.vf c) r ∈ (s3.reportIntr c r x).outbox :=
    State.intr_mem_reportIntr
  generalize s3.reportIntr c r x = s4 at *
  obtain ⟨h5, -⟩ := s4.dropCmd_ringsOnly (c := c) (r := r) (csn := csn)
  have hcmd := s4.dropCmd_cmd (csn := csn) (c := c) (r := r) (by omega)
  generalize s4.dropCmd c r csn = s5 at *
  have hout5 : s5.outbox = s4.outbox := by rw [h5]
  have htiles5 : s5.tiles = s4.tiles := by rw [h5]
  have hlrd5 : s5.lrd = s4.lrd := by rw [h5]
  refine ⟨hcmd, fun h => ?_, fun hi hm => ?_, ?_, ?_⟩
  · rw [hout5]
    exact hout4.subset (hout3.subset (hsent2 h))
  · rw [hout5]
    exact hintr hi (((hev.trans hm2).trans hm3).masked c r ▸ hm)
  · rw [htiles5, h4.tiles, htiles3, htiles2, hevr.tiles]
  · rw [hlrd5, h4.lrd, hlrd3, hlrd2, hevr.lrd]

theorem State.pushLog_logs (hc : c < 16) (es : List (List Byte)) :
    ((s.pushLog c es).front.logs[c]?).getD [] = (s.front.logs[c]?).getD [] ++ es := by
  have hput : ((vupd s.front.logs c fun l => l ++ es)[c]?).getD [] = (s.front.logs[c]?).getD [] ++ es := by
    rw [vupd_getElem?_same _ hc, Vector.getElem?_eq_getElem hc]
    rfl
  unfold State.pushLog
  extract_lets first logs v
  split
  · rw [State.tntEvent_front]
    exact hput
  · exact hput

theorem completes_commandReport_logged (hw : nwf s.regs = true) (hc : c < 16) (hr : r < 8) (hx : s.cmd c (.ring r csn) = some x)
    (hdone : x.st = .done) (htold : x.told = false) (hunit : s.inUnit c x.unit = false) (ha : s.active c = false) (hsig : x.sig = false)
    (hrec : x.rec_ = true) (hroom : s.logLen c < 64) (ok : Bool) :
    Completes (.commandReport c r csn ok) s fun t =>
      t.cmd c (.ring r csn) = none ∧
      (t.front.logs[c]?).getD [] = (s.front.logs[c]?).getD [] ++ [logEntry 1 r 1 (s.recordAddr c r csn) (recordBytes c r x true)] := by
  refine ⟨_, congrArg Host.Outcome.next (State.report_frozen hw hc hx hdone htold hunit ha hsig hrec ok), ?_⟩
  rw [if_neg (by omega)]
  refine ⟨State.dropCmd_cmd (by omega), ?_⟩
  rw [State.dropCmd_ringsOnly.logs, State.reportIntr_reports.front, State.pushLog_logs hc, State.reportEvent_reports.front]

theorem completes_commandReport_full (hw : nwf s.regs = true) (hc : c < 16) (hx : s.cmd c (.ring r csn) = some x)
    (hdone : x.st = .done) (htold : x.told = false) (hunit : s.inUnit c x.unit = false) (ha : s.active c = false) (hsig : x.sig = false)
    (hrec : x.rec_ = true) (hfull : 64 ≤ s.logLen c) (ok : Bool) :
    Completes (.commandReport c r csn ok) s fun t => t = s := by
  refine ⟨_, congrArg Host.Outcome.next (State.report_frozen hw hc hx hdone htold hunit ha hsig hrec ok), ?_⟩
  exact if_pos (by omega)

/-! ## RING_TIMEOUT (R404) -/

theorem State.freeze_front (peer : Bool) : (s.freeze c peer).front = s.front := by
  unfold State.freeze
  extract_lets s0 s1 s2 recov s3 s4
  have h2 : s2.front = s.front := foldl_inv (Q := fun u : State => u.front = s.front)
    (fun u _ hu => ite_of_both (Q := fun v : State => v.front = s.front) hu hu) rfl
  have h4 : s4.front = s.front := ((State.modEvent_front _ _).trans (State.tntEvent_front _ _ _)).trans h2
  have h5 : (s4.sendTwin 0 (.freeze c 0xF2)).front = s4.front := (s4.sendTwin_linkOnly _ _).front
  exact ite_of_both (Q := fun v : State => v.front = s.front) rfl (ite_of_both (Q := fun v : State => v.front = s.front) (h5.trans h4) h4)

theorem State.raise_front (code : Nat) (i : Info) : (s.raise c code i).front = s.front := by
  unfold State.raise
  split
  · exact (State.freeze_front _).trans (State.enter_front _ _ _ _)
  · exact (State.freeze_front _).trans (State.enter_front _ _ _ _)
  · exact State.enter_front _ _ _ _

/-- A command of the front end that has run out of time. -/
def RCmd.timedOut (x : RCmd) : RCmd := { x with status := 8, detail := 0 }

theorem State.timeOut_spec (hw : nwf s.regs = true) (hc : c < 16) (hx : s.cmd c (.ring r csn) = some x) (ha : s.tState c = tsActive) :
    ((s.timeOut c (.ring r csn)).cmd c (.ring r csn)).map (fun y => (y.st, y.status)) = some (CmdSt.done, 8) ∧
      (s.timeOut c (.ring r csn)).tState c = tsFrozen ∧ (s.timeOut c (.ring r csn)).fld (tnt c 0x100) 8 8 = 0x02 ∧
      (s.timeOut c (.ring r csn)).tiles = s.tiles := by
  unfold State.timeOut
  extract_lets waits s1 s2
  have hcmd : (s1.updCmd c (.ring r csn) RCmd.timedOut).cmd c (.ring r csn) = some x.timedOut :=
    State.cmd_updCmd_same (fun _ => rfl) ((State.cmd_congr rfl).trans hx)
  have h2 : s2.cmd c (.ring r csn) = some x.timedOut.finish :=
    State.cmd_updCmd_same (f := RCmd.finish) (s := s1.updCmd c (.ring r csn) RCmd.timedOut) (fun _ => rfl) hcmd
  have hregs : s2.regs = s.regs := rfl
  have htiles : s2.tiles = s.tiles := rfl
  clear_value s2
  have ha2 : s2.tState c = tsActive := by
    rw [State.tState, State.fld, State.word, hregs]
    exact ha
  have hw2 : nwf s2.regs = true := by rw [hregs]; exact hw
  obtain ⟨hstate, hcode, -, hkeep⟩ := State.raise_freezes { ring := (CmdRef.ring r csn).info } (s := s2) hw2 hc ha2 (code := 0x02)
    (by decide) (by decide) (by decide)
  refine ⟨?_, hstate, hcode, hkeep.trans htiles⟩
  rw [State.cmd_congr (State.raise_front _ _), h2]
  rfl

/-- The oldest command that has not completed, when no unit, launch or collective carries it out, ends with TIMEOUT. -/
theorem State.ringTimeout_inFront {progress : Bool} (hold : (s.ringSt c r).cmds.find? (fun y => y.st != .done) = some x)
    (hin : x.inFront = true) (hunit : x.st = .held ∨ (x.op ≠ 0x0A ∧ x.op ≠ 0x1A ∧ x.op ≠ 0x1B)) :
    s.ringTimeout c r progress = s.timeOut c (.ring r x.csn) := by
  have hcoll : (decide (x.op = 0x0A) && x.st == .running) = false := by
    rcases hunit with h | ⟨h, -, -⟩ <;> simp [h]
  have hlaunch : (decide (x.op = 0x1A ∨ x.op = 0x1B) && x.st == .running) = false := by
    rcases hunit with h | ⟨-, h1, h2⟩
    · simp [h]
    · simp [h1, h2]
  unfold State.ringTimeout
  rw [hold]
  dsimp only
  rw [hcoll, if_neg (by decide), hlaunch, if_neg (by decide), if_pos hin]

theorem completes_ringTimeout (hw : nwf s.regs = true) (hc : c < 16) (hr : r < 8) (hx : s.cmd c (.ring r csn) = some x)
    (ha : s.active c = true) (hrec : s.inRecovery = false) (hover : s.fld (rng c r 0x2C) 0 16 ≤ (s.ringSt c r).timer)
    (hold : (s.ringSt c r).cmds.find? (fun y => y.st != .done) = some x) (hcsn : x.csn = csn) (hin : x.inFront = true)
    (hunit : x.st = .held ∨ (x.op ≠ 0x0A ∧ x.op ≠ 0x1A ∧ x.op ≠ 0x1B)) (progress : Bool) :
    Completes (.ringTimeout c r progress) s fun t =>
      ((t.cmd c (.ring r csn)).map fun y => (y.st, y.status)) = some (CmdSt.done, 8) ∧ t.tState c = tsFrozen ∧ t.fld (tnt c 0x100) 8 8 = 0x02 ∧
      t.tiles = s.tiles := by
  let v := s.updRing c r fun g => { g with timer := 0 }
  have hring : v.ringSt c r = { s.ringSt c r with timer := 0 } := State.ringSt_updRing_same _ (by omega)
  have hexec : exec (.ringTimeout c r progress) s = .next (v.ringTimeout c r progress) := by
    show execRingTimeout c r progress s = _
    unfold execRingTimeout
    rw [if_neg]
    simp only [ha, hrec, not_or, Bool.not_true, Bool.false_eq_true, not_false_eq_true, true_and]
    omega
  have hxv : v.cmd c (.ring r csn) = some x := by
    rw [State.cmd, hring]
    exact hx
  have holdv : (v.ringSt c r).cmds.find? (fun y => y.st != .done) = some x := by
    rw [hring]
    exact hold
  rw [State.ringTimeout_inFront holdv hin hunit, hcsn] at hexec
  exact ⟨_, hexec, State.timeOut_spec (s := v) hw hc hxv (beq_iff_eq.mp ha)⟩

end

/-- Settles O47: a report's parts each leave what the others have sent, and the command that has run out of time ends in the front end. -/
theorem commandsReportAndTimeOut : Obligations.CommandsReportAndTimeOut := by
  intro s c r csn x htidy hx
  have hw := State.tidy_regs htidy
  refine ⟨fun hdone htold hunit => ⟨completes_commandReport hw c.2 r.2 hx hdone htold hunit, fun ha hsig hrec hroom ok => ?_,
    fun ha hsig hrec hfull ok => ?_⟩, fun ha hrec hover hold hcsn hin hunit progress => ?_⟩
  · exact completes_commandReport_logged hw c.2 r.2 hx hdone htold hunit ha hsig hrec hroom ok
  · exact completes_commandReport_full hw c.2 hx hdone htold hunit ha hsig hrec hfull ok
  · exact completes_ringTimeout hw c.2 r.2 hx ha hrec hover hold hcsn hin hunit progress

end Sys2Proof.Machine
end

section
/-!
PROOFS. NOP, SIGNAL, WAIT and FENCE (R391 to R394): O48.
-/

namespace Sys2Proof.Machine

section
variable {s t u : State} {c : Nat} {ref : CmdRef} {x : RCmd} {p : Partition}

/-! ## A command in turn -/

/-- A command in turn with one of the opcodes asked for, whose operands pass, acts, or waits and changes nothing. -/
theorem InTurn.dispatch {ops : List Nat} {check : State → Partition → RCmd → Option (Nat × Nat)} (hin : InTurn s c ref x p)
    (hops : ops.contains x.op = true) (hvalid : validOpc x.op = true) (hcheck : check s p x = none) (act : State → RCmd → Option State) :
    s.dispatch c ref ops check act = (act s x).getD s := by
  obtain ⟨-, -, hx, hp, hturn, hhead, -⟩ := hin
  unfold State.dispatch
  rw [hx, hp]
  dsimp only
  rw [hturn, if_neg (by decide), hvalid, if_neg (by decide), hops, if_neg (by decide), hhead]
  dsimp only
  rw [hcheck]

/-- Checks that all pass name no code. -/
theorem firstOf_eq_none {xs : List (Option (Nat × Nat))} (h : ∀ y ∈ xs, y = none) : firstOf xs = none := by
  rw [firstOf, List.head?_eq_none_iff, List.filterMap_eq_nil_iff]
  exact h

theorem codeIf_false {b : Bool} (code : Nat) (h : b = false) : codeIf b code = none := by
  rw [h]
  rfl

/-- A command as it stands once it has begun on a tile, or on none. -/
def RCmd.started (x : RCmd) (tick : Nat) (tile : Option Nat) : RCmd := { x with st := .running, tick := tick, tile := tile }

theorem InTurn.begun (hin : InTurn s c ref x p) (tile : Option Nat) :
    (∃ f, s.begin_ c ref tile = { s with front := f }) ∧ (s.begin_ c ref tile).cmd c ref = some (x.started s.beat tile) := by
  obtain ⟨-, -, hx, -⟩ := hin
  obtain ⟨f, hf, hcmd⟩ := State.begin_spec tile hx
  exact ⟨⟨f, hf⟩, hcmd⟩

theorem Quiet.started (h : Quiet ref x) (tick : Nat) (tile : Option Nat) : Quiet ref (x.started tick tile) := h

theorem InTurn.item_lt (hin : InTurn s c ref x p) : ∀ n i, ref = .item n i → i < 256 := by
  obtain ⟨-, -, -, -, -, -, hitem⟩ := hin
  exact hitem

theorem running_of_cmd {y : RCmd} (hy : t.cmd c ref = some y) (hst : y.st = .running) : Running t c ref := by
  rintro r csn rfl
  rw [hy]
  exact congrArg some hst

/-! ## The end of a command and the read caches (R393) -/

theorem LinkOnly.drc (h : LinkOnly s t) : t.drc = s.drc := by
  rw [LinkOnly] at h
  rw [h]

theorem State.freeze_drc (peer : Bool) : (s.freeze c peer).drc = s.drc := by
  unfold State.freeze
  extract_lets s0 s1 s2 recov s3 s4
  have h2 : s2.drc = s.drc := foldl_inv (Q := fun u : State => u.drc = s.drc)
    (fun u _ hu => ite_of_both (Q := fun v : State => v.drc = s.drc) hu hu) rfl
  have h4 : s4.drc = s.drc := ((State.modEvent_drc _ _).trans (State.tntEvent_drc _ _ _)).trans h2
  have h5 : (s4.sendTwin 0 (.freeze c 0xF2)).drc = s4.drc := (s4.sendTwin_linkOnly _ _).drc
  exact ite_of_both (Q := fun v : State => v.drc = s.drc) rfl (ite_of_both (Q := fun v : State => v.drc = s.drc) (h5.trans h4) h4)

theorem State.raise_drc (code : Nat) (i : Info) : (s.raise c code i).drc = s.drc := by
  unfold State.raise
  split
  · exact (State.freeze_drc _).trans (State.enter_drc _ _ _ _)
  · exact (State.freeze_drc _).trans (State.enter_drc _ _ _ _)
  · exact State.enter_drc _ _ _ _

theorem State.signal_drc (ring : Nat) (e : List Byte) (w : Waiter) : (s.signal c ring e w).1.drc = s.drc := by
  unfold State.signal
  extract_lets v member pair op ctr dst
  clear_value dst
  split
  · split <;> rfl
  · cases dst with
    | none => rfl
    | some d =>
      dsimp only
      split
      · exact ite_of_both (Q := fun u : State => u.drc = s.drc) rfl rfl
      · split
        next hp => exact (s.sendPacket_linkOnly _ _ _ _ hp).drc
        next => rfl

theorem State.sigAct_drc (r i seq tick : Nat) (out : Bool) : (s.sigAct c r i seq tick out).drc = s.drc := by
  unfold State.sigAct
  split
  · exact State.raise_drc _ _
  · have hlog (es : List (List Byte)) : (s.pushLog c es).drc = s.drc :=
      ite_of_both (Q := fun u : State => u.drc = s.drc) (State.tntEvent_drc _ _ _) rfl
    exact ite_of_both (Q := fun u : State => u.drc = s.drc) rfl
      (ite_of_both (Q := fun u : State => u.drc = s.drc) (hlog _) (State.signal_drc _ _ _))

theorem FrontOnly.drc (h : FrontOnly s t) : t.drc = s.drc := by
  rw [FrontOnly] at h
  rw [h]

theorem State.endCmd_drc : (s.endCmd c ref).drc = s.drc := by
  have hdone : (s.updCmd c ref RCmd.finish).drc = s.drc := (State.updCmd_frontOnly _).drc
  have hsig : ((s.updCmd c ref RCmd.finish).storedSig c ref).drc = s.drc := by
    unfold State.storedSig
    split
    · exact ite_of_both (Q := fun u : State => u.drc = s.drc) ((State.sigAct_drc _ _ _ _ _).trans hdone) hdone
    · exact hdone
  unfold State.endCmd
  extract_lets v
  have hv : v.drc = s.drc := hsig
  clear_value v
  split
  · refine (State.endLaunch_frontOnly _ _).drc.trans ?_
    split
    · exact (State.updCmd_frontOnly _).drc.trans hv
    · exact hv
  · exact hv

theorem State.endWork_drc (hitem : ∀ n i, ref = .item n i → i < 256) : (s.endWork c ref).drc = s.drc := by
  unfold State.endWork
  split
  next n => exact absurd (hitem n 256 rfl) (by decide)
  next n => exact absurd (hitem n 257 rfl) (by decide)
  next n => exact absurd (hitem n 258 rfl) (by decide)
  next n i _ _ _ =>
    have hdone : (s.updCmd c (.item n i) RCmd.finish).drc = s.drc := (State.updCmd_frontOnly _).drc
    extract_lets v
    have hv : v.drc = s.drc := hdone
    clear_value v
    split
    · exact ite_of_both (Q := fun u : State => u.drc = s.drc) ((State.startScatter_frontOnly n).drc.trans hv) hv
    · exact hv
  · exact State.endCmd_drc

/-- A line stays when it is none of the tenant's. -/
theorem State.mem_drcDrop (l : DrcLine) : l ∈ (s.drcDrop c none).drc ↔ l ∈ s.drc ∧ l.tenant ≠ c := by
  simp [State.drcDrop]

/-! ## NOP -/

theorem InTurn.completes_nop (hin : InTurn s c ref x p) (hop : x.op = 0) (hzero : zeros x.bytes 0x10 0x40 = true) (hq : Quiet ref x) :
    Completes (.cmdNop c ref) s fun t => t.regs = s.regs ∧ t.ctrs = s.ctrs ∧ t.hbm = s.hbm ∧ t.outbox = s.outbox ∧ Ended t c ref := by
  obtain ⟨⟨f, hf⟩, hcmd⟩ := hin.begun none
  have hexec : exec (.cmdNop c ref) s = .next ((s.begin_ c ref none).endWork c ref) :=
    congrArg Host.Outcome.next (hin.dispatch (by rw [hop]; decide) (by rw [hop]; decide) (codeIf_false _ (by rw [hzero]; rfl)) _)
  have hend := State.endWork_frontOnly hcmd (hq.started _ _) hin.item_lt
  refine ⟨_, hexec, ?_⟩
  rw [FrontOnly, hf] at hend
  refine ⟨?_, ?_, ?_, ?_, State.endWork_ended hcmd⟩ <;> rw [hf, hend]

/-! ## WAIT and FENCE -/

/-- The lines of the tenant are dropped, and its command ends. -/
theorem completes_dropped {i : Instr} {y : RCmd} (hexec : exec i s = .next ((u.drcDrop c none).endWork c ref)) (hy : u.cmd c ref = some y)
    (hsig : Quiet ref x → Quiet ref y) (hitem : ∀ n i, ref = .item n i → i < 256)
    (hdrc : u.drc = s.drc) (hhbm : u.hbm = s.hbm) (hctrs : u.ctrs = s.ctrs) :
    Completes i s fun t => (∀ l, l ∈ t.drc ↔ l ∈ s.drc ∧ l.tenant ≠ c) ∧ (Quiet ref x → t.hbm = s.hbm ∧ t.ctrs = s.ctrs) ∧ Ended t c ref := by
  have hy' : (u.drcDrop c none).cmd c ref = some y := (State.cmd_congr rfl).trans hy
  refine ⟨_, hexec, fun l => ?_, fun hq => ?_, State.endWork_ended hy'⟩
  · rw [State.endWork_drc hitem, State.mem_drcDrop, hdrc]
  · have hend := State.endWork_frontOnly hy' (hsig hq) hitem
    rw [FrontOnly] at hend
    exact ⟨by rw [hend]; exact hhbm, by rw [hend]; exact hctrs⟩

theorem InTurn.exec_wait (hin : InTurn s c ref x p) (hop : x.op = 0x21) (hz1 : zeros x.bytes 0x13 0x18 = true)
    (hz2 : zeros x.bytes 0x20 0x40 = true) (hctr : fieldAt x.bytes 0x10 2 < 4096) (hfld : fieldAt x.bytes 0x12 1 < 3) :
    exec (.cmdWait c ref) s = .next (if fieldAt x.bytes 0x18 8 ≤ s.ctr c (fieldAt x.bytes 0x10 2) (fieldAt x.bytes 0x12 1)
      then ((s.begin_ c ref none).drcDrop c none).endWork c ref else s.begin_ c ref none) := by
  obtain ⟨⟨f, hf⟩, -⟩ := hin.begun none
  refine congrArg Host.Outcome.next ((hin.dispatch (by rw [hop]; decide) (by rw [hop]; decide) (firstOf_eq_none fun y hy => ?_) _).trans ?_)
  · simp only [List.mem_cons, List.not_mem_nil, or_false] at hy
    rcases hy with rfl | rfl
    · exact codeIf_false _ (by simp [hz1, hz2, hctr])
    · exact codeIf_false _ (by simp [hfld])
  · have hmet : waitMet (s.begin_ c ref none) c x =
        decide (fieldAt x.bytes 0x18 8 ≤ s.ctr c (fieldAt x.bytes 0x10 2) (fieldAt x.bytes 0x12 1)) := by
      rw [hf]
      rfl
    dsimp only [Option.getD_some]
    rw [hmet]
    simp only [decide_eq_true_eq]

theorem InTurn.completes_wait (hin : InTurn s c ref x p) (hop : x.op = 0x21) (hz1 : zeros x.bytes 0x13 0x18 = true)
    (hz2 : zeros x.bytes 0x20 0x40 = true) (hctr : fieldAt x.bytes 0x10 2 < 4096) (hfld : fieldAt x.bytes 0x12 1 < 3)
    (hmet : fieldAt x.bytes 0x18 8 ≤ s.ctr c (fieldAt x.bytes 0x10 2) (fieldAt x.bytes 0x12 1)) :
    Completes (.cmdWait c ref) s fun t => (∀ l, l ∈ t.drc ↔ l ∈ s.drc ∧ l.tenant ≠ c) ∧
      (Quiet ref x → t.hbm = s.hbm ∧ t.ctrs = s.ctrs) ∧ Ended t c ref := by
  obtain ⟨⟨f, hf⟩, hcmd⟩ := hin.begun none
  have hexec := hin.exec_wait hop hz1 hz2 hctr hfld
  rw [if_pos hmet] at hexec
  exact completes_dropped hexec hcmd (fun hq => hq.started _ _) hin.item_lt (by rw [hf]) (by rw [hf]) (by rw [hf])

theorem InTurn.completes_wait_unmet (hin : InTurn s c ref x p) (hop : x.op = 0x21) (hz1 : zeros x.bytes 0x13 0x18 = true)
    (hz2 : zeros x.bytes 0x20 0x40 = true) (hctr : fieldAt x.bytes 0x10 2 < 4096) (hfld : fieldAt x.bytes 0x12 1 < 3)
    (hmet : ¬fieldAt x.bytes 0x18 8 ≤ s.ctr c (fieldAt x.bytes 0x10 2) (fieldAt x.bytes 0x12 1)) :
    Completes (.cmdWait c ref) s fun t => t.drc = s.drc ∧ t.ctrs = s.ctrs ∧ t.hbm = s.hbm ∧ Running t c ref := by
  obtain ⟨⟨f, hf⟩, hcmd⟩ := hin.begun none
  have hexec := hin.exec_wait hop hz1 hz2 hctr hfld
  rw [if_neg hmet] at hexec
  exact ⟨_, hexec, by rw [hf], by rw [hf], by rw [hf], running_of_cmd hcmd rfl⟩

theorem completes_waitSatisfied (hx : s.cmd c ref = some x) (hitem : ∀ n i, ref = .item n i → i < 256) (hop : x.op = 0x21)
    (hrun : x.st = .running) (ha : s.active c = true)
    (hmet : fieldAt x.bytes 0x18 8 ≤ s.ctr c (fieldAt x.bytes 0x10 2) (fieldAt x.bytes 0x12 1)) :
    Completes (.waitSatisfied c ref) s fun t => (∀ l, l ∈ t.drc ↔ l ∈ s.drc ∧ l.tenant ≠ c) ∧
      (Quiet ref x → t.hbm = s.hbm ∧ t.ctrs = s.ctrs) ∧ Ended t c ref := by
  have hexec : exec (.waitSatisfied c ref) s = .next ((s.drcDrop c none).endWork c ref) := by
    have hw : waitMet s c x = true := decide_eq_true hmet
    show execWaitSatisfied c ref s = _
    unfold execWaitSatisfied
    rw [hx]
    dsimp only
    rw [hop, hrun, hw, ha, if_pos (by decide)]
  exact completes_dropped hexec hx id hitem rfl rfl rfl

theorem InTurn.exec_fence (hin : InTurn s c ref x p) (hop : x.op = 0x22) (hscope : fieldAt x.bytes 0x10 1 < 4)
    (hz : zeros x.bytes 0x11 0x40 = true) :
    exec (.cmdFence c ref) s = .next (if s.earlierDone c ref then
      (if 2 ≤ fieldAt x.bytes 0x10 1 then (s.begin_ c ref none).drcDrop c none else s.begin_ c ref none).endWork c ref else s) := by
  refine congrArg Host.Outcome.next ((hin.dispatch (by rw [hop]; decide) (by rw [hop]; decide) (codeIf_false _ ?_) _).trans ?_)
  · simp [hz, hscope]
  · dsimp only
    cases s.earlierDone c ref <;> rfl

theorem InTurn.completes_fence (hin : InTurn s c ref x p) (hop : x.op = 0x22) (hscope : fieldAt x.bytes 0x10 1 < 4)
    (hz : zeros x.bytes 0x11 0x40 = true) (hdone : s.earlierDone c ref = true) :
    Completes (.cmdFence c ref) s fun t => (∀ l, l ∈ t.drc ↔ l ∈ s.drc ∧ ¬(2 ≤ fieldAt x.bytes 0x10 1 ∧ l.tenant = c)) ∧
      (Quiet ref x → t.hbm = s.hbm ∧ t.ctrs = s.ctrs) ∧ Ended t c ref := by
  obtain ⟨⟨f, hf⟩, hcmd⟩ := hin.begun none
  have hexec := hin.exec_fence hop hscope hz
  rw [if_pos hdone] at hexec
  by_cases hdrop : 2 ≤ fieldAt x.bytes 0x10 1
  · rw [if_pos hdrop] at hexec
    obtain ⟨t, ht, hdrc, hkeep, hend⟩ := completes_dropped (x := x) hexec hcmd (fun hq => hq.started _ _) hin.item_lt (by rw [hf]) (by rw [hf])
      (by rw [hf])
    exact ⟨t, ht, fun l => by rw [hdrc]; simp [hdrop], hkeep, hend⟩
  · rw [if_neg hdrop] at hexec
    refine ⟨_, hexec, fun l => ?_, fun hq => ?_, State.endWork_ended hcmd⟩
    · rw [State.endWork_drc hin.item_lt, hf]
      simp [hdrop]
    · have hend := State.endWork_frontOnly hcmd (hq.started _ _) hin.item_lt
      rw [FrontOnly, hf] at hend
      exact ⟨by rw [hf, hend], by rw [hf, hend]⟩

theorem InTurn.completes_fence_waits (hin : InTurn s c ref x p) (hop : x.op = 0x22) (hscope : fieldAt x.bytes 0x10 1 < 4)
    (hz : zeros x.bytes 0x11 0x40 = true) (hdone : s.earlierDone c ref = false) :
    Completes (.cmdFence c ref) s fun t => t = s := by
  have hexec := hin.exec_fence hop hscope hz
  rw [hdone, if_neg (by decide)] at hexec
  exact ⟨_, hexec, rfl⟩

/-! ## SIGNAL (R391, R392) -/

/-- The unit that a command's work belongs to stays when the command begins. -/
theorem State.unitRing_congr (hrings : t.front.rings = s.front.rings) (htwin : t.twin = s.twin) (hregs : t.regs = s.regs)
    (hladles : t.ladles = s.ladles) (r : CmdRef) : t.unitRing c r = s.unitRing c r := by
  have hcur : t.curUnit c = s.curUnit c := by
    simp only [State.curUnit, State.twinSt, State.tickNo, State.quad, State.word, htwin, hregs]
  have hring (q k : Nat) : t.cmd c (.ring q k) = s.cmd c (.ring q k) := by simp only [State.cmd, State.ringSt, hrings]
  cases r with
  | ring q k => rw [State.unitRing, State.unitRing, hcur, hring]
  | stored q k i => cases q <;> simp only [State.unitRing, hcur, hring, hladles]
  | item n i => exact hcur

/-- A work item whose template's command `i` has begun. -/
def Item.begun (i tick : Nat) (tile : Option Nat) (y : Item) : Item :=
  { y with cmds := lupd y.cmds i fun z => z.started tick tile, next := y.next + 1 }

theorem InTurn.unitFor_begun (hin : InTurn s c ref x p) (tile : Option Nat) : (s.begin_ c ref tile).unitFor c ref = s.unitFor c ref := by
  obtain ⟨⟨f, hf⟩, hcmd⟩ := hin.begun tile
  obtain ⟨-, -, hx, -⟩ := hin
  cases ref with
  | ring r csn =>
    have hcur : (s.begin_ c (.ring r csn) tile).curUnit c = s.curUnit c := by rw [hf]; rfl
    simp only [State.unitFor, State.unitRing, hcmd, hx, hcur]
    rfl
  | stored ring key i => exact State.unitRing_congr rfl rfl rfl rfl _
  | item n i =>
    have hbegun : (s.updCmd c (.item n i) fun z => z.started s.beat tile).item n =
        (s.item n).map fun y => { y with cmds := lupd y.cmds i fun z => z.started s.beat tile } :=
      State.item_updItem_same _ fun _ => rfl
    have hitem : (s.begin_ c (.item n i) tile).item n = (s.item n).map (Item.begun i s.beat tile) := by
      refine (State.item_updItem_same (s := s.updCmd c (.item n i) fun z => z.started s.beat tile) (fun y => { y with next := y.next + 1 })
        fun _ => rfl).trans ?_
      rw [hbegun, Option.map_map]
      rfl
    unfold State.unitFor
    dsimp only
    rw [hitem]
    cases s.item n with
    | none => rw [hf]; rfl
    | some y => exact State.unitRing_congr rfl rfl rfl rfl _

/-- What a SIGNAL does once it has begun, outside COMPARE. -/
def State.signalled (s : State) (c : Nat) (ref : CmdRef) (e : List Byte) : State :=
  match s.signal c ((ref.info.map (·.1)).getD 0) e (.signal c ref) with
  | (s, .done) => s.endWork c ref
  | (s, .sent) => s
  | (s, .unreach m) => (s.updCmd c ref fun x => { x with status := 7, detail := m }).endWork c ref

theorem InTurn.exec_signal (hin : InTurn s c ref x p) (hop : x.op = 0x20) (hz : zeros x.bytes 0x30 0x40 = true)
    (hok : sigEntryOk ((x.bytes.drop 16).take 32) = true) (htold : x.told = false) (hunit : s.inUnit c (s.unitFor c ref) = false) :
    exec (.cmdSignal c ref) s = .next ((s.begin_ c ref none).signalled c ref (sigResolve ((x.bytes.drop 16).take 32) x.csn)) := by
  obtain ⟨⟨f, hf⟩, -⟩ := hin.begun none
  refine congrArg Host.Outcome.next ((hin.dispatch (by rw [hop]; decide) (by rw [hop]; decide) (firstOf_eq_none fun y hy => ?_) _).trans ?_)
  · simp only [List.mem_cons, List.not_mem_nil, or_false] at hy
    rcases hy with rfl | rfl
    · exact codeIf_false _ (by rw [hz]; rfl)
    · exact codeIf_false _ (by rw [hok]; rfl)
  · have hunit' : (s.begin_ c ref none).inUnit c ((s.begin_ c ref none).unitFor c ref) = false := by
      rw [hin.unitFor_begun none]
      refine Eq.trans ?_ hunit
      rw [hf]
      rfl
    dsimp only
    rw [htold, hunit', if_neg (by decide), if_neg (by decide), State.signalled]
    generalize State.signal _ _ _ _ _ = z
    obtain ⟨v, way⟩ := z
    cases way <;> rfl

theorem State.signalled_done {e : List Byte} {v : State}
    (h : s.signal c ((ref.info.map (·.1)).getD 0) e (.signal c ref) = (v, .done)) : s.signalled c ref e = v.endWork c ref := by
  rw [State.signalled, h]

theorem State.signal_peer {ring : Nat} {e : List Byte} {w : Waiter} (hkind : sigKind e = 2) (hreach : s.vfReach c = true) :
    s.signal c ring e w = (s.send (.host (.vf c) (fieldAt e 8 8) (leBytes 8 (fieldAt e 0x10 8))), .done) := by
  unfold State.signal
  dsimp only
  rw [if_pos hkind, if_pos hreach]

theorem State.signal_local {ring : Nat} {e : List Byte} {w : Waiter} (hkind : sigKind e = 1) (hmember : fieldAt e 5 1 = 3) :
    s.signal c ring e w = (s.applySignal c (fieldAt e 2 2) (fieldAt e 1 1 % 2) (fieldAt e 0x10 8), .done) := by
  unfold State.signal
  dsimp only
  rw [if_neg (by rw [hkind]; decide), if_pos hmember]
  exact if_pos rfl

/-- SET or ADD at SIG of one counter (R311). -/
theorem State.applySignal_spec (k op v : Nat) (hwf : nwf s.ctrs = true) :
    (∃ m, s.applySignal c k op v = { s with ctrs := m }) ∧
    (s.applySignal c k op v).ctr c k 2 = (if op % 2 = 0 then v else s.ctr c k 2 + v) % 2 ^ 64 ∧
    ∀ j, j ≠ ctrKey c k 2 → nget (s.applySignal c k op v).ctrs j = nget s.ctrs j := by
  have hset (v : Nat) : (∃ m, s.setCtr c k 2 v = { s with ctrs := m }) ∧ (s.setCtr c k 2 v).ctr c k 2 = v % 2 ^ 64 ∧
      ∀ j, j ≠ ctrKey c k 2 → nget (s.setCtr c k 2 v).ctrs j = nget s.ctrs j := by
    refine ⟨⟨_, rfl⟩, ?_, fun j hj => nget_nset_other _ hwf hj⟩
    rw [State.ctr, State.setCtr, nget_nset_same _ _ hwf, BitVec.toNat_ofNat]
  unfold State.applySignal
  split
  · exact hset v
  · exact hset (s.ctr c k 2 + v)

theorem InTurn.completes_signal_local (hin : InTurn s c ref x p) (hop : x.op = 0x20) (hz : zeros x.bytes 0x30 0x40 = true)
    (hok : sigEntryOk ((x.bytes.drop 16).take 32) = true) (htold : x.told = false) (hunit : s.inUnit c (s.unitFor c ref) = false)
    (hq : Quiet ref x) {e : List Byte} (he : sigResolve ((x.bytes.drop 16).take 32) x.csn = e) (hkind : sigKind e = 1)
    (hmember : fieldAt e 5 1 = 3) :
    Completes (.cmdSignal c ref) s fun t =>
      t.ctr c (fieldAt e 2 2) 2 = (if fieldAt e 1 1 % 2 = 0 then fieldAt e 0x10 8 else s.ctr c (fieldAt e 2 2) 2 + fieldAt e 0x10 8) % 2 ^ 64 ∧
      (∀ k, k ≠ ctrKey c (fieldAt e 2 2) 2 → nget t.ctrs k = nget s.ctrs k) ∧ t.hbm = s.hbm ∧ t.regs = s.regs ∧ Ended t c ref := by
  obtain ⟨⟨f, hf⟩, hcmd⟩ := hin.begun none
  have hexec := hin.exec_signal hop hz hok htold hunit
  rw [he, State.signalled_done (State.signal_local hkind hmember)] at hexec
  have hwf : nwf (s.begin_ c ref none).ctrs = true := by
    rw [hf]
    exact State.tidy_ctrs hin.1
  obtain ⟨⟨m, hm⟩, hval, hother⟩ := State.applySignal_spec (c := c) (fieldAt e 2 2) (fieldAt e 1 1 % 2) (fieldAt e 0x10 8) hwf
  have hcmd' : ((s.begin_ c ref none).applySignal c (fieldAt e 2 2) (fieldAt e 1 1 % 2) (fieldAt e 0x10 8)).cmd c ref =
      some (x.started s.beat none) := (State.cmd_congr (by rw [hm])).trans hcmd
  have hend := State.endWork_frontOnly hcmd' (hq.started _ _) hin.item_lt
  refine ⟨_, hexec, ?_⟩
  rw [FrontOnly] at hend
  rw [Nat.mod_mod] at hval
  refine ⟨?_, fun k hk => ?_, ?_, ?_, State.endWork_ended hcmd'⟩
  · rw [hend]
    refine hval.trans ?_
    rw [hf]
    rfl
  · rw [hend]
    refine (hother k hk).trans ?_
    rw [hf]
  · rw [hend, hm, hf]
  · rw [hend, hm, hf]

theorem InTurn.completes_signal_peer (hin : InTurn s c ref x p) (hop : x.op = 0x20) (hz : zeros x.bytes 0x30 0x40 = true)
    (hok : sigEntryOk ((x.bytes.drop 16).take 32) = true) (htold : x.told = false) (hunit : s.inUnit c (s.unitFor c ref) = false)
    (hq : Quiet ref x) {e : List Byte} (he : sigResolve ((x.bytes.drop 16).take 32) x.csn = e) (hkind : sigKind e = 2)
    (hreach : s.vfReach c = true) :
    Completes (.cmdSignal c ref) s fun t =>
      t.outbox = s.outbox ++ [.host (.vf c) (fieldAt e 8 8) (leBytes 8 (fieldAt e 0x10 8))] ∧ t.ctrs = s.ctrs ∧ t.hbm = s.hbm ∧
      Ended t c ref := by
  obtain ⟨⟨f, hf⟩, hcmd⟩ := hin.begun none
  have hexec := hin.exec_signal hop hz hok htold hunit
  have hreach' : (s.begin_ c ref none).vfReach c = true := by
    rw [hf]
    exact hreach
  rw [he, State.signalled_done (State.signal_peer hkind hreach')] at hexec
  have hcmd' := (State.cmd_congr (State.send_front (s := s.begin_ c ref none)
    (.host (.vf c) (fieldAt e 8 8) (leBytes 8 (fieldAt e 0x10 8))))).trans hcmd
  have hend := State.endWork_frontOnly hcmd' (hq.started _ _) hin.item_lt
  refine ⟨_, hexec, ?_⟩
  rw [FrontOnly] at hend
  refine ⟨?_, ?_, ?_, State.endWork_ended hcmd'⟩ <;> rw [hend, hf] <;> rfl

/-! A packet that is sent on VC0 stands among those that its module holds, with the one that waits for it. -/

/-- The packets held, with what waits for each. -/
def State.heldWaits (s : State) : List (Packet × Waiter) := s.lnk.held.map fun h => (h.pkt, h.waiter)

theorem State.freeBuffer_heldWaits (port seq vc : Nat) : (s.freeBuffer port seq vc).heldWaits = s.heldWaits :=
  ite_of_both (Q := fun u : State => u.heldWaits = s.heldWaits) rfl rfl

theorem State.sendOne_heldWaits (port : Nat) (pkt : Packet) (what : Queued ⊕ HeldPkt) : (s.sendOne port pkt what).heldWaits = s.heldWaits := by
  have hemit : (s.emit port pkt).lnk.held = s.lnk.held := rfl
  unfold State.sendOne
  generalize s.emit port pkt = v at hemit
  cases what with
  | inl q =>
    have hq (f : Port → Port) : (v.updPort port f).heldWaits = s.heldWaits := congrArg (List.map fun h : HeldPkt => (h.pkt, h.waiter)) hemit
    dsimp only
    split
    · rw [State.freeBuffer_heldWaits, hq]
    · rw [hq]
  | inr h =>
    simp only [State.heldWaits, hemit, List.map_map]
    refine List.map_congr_left fun x _ => ?_
    dsimp only [Function.comp]
    split <;> rfl

theorem State.sendAll_heldWaits (port fuel : Nat) : (s.sendAll port fuel).heldWaits = s.heldWaits := by
  induction fuel generalizing s with
  | zero => rfl
  | succ fuel ih =>
    unfold State.sendAll
    refine ite_of_both (Q := fun u : State => u.heldWaits = s.heldWaits) rfl ?_
    split
    · rfl
    · split
      · rfl
      · rw [ih, State.sendOne_heldWaits]
        rfl

theorem State.sendPacket_held {pk : Packet} {pair : Bool} {w : Waiter} (hvc : pk.vc = 0) (h : s.sendPacket pk pair w false = some t) :
    ∃ y ∈ t.lnk.held, (∃ tag, y.pkt = { pk with src := s.moduleId, gen := s.gen, tag := tag }) ∧ y.waiter = w := by
  unfold State.sendPacket at h
  obtain ⟨q, -, rfl⟩ := Option.map_eq_some_iff.mp h
  extract_lets x
  rw [if_neg (by simp [hvc])]
  have hmem : ∃ z ∈ (s.holdPacket x).heldWaits, (∃ tag, z.1 = { pk with src := s.moduleId, gen := s.gen, tag := tag }) ∧ z.2 = w := by
    unfold State.holdPacket State.flushPort
    rw [State.sendAll_heldWaits]
    exact ⟨(_, w), List.mem_map.mpr ⟨_, List.mem_append_right _ (List.mem_singleton.mpr rfl), rfl⟩, ⟨_, rfl⟩, rfl⟩
  obtain ⟨z, hz, hpkt, hwait⟩ := hmem
  obtain ⟨y, hy, rfl⟩ := List.mem_map.mp hz
  exact ⟨y, hy, hpkt, hwait⟩

/-- The packet of a signal to a counter of another module (R311, R392). -/
def signalPacket (c d : Nat) (e : List Byte) : Packet :=
  { kind := .signal, vc := 0, cls := 0, dst := d, src := 0, tenant := c, space := 0, gen := 0, tag := 0,
    addr := fieldAt e 2 2 + fieldAt e 1 1 % 2 * 2 ^ 16, bad := 0, cnt := 0, cntEn := false, payload := leBytes 8 (fieldAt e 0x10 8), ctl := none }

theorem State.signal_remote {ring d q : Nat} {e : List Byte} {w : Waiter} (hkind : sigKind e = 1) (hmember : fieldAt e 5 1 ≠ 3)
    (hd : s.resolve (fieldAt e 4 1) (fieldAt e 5 1) = some d) (hne : d ≠ s.moduleId) (hroute : s.route d 0 none = some q) :
    ∃ v, s.signal c ring e w = (v, .sent) ∧ s.sendPacket (signalPacket c d e) (fieldAt e 5 1 == 2) w false = some v := by
  have hsome : ∃ v, s.sendPacket (signalPacket c d e) (fieldAt e 5 1 == 2) w false = some v := by
    rw [State.sendPacket]
    have hport : (if false then s.twinPort else none).orElse (fun _ => s.route (signalPacket c d e).dst (signalPacket c d e).vc none) =
        some q := hroute
    rw [hport]
    exact ⟨_, rfl⟩
  obtain ⟨v, hv⟩ := hsome
  refine ⟨v, ?_, hv⟩
  unfold State.signal
  dsimp only
  rw [if_neg (by rw [hkind]; decide), if_neg hmember, hd]
  dsimp only
  rw [if_neg hne]
  change (match s.sendPacket (signalPacket c d e) (fieldAt e 5 1 == 2) w false with
    | some s => (s, SigEnd.sent)
    | none => _) = _
  rw [hv]

theorem InTurn.completes_signal_remote (hin : InTurn s c ref x p) (hop : x.op = 0x20) (hz : zeros x.bytes 0x30 0x40 = true)
    (hok : sigEntryOk ((x.bytes.drop 16).take 32) = true) (htold : x.told = false) (hunit : s.inUnit c (s.unitFor c ref) = false)
    {e : List Byte} (he : sigResolve ((x.bytes.drop 16).take 32) x.csn = e) (hkind : sigKind e = 1) {d q : Nat}
    (hmember : fieldAt e 5 1 ≠ 3) (hd : s.resolve (fieldAt e 4 1) (fieldAt e 5 1) = some d) (hne : d ≠ s.moduleId)
    (hroute : s.route d 0 none = some q) :
    Completes (.cmdSignal c ref) s fun t =>
      (∃ h ∈ t.lnk.held, h.pkt.kind = .signal ∧ h.pkt.dst = d ∧ h.pkt.tenant = c ∧ h.pkt.payload = leBytes 8 (fieldAt e 0x10 8) ∧
        h.pkt.addr = fieldAt e 2 2 + fieldAt e 1 1 % 2 * 2 ^ 16 ∧ h.waiter = .signal c ref) ∧ t.ctrs = s.ctrs ∧ t.hbm = s.hbm ∧
      Running t c ref := by
  obtain ⟨⟨f, hf⟩, hcmd⟩ := hin.begun none
  have hexec := hin.exec_signal hop hz hok htold hunit
  rw [he] at hexec
  have hd' : (s.begin_ c ref none).resolve (fieldAt e 4 1) (fieldAt e 5 1) = some d := by rw [hf]; exact hd
  have hne' : d ≠ (s.begin_ c ref none).moduleId := by rw [hf]; exact hne
  have hroute' : (s.begin_ c ref none).route d 0 none = some q := by rw [hf]; exact hroute
  obtain ⟨v, hsig, hsend⟩ := State.signal_remote (c := c) (ring := (ref.info.map (·.1)).getD 0) (w := .signal c ref) hkind hmember hd' hne' hroute'
  rw [State.signalled, hsig] at hexec
  obtain ⟨y, hy, ⟨tag, hpkt⟩, hwait⟩ := State.sendPacket_held rfl hsend
  have hlink := State.sendPacket_linkOnly _ _ _ _ _ hsend
  refine ⟨_, hexec, ⟨y, hy, ?_⟩, ?_, ?_, running_of_cmd ((State.cmd_congr hlink.front).trans hcmd) rfl⟩
  · rw [hpkt]
    exact ⟨rfl, rfl, rfl, rfl, rfl, hwait⟩
  · rw [LinkOnly] at hlink
    rw [hlink, hf]
  · rw [LinkOnly] at hlink
    rw [hlink, hf]

end

/-- Settles O48: each of these commands begins, does its own act, and ends or waits; the end of one changes no read cache. -/
theorem frontEndCommandsComplete : Obligations.FrontEndCommandsComplete := by
  intro s c ref x p
  refine ⟨fun hin => ⟨hin.completes_nop, fun hop hz hok htold hunit hq => ?_, fun hop hz1 hz2 hctr hfld => ?_, fun hop hscope hz => ?_⟩,
    fun hx hitem hop hrun ha hmet => completes_waitSatisfied hx hitem hop hrun ha hmet⟩
  · intro e
    exact ⟨hin.completes_signal_local hop hz hok htold hunit hq rfl, fun hkind d q => hin.completes_signal_remote hop hz hok htold hunit rfl hkind,
      hin.completes_signal_peer hop hz hok htold hunit hq rfl⟩
  · split
    next hmet => exact hin.completes_wait hop hz1 hz2 hctr hfld hmet
    next hmet => exact hin.completes_wait_unmet hop hz1 hz2 hctr hfld hmet
  · split
    next hdone => exact hin.completes_fence hop hscope hz hdone
    next hdone => exact hin.completes_fence_waits hop hscope hz (Bool.eq_false_iff.mpr hdone)

end Sys2Proof.Machine
end

section
/-!
PROOFS. Commands that take a tile: MATMUL, ATTN, QSTAT, QCONV, CODEC, VEC and XFER (R385, R387 to R389, R461): O49.
-/

namespace Sys2Proof.Machine

section
variable {s t u : State} {c n : Nat} {ref : CmdRef} {x : RCmd} {p : Partition}

/-! ## The tile that a command gets is one of the module's -/

theorem State.lt_of_usable (h : s.usable c n = true) : n < 128 := by
  by_contra hn
  have hnone : s.sched.entry[n]? = none := Vector.getElem?_eq_none (Nat.le_of_not_lt hn)
  simp [State.usable, hnone] at h

theorem State.lt_of_placeCmd (h : s.placeCmd c ref x = some n) : n < 128 := by
  have hfree (h : s.freeTile c x = some n) : n < 128 := by
    unfold State.freeTile at h
    dsimp only at h
    split at h
    · have hok := (Option.filter_eq_some_iff.mp h).2
      exact State.lt_of_usable ((Bool.and_eq_true _ _).mp hok).1
    · exact List.mem_range.mp (List.mem_of_find?_eq_some h)
  unfold State.placeCmd at h
  split at h
  · have hok := (Option.filter_eq_some_iff.mp h).2
    simp only [Bool.and_eq_true] at hok
    exact State.lt_of_usable hok.1.1
  · split at h
    · exact hfree h
    · cases h

theorem State.lt_of_placeXfer (h : s.placeXfer c ref x = some n) : n < 128 := by
  have hfree (h : s.freeXfer c x = some n) : n < 128 := by
    unfold State.freeXfer at h
    dsimp only at h
    split at h
    · have hok := (Option.filter_eq_some_iff.mp h).2
      simp only [Bool.and_eq_true] at hok
      exact State.lt_of_usable hok.1.1
    · rw [Option.orElse_eq_or, Option.or_eq_some_iff] at h
      rcases h with h | ⟨-, h⟩
      · exact List.mem_range.mp (List.mem_of_find?_eq_some h)
      · exact List.mem_range.mp (List.mem_of_find?_eq_some h)
  unfold State.placeXfer at h
  split at h
  · have hok := (Option.filter_eq_some_iff.mp h).2
    simp only [Bool.and_eq_true] at hok
    exact State.lt_of_usable hok.1
  · split at h
    · exact hfree h
    · cases h

/-! ## Counting a launch (R461, R549) -/

/-- From `s` to `t` the tiles, the delivery counters, the Larder and the front end stay. -/
structure KeepsWork (s t : State) : Prop where
  tiles : t.tiles = s.tiles
  ctrs : t.ctrs = s.ctrs
  lrd : t.lrd = s.lrd
  front : t.front = s.front

theorem KeepsWork.refl (s : State) : KeepsWork s s := ⟨rfl, rfl, rfl, rfl⟩

theorem KeepsWork.trans (h : KeepsWork s t) (g : KeepsWork t u) : KeepsWork s u :=
  ⟨g.tiles.trans h.tiles, g.ctrs.trans h.ctrs, g.lrd.trans h.lrd, g.front.trans h.front⟩

theorem State.addQuad_keepsWork (o v : Nat) : KeepsWork s (s.addQuad o v) := ⟨rfl, rfl, rfl, rfl⟩

theorem State.taWrite_keepsWork (a : Nat) (bs : List Byte) (bad : Bool) : KeepsWork s (s.taWrite c a bs bad) := by
  rw [State.taWrite_frame]
  exact ⟨rfl, rfl, rfl, rfl⟩

theorem State.logToken_keepsWork (kind op recipe q seed step version : Nat) (digest : List Byte) :
    KeepsWork s (s.logToken c kind op recipe q seed step version digest) := by
  unfold State.logToken
  extract_lets v
  have hreports : Reports s v := s.event_reports _ _ _ _ _ _
  have hv : KeepsWork s v := ⟨hreports.tiles, hreports.ctrs, hreports.lrd, hreports.front⟩
  clear_value v
  split
  · exact hv
  · refine ite_of_both (Q := KeepsWork s) hv ?_
    exact (hv.trans (State.taWrite_keepsWork _ _ _)).trans (State.addQuad_keepsWork _ _)

theorem State.countLaunch_keepsWork : KeepsWork s (s.countLaunch c ref x) := by
  unfold State.countLaunch
  split
  · exact (State.addQuad_keepsWork _ _).trans (State.logToken_keepsWork _ _ _ _ _ _ _ _)
  · exact .refl s

/-! ## Commands of one instruction (R387) -/

theorem exec_insnRow {row : (Nat → CmdRef → Instr) × Nat × List Nat} (hrow : row ∈ insnRows) :
    exec (row.1 c ref) s = .next (s.insnCmd c ref row.2.1 fun o => row.2.2.contains o) := by
  have hok {f g : Nat → Bool} (op : Nat) (h : ∀ o, f o = true ↔ g o = true) :
      (Host.Outcome.next (s.insnCmd c ref op f) : Host.Outcome State Fault Refusal) = .next (s.insnCmd c ref op g) := by
    rw [funext fun o => Bool.eq_iff_iff.mpr (h o)]
  simp only [insnRows, List.mem_cons, List.not_mem_nil, or_false] at hrow
  rcases hrow with rfl | rfl | rfl | rfl | rfl
  · exact hok 1 fun o => by simp
  · exact hok 2 fun o => by simp
  · exact hok 4 fun o => by simp
  · exact hok 5 fun o => by simp
  · refine hok 9 fun o => ?_
    simp only [decide_eq_true_eq, List.contains_eq_mem, List.mem_cons, List.not_mem_nil, or_false]
    omega

theorem insnRows_valid {row : (Nat → CmdRef → Instr) × Nat × List Nat} (hrow : row ∈ insnRows) : validOpc row.2.1 = true := by
  simp only [insnRows, List.mem_cons, List.not_mem_nil, or_false] at hrow
  rcases hrow with rfl | rfl | rfl | rfl | rfl <;> decide

/-- The program of an instruction that a command carries. -/
def insnProg (c : Nat) (ref : CmdRef) (x : RCmd) : Prog :=
  newProg c ref x 0 64 [BitVec.ofNat 256 (fieldAt x.bytes 0x10 32), endWord]

theorem InTurn.completes_insn (hin : InTurn s c ref x p) {row : (Nat → CmdRef → Instr) × Nat × List Nat} (hrow : row ∈ insnRows)
    (hop : x.op = row.2.1) (hcheck : insnCheck (fun o => row.2.2.contains o) x = none) (hplace : s.placeCmd c ref x = some n) :
    Completes (row.1 c ref) s fun t =>
      t.tile n = { s.tile n with launch := some (insnProg c ref x) } ∧ (∀ m, m ≠ n → t.tile m = s.tile m) ∧ t.ctrs = s.ctrs ∧
      t.lrd = s.lrd ∧ Running t c ref := by
  obtain ⟨⟨f, hf⟩, hcmd⟩ := hin.begun (some n)
  have hn := State.lt_of_placeCmd hplace
  have hexec : exec (row.1 c ref) s = .next (((s.begin_ c ref (some n)).updTile n fun y => { y with launch := some (insnProg c ref x) }).countLaunch
      c ref x) := by
    rw [exec_insnRow hrow, State.insnCmd, hin.dispatch (by simp [hop]) (by rw [hop]; exact insnRows_valid hrow) hcheck, State.runInsn, hplace]
    rfl
  have hcount := State.countLaunch_keepsWork (s := (s.begin_ c ref (some n)).updTile n fun y => { y with launch := some (insnProg c ref x) })
    (c := c) (ref := ref) (x := x)
  have htile (m : Nat) : (s.begin_ c ref (some n)).tile m = s.tile m := State.tile_congr (by rw [hf]) m
  refine ⟨_, hexec, ?_, fun m hm => ?_, ?_, ?_, running_of_cmd ((State.cmd_congr hcount.front).trans hcmd) rfl⟩
  · rw [State.tile_congr hcount.tiles, State.tile_updTile_same _ hn, htile]
  · rw [State.tile_congr hcount.tiles, State.tile_updTile_other _ hm, htile]
  · rw [hcount.ctrs, hf]
    rfl
  · rw [hcount.lrd, hf]
    rfl

/-! ## VEC (R388) -/

/-- One piece of at most 64 bytes of a VEC's program, copied to its place. -/
def State.vecPiece (c n ta poff len : Nat) (s : State) (i : Nat) : State :=
  match s.taRead c (ta + 64 * i) (min 64 (len - 64 * i)) with
  | some (bs, bad) => s.updTile n fun y => y.write (poff + 64 * i) bs bad
  | none => s

/-- The first `k` pieces of a program. -/
def State.vecCopy (s : State) (c n ta poff len k : Nat) : State := (List.range k).foldl (State.vecPiece c n ta poff len) s

/-- What copying to the bytes `[lo, hi)` of tile `n` may change. -/
structure CopiesTo (n lo hi : Nat) (s t : State) : Prop where
  frame : t = { s with tiles := t.tiles }
  ve : (t.tile n).ve = (s.tile n).ve
  others : ∀ m, m ≠ n → t.tile m = s.tile m
  wf : nwf (s.tile n).mem = true → nwf (t.tile n).mem = true
  outside : nwf (s.tile n).mem = true → ∀ a, a < lo ∨ hi ≤ a → nget (t.tile n).mem a = nget (s.tile n).mem a

variable {ta poff len : Nat}

theorem CopiesTo.refl (lo hi : Nat) (s : State) : CopiesTo n lo hi s s := ⟨rfl, rfl, fun _ _ => rfl, id, fun _ _ _ => rfl⟩

theorem CopiesTo.trans {lo hi : Nat} (h : CopiesTo n lo hi s t) (g : CopiesTo n lo hi t u) : CopiesTo n lo hi s u where
  frame := by rw [g.frame, h.frame]
  ve := g.ve.trans h.ve
  others m hm := (g.others m hm).trans (h.others m hm)
  wf hw := g.wf (h.wf hw)
  outside hw a ha := (g.outside (h.wf hw) a ha).trans (h.outside hw a ha)

theorem CopiesTo.mono {lo hi lo' hi' : Nat} (h : CopiesTo n lo hi s t) (hlo : lo' ≤ lo) (hhi : hi ≤ hi') : CopiesTo n lo' hi' s t :=
  ⟨h.frame, h.ve, h.others, h.wf, fun hw a ha => h.outside hw a (by omega)⟩

theorem State.write_copiesTo (hn : n < 128) (off : Nat) (bs : List Byte) (bad : Bool) :
    CopiesTo n off (off + bs.length) s (s.updTile n fun y => y.write off bs bad) where
  frame := rfl
  ve := by rw [State.tile_updTile_same _ hn]; rfl
  others m hm := State.tile_updTile_other _ hm
  wf hw := by
    rw [State.tile_updTile_same _ hn]
    exact nwf_writeBytes _ _ hw
  outside hw a ha := by
    rw [State.tile_updTile_same _ hn]
    exact nget_writeBytes_outside _ hw ha

theorem State.vecPiece_copiesTo (hn : n < 128) (i : Nat) :
    CopiesTo n (poff + 64 * i) (poff + 64 * i + min 64 (len - 64 * i)) s (s.vecPiece c n ta poff len i) := by
  unfold State.vecPiece
  split
  next bs bad hread =>
    have hlen := State.length_taRead hread
    rw [← hlen]
    exact State.write_copiesTo hn _ _ _
  next => exact .refl _ _ s

theorem State.vecCopy_succ (k : Nat) : s.vecCopy c n ta poff len (k + 1) = (s.vecCopy c n ta poff len k).vecPiece c n ta poff len k := by
  rw [State.vecCopy, List.range_succ, List.foldl_append]
  rfl

theorem State.vecCopy_copiesTo (hn : n < 128) (k : Nat) (hk : 64 * k ≤ len + 63) :
    CopiesTo n poff (poff + len) s (s.vecCopy c n ta poff len k) := by
  induction k with
  | zero => exact .refl _ _ s
  | succ k ih =>
    rw [State.vecCopy_succ]
    exact (ih (by omega)).trans ((State.vecPiece_copiesTo hn k).mono (by omega) (by omega))

theorem CopiesTo.part {lo hi : Nat} (h : CopiesTo n lo hi s t) : t.part c = s.part c := by
  rw [h.frame]
  rfl

theorem CopiesTo.hbm {lo hi : Nat} (h : CopiesTo n lo hi s t) : t.hbm = s.hbm := by
  rw [h.frame]

/-- A program in the tenant's own range: each byte copied so far stands at its place. -/
theorem State.vecCopy_bytes (hp : s.part c = some p) (hn : n < 128) (hown : ta + len ≤ p.taSize) (hw : nwf (s.tile n).mem = true) (k : Nat)
    (hk : 64 * k ≤ len + 63) {i : Nat} (hi : i < 64 * k) (hlen : i < len) :
    nget ((s.vecCopy c n ta poff len k).tile n).mem (poff + i) = nget s.hbm (groupAddr p.chgroups (ta + i)) := by
  induction k with
  | zero => omega
  | succ k ih =>
    rw [State.vecCopy_succ]
    have hcopied := State.vecCopy_copiesTo (s := s) (c := c) (ta := ta) (poff := poff) (len := len) hn k (by omega)
    have hold := fun hi => ih (by omega) hi
    have hpiece := State.vecPiece_copiesTo (s := s.vecCopy c n ta poff len k) (c := c) (ta := ta) (poff := poff) (len := len) hn k
    generalize s.vecCopy c n ta poff len k = v at *
    by_cases hbefore : i < 64 * k
    · rw [hpiece.outside (hcopied.wf hw) _ (by omega), hold hbefore]
    · obtain ⟨bad, hread⟩ := State.taRead_own (s := v) (c := c) (a := ta + 64 * k) (n := min 64 (len - 64 * k)) (hcopied.part.trans hp)
        (by omega) (by omega)
      obtain ⟨j, rfl⟩ := Nat.exists_eq_add_of_le (Nat.le_of_not_lt hbefore)
      have hj : j < (v.ownBytes p (ta + 64 * k) (min 64 (len - 64 * k))).length := by
        rw [State.length_ownBytes]
        omega
      rw [State.vecPiece, hread]
      dsimp only
      rw [State.tile_updTile_same _ hn]
      change nget (writeBytes (v.tile n).mem (poff + 64 * k) (v.ownBytes p (ta + 64 * k) (min 64 (len - 64 * k)))) (poff + (64 * k + j)) = _
      rw [← Nat.add_assoc, nget_writeBytes_inside _ (hcopied.wf hw) hj, State.getElem_ownBytes, State.byteAt,
        hcopied.hbm, Nat.add_assoc]

theorem InTurn.exec_vec (hin : InTurn s c ref x p) (hop : x.op = 3) (hz1 : zeros x.bytes 0x20 0x30 = true) (hz2 : zeros x.bytes 0x3E 0x40 = true)
    (hta : fieldAt x.bytes 0x10 8 = ta) (hl : fieldAt x.bytes 0x18 4 = len) (hpo : fieldAt x.bytes 0x1C 4 = poff)
    (hta32 : ta % 32 = 0) (hlen32 : len % 32 = 0) (hlo : 32 ≤ len) (hhi : len ≤ 65536) (hpoff : poff % 32 = 0)
    (hshare : inShare p.share poff len = true) (hmap : s.feMapped c ta len = true) (hplace : s.placeCmd c ref x = some n) :
    exec (.cmdVec c ref) s = .next ((((s.begin_ c ref (some n)).vecCopy c n ta poff len (ceilDiv len 64)).updTile n fun y =>
      { y with launch := some (newProg c ref x poff (poff + len) []) }).countLaunch c ref x) := by
  subst hta hl hpo
  refine congrArg Host.Outcome.next ((hin.dispatch (by rw [hop]; decide) (by rw [hop]; decide) (firstOf_eq_none fun y hy => ?_) _).trans ?_)
  · simp only [List.mem_cons, List.not_mem_nil, or_false] at hy
    rcases hy with rfl | rfl
    · exact codeIf_false _ (by simp [hz1, hz2])
    · refine codeIf_false _ ?_
      simp [hta32, hlen32, hpoff, hshare, hmap]
      omega
  · dsimp only
    rw [hplace]
    rfl

theorem InTurn.completes_vec (hin : InTurn s c ref x p) (hop : x.op = 3) (hz1 : zeros x.bytes 0x20 0x30 = true)
    (hz2 : zeros x.bytes 0x3E 0x40 = true) (hta : fieldAt x.bytes 0x10 8 = ta) (hl : fieldAt x.bytes 0x18 4 = len)
    (hpo : fieldAt x.bytes 0x1C 4 = poff) (hta32 : ta % 32 = 0) (hlen32 : len % 32 = 0) (hlo : 32 ≤ len) (hhi : len ≤ 65536)
    (hpoff : poff % 32 = 0) (hshare : inShare p.share poff len = true) (hmap : s.feMapped c ta len = true)
    (hplace : s.placeCmd c ref x = some n) :
    Completes (.cmdVec c ref) s fun t =>
      (t.tile n).launch = some (newProg c ref x poff (poff + len) []) ∧
      (ta + len ≤ p.taSize → nwf (s.tile n).mem = true → ∀ i, i < len →
        nget (t.tile n).mem (poff + i) = nget s.hbm (groupAddr p.chgroups (ta + i))) ∧
      (nwf (s.tile n).mem = true → ∀ a, a < poff ∨ poff + len ≤ a → nget (t.tile n).mem a = nget (s.tile n).mem a) ∧
      (t.tile n).ve = (s.tile n).ve ∧ (∀ m, m ≠ n → t.tile m = s.tile m) ∧ t.ctrs = s.ctrs ∧ Running t c ref := by
  obtain ⟨⟨f, hf⟩, hcmd⟩ := hin.begun (some n)
  have hn := State.lt_of_placeCmd hplace
  have hexec := hin.exec_vec hop hz1 hz2 hta hl hpo hta32 hlen32 hlo hhi hpoff hshare hmap hplace
  have hceil : len ≤ 64 * ceilDiv len 64 ∧ 64 * ceilDiv len 64 ≤ len + 63 := by
    unfold ceilDiv
    omega
  have hcopies := State.vecCopy_copiesTo (s := s.begin_ c ref (some n)) (c := c) (ta := ta) (poff := poff) (len := len) hn _ hceil.2
  have htile (m : Nat) : (s.begin_ c ref (some n)).tile m = s.tile m := State.tile_congr (by rw [hf]) m
  have hbytes (hown : ta + len ≤ p.taSize) (hw : nwf (s.tile n).mem = true) (i : Nat) (hi : i < len) :=
    State.vecCopy_bytes (s := s.begin_ c ref (some n)) (ta := ta) (poff := poff) (by rw [hf]; exact hin.2.2.2.1) hn hown
      (by rw [htile]; exact hw) _ hceil.2 (i := i) (by omega) hi
  generalize (s.begin_ c ref (some n)).vecCopy c n ta poff len (ceilDiv len 64) = v at *
  have hlaunched := State.tile_updTile_same (s := v) (fun y => { y with launch := some (newProg c ref x poff (poff + len) []) }) hn
  have hother (m : Nat) (hm : m ≠ n) :=
    State.tile_updTile_other (s := v) (fun y => { y with launch := some (newProg c ref x poff (poff + len) []) }) hm
  have hcount := State.countLaunch_keepsWork (s := v.updTile n fun y => { y with launch := some (newProg c ref x poff (poff + len) []) })
    (c := c) (ref := ref) (x := x)
  refine ⟨_, hexec, ?_, fun hown hw i hi => ?_, fun hw a ha => ?_, ?_, fun m hm => ?_, ?_, running_of_cmd (y := x.started s.beat (some n))
    ((State.cmd_congr hcount.front).trans ?_) rfl⟩
  · rw [State.tile_congr hcount.tiles, hlaunched]
  · rw [State.tile_congr hcount.tiles, hlaunched]
    refine (hbytes hown hw i hi).trans ?_
    rw [hf]
  · rw [State.tile_congr hcount.tiles, hlaunched, ← htile n]
    exact hcopies.outside (by rw [htile]; exact hw) a ha
  · rw [State.tile_congr hcount.tiles, hlaunched, ← htile n]
    exact hcopies.ve
  · rw [State.tile_congr hcount.tiles, hother m hm, hcopies.others m hm, htile]
  · rw [hcount.ctrs, show (v.updTile n _).ctrs = v.ctrs from rfl, hcopies.frame, hf]
  · refine (State.cmd_congr ?_).trans hcmd
    rw [show (v.updTile n _).front = v.front from rfl, hcopies.frame]

/-! ## XFER (R389) -/

/-- The chain of an XFER. -/
def xferChan (c : Nat) (ref : CmdRef) (x : RCmd) (sh : Share) : Chan :=
  { tenant := c, csp := true, maxOut := fieldAt x.bytes 0x12 2 + 1, rd := (sh.lo, sh.hi - sh.lo), wr := (sh.lo, sh.hi - sh.lo), fetched := [],
    next := fieldAt x.bytes 0x18 8, active := [], begun := 0, last := false, stopped := false, xstart := 0, seed := BitVec.ofNat 64 x.seed,
    step := x.step, by_ := some ref, owner := ref, inst := 0, remote := 0 }

theorem State.chan_setChan_same (hn : n < 128) (k : Nat) (q : Chan) : (s.setChan n k (some q)).chan n k = some q := by
  rw [State.chan, State.setChan, State.tile_updTile_same _ hn]
  exact aget_aput_same _ _ _

theorem InTurn.completes_xfer (hin : InTurn s c ref x p) (hop : x.op = 8) (hz1 : zeros x.bytes 0x11 0x12 = true)
    (hz2 : zeros x.bytes 0x14 0x18 = true) (hz3 : zeros x.bytes 0x20 0x30 = true) (hz4 : zeros x.bytes 0x3E 0x40 = true)
    (hch : fieldAt x.bytes 0x10 1 < 8) (hreq : fieldAt x.bytes 0x12 2 < 768) (hxreq : fieldAt x.bytes 0x12 2 + 1 ≤ p.xreq)
    (haddr : fieldAt x.bytes 0x18 8 < 2 ^ 40) (halign : fieldAt x.bytes 0x18 8 % 64 = 0) (hplace : s.placeXfer c ref x = some n) :
    Completes (.cmdXfer c ref) s fun t =>
      t.chan n (8 * c + fieldAt x.bytes 0x10 1) = some (xferChan c ref x p.share) ∧
      (t.tile n).mem = (s.tile n).mem ∧ (t.tile n).ve = (s.tile n).ve ∧ (∀ m, m ≠ n → t.tile m = s.tile m) ∧ t.ctrs = s.ctrs ∧
      Running t c ref := by
  obtain ⟨⟨f, hf⟩, hcmd⟩ := hin.begun (some n)
  have hn := State.lt_of_placeXfer hplace
  have hshare : s.share c = p.share := by
    obtain ⟨-, -, -, hp, -⟩ := hin
    rw [State.share, hp]
    rfl
  have hexec : exec (.cmdXfer c ref) s =
      .next (((s.begin_ c ref (some n)).setChan n (8 * c + fieldAt x.bytes 0x10 1) (some (xferChan c ref x p.share))).countLaunch c ref x) := by
    refine congrArg Host.Outcome.next ((hin.dispatch (by rw [hop]; decide) (by rw [hop]; decide) (firstOf_eq_none fun y hy => ?_) _).trans ?_)
    · simp only [List.mem_cons, List.not_mem_nil, or_false] at hy
      rcases hy with rfl | rfl | rfl | rfl
      · exact codeIf_false _ (by simp [hz1, hz2, hz3, hz4]; omega)
      · exact codeIf_false _ (decide_eq_false (by omega))
      · exact codeIf_false _ (decide_eq_false (by omega))
      · exact codeIf_false _ (by rw [decide_eq_false (by omega), halign]; rfl)
    · dsimp only
      rw [hplace, hshare]
      rfl
  have hcount := State.countLaunch_keepsWork (s := (s.begin_ c ref (some n)).setChan n (8 * c + fieldAt x.bytes 0x10 1)
    (some (xferChan c ref x p.share))) (c := c) (ref := ref) (x := x)
  have htile (m : Nat) : (s.begin_ c ref (some n)).tile m = s.tile m := State.tile_congr (by rw [hf]) m
  have hchains := (s.begin_ c ref (some n)).setChan_chainsOnly n (8 * c + fieldAt x.bytes 0x10 1) (some (xferChan c ref x p.share)) n
  refine ⟨_, hexec, ?_, ?_, ?_, fun m hm => ?_, ?_, running_of_cmd ((State.cmd_congr hcount.front).trans hcmd) rfl⟩
  · rw [State.chan, State.tile_congr hcount.tiles]
    exact State.chan_setChan_same hn _ _
  · rw [State.tile_congr hcount.tiles, hchains, htile]
  · rw [State.tile_congr hcount.tiles, hchains, htile]
  · rw [State.tile_congr hcount.tiles, State.setChan, State.tile_updTile_other _ hm, htile]
  · rw [hcount.ctrs, hf]
    rfl

end

/-- Settles O49: the tile that takes the command is one of the module's, and counting the launch changes neither tiles nor counters. -/
theorem unitCommandsTakeATile : Obligations.UnitCommandsTakeATile := by
  intro s c ref x p n hin
  refine ⟨fun row hrow hop hcheck hplace => hin.completes_insn hrow hop hcheck hplace, ?_, ?_⟩
  · intro ta len poff hop hz1 hz2 hta hlen hlo hhi hpoff hshare hmap hplace
    exact hin.completes_vec hop hz1 hz2 rfl rfl rfl hta hlen hlo hhi hpoff hshare hmap hplace
  · intro hop hz1 hz2 hz3 hz4 hch hreq hxreq haddr halign hplace
    obtain ⟨t, hexec, hchan, hrest⟩ := hin.completes_xfer hop hz1 hz2 hz3 hz4 hch hreq hxreq haddr halign hplace
    exact ⟨t, hexec, ⟨_, hchan, rfl, rfl, rfl, rfl, rfl, rfl, rfl, rfl, rfl, rfl⟩, hrest⟩

end Sys2Proof.Machine
end

section
/-!
PROOFS. RECIPE_LOAD, RECIPE_PATCH and RECIPE_LAUNCH (R399 to R403): O50.
-/

namespace Sys2Proof.Machine

section
variable {s t u : State} {c r csn : Nat} {ref : CmdRef} {x : RCmd} {p : Partition} {id : Nat}

/-! ## Buffers (R399, R400) -/

theorem Recipe.put_cur (q : Recipe) (b : Bool) (y : RcpBuf) : (q.put b y).cur = y := by
  cases b <;> rfl

/-- A recipe as it stands once `s` has stored the commands `cmds` of it. -/
structure Stored (s : State) (id : Nat) (cmds : List (List Byte)) (t : State) : Prop where
  current : ∃ q, aget t.front.recipes id = some q ∧
    q.cur = { cmds := cmds, version := ((aget s.front.recipes id).map fun o => (o.cur.version + 1) % 2 ^ 16).getD 1, holds := 0 }
  others : ∀ k, k ≠ id → aget t.front.recipes k = aget s.front.recipes k

theorem Stored.of_recipes {cmds : List (List Byte)} (h : Stored s id cmds t) (hu : u.front.recipes = t.front.recipes) : Stored s id cmds u := by
  obtain ⟨hcur, hoth⟩ := h
  rw [← hu] at hcur hoth
  exact ⟨hcur, hoth⟩

/-- A store finds a buffer when some buffer is not held: the next version of what `f` makes of the current commands. -/
theorem State.storeRecipe_stored (f : List (List Byte) → List (List Byte))
    (hroom : ∀ o, aget s.front.recipes id = some o → o.cur.holds = 0 ∨ o.other.holds = 0) :
    ∃ t v, s.storeRecipe id f = (t, some v) ∧ (∃ g : List (Nat × Recipe), t = { s with front := { s.front with recipes := g } }) ∧
      Stored s id (f (((aget s.front.recipes id).map fun o => o.cur.cmds).getD [])) t := by
  have hput (q : Recipe) (y : RcpBuf) (hq : q.cur = y)
      (hy : y = { cmds := f (((aget s.front.recipes id).map fun o => o.cur.cmds).getD []),
                  version := ((aget s.front.recipes id).map fun o => (o.cur.version + 1) % 2 ^ 16).getD 1, holds := 0 }) :
      Stored s id (f (((aget s.front.recipes id).map fun o => o.cur.cmds).getD []))
        { s with front := { s.front with recipes := aput s.front.recipes id q } } :=
    ⟨⟨q, aget_aput_same _ _ _, hq.trans hy⟩, fun k hk => aget_aput_other _ _ hk⟩
  unfold State.storeRecipe
  cases hold : aget s.front.recipes id with
  | none =>
    rw [hold] at hput
    exact ⟨_, _, rfl, ⟨_, rfl⟩, hput _ _ rfl rfl⟩
  | some o =>
    rw [hold] at hput
    dsimp only
    by_cases hcur : o.cur.holds = 0
    · rw [if_pos hcur]
      exact ⟨_, _, rfl, ⟨_, rfl⟩, hput _ _ (Recipe.put_cur _ _ _) rfl⟩
    · rw [if_neg hcur, if_pos ((hroom o hold).resolve_left hcur)]
      exact ⟨_, _, rfl, ⟨_, rfl⟩, hput _ _ (Recipe.put_cur _ _ _) rfl⟩

theorem State.storeRecipe_busy (f : List (List Byte) → List (List Byte))
    (hroom : ¬∀ o, aget s.front.recipes id = some o → o.cur.holds = 0 ∨ o.other.holds = 0) : s.storeRecipe id f = (s, none) := by
  push Not at hroom
  obtain ⟨o, hold, hcur, hother⟩ := hroom
  unfold State.storeRecipe
  rw [hold]
  dsimp only
  rw [if_neg hcur, if_neg hother]

/-! ## How a store ends -/

/-- A ring's command that begins and ends with a status changes no recipe and no launch. -/
theorem State.endsWith_ring {y : RCmd} {status detail : Nat} (hy : s.cmd c (.ring r csn) = some y) (hstatus : status ≠ 0)
    (ht : t = (s.updCmd c (.ring r csn) fun y => { y with status := status, detail := detail }).endWork c (.ring r csn)) :
    t.front.recipes = s.front.recipes ∧ t.front.launches = s.front.launches ∧
      ((t.cmd c (.ring r csn)).map fun y => (y.st, y.status)) = some (CmdSt.done, status) := by
  subst ht
  refine ⟨rfl, rfl, ?_⟩
  rw [State.endWork_ring_cmd (State.cmd_updCmd_same (f := fun y => { y with status := status, detail := detail }) (fun _ => rfl) hy)]
  simp [RCmd.finish, RCmd.outcome, hstatus]

theorem State.endStore_stored {v : Nat} {y : RCmd} {cmds : List (List Byte)} (hstored : Stored u id cmds t)
    (hy : t.cmd c (.ring r csn) = some y) :
    Stored u id cmds (s.endStore c (.ring r csn) id (t, some v)) ∧ Ended (s.endStore c (.ring r csn) id (t, some v)) c (.ring r csn) :=
  ⟨hstored.of_recipes rfl, State.endWork_ended (State.cmd_updCmd_same (f := fun y => { y with detail := v }) (fun _ => rfl) hy)⟩

/-- What a store does of a command of a ring that has begun. -/
theorem InTurn.endStore_spec (hin : InTurn s c (.ring r csn) x p) (f : List (List Byte) → List (List Byte))
    (hroom : ∀ o, aget s.front.recipes id = some o → o.cur.holds = 0 ∨ o.other.holds = 0)
    (ht : t = (s.begin_ c (.ring r csn) none).endStore c (.ring r csn) id ((s.begin_ c (.ring r csn) none).storeRecipe id f)) :
    Stored s id (f (((aget s.front.recipes id).map fun o => o.cur.cmds).getD [])) t ∧ Ended t c (.ring r csn) := by
  obtain ⟨-, hcmd⟩ := hin.begun none
  have hrecipes : (s.begin_ c (.ring r csn) none).front.recipes = s.front.recipes := rfl
  obtain ⟨v, k, hstore, ⟨g, hg⟩, hstored⟩ := State.storeRecipe_stored (s := s.begin_ c (.ring r csn) none) (id := id) f
    (by rw [hrecipes]; exact hroom)
  have hv : v.cmd c (.ring r csn) = some (x.started s.beat none) := by
    rw [hg]
    exact hcmd
  rw [ht, hstore]
  obtain ⟨h, hend⟩ := State.endStore_stored (s := s.begin_ c (.ring r csn) none) (v := k) hstored hv
  exact ⟨⟨h.current, h.others⟩, hend⟩

/-! ## RECIPE_LOAD and RECIPE_PATCH -/

theorem InTurn.exec_load (hin : InTurn s c (.ring r csn) x p) (hop : x.op = 0x18) (hrcp : rcpIn p (fieldAt x.bytes 0x10 2) = true)
    (hz1 : zeros x.bytes 0x14 0x18 = true) (hz2 : zeros x.bytes 0x20 0x40 = true) (hlo : 1 ≤ fieldAt x.bytes 0x12 2)
    (hhi : fieldAt x.bytes 0x12 2 ≤ 256) (halign : fieldAt x.bytes 0x18 8 % 64 = 0)
    (hmap : s.feMapped c (fieldAt x.bytes 0x18 8) (64 * fieldAt x.bytes 0x12 2) = true) (hok : (s.recipeSrc c x).all storedOk = true) :
    exec (.recipeLoad c (.ring r csn)) s = .next ((s.begin_ c (.ring r csn) none).endStore c (.ring r csn) (fieldAt x.bytes 0x10 2)
      ((s.begin_ c (.ring r csn) none).storeRecipe (fieldAt x.bytes 0x10 2) fun _ => s.recipeSrc c x)) := by
  refine congrArg Host.Outcome.next ((hin.dispatch (by rw [hop]; decide) (by rw [hop]; decide) (firstOf_eq_none fun y hy => ?_) _).trans rfl)
  simp only [List.mem_cons, List.not_mem_nil, or_false] at hy
  rcases hy with rfl | rfl | rfl | rfl | rfl
  · exact codeIf_false _ (by simp [hz1, hz2])
  · exact codeIf_false _ (by simp [halign]; omega)
  · exact codeIf_false _ (by simp [hrcp])
  · exact codeIf_false _ (by simp [hmap])
  · exact codeIf_false _ (by rw [hok]; rfl)

theorem InTurn.exec_patch (hin : InTurn s c (.ring r csn) x p) {o : Recipe} (hop : x.op = 0x19) (hrcp : rcpIn p (fieldAt x.bytes 0x10 2) = true)
    (hz1 : zeros x.bytes 0x13 0x14 = true) (hz2 : zeros x.bytes 0x38 0x40 = true) (hlo : 1 ≤ fieldAt x.bytes 0x12 1)
    (hhi : fieldAt x.bytes 0x12 1 ≤ 3) (hz3 : zeros x.bytes (0x14 + 12 * fieldAt x.bytes 0x12 1) 0x38 = true)
    (hold : aget s.front.recipes (fieldAt x.bytes 0x10 2) = some o)
    (hok : (List.range (fieldAt x.bytes 0x12 1)).all (patchOk (some o.cur.cmds.length) x.bytes) = true) :
    exec (.recipePatch c (.ring r csn)) s = .next ((s.begin_ c (.ring r csn) none).endStore c (.ring r csn) (fieldAt x.bytes 0x10 2)
      ((s.begin_ c (.ring r csn) none).storeRecipe (fieldAt x.bytes 0x10 2) fun cmds =>
        (List.range (fieldAt x.bytes 0x12 1)).foldl (applyPatch x.bytes) cmds)) := by
  refine congrArg Host.Outcome.next ((hin.dispatch (by rw [hop]; decide) (by rw [hop]; decide) (firstOf_eq_none fun y hy => ?_) _).trans ?_)
  · simp only [List.mem_cons, List.not_mem_nil, or_false] at hy
    rcases hy with rfl | rfl | rfl
    · exact codeIf_false _ (by simp [hz1, hz2])
    · exact codeIf_false _ (by simp [hrcp])
    · refine codeIf_false _ ?_
      rw [hold, Option.map_some, hok, hz3]
      simp
      omega
  · have hthere : (aget (s.begin_ c (.ring r csn) none).front.recipes (fieldAt x.bytes 0x10 2)).isNone = false := by
      rw [show (s.begin_ c (.ring r csn) none).front.recipes = s.front.recipes from rfl, hold]
      rfl
    dsimp only
    rw [hthere]
    rfl

/-! ## RECIPE_LAUNCH (R403) -/

/-- Seed and step of OVERRIDE, when the launch has them. -/
def launchOverride (x : RCmd) : Option (Nat × Nat) :=
  if bitOf (fieldAt x.bytes 0x12 1) 0 then some (fieldAt x.bytes 0x18 8, fieldAt x.bytes 0x20 6) else none

/-- The launch of a recipe's current buffer by a command of a ring. -/
def ringLaunch (c r key id : Nat) (o : Recipe) (ov : Option (Nat × Nat)) : Launch :=
  { tenant := c, ring := some r, key := key, recipe := id, buf := o.curB.toNat, version := o.cur.version,
    cmds := o.cur.cmds.mapIdx fun i b => RCmd.new i (overrideCmd ov b), next := 0, stopped := false }

/-- A ring's launch stands in the front end, holding the buffer. -/
def State.launches (s : State) (id : Nat) (o : Recipe) (l : Launch) : State :=
  ({ s with front := { s.front with
      recipes := aput s.front.recipes id (o.put o.curB { o.cur with holds := o.cur.holds + 1 }),
      launches := s.front.launches ++ [l] } } : State).addQuad (0xA02038 + 0x100 * l.tenant) 1

/-- What a launch's command does once it has begun: it ends when the recipe was never loaded, or the launch stands and is logged. -/
def State.takeLaunch (s : State) (c r csn : Nat) (x : RCmd) : State :=
  match s.snapshot c (some r) x.csn (fieldAt x.bytes 0x10 2) (launchOverride x) with
  | none => (s.updCmd c (.ring r csn) fun y => { y with status := 4, detail := 0 }).endWork c (.ring r csn)
  | some (u, v, dig) =>
    let seed := (launchOverride x).getD (u.free.1 % 2 ^ 64, u.free.2.free.1 % 2 ^ 48)
    (u.free.2.free.2.updCmd c (.ring r csn) fun y => { y with detail := v }).logToken c 1 0x1A (fieldAt x.bytes 0x10 2) x.csn seed.1 seed.2 v dig

theorem InTurn.exec_launch (hin : InTurn s c (.ring r csn) x p) (hop : x.op = 0x1A) (hrcp : rcpIn p (fieldAt x.bytes 0x10 2) = true)
    (hz1 : zeros x.bytes 0x13 0x18 = true) (hz2 : zeros x.bytes 0x26 0x40 = true) (hov : fieldAt x.bytes 0x12 1 < 2) :
    exec (.recipeLaunch c (.ring r csn)) s = .next ((s.begin_ c (.ring r csn) none).takeLaunch c r csn x) := by
  refine congrArg Host.Outcome.next ((hin.dispatch (by rw [hop]; decide) (by rw [hop]; decide) (firstOf_eq_none fun y hy => ?_) _).trans ?_)
  · simp only [List.mem_cons, List.not_mem_nil, or_false] at hy
    rcases hy with rfl | rfl
    · exact codeIf_false _ (by simp [hz1, hz2, hov])
    · exact codeIf_false _ (by simp [hrcp])
  · unfold State.takeLaunch launchOverride
    dsimp only [CmdRef.info, Option.map_some, Option.getD_some]
    generalize State.snapshot _ _ _ _ _ _ = z
    rcases z with _ | ⟨u, v, dig⟩ <;> rfl

theorem State.takeLaunch_none (hold : aget s.front.recipes (fieldAt x.bytes 0x10 2) = none) :
    s.takeLaunch c r csn x = (s.updCmd c (.ring r csn) fun y => { y with status := 4, detail := 0 }).endWork c (.ring r csn) := by
  have hsnap : s.snapshot c (some r) x.csn (fieldAt x.bytes 0x10 2) (launchOverride x) = none := by
    rw [State.snapshot, hold]
    rfl
  rw [State.takeLaunch, hsnap]

theorem State.takeLaunch_some {o : Recipe} (hold : aget s.front.recipes (fieldAt x.bytes 0x10 2) = some o) :
    ∃ u : State, ∃ seed step : Nat, u.front = (s.launches (fieldAt x.bytes 0x10 2) o
        (ringLaunch c r x.csn (fieldAt x.bytes 0x10 2) o (launchOverride x))).front ∧
      s.takeLaunch c r csn x = (u.updCmd c (.ring r csn) fun y => { y with detail := o.cur.version }).logToken c 1 0x1A
        (fieldAt x.bytes 0x10 2) x.csn seed step o.cur.version (recipeDigest o.cur.cmds) := by
  have hsnap : s.snapshot c (some r) x.csn (fieldAt x.bytes 0x10 2) (launchOverride x) =
      some (s.launches (fieldAt x.bytes 0x10 2) o (ringLaunch c r x.csn (fieldAt x.bytes 0x10 2) o (launchOverride x)), o.cur.version,
        recipeDigest o.cur.cmds) := by
    rw [State.snapshot, hold]
    rfl
  rw [State.takeLaunch, hsnap]
  generalize s.launches _ _ _ = v
  exact ⟨v.free.2.free.2, _, _, rfl, rfl⟩

theorem Launch.is_ringLaunch (key : Nat) (o : Recipe) (ov : Option (Nat × Nat)) : (ringLaunch c r key id o ov).is c (some r) key = true := by
  simp [Launch.is, ringLaunch]

theorem ringLaunch_bytes (key : Nat) (o : Recipe) : (ringLaunch c r key id o none).cmds.map (·.bytes) = o.cur.cmds := by
  simp only [ringLaunch, List.mapIdx_eq_zipIdx_map, List.map_map]
  exact List.zipIdx_map_fst 0 _

theorem InTurn.completes_launch (hin : InTurn s c (.ring r csn) x p) (hop : x.op = 0x1A) (hrcp : rcpIn p (fieldAt x.bytes 0x10 2) = true)
    (hz1 : zeros x.bytes 0x13 0x18 = true) (hz2 : zeros x.bytes 0x26 0x40 = true) (hov : fieldAt x.bytes 0x12 1 < 2) {o : Recipe}
    (hold : aget s.front.recipes (fieldAt x.bytes 0x10 2) = some o) (hnew : s.launch c (some r) x.csn = none) :
    Completes (.recipeLaunch c (.ring r csn)) s fun t =>
      t.launch c (some r) x.csn = some (ringLaunch c r x.csn (fieldAt x.bytes 0x10 2) o (launchOverride x)) ∧
      ((aget t.front.recipes (fieldAt x.bytes 0x10 2)).map fun q => (q.cur.holds, q.cur.version, q.cur.cmds)) =
        some (o.cur.holds + 1, o.cur.version, o.cur.cmds) ∧
      ((t.cmd c (.ring r csn)).map fun y => (y.st, y.detail)) = some (CmdSt.running, o.cur.version) := by
  obtain ⟨-, hcmd⟩ := hin.begun none
  obtain ⟨u, seed, step, hu, htake⟩ := State.takeLaunch_some (s := s.begin_ c (.ring r csn) none) (c := c) (r := r) (csn := csn) hold
  refine ⟨_, hin.exec_launch hop hrcp hz1 hz2 hov, ?_⟩
  rw [htake]
  have hlog := State.logToken_keepsWork (s := u.updCmd c (.ring r csn) fun y => { y with detail := o.cur.version }) (c := c) 1 0x1A
    (fieldAt x.bytes 0x10 2) x.csn seed step o.cur.version (recipeDigest o.cur.cmds)
  have hlaunches : (u.updCmd c (.ring r csn) fun y => { y with detail := o.cur.version }).front.launches = u.front.launches := rfl
  have hrecipes : (u.updCmd c (.ring r csn) fun y => { y with detail := o.cur.version }).front.recipes = u.front.recipes := rfl
  refine ⟨?_, ?_, ?_⟩
  · have hfind : (s.front.launches ++ [ringLaunch c r x.csn (fieldAt x.bytes 0x10 2) o (launchOverride x)]).find? (·.is c (some r) x.csn) =
        some (ringLaunch c r x.csn (fieldAt x.bytes 0x10 2) o (launchOverride x)) := by
      rw [List.find?_append, show s.front.launches.find? (·.is c (some r) x.csn) = none from hnew, Option.none_or,
        List.find?_singleton, if_pos (Launch.is_ringLaunch _ _ _)]
    rw [State.launch, hlog.front, hlaunches, hu]
    exact hfind
  · rw [hlog.front, hrecipes, hu]
    change Option.map _ (aget (aput s.front.recipes (fieldAt x.bytes 0x10 2) (o.put o.curB { o.cur with holds := o.cur.holds + 1 })) _) = _
    rw [aget_aput_same, Option.map_some, Recipe.put_cur]
  · have hucmd : u.cmd c (.ring r csn) = some (x.started s.beat none) := (State.cmd_congr hu).trans hcmd
    rw [State.cmd_congr hlog.front, State.cmd_updCmd_same (f := fun y => { y with detail := o.cur.version }) (fun _ => rfl) hucmd]
    rfl

end

/-- Settles O50: a store of a recipe finds a free buffer or ends RECIPE_BUSY, and a launch takes the current buffer as it stands. -/
theorem recipesLoadPatchAndLaunch : Obligations.RecipesLoadPatchAndLaunch := by
  intro s c r csn x p hin
  dsimp only
  obtain ⟨-, hbegun⟩ := hin.begun none
  refine ⟨fun hop hrcp hz1 hz2 hlo hhi halign hmap hok => ⟨fun hroom => ?_, fun hroom => ?_⟩,
    fun o hop hrcp hz1 hz2 hlo hhi hz3 hold hok hroom => ?_, fun hop hrcp hz1 hz2 hov => ⟨fun o hold hnew => ?_, fun hold => ?_⟩⟩
  · obtain ⟨⟨hcur, hothers⟩, hend⟩ := hin.endStore_spec _ hroom rfl
    exact ⟨_, hin.exec_load hop hrcp hz1 hz2 hlo hhi halign hmap hok, hcur, hothers, hend⟩
  · have hexec := hin.exec_load hop hrcp hz1 hz2 hlo hhi halign hmap hok
    rw [State.storeRecipe_busy (s := s.begin_ c (.ring r csn) none) _ hroom] at hexec
    obtain ⟨hrecipes, -, hcmd⟩ := State.endsWith_ring (status := 3) hbegun (by decide) rfl
    exact ⟨_, hexec, hrecipes, hcmd⟩
  · obtain ⟨⟨hcur, hothers⟩, hend⟩ := hin.endStore_spec (fun cmds => (List.range (fieldAt x.bytes 0x12 1)).foldl (applyPatch x.bytes) cmds) hroom rfl
    rw [hold] at hcur ⊢
    exact ⟨_, hin.exec_patch hop hrcp hz1 hz2 hlo hhi hz3 hold hok, hcur, hothers, hend⟩
  · obtain ⟨t, hexec, hlaunch, hrecipe, hcmd⟩ := hin.completes_launch hop hrcp hz1 hz2 hov hold hnew
    refine ⟨t, hexec, ⟨_, hlaunch, rfl, rfl, rfl, rfl, List.length_mapIdx, fun hno => ?_⟩, hrecipe, hcmd⟩
    have hov0 : launchOverride x = none := by
      rw [launchOverride, hno]
      rfl
    rw [hov0]
    exact ringLaunch_bytes _ _
  · obtain ⟨hrecipes, hlaunches, hcmd⟩ := State.endsWith_ring (status := 4) (detail := 0) hbegun (by decide) rfl
    rw [← State.takeLaunch_none (s := s.begin_ c (.ring r csn) none) (c := c) (r := r) (csn := csn) (x := x) hold] at hrecipes hlaunches hcmd
    exact ⟨_, hin.exec_launch hop hrcp hz1 hz2 hov, hlaunches, hrecipes, hcmd⟩

end Sys2Proof.Machine
end

section
/-!
PROOFS. An epoch boundary with a poisoned plan while the trace buffer is on: O51.
-/

namespace Sys2Proof.Machine

section
variable {s t u : State} {c code : Nat}

/-! ## An event that the trace buffer takes is written to HBM (R538, R542, R543) -/

/-- Where the trace buffer takes the next event. -/
def State.tracePlace (s : State) (g : Nat) : Nat := g * 0x800000000 + 32 * (s.quad 0xA00010 % 2 ^ 23)

theorem State.traceBuf_hbm {g : Nat} (e : List Byte) (hg : s.traceGroup = some g) (hroom : s.flag 0xA0000C 0 = false) :
    (s.traceBuf e).hbm = writeBytes s.hbm (s.tracePlace g) e := by
  unfold State.traceBuf
  rw [hg]
  dsimp only
  rw [hroom, if_neg (by decide)]
  split <;> rfl

theorem State.putEvent_hbm {g : Nat} (e : List Byte) (hon : bitOf s.vit.ctl 0 = true) (hg : s.traceGroup = some g)
    (hroom : s.flag 0xA0000C 0 = false) : (s.putEvent e).hbm = writeBytes s.hbm (s.tracePlace g) e := by
  have hbuf := State.traceBuf_hbm e hg hroom
  unfold State.putEvent
  rw [hon, if_pos rfl]
  generalize s.traceBuf e = v at hbuf
  dsimp only
  split
  · split
    · exact hbuf
    · exact hbuf
  · exact hbuf

/-- The byte that holds the kind of an event. -/
theorem getElem_eventBytes_kind (time kind : Nat) (masked : Bool) (ten tile : Option Nat) (n : Nat) (data : List Byte)
    (h : 8 < (eventBytes time kind masked ten tile n data).length) :
    (eventBytes time kind masked ten tile n data)[8] = BitVec.ofNat 8 kind := by
  have hopt : (eventBytes time kind masked ten tile n data)[8]? = some (BitVec.ofNat 8 kind) := by
    simp only [eventBytes, List.append_assoc]
    rw [List.getElem?_append_right (by simp), List.getElem?_append_left (by simp)]
    simp only [length_leBytes]
    rw [getElem?_leBytes kind (by decide)]
    simp
  exact Option.some.inj ((List.getElem?_eq_getElem h).symm.trans hopt)

/-- An admitted event stands in the trace buffer, whatever its time is. -/
theorem State.event_hbm_kind {kind g : Nat} {ten : Option Nat} (tile : Option Nat) (n : Nat) (data : List Byte) (hide : Nat × Nat)
    (hwant : s.wantsEvent kind ten = true) (hcount : s.vit.count < 50) (hdrop : s.vit.dropped = 0) (hon : bitOf s.vit.ctl 0 = true)
    (hg : s.traceGroup = some g) (hroom : s.flag 0xA0000C 0 = false) (hwf : nwf s.hbm = true) :
    nget (s.event kind ten tile n data hide).hbm (s.tracePlace g + 8) = BitVec.ofNat 8 kind := by
  unfold State.event
  rw [hwant, if_neg (by decide)]
  obtain ⟨time, s1, he, h1⟩ : ∃ time s1, s.free = (time, s1) ∧ s1 = { s with freeCtr := s.freeCtr + 1 } := ⟨_, _, rfl, rfl⟩
  rw [he]
  clear he
  dsimp -zeta -zetaHave only
  extract_lets +onlyGivenNames src s2
  have h2 : s2 = { s with freeCtr := s.freeCtr + 1, vit := s2.vit } ∧ s2.vit.count < 50 ∧ s2.vit.dropped = 0 ∧
      bitOf s2.vit.ctl 0 = true := by
    subst s2
    split
    · subst h1
      exact ⟨rfl, hcount, hdrop, hon⟩
    · have hzero : 0 < 50 := by decide
      subst h1
      exact ⟨rfl, hzero, hdrop, hon⟩
  clear_value s2
  obtain ⟨hs2, hcount2, hdrop2, hon2⟩ := h2
  rw [if_neg (by omega)]
  extract_lets +onlyGivenNames masked data' lost src2 s3 s4
  have hlost : lost = 0 := hdrop2
  have h4 : s4 = s3 := by
    subst s4
    rw [hlost]
    rfl
  have h3 : s3.hbm = s.hbm ∧ s3.traceGroup = s.traceGroup ∧ s3.flag 0xA0000C 0 = s.flag 0xA0000C 0 ∧ s3.tracePlace g = s.tracePlace g := by
    subst s3
    rw [hs2]
    exact ⟨rfl, rfl, rfl, rfl⟩
  have hon3 : bitOf s3.vit.ctl 0 = true := hon2
  obtain ⟨hhbm, hgroup, hflag, hplace⟩ := h3
  rw [h4]
  clear_value s3 data'
  have hlen : 8 < (eventBytes time kind masked ten tile n data').length := by
    simp only [eventBytes, List.length_append, length_leBytes]
    omega
  rw [State.putEvent_hbm _ hon3 (hgroup.trans hg) (hflag.trans hroom), hhbm, hplace, nget_writeBytes_inside _ hwf hlen]
  exact getElem_eventBytes_kind _ _ _ _ _ _ _ _

/-! ## A fault's event -/

/-- A tenant's record with a fault entered in it, before the fault is traced. -/
def State.recorded (s : State) (t code : Nat) (i : Info) : State :=
  let e := entryBytes code s.tickNo i
  let empty := s.fld (tnt t 0x100) 0 8 == 0
  let s := if empty then ((s.setBytes (tnt t 0x120) e).setFld (tnt t 0x100) 0 8 code) else s.bump (tnt t 0x104) 1
  let s := (s.setBytes (tnt t 0x140) e).setFld (tnt t 0x100) 8 8 code
  let s := s.setFld (tnt t 0x100) 16 3 (max (s.fld (tnt t 0x100) 16 3) (faultClass code).1.code)
  let s := if noUnfreeze code then s.setFlag (tnt t 0x100) 19 true else s
  s.tntEvent t 2

theorem State.tenantEntry_eq (i : Info) : s.tenantEntry c code i = (s.recorded c code i).faultTrace (some c) code i := rfl

theorem State.freeze_hbm (peer : Bool) : (s.freeze c peer).hbm = s.hbm := by
  unfold State.freeze
  extract_lets s0 s1 s2 recov s3 s4
  have h2 : s2.hbm = s.hbm := foldl_inv (Q := fun u : State => u.hbm = s.hbm)
    (fun u _ hu => ite_of_both (Q := fun v : State => v.hbm = s.hbm) hu hu) rfl
  have h4 : s4.hbm = s.hbm := ((State.modEvent_hbm _ _).trans (State.tntEvent_hbm _ _ _)).trans h2
  have h5 : (s4.sendTwin 0 (.freeze c 0xF2)).hbm = s4.hbm := by
    have hlink := s4.sendTwin_linkOnly 0 (.freeze c 0xF2)
    rw [LinkOnly] at hlink
    rw [hlink]
  exact ite_of_both (Q := fun v : State => v.hbm = s.hbm) rfl (ite_of_both (Q := fun v : State => v.hbm = s.hbm) (h5.trans h4) h4)

/-- LOAD_FAULT of a tenant (code 6) enters its record alone, and its freeze writes no byte of HBM. -/
theorem State.raise_loadFault_hbm (i : Info) : (s.raise c 6 i).hbm = ((s.recorded c 6 i).faultTrace (some c) 6 i).hbm :=
  (State.freeze_hbm _).trans (congrArg State.hbm (State.tenantEntry_eq i))

/-! ## The epoch boundary -/

/-- The epoch's state once the tables of every plan are read again. -/
def State.turned (s : State) (t : Nat) : State :=
  let half := s.fld (tnt t 0x340) 16 1
  let s := s.setFld (tnt t 0x340) 17 1 half
  let bad (x : PlanSt) : Bool := s.planBad t x.addr half (fieldAt (s.planHead t x.addr) 0 2)
  let s : State := { s with front := { s.front with
    epochs := vupd s.front.epochs t fun _ => 0,
    plans := s.front.plans.map fun x =>
      if x.tenant == t then
        let res := if bad x then [] else s.planRes t x.addr half
        let done := x.done.filter res.contains
        { x with done := done, loading := res.filter fun y => !done.contains y }
      else x } }
  s.planLoading t

/-- The plans that the boundary loses. -/
def State.lostPlans (s : State) (t : Nat) : List PlanSt :=
  let half := s.fld (tnt t 0x340) 16 1
  let s := s.setFld (tnt t 0x340) 17 1 half
  s.front.plans.filter fun x => x.tenant == t && s.planBad t x.addr half (fieldAt (s.planHead t x.addr) 0 2)

theorem State.epoch_eq : s.epoch c = (s.lostPlans c).foldl (fun s x => s.raise c 6 { addr := x.addr }) (s.turned c) := rfl

end

/-! ## The counterexample -/

/-- A catalogue with one tenant and the trace buffer in channel group 5. -/
def poisonPlanCat : Cat := { saveErrorCat with traceGroup := 5 }

/-- A plan of tenant 0 at its address 0. -/
def poisonPlan : PlanSt := { tenant := 0, layer := 0, addr := 0, done := [], loading := [] }

/-- The first bytes of the plan are poisoned, and Vitrine buffers faults of tenant 0. -/
def poisonPlanState : State :=
  { State.reset with
    boot := { Boot.reset with state := .serving, cat := some poisonPlanCat },
    hbmBad := [0],
    front := { Front.reset with plans := [poisonPlan] },
    vit := { Vitrine.reset with ctl := 1, kinds := 0x40, tenants := 1 } }

theorem poisonPlanState_tidy : poisonPlanState.tidy = true := by decide +kernel

theorem poisonPlanState_part : (poisonPlanState.part 0).isSome = true := by decide +kernel

theorem poisonPlanState_lost : poisonPlanState.lostPlans 0 = [poisonPlan] := by decide +kernel

/-- What the module is when the fault is traced. -/
def poisonPlanEntered : State := (poisonPlanState.turned 0).recorded 0 6 { addr := 0 }

theorem poisonPlanState_epoch_hbm : (poisonPlanState.epoch 0).hbm = (poisonPlanEntered.faultTrace (some 0) 6 { addr := 0 }).hbm := by
  rw [State.epoch_eq, poisonPlanState_lost]
  exact State.raise_loadFault_hbm _

/-- The fault's event stands at the start of the trace group. -/
theorem poisonPlanState_traced : nget (poisonPlanState.epoch 0).hbm (poisonPlanEntered.tracePlace 5 + 8) = 7 := by
  have hwant : poisonPlanEntered.wantsEvent 0x07 (some 0) = true := by decide +kernel
  have hcount : poisonPlanEntered.vit.count < 50 := by decide +kernel
  have hdrop : poisonPlanEntered.vit.dropped = 0 := by decide +kernel
  have hon : bitOf poisonPlanEntered.vit.ctl 0 = true := by decide +kernel
  have hgroup : poisonPlanEntered.traceGroup = some 5 := by decide +kernel
  have hroom : poisonPlanEntered.flag 0xA0000C 0 = false := by decide +kernel
  have hwf : nwf poisonPlanEntered.hbm = true := by decide +kernel
  rw [poisonPlanState_epoch_hbm]
  exact State.event_hbm_kind _ _ _ _ hwant hcount hdrop hon hgroup hroom hwf

/-- Refutes O51: an epoch boundary may read a plan whose bytes are poisoned; the LOAD_FAULT that it raises is an event, and with the
trace buffer on the event's bytes are written to the trace group, so HBM does not stay as it was. -/
theorem not_expertDispatchAndPlans : ¬ Obligations.ExpertDispatchAndPlans := by
  intro h
  obtain ⟨-, -, hepoch, -⟩ := h poisonPlanState 0 poisonPlanState_tidy (by decide)
  obtain ⟨t, ht, -, -, -, hhbm⟩ := hepoch poisonPlanState_part
  have hexec : exec (.epochBoundary 0) poisonPlanState = .next (poisonPlanState.epoch 0) := by
    have hnone : ¬ (16 ≤ 0 ∨ (poisonPlanState.part 0).isNone = true) := by decide +kernel
    change execEpochBoundary 0 poisonPlanState = _
    rw [execEpochBoundary, if_neg hnone]
  obtain rfl : poisonPlanState.epoch 0 = t := Host.Outcome.next.inj (hexec.symm.trans ht)
  have htraced := poisonPlanState_traced
  rw [hhbm] at htraced
  exact absurd htraced (by decide)

end Sys2Proof.Machine
end

section
/-!
PROOFS. How a ROUTE's rows are cut into work items and queued (R450, R451): O60.
-/

namespace Sys2Proof.Machine

/-! ## The pieces of an expert's rows -/

/-- The rows `[a, b)` of a list, picked one by one. -/
theorem take_drop_eq_filterMap {α : Type} (l : List α) (a b : Nat) :
    (l.drop a).take (b - a) = (List.range l.length).filterMap fun k => if a ≤ k ∧ k < b then l[k]? else none := by
  induction l generalizing a b with
  | nil => simp
  | cons x xs ih =>
    rw [List.length_cons, List.range_succ_eq_map, List.filterMap_cons, List.filterMap_map]
    have hshift (a' b' : Nat) : (List.range xs.length).filterMap ((fun k => if a' ≤ k ∧ k < b' then (x :: xs)[k]? else none) ∘ Nat.succ) =
        (xs.drop (a' - 1)).take (b' - 1 - (a' - 1)) := by
      rw [ih]
      refine congrArg (fun f => List.filterMap f (List.range xs.length)) (funext fun k => ?_)
      by_cases hk : a' ≤ k + 1 ∧ k + 1 < b'
      · rw [if_pos (show a' - 1 ≤ k ∧ k < b' - 1 by omega)]
        simp [hk]
      · rw [if_neg (show ¬(a' - 1 ≤ k ∧ k < b' - 1) by omega)]
        simp [hk]
    rw [hshift]
    cases a with
    | zero =>
      cases b with
      | zero => simp
      | succ b => simp
    | succ a =>
      rw [if_neg (by omega)]
      simp only [List.drop_succ_cons, Nat.add_sub_cancel]
      rw [show b - (a + 1) = b - 1 - a by omega]

/-- The slots of an expert, in increasing order. -/
def rowsOf (ex : List Nat) (e : Nat) : List Nat := (List.range ex.length).filter fun i => ex[i]? == some e

theorem zipIdx_filter_eq_rowsOf (ex : List Nat) (e : Nat) : (ex.zipIdx.filter fun y => y.1 == e).map (·.2) = rowsOf ex e := by
  induction ex using List.reverseRecOn with
  | nil => rfl
  | append_singleton xs x ih =>
    have hold : (List.range xs.length).filter (fun i => (xs ++ [x])[i]? == some e) = rowsOf xs e :=
      List.filter_congr fun i hi => by rw [List.getElem?_append_left (List.mem_range.mp hi)]
    have hnew : rowsOf (xs ++ [x]) e = rowsOf xs e ++ [xs.length].filter fun i => (xs ++ [x])[i]? == some e := by
      rw [← hold, rowsOf, List.length_append, List.length_singleton, List.range_succ, List.filter_append]
    rw [List.zipIdx_append, List.filter_append, List.map_append, ih, hnew]
    by_cases hx : x = e
    · simp [hx]
    · simp [hx]

/-- Piece `i` of the `q` even pieces of an expert's rows (R451). -/
def piece (rows : List Nat) (q i : Nat) : List Nat :=
  (List.range rows.length).filterMap fun k => if i * rows.length / q ≤ k ∧ k < (i + 1) * rows.length / q then rows[k]? else none

theorem cutItems_eq (split : Nat) (rows : List Nat) :
    cutItems split rows = (List.range ((rows.length + split - 1) / split)).map (piece rows ((rows.length + split - 1) / split)) :=
  List.map_congr_left fun _ _ => take_drop_eq_filterMap _ _ _

/-! ## The order of the experts -/

/-- More rows first, ties to the lower number (R451). -/
def sooner (a b : Nat × List Nat) : Bool := decide (b.2.length < a.2.length ∨ (b.2.length = a.2.length ∧ a.1 ≤ b.1))

/-- The experts that have rows, with their rows, in queue order. -/
def expertsInOrder (experts : Nat) (ex : List Nat) : List (Nat × List Nat) :=
  (((List.range experts).map fun e => (e, rowsOf ex e)).filter fun y => !y.2.isEmpty).mergeSort sooner

theorem itemList_eq (split experts : Nat) (ex : List Nat) :
    itemList split experts ex = (expertsInOrder experts ex).flatMap fun y => (cutItems split y.2).map fun sl => (y.1, sl) := by
  unfold itemList expertsInOrder
  simp only [zipIdx_filter_eq_rowsOf]
  rfl

theorem mem_expertsInOrder {experts : Nat} {ex : List Nat} {y : Nat × List Nat} :
    y ∈ expertsInOrder experts ex ↔ y.1 < experts ∧ y.2 = rowsOf ex y.1 ∧ 0 < (rowsOf ex y.1).length := by
  obtain ⟨e, r⟩ := y
  simp only [expertsInOrder, List.mem_mergeSort, List.mem_filter, List.mem_map, List.mem_range, Prod.mk.injEq, Bool.not_eq_true',
    List.isEmpty_eq_false_iff, List.length_pos_iff]
  constructor
  · rintro ⟨⟨e', he, rfl, rfl⟩, hr⟩
    exact ⟨he, rfl, hr⟩
  · rintro ⟨he, rfl, hr⟩
    exact ⟨⟨e, he, rfl, rfl⟩, hr⟩

/-- The numbers of the experts that have rows, in queue order. -/
def expertOrder (experts : Nat) (ex : List Nat) : List Nat := (expertsInOrder experts ex).map (·.1)

theorem mem_expertOrder {experts : Nat} {ex : List Nat} {e : Nat} :
    e ∈ expertOrder experts ex ↔ e < experts ∧ 0 < (rowsOf ex e).length := by
  simp only [expertOrder, List.mem_map, mem_expertsInOrder]
  constructor
  · rintro ⟨y, ⟨hlt, -, hpos⟩, rfl⟩
    exact ⟨hlt, hpos⟩
  · rintro ⟨hlt, hpos⟩
    exact ⟨(e, rowsOf ex e), ⟨hlt, rfl, hpos⟩, rfl⟩

theorem nodup_expertOrder (experts : Nat) (ex : List Nat) : (expertOrder experts ex).Nodup := by
  have hperm : (expertOrder experts ex).Perm ((((List.range experts).map fun e => (e, rowsOf ex e)).filter fun y => !y.2.isEmpty).map (·.1)) :=
    (List.mergeSort_perm _ _).map _
  have hsub : ((((List.range experts).map fun e => (e, rowsOf ex e)).filter fun y => !y.2.isEmpty).map (·.1)).Sublist (List.range experts) := by
    have hall := (List.filter_sublist (l := (List.range experts).map fun e => (e, rowsOf ex e)) (p := fun y => !y.2.isEmpty)).map Prod.fst
    rwa [List.map_map, show (Prod.fst ∘ fun e => (e, rowsOf ex e)) = id from rfl, List.map_id] at hall
  exact hperm.nodup_iff.mpr (hsub.nodup List.nodup_range)

theorem pairwise_expertOrder (experts : Nat) (ex : List Nat) :
    (expertOrder experts ex).Pairwise fun a b => (rowsOf ex b).length < (rowsOf ex a).length ∨ ((rowsOf ex a).length = (rowsOf ex b).length ∧ a < b) := by
  have hsorted : (expertsInOrder experts ex).Pairwise fun a b => sooner a b = true := by
    refine List.pairwise_mergeSort (fun a b d hab hbd => ?_) (fun a b => ?_) _
    · simp only [sooner, decide_eq_true_eq] at *
      omega
    · simp only [sooner, Bool.or_eq_true, decide_eq_true_eq]
      omega
  have hle : (expertOrder experts ex).Pairwise fun a b =>
      (rowsOf ex b).length < (rowsOf ex a).length ∨ ((rowsOf ex a).length = (rowsOf ex b).length ∧ a ≤ b) := by
    rw [expertOrder, List.pairwise_map]
    refine hsorted.imp_of_mem fun {a b} ha hb hab => ?_
    obtain ⟨-, ha2, -⟩ := mem_expertsInOrder.mp ha
    obtain ⟨-, hb2, -⟩ := mem_expertsInOrder.mp hb
    rw [sooner, decide_eq_true_eq, ha2, hb2] at hab
    omega
  refine (hle.and (nodup_expertOrder experts ex)).imp fun {a b} h => ?_
  obtain ⟨h, hne⟩ := h
  have hne : a ≠ b := hne
  omega

/-- The items, expert by expert and piece by piece. -/
theorem itemList_eq_expertOrder (split experts : Nat) (ex : List Nat) :
    itemList split experts ex = (expertOrder experts ex).flatMap fun e =>
      (List.range (((rowsOf ex e).length + split - 1) / split)).map fun i =>
        (e, piece (rowsOf ex e) (((rowsOf ex e).length + split - 1) / split) i) := by
  rw [itemList_eq, expertOrder, List.flatMap_map]
  refine List.flatMap_congr fun y hy => ?_
  obtain ⟨-, hrows, -⟩ := mem_expertsInOrder.mp hy
  rw [hrows, cutItems_eq, List.map_map]
  rfl

/-! ## What keeps the work items' rows -/

section
variable {s t u : State} {c n : Nat} {ref : CmdRef} {x : RCmd} {p : Partition}

/-- The tenant, expert and rows of a work item. -/
def Item.cut (i : Item) : Nat × Nat × List Nat := (i.tenant, i.expert, i.slots)

/-- The tenants, experts and rows of the work items, in queue order. -/
def State.cuts (s : State) : List (Nat × Nat × List Nat) := s.front.items.map Item.cut

theorem State.cuts_of_front (h : t.front = s.front) : t.cuts = s.cuts := by
  rw [State.cuts, h]
  rfl

theorem State.updItem_cuts {f : Item → Item} (hf : ∀ i, (f i).cut = i.cut) : (s.updItem n f).cuts = s.cuts := by
  simp only [State.cuts, State.updItem, List.map_map]
  refine List.map_congr_left fun i _ => ?_
  simp only [Function.comp_apply]
  split
  · exact hf i
  · rfl

theorem State.updCmd_cuts (f : RCmd → RCmd) : (s.updCmd c ref f).cuts = s.cuts := by
  cases ref with
  | ring r csn => rfl
  | stored ring key i => rfl
  | item m i => exact State.updItem_cuts fun _ => rfl

theorem State.begin_cuts (tile : Option Nat) : (s.begin_ c ref tile).cuts = s.cuts := by
  have h1 := State.updCmd_cuts (s := s) (c := c) (ref := ref) fun y => { y with st := .running, tick := s.beat, tile := tile }
  unfold State.begin_
  generalize s.updCmd c ref _ = v at h1
  dsimp only
  split
  · exact h1
  · exact (State.updItem_cuts (f := fun y => { y with next := y.next + 1 }) fun _ => rfl).trans h1
  · exact h1

theorem State.signal_front (ring : Nat) (e : List Byte) (w : Waiter) : (s.signal c ring e w).1.front = s.front := by
  unfold State.signal
  extract_lets v member pair op ctr dst
  clear_value dst
  split
  · split <;> rfl
  · cases dst with
    | none => rfl
    | some d =>
      dsimp only
      split
      · exact ite_of_both (Q := fun u : State => u.front = s.front) rfl rfl
      · split
        next hp => exact (s.sendPacket_linkOnly _ _ _ _ hp).front
        next => rfl

theorem State.sigAct_cuts (r i seq tick : Nat) (out : Bool) : (s.sigAct c r i seq tick out).cuts = s.cuts := by
  unfold State.sigAct
  split
  · exact State.cuts_of_front (State.raise_front _ _)
  · have hlog (es : List (List Byte)) : (s.pushLog c es).cuts = s.cuts :=
      ite_of_both (Q := fun u : State => u.cuts = s.cuts) ((State.cuts_of_front (State.tntEvent_front _ _ _)).trans rfl) rfl
    exact ite_of_both (Q := fun u : State => u.cuts = s.cuts) rfl
      (ite_of_both (Q := fun u : State => u.cuts = s.cuts) (hlog _) (State.cuts_of_front (State.signal_front _ _ _)))

theorem State.endLaunch_cuts (ring : Option Nat) (key : Nat) : (s.endLaunch c ring key).cuts = s.cuts := by
  have hrelease (recipe buf : Nat) : (s.releaseBuf recipe buf).cuts = s.cuts := by
    unfold State.releaseBuf
    split <;> rfl
  unfold State.endLaunch
  split
  · exact ite_of_both (Q := fun u : State => u.cuts = s.cuts) ((State.updCmd_cuts _).trans (hrelease _ _)) rfl
  · rfl

theorem State.endCmd_cuts : (s.endCmd c ref).cuts = s.cuts := by
  have hdone : (s.updCmd c ref RCmd.finish).cuts = s.cuts := State.updCmd_cuts _
  have hsig : ((s.updCmd c ref RCmd.finish).storedSig c ref).cuts = s.cuts := by
    unfold State.storedSig
    split
    · exact ite_of_both (Q := fun u : State => u.cuts = s.cuts) ((State.sigAct_cuts _ _ _ _ _).trans hdone) hdone
    · exact hdone
  unfold State.endCmd
  generalize (s.updCmd c ref RCmd.finish).storedSig c ref = v at hsig
  dsimp only
  split
  · refine (State.endLaunch_cuts _ _).trans ?_
    split
    · exact (State.updCmd_cuts _).trans hsig
    · exact hsig
  · exact hsig

theorem State.noteWork_cuts (code : Nat) : (s.noteWork c ref code).cuts = s.cuts := by
  unfold State.noteWork
  split
  · exact ite_of_both (Q := fun u : State => u.cuts = s.cuts) (State.updItem_cuts fun _ => rfl) (State.updCmd_cuts _)
  · exact State.updCmd_cuts _

/-- A row of zeros for a token whose expert is out of range. -/
theorem State.zeroed_cuts (a yb : Nat) :
    ((s.taWrite c a (List.replicate yb 0) false).cmdWrite c ref a (List.replicate yb 0) 0 0).cuts = s.cuts :=
  ite_of_both (Q := fun u : State => u.cuts = s.cuts) (State.cuts_of_front (State.taWrite_keepsWork _ _ _).front)
    (State.cuts_of_front (State.taWrite_keepsWork _ _ _).front)

theorem State.placeItem_cuts (i : Item) (r : Route) (tile : Nat) (fetch : Bool) : (s.placeItem i r tile fetch).cuts = s.cuts := by
  unfold State.placeItem
  extract_lets m seed step cmds u1 u2
  have h1 : u1.cuts = s.cuts := State.updItem_cuts fun _ => rfl
  have h2 : u2.cuts = s.cuts := h1
  clear_value u2
  exact ite_of_both (Q := fun u : State => u.cuts = s.cuts) h2 h2

theorem State.takeItem_cuts (tile : Nat) : (s.takeItem c tile).cuts = s.cuts := by
  unfold State.takeItem
  refine ite_of_both (Q := fun u : State => u.cuts = s.cuts) rfl ?_
  dsimp only
  split
  · exact State.placeItem_cuts _ _ _ _
  · split
    · exact State.placeItem_cuts _ _ _ _
    · rfl

/-! ## ROUTE -/

/-- A ROUTE of a ring is counted, and its token logged. -/
def State.routeLogged (s : State) (c : Nat) (ref : CmdRef) (b : List Byte) : State :=
  match ref with
  | .ring _ csn => (s.addQuad (0xA02038 + 0x100 * c) 1).logToken c 3 0x1B (rtTemplate b) csn (fieldAt b 0x30 8) (fieldAt b 0x38 6) 0 (cmdDigest b)
  | _ => s

theorem State.routeLogged_cuts (b : List Byte) : (s.routeLogged c ref b).cuts = s.cuts := by
  unfold State.routeLogged
  split
  · exact State.cuts_of_front ((State.logToken_keepsWork _ _ _ _ _ _ _ _).front.trans (State.addQuad_front _ _ _))
  · rfl

/-- A ROUTE's rows of zeros for experts out of range, and its fault, in a state in which it has begun. -/
def State.routeZeroed (s : State) (c : Nat) (ref : CmdRef) (b : List Byte) : State :=
  let pl := s.planHead c (rtPlan b)
  let ex := s.slotExperts c b
  let yb := fieldAt pl 0x20 4
  let bad := (ex.zipIdx.filter fun (e, _) => decide (rtExperts b ≤ e)).map (·.2)
  let u := bad.foldl (fun s i =>
    let a := fieldAt pl 0x18 8 + i * yb
    (s.taWrite c a (List.replicate yb 0) false).cmdWrite c ref a (List.replicate yb 0) 0 0) s
  if bad.isEmpty then u else (u.raiseCmd c ref 0xE1 {}).noteWork c ref 0xE1

theorem State.routeZeroed_cuts (b : List Byte) : (s.routeZeroed c ref b).cuts = s.cuts := by
  unfold State.routeZeroed
  extract_lets pl ex yb bad u
  have hu : u.cuts = s.cuts := foldl_inv (Q := fun v : State => v.cuts = s.cuts) (fun v i hv => (State.zeroed_cuts _ _).trans hv) rfl
  clear_value u
  exact ite_of_both (Q := fun v : State => v.cuts = s.cuts) hu ((State.noteWork_cuts _).trans ((State.cuts_of_front (State.raise_front _ _)).trans hu))

/-- The work items of a ROUTE, numbered from `n`. -/
def routeItems (c : Nat) (ref : CmdRef) (n : Nat) (cuts : List (Nat × List Nat)) : List Item :=
  cuts.mapIdx fun i (e, slots) =>
    { n := n + i, tenant := c, ref := ref, expert := e, slots := slots, tile := none, fetch := false, phase := 0,
      weights := false, cmds := [], next := 0 }

theorem routeItems_cuts (n : Nat) (l : List (Nat × List Nat)) : (routeItems c ref n l).map Item.cut = l.map fun y => (c, y) := by
  rw [routeItems, List.mapIdx_eq_zipIdx_map, List.map_map]
  conv_rhs => rw [← List.zipIdx_map_fst 0 l, List.map_map]
  rfl

/-- A ROUTE queues its items, and the free tiles take some; without items it ends. -/
def State.routeQueued (s : State) (c : Nat) (ref : CmdRef) (b pl : List Byte) (ex : List Nat) : State :=
  let per := ((List.range (rtExperts b)).map fun e => ex.count e).filter (· ≠ 0)
  let items := routeItems c ref s.front.nextItem (itemList (fieldAt pl 2 2) (rtExperts b) ex)
  let r : Route := { tenant := c, ref := ref, bytes := b, plan := pl, half := s.planHalf c, open_ := items.map (·.n), counts := (items.length, per.length, per.foldl max 0) }
  let plans := if s.front.plans.any fun y => y.tenant == c && y.layer == rtLayer b && y.addr == rtPlan b then s.front.plans
    else (s.front.plans.filter fun y => !(y.tenant == c && y.layer == rtLayer b)) ++
      [{ tenant := c, layer := rtLayer b, addr := rtPlan b, done := [], loading := [] }]
  let u : State := { s with front := { s.front with
    items := s.front.items ++ items, nextItem := s.front.nextItem + items.length, plans := plans,
    routes := if items.isEmpty then s.front.routes else s.front.routes ++ [r] } }
  if items.isEmpty then (u.routeLogged c ref b).routeDone c ref 0 0 0
  else (List.range 128).foldl (fun s n => s.takeItem c n) (u.routeLogged c ref b)

theorem State.routeQueued_cuts (b pl : List Byte) (ex : List Nat) : (s.routeQueued c ref b pl ex).cuts =
    s.cuts ++ (itemList (fieldAt pl 2 2) (rtExperts b) ex).map fun y => (c, y) := by
  unfold State.routeQueued
  extract_lets per items r plans front u
  have hu : u.cuts = s.cuts ++ items.map Item.cut := List.map_append
  have hlog : (u.routeLogged c ref b).cuts = u.cuts := State.routeLogged_cuts b
  rw [← routeItems_cuts (c := c) (ref := ref) s.front.nextItem, ← hu, ← hlog]
  generalize u.routeLogged c ref b = v
  split
  · exact State.endCmd_cuts.trans (State.cuts_of_front (State.event_front _ _ _ _ _ _ _))
  · exact foldl_inv (Q := fun w : State => w.cuts = v.cuts) (fun w n hw => (State.takeItem_cuts n).trans hw) rfl

/-- What a ROUTE in turn does. -/
def State.routed (s : State) (c : Nat) (ref : CmdRef) (b : List Byte) : State :=
  let u := s.begin_ c ref none
  (u.routeZeroed c ref b).routeQueued c ref b (u.planHead c (rtPlan b)) (u.slotExperts c b)

theorem RouteRuns.exec (h : RouteRuns s c ref x p) : exec (.route c ref) s = .next (s.routed c ref x.bytes) := by
  obtain ⟨hin, hop, hz1, hz2, hspm, hlayer, hk1, hk2, htok1, htok2, hexp1, hexp2, htpl, hidx, halign, hplan, hbad, hok⟩ := h
  refine congrArg Host.Outcome.next ((hin.dispatch (by rw [hop]; decide) (by rw [hop]; decide) (firstOf_eq_none fun y hy => ?_) _).trans ?_)
  · simp only [List.mem_cons, List.not_mem_nil, or_false] at hy
    rcases hy with rfl | rfl | rfl | rfl | rfl | rfl | rfl | rfl
    · exact codeIf_false _ (by simp [hz1, hz2, hspm])
    · exact codeIf_false _ (by simp; omega)
    · exact codeIf_false _ (by simp [htpl])
    · refine codeIf_false _ ?_
      cases hsp : rtSpm x.bytes
      · rfl
      · rw [hsp, if_pos rfl] at hidx
        rw [hidx]
        rfl
    · refine codeIf_false _ ?_
      cases hsp : rtSpm x.bytes
      · rw [hsp, if_neg (by decide)] at hidx
        rw [hidx]
        rfl
      · rfl
    · exact codeIf_false _ (by simp [halign, hplan])
    · rw [hbad]
      rfl
    · exact codeIf_false _ (by rw [hok]; rfl)
  · exact (apply_ite (fun o : Option State => o.getD s) _ _ _).trans rfl

theorem RouteRuns.completes (h : RouteRuns s c ref x p) : Completes (.route c ref) s fun t =>
    t.cuts = s.cuts ++ (itemList (fieldAt (s.planHead c (rtPlan x.bytes)) 2 2) (rtExperts x.bytes) (s.slotExperts c x.bytes)).map
      fun y => (c, y) := by
  refine ⟨_, h.exec, ?_⟩
  obtain ⟨hin, -⟩ := h
  obtain ⟨⟨f, hf⟩, -⟩ := hin.begun none
  have hpl : (s.begin_ c ref none).planHead c (rtPlan x.bytes) = s.planHead c (rtPlan x.bytes) := by rw [hf]; rfl
  have hex : (s.begin_ c ref none).slotExperts c x.bytes = s.slotExperts c x.bytes := by rw [hf]; rfl
  rw [State.routed, State.routeQueued_cuts, State.routeZeroed_cuts, State.begin_cuts, hpl, hex]

end

/-- Settles O60: the experts in queue order, and for each the even pieces of its rows. -/
theorem workItemsAreCutAndQueued : Obligations.WorkItemsAreCutAndQueued := by
  intro s c ref x p h
  dsimp only
  refine ⟨expertOrder (rtExperts x.bytes) (s.slotExperts c x.bytes), pairwise_expertOrder _ _, fun e => mem_expertOrder, ?_⟩
  obtain ⟨t, ht, hcuts⟩ := h.completes
  refine ⟨t, ht, ?_⟩
  rw [itemList_eq_expertOrder, List.map_flatMap] at hcuts
  refine hcuts.trans (congrArg _ (congrArg (fun g => List.flatMap g _) (funext fun e => ?_)))
  rw [List.map_map]
  rfl

end Sys2Proof.Machine
end

section
/-!
PROOFS. The Ladle: settings, lists, credits, returns and the end of a batch's launch (R397, R445 to R447, R458): O55.
-/

namespace Sys2Proof.Machine

section
variable {s t u : State} {c n q : Nat} {ref : CmdRef} {p : Partition}

/-! ## The Ladle's own state -/

@[simp] theorem State.ladle_updLadle_same (f : Ladle → Ladle) (hc : c < 16) : (s.updLadle c f).ladle c = f (s.ladle c) := by
  simp only [State.ladle, State.updLadle, dif_pos hc, vupd_get_same _ hc]

theorem State.ladle_congr (h : t.ladles = s.ladles) : t.ladle c = s.ladle c := by
  simp only [State.ladle, h]

theorem State.sendPair_linkOnly (pair vc : Nat) (m : Ctl) : LinkOnly s (s.sendPair c pair vc m) := by
  unfold State.sendPair
  extract_lets member
  split
  · exact .refl s
  · extract_lets x
    cases hx : s.sendPacket x (member == 2) .free false with
    | none => exact .refl s
    | some v => exact s.sendPacket_linkOnly _ _ _ _ hx

theorem LinkOnly.ladles (h : LinkOnly s t) : t.ladles = s.ladles := by
  rw [LinkOnly] at h
  rw [h]

theorem State.freeze_ladles (peer : Bool) : (s.freeze c peer).ladles = s.ladles := by
  unfold State.freeze
  extract_lets s0 s1 s2 recov s3 s4
  have h2 : s2.ladles = s.ladles := foldl_inv (Q := fun u : State => u.ladles = s.ladles)
    (fun u _ hu => ite_of_both (Q := fun v : State => v.ladles = s.ladles) hu hu) rfl
  have h4 : s4.ladles = s.ladles := ((State.modEvent_ladles _ _).trans (State.tntEvent_ladles _ _ _)).trans h2
  have h5 : (s4.sendTwin 0 (.freeze c 0xF2)).ladles = s4.ladles := (s4.sendTwin_linkOnly _ _).ladles
  exact ite_of_both (Q := fun v : State => v.ladles = s.ladles) rfl (ite_of_both (Q := fun v : State => v.ladles = s.ladles) (h5.trans h4) h4)

theorem State.raise_ladles (code : Nat) (i : Info) : (s.raise c code i).ladles = s.ladles := by
  unfold State.raise
  split
  · exact (State.freeze_ladles _).trans (State.enter_ladles _ _ _ _)
  · exact (State.freeze_ladles _).trans (State.enter_ladles _ _ _ _)
  · exact State.enter_ladles _ _ _ _

/-- A list or a return out of order freezes the ACTIVE tenant with LDL_LIST. -/
theorem State.raise_outOfOrder (hw : nwf s.regs = true) (hc : c < 16) (ha : s.active c = true) :
    (s.raise c 0xE2 {}).tState c = tsFrozen ∧ (s.raise c 0xE2 {}).fld (tnt c 0x100) 8 8 = 0xE2 ∧ (s.raise c 0xE2 {}).ladles = s.ladles := by
  obtain ⟨hstate, hlast, -, -⟩ := State.raise_freezes {} hw hc (beq_iff_eq.mp ha) (show 0xE2 < 256 by decide) rfl (.inr rfl)
  exact ⟨hstate, hlast, State.raise_ladles _ _⟩

/-! ## LADLE_CTL_WRITE (R458) -/

/-- Only EN, ROLE, PAIR and STEP of TNT_LADLE_CTL, and the tenant's partition, say whether a write of it is refused. -/
theorem State.ladleRefused_congr {v : Nat} (hen : u.lEn c = s.lEn c) (hrole : u.lRole c = s.lRole c) (hpair : u.lPair c = s.lPair c)
    (hstep : u.lRecipe c = s.lRecipe c) (hpart : u.part c = s.part c) : u.ladleRefused c 0x300 v = s.ladleRefused c 0x300 v := by
  simp only [State.ladleRefused, hen, hrole, hpair, hstep, hpart]
  rfl

/-- TNT_LADLE_CTL once a written BAD has cleared BAD. -/
def State.badCleared (s : State) (c v : Nat) : State := if bitOf v 12 then s.setFlag (tnt c 0x300) 12 false else s

theorem State.badCleared_frame (v : Nat) : s.badCleared c v = { s with regs := (s.badCleared c v).regs } :=
  ite_of_both (Q := fun u : State => u = { s with regs := u.regs }) rfl rfl

theorem State.badCleared_wf (v : Nat) (hw : nwf s.regs = true) : nwf (s.badCleared c v).regs = true :=
  ite_of_both (Q := fun u : State => nwf u.regs = true) (State.nwf_setFlag _ _ _ hw) hw

/-- BAD alone is cleared. -/
theorem State.badCleared_fld (v : Nat) (hw : nwf s.regs = true) {lo k : Nat} (h : lo + k ≤ 12 ∨ 13 ≤ lo) :
    (s.badCleared c v).fld (tnt c 0x300) lo k = s.fld (tnt c 0x300) lo k := by
  refine ite_of_both (Q := fun u : State => u.fld (tnt c 0x300) lo k = s.fld (tnt c 0x300) lo k) ?_ rfl
  rcases h with h | h
  · exact State.fld_setFld_below _ hw (by decide) h
  · exact State.fld_setFld_above _ hw (by decide) h

theorem State.badCleared_flag (v : Nat) (hw : nwf s.regs = true) :
    (s.badCleared c v).flag (tnt c 0x300) 12 = (s.flag (tnt c 0x300) 12 && !bitOf v 12) := by
  unfold State.badCleared
  cases bitOf v 12
  · simp
  · simp [State.flag_setFlag_same _ _ _ hw (show 12 < 32 by decide)]

theorem State.badCleared_refused (v : Nat) (hw : nwf s.regs = true) : (s.badCleared c v).ladleRefused c 0x300 v = s.ladleRefused c 0x300 v := by
  refine State.ladleRefused_congr ?_ (State.badCleared_fld v hw (.inl (by decide))) (State.badCleared_fld v hw (.inl (by decide)))
    (State.badCleared_fld v hw (.inr (by decide))) (by rw [State.badCleared_frame]; rfl)
  rw [State.lEn, State.flag, State.badCleared_fld v hw (.inl (by decide))]
  rfl

theorem exec_ladleCtlWrite {v : W32} (hc : c < 16) (hs : s.serves = true) (hp : s.part c = some p) (hw : nwf s.regs = true) :
    exec (.ladleCtlWrite c v) s = .next (if s.ladleRefused c 0x300 v.toNat then (s.badCleared c v.toNat).setFlag (tnt c 0x300) 12 true
      else (s.badCleared c v.toNat).updLadle c fun l => { l with writes := l.writes ++ [(0x300, v.toNat)] }) := by
  have hruns : ¬(16 ≤ c ∨ (!s.serves) = true ∨ (s.part c).isNone = true) := by simp [hs, hp, hc]
  have hclear : (if 0x300 = 0x300 ∧ bitOf v.toNat 12 = true then s.setFlag (tnt c 0x300) 12 false else s) = s.badCleared c v.toNat := by
    simp [State.badCleared]
  refine (if_neg hruns).trans (congrArg Host.Outcome.next ?_)
  unfold State.ladleWrite
  rw [hclear, ← State.badCleared_refused v.toNat hw]

/-! ## Lists that arrive (R446) -/

theorem length_entBytes (e : SEnt) (dir first count idx : Nat) : (entBytes e dir first count idx).length = 32 := by
  simp [entBytes]

theorem BList.length_header (l : BList) (k : Nat) : (l.header k).length = 64 := by
  simp [BList.header]

theorem length_flatMap_const {α β : Type} {f : α → List β} {k : Nat} (hf : ∀ a, (f a).length = k) (l : List α) :
    (l.flatMap f).length = k * l.length := by
  rw [List.length_flatMap, List.map_congr_left fun a _ => hf a, List.map_const', List.sum_replicate, smul_eq_mul, Nat.mul_comm]

theorem BList.length_rowBytes (l : BList) (tokens : Bool) : (l.rowBytes tokens).length = 8 * l.rows := by
  have hlen : (l.ents.mapIdx fun i e => (List.range e.nrows).flatMap fun r =>
      leBytes 4 (if tokens then l.toks.getD (e.firstRow + r) 0 else 0) ++ leBytes 2 i ++
      leBytes 1 ((e.sample && r + 1 == e.nrows).toNat + 2 * e.skip.toNat) ++ leBytes 1 0).map List.length = l.ents.map fun e => 8 * e.nrows := by
    refine List.ext_getElem (by simp) fun i h _ => ?_
    simp only [List.getElem_map, List.getElem_mapIdx]
    rw [length_flatMap_const (k := 8) fun r => by simp, List.length_range]
  rw [BList.rowBytes, List.length_flatten, hlen, BList.rows, ← List.sum_map_mul_left]

/-- The header of a list and its entries in the receive buffer, then its rows, then its chain record. -/
def State.listStored (s : State) (c : Nat) (x : BList) : State :=
  let a := s.recvBuf c x.bseq
  let s := (s.taWrite c a (x.header 0) false).taWrite c (a + 0x1000) (x.ents.flatMap fun e => entBytes e 0 0 0 0) false
  let s := s.taWrite c (a + 0x80000) (x.rowBytes true) false
  s.taWrite c (a + 0x3FFF80) (x.chain ++ x.input ++ leBytes 8 x.bseq ++ leBytes 24 0) false

theorem State.listStored_frame (x : BList) : s.listStored c x = { s with
    hbm := (s.listStored c x).hbm, hbmBad := (s.listStored c x).hbmBad, msc := (s.listStored c x).msc } := by
  unfold State.listStored
  extract_lets a u1 u2
  have h1 : u1 = { s with hbm := u1.hbm, hbmBad := u1.hbmBad, msc := u1.msc } := by
    subst u1
    rw [State.taWrite_frame, State.taWrite_frame]
  have h2 : u2 = { u1 with hbm := u2.hbm, hbmBad := u2.hbmBad, msc := u2.msc } := State.taWrite_frame _ _ _
  clear_value u1 u2
  rw [State.taWrite_frame, h2, h1]

/-- A write at `lo` or above leaves the bytes of the own range below. -/
theorem State.taWrite_above {lo b : Nat} {bs : List Byte} (hp : s.part c = some p) (hw : nwf s.hbm = true) (hlo : lo ≤ b)
    (hb : b + bs.length ≤ p.taSize) : OwnWrites p (lo ≤ ·) s (s.taWrite c b bs false) :=
  (State.taWrite_own hp hw bs false hb).1.mono fun _ h => hlo.trans h.1

/-- What is written of a list after its header, in its receive buffer at `a`. -/
theorem State.listBody_above {x : BList} {a : Nat} (hp : s.part c = some p) (hw : nwf s.hbm = true) (hents : x.ents.length ≤ 1024)
    (hrows : x.rows ≤ 65536) (hchain : x.chain.length ≤ 48) (hinput : x.input.length ≤ 48) (ha : a + 2 ^ 22 ≤ p.taSize) :
    OwnWrites p (a + 64 ≤ ·) s (((s.taWrite c (a + 0x1000) (x.ents.flatMap fun e => entBytes e 0 0 0 0) false).taWrite c (a + 0x80000)
      (x.rowBytes true) false).taWrite c (a + 0x3FFF80) (x.chain ++ x.input ++ leBytes 8 x.bseq ++ leBytes 24 0) false) := by
  have hentLen : (x.ents.flatMap fun e => entBytes e 0 0 0 0).length = 32 * x.ents.length :=
    length_flatMap_const (fun e => length_entBytes e 0 0 0 0) _
  have hrowLen : (x.rowBytes true).length = 8 * x.rows := x.length_rowBytes true
  have htailLen : (x.chain ++ x.input ++ leBytes 8 x.bseq ++ leBytes 24 0).length ≤ 128 := by
    simp only [List.length_append, length_leBytes]
    omega
  generalize (x.ents.flatMap fun e => entBytes e 0 0 0 0) = b1 at *
  generalize x.rowBytes true = b2 at *
  generalize x.chain ++ x.input ++ leBytes 8 x.bseq ++ leBytes 24 0 = b3 at *
  have h1 := State.taWrite_above (bs := b1) hp hw (show a + 64 ≤ a + 0x1000 by omega) (by omega)
  have h2 := State.taWrite_above (bs := b2) (h1.part.trans hp) h1.wf (show a + 64 ≤ a + 0x80000 by omega) (by omega)
  have h12 := h1.trans h2
  have h3 := State.taWrite_above (bs := b3) (h12.part.trans hp) h12.wf (show a + 64 ≤ a + 0x3FFF80 by omega) (by omega)
  exact h12.trans h3

theorem getD_of_ownBytes {a k i : Nat} {l : List Byte} (h : t.ownBytes p a k = l) (hi : i < k) : l.getD i 0 = t.byteAt p (a + i) := by
  subst h
  rw [List.getD_eq_getElem?_getD, List.getElem?_eq_getElem (by rw [State.length_ownBytes]; exact hi), State.getElem_ownBytes]
  rfl

/-- The header stands at the start of the list's receive buffer. -/
theorem State.listStored_header {x : BList} (hp : s.part c = some p) (hw : nwf s.hbm = true) (hents : x.ents.length ≤ 1024)
    (hrows : x.rows ≤ 65536) (hchain : x.chain.length ≤ 48) (hinput : x.input.length ≤ 48) (ha : s.recvBuf c x.bseq + 2 ^ 22 ≤ p.taSize)
    {i : Nat} (hi : i < 64) :
    nget (s.listStored c x).hbm (groupAddr p.chgroups (s.recvBuf c x.bseq + i)) = (x.header 0).getD i 0 := by
  obtain ⟨hhead, hback⟩ := State.taWrite_own hp hw (x.header 0) false (a := s.recvBuf c x.bseq) (by rw [BList.length_header]; omega)
  have hbody := State.listBody_above (hhead.part.trans hp) hhead.wf hents hrows hchain hinput ha
  rw [BList.length_header] at hback
  rw [getD_of_ownBytes hback hi]
  exact hbody.bytes _ (by omega) (by omega)

theorem exec_batchListReceive {src : Nat} {x : BList} (hc : c < 16) (hp : s.part c = some p) (hen : s.lEn c = true) (hrole : 2 ≤ s.lRole c) :
    exec (.batchListReceive c src x) s = .next (if x.bseq = (s.ladle c).nextList + (s.ladle c).lists.length
      then (s.listStored c x).updLadle c fun l => { l with lists := l.lists ++ [(src, x)] } else s.raise c 0xE2 {}) := by
  have hruns : ¬(16 ≤ c ∨ (s.part c).isNone = true ∨ (!s.lEn c) = true ∨ s.lForms c = true) := by
    simp [hp, hc, hen, State.lForms]
    omega
  refine (if_neg hruns).trans (congrArg Host.Outcome.next ?_)
  exact ite_not _ _ _

/-! ## Credits (R446) -/

/-- The credit of a batch noted: lists below it may go. -/
def State.credited (s : State) (c b : Nat) : State :=
  (s.updLadle c fun l => { l with taken := max l.taken (b + 1) }).updLadle c fun l =>
    { l with unsent := l.unsent.filter fun x => !decide (x.bseq < l.taken + 4) }

theorem State.recvCredit_linkOnly (b : Nat) : LinkOnly (s.credited c b) (s.recvCredit c b) :=
  foldl_inv (Q := LinkOnly (s.credited c b)) (fun _ _ h => h.trans (State.sendPair_linkOnly _ _ _)) (.refl _)

theorem State.credited_ladle (b : Nat) (hc : c < 16) : (s.credited c b).ladle c = { s.ladle c with
    taken := max (s.ladle c).taken (b + 1),
    unsent := (s.ladle c).unsent.filter fun x => !decide (x.bseq < max (s.ladle c).taken (b + 1) + 4) } := by
  rw [State.credited, State.ladle_updLadle_same _ hc, State.ladle_updLadle_same _ hc]

/-! ## The registers and the Ladle's state while results are written (R397, R469) -/

/-- From `s` to `t` TNT_LADLE_CTL, the Ladle's state and the launches stay. -/
structure KeepsLadle (c : Nat) (s t : State) : Prop where
  words : WordsOnly (· ≠ tnt c 0x300) s t
  ladles : t.ladles = s.ladles
  launches : t.front.launches = s.front.launches

theorem KeepsLadle.refl (s : State) : KeepsLadle c s s := ⟨.refl s, rfl, rfl⟩

theorem KeepsLadle.trans (h : KeepsLadle c s t) (g : KeepsLadle c t u) : KeepsLadle c s u :=
  ⟨h.words.trans g.words, g.ladles.trans h.ladles, g.launches.trans h.launches⟩

theorem KeepsLadle.ite {b : Prop} [Decidable b] (ht : KeepsLadle c s t) (hu : KeepsLadle c s u) : KeepsLadle c s (if b then t else u) :=
  ite_of_both ht hu

theorem KeepsLadle.of_eq (hr : t.regs = s.regs) (hl : t.ladles = s.ladles) (hf : t.front = s.front) : KeepsLadle c s t :=
  ⟨.of_regs_eq hr, hl, by rw [hf]⟩

theorem KeepsLadle.foldl {α : Type} {f : State → α → State} {l : List α} (hf : ∀ s x, KeepsLadle c s (f s x)) (s : State) :
    KeepsLadle c s (l.foldl f s) :=
  foldl_inv (Q := KeepsLadle c s) (fun _ _ h => h.trans (hf _ _)) (.refl s)

theorem LinkOnly.keepsLadle (h : LinkOnly s t) : KeepsLadle c s t := .of_eq h.regs h.ladles h.front

theorem not_fault_ladleCtl (hc : c < 16) : ¬(FaultWords c (tnt c 0x300) ∨ FrozenWords c (tnt c 0x300)) := by
  rintro (h | h | h | h | ⟨k, hk, h⟩)
  · simp only [FaultWords, tnt] at h; omega
  all_goals simp only [tnt, rng] at h; omega

theorem State.raise_keepsLadle {code : Nat} (i : Info) (hc : c < 16) (hcode : code < 256) (hten : (faultClass code).2.1 = true) :
    KeepsLadle c s (s.raise c code i) where
  words :=
    { wf := fun hw => (State.raise_frozenWords i hw hc hcode hten).wf hw
      word := fun hw a ha => (State.raise_frozenWords i hw hc hcode hten).word hw a fun h => by
        obtain rfl := not_not.mp ha
        exact not_fault_ladleCtl hc h }
  ladles := State.raise_ladles _ _
  launches := by rw [State.raise_front]

theorem State.tntEvent_keepsLadle (b : Nat) : KeepsLadle c s (s.tntEvent c b) where
  words := s.tntEvent_words c b (by simp [tnt])
  ladles := State.tntEvent_ladles _ _ _
  launches := by rw [State.tntEvent_front]

theorem State.pushLog_keepsLadle (es : List (List Byte)) : KeepsLadle c s (s.pushLog c es) := by
  unfold State.pushLog
  extract_lets first logs v
  have hv : KeepsLadle c s v := ⟨.of_regs_eq rfl, rfl, rfl⟩
  exact .ite (hv.trans (State.tntEvent_keepsLadle _)) hv

theorem State.ringWord_keepsLadle {r o : Nat} (hc : c < 16) (ho : o < 0x100) (v : W32) : KeepsLadle c s (s.setWord (rng c r o) v) where
  words := s.setWord_words _ (by simp only [tnt, rng]; omega)
  ladles := rfl
  launches := rfl

theorem State.signal_keepsLadle (hc : c < 16) (ring : Nat) (e : List Byte) (w : Waiter) : KeepsLadle c s (s.signal c ring e w).1 := by
  have hbump : KeepsLadle c s (s.bump (rng c ring 0x58) 1) := State.ringWord_keepsLadle hc (by decide) _
  unfold State.signal
  extract_lets v member pair op ctr dst
  clear_value dst
  split
  · split
    · exact .of_eq rfl rfl rfl
    · exact hbump
  · cases dst with
    | none => exact hbump
    | some d =>
      dsimp only
      split
      · exact .ite (.of_eq rfl rfl rfl) (.of_eq rfl rfl rfl)
      · split
        next hp => exact (s.sendPacket_linkOnly _ _ _ _ hp).keepsLadle
        next => exact hbump

theorem State.holdAct_keepsLadle (tick : Nat) (a : Action) : KeepsLadle c s (s.holdAct c tick a) := .of_eq rfl rfl rfl

theorem State.sigAct_keepsLadle (hc : c < 16) (r i seq tick : Nat) (out : Bool) : KeepsLadle c s (s.sigAct c r i seq tick out) := by
  unfold State.sigAct
  split
  · exact State.raise_keepsLadle _ hc (by decide) rfl
  · exact .ite (State.holdAct_keepsLadle _ _) (.ite (State.pushLog_keepsLadle _) (State.signal_keepsLadle hc _ _ _))

theorem State.taWrite_keepsLadle (a : Nat) (bs : List Byte) (bad : Bool) : KeepsLadle c s (s.taWrite c a bs bad) := by
  rw [State.taWrite_frame]
  exact .of_eq rfl rfl rfl

theorem State.outputRun_keepsLadle (hc : c < 16) (r : Nat) (recs : List (List Byte)) (tick : Nat) (ok : Bool) :
    KeepsLadle c s (s.outputRun c r recs tick ok) := by
  unfold State.outputRun
  split
  · exact .refl s
  next p _ =>
    extract_lets size n0 base addr u1 cnt u2 tail sig held first runs tailE
    have h1 : KeepsLadle c s u1 := .foldl (fun u y => State.taWrite_keepsLadle _ _ _) s
    have h2 : KeepsLadle c s u2 := h1.trans (State.ringWord_keepsLadle hc (by decide) _)
    have hsig (v : State) : KeepsLadle c v (sig v) := .ite (State.sigAct_keepsLadle hc _ _ _ _ _) (.refl v)
    have hstall (v : State) : KeepsLadle c v (v.setRingState c r 3) := State.ringWord_keepsLadle hc (by decide) _
    have hsend (v : State) (o : Out) : KeepsLadle c v (v.send o) := .of_eq rfl rfl rfl
    clear_value sig u2
    refine .ite (h2.trans ?_) (.ite (h2.trans ?_) (.ite (h2.trans ?_) (h2.trans ?_)))
    · exact ((KeepsLadle.foldl (fun u y => State.holdAct_keepsLadle _ _) _).trans (State.holdAct_keepsLadle _ _)).trans (hsig _)
    · exact (State.pushLog_keepsLadle _).trans (hsig _)
    · have hsent : KeepsLadle c u2 (recs.zipIdx.foldl (fun v y => v.send (.host (.vf c) (addr y.2) y.1)) u2) :=
        .foldl (fun v y => hsend v _) u2
      exact (hsent.trans (hsend _ _)).trans (hsig _)
    · have hpushed : KeepsLadle c u2 (runs.foldl (fun v e => v.pushLog c [e]) u2) := .foldl (fun v y => State.pushLog_keepsLadle _) _
      have hlogged := hpushed.trans (State.pushLog_keepsLadle [tailE])
      exact ((hlogged.trans (hstall _)).trans (State.raise_keepsLadle _ hc (by decide) rfl)).trans (hsig _)

theorem State.writeSeal_keepsLadle (m : List Byte) (two : Bool) : KeepsLadle c s (s.writeSeal c m two) := by
  unfold State.writeSeal
  split
  · exact .refl s
  · dsimp only
    have hfresh : KeepsLadle c s s.fresh.2.fresh.2 := .of_eq rfl rfl rfl
    have hquad (u : State) : KeepsLadle c u (u.addQuad (tnt c 0xA8) 1) :=
      ⟨State.addQuad_words _ _ (by simp [tnt]) (by simp only [tnt]; omega), rfl, rfl⟩
    exact (hfresh.trans (State.taWrite_keepsLadle _ _ _)).trans (hquad _)

/-! ## A launch that has gone stays gone -/

/-- From `s` to `t` no launch of a batch appears. -/
structure KeepsGone (c q : Nat) (s t : State) : Prop where
  gone : s.launch c none q = none → t.launch c none q = none

theorem KeepsGone.refl (s : State) : KeepsGone c q s s := ⟨id⟩

theorem KeepsGone.trans (h : KeepsGone c q s t) (g : KeepsGone c q t u) : KeepsGone c q s u := ⟨fun hs => g.gone (h.gone hs)⟩

theorem KeepsGone.ite {b : Prop} [Decidable b] (ht : KeepsGone c q s t) (hu : KeepsGone c q s u) : KeepsGone c q s (if b then t else u) :=
  ite_of_both ht hu

theorem KeepsGone.of_launches (h : t.front.launches = s.front.launches) : KeepsGone c q s t := ⟨fun hs => by rw [State.launch, h]; exact hs⟩

theorem KeepsGone.of_front (h : t.front = s.front) : KeepsGone c q s t := .of_launches (by rw [h])

theorem KeepsGone.foldl {α : Type} {f : State → α → State} {l : List α} (hf : ∀ s x, KeepsGone c q s (f s x)) (s : State) :
    KeepsGone c q s (l.foldl f s) :=
  foldl_inv (Q := KeepsGone c q s) (fun _ _ h => h.trans (hf _ _)) (.refl s)

theorem KeepsLadle.keepsGone {d : Nat} (h : KeepsLadle c s t) : KeepsGone d q s t := .of_launches h.launches

/-- A change of a launch that keeps whose it is. -/
theorem State.updLaunch_keepsGone {d key : Nat} {ring : Option Nat} {f : Launch → Launch} (hf : ∀ l a b k, (f l).is a b k = l.is a b k) :
    KeepsGone c q s (s.updLaunch d ring key f) where
  gone hs := by
    simp only [State.launch, State.updLaunch, List.find?_eq_none, List.mem_map] at hs ⊢
    rintro y ⟨l, hl, rfl⟩
    split
    · rw [hf]
      exact hs l hl
    · exact hs l hl

theorem State.updCmd_keepsGone {d : Nat} (f : RCmd → RCmd) : KeepsGone c q s (s.updCmd d ref f) := by
  cases ref with
  | ring r csn => exact .of_launches rfl
  | stored ring key i => exact State.updLaunch_keepsGone fun _ _ _ _ => rfl
  | item m i => exact .of_launches rfl

theorem State.sigAct_keepsGone {d : Nat} (r i seq tick : Nat) (out : Bool) : KeepsGone c q s (s.sigAct d r i seq tick out) := by
  unfold State.sigAct
  split
  · exact .of_front (State.raise_front _ _)
  · have hlog (es : List (List Byte)) : KeepsGone c q s (s.pushLog d es) := by
      unfold State.pushLog
      extract_lets first logs v
      have hv : KeepsGone c q s v := .of_launches rfl
      exact .ite (hv.trans (.of_front (State.tntEvent_front _ _ _))) hv
    exact .ite (.of_front rfl) (.ite (hlog _) (.of_front (State.signal_front _ _ _)))

theorem State.releaseBuf_launches (recipe buf : Nat) : (s.releaseBuf recipe buf).front.launches = s.front.launches := by
  unfold State.releaseBuf
  split <;> rfl

/-- Launches that are taken out of the list. -/
theorem KeepsGone.of_filter {g : Launch → Bool} (h : t.front.launches = s.front.launches.filter g) : KeepsGone c q s t where
  gone hs := by
    simp only [State.launch, List.find?_eq_none, h] at hs ⊢
    exact fun l hl => hs l (List.mem_of_mem_filter hl)

theorem State.endLaunch_keepsGone {d : Nat} (ring : Option Nat) (key : Nat) : KeepsGone c q s (s.endLaunch d ring key) := by
  unfold State.endLaunch
  split
  next l r _ =>
    extract_lets on u front v
    have hv : KeepsGone c q s v :=
      .of_filter (g := fun x => !x.is d (some r) key) (congrArg (List.filter _) (State.releaseBuf_launches l.recipe l.buf))
    clear_value v
    exact .ite (hv.trans (State.updCmd_keepsGone _)) (.refl s)
  next => exact .refl s

theorem State.endCmd_keepsGone {d : Nat} : KeepsGone c q s (s.endCmd d ref) := by
  have hdone : KeepsGone c q s (s.updCmd d ref RCmd.finish) := State.updCmd_keepsGone _
  have hsig : KeepsGone c q s ((s.updCmd d ref RCmd.finish).storedSig d ref) := by
    unfold State.storedSig
    split
    · exact .ite (hdone.trans (State.sigAct_keepsGone _ _ _ _ _)) hdone
    · exact hdone
  unfold State.endCmd
  generalize (s.updCmd d ref RCmd.finish).storedSig d ref = v at hsig
  dsimp only
  split
  · refine KeepsGone.trans ?_ (State.endLaunch_keepsGone _ _)
    split
    · exact hsig.trans (State.updCmd_keepsGone _)
    · exact hsig
  · exact hsig

theorem State.endItem_keepsGone : KeepsGone c q s (s.endItem n) := by
  unfold State.endItem
  split
  · exact .refl s
  next x _ =>
    extract_lets u1 front u2
    have h1 : KeepsGone c q s u1 := .foldl (fun u y => State.updCmd_keepsGone _) s
    have h2 : KeepsGone c q s u2 := h1.trans (.of_launches rfl)
    clear_value u2
    split
    have h3 : KeepsGone c q s { u2 with front := { u2.front with
        routes := u2.front.routes.filter fun r => !(r.tenant == x.tenant && r.ref == x.ref) } } := h2.trans (.of_launches rfl)
    exact .ite ((h3.trans (.of_front (State.event_front _ _ _ _ _ _ _))).trans State.endCmd_keepsGone) h2

theorem State.startScatter_keepsGone : KeepsGone c q s (s.startScatter n) := by
  unfold State.startScatter
  split
  · exact .refl s
  · split
    · exact .of_launches rfl
    · exact .refl s

theorem State.endWork_keepsGone {d : Nat} : KeepsGone c q s (s.endWork d ref) := by
  unfold State.endWork
  split
  · exact .of_launches rfl
  · exact .of_launches rfl
  · exact State.endItem_keepsGone
  next i j _ _ _ =>
    extract_lets u
    have hu : KeepsGone c q s u := State.updCmd_keepsGone _
    clear_value u
    split
    · exact .ite (hu.trans State.startScatter_keepsGone) hu
    · exact hu
  · exact State.endCmd_keepsGone

theorem State.touch_keepsGone {d : Nat} : KeepsGone c q s (s.touch d n) := .ite (.refl s) (.of_front rfl)

theorem State.mirror_keepsGone {d : Nat} (m : MirRec) : KeepsGone c q s (s.mirror d m) :=
  .ite (.of_front (s.sendTwin_linkOnly _ _).front) (.refl s)

theorem State.updSess_keepsGone (f : Sess → Sess) : KeepsGone c q s (s.updSess n f) := .of_front rfl

theorem State.coverFeeds_keepsGone {d : Nat} (fuel k : Nat) : KeepsGone c q s (s.coverFeeds d n fuel k) := by
  induction fuel generalizing s k with
  | zero => exact .refl s
  | succ fuel ih =>
    unfold State.coverFeeds
    split
    · exact .refl s
    next f rest _ =>
      refine .ite (State.updSess_keepsGone _) ?_
      exact ((State.updSess_keepsGone _).trans State.endWork_keepsGone).trans (ih _)

theorem State.dropFeeds_keepsGone {d : Nat} : KeepsGone c q s (s.dropFeeds d n) := by
  unfold State.dropFeeds
  extract_lets fs u
  have hu : KeepsGone c q s u := State.updSess_keepsGone _
  exact hu.trans (.foldl (fun v f => (State.updCmd_keepsGone _).trans State.endWork_keepsGone) u)

theorem State.stallEntry_keepsGone {d : Nat} (e : RetEnt) (b : Option SEnt) : KeepsGone c q s (s.stallEntry d e b) := by
  unfold State.stallEntry
  extract_lets u
  have hu : KeepsGone c q s u := .of_front rfl
  clear_value u
  split
  · exact .ite hu (hu.trans (State.updSess_keepsGone _))
  · exact hu

theorem State.applyRetEnt_keepsGone {d : Nat} (e : RetEnt) (b : Option SEnt) : KeepsGone c q s (s.applyRetEnt d e b) := by
  unfold State.applyRetEnt
  extract_lets u0 m forms prefill u1 lastChunk u2 u3
  have h0 : KeepsGone c q s u0 := State.touch_keepsGone
  have h1 : KeepsGone c q u0 u1 := by
    subst u1
    split
    · exact State.updSess_keepsGone _
    · exact .refl u0
  have h2 : KeepsGone c q u1 u2 := .ite (State.coverFeeds_keepsGone _ _) (.refl u1)
  have h3 : KeepsGone c q u2 u3 := .ite ((KeepsGone.ite State.dropFeeds_keepsGone (.refl u2)).trans (State.updSess_keepsGone _))
    (.ite (State.updSess_keepsGone _) (.refl u2))
  clear_value u0 u1 u2 u3
  exact .ite (h0.trans (State.stallEntry_keepsGone _ _)) (((h0.trans (h1.trans h2)).trans h3).trans (State.updSess_keepsGone _))

theorem State.applyRet_keepsGone {d : Nat} (r : Ret) : KeepsGone c q s (s.applyRet d r) := by
  unfold State.applyRet
  extract_lets batch u
  have hu : KeepsGone c q s u := .foldl (fun v e => (State.applyRetEnt_keepsGone _ _).trans (State.mirror_keepsGone _)) s
  exact hu.trans (.of_front rfl)

/-! ## The end of a batch's launch (R445) -/

/-- The module once a launch of a batch is over and the batch is marked done. -/
def State.launchOver (s : State) (c q : Nat) (l : Launch) : State :=
  let s := s.releaseBuf l.recipe l.buf
  let s : State := { s with front := { s.front with
    launches := s.front.launches.filter fun x => !x.is c none q, past := s.front.past ++ [.launch l] } }
  s.updLadle c fun x => { x with batches := x.batches.map fun y => if y.list.bseq == q then { y with done := true } else y }

/-- The outputs of a completed batch, and its seal. -/
def State.batchWritten (s : State) (c : Nat) (b : Batch) (single ok : Bool) : State :=
  let l := b.list
  let recs := (s.batchResults c l).filterMap fun (e, r) => r.map fun (ring, bytes) => (e.session, ring, bytes)
  let digest := sha384 (recs.flatMap fun (_, _, bytes) => bytes)
  let byNum := recs.mergeSort fun a b => decide (a.1 ≤ b.1)
  let s := (List.range 8).foldl (fun s r =>
    let mine := (byNum.filter fun x => x.2.1 == r).map fun x => x.2.2
    if mine.isEmpty then s else s.outputRun c r mine b.tick ok) s
  if !s.seals c then s
  else if s.inUnit c b.tick && !single then s.unitOf c b.tick fun u => { u with sealMsg := some (s.sealMessage c l digest false) }
  else s.writeSeal c (s.sealMessage c l digest single) false

/-- The return of a completed batch. -/
def State.batchRet (s : State) (c : Nat) (l : BList) : Ret := { bseq := l.bseq, ents := (s.batchResults c l).map (·.1) }

theorem State.finishBatch_eq (b : Batch) (single ok : Bool) : s.finishBatch c b single ok =
    if (s.batchWritten c b single ok).lRole c = 3 then
      ((bitsOf 32 ((s.batchWritten c b single ok).word (tnt c 0x310)).toNat).foldl (fun u m =>
        if m = u.moduleId / 2 then u else u.sendPair c m 2 (.ret c (s.batchRet c b.list))) (s.batchWritten c b single ok)).applyRet c
          (s.batchRet c b.list)
    else (s.batchWritten c b single ok).updLadle c fun x => { x with rets := x.rets ++ [s.batchRet c b.list] } := rfl

theorem State.launchOver_frame (l : Launch) : s.launchOver c q l = { s with
    front := (s.launchOver c q l).front, ladles := (s.launchOver c q l).ladles } := by
  unfold State.launchOver State.releaseBuf
  split <;> rfl

theorem State.launchOver_ladle (l : Launch) (hc : c < 16) : (s.launchOver c q l).ladle c = { s.ladle c with
    batches := (s.ladle c).batches.map fun y => if y.list.bseq == q then { y with done := true } else y } := by
  unfold State.launchOver State.releaseBuf
  split <;> exact State.ladle_updLadle_same _ hc

theorem State.launchOver_launch (l : Launch) : (s.launchOver c q l).launch c none q = none := by
  have hfront : (s.launchOver c q l).front.launches = s.front.launches.filter fun x => !x.is c none q :=
    congrArg (List.filter _) (State.releaseBuf_launches l.recipe l.buf)
  rw [State.launch, hfront, List.find?_eq_none]
  intro x hx
  have hne := (List.mem_filter.mp hx).2
  simpa using hne

theorem State.batchWritten_keepsLadle (hc : c < 16) (b : Batch) (single ok : Bool) : KeepsLadle c s (s.batchWritten c b single ok) := by
  unfold State.batchWritten
  extract_lets l recs digest byNum u
  have hu : KeepsLadle c s u := .foldl (fun v r => .ite (.refl v) (State.outputRun_keepsLadle hc _ _ _ _)) s
  clear_value u
  exact .ite hu (.ite (hu.trans (.of_eq rfl rfl rfl)) (hu.trans (State.writeSeal_keepsLadle _ _)))

theorem State.finishBatch_keepsGone (hc : c < 16) (b : Batch) (single ok : Bool) : KeepsGone c q s (s.finishBatch c b single ok) := by
  have hwritten := (State.batchWritten_keepsLadle (s := s) hc b single ok).keepsGone (d := c) (q := q)
  rw [State.finishBatch_eq]
  refine .ite ?_ (hwritten.trans (.of_front rfl))
  have hsend (v : State) (m : Nat) : KeepsGone c q v (if m = v.moduleId / 2 then v else v.sendPair c m 2 (.ret c (s.batchRet c b.list))) :=
    .ite (.refl v) (.of_front (State.sendPair_linkOnly _ _ _).front)
  exact (hwritten.trans (.foldl hsend _)).trans (State.applyRet_keepsGone _)

/-- On ONLY the return waits for the boundary. -/
theorem State.finishBatch_only (hw : nwf s.regs = true) (hc : c < 16) (hrole : s.lRole c = 0) (b : Batch) (single ok : Bool) :
    ((s.finishBatch c b single ok).ladle c).rets = (s.ladle c).rets ++ [s.batchRet c b.list] := by
  have hwritten := State.batchWritten_keepsLadle (s := s) hc b single ok
  have hkept : (s.batchWritten c b single ok).lRole c = 0 := (hwritten.words.fld_eq hw (by simp) 1 2).trans hrole
  rw [State.finishBatch_eq, if_neg (by omega), State.ladle_updLadle_same _ hc, State.ladle_congr hwritten.ladles]

theorem exec_ladleLaunchComplete {l : Launch} {b : Batch} {ok : Bool} (ha : s.active c = true) (hl : s.launch c none q = some l)
    (hdone : ∀ y ∈ l.cmds, y.st = .done) (hb : (s.ladle c).batches.find? (fun y => y.list.bseq == q && !y.done) = some b)
    (hread : s.lSamples c = true → ((s.taRead c (s.ladleBuf c q + 0x240000) (4 * b.list.samples)).any (·.2)) = false) :
    exec (.ladleLaunchComplete c q ok) s = .next (if s.lSamples c then (s.launchOver c q l).finishBatch c b b.single ok else s.launchOver c q l) := by
  have hall : (l.cmds.all fun y => y.st == .done) = true := List.all_eq_true.mpr fun y hy => beq_iff_eq.mpr (hdone y hy)
  have hgood : (s.lSamples c && ((s.taRead c (s.ladleBuf c q + 0x240000) (4 * b.list.samples)).map (·.2)).getD false) = false := by
    cases hs : s.lSamples c
    · rfl
    · have hclean := hread hs
      cases hr : s.taRead c (s.ladleBuf c q + 0x240000) (4 * b.list.samples) with
      | none => rfl
      | some y =>
        rw [hr] at hclean
        exact hclean
  have hsamples : (s.launchOver c q l).lSamples c = s.lSamples c := by
    rw [State.launchOver_frame]
    rfl
  show execLadleLaunchComplete c q ok s = _
  unfold execLadleLaunchComplete
  rw [hl, hb]
  dsimp only
  rw [hall, ha, if_neg (by decide), hgood, if_neg (by decide), ← hsamples]
  rfl

end

/-- Settles O55: settings, lists, credits, returns, and the end of a batch's launch. -/
theorem ladleListsReturnsAndLaunches : Obligations.LadleListsReturnsAndLaunches := by
  intro s c p htidy hp
  have hw := State.tidy_regs htidy
  have hc := c.isLt
  refine ⟨fun v hs => ?_, fun src x hen hrole => ?_, fun b => ?_, fun r hen => ?_, fun q l b ok ha hl hdone hb hread => ?_⟩
  · have hexec := exec_ladleCtlWrite (v := v) hc hs hp hw
    have hwf := State.badCleared_wf (c := c) v.toNat hw
    split
    next href =>
      rw [href, if_pos rfl] at hexec
      refine ⟨_, hexec, State.flag_setFlag_same _ _ _ hwf (by decide), ?_, ?_, ?_⟩
      · rw [State.setFlag_ladles, State.badCleared_frame]
      · exact (State.fld_setFld_below _ hwf (by decide) (by decide)).trans (State.badCleared_fld _ hw (.inl (by decide)))
      · rw [State.badCleared_frame]
        rfl
    next href =>
      rw [if_neg href] at hexec
      refine ⟨_, hexec, ?_, State.badCleared_fld _ hw (.inl (by decide)), State.badCleared_flag _ hw, ?_⟩
      · rw [State.ladle_updLadle_same _ hc, State.badCleared_frame]
        rfl
      · rw [State.badCleared_frame]
        rfl
  · have hexec := exec_batchListReceive (src := src) (x := x) hc hp hen hrole
    split
    next hseq =>
      rw [if_pos hseq] at hexec
      refine ⟨_, hexec, ?_, ?_, ?_, fun hents hrows hchain hinput ha i hi => ?_⟩
      · rw [State.ladle_updLadle_same _ hc, State.listStored_frame]
        rfl
      · rw [State.listStored_frame]
        rfl
      · rw [State.listStored_frame]
        rfl
      · exact State.listStored_header hp (State.tidy_hbm htidy) hents hrows hchain hinput ha hi
    next hseq =>
      rw [if_neg hseq] at hexec
      exact fun ha => ⟨_, hexec, State.raise_outOfOrder hw hc ha⟩
  · have hexec : exec (.ladleCreditReceive c b) s = .next (s.recvCredit c b) := if_neg (by simp [hp])
    have hlink := State.recvCredit_linkOnly (s := s) (c := c) b
    have hladle : (s.recvCredit c b).ladle c = _ := (State.ladle_congr hlink.ladles).trans (State.credited_ladle b hc)
    refine ⟨_, hexec, ?_, ?_, ?_, hlink.regs, ?_⟩
    · rw [hladle]
    · rw [hladle]
    · rw [hladle]
    · rw [LinkOnly] at hlink
      rw [hlink]
      rfl
  · have hexec : exec (.returnReceive c r) s = .next (s.recvRet c r) := if_neg (by simp [hp, hen])
    unfold State.recvRet at hexec
    dsimp only at hexec
    split
    next hseq =>
      rw [if_pos hseq] at hexec
      exact ⟨_, hexec, State.ladle_updLadle_same _ hc, rfl, rfl, rfl⟩
    next hseq =>
      rw [if_neg hseq] at hexec
      exact fun ha => ⟨_, hexec, State.raise_outOfOrder hw hc ha⟩
  · refine ⟨_, exec_ladleLaunchComplete ha hl hdone hb hread, ?_, fun hrole => ?_, fun hrole => ?_⟩
    · have hgone := State.launchOver_launch (s := s) (c := c) (q := q) l
      exact ite_of_both (Q := fun t : State => t.launch c none q = none) ((State.finishBatch_keepsGone hc _ _ _).gone hgone) hgone
    · have hover := State.launchOver_frame (s := s) (c := c) (q := q) l
      have hq : b.list.bseq = q := by
        have hfound := List.find?_some hb
        simp only [Bool.and_eq_true, beq_iff_eq] at hfound
        exact hfound.1
      have hrole' : (s.launchOver c q l).lRole c = 0 := by rw [hover]; exact hrole
      have hret : (s.launchOver c q l).batchRet c b.list = { bseq := q, ents := (s.batchResults c b.list).map (·.1) } := by
        rw [State.batchRet, hq, hover]
        rfl
      rw [if_pos (by simp [State.lSamples, hrole]), State.finishBatch_only (by rw [hover]; exact hw) hc hrole', hret, State.launchOver_ladle _ hc]
    · rw [if_neg (by rcases hrole with h | h <;> simp [State.lSamples, h]), State.launchOver_ladle _ hc, State.launchOver_frame]
      exact ⟨rfl, rfl, rfl⟩

end Sys2Proof.Machine
end
